-- ==== Sys2Proof/Word.lean ====
section
/-! DEFINITION. The word types of the package and their plainest arithmetic: registers of 64 bits (R23), counts of
32 bits that wrap, bytes. Everything a test could show wrong (bit fields, byte order) stands in Machine/Bits.lean. -/
namespace Sys2Proof

/-- One byte of a memory-resident structure (R20). -/
abbrev Byte := BitVec 8

/-- A 32-bit count or half register. -/
abbrev W32 := BitVec 32

/-- A 64-bit register (R23). -/
abbrev W64 := BitVec 64

/-- A number as a 32-bit word, wrapping. -/
abbrev w32 (n : Nat) : W32 := BitVec.ofNat 32 n

/-- A number as a 64-bit word, wrapping. -/
abbrev w64 (n : Nat) : W64 := BitVec.ofNat 64 n

end Sys2Proof
end

