-- ==== Sys2Proof/Terms.lean ====
section
/-! DEFINITION. The names the spec gives to the parts of the package: dies, islands, message classes, mailboxes, access
kinds, link states, power states. Commands (Syntax.lean) and State (Machine/State.lean) are written in them. -/
namespace Sys2Proof

/-- What a flex site holds (R37): 0x1 a stack, 0x2 an L-die (Table 1.8). -/
inductive SiteKind where | stack | ldie
deriving DecidableEq, Repr

/-- Island kinds, the rows of Table 2.1 in their order (R54). -/
inductive IslandKind where
  | cluster | cFabric | farGroup | rootPort | baseIdurrum | cFerry | cralu | causeway
  | quad | shelf | ferryGroup | aFabric | sync | stackCtl | stackPhy | ldieLink | ldiePort
deriving DecidableEq, Repr

/-- Row number of a kind in Table 2.1, from 0 (R556, Table 19.4). -/
def IslandKind.code : IslandKind → Nat
  | .cluster => 0 | .cFabric => 1 | .farGroup => 2 | .rootPort => 3 | .baseIdurrum => 4 | .cFerry => 5
  | .cralu => 6 | .causeway => 7 | .quad => 8 | .shelf => 9 | .ferryGroup => 10 | .aFabric => 11
  | .sync => 12 | .stackCtl => 13 | .stackPhy => 14 | .ldieLink => 15 | .ldiePort => 16

/-- One island: its kind and its package index within the kind. -/
structure Island where
  kind : IslandKind
  idx  : Nat
deriving DecidableEq, Repr

/-- The five message classes of a strait (R57, R236). -/
inductive MsgClass where | req | snp | rsp | dat | cmp
deriving DecidableEq, Repr

/-- What a message asks of the island it arrives at, as far as Table 2.5 tells messages apart. -/
inductive MsgKind where | read | nonPosted | posted | other
deriving DecidableEq, Repr

/-- The nineteen mailboxes: one per partition window, the Steward's and the Keeper's (Table 4.1). -/
inductive Mbx where
  | part (p : Nat)
  | steward
  | keeper
deriving DecidableEq, Repr

/-- The transport a Keeper message arrives over (R142, R660). -/
inductive KeeperBus where | i3c | pcieVdm
deriving DecidableEq, Repr

/-- The mode that takes a trap (R199). -/
inductive TrapMode where | m | hs | vs
deriving DecidableEq, Repr

/-- Access kinds of the qualifier (Table 6.6): fetch, load, store or AMO, implicit. -/
inductive AccKind where | fetch | load | store | implicit
deriving DecidableEq, Repr

/-- Caching agents and other requesters of the directory protocol (R230, Table 7.7). -/
inductive Agent where
  | l3 (cluster : Nat)
  | slice (slot : Nat)
  | remote (position : Nat)
  | other
deriving DecidableEq, Repr

/-- Storage classes with codes of their own (Table 11.1) whose errors the data path meets. -/
inductive Storage where
  | far | near | cxl | scratch | bobbin | l1i | l1d | l2 | l3 | shelfCache | remote | strait | syncWord
deriving DecidableEq, Repr

/-- What the home package of a remote knot answers an operation (R491 to R494): performed with VALUE and LAST_SIGNALLER, a
wait held at a waiter entry, a wait that found no entry, BROKEN, or one of the halts. -/
inductive KnotAns where
  | done (value last : Nat)
  | held
  | noEntry
  | broken
  | notMember
  | badType
  | poisoned
deriving DecidableEq, Repr

/-- SOURCE encodings (Table 6.8). -/
def Storage.source : Storage → Nat
  | .l1i => 1 | .l1d => 2 | .l2 => 3 | .l3 => 4 | .shelfCache => 5 | .scratch => 6 | .near => 7 | .far => 8
  | .cxl => 9 | .remote => 0xA | .strait => 0xB | .syncWord => 0xC | .bobbin => 0

/-- What the array answers when an access or a patrol reads it: the physical world's part of a read (R336, R342). `linkEcc`: the read
burst's link ECC decoded as uncorrectable and the controller read the line once more; `again`: uncorrectable a second time (R338). -/
inductive Upset where
  | clean
  | corrected
  | uncorrectable
  | linkEcc (again : Bool)
deriving DecidableEq, Repr

/-- An uncorrectable array error, by R338 also a second uncorrectable read. -/
def Upset.isUe : Upset → Bool
  | .uncorrectable => true
  | .linkEcc again => again
  | _ => false

/-- A corrected error that counts, by R338 also a second read that was clean or corrected. -/
def Upset.counts : Upset → Bool
  | .corrected => true
  | .linkEcc again => !again
  | _ => false

/-- Header of a causeway frame as it arrives (Table 20.5): the port it arrives by (0 EAST, 1 WEST) and its fields. The CRC has
passed and LEN fits the body. -/
structure Cw where
  port       : Nat := 0
  west       : Bool := false
  holdover   : Bool := false
  fenced     : Bool := false
  resent     : Bool := false
  unadmitted : Bool := false
  origin     : Nat := 0
  hops       : Nat := 0
  seq        : Nat := 0
  archId     : Nat := 0
  tag        : Nat := 0
  tb         : Nat := 0
deriving DecidableEq, Repr

/-- Link states, the rows of Table 20.2 in their order. -/
inductive LinkSt where | disabled | training | trained | active | retraining | down | fenced
deriving DecidableEq, Repr

/-- What a message of a segment asks of this package, decoded from Table 20.4: its header fields and its payload. -/
structure Msg where
  cls     : MsgClass := .req
  op      : Nat := 0
  poison  : Bool := false
  plan    : Bool := false
  down    : Bool := false
  src     : Nat := 0
  dst     : Nat := 0
  status  : Nat := 0
  size    : Nat := 0
  txn     : Nat := 0
  addr    : Nat := 0
  payload : List Byte := []
  aop     : Nat := 0   -- an atomic's operation (Table 13.10), for which Table 20.4 shows no field (log entry 18)
deriving DecidableEq, Repr

/-- What a ROLE frame says (R631, R632): a request, a grant, or COLLIDED_LOST. -/
inductive RoleMsg where | request | grant | lost
deriving DecidableEq, Repr

/-- Body of a PRESENCE frame (Table 20.6): roles held (bit 0 TIME_SOURCE, bit 1 ADMITTER), the Position IDs to which the sender has a
link that is ACTIVE and that is DOWN, and the SEQ of the last membership frame it applied. -/
structure Presence where
  roles   : Nat := 0
  upTo    : List Nat := []
  downTo  : List Nat := []
  applied : Nat := 0
deriving DecidableEq, Repr

/-- Inbound PCIe and CXL requests (R642 to R644, R242): a write with the poison mark of its TLP (Table 11.2). -/
inductive InReq where
  | read (len : Nat)
  | write (data : List Byte) (poison : Bool)
  | atomic (op size operand compare : Nat)  -- 1 FetchAdd, 2 Swap, 3 CAS
  | io
  | config
  | translation
  | pasid
deriving DecidableEq, Repr

/-- What attestation of a package shows (R635, R636): the chain verifies, the firmware digest and security version of block
2, BENCH_SEEN and KA_LOST of block 4, the Alias digest, and what the other side answers of its own checks: 0 they pass, 1 they fail, 2 its
clock is more than 1 s ahead, 3 it is still slewing. -/
structure Attest where
  chainOk   : Bool
  digest    : List Byte
  secVer    : Nat
  benchSeen : Bool
  kaLost    : Bool
  alias_    : List Byte
  verdict   : Nat := 0
deriving DecidableEq, Repr

/-- Where an exit trigger of a low-power state comes from (Table 5.7); WAKE_CAUSE of Table 5.9. -/
inductive WakeBy where | traffic | pin | alarm | causeway | keeper
deriving DecidableEq, Repr

/-- A hart at an instruction that may trap: the hart and the virtual address of the instruction. -/
structure HartPoint where
  hart : Nat
  va   : Nat
deriving DecidableEq, Repr

/-- The type of the page a hart's access goes through (Svpbmt): the region's own attributes, or main memory made uncached, or uncached and
strongly ordered (R194). -/
inductive Pbmt where | pma | nc | io
deriving DecidableEq, Repr

/-- A cache-block instruction of Zicbom or Zicbop, for an access that is one (R194). -/
inductive CacheOp where | none | clean | flush | inval | prefetchR | prefetchW | prefetchI
deriving DecidableEq, Repr

/-- A return from a trap that brought a hart to the instruction it fetches. -/
inductive XRet where | none | mret | sret
deriving DecidableEq, Repr

/-- What a CSR instruction does: read only, write, set bits, clear bits. -/
inductive CsrOp where | read | write | set | clear
deriving DecidableEq, Repr

/-- A memory access a hart executes (R193 to R210): the hart, its virtual address, the guest physical address when the second stage
is in use (zero when the fault arose in its walk), the compact physical address and size the access reached, whether the walker's own
access is concerned, the type of its page, the cache-block instruction it is, what the storage answers, for which of its lines, where and
in which bank, and how many of the hart's oldest buffered stores have left its store buffer before it. -/
structure HartAccess where
  hart     : Nat
  va       : Nat
  gpa      : Option Nat := none
  ca       : Nat
  size     : Nat := 8
  implicit : Bool := false
  pbmt     : Pbmt := .pma
  cbo      : CacheOp := .none
  omitted  : Bool := false    -- a fetched instruction belongs to an extension that no hart has (R190)
  ret      : XRet := .none    -- the trap return that led to a fetch
  upset    : Upset := .clean
  upsetAt  : Nat := 0         -- which of the access's lines the upset is in, from 0
  place    : Storage := .far
  bank     : Nat := 0
  drained  : Nat := 0
  ahead    : List Nat := []   -- lines the core's prefetchers ask for beside a load (R196)
  evictUe  : Bool := false    -- the dirty L1D or L2 line its fill evicts holds an uncorrectable error (Table 6.13)
deriving DecidableEq, Repr

/-- What a snoop asks of a caching agent (Table 20.4): give up to shared, to invalid, or send the current data and keep the copy. -/
inductive SnpKind where | toShared | toInvalid | once
deriving DecidableEq, Repr

/-- A row of the port table of the signed image (R640): a root port that exists, and whether it runs CXL. -/
structure PortRow where
  port : Nat
  cxl  : Bool := false
deriving DecidableEq, Repr

/-- A row of the pin table of the signed image (R666): a general pin, its function, level or pull, argument, and whether it is locked. -/
structure PinRow where
  pin    : Nat
  fn     : Nat
  value  : Nat := 0
  arg    : Nat := 0
  locked : Bool := false
deriving DecidableEq, Repr

/-- AMO operations (RVA23, Zabha, Zacas). -/
inductive AmoOp where | swap | add | xor | and | or | min | max | minu | maxu | cas
deriving DecidableEq, Repr

/-- The half of a 64-bit register that an access reaches (R702). -/
inductive Half where | full | lower | upper
deriving DecidableEq, Repr

/-- What REGISTER_WRITE stores to: an offset of a partition window, an offset of the Steward window (R706, R715), a CSR of a
hart (R198), the owner of an APLIC source, which the Steward assigns, or the configuration of a source by its owner (R205). -/
inductive RegPlace where
  | window (part off : Nat)
  | steward (off : Nat)
  | csr (hart num : Nat) (op : CsrOp := .write)
  | aplicOwner (die source : Nat)
  | aplic (part die source : Nat)
deriving DecidableEq, Repr

/-- A unit a patrol scrubber reads next (R349, R350): a line of a tier with the bank its bucket counts, a line of shelf scratch or of a
core cache, a bobbin granule, or a sync-island word (0 knot, 1 ledger, 2 pool). -/
inductive PatrolUnit where
  | far (addr rank bank row : Nat)
  | near (addr bank row : Nat)
  | scratch (addr : Nat)
  | bobbin (loom granule : Nat)
  | cache (cluster addr : Nat)
  | word (kind idx : Nat)
deriving DecidableEq, Repr

/-- The structure of device metadata an uncorrectable error strikes (Table 11.7). -/
inductive MetaUnit where
  | table (die : Nat)
  | poisonMap (die : Nat)
  | keySlot (part : Nat) (near : Bool)
  | directory (unit die : Nat)
  | cacheTags (hart : Nat) (place : Storage)
  | ferry (n : Nat)
  | slip (n off : Nat)
  | shelfTag (slot set : Nat)
  | cralu (off : Nat)
  | candidates
deriving DecidableEq, Repr

/-- A disagreement of the management and data-path views (R592, R593): the unit, the field (1 owner, 2 fence, 3 gate, 4 lock group,
5 STATE, 6 RD_ONLY), what each view holds, the owners the views name (31 none), and whether a swatch's copies disagree on OWNER
among themselves. -/
structure Mismatch where
  kind      : Nat
  idx       : Nat
  fld       : Nat
  mgmt      : Nat
  data      : Nat
  mgmtOwner : Nat
  dataOwner : Nat
  split     : Bool := false
deriving DecidableEq, Repr

/-- The causes of doubt of Table 19.8. -/
inductive DoubtCause where
  | metadata (u : MetaUnit)
  | strait (a b : Island) (handshake : Bool) (part : Nat)
  | dieLink (link : Nat)
  | stray (b : Island) (cls : MsgClass) (part : Nat)
  | scrub (seq unit addr : Nat)
  | mismatch (m : Mismatch)
  | mrFailures
  | tamper (input : Nat)
  | thermalTrip (kind unit reading : Nat)
  | railOvershoot (rail ma : Nat)
  | logLost
  | firmware
  | peer (type arg0 arg1 : Nat)
deriving DecidableEq, Repr

/-- What DEV_ASSIGN meets at a device (R654): the root port it is behind, whether it offers a TDISP interface, and its BARs, each as
the local address of its first swatch and a number of swatches. -/
structure DevInfo where
  port  : Nat
  tdisp : Bool := true
  bars  : List (Nat × Nat) := []
deriving DecidableEq, Repr

/-- Who issued a request to a device (R645): a hart's load, or a descriptor of a slip. -/
inductive DevAsker where
  | hart (a : HartAccess)
  | ferry (slip seq : Nat)
deriving DecidableEq, Repr

/-- What FW_VERIFY finds in an image slot (R663): whether the signature verifies, its versions and its digest. -/
structure ImageInfo where
  ok      : Bool
  version : Nat
  secVer  : Nat
  digest  : List Byte
deriving DecidableEq, Repr

/-- A memory device as its identity and its mode registers show it (R309 to R311, R326): the part, whether its dies are byte mode, the
density of a die in Gb, the ranks of a channel or the height of a stack, the rows of a bank, and the activations of a bank after which the
mode registers require RFM (0: they require none). -/
structure MemDevice where
  part     : Nat := 0
  byteMode : Bool := false
  gbit     : Nat := 16
  ranks    : Nat := 2
  rows     : Nat := 65536
  rfmAt    : Nat := 0
deriving DecidableEq, Repr

/-- What a training step finds (R315, R328): in step 2 the device, and in any step lanes whose eye is below the minimum margins, each with
its pseudo-channel (0 in the far tier). -/
structure StepFound where
  dev   : MemDevice := {}
  lanes : List (Nat × Nat) := []
deriving DecidableEq, Repr

/-- What a wake from Dormant finds (R178, R318): whether the image unseals and verifies, and the stacks and channels whose retraining
fails, each with the step that failed. -/
structure WakeTrain where
  image : Bool
  fails : List (Nat × Nat) := []
deriving DecidableEq, Repr

/-- A per-bank refresh (R323): the stack or channel, its pseudo-channel or rank, the bank, and the rows that it covers. -/
structure RefreshOf where
  unit  : Nat
  chan  : Nat
  bank  : Nat
  first : Nat
  count : Nat
deriving DecidableEq, Repr

/-- A flit of 32 bytes that crosses a strait (R59): its sixteen words of 16 bits; whether it is the last of the answer to a REQ or a SNP
of the far side (R58); and the bits that upsets flip, as word and bit (16: the parity bit), in each of its transmissions in turn. -/
structure StraitFlit where
  words  : List Nat := []
  ends   : Bool := false
  upsets : List (List (Nat × Nat)) := []
deriving DecidableEq, Repr

/-- What a TAP instruction reaches (R111): the JTAG instruction register (0 BYPASS, 1 IDCODE), an instrument-network segment put into
the scan path or taken out of it, or the IEEE 1500 wrapper of a stack. -/
inductive TapOp where
  | ir (n : Nat)
  | segment (n : Nat) (on_ : Bool)
  | wrapper (site ins : Nat)
deriving DecidableEq, Repr

end Sys2Proof
end

