-- ==== Sys2Proof/Syntax.lean ====
section
/-! DEFINITION. The commands of the package: one constructor per row of the opcode table, in the table's order. A command carries
what the outside or the engine at work supplies with it: the unit, mailbox, port or descriptor it names, and what the physical
world answers. -/
namespace Sys2Proof

/-- The commands. -/
inductive Instr where
  /-- MBX_DOORBELL (R118). Software writes a tag to a partition or Steward mailbox doorbell to send the request held in the page and header registers. -/
  | mbxDoorbell (m : Mbx) (value : Nat)
  /-- STAND_IN (R130). While READY is 0 the mailbox hardware answers a doorbell itself with NOT_READY/STAND_IN, or INTERNAL_DOUBT/FUSE_FAIL after a failed fuse check, once RSP_VALID is clear. -/
  | standIn (m : Mbx)
  /-- ACCEPTANCE (R119). Cralu copies the request header and payload into its SRAM, sets REQ_FREE again and records ACCEPT_TB. -/
  | acceptance (m : Mbx)
  /-- ACCEPTED_INTERIM (R134). A command not complete 100 µs after its commit point receives an interim ACCEPTED response. -/
  | acceptedInterim (m : Mbx) (tag : Nat)
  /-- COMMAND_TIMEOUT (R139). A command whose deadline passes before its commit point completes with TIMEOUT without side effect. -/
  | commandTimeout (m : Mbx) (tag : Nat)
  /-- RESPONSE_POST (R121). Cralu writes a final response into the response page and header registers, sets RSP_VALID and raises the mailbox interrupt once the previous response is acknowledged. -/
  | responsePost (m : Mbx)
  /-- MBX_RSP_ACK (R121). Software writes MBX_RSP_ACK to acknowledge a response, which clears RSP_VALID and frees the tag. -/
  | mbxRspAck (m : Mbx)
  /-- KEEPER_FRAME (R142). An MCTP type 0x7E message reaches the Keeper endpoint over I3C or PCIe VDM and is taken as an Efano frame or discarded. -/
  | keeperFrame (bus : KeeperBus) (port : Nat) (rid : Nat) (vendor : Nat) (mtag : Nat) (bytes : List Byte)
  /-- MCTP_CONTROL (R144). An MCTP control message reaches the endpoint and is answered once READY is set, or not answered before. -/
  | mctpControl (bus : KeeperBus) (port : Nat) (rid : Nat)
  /-- PLDM_REQUEST (R661). A PLDM base, monitoring or FRU request over MCTP is answered with the sensors and identity data of the package. -/
  | pldmRequest (bus : KeeperBus) (port : Nat) (rid : Nat) (type : Nat)
  /-- SPDM_REQUEST (R146). An SPDM 1.3 request over MCTP is answered by Cralu as responder. -/
  | spdmRequest (bus : KeeperBus) (port : Nat) (rid : Nat) (req : List Byte)
  /-- VERSION_GET (R127). Reports the supported protocol revisions, firmware version, payload limit, fragment limit and tag count. -/
  | versionGet (m : Mbx) (tag : Nat)
  /-- SESSION_OPEN (R128). Opens a new session at a supported revision, closing any existing one, and returns a fresh random SESSION_ID and MGMT_EPOCH. -/
  | sessionOpen (m : Mbx) (tag : Nat)
  /-- SESSION_CLOSE (R129). Closes the session, abandoning uncommitted commands and suppressing further responses of the session. -/
  | sessionClose (m : Mbx) (tag : Nat)
  /-- ECHO (R129). Returns its payload unchanged. -/
  | echo (m : Mbx) (tag : Nat)
  /-- OUTCOME_GET (R153). Returns the outcomes of the committed commands of the previous session of the mailbox, with NONE or WIPED flags. -/
  | outcomeGet (m : Mbx) (tag : Nat)
  /-- SPDM_MESSAGE (R147). Carries one SPDM request from the Steward or a tenant to Cralu and returns one SPDM response. -/
  | spdmMessage (m : Mbx) (tag : Nat)
  /-- DEV_REPORT_GET (R655). Returns a function's TDISP interface report, signed measurements, IDE state and the caller's nonce. -/
  | devReportGet (m : Mbx) (tag : Nat) (report : List Byte) (meas : List Byte)
  /-- DEV_ACCEPT (R655). Sends START_INTERFACE_REQUEST and moves a tenant's locked device interface to RUN. -/
  | devAccept (m : Mbx) (tag : Nat)
  /-- IDENTITY_GET (R50). Returns the identity registers, firmware version and boot flags. -/
  | identityGet (m : Mbx) (tag : Nat)
  /-- PART_CREATE (R92). Creates a tenant partition and draws its far and near keys. -/
  | partCreate (m : Mbx) (tag : Nat)
  /-- PART_DESTROY (R733). Destroys a partition, scrubbing its resources, retiring its keys and resetting its per-partition state. -/
  | partDestroy (m : Mbx) (tag : Nat)
  /-- PART_ASSIGN (R84). Grants ranges of units to a partition, scrubbing BLANK swatches on demand and updating every selvedge copy. -/
  | partAssign (m : Mbx) (tag : Nat)
  /-- PART_RELEASE (R97). Revokes ranges of units from their owner and scrubs them back to FREE. -/
  | partRelease (m : Mbx) (tag : Nat)
  /-- PART_QUERY (R734). Reports a partition's state, weight, owned units and vectors. -/
  | partQuery (m : Mbx) (tag : Nat)
  /-- PART_CONFIG (R95). Sets a partition's reset and RNMI vectors, NEAR_PLAIN, arbitration weight or RD_ONLY range. -/
  | partConfig (m : Mbx) (tag : Nat)
  /-- WAYMASK_SET (R266). Sets a partition's shelf way masks, moving ways, MSHRs and directory units and recalling directory entries as needed. -/
  | waymaskSet (m : Mbx) (tag : Nat)
  /-- SCRUB_REPORT_GET (R103). Returns the signed scrub report of a resource's latest release. -/
  | scrubReportGet (m : Mbx) (tag : Nat)
  /-- SHELF_SPLIT_SET (R263). Sets which swatches of each shelf slice serve as cache, bypassing, draining, invalidating and scrubbing as it goes. -/
  | shelfSplitSet (m : Mbx) (tag : Nat)
  /-- OBJECT_REGISTER (R278). Registers an object record in the caller's object table. -/
  | objectRegister (m : Mbx) (tag : Nat)
  /-- OBJECT_UPDATE (R279). Changes the mutable fields of an object record. -/
  | objectUpdate (m : Mbx) (tag : Nat)
  /-- OBJECT_RETIRE (R280). Retires an object, invalidating every bobbin slot tag of it. -/
  | objectRetire (m : Mbx) (tag : Nat)
  /-- OBJECT_QUERY (R277). Returns an object record. -/
  | objectQuery (m : Mbx) (tag : Nat)
  /-- MEM_STATUS (R330). Reports the training path, result, temperature, refresh multiplier and throttle of every stack and channel. -/
  | memStatus (m : Mbx) (tag : Nat)
  /-- SLIP_QUERY (R722). Reports a slip's registers, place occupancy and skip map size. -/
  | slipQuery (m : Mbx) (tag : Nat)
  /-- FERRY_QUERY (R400). Reports each ferry's places per class, enabled slips and outstanding reads and writes. -/
  | ferryQuery (m : Mbx) (tag : Nat)
  /-- LOCK_GROUP_SET (R64). Requests a broadloom lock group of 2 or 4 owned loom quads. -/
  | lockGroupSet (m : Mbx) (tag : Nat)
  /-- LOCK_FORMED (R65). The lock of a requested group completes within 50 µs and held weave descriptors may dispatch. -/
  | lockFormed (die : Nat) (first : Nat)
  /-- LOCK_GROUP_CLEAR (R64). Releases a lock group. -/
  | lockGroupClear (m : Mbx) (tag : Nat)
  /-- KNOT_QUERY (R480). Reports a knot's configuration, waiters and VALUE. -/
  | knotQuery (m : Mbx) (tag : Nat)
  /-- POOL_CREATE (R495). Creates a pool, writing its free ring and pool word. -/
  | poolCreate (m : Mbx) (tag : Nat)
  /-- POOL_DESTROY (R501). Halts every queued allocation of a pool and frees its pool state. -/
  | poolDestroy (m : Mbx) (tag : Nat)
  /-- POOL_QUERY (R495). Reports a pool's fields, HEAD, TAIL and queued allocations. -/
  | poolQuery (m : Mbx) (tag : Nat)
  /-- KNOT_WAIT_STATS (R510). Reports the quantised wait time on a range of owned knots. -/
  | knotWaitStats (m : Mbx) (tag : Nat)
  /-- LEDGER_QUERY (R512). Reports a ledger entry with its GEN and poison marks. -/
  | ledgerQuery (m : Mbx) (tag : Nat)
  /-- POWER_BUDGET_SET (R553). Sets STATIC, POOL_MIN and POOL_MAX. -/
  | powerBudgetSet (m : Mbx) (tag : Nat)
  /-- POWER_BOUNDS_SET (R556). Sets frequency floors and ceilings of adjustable islands. -/
  | powerBoundsSet (m : Mbx) (tag : Nat)
  /-- RAIL_CAP_SET (R543). Sets a rail's hard cap, soft cap and cap window. -/
  | railCapSet (m : Mbx) (tag : Nat)
  /-- THERMAL_SET (R548). Sets TJ_TARGET. -/
  | thermalSet (m : Mbx) (tag : Nat)
  /-- POOL_CONFIG (R560). Enables the power pool for a partition set and sets THETA and STEP_MAX. -/
  | poolConfig (m : Mbx) (tag : Nat)
  /-- POWER_TELEMETRY (R564). Returns the power telemetry form of the calling role. -/
  | powerTelemetry (m : Mbx) (tag : Nat)
  /-- POWER_STATUS (R564). Reports PROCHOT, THERMTRIP, pool and holdover state and the rank-1 actions in force. -/
  | powerStatus (m : Mbx) (tag : Nat)
  /-- FENCE_STATUS (R595). Lists the fences and their causes, pending or cleared. -/
  | fenceStatus (m : Mbx) (tag : Nat)
  /-- LOG_READ (R580). Reads log records from a PSEQ with the log counters and the last word. -/
  | logRead (m : Mbx) (tag : Nat)
  /-- LOG_RELEASE (R580). Frees every log record up to a named PSEQ. -/
  | logRelease (m : Mbx) (tag : Nat)
  /-- FAULT_QUEUE_READ (R574). Reads records of a fault queue without moving FQ_HEAD. -/
  | faultQueueRead (m : Mbx) (tag : Nat)
  /-- UNIT_RECONCILE (R594). Scrubs a mismatched unit or swatch, rewrites both views, compares them and resets it, lifting a unit fence. -/
  | unitReconcile (m : Mbx) (tag : Nat) (bad : Option Nat) (agree : Bool)
  /-- SCRUB_RETRY (R597). Runs a failed scrub again, freeing the resource and lifting its fence if it passes. -/
  | scrubRetry (m : Mbx) (tag : Nat) (bad : Option Nat)
  /-- LOG_RESYNC (R582). Pattern-checks a failed log copy and copies the sound copy onto it. -/
  | logResync (m : Mbx) (tag : Nat) (result : Nat)
  /-- LAST_WORD_CLEAR (R584). Clears the keep-alive last word and returns the value cleared. -/
  | lastWordClear (m : Mbx) (tag : Nat)
  /-- BUCKET_SET (R347). Sets CAPACITY and PERIOD of a class of leaky buckets. -/
  | bucketSet (m : Mbx) (tag : Nat)
  /-- BUCKET_GET (R345). Lists leaky bucket states of a class. -/
  | bucketGet (m : Mbx) (tag : Nat)
  /-- PATROL_SET (R351). Sets the patrol period of a storage class. -/
  | patrolSet (m : Mbx) (tag : Nat)
  /-- POISON_QUERY (R339). Reports the poisoned lines and swatch bit of a swatch. -/
  | poisonQuery (m : Mbx) (tag : Nat)
  /-- POISON_CLEAR (R353). Writes zero over a swatch under its owner's key and clears its poison marks. -/
  | poisonClear (m : Mbx) (tag : Nat)
  /-- ARCH_STATUS (R601). Reports archipelago identity, roles, port states, newcomers and the membership table. -/
  | archStatus (m : Mbx) (tag : Nat)
  /-- ARCH_FOUND (R599). Founds an archipelago at the anchor, drawing ARCH_ID and taking Position ID 0 and every role. -/
  | archFound (m : Mbx) (tag : Nat)
  /-- ARCH_JOIN (R634). Starts admission of a newcomer, or recovers a fenced membership. -/
  | archJoin (m : Mbx) (tag : Nat)
  /-- ARCH_ADMIT (R635). On the ADMITTER, admits a newcomer at a free Position ID after mutual attestation. -/
  | archAdmit (m : Mbx) (tag : Nat)
  /-- ARCH_POLICY_SET (R635). Sets the admission policy of accepted digests, minimum security version and KA_LOST requirement. -/
  | archPolicySet (m : Mbx) (tag : Nat)
  /-- ARCH_DEPART (R637). Runs orderly departure of a member, recalling lines and breaking its knots. -/
  | archDepart (m : Mbx) (tag : Nat)
  /-- ARCH_ROLE_SET (R631). Requests TIME_SOURCE, ADMITTER or a link steward swap. -/
  | archRoleSet (m : Mbx) (tag : Nat)
  /-- ARCH_SET_BIND (R611). Binds a local partition to a partition set with a member bitmap. -/
  | archSetBind (m : Mbx) (tag : Nat)
  /-- ARCH_SET_UNBIND (R613). Unbinds a partition from a set, treating other members as departed for it. -/
  | archSetUnbind (m : Mbx) (tag : Nat)
  /-- ARCH_CENSUS (R628). Initiates a time-aligned census sweep. -/
  | archCensus (m : Mbx) (tag : Nat)
  /-- ARCH_CENSUS_READ (R630). Reads a census result or the package's own entry. -/
  | archCensusRead (m : Mbx) (tag : Nat)
  /-- LINK_CONTROL (R604). Disables, enables, retrains or rekeys an Idurrum port. -/
  | linkControl (m : Mbx) (tag : Nat)
  /-- PORT_STATUS (R660). Reports each root port's protocol, rate, width, state, slot and counters. -/
  | portStatus (m : Mbx) (tag : Nat)
  /-- PORT_CONFIG (R642). Sets a root port's memory window, completion timeout, hot-plug mode or Keeper function. -/
  | portConfig (m : Mbx) (tag : Nat)
  /-- SLOT_CONTROL (R651). Turns a hot-plug slot off or on. -/
  | slotControl (m : Mbx) (tag : Nat)
  /-- DEV_ASSIGN (R654). Resets a function, attests it, sets up a selective IDE stream, locks its interface and assigns it to a tenant. -/
  | devAssign (m : Mbx) (tag : Nat) (dev : DevInfo)
  /-- HDM_DECODER_SET (R647). Sets or removes a CXL HDM decoder mapping swatches onto CXL ports. -/
  | hdmDecoderSet (m : Mbx) (tag : Nat)
  /-- PIN_SET (R667). Switches a general pin's function or ARG through the neutral window, or drives a GPIO level. -/
  | pinSet (m : Mbx) (tag : Nat) (smb : Bool)
  /-- PIN_SWITCH_WINDOW_END (R667). The 4 µs neutral window of a pin switch ends and the new function drives its idle level. -/
  | pinSwitchWindowEnd (pin : Nat)
  /-- PIN_FORCED (R667). A pin switch waiting for bus idle forces the old function off after 1 ms. -/
  | pinForced (pin : Nat)
  /-- PIN_STATUS (R666). Reports every general pin's function, level, lock and ARG. -/
  | pinStatus (m : Mbx) (tag : Nat)
  /-- RTC_SET (R672). Writes the real-time clock and sets VALID while unadmitted. -/
  | rtcSet (m : Mbx) (tag : Nat)
  /-- RTC_ALARM_SET (R673). Sets or clears the real-time clock alarm. -/
  | rtcAlarmSet (m : Mbx) (tag : Nat)
  /-- CHARGER_SET (R670). Sets ICC, VCV and charger enable, clearing CELL_FAULT. -/
  | chargerSet (m : Mbx) (tag : Nat)
  /-- SHIP_MODE_ARM (R676). Arms ship mode. -/
  | shipModeArm (m : Mbx) (tag : Nat)
  /-- SHIP_MODE_DISARM (R676). Disarms ship mode. -/
  | shipModeDisarm (m : Mbx) (tag : Nat)
  /-- TAMPER_CONFIG (R677). Sets tamper input enables and debounce times. -/
  | tamperConfig (m : Mbx) (tag : Nat)
  /-- KA_STATUS (R161). Reports keep-alive state: clock, flags, latch, tamper count, charger settings, cell voltage and last word. -/
  | kaStatus (m : Mbx) (tag : Nat)
  /-- BENCH_ENTER (R113). Scrubs everything partition 0 does not own, opens the test paths and sets BENCH. -/
  | benchEnter (m : Mbx) (tag : Nat)
  /-- BENCH_STATUS (R115). Reports BENCH and BENCH_SEEN. -/
  | benchStatus (m : Mbx) (tag : Nat)
  /-- REPAIR_CANDIDATES_GET (R328). Lists the repair candidate list. -/
  | repairCandidatesGet (m : Mbx) (tag : Nat)
  /-- REPAIR_CANDIDATE_CLEAR (R328). Clears one repair candidate entry. -/
  | repairCandidateClear (m : Mbx) (tag : Nat)
  /-- MEM_MARGIN (R327). In Bench mode sweeps and reports the eye of each lane, then restores trained settings. -/
  | memMargin (m : Mbx) (tag : Nat) (eyes : List (Nat × Nat))
  /-- MEM_TEST (R330). In Bench mode writes and reads test patterns over granules and reports failures. -/
  | memTest (m : Mbx) (tag : Nat) (fails : Nat) (firstFail : Nat)
  /-- REPAIR_RESOURCES_GET (R330). In Bench mode reports remaining row and lane spares. -/
  | repairResourcesGet (m : Mbx) (tag : Nat)
  /-- HBM_SPPR (R331). In Bench mode applies and verifies a soft post-package repair of a near-tier row. -/
  | hbmSppr (m : Mbx) (tag : Nat) (pass : Bool)
  /-- HBM_HPPR (R333). In Bench mode applies and verifies a hard post-package repair of a near-tier row. -/
  | hbmHppr (m : Mbx) (tag : Nat) (pass : Bool)
  /-- HBM_LANE_REMAP (R332). In Bench mode remaps a near-tier lane and retrains the channel cold. -/
  | hbmLaneRemap (m : Mbx) (tag : Nat) (pass : Bool)
  /-- LP_PPR (R333). In Bench mode applies and verifies a far-tier PPR of a row. -/
  | lpPpr (m : Mbx) (tag : Nat) (pass : Bool)
  /-- PART_RESET (R167). Performs a PR of a partition, resetting its engines and volatile state and restarting its harts. -/
  | partReset (m : Mbx) (tag : Nat)
  /-- UNIT_RESET (R168). Performs a UR of a unit, returning it to reset state while keeping its owner. -/
  | unitReset (m : Mbx) (tag : Nat)
  /-- MGMT_RESTART (R148). Starts an MR of Cralu. -/
  | mgmtRestart (m : Mbx) (tag : Nat)
  /-- PKG_RESET (R163). Starts a WP of the package. -/
  | pkgReset (m : Mbx) (tag : Nat)
  /-- POWER_STATE_SET (R731). Requests Drowse, Dormant or Off. -/
  | powerStateSet (m : Mbx) (tag : Nat)
  /-- POWER_STATE_CONFIG (R171). Sets IDLE_DELAY, DROWSE_DELAY, Drowse enable and the Dormant save area. -/
  | powerStateConfig (m : Mbx) (tag : Nat)
  /-- WAKE_REPORT_GET (R182). Returns the latest wake report. -/
  | wakeReportGet (m : Mbx) (tag : Nat)
  /-- KEEPALIVE_ACK (R162). Clears KA_LOST. -/
  | keepaliveAck (m : Mbx) (tag : Nat)
  /-- TRAINING_CACHE_CLEAR (R158). Clears the training parameter cache so the next training is cold. -/
  | trainingCacheClear (m : Mbx) (tag : Nat)
  /-- FW_VERSION (R663). Reports firmware versions, security versions and slot states. -/
  | fwVersion (m : Mbx) (tag : Nat)
  /-- FW_WRITE (R732). Writes data into an inactive firmware or boot image slot, marking it written. -/
  | fwWrite (m : Mbx) (tag : Nat)
  /-- FW_VERIFY (R663). Verifies an image slot and reports its security version and digest. -/
  | fwVerify (m : Mbx) (tag : Nat) (info : ImageInfo)
  /-- FW_ACTIVATE (R732). Activates a verified slot, starting an MR for firmware. -/
  | fwActivate (m : Mbx) (tag : Nat)
  /-- REGISTER_WRITE (R704). A store to a register without behaviour of its own updates its writable fields, leaving out-of-range fields unchanged. -/
  | registerWrite (t : RegPlace) (w : Half) (v : Nat)
  /-- FQ_HEAD (R574). Software writes the fault queue HEAD, accepted only between HEAD and TAIL. -/
  | fqHead (k : Nat) (v : Nat)
  /-- FQ_OVF_TAKE (R577). Snapshots and zeroes the fold counters and clears OVF in one cycle. -/
  | fqOvfTake (k : Nat)
  /-- SLP_DOORBELL (R391). A store of a new TAIL to a slip doorbell, accepted if within the ring window, otherwise setting DB_OVERRUN. -/
  | slpDoorbell (p : Nat) (slip : Nat) (v : Nat)
  /-- SLP_DONE (R397). A write to SLP_DONE of a disabled slip sets DONE and HEAD and clears the skip map if accepted. -/
  | slpDone (p : Nat) (slip : Nat) (v : Nat)
  /-- SLP_RING (R397). A write to SLP_RING of a disabled slip sets ring base and size unless it breaks the ring invariant. -/
  | slpRing (p : Nat) (slip : Nat) (v : Nat)
  /-- ENABLE (R395). SLP_CTRL ENABLE checks the serving group and starts fetching at HEAD. -/
  | enable (p : Nat) (slip : Nat)
  /-- DISABLE (R395). SLP_CTRL DISABLE stops fetching, discards undispatched staged descriptors and sets HEAD to DONE. -/
  | disable (p : Nat) (slip : Nat)
  /-- SLIP_DISABLED (R395). A DISABLING slip becomes DISABLED when its last dispatched descriptor completes. -/
  | slipDisabled (slip : Nat)
  /-- RESTART (R421). SLP_CTRL RESTART resumes fetching at STOP_SEQ, running that descriptor again. -/
  | restart (p : Nat) (slip : Nat)
  /-- RESTART_SKIP (R421). SLP_CTRL RESTART_SKIP advances DONE past STOP_SEQ and skipped final records and resumes fetching. -/
  | restartSkip (p : Nat) (slip : Nat)
  /-- ALL (R366). SLP_XINV kind ALL advances EPOCH_ALL of the partition. -/
  | all (p : Nat)
  /-- ASID (R366). SLP_XINV kind ASID advances the epoch of the ASID class. -/
  | asid (p : Nat) (asid : Nat)
  /-- VMID (R366). SLP_XINV kind VMID advances the epoch of the VMID class. -/
  | vmid (p : Nat) (vmid : Nat)
  /-- DESCRIPTOR_PAUSE (R368). A stale dispatched move reaches its 4 KiB boundary, its issued accesses perform and it pauses for a re-walk. -/
  | descriptorPause (slip : Nat) (seq : W32)
  /-- SLP_XINV_SYNC (R369). A load from SLP_XINV_SYNC returns zero once every earlier invalidation of the partition has completed. -/
  | slpXinvSync (n : Nat)
  /-- KNT_SIGNAL (R488). A hart store to a knot window performs the type's window operation with the stored operand. -/
  | kntSignal (p : Nat) (knot : Nat) (v : W64)
  /-- KNT_VALUE (R489). A load of a knot's VALUE, faulting with CAUSE POISONED on a poisoned knot. -/
  | kntValue (hart : HartPoint) (knot : Nat)
  /-- SETEIPNUM_LE (R714). A write to an interrupt file's seteipnum register sets the identity's pending bit. -/
  | seteipnumLe (p : Nat) (hart : Nat) (file : Nat) (v : Nat)
  /-- HART_LOAD (R213). A hart executes a load, checked by PMP and the selvedge and answered from the coherent space or store buffer. -/
  | hartLoad (a : HartAccess)
  /-- HART_STORE (R215). A hart executes a store into its store buffer, performed in order and multi-copy atomically. -/
  | hartStore (a : HartAccess) (data : List Byte)
  /-- HART_FETCH (R194). A hart fetches an instruction. -/
  | hartFetch (a : HartAccess)
  /-- AMO (R243). A hart AMO drains the store buffer and executes in its L1D or at the home atomic unit. -/
  | amo (a : HartAccess) (o : AmoOp) (operand : Nat) (compare : Nat)
  /-- LR (R239). A hart LR obtains the line by READ_OWN and reserves it. -/
  | lr (a : HartAccess)
  /-- SC (R239). A hart SC succeeds or fails on its reservation. -/
  | sc (a : HartAccess) (data : List Byte)
  /-- FENCE (R225). A FENCE instruction waits until the store buffer is empty and earlier stores are globally performed. -/
  | fence (hart : Nat) (va : Nat) (sets : Nat)
  /-- YCFENCE (R200). A write to YCFENCE acts as a cluster-scope or system-scope fence. -/
  | ycfence (hart : HartPoint) (v : Nat)
  /-- STOP (R188). A hart writes YMHARTCTL.STOP and stops after retiring earlier instructions and draining its store buffer. -/
  | stop (hart : Nat)
  /-- YMHARTSTART (R189). A hart writes another stopped hart's mhartid to start it at its YMSTARTPC. -/
  | ymhartstart (hart : Nat) (target : Nat)
  /-- MNRET (R207). A hart returns from its RNMI handler after its parked fetch is retried on recovery. -/
  | mnret (hart : Nat)
  /-- DESCRIPTOR_FETCH (R392). The front end fetches up to 16 descriptors from the ring after a performed doorbell. -/
  | descriptorFetch (f : Nat) (u : Upset)
  /-- STAGING (R360). The front end translates every buffer of a fetched descriptor into shadow extents with an epoch snapshot. -/
  | staging (slip : Nat)
  /-- WALK (R377). A free walker takes the next request by class and completes one page-table walk. -/
  | walk (g : Nat) (u : Upset)
  /-- DISPATCH (R401). A staged descriptor is dispatched in slip order to its ferry, loom, finisher or sync island. -/
  | dispatch (f : Nat)
  /-- BOLT_MISS_FILL (R293). A bolt miss is served through a transit slot, checked, copied into the bobbin slot and tagged. -/
  | boltMissFill (slip : Nat) (seq : W32)
  /-- DESCRIPTOR_COMPLETE (R221). A descriptor's completion record is written in slip order once its writes are globally performed, then its signal and interrupt. -/
  | descriptorComplete (slip : Nat)
  /-- CHANNEL_HALT (R344). A ferry read meets a detected uncorrectable error and halts the descriptor and stops the slip. -/
  | channelHalt (slip : Nat) (seq : W32) (addr : Nat)
  /-- MOVE (R407). Copies rows of bytes between memory and bobbins. -/
  | move (slip : Nat) (seq : W32) (n : Nat)
  /-- FILL (R407). Fills rows of a destination with an 8-byte pattern. -/
  | fill (slip : Nat) (seq : W32) (n : Nat)
  /-- BOLT_LOAD (R292). Reads a bolt into a named bobbin slot and sets its tag. -/
  | boltLoad (slip : Nat) (seq : W32)
  /-- BOLT_STORE (R289). Writes named granules into a bolt's copy or home under WRITING. -/
  | boltStore (slip : Nat) (seq : W32)
  /-- BOLT_MOVE (R286). Re-homes a bolt to a new tier, line and codec under MOVING. -/
  | boltMove (slip : Nat) (seq : W32)
  /-- BOLT_COPY_UP (R286). Creates an uncompressed copy of a write-back bolt in a higher tier. -/
  | boltCopyUp (slip : Nat) (seq : W32)
  /-- BOLT_CLEAN (R290). Writes the dirty granules of a copy to the home and clears DIRTY. -/
  | boltClean (slip : Nat) (seq : W32)
  /-- BOLT_DROP (R290). Cleans then removes a bolt's copy. -/
  | boltDrop (slip : Nat) (seq : W32)
  /-- BOLT_TAKE_RETRY (R284). A bolt operation finding the entry taken re-reads word 0 within 256 ns and tries again. -/
  | boltTakeRetry (slip : Nat) (seq : W32)
  /-- BOLT_WAIT (R284). A bolt operation's WAIT_LIMIT passes and it halts. -/
  | boltWait (slip : Nat) (seq : W32)
  /-- ATOMIC (R411). Performs a ferry atomic operation and returns the old value. -/
  | atomic (slip : Nat) (seq : W32)
  /-- BARRIER (R413). Completes once earlier accesses of the slip are performed within its scope. -/
  | barrier (slip : Nat) (seq : W32)
  /-- NOP (R403). Completes OK with no body. -/
  | nop (slip : Nat) (seq : W32)
  /-- WEAVE (R445). Runs PASSES loom passes of a semiring over a gang. -/
  | weave (slip : Nat) (seq : W32)
  /-- PASS_START (R437). A pass begins its first step when its bank and every gang member are free. -/
  | passStart (slip : Nat) (seq : W32)
  /-- BANK_SWAP (R437). A pass's steps end and its bank swaps, which is the loom's pre-emption boundary. -/
  | bankSwap (slip : Nat) (seq : W32) (parity : Bool)
  /-- DRAIN (R437). A bank's results finish draining through the column trees and the bank is free. -/
  | drain (slip : Nat) (seq : W32)
  /-- PASS_CUT (R439). A pass reaches PASS_LIMIT and is cut, halting the descriptor. -/
  | passCut (slip : Nat) (seq : W32)
  /-- MAP (R462). Applies an element-wise function to a tile. -/
  | map (slip : Nat) (seq : W32)
  /-- REDUCE (R456). Reduces each row to one binary32 value. -/
  | reduce (slip : Nat) (seq : W32)
  /-- SOFTMAX (R463). Computes a row softmax with optional statistics. -/
  | softmax (slip : Nat) (seq : W32)
  /-- NORM (R465). Applies RMS or layer normalisation per row. -/
  | norm (slip : Nat) (seq : W32)
  /-- SELECT (R466). Writes top-k values and indices, or argmax and argmin, per row. -/
  | select (slip : Nat) (seq : W32)
  /-- QUANT (R469). Quantises a tile per tensor, per row or in MX blocks. -/
  | quant (slip : Nat) (seq : W32)
  /-- DEQUANT (R470). Dequantises a tile. -/
  | dequant (slip : Nat) (seq : W32)
  /-- SAMPLE (R471). Chooses one column per row by greedy or categorical sampling with Philox draws. -/
  | sample (slip : Nat) (seq : W32)
  /-- ROW_END (R476). A finisher row completes, which is the finisher's pre-emption boundary. -/
  | rowEnd (slip : Nat) (seq : W32) (parity : Bool)
  /-- ROW_CUT (R475). A finisher row reaches ROW_LIMIT and is cut, halting the descriptor. -/
  | rowCut (slip : Nat) (seq : W32)
  /-- KNOT_INIT (R482). Configures a knot, breaking current waiters and clearing BROKEN and poison. -/
  | knotInit (slip : Nat) (seq : W32)
  /-- KNOT_SIGNAL (R483). Performs a signal operation on a knot at its home atomic unit. -/
  | knotSignal (slip : Nat) (seq : W32) (ans : KnotAns)
  /-- KNOT_WAIT (R484). Evaluates a wait condition on a knot, releasing at once or registering a waiter. -/
  | knotWait (slip : Nat) (seq : W32) (ans : KnotAns)
  /-- KNOT_TIMEOUT (R486). A registered wait's TIMEOUT_US passes and the wait is withdrawn. -/
  | knotTimeout (slip : Nat) (seq : W32)
  /-- REMOTE_WAIT_RETRY (R494). A remote wait with no free waiter entry is performed again every 2 µs. -/
  | remoteWaitRetry (slip : Nat) (seq : W32) (ans : KnotAns)
  /-- POOL_ALLOC (R497). Allocates COUNT buffers from a pool or follows the empty policy. -/
  | poolAlloc (slip : Nat) (seq : W32)
  /-- POOL_FREE (R499). Returns indices to a pool, signals the refill knot and serves the wait queue. -/
  | poolFree (slip : Nat) (seq : W32)
  /-- POOL_EMPTY (R498). A queued WAIT allocation's timeout passes and it completes POOL_EMPTY. -/
  | poolEmpty (slip : Nat) (seq : W32)
  /-- LEDGER_INIT (R520). Makes an inactive ledger ACTIVE with L and T zero. -/
  | ledgerInit (slip : Nat) (seq : W32)
  /-- LEDGER_EXTEND (R520). Extends T by N, taking pages as needed. -/
  | ledgerExtend (slip : Nat) (seq : W32)
  /-- LEDGER_COMMIT (R520). Advances L by COUNT or to T. -/
  | ledgerCommit (slip : Nat) (seq : W32)
  /-- LEDGER_ROLLBACK (R520). Sets T to L and returns surplus pages. -/
  | ledgerRollback (slip : Nat) (seq : W32)
  /-- LEDGER_TRIM (R520). Sets L and T to NEW_LEN or releases the ledger, returning pages. -/
  | ledgerTrim (slip : Nat) (seq : W32)
  /-- LEDGER_EXTEND_TIMEOUT (R521). A waiting extend's TIMEOUT_US passes and it completes POOL_EMPTY. -/
  | ledgerExtendTimeout (slip : Nat) (seq : W32)
  /-- VERIFY (R528). Decides draft acceptance, commits y and accepted drafts and writes the next token. -/
  | verify (slip : Nat) (seq : W32)
  /-- READ_SHARED (R234). A REQ for a shared copy is served at the line's home. -/
  | readShared (agent : Agent) (part : Nat) (addr : Nat)
  /-- READ_OWN (R234). A REQ for an exclusive copy invalidates other copies at the home. -/
  | readOwn (agent : Agent) (part : Nat) (addr : Nat)
  /-- READ_ONCE (R234). A ferry or device read is served at the home without keeping a copy. -/
  | readOnce (agent : Agent) (part : Nat) (addr : Nat)
  /-- WRITE_LINE (R234). A whole-line write invalidates copies and is accepted at the home. -/
  | writeLine (agent : Agent) (part : Nat) (addr : Nat) (data : List Byte) (poison : Bool)
  /-- WRITE_PART (R234). A partial-line write recalls dirty data and merges at the home. -/
  | writePart (agent : Agent) (part : Nat) (addr : Nat) (data : List Byte) (mask : W64) (poison : Bool)
  /-- WRITE_BACK (R234). A dirty eviction is accepted at the home. -/
  | writeBack (agent : Agent) (addr : Nat) (data : List Byte) (poison : Bool)
  /-- ATOMIC_HOME (R241). An atomic is performed at the home atomic unit with the line held in state B. -/
  | atomicHome (agent : Agent) (part : Nat) (addr : Nat) (op : Nat) (size : Nat) (operand : Nat) (compare : Nat)
  /-- ATOMIC_MEM (R241). A ferry atomic is forwarded to the memory controller after invalidation. -/
  | atomicMem (part : Nat) (addr : Nat) (op : Nat) (size : Nat) (operand : Nat) (compare : Nat)
  /-- SNP (R238). A caching agent answers a snoop without waiting for its own outstanding REQ. -/
  | snp (agent : Agent) (addr : Nat) (kind : SnpKind)
  /-- STRAIT_MESSAGE (R56). A message of one class crosses a strait and is delivered to the receiving island. -/
  | straitMessage (a : Island) (b : Island) (cls : MsgClass) (flit : StraitFlit) (part : Nat) (back : Nat)
  /-- STRAIT_HANDSHAKE_TIMEOUT (R61). A strait handshake has no answer or credit return for 10 µs, a cause of doubt. -/
  | straitHandshakeTimeout (a : Island) (b : Island) (part : Nat)
  /-- GHOST_DISCARD (R76). A ghost responder answers a message arriving at a gated island per Table 2.5. -/
  | ghostDiscard (b : Island) (cls : MsgClass) (kind : MsgKind) (part : Nat) (addr : Nat)
  /-- CLOSE (R73). Cralu requests gating of an island and close begins on every strait. -/
  | close (i : Island)
  /-- DRAIN_COMPLETE (R73). An island's drain completes and its straits switch to their ghost responders. -/
  | drainComplete (i : Island)
  /-- GATE_ABANDON (R74). Drain has not completed by t0 + 5 µs and the power-down is abandoned. -/
  | gateAbandon (i : Island)
  /-- GATE (R75). The island's clock stops and power is removed, losing cache, bobbin and slice data. -/
  | gate (i : Island)
  /-- WAKE_REQUESTED (R73). Cralu requests wake of a gated island and it powers up. -/
  | wakeRequested (i : Island)
  /-- STRAITS_OPEN (R71). A woken island loads the time base from a sync marker and its straits open. -/
  | straitsOpen (i : Island)
  /-- SYNC_MARKER (R70). The time-keeper sends a sync marker every 1 µs and each island corrects its counter by slewing. -/
  | syncMarker
  /-- TB_REF_LOST (R691). TB_REF stops or drifts beyond ±200 ppm and the time-keeper enters holdover. -/
  | tbRefLost
  /-- TB_REF_RESTORED (R691). TB_REF stays within ±50 ppm for 10 ms and the time-keeper returns to it by slewing. -/
  | tbRefRestored (ahead : Int)
  /-- CP (R154). A cold power-on begins at the later of PWR_GOOD and PKG_RST_N rising. -/
  | cp (cause : Nat)
  /-- KEEP_ALIVE_CHECK (R686). Start-up waits at the keep-alive check until VKA has been in band for 10 ms. -/
  | keepAliveCheck (anchor : Bool)
  /-- ROOT_PORTS_CONFIGURED (R640). At t0 + 100 ms the ROM applies the port and pin tables and releases downstream resets. -/
  | rootPortsConfigured (ports : List PortRow) (pins : List PinRow)
  /-- TRAINING_START (R315). At tT near-tier and far-tier training begin on every stack and channel. -/
  | trainingStart (cacheOk : Bool)
  /-- TRAINING_STEP (R315). A training step of a stack or channel completes. -/
  | trainingStep (unit : Nat) (ok : Bool) (found : StepFound)
  /-- TIER_OPENED (R315). A tier's training completes and its controllers accept traffic. -/
  | tierOpened (near : Bool)
  /-- BOOT_RESOURCES (R157). Cralu assigns and scrubs partition 0's boot resources and loads the boot image. -/
  | bootResources (vector : Nat)
  /-- CORES_RELEASED (R187). Partition 0's harts start at the boot vector. -/
  | coresReleased
  /-- READY (R151). Cralu sets Efano READY in every mailbox and raises their interrupts. -/
  | ready
  /-- BACKGROUND_SCRUB (R83). After READY, a background scrub turns BLANK swatches into FREE ones. -/
  | backgroundScrub (k : Nat) (bad : Option Nat)
  /-- SCRUB_COMPLETE (R101). A scrub of a released resource completes and it becomes FREE. -/
  | scrubComplete (seq : Nat) (bad : Option (Nat × Nat × Nat))
  /-- WP (R163). A warm package reset begins: READY clears, engines stop, keys retire. -/
  | wp (cause : Nat)
  /-- WP_ZEROISED (R163). Zeroisation completes and start-up resumes at the firmware step. -/
  | wpZeroised
  /-- MR (R148). An MR begins: READY clears, MGMT_EPOCH increments and sessions close. -/
  | mr
  /-- LOCKSTEP_MISMATCH (R148). The Cralu lockstep pair disagrees and an MR starts. -/
  | lockstepMismatch
  /-- CRALU_WATCHDOG (R148). The Cralu watchdog expires and an MR starts. -/
  | craluWatchdog
  /-- MR_FAIL (R152). An MR fails to reach READY within 500 ms; a third consecutive failure fences the package. -/
  | mrFail
  /-- KR (R161). A keep-alive reset returns keep-alive state to defaults and sets KA_LOST. -/
  | kr
  /-- IDLE_ENTRY (R170). All work has been idle for IDLE_DELAY and the package enters Idle. -/
  | idleEntry (wfi : Bool)
  /-- DROWSE_ENTRY (R172). Idle has lasted DROWSE_DELAY, or a command asks, and the package enters Drowse. -/
  | drowseEntry
  /-- DORMANT_ENTRY (R174). Cralu writes and seals the Dormant image and gates the islands. -/
  | dormantEntry
  /-- EXIT_TRIGGER (R170). A doorbell, interrupt or inbound traffic wakes the package from Idle or Drowse. -/
  | exitTrigger (by_ : WakeBy)
  /-- DORMANT_EXIT (R178). A wake trigger ends Dormant; the image is unsealed and restored or a WP follows. -/
  | dormantExit (by_ : WakeBy) (wake : WakeTrain)
  /-- PWR_GOOD_FALL (R688). PWR_GOOD falls or a main rail sags for 50 µs and the package enters Off. -/
  | pwrGoodFall
  /-- CAUSE_OF_DOUBT (R585). A cause of doubt fences its scope and every output takes its Fenced behaviour within 5 µs. -/
  | causeOfDoubt (c : DoubtCause)
  /-- RATE_LIMIT_FLUSH (R573). At the end of a rate-limit second a record carrying pending occurrences is written. -/
  | rateLimitFlush (type : Nat) (unit : Nat)
  /-- LOG_COPY_FAIL (R581). An uncorrectable error strikes one log copy, which is marked failed and LOG_DEGRADED set. -/
  | logCopyFail (copy : Nat) (addr : Nat)
  /-- LOG_LOST (R583). Neither log copy is sound; the last word is written and the package fenced. -/
  | logLost
  /-- RECONCILIATION (R592). Every 1 ms the management and data-path views are compared. -/
  | reconciliation (ms : List Mismatch)
  /-- PATROL_READ (R350). A patrol scrubber reads the next unit of its storage, correcting or poisoning it. -/
  | patrolRead (u : PatrolUnit) (e : Upset)
  /-- META_UE (R352). An uncorrectable error in device metadata is a cause of doubt at the scope of Table 11.7. -/
  | metaUe (u : MetaUnit)
  /-- RECALIBRATION (R319). A channel's background recalibration runs at its period and stalls it for at most 1 µs. -/
  | recalibration (unit : Nat) (chan : Nat) (lanes : List Nat)
  /-- NEAR_HOT (R324). A stack temperature reading applies the refresh and throttle actions of its threshold. -/
  | nearHot (site : Nat) (temp : Nat)
  /-- FAR_HOT (R325). An MR4 read every 4 ms applies refresh derating and throttles above the operating limit. -/
  | farHot (chan : Nat × Nat) (mr4 : Nat) (mult : Nat × Bool) (overLimit : Bool)
  /-- TARGETED_REFRESH (R326). A row reaching 512 activations has its neighbours refreshed before its next activation. -/
  | targetedRefresh (unit : Nat) (chan : Nat) (bank : Nat) (row : Nat) (n : Nat)
  /-- RAIL_SAMPLE (R541). A rail current sample above the hard cap engages or holds the protective response. -/
  | railSample (rail : Nat) (cur : Nat) (win : Nat) (us : Nat) (ms : Nat) (ok : Bool)
  /-- PROTECTIVE_RELEASE (R541). Rail current stays below 95 % of the cap for a whole window and the response releases. -/
  | protectiveRelease (rail : Nat)
  /-- DROOP (R544). An island's supply falls below its droop threshold and its clock is stretched. -/
  | droop (i : Island)
  /-- THERMAL_SAMPLE (R546). Every thermal sensor is sampled every 20 µs. -/
  | thermalSample (readings : List (Nat × Nat × Bool))
  /-- PROCHOT_EXT (R550). An external low on PROCHOT_N places every die in PROCHOT. -/
  | prochotExt
  /-- BUDGET_LOOP (R555). Each 1 ms the budget loop adjusts island-kind ceilings to hold input power within the effective budget. -/
  | budgetLoop (inputW : Nat) (energies : List (Nat × Nat))
  /-- POOL_EPOCH_START (R559). At each epoch start a participating package reads and resets its wait counters and sends POOL_TELEMETRY. -/
  | poolEpochStart
  /-- POOL_EPOCH (R560). At 500 µs into the epoch the package runs pool_epoch, lowering its budget and sending grants. -/
  | poolEpoch
  /-- LEASE_END (R561). A lease or donor reduction reaches its end instant and the budget returns. -/
  | leaseEnd
  /-- PRESENCE_TICK (R621). Every 1 ms the causeway hardware broadcasts PRESENCE. -/
  | presenceTick
  /-- PRESENCE (R601). A PRESENCE frame is received and processed. -/
  | presence (c : Cw) (p : Presence)
  /-- JOIN (R622). A JOIN frame on carrier at a port is received and answered. -/
  | join (c : Cw)
  /-- JOIN_ANSWER (R622). A JOIN_ANSWER is received and the port becomes joined on ACCEPT. -/
  | joinAnswer (c : Cw) (accept : Bool)
  /-- DELAY_REQ (R625). Every 1 ms a port sends DELAY_REQ and answers received ones with DELAY_RSP. -/
  | delayReq (rx : Option Cw)
  /-- DELAY_RSP (R625). A DELAY_RSP gives the port's link delay. -/
  | delayRsp (c : Cw) (rx : Nat) (tx : Nat)
  /-- TIME_TICK (R625). Every 125 µs the TIME_SOURCE broadcasts a TIME frame. -/
  | timeTick
  /-- TIME (R625). A TIME frame is forwarded with correction and a member disciplines its time base. -/
  | time (c : Cw) (corr : Nat) (residence : Nat)
  /-- TIME_FRAME_TIMEOUT (R627). No TIME frame arrives for 1 ms and the member enters holdover. -/
  | timeFrameTimeout
  /-- ADMIT (R635). An ADMIT frame of the attestation exchange is received. -/
  | admitFrame (c : Cw) (dest : Nat) (a : Attest)
  /-- ADMITTED (R635). An ADMITTED broadcast updates every membership table. -/
  | admitted (c : Cw) (pos : Nat) (tag : Nat) (digest : List Byte)
  /-- DEPARTING (R637). A DEPARTING broadcast is received. -/
  | departing (c : Cw) (pos : Nat)
  /-- DEPARTED (R637). A DEPARTED broadcast frees the member's ID in the membership table. -/
  | departed (c : Cw) (pos : Nat)
  /-- REMOVED (R639). A REMOVED broadcast makes every member apply the removal rules within 10 ms. -/
  | removed (c : Cw) (pos : Nat) (reason : Nat)
  /-- ABANDON (R638). An ABANDON broadcast from a member beginning a WP is received. -/
  | abandon (c : Cw)
  /-- FENCED (R638). A FENCED broadcast from a fenced member is received. -/
  | fenced (c : Cw)
  /-- CAUSEWAY_PORT_BREAK (R623). A causeway port has no valid symbol for 10 µs, becoming an arc end that re-sends and broadcasts BREAK. -/
  | causewayPortBreak (port : Nat)
  /-- BREAK (R627). A BREAK frame is received and the member enters holdover. -/
  | break (c : Cw) (port : Nat) (lastTag : Nat)
  /-- RESTORED (R627). A RESTORED frame is received. -/
  | restored (c : Cw) (port : Nat) (lastTag : Nat)
  /-- ROLE (R632). A ROLE request or grant frame is received, resolving collisions by lower Position ID. -/
  | role (c : Cw) (dest : Nat) (m : RoleMsg) (role : Nat) (port : Nat)
  /-- ROLE_SUCCESSION (R633). A role holder is silent for 3 ms or fenced and the role passes to the lowest present member. -/
  | roleSuccession (role : Nat)
  /-- MEMBER_ABSENT (R638). The ADMITTER declares a member removed after 3 ms without PRESENCE and all links down. -/
  | memberAbsent (pos : Nat)
  /-- ROUTE (R610). A ROUTE frame naming a new plan is received. -/
  | route (c : Cw) (num : Nat) (at_ : Nat) (edges : List (Nat × Nat))
  /-- ROUTE_ACTIVATION (R610). A route plan's activation instant arrives and every member activates it. -/
  | routeActivation
  /-- SET (R612). A SET binding frame is received and streams are allocated. -/
  | set (c : Cw) (set : Nat) (bound : Bool)
  /-- CENSUS_REQ (R628). A CENSUS_REQ is received and a sample is scheduled at T_s. -/
  | censusReq (c : Cw) (seq : Nat) (ts : Nat)
  /-- CENSUS_SAMPLE (R628). At T_s a member samples and sends CENSUS_DATA. -/
  | censusSample (initiator : Nat) (seq : Nat)
  /-- CENSUS_DATA (R629). A census entry or BREAK marker reaches the initiator. -/
  | censusData (c : Cw) (dest : Nat) (seq : Nat) (mark : Option Nat) (entry : List Byte)
  /-- CENSUS_COMPLETE (R630). The census completes when all entries are held or at T_s + 10 ms. -/
  | censusComplete (seq : Nat)
  /-- POOL_TELEMETRY (R559). A POOL_TELEMETRY frame is received for the epoch. -/
  | poolTelemetry (c : Cw) (set : Nat) (looms : Nat) (waitTotal : Nat) (awaited : List (Nat × Nat))
  /-- POOL_GRANT (R560). A grant is received and leased by on_grant. -/
  | poolGrant (c : Cw) (dest : Nat) (set : Nat) (watts : Nat) (issued : Nat)
  /-- WAKE (R170). A causeway WAKE frame for this package wakes it from Dormant. -/
  | wake (c : Cw) (tag : Nat) (found : WakeTrain)
  /-- REATTEST (R636). Every 24 h or after an MR changing block 2, the ADMITTER attests a member again. -/
  | reattest (pos : Nat) (a : Attest)
  /-- LINK_TRAINED (R604). An Idurrum port completes PHY and flit training and exchanges identities. -/
  | linkTrained (port : Nat) (peer : Nat) (tag : Nat) (arch : Nat)
  /-- LINK_KEY_EXCHANGE (R615). The steward end runs the ECDH link-key exchange and the link becomes ACTIVE. -/
  | linkKeyExchange (port : Nat) (ok : Bool)
  /-- FLIT (R606). A DATA flit is received, accepted in SEQ order and acknowledged, or NAKed on error. -/
  | flit (port : Nat) (seq : Nat) (good : Bool)
  /-- NAK (R606). A NAK is received and the sender replays from the named SEQ. -/
  | nak (port : Nat) (seq : Nat)
  /-- ACK (R606). An ACK frees acknowledged flits from the replay buffer. -/
  | ack (port : Nat) (seq : Nat)
  /-- LINK_DOWN (R604). Retraining fails within 100 ms and the link goes DOWN. -/
  | linkDown (port : Nat)
  /-- LINK_RETRAIN_ATTEMPT (R604). Every 1 s a DOWN link attempts retraining. -/
  | linkRetrainAttempt (port : Nat)
  /-- SEGMENT (R617). A complete stream segment is decrypted and its messages routed. -/
  | segment (port : Nat) (stream : Nat) (gen : Nat) (counter : Nat) (tagOk : Bool) (msgs : List Msg)
  /-- GENERATION_CHANGE (R617). The steward end advances a stream's key generation. -/
  | generationChange (port : Nat) (stream : Nat)
  /-- INBOUND_REQUEST (R644). A device memory request arrives through a root port and is checked at the selvedge. -/
  | inboundRequest (func : Nat) (stream : Option Nat) (addr : Nat) (req : InReq)
  /-- DEV_ERROR (R645). A non-posted request to a device ends in UR, CA or completion timeout and is answered as poison. -/
  | devError (who : DevAsker) (addr : Nat) (requester : Nat) (reason : Nat)
  /-- HOTPLUG_ADD (R649). Slot presence is debounced and the slot is powered, released from reset and trained. -/
  | hotplugAdd (port : Nat) (rate : Nat) (width : Nat)
  /-- SLOT_POWER_FAULT (R649). SLOT_PWRFLT_N is still low at t0 + 101 ms and slot power drops. -/
  | slotPowerFault (port : Nat)
  /-- HOTPLUG_REMOVE (R650). Surprise removal contains the port and powers off the slot. -/
  | hotplugRemove (port : Nat)
  /-- SLOT_BUTTON (R651). A SLOT_BTN_N press writes an INFO record. -/
  | slotButton (port : Nat)
  /-- IDE_FAIL (R657). An IDE integrity failure or TDISP error sends the interface to ERROR. -/
  | ideFail (func : Nat) (integrity : Bool)
  /-- CXL_PORT_LOST (R648). A CXL link goes down or reports media failure and its lines are poisoned. -/
  | cxlPortLost (port : Nat) (media : Bool)
  /-- I3C_HOT_JOIN (R659). At t0 + 50 ms without a dynamic address the package requests Hot-Join. -/
  | i3cHotJoin
  /-- MODULE_ATTENTION (R665). ATTN_N held low for 20 ms writes an INFO record. -/
  | moduleAttention
  /-- IRQ_IN (R205). An IRQ_IN pin asserts its APLIC source, delivered by MSI. -/
  | irqIn (pin : Nat) (level : Bool) (asserted : Bool) (wired : Option (Nat × Nat))
  /-- WAKE_N (R666). A WAKE_N pin held low for 1 ms is a wake trigger. -/
  | wakeN (pin : Nat) (found : WakeTrain)
  /-- TIME_PULSE (R666). A TIME_PULSE pin rises at each multiple of PERIOD for 100 µs. -/
  | timePulse (pin : Nat)
  /-- KA_BTN_RELEASE (R674). A KA_BTN_N press is released and classed by duration. -/
  | kaBtnRelease (heldMs : Nat)
  /-- KA_BTN_HOLD (R674). KA_BTN_N held for 8 s triggers a KR. -/
  | kaBtnHold
  /-- TAMPER (R678). A tamper input asserts, setting the latch, erasing the sealing key and fencing the package. -/
  | tamper (input : Nat)
  /-- VKA_FALL (R669). VKA falls below 2.9 V and the domain runs from the cell, or opens the switch in ship mode. -/
  | vkaFall
  /-- VKA_RETURN (R676). VKA has been at least 2.9 V for 10 ms and a disconnected domain restarts. -/
  | vkaReturn
  /-- CELL_FAULT (R671). A charger timer or voltage limit stops charging and sets CELL_FAULT. -/
  | cellFault (cause : Nat) (mv : Nat)
  /-- RTC_ALARM (R673). The real-time clock reaches the alarm instant and acts as a wake trigger. -/
  | rtcAlarm (found : WakeTrain)
  /-- RTC_COPY (R672). Every 1 s a synced time base is copied into the real-time clock. -/
  | rtcCopy
  /-- CAUSEWAY_ISLAND_RUNNING (R156). At t0 + 20 ms after CP the causeway island runs and transit frames begin to be forwarded. -/
  | causewayIslandRunning
  /-- OWN_JOIN_SENT (R156). At t0 + 250 ms causeway join frames are accepted and the package sends its own JOIN. -/
  | ownJoinSent
  /-- IDURRUM_TRAINING_BEGINS (R604). Once t0 + 600 ms has passed and causeway join is complete, Idurrum ports leave DISABLED and begin TRAINING. -/
  | idurrumTrainingBegins
  /-- CAUSEWAY_CARRIER (R623). Carrier appears or returns at a causeway port, a JOIN is sent and, at an arc end, RESTORED follows the rejoin. -/
  | causewayCarrier (port : Nat)
  /-- CAUSEWAY_FRAME_UNPROCESSED (R620). A causeway frame whose CRC fails is dropped, and one with a reserved TYPE is forwarded unprocessed. -/
  | causewayFrameUnprocessed (c : Cw) (type : Nat) (crcOk : Bool) (body : List Nat)
  /-- RETRAIN_COMPLETE (R606). An Idurrum link in RETRAINING completes retraining within 10 ms and resumes replay. -/
  | retrainComplete (port : Nat)
  /-- FENCE_ORDERED_SET (R604). An Idurrum port receives the peer's FENCE ordered set and the link goes DOWN. -/
  | fenceOrderedSet (port : Nat)
  /-- ROOT_PORT_LINK_UP (R156). A root-port link finishes training, which admits the Keeper's PCIe VDM endpoint. -/
  | rootPortLinkUp (port : Nat) (rate : Nat) (width : Nat)
  /-- ROOT_PORT_LINK_DOWN (R645). A root-port link that is not a hot-plug slot goes down or is contained by DPC, so its requests are answered as poison. -/
  | rootPortLinkDown (port : Nat) (dpc : Bool)
  /-- IDE_KEY_REFRESH (R653). Every 24 h Cralu refreshes each IDE stream's keys. -/
  | ideKeyRefresh
  /-- DYNAMIC_ADDRESS_ASSIGNMENT (R659). The I3C bus owner assigns the package a dynamic address by ENTDAA or SETDASA. -/
  | dynamicAddressAssignment (addr : Nat)
  /-- TAP_INSTRUCTION (R111). A JTAG TAP instruction is loaded and acts as BYPASS outside Bench mode, or as itself in Bench mode. -/
  | tapInstruction (op : TapOp)
  /-- DROOP_END (R544). An island's supply rises back above its droop threshold and its clock returns to its set period over 8 cycles. -/
  | droopEnd (i : Island)
  /-- PROCHOT_EXT_RELEASE (R550). PROCHOT_N is released by the outside driver and the external PROCHOT state ends. -/
  | prochotExtRelease
  /-- CELL_BELOW_HOLD (R669). With VKA absent, the backup cell falls below 2.2 V, the cell switch opens and the keep-alive domain loses power. -/
  | cellBelowHold (mv : Nat)
  /-- CHARGE_PHASE (R670). The cell crosses 2.5 V, reaches VCV, its current falls below ICC / 10, or it falls 100 mV below VCV, and the charger changes phase. -/
  | chargePhase (mv : Nat) (tail : Bool)
  /-- TAMPER_DEASSERTED (R679). A tamper input returns high, starting the deassertion time that a clear press needs. -/
  | tamperDeasserted (input : Nat)
  /-- BUS_IDLE (R667). The old pin function's transaction ends, at an SMB STOP or the fall of a TIME_PULSE, and a waiting switch goes on. -/
  | busIdle (pin : Nat)
  /-- NEUTRAL_WINDOW_OPEN (R667). The pin level has held unchanged for 4 µs, the output driver turns off and the neutral window opens with the new pull. -/
  | neutralWindowOpen (pin : Nat) (ext : Option Bool)
  /-- RESERVATION_TIMEOUT (R239). 128 core cycles after an LR pass with no SC, and the hart answers the delayed snoop for the reserved line. -/
  | reservationTimeout (hart : Nat)
  /-- REFRESH (R323). A memory controller issues per-bank refresh at the rate its temperature or MR4 requires. -/
  | refresh (at_ : RefreshOf)
deriving DecidableEq, Repr

end Sys2Proof
end

