-- ==== Sys2Proof/Config.lean ====
section
/-! DEFINITION. What the spec leaves open: free values (constants WITHOUT a body, applied to a plain counter of State or to
the operands they depend on, so that nothing can be proved of them) and the values an implementation fixes (fuses).
Every one is named in notes/assumptions. -/
namespace Sys2Proof

/-- A free value for the n-th time the machine needs one: random numbers (SESSION_ID, ARCH_ID, keys, nonces) and every
value the spec calls unpredictable. Log entry 2. -/
opaque Config.freeValue : Nat → W64

/-- Whether a grant that is less than 2 us old has reached the copy of the swatch table that checks an access (R84): the swatch and the
instant. Log entry 58. -/
opaque Config.copyHas : Nat → Nat → Bool

/-- What a byte of an encrypted swatch reads as before its owner has written its line (R99): the decryption, under the
new owner's key, of what the array holds. Arguments: the key and the local address. Log entry 5. -/
opaque Config.cipherByte : Nat → Nat → Byte

/-- A byte of storage whose contents were lost with power (R75, Table 5.8): the loss's number and the byte's place. Log entry 5. -/
opaque Config.lostByte : Nat → Nat → Byte

/-- ECDSA P-384 signature bytes (R103, R145): of the Alias key of a firmware measurement, a free number and the signed bytes. Log entry 2. -/
opaque Config.signature : List Byte → Nat → List Byte → List Byte

/-- What another package of the archipelago answers for a byte of its memory (R245): that package is not in the model.
Arguments: a counter, the compact address. Log entry 7. -/
opaque Config.remoteByte : Nat → Nat → Byte

/-- How another package's home answers a request (R246, R248): 0 with sound data, 1 refused at its selvedge, 2 with poisoned data.
Arguments: a counter, the compact address. Log entry 7. -/
opaque Config.remoteAnswer : Nat → Nat → Nat

/-- Row spares a bank was made with, and lane spares a channel was made with (Table 10.7, the fuse reads of R330), by the model's keys
of a bank and of a channel, where State lists none. Log entry 16. -/
opaque Config.rowSpares : Nat → Nat
opaque Config.laneSpares : Nat → Nat

/-- Rank, bank and row of a line of the near or far tier: the memory controllers' own mapping (R313). Log entry 76. -/
opaque Config.memPlace : Nat → Nat

/-- The code length an encoder's fixed rule gives a symbol of a C1 plane (R300 leaves the rule open). Log entry 8. -/
opaque Config.c1Length : List Byte → Nat → Nat

/-- Which of the results within its bound an approximated function gives (R462): the function's code and its argument's
pattern. Log entry 10. -/
opaque Config.approx : Nat → Nat → Nat

/-- DEVICE_TAG of this package: bytes 0 to 7 of the SHA-384 digest of its DeviceID certificate (chapter 20), fixed at
manufacture. Log entry 11. -/
opaque Config.deviceTag : W64

/-- The certificates of slot 0 that never change (R145): 0 Plynfeade root CA, 1 device CA, 2 DeviceID. Log entry 12. -/
opaque Config.certificate : Nat → List Byte

/-- The Alias certificate of a firmware measurement, and its digest (R145): a new measurement has a new Alias key. Log entries 11, 12. -/
opaque Config.aliasCertificate : List Byte → List Byte
opaque Config.aliasDigest : List Byte → List Byte

/-- The digest of the Cralu ROM, and that of the firmware image each slot was made with (Table 4.7). Log entry 12. -/
opaque Config.romDigest : List Byte
opaque Config.imageDigest : Nat → List Byte

/-- A byte of an SPDM or PLDM response (R146, R661), fixed by other standards and by the package's certificates: an answer's
number and the byte's place. Log entry 12. -/
opaque Config.protocolByte : Nat → Nat → Byte

end Sys2Proof
end

