-- ==== Sys2Proof/Machine/Bits.lean ====
section
/-! DEFINITION. Bit fields, byte order and checksums: the helpers every layout of the spec is read and built with.
Bit ranges are inclusive (R19); every multi-byte field is little-endian (R20). -/
namespace Sys2Proof.Machine

/-- Field [hi:lo] of a number (R19). -/
def field (x hi lo : Nat) : Nat := x / 2 ^ lo % 2 ^ (hi + 1 - lo)

/-- Bit n of a number (R19). -/
def bitOf (x n : Nat) : Bool := x.testBit n

/-- A flag as a number. -/
def flag (b : Bool) : Nat := if b then 1 else 0

/-- Field [hi:lo] of a number replaced. -/
def setField (x hi lo v : Nat) : Nat :=
  x - field x hi lo * 2 ^ lo + v % 2 ^ (hi + 1 - lo) * 2 ^ lo

/-- A number's `n` low bytes, least significant first (R20). -/
def leBytes : Nat → Nat → List Byte
  | 0, _ => []
  | n + 1, x => BitVec.ofNat 8 x :: leBytes n (x / 256)

/-- The number a list of bytes spells, least significant first (R20). -/
def leNat : List Byte → Nat
  | [] => 0
  | b :: bs => b.toNat + 256 * leNat bs

/-- `n` bytes of a byte list at an offset, missing bytes reading as zero. -/
def slice (bs : List Byte) (off n : Nat) : List Byte :=
  ((bs.drop off).take n) ++ List.replicate (n - ((bs.drop off).take n).length) 0

/-- The little-endian field of `n` bytes at an offset of a payload (R718). -/
def leAt (bs : List Byte) (off n : Nat) : Nat := leNat ((bs.drop off).take n)

/-- Whether every byte of a range of a payload is zero (a reserved field, R14). -/
def zeroAt (bs : List Byte) (off n : Nat) : Bool := ((bs.drop off).take n).all (· == 0)

/-- `n` zero bytes. -/
def zeros (n : Nat) : List Byte := List.replicate n 0

/-- A bitmap of `n` bits as little-endian bytes: bit i is set where `p i`. -/
def bitmapNat (n : Nat) (p : Nat → Bool) : Nat :=
  (List.range n).foldl (fun a i => if p i then a + 2 ^ i else a) 0

/-- Two's complement value of a `w`-bit number. -/
def signed (w x : Nat) : Int :=
  if x % 2 ^ w < 2 ^ (w - 1) then (x % 2 ^ w : Nat) else ((x % 2 ^ w : Nat) : Int) - (2 ^ w : Nat)

/-- The `w`-bit two's complement pattern of an integer, wrapping. -/
def unsigned (w : Nat) (x : Int) : Nat := (x % (2 ^ w : Nat)).toNat

/-- Round a number up to a multiple. -/
def ceilDiv (a b : Nat) : Nat := (a + b - 1) / b

/-- One step of a reflected CRC over 32 bits with polynomial `p`. -/
def crcStep (p : Nat) (c : Nat) : Nat := if c % 2 = 1 then (c / 2) ^^^ p else c / 2

/-- A number folded `n` times. -/
def iter {β : Type} (f : β → β) : Nat → β → β
  | 0, x => x
  | n + 1, x => iter f n (f x)

/-- The CRC-32C (Castagnoli) of a byte list, reflected, initial value and final exclusive-or all ones. -/
def crc32c (bs : List Byte) : Nat :=
  (bs.foldl (fun c b => iter (crcStep 0x82F63B78) 8 (c ^^^ b.toNat)) 0xFFFFFFFF) ^^^ 0xFFFFFFFF

/-- Keep the first `n` of a list satisfying a test, dropping nothing else (used to bound stored lists). -/
def capped {β : Type} (n : Nat) (l : List β) : List β := l.take n

end Sys2Proof.Machine
end

