-- ==== Sys2Proof/Machine/Tab.lean ====
section
/-! DEFINITION. Sparse tables keyed by a number, kept in ONE canonical form (keys strictly rising, no entry equal to the
value an unlisted key has), so that equal tables are equal data. The byte memory of the package and every large array
of the spec (swatches, slips, knots, ledgers, harts) are such tables. -/
namespace Sys2Proof.Machine

/-- A sparse table: key and value pairs, keys strictly rising. -/
abbrev Tab (α : Type) := List (Nat × α)

variable {α : Type}

/-- The value at a key; an unlisted key has the default `d`. -/
def tabGet (d : α) : Tab α → Nat → α
  | [], _ => d
  | (k, v) :: t, n => if k = n then v else tabGet d t n

/-- Remove a key from a table. -/
def tabDel : Tab α → Nat → Tab α
  | [], _ => []
  | (k, v) :: t, n => if k = n then t else (k, v) :: tabDel t n

/-- Insert a pair at its place, replacing an entry of the same key. -/
def tabIns : Tab α → Nat → α → Tab α
  | [], n, x => [(n, x)]
  | (k, v) :: t, n, x =>
    if n < k then (n, x) :: (k, v) :: t
    else if n = k then (n, x) :: t
    else (k, v) :: tabIns t n x

/-- Write a key: writing the default removes the entry, so the canonical form stays. -/
def tabPut [DecidableEq α] (d : α) (t : Tab α) (n : Nat) (x : α) : Tab α :=
  if x = d then tabDel t n else tabIns t n x

/-- Change the value at a key by a function. -/
def tabMod [DecidableEq α] (d : α) (t : Tab α) (n : Nat) (f : α → α) : Tab α :=
  tabPut d t n (f (tabGet d t n))

/-- Return every key a test accepts to the default. -/
def tabClear (t : Tab α) (p : Nat → Bool) : Tab α :=
  t.filter (fun e => !p e.1)

/-- Change every listed value (the default is the function's business to keep fixed). -/
def tabMap [DecidableEq α] (d : α) (t : Tab α) (f : Nat → α → α) : Tab α :=
  t.filterMap (fun e => if f e.1 e.2 = d then none else some (e.1, f e.1 e.2))

/-- Write the default-free value at each key of a list, in order. -/
def tabPutAll [DecidableEq α] (d : α) (t : Tab α) (ks : List Nat) (x : α) : Tab α :=
  ks.foldl (fun t k => tabPut d t k x) t

/-- Keys strictly rising and all above `lo` (none: no bound). -/
def tabRising : Option Nat → Tab α → Bool
  | _, [] => true
  | lo, (k, _) :: t => (match lo with | none => true | some l => decide (l < k)) && tabRising (some k) t

/-- The canonical form: keys strictly rising and no entry equal to the default. -/
def tabWf [DecidableEq α] (d : α) (t : Tab α) : Bool :=
  tabRising none t && t.all (fun e => decide (e.2 ≠ d))

end Sys2Proof.Machine
end

