-- ==== Sys2Proof/Machine/State.lean ====
section
/-! DEFINITION. The state of the package as plain data: every register, FIFO, buffer, counter, mode and pin the spec
gives it, the byte memory of the coherent space, and the queue of commands that wait. -/
namespace Sys2Proof.Machine

/-! ### Time base and islands (chapter 2) -/

/-- The time-keeper and the package time base (R69 to R72, R691, Table 23.6). Times are in ns. -/
structure TimeBase where
  now       : Nat := 0        -- the 64-bit count of ns (TB_NOW reads it modulo 2^64)
  unsynced  : Bool := true    -- TB_STATUS.UNSYNCED (R624)
  holdover  : Bool := false   -- TB_STATUS.HOLDOVER (R72, R627)
  refLost   : Bool := false   -- TB_STATUS.REF_LOST (R691)
  netHold   : Bool := false   -- the holdover has a causeway reason (R627)
  slew      : Int := 0        -- correction still to be applied by slewing, ns (R70)
  holdSince : Nat := 0        -- when TB_REF holdover began (R72)
  markers   : Nat := 0        -- sync markers sent
deriving DecidableEq, Repr

/-- Where an island stands in Table 2.4. -/
inductive IslandPower where
  | open
  | closing (t0 : Nat)
  | drained (td : Nat)
  | gated
  | waking (t1 : Nat)
deriving DecidableEq, Repr

/-- One island (R54, R73 to R77): the unlisted island is open. -/
structure IslandState where
  power        : IslandPower := .open
  hasTb        : Bool := true       -- has loaded the time base (R71)
  ghostDiscard : Nat := 0           -- GHOST_DISCARD counter (R76)
  held         : Nat := 0           -- messages held at its straits by RETRY (R73)
  stretch      : Bool := false      -- clock stretched by a droop (R544)
  gateBusy     : Bool := false      -- the latest gate request was answered BUSY (R74)
  gateLost     : Bool := false      -- its response reported that the quad's bobbin contents are lost (R75)
deriving DecidableEq, Repr

/-- One direction of a strait between two islands (R57 to R60, R107). -/
structure Strait where
  used      : List (List Nat) := [[], [], [], [], []]  -- partitions of the messages that hold credits of the classes REQ, SNP, RSP, DAT,
                                                       -- CMP, oldest first (Table 2.3)
  answers   : List Nat := [0, 0]           -- receive space the sender keeps for answers still to come: of its REQ, of its SNP (R58)
  buffer    : List Nat := []               -- the sender's replay buffer: the words of the flit sent last (R59)
  got       : List Nat := []               -- the words of the flit accepted last
  replays   : Nat := 0                     -- flits discarded for a parity error and sent again from the replay buffer (R59)
  errors    : Nat := 0                     -- parity errors cured by replay in either direction, kept with the direction from the island
                                           -- of the lower key (R60)
  delivered : List Nat := [0, 0, 0, 0, 0]  -- messages delivered per class
deriving DecidableEq, Repr

/-- A broadloom lock group of quads on one A-die (R63 to R65). -/
structure LockGroup where
  die    : Nat
  first  : Nat            -- first quad, local to the A-die
  size   : Nat            -- 2 or 4
  locked : Bool := false  -- false: forming (R65)
  since  : Nat := 0
deriving DecidableEq, Repr

/-! ### Partitions and the selvedge (chapter 3) -/

/-- Swatch states (Table 3.3). -/
inductive SwState where | free | owned | scrubbing | held | cache | fixed | blank
deriving DecidableEq, Repr

/-- A swatch table entry (Table 3.2), with the model's note whether the array still holds what its last scrub left
(R99: a fresh encrypted swatch reads as a decryption until a line is written). OWNER 31: no owner. -/
structure Swatch where
  owner  : Nat := 31
  state  : SwState := .blank
  rdOnly : Bool := false
  fresh  : Bool := false
  keyed  : Bool := false   -- its last scrub was KEY: the array holds the former ciphertext (R98, R99)
  failed : Bool := false   -- its scrub failed (R102)
  lost   : Nat := 0        -- its contents were lost with power (Table 5.8, L): identity of the free bytes it holds, 0 none
  clean  : Nat := 0        -- the model's count of free values at its last scrub: a memory test before it no longer shows
  grant  : Option Nat := none -- when it was last granted: its six copies agree 2 us later (R84)
deriving DecidableEq, Repr

/-- A range of swatches of region 4 to 7 with an owner (R81). -/
structure ApRange where
  first : Nat   -- first local address
  count : Nat   -- swatches
  owner : Nat
deriving DecidableEq, Repr

/-- State of an ownable unit other than a swatch (Table 3.1). -/
inductive UnitState where | free | owned | scrubbing | held
deriving DecidableEq, Repr

/-- An ownable unit (kinds 2 to 9 of Table 19.3). -/
structure UnitOwn where
  owner  : Nat := 31
  state  : UnitState := .free
  failed : Bool := false   -- its scrub failed (R102)
deriving DecidableEq, Repr

/-- A partition (R92, R95, R107, R733, Tables 23.12, 3.9). -/
structure Part where
  exists_    : Bool := false
  weight     : Nat := 16
  nearPlain  : Bool := false
  resetVec   : Nat := 0
  rnmi       : Nat := 0
  rnmiExc    : Nat := 0
  farKey     : Nat := 0      -- identity of the far key (0: none); the key itself is no software's (R93)
  nearKey    : Nat := 0
  selRefuse  : Nat := 0      -- SEL_REFUSE_COUNT (R91)
  throttled  : Nat := 0      -- throttled 1 ms intervals (Table 3.9)
  slowed     : Bool := false -- a unit of it has been throttled in the 1 ms interval in course
  traffic    : Nat := 0      -- bytes of memory traffic (Table 3.9)
  energy     : Nat := 0      -- mJ (Table 3.9)
  knotWaitNs : Nat := 0      -- knot-wait time (Table 3.9)
  shown      : List Nat := [0, 0, 0, 0]  -- energy, throttled, traffic and knot-wait as at the latest 1 ms boundary (R108)
deriving DecidableEq, Repr

/-- Cralu's record of one release of one resource, or of a range released together (R103, Table 3.7): the scrub under way, then
the record a report is signed from. -/
structure ScrubRec where
  seq     : Nat := 0
  from_   : Nat := 0xFF       -- FROM_PART, 0xFF for a BLANK scrub
  method  : Nat := 1
  kind    : Nat := 0
  failed  : Bool := false
  first   : Nat := 0
  units   : List Nat := []    -- unit indices, ascending (INDEX of UREF)
  startTb : Nat := 0
  endTb   : Nat := 0
  samples : Nat := 0
  position : Nat := 0
  done    : Bool := false
  grant   : Option Nat := none -- partition the units pass to when the scrub ends (R83, R99)
  zero    : Bool := false     -- ZERO_FILL
  all     : Bool := false     -- the full scrub of BENCH_ENTER: everything partition 0 does not own (R113)
  hidden  : Bool := false     -- no release: a scrub that fills a FREE swatch with zero or turns a CACHE one FREE; it has no report (R103)
deriving DecidableEq, Repr

/-- The selvedge and partition tables. -/
structure Selvedge where
  base     : SwState := .blank      -- state of every swatch not listed: BLANK after CP (R83), FREE after WP (R163)
  swatches : Tab Swatch := []       -- keyed by local address [51:21]; the unlisted swatch is in state `base` with no owner
  ranges   : List ApRange := []     -- the range table of regions 4 to 7
  units    : Tab UnitOwn := []      -- keyed by kind and index (Machine.unitKey)
  parts    : Tab Part := [(0, { farKey := 1, nearKey := 2 })]  -- keyed by partition number; partition 0's keys are drawn at CP (R92)
  scrubs   : List ScrubRec := []    -- latest first
  scrubSeq : Nat := 0               -- REPORT_SEQ of the next record
  written  : Tab Bool := []         -- lines written since their fresh swatch was granted (R99)
  keyCount : Nat := 2               -- keys drawn so far (R92)
deriving DecidableEq, Repr

/-! ### Faults (chapter 19) -/

/-- A fault record (Table 19.1). -/
structure FaultRec where
  type     : Nat := 0
  cls      : Nat := 0
  phase    : Bool := false
  holdover : Bool := false
  unsynced : Bool := false
  degraded : Bool := false
  part     : Nat := 0xFF
  scope    : Nat := 0
  unitKind : Nat := 0
  position : Nat := 0
  tb       : Nat := 0
  seq      : Nat := 0
  unit     : Nat := 0
  count    : Nat := 1
  addr     : Nat := 0
  arg0     : Nat := 0
  arg1     : Nat := 0
  arg2     : Nat := 0
deriving DecidableEq, Repr

/-- A class counter of folded records (R576). -/
structure ClassCtr where
  count : Nat := 0
  first : Nat := 0
  last  : Nat := 0
deriving DecidableEq, Repr

/-- One fault queue (R574 to R578, Table 23.5); FQ_TAIL is the low half of `q`. -/
structure FaultQueue where
  head     : W32 := 0
  q        : Nat := 0             -- 64-bit queue sequence the next entering record takes (R570)
  recs     : Tab FaultRec := []   -- keyed by slot 0 to 4,095
  ovf      : Bool := false
  live     : List ClassCtr := List.replicate 6 {}
  snap     : List ClassCtr := List.replicate 6 {}
  irqMin   : Nat := 2             -- FQ_CTRL.IRQ_MIN_CLASS
  irqEntry : Nat := 0xFFFF        -- FQ_CTRL.IRQ_ENTRY
  lastSeq  : Nat := 0             -- FQ_SEQ
deriving DecidableEq, Repr

/-- The package log and its two copies (R566, R580 to R583). -/
structure FaultLog where
  recs    : List FaultRec := []   -- oldest first
  ctrs    : List ClassCtr := List.replicate 6 {}
  failed0 : Bool := false
  failed1 : Bool := false
  pseq    : Nat := 0              -- PSEQ of the next record (R570)
deriving DecidableEq, Repr

/-- The rate limiter of one type and unit (R573). -/
structure RateState where
  armed   : Bool := false         -- a record was written and its second has not ended
  last    : Nat := 0              -- time base of that record
  pending : Nat := 0
  record  : FaultRec := {}
deriving DecidableEq, Repr

/-- Fence scopes (R589, SCOPE of Table 19.1). -/
inductive Scope where | none | unit | partition | package | membership
deriving DecidableEq, Repr

/-- A cause of a fence (R595). PSEQ is absent for a record that was folded everywhere. -/
structure Cause where
  pseq    : Option Nat := none
  type    : Nat := 0
  pending : Bool := true
  arg2    : Nat := 0
  kind    : Nat := 0      -- unit the record names (UNIT_KIND, UNIT)
  unit    : Nat := 0
deriving DecidableEq, Repr

/-- A fence and its causes (R591, R595). -/
structure Fence where
  scope  : Scope
  kind   : Nat := 0       -- Table 19.3, for unit scope
  unit   : Nat := 0
  part   : Nat := 0xFF
  causes : List Cause := []
deriving DecidableEq, Repr

/-- Everything of chapter 19. The last word is keep-alive state and stands with it. -/
structure Faults where
  queues   : Tab FaultQueue := []   -- 0 to 16 the partitions, 17 the Steward
  log      : FaultLog := {}
  rates    : Tab RateState := []
  fences   : List Fence := []
  faultN   : Bool := true           -- FAULT_N level (R590)
  intSteward : Nat := 0xFFFF        -- INT_STEWARD.BUCKET_ENTRY (Table 23.11)
deriving DecidableEq, Repr

/-! ### Harts and interrupts (chapter 6) -/

/-- Whether a hart runs (R187 to R189, R207). -/
inductive HartRun where | off | running | stopped | parked
deriving DecidableEq, Repr

/-- The trap a hart took last. -/
structure Trap where
  cause : Nat
  tval  : Nat
  mode  : TrapMode
  epc   : Nat
deriving DecidableEq, Repr

/-- One entry of a hart's store buffer (R215). -/
structure SbEntry where
  addr  : Nat
  bytes : List Byte
  io    : Bool := false
deriving DecidableEq, Repr

/-- A hart (R184 to R209): its custom CSRs, store buffer, reservation and RNMI state. -/
structure Hart where
  run      : HartRun := .off
  pc       : Nat := 0
  mode     : Nat := 3            -- 3 M, 1 S, 0 U; starts are in M (R187)
  virt     : Bool := false       -- V: 1 in VS and VU mode (R198)
  mHwErr   : W64 := 0            -- YMHWERR
  mHwAddr  : W64 := 0
  hsHwErr  : W64 := 0            -- YHWERR
  hsHwAddr : W64 := 0
  vsHwErr  : W64 := 0            -- YVSHWERR
  vsHwAddr : W64 := 0
  startPc  : W64 := 0            -- YMSTARTPC
  sb       : List SbEntry := []  -- oldest first, at most 64 (R215)
  resv     : Option Nat := none  -- reserved line of an LR (R239)
  resvHeld : Bool := false       -- a snoop for that line is delayed by the reservation (R239)
  sbBad    : Option (Nat × Nat) := none -- a store that left the buffer and could not be performed: address and CAUSE (Table 7.9, R246)
  hpm      : Tab W64 := []       -- mhpmcounter3 to 31, keyed by number (Table 6.2)
  csrs     : Tab Nat := []       -- the other CSRs of R190 by number, PMP's among them; from 2^16 the indirect ones, at 2^22 the triggers (log entry 82)
  nmie     : Bool := false       -- mnstatus.NMIE
  mnepc    : Nat := 0
  mncause  : Nat := 0
  mnpp     : Nat := 3            -- mnstatus.MNPP: the mode an RNMI interrupted
  mnpv     : Bool := false       -- mnstatus.MNPV: V as an RNMI found it
  startReq : Bool := false       -- a start waits for its cluster to wake (R189)
  rnmi     : List Nat := []      -- RNMI causes pending, oldest first (Table 6.12)
  trap     : Option Trap := none
  result   : List Byte := []     -- bytes the last load, LR, SC or AMO returned to its destination register
deriving DecidableEq, Repr

/-- Directory states I, S, E of Table 7.6; B is the flag `busy` (it keeps the sharer information of the state it leaves). -/
inductive DirState where | i | s | e
deriving DecidableEq, Repr

/-- The transactions a home serves (Table 7.7). -/
inductive ReqKind where | readShared | readOwn | readOnce | writeLine | writePart | writeBack | atomicHome | atomicMem
deriving DecidableEq, Repr

/-- What a write or an atomic brings to its home: the address, the DAT bytes with the mask of those written, their poison mark, and an
atomic's operation, size, operand and compare value (R234, R241, R607). -/
structure HomeAct where
  addr    : Nat := 0
  bytes   : List Byte := []
  mask    : Nat := 0xFFFFFFFFFFFFFFFF
  poison  : Bool := false
  op      : Nat := 0
  size    : Nat := 8
  operand : Nat := 0
  compare : Nat := 0
  txn     : Nat := 0       -- TXN of a remote requester's message (Table 20.4)
  grant   : Nat := 0       -- a write whose DAT follows a grant (R237): 0 not yet granted, 1 granted, 2 its DAT has come
deriving DecidableEq, Repr

/-- A REQ waiting in a line's queue (R234). -/
structure DirReq where
  kind : ReqKind
  agent : Agent
  part  : Nat := 0
  act   : HomeAct := {}
  snooped : Bool := false  -- every package it snoops has answered
deriving DecidableEq, Repr

/-- A directory entry (R231, R233, Table 7.6). -/
structure DirEntry where
  st      : DirState := .i
  locals  : Nat := 0               -- bit c: L3 of cluster c; bit 16 + slot: shelf slice (48 bits)
  remote  : List Nat := []         -- up to four Position IDs exactly
  coarse  : Nat := 0               -- beyond four: bit k for Position IDs 8k to 8k + 7
  owner   : Option Agent := none
  dirty   : Bool := false
  busy    : Bool := false          -- state B
  awaits  : List Nat := []         -- Position IDs whose answers to a snoop are still to come
  victim  : Bool := false          -- it is being collected so that its way may be taken (R232)
  once    : Bool := false          -- the owner has answered a ONCE snoop for a read that is still to be presented again
  queue   : List DirReq := []
deriving DecidableEq, Repr

/-- One set of a cache or directory unit: the line in each way and the replacement bits (R255, R257). -/
structure CSet where
  tags : List (Option Nat) := []   -- one per way; a missing way is invalid
  plru : Nat := 0                  -- bit n: tree node n
  ages : List Nat := [0, 1, 2, 3]  -- exact LRU ages, front-end caches only
deriving DecidableEq, Repr

/-- A proxy entry (R233): a line of another package held within this one, with its data. -/
structure Proxy where
  own    : Bool := false           -- granted in state E
  dirty  : Bool := false
  poison : Bool := false
  part   : Nat := 31               -- the partition that holds it
  clusters : Nat := 0              -- bit c: the caches of cluster c hold it
  slices   : Nat := 0              -- bit s: shelf slice s holds it
  bytes  : List Byte := []
deriving DecidableEq, Repr

/-- Who issued an access to another package (R213): the ferry of a slip for one descriptor, a PCIe function, a hart, a cache that evicts; or the
command in course. -/
inductive Actor where
  | course
  | slip (s : Nat) (seq : W32)
  | func (f : Nat)
  | hart (n : Nat)
  | cache
deriving DecidableEq, Repr

/-- A write of this package to a line of another, until its home answers that it is performed (R213, R221). -/
structure OutWrite where
  by_  : Actor := .course
  dst  : Nat := 0
  txn  : Nat := 0
  line : Nat := 0              -- by its compact address
deriving DecidableEq, Repr

/-- A busy MSHR of a cache (R251): the line whose miss it holds, the partition, and the requesters attached to it. -/
structure Mshr where
  num     : Nat := 0             -- its number: 8w to 8w + 7 belong to way w of a shelf slice (R265)
  line    : Nat
  part    : Nat := 31
  targets : List Nat := []
deriving DecidableEq, Repr

/-- An access of the command in course that must wait: for a line's home, with the caches whose MSHRs hold its miss from the nearest out
and the requester, or at an island that answers RETRY (R73). -/
structure Stall where
  line   : Nat := 0
  req    : DirReq := { kind := .readOnce, agent := .other }
  caches : List Nat := []
  who    : Nat := 0
  island : Option Island := none
  write  : Bool := false      -- a write or an atomic
  way    : Option Nat := none -- the tag that a way of the directory must be freed for
  evict  : Option Nat := none -- a dirty line of another package that must first be written back
deriving DecidableEq, Repr

/-- The coherent space but for its bytes: directories, caches, poison (chapters 7, 8, 11). -/
structure Coherence where
  dir      : Tab DirEntry := []    -- keyed by the line's global address [59:6]
  dirSets  : Tab CSet := []        -- keyed by home, unit and set
  caches   : Tab CSet := []        -- keyed by cache and set
  wayOwner : Tab Nat := []         -- partition + 1 holding way w of slot (key 16 slot + w); 0 none
  split    : Tab Nat := []         -- CACHE swatches of a slot, 6 bits (R262)
  bypass   : List Nat := []        -- slots whose lookups go to the home while SHELF_SPLIT_SET waits for their MSHRs (R263)
  leaving  : List Nat := []        -- ways (16 slot + w) that change holders while WAYMASK_SET waits (R266, R268)
  answer   : List Byte := []       -- data of the latest CMP or DAT answer of a home (Table 7.7)
  answerBad : Nat := 0             -- how that answer stands: 0 sound, else a CAUSE of Table 6.7
  answerPoison : Bool := false     -- its data are marked poisoned
  proxies  : Tab Proxy := []       -- proxy entries, keyed by the compact address's line
  unknown  : Tab Nat := []         -- lines whose bytes are free (the model's own): identity of those bytes, 0 none
  poison   : Tab Bool := []        -- poisoned lines, keyed by local address [51:6]
  swPoison : Tab Bool := []        -- swatch poison map, keyed by local address [51:21]
  copies   : Tab (List Byte) := [] -- what memory holds of a line that its exclusive holder has written (R249)
  restored : Tab (List Byte) := [] -- lines that are again what memory held of them (R249)
  gone     : Tab Bool := []        -- lines of a removed package whose dirty data were discarded: poisoned, by compact address (R248)
  mshrs    : Tab (List Mshr) := [] -- busy MSHRs of a cache, oldest first, keyed by cache number (R251, R271)
  stalls   : List Stall := []      -- accesses of the command in course that must wait
deriving DecidableEq, Repr

/-- A leaky bucket (R345). -/
structure Bucket where
  count    : Nat := 0
  lastLeak : Nat := 0
  lastAddr : Nat := 0
deriving DecidableEq, Repr

/-- Settings of a bucket class (R347): CAPACITY and PERIOD in ms. -/
structure BucketCfg where
  capacity : Nat := 32
  periodMs : Nat := 60000
deriving DecidableEq, Repr

/-- Leaky buckets and patrol scrubbers (R345 to R351). -/
structure Ecc where
  buckets   : Tab Bucket := []
  cfg       : List BucketCfg := List.replicate 9 {}
  patrolMs  : List Nat := [86400000, 43200000, 1000, 10000, 100]  -- Table 11.6 rows from 0
  patrolPos : Tab Nat := []        -- next unit of each scrubber
  patrolled : Tab Nat := []        -- passes completed
deriving DecidableEq, Repr

/-! ### Memory hardware (chapter 10) -/

/-- Training path (MEM_STATUS PATH): not trained, warm, cold, or an L-die site. -/
inductive TrainPath where | none | warm | cold | ldie
deriving DecidableEq, Repr

/-- A rank of a far-tier channel as MR4 last showed it (R325): its value, the refresh multiplier and timing derating that it requires, and
whether the device is above its operating limit. -/
structure RankHot where
  value  : Nat := 0
  mult   : Nat := 1
  derate : Bool := false
  over_  : Bool := false
deriving DecidableEq, Repr

/-- Training of one stack or far-tier channel (R315 to R317, R324, R325). -/
structure Channel where
  path     : TrainPath := .none
  step     : Nat := 0           -- last step that ended
  failed   : Bool := false
  failStep : Nat := 0
  done     : Bool := false      -- its last step before tier opening has ended
  cached   : Bool := true       -- its cached parameters are valid (R158); warm by choice at reset (log entry 6)
  temp     : Nat := 0           -- last temperature in 0.25 degrees, or last MR4 value
  refresh  : Nat := 1           -- refresh multiplier in force
  throttle : Nat := 100         -- percent of peak bandwidth allowed
  recals   : Nat := 0           -- background recalibrations run (R319)
  refreshes : Nat := 0          -- per-bank refreshes issued (R323)
  dev      : MemDevice := {}    -- the device that training found (R309 to R311)
  mr4      : List RankHot := [{}, {}]  -- each rank of a far-tier channel as MR4 last showed it (R325)
  coldChans : List Nat := []    -- channels of a stack that HBM_LANE_REMAP has retrained cold (R332)
  softRows : List (Nat × Nat × Nat) := []  -- rows under soft repair: pseudo-channel, bank and row (Table 10.7)
deriving DecidableEq, Repr

/-- A repair candidate (R328): row or lane, its coordinates, count and stamps. -/
structure Candidate where
  lane    : Bool := false   -- KIND: false row, true lane
  tier    : Nat := 2
  unit    : Nat := 0        -- flex site, or C-die
  channel : Nat := 0        -- pseudo-channel, or channel
  rank    : Nat := 0
  bank    : Nat := 0
  row     : Nat := 0
  laneNo  : Nat := 0
  count   : Nat := 1
  first   : Nat := 0
  last    : Nat := 0
deriving DecidableEq, Repr

/-- The memory hardware. Stacks are keyed by flex site 0 to 11, far channels by 16 + 64 die + channel. -/
structure MemHw where
  nearOpen  : Bool := false
  farOpen   : Bool := false
  training  : Bool := false          -- training has begun (R315)
  chans     : Tab Channel := []
  kGib      : Nat := 0               -- capacity per far channel K (R311)
  farDev    : Option MemDevice := none  -- the far-tier population the first channel of this training showed (R311)
  acts      : Tab Nat := []          -- activations of a row since its neighbours were refreshed (R326)
  targeted  : Nat := 0               -- targeted refreshes issued
  raa       : Tab Nat := []          -- activations of a bank since its last RFM (R326)
  rfms      : Nat := 0               -- RFM commands issued (R309, R310, R326)
  allBank   : Nat := 0               -- all-bank refreshes, at self-refresh entry and exit (R309)
  cands     : List Candidate := []   -- at most 256 (R328)
  discarded : Nat := 0               -- DISCARDED (R329)
  rowFuse   : Tab Nat := []          -- row spares a bank was made with, as fused; of a bank not listed a free value (log entry 16)
  laneFuse  : Tab Nat := []          -- lane spares a channel was made with, likewise
  rowUsed   : Tab Nat := []          -- row spares used, per stack or channel and bank
  laneUsed  : Tab Nat := []          -- lane spares used, per channel
  selfRefresh : Bool := false        -- memories in self-refresh (R323)
  rowTests  : Tab Nat := []          -- likewise rows that the verification of a row repair overwrote (R331)
  tests     : Tab Nat := []          -- channels whose array a Bench test overwrote (R327): identity of the free bytes left there
deriving DecidableEq, Repr

/-! ### Translation and slips (chapters 12 and 13) -/

/-- A shadow extent (Table 12.2). -/
structure Extent where
  buf   : Nat
  voff  : Nat
  len   : Nat
  paddr : Nat      -- compact address of its first byte
  wr    : Bool
deriving DecidableEq, Repr

/-- The fault a walk found first (R379). -/
structure WalkFault where
  reason : Nat
  buf    : Nat
  va     : Nat
  gpa    : Nat := 0
  off    : Nat := 0
  pte    : Nat := 0          -- compact address of the PTE whose access failed
deriving DecidableEq, Repr

/-- A translation in progress: the page its next walk serves, and what is found so far. -/
structure WalkState where
  buf    : Nat := 0
  off    : Nat := 0
  exts   : List Extent := []
  fault  : Option WalkFault := none
  rewalk : Bool := false     -- a stale or paused descriptor is walked again (R365, R368)
  stamp  : Nat := 0          -- age of the request (R377)
  first  : List (Nat × Nat × Nat) := []  -- first pages known: buffer, compact address, bytes that follow it in its page (R375)
  bad    : List Nat := []    -- buffers whose first page's walk faulted
  kept   : List (Nat × Nat × Nat) := []  -- PTEs the walker of a buffer keeps: buffer, compact address, value (R378)
deriving DecidableEq, Repr

/-- A leaf translation of a front-end cache (R374): the compact address of its 4 KiB page, how many bytes run on from there in the page of
both stages, the permissions of both leaf PTEs, and the epoch snapshot taken at fill. -/
structure Leaf where
  pa     : Nat
  left   : Nat
  perms  : Nat
  gperms : Nat
  all    : W32
  asid   : W32
  vmid   : W32
deriving DecidableEq, Repr

/-- A lookup of a buffer's first page in a front-end cache (R375); `stamp` tells the translation it belongs to. -/
structure Lookup where
  slip  : Nat
  seq   : W32
  stamp : Nat
  buf   : Nat
deriving DecidableEq, Repr

/-- A ferry group's front end: its cache's single outstanding miss, and the lookups that miss has stopped, in order (R252). -/
structure FrontEnd where
  miss    : Option Lookup := none
  stopped : List Lookup := []
deriving DecidableEq, Repr

/-- A line read or write of a ferry's descriptor that waits for its answer (R402). -/
structure FerryOut where
  slip  : Nat
  seq   : W32
  line  : Nat
  write : Bool
deriving DecidableEq, Repr

/-- Where a descriptor is in its life. -/
inductive Phase where
  | fetched                -- in the descriptor store, not yet staged
  | walking                -- being translated, or walked again
  | staged                 -- its extents and snapshot are held
  | dispatched             -- handed to its engine
  | waiting                -- dispatched, and waiting at a knot, pool, ledger or bolt entry
  | ended                  -- its work is over, its record not written
  | recorded               -- its record is written and not final (STOPPED set)
  | final                  -- its record is final
deriving DecidableEq, Repr

/-- An object record (Table 9.4). -/
structure ObjRec where
  used    : Bool := false
  mode    : Nat := 0        -- 0 single-home, 1 write-back
  format  : Nat := 0
  rows    : Nat := 0
  cols    : Nat := 0
  count   : Nat := 0        -- BOLT_COUNT
  map     : Nat := 0        -- MAP_ADDR, compact
  codecs  : Nat := 1        -- mask; bit 0 is always set
  lossOk  : Bool := false
  transit : Nat := 0        -- TRANSIT_ADDR, compact
  slots   : Nat := 1        -- TRANSIT_SLOTS
  waitUs  : Nat := 1000     -- WAIT_LIMIT
deriving DecidableEq, Repr

/-- An object record as a descriptor that names the object was dispatched with it (R279, R280). -/
structure Bound where
  id      : Nat
  record  : ObjRec
  retired : Bool := false       -- retired since: what it fetches takes no tag
deriving DecidableEq, Repr

/-- A descriptor held by a ferry (R400, R401) with what its completion record will say (Table 13.11). -/
structure Desc where
  seq      : W32
  bytes    : List Byte
  ringBad  : Nat := 0           -- 0 sound, 1 arriving poison, 2 detected error in its ring lines (R736)
  phase    : Phase := .fetched
  walk     : WalkState := {}
  extents  : List Extent := []
  snapAll  : W32 := 0           -- epoch snapshot (R364)
  snapAsid : W32 := 0
  snapVmid : W32 := 0
  asid     : Nat := 0           -- context fields held with it (R360)
  vmid     : Nat := 0
  gmode    : Nat := 0
  begun    : Bool := false      -- has issued an access
  pauseReq : Bool := false      -- an epoch made it stale while dispatched (R368)
  progress : Nat := 0           -- transfer offset, pass or row reached
  poison   : Bool := false      -- it carried poison (Table 11.3)
  off      : Bool := false      -- it met ISLAND_OFF
  rerun    : Bool := false      -- a BARRIER or NOP run again under R420
  status   : Nat := 0
  reason   : Nat := 0
  buf      : Nat := 0
  doneBytes : Nat := 0
  result   : List Byte := []    -- RESULT, 16 bytes when not empty
  scratch  : Nat := 0           -- the engine's note: a step of its own protocol
  since    : Nat := 0           -- when its wait or its engine work began
  objs     : List Bound := []   -- objects it names, as they were when it was dispatched (R279)
  early    : Bool := false      -- it ended before it was dispatched
  recStep  : Nat := 0           -- steps of R416 that its record in another package has gone through
deriving DecidableEq, Repr

/-- Slip states (Table 13.3). -/
inductive SlipSt where | disabled | running | stopped | disabling | fenced
deriving DecidableEq, Repr

/-- A slip (Tables 13.2, 23.9): its registers and the descriptors fetched from it, oldest first. -/
structure Slip where
  tail   : W32 := 0
  head   : W32 := 0
  done   : W32 := 0
  log2   : Nat := 4
  ring   : Nat := 0         -- RING_BASE
  cring  : Nat := 0         -- CRING_BASE
  group  : Nat := 0
  ferry  : Nat := 0
  cls    : Nat := 3
  depth  : Nat := 8         -- STAGE_DEPTH
  stopIrq : Nat := 0xFFFF
  mode   : Nat := 0
  root   : Nat := 0         -- compact address
  asid   : Nat := 0
  gmode  : Nat := 0
  groot  : Nat := 0
  vmid   : Nat := 0
  priv   : Bool := false
  sum    : Bool := false
  mxr    : Bool := false
  adue   : Bool := false
  st     : SlipSt := .disabled
  stopSeq : W32 := 0
  stopStatus : Nat := 0
  reason : Nat := 0
  dbOverrun : Bool := false
  skip   : List W32 := []   -- the skip map (R420)
  stopping : Option W32 := none  -- a descriptor is stopping the slip (R419)
  disableReq : Bool := false     -- DISABLE was written while a descriptor is stopping the slip
  resume : Nat := 0         -- DONE_BYTES of the descriptor at STOP_SEQ (R421)
  descs  : List Desc := []
deriving DecidableEq, Repr

/-- Arbitration of a ferry among its slips (R399): the slip served last per class, and how often a class with a ready
descriptor was passed over. -/
structure Arbiter where
  last   : List Nat := [0, 0, 0, 0]
  passed : List Nat := [0, 0, 0, 0]
deriving DecidableEq, Repr

/-- Slips, ferries, epochs and front ends. -/
structure Engines where
  slips   : Tab Slip := []
  epochs  : Tab W32 := []        -- 81 per partition: ALL, 64 ASID classes, 16 VMID classes (R364)
  fetchArb : Tab Arbiter := []   -- per ferry
  dispArb : Tab Arbiter := []
  stamp   : Nat := 0             -- age counter of walk requests
  fronts  : Tab FrontEnd := []   -- per ferry group (R252, R375)
  leaves  : Tab (Option Leaf) := []  -- leaf translations a front-end cache holds, keyed by their tag (R374)
  kept    : List (Nat × Nat) := []   -- during a walk: the PTEs the walker keeps, by compact address (R378)
  outs    : List FerryOut := []  -- line reads and writes of ferries that wait for their answers, oldest first (R402)
deriving DecidableEq, Repr

/-! ### Bobbins, objects and bolt misses (chapter 9) -/

/-- The tag of a bobbin slot (R292). -/
structure BobTag where
  valid   : Bool := false
  obj     : Nat := 0
  bolt    : Nat := 0
  version : Nat := 0
deriving DecidableEq, Repr

/-- A bolt miss in service or waiting for a transit slot, in arrival order (R293). -/
structure Miss where
  slip    : Nat
  seq     : W32
  loom    : Nat
  slot    : Nat             -- bobbin slot
  obj     : Nat
  bolt    : Nat
  transit : Option Nat := none  -- compact address of its transit slot
  waited  : Bool := false       -- it has met a WRITING entry (R285)
deriving DecidableEq, Repr

/-- The bobbins and the object tables. -/
structure Tiers where
  bobbin  : Tab (Option Byte) := [] -- bytes written, keyed by loom 2^20 + offset
  lost    : Tab Nat := []       -- quads whose bobbin contents were lost (R75, Table 5.8): identity of the free bytes they hold
  poison  : Tab Bool := []      -- poisoned granules, keyed by loom 256 + granule
  tags    : Tab BobTag := []    -- keyed by loom 16 + slot
  objects : Tab ObjRec := []    -- keyed by partition 1,024 + OBJ_ID (R277)
  misses  : List Miss := []
deriving DecidableEq, Repr

/-! ### Looms and finishers (chapters 14 and 15) and their arbitration (chapter 16) -/

/-- A loom: its mode register and its two accumulator banks (R424, R435). A cell is kept as its 32-bit pattern. -/
structure Loom where
  mode  : Nat := 0
  cfg   : Nat := 0        -- shape, semiring and formats of its latest pass, plus one (R438)
  bank0 : List Nat := []
  bank1 : List Nat := []
deriving DecidableEq, Repr

/-- A pass that has swapped and drains: the bank, the pass, and which output elements are poisoned (rows, columns, all). -/
structure Drain where
  bank  : Nat
  pass  : Nat
  since : Nat := 0         -- when its bank swapped
  rows  : List Nat := []   -- weft rows that were poisoned
  cols  : List Nat := []   -- warp rows that were poisoned
  cells : List Nat := []   -- INIT elements of the gang tile that were poisoned, i N + j
  all   : Bool := false    -- a parity error in the pass
deriving DecidableEq, Repr

/-- A weave, finishing or verify descriptor on its units: looms 0 to 511, finishers 512 + quad. -/
structure Run where
  slip    : Nat
  seq     : W32
  units   : List Nat
  cls     : Nat               -- class of its slip (R505)
  total   : Nat := 0          -- passes or rows
  next    : Nat := 0          -- passes or rows begun
  running : Bool := false     -- a pass is between its start and its swap
  start   : Nat := 0          -- when that pass or row began
  stamp   : Nat := 0          -- order in which it began waiting
  passed  : Option Nat := none -- when it was first passed over (R507)
  bank    : Nat := 0          -- bank of the running pass
  fresh   : Bool := false     -- that pass pays the dispatch, broadcast and INIT stages (R438)
  drains  : List Drain := []
  done    : Nat := 0          -- passes or rows fully written
  flags   : Nat := 0          -- result flags, bit 0 is bit 16 of RESULT
  poison  : Bool := false
  tainted : Bool := false     -- a parity error poisons every output of the operation (R479)
  first   : Nat := 0          -- FIRST_INDEX, or for VERIFY the row count accepted
  cyc     : Nat := 0          -- cycles counted so far
  swaps   : List Nat := []    -- cycle of the latest swap of each bank
  gen     : Nat := 0          -- VERIFY: the ledger's GEN at dispatch
deriving DecidableEq, Repr

/-- The looms, the finishers and their arbitration. -/
structure Weaves where
  looms : Tab Loom := []
  fmode : Tab Nat := []       -- finisher mode registers (Table 15.8)
  runs  : List Run := []
  stamp : Nat := 0
deriving DecidableEq, Repr

/-! ### Knots, pools and ledgers (chapters 16 and 17) -/

/-- Who waits at a knot: a local descriptor, or a remote package's wait. -/
structure Waiter where
  slip   : Nat := 0
  seq    : W32 := 0
  remote : Option Nat := none  -- Position ID
  tag    : Nat := 0            -- the remote message's own number
  part   : Nat := 0
  cond   : Nat := 0
  x      : Nat := 0
  since  : Nat := 0
deriving DecidableEq, Repr

/-- A knot (R480, R482). -/
structure Knot where
  type    : Nat := 0
  value   : W64 := 0
  parties : Nat := 0
  evmode  : Nat := 0
  irq     : Nat := 0xFFFF
  cross   : Bool := false
  members : Nat := 0           -- 256-bit Position ID bitmap
  broken  : Bool := false
  poison  : Bool := false
  lastSig : Nat := 0           -- LAST_SIGNALLER
  waitNs  : Nat := 0           -- wait time on this knot (R510)
  waitShown : Nat := 0         -- that time as at the latest 1 ms boundary
  waiters : List Waiter := []
deriving DecidableEq, Repr

/-- A queued pool allocation (R498): of a POOL_ALLOC, or of a LEDGER_EXTEND. -/
structure PoolWait where
  slip   : Nat
  seq    : W32
  count  : Nat
  ledger : Option Nat := none
deriving DecidableEq, Repr

/-- A pool (Table 16.5, R495). -/
structure Pool where
  used    : Bool := false
  die     : Nat := 0
  base    : Nat := 0
  bufSize : Nat := 0
  entries : Nat := 0
  ring    : Nat := 0
  refill  : Nat := 0
  head    : W32 := 0
  tail    : W32 := 0
  poison  : Bool := false
  queue   : List PoolWait := []
deriving DecidableEq, Repr

/-- A ledger entry (Table 17.1) with the poison marks of its words and the descriptors that wait behind an extend. -/
structure Ledger where
  l      : Nat := 0
  t      : Nat := 0
  list   : Nat := 0            -- PAGE_LIST, compact address
  pool   : Nat := 0
  active : Bool := false
  npages : Nat := 0
  cap    : Nat := 0
  spare  : Nat := 0
  gen    : W32 := 0
  poison : Nat := 0            -- bit w: word w is poisoned
  held   : Bool := false       -- an extend holds it (R521)
  queue  : List (Nat × W32) := []
deriving DecidableEq, Repr

/-- The sync islands. -/
structure Sync where
  knots   : Tab Knot := []
  pools   : Tab Pool := []     -- keyed by partition 64 + POOL_ID
  ledgers : Tab Ledger := []
  remoteWaits : List (Nat × W32 × Nat) := []  -- waits registered or tried at other packages: slip, seq, state 0 tried 1 held
deriving DecidableEq, Repr

/-! ### Root ports and CXL (chapter 21) -/

/-- Where the hot-plug slot of a root port stands (Table 21.3, R649 to R651). -/
inductive SlotSt where | empty | debounced | powered | perst | up | off | faulted
deriving DecidableEq, Repr

/-- A root port (R640, R642, R645, R649, R660). Ports are numbered 0 to 31: port j of complex q is 4 q + j; C0's are 0 to 15. -/
structure RootPort where
  exists_   : Bool := false     -- present under the port table's bifurcation
  cxl       : Bool := false
  up        : Bool := false
  training  : Bool := false
  contained : Bool := false     -- contained by DPC
  hotReset  : Bool := false     -- held in hot reset by a WP or a package fence
  rate      : Nat := 0          -- GT/s
  width     : Nat := 0
  base      : Nat := 0          -- memory window, 1 MiB units
  limit     : Nat := 0          -- first unit past the window
  timeoutMs : Nat := 10
  isSlot    : Bool := false     -- a hot-plug slot
  slot      : SlotSt := .empty
  slotAt    : Nat := 0          -- when presence was debounced (Table 21.3)
  held      : Bool := false     -- SLOT_CONTROL holds it off
  keeper    : Nat := 0xFFFFFFFF -- requester ID accepted as the Keeper
  discards  : Nat := 0          -- MCTP messages of other functions
  devErrors : Nat := 0
  mediaBad  : Bool := false     -- its CXL device has reported media failure (R648)
deriving DecidableEq, Repr

/-- An HDM decoder (R647). -/
structure HdmDecoder where
  used  : Bool := false
  first : Nat := 0              -- first swatch, local address
  count : Nat := 0
  ports : List Nat := []
deriving DecidableEq, Repr

/-- TDISP interface states. -/
inductive Tdisp where | unlocked | locked | run | error
deriving DecidableEq, Repr

/-- A PCIe function (R641, R654 to R658), keyed by its FUNC number; its owner stands with the units, kind 9. -/
structure Func where
  port    : Nat := 0
  tdisp   : Tdisp := .unlocked
  ide     : Nat := 0            -- 0 none, 1 set up, 2 failed
  stream  : Nat := 0            -- selective stream of its port
  keys    : Nat := 0            -- key refreshes of its stream (R653)
  resets  : Nat := 0            -- resets by FLR
  bars    : List (Nat × Nat) := []  -- locked BARs: first local address, swatches
deriving DecidableEq, Repr

/-- A general pin (Table 21.6). -/
structure Pin where
  fn     : Nat := 0
  level  : Bool := false        -- level of the pad
  value  : Nat := 0             -- VALUE of PIN_SET: output level, or pull
  arg    : Nat := 0
  locked : Bool := false
  busy   : Bool := false        -- a transaction of its function is in progress
  -- a switch under way (R667): its step 1 to 4, new function, value, argument, and when it began
  step   : Nat := 0
  newFn  : Nat := 0
  newVal : Nat := 0
  newArg : Nat := 0
  since  : Nat := 0
  asserted : Bool := false      -- an IRQ_IN source is asserted
  fired  : Nat := 0             -- interrupts or pulses sent by the pin
  pulse  : Nat := 0             -- when its latest time pulse rose
deriving DecidableEq, Repr

/-- A firmware or boot image slot (R663, R732): 0 empty, 1 written, 2 verified, 3 invalid. -/
structure FwSlot where
  st      : Nat := 2
  version : Nat := 0
  secVer  : Nat := 0
  digest  : List Byte := []
deriving DecidableEq, Repr

/-- The edges of chapter 21 that main power feeds, and the SPI NOR flash. -/
structure Edges where
  ports    : Tab RootPort := []
  decoders : Tab HdmDecoder := []  -- keyed by C-die 16 + decoder
  funcs    : Tab Func := []
  pins     : Tab Pin := []
  pinsOn   : Bool := false         -- the pin table has been applied (R666)
  irqOwner : Tab Nat := []         -- owner of an APLIC source (R205), keyed by C-die 128 + source; 31 unassigned
  irqTarget : Tab Nat := []        -- its configuration: hart, file and identity as in Table 23.8
  anchor   : Bool := false         -- ANCHOR as sampled at fuse load (R599)
  i3cAck   : Bool := false         -- the target acknowledges its address (R659)
  i3cDyn   : Bool := false         -- it holds a dynamic address
  i3cAddr  : Nat := 0x2C
  hotJoin  : Nat := 0              -- Hot-Join requests
  eids     : Nat := 0              -- MCTP endpoint IDs assigned
  uart     : List (Nat × Nat × Nat) := [] -- TYPE, CLASS and PSEQ that the debug UART sends in this command (R664)
  tapIr    : Nat := 0              -- JTAG instruction: 0 BYPASS, 1 IDCODE, others the Bench instructions
  tapSegs  : List Nat := []        -- instrument-network segments in the scan path (R111)
  wrapIr   : Tab Nat := []         -- latest IEEE 1500 wrapper instruction of a stack by a test path, keyed by flex site
  wrapBad  : Nat := 0              -- wrapper instructions refused (R111)
  fw       : List FwSlot := [{}, { st := 0 }, {}, { st := 0 }]  -- firmware A, B; boot image A, B
  active   : Nat := 0              -- active firmware slot
  bootAct  : Nat := 0              -- active boot image slot
  flash    : Tab (Option Byte) := [] -- bytes written to the image slots, keyed by flash offset (Table 21.4)
deriving DecidableEq, Repr

/-! ### Power (chapter 18) -/

/-- A rail (R540 to R543, Table 23.13); a cap not set stands at its fuse. Currents in mA, averaged as sensed. -/
structure Rail where
  hard    : Option Nat := none   -- HARD_CAP
  soft    : Option Nat := none   -- SOFT_CAP
  window  : Nat := 10            -- CAP_WINDOW, µs
  engaged : Option Nat := none   -- its protective response is engaged since then (R541)
  softOn  : Bool := false        -- the soft-cap loop holds its response (R543)
  current : Nat := 0             -- current averaged over 1 ms
  dead    : Bool := false        -- its sensor failed its self-check
deriving DecidableEq, Repr

/-- A lease of the power pool: watts, and the instant it ends (R561). -/
structure Lease where
  watts : Nat
  ends  : Nat
deriving DecidableEq, Repr

/-- A telemetry frame of the current epoch (R559): who sent it, WAIT_TOTAL, and its AWAITED entries. -/
structure PoolFrame where
  position : Nat
  set      : Nat
  waitTotal : Nat
  looms    : Nat
  awaited  : List (Nat × Nat) := []
deriving DecidableEq, Repr

/-- Floor and ceilings of an island in MHz (R556); none stands at the range's end. -/
structure Bounds where
  floor   : Option Nat := none
  ceiling : Option Nat := none
  tenant  : Option Nat := none
deriving DecidableEq, Repr

/-- A thermal sensor (R546, R547): its latest reading in 0.25 °C. -/
structure Sensor where
  reading : Option Nat := none
  failed  : Bool := false
deriving DecidableEq, Repr

/-- The power controller, its sensors and the power pool. Island kinds are the rows of Table 2.1 from 0. -/
structure Power where
  static   : Nat := 2000            -- watts (R553)
  poolMin  : Nat := 2000
  poolMax  : Nat := 2000
  outs     : List Lease := []       -- outgoing leases, reductions of this package
  ins      : List Lease := []       -- incoming leases
  poolSet  : Nat := 0               -- PWR_POOL
  poolOn   : Bool := false
  theta    : Nat := 25              -- hundredths
  stepMax  : Nat := 50              -- watts
  tjTarget : Nat := 95              -- °C
  rails    : Tab Rail := []
  sensors  : Tab Sensor := []       -- 0 to 511 in the order of Table 18.3
  sampled  : Nat := 0               -- when the sensors were sampled last
  prochot  : Nat := 0               -- bit d: die d (C0, C1, A0 to A3) is in PROCHOT (R549)
  extHot   : Bool := false          -- PROCHOT_N is held low from outside (R550)
  tripped  : Bool := false          -- THERMTRIP_N is latched low (R551)
  bounds   : Tab Bounds := []       -- keyed by Machine.islandKey
  kindCeil : Tab Nat := []          -- how far the budget loop has lowered a kind's ceiling, MHz (R555)
  dieCeil  : Tab Nat := []          -- how far the thermal loop has lowered a die's ceilings, MHz (R548)
  loopMiss : List Nat := [0, 0, 0, 0]  -- LOOP_MISS for soft cap, thermal, budget and pool (R535)
  yields   : Tab Nat := []          -- POLICY_YIELD per island kind (R536)
  droops   : Tab Nat := []          -- DROOP_EVENTS per island, by Machine.islandKey (R545)
  inputW   : Nat := 0               -- input power averaged over the latest 1 ms interval
  loopAt   : Nat := 0               -- when the budget loop ran last
  telemAt  : Nat := 0               -- 1 ms boundary at which tenant telemetry was taken last (R108)
  epoch    : Nat := 0               -- start of the epoch in course (R559)
  epochRun : Bool := false          -- pool_epoch has run in it
  frames   : List PoolFrame := []   -- telemetry frames of this epoch received so far
  mine     : Option PoolFrame := none -- this package's own frame of the epoch
deriving DecidableEq, Repr

/-! ### The archipelago (chapter 20) -/

/-- State of a membership table entry (R601). -/
inductive MemberSt where | none | member | departing | fenced
deriving DecidableEq, Repr

/-- A membership table entry, with what the member's PRESENCE frames report. -/
structure Member where
  st       : MemberSt := .none
  tag      : Nat := 0        -- DEVICE_TAG
  digest   : List Byte := [] -- Alias digest, 48 bytes
  lastSeen : Nat := 0        -- when its latest PRESENCE arrived
  applied  : Nat := 0        -- SEQ of the last membership frame it reports applied
  downTo   : List Nat := []  -- Position IDs it reports a DOWN link to
  upTo     : List Nat := []  -- Position IDs it reports an ACTIVE link to
  ringEast : Nat := 0        -- hops eastward from this package
  attested : Nat := 0        -- when it was attested last (R636)
deriving DecidableEq, Repr

/-- A partition set's binding on this package, with its knot-wait counters (R509, R611). -/
structure SetBind where
  used      : Bool := false
  set       : Nat := 0         -- 32-bit set identifier
  part      : Nat := 0
  members   : Nat := 0         -- Position ID bitmap
  waitTotal : Nat := 0         -- WAIT_TOTAL, loom-ns
  awaited   : Tab Nat := []    -- AWAITED, keyed by Position ID
deriving DecidableEq, Repr

/-- A causeway frame this package sends (Tables 20.5, 20.6): type, ports (bit 0 EAST, bit 1 WEST), header flags, destination
of a directed frame, and the fields of its body in order. -/
structure CwFrame where
  type   : Nat
  ports  : Nat := 3
  resent : Bool := false
  origin : Nat := 0
  hops   : Nat := 0
  seq    : Nat := 0
  archId : Nat := 0
  tag    : Nat := 0
  dest   : Nat := 0
  tb     : Nat := 0
  holdover : Bool := false
  fenced : Bool := false
  unadmitted : Bool := false
  body   : List Nat := []
deriving DecidableEq, Repr

/-- A causeway port (R622, R623, R625): 0 EAST, 1 WEST. Delays are in units of 2^-16 ns. -/
structure CwPort where
  carrier : Bool := false
  joined  : Bool := false
  broken  : Bool := false
  delay   : Nat := 0
  reqAt   : Nat := 0         -- when the latest DELAY_REQ left
  lastTag : Nat := 0         -- last DEVICE_TAG seen across it
  wasUp   : Bool := false    -- it was joined before its latest break
deriving DecidableEq, Repr

/-- A routing plan (R609, R610): its parity, its root and the links of the topology as pairs of Position IDs. -/
structure Plan where
  num    : Nat := 0
  root   : Nat := 0
  edges  : List (Nat × Nat) := []
  at_    : Nat := 0          -- activation instant
deriving DecidableEq, Repr

/-- A census this package takes part in or initiated (R628 to R630). Entries are the 32 bytes of Table 20.8 as a number. -/
structure Census where
  initiator : Nat
  seq       : Nat
  ts        : Nat
  members   : List Nat := []          -- members in the table at T_s, at the initiator
  sampled   : Bool := false
  mine      : Nat := 0                -- this package's own entry
  entries   : Tab Nat := []           -- keyed by Position ID, at the initiator; plus one
  marks     : List (Nat × Nat) := []
  done      : Bool := false
  lead      : Nat := 1000000
  late      : Bool := false
deriving DecidableEq, Repr

/-- A flit kept in a replay buffer (R606). -/
structure Flit where
  seq     : Nat
  stream  : Nat := 0
  cls     : MsgClass := .req -- class of its message: it holds a credit until the flit is acknowledged (R608)
  message : Bool := true     -- it carries messages, not only idle content
  tries   : Nat := 0         -- replays so far
deriving DecidableEq, Repr

/-- A stream of a link in one direction pair (R612, R616, R617). -/
structure Stream where
  used    : Bool := false
  set     : Nat := 0
  gen     : Nat := 0         -- generation g in use
  counter : Nat := 0         -- next segment counter expected
  sent    : Nat := 0         -- next segment counter to send
  nextGen : Option Nat := none -- a generation change its peer has announced
deriving DecidableEq, Repr

/-- An Idurrum link, ports P0 to P17 (R604 to R606, R615). -/
structure Link where
  st      : LinkSt := .disabled
  since   : Nat := 0
  peer    : Nat := 0         -- Position ID exchanged on stream 0
  peerTag : Nat := 0
  peerArch : Nat := 0
  steward : Bool := false    -- this end holds LINK_STEWARD
  key     : Nat := 0         -- identity of the link key, 0 none
  keyAt   : Nat := 0         -- when the exchange last passed or failed
  tx      : Nat := 0         -- SEQ of the next DATA flit
  rx      : Nat := 0         -- SEQ expected
  replay  : List Flit := []
  streams : Tab Stream := [] -- keyed by stream number
  orderedSet : Bool := false -- the FENCE ordered set has been sent
  answers : List (Nat × Nat) := []  -- ACK (2) and NAK (3) flits sent by the latest command, with their SEQ
  off     : Bool := false    -- disabled by LINK_CONTROL
deriving DecidableEq, Repr

/-- A message put on a link, or waiting for one: its port (255 none yet), the partition set whose stream carries it (0 for stream 0)
and whether this package is its origin. -/
structure OutMsg where
  port : Nat := 255
  set  : Nat := 0
  own  : Bool := true
  msg  : Msg
deriving DecidableEq, Repr

/-- The archipelago as this package knows it. -/
structure Arch where
  members  : Tab Member := []   -- keyed by Position ID
  sets     : Tab SetBind := []  -- bindings, by slot
  archId   : Nat := 0
  timeSrc  : Option Nat := none -- holder of TIME_SOURCE
  admitter : Option Nat := none -- holder of ADMITTER
  minSec   : Nat := 0           -- ARCH_POLICY_SET
  needKa   : Bool := false
  policy   : List (List Byte) := []
  expect   : Nat := 0           -- EXPECT_ARCH and accepted digests of the ARCH_JOIN in course
  accepts  : List (List Byte) := []
  newcomers : List Nat := []    -- DEVICE_TAGs heard with UNADMITTED, at most 16
  freeing  : List (Nat × Nat × List Nat) := []  -- IDs not yet free: Position ID, frame SEQ, members that confirmed (R602)
  memSeq   : Nat := 0           -- SEQ of the last membership frame applied
  east     : CwPort := {}
  west     : CwPort := {}
  running  : Bool := false      -- the causeway island runs and forwards (t0 + 20 ms)
  joinOk   : Bool := false      -- join frames are accepted (t0 + 250 ms)
  seq      : Nat := 0           -- own frame sequence
  seen     : List (Nat × Nat) := []  -- latest frames processed: origin tag and SEQ
  sent     : List CwFrame := [] -- frames the latest command sent or forwarded
  recent   : List (Nat × CwFrame) := [] -- directed frames sent in the last 20 us, and when
  foreign  : Option Nat := none -- when a frame of another ARCH_ID was heard last (R599)
  timeAt   : Nat := 0           -- when the latest TIME frame arrived
  timeHops : Nat := 256         -- HOPS of the copy used
  timeSeq  : Nat := 0
  timeRun  : Nat := 0           -- consecutive TIME frames since RESTORED
  breaks   : List (Nat × Nat) := [] -- breaks in force on the ring (R627): the arc end's DEVICE_TAG and its port
  archTb   : Option (Nat × Nat) := none  -- archipelago time last taken, and the local instant
  plan     : Plan := {}
  prevPlan : Option (Plan × Nat) := none -- the previous plan and until when it is kept
  nextPlan : Option Plan := none
  others   : List (Nat × Nat) := []      -- set bindings announced: Position ID and set
  rolePend : List (Nat × Nat × Nat × Nat) := [] -- role passes due: role, port, new holder, instant
  censuses : List Census := []
  censusSeq : Nat := 0
  links    : Tab Link := []     -- P0 to P17
  posted   : List OutMsg := []  -- messages of the command in course, before they are routed
  out      : List OutMsg := []  -- messages the latest command put on links
  waiting  : List OutMsg := []  -- messages that wait in the router for a port that is DOWN (R610)
  held     : List OutMsg := []  -- DAT of own writes to other packages that await their GRANT (R237)
  snpHeld  : List OutMsg := []  -- snoops of other packages that a reservation delays (R239)
  writes   : List OutWrite := []  -- own writes to other packages whose homes have not answered DONE (R221)
  txn      : Nat := 0           -- TXN of the next own request
  presAt   : Nat := 0           -- when the latest own PRESENCE left
  tickAt   : Nat := 0           -- when the latest own TIME frame left
  delayAt  : Nat := 0           -- when the latest DELAY_REQ left
deriving DecidableEq, Repr

/-- Identity and package-wide bits (chapter 1, Table 23.3). -/
structure Ident where
  sites     : List SiteKind := List.replicate 12 .stack   -- fuses; YSK-12M by choice (log entry 3)
  c0Gib     : Nat := 0           -- YG_FARCAP.C0_GIB, valid after training
  c1Gib     : Nat := 0
  position  : Nat := 0           -- YG_POSITION.POSITION
  admitted  : Bool := false
  bench     : Bool := false
  benchSeen : Bool := false      -- measured boot state (R115)
  pairLock  : Bool := false      -- the permanent lock group of the two cores of the Cralu pair, made at fuse load (R62)
  fusedMin  : Nat := 0           -- fused minimum security version (R663)
deriving DecidableEq, Repr

/-! ### Efano (chapter 4) -/

/-- What a committed command still waits for before its final response. -/
inductive Wait where
  | none
  | units (seqs : List Nat)      -- scrubs still to end, by REPORT_SEQ
  | lock (die first : Nat)       -- LOCK_FORMED
  | pin (n : Nat)                -- PIN_SWITCH_WINDOW_END
  | join                         -- ADMITTED naming this package
  | admission (tag pos : Nat)        -- the end of an admission
  | depart (pos : Nat)           -- DEPARTED
  | unbind (part set : Nat)      -- the lines of a partition have been recalled (R613)
  | role (r port : Nat)          -- ROLE grant
  | census (seq : Nat)           -- CENSUS_COMPLETE
  | link (port : Nat)            -- LINK_TRAINED or its failure
  | dormant                      -- DORMANT_EXIT
deriving DecidableEq, Repr

/-- Where a message of the Keeper came from and its answer returns to (R143): the transport, and over PCIe VDM the root port and the
requester ID. -/
structure KeeperEnd where
  bus  : KeeperBus
  port : Nat := 0
  rid  : Nat := 0
deriving DecidableEq, Repr

/-- A request of a mailbox, from the acceptance of its first fragment to the acknowledgement of its final response. -/
structure Req where
  tag     : Nat
  cmd     : Nat
  seq     : Nat
  session : Nat := 0
  total   : Nat := 0
  payload : List Byte := []
  frags   : Nat := 0             -- fragments taken
  whole   : Bool := false        -- every fragment has come and checks 1 to 7 have passed
  accept  : Nat := 0             -- ACCEPT_TB
  timeout : Nat := 0             -- TIMEOUT_US
  again   : Bool := false        -- it has committed, and its row is presented again for its further steps (R263, R266)
  running : Bool := false        -- it has begun and has not reached its commit point
  begun   : Bool := false        -- it has passed its commit point
  commit  : Nat := 0             -- when
  interim : Bool := false        -- ACCEPTED has been queued
  ended   : Bool := false        -- its final response has been queued
  orphan  : Bool := false        -- its session has closed: no response is delivered (R129)
  hdrBad  : Bool := false        -- a reserved field of an earlier fragment's header was not zero (R124)
  bus     : Option KeeperEnd := none
  wait    : Wait := .none
  reply   : List Byte := []      -- the payload its DONE will carry
deriving DecidableEq, Repr

/-- A record of the outcome store (R728). -/
structure Outcome where
  seq    : Nat
  cmd    : Nat
  status : Nat := 1
  detail : Nat := 0
  accept : Nat := 0
  done   : Nat := 0
deriving DecidableEq, Repr

/-- A response frame waiting for RSP_VALID to clear, or posted. -/
structure Resp where
  tag     : Nat
  hdr     : List Byte
  payload : List Byte
  last    : Bool := true         -- last fragment of a final response: acknowledging it frees the tag
  bus     : Option KeeperEnd := none
deriving DecidableEq, Repr

/-- What OUTCOME_GET finds of the previous session (R728). -/
inductive PrevKind where | none | kept | wiped
deriving DecidableEq, Repr

/-- A mailbox (R118 to R129). -/
structure Mbox where
  reqHdr   : Tab Byte := []      -- MBX_REQ_HDR0 to 7, 64 bytes
  reqPage  : Tab Byte := []
  rspHdr   : Tab Byte := []
  rspPage  : Tab Byte := []
  rung     : Option Nat := none  -- tag of a doorbell whose request is not yet accepted: REQ_FREE is 0
  standIn  : Option Resp := none -- a stand-in answer waiting to be posted
  valid    : Bool := false       -- RSP_VALID
  shown    : Option Resp := none -- the response RSP_VALID shows
  overrun  : Bool := false
  irq      : Nat := 0xFFFF       -- MBX_IRQ.ENTRY
  reqs     : List Req := []
  queue    : List Resp := []     -- responses waiting to be posted, oldest first
  session  : Nat := 0            -- SESSION_ID, 0 none
  sessions : List Nat := []      -- every SESSION_ID this mailbox has had since CP (R128)
  lastSeq  : Option Nat := none
  outcomes : List Outcome := []
  prevId   : Nat := 0
  prev     : List Outcome := []
  prevKind : PrevKind := .none
  keeperOut : List Resp := []    -- Keeper frames sent by the latest command
deriving DecidableEq, Repr

/-- Cralu and its mailboxes (R116 to R153): 0 to 16 the partitions', 17 the Steward's, 18 the Keeper's. -/
structure Efano where
  ready    : Bool := false
  epoch    : W32 := 0            -- MGMT_EPOCH
  boxes    : Tab Mbox := []
  mr       : Option Nat := none  -- an MR is in course since then
  mrFails  : Nat := 0            -- MRs in a row that have failed to reach READY
  mctp     : List Byte := []     -- the latest MCTP answer other than an Efano frame
  mctpAns  : Nat := 0            -- MCTP control, PLDM and SPDM requests answered
  mctpTo   : Option KeeperEnd := none -- the endpoint that answer went to (R143)
  agreed   : Bool := true        -- the reconciliation due before READY returns after an MR has passed (R151)
deriving DecidableEq, Repr

/-! ### Start-up, resets and power states (chapter 5) -/

/-- The package's state (R170): exactly one. -/
inductive PowerSt where | active | idle | drowse | dormant | off
deriving DecidableEq, Repr

/-- Start-up and power states. -/
structure Startup where
  t0       : Nat := 0            -- when the CP or WP began
  warm     : Bool := false       -- start-up resumes after a WP
  fromCode : Nat := 1            -- FROM and CAUSE of the wake report to come (Table 5.9)
  cause    : Nat := 1
  entryTb  : Nat := 0
  checked  : Bool := false       -- the keep-alive check and the fuse check have passed (R53, R686)
  ports    : Bool := false       -- root ports configured (t0 + 100 ms)
  boot     : Bool := false       -- partition 0's boot resources assigned (R157)
  released : Bool := false       -- cores released (R187)
  ownJoin  : Bool := false       -- own join sent (t0 + 250 ms)
  bgScrub  : Bool := false       -- the background scrub of BLANK swatches runs (R83)
  wp       : Option Nat := none  -- a WP is in course since then: not yet zeroised
  fwOk     : Bool := true        -- a firmware slot qualifies (R663)
  st       : PowerSt := .active
  since    : Nat := 0            -- when the state was entered
  drowseReq : Bool := false      -- POWER_STATE_SET (DROWSE) awaits (R731)
  idleUs   : Nat := 50           -- IDLE_DELAY, 10 us to 10 ms
  drowseMs : Nat := 10           -- DROWSE_DELAY, 1 to 1,000 ms
  drowseOn : Bool := false
  saveN    : Nat := 0            -- save area, swatches
  saveAt   : Nat := 0
  image    : Option Nat := none  -- a sealed Dormant image: identity of the sealing key it is sealed under (R174)
  dormReq  : Bool := false       -- POWER_STATE_SET (DORMANT) has been accepted
  retrain  : Bool := false       -- training was cut short by a package fence: this start-up after a WP trains as at CP (chapter 10)
  irqWake  : Bool := false       -- an interrupt has been delivered in Idle or Drowse in this step (Table 5.7)
  resetFuncs : Nat := 0          -- downstream functions the reset under way has reset (PCIE_RESET)
  wakeSeq  : Nat := 0
  report   : List Byte := []     -- the latest wake report (Table 5.9)
deriving DecidableEq, Repr

/-- The keep-alive domain (Table 21.7). -/
structure KeepAlive where
  lastWord : W64 := 0
  rtcValid : Bool := false
  rtc      : Nat := 0            -- real-time clock, ns, as at `rtcAt`
  rtcAt    : Nat := 0            -- time base when the clock read `rtc`
  alarm    : Nat := 0            -- 0 none
  latch    : Nat := 0            -- tamper latch, 4 bits
  tampers  : Nat := 0            -- TAMPER_COUNT
  inputs   : Nat := 0            -- TAMPER inputs that are asserted, 4 bits
  enables  : Nat := 0xF
  debounce : List Nat := [10, 10, 10, 10]
  sealKey  : Nat := 1            -- identity of the sealing key
  sealNext : Nat := 2            -- identity of the next key drawn
  ship     : Bool := false       -- ship mode armed
  powered  : Bool := true
  open_    : Bool := false       -- the cell switch is open
  vka      : Bool := true        -- VKA at least 2.9 V
  cellMv   : Nat := 3000
  chgOn    : Bool := true
  icc      : Nat := 5            -- 0.1 mA
  vcv      : Nat := 3100         -- mV
  phase    : Nat := 0            -- charger: 0 not begun, 1 precharge, 2 constant current, 3 constant voltage, 4 charged
  phaseAt  : Nat := 0            -- when that phase began
  cellBad  : Nat := 0            -- CELL_FAULT cause, 0 none
  cellRec  : Nat := 0            -- cause of a CELL_FAULT record still to be written, 0 none
  cleared  : Option Nat := none  -- TAMPER_CLEARED is still to be written: the inputs that had latched
  clearedAt : Option Nat := none -- when the latch was last cleared: both lamps for 1 s
  risen    : List Nat := [0, 0, 0, 0] -- when each TAMPER input last returned high; 0 before the domain restarted
  kaLost   : Bool := true        -- KA_LOST; set by the KR that starts the domain
  lamp     : Bool := false       -- fence-lamp flag
deriving DecidableEq, Repr

/-- Everything but the byte memory and the queue. -/
structure Hw where
  ident    : Ident := {}
  tb       : TimeBase := {}
  islands  : Tab IslandState := []   -- keyed by Machine.islandKey
  straits  : Tab Strait := []        -- keyed by Machine.straitKey
  locks    : List LockGroup := []
  sel      : Selvedge := {}
  faults   : Faults := {}
  harts    : Tab Hart := []
  intTable : Tab W64 := []           -- interrupt-table entry e of partition p at 4,096 p + e (Table 23.8)
  intHalf  : Tab Nat := []           -- a VALID entry half-rewritten (R711): 1 its lower half has been stored, 2 its upper; key as intTable
  imsic    : Tab Bool := []          -- pending bit of identity i of file f of hart h at (8 h + f) 2,048 + i
  coh      : Coherence := {}
  ecc      : Ecc := {}
  memhw    : MemHw := {}
  eng      : Engines := {}
  tiers    : Tiers := {}
  weaves   : Weaves := {}
  sync     : Sync := {}
  edges    : Edges := {}
  power    : Power := {}
  arch     : Arch := {}
  keep     : KeepAlive := {}
  efano    : Efano := {}
  start    : Startup := {}
  free     : Nat := 0                -- the model's own: how many free values have been taken (log entry 2)
deriving DecidableEq, Repr

/-- The byte memory of the coherent space, keyed by local address: Host cells in canonical form, an unlisted byte
reads as zero (log entry 4). -/
abbrev Memory := List Host.Cell

/-- The canonical form of the byte memory. -/
abbrev Memory.wf (m : Memory) : Prop := tabWf (0 : Byte) m = true

/-- Why a command faults: the block has no fault. Every refusal of the spec is an answer of the block (a status, a record, a
poisoned or ghost answer), so no command of it stops the machine; the type has no constructor. -/
inductive Fault
deriving DecidableEq, Repr

/-- Why a command is refused. -/
inductive Refusal where
  /-- Raised by the arms of `exec` whose command has no meaning yet; safe (the machine stops). -/
  | notModelled (mnemonic : String)
deriving DecidableEq, Repr

/-- The state of the block. -/
structure State where
  hw      : Hw := {}
  mem     : Memory := []
  pending : List Instr := []
deriving DecidableEq, Repr

/-- The package at t0 of a cold power-on (R154): every field at the value the spec states for reset, the keep-alive domain as
after the KR that started it (Table 21.7), no swatch yet scrubbed (R83), nothing in memory, no command waiting. -/
def State.reset : State := {}

end Sys2Proof.Machine
end

