-- ==== Sys2Proof/Machine/Ops.lean ====
section
/-! DEFINITION. The named operations over memory and state that every family uses: the byte memory, free values,
identity, address forms, interrupt raises, fault records. -/
namespace Sys2Proof.Machine

/-! ### The byte memory -/

/-- One byte of the byte memory; an unlisted byte is zero. -/
def memByte (m : Memory) (a : Nat) : Byte := tabGet 0 m a

/-- Write one byte, keeping the canonical form. -/
def memPut (m : Memory) (a : Nat) (b : Byte) : Memory := tabPut 0 m a b

/-- Write bytes from an address upward. -/
def memWrite (m : Memory) : Nat → List Byte → Memory
  | _, [] => m
  | a, b :: bs => memWrite (memPut m a b) (a + 1) bs

/-- `n` bytes from an address upward. -/
def memRead (m : Memory) (a n : Nat) : List Byte := (List.range n).map (fun i => memByte m (a + i))

/-- Zero every byte of [a, a + n). -/
def memZero (m : Memory) (a n : Nat) : Memory := tabClear m (fun k => decide (a ≤ k) && decide (k < a + n))

/-! ### Messages between packages (Table 20.4) -/

/-- The global form of a compact address (R46). -/
def toGlobal (ca : Nat) : Nat := field ca 55 48 * 2 ^ 52 + field ca 47 44 * 2 ^ 48 + field ca 43 0

/-- The compact form of a global address (R46). -/
def ofGlobal (g : Nat) : Nat := field g 59 52 * 2 ^ 48 + field g 51 48 * 2 ^ 44 + field g 43 0

/-- The partition set a partition is bound to on this package, 0 for none (R611). -/
def partSet (h : Hw) (p : Nat) : Nat :=
  match h.arch.sets.find? (fun e => e.2.used && decide (e.2.part = p)) with
  | some e => e.2.set
  | none => 0

/-- Hand a message of this package to its router, for the stream of a partition set (R607, R612). -/
def postMsg (h : Hw) (set : Nat) (m : Msg) : Hw :=
  { h with arch := { h.arch with posted := h.arch.posted ++ [{ set := set, msg := { m with src := h.ident.position } }] } }

/-- Post a request to another package: it takes the next TXN. -/
def postReq (h : Hw) (p : Nat) (m : Msg) : Hw :=
  postMsg { h with arch := { h.arch with txn := (h.arch.txn + 1) % 65536 } } (partSet h p) { m with txn := h.arch.txn }

/-- A write of the command in course leaves for another package: it is outstanding until its home answers (R221). -/
def noteWrite (h : Hw) (by_ : Actor) (dst line : Nat) : Hw :=
  { h with arch := { h.arch with writes := h.arch.writes ++ [{ by_ := by_, dst := dst, txn := h.arch.txn, line := line }] } }

/-- The writes of the command in course are an actor's. -/
def tagWrites (h : Hw) (x : Actor) : Hw :=
  { h with arch := { h.arch with writes := h.arch.writes.map (fun w => if w.by_ = Actor.course then { w with by_ := x } else w) } }

/-- Writes of a slip's descriptors, up to one, that are still to be performed at other packages (R221, R223, R224). -/
def slipPending (h : Hw) (s : Nat) (seq : W32) : Bool :=
  h.arch.writes.any (fun w => match w.by_ with
    | .slip t q => decide (t = s ∧ (seq - q).toNat < 2 ^ 31)
    | _ => false)

/-- Writes of an actor that are still to be performed at other packages. -/
def actorPending (h : Hw) (x : Actor) : Bool := h.arch.writes.any (fun w => decide (w.by_ = x))

/-! ### Free values -/

/-- Take a free value: the value of the counter, and the counter advanced. -/
def takeFree (h : Hw) : W64 × Hw := (Config.freeValue h.free, { h with free := h.free + 1 })

/-- `n` free bytes. -/
def takeFreeBytes (h : Hw) (n : Nat) : List Byte × Hw :=
  ((List.range n).map (fun i => (Config.freeValue (h.free + i)).truncate 8), { h with free := h.free + n })

/-! ### Identity (chapter 1) -/

/-- The site population of grade letter 0x4D M, 0x42 B or 0x4E N (Table 1.2). -/
def gradeSites (g : Nat) : List SiteKind :=
  if g = 0x4D then List.replicate 12 .stack
  else if g = 0x42 then [.stack, .ldie, .stack, .stack, .ldie, .stack, .stack, .ldie, .stack, .stack, .ldie, .stack]
  else [.ldie, .stack, .ldie, .ldie, .stack, .ldie, .ldie, .stack, .ldie, .ldie, .stack, .ldie]

/-- YG_GRADE: the letter whose population the fuses match, zero when none does (R52). -/
def gradeOf (sites : List SiteKind) : Nat :=
  if sites = gradeSites 0x4D then 0x4D
  else if sites = gradeSites 0x42 then 0x42
  else if sites = gradeSites 0x4E then 0x4E
  else 0

/-- Whether the fuse check passes (R53). -/
def fuseOk (h : Hw) : Bool := decide (gradeOf h.ident.sites ≠ 0)

/-- Number of L-dies of a population (Table 1.3). -/
def ldieCount (sites : List SiteKind) : Nat := (sites.filter (· = SiteKind.ldie)).length

/-- Number of stacks of a population. -/
def stackCount (sites : List SiteKind) : Nat := (sites.filter (· = SiteKind.stack)).length

/-- Islands of a kind on this package (Tables 2.1, 2.2). -/
def kindCount (h : Hw) (k : IslandKind) : Nat :=
  match k with
  | .cluster => 16 | .cFabric => 2 | .farGroup => 8 | .rootPort => 8 | .baseIdurrum => 2 | .cFerry => 2
  | .cralu => 1 | .causeway => 1 | .quad => 128 | .shelf => 32 | .ferryGroup => 32 | .aFabric => 4 | .sync => 4
  | .stackCtl => stackCount h.ident.sites
  | .stackPhy => stackCount h.ident.sites
  | .ldieLink => ldieCount h.ident.sites
  | .ldiePort => 2 * ldieCount h.ident.sites

/-- Whether the package has an island (R55). -/
def islandExists (h : Hw) (i : Island) : Bool := decide (i.idx < kindCount h i.kind)

/-- The flex site of the r-th stack, or L-die, of a population: ranks ascend with site numbers (R38, R314). -/
def siteOf (sites : List SiteKind) (k : SiteKind) (r : Nat) : Nat :=
  ((List.range 12).filter (fun s => sites[s]? = some k)).getD r 0

/-- The flex site of an Idurrum port above the base ports P0 and P1: P(2 + 2j) and P(3 + 2j) are those of the L-die of rank j (R38). -/
def portSite (sites : List SiteKind) (n : Nat) : Nat := siteOf sites .ldie ((n - 2) / 2)

/-- Idurrum ports present: two base ports and two per L-die; zero when no grade matches (R38, R52). -/
def portCount (h : Hw) : Nat := if fuseOk h then 2 + 2 * ldieCount h.ident.sites else 0

/-- YG_SITES: SITEn in [4n+3:4n], 0x1 stack, 0x2 L-die (Table 23.3). -/
def sitesWord (sites : List SiteKind) : Nat :=
  sites.foldr (fun k a => a * 16 + (match k with | .stack => 1 | .ldie => 2)) 0

/-- YG_NEARCAP.GIB: 36 GiB per stack (R37, Table 1.3). -/
def nearGib (h : Hw) : Nat := 36 * stackCount h.ident.sites

/-- The seven identity registers at offset 8 i of the identity page (R50, R707, Table 23.3). -/
def identReg (h : Hw) (i : Nat) : W64 :=
  match i with
  | 0 => w64 (0x0F1A + 0x01 * 2 ^ 16 + 0x0001 * 2 ^ 24 + 0xB0 * 2 ^ 40)
  | 1 => w64 (sitesWord h.ident.sites)
  | 2 => w64 (gradeOf h.ident.sites)
  | 3 => w64 ((2 ^ portCount h - 1) + portCount h * 2 ^ 32)
  | 4 => w64 (nearGib h)
  | 5 => w64 (h.ident.c0Gib + h.ident.c1Gib * 2 ^ 16)
  | 6 => w64 (h.ident.position + flag h.ident.admitted * 2 ^ 8 + flag h.ident.bench * 2 ^ 9)
  | _ => 0

/-- Measurement block 2 (Table 4.7): digest and security version of the running firmware, which the Alias key is derived from (R145). -/
def fwMeasure (h : Hw) : List Byte :=
  let f := h.edges.fw.getD h.edges.active {}
  (if f.digest.isEmpty then Config.imageDigest h.edges.active else f.digest) ++ leBytes 4 f.secVer

/-! ### Address forms (R40 to R46) -/

/-- Region [51:48] of a local address. -/
def regionOf (a : Nat) : Nat := field a 51 48

/-- Offset [47:0] of a local address. -/
def offsetOf (a : Nat) : Nat := field a 47 0

/-- The local part of a compact address: region [47:44] and offset [43:0] moved to their local places (R46). -/
def compactLocal (c : Nat) : Nat := field c 47 44 * 2 ^ 48 + field c 43 0

/-- The Position ID of a compact address (R46). -/
def compactPos (c : Nat) : Nat := field c 55 48

/-- The compact form of a local address at a Position ID (R46). -/
def toCompact (pos a : Nat) : Nat := pos * 2 ^ 48 + field a 51 48 * 2 ^ 44 + field a 43 0

/-- Whether a compact address is local: its Position ID is the one of YG_POSITION (R47). -/
def isLocal (h : Hw) (c : Nat) : Bool := decide (compactPos c = h.ident.position)

/-- The line number of an address. -/
def lineOf (a : Nat) : Nat := a / 64

/-- The swatch number [51:21] of a local address. -/
def swatchOf (a : Nat) : Nat := a / 2 ^ 21

/-- Key of an island in the island table. -/
def islandKey (i : Island) : Nat := i.kind.code * 1024 + i.idx

/-- An island. -/
def islandAt (h : Hw) (i : Island) : IslandState := tabGet {} h.islands (islandKey i)

/-- Replace an island. -/
def setIsland (h : Hw) (i : Island) (x : IslandState) : Hw := { h with islands := tabPut {} h.islands (islandKey i) x }

/-- Whether an island answers new REQ and SNP with RETRY (Table 2.4, R73): while it closes, and from power good until its straits open. -/
def retrying (h : Hw) (i : Island) : Bool :=
  match (islandAt h i).power with
  | .closing _ => true
  | .waking t1 => decide (t1 + 2000 ≤ h.tb.now)
  | _ => false

/-- Whether an island's ghost responders answer (R73, R76): from the end of drain until 2 us after its wake was requested. -/
def ghosted (h : Hw) (i : Island) : Bool :=
  match (islandAt h i).power with
  | .drained _ => true
  | .gated => true
  | .waking t1 => decide (h.tb.now < t1 + 2000)
  | _ => false

/-- Whether an island sends nothing (Table 2.4): its outputs are clamped 20 ns after the end of drain, and it has no traffic of its own
before it has the time base again (R71). -/
def isolated (h : Hw) (i : Island) : Bool :=
  match (islandAt h i).power with
  | .drained td => decide (td + 20 ≤ h.tb.now)
  | .gated => true
  | .waking _ => !(islandAt h i).hasTb
  | _ => false

/-- Key of one direction of the strait between two islands. -/
def straitKey (a b : Island) : Nat := islandKey a * 2 ^ 20 + islandKey b

/-- Key of a strait, whichever way: its error counter and its bucket are one for both directions (R60, Table 11.5). -/
def pairKey (a b : Island) : Nat := min (straitKey a b) (straitKey b a)

/-- Key of an ownable unit: its kind of Table 19.3 and its index. -/
def unitKey (kind idx : Nat) : Nat := kind * 2 ^ 32 + idx

/-- An ownable unit. -/
def unitAt (h : Hw) (kind idx : Nat) : UnitOwn := tabGet {} h.sel.units (unitKey kind idx)

/-- The partition a unit is in the hands of, 31 for none: while it is being scrubbed its entry admits only the scrub engine (R79, R85). -/
def unitHolder (h : Hw) (kind idx : Nat) : Nat := let u := unitAt h kind idx; if u.state = UnitState.scrubbing then 31 else u.owner

/-- Replace an ownable unit. -/
def setUnit (h : Hw) (kind idx : Nat) (u : UnitOwn) : Hw :=
  { h with sel := { h.sel with units := tabPut {} h.sel.units (unitKey kind idx) u } }

/-- The entry of a swatch of regions 0 to 2 that the table does not list. -/
def swBase (h : Hw) : Swatch := { state := h.sel.base }

/-- Whether a swatch lies in region 1 or 0 while the near or far tier is not open (R320, R321). -/
def closedTier (h : Hw) (k : Nat) : Bool :=
  (decide (regionOf (k * 2 ^ 21) = 0) && !h.memhw.farOpen) || (decide (regionOf (k * 2 ^ 21) = 1) && !h.memhw.nearOpen)

/-- The entry of a swatch of regions 0 to 2, by its number [51:21]: no swatch of a tier that is not open is FREE, it stays BLANK (R320,
R321). -/
def swGet (h : Hw) (k : Nat) : Swatch :=
  let s := tabGet (swBase h) h.sel.swatches k
  if s.state = SwState.free ∧ closedTier h k = true then { s with state := .blank } else s

/-- Replace a swatch entry. -/
def setSwatch (h : Hw) (k : Nat) (s : Swatch) : Hw :=
  { h with sel := { h.sel with swatches := tabPut (swBase h) h.sel.swatches k s } }

/-- A partition record. -/
def partAt (h : Hw) (p : Nat) : Part := tabGet {} h.sel.parts p

/-- Replace a partition record. -/
def setPart (h : Hw) (p : Nat) (r : Part) : Hw :=
  { h with sel := { h.sel with parts := tabPut {} h.sel.parts p r } }

/-- Whether a partition exists: 0 always, 1 to 16 from PART_CREATE to PART_DESTROY. -/
def partExists (h : Hw) (p : Nat) : Bool := decide (p = 0) || (partAt h p).exists_

/-- A hart record. -/
def hartAt (h : Hw) (n : Nat) : Hart := tabGet {} h.harts n

/-- Replace a hart record. -/
def setHart (h : Hw) (n : Nat) (x : Hart) : Hw := { h with harts := tabPut {} h.harts n x }

/-- The partition that owns a hart's cluster, if any (R184, R185). -/
def hartOwner (h : Hw) (n : Nat) : Nat := unitHolder h 2 (n / 8)

/-! ### Interrupts (R203, R710, R714) -/

/-- An interrupt is one of the events that end Idle and Drowse (Table 5.7): noted here, it ends them at the end of the step. -/
def noteIrq (h : Hw) : Hw :=
  if h.start.st = PowerSt.idle ∨ h.start.st = PowerSt.drowse then { h with start := { h.start with irqWake := true } } else h

/-- Set the pending bit of an identity of a file; identity 0 and identities beyond the file's are not held (R714). -/
def imsicSet (h : Hw) (hart file ident : Nat) : Hw :=
  if hart < 128 ∧ file < 8 ∧ 0 < ident ∧ ident ≤ (if file = 0 then 255 else 2047) then
    noteIrq { h with imsic := tabPut false h.imsic ((hart * 8 + file) * 2048 + ident) true }
  else h

/-- Deliver the identity of an interrupt-table entry `w` of partition `p` (R710). -/
def deliverEntry (h : Hw) (p w : Nat) : Hw :=
  if bitOf w 63 && decide (hartOwner h (field w 6 0) = p) then
    imsicSet h (field w 6 0) (field w 9 7) (field w 20 10)
  else h

/-- Raise entry `e` of partition `p`'s interrupt table (R710): the identity goes to the named file of a hart whose
cluster the partition owns; otherwise nothing is delivered and no record is written. An entry half-rewritten reads as a
free value: any file of the partition's own harts, or none (R711). -/
def raise (h : Hw) (p e : Nat) : Hw :=
  if 4096 ≤ e then h
  else if tabGet 0 h.intHalf (4096 * p + e) = 0 then deliverEntry h p (tabGet (0 : W64) h.intTable (4096 * p + e)).toNat
  else deliverEntry (takeFree h).2 p (takeFree h).1.toNat

/-! ### Fault records (R566 to R579) -/

/-- Destinations P, S and L of a record type (Table 19.4, with the types of chapters 20 and 21). -/
def recTo (t : Nat) : Bool × Bool × Bool :=
  if t ∈ [0x0103, 0x0202, 0x0203, 0x0505, 0x0506, 0x0507, 0x0508, 0x0803, 0x0806, 0x0A06, 0x0A07] then (true, true, true)
  else if t ∈ [0x0501, 0x050A] then (true, false, true)
  else if t ∈ [0x0A03] then (true, true, false)
  else if t ∈ [0x0302] then (false, false, true)
  else if t ∈ [0x0403, 0x0404, 0x0405, 0x0406, 0x050C, 0x0701, 0x0702, 0x0703, 0x0A02, 0x0A04, 0x0A05, 0x0A08, 0x0A0B] then
    (false, true, false)
  else if t ∈ [0x0101, 0x0201, 0x0303, 0x0503, 0x0509, 0x0601, 0x0602, 0x0603, 0x0604, 0x0605, 0x0606, 0x0607, 0x0608,
      0x0609, 0x0904, 0x0A01] then (true, false, false)
  else if t = 0x0807 then (false, false, false)
  else (false, true, true)

/-- A fault queue. -/
def queueAt (h : Hw) (k : Nat) : FaultQueue := tabGet {} h.faults.queues k

/-- Replace a fault queue. -/
def setQueue (h : Hw) (k : Nat) (x : FaultQueue) : Hw :=
  { h with faults := { h.faults with queues := tabPut {} h.faults.queues k x } }

/-- FQ_TAIL: the low half of the queue sequence (R570). -/
def queueTail (x : FaultQueue) : W32 := w32 x.q

/-- Records present, HEAD to TAIL - 1 modulo 2^32 (R574). -/
def queueUsed (x : FaultQueue) : Nat := (queueTail x - x.head).toNat

/-- Count a record in a class counter (R576). -/
def foldCtr (cs : List ClassCtr) (r : FaultRec) : List ClassCtr :=
  let c := cs.getD r.cls {}
  cs.set r.cls { count := c.count + 1, first := if c.count = 0 then r.tb else c.first, last := r.tb }

/-- The partition in whose interrupt table a queue's entry is raised (R578). -/
def queueIrqPart (k : Nat) : Nat := if k = 17 then 0 else k

/-- Whether neither log copy is sound (R583): the fault stores then hold nothing. -/
def logLost (h : Hw) : Bool := h.faults.log.failed0 && h.faults.log.failed1

/-- LOG_DEGRADED (R581): one copy has failed and the other is sound. -/
def logDegraded (h : Hw) : Bool := h.faults.log.failed0 != h.faults.log.failed1

/-- A record due to queue `k`: it enters at its slot with its PHASE (R575) and raises the entry for its class (R578),
or it is folded into the counters, setting OVF and raising the entry when OVF rises (R576). -/
def queueWrite (h : Hw) (k : Nat) (r : FaultRec) : Hw :=
  let x := queueAt h k
  if queueUsed x ≥ 4096 then
    let h' := setQueue h k { x with live := foldCtr x.live r, ovf := true }
    if x.ovf then h' else raise h' (queueIrqPart k) x.irqEntry
  else
    let r' := { r with phase := decide (x.q / 4096 % 2 = 0), seq := if k = 17 then r.seq else x.q }
    let h' := setQueue h k { x with recs := tabPut {} x.recs (x.q % 4096) r', q := x.q + 1, lastSeq := r'.seq }
    if r.cls ≥ x.irqMin then raise h' (queueIrqPart k) x.irqEntry else h'

/-- Whether the log takes a record of a class: its last 256 free slots accept only PACKAGE and ARCHIPELAGO (R580). -/
def logTakes (l : FaultLog) (cls : Nat) : Bool :=
  decide (l.recs.length < (if cls ≥ 4 then 32768 else 32768 - 256))

/-- A record due to the log: appended, and sent by the debug UART (R664), or folded into the log's counters (R580). -/
def logWrite (h : Hw) (r : FaultRec) : Hw :=
  let l := h.faults.log
  if logTakes l r.cls then
    { h with faults := { h.faults with log := { l with recs := l.recs ++ [{ r with phase := false }] } },
             edges := { h.edges with uart := h.edges.uart ++ [(r.type, r.cls, r.seq)] } }
  else { h with faults := { h.faults with log := { l with ctrs := foldCtr l.ctrs r } } }

/-- Write a fault record to every destination of its type (R571), stamped with the time base, the flags and the Position
ID; PSEQ advances when it enters the log or the Steward queue (R570). After both copies are lost nothing is written
(R583). -/
def recordWrite (h : Hw) (r0 : FaultRec) : Hw :=
  if logLost h then h
  else
    let r := { r0 with tb := h.tb.now, position := h.ident.position, holdover := h.tb.holdover,
                       unsynced := h.tb.unsynced, degraded := logDegraded h, seq := h.faults.log.pseq }
    let dst := recTo r.type
    let toS := dst.2.1 || (dst.1 && decide (r.part = 0xFF))
    let toP := dst.1 && decide (r.part ≠ 0xFF)
    let entersS := toS && decide (queueUsed (queueAt h 17) < 4096)
    let entersL := dst.2.2 && logTakes h.faults.log r.cls
    let h1 := if dst.2.2 then logWrite h r else h
    let h2 := if entersS || entersL then
                { h1 with faults := { h1.faults with log := { h1.faults.log with pseq := h1.faults.log.pseq + 1 } } }
              else h1
    let h3 := if toS then queueWrite h2 17 r else h2
    if toP then queueWrite h3 r.part r else h3

/-- Whether a record would enter the log or the Steward queue, and so carry a PSEQ (R570). -/
def recordPseq (h : Hw) (r : FaultRec) : Option Nat :=
  let dst := recTo r.type
  let toS := dst.2.1 || (dst.1 && decide (r.part = 0xFF))
  if !logLost h && ((toS && decide (queueUsed (queueAt h 17) < 4096)) || (dst.2.2 && logTakes h.faults.log r.cls)) then
    some h.faults.log.pseq
  else none

/-- One second in ns (R573). -/
def second : Nat := 1000000000

/-- An occurrence of a rate-limited type (R573): recorded at once when no record of its type and unit was written in the
preceding second, else counted until the second ends (RATE_LIMIT_FLUSH). -/
def recordLimited (h : Hw) (r : FaultRec) : Hw :=
  let key := r.type * 2 ^ 32 + r.unit
  let x := tabGet {} h.faults.rates key
  let put (h : Hw) (y : RateState) : Hw := { h with faults := { h.faults with rates := tabPut {} h.faults.rates key y } }
  if x.armed && decide (h.tb.now < x.last + second) then
    put h { x with pending := x.pending + 1, record := r }
  else
    put (recordWrite h { r with count := x.pending + 1 }) { armed := true, last := h.tb.now, pending := 0, record := r }

/-- DESC of a record: the slip number in [47:32] and the sequence count in [31:0] (Table 19.1). -/
def descArg (slip seq : Nat) : Nat := slip % 2 ^ 16 * 2 ^ 32 + seq % 2 ^ 32

/-- DESC when no descriptor is concerned: all ones. -/
def noDesc : Nat := 2 ^ 64 - 1

/-- The memories enter or leave self-refresh (R323): an all-bank refresh goes with either (Table 10.1), so every row has been refreshed. -/
def setSelfRefresh (m : MemHw) (b : Bool) : MemHw :=
  if m.selfRefresh = b then m else { m with selfRefresh := b, allBank := m.allBank + 1, acts := [] }

/-- Advance the package time base (never backwards, R70). -/
def advanceTo (h : Hw) (t : Nat) : Hw := { h with tb := { h.tb with now := max h.tb.now t } }

end Sys2Proof.Machine
end

