-- ==== Sys2Proof/Machine/Fence.lean ====
section
/-! DEFINITION. Causes of doubt and fences (R585 to R598): who is Fenced, what a fence does to every output of its
scope, and the one operation that every cause of doubt goes through. -/
namespace Sys2Proof.Machine

/-! ### Slips and their descriptors -/

/-- A slip. -/
def slipAt (h : Hw) (s : Nat) : Slip := tabGet {} h.eng.slips s

/-- Replace a slip. -/
def setSlip (h : Hw) (s : Nat) (x : Slip) : Hw := { h with eng := { h.eng with slips := tabPut {} h.eng.slips s x } }

/-- The partition that owns a slip (31: none). -/
def slipOwner (h : Hw) (s : Nat) : Nat := unitHolder h 5 s

/-- Opcode of a descriptor. -/
def opcode (d : Desc) : Nat := leAt d.bytes 0 1

/-- Replace the descriptor with a sequence count in a slip. -/
def setDesc (x : Slip) (d : Desc) : Slip := { x with descs := x.descs.map (fun e => if e.seq = d.seq then d else e) }

/-- The descriptor with a sequence count. -/
def findDesc (x : Slip) (seq : W32) : Option Desc := x.descs.find? (fun d => d.seq = seq)

/-- Whether a status and reason stop the slip (Table 13.12). -/
def stops (status reason : Nat) : Bool :=
  match status with
  | 0x02 | 0x03 | 0x07 | 0x09 => true
  | 0x01 => decide (reason = 0x11 ∨ reason = 0x2F)
  | 0x05 => decide (reason = 0x12)
  | _ => false

/-- The waits that descriptors of a slip hold at knots, pools, ledgers and operand bolts are withdrawn, for those a test
accepts by sequence count (chapter 16, When things fall together). -/
def withdrawWaits (h : Hw) (s : Nat) (p : W32 → Bool) : Hw :=
  let y := h.sync
  let gone (slip : Nat) (seq : W32) : Bool := decide (slip = s) && p seq
  { h with
    sync := { y with
      knots := tabMap {} y.knots (fun _ k => { k with waiters := k.waiters.filter (fun w => w.remote.isSome || !gone w.slip w.seq) }),
      pools := tabMap {} y.pools (fun _ k => { k with queue := k.queue.filter (fun w => !gone w.slip w.seq) }),
      ledgers := tabMap {} y.ledgers (fun n l => { l with
        queue := l.queue.filter (fun w => !gone w.1 w.2),
        held := l.held && !(y.pools.any (fun e => e.2.queue.any (fun w => decide (w.ledger = some n) && gone w.slip w.seq))) }),
      remoteWaits := y.remoteWaits.filter (fun w => !gone w.1 w.2.1) },
    tiers := { h.tiers with misses := h.tiers.misses.filter (fun m => !gone m.slip m.seq) } }

/-- Whether a sequence count precedes another in slip order. -/
def slipBefore (a b : W32) : Bool := decide ((b - a).toNat < 2 ^ 31 ∧ b ≠ a)

/-- Whether a descriptor has not been dispatched. -/
def undispatched (d : Desc) : Bool :=
  decide (d.phase = Phase.fetched ∨ d.phase = Phase.staged ∨ (d.phase = Phase.walking ∧ !d.begun)) || d.early

/-- A descriptor's work is over: it keeps its place until its record is written, and its looms or finisher are free of it.
A stopping end sends every later undispatched descriptor away and stops fetching (R419 steps 1 and 2); the earliest such end is the one
that stops the slip (R419 step 3). -/
def endDesc (h0 : Hw) (s : Nat) (d : Desc) (status reason : Nat) : Hw :=
  let h := { h0 with weaves := { h0.weaves with runs := h0.weaves.runs.filter (fun r => !decide (r.slip = s ∧ r.seq = d.seq)) } }
  let x := slipAt h s
  let d' := { d with phase := .ended, status := status, reason := reason, pauseReq := false, early := undispatched d }
  let x1 := setDesc x d'
  if stops status reason && x.stopping.all (slipBefore d.seq) then
    let later (e : Desc) : Bool := slipBefore d.seq e.seq
    let waiting (q : W32) : Bool := x1.descs.any (fun e => decide (e.seq = q ∧ e.phase = Phase.waiting) && later e
      && decide (opcode e ≥ 0x40))
    withdrawWaits (setSlip h s { x1 with stopping := some d.seq, descs := x1.descs.filter (fun e => !(later e && (undispatched e || waiting e.seq))) })
      s waiting
  else setSlip h s x1

/-! ### Knots that break and quads at work -/

/-- A knot. -/
def knotAt (h : Hw) (n : Nat) : Knot := tabGet {} h.sync.knots n

/-- Replace a knot. -/
def setKnot (h : Hw) (n : Nat) (k : Knot) : Hw := { h with sync := { h.sync with knots := tabPut {} h.sync.knots n k } }

/-- The owner of a knot's range (R480, Table 3.1). -/
def knotOwner (h : Hw) (n : Nat) : Nat := unitHolder h 6 (n / 256)

/-- Every waiter of a knot completes with BROKEN (R493, R502); a wait so ended accrues nothing. -/
def breakWaiters (h : Hw) (n : Nat) : Hw :=
  let k := knotAt h n
  k.waiters.foldl (fun h w =>
    match w.remote with
    | some q => postMsg h (partSet h w.part) { cls := .cmp, op := 3, dst := q, status := 0x08, txn := w.tag }
    | none => match findDesc (slipAt h w.slip) w.seq with
      | some d => endDesc h w.slip d 0x08 0
      | none => h) (setKnot h n { k with waiters := [] })

/-- A cross-package knot becomes BROKEN (R493). -/
def breakKnot (h : Hw) (n : Nat) : Hw :=
  let h1 := breakWaiters h n
  setKnot h1 n { knotAt h1 n with broken := true }

/-- Descriptors with work on a quad's looms or finisher. -/
def quadRuns (h : Hw) (q : Nat) : List Run :=
  h.weaves.runs.filter (fun r => r.units.any (fun u => decide (u / 4 = q ∧ u < 512) || decide (u = 512 + q)))

/-! ### Who is fenced -/

/-- Whether the package is Fenced. -/
def pkgFenced (h : Hw) : Bool := h.faults.fences.any (fun f => f.scope = Scope.package)

/-- Whether the package's membership is Fenced. -/
def memberFenced (h : Hw) : Bool := h.faults.fences.any (fun f => f.scope = Scope.membership)

/-- Status of an access to another package that completes without effect: ABSENT (R601), or FENCED while this package's membership is
Fenced (Table 19.9). -/
def goneStatus (h : Hw) : Nat := if memberFenced h then 0x07 else 0x05

/-- Whether a partition is Fenced, by its own fence or the package's (a wider fence includes every narrower one). -/
def partFenced (h : Hw) (p : Nat) : Bool :=
  pkgFenced h || h.faults.fences.any (fun f => f.scope = Scope.partition && f.part = p)

/-- Whether a unit is Fenced at its own scope. -/
def unitFencedOwn (h : Hw) (kind idx : Nat) : Bool :=
  h.faults.fences.any (fun f => f.scope = Scope.unit && f.kind = kind && f.unit = idx)

/-- The partition a unit concerns, 0xFF when none owns it. -/
def unitPart (h : Hw) (kind idx : Nat) : Nat :=
  if kind = 1 then
    let o := (swGet h idx).owner
    if o = 31 then 0xFF else o
  else if 2 ≤ kind ∧ kind ≤ 9 then
    let o := (unitAt h kind idx).owner
    if o = 31 then 0xFF else o
  else 0xFF

/-- Whether a unit is Fenced, by its own fence, its partition's or the package's. -/
def unitFenced (h : Hw) (kind idx : Nat) : Bool :=
  unitFencedOwn h kind idx || partFenced h (unitPart h kind idx)

/-- The class of a record that fences a scope (R569). -/
def scopeClass : Scope → Nat
  | .none => 0 | .unit => 2 | .partition => 3 | .package => 4 | .membership => 5

/-- SCOPE of Table 19.1. -/
def scopeCode : Scope → Nat
  | .none => 0 | .unit => 1 | .partition => 2 | .package => 3 | .membership => 4

/-! ### What a fence does -/

/-- A hart takes an RNMI (Smrnmi): pc, cause and mode are saved, NMIE clears, and the handler of its partition runs in M-mode. -/
def takeRnmi (h : Hw) (n cause : Nat) : Hw :=
  let x := hartAt h n
  setHart h n { x with mnepc := x.pc, mncause := 2 ^ 63 + cause, mnpp := x.mode, mnpv := x.virt, nmie := false, mode := 3, virt := false,
                       pc := (partAt h (hartOwner h n)).rnmi }

/-- A hart receives a resumable NMI (R206): taken at once by a running hart whose NMIE is set, else kept pending
(a stopped hart takes it when it next starts; a second one waits for MNRET). Smrnmi's entry saves the pc in mnepc,
the cause with its interrupt bit in mncause, and clears NMIE. -/
def rnmi (h : Hw) (n cause : Nat) : Hw :=
  let x := hartAt h n
  if x.run = HartRun.off then h
  else if x.run = HartRun.running ∧ x.nmie then
    takeRnmi h n cause
  else setHart h n { x with rnmi := x.rnmi ++ [cause] }

/-- Every hart a test accepts receives an RNMI. -/
def rnmiAll (h : Hw) (p : Nat → Bool) (cause : Nat) : Hw :=
  ((List.range 128).filter p).foldl (fun h n => rnmi h n cause) h

/-- Units of a partition that are owned become held with it (Table 3.3's HELD, for units). -/
def holdUnits (h : Hw) (p : Nat) : Hw :=
  let t := tabMap {} h.sel.units (fun _ u =>
    if u.owner = p ∧ u.state = UnitState.owned then { u with state := .held } else u)
  { h with sel := { h.sel with units := t } }

/-- The shelf slot a region 2 swatch lies in: slot 8 a + s of A-die a (R43). -/
def slotOfSwatch (k : Nat) : Nat := field (k * 2 ^ 21) 31 30 * 8 + field (k * 2 ^ 21) 26 24

/-- The lock group a quad is in (quads are numbered 32 per A-die). -/
def lockOf (h : Hw) (quad : Nat) : Option LockGroup :=
  h.locks.find? (fun g => decide (g.die = quad / 32 ∧ g.first ≤ quad % 32 ∧ quad % 32 < g.first + g.size))

/-- The quads fenced with a quad: every quad of its lock group (R588). -/
def lockQuads (h : Hw) (quad : Nat) : List Nat :=
  match lockOf h quad with
  | none => [quad]
  | some g => (List.range g.size).map (fun i => 32 * g.die + g.first + i)

/-- Add a cause to the fence of a scope, making the fence where it is new (R595). -/
def addCause (fs : List Fence) (sc : Scope) (kind idx p : Nat) (c : Cause) : List Fence :=
  if fs.any (fun f => f.scope = sc && f.kind = kind && f.unit = idx && f.part = p) then
    fs.map (fun f => if f.scope = sc && f.kind = kind && f.unit = idx && f.part = p then
      { f with causes := f.causes ++ [c] } else f)
  else fs ++ [{ scope := sc, kind := kind, unit := idx, part := p, causes := [c] }]

/-- The last word after a package-scope cause of a type (R584, Table 19.6). -/
def lastWordNext (w : W64) (type : Nat) (lost : Bool) (tb : Nat) : W64 :=
  let n := field w.toNat 23 20
  w64 (type % 2 ^ 16 + 3 * 2 ^ 16 + flag (lost || bitOf w.toNat 19) * 2 ^ 19 + (if n = 15 then 15 else n + 1) * 2 ^ 20
       + field tb 55 16 * 2 ^ 24)

/-- Write the last word (R584). -/
def lastWord (h : Hw) (type : Nat) (lost : Bool) : Hw :=
  { h with keep := { h.keep with lastWord := lastWordNext h.keep.lastWord type lost h.tb.now } }

end Sys2Proof.Machine
end

