-- ==== Sys2Proof/Machine/Causeway.lean ====
section
/-! DEFINITION. Sending causeway frames (R620, R621): their headers, the way a frame takes round the ring, and the frames kept for
an arc end to send again (R623). -/
namespace Sys2Proof.Machine

/-- A member of the archipelago, by Position ID. -/
def memberAt (h : Hw) (pos : Nat) : Member := tabGet {} h.arch.members pos

/-- Replace a member's entry. -/
def setMember (h : Hw) (pos : Nat) (x : Member) : Hw :=
  { h with arch := { h.arch with members := tabPut {} h.arch.members pos x } }

/-- Positions of the ring that this package knows of, itself among them. -/
def ringSize (h : Hw) : Nat := 1 + h.arch.members.foldl (fun n e => max n e.2.ringEast) 0

/-- The ports a directed frame leaves by: the shorter way round, WEST on a tie (R621); by the one port that stands when the other is
broken; by both where the destination's place is not known. Bit 0 EAST, bit 1 WEST. -/
def wayTo (h : Hw) (pos : Nat) : Nat :=
  let e := (memberAt h pos).ringEast
  if h.arch.east.broken then 2
  else if h.arch.west.broken then 1
  else if e = 0 then 3
  else if e < ringSize h - e then 1
  else 2

/-- Ports a broadcast leaves by: those that are not broken (R621, R623). -/
def openPorts (h : Hw) : Nat := (if h.arch.east.broken then 0 else 1) + (if h.arch.west.broken then 0 else 2)

/-- A frame of this package with its header (Table 20.5). -/
def ownFrame (h : Hw) (type ports dest : Nat) (body : List Nat) : CwFrame :=
  { type := type, ports := ports, origin := if h.ident.admitted then h.ident.position else 0, seq := h.arch.seq,
    archId := if h.ident.admitted then h.arch.archId else 0, tag := Config.deviceTag.toNat, dest := dest, tb := h.tb.now,
    holdover := h.tb.holdover, fenced := pkgFenced h || memberFenced h, unadmitted := !h.ident.admitted, body := body }

/-- Send one frame of this package: its sequence advances (Table 20.5). -/
def sendFrame (h : Hw) (f : CwFrame) : Hw :=
  { h with arch := { h.arch with sent := h.arch.sent ++ [f], seq := (h.arch.seq + 1) % 65536 } }

/-- Broadcast a frame. -/
def broadcast (h : Hw) (type : Nat) (body : List Nat) : Hw :=
  if h.arch.running then sendFrame h (ownFrame h type (openPorts h) 0 body) else h

/-- A directed frame is kept for 20 us, in case its port breaks (R623). -/
def keepFrame (h : Hw) (f : CwFrame) : Hw :=
  { h with arch := { h.arch with recent := h.arch.recent.filter (fun g => decide (h.tb.now ≤ g.1 + 20000)) ++ [(h.tb.now, f)] } }

/-- Send a directed frame, and keep it for 20 us in case its port breaks (R623). -/
def direct (h : Hw) (type dest : Nat) (body : List Nat) : Hw :=
  if h.arch.running then
    let f := ownFrame h type (wayTo h dest) dest body
    keepFrame (sendFrame h f) f
  else h

/-- Send a frame to the neighbour across one port (0 EAST, 1 WEST). -/
def toNeighbour (h : Hw) (type port : Nat) (body : List Nat) : Hw := sendFrame h (ownFrame h type (port + 1) 0 body)

/-- What an earlier step showed is no longer there: its frames, its messages, the accesses that waited, the bytes of the debug UART and its
interrupts. -/
def clearSent (h0 : Hw) : Hw :=
  let h := tagWrites h0 .cache
  { h with arch := { h.arch with sent := [], out := [], posted := [] }, coh := { h.coh with stalls := [] }, edges := { h.edges with uart := [] },
           start := { h.start with irqWake := false } }

end Sys2Proof.Machine
end

