-- ==== Sys2Proof/Machine/Links.lean ====
section
/-! DEFINITION. Routes between packages (R609, R610), the messages a command puts on the Idurrum links with the flits that carry them
(R605 to R607), and the lines of other packages that this one holds (R233, R245). -/
namespace Sys2Proof.Machine

/-! ### Members -/

/-- Whether a Position ID names a member of the archipelago this package is admitted to (R48, R601). -/
def isMember (h : Hw) (pos : Nat) : Bool :=
  h.ident.admitted && (let m := tabGet {} h.arch.members pos; decide (m.st = MemberSt.member ∨ m.st = MemberSt.departing))

/-! ### Up*/down* routes (R609) -/

/-- Neighbours of a member in a plan's topology. -/
def planNbrs (p : Plan) (n : Nat) : List Nat :=
  (p.edges.filterMap (fun e => if e.1 = n then some e.2 else if e.2 = n then some e.1 else none)).eraseDups

/-- Breadth-first depths from the root, plus one: members reached so far, and the frontier. -/
def planDepths (p : Plan) : Nat → Nat → List Nat → Tab Nat → Tab Nat
  | 0, _, _, t => t
  | fuel + 1, d, front, t =>
    let new := ((front.flatMap (planNbrs p)).eraseDups).filter (fun n => decide (tabGet 0 t n = 0))
    if new.isEmpty then t else planDepths p fuel (d + 1) new (new.foldl (fun t n => tabPut 0 t n (d + 2)) t)

/-- The depths of a plan. -/
def depthsOf (p : Plan) : Tab Nat := planDepths p 256 0 [p.root] (tabPut 0 [] p.root 1)

/-- Whether the link from a to b is up in that direction: toward the smaller depth, between equal depths toward the smaller Position
ID. -/
def linkUp (t : Tab Nat) (a b : Nat) : Bool :=
  let da := tabGet 0 t a
  let db := tabGet 0 t b
  decide (db < da) || (decide (db = da) && decide (b < a))

/-- One step of a legal route: the state after going from a to b, where `down` says that a down link has been taken; none where an up
link would follow a down link. -/
def hop (t : Tab Nat) (a b : Nat) (down : Bool) : Option Bool := if linkUp t a b then (if down then none else some false) else some true

/-- Members and phases from which the destination is reached, one link at a time, until this package's state is among them: the next
members on legal routes of minimum length. -/
def nextHops (p : Plan) (t : Tab Nat) (me : Nat) (down : Bool) : Nat → List (Nat × Bool) → List Nat
  | 0, _ => []
  | fuel + 1, s =>
    let out := (planNbrs p me).filter (fun b => match hop t me b down with | some d => decide ((b, d) ∈ s) | none => false)
    if !out.isEmpty then out
    else
      let grow := (s.map (·.1)).eraseDups.flatMap (fun b => (planNbrs p b).flatMap (fun a => [false, true].filterMap (fun d =>
        match hop t a b d with
        | some d' => if (b, d') ∈ s ∧ (a, d) ∉ s then some (a, d) else none
        | none => none)))
      if grow.isEmpty then [] else nextHops p t me down fuel (s ++ grow.eraseDups)

/-- The plan a message is routed by (R610): the one whose parity it carries, while that is kept. -/
def planFor (h : Hw) (m : Msg) : Plan :=
  match h.arch.prevPlan with
  | some (q, until_) => if h.tb.now < until_ ∧ decide (q.num % 2 = 1) = m.plan then q else h.arch.plan
  | none => h.arch.plan

/-- A link of this package. -/
def linkAt (h : Hw) (n : Nat) : Link := tabGet {} h.arch.links n

/-- Replace a link. -/
def setLink (h : Hw) (n : Nat) (l : Link) : Hw := { h with arch := { h.arch with links := tabPut {} h.arch.links n l } }

/-- States of a link that keep it in a topology. -/
def linkStands (l : Link) : Bool := decide (l.st ∈ [LinkSt.active, LinkSt.retraining, LinkSt.down])

/-- The port a message leaves by and whether that link is a down link: among the ports to the next members in ascending order, the one
ADDR[19:6] selects modulo their count. -/
def routePort (h : Hw) (m : Msg) : Option (Nat × Bool) :=
  let p := planFor h m
  let t := depthsOf p
  let ns := nextHops p t h.ident.position m.down 512 [(m.dst, false), (m.dst, true)]
  let ports := (List.range (portCount h)).filter (fun n => linkStands (linkAt h n) && decide ((linkAt h n).peer ∈ ns))
  if ports.isEmpty then none
  else
    let n := ports.getD (field m.addr 19 6 % ports.length) 0
    some (n, !linkUp t h.ident.position (linkAt h n).peer)

/-- The stream of a link that carries a set (R612): 0 the management stream. -/
def streamFor (l : Link) (set : Nat) : Option Nat :=
  if set = 0 then some 0 else (l.streams.find? (fun e => e.2.used && decide (e.2.set = set))).map (·.1)

/-- Credits of a class on a stream, per direction (R608). -/
def linkCredits : MsgClass → Nat
  | .req => 32 | .snp => 16 | .rsp => 32 | .dat => 64 | .cmp => 32

/-- Whether a message of a class may leave on a stream of a link (R57, R58, R608): a credit of the class is free, or the class is one its
receiver always takes. A credit is held until the flit is acknowledged, which is after its message was taken into the receiver's router
(R606; log entry 67). -/
def linkCredit (l : Link) (s : Nat) (cls : MsgClass) : Bool :=
  decide (cls = MsgClass.rsp ∨ cls = MsgClass.cmp) ||
  decide ((l.replay.filter (fun f => decide (f.stream = s ∧ f.cls = cls) && f.message)).length < linkCredits cls)

/-- A message leaves by a port in a segment of one flit, which is kept until it is acknowledged (R606, R617); it waits where its link is not
ACTIVE, its set has no stream there, the stream has no credit for its class (R608), or the replay buffer is full. -/
def routeMsg (h : Hw) (o : OutMsg) : Hw :=
  let m0 := if o.own then { o.msg with plan := decide (h.arch.plan.num % 2 = 1) } else o.msg
  let wait (n : Nat) (m : Msg) : Hw := { h with arch := { h.arch with waiting := h.arch.waiting ++ [{ o with port := n, msg := m }] } }
  match routePort h m0 with
  | none => wait 255 m0
  | some (n, d) =>
    let l := linkAt h n
    match streamFor l o.set with
    | none => wait n m0
    | some s =>
      if l.st = LinkSt.active ∧ l.replay.length < 2048 ∧ linkCredit l s m0.cls = true then
        let m := { m0 with down := m0.down || d }
        let st := tabMod {} l.streams s (fun x => { x with used := true, set := o.set, sent := x.sent + 1 })
        let h1 := setLink h n { l with tx := (l.tx + 1) % 4096, replay := l.replay ++ [{ seq := l.tx, stream := s, cls := m0.cls }], streams := st }
        { h1 with arch := { h1.arch with out := h1.arch.out ++ [{ o with port := n, msg := m }] } }
      else wait n m0

/-- Every message a command has posted is routed. -/
def routeOut (h : Hw) : Hw := h.arch.posted.foldl routeMsg { h with arch := { h.arch with posted := [] } }

/-- Messages that wait are routed again by a new plan (R610). -/
def routeWaiting (h : Hw) : Hw := h.arch.waiting.foldl routeMsg { h with arch := { h.arch with waiting := [] } }

/-! ### Lines of other packages (R233, R245, R246) -/

/-- Take `n` bytes another package answers (R245, log entry 7). -/
def takeRemote (h : Hw) (a n : Nat) : List Byte × Hw :=
  ((List.range n).map (fun i => Config.remoteByte h.free (a + i)), { h with free := h.free + 1 })

/-- How another package answers the next request (log entry 7): 1 refused at its selvedge, 2 poisoned data. A partition that is bound to
no set has no stream to send it on and is refused (R247, R611). -/
def remoteStatus (h : Hw) (p ca : Nat) : Nat := if partSet h p = 0 then 1 else Config.remoteAnswer h.free ca

/-- A proxy entry, by the line of a compact address. -/
def proxyAt (h : Hw) (line : Nat) : Proxy := tabGet {} h.coh.proxies line

/-- Replace a proxy entry. -/
def setProxy (h : Hw) (line : Nat) (x : Proxy) : Hw := { h with coh := { h.coh with proxies := tabPut {} h.coh.proxies line x } }

/-- Whether a copy this package holds serves a partition's read, or its write, of another package's line. -/
def heldAfar (h : Hw) (p line : Nat) (own : Bool) : Bool :=
  let x := proxyAt h line
  !x.bytes.isEmpty && decide (x.part = p) && (x.own || !own)

/-- The request of a transaction of Table 7.7 to a line's home package: its opcode in Table 20.4, address, size and payload. -/
def askRemote (h : Hw) (p op ca size : Nat) (payload : List Byte) (poison : Bool) (aop : Nat := 0) : Hw :=
  postReq h p { cls := .req, op := op, dst := compactPos ca, addr := toGlobal ca, size := size, payload := payload, poison := poison,
                aop := aop }

/-- A write of a whole line, or an eviction, to another package: its DAT is kept until the home's GRANT (R237). -/
def askWrite (h : Hw) (p op ca : Nat) (bytes : List Byte) (poison : Bool) : Hw :=
  let m : Msg := { cls := .dat, op := if op = 6 then 2 else 1, dst := compactPos ca, src := h.ident.position, addr := toGlobal ca,
                   txn := h.arch.txn, payload := bytes, poison := poison }
  let h1 := noteWrite { h with arch := { h.arch with held := h.arch.held ++ [{ set := partSet h p, msg := m }] } }
    (if op = 6 then .cache else .course) (compactPos ca) (ca / 64)
  askRemote h1 p op ca 0 [] false

/-- The home answers a write: on GRANT its DAT leaves, on ERROR it is dropped (R237, Table 20.4); on DONE or ERROR it is no longer
outstanding (R221). -/
def writeAnswered (h0 : Hw) (m : Msg) : Hw :=
  let h := if m.op = 1 then h0 else
    { h0 with arch := { h0.arch with writes := h0.arch.writes.filter (fun w => !decide (w.dst = m.src ∧ w.txn = m.txn)) } }
  match h.arch.held.find? (fun o => decide (o.msg.dst = m.src ∧ o.msg.txn = m.txn)) with
  | some o =>
    let h1 := { h with arch := { h.arch with held := h.arch.held.erase o } }
    if m.op = 1 then postMsg h1 o.set o.msg else h1
  | none => h

/-- A byte of the lines this package holds of another. -/
def proxyByte (h : Hw) (ca : Nat) : Byte := (proxyAt h (ca / 64)).bytes.getD (ca % 64) 0

/-- Write bytes to lines held exclusively. -/
def proxyWrite (h : Hw) (ca : Nat) (bs : List Byte) : Hw :=
  (List.range bs.length).foldl (fun h i =>
    let x := proxyAt h ((ca + i) / 64)
    setProxy h ((ca + i) / 64) { x with dirty := true, bytes := x.bytes.set ((ca + i) % 64) (bs.getD i 0) }) h

/-- How a line's home answers a partition's next request for it (log entry 7). -/
def lineStatus (h : Hw) (p line : Nat) : Nat := remoteStatus h p (line * 64)

/-- Lines of a range of compact addresses. -/
def linesAfar (ca n : Nat) : List Nat := (List.range ((ca + n - 1) / 64 - ca / 64 + 1)).map (ca / 64 + ·)

/-- The lines of a range at another package: an engine's read by READ_ONCE, served from a copy this package owns. -/
def remoteRead (h : Hw) (p ca n : Nat) : List Byte × Hw :=
  let h1 := ((linesAfar ca n).filter (fun l => !(proxyAt h l).own)).foldl (fun h l => askRemote h p 3 (l * 64) 0 [] false) h
  let r := takeRemote h1 ca n
  ((List.range n).map (fun i => if (proxyAt h ((ca + i) / 64)).own then proxyByte h (ca + i) else r.1.getD i 0), r.2)

/-- Bytes of a write that fall in one line, with the mask of a WRITE_PART. -/
def linePart (ca : Nat) (bs : List Byte) (line : Nat) : Nat × List Byte :=
  let at_ (i : Nat) : Option Byte := if ca ≤ line * 64 + i ∧ line * 64 + i < ca + bs.length then some (bs.getD (line * 64 + i - ca) 0) else none
  (bitmapNat 64 (fun i => (at_ i).isSome), (List.range 64).map (fun i => (at_ i).getD 0))

/-- The first line of a range that its home refuses, by the first byte of it that the range holds (R219, R246). -/
def refusedAfar (h : Hw) (p ca n : Nat) : Option Nat :=
  ((linesAfar ca (max 1 n)).find? (fun l => decide (lineStatus h p l = 1))).map (fun l => max ca (l * 64))

end Sys2Proof.Machine
end

