-- ==== Sys2Proof/Machine/Coherent.lean ====
section
/-! DEFINITION. The coherent space: the selvedge check (R87), the bytes a swatch holds (R94, R95, R99), poison (R339 to
R341), replacement (R254 to R257), the directory (R231 to R235) and its transactions (Table 7.7). -/
namespace Sys2Proof.Machine

/-! ### Address decode (R40 to R44, R312 to R314) -/

/-- The C-die and the channel of a region 0 offset (R312). -/
def farChannel (o : Nat) : Nat × Nat :=
  let g := o / 4096
  (field g 0 0 ^^^ field g 9 9, field g 6 1 ^^^ field g 15 10)

/-- The channel-local address of a region 0 offset (R312). -/
def farLocal (o : Nat) : Nat := o / 4096 / 128 * 4096 + o % 4096

/-- Stacks per A-die of the population (R37, R314). -/
def stacksPerDie (h : Hw) : Nat := stackCount h.ident.sites / 4

/-- Near capacity per A-die in bytes (Table 1.3). -/
def nearPerDie (h : Hw) : Nat := 36 * stacksPerDie h * 2 ^ 30

/-- The flex site of the stack of rank r on an A-die: ranks ascend with site numbers (R314). -/
def stackSite (h : Hw) (die r : Nat) : Nat :=
  (((List.range 3).map (fun i => 3 * die + i)).filter (fun s => h.ident.sites.getD s .ldie = .stack)).getD r 0

/-- The A-die, flex site, stack address and pseudo-channel of a region 1 offset (R314). -/
def nearPlace (h : Hw) (o : Nat) : Nat × Nat × Nat × Nat :=
  let c := nearPerDie h
  let die := o / c
  let u := o - c * die
  let g := u / 4096
  let v := g / stacksPerDie h * 4096 + u % 4096
  (die, stackSite h die (g % stacksPerDie h), v, field v 12 8 ^^^ field v 17 13)

/-- Banks of a pseudo-channel and of a rank of a far-tier channel: the devices' own figures (log entry 16). -/
def banksOf (tier : Nat) : Nat := if tier = 2 then 48 else 16

/-- The device of a stack, by its site, or of a far-tier channel as 16 + 64 die + channel. -/
def deviceAt (h : Hw) (k : Nat) : MemDevice := (tabGet {} h.memhw.chans k).dev

/-- Whether an address lies in I/O space (R212). -/
def inIo (a : Nat) : Bool := decide (regionOf a ∈ [3, 4, 5])

/-- The row of a line by the controllers' own mapping (R313), within the ranks, banks and rows that its device has: rank, bank, row (log
entries 16, 76). -/
def rowOf (h : Hw) (a : Nat) : Nat × Nat × Nat :=
  let w := Config.memPlace (lineOf a)
  match regionOf a with
  | 0 =>
    let c := farChannel (offsetOf a)
    let d := deviceAt h (16 + 64 * c.1 + c.2)
    (w % max 1 d.ranks, w / 2 % banksOf 3, w / 128 % max 1 d.rows)
  | _ => (0, w / 2 % banksOf 2, w / 128 % max 1 (deviceAt h (nearPlace h (offsetOf a)).2.1).rows)

/-- Key of a bank: the stack or channel, its pseudo-channel or rank, and the bank. -/
def bankAt (k chan bank : Nat) : Nat := (k * 64 + chan) * 64 + bank

/-- Key of a row of a bank. -/
def rowKey (k chan bank row : Nat) : Nat := bankAt k chan bank * 2 ^ 32 + row

/-- Key of the row that holds a line of region 0 or 1. -/
def lineRow (h : Hw) (a : Nat) : Nat :=
  let r := rowOf h a
  match regionOf a with
  | 0 => let c := farChannel (offsetOf a); rowKey (16 + 64 * c.1 + c.2) r.1 r.2.1 r.2.2
  | _ => let p := nearPlace h (offsetOf a); rowKey p.2.1 p.2.2.2 r.2.1 r.2.2

/-- The shelf slot of a region 2 offset (R43). -/
def slotOf (o : Nat) : Nat := field o 31 30 * 8 + field o 26 24

/-- The enhanced configuration space of regions 4 and 5 (R643). -/
def isEcam (a : Nat) : Bool :=
  decide (regionOf a = 4 ∨ regionOf a = 5) && decide (0x0FFFF0000000 ≤ offsetOf a) && decide (offsetOf a < 2 ^ 44)

/-- Whether a root port's memory window holds a region 4 or 5 address (R642). -/
def inWindow (h : Hw) (a : Nat) : Bool :=
  h.edges.ports.any (fun e => e.2.exists_ && decide (e.1 / 16 + 4 = regionOf a) && decide (e.2.base ≤ offsetOf a / 2 ^ 20)
    && decide (offsetOf a / 2 ^ 20 < e.2.limit))

/-- Whether an HDM decoder maps a region 6 or 7 address (R647). -/
def inDecoder (h : Hw) (a : Nat) : Bool :=
  h.edges.decoders.any (fun e => e.2.used && decide (e.2.first ≤ a) && decide (a < e.2.first + e.2.count * 2 ^ 21))

/-- Whether an address lies in a region's populated extent (R41, R42, R313, R642, R643, R647, Tables 1.5 to 1.7). -/
def populated (h : Hw) (a : Nat) : Bool :=
  let o := offsetOf a
  decide (o < 2 ^ 44) &&
  (match regionOf a with
   | 0 => decide (o < (h.ident.c0Gib + h.ident.c1Gib) * 2 ^ 30)
   | 1 => decide (o < nearGib h * 2 ^ 30)
   | 2 => decide (o < 2 ^ 32) && decide (field o 29 27 = 0) && decide (field o 23 0 < 12 * 2 ^ 20)
   | 3 => decide (o < 17 * 2 ^ 24) || (decide (2 ^ 30 ≤ o) && decide (o < 2 ^ 30 + 2 ^ 26))
   | 4 | 5 => isEcam a || inWindow h a
   | 6 | 7 => inDecoder h a
   | _ => false)

/-- The swatch entry that covers an address: the swatch table for regions 0 to 2, position for region 3 (R44), the range
table for regions 4 to 7. An address nothing covers has no owner. -/
def swatchAt (h : Hw) (a : Nat) : Swatch :=
  match regionOf a with
  | 0 | 1 | 2 => swGet h (swatchOf a)
  | 3 =>
    let o := offsetOf a
    if o < 17 * 2 ^ 24 then { owner := o / 2 ^ 24, state := .fixed }
    else if 2 ^ 30 ≤ o ∧ o < 2 ^ 30 + 2 ^ 26 then { owner := 0, state := .fixed }
    else {}
  | 4 | 5 | 6 | 7 =>
    if isEcam a then { owner := 0, state := .fixed }
    else match h.sel.ranges.find? (fun r => decide (r.first ≤ a) && decide (a < r.first + r.count * 2 ^ 21)) with
    | some r => { owner := r.owner, state := .owned }
    | none => {}
  | _ => {}

/-! ### The selvedge check (R87, Table 3.4) -/

/-- Whether a swatch's grant has reached the copy that checks an access (R84): every copy 2 us after it, before that the copy the spec
does not name (log entry 58). -/
def copiesAgree (h : Hw) (s : Swatch) (k : Nat) : Bool :=
  match s.grant with
  | some t => decide (t + 2000 ≤ h.tb.now) || Config.copyHas k h.tb.now
  | none => true

/-- Steps 4 and 6 to 8 of Table 3.4 for one piece at a local address: populated, OWNED or FIXED, owner, RD_ONLY; by a copy of the table that
has the grant (R84). -/
def selPiece (h : Hw) (ptag a : Nat) (write : Bool) : Bool :=
  let s := swatchAt h a
  populated h a && (decide (s.state = SwState.owned) || decide (s.state = SwState.fixed)) && decide (s.owner = ptag)
    && !(write && s.rdOnly) && copiesAgree h s (swatchOf a)

/-- The first address of each swatch piece of [a, a + n). -/
def pieces (a n : Nat) : List Nat :=
  if n = 0 then [] else a :: (List.range (swatchOf (a + n - 1) - swatchOf a)).map (fun i => (swatchOf a + 1 + i) * 2 ^ 21)

/-- Whether every piece of an access passes (R219 for harts: checked in full before any piece is performed). -/
def selRange (h : Hw) (ptag a n : Nat) (write : Bool) : Bool := (pieces a n).all (fun x => selPiece h ptag x write)

/-- The first refused piece of an access. -/
def selFirstBad (h : Hw) (ptag a n : Nat) (write : Bool) : Option Nat :=
  (pieces a n).find? (fun x => !selPiece h ptag x write)

/-- Count a refusal of a partition's access (R91, SEL_REFUSE_COUNT; it wraps at 64 bits). -/
def countRefusal (h : Hw) (p : Nat) : Hw :=
  let r := partAt h p
  if p ≤ 16 then setPart h p { r with selRefuse := (r.selRefuse + 1) % 2 ^ 64 } else h

/-- An engine's refused access (Table 3.5): counted, and an INFO record SEL_REFUSED for the acting partition. An access that another
package refused is named by 2^60 and its compact address. -/
def refuseEngine (h : Hw) (p addr desc : Nat) : Hw :=
  let ca := if 2 ^ 60 ≤ addr then addr % 2 ^ 60 else toCompact h.ident.position addr
  recordWrite (countRefusal h p) { type := 0x0101, part := p, addr := ca, arg0 := desc }

/-! ### The bytes of the coherent space (R94, R95, R99) -/

/-- The key that encrypts an address, none where plaintext is held (R94, R95). -/
def keyFor (h : Hw) (a : Nat) : Option Nat :=
  let p := partAt h (swatchAt h a).owner
  match regionOf a with
  | 0 => some p.farKey
  | 1 => if p.nearPlain then none else some p.nearKey
  | _ => none

/-- Key of the far channel, or of the stack's pseudo-channel, that holds an address. -/
def channelKey (h : Hw) (a : Nat) : Nat :=
  match regionOf a with
  | 0 => let c := farChannel (offsetOf a); 1024 + 64 * c.1 + c.2
  | 1 => let p := nearPlace h (offsetOf a); 32 * p.2.1 + p.2.2.2
  | _ => 2048

/-- Identity of the free bytes a line holds: the line itself lost its contents, or a Bench test has overwritten its channel, or
a repair its row, since its swatch was scrubbed and it has not been written since (R327, R331). -/
def lineUnknown (h : Hw) (a : Nat) : Nat :=
  let u := tabGet 0 h.coh.unknown (lineOf a)
  if u ≠ 0 then u
  else
    let t := max (tabGet 0 h.memhw.tests (channelKey h a)) (if regionOf a ≤ 1 then tabGet 0 h.memhw.rowTests (lineRow h a) else 0)
    if t > (swatchAt h a).clean ∧ tabGet false h.sel.written (lineOf a) = false then t else 0

/-- Identity of what a line reads as where the byte memory does not hold it: free bytes, or what the last scrub left in a swatch that
reads as a decryption of it, or as the former ciphertext after a KEY scrub (R99). -/
def lineCipher (h : Hw) (a : Nat) : Option Nat :=
  let s := swatchAt h a
  if lineUnknown h a ≠ 0 then some (2 ^ 41 + lineUnknown h a)
  else if s.fresh && !tabGet false h.sel.written (lineOf a) then
    match keyFor h a with
    | some k => some k
    | none => if s.lost ≠ 0 then some (2 ^ 40 + s.lost) else if s.keyed then some 0 else none
  else none

/-- A line's bytes become free. -/
def forgetLine (h : Hw) (line : Nat) : Hw :=
  { h with coh := { h.coh with unknown := tabPut 0 h.coh.unknown line (h.free + 1) }, free := h.free + 1 }

/-- One byte of the coherent space as its owner reads it; a restored line is its memory copy (R249). -/
def cohByte (h : Hw) (m : Memory) (a : Nat) : Byte :=
  match lineCipher h a with
  | some k => Config.cipherByte k a
  | none =>
    match (tabGet [] h.coh.restored (lineOf a))[a % 64]? with
    | some b => b
    | none => memByte m a

/-- `n` bytes of the coherent space. -/
def cohRead (h : Hw) (m : Memory) (a n : Nat) : List Byte := (List.range n).map (fun i => cohByte h m (a + i))

/-- Before a write to a line that the byte memory does not hold, its other bytes become what they read as (R99). -/
def openLine (hm : Hw × Memory) (line : Nat) : Hw × Memory :=
  match lineCipher hm.1 (line * 64) with
  | none =>
    let bs := tabGet [] hm.1.coh.restored line
    if bs.isEmpty then hm
    else ({ hm.1 with coh := { hm.1.coh with restored := tabPut [] hm.1.coh.restored line [] } }, memWrite hm.2 (line * 64) bs)
  | some k =>
    ({ hm.1 with sel := { hm.1.sel with written := tabPut false hm.1.sel.written line true },
                 coh := { hm.1.coh with unknown := tabPut 0 hm.1.coh.unknown line 0 } },
     memWrite hm.2 (line * 64) ((List.range 64).map (fun i => Config.cipherByte k (line * 64 + i))))

/-- The lines an access of `n` bytes touches. -/
def linesOf (a n : Nat) : List Nat :=
  if n = 0 then [] else (List.range (lineOf (a + n - 1) - lineOf a + 1)).map (fun i => lineOf a + i)

/-- Write bytes to the coherent space. -/
def cohWrite (hm : Hw × Memory) (a : Nat) (bs : List Byte) : Hw × Memory :=
  let x := (linesOf a bs.length).foldl openLine hm
  (x.1, memWrite x.2 a bs)

/-- Before a cache that holds a line exclusively writes it, the home keeps what memory holds of it (R249). -/
def keepCopy (hm : Hw × Memory) (line : Nat) : Hw :=
  if (tabGet [] hm.1.coh.copies line).isEmpty then
    { hm.1 with coh := { hm.1.coh with copies := tabPut [] hm.1.coh.copies line (cohRead hm.1 hm.2 (line * 64) 64) } }
  else hm.1

/-- A line is again what memory holds of it: what its owner wrote is lost (R249). -/
def restoreLine (h : Hw) (line : Nat) : Hw :=
  { h with coh := { h.coh with restored := tabPut [] h.coh.restored line (tabGet [] h.coh.copies line),
                               copies := tabPut [] h.coh.copies line [] } }

/-! ### Poison (R339 to R341) -/

/-- The controller whose registry a line of region 0 or 1 is in: far-tier groups 0 to 15, stacks 16 + site (R339). -/
def registryOf (h : Hw) (a : Nat) : Nat :=
  match regionOf a with
  | 0 => let c := farChannel (offsetOf a); c.1 * 8 + c.2 / 16
  | 1 => 16 + (nearPlace h (offsetOf a)).2.1
  | _ => 64

/-- Whether the line of an address is poisoned (R339). -/
def poisoned (h : Hw) (a : Nat) : Bool :=
  tabGet false h.coh.poison (lineOf a) || tabGet false h.coh.swPoison (swatchOf a)

/-- Enter a line in its registry; a full registry marks the whole swatch and frees its entries of the swatch (R340). -/
def markPoison (h : Hw) (a : Nat) : Hw :=
  if poisoned h a then h
  else if regionOf a ≤ 1 ∧
      (h.coh.poison.filter (fun e => registryOf h (e.1 * 64) = registryOf h a)).length ≥ 8192 then
    { h with coh := { h.coh with swPoison := tabPut false h.coh.swPoison (swatchOf a) true,
                                 poison := tabClear h.coh.poison (fun l => decide (swatchOf (l * 64) = swatchOf a)) } }
  else { h with coh := { h.coh with poison := tabPut false h.coh.poison (lineOf a) true } }

/-- A whole-line write with sound data clears the line's entry, never a swatch bit (R341). -/
def clearLine (h : Hw) (a : Nat) : Hw :=
  { h with coh := { h.coh with poison := tabPut false h.coh.poison (lineOf a) false } }

/-- A scrub of a swatch or POISON_CLEAR clears every mark of it (R341). -/
def clearSwatchPoison (h : Hw) (k : Nat) : Hw :=
  { h with coh := { h.coh with swPoison := tabPut false h.coh.swPoison k false,
                               poison := tabClear h.coh.poison (fun l => decide (swatchOf (l * 64) = k)) } }

/-! ### Replacement (R254 to R257) -/

/-- `plru_touch`: point every node on the path to way `w` away from it (R256). `n` levels remain, at node `node`. -/
def plruTouch : Nat → Nat → Nat → Nat → Nat
  | 0, _, _, b => b
  | l + 1, node, w, b =>
    let dir := field w l l
    plruTouch l (2 * node + dir) w (setField b node node (1 - dir))

/-- `plru_victim`: the masked walk, never entering a subtree without an eligible way (R256). -/
def plruVictim : Nat → Nat → Nat → Nat → Nat → Nat
  | 0, _, lo, _, _ => lo
  | l + 1, node, lo, b, mask =>
    let half := 2 ^ l
    let left := field (mask / 2 ^ lo) (half - 1) 0
    let right := field (mask / 2 ^ (lo + half)) (half - 1) 0
    if (!bitOf b node && decide (left ≠ 0)) || decide (right = 0) then plruVictim l (2 * node) lo b mask
    else plruVictim l (2 * node + 1) (lo + half) b mask

/-- The way a line is in, if any. -/
def wayOf (c : CSet) (line : Nat) : Option Nat :=
  (List.range c.tags.length).find? (fun w => decide (c.tags.getD w none = some line))

/-- The eligible way a line is in, if any: no access hits outside its own ways (R105). -/
def wayIn (c : CSet) (mask line : Nat) : Option Nat :=
  (List.range c.tags.length).find? (fun w => bitOf mask w && decide (c.tags.getD w none = some line))

/-- Put a line in a way. -/
def putWay (c : CSet) (ways w line : Nat) : CSet :=
  { c with tags := ((List.range ways).map (fun i => c.tags.getD i none)).set w (some line) }

/-- The lowest-numbered invalid eligible way (R254). -/
def freeWay (c : CSet) (ways mask : Nat) : Option Nat :=
  (List.range ways).find? (fun w => bitOf mask w && (c.tags.getD w none).isNone)

/-- An access to one set: a hit touches its way; a miss fills an invalid eligible way or the replacement victim among the
eligible ways, and touches it (R254, R256). Answers the set, whether it hit, and the line evicted. -/
def setAccess (c : CSet) (levels mask line : Nat) : CSet × Bool × Option Nat :=
  let ways := 2 ^ levels
  match wayIn c mask line with
  | some w => ({ c with plru := plruTouch levels 1 w c.plru }, true, none)
  | none =>
    let w := (freeWay c ways mask).getD (plruVictim levels 1 0 c.plru mask)
    ({ putWay c ways w line with plru := plruTouch levels 1 w c.plru }, false, c.tags.getD w none)

/-- Exact LRU (R257): the way used gets age 0, every younger way ages by one. -/
def lruTouch (ages : List Nat) (w : Nat) : List Nat :=
  let old := ages.getD w 0
  ((List.range ages.length).map (fun i => if i = w then 0 else
    let g := ages.getD i 0
    if g < old then g + 1 else g))

/-- An access to one set of a front-end cache under exact LRU (R254, R257). -/
def lruAccess (c : CSet) (tag : Nat) : CSet × Bool :=
  match wayOf c tag with
  | some w => ({ c with ages := lruTouch c.ages w }, true)
  | none =>
    let w := (freeWay c 4 0xF).getD (((List.range 4).find? (fun i => decide (c.ages.getD i 0 = 3))).getD 0)
    ({ putWay c 4 w tag with ages := lruTouch c.ages w }, false)

/-- Drop a line from a set, leaving the tree unchanged (R256). -/
def dropLine (c : CSet) (line : Nat) : CSet := { c with tags := c.tags.map (fun t => if t = some line then none else t) }

/-! ### Caches -/

/-- Cache numbers: L1I of hart n, L1D 128 + n, L2 256 + n, L3 384 + cluster, shelf cache 400 + slot, front end 440 + group. -/
def cacheKey (cache set : Nat) : Nat := cache * 2 ^ 20 + set

/-- One set of a cache. -/
def cacheSet (h : Hw) (cache set : Nat) : CSet := tabGet {} h.coh.caches (cacheKey cache set)

/-- Replace one set of a cache. -/
def putCache (h : Hw) (cache set : Nat) (c : CSet) : Hw :=
  { h with coh := { h.coh with caches := tabPut {} h.coh.caches (cacheKey cache set) c } }

/-- Drop a line from a cache. -/
def cacheDrop (h : Hw) (cache sets line : Nat) : Hw :=
  putCache h cache (line % sets) (dropLine (cacheSet h cache (line % sets)) line)

/-- Drop a line from both L1s of a hart. -/
def dropL1 (h : Hw) (n line : Nat) : Hw := cacheDrop (cacheDrop h n 128 line) (128 + n) 128 line

/-- Drop a line from a core's L2 and, by inclusion, its L1s (R253). -/
def dropL2 (h : Hw) (n line : Nat) : Hw := cacheDrop (dropL1 h n line) (256 + n) 2048 line

/-- Drop a line from a cluster's L3 and every cache it includes (R253). -/
def dropL3 (h : Hw) (c line : Nat) : Hw :=
  cacheDrop ((List.range 8).foldl (fun h k => dropL2 h (8 * c + k) line) h) (384 + c) 32768 line

/-- The shelf slice a ferry read of line L is looked up in (R260), on A-die `die`. -/
def sliceOf (die l : Nat) : Nat := die * 8 + (field l 2 0 ^^^ field l 5 3 ^^^ field l 8 6 ^^^ field l 11 9)

/-- CACHE swatches of a slot (R262). -/
def cacheSwatches (h : Hw) (slot : Nat) : Nat :=
  ((List.range 6).filter (fun k => bitOf (tabGet 0 h.coh.split slot) k)).length

/-- The set of a line in a slice with n CACHE swatches (R261). -/
def shelfSet (n l : Nat) : Nat := (field l 20 0 ^^^ field l 41 21) % (2048 * n)

/-- The ways of a slot a partition holds, as a mask (R265), but for those that are leaving it (R266). -/
def wayMask (h : Hw) (slot p : Nat) : Nat :=
  bitmapNat 16 (fun w => decide (tabGet 0 h.coh.wayOwner (16 * slot + w) = p + 1 ∧ 16 * slot + w ∉ h.coh.leaving))

/-- Drop a line from a slot's shelf cache. -/
def dropShelf (h : Hw) (slot line : Nat) : Hw :=
  let n := cacheSwatches h slot
  if n = 0 then h
  else
    let k := shelfSet n line
    putCache h (400 + slot) k (dropLine (cacheSet h (400 + slot) k) line)

/-! ### The directory (R230 to R235) -/

/-- The die that homes a local line: C0, C1 are 0, 1 and A0 to A3 are 2 to 5 (R230). -/
def homeDie (h : Hw) (a : Nat) : Nat :=
  match regionOf a with
  | 0 => (farChannel (offsetOf a)).1
  | 1 => 2 + (nearPlace h (offsetOf a)).1
  | 2 => 2 + slotOf (offsetOf a) / 8
  | 6 => 0
  | _ => 1

/-- The directory units of a partition, ascending: those paired with its shelf ways (R267). -/
def unitsOf (h : Hw) (p : Nat) : List Nat := (h.coh.wayOwner.filter (fun e => decide (e.2 = p + 1))).map (·.1)

/-- Key of a directory set: home die, unit, set. -/
def dirSetKey (home unit set : Nat) : Nat := (home * 512 + unit) * 512 + set

/-- The set a partition's line is tracked in at its home (R267); a line of another package, by its tag, on the die that homes the same local
address (log entry 81). -/
def dirSetOf (h : Hw) (p line : Nat) : Option Nat :=
  let us := unitsOf h p
  let l := field (line * 64) 47 6
  if us.isEmpty then none
  else some (dirSetKey (homeDie h (line * 64)) (us.getD (field l 19 0 % us.length) 0) (field l 28 20 % 512))

/-- A directory entry; a line with no entry is in state I. -/
def dirAt (h : Hw) (line : Nat) : DirEntry := tabGet {} h.coh.dir line

/-- A tag leaves the directory set that holds it for a partition: its way is invalid (R254). -/
def dropDirTag (h : Hw) (p tag : Nat) : Hw :=
  match dirSetOf h p tag with
  | some k => { h with coh := { h.coh with dirSets := tabPut {} h.coh.dirSets k (dropLine (tabGet {} h.coh.dirSets k) tag) } }
  | none => h

/-- Replace a directory entry. An entry that ends leaves its way, and a line that no cache holds exclusively has its memory copy current
(R249, R254). -/
def setDir (h : Hw) (line : Nat) (e : DirEntry) : Hw :=
  let h1 := { h with coh := { h.coh with dir := tabPut {} h.coh.dir line e,
                                         copies := if e.st = DirState.e then h.coh.copies else tabPut [] h.coh.copies line [] } }
  if e = {} then dropDirTag h1 (swatchAt h1 (line * 64)).owner line else h1

/-! ### Lines of other packages in the caches (R195, R233, R258) -/

/-- The tag of another package's line, by its compact address, in a cache: beyond every local line, its [41:0] those of its address. -/
def remoteTag (line : Nat) : Nat := 2 ^ 54 + line / 2 ^ 42 * 2 ^ 46 + compactLocal (line * 64) / 64

/-- The line of a remote tag. -/
def tagLine (t : Nat) : Nat := field t 53 46 * 2 ^ 42 + field t 45 42 * 2 ^ 38 + field t 37 0

/-- A held line is given up, with its proxy entry's way. -/
def dropProxy (h : Hw) (line : Nat) : Hw := dropDirTag (setProxy h line {}) (proxyAt h line).part (remoteTag line)

/-- A copy of another package's line leaves this package, with the reservations of it; with `write` a dirty one is written back first, its
DAT after the home's grant (R237). -/
def giveUpLine (h : Hw) (write : Bool) (line : Nat) (x : Proxy) : Hw :=
  let h0 := ((List.range 16).filter (bitOf x.clusters)).foldl (fun h c => dropL3 h c (remoteTag line)) h
  let h1 := ((List.range 32).filter (bitOf x.slices)).foldl (fun h s => dropShelf h s (remoteTag line)) h0
  let h2 := if write && x.dirty then askWrite h1 x.part 6 (line * 64) x.bytes x.poison else h1
  dropProxy { h2 with harts := tabMap {} h2.harts (fun _ y => if y.resv = some (2 ^ 54 + line) then { y with resv := none, resvHeld := false } else y) } line

/-- Copies of other packages' lines that a test accepts are given up. -/
def giveUpProxies (h : Hw) (p : Nat → Proxy → Bool) (write : Bool) : Hw :=
  (h.coh.proxies.filter (fun e => p e.1 e.2)).foldl (fun h e => giveUpLine h write e.1 e.2) h

/-- Caches of this package no longer hold copies a test names; a copy that none holds any longer leaves the package. -/
def leaveProxies (h : Hw) (write : Bool) (f : Nat → Proxy → Proxy) : Hw :=
  giveUpProxies { h with coh := { h.coh with proxies := tabMap {} h.coh.proxies f } } (fun _ x => decide (x.clusters = 0 ∧ x.slices = 0)) write

/-- A bit of a mask cleared. -/
def clearBit (m b : Nat) : Nat := if bitOf m b then m - 2 ^ b else m

/-- A cluster gives up the copies of other packages' lines that it holds. -/
def dropClusterProxies (h : Hw) (c : Nat) (write : Bool) : Hw := leaveProxies h write (fun _ x => { x with clusters := clearBit x.clusters c })

/-- A cache evicts another package's line: a shelf slice without a message (R259), a cluster with a write-back of a dirty one. -/
def evictRemote (h : Hw) (ag : Agent) (t : Nat) : Hw :=
  leaveProxies h true (fun l x => if l ≠ tagLine t then x else
    match ag with
    | .l3 c => { x with clusters := clearBit x.clusters c }
    | .slice s => { x with slices := clearBit x.slices s }
    | _ => x)

/-- Copies that a slice is noted to hold and whose tags have left it are held there no longer. -/
def sweepSlice (h : Hw) (slot : Nat) : Hw :=
  leaveProxies h false (fun l x => if bitOf x.slices slot && (cacheSwatches h slot = 0 ||
      (wayOf (cacheSet h (400 + slot) (shelfSet (cacheSwatches h slot) (remoteTag l))) (remoteTag l)).isNone)
    then { x with slices := clearBit x.slices slot } else x)

/-- A slice's cache looks a line up under a partition's ways and fills on a miss; a remote line it evicts leaves it. Answers whether it
hit. -/
def shelfAccess (h : Hw) (slot mask tag : Nat) : Hw × Bool :=
  let k := shelfSet (cacheSwatches h slot) tag
  let r := setAccess (cacheSet h (400 + slot) k) 4 mask tag
  let h1 := putCache h (400 + slot) k r.1
  (match r.2.2 with | some v => if 2 ^ 54 ≤ v then evictRemote h1 (.slice slot) v else h1 | none => h1, r.2.1)

/-! ### Holders (R231, R238) -/

/-- Bit of a local caching agent in the 48-bit sharer vector (Table 7.6). -/
def agentBit : Agent → Option Nat
  | .l3 c => some c
  | .slice s => some (16 + s)
  | _ => none

/-- Add a sharer: a bit of the local vector, or a Position ID in the remote field, exact up to four and coarse beyond
(R231). -/
def addSharer (e : DirEntry) (ag : Agent) : DirEntry :=
  match ag with
  | .remote p =>
    if e.coarse ≠ 0 then { e with coarse := setField e.coarse (p / 8) (p / 8) 1 }
    else if p ∈ e.remote then e
    else if e.remote.length < 4 then { e with remote := e.remote ++ [p] }
    else { e with remote := [],
                  coarse := (p :: e.remote).foldl (fun c q => setField c (q / 8) (q / 8) 1) 0 }
  | ag =>
    match agentBit ag with
    | some b => { e with locals := setField e.locals b b 1 }
    | none => e

/-- Invalidate a line in every local cache that a local vector names. -/
def dropLocals (h : Hw) (locals line : Nat) : Hw :=
  let h1 := ((List.range 16).filter (bitOf locals)).foldl (fun h c => dropL3 h c line) h
  ((List.range 32).filter (fun s => bitOf locals (16 + s))).foldl (fun h s => dropShelf h s line) h1

/-- The local vector of every holder, the owner included. -/
def holders (e : DirEntry) : Nat :=
  match e.owner.bind agentBit with
  | some b => setField e.locals b b 1
  | none => e.locals

/-- Packages that a directory entry says hold the line: the owner, those named exactly, and every member of a coarse group (R231). -/
def remoteHolders (h : Hw) (e : DirEntry) : List Nat :=
  let own := match e.owner with | some (.remote p) => [p] | _ => []
  own ++ e.remote ++ (if e.coarse = 0 then [] else (List.range 256).filter (fun p => bitOf e.coarse (p / 8) && isMember h p
    && decide (p ≠ h.ident.position)))

/-- Send a snoop of a line to a package (Table 20.4): 1 TO_SHARED, 2 TO_INVALID, 3 ONCE. -/
def postSnoop (h : Hw) (line op p : Nat) : Hw :=
  postReq h (swatchAt h (line * 64)).owner
    { cls := .snp, op := op, dst := p, addr := toGlobal (toCompact h.ident.position (line * 64)) }

/-- Drop every line a test accepts from the caches of harts, clusters and shelf slices, and from the directory's ways. -/
def dropLines (h : Hw) (p : Nat → Bool) : Hw :=
  let t := tabMap {} h.coh.caches (fun k c =>
    if k / 2 ^ 20 < 440 then { c with tags := c.tags.map (fun o => match o with | some l => if l < 2 ^ 54 ∧ p l = true then none else some l | none => none) }
    else c)
  let d := tabMap {} h.coh.dirSets (fun _ c =>
    { c with tags := c.tags.map (fun o => match o with | some l => if l < 2 ^ 54 ∧ p l = true then none else some l | none => none) })
  { h with coh := { h.coh with caches := t, dir := tabClear h.coh.dir p, dirSets := d, copies := tabClear h.coh.copies p,
                               restored := tabClear h.coh.restored p } }

/-- Local lines a buffered store touches. -/
def sbLines (h : Hw) (s : SbEntry) : List Nat := if isLocal h s.addr then linesOf (compactLocal s.addr) s.bytes.length else []

/-- Lines a test accepts that a cache or package holds in state E, or that a buffered store has yet to reach: what they read as once they
are invalidated without write-back is not stated (log entry 59). -/
def ownedLines (h : Hw) (p : Nat → Bool) : List Nat :=
  ((h.coh.dir.filter (fun e => p e.1 && decide (e.2.st = DirState.e))).map (·.1)
    ++ h.harts.flatMap (fun e => e.2.sb.flatMap (fun s => (sbLines h s).filter p))).eraseDups

/-- Buffered stores to lines a test accepts leave their buffers, into lines that go (R85 step 2). -/
def dropStores (h : Hw) (p : Nat → Bool) : Hw :=
  { h with harts := tabMap {} h.harts (fun _ x => { x with sb := x.sb.filter (fun s => !(sbLines h s).any p) }) }

/-- Every cached line a test accepts is invalidated without write-back, in every cache of the package, and the stores buffered for them
drain into them first (R85 steps 2 and 3); other packages that hold one are told. -/
def forgetLines (h : Hw) (p : Nat → Bool) : Hw :=
  let h1 := (h.coh.dir.filter (fun e => p e.1)).foldl (fun h e =>
    (remoteHolders h e.2).eraseDups.foldl (fun h q => postSnoop h e.1 2 q) h) h
  dropLines (dropStores ((ownedLines h1 p).foldl forgetLine h1) p) p

/-- Swatches a test accepts that are OWNED become HELD (Table 19.9, Memory and scratch), once their cached lines are gone (R85). -/
def holdSwatches (h : Hw) (p : Nat → Swatch → Bool) : Hw :=
  let t := tabMap (swBase h) h.sel.swatches (fun k s =>
    if p k s && decide (s.state = SwState.owned) then { s with state := .held } else s)
  forgetLines { h with sel := { h.sel with swatches := t } } (fun l =>
    let k := swatchOf (l * 64)
    let s := swGet h k
    decide (regionOf (l * 64) ≤ 2) && p k s && decide (s.state = SwState.owned))

/-- Snoop the packages that hold a line, for an access that does not wait for their answers: what an owner gives back is free. -/
def recallRemote (h : Hw) (line op : Nat) (ps : List Nat) : Hw :=
  let h1 := ps.foldl (fun h p => postSnoop h line op p) h
  match (dirAt h line).owner with
  | some (.remote _) => forgetLine h1 line
  | _ => h1

/-- A request that only collects a line at its home, every copy invalidated. -/
def collectReq (line : Nat) : DirReq := { kind := .writePart, agent := .other, part := 31, act := { addr := line * 64, mask := 0 } }

/-- Snoop packages on behalf of a request of a line that is not busy: the line waits for their answers, the request in its queue. -/
def askHolders (h : Hw) (line op : Nat) (ps : List Nat) (q : DirReq) : Hw :=
  let e := dirAt h line
  let h1 := ps.foldl (fun h p => postSnoop h line op p) h
  let named := if e.coarse = 0 then e.remote else (remoteHolders h { e with owner := none }).eraseDups
  setDir h1 line { e with busy := true, awaits := ps, remote := named, coarse := 0, queue := e.queue ++ [q] }

/-- Whether a transaction sends a snoop to a cluster that holds the line (Table 7.7). -/
def snoopsHolder (k : ReqKind) (e : DirEntry) : Bool :=
  match k with
  | .readShared | .readOnce => decide (e.st = DirState.e)
  | .writeBack => false
  | _ => true

/-- Whether a caching agent is Fenced. -/
def agentFenced (h : Hw) (ag : Agent) : Bool :=
  match ag with
  | .l3 c => unitFenced h 2 c
  | .slice s => unitFenced h 10 s
  | _ => false

/-- A home that recorded a Fenced agent as the holder in state E restores the line from the memory copy, marks it poisoned and records
it for the owner of its swatch (R249). -/
def loseFenced (h : Hw) (line : Nat) (q : DirReq) : Hw :=
  let e := dirAt h line
  match e.owner with
  | some o =>
    if snoopsHolder q.kind e && decide (o ≠ q.agent) && agentFenced h o then
      let p := (swatchAt h (line * 64)).owner
      let h1 := markPoison (setDir (restoreLine (dropLocals h (holders e) line) line) line { queue := e.queue, busy := e.busy }) (line * 64)
      recordWrite h1 { type := 0x0509, cls := 1, part := if p = 31 then 0xFF else p, addr := toCompact h.ident.position (line * 64) }
    else h
  | none => h

/-- Invalidate every copy of a line and leave it in state I, its queue kept; a line that other packages hold waits in state B for their
answers. -/
def invalidateLine (h0 : Hw) (line : Nat) : Hw :=
  let h := loseFenced h0 line (collectReq line)
  let e := dirAt h line
  let ps := (remoteHolders h e).eraseDups
  let h1 := dropLocals h (holders e) line
  if ps.isEmpty || e.busy then
    setDir (recallRemote h1 line 2 ps) line { queue := e.queue, busy := e.busy, awaits := e.awaits }
  else
    let keep := match e.owner with | some (.remote p) => some (Agent.remote p) | _ => none
    askHolders (setDir h1 line { e with locals := 0, owner := keep }) line 2 ps (collectReq line)

/-- A hart that has the line reserved delays its answer to a snoop (R239). -/
def reservedBy (h : Hw) (line : Nat) : Option Nat :=
  (List.range 128).find? (fun n => decide ((hartAt h n).resv = some line))

/-- The delay a reservation may impose has passed (R239): harts other than `keep` lose their reservation of a line. -/
def dropResv (h : Hw) (line : Nat) (keep : Option Nat) : Hw :=
  { h with harts := tabMap {} h.harts (fun n x => if x.resv = some line ∧ some n ≠ keep then { x with resv := none, resvHeld := false } else x) }

/-- A directory entry's victim loses every copy: a local line's, or this package's copy of another's, a dirty one written back (R232, R233). -/
def evictEntry (h : Hw) (v : Nat) : Hw := if 2 ^ 54 ≤ v then giveUpLine h true (tagLine v) (proxyAt h (tagLine v)) else invalidateLine h v

/-- Whether a victim can be reused at once: no other package holds the line. -/
def victimReady (h : Hw) (v : Nat) : Bool := decide (2 ^ 54 ≤ v) || (remoteHolders h (dirAt h v)).isEmpty

/-- The ways of a directory set that a new entry may take: none in state B (R254). -/
def dirMask (h : Hw) (c : CSet) (tag : Nat) : Nat :=
  bitmapNat 16 (fun w => match c.tags.getD w none with
    | some l => decide (l = tag) || decide (2 ^ 54 ≤ l) || !(dirAt h l).busy
    | none => true)

/-- Allocate a line's directory entry, evicting a victim of the same partition with its copies (R232, R254). None: every way of the set is
busy, or the victim's copies in other packages are still to be collected, and the REQ waits. -/
def dirAlloc (h : Hw) (p tag : Nat) : Option Hw :=
  match dirSetOf h p tag with
  | none => some h
  | some k =>
    let c := tabGet {} h.coh.dirSets k
    let mask := dirMask h c tag
    let collecting := (List.range 16).any (fun w => match c.tags.getD w none with | some l => decide (l < 2 ^ 54) && (dirAt h l).victim | none => false)
    if (wayOf c tag).isNone && (decide (mask = 0) || (collecting && (freeWay c 16 mask).isNone)) then none
    else
      let r := setAccess c 4 mask tag
      let h1 := { h with coh := { h.coh with dirSets := tabPut {} h.coh.dirSets k r.1 } }
      match r.2.2 with
      | some v => if victimReady h v then some (evictEntry h1 v) else none
      | none => some h1

/-- A REQ that waits for a way of its set has the victim collected: its copies in other packages are asked for (R232). -/
def evictFor (h : Hw) (p tag : Nat) : Hw :=
  match dirSetOf h p tag with
  | none => h
  | some k =>
    let c := tabGet {} h.coh.dirSets k
    match (setAccess c 4 (dirMask h c tag) tag).2.2 with
    | some v =>
      if (dirAlloc h p tag).isSome || decide (dirMask h c tag = 0) || victimReady h v then h
      else let h1 := invalidateLine h v; setDir h1 v { dirAt h1 v with victim := true }
    | none => h

/-- A directory access to a line that has an entry touches its set's tree (R256). -/
def touchDir (h : Hw) (p tag : Nat) : Hw :=
  match dirSetOf h p tag with
  | none => h
  | some k =>
    let c := tabGet {} h.coh.dirSets k
    match wayOf c tag with
    | some w => { h with coh := { h.coh with dirSets := tabPut {} h.coh.dirSets k { c with plru := plruTouch 4 1 w c.plru } } }
    | none => h

/-- The home's action on a served transaction (Table 7.7). -/
def homeAction (h : Hw) (line : Nat) (q : DirReq) : Hw :=
  let e := dirAt h line
  match q.kind with
  | .readShared =>
    match e.st, q.agent with
    | .i, .slice _ => setDir h line (addSharer { e with st := .s } q.agent)
    | .i, _ => setDir h line { e with st := .e, owner := some q.agent, dirty := false }
    | .s, _ => setDir h line (addSharer e q.agent)
    | .e, ag =>
      if e.owner = some ag then h
      else
        let e1 := { e with st := .s, owner := none, dirty := false }
        let e2 := match e.owner with | some o => addSharer e1 o | none => e1
        setDir h line (addSharer e2 ag)
  | .readOwn =>
    let keep := match agentBit q.agent with | some b => 2 ^ b | none => 0
    let h1 := dropLocals h (holders e - (if holders e &&& keep = 0 then 0 else keep)) line
    setDir h1 line { queue := e.queue, busy := e.busy, st := .e, owner := some q.agent, dirty := false }
  | .readOnce => h
  | .writeLine | .writePart | .atomicHome | .atomicMem =>
    setDir (dropLocals h (holders e) line) line { queue := e.queue, busy := e.busy }
  | .writeBack => if e.owner = some q.agent then setDir h line { queue := e.queue, busy := e.busy } else h

/-! ### Core caches: fills (R195, R253, R254) -/

/-- A line evicted from an L3 leaves the cluster; a dirty one is written back to its home. -/
def evictL3 (h : Hw) (c v : Nat) : Hw :=
  let h1 := dropL3 h c v
  if 2 ^ 54 ≤ v then evictRemote h1 (.l3 c) v
  else if (dirAt h1 v).owner = some (Agent.l3 c) then homeAction h1 v { kind := .writeBack, agent := .l3 c } else h1

/-- One level of a core's caches: a hit touches the set's tree, but for a prefetch (R256); a miss fills. Whether it hit, and what it evicts. -/
def levelAccess (h : Hw) (cache set levels line : Nat) (pf : Bool) : Hw × Bool × Option Nat :=
  let c := cacheSet h cache set
  if pf && (wayOf c line).isSome then (h, true, none)
  else let r := setAccess c levels (2 ^ 2 ^ levels - 1) line; (putCache h cache set r.1, r.2.1, r.2.2)

/-- A hart's access goes out from its L1 to the level that hits, filling each that misses, with what they evict; a line to be written leaves
the other cores of the cluster. `pf`: a prefetch. -/
def fillCore (h : Hw) (n line : Nat) (instr own : Bool) (pf : Bool := false) : Hw :=
  let c := n / 8
  let a1 := levelAccess h (if instr then n else 128 + n) (line % 128) 3 line pf
  let a2 := levelAccess a1.1 (256 + n) (line % 2048) 4 line pf
  let h2 := match a2.2.2 with | some v => dropL1 a2.1 n v | none => a2.1
  let a3 := levelAccess h2 (384 + c) (line % 32768) 4 line pf
  let h3 := match a3.2.2 with | some v => evictL3 a3.1 c v | none => a3.1
  let h4 := if a1.2.1 then a1.1 else if a2.2.1 then h2 else h3
  if own then ((List.range 8).filter (fun k => decide (8 * c + k ≠ n))).foldl (fun h k => dropL2 h (8 * c + k) line) h4 else h4

/-- Whether a line is in a set of ways. -/
def cached (h : Hw) (cache set line : Nat) : Bool := (wayOf (cacheSet h cache set) line).isSome

/-! ### MSHRs (R106, R250, R251, R271, Tables 6.4 and 8.1) -/

/-- MSHRs of a cache (Table 8.1). -/
def mshrCap (cache : Nat) : Nat := if cache < 128 then 8 else if cache < 256 then 24 else if cache < 384 then 48 else if cache < 400 then 64 else 128

/-- Merge targets of one MSHR. -/
def mergeCap (cache : Nat) : Nat :=
  if cache < 128 then 4 else if cache < 256 then 8 else if cache < 400 then 16 else 32

/-- Busy MSHRs of a cache. -/
def mshrsOf (h : Hw) (cache : Nat) : List Mshr := tabGet [] h.coh.mshrs cache

/-- The lowest MSHR of a cache that is free for a partition: in a slice, of those of the ways it holds (R265). -/
def freeMshr (h : Hw) (cache p : Nat) : Option Nat :=
  let busy := (mshrsOf h cache).map (·.num)
  if cache < 400 then (List.range (mshrCap cache)).find? (fun k => decide (k ∉ busy))
  else (List.range 128).find? (fun k => bitOf (wayMask h (cache - 400) p) (k / 8) && decide (k ∉ busy))

/-- A miss takes an MSHR, or attaches to the one its line has (R251). False: none is free, and it waits (R271). -/
def takeMshr (h : Hw) (cache line p who : Nat) : Hw × Bool :=
  let ms := mshrsOf h cache
  let put (l : List Mshr) : Hw := { h with coh := { h.coh with mshrs := tabPut [] h.coh.mshrs cache l } }
  match ms.find? (fun m => decide (m.line = line)) with
  | some m =>
    if who ∈ m.targets then (h, true)
    else if m.targets.length < mergeCap cache then
      (put (ms.map (fun x => if x.line = line then { x with targets := x.targets ++ [who] } else x)), true)
    else (h, false)
  | none =>
    match freeMshr h cache p with
    | some k => (put (ms ++ [{ num := k, line := line, part := p, targets := [who] }]), true)
    | none => (h, false)

/-- A miss takes MSHRs level by level, from the nearest cache out, as far as they are free. True: it has reached the home. -/
def takeMshrs (line p who : Nat) : List Nat → Hw → Hw × Bool
  | [], h => (h, true)
  | c :: cs, h => let r := takeMshr h c line p who; if r.2 then takeMshrs line p who cs r.1 else r

/-- Whether a miss finds an MSHR, or a merge target, in every cache it passes (R271). -/
def missRoom (h : Hw) (x : Stall) : Bool := (takeMshrs x.line x.req.part x.who x.caches h).2

/-- The caches of an agent: its cluster's, or its slice. -/
def agentCache (ag : Agent) (k : Nat) : Bool :=
  match ag with
  | .l3 c => decide ((k < 384 ∧ k % 128 / 8 = c) ∨ k = 384 + c)
  | .slice s => decide (k = 400 + s)
  | _ => false

/-- The fill of a line releases the MSHRs that an agent's caches hold for it, and serves every target: the line is in their caches
(R251). -/
def fillMshrs (h : Hw) (line : Nat) (q : DirReq) : Hw :=
  let own := decide (q.kind = ReqKind.readOwn)
  let h1 : Hw := match q.agent with
    | .l3 _ => ((List.range 256).filter (fun k => agentCache q.agent k && (mshrsOf h k).any (fun m => decide (m.line = line)))).foldl
        (fun (g : Hw) (k : Nat) => fillCore g (k % 128) line (decide (k < 128)) own) h
    | .slice s =>
      let n := cacheSwatches h s
      let mask := wayMask h s q.part
      if n = 0 ∨ mask = 0 ∨ !((mshrsOf h (400 + s)).any (fun m => decide (m.line = line))) then h
      else (shelfAccess h s mask line).1
    | _ => h
  { h1 with coh := { h1.coh with mshrs := tabMap [] h1.coh.mshrs (fun k ms =>
    if agentCache q.agent k then ms.filter (fun m => decide (m.line ≠ line)) else ms) } }

/-- The snoop a transaction sends to packages that hold the line, and to which (Table 7.7). -/
def remoteSnoops (h : Hw) (e : DirEntry) (q : DirReq) : Nat × List Nat :=
  let others (ps : List Nat) : List Nat := ps.eraseDups.filter (fun p => decide (q.agent ≠ Agent.remote p))
  match q.kind with
  | .readShared => (1, others (match e.owner with | some (.remote p) => [p] | _ => []))
  | .readOnce => (3, if e.once && decide (q.agent = Agent.other) then [] else others (match e.owner with | some (.remote p) => [p] | _ => []))
  | .writeBack => (2, [])
  | _ => (2, others (remoteHolders h e))

/-- A home serves one transaction of a line. Holders at other packages that have not been snooped and answered are snooped now. -/
def homeTurn (h : Hw) (line : Nat) (q : DirReq) : Hw :=
  let s := remoteSnoops h (dirAt h line) q
  let h1 := if q.snooped || s.2.isEmpty then h else recallRemote h line s.1 s.2
  fillMshrs (homeAction (loseFenced h1 line q) line q) line q

/-- A REQ that must keep an entry at its home. -/
def needsEntry : ReqKind → Bool
  | .readShared | .readOwn => true
  | _ => false

/-- The hart whose reservation delays the answer to a request's snoop of a line (R239). -/
def resvDelays (h : Hw) (line : Nat) (q : DirReq) : Option Nat :=
  match reservedBy h line with
  | some n => if snoopsHolder q.kind (dirAt h line) && decide (q.agent ≠ Agent.l3 (n / 8)) then some n else none
  | none => none

/-- The directory entry of a REQ that must keep one; another touches the one its line has (R256). -/
def entryFor (h : Hw) (line : Nat) (q : DirReq) : Option Hw :=
  if needsEntry q.kind then dirAlloc h q.part line else some (touchDir h (swatchAt h (line * 64)).owner line)

/-- Whether a local cache that a request has snooped stands on an island that holds the SNP by RETRY (R73). -/
def heldSnoop (h : Hw) (line : Nat) (q : DirReq) : Bool :=
  let e := dirAt h line
  let b := holders e
  decide (b ≠ 0) && snoopsHolder q.kind e &&
    ((List.range 16).any (fun c => bitOf b c && decide (q.agent ≠ Agent.l3 c) && retrying h { kind := .cluster, idx := c })
      || (List.range 32).any (fun s => bitOf b (16 + s) && decide (q.agent ≠ Agent.slice s) && retrying h { kind := .shelf, idx := s }))

/-- Serve one REQ at its home (R234): a line in state B, or one whose snoop a reservation delays or an island holds by RETRY, queues it. -/
def serveReq (h : Hw) (line : Nat) (q : DirReq) : Hw :=
  let e := dirAt h line
  let wait (h : Hw) : Hw := setDir h line { dirAt h line with busy := true, queue := e.queue ++ [q] }
  if e.busy then setDir h line { e with queue := e.queue ++ [q] }
  else match resvDelays h line q with
  | some n => wait (setHart h n { hartAt h n with resvHeld := true })
  | none =>
    if heldSnoop h line q then wait h
    else
      match entryFor h line q with
      | some h1 => homeTurn h1 line q
      | none => wait (evictFor h q.part line)

/-! ### Accesses that wait (R234, R238, R271) -/

/-- Whether a line's home cannot serve a hart's or an engine's request now: it is in state B, other packages must first answer a snoop, an
island holds its snoop by RETRY, a reservation delays its answer (R239), or no way of its directory set is free yet. -/
def notReady (h : Hw) (line : Nat) (q : DirReq) : Bool :=
  let e := dirAt h line
  e.busy || !(remoteSnoops h e q).2.isEmpty || (resvDelays h line q).isSome || heldSnoop h line q || (entryFor h line q).isNone

/-- Note that an access of the command in course must wait. -/
def stall (h : Hw) (x : Stall) : Hw := { h with coh := { h.coh with stalls := h.coh.stalls ++ [x] } }

/-- A waiting access's REQ reaches the home: it queues behind a busy line, once for each agent, or has the holders snooped. -/
def queueReq (h : Hw) (line : Nat) (q : DirReq) : Hw :=
  let e := dirAt h line
  if e.busy then
    if q.agent = Agent.other ∨ e.queue.any (fun r => decide (r.agent = q.agent)) then h
    else setDir h line { e with queue := e.queue ++ [q] }
  else
    let s := remoteSnoops h e q
    let keep (h : Hw) : Hw := if q.agent = Agent.other then h else setDir h line { dirAt h line with busy := true, queue := e.queue ++ [q] }
    if !s.2.isEmpty then askHolders h line s.1 s.2 q
    else match resvDelays h line q with
    | some n => keep (setHart h n { hartAt h n with resvHeld := true })
    | none => keep (if needsEntry q.kind then evictFor h q.part line else h)

/-- What a waiting access leaves: its MSHRs and its REQ at the home, one more message held by RETRY, the write-back of this package's own
copy, or the collection of the victim whose way it needs (R73, R232, R241, R251, R271). -/
def leaveStall (h : Hw) (x : Stall) : Hw :=
  match x.island, x.evict, x.way with
  | some i, _, _ => setIsland h i { islandAt h i with held := (islandAt h i).held + 1 }
  | none, some l, _ => giveUpLine h true l (proxyAt h l)
  | none, none, some t => evictFor h x.req.part t
  | none, none, none =>
    if 2 ^ 54 ≤ x.line ∧ x.line < 2 ^ 60 then
      match reservedBy h x.line with
      | some n => setHart h n { hartAt h n with resvHeld := true }
      | none => h
    else let r := takeMshrs x.line x.req.part x.who x.caches h; if r.2 then queueReq r.1 x.line x.req else r.1

/-! ### Accesses to other packages (R211, R213, R241, R245) -/

/-- An access that waits for no line of its own leaves nothing. -/
def holdBack (h : Hw) : Hw := stall h { line := 2 ^ 60 }

/-- Whether an earlier write of this package to a line of another is still to be performed at its home. The links keep no order (R247), so a
later access of the line waits for it. -/
def lineOut (h : Hw) (line : Nat) : Bool := h.arch.writes.any (fun w => decide (w.line = line ∧ w.by_ ≠ Actor.course))

/-- A read of a line of another package waits for this package's own writes to it. -/
def readyAfar (h : Hw) (line : Nat) : Hw := if lineOut h line then holdBack h else h

/-- A write or an atomic at another package's home waits for this package's own writes to the line, and until its own dirty copy, unless the
whole line is written, is back there (R211, R241); a reservation of a hart delays it (R239). -/
def ownedAfar (h : Hw) (line : Nat) (whole : Bool) : Hw :=
  if lineOut h line then holdBack h
  else if (reservedBy h (2 ^ 54 + line)).isSome then stall h { line := 2 ^ 54 + line }
  else if (proxyAt h line).dirty && !whole then stall h { line := 2 ^ 60, evict := some line }
  else h

/-- A cluster or a shelf slice obtains a remote line: READ_SHARED, or READ_OWN for a store; its data is the home's answer. A line that
another partition of this package holds is asked for again: its home checks each partition (R87 step 5). `st` is how the home answers:
a refused line is not cached (R246), and a partition that is bound to no set asks nothing (R247). The copy has a proxy entry in this
package's directory, and waits for its way (R232, R233). -/
def fillProxy (h : Hw) (p line : Nat) (own : Bool) (clusters slices st : Nat) : Hw :=
  let x := proxyAt h line
  let y := { x with clusters := x.clusters ||| clusters, slices := x.slices ||| slices }
  let ask (h : Hw) : Hw := askRemote h p (if own then 2 else 1) (line * 64) 0 [] false
  if heldAfar h p line own then setProxy h line y
  else if partSet h p = 0 then h
  else if st = 1 then ask h
  else match dirAlloc (if x.part = p then h else dropDirTag h x.part (remoteTag line)) p (remoteTag line) with
  | none => stall h { line := 2 ^ 60, req := { kind := .readShared, agent := .other, part := p }, way := some (remoteTag line) }
  | some h0 =>
    let h1 := ask h0
    if x.bytes.isEmpty then
      let r := takeRemote h1 (line * 64) 64
      setProxy r.2 line { y with own := own, dirty := false, part := p, bytes := r.1, poison := decide (st = 2) || tabGet false h.coh.gone line }
    else setProxy h1 line { y with own := x.own || own, part := p }

/-- One line of a write to another package: WRITE_LINE of a whole line of the coherent space, its DAT after the home's grant, or WRITE_PART
with its mask and bytes in the REQ (R607); the copy held here is given up. -/
def writeAfar (p ca : Nat) (bs : List Byte) (poison : Bool) (h0 : Hw) (l : Nat) : Hw :=
  let x := linePart ca bs l
  let whole := decide (x.1 = 2 ^ 64 - 1) && !inIo (compactLocal ca)
  let h := ownedAfar h0 l whole
  let h1 := if whole then askWrite h p 4 (l * 64) x.2 poison
            else askRemote (noteWrite h .course (compactPos ca) l) p 5 (l * 64) 0 (leBytes 8 x.1 ++ x.2) poison
  let h2 := giveUpLine h1 false l (proxyAt h1 l)
  if whole then { h2 with coh := { h2.coh with gone := tabPut false h2.coh.gone l false } } else h2

/-- A write to another package, line by line. -/
def remoteWrite (h : Hw) (p ca : Nat) (bs : List Byte) (poison : Bool) : Hw :=
  if bs.isEmpty then h else (linesAfar ca bs.length).foldl (writeAfar p ca bs poison) h

/-- An atomic at another package's home (R240, R241): 7 at its home atomic unit, 8 at the memory controller; this package's own copy is
first collected. Answers the old value's bytes. -/
def atomicAfar (h0 : Hw) (p op ca size operand compare aop : Nat) : List Byte × Hw :=
  let l := ca / 64
  let h := ownedAfar h0 l false
  let h1 := askRemote h p op ca size (leBytes 16 operand ++ leBytes 16 compare) false aop
  takeRemote (giveUpLine h1 false l (proxyAt h1 l)) ca size

end Sys2Proof.Machine
end

