-- ==== Sys2Proof/Machine/Doubt.lean ====
section
/-! DEFINITION. The one operation every cause of doubt goes through (R585 to R589): it settles the scope, gives every
output of the scope its Fenced behaviour (Table 19.9), then writes the record (R572), the fence with its cause (R595)
and, at package scope, the last word (R584). -/
namespace Sys2Proof.Machine

/-! ### Outputs (Table 19.9) -/

/-- A slip is Fenced: it fetches nothing more, its waits are withdrawn, and what it holds ends. With `records`, its staged and
dispatched descriptors complete with status FENCED in slip order (R423); without, they end with no record. DESIGN CHOICE (log entry 91): R423
does not say which status a descriptor has whose work is over and whose record is still to be written; it keeps its own. -/
def fenceSlip (h : Hw) (s : Nat) (records : Bool) : Hw :=
  let h1 := withdrawWaits h s (fun _ => true)
  let h2 := { h1 with weaves := { h1.weaves with runs := h1.weaves.runs.filter (fun r => r.slip ≠ s) } }
  let x := slipAt h2 s
  let f (d : Desc) : Option Desc :=
    match d.phase with
    | .fetched => none
    | .walking => if d.begun || d.walk.rewalk then some { d with phase := .ended, status := 0x07, reason := 0 } else none
    | .staged | .dispatched | .waiting => some { d with phase := .ended, status := 0x07, reason := 0 }
    | _ => some d
  setSlip h2 s { x with st := .fenced, stopping := none, disableReq := false, descs := if records then x.descs.filterMap f else [] }

/-- A quad's looms and finisher stop at the next cycle: the descriptors on them complete FENCED, both banks are cleared. -/
def fenceQuad (h : Hw) (q : Nat) : Hw :=
  let h1 := (quadRuns h q).foldl (fun h r =>
    match findDesc (slipAt h r.slip) r.seq with
    | some d => endDesc h r.slip d 0x07 0
    | none => h) h
  { h1 with weaves := { h1.weaves with looms := tabMap {} h1.weaves.looms (fun n l => if n / 4 = q then { l with bank0 := [], bank1 := [] } else l) } }

/-- Root ports a test accepts are held in hot reset. -/
def hotReset (h : Hw) (p : Nat → Bool) : Hw :=
  { h with edges := { h.edges with ports := tabMap {} h.edges.ports (fun n x =>
      if p n && x.exists_ then { x with hotReset := true, up := false, training := false } else x) } }

/-- Idurrum ports a test accepts send the FENCE ordered set once and idle. -/
def fenceLinks (h : Hw) (p : Nat → Bool) : Hw :=
  { h with arch := { h.arch with links := (List.range (portCount h)).foldl (fun t n =>
      if p n then tabMod {} t n (fun l => { l with st := .fenced, since := h.tb.now, orderedSet := true }) else t) h.arch.links } }

/-- Cross-package knots that a test accepts become BROKEN (R493). -/
def breakCross (h : Hw) (p : Nat → Bool) : Hw :=
  (h.sync.knots.filter (fun e => e.2.cross && p e.1)).foldl (fun h e => breakKnot h e.1) h

/-- TDISP interfaces of functions whose owner a test accepts go to ERROR. -/
def errorFuncs (h : Hw) (p : Nat → Bool) : Hw :=
  { h with edges := { h.edges with funcs := tabMap {} h.edges.funcs (fun f x =>
      if p (unitAt h 9 f).owner && decide (x.tdisp ≠ Tdisp.unlocked) then { x with tdisp := .error } else x) } }

/-- Units of a kind that a partition owns or holds. -/
def unitsHeld (h : Hw) (p kind : Nat) : List Nat :=
  (h.sel.units.filter (fun e => decide (e.1 / 2 ^ 32 = kind ∧ e.2.owner = p))).map (fun e => e.1 % 2 ^ 32)

/-- The Fenced behaviour of a unit's outputs (Table 19.9, column 'Unit fence'). -/
def fenceUnit (h : Hw) (kind idx : Nat) : Hw :=
  match kind with
  | 2 => rnmiAll h (fun n => decide (n / 8 = idx)) 2
  | 3 => fenceQuad h idx
  | 4 => (h.eng.slips.filter (fun e => decide (e.2.group = idx ∧ e.2.st ≠ SlipSt.disabled))).foldl (fun h e => fenceSlip h e.1 true) h
  | 5 => fenceSlip h idx true
  | 10 => holdSwatches h (fun k _ => decide (regionOf (k * 2 ^ 21) = 2) && decide (slotOfSwatch k = idx))
  | 11 => hotReset h (fun n => decide (n / 4 = idx))
  | 12 => fenceLinks h (fun n => decide (n = idx))
  | _ => h

/-- The Fenced behaviour of a partition's outputs. -/
def fencePartition (h : Hw) (p : Nat) : Hw :=
  let h1 := (unitsHeld h p 5).foldl (fun h s => fenceSlip h s false) h
  let h2 := (unitsHeld h1 p 3).foldl fenceQuad h1
  let h3 := breakCross h2 (fun n => decide (knotOwner h2 n = p))
  let h4 := errorFuncs h3 (fun o => decide (o = p))
  rnmiAll (holdUnits (holdSwatches h4 (fun _ s => decide (s.owner = p))) p) (fun n => decide (hartOwner h n = p)) 1

/-- Every slip that a partition owns, or that is not at its reset values. -/
def slipsHeld (h : Hw) : List Nat :=
  (h.eng.slips.map Prod.fst ++ (List.range 17).flatMap (fun p => unitsHeld h p 5)).eraseDups

/-- The Fenced behaviour of every output of the package. -/
def fencePackage (h : Hw) : Hw :=
  let h1 := (slipsHeld h).foldl (fun h s => fenceSlip h s false) h
  let h2 := (List.range 128).foldl fenceQuad h1
  let h3 := holdSwatches h2 (fun _ _ => true)
  let h4 := fenceLinks (hotReset h3 (fun _ => true)) (fun _ => true)
  let h5 := rnmiAll h4 (fun _ => true) 3
  let power := { h5.power with ins := [] }
  broadcast { h5 with faults := { h5.faults with faultN := false }, memhw := setSelfRefresh h5.memhw true,
                      keep := { h5.keep with lamp := true }, power := power } 0x0D []

/-- The Fenced behaviour of the package's membership: waits at other packages end BROKEN with the knots. -/
def fenceMembership (h : Hw) : Hw :=
  let h1 := fenceLinks (breakCross h (fun _ => true)) (fun _ => true)
  let h2 := h1.sync.remoteWaits.foldl (fun h w =>
    match findDesc (slipAt h w.1) w.2.1 with
    | some d => endDesc h w.1 d 0x08 0
    | none => h) { h1 with sync := { h1.sync with remoteWaits := [] } }
  broadcast { h2 with power := { h2.power with ins := [] } } 0x0D []

/-- The scope a cause fences: partition 0 is the package (R587). -/
def settleScope (sc : Scope) (part : Nat) : Scope :=
  match sc with
  | .partition => if part = 0 ∨ part > 16 then .package else .partition
  | x => x

/-- A cause of doubt at a scope, about a unit and a partition, with its record. -/
def causeOfDoubt (h : Hw) (sc0 : Scope) (kind idx part : Nat) (r0 : FaultRec) : Hw :=
  let sc := settleScope sc0 part
  let units := if sc = Scope.unit then (if kind = 3 then lockQuads h idx else [idx]) else []
  let r := { r0 with cls := if sc = Scope.none then r0.cls else scopeClass sc, scope := scopeCode sc,
                     unitKind := kind, unit := idx, part := part }
  let c : Cause := { pseq := recordPseq h r, type := r.type, arg2 := r.arg2, kind := kind, unit := idx }
  let fs := match sc with
    | .unit => units.foldl (fun fs i => addCause fs .unit kind i part c) h.faults.fences
    | .partition => addCause h.faults.fences .partition 0 0 part c
    | .package => addCause h.faults.fences .package 0 0 0xFF c
    | .membership => addCause h.faults.fences .membership 0 0 0xFF c
    | .none => h.faults.fences
  let h1 := { h with faults := { h.faults with fences := fs } }
  let h2 := match sc with
    | .unit => units.foldl (fun h i => fenceUnit h kind i) h1
    | .partition => fencePartition h1 part
    | .package => fencePackage h1
    | .membership => fenceMembership h1
    | .none => h1
  let h3 := recordWrite h2 r
  if sc = Scope.package then lastWord h3 r.type (logLost h3) else h3

end Sys2Proof.Machine
end

