-- ==== Sys2Proof/Machine/Islands.lean ====
section
/-! DEFINITION. Islands, straits and the time base (chapter 2): messages across straits, ghost responders, the power-down
and wake sequence of Table 2.4, the sync marker and the reference clock. -/
namespace Sys2Proof.Machine

/-- Kinds that Table 2.1 lets be gated while Active. -/
def gateableKind : IslandKind → Bool
  | .cluster | .rootPort | .baseIdurrum | .cFerry | .quad | .shelf | .ferryGroup | .ldiePort => true
  | _ => false

/-- The unit (Table 19.3) a gateable island forms (R61). -/
def islandUnit (i : Island) : Nat × Nat :=
  match i.kind with
  | .cluster => (2, i.idx)
  | .quad => (3, i.idx)
  | .ferryGroup => (4, i.idx)
  | .cFerry => (4, 32 + i.idx)
  | .shelf => (10, i.idx)
  | .rootPort => (11, i.idx)
  | .baseIdurrum => (12, i.idx)
  | .ldiePort => (12, 2 + i.idx)
  | _ => (13, i.idx)

/-- Position of a class in the credit lists (Table 2.3). -/
def classIdx : MsgClass → Nat
  | .req => 0 | .snp => 1 | .rsp => 2 | .dat => 3 | .cmp => 4

/-- Credits of a class per direction (Table 2.3). -/
def classCredits : MsgClass → Nat
  | .req => 16 | .snp => 8 | .rsp => 16 | .dat => 32 | .cmp => 16

/-- One direction of a strait. -/
def straitAt (h : Hw) (a b : Island) : Strait := tabGet {} h.straits (straitKey a b)

/-- Replace a strait. -/
def setStrait (h : Hw) (a b : Island) (x : Strait) : Hw := { h with straits := tabPut {} h.straits (straitKey a b) x }

/-- Add one to an entry of a counter list. -/
def bump (l : List Nat) (i : Nat) : List Nat := l.set i (l.getD i 0 + 1)

/-- One bucket event (R345, `bucket_event`): leak whole periods, then count or overflow. Answers the bucket and whether
it overflowed. -/
def bucketEvent (b : Bucket) (c : BucketCfg) (now addr : Nat) : Bucket × Bool :=
  let period := c.periodMs * 1000000
  let n := (now - b.lastLeak) / period
  let k := if b.count > n then b.count - n else 0
  let leak := b.lastLeak + n * period
  if k = c.capacity then ({ count := 0, lastLeak := leak, lastAddr := addr }, true)
  else ({ count := k + 1, lastLeak := leak, lastAddr := addr }, false)

/-- The coordinates of a repair candidate compare equal (R328). -/
def sameCand (a b : Candidate) : Bool :=
  decide (a.lane = b.lane ∧ a.tier = b.tier ∧ a.unit = b.unit ∧ a.channel = b.channel ∧ a.rank = b.rank ∧ a.bank = b.bank
    ∧ a.row = b.row ∧ a.laneNo = b.laneNo)

/-- The candidate a full list gives up: the lowest count, the oldest of equal counts (R329). -/
def weakest : List Candidate → Option Candidate
  | [] => none
  | c :: cs =>
    match weakest cs with
    | none => some c
    | some d => if d.count < c.count ∨ (d.count = c.count ∧ d.first < c.first) then some d else some c

/-- Enter a repair candidate (R328, R329): a second event counts; a full list replaces its weakest entry. -/
def addCandidate (h : Hw) (c0 : Candidate) : Hw :=
  let c := { c0 with count := 1, first := h.tb.now, last := h.tb.now }
  let m := h.memhw
  if m.cands.any (sameCand c) then
    { h with memhw := { m with cands := m.cands.map (fun d => if sameCand c d then
        { d with count := d.count + 1, last := h.tb.now } else d) } }
  else if m.cands.length < 256 then { h with memhw := { m with cands := m.cands ++ [c] } }
  else
    match weakest m.cands with
    | none => h
    | some w => { h with memhw := { m with cands := m.cands.erase w ++ [c], discarded := m.discarded + 1 } }

/-- A row as a repair candidate from the address its bucket or error names: tier, unit and channel by the interleave
(R312, R314); rank, bank and row are the controller's own mapping (R313) and come with the event. -/
def candidateOf (h : Hw) (a rank bank row : Nat) : Option Candidate :=
  match regionOf a with
  | 0 => let c := farChannel (offsetOf a)
         some { tier := 3, unit := c.1, channel := c.2, rank := rank, bank := bank, row := row }
  | 1 => let p := nearPlace h (offsetOf a)
         some { tier := 2, unit := p.2.1, channel := p.2.2.2, rank := rank, bank := bank, row := row }
  | _ => none

/-- The row an uncorrectable error is attributed to becomes a repair candidate (R328). -/
def addRow (h : Hw) (a : Nat) : Hw :=
  match candidateOf h a (rowOf h a).1 (rowOf h a).2.1 (rowOf h a).2.2 with
  | some c => addCandidate h c
  | none => h

/-- A corrected error adds one event to the bucket of class `cls` (row of Table 11.5) and index `idx`; an overflow
reports to the Steward, raises its entry and makes a memory row a candidate (R345, R346). -/
def corrected (h : Hw) (cls idx addr : Nat) (cand : Option Candidate) : Hw :=
  let key := cls * 2 ^ 32 + idx
  let r := bucketEvent (tabGet {} h.ecc.buckets key) (h.ecc.cfg.getD cls {}) h.tb.now addr
  let h1 := { h with ecc := { h.ecc with buckets := tabPut {} h.ecc.buckets key r.1 } }
  if r.2 then
    let h2 := recordWrite h1 { type := 0x0502, cls := 1, part := 0xFF, addr := addr, arg0 := cls, unit := idx }
    let h3 := raise h2 0 h2.faults.intSteward
    match cand with
    | some c => if cls ≤ 1 then addCandidate h3 c else h3
    | none => h3
  else h1

/-- Islands that no partition owns whole, which partitions share (R107). -/
def sharedIsland (i : Island) : Bool := !decide (i.kind ∈ [.cluster, .quad, .ferryGroup, .cFerry])

/-- Whether a message of a class and partition finds a credit on a strait (R57): one of Table 2.3 is free, and of the REQ credits between
shared islands no partition holds more than half (Table 3.8). -/
def creditFree (a b : Island) (s : Strait) (cls : MsgClass) (part : Nat) : Bool :=
  let l := s.used.getD (classIdx cls) []
  decide (l.length < classCredits cls) &&
    !(decide (cls = MsgClass.req) && sharedIsland a && sharedIsland b && decide ((l.filter (· = part)).length ≥ classCredits cls / 2))

/-- Whether the sender has receive space left for the answers to one more REQ or SNP (R58); the space is the credits of CMP, and of RSP
(log entry 57). -/
def answerRoom (s : Strait) (cls : MsgClass) : Bool :=
  match cls with
  | .req => decide (s.answers.getD 0 0 < classCredits .cmp)
  | .snp => decide (s.answers.getD 1 0 < classCredits .rsp)
  | _ => true

/-- The place in `Strait.answers` of the answers to a class. -/
def answersTo (cls : MsgClass) : Option Nat :=
  match cls with
  | .req => some 0 | .snp => some 1 | _ => none

/-- The place in the far side's `Strait.answers` that the last flit of an answer frees: CMP or DAT answers a REQ, RSP a SNP (log entry
57). -/
def answered_ (cls : MsgClass) : Option Nat :=
  match cls with
  | .cmp | .dat => some 0 | .rsp => some 1 | _ => none

/-! ### Parity and replay (R59, R60) -/

/-- Set bits of a 16-bit word, modulo two: its parity bit. -/
def parityOf (w : Nat) : Nat := ((List.range 16).filter (bitOf w)).length % 2

/-- A word with its parity bit in bit 16 as it arrives, the bits in `ups` flipped. -/
def arrives (ups : List (Nat × Nat)) (i w : Nat) : Nat :=
  ups.foldl (fun x u => if u.1 = i ∧ u.2 ≤ 16 then x ^^^ 2 ^ u.2 else x) (w % 2 ^ 16 + parityOf w * 2 ^ 16)

/-- The sixteen words with parity of one transmission of a flit. -/
def transmission (f : StraitFlit) (k : Nat) : List Nat :=
  (List.range 16).map (fun i => arrives (f.upsets.getD k []) i (f.words.getD i 0))

/-- Whether a transmission shows a parity error in any word. -/
def parityBad (xs : List Nat) : Bool := xs.any (fun x => decide (parityOf x ≠ field x 16 16))

/-- How many transmissions of a flit in a row show a parity error before one does not. -/
def flitErrs (f : StraitFlit) : Nat := ((List.range f.upsets.length).takeWhile (fun k => parityBad (transmission f k))).length

/-- Errors cured by replay count in the strait's error counter, and each in its bucket (R60). -/
def countErrs (h : Hw) (a b : Island) (n : Nat) : Hw :=
  (List.range n).foldl (fun h _ => corrected h 6 (pairKey a b) 0 none)
    { h with straits := tabMod {} h.straits (pairKey a b) (fun s => { s with errors := s.errors + n }) }

/-- A message is delivered: it takes its credit, its flit is accepted, receive space is kept for its answer, and the space that was kept
for the answer it ends is free (R57 to R59). -/
def delivered (h : Hw) (a b : Island) (cls : MsgClass) (f : StraitFlit) (part : Nat) : Hw :=
  let s := straitAt h a b
  let i := classIdx cls
  let l := s.used.getD i []
  let h1 := setStrait h a b { s with
    used := if l.length < classCredits cls then s.used.set i (l ++ [part]) else s.used,
    answers := match answersTo cls with | some j => bump s.answers j | none => s.answers,
    buffer := f.words, got := (transmission f (flitErrs f)).map (· % 2 ^ 16),
    replays := s.replays + flitErrs f, delivered := bump s.delivered i }
  match answered_ cls with
  | some j => if f.ends then let r := straitAt h1 b a; setStrait h1 b a { r with answers := r.answers.set j (r.answers.getD j 0 - 1) } else h1
  | none => h1

/-- A message crosses a strait (R56 to R61, R73, R76): a class without a credit holds only itself (R57) while RSP and CMP
are always accepted (R58); REQ and SNP into a closing or waking island are held by RETRY (R73), and a waking island admits nothing before
it has the time base (R71); a flit with a parity error is discarded and sent again, at most three times, and each cured error counted into
the strait's bucket (R59, R60); a fourth is a cause of doubt (R61). A message to a gated island is the ghost responder's (GHOST_DISCARD). -/
def strait (h : Hw) (a b : Island) (cls : MsgClass) (f : StraitFlit) (part : Nat) : Hw :=
  let x := islandAt h b
  let s := straitAt h a b
  if ghosted h b || isolated h a then h
  else if retrying h b && (decide (cls = MsgClass.req) || decide (cls = MsgClass.snp)) then
    setIsland h b { x with held := x.held + 1 }
  else if !x.hasTb then h
  else if !(creditFree a b s cls part && answerRoom s cls) && !(decide (cls = MsgClass.rsp) || decide (cls = MsgClass.cmp)) then h
  else if flitErrs f ≤ 3 then countErrs (delivered h a b cls f part) a b (flitErrs f)
  else
    let u := if gateableKind a.kind then islandUnit a else islandUnit b
    causeOfDoubt (setStrait h a b { s with buffer := f.words, replays := s.replays + 3 })
      (if gateableKind a.kind || gateableKind b.kind then .unit else .package) u.1 u.2 part
      { type := 0x0203, arg0 := 0, arg1 := islandKey b }

/-- The receiver returns the `n` oldest credits of a class in use (R57). -/
def returnCredits (h : Hw) (a b : Island) (cls : MsgClass) (n : Nat) : Hw :=
  let s := straitAt h a b
  let i := classIdx cls
  setStrait h a b { s with used := s.used.set i ((s.used.getD i []).drop n) }

/-- A strait handshake has had no answer for 10 us (R61): a cause of doubt at the gateable end's unit, else the package. A RETRY or a
ghost's answer is an answer; an island that the grade lacks has no strait (R55). -/
def handshakeTimeout (h : Hw) (a b : Island) (part : Nat) : Hw :=
  let u := if gateableKind a.kind then islandUnit a else islandUnit b
  if !islandExists h a || !islandExists h b || ghosted h b || retrying h b then h
  else causeOfDoubt h (if gateableKind a.kind || gateableKind b.kind then .unit else .package) u.1 u.2 part
    { type := 0x0203, arg0 := 1, arg1 := islandKey b }

/-- A posted write that a ghost responder discards is counted and recorded (R76, R77). -/
def ghostWrite (h : Hw) (b : Island) (part ca : Nat) : Hw :=
  let x := islandAt h b
  let n := (x.ghostDiscard + 1) % 2 ^ 32
  recordWrite (setIsland h b { x with ghostDiscard := n })
    { type := 0x0201, part := part, unitKind := (islandUnit b).1, unit := (islandUnit b).2, addr := ca, arg0 := n }

/-- A ghost's answer to a REQ that is not a posted write: ISLAND_OFF; a read's carries data marked poisoned, whose bytes are free (R76). -/
def ghostAnswer (h : Hw) (read : Bool) : Hw :=
  let d := takeFreeBytes h 64
  if read then { d.2 with coh := { d.2.coh with answer := d.1, answerBad := 4, answerPoison := true } }
  else { h with coh := { h.coh with answer := [], answerBad := 4, answerPoison := false } }

/-- A ghost responder answers a message arriving at a gated island (Table 2.5, R76, R77). -/
def ghost (h : Hw) (b : Island) (cls : MsgClass) (kind : MsgKind) (part addr : Nat) : Hw :=
  if !ghosted h b then h
  else
    match cls, kind with
    | .req, .posted => ghostWrite h b part (toCompact h.ident.position addr)
    | .req, k => ghostAnswer h (decide (k = MsgKind.read))
    | .snp, _ => { h with coh := { h.coh with answer := [], answerBad := 0, answerPoison := false } }
    | c, _ => causeOfDoubt h .unit (islandUnit b).1 (islandUnit b).2 part { type := 0x0202, arg0 := classIdx c }

/-- The harts of a cluster are all stopped (Table 2.1). -/
def clusterStopped (h : Hw) (c : Nat) : Bool :=
  (List.range 8).all (fun k => let x := hartAt h (8 * c + k); decide (x.run = HartRun.stopped ∨ x.run = HartRun.off))

/-- Whether a shelf slot holds a swatch assigned to scratch (Table 2.1). -/
def slotHasScratch (h : Hw) (slot : Nat) : Bool :=
  h.sel.swatches.any (fun e => decide (regionOf (e.1 * 2 ^ 21) = 2) && decide (slotOfSwatch e.1 = slot)
    && decide (e.2.state = SwState.owned ∨ e.2.state = SwState.held))

/-- An island's straits open. -/
def reopen (h : Hw) (i : Island) : Hw := setIsland h i { islandAt h i with power := .open, held := 0, hasTb := true }

/-- A waking island whose clock runs, 4 us after its wake was requested, loads the time base from a sync marker (R71, Table 2.4). -/
def loadTb (now : Nat) (x : IslandState) : IslandState :=
  match x.power with
  | .waking t1 => if t1 + 4000 ≤ now then { x with hasTb := true } else x
  | _ => x

/-- A sync marker (R70): 1 us passes, less what is still to be slewed away at 1 ns in 16; a waking island whose clock runs takes the
time base from it (R71). DESIGN CHOICE (log entry 78): R70 bounds how fast the counter is slewed back and not how fast forward; a forward
correction is applied whole at the next marker. -/
def syncMarker (h : Hw) : Hw :=
  let s := h.tb.slew
  let step : Nat := 1000
  let back : Nat := if s < 0 then min (-s).toNat (step / 16) else 0
  let fwd : Nat := if s > 0 then s.toNat else 0
  let now := h.tb.now + (step - back) + fwd
  { h with tb := { h.tb with now := now, slew := s + back - fwd, markers := h.tb.markers + 1 },
           islands := tabMap {} h.islands (fun _ x => loadTb now x) }

end Sys2Proof.Machine
end

