-- ==== Sys2Proof/Machine/Translate.lean ====
section
/-! DEFINITION. Translation at submission (chapter 12): page-table walks of the ferry walkers (R357 to R359), shadow
extents (R360 to R362) and epochs (R364 to R367, R372). -/
namespace Sys2Proof.Machine

/-- The hardware and its byte memory, as an operation passes them on. -/
abbrev HM := Hw × Memory

/-! ### Where an address leads -/

/-- A root port. -/
def portAt (h : Hw) (n : Nat) : RootPort := tabGet {} h.edges.ports n

/-- The port a region 4 or 5 offset is sent to (R642). -/
def windowPort (h : Hw) (a : Nat) : Option Nat :=
  let o := offsetOf a / 2 ^ 20
  let first := if regionOf a = 4 then 0 else 16
  if isEcam a then none
  else ((List.range 16).map (· + first)).find? (fun n => let x := portAt h n; x.exists_ && decide (x.base ≤ o) && decide (o < x.limit))

/-- The CXL port a region 6 or 7 address is served by (R647). -/
def cxlPort (h : Hw) (a : Nat) : Option Nat :=
  let first := if regionOf a = 6 then 0 else 16
  let d := ((List.range 16).map (fun i => tabGet {} h.edges.decoders (first + i))).find? (fun d =>
    d.used && decide (d.first ≤ a) && decide (a < d.first + d.count * 2 ^ 21))
  d.bind (fun d => d.ports[(a - d.first) / 4096 % d.ports.length]?)

/-- Whether the port that serves an I/O or CXL address cannot carry the request: down or contained by DPC (R645, R648). -/
def portDead (h : Hw) (a : Nat) : Bool :=
  match regionOf a with
  | 4 | 5 =>
    match windowPort h a with
    | some n => let x := portAt h n; !x.up || x.contained
    | none => false
  | 6 | 7 =>
    match cxlPort h a with
    | some n => let x := portAt h n; !x.up || x.contained || x.mediaBad
    | none => false
  | _ => false

/-- The C ferry complex whose slip page an offset of region 3 lies in (Tables 13.1, 23.1). -/
def pageComplex (o : Nat) : Option Nat :=
  let f := o % 2 ^ 24
  if o < 17 * 2 ^ 24 ∧ 0x400000 + 960 * 0x1000 ≤ f ∧ f < 0x800000 then some ((f - 0x400000) / 0x1000 / 32 - 30) else none

/-- The gateable island an access to a local address ends at, if it ends at one: the shelf slice of region 2, the C ferry complex that
holds a slip's registers, the root port of regions 4 to 7 (R43, R642, R647, Table 2.1). -/
def targetIsland (h : Hw) (a : Nat) : Option Island :=
  match regionOf a with
  | 2 => some { kind := .shelf, idx := slotOf (offsetOf a) }
  | 3 => (pageComplex (offsetOf a)).map (fun c => { kind := .cFerry, idx := c })
  | 4 | 5 => (windowPort h a).map (fun n => { kind := .rootPort, idx := n / 4 })
  | 6 | 7 => (cxlPort h a).map (fun n => { kind := .rootPort, idx := n / 4 })
  | _ => none

/-- Whether a local address lies behind a gated island, whose ghost responder answers (R76). -/
def behindGhost (h : Hw) (a : Nat) : Bool :=
  match targetIsland h a with
  | some i => ghosted h i
  | none => false

/-- A posted write that ends at a gated island is discarded, counted and recorded for the acting partition (R76, R77). -/
def discardPosted (h : Hw) (p ca : Nat) : Hw :=
  match targetIsland h (compactLocal ca) with
  | some i => ghostWrite h i p ca
  | none => h

/-- An access that ends at an island that answers RETRY waits (R73). -/
def retryStall (h : Hw) (a : Nat) (write : Bool := false) : Hw :=
  match targetIsland h a with
  | some i => if retrying h i then stall h { line := lineOf a, island := some i, write := write } else h
  | none => h

/-- READ_ONCE of a line at its home (Table 7.7); where the home is not ready it waits. -/
def readOnce (h : Hw) (p line : Nat) : Hw :=
  let q : DirReq := { kind := .readOnce, agent := .other, part := p }
  if notReady h line q then stall h { line := line, req := q }
  else
    let e := dirAt h line
    homeTurn (if e.once then setDir h line { e with once := false } else h) line { q with snooped := e.once }

/-! ### Epochs -/

/-- Number of an epoch of a partition: 0 ALL, 1 to 64 the ASID classes, 65 to 80 the VMID classes (R364). -/
def epochAt (h : Hw) (p i : Nat) : W32 := tabGet 0 h.eng.epochs (81 * p + i)

/-- Epoch index of an ASID's class. -/
def asidEpoch (a : Nat) : Nat := 1 + a % 64

/-- Epoch index of a VMID's class. -/
def vmidEpoch (v : Nat) : Nat := 65 + v % 16

/-- Whether a descriptor's snapshot differs from a current epoch of its partition (R365). -/
def stale (h : Hw) (p : Nat) (d : Desc) : Bool :=
  decide (d.snapAll ≠ epochAt h p 0) || decide (d.snapAsid ≠ epochAt h p (asidEpoch d.asid))
    || (decide (d.gmode ≠ 0) && decide (d.snapVmid ≠ epochAt h p (vmidEpoch d.vmid)))

/-- Take a fresh snapshot (R364, R365). -/
def snapshot (h : Hw) (p : Nat) (d : Desc) : Desc :=
  { d with snapAll := epochAt h p 0, snapAsid := epochAt h p (asidEpoch d.asid),
           snapVmid := if d.gmode = 0 then 0 else epochAt h p (vmidEpoch d.vmid) }

/-! ### Page-table walks -/

/-- The context a walk runs under (Table 12.1), with the acting partition and what the array answers a PTE read. -/
structure WalkCtx where
  part  : Nat
  mode  : Nat
  root  : Nat
  gmode : Nat
  groot : Nat
  priv  : Bool
  sum   : Bool
  mxr   : Bool
  adue  : Bool
  upset : Upset := .clean

/-- What a translation of one page answers: a compact address with the bytes that follow it contiguously in its page, or
a fault reason of Table 12.5 with the guest physical address concerned and, where an access of the walk failed, its PTE's address. -/
inductive WalkOut where
  | page (pa : Nat) (left : Nat) (perms gperms : Nat)
  | fault (reason gpa pte : Nat)

/-- A PTE the walker keeps (R378). -/
def keptPte (h : Hw) (ca : Nat) : Option Nat := (h.eng.kept.find? (fun e => decide (e.1 = ca))).map (·.2)

/-- The walker keeps a PTE it has read: a non-leaf alone, a leaf with the other seven of its 64-byte line (R378). `line` is what the read
brought, empty for a PTE it already kept. -/
def keepPte (hm : HM) (ca p : Nat) (line : List Nat) (leaf : Bool) : HM :=
  let new := if line.isEmpty then [] else if leaf then (List.range 8).map (fun i => (ca / 64 * 64 + 8 * i, line.getD i 0)) else [(ca, p)]
  ({ hm.1 with eng := { hm.1.eng with kept := hm.1.eng.kept.filter (fun e => new.all (fun n => decide (n.1 ≠ e.1))) ++ new } }, hm.2)

/-- The walker forgets a PTE whose compare-and-swap has failed, to read it again (R358). -/
def forgetPte (hm : HM) (ca : Nat) : HM :=
  ({ hm.1 with eng := { hm.1.eng with kept := hm.1.eng.kept.filter (fun e => decide (e.1 ≠ ca)) } }, hm.2)

/-- The eight PTEs of a 64-byte line. -/
def lineWords (bs : List Byte) : List Nat := (List.range 8).map (fun i => leAt bs (8 * i) 8)

/-- Read the line of one PTE as an access of the acting partition (R359), by READ_ONCE; reasons 0x10 to 0x13 of Table 12.5. A gated
island's ghost and a dead port answer poisoned. -/
def readPteLine (c : WalkCtx) (hm : HM) (ca : Nat) : HM × Except Nat (List Nat) :=
  let h := hm.1
  let a := compactLocal ca
  let line := ca / 64 * 64
  if !isLocal h ca then
    if isMember h (compactPos ca) && !memberFenced h then
      match remoteStatus h c.part ca with
      | 1 => (hm, .error 0x10)
      | 2 => (((remoteRead (readyAfar h (line / 64)) c.part line 64).2, hm.2), .error 0x11)
      | _ => let r := remoteRead (readyAfar h (line / 64)) c.part line 64; ((r.2, hm.2), .ok (lineWords r.1))
    else (hm, .error 0x12)
  else if regionOf a ∈ [3, 4, 5] ∨ !selPiece h c.part a false then (hm, .error 0x10)
  else if behindGhost h a || portDead h a || poisoned h a then (hm, .error 0x11)
  else if c.upset.isUe then (hm, .error 0x13)
  else ((readOnce (retryStall h a) c.part (lineOf a), hm.2), .ok (lineWords (cohRead h hm.2 (lineOf a * 64) 64)))

/-- One PTE: as the walker keeps it, or read; with it the line the read brought, empty for a PTE it kept (R378). -/
def readPte (c : WalkCtx) (hm : HM) (ca : Nat) : HM × Except Nat (Nat × List Nat) :=
  match keptPte hm.1 ca with
  | some p => (hm, .ok (p, []))
  | none =>
    match readPteLine c hm ca with
    | (hm1, .ok ps) => (hm1, .ok (ps.getD (ca / 8 % 8) 0, ps))
    | (hm1, .error r) => (hm1, .error r)

/-- What a failed compare-and-swap answers in place of a reason of Table 12.5: the walker reads the PTE again (R358). -/
def casFailed : Nat := 0x100

/-- Set bits of a PTE by compare-and-swap at its home atomic unit (R358): an access of the partition, refused where a write is, and
failing where the PTE is no longer as it was read. Another package's home is sent the compare-and-swap, an atomic of Table 7.7. -/
def writePte (c : WalkCtx) (hm0 : HM) (ca old v : Nat) : Except Nat HM :=
  let a := compactLocal ca
  let q : DirReq := { kind := .atomicHome, agent := .other }
  let hm := keepPte hm0 ca v [v] false
  if isLocal hm.1 ca then
    if !selPiece hm.1 c.part a true then .error 0x10
    else if leNat (cohRead hm.1 hm.2 a 8) ≠ old then .error casFailed
    else if notReady hm.1 (lineOf a) q then .ok (stall hm.1 { line := lineOf a, req := collectReq (lineOf a), write := true }, hm.2)
    else
      let hm1 := cohWrite hm a (leBytes 8 v)
      .ok (homeTurn (dropResv (retryStall hm1.1 a true) (lineOf a) none) (lineOf a) q, hm1.2)
  else .ok ((atomicAfar hm.1 c.part 7 ca 8 v old 10).2, hm.2)

/-- Bits of a PTE. -/
def pteV (p : Nat) : Bool := bitOf p 0
def pteR (p : Nat) : Bool := bitOf p 1
def pteW (p : Nat) : Bool := bitOf p 2
def pteX (p : Nat) : Bool := bitOf p 3
def pteU (p : Nat) : Bool := bitOf p 4
def pteA (p : Nat) : Bool := bitOf p 6
def pteD (p : Nat) : Bool := bitOf p 7

/-- Whether a PTE is a leaf. -/
def pteLeaf (p : Nat) : Bool := pteR p || pteX p

/-- Whether a first-stage leaf denies an access in its context (R357). -/
def pteDenies (c : WalkCtx) (write : Bool) (p : Nat) : Bool :=
  (if pteU p then c.priv && !c.sum else !c.priv) || (!write && !(pteR p || (c.mxr && pteX p))) || (write && !pteW p)

/-- Whether a second-stage leaf denies an access: every access of the second stage is a U-mode access (R357). -/
def gpteDenies (write : Bool) (p : Nat) : Bool := !pteU p || (!write && !pteR p) || (write && !pteW p)

/-- Whether a leaf's A and D bits do not yet allow an access (R358). -/
def pteAdClear (write : Bool) (p : Nat) : Bool := !pteA p || (write && !pteD p)

/-- A leaf with the A bit, and for a write the D bit, set. -/
def pteAdSet (write : Bool) (p : Nat) : Nat := p ||| 0x40 ||| (if write then 0x80 else 0)

/-- Whether a PTE carries a reserved bit or encoding (R357): bits [60:54], PBMT 3, W without R; in a non-leaf the D, A
and U bits, the N bit and PBMT too; in a leaf the N bit away from a 64 KiB NAPOT page; a misaligned superpage. -/
def pteReserved (p level : Nat) : Bool :=
  decide (field p 60 54 ≠ 0) || decide (field p 62 61 = 3) || (pteW p && !pteR p) ||
  (if pteLeaf p then
     (bitOf p 63 && (decide (level ≠ 0) || decide (field p 13 10 ≠ 8))) ||
     decide (field p (10 + 9 * level - 1) 10 ≠ 0 ∧ level ≠ 0)
   else bitOf p 63 || decide (field p 62 61 ≠ 0) || pteD p || pteA p || pteU p)

/-- The page a leaf at a level maps an address to: base and size; a NAPOT leaf maps 64 KiB (R357). -/
def leafPage (p level va : Nat) : Nat × Nat :=
  let size := if bitOf p 63 then 65536 else 4096 * 2 ^ (9 * level)
  let ppn := if bitOf p 63 then field p 53 10 - 8 else field p 53 10
  (ppn * 4096 / size * size + va % size, size - va % size)

/-- The second-stage walk of a guest physical address from a level down (R357): U-mode access, reasons 0x06 to 0x09. -/
def gWalk (c : WalkCtx) (write : Bool) (gpa : Nat) : Nat → Nat → HM → HM × WalkOut
  | level, table, hm0 =>
    let top := if c.gmode = 9 then 3 else 4
    let idx := if level = top then field gpa (12 + 9 * level + 10) (12 + 9 * level)
               else field gpa (12 + 9 * level + 8) (12 + 9 * level)
    let ca := table + 8 * idx
    match readPte c hm0 ca with
    | (hm1, .error r) => (hm1, .fault r gpa ca)
    | (hm1, .ok (p, ps)) =>
      let hm := keepPte hm1 ca p ps (pteLeaf p)
      if !pteV p then (hm, .fault 0x06 gpa ca)
      else if pteReserved p level then (hm, .fault 0x09 gpa ca)
      else if pteLeaf p then
        if gpteDenies write p then (hm, .fault 0x07 gpa ca)
        else if pteAdClear write p then
          if c.adue then
            match writePte c hm ca p (pteAdSet write p) with
            | .ok hm' => (hm', .page (leafPage p level gpa).1 (leafPage p level gpa).2 0 (field (pteAdSet write p) 7 0))
            | .error r => (hm, .fault r gpa ca)
          else (hm, .fault 0x08 gpa ca)
        else (hm, .page (leafPage p level gpa).1 (leafPage p level gpa).2 0 (field p 7 0))
      else
        match level with
        | 0 => (hm, .fault 0x06 gpa ca)
        | l + 1 => gWalk c write gpa l (field p 53 10 * 4096) hm

/-- Translate a guest physical address: itself when GMODE is Bare, else through the second stage after the x4 range
check (R362, G_RANGE). -/
def gTranslate (c : WalkCtx) (write : Bool) (gpa : Nat) (hm : HM) : HM × WalkOut :=
  if c.gmode = 0 then (hm, .page gpa (4096 - gpa % 4096) 0 0)
  else if gpa ≥ 2 ^ (if c.gmode = 9 then 50 else 59) then (hm, .fault 0x0A gpa 0)
  else gWalk c write gpa (if c.gmode = 9 then 3 else 4) c.groot hm

/-- The first-stage walk of a virtual address from a level down (R357): reasons 0x01 to 0x04; its table reads pass the
second stage as U-mode reads. -/
def vWalk (c : WalkCtx) (write : Bool) (va : Nat) : Nat → Nat → HM → HM × WalkOut
  | level, table, hm0 =>
    let gpte := table + 8 * field va (12 + 9 * level + 8) (12 + 9 * level)
    match gTranslate c false gpte hm0 with
    | (hm, .fault r g q) => (hm, .fault r g q)
    | (hm1, .page ca _ _ _) =>
      match readPte c hm1 ca with
      | (hm, .error r) => (hm, .fault r 0 ca)
      | (hm2, .ok (p, ps)) =>
        let hm := keepPte hm2 ca p ps (pteLeaf p)
        if !pteV p then (hm, .fault 0x01 0 ca)
        else if pteReserved p level then (hm, .fault 0x04 0 ca)
        else if pteLeaf p then
          if pteDenies c write p then (hm, .fault 0x02 0 ca)
          else
            let out := leafPage p level va
            if pteAdClear write p then
              if c.adue then
                match gTranslate c true gpte hm with
                | (hm1, .fault r g q) => (hm1, .fault r g q)
                | (hm1, .page cw _ _ _) =>
                  match writePte c hm1 cw p (pteAdSet write p) with
                  | .ok hm2 => (hm2, .page out.1 out.2 (field (pteAdSet write p) 7 0) 0)
                  | .error r => (hm1, .fault r 0 cw)
              else (hm, .fault 0x03 0 ca)
            else (hm, .page out.1 out.2 (field p 7 0) 0)
        else
          match level with
          | 0 => (hm, .fault 0x01 0 ca)
          | l + 1 => vWalk c write va l (field p 53 10 * 4096) hm

/-- Whether a virtual address is canonical for Sv48 or Sv57. -/
def canonical (mode va : Nat) : Bool :=
  let top := if mode = 9 then 47 else 56
  decide (field va 63 top = 0) || decide (field va 63 top = 2 ^ (64 - top) - 1)

/-- Translate one virtual address of a buffer in full: the compact address and how many bytes follow it in the page of
both stages, or the fault (Table 12.5), or that a compare-and-swap has failed. -/
def walkBoth (c : WalkCtx) (write : Bool) (va : Nat) (hm : HM) : HM × WalkOut :=
  if c.mode = 0 ∧ c.gmode = 0 then
    if va ≥ 2 ^ 56 then (hm, .fault 0x05 0 0) else (hm, .page va (2 ^ 56 - va) 0 0)
  else if c.mode = 0 then gTranslate c write va hm
  else if !canonical c.mode va then (hm, .fault 0x05 0 0)
  else
    match vWalk c write va (if c.mode = 9 then 3 else 4) c.root hm with
    | (hm1, .fault r g q) => (hm1, .fault r g q)
    | (hm1, .page gpa left pm _) =>
      match gTranslate c write gpa hm1 with
      | (hm2, .fault r g q) => (hm2, .fault r g q)
      | (hm2, .page pa left2 _ gp) => (hm2, .page pa (if c.gmode = 0 then left else min left left2) pm gp)

/-- Translate one virtual address with the PTEs the walker keeps: a PTE whose compare-and-swap fails is read again and its check repeated
(R358). Only a kept PTE can fail, so at most as many times as it keeps. -/
def retranslate (c : WalkCtx) (write : Bool) (va : Nat) : Nat → HM → HM × WalkOut
  | 0, hm => walkBoth c write va hm
  | n + 1, hm =>
    match walkBoth c write va hm with
    | (hm1, .fault r g q) => if r = casFailed then retranslate c write va n (forgetPte hm1 q) else (hm1, .fault r g q)
    | o => o

/-- One page-table walk by a walker that keeps what `hm.1.eng.kept` holds. -/
def translate (c : WalkCtx) (write : Bool) (va : Nat) (hm : HM) : HM × WalkOut := retranslate c write va hm.1.eng.kept.length hm

/-! ### Extents (R360, R361) -/

/-- Append a run to the extents, joining a physically contiguous run of the same buffer and dividing at swatch
boundaries; at most `fuel` swatches. -/
def addRun : Nat → List Extent → Nat → Nat → Nat → Nat → Bool → List Extent
  | 0, es, _, _, _, _, _ => es
  | fuel + 1, es, buf, voff, len, pa, wr =>
    if len = 0 then es
    else
      let here := min len (2 ^ 21 - pa % 2 ^ 21)
      let es' := match es.reverse with
        | e :: r =>
          if e.buf = buf ∧ e.voff + e.len = voff ∧ e.paddr + e.len = pa ∧ pa % 2 ^ 21 ≠ 0 then
            (({ e with len := e.len + here } : Extent) :: r).reverse
          else es ++ [{ buf := buf, voff := voff, len := here, paddr := pa, wr := wr }]
        | [] => [{ buf := buf, voff := voff, len := here, paddr := pa, wr := wr }]
      addRun fuel es' buf (voff + here) (len - here) (pa + here) wr

/-- The compact address of a byte of a buffer through the extents (R363), with the bytes that follow it in its extent. -/
def extAddr (es : List Extent) (buf off : Nat) : Option (Nat × Nat) :=
  (es.find? (fun e => decide (e.buf = buf) && decide (e.voff ≤ off) && decide (off < e.voff + e.len))).map
    (fun e => (e.paddr + (off - e.voff), e.voff + e.len - off))

end Sys2Proof.Machine
end

