-- ==== Sys2Proof/Machine/Wake.lean ====
section
/-! DEFINITION. The wake report (Table 5.9) and the way out of Idle and Drowse (R170, R181). -/
namespace Sys2Proof.Machine

/-- The wake report (Table 5.9) with its log record (R182). Scratch and bobbins are lost only by Dormant. DESIGN CHOICE (log entry 88): no
table says when the last word is valid; here LAST_WORD_VALID is 1 where it is not zero. -/
def writeReport (h : Hw) (from_ cause entry training : Nat) : Hw :=
  let dorm := decide (from_ = 4)
  let lostSw := h.sel.swatches.filter (fun e => dorm && decide (regionOf (e.1 * 2 ^ 21) = 2) && decide (e.2.state = SwState.owned))
  let lostQ := h.sel.units.filter (fun e => dorm && decide (e.1 / 2 ^ 32 = 3) && decide (e.2.owner ≤ 16))
  let funcs := if dorm then h.edges.funcs.length else if from_ = 2 then h.start.resetFuncs else 0
  let swOf (p : Nat) : Nat := (lostSw.filter (fun e => decide (e.2.owner = p))).length
  let qOf (p : Nat) : Nat := (lostQ.filter (fun e => decide (e.2.owner = p))).length
  let ownsFn (p : Nat) : Bool := dorm && h.sel.units.any (fun e => decide (e.1 / 2 ^ 32 = 9 ∧ e.2.owner = p))
  let hit (p : Nat) : Bool := decide (swOf p ≠ 0) || decide (qOf p ≠ 0) || ownsFn p
  let bitOfSw (k : Nat) : Nat := 6 * slotOfSwatch k + field (k * 2 ^ 21) 23 21
  let lw := h.keep.lastWord.toNat
  let fl := flag h.keep.kaLost + 2 * flag (decide (lw ≠ 0)) + 4 * flag (decide (from_ = 2 ∧ cause = 4)) + 8 * flag h.tb.unsynced
  let w := h.start.wakeSeq
  let bytes := leBytes 4 0x4B415759 ++ leBytes 2 1 ++ leBytes 2 0x80 ++ leBytes 8 w ++ leBytes 1 from_ ++ leBytes 1 cause ++ leBytes 1 training
    ++ leBytes 1 fl ++ zeros 4 ++ leBytes 8 entry ++ leBytes 8 h.tb.now ++ leBytes 8 lw ++ leBytes 4 lostSw.length ++ leBytes 4 lostQ.length
    ++ leBytes 4 (bitmapNat 17 hit) ++ leBytes 2 funcs ++ zeros 2
    ++ leBytes 24 (bitmapNat 192 (fun b => lostSw.any (fun e => decide (bitOfSw e.1 = b)))) ++ zeros 40
  let h1 := recordWrite { h with start := { h.start with report := bytes, wakeSeq := w + 1 } }
    { type := 0x0302, cls := 0, part := 0xFF, arg0 := w, arg1 := from_ + 256 * cause }
  ((List.range 17).filter (fun p => decide (p ≠ 0) && hit p)).foldl (fun h p =>
    recordWrite h { type := 0x0303, cls := 0, part := p, addr := w,
                    arg0 := from_ + 256 * cause + swOf p * 2 ^ 32, arg1 := qOf p, arg2 := h.tb.now }) h1

/-- CAUSE of a wake from Drowse or Dormant (Table 5.9). -/
def wakeCode : WakeBy → Nat
  | .traffic => 1 | .pin => 2 | .alarm => 3 | .causeway => 4 | .keeper => 5

/-- EXIT_TRIGGER: Idle ends with no report; Drowse ends with one (R181). -/
def exitTrigger (h : Hw) (by_ : WakeBy) : Hw :=
  match h.start.st with
  | .idle => { h with start := { h.start with st := .active, since := h.tb.now } }
  | .drowse =>
    writeReport { h with start := { h.start with st := .active, since := h.tb.now } } 3 (wakeCode by_) h.start.entryTb 0
  | _ => h

/-- Traffic ends Idle and Drowse (Table 5.7): a slip's or a mailbox's doorbell, inbound PCIe, CXL or Idurrum traffic, a causeway frame for
this package. -/
def stir (h : Hw) : Hw := exitTrigger h .traffic

end Sys2Proof.Machine
end

