-- ==== Sys2Proof/Machine/Slips.lean ====
section
/-! DEFINITION. Slips and ferries (chapter 13): doorbells, slip states, fetching, staging, dispatch in slip order,
halts, stops and completion records. The bodies of descriptors stand in the files of their opcode groups. -/
namespace Sys2Proof.Machine

/-! ### Slips -/

/-- The die of a slip: A0 to A3 are 0 to 3, C0 and C1 are 4 and 5 (Table 13.1). -/
def slipDie (s : Nat) : Nat := if s < 960 then s / 240 else 4 + (s - 960) / 32

/-- The die of a ferry group (Table 13.1). -/
def groupDie (g : Nat) : Nat := if g < 32 then g / 8 else 4 + (g - 32)

/-- The die of a loom quad (Table 1.1). -/
def quadDie (q : Nat) : Nat := q / 32

/-- Entries of the rings: 2^LOG2_SIZE (R387). -/
def slipSize (x : Slip) : Nat := 2 ^ x.log2

/-- PHASE of a completion record (R415). -/
def recPhase (x : Slip) (seq : W32) : Nat := if seq.toNat / slipSize x % 2 = 0 then 1 else 0

/-- SLP_STATE.STATE (Table 23.9). -/
def slipStCode : SlipSt → Nat
  | .disabled => 0 | .running => 1 | .stopped => 2 | .disabling => 3 | .fenced => 4

/-- Whether a slip is enabled: served by its ferry (R386). -/
def slipEnabled (x : Slip) : Bool := decide (x.st ≠ SlipSt.disabled)

/-- Enabled slips of a ferry (R386). -/
def ferrySlips (h : Hw) (f : Nat) : List Nat :=
  (h.eng.slips.filter (fun e => slipEnabled e.2 && decide (8 * e.2.group + e.2.ferry = f))).map (·.1)

/-- Places a slip's descriptors occupy: from staging until the record is final (R400). -/
def placesOf (x : Slip) : Nat :=
  (x.descs.filter (fun d => decide (d.phase ≠ Phase.fetched ∧ d.phase ≠ Phase.final))).length

/-- Places a slip's descriptors hold or are about to: a fetched one is staged next. -/
def heldPlaces (x : Slip) : Nat := (x.descs.filter (fun d => decide (d.phase ≠ Phase.final))).length

/-- The ferry that serves a slip. -/
def servingFerry (x : Slip) : Nat := 8 * x.group + x.ferry

/-- Bolt misses that hold a place of a ferry: those being served (R293). -/
def missPlaces (h : Hw) (f : Nat) : Nat :=
  (h.tiers.misses.filter (fun m => m.transit.isSome && decide (servingFerry (slipAt h m.slip) = f))).length

/-- Shared places of a ferry that are free (R400): of 128, one is reserved per enabled slip for its oldest staged descriptor and sixteen
for bolt misses; descriptors and misses beyond these share the rest. -/
def sharedFree (h : Hw) (f : Nat) : Nat :=
  let sl := ferrySlips h f
  112 - sl.length - sl.foldl (fun n t => n + (heldPlaces (slipAt h t) - 1)) 0 - (missPlaces h f - 16)

/-- Places a slip's further descriptors may take: the one reserved for it while it holds none, and the shared ones. -/
def placesFree (h : Hw) (s : Nat) : Nat :=
  (if heldPlaces (slipAt h s) = 0 then 1 else 0) + sharedFree h (servingFerry (slipAt h s))

/-- Whether a bolt miss finds a place of its ferry (R293, R400). -/
def missPlace (h : Hw) (f : Nat) : Bool := decide (missPlaces h f < 16) || decide (0 < sharedFree h f)

/-! ### Registers of a slip page -/

/-- A doorbell value (R391): accepted when HEAD - DONE <= v - DONE <= SIZE modulo 2^32, else DB_OVERRUN. -/
def doorbell (x : Slip) (v : W32) : Slip :=
  if (x.head - x.done).toNat ≤ (v - x.done).toNat ∧ (v - x.done).toNat ≤ slipSize x then { x with tail := v }
  else { x with dbOverrun := true }

/-- A write of SLP_DONE of a disabled slip (R397). -/
def writeDone (x : Slip) (v : W32) : Slip :=
  if x.st = SlipSt.disabled ∧ (x.tail - v).toNat ≤ slipSize x then { x with done := v, head := v, skip := [], resume := 0 }
  else x

/-- A write of SLP_RING of a disabled slip (R397, R704): an out-of-range LOG2_SIZE keeps its value; a size that breaks
the ring invariant leaves the register unchanged. -/
def writeRing (x : Slip) (w : W64) : Slip :=
  if x.st = SlipSt.disabled then
    let l := field w.toNat 4 0
    let l' := if 4 ≤ l ∧ l ≤ 16 then l else x.log2
    if (x.tail - x.done).toNat ≤ 2 ^ l' then { x with log2 := l', ring := field w.toNat 55 12 * 4096 } else x
  else x

/-- A write of SLP_CRING of a disabled slip. -/
def writeCring (x : Slip) (w : W64) : Slip :=
  if x.st = SlipSt.disabled then { x with cring := field w.toNat 55 12 * 4096 } else x

/-- A write of SLP_CFG of a disabled slip (R394, R704): fields outside their ranges keep their values. -/
def writeCfg (x : Slip) (w : W64) : Slip :=
  let n := w.toNat
  if x.st = SlipSt.disabled then
    { x with group := if field n 5 0 ≤ 33 then field n 5 0 else x.group, ferry := field n 8 6, cls := field n 10 9,
             depth := if 1 ≤ field n 18 11 ∧ field n 18 11 ≤ 128 then field n 18 11 else x.depth,
             stopIrq := field n 47 32 }
  else x

/-- A write of SLP_CTX0 to SLP_CTX2 of a disabled slip (R355, R356): MODE and GMODE take any value. -/
def writeCtx (x : Slip) (i : Nat) (w : W64) : Slip :=
  let n := w.toNat
  if x.st ≠ SlipSt.disabled then x
  else match i with
    | 0 => { x with mode := field n 3 0, root := field n 47 4 * 4096, asid := field n 63 48 }
    | 1 => { x with gmode := field n 3 0, groot := field n 45 4 * 16384, vmid := field n 59 46 }
    | _ => { x with priv := bitOf n 0, sum := bitOf n 1, mxr := bitOf n 2, adue := bitOf n 3 }

/-- The value a slip register reads (Table 23.9). -/
def slipReg (x : Slip) (off : Nat) : W64 :=
  match off with
  | 0x008 => w64 x.tail.toNat
  | 0x010 => w64 x.head.toNat
  | 0x018 => w64 x.done.toNat
  | 0x020 => w64 (x.log2 + x.ring)
  | 0x028 => w64 x.cring
  | 0x030 => w64 (x.group + x.ferry * 2 ^ 6 + x.cls * 2 ^ 9 + x.depth * 2 ^ 11 + x.stopIrq * 2 ^ 32)
  | 0x038 => w64 (x.mode + x.root / 4096 * 2 ^ 4 + x.asid * 2 ^ 48)
  | 0x040 => w64 (x.gmode + x.groot / 16384 * 2 ^ 4 + x.vmid * 2 ^ 46)
  | 0x048 => w64 (flag x.priv + 2 * flag x.sum + 4 * flag x.mxr + 8 * flag x.adue)
  | 0x058 => w64 (slipStCode x.st + x.stopStatus * 2 ^ 8 + x.reason * 2 ^ 16 + flag x.dbOverrun * 2 ^ 24
                  + x.stopSeq.toNat * 2 ^ 32)
  | _ => 0

/-! ### Records of halts (R737, R382) -/

/-- Register order of the fault record types a halt reason names; none where no record is written (R737). -/
def haltType (op reason : Nat) : Option Nat :=
  if reason = 0x41 ∧ op = 0x62 then none
  else if reason = 0x44 ∧ op = 0x40 then some 0x0608
  else match reason with
  | 0x20 => some 0x0101
  | 0x21 => some 0x0501
  | 0x26 => some 0x0603
  | 0x27 => some 0x0604
  | 0x28 => some 0x0605
  | 0x29 => some 0x0607
  | 0x2A | 0x2B => none
  | _ => some 0x0602

/-- The bolt a descriptor concerns, as ARG2 of its records: OBJ_ID in [47:32], BOLT_INDEX in [31:0]. -/
def boltArg (d : Desc) : Nat :=
  if 0x14 ≤ leAt d.bytes 0 1 ∧ leAt d.bytes 0 1 ≤ 0x19 then leAt d.bytes 0x10 2 * 2 ^ 32 + leAt d.bytes 0x14 4 else 0

/-- A descriptor halts with a reason and the one record R737 gives it. -/
def haltDesc (h : Hw) (s : Nat) (d : Desc) (reason : Nat) : Hw :=
  let p := slipOwner h s
  let h1 := match haltType (opcode d) reason with
    | none => h
    | some 0x0101 => refuseEngine h p 0 (descArg s d.seq.toNat)
    | some t => recordWrite h
        { type := t, cls := if t = 0x0501 then 2 else 0, part := p, arg0 := descArg s d.seq.toNat,
          arg1 := if t = 0x0501 then 0 else reason, arg2 := boltArg d }
  endDesc h1 s d 0x09 reason

/-- SOURCE of bad data read at a local address (Table 6.8). -/
def ueSource (a : Nat) : Nat := match regionOf a with | 0 => 8 | 1 => 7 | 2 => 6 | _ => 9

/-- A detected uncorrectable error at an address: its line is marked, its row becomes a repair candidate, and UE_READ names the
descriptor, the line and its source (R328, R342, R344). -/
def ueRead (h : Hw) (s : Nat) (d : Desc) (addr source : Nat) : Hw :=
  recordWrite (addRow (markPoison h addr) addr)
    { type := 0x0501, cls := 2, part := slipOwner h s, addr := toCompact h.ident.position (addr / 64 * 64),
      arg0 := descArg s d.seq.toNat, arg1 := source, unitKind := 5, unit := s }

/-- A descriptor halts on a detected uncorrectable error at an address: the channel halt of R344. -/
def haltUe (h : Hw) (s : Nat) (d : Desc) (addr source : Nat) : Hw :=
  endDesc (ueRead h s d addr source) s d 0x09 0x21

/-- A descriptor halts on an address the selvedge refuses (R79, R90). -/
def haltRefused (h : Hw) (s : Nat) (d : Desc) (addr : Nat) : Hw :=
  endDesc (refuseEngine h (slipOwner h s) addr (descArg s d.seq.toNat)) s d 0x09 0x20

/-- Completion status of a translation fault reason (Table 12.5). -/
def xlatStatus (reason : Nat) : Nat :=
  match reason with
  | 0x10 | 0x13 => 0x09
  | 0x11 => 0x01
  | 0x12 => 0x05
  | _ => 0x02

/-- A translation fault (R379 to R382): the descriptor ends with the reason and buffer; an XLAT_FAULT record, and
SEL_REFUSED or UE_READ beside it for WALK_REFUSED and WALK_UE. -/
def xlatFault (h : Hw) (s : Nat) (d : Desc) (f : WalkFault) (doneBytes : Nat) : Hw :=
  let p := slipOwner h s
  let w1 := s % 2 ^ 16 + f.reason * 2 ^ 16 + f.buf * 2 ^ 24 + d.seq.toNat * 2 ^ 32
  let va := field f.va 56 12
  let g := if 0x06 ≤ f.reason ∧ f.reason ≤ 0x0A then field f.gpa 58 12 else 0
  let pte := if isLocal h f.pte then compactLocal f.pte else 2 ^ 60 + f.pte
  let h1 := recordWrite h
    { type := 0x0601, part := p, addr := w1, arg0 := va + field g 15 0 * 2 ^ 48,
      arg1 := field g 46 16 + d.snapAll.toNat * 2 ^ 32, arg2 := d.snapAsid.toNat + d.snapVmid.toNat * 2 ^ 32 }
  let h2 := if f.reason = 0x10 then refuseEngine h1 p pte (descArg s d.seq.toNat)
            else if f.reason = 0x13 then ueRead h1 s d (compactLocal f.pte) (ueSource (compactLocal f.pte))
            else h1
  endDesc h2 s { d with buf := f.buf, doneBytes := doneBytes } (xlatStatus f.reason) f.reason

/-! ### Arbitration among slips (R399) -/

/-- The next ready slip of a class after the one served last, in round robin. -/
def roundRobin (ready : List Nat) (last : Nat) : Option Nat :=
  match ready.find? (fun s => decide (last < s)) with
  | some s => some s
  | none => ready.head?

/-- Choose a slip (R399): the lowest-numbered class with a ready one, but a class passed over for 15 choices takes the
16th. Answers the slip and the arbiter after the choice. -/
def choose (h : Hw) (a : Arbiter) (ready : List Nat) : Option (Nat × Arbiter) :=
  let of (c : Nat) := ready.filter (fun s => decide ((slipAt h s).cls = c))
  let starved := (List.range 4).find? (fun c => !(of c).isEmpty && decide (a.passed.getD c 0 ≥ 15))
  let cls := match starved with
    | some c => some c
    | none => (List.range 4).find? (fun c => !(of c).isEmpty)
  match cls with
  | none => none
  | some c =>
    match roundRobin (of c) (a.last.getD c 0) with
    | none => none
    | some s => some (s, { last := a.last.set c s,
                           passed := (List.range 4).map (fun k => if k = c then 0
                             else if (of k).isEmpty then a.passed.getD k 0 else a.passed.getD k 0 + 1) })

/-! ### Fetching (R228, R388, R392, R420) -/

/-- How the ring lines of a descriptor read: 0 sound, 1 poisoned, 2 a detected error; none where the selvedge refuses. -/
def ringRead (h : Hw) (p a : Nat) (u : Upset) : Option Nat :=
  if !selRange h p a 128 false then none
  else if behindGhost h a || portDead h a || poisoned h a || poisoned h (a + 64) then some 1
  else if u.isUe then some 2
  else some 0

/-- A front-end cache entry of a ring line (R374): its tag is apart from every leaf translation's. -/
def ringTag (line : Nat) : Nat := 2 ^ 128 + line

/-- A ring line is filled in its group's front-end cache when it is fetched (R374). -/
def fillRing (h : Hw) (g line : Nat) : Hw :=
  putCache h (440 + g) (line % 64) (lruAccess (cacheSet h (440 + g) (line % 64)) (ringTag line)).1

/-- A ring line is freed when its descriptor has been staged (R374). -/
def freeRing (h : Hw) (g line : Nat) : Hw :=
  putCache h (440 + g) (line % 64) (dropLine (cacheSet h (440 + g) (line % 64)) (ringTag line))

/-- The ring lines of a descriptor in another package: its answer (R233), or 4 where no member serves the address. -/
def ringRemote (h : Hw) (p ca : Nat) : Hw × List Byte × Nat :=
  if !(isMember h (compactPos ca) && !memberFenced h) then (h, zeros 128, 4)
  else
    let r := remoteRead h p ca 128
    match remoteStatus h p ca with
    | 1 => (h, zeros 128, 3)
    | 2 => (r.2, r.1, 1)
    | _ => (r.2, r.1, 0)

/-- Whether a slip's two rings overlap, with an unpredictable result (R387). -/
def ringsMeet (x : Slip) : Bool := decide (x.ring < x.cring + 32 * slipSize x ∧ x.cring < x.ring + 128 * slipSize x)

/-- Fetch one descriptor: a skipped sequence count whose record is final is passed by, unless it is a BARRIER or a NOP,
which runs again (R420). Of rings that overlap, free values are fetched (R387, R17; log entry 35). -/
def fetchOne (m : Memory) (s : Nat) (u : Upset) (h0 : Hw) : Hw :=
  let x := slipAt h0 s
  let ca := x.ring + 128 * (x.head.toNat % slipSize x)
  let a := compactLocal ca
  let got := if isLocal h0 ca then (h0, cohRead h0 m a 128, (ringRead h0 (slipOwner h0 s) a u).getD 3)
             else ringRemote h0 (slipOwner h0 s) ca
  let met := if ringsMeet x then takeFreeBytes got.1 128 else (got.2.1, got.1)
  let h := met.2
  let bytes := met.1
  let bad := got.2.2
  let op := leAt bytes 0 1
  let skipped := decide (x.head ∈ x.skip)
  let d : Desc := { seq := x.head, bytes := bytes, ringBad := bad, asid := x.asid, vmid := x.vmid, gmode := x.gmode,
                    rerun := skipped, progress := if x.stopSeq = x.head then x.resume else 0,
                    phase := if skipped && !(decide (op = 0x30) || decide (op = 0x31)) then .final else .fetched }
  fillRing (fillRing (setSlip h s { x with head := x.head + 1, descs := x.descs ++ [d] }) x.group (lineOf a))
    x.group (lineOf a + 1)

/-- Descriptors one fetch reads for a slip: up to 16, not past TAIL, not past the ring's end, within STAGE_DEPTH and the free places
(R392, R401). -/
def fetchCount (h : Hw) (s : Nat) : Nat :=
  let x := slipAt h s
  min (min 16 (x.tail - x.head).toNat)
    (min (slipSize x - x.head.toNat % slipSize x) (min (x.depth - heldPlaces x) (placesFree h s)))

/-- Whether slips fetch and dispatch: the package is Active (R170), and has not been asked to enter Dormant (R177). -/
def mayDispatch (h : Hw) : Bool := decide (h.start.st = PowerSt.active) && !h.start.dormReq

/-- Whether a slip has something to fetch: RUNNING, not stopping, entries posted, and room (R401). -/
def fetchable (h : Hw) (s : Nat) : Bool :=
  let x := slipAt h s
  mayDispatch h && decide (x.st = SlipSt.running) && x.stopping.isNone && decide (0 < fetchCount h s)

/-- The front end fetches for a ferry: the slip R399 chooses, up to 16 descriptors in slip order; ring lines fill its
front-end cache (R374). -/
def fetchFor (h : Hw) (m : Memory) (f : Nat) (u : Upset) : Hw :=
  match choose h (tabGet {} h.eng.fetchArb f) ((ferrySlips h f).filter (fetchable h)) with
  | none => h
  | some (s, a) =>
    let h1 := { h with eng := { h.eng with fetchArb := tabPut {} h.eng.fetchArb f a } }
    iter (fetchOne m s u) (fetchCount h s) h1

/-! ### Staging (R355, R360 to R362, R405) -/

/-- The buffers a descriptor names: virtual address, length in bytes, and whether they are written. A row operand's
buffer is the run from its first byte to the last byte of its last row (log entry 9). -/
def buffersOf (d : Desc) : List (Nat × Nat × Bool) :=
  let b := d.bytes
  let rows := leAt b 0x24 4
  let len := leAt b 0x20 4
  let span (pitch : Nat) : Nat := if rows ≤ 1 then len else (rows - 1) * pitch + len
  match opcode d with
  | 0x10 =>
    (if leAt b 0x28 1 = 0 then [(leAt b 0x10 8, span (leAt b 0x30 8), false)] else [(0, 0, false)]) ++
    (if leAt b 0x29 1 = 0 then [(leAt b 0x18 8, span (leAt b 0x38 8), true)] else [])
  | 0x11 => if leAt b 0x29 1 = 0 then [(leAt b 0x18 8, span (leAt b 0x38 8), true)] else []
  | 0x15 => if leAt b 0x1C 1 = 0 ∧ leAt b 0x18 2 ≠ 0 then [(leAt b 0x30 8, 65536, false)] else []
  | 0x20 => [(leAt b 0x10 8, leAt b 0x19 1, true)]
  | 0x63 => if leAt b 0x18 8 ≠ 0 then [(leAt b 0x18 8, 4 * leAt b 0x12 1, true)] else []
  | 0x64 => if leAt b 0x18 8 ≠ 0 then [(leAt b 0x18 8, 4 * leAt b 0x12 1, false)] else []
  | _ => []

/-- Buffer number n, absent buffers being empty. -/
def bufferAt (d : Desc) (n : Nat) : Nat × Nat × Bool := (buffersOf d).getD n (0, 0, false)

end Sys2Proof.Machine
end

