-- ==== Sys2Proof/Machine/Staging.lean ====
section
/-! DEFINITION. Staging, walks, dispatch, epochs and slip commands (chapters 12 and 13). -/
namespace Sys2Proof.Machine

/-! ### Checked fields (R405) -/

/-- Opcodes the spec defines (Table 13.6 with the tables of chapters 14 to 17). -/
def knownOp (op : Nat) : Bool :=
  decide (op ∈ [0x10, 0x11, 0x14, 0x15, 0x16, 0x17, 0x18, 0x19, 0x20, 0x30, 0x31, 0x40, 0x50, 0x51, 0x52, 0x53, 0x54,
                0x55, 0x56, 0x57, 0x60, 0x61, 0x62, 0x63, 0x64, 0x70, 0x71, 0x72, 0x73, 0x74, 0x78])

/-- Opcodes a C-die slip carries (R386). -/
def cDieOp (op : Nat) : Bool :=
  decide (op ≤ 0x31) || (decide (0x60 ≤ op) && decide (op ≤ 0x6F))

/-- Sizes an atomic operation allows (Table 13.10). -/
def atomicSizeOk (op size : Nat) : Bool :=
  decide (size = 4 ∨ size = 8) || (decide (size = 16) && (decide (op = 5) || decide (op = 10)))

/-- Functions of each finishing opcode (Table 15.4); bit 7 only where a flag is named. MERGE is read as belonging to the
TOPK functions, which alone have places to merge with. -/
def finFuncOk (op fn : Nat) : Bool :=
  match op with
  | 0x50 => decide ((1 ≤ fn ∧ fn ≤ 9) ∨ (0x10 ≤ fn ∧ fn ≤ 0x1B))
  | 0x51 => decide (1 ≤ fn ∧ fn ≤ 5)
  | 0x52 => decide (fn ∈ [1, 2, 0x81, 0x82])
  | 0x53 => decide (fn ∈ [1, 2])
  | 0x54 => decide (fn ∈ [1, 2, 3, 4, 0x81, 0x82])
  | 0x55 | 0x56 => decide (fn ∈ [1, 2, 3])
  | _ => decide (fn ∈ [1, 2, 0x81, 0x82])

/-- Whether a knot reference has a reserved bit set, or a POSITION with GLOBAL clear (R481). -/
def refBad (r : Nat) : Bool := decide (field r 31 27 ≠ 0) || (!bitOf r 26 && decide (field r 25 18 ≠ 0))

/-- The halt reason the checked fields of this chapter's descriptors give before anything is accessed; zero when they
pass (R405, R407, R411, R413). -/
def checkFields (d : Desc) : Nat :=
  let b := d.bytes
  let len := leAt b 0x20 4
  let rows := leAt b 0x24 4
  match opcode d with
  | 0x10 =>
    if leAt b 0x28 1 > 1 ∨ leAt b 0x29 1 > 1 then 0x22
    else if len = 0 ∨ len > 16777216 ∨ rows = 0 ∨ rows > 65536 ∨ len * rows > 16777216 then 0x25 else 0
  | 0x11 =>
    if leAt b 0x29 1 > 1 then 0x22
    else if len = 0 ∨ len > 16777216 ∨ rows = 0 ∨ rows > 65536 ∨ len * rows > 16777216 then 0x25 else 0
  | 0x14 => if leAt b 0x2A 1 > 15 then 0x22 else 0
  | 0x15 => if leAt b 0x1C 1 > 1 ∨ (leAt b 0x1C 1 = 1 ∧ leAt b 0x2A 1 > 15) then 0x22 else 0
  | 0x16 => if leAt b 0x1A 1 = 0 ∨ leAt b 0x1A 1 > 4 ∨ leAt b 0x1B 1 > 4 then 0x22 else 0
  | 0x17 => if leAt b 0x1A 1 = 0 ∨ leAt b 0x1A 1 > 4 then 0x22 else 0
  | 0x20 =>
    let op := leAt b 0x18 1
    let size := leAt b 0x19 1
    if op = 0 ∨ op > 11 ∨ !(size = 4 ∨ size = 8 ∨ size = 16) then 0x22
    else if !atomicSizeOk op size ∨ leAt b 0x10 8 % size ≠ 0 then 0x24 else 0
  | 0x30 => if leAt b 0x10 1 > 3 then 0x22 else 0
  | 0x40 =>
    if leAt b 0x12 1 > 4 ∨ leAt b 0x13 1 > 7 ∨ leAt b 0x14 1 = 0 ∨ leAt b 0x14 1 > 0x0E ∨ leAt b 0x15 1 = 0 ∨ leAt b 0x15 1 > 0x0E
        ∨ !(leAt b 0x16 1 ∈ [0x08, 0x09, 0x0D, 0x0E]) ∨ field (leAt b 0x17 1) 6 3 ≠ 0 ∨ leAt b 0x1E 2 = 0 ∨ leAt b 0x1E 2 > 2000
        ∨ leAt b 0x21 1 > 1 then 0x22 else 0
  | 0x50 | 0x51 | 0x52 | 0x53 | 0x54 | 0x55 | 0x56 | 0x57 =>
    if !finFuncOk (opcode d) (leAt b 0x11 1) ∨ leAt b 0x12 1 = 0 ∨ leAt b 0x12 1 > 0x0E ∨ leAt b 0x13 1 = 0 ∨ leAt b 0x13 1 > 0x0E
        ∨ field (leAt b 0x14 1) 6 3 ≠ 0 ∨ !(leAt b 0x16 1 ∈ [1, 2, 4]) ∨ leAt b 0x17 1 > 2 ∨ leAt b 0x54 2 = 0
        ∨ leAt b 0x54 2 > 2000 then 0x22 else 0
  | 0x60 =>
    let t := leAt b 0x14 1
    if field (leAt b 0x10 4) 31 18 ≠ 0 ∨ t > 3 ∨ leAt b 0x15 1 > 1 ∨ (t ≠ 2 ∧ leAt b 0x15 1 ≠ 0) ∨ leAt b 0x24 1 > 1
        ∨ (t = 1 ∧ (leAt b 0x20 4 = 0 ∨ leAt b 0x20 4 > 65535)) ∨ (t ≠ 1 ∧ leAt b 0x20 4 ≠ 0) then 0x22 else 0
  | 0x61 => if refBad (leAt b 0x10 4) ∨ leAt b 0x14 1 = 0 ∨ leAt b 0x14 1 > 7 then 0x22 else 0
  | 0x62 =>
    if refBad (leAt b 0x10 4) ∨ leAt b 0x14 1 = 0 ∨ leAt b 0x14 1 > 5 ∨ leAt b 0x15 1 > 1
        ∨ (leAt b 0x15 1 = 1 ∧ leAt b 0x14 1 ≠ 4) then 0x22 else 0
  | 0x63 => if leAt b 0x12 1 = 0 ∨ leAt b 0x12 1 > 64 ∨ leAt b 0x13 1 > 1 then 0x22 else 0
  | 0x64 => if leAt b 0x12 1 = 0 ∨ leAt b 0x12 1 > 64 then 0x22 else 0
  | 0x70 =>
    if leAt b 0x14 1 > 63 ∨ leAt b 0x15 1 > 16 ∨ leAt b 0x20 4 = 0 ∨ leAt b 0x20 4 > 65536 then 0x22 else 0
  | 0x71 => if leAt b 0x14 1 > 1 ∨ leAt b 0x18 4 = 0 ∨ leAt b 0x18 4 > 4096 then 0x22 else 0
  | 0x72 | 0x74 => if leAt b 0x14 1 > 1 then 0x22 else 0
  | 0x78 =>
    if leAt b 0x11 1 > 1 ∨ !(leAt b 0x12 1 ∈ [0x08, 0x09, 0x0D]) ∨ leAt b 0x13 1 = 0 ∨ leAt b 0x13 1 > 16 ∨ leAt b 0x14 1 > 64
        ∨ !(leAt b 0x16 1 ∈ [1, 2, 4]) ∨ leAt b 0x17 1 = 0 ∨ leAt b 0x17 1 > 64 ∨ leAt b 0x1A 2 = 0 ∨ leAt b 0x1A 2 > 2000 then 0x22 else 0
  | _ => 0

/-- Reserved byte ranges of a descriptor's body that no check covers: first byte and length (Tables 13.7 to 13.9, 14.7, 15.3, 16.8, 17.3,
17.5, R403, R413). -/
def reservedRanges (b : List Byte) : List (Nat × Nat) :=
  match leAt b 0 1 with
  | 0x10 => [(0x2B, 5), (0x40, 64)]
  | 0x11 => [(0x10, 8), (0x28, 1), (0x2B, 5), (0x48, 56)]
  | 0x14 => [(0x12, 2), (0x18, 16), (0x2B, 85)]
  | 0x15 => [(0x12, 2), (0x1A, 2), (0x1D, 11), (0x2B, 5), (0x38, 72)] ++ (if leAt b 0x1C 1 = 0 then [(0x28, 3)] else [(0x30, 8)])
  | 0x16 => [(0x12, 2), (0x18, 2), (0x1C, 4), (0x28, 88)]
  | 0x17 => [(0x12, 2), (0x18, 2), (0x1B, 5), (0x28, 88)]
  | 0x18 | 0x19 => [(0x12, 2), (0x18, 104)]
  | 0x20 => [(0x1A, 6), (0x40, 64)]
  | 0x30 => [(0x11, 111)]
  | 0x31 => [(0x10, 112)]
  | 0x40 => [(0x78, 8)]
  | 0x60 => [(0x25, 27), (0x60, 32)]
  | 0x61 => [(0x15, 3), (0x20, 96)]
  | 0x62 => [(0x16, 2), (0x24, 92)]
  | 0x63 => [(0x11, 1), (0x20, 96)]
  | 0x64 => [(0x11, 1), (0x13, 5), (0x40, 64)]
  | 0x70 => [(0x12, 2), (0x16, 2), (0x24, 92)]
  | 0x71 => [(0x12, 2), (0x15, 3), (0x20, 96)]
  | 0x72 | 0x74 => [(0x12, 2), (0x15, 3), (0x1C, 100)]
  | 0x73 => [(0x12, 110)]
  | 0x78 => [(0x48, 24), (0x78, 8)]
  | _ => [(0x1B, 1), (0x56, 2), (0x5C, 4), (0x78, 8)]

/-- Reserved bits within the other fields: byte offset, size, first and last bit. -/
def reservedBits (b : List Byte) : List (Nat × Nat × Nat × Nat) :=
  let bob (kind at_ : Nat) : List (Nat × Nat × Nat × Nat) := if leAt b kind 1 = 1 then [(at_, 8, 63, 29)] else []
  match leAt b 0 1 with
  | 0x10 => (0x2A, 1, 7, 1) :: bob 0x28 0x10 ++ bob 0x29 0x18
  | 0x11 => (0x2A, 1, 7, 1) :: bob 0x29 0x18
  | 0x40 => [(0x10, 2, 15, 9), (0x68, 8, 63, 48), (0x70, 8, 63, 48)] ++
      [0x24, 0x30, 0x3C, 0x40, 0x48, 0x50].map (fun o => (o, 4, 31, 20))
  | 0x50 | 0x51 | 0x52 | 0x53 | 0x54 | 0x55 | 0x56 | 0x57 => [0x28, 0x30, 0x38, 0x40].map (fun o => (o, 4, 31, 20))
  | 0x78 => [0x28, 0x30, 0x38, 0x3C].map (fun o => (o, 4, 31, 20))
  | _ => []

/-- Whether a descriptor holds a reserved bit that is not zero outside the checked fields (R13, R405). -/
def reservedSet (b : List Byte) : Bool :=
  decide (field (leAt b 1 1) 7 2 ≠ 0) || decide (field (leAt b 8 4) 31 27 ≠ 0) || decide (leAt b 0x0C 4 ≠ 0) || (reservedRanges b).any (fun r => decide (leAt b r.1 r.2 ≠ 0))
    || (reservedBits b).any (fun f => decide (field (leAt b f.1 f.2.1) f.2.2.1 f.2.2.2 ≠ 0))

/-- The unpredictable result of such a descriptor (R13, R17): its ferry goes on with free values in place of all but OPCODE and TAG (log
entry 69). -/
def strangeDesc (h : Hw) (d : Desc) : Hw × Desc :=
  let r := takeFreeBytes h 123
  (r.2, { d with bytes := d.bytes.take 1 ++ r.1.take 3 ++ (d.bytes.drop 4).take 4 ++ r.1.drop 3 })

/-- Whether an operand names a bobbin the slip may use (R406): 0 yes, else the halt reason. -/
def bobbinCheck (h : Hw) (s operand : Nat) (span : Nat) : Nat :=
  if slipDie s ≥ 4 then 0x2C
  else
    let loom := field operand 28 20
    if quadDie (loom / 4) ≠ slipDie s ∨ unitHolder h 3 (loom / 4) ≠ slipOwner h s then 0x20
    else if field operand 19 0 + span > 2 ^ 20 then 0x25 else 0

/-- The same for a package loom number, of which there are 512 (R406). -/
def loomCheck (h : Hw) (s loom : Nat) : Nat := if 512 ≤ loom then (if slipDie s ≥ 4 then 0x2C else 0x20) else bobbinCheck h s (loom * 2 ^ 20) 0

/-- Whether the knot a descriptor signals from its header is one of this package that its partition does not own (R79, R404). -/
def headerBad (h : Hw) (s : Nat) (d : Desc) : Bool :=
  let r := leAt d.bytes 8 4
  bitOf (leAt d.bytes 1 1) 1 && (!bitOf r 26 || decide (field r 25 18 = h.ident.position)) && decide (knotOwner h (field r 17 0) ≠ slipOwner h s)

/-- Whether any buffer of a descriptor lies in local region 3 (R23, R410). -/
def inRegion3 (h : Hw) (d : Desc) : Bool :=
  d.extents.any (fun e => isLocal h e.paddr && decide (regionOf (compactLocal e.paddr) = 3))

/-- The halt reason a descriptor's engines and its header's knot give at dispatch, and again as it goes on (R79, R386, R406); zero when
they may be used, and no buffer of a bolt store or a pool operation lies in region 3 (R23). -/
def engineCheck (h : Hw) (s : Nat) (d : Desc) : Nat :=
  let b := d.bytes
  let rows := leAt b 0x24 4
  let len := leAt b 0x20 4
  let span (pitch : Nat) : Nat := if rows ≤ 1 then len else (rows - 1) * pitch + len
  if slipDie s ≥ 4 ∧ !cDieOp (opcode d) then 0x2C
  else if headerBad h s d then 0x20
  else match opcode d with
  | 0x10 =>
    let r1 := if leAt b 0x28 1 = 1 then bobbinCheck h s (leAt b 0x10 8) (span (leAt b 0x30 8)) else 0
    if r1 ≠ 0 then r1 else if leAt b 0x29 1 = 1 then bobbinCheck h s (leAt b 0x18 8) (span (leAt b 0x38 8)) else 0
  | 0x11 => if leAt b 0x29 1 = 1 then bobbinCheck h s (leAt b 0x18 8) (span (leAt b 0x38 8)) else 0
  | 0x14 => loomCheck h s (leAt b 0x28 2)
  | 0x15 => if leAt b 0x1C 1 = 1 then loomCheck h s (leAt b 0x28 2) else if inRegion3 h d then 0x25 else 0
  | 0x63 | 0x64 => if inRegion3 h d then 0x25 else 0
  | _ => 0

/-! ### Staging and walks -/

/-- The walk context of a slip (R354). -/
def ctxOf (h : Hw) (s : Nat) (u : Upset) : WalkCtx :=
  let x := slipAt h s
  { part := slipOwner h s, mode := x.mode, root := x.root, gmode := x.gmode, groot := x.groot, priv := x.priv,
    sum := x.sum, mxr := x.mxr, adue := x.adue, upset := u }

/-- Whether MODE or GMODE is reserved (R355). -/
def ctxReserved (x : Slip) : Bool := !(decide (x.mode ∈ [0, 9, 10]) && decide (x.gmode ∈ [0, 9, 10]))

/-- Where the walk of a buffer starts: at its beginning, or at the transfer offset a move has reached (R368, R383). -/
def walkStart (d : Desc) (buf : Nat) : Nat :=
  let len := leAt d.bytes 0x20 4
  match opcode d with
  | 0x10 | 0x11 =>
    if len = 0 then 0
    else
      let pitch := if opcode d = 0x10 ∧ buf = 0 then leAt d.bytes 0x30 8 else leAt d.bytes 0x38 8
      let rows := leAt d.bytes 0x24 4
      d.progress / len * (if rows ≤ 1 then len else pitch) + d.progress % len
  | _ => d.progress

/-- The first fault a descriptor's walk keeps: that of the lowest buffer and offset (R379). -/
def keepFault (o : Option WalkFault) (f : WalkFault) : Option WalkFault :=
  match o with
  | none => some f
  | some g => if f.buf < g.buf ∨ (f.buf = g.buf ∧ f.off < g.off) then some f else some g

/-- The cursor moves to the next buffer. -/
def nextBuffer (d : Desc) (w : WalkState) : WalkState := { w with buf := w.buf + 1, off := walkStart d (w.buf + 1) }

/-- What a translation found at a descriptor's cursor: the page's run joins its extents, a seventeenth extent is a fault (R360, R361). -/
def addPage (d : Desc) (w : WalkState) (pa left : Nat) : WalkState :=
  let b := bufferAt d w.buf
  let len := min left (b.2.1 - w.off)
  let es := addRun 40 w.exts w.buf w.off len pa b.2.2
  match es[16]? with
  | some e =>
    let f : WalkFault := { reason := 0x0B, buf := e.buf, va := (bufferAt d e.buf).1 + e.voff, off := e.voff }
    nextBuffer d { w with fault := keepFault w.fault f }
  | none => { w with exts := es, off := w.off + len }

/-- The cursor passes what needs no walk: the end of a buffer, a buffer whose first page's walk faulted, a first page already known. -/
def passKnown : Nat → Desc → WalkState → WalkState
  | 0, _, w => w
  | n + 1, d, w =>
    if w.buf ≥ (buffersOf d).length then w
    else if (bufferAt d w.buf).2.1 ≤ w.off ∨ w.buf ∈ w.bad then passKnown n d (nextBuffer d w)
    else match w.first.find? (fun e => decide (e.1 = w.buf ∧ w.off = walkStart d w.buf)) with
      | some e => passKnown n d (addPage d w e.2.1 e.2.2)
      | none => w

/-- Begin a walk of a descriptor's buffers under a fresh snapshot (R365); one whose buffers hold no byte is done at once. -/
def startWalk (h : Hw) (s : Nat) (d : Desc) (rewalk : Bool) : Hw :=
  let d1 := snapshot h (slipOwner h s) d
  let n := (buffersOf d).length
  let w := passKnown (2 * n + 1) d { buf := 0, off := walkStart d 0, rewalk := rewalk, stamp := h.eng.stamp }
  let h1 := { h with eng := { h.eng with stamp := h.eng.stamp + 1 } }
  setSlip h1 s (setDesc (slipAt h1 s)
    (if w.buf ≥ n then { d1 with phase := if d.begun then .dispatched else .staged, walk := w, extents := [], pauseReq := false }
     else { d1 with phase := .walking, walk := w, extents := [] }))

/-- The walk of a descriptor is over: it faults, or it is staged, or, a paused one, it goes on (R365, R381). -/
def endWalk (h : Hw) (s : Nat) (d : Desc) : Hw :=
  match d.walk.fault with
  | some f => xlatFault (withdrawWaits h s (fun q => decide (q = d.seq))) s d f
      (if d.begun ∧ (opcode d = 0x10 ∨ opcode d = 0x11) then d.progress else 0)
  | none =>
    if stale h (slipOwner h s) d then startWalk h s d true
    else setSlip h s (setDesc (slipAt h s)
      { d with phase := if d.begun then .dispatched else .staged, extents := d.walk.exts, pauseReq := false })

/-- A descriptor's translation goes on from what is known; it is over once its cursor has passed the last buffer. -/
def settleWalk (h : Hw) (s : Nat) (d : Desc) (w : WalkState) : Hw :=
  let n := (buffersOf d).length
  let d1 := { d with walk := passKnown (2 * n + 1) d w }
  if d1.walk.buf ≥ n then endWalk h s d1 else setSlip h s (setDesc (slipAt h s) d1)

/-! ### The front-end cache (R252, R374, R375) -/

/-- Key of a leaf translation in a front-end cache: group, context and page (R374). -/
def leafKey (g : Nat) (x : Slip) (va : Nat) : Nat :=
  ((((va / 4096 * 2 ^ 16 + x.asid) * 2 ^ 14 + x.vmid) * 16 + x.mode) * 16 + x.gmode) * 64 + g

/-- The set of a front-end cache that holds a leaf translation. -/
def leafSet (h : Hw) (g key : Nat) : CSet := cacheSet h (440 + g) (key / 64 % 64)

/-- Whether a context translates at all: not with both stages Bare (R362). -/
def translates (x : Slip) : Bool := decide (x.mode ≠ 0) || decide (x.gmode ≠ 0)

/-- A front end. -/
def frontAt (h : Hw) (g : Nat) : FrontEnd := tabGet {} h.eng.fronts g

/-- Replace a front end. -/
def setFront (h : Hw) (g : Nat) (f : FrontEnd) : Hw := { h with eng := { h.eng with fronts := tabPut {} h.eng.fronts g f } }

/-- Whether a leaf translation serves an access: its snapshot is current, and both stages allow the access with A and D set as it needs;
an access they do not allow is walked, and faults there. -/
def leafServes (h : Hw) (x : Slip) (c : WalkCtx) (write : Bool) (l : Leaf) : Bool :=
  decide (l.all = epochAt h c.part 0) && decide (l.asid = epochAt h c.part (asidEpoch x.asid))
    && (decide (x.gmode = 0) || (decide (l.vmid = epochAt h c.part (vmidEpoch x.vmid)) && !gpteDenies write l.gperms && !pteAdClear write l.gperms))
    && (decide (x.mode = 0) || (!pteDenies c write l.perms && !pteAdClear write l.perms))

/-- The leaf translation that a buffer's first page hits: its key, the page's compact address and the bytes that follow it. -/
def leafHit (h : Hw) (s : Nat) (d : Desc) (buf : Nat) : Option (Nat × Nat × Nat) :=
  let x := slipAt h s
  let b := bufferAt d buf
  let va := b.1 + walkStart d buf
  let key := leafKey x.group x va
  match (wayOf (leafSet h x.group key) key), tabGet none h.eng.leaves key with
  | some _, some l =>
    if leafServes h x (ctxOf h s .clean) b.2.2 l && decide (va % 4096 < l.left) then some (key, l.pa + va % 4096, l.left - va % 4096) else none
  | _, _ => none

/-- The leaf with its key is used, or filled, in its front-end cache; an entry it replaces is gone (R254, R257). -/
def touchLeaf (h : Hw) (g key : Nat) : Hw :=
  let c := leafSet h g key
  let r := (lruAccess c key).1
  let h1 := putCache h (440 + g) (key / 64 % 64) r
  { h1 with eng := { h1.eng with leaves := tabClear h1.eng.leaves (fun k => decide (some k ∈ c.tags) && !decide (some k ∈ r.tags)) } }

/-- A walk that succeeded fills its page's leaf translation (R374, R375). -/
def fillLeaf (h : Hw) (s : Nat) (d : Desc) (va pa left perms gperms : Nat) : Hw :=
  let x := slipAt h s
  let key := leafKey x.group x va
  let l : Leaf := { pa := pa - va % 4096, left := left + va % 4096, perms := perms, gperms := gperms,
                    all := d.snapAll, asid := d.snapAsid, vmid := d.snapVmid }
  let h1 := touchLeaf h x.group key
  { h1 with eng := { h1.eng with leaves := tabPut none h1.eng.leaves key (some l) } }

/-- The descriptor whose translation a lookup still belongs to. -/
def lookupDesc (h : Hw) (k : Lookup) : Option Desc :=
  match findDesc (slipAt h k.slip) k.seq with
  | some d => if d.phase = Phase.walking ∧ d.walk.stamp = k.stamp ∧ !d.walk.rewalk then some d else none
  | none => none

/-- One lookup in a group's cache (R252): a hit is served; the first miss is the cache's outstanding miss and goes to a walker; a second
miss stops lookups, and it and every later one wait. -/
def lookUp (g : Nat) (h : Hw) (k : Lookup) : Hw :=
  let f := frontAt h g
  match lookupDesc h k with
  | none => h
  | some d =>
    if !f.stopped.isEmpty then setFront h g { f with stopped := f.stopped ++ [k] }
    else match leafHit h k.slip d k.buf with
      | some (key, pa, left) => settleWalk (touchLeaf h g key) k.slip d { d.walk with first := d.walk.first ++ [(k.buf, pa, left)] }
      | none => setFront h g (if f.miss.isNone then { f with miss := some k } else { f with stopped := [k] })

/-- Lookups go on in order once the outstanding miss has been filled or its descriptor is no longer translated (R252). -/
def resumeLookups (h : Hw) (g : Nat) : Hw :=
  let f := frontAt h g
  if f.miss.any (fun k => (lookupDesc h k).isSome) then h
  else f.stopped.foldl (lookUp g) (setFront h g {})

/-- Staging looks up the first page of each buffer (R375). -/
def lookUpAll (h : Hw) (s : Nat) (d : Desc) (stamp : Nat) : Hw :=
  let g := (slipAt h s).group
  ((List.range (buffersOf d).length).filter (fun i => decide (walkStart d i < (bufferAt d i).2.1))).foldl
    (fun h i => lookUp g h { slip := s, seq := d.seq, stamp := stamp, buf := i }) (resumeLookups h g)

/-! ### Walks (R376 to R379) -/

/-- A walker's walk for one page of a descriptor's buffer: under the PTEs it keeps for that buffer, filling the front-end cache. It
answers the page or the fault, with the walk state that keeps what it read (R378). DESIGN CHOICE (log entry 89): R362 does not say which byte
of a Bare buffer that runs beyond bit 55 is the faulting one; it is the byte its walk starts at. -/
def walkPage (hm : HM) (s : Nat) (d : Desc) (buf off : Nat) (u : Upset) : HM × WalkOut × WalkState :=
  let b := bufferAt d buf
  let va := b.1 + off
  let x := slipAt hm.1 s
  if !translates x && decide (b.1 + b.2.1 > 2 ^ 56) then (hm, .fault 0x05 0 0, d.walk)
  else
    let keep (h : Hw) (k : List (Nat × Nat)) : Hw := { h with eng := { h.eng with kept := k } }
    let r := translate (ctxOf hm.1 s u) b.2.2 va (keep hm.1 ((d.walk.kept.filter (fun e => decide (e.1 = buf))).map (·.2)), hm.2)
    let w := { d.walk with kept := d.walk.kept.filter (fun e => decide (e.1 ≠ buf)) ++ r.1.1.eng.kept.map (fun e => (buf, e.1, e.2)) }
    let h1 := keep r.1.1 []
    match r.2 with
    | .page pa left pm gp => ((if translates x then fillLeaf h1 s d va pa left pm gp else h1, r.1.2), r.2, w)
    | .fault .. => ((h1, r.1.2), r.2, w)

/-- The fault a walk found at a page of a buffer. -/
def faultAt (d : Desc) (buf off r g q : Nat) : WalkFault :=
  { reason := r, buf := buf, va := (bufferAt d buf).1 + off, gpa := g, off := off, pte := q }

/-- One page-table walk for a descriptor: the page at its cursor (R360, R361, R379). When the last page of the last buffer is done the
walk ends. -/
def walkOne (hm : HM) (s : Nat) (d : Desc) (u : Upset) : HM :=
  let buf := d.walk.buf
  match walkPage hm s d buf d.walk.off u with
  | (hm1, .fault r g q, w) =>
    (settleWalk hm1.1 s d (nextBuffer d { w with fault := keepFault w.fault (faultAt d buf d.walk.off r g q) }), hm1.2)
  | (hm1, .page pa left _ _, w) => (settleWalk hm1.1 s d (addPage d w pa left), hm1.2)

/-- The walk of the front-end cache's outstanding miss: the first page of a buffer; then lookups go on (R252, R375). -/
def walkMiss (hm : HM) (g s : Nat) (d : Desc) (buf : Nat) (u : Upset) : HM :=
  let off := walkStart d buf
  let r := walkPage hm s d buf off u
  let w := match r.2.1 with
    | .fault q p e => { r.2.2 with fault := keepFault r.2.2.fault (faultAt d buf off q p e), bad := r.2.2.bad ++ [buf] }
    | .page pa left _ _ => { r.2.2 with first := r.2.2.first ++ [(buf, pa, left)] }
  (resumeLookups (settleWalk (setFront r.1.1 g { frontAt r.1.1 g with miss := none }) s d w) g, r.1.2)

/-- Whether a descriptor's cursor stands at a first page whose lookup is still to be answered. -/
def awaitsLookup (x : Slip) (d : Desc) : Bool :=
  translates x && !d.walk.rewalk && decide (d.walk.off = walkStart d d.walk.buf)

/-- Class of a walk request but for the outstanding miss (Table 12.4). -/
def walkClass (x : Slip) (d : Desc) : Nat :=
  let nextToDispatch := (x.descs.find? (fun e => decide (e.phase = Phase.staged ∨ e.phase = Phase.walking
    ∨ e.phase = Phase.fetched))).map (·.seq) = some d.seq
  if d.walk.rewalk then (if d.begun || nextToDispatch then 1 else 4) else 3

/-- A walk request: class, age, slip, descriptor and, for the outstanding miss, its buffer. -/
structure WalkReq where
  cls  : Nat
  age  : Nat
  slip : Nat
  desc : Desc
  miss : Option Nat := none
deriving DecidableEq, Repr

/-- The outstanding miss's request (Table 12.4, class 2). -/
def missRequest (h : Hw) (g : Nat) : List WalkReq :=
  match (frontAt h g).miss with
  | some k =>
    match lookupDesc h k with
    | some d => if slipEnabled (slipAt h k.slip) then [{ cls := 2, age := k.stamp, slip := k.slip, desc := d, miss := some k.buf }] else []
    | none => []
  | none => []

/-- The requests of a ferry group. -/
def walkRequests (h : Hw) (g : Nat) : List WalkReq :=
  missRequest h g ++ (h.eng.slips.filter (fun e => decide (e.2.group = g) && slipEnabled e.2)).flatMap (fun e =>
    (e.2.descs.filter (fun d => decide (d.phase = Phase.walking) && !awaitsLookup e.2 d)).map (fun d =>
      { cls := walkClass e.2 d, age := d.walk.stamp, slip := e.1, desc := d }))

/-- The request a free walker takes (R377): the lowest class, the oldest within it. -/
def firstRequest : List WalkReq → Option WalkReq
  | [] => none
  | r :: rs =>
    match firstRequest rs with
    | none => some r
    | some q => if q.cls < r.cls ∨ (q.cls = r.cls ∧ q.age < r.age) then some q else some r

/-- A walker of a group completes one page-table walk (R376, R377). A group that is Fenced or unowned walks nothing. -/
def walkFor (hm : HM) (g : Nat) (u : Upset) : HM :=
  if unitFenced hm.1 4 g then hm
  else
    let h := resumeLookups hm.1 g
    match firstRequest (walkRequests h g) with
    | none => (h, hm.2)
    | some r =>
      match r.miss with
      | some buf => walkMiss (h, hm.2) g r.slip r.desc buf u
      | none => walkOne (h, hm.2) r.slip r.desc u

/-! ### Staging (R355, R360, R405, R736) -/

/-- The reason a descriptor halts with at staging, before anything is accessed; zero when its checked fields pass (R405). -/
def stagingHalt (s : Nat) (d : Desc) : Nat :=
  if !knownOp (opcode d) then 0x22
  else if slipDie s ≥ 4 ∧ !cDieOp (opcode d) then 0x2C
  else if bitOf (leAt d.bytes 1 1) 1 && refBad (leAt d.bytes 8 4) then 0x22
  else checkFields d

/-- TAG of a poisoned ring entry is written as zero (R736). -/
def tagZero (b : List Byte) : List Byte := b.take 4 ++ zeros 4 ++ b.drop 8

/-- A descriptor whose checked fields are taken as they are: a reserved one halts it, one without buffers is staged at once, a reserved
context is a fault, and otherwise its buffers go to the walkers, the first page of each looked up in the front-end cache (R375). -/
def stageDesc (h : Hw) (s : Nat) (d : Desc) : Hw :=
  let x := slipAt h s
  if stagingHalt s d ≠ 0 then haltDesc h s d (stagingHalt s d)
  else if (buffersOf d).isEmpty then setSlip h s (setDesc x { snapshot h (slipOwner h s) d with phase := .staged })
  else if ctxReserved x then xlatFault h s d { reason := 0x0C, buf := 0, va := (bufferAt d 0).1 } 0
  else
    let h1 := startWalk h s d false
    if translates x then lookUpAll h1 s d h.eng.stamp else h1

/-- The front end stages the next fetched descriptor of a slip (R355, R360, R405, R736): its ring lines are freed; a poisoned ring entry
or one that could not be read ends it; one with reserved bits set outside its checked fields goes on as R13 leaves it. -/
def stageNext (h0 : Hw) (s : Nat) : Hw :=
  let x := slipAt h0 s
  match x.descs.find? (fun d => d.phase = Phase.fetched) with
  | none => h0
  | some d =>
    let ca := x.ring + 128 * (d.seq.toNat % slipSize x)
    let line := lineOf (compactLocal ca)
    let h := freeRing (freeRing h0 x.group line) x.group (line + 1)
    match d.ringBad with
    | 0 =>
      if stagingHalt s d = 0 && reservedSet d.bytes then let r := strangeDesc h d; stageDesc r.1 s r.2
      else stageDesc h s d
    | 1 => endDesc h s { d with bytes := tagZero d.bytes } 0x01 0x2F
    | 2 => haltUe h s d (compactLocal ca) (ueSource (compactLocal ca))
    | 3 => haltRefused h s d (if isLocal h ca then compactLocal ca else 2 ^ 60 + ca)
    | _ => endDesc h s d (goneStatus h) 0

/-! ### Dispatch (R79, R365, R399, R401) -/

/-- Whether two extents share an aligned unit of `u` bytes. -/
def extMeet (u : Nat) (e f : Extent) : Bool :=
  decide (e.len ≠ 0 ∧ f.len ≠ 0 ∧ e.paddr / u ≤ (f.paddr + f.len - 1) / u ∧ f.paddr / u ≤ (e.paddr + e.len - 1) / u)

/-- Whether slip order binds an access of a later descriptor to one of an earlier (R220): a read to an earlier write of the same bytes, a
write to an earlier write of the same target line, an atomic to every earlier access of the same line; a write does not overtake an
earlier read of the same bytes. -/
def extClash (atomic : Bool) (a b : List Extent) : Bool :=
  a.any (fun e => b.any (fun f =>
    if atomic || (e.wr && f.wr) then extMeet 64 e f else (e.wr || f.wr) && extMeet 1 e f))

/-- Whether a MOVE or FILL writes the bobbin a later MOVE reads (R222). -/
def bobClash (e d : Desc) : Bool :=
  decide (opcode d = 0x10 ∧ leAt d.bytes 0x28 1 = 1 ∧ (opcode e = 0x10 ∨ opcode e = 0x11) ∧ leAt e.bytes 0x29 1 = 1 ∧
    field (leAt d.bytes 0x10 8) 28 20 = field (leAt e.bytes 0x18 8) 28 20)

/-- Whether an earlier descriptor of the slip still holds a descriptor back (R220, R222, R224, R401): an unfinished
barrier, a waiting descriptor, or, for an engine descriptor and for overlapping accesses, unfinished work; one that is walked again
holds back all, for its remaining extents are not known yet. -/
def blocked (x : Slip) (d : Desc) : Bool :=
  x.descs.any (fun e => decide (e.seq ≠ d.seq ∧ (e.seq - x.done).toNat < (d.seq - x.done).toNat) &&
    (decide (e.phase = Phase.waiting) ||
     (decide (e.phase = Phase.dispatched ∨ (e.phase = Phase.walking ∧ e.begun)) &&
       (decide (opcode e = 0x30) || decide (opcode d ≥ 0x14 ∧ opcode d ≠ 0x20 ∧ opcode d ≠ 0x31) || decide (opcode e ≥ 0x14 ∧ opcode e ≠ 0x20)
         || decide (e.phase = Phase.walking) || extClash (decide (opcode d = 0x20)) e.extents d.extents || bobClash e d))))

/-- The next descriptor of a slip to dispatch: the oldest that is not dispatched, if it is staged and nothing earlier
holds it back. -/
def nextDispatch (x : Slip) : Option Desc :=
  match x.descs.find? (fun d => decide (d.phase = Phase.fetched ∨ d.phase = Phase.walking ∨ d.phase = Phase.staged)) with
  | some d => if d.phase = Phase.staged ∧ !(x.descs.any (fun e => decide (e.phase = Phase.waiting) ||
                  (decide (opcode e = 0x30) && decide (e.phase = Phase.dispatched)))) then some d else none
  | none => none

/-- Looms of a gang by SHAPE (Table 14.6). -/
def gangSize (shape : Nat) : Nat := match shape with | 0 => 1 | 1 => 2 | 2 => 4 | 3 => 8 | _ => 16

/-- Whether a weave names a quad whose lock group is forming: it is held back (R65). -/
def lockForming (h : Hw) (d : Desc) : Bool :=
  let gang := leAt d.bytes 0x10 2 % 512
  decide (opcode d = 0x40) && (List.range (gangSize (leAt d.bytes 0x12 1))).any (fun i =>
    match lockOf h ((gang + i) / 4) with
    | some g => !g.locked
    | none => false)

/-- Whether a slip has a descriptor ready to dispatch (R401): it is RUNNING, nothing earlier is stopping it, and no lock group it names
forms. A descriptor that ended before its dispatch does not hold back the earlier ones (R419 step 3, log entry 77). -/
def dispatchable (h : Hw) (s : Nat) : Bool :=
  let x := slipAt h s
  mayDispatch h && decide (x.st = SlipSt.running) && (match nextDispatch x with
    | some d => x.stopping.all (slipBefore d.seq) && !lockForming h d
    | none => false)

/-- An object record of a partition. -/
def objAt (h : Hw) (p id : Nat) : ObjRec := if id < 1024 then tabGet {} h.tiers.objects (p * 1024 + id) else {}

/-- The operand words of a weave that name a bolt (R447). -/
def boltRefs (d : Desc) : List Nat := [leAt d.bytes 0x68 8, leAt d.bytes 0x70 8].filter (fun r => bitOf r 0)

/-- The objects a descriptor names, with the records it is dispatched with (R279). -/
def bindObjs (h : Hw) (s : Nat) (d : Desc) : List Bound :=
  let ids := if 0x14 ≤ opcode d ∧ opcode d ≤ 0x19 then [leAt d.bytes 0x10 2]
    else if opcode d = 0x40 then (boltRefs d).map (fun r => field r 14 5) else []
  ids.map (fun i => { id := i, record := objAt h (slipOwner h s) i })

/-- Dispatch the descriptor a ferry chooses (R399, R401): a stale one is walked again first (R365); engines and bobbins
not owned halt it (R79). -/
def dispatchFor (h : Hw) (f : Nat) : Hw :=
  match choose h (tabGet {} h.eng.dispArb f) ((ferrySlips h f).filter (dispatchable h)) with
  | none => h
  | some (s, a) =>
    let h1 := { h with eng := { h.eng with dispArb := tabPut {} h.eng.dispArb f a } }
    match nextDispatch (slipAt h s) with
    | none => h
    | some d =>
      if stale h (slipOwner h s) d && !(buffersOf d).isEmpty then startWalk h1 s d true
      else if engineCheck h s d ≠ 0 then haltDesc h1 s d (engineCheck h s d)
      else setSlip h1 s (setDesc (slipAt h1 s) { d with phase := .dispatched, since := h.tb.now, objs := bindObjs h s d })

/-! ### Invalidation (R366 to R369, R372) -/

/-- What an epoch advance does to one descriptor of the partition it makes stale (R368): a move that has issued accesses pauses at its
next 4 KiB boundary, every other one at once. -/
def staleDesc (h : Hw) (s : Nat) (d : Desc) : Hw :=
  if (buffersOf d).isEmpty then h
  else match d.phase with
    | .staged => startWalk h s d true
    | .walking => startWalk h s { d with begun := d.begun } true
    | .dispatched =>
      if d.begun && decide (opcode d = 0x10 ∨ opcode d = 0x11) then setSlip h s (setDesc (slipAt h s) { d with pauseReq := true })
      else startWalk h s { d with begun := true } true
    | .waiting => startWalk h s { d with begun := true } true
    | _ => h

/-- Every descriptor of a partition that an advanced epoch makes stale is treated as R368 says. -/
def staleAll (h : Hw) (p : Nat) : Hw :=
  (h.eng.slips.filter (fun e => slipOwner h e.1 = p)).foldl (fun h e =>
    e.2.descs.foldl (fun h d => if stale h p d then staleDesc h e.1 d else h) h) h

/-- An invalidation advances an epoch on every die (R367); a wrap to zero makes every staged descriptor stale, as though
EPOCH_ALL had advanced, and no cached translation of the partition hits any more (R372). -/
def advanceEpoch (h : Hw) (p i : Nat) : Hw :=
  let v := epochAt h p i + 1
  let h1 := { h with eng := { h.eng with epochs := tabPut 0 h.eng.epochs (81 * p + i) v } }
  if v = 0 then
    let h2 := { h1 with eng := { h1.eng with leaves := tabClear h1.eng.leaves (fun k => decide ((unitAt h1 4 (k % 64)).owner = p)) } }
    (h2.eng.slips.filter (fun e => slipOwner h2 e.1 = p)).foldl (fun h e =>
      e.2.descs.foldl (fun h d => staleDesc h e.1 d) h) h2
  else staleAll h1 p

/-- Whether every invalidation of a partition has completed: no dispatched descriptor still runs under a stale
snapshot (R369). -/
def invalidated (h : Hw) (p : Nat) : Bool :=
  (h.eng.slips.filter (fun e => slipOwner h e.1 = p)).all (fun e => e.2.descs.all (fun d => !d.pauseReq))

/-- A stale dispatched move reaches its 4 KiB boundary with its issued accesses performed, pauses and is walked again for
its remaining bytes (R368). -/
def pauseDesc (h : Hw) (s : Nat) (seq : W32) : Hw :=
  match findDesc (slipAt h s) seq with
  | some d => if d.pauseReq && decide (d.phase = Phase.dispatched) then startWalk h s { d with pauseReq := false, begun := true } true else h
  | none => h

/-! ### Slip commands (R386, R395, R420 to R422, R735) -/

/-- ENABLE of a DISABLED slip (Table 13.3). -/
def slipEnable (h : Hw) (s : Nat) : Hw :=
  let x := slipAt h s
  if x.st ≠ SlipSt.disabled then h
  else if unitHolder h 4 x.group ≠ slipOwner h s ∨ groupDie x.group ≠ slipDie s then
    refuseEngine (setSlip h s { x with reason := 0x20 }) (slipOwner h s) 0 noDesc
  else if unitFenced h 4 x.group then setSlip h s { x with reason := 0x2E }
  else if (ferrySlips h (8 * x.group + x.ferry)).length ≥ 32 then setSlip h s { x with reason := 0x2D }
  else setSlip h s { x with st := .running, stopping := none, reason := 0 }

/-- Descriptors dispatched and not yet finished with. -/
def inFlight (d : Desc) : Bool :=
  decide (d.phase = Phase.dispatched ∨ d.phase = Phase.waiting ∨ d.phase = Phase.ended ∨ (d.phase = Phase.walking ∧ d.begun))

/-- A descriptor that waits at a knot, pool or ledger. -/
def syncWaiting (d : Desc) : Bool := decide (d.phase = Phase.waiting) && decide (opcode d ≥ 0x60)

/-- DISABLE of a RUNNING or STOPPED slip: undispatched descriptors are discarded without record, waits at knots, pools and
ledgers are withdrawn with their descriptors, HEAD is set to DONE (Table 13.3); the skip map is kept (R422). A stop under
way completes first. -/
def slipDisable (h : Hw) (s : Nat) : Hw :=
  let x := slipAt h s
  if x.stopping.isSome ∧ x.st = SlipSt.running then setSlip h s { x with disableReq := true }
  else if x.st = SlipSt.running ∨ x.st = SlipSt.stopped then
    withdrawWaits (setSlip h s { x with st := .disabling, head := x.done,
                                        descs := x.descs.filter (fun d => inFlight d && !syncWaiting d) })
      s (fun q => x.descs.any (fun d => decide (d.seq = q) && syncWaiting d))
  else h

/-- A DISABLING slip whose last dispatched descriptor has completed becomes DISABLED. -/
def slipDisabled (h : Hw) (s : Nat) : Hw :=
  let x := slipAt h s
  if x.st = SlipSt.disabling ∧ !(x.descs.any inFlight) then
    setSlip h s { x with st := .disabled, head := x.done, descs := [], stopping := none }
  else h

/-- A slip stops because its ferry group has left its partition (R735): no record for STOP_SEQ, final records after it in the skip map
(R420). -/
def stopUnserved (h : Hw) (s : Nat) : Hw :=
  let x := slipAt h s
  let done := (x.descs.filter (fun d => d.phase = Phase.final)).map (·.seq)
  let h1 := setSlip h s { x with st := .stopped, stopSeq := x.done, stopStatus := 0x09, reason := 0x20, head := x.done,
                                 descs := [], stopping := none, resume := 0, skip := x.skip.filter (fun k => k ∉ done) ++ done }
  raise (refuseEngine h1 (slipOwner h s) 0 (descArg s x.done.toNat)) (slipOwner h s) x.stopIrq

/-- RESTART of a STOPPED slip: fetching goes on at STOP_SEQ (R421). -/
def slipRestart (h : Hw) (s : Nat) : Hw :=
  let x := slipAt h s
  if x.st ≠ SlipSt.stopped then h
  else if unitHolder h 4 x.group ≠ slipOwner h s then stopUnserved h s
  else setSlip h s { x with st := .running, head := x.stopSeq, descs := [], stopping := none }

/-- DONE past the final sequence counts of the skip map that follow it. -/
def skipPast : Nat → W32 → List W32 → W32
  | 0, v, _ => v
  | n + 1, v, sk => if v ∈ sk then skipPast n (v + 1) sk else v

/-- RESTART_SKIP: DONE advances past STOP_SEQ and the final records that follow it; fetching goes on there (R420, R421). -/
def slipRestartSkip (h : Hw) (s : Nat) : Hw :=
  let x := slipAt h s
  if x.st ≠ SlipSt.stopped then h
  else if unitHolder h 4 x.group ≠ slipOwner h s then stopUnserved h s
  else
    let v := skipPast x.skip.length (x.stopSeq + 1) x.skip
    setSlip h s { x with st := .running, done := v, head := v, descs := [], stopping := none, resume := 0,
                         skip := x.skip.filter (fun k => decide ((k - v).toNat < 2 ^ 31)) }

end Sys2Proof.Machine
end

