-- ==== Sys2Proof/Machine/Access.lean ====
section
/-! DEFINITION. Accesses of the engines to the coherent space, to I/O space, to other packages and to bobbins: the selvedge
verdict, gated islands, poison, the shelf cache (R258 to R261) and the home's part of each access (Table 7.7). -/
namespace Sys2Proof.Machine

/-! ### Where an address leads -/

/-- What stands in the way of an engine's access. -/
inductive Verdict where
  | ok
  | remote                 -- another package serves it
  | absent                 -- its Position ID is no member (R48, R601)
  | refused (addr : Nat)   -- the selvedge refuses a piece (R87)
  | off                    -- behind a gated island (Table 2.5)
  | dead                   -- behind a port that is down (R645, R648)
deriving DecidableEq, Repr

/-- The verdict on an engine's access of `n` bytes at a compact address under a partition's tag. -/
def verdict (h : Hw) (p ca n : Nat) (write : Bool) : Verdict :=
  if !isLocal h ca then
    if 8 ≤ regionOf (compactLocal ca) then .refused (2 ^ 60 + ca)
    else if !(isMember h (compactPos ca) && !memberFenced h) then .absent
    else match refusedAfar h p ca n with
      | some x => .refused (2 ^ 60 + x)
      | none => .remote
  else
    let a := compactLocal ca
    match selFirstBad h p a n write with
    | some x => .refused x
    | none => if behindGhost h a then .off else if portDead h a then .dead else .ok

/-! ### The shelf cache and the home -/

/-- Whether a ferry read of a line may be looked up in a shelf cache (R258): of the local package regions 0, 6 and 7, of others region 1
too. -/
def shelfCacheable (tag : Nat) : Bool := decide (regionOf (tag * 64) ∈ [0, 6, 7]) || (decide (2 ^ 54 ≤ tag) && decide (regionOf (tag * 64) = 1))

/-- Whether SHELF_SPLIT_SET is between its steps at a slice (R263): a swatch that leaves CACHE is being scrubbed. -/
def splitting (h : Hw) (slot : Nat) : Bool :=
  h.sel.scrubs.any (fun r => !r.done && r.hidden && r.grant.isNone && r.units.any (fun k => decide (slotOfSwatch k = slot)))

/-- The slice in which a read by a ferry of die `die` looks a line up, if in any (R258, R260). -/
def lookupSlice (h : Hw) (die p : Nat) (noShelf : Bool) (tag : Nat) : Option Nat :=
  let slot := sliceOf die tag
  if die < 4 && shelfCacheable tag && !noShelf && decide (wayMask h slot p ≠ 0) && decide (cacheSwatches h slot ≠ 0)
      && decide ((islandAt h { kind := .shelf, idx := slot }).power = IslandPower.open) && !splitting h slot && decide (slot ∉ h.coh.bypass) then some slot
  else none

/-- The directory's and the shelf cache's part of a ferry read of one local line (R258 to R260): a lookup in the slice
of R260, filled by READ_SHARED, or READ_ONCE at the home; where the home is not ready the read waits, in an MSHR of the slice (R271). -/
def touchRead (h : Hw) (die p : Nat) (noShelf : Bool) (who line : Nat) : Hw :=
  if regionOf (line * 64) ∈ [4, 5] then h
  else match lookupSlice h die p noShelf line with
  | some slot =>
    let r := shelfAccess h slot (wayMask h slot p) line
    let q : DirReq := { kind := .readShared, agent := .slice slot, part := p }
    if r.2 then r.1
    else if notReady h line q || !missRoom h { line := line, req := q, caches := [400 + slot], who := who } then
      stall h { line := line, req := q, caches := [400 + slot], who := who }
    else homeTurn ((entryFor r.1 line q).getD r.1) line q
  | none => readOnce h p line

/-- The home's part of an engine's write of one line: WRITE_LINE for a whole line, WRITE_PART otherwise; it waits where
the home is not ready. -/
def touchWrite (h : Hw) (whole : Bool) (line : Nat) : Hw :=
  let q : DirReq := { kind := if whole then .writeLine else .writePart, agent := .other }
  if regionOf (line * 64) ∈ [4, 5] then h
  else if notReady h line q then stall h { line := line, req := collectReq line, write := true }
  else homeTurn (dropResv h line none) line q

/-- An INFO record of a request to a device that cannot be served (R645), counted at its port (PORT_STATUS). -/
def devErrorBy (h : Hw) (a requester reason : Nat) : Hw :=
  let o := (swatchAt h a).owner
  let h1 := match windowPort h a with
    | some n => { h with edges := { h.edges with ports := tabMod {} h.edges.ports n (fun x => { x with devErrors := (x.devErrors + 1) % 2 ^ 32 }) } }
    | none => h
  recordWrite h1 { type := 0x0A01, part := if o = 31 then 0xFF else o, addr := toCompact h.ident.position a, arg0 := requester, arg1 := reason }

/-- The same of a request whose PCIe requester ID the spec does not give: ARG0 is the root complex's own, zero. -/
def devError (h : Hw) (a : Nat) (reason : Nat) : Hw := devErrorBy h a 0 reason

/-- A partition's memory traffic grows by `n` bytes (Table 3.9). -/
def addTraffic (h : Hw) (p n : Nat) : Hw :=
  if p ≤ 16 then let r := partAt h p; setPart h p { r with traffic := r.traffic + n } else h

/-- A ferry read's part of one line of another package: a shelf slice holds it, by READ_SHARED, or READ_ONCE brings it (R258 to R260). -/
def touchAfar (h0 : Hw) (die p : Nat) (noShelf : Bool) (st line : Nat) : Hw :=
  let h := readyAfar h0 line
  match lookupSlice h die p noShelf (remoteTag line) with
  | some slot =>
    let x := proxyAt h line
    if bitOf x.slices slot && decide (x.part = p) then (shelfAccess h slot (wayMask h slot p) (remoteTag line)).1
    else shelfAccess (fillProxy h p line false 0 (2 ^ slot) st) slot (wayMask h slot p) (remoteTag line) |>.1
  | none => if (proxyAt h line).own then h else askRemote h p 3 (line * 64) 0 [] false

/-- An engine's read at another package: an access to I/O space as it is, in one request (R212); else from the copies this package holds, or
the homes' answers, line by line. -/
def readAcross (h : Hw) (die p : Nat) (noShelf : Bool) (ca n : Nat) : List Byte × Hw :=
  if inIo (compactLocal ca) then takeRemote (askRemote h p 3 ca n [] false) ca n
  else
    let h1 := (linesAfar ca n).foldl (fun g l => touchAfar g die p noShelf (lineStatus h p l) l) h
    let r := takeRemote h1 ca n
    let has (l : Nat) : Bool := (proxyAt h1 l).own || (lookupSlice h die p noShelf (remoteTag l)).isSome
    ((List.range n).map (fun i => if has ((ca + i) / 64) then proxyByte h1 (ca + i) else r.1.getD i 0), r.2)

/-- What an engine's read brought. -/
structure Got where
  v      : Verdict
  bytes  : List Byte
  poison : Bool

/-- An engine's read of `n` bytes at a compact address: data and whether it arrives poisoned; a ghost responder's is marked poisoned (R76).
A device's and another package's answer is free. `who` is the requester that, with the address, an MSHR's target stands for. -/
def engineRead (hm : HM) (die p : Nat) (noShelf : Bool) (ca n : Nat) (who : Nat := 0) : HM × Got :=
  let h0 := hm.1
  let a := compactLocal ca
  let h := if isLocal h0 ca then retryStall h0 a else h0
  match verdict h p ca n false with
  | .ok =>
    if regionOf a ∈ [4, 5] then
      let r := takeRemote h ca n
      ((r.2, hm.2), { v := .ok, bytes := r.1, poison := false })
    else
      ((linesOf a n).foldl (fun h l => touchRead h die p noShelf (who * 2 ^ 64 + ca) l) (addTraffic h p n), hm.2) |> fun hm1 =>
        (hm1, { v := .ok, bytes := cohRead hm1.1 hm.2 a n, poison := (linesOf a n).any (fun l => poisoned hm1.1 (l * 64)) })
  | .remote =>
    let r := readAcross h die p noShelf ca n
    let bad := (linesAfar ca n).any (fun l => decide (lineStatus h p l = 2) || (proxyAt h l).poison || tabGet false h.coh.gone l)
    ((addTraffic r.2 p n, hm.2), { v := .remote, bytes := r.1, poison := bad })
  | .dead => ((if regionOf a ∈ [4, 5] then devError h a 3 else h, hm.2), { v := .dead, bytes := zeros n, poison := true })
  | .off => let r := takeFreeBytes h n; ((r.2, hm.2), { v := .off, bytes := r.1, poison := true })
  | v => (hm, { v := v, bytes := zeros n, poison := true })

/-- An engine's write at a compact address, with the poison mark it carries: a whole line written sound clears the line's
mark, a poisoned write marks every line it touches, a partial sound write changes no mark (R341, Table 11.3). -/
def engineWrite (hm : HM) (p ca : Nat) (bs : List Byte) (poison : Bool) : HM × Verdict :=
  let a := compactLocal ca
  let h := if isLocal hm.1 ca then retryStall hm.1 a true else hm.1
  match verdict h p ca bs.length true with
  | .ok =>
    if regionOf a ∈ [4, 5] then ((h, hm.2), .ok)
    else
      let whole (l : Nat) : Bool := decide (a ≤ l * 64) && decide (l * 64 + 64 ≤ a + bs.length)
      let h1 := (linesOf a bs.length).foldl (fun h l => touchWrite h (whole l) l) (addTraffic h p bs.length)
      let hm2 := cohWrite (h1, hm.2) a bs
      let h3 := (linesOf a bs.length).foldl (fun h l =>
        if poison then markPoison h (l * 64) else if whole l then clearLine h (l * 64) else h) hm2.1
      ((h3, hm2.2), .ok)
  | .remote => ((remoteWrite h p ca bs poison, hm.2), .remote)
  | .dead => ((if regionOf a ∈ [4, 5] then devError h a 3 else h, hm.2), .dead)
  | v => (hm, v)

/-! ### Bobbins (R295, R341) -/

/-- Key of a byte of a bobbin. -/
def bobKey (loom off : Nat) : Nat := loom * 2 ^ 20 + off

/-- One byte of a bobbin: what was written, else zero, or a free value after its contents were lost. -/
def bobByte (h : Hw) (k : Nat) : Byte :=
  match tabGet none h.tiers.bobbin k with
  | some b => b
  | none =>
    let n := tabGet 0 h.tiers.lost (k / 2 ^ 22)
    if n = 0 then 0 else Config.lostByte n k

/-- `n` bytes of a bobbin. -/
def bobRead (h : Hw) (loom off n : Nat) : List Byte := (List.range n).map (fun i => bobByte h (bobKey loom (off + i)))

/-- Granules a range of a bobbin touches. -/
def granulesOf (off n : Nat) : List Nat :=
  if n = 0 then [] else (List.range ((off + n - 1) / 4096 - off / 4096 + 1)).map (fun i => off / 4096 + i)

/-- Whether any granule of a range of a bobbin is poisoned. -/
def bobPoisoned (h : Hw) (loom off n : Nat) : Bool := (granulesOf off n).any (fun g => tabGet false h.tiers.poison (loom * 256 + g))

/-- Set or clear the mark of a granule. -/
def bobMark (h : Hw) (loom g : Nat) (b : Bool) : Hw :=
  { h with tiers := { h.tiers with poison := tabPut false h.tiers.poison (loom * 256 + g) b } }

/-- A bobbin slot's tag. -/
def tagAt (h : Hw) (loom slot : Nat) : BobTag := tabGet {} h.tiers.tags (loom * 16 + slot)

/-- Write a bobbin slot's tag. -/
def setTag (h : Hw) (loom slot : Nat) (t : BobTag) : Hw :=
  { h with tiers := { h.tiers with tags := tabPut {} h.tiers.tags (loom * 16 + slot) t } }

/-- Bytes written to a table from a key upward. -/
def putBytes (t : Tab (Option Byte)) : Nat → List Byte → Tab (Option Byte)
  | _, [] => t
  | k, b :: bs => putBytes (tabPut none t k (some b)) (k + 1) bs

/-- Write a bobbin, leaving tags and marks alone. -/
def bobBytes (h : Hw) (loom off : Nat) (bs : List Byte) : Hw :=
  { h with tiers := { h.tiers with bobbin := putBytes h.tiers.bobbin (bobKey loom off) bs } }

/-- Write a bobbin by a means that invalidates the tags of the slots it touches (R295); a poisoned write marks every
granule it touches, a sound one clears the granules it covers whole (R341). -/
def bobWrite (h : Hw) (loom off : Nat) (bs : List Byte) (poison : Bool) : Hw :=
  let h1 := bobBytes h loom off bs
  let slots := if bs.length = 0 then [] else
    (List.range ((off + bs.length - 1) / 65536 - off / 65536 + 1)).map (fun i => off / 65536 + i)
  let h2 := slots.foldl (fun h s => setTag h loom s {}) h1
  (granulesOf off bs.length).foldl (fun h g =>
    if poison then bobMark h loom g true
    else if off ≤ g * 4096 ∧ g * 4096 + 4096 ≤ off + bs.length then bobMark h loom g false else h) h2

/-- A quad's bobbins are zeroed, with their tags and marks (Table 3.6, R295). -/
def loseBobbins (h : Hw) (quad : Nat) : Hw :=
  { h with tiers := { h.tiers with bobbin := tabClear h.tiers.bobbin (fun k => decide (k / 2 ^ 22 = quad)),
                                   lost := tabPut 0 h.tiers.lost quad 0,
                                   tags := tabClear h.tiers.tags (fun k => decide (k / 64 = quad)),
                                   poison := tabClear h.tiers.poison (fun k => decide (k / 1024 = quad)) } }

/-- A quad's bobbins lose their contents with power (R75, Table 5.8): what they then hold is free. -/
def dropBobbins (h : Hw) (quad : Nat) : Hw :=
  let h1 := loseBobbins h quad
  { h1 with tiers := { h1.tiers with lost := tabPut 0 h1.tiers.lost quad (h1.free + 1) }, free := h1.free + 1 }

end Sys2Proof.Machine
end

