-- ==== Sys2Proof/Machine/Codec.lean ====
section
/-! DEFINITION. The five codecs of chapter 9 (R296 to R308), exactly: image header, C1 planes, C2 exponent dictionary,
C3 and C4 scaled integers. -/
namespace Sys2Proof.Machine

/-! ### Rounding helpers -/

/-- An integer over 2^k rounded half to even; a negative k multiplies. -/
def rneShift (n : Int) (k : Int) : Int :=
  if k ≤ 0 then n * (2 ^ (-k).toNat : Nat)
  else
    let d : Int := (2 ^ k.toNat : Nat)
    let q := n / d
    let r := n % d
    if 2 * r < d then q else if 2 * r > d then q + 1 else if q % 2 = 0 then q else q + 1

/-- An integer over 2^k rounded toward minus infinity; a negative k multiplies. -/
def floorShift (n : Int) (k : Int) : Int :=
  if k ≤ 0 then n * (2 ^ (-k).toNat : Nat) else n / (2 ^ k.toNat : Nat)

/-! ### The 16-bit formats as exact integers -/

/-- A value of a 16-bit format: finite ones in units of the format's smallest subnormal. -/
inductive Val16 where
  | fin (v : Int)
  | inf (neg : Bool)
  | nan
deriving DecidableEq, Repr

/-- Mantissa bits: BF16 (0x08) 7, FP16 (0x09) 10. -/
def manBits (fmt : Nat) : Nat := if fmt = 0x08 then 7 else 10

/-- Exponent bits. -/
def expBits (fmt : Nat) : Nat := 15 - manBits fmt

/-- Minus the exponent of the smallest subnormal. -/
def unitExp (fmt : Nat) : Nat := if fmt = 0x08 then 133 else 24

/-- The value a 16-bit pattern has. -/
def dec16 (fmt x : Nat) : Val16 :=
  let p := manBits fmt
  let e := field x 14 p
  let m := field x (p - 1) 0
  let neg := bitOf x 15
  if e = 2 ^ expBits fmt - 1 then (if m = 0 then .inf neg else .nan)
  else
    let v : Int := if e = 0 then m else ((2 ^ p + m) * 2 ^ (e - 1) : Nat)
    .fin (if neg then -v else v)

/-- The largest finite value, in units. -/
def max16 (fmt : Nat) : Int := (((2 ^ (manBits fmt + 1) - 1) * 2 ^ (2 ^ expBits fmt - 3) : Nat) : Int)

/-- The canonical quiet NaN. -/
def qnan16 (fmt : Nat) : Nat := if fmt = 0x08 then 0x7FC0 else 0x7E00

/-- The pattern of a value, none when it is not exactly a value of the format; a zero is +0. -/
def enc16 (fmt : Nat) (v : Int) : Option Nat :=
  let p := manBits fmt
  let n := v.natAbs
  let s := if v < 0 then 2 ^ 15 else 0
  if n < 2 ^ p then some (s + n)
  else
    let e := Nat.log2 n - p + 1
    if n % 2 ^ (e - 1) ≠ 0 ∨ e ≥ 2 ^ expBits fmt - 1 then none
    else some (s + e * 2 ^ p + (n / 2 ^ (e - 1) - 2 ^ p))

/-- The pattern of an infinity. -/
def inf16 (fmt : Nat) (neg : Bool) : Nat := (2 ^ expBits fmt - 1) * 2 ^ manBits fmt + (if neg then 2 ^ 15 else 0)

/-- The 16-bit little-endian elements of a byte list. -/
def elems16 : List Byte → List Nat
  | a :: b :: t => (a.toNat + 256 * b.toNat) :: elems16 t
  | _ => []

/-- Consecutive blocks of `n` elements of a list, `k` of them. -/
def blocksOf {β : Type} (n : Nat) : Nat → List β → List (List β)
  | 0, _ => []
  | k + 1, l => l.take n :: blocksOf n k (l.drop n)

/-- Options all present, or none. -/
def allSome {β : Type} : List (Option β) → Option (List β)
  | [] => some []
  | none :: _ => none
  | some x :: t => (allSome t).map (x :: ·)

/-! ### C3 (R302, R303) -/

/-- s_min of a format. -/
def c3Min (fmt : Nat) : Int := if fmt = 0x08 then -127 else -24

/-- The smallest s from a start such that round(m / 2^s) is at most 126. -/
def c3Scale (fmt : Nat) (m : Int) : Nat → Int → Int
  | 0, s => s
  | n + 1, s => if rneShift m (s + unitExp fmt) ≤ 126 then s else c3Scale fmt m n (s + 1)

/-- The largest finite magnitude of a block. -/
def blockMax : List Val16 → Nat
  | [] => 0
  | .fin v :: t => max v.natAbs (blockMax t)
  | _ :: t => blockMax t

/-- One C3 block: its scale byte and its q bytes. -/
def c3Block (fmt : Nat) (vs : List Val16) : Nat × List Byte :=
  let s := c3Scale fmt (blockMax vs) 300 (c3Min fmt)
  ((s + 127).toNat, vs.map (fun v => match v with
    | .fin x => BitVec.ofNat 8 (unsigned 8 (rneShift x (s + unitExp fmt)))
    | .inf neg => if neg then 0x81 else 0x7F
    | .nan => 0x80))

/-- The C3 body of 32,768 values. -/
def c3Encode (fmt : Nat) (bs : List Byte) : List Byte :=
  let blks := (blocksOf 32 1024 ((elems16 bs).map (dec16 fmt))).map (c3Block fmt)
  blks.map (fun b => BitVec.ofNat 8 b.1) ++ blks.flatMap (fun b => b.2)

/-- One q of a block of scale byte S, as a pattern (R303); none when S breaks the codec's rules. -/
def c3Value (fmt sByte : Nat) (q : Byte) : Option Nat :=
  let s : Int := (sByte : Int) - 127
  if sByte = 255 ∨ s < c3Min fmt then none
  else if q = 0x7F then some (inf16 fmt false)
  else if q = 0x81 then some (inf16 fmt true)
  else if q = 0x80 then some (qnan16 fmt)
  else
    let v := signed 8 q.toNat * (2 ^ (s + unitExp fmt).toNat : Nat)
    let v' := if v > max16 fmt then max16 fmt else if v < -max16 fmt then -max16 fmt else v
    enc16 fmt v'

/-- Decode a C3 body. -/
def c3Decode (fmt : Nat) (body : List Byte) : Option (List Byte) :=
  let ss := (body.take 1024).map (·.toNat)
  let qs := blocksOf 32 1024 ((body.drop 1024).take 32768)
  (allSome ((ss.zip qs).flatMap (fun x => x.2.map (c3Value fmt x.1)))).map (fun l => l.flatMap (leBytes 2))

/-! ### C4 (R304, R305) -/

/-- The clamp of R304, in units. -/
def c4Clamp (fmt : Nat) : Int := (((if fmt = 0x08 then 65280 else 65504) * 2 ^ unitExp fmt : Nat) : Int)

/-- A clamped value. -/
def c4Val (fmt : Nat) (v : Val16) : Int :=
  let c := c4Clamp fmt
  match v with
  | .fin x => if x > c then c else if x < -c then -c else x
  | .inf neg => if neg then -c else c
  | .nan => 0

/-- The format's spacing in the binade of M, in units; zero when M is zero. -/
def c4Spacing (fmt m : Nat) : Nat :=
  if m = 0 then 0 else if m < 2 ^ (manBits fmt + 1) then 1 else 2 ^ (Nat.log2 m - manBits fmt)

/-- The exponent of d, in units. -/
def c4Exp (span spacing : Nat) : Nat → Nat → Nat
  | 0, t => t
  | n + 1, t => if 15 * 2 ^ t ≥ span ∧ 2 ^ t ≥ spacing then t else c4Exp span spacing n (t + 1)

/-- The FP16 pattern of an exact value in units of a format. -/
def toFp16 (fmt : Nat) (v : Int) : Nat := (enc16 0x09 (floorShift v ((unitExp fmt : Int) - 24))).getD 0

/-- One C4 group: its d and zp patterns and its sixteen q. -/
def c4Group (fmt : Nat) (vs : List Val16) : Nat × Nat × List Nat :=
  if vs.any (· = Val16.nan) then (0x7E00, 0, List.replicate 16 0)
  else
    let xs := vs.map (c4Val fmt)
    let lo := xs.foldl min (xs.headD 0)
    let hi := xs.foldl max (xs.headD 0)
    let t := c4Exp (hi - lo).toNat (c4Spacing fmt (max lo.natAbs hi.natAbs)) 400 (unitExp fmt - 24)
    let d : Int := (2 ^ t : Nat)
    let zp := d * Int.tdiv lo d
    (toFp16 fmt d, toFp16 fmt zp, xs.map (fun x => (max 0 (min 15 ((x - zp) / d))).toNat))

/-- Pairs of 4-bit values as bytes, the even one in [3:0]. -/
def nibbles : List Nat → List Byte
  | a :: b :: t => BitVec.ofNat 8 (a + 16 * b) :: nibbles t
  | _ => []

/-- The C4 body of 32,768 values. -/
def c4Encode (fmt : Nat) (bs : List Byte) : List Byte :=
  let gs := (blocksOf 16 2048 ((elems16 bs).map (dec16 fmt))).map (c4Group fmt)
  gs.flatMap (fun g => leBytes 2 g.1 ++ leBytes 2 g.2.1) ++ nibbles (gs.flatMap (fun g => g.2.2))

/-- The exact value of an FP16 pattern in units of a format of at least its range, if finite. -/
def fp16Units (fmt x : Nat) : Option Int :=
  match dec16 0x09 x with
  | .fin v => some (v * (2 ^ (unitExp fmt - 24) : Nat))
  | _ => none

/-- One C4 group decoded (R305); none when its d, its zp or, in a group of NaNs, its q breaks the codec's rules. -/
def c4Values (fmt d zp : Nat) (qs : List Nat) : Option (List Nat) :=
  if d = 0x7E00 then (if zp = 0 ∧ qs.all (· == 0) then some (List.replicate 16 (qnan16 fmt)) else none)
  else
    match fp16Units fmt d, fp16Units fmt zp with
    | some dv, some zv =>
      if dv ≤ 0 ∨ dv.toNat ≠ 2 ^ Nat.log2 dv.toNat ∨ zv % dv ≠ 0 then none
      else allSome (qs.map (fun q => enc16 fmt (zv + (q : Int) * dv)))
    | _, _ => none

/-- Decode a C4 body. -/
def c4Decode (fmt : Nat) (body : List Byte) : Option (List Byte) :=
  let heads := blocksOf 4 2048 (body.take 8192)
  let qs := blocksOf 8 2048 ((body.drop 8192).take 16384)
  (allSome ((heads.zip qs).map (fun x => c4Values fmt (leAt x.1 0 2) (leAt x.1 2 2)
    (x.2.flatMap (fun b => [b.toNat % 16, b.toNat / 16]))))).map (fun l => (l.flatMap id).flatMap (leBytes 2))

/-! ### C2 (R301) -/

/-- The exponent field and the sign-and-mantissa value of an element. -/
def c2Split (fmt x : Nat) : Nat × Nat :=
  let p := manBits fmt
  (field x 14 p, field x 15 15 * 2 ^ p + field x (p - 1) 0)

/-- An element from its exponent and its sign-and-mantissa value. -/
def c2Join (fmt e sm : Nat) : Nat :=
  let p := manBits fmt
  sm / 2 ^ p % 2 * 2 ^ 15 + e * 2 ^ p + sm % 2 ^ p

/-- Exponents that occur, ranked by count, ties by the smaller. -/
def c2Rank (es : List Nat) : List Nat :=
  let counts := (List.range 256).map (fun e => (e, (es.filter (· = e)).length))
  ((counts.filter (fun c => decide (c.2 ≠ 0))).mergeSort
    (fun a b => decide (a.2 > b.2) || (decide (a.2 = b.2) && decide (a.1 ≤ b.1)))).map (·.1)

/-- Values of w bits packed from the least significant bit, eight at a time. -/
def packBits (w : Nat) (k : Nat) (vs : List Nat) : List Byte :=
  (blocksOf 8 k vs).flatMap (fun b => leBytes w (b.foldr (fun v a => v % 2 ^ w + a * 2 ^ w) 0))

/-- 8 k values of w bits unpacked. -/
def unpackBits (w k : Nat) (bs : List Byte) : List Nat :=
  (blocksOf w k bs).flatMap (fun b => (List.range 8).map (fun i => leNat b / 2 ^ (w * i) % 2 ^ w))

/-- Bits of the sign-and-mantissa stream's values. -/
def smBits (fmt : Nat) : Nat := manBits fmt + 1

/-- The C2 body for an index width, and its number of escapes. -/
def c2Body (fmt iw : Nat) (bs : List Byte) : List Byte × Nat :=
  let xs := (elems16 bs).map (c2Split fmt)
  let dict := (c2Rank (xs.map (·.1))).take (2 ^ iw - 1)
  let esc := (xs.map (·.1)).filter (fun e => !(dict.contains e))
  let idx := xs.map (fun x => (dict.findIdx? (· = x.1)).getD (2 ^ iw - 1))
  (dict.map (BitVec.ofNat 8) ++ zeros (16 - dict.length) ++ packBits iw 4096 idx ++ esc.map (BitVec.ofNat 8)
     ++ packBits (smBits fmt) 4096 (xs.map (·.2)), esc.length)

/-- The C2 body of the index width that gives the smallest image, ties to the smaller width: width, body, escapes. -/
def c2Encode (fmt : Nat) (bs : List Byte) : Nat × List Byte × Nat :=
  let a := c2Body fmt 2 bs
  let b := c2Body fmt 3 bs
  let c := c2Body fmt 4 bs
  if a.1.length ≤ b.1.length ∧ a.1.length ≤ c.1.length then (2, a)
  else if b.1.length ≤ c.1.length then (3, b) else (4, c)

/-- Exponents of elements from their indices, taking escapes in order; none when escapes run out or one is no exponent. -/
def c2Exps (iw : Nat) (dict : List Nat) : List Nat → List Nat → Option (List Nat × List Nat)
  | [], esc => some ([], esc)
  | i :: is, esc =>
    if i = 2 ^ iw - 1 then
      match esc with
      | [] => none
      | e :: es => (c2Exps iw dict is es).map (fun r => (e :: r.1, r.2))
    else (c2Exps iw dict is esc).map (fun r => (dict.getD i 0 :: r.1, r.2))

/-- Decode a C2 body. R301 gives the body of a bolt and an index width whole: another one breaks the codec's rules (R308). -/
def c2Decode (fmt iw esc : Nat) (body : List Byte) : Option (List Byte) :=
  if iw < 2 ∨ iw > 4 ∨ body.length ≠ 16 + 4096 * iw + esc + 4096 * smBits fmt then none
  else
    let dict := (body.take 16).map (·.toNat)
    let idx := unpackBits iw 4096 (body.drop 16)
    let es := ((body.drop (16 + 4096 * iw)).take esc).map (·.toNat)
    let sm := unpackBits (smBits fmt) 4096 (body.drop (16 + 4096 * iw + esc))
    match c2Exps iw dict idx es with
    | some (exps, []) =>
      if exps.all (fun e => decide (e < 2 ^ expBits fmt)) then
        let bs := (exps.zip sm).flatMap (fun x => leBytes 2 (c2Join fmt x.1 x.2))
        if (c2Body fmt iw bs).1 = body then some bs else none
      else none
    | _ => none

/-! ### C1 (R300) -/

/-- Bytes of an element plane step: 2 for BF16 and FP16, 4 for FP32 and INT32, else 1. -/
def c1Width (fmt : Nat) : Nat := if fmt = 0x08 ∨ fmt = 0x09 then 2 else if fmt = 0x0D ∨ fmt = 0x0E then 4 else 1

/-- Every n-th byte of a list. -/
def everyNth (n : Nat) (k : Nat) (bs : List Byte) : List Byte := (blocksOf n (bs.length / n) bs).map (fun b => b.getD k 0)

/-- The symbols of a run of n zero bytes: set bits from the most significant down. -/
def runSyms (n : Nat) : List Nat :=
  ((List.range 17).reverse.filter (fun i => bitOf n i)).map (fun i => if i = 0 then 0 else 255 + i)

/-- The symbols of a plane; `z` counts the zero bytes seen just before. -/
def c1Syms : Nat → List Byte → List Nat
  | z, [] => runSyms z
  | z, b :: bs => if b = 0 then c1Syms (z + 1) bs else runSyms z ++ b.toNat :: c1Syms 0 bs

/-- Whether lengths form a table RFC 1951 allows: exactly one symbol, or a complete code of lengths up to 15. -/
def c1Table (ls : List Nat) : Bool :=
  decide ((ls.filter (· ≠ 0)).length = 1) ||
  (ls.all (fun l => decide (l ≤ 15)) && decide ((ls.map (fun l => if l = 0 then 0 else 2 ^ (15 - l))).foldl (· + ·) 0 = 2 ^ 15))

/-- Lengths of a complete code over n used symbols, as even as they can be: the table taken where the open rule gives no
valid one. -/
def flatLens (used : List Bool) : List Nat :=
  let n := (used.filter id).length
  let k := Nat.log2 n
  let short := 2 ^ (k + 1) - n
  (used.foldl (fun (a : List Nat × Nat) u =>
    if u then (a.1 ++ [if a.2 < short then max 1 k else k + 1], a.2 + 1) else (a.1 ++ [0], a.2)) ([], 0)).1

/-- The code lengths of a plane: the encoder's open rule where it gives a valid table for the symbols used. -/
def c1Lens (plane : List Byte) (syms : List Nat) : List Nat :=
  let used := (List.range 272).map (fun s => syms.contains s)
  let ls := (List.range 272).map (fun s => Config.c1Length plane s)
  if c1Table ls && decide (ls.map (fun l => decide (l ≠ 0)) = used) then ls else flatLens used

/-- The canonical codes of a table (RFC 1951, 3.2.2): length, code and symbol of each used symbol, in order. A single
used symbol is the bit 0. -/
def c1Codes (ls : List Nat) : List (Nat × Nat × Nat) :=
  let used := ((List.range ls.length).map (fun s => (ls.getD s 0, s))).filter (fun x => decide (x.1 ≠ 0))
  match used with
  | [(_, s)] => [(1, 0, s)]
  | us =>
    let cnt (l : Nat) : Nat := (us.filter (fun x => decide (x.1 = l))).length
    let first (l : Nat) : Nat := (List.range l).foldl (fun c k => (c + if k = 0 then 0 else cnt k) * 2) 0
    us.map (fun x => (x.1, first x.1 + (us.filter (fun y => decide (y.1 = x.1 ∧ y.2 < x.2))).length, x.2))

/-- The bits of a code, most significant first. -/
def codeBits (len code : Nat) : List Bool := (List.range len).reverse.map (fun i => bitOf code i)

/-- Bits packed into bytes from the least significant bit, the last byte padded with zeros. -/
def bitsBytes : List Bool → List Byte
  | b0 :: b1 :: b2 :: b3 :: b4 :: b5 :: b6 :: b7 :: t =>
    BitVec.ofNat 8 (flag b0 + 2 * flag b1 + 4 * flag b2 + 8 * flag b3 + 16 * flag b4 + 32 * flag b5 + 64 * flag b6 + 128 * flag b7)
      :: bitsBytes t
  | [] => []
  | l => [BitVec.ofNat 8 (l.foldr (fun b a => flag b + 2 * a) 0)]

/-- Bits of bytes, least significant first. -/
def bytesBits (bs : List Byte) : List Bool := bs.flatMap (fun b => (List.range 8).map (fun i => b.toNat.testBit i))

/-- The code bits of symbols. -/
def c1Bits (codes : List (Nat × Nat × Nat)) (syms : List Nat) : List Bool :=
  syms.flatMap (fun s => match codes.find? (fun c => decide (c.2.2 = s)) with
    | some c => codeBits c.1 c.2.1
    | none => [])

/-- One encoded plane: its mode byte and what follows. -/
def c1Plane (plane : List Byte) : List Byte :=
  if plane.all (· == 0) then [0]
  else
    let syms := c1Syms 0 plane
    let ls := c1Lens plane syms
    let codes := c1Codes ls
    let bits := c1Bits codes syms
    let coded : List Byte := 2 :: nibbles ls ++ leBytes 4 bits.length ++ bitsBytes bits
    if plane.length + 1 ≤ coded.length then 1 :: plane else coded

/-- The C1 body. -/
def c1Encode (fmt : Nat) (bs : List Byte) : List Byte :=
  (List.range (c1Width fmt)).flatMap (fun k => c1Plane (everyNth (c1Width fmt) k bs))

/-- The bytes of a symbol. -/
def symBytes (s : Nat) : List Byte := if s < 256 then [BitVec.ofNat 8 s] else List.replicate (2 ^ (s - 255)) 0

/-- Decode code bits into a plane of n bytes: `len` and `code` are the code read so far; none on a bad stream. -/
def c1Stream (codes : List (Nat × Nat × Nat)) : Nat → Nat → Nat → List Bool → Option (List Byte)
  | n, len, _, [] => if n = 0 ∧ len = 0 then some [] else none
  | n, len, code, b :: bs =>
    let code' := 2 * code + flag b
    match codes.find? (fun c => decide (c.1 = len + 1 ∧ c.2.1 = code')) with
    | some c =>
      let out := symBytes c.2.2
      if out.length ≤ n then (c1Stream codes (n - out.length) 0 0 bs).map (out ++ ·) else none
    | none => if len ≥ 15 then none else c1Stream codes n (len + 1) code' bs

/-- Decode one plane of n bytes: the plane and what follows it. A CODED plane's stream is the one R300 gives the plane and its table, with its
runs maximal and its padding zero; another breaks the codec's rules (R308). -/
def c1PlaneDecode (n : Nat) (bs : List Byte) : Option (List Byte × List Byte) :=
  match bs with
  | [] => none
  | mode :: t =>
    if mode = 0 then some (zeros n, t)
    else if mode = 1 then (if t.length < n then none else some (t.take n, t.drop n))
    else if mode = 2 then
      let ls := (t.take 136).flatMap (fun b => [b.toNat % 16, b.toNat / 16])
      let cnt := leAt t 136 4
      let stream := (t.drop 140).take (ceilDiv cnt 8)
      if t.length < 140 + ceilDiv cnt 8 ∨ !c1Table ls then none
      else match c1Stream (c1Codes ls) n 0 0 ((bytesBits stream).take cnt) with
        | some p => if stream = bitsBytes (c1Bits (c1Codes ls) (c1Syms 0 p)) then some (p, t.drop (140 + ceilDiv cnt 8)) else none
        | none => none
    else none

/-- Decode k planes of n bytes; nothing may follow them. -/
def c1Planes (n : Nat) : Nat → List Byte → Option (List (List Byte))
  | 0, bs => if bs.isEmpty then some [] else none
  | k + 1, bs =>
    match c1PlaneDecode n bs with
    | some (p, t) => (c1Planes n k t).map (p :: ·)
    | none => none

/-- Decode a C1 body. -/
def c1Decode (fmt : Nat) (body : List Byte) : Option (List Byte) :=
  let w := c1Width fmt
  (c1Planes (65536 / w) w body).map (fun ps =>
    (List.range (65536 / w)).flatMap (fun i => ps.map (fun p => p.getD i 0)))

/-! ### Images (R297 to R299, R307, R308) -/

/-- Codecs a format allows (Table 9.2). -/
def codecAllowed (fmt codec : Nat) : Bool := decide (codec ≤ 1) || (decide (codec ≤ 4) && decide (fmt = 0x08 ∨ fmt = 0x09))

/-- Whether a format code is defined (Table 9.2). -/
def formatOk (fmt : Nat) : Bool := decide (1 ≤ fmt ∧ fmt ≤ 0x0E)

/-- Granules of the poison map read as zero (R307). -/
def zeroPoisoned (pm : Nat) (bs : List Byte) : List Byte :=
  ((blocksOf 4096 16 bs).zip (List.range 16)).flatMap (fun x => if bitOf pm x.2 then zeros 4096 else x.1)

/-- The header of an image (Table 9.9). -/
def imgHeader (codec fmt param rows cols len obj pm bolt esc check : Nat) : List Byte :=
  leBytes 4 0x544C4259 ++ leBytes 1 codec ++ leBytes 1 fmt ++ leBytes 2 param ++ leBytes 2 rows ++ leBytes 2 cols
    ++ leBytes 4 len ++ leBytes 2 obj ++ leBytes 2 pm ++ leBytes 4 bolt ++ leBytes 4 esc ++ leBytes 4 check ++ zeros 32

/-- Encode a bolt: the codec used and the image bytes, CHECK over what they decode to. A C1 or C2 image above 61,440 bytes falls back to C0
(R299). -/
def encodeImage (codec fmt rows cols obj bolt pm : Nat) (data : List Byte) : Nat × List Byte :=
  let bs := zeroPoisoned pm data
  let img (param : Nat) (body : List Byte) (esc : Nat) (decoded : List Byte) : List Byte :=
    imgHeader codec fmt param rows cols (64 + body.length) obj pm bolt esc (crc32c decoded) ++ body
  match codec with
  | 1 => let i := img (c1Width fmt) (c1Encode fmt bs) 0 bs
         if i.length > 61440 then (0, data) else (1, i)
  | 2 => let r := c2Encode fmt bs
         let i := img r.1 r.2.1 r.2.2 bs
         if i.length > 61440 then (0, data) else (2, i)
  | 3 => let b := c3Encode fmt bs
         (3, img 0 b 0 ((c3Decode fmt b).getD bs))
  | 4 => let b := c4Encode fmt bs
         (4, img 0 b 0 ((c4Decode fmt b).getD bs))
  | _ => (0, data)

/-- Decode an encoded image of `lines` lines: the 65,536 bytes and the granules marked poisoned; none when a check of
R308 rejects it, or its format does not allow its codec (Table 9.2). DESIGN CHOICE (log entry 85): the header's ROWS and COLS, which say
nothing of a length in bytes, are not among the lengths R308 checks. -/
def decodeImage (codec fmt lines : Nat) (img : List Byte) : Option (List Byte × Nat) :=
  let len := leAt img 0x0C 4
  if leAt img 0 4 ≠ 0x544C4259 ∨ leAt img 4 1 ≠ codec ∨ leAt img 5 1 ≠ fmt ∨ len < 64 ∨ ceilDiv len 64 ≠ lines ∨
      !codecAllowed fmt codec then none
  else
    let body := (img.take len).drop 64
    let param := leAt img 6 2
    let out := match codec with
      | 1 => if param = c1Width fmt then c1Decode fmt body else none
      | 2 => c2Decode fmt param (leAt img 0x18 4) body
      | 3 => if param = 0 ∧ len = 33856 then c3Decode fmt body else none
      | 4 => if param = 0 ∧ len = 24640 then c4Decode fmt body else none
      | _ => none
    match out with
    | some bs => if crc32c bs = leAt img 0x1C 4 then some (bs, leAt img 0x12 2) else none
    | none => none

/-- Room a codec's image must have at its destination (R298). -/
def imageRoom (codec : Nat) : Nat := if codec = 3 then 33856 else if codec = 4 then 24640 else 65536

end Sys2Proof.Machine
end

