-- ==== Sys2Proof/Machine/Num.lean ====
section
/-! DEFINITION. The numeric base of looms and finishers (R429 to R434, R455 to R457, R462): floating-point values as exact
dyadic numbers, one rounding per step, conversions, and the approximated functions within the bounds of Table 15.5. -/
namespace Sys2Proof.Machine

/-! ### Values and formats -/

/-- A floating-point value: (-1)^neg m 2^e when finite. -/
inductive FV where
  | fin (neg : Bool) (m : Nat) (e : Int)
  | inf (neg : Bool)
  | nan
deriving DecidableEq, Repr

/-- How the top exponent of a format is used: IEEE infinities and NaNs, only S.1..1 NaN (E4M3), or numbers alone. -/
inductive TopExp where | ieee | oneNan | none
deriving DecidableEq, Repr

/-- A binary format: exponent bits, mantissa bits, use of the top exponent. -/
structure Fmt where
  eb  : Nat
  mb  : Nat
  top : TopExp
deriving DecidableEq, Repr

/-- Bias of a format. -/
def Fmt.bias (f : Fmt) : Int := (2 ^ (f.eb - 1) : Nat) - 1

/-- Exponent of the smallest subnormal. -/
def Fmt.emin (f : Fmt) : Int := 1 - f.bias - f.mb

/-- Bits of a format. -/
def Fmt.bits (f : Fmt) : Nat := 1 + f.eb + f.mb

/-- binary32. -/
def binary32 : Fmt := { eb := 8, mb := 23, top := .ieee }

/-- binary64. -/
def binary64 : Fmt := { eb := 11, mb := 52, top := .ieee }

/-- The float format of a code of Table 9.2 (integers and BIN1 excluded). -/
def fmtOf (code : Nat) : Option Fmt :=
  match code with
  | 0x01 | 0x03 => some { eb := 4, mb := 3, top := .oneNan }
  | 0x02 | 0x04 => some { eb := 5, mb := 2, top := .ieee }
  | 0x05 => some { eb := 3, mb := 2, top := .none }
  | 0x06 => some { eb := 2, mb := 3, top := .none }
  | 0x07 => some { eb := 2, mb := 1, top := .none }
  | 0x08 => some { eb := 8, mb := 7, top := .ieee }
  | 0x09 => some { eb := 5, mb := 10, top := .ieee }
  | 0x0D => some binary32
  | _ => none

/-- Bits per element of a format code (Table 9.2). -/
def fmtBits (code : Nat) : Nat :=
  match code with
  | 0x05 | 0x06 => 6
  | 0x07 | 0x0B => 4
  | 0x08 | 0x09 => 16
  | 0x0C => 1
  | 0x0D | 0x0E => 32
  | _ => 8

/-- Whether a code is an MX format. -/
def isMx (code : Nat) : Bool := decide (0x03 ≤ code ∧ code ≤ 0x07)

/-- The value of a pattern. -/
def decF (f : Fmt) (x : Nat) : FV :=
  let e := field x (f.eb + f.mb - 1) f.mb
  let m := field x (f.mb - 1) 0
  let m := if f.mb = 0 then 0 else m
  let neg := bitOf x (f.eb + f.mb)
  let num : FV := if e = 0 then .fin neg m f.emin else .fin neg (2 ^ f.mb + m) (f.emin + (e - 1 : Nat))
  if e = 2 ^ f.eb - 1 then
    match f.top with
    | .ieee => if m = 0 then .inf neg else .nan
    | .oneNan => if m = 2 ^ f.mb - 1 then .nan else num
    | .none => num
  else num

/-- Canonical quiet NaN pattern of a format. -/
def qnan (f : Fmt) : Nat :=
  match f.top with
  | .ieee => (2 ^ f.eb - 1) * 2 ^ f.mb + 2 ^ (f.mb - 1)
  | _ => 2 ^ (f.eb + f.mb) - 1

/-- Pattern of the largest finite magnitude. -/
def maxPat (f : Fmt) : Nat :=
  match f.top with
  | .ieee => (2 ^ f.eb - 1) * 2 ^ f.mb - 1
  | .oneNan => 2 ^ (f.eb + f.mb) - 2
  | .none => 2 ^ (f.eb + f.mb) - 1

/-- Round a magnitude m 2^e to a precision of p bits, ties to even, its last place no lower than 2^emin (R434). -/
def rndMag (p : Nat) (emin : Int) (m : Nat) (e : Int) : Nat × Int :=
  if m = 0 then (0, emin)
  else
    let k := max ((Nat.log2 m : Int) + e - (p - 1 : Nat)) emin
    ((rneShift m (k - e)).toNat, k)

/-- The pattern of a rounded magnitude q 2^k, before any overflow check; it may lie beyond the largest finite pattern. -/
def packMag (f : Fmt) (q : Nat) (k : Int) : Nat :=
  if q < 2 ^ f.mb then q
  else
    let q' := if q = 2 ^ (f.mb + 1) then 2 ^ f.mb else q
    let k' := if q = 2 ^ (f.mb + 1) then k + 1 else k
    ((k' - f.emin + 1).toNat) * 2 ^ f.mb + (q' - 2 ^ f.mb)

/-- Convert a value to a format (R434): the pattern, and whether it overflowed. Saturation gives the largest finite value
of the sign; otherwise infinity, or NaN in a format without one. -/
def encF (f : Fmt) (sat : Bool) (v : FV) : Nat × Bool :=
  let s (neg : Bool) : Nat := if neg then 2 ^ (f.eb + f.mb) else 0
  let top (neg : Bool) : Nat := if sat || decide (f.top ≠ TopExp.ieee) then s neg + maxPat f else s neg + (2 ^ f.eb - 1) * 2 ^ f.mb
  match v with
  | .nan => (qnan f, false)
  | .inf neg => (if f.top = TopExp.ieee then s neg + (2 ^ f.eb - 1) * 2 ^ f.mb else top neg, false)
  | .fin neg m e =>
    let r := rndMag (f.mb + 1) f.emin m e
    let b := packMag f r.1 r.2
    if b > maxPat f then (top neg, true) else (s neg + b, false)

/-! ### Exact operations and the one rounding -/

/-- A finite value as an integer multiple of 2^e for an e no larger than its own. -/
def scaled (neg : Bool) (m : Nat) (e e0 : Int) : Int :=
  let x : Int := m * (2 ^ (e - e0).toNat : Nat)
  if neg then -x else x

/-- Exact sum (R430: a sum of exact zeros is +0 but for −0 and −0). -/
def fadd (a b : FV) : FV :=
  match a, b with
  | .nan, _ => .nan
  | _, .nan => .nan
  | .inf x, .inf y => if x = y then .inf x else .nan
  | .inf x, _ => .inf x
  | _, .inf y => .inf y
  | .fin s1 m1 e1, .fin s2 m2 e2 =>
    let e0 := min e1 e2
    let v := scaled s1 m1 e1 e0 + scaled s2 m2 e2 e0
    if v = 0 then .fin (s1 && s2 && decide (m1 = 0) && decide (m2 = 0)) 0 0
    else .fin (decide (v < 0)) v.natAbs e0

/-- Negation. -/
def fneg : FV → FV
  | .nan => .nan
  | .inf x => .inf (!x)
  | .fin s m e => .fin (!s) m e

/-- Absolute value. -/
def fabs : FV → FV
  | .nan => .nan
  | .inf _ => .inf false
  | .fin _ m e => .fin false m e

/-- Exact product. -/
def fmul (a b : FV) : FV :=
  match a, b with
  | .nan, _ => .nan
  | _, .nan => .nan
  | .inf x, .inf y => .inf (x != y)
  | .inf x, .fin s m _ => if m = 0 then .nan else .inf (x != s)
  | .fin s m _, .inf y => if m = 0 then .nan else .inf (s != y)
  | .fin s1 m1 e1, .fin s2 m2 e2 => .fin (s1 != s2) (m1 * m2) (e1 + e2)

/-- Comparison: a < b; false with a NaN, zeros equal. -/
def flt (a b : FV) : Bool :=
  match a, b with
  | .nan, _ => false
  | _, .nan => false
  | .inf x, .inf y => x && !y
  | .inf x, _ => x
  | _, .inf y => !y
  | .fin s1 m1 e1, .fin s2 m2 e2 => let e0 := min e1 e2; decide (scaled s1 m1 e1 e0 < scaled s2 m2 e2 e0)

/-- Equality of numbers: false with a NaN, zeros equal. -/
def feq (a b : FV) : Bool := !flt a b && !flt b a && decide (a ≠ FV.nan) && decide (b ≠ FV.nan)

/-- Whether a value is zero. -/
def fzero : FV → Bool
  | .fin _ m _ => decide (m = 0)
  | _ => false

/-- Round to a format's values, overflow giving infinity. -/
def rnd (f : Fmt) (v : FV) : FV := decF f (encF f false v).1

/-- rne32: one rounding to binary32 (R429). -/
def rne32 (v : FV) : FV := rnd binary32 v

/-- Value of a binary32 pattern. -/
def f32 (x : Nat) : FV := decF binary32 x

/-- Pattern of a binary32 value. -/
def b32 (v : FV) : Nat := (encF binary32 false v).1

/-- An integer as a value. -/
def fint (n : Int) : FV := .fin (decide (n < 0)) n.natAbs 0

/-- The quotient of two finite values rounded once to binary32, the divisor not zero: 60 further bits and a sticky bit
decide the rounding. -/
def fdivMag (m1 : Nat) (e1 : Int) (m2 : Nat) (e2 : Int) : Nat × Int :=
  let sh := Nat.log2 m2 + 60
  let n := m1 * 2 ^ sh
  let q := n / m2
  (2 * q + (if n % m2 = 0 then 0 else 1), e1 - e2 - sh - 1)

/-- Division rounded once. -/
def fdiv32 (a b : FV) : FV :=
  match a, b with
  | .nan, _ => .nan
  | _, .nan => .nan
  | .inf _, .inf _ => .nan
  | .inf x, .fin s _ _ => .inf (x != s)
  | .fin s _ _, .inf y => .fin (s != y) 0 0
  | .fin s1 m1 e1, .fin s2 m2 e2 =>
    if m2 = 0 then (if m1 = 0 then .nan else .inf (s1 != s2))
    else if m1 = 0 then .fin (s1 != s2) 0 0
    else
      let q := fdivMag m1 e1 m2 e2
      rne32 (.fin (s1 != s2) q.1 q.2)

/-- Integer square root by bits: `n` bits of result remain. -/
def isqrtGo : Nat → Nat → Nat → Nat
  | 0, _, r => r
  | n + 1, x, r => if (r + 2 ^ n) * (r + 2 ^ n) ≤ x then isqrtGo n x (r + 2 ^ n) else isqrtGo n x r

/-- Integer square root. -/
def isqrt (x : Nat) : Nat := isqrtGo (Nat.log2 x / 2 + 1) x 0

/-- Square root of m 2^e with a sticky bit, to at least 60 bits. -/
def sqrtMag (m : Nat) (e : Int) : Nat × Int :=
  let m' := if e % 2 = 0 then m else 2 * m
  let e' := if e % 2 = 0 then e else e - 1
  let n := m' * 2 ^ 128
  let q := isqrt n
  (2 * q + (if q * q = n then 0 else 1), e' / 2 - 64 - 1)

/-- Square root rounded once (MAP SQRT, exact). -/
def fsqrt32 (a : FV) : FV :=
  match a with
  | .nan => .nan
  | .inf x => if x then .nan else .inf false
  | .fin s m e => if m = 0 then .fin s 0 0 else if s then .nan else let q := sqrtMag m e; rne32 (.fin false q.1 q.2)

/-- Larger of two, NaN if either is (R457); of equal zeros, +0. -/
def fmax (a b : FV) : FV :=
  if a = FV.nan ∨ b = FV.nan then .nan else if flt a b then b else if flt b a then a
  else match a with | .fin true 0 _ => b | _ => a

/-- Smaller of two, NaN if either is; of equal zeros, −0. -/
def fmin (a b : FV) : FV :=
  if a = FV.nan ∨ b = FV.nan then .nan else if flt a b then a else if flt b a then b
  else match a with | .fin false 0 _ => b | _ => a

/-! ### Approximated functions (R462, Table 15.5)

The exact values are computed in fixed point with 240 fractional bits, far beyond binary32; the device's result is any
binary32 value within the bound, chosen by Config.approx. -/

/-- One in fixed point. -/
def fx1 : Int := (2 ^ 240 : Nat)

/-- Fixed-point product. -/
def fxMul (a b : Int) : Int := a * b / fx1

/-- Sum of a series: term k+1 from term k. -/
def fxSeries (next : Nat → Int → Int) : Nat → Nat → Int → Int → Int
  | 0, _, _, s => s
  | n + 1, k, t, s => fxSeries next n (k + 1) (next k t) (s + t)

/-- e^r for a small fixed-point r. -/
def fxExp (r : Int) : Int := fxSeries (fun k t => fxMul t r / ((k : Int) + 1)) 90 0 fx1 0

/-- artanh of 1 / n, or of a small fixed-point z. -/
def fxAtanh (z : Int) : Int :=
  let z2 := fxMul z z
  ((List.range 170).foldl (fun (a : Int × Int) k => (fxMul a.1 z2, a.2 + a.1 / (2 * (k : Int) + 1))) (z, 0)).2

/-- arctan of a small fixed-point z. -/
def fxAtan (z : Int) : Int :=
  let z2 := fxMul z z
  ((List.range 120).foldl (fun (a : Int × Int) k => (-(fxMul a.1 z2), a.2 + a.1 / (2 * (k : Int) + 1))) (z, 0)).2

/-- ln 2. -/
def fxLn2 : Int := 2 * fxAtanh (fx1 / 3)

/-- π. -/
def fxPi : Int := 16 * fxAtan (fx1 / 5) - 4 * fxAtan (fx1 / 239)

/-- A finite value in fixed point, rounded toward minus infinity. -/
def fxOf (neg : Bool) (m : Nat) (e : Int) : Int := floorShift (if neg then -(m : Int) else m) (-e - 240)

/-- e^x of a fixed-point x: a magnitude and its exponent. -/
def expMag (x : Int) : Nat × Int :=
  let k := (2 * x + fxLn2) / (2 * fxLn2)
  ((fxExp (x - k * fxLn2)).toNat, k - 240)

/-- e^x of a fixed-point x, in fixed point. -/
def fxExpFull (x : Int) : Int := let r := expMag x; floorShift r.1 (-(r.2 + 240))

/-- Natural logarithm of m 2^e in fixed point. -/
def fxLog (m : Nat) (e : Int) : Int :=
  let l := Nat.log2 m
  let y := fxOf false m (-(l : Int))
  2 * fxAtanh ((y - fx1) * fx1 / (y + fx1)) + (e + l) * fxLn2

/-- tanh of a fixed-point x. -/
def fxTanh (x : Int) : Int :=
  let t := fxExpFull (2 * (if x < 0 then -x else x))
  let v := (t - fx1) * fx1 / (t + fx1)
  if x < 0 then -v else v

/-- 1 / (1 + e^(−x)) as a magnitude and its exponent. -/
def sigmoidMag (x : Int) : Nat × Int :=
  if x ≥ 0 then ((fx1 * fx1 / (fx1 + fxExpFull (-x))).toNat, -240)
  else
    let r := expMag x
    ((r.1 * fx1 / (fx1 + fxExpFull x)).toNat, r.2)

/-- erf of a fixed-point z with |z| ≤ 8 by its power series. -/
def fxErf (z : Int) : Int :=
  let z2 := fxMul z z
  let s := ((List.range 320).foldl (fun (a : Int × Int) n =>
    (-(fxMul a.1 z2) / ((n : Int) + 1), a.2 + a.1 / (2 * (n : Int) + 1))) (z, 0)).2
  2 * s * fx1 / (isqrt (fxPi * fx1).toNat : Int)

/-- sin of a fixed-point x after reduction to a half turn. -/
def fxSin (x0 : Int) : Int :=
  let x := x0 - (2 * x0 + 2 * fxPi) / (4 * fxPi) * (2 * fxPi)
  let x2 := fxMul x x
  ((List.range 60).foldl (fun (a : Int × Int) k =>
    (-(fxMul a.1 x2) / ((2 * (k : Int) + 2) * (2 * k + 3)), a.2 + a.1)) (x, 0)).2

/-- The centre of an approximated function's result as an exact dyadic value, for a finite argument in its domain. -/
def approxCentre (fn : Nat) (neg : Bool) (m : Nat) (e : Int) : FV :=
  let x := fxOf neg m e
  let fx (v : Int) : FV := .fin (decide (v < 0)) v.natAbs (-240)
  let xv : FV := .fin neg m e
  match fn with
  | 0x10 => let r := expMag x; .fin false r.1 r.2
  | 0x11 => fx (fxLog m e)
  | 0x12 => let q := fdivMag 1 0 m e; .fin neg q.1 q.2
  | 0x13 => let s := sqrtMag m e; let q := fdivMag 1 0 s.1 s.2; .fin false q.1 q.2
  | 0x14 => fx (fxTanh x)
  | 0x15 => let r := sigmoidMag x; .fin false r.1 r.2
  | 0x16 => let r := sigmoidMag x; fmul xv (.fin false r.1 r.2)
  | 0x18 =>
    let x3 := fxMul (fxMul x x) x
    let y := fxMul (79788456 * fx1 / 100000000) (x + x3 * 44715 / 1000000)
    let y' := if y > 64 * fx1 then 64 * fx1 else if y < -(64 * fx1) then -(64 * fx1) else y
    fmul xv (fx ((fx1 + fxTanh y') / 2))
  | 0x19 =>
    let z := x * fx1 / (isqrt (2 * fx1 * fx1).toNat : Int)
    let z' := if z > 8 * fx1 then 8 * fx1 else if z < -(8 * fx1) then -(8 * fx1) else z
    fmul xv (fx ((fx1 + fxErf z') / 2))
  | 0x1A => fx (fxSin x)
  | _ => fx (fxSin (x + fxPi / 2))

/-- ulp of binary32 at an exact value, times n (R462). -/
def ulps (n : Nat) (v : FV) : FV :=
  match v with
  | .fin _ m e => if m = 0 then .fin false n (-149) else .fin false n (max ((Nat.log2 m : Int) + e - 23) (-149))
  | x => x

/-- The bound of a function at an argument and an exact result (Table 15.5). -/
def approxBound (fn : Nat) (x y : FV) : FV :=
  match fn with
  | 0x10 | 0x11 | 0x13 => ulps 2 y
  | 0x12 => ulps 1 y
  | 0x14 => if flt (fint 55) (fmul (fint 100) (fabs x)) then .fin false 1 (-23) else ulps 2 y
  | 0x15 => ulps 4 y
  | 0x16 => ulps 5 y
  | 0x18 | 0x19 => fadd (fmul (.fin false 1 (-22)) (fabs x)) (.fin false 1 (-126))
  | _ => .fin false 1 (-21)

/-- The device's result near a centre: any binary32 value within the bound, chosen by Config.approx. -/
def approxPick (fn : Nat) (x c : FV) : FV :=
  let r := b32 c
  let cand := f32 (Config.approx fn (b32 x) % 2 ^ 32)
  let err := fabs (fadd cand (fneg c))
  let bound := approxBound fn x c
  match cand with
  | .fin _ _ _ => if flt bound err then f32 r else cand
  | _ => f32 r

/-- An approximated function's result (Table 15.5) for a binary32 argument, and whether it lay outside the domain. -/
def approxFn (fn : Nat) (x : FV) : FV × Bool :=
  let below (n : Int) : Bool := flt (fmul (fint 100) x) (fint n)
  let above (n : Int) : Bool := flt (fint n) (fmul (fint 100) x)
  let tiny (k : Nat) : Nat := Config.approx fn (b32 x) % (k + 1)
  match x with
  | .nan => (.nan, false)
  | .inf neg =>
    match fn with
    | 0x10 => (if neg then .fin false 0 0 else .inf false, true)
    | 0x11 => (if neg then .nan else .inf false, neg)
    | 0x12 => (.fin neg 0 0, true)
    | 0x13 => (if neg then .nan else .fin false 0 0, neg)
    | 0x14 => (.fin neg 1 0, false)
    | 0x15 => if neg then (f32 (tiny 0x00800000), true) else (.fin false 1 0, false)
    | 0x16 => if neg then (fneg (f32 (tiny 0x03800000)), true) else (.inf false, false)
    | 0x18 | 0x19 => (if neg then .fin true 0 0 else .inf false, true)
    | _ => (.nan, true)
  | .fin neg m e =>
    match fn with
    | 0x10 =>
      if below (-10328) then (.fin false 0 0, true)
      else if below (-8733) then (f32 (tiny 0x00800000), true)
      else if above 8872 then (.inf false, true)
      else (approxPick fn x (approxCentre fn neg m e), false)
    | 0x11 => if m = 0 then (.inf true, true) else if neg then (.nan, true)
              else (approxPick fn x (approxCentre fn neg m e), false)
    | 0x12 => if m = 0 then (.inf neg, true) else (approxPick fn x (approxCentre fn neg m e), false)
    | 0x13 => if m = 0 then (.inf neg, true) else if neg then (.nan, true)
              else (approxPick fn x (approxCentre fn neg m e), false)
    | 0x14 => if m = 0 then (x, false)
              else if !flt (fmul (fint 100) (fabs x)) (fint 902) then (.fin neg 1 0, false)
              else (approxPick fn x (approxCentre fn neg m e), false)
    | 0x15 => if below (-8733) then (f32 (tiny 0x00800000), true)
              else if !below 1733 then (.fin false 1 0, false)
              else (approxPick fn x (approxCentre fn neg m e), false)
    | 0x16 => if below (-8733) then (fneg (f32 (tiny 0x03800000)), true)
              else (approxPick fn x (approxCentre fn neg m e), false)
    | 0x18 | 0x19 => (approxPick fn x (approxCentre fn neg m e), false)
    | _ => if flt (.fin false 1 20) (fabs x) then (.nan, true) else (approxPick fn x (approxCentre fn neg m e), false)

/-- EXP as the softmax and sampling procedures use it. -/
def fexp (x : FV) : FV := (approxFn 0x10 x).1

/-- RECIP as they use it. -/
def frecip (x : FV) : FV := (approxFn 0x12 x).1

/-- RSQRT as NORM uses it. -/
def frsqrt (x : FV) : FV := (approxFn 0x13 x).1

/-! ### Row sums (R456) and Philox (R472, R473) -/

/-- A balanced tree of additions over a list, `n` levels. -/
def treeSum : Nat → List FV → List FV
  | 0, l => l
  | n + 1, l => treeSum n ((blocksOf 2 ((l.length + 1) / 2) l).map (fun p => match p with
      | [a, b] => rne32 (fadd a b)
      | [a] => a
      | _ => .fin false 0 0))

/-- The sum of a row's terms in the fixed order of R456. -/
def rowSum (xs : List FV) : FV :=
  let blks := blocksOf 64 (ceilDiv xs.length 64) xs
  let lanes := blks.foldl (fun acc b => (List.range 64).map (fun l =>
    let a := acc.getD l (.fin false 0 0)
    match b[l]? with
    | some t => rne32 (fadd a t)
    | none => a)) (List.replicate 64 (FV.fin false 0 0))
  (treeSum 6 lanes).headD (.fin false 0 0)

/-- One Philox round with the key bumped after it. -/
def philoxRound (s : (Nat × Nat × Nat × Nat) × Nat × Nat) : (Nat × Nat × Nat × Nat) × Nat × Nat :=
  let (c0, c1, c2, c3) := s.1
  let k0 := s.2.1
  let k1 := s.2.2
  let p0 := 0xD2511F53 * c0
  let p1 := 0xCD9E8D57 * c2
  let m := 2 ^ 32
  (((p1 / m ^^^ c1 ^^^ k0) % m, p1 % m, (p0 / m ^^^ c3 ^^^ k1) % m, p0 % m),
   (k0 + 0x9E3779B9) % m, (k1 + 0xBB67AE85) % m)

/-- The four output words of Philox-4x32-10. -/
def philox (seed stream p : Nat) : List Nat :=
  let m := 2 ^ 32
  let r := iter philoxRound 10 ((p % m, p / m % m, stream % m, stream / m % m), seed % m, seed / m % m)
  [r.1.1, r.1.2.1, r.1.2.2.1, r.1.2.2.2]

/-- The draw of an output word: (w >> 8) 2^−24. -/
def drawOf (seed stream p w : Nat) : FV := .fin false ((philox seed stream p).getD w 0 / 256) (-24)

end Sys2Proof.Machine
end

