-- ==== Sys2Proof/Machine/Move.lean ====
section
/-! DEFINITION. The bodies of move, fill, atomic, barrier and no-operation descriptors (chapter 13), and the channel halt of
R344. -/
namespace Sys2Proof.Machine

/-- Whether a bobbin's quad is gated, so its ghost responder answers (R76). -/
def loomGhost (h : Hw) (loom : Nat) : Bool := ghosted h { kind := .quad, idx := loom / 4 }

/-- An access to a bobbin whose quad answers RETRY waits (R73). -/
def loomStall (h : Hw) (loom off : Nat) (write : Bool) : Hw :=
  let i : Island := { kind := .quad, idx := loom / 4 }
  if retrying h i then stall h { line := 2 ^ 60 + bobKey loom off / 64, island := some i, write := write } else h

/-- Whether a descriptor signals a knot: KNOT_SIGNAL, or a KNOT_WAIT that arrives. -/
def signals (d : Desc) : Bool := decide (opcode d = 0x61) || (decide (opcode d = 0x62) && decide (leAt d.bytes 0x15 1 = 1))

/-- A dispatched descriptor of a slip, its dispatch not held back by earlier work; a signal waits until every earlier write of its slip is
performed at its home (R223). -/
def runnable (h : Hw) (s : Nat) (seq : W32) : Option Desc :=
  let x := slipAt h s
  match findDesc x seq with
  | some d =>
    if d.phase = Phase.dispatched ∧ !blocked x d ∧ x.st ≠ SlipSt.fenced ∧ !(signals d && slipPending h s d.seq) then some d else none
  | none => none

/-- Status a descriptor ends with when nothing stopped it: ISLAND_OFF if it met a gated island, else POISONED if it carried
poison, else OK (Table 13.12). -/
def endStatus (d : Desc) : Nat := if d.off then 0x06 else if d.poison then 0x01 else 0x00

/-- Update a descriptor in its slip. -/
def putDesc (h : Hw) (s : Nat) (d : Desc) : Hw := setSlip h s (setDesc (slipAt h s) d)

/-! ### Operands of a move (R406 to R410) -/

/-- Offset of transfer byte t in an operand with a pitch, from the operand's start (R407, R408). -/
def rowOff (len rows pitch t : Nat) : Nat := t / len * (if rows ≤ 1 then len else pitch) + t % len

/-- One operand: a bobbin place, or a buffer. -/
structure Operand where
  bobbin : Bool
  base   : Nat       -- bobbin operand word, or buffer number
  pitch  : Nat

/-- The source operand of a MOVE. -/
def srcOf (d : Desc) : Operand :=
  { bobbin := decide (leAt d.bytes 0x28 1 = 1), base := if leAt d.bytes 0x28 1 = 1 then leAt d.bytes 0x10 8 else 0,
    pitch := leAt d.bytes 0x30 8 }

/-- The destination operand of a MOVE or FILL. -/
def dstOf (d : Desc) : Operand :=
  { bobbin := decide (leAt d.bytes 0x29 1 = 1),
    base := if leAt d.bytes 0x29 1 = 1 then leAt d.bytes 0x18 8 else if opcode d = 0x10 then 1 else 0,
    pitch := leAt d.bytes 0x38 8 }

/-- The ranges of an operand's rows: in a bobbin (loom, first byte, length), or, of a buffer, in the coherent space (`none`); rows that
follow each other are one range. -/
def operandRanges (d : Desc) (o : Operand) : List (Option Nat × Nat × Nat) :=
  let len := leAt d.bytes 0x20 4
  let rows := leAt d.bytes 0x24 4
  let whole := decide (rows ≤ 1 ∨ o.pitch = len)
  let n := if whole then len * max 1 rows else len
  (List.range (if whole then 1 else rows)).flatMap (fun i =>
    let off := if whole then 0 else i * o.pitch
    if o.bobbin then [(some (field o.base 28 20), field o.base 19 0 + off, n)]
    else (d.extents.filter (fun e => decide (e.buf = o.base))).map (fun e =>
      let lo := max off e.voff
      (none, e.paddr + (lo - e.voff), min (off + n) (e.voff + e.len) - lo)))

/-- Whether two ranges of one space share a byte. -/
def sharesByte (a b : Option Nat × Nat × Nat) : Bool :=
  decide (a.1 = b.1) && decide (0 < a.2.2 ∧ 0 < b.2.2) && decide (a.2.1 < b.2.1 + b.2.2 ∧ b.2.1 < a.2.1 + a.2.2)

/-- Whether the source and the destination of a MOVE overlap, whose result is then unpredictable (R409). -/
def overlaps (d : Desc) : Bool :=
  decide (opcode d = 0x10) && (operandRanges d (srcOf d)).any (fun a => (operandRanges d (dstOf d)).any (sharesByte a))

/-- What a piece of a move brings: of operands that overlap, free values (R409; log entry 86). -/
def strangeMove (d : Desc) (x : HM × Got) : HM × Got :=
  if overlaps d && !x.2.bytes.isEmpty then
    let r := takeFreeBytes x.1.1 x.2.bytes.length
    ((r.2, x.1.2), { x.2 with bytes := r.1 })
  else x

/-- One piece of a move, from transfer offset t: at most `n` bytes, within a row, a destination line or granule, and the
extents. Answers the state and how many bytes were done; zero when the descriptor has ended. -/
def movePiece (hm : HM) (s : Nat) (d : Desc) (n : Nat) : HM × Nat × Desc :=
  let h := hm.1
  let b := d.bytes
  let len := leAt b 0x20 4
  let rows := leAt b 0x24 4
  let t := d.progress
  let p := slipOwner h s
  let src := srcOf d
  let dst := dstOf d
  let so := rowOff len rows src.pitch t
  let dof := rowOff len rows dst.pitch t
  let dloom := field dst.base 28 20
  let doff := field dst.base 19 0 + dof
  let dext := extAddr d.extents dst.base dof
  let sext := extAddr d.extents src.base so
  let room := if dst.bobbin then 4096 - doff % 4096
              else match dext with
                | some (ca, left) => min left (64 - ca % 64)
                | none => 0
  let sroom := if opcode d = 0x11 ∨ src.bobbin then n
               else match sext with
                 | some (ca, left) => min left (2 ^ 21 - ca % 2 ^ 21)
                 | none => 0
  let k := min (min n (len - t % len)) (min room sroom)
  if k = 0 then (hm, 0, d)
  else
    let got : HM × Got := strangeMove d (
      if opcode d = 0x11 then
        (hm, { v := .ok, poison := false,
               bytes := (List.range k).map (fun i => BitVec.ofNat 8 (leAt b (0x40 + (t % len + i) % 8) 1)) })
      else if src.bobbin then
        let loom := field src.base 28 20
        let off := field src.base 19 0 + so
        if loomGhost h loom then (hm, { v := .off, bytes := zeros k, poison := true })
        else ((loomStall h loom off false, hm.2), { v := .ok, bytes := bobRead h loom off k, poison := bobPoisoned h loom off k })
      else match sext with
        | some (ca, _) => engineRead hm (slipDie s) p (bitOf (leAt b 0x2A 1) 0) ca k (s + 1)
        | none => (hm, { v := .absent, bytes := [], poison := true }))
    let g := got.2
    match g.v with
    | .refused a => ((haltRefused got.1.1 s d a, got.1.2), 0, d)
    | .absent => ((endDesc got.1.1 s d (goneStatus got.1.1) 0, got.1.2), 0, d)
    | v =>
      let d1 := { d with poison := d.poison || g.poison, off := d.off || decide (v = Verdict.off), begun := true,
                         progress := t + k }
      if dst.bobbin then
        if loomGhost h dloom then (got.1, k, { d1 with off := true })
        else
          let h1 := bobWrite (loomStall got.1.1 dloom doff true) dloom doff g.bytes g.poison
          let last := (doff + k - 1) / 4096
          let rowStart := doff - t % len
          let d2 := { d1 with scratch := if g.poison then last + 1 else d1.scratch }
          let h2 := if !g.poison ∧ (doff + k) % 4096 = 0 ∧ rowStart ≤ last * 4096 ∧ d2.scratch ≠ last + 1 then
            bobMark h1 dloom last false else h1
          ((h2, got.1.2), k, d2)
      else match dext with
        | some (ca, _) =>
          let w := engineWrite got.1 p ca g.bytes g.poison
          match w.2 with
          | .refused a => ((haltRefused w.1.1 s d1 a, w.1.2), 0, d1)
          | .absent => ((endDesc w.1.1 s d1 (goneStatus w.1.1) 0, w.1.2), 0, d1)
          | .off => if regionOf (compactLocal ca) ∈ [4, 5] then ((discardPosted w.1.1 p ca, w.1.2), k, d1)
                    else (w.1, k, { d1 with off := true })
          | .dead => (w.1, k, { d1 with poison := d1.poison || !(regionOf (compactLocal ca) ∈ [4, 5]) })
          | _ => (w.1, k, d1)
        | none => (got.1, 0, d1)

/-- The bytes a command that would move `n` moves: it ends where an aligned 8-byte block of the source and of the destination ends, or at
the end of a row, so that no other agent sees part of a block (R216, R218). -/
def wholeBlocks (d : Desc) (n : Nat) : Nat :=
  let len := leAt d.bytes 0x20 4
  let t := d.progress + n
  let off := if len = 0 then 0 else t % len
  let at_ (o : Operand) : Nat :=
    let x := rowOff len (leAt d.bytes 0x24 4) o.pitch t
    if o.bobbin then field o.base 19 0 + x else match extAddr d.extents o.base x with | some (ca, _) => ca | none => 0
  let da := at_ (dstOf d)
  let sa := if opcode d = 0x11 then da else at_ (srcOf d)
  if off = 0 ∨ n = 0 then n
  else if sa % 8 = da % 8 then n + min ((8 - da % 8) % 8) (len - off)
  else n + (len - off)

/-- The transfer offset at which the 8-byte block of the destination that holds the byte before offset t ends, within its row. -/
def blockEnd (d : Desc) (t : Nat) : Nat :=
  let len := leAt d.bytes 0x20 4
  let o := dstOf d
  let x := rowOff len (leAt d.bytes 0x24 4) o.pitch t
  let a := if o.bobbin then field o.base 19 0 + x else match extAddr d.extents o.base x with | some (ca, _) => ca | none => 0
  if len = 0 ∨ t % len = 0 then t else t + min ((8 - a % 8) % 8) (len - t % len)

/-- Bytes a stale descriptor may still move (R368): to the next 4 KiB boundary of its transfer offset, and on to the end of the 8-byte block
it has begun there (R216, R218). -/
def pauseRoom (d : Desc) : Nat :=
  let b := d.progress / 4096 * 4096
  if d.progress = b then 0
  else if d.progress ≤ blockEnd d b then blockEnd d b - d.progress
  else blockEnd d (b + 4096) - d.progress

/-- Move up to `n` bytes of a descriptor, stopping at the 4 KiB pause boundary of a stale one (R368). -/
def moveBytes : Nat → HM → Nat → Desc → Nat → HM
  | 0, hm, s, d, _ => (putDesc hm.1 s d, hm.2)
  | fuel + 1, hm, s, d, n =>
    let total := leAt d.bytes 0x20 4 * leAt d.bytes 0x24 4
    let cap := if d.pauseReq then pauseRoom d else n
    let budget := min (min n cap) (total - d.progress)
    if d.progress ≥ total then (endDesc hm.1 s d (endStatus d) 0, hm.2)
    else if budget = 0 then (putDesc hm.1 s d, hm.2)
    else
      let r := movePiece hm s d budget
      if r.2.1 = 0 then r.1
      else moveBytes fuel r.1 s r.2.2 (n - r.2.1)

/-- A MOVE or FILL moves up to `n` bytes, and on to the end of the 8-byte blocks it has begun (R216, R407 to R410). -/
def moveStep (hm : HM) (s : Nat) (seq : W32) (op n : Nat) : HM :=
  match runnable hm.1 s seq with
  | none => hm
  | some d =>
    if opcode d ≠ op then hm
    else if engineCheck hm.1 s d ≠ 0 then (haltDesc hm.1 s d (engineCheck hm.1 s d), hm.2)
    else if inRegion3 hm.1 d then (haltDesc hm.1 s d 0x25, hm.2)
    else moveBytes (wholeBlocks d n + 1) hm s d (wholeBlocks d n)

/-! ### Atomics (R411, R412, Tables 7.8, 13.10) -/

/-- The new value of an atomic operation on `size` bytes (Table 13.10); FADD by IEEE 754, NaN canonical (R412). -/
def atomicNew (op size old operand compare : Nat) : Nat :=
  let w := 8 * size
  let m := 2 ^ w
  let a := old % m
  let b := operand % m
  match op with
  | 1 => (a + b) % m
  | 2 => a &&& b
  | 3 => a ||| b
  | 4 => a ^^^ b
  | 5 => b
  | 6 => if signed w a ≤ signed w b then a else b
  | 7 => if signed w a ≥ signed w b then a else b
  | 8 => min a b
  | 9 => max a b
  | 10 => if a = compare % m then b else a
  | _ => let f := if size = 4 then binary32 else binary64
         (encF f false (fadd (decF f a) (decF f b))).1

/-- Perform an atomic at a local address, at the home atomic unit, or at the memory controller of a ferry's target in T2 or T3 (Table 7.8,
R241): the old value. -/
def atomicAt (hm : HM) (home : Bool) (a op size operand compare : Nat) : HM × Nat :=
  let old := leNat (cohRead hm.1 hm.2 a size)
  let hm1 := cohWrite hm a (leBytes size (atomicNew op size old operand compare))
  let k : ReqKind := if regionOf a ≤ 1 ∧ home = false then .atomicMem else .atomicHome
  let q : DirReq := { kind := k, agent := .other }
  if notReady hm.1 (lineOf a) q then ((stall (retryStall hm.1 a true) { line := lineOf a, req := collectReq (lineOf a), write := true }, hm.2), old)
  else ((homeTurn (dropResv (retryStall hm1.1 a true) (lineOf a) none) (lineOf a) q, hm1.2), old)

/-- An ATOMIC descriptor (R411, R412). -/
def atomicDesc (hm : HM) (s : Nat) (seq : W32) : HM :=
  match runnable hm.1 s seq with
  | none => hm
  | some d =>
    let h := hm.1
    let size := leAt d.bytes 0x19 1
    if opcode d ≠ 0x20 then hm
    else match extAddr d.extents 0 0 with
      | none => hm
      | some (ca, _) =>
        let a := compactLocal ca
        let p := slipOwner h s
        if regionOf a ∈ [3, 4, 5] then (haltDesc h s d 0x23, hm.2)
        else match verdict h p ca size true with
          | .refused x => (haltRefused h s d x, hm.2)
          | .absent => (endDesc h s d (goneStatus h) 0, hm.2)
          | .off => (endDesc h s d 0x06 0, hm.2)
          | .dead => (endDesc h s d 0x01 0, hm.2)
          | .remote =>
            let r := atomicAfar h p (if regionOf a ≤ 1 then 8 else 7) ca size (leAt d.bytes 0x20 size) (leAt d.bytes 0x30 size)
              (leAt d.bytes 0x18 1)
            if remoteStatus h p ca = 2 then (endDesc r.2 s { d with poison := true } 0x01 0, hm.2)
            else (endDesc r.2 s { d with begun := true, result := r.1 ++ zeros (16 - size) } 0 0, hm.2)
          | .ok =>
            if poisoned h a then (endDesc h s { d with poison := true } 0x01 0, hm.2)
            else
              let r := atomicAt hm false a (leAt d.bytes 0x18 1) size (leAt d.bytes 0x20 size) (leAt d.bytes 0x30 size)
              (endDesc r.1.1 s { d with begun := true, result := leBytes 16 r.2 } 0 0, r.1.2)

/-! ### Barrier and no operation (R413, R224, R403) -/

/-- Whether every earlier descriptor of a slip has issued its accesses (R224). Those at home are performed at once; those at other packages
once their homes answer. -/
def earlierDone (x : Slip) (d : Desc) : Bool :=
  !(x.descs.any (fun e => decide (e.seq ≠ d.seq ∧ (e.seq - x.done).toNat < (d.seq - x.done).toNat) &&
     decide (e.phase = Phase.dispatched ∨ e.phase = Phase.waiting ∨ e.phase = Phase.walking)))

/-- A BARRIER completes when R224 is met. -/
def barrierDesc (h : Hw) (s : Nat) (seq : W32) : Hw :=
  let x := slipAt h s
  match findDesc x seq with
  | some d =>
    if opcode d = 0x30 ∧ d.phase = Phase.dispatched ∧ earlierDone x d ∧ slipPending h s seq = false then endDesc h s d 0 0 else h
  | none => h

/-- A NOP completes OK. -/
def nopDesc (h : Hw) (s : Nat) (seq : W32) : Hw :=
  match runnable h s seq with
  | some d => if opcode d = 0x31 then endDesc h s d 0 0 else h
  | none => h

end Sys2Proof.Machine
end

