-- ==== Sys2Proof/Machine/Bolts.lean ====
section
/-! DEFINITION. Objects, map entries, bolt operations and bolt misses (chapter 9, R272 to R308). -/
namespace Sys2Proof.Machine

/-! ### Objects and map entries (R277 to R283) -/

/-- The record an object has for a descriptor that names it: the one it was dispatched with (R279, R280). -/
def boundObj (h : Hw) (s : Nat) (d : Desc) (id : Nat) : ObjRec :=
  match d.objs.find? (fun b => decide (b.id = id)) with
  | some b => b.record
  | none => objAt h (slipOwner h s) id

/-- Whether an object has been retired since a descriptor that names it was dispatched (R280). -/
def retiredFor (d : Desc) (id : Nat) : Bool := d.objs.any (fun b => decide (b.id = id) && b.retired)

/-- Replace an object record. -/
def setObj (h : Hw) (p id : Nat) (o : ObjRec) : Hw :=
  { h with tiers := { h.tiers with objects := tabPut {} h.tiers.objects (p * 1024 + id) o } }

/-- A map entry read from its 32 bytes (Table 9.5). -/
structure MapEntry where
  w0       : Nat
  w1       : Nat

/-- HOME_TIER. -/
def MapEntry.homeTier (e : MapEntry) : Nat := field e.w0 2 0
/-- COPY_TIER. -/
def MapEntry.copyTier (e : MapEntry) : Nat := field e.w0 5 3
/-- CODEC. -/
def MapEntry.codec (e : MapEntry) : Nat := field e.w0 8 6
/-- STATE: 0 VALID, 1 EMPTY, 2 MOVING, 3 WRITING. -/
def MapEntry.state (e : MapEntry) : Nat := field e.w0 11 9
/-- VERSION. -/
def MapEntry.version (e : MapEntry) : Nat := field e.w0 47 16
/-- DIRTY. -/
def MapEntry.dirty (e : MapEntry) : Nat := field e.w0 63 48
/-- HOME_LINE. -/
def MapEntry.homeLine (e : MapEntry) : Nat := field e.w0 113 64
/-- IMAGE_LINES. -/
def MapEntry.lines (e : MapEntry) : Nat := field e.w0 124 114
/-- COPY_LINE. -/
def MapEntry.copyLine (e : MapEntry) : Nat := field e.w1 49 0

/-- Whether a tier agrees with the compact address it names (R273). -/
def tierOk (h : Hw) (tier line : Nat) : Bool :=
  let ca := line * 64
  let r := regionOf (compactLocal ca)
  match tier with
  | 1 => isLocal h ca && decide (r = 2)
  | 2 => isLocal h ca && decide (r = 1)
  | 3 => isLocal h ca && decide (r = 0)
  | 4 => decide (r = 6 ∨ r = 7) || (!isLocal h ca && decide (r ≤ 2))
  | _ => false

/-- Whether a map entry is in breach (Table 9.11): a reserved field or encoding, R273, a codec in T1 or T2, a copy that
single-home mode or the tiers do not allow. DESIGN CHOICE (log entry 85): IMAGE_LINES is held to its range in an EMPTY entry too, whose image
R281 and R282 leave without a length. -/
def mapBad (h : Hw) (o : ObjRec) (e : MapEntry) : Bool :=
  decide (e.homeTier = 0 ∨ e.homeTier > 4 ∨ e.copyTier > 4 ∨ e.codec > 4 ∨ e.state > 3) ||
  decide (field e.w0 15 12 ≠ 0 ∨ field e.w0 127 125 ≠ 0 ∨ field e.w1 63 50 ≠ 0) ||
  decide (e.lines = 0 ∨ e.lines > 1024) || !tierOk h e.homeTier e.homeLine ||
  decide (e.homeTier ≤ 2 ∧ e.codec ≠ 0) ||
  (decide (e.copyTier ≠ 0) && (decide (o.mode = 0) || decide (e.copyTier ≥ e.homeTier) || !tierOk h e.copyTier e.copyLine))

/-- Whether a codec may be used for an encoding (R296). -/
def codecOk (o : ObjRec) (codec tier : Nat) : Bool :=
  decide (codec = 0) || (bitOf o.codecs codec && codecAllowed o.format codec && decide (tier ≥ 3) &&
    (decide (codec ≤ 2) || o.lossOk))

/-- Word 0 with STATE and VERSION replaced and DIRTY given. -/
def wordWith (w state version dirty : Nat) : Nat :=
  setField (setField (setField w 11 9 state) 47 16 version) 63 48 dirty

/-- Word 0 with HOME_TIER, CODEC, HOME_LINE and IMAGE_LINES replaced. -/
def wordHome (w tier codec line lines : Nat) : Nat :=
  setField (setField (setField (setField w 2 0 tier) 8 6 codec) 113 64 line) 124 114 lines

/-! ### Reading and writing bolts -/

/-- How an access of a bolt operation went wrong; none when it did not. -/
inductive Bad where
  | refused (a : Nat)
  | absent
  | gated
deriving DecidableEq, Repr

/-- The content of a bolt: 65,536 bytes, its poisoned granules, whether its image was rejected, whether a gated island
answered. -/
structure BoltData where
  bytes    : List Byte
  pm       : Nat
  rejected : Bool := false
  off      : Bool := false

/-- Sixteen granules read at a line (R281: a copy, or a C0 home). -/
def readPlain (hm : HM) (die p line : Nat) : HM × Except Bad BoltData :=
  (List.range 16).foldl (fun (acc : HM × Except Bad BoltData) g =>
    match acc.2 with
    | .error e => (acc.1, .error e)
    | .ok b =>
      let r := engineRead acc.1 die p false (line * 64 + 4096 * g) 4096
      match r.2.v with
      | .refused a => (r.1, .error (.refused a))
      | .absent => (r.1, .error .absent)
      | v => (r.1, .ok { b with bytes := b.bytes ++ r.2.bytes, off := b.off || decide (v = Verdict.off),
                                pm := if r.2.poison then setField b.pm g g 1 else b.pm }))
    (hm, .ok { bytes := [], pm := 0 })

/-- The content of a home image (R282, R297, R307, R308): a poisoned line of an encoded image poisons every granule. -/
def readHome (hm : HM) (die p fmt : Nat) (e : MapEntry) : HM × Except Bad BoltData :=
  if e.state = 1 then (hm, .ok { bytes := zeros 65536, pm := 0 })
  else if e.codec = 0 then readPlain hm die p e.homeLine
  else
    let r := engineRead hm die p false (e.homeLine * 64) (64 * e.lines)
    match r.2.v with
    | .refused a => (r.1, .error (.refused a))
    | .absent => (r.1, .error .absent)
    | v =>
      if r.2.poison then (r.1, .ok { bytes := zeros 65536, pm := 0xFFFF, off := decide (v = Verdict.off) })
      else match decodeImage e.codec fmt e.lines r.2.bytes with
        | some (bs, pm) => (r.1, .ok { bytes := bs, pm := pm })
        | none => (r.1, .ok { bytes := zeros 65536, pm := 0xFFFF, rejected := true })

/-- What a reader reads of a bolt (R285): the copy if there is one, else the home. -/
def readBolt (hm : HM) (die p fmt : Nat) (e : MapEntry) : HM × Except Bad BoltData :=
  if e.copyTier ≠ 0 ∧ e.state ≠ 1 then readPlain hm die p e.copyLine else readHome hm die p fmt e

/-- The first verdict of a list of writes that stops an operation. -/
def worst (v w : Verdict) : Verdict :=
  match v with
  | .refused a => .refused a
  | .absent => .absent
  | .off => (match w with | .refused a => .refused a | .absent => .absent | _ => .off)
  | _ => w

/-- Write chosen granules of plain content at a line, each with its poison. -/
def writePlain (hm : HM) (p line mask : Nat) (b : BoltData) : HM × Verdict :=
  (List.range 16).foldl (fun (acc : HM × Verdict) g =>
    match acc.2 with
    | .refused _ => acc
    | .absent => acc
    | v =>
      if bitOf mask g then
        let r := engineWrite acc.1 p (line * 64 + 4096 * g) ((b.bytes.drop (4096 * g)).take 4096) (bitOf b.pm g)
        (r.1, worst v r.2)
      else acc)
    (hm, .ok)

/-- Write a whole bolt at a line under a codec (R297 to R299, R307): the verdict, the codec used and IMAGE_LINES. -/
def writeHome (hm : HM) (p line codec : Nat) (o : ObjRec) (obj bolt : Nat) (b : BoltData) : HM × Verdict × Nat × Nat :=
  let r := encodeImage codec o.format o.rows (o.cols % 65536) obj bolt b.pm b.bytes
  if r.1 = 0 then
    let w := writePlain hm p line 0xFFFF b
    (w.1, w.2, 0, 1024)
  else
    let n := ceilDiv r.2.length 64
    let w := engineWrite hm p (line * 64) (r.2 ++ zeros (64 * n - r.2.length)) false
    (w.1, w.2, r.1, n)

/-! ### Bolt operations (R283 to R290) -/

/-- A bolt descriptor's fields (Table 13.8). -/
def boltObj (d : Desc) : Nat := leAt d.bytes 0x10 2
/-- BOLT_INDEX. -/
def boltIdx (d : Desc) : Nat := leAt d.bytes 0x14 4
/-- GRANULES. -/
def boltMask (d : Desc) : Nat := leAt d.bytes 0x18 2
/-- DST_TIER. -/
def boltTier (d : Desc) : Nat := leAt d.bytes 0x1A 1
/-- CODEC. -/
def boltCodec (d : Desc) : Nat := leAt d.bytes 0x1B 1
/-- DST_LINE. -/
def boltLine (d : Desc) : Nat := field (leAt d.bytes 0x20 8) 49 0
/-- LOOM. -/
def boltLoom (d : Desc) : Nat := leAt d.bytes 0x28 2 % 512
/-- SLOT. -/
def boltSlot (d : Desc) : Nat := leAt d.bytes 0x2A 1 % 16

/-- What reading a map entry gives. -/
inductive EntryRead where
  | ok (e : MapEntry)
  | poisoned
  | bad (b : Bad)

/-- Read a map entry coherently as an access of the partition (R283, R736). -/
def readEntry (hm : HM) (die p ca : Nat) : HM × EntryRead :=
  let r := engineRead hm die p true ca 32
  match r.2.v with
  | .refused a => (r.1, .bad (.refused a))
  | .absent => (r.1, .bad .absent)
  | .off => (r.1, .bad .gated)
  | _ => if r.2.poison then (r.1, .poisoned) else (r.1, .ok { w0 := leAt r.2.bytes 0 16, w1 := leAt r.2.bytes 16 16 })

/-- The 16-byte compare-and-swap of word 0 at the home atomic unit of its line (R283, Table 7.8): performed where a write is admitted, and
won where the word still held the value expected. -/
def casWord (hm : HM) (p ca old new : Nat) : HM × Bool :=
  match verdict hm.1 p ca 16 true with
  | .ok =>
    let r := atomicAt hm true (compactLocal ca) 10 16 new old
    (r.1, decide (r.2 = old))
  | .remote =>
    let r := atomicAfar hm.1 p 7 ca 16 new old 10
    ((r.2, hm.2), decide (leNat r.1 = old))
  | _ => (hm, false)

/-- Where a bolt's map entry stands. -/
def entryAddr (o : ObjRec) (idx : Nat) : Nat := o.map + 32 * idx

/-- One source granule of a BOLT_STORE, from a bobbin slot or buffer 0: its 4,096 bytes, and bit 0 of `pm` when poisoned. -/
def storeGranule (hm : HM) (s : Nat) (d : Desc) (g : Nat) : HM × Except Bad BoltData :=
  if leAt d.bytes 0x1C 1 = 1 then
    let l := boltLoom d
    let off := 65536 * boltSlot d + 4096 * g
    if loomGhost hm.1 l then (hm, .ok { bytes := zeros 4096, pm := 1, off := true })
    else (hm, .ok { bytes := bobRead hm.1 l off 4096, pm := flag (bobPoisoned hm.1 l off 4096) })
  else
    (List.range 64).foldl (fun (acc : HM × Except Bad BoltData) k =>
      match acc.2 with
      | .error e => (acc.1, .error e)
      | .ok b =>
        let read1 (hm : HM) (off n : Nat) : HM × Got :=
          match extAddr d.extents 0 off with
          | some (ca, _) => engineRead hm (slipDie s) (slipOwner hm.1 s) false ca n
          | none => (hm, { v := .absent, bytes := zeros n, poison := true })
        let off := 4096 * g + 64 * k
        let n1 := match extAddr d.extents 0 off with
          | some (_, left) => min 64 left
          | none => 64
        let r1 := read1 acc.1 off n1
        let r2 := if n1 < 64 then read1 r1.1 (off + n1) (64 - n1) else (r1.1, { v := .ok, bytes := [], poison := false })
        match worst r1.2.v r2.2.v with
        | .refused a => (r2.1, .error (.refused a))
        | .absent => (r2.1, .error .absent)
        | v => (r2.1, .ok { b with bytes := b.bytes ++ r1.2.bytes ++ r2.2.bytes, off := b.off || decide (v = Verdict.off),
                                   pm := if r1.2.poison || r2.2.poison then 1 else b.pm }))
      (hm, .ok { bytes := [], pm := 0 })

/-- The source granules of a BOLT_STORE's mask, zeros elsewhere. -/
def storeSource (hm : HM) (s : Nat) (d : Desc) : HM × Except Bad BoltData :=
  (List.range 16).foldl (fun (acc : HM × Except Bad BoltData) g =>
    match acc.2 with
    | .error e => (acc.1, .error e)
    | .ok b =>
      if !bitOf (boltMask d) g then (acc.1, .ok { b with bytes := b.bytes ++ zeros 4096 })
      else
        let r := storeGranule acc.1 s d g
        match r.2 with
        | .error e => (r.1, .error e)
        | .ok x => (r.1, .ok { bytes := b.bytes ++ x.bytes, off := b.off || x.off, pm := b.pm + x.pm * 2 ^ g }))
    (hm, .ok { bytes := [], pm := 0 })

/-- Granules of `new` where the mask has their bit, of `old` elsewhere. -/
def mergeGranules (mask : Nat) (old new : BoltData) : BoltData :=
  { bytes := (List.range 16).flatMap (fun g =>
      (((if bitOf mask g then new.bytes else old.bytes).drop (4096 * g)).take 4096)),
    pm := bitmapNat 16 (fun g => bitOf (if bitOf mask g then new.pm else old.pm) g),
    rejected := old.rejected, off := old.off || new.off }

/-- Old and new bytes of one granule mixed by aligned 8-byte blocks, each block's choice a bit of the free values from `f`
(R287). -/
def mixBlocks (f g : Nat) (old new : List Byte) : List Byte :=
  ((old.zip new).zip (List.range 4096)).map (fun x =>
    if (Config.freeValue (f + 8 * g + x.2 / 512)).getLsbD (x.2 / 8 % 64) then x.1.2 else x.1.1)

/-- The granules a store of a mask writes: all of an EMPTY bolt, whose others read zero (R282). -/
def written (e : MapEntry) (mask : Nat) : Nat := if e.state = 1 then 0xFFFF else mask

/-- The content of a bolt whose BOLT_STORE failed while it held WRITING (R287): in each granule of the mask, aligned 8-byte blocks
between old and new by free choice; a granule whose source cannot be read stays. Answers the word with the codec and lines of a home
image written for an EMPTY bolt. -/
def mixStore (hm : HM) (s : Nat) (d : Desc) (o : ObjRec) (e : MapEntry) : HM × Nat :=
  let p := slipOwner hm.1 s
  let f := hm.1.free + 1
  let old := readBolt ({ hm.1 with free := hm.1.free + 128 }, hm.2) (slipDie s) p o.format e
  match old.2 with
  | .error _ => (old.1, e.w0)
  | .ok ob =>
    let r := (List.range 16).foldl (fun (acc : HM × BoltData) g =>
      let keep := (ob.bytes.drop (4096 * g)).take 4096
      let pk := flag (bitOf ob.pm g) * 2 ^ g
      let add (hm : HM) (bs : List Byte) (pm : Nat) : HM × BoltData := (hm, { acc.2 with bytes := acc.2.bytes ++ bs, pm := acc.2.pm ||| pm })
      if !bitOf (boltMask d) g then add acc.1 keep pk
      else
        let x := storeGranule acc.1 s d g
        match x.2 with
        | .error _ => add x.1 keep pk
        | .ok n => add x.1 (mixBlocks f g keep n.bytes) (pk ||| n.pm * 2 ^ g))
      (old.1, { bytes := [], pm := 0 })
    if e.copyTier ≠ 0 then ((writePlain r.1 p e.copyLine (written e (boltMask d)) r.2).1, e.w0)
    else if e.codec = 0 then
      ((writePlain r.1 p e.homeLine (written e (boltMask d)) r.2).1, if e.state = 1 then setField e.w0 124 114 1024 else e.w0)
    else
      let w := writeHome r.1 p e.homeLine e.codec o (boltObj d) (boltIdx d) r.2
      if e.state = 1 then (w.1, wordHome e.w0 e.homeTier w.2.2.1 e.homeLine w.2.2.2)
      else if w.2.2.1 = e.codec ∧ w.2.2.2 = e.lines then (w.1, e.w0)
      else (r.1, e.w0)

/-- Release a taken bolt on failure (R287): MOVING goes back to the word taken; WRITING gets VERSION + 1 and DIRTY with
every granule of the mask (with a copy of an EMPTY bolt, every granule, since all were written), its content between old and new. `d.result` holds the word as it was taken. -/
def releaseFailed (hm : HM) (s : Nat) (d : Desc) : HM :=
  let p := slipOwner hm.1 s
  let o := boundObj hm.1 s d (boltObj d)
  let w := leNat d.result
  let ca := entryAddr o (boltIdx d)
  if d.scratch ≠ 1 then hm
  else if opcode d = 0x15 then
    let e : MapEntry := { w0 := w, w1 := leNat (cohRead hm.1 hm.2 (compactLocal ca + 16) 16) }
    let x := mixStore hm s d o e
    (casWord x.1 p ca (setField w 11 9 3) (wordWith x.2 0 ((e.version + 1) % 2 ^ 32) (e.dirty ||| (if e.copyTier ≠ 0 then written e (boltMask d) else boltMask d)))).1
  else (casWord hm p ca (setField w 11 9 2) w).1

/-- End a bolt operation that failed, releasing what it took. -/
def failBolt (hm : HM) (s : Nat) (d : Desc) (b : Bad) : HM :=
  let hm1 := releaseFailed hm s d
  match b with
  | .refused a => (haltRefused hm1.1 s { d with result := [] } a, hm1.2)
  | .absent => (endDesc hm1.1 s { d with result := [] } (goneStatus hm1.1) 0, hm1.2)
  | .gated => (endDesc hm1.1 s { d with result := [] } 0x06 0, hm1.2)

/-- Halt a bolt operation, releasing what it took. -/
def haltBolt (hm : HM) (s : Nat) (d : Desc) (reason : Nat) : HM :=
  let hm1 := releaseFailed hm s d
  (haltDesc hm1.1 s { d with result := [] } reason, hm1.2)

/-- The INFO record of a rejected image (Table 9.11). -/
def codecCheck (h : Hw) (s : Nat) (d : Desc) (obj bolt : Nat) : Hw :=
  recordWrite h { type := 0x0606, part := slipOwner h s, arg0 := descArg s d.seq.toNat, arg2 := obj * 2 ^ 32 + bolt }

/-- RESULT of BOLT_MOVE and BOLT_STORE (Table 13.11). -/
def boltResult (w : Nat) : List Byte :=
  let e : MapEntry := { w0 := w, w1 := 0 }
  leBytes 16 (e.version + e.codec * 2 ^ 32 + e.lines * 2 ^ 48)

/-- Release a bolt with all of the operation's changes and end the operation (R286). -/
def finishBolt (hm : HM) (s : Nat) (d : Desc) (new : Nat) (poison rejected : Bool) (res : Bool) : HM :=
  let p := slipOwner hm.1 s
  let o := boundObj hm.1 s d (boltObj d)
  let taken := setField (leNat d.result) 11 9 (if opcode d = 0x15 then 3 else 2)
  let hm1 := (casWord hm p (entryAddr o (boltIdx d)) taken new).1
  let h2 := if rejected then codecCheck hm1.1 s d (boltObj d) (boltIdx d) else hm1.1
  let d1 := { d with poison := poison, result := if res then boltResult new else [] }
  (endDesc h2 s d1 (endStatus d1) 0, hm1.2)

/-- Act on the verdict of an operation's writes: a refused or absent one fails it, and one that a gated island stood in the way of, as does a
read that a ghost responder answered (`off`); the bolt is released as R287 says. -/
def onVerdict (hm : HM) (s : Nat) (d : Desc) (off : Bool) (v : Verdict) (k : Bool → HM) : HM :=
  match v with
  | .refused a => failBolt hm s d (.refused a)
  | .absent => failBolt hm s d .absent
  | .off => failBolt hm s d .gated
  | .dead => if off then failBolt hm s d .gated else k true
  | _ => if off then failBolt hm s d .gated else k false

/-- BOLT_STORE while it holds WRITING (R289, R282); a codec the object refuses stopped it before it took the bolt (R296). -/
def actStore (hm : HM) (s : Nat) (d : Desc) (o : ObjRec) (e : MapEntry) : HM :=
  let p := slipOwner hm.1 s
  let die := slipDie s
  let mask := boltMask d
  let w := leNat d.result
  let ver := (e.version + 1) % 2 ^ 32
  let src := storeSource hm s d
  match src.2 with
  | .error b => failBolt src.1 s d b
  | .ok nb =>
    let done (hm : HM) (v : Verdict) (new pm : Nat) (off rej : Bool) : HM :=
      onVerdict hm s d off v (fun dead => finishBolt hm s d new (decide (pm ≠ 0) || dead) rej true)
    if e.copyTier ≠ 0 then
      let b := if e.state = 1 then mergeGranules mask { bytes := zeros 65536, pm := 0 } nb else nb
      let r := writePlain src.1 p e.copyLine (written e mask) b
      done r.1 r.2 (wordWith w 0 ver (e.dirty ||| written e mask)) (nb.pm &&& mask) nb.off false
    else if e.codec = 0 then
      let b := if e.state = 1 then mergeGranules mask { bytes := zeros 65536, pm := 0 } nb else nb
      let r := writePlain src.1 p e.homeLine (written e mask) b
      done r.1 r.2 (wordWith (if e.state = 1 then setField w 124 114 1024 else w) 0 ver e.dirty) (nb.pm &&& mask) nb.off false
    else
      let old := readHome src.1 die p o.format e
      match old.2 with
      | .error b => failBolt old.1 s d b
      | .ok ob =>
        let b := mergeGranules mask ob nb
        let r := writeHome old.1 p e.homeLine e.codec o (boltObj d) (boltIdx d) b
        done r.1 r.2.1 (wordWith (wordHome w e.homeTier r.2.2.1 e.homeLine r.2.2.2) 0 ver e.dirty) b.pm b.off ob.rejected

/-- BOLT_MOVE while it holds MOVING (`bolt_move`, R286). -/
def actMove (hm : HM) (s : Nat) (d : Desc) (o : ObjRec) (e : MapEntry) : HM :=
  let p := slipOwner hm.1 s
  let w := leNat d.result
  let ver := (e.version + 1) % 2 ^ 32
  if e.copyTier ≠ 0 then haltBolt hm s d 0x26
  else if e.homeTier = boltTier d ∧ e.homeLine = boltLine d ∧ e.codec = boltCodec d then
    finishBolt hm s d (wordWith w 0 ver e.dirty) false false true
  else if !tierOk hm.1 (boltTier d) (boltLine d) then haltBolt hm s d 0x26
  else if !codecOk o (boltCodec d) (boltTier d) then haltBolt hm s d 0x28
  else
    let r := readHome hm (slipDie s) p o.format e
    match r.2 with
    | .error b => failBolt r.1 s d b
    | .ok b =>
      let x := writeHome r.1 p (boltLine d) (boltCodec d) o (boltObj d) (boltIdx d) b
      onVerdict x.1 s d b.off x.2.1 (fun dead => finishBolt x.1 s d
        (wordWith (wordHome w (boltTier d) x.2.2.1 (boltLine d) x.2.2.2) 0 ver e.dirty)
        (decide (b.pm ≠ 0) || dead) b.rejected true)

/-- BOLT_COPY_UP while it holds MOVING: COPY_LINE in word 1 first, then COPY_TIER at the release (Table 9.7). -/
def actCopyUp (hm : HM) (s : Nat) (d : Desc) (o : ObjRec) (e : MapEntry) : HM :=
  let p := slipOwner hm.1 s
  let w := leNat d.result
  if e.copyTier ≠ 0 ∨ boltTier d ≥ e.homeTier ∨ !tierOk hm.1 (boltTier d) (boltLine d) then haltBolt hm s d 0x26
  else
    let r := readHome hm (slipDie s) p o.format e
    match r.2 with
    | .error b => failBolt r.1 s d b
    | .ok b =>
      let x := writePlain r.1 p (boltLine d) 0xFFFF b
      let y := match x.2 with
        | .refused a => (x.1, Verdict.refused a)
        | .absent => (x.1, Verdict.absent)
        | v => let z := engineWrite x.1 p (entryAddr o (boltIdx d) + 16) (leBytes 8 (setField (e.w1 % 2 ^ 64) 49 0 (boltLine d))) false
               (z.1, worst v z.2)
      onVerdict y.1 s d b.off y.2 (fun dead => finishBolt y.1 s d (wordWith (setField w 5 3 (boltTier d)) 0 e.version 0)
        (decide (b.pm ≠ 0) || dead) b.rejected false)

/-- Whether a clean writes nothing (R290): BOLT_DROP cleans only a dirty copy, and BOLT_CLEAN writes no granule of a C0 home that is not
dirty; an encoded home it writes whole. -/
def cleanIdle (d : Desc) (e : MapEntry) : Bool := decide (e.dirty = 0 ∧ (opcode d = 0x19 ∨ e.codec = 0))

/-- Write the dirty granules of a copy to the home, or the whole of an encoded one (R290): the verdict, the codec and the lines of the home
after it. -/
def cleanHome (hm : HM) (s : Nat) (d : Desc) (o : ObjRec) (e : MapEntry) : HM × Except Bad (Verdict × Nat × Nat × BoltData) :=
  let p := slipOwner hm.1 s
  if cleanIdle d e then (hm, .ok (.ok, e.codec, e.lines, { bytes := [], pm := 0 }))
  else
    let c := readPlain hm (slipDie s) p e.copyLine
    match c.2 with
    | .error b => (c.1, .error b)
    | .ok b =>
      if e.codec = 0 then
        let r := writePlain c.1 p e.homeLine e.dirty b
        (r.1, .ok (r.2, 0, e.lines, { b with pm := b.pm &&& e.dirty }))
      else
        let r := writeHome c.1 p e.homeLine e.codec o (boltObj d) (boltIdx d) b
        (r.1, .ok (r.2.1, r.2.2.1, r.2.2.2, b))

/-- BOLT_CLEAN and BOLT_DROP while they hold MOVING (R290). -/
def actClean (hm : HM) (s : Nat) (d : Desc) (o : ObjRec) (e : MapEntry) : HM :=
  let w := leNat d.result
  if e.copyTier = 0 then haltBolt hm s d 0x26
  else if !cleanIdle d e ∧ !codecOk o e.codec e.homeTier then haltBolt hm s d 0x28
  else
    let r := cleanHome hm s d o e
    match r.2 with
    | .error b => failBolt r.1 s d b
    | .ok (v, codec, lines, b) =>
      let w1 := wordHome w e.homeTier codec e.homeLine lines
      let w2 := if opcode d = 0x19 then setField w1 5 3 0 else w1
      onVerdict r.1 s d b.off v (fun dead => finishBolt r.1 s d (wordWith w2 0 e.version 0) (decide (b.pm ≠ 0) || dead) false false)

/-- Put a bolt's content in a bobbin slot and write its tag (R292, R293 steps 4 and 5, R341). -/
def fillSlot (h : Hw) (loom slot obj bolt version : Nat) (b : BoltData) : Hw :=
  let h1 := bobBytes h loom (65536 * slot) b.bytes
  let h2 := (List.range 16).foldl (fun h g => bobMark h loom (16 * slot + g) (bitOf b.pm g)) h1
  setTag h2 loom slot { valid := true, obj := obj, bolt := bolt, version := version }

/-- A descriptor's fetch fills a bobbin slot; an object retired meanwhile leaves the slot without a tag (R280). -/
def fillFor (h : Hw) (d : Desc) (loom slot obj bolt version : Nat) (b : BoltData) : Hw :=
  let h1 := fillSlot h loom slot obj bolt version b
  if retiredFor d obj then setTag h1 loom slot {} else h1

/-- BOLT_LOAD: an explicit fetch into a bobbin slot. -/
def actLoad (hm : HM) (s : Nat) (d : Desc) (o : ObjRec) (e : MapEntry) : HM :=
  let r := readBolt hm (slipDie s) (slipOwner hm.1 s) o.format e
  match r.2 with
  | .error b => failBolt r.1 s d b
  | .ok b =>
    let h1 := if b.rejected then codecCheck r.1.1 s d (boltObj d) (boltIdx d) else r.1.1
    if loomGhost h1 (boltLoom d) then (endDesc h1 s { d with off := true } 0x06 0, r.1.2)
    else
      let d1 := { d with poison := decide (b.pm ≠ 0), off := b.off }
      (endDesc (fillFor h1 d (boltLoom d) (boltSlot d) (boltObj d) (boltIdx d) e.version b) s d1 (endStatus d1) 0, r.1.2)

/-- Whether an operation of this opcode may be used in the object's mode (Table 9.6). -/
def boltModeOk (o : ObjRec) (op : Nat) : Bool := decide (op ≤ 0x16) || decide (o.mode = 1)

/-- A bolt operation finds its entry taken and waits (R284): WAIT_LIMIT runs from its first read, which `scratch` 2 marks. -/
def waitBolt (h : Hw) (s : Nat) (d : Desc) : Hw :=
  putDesc h s { d with phase := .waiting, scratch := 2, since := if d.scratch = 2 then d.since else h.tb.now }

/-- One turn of a bolt operation (R284 to R290): the first takes the bolt (BOLT_LOAD takes nothing and completes), the
second acts and releases. -/
def boltTurn (hm0 : HM) (s : Nat) (d : Desc) : HM :=
  let p := slipOwner hm0.1 s
  let o := boundObj hm0.1 s d (boltObj d)
  let op := opcode d
  if !o.used ∨ boltIdx d ≥ o.count then (haltDesc hm0.1 s d 0x29, hm0.2)
  else if op = 0x15 ∧ boltMask d = 0 then (endDesc hm0.1 s d 0 0, hm0.2)
  else
    let ca := entryAddr o (boltIdx d)
    let r := readEntry hm0 (slipDie s) p ca
    let hm := r.1
    match r.2 with
    | .bad b => failBolt hm s d b
    | .poisoned => let hm1 := releaseFailed hm s d; (endDesc hm1.1 s { d with result := [] } 0x01 0, hm1.2)
    | .ok e =>
      if d.scratch = 1 then
        let taken : MapEntry := { w0 := leNat d.result, w1 := e.w1 }
        match op with
        | 0x15 => actStore hm s d o taken
        | 0x16 => actMove hm s d o taken
        | 0x17 => actCopyUp hm s d o taken
        | _ => actClean hm s d o taken
      else if mapBad hm.1 o e || !boltModeOk o op then (haltDesc hm.1 s d 0x26, hm.2)
      else if op = 0x14 then (if e.state = 3 then (waitBolt hm.1 s d, hm.2) else actLoad hm s { d with phase := .dispatched } o e)
      else if op = 0x15 ∧ e.state ≤ 1 ∧ e.copyTier = 0 ∧ !codecOk o e.codec e.homeTier then (haltDesc hm.1 s d 0x28, hm.2)
      else if e.state = 0 ∨ (e.state = 1 ∧ op = 0x15) then
        let c := casWord hm p ca e.w0 (setField e.w0 11 9 (if op = 0x15 then 3 else 2))
        if c.2 then (putDesc c.1.1 s { d with phase := .dispatched, begun := true, scratch := 1, result := leBytes 16 e.w0 }, c.1.2)
        else match verdict hm.1 p ca 16 true with
          | .refused a => (haltRefused hm.1 s d a, hm.2)
          | _ => (waitBolt c.1.1 s d, c.1.2)
      else (waitBolt hm.1 s d, hm.2)

/-- A bolt operation's turn as a command of its opcode. -/
def boltStep (hm : HM) (s : Nat) (seq : W32) (op : Nat) : HM :=
  match runnable hm.1 s seq with
  | some d => if opcode d = op then boltTurn hm s d else hm
  | none => hm

/-- The bolts that descriptors of a group's slips have taken are released as those descriptors fail (R287). -/
def releaseTaken (hm : HM) (g : Nat) (p : Desc → Bool) : HM :=
  (hm.1.eng.slips.filter (fun e => decide (e.2.group = g) && decide (e.2.st ≠ SlipSt.fenced))).foldl (fun hm e =>
    (e.2.descs.filter (fun d => p d && decide (d.scratch = 1) && decide (0x14 ≤ opcode d ∧ opcode d ≤ 0x19))).foldl (fun hm d =>
      let hm1 := releaseFailed hm e.1 d
      (putDesc hm1.1 e.1 { d with result := [], scratch := 0 }, hm1.2)) hm) hm

/-- A walker's turn (R376); a paused BOLT_STORE whose walk faulted releases its bolt (R381). -/
def walkTurn (hm : HM) (g : Nat) (u : Upset) : HM :=
  releaseTaken (walkFor hm g u) g (fun d => decide (d.phase = Phase.ended) && decide (0 < d.reason ∧ d.reason < 0x20))

/-- Whether a descriptor waits for a map entry. -/
def boltWaiting (d : Desc) : Bool := decide (d.phase = Phase.waiting) && decide (0x14 ≤ opcode d ∧ opcode d ≤ 0x19)

/-- The end of a bolt operation's wait (R284): WAIT_LIMIT after its first read. -/
def boltLimit (h : Hw) (s : Nat) (d : Desc) : Nat := d.since + 1000 * (boundObj h s d (boltObj d)).waitUs

/-- A waiting bolt operation reads word 0 again at a time; at WAIT_LIMIT it halts where it must still wait (R284, Table 9.11). -/
def boltAgain (hm : HM) (s : Nat) (d : Desc) (t : Nat) : HM :=
  let hm1 := boltTurn (advanceTo hm.1 t, hm.2) s d
  match findDesc (slipAt hm1.1 s) d.seq with
  | some x => if boltWaiting x && decide (boltLimit hm.1 s d ≤ t) then (haltDesc hm1.1 s x 0x27, hm1.2) else hm1
  | none => hm1

/-- BOLT_TAKE_RETRY: word 0 is read again within 256 ns, and no later than WAIT_LIMIT (R284). -/
def boltRetry (hm : HM) (s : Nat) (seq : W32) : HM :=
  match findDesc (slipAt hm.1 s) seq with
  | some d => if boltWaiting d then boltAgain hm s d (max hm.1.tb.now (min (hm.1.tb.now + 256) (boltLimit hm.1 s d))) else hm
  | none => hm

/-- CHANNEL_HALT (R344): a ferry read of a dispatched descriptor meets a detected error in the line of a local address. A
taken bolt is released under R287. -/
def channelHalt (hm : HM) (s : Nat) (seq : W32) (addr : Nat) : HM :=
  match findDesc (slipAt hm.1 s) seq with
  | some d =>
    let inSrc := decide (opcode d = 0x20 ∨ (0x14 ≤ opcode d ∧ opcode d ≤ 0x19)) || (decide (opcode d = 0x10) && d.extents.any (fun e =>
      !e.wr && isLocal hm.1 e.paddr && decide (compactLocal e.paddr / 64 ≤ addr / 64) && decide (addr < compactLocal e.paddr + e.len)))
    if (decide (d.phase = Phase.dispatched) || boltWaiting d) && inSrc && selPiece hm.1 (slipOwner hm.1 s) addr false
        && !poisoned hm.1 addr then
      let hm1 := if 0x14 ≤ opcode d ∧ opcode d ≤ 0x19 then releaseFailed hm s d else hm
      (haltUe hm1.1 s { d with result := [] } addr (ueSource addr), hm1.2)
    else hm
  | none => hm

/-! ### Bolt misses (R292 to R294) -/

/-- Operand bolts a descriptor names for miss service: loom, slot, object, bolt (R447). -/
def operandBolts (d : Desc) : List (Nat × Nat × Nat × Nat) :=
  if opcode d = 0x40 then (boltRefs d).map (fun r => (field r 23 15, field r 4 1, field r 14 5, field r 47 24)) else []

/-- The record a miss's object has for its descriptor. -/
def missObj (h : Hw) (m : Miss) : ObjRec :=
  match findDesc (slipAt h m.slip) m.seq with
  | some d => boundObj h m.slip d m.obj
  | none => objAt h (slipOwner h m.slip) m.obj

/-- The address of the lowest-numbered free transit slot for a miss (R293 step 1). -/
def freeTransit (h : Hw) (m : Miss) : Option Nat :=
  let o := missObj h m
  ((List.range o.slots).map (fun k => o.transit + 65536 * k)).find? (fun a => !(h.tiers.misses.any (fun n =>
    decide (slipOwner h n.slip = slipOwner h m.slip ∧ n.obj = m.obj ∧ n.transit = some a))))

/-- Give free transit slots to waiting misses in arrival order, each with a place of its ferry; a miss for a bolt already in transit
shares its slot (R293, R294, R400). -/
def grantTransit (h : Hw) : Hw :=
  h.tiers.misses.foldl (fun h m =>
    match m.transit with
    | some _ => h
    | none =>
      let p := slipOwner h m.slip
      let shared := (h.tiers.misses.find? (fun n => decide (slipOwner h n.slip = p ∧ n.obj = m.obj ∧ n.bolt = m.bolt)
        && n.transit.isSome)).bind (·.transit)
      let slot := if missPlace h (servingFerry (slipAt h m.slip)) then (match shared with
        | some k => some k
        | none => freeTransit h m) else none
      { h with tiers := { h.tiers with misses := h.tiers.misses.map (fun n => if n = m then { n with transit := slot } else n) } })
    h

/-- Why a descriptor whose operand bolts are looked up goes no further. -/
inductive MissStop where
  | unknown              -- OBJ_UNKNOWN
  | poisoned             -- its map entry arrived poisoned (R736)
  | bad (b : Bad)
deriving DecidableEq, Repr

/-- The operand bolts of a dispatched descriptor that miss: word 0 of each one's map entry is read (R292). -/
def missesFor (hm : HM) (s : Nat) (d : Desc) : HM × Except MissStop (List Miss) :=
  let p := slipOwner hm.1 s
  (operandBolts d).foldl (fun (acc : HM × Except MissStop (List Miss)) b =>
    match acc.2 with
    | .error _ => acc
    | .ok ms =>
      let o := boundObj acc.1.1 s d b.2.2.1
      if !o.used ∨ b.2.2.2 ≥ o.count then (acc.1, .error .unknown)
      else
        let r := readEntry acc.1 (slipDie s) p (entryAddr o b.2.2.2)
        match r.2 with
        | .poisoned => (r.1, .error .poisoned)
        | .bad x => (r.1, .error (.bad x))
        | .ok e =>
          let t := tagAt r.1.1 b.1 b.2.1
          if t.valid ∧ t.obj = b.2.2.1 ∧ t.bolt = b.2.2.2 ∧ t.version = e.version then (r.1, .ok ms)
          else (r.1, .ok (ms ++ [{ slip := s, seq := d.seq, loom := b.1, slot := b.2.1, obj := b.2.2.1, bolt := b.2.2.2 }])))
    (hm, .ok [])

/-- End a descriptor whose operand bolts cannot be looked up (Table 9.11). -/
def missStop (h : Hw) (s : Nat) (d : Desc) : MissStop → Hw
  | .unknown => haltDesc h s d 0x29
  | .poisoned => endDesc h s d 0x01 0
  | .bad (.refused a) => haltRefused h s d a
  | .bad .absent => endDesc h s d (goneStatus h) 0
  | .bad .gated => endDesc h s d 0x06 0

/-- Whether a descriptor still waits for a miss. -/
def missing (h : Hw) (s : Nat) (seq : W32) : Bool := h.tiers.misses.any (fun m => decide (m.slip = s ∧ m.seq = seq))

/-- Drop the misses of a descriptor. -/
def dropMisses (h : Hw) (s : Nat) (seq : W32) : Hw :=
  { h with tiers := { h.tiers with misses := h.tiers.misses.filter (fun m => !decide (m.slip = s ∧ m.seq = seq)) } }

/-- One bolt miss is served (R293 steps 2 to 6, R294): the bolt is read into its transit slot, checked, copied into every
bobbin slot that waits for it, tagged, and the transit slot freed. -/
def missFill (hm : HM) (s : Nat) (seq : W32) : HM :=
  match hm.1.tiers.misses.find? (fun m => decide (m.slip = s ∧ m.seq = seq) && m.transit.isSome) with
  | none => hm
  | some m =>
    match findDesc (slipAt hm.1 s) seq with
    | none => (dropMisses hm.1 s seq, hm.2)
    | some d =>
      let p := slipOwner hm.1 s
      let o := boundObj hm.1 s d m.obj
      let die := slipDie s
      let r := readEntry hm die p (entryAddr o m.bolt)
      let stop (hm : HM) (f : Hw → Hw) : HM := (grantTransit (f (dropMisses hm.1 s seq)), hm.2)
      match r.2 with
      | .bad b => stop r.1 (fun h => missStop h s d (.bad b))
      | .poisoned => stop r.1 (fun h => missStop h s d .poisoned)
      | .ok e =>
        if mapBad r.1.1 o e then stop r.1 (fun h => haltDesc h s d 0x26)
        else if e.state = 3 then
          ({ r.1.1 with tiers := { r.1.1.tiers with misses := r.1.1.tiers.misses.map (fun n => if n = m then { n with waited := true } else n) } }, r.1.2)
        else
          let c := readBolt r.1 die p o.format e
          match c.2 with
          | .error b => stop c.1 (fun h => missStop h s d (.bad b))
          | .ok b =>
            let h1 := if b.rejected then codecCheck c.1.1 s d m.obj m.bolt else c.1.1
            let w := writePlain (h1, c.1.2) p (m.transit.getD 0 / 64) 0xFFFF b
            match w.2 with
            | .refused a => stop w.1 (fun h => haltRefused h s d a)
            | _ =>
              let mine (n : Miss) : Bool := decide (slipOwner hm.1 n.slip = p ∧ n.obj = m.obj ∧ n.bolt = m.bolt ∧ n.transit = m.transit)
              let served := w.1.1.tiers.misses.filter mine
              let h2 := served.foldl (fun h n => match findDesc (slipAt h n.slip) n.seq with
                | some dn => fillFor h dn n.loom n.slot n.obj n.bolt e.version b
                | none => h) w.1.1
              let h3 := served.foldl (fun h n =>
                let x := slipAt h n.slip
                match findDesc x n.seq with
                | some dn => setSlip h n.slip (setDesc x { dn with poison := dn.poison || decide (b.pm ≠ 0), off := dn.off || b.off })
                | none => h) h2
              (grantTransit { h3 with tiers := { h3.tiers with misses := h3.tiers.misses.filter (fun n => !mine n) } }, w.1.2)

/-- BOLT_WAIT: WAIT_LIMIT has passed since the first read (R284, Table 9.11), for a bolt operation at its entry or for a
descriptor whose bolt miss meets a WRITING entry (R285): word 0 is read a last time, and the operation halts where it must still wait. -/
def boltGiveUp (hm : HM) (s : Nat) (seq : W32) : HM :=
  match findDesc (slipAt hm.1 s) seq with
  | some d =>
    if boltWaiting d then boltAgain hm s d (max hm.1.tb.now (boltLimit hm.1 s d))
    else match hm.1.tiers.misses.find? (fun m => decide (m.slip = s ∧ m.seq = seq) && m.waited) with
      | some m =>
        let hm1 := missFill (advanceTo hm.1 (d.since + 1000 * (boundObj hm.1 s d m.obj).waitUs), hm.2) s seq
        if hm1.1.tiers.misses.any (fun n => decide (n.slip = s ∧ n.seq = seq) && n.waited) then
          (grantTransit (haltDesc (dropMisses hm1.1 s seq) s d 0x27), hm1.2)
        else hm1
      | none => hm
  | none => hm

end Sys2Proof.Machine
end

