-- ==== Sys2Proof/Machine/Knots.lean ====
section
/-! DEFINITION. Knots, pools and ledgers (chapters 16 and 17) at their sync islands. -/
namespace Sys2Proof.Machine

/-! ### Knots -/

/-- KNOT of a reference (Table 16.1). -/
def refKnot (r : Nat) : Nat := field r 17 0

/-- Whether a reference names a knot of this package (R481). -/
def refLocal (h : Hw) (r : Nat) : Bool := !bitOf r 26 || decide (field r 25 18 = h.ident.position)

/-- Whether a type allows a signal operation (Table 16.2). -/
def sigAllowed (type op : Nat) : Bool :=
  match type with
  | 0 => decide (op = 1 ∨ op = 2)
  | 1 => decide (op = 3 ∨ op = 4)
  | 2 => decide (op = 5 ∨ op = 6)
  | _ => decide (op = 7)

/-- Whether a type allows a wait condition (Table 16.2). -/
def condAllowed (type cond : Nat) : Bool :=
  match type with
  | 0 => decide (1 ≤ cond ∧ cond ≤ 3)
  | 1 => decide (cond = 4)
  | 2 => decide (cond = 5)
  | _ => decide (cond = 1)

/-- VALUE after a signal operation (Table 16.3). -/
def sigValue (k : Knot) (op operand : Nat) : W64 :=
  let v := k.value.toNat
  match op with
  | 1 => w64 (v + operand)
  | 2 => w64 operand
  | 3 =>
    let n := operand % 65536
    let arrived := v % 2 ^ 32
    let gen := v / 2 ^ 32
    if n = 0 then k.value
    else if arrived + n ≥ k.parties then w64 ((gen + 1) % 2 ^ 32 * 2 ^ 32) else w64 (gen * 2 ^ 32 + arrived + n)
  | 4 => w64 (v / 2 ^ 32 * 2 ^ 32)
  | 5 => 1
  | 6 => 0
  | _ => w64 (max v (operand % 2 ^ 64))

/-- Whether a wait's condition holds (Table 16.4). -/
def condHolds (k : Knot) (cond x : Nat) : Bool :=
  let v := k.value.toNat
  match cond with
  | 1 | 3 => decide (v ≥ x)
  | 2 => decide (v = x)
  | 4 => decide (v / 2 ^ 32 ≠ x % 2 ^ 32)
  | _ => decide (v % 2 = 1)

/-- VALUE after a wait's release (Table 16.4). -/
def releaseValue (k : Knot) (cond x : Nat) : W64 :=
  match cond with
  | 3 => w64 (k.value.toNat - x)
  | 5 => if k.evmode = 1 then 0 else k.value
  | _ => k.value

/-- Whether a waiter holds back later ones of its kind while its condition does not hold (R485). -/
def holdsBack (k : Knot) (cond : Nat) : Bool := decide (cond = 3) || (decide (cond = 5) && decide (k.evmode = 1))

/-- The first waiter that may be released, in registration order (R485); `back`: an earlier one holds back its kind. -/
def firstRelease (k : Knot) : Bool → List Waiter → Option Waiter
  | _, [] => none
  | back, w :: ws =>
    let kind := holdsBack k w.cond
    if condHolds k w.cond w.x && !(back && kind) then some w
    else firstRelease k (back || kind) ws

/-- RESULT of a knot descriptor (Table 16.9): VALUE, wait time, LAST_SIGNALLER. -/
def knotResult (value waitUs last : Nat) : List Byte :=
  leBytes 8 value ++ leBytes 4 (min waitUs (2 ^ 32 - 1)) ++ leBytes 4 last

/-- Looms of the gang of the first weave descriptor staged after a wait in its slip (R509). -/
def weaveAfter (x : Slip) (seq : W32) : Nat :=
  match x.descs.find? (fun e => decide (opcode e = 0x40) && decide (e.phase ≠ Phase.fetched) &&
      decide ((e.seq - seq).toNat < 2 ^ 31 ∧ e.seq ≠ seq)) with
  | some e => gangSize (leAt e.bytes 0x12 1)
  | none => 0

/-- The partition set a partition is bound to on this package, if any (R611). -/
def setOf (h : Hw) (p : Nat) : Option Nat := (h.arch.sets.find? (fun e => e.2.used && decide (e.2.part = p))).map (·.1)

/-- The wait counters of a partition's set take a wait that a slip's descriptor had on a cross-package knot (R509). -/
def accountSet (h : Hw) (slip : Nat) (seq : W32) (dt last : Nat) : Hw :=
  match setOf h (slipOwner h slip) with
  | some i =>
    let st := tabGet {} h.arch.sets i
    let w := dt * weaveAfter (slipAt h slip) seq
    { h with arch := { h.arch with sets := tabPut {} h.arch.sets i { st with
        waitTotal := st.waitTotal + w, awaited := tabPut 0 st.awaited last (tabGet 0 st.awaited last + w) } } }
  | none => h

/-- A wait's time is accounted: to the knot and its partition (Table 3.9), and for a cross-package knot to the partition's set. -/
def accountWait (h : Hw) (n slip : Nat) (seq : W32) (since last : Nat) : Hw :=
  let dt := h.tb.now - since
  let k := knotAt h n
  let p := slipOwner h slip
  let pr := partAt h p
  let h1 := setPart (setKnot h n { k with waitNs := k.waitNs + dt }) p { pr with knotWaitNs := pr.knotWaitNs + dt }
  if k.cross then accountSet h1 slip seq dt last else h1

/-- Release every waiter that may go, one at a time, until none may (R484, R485). -/
def serveKnot : Nat → Nat → Hw → Hw
  | 0, _, h => h
  | fuel + 1, n, h =>
    let k := knotAt h n
    match firstRelease k false k.waiters with
    | none => h
    | some w =>
      let k1 := { k with value := releaseValue k w.cond w.x, waiters := k.waiters.erase w }
      let h1 := setKnot h n k1
      let h2 := match w.remote with
        | some q => postMsg h1 (partSet h1 w.part)
            { cls := .cmp, op := 2, dst := q, txn := w.tag, payload := leBytes 8 k1.value.toNat ++ leBytes 4 k1.lastSig }
        | none =>
          match findDesc (slipAt h1 w.slip) w.seq with
          | some d => endDesc (accountWait h1 n w.slip w.seq w.since k1.lastSig) w.slip
              { d with result := knotResult k1.value.toNat ((h.tb.now - w.since) / 1000) k1.lastSig } 0 0
          | none => h1
      serveKnot fuel n h2

/-- Perform a signal operation on a local knot: its waiters are evaluated after it, and an EVENT's interrupt raised when
SET rises (R484, R487). -/
def signalKnot (h : Hw) (n op operand last : Nat) : Hw :=
  let k := knotAt h n
  let k1 := { k with value := sigValue k op operand, lastSig := last }
  let h1 := setKnot h n k1
  let h2 := if k.type = 2 ∧ k.value.toNat % 2 = 0 ∧ k1.value.toNat % 2 = 1 ∧ k.irq ≠ 0xFFFF then raise h1 (knotOwner h n) k.irq
            else h1
  serveKnot (k.waiters.length + 1) n h2

/-- The header signal of a knot's type (Table 16.2): the operation and its operand. -/
def headerSignal (k : Knot) (seq : Nat) : Nat × Nat :=
  match k.type with
  | 0 => (1, 1)
  | 1 => (3, 1)
  | 2 => (5, 0)
  | _ => (7, seq + 1)

/-- Whether an operation of a partition on a local knot goes ahead: owned, sound and not BROKEN. -/
def knotOpen (h : Hw) (p n : Nat) : Bool :=
  decide (knotOwner h n = p) && !(knotAt h n).poison && !(knotAt h n).broken

/-- The header signal of a completed descriptor (R404): a knot the partition does not own is refused (R79); another package's knot is
sent a KNOT_OP whose OP is 0, with s + 1 as OPERAND, and its home chooses the operation by the knot's type (log entry 17). -/
def signalHeader (h : Hw) (p ref seq desc : Nat) : Hw :=
  let n := refKnot ref
  if !refLocal h ref then
    if isMember h (field ref 25 18) && !memberFenced h then
      postReq h p { cls := .req, op := 9, dst := field ref 25 18,
                    payload := leBytes 4 ref ++ zeros 4 ++ leBytes 8 ((seq + 1) % 2 ^ 64) ++ zeros 8 }
    else h
  else if knotOwner h n ≠ p then refuseEngine h p 0 desc
  else if knotOpen h p n then
    let o := headerSignal (knotAt h n) seq
    signalKnot h n o.1 o.2 h.ident.position
  else h

/-- KNOT_INIT (R482, R490, R502). -/
def knotInit (h : Hw) (s : Nat) (d : Desc) : Hw :=
  let b := d.bytes
  let n := refKnot (leAt b 0x10 4)
  let cross := decide (leAt b 0x24 1 = 1)
  let members := leAt b 0x40 32
  let type := leAt b 0x14 1
  if knotOwner h n ≠ slipOwner h s then haltDesc h s d 0x20
  else if cross && (!h.ident.admitted || !bitOf members h.ident.position) then haltDesc h s d 0x42
  else
    let h1 := breakWaiters h n
    let k : Knot := { type := type, value := w64 (if type = 2 then leAt b 0x18 8 % 2 else leAt b 0x18 8),
                      parties := leAt b 0x20 4, evmode := leAt b 0x15 1, irq := leAt b 0x16 2, cross := cross,
                      members := if cross then members else 0, lastSig := h.ident.position, waitShown := (knotAt h n).waitShown }
    endDesc (setKnot h1 n k) s { d with result := knotResult k.value.toNat 0 k.lastSig } 0 0

/-- End a descriptor that acts on another package's knot as that package answers (R491 to R494); the time of a wait is accounted here
(R509). -/
def remoteEnd (h : Hw) (s : Nat) (d : Desc) (ans : KnotAns) : Hw :=
  match ans with
  | .done v last => endDesc (if opcode d = 0x62 then accountSet h s d.seq (h.tb.now - d.since) (last % 256) else h) s { d with result := knotResult (v % 2 ^ 64) ((h.tb.now - d.since) / 1000) (last % 256) } 0 0
  | .broken => endDesc h s d 0x08 0
  | .notMember => haltDesc h s d 0x43
  | .badType => haltDesc h s d 0x40
  | .poisoned => endDesc h s { d with poison := true } 0x01 0
  | _ => h

/-- A knot operation leaves for the knot's home with its fields of Table 16.8 (R491, R607); SIZE 1 marks a wait (log entry 17). -/
def postKnot (h : Hw) (s : Nat) (d : Desc) (wait : Bool) : Hw :=
  postReq h (slipOwner h s) { cls := .req, op := 9, dst := field (leAt d.bytes 0x10 4) 25 18, size := flag wait,
                              payload := (d.bytes.drop 0x10).take 24 }

/-- KNOT_SIGNAL (R483, R484, R491). -/
def knotSignal (h : Hw) (s : Nat) (d : Desc) (ans : KnotAns) : Hw :=
  let b := d.bytes
  let r := leAt b 0x10 4
  let n := refKnot r
  if !refLocal h r then
    if !isMember h (field r 25 18) then endDesc h s d 0x05 0
    else if memberFenced h then endDesc h s d 0x08 0 else remoteEnd (postKnot h s d false) s d ans
  else if knotOwner h n ≠ slipOwner h s then haltDesc h s d 0x20
  else if (knotAt h n).broken then endDesc h s d 0x08 0
  else if (knotAt h n).poison then endDesc h s { d with poison := true } 0x01 0
  else if !sigAllowed (knotAt h n).type (leAt b 0x14 1) then haltDesc h s d 0x40
  else
    let v := sigValue (knotAt h n) (leAt b 0x14 1) (leAt b 0x18 8)
    endDesc (signalKnot h n (leAt b 0x14 1) (leAt b 0x18 8) h.ident.position) s
      { d with result := knotResult v.toNat 0 h.ident.position } 0 0

/-- KNOT_WAIT (R484 to R486, R492). -/
def knotWait (h : Hw) (s : Nat) (d : Desc) (ans : KnotAns) : Hw :=
  let b := d.bytes
  let r := leAt b 0x10 4
  let n := refKnot r
  let cond := leAt b 0x14 1
  let now := h.tb.now
  if !refLocal h r then
    if !isMember h (field r 25 18) then endDesc h s d 0x05 0
    else if memberFenced h then endDesc h s d 0x08 0
    else match ans with
      | .held | .noEntry =>
        let h1 := putDesc (postKnot h s d true) s { d with phase := .waiting, since := now }
        { h1 with sync := { h1.sync with remoteWaits := h1.sync.remoteWaits ++ [(s, d.seq, if ans = KnotAns.held then 1 else 0)] } }
      | a => remoteEnd (postKnot h s d true) s { d with since := now } a
  else if knotOwner h n ≠ slipOwner h s then haltDesc h s d 0x20
  else if (knotAt h n).broken then endDesc h s d 0x08 0
  else if (knotAt h n).poison then endDesc h s { d with poison := true } 0x01 0
  else if !condAllowed (knotAt h n).type cond then haltDesc h s d 0x40
  else
    let arrive := leAt b 0x15 1 = 1
    let x := if arrive then (knotAt h n).value.toNat / 2 ^ 32 else leAt b 0x18 8
    let h1 := putDesc h s { d with phase := .waiting, since := now, begun := true }
    let h2 := if arrive then signalKnot h1 n 3 1 h.ident.position else h1
    let k := knotAt h2 n
    let h3 := setKnot h2 n { k with waiters := k.waiters ++ [{ slip := s, seq := d.seq, part := slipOwner h s, cond := cond, x := x, since := now }] }
    serveKnot (k.waiters.length + 2) n h3

/-- A knot or pool descriptor's command acts on its slip's dispatched descriptor of that opcode. -/
def onDesc (h : Hw) (s : Nat) (seq : W32) (op : Nat) (f : Desc → Hw) : Hw :=
  match runnable h s seq with
  | some d => if opcode d = op then f d else h
  | none => h

/-- The same over the byte memory. -/
def onDescM (hm : HM) (s : Nat) (seq : W32) (op : Nat) (f : Desc → HM) : HM :=
  match runnable hm.1 s seq with
  | some d => if opcode d = op then (tagWrites (f d).1 (.slip s seq), (f d).2) else hm
  | none => hm

/-- A registered wait's TIMEOUT_US passes: it is withdrawn and halts (R486). -/
def knotTimeout (h : Hw) (s : Nat) (seq : W32) : Hw :=
  match findDesc (slipAt h s) seq with
  | some d =>
    let us := leAt d.bytes 0x20 4
    if opcode d = 0x62 ∧ d.phase = Phase.waiting ∧ us ≠ 0 then
      haltDesc (withdrawWaits (advanceTo h (d.since + 1000 * us)) s (fun q => decide (q = seq))) s d 0x41
    else h
  | none => h

/-- A remote wait is answered (R492) or performed again (R494). -/
def remoteAnswer (h : Hw) (s : Nat) (seq : W32) (retry : Bool) (ans : KnotAns) : Hw :=
  let due (w : Nat × W32 × Nat) : Bool := decide (w.1 = s ∧ w.2.1 = seq) && (!retry || decide (w.2.2 = 0))
  if h.sync.remoteWaits.any due then
    let h0 := if retry then (match findDesc (slipAt h s) seq with
      | some d => postKnot (advanceTo h (h.tb.now + 2000)) s d true
      | none => h) else h
    let st := h0.sync.remoteWaits.map (fun w => if due w then (w.1, w.2.1, if ans = KnotAns.held then 1 else w.2.2) else w)
    match ans with
    | .held | .noEntry => { h0 with sync := { h0.sync with remoteWaits := st } }
    | a =>
      match findDesc (slipAt h0 s) seq with
      | some d =>
        let h1 := { h0 with sync := { h0.sync with remoteWaits := h0.sync.remoteWaits.filter (fun w => !due w) } }
        remoteEnd h1 s d a
      | none => h0
  else h

/-- Waiter entries of a partition's remote waits on one sync island: 7,168 shared in proportion to the knot ranges each
owns there (R494). -/
def remoteShare (h : Hw) (die p : Nat) : Nat :=
  let ranges := h.sel.units.filter (fun e => decide (e.1 / 2 ^ 32 = 6 ∧ e.1 % 2 ^ 32 / 256 = die ∧ e.2.owner ≠ 31))
  let mine := ranges.filter (fun e => decide (e.2.owner = p))
  if ranges.isEmpty then 0 else 7168 * mine.length / ranges.length

/-- Remote waits of a partition held on one sync island. -/
def remoteHeld (h : Hw) (die p : Nat) : Nat :=
  (h.sync.knots.filter (fun e => decide (e.1 / 65536 = die))).foldl (fun n e =>
    n + (e.2.waiters.filter (fun w => w.remote.isSome && decide (w.part = p))).length) 0

/-- What keeps a remote package's operation on a knot from being performed, as the status of its answer: not owned by the partition, not a
member, a type that does not allow it (HALTED), BROKEN, poisoned. -/
def remoteBad (h : Hw) (pos p n : Nat) (allowed : Bool) : Option Nat :=
  let k := knotAt h n
  if knotOwner h n ≠ p ∨ !k.cross ∨ !bitOf k.members pos then some 0x09
  else if k.broken then some 0x08
  else if k.poison then some 0x01
  else if !allowed then some 0x09
  else none

/-- The answer to a remote package's knot operation. -/
def answerKnot (h : Hw) (pos p tag status : Nat) (payload : List Byte) : Hw :=
  postMsg h (partSet h p) { cls := .cmp, op := if status = 0 then 2 else 3, dst := pos, status := status, txn := tag, payload := payload }

/-- A remote package's signal arrives at the home on the partition stream (R491): performed where its sender is a member. -/
def remoteSignal (h : Hw) (pos p n op operand tag : Nat) : Hw :=
  match remoteBad h pos p n (sigAllowed (knotAt h n).type op) with
  | some e => answerKnot h pos p tag e []
  | none =>
    let v := sigValue (knotAt h n) op operand
    answerKnot (signalKnot h n op operand pos) pos p tag 0 (leBytes 8 v.toNat ++ leBytes 4 pos)

/-- A remote package's wait arrives at the home (R492, R494): one that finds no entry of its partition is answered ERROR with no status,
and performed again. -/
def remoteWait (h : Hw) (pos p n cond x tag : Nat) : Hw :=
  let k := knotAt h n
  match remoteBad h pos p n (condAllowed k.type cond) with
  | some e => answerKnot h pos p tag e []
  | none =>
    if condHolds k cond x || decide (remoteHeld h (n / 65536) p < remoteShare h (n / 65536) p) then
      serveKnot (k.waiters.length + 2) n (setKnot h n { k with waiters := k.waiters ++
        [{ remote := some pos, tag := tag, part := p, cond := cond, x := x, since := h.tb.now }] })
    else postMsg h (partSet h p) { cls := .cmp, op := 3, dst := pos, txn := tag }

/-! ### The knot window (R488, R489) -/

/-- The operation a store to KNT_SIGNAL is, by the knot's type (R488). -/
def windowOp (k : Knot) (v : Nat) : Nat := match k.type with | 0 => 1 | 1 => 3 | 2 => (if v = 0 then 6 else 5) | _ => 7

/-- A hart's store to KNT_SIGNAL. -/
def windowSignal (h : Hw) (p n v : Nat) : Hw :=
  let k := knotAt h n
  if knotOwner h n ≠ p then h
  else if k.poison then recordWrite h { type := 0x0609, part := p, arg0 := n }
  else if k.broken then h
  else
    signalKnot h n (windowOp k v) v h.ident.position

/-- A load of KNT_VALUE: zero for a knot not owned; none for a poisoned one. -/
def windowValue (h : Hw) (p n : Nat) : Option W64 :=
  if knotOwner h n ≠ p then some 0
  else if (knotAt h n).poison then none else some (knotAt h n).value

/-! ### Pools (R495 to R501) -/

/-- A pool of a partition. -/
def poolAt (h : Hw) (p id : Nat) : Pool := tabGet {} h.sync.pools (p * 64 + id)

/-- Replace a pool. -/
def setPool (h : Hw) (p id : Nat) (x : Pool) : Hw :=
  { h with sync := { h.sync with pools := tabPut {} h.sync.pools (p * 64 + id) x } }

/-- RC: the smallest power of two that is at least ENTRIES. -/
def ringCap (entries : Nat) : Nat := if entries ≤ 1 then 1 else 2 ^ (Nat.log2 (entries - 1) + 1)

/-- Compact address of a free-ring slot. -/
def ringSlot (x : Pool) (i : Nat) : Nat := x.ring + 4 * (i % ringCap x.entries)

/-- Free buffers of a pool. -/
def poolFreeCount (x : Pool) : Nat := (x.tail - x.head).toNat

/-- Read n ring slots from a position (R736: poison stops the operation; a gated island answers in their place). -/
def readSlots (hm : HM) (die p : Nat) (addr : Nat → Nat) (from_ n : Nat) : HM × Except Bad (Bool × List Nat) :=
  (List.range n).foldl (fun (acc : HM × Except Bad (Bool × List Nat)) i =>
    match acc.2 with
    | .error e => (acc.1, .error e)
    | .ok r =>
      let g := engineRead acc.1 die p true (addr (from_ + i)) 4
      match g.2.v with
      | .refused a => (g.1, .error (.refused a))
      | .absent => (g.1, .error .absent)
      | .off => (g.1, .error .gated)
      | _ => (g.1, .ok (r.1 || g.2.poison, r.2 ++ [leNat g.2.bytes])))
    (hm, .ok (false, []))

/-- Write values to slots from a position. -/
def writeSlots (hm : HM) (p : Nat) (addr : Nat → Nat) (from_ : Nat) (vs : List Nat) : HM × Verdict :=
  ((List.range vs.length).foldl (fun (acc : HM × Verdict) i =>
    match acc.2 with
    | .refused _ => acc
    | .absent => acc
    | v => let r := engineWrite acc.1 p (addr (from_ + i)) (leBytes 4 (vs.getD i 0)) false
           (r.1, worst v r.2)) (hm, .ok))

/-- Take `n` buffers of a pool that has them (R497): the indices, or what stopped the ring read. -/
def poolTake (hm : HM) (p id n : Nat) : HM × Except Bad (Bool × List Nat) :=
  let x := poolAt hm.1 p id
  let r := readSlots hm x.die p (ringSlot x) x.head.toNat n
  match r.2 with
  | .ok (false, vs) => ((setPool r.1.1 p id { x with head := x.head + w32 n }, r.1.2), .ok (false, vs))
  | e => (r.1, e)

/-- The index a slot of a pool's free ring in this package holds; one that names no buffer for a ring elsewhere. -/
def ringIndex (hm : HM) (x : Pool) (i : Nat) : Nat :=
  if isLocal hm.1 (ringSlot x i) then leNat (cohRead hm.1 hm.2 (compactLocal (ringSlot x i)) 4) else x.entries

/-- Whether indices to return break R500: one is not below ENTRIES, or the pool would hold one twice. -/
def strangeIndices (hm : HM) (x : Pool) (vs : List Nat) : Bool :=
  vs.any (fun v => decide (x.entries ≤ v)) || !decide vs.Nodup ||
    (List.range (min (poolFreeCount x) x.entries)).any (fun i => decide (ringIndex hm x (x.head.toNat + i) ∈ vs))

/-- The indices that go to the ring: those returned, or, where they break R500 and the result is unpredictable (R17), free values (log
entry 96). -/
def poolIndices (hm : HM) (x : Pool) (vs : List Nat) : HM × List Nat :=
  if strangeIndices hm x vs then
    let r := takeFreeBytes hm.1 (4 * vs.length)
    ((r.2, hm.2), (List.range vs.length).map (fun i => leAt r.1 (4 * i) 4))
  else (hm, vs)

/-- Return indices to a pool (R499 steps 1 to 3): ring slots, TAIL, then the refill knot. Overflow is the caller's check. -/
def poolPut (hm : HM) (p id : Nat) (vs : List Nat) (seq : Nat) : HM × Verdict :=
  let x := poolAt hm.1 p id
  let w := writeSlots hm p (ringSlot x) x.tail.toNat vs
  match w.2 with
  | .refused a => (w.1, .refused a)
  | .absent => (w.1, .absent)
  | v =>
    let h1 := setPool w.1.1 p id { x with tail := x.tail + w32 vs.length }
    let n := refKnot x.refill
    let h2 := if knotOpen h1 p n then
        let k := knotAt h1 n
        let o := if k.type = 0 then (1, vs.length) else headerSignal k seq
        signalKnot h1 n o.1 o.2 h1.ident.position
      else h1
    ((h2, w.1.2), v)

/-- RESULT of POOL_ALLOC (Table 16.9). -/
def allocResult (vs : List Nat) (head : Nat) : List Byte :=
  leBytes 4 (vs.getD 0 0) ++ leBytes 4 (vs.getD 1 0xFFFFFFFF) ++ leBytes 4 head ++ zeros 4

/-- Write bytes into a descriptor's buffer through its extents. -/
def bufWrite (hm : HM) (s : Nat) (d : Desc) (buf : Nat) (bs : List Byte) : HM × Verdict :=
  (List.range bs.length).foldl (fun (acc : HM × Verdict) i =>
    match acc.2, extAddr d.extents buf i with
    | .refused _, _ => acc
    | v, some (ca, _) => let r := engineWrite acc.1 (slipOwner hm.1 s) ca ((bs.drop i).take 1) false
                         (r.1, worst v r.2)
    | _, none => acc) (hm, .ok)

/-- Complete a POOL_ALLOC that a pool serves (R497, R503). -/
def completeAlloc (hm : HM) (s : Nat) (d : Desc) (vs : List Nat) (head : Nat) : HM :=
  let w0 := if (buffersOf d).isEmpty then (hm, Verdict.ok) else bufWrite hm s d 0 (vs.flatMap (leBytes 4))
  let w := ((tagWrites w0.1.1 (.slip s d.seq), w0.1.2), w0.2)
  match w.2 with
  | .refused a => (haltRefused w.1.1 s d a, w.1.2)
  | .absent => (endDesc w.1.1 s d (goneStatus w.1.1) 0, w.1.2)
  | .off => (endDesc w.1.1 s { d with result := allocResult vs head } 0x06 0, w.1.2)
  | _ => (endDesc w.1.1 s { d with result := allocResult vs head } 0 0, w.1.2)

/-- Act on a failed ring or list access: the descriptor halts, or completes ABSENT. -/
def failAccess (h : Hw) (s : Nat) (d : Desc) (b : Bad) : Hw :=
  match b with
  | .refused a => haltRefused h s d a
  | .absent => endDesc h s d (goneStatus h) 0
  | .gated => endDesc h s d 0x06 0

/-- POOL_ALLOC on a pool with an empty queue and enough buffers. -/
def serveAlloc (hm : HM) (s p id : Nat) (d : Desc) (n : Nat) : HM :=
  let head := (poolAt hm.1 p id).head.toNat
  let r := poolTake hm p id n
  match r.2 with
  | .error b => (failAccess r.1.1 s d b, r.1.2)
  | .ok (true, _) => (endDesc r.1.1 s { d with poison := true } 0x01 0, r.1.2)
  | .ok (false, vs) => completeAlloc r.1 s d vs head

/-! ### Ledgers (R511 to R522) -/

/-- A ledger. -/
def ledgerAt (h : Hw) (n : Nat) : Ledger := tabGet {} h.sync.ledgers n

/-- Replace a ledger. -/
def setLedger (h : Hw) (n : Nat) (x : Ledger) : Hw :=
  { h with sync := { h.sync with ledgers := tabPut {} h.sync.ledgers n x } }

/-- The owner of a ledger's range (R511). -/
def ledgerOwner (h : Hw) (n : Nat) : Nat := unitHolder h 7 (n / 16)

/-- Compact address of a page-list slot (R513). -/
def pageSlot (x : Ledger) (i : Nat) : Nat := x.list * 64 + 4 * i

/-- Whether a page list lies where R513 lets it: an access to region 3, 4 or 5 is refused. -/
def listBad (x : Ledger) : Bool :=
  decide (regionOf (compactLocal (x.list * 64)) ∈ [3, 4, 5])

/-- RESULT of a ledger operation (Table 17.4). -/
def ledgerResult (x : Ledger) (taken returned : Nat) : List Byte :=
  leBytes 4 x.l ++ leBytes 4 x.t ++ leBytes 4 x.npages ++ leBytes 2 taken ++ leBytes 2 returned

/-- Pages to hold after an operation sets T (R517). -/
def keepPages (x : Ledger) (t : Nat) (release : Bool) : Nat := if release then 0 else ceilDiv t 16 + x.spare

/-- Return a ledger's surplus pages (R517): how many went back, a halt reason, or the access that failed. -/
inductive Returned where
  | ok (n : Nat)
  | poison
  | halt (reason : Nat)
  | bad (b : Bad)
deriving DecidableEq, Repr

/-- Return the pages above KEEP as one POOL_FREE in ascending slot order. -/
def returnPages (hm : HM) (p n keep seq : Nat) : HM × Returned :=
  let x := ledgerAt hm.1 n
  if x.npages ≤ keep then (hm, .ok 0)
  else if listBad x then (hm, .bad (.refused (compactLocal (x.list * 64))))
  else
    let c := x.npages - keep
    let pl := poolAt hm.1 p x.pool
    if !pl.used ∨ pl.die ≠ n / 16384 then (hm, .halt 0x42)
    else if pl.poison then (hm, .poison)
    else
    let r := readSlots hm (n / 16384) p (pageSlot x) keep c
    match r.2 with
    | .error b => (hm, .bad b)
    | .ok (true, _) => (hm, .poison)
    | .ok (false, vs) =>
      if poolFreeCount pl + c > pl.entries then (hm, .halt 0x45)
      else
        let ix := poolIndices r.1 pl vs
        let w := poolPut ix.1 p x.pool ix.2 seq
        match w.2 with
        | .refused a => (w.1, .bad (.refused a))
        | .absent => (w.1, .bad .absent)
        | _ => ((setLedger w.1.1 n { ledgerAt w.1.1 n with npages := keep }, w.1.2), .ok c)

/-- Set L and T, return surplus pages, and advance GEN where L, T or NPAGES changed (R512, R517, R520). -/
def setLengths (hm : HM) (p n l t : Nat) (release : Bool) (seq : Nat) : HM × Returned :=
  let x := ledgerAt hm.1 n
  let r := returnPages hm p n (keepPages x t release) seq
  match r.2 with
  | .ok c =>
    let y := ledgerAt r.1.1 n
    let changed := decide (x.l ≠ l ∨ x.t ≠ t ∨ c ≠ 0)
    ((setLedger r.1.1 n { y with l := l, t := t, gen := if changed then y.gen + 1 else y.gen }, r.1.2), .ok c)
  | e => (hm, e)

/-- End a ledger descriptor whose page returns came out as given. -/
def endReturn (hm : HM) (s : Nat) (d : Desc) (n : Nat) (r : Returned) (f : Nat → Ledger) : HM :=
  match r with
  | .ok c => (endDesc (setLedger hm.1 n (f c)) s { d with result := ledgerResult (f c) 0 c } 0 0, hm.2)
  | .poison => (endDesc hm.1 s { d with poison := true } 0x01 0, hm.2)
  | .halt e => (haltDesc hm.1 s d e, hm.2)
  | .bad b => (failAccess hm.1 s d b, hm.2)

/-- Finish a LEDGER_EXTEND with the pages it took (R518, R520): indices to the list, then NPAGES, T and GEN. A refused list
write returns the pages and halts. -/
def finishExtend (hm : HM) (s : Nat) (d : Desc) (n : Nat) (vs : List Nat) : HM :=
  let x := ledgerAt hm.1 n
  let p := slipOwner hm.1 s
  let w := if vs.isEmpty then (hm, Verdict.ok) else writeSlots hm p (pageSlot x) x.npages vs
  let undo (hm : HM) (f : Hw → Hw) : HM :=
    let u := poolPut hm p x.pool vs d.seq.toNat
    (f (setLedger u.1.1 n { ledgerAt u.1.1 n with held := false }), u.1.2)
  if !vs.isEmpty ∧ listBad x then undo hm (fun h => haltRefused h s d (compactLocal (x.list * 64)))
  else match w.2 with
  | .refused a => undo w.1 (fun h => haltRefused h s d a)
  | .absent => undo w.1 (fun h => endDesc h s d (goneStatus h) 0)
  | _ =>
    let y := { x with t := x.t + leAt d.bytes 0x18 4, npages := x.npages + vs.length, gen := x.gen + 1, held := false }
    (endDesc (setLedger w.1.1 n y) s { d with result := ledgerResult y vs.length 0 } (if w.2 = Verdict.off then 0x06 else 0) 0, w.1.2)

/-- LEDGER_EXTEND (R520, R521). -/
def ledgerExtend (hm : HM) (s : Nat) (d : Desc) (n : Nat) : HM :=
  let h := hm.1
  let p := slipOwner h s
  let x := ledgerAt h n
  let c := leAt d.bytes 0x18 4
  let need := ceilDiv (x.t + c) 16 - x.npages
  if !x.active then (haltDesc h s d 0x40, hm.2)
  else if x.t + c > 16 * x.cap then (haltDesc h s d 0x41, hm.2)
  else if need = 0 then finishExtend hm s d n []
  else
    let pl := poolAt h p x.pool
    if !pl.used ∨ pl.die ≠ n / 16384 then (haltDesc h s d 0x42, hm.2)
    else if pl.poison then (endDesc h s { d with poison := true } 0x01 0, hm.2)
    else if pl.queue.isEmpty ∧ poolFreeCount pl ≥ need then
      let r := poolTake hm p x.pool need
      match r.2 with
      | .error b => (failAccess r.1.1 s d b, r.1.2)
      | .ok (true, _) => (endDesc r.1.1 s { d with poison := true } 0x01 0, r.1.2)
      | .ok (false, vs) => finishExtend r.1 s d n vs
    else if leAt d.bytes 0x14 1 = 1 then (endDesc h s d 0x03 0, hm.2)
    else
      let h1 := putDesc h s { d with phase := .waiting, since := h.tb.now, begun := true }
      let h2 := setLedger h1 n { x with held := true }
      (setPool h2 p x.pool { pl with queue := pl.queue ++ [{ slip := s, seq := d.seq, count := need, ledger := some n }] }, hm.2)

/-- One ledger operation at its unit, the ledger not held (R520). -/
def ledgerOp (hm : HM) (s : Nat) (d : Desc) : HM :=
  let h := hm.1
  let b := d.bytes
  let n := leAt b 0x10 2
  let p := slipOwner h s
  let x := ledgerAt h n
  let op := opcode d
  let flag0 := decide (leAt b 0x14 1 = 1)
  if ledgerOwner h n ≠ p then (haltDesc h s d 0x20, hm.2)
  else if op = 0x70 then
    let pl := poolAt h p (leAt b 0x14 1)
    if x.active then (haltDesc h s d 0x40, hm.2)
    else if !pl.used ∨ pl.die ≠ n / 16384 then (haltDesc h s d 0x42, hm.2)
    else
      let y : Ledger := { list := leAt b 0x18 8 / 64 % 2 ^ 50, pool := leAt b 0x14 1, active := true, cap := leAt b 0x20 4,
                          spare := leAt b 0x15 1, queue := x.queue }
      (endDesc (setLedger h n y) s { d with result := ledgerResult y 0 0 } 0 0, hm.2)
  else if x.poison ≠ 0 ∧ !(op = 0x74 ∧ flag0) then (endDesc h s { d with poison := true } 0x01 0, hm.2)
  else match op with
  | 0x71 => ledgerExtend hm s d n
  | 0x72 =>
    let l := if flag0 then x.t else x.l + leAt b 0x18 4
    if l > x.t then (haltDesc h s d 0x40, hm.2)
    else
      let y := { x with l := l, gen := if l = x.l then x.gen else x.gen + 1 }
      (endDesc (setLedger h n y) s { d with result := ledgerResult y 0 0 } 0 0, hm.2)
  | 0x73 =>
    let r := setLengths hm p n x.l x.l false d.seq.toNat
    endReturn r.1 s d n r.2 (fun _ => ledgerAt r.1.1 n)
  | _ =>
    if flag0 then
      if x.poison ≠ 0 then
        let r := if x.poison &&& 6 = 0 then setLengths hm p n 0 0 true d.seq.toNat else (hm, .ok 0)
        let y : Ledger := { gen := (ledgerAt r.1.1 n).gen, poison := x.poison, queue := x.queue }
        (endDesc (setLedger r.1.1 n y) s { d with poison := true } 0x01 0, r.1.2)
      else
        let r := setLengths hm p n 0 0 true d.seq.toNat
        endReturn r.1 s d n r.2 (fun _ => { gen := (ledgerAt r.1.1 n).gen, queue := x.queue })
    else if leAt b 0x18 4 > x.l then (haltDesc h s d 0x40, hm.2)
    else
      let r := setLengths hm p n (leAt b 0x18 4) (leAt b 0x18 4) false d.seq.toNat
      endReturn r.1 s d n r.2 (fun _ => ledgerAt r.1.1 n)

/-! ### Serving queues -/

/-- The first queued allocation of any pool that now fits at its queue's head (R498); one whose buffer is being walked again holds its
queue (R368). -/
def fitting (h : Hw) : Option (Nat × PoolWait) :=
  (h.sync.pools.find? (fun e => match e.2.queue with
    | w :: _ => decide (poolFreeCount e.2 ≥ w.count) && !e.2.poison &&
        (match findDesc (slipAt h w.slip) w.seq with
         | some d => decide (d.phase = Phase.waiting)
         | none => true)
    | [] => false)).bind (fun e => e.2.queue.head?.map (fun w => (e.1, w)))

/-- The first ledger operation that waits behind nothing (R515, R521). -/
def readyLedger (h : Hw) : Option (Nat × Nat × W32) :=
  (h.sync.ledgers.find? (fun e => !e.2.held && !e.2.queue.isEmpty)).bind (fun e => e.2.queue.head?.map (fun q => (e.1, q.1, q.2)))

/-- Serve queued allocations and queued ledger operations until none can go on (R498 step by step, R515). -/
def serveQueues : Nat → HM → HM
  | 0, hm => hm
  | fuel + 1, hm =>
    match fitting hm.1 with
    | some (key, w) =>
      let x := tabGet {} hm.1.sync.pools key
      let p := key / 64
      let id := key % 64
      let h1 := setPool hm.1 p id { x with queue := x.queue.drop 1 }
      match findDesc (slipAt h1 w.slip) w.seq with
      | none => serveQueues fuel (h1, hm.2)
      | some d =>
        let hm2 := match w.ledger with
          | none => serveAlloc (h1, hm.2) w.slip p id d w.count
          | some n =>
            let r := poolTake (h1, hm.2) p id w.count
            match r.2 with
            | .ok (false, vs) => finishExtend r.1 w.slip d n vs
            | .ok (true, _) => (endDesc (setLedger r.1.1 n { ledgerAt r.1.1 n with held := false }) w.slip { d with poison := true } 0x01 0, r.1.2)
            | .error b => (failAccess (setLedger r.1.1 n { ledgerAt r.1.1 n with held := false }) w.slip d b, r.1.2)
        serveQueues fuel hm2
    | none =>
      match readyLedger hm.1 with
      | some (n, s, seq) =>
        let x := ledgerAt hm.1 n
        let h1 := setLedger hm.1 n { x with queue := x.queue.drop 1 }
        match findDesc (slipAt h1 s) seq with
        | some d => serveQueues fuel (ledgerOp (h1, hm.2) s d)
        | none => serveQueues fuel (h1, hm.2)
      | none => hm

/-- Queue entries in all: a bound on the turns of serveQueues. -/
def queueLoad (h : Hw) : Nat :=
  h.sync.pools.foldl (fun n e => n + e.2.queue.length) 0 + h.sync.ledgers.foldl (fun n e => n + e.2.queue.length) 0

/-- Serve every queue after an operation. -/
def settle (hm : HM) : HM := serveQueues (2 * queueLoad hm.1 + 4) hm

/-- POOL_ALLOC (R497, R498); one that waits in the queue already was walked again (R368) and waits on. -/
def poolAlloc (hm : HM) (s : Nat) (d : Desc) : HM :=
  let h := hm.1
  let p := slipOwner h s
  let id := leAt d.bytes 0x10 1
  let c := leAt d.bytes 0x12 1
  let x := poolAt h p id
  if x.queue.any (fun w => decide (w.slip = s ∧ w.seq = d.seq)) then (putDesc h s { d with phase := .waiting }, hm.2)
  else if id > 63 ∨ !x.used ∨ (leAt d.bytes 0x18 8 = 0 ∧ c > 2) then (haltDesc h s d 0x44, hm.2)
  else if x.poison then (endDesc h s { d with poison := true } 0x01 0, hm.2)
  else if x.queue.isEmpty ∧ poolFreeCount x ≥ c then serveAlloc hm s p id d c
  else if leAt d.bytes 0x13 1 = 1 then (endDesc h s d 0x03 0, hm.2)
  else
    let h1 := putDesc h s { d with phase := .waiting, since := h.tb.now, begun := true }
    (setPool h1 p id { x with queue := x.queue ++ [{ slip := s, seq := d.seq, count := c }] }, hm.2)

/-- The indices a POOL_FREE returns: inline, or read from buffer 0 (R499, R736). -/
def freeIndices (hm : HM) (s : Nat) (d : Desc) (c : Nat) : HM × Except Bad (Bool × List Nat) :=
  if leAt d.bytes 0x18 8 = 0 then (hm, .ok (false, (List.range c).map (fun i => leAt d.bytes (0x20 + 4 * i) 4)))
  else
    (List.range c).foldl (fun (acc : HM × Except Bad (Bool × List Nat)) i =>
      match acc.2 with
      | .error e => (acc.1, .error e)
      | .ok r =>
        let one := (List.range 4).foldl (fun (a : HM × Except Bad (Bool × List Byte)) k =>
          match a.2, extAddr d.extents 0 (4 * i + k) with
          | .ok q, some (ca, _) =>
            let g := engineRead a.1 (slipDie s) (slipOwner hm.1 s) true ca 1
            (match g.2.v with
             | .refused x => (g.1, .error (.refused x))
             | .absent => (g.1, .error .absent)
             | .off => (g.1, .error .gated)
             | _ => (g.1, .ok (q.1 || g.2.poison, q.2 ++ g.2.bytes)))
          | x, _ => (a.1, x)) (acc.1, .ok (false, []))
        match one.2 with
        | .error e => (one.1, .error e)
        | .ok q => (one.1, .ok (r.1 || q.1, r.2 ++ [leNat q.2])))
      (hm, .ok (false, []))

/-- POOL_FREE (R499). -/
def poolFree (hm : HM) (s : Nat) (d : Desc) : HM :=
  let h := hm.1
  let p := slipOwner h s
  let id := leAt d.bytes 0x10 1
  let c := leAt d.bytes 0x12 1
  let x := poolAt h p id
  if id > 63 ∨ !x.used ∨ (leAt d.bytes 0x18 8 = 0 ∧ c > 8) then (haltDesc h s d 0x44, hm.2)
  else if x.poison then (endDesc h s { d with poison := true } 0x01 0, hm.2)
  else
    let r := freeIndices hm s d c
    match r.2 with
    | .error b => (failAccess r.1.1 s d b, r.1.2)
    | .ok (true, _) => (endDesc r.1.1 s { d with poison := true } 0x01 0, r.1.2)
    | .ok (false, vs) =>
      if poolFreeCount x + c > x.entries then (haltDesc r.1.1 s d 0x45, r.1.2)
      else
        let ix := poolIndices r.1 x vs
        let w := poolPut ix.1 p id ix.2 d.seq.toNat
        match w.2 with
        | .refused a => (haltRefused w.1.1 s d a, w.1.2)
        | .absent => (endDesc w.1.1 s d (goneStatus w.1.1) 0, w.1.2)
        | v => settle (endDesc w.1.1 s { d with result := leBytes 16 (poolAt w.1.1 p id).tail.toNat } (if v = Verdict.off then 0x06 else 0) 0,
            w.1.2)

/-- A queued allocation's timeout passes (R498, R521): it leaves the queue and stops its slip. -/
def poolTimeout (hm : HM) (s : Nat) (seq : W32) (op off : Nat) : HM :=
  match findDesc (slipAt hm.1 s) seq with
  | some d =>
    let us := leAt d.bytes off 4
    let queued := hm.1.sync.pools.any (fun e => e.2.queue.any (fun w => decide (w.slip = s ∧ w.seq = seq)))
    if opcode d = op ∧ us ≠ 0 ∧ queued then
      settle (endDesc (withdrawWaits (advanceTo hm.1 (d.since + 1000 * us)) s (fun q => decide (q = seq))) s d 0x03 0, hm.2)
    else hm
  | none => hm

/-- A ledger descriptor reaches its unit: it waits behind an extend that holds the ledger (R521), or is performed. -/
def ledgerDesc (hm : HM) (s : Nat) (d : Desc) : HM :=
  let n := leAt d.bytes 0x10 2
  let x := ledgerAt hm.1 n
  if ledgerOwner hm.1 n = slipOwner hm.1 s && (x.held || !x.queue.isEmpty) then
    let h1 := putDesc hm.1 s { d with phase := .waiting, since := hm.1.tb.now }
    (setLedger h1 n { x with queue := x.queue ++ [(s, d.seq)] }, hm.2)
  else settle (ledgerOp hm s d)

/-- POOL_DESTROY halts every queued allocation (R501): a POOL_ALLOC with POOL_BAD, an extend with LEDGER_POOL. -/
def destroyPool (hm : HM) (p id : Nat) : HM :=
  let x := poolAt hm.1 p id
  let h1 := x.queue.foldl (fun h w =>
    let h0 := match w.ledger with
      | some n => setLedger h n { ledgerAt h n with held := false }
      | none => h
    match findDesc (slipAt h0 w.slip) w.seq with
    | some d => haltDesc h0 w.slip d (if w.ledger.isSome then 0x42 else 0x44)
    | none => h0) (setPool hm.1 p id { x with queue := [] })
  settle (setPool h1 p id {}, hm.2)

end Sys2Proof.Machine
end

