-- ==== Sys2Proof/Machine/Power.lean ====
section
/-! DEFINITION. Power, current caps and balance (chapter 18): rails, droop, thermal sensors, budgets, bounds, frequencies and
the state of the power pool. -/
namespace Sys2Proof.Machine

/-! ### Islands and their clocks (Tables 2.1, 2.2) -/

/-- Clock range of an island kind in kHz (Table 2.1). -/
def kindKhz : IslandKind → Nat × Nat
  | .cluster => (400000, 3400000)
  | .cFabric => (1000000, 2000000)
  | .farGroup => (1067000, 1067000)
  | .rootPort => (1000000, 1000000)
  | .baseIdurrum => (1750000, 1750000)
  | .cFerry => (800000, 1800000)
  | .cralu => (800000, 800000)
  | .causeway => (312500, 312500)
  | .quad => (500000, 2000000)
  | .shelf => (1000000, 2000000)
  | .ferryGroup => (800000, 1800000)
  | .aFabric => (1000000, 2400000)
  | .sync => (1000000, 2000000)
  | .stackCtl => (1200000, 1200000)
  | .stackPhy => (1200000, 1200000)
  | .ldieLink => (1750000, 1750000)
  | .ldiePort => (1750000, 1750000)

/-- The same in whole MHz, the unit of floors and ceilings (Table 24.9). -/
def kindRange (k : IslandKind) : Nat × Nat := ((kindKhz k).1 / 1000, (kindKhz k).2 / 1000)

/-- Whether an island kind's clock is adjustable. -/
def adjustable (k : IslandKind) : Bool := decide ((kindRange k).1 < (kindRange k).2)

/-- Every kind with an adjustable clock. -/
def adjustableKinds : List IslandKind := [.cluster, .cFabric, .cFerry, .quad, .shelf, .ferryGroup, .aFabric, .sync]

/-- The kind of a row of Table 2.1. -/
def kindOf (row : Nat) : Option IslandKind :=
  [IslandKind.cluster, .cFabric, .farGroup, .rootPort, .baseIdurrum, .cFerry, .cralu, .causeway, .quad, .shelf, .ferryGroup,
   .aFabric, .sync, .stackCtl, .stackPhy, .ldieLink, .ldiePort][row]?

/-- The die of an island: C0 and C1 are 0 and 1, A0 to A3 are 2 to 5 (the numbering of Table 20.8). A flex site belongs to its A-die
(R38); the far-tier groups, root-port complexes and base ports of a kind divide evenly between the C-dies. -/
def islandDie (h : Hw) (i : Island) : Nat :=
  match i.kind with
  | .cluster => i.idx / 8
  | .cFabric => i.idx
  | .cFerry => i.idx
  | .quad => 2 + i.idx / 32
  | .shelf => 2 + i.idx / 8
  | .ferryGroup => 2 + i.idx / 8
  | .aFabric => 2 + i.idx
  | .sync => 2 + i.idx
  | .farGroup | .rootPort => i.idx / 4
  | .baseIdurrum => i.idx
  | .stackCtl | .stackPhy => 2 + siteOf h.ident.sites .stack i.idx / 3
  | .ldieLink => 2 + siteOf h.ident.sites .ldie i.idx / 3
  | .ldiePort => 2 + portSite h.ident.sites (2 + i.idx) / 3
  | .cralu | .causeway => 0

/-- The bounds of an island. -/
def boundsAt (h : Hw) (i : Island) : Bounds := tabGet {} h.power.bounds (islandKey i)

/-- The Steward's floor of an island. -/
def floorOf (h : Hw) (i : Island) : Nat := (boundsAt h i).floor.getD (kindRange i.kind).1

/-- The Steward's ceiling of an island. -/
def stewardCeil (h : Hw) (i : Island) : Nat := (boundsAt h i).ceiling.getD (kindRange i.kind).2

/-- The ceiling software has set: the lower of the Steward's and the tenant's (R556). -/
def ceilOf (h : Hw) (i : Island) : Nat := min (stewardCeil h i) ((boundsAt h i).tenant.getD (stewardCeil h i))

/-- The quads that share an island's clock: its lock group's, for a quad (R66). -/
def clockGroup (h : Hw) (i : Island) : List Island :=
  if i.kind = IslandKind.quad then (lockQuads h i.idx).map (fun q => { kind := .quad, idx := q }) else [i]

/-- Group ceiling: the lowest member ceiling (R557). -/
def groupCeil (h : Hw) (i : Island) : Nat := ((clockGroup h i).map (ceilOf h)).foldl min (ceilOf h i)

/-- Group floor: the higher of the member floors, or the group ceiling if that is lower (R557). -/
def groupFloor (h : Hw) (i : Island) : Nat := min (groupCeil h i) (((clockGroup h i).map (floorOf h)).foldl max 0)

/-- Whether a die is held at the bottom of its ranges: PROCHOT, internal or external (R549, R550). -/
def dieHot (h : Hw) (die : Nat) : Bool := h.power.extHot || bitOf h.power.prochot die

/-- A rail. -/
def railAt (h : Hw) (r : Nat) : Rail := tabGet {} h.power.rails r

/-- Replace a rail. -/
def setRail (h : Hw) (r : Nat) (x : Rail) : Hw := { h with power := { h.power with rails := tabPut {} h.power.rails r x } }

/-- The rail that supplies an adjustable island (Table 18.2, R717). -/
def railOf (i : Island) : Nat :=
  match i.kind with
  | .quad => i.idx / 32
  | .shelf => 4 + i.idx / 8
  | .ferryGroup => 4 + i.idx / 8
  | .aFabric => 4 + i.idx
  | .sync => 4 + i.idx
  | .cluster => 8 + i.idx / 8
  | .cFabric => 10 + i.idx
  | .cFerry => 10 + i.idx
  | _ => 30

/-- Whether a rank-1 action holds an island at the bottom of its range (R549, R550, Table 18.6). -/
def heldLow (h : Hw) (i : Island) : Bool := dieHot h (islandDie h i) || (railAt h (railOf i)).dead

/-- The loops' choice for an island: the top of its range less what the budget and thermal loops have taken off it, clamped to
floor and ceiling (R535, R557). -/
def loopChoice (h : Hw) (i : Island) : Nat :=
  let want := min ((kindRange i.kind).2 - tabGet 0 h.power.kindCeil i.kind.code) ((kindRange i.kind).2 - tabGet 0 h.power.dieCeil (islandDie h i))
  max (groupFloor h i) (min want (groupCeil h i))

/-- Frequency of an island in MHz (R557): the loops' choice, the lowest ceiling, and what rank 1 requires; in Idle and Drowse clocks run at
their floors (Table 5.7). -/
def islandMhz (h : Hw) (i : Island) : Nat :=
  if !adjustable i.kind then (kindRange i.kind).1
  else if (clockGroup h i).any (heldLow h) then (kindRange i.kind).1
  else if h.start.st = PowerSt.idle ∨ h.start.st = PowerSt.drowse then groupFloor h i
  else min (loopChoice h i) (groupCeil h i)

/-- Frequency of an island in kHz: a fixed island's own (R54), else as R557 sets it. -/
def islandKhz (h : Hw) (i : Island) : Nat := if adjustable i.kind then 1000 * islandMhz h i else (kindKhz i.kind).1

/-- ns that `n` cycles of a quad's clock take, rounded up (R439); cycle-skipping and droop stretch only lengthen them. -/
def quadNs (h : Hw) (quad n : Nat) : Nat := ceilDiv (n * 1000) (max 1 (islandMhz h { kind := .quad, idx := quad }))

/-! ### Rails (R539 to R543) -/

/-- Fused hard cap of a rail in mA (Table 18.2, R717). -/
def railFuse (h : Hw) (r : Nat) : Nat :=
  let nst := stackCount h.ident.sites / 4
  if r < 4 then 700000
  else if r < 8 then 160000
  else if r < 10 then 450000
  else if r < 12 then 140000
  else if r < 16 then 16000 * nst
  else if r < 20 then 12000 * nst
  else if r < 24 then 2000 * nst
  else if r < 26 then 60000
  else if r < 28 then 90000
  else if r = 28 then 60000 * ldieCount h.ident.sites
  else 50

/-- Hard cap in force. -/
def railHard (h : Hw) (r : Nat) : Nat := (railAt h r).hard.getD (railFuse h r)

/-- Soft cap in force. -/
def railSoft (h : Hw) (r : Nat) : Nat := (railAt h r).soft.getD (railHard h r)

/-- Whether a rail has a protective response (Table 18.2). -/
def railResponds (r : Nat) : Bool := decide (r < 26)

/-! ### Budgets and the pool (R553, R554, R558 to R563) -/

/-- Sum of leases. -/
def leaseSum (ls : List Lease) : Nat := ls.foldl (fun n l => n + l.watts) 0

/-- Effective budget (R554). -/
def effective (h : Hw) : Nat := min h.power.poolMax (h.power.static - leaseSum h.power.outs + leaseSum h.power.ins)

/-- Drop every incoming lease: what a package does when it stops taking part (R563). -/
def dropIns (h : Hw) : Hw := { h with power := { h.power with ins := [] } }

/-- Entry into a low-power state: the loops' integrators return to their defaults and every incoming lease drops (R563, Table 5.8). -/
def loopDefaults (h : Hw) : Hw :=
  { h with power := { h.power with kindCeil := [], dieCeil := [], ins := [], rails := tabMap {} h.power.rails (fun _ r => { r with softOn := false }) } }

/-- Whether every tenant partition of the package is bound to one partition set, that of an identifier (R109). -/
def oneSet (h : Hw) (set : Nat) : Bool :=
  (((List.range 16).map (· + 1)).filter (partExists h)).all (fun p =>
    h.arch.sets.any (fun e => e.2.used && decide (e.2.part = p) && decide (e.2.set = set)))

/-- Looms owned on the package by partitions of a set (R559). -/
def setLooms (h : Hw) (set : Nat) : Nat :=
  4 * (h.sel.units.filter (fun e => decide (e.1 / 2 ^ 32 = 3) && decide (e.2.owner < 17) &&
    h.arch.sets.any (fun b => b.2.used && decide (b.2.part = e.2.owner) && decide (b.2.set = set)))).length

/-! ### Yields and records -/

/-- A floor yields to a rank-1 action on the islands a test accepts (R536): counted per kind, reported at most once a second. -/
def yieldFloors (h : Hw) (p : Island → Bool) : Hw :=
  adjustableKinds.foldl (fun h k =>
    let hit := (List.range (kindCount h k)).any (fun n =>
      let i : Island := { kind := k, idx := n }
      p i && decide ((kindRange k).1 < floorOf h i))
    if hit then
      recordLimited { h with power := { h.power with yields := tabMod 0 h.power.yields k.code (· + 1) } }
        { type := 0x0701, part := 0xFF, arg0 := k.code, unit := k.code }
    else h) h

/-- Whether any rank-1 action or loop slows a unit of a partition (Table 3.9): the units it owns on the islands concerned. -/
def throttled (h : Hw) (p : Nat) : Bool :=
  h.sel.units.any (fun e => decide (e.2.owner = p) &&
    (let idx := e.1 % 2 ^ 32
     let isl : Option Island := match e.1 / 2 ^ 32 with
       | 2 => some { kind := .cluster, idx := idx }
       | 3 => some { kind := .quad, idx := idx }
       | 4 => some (if idx < 32 then { kind := .ferryGroup, idx := idx } else { kind := .cFerry, idx := idx - 32 })
       | _ => none
     match isl with
     | some i => heldLow h i || (railAt h (railOf i)).engaged.isSome || (railAt h (railOf i)).softOn || decide (loopChoice h i < groupCeil h i)
     | none => false))

/-- The partitions that are throttled now are noted for the 1 ms interval in course (R108, Table 3.9): what may end a throttle notes them
first. -/
def noteThrottle (h : Hw) : Hw :=
  (List.range 17).foldl (fun h p => if throttled h p && !(partAt h p).slowed then setPart h p { partAt h p with slowed := true } else h) h

end Sys2Proof.Machine
end

