-- ==== Sys2Proof/Machine/Arb.lean ====
section
/-! DEFINITION. Arbitration of looms and finishers at their boundaries (R440, R476, R504 to R508): candidates, ranks,
reservation and relief. -/
namespace Sys2Proof.Machine

/-- Key of a loom in the table of looms is its package number; finisher units are 512 + quad. -/
def finUnit (quad : Nat) : Nat := 512 + quad

/-- The run of a descriptor. -/
def runAt (h : Hw) (s : Nat) (seq : W32) : Option Run := h.weaves.runs.find? (fun r => decide (r.slip = s ∧ r.seq = seq))

/-- Replace the run of a descriptor. -/
def putRun (h : Hw) (r : Run) : Hw :=
  { h with weaves := { h.weaves with runs := h.weaves.runs.map (fun x => if x.slip = r.slip ∧ x.seq = r.seq then r else x) } }

/-- Remove the run of a descriptor. -/
def dropRun (h : Hw) (s : Nat) (seq : W32) : Hw :=
  { h with weaves := { h.weaves with runs := h.weaves.runs.filter (fun r => !decide (r.slip = s ∧ r.seq = seq)) } }

/-- A new run begins waiting: it takes the next stamp. -/
def addRunFor (h : Hw) (r : Run) : Hw :=
  { h with weaves := { h.weaves with runs := h.weaves.runs ++ [{ r with stamp := h.weaves.stamp }], stamp := h.weaves.stamp + 1 } }

/-- Tier of a slip class (R505): CONTROL and PROMPT, GENERATION, BULK. -/
def tierOf (cls : Nat) : Nat := if cls ≤ 1 then 1 else cls

/-- Passed over for 2 ms of time base (R507). -/
def relieved (h : Hw) (r : Run) : Bool :=
  match r.passed with
  | some t => decide (t + 2000000 ≤ h.tb.now)
  | none => false

/-- Whether a candidate ranks before another (R505, R507). -/
def ranksBefore (h : Hw) (a b : Run) : Bool :=
  if relieved h a && relieved h b then decide (a.passed.getD 0 < b.passed.getD 0 ∨
    (a.passed.getD 0 = b.passed.getD 0 ∧ a.stamp < b.stamp))
  else if relieved h a then true
  else if relieved h b then false
  else if tierOf a.cls ≠ tierOf b.cls then decide (tierOf a.cls < tierOf b.cls)
  else decide (a.stamp < b.stamp)

/-- Whether two runs need a common unit. -/
def sharesUnit (a b : Run) : Bool := a.units.any (fun u => b.units.any (· == u))

/-- Whether a run belongs to a descriptor. -/
def sameRun (a b : Run) : Bool := decide (a.slip = b.slip ∧ a.seq = b.seq)

/-- Whether a run is free of what holds it back: it has a pass or row left, and its operand bolts are in place (R437). -/
def runReady (h : Hw) (r : Run) : Bool :=
  !r.running && decide (r.next < r.total) && !missing h r.slip r.seq

/-- Whether a waiting run is granted its units (R505, R506): no unit of it is in use, and no candidate that ranks before it
waits for one of them. -/
def grantedRun (h : Hw) (r : Run) : Bool :=
  runReady h r &&
  !(h.weaves.runs.any (fun x => !sameRun x r && sharesUnit x r &&
    (x.running || (runReady h x && ranksBefore h x r))))

/-- The candidates passed over when a run is granted (R507). -/
def passOver (h : Hw) (r : Run) : Hw :=
  { h with weaves := { h.weaves with runs := h.weaves.runs.map (fun x =>
      if sameRun x r then { x with passed := none }
      else if sharesUnit x r && runReady h x && x.passed.isNone then { x with passed := some h.tb.now } else x) } }

/-- At a boundary the running descriptor is placed after every candidate already waiting (R505). -/
def restamp (h : Hw) (r : Run) : Hw × Run :=
  ({ h with weaves := { h.weaves with stamp := h.weaves.stamp + 1 } }, { r with stamp := h.weaves.stamp })

/-! ### Bobbin reads and tile writes shared by looms and finishers -/

/-- The `w`-bit element at index i of a row at a bobbin offset (R276). -/
def bobElem (h : Hw) (loom off w i : Nat) : Nat :=
  let lo := off * 8 + i * w
  field (leNat (bobRead h loom (lo / 8) ((lo % 8 + w + 7) / 8))) (lo % 8 + w - 1) (lo % 8)

/-- Bytes of `n` elements of `w` bits. -/
def rowBytes (w n : Nat) : Nat := (w * n + 7) / 8

/-- A piece of a tile to write: loom, offset, bytes, poisoned. -/
structure Piece where
  loom   : Nat
  off    : Nat
  bytes  : List Byte
  poison : Bool

/-- How far from `lo` the sound pieces of a loom reach without a gap, taking them in order. -/
def reach (ps : List Piece) (loom lo : Nat) : Nat :=
  ps.foldl (fun r p => if p.loom = loom ∧ !p.poison ∧ p.off ≤ r then max r (p.off + p.bytes.length) else r) lo

/-- Write pieces of one operation's output (R295, R341): tags of the slots touched go invalid; a granule is marked where a
poisoned piece touches it, and cleared where the sound pieces cover it whole. -/
def writeTile (h : Hw) (ps : List Piece) : Hw :=
  let h1 := ps.foldl (fun h p => bobWrite h p.loom p.off p.bytes p.poison) h
  let touched := ps.flatMap (fun p => (granulesOf p.off p.bytes.length).map (fun g => (p.loom, g)))
  touched.eraseDups.foldl (fun h (lg : Nat × Nat) =>
    if ps.any (fun p => p.poison && decide (p.loom = lg.1) && decide (lg.2 ∈ granulesOf p.off p.bytes.length)) then
      bobMark h lg.1 lg.2 true
    else if reach ps lg.1 (lg.2 * 4096) ≥ lg.2 * 4096 + 4096 then bobMark h lg.1 lg.2 false else h) h1

/-- A range of a bobbin: loom, first byte, length. -/
abbrev Range := Nat × Nat × Nat

/-- Whether two ranges share a byte. -/
def rangesMeet (a b : Range) : Bool := decide (a.1 = b.1 ∧ a.2.1 < b.2.1 + b.2.2 ∧ b.2.1 < a.2.1 + a.2.2)

end Sys2Proof.Machine
end

