-- ==== Sys2Proof/Machine/Looms.lean ====
section
/-! DEFINITION. Looms and broadlooms (chapter 14): the weave descriptor, its checks, passes, bank swaps, drains and cuts, the
eight semirings and the numeric rules of every format. -/
namespace Sys2Proof.Machine

/-! ### Fields of a weave (Table 14.7) -/

/-- Package number of member 0. -/
def wGang (d : Desc) : Nat := leAt d.bytes 0x10 2 % 512
/-- SHAPE. -/
def wShape (d : Desc) : Nat := leAt d.bytes 0x12 1
/-- SEMIRING. -/
def wSem (d : Desc) : Nat := leAt d.bytes 0x13 1
/-- WEFT_FMT. -/
def wWeft (d : Desc) : Nat := leAt d.bytes 0x14 1
/-- WARP_FMT. -/
def wWarp (d : Desc) : Nat := leAt d.bytes 0x15 1
/-- OUT_FMT. -/
def wOut (d : Desc) : Nat := leAt d.bytes 0x16 1
/-- K. -/
def wK (d : Desc) : Nat := leAt d.bytes 0x18 4
/-- PASSES. -/
def wPasses (d : Desc) : Nat := leAt d.bytes 0x1C 2
/-- INIT is LOAD. -/
def wLoad (d : Desc) : Bool := decide (leAt d.bytes 0x21 1 = 1)
/-- Elements of K per block: KBLK, or one block of K. -/
def wBlk (d : Desc) : Nat := if leAt d.bytes 0x22 2 = 0 then wK d else leAt d.bytes 0x22 2
/-- Blocks of K. -/
def wBlocks (d : Desc) : Nat := ceilDiv (wK d) (wBlk d)
/-- Looms of the gang, by member. -/
def wMembers (d : Desc) : List Nat := (List.range (gangSize (wShape d))).map (wGang d + ·)

/-- Rows M and columns N of the gang's array (Table 14.6). -/
def shapeDims (shape : Nat) : Nat × Nat :=
  match shape with
  | 0 => (64, 64) | 1 => (64, 128) | 2 => (128, 128) | 3 => (128, 256) | _ => (256, 256)

/-- Loom-row and loom-column of a member (Table 14.6). -/
def memberPos (shape m : Nat) : Nat × Nat :=
  let i := m / 4
  let j := m % 4
  match shape with
  | 0 => (0, 0)
  | 1 => (0, m)
  | 2 => (j / 2, j % 2)
  | 3 => (j / 2, 2 * i + j % 2)
  | _ => (2 * (i / 2) + j / 2, 2 * (i % 2) + j % 2)

/-- Format group of an operand format (Table 14.2): F8 1, MX 2, BF16 3, FP16 4, I 5, B 6; none otherwise. -/
def fmtGroup (f : Nat) : Option Nat :=
  match f with
  | 0x01 | 0x02 => some 1
  | 0x03 | 0x04 | 0x05 | 0x06 | 0x07 => some 2
  | 0x08 => some 3
  | 0x09 => some 4
  | 0x0A | 0x0B => some 5
  | 0x0C => some 6
  | _ => none

/-- Whether a semiring allows a format group (Tables 14.1, 14.2). -/
def semAllows (sem grp : Nat) : Bool :=
  match grp with
  | 2 => decide (sem = 0)
  | 6 => decide (sem = 5)
  | _ => decide (sem ≠ 5)

/-- Whether the accumulators of a pass are INT32 (R426, R427). -/
def accInt (sem grp : Nat) : Bool := decide (grp = 5 ∨ grp = 6 ∨ sem = 6)

/-- The format check of R448. -/
def fmtPair (d : Desc) : Bool :=
  match fmtGroup (wWeft d), fmtGroup (wWarp d) with
  | some a, some b => decide (a = b) && semAllows (wSem d) a &&
      (if accInt (wSem d) a then decide (wOut d ∈ [0x0E, 0x0D, 0x08, 0x09]) else decide (wOut d ∈ [0x0D, 0x08, 0x09]))
  | _, _ => false

/-- Whether a weave is of an MX group. -/
def wMx (d : Desc) : Bool := isMx (wWeft d)

/-- One operand of a weave. -/
structure Opd where
  loom   : Nat
  fmt    : Nat
  rows   : Nat
  off    : Nat
  pitch  : Nat
  kstr   : Nat
  soff   : Nat
  spitch : Nat
  step   : Nat

/-- The weft. -/
def wWeftOpd (d : Desc) : Opd :=
  let b := d.bytes
  { loom := wGang d + leAt b 0x20 1 % 16, fmt := wWeft d, rows := (shapeDims (wShape d)).1, off := leAt b 0x24 4,
    pitch := leAt b 0x28 4, kstr := leAt b 0x2C 4, soff := leAt b 0x3C 4, spitch := leAt b 0x44 2, step := leAt b 0x58 4 }

/-- The warp. -/
def wWarpOpd (d : Desc) : Opd :=
  let b := d.bytes
  { loom := wGang d + leAt b 0x20 1 / 16, fmt := wWarp d, rows := (shapeDims (wShape d)).2, off := leAt b 0x30 4,
    pitch := leAt b 0x34 4, kstr := leAt b 0x38 4, soff := leAt b 0x40 4, spitch := leAt b 0x46 2, step := leAt b 0x5C 4 }

/-- Elements of K in block b. -/
def blkLen (d : Desc) (b : Nat) : Nat := min (wBlk d) (wK d - b * wBlk d)

/-- Bobbin ranges of row i of an operand in pass p, its scales with it (R446). -/
def opdRow (d : Desc) (o : Opd) (p i : Nat) : List Range :=
  (List.range (wBlocks d)).flatMap (fun b =>
    let base := p * o.step + b * o.kstr
    [(o.loom, o.off + base + i * o.pitch, rowBytes (fmtBits o.fmt) (blkLen d b))] ++
    (if isMx o.fmt then [(o.loom, o.soff + base + i * o.spitch, blkLen d b / 32)] else []))

/-- Every range of an operand in pass p. -/
def opdRanges (d : Desc) (o : Opd) (p : Nat) : List Range := (List.range o.rows).flatMap (opdRow d o p)

/-- Bytes of an output element. -/
def outSize (f : Nat) : Nat := fmtBits f / 8

/-- Output ranges of a member in pass p. -/
def outRanges (d : Desc) (loom p : Nat) : List Range :=
  (List.range 64).map (fun i => (loom, leAt d.bytes 0x48 4 + p * leAt d.bytes 0x60 4 + i * leAt d.bytes 0x4C 4, 64 * outSize (wOut d)))

/-- INIT ranges of a member in pass p; none without LOAD. -/
def initRanges (d : Desc) (loom p : Nat) : List Range :=
  if wLoad d then (List.range 64).map (fun i =>
    (loom, leAt d.bytes 0x50 4 + p * leAt d.bytes 0x64 4 + i * leAt d.bytes 0x54 4, 256))
  else []

/-- Whether every range lies within a bobbin. -/
def rangesFit (rs : List Range) : Bool := rs.all (fun r => decide (r.2.1 + r.2.2 ≤ 2 ^ 20))

/-- Whether every byte of every pass lies within the bobbin (R448): offsets only grow with the pass. -/
def weaveFits (d : Desc) : Bool :=
  let p := wPasses d - 1
  let last (o : Opd) : List Range := opdRow d o p (o.rows - 1)
  rangesFit (last (wWeftOpd d)) && rangesFit (last (wWarpOpd d)) && rangesFit (outRanges d 0 p) && rangesFit (initRanges d 0 p)

/-- Whether the output may coincide with INIT exactly (R449). -/
def inPlace (d : Desc) (p : Nat) : Bool :=
  let b := d.bytes
  decide (leAt b 0x48 4 + p * leAt b 0x60 4 = leAt b 0x50 4 + p * leAt b 0x64 4 ∧ leAt b 0x4C 4 = leAt b 0x54 4) &&
  decide (wOut d = (if accInt (wSem d) ((fmtGroup (wWeft d)).getD 0) then 0x0E else 0x0D))

/-- Whether the output of pass p overlaps an operand, scale or INIT tile of the same or a later pass in a way R449 does not
define: its result is unpredictable. -/
def weaveOverlap (d : Desc) (p : Nat) : Bool :=
  (wMembers d).any (fun loom => (outRanges d loom p).any (fun w =>
    (List.range (wPasses d - p)).any (fun i =>
      let q := p + i
      (opdRanges d (wWeftOpd d) q).any (rangesMeet w) || (opdRanges d (wWarpOpd d) q).any (rangesMeet w) ||
      (!(decide (q = p) && inPlace d p) && (initRanges d loom q).any (rangesMeet w)))))

/-! ### Checks of R448 -/

/-- The lock group the gang needs is missing (R442). -/
def gangUnlocked (h : Hw) (d : Desc) : Bool :=
  let quads := (wMembers d).map (· / 4)
  match lockOf h (wGang d / 4) with
  | some g =>
    match wShape d with
    | 3 => !(quads.all (fun q => decide (lockOf h q = some g)))
    | 4 => !(decide (g.size = 4) && quads.all (fun q => decide (lockOf h q = some g)))
    | _ => false
  | none => decide (wShape d ≥ 3)

/-- The reason a weave halts with at dispatch (R448); zero when every check passes. -/
def weaveCheck (h : Hw) (s : Nat) (d : Desc) : Nat :=
  let n := gangSize (wShape d)
  let refs := [leAt d.bytes 0x68 8, leAt d.bytes 0x70 8].filter (fun r => bitOf r 0)
  let inGang (loom : Nat) : Bool := decide (wGang d ≤ loom ∧ loom < wGang d + n)
  if wGang d % n ≠ 0 ∨ leAt d.bytes 0x20 1 % 16 ≥ n ∨ leAt d.bytes 0x20 1 / 16 ≥ n ∨ !(refs.all (fun r => inGang (field r 23 15))) then 0x40
  else if quadDie (wGang d / 4) ≠ slipDie s then 0x40
  else if (wMembers d).any (fun m => decide (unitHolder h 3 (m / 4) ≠ slipOwner h s)) then 0x20
  else if gangUnlocked h d then 0x41
  else if !fmtPair d then 0x42
  else if wK d = 0 ∨ wK d > 1048576 ∨ wPasses d = 0 ∨ wPasses d > 256 ∨ leAt d.bytes 0x22 2 % 32 ≠ 0
      ∨ ((wMx d ∨ wWeft d = 0x0C) ∧ wK d % 32 ≠ 0) then 0x43
  else if !weaveFits d then 0x25
  else 0

/-! ### Timing (R427, R428, R436 to R438) -/

/-- Step cycles of a pass (R427, R428). -/
def stepCycles (d : Desc) : Nat :=
  let grp := (fmtGroup (wWeft d)).getD 0
  let (m, n) := shapeDims (wShape d)
  let bits (f : Nat) : Nat := if f = 0x0C then 32 else fmtBits f
  let steps := if grp = 6 then wK d / 32 else wK d
  let rn := if (wWeft d = 0x07 ∧ wWarp d = 0x07) ∨ (wWeft d = 0x0B ∧ wWarp d = 0x0B ∧ wSem d = 0) then 2 else 1
  let rd := if grp = 3 ∨ grp = 4 then 2 else 1
  let a := m * bits (wWeft d)
  let b := n * bits (wWarp d)
  let busiest := if (wWeftOpd d).loom = (wWarpOpd d).loom then a + b else max a b
  if busiest * rn > 4096 * rd then ceilDiv (steps * busiest) 4096 else ceilDiv (steps * rd) rn

/-- Broadcast latency of a gang (Table 14.5). -/
def bcastCycles (shape : Nat) : Nat := 4 + 2 * shape

/-! ### Cells (R425, R426, R429 to R433) -/

/-- Scale a value by 2^(S - 127); S of 0xFF is NaN (R432). -/
def scaleBy (sc : Nat) : FV → FV
  | .fin n m e => if sc = 255 then .nan else .fin n m (e + (sc : Int) - 127)
  | x => if sc = 255 then .nan else x

/-- Elements of row i of an operand in pass p as values (MX scales included). -/
def floatRow (h : Hw) (d : Desc) (o : Opd) (p i : Nat) : List FV :=
  (List.range (wK d)).map (fun k =>
    let blk := k / wBlk d
    let base := p * o.step + blk * o.kstr
    let raw := bobElem h o.loom (o.off + base + i * o.pitch) (fmtBits o.fmt) (k % wBlk d)
    let v := match fmtOf o.fmt with | some f => decF f raw | none => .nan
    if isMx o.fmt then scaleBy (bobElem h o.loom (o.soff + base + i * o.spitch) 8 (k % wBlk d / 32)) v else v)

/-- Elements of row i of an integer operand; of BIN1, its 32-bit words. -/
def intRow (h : Hw) (d : Desc) (o : Opd) (p i : Nat) : List Int :=
  let w := if o.fmt = 0x0C then 32 else fmtBits o.fmt
  let per := if o.fmt = 0x0C then 32 else 1
  (List.range (wK d / per)).map (fun n =>
    let k := n * per
    let raw := bobElem h o.loom (o.off + p * o.step + k / wBlk d * o.kstr + i * o.pitch) w (k % wBlk d / per)
    if o.fmt = 0x0C then (raw : Int) else signed w raw)

/-- t = a ⊗ b of a floating semiring, exact. -/
def floatTerm (sem : Nat) (a b : FV) : FV :=
  match sem with
  | 1 | 2 => fadd a b
  | 3 => fabs (fadd a (fneg b))
  | 4 => let x := fadd a (fneg b); fmul x x
  | _ => fmul a b

/-- acc ⊕ t of a floating semiring (R429); the selecting ones keep the accumulator unless t compares beyond it, and a NaN
stays (R431). -/
def floatAcc (sem : Nat) (acc t : FV) : FV :=
  if acc = FV.nan ∨ t = FV.nan then .nan
  else match sem with
    | 1 => let t' := rne32 t; if flt t' acc then t' else acc
    | 2 | 7 => let t' := rne32 t; if flt acc t' then t' else acc
    | _ => rne32 (fadd acc t)

/-- Set bits of a 32-bit word. -/
def popcount32 (x : Nat) : Nat := (List.range 32).foldl (fun n i => if x.testBit i then n + 1 else n) 0

/-- t = a ⊗ b of an integer semiring, exact (R433). -/
def intTerm (sem : Nat) (ge : Bool) (a b : Int) : Int :=
  match sem with
  | 1 | 2 => a + b
  | 3 => if a ≥ b then a - b else b - a
  | 4 => (a - b) * (a - b)
  | 5 => popcount32 (a.toNat ^^^ b.toNat)
  | 6 => if b < a ∨ (ge ∧ a = b) then 1 else 0
  | _ => a * b

/-- acc ⊕ t of an INT32 accumulator (R433): the sum, and whether it saturated. -/
def intAcc (sem : Nat) (wrap : Bool) (acc t : Int) : Int × Bool :=
  match sem with
  | 1 => (min acc t, false)
  | 2 | 7 => (max acc t, false)
  | _ =>
    let v := acc + t
    if wrap then (signed 32 (unsigned 32 v), false)
    else if v > 2 ^ 31 - 1 then (2 ^ 31 - 1, true)
    else if v < -(2 ^ 31) then (-(2 ^ 31), true)
    else (v, false)

/-- The identity of a semiring as a 32-bit pattern (Table 14.1). -/
def identityBits (sem : Nat) (int : Bool) : Nat :=
  match sem with
  | 1 => if int then 0x7FFFFFFF else 0x7F800000
  | 2 | 7 => if int then 0x80000000 else 0xFF800000
  | _ => 0

/-- A floating cell over a row of weft and a row of warp, in ascending k. -/
def floatCell (sem : Nat) (init : Nat) (a b : List FV) : Nat :=
  b32 ((a.zip b).foldl (fun acc ab => floatAcc sem acc (floatTerm sem ab.1 ab.2)) (f32 init))

/-- An INT32 cell over terms in ascending k. -/
def intCell (sem : Nat) (wrap : Bool) (init : Nat) (ts : List Int) : Nat × Bool :=
  let r := ts.foldl (fun (acc : Int × Bool) t => let x := intAcc sem wrap acc.1 t; (x.1, acc.2 || x.2)) (signed 32 init, false)
  (unsigned 32 r.1, r.2)

/-- Comparison counts of floating elements (R431): a NaN adds nothing. -/
def cmpTerm (ge : Bool) (a b : FV) : Int := if flt b a || (ge && feq a b) then 1 else 0

/-- The accumulators a member ends a pass with, 64 rows of 64, and whether a sum saturated. -/
def memberBank (h : Hw) (d : Desc) (p m : Nat) : List Nat × Bool :=
  let grp := (fmtGroup (wWeft d)).getD 0
  let sem := wSem d
  let int := accInt sem grp
  let pos := memberPos (wShape d) m
  let loom := wGang d + m
  let mode := (tabGet {} h.weaves.looms loom).mode
  let ge := bitOf mode 2
  let init (i j : Nat) : Nat :=
    if wLoad d then bobElem h loom (leAt d.bytes 0x50 4 + p * leAt d.bytes 0x64 4 + i * leAt d.bytes 0x54 4) 32 j
    else identityBits sem int
  let idx := List.range 64
  if grp ≥ 5 then
    let ws := idx.map (fun i => intRow h d (wWeftOpd d) p (64 * pos.1 + i))
    let vs := idx.map (fun j => intRow h d (wWarpOpd d) p (64 * pos.2 + j))
    let cells := (ws.zip idx).flatMap (fun wi => (vs.zip idx).map (fun vj =>
      intCell sem (bitOf mode 1) (init wi.2 vj.2) ((wi.1.zip vj.1).map (fun ab => intTerm sem ge ab.1 ab.2))))
    (cells.map (·.1), cells.any (·.2))
  else
    let ws := idx.map (fun i => floatRow h d (wWeftOpd d) p (64 * pos.1 + i))
    let vs := idx.map (fun j => floatRow h d (wWarpOpd d) p (64 * pos.2 + j))
    let cells := (ws.zip idx).flatMap (fun wi => (vs.zip idx).map (fun vj =>
      if sem = 6 then intCell 6 (bitOf mode 1) (init wi.2 vj.2) ((wi.1.zip vj.1).map (fun ab => cmpTerm ge ab.1 ab.2))
      else (floatCell sem (init wi.2 vj.2) wi.1 vj.1, false)))
    (cells.map (·.1), cells.any (·.2))

/-! ### Readout (R434) -/

/-- One accumulator at readout: its output pattern and the flags NAN_SEEN, INF_SEEN, OUT_OVERFLOW as bits 1 to 3. -/
def readout (int : Bool) (fmt : Nat) (sat : Bool) (x : Nat) : Nat × Nat :=
  if int then
    if fmt = 0x0E then (x, 0)
    else
      let r := encF ((fmtOf fmt).getD binary32) sat (fint (signed 32 x))
      (r.1, if r.2 then 8 else 0)
  else
    let v := f32 x
    let r := encF ((fmtOf fmt).getD binary32) sat v
    (r.1, (match v with | .nan => 2 | .inf _ => 4 | _ => 0) + (if r.2 then 8 else 0))

/-- Poisoned weft rows, warp rows and INIT elements of a pass (Table 11.3). -/
def passPoison (h : Hw) (d : Desc) (p : Nat) : List Nat × List Nat × List Nat :=
  let bad (rs : List Range) : Bool := rs.any (fun r => bobPoisoned h r.1 r.2.1 r.2.2)
  let rows (o : Opd) : List Nat := (List.range o.rows).filter (fun i => bad (opdRow d o p i))
  let n := (shapeDims (wShape d)).2
  let cells := (List.range (gangSize (wShape d))).flatMap (fun m =>
    let pos := memberPos (wShape d) m
    if wLoad d then (List.range 64).flatMap (fun i =>
      (List.range 64).filterMap (fun j =>
        if bobPoisoned h (wGang d + m) (leAt d.bytes 0x50 4 + p * leAt d.bytes 0x64 4 + i * leAt d.bytes 0x54 4 + 4 * j) 4
        then some ((64 * pos.1 + i) * n + 64 * pos.2 + j) else none))
    else [])
  (rows (wWeftOpd d), rows (wWarpOpd d), cells)

/-- RESULT of a weave (Table 14.8). -/
def weaveResult (r : Run) : List Byte :=
  leBytes 16 (r.done % 2 ^ 16 + r.flags % 16 * 2 ^ 16 + (if r.done = 0 then 0 else (r.cyc + 71) % 2 ^ 32) * 2 ^ 32
)

/-- Write the outputs of the oldest swapped pass of a run and free its bank (R434, R443, R449). -/
def drainOne (h : Hw) (d : Desc) (r : Run) : Hw × Run × Bool :=
  match r.drains with
  | [] => (h, r, false)
  | q :: rest =>
    let int := accInt (wSem d) ((fmtGroup (wWeft d)).getD 0)
    let es := outSize (wOut d)
    let n := (shapeDims (wShape d)).2
    let free := weaveOverlap d q.pass
    let out (h : Hw) (m : Nat) : List Piece × Nat × Hw :=
      let loom := wGang d + m
      let l := tabGet {} h.weaves.looms loom
      let bank := if q.bank = 0 then l.bank0 else l.bank1
      let pos := memberPos (wShape d) m
      let conv := bank.map (readout int (wOut d) (bitOf l.mode 0))
      let rows := blocksOf 64 64 conv
      let flags := conv.foldl (fun a c => a ||| c.2) 0
      let ps := (outRanges d loom q.pass).zip (List.range 64) |>.flatMap (fun ri =>
        let i := ri.2
        let bytes := (rows.getD i []).flatMap (fun c => leBytes es c.1)
        let badRow := q.all || decide (64 * pos.1 + i ∈ q.rows)
        let bad (j : Nat) : Bool := badRow || decide (64 * pos.2 + j ∈ q.cols) || decide ((64 * pos.1 + i) * n + 64 * pos.2 + j ∈ q.cells)
        (List.range 64).map (fun j => { loom := loom, off := ri.1.2.1 + es * j, bytes := slice bytes (es * j) es, poison := bad j }))
      if free then
        let f := takeFreeBytes h (4096 * es)
        (ps.zip (blocksOf es 4096 f.1) |>.map (fun pb => { pb.1 with bytes := pb.2 }), flags, f.2)
      else (ps, flags, h)
    let step (acc : Hw × Nat) (m : Nat) : Hw × Nat :=
      let o := out acc.1 m
      let h1 := writeTile o.2.2 o.1
      let loom := wGang d + m
      let l := tabGet {} h1.weaves.looms loom
      let l' := if q.bank = 0 then { l with bank0 := [] } else { l with bank1 := [] }
      ({ h1 with weaves := { h1.weaves with looms := tabPut {} h1.weaves.looms loom l' } }, acc.2 ||| o.2.1)
    let f := (List.range (gangSize (wShape d))).foldl step (h, 0)
    let dirty := q.all || !q.rows.isEmpty || !q.cols.isEmpty || !q.cells.isEmpty
    (f.1, { r with drains := rest, done := r.done + 1, flags := r.flags ||| f.2, poison := r.poison || dirty }, true)

/-- Drain every swapped pass. -/
def drainAll : Nat → Hw → Desc → Run → Hw × Run
  | 0, h, _, r => (h, r)
  | fuel + 1, h, d, r =>
    let x := drainOne h d r
    if x.2.2 then drainAll fuel x.1 d x.2.1 else (h, r)

/-! ### The weave and its events -/

/-- A weave descriptor is dispatched (R445, R447, R448): its checks, then its bolt misses; it then waits for its gang. One that names a
gated quad waits for the quad to wake (chapter 14, When things fall together). -/
def weaveDesc (hm : HM) (s : Nat) (seq : W32) : HM :=
  match runnable hm.1 s seq with
  | none => hm
  | some d =>
    if opcode d ≠ 0x40 ∨ (runAt hm.1 s seq).isSome then hm
    else
      let r := weaveCheck hm.1 s d
      if r ≠ 0 then (haltDesc hm.1 s d r, hm.2)
      else if (wMembers d).any (fun m => unitFenced hm.1 3 (m / 4)) then (endDesc hm.1 s d 0x07 0, hm.2)
      else if (wMembers d).any (fun m => decide ((islandAt hm.1 { kind := .quad, idx := m / 4 }).power ≠ .open)) then hm
      else
        let r := missesFor hm s d
        if !r.1.1.coh.stalls.isEmpty then (r.1.1.coh.stalls.foldl leaveStall hm.1, hm.2)
        else match r.2 with
        | .error e => (missStop r.1.1 s d e, r.1.2)
        | .ok ms =>
          let h1 := addRunFor (putDesc r.1.1 s { d with begun := true })
            { slip := s, seq := seq, units := wMembers d, cls := (slipAt r.1.1 s).cls, total := wPasses d }
          (grantTransit { h1 with tiers := { h1.tiers with misses := h1.tiers.misses ++ ms } }, r.1.2)

/-- Banks of a gang in use: those that drain on any of its looms. -/
def busyBanks (h : Hw) (r : Run) : List Nat :=
  (h.weaves.runs.filter (sharesUnit r)).flatMap (fun x => x.drains.map (·.bank))

/-- The configuration number of a weave's passes (R438). -/
def wCfg (d : Desc) : Nat := 1 + wShape d + 8 * wSem d + 64 * wWeft d + 1024 * wWarp d

/-- A pass begins its first step (R435, R437, R444): every member is taken at once, into the lowest-numbered bank free on all of
them. -/
def passStart (h : Hw) (s : Nat) (seq : W32) : Hw :=
  match runAt h s seq, findDesc (slipAt h s) seq with
  | some r, some d =>
    let busy := busyBanks h r
    match [0, 1].find? (fun b => decide (b ∉ busy)) with
    | none => h
    | some bank =>
      if opcode d = 0x40 ∧ grantedRun h r then
        let mode := leAt d.bytes 0x17 1
        let cold := (wMembers d).any (fun m => decide ((tabGet {} h.weaves.looms m).cfg ≠ wCfg d)) ||
          (decide (r.next = 0) && busy.isEmpty)
        let looms := (wMembers d).foldl (fun t m => tabMod {} t m (fun l =>
          { l with cfg := wCfg d, mode := if r.next = 0 ∧ bitOf mode 7 then field mode 2 0 else l.mode })) h.weaves.looms
        let h1 := passOver h r
        putRun { h1 with weaves := { h1.weaves with looms := looms } }
          { r with running := true, start := h.tb.now, bank := bank, fresh := cold, passed := none, next := r.next + 1 }
      else h
  | _, _ => h

/-- Cycle at which the steps of the running pass begin, counted from the descriptor's first operand read (R437, R438). -/
def passBegin (d : Desc) (r : Run) : Nat :=
  let free := r.swaps.getD r.bank 0 + (if r.swaps.getD r.bank 0 = 0 then 0 else 64) + (if wLoad d ∧ !r.fresh then 64 else 0)
  max r.cyc free + (if r.fresh then bcastCycles (wShape d) + (if wLoad d then 64 else 0) else 0)

/-- A pass's steps end and its bank swaps (R436, R437), the loom's boundary; a parity error poisons all its output. -/
def bankSwap (h : Hw) (s : Nat) (seq : W32) (parity : Bool) : Hw :=
  match runAt h s seq, findDesc (slipAt h s) seq with
  | some r, some d =>
    let len := quadNs h (wGang d / 4) (stepCycles d + (if r.fresh then bcastCycles (wShape d) else 0))
    let t := max h.tb.now (r.start + len)
    if !r.running ∨ opcode d ≠ 0x40 ∨ t > r.start + 10 * leAt d.bytes 0x1E 2 then h
    else
      let p := r.next - 1
      let h0 := advanceTo h t
      let pp := passPoison h0 d p
      let bank (acc : Tab Loom × Bool) (m : Nat) : Tab Loom × Bool :=
        let b := memberBank h0 d p m
        (tabMod {} acc.1 (wGang d + m) (fun l => if r.bank = 0 then { l with bank0 := b.1 } else { l with bank1 := b.1 }), acc.2 || b.2)
      let f := (List.range (gangSize (wShape d))).foldl bank (h0.weaves.looms, false)
      let h1 := { h0 with weaves := { h0.weaves with looms := f.1 } }
      let h2 := if parity then corrected h1 3 (wGang d / 4) (wGang d) none else h1
      let stop := passBegin d r + stepCycles d + 1
      let q : Drain := { bank := r.bank, pass := p, since := t, rows := pp.1, cols := pp.2.1, cells := pp.2.2, all := parity }
      let ends := if r.bank = 0 then [stop, r.swaps.getD 1 0] else [r.swaps.getD 0 0, stop]
      let x := restamp h2 { r with running := false, drains := r.drains ++ [q], cyc := stop, swaps := ends,
                                   flags := r.flags ||| flag f.2 }
      putRun x.1 x.2
  | _, _ => h

/-- A bank's results finish draining (R434, R437): its outputs are written and it is free; the last drain of the last pass ends
the descriptor (R450). -/
def drainBank (h : Hw) (s : Nat) (seq : W32) : Hw :=
  match runAt h s seq, findDesc (slipAt h s) seq with
  | some r, some d =>
    match r.drains with
    | [] => h
    | q :: _ =>
      let h0 := advanceTo h (q.since + quadNs h (wGang d / 4) 72)
      let x := drainOne h0 d r
      let r' := x.2.1
      if r'.done = r'.total then
        let d' := { d with poison := d.poison || r'.poison, result := weaveResult r' }
        endDesc x.1 s d' (endStatus d') 0
      else putRun x.1 r'
  | _, _ => h

/-- A pass reaches PASS_LIMIT (R439): its bank is cleared, the outputs of earlier passes stay, and the descriptor halts. -/
def passCut (h : Hw) (s : Nat) (seq : W32) : Hw :=
  match runAt h s seq, findDesc (slipAt h s) seq with
  | some r, some d =>
    if !r.running ∨ opcode d ≠ 0x40 then h
    else
      let x := drainAll 3 (advanceTo h (r.start + 10 * leAt d.bytes 0x1E 2)) d r
      let looms := (wMembers d).foldl (fun t m => tabMod {} t m (fun l =>
        if r.bank = 0 then { l with bank0 := [] } else { l with bank1 := [] })) x.1.weaves.looms
      haltDesc { x.1 with weaves := { x.1.weaves with looms := looms } } s { d with result := weaveResult x.2 } 0x44
  | _, _ => h

end Sys2Proof.Machine
end

