-- ==== Sys2Proof/Machine/Finish.lean ====
section
/-! DEFINITION. Finishers (chapter 15): the eight finishing operations, row by row, their checks, numeric rules, flags and
results. -/
namespace Sys2Proof.Machine

/-! ### Fields of a finishing body (Table 15.3) -/

/-- QUAD. -/
def fQuad (d : Desc) : Nat := leAt d.bytes 0x10 1
/-- FUNC without its flag bit. -/
def fFunc (d : Desc) : Nat := leAt d.bytes 0x11 1 % 128
/-- The flag bit of FUNC: STATS, MERGE or ROWSEED. -/
def fFlag (d : Desc) : Bool := bitOf (leAt d.bytes 0x11 1) 7
/-- IN_FMT. -/
def fIn (d : Desc) : Nat := leAt d.bytes 0x12 1
/-- OUT_FMT. -/
def fOut (d : Desc) : Nat := leAt d.bytes 0x13 1
/-- A member field of LOOMS: 0 IN, 1 AUX, 2 OUT, 3 OUT2. -/
def fMember (d : Desc) (i : Nat) : Nat := leAt d.bytes 0x15 1 / 4 ^ i % 4
/-- IN_SPAN. -/
def fSpan (d : Desc) : Nat := leAt d.bytes 0x16 1
/-- ROWS. -/
def fRows (d : Desc) : Nat := leAt d.bytes 0x18 2
/-- K. -/
def fK (d : Desc) : Nat := leAt d.bytes 0x1A 1
/-- COLS. -/
def fCols (d : Desc) : Nat := leAt d.bytes 0x1C 4
/-- Elements per block. -/
def fBlk (d : Desc) : Nat := if leAt d.bytes 0x20 4 = 0 then fCols d else leAt d.bytes 0x20 4
/-- Blocks of a row. -/
def fBlocks (d : Desc) : Nat := fCols d / fBlk d
/-- Offset of operand i (0 IN, 1 AUX, 2 OUT, 3 OUT2). -/
def fOff (d : Desc) (i : Nat) : Nat := leAt d.bytes (0x28 + 8 * i) 4
/-- Pitch of operand i. -/
def fPitch (d : Desc) (i : Nat) : Nat := leAt d.bytes (0x2C + 8 * i) 4
/-- PARAM0 as a value. -/
def fParam0 (d : Desc) : FV := f32 (leAt d.bytes 0x48 4)
/-- PARAM1 as a value. -/
def fParam1 (d : Desc) : FV := f32 (leAt d.bytes 0x4C 4)
/-- PARAM2. -/
def fParam2 (d : Desc) : Int := signed 32 (leAt d.bytes 0x50 4)
/-- ROW_LIMIT in ns. -/
def fLimit (d : Desc) : Nat := 10 * leAt d.bytes (if opcode d = 0x78 then 0x1A else 0x54) 2

/-! ### Layout (R459, R460) -/

/-- Package loom of a member of a quad. -/
def quadLoom (quad m : Nat) : Nat := 4 * quad + m

/-- The member that holds block b (R459); 4 and more names no member. -/
def blockMember (span first b : Nat) : Nat :=
  match span with
  | 4 => (first + b) % 4
  | 2 => first + b % 2
  | _ => first

/-- The blocks of row r of a tile laid out by R459: member, bobbin offset, bytes. -/
def tileRow (quad span blk nb bstride first off pitch w r : Nat) : List Range :=
  (List.range nb).map (fun b => (quadLoom quad (blockMember span first b), off + b / span * bstride + r * pitch, rowBytes w blk))

/-- Row r of a tile operand i of a finishing descriptor in a format of `w` bits. -/
def fTile (d : Desc) (i w r : Nat) : List Range :=
  tileRow (fQuad d) (fSpan d) (fBlk d) (fBlocks d) (leAt d.bytes 0x24 4) (fMember d i) (fOff d i) (fPitch d i) w r

/-- A run of bytes of row r of operand i in its named member alone. -/
def fRow (d : Desc) (i n r : Nat) : List Range := [(quadLoom (fQuad d) (fMember d i), fOff d i + r * fPitch d i, n)]

/-- Whether a descriptor reads an AUX operand in IN_FMT shaped by BCAST: MAP's binary functions, SWIGLU and SOFTMAX's mask. -/
def fAuxShaped (d : Desc) : Bool :=
  (decide (opcode d = 0x50) && decide (fFunc d ≤ 5 ∨ fFunc d = 0x17)) || decide (opcode d = 0x52)

/-- AUX ranges that row r reads. -/
def fAuxRanges (d : Desc) (r : Nat) : List Range :=
  let w := fmtBits (fIn d)
  let loom := quadLoom (fQuad d) (fMember d 1)
  if fAuxShaped d then
    match leAt d.bytes 0x17 1 with
    | 0 => fTile d 1 w r
    | 1 => [(loom, fOff d 1, rowBytes w (fCols d))]
    | _ => fRow d 1 (rowBytes w 1) r
  else match opcode d with
    | 0x53 => [(loom, fOff d 1, rowBytes w (fCols d))] ++ (if fFunc d = 2 then [(loom, fOff d 1 + fPitch d 1, rowBytes w (fCols d))] else [])
    | 0x56 => if fFunc d = 2 then fRow d 1 4 r else if fFunc d = 3 then fRow d 1 (fCols d / 32) r else []
    | 0x57 => if fFunc d = 1 ∧ fFlag d then fRow d 1 16 r else []
    | _ => []

/-- Ranges that row r writes: its tile or its per-row results, then what goes to OUT2. -/
def fOutRanges (d : Desc) (r : Nat) : List Range :=
  let w := fmtBits (fOut d)
  match opcode d with
  | 0x50 | 0x53 | 0x56 => fTile d 2 w r
  | 0x52 => fTile d 2 w r ++ (if fFlag d then fRow d 3 8 r else [])
  | 0x55 => fTile d 2 w r ++ (if fFunc d = 2 then fRow d 3 4 r else if fFunc d = 3 then fRow d 3 (fCols d / 32) r else [])
  | 0x54 => if fFunc d ≤ 2 then fRow d 2 (rowBytes w (fK d)) r ++ fRow d 3 (4 * fK d) r else fRow d 2 4 r
  | _ => fRow d 2 4 r

/-- Ranges whose poison poisons row r (R479): its input, its AUX and, with MERGE, its own places. -/
def fReads (d : Desc) (r : Nat) : List Range :=
  fTile d 0 (fmtBits (fIn d)) r ++ fAuxRanges d r ++ (if opcode d = 0x54 ∧ fFlag d then fOutRanges d r else [])

/-! ### Checks of R477 -/

/-- Input formats that R455 converts. -/
def fInOk (f : Nat) : Bool := decide (f ∈ [0x01, 0x02, 0x08, 0x09, 0x0A, 0x0B, 0x0D, 0x0E])

/-- Output formats of R434 from binary32. -/
def fFloatOut (f : Nat) : Bool := decide (f ∈ [0x08, 0x09, 0x0D])

/-- FORMAT_BAD: IN_FMT and OUT_FMT are allowed for the opcode and FUNC. -/
def fFormatOk (d : Desc) : Bool :=
  let i := fIn d
  let o := fOut d
  match opcode d with
  | 0x51 => fInOk i && decide (o = 0x0D)
  | 0x54 => fInOk i && (decide (fFunc d ≥ 3) || fFloatOut o)
  | 0x55 => fInOk i && (if fFunc d = 3 then isMx o else decide (o ∈ [0x01, 0x02, 0x0A, 0x0B]))
  | 0x56 => (if fFunc d = 3 then isMx i else decide (i ∈ [0x01, 0x02, 0x0A, 0x0B])) && fFloatOut o
  | 0x57 => fInOk i
  | _ => fInOk i && fFloatOut o

/-- SIZE_BAD: ROWS, COLS, K and COL_BLOCK. -/
def fSizeOk (d : Desc) : Bool :=
  let mx := decide (fFunc d = 3) && decide (opcode d = 0x55 ∨ opcode d = 0x56)
  decide (1 ≤ fRows d ∧ fRows d ≤ 4096 ∧ 1 ≤ fCols d ∧ fCols d ≤ 262144 ∧ fCols d % fBlk d = 0) &&
  (!mx || decide (fCols d % 32 = 0 ∧ fBlk d % 32 = 0)) &&
  (decide (opcode d ≠ 0x54 ∧ opcode d ≠ 0x57) || decide (fK d ≤ 64)) &&
  (!(decide (opcode d = 0x54) && decide (fFunc d ≤ 2)) || decide (1 ≤ fK d))

/-- Whether a value is finite. -/
def isFin : FV → Bool
  | .fin _ _ _ => true
  | _ => false

/-- The rule of the categorical parameters (R471): inverse temperature, top-p and K. -/
def sampleParamsOk (p0 p1 : FV) (k : Nat) : Bool :=
  isFin p0 && flt (.fin false 0 0) p0 && flt (.fin false 0 0) p1 && !flt (fint 1) p1 && (!flt p1 (fint 1) || decide (1 ≤ k))

/-- PARAM_BAD: the parameters meet the rule of their operation (R465, R471). -/
def fParamOk (d : Desc) : Bool :=
  match opcode d with
  | 0x53 => isFin (fParam0 d) && !flt (fParam0 d) (.fin false 0 0)
  | 0x57 => decide (fFunc d = 2) || sampleParamsOk (fParam0 d) (fParam1 d) (fK d)
  | _ => true

/-- Whether every access lies within the quad's bobbins: offsets only grow with the row. -/
def fRangesOk (d : Desc) : Bool :=
  let rs := fReads d (fRows d - 1) ++ fOutRanges d (fRows d - 1)
  rangesFit rs && rs.all (fun x => decide (x.1 / 4 = fQuad d))

/-- The reason a finishing descriptor halts with at dispatch (R477); zero when every check passes. -/
def finCheck (h : Hw) (s : Nat) (d : Desc) : Nat :=
  if fQuad d > 127 ∨ quadDie (fQuad d) ≠ slipDie s then 0x40
  else if unitHolder h 3 (fQuad d) ≠ slipOwner h s then 0x20
  else if !fFormatOk d then 0x41
  else if !fSizeOk d then 0x42
  else if !fParamOk d then 0x43
  else if !fRangesOk d then 0x25
  else 0

/-- Whether an output may coincide with its input exactly (R461). -/
def fInPlace (d : Desc) : Bool :=
  decide (opcode d ∈ [0x50, 0x52, 0x53, 0x55, 0x56] ∧ fMember d 0 = fMember d 2 ∧ fOff d 0 = fOff d 2 ∧ fPitch d 0 = fPitch d 2
    ∧ fmtBits (fOut d) ≤ fmtBits (fIn d))

/-- Whether an output overlaps an input in a way R461 does not define: the result is unpredictable. -/
def fOverlap (d : Desc) : Bool :=
  let rows := List.range (fRows d)
  let ins := rows.flatMap (fun r => fTile d 0 (fmtBits (fIn d)) r)
  let auxs := rows.flatMap (fAuxRanges d)
  rows.any (fun r =>
    let outs := fOutRanges d r
    let tile := if fInPlace d then outs.drop (fBlocks d) else outs
    outs.any (fun w => auxs.any (rangesMeet w)) || tile.any (fun w => ins.any (rangesMeet w)))

/-! ### Reading (R455) -/

/-- The bits a row's elements are cut from: each block's bytes in turn. -/
def readTile (h : Hw) (rs : List Range) (w blk : Nat) : List Nat :=
  rs.flatMap (fun x => (List.range blk).map (fun i => bobElem h x.1 x.2.1 w i))

/-- An element converted to binary32 (R455). -/
def toF32 (f x : Nat) : FV :=
  match fmtOf f with
  | some g => decF g x
  | none => rne32 (fint (signed (fmtBits f) x))

/-- Row r of the input, as values. -/
def fInput (h : Hw) (d : Desc) (r : Nat) : List FV := (readTile h (fTile d 0 (fmtBits (fIn d)) r) (fmtBits (fIn d)) (fBlk d)).map (toF32 (fIn d))

/-- AUX of row r under BCAST, one value per column. -/
def fAux (h : Hw) (d : Desc) (r : Nat) : List FV :=
  let w := fmtBits (fIn d)
  match leAt d.bytes 0x17 1 with
  | 0 => (readTile h (fTile d 1 w r) w (fBlk d)).map (toF32 (fIn d))
  | 1 => (readTile h [(quadLoom (fQuad d) (fMember d 1), fOff d 1, 0)] w (fCols d)).map (toF32 (fIn d))
  | _ => List.replicate (fCols d) (toF32 (fIn d) (bobElem h (quadLoom (fQuad d) (fMember d 1)) (fOff d 1 + r * fPitch d 1) w 0))

/-! ### Flags (Table 15.10): bit 0 NAN_SEEN, 1 INF_SEEN, 2 OUT_OVERFLOW, 3 SATURATED, 4 DOMAIN, 5 EMPTY_ROW -/

/-- What a row gives: tile elements, per-row bytes for OUT and OUT2, flags, and the index it wrote. -/
structure RowOut where
  tile  : List Nat := []
  per   : List Byte := []
  per2  : List Byte := []
  flags : Nat := 0
  first : Nat := 0

/-- Whether any of a list of values is NaN. -/
def anyNan (xs : List FV) : Nat := flag (xs.any (fun x => decide (x = FV.nan)))

/-- Convert results to OUT_FMT (R434, R455): patterns and flags. -/
def convOut (fmt : Nat) (sat : Bool) (ys : List FV) : List Nat × Nat :=
  let f := (fmtOf fmt).getD binary32
  let cs := ys.map (fun y => encF f sat y)
  let infs := (ys.zip cs).any (fun yc => match yc.1 with
    | .inf _ => true
    | _ => match decF f yc.2.1 with | .inf _ => true | _ => false)
  (cs.map (·.1), anyNan ys + 2 * flag infs + 4 * flag (cs.any (·.2)))

/-! ### MAP and REDUCE (R456, R462) -/

/-- A MAP element and whether its argument lay outside the function's domain. -/
def mapElem (fn : Nat) (p0 p1 x a : FV) : FV × Bool :=
  match fn with
  | 0x01 => (rne32 (fadd x a), false)
  | 0x02 => (rne32 (fadd x (fneg a)), false)
  | 0x03 => (rne32 (fmul x a), false)
  | 0x04 => (fmax x a, false)
  | 0x05 => (fmin x a, false)
  | 0x06 => (rne32 (fadd (fmul x p0) p1), false)
  | 0x07 => (x, false)
  | 0x08 => (fmax x (.fin false 0 0), false)
  | 0x09 => (fsqrt32 x, false)
  | 0x17 => let r := approxFn 0x16 x; (rne32 (fmul r.1 a), r.2)
  | _ => approxFn fn x

/-- MAP of a row. -/
def mapRow (h : Hw) (d : Desc) (sat : Bool) (r : Nat) : RowOut :=
  let xs := fInput h d r
  let as := if fAuxShaped d then fAux h d r else xs
  let ys := (xs.zip as).map (fun xa => mapElem (fFunc d) (fParam0 d) (fParam1 d) xa.1 xa.2)
  let c := convOut (fOut d) sat (ys.map (·.1))
  { tile := c.1, flags := c.2 ||| anyNan xs ||| anyNan as ||| 16 * flag (ys.any (·.2)) }

/-- Mean of a row's terms (R456). -/
def meanOf (xs : List FV) : FV := fdiv32 (rowSum xs) (fint xs.length)

/-- REDUCE of a row. -/
def reduceRow (h : Hw) (d : Desc) (r : Nat) : RowOut :=
  let xs := fInput h d r
  let y := match fFunc d with
    | 1 => rowSum xs
    | 2 => rowSum (xs.map (fun x => rne32 (fmul x x)))
    | 3 => meanOf xs
    | 4 => (xs.drop 1).foldl fmax (xs.headD .nan)
    | _ => (xs.drop 1).foldl fmin (xs.headD .nan)
  let c := convOut 0x0D false [y]
  { per := leBytes 4 (c.1.headD 0), flags := c.2 ||| anyNan xs }

/-! ### SOFTMAX (R463, R464) and NORM (R465) -/

/-- A softmax row: outputs, the two statistics, and whether the row was empty. -/
def softmaxOf (zs : List FV) : List FV × FV × FV × Bool :=
  let n := zs.length
  if zs.any (fun z => decide (z = FV.nan)) then (List.replicate n .nan, .nan, .nan, false)
  else
    let m := (zs.drop 1).foldl fmax (zs.headD .nan)
    match m with
    | .inf true => (List.replicate n (.fin false 0 0), m, .fin false 0 0, true)
    | .inf false =>
      let k := (zs.filter (fun z => decide (z = FV.inf false))).length
      (zs.map (fun z => if z = FV.inf false then fdiv32 (fint 1) (fint k) else .fin false 0 0), m, fint k, false)
    | _ =>
      let es := zs.map (fun z => fexp (rne32 (fadd z (fneg m))))
      let s := rowSum es
      let rs := frecip s
      (es.map (fun e => rne32 (fmul e rs)), m, s, false)

/-- SOFTMAX of a row. -/
def softmaxRow (h : Hw) (d : Desc) (sat : Bool) (r : Nat) : RowOut :=
  let xs := fInput h d r
  let as := fAux h d r
  let zs := ((xs.zip as).zip (List.range (fCols d))).map (fun e =>
    if fFunc d = 2 ∧ (r : Int) + fParam2 d < e.2 then FV.inf true
    else rne32 (fadd (rne32 (fmul e.1.1 (fParam0 d))) e.1.2))
  let y := softmaxOf zs
  let c := convOut (fOut d) sat y.1
  { tile := c.1, per2 := if fFlag d then leBytes 4 (b32 y.2.1) ++ leBytes 4 (b32 y.2.2.1) else [],
    flags := c.2 ||| anyNan xs ||| anyNan as ||| 32 * flag y.2.2.2 }

/-- NORM of a row. -/
def normRow (h : Hw) (d : Desc) (sat : Bool) (r : Nat) : RowOut :=
  let w := fmtBits (fIn d)
  let loom := quadLoom (fQuad d) (fMember d 1)
  let vec (off : Nat) : List FV := (readTile h [(loom, off, 0)] w (fCols d)).map (toF32 (fIn d))
  let xs := fInput h d r
  let gs := vec (fOff d 1)
  let bs := if fFunc d = 2 then vec (fOff d 1 + fPitch d 1) else []
  let sq (x : FV) : FV := rne32 (fmul x x)
  let ys :=
    if fFunc d = 1 then
      let k := frsqrt (rne32 (fadd (meanOf (xs.map sq)) (fParam0 d)))
      (xs.zip gs).map (fun e => rne32 (fmul (rne32 (fmul e.1 k)) e.2))
    else
      let mu := meanOf xs
      let ds := xs.map (fun x => rne32 (fadd x (fneg mu)))
      let k := frsqrt (rne32 (fadd (meanOf (ds.map sq)) (fParam0 d)))
      (ds.zip (gs.zip bs)).map (fun e => rne32 (fadd (rne32 (fmul (rne32 (fmul e.1 k)) e.2.1)) e.2.2))
  let c := convOut (fOut d) sat ys
  { tile := c.1, flags := c.2 ||| anyNan xs ||| anyNan gs ||| anyNan bs }

/-! ### SELECT (R466 to R468) -/

/-- Whether a candidate ranks before another (R467): NaN last, or first with NAN_FIRST; equals by lower index. -/
def rankBefore (desc nanFirst : Bool) (a b : FV × Nat) : Bool :=
  let an := decide (a.1 = FV.nan)
  let bn := decide (b.1 = FV.nan)
  if an && bn then decide (a.2 ≤ b.2)
  else if an then nanFirst
  else if bn then !nanFirst
  else if (if desc then flt b.1 a.1 else flt a.1 b.1) then true
  else if (if desc then flt a.1 b.1 else flt b.1 a.1) then false
  else decide (a.2 ≤ b.2)

/-- Insert a candidate at its rank. -/
def rankIns (le : FV × Nat → FV × Nat → Bool) (x : FV × Nat) : List (FV × Nat) → List (FV × Nat)
  | [] => [x]
  | y :: ys => if le x y then x :: y :: ys else y :: rankIns le x ys

/-- The first `k` candidates in rank order. -/
def topK (le : FV × Nat → FV × Nat → Bool) (k : Nat) (cs : List (FV × Nat)) : List (FV × Nat) :=
  cs.foldl (fun acc c => (rankIns le c acc).take k) []

/-- Candidates of a row: each value with its column. -/
def withCols (xs : List FV) : List (FV × Nat) := xs.zip (List.range xs.length)

/-- SELECT of a row. -/
def selectRow (h : Hw) (d : Desc) (sat nanFirst : Bool) (r : Nat) : RowOut :=
  let xs := fInput h d r
  let base := leAt d.bytes 0x58 4
  let le := rankBefore (decide (fFunc d = 1 ∨ fFunc d = 3)) nanFirst
  let cs := (withCols xs).map (fun c => (c.1, (base + c.2) % 2 ^ 32))
  if fFunc d ≥ 3 then
    let i := ((topK le 1 cs).headD (.nan, 0xFFFFFFFF)).2
    { per := leBytes 4 i, flags := anyNan xs, first := i }
  else
    let k := fK d
    let w := fmtBits (fOut d)
    let l2 := quadLoom (fQuad d) (fMember d 2)
    let l3 := quadLoom (fQuad d) (fMember d 3)
    let old := if fFlag d then (List.range k).map (fun i =>
      (toF32 (fOut d) (bobElem h l2 (fOff d 2 + r * fPitch d 2) w i), bobElem h l3 (fOff d 3 + r * fPitch d 3) 32 i)) else []
    let best := topK le k (cs ++ old)
    let all := best ++ List.replicate (k - best.length) (FV.nan, 0xFFFFFFFF)
    let c := convOut (fOut d) sat (all.map (·.1))
    { per := c.1.flatMap (leBytes (w / 8)), per2 := all.flatMap (fun e => leBytes 4 e.2),
      flags := c.2 ||| anyNan xs ||| anyNan (old.map (·.1)) }

/-! ### QUANT and DEQUANT (R469, R470, Table 15.6) -/

/-- A value rounded to the nearest integer, ties to even. -/
def rneInt (neg : Bool) (m : Nat) (e : Int) : Int := rneShift (if neg then -(m : Int) else m) (-e)

/-- Quantise an exact value to INT8, INT4 or FP8 (Table 15.6): the pattern and the flags. -/
def quantise (fmt : Nat) (qInf : Bool) (x : FV) : Nat × Nat :=
  if fmt = 0x0A ∨ fmt = 0x0B then
    let q : Int := if fmt = 0x0A then 127 else 7
    let w := fmtBits fmt
    match x with
    | .nan => (0, 1)
    | .inf n => (unsigned w (if n then -q else q), 8)
    | .fin n m e =>
      let v := rneInt n m e
      if v > q then (unsigned w q, 8) else if v < -q then (unsigned w (-q), 8) else (unsigned w v, 0)
  else
    let f := (fmtOf fmt).getD binary32
    let sat := decide (fmt = 0x01) || !qInf
    match x with
    | .nan => (qnan f, 1)
    | .inf n => if sat then ((encF f true (.inf n)).1 - (if f.top = TopExp.ieee then 1 else 0), 8) else ((encF f false (.inf n)).1, 2)
    | y =>
      let r := encF f sat y
      (r.1, if r.2 then (if sat then 12 else 6) else 0)

/-- Largest finite magnitude of a row; +0 when there is none. -/
def absMax (xs : List FV) : FV := (xs.filter isFin).foldl (fun a x => fmax a (fabs x)) (.fin false 0 0)

/-- Exponent of the largest normal of an MX element format. -/
def mxEmax (fmt : Nat) : Int :=
  match fmt with
  | 0x03 => 8 | 0x04 => 15 | 0x05 => 4 | _ => 2

/-- One MX block (R469): scale byte, elements, flags. -/
def mxBlock (fmt : Nat) (xs : List FV) : Nat × List Nat × Nat :=
  let f := (fmtOf fmt).getD binary32
  if xs.any (fun x => !isFin x) then (0xFF, xs.map (fun _ => 0), anyNan xs)
  else match absMax xs with
    | .fin _ m e =>
      let s : Int := if m = 0 then -127 else max (-127) (min 127 ((Nat.log2 m : Int) + e - mxEmax fmt))
      let enc (x : FV) : Nat × Bool := match x with
        | .fin n m' e' => encF f true (.fin n m' (e' - s))
        | y => encF f true y
      let qs := xs.map enc
      ((s + 127).toNat, qs.map (·.1), if qs.any (·.2) then 8 else 0)
    | _ => (0, xs.map (fun _ => 0), 0)

/-- QUANT of a row. -/
def quantRow (h : Hw) (d : Desc) (qInf : Bool) (r : Nat) : RowOut :=
  let xs := fInput h d r
  let fold (qs : List (Nat × Nat)) : Nat := qs.foldl (fun a q => a ||| q.2) 0
  match fFunc d with
  | 1 =>
    let qs := xs.map (fun x => quantise (fOut d) qInf (fmul x (fParam0 d)))
    { tile := qs.map (·.1), flags := fold qs ||| anyNan xs }
  | 2 =>
    let a := absMax xs
    let qmax : Int := match fOut d with | 0x0A => 127 | 0x0B => 7 | 0x01 => 448 | _ => 57344
    if fzero a then { tile := xs.map (fun _ => 0), per2 := zeros 4, flags := anyNan xs }
    else
      let dd := rne32 (fmul a (frecip (fint qmax)))
      let k := frecip dd
      let qs := xs.map (fun x => quantise (fOut d) qInf (fmul x k))
      { tile := qs.map (·.1), per2 := leBytes 4 (b32 dd), flags := fold qs ||| anyNan xs }
  | _ =>
    let bs := (blocksOf 32 (fCols d / 32) xs).map (mxBlock (fOut d))
    { tile := bs.flatMap (·.2.1), per2 := bs.map (fun b => BitVec.ofNat 8 b.1), flags := bs.foldl (fun a b => a ||| b.2.2) (anyNan xs) }

/-- DEQUANT of a row. -/
def dequantRow (h : Hw) (d : Desc) (sat : Bool) (r : Nat) : RowOut :=
  let loom := quadLoom (fQuad d) (fMember d 1)
  let off := fOff d 1 + r * fPitch d 1
  let xs := fInput h d r
  let ys := match fFunc d with
    | 1 => xs.map (fun x => fmul x (fParam0 d))
    | 2 => let k := f32 (bobElem h loom off 32 0); xs.map (fun x => fmul x k)
    | _ => (xs.zip (List.range xs.length)).map (fun e => scaleBy (bobElem h loom off 8 (e.2 / 32)) e.1)
  let c := convOut (fOut d) sat ys
  { tile := c.1, flags := c.2 ||| anyNan xs }

/-! ### SAMPLE (R471 to R473) -/

/-- Steps 1 to 4 of R471: nothing when the row has no kept finite value (1) or a NaN in a kept value (2); else e of each
column (nothing where not kept) and S. -/
def keptOf (xs : List FV) (p0 p1 : FV) (k : Nat) (nanFirst : Bool) : Except Nat (List (Option FV) × FV) :=
  let le := rankBefore true nanFirst
  let zs := withCols (xs.map (fun x => rne32 (fmul x p0)))
  let order := if k > 0 then topK le k zs else []
  let kept (c : Nat) : Bool := if k > 0 then order.any (fun e => decide (e.2 = c)) else true
  let kz := zs.filter (fun z => kept z.2)
  if kz.any (fun z => decide (z.1 = FV.nan)) then .error 2
  else if !(kz.any (fun z => isFin z.1)) then .error 1
  else
    let m := (kz.drop 1).foldl (fun a z => fmax a z.1) ((kz.map (·.1)).headD .nan)
    let e (z : FV) : FV := fexp (rne32 (fadd z (fneg m)))
    let es := zs.map (fun z => if kept z.2 then some (e z.1) else none)
    let sum (l : List (Option FV)) : FV := rowSum (l.map (fun o => o.getD (.fin false 0 0)))
    let s := sum es
    if flt p1 (fint 1) then
      let t := rne32 (fmul p1 s)
      let keep := (order.foldl (fun (a : List Nat × FV × Bool) z =>
        if a.2.2 then a
        else
          let c := rne32 (fadd a.2.1 (e z.1))
          (a.1 ++ [z.2], c, !flt c t && decide (c ≠ FV.nan) && decide (t ≠ FV.nan))) ([], .fin false 0 0, false)).1
      let es' := (es.zip (List.range es.length)).map (fun o => if o.2 ∈ keep then o.1 else none)
      .ok (es', sum es')
    else .ok (es, s)

/-- Steps 5 and 6 of R471: the chosen column. -/
def chooseCol (es : List (Option FV)) (s u : FV) : Nat :=
  let t := rne32 (fmul u s)
  let r := (es.zip (List.range es.length)).foldl (fun (a : FV × Option Nat × Nat) o =>
    match o.1 with
    | none => a
    | some e =>
      let c := rne32 (fadd a.1 e)
      (c, if a.2.1.isSome then a.2.1 else if flt t c then some o.2 else none, o.2)) (.fin false 0 0, none, 0)
  r.2.1.getD r.2.2

/-- SAMPLE of a row. -/
def sampleRow (h : Hw) (d : Desc) (nanFirst : Bool) (r : Nat) : RowOut :=
  let xs := fInput h d r
  let base := leAt d.bytes 0x58 4
  let put (i flags : Nat) : RowOut := { per := leBytes 4 i, flags := flags, first := i }
  if fFunc d = 2 then
    let i := ((topK (rankBefore true nanFirst) 1 (withCols xs)).headD (.nan, 0)).2
    put ((base + i) % 2 ^ 32) (anyNan xs)
  else
    let loom := quadLoom (fQuad d) (fMember d 1)
    let off := fOff d 1 + r * fPitch d 1
    let stream := if fFlag d then leNat (bobRead h loom off 8) else leAt d.bytes 0x68 8
    let ctr := if fFlag d then leNat (bobRead h loom (off + 8) 8) else (leAt d.bytes 0x70 8 + r) % 2 ^ 64
    match keptOf xs (fParam0 d) (fParam1 d) (fK d) nanFirst with
    | .error 1 => put 0xFFFFFFFF (32 ||| anyNan xs)
    | .error _ => put 0xFFFFFFFF 1
    | .ok (es, s) => put ((base + chooseCol es s (drawOf (leAt d.bytes 0x60 8) stream ctr 0)) % 2 ^ 32) (anyNan xs)

/-! ### Rows -/

/-- One row of a finishing descriptor under its mode register. -/
def finRow (h : Hw) (d : Desc) (mode r : Nat) : RowOut :=
  let sat := bitOf mode 0
  match opcode d with
  | 0x50 => mapRow h d sat r
  | 0x51 => reduceRow h d r
  | 0x52 => softmaxRow h d sat r
  | 0x53 => normRow h d sat r
  | 0x54 => selectRow h d sat (bitOf mode 2) r
  | 0x55 => quantRow h d (bitOf mode 1) r
  | 0x56 => dequantRow h d sat r
  | _ => sampleRow h d (bitOf mode 2) r

/-- Elements of `w` bits packed (R276). -/
def packElems (w : Nat) (xs : List Nat) : List Byte :=
  if w % 8 = 0 then xs.flatMap (leBytes (w / 8))
  else leBytes (rowBytes w xs.length) (xs.foldr (fun x a => x % 2 ^ w + a * 2 ^ w) 0)

/-- The pieces a row writes, in the order of its output ranges. -/
def rowPieces (d : Desc) (o : RowOut) (poison : Bool) (r : Nat) : List Piece :=
  let w := fmtBits (fOut d)
  let rs := fOutRanges d r
  let tiles := if o.tile.isEmpty then [] else (blocksOf (fBlk d) (fBlocks d) o.tile).map (packElems w)
  let bytes := tiles ++ (if o.per.isEmpty then [] else [o.per]) ++ (if o.per2.isEmpty then [] else [o.per2])
  (rs.zip bytes).map (fun x => { loom := x.1.1, off := x.1.2.1, bytes := x.2, poison := poison })

/-- Replace the bytes of pieces by free values (R461's unpredictable result). -/
def freePieces (h : Hw) (ps : List Piece) : List Piece × Hw :=
  ps.foldl (fun (a : List Piece × Hw) p =>
    let f := takeFreeBytes a.2 p.bytes.length
    (a.1 ++ [{ p with bytes := f.1 }], f.2)) ([], h)

/-- Finisher cycles of a row (R454, Table 15.1). -/
def rowCycles (d : Desc) : Nat :=
  let w := fmtBits (fIn d)
  let spans := min (fSpan d) (fBlocks d)
  let cap := max 1 (512 * spans * 8 / w)
  let rates := match opcode d with
    | 0x50 => if fFunc d ≥ 0x10 then [64] else [128]
    | 0x52 => [128, 64, 128]
    | 0x53 => [128, 128, 128]
    | 0x54 => if w ≤ 16 then [512] else [256]
    | 0x57 => [128, 64, 128, 128]
    | 0x78 => if bitOf (leAt d.bytes 0x11 1) 0 then (if w ≤ 16 then [512] else [256]) else [128, 64, 128, 128]
    | _ => [128]
  (rates.map (fun r => 2 + ceilDiv (fCols d) (min r cap))).foldl (· + ·) 0

/-- RESULT of a finishing descriptor (Table 15.10). -/
def finResult (r : Run) : List Byte :=
  leBytes 16 (r.done % 2 ^ 16 + r.flags % 64 * 2 ^ 16 + r.cyc % 2 ^ 32 * 2 ^ 32 + r.first % 2 ^ 32 * 2 ^ 64)

/-- The rows of the finishing opcodes: checks at dispatch (R477), then the descriptor waits for its finisher. A quad
that is gated is waited for, as a weave waits. -/
def finDesc (h : Hw) (s : Nat) (seq : W32) (op : Nat) : Hw :=
  match runnable h s seq with
  | none => h
  | some d =>
    if opcode d ≠ op ∨ (runAt h s seq).isSome then h
    else
      let r := finCheck h s d
      if r ≠ 0 then haltDesc h s d r
      else if unitFenced h 3 (fQuad d) then endDesc h s d 0x07 0
      else if (islandAt h { kind := .quad, idx := fQuad d }).power ≠ .open then h
      else addRunFor (putDesc h s { d with begun := true })
        { slip := s, seq := seq, units := [finUnit (fQuad d)], cls := (slipAt h s).cls, total := fRows d, cyc := 16 }

/-- The finisher's mode register as a descriptor's rows see it (R474): written by LOAD before its first row. -/
def loadMode (h : Hw) (d : Desc) (r : Run) : Hw :=
  let mode := leAt d.bytes 0x14 1
  if r.next = 0 ∧ bitOf mode 7 then
    { h with weaves := { h.weaves with fmode := tabPut 0 h.weaves.fmode (fQuad d) (field mode 2 0) } }
  else h

/-- One whole row of a finishing descriptor (R475, R476, R479): its finisher is granted, the row is read, computed and written,
and the boundary reached. A parity error poisons every output of the operation. -/
def finRowEnd (h : Hw) (s : Nat) (d : Desc) (r : Run) (parity : Bool) : Hw :=
  let h0 := loadMode (passOver (advanceTo h (h.tb.now + quadNs h (fQuad d) (rowCycles d))) r) d r
  let mode := tabGet 0 h0.weaves.fmode (fQuad d)
  let tainted := r.tainted || parity
  let bad := tainted || (fReads d r.next).any (fun x => bobPoisoned h0 x.1 x.2.1 x.2.2)
  let o := finRow h0 d mode r.next
  let ps := rowPieces d o bad r.next
  let f := if fOverlap d then freePieces h0 ps else (ps, h0)
  let h1 := writeTile f.2 f.1
  let h2 := if parity then
      (List.range r.next).foldl (fun h i => (fOutRanges d i).foldl (fun h x =>
        (granulesOf x.2.1 x.2.2).foldl (fun h g => bobMark h x.1 g true) h) h) (corrected h1 3 (fQuad d) (4 * fQuad d) none)
    else h1
  let r1 := { r with next := r.next + 1, done := r.done + 1, passed := none, tainted := tainted, poison := r.poison || bad,
                     flags := if bad then r.flags else r.flags ||| o.flags, cyc := r.cyc + rowCycles d,
                     first := if r.next = 0 then o.first else r.first }
  if r1.done = r1.total then
    let d' := { d with poison := d.poison || r1.poison, result := finResult r1 }
    endDesc h2 s d' (endStatus d') 0
  else
    let x := restamp h2 r1
    putRun x.1 x.2

/-- A row reaches ROW_LIMIT (R475): it is abandoned with its outputs partly written — which bytes is free — and the descriptor
halts. -/
def finRowCut (h : Hw) (s : Nat) (d : Desc) (r : Run) : Hw :=
  let h0 := loadMode (advanceTo h (h.tb.now + fLimit d)) d r
  let mode := tabGet 0 h0.weaves.fmode (fQuad d)
  let bad := r.tainted || (fReads d r.next).any (fun x => bobPoisoned h0 x.1 x.2.1 x.2.2)
  let ps := rowPieces d (finRow h0 d mode r.next) bad r.next
  let h1 := ps.foldl (fun h p =>
    let f := takeFreeBytes h p.bytes.length
    let old := bobRead h p.loom p.off p.bytes.length
    let mix := ((p.bytes.zip old).zip f.1).map (fun x => if x.2.toNat % 2 = 1 then x.1.1 else x.1.2)
    let slots := (List.range ((p.off + p.bytes.length - 1) / 65536 - p.off / 65536 + 1)).map (fun i => p.off / 65536 + i)
    let h2 := slots.foldl (fun h k => setTag h p.loom k {}) (bobBytes f.2 p.loom p.off mix)
    if p.poison then (granulesOf p.off p.bytes.length).foldl (fun h g => bobMark h p.loom g true) h2 else h2) h0
  haltDesc h1 s { d with result := finResult r } 0x44

end Sys2Proof.Machine
end

