-- ==== Sys2Proof/Machine/Verify.lean ====
section
/-! DEFINITION. VERIFY (R523 to R533): draft acceptance on a finisher, its rows and its one commit to the ledger; and the row
events that finishing descriptors share with it. -/
namespace Sys2Proof.Machine

/-- GREEDY. -/
def vGreedy (d : Desc) : Bool := bitOf (leAt d.bytes 0x11 1) 0
/-- Drafts D. -/
def vDrafts (d : Desc) : Nat := leAt d.bytes 0x13 1
/-- The ledger. -/
def vLedger (d : Desc) : Nat := leAt d.bytes 0x18 2
/-- Inverse temperature. -/
def vParam0 (d : Desc) : FV := f32 (leAt d.bytes 0x40 4)
/-- Top-p. -/
def vParam1 (d : Desc) : FV := f32 (leAt d.bytes 0x44 4)

/-- Blocks of a row of target logits (R459). -/
def vTile (d : Desc) (r : Nat) : List Range :=
  tileRow (fQuad d) (fSpan d) (fBlk d) (fBlocks d) (leAt d.bytes 0x24 4) (fMember d 0) (leAt d.bytes 0x28 4) (leAt d.bytes 0x2C 4)
    (fmtBits (fIn d)) r

/-- Draft row i (R524). -/
def vDraftRow (d : Desc) (i : Nat) : Range :=
  (quadLoom (fQuad d) (fMember d 1), leAt d.bytes 0x30 4 + i * leAt d.bytes 0x34 4, 8 * leAt d.bytes 0x17 1)

/-- The draft tokens. -/
def vTokens (d : Desc) : Range := (quadLoom (fQuad d) (fMember d 3), leAt d.bytes 0x38 4, 4 * vDrafts d)

/-- The output tokens. -/
def vOutput (d : Desc) : Range := (quadLoom (fQuad d) (fMember d 2), leAt d.bytes 0x3C 4, 4 * (vDrafts d + 1))

/-- Ranges that row r reads. -/
def vReads (d : Desc) (r : Nat) : List Range :=
  vTile d r ++ [vTokens d] ++ (if !vGreedy d && decide (r < vDrafts d) then [vDraftRow d r] else [])

/-- The reason a verify halts with at dispatch (R527, Table 17.6); zero when every check passes. -/
def verifyCheck (h : Hw) (s : Nat) (d : Desc) : Nat :=
  let n := vLedger d
  let x := ledgerAt h n
  let p := slipOwner h s
  if fQuad d > 127 ∨ quadDie (fQuad d) ≠ slipDie s then 0x43
  else if unitHolder h 3 (fQuad d) ≠ p ∨ ledgerOwner h n ≠ p then 0x20
  else if !(decide (1 ≤ fCols d ∧ fCols d ≤ 262144 ∧ fCols d % fBlk d = 0)) then 0x43
  else if !vGreedy d && !sampleParamsOk (vParam0 d) (vParam1 d) (leAt d.bytes 0x14 1) then 0x43
  else
    let rs := vTile d (vDrafts d) ++ [vTokens d, vOutput d] ++ (if vGreedy d then [] else [vDraftRow d (vDrafts d - 1)])
    if !(rangesFit rs && rs.all (fun r => decide (r.1 / 4 = fQuad d))) then 0x43
    else if x.poison = 0 ∧ (!x.active ∨ x.t ≠ x.l + vDrafts d + 1) then 0x40
    else 0

/-- RESULT of a verify (Table 17.4). -/
def verifyResult (x : Ledger) (accepted flags next cyc : Nat) : List Byte :=
  leBytes 4 (accepted % 32 + flags % 16 * 32) ++ leBytes 4 next ++ leBytes 4 x.l ++ leBytes 4 cyc

/-- VERIFY is dispatched (R527): its checks, then the ledger's GEN is recorded and it waits for its finisher. -/
def verifyDesc (h : Hw) (s : Nat) (seq : W32) : Hw :=
  match runnable h s seq with
  | none => h
  | some d =>
    if opcode d ≠ 0x78 ∨ (runAt h s seq).isSome then h
    else
      let r := verifyCheck h s d
      let x := ledgerAt h (vLedger d)
      if r ≠ 0 then haltDesc h s d r
      else if x.poison ≠ 0 then endDesc h s { d with poison := true, result := verifyResult x 0 0 0 0 } 0x01 0
      else if unitFenced h 3 (fQuad d) then endDesc h s d 0x07 0
      else if (islandAt h { kind := .quad, idx := fQuad d }).power ≠ .open then h
      else addRunFor (putDesc h s { d with begun := true })
        { slip := s, seq := seq, units := [finUnit (fQuad d)], cls := (slipAt h s).cls, total := vDrafts d + 1, cyc := 16,
          gen := x.gen.toNat }

/-! ### Deciding a row (R524 to R526, R528, R530) -/

/-- What a row decides. -/
inductive VRow where
  | accept
  | next (tok flags : Nat)   -- flags: bit 0 BONUS, 3 RESIDUAL_ZERO
  | roll (flags : Nat)       -- bit 1 NAN_SEEN, 2 EMPTY_ROW
  | poison
deriving DecidableEq, Repr

/-- Draft probability of a token (R524): the first used entry's q, +0 when there is none, NaN when it is NaN, infinite or
negative. -/
def draftQ : List (Nat × FV) → Nat → FV
  | [], _ => .fin false 0 0
  | (i, q) :: es, v => if i = v then q else draftQ es v

/-- The used entries of a draft row. -/
def draftEntries (h : Hw) (r : Range) : List (Nat × FV) :=
  (List.range (r.2.2 / 8)).filterMap (fun k =>
    let i := leNat (bobRead h r.1 (r.2.1 + 8 * k) 4)
    let q := f32 (leNat (bobRead h r.1 (r.2.1 + 8 * k + 4) 4))
    let q' := match q with
      | .fin n m _ => if n ∧ m ≠ 0 then .nan else q
      | _ => .nan
    if i = 0xFFFFFFFF then none else some (i, q'))

/-- A draw of word w for row i (R526). -/
def vDraw (d : Desc) (i w : Nat) : FV := drawOf (leAt d.bytes 0x60 8) (leAt d.bytes 0x68 8) ((leAt d.bytes 0x70 8 + i) % 2 ^ 64) w

/-- Sampling by p (R471 steps 5 and 6 with the p of R525). -/
def samplePs (ps : List (Option FV)) (u : FV) : Nat :=
  chooseCol ps (rowSum (ps.map (fun o => o.getD (.fin false 0 0)))) u

/-- `sample_residual`: the token, whether the residual was zero, and the state after a free value where the procedure leaves
the token open. -/
def residual (h : Hw) (ps : List (Option FV)) (es : List (Nat × FV)) (u : FV) : Nat × Bool × Hw :=
  let zero : FV := .fin false 0 0
  let rs := (ps.zip (List.range ps.length)).map (fun o => fmax zero (rne32 (fadd (o.1.getD zero) (fneg (draftQ es o.2)))))
  let sum := rowSum rs
  if fzero sum then (samplePs ps u, true, h)
  else
    let t := rne32 (fmul u sum)
    let a := (rs.zip (List.range rs.length)).foldl (fun (a : FV × Option Nat × Option Nat) r =>
      if flt zero r.1 then
        let c := rne32 (fadd a.1 r.1)
        (c, if a.2.1.isSome then a.2.1 else if flt t c then some r.2 else none, some r.2)
      else a) (zero, none, none)
    match a.2.1, a.2.2 with
    | some v, _ => (v, false, h)
    | none, some v => (v, false, h)
    | none, none => let f := takeFree h; (f.1.toNat % rs.length, false, f.2)

/-- What row i decides, from the target logits. -/
def verifyRow (h : Hw) (d : Desc) (nanFirst : Bool) (i : Nat) : VRow × Hw :=
  if (vReads d i).any (fun x => bobPoisoned h x.1 x.2.1 x.2.2) then (.poison, h)
  else
    let xs := (readTile h (vTile d i) (fmtBits (fIn d)) (fBlk d)).map (toF32 (fIn d))
    let tok := leNat (bobRead h (vTokens d).1 ((vTokens d).2.1 + 4 * i) 4)
    if xs.any (fun x => decide (x = FV.nan)) then (.roll 2, h)
    else if vGreedy d then
      if !(xs.any isFin) then (.roll 4, h)
      else
        let m := ((topK (rankBefore true nanFirst) 1 (withCols xs)).headD (.nan, 0)).2
        if i < vDrafts d ∧ tok = m then (.accept, h) else (.next m 0, h)
    else match keptOf xs (vParam0 d) (vParam1 d) (leAt d.bytes 0x14 1) nanFirst with
      | .error e => (.roll (if e = 1 then 4 else 2), h)
      | .ok (es, s) =>
        let rs := frecip s
        let ps := es.map (fun o => o.map (fun e => rne32 (fmul e rs)))
        if i ≥ vDrafts d then (.next (samplePs ps (vDraw d i 2)) 1, h)
        else
          let ds := draftEntries h (vDraftRow d i)
          let q := draftQ ds tok
          let p := ((ps.getD tok none).getD (.fin false 0 0))
          if q = FV.nan then (.roll 2, h)
          else if fzero q || flt (fmul (vDraw d i 1) q) p then (.accept, h)
          else
            let r := residual h ps ds (vDraw d i 2)
            (.next r.1 (if r.2.1 then 8 else 0), r.2.2)

/-- The commit, or T ← L, of a verify: one ledger operation under the GEN check (R529 to R531). -/
def verifyEnd (hm : HM) (s : Nat) (d : Desc) (r : Run) (v : VRow) : HM :=
  let n := vLedger d
  let x := ledgerAt hm.1 n
  let p := slipOwner hm.1 s
  let seq := d.seq.toNat
  let fin (hm : HM) (acc flags next st : Nat) : HM :=
    let d' := { d with poison := d.poison || decide (st = 1), result := verifyResult (ledgerAt hm.1 n) acc flags next r.cyc }
    (endDesc hm.1 s d' st 0, hm.2)
  let failed (hm : HM) : Returned → HM
    | .ok _ => hm
    | .poison => fin hm 0 0 0 0x01
    | .halt e => (haltDesc hm.1 s d e, hm.2)
    | .bad b => (failAccess hm.1 s d b, hm.2)
  let back (flags st : Nat) : HM :=
    let u := setLengths hm p n x.l x.l false seq
    match u.2 with
    | .ok _ => fin u.1 0 flags 0 st
    | e => failed u.1 e
  if x.poison ≠ 0 then fin hm 0 0 0 0x01
  else if x.gen.toNat ≠ r.gen then
    match v with
    | .poison => fin hm 0 0 0 0x01
    | _ => (endDesc hm.1 s d 0x09 0x40, hm.2)
  else match v with
    | .poison => back 0 0x01
    | .roll f => back f 0x0A
    | .accept => hm
    | .next tok flags =>
      let l := x.l + r.done + 1
      let u := setLengths hm p n l l false seq
      match u.2 with
      | .ok _ =>
        let o := vTokens d
        let toks := bobRead u.1.1 o.1 o.2.1 (4 * r.done) ++ leBytes 4 tok
        fin (bobWrite u.1.1 (vOutput d).1 (vOutput d).2.1 toks false, u.1.2) r.done flags tok 0
      | e => failed u.1 e

/-- One row of a verify: an accepted draft yields the finisher at the boundary (R533); any other outcome ends it. While an
extend holds the ledger, the last row cannot end, since the commit waits for it (R515, R521). -/
def verifyRowEnd (hm : HM) (s : Nat) (d : Desc) (r : Run) (parity : Bool) : HM :=
  let h0 := passOver (advanceTo hm.1 (hm.1.tb.now + quadNs hm.1 (fQuad d) (rowCycles d))) r
  let v := if parity then (.poison, h0) else verifyRow h0 d (bitOf (tabGet 0 h0.weaves.fmode (fQuad d)) 2) r.next
  let r1 := { r with next := r.next + 1, passed := none, cyc := r.cyc + rowCycles d }
  match v.1 with
  | .accept =>
    let x := restamp v.2 { r1 with done := r.done + 1 }
    (putRun x.1 x.2, hm.2)
  | w =>
    if (ledgerAt hm.1 (vLedger d)).held then hm
    else
      let h1 := if parity then corrected v.2 3 (fQuad d) (4 * fQuad d) none else v.2
      verifyEnd (h1, hm.2) s d r1 w

/-! ### Row events -/

/-- ROW_END: a granted finishing or verify descriptor completes a row within its limit (R475, R476, R505, R532). -/
def rowEnd (hm : HM) (s : Nat) (seq : W32) (parity : Bool) : HM :=
  match runAt hm.1 s seq, findDesc (slipAt hm.1 s) seq with
  | some r, some d =>
    if opcode d < 0x50 ∨ !grantedRun hm.1 r ∨ quadNs hm.1 (fQuad d) (rowCycles d) > fLimit d then hm
    else if opcode d = 0x78 then settle (verifyRowEnd hm s d r parity)
    else (finRowEnd hm.1 s d r parity, hm.2)
  | _, _ => hm

/-- ROW_CUT: a row reaches its limit (R475); a verify halts with its ledger unchanged (R532). -/
def rowCut (h : Hw) (s : Nat) (seq : W32) : Hw :=
  match runAt h s seq, findDesc (slipAt h s) seq with
  | some r, some d =>
    if opcode d < 0x50 ∨ !grantedRun h r then h
    else if opcode d = 0x78 then
      haltDesc (advanceTo h (h.tb.now + fLimit d)) s { d with result := verifyResult (ledgerAt h (vLedger d)) 0 0 0 r.cyc } 0x44
    else finRowCut h s d r
  | _, _ => h

end Sys2Proof.Machine
end

