-- ==== Sys2Proof/Machine/Complete.lean ====
section
/-! DEFINITION. Completion records in slip order, signals and interrupts, DONE, and the stop of a slip (R404, R414 to R420). -/
namespace Sys2Proof.Machine

/-- The completion record of a descriptor (Table 13.11). -/
def recordBytes (x : Slip) (d : Desc) (stopped : Bool) : List Byte :=
  leBytes 1 d.status ++ leBytes 1 (recPhase x d.seq + 2 * flag stopped) ++ leBytes 1 d.reason ++ leBytes 1 d.buf
  ++ slice d.bytes 4 4 ++ leBytes 4 d.doneBytes ++ leBytes 4 d.seq.toNat ++ slice d.result 0 16

/-- Compact address of a sequence count's completion record (R388). -/
def recordAddr (x : Slip) (seq : W32) : Nat := x.cring + 32 * (seq.toNat % slipSize x)

/-- The oldest descriptor whose record is not yet written, if its work is over (R221). -/
def nextRecord (x : Slip) : Option Desc :=
  match x.descs.find? (fun d => decide (d.phase ≠ Phase.final ∧ d.phase ≠ Phase.recorded)) with
  | some d => if d.phase = Phase.ended then some d else none
  | none => none

/-- DONE passes every final record at the head of the slip; a passed sequence count leaves the skip map (R422). -/
def passFinal : Nat → Slip → Slip
  | 0, x => x
  | n + 1, x =>
    match x.descs with
    | d :: ds => if d.phase = Phase.final then
        passFinal n { x with done := d.seq + 1, descs := ds, skip := x.skip.filter (fun q => q ≠ d.seq) } else x
    | [] => x

/-- Steps 4 to 6 of R419, once every dispatched descriptor has its record. A DISABLE written meanwhile then applies.
DESIGN CHOICE (log entry 90): Table 13.3 has no row for a descriptor that stops its slip while it is DISABLING; the stop's registers are set
and its interrupt is raised, and the slip becomes DISABLED. -/
def finishStop (h : Hw) (s : Nat) : Hw :=
  let x := slipAt h s
  match x.stopping with
  | none => h
  | some q =>
    if x.descs.any inFlight then h
    else
      let d := (findDesc x q).getD { seq := q, bytes := [] }
      let later := (x.descs.filter (fun e => decide (e.phase = Phase.final ∧ (e.seq - q).toNat < 2 ^ 31 ∧ e.seq ≠ q))).map (·.seq)
      let off := x.disableReq || decide (x.st = SlipSt.disabling)
      let y := { x with st := if off then .disabled else .stopped, stopSeq := q, stopStatus := d.status, reason := d.reason,
                        head := q, skip := x.skip.filter (fun k => k ∉ later) ++ later, descs := [], stopping := none,
                        disableReq := false, resume := d.doneBytes }
      raise (setSlip h s y) (slipOwner h s) x.stopIrq

/-- What follows a final record with STOPPED clear: the header signal, then the interrupt, unless the descriptor is run again
(R404, R420). -/
def afterFinal (h : Hw) (s : Nat) (d : Desc) : Hw :=
  let p := slipOwner h s
  let fl := leAt d.bytes 1 1
  if d.rerun ∨ (slipAt h s).st = SlipSt.fenced then h
  else
    let h1 := if bitOf fl 1 then signalHeader h p (leAt d.bytes 8 4) d.seq.toNat (descArg s d.seq.toNat) else h
    if bitOf fl 0 then raise h1 p (leAt d.bytes 2 2) else h1

/-- The two steps of R416 for a record at a compact address. At home both are performed at once; in another package each is one write, and the
next thing waits until its home answers: `k` steps have gone before. -/
def writeRecord (hm : HM) (p ca : Nat) (bs : List Byte) (k : Nat) : HM × Verdict :=
  let one (hm : HM) (k : Nat) : HM × Verdict := if k = 0 then engineWrite hm p (ca + 8) (bs.drop 8) false else engineWrite hm p ca (bs.take 8) false
  if isLocal hm.1 ca then
    match one hm 0 with
    | (hm1, .refused a) => (hm1, .refused a)
    | (hm1, v) => let w := one hm1 1; (w.1, match w.2 with | .refused a => .refused a | _ => v)
  else if k < 2 then one hm k
  else (hm, .ok)

/-- DESCRIPTOR_COMPLETE: once every write of the slip up to it is performed (R221), the next record of a slip is written, in two steps
(R416), and what follows it follows its performance; a record refused at the selvedge stops the slip without a readable record (R90). -/
def completeNext (hm : HM) (s : Nat) : HM :=
  let x := slipAt hm.1 s
  let p := slipOwner hm.1 s
  match nextRecord x with
  | none =>
    let y := passFinal x.descs.length x
    (slipDisabled (finishStop (setSlip hm.1 s y) s) s, hm.2)
  | some d =>
    let stopped := stops d.status d.reason && decide (x.st ≠ SlipSt.fenced)
    let bs := recordBytes x d stopped
    let w := if slipPending hm.1 s d.seq then (hm, Verdict.remote) else writeRecord hm p (recordAddr x d.seq) bs d.recStep
    match w.2 with
    | .remote =>
      if slipPending hm.1 s d.seq then hm
      else (tagWrites (setSlip w.1.1 s (setDesc (slipAt w.1.1 s) { d with recStep := d.recStep + 1 })) (.slip s d.seq), w.1.2)
    | .refused a =>
      let h1 := refuseEngine w.1.1 p a (descArg s d.seq.toNat)
      let y := slipAt h1 s
      if y.st = SlipSt.fenced then (setSlip h1 s (setDesc y { d with phase := .recorded }), w.1.2)
      else
        let h2 := if y.stopping = some d.seq then h1 else endDesc h1 s d 0x09 0x20
        let d' := { d with phase := .recorded, status := if stopped then d.status else 0x09, reason := if stopped then d.reason else 0x20 }
        (finishStop (setSlip h2 s (setDesc (slipAt h2 s) d')) s, w.1.2)
    | _ =>
      let h1 := setSlip w.1.1 s (setDesc (slipAt w.1.1 s) { d with phase := if stopped then .recorded else .final })
      if stopped then (slipDisabled (finishStop h1 s) s, w.1.2)
      else
        let h2 := afterFinal h1 s d
        let y := passFinal (slipAt h2 s).descs.length (slipAt h2 s)
        (slipDisabled (finishStop (setSlip h2 s y) s) s, w.1.2)

end Sys2Proof.Machine
end

