-- ==== Sys2Proof/Machine/Commands.lean ====
section
/-! DEFINITION. What Efano knows of each command before it runs (chapter 24): its code, the roles that may call it, whether it
has a commit point, its maximum duration, the length of its payload and its reserved fields. -/
namespace Sys2Proof.Machine

/-- One row of Tables 24.2 to 24.14. -/
structure CmdInfo where
  steward : Bool
  tenant  : Bool
  keeper  : Bool
  commits : Bool
  maxUs   : Nat := 10000
  len     : Option Nat := some 0   -- payload bytes; none: governed by a count or free

/-- The row of a command code; none for a reserved group or an unassigned code (R22, step 1 of Table 4.4). -/
def cmdInfo (c : Nat) : Option CmdInfo :=
  match c with
  | 0x0101 => some ⟨true, true, true, false, 1000, some 0⟩
  | 0x0102 => some ⟨true, true, true, false, 10000, some 4⟩
  | 0x0103 => some ⟨true, true, true, false, 10000, some 0⟩
  | 0x0104 => some ⟨true, true, true, false, 10000, none⟩
  | 0x0105 => some ⟨true, true, true, false, 10000, some 8⟩
  | 0x0201 => some ⟨true, true, true, false, 500000, none⟩
  | 0x0202 => some ⟨true, true, false, false, 2000000, some 40⟩
  | 0x0203 => some ⟨false, true, false, true, 2000000, some 8⟩
  | 0x0204 => some ⟨true, true, true, false, 10000, some 0⟩
  | 0x0301 => some ⟨true, false, false, true, 10000, some 8⟩
  | 0x0302 => some ⟨true, false, false, true, 10000000, some 8⟩
  | 0x0303 => some ⟨true, false, false, true, 10000000, none⟩
  | 0x0304 => some ⟨true, true, false, true, 10000000, none⟩
  | 0x0305 => some ⟨true, true, false, false, 10000, some 8⟩
  | 0x0306 => some ⟨true, false, false, true, 10000, some 48⟩
  | 0x0307 => some ⟨true, false, false, true, 25000, some 72⟩
  | 0x0308 => some ⟨true, true, false, false, 100000, some 40⟩
  | 0x0309 => some ⟨true, false, false, true, 25000, some 40⟩
  | 0x0401 => some ⟨true, true, false, true, 10000, some 40⟩
  | 0x0402 => some ⟨true, true, false, true, 10000, some 40⟩
  | 0x0403 => some ⟨true, true, false, true, 10000, some 8⟩
  | 0x0404 => some ⟨true, true, false, false, 10000, some 8⟩
  | 0x0405 => some ⟨true, false, false, false, 10000, some 0⟩
  | 0x0501 => some ⟨true, true, false, false, 10000, some 8⟩
  | 0x0502 => some ⟨true, true, false, false, 10000, some 8⟩
  | 0x0601 => some ⟨true, true, false, true, 1000, some 8⟩
  | 0x0602 => some ⟨true, true, false, true, 1000, some 8⟩
  | 0x0701 => some ⟨true, true, false, false, 10000, some 8⟩
  | 0x0702 => some ⟨true, true, false, true, 1000000, some 40⟩
  | 0x0703 => some ⟨true, true, false, true, 10000, some 8⟩
  | 0x0704 => some ⟨true, true, false, false, 10000, some 8⟩
  | 0x0705 => some ⟨true, true, false, false, 10000, some 8⟩
  | 0x0801 => some ⟨true, true, false, false, 10000, some 8⟩
  | 0x0901 => some ⟨true, false, false, true, 1000, some 8⟩
  | 0x0902 => some ⟨true, true, false, true, 1000, some 16⟩
  | 0x0903 => some ⟨true, false, false, true, 1000, some 12⟩
  | 0x0904 => some ⟨true, false, false, true, 1000, some 8⟩
  | 0x0905 => some ⟨true, false, false, true, 1000, some 8⟩
  | 0x0906 => some ⟨true, true, true, false, 10000, some 0⟩
  | 0x0907 => some ⟨true, false, true, false, 10000, some 0⟩
  | 0x0A01 => some ⟨true, true, true, false, 10000, some 12⟩
  | 0x0A02 => some ⟨true, false, true, false, 10000, some 16⟩
  | 0x0A03 => some ⟨true, false, false, true, 10000, some 8⟩
  | 0x0A04 => some ⟨true, true, false, false, 10000, some 8⟩
  | 0x0A05 => some ⟨true, false, false, true, 2000000, some 16⟩
  | 0x0A06 => some ⟨true, false, false, true, 2000000, some 8⟩
  | 0x0A07 => some ⟨true, false, false, true, 50000, some 8⟩
  | 0x0A08 => some ⟨true, false, false, true, 10000, some 0⟩
  | 0x0A10 => some ⟨true, false, false, true, 10000, some 8⟩
  | 0x0A11 => some ⟨true, false, false, false, 10000, some 8⟩
  | 0x0A12 => some ⟨true, false, false, true, 10000, some 8⟩
  | 0x0A13 => some ⟨true, true, false, false, 10000, some 16⟩
  | 0x0A14 => some ⟨true, true, false, true, 100, some 8⟩
  | 0x0B01 => some ⟨true, false, true, false, 10000, some 8⟩
  | 0x0B02 => some ⟨true, false, false, true, 100000, some 16⟩
  | 0x0B03 => some ⟨true, false, false, true, 5000000, none⟩
  | 0x0B04 => some ⟨true, false, false, true, 5000000, some 16⟩
  | 0x0B05 => some ⟨true, false, false, true, 10000, none⟩
  | 0x0B06 => some ⟨true, false, false, true, 2000000, some 8⟩
  | 0x0B07 => some ⟨true, false, false, true, 100000, some 8⟩
  | 0x0B08 => some ⟨true, false, false, true, 100000, some 40⟩
  | 0x0B09 => some ⟨true, false, false, true, 1000000, some 8⟩
  | 0x0B0A => some ⟨true, false, false, true, 200000, some 8⟩
  | 0x0B0B => some ⟨true, false, true, false, 10000, some 8⟩
  | 0x0B0C => some ⟨true, false, false, true, 200000, some 8⟩
  | 0x0C01 => some ⟨true, false, true, false, 10000, some 0⟩
  | 0x0C02 => some ⟨true, false, false, true, 10000, some 24⟩
  | 0x0C03 => some ⟨true, false, false, true, 500000, some 8⟩
  | 0x0C04 => some ⟨true, false, false, true, 5000000, some 8⟩
  | 0x0C05 => some ⟨true, false, false, true, 10000, some 24⟩
  | 0x0C06 => some ⟨true, false, false, true, 10000, some 8⟩
  | 0x0C07 => some ⟨true, false, true, false, 10000, some 0⟩
  | 0x0C08 => some ⟨true, false, false, true, 10000, some 8⟩
  | 0x0C09 => some ⟨true, false, false, true, 10000, some 8⟩
  | 0x0C0A => some ⟨true, false, false, true, 10000, some 8⟩
  | 0x0C0B => some ⟨true, false, false, true, 10000, some 0⟩
  | 0x0C0C => some ⟨true, false, false, true, 10000, some 0⟩
  | 0x0C0D => some ⟨true, false, false, true, 10000, some 8⟩
  | 0x0C0E => some ⟨true, false, true, false, 10000, some 0⟩
  | 0x0D01 => some ⟨true, false, false, true, 30000000, some 0⟩
  | 0x0D02 => some ⟨true, false, true, false, 10000, some 0⟩
  | 0x0D03 => some ⟨true, false, false, false, 50000, some 8⟩
  | 0x0D04 => some ⟨true, false, false, true, 50000, some 8⟩
  | 0x0D05 => some ⟨true, false, false, true, 60000000, some 16⟩
  | 0x0D06 => some ⟨true, false, false, true, 10000000, some 16⟩
  | 0x0D07 => some ⟨true, false, false, false, 100000, some 16⟩
  | 0x0D08 => some ⟨true, false, false, true, 10000, some 16⟩
  | 0x0D09 => some ⟨true, false, false, true, 2000000, some 16⟩
  | 0x0D0A => some ⟨true, false, false, true, 1000000, some 16⟩
  | 0x0D0B => some ⟨true, false, false, true, 2000000, some 16⟩
  | 0x0E01 => some ⟨true, true, false, true, 20000, some 8⟩
  | 0x0E02 => some ⟨true, false, false, true, 20000, some 8⟩
  | 0x0E03 => some ⟨true, false, true, true, 10000, some 0⟩
  | 0x0E04 => some ⟨true, false, true, true, 10000, some 0⟩
  | 0x0E05 => some ⟨true, false, false, true, 500000, some 8⟩
  | 0x0E06 => some ⟨true, false, false, true, 10000, some 24⟩
  | 0x0E07 => some ⟨true, false, false, false, 10000, some 0⟩
  | 0x0E08 => some ⟨true, false, false, true, 10000, some 0⟩
  | 0x0E09 => some ⟨true, false, false, true, 100000, some 0⟩
  | 0x0F01 => some ⟨true, true, true, false, 10000, some 0⟩
  | 0x0F02 => some ⟨true, false, true, true, 2000000, none⟩
  | 0x0F03 => some ⟨true, false, true, true, 5000000, some 8⟩
  | 0x0F04 => some ⟨true, false, true, true, 10000000, some 8⟩
  | _ => none

/-- Whether a count field and the payload's length suit each other (R719). -/
def countOk (b : List Byte) (fixed each count lo hi : Nat) : Bool :=
  decide (fixed ≤ b.length) && decide (lo ≤ count ∧ count ≤ hi) && decide (b.length = fixed + each * count)

/-- Whether a payload's length is that of its layout (R719). -/
def lenOk (c : Nat) (b : List Byte) : Bool :=
  match (cmdInfo c).bind (·.len) with
  | some n => decide (b.length = n)
  | none =>
    match c with
    | 0x0104 => true
    | 0x0201 => decide (4 ≤ b.length)
    | 0x0303 | 0x0304 => countOk b 8 16 (leAt b 4 4) 1 4095
    | 0x0B03 => countOk b 16 48 (leAt b 8 1) 0 4
    | 0x0B05 => countOk b 8 48 (leAt b 5 1) 0 16
    | 0x0F02 => decide (8 ≤ b.length)
    | _ => false

/-- The fields of a RADDR that its TIER and KIND do not use (Table 24.1): RANK but for a far-tier row, LANE of a row, BANK and ROW of a
lane. A request for spares names every bank with BANK, whatever its KIND. -/
def raddrRes (c : Nat) (b : List Byte) : List (Nat × Nat) :=
  let t := leAt b 0 1
  let k := leAt b 5 1
  if t ∉ [2, 3] ∨ k > 1 then []
  else if c = 0x0D07 then (if t = 3 ∧ k = 0 then [] else [(3, 1)]) ++ (if k = 0 then [(12, 2)] else [(8, 4)])
  else (if t = 3 ∧ k = 0 then [] else [(3, 1)]) ++ (if k = 0 then [(12, 2)] else [(4, 1), (8, 4)])

/-- Reserved byte ranges of a payload (Tables 24.1 to 24.14). -/
def resBytes (c : Nat) (b : List Byte) : List (Nat × Nat) :=
  match c with
  | 0x0102 => [(1, 3)]
  | 0x0105 => [(6, 2)]
  | 0x0201 => [(1, 3)]
  | 0x0202 | 0x0203 => [(3, 1), (4, 4)]
  | 0x0301 | 0x0302 | 0x0305 => [(1, 7)]
  | 0x0303 | 0x0304 => (2, 2) :: (List.range (leAt b 4 4)).map (fun i => (8 + 16 * i + 1, 3))
  | 0x0306 => [(5, 3), (33, 3)]
  | 0x0307 => [(1, 3)]
  | 0x0308 => [(1, 3)]
  | 0x0309 => [(4, 4)]
  | 0x0401 | 0x0402 => [(19, 1)]
  | 0x0403 | 0x0404 => [(2, 6)]
  | 0x0501 => [(2, 6)]
  | 0x0502 => [(1, 7)]
  | 0x0601 | 0x0602 => [(3, 5)]
  | 0x0701 => [(4, 4)]
  | 0x0702 => [(2, 2), (36, 4)]
  | 0x0703 | 0x0704 => [(1, 7)]
  | 0x0705 => [(6, 2)]
  | 0x0801 => [(2, 6)]
  | 0x0901 => [(6, 2)]
  | 0x0902 => [(12, 4)]
  | 0x0903 => [(3, 1)]
  | 0x0904 => [(1, 7)]
  | 0x0A01 => [(1, 3), (10, 2)]
  | 0x0A02 => [(10, 6)]
  | 0x0A04 => [(1, 1)]
  | 0x0A05 => [(1, 3), (9, 7)]
  | 0x0A06 => [(1, 3)]
  | 0x0A07 => [(1, 7)]
  | 0x0A10 | 0x0A11 => [(1, 1)]
  | 0x0A12 => [(1, 3)]
  | 0x0A13 => [(14, 2)]
  | 0x0B01 => [(6, 2)]
  | 0x0B02 => [(1, 7)]
  | 0x0B03 => [(9, 7)]
  | 0x0B04 => [(9, 7)]
  | 0x0B05 => [(6, 2)]
  | 0x0B06 => [(1, 7)]
  | 0x0B07 => [(2, 6)]
  | 0x0B08 | 0x0B09 => [(1, 3)]
  | 0x0B0A => [(4, 4)]
  | 0x0B0B => [(1, 1), (4, 4)]
  | 0x0B0C => [(2, 6)]
  | 0x0C02 => [(4, 4), (20, 4)]
  | 0x0C03 => [(2, 6)]
  | 0x0C04 => [(3, 1), (5, 3)]
  | 0x0C05 => [(3, 1)]
  | 0x0C06 => [(3, 1)]
  | 0x0C0A => [(4, 4)]
  | 0x0C0D => [(1, 3)]
  | 0x0D03 => [(6, 2)]
  | 0x0D04 => [(2, 6)]
  | 0x0D05 | 0x0D07 | 0x0D08 | 0x0D09 | 0x0D0A | 0x0D0B => [(6, 2), (14, 2)] ++ raddrRes c b
  | 0x0D06 => [(13, 3)]
  | 0x0E01 | 0x0E05 => [(1, 7)]
  | 0x0E02 => [(1, 3)]
  | 0x0E06 => [(7, 1), (12, 4)]
  | 0x0F02 => [(2, 2)]
  | 0x0F03 | 0x0F04 => [(2, 6)]
  | _ => []

/-- Reserved bits of an index of FUNC form, which a unit or range of kind 9 has (Table 24.1). -/
def funcRes (b : List Byte) (kind at_ : Nat) : List (Nat × Nat) := if leAt b kind 1 = 9 then [(at_ + 2, 0xFE), (at_ + 3, 0xFF)] else []

/-- Bytes of a payload with reserved bits: offset and the mask of the reserved bits. -/
def resBits (c : Nat) (b : List Byte) : List (Nat × Nat) :=
  match c with
  | 0x0202 | 0x0203 | 0x0C04 => [(2, 0xFE)]
  | 0x0303 | 0x0304 => (1, 0xFE) :: (List.range (leAt b 4 4)).flatMap (fun i => funcRes b (8 + 16 * i) (16 + 16 * i))
  | 0x0306 => [(1, 0xF0), (2, 0xFE), (4, 0xFE)] ++ funcRes b 32 40
  | 0x0308 | 0x0A05 | 0x0A06 | 0x0E02 => funcRes b 0 4
  | 0x0401 | 0x0402 => [(2, 0xFE), (16, 0xE0), (17, 0xFE)]
  | 0x0309 => ((List.range 32).filter (bitOf (leAt b 0 4))).map (fun s => (8 + s, 0xC0))
  | 0x0902 => [(1, 0xFC)]
  | 0x0903 => [(1, 0xF8)]
  | 0x0905 => [(4, 0xFE)]
  | 0x0B02 => [(0, 0xFE)]
  | 0x0B05 => [(4, 0xFE)]
  | 0x0C02 => [(1, 0xF0), (2, 0xFE)] ++ (if leAt b 16 4 = 0xFFFFFFFF then [] else [(18, 0xFE), (19, 0xFF)])
  | 0x0C0A => [(0, 0xFE)]
  | 0x0C0D => [(0, 0xF0)]
  | 0x0E06 => [(6, 0xFE)]
  | _ => []

/-- Whether an encoded field of a payload holds a reserved encoding (R14). -/
def resCode (c : Nat) (b : List Byte) : Bool :=
  let kindBad (k : Nat) : Bool := decide (k = 0 ∨ k > 19)
  match c with
  | 0x0303 | 0x0304 => (List.range (leAt b 4 4)).any (fun i => let k := leAt b (8 + 16 * i) 1; decide (k = 0 ∨ k > 9))
  | 0x0306 => decide (leAt b 32 1 > 19) || (bitOf (leAt b 1 1) 3 && decide (leAt b 32 1 = 0))
  | 0x0308 => let k := leAt b 0 1; decide (k = 0 ∨ k > 9)
  | 0x0401 | 0x0402 => decide (leAt b 3 1 = 0 ∨ leAt b 3 1 > 0x0E)
  | 0x0A05 | 0x0A06 => kindBad (leAt b 0 1)
  | 0x0B07 => decide (leAt b 0 1 > 2)
  | 0x0B0C => decide (leAt b 1 1 > 3)
  | 0x0C03 => decide (leAt b 1 1 > 1)
  | 0x0C05 => decide (leAt b 2 1 ∉ [0, 1, 2, 4, 8])
  | 0x0C06 => decide (leAt b 1 1 > 0x10)
  | 0x0D06 => decide (leAt b 12 1 > 1)
  | 0x0E02 => decide (leAt b 0 1 > 19)
  | 0x0E05 => decide (leAt b 0 1 < 2 ∨ leAt b 0 1 > 4)
  | 0x0F02 | 0x0F03 | 0x0F04 => decide (leAt b 0 1 > 1 ∨ leAt b 1 1 > 1)
  | _ => false

/-- Whether every reserved field and encoding of a payload is as R14 asks (step 5 of Table 4.4). -/
def reservedOk (c : Nat) (b : List Byte) : Bool :=
  (resBytes c b).all (fun r => zeroAt b r.1 r.2) && (resBits c b).all (fun r => decide (leAt b r.1 1 &&& r.2 = 0)) && !resCode c b

/-- Commands allowed while Fenced (Table 4.4, Table 19.11). -/
def allowedFenced (c : Nat) : Bool :=
  decide (c / 256 = 1 ∨ c / 256 = 2) ||
  decide (c ∈ [0x0305, 0x0A01, 0x0A02, 0x0A03, 0x0A04, 0x0A05, 0x0A06, 0x0A07, 0x0A08, 0x0E01, 0x0E02, 0x0E04, 0x0302])

/-- Units a command names, as kind and index (step 7 of Table 4.4). -/
def namedUnits (c : Nat) (b : List Byte) : List (Nat × Nat) :=
  match c with
  | 0x0303 | 0x0304 => (List.range (leAt b 4 4)).flatMap (fun i =>
      let k := leAt b (8 + 16 * i) 1
      let n := leAt b (8 + 16 * i + 4) 4
      let f := leAt b (8 + 16 * i + 8) 8
      let f' := if k = 1 then f / 2 ^ 21 else f
      (List.range (min n 2097152)).map (fun j => (k, f' + j)))
  | 0x0306 => if bitOf (leAt b 1 1) 3 then (List.range (min (leAt b 36 4) 2097152)).map (fun j => (leAt b 32 1, leAt b 40 8 / 2 ^ 21 + j)) else []
  | 0x0307 => ((List.range 32).filter (bitOf (leAt b 4 4))).map (fun s => (10, s))
  | 0x0308 => [(leAt b 0 1, leAt b 4 4)]
  | 0x0309 => ((List.range 32).filter (bitOf (leAt b 0 4))).map (fun s => (10, s))
  | 0x0501 => [(5, leAt b 0 2)]
  | 0x0502 => [(4, leAt b 0 1)]
  | 0x0601 | 0x0602 => (List.range (leAt b 2 1)).map (fun i => (3, 32 * leAt b 0 1 + leAt b 1 1 + i))
  | 0x0701 => [(6, leAt b 0 4 / 256)]
  | 0x0801 => [(7, leAt b 0 2 / 16)]
  | 0x0B0C => [(12, leAt b 0 1)]
  | 0x0C02 | 0x0C03 => [(11, leAt b 0 1 / 4)]
  | 0x0C05 => (List.range (leAt b 2 1)).map (fun i => (11, leAt b (16 + i) 1 / 4))
  | 0x0202 | 0x0203 | 0x0C04 => [(9, leAt b 0 4)]
  | 0x0A13 | 0x0A14 => [(1, leAt b 0 8 / 2 ^ 21)]
  | _ => []

/-- The partition a Steward command's PART field names (R721). -/
def partField (c : Nat) (b : List Byte) : Option Nat :=
  if c ∈ [0x0301, 0x0302, 0x0303, 0x0304, 0x0305, 0x0306, 0x0307, 0x0A01, 0x0B08, 0x0B09, 0x0E01] then some (leAt b 0 1)
  else if c = 0x0C04 then some (leAt b 4 1)
  else none

/-- Whether what a request acts on is Fenced and the command is not allowed while Fenced (step 7 of Table 4.4). Group 0x0B is
limited to its reads, and to ARCH_JOIN, under a membership fence (Table 19.9, R634). -/
def fencedBlock (h : Hw) (m : Mbx) (c : Nat) (b : List Byte) : Bool :=
  !allowedFenced c &&
  (pkgFenced h ||
   (decide (c / 256 = 0x0B) && memberFenced h && !decide (c ∈ [0x0B01, 0x0B03, 0x0B0B])) ||
   (match m with | .part p => partFenced h p | _ => false) ||
   (match partField c b with | some p => decide (p ≤ 16) && partFenced h p | none => false) ||
   (namedUnits c b).any (fun u => unitFenced h u.1 u.2))

/-- Whether the subsystem a command needs has not finished start-up (step 6 of Table 4.4): the causeway for group 0x0B. -/
def notStarted (h : Hw) (c : Nat) : Bool :=
  decide (c / 256 = 0x0B) && !decide (c ∈ [0x0B01, 0x0B05, 0x0B0B]) && !h.arch.joinOk

/-- Whether a mailbox's role may call a command (R117, step 4 of Table 4.4). -/
def roleOk (m : Mbx) (i : CmdInfo) : Bool :=
  match m with
  | .part _ => i.tenant
  | .steward => i.steward
  | .keeper => i.keeper

end Sys2Proof.Machine
end

