-- ==== Sys2Proof/Machine/Mailbox.lean ====
section
/-! DEFINITION. The Efano mailboxes (chapter 4): doorbells, acceptance, the checks of Table 4.4, responses, sessions, deadlines and
the outcome store. -/
namespace Sys2Proof.Machine

/-- Key of a mailbox: 0 to 16 the partitions', 17 the Steward's, 18 the Keeper's. -/
def mbxKey : Mbx → Nat
  | .part p => p
  | .steward => 17
  | .keeper => 18

/-- The mailbox of a key. -/
def mbxOf (k : Nat) : Mbx := if k = 17 then .steward else if k = 18 then .keeper else .part k

/-- A mailbox. -/
def boxAt (h : Hw) (m : Mbx) : Mbox := tabGet {} h.efano.boxes (mbxKey m)

/-- Replace a mailbox. -/
def setBox (h : Hw) (m : Mbx) (x : Mbox) : Hw :=
  { h with efano := { h.efano with boxes := tabPut {} h.efano.boxes (mbxKey m) x } }

/-- MBX_STATUS.READY (R130, R148): firmware serves, and the mailbox's partition exists. -/
def mbxReady (h : Hw) (m : Mbx) : Bool :=
  h.efano.ready && (match m with | .part p => partExists h p | _ => true)

/-- The partition a mailbox's commands act for (R116, R721): the Steward's act for partition 0. -/
def actsFor : Mbx → Nat
  | .part p => p
  | _ => 0

/-- Payload limit of a frame (R124, R143). -/
def frameLimit : Mbx → Nat
  | .keeper => 1024
  | _ => 4096

/-- Bytes of the longest message (16 fragments). -/
def messageLimit (m : Mbx) : Nat := 16 * frameLimit m

/-! ### Frames -/

/-- The header of a response frame (Table 4.3). -/
def respHeader (tag frag cmd status detail plen session total seq accept : Nat) : List Byte :=
  leBytes 4 0x4F4E4645 ++ leBytes 1 4 ++ leBytes 1 2 ++ leBytes 1 tag ++ leBytes 1 frag ++ leBytes 2 cmd ++ leBytes 2 status
  ++ leBytes 2 detail ++ leBytes 2 plen ++ leBytes 4 session ++ leBytes 4 total ++ leBytes 8 seq ++ leBytes 8 accept ++ zeros 24

/-- Pieces of at most `n` bytes of a payload; an empty payload is one empty piece. -/
def pieces_ (n : Nat) : Nat → List Byte → List (List Byte)
  | 0, b => [b]
  | k + 1, b => if b.length ≤ n then [b] else b.take n :: pieces_ n k (b.drop n)

/-- The frames of a response: fragments under one tag (R125). `free`: acknowledging its last frame frees the tag. -/
def respFrames (m : Mbx) (r : Req) (status detail : Nat) (payload : List Byte) (free : Bool) : List Resp :=
  let ps := pieces_ (frameLimit m) 15 payload
  (List.range ps.length).map (fun i =>
    let p := ps.getD i []
    let lastF := decide (i + 1 = ps.length)
    { tag := r.tag, payload := p, last := free && lastF, bus := r.bus,
      hdr := respHeader r.tag (i + 128 * flag lastF) r.cmd status detail p.length r.session payload.length r.seq r.accept })

/-- Queue a response. -/
def sendResp (h : Hw) (m : Mbx) (r : Req) (status detail : Nat) (payload : List Byte) (free : Bool) : Hw :=
  let x := boxAt h m
  setBox h m { x with queue := x.queue ++ respFrames m r status detail payload free }

/-- Replace a request: the live one of its tag, or the one its closed session has left behind. -/
def setReq (x : Mbox) (r : Req) : Mbox :=
  { x with reqs := x.reqs.map (fun q =>
      if q.tag = r.tag ∧ q.orphan = r.orphan ∧ (r.orphan = false ∨ (q.seq = r.seq ∧ q.session = r.session)) then r else q) }

/-- The live request of a tag. -/
def findReq (x : Mbox) (tag : Nat) : Option Req := x.reqs.find? (fun q => decide (q.tag = tag) && !q.orphan)

/-- A request's final response: queued where its session still stands, and the tag waits for its acknowledgement (R122, R723). -/
def finalResp (h : Hw) (m : Mbx) (r : Req) (status detail : Nat) (payload : List Byte) : Hw :=
  let x := boxAt h m
  if r.orphan then setBox h m { x with reqs := x.reqs.filter (fun q => q ≠ r) }
  else sendResp (setBox h m (setReq x { r with ended := true, wait := .none })) m r status detail
    (if status = 0 then payload else []) true

/-! ### The outcome store (R153, R728) -/

/-- Commands that take no place in the outcome store. -/
def recorded (cmd : Nat) : Bool := decide (cmd ≠ 0x0102 ∧ cmd ≠ 0x0103)

/-- A command of the session has passed its commit point. One whose session has closed since its acceptance was entered then. -/
def addOutcome (h : Hw) (m : Mbx) (r : Req) : Hw :=
  let x := boxAt h m
  if recorded r.cmd && !r.orphan then
    setBox h m { x with outcomes := x.outcomes ++ [{ seq := r.seq, cmd := r.cmd, accept := r.accept }] }
  else h

/-- The outcome of a committed command is known: entered in its session's records, or in the previous session's (R129, R153). -/
def endOutcome (h : Hw) (m : Mbx) (r : Req) (status detail : Nat) : Hw :=
  let x := boxAt h m
  let upd (os : List Outcome) : List Outcome := os.map (fun o =>
    if o.seq = r.seq ∧ o.status = 1 then { o with status := status, detail := detail, done := h.tb.now } else o)
  if r.orphan then (if r.session = x.prevId then setBox h m { x with prev := upd x.prev } else h)
  else setBox h m { x with outcomes := upd x.outcomes }

/-- A command whose session closed after its acceptance was refused by its own checks: it never committed, and leaves no entry. -/
def dropOutcome (h : Hw) (m : Mbx) (r : Req) : Hw :=
  let x := boxAt h m
  if r.orphan ∧ r.session = x.prevId then
    setBox h m { x with prev := x.prev.filter (fun o => !decide (o.seq = r.seq ∧ o.status = 1)) }
  else h

/-! ### Sessions (R127 to R129) -/

/-- Commands whose commit point is their acceptance (the "Commit" column of Tables 24.2 to 24.14). -/
def commitsAtAcceptance (c : Nat) : Bool :=
  decide (c ∈ [0x0102, 0x0103, 0x0306, 0x0401, 0x0402, 0x0403, 0x0601, 0x0602, 0x0703, 0x0A03, 0x0A08, 0x0A10, 0x0A12, 0x0B02, 0x0B05, 0x0B09, 0x0B0C,
    0x0C02, 0x0C03, 0x0C05, 0x0C08, 0x0C09, 0x0C0A, 0x0C0B, 0x0C0C, 0x0C0D, 0x0D01, 0x0D04, 0x0D08, 0x0E02, 0x0E03, 0x0E04, 0x0E05, 0x0E06,
    0x0E08, 0x0E09, 0x0F03])

/-- Whether an accepted request that has not begun counts as past its commit point (R133). -/
def committedEarly (r : Req) : Bool := r.whole && !r.running && !r.begun && !r.ended && commitsAtAcceptance r.cmd

/-- Whether a request is one that a closed session, or a management restart, leaves to be carried out though it has not begun (R129, R133,
R151). A SESSION_OPEN or SESSION_CLOSE is not: all it would do is end the session that has ended. -/
def leftToRun (r : Req) : Bool := committedEarly r && recorded r.cmd

/-- The instant of a command's commit point (R133): its acceptance where that is its commit point, else now. -/
def commitTime (h : Hw) (r : Req) : Nat := if commitsAtAcceptance r.cmd then r.accept else h.tb.now

/-- Close a mailbox's session, keeping the request of one tag: its uncommitted commands are abandoned, committed ones run on without
a response, nothing more of the session is delivered, its tags are free (R122, R129), and its outcomes become the previous session's
(R153). What was sent without a session, and the answers to it, stay. -/
def closeSession (h : Hw) (m : Mbx) (keep : Option Nat) : Hw :=
  let x := boxAt h m
  let stays (r : Req) : Bool := r.orphan || decide (r.session ≠ x.session) || decide (some r.tag = keep)
  let early := if x.outcomes.length + x.reqs.length ≤ 4096 then x.reqs.filter (fun r => !stays r && leftToRun r) else []
  let rs := (x.reqs.filter (fun r => stays r || (r.begun && !r.ended) || decide (r ∈ early))).map (fun r =>
    if stays r then r else { r with orphan := true })
  let mine (q : Resp) : Bool := decide (leAt q.hdr 0x10 4 = x.session)
  setBox h m (if x.session = 0 then { x with lastSeq := none }
    else { x with session := 0, lastSeq := none, reqs := rs, queue := x.queue.filter (fun q => !mine q),
                  shown := x.shown.map (fun q => if mine q then { q with last := false } else q), prevId := x.session, prevKind := .kept,
                  prev := x.outcomes ++ early.map (fun r => { seq := r.seq, cmd := r.cmd, accept := r.accept }), outcomes := [] })

/-! ### Acceptance and checks 1 to 7 (R119, R125, R126, R131) -/

/-- Answer a request refused at acceptance. Its tag is outstanding until the answer is acknowledged, unless another request holds
that tag. -/
def refuseReq (h : Hw) (m : Mbx) (r : Req) (status detail : Nat) : Hw :=
  let x := boxAt h m
  match findReq x r.tag with
  | some _ => sendResp h m r status detail [] false
  | none => sendResp (setBox h m { x with reqs := x.reqs ++ [{ r with ended := true }] }) m r status detail [] true

/-- Fields of a request header (Table 4.3). -/
structure ReqHdr where
  magic   : Nat
  rev     : Nat
  kind    : Nat
  tag     : Nat
  frag    : Nat
  cmd     : Nat
  plen    : Nat
  session : Nat
  total   : Nat
  seq     : Nat
  timeout : Nat

/-- Read a header. -/
def readHdr (b : List Byte) : ReqHdr :=
  { magic := leAt b 0 4, rev := leAt b 4 1, kind := leAt b 5 1, tag := leAt b 6 1, frag := leAt b 7 1, cmd := leAt b 8 2,
    plen := leAt b 0x0E 2, session := leAt b 0x10 4, total := leAt b 0x14 4, seq := leAt b 0x18 8, timeout := leAt b 0x28 4 }

/-- Index and LAST of a fragment. -/
def fragIdx (f : ReqHdr) : Nat := f.frag % 16

/-- Whether a frame is its message's last. -/
def fragLast (f : ReqHdr) : Bool := bitOf f.frag 7

/-- Reserved fields of a request header (R124, step 5). -/
def hdrReserved (b : List Byte) (cmd : Nat) : Bool :=
  zeroAt b 0x0A 4 && zeroAt b 0x20 8 && zeroAt b 0x2C 20 && decide (leAt b 6 1 / 8 = 0) && decide (field (leAt b 7 1) 6 4 = 0)
  && (decide (cmd ≠ 0x0101 ∧ cmd ≠ 0x0102) || decide (leAt b 0x10 4 = 0))

/-- Commands sent without a session (R127). -/
def sessionless (cmd : Nat) : Bool := decide (cmd = 0x0101 ∨ cmd = 0x0102)

/-- Whether a header's frame is well formed: MAGIC, KIND, the doorbell's tag, its lengths (step 3). -/
def frameOk (m : Mbx) (f : ReqHdr) (bell got : Nat) : Bool :=
  decide (f.magic = 0x4F4E4645 ∧ f.kind = 1 ∧ f.tag % 8 = bell ∧ f.plen ≤ frameLimit m ∧ f.plen = got
    ∧ f.total ≤ messageLimit m ∧ f.plen ≤ f.total)

/-- Checks 4 to 7 of a whole request, after the length check of R719 (Table 4.4): 0 and 0 when all pass. `early`: a reserved field of an
earlier fragment's header was not zero. -/
def laterChecks (h : Hw) (m : Mbx) (f : ReqHdr) (hdr payload : List Byte) (early : Bool := false) : Nat × Nat :=
  match cmdInfo f.cmd with
  | none => (0x31, 0)
  | some i =>
    if !lenOk f.cmd payload then (0x20, 0x10)
    else if !roleOk m i then (0x20, 0x20)
    else if early || !(hdrReserved hdr f.cmd && reservedOk f.cmd payload) then (0x20, 0x21)
    else if notStarted h f.cmd then (0x10, 0)
    else if fencedBlock h m f.cmd payload then (0x60, 0)
    else (0, 0)

/-- Step 2 of Table 4.4: the detail BAD_VERSION is given with, none where it passes (R127, R131). -/
def versionBad (x : Mbox) (f : ReqHdr) : Option Nat :=
  if sessionless f.cmd then none
  else if x.session = 0 then some 1
  else if f.session ≠ x.session then some 2
  else if f.rev ≠ 4 then some 3
  else none

/-- Whether a fragment keeps R125: LAST comes with the last byte announced and is missing from no sixteenth fragment. `got` bytes have
come with it. -/
def fragOk (f : ReqHdr) (got : Nat) : Bool :=
  if fragLast f then decide (got = f.total) else decide (got ≤ f.total ∧ fragIdx f < 15)

/-- A continuation fragment is judged against its own set `q` (R125): a frame that is malformed in itself is refused and the set stands;
one that breaks the fragment rule ends the set. -/
def acceptNext (h : Hw) (m : Mbx) (hdr payload : List Byte) (bell : Nat) (r q : Req) : Hw :=
  let x := boxAt h m
  let f := readHdr hdr
  let all := q.payload ++ payload
  match versionBad x f with
  | some d => refuseReq h m r 0x30 d
  | none =>
    if !frameOk m f bell payload.length then refuseReq h m r 0x20 0x10
    else if fragIdx f ≠ q.frags ∨ f.cmd ≠ q.cmd ∨ f.seq ≠ q.seq ∨ f.total ≠ q.total ∨ fragOk f all.length = false then
      finalResp (setBox h m (setReq x { q with payload := [] })) m { q with payload := [] } 0x20 0x11 []
    else
      let q1 := { q with payload := all, frags := q.frags + 1, hdrBad := q.hdrBad || !hdrReserved hdr f.cmd }
      if fragLast f then
        let e := laterChecks h m f hdr all q1.hdrBad
        if e = (0, 0) then setBox h m (setReq x { q1 with whole := true }) else finalResp h m q1 e.1 e.2 []
      else setBox h m (setReq x q1)

/-- Accept one frame of a mailbox (R119): header bytes, payload bytes and the tag it was rung with. Step 3 judges the length of a
payload that is whole with the other lengths (R719), ahead of SEQ and TAG (log entry 56). -/
def acceptFrame (h : Hw) (m : Mbx) (hdr payload : List Byte) (bell : Nat) (bus : Option KeeperEnd) : Hw :=
  let x := boxAt h m
  let f := readHdr hdr
  let r : Req := { tag := bell, cmd := f.cmd, seq := f.seq, session := f.session, total := f.total, payload := payload, frags := 1,
                   accept := h.tb.now, timeout := f.timeout, bus := bus, hdrBad := !hdrReserved hdr f.cmd }
  match (findReq x bell).filter (fun q => !q.whole && !q.ended && decide (fragIdx f ≠ 0)) with
  | some q => acceptNext h m hdr payload bell r q
  | none =>
    if (cmdInfo f.cmd).isNone then refuseReq h m r 0x31 0
    else match versionBad x f with
    | some d => refuseReq h m r 0x30 d
    | none =>
      if !frameOk m f bell payload.length then refuseReq h m r 0x20 0x10
      else if fragLast f && decide (f.total = payload.length) && !lenOk f.cmd payload then refuseReq h m r 0x20 0x10
      else if fragIdx f ≠ 0 ∨ fragOk f payload.length = false then refuseReq h m r 0x20 0x11
      else if !sessionless f.cmd && (match x.lastSeq with | some s => decide (f.seq ≤ s) | none => false) then refuseReq h m r 0x20 0x12
      else if (findReq x bell).isSome then refuseReq h m r 0x11 0x13
      else
        let seqd (h : Hw) : Hw := if sessionless f.cmd then h else setBox h m { boxAt h m with lastSeq := some f.seq }
        if fragLast f then
          let e := laterChecks h m f hdr payload
          if e = (0, 0) then setBox (seqd h) m { boxAt (seqd h) m with reqs := x.reqs ++ [{ r with whole := true }] }
          else refuseReq (seqd h) m r e.1 e.2
        else setBox (seqd h) m { boxAt (seqd h) m with reqs := x.reqs ++ [r] }

/-! ### Doorbell, stand-in, acceptance, posting, acknowledgement -/

/-- Bytes `[off, off + n)` of a page. -/
def pageRead (t : Tab Byte) (off n : Nat) : List Byte := (List.range n).map (fun i => tabGet 0 t (off + i))

/-- Write bytes into a page. -/
def pageWrite (t : Tab Byte) : Nat → List Byte → Tab Byte
  | _, [] => t
  | k, b :: bs => pageWrite (tabPut 0 t k b) (k + 1) bs

/-- A stand-in answer (R130, R53): NOT_READY, STAND_IN; or INTERNAL_DOUBT, FUSE_FAIL. -/
def standInResp (h : Hw) (hdr : List Byte) (tag : Nat) (bus : Option KeeperEnd) : Resp :=
  let f := readHdr hdr
  let e : Nat × Nat := if fuseOk h then (0x10, 0x30) else (0xF0, 0x31)
  { tag := tag, payload := [], last := false, bus := bus,
    hdr := respHeader tag 0x80 f.cmd e.1 e.2 0 0 0 f.seq 0 }

/-- A store to MBX_DOORBELL (R118, R120, R130). -/
def ringDoorbell (h : Hw) (m : Mbx) (v : Nat) : Hw :=
  let x := boxAt h m
  if m = Mbx.keeper then h
  else if !mbxReady h m then
    if x.standIn.isSome then setBox h m { x with overrun := true }
    else setBox h m { x with standIn := some (standInResp h (pageRead x.reqHdr 0 64) (v % 8) none) }
  else if x.rung.isSome then setBox h m { x with overrun := true }
  else setBox h m { x with rung := some (v % 8) }

/-- Show a response frame in the mailbox and raise its interrupt entry (R121). -/
def showResp (h : Hw) (m : Mbx) (r : Resp) (f : Mbox → Mbox) : Hw :=
  let x := boxAt h m
  raise (setBox h m (f { x with rspHdr := pageWrite [] 0 r.hdr, rspPage := pageWrite x.rspPage 0 r.payload, valid := true,
                                shown := some r }))
    (actsFor m) x.irq

/-- The stand-in answer is posted once RSP_VALID is clear (R130). -/
def postStandIn (h : Hw) (m : Mbx) : Hw :=
  let x := boxAt h m
  match x.standIn with
  | some r => if x.valid then h else showResp h m r (fun y => { y with standIn := none })
  | none => h

/-- Cralu accepts the request a doorbell announced (R119). -/
def acceptRung (h : Hw) (m : Mbx) : Hw :=
  let x := boxAt h m
  match x.rung with
  | some t =>
    if mbxReady h m then
      let hdr := pageRead x.reqHdr 0 64
      acceptFrame (setBox h m { x with rung := none }) m hdr (pageRead x.reqPage 0 (min (readHdr hdr).plen 4096)) t none
    else h
  | none => h

/-- The tag of an acknowledged final response is free again (R122). -/
def freeTag (x : Mbox) (r : Resp) : Mbox :=
  if r.last then { x with reqs := x.reqs.filter (fun q => !(decide (q.tag = r.tag) && q.ended && !q.orphan)) } else x

/-- Cralu posts the next response (R121, R144). -/
def postResp (h : Hw) (m : Mbx) : Hw :=
  let x := boxAt h m
  match x.queue with
  | r :: rs =>
    if m = Mbx.keeper then setBox h m (freeTag { x with queue := rs, keeperOut := [r] } r)
    else if x.valid then h
    else showResp h m r (fun y => { y with queue := rs })
  | [] => h

/-- A store to MBX_RSP_ACK (R121). -/
def ackResp (h : Hw) (m : Mbx) : Hw :=
  let x := boxAt h m
  match x.shown with
  | some r => setBox h m (freeTag { x with valid := false, shown := none } r)
  | none => setBox h m { x with valid := false }

/-! ### Running a command -/

/-- What a command's own part answers: status, detail, payload, whether it passed its commit point, and what it still waits for. -/
structure Reply where
  status  : Nat := 0
  detail  : Nat := 0
  payload : List Byte := []
  commit  : Bool := false
  wait    : Wait := .none
  closes  : Bool := false   -- it closes its own session (R727)
  again   : Bool := false   -- further steps are left: its row is presented again
  after   : HM → HM := id   -- what follows once it has: a reset of the package, of Cralu or of its own partition

/-- A refusal by a command's own checks. -/
def deny (status detail : Nat) : Reply := { status := status, detail := detail }

/-- A state-changing command that completes DONE. -/
def doneC (payload : List Byte := []) : Reply := { payload := payload, commit := true }

/-- A query that completes DONE. -/
def doneQ (payload : List Byte) : Reply := { payload := payload }

/-- The oldest request of a mailbox that has not begun (R135); one whose session has closed still runs where its acceptance was its
commit point (R133). -/
def nextReq (x : Mbox) : Option Req :=
  x.reqs.find? (fun q => q.whole && !q.running && !q.begun && !q.ended && !q.again && (!q.orphan || commitsAtAcceptance q.cmd))

/-- The resources a request names, as pairs of a kind and a number (R136): the units of Table 19.3, then partitions, objects, pools,
firmware images, islands, and the package. -/
def resources (m : Mbx) (c : Nat) (b : List Byte) : List (Nat × Nat) :=
  namedUnits c b ++ (match partField c b with | some p => [(0x100, p)] | none => []) ++
  (if c / 256 = 4 ∧ c ≠ 0x0405 then [(0x101, 1024 * actsFor m + leAt b 0 2)]
   else if 0x0702 ≤ c ∧ c ≤ 0x0704 then [(0x102, 64 * actsFor m + leAt b 0 1)]
   else if c = 0x0902 then (List.range (leAt b 2 2)).map (fun i => (0x200 + leAt b 0 1, leAt b 4 4 + i))
   else if c ∈ [0x0A05, 0x0A06, 0x0E02] then [(leAt b 0 1, leAt b 4 4)]
   else if c ∈ [0x0F02, 0x0F03, 0x0F04] then [(0x103, leAt b 0 1)]
   else if c = 0x0E03 ∨ c = 0x0E04 then [(0x104, 0)]
   else [])

/-- Whether another mailbox holds a request that was accepted before this one, or at the same instant in a lower mailbox, has not begun,
and names a resource this one names (R136). -/
def elderWaits (h : Hw) (m : Mbx) (r : Req) : Bool :=
  (List.range 19).any (fun k => decide (k ≠ mbxKey m) && (tabGet {} h.efano.boxes k).reqs.any (fun q =>
    q.whole && !q.running && !q.begun && !q.ended && (!q.orphan || commitsAtAcceptance q.cmd)
    && (decide (q.accept < r.accept) || (decide (q.accept = r.accept) && decide (k < mbxKey m)))
    && (resources (mbxOf k) q.cmd q.payload).any (fun u => decide (u ∈ resources m r.cmd r.payload))))

/-- Deadline of a request in ns (R138). -/
def deadline (r : Req) : Nat :=
  let mx := match cmdInfo r.cmd with | some i => i.maxUs | none => 10000
  let us := if mx < 1000 then mx else if r.timeout = 0 then mx else min mx (max 1000 r.timeout)
  r.accept + 1000 * us

/-- Whether a request's deadline has passed before its commit point (R139). -/
def expired (h : Hw) (r : Req) : Bool := !commitsAtAcceptance r.cmd && decide (h.tb.now > deadline r)

/-- A command that has committed with steps left is presented again: they go on, and it then completes or waits (R133). -/
def resume (hm : HM) (m : Mbx) (tag code : Nat) (f : HM → Req → HM × Reply) : HM :=
  match (boxAt hm.1 m).reqs.find? (fun r => r.again && !r.ended && decide (r.tag = tag ∧ r.cmd = code)) with
  | some r =>
    let o := f hm r
    if !mbxReady hm.1 m then hm
    else if o.2.again then o.1
    else
      let r1 := { r with again := false, wait := o.2.wait, reply := o.2.payload }
      let h1 := setBox o.1.1 m (setReq (boxAt o.1.1 m) r1)
      if o.2.wait = Wait.none then (finalResp (endOutcome h1 m r1 o.2.status o.2.detail) m r1 o.2.status o.2.detail o.2.payload, o.1.2)
      else (h1, o.1.2)
  | none => hm

/-- Run the command of a tag: it is the oldest accepted request that has not begun, of that code, and no elder request of another mailbox
names what it names (R135, R136). While an MR is in course, a command it found committed in the journal is completed (R151). A refusal leaves no effect; a full outcome store refuses a command that would commit (R724). -/
def serve (hm : HM) (m : Mbx) (tag code : Nat) (f : HM → Req → HM × Reply) : HM :=
  match nextReq (boxAt hm.1 m) with
  | some r =>
    if r.tag = tag ∧ r.cmd = code ∧ (mbxReady hm.1 m || (r.orphan && hm.1.efano.mr.isSome)) ∧ elderWaits hm.1 m r = false then
      if expired hm.1 r then (finalResp hm.1 m { r with payload := [] } 0x80 0 [], hm.2)
      else
      let o := f hm r
      if o.2.commit && recorded code && !r.orphan && decide ((boxAt hm.1 m).outcomes.length ≥ 4096) then (finalResp hm.1 m r 0x11 0x1FF [], hm.2)
      else if o.2.commit then
        let r1 := { r with begun := true, commit := commitTime hm.1 r, wait := o.2.wait, reply := o.2.payload }
        let h1 := addOutcome (setBox o.1.1 m (setReq (boxAt o.1.1 m) r1)) m r1
        if o.2.closes then
          if r.orphan then o.2.after (finalResp (endOutcome h1 m r1 0 0) m r1 0 0 [], o.1.2)
          else
            let h2 := closeSession (endOutcome h1 m r1 0 0) m none
            let y := boxAt h2 m
            let hm3 := o.2.after (setBox h2 m { y with reqs := y.reqs.filter (fun q => q ≠ { r1 with orphan := true }) }, o.1.2)
            let z := boxAt hm3.1 m
            (setBox hm3.1 m { z with queue := z.queue ++ respFrames m r1 1 0 [] false }, hm3.2)
        else if o.2.again then
          (setBox h1 m (setReq (boxAt h1 m) { r1 with again := true }), o.1.2)
        else if o.2.wait = Wait.none then
          (finalResp (endOutcome h1 m r1 o.2.status o.2.detail) m r1 o.2.status o.2.detail o.2.payload, o.1.2)
        else (h1, o.1.2)
      else if o.2.wait ≠ Wait.none then
        (setBox o.1.1 m (setReq (boxAt o.1.1 m) { r with running := true, wait := o.2.wait, reply := o.2.payload }), o.1.2)
      else (finalResp (dropOutcome o.1.1 m r) m r o.2.status o.2.detail o.2.payload, o.1.2)
    else resume hm m tag code f
  | none => resume hm m tag code f

/-- The mailboxes. -/
def allMbx : List Mbx := (List.range 19).map mbxOf

/-- Every command whose wait a test accepts completes with a status (R133). One that had not reached its commit point commits with
DONE; with any other status it has had no effect (R139). -/
def endWaits (h : Hw) (p : Req → Bool) (status detail : Nat) : Hw :=
  allMbx.foldl (fun h m => (boxAt h m).reqs.foldl (fun h r =>
    if (r.begun || r.running) && !r.ended && decide (r.wait ≠ Wait.none) && p r then
      if r.begun then finalResp (endOutcome h m r status detail) m r status detail r.reply
      else if expired h r then finalResp h m { r with payload := [] } 0x80 0 []
      else if status = 0 then
        let r1 := { r with begun := true, commit := commitTime h r }
        finalResp (endOutcome (addOutcome (setBox h m (setReq (boxAt h m) r1)) m r1) m r1 0 0) m r1 0 0 r1.reply
      else finalResp h m { r with payload := [] } status detail []
    else h) h) h

/-- Whether some command in course waits as a test says. -/
def waitsFor (h : Hw) (p : Wait → Bool) : Bool :=
  allMbx.any (fun m => (boxAt h m).reqs.any (fun r => (r.begun || r.running) && !r.ended && p r.wait))

/-- Set the payload that the final response of a waiting command will carry. -/
def replyFor (h : Hw) (p : Wait → Bool) (payload : List Byte) : Hw :=
  allMbx.foldl (fun h m => let x := boxAt h m
    if x.reqs.any (fun r => p r.wait) then setBox h m { x with reqs := x.reqs.map (fun r => if p r.wait then { r with reply := payload } else r) }
    else h) h

/-- Change the waits of every committed command. -/
def mapReqs (h : Hw) (f : Req → Req) : Hw :=
  allMbx.foldl (fun h m => let x := boxAt h m; if x.reqs.isEmpty then h else setBox h m { x with reqs := x.reqs.map f }) h

/-- A request's deadline passes before its commit point (R139): TIMEOUT without side effect; an incomplete fragment set too. -/
def timeoutReq (h : Hw) (m : Mbx) (tag : Nat) : Hw :=
  match findReq (boxAt h m) tag with
  | some r =>
    if r.begun || r.ended || committedEarly r then h
    else finalResp (advanceTo h (deadline r)) m { r with payload := [] } 0x80 0 []
  | none => h

/-- A committed command not complete 100 us after its commit point receives ACCEPTED (R134); one whose commit point was its acceptance,
whether or not it has begun. -/
def interimReq (h : Hw) (m : Mbx) (tag : Nat) : Hw :=
  match findReq (boxAt h m) tag with
  | some r =>
    if (r.begun || committedEarly r) && !r.ended && !r.interim then
      let h1 := advanceTo h ((if r.begun then r.commit else r.accept) + 100000)
      sendResp (setBox h1 m (setReq (boxAt h1 m) { r with interim := true })) m r 1 0 [] false
    else h
  | none => h

/-! ### Session commands (Table 24.2) -/

/-- VERSION_GET (R127). -/
def versionGet (m : Mbx) (hm : HM) (_ : Req) : HM × Reply :=
  (hm, doneQ (leBytes 4 0x10 ++ leBytes 8 ((hm.1.edges.fw.getD hm.1.edges.active {}).version) ++ leBytes 2 (frameLimit m)
    ++ leBytes 1 16 ++ leBytes 1 8))

/-- A SESSION_ID from a random number: not zero and none of the mailbox's earlier ones since CP (R128). -/
def sessionId (used : List Nat) (v : Nat) : Nat :=
  ((List.range (used.length + 2)).map (fun i => (v + i) % 2 ^ 32)).find? (fun c => decide (c ≠ 0) && decide (c ∉ used)) |>.getD 1

/-- SESSION_OPEN (R128): any session is closed, and a fresh random SESSION_ID returned; the response belongs to the new
session (R729). -/
def sessionOpen (hm : HM) (m : Mbx) (tag : Nat) : HM :=
  match nextReq (boxAt hm.1 m) with
  | some r =>
    if r.tag = tag ∧ r.cmd = 0x0102 ∧ mbxReady hm.1 m then
      if leAt r.payload 0 1 ≠ 4 then (finalResp hm.1 m r 0x30 3 [], hm.2)
      else
        let h1 := closeSession hm.1 m (some tag)
        let v := takeFree h1
        let id := sessionId (boxAt v.2 m).sessions v.1.toNat
        let h2 := setBox v.2 m { boxAt v.2 m with session := id, sessions := id :: (boxAt v.2 m).sessions, lastSeq := none }
        (finalResp h2 m { r with session := id, begun := true } 0 0 (leBytes 4 id ++ leBytes 4 h2.efano.epoch.toNat), hm.2)
    else hm
  | none => hm

/-- SESSION_CLOSE (R129, R729): its response is the session's last. -/
def sessionClose (hm : HM) (m : Mbx) (tag : Nat) : HM :=
  match nextReq (boxAt hm.1 m) with
  | some r =>
    if r.tag = tag ∧ r.cmd = 0x0103 ∧ mbxReady hm.1 m then
      (finalResp (closeSession hm.1 m (some tag)) m { r with begun := true } 0 0 [], hm.2)
    else hm
  | none => hm

/-- A paged list (R725): entries from FROM onward, at most MAX (0: as many as fit), within the bytes a response may hold after its
fixed part. Answers LIST and the entries. -/
def paged (m : Mbx) (fixed each : Nat) (from_ mx : Nat) (es : List (List Byte)) : List Byte :=
  let fit := (messageLimit m - fixed - 8) / max 1 each
  let n := min (if mx = 0 then fit else min mx fit) (es.length - from_)
  let next := if from_ + n < es.length then from_ + n else 0xFFFFFFFF
  leBytes 4 n ++ leBytes 4 next ++ ((es.drop from_).take n).flatten

/-- One entry of OUTCOME_GET. -/
def outcomeBytes (o : Outcome) : List Byte :=
  leBytes 8 o.seq ++ leBytes 2 o.cmd ++ leBytes 2 o.status ++ leBytes 2 o.detail ++ zeros 2 ++ leBytes 8 o.accept ++ leBytes 8 o.done

/-- OUTCOME_GET (R153, R728). -/
def outcomeGet (m : Mbx) (hm : HM) (r : Req) : HM × Reply :=
  let x := boxAt hm.1 m
  let fl := match x.prevKind with | .none => 2 | .wiped => 1 | .kept => 0
  let es := if x.prevKind = PrevKind.kept then x.prev else []
  (hm, doneQ (leBytes 4 x.prevId ++ leBytes 1 fl ++ zeros 3
    ++ paged m 8 32 (leAt r.payload 0 4) (leAt r.payload 4 2) (es.map outcomeBytes)))

end Sys2Proof.Machine
end

