-- ==== Sys2Proof/Machine/Scrub.lean ====
section
/-! DEFINITION. Revocation and scrub of ownable resources (R85, R97 to R102, R735): what each kind clears, the scrub records
(R103), and the end of a scrub. -/
namespace Sys2Proof.Machine

/-! ### Kinds of resource (Table 3.6) -/

/-- Units of each kind on a package (Table 3.1, Table 24.1). -/
def unitCount (kind : Nat) : Nat :=
  match kind with
  | 2 => 16 | 3 => 128 | 4 => 34 | 5 => 1024 | 6 => 1024 | 7 => 4096 | 8 => 512 | 9 => 131072 | 10 => 32 | 11 => 8 | 12 => 18
  | _ => 0

/-- Empty one cache (its lines and its replacement state). -/
def emptyCache (h : Hw) (cache : Nat) : Hw :=
  { h with coh := { h.coh with caches := tabClear h.coh.caches (fun k => decide (k / 2 ^ 20 = cache)) } }

/-- A caching agent no longer holds any line, nor asks for one. -/
def dropAgent (h : Hw) (ag : Agent) : Hw :=
  let f (e : DirEntry) : DirEntry :=
    let q := e.queue.filter (fun r => decide (r.agent ≠ ag))
    let e0 : DirEntry := { e with queue := q, busy := e.busy && !(q.isEmpty && e.awaits.isEmpty) }
    let e1 : DirEntry := match agentBit ag with | some b => { e0 with locals := setField e0.locals b b 0 } | none => e0
    if e1.owner = some ag then { queue := e1.queue, busy := e1.busy, awaits := e1.awaits } else e1
  { h with coh := { h.coh with dir := tabMap {} h.coh.dir (fun _ e => f e) } }

/-- The MSHRs of an agent's caches are free. -/
def dropMshrs (h : Hw) (ag : Agent) : Hw := { h with coh := { h.coh with mshrs := tabClear h.coh.mshrs (agentCache ag) } }

/-- A cluster's caches are emptied, with the lines of other packages it obtained (R104, Table 3.6); with `write` dirty ones go home
first. -/
def emptyCluster (h0 : Hw) (c : Nat) (write : Bool) : Hw :=
  let h := dropMshrs (dropClusterProxies h0 c write) (.l3 c)
  let h1 := (List.range 8).foldl (fun h k =>
    let n := 8 * c + k
    emptyCache (emptyCache (emptyCache h n) (128 + n)) (256 + n)) h
  dropAgent (emptyCache h1 (384 + c)) (.l3 c)

/-- A shelf slice's cache is emptied. -/
def emptyShelf (h : Hw) (slot : Nat) : Hw :=
  sweepSlice (dropAgent (emptyCache (dropMshrs h (.slice slot)) (400 + slot)) (.slice slot)) slot

/-! ### Gating and waking (Table 2.4, R71, R73, R75) -/

/-- What gating loses (R75): caches, bobbins, slice data and finisher state; registers are kept. -/
def gateLoss (h : Hw) (i : Island) : Hw :=
  match i.kind with
  | .cluster => emptyCluster h i.idx true
  | .quad => dropBobbins h i.idx
  | .ferryGroup => emptyCache h (440 + i.idx)
  | .cFerry => emptyCache h (472 + i.idx)
  | .shelf => emptyShelf h i.idx
  | _ => h

/-- GATE (R75): 100 ns after the end of drain the clock stops and power is removed; the response to the request that gated a quad reports
that its bobbin contents are lost. -/
def gateIsland (h : Hw) (i : Island) : Hw :=
  let x := islandAt h i
  match x.power with
  | .drained td => gateLoss (setIsland (advanceTo h (td + 100)) i
      { x with power := .gated, hasTb := false, gateLost := decide (i.kind = IslandKind.quad) }) i
  | _ => h

/-- WAKE_REQUESTED (R73): power returns; a request between the end of drain and the gate waits for the gate. DESIGN CHOICE (log entry
79): a request that comes while the island still closes (t0 to td) is not settled by the spec and is dropped; the power-down goes on. -/
def wakeIsland (h : Hw) (i : Island) : Hw :=
  let go (h : Hw) : Hw := setIsland h i { islandAt h i with power := .waking h.tb.now }
  match (islandAt h i).power with
  | .gated => go h
  | .drained _ => go (gateIsland h i)
  | _ => h

/-- `n` sync markers pass. -/
def passMarkers : Nat → Hw → Hw
  | 0, h => h
  | n + 1, h => passMarkers n (syncMarker h)

/-- An island is made to run before a command goes on (chapter 2, When things fall together): a gated one wakes by Table 2.4, with the six
sync markers of that time, from which it takes the time base (R71); one that closes is let abandon its power-down (R74, log entry 79). -/
def wakeWhole (h : Hw) (i : Island) : Hw :=
  match (islandAt h i).power with
  | .open => h
  | .closing t0 => reopen (advanceTo h (t0 + 5000)) i
  | _ => reopen (passMarkers 6 (wakeIsland h i)) i

/-- A cluster's harts return to their reset state: registers, CSRs, interrupt files, caches. -/
def resetCluster (h : Hw) (c : Nat) : Hw :=
  let h1 := { h with harts := tabClear h.harts (fun n => decide (n / 8 = c)),
                     imsic := tabClear h.imsic (fun k => decide (k / 2048 / 8 / 8 = c)) }
  emptyCluster h1 c false

/-- A hart starts in M-mode at the reset vector of its partition (R187, R190's reset of Smrnmi: NMIE is clear). -/
def bootHart (h : Hw) (n vec : Nat) : Hw :=
  setHart h n { hartAt h n with run := .running, mode := 3, virt := false, pc := vec, startPc := w64 (vec / 4 * 4) }

/-- Every hart of a cluster starts at the reset vector its partition set with PART_CONFIG (R187). -/
def startCluster (h : Hw) (c : Nat) : Hw :=
  let p := unitHolder h 2 c
  if p ≤ 16 then (List.range 8).foldl (fun h k => bootHart h (8 * c + k) (partAt h p).resetVec) h else h

/-- A quad's looms and finisher return to their reset state: banks, mode registers, configuration. -/
def clearQuad (h : Hw) (q : Nat) : Hw :=
  { h with weaves := { h.weaves with looms := tabClear h.weaves.looms (fun n => decide (n / 4 = q)),
                                     fmode := tabPut 0 h.weaves.fmode q 0 } }

/-- A ferry group's front-end caches and arbiters are cleared; descriptor stores and extents go with the slips' descriptors. -/
def clearGroup (h : Hw) (g : Nat) : Hw :=
  let h1 := emptyCache h (440 + g)
  { h1 with eng := { h1.eng with fetchArb := tabClear h1.eng.fetchArb (fun f => decide (f / 8 = g)),
                                 dispArb := tabClear h1.eng.dispArb (fun f => decide (f / 8 = g)) } }

/-- A slip returns to its reset state: registers, pointers, descriptors, and the waits they hold. -/
def clearSlip (h : Hw) (s : Nat) : Hw :=
  let h1 := withdrawWaits h s (fun _ => true)
  setSlip { h1 with weaves := { h1.weaves with runs := h1.weaves.runs.filter (fun r => r.slip ≠ s) } } s {}

/-- A range of 256 knots returns to its reset state (R482); waits on them end BROKEN. -/
def clearKnots (h : Hw) (r : Nat) : Hw :=
  let h1 := (h.sync.knots.filter (fun e => decide (e.1 / 256 = r) && !e.2.waiters.isEmpty)).foldl (fun h e => breakKnot h e.1) h
  { h1 with sync := { h1.sync with knots := tabClear h1.sync.knots (fun n => decide (n / 256 = r)) } }

/-- A range of 16 ledger entries returns to zero (R512). -/
def clearLedgers (h : Hw) (r : Nat) : Hw :=
  { h with sync := { h.sync with ledgers := tabClear h.sync.ledgers (fun n => decide (n / 16 = r)) } }

/-- Lines in one way of a slot's shelf cache are invalidated (R266). -/
def clearWay (h : Hw) (slot w : Nat) : Hw :=
  let t := tabMap {} h.coh.caches (fun k c => if k / 2 ^ 20 = 400 + slot then { c with tags := c.tags.set w none } else c)
  sweepSlice { h with coh := { h.coh with caches := t } } slot

/-- A function is reset and its interface stopped (Table 3.6). -/
def clearFunc (h : Hw) (f : Nat) : Hw :=
  let x := tabGet {} h.edges.funcs f
  let y : Func := { x with tdisp := .unlocked, ide := 0, stream := 0, resets := x.resets + 1, bars := [] }
  { h with edges := { h.edges with funcs := tabPut {} h.edges.funcs f y } }

/-- A swatch's stored bytes after its scrub: zero, with every poison mark cleared (R98, R341); after KEY the array still holds the
former ciphertext, which no key opens. -/
def clearSwatch (hm : HM) (k : Nat) (key zero : Bool) : HM :=
  let h := clearSwatchPoison hm.1 k
  let s := swGet h k
  let h1 := { h with sel := { h.sel with written := tabClear h.sel.written (fun l => decide (swatchOf (l * 64) = k)) },
                     coh := { h.coh with unknown := tabClear h.coh.unknown (fun l => decide (swatchOf (l * 64) = k)) } }
  (setSwatch h1 k { s with fresh := !zero, keyed := key && !zero, lost := 0, clean := h.free }, memZero hm.2 (k * 2 ^ 21) (2 ^ 21))

/-- What the scrub of one unit clears (Table 3.6). -/
def clearUnit (hm : HM) (kind idx : Nat) (key zero : Bool) : HM :=
  match kind with
  | 1 => clearSwatch hm idx key zero
  | 2 => (resetCluster hm.1 idx, hm.2)
  | 3 => (clearQuad (loseBobbins hm.1 idx) idx, hm.2)
  | 4 => (clearGroup hm.1 idx, hm.2)
  | 5 => (clearSlip hm.1 idx, hm.2)
  | 6 => (clearKnots hm.1 idx, hm.2)
  | 7 => (clearLedgers hm.1 idx, hm.2)
  | 8 => (clearWay hm.1 (idx / 16) (idx % 16), hm.2)
  | 9 => (clearFunc hm.1 idx, hm.2)
  | _ => hm

/-! ### Revocation (R85) -/

/-- Dispatched descriptors at work on a quad: those that move data into or out of its bobbins, and weaves, finishing descriptors and
verifies of its looms or its finisher, begun or not. Slip and sequence number. -/
def quadUsers (h : Hw) (q : Nat) : List (Nat × W32) :=
  let uses (d : Desc) : Bool :=
    let b := d.bytes
    let mine (w : Nat) : Bool := decide (field w 28 20 / 4 = q)
    decide (d.phase = Phase.dispatched ∨ d.phase = Phase.waiting) &&
      (match opcode d with
       | 0x10 => (decide (leAt b 0x28 1 = 1) && mine (leAt b 0x10 8)) || (decide (leAt b 0x29 1 = 1) && mine (leAt b 0x18 8))
       | 0x11 => decide (leAt b 0x29 1 = 1) && mine (leAt b 0x18 8)
       | 0x14 => mine (leAt b 0x28 2 % 512 * 2 ^ 20)
       | 0x15 => decide (leAt b 0x1C 1 = 1) && mine (leAt b 0x28 2 % 512 * 2 ^ 20)
       | 0x40 => (wMembers d).any (fun m => decide (m / 4 = q))
       | op => decide (0x50 ≤ op ∧ op ≤ 0x78 ∧ fQuad d = q))
  h.eng.slips.flatMap (fun e => (e.2.descs.filter uses).map (fun d => (e.1, d.seq)))

/-- Whether a unit is running (R100). -/
def unitRunning (h : Hw) (kind idx : Nat) : Bool :=
  match kind with
  | 2 => (List.range 8).any (fun k => decide ((hartAt h (8 * idx + k)).run = HartRun.running))
  | 3 => !(quadRuns h idx).isEmpty || !(quadUsers h idx).isEmpty
  | 4 => h.eng.slips.any (fun e => decide (e.2.group = idx) && slipEnabled e.2 &&
           e.2.descs.any (fun d => decide (d.phase = Phase.staged ∨ d.phase = Phase.walking) || inFlight d))
  | _ => false

/-- Descriptors at work on a quad complete HALTED, reason FORCED (R100, Table 13.13). -/
def haltQuad (h : Hw) (q : Nat) : Hw :=
  ((quadRuns h q).map (fun r => (r.slip, r.seq)) ++ quadUsers h q).eraseDups.foldl (fun h r =>
    match findDesc (slipAt h r.1) r.2 with
    | some d => endDesc h r.1 d 0x09 0x2A
    | none => h) h

/-- The slips a ferry group serves stop as it leaves their partition (R735). -/
def unserve (h : Hw) (g : Nat) : Hw :=
  (h.eng.slips.filter (fun e => decide (e.2.group = g) && slipEnabled e.2)).foldl (fun h e => stopUnserved h e.1) h

/-- Lock groups a test accepts end with the ownership or the reset of their quads. One that still forms has a committed LOCK_GROUP_SET,
which runs to its completion (R129, R133): its lock forms at that instant, and then ends (log entry 38). -/
def dissolveLocks (h : Hw) (p : LockGroup → Bool) : Hw :=
  let h1 := (h.locks.filter (fun g => p g && !g.locked)).foldl (fun h g => endWaits h (fun r => decide (r.wait = Wait.lock g.die g.first)) 0 0) h
  { h1 with locks := h1.locks.filter (fun g => !p g) }

/-- A unit is taken from its owner: what it runs ends, cached lines go, and its entry admits only the scrub engine (R85, R100). -/
def revokeUnit (h : Hw) (kind idx : Nat) : Hw :=
  match kind with
  | 1 =>
    let s := swGet h idx
    setSwatch (forgetLines h (fun l => decide (swatchOf (l * 64) = idx))) idx { s with state := .scrubbing, rdOnly := false, grant := none }
  | 2 => setUnit { h with harts := tabMap {} h.harts (fun n x => if n / 8 = idx then { x with run := .off } else x) } 2 idx
           { unitAt h 2 idx with state := .scrubbing }
  | 3 =>
    let h1 := dissolveLocks (haltQuad h idx) (fun g => decide (g.die = idx / 32 ∧ g.first ≤ idx % 32 ∧ idx % 32 < g.first + g.size))
    setUnit h1 3 idx { unitAt h 3 idx with state := .scrubbing }
  | 4 => setUnit (unserve h idx) 4 idx { unitAt h 4 idx with state := .scrubbing }
  | k => setUnit h k idx { unitAt h k idx with state := .scrubbing }

/-- The gateable island whose storage a unit is (Table 2.1). -/
def scrubIsland (kind idx : Nat) : Option Island :=
  match kind with
  | 2 => some { kind := .cluster, idx := idx }
  | 3 => some { kind := .quad, idx := idx }
  | 4 => some (if idx < 32 then { kind := .ferryGroup, idx := idx } else { kind := .cFerry, idx := idx - 32 })
  | 8 => some { kind := .shelf, idx := idx / 16 }
  | _ => none

/-- Reassignment wakes a gated island first (chapter 2, When things fall together). -/
def wakeFor (h : Hw) (kind idx : Nat) : Hw :=
  match scrubIsland kind idx with
  | some i => wakeWhole h i
  | none => h

/-- Lines read back by a ZERO scrub of `n` swatches: one in every 4 KiB granule (R98). -/
def samplesOf (kind method n : Nat) : Nat := if kind = 1 ∧ method = 1 then 512 * n else 0

/-- Begin the scrub of units of one kind (R97): they are revoked and a scrub record is opened. Answers its REPORT_SEQ. -/
def beginScrub (h : Hw) (kind : Nat) (units : List Nat) (from_ method : Nat) (grant : Option Nat) (zero : Bool) (hidden : Bool := false) : Nat × Hw :=
  let h1 := units.foldl (fun h i => revokeUnit (wakeFor h kind i) kind i) h
  let r : ScrubRec := { seq := h1.sel.scrubSeq, from_ := from_, method := method, kind := kind,
                        first := if kind = 1 then units.headD 0 * 2 ^ 21 else units.headD 0, units := units, startTb := h.tb.now,
                        position := h.ident.position, grant := grant, zero := zero, hidden := hidden,
                        samples := samplesOf kind method units.length }
  (r.seq, { h1 with sel := { h1.sel with scrubs := r :: h1.sel.scrubs, scrubSeq := r.seq + 1 } })

/-- A unit whose scrub has ended becomes FREE, or passes to the partition it was scrubbed for (R83, R99). -/
def freeUnit (h : Hw) (kind idx : Nat) (grant : Option Nat) : Hw :=
  match kind with
  | 1 =>
    let s := swGet h idx
    setSwatch h idx (match grant with
      | some p => { s with owner := p, state := .owned, failed := false, grant := some h.tb.now }
      | none => { s with owner := 31, state := .free, failed := false })
  | k =>
    setUnit h k idx (match grant with
      | some p => { owner := p, state := .owned }
      | none => {})

/-- Replace a scrub record. -/
def setScrub (h : Hw) (r : ScrubRec) : Hw :=
  { h with sel := { h.sel with scrubs := h.sel.scrubs.map (fun x => if x.seq = r.seq then r else x) } }

/-- A scrub record by its REPORT_SEQ. -/
def findScrub (h : Hw) (seq : Nat) : Option ScrubRec := h.sel.scrubs.find? (fun r => decide (r.seq = seq))

/-- A KEY scrub retires the keys of the partition it takes from (R96, R98). -/
def retireKeys (h : Hw) (r : ScrubRec) : Hw :=
  if r.method = 2 ∧ r.from_ ≤ 16 then setPart h r.from_ { partAt h r.from_ with farKey := 0, nearKey := 0 } else h

/-- The units of a scrub that passed are cleared and freed. -/
def passScrub (hm : HM) (r : ScrubRec) (units : List Nat) : HM :=
  units.foldl (fun hm i =>
    let o := clearUnit hm r.kind i (decide (r.method = 2)) r.zero
    (freeUnit o.1 r.kind i r.grant, o.2)) (retireKeys hm.1 r, hm.2)

/-- Whether the full scrub of BENCH_ENTER leaves a swatch alone: partition 0 owns it (R113). -/
def stewards (h : Hw) (k : Nat) : Bool := decide ((swGet h k).owner = 0 ∧ (swGet h k).state = SwState.owned)

/-- The full scrub of BENCH_ENTER takes every swatch of regions 0 to 2 that partition 0 does not own, CACHE ones with the lines they hold,
and revokes every such unit (R85, R113). DESIGN CHOICE (log entry 92): R113 has BENCH_ENTER scrub everything that partition 0 does not own and
does not name CACHE swatches, which only SHELF_SPLIT_SET moves otherwise (R262); they leave CACHE with the rest. -/
def beginAll (h : Hw) : Nat × Hw :=
  let h0 := forgetLines ((List.range 32).foldl emptyShelf h) (fun l => decide (regionOf (l * 64) ≤ 2) && !stewards h (swatchOf (l * 64)))
  let t := tabMap { state := SwState.scrubbing } h0.sel.swatches (fun k s => if stewards h k then s else { s with state := .scrubbing, owner := 31 })
  let h1 := { h0 with sel := { h0.sel with base := .scrubbing, swatches := t }, coh := { h0.coh with split := [] } }
  let r : ScrubRec := { seq := h.sel.scrubSeq, from_ := 0xFF, method := 1, kind := 1, startTb := h.tb.now, position := h.ident.position,
                        all := true, zero := true, hidden := true }
  (r.seq, { h1 with sel := { h1.sel with scrubs := r :: h1.sel.scrubs, scrubSeq := r.seq + 1 } })

/-- The full scrub ends: those swatches are zero and FREE, and every unit of Table 3.6 that partition 0 does not own is cleared, but for a
unit whose scrub failed (R102, R113). -/
def passAll (hm : HM) (bad : Option (Nat × Nat)) : HM :=
  let h := hm.1
  let keep (k : Nat) : Bool := stewards h k || decide (bad = some (1, k))
  let coh := { h.coh with unknown := tabClear h.coh.unknown (fun l => !keep (l / 32768)),
                          swPoison := tabClear h.coh.swPoison (fun k => !keep k), poison := tabClear h.coh.poison (fun l => !keep (l / 32768)) }
  let left : Tab Swatch := h.sel.swatches.filter (fun e => stewards h e.1)
  let sel := { h.sel with base := .free,
                          swatches := (match bad with
                            | some (1, k) => tabPut { state := SwState.free } left k { state := .scrubbing }
                            | _ => left),
                          written := tabClear h.sel.written (fun l => !keep (l / 32768)) }
  let h1 := { h with sel := sel, coh := coh }
  let m1 := tabClear hm.2 (fun a => !keep (a / 2 ^ 21))
  [2, 3, 4, 5, 6, 7].foldl (fun hm kind =>
    ((List.range (unitCount kind)).filter (fun i => decide ((unitAt hm.1 kind i).owner ≠ 0 ∧ bad ≠ some (kind, i)))).foldl
      (fun hm i => clearUnit hm kind i false true) hm)
    ({ h1 with edges := { h1.edges with funcs := tabMap {} h1.edges.funcs (fun f x => if (unitAt h 9 f).owner = 0 then x
        else { x with tdisp := .unlocked, ide := 0, stream := 0, resets := x.resets + 1, bars := [] }) } }, m1)

/-- A unit's scrub has failed (R102): it stays in SCRUBBING and the unit is Fenced, with SCRUB_FAIL. -/
def failScrub (h : Hw) (r : ScrubRec) (idx addr : Nat) : Hw :=
  let h1 := if r.kind = 1 then setSwatch h idx { swGet h idx with state := .scrubbing, failed := true }
            else setUnit h r.kind idx { unitAt h r.kind idx with state := .scrubbing, failed := true }
  causeOfDoubt h1 .unit r.kind idx (if r.from_ ≤ 16 then r.from_ else 0xFF)
    { type := 0x0102, addr := toCompact h.ident.position addr, arg0 := r.seq }

/-- A scrub ends: the units pass but for one that failed (R101, R102). `bad` names its kind, index and the address miscompared. -/
def endScrub (hm : HM) (seq : Nat) (bad : Option (Nat × Nat × Nat)) : HM :=
  match findScrub hm.1 seq with
  | some r =>
    if r.done then hm
    else
      match bad with
      | none =>
        let o := if r.all then passAll hm none else passScrub hm r r.units
        (setScrub o.1 { r with done := true, endTb := o.1.tb.now }, o.2)
      | some (k, i, a) =>
        let r1 := { r with kind := k }
        if r.all then
          let o := passAll hm (some (k, i))
          (failScrub (setScrub o.1 { r with done := true, failed := true, endTb := o.1.tb.now }) r1 i a, o.2)
        else if i ∈ r.units ∧ k = r.kind then
          let o := passScrub hm r (r.units.filter (· ≠ i))
          (failScrub (setScrub o.1 { r with done := true, failed := true, endTb := o.1.tb.now }) r i a, o.2)
        else hm
  | none => hm

end Sys2Proof.Machine
end

