-- ==== Sys2Proof/Machine/Sha.lean ====
section
/-! DEFINITION. SHA-384, the digest of scrub reports and measurements (R103, R145): FIPS 180-4 over byte lists. Its constants are the
fractional parts of roots of primes. -/
namespace Sys2Proof.Machine

/-- Whether a number has no divisor from `d` up to `fuel` of them. -/
def noDivisor : Nat → Nat → Nat → Bool
  | 0, _, _ => true
  | f + 1, d, n => if d * d > n then true else if n % d = 0 then false else noDivisor f (d + 1) n

/-- The first eighty primes (the eightieth is 409). -/
def shaPrimes : List Nat := (List.range 410).filter (fun n => decide (2 ≤ n) && noDivisor 20 2 n)

/-- The greatest number below 2^80 whose `k`-th power is at most `n`, bit by bit from the highest. -/
def rootHi (k n : Nat) : Nat :=
  (List.range 80).foldl (fun r i => if (r + 2 ^ (79 - i)) ^ k ≤ n then r + 2 ^ (79 - i) else r) 0

/-- The eighty round constants. -/
def shaK : List Nat := shaPrimes.map (fun p => rootHi 3 (p * 2 ^ 192) % 2 ^ 64)

/-- The initial hash value of SHA-384, from the ninth to the sixteenth primes. -/
def shaIv : List Nat := ((shaPrimes.drop 8).take 8).map (fun p => rootHi 2 (p * 2 ^ 128) % 2 ^ 64)

/-- Rotate a 64-bit word right. -/
def rotr (n x : Nat) : Nat := (x >>> n) ||| (x <<< (64 - n) % 2 ^ 64)

/-- Sum modulo 2^64. -/
def add64 (a b : Nat) : Nat := (a + b) % 2 ^ 64

/-- Big-endian number of bytes. -/
def beNat (bs : List Byte) : Nat := bs.foldl (fun n b => 256 * n + b.toNat) 0

/-- A number's `n` low bytes, most significant first. -/
def beBytes (n x : Nat) : List Byte := (leBytes n x).reverse

/-- The padded message. -/
def shaPad (m : List Byte) : List Byte :=
  m ++ [0x80] ++ zeros ((239 - m.length % 128) % 128) ++ beBytes 16 (8 * m.length)

/-- The eighty words of a block's schedule, latest first. -/
def shaSchedule (block : List Byte) : List Nat :=
  let w0 := ((List.range 16).map (fun i => beNat ((block.drop (8 * i)).take 8))).reverse
  (List.range 64).foldl (fun w _ =>
    let x := w.getD 14 0
    let y := w.getD 1 0
    let s0 := rotr 1 x ^^^ rotr 8 x ^^^ (x >>> 7)
    let s1 := rotr 19 y ^^^ rotr 61 y ^^^ (y >>> 6)
    (add64 (add64 s1 (w.getD 6 0)) (add64 s0 (w.getD 15 0))) :: w) w0

/-- One block. -/
def shaBlock (hs : List Nat) (block : List Byte) : List Nat :=
  let ws := (shaSchedule block).reverse
  let out := (shaK.zip ws).foldl (fun (v : List Nat) kw =>
    let a := v.getD 0 0; let b := v.getD 1 0; let c := v.getD 2 0; let d := v.getD 3 0
    let e := v.getD 4 0; let f := v.getD 5 0; let g := v.getD 6 0; let h := v.getD 7 0
    let s1 := rotr 14 e ^^^ rotr 18 e ^^^ rotr 41 e
    let ch := (e &&& f) ^^^ ((2 ^ 64 - 1 - e) &&& g)
    let t1 := add64 (add64 h s1) (add64 ch (add64 kw.1 kw.2))
    let s0 := rotr 28 a ^^^ rotr 34 a ^^^ rotr 39 a
    let mj := (a &&& b) ^^^ (a &&& c) ^^^ (b &&& c)
    [add64 t1 (add64 s0 mj), a, b, c, add64 d t1, e, f, g]) hs
  (hs.zip out).map (fun p => add64 p.1 p.2)

/-- Every block of a padded message. -/
def shaBlocks : Nat → List Nat → List Byte → List Nat
  | 0, hs, _ => hs
  | n + 1, hs, m => if m.isEmpty then hs else shaBlocks n (shaBlock hs (m.take 128)) (m.drop 128)

/-- The SHA-384 digest of a byte list, 48 bytes. -/
def sha384 (m : List Byte) : List Byte :=
  let p := shaPad m
  ((shaBlocks (p.length / 128) shaIv p).take 6).flatMap (beBytes 8)

end Sys2Proof.Machine
end

