-- ==== Sys2Proof/Machine/PartCmds.lean ====
section
/-! DEFINITION. What the partition commands do (Table 24.4, chapters 3 and 8): creation, grants, releases, destruction, queries,
configuration, way masks, the shelf split and scrub reports; and the scrub events. -/
namespace Sys2Proof.Machine

/-! ### Ranges and ownership -/

/-- One RANGE of a payload (Table 24.1): its kind and the indices it names; for swatches their numbers [51:21]. -/
structure URange where
  kind  : Nat
  units : List Nat
  ok    : Bool    -- FIRST is aligned

/-- A RANGE at an offset of a payload. -/
def rangeAt (b : List Byte) (o : Nat) : URange :=
  let k := leAt b o 1
  let n := leAt b (o + 4) 4
  let f := leAt b (o + 8) 8
  if k = 1 then { kind := 1, units := (List.range n).map (f / 2 ^ 21 + ·), ok := decide (f % 2 ^ 21 = 0) }
  else { kind := k, units := (List.range n).map (f + ·), ok := true }

/-- The RANGE entries of PART_ASSIGN and PART_RELEASE. -/
def rangesOf (b : List Byte) : List URange := (List.range (leAt b 4 4)).map (fun i => rangeAt b (8 + 16 * i))

/-- Whether a swatch number lies in the apertures of regions 4 to 7. -/
def isAperture (k : Nat) : Bool := decide (4 ≤ regionOf (k * 2 ^ 21) ∧ regionOf (k * 2 ^ 21) ≤ 7)

/-- Whether a swatch number names a swatch of regions 0 to 2 that this package can hold (R41 to R43, R81). -/
def swatchExists (h : Hw) (k : Nat) : Bool :=
  let a := k * 2 ^ 21
  match regionOf a with
  | 0 => decide (offsetOf a < 2 ^ 41)
  | 1 => decide (offsetOf a < nearGib h * 2 ^ 30)
  | 2 => populated h a
  | _ => false

/-- Owner of a unit of any kind, 31 for none. -/
def ownerOf (h : Hw) (kind idx : Nat) : Nat :=
  match kind with
  | 1 => if isAperture idx then (swatchAt h (idx * 2 ^ 21)).owner else (swGet h idx).owner
  | 8 => let o := tabGet 0 h.coh.wayOwner idx
         if o = 0 then 31 else o - 1
  | k => (unitAt h k idx).owner

/-- A partition takes part in none of the ways while it holds no shelf way (R269). -/
def hasWays (h : Hw) (p : Nat) : Bool := !(unitsOf h p).isEmpty

/-- Grant a free swatch (R84, R99): its lines read as a decryption of what the scrub left until they are written. -/
def grantSwatch (h : Hw) (p k : Nat) : Hw :=
  setSwatch h k { swGet h k with owner := p, state := .owned, rdOnly := false, fresh := true, grant := some h.tb.now }

/-- Take one swatch out of the range table. -/
def dropAperture (rs : List ApRange) (a : Nat) : List ApRange :=
  rs.flatMap (fun r =>
    if r.first ≤ a ∧ a < r.first + r.count * 2 ^ 21 then
      let n := (a - r.first) / 2 ^ 21
      (if n = 0 then [] else [{ r with count := n }]) ++
      (if r.count = n + 1 then [] else [{ r with first := a + 2 ^ 21, count := r.count - n - 1 }])
    else [r])

/-- Whether some region would have more than the 64 ranges it may have (Table 3.1). -/
def tooManyRanges (rs : List ApRange) : Bool := [4, 5, 6, 7].any (fun g => decide ((rs.filter (fun r => decide (regionOf r.first = g))).length > 64))

/-- Ranges of the range table within one region (at most 64, Table 3.1). -/
def rangesIn (h : Hw) (reg : Nat) : Nat := (h.sel.ranges.filter (fun r => decide (regionOf r.first = reg))).length

/-! ### PART_CREATE, PART_CONFIG, PART_QUERY -/

/-- Whether a partition is being destroyed: its PART_DESTROY is between its steps (R137). -/
def destroying (h : Hw) (p : Nat) : Bool :=
  allMbx.any (fun m => (boxAt h m).reqs.any (fun r => decide (r.cmd = 0x0302 ∧ leAt r.payload 0 1 = p) && r.begun && !r.ended))

/-- The partition a PART field names, or the status it is refused with (R137, R721, R734). -/
def partCheck (h : Hw) (m : Mbx) (p : Nat) : Option (Nat × Nat) :=
  match m with
  | .part q => if p = q then none else some (0x21, 0)
  | _ => if p > 16 then some (0x20, 0) else if !partExists h p then some (0x20, 0x105)
         else if destroying h p then some (0x11, 0) else none

/-- Fresh keys of a partition (R92): identities that no earlier key has had. -/
def drawKeys (h : Hw) (p : Nat) : Hw :=
  let n := h.sel.keyCount
  let h1 := { h with sel := { h.sel with keyCount := n + 2 } }
  setPart h1 p { partAt h1 p with farKey := n + 1, nearKey := n + 2 }

/-- PART_CREATE (R92, R733). -/
def partCreate (hm : HM) (r : Req) : HM × Reply :=
  let h := hm.1
  let p := leAt r.payload 0 1
  if p = 0 ∨ p > 16 then (hm, deny 0x20 0x102)
  else if partExists h p then (hm, deny 0x20 0x100)
  else if h.ident.bench then (hm, deny 0x20 0x101)
  else ((dropIns (drawKeys (setPart h p { exists_ := true }) p), hm.2), doneC)

/-- A bitmap over units of a kind that a partition owns, as bytes. -/
def ownMap (h : Hw) (p kind n : Nat) : List Byte := leBytes (n / 8) (bitmapNat n (fun i => decide (ownerOf h kind i = p)))

/-- Swatches of a region that a partition owns or holds. -/
def swCount (h : Hw) (p reg : Nat) : Nat :=
  (h.sel.swatches.filter (fun e => decide (regionOf (e.1 * 2 ^ 21) = reg ∧ e.2.owner = p ∧
    (e.2.state = SwState.owned ∨ e.2.state = SwState.held)))).length

/-- The payload of PART_QUERY. -/
def partReport (h : Hw) (p : Nat) : List Byte :=
  if !partExists h p then zeros 852
  else
    let x := partAt h p
    let held := h.sel.swatches.any (fun e => decide (e.2.owner = p ∧ e.2.state = SwState.held))
      || h.sel.units.any (fun e => decide (e.2.owner = p ∧ e.2.state = UnitState.held))
    let st := 1 + 2 * flag (partFenced h p) + 4 * flag x.nearPlain + 8 * flag held
    leBytes 1 st ++ leBytes 1 x.weight ++ zeros 2
    ++ leBytes 4 (swCount h p 0) ++ leBytes 4 (swCount h p 1) ++ leBytes 4 (swCount h p 2)
    ++ leBytes 4 ((h.sel.ranges.filter (fun e => decide (e.owner = p))).foldl (fun n e => n + e.count) 0)
    ++ leBytes 2 (bitmapNat 16 (fun i => decide (ownerOf h 2 i = p))) ++ zeros 6
    ++ leBytes 8 (bitmapNat 34 (fun i => decide (ownerOf h 4 i = p))) ++ ownMap h p 3 128 ++ ownMap h p 5 1024
    ++ ownMap h p 6 1024 ++ ownMap h p 7 4096
    ++ leBytes 4 ((h.sel.units.filter (fun e => decide (e.1 / 2 ^ 32 = 9 ∧ e.2.owner = p))).length) ++ zeros 4
    ++ leBytes 8 x.resetVec ++ leBytes 8 x.rnmi ++ leBytes 8 x.rnmiExc

/-- PART_QUERY (R734). -/
def partQuery (m : Mbx) (hm : HM) (r : Req) : HM × Reply :=
  let p := leAt r.payload 0 1
  match m with
  | .part q => if p = q then (hm, doneQ (partReport hm.1 p)) else (hm, deny 0x21 0)
  | _ => if p > 16 then (hm, deny 0x20 0) else (hm, doneQ (partReport hm.1 p))

/-- PART_CONFIG (R95, R107, R187): vectors, NEAR_PLAIN, WEIGHT, RD_ONLY. -/
def partConfig (m : Mbx) (hm : HM) (r : Req) : HM × Reply :=
  let h := hm.1
  let b := r.payload
  let p := leAt b 0 1
  let set := leAt b 1 1
  let rg := rangeAt b 32
  match partCheck h m p with
  | some e => (hm, deny e.1 e.2)
  | none =>
    if bitOf set 3 && rg.units.any (fun k => decide (ownerOf h rg.kind k ≠ p)) then (hm, deny 0x21 0)
    else if bitOf set 3 && !(decide (rg.kind = 1) && rg.ok) then (hm, deny 0x20 0)
    else if bitOf set 2 && decide (leAt b 3 1 = 0) then (hm, deny 0x20 0)
    else if bitOf set 1 && decide ((partAt h p).nearPlain ≠ bitOf (leAt b 2 1) 0) && decide (swCount h p 1 ≠ 0) then (hm, deny 0x11 0)
    else
      let x := partAt h p
      let x1 := if bitOf set 0 then { x with resetVec := leAt b 8 8, rnmi := leAt b 16 8, rnmiExc := leAt b 24 8 } else x
      let x2 := if bitOf set 1 then { x1 with nearPlain := bitOf (leAt b 2 1) 0 } else x1
      let x3 := if bitOf set 2 then { x2 with weight := leAt b 3 1 } else x2
      let h1 := setPart h p x3
      let h2 := if bitOf set 3 then rg.units.foldl (fun h k => setSwatch h k { swGet h k with rdOnly := bitOf (leAt b 4 1) 0 }) h1 else h1
      ((h2, hm.2), doneC)

/-! ### PART_ASSIGN -/

/-- Why one unit may not be assigned to a partition: the status and detail, none where it may (Table 24.4). -/
def assignBad (h : Hw) (p kind idx : Nat) : Option (Nat × Nat) :=
  let a := idx * 2 ^ 21
  if kind = 8 ∨ kind = 0 ∨ kind > 9 then some (0x20, 0)
  else if kind = 9 ∧ p ≠ 0 then some (0x20, 0x104)
  else if kind = 1 then
    if isAperture idx then
      if regionOf a ≤ 5 ∧ offsetOf a + 2 ^ 21 > 0x0FFFF0000000 then some (0x20, 0x103)
      else if !(populated h a && populated h (a + 2 ^ 21 - 1)) then some (0x20, 0)
      else if (swatchAt h a).owner ≠ 31 then some (0x20, 0)
      else none
    else if !swatchExists h idx then some (0x20, 0)
    else if (regionOf a = 0 ∧ !h.memhw.farOpen) ∨ (regionOf a = 1 ∧ !h.memhw.nearOpen) then some (0x20, 0x101)
    else if !populated h a then some (0x20, 0)
    else match (swGet h idx).state with
      | .free | .blank => none
      | .owned => some (0x20, 0)
      | .cache => some (0x20, 0x106)
      | _ => some (0x11, 0)
  else if idx ≥ unitCount kind then some (0x20, 0)
  else match (unitAt h kind idx).state with
    | .free => if (kind = 2 ∨ kind = 3 ∨ kind = 4) ∧ !hasWays h p then some (0x20, 0x102) else none
    | .owned => some (0x20, 0)
    | _ => some (0x11, 0)

/-- The first refusal among the units of every range (R726). -/
def assignRefusal (h : Hw) (p : Nat) (rs : List URange) : Option (Nat × Nat) :=
  let us := rs.flatMap (fun r => r.units.map (fun i => (r.kind, i)))
  match rs.find? (fun r => !r.ok || r.units.isEmpty) with
  | some _ => some (0x20, 0)
  | none =>
    match us.findSome? (fun u => assignBad h p u.1 u.2) with
    | some e => some e
    | none =>
      if us.eraseDups.length ≠ us.length then some (0x20, 0)
      else if [4, 5, 6, 7].any (fun g => decide (rangesIn h g
          + (rs.filter (fun r => decide (r.kind = 1) && decide (regionOf (r.units.headD 0 * 2 ^ 21) = g))).length > 64)) then some (0x40, 0)
      else none

/-- Grant the units of one range; those that must be scrubbed first begin their scrub: a BLANK swatch's is reported with no releasing
partition (Table 3.7), a FREE one that ZERO_FILL fills keeps the record of its release (log entry 61). Answers the REPORT_SEQs and how
many. -/
def grantRange (h : Hw) (p : Nat) (zero : Bool) (r : URange) : Hw × List Nat × Nat :=
  if r.kind ≠ 1 then
    let h1 := r.units.foldl (fun h i => setUnit h r.kind i { owner := p, state := .owned }) h
    (if r.kind = 2 then r.units.foldl startCluster h1 else h1, [], 0)
  else if isAperture (r.units.headD 0) then
    let h1 := { h with sel := { h.sel with ranges := h.sel.ranges ++ [{ first := r.units.headD 0 * 2 ^ 21, count := r.units.length, owner := p }] } }
    (h1, [], 0)
  else
    let blank := r.units.filter (fun k => decide ((swGet h k).state = SwState.blank))
    let filled := if zero then r.units.filter (fun k => decide ((swGet h k).state ≠ SwState.blank)) else []
    let h1 := (r.units.filter (fun k => k ∉ blank ∧ k ∉ filled)).foldl (fun h k => grantSwatch h p k) h
    let scrub (acc : Hw × List Nat) (us : List Nat) (hidden : Bool) : Hw × List Nat :=
      if us.isEmpty then acc else let o := beginScrub acc.1 1 us 0xFF 1 (some p) zero hidden; (o.2, acc.2 ++ [o.1])
    let o := scrub (scrub (h1, []) blank false) filled true
    (o.1, o.2, blank.length + filled.length)

/-- PART_ASSIGN (R83, R84, R97, R99). -/
def partAssign (m : Mbx) (hm : HM) (r : Req) : HM × Reply :=
  let h := hm.1
  let b := r.payload
  let p := leAt b 0 1
  match partCheck h m p with
  | some e => (hm, deny e.1 e.2)
  | none =>
    let rs := rangesOf b
    match assignRefusal h p rs with
    | some e => (hm, deny e.1 e.2)
    | none =>
      let o := rs.foldl (fun (acc : Hw × List Nat × Nat) x =>
        let g := grantRange acc.1 p (bitOf (leAt b 1 1) 0) x
        (g.1, acc.2.1 ++ g.2.1, acc.2.2 + g.2.2)) (h, [], 0)
      let n := (rs.map (fun x => x.units.length)).foldl (· + ·) 0
      let pay := leBytes 4 n ++ leBytes 4 o.2.2
      ((o.1, hm.2), { payload := pay, commit := true, wait := if o.2.1.isEmpty then .none else .units o.2.1 })

/-! ### PART_RELEASE and PART_DESTROY -/

/-- Scrub method of a kind: 1 ZERO, 3 reset and clear (Table 3.6). -/
def methodOf (kind : Nat) : Nat := if kind = 1 ∨ kind = 3 then 1 else 3

/-- Whether a quad is in a lock group that still forms. -/
def formingQuad (h : Hw) (q : Nat) : Bool := match lockOf h q with | some g => !g.locked | none => false

/-- Why one unit may not be released by a partition; a quad whose LOCK_GROUP_SET is in course is mid-transition (R137). -/
def releaseBad (h : Hw) (p kind idx : Nat) (force : Bool) : Option (Nat × Nat) :=
  if ownerOf h kind idx ≠ p then some (0x21, 0)
  else if kind = 8 ∨ kind = 0 ∨ kind > 9 then some (0x20, 0)
  else if kind = 1 then
    if isAperture idx then none
    else match (swGet h idx).state with
      | .owned | .held => none
      | _ => some (0x11, 0)
  else match (unitAt h kind idx).state with
    | .scrubbing => some (0x11, 0)
    | .free => some (0x21, 0)
    | _ => if (!force && unitRunning h kind idx) || (decide (kind = 3) && formingQuad h idx) then some (0x11, 0) else none

/-- The refusal of units a PART_RELEASE names: NOT_OWNER of any of them goes before what the others give (Table 4.4, steps 8 and 10). -/
def releaseRefusal (h : Hw) (p : Nat) (us : List (Nat × Nat)) (force : Bool) : Option (Nat × Nat) :=
  let es := us.filterMap (fun u => releaseBad h p u.1 u.2 force)
  if es.any (fun e => decide (e.1 = 0x21)) then some (0x21, 0) else es.head?

/-- Release one range: its units are revoked and their scrub begins; an aperture leaves the range table at once, and what a CXL
swatch holds is cleared with it. -/
def releaseRange (hm : HM) (p : Nat) (r : URange) : HM × List Nat :=
  if r.kind = 1 && isAperture (r.units.headD 0) then
    (r.units.foldl (fun hm k =>
      let a := k * 2 ^ 21
      let h1 := { hm.1 with sel := { hm.1.sel with ranges := dropAperture hm.1.sel.ranges a } }
      (clearSwatchPoison (forgetLines h1 (fun l => decide (swatchOf (l * 64) = k))) k,
       if regionOf a ≥ 6 then memZero hm.2 a (2 ^ 21) else hm.2)) hm, [])
  else
    let o := beginScrub hm.1 r.kind r.units p (methodOf r.kind) none false
    ((o.2, hm.2), [o.1])

/-- A descriptor staged or in flight as its group is released with FORCE: its record says HALTED with reason FORCED and is final; one
that had ended gets the record it had coming (R100, R735). -/
def forceDesc (s : Nat) (hm : HM) (d : Desc) : HM :=
  let x := slipAt hm.1 s
  let held := decide (d.phase = Phase.staged ∨ d.phase = Phase.dispatched ∨ d.phase = Phase.waiting ∨
    (d.phase = Phase.walking ∧ (d.begun ∨ d.walk.rewalk)))
  if !held && decide (d.phase ≠ Phase.ended) then hm
  else
    let e := if held then { d with status := 0x09, reason := 0x2A, result := [], pauseReq := false } else d
    let stopped := !held && stops d.status d.reason
    let w := engineWrite hm (slipOwner hm.1 s) (recordAddr x d.seq) (recordBytes x e stopped) false
    let h1 := setSlip w.1.1 s (setDesc (slipAt w.1.1 s) { e with phase := if stopped then .recorded else .final })
    (if stopped then h1 else afterFinal h1 s e, w.1.2)

/-- What the slips of a ferry group hold as it is released with FORCE; bolts they had taken are released (R287). -/
def forceGroup (hm : HM) (g : Nat) : HM :=
  let hm0 := releaseTaken hm g (fun d => decide (d.phase = Phase.dispatched ∨ d.phase = Phase.waiting ∨ d.phase = Phase.walking))
  (hm0.1.eng.slips.filter (fun e => decide (e.2.group = g) && slipEnabled e.2)).foldl (fun hm e =>
    let h1 := withdrawWaits hm.1 e.1 (fun _ => true)
    let h2 := { h1 with weaves := { h1.weaves with runs := h1.weaves.runs.filter (fun r => r.slip ≠ e.1) } }
    let r := (slipAt h2 e.1).descs.foldl (forceDesc e.1) (h2, hm.2)
    let x := slipAt r.1 e.1
    (setSlip r.1 e.1 (passFinal x.descs.length x), r.2)) hm0

/-- PART_RELEASE (R97, R100); one that would leave more than 64 ranges in a region is refused (Table 3.1, log entry 62). -/
def partRelease (m : Mbx) (hm : HM) (r : Req) : HM × Reply :=
  let h := hm.1
  let b := r.payload
  let p := leAt b 0 1
  let force := bitOf (leAt b 1 1) 0
  match partCheck h m p with
  | some e => (hm, deny e.1 e.2)
  | none =>
    let rs := rangesOf b
    let us := rs.flatMap (fun x => x.units.map (fun i => (x.kind, i)))
    let shape := rs.any (fun x => !x.ok || x.units.isEmpty) || decide (us.eraseDups.length ≠ us.length)
    match releaseRefusal h p us force with
    | some e => (hm, if e.1 = 0x21 ∨ !shape then deny e.1 e.2 else deny 0x20 0)
    | none =>
      if shape then (hm, deny 0x20 0)
      else
      let left := (us.filter (fun u => decide (u.1 = 1) && isAperture u.2)).foldl (fun rs u => dropAperture rs (u.2 * 2 ^ 21)) h.sel.ranges
      if tooManyRanges left then (hm, deny 0x40 0)
      else
      let hm0 := (rs.filter (fun x => x.kind = 4)).foldl (fun hm x => x.units.foldl forceGroup hm) hm
      let o := rs.foldl (fun (acc : HM × List Nat) x => let g := releaseRange acc.1 p x; (g.1, acc.2 ++ g.2)) (hm0, [])
      (o.1, { payload := leBytes 4 us.length, commit := true, wait := if o.2.isEmpty then .none else .units o.2 })

/-- Harts of scopes that are no longer Fenced retry the fetch they parked on (R207). -/
def retryParked (h : Hw) : Hw :=
  { h with harts := tabMap {} h.harts (fun n x =>
    if x.run = HartRun.parked ∧ unitFenced h 2 (n / 8) = false then { x with run := .running } else x) }

/-- Remove a fence with FENCE_LIFTED: ARG0 the PSEQ of its first cause, ARG1 the recovery command (R595, R596). -/
def liftFence (h : Hw) (f : Fence) (cmd : Nat) : Hw :=
  let first := match f.causes with
    | c :: _ => c.pseq.getD 0
    | [] => 0
  let h1 := { h with faults := { h.faults with fences := h.faults.fences.erase f } }
  recordWrite (retryParked h1)
    { type := 0x0806, cls := scopeClass f.scope, scope := scopeCode f.scope, part := f.part, unitKind := f.kind, unit := f.unit,
      arg0 := first, arg1 := cmd }

/-- Lift every fence a test accepts. -/
def liftFences (h : Hw) (p : Fence → Bool) (cmd : Nat) : Hw := (h.faults.fences.filter p).foldl (fun h f => liftFence h f cmd) h

/-- Every directory entry of units of a partition is recalled, with every copy of their lines (R268); a line in state B is left to its
transaction first, and copies in other packages are asked for. -/
def recallUnits (h : Hw) (us : List Nat) : Hw :=
  let sets := h.coh.dirSets.filter (fun e => decide (e.1 / 512 % 512 ∈ us))
  (sets.flatMap (fun e => e.2.tags.filterMap id)).foldl (fun h l => if decide (l < 2 ^ 54) && (dirAt h l).busy then h else evictEntry h l) h

/-- Whether units of the directory still hold an entry. -/
def dirHolds (h : Hw) (us : List Nat) : Bool :=
  h.coh.dirSets.any (fun e => decide (e.1 / 512 % 512 ∈ us) && e.2.tags.any (·.isSome))

/-- Units of the directory are emptied, their replacement state at its default. -/
def clearUnits (h : Hw) (us : List Nat) : Hw :=
  { h with coh := { h.coh with dirSets := tabClear h.coh.dirSets (fun k => decide (k / 512 % 512 ∈ us)) } }

/-- Every item of per-partition state outside the ownable resources returns to its reset value, and the keys are retired (R96,
R733). -/
def forgetPart (h0 : Hw) (p : Nat) : Hw :=
  let h := clearUnits (recallUnits h0 (unitsOf h0 p)) (unitsOf h0 p)
  let eng := { h.eng with epochs := tabClear h.eng.epochs (fun k => decide (k / 81 = p)) }
  let sync := { h.sync with pools := tabClear h.sync.pools (fun k => decide (k / 64 = p)) }
  let tiers := { h.tiers with objects := tabClear h.tiers.objects (fun k => decide (k / 1024 = p)) }
  let faults := { h.faults with queues := tabPut {} h.faults.queues p {} }
  let coh := { h.coh with wayOwner := tabClear h.coh.wayOwner (fun w => decide (tabGet 0 h.coh.wayOwner w = p + 1)) }
  let arch := { h.arch with sets := tabClear h.arch.sets (fun k => decide ((tabGet {} h.arch.sets k).part = p)) }
  let sel := { h.sel with parts := tabPut {} h.sel.parts p {} }
  { h with eng := eng, sync := sync, tiers := tiers, faults := faults, coh := coh, arch := arch, sel := sel,
           intTable := tabClear h.intTable (fun k => decide (k / 4096 = p)), intHalf := tabClear h.intHalf (fun k => decide (k / 4096 = p)) }

/-- PART_DESTROY ends once its scrubs have completed (R596, R733). Its mailbox's outcomes go with the mailbox's registers; the SESSION_IDs it
has had since CP stay taken (R128). -/
def destroyEnd (h : Hw) (p : Nat) : Hw :=
  let h1 := liftFences h (fun f => decide (f.part = p) && (decide (f.scope = Scope.partition) || decide (f.scope = Scope.unit))) 0x0302
  let x := boxAt h1 (.part p)
  let mine (k : Nat) : Bool := decide (tabGet 31 h1.edges.irqOwner k = p)
  setBox (forgetPart { h1 with edges := { h1.edges with irqTarget := tabClear h1.edges.irqTarget mine, irqOwner := tabClear h1.edges.irqOwner mine } } p)
    (.part p) { sessions := x.sessions }

/-- Begin the scrub of the units of one kind a partition has, if any. -/
def scrubKind (acc : Hw × List Nat) (p kind method : Nat) (us : List Nat) : Hw × List Nat :=
  if us.isEmpty then acc else let o := beginScrub acc.1 kind us p method none false; (o.2, acc.2 ++ [o.1])

/-- Units of a kind a partition has that are not already being scrubbed. -/
def unitsOwned (h : Hw) (p kind : Nat) : List Nat :=
  (h.sel.units.filter (fun e => decide (e.1 / 2 ^ 32 = kind ∧ e.2.owner = p ∧ e.2.state ≠ UnitState.scrubbing))).map (fun e => e.1 % 2 ^ 32)

/-- Swatches a partition has that are not already being scrubbed, those that a test accepts. -/
def swatchesOwned (h : Hw) (p : Nat) (q : Nat → Bool) : List Nat :=
  (h.sel.swatches.filter (fun e => decide (e.2.owner = p) && decide (e.2.state = SwState.owned ∨ e.2.state = SwState.held) && q e.1)).map (·.1)

/-- PART_DESTROY (R97, R98, R596, R733). -/
def partDestroy (hm : HM) (r : Req) : HM × Reply :=
  let h := hm.1
  let p := leAt r.payload 0 1
  if p = 0 ∨ p > 16 then (hm, deny 0x20 0x102)
  else if !partExists h p then (hm, deny 0x20 0x105)
  else if destroying h p then (hm, deny 0x11 0)
  else
    let keyed (k : Nat) : Bool := decide (regionOf (k * 2 ^ 21) = 0) || (decide (regionOf (k * 2 ^ 21) = 1) && !(partAt h p).nearPlain)
    let h0 := closeSession h (.part p) none
    let aps := (h0.sel.ranges.filter (fun a => decide (a.owner = p)))
    let hm1 := aps.foldl (fun hm a => (releaseRange hm p { kind := 1, units := (List.range a.count).map (a.first / 2 ^ 21 + ·), ok := true }).1) (h0, hm.2)
    let ways := (h0.coh.wayOwner.filter (fun e => decide (e.2 = p + 1))).map (·.1)
    let acc1 := scrubKind (hm1.1, []) p 1 2 (swatchesOwned hm1.1 p keyed)
    let acc2 := scrubKind acc1 p 1 1 (swatchesOwned acc1.1 p (fun k => !keyed k))
    let acc3 := [2, 3, 4, 5, 6, 7, 9].foldl (fun acc k => scrubKind acc p k (methodOf k) (unitsOwned acc.1 p k)) acc2
    let h2 := ways.foldl (fun h w => (beginScrub h 8 [w] p 3 none false).2) acc3.1
    let h3 := ways.foldl (fun h w => clearWay h (w / 16) (w % 16)) h2
    let open_ := (h3.sel.scrubs.filter (fun s => !s.done && decide (s.from_ = p) && decide (s.kind ≠ 8))).map (·.seq)
    let h4 := { h3 with sel := { h3.sel with scrubs := h3.sel.scrubs.map (fun s =>
      if s.kind = 8 ∧ s.from_ = p ∧ !s.done then { s with done := true, endTb := h3.tb.now } else s),
                                             units := tabClear h3.sel.units (fun k => decide (k / 2 ^ 32 = 8)) } }
    if open_.isEmpty then ((destroyEnd h4 p, hm1.2), doneC)
    else ((h4, hm1.2), { commit := true, wait := .units open_ })

/-! ### Scrub events -/

/-- The test paths open and BENCH is set (R113); an admission that this package still waits for is DENIED from then on (R114). -/
def openBench (h : Hw) : Hw :=
  endWaits { h with ident := { h.ident with bench := true, benchSeen := true } } (fun r => decide (r.wait = Wait.join)) 0x20 0

/-- A scrub has ended: the commands that waited for it go on, a destroyed partition is forgotten with its last scrub, and BENCH_ENTER opens
the test paths unless the package has been Fenced meanwhile (R113). A scrub that
failed ends its command with INTERNAL_DOUBT (R102, R132). -/
def scrubEnded (h : Hw) (seq : Nat) (failed : Bool) : Hw :=
  if failed then endWaits h (fun r => match r.wait with | .units l => decide (seq ∈ l) | _ => false) 0xF0 0
  else
    let h1 := mapReqs h (fun r => match r.wait with
      | .units l => if r.begun && !r.ended then { r with wait := .units (l.filter (· ≠ seq)) } else r
      | _ => r)
    let ripe (r : Req) : Bool := decide (r.wait = Wait.units [])
    let isCmd (c : Nat) (r : Req) : Bool := ripe r && r.begun && !r.ended && decide (r.cmd = c)
    let h2 := endWaits h1 (fun r => ripe r && decide (r.cmd ≠ 0x0302 ∧ r.cmd ≠ 0x0D01)) 0 0
    let h3 := ((allMbx.flatMap (fun m => (boxAt h2 m).reqs)).filter (isCmd 0x0302)).foldl (fun h r => destroyEnd h (leAt r.payload 0 1)) h2
    if (allMbx.flatMap (fun m => (boxAt h3 m).reqs)).any (isCmd 0x0D01) then
      if pkgFenced h3 then endWaits h3 ripe 0x60 0
      else endWaits (openBench h3) ripe 0 0
    else endWaits h3 ripe 0 0

/-- SCRUB_COMPLETE (R101, R102): the scrub of a REPORT_SEQ ends; `bad` names a unit that failed and the address miscompared. -/
def scrubComplete (hm : HM) (seq : Nat) (bad : Option (Nat × Nat × Nat)) : HM :=
  match findScrub hm.1 seq with
  | some r =>
    if r.done || (match bad with | some b => !r.all && decide (b.1 ≠ r.kind ∨ b.2.1 ∉ r.units) | none => false) then hm
    else let o := endScrub hm seq bad; (scrubEnded o.1 seq bad.isSome, o.2)
  | none => hm

/-- The background scrub turns one BLANK swatch into a FREE one (R83); a tier that is not open is skipped (R320, R321). -/
def backgroundScrub (hm : HM) (k : Nat) (bad : Option Nat) : HM :=
  let h := hm.1
  if h.efano.ready && swatchExists h k && populated h (k * 2 ^ 21) && decide ((swGet h k).state = SwState.blank)
      && !(decide (regionOf (k * 2 ^ 21) = 0) && !h.memhw.farOpen) && !(decide (regionOf (k * 2 ^ 21) = 1) && !h.memhw.nearOpen) then
    let o := beginScrub h 1 [k] 0xFF 1 none false
    scrubComplete (o.2, hm.2) o.1 (bad.map (fun a => (1, k, a)))
  else hm

/-! ### Way masks and the shelf split (chapter 8) -/

/-- The mask WAYMASK_SET gives a slot: the new one where it is named, else the one in force. -/
def newMask (h : Hw) (b : List Byte) (p s : Nat) : Nat :=
  if bitOf (leAt b 4 4) s then leAt b (8 + 2 * s) 2 else bitmapNat 16 (fun w => decide (tabGet 0 h.coh.wayOwner (16 * s + w) = p + 1))

/-- One way leaves a partition: its lines are invalidated and its scrub recorded (R103, R266). -/
def takeWay (h : Hw) (p w : Nat) : Hw :=
  let r : ScrubRec := { seq := h.sel.scrubSeq, from_ := p, method := 3, kind := 8, first := w, units := [w], startTb := h.tb.now,
                        endTb := h.tb.now, position := h.ident.position, done := true }
  let h1 := clearWay { h with sel := { h.sel with scrubs := r :: h.sel.scrubs, scrubSeq := r.seq + 1 } } (w / 16) (w % 16)
  { h1 with coh := { h1.coh with wayOwner := tabPut 0 h1.coh.wayOwner w 0 } }

/-- Whether a slot is between the steps of a SHELF_SPLIT_SET or a WAYMASK_SET: a later one of either is BUSY. -/
def slotBusy (h : Hw) (s : Nat) : Bool := splitting h s || decide (s ∈ h.coh.bypass) || h.coh.leaving.any (fun w => decide (w / 16 = s))

/-- Whether MSHRs of ways that a test accepts are in use in a slot. -/
def mshrsBusy (h : Hw) (s : Nat) (way : Nat → Bool) : Bool := (mshrsOf h (400 + s)).any (fun m => way (m.num / 8))

/-- Steps 2 and 3 of R266, once the MSHRs of the leaving ways are free and every recalled entry's copies are back home (R268); until then the
command is presented again. -/
def waysPass (hm : HM) (p : Nat) (out into : List Nat) : HM × Reply :=
  let h := { hm.1 with coh := { hm.1.coh with leaving := [] } }
  let back := if out.length = into.length then out else unitsOf h p
  let h1 := recallUnits h back
  if out.any (fun w => mshrsBusy h (w / 16) (fun k => decide (k = w % 16))) || dirHolds h1 back || actorPending h1 .cache then
    (({ h1 with coh := { h1.coh with leaving := out ++ into } }, hm.2), { commit := true, again := true })
  else
    let h2 := out.foldl (fun h w => takeWay h p w) (clearUnits h1 back)
    let h3 := into.foldl (fun h w => { h with coh := { h.coh with wayOwner := tabPut 0 h.coh.wayOwner w (p + 1) } }) h2
    ((h3, hm.2), doneC)

/-- WAYMASK_SET (R105, R266 to R269). -/
def waymaskSet (m : Mbx) (hm : HM) (r : Req) : HM × Reply :=
  let h := hm.1
  let b := r.payload
  let p := leAt b 0 1
  let all := (List.range 512)
  let want (w : Nat) : Bool := bitOf (newMask h b p (w / 16)) (w % 16)
  let has (w : Nat) : Bool := decide (tabGet 0 h.coh.wayOwner w = p + 1)
  let out := all.filter (fun w => has w && !want w)
  let into := all.filter (fun w => want w && !has w)
  if r.again then waysPass hm p out into
  else match partCheck h m p with
  | some e => (hm, deny e.1 e.2)
  | none =>
    let owns := h.sel.units.any (fun e => decide (e.2.owner = p) && decide (e.1 / 2 ^ 32 ∈ [2, 3, 4]))
    if all.any (fun w => want w && !has w && decide (tabGet 0 h.coh.wayOwner w ≠ 0)) then (hm, deny 0x20 0)
    else if owns && !(all.any want) then (hm, deny 0x20 0x100)
    else if all.any (fun w => decide (want w ≠ has w) && slotBusy h (w / 16)) then (hm, deny 0x11 0)
    else waysPass hm p out into

/-- The number of swatch k of a region 2 slot (R43, Table 1.6). -/
def slotSwatch (slot k : Nat) : Nat := (2 * 2 ^ 48 + slot / 8 * 2 ^ 30 + slot % 8 * 2 ^ 24) / 2 ^ 21 + k

/-- Steps 2 to 5 of R263, once the slots' MSHRs have completed and served their targets; until then the command is presented again. -/
def splitShelf (hm : HM) (b : List Byte) (slots out : List Nat) : HM × Reply :=
  if slots.any (fun s => mshrsBusy hm.1 s (fun _ => true)) then (hm, { commit := true, again := true })
  else
    let h1 := slots.foldl (fun h s => { emptyShelf h s with coh := { (emptyShelf h s).coh with
      split := tabPut 0 h.coh.split s (leAt b (8 + s) 1), bypass := h.coh.bypass.filter (· ≠ s) } }) hm.1
    if out.isEmpty then ((h1, hm.2), doneC)
    else let o := beginScrub h1 1 out 0xFF 1 none false true
         ((o.2, hm.2), { commit := true, wait := .units [o.1] })

/-- SHELF_SPLIT_SET (R262, R263): its commit point is step 1, from which lookups of the slots go to the home. -/
def shelfSplitSet (hm : HM) (r : Req) : HM × Reply :=
  let h := hm.1
  let b := r.payload
  let slots := (List.range 32).filter (bitOf (leAt b 0 4))
  let pick (new : Bool) : List Nat := slots.flatMap (fun s => ((List.range 6).filter (fun k =>
    decide (bitOf (leAt b (8 + s) 1) k = new ∧ bitOf (tabGet 0 h.coh.split s) k = !new))).map (slotSwatch s))
  let cur (k : Nat) : SwState := (swGet h k).state
  if r.again then splitShelf hm b slots (pick false)
  else if (pick true ++ pick false).any (fun k => !(decide (cur k = SwState.free) || decide (cur k = SwState.cache))) || slots.any (slotBusy h) then
    (hm, deny 0x11 0)
  else
    let h1 := (pick true).foldl (fun h k => setSwatch h k { swGet h k with state := .cache }) h
    splitShelf ({ h1 with coh := { h1.coh with bypass := h1.coh.bypass ++ slots } }, hm.2) b slots (pick false)

/-! ### Scrub reports (R103, Table 3.7) -/

/-- The latest ended scrub record of a unit. -/
def reportFor (h : Hw) (kind idx : Nat) : Option ScrubRec :=
  h.sel.scrubs.find? (fun r => r.done && !r.hidden && decide (r.kind = kind) && decide (idx ∈ r.units))

/-- Bytes 0x00 to 0x9F of a report. -/
def reportBody (h : Hw) (r : ScrubRec) (owner : Nat) (nonce : List Byte) : List Byte :=
  leBytes 4 0x52435359 ++ leBytes 2 1 ++ leBytes 2 0x100 ++ leBytes 8 r.seq ++ leBytes 8 (identReg h 0).toNat
  ++ leBytes 1 r.position ++ leBytes 1 r.from_ ++ leBytes 1 (if owner = 31 then 0xFF else owner) ++ leBytes 1 r.method
  ++ leBytes 2 r.kind ++ leBytes 2 (flag r.failed) ++ leBytes 8 r.first ++ leBytes 8 r.units.length ++ leBytes 8 r.startTb
  ++ leBytes 8 r.endTb ++ leBytes 4 r.samples ++ zeros 4 ++ sha384 (r.units.flatMap (leBytes 8)) ++ slice nonce 0 32 ++ zeros 8

/-- The partition that owns a unit now, 31 for none: one that is being scrubbed has none (R103). -/
def nowOwner (h : Hw) (kind idx : Nat) : Nat :=
  let gone := if kind = 1 then decide ((swGet h idx).state = SwState.scrubbing) && !isAperture idx
              else decide (kind ≠ 8 ∧ (unitAt h kind idx).state = UnitState.scrubbing)
  if gone then 31 else ownerOf h kind idx

/-- SCRUB_REPORT_GET (R103): the signature is a free value over the body. -/
def scrubReport (m : Mbx) (hm : HM) (r : Req) : HM × Reply :=
  let h := hm.1
  let kind := leAt r.payload 0 1
  let idx := leAt r.payload 4 4
  let own := nowOwner h kind idx
  let mine := match m with | .part p => decide (own = p) | _ => true
  if !mine then (hm, deny 0x21 0)
  else match reportFor h kind idx with
    | none => (hm, deny 0x20 0x100)
    | some x =>
      let body := reportBody h x own (slice r.payload 8 32)
      (({ h with free := h.free + 1 }, hm.2), doneQ (body ++ slice (Config.signature (fwMeasure h) h.free body) 0 96))

end Sys2Proof.Machine
end

