-- ==== Sys2Proof/Machine/Rows.lean ====
section
/-! DEFINITION. How a command's effect becomes the step's outcome: every command of the block answers a next state whose queue
it has not touched. -/
namespace Sys2Proof.Machine

/-- An interrupt delivered in this step ends Idle or Drowse (Table 5.7). -/
def wakeUp (h : Hw) : Hw :=
  if h.start.irqWake then exitTrigger { h with start := { h.start with irqWake := false } } .traffic else h

/-- The end of a step: Idle or Drowse ends where an interrupt came, and the messages the command posted are routed. -/
def stepEnd (h : Hw) : Hw := routeOut (wakeUp h)

/-- The outcome of a command that leaves the byte memory alone. Frames and messages of the command before are no longer shown; messages
it posts are routed at its end. -/
def onHw (s : State) (f : Hw → Hw) : Host.Outcome State Fault Refusal := .next { s with hw := stepEnd (f (clearSent s.hw)) }

/-- The outcome of a command over the hardware and the byte memory. -/
def onAll (s : State) (f : HM → HM) : Host.Outcome State Fault Refusal :=
  let r := f (clearSent s.hw, s.mem)
  .next { s with hw := stepEnd r.1, mem := r.2 }

/-! ### Outstanding accesses of ferries (R402) -/

/-- Replace the accesses of ferries that wait. -/
def setOuts (h : Hw) (os : List FerryOut) : Hw := { h with eng := { h.eng with outs := os } }

/-- The package ferry that serves a slip (R386). -/
def ferryOf (h : Hw) (s : Nat) : Nat := 8 * (slipAt h s).group + (slipAt h s).ferry

/-- Whether a waiting access is one of a descriptor's. -/
def outOf (s : Nat) (seq : W32) (o : FerryOut) : Bool := decide (o.slip = s ∧ o.seq = seq)

/-- Line reads or writes a ferry has outstanding, over the descriptors its slips still hold. -/
def outCount (h : Hw) (ferry : Nat) (write : Bool) : Nat :=
  (h.eng.outs.filter (fun o => decide (o.write = write ∧ ferryOf h o.slip = ferry) && (findDesc (slipAt h o.slip) o.seq).isSome)).length

/-- Whether a ferry can issue no more accesses of a kind that a descriptor of it makes, counting those of its other descriptors. -/
def ferryFull (h : Hw) (s : Nat) (seq : W32) : Bool :=
  let others := setOuts h (h.eng.outs.filter (fun o => !outOf s seq o))
  match findDesc (slipAt h s) seq with
  | some d => [false, true].any (fun w => (d.extents.any (fun e => decide (e.wr = w)) || decide (0x14 ≤ leAt d.bytes 0 1 ∧ leAt d.bytes 0 1 ≤ 0x19)) && decide (256 ≤ outCount others (ferryOf h s) w))
  | none => false

/-- An access that must wait is issued, once, where its ferry has a place left for it. -/
def issueStall (s : Nat) (seq : W32) (h : Hw) (x : Stall) : Hw :=
  if h.eng.outs.any (fun o => outOf s seq o && decide (o.line = x.line ∧ o.write = x.write)) then
    (if x.island.isSome then h else leaveStall h x)
  else if outCount h (ferryOf h s) x.write < 256 then
    leaveStall (setOuts h (h.eng.outs ++ [{ slip := s, seq := seq, line := x.line, write := x.write }])) x
  else h

/-! ### Rows that wait -/

/-- A hart's or an engine's step over the coherent space: where an access of it must wait (R73, R234, R238, R271) it has no effect but its
requests, and the access is presented again when the step is commanded again (log entry 60). -/
def waiting (f : HM → HM) (hm : HM) : HM :=
  let r := f hm
  if r.1.coh.stalls.isEmpty then r else (r.1.coh.stalls.foldl leaveStall hm.1, hm.2)

/-- A ferry descriptor's step (R402): it waits while a kind of access it makes has no place left among the ferry's outstanding ones; where
an access of it must wait, that access is outstanding, if the ferry has a place for it, and otherwise not issued. -/
def ferrying (s : Nat) (seq : W32) (f : HM → HM) (hm : HM) : HM :=
  if ferryFull hm.1 s seq then hm
  else
    let r := f hm
    if r.1.coh.stalls.isEmpty then (tagWrites (setOuts r.1 (r.1.eng.outs.filter (fun o => !outOf s seq o))) (.slip s seq), r.2)
    else
      let still (o : FerryOut) : Bool := r.1.coh.stalls.any (fun x => decide (x.line = o.line ∧ x.write = o.write))
      (r.1.coh.stalls.foldl (issueStall s seq) (setOuts hm.1 (hm.1.eng.outs.filter (fun o => !outOf s seq o || still o))), hm.2)

end Sys2Proof.Machine
end

