-- ==== Sys2Proof/Machine/PowerRows.lean ====
section
/-! DEFINITION. Power and thermal commands (Table 24.7) and the events of chapter 18: rail and thermal samples, droop, the budget
loop, the power pool. -/
namespace Sys2Proof.Machine

/-! ### Rails and droop (R539 to R545) -/

/-- RAIL_SAMPLE (R541 to R543): the sensed current of a rail, its averages over the cap window, over 1 us and over 1 ms, in mA, and
whether its sensor passes its self-check. -/
def railSample (h : Hw) (r cur win us ms : Nat) (ok : Bool) : Hw :=
  let x := railAt h r
  if r ≥ 30 then h
  else if !ok || x.dead then
    if x.dead then h
    else
      let h1 := recordWrite (setRail h r { x with dead := true }) { type := 0x0705, part := 0xFF, unitKind := 15, unit := r }
      yieldFloors h1 (fun i => decide (railOf i = r))
  else
    let hot := decide (cur > railHard h r) && railResponds r
    let near := x.engaged.isSome && decide (100 * win ≥ 95 * railHard h r)
    let y := { x with engaged := if hot || near then some h.tb.now else x.engaged, softOn := decide (win > railSoft h r), current := ms }
    let h1 := setRail h r y
    if 100 * us > 110 * railHard h r then
      causeOfDoubt h1 .package 15 r 0xFF { type := 0x0706, arg0 := us }
    else h1

/-- PROTECTIVE_RELEASE (R541): the current has stayed below 95 % of the cap for one whole window. -/
def protectiveRelease (h : Hw) (r : Nat) : Hw :=
  let x := railAt h r
  match x.engaged with
  | some t => setRail (advanceTo h (t + 1000 * x.window)) r { x with engaged := none }
  | none => h

/-- DROOP (R544, R545): the island's clock, with its lock group's, is stretched; the detection is counted. An island the grade lacks has
no detector (R55). -/
def droop (h : Hw) (i : Island) : Hw :=
  if !islandExists h i then h
  else
  let h1 := (clockGroup h i).foldl (fun h j => setIsland h j { islandAt h j with stretch := true }) h
  { h1 with power := { h1.power with droops := tabMod 0 h1.power.droops (islandKey i) (· + 1) } }

/-- DROOP_END (R544): the clock returns to its set period. -/
def droopEnd (h : Hw) (i : Island) : Hw := (clockGroup h i).foldl (fun h j => setIsland h j { islandAt h j with stretch := false }) h

/-! ### Thermal (R546 to R551) -/

/-- The die a thermal sensor lies on (Table 18.3; dies as in Table 20.8): 0 C0, 1 C1, 2 to 5 A0 to A3, none for the interposer. -/
def sensorDie (s : Nat) : Option Nat :=
  if s < 400 then some (2 + s / 100) else if s < 448 then some 0 else if s < 496 then some 1 else none

/-- What a sensor counts as reading, in 0.25 C: 105 C once it has failed (R547). -/
def sensorReading (x : Sensor) : Nat := if x.failed then 420 else x.reading.getD 0

/-- A sensor by number. -/
def sensorAt (h : Hw) (s : Nat) : Sensor := tabGet {} h.power.sensors s

/-- Hottest reading of a die's sensors. -/
def hottestDie (h : Hw) (die : Nat) : Nat :=
  h.power.sensors.foldl (fun n e => if sensorDie e.1 = some die then max n (sensorReading e.2) else n) 0

/-- Hottest reading of the package's sensors. -/
def hottest (h : Hw) : Nat := h.power.sensors.foldl (fun n e => max n (sensorReading e.2)) 0

/-- One sensor is sampled (R547). -/
def sampleOne (h : Hw) (e : Nat × Nat × Bool) : Hw :=
  let x := sensorAt h e.1
  let jump := match x.reading with | some r => decide (r + 80 < e.2.1 ∨ e.2.1 + 80 < r) | none => false
  if e.1 ≥ 512 ∨ x.failed then h
  else
    let bad := !e.2.2 || jump
    let y : Sensor := { reading := some e.2.1, failed := bad }
    let h1 := { h with power := { h.power with sensors := tabPut {} h.power.sensors e.1 y } }
    if bad then recordWrite h1 { type := 0x0704, part := 0xFF, unitKind := 16, unit := e.1 } else h1

/-- Whether the thermal loop can still lower an adjustable island of a die: one stands above its floor (R535). -/
def canCool (h : Hw) (die : Nat) : Bool :=
  adjustableKinds.any (fun k => (List.range (kindCount h k)).any (fun n =>
    let i : Island := { kind := k, idx := n }
    decide (islandDie h i = die) && decide (floorOf h i + tabGet 0 h.power.dieCeil die < (kindRange k).2)))

/-- A die enters or leaves PROCHOT (R549), and the thermal loop takes or gives back one step of 25 MHz (R548). -/
def dieThermal (h : Hw) (die : Nat) : Hw :=
  let top := hottestDie h die
  let was := bitOf h.power.prochot die
  let h1 :=
    if !was && decide (top ≥ 420) then
      let h2 := recordLimited { h with power := { h.power with prochot := h.power.prochot + 2 ^ die } }
        { type := 0x0702, part := 0xFF, unitKind := 18, unit := die, arg0 := die, arg1 := top }
      yieldFloors h2 (fun i => decide (islandDie h i = die))
    else if was && decide (top < 408) then { h with power := { h.power with prochot := h.power.prochot - 2 ^ die } }
    else h
  let c := tabGet 0 h1.power.dieCeil die
  let c' := if top > 4 * h1.power.tjTarget then (if canCool h1 die then c + 25 else c) else c - 25
  { h1 with power := { h1.power with dieCeil := tabPut 0 h1.power.dieCeil die c' } }

/-- A thermal trip (R551): THERMTRIP_N is driven and latched low, and the package Fenced. -/
def thermalTrip (h : Hw) (kind unit reading : Nat) : Hw :=
  if h.power.tripped then h
  else causeOfDoubt { h with power := { h.power with tripped := true } } .package kind unit 0xFF { type := 0x0707, arg0 := reading }

/-- THERMAL_SAMPLE (R546): readings in 0.25 C with each sensor's self-check. -/
def thermalSample (h : Hw) (rs : List (Nat × Nat × Bool)) : Hw :=
  let h0 := advanceTo h (h.power.sampled + 20000)
  let h1 := rs.foldl sampleOne { h0 with power := { h0.power with sampled := h0.tb.now } }
  let h2 := (List.range 6).foldl dieThermal h1
  match h2.power.sensors.find? (fun e => !e.2.failed && decide (e.2.reading.getD 0 ≥ 472)) with
  | some e => thermalTrip h2 16 e.1 (e.2.reading.getD 0)
  | none => h2

/-- PROCHOT_EXT (R550). -/
def prochotExt (h : Hw) : Hw :=
  if h.power.extHot then h
  else yieldFloors (recordLimited { h with power := { h.power with extHot := true } } { type := 0x0703, part := 0xFF }) (fun _ => true)

/-- PROCHOT_EXT_RELEASE (R550). -/
def prochotExtRelease (h : Hw) : Hw := { h with power := { h.power with extHot := false } }

/-! ### The budget loop and telemetry (R108, R554, R555) -/

/-- One millisecond in ns. -/
def msec : Nat := 1000000

/-- Kinds in the order the budget loop lowers them (R555). -/
def budgetOrder : List (List IslandKind) := [[.quad], [.cluster], [.ferryGroup, .cFerry, .shelf]]

/-- Whether the budget loop can still lower a kind: an island of it stands above its floor (R535). -/
def canLower (h : Hw) (k : IslandKind) : Bool :=
  (List.range (kindCount h k)).any (fun n => decide (floorOf h { kind := k, idx := n } + tabGet 0 h.power.kindCeil k.code < (kindRange k).2))

/-- Lower or raise kinds' ceilings by one step. -/
def stepKinds (h : Hw) (ks : List IslandKind) (down : Bool) : Hw :=
  { h with power := { h.power with kindCeil := ks.foldl (fun t k =>
      let c := tabGet 0 t k.code
      tabPut 0 t k.code (if down then (if canLower h k then c + 25 else c) else c - 25)) h.power.kindCeil } }

/-- Count a 1 ms interval in which a loop missed its target (R535): 0 soft cap, 1 thermal, 2 budget, 3 pool. -/
def loopMissed (h : Hw) (i : Nat) (b : Bool) : Hw := if b then { h with power := { h.power with loopMiss := bump h.power.loopMiss i } } else h

/-- The budget loop's step: the first group that can still be lowered, or the last that can be raised. -/
def budgetStep (h : Hw) : Hw :=
  let low (k : IslandKind) : Nat := tabGet 0 h.power.kindCeil k.code
  if h.power.inputW > effective h then
    match budgetOrder.find? (fun ks => ks.any (canLower h)) with
    | some ks => stepKinds h ks true
    | none => loopMissed h 2 true
  else if h.power.inputW < effective h then
    match budgetOrder.reverse.find? (fun ks => ks.any (fun k => decide (0 < low k))) with
    | some ks => stepKinds h ks false
    | none => h
  else h

/-- Tenant telemetry is taken at a 1 ms boundary (R108, Table 3.9). -/
def takeTelemetry (h : Hw) (energies : List (Nat × Nat)) : Hw :=
  let h1 := energies.foldl (fun h e => if e.1 ≤ 16 then setPart h e.1 { partAt h e.1 with energy := (partAt h e.1).energy + e.2 } else h) h
  let h2 := (List.range 17).foldl (fun h p =>
    let x := partAt h p
    let n := if x.slowed || throttled h p then x.throttled + 1 else x.throttled
    setPart h p { x with throttled := n, slowed := false, shown := [x.energy, n, x.traffic, x.knotWaitNs] }) h1
  { h2 with sync := { h2.sync with knots := tabMap {} h2.sync.knots (fun _ k => { k with waitShown := k.waitNs }) },
            power := { h2.power with telemAt := h2.tb.now } }

/-- BUDGET_LOOP (R555): a 1 ms interval ends; the input power averaged over it in watts, and the energy of each partition's units in
it in mJ. -/
def budgetLoop (h : Hw) (inputW : Nat) (energies : List (Nat × Nat)) : Hw :=
  let t := (h.power.loopAt / msec + 1) * msec
  let h0 := advanceTo h t
  let h1 := takeTelemetry { h0 with power := { h0.power with loopAt := max t (h0.tb.now / msec * msec), inputW := inputW } } energies
  let h2 := budgetStep h1
  let h3 := loopMissed h2 0 (h2.power.rails.any (fun e => decide (e.2.current > railSoft h2 e.1)))
  let h4 := loopMissed h3 1 ((List.range 6).any (fun d => decide (hottestDie h3 d > 4 * h3.power.tjTarget)
    && !canCool h3 d))
  loopMissed h4 3 (decide (h4.power.static - leaseSum h4.power.outs + leaseSum h4.power.ins > h4.power.poolMax))

/-! ### The power pool (R558 to R563) -/

/-- Whether the package takes part in the pool (R558, R563). -/
def takesPart (h : Hw) : Bool :=
  h.power.poolOn && oneSet h h.power.poolSet && h.ident.admitted && !memberFenced h && !pkgFenced h && h.arch.breaks.isEmpty
  && !h.arch.east.broken && !h.arch.west.broken && !h.tb.holdover && decide (h.start.st = PowerSt.active)

/-- The eight largest AWAITED entries that are not zero. -/
def topAwaited : Nat → List (Nat × Nat) → List (Nat × Nat)
  | 0, _ => []
  | n + 1, es =>
    match es with
    | [] => []
    | e :: rest =>
      let m := rest.foldl (fun a b => if b.2 > a.2 then b else a) e
      m :: topAwaited n (es.erase m)

/-- WAIT_TOTAL and AWAITED of the bindings of a set, added up. -/
def setWaits (h : Hw) (set : Nat) : Nat × Tab Nat :=
  (h.arch.sets.filter (fun e => e.2.used && decide (e.2.set = set))).foldl (fun a e =>
    (a.1 + e.2.waitTotal, e.2.awaited.foldl (fun t w => tabMod 0 t w.1 (· + w.2)) a.2)) (0, [])

/-- POOL_EPOCH_START (R510, R559): the wait counters are read and reset, and a package that takes part sends its telemetry. -/
def poolEpochStart (h : Hw) : Hw :=
  let t := (h.power.epoch / msec + 1) * msec
  let h0 := advanceTo h t
  let w := setWaits h0 h0.power.poolSet
  let sets := tabMap {} h0.arch.sets (fun _ b => { b with waitTotal := 0, awaited := [] })
  let h1 := { h0 with arch := { h0.arch with sets := sets } }
  let p1 := { h1.power with epoch := max t (h1.tb.now / msec * msec), epochRun := false, frames := [], mine := none }
  if takesPart h0 then
    let f : PoolFrame := { position := h0.ident.position, set := h0.power.poolSet, waitTotal := w.1, looms := setLooms h0 h0.power.poolSet,
                           awaited := topAwaited 8 w.2 }
    broadcast { h1 with power := { p1 with frames := [f], mine := some f } } 0x15
      ([f.set, f.looms, f.awaited.length, f.waitTotal] ++ f.awaited.flatMap (fun e => [e.1, e.2]))
  else { h1 with power := { p1 with ins := [] } }

/-- `pool_epoch` of R560: what this package gives each Position ID. -/
def poolShares (h : Hw) : List (Nat × Nat) :=
  match h.power.mine with
  | none => []
  | some f =>
    let d (q : Nat) : Nat := if q = h.ident.position then 0 else
      h.power.frames.foldl (fun n g => if g.set = f.set then g.awaited.foldl (fun n e => if e.1 = q then n + e.2 else n) n else n) 0
    let tot := (List.range 256).foldl (fun n q => n + d q) 0
    let full := 1000000 * f.looms
    if f.looms = 0 ∨ 100 * f.waitTotal < h.power.theta * full ∨ tot = 0 then []
    else
      let g := min (h.power.stepMax * f.waitTotal / full) (h.power.static - h.power.poolMin - leaseSum h.power.outs)
      ((List.range 256).map (fun q => (q, g * d q / tot))).filter (fun e => decide (0 < e.2))

/-- POOL_EPOCH (R560): 500 us into the epoch the package lowers its budget, then sends its grants. -/
def poolEpoch (h : Hw) : Hw :=
  let h0 := advanceTo h (h.power.epoch + 500000)
  if h0.power.epochRun || !takesPart h0 then h0
  else
    let s := poolShares h0
    let n : Nat := s.foldl (fun n e => n + e.2) 0
    let t := h0.tb.now
    let outs := if n = 0 then h0.power.outs else h0.power.outs ++ [{ watts := n, ends := t + 4 * msec + 1000 }]
    s.foldl (fun h e => direct h 0x16 e.1 [e.1, h.power.poolSet, e.2, t])
      { h0 with power := { h0.power with epochRun := true, outs := outs } }

/-- LEASE_END (R561): time reaches the earliest end of a lease or reduction; those that have ended are gone. -/
def leaseEnd (h : Hw) : Hw :=
  match h.power.outs ++ h.power.ins with
  | [] => h
  | l :: ls =>
    let h1 := advanceTo h (ls.foldl (fun n x => min n x.ends) l.ends)
    { h1 with power := { h1.power with outs := h1.power.outs.filter (fun x => decide (h1.tb.now < x.ends)),
                                       ins := h1.power.ins.filter (fun x => decide (h1.tb.now < x.ends)) } }

/-! ### Commands -/

/-- POWER_BUDGET_SET (R553). -/
def powerBudgetSet (hm : HM) (r : Req) : HM × Reply :=
  let h := hm.1
  let s := leAt r.payload 0 2
  let lo := leAt r.payload 2 2
  let hi := leAt r.payload 4 2
  if s % 5 = 0 ∧ 1200 ≤ lo ∧ lo ≤ s ∧ s ≤ hi ∧ hi ≤ 2600 then
    (({ h with power := { h.power with static := s, poolMin := lo, poolMax := hi } }, hm.2), doneC)
  else (hm, deny 0x20 0)

/-- The unit a partition owns an adjustable island by. -/
def islandOwner (h : Hw) (i : Island) : Nat :=
  match i.kind with
  | .cluster => ownerOf h 2 i.idx
  | .quad => ownerOf h 3 i.idx
  | .ferryGroup => ownerOf h 4 i.idx
  | .cFerry => ownerOf h 4 (32 + i.idx)
  | _ => 31

/-- Bounds of one island after POWER_BOUNDS_SET, none where they are refused (R556). -/
def newBounds (h : Hw) (tenant : Bool) (i : Island) (b : List Byte) : Option Bounds :=
  let set := leAt b 1 1
  let x := boundsAt h i
  let fl := if bitOf set 0 then leAt b 8 2 else floorOf h i
  let ce := if bitOf set 1 then leAt b 10 2 else stewardCeil h i
  let rg := kindRange i.kind
  if tenant then
    if floorOf h i ≤ leAt b 10 2 ∧ leAt b 10 2 ≤ stewardCeil h i then some { x with tenant := some (leAt b 10 2) } else none
  else if rg.1 ≤ fl ∧ fl ≤ ce ∧ ce ≤ rg.2 then
    some { floor := if bitOf set 0 then some fl else x.floor, ceiling := if bitOf set 1 then some ce else x.ceiling,
           tenant := x.tenant.map (fun t => max t fl) }
  else none

/-- POWER_BOUNDS_SET (R556). -/
def powerBoundsSet (m : Mbx) (hm : HM) (r : Req) : HM × Reply :=
  let h := noteThrottle hm.1
  let b := r.payload
  let tenant := match m with | .part _ => true | _ => false
  match kindOf (leAt b 0 1) with
  | none => (hm, deny 0x20 0)
  | some k =>
    let is := (List.range (leAt b 2 2)).map (fun j => ({ kind := k, idx := leAt b 4 4 + j } : Island))
    if leAt b 2 2 = 0 ∨ leAt b 4 4 + leAt b 2 2 > kindCount h k then (hm, deny 0x20 0)
    else if tenant && !(is.all (fun i => decide (islandOwner h i = actsFor m))) then (hm, deny 0x21 0)
    else if !adjustable k then (hm, deny 0x20 0x101)
    else if tenant && bitOf (leAt b 1 1) 0 then (hm, deny 0x20 0x100)
    else if tenant && !bitOf (leAt b 1 1) 1 then (hm, doneC)
    else if is.any (fun i => (newBounds h tenant i b).isNone) then (hm, deny 0x20 0)
    else
      let t := is.foldl (fun t i => match newBounds h tenant i b with
        | some x => tabPut {} t (islandKey i) x
        | none => t) h.power.bounds
      (({ h with power := { h.power with bounds := t } }, hm.2), doneC)

/-- RAIL_CAP_SET (R540, R543). -/
def railCapSet (hm : HM) (r : Req) : HM × Reply :=
  let h := hm.1
  let b := r.payload
  let n := leAt b 0 1
  let set := leAt b 1 1
  let x := railAt h n
  let fuse := railFuse h n
  let hard := if bitOf set 0 then leAt b 4 4 else railHard h n
  let soft0 := railSoft h n
  let soft := if bitOf set 1 then leAt b 8 4 else if soft0 > hard then hard else if 10 * soft0 < hard then ceilDiv hard 10 else soft0
  if n ≥ 30 then (hm, deny 0x20 0)
  else if bitOf set 0 && !railResponds n then (hm, deny 0x20 0x100)
  else if bitOf set 0 && !decide (fuse ≤ 4 * hard ∧ hard ≤ fuse) then (hm, deny 0x20 0)
  else if bitOf set 1 && !decide (hard ≤ 10 * soft ∧ soft ≤ hard) then (hm, deny 0x20 0)
  else if bitOf set 2 && !decide (1 ≤ leAt b 2 1 ∧ leAt b 2 1 ≤ 100) then (hm, deny 0x20 0)
  else
    let y := { x with hard := if bitOf set 0 then some hard else x.hard,
                      soft := if bitOf set 0 || bitOf set 1 then some soft else x.soft,
                      window := if bitOf set 2 then leAt b 2 1 else x.window }
    ((setRail h n y, hm.2), doneC)

/-- THERMAL_SET (R548). -/
def thermalSet (hm : HM) (r : Req) : HM × Reply :=
  let t := leAt r.payload 0 1
  if 80 ≤ t ∧ t ≤ 104 then (({ hm.1 with power := { hm.1.power with tjTarget := t } }, hm.2), doneC) else (hm, deny 0x20 0)

/-- POOL_CONFIG (R558, R560): a set that is no longer the package's, or is disabled, ends its part (R563). -/
def poolConfig (hm : HM) (r : Req) : HM × Reply :=
  let h := hm.1
  let b := r.payload
  let set := leAt b 0 4
  let on := bitOf (leAt b 4 1) 0
  let th := leAt b 5 1
  let st := leAt b 6 2
  if !decide (5 ≤ th ∧ th ≤ 95 ∧ 5 ≤ st ∧ st ≤ 200) then (hm, deny 0x20 0)
  else if on && !(h.arch.sets.any (fun e => e.2.used && decide (e.2.set = set))) then (hm, deny 0x20 0x100)
  else
    let p := h.power
    let keep := on && (!p.poolOn || decide (p.poolSet = set))
    (({ h with power := { p with poolSet := set, poolOn := on, theta := th, stepMax := st, ins := if keep then p.ins else [] } }, hm.2), doneC)

/-- RAIL_MA of every rail. -/
def railMas (h : Hw) : List Byte := (List.range 30).flatMap (fun r => leBytes 4 (railAt h r).current)

/-- Temperature of a stack in 0.25 C. -/
def stackTemp (h : Hw) (s : Nat) : Nat := (tabGet {} h.memhw.chans s).temp

/-- DROOP_EVENTS of an island kind. -/
def kindDroops (h : Hw) (k : Nat) : Nat := h.power.droops.foldl (fun n e => if e.1 / 1024 = k then n + e.2 else n) 0

/-- POWER_TELEMETRY (R564, Table 24.8). -/
def powerTelemetry (m : Mbx) (hm : HM) (_ : Req) : HM × Reply :=
  let h := hm.1
  let p := h.power
  match m with
  | .steward =>
    (hm, doneQ (leBytes 2 p.inputW ++ leBytes 2 (effective h) ++ leBytes 2 (leaseSum p.outs) ++ leBytes 2 (leaseSum p.ins) ++ railMas h
      ++ (List.range 512).flatMap (fun s => leBytes 2 (sensorReading (sensorAt h s))) ++ (List.range 12).flatMap (fun s => leBytes 2 (stackTemp h s))
      ++ p.loopMiss.flatMap (leBytes 4) ++ (List.range 17).flatMap (fun k => leBytes 4 (tabGet 0 p.yields k))
      ++ (List.range 17).flatMap (fun k => leBytes 4 (kindDroops h k))))
  | .keeper =>
    (hm, doneQ (leBytes 2 p.inputW ++ zeros 2 ++ (List.range 6).flatMap (fun d => leBytes 2 (hottestDie h d))
      ++ (List.range 12).flatMap (fun s => leBytes 2 (stackTemp h s)) ++ leBytes 1 (flag (decide (p.prochot ≠ 0)) + 2 * flag p.tripped)
      ++ zeros 3 ++ railMas h))
  | .part q =>
    let x := (partAt h q).shown
    (hm, doneQ (leBytes 8 p.telemAt ++ leBytes 8 (x.getD 0 0) ++ leBytes 8 (x.getD 1 0) ++ leBytes 8 (x.getD 2 0 / 4096)
      ++ leBytes 8 (x.getD 3 0 / 1000)))

/-- POWER_STATUS (R564). -/
def powerStatus (hm : HM) (_ : Req) : HM × Reply :=
  let h := hm.1
  let p := h.power
  let fl := flag p.extHot + 2 * flag p.tripped + 4 * flag (takesPart h) + 8 * flag h.tb.holdover
  let kinds := bitmapNat 17 (fun k => match kindOf k with
    | some kd => adjustable kd && (List.range (kindCount h kd)).any (fun n => heldLow h { kind := kd, idx := n })
    | none => false)
  (hm, doneQ (leBytes 1 (if p.extHot then 0x3F else p.prochot) ++ leBytes 1 fl ++ zeros 2
    ++ leBytes 4 (bitmapNat 30 (fun r => (railAt h r).engaged.isSome)) ++ leBytes 4 kinds))

/-! ### The rows -/

/-- RAIL_SAMPLE (R541). -/
def execRailSample (rail cur win us ms : Nat) (ok : Bool) (s : State) : Host.Outcome State Fault Refusal :=
  onHw s (fun h => railSample (noteThrottle h) rail cur win us ms ok)

/-- PROTECTIVE_RELEASE (R541). -/
def execProtectiveRelease (rail : Nat) (s : State) : Host.Outcome State Fault Refusal := onHw s (fun h => protectiveRelease (noteThrottle h) rail)

/-- DROOP (R544). -/
def execDroop (i : Island) (s : State) : Host.Outcome State Fault Refusal := onHw s (fun h => droop h i)

/-- DROOP_END (R544). -/
def execDroopEnd (i : Island) (s : State) : Host.Outcome State Fault Refusal := onHw s (fun h => droopEnd h i)

/-- THERMAL_SAMPLE (R546). -/
def execThermalSample (readings : List (Nat × Nat × Bool)) (s : State) : Host.Outcome State Fault Refusal :=
  onHw s (fun h => thermalSample (noteThrottle h) readings)

/-- PROCHOT_EXT (R550). -/
def execProchotExt (s : State) : Host.Outcome State Fault Refusal := onHw s prochotExt

/-- PROCHOT_EXT_RELEASE (R550). -/
def execProchotExtRelease (s : State) : Host.Outcome State Fault Refusal := onHw s (fun h => prochotExtRelease (noteThrottle h))

/-- BUDGET_LOOP (R555). -/
def execBudgetLoop (inputW : Nat) (energies : List (Nat × Nat)) (s : State) : Host.Outcome State Fault Refusal :=
  onHw s (fun h => budgetLoop h inputW energies)

/-- POOL_EPOCH_START (R559). -/
def execPoolEpochStart (s : State) : Host.Outcome State Fault Refusal := onHw s poolEpochStart

/-- POOL_EPOCH (R560). -/
def execPoolEpoch (s : State) : Host.Outcome State Fault Refusal := onHw s poolEpoch

/-- LEASE_END (R561). -/
def execLeaseEnd (s : State) : Host.Outcome State Fault Refusal := onHw s leaseEnd

/-- POWER_BUDGET_SET (R553). -/
def execPowerBudgetSet (m : Mbx) (tag : Nat) (s : State) : Host.Outcome State Fault Refusal :=
  onAll s (fun hm => serve hm m tag 0x0901 powerBudgetSet)

/-- POWER_BOUNDS_SET (R556). -/
def execPowerBoundsSet (m : Mbx) (tag : Nat) (s : State) : Host.Outcome State Fault Refusal :=
  onAll s (fun hm => serve hm m tag 0x0902 (powerBoundsSet m))

/-- RAIL_CAP_SET (R543). -/
def execRailCapSet (m : Mbx) (tag : Nat) (s : State) : Host.Outcome State Fault Refusal :=
  onAll s (fun hm => serve hm m tag 0x0903 railCapSet)

/-- THERMAL_SET (R548). -/
def execThermalSet (m : Mbx) (tag : Nat) (s : State) : Host.Outcome State Fault Refusal :=
  onAll s (fun hm => serve hm m tag 0x0904 thermalSet)

/-- POOL_CONFIG (R560). -/
def execPoolConfig (m : Mbx) (tag : Nat) (s : State) : Host.Outcome State Fault Refusal :=
  onAll s (fun hm => serve hm m tag 0x0905 poolConfig)

/-- POWER_TELEMETRY (R564). -/
def execPowerTelemetry (m : Mbx) (tag : Nat) (s : State) : Host.Outcome State Fault Refusal :=
  onAll s (fun hm => serve hm m tag 0x0906 (powerTelemetry m))

/-- POWER_STATUS (R564). -/
def execPowerStatus (m : Mbx) (tag : Nat) (s : State) : Host.Outcome State Fault Refusal :=
  onAll s (fun hm => serve hm m tag 0x0907 powerStatus)

end Sys2Proof.Machine
end

