-- ==== Sys2Proof/Machine/Resets.lean ====
section
/-! DEFINITION. The resets of chapter 5: unit reset, partition reset, warm and cold package reset, management restart and keep-alive
reset, each clearing what Table 5.8 and the Cleared by columns mark for it. -/
namespace Sys2Proof.Machine

/-! ### Unit reset (R168) -/

/-- Held descriptors of a slip complete HALTED with reason UNIT_RESET, oldest first; the slip stops at the first of them (R168). -/
def resetDescs (h : Hw) (s : Nat) (p : Desc → Bool) : Hw :=
  (slipAt h s).descs.foldl (fun h d =>
    match findDesc (slipAt h s) d.seq with
    | some e =>
      if p e && decide (e.phase = Phase.staged ∨ e.phase = Phase.dispatched ∨ e.phase = Phase.waiting ∨
          (e.phase = Phase.walking ∧ (e.begun ∨ e.walk.rewalk))) then
        endDesc (withdrawWaits h s (fun q => decide (q = e.seq))) s e 0x09 0x2B
      else h
    | none => h) h

/-- Descriptors of a slip that were fetched and not staged go with the group's descriptor store: HEAD returns to the first of
them. -/
def dropFetched (h : Hw) (s : Nat) : Hw :=
  let x := slipAt h s
  let gone (d : Desc) : Bool := decide (d.phase = Phase.fetched ∨ (d.phase = Phase.walking ∧ !d.begun ∧ !d.walk.rewalk))
  match x.descs.find? gone with
  | some d => setSlip h s { x with descs := x.descs.filter (fun e => !gone e), head := d.seq }
  | none => h

/-- UR of a ferry group: what its ferries hold completes HALTED, its caches and arbiters clear (R168, Table 5.8). -/
def resetGroup (h : Hw) (g : Nat) : Hw :=
  clearGroup ((h.eng.slips.filter (fun e => decide (e.2.group = g) && slipEnabled e.2)).foldl
    (fun h e => dropFetched (resetDescs h e.1 (fun _ => true)) e.1) h) g

/-- UR of a loom quad: the descriptors on it halt, its banks, mode registers, finisher and bobbins clear. -/
def resetQuad (h : Hw) (q : Nat) : Hw :=
  let h1 := (quadRuns h q).foldl (fun h r =>
    match findDesc (slipAt h r.slip) r.seq with
    | some d => endDesc h r.slip d 0x09 0x2B
    | none => h) h
  clearQuad (loseBobbins h1 q) q

/-- HELD swatches a test accepts return to OWNED (R596). -/
def releaseHeld (h : Hw) (p : Nat → Swatch → Bool) : Hw :=
  let t := tabMap (swBase h) h.sel.swatches (fun k s => if p k s && decide (s.state = SwState.held) then { s with state := .owned } else s)
  { h with sel := { h.sel with swatches := t } }

/-- Root ports a test accepts leave hot reset and train; their functions are unlocked by it (R164). -/
def retrainPorts (h : Hw) (p : Nat → Bool) : Hw :=
  let ports := tabMap {} h.edges.ports (fun n x =>
    if p n && x.exists_ && !decide (x.slot = SlotSt.off ∨ x.slot = SlotSt.faulted) then
      { x with hotReset := false, up := false, contained := false, training := true } else x)
  let funcs := tabMap {} h.edges.funcs (fun _ f => if p f.port then { f with tdisp := .unlocked, ide := 0, stream := 0, bars := [] } else f)
  { h with edges := { h.edges with ports := ports, funcs := funcs } }

/-- An Idurrum port's reset state: DISABLED, with nothing of its peer. -/
def resetLink (h : Hw) (n : Nat) : Hw := { h with arch := { h.arch with links := tabPut {} h.arch.links n {} } }

/-- A slip's registers return to their reset values; a fence of its own still holds it (R396, R423). -/
def resetSlip (h : Hw) (s : Nat) : Hw :=
  let h1 := clearSlip h s
  if unitFencedOwn h1 5 s then setSlip h1 s { slipAt h1 s with st := .fenced } else h1

/-- A UR returns one unit to its reset state (R168, Table 5.8). Of a root-port complex or an Idurrum port it changes nothing: the state of
their links is kept (Table 5.8, K). -/
def unitReset (h : Hw) (kind idx : Nat) : Hw :=
  match kind with
  | 2 => startCluster (resetCluster h idx) idx
  | 3 => resetQuad h idx
  | 4 => resetGroup h idx
  | 5 => resetSlip h idx
  | 10 => emptyShelf h idx
  | _ => h

/-- The unit's fence is lifted: a shelf slice's HELD scratch returns to its owners, the ports of a root-port complex leave hot reset, an
Idurrum port is no longer idle under the fence (R595, Table 19.9). -/
def liftUnit (h : Hw) (kind idx cmd : Nat) : Hw :=
  let h1 := liftFences h (fun f => decide (f.scope = Scope.unit ∧ f.kind = kind ∧ f.unit = idx)) cmd
  if kind = 11 && unitFencedOwn h 11 idx then retrainPorts h1 (fun n => decide (n / 4 = idx))
  else if kind = 12 && unitFencedOwn h 12 idx then resetLink h1 idx
  else if kind = 10 then
    releaseHeld h1 (fun k s => decide (regionOf (k * 2 ^ 21) = 2) && decide (slotOfSwatch k = idx) && !partFenced h1 s.owner)
  else h1

/-- Types of cause that a UR clears by itself (Table 19.10). -/
def urClears (c : Cause) : Bool := decide (c.type ∈ [0x0506, 0x0507, 0x0508, 0x0202, 0x0203])

/-- Whether a fence has a cause pending that a reset of its scope does not itself clear (R595). -/
def stillPending (f : Fence) (p : Cause → Bool) : Bool := f.causes.any (fun c => c.pending && !p c)

/-! ### Partition reset (R167) -/

/-- Pools, epochs, interrupt table and lock groups of a partition return to their reset values (R364, R501, Tables 5.8, 23.8). -/
def clearPartTables (h : Hw) (p : Nat) : Hw :=
  let sync := { h.sync with pools := tabClear h.sync.pools (fun k => decide (k / 64 = p)) }
  let eng := { h.eng with epochs := tabClear h.eng.epochs (fun k => decide (k / 81 = p)) }
  let h1 := { h with sync := sync, eng := eng, intTable := tabClear h.intTable (fun k => decide (k / 4096 = p)),
                     intHalf := tabClear h.intHalf (fun k => decide (k / 4096 = p)) }
  dissolveLocks h1 (fun g => decide ((unitAt h 3 (32 * g.die + g.first)).owner = p))

/-- HELD units of a partition return to owned with its swatches. -/
def releaseUnits (h : Hw) (p : Nat) : Hw :=
  { h with sel := { h.sel with units := tabMap {} h.sel.units (fun _ u =>
      if u.owner = p ∧ u.state = UnitState.held then { u with state := .owned } else u) } }

/-- A PR of a partition: its engines and volatile state are reset; ownership, memory, keys, fault queue and way masks stay (R167,
R596, Table 5.8). -/
def partReset (h : Hw) (p : Nat) : Hw :=
  let own (k : Nat) : List Nat := unitsHeld h p k
  let h1 := (own 2).foldl resetCluster h
  let h2 := (own 3).foldl (fun h q => clearQuad (loseBobbins h q) q) h1
  let h3 := (own 5).foldl resetSlip h2
  let h4 := (own 4).foldl clearGroup h3
  let h5 := (own 6).foldl clearKnots h4
  let h6 := (own 7).foldl clearLedgers h5
  let h7 := (unitsOf h6 p).foldl (fun h w => clearWay h (w / 16) (w % 16)) h6
  let h8 := closeSession (clearPartTables h7 p) (.part p) none
  let h9 := releaseUnits (releaseHeld h8 (fun k s => decide (s.owner = p) &&
    !(decide (regionOf (k * 2 ^ 21) = 2) && unitFencedOwn h8 10 (slotOfSwatch k)))) p
  (own 2).foldl startCluster h9

/-! ### Management restart (R148 to R150) -/

/-- A mailbox at the start of an MR: its session closed, fragments, responses and announcements discarded (R149, Table 23.4). -/
def restartBox (h : Hw) (m : Mbx) : Hw :=
  let h1 := closeSession h m none
  let x := boxAt h1 m
  setBox h1 m { x with rung := none, standIn := none, valid := false, shown := none, queue := [],
                       reqs := x.reqs.filter (fun r => (r.begun || leftToRun r) && !r.ended) }

/-- Whether a CP or WP is in course: from its start until READY (R169). -/
def resetting (h : Hw) : Bool := !h.efano.ready && h.efano.mr.isNone

/-- Firmware starts over: every mailbox is discarded what R149 names, MGMT_EPOCH advances, and the views have not been compared. -/
def restartMgmt (h : Hw) : Hw :=
  let h1 := allMbx.foldl restartBox h
  { h1 with efano := { h1.efano with ready := false, epoch := h1.efano.epoch + 1, mr := some h1.tb.now, agreed := false } }

/-- An MR begins (R148, R149). One already in course goes on; one that coincides with a CP or WP is absorbed (R169). -/
def mrBegin (h : Hw) : Hw := if h.efano.mr.isSome || resetting h then h else restartMgmt h

/-! ### Keep-alive reset (R161) -/

/-- The keep-alive domain's defaults: every item of the keep-alive domain returns to its default, a new sealing key is drawn, KA_LOST is set. What is outside
software's reach (the power that feeds the domain and the pins) stays. -/
def keepReset (k : KeepAlive) : KeepAlive :=
  { sealKey := k.sealNext, sealNext := k.sealNext + 1, inputs := k.inputs, vka := k.vka, cellMv := k.cellMv, powered := k.powered,
    kaLost := true }

/-- A KR, or a restart of a domain that had lost power (R161, R162, R675, R676): the domain is powered again and its clock starts over. -/
def restartKeep (h : Hw) : Hw :=
  let h1 := advanceTo h (h.tb.now + 250000000)
  { h1 with keep := { keepReset h1.keep with powered := true, rtcAt := h1.tb.now } }

/-! ### Package resets (R154, R163 to R166) -/

/-- Membership ends and the causeway starts afresh: nothing of the archipelago is kept but the ports' carrier (R165). -/
def freshArch (h : Hw) : Arch :=
  { running := h.arch.running, seq := h.arch.seq, sent := h.arch.sent, minSec := 0,
    east := { carrier := h.arch.east.carrier }, west := { carrier := h.arch.west.carrier } }

/-- The fault stores after a WP: the Steward queue and the log are kept, partition queues cleared; after a log loss both copies
start empty, and PSEQ goes on (R583, R709). -/
def wpFaults (h : Hw) : Faults :=
  let f := h.faults
  let x := queueAt h 17
  let empty : FaultQueue := { head := queueTail x, q := x.q, irqMin := x.irqMin, irqEntry := x.irqEntry, lastSeq := x.lastSeq,
                              ovf := x.ovf }
  if logLost h then { log := { pseq := f.log.pseq }, queues := tabPut {} [] 17 empty, fences := f.fences, faultN := f.faultN }
  else { f with queues := tabPut {} [] 17 (queueAt h 17), intSteward := 0xFFFF }

/-- An edge block after a WP: the flash and its slots, the anchor strap and the pins' levels are kept; ports are in hot reset and
every function unowned (R164). -/
def wpEdges (e : Edges) : Edges :=
  let f (x : RootPort) : RootPort := { x with up := false, training := false, contained := false, hotReset := x.exists_, discards := 0,
                                              devErrors := 0, base := 0, limit := 0, timeoutMs := 10 }
  { e with ports := tabMap {} e.ports (fun _ x => f x), funcs := [], decoders := [], tapSegs := [], wrapIr := [],
           tapIr := if e.tapIr = 1 then 1 else 0 }

/-- Power after a WP: policy and pool at their defaults; sensors, trips and pin levels are the hardware's own (R553). -/
def wpPower (p : Power) : Power :=
  { rails := tabMap {} p.rails (fun _ r => ({ current := r.current, dead := r.dead, engaged := r.engaged } : Rail)),
    sensors := p.sensors, sampled := p.sampled, prochot := p.prochot, extHot := p.extHot, tripped := p.tripped,
    droops := p.droops, loopMiss := p.loopMiss, yields := p.yields, inputW := p.inputW, loopAt := p.loopAt, telemAt := p.telemAt }

/-- Memory hardware after a WP: training and repairs stand (R163, Table 10.7), but for training that a package fence cut short (chapter 10,
When things fall together); the memories stay in self-refresh while the package is Fenced (R323). -/
def wpMemHw (m : MemHw) (cut : Bool) : MemHw := { m with acts := [], raa := [], tests := [], rowTests := [], training := m.training && !cut }

/-- Keys of the channels of a tier: flex sites that hold a stack, or the 128 far-tier channels. -/
def tierUnits (h : Hw) (near : Bool) : List Nat :=
  if near then (List.range 12).filter (fun i => decide (h.ident.sites.getD i .ldie = SiteKind.stack)) else (List.range 128).map (16 + ·)

/-- A stack or channel. -/
def chanAt (h : Hw) (k : Nat) : Channel := tabGet {} h.memhw.chans k

/-- Replace a stack or channel. -/
def setChan (h : Hw) (k : Nat) (c : Channel) : Hw := { h with memhw := { h.memhw with chans := tabPut {} h.memhw.chans k c } }

/-- Whether a tier's training is over: the tier has opened, or a stack or channel of it has failed (R315, R320, R321). -/
def tierDone (h : Hw) (near : Bool) : Bool :=
  (if near then h.memhw.nearOpen else h.memhw.farOpen) || (tierUnits h near).any (fun k => (chanAt h k).failed)

/-- Whether a package fence has stopped training before it was over (chapter 10, When things fall together). -/
def trainCut (h : Hw) : Bool := h.memhw.training && pkgFenced h && !(tierDone h true && tierDone h false)

/-- Partition 0 with keys that no earlier key has had, as a CP or WP draws them (R92, R163). -/
def firstKeys (n : Nat) : Tab Part := tabPut {} [] 0 { farKey := n + 1, nearKey := n + 2 }

/-- A WP begins (Table 5.5, t0 to t0 + 4 ms): READY clears, MGMT_EPOCH advances, the departure is announced, engines and harts
stop, root ports enter hot reset, every key is retired, units clear and partitions 1 to 16 end. -/
def wpBegin (h0 : Hw) (cause : Nat) : Hw :=
  let h := if h0.ident.admitted then broadcast h0 0x0C [] else h0
  let boxes := allMbx.foldl (fun t m => tabPut {} t (mbxKey m) { prevId := (boxAt h m).session, prevKind := PrevKind.wiped, sessions := (boxAt h m).sessions }) []
  let n := h.sel.keyCount
  let sel : Selvedge := { base := .blank, keyCount := n + 2, parts := firstKeys n, scrubSeq := h.sel.scrubSeq }
  let ident := { h.ident with position := 0, admitted := false, bench := false }
  let start : Startup := { t0 := h.tb.now, warm := true, fromCode := 2, cause := cause, entryTb := h.tb.now, checked := true,
                           wp := some h.tb.now, resetFuncs := h.edges.funcs.length, retrain := trainCut h, wakeSeq := h.start.wakeSeq, report := h.start.report, fwOk := h.start.fwOk }
  { ident := ident, tb := { h.tb with unsynced := true, netHold := false }, sel := sel, faults := wpFaults h,
    memhw := wpMemHw h.memhw (trainCut h), edges := wpEdges h.edges, power := wpPower h.power, arch := freshArch h, keep := h.keep,
    efano := { epoch := h.efano.epoch + 1, boxes := boxes }, start := start, free := h.free }

/-- Fences that a WP lifts: every one, but a package fence of THERMTRIP, which needs CP (Table 19.10). -/
def wpLifts (f : Fence) : Bool := !(decide (f.scope = Scope.package) && f.causes.any (fun c => decide (c.type = 0x0707)))

/-- WP_ZEROISED (t0 + 200 ms of Table 5.5): every swatch of regions 0 to 2 is FREE, memory is zero, the record is written, and
the fences end (R591). -/
def wpZeroised (hm : HM) : HM :=
  match hm.1.start.wp with
  | some t =>
    let h := advanceTo hm.1 (t + 200000000)
    let h1 := { h with sel := { h.sel with base := .free, swatches := [] }, start := { h.start with wp := none } }
    let h2 := recordWrite h1 { type := 0x0301, cls := 0, part := 0xFF, arg0 := 200000 }
    let h3 := liftFences h2 wpLifts 0x0E04
    (if pkgFenced h3 then h3
     else { h3 with faults := { h3.faults with faultN := true }, memhw := setSelfRefresh h3.memhw false }, [])
  | none => hm

/-- A CP begins at an instant of the time base that starts from the real-time clock, where that is valid (R154, Table 5.8): only the
keep-alive domain, the fuses, the flash and what repairs burnt in survive. -/
def coldStart (h : Hw) (cause : Nat) : Hw :=
  let k := h.keep
  let rtc := k.rtc + (h.tb.now - k.rtcAt)
  let now := if k.rtcValid then rtc else 0
  let chans := tabMap {} h.memhw.chans (fun _ c => { cached := c.cached })
  let edges : Edges := { anchor := h.edges.anchor, fw := h.edges.fw, active := h.edges.active, bootAct := h.edges.bootAct,
                         flash := h.edges.flash }
  let mem : MemHw := { chans := chans, rowFuse := h.memhw.rowFuse, laneFuse := h.memhw.laneFuse, rowUsed := h.memhw.rowUsed, laneUsed := h.memhw.laneUsed, cands := h.memhw.cands,
                       discarded := h.memhw.discarded }
  { ident := { sites := h.ident.sites, fusedMin := h.ident.fusedMin }, tb := { now := now }, keep := { k with rtc := rtc, rtcAt := now },
    memhw := mem,
    edges := edges, start := { t0 := now, cause := cause, fwOk := h.start.fwOk }, free := h.free,
    arch := { east := { carrier := h.arch.east.carrier }, west := { carrier := h.arch.west.carrier } },
    sel := { keyCount := h.sel.keyCount + 2, parts := firstKeys h.sel.keyCount }, power := { extHot := h.power.extHot } }

end Sys2Proof.Machine
end

