-- ==== Sys2Proof/Machine/FaultCmds.lean ====
section
/-! DEFINITION. Faults and stored-data protection (chapters 11 and 19): the causes of doubt, the log's two copies, reconciliation,
patrol reads, and the commands of group 0x0A. -/
namespace Sys2Proof.Machine

/-! ### Records as bytes (Table 19.1) -/

/-- A fault record's 64 bytes, with PHASE as its place gives it. -/
def recBytes (r : FaultRec) (phase : Bool) : List Byte :=
  leBytes 2 r.type ++ leBytes 1 r.cls
  ++ leBytes 1 (flag phase + 2 * flag r.holdover + 4 * flag r.unsynced + 8 * flag r.degraded)
  ++ leBytes 1 r.part ++ leBytes 1 r.scope ++ leBytes 1 r.unitKind ++ leBytes 1 r.position ++ leBytes 8 r.tb ++ leBytes 8 r.seq
  ++ leBytes 4 r.unit ++ leBytes 4 r.count ++ leBytes 8 r.addr ++ leBytes 8 r.arg0 ++ leBytes 8 r.arg1 ++ leBytes 8 r.arg2

/-! ### The log's copies (R581 to R583) -/

/-- Both copies are lost (R583): the last word, then the package fence. -/
def loseLog (h : Hw) : Hw :=
  let f := h.faults
  causeOfDoubt { h with faults := { f with log := { f.log with failed0 := true, failed1 := true, recs := [], ctrs := List.replicate 6 {} } } }
    .package 19 0 0xFF { type := 0x0807 }

/-- LOG_COPY_FAIL (R581): the copy is marked failed as a whole; with the other sound, the record is the next one it takes. -/
def logCopyFail (h : Hw) (copy addr : Nat) : Hw :=
  let l := h.faults.log
  if copy > 1 ∨ (if copy = 0 then l.failed0 else l.failed1) then h
  else if (if copy = 0 then l.failed1 else l.failed0) then loseLog h
  else
    let l' := if copy = 0 then { l with failed0 := true } else { l with failed1 := true }
    recordWrite { h with faults := { h.faults with log := l' } }
      { type := 0x0801, cls := 4, part := 0xFF, unitKind := 19, unit := copy, addr := addr, arg0 := copy }

/-- LOG_LOST (R583): both copies fail in one cycle, or the last sound one does. -/
def logLostEvent (h : Hw) : Hw := if logLost h then h else loseLog h

/-- RATE_LIMIT_FLUSH (R573): the second after a record of a type and unit ends; pending occurrences are written. -/
def rateFlush (h : Hw) (type unit : Nat) : Hw :=
  let key := type * 2 ^ 32 + unit
  let x := tabGet {} h.faults.rates key
  let put (h : Hw) (y : RateState) : Hw := { h with faults := { h.faults with rates := tabPut {} h.faults.rates key y } }
  if x.armed then
    let h1 := advanceTo h (x.last + second)
    if x.pending = 0 then put h1 {}
    else put (recordWrite h1 { x.record with count := x.pending }) { armed := true, last := h1.tb.now, record := x.record }
  else h

/-! ### Device metadata (R352, Table 11.7) -/

/-- The die of a hart's cluster, for ARG1. -/
def hartDie (n : Nat) : Nat := n / 64

/-- An uncorrectable error in device metadata. -/
def metaUe (h : Hw) (u : MetaUnit) : Hw :=
  match u with
  | .table die => causeOfDoubt h .package 0 0 0xFF { type := 0x0504, arg0 := 0, arg1 := die }
  | .poisonMap die => causeOfDoubt h .package 0 0 0xFF { type := 0x0504, arg0 := 1, arg1 := die }
  | .keySlot p near => causeOfDoubt h .partition 0 0 p { type := 0x0103, arg0 := flag near }
  | .directory n die =>
    let o := tabGet 0 h.coh.wayOwner n
    causeOfDoubt h .partition 0 0 (if o = 0 then 0xFF else o - 1) { type := 0x0505, arg0 := n, arg1 := die }
  | .cacheTags n place =>
    causeOfDoubt h .unit 2 (n / 8) (unitPart h 2 (n / 8)) { type := 0x0508, arg0 := n, arg1 := place.source }
  | .ferry f => causeOfDoubt h .unit 4 (f / 8) (unitPart h 4 (f / 8)) { type := 0x0506, arg0 := f }
  | .slip s off => causeOfDoubt h .unit 5 s (unitPart h 5 s) { type := 0x0507, arg0 := off }
  | .shelfTag slot set =>
    corrected (sweepSlice { h with coh := { h.coh with caches := tabClear h.coh.caches (fun k => decide (k = (400 + slot) * 2 ^ 20 + set)) } } slot)
      2 slot 0 none
  | .cralu off => mrBegin (recordWrite h { type := 0x050B, cls := 0, part := 0xFF, addr := off })
  | .candidates =>
    recordWrite { h with memhw := { h.memhw with cands := [] } } { type := 0x050C, cls := 0, part := 0xFF }

/-! ### Reconciliation (R592, R593) -/

/-- The island a unit stands on, if it is gateable. -/
def unitIsland (kind idx : Nat) : Option Island :=
  match kind with
  | 2 => some { kind := .cluster, idx := idx }
  | 3 => some { kind := .quad, idx := idx }
  | 4 => some (if idx < 32 then { kind := .ferryGroup, idx := idx } else { kind := .cFerry, idx := idx - 32 })
  | 10 => some { kind := .shelf, idx := idx }
  | 11 => some { kind := .rootPort, idx := idx }
  | 12 => some (if idx < 2 then { kind := .baseIdurrum, idx := idx } else { kind := .ldiePort, idx := idx - 2 })
  | _ => none

/-- The more restrictive of two disagreeing states applies at once (R593 step 1). -/
def restrict (h : Hw) (m : Mismatch) : Hw :=
  if m.kind = 1 then
    let s := swGet h m.idx
    forgetLines (setSwatch h m.idx { s with state := if s.state = SwState.scrubbing then .scrubbing else .held })
      (fun l => decide (regionOf (l * 64) ≤ 2 ∧ swatchOf (l * 64) = m.idx))
  else if m.fld = 1 then setUnit h m.kind m.idx { unitAt h m.kind m.idx with owner := 31 }
  else if m.fld = 3 then
    match unitIsland m.kind m.idx with
    | some i => setIsland h i { islandAt h i with power := .gated, hasTb := false, held := 0 }
    | none => h
  else h

/-- The partitions two views name. -/
def namedBy (m : Mismatch) : List Nat := ([m.mgmtOwner, m.dataOwner].filter (fun p => decide (p ≤ 16))).eraseDups

/-- A disagreement of the two views (R593). -/
def disagree (h : Hw) (m : Mismatch) : Hw :=
  let part := if m.kind = 1 then (namedBy m).headD 0xFF else unitPart h m.kind m.idx
  let h1 := restrict h m
  let r : FaultRec := { type := 0x0803, arg0 := m.mgmt, arg1 := m.data, arg2 := m.fld }
  if m.kind = 1 then
    if m.split || decide ((namedBy m).length ≠ 1) then causeOfDoubt h1 .package 1 m.idx 0xFF r
    else causeOfDoubt h1 .partition 1 m.idx part r
  else causeOfDoubt h1 .unit m.kind m.idx part r

/-- Whether the journal holds a committed command that is not finished (R150, R151). -/
def journalOpen (h : Hw) : Bool := allMbx.any (fun m => (boxAt h m).reqs.any (fun r => (r.begun || leftToRun r) && !r.ended))

/-- RECONCILIATION (R592): the views are compared. During an MR the periodic comparison is suspended; once every committed command found
in the journal has completed, the full comparison before READY is run (R151). -/
def reconciliation (h : Hw) (ms : List Mismatch) : Hw :=
  if h.efano.mr.isSome then
    if journalOpen h then h
    else let h1 := ms.foldl disagree h; { h1 with efano := { h1.efano with agreed := true } }
  else ms.foldl disagree h

/-! ### Causes of doubt (Table 19.8) -/

/-- The third MR in a row that has not reached READY (R152). -/
def mrDoubt (h : Hw) : Hw := causeOfDoubt h .package 0 0 0xFF { type := 0x0803, arg2 := 7 }

/-- CAUSE_OF_DOUBT (R585, R586): a cause at the scope Table 19.8 gives it. A scrub that fails is judged by `doubtScrub`. -/
def doubt (h : Hw) (c : DoubtCause) : Hw :=
  match c with
  | .metadata u => metaUe h u
  | .strait a b hs part =>
    let u := if gateableKind a.kind then islandUnit a else islandUnit b
    causeOfDoubt h (if gateableKind a.kind || gateableKind b.kind then .unit else .package) u.1 u.2 part
      { type := 0x0203, arg0 := flag hs, arg1 := islandKey b }
  | .dieLink n => causeOfDoubt h .package 14 n 0xFF { type := 0x0203, arg0 := 2 }
  | .stray b cls part => causeOfDoubt h .unit (islandUnit b).1 (islandUnit b).2 part { type := 0x0202, arg0 := classIdx cls }
  | .scrub .. => h
  | .mismatch m => disagree h m
  | .mrFailures => mrDoubt h
  | .tamper n => causeOfDoubt h .package 0 0 0xFF { type := 0x0804, arg0 := n }
  | .thermalTrip k u t => causeOfDoubt { h with power := { h.power with tripped := true } } .package k u 0xFF { type := 0x0707, arg0 := t }
  | .railOvershoot r ma => causeOfDoubt h .package 15 r 0xFF { type := 0x0706, arg0 := ma }
  | .logLost => logLostEvent h
  | .firmware => causeOfDoubt h .package 0 0 0xFF { type := 0x0805, arg0 := 2, arg1 := h.ident.position }
  | .peer t a b => causeOfDoubt h .membership 0 0 0xFF { type := t, arg0 := a, arg1 := b }

/-- A cause of doubt over the hardware and the byte memory: one unit of a scrub fails, and the scrub ends with the others sound (R102). -/
def doubtAll (hm : HM) (c : DoubtCause) : HM :=
  match c with
  | .scrub seq i a => match findScrub hm.1 seq with
    | some r => scrubComplete hm seq (some (r.kind, i, a))
    | none => hm
  | c => (doubt hm.1 c, hm.2)

/-! ### Patrol reads (R349 to R351) -/

/-- Row of Table 11.6 of a unit that a patrol reads. -/
def patrolRow : PatrolUnit → Nat
  | .far .. => 0 | .near .. => 1 | .scratch _ => 2 | .bobbin .. => 2 | .cache .. => 3 | .word .. => 4

/-- The bucket a corrected error of a unit adds an event to: class and index (Table 11.5). -/
def patrolBucket (h : Hw) : PatrolUnit → Nat × Nat
  | .far a rank bank _ => (0, ((farChannel (offsetOf a)).1 * 64 + (farChannel (offsetOf a)).2) * 1024 + rank * 256 + bank)
  | .near a bank _ => (1, ((nearPlace h (offsetOf a)).2.1 * 64 + (nearPlace h (offsetOf a)).2.2.2) * 256 + bank)
  | .scratch a => (2, slotOfSwatch (swatchOf a))
  | .bobbin l _ => (3, l / 4)
  | .cache c _ => (4, c)
  | .word k n => (5, 64 * k + n / 4096)

/-- The address a unit's bucket and records name; zero where it has none. -/
def patrolAddr : PatrolUnit → Nat
  | .far a _ _ _ => a | .near a _ _ => a | .scratch a => a | .cache _ a => a | _ => 0

/-- The owner a patrol record goes to, 0xFF for none. -/
def patrolOwner (h : Hw) : PatrolUnit → Nat
  | .bobbin l _ => unitPart h 3 (l / 4)
  | .word 0 n => unitPart h 6 (n / 256)
  | .word 1 n => unitPart h 7 (n / 16)
  | .word _ n => n / 64
  | .cache c _ => unitPart h 2 c
  | u => unitPart h 1 (swatchOf (patrolAddr u))

/-- A unit found uncorrectable is marked poisoned in place (R342, R350). -/
def patrolMark (h : Hw) : PatrolUnit → Hw
  | .bobbin l g => bobMark h l g true
  | .word 0 n => setKnot h n { knotAt h n with poison := true }
  | .word 1 n => { h with sync := { h.sync with ledgers := tabMod {} h.sync.ledgers n (fun l => { l with poison := 15 }) } }
  | .word _ n => { h with sync := { h.sync with pools := tabMod {} h.sync.pools n (fun l => { l with poison := true }) } }
  | u => markPoison h (patrolAddr u)

/-- Whether a unit that a patrol reads is marked poisoned already. -/
def patrolMarked (h : Hw) : PatrolUnit → Bool
  | .bobbin l g => tabGet false h.tiers.poison (l * 256 + g)
  | .word 0 n => (knotAt h n).poison
  | .word 1 n => decide ((tabGet {} h.sync.ledgers n).poison ≠ 0)
  | .word _ n => (tabGet {} h.sync.pools n).poison
  | u => poisoned h (patrolAddr u)

/-- Whether the storage of a unit is patrolled (R351): in Active and Idle, memory in Drowse too; nothing in a gated island or in a tier that
takes no traffic. -/
def patrolled (h : Hw) (u : PatrolUnit) : Bool :=
  let open_ (i : Island) : Bool := decide ((islandAt h i).power ≠ IslandPower.gated)
  (decide (h.start.st = PowerSt.active ∨ h.start.st = PowerSt.idle) || (decide (h.start.st = PowerSt.drowse) && decide (patrolRow u < 2)))
  && !h.memhw.selfRefresh
  && (match u with
      | .far .. => h.memhw.farOpen
      | .near .. => h.memhw.nearOpen
      | .bobbin l _ => open_ { kind := .quad, idx := l / 4 }
      | .cache c _ => open_ { kind := .cluster, idx := c }
      | .scratch a => open_ { kind := .shelf, idx := slotOfSwatch (swatchOf a) }
      | .word .. => true)

/-- PATROL_READ (R350): a scrubber reads its next unit. An uncorrectable error marks a unit, makes a memory row a repair candidate (R328)
and is recorded; one found in a unit already marked is ignored (R342, Table 11.3). -/
def patrolRead (h : Hw) (u : PatrolUnit) (e : Upset) : Hw :=
  if !patrolled h u then h
  else
    let h0 := { h with ecc := { h.ecc with patrolPos := tabMod 0 h.ecc.patrolPos (patrolRow u) (· + 1) } }
    let cand := match u with
      | .far a rank bank row => candidateOf h a rank bank row
      | .near a bank row => candidateOf h a 0 bank row
      | _ => none
    if e.counts then
      let b := patrolBucket h u
      corrected h0 b.1 b.2 (patrolAddr u) cand
    else if e.isUe && !patrolMarked h u then
      let h1 := match cand with
        | some c => addCandidate (patrolMark h0 u) c
        | none => patrolMark h0 u
      recordWrite h1 { type := 0x0503, cls := 0, part := patrolOwner h u,
                       addr := if patrolAddr u = 0 then 0 else toCompact h.ident.position (patrolAddr u / 64 * 64) }
    else h0

/-! ### FENCE_STATUS, LOG_ and FAULT_QUEUE commands -/

/-- One FENCE_STATUS entry; a cause whose record entered neither store shows all ones. -/
def fenceEntry (f : Fence) (c : Cause) : List Byte :=
  leBytes 8 (c.pseq.getD (2 ^ 64 - 1)) ++ leBytes 2 c.type ++ leBytes 1 (scopeCode f.scope) ++ leBytes 1 (flag c.pending)
  ++ leBytes 1 c.kind ++ leBytes 1 f.part ++ zeros 2 ++ leBytes 4 c.unit ++ zeros 4

/-- Whether FENCE_STATUS of a PART shows a fence: 0xFF shows every one. -/
def fenceShown (p : Nat) (f : Fence) : Bool := decide (p = 0xFF) || (decide (f.part = p) && decide (f.scope = Scope.partition ∨ f.scope = Scope.unit))

/-- FENCE_STATUS (R595). -/
def fenceStatus (m : Mbx) (hm : HM) (r : Req) : HM × Reply :=
  let h := hm.1
  let p := leAt r.payload 0 1
  let other := match m with | .part q => decide (p ≠ q) | _ => false
  if other then (hm, deny 0x21 0)
  else if p > 16 ∧ p ≠ 0xFF then (hm, deny 0x20 0)
  else
    let es := ((h.faults.fences.filter (fenceShown p)).flatMap (fun f => f.causes.map (fenceEntry f))).eraseDups
    let fl := flag (pkgFenced h) + 2 * flag (memberFenced h) + 4 * flag (logDegraded h) + 8 * flag (logLost h)
    (hm, doneQ (leBytes 1 fl ++ zeros 7 ++ paged m 8 24 (leAt r.payload 4 4) (leAt r.payload 8 2) es))

/-- LOG_READ (R580, R583): from a PSEQ, with the log's class counters and the last word. -/
def logRead (m : Mbx) (hm : HM) (r : Req) : HM × Reply :=
  let h := hm.1
  let l := h.faults.log
  let all := if logLost h then [] else l.recs.filter (fun x => decide (leAt r.payload 0 8 ≤ x.seq))
  let mx := leAt r.payload 8 2
  let fit := (messageLimit m - 168) / 64
  let rs := all.take (if mx = 0 then fit else min mx fit)
  let ctrs := if logLost h then zeros 144 else l.ctrs.flatMap (fun c => leBytes 8 c.count ++ leBytes 8 c.first ++ leBytes 8 c.last)
  let fl := flag (logLost h) + 2 * flag (logDegraded h) + 4 * flag (decide (rs.length < all.length))
  let first := match rs with
    | x :: _ => x.seq
    | [] => 0
  (hm, doneQ (leBytes 4 rs.length ++ leBytes 1 fl ++ zeros 3 ++ leBytes 8 first ++ leBytes 8 h.keep.lastWord.toNat ++ ctrs
    ++ rs.flatMap (fun x => recBytes x false)))

/-- LOG_RELEASE (R580). -/
def logRelease (hm : HM) (r : Req) : HM × Reply :=
  let h := hm.1
  let l := h.faults.log
  (({ h with faults := { h.faults with log := { l with recs := l.recs.filter (fun x => decide (leAt r.payload 0 8 < x.seq)) } } }, hm.2), doneC)

/-- The records present in a queue, oldest first. -/
def queueRecs (h : Hw) (k : Nat) : List (List Byte) :=
  let x := queueAt h k
  if logLost h then []
  else (List.range (queueUsed x)).map (fun i =>
    let f := tabGet {} x.recs ((x.head.toNat + i) % 4096)
    recBytes f f.phase)

/-- FAULT_QUEUE_READ (R574). -/
def faultQueueRead (m : Mbx) (hm : HM) (r : Req) : HM × Reply :=
  let q := leAt r.payload 0 1
  let other := match m with | .part p => decide (p ≠ q) | _ => false
  if other then (hm, deny 0x21 0)
  else if q > 17 then (hm, deny 0x20 0)
  else (hm, doneQ (paged m 0 64 (leAt r.payload 4 4) (leAt r.payload 2 2) (queueRecs hm.1 q)))

/-! ### UNIT_RECONCILE, SCRUB_RETRY, LOG_RESYNC, LAST_WORD_CLEAR -/

/-- Mark causes cleared in every fence. -/
def clearCauses (h : Hw) (p : Cause → Bool) : Hw :=
  { h with faults := { h.faults with fences := h.faults.fences.map (fun f => { f with causes := f.causes.map (fun c =>
      if p c then { c with pending := false } else c) }) } }

/-- The unit fence of a unit is lifted where none of its causes is pending. -/
def liftIfClear (h : Hw) (kind idx cmd : Nat) : Hw :=
  if h.faults.fences.any (fun f => decide (f.scope = Scope.unit ∧ f.kind = kind ∧ f.unit = idx) && !f.causes.any (·.pending)) then
    liftUnit h kind idx cmd
  else h

/-- Whether a unit's partition is Fenced, so that the unit is not recovered yet (chapter 19, after Table 19.11). -/
def partFirst (h : Hw) (kind idx : Nat) : Bool := decide (kind ≠ 1) && partFenced h (unitPart h kind idx)

/-- Whether a unit is named by a pending MGMT_DATA_MISMATCH. -/
def mismatched (h : Hw) (kind idx : Nat) : Bool :=
  h.faults.fences.any (fun f => f.causes.any (fun c => c.pending && decide (c.type = 0x0803 ∧ c.kind = kind ∧ c.unit = idx)))

/-- Write both views of a unit's owner from UNIT_RECONCILE (R594 steps 2 and 4). -/
def writeViews (h : Hw) (kind idx owner : Nat) : Hw :=
  if kind = 1 then
    setSwatch h idx (if owner ≤ 16 then { owner := owner, state := .owned, fresh := true } else { state := .free })
  else if 2 ≤ kind ∧ kind ≤ 9 then
    setUnit h kind idx (if owner ≤ 16 then { owner := owner, state := .owned } else {})
  else h

/-- UNIT_RECONCILE (R594): the unit passes through SCRUBBING (R89), and stays there where its scrub fails or the views disagree: the more
restrictive state is in force (R132). `agree`: the views read back agree; `bad`: the address that the scrub of step 1 miscompares, if any. -/
def unitReconcile (bad : Option Nat) (agree : Bool) (hm : HM) (r : Req) : HM × Reply :=
  let h := hm.1
  let kind := leAt r.payload 0 1
  let idx := leAt r.payload 4 4
  let own := leAt r.payload 8 1
  if partFirst h kind idx then (hm, deny 0x60 0)
  else if own ≠ 0xFF ∧ (own > 16 ∨ !partExists h own) then (hm, deny 0x20 0)
  else if !mismatched h kind idx then (hm, deny 0x20 0x100)
  else
    let from_ := let o := ownerOf h kind idx; if o = 31 then 0xFF else o
    let rec0 : ScrubRec := { seq := h.sel.scrubSeq, from_ := from_, method := methodOf kind, kind := kind,
                             first := if kind = 1 then idx * 2 ^ 21 else idx, units := [idx], startTb := h.tb.now, endTb := h.tb.now,
                             samples := samplesOf kind 1 1, position := h.ident.position, done := true }
    let h0 := if kind ≤ 9 then { h with sel := { h.sel with scrubs := rec0 :: h.sel.scrubs, scrubSeq := rec0.seq + 1 } } else h
    let hs := if kind ≤ 9 then revokeUnit h0 kind idx else h0
    match bad with
    | some a => ((failScrub (setScrub hs { rec0 with failed := true }) rec0 idx a, hm.2), { status := 0xF0, commit := true })
    | none =>
      let o := clearUnit (hs, hm.2) kind idx false false
      if agree then
        let h1 := writeViews o.1 kind idx own
        let h2 := clearCauses h1 (fun c => decide (c.type = 0x0803 ∧ c.kind = kind ∧ c.unit = idx))
        let h3 := if kind = 1 then h2 else unitReset h2 kind idx
        ((liftIfClear h3 kind idx 0x0A05, o.2), doneC)
      else
        let h1 := if 2 ≤ kind ∧ kind ≤ 9 then setUnit o.1 kind idx { owner := 31, state := .scrubbing } else o.1
        ((causeOfDoubt h1 .unit kind idx (unitPart h1 kind idx) { type := 0x0803, arg2 := 1 }, o.2), { status := 0xF0, commit := true })

/-- Whether a unit's scrub has failed. -/
def scrubFailed (h : Hw) (kind idx : Nat) : Bool := if kind = 1 then (swGet h idx).failed else (unitAt h kind idx).failed

/-- SCRUB_RETRY (R597). `bad`: the address that miscompares again, if any. -/
def scrubRetry (bad : Option Nat) (hm : HM) (r : Req) : HM × Reply :=
  let h := hm.1
  let kind := leAt r.payload 0 1
  let idx := leAt r.payload 4 4
  if partFirst h kind idx then (hm, deny 0x60 0)
  else if !scrubFailed h kind idx then (hm, deny 0x20 0x100)
  else
    let old := (h.sel.scrubs.find? (fun x => decide (x.kind = kind) && decide (idx ∈ x.units) && x.failed)).getD {}
    let rec0 : ScrubRec := { old with kind := kind, seq := h.sel.scrubSeq, units := [idx], first := if kind = 1 then idx * 2 ^ 21 else idx,
                                      startTb := h.tb.now, endTb := h.tb.now, done := true, grant := none, failed := bad.isSome }
    let h0 := { h with sel := { h.sel with scrubs := rec0 :: h.sel.scrubs, scrubSeq := rec0.seq + 1 } }
    match bad with
    | some a => ((failScrub h0 rec0 idx a, hm.2), doneC (leBytes 1 1 ++ zeros 7))
    | none =>
      let o := passScrub (h0, hm.2) rec0 [idx]
      let h1 := clearCauses o.1 (fun c => decide (c.type = 0x0102 ∧ c.kind = kind ∧ c.unit = idx))
      ((liftIfClear h1 kind idx 0x0A06, o.2), doneC (zeros 8))

/-- LOG_RESYNC (R582). `result`: 0 the pattern check passes, 1 it fails, 2 the sound copy fails meanwhile. -/
def logResync (result : Nat) (hm : HM) (r : Req) : HM × Reply :=
  let h := hm.1
  let l := h.faults.log
  let copy := leAt r.payload 0 1
  if copy > 1 then (hm, deny 0x20 0)
  else if logLost h then (hm, deny 0x20 0x101)
  else if !(if copy = 0 then l.failed0 else l.failed1) then (hm, deny 0x20 0x100)
  else if result = 0 then
    let h1 := { h with faults := { h.faults with log := { l with failed0 := false, failed1 := false } } }
    ((recordWrite h1 { type := 0x0802, cls := 0, part := 0xFF, unitKind := 19, unit := copy, arg0 := copy }, hm.2), doneC (zeros 8))
  else if result = 1 then (hm, doneC (leBytes 1 1 ++ zeros 7))
  else ((loseLog h, hm.2), { status := 0xF0, commit := true })

/-- LAST_WORD_CLEAR (R584). -/
def lastWordClear (hm : HM) (_ : Req) : HM × Reply :=
  let h := hm.1
  (({ h with keep := { h.keep with lastWord := 0 } }, hm.2), doneC (leBytes 8 h.keep.lastWord.toNat))

/-! ### Buckets, patrols and poison -/

/-- BUCKET_SET (R347): a COUNT above the new CAPACITY is clamped to it. -/
def bucketSet (hm : HM) (r : Req) : HM × Reply :=
  let h := hm.1
  let cls := leAt r.payload 0 1
  let cap := leAt r.payload 2 2
  let per := leAt r.payload 4 4
  if cls > 8 ∨ cap = 0 ∨ per = 0 ∨ per > 86400000 then (hm, deny 0x20 0)
  else
    let e := h.ecc
    let bs := tabMap {} e.buckets (fun k b => if k / 2 ^ 32 = cls then { b with count := min b.count cap } else b)
    (({ h with ecc := { e with cfg := e.cfg.set cls { capacity := cap, periodMs := per }, buckets := bs } }, hm.2), doneC)

/-- BUCKET_GET (R345): the buckets of a class that have seen an event. -/
def bucketGet (m : Mbx) (hm : HM) (r : Req) : HM × Reply :=
  let h := hm.1
  let cls := leAt r.payload 0 1
  if cls > 8 then (hm, deny 0x20 0)
  else
    let c := h.ecc.cfg.getD cls {}
    let es := (h.ecc.buckets.filter (fun e => decide (e.1 / 2 ^ 32 = cls))).map (fun e =>
      leBytes 2 e.2.count ++ leBytes 2 c.capacity ++ leBytes 4 c.periodMs ++ leBytes 8 e.2.lastAddr)
    (hm, doneQ (paged m 0 16 (leAt r.payload 4 4) (leAt r.payload 2 2) es))

/-- Ranges of Table 11.6 in ms. -/
def patrolRange (row : Nat) : Nat × Nat :=
  match row with
  | 0 | 1 => (3600000, 604800000)
  | 2 => (100, 60000)
  | _ => (1000, 600000)

/-- PATROL_SET (R351). -/
def patrolSet (hm : HM) (r : Req) : HM × Reply :=
  let h := hm.1
  let row := leAt r.payload 0 1
  let per := leAt r.payload 4 4
  if row = 4 then (hm, deny 0x20 0x100)
  else if row > 4 ∨ per < (patrolRange row).1 ∨ (patrolRange row).2 < per then (hm, deny 0x20 0)
  else (({ h with ecc := { h.ecc with patrolMs := h.ecc.patrolMs.set row per } }, hm.2), doneC)

/-- Whether a SWATCH field names a swatch of this package's regions 0 to 2. -/
def swatchField (h : Hw) (a : Nat) : Bool := decide (a % 2 ^ 21 = 0 ∧ a < 2 ^ 52) && swatchExists h (a / 2 ^ 21)

/-- POISON_QUERY (R339). -/
def poisonQuery (m : Mbx) (hm : HM) (r : Req) : HM × Reply :=
  let h := hm.1
  let a := leAt r.payload 0 8
  let mine := match m with | .part p => decide (ownerOf h 1 (a / 2 ^ 21) = p) | _ => true
  if !mine then (hm, deny 0x21 0)
  else if !swatchField h a then (hm, deny 0x20 0)
  else
    let ls := (h.coh.poison.filter (fun e => decide (swatchOf (e.1 * 64) = swatchOf a))).map (fun e =>
      leBytes 8 (toCompact h.ident.position (e.1 * 64)))
    (hm, doneQ (leBytes 1 (flag (tabGet false h.coh.swPoison (swatchOf a))) ++ zeros 7
      ++ paged m 8 8 (leAt r.payload 8 4) (leAt r.payload 12 2) ls))

/-- POISON_CLEAR (R353): zero under the owner's key, and every mark cleared. -/
def poisonClear (m : Mbx) (hm : HM) (r : Req) : HM × Reply :=
  let h := hm.1
  let a := leAt r.payload 0 8
  let p := actsFor m
  if ownerOf h 1 (a / 2 ^ 21) ≠ p then (hm, deny 0x21 0)
  else if !swatchField h a then (hm, deny 0x20 0)
  else
    let k := a / 2 ^ 21
    let h1 := dropLines (clearSwatchPoison h k) (fun l => decide (swatchOf (l * 64) = k))
    let h2 := { h1 with coh := { h1.coh with unknown := tabClear h1.coh.unknown (fun l => decide (swatchOf (l * 64) = k)) } }
    let s := swGet h2 k
    ((setSwatch h2 k { s with fresh := false, keyed := false, lost := 0, clean := h.free }, memZero hm.2 a (2 ^ 21)), doneC)

/-! ### The rows -/

/-- CAUSE_OF_DOUBT (R585). -/
def execCauseOfDoubt (c : DoubtCause) (s : State) : Host.Outcome State Fault Refusal := onAll s (fun hm => doubtAll hm c)

/-- RATE_LIMIT_FLUSH (R573). -/
def execRateLimitFlush (type unit : Nat) (s : State) : Host.Outcome State Fault Refusal := onHw s (fun h => rateFlush h type unit)

/-- LOG_COPY_FAIL (R581): the copy struck and the offset. -/
def execLogCopyFail (copy addr : Nat) (s : State) : Host.Outcome State Fault Refusal := onHw s (fun h => logCopyFail h copy addr)

/-- LOG_LOST (R583). -/
def execLogLost (s : State) : Host.Outcome State Fault Refusal := onHw s logLostEvent

/-- RECONCILIATION (R592): the disagreements the comparison finds. -/
def execReconciliation (ms : List Mismatch) (s : State) : Host.Outcome State Fault Refusal := onHw s (fun h => reconciliation h ms)

/-- PATROL_READ (R350). -/
def execPatrolRead (u : PatrolUnit) (e : Upset) (s : State) : Host.Outcome State Fault Refusal := onHw s (fun h => patrolRead h u e)

/-- META_UE (R352). -/
def execMetaUe (u : MetaUnit) (s : State) : Host.Outcome State Fault Refusal := onHw s (fun h => metaUe h u)

/-- FENCE_STATUS (R595). -/
def execFenceStatus (m : Mbx) (tag : Nat) (s : State) : Host.Outcome State Fault Refusal :=
  onAll s (fun hm => serve hm m tag 0x0A01 (fenceStatus m))

/-- LOG_READ (R580). -/
def execLogRead (m : Mbx) (tag : Nat) (s : State) : Host.Outcome State Fault Refusal :=
  onAll s (fun hm => serve hm m tag 0x0A02 (logRead m))

/-- LOG_RELEASE (R580). -/
def execLogRelease (m : Mbx) (tag : Nat) (s : State) : Host.Outcome State Fault Refusal :=
  onAll s (fun hm => serve hm m tag 0x0A03 logRelease)

/-- FAULT_QUEUE_READ (R574). -/
def execFaultQueueRead (m : Mbx) (tag : Nat) (s : State) : Host.Outcome State Fault Refusal :=
  onAll s (fun hm => serve hm m tag 0x0A04 (faultQueueRead m))

/-- UNIT_RECONCILE (R594): an address the scrub miscompares, and whether the views read back agree. -/
def execUnitReconcile (m : Mbx) (tag : Nat) (bad : Option Nat) (agree : Bool) (s : State) : Host.Outcome State Fault Refusal :=
  onAll s (fun hm => serve hm m tag 0x0A05 (unitReconcile bad agree))

/-- SCRUB_RETRY (R597): an address that miscompares again. -/
def execScrubRetry (m : Mbx) (tag : Nat) (bad : Option Nat) (s : State) : Host.Outcome State Fault Refusal :=
  onAll s (fun hm => serve hm m tag 0x0A06 (scrubRetry bad))

/-- LOG_RESYNC (R582): 0 the pattern check passes, 1 it fails, 2 the sound copy fails meanwhile. -/
def execLogResync (m : Mbx) (tag : Nat) (result : Nat) (s : State) : Host.Outcome State Fault Refusal :=
  onAll s (fun hm => serve hm m tag 0x0A07 (logResync result))

/-- LAST_WORD_CLEAR (R584). -/
def execLastWordClear (m : Mbx) (tag : Nat) (s : State) : Host.Outcome State Fault Refusal :=
  onAll s (fun hm => serve hm m tag 0x0A08 lastWordClear)

/-- BUCKET_SET (R347). -/
def execBucketSet (m : Mbx) (tag : Nat) (s : State) : Host.Outcome State Fault Refusal :=
  onAll s (fun hm => serve hm m tag 0x0A10 bucketSet)

/-- BUCKET_GET (R345). -/
def execBucketGet (m : Mbx) (tag : Nat) (s : State) : Host.Outcome State Fault Refusal :=
  onAll s (fun hm => serve hm m tag 0x0A11 (bucketGet m))

/-- PATROL_SET (R351). -/
def execPatrolSet (m : Mbx) (tag : Nat) (s : State) : Host.Outcome State Fault Refusal :=
  onAll s (fun hm => serve hm m tag 0x0A12 patrolSet)

/-- POISON_QUERY (R339). -/
def execPoisonQuery (m : Mbx) (tag : Nat) (s : State) : Host.Outcome State Fault Refusal :=
  onAll s (fun hm => serve hm m tag 0x0A13 (poisonQuery m))

/-- POISON_CLEAR (R353). -/
def execPoisonClear (m : Mbx) (tag : Nat) (s : State) : Host.Outcome State Fault Refusal :=
  onAll s (fun hm => serve hm m tag 0x0A14 (poisonClear m))

end Sys2Proof.Machine
end

