-- ==== Sys2Proof/Machine/Csrs.lean ====
section
/-! DEFINITION. A hart's control and status registers (chapter 6): the custom registers of Table 6.5, the registers of the extensions
of R190 with the parameters of Table 6.2, PMP (R191, R208), and the traps an access to one raises. What the RISC-V specifications give
beyond chapter 6 is log entry 82. -/
namespace Sys2Proof.Machine

/-- Whether a hart executes. -/
def runs (h : Hw) (n : Nat) : Bool :=
  decide (n < 128) && decide (h.start.st = PowerSt.active) && decide ((hartAt h n).run = HartRun.running)

/-- What a hart's CSR holds as plain data. -/
def csrOf (x : Hart) (num : Nat) : Nat := tabGet 0 x.csrs num

/-- A CSR's plain data written. -/
def setCsr (x : Hart) (num v : Nat) : Hart := { x with csrs := tabPut 0 x.csrs num (v % 2 ^ 64) }

/-! ### Traps -/

/-- The mode that takes a trap raised in a hart's present mode (medeleg 0x302, hedeleg 0x602). -/
def trapMode (x : Hart) (cause : Nat) : TrapMode :=
  if decide (x.mode = 3) || !bitOf (csrOf x 0x302) cause then .m
  else if x.virt && bitOf (csrOf x 0x602) cause then .vs else .hs

/-- The status register of the mode that takes a trap, its interrupt enable and mode stacked: mstatus 0x300, which sstatus is a part of,
hstatus 0x600 for what HS mode interrupted, and vsstatus 0x200. -/
def stackStatus (x : Hart) (md : TrapMode) : Hart :=
  let s := csrOf x 0x300
  match md with
  | .m => setCsr x 0x300 (setField (setField (setField (setField s 7 7 (field s 3 3)) 3 3 0) 12 11 x.mode) 39 39 (flag x.virt))
  | .hs =>
    let y := setCsr x 0x300 (setField (setField (setField s 5 5 (field s 1 1)) 1 1 0) 8 8 (x.mode % 2))
    let g := setField (csrOf x 0x600) 7 7 (flag x.virt)
    setCsr y 0x600 (if x.virt then setField g 8 8 (x.mode % 2) else g)
  | .vs =>
    let v := csrOf x 0x200
    setCsr x 0x200 (setField (setField (setField v 5 5 (field v 1 1)) 1 1 0) 8 8 (x.mode % 2))

/-- First of the trap CSRs of a mode: xepc is at 0x41 from it, xcause at 0x42, xtval at 0x43, xtvec at 5. -/
def trapBase : TrapMode → Nat
  | .m => 0x300 | .hs => 0x100 | .vs => 0x200

/-- A hart takes a trap (R199, R209): cause, value and pc are saved in the CSRs of the mode that takes it, its status is stacked, and its
handler runs. One in M-mode while NMIE is 0 goes to the RNMI exception handler of its partition (R206, Smrnmi). -/
def takeTrap (h : Hw) (n cause tval : Nat) : Hw :=
  let x := hartAt h n
  let md := trapMode x cause
  let b := trapBase md
  let y := setCsr (setCsr (setCsr (stackStatus x md) (b + 0x41) x.pc) (b + 0x42) cause) (b + 0x43) tval
  setHart h n { y with trap := some { cause := cause, tval := tval, mode := md, epc := x.pc },
                       mode := match md with | .m => 3 | .hs => 1 | .vs => 1, virt := decide (md = .vs),
                       pc := if !x.nmie && decide (x.mode = 3) then (partAt h (hartOwner h n)).rnmiExc else csrOf x (b + 5) / 4 * 4 }

/-- What a hart's return from a trap leaves (MRET, SRET): the mode it interrupted, its interrupt enable, and no MPRV below M-mode. -/
def xret (x : Hart) (r : XRet) : Hart :=
  let s := csrOf x 0x300
  match r with
  | .none => x
  | .mret =>
    if x.mode ≠ 3 then x
    else
      let mpp := field s 12 11
      let t := setField (setField (setField (setField s 3 3 (field s 7 7)) 7 7 1) 12 11 0) 39 39 0
      { setCsr x 0x300 (if mpp = 3 then t else setField t 17 17 0) with mode := mpp, virt := bitOf s 39 && decide (mpp ≠ 3) }
  | .sret =>
    if x.mode = 0 then x
    else if x.virt then
      let v := csrOf x 0x200
      { setCsr x 0x200 (setField (setField (setField v 1 1 (field v 5 5)) 5 5 1) 8 8 0) with mode := field v 8 8 }
    else
      let t := setField (setField (setField (setField s 1 1 (field s 5 5)) 5 5 1) 8 8 0) 17 17 0
      let g := csrOf x 0x600
      { setCsr (setCsr x 0x300 t) 0x600 (setField g 7 7 0) with mode := field s 8 8, virt := bitOf g 7 }

/-! ### PMP (Table 6.2, R208, Smepmp) -/

/-- The configuration byte of a PMP entry. -/
def pmpCfg (x : Hart) (i : Nat) : Nat := csrOf x (0x3A0 + i / 8 * 2) / 2 ^ (i % 8 * 8) % 256

/-- The top of entry i's TOR range, in 4 KiB pages. -/
def pmpTop (x : Hart) (i : Nat) : Nat := csrOf x (0x3B0 + i) % 2 ^ 54 / 2 ^ 10

/-- Trailing ones of a number, within `n` bits. -/
def onesBelow : Nat → Nat → Nat
  | 0, _ => 0
  | n + 1, v => if v % 2 = 1 then onesBelow n (v / 2) + 1 else 0

/-- Whether a PMP entry matches a compact address, with G = 10: a 4 KiB page is matched as a whole. -/
def pmpMatches (x : Hart) (i ca : Nat) : Bool :=
  match field (pmpCfg x i) 4 3 with
  | 0 => false
  | 1 => decide ((if i = 0 then 0 else pmpTop x (i - 1)) ≤ ca / 4096) && decide (ca / 4096 < pmpTop x i)
  | _ =>
    let y := csrOf x (0x3B0 + i) % 2 ^ 54 ||| 0x1FF
    let t := onesBelow 54 y + 1
    decide (ca / 4 / 2 ^ t = y / 2 ^ t)

/-- What a PMP entry permits: `m`, the access is M-mode's; `k`: 0 read, 1 write, 2 execute. With mseccfg.MML the encodings are Smepmp's. -/
def pmpPermits (mml : Bool) (cfg : Nat) (m : Bool) (k : Nat) : Bool :=
  let r := bitOf cfg 0; let w := bitOf cfg 1; let e := bitOf cfg 2; let l := bitOf cfg 7
  let plain := match k with | 0 => r | 1 => w | _ => e
  if !mml then (m && !l) || plain
  else if !r && w then
    match l, e, k with
    | false, false, 0 => true
    | false, false, 1 => m
    | false, true, 0 => true
    | false, true, 1 => true
    | true, _, 2 => true
    | true, true, 0 => m
    | _, _, _ => false
  else if l && r && w && e then decide (k = 0)
  else plain && decide (l = m)

/-- The mode a hart's access is made with: MPRV lends M-mode's data accesses that of MPP; a page-table access is a supervisor's. -/
def accessMode (x : Hart) (implicit fetch : Bool) : Nat :=
  if implicit then 1
  else if decide (x.mode = 3) && !fetch && bitOf (csrOf x 0x300) 17 then field (csrOf x 0x300) 12 11 else x.mode

/-- Whether PMP allows a hart's access to a compact address (R208): the lowest matching entry decides; without one, M-mode's rule or none. -/
def pmpAllow (x : Hart) (mode ca k : Nat) : Bool :=
  let sec := csrOf x 0x747
  match (List.range 64).find? (fun i => pmpMatches x i ca) with
  | some i => pmpPermits (bitOf sec 0) (pmpCfg x i) (decide (mode = 3)) k
  | none => decide (mode = 3) && !bitOf sec 1 && !(bitOf sec 0 && decide (k = 2))

/-- A write of a PMP configuration register: a locked entry keeps its byte unless RLB, NA4 is not selectable with G = 10, and R = 0 with
W = 1 only with MML. -/
def pmpCfgWrite (x : Hart) (num v : Nat) : Hart :=
  let sec := csrOf x 0x747
  let old := csrOf x num
  setCsr x num ((List.range 8).foldl (fun a k =>
    let b := field v (8 * k + 7) (8 * k) &&& 0x9F
    let o := field old (8 * k + 7) (8 * k)
    if (bitOf o 7 && !bitOf sec 2) || decide (field b 4 3 = 2) || (decide (field b 1 0 = 2) && !bitOf sec 0) then a
    else setField a (8 * k + 7) (8 * k) b) old)

/-- A write of a PMP address register: none while its entry, or the TOR entry above it, is locked. -/
def pmpAddrWrite (x : Hart) (i v : Nat) : Hart :=
  let lock (j : Nat) : Bool := decide (j < 64) && bitOf (pmpCfg x j) 7 && !bitOf (csrOf x 0x747) 2
  if lock i || (lock (i + 1) && decide (field (pmpCfg x (i + 1)) 4 3 = 1)) then x else setCsr x (0x3B0 + i) (v % 2 ^ 54)

/-! ### Which CSRs exist (R190, R198) -/

/-- The numbers the architecture leaves to implementations. -/
def csrCustom (c : Nat) : Bool :=
  let hi := c / 2 ^ 6
  decide (hi ∈ [0x17, 0x1B, 0x1F, 0x27, 0x2B, 0x2F, 0x33, 0x37, 0x3B, 0x3F]) || decide (0x800 ≤ c ∧ c ≤ 0x8FF)

/-- The custom CSRs of Table 6.5. -/
def customCsrs : List Nat := [0x7C0, 0x7C1, 0x7C4, 0x7C5, 0x7C6, 0x5C0, 0x5C1, 0x6C0, 0x6C1, 0xDC0, 0x800]

/-- The standard CSRs of the extensions of R190; those of an omitted extension, and of debug mode, are not among them. -/
def csrStandard (c : Nat) : Bool :=
  decide (c ∈ [0x001, 0x002, 0x003, 0x008, 0x009, 0x00A, 0x00F, 0x015, 0xC20, 0xC21, 0xC22]) || decide (0xC00 ≤ c ∧ c ≤ 0xC1F)
    || decide (c ∈ [0x100, 0x104, 0x105, 0x106, 0x10A, 0x10C, 0x10D, 0x10E, 0x10F, 0x140, 0x141, 0x142, 0x143, 0x144, 0x14D, 0x150, 0x151,
                    0x15C, 0x180, 0xDA0, 0xDB0])
    || decide (c ∈ [0x200, 0x204, 0x205, 0x240, 0x241, 0x242, 0x243, 0x244, 0x24D, 0x250, 0x251, 0x25C, 0x280, 0xEB0])
    || decide (c ∈ [0x600, 0x602, 0x603, 0x604, 0x605, 0x606, 0x607, 0x608, 0x609, 0x60A, 0x60C, 0x60D, 0x60E, 0x60F, 0x643, 0x644, 0x645,
                    0x646, 0x647, 0x64A, 0x680, 0xE12])
    || decide (c ∈ [0xF11, 0xF12, 0xF13, 0xF14, 0xF15, 0x300, 0x301, 0x302, 0x303, 0x304, 0x305, 0x306, 0x308, 0x309, 0x30A, 0x30C, 0x30D,
                    0x30E, 0x30F, 0x320, 0x340, 0x341, 0x342, 0x343, 0x344, 0x34A, 0x34B, 0x350, 0x351, 0x35C, 0xFB0, 0x740, 0x741, 0x742,
                    0x744, 0x747, 0xB00, 0xB02])
    || decide (0x323 ≤ c ∧ c ≤ 0x33F) || (decide (0x3A0 ≤ c ∧ c ≤ 0x3AF) && decide (c % 2 = 0)) || decide (0x3B0 ≤ c ∧ c ≤ 0x3EF)
    || decide (0x7A0 ≤ c ∧ c ≤ 0x7A4) || decide (0xB03 ≤ c ∧ c ≤ 0xB1F)
    || decide (c ∈ [0x152, 0x153, 0x155, 0x156, 0x157, 0x252, 0x253, 0x255, 0x256, 0x257, 0x352, 0x353, 0x355, 0x356, 0x357])

/-- May the hart's mode reach the custom CSR (Table 6.5)? -/
def customOk (x : Hart) (num : Nat) : Bool :=
  match num with
  | 0x5C0 | 0x5C1 | 0xDC0 => decide (1 ≤ x.mode)
  | 0x6C0 | 0x6C1 => decide (1 ≤ x.mode) && (decide (x.mode = 3) || !x.virt)
  | 0x800 => true
  | _ => decide (x.mode = 3)

/-- The privilege a standard CSR asks for and the hart has: 0 U, 1 VS, 2 HS, 3 M. -/
def csrRank (x : Hart) : Nat := if x.mode = 3 then 3 else if x.mode = 1 then (if x.virt then 1 else 2) else 0

/-- An access that bit `b` of a hart's enable registers gates: `me` M-mode's, `he` HS-mode's over VS and VU, `se` S-mode's over U. -/
def gated (x : Hart) (me he se : Bool) : Option Nat :=
  if !me then some 2
  else if x.virt && !he then some 22
  else if decide (x.mode = 0) && !se then some (if x.virt then 22 else 2) else none

/-- Whether an enable stands in the way of a standard CSR below M-mode: counter enables, Zkr's, TVM and VTVM, state enables, STCE. -/
def csrGate (x : Hart) (num : Nat) : Option Nat :=
  let bit (c b : Nat) : Bool := bitOf (csrOf x c) b
  let state (b : Nat) := gated x (bit 0x30C b) (bit 0x60C b) true
  if 0xC00 ≤ num ∧ num ≤ 0xC1F then gated x (bit 0x306 (num - 0xC00)) (bit 0x606 (num - 0xC00)) (bit 0x106 (num - 0xC00))
  else match num with
  | 0x015 => gated x (if x.mode = 1 ∨ x.virt then bit 0x747 9 else bit 0x747 8) false true
  | 0x180 => gated x (x.virt || !bit 0x300 20) (!bit 0x600 20) true
  | 0x680 => gated x (!bit 0x300 20) true true
  | 0x14D => gated x (bit 0x306 1 && bit 0x30A 63) (bit 0x606 1 && bit 0x60A 63) true
  | 0x24D => gated x (bit 0x306 1 && bit 0x30A 63) true true
  | 0x10A | 0x60A => state 62
  | 0x10C | 0x10D | 0x10E | 0x10F | 0x60C | 0x60D | 0x60E | 0x60F => gated x (bit (0x30C + num % 4) 63) (bit (0x60C + num % 4) 63) true
  | 0x15C | 0x25C => state 58
  | 0xDB0 | 0xEB0 | 0x608 | 0x609 | 0x646 | 0x647 => state 59
  | c => if 0x150 ≤ c ∧ c ≤ 0x157 ∨ 0x250 ≤ c ∧ c ≤ 0x257 then state 60 else none

/-- Whether floating-point or vector state is off where a CSR belongs to it. -/
def csrOff (x : Hart) (num : Nat) : Bool :=
  let off (hi lo : Nat) : Bool := decide (field (csrOf x 0x300) hi lo = 0) || (x.virt && decide (field (csrOf x 0x200) hi lo = 0))
  (decide (num ∈ [1, 2, 3]) && off 14 13) || (decide (num ∈ [8, 9, 0xA, 0xF, 0xC20, 0xC21, 0xC22]) && off 10 9)

/-- The exception an access to a CSR raises, if any: 2 illegal instruction, 22 virtual instruction. A number of no extension the hart has
(R190), a custom number from a mode Table 6.5 does not list (R198) and a write of a read-only one are illegal. -/
def csrTrap (x : Hart) (num : Nat) (op : CsrOp) : Option Nat :=
  let ro := decide (field num 11 10 = 3) && decide (op ≠ .read)
  if csrCustom num then (if decide (num ∈ customCsrs) && customOk x num && !ro then none else some 2)
  else if !csrStandard num || ro || (decide (num = 0x015) && decide (op ≠ .write)) || csrOff x num then some 2
  else if csrRank x < field num 9 8 then some (if x.virt && decide (field num 9 8 ≤ 2) then 22 else 2)
  else if x.mode = 3 then none else csrGate x num

/-! ### Interrupt files as a hart sees them (R201, AIA) -/

/-- The interrupt file a level of CSRs reaches: 0 machine, 1 supervisor, 1 + VGEIN the guest's. -/
def csrFile (x : Hart) (lv : Nat) : Nat :=
  match lv with | 3 => 0 | 1 => 1 | _ => 1 + field (csrOf x 0x600) 17 12

/-- Key of an indirect register of a level in a hart's CSR table. -/
def indKey (x : Hart) (lv sel : Nat) : Nat := 2 ^ 16 * (1 + csrFile x lv) + sel

/-- Identities of a file: 255 of the machine level's, 2,047 of another. -/
def fileIds (f : Nat) : Nat := if f = 0 then 255 else 2047

/-- Whether identity i of file f of hart n is pending and enabled (eie registers 0xC0 to 0xFF, 64 bits at the even ones). -/
def fileTakes (h : Hw) (n f i : Nat) : Bool :=
  tabGet false h.imsic ((n * 8 + f) * 2048 + i) && bitOf (tabGet 0 (hartAt h n).csrs (2 ^ 16 * (1 + f) + 0xC0 + i / 64 * 2)) (i % 64)

/-- xtopei of a file: its lowest identity that is pending, enabled and below the threshold of 0x72, twice; zero without one. -/
def topei (h : Hw) (n f : Nat) : Nat :=
  let th := tabGet 0 (hartAt h n).csrs (2 ^ 16 * (1 + f) + 0x72)
  match ((List.range (fileIds f)).map (· + 1)).find? (fun i => (decide (th = 0) || decide (i < th)) && fileTakes h n f i) with
  | some i => i * 2 ^ 16 + i
  | none => 0

/-- Whether a file delivers an interrupt (eidelivery at 0x70). -/
def fileDelivers (h : Hw) (n f : Nat) : Bool :=
  decide (tabGet 0 (hartAt h n).csrs (2 ^ 16 * (1 + f) + 0x70) = 1) && decide (topei h n f ≠ 0)

/-- Write of xtopei: the identity it shows is claimed. -/
def claimTop (h : Hw) (n f : Nat) : Hw :=
  let t := topei h n f / 2 ^ 16
  if t = 0 then h else { h with imsic := tabPut false h.imsic ((n * 8 + f) * 2048 + t) false }

/-- The 64 pending bits an eip register shows. -/
def eipBits (h : Hw) (n f k : Nat) : Nat := bitmapNat 64 (fun j => tabGet false h.imsic ((n * 8 + f) * 2048 + 64 * k + j))

/-- An eip register written. -/
def setEip (h : Hw) (n f k v : Nat) : Hw :=
  (List.range 64).foldl (fun g j =>
    if 64 * k + j = 0 ∨ fileIds f < 64 * k + j then g
    else { g with imsic := tabPut false g.imsic ((n * 8 + f) * 2048 + 64 * k + j) (bitOf v j) }) h

/-! ### Reads and writes -/

/-- Supervisor CSRs that a hart reaches as their VS copies while V is 1. -/
def redirect (x : Hart) (num : Nat) : Nat :=
  if x.virt && decide (num ∈ [0x100, 0x104, 0x105, 0x140, 0x141, 0x142, 0x143, 0x144, 0x14D, 0x150, 0x151, 0x152, 0x153, 0x155, 0x156, 0x157,
                              0x15C, 0x180, 0xDB0]) then num + 0x100 else num

/-- UXL, SXL and VSXL read 64 (Table 6.2). -/
def xl64 : Nat := 2 ^ 33

/-- SD of a status register: FS or VS is dirty. -/
def dirtyBit (s : Nat) : Nat := flag (decide (field s 14 13 = 3) || decide (field s 10 9 = 3)) * 2 ^ 63

/-- Fields of sstatus. -/
def sstatusMask : Nat := 2 ^ 1 + 2 ^ 5 + 2 ^ 8 + 3 * 2 ^ 9 + 3 * 2 ^ 13 + 2 ^ 18 + 2 ^ 19

/-- Fields of mstatus that software writes. -/
def mstatusMask : Nat := sstatusMask + 2 ^ 3 + 2 ^ 7 + 3 * 2 ^ 11 + 2 ^ 17 + 7 * 2 ^ 20 + 2 ^ 38 + 2 ^ 39

/-- Interrupt-pending bits: what software set, the files that deliver, and the supervisor timers that have passed. -/
def mipBits (h : Hw) (n : Nat) : Nat :=
  let x := hartAt h n
  let t := h.tb.now % 2 ^ 64
  csrOf x 0x344 ||| (flag (fileDelivers h n 0) * 2 ^ 11) ||| (flag (fileDelivers h n 1) * 2 ^ 9)
    ||| (flag (decide (field (csrOf x 0x600) 17 12 ≠ 0) && fileDelivers h n (csrFile x 2)) * 2 ^ 10)
    ||| (flag (bitOf (csrOf x 0x30A) 63 && decide (csrOf x 0x14D ≤ t)) * 2 ^ 5)
    ||| (flag (bitOf (csrOf x 0x60A) 63 && decide (csrOf x 0x24D ≤ (t + csrOf x 0x605) % 2 ^ 64)) * 2 ^ 6)

/-- Numbers of mhpmcounters that have overflowed (mhpmevent bit 63, Sscofpmf). -/
def overflowed (x : Hart) : Nat := bitmapNat 32 (fun k => decide (3 ≤ k) && bitOf (csrOf x (0x320 + k)) 63)

/-- The machine-level interrupts VS mode sees, one position lower. -/
def vsBits (v d : Nat) : Nat := (v &&& d &&& 0x444) / 2

/-- What a CSR of a hart reads, once its access raises nothing (Tables 6.2, 6.5): a write-only custom register reads zero (Table 0.4);
cycle, instret and seed are free values. -/
def csrValue (h : Hw) (n num0 : Nat) : Nat :=
  let x := hartAt h n
  let num := redirect x num0
  let c := csrOf x
  let hpm (k : Nat) : Nat := (tabGet (0 : W64) x.hpm k).toNat
  match num with
  | 0x5C0 => (if x.virt then x.vsHwErr else x.hsHwErr).toNat
  | 0x5C1 => (if x.virt then x.vsHwAddr else x.hsHwAddr).toNat
  | 0x6C0 => x.vsHwErr.toNat
  | 0x6C1 => x.vsHwAddr.toNat
  | 0xDC0 => n % 8 + n / 8 * 8
  | 0x7C0 => x.mHwErr.toNat
  | 0x7C1 => x.mHwAddr.toNat
  | 0x7C5 => x.startPc.toNat
  | 0x7C4 | 0x7C6 | 0x800 => 0
  | 0xF11 => 0x0F1A
  | 0xF12 => 0x8000000000000011
  | 0xF13 => 0xB0
  | 0xF14 => n
  | 0xF15 => 0
  | 0x001 => c 3 % 32
  | 0x002 => c 3 / 32
  | 0x009 => c 0xF % 2
  | 0x00A => c 0xF / 2
  | 0x015 => 2 * 2 ^ 30 + (takeFree h).1.toNat % 2 ^ 16
  | 0xC00 | 0xB00 | 0xC02 | 0xB02 => (takeFree h).1.toNat
  | 0xC01 => (h.tb.now + (if x.virt then c 0x605 else 0)) % 2 ^ 64
  | 0xC22 => 32
  | 0x300 => c 0x300 + 5 * xl64 + dirtyBit (c 0x300)
  | 0x100 => (c 0x300 &&& sstatusMask) + xl64 + dirtyBit (c 0x300)
  | 0x200 => c 0x200 + xl64 + dirtyBit (c 0x200)
  | 0x600 => c 0x600 + xl64
  | 0x301 => 2 * 2 ^ 62 + 0x3411AF
  | 0x303 => c 0x303 ||| 0x1444
  | 0x104 => c 0x304 &&& c 0x303
  | 0x144 => mipBits h n &&& c 0x303
  | 0x344 => mipBits h n
  | 0x644 => mipBits h n &&& 0x1444
  | 0x604 => c 0x304 &&& 0x1444
  | 0x645 => c 0x344 &&& 0x444
  | 0x204 => vsBits (c 0x304) (c 0x603)
  | 0x244 => vsBits (mipBits h n) (c 0x603)
  | 0xE12 => bitmapNat 7 (fun k => decide (1 ≤ k) && decide (topei h n (k + 1) ≠ 0))
  | 0xDA0 => if x.mode = 3 then overflowed x else overflowed x &&& c 0x306 &&& (if x.virt then c 0x606 else 2 ^ 32 - 1)
  | 0x741 => x.mnepc
  | 0x742 => x.mncause
  | 0x744 => flag x.nmie * 8 + flag x.mnpv * 2 ^ 7 + x.mnpp * 2 ^ 11
  | 0x7A1 | 0x7A2 | 0x7A3 => c (0x10000 * 64 + c 0x7A0 * 4 + num % 4)
  | 0x7A4 => 0x78
  | 0x35C => topei h n 0
  | 0x15C => topei h n 1
  | 0x25C => topei h n (csrFile x 2)
  | 0x351 => if c 0x350 / 64 = 2 then eipBits h n 0 (c 0x350 % 64 / 2) else c (indKey x 3 (c 0x350))
  | 0x151 => if c 0x150 / 64 = 2 then eipBits h n 1 (c 0x150 % 64 / 2) else c (indKey x 1 (c 0x150))
  | 0x251 => if c 0x250 / 64 = 2 then eipBits h n (csrFile x 2) (c 0x250 % 64 / 2) else c (indKey x 2 (c 0x250))
  | k =>
    if 0xB03 ≤ k ∧ k ≤ 0xB1F then hpm (k - 0xB00)
    else if 0xC03 ≤ k ∧ k ≤ 0xC1F then hpm (k - 0xC00)
    else if 0x3B0 ≤ k ∧ k ≤ 0x3EF then
      (if bitOf (pmpCfg x (k - 0x3B0)) 4 then c k ||| 0x1FF else c k / 2 ^ 10 * 2 ^ 10)
    else c k

/-- A qualifier register written: reserved CAUSE and SOURCE encodings keep their fields; reserved bits read zero. -/
def writeQual (old v : Nat) : Nat :=
  let cause := if field v 7 0 ≤ 7 then field v 7 0 else field old 7 0
  let source := if field v 11 8 ≤ 12 then field v 11 8 else field old 11 8
  cause + source * 2 ^ 8 + field v 13 12 * 2 ^ 12 + flag (bitOf v 14) * 2 ^ 14 + flag (bitOf v 63) * 2 ^ 63

/-- A line-address register written: bits [5:0] read zero. -/
def writeLineReg (v : Nat) : W64 := w64 (v % 2 ^ 64 / 64 * 64)

/-- The bits of `mask` taken from `v`, the others from `old`. -/
def blend (old v mask : Nat) : Nat := (old &&& ((2 ^ 64 - 1) ^^^ mask)) ||| (v &&& mask)

/-- A translation register written: a mode beside Bare, Sv39, Sv48 and Sv57 leaves it unchanged. `ids`: bits of its ASID or VMID
(Table 6.2). -/
def writeAtp (old v ids : Nat) : Nat :=
  if field v 63 60 ∈ [0, 8, 9, 10] then field v 43 0 + field v (43 + ids) 44 * 2 ^ 44 + field v 63 60 * 2 ^ 60 else old

/-- The legal value of a plain CSR written with `v` (Table 6.2; log entry 82). -/
def csrLegal (num old v : Nat) : Nat :=
  match num with
  | 0x003 => v % 256
  | 0x008 => v % 256
  | 0x00F => v % 8
  | 0x300 => let w := blend old v mstatusMask
             if field v 12 11 = 2 then setField w 12 11 (field old 12 11) else w
  | 0x200 => blend old v sstatusMask
  | 0x600 => blend old v (2 ^ 6 + 2 ^ 7 + 2 ^ 8 + 2 ^ 9 + 0x3F000 + 7 * 2 ^ 20)
  | 0x302 => v &&& 0xF4B3FF
  | 0x602 => v &&& 0x4B1FF
  | 0x303 => v &&& 0x2222
  | 0x304 => v &&& 0x3EEE
  | 0x603 => v &&& 0x1444
  | 0x344 => blend old v 0x2666
  | 0x305 | 0x105 | 0x205 => if v % 4 < 2 then v else v / 4 * 4 + old % 4
  | 0x341 | 0x141 | 0x241 | 0x741 => v / 2 * 2
  | 0x306 | 0x106 | 0x606 | 0x320 => v % 2 ^ 32
  | 0x30A => blend old v (2 ^ 0 + 0xF0 + 7 * 2 ^ 61)
  | 0x60A => blend old v (2 ^ 0 + 0xF0 + 7 * 2 ^ 61)
  | 0x10A => blend old v (2 ^ 0 + 0xF0)
  | 0x180 | 0x280 => writeAtp old v 16
  | 0x680 => writeAtp old (v / 4 * 4) 14
  | 0x747 => old % 4 ||| (v &&& 0x307)
  | 0x7A0 => if v < 8 then v else old
  | 0x350 | 0x150 | 0x250 => v % 2 ^ 12
  | _ => v

/-- A hart's CSR written, with software's behaviour, once its access raises nothing: every field is WARL (R198); mnstatus's NMIE is set and
not cleared (Smrnmi). -/
def csrPut (x : Hart) (num0 v : Nat) : Hart :=
  let num := redirect x num0
  let plain (k w : Nat) : Hart := setCsr x k (csrLegal k (csrOf x k) (w % 2 ^ 64))
  match num with
  | 0x7C0 => { x with mHwErr := w64 (writeQual x.mHwErr.toNat v) }
  | 0x7C1 => { x with mHwAddr := writeLineReg v }
  | 0x7C5 => { x with startPc := w64 (v % 2 ^ 64 / 4 * 4) }
  | 0x5C0 => if x.virt then { x with vsHwErr := w64 (writeQual x.vsHwErr.toNat v) }
             else { x with hsHwErr := w64 (writeQual x.hsHwErr.toNat v) }
  | 0x5C1 => if x.virt then { x with vsHwAddr := writeLineReg v } else { x with hsHwAddr := writeLineReg v }
  | 0x6C0 => { x with vsHwErr := w64 (writeQual x.vsHwErr.toNat v) }
  | 0x6C1 => { x with vsHwAddr := writeLineReg v }
  | 0x744 => { x with nmie := x.nmie || bitOf v 3, mnpv := bitOf v 7, mnpp := if field v 12 11 = 2 then x.mnpp else field v 12 11 }
  | 0x741 => { x with mnepc := v % 2 ^ 64 / 2 * 2 }
  | 0x742 => { x with mncause := v % 2 ^ 64 }
  | 0x001 => plain 3 (csrOf x 3 / 32 * 32 + v % 32)
  | 0x002 => plain 3 (csrOf x 3 % 32 + v % 8 * 32)
  | 0x009 => plain 0xF (csrOf x 0xF / 2 * 2 + v % 2)
  | 0x00A => plain 0xF (csrOf x 0xF % 2 + v % 4 * 2)
  | 0x015 | 0x301 | 0x7A4 | 0x7C4 | 0x7C6 | 0x800 | 0xB00 | 0xB02 => x
  | 0x100 => plain 0x300 (blend (csrOf x 0x300) v sstatusMask)
  | 0x104 => plain 0x304 (blend (csrOf x 0x304) v (csrOf x 0x303))
  | 0x144 => plain 0x344 (blend (csrOf x 0x344) v (csrOf x 0x303 &&& 0x2002))
  | 0x604 => plain 0x304 (blend (csrOf x 0x304) v 0x1444)
  | 0x644 => plain 0x344 (blend (csrOf x 0x344) v 4)
  | 0x645 => plain 0x344 (blend (csrOf x 0x344) v 0x444)
  | 0x204 => plain 0x304 (blend (csrOf x 0x304) (2 * v) (csrOf x 0x603 &&& 0x444))
  | 0x244 => plain 0x344 (blend (csrOf x 0x344) (2 * v) (csrOf x 0x603 &&& 4))
  | 0x7A1 | 0x7A2 | 0x7A3 => setCsr x (0x10000 * 64 + csrOf x 0x7A0 * 4 + num % 4) v
  | 0x351 => setCsr x (indKey x 3 (csrOf x 0x350)) v
  | 0x151 => setCsr x (indKey x 1 (csrOf x 0x150)) v
  | 0x251 => setCsr x (indKey x 2 (csrOf x 0x250)) v
  | k =>
    if 0xB03 ≤ k ∧ k ≤ 0xB1F then { x with hpm := tabPut 0 x.hpm (k - 0xB00) (w64 v) }
    else if 0x3A0 ≤ k ∧ k ≤ 0x3AF then pmpCfgWrite x k (v % 2 ^ 64)
    else if 0x3B0 ≤ k ∧ k ≤ 0x3EF then pmpAddrWrite x (k - 0x3B0) v
    else plain k v

/-- The interrupt files' part of a CSR write: an eip register, or a claim by xtopei. -/
def filePut (h : Hw) (n num0 v : Nat) : Hw :=
  let x := hartAt h n
  let eip (lv sel : Nat) : Hw := if sel / 64 = 2 then setEip h n (csrFile x lv) (sel % 64 / 2) v else h
  match redirect x num0 with
  | 0x35C => claimTop h n 0
  | 0x15C => claimTop h n 1
  | 0x25C => claimTop h n (csrFile x 2)
  | 0x351 => eip 3 (csrOf x 0x350)
  | 0x151 => eip 1 (csrOf x 0x150)
  | 0x251 => eip 2 (csrOf x 0x250)
  | _ => h

/-- The value a CSR instruction writes. -/
def csrNew (op : CsrOp) (old v : Nat) : Nat :=
  match op with
  | .read => old
  | .write => v
  | .set => old ||| v
  | .clear => old - (old &&& v)

/-- A hart's destination register receives bytes. -/
def setResult (h : Hw) (n : Nat) (bs : List Byte) : Hw := setHart h n { hartAt h n with result := bs }

/-- Whether what a CSR reads is a free value, which the read consumes. -/
def csrFree (num : Nat) : Bool := decide (num ∈ [0x015, 0xC00, 0xB00, 0xC02, 0xB02])

/-- A CSR instruction of a running hart: the trap it raises, or the old value in the destination register and the new one in the CSR. -/
def csrWrite (h : Hw) (n num : Nat) (op : CsrOp) (v : Nat) : Hw :=
  if !runs h n then h
  else match csrTrap (hartAt h n) num op with
  | some c => takeTrap h n c 0
  | none =>
    let old := csrValue h n num
    let h1 := setResult (if csrFree num then (takeFree h).2 else h) n (leBytes 8 old)
    if op = .read then h1
    else
      let h2 := filePut h1 n num (csrNew op old v)
      setHart h2 n (csrPut (hartAt h2 n) num (csrNew op old v))

end Sys2Proof.Machine
end

