-- ==== Sys2Proof/Machine/Registers.lean ====
section
/-! DEFINITION. The register windows of chapter 23 and the custom CSRs of chapter 6: what every register reads, what a store to it does,
and the register commands. -/
namespace Sys2Proof.Machine

/-! ### Reads -/

/-- MBX_STATUS (Table 23.4). -/
def mbxStatus (h : Hw) (m : Mbx) : Nat :=
  let x := boxAt h m
  flag (mbxReady h m) + 2 * flag x.rung.isNone + 4 * flag x.valid + 8 * flag x.overrun + h.efano.epoch.toNat * 2 ^ 32

/-- A register of a mailbox page. -/
def mbxReg (h : Hw) (m : Mbx) (off : Nat) : Nat :=
  let x := boxAt h m
  if off < 0x40 then leNat (pageRead x.reqHdr off 8)
  else if off < 0x80 then leNat (pageRead x.rspHdr (off - 0x40) 8)
  else if off = 0x90 then mbxStatus h m
  else if off = 0x98 then x.irq
  else 0

/-- A field of a class counter: 0 COUNT, 1 FIRST_TB, 2 LAST_TB. -/
def ctrReg (cs : List ClassCtr) (off : Nat) : Nat :=
  let c := cs.getD (off / 24) {}
  match off % 24 with
  | 0 => c.count
  | 8 => c.first
  | 16 => c.last
  | _ => 0

/-- A register of a fault queue page (Table 23.5). -/
def fqReg (x : FaultQueue) (off : Nat) : Nat :=
  match off with
  | 0x00 => x.head.toNat
  | 0x08 => (queueTail x).toNat
  | 0x10 => flag x.ovf + 2 * flag (decide (queueUsed x = 4096))
  | 0x18 => x.irqMin + x.irqEntry * 2 ^ 16
  | 0x28 => x.lastSeq
  | o =>
    if 0x40 ≤ o ∧ o < 0x40 + 144 then ctrReg x.live (o - 0x40)
    else if 0x100 ≤ o ∧ o < 0x100 + 144 then ctrReg x.snap (o - 0x100) else 0

/-- Eight bytes of a fault record area: slot k at 64 k (R575). -/
def recReg (x : FaultQueue) (off : Nat) : Nat :=
  let f := tabGet {} x.recs (off / 64)
  leNat (((recBytes f f.phase).drop (off % 64)).take 8)

/-- A register of a time base page (Table 23.6). -/
def tbReg (h : Hw) (off : Nat) : Nat :=
  match off with
  | 0x0 => h.tb.now % 2 ^ 64
  | 0x8 => flag h.tb.unsynced + 2 * flag h.tb.holdover + 4 * flag h.tb.refLost
  | _ => 0

/-- A register of the SEL_ page (Table 23.12). -/
def selReg (h : Hw) (off : Nat) : Nat :=
  if off < 0x100 then (if off / 8 ≤ 16 then (partAt h (off / 8)).selRefuse else 0)
  else
    let p := (off - 0x100) / 8
    if p ≤ 16 then flag (partExists h p) + 2 * flag (partFenced h p) + 4 * flag (partAt h p).nearPlain + (partAt h p).weight * 2 ^ 8
    else 0

/-- A register of the PWR_ page (Table 23.13). -/
def pwrReg (h : Hw) (off : Nat) : Nat :=
  let p := h.power
  match off with
  | 0x00 => p.static + p.poolMin * 2 ^ 16 + p.poolMax * 2 ^ 32
  | 0x08 => effective h + leaseSum p.outs * 2 ^ 16 + leaseSum p.ins * 2 ^ 32
  | 0x10 => p.tjTarget
  | 0x18 => p.poolSet + flag p.poolOn * 2 ^ 32 + p.theta * 2 ^ 40 + p.stepMax * 2 ^ 48
  | o =>
    let r := (o - 0x100) / 8
    if 0x100 ≤ o ∧ r < 30 then railHard h r + railSoft h r * 2 ^ 20 + (railAt h r).window * 2 ^ 40 else 0

/-- The pages both kinds of window share: identity, mailbox, queue, time base; `k` is the queue of the window. -/
def commonReg (h : Hw) (m : Mbx) (k off : Nat) : Option Nat :=
  if off < 0x1000 then some (identReg h (off / 8)).toNat
  else if off < 0x2000 then some (mbxReg h m (off - 0x1000))
  else if off < 0x3000 then some (leNat (pageRead (boxAt h m).reqPage (off - 0x2000) 8))
  else if off < 0x4000 then some (leNat (pageRead (boxAt h m).rspPage (off - 0x3000) 8))
  else if off < 0x5000 then some (fqReg (queueAt h k) (off - 0x4000))
  else if off < 0x6000 then some (tbReg h (off - 0x5000))
  else if 0x40000 ≤ off ∧ off < 0x80000 then some (recReg (queueAt h k) (off - 0x40000))
  else none

/-- The 64 bits at an aligned offset of partition p's window (Table 23.1); none for a poisoned knot (R489). -/
def windowReg (h : Hw) (p off : Nat) : Option Nat :=
  match commonReg h (.part p) p off with
  | some v => some v
  | none =>
    if off = 0x6010 then some (epochAt h p 0).toNat
    else if 0x10000 ≤ off ∧ off < 0x18000 then some (tabGet (0 : W64) h.intTable (4096 * p + (off - 0x10000) / 8)).toNat
    else if 0x400000 ≤ off ∧ off < 0x800000 then
      let s := (off - 0x400000) / 4096
      some (if slipOwner h s = p then (slipReg (slipAt h s) (off % 4096)).toNat else 0)
    else if 0x800000 ≤ off ∧ off < 0xC00000 then
      if off % 16 = 0 then (windowValue h p ((off - 0x800000) / 16)).map (·.toNat) else some 0
    else some 0

/-- The 64 bits at an aligned offset of the Steward window (Table 23.2). -/
def stewardReg (h : Hw) (off : Nat) : Nat :=
  match commonReg h .steward 17 off with
  | some v => v
  | none =>
    if off = 0x6000 then h.faults.intSteward
    else if 0x100000 ≤ off ∧ off < 0x101000 then selReg h (off - 0x100000)
    else if 0x200000 ≤ off ∧ off < 0x201000 then pwrReg h (off - 0x200000)
    else 0

/-- The half of a 64-bit value an access reaches. -/
def halfOf (v : Nat) : Half → Nat
  | .full => v
  | .lower => v % 2 ^ 32
  | .upper => v / 2 ^ 32

/-! ### Stores -/

/-- A store's value merged into the half it reaches. -/
def mergeHalf (old v : Nat) : Half → Nat
  | .full => v % 2 ^ 64
  | .lower => old / 2 ^ 32 * 2 ^ 32 + v % 2 ^ 32
  | .upper => old % 2 ^ 32 + v % 2 ^ 32 * 2 ^ 32

/-- The bits a store reaches, the others zero (for bits that act where one is written). -/
def reached (v : Nat) : Half → Nat
  | .full => v % 2 ^ 64
  | .lower => v % 2 ^ 32
  | .upper => v % 2 ^ 32 * 2 ^ 32

/-- A store to an action register (R703): none where it has no effect. -/
def actionValue (v : Nat) : Half → Option Nat
  | .full => some (v % 2 ^ 64)
  | .lower => some (v % 2 ^ 32)
  | .upper => none

/-- A store that reaches reserved bits with a one has an unpredictable result, within what the store's own register may hold (R9,
R12): its value is a free one. `ok`: the bits that have a meaning. -/
def sane (h : Hw) (v ok : Nat) : Nat × Hw :=
  if v &&& ok = v then (v, h)
  else
    let f := takeFree h
    (f.1.toNat &&& ok, f.2)

/-- A store to a register whose write acts, or to a field that a store of the other half leaves alone (R703): `f` runs on the value; with
a one in a reserved bit the result is unpredictable and `f` runs on a free one (R12). `ok`: the bits that have a meaning. -/
def acting (h : Hw) (v : Nat) (w : Half) (ok : Nat) (f : Hw → Nat → Hw) : Hw :=
  if reached v w &&& ok = reached v w then
    match actionValue v w with
    | some t => f h t
    | none => h
  else f (takeFree h).2 ((takeFree h).1.toNat &&& ok)

/-- Bits of a W1C register that a store sets (R12: a one in a reserved bit makes them free). -/
def w1c (h : Hw) (v : Nat) (w : Half) (ok : Nat) : Nat × Hw := sane h (reached v w) ok

/-- A store to FQ_HEAD (R574): accepted only from HEAD to TAIL. -/
def fqHead (h : Hw) (k v : Nat) : Hw :=
  let x := queueAt h k
  let w := w32 v
  if (w - x.head).toNat ≤ queueUsed x then setQueue h k { x with head := w } else h

/-- A store to FQ_OVF_TAKE (R577). -/
def fqOvfTake (h : Hw) (k : Nat) : Hw :=
  let x := queueAt h k
  setQueue h k { x with snap := x.live, live := List.replicate 6 {}, ovf := false }

/-- A store to FQ_CTRL (R578, R704): a class above 5 keeps the threshold. -/
def fqCtrl (h : Hw) (k v : Nat) : Hw :=
  let x := queueAt h k
  setQueue h k { x with irqMin := if field v 2 0 ≤ 5 then field v 2 0 else x.irqMin, irqEntry := field v 31 16 }

/-- A store to a fault queue page. -/
def fqStore (h : Hw) (k off v : Nat) (w : Half) : Hw :=
  match off with
  | 0x00 => acting h v w 0xFFFFFFFF (fun h t => fqHead h k t)
  | 0x10 => let o := w1c h v w 3
            if bitOf o.1 0 then setQueue o.2 k { queueAt o.2 k with ovf := false } else o.2
  | 0x18 => let o := sane h (mergeHalf (fqReg (queueAt h k) 0x18) v w) 0xFFFF0007
            fqCtrl o.2 k o.1
  | 0x20 => if w = Half.upper then h else fqOvfTake h k
  | _ => h

/-- What a store of request bytes leaves in them: its value, or, while REQ_FREE is 0, a free one (R120 calls the result unpredictable; log
entry 70). -/
def requestBytes (h : Hw) (x : Mbox) (v : Nat) : Nat × Hw :=
  if x.rung.isSome then ((takeFree h).1.toNat, (takeFree h).2) else (v, h)

/-- A store to a mailbox page (R118 to R121). -/
def mbxStore (h : Hw) (m : Mbx) (off v : Nat) (w : Half) : Hw :=
  let x := boxAt h m
  if off < 0x40 then
    let o := requestBytes h x (mergeHalf (mbxReg h m off) v w)
    setBox o.2 m { x with reqHdr := pageWrite x.reqHdr off (leBytes 8 o.1) }
  else match off with
  | 0x80 => acting h v w 7 (fun h t => stir (ringDoorbell h m (t % 8)))
  | 0x88 => if w = Half.upper then h else ackResp h m
  | 0x90 => let o := w1c h v w 0xFFFFFFFF0000000F
            if bitOf o.1 3 then setBox o.2 m { x with overrun := false } else o.2
  | 0x98 => let o := sane h (mergeHalf x.irq v w) 0xFFFF
            setBox o.2 m { x with irq := o.1 }
  | _ => h

/-- A store to SLP_XINV (R366). -/
def xinv (h : Hw) (p v : Nat) : Hw :=
  match field v 3 0 with
  | 1 => advanceEpoch h p 0
  | 2 => advanceEpoch h p (asidEpoch (field v 31 16))
  | 3 => advanceEpoch h p (vmidEpoch (field v 29 16))
  | _ => h

/-- SLP_CTRL.CMD (Table 13.3). -/
def slipCtrl (h : Hw) (s cmd : Nat) : Hw :=
  match cmd with
  | 1 => slipEnable h s
  | 2 => slipDisable h s
  | 3 => slipRestart h s
  | 4 => slipRestartSkip h s
  | _ => h

/-- A store to a slip page by its owner (Table 13.2, R394). -/
def slipStore (h : Hw) (s off v : Nat) (w : Half) : Hw :=
  let x := slipAt h s
  let full (ok : Nat) := sane h (mergeHalf (slipReg x off).toNat v w) ok
  match off with
  | 0x000 => acting h v w 0xFFFFFFFF (fun h t => stir (setSlip h s (doorbell x (w32 t))))
  | 0x018 => acting h v w 0xFFFFFFFF (fun h t => setSlip h s (writeDone x (w32 t)))
  | 0x020 => let o := full 0xFFFFFFFFFFF01F; setSlip o.2 s (writeRing x (w64 o.1))
  | 0x028 => let o := full 0xFFFFFFFFFFF000; setSlip o.2 s (writeCring x (w64 o.1))
  | 0x030 => let o := full 0xFFFF0007FFFF; setSlip o.2 s (writeCfg x (w64 o.1))
  | 0x038 => setSlip h s (writeCtx x 0 (w64 (mergeHalf (slipReg x off).toNat v w)))
  | 0x040 => let o := full 0xFFFFFFFFFFFFFFF; setSlip o.2 s (writeCtx x 1 (w64 o.1))
  | 0x048 => let o := full 0xF; setSlip o.2 s (writeCtx x 2 (w64 o.1))
  | 0x050 => acting h v w 7 (fun h t => slipCtrl h s (t % 8))
  | 0x058 => let o := w1c h v w 0xFFFFFFFF01FFFF07
             if bitOf o.1 24 then setSlip o.2 s { x with dbOverrun := false } else o.2
  | _ => h

/-- The bytes of a 32-bit value reversed (seteipnum_be). -/
def swap32 (v : Nat) : Nat := leNat (leBytes 4 v).reverse

/-- A store to an interrupt file (R202, R714), by the partition whose window it is. -/
def fileStore (h : Hw) (p hart file off v : Nat) (w : Half) : Hw :=
  if off ≠ 0 ∨ hartOwner h hart ≠ p then h
  else match w with
  | .full => imsicSet (imsicSet h hart file (v % 2 ^ 32)) hart file (swap32 (v / 2 ^ 32))
  | .lower => imsicSet h hart file (v % 2 ^ 32)
  | .upper => imsicSet h hart file (swap32 v)

/-- Bits of an interrupt-table entry that have a meaning (Table 23.8). -/
def entryBits : Nat := 2 ^ 63 + (2 ^ 21 - 1)

/-- A store to the pages both kinds of window share; none for another page. -/
def commonStore (h : Hw) (m : Mbx) (k off v : Nat) (w : Half) : Option Hw :=
  if off < 0x1000 then some h
  else if off < 0x2000 then some (mbxStore h m (off - 0x1000) v w)
  else if off < 0x3000 then
    let x := boxAt h m
    let o := requestBytes h x (mergeHalf (leNat (pageRead x.reqPage (off - 0x2000) 8)) v w)
    some (setBox o.2 m { x with reqPage := pageWrite x.reqPage (off - 0x2000) (leBytes 8 o.1) })
  else if off < 0x4000 then some h
  else if off < 0x5000 then some (fqStore h k (off - 0x4000) v w)
  else if off < 0x6000 then some h
  else if 0x40000 ≤ off ∧ off < 0x80000 then some h
  else none

/-- The half of an entry that a 32-bit store has rewritten. -/
def halfNo : Half → Nat
  | .full => 0 | .lower => 1 | .upper => 2

/-- An interrupt-table entry is stored (R711): while it is VALID, a 32-bit store leaves it half-rewritten until the other half is stored;
a 64-bit store, or a rewrite that begins with VALID clear, never does. -/
def entryStore (h : Hw) (e : Nat) (x : W64) (w : Half) : Hw :=
  let old := tabGet (0 : W64) h.intTable e
  let was := tabGet 0 h.intHalf e
  let now := if bitOf old.toNat 63 && bitOf x.toNat 63 && decide (was = 0 ∨ was = halfNo w) then halfNo w else 0
  { h with intTable := tabPut 0 h.intTable e x, intHalf := tabPut 0 h.intHalf e now }

/-- All 64 bits have a meaning. -/
def allBits : Nat := 2 ^ 64 - 1

/-- Bits with a meaning of a register that no store changes, in the pages both kinds of window share (Tables 23.3 to 23.6); none for an
offset whose register a store may change, some zero for a reserved offset. -/
def fixedCommon (off : Nat) : Option Nat :=
  if off < 0x1000 then
    some (match off with
      | 0x00 => 2 ^ 48 - 1
      | 0x08 => 2 ^ 48 - 1
      | 0x10 => 0xFF
      | 0x18 => 0xFF0003FFFF
      | 0x20 => 0xFFFF
      | 0x28 => 0xFFFFFFFF
      | 0x30 => 0x3FF
      | _ => 0)
  else if off < 0x2000 then
    let o := off - 0x1000
    if o < 0x40 ∨ o = 0x80 ∨ o = 0x88 ∨ o = 0x90 ∨ o = 0x98 then none else if o < 0x80 then some allBits else some 0
  else if off < 0x3000 then none
  else if off < 0x4000 then some allBits
  else if off < 0x5000 then
    let o := off - 0x4000
    if o = 0 ∨ o = 0x10 ∨ o = 0x18 ∨ o = 0x20 then none
    else if o = 8 then some 0xFFFFFFFF
    else if o = 0x28 ∨ (0x40 ≤ o ∧ o < 0x40 + 144) ∨ (0x100 ≤ o ∧ o < 0x100 + 144) then some allBits else some 0
  else if off < 0x6000 then
    some (if off = 0x5000 then allBits else if off = 0x5008 then 7 else 0)
  else if 0x40000 ≤ off ∧ off < 0x80000 then some allBits
  else some 0

/-- The same for partition p's window (Tables 23.7 to 23.10, R714). The pages of a slip, a knot or a hart it does not own ignore every
store (R705). -/
def fixedBits (h : Hw) (p off : Nat) : Option Nat :=
  if 0x6000 ≤ off ∧ off < 0x7000 then
    if off = 0x6000 then none else if off = 0x6008 then some allBits else if off = 0x6010 then some 0xFFFFFFFF else some 0
  else if 0x10000 ≤ off ∧ off < 0x18000 then none
  else if 0x400000 ≤ off ∧ off < 0x800000 then
    let o := off % 4096
    if slipOwner h ((off - 0x400000) / 4096) ≠ p then some allBits
    else if o = 0 ∨ (0x18 ≤ o ∧ o ≤ 0x58) then none
    else if o = 8 ∨ o = 0x10 then some 0xFFFFFFFF else some 0
  else if 0x800000 ≤ off ∧ off < 0xC00000 then (if off % 16 = 8 then none else some allBits)
  else if 0xC00000 ≤ off ∧ off < 0x1000000 then
    if hartOwner h ((off - 0xC00000) / 0x8000) ≠ p then some allBits else if off % 4096 = 0 then none else some 0
  else fixedCommon off

/-- The same for the Steward window (Table 23.2, R715, R716). -/
def fixedSteward (off : Nat) : Option Nat :=
  if 0x6000 ≤ off ∧ off < 0x7000 then (if off = 0x6000 then none else some 0)
  else if (0x100000 ≤ off ∧ off < 0x101000) ∨ (0x200000 ≤ off ∧ off < 0x201000) then some allBits
  else fixedCommon off

/-- Whether a store places a one in a reserved bit where no register takes it (R12). -/
def straySet (m : Option Nat) (v : Nat) (w : Half) : Bool :=
  match m with
  | some ok => decide (reached v w &&& ok ≠ reached v w)
  | none => false

/-- Where a store of unpredictable result lands (R9, R12): a free offset of the same page. -/
def strayOff (h : Hw) (off : Nat) : Nat := off / 4096 * 4096 + (takeFree h).1.toNat % 4096 / 8 * 8

/-- A store at an aligned offset of partition p's window that has a meaning (Table 23.1). -/
def windowPlain (hm : HM) (p off v : Nat) (w : Half) : HM :=
  let h := hm.1
  match commonStore h (.part p) p off v w with
  | some h1 => (h1, hm.2)
  | none =>
    if off = 0x6000 then
      (acting h v w 0xFFFF000F (fun h t => xinv h p t), hm.2)
    else if 0x10000 ≤ off ∧ off < 0x18000 then
      let e := 4096 * p + (off - 0x10000) / 8
      let o := sane h (mergeHalf (tabGet (0 : W64) h.intTable e).toNat v w) entryBits
      (entryStore o.2 e (w64 o.1) w, hm.2)
    else if 0x400000 ≤ off ∧ off < 0x800000 then
      let s := (off - 0x400000) / 4096
      if slipOwner h s = p then (slipStore h s (off % 4096) v w, hm.2) else hm
    else if 0x800000 ≤ off ∧ off < 0xC00000 then
      if off % 16 = 8 then
        match actionValue v w with
        | some t => settle (windowSignal h p ((off - 0x800000) / 16) t, hm.2)
        | none => hm
      else hm
    else if 0xC00000 ≤ off ∧ off < 0x1000000 then
      let f := off - 0xC00000
      (fileStore h p (f / 0x8000) (f / 0x1000 % 8) (f % 0x1000) v w, hm.2)
    else hm

/-- A store at an aligned offset of partition p's window. One that sets reserved bits which no register takes, or a reserved offset, has
an unpredictable result among the partition's own registers (R9, R12; log entry 24): a free value at a free place of the page. -/
def windowStore (hm : HM) (p off v : Nat) (w : Half) : HM :=
  if straySet (fixedBits hm.1 p off) v w then
    let f := takeFree (takeFree hm.1).2
    windowPlain (f.2, hm.2) p (strayOff hm.1 off) f.1.toNat .full
  else windowPlain hm p off v w

/-- A store at an aligned offset of the Steward window that has a meaning (Table 23.2, R716). -/
def stewardPlain (hm : HM) (off v : Nat) (w : Half) : HM :=
  let h := hm.1
  match commonStore h .steward 17 off v w with
  | some h1 => (h1, hm.2)
  | none =>
    if off = 0x6000 then
      let o := sane h (mergeHalf h.faults.intSteward v w) 0xFFFF
      ({ o.2 with faults := { o.2.faults with intSteward := o.1 } }, hm.2)
    else hm

/-- A store at an aligned offset of the Steward window (R12 as for a partition's). -/
def stewardStore (hm : HM) (off v : Nat) (w : Half) : HM :=
  if straySet (fixedSteward off) v w then
    let f := takeFree (takeFree hm.1).2
    stewardPlain (f.2, hm.2) (strayOff hm.1 off) f.1.toNat .full
  else stewardPlain hm off v w

/-! ### Region 3 as harts reach it -/

/-- First offset of the Steward window in region 3 (R715). -/
def stewardBase : Nat := 0x40000000

/-- The half an aligned access of 4 or 8 bytes reaches. -/
def halfAt (o n : Nat) : Half := if n = 8 then .full else if o % 8 = 0 then .lower else .upper

/-- What a load of 4 or 8 aligned bytes at an offset of region 3 returns; none for a poisoned knot. -/
def region3Read (h : Hw) (o n : Nat) : Option Nat :=
  let v := if o ≥ stewardBase then some (stewardReg h ((o - stewardBase) / 8 * 8)) else windowReg h (o / 2 ^ 24) (o % 2 ^ 24 / 8 * 8)
  v.map (fun x => halfOf x (halfAt o n))

/-- A store of 4 or 8 aligned bytes at an offset of region 3. -/
def region3Store (hm : HM) (o n v : Nat) : HM :=
  if o ≥ stewardBase then stewardStore hm ((o - stewardBase) / 8 * 8) v (halfAt o n)
  else windowStore hm (o / 2 ^ 24) (o % 2 ^ 24 / 8 * 8) v (halfAt o n)

/-! ### APLIC (R205) -/

/-- Key of a source of a C-die's APLIC. -/
def aplicKey (die source : Nat) : Nat := die * 128 + source

/-- The Steward assigns a source to a partition; one that changes owners loses its configuration. A store of a value beyond partition 16
leaves it unassigned (log entry 83). -/
def aplicAssign (h : Hw) (die source v : Nat) : Hw :=
  let k := aplicKey die source
  if die ≥ 2 ∨ source = 0 ∨ 64 < source then h
  else { h with edges := { h.edges with irqOwner := tabPut 31 h.edges.irqOwner k (if v ≤ 16 then v else 31),
                                        irqTarget := if tabGet 31 h.edges.irqOwner k = v then h.edges.irqTarget else tabPut 0 h.edges.irqTarget k 0 } }

/-- The owner of a source configures it: a word of the layout of an interrupt-table entry (Table 23.8); another partition's store is ignored
(R205; log entry 83). -/
def aplicSet (h : Hw) (p die source v : Nat) : Hw :=
  let k := aplicKey die source
  if p ≤ 16 ∧ die < 2 ∧ tabGet 31 h.edges.irqOwner k = p then
    { h with edges := { h.edges with irqTarget := tabPut 0 h.edges.irqTarget k (v &&& entryBits) } }
  else h

/-- A source of a C-die's APLIC is asserted: its MSI goes to the file its configuration names, of its owner's alone (R205). -/
def aplicRaise (h : Hw) (die source : Nat) : Hw :=
  let k := aplicKey die source
  let w := tabGet 0 h.edges.irqTarget k
  if bitOf w 63 && decide (hartOwner h (field w 6 0) = tabGet 31 h.edges.irqOwner k) then imsicSet h (field w 6 0) (field w 9 7) (field w 20 10)
  else h

/-! ### The rows -/

/-- FQ_HEAD (R574): queue 0 to 16, or 17 for the Steward's. -/
def execFqHead (k v : Nat) (s : State) : Host.Outcome State Fault Refusal := onHw s (fun h => if k ≤ 17 then fqHead h k v else h)

/-- FQ_OVF_TAKE (R577). -/
def execFqOvfTake (k : Nat) (s : State) : Host.Outcome State Fault Refusal := onHw s (fun h => if k ≤ 17 then fqOvfTake h k else h)

/-- Run a slip command of partition p: a window of another partition ignores it (R705). -/
def asOwner (h : Hw) (p slip : Nat) (f : Hw → Hw) : Hw := if slip < 1024 ∧ p ≤ 16 ∧ slipOwner h slip = p then f h else h

/-- SLP_DOORBELL (R391); it ends Idle or Drowse (Table 5.7). -/
def execSlpDoorbell (p slip v : Nat) (s : State) : Host.Outcome State Fault Refusal :=
  onHw s (fun h => asOwner h p slip (fun h => stir (setSlip h slip (doorbell (slipAt h slip) (w32 v)))))

/-- SLP_DONE (R397). -/
def execSlpDone (p slip v : Nat) (s : State) : Host.Outcome State Fault Refusal :=
  onHw s (fun h => asOwner h p slip (fun h => setSlip h slip (writeDone (slipAt h slip) (w32 v))))

/-- SLP_RING (R397). -/
def execSlpRing (p slip v : Nat) (s : State) : Host.Outcome State Fault Refusal :=
  onHw s (fun h => asOwner h p slip (fun h => slipStore h slip 0x020 v .full))

/-- ENABLE (R395). -/
def execEnable (p slip : Nat) (s : State) : Host.Outcome State Fault Refusal :=
  onHw s (fun h => asOwner h p slip (fun h => slipEnable h slip))

/-- DISABLE (R395). -/
def execDisable (p slip : Nat) (s : State) : Host.Outcome State Fault Refusal :=
  onHw s (fun h => asOwner h p slip (fun h => slipDisable h slip))

/-- SLIP_DISABLED (R395). -/
def execSlipDisabled (slip : Nat) (s : State) : Host.Outcome State Fault Refusal := onHw s (fun h => slipDisabled h slip)

/-- RESTART (R421). -/
def execRestart (p slip : Nat) (s : State) : Host.Outcome State Fault Refusal :=
  onHw s (fun h => asOwner h p slip (fun h => slipRestart h slip))

/-- RESTART_SKIP (R421). -/
def execRestartSkip (p slip : Nat) (s : State) : Host.Outcome State Fault Refusal :=
  onHw s (fun h => asOwner h p slip (fun h => slipRestartSkip h slip))

/-- ALL (R366). -/
def execAll (p : Nat) (s : State) : Host.Outcome State Fault Refusal := onHw s (fun h => if p ≤ 16 then advanceEpoch h p 0 else h)

/-- ASID (R366). -/
def execAsid (p asid : Nat) (s : State) : Host.Outcome State Fault Refusal :=
  onHw s (fun h => if p ≤ 16 then advanceEpoch h p (asidEpoch asid) else h)

/-- VMID (R366). -/
def execVmid (p vmid : Nat) (s : State) : Host.Outcome State Fault Refusal :=
  onHw s (fun h => if p ≤ 16 then advanceEpoch h p (vmidEpoch vmid) else h)

/-- DESCRIPTOR_PAUSE (R368). -/
def execDescriptorPause (slip : Nat) (seq : W32) (s : State) : Host.Outcome State Fault Refusal := onHw s (fun h => pauseDesc h slip seq)

/-- KNT_SIGNAL (R488). -/
def execKntSignal (p knot : Nat) (v : W64) (s : State) : Host.Outcome State Fault Refusal :=
  onAll s (fun hm => settle (windowSignal hm.1 p knot v.toNat, hm.2))

/-- SETEIPNUM_LE (R714): a store through partition p's window. -/
def execSeteipnumLe (p hart file v : Nat) (s : State) : Host.Outcome State Fault Refusal :=
  onHw s (fun h => if p ≤ 16 ∧ hart < 128 ∧ file < 8 then fileStore h p hart file 0 v .lower else h)

end Sys2Proof.Machine
end

