-- ==== Sys2Proof/Machine/Homes.lean ====
section
/-! DEFINITION. The commands of coherence (chapter 7): the REQ messages of Table 7.7 as they reach a line's home, and a snoop as a
caching agent answers it. -/
namespace Sys2Proof.Machine

/-- The answer of a home or an agent: its DAT bytes and how it stands (zero sound, else a CAUSE of Table 6.7). -/
def answerWith (h : Hw) (bs : List Byte) (bad : Nat) : Hw := { h with coh := { h.coh with answer := bs, answerBad := bad, answerPoison := decide (bad = 2) } }

/-- Write the bytes of DAT that a byte mask names. -/
def maskedWrite (hm : HM) (a : Nat) (bs : List Byte) (mask : Nat) : HM :=
  ((List.range (min 64 bs.length)).filter (bitOf mask)).foldl (fun hm i => cohWrite hm (a + i) [bs.getD i 0]) hm

/-- Whether a transaction writes its line. -/
def writesLine : ReqKind → Bool
  | .writeLine | .writePart | .atomicHome | .atomicMem => true
  | _ => false

/-- What a served transaction reads or writes at its home and the answer it gives (Table 7.7, R235, R241, R341). -/
def homeData (hm : HM) (line : Nat) (q : DirReq) : HM :=
  let a := line * 64
  let c := q.act
  match q.kind with
  | .readShared | .readOwn | .readOnce =>
    (answerWith hm.1 (cohRead hm.1 hm.2 a 64) (if poisoned hm.1 a then 2 else 0), hm.2)
  | .writeLine =>
    let hm1 := cohWrite hm a (c.bytes.take 64)
    (answerWith (if c.poison then markPoison hm1.1 a else if c.bytes.length ≥ 64 then clearLine hm1.1 a else hm1.1) [] 0, hm1.2)
  | .writePart =>
    let hm1 := maskedWrite hm a c.bytes c.mask
    (answerWith (if c.poison then markPoison hm1.1 a else hm1.1) [] 0, hm1.2)
  | .writeBack =>
    let hm1 := cohWrite hm a (c.bytes.take 64)
    (answerWith (if c.poison then markPoison hm1.1 a else hm1.1) [] 0, hm1.2)
  | .atomicHome | .atomicMem =>
    if poisoned hm.1 a then (answerWith hm.1 [] 2, hm.2)
    else
      let old := leNat (cohRead hm.1 hm.2 c.addr c.size)
      let hm1 := cohWrite hm c.addr (leBytes c.size (atomicNew c.op c.size old c.operand c.compare))
      (answerWith hm1.1 (leBytes c.size old) 0, hm1.2)

/-- The answer of a served transaction to the package that asked (Tables 7.7, 20.4): DAT for a read, CMP for the rest, ERROR with a
completion status where it was not served. -/
def answerRemote (h : Hw) (pos part addr txn : Nat) (k : ReqKind) : Hw :=
  let reads := decide (k = ReqKind.readShared ∨ k = ReqKind.readOwn ∨ k = ReqKind.readOnce)
  let base : Msg := { dst := pos, txn := txn, addr := toGlobal (toCompact h.ident.position addr) }
  let m : Msg :=
    match h.coh.answerBad with
    | 3 => { base with cls := .cmp, op := 3, status := 0x09 }
    | 4 => { base with cls := .cmp, op := 3, status := 0x06, poison := h.coh.answerPoison, payload := h.coh.answer }
    | b => if reads then { base with cls := .dat, op := 1, poison := decide (b = 2), payload := h.coh.answer }
           else { base with cls := .cmp, op := 2, poison := decide (b = 2), payload := h.coh.answer }
  postMsg h (partSet h part) m

/-- The package a transaction came from is answered. -/
def answered (hm : HM) (q : DirReq) : HM :=
  match q.agent with
  | .remote p => (answerRemote hm.1 p q.part q.act.addr q.act.txn q.kind, hm.2)
  | _ => hm

/-- Whether a request is a write of another package whose DAT waits for a grant (R237, R607). -/
def awaitsGrant (q : DirReq) : Bool :=
  decide ((q.kind = ReqKind.writeLine ∨ q.kind = ReqKind.writeBack) ∧ q.act.grant = 0) &&
    (match q.agent with | .remote _ => true | _ => false)

/-- A home grants a write of another package (R237): CMP GRANT leaves, and the line, in state B, is the receive space its DAT comes to. -/
def grantWrite (h : Hw) (line : Nat) (q : DirReq) : Hw :=
  let e := dirAt h line
  let h1 := setDir h line { e with busy := true, queue := { q with act := { q.act with grant := 1 } } :: e.queue }
  match q.agent with
  | .remote p => postMsg h1 (partSet h q.part) { cls := .cmp, op := 1, dst := p, txn := q.act.txn, addr := toGlobal (toCompact h.ident.position q.act.addr) }
  | _ => h1

/-- One transaction at its home (R234): queued behind a busy line with no answer yet, or served with its data. A write of another package
is granted first (R237). A WRITE_BACK of an agent
that no longer owns the line brings nothing. -/
def homeServe (hm : HM) (line : Nat) (q : DirReq) : HM :=
  let e := dirAt hm.1 line
  let s := remoteSnoops hm.1 e q
  if !e.busy && !q.snooped && !s.2.isEmpty then
    (answerWith (askHolders hm.1 line s.1 s.2 q) [] 0, hm.2)
  else if !e.busy && awaitsGrant q && (resvDelays hm.1 line q).isNone then (answerWith (grantWrite hm.1 line q) [] 0, hm.2)
  else
    let h1 := serveReq hm.1 line q
    if (dirAt h1 line).queue.length > e.queue.length then (answerWith h1 [] 0, hm.2)
    else if q.kind = ReqKind.writeBack ∧ e.owner ≠ some q.agent then answered (answerWith h1 [] 0, hm.2) q
    else answered (homeData (if writesLine q.kind then dropResv h1 line none else h1, hm.2) line q) q

/-- The busy state of a line ends and its queue is served in arrival order (R234, R238). A request that then waits for other packages
holds back the rest. -/
def serveLine (hm : HM) (line : Nat) : HM :=
  let e := dirAt hm.1 line
  e.queue.foldl (fun hm q => homeServe hm line q) (setDir hm.1 line { e with busy := false, queue := [] }, hm.2)

/-- Whether the island that a line's accesses end at answers RETRY (R73). -/
def lineRetries (h : Hw) (line : Nat) : Bool :=
  match targetIsland h (line * 64) with
  | some i => retrying h i
  | none => false

/-- Lines whose queue waits for nothing any more: no snoop answer, no DAT of a granted write, no reservation and no RETRY. -/
def idleLines (h : Hw) : List Nat :=
  (h.coh.dir.filter (fun e => e.2.busy && e.2.awaits.isEmpty && !e.2.queue.isEmpty && (reservedBy h e.1).isNone && !lineRetries h e.1
    && !(e.2.queue.take 1).any (fun q => decide (q.act.grant = 1) || heldSnoop h e.1 q))).map (·.1)

/-- Queues that wait for nothing any more are served: a way of their set may be free again (R232), or their reservation gone. -/
def wakeLines (hm : HM) : HM := (idleLines hm.1).foldl serveLine hm

/-- A line's queue is served, then those that waited for its way. -/
def serveQueue (hm : HM) (line : Nat) : HM := wakeLines (serveLine hm line)

/-- The partition tag of a REQ (R86): a cluster's is its owner's; a slice's, a remote package's and a ferry's come with the REQ. -/
def reqTag (h : Hw) (ag : Agent) (part : Nat) : Nat :=
  match ag with
  | .l3 c => (unitAt h 2 c).owner
  | _ => part

/-- The bytes that the mask of a WRITE_PART names, where they are one run: the first and how many. -/
def maskRun (mask : Nat) : Option (Nat × Nat) :=
  (List.range 64).findSome? (fun i => (List.range 65).findSome? (fun n =>
    if 0 < n ∧ mask = (2 ^ n - 1) * 2 ^ i then some (i, n) else none))

/-- What an uncached access to region 3, 4 or 5 reads: a register, or a device's own answer. -/
def ioRead (h : Hw) (a n : Nat) : Hw :=
  if regionOf a = 3 then
    match region3Read h (offsetOf a) n with
    | some v => answerWith h (leBytes n v) 0
    | none => answerWith h (zeros n) 2
  else if portDead h a then answerWith (devError h a 3) (zeros n) 2
  else let r := takeRemote h (toCompact h.ident.position a) n; answerWith r.2 r.1 0

/-- What an uncached write to region 3, 4 or 5 does. -/
def ioWrite (hm : HM) (a : Nat) (bs : List Byte) : HM :=
  if regionOf a = 3 then let r := region3Store hm (offsetOf a) bs.length (leNat bs); (answerWith r.1 [] 0, r.2)
  else (answerWith (if portDead hm.1 a then devError hm.1 a 3 else hm.1) [] 0, hm.2)

/-- A request of another package to I/O space (R39, R88): checked here under the partition of its stream, uncached, in region 3 of
the sizes of Table 6.3 only, in regions 4 and 5 as it comes (R212); a posted write behind a gated port is discarded (R76). -/
def ioReq (hm : HM) (q : DirReq) : HM :=
  let h := hm.1
  let a := q.act.addr
  let shapeOk (a n : Nat) : Bool := if regionOf a = 3 then decide ((n = 4 ∨ n = 8) ∧ a % n = 0) else decide (0 < n)
  let go (a n : Nat) (w : Bool) : HM :=
    if !shapeOk a n || !selRange h q.part a n w then (answerWith h [] 3, hm.2)
    else if behindGhost h a then
      (if w && decide (regionOf a ≠ 3) then (answerWith (discardPosted h q.part (toCompact h.ident.position a)) [] 0, hm.2)
       else (ghostAnswer h (!w), hm.2))
    else if w then ioWrite hm a ((q.act.bytes.drop (a % 64)).take n) else (ioRead h a n, hm.2)
  match q.kind with
  | .readOnce => if q.act.size = 0 then go (a / 64 * 64) 64 false else go a q.act.size false
  | .writePart => match maskRun q.act.mask with
    | some r => go (a / 64 * 64 + r.1) r.2 true
    | none => (answerWith h [] 3, hm.2)
  | _ => (answerWith h [] 3, hm.2)

/-- A REQ that ends at an island that answers RETRY is held before its home and presented again once RETRY ends (R73). -/
def holdReq (h : Hw) (line : Nat) (q : DirReq) : Hw :=
  let e := dirAt h line
  let h1 := setDir h line { e with busy := true, queue := e.queue ++ [q] }
  match targetIsland h (line * 64) with
  | some i => setIsland h1 i { islandAt h1 i with held := (islandAt h1 i).held + 1 }
  | none => h1

/-- A REQ reaches the home of a local address (R234, R246): checked at the selvedge, then served; what ends at a closing or waking island
is held (R73). A remote requester's refusal is recorded at its own package only (Table 3.5). -/
def homeReq (hm : HM) (k : ReqKind) (ag : Agent) (part addr : Nat) (c : HomeAct) : HM :=
  let h := hm.1
  let p := reqTag h ag part
  let w := writesLine k || decide (k = ReqKind.readOwn)
  let n := if k = ReqKind.atomicHome ∨ k = ReqKind.atomicMem then max 1 c.size else 1
  let fail (h : Hw) : HM := answered (h, hm.2) { kind := k, agent := ag, part := p, act := { c with addr := addr } }
  let q : DirReq := { kind := k, agent := ag, part := p, act := { c with addr := addr } }
  if regionOf addr ∈ [3, 4, 5] then (match ag with | .remote _ => answered (ioReq hm q) q | _ => hm)
  else if k ≠ ReqKind.writeBack ∧ (agentFenced h ag || !selRange h p addr n w) = true then
    fail (answerWith (match ag with | .remote _ => h | _ => countRefusal h p) [] 3)
  else if behindGhost h addr then fail (ghostAnswer h (!writesLine k && decide (k ≠ ReqKind.writeBack)))
  else if lineRetries h (lineOf addr) then (answerWith (holdReq h (lineOf addr) q) [] 0, hm.2)
  else if portDead h addr then fail (answerWith h (zeros 64) 2)
  else homeServe hm (lineOf addr) q

/-- The REQs that RETRY held before an island are presented again, in their order: it is open, or its ghost responder answers them (R73,
R76). -/
def presentHeld (hm : HM) (i : Island) : HM :=
  let lines := (hm.1.coh.dir.filter (fun e => !e.2.queue.isEmpty && e.2.awaits.isEmpty && decide (targetIsland hm.1 (e.1 * 64) = some i))).map (·.1)
  let again (hm : HM) (line : Nat) (q : DirReq) : HM :=
    homeReq hm q.kind q.agent q.part (if lineOf q.act.addr = line then q.act.addr else line * 64) q.act
  wakeLines (lines.foldl (fun hm line =>
    let e := dirAt hm.1 line
    e.queue.foldl (fun hm q => again hm line q) (setDir hm.1 line { e with busy := false, queue := [] }, hm.2)) hm)

/-- A caching agent no longer holds one line. -/
def dropCopy (h : Hw) (ag : Agent) (line : Nat) : Hw :=
  match ag with
  | .l3 c => dropL3 h c line
  | .slice s => dropShelf h s line
  | _ => h

/-- The directory entry without an agent's copy. -/
def withoutAgent (e : DirEntry) (ag : Agent) : DirEntry :=
  let e1 : DirEntry := if e.owner = some ag then { e with st := .s, owner := none, dirty := false } else e
  let e2 : DirEntry := match ag with
    | .remote p => { e1 with remote := e1.remote.filter (· ≠ p) }
    | a => match agentBit a with
      | some b => { e1 with locals := setField e1.locals b b 0 }
      | none => e1
  if e2.owner.isNone && decide (e2.locals = 0) && e2.remote.isEmpty && decide (e2.coarse = 0) then
    { queue := e2.queue, busy := e2.busy, awaits := e2.awaits }
  else e2

/-- The gateable island that a caching agent stands on. -/
def agentIsland : Agent → Option Island
  | .l3 c => some { kind := .cluster, idx := c }
  | .slice s => some { kind := .shelf, idx := s }
  | _ => none

/-- Whether a caching agent's island is gated. -/
def agentGated (h : Hw) (ag : Agent) : Bool :=
  match agentIsland ag with
  | some i => ghosted h i
  | none => false

/-- A SNP to a closing or waking island is held by RETRY, for its sender to present again (R73); none where the island takes it. -/
def agentRetry (h : Hw) (ag : Agent) : Option Hw :=
  match agentIsland ag with
  | some i => if retrying h i then some (setIsland h i { islandAt h i with held := (islandAt h i).held + 1 }) else none
  | none => none

/-- A hart of an agent's cluster holds the line reserved (R239). -/
def agentResv (h : Hw) (ag : Agent) (line : Nat) : Option Nat :=
  match ag with
  | .l3 c => ((List.range 8).map (8 * c + ·)).find? (fun n => decide ((hartAt h n).resv = some line))
  | _ => none

/-- A caching agent answers a snoop of a line (R238, R239, R249, Table 2.5): with data where it is the owner; a Fenced or gated agent's
answer is invalid; a reserved line's answer waits for the SC or the 128 cycles. -/
def snoop (hm : HM) (ag : Agent) (addr : Nat) (k : SnpKind) : HM :=
  let h := hm.1
  let line := lineOf addr
  let e := dirAt h line
  if agentFenced h ag then
    let q : DirReq := { kind := .readOwn, agent := .other }
    let h1 := if e.owner = some ag then loseFenced h line q else h
    (answerWith (setDir (dropCopy h1 ag line) line (withoutAgent (dirAt h1 line) ag)) [] 0, hm.2)
  else if agentGated h ag then (answerWith h [] 0, hm.2)
  else match agentRetry h ag, agentResv h ag line with
  | some h1, _ => (answerWith h1 [] 0, hm.2)
  | none, some n => (setHart h n { hartAt h n with resvHeld := true }, hm.2)
  | none, none =>
    let mine := decide (e.owner = some ag)
    let bytes := if mine then cohRead h hm.2 (line * 64) 64 else []
    let bad := if mine && poisoned h (line * 64) then 2 else 0
    match k with
    | .once => (answerWith h bytes bad, hm.2)
    | .toShared =>
      let e1 := if mine then addSharer { e with st := .s, owner := none, dirty := false } ag else e
      (answerWith (setDir h line e1) bytes bad, hm.2)
    | .toInvalid => (answerWith (setDir (dropCopy h ag line) line (withoutAgent e ag)) bytes bad, hm.2)

/-- A snoop of another package's home (R233, Table 20.4): the owner of a copy answers with its data, a sharer without; a copy given up is
dropped with the reservations of it. A reservation of the line delays the answer (R239). -/
def remoteSnoop (h : Hw) (set : Nat) (m : Msg) : Hw :=
  let line := ofGlobal m.addr / 64
  let x := proxyAt h line
  let back : Msg := { dst := m.src, txn := m.txn, addr := m.addr }
  let data : Msg := { back with cls := .dat, op := if x.dirty then 2 else 1, poison := x.poison, payload := x.bytes }
  let rsp (op : Nat) : Msg := { back with cls := .rsp, op := op }
  match reservedBy h (2 ^ 54 + line) with
  | some n =>
    setHart { h with arch := { h.arch with snpHeld := h.arch.snpHeld ++ [{ set := set, msg := m }] } } n { hartAt h n with resvHeld := true }
  | none =>
  match m.op with
  | 1 =>
    if x.own then postMsg (setProxy h line { x with own := false, dirty := false }) set data
    else postMsg h set (rsp (if x.bytes.isEmpty then 1 else 2))
  | 2 =>
    let h1 := giveUpProxies h (fun l _ => decide (l = line)) false
    postMsg h1 set (if x.own then data else rsp 1)
  | _ => if x.own then postMsg h set data else postMsg h set (rsp (if x.bytes.isEmpty then 1 else 2))

/-- The snoops of a line that a reservation delayed are answered (R239). -/
def heldSnoops (h : Hw) (line : Nat) : Hw :=
  let mine (o : OutMsg) : Bool := decide (ofGlobal o.msg.addr / 64 = line)
  (h.arch.snpHeld.filter mine).foldl (fun h o => remoteSnoop h o.set o.msg)
    { h with arch := { h.arch with snpHeld := h.arch.snpHeld.filter (fun o => !mine o) } }

/-! ### The rows -/

/-- READ_SHARED (R234). -/
def execReadShared (agent : Agent) (part addr : Nat) (s : State) : Host.Outcome State Fault Refusal :=
  onAll s (fun hm => homeReq hm .readShared agent part addr {})

/-- READ_OWN (R234). -/
def execReadOwn (agent : Agent) (part addr : Nat) (s : State) : Host.Outcome State Fault Refusal :=
  onAll s (fun hm => homeReq hm .readOwn agent part addr {})

/-- READ_ONCE (R234). -/
def execReadOnce (agent : Agent) (part addr : Nat) (s : State) : Host.Outcome State Fault Refusal :=
  onAll s (fun hm => homeReq hm .readOnce agent part addr {})

/-- WRITE_LINE (R234): the REQ and, its receive space granted, the DAT of a whole line with its poison mark (R237). -/
def execWriteLine (agent : Agent) (part addr : Nat) (data : List Byte) (poison : Bool) (s : State) : Host.Outcome State Fault Refusal :=
  onAll s (fun hm => if data.length ≠ 64 then hm else homeReq hm .writeLine agent part addr { bytes := data, poison := poison, grant := 2 })

/-- WRITE_PART (R234): the DAT of a line with the mask of the bytes written. -/
def execWritePart (agent : Agent) (part addr : Nat) (data : List Byte) (mask : W64) (poison : Bool) (s : State) :
    Host.Outcome State Fault Refusal :=
  onAll s (fun hm => if data.length ≠ 64 then hm
    else homeReq hm .writePart agent part addr { bytes := data, mask := mask.toNat, poison := poison })

/-- WRITE_BACK (R234): a dirty line evicted by its owner, its DAT after the grant (R237). -/
def execWriteBack (agent : Agent) (addr : Nat) (data : List Byte) (poison : Bool) (s : State) : Host.Outcome State Fault Refusal :=
  onAll s (fun hm => if data.length ≠ 64 then hm else homeReq hm .writeBack agent 31 addr { bytes := data, poison := poison, grant := 2 })

/-- ATOMIC_HOME (R241): an operation of Table 13.10 at the home atomic unit. -/
def execAtomicHome (agent : Agent) (part addr op size : Nat) (operand compare : Nat) (s : State) : Host.Outcome State Fault Refusal :=
  onAll s (fun hm => homeReq hm .atomicHome agent part addr { op := op, size := size, operand := operand, compare := compare })

/-- ATOMIC_MEM (R241): a ferry's operation at the memory controller. -/
def execAtomicMem (part addr op size : Nat) (operand compare : Nat) (s : State) : Host.Outcome State Fault Refusal :=
  onAll s (fun hm => homeReq hm .atomicMem .other part addr { op := op, size := size, operand := operand, compare := compare })

/-- SNP (R238). -/
def execSnp (agent : Agent) (addr : Nat) (kind : SnpKind) (s : State) : Host.Outcome State Fault Refusal :=
  onAll s (fun hm => snoop hm agent addr kind)

end Sys2Proof.Machine
end

