-- ==== Sys2Proof/Machine/Harts.lean ====
section
/-! DEFINITION. What harts do to the package (chapters 6 and 7): loads, stores, fetches, atomics, fences, stops, starts, and the precise
traps and qualifiers of refused or bad accesses. -/
namespace Sys2Proof.Machine

/-! ### Traps (R199, R209) -/

/-- A qualifier of a fault (Table 6.6): OVF is what VALID held before. -/
def qualifier (old : W64) (access source cause : Nat) : W64 :=
  w64 (cause + source * 2 ^ 8 + access * 2 ^ 12 + flag (bitOf old.toNat 63) * 2 ^ 14 + 2 ^ 63)

/-- An access fault: the qualifier and line address of the mode that takes it are written (R199, Tables 6.6, 6.9), and the trap is taken;
`ca` is the first byte of the piece that met the condition. -/
def accessFault (h : Hw) (a : HartAccess) (xcause access cause source ca : Nat) : Hw :=
  let x := hartAt h a.hart
  let acc := if a.implicit then 3 else access
  let line := w64 (ca % 2 ^ 56 / 64 * 64)
  let gline := match a.gpa with
    | some g => w64 ((if g = 0 then 0 else g + (ca - a.ca)) / 64 * 64)
    | none => line
  let y := match trapMode x xcause with
    | .m => { x with mHwErr := qualifier x.mHwErr acc source cause, mHwAddr := line }
    | .hs => { x with hsHwErr := qualifier x.hsHwErr acc source cause, hsHwAddr := line }
    | .vs => { x with vsHwErr := qualifier x.vsHwErr acc source cause, vsHwAddr := gline }
  takeTrap (setHart h a.hart y) a.hart xcause a.va

/-! ### What an access meets (R194, R208, R209, Tables 3.4, 6.3) -/

/-- What a hart's access is for, as the checks tell accesses apart. -/
inductive HartOp where | fetch | load | store | atomic | cacheZero
deriving DecidableEq, Repr

/-- Access encoding of the qualifier (Table 6.6). -/
def opAccess : HartOp → Nat
  | .fetch => 0 | .load => 1 | _ => 2

/-- Exception code of the access fault of an access. -/
def opFault : HartOp → Nat
  | .fetch => 1 | .load => 5 | _ => 7

/-- Whether an access keeps Table 6.3 in a region it touches (R194); cache-block operations are never performed on I/O space. -/
def pmaOk (o : HartOp) (region a n : Nat) : Bool :=
  match region with
  | 0 | 1 | 2 | 6 | 7 => true
  | 3 => (decide (o = HartOp.load) || decide (o = HartOp.store)) && decide ((n = 4 ∨ n = 8) ∧ a % n = 0)
  | 4 | 5 => (decide (o = HartOp.load) || decide (o = HartOp.store)) && decide ((n = 1 ∨ n = 2 ∨ n = 4 ∨ n = 8) ∧ a % n = 0)
  | _ => true

/-- First bytes of the aligned 8-byte blocks an access touches, in order (Table 7.4). -/
def blocks (a n : Nat) : List Nat :=
  if n = 0 then [] else a :: (List.range ((a + n - 1) / 8 - a / 8)).map (fun i => (a / 8 + 1 + i) * 8)

/-- SOURCE of data at a local address that arrives poisoned (Table 6.8). -/
def sourceOf (a : Nat) : Nat :=
  match regionOf a with
  | 0 => 8 | 1 => 7 | 2 => 6 | 6 => 9 | 7 => 9 | _ => 0

/-- Whether an address lies in no package's populated extent, whatever its population: beyond the offsets of its region, or in a reserved
part of region 2 or 3 (R41 to R44). -/
def reservedAfar (a : Nat) : Bool :=
  let o := offsetOf a
  decide (2 ^ 44 ≤ o) ||
  (match regionOf a with
   | 2 => !(decide (o < 2 ^ 32) && decide (field o 29 27 = 0) && decide (field o 23 0 < 12 * 2 ^ 20))
   | 3 => !(decide (o < 17 * 2 ^ 24) || (decide (2 ^ 30 ≤ o) && decide (o < 2 ^ 30 + 2 ^ 26)))
   | _ => false)

/-- The condition a hart's access meets at one aligned 8-byte block of a remote line: CAUSE and SOURCE (R48, R87 steps 4 and 5, R209). -/
def meetsRemote (h : Hw) (p ca : Nat) (reads : Bool) : Option (Nat × Nat) :=
  let x := proxyAt h (ca / 64)
  if 8 ≤ regionOf (compactLocal ca) ∨ reservedAfar (compactLocal ca) then some (3, 0)
  else if !isMember h (compactPos ca) then some (5, 0)
  else if memberFenced h then some (6, 0)
  else if x.own && decide (x.part = p) then (if reads && x.poison then some (2, 0xA) else none)
  else if reads && tabGet false h.coh.gone (ca / 64) then some (2, 0xA)
  else match lineStatus h p (ca / 64) with
    | 1 => some (3, 0)
    | 2 => if reads then some (2, 0xA) else none
    | _ => none

/-- The condition it meets at one block of a local line. -/
def meetsLocal (h : Hw) (p : Nat) (a : HartAccess) (x : Nat) (writes reads : Bool) : Option (Nat × Nat) :=
  if !selPiece h p x writes then some (3, 0)
  else if behindGhost h x then some (4, 0)
  else if !reads then none
  else if a.upset.isUe && decide (lineOf x = lineOf (compactLocal a.ca) + a.upsetAt) && !poisoned h x && decide (regionOf x ≠ 3) then
    some (1, a.place.source)
  else if regionOf x ∈ [4, 5] then (if portDead h x then some (2, 0) else none)
  else if decide (regionOf x ≠ 3) && (poisoned h x || portDead h x) then some (2, sourceOf x)
  else none

/-- Whether PMP allows a hart's access at a compact address (R208): a page-table access reads, a cache block operation needs either
permission. -/
def pmpOk (h : Hw) (a : HartAccess) (o : HartOp) (writes reads : Bool) (ca : Nat) : Bool :=
  let x := hartAt h a.hart
  let may := pmpAllow x (accessMode x a.implicit (decide (o = HartOp.fetch))) ca
  if o = .fetch then may 2
  else if a.implicit then may 0
  else if !reads && !writes then may 0 || may 1
  else (!reads || may 0) && (!writes || may 1)

/-- What a hart's access meets, in the order of Table 3.4 and R209 over its pieces, the lowest address first among those that meet the same
condition: CAUSE, SOURCE and the compact address of the piece; none where it may be performed. `reads`: it consumes data. -/
def meets (h : Hw) (a : HartAccess) (o : HartOp) (writes reads : Bool) : Option (Nat × Nat × Nat) :=
  let p := hartOwner h a.hart
  let l := compactLocal a.ca
  let base := a.ca - l % 2 ^ 44
  if decide (p > 16) || unitFenced h 2 (a.hart / 8) then some (3, 0, a.ca)
  else
    let found : List (Nat × Nat × Nat) := (blocks l a.size).filterMap (fun x =>
      let ca := base + x % 2 ^ 44
      if !pmpOk h a o writes reads ca || !pmaOk o (regionOf x) l a.size then some (7, 0, ca)
      else (if isLocal h a.ca then meetsLocal h p a x writes reads else meetsRemote h p ca reads).map (fun c => (c.1, c.2, ca)))
    [7, 3, 5, 6, 4, 1, 2].findSome? (fun c => found.find? (fun f => decide (f.1 = c)))

/-- The storage class of Table 11.5 whose bucket an access's corrected error counts in. -/
def correctedAt (h : Hw) (a : HartAccess) : Hw :=
  let l := compactLocal a.ca + 64 * a.upsetAt
  match a.place with
  | .far => let c := farChannel (offsetOf l); corrected h 0 ((c.1 * 64 + c.2) * 1024 + a.bank) l (candidateOf h l (rowOf h l).1 a.bank (rowOf h l).2.2)
  | .near => let p := nearPlace h (offsetOf l); corrected h 1 ((p.2.1 * 64 + p.2.2.2) * 256 + a.bank) l (candidateOf h l 0 a.bank (rowOf h l).2.2)
  | .scratch | .shelfCache => corrected h 2 (slotOf (offsetOf l)) l none
  | .bobbin => corrected h 3 0 l none
  | .l1i | .l1d | .l2 | .l3 => corrected h 4 (a.hart / 8) l none
  | .syncWord => corrected h 5 0 l none
  | .strait => corrected h 6 0 l none
  | .cxl | .remote => h

/-- The line a hart's data access evicts from its core's L1D or L2, if its cluster holds it to write back. -/
def dirtyVictim (h : Hw) (n line : Nat) : Option Nat :=
  let v1 := (setAccess (cacheSet h (128 + n) (line % 128)) 3 0xFF line).2.2
  let v2 := (setAccess (cacheSet h (256 + n) (line % 2048)) 4 0xFFFF line).2.2
  [v1, v2].findSome? (fun v => v.bind (fun x => if (dirAt h x).owner = some (Agent.l3 (n / 8)) then some x else none))

/-- What a hart's access evicts: an uncorrectable error in the dirty line leaves that line written back marked poisoned, recorded in the CORRECTED class in its hart's partition's queue (Table 6.13, EVICT_POISON). -/
def evictAnswer (h : Hw) (a : HartAccess) : Hw :=
  if a.evictUe then
    match dirtyVictim h a.hart (lineOf (compactLocal a.ca)) with
    | some v => recordWrite (markPoison h (v * 64)) { type := 0x0509, cls := 1, part := hartOwner h a.hart,
                                                      addr := toCompact h.ident.position (v * 64) }
    | none => h
  else h

/-- What the storage answers beside data: a corrected error counts (R336), and what the access evicts. -/
def arrayAnswers (h : Hw) (a : HartAccess) : Hw := evictAnswer (if a.upset.counts then correctedAt h a else h) a

/-- A hart's access meets a condition: the fault, with what the condition itself leaves (a refusal is counted, R91; a detected error
marks its data and makes a memory row a repair candidate, R328, R342; a request to a dead port is recorded, R645). -/
def hartFault (h : Hw) (a : HartAccess) (o : HartOp) (e : Nat × Nat × Nat) : Hw :=
  let p := hartOwner h a.hart
  let l := compactLocal e.2.2
  let h1 := if e.1 = 3 then countRefusal h p
            else if e.1 = 1 then
              (if a.place = Storage.far ∨ a.place = Storage.near then
                match candidateOf h l (rowOf h l).1 a.bank (rowOf h l).2.2 with
                | some c => addCandidate (markPoison h l) c
                | none => markPoison h l
              else markPoison h l)
            else if e.1 = 2 ∧ regionOf l ∈ [4, 5] then devError h l 3 else h
  accessFault h1 a (opFault o) (opAccess o) e.1 e.2.1 e.2.2

/-! ### Caches of a core (Table 6.4, R253, R254) -/

/-- Serve a REQ of a cluster at its home; a reservation's delay has passed (R239). Where the home is not ready the access waits, its miss
in the MSHRs of the caches it has missed, a target for each address (R251); where one of them has no MSHR or target free it waits too
(R271). -/
def reqNow (h : Hw) (line : Nat) (q : DirReq) (n : Nat) (instr : Bool) (ca : Nat) : Hw :=
  let l1 := if instr then n else 128 + n
  let x : Stall := { line := line, req := q, caches := [l1, 256 + n, 384 + n / 8], who := l1 * 2 ^ 64 + ca }
  if notReady h line q || !missRoom h x then stall h x
  else
    let h1 := if q.kind = ReqKind.readOwn then dropResv h line (some n) else h
    match dirAlloc h1 q.part line with
    | some h2 => homeTurn h2 line q
    | none => h1

/-- A hart's access to a line fills or touches its L1, L2 and L3; a miss, or a store to a line its cluster does not own, sends a
REQ to the home (Table 7.7). -/
def touchCore (h : Hw) (n line : Nat) (instr own : Bool) (ca : Nat := 0) (pf : Bool := false) : Hw :=
  let c := n / 8
  let l1 := if instr then n else 128 + n
  let mine := decide ((dirAt h line).owner = some (Agent.l3 c))
  let inL3 := cached h (384 + c) (line % 32768) line
  if cached h l1 (line % 128) line && (!own || mine) then
    putCache h l1 (line % 128) (setAccess (cacheSet h l1 (line % 128)) 3 0xFF line).1
  else
    let h1 := fillCore h n line instr own pf
    if inL3 && (!own || mine) then h1
    else reqNow h1 line { kind := if own then .readOwn else .readShared, agent := .l3 c, part := hartOwner h n } n instr ca

/-- A hart's access to a line of another package: its caches hold the copy its package obtains (R195, R233, R245); none where the home
refuses, as `st` says (R246). -/
def touchRemote (h0 : Hw) (n st line : Nat) (instr own : Bool) : Hw :=
  let h := readyAfar h0 line
  let t := remoteTag line
  let h1 := fillProxy h (hartOwner h n) line own (2 ^ (n / 8)) 0 st
  let l1 := if instr then n else 128 + n
  if !heldAfar h1 (hartOwner h n) line own then h1
  else if cached h1 l1 (t % 128) t && !own then putCache h1 l1 (t % 128) (setAccess (cacheSet h1 l1 (t % 128)) 3 0xFF t).1
  else fillCore h1 n t instr own

/-! ### The store buffer (R215, relaxation 1 of Table 7.1) -/

/-- A hart's access to the lines of a range at another package. -/
def touchAll (h : Hw) (n ca len : Nat) (instr own : Bool) : Hw :=
  (linesAfar ca (max 1 len)).foldl (fun g l => touchRemote g n (lineStatus h (hartOwner h n) l) l instr own) h

/-- Why a buffered store to another package cannot be performed (R246, R247, Table 7.9): its CAUSE of Table 6.7. -/
def storeBad (h : Hw) (p : Nat) (e : SbEntry) : Option Nat :=
  if !isMember h (compactPos e.addr) then some 5
  else if memberFenced h then some 6
  else if (linesAfar e.addr e.bytes.length).any (fun l => !heldAfar h p l true && decide (lineStatus h p l = 1)) then some 3
  else none

/-- One buffered store leaves the buffer: its line is held exclusively, or, through an uncached page, it is written at its home (R194); its
bytes are globally performed. One that its home will not perform
completes without effect, and the hart's next fence takes its fault (log entry 80). -/
def performStore (hm : HM) (n : Nat) (e : SbEntry) : HM :=
  if !isLocal hm.1 e.addr then
    match storeBad hm.1 (hartOwner hm.1 n) e with
    | some c =>
      let x := hartAt hm.1 n
      (if x.sbBad.isSome then hm.1 else setHart hm.1 n { x with sbBad := some (e.addr, c) }, hm.2)
    | none =>
      if e.io then (tagWrites (remoteWrite hm.1 (hartOwner hm.1 n) e.addr e.bytes false) (.hart n), hm.2)
      else (proxyWrite (touchAll hm.1 n e.addr e.bytes.length false true) e.addr e.bytes, hm.2)
  else if e.io then
    let l := compactLocal e.addr
    let whole (x : Nat) : Bool := decide (l ≤ x * 64) && decide (x * 64 + 64 ≤ l + e.bytes.length)
    cohWrite ((linesOf l e.bytes.length).foldl (fun h x => touchWrite h (whole x) x) (retryStall hm.1 l true), hm.2) l e.bytes
  else
    let l := compactLocal e.addr
    let h1 := (linesOf l e.bytes.length).foldl (fun h x => dropResv (touchCore h n x false true e.addr) x (some n)) (retryStall hm.1 l)
    let hm2 := cohWrite ((linesOf l e.bytes.length).foldl (fun h x => keepCopy (h, hm.2) x) h1, hm.2) l e.bytes
    (if e.bytes.length = 64 ∧ l % 64 = 0 then clearLine hm2.1 l else hm2.1, hm2.2)

/-- The `k` oldest stores of a hart leave its buffer, in order. -/
def drainSome (hm : HM) (n k : Nat) : HM :=
  let es := (hartAt hm.1 n).sb.take k
  if es.isEmpty then hm
  else
    let hm1 := es.foldl (fun hm e => performStore hm n e) hm
    (setHart hm1.1 n { hartAt hm1.1 n with sb := (hartAt hm1.1 n).sb.drop k }, hm1.2)

/-- The whole buffer drains. -/
def drainBuffer (hm : HM) (n : Nat) : HM := drainSome hm n (hartAt hm.1 n).sb.length

/-- The youngest buffered store's byte at an address, if any. -/
def forwarded (sb : List SbEntry) (a : Nat) : Option Byte :=
  (sb.reverse.find? (fun e => decide (e.addr ≤ a ∧ a < e.addr + e.bytes.length))).map (fun e => e.bytes.getD (a - e.addr) 0)

/-- The bytes a hart's load returns: each from the youngest buffered store to it, else from the coherent space (R215). -/
def loadBytes (hm : HM) (n ca len : Nat) : List Byte :=
  (List.range len).map (fun i => (forwarded (hartAt hm.1 n).sb (ca + i)).getD (cohByte hm.1 hm.2 (compactLocal ca + i)))

/-! ### Loads, stores and fetches -/

/-- A line the prefetchers ask for beside an access to `l` (R196): it is filled only within the access's 4 KiB, where the selvedge admits it
and its home can serve it at once; else, and where it meets a poisoned line (Table 11.3), the prefetch is dropped and leaves nothing. A
prefetch that meets an uncorrectable error fills nothing and is not listed. -/
def prefetch (h : Hw) (n l line : Nat) (instr own : Bool := false) : Hw :=
  let a := line * 64
  let l1 := if instr then n else 128 + n
  let q : DirReq := { kind := if own then .readOwn else .readShared, agent := .l3 (n / 8), part := hartOwner h n }
  if a / 4096 ≠ l / 4096 ∨ inIo a ∨ !selPiece h (hartOwner h n) a own ∨ behindGhost h a ∨ portDead h a
      ∨ (cached h l1 (line % 128) line && !own) ∨ poisoned h a ∨ notReady h line q
      ∨ !missRoom h { line := line, req := q, caches := [l1, 256 + n, 384 + n / 8], who := l1 * 2 ^ 64 + a } then h
  else touchCore h n line instr own a true

/-- An access of a hart to I/O space waits until its earlier I/O stores to other packages are acknowledged (R226). -/
def ioOrder (h : Hw) (n : Nat) : Hw := if actorPending h (.hart n) then holdBack h else h

/-- A hart's read of bytes of another package: uncached in I/O space (R212), else from the copies its package holds. -/
def readAfar (h : Hw) (n ca len : Nat) : List Byte × Hw :=
  if inIo (compactLocal ca) then takeRemote (askRemote (ioOrder h n) (hartOwner h n) 3 ca len [] false) ca len
  else
    let h1 := touchAll h n ca len false false
    ((List.range len).map (fun i => (forwarded (hartAt h n).sb (ca + i)).getD (proxyByte h1 (ca + i))), h1)

/-- What precedes a hart's load or store (R215, R226): an access to I/O space, or through an IO page, waits until every earlier store of the
hart is performed and acknowledged; before another one some of its oldest buffered stores may have left. -/
def beforeAccess (hm : HM) (a : HartAccess) : HM :=
  if inIo (compactLocal a.ca) || decide (a.pbmt = .io) then let o := drainBuffer hm a.hart; (ioOrder o.1 a.hart, o.2)
  else drainSome hm a.hart a.drained

/-- What precedes a store: its oldest entry leaves a store buffer that is full. -/
def beforeStore (hm : HM) (a : HartAccess) : HM :=
  let hm1 := beforeAccess hm a
  if (hartAt hm1.1 a.hart).sb.length ≥ 64 then drainSome hm1 a.hart 1 else hm1

/-- A hart's uncached read of main memory (R194): each line once from its home, or the bytes from another package's. -/
def readUncached (hm : HM) (n ca len : Nat) : List Byte × Hw :=
  let p := hartOwner hm.1 n
  let l := compactLocal ca
  if !isLocal hm.1 ca then takeRemote (askRemote hm.1 p 3 ca len [] false) ca len
  else
    let h := (linesOf l len).foldl (fun h x => readOnce h p x) (addTraffic (retryStall hm.1 l) p len)
    ((List.range len).map (fun i => (forwarded (hartAt h n).sb (ca + i)).getD (cohByte h hm.2 (l + i))), h)

/-- The enable of a cache-block instruction below M-mode: menvcfg, henvcfg and senvcfg (Zicbom, Zicboz). -/
def cboGate (x : Hart) (o : CacheOp) (zero : Bool) : Option Nat :=
  let on (c : Nat) : Bool := match o with
    | .clean | .flush => bitOf (csrOf x c) 6
    | .inval => decide (field (csrOf x c) 5 4 ≠ 0)
    | _ => !zero || bitOf (csrOf x c) 7
  if x.mode = 3 then none else gated x (on 0x30A) (on 0x60A) (on 0x10A)

/-- A line leaves every cache, what its holder wrote in memory: cbo.clean, cbo.flush and cbo.inval, which no rule of placement tells apart
(log entry 84). -/
def flushLine (h : Hw) (n ca : Nat) : Hw :=
  let l := compactLocal ca
  if !isLocal h ca then
    let g := ownedAfar h (ca / 64) false
    giveUpLine g false (ca / 64) (proxyAt g (ca / 64))
  else if notReady (retryStall h l) (lineOf l) (collectReq (lineOf l)) then stall (retryStall h l) { line := lineOf l, req := collectReq (lineOf l) }
  else homeTurn (dropResv (retryStall h l) (lineOf l) (some n)) (lineOf l) (collectReq (lineOf l))

/-- A cache-block instruction (R194): management of a block in I/O space faults, a prefetch hint there, or where a load would, is ignored. -/
def hartBlock (hm0 : HM) (a : HartAccess) : HM :=
  let n := a.hart
  let l := compactLocal a.ca
  let hint (own instr : Bool) : HM :=
    if inIo l ∨ !isLocal hm0.1 a.ca ∨ (meets hm0.1 { a with ca := a.ca / 64 * 64, size := 64 } (if instr then .fetch else .load) own true).isSome then hm0
    else (prefetch hm0.1 n l (lineOf l) instr own, hm0.2)
  match cboGate (hartAt hm0.1 n) a.cbo false with
  | some c => (takeTrap hm0.1 n c 0, hm0.2)
  | none =>
    match a.cbo with
    | .prefetchR => hint false false
    | .prefetchW => hint true false
    | .prefetchI => hint false true
    | _ =>
      let hm := drainBuffer hm0 n
      let b : HartAccess := { a with ca := a.ca / 64 * 64, size := 64 }
      match meets hm.1 b .cacheZero false false with
      | some e => (hartFault hm.1 b .cacheZero e, hm.2)
      | none => (flushLine hm.1 n b.ca, hm.2)

/-- HART_LOAD (R193, R213, R226): a load from I/O space, or through an IO page, waits until every earlier store is performed. -/
def hartLoad (hm0 : HM) (a : HartAccess) : HM :=
  let n := a.hart
  let l := compactLocal a.ca
  if !runs hm0.1 n then hm0
  else if a.cbo ≠ .none then hartBlock hm0 a
  else
    let hm := beforeAccess hm0 a
    match meets hm.1 a .load false true with
    | some e => (hartFault hm.1 a .load e, hm.2)
    | none =>
      let h := arrayAnswers hm.1 a
      if decide (a.pbmt ≠ .pma) && !inIo l then let r := readUncached (h, hm.2) n a.ca a.size; (setResult r.2 n r.1, hm.2)
      else if !isLocal h a.ca then let r := readAfar h n a.ca a.size; (setResult r.2 n r.1, hm.2)
      else if regionOf l = 3 then
        let o := offsetOf l
        if o % 2 ^ 24 = 0x6008 ∧ o < stewardBase ∧ !invalidated h (o / 2 ^ 24) then hm
        else match region3Read h o a.size with
        | some v => (setResult h n (leBytes a.size v), hm.2)
        | none => (accessFault h a 5 1 2 0xC a.ca, hm.2)
      else if inIo l then
        let r := takeRemote (retryStall h l) a.ca a.size
        (setResult r.2 n r.1, hm.2)
      else
        let h0 := (linesOf l a.size).foldl (fun h x => touchCore h n x false false a.ca) (addTraffic (retryStall h l) (hartOwner h n) a.size)
        let h1 := a.ahead.foldl (fun h x => prefetch h n l x) h0
        let bs := loadBytes (h1, hm.2) n a.ca a.size
        match (linesOf l a.size).find? (fun x => poisoned h1 (x * 64)) with
        | some x => (hartFault h1 a .load (2, sourceOf l, a.ca - l % 2 ^ 44 + max l (x * 64) % 2 ^ 44), hm.2)
        | none => (setResult h1 n bs, hm.2)

/-- What a store is: one of more than 8 bytes is cbo.zero. -/
def storeOp (a : HartAccess) : HartOp := if a.size > 8 then .cacheZero else .store

/-- HART_STORE (R215, R226, R227): a store to the coherent space enters the store buffer, from which its oldest entry leaves first when
it is full; a store to I/O space, or through an IO page, is performed once every earlier store is. -/
def hartStore (hm0 : HM) (a : HartAccess) (bs : List Byte) : HM :=
  let n := a.hart
  let l := compactLocal a.ca
  if !runs hm0.1 n || decide (bs.length ≠ a.size) then hm0
  else
    let hm := beforeStore hm0 a
    let o := storeOp a
    match (if a.size > 8 then cboGate (hartAt hm.1 n) .none true else none) with
    | some c => (takeTrap hm.1 n c 0, hm.2)
    | none =>
    match meets hm.1 a o true false with
    | some e => (hartFault hm.1 a o e, hm.2)
    | none =>
      if inIo l && !isLocal hm.1 a.ca then (tagWrites (remoteWrite hm.1 (hartOwner hm.1 n) a.ca bs false) (.hart n), hm.2)
      else if regionOf l = 3 then region3Store hm (offsetOf l) a.size (leNat bs)
      else if inIo l then (if portDead hm.1 l then (devError hm.1 l 3, hm.2) else (retryStall hm.1 l, hm.2))
      else
        let h := addTraffic (evictAnswer hm.1 a) (hartOwner hm.1 n) a.size
        let x := hartAt h n
        let hm2 : HM := (setHart h n { x with sb := x.sb ++ [{ addr := a.ca, bytes := bs, io := decide (a.pbmt ≠ .pma) }] }, hm.2)
        if a.pbmt = .io then drainBuffer hm2 n else hm2

/-- HART_FETCH (R190, R194, R207): a hart of a Fenced scope parks on its refused fetch while NMIE is 0; an instruction of an extension that
no hart has is illegal. -/
def hartFetch (hm : HM) (a : HartAccess) : HM :=
  let n := a.hart
  let h := hm.1
  if !runs h n then hm
  else
    let x := hartAt h n
    let h1 := setHart h n { xret x a.ret with pc := a.va }
    if unitFenced h 2 (n / 8) && !x.nmie then (setHart h1 n { hartAt h1 n with run := .parked }, hm.2)
    else match meets h1 a .fetch false true with
    | some e => (hartFault h1 a .fetch e, hm.2)
    | none =>
      let h2 := arrayAnswers h1 a
      let l := compactLocal a.ca
      let h3 :=
        if a.pbmt ≠ .pma then (readUncached (h2, hm.2) n a.ca a.size).2
        else if isLocal h2 a.ca then
          (linesOf l a.size).foldl (fun h x => touchCore h n x true false a.ca) (addTraffic (retryStall h2 l) (hartOwner h2 n) a.size)
        else touchAll h2 n a.ca a.size true false
      match (if isLocal h3 a.ca then (linesOf l a.size).find? (fun x => poisoned h3 (x * 64)) else none) with
      | some x => (hartFault h3 a .fetch (2, sourceOf l, a.ca - l % 2 ^ 44 + max l (x * 64) % 2 ^ 44), hm.2)
      | none => (if a.omitted then takeTrap h3 n 2 0 else h3, hm.2)

/-! ### Atomics (R193, R239 to R243) -/

/-- Code of an AMO's operation in Table 13.10. -/
def amoCode : AmoOp → Nat
  | .add => 1 | .and => 2 | .or => 3 | .xor => 4 | .swap => 5 | .min => 6 | .max => 7 | .minu => 8 | .maxu => 9 | .cas => 10

/-- The new value of an AMO on `size` bytes. -/
def amoNew (o : AmoOp) (size old operand compare : Nat) : Nat := atomicNew (amoCode o) size old operand compare

/-- Whether an AMO lies within one aligned 16-byte block (R193). -/
def within16 (a n : Nat) : Bool := decide (n ≠ 0 ∧ a / 16 = (a + n - 1) / 16)

/-- An address-misaligned exception: it comes before every access fault and writes no qualifier (R193). -/
def misaligned (h : Hw) (a : HartAccess) (cause : Nat) : Hw := takeTrap h a.hart cause a.va

/-- Whether a hart's L1D holds a line exclusively (R197): its cluster owns it, and no other core of the cluster has it. -/
def exclusive (h : Hw) (n line : Nat) : Bool :=
  decide ((dirAt h line).owner = some (Agent.l3 (n / 8))) && cached h (128 + n) (line % 128) line &&
    (List.range 8).all (fun k => decide (8 * (n / 8) + k = n) || !cached h (256 + 8 * (n / 8) + k) (line % 2048) line)

/-- The same of a line of another package. -/
def exclusiveAfar (h : Hw) (n line : Nat) : Bool :=
  let t := remoteTag line
  heldAfar h (hartOwner h n) line true && cached h (128 + n) (t % 128) t && decide ((proxyAt h line).clusters = 2 ^ (n / 8)) &&
    (List.range 8).all (fun k => decide (8 * (n / 8) + k = n) || !cached h (256 + 8 * (n / 8) + k) (t % 2048) t)

/-- The line of a hart's AMO or SC where it is performed: in the L1D that holds it exclusively, else at its home, every copy invalidated
(R197, R240, R241); it waits where the home is not ready. -/
def placeAtomic (h : Hw) (m : Memory) (n line : Nat) : Hw :=
  let q : DirReq := { kind := .atomicHome, agent := .l3 (n / 8) }
  let h0 := retryStall h (line * 64)
  if exclusive h n line then keepCopy (touchCore h0 n line false true, m) line
  else if notReady h line q then stall h0 { line := line, req := collectReq line }
  else homeTurn (dropResv h0 line (some n)) line q

/-- A hart takes the store access fault of a buffered store that could not be performed (R200, Table 7.9). -/
def lostStore (h : Hw) (n va : Nat) (e : Nat × Nat) : Hw :=
  accessFault (setHart h n { hartAt h n with sbBad := none }) { hart := n, va := va, ca := e.1 } 7 2 e.2 0 e.1

/-- AMO (R240, R241, R243): the store buffer drains; the operation runs in the L1D where the line is held exclusively, else at the home
atomic unit, every other copy invalidated. -/
def hartAmo (hm0 : HM) (a : HartAccess) (o : AmoOp) (operand compare : Nat) : HM :=
  let n := a.hart
  let l := compactLocal a.ca
  if !runs hm0.1 n then hm0
  else if !within16 a.ca a.size then (misaligned hm0.1 a 6, hm0.2)
  else
    let hm := drainBuffer hm0 n
    match (hartAt hm.1 n).sbBad with
    | some e => (lostStore hm.1 n a.va e, hm.2)
    | none =>
    match meets hm.1 a .atomic true true with
    | some e => (hartFault hm.1 a .atomic e, hm.2)
    | none =>
      let h := arrayAnswers hm.1 a
      if !isLocal h a.ca then
        if exclusiveAfar h n (a.ca / 64) then
          let old := leNat ((List.range a.size).map (fun i => proxyByte h (a.ca + i)))
          (setResult (proxyWrite h a.ca (leBytes a.size (amoNew o a.size old operand compare))) n (leBytes a.size old), hm.2)
        else
          let r := atomicAfar h (hartOwner h n) 7 a.ca a.size operand compare (amoCode o)
          (setResult r.2 n r.1, hm.2)
      else
        let line := lineOf l
        let hl := loseFenced h line { kind := .atomicHome, agent := .l3 (n / 8) }
        if poisoned hl l then (hartFault hl a .atomic (2, sourceOf l, a.ca), hm.2)
        else
        let h2 := placeAtomic (addTraffic h (hartOwner h n) a.size) hm.2 n line
        let old := leNat (cohRead h2 hm.2 l a.size)
        let hm3 := cohWrite (h2, hm.2) l (leBytes a.size (amoNew o a.size old operand compare))
        (setResult (dropResv hm3.1 line (some n)) n (leBytes a.size old), hm3.2)

/-- LR (R239, Table 7.8): the line is obtained by READ_OWN and reserved. -/
def hartLr (hm0 : HM) (a : HartAccess) : HM :=
  let n := a.hart
  let l := compactLocal a.ca
  if !runs hm0.1 n then hm0
  else if a.ca % max 1 a.size ≠ 0 then (misaligned hm0.1 a 4, hm0.2)
  else
    let hm := drainBuffer hm0 n
    match (if inIo l then some (7, 0, a.ca) else meets hm.1 a .load false true) with
    | some e => (hartFault hm.1 a .load e, hm.2)
    | none =>
      if !isLocal hm.1 a.ca then
        let h0 := touchRemote hm.1 n (lineStatus hm.1 (hartOwner hm.1 n) (a.ca / 64)) (a.ca / 64) false true
        let h1 := setResult h0 n ((List.range a.size).map (fun i => proxyByte h0 (a.ca + i)))
        (setHart h1 n { hartAt h1 n with resv := some (2 ^ 54 + a.ca / 64) }, hm.2)
      else
        let h := arrayAnswers hm.1 a
        let h0 := touchCore (retryStall h l) n (lineOf l) false true a.ca
        if poisoned h0 l then (hartFault h0 a .load (2, sourceOf l, a.ca), hm.2)
        else
          let h1 := setResult h0 n (cohRead h0 hm.2 l a.size)
          (setHart h1 n { hartAt h1 n with resv := some (lineOf l), resvHeld := false }, hm.2)

/-- The reservation of a hart ends; a snoop it delayed is answered (R239). -/
def endResv (hm : HM) (n : Nat) : HM :=
  let x := hartAt hm.1 n
  let h1 := setHart hm.1 n { x with resv := none, resvHeld := false }
  match x.resv with
  | some l =>
    if !x.resvHeld then (h1, hm.2)
    else if 2 ^ 54 ≤ l then (heldSnoops h1 (l - 2 ^ 54), hm.2)
    else if (dirAt h1 l).awaits.isEmpty then serveQueue (h1, hm.2) l else (h1, hm.2)
  | none => (h1, hm.2)

/-- SC (R197, R239): it stores and answers zero where the reservation stands, in the L1D or at the home; else it answers one and stores
nothing. -/
def hartSc (hm0 : HM) (a : HartAccess) (bs : List Byte) : HM :=
  let n := a.hart
  let l := compactLocal a.ca
  if !runs hm0.1 n || decide (bs.length ≠ a.size) then hm0
  else if a.ca % max 1 a.size ≠ 0 then (misaligned hm0.1 a 6, hm0.2)
  else
    let hm := drainBuffer hm0 n
    match meets hm.1 a .atomic true false with
    | some e =>
      let hm2 := endResv hm n
      (hartFault hm2.1 a .atomic e, hm2.2)
    | none =>
      let want := if isLocal hm.1 a.ca then lineOf l else 2 ^ 54 + a.ca / 64
      if (hartAt hm.1 n).resv = some want then
        let hm1 : HM :=
          if !isLocal hm.1 a.ca then
            (if exclusiveAfar hm.1 n (a.ca / 64) then (proxyWrite hm.1 a.ca bs, hm.2)
             else ((atomicAfar hm.1 (hartOwner hm.1 n) 7 a.ca a.size (leNat bs) 0 5).2, hm.2))
          else let o := cohWrite (placeAtomic hm.1 hm.2 n (lineOf l), hm.2) l bs; (dropResv o.1 (lineOf l) (some n), o.2)
        let hm2 := endResv hm1 n
        (setResult hm2.1 n (leBytes 8 0), hm2.2)
      else
        let hm2 := endResv hm n
        (setResult hm2.1 n (leBytes 8 1), hm2.2)

/-- RESERVATION_TIMEOUT (R239): 128 core cycles after the LR the hart answers the delayed snoop, giving up the line; a queue that an
earlier reservation of the hart held back goes on. -/
def resvTimeout (hm : HM) (n : Nat) : HM := wakeLines (if (hartAt hm.1 n).resvHeld then endResv hm n else hm)

/-! ### Fences, stop and start -/

/-- FENCE (R225): it completes when the store buffer is empty, every store of it is globally performed, and, with I or O in the predecessor
set, every earlier I/O store is acknowledged. `sets`: the predecessor set in [7:4], the successor set in [3:0]. A store that its home would
not perform, gone or refusing it, has completed without effect, and the hart takes its fault. -/
def hartFence (hm : HM) (n va sets : Nat) : HM :=
  if !runs hm.1 n then hm
  else
    let hm1 := drainBuffer hm n
    match (hartAt hm1.1 n).sbBad with
    | some e => (lostStore hm1.1 n va e, hm1.2)
    | none => (if bitOf sets 7 || bitOf sets 6 then ioOrder hm1.1 n else hm1.1, hm1.2)

/-- YCFENCE (R200): PRED in [7:4] and SUCC in [3:0]; either zero orders nothing; with I or O in either it acts as FENCE of system scope;
else, with W before it, the store buffer drains, with the fault a FENCE takes of a store that could not be performed. -/
def ycfence (hm : HM) (n v va : Nat) : HM :=
  if !runs hm.1 n then hm
  else if field v 7 4 = 0 ∨ field v 3 0 = 0 then hm
  else if bitOf v 7 || bitOf v 6 || bitOf v 3 || bitOf v 2 then hartFence hm n va v
  else if bitOf v 4 then
    let hm1 := drainBuffer hm n
    match (hartAt hm1.1 n).sbBad with
    | some e => (lostStore hm1.1 n va e, hm1.2)
    | none => hm1
  else hm

/-- STOP (R188): it takes effect once the store buffer has drained; a reservation is dropped. In another mode than M the write is an
illegal instruction (R198). -/
def hartStop (hm : HM) (n : Nat) : HM :=
  if !runs hm.1 n then hm
  else if (hartAt hm.1 n).mode ≠ 3 then (takeTrap hm.1 n 2 0, hm.2)
  else
    let hm1 := drainBuffer hm n
    let hm2 := endResv hm1 n
    (setHart hm2.1 n { hartAt hm2.1 n with run := .stopped }, hm2.2)

/-- A hart goes on: a pending RNMI is taken ahead of its first instruction. -/
def afterStart (h : Hw) (n : Nat) : Hw :=
  let x := hartAt h n
  match x.rnmi with
  | c :: cs => if x.nmie then takeRnmi (setHart h n { x with rnmi := cs }) n c else h
  | [] => h

/-- A stopped hart starts at its YMSTARTPC in M-mode (R189). -/
def startHart (h : Hw) (n : Nat) : Hw :=
  let x := hartAt h n
  if x.run = HartRun.stopped then
    afterStart (setHart h n { x with run := .running, mode := 3, virt := false, pc := x.startPc.toNat, startReq := false }) n
  else h

/-- YMHARTSTART (R189): ignored where the target is not the partition's, not stopped, or the writer itself. A gated cluster is woken
first, and the start waits for it. -/
def hartStart (h : Hw) (n target : Nat) : Hw :=
  if !runs h n then h
  else if (hartAt h n).mode ≠ 3 then takeTrap h n 2 0
  else if target ≥ 128 ∨ target = n ∨ hartOwner h target ≠ hartOwner h n ∨ (hartAt h target).run ≠ HartRun.stopped then h
  else
    let i : Island := { kind := .cluster, idx := target / 8 }
    let x := islandAt h i
    let asked := setHart h target { hartAt h target with startReq := true }
    match x.power with
    | .open => startHart h target
    | .gated => setIsland asked i { x with power := .waking h.tb.now }
    | _ => asked

/-- Harts of a cluster whose start waited for its wake, or for a power-down to be abandoned. -/
def startWaiting (h : Hw) (c : Nat) : Hw :=
  (List.range 8).foldl (fun h k => if (hartAt h (8 * c + k)).startReq then startHart h (8 * c + k) else h) h

/-- MNRET (R207, Smrnmi): a parked fetch is retried once the scope is no longer Fenced; the hart returns to what the RNMI interrupted,
NMIE is set, and a pending RNMI is then taken. -/
def mnret (h : Hw) (n : Nat) : Hw :=
  let x := hartAt h n
  if n ≥ 128 ∨ !(x.run = HartRun.running ∨ x.run = HartRun.parked) ∨ (x.run = HartRun.parked ∧ unitFenced h 2 (n / 8)) then h
  else if x.mode ≠ 3 then takeTrap h n 2 0
  else afterStart (setHart h n { x with run := .running, pc := x.mnepc, mode := x.mnpp, virt := x.mnpv, nmie := true }) n

/-- KNT_VALUE (R226, R489): a hart's load of a knot's VALUE through its partition's window, once its earlier stores are performed; a poisoned
knot faults the load in the mode that takes it (R199). -/
def kntValue (hm0 : HM) (x : HartPoint) (knot : Nat) : HM :=
  let n := x.hart
  let p := hartOwner hm0.1 n
  if !runs hm0.1 n || decide (p > 16) then hm0
  else
    let hm := drainBuffer hm0 n
    let h := ioOrder hm.1 n
    match windowValue h p knot with
    | some v => (setResult h n (leBytes 8 v.toNat), hm.2)
    | none =>
      let ca := toCompact h.ident.position (3 * 2 ^ 48 + p * 2 ^ 24 + 0x800000 + 16 * knot)
      (accessFault h { hart := n, va := x.va, ca := ca, size := 8 } 5 1 2 0xC ca, hm.2)

/-- SLP_XINV_SYNC (R226, R369): hart n's load returns zero once every earlier invalidation of its partition has completed, its own stores
performed before it. -/
def xinvSync (hm0 : HM) (n : Nat) : HM :=
  if n < 128 ∧ hartOwner hm0.1 n ≤ 16 ∧ invalidated hm0.1 (hartOwner hm0.1 n) then
    let hm := drainBuffer hm0 n
    (setResult (ioOrder hm.1 n) n (zeros 8), hm.2)
  else hm0

/-! ### Register writes -/

/-- A hart's CSR instruction (R198): the write-only custom registers act on what is written (Table 6.5). -/
def csrStore (hm : HM) (n num : Nat) (op : CsrOp) (v : Nat) : HM :=
  let x := hartAt hm.1 n
  let h := csrWrite hm.1 n num op v
  if !runs hm.1 n || (csrTrap x num op).isSome || decide (op = .read) then (h, hm.2)
  else
    let w := csrNew op 0 v
    match num with
    | 0x7C4 => if bitOf w 0 then hartStop (h, hm.2) n else (h, hm.2)
    | 0x7C6 => (hartStart h n (field w 6 0), hm.2)
    | 0x800 => ycfence (h, hm.2) n w x.pc
    | 0x744 => (afterStart h n, hm.2)
    | _ => (h, hm.2)

/-- REGISTER_WRITE (R704): a store of a partition's own, to its window, to the Steward window, to a CSR of a hart, or to an APLIC source. -/
def registerWrite (hm : HM) (t : RegPlace) (w : Half) (v : Nat) : HM :=
  match t with
  | .window p off => if p ≤ 16 ∧ off < 2 ^ 24 then windowStore hm p (off / 8 * 8) v w else hm
  | .steward off => if off < 2 ^ 26 then stewardStore hm (off / 8 * 8) v w else hm
  | .csr n num op => csrStore hm n num op v
  | .aplicOwner d n => (aplicAssign hm.1 d n v, hm.2)
  | .aplic p d n => (aplicSet hm.1 p d n v, hm.2)

/-! ### The rows -/

/-- REGISTER_WRITE (R704). -/
def execRegisterWrite (t : RegPlace) (w : Half) (v : Nat) (s : State) : Host.Outcome State Fault Refusal :=
  onAll s (waiting (fun hm => registerWrite hm t w v))

/-- HART_LOAD (R213). -/
def execHartLoad (a : HartAccess) (s : State) : Host.Outcome State Fault Refusal := onAll s (waiting (fun hm => hartLoad hm a))

/-- HART_STORE (R215). -/
def execHartStore (a : HartAccess) (data : List Byte) (s : State) : Host.Outcome State Fault Refusal := onAll s (waiting (fun hm => hartStore hm a data))

/-- HART_FETCH (R194). -/
def execHartFetch (a : HartAccess) (s : State) : Host.Outcome State Fault Refusal := onAll s (waiting (fun hm => hartFetch hm a))

/-- AMO (R243). -/
def execAmo (a : HartAccess) (o : AmoOp) (operand compare : Nat) (s : State) : Host.Outcome State Fault Refusal :=
  onAll s (waiting (fun hm => hartAmo hm a o operand compare))

/-- LR (R239). -/
def execLr (a : HartAccess) (s : State) : Host.Outcome State Fault Refusal := onAll s (waiting (fun hm => hartLr hm a))

/-- SC (R239). -/
def execSc (a : HartAccess) (data : List Byte) (s : State) : Host.Outcome State Fault Refusal := onAll s (waiting (fun hm => hartSc hm a data))

/-- FENCE (R225). -/
def execFence (hart va sets : Nat) (s : State) : Host.Outcome State Fault Refusal := onAll s (waiting (fun hm => hartFence hm hart va sets))

/-- YCFENCE (R200). -/
def execYcfence (hart : HartPoint) (v : Nat) (s : State) : Host.Outcome State Fault Refusal :=
  onAll s (waiting (fun hm => ycfence hm hart.hart v hart.va))

/-- STOP (R188). -/
def execStop (hart : Nat) (s : State) : Host.Outcome State Fault Refusal := onAll s (waiting (fun hm => hartStop hm hart))

/-- YMHARTSTART (R189). -/
def execYmhartstart (hart target : Nat) (s : State) : Host.Outcome State Fault Refusal := onHw s (fun h => hartStart h hart target)

/-- MNRET (R207). -/
def execMnret (hart : Nat) (s : State) : Host.Outcome State Fault Refusal := onHw s (fun h => mnret h hart)

/-- RESERVATION_TIMEOUT (R239). -/
def execReservationTimeout (hart : Nat) (s : State) : Host.Outcome State Fault Refusal := onAll s (fun hm => resvTimeout hm hart)

/-- KNT_VALUE (R489). -/
def execKntValue (hart : HartPoint) (knot : Nat) (s : State) : Host.Outcome State Fault Refusal :=
  onAll s (waiting (fun hm => kntValue hm hart knot))

/-- SLP_XINV_SYNC (R369). -/
def execSlpXinvSync (n : Nat) (s : State) : Host.Outcome State Fault Refusal := onAll s (waiting (fun hm => xinvSync hm n))

end Sys2Proof.Machine
end

