-- ==== Sys2Proof/Machine/IslandRows.lean ====
section
/-! DEFINITION. The commands of straits, gating and the time base (chapter 2, R691). -/
namespace Sys2Proof.Machine

/-! ### Gating (Table 2.4) -/

/-- Whether an island may be gated while Active (Table 2.1's last column, R68). -/
def mayGate (h : Hw) (i : Island) : Bool :=
  let quiet (g : Nat) : Bool := !(h.eng.slips.any (fun e => decide (e.2.group = g) && e.2.descs.any (fun d =>
    decide (d.phase = Phase.staged ∨ d.phase = Phase.walking) || inFlight d)))
  match i.kind with
  | .cluster => clusterStopped h i.idx
  | .rootPort => (List.range 4).all (fun j => let x := portAt h (4 * i.idx + j); !x.up && !x.training)
  | .baseIdurrum => decide ((tabGet {} h.arch.links i.idx).st = LinkSt.disabled)
  | .ldiePort => decide ((tabGet {} h.arch.links (2 + i.idx)).st = LinkSt.disabled)
  | .cFerry => (List.range 32).all (fun j => let x := slipAt h (960 + 32 * i.idx + j); !slipEnabled x && x.descs.isEmpty)
  | .quad => (lockOf h i.idx).isNone
  | .shelf => !slotHasScratch h i.idx
  | .ferryGroup => quiet i.idx
  | _ => false

/-- CLOSE (R73): a gate request that Cralu accepts; a request it cannot grant is answered BUSY. -/
def closeIsland (h : Hw) (i : Island) : Hw :=
  let x := islandAt h i
  if x.power ≠ IslandPower.open ∨ islandExists h i = false then h
  else if mayGate h i then setIsland h i { x with power := .closing h.tb.now, gateBusy := false, gateLost := false }
  else setIsland h i { x with gateBusy := true, gateLost := false }

/-- Whether an island's own work is over, so that its drain can complete. -/
def drainedIsland (h : Hw) (i : Island) : Bool :=
  match i.kind with
  | .quad => (quadRuns h i.idx).isEmpty
  | .ferryGroup | .cFerry | .cluster | .shelf => mayGate h i
  | _ => true

/-- DRAIN_COMPLETE (R73): by t0 + 5 us the straits switch to their ghost responders. A cluster's dirty lines have been written back. -/
def drainComplete (hm : HM) (i : Island) : HM :=
  let h := hm.1
  let x := islandAt h i
  match x.power with
  | .closing t0 =>
    if h.tb.now ≤ t0 + 5000 ∧ drainedIsland h i = true then
      let h1 := setIsland h i { x with power := .drained h.tb.now, held := 0 }
      presentHeld (if i.kind = IslandKind.cluster then emptyCluster h1 i.idx true else h1, hm.2) i
    else hm
  | _ => hm

/-- GATE_ABANDON (R74): at t0 + 5 us an undrained island reopens; the request completes BUSY and no fault is recorded. -/
def gateAbandon (hm : HM) (i : Island) : HM :=
  let x := islandAt hm.1 i
  match x.power with
  | .closing t0 =>
    let h1 := advanceTo hm.1 (t0 + 5000)
    let h2 := setIsland h1 i { x with power := .open, held := 0, gateBusy := true }
    presentHeld (if i.kind = IslandKind.cluster then startWaiting h2 i.idx else h2, hm.2) i
  | _ => hm

/-- STRAITS_OPEN (R71): the straits of a waking island open, by t1 + 6 us, once it has loaded the time base from a sync marker; harts whose
start waited for it start. -/
def straitsOpen (hm : HM) (i : Island) : HM :=
  let x := islandAt hm.1 i
  match x.power with
  | .waking _ =>
    if x.hasTb then
      let h1 := reopen hm.1 i
      presentHeld (if i.kind = IslandKind.cluster then startWaiting h1 i.idx else h1, hm.2) i
    else hm
  | _ => hm

/-! ### The time base (R69 to R72) -/

/-- HOLDOVER as it enters, with its record; the package takes no part in the power pool while it lasts (R558, R563). -/
def enterHoldover (h : Hw) : Hw :=
  if h.tb.holdover then h
  else dropIns (recordWrite { h with tb := { h.tb with holdover := true, holdSince := h.tb.now } } { type := 0x090E, arg0 := 1 })

/-- HOLDOVER as it leaves, with its record. -/
def leaveHoldover (h : Hw) : Hw :=
  if h.tb.holdover then recordWrite { h with tb := { h.tb with holdover := false } } { type := 0x090E, arg0 := 0 } else h

/-- HOLDOVER clears once the reference is back, the counter agrees with it to within 1 ns, and the causeway gives no reason for it. -/
def settleHoldover (h : Hw) : Hw :=
  if !h.tb.refLost && !h.tb.netHold && decide (-1 ≤ h.tb.slew) && decide (h.tb.slew ≤ 1) then leaveHoldover h else h

/-- TB_REF_LOST (R72, R691). -/
def refLost (h : Hw) : Hw :=
  if h.tb.refLost then h else enterHoldover { h with tb := { h.tb with refLost := true, holdSince := h.tb.now } }

/-- The farthest the counter may have drifted in `t` ns of holdover, in ns (R72): at most 0.5 ppm more for every second of it, and the
1 ns the counter is read to. -/
def driftBound (t : Nat) : Nat := t * t / (4 * 10 ^ 15) + 1

/-- TB_REF_RESTORED (R691): after 10 ms within its band the reference is followed again; `ahead` is what must still be slewed, in ns
(negative: the counter runs ahead of the reference), within the drift R72 allows. -/
def refRestored (h : Hw) (ahead : Int) : Hw :=
  let h1 := advanceTo h (h.tb.holdSince + 10000000)
  if h.tb.refLost && decide (ahead.natAbs ≤ driftBound (h1.tb.now - h.tb.holdSince)) then
    settleHoldover { h1 with tb := { h1.tb with refLost := false, slew := h1.tb.slew + ahead } }
  else h

/-- STRAIT_MESSAGE with its credits (R57): the receiver has returned `back` credits of the class; then a message of it is presented. A
strait of an island the package does not have (R55) carries nothing. -/
def straitMessage (h : Hw) (a b : Island) (cls : MsgClass) (f : StraitFlit) (part back : Nat) : Hw :=
  if islandExists h a && islandExists h b then strait (returnCredits h a b cls back) a b cls f part else h

/-! ### The rows -/

/-- STRAIT_MESSAGE (R56): a message of class `cls` from island `a` to island `b` as its flit crosses, with the upsets it meets. -/
def execStraitMessage (a b : Island) (cls : MsgClass) (flit : StraitFlit) (part back : Nat) (s : State) :
    Host.Outcome State Fault Refusal :=
  onHw s (fun h => straitMessage h a b cls flit part back)

/-- STRAIT_HANDSHAKE_TIMEOUT (R61). -/
def execStraitHandshakeTimeout (a b : Island) (part : Nat) (s : State) : Host.Outcome State Fault Refusal :=
  onHw s (fun h => handshakeTimeout h a b part)

/-- GHOST_DISCARD (R76): a message to a gated island, its class and kind, its partition and its address. -/
def execGhostDiscard (b : Island) (cls : MsgClass) (kind : MsgKind) (part addr : Nat) (s : State) : Host.Outcome State Fault Refusal :=
  onHw s (fun h => ghost h b cls kind part addr)

/-- CLOSE (R73). -/
def execClose (i : Island) (s : State) : Host.Outcome State Fault Refusal := onHw s (fun h => closeIsland h i)

/-- DRAIN_COMPLETE (R73). -/
def execDrainComplete (i : Island) (s : State) : Host.Outcome State Fault Refusal := onAll s (fun hm => drainComplete hm i)

/-- GATE_ABANDON (R74). -/
def execGateAbandon (i : Island) (s : State) : Host.Outcome State Fault Refusal := onAll s (fun hm => gateAbandon hm i)

/-- GATE (R75). -/
def execGate (i : Island) (s : State) : Host.Outcome State Fault Refusal := onHw s (fun h => gateIsland h i)

/-- WAKE_REQUESTED (R73). -/
def execWakeRequested (i : Island) (s : State) : Host.Outcome State Fault Refusal := onHw s (fun h => wakeIsland h i)

/-- STRAITS_OPEN (R71). -/
def execStraitsOpen (i : Island) (s : State) : Host.Outcome State Fault Refusal := onAll s (fun hm => straitsOpen hm i)

/-- SYNC_MARKER (R70). -/
def execSyncMarker (s : State) : Host.Outcome State Fault Refusal := onHw s (fun h => settleHoldover (syncMarker h))

/-- TB_REF_LOST (R691). -/
def execTbRefLost (s : State) : Host.Outcome State Fault Refusal := onHw s refLost

/-- TB_REF_RESTORED (R691). -/
def execTbRefRestored (ahead : Int) (s : State) : Host.Outcome State Fault Refusal := onHw s (fun h => refRestored h ahead)

end Sys2Proof.Machine
end

