-- ==== Sys2Proof/Machine/Startup.lean ====
section
/-! DEFINITION. Start-up, the resets' own events and the low-power states (chapters 5 and 10, R686, R688): the steps of Tables 5.1 to
5.5, training (Tables 10.4 and 10.5), the wake report, Idle, Drowse, Dormant and Off. -/
namespace Sys2Proof.Machine

/-- One millisecond in ns. -/
def ms : Nat := 1000000

/-! ### The first 120 ms (Table 5.1) -/

/-- Whether start-up is in course and not held by a WP's zeroisation. -/
def starting (h : Hw) : Bool := !h.efano.ready && h.start.wp.isNone && h.efano.mr.isNone && decide (h.start.st = PowerSt.active)

/-- KEEP_ALIVE_CHECK (R53, R599, R686): with VKA in its band, the fuses load and are checked, the permanent lock
group of the Cralu pair is established (R62), and the ANCHOR strap is sampled. -/
def keepAliveCheck (h : Hw) (anchor : Bool) : Hw :=
  if h.start.checked || !starting h || !h.keep.vka || !h.keep.powered then h
  else
    let h1 := advanceTo h (h.start.t0 + 20 * ms)
    { h1 with edges := { h1.edges with anchor := anchor }, start := { h1.start with checked := fuseOk h1 }, ident := { h1.ident with pairLock := fuseOk h1 } }

/-- CAUSEWAY_ISLAND_RUNNING (Table 5.1, t0 + 20 ms). -/
def causewayRuns (h : Hw) : Hw :=
  if h.start.checked && !h.arch.running && decide (h.start.st = PowerSt.active) then
    let h1 := advanceTo h (h.start.t0 + 20 * ms)
    { h1 with arch := { h1.arch with running := true } }
  else h

/-- A firmware slot that the ROM may start (R663). -/
def slotQualifies (h : Hw) (n : Nat) : Bool := let x := h.edges.fw.getD n {}; decide (x.st = 2) && decide (h.ident.fusedMin ≤ x.secVer)

/-- A port row of a bifurcation that R640 allows: x16, 2 x8 or 4 x4 of its complex. -/
def portRowOk (rs : List PortRow) (r : PortRow) : Bool :=
  let js := (rs.filter (fun x => decide (x.port / 4 = r.port / 4))).map (fun x => x.port % 4)
  decide (r.port < 32) && decide (js.eraseDups.length = js.length) && (js.all (· = 0) || js.all (fun j => decide (j = 0 ∨ j = 2)) || decide (js.length = 4))

/-- Idle level a pin's function drives or is pulled to (Table 21.6): of an output its initial or inactive level, of an input its pull. -/
def pinIdle (fn value : Nat) (level : Bool) : Bool :=
  match fn with
  | 0x01 => if value = 1 then true else if value = 2 then false else level
  | 0x02 => decide (value % 2 = 1)
  | 0x03 | 0x04 | 0x06 | 0x07 | 0x09 | 0x0B | 0x0C | 0x0D => true
  | 0x05 | 0x08 | 0x0A => false
  | _ => level

/-- ROOT_PORTS_CONFIGURED (t0 + 100 ms, R640, R663, R666): the ROM starts the active slot or the other that qualifies; port and pin
tables of the signed image are applied, downstream resets released, PCIe training begins. After a WP the ports leave hot reset. -/
def rootPorts (h0 : Hw) (rs : List PortRow) (ps : List PinRow) : Hw :=
  if !h0.start.checked || h0.start.ports || !starting h0 then h0
  else if h0.start.warm then
    let h1 := retrainPorts h0 (fun _ => true)
    { h1 with start := { h1.start with ports := true } }
  else
    let h := advanceTo h0 (h0.start.t0 + 100 * ms)
    let a := h.edges.active
    let o := 1 - a
    let act := if slotQualifies h a then a else if slotQualifies h o then o else a
    let ports : Tab RootPort := (rs.filter (portRowOk rs)).foldl (fun t r => tabPut {} t r.port { exists_ := true, cxl := r.cxl, training := true }) []
    let pins : Tab Pin := (ps.filter (fun p => decide (p.pin < 32 ∧ p.fn ≤ 0x10))).foldl (fun t p =>
      tabPut {} t p.pin { fn := p.fn, value := p.value, arg := p.arg, locked := p.locked,
                          level := pinIdle p.fn p.value (tabGet {} h.edges.pins p.pin).level }) []
    { h with edges := { h.edges with ports := ports, pins := pins, pinsOn := true, active := act },
             start := { h.start with ports := true, fwOk := slotQualifies h act } }

/-! ### Training (R315 to R322) -/

/-- ARG1 of TRAIN_FAIL: the stack's site, or the die in [15:8] and the channel in [7:0]. -/
def trainArg (k : Nat) : Nat := if k < 16 then k else (k - 16) / 64 * 256 + (k - 16) % 64

/-- TRAINING_START (tT = t0 + 120 ms): firmware runs; training is warm where the cache verifies, matches this package and its devices,
and holds every stack's and channel's parameters (R158). -/
def trainStart (h0 : Hw) (cacheOk : Bool) : Hw :=
  if !h0.start.checked || !h0.start.ports || !h0.start.fwOk || h0.memhw.training || (h0.start.warm && !h0.start.retrain) || !starting h0 then h0
  else
    let h := advanceTo h0 (h0.start.t0 + 120 * ms)
    let units := tierUnits h true ++ tierUnits h false
    let warm := cacheOk && units.all (fun k => (chanAt h k).cached)
    let h1 := units.foldl (fun h k => setChan h k { chanAt h k with path := if warm then .warm else .cold, step := 0, done := false,
                                                                    failed := false }) h
    { h1 with memhw := { h1.memhw with training := true, kGib := 0, farDev := none } }

/-- The step that follows another on a path. -/
def nextStep (p : TrainPath) (s : Nat) : Nat :=
  match p with
  | .warm => if s = 4 then 10 else s + 1
  | _ => if s = 2 ∨ s = 3 ∨ s = 4 then 5 else s + 1

/-- A stack or channel fails training (R317, R322): recorded, no scope fenced; its cached parameters no longer hold. -/
def trainFail (h : Hw) (k n : Nat) : Hw :=
  recordWrite (setChan h k { chanAt h k with failed := true, failStep := n, cached := false })
    { type := 0x0401, cls := 4, part := 0xFF, arg0 := if k < 16 then 2 else 3, arg1 := trainArg k, arg2 := n }

/-- The capacity of a far-tier channel in GiB (R311). -/
def farGib (d : MemDevice) : Nat := d.ranks * (if d.byteMode then 2 else 1) * d.gbit / 8

/-- Whether a device is one that R309 or R310 uses: a 12-high stack of 36 GiB, so of 24 Gb dies; or dies of 16 Gb or 32 Gb in 1 or 2 ranks. -/
def deviceOk (far : Bool) (d : MemDevice) : Bool :=
  if far then decide ((d.gbit = 16 ∨ d.gbit = 32) ∧ (d.ranks = 1 ∨ d.ranks = 2)) else decide (d.ranks = 12 ∧ d.ranks * d.gbit / 8 = 36)

/-- Whether two far-tier channels are populated alike (R311): part, die width, rank count and density. -/
def alike (a b : MemDevice) : Bool := decide (a.part = b.part ∧ a.byteMode = b.byteMode ∧ a.ranks = b.ranks ∧ a.gbit = b.gbit)

/-- A lane as a repair candidate (R328): of a stack's pseudo-channel, or of a far-tier channel. -/
def laneCand (k chan l : Nat) : Candidate :=
  if k < 16 then { lane := true, tier := 2, unit := k, channel := chan, laneNo := l }
  else { lane := true, tier := 3, unit := (k - 16) / 64, channel := (k - 16) % 64, laneNo := l }

/-- TRAINING_STEP (R315 to R317): a stack or channel ends its next step; `ok` says whether its check passed, and step 2 reads the device
(R309 to R311). A lane found below the minimum margins is a repair candidate (R328) and fails the step. A warm step 4 that fails continues
with the cold steps. -/
def trainStep (h0 : Hw) (k : Nat) (ok : Bool) (found : StepFound) : Hw :=
  let c := chanAt h0 k
  let far := decide (k ≥ 16)
  if !h0.memhw.training || c.done || c.failed || pkgFenced h0 || !(decide (k ∈ tierUnits h0 (!far))) then h0
  else
    let h := found.lanes.foldl (fun h l => addCandidate h (laneCand k l.1 l.2)) h0
    let n := nextStep c.path c.step
    let bad := !ok || !found.lanes.isEmpty
    if n = 2 then
      let odd := !deviceOk far found.dev || (far && !(h.memhw.farDev.all (alike found.dev)))
      if bad || odd then trainFail h k 2
      else
        let h1 := setChan h k { c with step := 2, dev := found.dev }
        if far then { h1 with memhw := { h1.memhw with kGib := farGib found.dev, farDev := some found.dev } } else h1
    else if n = 4 ∧ bad then
      recordWrite (setChan h k { c with path := .cold, step := 4 })
        { type := 0x0402, cls := 0, part := 0xFF, arg0 := if far then 3 else 2, arg1 := trainArg k, arg2 := 4 }
    else if bad ∧ (n = 10 ∨ (6 ≤ n ∧ n ≤ 9) ∨ (n = 5 ∧ far)) then trainFail h k n
    else setChan h k { c with step := n, done := decide (n = 10) }

/-- When a tier opens at the latest, in ms from tT (Tables 10.4 and 10.5, R316). -/
def tierMs (near : Bool) (cs : List Channel) : Nat :=
  if cs.all (fun c => decide (c.path = TrainPath.warm)) then (if near then 180 else 280)
  else if cs.any (fun c => decide (c.path = TrainPath.warm)) then (if near then 980 else 1880)
  else (if near then 950 else 1615)

/-- TIER_OPENED (step 11): every stack or channel has trained; new parameters are cached (R158); YG_FARCAP becomes valid. -/
def tierOpened (h : Hw) (near : Bool) : Hw :=
  let ks := tierUnits h near
  let cs := ks.map (chanAt h)
  if !h.memhw.training || (if near then h.memhw.nearOpen else h.memhw.farOpen) || cs.any (fun c => !c.done || c.failed) || pkgFenced h then h
  else
    let h1 := advanceTo h (h.start.t0 + (120 + tierMs near cs) * ms)
    let h2 := ks.foldl (fun h k => setChan h k { chanAt h k with cached := true, step := 11 }) h1
    if near then { h2 with memhw := { h2.memhw with nearOpen := true } }
    else { h2 with memhw := { h2.memhw with farOpen := true },
                   ident := { h2.ident with c0Gib := 64 * h2.memhw.kGib, c1Gib := 64 * h2.memhw.kGib } }

/-! ### Boot resources, cores, READY -/

/-- The Steward boot image as far as it was written with FW_WRITE is loaded from its slot into the lowest swatches of region 0 (R157). -/
def loadImage (hm : HM) : HM :=
  let base := 0x2040000 + hm.1.edges.bootAct * 0x2000000
  (hm.1.edges.flash.filter (fun e => decide (base ≤ e.1) && decide (e.1 < base + 0x2000000))).foldl (fun hm e =>
    match e.2 with
    | some b => cohWrite hm (e.1 - base) [b]
    | none => hm) hm

/-- Whether any far-tier channel has failed training: no cores are released, and READY is still reached (R321). -/
def farFailed (h : Hw) : Bool := (tierUnits h false).any (fun k => (chanAt h k).failed)

/-- Whether any stack or channel trained cold: then Table 5.3's cold times hold (R159). -/
def trainedCold (h : Hw) : Bool := (tierUnits h true ++ tierUnits h false).any (fun k => decide ((chanAt h k).path = TrainPath.cold))

/-- BOOT_RESOURCES (R157, R270): way 15 of slot 0, cluster 0, the ferry group of C0, its slips 0 to 31, and 512 far-tier swatches scrubbed
by ZERO, once both tiers have trained (Tables 5.1, 5.3); the boot image is loaded and its boot vector taken. -/
def bootResources (hm : HM) (vector : Nat) : HM :=
  let h := hm.1
  if !starting h || h.start.boot || !h.memhw.farOpen || !tierDone h true || !h.start.checked || !h.start.fwOk then hm
  else
    let h1 := { h with coh := { h.coh with wayOwner := tabPut 0 h.coh.wayOwner 15 1 } }
    let h2 := setUnit (setUnit h1 2 0 { owner := 0, state := .owned }) 4 32 { owner := 0, state := .owned }
    let h3 := (List.range 32).foldl (fun h i => setUnit h 5 (960 + i) { owner := 0, state := .owned }) h2
    let o := beginScrub (setPart h3 0 { partAt h3 0 with resetVec := vector }) 1 (List.range 512) 0xFF 1 (some 0) false
    let due := if h.start.warm then h.tb.now else h.start.t0 + (if trainedCold h then 2030 else 430) * ms
    let hm1 := endScrub (advanceTo o.2 due, hm.2) o.1 none
    loadImage ({ hm1.1 with start := { hm1.1.start with boot := true } }, hm1.2)

/-- CORES_RELEASED (R187): partition 0's harts start at the boot vector. -/
def coresReleased (h : Hw) : Hw :=
  if starting h && h.start.boot && !h.start.released && !pkgFenced h then
    startCluster { h with start := { h.start with released := true } } 0
  else h

/-- Whether the main domain can write records of the keep-alive domain: management runs (R671, R679). -/
def mainWrites (h : Hw) : Bool := h.efano.ready && !decide (h.start.st = PowerSt.off ∨ h.start.st = PowerSt.dormant)

/-- The keep-alive domain's pending records are written once the main domain can (R671, R679). -/
def flushKeep (h : Hw) : Hw :=
  if !mainWrites h then h
  else
    let h1 := match h.keep.cleared with
      | some n => recordWrite { h with keep := { h.keep with cleared := none } } { type := 0x0A09, cls := 0, part := 0xFF, arg0 := n }
      | none => h
    if h1.keep.cellRec = 0 then h1
    else recordWrite { h1 with keep := { h1.keep with cellRec := 0 } } { type := 0x0A0A, cls := 0, part := 0xFF, arg0 := h1.keep.cellRec }

/-- READY is set in every mailbox and each mailbox's interrupt raised (R151). -/
def setReady (h : Hw) : Hw :=
  let h1 := { h with efano := { h.efano with ready := true, mr := none, mrFails := 0 }, start := { h.start with bgScrub := true } }
  flushKeep (allMbx.foldl (fun h m => match m with
    | .keeper => h
    | m => if mbxReady h m then raise h (actsFor m) (boxAt h m).irq else h) h1)

/-- The training path a wake report names after a CP. -/
def trainingCode (h : Hw) : Nat := if trainedCold h then 2 else 1

/-- Tamper bits that are latched: the lowest input. -/
def lowestBit (n : Nat) : Nat := ((List.range 4).find? (bitOf n)).getD 0

/-- The end of start-up after CP or WP: the fence lamp goes dark (R681), the report is written (R181), and a latched tamper input fences
the package at once (R598, R678). -/
def endStartup (h : Hw) : Hw :=
  let h1 := if pkgFenced h then h else { h with keep := { h.keep with lamp := false } }
  let h2 := writeReport (setReady h1) h1.start.fromCode h1.start.cause h1.start.entryTb (if h1.start.fromCode = 1 then trainingCode h1 else 0)
  let known := h2.faults.fences.any (fun f => decide (f.scope = Scope.package) && f.causes.any (fun c => decide (c.type = 0x0804)))
  if h2.keep.latch = 0 ∨ known then h2
  else causeOfDoubt h2 .package 0 0 0xFF { type := 0x0804, arg0 := lowestBit h2.keep.latch }

/-- READY (R151, R321): after CP or WP once the cores are released or the far tier has failed; after an MR once every committed command
found unfinished has completed and the views agree. -/
def readyRow (h : Hw) : Hw :=
  if h.efano.ready || h.start.wp.isSome || !h.start.checked || !h.start.fwOk then h
  else match h.efano.mr with
  | some _ =>
    if journalOpen h || !h.efano.agreed then h
    else if h.start.released || farFailed h then setReady h else h
  | none => if (h.start.released || farFailed h) && tierDone h true then endStartup h else h

/-- OWN_JOIN_SENT (t0 + 250 ms): join frames are accepted from now on, and a JOIN is sent at each port with carrier. -/
def ownJoin (h : Hw) : Hw :=
  if h.arch.running && !h.start.ownJoin && decide (h.start.st = PowerSt.active) then
    let h1 := advanceTo h (h.start.t0 + 250 * ms)
    let h2 := { h1 with arch := { h1.arch with joinOk := true }, start := { h1.start with ownJoin := true } }
    let h3 := if h2.arch.east.carrier then toNeighbour h2 0x02 0 [] else h2
    if h3.arch.west.carrier then toNeighbour h3 0x02 1 [] else h3
  else h

/-- Whether Idurrum ports may train (R604): t0 + 600 ms has passed and a causeway port is joined. -/
def mayTrain (h : Hw) : Bool := decide (h.tb.now ≥ h.start.t0 + 600 * ms) && (h.arch.east.joined || h.arch.west.joined)

/-- IDURRUM_TRAINING_BEGINS (R604): ports that LINK_CONTROL has not disabled leave DISABLED. -/
def linksTrain (h0 : Hw) : Hw :=
  let h := advanceTo h0 (h0.start.t0 + 600 * ms)
  if !(h0.arch.east.joined || h0.arch.west.joined) || h0.start.st ≠ PowerSt.active then h0
  else
    let go (n : Nat) (l : Link) : Link :=
      if l.st = LinkSt.disabled ∧ l.off = false ∧ unitFencedOwn h 12 n = false then { l with st := .training, since := h.tb.now } else l
    let links := (List.range (portCount h)).foldl (fun t n => tabMod {} t n (go n)) h.arch.links
    { h with arch := { h.arch with links := links } }

/-! ### Management restart (R148 to R152) -/

/-- MR_FAIL (R152): an MR has not reached READY within 500 ms; another begins, and the third failure in a row fences the package. -/
def mrFail (h : Hw) : Hw :=
  match h.efano.mr with
  | some t =>
    let h1 := restartMgmt (advanceTo h (t + 500 * ms))
    let n := h1.efano.mrFails + 1
    let h2 := { h1 with efano := { h1.efano with mrFails := n } }
    if n = 3 then mrDoubt h2 else h2
  | none => h

/-! ### Cold and warm reset, Off -/

/-- CP (R154, R160): causes 1 power applied, 2 PKG_RST_N, 3 leaving Off; the last two differ only in what Table 5.9 shows. A package that
is Off or Dormant wakes into it. -/
def coldReset (hm : HM) (cause : Nat) : HM := if cause ∈ [1, 2, 3] then (coldStart hm.1 cause, []) else hm

/-- WP (R163): a CP or WP in course, which lasts until READY, absorbs it (R169), unless a package fence has stopped its training: then the WP
is the recovery (chapter 10, When things fall together). -/
def warmReset (hm : HM) (cause : Nat) : HM :=
  if (resetting hm.1 && !trainCut hm.1) || decide (cause = 0) || decide (cause > 4) || decide (hm.1.start.st = PowerSt.off) then hm
  else (wpBegin hm.1 cause, hm.2)

/-- The cause of a WP that PKG_RESET starts (Table 5.9): recovery of a fence where the package is Fenced. -/
def resetCause (h : Hw) (m : Mbx) : Nat := if pkgFenced h then 3 else if m = Mbx.keeper then 2 else 1

/-- The package enters Off (R170, R179, R688): nothing outside the keep-alive domain is kept. -/
def powerOff (hm : HM) : HM :=
  let h1 := coldStart hm.1 1
  ({ h1 with start := { h1.start with st := .off, since := h1.tb.now } }, [])

/-! ### Idle and Drowse (R170 to R172) -/

/-- Whether any engine has work: a slip holds unfetched entries, or a ferry or loom works (Table 5.7). -/
def enginesBusy (h : Hw) : Bool :=
  !h.weaves.runs.isEmpty || h.eng.slips.any (fun e => decide (e.2.tail ≠ e.2.head) ||
    e.2.descs.any (fun d => inFlight d || decide (d.phase = Phase.fetched ∨ d.phase = Phase.staged ∨ d.phase = Phase.walking)))

/-- IDLE_ENTRY: every hart that runs is in WFI, no engine works, for IDLE_DELAY. DESIGN CHOICE (log entry 87): Table 5.7 does not say whether
Idle may be entered before READY; here it may not. -/
def idleEntry (h : Hw) (wfi : Bool) : Hw :=
  if h.start.st = PowerSt.active ∧ h.efano.ready = true ∧ enginesBusy h = false ∧
      (wfi ∨ (List.range 128).all (fun n => decide ((hartAt h n).run ≠ HartRun.running))) then
    let h1 := loopDefaults (advanceTo (noteThrottle h) (h.tb.now + h.start.idleUs * 1000))
    { h1 with start := { h1.start with st := .idle, since := h1.tb.now } }
  else h

/-- Replacement state returns to its defaults (Table 5.8, R257): the tree bits of directories and the ages of front-end caches. -/
def clearReplacement (h : Hw) : Hw :=
  { h with coh := { h.coh with dirSets := tabMap {} h.coh.dirSets (fun _ c => { c with plru := 0 }),
                               caches := tabMap {} h.coh.caches (fun _ c => { c with plru := 0, ages := [0, 1, 2, 3] }) } }

/-- Core caches and shelf caches are written back and dropped; mode registers return to their reset values (R172, Table 5.8). -/
def dropForSleep (h : Hw) : Hw :=
  let h1 := (List.range 16).foldl (fun h c => emptyCluster h c true) h
  let h2 := clearReplacement ((List.range 32).foldl emptyShelf h1)
  loopDefaults { noteThrottle h2 with weaves := { h2.weaves with looms := tabMap {} h2.weaves.looms (fun _ l => { l with mode := 0, cfg := 0 }), fmode := [] } }

/-- Whether a mailbox holds a response that has not been acknowledged (R731). -/
def unacked (h : Hw) : Bool := allMbx.any (fun m => let x := boxAt h m; x.valid || !x.queue.isEmpty)

/-- DROWSE_ENTRY (R172, R731): Idle has lasted DROWSE_DELAY with Drowse enabled, or POWER_STATE_SET asks; the entry POWER_STATE_SET asks
for waits until no engine works (log entry 64, DESIGN CHOICE). -/
def drowseEntry (h : Hw) : Hw :=
  let asked := h.start.drowseReq && !unacked h
  let idle := decide (h.start.st = PowerSt.idle) && h.start.drowseOn
  if !(decide (h.start.st = PowerSt.active ∨ h.start.st = PowerSt.idle)) || !(asked || idle) || enginesBusy h then h
  else
    let h1 := if asked then h else advanceTo h (h.start.since + h.start.drowseMs * ms)
    let h2 := dropForSleep h1
    { h2 with start := { h2.start with st := .drowse, since := h2.tb.now, entryTb := h2.tb.now, drowseReq := false } }

/-! ### Dormant (R173 to R178) -/

/-- Whether any resource is SCRUBBING or HELD. -/
def anyHeld (h : Hw) : Bool :=
  decide (h.sel.base = SwState.scrubbing) ||
  h.sel.swatches.any (fun e => decide (e.2.state = SwState.scrubbing ∨ e.2.state = SwState.held)) ||
  h.sel.units.any (fun e => decide (e.2.state = UnitState.scrubbing ∨ e.2.state = UnitState.held))

/-- What R173 refuses a Dormant request for. -/
def dormantBad (h : Hw) : Bool :=
  let save := (List.range h.start.saveN).map (h.start.saveAt / 2 ^ 21 + ·)
  h.ident.admitted || h.ident.bench || decide (h.start.saveN < 32) ||
  !(save.all (fun k => decide (regionOf (k * 2 ^ 21) = 0) && decide ((swGet h k).owner = 0))) || anyHeld h

/-- Work in flight that must complete before the image is written (R177); a dispatched descriptor that waits at a knot, pool or ledger is
counted with it (log entry 66, DESIGN CHOICE). -/
def workLeft (h : Hw) : Bool := !h.weaves.runs.isEmpty || h.eng.slips.any (fun e => e.2.descs.any inFlight)

/-- A slip as Dormant saves it (R177): descriptors that are staged and not dispatched are discarded, and fetching will restart at the
first descriptor that had not completed. -/
def sleepSlip (x : Slip) : Slip := { x with descs := [], head := if x.st = SlipSt.disabled then x.head else x.done }

/-- The swatches the Dormant image takes: its 48 MiB at most, from the start of the save area (R174). -/
def imageSwatches (h : Hw) : List Nat := (List.range (min 24 h.start.saveN)).map (h.start.saveAt / 2 ^ 21 + ·)

/-- The sealed image stands in the save area: the bytes of those swatches are free values, which show nothing of what it holds (R174,
R175; log entry 65). -/
def writeImage (h : Hw) (n : Nat) : Hw :=
  (imageSwatches h).foldl (fun h k =>
    let mine (l : Nat) : Bool := decide (l / 32768 = k)
    let h1 := setSwatch h k { swGet h k with fresh := true, keyed := false, lost := n }
    { h1 with sel := { h1.sel with written := tabClear h1.sel.written mine },
              coh := { h1.coh with unknown := tabClear h1.coh.unknown mine, poison := tabClear h1.coh.poison mine } }) h

/-- DORMANT_ENTRY (R174 to R177): the image is written, sealed and read back; then the islands are gated. Fields of class S stay as the
image holds them, fields of class L and D are lost. -/
def dormantEntry (h : Hw) : Hw :=
  if !h.start.dormReq || decide (h.start.st = PowerSt.dormant ∨ h.start.st = PowerSt.off) || workLeft h then h
  else if anyHeld h then
    endWaits { h with start := { h.start with dormReq := false } } (fun r => decide (r.wait = Wait.dormant)) 0x20 0
  else
    let h1 := dropForSleep h
    let h2 := (List.range 128).foldl dropBobbins (writeImage { h1 with free := h1.free + 1 } (h1.free + 1))
    let n := h2.free + 1
    let gone (k : Nat) : Bool := decide (regionOf (k * 2 ^ 21) = 2)
    let sw := tabMap (swBase h2) h2.sel.swatches (fun k s => if gone k ∧ s.state = SwState.owned then { s with fresh := true, lost := n } else s)
    let sel := { h2.sel with swatches := sw, written := tabClear h2.sel.written (fun l => gone (l / 32768)) }
    let eng := { h2.eng with slips := tabMap {} h2.eng.slips (fun _ x => sleepSlip x), fetchArb := [], dispArb := [], fronts := [], leaves := [] }
    let edges := { h2.edges with ports := tabMap {} h2.edges.ports (fun _ x => { x with up := false, training := false }),
                                 funcs := tabMap {} h2.edges.funcs (fun _ f => { f with tdisp := .unlocked, ide := 0, stream := 0, bars := [] }) }
    let coh := { h2.coh with caches := [], poison := tabClear h2.coh.poison (fun l => gone (l / 32768)),
                             swPoison := tabClear h2.coh.swPoison gone }
    { h2 with sel := sel, eng := eng, edges := edges, coh := coh, free := n, memhw := setSelfRefresh h2.memhw true,
              arch := { h2.arch with links := [] }, harts := tabMap {} h2.harts (fun _ x => { x with hpm := [] }),
              start := { h2.start with st := .dormant, since := h2.tb.now, entryTb := h.tb.now, image := some h2.keep.sealKey, dormReq := false } }

/-- The byte memory after Dormant entry: the cells of shelf scratch go with the power (Table 5.8, L), and the image has been written over
the start of the save area (R174). -/
def dormantBytes (h : Hw) (m : Memory) : Memory :=
  tabClear m (fun a => decide (regionOf a = 2) || decide (a / 2 ^ 21 ∈ imageSwatches h))

/-- Retraining of the open tiers at a wake (R318): a stack or channel that passes steps 1 to 3 and the re-centring stands as after warm
training; each that fails is recorded and its tier is no longer open (R320 to R322). -/
def wakeTrain (h : Hw) (fails : List (Nat × Nat)) : Hw :=
  let step (near : Bool) (h : Hw) : Hw :=
    let ks := tierUnits h near
    let bad := fails.filter (fun f => decide (f.1 ∈ ks ∧ f.2 ∈ [1, 2, 3, 10]))
    if !(if near then h.memhw.nearOpen else h.memhw.farOpen) then h
    else
      let h1 := bad.foldl (fun h f => trainFail h f.1 f.2) (ks.foldl (fun h k => setChan h k { chanAt h k with path := .warm, step := 11 }) h)
      if bad.isEmpty then h1
      else if near then { h1 with memhw := { h1.memhw with nearOpen := false } }
      else { h1 with memhw := { h1.memhw with farOpen := false }, ident := { h1.ident with c0Gib := 0, c1Gib := 0 } }
  step false (step true h)

/-- DORMANT_EXIT (R178, R181, R318): the memories leave self-refresh and retrain, and the image is unsealed; under another sealing key than
the one it was sealed with it never verifies. Where it does not, or a tier has closed (chapter 10, When things fall together), a WP with
cause IMAGE_LOST follows. Traffic does not end Dormant (Table 5.7). -/
def dormantExit (h : Hw) (by_ : WakeBy) (w : WakeTrain) : Hw :=
  if h.start.st ≠ PowerSt.dormant ∨ by_ = WakeBy.traffic then h
  else
    let h0 := wakeTrain { h with memhw := setSelfRefresh h.memhw (pkgFenced h) } w.fails
    if w.image ∧ h0.memhw.nearOpen = h.memhw.nearOpen ∧ h0.memhw.farOpen = h.memhw.farOpen ∧ h.start.image = some h.keep.sealKey then
      let h1 := retrainPorts { h0 with ecc := { h0.ecc with buckets := tabMap {} h0.ecc.buckets (fun _ b => { b with count := 0 }) },
                                       start := { h0.start with st := .active, since := h0.tb.now, image := none } } (fun _ => true)
      let h2 := writeReport h1 4 (wakeCode by_) h1.start.entryTb 1
      endWaits (setReady h2) (fun r => decide (r.wait = Wait.dormant)) 0 0
    else wpBegin { h0 with start := { h0.start with st := .active, image := none } } 4

/-! ### Group 0x0E (Table 24.13) -/

/-- PART_RESET (R167, R595, R727): a tenant's own PR closes its session. -/
def partResetCmd (m : Mbx) (hm : HM) (r : Req) : HM × Reply :=
  let p := leAt r.payload 0 1
  match partCheck hm.1 m p with
  | some e => (hm, deny e.1 e.2)
  | none =>
    let pend := hm.1.faults.fences.any (fun f => decide (f.scope = Scope.partition ∧ f.part = p) && stillPending f (fun c => decide (c.type = 0x0505)))
    let run (hm : HM) : HM := (partReset (liftFences hm.1 (fun f => decide (f.scope = Scope.partition ∧ f.part = p)) 0x0E01) p, hm.2)
    if pend then (hm, deny 0x20 0x110)
    else match m with
      | .part _ => (hm, { commit := true, closes := true, after := run })
      | _ => (run hm, doneC)

/-- A reset of a slip waits for its writes to be performed at other packages, in course of the one command (R168, R221). -/
def slipPerformed (h : Hw) (s : Nat) : Hw :=
  { h with arch := { h.arch with writes := h.arch.writes.filter (fun w => match w.by_ with | .slip t _ => decide (t ≠ s) | _ => true) } }

/-- UR of a slip: what it holds completes HALTED, and the records are written before its registers are cleared (R168). -/
def haltHeld (hm : HM) (s : Nat) : HM :=
  let h := resetDescs hm.1 s (fun _ => true)
  iter (fun hm => completeNext (slipPerformed hm.1 s, hm.2) s) (3 * (slipAt h s).descs.length) (h, hm.2)

/-- UNIT_RESET (R168, R595). -/
def unitResetCmd (hm : HM) (r : Req) : HM × Reply :=
  let h := hm.1
  let kind := leAt r.payload 0 1
  let idx := leAt r.payload 4 4
  if partFenced h (unitPart h kind idx) then (hm, deny 0x60 0)
  else if kind ∉ [2, 3, 4, 5, 10, 11, 12] then (hm, deny 0x20 0x100)
  else if idx ≥ unitCount kind then (hm, deny 0x20 0x100)
  else if (unitAt h kind idx).state = UnitState.scrubbing ∧ (unitAt h kind idx).failed = false then (hm, deny 0x11 0)
  else if h.faults.fences.any (fun f => decide (f.scope = Scope.unit ∧ f.kind = kind ∧ f.unit = idx) && stillPending f urClears) then (hm, deny 0x20 0x110)
  else
    let h1 := match unitIsland kind idx with
      | some i => wakeWhole h i
      | none => h
    let hm1 := if kind = 4 then releaseTaken (h1, hm.2) idx
        (fun d => decide (d.phase = Phase.dispatched ∨ d.phase = Phase.waiting ∨ d.phase = Phase.walking)) else (h1, hm.2)
    let hm2 := if kind = 5 then haltHeld hm1 idx else hm1
    ((unitReset (liftUnit hm2.1 kind idx 0x0E02) kind idx, hm2.2), doneC)

/-- MGMT_RESTART (R148, R727). -/
def mgmtRestart (hm : HM) (_ : Req) : HM × Reply := (hm, { commit := true, closes := true, after := fun hm => (mrBegin hm.1, hm.2) })

/-- PKG_RESET (R163, R727). -/
def pkgReset (m : Mbx) (hm : HM) (_ : Req) : HM × Reply :=
  (hm, { commit := true, closes := true, after := fun hm => warmReset hm (resetCause hm.1 m) })

/-- POWER_STATE_SET (R173, R731). -/
def powerStateSet (hm : HM) (r : Req) : HM × Reply :=
  let h := hm.1
  match leAt r.payload 0 1 with
  | 2 => (({ h with start := { h.start with drowseReq := true } }, hm.2), doneC)
  | 3 =>
    if dormantBad h then (hm, deny 0x20 0)
    else (({ h with start := { h.start with dormReq := true } }, hm.2), { commit := true, wait := .dormant })
  | _ => (hm, { commit := true, closes := true, after := powerOff })

/-- ACCEPTED is posted as soon as a request for Dormant has been accepted (R731). -/
def acceptDormant (hm : HM) (m : Mbx) (tag : Nat) : HM :=
  match findReq (boxAt hm.1 m) tag with
  | some r =>
    if r.begun && !r.ended && !r.interim && decide (r.wait = Wait.dormant) then
      (sendResp (setBox hm.1 m (setReq (boxAt hm.1 m) { r with interim := true })) m r 1 0 [] false, hm.2)
    else hm
  | none => hm

/-- POWER_STATE_CONFIG (R171). -/
def powerStateConfig (hm : HM) (r : Req) : HM × Reply :=
  let h := hm.1
  let b := r.payload
  let us := leAt b 0 4
  let dm := leAt b 4 2
  let n := leAt b 8 4
  let a := leAt b 16 8
  if us < 10 ∨ us > 10000 ∨ dm = 0 ∨ dm > 1000 ∨ a % 2 ^ 21 ≠ 0 then (hm, deny 0x20 0)
  else if !((List.range n).all (fun i => let k := a / 2 ^ 21 + i; decide (regionOf (k * 2 ^ 21) = 0) && decide ((swGet h k).owner = 0))) then
    (hm, deny 0x21 0)
  else
    let s : Startup := { h.start with idleUs := us, drowseMs := dm, drowseOn := bitOf (leAt b 6 1) 0, saveN := n, saveAt := a }
    (({ h with start := s }, hm.2), doneC)

/-- WAKE_REPORT_GET (R182). -/
def wakeReportGet (hm : HM) (_ : Req) : HM × Reply :=
  (hm, doneQ (if hm.1.start.report.isEmpty then zeros 128 else hm.1.start.report))

/-- KEEPALIVE_ACK (R162). -/
def keepaliveAck (hm : HM) (_ : Req) : HM × Reply := (({ hm.1 with keep := { hm.1.keep with kaLost := false } }, hm.2), doneC)

/-- TRAINING_CACHE_CLEAR (R158): the next training is cold. -/
def cacheClear (hm : HM) (_ : Req) : HM × Reply :=
  let h := hm.1
  (((tierUnits h true ++ tierUnits h false).foldl (fun h k => setChan h k { chanAt h k with cached := false }) h, hm.2), doneC)

/-! ### The rows -/

/-- PART_RESET (R167). -/
def execPartReset (m : Mbx) (tag : Nat) (s : State) : Host.Outcome State Fault Refusal :=
  onAll s (fun hm => serve hm m tag 0x0E01 (partResetCmd m))

/-- UNIT_RESET (R168). -/
def execUnitReset (m : Mbx) (tag : Nat) (s : State) : Host.Outcome State Fault Refusal :=
  onAll s (fun hm => serve hm m tag 0x0E02 unitResetCmd)

/-- MGMT_RESTART (R148). -/
def execMgmtRestart (m : Mbx) (tag : Nat) (s : State) : Host.Outcome State Fault Refusal :=
  onAll s (fun hm => serve hm m tag 0x0E03 mgmtRestart)

/-- PKG_RESET (R163). -/
def execPkgReset (m : Mbx) (tag : Nat) (s : State) : Host.Outcome State Fault Refusal :=
  onAll s (fun hm => serve hm m tag 0x0E04 (pkgReset m))

/-- POWER_STATE_SET (R731). -/
def execPowerStateSet (m : Mbx) (tag : Nat) (s : State) : Host.Outcome State Fault Refusal :=
  onAll s (fun hm => acceptDormant (serve hm m tag 0x0E05 powerStateSet) m tag)

/-- POWER_STATE_CONFIG (R171). -/
def execPowerStateConfig (m : Mbx) (tag : Nat) (s : State) : Host.Outcome State Fault Refusal :=
  onAll s (fun hm => serve hm m tag 0x0E06 powerStateConfig)

/-- WAKE_REPORT_GET (R182). -/
def execWakeReportGet (m : Mbx) (tag : Nat) (s : State) : Host.Outcome State Fault Refusal :=
  onAll s (fun hm => serve hm m tag 0x0E07 wakeReportGet)

/-- KEEPALIVE_ACK (R162). -/
def execKeepaliveAck (m : Mbx) (tag : Nat) (s : State) : Host.Outcome State Fault Refusal :=
  onAll s (fun hm => serve hm m tag 0x0E08 keepaliveAck)

/-- TRAINING_CACHE_CLEAR (R158). -/
def execTrainingCacheClear (m : Mbx) (tag : Nat) (s : State) : Host.Outcome State Fault Refusal :=
  onAll s (fun hm => serve hm m tag 0x0E09 cacheClear)

/-- CP (R154): why it began (CAUSE of Table 5.9 for FROM 1). -/
def execCp (cause : Nat) (s : State) : Host.Outcome State Fault Refusal := onAll s (fun hm => coldReset hm cause)

/-- KEEP_ALIVE_CHECK (R686): the level of the ANCHOR strap at fuse load. -/
def execKeepAliveCheck (anchor : Bool) (s : State) : Host.Outcome State Fault Refusal := onHw s (fun h => keepAliveCheck h anchor)

/-- CAUSEWAY_ISLAND_RUNNING (R156). -/
def execCausewayIslandRunning (s : State) : Host.Outcome State Fault Refusal := onHw s causewayRuns

/-- ROOT_PORTS_CONFIGURED (R640): the port and pin tables of the signed image. -/
def execRootPortsConfigured (ports : List PortRow) (pins : List PinRow) (s : State) : Host.Outcome State Fault Refusal :=
  onHw s (fun h => rootPorts h ports pins)

/-- TRAINING_START (R315): whether the training cache verifies and matches (R158). -/
def execTrainingStart (cacheOk : Bool) (s : State) : Host.Outcome State Fault Refusal := onHw s (fun h => trainStart h cacheOk)

/-- TRAINING_STEP (R315): a stack by its flex site, a far-tier channel as 16 + 64 die + channel. -/
def execTrainingStep (unit : Nat) (ok : Bool) (found : StepFound) (s : State) : Host.Outcome State Fault Refusal :=
  onHw s (fun h => trainStep h unit ok found)

/-- TIER_OPENED (R315). -/
def execTierOpened (near : Bool) (s : State) : Host.Outcome State Fault Refusal := onHw s (fun h => tierOpened h near)

/-- BOOT_RESOURCES (R157): the boot vector of the signed image. -/
def execBootResources (vector : Nat) (s : State) : Host.Outcome State Fault Refusal := onAll s (fun hm => bootResources hm vector)

/-- CORES_RELEASED (R187). -/
def execCoresReleased (s : State) : Host.Outcome State Fault Refusal := onHw s coresReleased

/-- READY (R151). -/
def execReady (s : State) : Host.Outcome State Fault Refusal := onHw s readyRow

/-- OWN_JOIN_SENT (R156). -/
def execOwnJoinSent (s : State) : Host.Outcome State Fault Refusal := onHw s ownJoin

/-- IDURRUM_TRAINING_BEGINS (R604). -/
def execIdurrumTrainingBegins (s : State) : Host.Outcome State Fault Refusal := onHw s linksTrain

/-- WP (R163): why it began (CAUSE of Table 5.9 for FROM 2). -/
def execWp (cause : Nat) (s : State) : Host.Outcome State Fault Refusal := onAll s (fun hm => warmReset hm cause)

/-- WP_ZEROISED (R163). -/
def execWpZeroised (s : State) : Host.Outcome State Fault Refusal := onAll s wpZeroised

/-- MR (R148). -/
def execMr (s : State) : Host.Outcome State Fault Refusal := onHw s mrBegin

/-- LOCKSTEP_MISMATCH (R148): the two cores of the Cralu pair, locked together since fuse load (R62), disagree. -/
def execLockstepMismatch (s : State) : Host.Outcome State Fault Refusal := onHw s (fun h => if h.ident.pairLock then mrBegin h else h)

/-- CRALU_WATCHDOG (R148). -/
def execCraluWatchdog (s : State) : Host.Outcome State Fault Refusal := onHw s mrBegin

/-- MR_FAIL (R152). -/
def execMrFail (s : State) : Host.Outcome State Fault Refusal := onHw s mrFail

/-- KR (R161): the keep-alive domain is held in reset for 250 ms and restarts at its defaults. -/
def execKr (s : State) : Host.Outcome State Fault Refusal :=
  onHw s (fun h => if h.keep.powered then restartKeep h else h)

/-- IDLE_ENTRY (R170): whether every running hart is in WFI. -/
def execIdleEntry (wfi : Bool) (s : State) : Host.Outcome State Fault Refusal := onHw s (fun h => idleEntry h wfi)

/-- DROWSE_ENTRY (R172). -/
def execDrowseEntry (s : State) : Host.Outcome State Fault Refusal := onHw s drowseEntry

/-- DORMANT_ENTRY (R174). -/
def execDormantEntry (s : State) : Host.Outcome State Fault Refusal :=
  onAll s (fun hm => let h := dormantEntry hm.1
                     (h, if h.start.st = PowerSt.dormant ∧ hm.1.start.st ≠ PowerSt.dormant then dormantBytes h hm.2 else hm.2))

/-- EXIT_TRIGGER (R170). -/
def execExitTrigger (by_ : WakeBy) (s : State) : Host.Outcome State Fault Refusal := onHw s (fun h => exitTrigger h by_)

/-- DORMANT_EXIT (R178): what woke the package, and what retraining and the image show. -/
def execDormantExit (by_ : WakeBy) (wake : WakeTrain) (s : State) : Host.Outcome State Fault Refusal :=
  onHw s (fun h => dormantExit h by_ wake)

/-- PWR_GOOD_FALL (R688). -/
def execPwrGoodFall (s : State) : Host.Outcome State Fault Refusal := onAll s powerOff

end Sys2Proof.Machine
end

