-- ==== Sys2Proof/Machine/Archipelago.lean ====
section
/-! DEFINITION. The archipelago's operations (chapter 20): how a causeway frame is taken, forwarded and removed; membership, departure and
removal; roles; partition streams; route plans; snoops answered between packages. -/
namespace Sys2Proof.Machine

/-! ### Frames as they arrive (R603, R620 to R622) -/

/-- The way of a frame (R621): a broadcast, a directed frame with its destination, a neighbour frame. -/
inductive FrameWay where
  | broadcast
  | directed (dest : Nat)
  | neighbour
deriving DecidableEq, Repr

/-- A package that is not yet admitted, or is joining again under a membership fence (R634). -/
def outsider (h : Hw) : Bool := !h.ident.admitted || (memberFenced h && waitsFor h (fun w => decide (w = Wait.join)))

/-- The destination by which a directed frame names this package (R621): its Position ID, or its DEVICE_TAG while unadmitted. -/
def ownName (h : Hw) : Nat := if outsider h then Config.deviceTag.toNat else h.ident.position

/-- A causeway port: 0 EAST, others WEST. -/
def cwPort (h : Hw) (p : Nat) : CwPort := if p = 0 then h.arch.east else h.arch.west

/-- Replace a causeway port. -/
def setCwPort (h : Hw) (p : Nat) (x : CwPort) : Hw :=
  if p = 0 then { h with arch := { h.arch with east := x } } else { h with arch := { h.arch with west := x } }

/-- The other causeway port. -/
def otherPort (p : Nat) : Nat := if p = 0 then 1 else 0

/-- A frame goes on by the opposite port, its HOPS incremented (R621); an arc end drops what is bound out of its broken port (R623). -/
def forwardFrame (h : Hw) (c : Cw) (type : Nat) (w : FrameWay) (body : List Nat) : Hw :=
  let out := otherPort c.port
  if (cwPort h out).broken then h
  else
    let dest := match w with | .directed d => d | _ => 0
    let f : CwFrame := { type := type, ports := out + 1, resent := c.resent, origin := c.origin, hops := (c.hops + 1) % 256, seq := c.seq,
                         archId := c.archId, tag := c.tag, dest := dest, tb := c.tb, holdover := c.holdover, fenced := c.fenced,
                         unadmitted := c.unadmitted, body := body }
    let h1 := { h with arch := { h.arch with sent := h.arch.sent ++ [f] } }
    match w with
    | .directed _ => keepFrame h1 f
    | _ => h1

/-- Frames that may be exchanged before a port is joined: JOIN and JOIN_ANSWER (R622). -/
def joins (type : Nat) : Bool := decide (type = 2 ∨ type = 3)

/-- A membership cause of doubt of a type, entered once in the fence (R603, Table 20.10). -/
def memberDoubt (h : Hw) (kind unit type a0 a1 : Nat) : Hw :=
  if h.faults.fences.any (fun f => decide (f.scope = Scope.membership) && f.causes.any (fun c => decide (c.type = type))) then h
  else causeOfDoubt h .membership kind unit 0xFF { type := type, arg0 := a0, arg1 := a1 }

/-- Whether a frame carries another archipelago's ARCH_ID (R603). -/
def archConflict (h : Hw) (c : Cw) : Bool := h.ident.admitted && decide (c.archId ≠ 0 ∧ c.archId ≠ h.arch.archId)

/-- Whether another package's frame carries this package's Position ID (R603). -/
def positionClash (h : Hw) (c : Cw) : Bool := h.ident.admitted && !c.unadmitted && decide (c.origin = h.ident.position)

/-- Whether a frame is heard at all: the island runs, a frame of HOPS 0 comes from a joined port (R622), and it is not this package's own
copy on its return (R621). -/
def heard (h : Hw) (c : Cw) (type : Nat) : Bool :=
  h.arch.running && (decide (c.hops ≠ 0) || (cwPort h c.port).joined || joins type) && decide (c.tag ≠ Config.deviceTag.toNat)

/-- Whether a frame's origin and SEQ have been seen. -/
def seenBefore (h : Hw) (c : Cw) : Bool := decide ((c.tag, c.seq) ∈ h.arch.seen)

/-- The latest 1,024 frames seen are remembered. -/
def markSeen (h : Hw) (c : Cw) : Hw := { h with arch := { h.arch with seen := ((c.tag, c.seq) :: h.arch.seen).take 1024 } }

/-- What a frame tells of the ring: the last DEVICE_TAG seen across its port, how far east its origin lies where it travelled westward, and
that another archipelago is near (R599). -/
def noteFrame (h : Hw) (c : Cw) : Hw :=
  let h1 := if c.hops = 0 then setCwPort h c.port { cwPort h c.port with lastTag := c.tag } else h
  let h2 := if c.port = 0 ∧ c.unadmitted = false ∧ (memberAt h1 c.origin).tag = c.tag ∧ (memberAt h1 c.origin).st ≠ MemberSt.none then
      setMember h1 c.origin { memberAt h1 c.origin with ringEast := c.hops + 1 } else h1
  if !h.ident.admitted && decide (c.archId ≠ 0) then { h2 with arch := { h2.arch with foreign := some h2.tb.now } } else h2

/-- A frame arrives (R603, R620, R621, R623): dropped, removed, forwarded, and whether this package processes it. Before t0 + 250 ms a
neighbour's own frames change nothing, and its JOIN is answered (R155, R156); one directed to this package ends Idle or Drowse. -/
def recvFrame (h : Hw) (c : Cw) (type : Nat) (w : FrameWay) (body : List Nat) : Hw × Bool :=
  if !heard h c type then (h, false)
  else if w = FrameWay.neighbour ∧ h.arch.joinOk = false then (h, decide (type = 2))
  else if archConflict h c then (memberDoubt h 0 0 0x090C c.archId 0, false)
  else
    let h1 := noteFrame (if positionClash h c then memberDoubt h 0 0 0x090B c.tag 0 else h) c
    let again := seenBefore h c
    match w with
    | .neighbour => (h1, true)
    | .broadcast =>
      if again && c.resent then (h1, false)
      else (forwardFrame (markSeen h1 c) c type w body, !again && !positionClash h c)
    | .directed d =>
      if again && (c.resent || decide (d = ownName h)) then (h1, false)
      else if d = ownName h then (stir (markSeen h1 c), !positionClash h c)
      else (forwardFrame (markSeen h1 c) c type w body, false)

/-- What a package does with a frame it processes. -/
def onFrame (h : Hw) (c : Cw) (type : Nat) (w : FrameWay) (body : List Nat) (f : Hw → Hw) : Hw :=
  let r := recvFrame h c type w body
  if r.2 then f r.1 else r.1

/-- The same, with the byte memory. -/
def onFrameM (hm : HM) (c : Cw) (type : Nat) (w : FrameWay) (body : List Nat) (f : HM → HM) : HM :=
  let r := recvFrame hm.1 c type w body
  if r.2 then f (r.1, hm.2) else (r.1, hm.2)

/-- Whether a frame comes from a member of this package's archipelago. -/
def fromMember (h : Hw) (c : Cw) : Bool :=
  h.ident.admitted && !c.unadmitted && decide (c.archId = h.arch.archId) && decide ((memberAt h c.origin).st ≠ MemberSt.none)
  && decide ((memberAt h c.origin).tag = c.tag)

/-! ### Holdover for causeway reasons (R627) -/

/-- A member enters holdover; eight consecutive TIME frames are awaited afresh. -/
def causewayHold (h : Hw) : Hw :=
  let h1 := { h with arch := { h.arch with timeRun := 0 } }
  if h1.ident.admitted then enterHoldover { h1 with tb := { h1.tb with netHold := true } } else h1

/-- A TIME frame counts toward the eight that end holdover, where every break has been restored. -/
def countTime (h : Hw) : Hw :=
  let n := min 8 (h.arch.timeRun + 1)
  let h1 := { h with arch := { h.arch with timeRun := n } }
  if n ≥ 8 ∧ h1.arch.breaks.isEmpty ∧ h1.arch.east.broken = false ∧ h1.arch.west.broken = false then
    let h2 := { h1 with tb := { h1.tb with netHold := false } }
    if h2.tb.refLost then h2 else leaveHoldover h2
  else h1

/-! ### Roles (R631 to R633) -/

/-- The holder of TIME_SOURCE (0) or ADMITTER (1). -/
def roleHolder (h : Hw) (r : Nat) : Option Nat := if r = 0 then h.arch.timeSrc else h.arch.admitter

/-- A role passes; a change of holder is recorded (Table 20.11). -/
def setHolder (h : Hw) (r pos : Nat) : Hw :=
  if roleHolder h r = some pos then h
  else
    let a := if r = 0 then { h.arch with timeSrc := some pos, tickAt := h.tb.now } else { h.arch with admitter := some pos }
    recordWrite { h with arch := a } { type := 0x090D, arg0 := r, arg1 := pos }

/-- Whether this package holds a role. -/
def holdsRole (h : Hw) (r : Nat) : Bool := h.ident.admitted && !memberFenced h && decide (roleHolder h r = some h.ident.position)

/-- ROLES of this package: bit 0 TIME_SOURCE, bit 1 ADMITTER. -/
def ownRoles (h : Hw) : Nat := flag (holdsRole h 0) + 2 * flag (holdsRole h 1)

/-- Whether a member is present and not Fenced: this package itself, or one heard within 3 ms (R633). -/
def presentMember (h : Hw) (pos : Nat) : Bool :=
  if pos = h.ident.position then !memberFenced h && !pkgFenced h
  else
    let m := memberAt h pos
    decide (m.st = MemberSt.member ∨ m.st = MemberSt.departing) && decide (h.tb.now < m.lastSeen + 3000000)

/-- The member a role passes to (R633): the present, unfenced one with the lowest Position ID. -/
def successor (h : Hw) : Option Nat := (List.range 256).find? (presentMember h)

/-- Exchange LINK_STEWARD at this end of a link. -/
def swapSteward (h : Hw) (port : Nat) : Hw := setLink h port { linkAt h port with steward := !(linkAt h port).steward }

/-! ### Links and streams of members (R612, R616) -/

/-- Peers of this package's links in a state a test accepts. -/
def linkPeers (h : Hw) (p : LinkSt → Bool) : List Nat :=
  (((List.range (portCount h)).filter (fun n => p (linkAt h n).st)).map (fun n => (linkAt h n).peer)).eraseDups

/-- Position IDs reported as having a link to this package that is ACTIVE. -/
def ownUp (h : Hw) : List Nat := linkPeers h (fun s => decide (s = LinkSt.active))

/-- Position IDs with a link that is DOWN. -/
def ownDown (h : Hw) : List Nat := linkPeers h (fun s => decide (s = LinkSt.down))

/-- Sets bound on two or more members (R612). -/
def liveSets (h : Hw) : List Nat :=
  let own := (h.arch.sets.filter (fun e => e.2.used)).map (fun e => (h.ident.position, e.2.set))
  let all := (own ++ h.arch.others).eraseDups
  ((all.map (·.2)).eraseDups).filter (fun s => decide (2 ≤ (all.filter (fun e => decide (e.2 = s))).length))

/-- A stream for a set on one link, at the lowest free number (R612). -/
def addStream (l : Link) (set : Nat) : Link :=
  if (streamFor l set).isSome then l
  else match (List.range 256).find? (fun n => decide (n ≠ 0) && !(tabGet {} l.streams n).used) with
    | some n => { l with streams := tabPut {} l.streams n { used := true, set := set } }
    | none => l

/-- The streams of every ACTIVE link follow the bindings: those of sets no longer bound on two members are retired, new ones allocated
(R612, R613). -/
def syncStreams (h : Hw) : Hw :=
  let live := liveSets h
  let go (l : Link) : Link :=
    if l.st = LinkSt.active then
      let kept := { l with streams := tabMap {} l.streams (fun n s => if n = 0 ∨ s.set ∈ live then s else {}) }
      live.foldl addStream { kept with streams := tabMod {} kept.streams 0 (fun s => { s with used := true }) }
    else l
  { h with arch := { h.arch with links := tabMap {} h.arch.links (fun _ l => go l) } }

/-- The stream keys of this package's links to a member are retired and the links return to TRAINED (R637, R639). -/
def dropLinks (h : Hw) (p : Nat → Bool) : Hw :=
  let go (l : Link) : Link :=
    if p l.peer then
      let st := if l.st = LinkSt.active ∨ l.st = LinkSt.retraining then LinkSt.trained else l.st
      { l with st := st, key := 0, streams := [], replay := [] }
    else l
  { h with arch := { h.arch with links := tabMap {} h.arch.links (fun _ l => go l) } }

/-! ### Lines, proxies and knots shared with other members (R248, R493) -/

/-- Descriptors with knot operations outstanding at another package a test accepts complete with BROKEN (R493). -/
def breakRemote (h : Hw) (p : Nat → Nat → Bool) : Hw :=
  h.sync.remoteWaits.foldl (fun h w =>
    match findDesc (slipAt h w.1) w.2.1 with
    | some d =>
      if p w.1 (field (leAt d.bytes 0x10 4) 25 18) then
        endDesc { h with sync := { h.sync with remoteWaits := h.sync.remoteWaits.filter (fun x => x ≠ w) } } w.1 d 0x08 0
      else h
    | none => h) h

/-- Lines homed here that other packages hold and a test accepts. -/
def sharedLines (h : Hw) (p : Nat → Bool) : List Nat :=
  (h.coh.dir.filter (fun e => p e.1 && (!e.2.awaits.isEmpty || !(remoteHolders h e.2).isEmpty))).map (·.1)

/-- Recall such lines (R613, R637): each home snoops its holders to invalid and waits for their answers, collecting dirty data. -/
def recallLines (hm : HM) (p : Nat → Bool) : HM :=
  (sharedLines hm.1 p).foldl (fun hm l =>
    homeServe hm l { kind := .writePart, agent := .other, part := 31, act := { addr := l * 64, mask := 0 } }) hm

/-- The oldest request of a busy line goes on, all its snoops answered; a read that is still to be presented again finds the owner's data
at the home. -/
def resumeLine (hm : HM) (line : Nat) : HM :=
  let e := dirAt hm.1 line
  match e.queue with
  | q :: qs =>
    let once := decide (q.kind = ReqKind.readOnce ∧ q.agent = Agent.other)
    serveQueue (setDir hm.1 line { e with once := once, queue := { q with snooped := true } :: qs }, hm.2) line
  | [] => serveQueue hm line

/-- Whether a DAT is that of a write this home has granted (R237). -/
def awaitsDat (h : Hw) (m : Msg) : Bool :=
  ((dirAt h (lineOf (compactLocal (ofGlobal m.addr)))).queue.take 1).any (fun q =>
    decide (q.act.grant = 1 ∧ q.agent = Agent.remote m.src ∧ q.act.txn = m.txn))

/-- The DAT of a granted write comes to its receive space, and the write is performed (R237). -/
def writeDat (hm : HM) (m : Msg) : HM :=
  let line := lineOf (compactLocal (ofGlobal m.addr))
  let e := dirAt hm.1 line
  match e.queue with
  | q :: qs =>
    let q1 := { q with act := { q.act with grant := 2, bytes := m.payload.take 64, poison := m.poison } }
    serveQueue (setDir hm.1 line { e with queue := q1 :: qs }, hm.2) line
  | [] => hm

/-- A snooped package answers (R234, R238, Table 20.4): data of an owner is taken at the home, the holder's entry follows the snoop, and
once every answer has come the waiting request goes on. An owner that answers ERROR has lost its data (R249). -/
def snoopAnswer (hm : HM) (src : Nat) (m : Msg) : HM :=
  let a := compactLocal (ofGlobal m.addr) / 64 * 64
  let line := lineOf a
  let e := dirAt hm.1 line
  if src ∉ e.awaits then hm
  else
    let mine := decide (e.owner = some (Agent.remote src))
    let hm1 : HM :=
      if mine && decide (m.cls = MsgClass.dat) then
        let w := cohWrite hm a (m.payload.take 64)
        (if m.poison then markPoison w.1 a else w.1, w.2)
      else if mine && decide (m.op = 3) then (markPoison hm.1 a, hm.2)
      else hm
    let k := match e.queue with | q :: _ => (remoteSnoops hm.1 { e with awaits := [] } q).1 | [] => 2
    let e1 := dirAt hm1.1 line
    let e2 : DirEntry :=
      if k = 3 then e1
      else
        let e3 := { withoutAgent e1 (.remote src) with busy := true }
        if k = 1 ∧ (m.cls = MsgClass.dat ∨ m.op = 2) then addSharer { e3 with st := .s } (.remote src) else e3
    let e4 := { e2 with awaits := e2.awaits.filter (· ≠ src) }
    let hm2 : HM := (setDir hm1.1 line e4, hm1.2)
    if e4.awaits.isEmpty then resumeLine hm2 line else hm2

/-- A home forgets a package that is gone (R248): lines it held in state E are restored from the memory copy and, where it was lost, marked
poisoned; requests of it are dropped, and requests that waited for it go on. -/
def forgetHolder (hm : HM) (q : Nat) (lost : Bool) : HM :=
  let held := hm.1.coh.dir.filter (fun e => decide (q ∈ e.2.awaits ∨ q ∈ remoteHolders hm.1 e.2 ∨ e.2.owner = some (Agent.remote q))
    || e.2.queue.any (fun r => decide (r.agent = Agent.remote q)))
  held.foldl (fun hm x =>
    let e := dirAt hm.1 x.1
    let mine := decide (e.owner = some (Agent.remote q))
    let h1 := if lost && mine then markPoison hm.1 (x.1 * 64) else hm.1
    let e1 := { e with queue := e.queue.filter (fun r => decide (r.agent ≠ Agent.remote q)), awaits := e.awaits.filter (· ≠ q) }
    let e2 := withoutAgent e1 (.remote q)
    let hm1 : HM := (setDir h1 x.1 { e2 with busy := e.busy }, hm.2)
    let granted := (e.queue.take 1).any (fun r => decide (r.act.grant = 1 ∧ r.agent = Agent.remote q))
    if e.busy && e1.awaits.isEmpty && (granted || !e.awaits.isEmpty) then
      (if e.queue.length = e1.queue.length then resumeLine hm1 x.1 else serveQueue hm1 x.1)
    else hm1) hm

/-! ### Membership (R601, R602, R637 to R639) -/

/-- Whether a Position ID may be assigned (R602). -/
def idFree (h : Hw) (pos : Nat) : Bool := decide ((memberAt h pos).st = MemberSt.none) && !(h.arch.freeing.any (fun f => decide (f.1 = pos)))

/-- A membership frame has been applied: its SEQ is what PRESENCE reports. -/
def appliedFrame (h : Hw) (seq : Nat) : Hw := { h with arch := { h.arch with memSeq := seq } }

/-- A PRESENCE frame confirms that a member has applied the frames that free Position IDs (R602). -/
def confirmFreeing (h : Hw) (pos applied : Nat) : Hw :=
  let upd := h.arch.freeing.map (fun f =>
    if (applied + 65536 - f.2.1) % 65536 < 32768 ∧ pos ∉ f.2.2 then (f.1, f.2.1, f.2.2 ++ [pos]) else f)
  let due (f : Nat × Nat × List Nat) : Bool :=
    h.arch.members.any (fun e => decide (e.2.st ≠ MemberSt.none ∧ e.1 ≠ h.ident.position) && presentMember h e.1 && decide (e.1 ∉ f.2.2))
  { h with arch := { h.arch with freeing := upd.filter due } }

/-- The dirty lines that this package holds of a removed one are discarded and marked poisoned (R248). -/
def discardDirty (h : Hw) (q : Nat) : Hw :=
  (h.coh.proxies.filter (fun e => decide (e.1 / 2 ^ 42 % 256 = q) && e.2.dirty)).foldl (fun h e =>
    { h with coh := { h.coh with gone := tabPut false h.coh.gone e.1 true } }) h

/-- A member of the archipelago is gone (R637, R639): by departure, or by removal with its REASON. The frame that says so has a SEQ. The
first to arrive is applied; a second changes nothing. -/
def memberGone (hm : HM) (q seq : Nat) (reason : Option Nat) : HM :=
  let h := appliedFrame hm.1 seq
  if (memberAt h q).st = MemberSt.none then (h, hm.2)
  else
    let lost := reason.isSome
    let parts := (List.range 17)
    let mineOf (p : Nat) : List (Nat × Proxy) := h.coh.proxies.filter (fun e => decide (e.1 / 2 ^ 42 % 256 = q ∧ e.2.part = p))
    let heldOf (p : Nat) : Nat := (h.coh.dir.filter (fun e => decide (e.2.owner = some (Agent.remote q)) &&
      decide ((swatchAt h (e.1 * 64)).owner = p))).length
    let tag := (memberAt h q).tag
    let h1 := setMember h q {}
    let h2 := { h1 with arch := { h1.arch with freeing := h1.arch.freeing ++ [(q, seq, [])], breaks := h1.arch.breaks.filter (fun b => b.1 ≠ tag),
                                               others := h1.arch.others.filter (fun o => o.1 ≠ q),
                                               waiting := h1.arch.waiting.filter (fun o => o.msg.dst ≠ q),
                                               held := h1.arch.held.filter (fun o => o.msg.dst ≠ q),
                                               writes := h1.arch.writes.filter (fun w => w.dst ≠ q),
                                               snpHeld := h1.arch.snpHeld.filter (fun o => o.msg.src ≠ q) } }
    let h3 := breakCross h2 (fun n => bitOf (knotAt h2 n).members q)
    let h4 := breakRemote h3 (fun _ p => decide (p = q))
    let hm5 := forgetHolder (h4, hm.2) q lost
    let h6 := syncStreams (dropLinks (giveUpProxies (if lost then discardDirty hm5.1 q else hm5.1) (fun l _ => decide (l / 2 ^ 42 % 256 = q)) false) (fun p => decide (p = q)))
    let h7 := match reason with
      | some r =>
        parts.foldl (fun h' p =>
          let d := (mineOf p).length
          let x := ((mineOf p).filter (fun e => e.2.dirty)).length + heldOf p
          if d + x = 0 then h'
          else recordWrite h' { type := 0x0904, cls := 3, part := p, arg0 := q, arg1 := d, arg2 := x })
          (recordWrite h6 { type := 0x0903, cls := 5, arg0 := q, arg1 := r })
      | none => recordWrite h6 { type := 0x0902, cls := 5, arg0 := q }
    (endWaits h7 (fun r => decide (r.wait = Wait.depart q)) 0 0, hm5.2)

/-- The ADMITTER declares a member removed (R638). -/
def declareRemoved (hm : HM) (q reason : Nat) : HM :=
  if holdsRole hm.1 1 ∧ (memberAt hm.1 q).st ≠ MemberSt.none ∧ q ≠ hm.1.ident.position then
    memberGone (broadcast hm.1 0x0B [q, reason], hm.2) q hm.1.arch.seq (some reason)
  else hm

/-- This package's own membership has ended in order (R637 step 5): bindings, table and roles go, its links return to TRAINED, and it is
unadmitted and unsynced (R614, R624). -/
def leaveArch (h0 : Hw) : Hw :=
  let h := routeOut h0
  let pos := h.ident.position
  let h1 := recordWrite (broadcast h 0x0A [pos]) { type := 0x0902, cls := 5, arg0 := pos }
  let h2 := dropLinks h1 (fun _ => true)
  let a := { h2.arch with members := [], sets := [], others := [], archId := 0, timeSrc := none, admitter := none, freeing := [], plan := {},
                          prevPlan := none, nextPlan := none, rolePend := [], waiting := [], held := [], writes := [], snpHeld := [] }
  let h3 := { h2 with arch := a, ident := { h2.ident with position := 0, admitted := false }, tb := { h2.tb with unsynced := true } }
  endWaits (dropIns h3) (fun r => decide (r.wait = Wait.depart pos)) 0 0

/-- Departure goes on once every line homed here has been recalled (R637 step 3). -/
def departDone (h : Hw) : Hw :=
  if h.ident.admitted && decide ((memberAt h h.ident.position).st = MemberSt.departing) && (sharedLines h (fun _ => true)).isEmpty then leaveArch h
  else h

/-- This package departs (R637 steps 2 to 4). -/
def beginDepart (hm : HM) : HM :=
  let h := hm.1
  let pos := h.ident.position
  let h1 := broadcast (setMember h pos { memberAt h pos with st := .departing }) 0x09 [pos]
  let h2 := giveUpProxies h1 (fun _ _ => true) true
  let hm3 := recallLines (h2, hm.2) (fun _ => true)
  (departDone (breakRemote (breakCross hm3.1 (fun _ => true)) (fun _ _ => true)), hm3.2)

/-- A partition's binding to a set ends once its lines are recalled (R613); the package then holds a partition of no set and takes no part in
the power pool (R109, R563). -/
def unbindDone (h : Hw) (p set : Nat) : Hw :=
  if (sharedLines h (fun l => decide ((swatchAt h (l * 64)).owner = p))).isEmpty then
    let sets := tabMap {} h.arch.sets (fun _ b => if b.used ∧ b.part = p ∧ b.set = set then {} else b)
    let h1 := routeOut h
    let h2 := syncStreams (dropIns { h1 with arch := { h1.arch with sets := sets } })
    broadcast h2 0x12 [set, 0]
  else h

/-- Departures and unbindings that waited for recalls go on. -/
def recallsDone (h : Hw) : Hw :=
  let due := allMbx.flatMap (fun m => (boxAt h m).reqs.filterMap (fun r => match r.wait with
    | .unbind p s => if r.begun && !r.ended then some (p, s) else none
    | _ => none))
  let h1 := due.foldl (fun h d =>
    let h2 := unbindDone h d.1 d.2
    if h2.arch.sets.any (fun e => e.2.used && decide (e.2.part = d.1 ∧ e.2.set = d.2)) then h
    else endWaits h2 (fun r => decide (r.wait = Wait.unbind d.1 d.2)) 0 0) h
  departDone h1

/-! ### Route plans (R609, R610) -/

/-- The topology as the members' PRESENCE frames give it: pairs both of whose ends report the link. -/
def topology (h : Hw) : List (Nat × Nat) :=
  let up (n : Nat) : List Nat := if n = h.ident.position then ownUp h else (memberAt h n).upTo
  let ms := (List.range 256).filter (fun n => decide ((memberAt h n).st ≠ MemberSt.none))
  ms.flatMap (fun a => (ms.filter (fun b => decide (a < b) && decide (b ∈ up a) && decide (a ∈ up b))).map (fun b => (a, b)))

/-- The newest plan. -/
def latestPlan (h : Hw) : Plan := h.arch.nextPlan.getD h.arch.plan

/-- The ADMITTER publishes a new plan when the topology or the root has changed, at most one in 10 ms, to be activated 2 ms later (R609,
R610). -/
def issuePlan (h : Hw) : Hw :=
  let p := latestPlan h
  let es := topology h
  if holdsRole h 1 && h.efano.ready && decide (es ≠ p.edges ∨ p.root ≠ h.ident.position) && decide (p.at_ + 8000000 ≤ h.tb.now ∨ p.num = 0) then
    let q : Plan := { num := p.num + 1, root := h.ident.position, edges := es, at_ := h.tb.now + 2000000 }
    broadcast { h with arch := { h.arch with nextPlan := some q } } 0x11 ([q.num, q.root, q.at_] ++ es.flatMap (fun e => [e.1, e.2]))
  else h

/-- A plan's activation instant comes (R610): messages that wait are routed by it. -/
def activatePlan (h : Hw) : Hw :=
  match h.arch.nextPlan with
  | some q =>
    let h1 := advanceTo h q.at_
    routeWaiting { h1 with arch := { h1.arch with prevPlan := some (h1.arch.plan, q.at_ + 10000000), plan := q, nextPlan := none } }
  | none => h

end Sys2Proof.Machine
end

