-- ==== Sys2Proof/Machine/ArchRows.lean ====
section
/-! DEFINITION. The causeway's rows (Table 20.6): each frame as it is received, the events of its ports, time distribution, admission,
departure and removal, roles, plans, bindings and the census. -/
namespace Sys2Proof.Machine

/-! ### Presence, joining and breaks -/

/-- Role passes whose instant has come (R631): the holder sends the grant, and the role goes. -/
def passRoles (h : Hw) : Hw :=
  let due := h.arch.rolePend.filter (fun x => decide (x.2.2.2 ≤ h.tb.now))
  let h0 := { h with arch := { h.arch with rolePend := h.arch.rolePend.filter (fun x => decide (h.tb.now < x.2.2.2)) } }
  due.foldl (fun h x =>
    let h1 := direct h 0x10 x.2.2.1 [1, x.1, x.2.1]
    if x.1 = 2 then swapSteward h1 x.2.1 else setHolder h1 x.1 x.2.2.1) h0

/-- PRESENCE as a package that is joining again sends it: with UNADMITTED set (R635 step 1). -/
def presenceFrame (h : Hw) (body : List Nat) : CwFrame :=
  let f := ownFrame h 0x01 (openPorts h) 0 body
  if outsider h then { f with unadmitted := true, origin := 0, archId := 0 } else f

/-- PRESENCE_TICK (R621, Table 20.6): every 1 ms PRESENCE is broadcast, and FENCED while this package is Fenced at package or membership
scope. -/
def presenceTick (h : Hw) : Hw :=
  if h.arch.running then
    let h1 := advanceTo h (h.arch.presAt + 1000000)
    let h2 := passRoles { h1 with arch := { h1.arch with presAt := h1.tb.now } }
    let up := ownUp h2
    let down := ownDown h2
    let h3 := sendFrame h2 (presenceFrame h2 ([ownRoles h2, up.length] ++ up ++ [down.length] ++ down ++ [h2.arch.memSeq]))
    let h4 := if pkgFenced h3 || memberFenced h3 then broadcast h3 0x0D [] else h3
    issuePlan h4
  else h

/-- A member that PRESENCE shows and the table does not hold is entered, as a package newly admitted learns the others; never one whose ID
is still being freed. -/
def learnMember (h : Hw) (c : Cw) : Hw :=
  if h.ident.admitted && !c.unadmitted && !c.fenced && decide (c.archId = h.arch.archId) && idFree h c.origin && decide (c.origin ≠ h.ident.position) then
    setMember h c.origin { st := .member, tag := c.tag, lastSeen := h.tb.now, attested := h.tb.now }
  else h

/-- A PRESENCE frame (R601, R602, R633, R638). -/
def onPresence (h : Hw) (c : Cw) (p : Presence) : Hw :=
  if c.unadmitted then
    if c.tag ∈ h.arch.newcomers ∨ h.arch.newcomers.length ≥ 16 then h
    else { h with arch := { h.arch with newcomers := h.arch.newcomers ++ [c.tag] } }
  else
    let h1 := learnMember h c
    if fromMember h1 c then
      let h2 := setMember h1 c.origin { memberAt h1 c.origin with lastSeen := h1.tb.now, applied := p.applied, upTo := p.upTo, downTo := p.downTo }
      let h3 := if bitOf p.roles 0 && !c.fenced then setHolder h2 0 c.origin else h2
      let h4 := if bitOf p.roles 1 && !c.fenced then setHolder h3 1 c.origin else h3
      confirmFreeing h4 c.origin p.applied
    else h1

/-- Ring positions of this package, hops eastward from a census's initiator. -/
def ringPosFrom (h : Hw) (initiator : Nat) : Nat :=
  if initiator = h.ident.position then 0
  else (ringSize h - (memberAt h initiator).ringEast) % ringSize h

/-- Whether a census is open: at its initiator until it completes, elsewhere until T_s + 10 ms. -/
def censusOpen (h : Hw) (c : Census) : Bool := !c.done && (decide (c.initiator = h.ident.position) || decide (h.tb.now < c.ts + 10000000))

/-- Replace a census. -/
def setCensus (h : Hw) (c : Census) : Hw :=
  { h with arch := { h.arch with censuses := h.arch.censuses.map (fun x => if x.initiator = c.initiator ∧ x.seq = c.seq then c else x) } }

/-- The break an arc end reports to a census: the ring positions between which carrier was lost (R629). -/
def censusMark (h : Hw) (c : Census) (port : Nat) : Hw :=
  let r := ringPosFrom h c.initiator
  let p := if port = 0 then r else (r + ringSize h - 1) % ringSize h
  if c.initiator = h.ident.position then
    setCensus h (if c.marks.length < 8 then { c with marks := c.marks ++ [(p, p + 1)] } else c)
  else direct h 0x14 c.initiator [c.seq, 1, p]

/-- RING_BREAK or RING_RESTORED (Table 20.11). -/
def ringRecord (h : Hw) (type pos port : Nat) : Hw :=
  recordWrite h { type := type, cls := if type = 0x0905 then 5 else 0, arg0 := pos, arg1 := port }

/-- CAUSEWAY_PORT_BREAK (R623, R627, R629): the port has had no valid symbol for 10 us. -/
def portBreak (h : Hw) (port : Nat) : Hw :=
  let x := cwPort h port
  if !h.arch.running || !x.carrier then h
  else
    let tag := Config.deviceTag.toNat
    let n := if port = 0 then 0 else 1
    let h1 := setCwPort h port { x with carrier := false, joined := false, broken := true, wasUp := x.joined }
    let again := h1.arch.recent.filter (fun f => decide (h1.tb.now ≤ f.1 + 20000) && bitOf f.2.ports n)
    let h2 := if (cwPort h1 (otherPort port)).broken then h1
      else { h1 with arch := { h1.arch with sent := h1.arch.sent ++ again.map (fun f => { f.2 with resent := true, ports := otherPort port + 1 }) } }
    let h3 := causewayHold { h2 with arch := { h2.arch with breaks := (h2.arch.breaks.filter (fun b => b ≠ (tag, n))) ++ [(tag, n)] } }
    let h4 := ringRecord (broadcast h3 0x0E [h3.ident.position, n, x.lastTag]) 0x0905 h3.ident.position n
    dropIns ((h4.arch.censuses.filter (censusOpen h4)).foldl (fun h c => censusMark h c n) h4)

/-- A port joins (R622); where it was broken, its arc end broadcasts RESTORED (R623). -/
def portJoined (h : Hw) (port : Nat) : Hw :=
  let x := cwPort h port
  let n := if port = 0 then 0 else 1
  let h1 := setCwPort h port { x with joined := true, broken := false, wasUp := false }
  if x.broken then
    let a := { h1.arch with breaks := h1.arch.breaks.filter (fun b => b ≠ (Config.deviceTag.toNat, n)), timeRun := 0 }
    ringRecord (broadcast { h1 with arch := a } 0x0F [h1.ident.position, n, x.lastTag]) 0x0906 h1.ident.position n
  else h1

/-- A JOIN frame (R622): ACCEPT, or BUSY before t0 + 250 ms. -/
def onJoin (h : Hw) (c : Cw) : Hw :=
  if !(cwPort h c.port).carrier then h
  else if h.arch.joinOk then portJoined (toNeighbour h 0x03 (if c.port = 0 then 0 else 1) [1]) c.port
  else toNeighbour h 0x03 (if c.port = 0 then 0 else 1) [0]

/-- CAUSEWAY_CARRIER (R622, R623): carrier at a port, and a JOIN once join frames may be sent. -/
def portCarrier (h : Hw) (port : Nat) : Hw :=
  let h1 := setCwPort h port { cwPort h port with carrier := true }
  if h1.arch.running && h1.arch.joinOk then toNeighbour h1 0x02 (if port = 0 then 0 else 1) [] else h1

/-- BREAK or RESTORED received (R627). -/
def onBreak (h : Hw) (c : Cw) (port : Nat) : Hw :=
  ringRecord (dropIns (causewayHold { h with arch := { h.arch with breaks := (h.arch.breaks.filter (fun b => b ≠ (c.tag, port))) ++ [(c.tag, port)] } }))
    0x0905 c.origin port

/-- A break is restored: eight consecutive TIME frames end holdover. -/
def onRestored (h : Hw) (c : Cw) (port : Nat) : Hw :=
  ringRecord { h with arch := { h.arch with breaks := h.arch.breaks.filter (fun b => b ≠ (c.tag, port)), timeRun := 0 } } 0x0906 c.origin port

/-! ### Time (R624 to R627) -/

/-- DELAY_REQ (R625): every 1 ms each joined port sends one; one received is answered with its instants. -/
def delayReq (h : Hw) (rx : Option Cw) : Hw :=
  match rx with
  | some c => onFrame h c 0x04 .neighbour [] (fun h => toNeighbour h 0x05 (if c.port = 0 then 0 else 1) [h.tb.now, h.tb.now])
  | none =>
    if h.arch.running then
      let h1 := advanceTo h (h.arch.delayAt + 1000000)
      let h2 := { h1 with arch := { h1.arch with delayAt := h1.tb.now } }
      [0, 1].foldl (fun h p => if (cwPort h p).joined then
        setCwPort (toNeighbour h 0x04 p []) p { cwPort h p with reqAt := h.tb.now } else h) h2
    else h

/-- DELAY_RSP (R625): half the round trip, less the time between the answering package's instants, in units of 2^-16 ns. -/
def delayRsp (h : Hw) (c : Cw) (rx tx : Nat) : Hw :=
  let x := cwPort h c.port
  setCwPort h c.port { x with delay := ((h.tb.now - x.reqAt) - (tx - rx)) * 65536 / 2 }

/-- TIME_TICK (R625): every 125 us the TIME_SOURCE broadcasts TIME, and follows its own time base. -/
def timeTick (h : Hw) : Hw :=
  if h.arch.running && holdsRole h 0 then
    let h1 := advanceTo h (h.arch.tickAt + 125000)
    countTime (broadcast { h1 with arch := { h1.arch with tickAt := h1.tb.now, timeAt := h1.tb.now } } 0x06 [0])
  else h

/-- Archipelago time at the arrival of a TIME frame, in ns (R625): TB, the corrections and the arrival link's delay. -/
def archTime (h : Hw) (c : Cw) (corr : Nat) : Nat := c.tb + (corr + (cwPort h c.port).delay) / 65536

/-- A copy of a TIME frame is taken (R624, R625): a member disciplines its time base by slewing; any other package only notes the time. -/
def takeTime (h : Hw) (c : Cw) (corr : Nat) : Hw :=
  let t := archTime h c corr
  let fresh := decide (h.arch.timeSeq ≠ c.seq) || decide (h.arch.timeHops > 255)
  let better := decide (c.hops < h.arch.timeHops) || (decide (c.hops = h.arch.timeHops) && decide (c.port ≠ 0))
  if fresh || better then
    let h1 := { h with arch := { h.arch with timeAt := h.tb.now, timeSeq := c.seq, timeHops := c.hops, archTb := some (t, h.tb.now) } }
    if fromMember h1 c && !memberFenced h1 && decide (roleHolder h1 0 ≠ some h1.ident.position) then
      let h2 := { h1 with tb := { h1.tb with slew := (t : Int) - (h1.tb.now : Int) } }
      if !fresh then h2 else if c.holdover then causewayHold h2 else countTime h2
    else h1
  else h

/-- TIME (R625): forwarded with this package's residence (in units of 2^-16 ns) and the arrival link's delay added, both copies weighed. -/
def onTime (h : Hw) (c : Cw) (corr residence : Nat) : Hw :=
  let again := seenBefore h c
  let r := recvFrame h c 0x06 .broadcast [corr + residence + (cwPort h c.port).delay]
  if r.2 || (again && heard h c 0x06 && !archConflict h c) then takeTime r.1 c corr else r.1

/-- TIME_FRAME_TIMEOUT (R627). -/
def timeTimeout (h : Hw) : Hw :=
  if h.ident.admitted && !memberFenced h && !holdsRole h 0 then causewayHold (advanceTo h (h.arch.timeAt + 1000000)) else h

/-! ### Admission (R634 to R636) -/

/-- An ADMIT frame of the exchange, named by DEVICE_TAG or Position ID; from a package that joins it carries UNADMITTED. -/
def sendAdmit (h : Hw) (dest answer : Nat) : Hw :=
  if outsider h then
    let f := ownFrame h 0x07 (wayTo h dest) dest [answer]
    let g := { f with unadmitted := true, origin := 0, archId := 0 }
    keepFrame (sendFrame h g) g
  else
    let f := ownFrame h 0x07 (openPorts h) dest [answer]
    keepFrame (sendFrame h f) f

/-- The admission policy (R635 step 4). -/
def policyOk (h : Hw) (a : Attest) : Bool :=
  a.chainOk && decide (a.digest ∈ h.arch.policy) && decide (h.arch.minSec ≤ a.secVer) && !a.benchSeen && !(h.arch.needKa && a.kaLost)

/-- A refused admission (R635): the waiting command completes with DENIED and a detail code. -/
def admitRefused (h : Hw) (p : Wait → Bool) (tag detail : Nat) : Hw :=
  let h1 := endWaits h (fun r => p r.wait) 0x20 detail
  if detail = 0x104 then recordWrite h1 { type := 0x090F, arg0 := tag, arg1 := detail } else h1

/-- A member enters the table (R635 step 6). -/
def enterMember (h : Hw) (pos tag : Nat) (digest : List Byte) : Hw :=
  let m := memberAt h pos
  let known := decide (m.st ≠ MemberSt.none ∧ m.tag = tag)
  let m1 : Member := if known then { m with digest := digest, attested := h.tb.now }
    else { st := .member, tag := tag, digest := digest, lastSeen := h.tb.now, attested := h.tb.now }
  let h1 := setMember { h with arch := { h.arch with newcomers := h.arch.newcomers.filter (· ≠ tag) } } pos m1
  if known then h1 else recordWrite h1 { type := 0x0901, cls := 5, arg0 := pos, arg1 := tag }

/-- The position an ARCH_ADMIT in course assigns to a DEVICE_TAG. -/
def admitting (h : Hw) (tag : Nat) : Option Nat :=
  (List.range 256).find? (fun p => waitsFor h (fun w => decide (w = Wait.admission tag p)))

/-- ADMIT at the ADMITTER (R635 steps 4 to 6): the newcomer's attestation and its own checks. -/
def admitAtAdmitter (h : Hw) (c : Cw) (a : Attest) : Hw :=
  match admitting h c.tag with
  | some pos =>
    let w (x : Wait) : Bool := decide (x = Wait.admission c.tag pos)
    if !holdsRole h 1 || !h.efano.ready then h
    else if !policyOk h a || decide (a.verdict = 1) then sendAdmit (admitRefused h w c.tag 0x104) c.tag 1
    else if a.verdict = 2 then admitRefused h w c.tag 0x103
    else if a.verdict = 3 then sendAdmit h c.tag 0
    else
      let h1 := broadcast h 0x08 [pos, c.tag, leNat a.alias_]
      endWaits (appliedFrame (enterMember h1 pos c.tag a.alias_) h.arch.seq) (fun r => w r.wait) 0 0
  | none => h

/-- How far this package's clock is ahead of archipelago time, in ns; none while no TIME frame has come. -/
def aheadBy (h : Hw) : Option Int := h.arch.archTb.map (fun t => (h.tb.now : Int) - ((t.1 + (h.tb.now - t.2) : Nat) : Int))

/-- ADMIT at the newcomer (R635 steps 3 to 5): the ADMITTER's attestation, then the clocks. -/
def admitAtNewcomer (h : Hw) (c : Cw) (a : Attest) : Hw :=
  let w (x : Wait) : Bool := decide (x = Wait.join)
  let me := Config.deviceTag.toNat
  let ok := a.chainOk && decide (h.arch.expect = 0 ∨ h.arch.expect = c.archId) && decide (h.arch.accepts = [] ∨ a.digest ∈ h.arch.accepts)
  if !h.efano.ready then h
  else if a.verdict = 1 then admitRefused h w me 0x104
  else if !ok then admitRefused (sendAdmit h c.origin 1) w me 0x104
  else match aheadBy h with
  | none => sendAdmit h c.origin 3
  | some d =>
    if d > 1000000000 then admitRefused (sendAdmit h c.origin 2) w me 0x103
    else if d > 1000 then sendAdmit { h with tb := { h.tb with slew := -d } } c.origin 3
    else sendAdmit h c.origin 0

/-- ADMIT (R635). -/
def onAdmit (h : Hw) (c : Cw) (a : Attest) : Hw :=
  if outsider h then (if waitsFor h (fun w => decide (w = Wait.join)) then admitAtNewcomer h c a else h) else admitAtAdmitter h c a

/-- Whatever this package shared with the archipelago before its membership was fenced is forgotten as it joins again (R248). -/
def forgetPast (hm : HM) : HM :=
  let h1 := giveUpProxies hm.1 (fun _ _ => true) false
  let qs := ((h1.coh.dir.flatMap (fun e => remoteHolders h1 e.2 ++ e.2.awaits))).eraseDups
  let hm2 := qs.foldl (fun hm q => forgetHolder hm q true) (h1, hm.2)
  ({ hm2.1 with arch := { hm2.1.arch with members := [], sets := [], others := [], waiting := [], freeing := [] } }, hm2.2)

/-- ADMITTED naming this package (R635 step 6): it takes its Position ID, steps forward to archipelago time, and ARCH_JOIN completes; a
membership fence is lifted (R591). -/
def joinArch (hm : HM) (c : Cw) (pos : Nat) (digest : List Byte) : HM :=
  let hm0 := if hm.1.ident.admitted then forgetPast hm else hm
  let h1 := liftFences hm0.1 (fun f => decide (f.scope = Scope.membership)) 0x0B03
  let up (l : Link) : Link := if l.st = LinkSt.fenced then { l with st := .training, since := h1.tb.now, streams := [], replay := [], key := 0 } else l
  let links := tabMap {} h1.arch.links (fun n l => if unitFencedOwn h1 12 n then l else up l)
  let a := { h1.arch with archId := c.archId, admitter := some c.origin, links := links }
  let h2 := { h1 with arch := a, ident := { h1.ident with position := pos, admitted := true } }
  let step (h : Hw) : Hw := match h.arch.archTb with
    | some t => advanceTo h (t.1 + (h.tb.now - t.2))
    | none => h
  let h3 := step h2
  let h4 := enterMember { h3 with tb := { h3.tb with unsynced := false, slew := 0 } } pos Config.deviceTag.toNat digest
  let h5 := learnMember h4 c
  let w (x : Wait) : Bool := decide (x = Wait.join)
  (endWaits (replyFor h5 w (leBytes 1 pos ++ zeros 7 ++ leBytes 8 c.archId)) (fun r => w r.wait) 0 0, hm0.2)

/-- ADMITTED (R601, R635, R636). -/
def onAdmitted (hm : HM) (c : Cw) (pos tag : Nat) (digest : List Byte) : HM :=
  let h := hm.1
  if outsider h then
    if tag = Config.deviceTag.toNat ∧ h.ident.bench = false ∧ waitsFor h (fun w => decide (w = Wait.join)) then joinArch hm c pos digest else hm
  else if fromMember h c then (appliedFrame (enterMember h pos tag digest) c.seq, hm.2)
  else hm

/-- REATTEST (R636): at the ADMITTER a member is attested, and removed where it fails; at a member that passes, ADMITTED is broadcast with
its Alias digest. -/
def reattest (hm : HM) (pos : Nat) (a : Attest) : HM :=
  let h := hm.1
  if holdsRole h 1 && decide (pos ≠ h.ident.position) then
    if !h.efano.ready || decide ((memberAt h pos).st = MemberSt.none) then hm
    else if policyOk h a then (setMember h pos { memberAt h pos with attested := h.tb.now }, hm.2)
    else declareRemoved hm pos 4
  else if h.ident.admitted && !memberFenced h && decide (pos = h.ident.position) && decide (a.verdict = 0) then
    let d := Config.aliasDigest (fwMeasure h)
    (enterMember (broadcast h 0x08 [pos, Config.deviceTag.toNat, leNat d]) pos Config.deviceTag.toNat d, hm.2)
  else hm

/-! ### Departure and removal as received (R637 to R639) -/

/-- DEPARTING (R637): the member is marked; a package the ADMITTER names departs. -/
def onDeparting (hm : HM) (c : Cw) (pos : Nat) : HM :=
  let h := hm.1
  if !fromMember h c then hm
  else if pos = h.ident.position then
    (if ownRoles h = 0 ∧ (memberAt h pos).st = MemberSt.member then beginDepart hm else hm)
  else if (memberAt h pos).st = MemberSt.none then hm
  else (appliedFrame (setMember h pos { memberAt h pos with st := .departing }) c.seq, hm.2)

/-- DEPARTED (R637). -/
def onDeparted (hm : HM) (c : Cw) (pos : Nat) : HM := if fromMember hm.1 c then memberGone hm pos c.seq none else hm

/-- REMOVED (R636, R639). -/
def onRemoved (hm : HM) (c : Cw) (pos reason : Nat) : HM :=
  let h := hm.1
  if !fromMember h c then hm
  else if pos = h.ident.position then
    (if reason = 4 then memberDoubt h 0 0 0x0805 0 pos else memberDoubt h 0 0 0x0903 pos reason, hm.2)
  else memberGone hm pos c.seq (some reason)

/-- ABANDON (R165, R638): every member applies R639 at once, and the ADMITTER declares it. -/
def onAbandon (hm : HM) (c : Cw) : HM :=
  if !fromMember hm.1 c then hm
  else if holdsRole hm.1 1 then declareRemoved hm c.origin 3 else memberGone hm c.origin c.seq (some 3)

/-- FENCED (R493, R638): the member's knots are BROKEN, and the ADMITTER declares it removed. -/
def onFenced (hm : HM) (c : Cw) : HM :=
  let h := hm.1
  if !fromMember h c then hm
  else
    let h1 := setMember h c.origin { memberAt h c.origin with st := .fenced }
    let h2 := breakCross h1 (fun n => bitOf (knotAt h1 n).members c.origin)
    declareRemoved (breakRemote h2 (fun _ p => decide (p = c.origin)), hm.2) c.origin 2

/-- MEMBER_ABSENT (R638): no PRESENCE for 3 ms, and every link to the member DOWN as its partners report. -/
def memberAbsent (hm : HM) (pos : Nat) : HM :=
  let h := advanceTo hm.1 ((memberAt hm.1 pos).lastSeen + 3000000)
  let linked := (ownUp h).contains pos || h.arch.members.any (fun e => decide (e.1 ≠ pos) && decide (pos ∈ e.2.upTo))
  if !holdsRole hm.1 1 || linked || decide ((memberAt h pos).st = MemberSt.none ∨ pos = h.ident.position) then hm
  else declareRemoved (h, hm.2) pos 1

/-! ### Roles -/

/-- ROLE_SUCCESSION (R633). -/
def roleSuccession (h : Hw) (r : Nat) : Hw :=
  if !h.ident.admitted || decide (1 < r) then h
  else match roleHolder h r with
  | none => h
  | some q =>
    let m := memberAt h q
    let gone := if q = h.ident.position then memberFenced h || pkgFenced h else decide (m.st = MemberSt.none ∨ m.st = MemberSt.fenced)
    let h1 := if gone || decide (q = h.ident.position) then h else advanceTo h (m.lastSeen + 3000000)
    if presentMember h1 q then h1
    else match successor h1 with
      | some n => setHolder h1 r n
      | none => h1

/-- A role request at the holder or at the peer of the link (R631, R632): the role passes at the request's TB plus 1 ms; of two that
collide the lower Position ID's stands and the other is answered COLLIDED_LOST. -/
def roleRequest (h : Hw) (c : Cw) (r port : Nat) : Hw :=
  let due := c.tb + 1000000
  let lose (h : Hw) (q : Nat) : Hw := direct h 0x10 q [2, r, port]
  let put (h : Hw) : Hw := { h with arch := { h.arch with rolePend := h.arch.rolePend ++ [(r, port, c.origin, due)] } }
  if r = 2 then
    if (linkAt h port).st ≠ LinkSt.active ∨ (linkAt h port).peer ≠ c.origin then h
    else if waitsFor h (fun w => decide (w = Wait.role 2 port)) then
      if h.ident.position < c.origin then lose h c.origin
      else put (endWaits h (fun q => decide (q.wait = Wait.role 2 port)) 0x50 0)
    else put h
  else if !holdsRole h r then h
  else match h.arch.rolePend.find? (fun x => decide (x.1 = r)) with
    | some x =>
      if x.2.2.1 ≤ c.origin then lose h c.origin
      else put (lose { h with arch := { h.arch with rolePend := h.arch.rolePend.filter (fun y => y ≠ x) } } x.2.2.1)
    | none => put h

/-- A grant or COLLIDED_LOST at the package that asked. -/
def roleAnswer (h : Hw) (r port : Nat) (won : Bool) : Hw :=
  let w (x : Wait) : Bool := decide (x = Wait.role r port)
  if !waitsFor h w then h
  else if won then endWaits (if r = 2 then swapSteward h port else setHolder h r h.ident.position) (fun q => w q.wait) 0 0
  else endWaits h (fun q => w q.wait) 0x50 0

/-- ROLE (R631, R632): what it says, the role and the port of this package's end. Requests wait for READY. -/
def onRole (h : Hw) (c : Cw) (m : RoleMsg) (r port : Nat) : Hw :=
  if !fromMember h c || !h.efano.ready then h
  else match m with
    | .request => roleRequest h c r port
    | .grant => roleAnswer h r port true
    | .lost => roleAnswer h r port false

/-! ### Plans and bindings -/

/-- ROUTE (R610): the plan its ADMITTER names is activated at its instant. -/
def onRoute (h : Hw) (c : Cw) (num at_ : Nat) (edges : List (Nat × Nat)) : Hw :=
  if fromMember h c then { h with arch := { h.arch with nextPlan := some { num := num, root := c.origin, edges := edges, at_ := at_ } } } else h

/-- SET (R612): a member binds or unbinds a partition set. -/
def onSet (h : Hw) (c : Cw) (set : Nat) (bound : Bool) : Hw :=
  if fromMember h c then
    let o := h.arch.others.filter (fun e => e ≠ (c.origin, set))
    routeWaiting (syncStreams { h with arch := { h.arch with others := if bound then o ++ [(c.origin, set)] else o } })
  else h

/-! ### The census (R628 to R630) -/

/-- A census entry (Table 20.8) of this package. -/
def censusEntry (h : Hw) (initiator status : Nat) (late : Bool) (at_ : Nat) : List Byte :=
  let fl := flag h.tb.holdover + 2 * flag (pkgFenced h || memberFenced h) + 8 * flag late + 16 * flag (logDegraded h)
  leBytes 1 h.ident.position ++ leBytes 1 (ringPosFrom h initiator) ++ leBytes 1 status ++ leBytes 1 fl ++ zeros 4 ++ leBytes 8 at_
  ++ leBytes 2 h.power.inputW ++ leBytes 2 (effective h) ++ leBytes 2 (hottest h) ++ leBytes 2 h.power.prochot
  ++ leBytes 4 (bitmapNat 18 (fun n => decide ((linkAt h n).st = LinkSt.active))) ++ zeros 4

/-- An entry goes to the initiator, or into its result where that is this package. -/
def sendEntry (h : Hw) (c : Census) (e : List Byte) : Hw :=
  if c.initiator = h.ident.position then setCensus h { c with entries := tabPut 0 c.entries h.ident.position (leNat e + 1) }
  else direct h 0x14 c.initiator [c.seq, 0, leNat e]

/-- This package samples for a census. -/
def takeSample (h : Hw) (c : Census) (late : Bool) : Hw :=
  let e := censusEntry h c.initiator 0 late h.tb.now
  let ms := (h.arch.members.filter (fun m => decide (m.2.st ≠ MemberSt.none))).map (·.1)
  let c1 := { c with sampled := true, mine := leNat e, late := late, members := ms }
  sendEntry (setCensus h c1) c1 e

/-- CENSUS_REQ (R628): a sample is due at T_s, or taken at once with LATE; beyond four open censuses the entry says BUSY. -/
def onCensusReq (h : Hw) (c : Cw) (seq ts : Nat) : Hw :=
  if !fromMember h c then h
  else
    let n : Census := { initiator := c.origin, seq := seq, ts := ts }
    if (h.arch.censuses.filter (censusOpen h)).length ≥ 4 then sendEntry h n (censusEntry h c.origin 3 false h.tb.now)
    else
      let rest := h.arch.censuses.filter (fun x => !decide (x.initiator = c.origin ∧ x.seq = seq))
      let h1 := { h with arch := { h.arch with censuses := rest ++ [n] } }
      if ts < h1.tb.now then takeSample h1 n true else h1

/-- A census of an initiator and sequence. -/
def findCensus (h : Hw) (initiator seq : Nat) : Option Census := h.arch.censuses.find? (fun x => decide (x.initiator = initiator ∧ x.seq = seq))

/-- CENSUS_SAMPLE (R628). -/
def censusSample (h : Hw) (initiator seq : Nat) : Hw :=
  match findCensus h initiator seq with
  | some c => if c.sampled then h else takeSample (advanceTo h c.ts) c false
  | none => h

/-- CENSUS_DATA at the initiator (R629): an entry, RESENT where its frame was, or a BREAK marker. -/
def onCensusData (h : Hw) (c : Cw) (seq : Nat) (mark : Option Nat) (entry : List Byte) : Hw :=
  match findCensus h h.ident.position seq with
  | some x =>
    if x.done || !fromMember h c then h
    else match mark with
      | some p => setCensus h (if x.marks.length < 8 then { x with marks := x.marks ++ [(p, p + 1)] } else x)
      | none =>
        let e := if c.resent then entry.set 3 (entry.getD 3 0 ||| 4) else entry
        setCensus h { x with entries := tabPut 0 x.entries c.origin (leNat (e.take 32) + 1) }
  | none => h

/-- Whether BREAK markers show a ring position cut off from the initiator on both ways (R630). -/
def cutOff (c : Census) (r : Nat) : Bool := c.marks.any (fun m => decide (m.2 ≤ r)) && c.marks.any (fun m => decide (r ≤ m.1))

/-- CENSUS_COMPLETE (R630). -/
def censusComplete (h : Hw) (seq : Nat) : Hw :=
  match findCensus h h.ident.position seq with
  | some c =>
    if c.done || !c.sampled then h
    else
      let all := c.members.all (fun m => decide (tabGet 0 c.entries m ≠ 0) || cutOff c (memberAt h m).ringEast)
      let h1 := if all then h else advanceTo h (c.ts + 10000000)
      endWaits (setCensus h1 { c with done := true }) (fun r => decide (r.wait = Wait.census seq)) 0 0
  | none => h

/-! ### The power pool and WAKE -/

/-- POOL_TELEMETRY (R559): a frame of the epoch. -/
def onTelemetry (h : Hw) (c : Cw) (set looms waitTotal : Nat) (awaited : List (Nat × Nat)) : Hw :=
  if !fromMember h c || h.power.frames.any (fun f => decide (f.position = c.origin)) || h.power.epochRun then h
  else
    let f : PoolFrame := { position := c.origin, set := set, waitTotal := waitTotal, looms := looms, awaited := awaited.take 8 }
    { h with power := { h.power with frames := h.power.frames ++ [f] } }

/-- `on_grant` of R560: a lease until the issue instant plus 4 ms (R561). -/
def onGrant (h : Hw) (c : Cw) (set watts issued : Nat) : Hw :=
  if !fromMember h c || !takesPart h || decide (set ≠ h.power.poolSet) || decide (issued + 4000000 ≤ h.tb.now) then h
  else { h with power := { h.power with ins := h.power.ins ++ [{ watts := watts, ends := issued + 4000000 }] } }

/-! ### The rows -/

/-- PRESENCE_TICK (R621). -/
def execPresenceTick (s : State) : Host.Outcome State Fault Refusal := onHw s presenceTick

/-- PRESENCE (R601). -/
def execPresence (c : Cw) (p : Presence) (s : State) : Host.Outcome State Fault Refusal :=
  onHw s (fun h => onFrame h c 0x01 .broadcast ([p.roles, p.upTo.length] ++ p.upTo ++ [p.downTo.length] ++ p.downTo ++ [p.applied])
    (fun h => onPresence h c p))

/-- JOIN (R622). -/
def execJoin (c : Cw) (s : State) : Host.Outcome State Fault Refusal := onHw s (fun h => onFrame h c 0x02 .neighbour [] (fun h => onJoin h c))

/-- JOIN_ANSWER (R622): ACCEPT, or BUSY. -/
def execJoinAnswer (c : Cw) (accept : Bool) (s : State) : Host.Outcome State Fault Refusal :=
  onHw s (fun h => onFrame h c 0x03 .neighbour [flag accept] (fun h =>
    if accept && (cwPort h c.port).carrier && h.arch.joinOk then portJoined h c.port else h))

/-- DELAY_REQ (R625): its tick, or a frame received. -/
def execDelayReq (rx : Option Cw) (s : State) : Host.Outcome State Fault Refusal := onHw s (fun h => delayReq h rx)

/-- DELAY_RSP (R625): the answering package's instants of receipt and sending. -/
def execDelayRsp (c : Cw) (rx tx : Nat) (s : State) : Host.Outcome State Fault Refusal :=
  onHw s (fun h => onFrame h c 0x05 .neighbour [rx, tx] (fun h => delayRsp h c rx tx))

/-- TIME_TICK (R625). -/
def execTimeTick (s : State) : Host.Outcome State Fault Refusal := onHw s timeTick

/-- TIME (R625): its CORRECTION, and this package's residence, both in units of 2^-16 ns. -/
def execTime (c : Cw) (corr residence : Nat) (s : State) : Host.Outcome State Fault Refusal := onHw s (fun h => onTime h c corr residence)

/-- TIME_FRAME_TIMEOUT (R627). -/
def execTimeFrameTimeout (s : State) : Host.Outcome State Fault Refusal := onHw s timeTimeout

/-- ADMIT (R635): what the sender's attestation shows. -/
def execAdmit (c : Cw) (dest : Nat) (a : Attest) (s : State) : Host.Outcome State Fault Refusal :=
  onHw s (fun h => onFrame h c 0x07 (.directed dest) [a.verdict] (fun h => onAdmit h c a))

/-- ADMITTED (R635). -/
def execAdmitted (c : Cw) (pos tag : Nat) (digest : List Byte) (s : State) : Host.Outcome State Fault Refusal :=
  onAll s (fun hm => onFrameM hm c 0x08 .broadcast [pos, tag, leNat digest] (fun hm => onAdmitted hm c pos tag digest))

/-- DEPARTING (R637). -/
def execDeparting (c : Cw) (pos : Nat) (s : State) : Host.Outcome State Fault Refusal :=
  onAll s (fun hm => onFrameM hm c 0x09 .broadcast [pos] (fun hm => onDeparting hm c pos))

/-- DEPARTED (R637). -/
def execDeparted (c : Cw) (pos : Nat) (s : State) : Host.Outcome State Fault Refusal :=
  onAll s (fun hm => onFrameM hm c 0x0A .broadcast [pos] (fun hm => onDeparted hm c pos))

/-- REMOVED (R639). -/
def execRemoved (c : Cw) (pos reason : Nat) (s : State) : Host.Outcome State Fault Refusal :=
  onAll s (fun hm => onFrameM hm c 0x0B .broadcast [pos, reason] (fun hm => onRemoved hm c pos reason))

/-- ABANDON (R638). -/
def execAbandon (c : Cw) (s : State) : Host.Outcome State Fault Refusal :=
  onAll s (fun hm => onFrameM hm c 0x0C .broadcast [] (fun hm => onAbandon hm c))

/-- FENCED (R638). -/
def execFenced (c : Cw) (s : State) : Host.Outcome State Fault Refusal :=
  onAll s (fun hm => onFrameM hm c 0x0D .broadcast [] (fun hm => onFenced hm c))

/-- CAUSEWAY_PORT_BREAK (R623): EAST is 0, WEST 1. -/
def execCausewayPortBreak (port : Nat) (s : State) : Host.Outcome State Fault Refusal := onHw s (fun h => portBreak h port)

/-- CAUSEWAY_CARRIER (R623). -/
def execCausewayCarrier (port : Nat) (s : State) : Host.Outcome State Fault Refusal := onHw s (fun h => portCarrier h port)

/-- BREAK (R627): the arc end's broken port and the last DEVICE_TAG it saw there. -/
def execBreak (c : Cw) (port lastTag : Nat) (s : State) : Host.Outcome State Fault Refusal :=
  onHw s (fun h => onFrame h c 0x0E .broadcast [c.origin, port, lastTag] (fun h => onBreak h c port))

/-- RESTORED (R627). -/
def execRestored (c : Cw) (port lastTag : Nat) (s : State) : Host.Outcome State Fault Refusal :=
  onHw s (fun h => onFrame h c 0x0F .broadcast [c.origin, port, lastTag] (fun h => onRestored h c port))

/-- ROLE (R632): a role or, for LINK_STEWARD (2), the port of this package's end of the link. -/
def execRole (c : Cw) (dest : Nat) (m : RoleMsg) (role port : Nat) (s : State) : Host.Outcome State Fault Refusal :=
  onHw s (fun h => onFrame h c 0x10 (.directed dest) [match m with | .request => 0 | .grant => 1 | .lost => 2, role, port]
    (fun h => onRole h c m role port))

/-- ROLE_SUCCESSION (R633). -/
def execRoleSuccession (role : Nat) (s : State) : Host.Outcome State Fault Refusal := onHw s (fun h => roleSuccession h role)

/-- MEMBER_ABSENT (R638). -/
def execMemberAbsent (pos : Nat) (s : State) : Host.Outcome State Fault Refusal := onAll s (fun hm => memberAbsent hm pos)

/-- ROUTE (R610): the plan's number, its activation instant and its links. -/
def execRoute (c : Cw) (num at_ : Nat) (edges : List (Nat × Nat)) (s : State) : Host.Outcome State Fault Refusal :=
  onHw s (fun h => onFrame h c 0x11 .broadcast ([num, c.origin, at_] ++ edges.flatMap (fun e => [e.1, e.2])) (fun h => onRoute h c num at_ edges))

/-- ROUTE_ACTIVATION (R610). -/
def execRouteActivation (s : State) : Host.Outcome State Fault Refusal := onHw s activatePlan

/-- SET (R612). -/
def execSet (c : Cw) (set : Nat) (bound : Bool) (s : State) : Host.Outcome State Fault Refusal :=
  onHw s (fun h => onFrame h c 0x12 .broadcast [set, flag bound] (fun h => onSet h c set bound))

/-- CENSUS_REQ (R628). -/
def execCensusReq (c : Cw) (seq ts : Nat) (s : State) : Host.Outcome State Fault Refusal :=
  onHw s (fun h => onFrame h c 0x13 .broadcast [c.origin, seq, ts] (fun h => onCensusReq h c seq ts))

/-- CENSUS_SAMPLE (R628). -/
def execCensusSample (initiator seq : Nat) (s : State) : Host.Outcome State Fault Refusal := onHw s (fun h => censusSample h initiator seq)

/-- CENSUS_DATA (R629): an entry, or the lower ring position of a BREAK marker. -/
def execCensusData (c : Cw) (dest seq : Nat) (mark : Option Nat) (entry : List Byte) (s : State) : Host.Outcome State Fault Refusal :=
  onHw s (fun h => onFrame h c 0x14 (.directed dest) [seq, flag mark.isSome, mark.getD (leNat entry)] (fun h => onCensusData h c seq mark entry))

/-- CENSUS_COMPLETE (R630). -/
def execCensusComplete (seq : Nat) (s : State) : Host.Outcome State Fault Refusal := onHw s (fun h => censusComplete h seq)

/-- POOL_TELEMETRY (R559). -/
def execPoolTelemetry (c : Cw) (set looms waitTotal : Nat) (awaited : List (Nat × Nat)) (s : State) : Host.Outcome State Fault Refusal :=
  onHw s (fun h => onFrame h c 0x15 .broadcast ([set, looms, awaited.length, waitTotal] ++ awaited.flatMap (fun e => [e.1, e.2]))
    (fun h => onTelemetry h c set looms waitTotal awaited))

/-- POOL_GRANT (R560). -/
def execPoolGrant (c : Cw) (dest set watts issued : Nat) (s : State) : Host.Outcome State Fault Refusal :=
  onHw s (fun h => onFrame h c 0x16 (.directed dest) [dest, set, watts, issued] (fun h => onGrant h c set watts issued))

/-- WAKE (R170, Table 5.7): `found` as in DORMANT_EXIT. -/
def execWake (c : Cw) (tag : Nat) (found : WakeTrain) (s : State) : Host.Outcome State Fault Refusal :=
  onHw s (fun h => onFrame h c 0x17 (.directed tag) [tag] (fun h => dormantExit h .causeway found))

/-- REATTEST (R636). -/
def execReattest (pos : Nat) (a : Attest) (s : State) : Host.Outcome State Fault Refusal := onAll s (fun hm => reattest hm pos a)

/-- CAUSEWAY_FRAME_UNPROCESSED (R620): a frame whose CRC fails, or one with a reserved TYPE. -/
def execCausewayFrameUnprocessed (c : Cw) (type : Nat) (crcOk : Bool) (body : List Nat) (s : State) : Host.Outcome State Fault Refusal :=
  onHw s (fun h => if crcOk && decide (type = 0 ∨ type > 0x17) then onFrame h c type .broadcast body id else h)

end Sys2Proof.Machine
end

