-- ==== Sys2Proof/Machine/LinkRows.lean ====
section
/-! DEFINITION. The Idurrum links' rows (Table 20.2): training, link keys, flits and replay, links going down, and the segments whose
messages this package routes or serves (R604 to R619). -/
namespace Sys2Proof.Machine

/-! ### Training, keys, going down -/

/-- LINK_CONTROL on a port completes (Table 24.10). -/
def linkSettled (h : Hw) (port : Nat) : Hw := endWaits h (fun r => decide (r.wait = Wait.link port)) 0 0

/-- LINK_TRAINED (R604): both ends have exchanged DEVICE_TAG, Position ID and ARCH_ID. The lower Position ID holds LINK_STEWARD (Table
20.9). -/
def linkTrained (h : Hw) (port peer tag arch : Nat) : Hw :=
  if (linkAt h port).st = LinkSt.training ∧ port < portCount h then
    linkSettled (setLink h port { st := .trained, since := h.tb.now, peer := peer, peerTag := tag, peerArch := arch,
                                  steward := decide (h.ident.position < peer) }) port
  else h

/-- LINK_KEY_EXCHANGE (R615, R617): with the exchange passed the link is ACTIVE under a new link key and every stream begins a new
generation; a failed one leaves it TRAINED. -/
def keyExchange (h : Hw) (port : Nat) (ok : Bool) : Hw :=
  let l := linkAt h port
  let both := isMember h h.ident.position && isMember h l.peer && decide (l.peerArch = h.arch.archId) && decide ((memberAt h l.peer).tag = l.peerTag)
  if (l.st = LinkSt.trained ∨ l.st = LinkSt.active) ∧ both ∧ memberFenced h = false ∧ pkgFenced h = false then
    if ok then
      let next (s : Stream) : Stream := { s with gen := if l.key = 0 then s.gen else (s.gen + 1) % 128, counter := 0, sent := 0, nextGen := none }
      let l1 := { l with st := .active, since := if l.st = LinkSt.active then l.since else h.tb.now, key := h.free + 1, keyAt := h.tb.now,
                         streams := tabMap {} l.streams (fun _ s => next s) }
      linkSettled (routeWaiting (syncStreams { setLink h port l1 with free := h.free + 1 })) port
    else
      linkSettled (recordWrite (setLink h port { l with st := .trained, key := 0, keyAt := h.tb.now }) { type := 0x0908, unitKind := 12, unit := port })
        port
  else h

/-- A link is DOWN (R604, R619): with unacknowledged flits that carry messages the membership is fenced; otherwise LINK_DOWN is
recorded. -/
def goDown (h : Hw) (port : Nat) : Hw :=
  let l := linkAt h port
  let lost := (l.replay.filter (·.message)).length
  let h1 := setLink h port { l with st := .down, since := h.tb.now, replay := [], key := 0, streams := [] }
  let h2 := if lost ≠ 0 ∧ h.ident.admitted = true then memberDoubt h1 12 port 0x090A lost 0
    else recordWrite h1 { type := 0x0907, cls := 1, unitKind := 12, unit := port, arg0 := l.peer }
  linkSettled h2 port

/-- LINK_DOWN (R604): retraining has failed within 100 ms. -/
def linkDown (h : Hw) (port : Nat) : Hw :=
  let l := linkAt h port
  if l.st = LinkSt.retraining ∨ l.st = LinkSt.training then goDown (advanceTo h (l.since + 100000000)) port else h

/-- FENCE_ORDERED_SET (R604): the peer has fenced. -/
def peerFenced (h : Hw) (port : Nat) : Hw :=
  if (linkAt h port).st ∈ [LinkSt.trained, LinkSt.active, LinkSt.retraining] then goDown h port else h

/-- LINK_RETRAIN_ATTEMPT (R604): every 1 s. -/
def retrainAttempt (h : Hw) (port : Nat) : Hw :=
  let l := linkAt h port
  if l.st = LinkSt.down ∧ l.off = false then
    let h1 := advanceTo h (l.since + second)
    setLink h1 port { l with st := .training, since := h1.tb.now }
  else h

/-- RETRAIN_COMPLETE (R606): the link resumes replay. -/
def retrained (h : Hw) (port : Nat) : Hw :=
  let l := linkAt h port
  if l.st = LinkSt.retraining then
    linkSettled (routeWaiting (setLink h port { l with st := .active, since := h.tb.now, replay := l.replay.map (fun f => { f with tries := 0 }) })) port
  else h

/-! ### Flits (R605, R606) -/

/-- FLIT: a DATA flit with its SEQ, whose CRC is good or not. In order it is accepted and acknowledged; otherwise a NAK names the SEQ
expected. -/
def onFlit (h : Hw) (port seq : Nat) (good : Bool) : Hw :=
  let l := linkAt h port
  if l.st ≠ LinkSt.active ∧ l.st ≠ LinkSt.trained then h
  else if good && decide (seq = l.rx) then setLink h port { l with rx := (l.rx + 1) % 4096, answers := [(2, seq)] }
  else setLink h port { l with answers := [(3, l.rx)] }

/-- Whether a SEQ stands before another in the replay window. -/
def seqBefore (a b : Nat) : Bool := decide (a ≠ b ∧ (b + 4096 - a % 4096) % 4096 < 2048)

/-- ACK: flits up to its SEQ leave the replay buffer, and messages that waited for room go out. -/
def onAck (h : Hw) (port seq : Nat) : Hw :=
  let l := linkAt h port
  routeWaiting (setLink h port { l with replay := l.replay.filter (fun f => seqBefore seq f.seq) })

/-- NAK: flits before its SEQ are acknowledged, and the sender replays from it; one replayed three times already sends the link to
RETRAINING. -/
def onNak (h : Hw) (port seq : Nat) : Hw :=
  let l := linkAt h port
  let left := l.replay.filter (fun f => !seqBefore f.seq seq)
  if l.st ≠ LinkSt.active then h
  else if left.any (fun f => decide (3 ≤ f.tries)) then setLink h port { l with replay := left, st := .retraining, since := h.tb.now }
  else setLink h port { l with replay := left.map (fun f => { f with tries := f.tries + 1 }) }

/-! ### Messages (R607, R611, R617) -/

/-- The local partition bound to a set that admits messages from a package (R611). -/
def setPartFor (h : Hw) (set src : Nat) : Option Nat :=
  (h.arch.sets.find? (fun e => e.2.used && decide (e.2.set = set) && bitOf e.2.members src)).map (·.2.part)

/-- The transactions of Table 7.7 in table order (Table 20.4). -/
def reqOf (op : Nat) : Option ReqKind :=
  match op with
  | 1 => some .readShared | 2 => some .readOwn | 3 => some .readOnce | 4 => some .writeLine
  | 5 => some .writePart | 6 => some .writeBack | 7 => some .atomicHome | 8 => some .atomicMem | _ => none

/-- A request of another package at its home (R246, R611); an offset of 16 TiB and more is refused (R42). A departing package grants no new copy and serves reads as READ_ONCE (R637). -/
def remoteReq (hm : HM) (p : Nat) (m : Msg) (k0 : ReqKind) : HM :=
  let h := hm.1
  let k := if (memberAt h h.ident.position).st = MemberSt.departing ∧ (k0 = ReqKind.readShared ∨ k0 = ReqKind.readOwn) then ReqKind.readOnce else k0
  let base : HomeAct := { txn := m.txn, poison := m.poison }
  let act : HomeAct :=
    match k with
    | .writePart => { base with mask := leAt m.payload 0 8, bytes := (m.payload.drop 8).take 64 }
    | .readOnce => { base with size := m.size }
    | .atomicHome | .atomicMem => { base with op := m.aop, size := m.size, operand := leAt m.payload 0 16, compare := leAt m.payload 16 16 }
    | _ => base
  if field m.addr 47 44 ≠ 0 then
    (answerRemote (answerWith h [] 3) m.src p 0 m.txn k, hm.2)
  else homeReq hm k (.remote m.src) p (compactLocal (ofGlobal m.addr)) act

/-- A knot operation of another package at the knot's home (R491, R492); a wait that arrives first counts its arrival, and OP 0 is the
header signal of the knot's type (log entry 17). -/
def remoteKnot (h : Hw) (p : Nat) (m : Msg) : Hw :=
  let b := m.payload
  let n := refKnot (leAt b 0 4)
  if m.size = 0 then
    let o := if leAt b 4 1 = 0 then headerSignal (knotAt h n) (leAt b 8 8 - 1) else (leAt b 4 1, leAt b 8 8)
    remoteSignal h m.src p n o.1 o.2 m.txn
  else if leAt b 5 1 = 1 ∧ (remoteBad h m.src p n (condAllowed (knotAt h n).type (leAt b 4 1))).isNone then
    let x := (knotAt h n).value.toNat / 2 ^ 32
    remoteWait (signalKnot h n 3 1 m.src) m.src p n (leAt b 4 1) x m.txn
  else remoteWait h m.src p n (leAt b 4 1) (leAt b 8 8) m.txn

/-- A message for this package (Table 20.4). -/
def takeMsg (hm : HM) (set : Nat) (m : Msg) : HM :=
  let h := hm.1
  match m.cls with
  | .req =>
    match setPartFor h set m.src with
    | none => (postMsg h set { cls := .cmp, op := 3, status := 0x09, dst := m.src, txn := m.txn, addr := m.addr }, hm.2)
    | some p =>
      if m.op = 9 then settle (remoteKnot h p m, hm.2)
      else match reqOf m.op with
        | some k => remoteReq hm p m k
        | none => hm
  | .snp => (remoteSnoop h set m, hm.2)
  | .dat => if awaitsDat h m then writeDat hm m else snoopAnswer hm m.src m
  | .rsp => snoopAnswer hm m.src m
  | .cmp => (writeAnswered h m, hm.2)

/-- A message in transit goes on by the route of its plan (R609, R618). -/
def relayMsg (h : Hw) (set : Nat) (m : Msg) : Hw :=
  { h with arch := { h.arch with posted := h.arch.posted ++ [{ set := set, own := false, msg := m }] } }

/-- A segment's messages, one after another. -/
def takeMsgs (hm : HM) (set : Nat) (ms : List Msg) : HM :=
  ms.foldl (fun hm m => if m.dst = hm.1.ident.position then takeMsg (stir hm.1, hm.2) set m else (relayMsg hm.1 set m, hm.2)) hm

/-- A segment's doubt (R619): its tag fails, a counter comes again, or a generation no one has announced. -/
def segmentBad (x : Stream) (gen counter : Nat) (tagOk : Bool) : Bool :=
  !tagOk || (if gen = x.gen then decide (counter < x.counter) else decide (x.nextGen ≠ some gen))

/-- SEGMENT (R617 to R619): a complete segment of a stream. -/
def onSegment (hm : HM) (port stream gen counter : Nat) (tagOk : Bool) (ms : List Msg) : HM :=
  let h := hm.1
  let l := linkAt h port
  let x := tabGet {} l.streams stream
  if l.st ≠ LinkSt.active ∨ x.used = false then hm
  else if segmentBad x gen counter tagOk then (memberDoubt h 12 port 0x0909 stream 0, hm.2)
  else
    let x1 : Stream := if gen = x.gen then { x with counter := counter + 1 } else { x with gen := gen, counter := counter + 1, nextGen := none }
    let h1 := setLink h port { l with streams := tabPut {} l.streams stream x1 }
    let hm2 := takeMsgs (h1, hm.2) x.set ms
    (recallsDone hm2.1, hm2.2)

/-- GENERATION_CHANGE (R617): the steward end announces the next generation of a stream; both ends send under it from counter zero. -/
def generationChange (h : Hw) (port stream : Nat) : Hw :=
  let l := linkAt h port
  let x := tabGet {} l.streams stream
  if l.st = LinkSt.active ∧ x.used then
    setLink h port { l with streams := tabPut {} l.streams stream { x with nextGen := some ((x.gen + 1) % 128), sent := 0 } }
  else h

/-! ### The rows -/

/-- LINK_TRAINED (R604): the peer's Position ID, DEVICE_TAG and ARCH_ID. -/
def execLinkTrained (port peer tag arch : Nat) (s : State) : Host.Outcome State Fault Refusal := onHw s (fun h => linkTrained h port peer tag arch)

/-- LINK_KEY_EXCHANGE (R615): `ok` says that both signatures verify. -/
def execLinkKeyExchange (port : Nat) (ok : Bool) (s : State) : Host.Outcome State Fault Refusal := onHw s (fun h => keyExchange h port ok)

/-- FLIT (R606). -/
def execFlit (port seq : Nat) (good : Bool) (s : State) : Host.Outcome State Fault Refusal := onHw s (fun h => onFlit h port seq good)

/-- NAK (R606). -/
def execNak (port seq : Nat) (s : State) : Host.Outcome State Fault Refusal := onHw s (fun h => onNak h port seq)

/-- ACK (R606). -/
def execAck (port seq : Nat) (s : State) : Host.Outcome State Fault Refusal := onHw s (fun h => onAck h port seq)

/-- RETRAIN_COMPLETE (R606). -/
def execRetrainComplete (port : Nat) (s : State) : Host.Outcome State Fault Refusal := onHw s (fun h => retrained h port)

/-- LINK_DOWN (R604). -/
def execLinkDown (port : Nat) (s : State) : Host.Outcome State Fault Refusal := onHw s (fun h => linkDown h port)

/-- FENCE_ORDERED_SET (R604). -/
def execFenceOrderedSet (port : Nat) (s : State) : Host.Outcome State Fault Refusal := onHw s (fun h => peerFenced h port)

/-- LINK_RETRAIN_ATTEMPT (R604). -/
def execLinkRetrainAttempt (port : Nat) (s : State) : Host.Outcome State Fault Refusal := onHw s (fun h => retrainAttempt h port)

/-- SEGMENT (R617): the stream, generation and counter of its nonce, whether its tag verifies, and its messages. -/
def execSegment (port stream gen counter : Nat) (tagOk : Bool) (msgs : List Msg) (s : State) : Host.Outcome State Fault Refusal :=
  onAll s (fun hm => onSegment hm port stream gen counter tagOk msgs)

/-- GENERATION_CHANGE (R617). -/
def execGenerationChange (port stream : Nat) (s : State) : Host.Outcome State Fault Refusal := onHw s (fun h => generationChange h port stream)

end Sys2Proof.Machine
end

