-- ==== Sys2Proof/Machine/ArchCmds.lean ====
section
/-! DEFINITION. The archipelago commands (Table 24.10). -/
namespace Sys2Proof.Machine

/-- Members of the table. -/
def memberIds (h : Hw) : List Nat := (h.arch.members.filter (fun e => decide (e.2.st ≠ MemberSt.none))).map (·.1)

/-- Code of a link state: its row of Table 20.2. -/
def linkCode : LinkSt → Nat
  | .disabled => 0 | .training => 1 | .trained => 2 | .active => 3 | .retraining => 4 | .down => 5 | .fenced => 6

/-- Code of a membership state (R601). -/
def memberCode : MemberSt → Nat
  | .none => 0 | .member => 1 | .departing => 2 | .fenced => 3

/-- ARCH_STATUS (R601, Table 24.10). -/
def archStatus (m : Mbx) (hm : HM) (r : Req) : HM × Reply :=
  let h := hm.1
  let fl := flag h.ident.admitted + 2 * flag h.edges.anchor + 4 * flag (memberFenced h) + 8 * flag h.tb.holdover + 16 * flag h.tb.unsynced
  let port (n : Nat) : List Byte := let l := linkAt h n; leBytes 1 (linkCode l.st) ++ leBytes 1 l.peer ++ leBytes 1 (flag l.steward) ++ zeros 1
  let entry (p : Nat) : List Byte :=
    let x := memberAt h p
    leBytes 1 p ++ leBytes 1 (memberCode x.st) ++ zeros 6 ++ leBytes 8 x.tag ++ (x.digest ++ zeros 48).take 48
  (hm, doneQ (leBytes 8 h.arch.archId ++ leBytes 1 h.ident.position ++ leBytes 1 fl ++ leBytes 1 (ownRoles h) ++ zeros 5
    ++ (List.range 18).flatMap port ++ (List.range 16).flatMap (fun i => leBytes 8 (h.arch.newcomers.getD i 0))
    ++ paged m 216 64 (leAt r.payload 0 4) (leAt r.payload 4 2) ((memberIds h).map entry)))

/-- ARCH_FOUND (R599, R600). -/
def archFound (hm : HM) (r : Req) : HM × Reply :=
  let h := hm.1
  let near := match h.arch.foreign with | some t => decide (h.tb.now < t + second) | none => false
  if !h.edges.anchor || h.ident.admitted || h.ident.bench || near then (hm, deny 0x20 0)
  else
    let v := takeFree h
    let id := if v.1.toNat = 0 then 1 else v.1.toNat
    let h1 := if bitOf (leAt r.payload 0 1) 0 then advanceTo v.2 (leAt r.payload 8 8) else v.2
    let me : Member := { st := .member, tag := Config.deviceTag.toNat, digest := Config.aliasDigest (fwMeasure h), lastSeen := h1.tb.now,
                         attested := h1.tb.now }
    let a := { h1.arch with archId := id, timeSrc := some 0, admitter := some 0, members := tabPut {} [] 0 me, plan := { root := 0 },
                            tickAt := h1.tb.now, timeAt := h1.tb.now }
    let h2 := { h1 with arch := a, ident := { h1.ident with position := 0, admitted := true }, tb := { h1.tb with unsynced := false } }
    ((h2, hm.2), doneC (leBytes 8 id))

/-- ARCH_JOIN (R634): the newcomer waits for the ADMITTED broadcast. -/
def archJoin (hm : HM) (r : Req) : HM × Reply :=
  let h := hm.1
  let b := r.payload
  if (List.range 17).any (fun p => decide (p ≠ 0) && partExists h p) || h.ident.bench || (h.ident.admitted && !memberFenced h) then (hm, deny 0x20 0)
  else if waitsFor h (fun w => decide (w = Wait.join)) then (hm, deny 0x11 0)
  else
    let ds := (List.range (leAt b 8 1)).map (fun i => (b.drop (16 + 48 * i)).take 48)
    (({ h with arch := { h.arch with expect := leAt b 0 8, accepts := ds } }, hm.2), { wait := .join })

/-- ARCH_ADMIT (R602, R635): the exchange begins. -/
def archAdmit (hm : HM) (r : Req) : HM × Reply :=
  let h := hm.1
  let tag := leAt r.payload 0 8
  let pos := leAt r.payload 8 1
  if !holdsRole h 1 then (hm, deny 0x20 0x102)
  else if !idFree h pos || waitsFor h (fun w => match w with | .admission _ p => decide (p = pos) | _ => false) then (hm, deny 0x20 0x101)
  else ((sendAdmit h tag 0, hm.2), { wait := .admission tag pos })

/-- ARCH_POLICY_SET (R635). -/
def archPolicySet (hm : HM) (r : Req) : HM × Reply :=
  let h := hm.1
  let b := r.payload
  let ds := (List.range (leAt b 5 1)).map (fun i => (b.drop (8 + 48 * i)).take 48)
  (({ h with arch := { h.arch with minSec := leAt b 0 4, needKa := bitOf (leAt b 4 1) 0, policy := ds } }, hm.2), doneC)

/-- ARCH_DEPART (R637). -/
def archDepart (hm : HM) (r : Req) : HM × Reply :=
  let h := hm.1
  let pos := leAt r.payload 0 1
  let own := decide (pos = h.ident.position)
  if !isMember h pos then (hm, deny 0x70 0)
  else if !own && !holdsRole h 1 then (hm, deny 0x20 0x102)
  else if decide (h.arch.timeSrc = some pos ∨ h.arch.admitter = some pos) && decide (2 ≤ (memberIds h).length) then (hm, deny 0x20 0x105)
  else if own then
    let hm1 := beginDepart hm
    if hm1.1.ident.admitted then (hm1, { commit := true, wait := .depart pos }) else (hm1, doneC)
  else
    let h1 := broadcast (setMember h pos { memberAt h pos with st := .departing }) 0x09 [pos]
    ((appliedFrame h1 h.arch.seq, hm.2), { commit := true, wait := .depart pos })

/-- ARCH_ROLE_SET (R631). -/
def archRoleSet (hm : HM) (r : Req) : HM × Reply :=
  let h := hm.1
  let role := leAt r.payload 0 1
  let port := leAt r.payload 1 1
  if !h.ident.admitted then (hm, deny 0x20 0)
  else if waitsFor h (fun w => decide (w = Wait.role role port)) then (hm, deny 0x11 0)
  else if role = 2 then
    let l := linkAt h port
    if l.st = LinkSt.active ∧ port < portCount h then ((direct h 0x10 l.peer [0, 2, port], hm.2), { wait := .role 2 port })
    else (hm, deny 0x20 0)
  else match roleHolder h role with
  | some q =>
    if q = h.ident.position then (hm, doneC)
    else ((direct h 0x10 q [0, role, port], hm.2), { wait := .role role port })
  | none => (hm, { wait := .role role port })

/-- ARCH_SET_BIND (R611, R612, R614). -/
def archSetBind (hm : HM) (r : Req) : HM × Reply :=
  let h := hm.1
  let b := r.payload
  let p := leAt b 0 1
  let set := leAt b 4 4
  let used := h.arch.sets.filter (fun e => e.2.used)
  match partCheck h .steward p with
  | some e => (hm, deny e.1 e.2)
  | none =>
    if !h.ident.admitted then (hm, deny 0x20 0x101)
    else if set = 0 ∨ set = 0xFFFFFFFF then (hm, deny 0x20 0)
    else if used.any (fun e => decide (e.2.set = set) != decide (e.2.part = p)) then (hm, deny 0x20 0x100)
    else
      let slot := match used.find? (fun e => decide (e.2.part = p)) with
        | some e => e.1
        | none => ((List.range 17).find? (fun i => !(tabGet {} h.arch.sets i).used)).getD 17
      let x : SetBind := { used := true, set := set, part := p, members := leAt b 8 32 }
      let h1 := { h with arch := { h.arch with sets := tabPut {} h.arch.sets slot x } }
      if (liveSets h1).length > 255 then (hm, deny 0x40 0)
      else ((routeWaiting (syncStreams (broadcast h1 0x12 [set, 1])), hm.2), doneC)

/-- ARCH_SET_UNBIND (R613). -/
def archSetUnbind (hm : HM) (r : Req) : HM × Reply :=
  let h := hm.1
  let p := leAt r.payload 0 1
  let set := leAt r.payload 4 4
  match partCheck h .steward p with
  | some e => (hm, deny e.1 e.2)
  | none =>
    if !h.arch.sets.any (fun e => e.2.used && decide (e.2.set = set ∧ e.2.part = p)) then (hm, deny 0x20 0x102)
    else
      let h1 := giveUpProxies h (fun _ x => decide (x.part = p)) true
      let hm2 := recallLines (h1, hm.2) (fun l => decide ((swatchAt h1 (l * 64)).owner = p))
      let h3 := breakRemote (breakCross hm2.1 (fun n => decide (knotOwner h n = p))) (fun s _ => decide (slipOwner h s = p))
      let h4 := unbindDone h3 p set
      if h4.arch.sets.any (fun e => e.2.used && decide (e.2.set = set ∧ e.2.part = p)) then ((h4, hm2.2), { commit := true, wait := .unbind p set })
      else ((h4, hm2.2), doneC)

/-- ARCH_CENSUS (R628). -/
def archCensus (hm : HM) (r : Req) : HM × Reply :=
  let h := hm.1
  let lead := leAt r.payload 0 4
  if !h.ident.admitted || decide (lead < 1000 ∨ lead > 100000) then (hm, deny 0x20 0)
  else if (h.arch.censuses.filter (censusOpen h)).length ≥ 4 then (hm, deny 0x11 0)
  else
    let seq := h.arch.censusSeq % 65536
    let ts := h.tb.now + 1000 * lead
    let rest := h.arch.censuses.filter (fun x => !decide (x.initiator = h.ident.position ∧ x.seq = seq))
    let c : Census := { initiator := h.ident.position, seq := seq, ts := ts, lead := 1000 * lead }
    let h1 := { h with arch := { h.arch with censuses := rest ++ [c], censusSeq := h.arch.censusSeq + 1 } }
    ((broadcast h1 0x13 [h.ident.position, seq, ts], hm.2),
     { commit := true, wait := .census seq, payload := leBytes 1 h.ident.position ++ zeros 1 ++ leBytes 2 seq ++ zeros 4 })

/-- The entry of a Position ID in a census's result (R630): MISSING where none came, ABSENT where it was no member. -/
def censusResult (h : Hw) (c : Census) (p : Nat) : List Byte :=
  let e := tabGet 0 c.entries p
  if e ≠ 0 then leBytes 32 (e - 1)
  else leBytes 1 p ++ leBytes 1 (memberAt h p).ringEast ++ leBytes 1 (if p ∈ c.members then 1 else 2) ++ zeros 29

/-- ARCH_CENSUS_READ (R629, R630). -/
def archCensusRead (hm : HM) (r : Req) : HM × Reply :=
  let h := hm.1
  let none_ : HM × Reply := (hm, deny 0x20 0x100)
  let out (fl : Nat) (ms : List (Nat × Nat)) (es : List (List Byte)) : HM × Reply :=
    (hm, doneQ (leBytes 1 fl ++ leBytes 1 ms.length ++ leBytes 2 es.length ++ zeros 4
      ++ (List.range 8).flatMap (fun i => let m := ms.getD i (0, 0); leBytes 1 m.1 ++ leBytes 1 m.2) ++ es.flatten))
  match findCensus h (leAt r.payload 0 1) (leAt r.payload 2 2) with
  | none => none_
  | some c =>
    if c.initiator = h.ident.position ∧ h.ident.admitted then
      if c.done then out 1 c.marks ((List.range 256).map (censusResult h c))
      else out 0 c.marks ((c.entries.filter (fun e => decide (e.2 ≠ 0))).map (fun e => leBytes 32 (e.2 - 1)))
    else if c.sampled then out 2 [] [leBytes 32 c.mine]
    else none_

/-- LINK_CONTROL (R604). -/
def linkControl (hm : HM) (r : Req) : HM × Reply :=
  let h := hm.1
  let n := leAt r.payload 0 1
  let l := linkAt h n
  let w : Reply := { commit := true, wait := .link n }
  let set (l : Link) : HM := (setLink h n l, hm.2)
  if n ≥ portCount h then (hm, deny 0x20 0)
  else if waitsFor h (fun x => decide (x = Wait.link n)) then (hm, deny 0x11 0)
  else match leAt r.payload 1 1 with
  | 0 => (set { l with st := .disabled, off := true, since := h.tb.now }, doneC)
  | 1 =>
    if l.off ∧ mayTrain h then (set { l with off := false, st := .training, since := h.tb.now }, w)
    else (set { l with off := false }, doneC)
  | 2 =>
    match l.st with
    | .active => (set { l with st := .retraining, since := h.tb.now }, w)
    | .trained | .down => (set { l with st := .training, since := h.tb.now }, w)
    | .training | .retraining => (hm, deny 0x11 0)
    | _ => (hm, doneC)
  | _ =>
    if !l.steward then (hm, deny 0x20 0x100)
    else if l.st = LinkSt.active ∨ l.st = LinkSt.trained then (hm, w)
    else (hm, deny 0x11 0)

/-! ### The rows -/

/-- ARCH_STATUS (R601). -/
def execArchStatus (m : Mbx) (tag : Nat) (s : State) : Host.Outcome State Fault Refusal :=
  onAll s (fun hm => serve hm m tag 0x0B01 (archStatus m))

/-- ARCH_FOUND (R599). -/
def execArchFound (m : Mbx) (tag : Nat) (s : State) : Host.Outcome State Fault Refusal :=
  onAll s (fun hm => serve hm m tag 0x0B02 archFound)

/-- ARCH_JOIN (R634). -/
def execArchJoin (m : Mbx) (tag : Nat) (s : State) : Host.Outcome State Fault Refusal :=
  onAll s (fun hm => serve hm m tag 0x0B03 archJoin)

/-- ARCH_ADMIT (R635). -/
def execArchAdmit (m : Mbx) (tag : Nat) (s : State) : Host.Outcome State Fault Refusal :=
  onAll s (fun hm => serve hm m tag 0x0B04 archAdmit)

/-- ARCH_POLICY_SET (R635). -/
def execArchPolicySet (m : Mbx) (tag : Nat) (s : State) : Host.Outcome State Fault Refusal :=
  onAll s (fun hm => serve hm m tag 0x0B05 archPolicySet)

/-- ARCH_DEPART (R637). -/
def execArchDepart (m : Mbx) (tag : Nat) (s : State) : Host.Outcome State Fault Refusal :=
  onAll s (fun hm => serve hm m tag 0x0B06 archDepart)

/-- ARCH_ROLE_SET (R631). -/
def execArchRoleSet (m : Mbx) (tag : Nat) (s : State) : Host.Outcome State Fault Refusal :=
  onAll s (fun hm => serve hm m tag 0x0B07 archRoleSet)

/-- ARCH_SET_BIND (R611). -/
def execArchSetBind (m : Mbx) (tag : Nat) (s : State) : Host.Outcome State Fault Refusal :=
  onAll s (fun hm => serve hm m tag 0x0B08 archSetBind)

/-- ARCH_SET_UNBIND (R613). -/
def execArchSetUnbind (m : Mbx) (tag : Nat) (s : State) : Host.Outcome State Fault Refusal :=
  onAll s (fun hm => serve hm m tag 0x0B09 archSetUnbind)

/-- ARCH_CENSUS (R628). -/
def execArchCensus (m : Mbx) (tag : Nat) (s : State) : Host.Outcome State Fault Refusal :=
  onAll s (fun hm => serve hm m tag 0x0B0A archCensus)

/-- ARCH_CENSUS_READ (R630). -/
def execArchCensusRead (m : Mbx) (tag : Nat) (s : State) : Host.Outcome State Fault Refusal :=
  onAll s (fun hm => serve hm m tag 0x0B0B archCensusRead)

/-- LINK_CONTROL (R604). -/
def execLinkControl (m : Mbx) (tag : Nat) (s : State) : Host.Outcome State Fault Refusal :=
  onAll s (fun hm => serve hm m tag 0x0B0C linkControl)

end Sys2Proof.Machine
end

