-- ==== Sys2Proof/Machine/EdgeRows.lean ====
section
/-! DEFINITION. Root ports, devices and general pins (chapter 21): hot-plug, CXL loss, IDE and TDISP, inbound device requests, device
errors, the switching of pins, and the events of the package's other buses and pins. -/
namespace Sys2Proof.Machine

/-! ### Ports and functions -/

/-- Replace a root port. -/
def setPort (h : Hw) (n : Nat) (x : RootPort) : Hw := { h with edges := { h.edges with ports := tabPut {} h.edges.ports n x } }

/-- A PCIe function. -/
def funcAt (h : Hw) (f : Nat) : Func := tabGet {} h.edges.funcs f

/-- Replace a PCIe function. -/
def setFunc (h : Hw) (f : Nat) (x : Func) : Hw := { h with edges := { h.edges with funcs := tabPut {} h.edges.funcs f x } }

/-- Functions known behind a port. -/
def funcsOn (h : Hw) (n : Nat) : List Nat := (h.edges.funcs.filter (fun e => decide (e.2.port = n))).map (·.1)

/-- Whether a function is assigned to a tenant. -/
def tenantFunc (h : Hw) (f : Nat) : Bool := let o := (unitAt h 9 f).owner; decide (1 ≤ o ∧ o ≤ 16)

/-- Whether a function's device can be reached: it is known, and its port's link is up. -/
def devThere (h : Hw) (f : Nat) : Bool :=
  h.edges.funcs.any (fun e => decide (e.1 = f)) && (portAt h (funcAt h f).port).up && !(portAt h (funcAt h f).port).contained

/-- A record due to several partitions: one to the Steward queue and the log, and a copy to each partition's queue. -/
def recordEach (h : Hw) (r : FaultRec) (ps : List Nat) : Hw :=
  match ps with
  | [] => recordWrite h { r with part := 0xFF }
  | p :: rest =>
    let stamp : FaultRec := { r with tb := h.tb.now, position := h.ident.position, holdover := h.tb.holdover, unsynced := h.tb.unsynced,
                                     degraded := logDegraded h }
    rest.foldl (fun h q => if logLost h then h else queueWrite h q { stamp with part := q }) (recordWrite h { r with part := p })

/-! ### General pins -/

/-- A general pin. -/
def pinAt (h : Hw) (n : Nat) : Pin := tabGet {} h.edges.pins n

/-- Replace a general pin. -/
def setPin (h : Hw) (n : Nat) (x : Pin) : Hw := { h with edges := { h.edges with pins := tabPut {} h.edges.pins n x } }

/-- Whether a pin carries a slot function of a root port and is not being switched. -/
def carries (p : Pin) (fn port : Nat) : Bool := decide (p.fn = fn ∧ p.arg = port ∧ p.step = 0)

/-- Whether some pin carries a slot function of a root port. -/
def hasPin (h : Hw) (fn port : Nat) : Bool := h.edges.pins.any (fun e => carries e.2 fn port)

/-- Drive the pins that carry an output function of a slot. -/
def drivePins (h : Hw) (fn port : Nat) (level : Bool) : Hw :=
  { h with edges := { h.edges with pins := tabMap {} h.edges.pins (fun _ p => if carries p fn port then { p with level := level } else p) } }

/-- Pull that a function applies during the neutral window (Table 21.6): what the pad settles to, its own level where there is none. -/
def pinPull (fn value : Nat) (level : Bool) : Bool := if fn = 0x0B ∨ fn = 0x0C then level else pinIdle fn value level

/-- Whether a function drives its pad (Table 21.6, column Direction). -/
def pinDrives (fn : Nat) : Bool := decide (fn = 0x02 ∨ fn = 0x05 ∨ fn = 0x08 ∨ fn = 0x0A)

/-- BUS_IDLE (R667 step 1): the transaction of the pin's function ends, a pulse 100 µs after it rose; a waiting switch goes on. -/
def busIdle (h : Hw) (n : Nat) : Hw :=
  let p := pinAt h n
  if !p.busy then h
  else
    let h1 := if p.fn = 0x05 then advanceTo h (p.pulse + 100000) else h
    let q : Pin := { p with busy := false, level := if p.fn = 0x05 then false else p.level }
    setPin h1 n (if q.step = 1 then { q with step := 2, since := h1.tb.now } else q)

/-- PIN_FORCED (R667 step 1): 1 ms has passed and the bus is not idle. -/
def pinForced (h : Hw) (n : Nat) : Hw :=
  let p := pinAt h n
  if p.step ≠ 1 ∨ p.busy = false ∨ (p.fn ≠ 0x0B ∧ p.fn ≠ 0x0C ∧ p.fn ≠ 0x0D) then h
  else
    let h1 := advanceTo h (p.since + ms)
    recordWrite (setPin h1 n { p with busy := false, step := 2, since := h1.tb.now })
      { type := 0x0A08, cls := 0, part := 0xFF, arg0 := n, arg1 := p.fn }

/-- NEUTRAL_WINDOW_OPEN (R667 steps 2 and 3): the pad's level has held for 4 µs; the driver is off and the new pull, or the board's, gives
the level. -/
def windowOpens (h : Hw) (n : Nat) (ext : Option Bool) : Hw :=
  let p := pinAt h n
  if p.step ≠ 2 then h
  else
    let h1 := advanceTo h (p.since + 4000)
    setPin h1 n { p with step := 3, since := h1.tb.now, asserted := false, level := ext.getD (pinPull p.newFn p.newVal p.level) }

/-- PIN_SWITCH_WINDOW_END (R667 steps 3 and 4): the new function drives its idle level for 1 µs, and the switch has ended. -/
def windowEnds (h : Hw) (n : Nat) : Hw :=
  let p := pinAt h n
  if p.step ≠ 3 then h
  else
    let h1 := advanceTo h (p.since + 5000)
    let q : Pin := { fn := p.newFn, value := p.newVal, arg := p.newArg, locked := p.locked, fired := p.fired,
                     level := if pinDrives p.newFn then pinIdle p.newFn p.newVal p.level else p.level }
    endWaits (setPin h1 n q) (fun r => decide (r.wait = Wait.pin n)) 0 0

/-- TIME_PULSE (Table 21.6): the pin rises at the next multiple of PERIOD; no new pulse begins once a switch has (R667 step 1). -/
def timePulse (h : Hw) (n : Nat) : Hw :=
  let p := pinAt h n
  if p.fn ≠ 0x05 ∨ p.step ≠ 0 ∨ p.busy ∨ p.arg = 0 then h
  else
    let t : Nat := (h.tb.now / p.arg + 1) * p.arg
    setPin (advanceTo h t) n { p with level := true, busy := true, pulse := t, fired := p.fired + 1 }

/-- IRQ_IN (R205, Table 21.6): the pad's level and whether its source is asserted under its polarity; an assertion is APLIC source
(n mod 16) + 1 of its C-die, delivered by MSI. During a switch only idle levels are seen. With `wired` it is an internal wired source of a
C-die that is asserted instead, a source above the sixteen of the pins. -/
def irqIn (h : Hw) (n : Nat) (level asserted : Bool) (wired : Option (Nat × Nat)) : Hw :=
  match wired with
  | some w => if asserted && decide (w.1 < 2 ∧ 16 < w.2 ∧ w.2 ≤ 64) then aplicRaise h w.1 w.2 else h
  | none =>
    let p := pinAt h n
    if p.fn ≠ 0x03 ∨ p.step ≠ 0 ∨ n ≥ 32 then h
    else
      let h1 := setPin h n { p with level := level, asserted := asserted, fired := if asserted && !p.asserted then p.fired + 1 else p.fired }
      if asserted && !p.asserted then aplicRaise h1 (n / 16) (n % 16 + 1) else h1

/-- WAKE_N (Table 21.6, Table 5.7): the pin has been low for 1 ms; a Dormant package wakes, `found` as in DORMANT_EXIT. -/
def wakePin (h : Hw) (n : Nat) (found : WakeTrain) : Hw :=
  let p := pinAt h n
  if p.fn ≠ 0x04 ∨ p.step ≠ 0 then h
  else
    let h1 := setPin (advanceTo h (h.tb.now + ms)) n { p with level := false }
    dormantExit h1 .pin found

/-! ### Slots (R649 to R651, Table 21.3) -/

/-- HOTPLUG_ADD: the next event of Table 21.3 for a slot. -/
def hotplugAdd (h : Hw) (n rate width : Nat) : Hw :=
  let x := portAt h n
  if !x.exists_ || !x.isSlot || x.hotReset || !h.start.ports || decide (h.start.st = PowerSt.off ∨ h.start.st = PowerSt.dormant) then h
  else match x.slot with
  | .empty => setPort h n { x with slot := .debounced, slotAt := h.tb.now }
  | .debounced =>
    if x.held then h
    else
      let h1 := advanceTo h (x.slotAt + ms)
      drivePins (setPort h1 n { x with slot := .powered }) 0x08 n true
  | .powered =>
    let h1 := advanceTo h (x.slotAt + 201 * ms)
    drivePins (setPort h1 n { x with slot := .perst, training := true }) 0x0A n true
  | .perst =>
    let h1 := advanceTo h (x.slotAt + 301 * ms)
    recordWrite (setPort h1 n { x with slot := .up, up := true, training := false, contained := false, rate := rate, width := width })
      { type := 0x0A02, cls := 0, part := 0xFF, unitKind := 11, unit := n }
  | _ => h

/-- First local addresses of the 4 KiB granules that a port serves, under one decoder (R647). -/
def decoderGranules (d : HdmDecoder) (n : Nat) : List Nat :=
  ((List.range (d.count * 512)).filter (fun g => decide (d.ports[g % d.ports.length]? = some n))).map (fun g => d.first + g * 4096)

/-- The granules a port serves under every decoder. -/
def portGranules (h : Hw) (n : Nat) : List Nat := h.edges.decoders.flatMap (fun e => if e.2.used then decoderGranules e.2 n else [])

/-- Every cached copy of a line goes, its dirty data with it, and its home marks it poisoned. -/
def loseLine (h : Hw) (line : Nat) : Hw :=
  let h1 := invalidateLine h line
  { h1 with coh := { h1.coh with poison := tabPut false h1.coh.poison line true } }

/-- What a CXL port serves is lost (R648): its lines are poisoned, and each partition owning an affected range gets the record. -/
def loseGranules (h : Hw) (n : Nat) : Hw :=
  let gs := portGranules h n
  let lines := gs.flatMap (fun g => (List.range 64).map (fun i => g / 64 + i))
  let ps := ((gs.map (fun g => (swatchAt h g).owner)).filter (fun o => decide (o ≤ 16))).eraseDups
  recordEach (lines.foldl loseLine h) { type := 0x0A07, cls := 2, unitKind := 11, unit := n, arg0 := lines.length } ps

/-- The link of a port `x` has gone down: what a CXL port served is lost (R648). -/
def linkGone (h : Hw) (x : RootPort) (n : Nat) : Hw := if x.cxl && x.up then loseGranules h n else h

/-- Slot power and reset are taken away, and the link goes down. -/
def slotPowerOff (h : Hw) (n : Nat) : Hw :=
  let x := portAt h n
  drivePins (drivePins (setPort h n { x with up := false, training := false }) 0x0A n false) 0x08 n false

/-- SLOT_POWER_FAULT (Table 21.3, t0 + 101 ms). -/
def slotPowerFault (h : Hw) (n : Nat) : Hw :=
  let x := portAt h n
  if x.slot ≠ SlotSt.powered ∨ hasPin h 0x09 n = false then h
  else
    let h1 := drivePins (advanceTo h (x.slotAt + 101 * ms)) 0x08 n false
    recordWrite (setPort h1 n { x with slot := .faulted }) { type := 0x0A04, cls := 0, part := 0xFF, unitKind := 11, unit := n }

/-- Every TDISP interface behind a port goes to ERROR. -/
def errorPort (h : Hw) (n : Nat) : Hw :=
  { h with edges := { h.edges with funcs := tabMap {} h.edges.funcs (fun _ f => if f.port = n then { f with tdisp := .error } else f) } }

/-- HOTPLUG_REMOVE (R650): surprise removal. -/
def hotplugRemove (h : Hw) (n : Nat) : Hw :=
  let x := portAt h n
  if !x.isSlot || decide (x.slot = SlotSt.empty) then h
  else
    let fs := funcsOn h n
    let ps := ((fs.map (fun f => (unitAt h 9 f).owner)).filter (fun o => decide (o ≤ 16))).eraseDups
    let h1 := errorPort (slotPowerOff h n) n
    linkGone (recordEach (setPort h1 n { portAt h1 n with contained := true, slot := .empty })
      { type := 0x0A03, cls := 0, unitKind := 11, unit := n, arg0 := fs.length } ps) x n

/-- SLOT_BUTTON (R651). -/
def slotButton (h : Hw) (n : Nat) : Hw :=
  if (portAt h n).isSlot && hasPin h 0x07 n then recordWrite h { type := 0x0A05, cls := 0, part := 0xFF, unitKind := 11, unit := n } else h

/-! ### Links of ports that are no slots -/

/-- ROOT_PORT_LINK_UP (Table 5.1, R660): a port's link finishes training. -/
def portUp (h : Hw) (n rate width : Nat) : Hw :=
  let x := portAt h n
  if !x.exists_ || x.hotReset || !(x.training || x.contained) || (x.isSlot && decide (x.slot ≠ SlotSt.up)) ||
      decide ((islandAt h { kind := .rootPort, idx := n / 4 }).power ≠ IslandPower.open) then h
  else setPort h n { x with up := true, training := false, contained := false, rate := rate, width := width }

/-- ROOT_PORT_LINK_DOWN (R645, R648): the link of a port that is no slot goes down, or DPC contains it. -/
def portDown (h : Hw) (n : Nat) (dpc : Bool) : Hw :=
  let x := portAt h n
  if !x.up || x.isSlot then h else linkGone (setPort h n { x with up := false, contained := dpc, training := !dpc }) x n

/-! ### CXL loss (R648) -/

/-- CXL_PORT_LOST: a CXL port's link goes down, or its device reports media failure. -/
def cxlLost (h : Hw) (n : Nat) (media : Bool) : Hw :=
  let x := portAt h n
  if !x.exists_ || !x.cxl || (media && x.mediaBad) || (!media && !x.up) then h
  else
    loseGranules (setPort h n (if media then { x with mediaBad := true } else { x with up := false, training := !x.isSlot })) n

/-! ### IDE and TDISP (R653, R655 to R657) -/

/-- IDE_FAIL: an IDE integrity failure, or a TDISP error the device reports, sends the interface to ERROR; the former is recorded. -/
def ideFail (h : Hw) (f : Nat) (integrity : Bool) : Hw :=
  let x := funcAt h f
  if x.ide ≠ 1 then h
  else
    let o := (unitAt h 9 f).owner
    let h1 := setFunc h f { x with tdisp := .error, ide := if integrity then 2 else x.ide }
    if integrity then
      recordWrite h1 { type := 0x0A06, cls := 1, part := if o ≤ 16 then o else 0xFF, unitKind := 9, unit := f, arg0 := x.stream }
    else h1

/-- IDE_KEY_REFRESH (R653): every stream's keys are refreshed. -/
def ideRefresh (h : Hw) : Hw :=
  { h with edges := { h.edges with funcs := tabMap {} h.edges.funcs (fun _ f => if f.ide = 1 then { f with keys := f.keys + 1 } else f) } }

/-! ### Inbound requests (R644, R656) -/

/-- The partition under whose tag a function's request is checked, where selvedge step 1 admits it: the function has an owner that is
not Fenced, and a tenant's function is in RUN and uses its own selective stream. -/
def funcTag (h : Hw) (f : Nat) (stream : Option Nat) : Option Nat :=
  let u := unitAt h 9 f
  let x := funcAt h f
  if u.state ≠ UnitState.owned ∨ u.owner > 16 ∨ partFenced h u.owner then none
  else if u.owner = 0 then some 0
  else if x.tdisp = Tdisp.run ∧ x.ide = 1 ∧ stream = some x.stream then some u.owner
  else none

/-- A device's request is refused (Table 3.5): Unsupported Request to a read, a write or an atomic is discarded; counted and recorded for the
partition owning the function. -/
def refuseDevice (h : Hw) (f ca : Nat) (read : Bool) : Hw :=
  let o := (unitAt h 9 f).owner
  let h1 := if o ≤ 16 then refuseEngine h o (2 ^ 60 + ca) noDesc else h
  answerWith h1 [] (if read then 3 else 0)

/-- The pieces of an access at swatch boundaries (R219): offset and length of each. -/
def swatchCuts (a n : Nat) : List (Nat × Nat) :=
  if n = 0 then []
  else (List.range (swatchOf (a + n - 1) - swatchOf a + 1)).map (fun i =>
    let s := max a ((swatchOf a + i) * 2 ^ 21)
    (s - a, min (a + n) ((swatchOf a + i + 1) * 2 ^ 21) - s))

/-- One piece of a device's read, after the pieces before it; nothing follows a refused piece in the answer. -/
def deviceReadPiece (f p ca : Nat) (acc : HM × List Byte × Nat) (c : Nat × Nat) : HM × List Byte × Nat :=
  let r := engineRead acc.1 4 p true (ca + c.1) c.2
  let ok := decide (acc.2.2 ≠ 3)
  match r.2.v with
  | .ok | .remote | .dead => (r.1, if ok then acc.2.1 ++ r.2.bytes else acc.2.1, if r.2.poison && decide (acc.2.2 = 0) then 2 else acc.2.2)
  | .off => (r.1, if ok then acc.2.1 ++ r.2.bytes else acc.2.1, if acc.2.2 = 3 then 3 else 4)
  | _ => ((refuseDevice r.1.1 f (ca + c.1) true, r.1.2), acc.2.1, 3)

/-- One piece of a device's posted write; behind a gated island it is discarded, counted and recorded (R76, R77). -/
def deviceWritePiece (f p ca : Nat) (bs : List Byte) (poison : Bool) (hm : HM) (c : Nat × Nat) : HM :=
  let r := engineWrite hm p (ca + c.1) ((bs.drop c.1).take c.2) poison
  match r.2 with
  | .ok | .remote | .dead => r.1
  | .off => (discardPosted r.1.1 p (ca + c.1), r.1.2)
  | _ => (refuseDevice r.1.1 f (ca + c.1) false, r.1.2)

/-- The operation of Table 13.10 that a PCIe AtomicOp is (Table 21.1), and whether its size is one the completer takes. -/
def devAtomic (op size : Nat) : Option Nat :=
  match op with
  | 1 => if size = 4 ∨ size = 8 then some 1 else none
  | 2 => if size = 4 ∨ size = 8 then some 5 else none
  | 3 => if size = 4 ∨ size = 8 ∨ size = 16 then some 10 else none
  | _ => none

/-- An admitted memory request of a device at a compact address. -/
def deviceAccess (hm : HM) (f p ca : Nat) (q : InReq) : HM :=
  let h := hm.1
  let a := compactLocal ca
  let o := offsetOf a
  let ur : HM := (answerWith h [] 3, hm.2)
  if regionOf a = 3 then
    match q with
    | .write bs _ =>
      if decide (bs.length ≠ 4 ∨ o % 4 ≠ 0 ∨ o ≥ 17 * 2 ^ 24 ∨ o % 2 ^ 24 < 0xC00000) then ur
      else if !isLocal h ca then let r := deviceWritePiece f p ca bs false hm (0, 4); (answerWith r.1 [] 0, r.2)
      else if o / 2 ^ 24 ≠ p then (refuseDevice h f ca false, hm.2)
      else windowStore hm p (o % 2 ^ 24 / 8 * 8) (leNat bs) (halfAt o 4)
    | _ => ur
  else match q with
  | .read n =>
    let r := (swatchCuts ca n).foldl (deviceReadPiece f p ca) (hm, [], 0)
    (answerWith r.1.1 r.2.1 r.2.2, r.1.2)
  | .write bs poison =>
    let r := (swatchCuts ca bs.length).foldl (deviceWritePiece f p ca bs poison) hm
    (answerWith r.1 [] 0, r.2)
  | .atomic op size operand compare =>
    match devAtomic op size with
    | none => ur
    | some k =>
      if regionOf a ∈ [4, 5] ∨ a % size ≠ 0 then ur
      else match verdict h p ca size true with
      | .ok =>
        if poisoned h a then (answerWith h (zeros size) 2, hm.2)
        else
          let r := atomicAt hm true a k size operand compare
          (answerWith r.1.1 (leBytes size r.2) 0, r.1.2)
      | .remote =>
        let r := atomicAfar h p 7 ca size operand compare k
        (answerWith r.2 r.1 (if remoteStatus h p ca = 2 then 2 else 0), hm.2)
      | .dead => (answerWith h (zeros size) 2, hm.2)
      | .off => (ghostAnswer h true, hm.2)
      | _ => (refuseDevice h f ca false, hm.2)
  | _ => ur

/-- Whether a request of a device is answered with data: it waits until every earlier posted write of its function is performed (R229). -/
def reads : InReq → Bool
  | .read _ | .atomic _ _ _ _ => true
  | _ => false

/-- INBOUND_REQUEST (R644): a request of a function arrives through its root port, in a selective stream or in none. -/
def inbound (hm : HM) (f : Nat) (stream : Option Nat) (addr : Nat) (q : InReq) : HM :=
  let h := hm.1
  match q with
  | .io | .config | .translation | .pasid => (answerWith h [] 3, hm.2)
  | q =>
    if addr ≥ 2 ^ 56 then (answerWith h [] 3, hm.2)
    else match funcTag h f stream with
    | none => (refuseDevice h f addr (match q with | .read _ => true | _ => false), hm.2)
    | some p =>
      let r := deviceAccess (if reads q && actorPending h (.func f) then (holdBack h, hm.2) else hm) f p addr q
      (tagWrites r.1 (.func f), r.2)

/-! ### Device errors (R645) -/

/-- DEV_ERROR: a non-posted request to a device ends in Unsupported Request (0), Completer Abort (1) or completion timeout (2), and is
answered as poisoned data. -/
def devFails (h : Hw) (who : DevAsker) (a requester reason : Nat) : Hw :=
  if regionOf a ∉ [4, 5] ∨ reason > 2 then h
  else match windowPort h a with
  | none => h
  | some n =>
    let h1 := if reason = 2 then advanceTo h (h.tb.now + (portAt h n).timeoutMs * ms) else h
    let h2 := devErrorBy h1 a requester reason
    match who with
    | .hart x => accessFault h2 x (opFault .load) (opAccess .load) 2 0 x.ca
    | .ferry s q =>
      match findDesc (slipAt h2 s) (w32 q) with
      | some d => putDesc h2 s { d with poison := true }
      | none => h2

/-! ### Management buses, JTAG and fixed pins -/

/-- I3C_HOT_JOIN (R659): at t0 + 50 ms the target acknowledges its address, and requests Hot-Join where it holds no dynamic one. -/
def i3cHotJoin (h : Hw) : Hw :=
  if h.edges.i3cAck ∨ h.start.st = PowerSt.off then h
  else
    let h1 := advanceTo h (h.start.t0 + 50 * ms)
    let e := h1.edges
    { h1 with edges := { e with i3cAck := true, hotJoin := if e.i3cDyn then e.hotJoin else e.hotJoin + 1 } }

/-- DYNAMIC_ADDRESS_ASSIGNMENT (R659): none is acknowledged before t0 + 50 ms. -/
def i3cAddress (h : Hw) (addr : Nat) : Hw :=
  if h.tb.now < h.start.t0 + 50 * ms ∨ h.start.st = PowerSt.off then h
  else { h with edges := { h.edges with i3cAck := true, i3cDyn := true, i3cAddr := addr % 128 } }

/-- TAP_INSTRUCTION (R111, R664): outside Bench mode only BYPASS (0) and IDCODE (1) act, another instruction acts as BYPASS; every
instrument-network segment is locked out of the scan path; and a wrapper instruction of a test path, none of which is Cralu's own, is
refused. -/
def tapInstruction (h : Hw) (op : TapOp) : Hw :=
  let e := h.edges
  match op with
  | .ir n => { h with edges := { e with tapIr := if h.ident.bench then n else if n = 1 then 1 else 0 } }
  | .segment n on_ =>
    { h with edges := { e with tapSegs := if !h.ident.bench then [] else if on_ && !(decide (n ∈ e.tapSegs)) then e.tapSegs ++ [n]
                                          else if on_ then e.tapSegs else e.tapSegs.filter (· ≠ n) } }
  | .wrapper site ins =>
    if !h.ident.bench then { h with edges := { e with wrapBad := e.wrapBad + 1 } }
    else if h.ident.sites.getD site .ldie = .stack then { h with edges := { e with wrapIr := tabPut 0 e.wrapIr site (ins + 1) } }
    else h

/-- MODULE_ATTENTION (Table 21.5): ATTN_N has been low for 20 ms. -/
def moduleAttention (h : Hw) : Hw :=
  if h.start.st = PowerSt.off then h else recordWrite (advanceTo h (h.tb.now + 20 * ms)) { type := 0x0A0B, cls := 0, part := 0xFF }

/-! ### The rows -/

/-- HOTPLUG_ADD (R649). -/
def execHotplugAdd (port rate width : Nat) (s : State) : Host.Outcome State Fault Refusal := onHw s (fun h => hotplugAdd h port rate width)

/-- SLOT_POWER_FAULT (R649). -/
def execSlotPowerFault (port : Nat) (s : State) : Host.Outcome State Fault Refusal := onHw s (fun h => slotPowerFault h port)

/-- HOTPLUG_REMOVE (R650). -/
def execHotplugRemove (port : Nat) (s : State) : Host.Outcome State Fault Refusal := onHw s (fun h => hotplugRemove h port)

/-- SLOT_BUTTON (R651). -/
def execSlotButton (port : Nat) (s : State) : Host.Outcome State Fault Refusal := onHw s (fun h => slotButton h port)

/-- ROOT_PORT_LINK_UP (R156). -/
def execRootPortLinkUp (port rate width : Nat) (s : State) : Host.Outcome State Fault Refusal := onHw s (fun h => portUp h port rate width)

/-- ROOT_PORT_LINK_DOWN (R645). -/
def execRootPortLinkDown (port : Nat) (dpc : Bool) (s : State) : Host.Outcome State Fault Refusal := onHw s (fun h => portDown h port dpc)

/-- CXL_PORT_LOST (R648). -/
def execCxlPortLost (port : Nat) (media : Bool) (s : State) : Host.Outcome State Fault Refusal := onHw s (fun h => cxlLost h port media)

/-- IDE_FAIL (R657). -/
def execIdeFail (func : Nat) (integrity : Bool) (s : State) : Host.Outcome State Fault Refusal := onHw s (fun h => ideFail h func integrity)

/-- IDE_KEY_REFRESH (R653). -/
def execIdeKeyRefresh (s : State) : Host.Outcome State Fault Refusal := onHw s ideRefresh

/-- INBOUND_REQUEST (R644); it ends Idle or Drowse (Table 5.7). -/
def execInboundRequest (func : Nat) (stream : Option Nat) (addr : Nat) (req : InReq) (s : State) : Host.Outcome State Fault Refusal :=
  onAll s (waiting (fun hm => inbound (stir hm.1, hm.2) func stream addr req))

/-- DEV_ERROR (R645): who asked, the local address, the PCIe requester ID and how the request ended. -/
def execDevError (who : DevAsker) (addr requester reason : Nat) (s : State) : Host.Outcome State Fault Refusal :=
  onHw s (fun h => devFails h who addr requester reason)

/-- PIN_SWITCH_WINDOW_END (R667). -/
def execPinSwitchWindowEnd (pin : Nat) (s : State) : Host.Outcome State Fault Refusal := onHw s (fun h => windowEnds h pin)

/-- PIN_FORCED (R667). -/
def execPinForced (pin : Nat) (s : State) : Host.Outcome State Fault Refusal := onHw s (fun h => pinForced h pin)

/-- BUS_IDLE (R667). -/
def execBusIdle (pin : Nat) (s : State) : Host.Outcome State Fault Refusal := onHw s (fun h => busIdle h pin)

/-- NEUTRAL_WINDOW_OPEN (R667): the level the board's pull or driver gives, where it does. -/
def execNeutralWindowOpen (pin : Nat) (ext : Option Bool) (s : State) : Host.Outcome State Fault Refusal := onHw s (fun h => windowOpens h pin ext)

/-- TIME_PULSE (R666). -/
def execTimePulse (pin : Nat) (s : State) : Host.Outcome State Fault Refusal := onHw s (fun h => timePulse h pin)

/-- IRQ_IN (R205). -/
def execIrqIn (pin : Nat) (level asserted : Bool) (wired : Option (Nat × Nat)) (s : State) : Host.Outcome State Fault Refusal :=
  onHw s (fun h => irqIn h pin level asserted wired)

/-- WAKE_N (R666). -/
def execWakeN (pin : Nat) (found : WakeTrain) (s : State) : Host.Outcome State Fault Refusal := onHw s (fun h => wakePin h pin found)

/-- I3C_HOT_JOIN (R659). -/
def execI3cHotJoin (s : State) : Host.Outcome State Fault Refusal := onHw s i3cHotJoin

/-- DYNAMIC_ADDRESS_ASSIGNMENT (R659). -/
def execDynamicAddressAssignment (addr : Nat) (s : State) : Host.Outcome State Fault Refusal := onHw s (fun h => i3cAddress h addr)

/-- TAP_INSTRUCTION (R111). -/
def execTapInstruction (op : TapOp) (s : State) : Host.Outcome State Fault Refusal := onHw s (fun h => tapInstruction h op)

/-- MODULE_ATTENTION (R665). -/
def execModuleAttention (s : State) : Host.Outcome State Fault Refusal := onHw s moduleAttention

end Sys2Proof.Machine
end

