-- ==== Sys2Proof/Machine/KeepRows.lean ====
section
/-! DEFINITION. The keep-alive domain (chapter 21): its supply, cell and charger, real-time clock, button, ship mode, tamper inputs
and lamp. -/
namespace Sys2Proof.Machine

/-- The real-time clock as it reads now. -/
def rtcNow (h : Hw) : Nat := h.keep.rtc + (h.tb.now - h.keep.rtcAt)

/-- Set the real-time clock. -/
def rtcWrite (h : Hw) (t : Nat) : Hw := { h with keep := { h.keep with rtc := t, rtcAt := h.tb.now, rtcValid := true } }

/-- RTC_COPY (R672): a time base that is synced and not in HOLDOVER is copied into the clock. -/
def rtcCopy (h : Hw) : Hw :=
  if !h.keep.powered || h.tb.unsynced || h.tb.holdover || decide (h.start.st = PowerSt.off) then h else rtcWrite h h.tb.now

/-- RTC_ALARM (R673): the clock reaches the alarm instant; the alarm clears itself and wakes a Dormant package. -/
def rtcAlarm (h : Hw) (found : WakeTrain) : Hw :=
  if !h.keep.powered || decide (h.keep.alarm = 0) then h
  else
    let h1 := advanceTo h (h.tb.now + (h.keep.alarm - rtcNow h))
    dormantExit { h1 with keep := { h1.keep with alarm := 0 } } .alarm found

/-- Whether every enabled tamper input has been deasserted for its debounce time (R679). -/
def tamperQuiet (h : Hw) : Bool :=
  (List.range 4).all (fun i => !bitOf h.keep.enables i ||
    (!bitOf h.keep.inputs i && decide (h.keep.risen.getD i 0 + h.keep.debounce.getD i 10 * ms ≤ h.tb.now)))

/-- A clear press (R679). -/
def clearPress (h : Hw) : Hw :=
  if h.keep.latch = 0 ∨ tamperQuiet h = false then h
  else flushKeep { h with keep := { h.keep with latch := 0, cleared := some h.keep.latch, clearedAt := some h.tb.now } }

/-- KA_BTN_RELEASE (R674, Table 21.8): a press of `held` ms is classed. -/
def buttonRelease (h : Hw) (held : Nat) : Hw :=
  if !h.keep.powered then
    if h.keep.ship && decide (100 ≤ held) && decide (2200 ≤ h.keep.cellMv) then restartKeep h else h
  else if 2000 ≤ held ∧ held ≤ 6000 then clearPress h
  else h

/-- KA_BTN_HOLD (R674, R675): held for 8 s; a KR at that instant. -/
def buttonHold (h : Hw) : Hw := if h.keep.powered || (h.keep.ship && decide (2200 ≤ h.keep.cellMv)) then restartKeep h else h

/-- TAMPER (R677, R678): an enabled input is asserted. -/
def tamper (h : Hw) (n : Nat) : Hw :=
  let k := h.keep
  if !k.powered || decide (n ≥ 4) || !bitOf k.enables n || bitOf k.inputs n then h
  else
    let h1 := { h with keep := { k with inputs := k.inputs ||| 2 ^ n, latch := k.latch ||| 2 ^ n, tampers := min 255 (k.tampers + 1),
                                        sealKey := k.sealNext, sealNext := k.sealNext + 1 } }
    if h.start.st = PowerSt.off then h1 else doubt h1 (.tamper n)

/-- TAMPER_DEASSERTED (R679): an input returns high. -/
def tamperHigh (h : Hw) (n : Nat) : Hw :=
  if n ≥ 4 ∨ h.keep.powered = false then h
  else { h with keep := { h.keep with inputs := setField h.keep.inputs n n 0, risen := h.keep.risen.set n h.tb.now } }

/-- VKA_FALL (R669, R676): VKA is below 2.9 V; the cell carries the domain, unless ship mode opens the switch or the cell is too low. -/
def vkaFall (h : Hw) : Hw :=
  let k := h.keep
  if !k.vka then h
  else if k.ship || decide (k.cellMv < 2200) then { h with keep := { k with vka := false, powered := false, open_ := true, phase := 0, kaLost := true } }
  else { h with keep := { k with vka := false, phase := 0 } }

/-- VKA_RETURN (R669, R676): VKA has been at least 2.9 V for 10 ms; a domain that had lost power restarts as after a KR. -/
def vkaReturn (h : Hw) : Hw :=
  if h.keep.vka then h
  else
    let h1 := advanceTo h (h.tb.now + 10 * ms)
    let h2 := { h1 with keep := { h1.keep with vka := true } }
    if h2.keep.powered then h2 else restartKeep h2

/-- CELL_BELOW_HOLD (R669): with VKA absent the cell falls below 2.2 V, and the switch opens. -/
def cellLow (h : Hw) (mv : Nat) : Hw :=
  if h.keep.vka || !h.keep.powered || decide (mv ≥ 2200) then h
  else { h with keep := { h.keep with cellMv := mv, powered := false, open_ := true, kaLost := true } }

/-- Whether the charger runs (R670). -/
def chargerOn (h : Hw) : Bool := h.keep.vka && h.keep.powered && h.keep.chgOn && decide (h.keep.cellBad = 0)

/-- Whether the cell is being charged. -/
def charging (k : KeepAlive) : Bool := decide (1 ≤ k.phase ∧ k.phase ≤ 3)

/-- CHARGE_PHASE (R670): the cell reads `mv`; `tail`: the current has fallen below ICC / 10. A charged cell is charged again once it has
fallen 100 mV below VCV. -/
def chargePhase (h : Hw) (mv : Nat) (tail : Bool) : Hw :=
  let k := { h.keep with cellMv := mv }
  if !chargerOn h then h
  else
    let n := match k.phase with
      | 0 => if mv < 2500 then 1 else if mv < k.vcv then 2 else 3
      | 1 => if mv < 2500 then 1 else 2
      | 2 => if mv < 2500 then 1 else if mv ≥ k.vcv then 3 else 2
      | 3 => if tail then 4 else 3
      | _ => if mv + 100 ≤ k.vcv then (if mv < 2500 then 1 else 2) else 4
    { h with keep := { k with phase := n, phaseAt := if n = k.phase then k.phaseAt else h.tb.now } }

/-- CELL_FAULT (R671): causes 1 precharge for 2 h, 2 constant current for 48 h, 3 overvoltage, 4 no cell. -/
def cellFault (h : Hw) (cause mv : Nat) : Hw :=
  let k := h.keep
  let hit := match cause with
    | 1 => decide (k.phase = 1)
    | 2 => decide (k.phase = 2)
    | 3 => decide (k.vcv + 200 < mv)
    | 4 => decide (mv < 1000)
    | _ => false
  if !chargerOn h || !hit then h
  else
    let h1 := if cause = 1 then advanceTo h (k.phaseAt + 7200 * second) else if cause = 2 then advanceTo h (k.phaseAt + 172800 * second) else h
    flushKeep { h1 with keep := { h1.keep with cellBad := cause, cellRec := cause, phase := 0, cellMv := mv } }

/-- The row of Table 21.9 that the lamp shows (R680): 0 dark, because VKA does not power the domain. -/
def lampRow (h : Hw) : Nat :=
  let k := h.keep
  if !k.vka || !k.powered then 0
  else if k.lamp && bitOf k.lastWord.toNat 19 then 1
  else if k.lamp then 2
  else if k.latch ≠ 0 then 3
  else if (match k.clearedAt with | some t => decide (h.tb.now < t + second) | none => false) then 4
  else if k.cellBad ≠ 0 then 5
  else if k.ship then 6
  else if charging k then 7
  else match h.start.st with
    | .active | .idle | .drowse => 8
    | .dormant => 9
    | .off => 10

/-! ### The rows -/

/-- RTC_COPY (R672). -/
def execRtcCopy (s : State) : Host.Outcome State Fault Refusal := onHw s rtcCopy

/-- RTC_ALARM (R673): whether a wake's retraining passes and its image verifies. -/
def execRtcAlarm (found : WakeTrain) (s : State) : Host.Outcome State Fault Refusal := onHw s (fun h => rtcAlarm h found)

/-- KA_BTN_RELEASE (R674). -/
def execKaBtnRelease (heldMs : Nat) (s : State) : Host.Outcome State Fault Refusal := onHw s (fun h => buttonRelease h heldMs)

/-- KA_BTN_HOLD (R674). -/
def execKaBtnHold (s : State) : Host.Outcome State Fault Refusal := onHw s buttonHold

/-- TAMPER (R678). -/
def execTamper (input : Nat) (s : State) : Host.Outcome State Fault Refusal := onHw s (fun h => tamper h input)

/-- TAMPER_DEASSERTED (R679). -/
def execTamperDeasserted (input : Nat) (s : State) : Host.Outcome State Fault Refusal := onHw s (fun h => tamperHigh h input)

/-- VKA_FALL (R669). -/
def execVkaFall (s : State) : Host.Outcome State Fault Refusal := onHw s vkaFall

/-- VKA_RETURN (R676). -/
def execVkaReturn (s : State) : Host.Outcome State Fault Refusal := onHw s vkaReturn

/-- CELL_BELOW_HOLD (R669): the cell's reading in mV. -/
def execCellBelowHold (mv : Nat) (s : State) : Host.Outcome State Fault Refusal := onHw s (fun h => cellLow h mv)

/-- CHARGE_PHASE (R670): the cell's reading in mV, and whether the current has fallen below ICC / 10. -/
def execChargePhase (mv : Nat) (tail : Bool) (s : State) : Host.Outcome State Fault Refusal := onHw s (fun h => chargePhase h mv tail)

/-- CELL_FAULT (R671): its cause and the cell's reading in mV. -/
def execCellFault (cause mv : Nat) (s : State) : Host.Outcome State Fault Refusal := onHw s (fun h => cellFault h cause mv)

end Sys2Proof.Machine
end

