-- ==== Sys2Proof/Machine/EdgeCmds.lean ====
section
/-! DEFINITION. The commands of groups 0x0C and 0x0F (Tables 24.11 and 24.14) and the device commands of group 0x02 (Table 24.3). -/
namespace Sys2Proof.Machine

/-! ### Devices (R654, R655) -/

/-- TDISP_STATE (Table 24.3). -/
def tdispCode : Tdisp → Nat
  | .unlocked => 0 | .locked => 1 | .run => 2 | .error => 3

/-- DEV_REPORT_GET (R655): the device's interface report and its signed measurements come from the device. -/
def devReportGet (m : Mbx) (report meas : List Byte) (hm : HM) (r : Req) : HM × Reply :=
  let h := hm.1
  let f := leAt r.payload 0 4
  let x := funcAt h f
  let own := match m with | .part p => decide ((unitAt h 9 f).owner = p) | _ => true
  if !own then (hm, deny 0x21 0)
  else if !devThere h f then (hm, deny 0x20 0x100)
  else (hm, doneQ (leBytes 1 (tdispCode x.tdisp) ++ leBytes 1 x.ide ++ zeros 2 ++ leBytes 4 report.length ++ leBytes 4 meas.length ++ zeros 4
    ++ (r.payload.drop 8).take 32 ++ report ++ meas))

/-- DEV_ACCEPT (R655). -/
def devAccept (m : Mbx) (hm : HM) (r : Req) : HM × Reply :=
  let h := hm.1
  let f := leAt r.payload 0 4
  let x := funcAt h f
  if (unitAt h 9 f).owner ≠ actsFor m then (hm, deny 0x21 0)
  else if !devThere h f then (hm, deny 0x20 0x101)
  else if x.tdisp ≠ Tdisp.locked then (hm, deny 0x20 0x100)
  else ((setFunc h f { x with tdisp := .run }, hm.2), doneC)

/-- Selective streams of a port in use by functions other than one (R653). -/
def streamsUsed (h : Hw) (port f : Nat) : List Nat :=
  (h.edges.funcs.filter (fun e => decide (e.2.port = port ∧ e.1 ≠ f ∧ e.2.ide ≠ 0))).map (fun e => e.2.stream)

/-- Local addresses of the swatches of a BAR. -/
def barSwatches (b : Nat × Nat) : List Nat := (List.range b.2).map (fun i => b.1 + i * 2 ^ 21)

/-- The range table once a BAR's aperture is a partition's. -/
def barRanges (p : Nat) (rs : List ApRange) (b : Nat × Nat) : List ApRange :=
  (barSwatches b).foldl dropAperture rs ++ [{ first := b.1, count := b.2, owner := p }]

/-- Why a device's BARs may not pass to a partition: each lies in whole swatches of its port's window (R642), and is
owned by nobody else. -/
def barsBad (h : Hw) (p port : Nat) (bars : List (Nat × Nat)) : Option (Nat × Nat) :=
  if bars.any (fun b => decide (b.1 % 2 ^ 21 ≠ 0 ∨ b.2 = 0 ∨ regionOf b.1 ≠ 4 + port / 16 ∨ offsetOf b.1 + b.2 * 2 ^ 21 > 0x0FFFF0000000)
      || (barSwatches b).any (fun a => windowPort h a ≠ some port || windowPort h (a + 2 ^ 20) ≠ some port ||
        decide ((swatchAt h a).owner ≠ 31 ∧ (swatchAt h a).owner ≠ p))) then some (0x20, 0)
  else if tooManyRanges (bars.foldl (barRanges p) h.sel.ranges) then some (0x40, 0)
  else none

/-- A BAR's aperture becomes a partition's. -/
def grantBar (p : Nat) (h : Hw) (b : Nat × Nat) : Hw := { h with sel := { h.sel with ranges := barRanges p h.sel.ranges b } }

/-- DEV_ASSIGN (R654): the function is reset, attested, given a stream, locked, and passes with its apertures to the tenant. -/
def devAssign (dev : DevInfo) (hm : HM) (r : Req) : HM × Reply :=
  let h := hm.1
  let f := leAt r.payload 0 4
  let p := leAt r.payload 4 1
  let u := unitAt h 9 f
  let x := funcAt h f
  let port := portAt h dev.port
  let free := (List.range 4).find? (fun i => i ∉ streamsUsed h dev.port f)
  if p = 0 then (hm, deny 0x20 0)
  else match partCheck h .steward p with
  | some e => (hm, deny e.1 e.2)
  | none =>
    if u.state = UnitState.scrubbing ∨ u.state = UnitState.held then (hm, deny 0x11 0)
    else if u.state = UnitState.owned ∧ (u.owner ≠ p ∨ x.tdisp = Tdisp.error) then (hm, deny 0x20 0)
    else if !port.up || port.contained || decide (field f 16 16 ≠ dev.port / 16) then (hm, deny 0x20 0x100)
    else if !dev.tdisp then (hm, deny 0x20 0x101)
    else match barsBad h p dev.port dev.bars with
    | some e => (hm, deny e.1 e.2)
    | none =>
      match free with
      | none => (hm, deny 0x40 0)
      | some i =>
        let h1 := setFunc h f { port := dev.port, tdisp := .locked, ide := 1, stream := i, keys := x.keys + 1, resets := x.resets + 1, bars := dev.bars }
        let h2 := dev.bars.foldl (grantBar p) h1
        ((setUnit h2 9 f { owner := p, state := .owned }, hm.2), doneC)

/-! ### Ports (R642, R647, R651) -/

/-- STATE of PORT_STATUS. -/
def portState (x : RootPort) : Nat :=
  if x.hotReset then 4
  else if x.isSlot && decide (x.slot = SlotSt.off ∨ x.slot = SlotSt.faulted) then 5
  else if x.contained then 3
  else if x.up then 2
  else if x.training && !(x.isSlot && decide (x.slot = SlotSt.empty)) then 1
  else 0

/-- One entry of PORT_STATUS. -/
def portBytes (x : RootPort) : List Byte :=
  leBytes 1 (flag x.exists_) ++ leBytes 1 (flag x.cxl) ++ leBytes 1 x.rate ++ leBytes 1 x.width ++ leBytes 1 (portState x)
  ++ leBytes 1 (if !x.isSlot then 0 else if x.slot = SlotSt.empty then 1 else 2) ++ zeros 2 ++ leBytes 4 x.discards ++ leBytes 4 x.devErrors

/-- PORT_STATUS (R660). -/
def portStatus (hm : HM) (_ : Req) : HM × Reply := (hm, doneQ ((List.range 32).flatMap (fun n => portBytes (portAt hm.1 n))))

/-- Whether a swatch of an address range is not FREE: some range of the range table meets it. -/
def rangeHeld (h : Hw) (lo hi : Nat) : Bool := h.sel.ranges.any (fun r => decide (r.first < hi ∧ lo < r.first + r.count * 2 ^ 21))

/-- PORT_CONFIG (R642, R645, R649, R660). -/
def portConfig (hm : HM) (r : Req) : HM × Reply :=
  let h := hm.1
  let b := r.payload
  let n := leAt b 0 1
  let set := leAt b 1 1
  let x := portAt h n
  let base := leAt b 8 4
  let limit := leAt b 12 4
  let timeout := leAt b 3 1
  let at_ (v : Nat) : Nat := (4 + n / 16) * 2 ^ 48 + v * 2 ^ 20
  let others := (List.range 16).map (· + n / 16 * 16)
  let overlap := others.any (fun k => let y := portAt h k; decide (k ≠ n ∧ y.base < y.limit ∧ y.base < limit ∧ base < y.limit))
  if n ≥ 32 ∨ !x.exists_ then (hm, deny 0x20 0)
  else if bitOf set 0 && (decide (base > limit ∨ limit > 0xFFFF00) || (decide (base < limit) && overlap)) then (hm, deny 0x20 0)
  else if bitOf set 1 && decide (timeout = 0 ∨ timeout > 64) then (hm, deny 0x20 0)
  else if bitOf set 0 && decide (base ≠ x.base ∨ limit ≠ x.limit) && decide (x.base < x.limit) && rangeHeld h (at_ x.base) (at_ x.limit) then (hm, deny 0x11 0)
  else
    let x1 : RootPort := if bitOf set 0 then { x with base := base, limit := limit } else x
    let x2 : RootPort := if bitOf set 1 then { x1 with timeoutMs := timeout } else x1
    let hot := bitOf (leAt b 2 1) 0
    let x3 : RootPort := if bitOf set 2 && decide (hot ≠ x.isSlot) then { x2 with isSlot := hot, held := false, slot := if hot && x.up then .up else .empty } else x2
    let x4 : RootPort := if bitOf set 3 then { x3 with keeper := leAt b 16 4 } else x3
    ((setPort h n x4, hm.2), doneC)

/-- SLOT_CONTROL (R649, R651). -/
def slotControl (hm : HM) (r : Req) : HM × Reply :=
  let h := hm.1
  let n := leAt r.payload 0 1
  let x := portAt h n
  if n ≥ 32 ∨ !x.exists_ ∨ !x.isSlot then (hm, deny 0x20 0x100)
  else if leAt r.payload 1 1 = 0 then
    if (funcsOn h n).any (tenantFunc h) then (hm, deny 0x11 0)
    else
      let h1 := slotPowerOff h n
      let y := portAt h1 n
      ((linkGone (setPort h1 n { y with held := true, slot := if x.slot = SlotSt.empty then .empty else .off }) x n, hm.2), doneC)
  else
    let again := decide (x.slot = SlotSt.off ∨ x.slot = SlotSt.faulted ∨ x.slot = SlotSt.debounced)
    ((setPort h n (if again then { x with held := false, slot := .debounced, slotAt := h.tb.now } else { x with held := false }), hm.2), doneC)

/-- HDM_DECODER_SET (R647). -/
def hdmDecoderSet (hm : HM) (r : Req) : HM × Reply :=
  let h := hm.1
  let b := r.payload
  let die := leAt b 0 1
  let k := die * 16 + leAt b 1 1
  let ways := leAt b 2 1
  let count := leAt b 4 4
  let first := leAt b 8 8
  let ports := (List.range ways).map (fun i => leAt b (16 + i) 1)
  let old := tabGet {} h.edges.decoders k
  let hi := first + count * 2 ^ 21
  let overlap := h.edges.decoders.any (fun e => decide (e.1 ≠ k ∧ e.1 / 16 = die) && e.2.used && decide (e.2.first < hi ∧ first < e.2.first + e.2.count * 2 ^ 21))
  if die > 1 ∨ leAt b 1 1 > 15 then (hm, deny 0x20 0)
  else if ways ≠ 0 ∧ (first % 2 ^ 21 ≠ 0 ∨ count = 0 ∨ first / 2 ^ 48 ≠ 6 + die ∨ offsetOf first + count * 2 ^ 21 > 2 ^ 44 ∨ ports.eraseDups.length ≠ ways) then
    (hm, deny 0x20 0)
  else if ports.any (fun n => decide (n / 16 ≠ die) || !(portAt h n).exists_ || !(portAt h n).cxl) then (hm, deny 0x20 0x100)
  else if decide (ways ≠ 0) && overlap then (hm, deny 0x20 0)
  else if old.used && rangeHeld h old.first (old.first + old.count * 2 ^ 21) then (hm, deny 0x11 0)
  else
    let d : HdmDecoder := if ways = 0 then {} else { used := true, first := first, count := count, ports := ports }
    let h1 := { h with edges := { h.edges with decoders := tabPut {} h.edges.decoders k d } }
    ((ports.foldl (fun h n => setPort h n { portAt h n with mediaBad := false }) h1, hm.2), doneC)

/-! ### Pins (R666, R667, R730) -/

/-- Whether a function's argument and value are in range (Tables 21.6, 24.11). PERIOD is in ns. -/
def pinArgOk (fn value arg : Nat) : Bool :=
  match fn with
  | 0x01 => decide (value ≤ 2)
  | 0x02 => decide (value ≤ 1)
  | 0x05 => decide (1000000 ≤ arg ∧ arg ≤ 1000000000)
  | 0x06 | 0x07 | 0x08 | 0x09 | 0x0A => decide (arg < 32)
  | 0x0B | 0x0C | 0x0D => decide (arg < 4)
  | _ => true

/-- PIN_SET (R667, R730): `smb` says that the old function's SMBus transaction is in progress. -/
def pinSet (smb : Bool) (hm : HM) (r : Req) : HM × Reply :=
  let h := hm.1
  let b := r.payload
  let n := leAt b 0 1
  let fn := leAt b 1 1
  let v := leAt b 2 1
  let arg := leAt b 4 4
  let p := pinAt h n
  let busy := p.busy || (smb && decide (p.fn = 0x0B ∨ p.fn = 0x0C ∨ p.fn = 0x0D))
  if n ≥ 32 then (hm, deny 0x20 0)
  else if p.locked then (hm, deny 0x20 0x100)
  else if fn ≥ 0x0E then (hm, deny 0x20 0x101)
  else if p.step ≠ 0 then (hm, deny 0x11 0)
  else if !pinArgOk fn v arg then (hm, deny 0x20 0)
  else if fn = p.fn ∧ arg = p.arg then
    ((if fn = 0x01 ∨ fn = 0x02 then setPin h n { p with value := v, level := pinIdle fn v p.level } else h, hm.2), doneC)
  else
    ((setPin h n { p with busy := busy, step := if busy then 1 else 2, newFn := fn, newVal := v, newArg := arg, since := h.tb.now }, hm.2),
     { commit := true, wait := .pin n })

/-- PIN_STATUS (R666). -/
def pinStatus (hm : HM) (_ : Req) : HM × Reply :=
  (hm, doneQ ((List.range 32).flatMap (fun n => let p := pinAt hm.1 n
    leBytes 1 p.fn ++ leBytes 1 (flag p.level) ++ leBytes 1 (flag p.locked) ++ zeros 1 ++ leBytes 4 p.arg)))

/-! ### The keep-alive domain (R670 to R677) -/

/-- RTC_SET (R672). -/
def rtcSet (hm : HM) (r : Req) : HM × Reply :=
  if hm.1.ident.admitted then (hm, deny 0x20 0x100) else ((rtcWrite hm.1 (leAt r.payload 0 8), hm.2), doneC)

/-- RTC_ALARM_SET (R673). -/
def rtcAlarmSet (hm : HM) (r : Req) : HM × Reply := (({ hm.1 with keep := { hm.1.keep with alarm := leAt r.payload 0 8 } }, hm.2), doneC)

/-- CHARGER_SET (R670, R671). -/
def chargerSet (hm : HM) (r : Req) : HM × Reply :=
  let b := r.payload
  let on := bitOf (leAt b 0 1) 0
  let icc := leAt b 1 1
  let vcv := leAt b 2 2
  let k := hm.1.keep
  if icc = 0 ∨ icc > 20 ∨ vcv < 2800 ∨ vcv > 3300 ∨ vcv % 10 ≠ 0 then (hm, deny 0x20 0)
  else (({ hm.1 with keep := { k with chgOn := on, icc := icc, vcv := vcv, cellBad := 0, phase := if on then k.phase else 0 } }, hm.2), doneC)

/-- SHIP_MODE_ARM and SHIP_MODE_DISARM (R676). -/
def shipMode (on : Bool) (hm : HM) (_ : Req) : HM × Reply := (({ hm.1 with keep := { hm.1.keep with ship := on } }, hm.2), doneC)

/-- TAMPER_CONFIG (R677). -/
def tamperConfig (hm : HM) (r : Req) : HM × Reply :=
  let ds := (List.range 4).map (fun i => leAt r.payload (4 + i) 1)
  if ds.any (fun d => decide (d = 0 ∨ d > 100)) then (hm, deny 0x20 0)
  else (({ hm.1 with keep := { hm.1.keep with enables := leAt r.payload 0 1 % 16, debounce := ds } }, hm.2), doneC)

/-- KA_STATUS (Table 24.11). -/
def kaStatus (hm : HM) (_ : Req) : HM × Reply :=
  let k := hm.1.keep
  (hm, doneQ (leBytes 8 (rtcNow hm.1)
    ++ leBytes 1 (flag k.rtcValid + 2 * flag k.kaLost + 4 * flag k.ship + 8 * flag (decide (k.cellBad ≠ 0)) + 16 * flag (!k.vka) + 32 * flag (charging k))
    ++ leBytes 1 k.latch ++ leBytes 1 k.tampers ++ leBytes 1 k.icc ++ leBytes 2 k.vcv ++ leBytes 2 k.cellMv ++ leBytes 8 k.lastWord.toNat))

/-! ### Firmware (R662, R663, R732) -/

/-- An image slot: firmware slots 0 and 1, boot image slots 2 and 3. -/
def imageNo (image slot : Nat) : Nat := image * 2 + slot

/-- Whether an image slot is the active one. -/
def imageActive (h : Hw) (image slot : Nat) : Bool := decide (slot = if image = 0 then h.edges.active else h.edges.bootAct)

/-- First byte and size of an image slot in the flash (Table 21.4). -/
def imagePlace (image slot : Nat) : Nat × Nat :=
  if image = 0 then (0x40000 + slot * 2 ^ 24, 2 ^ 24) else (0x2040000 + slot * 2 ^ 25, 2 ^ 25)

/-- Replace an image slot. -/
def setImage (h : Hw) (n : Nat) (x : FwSlot) : Hw := { h with edges := { h.edges with fw := h.edges.fw.set n x } }

/-- FW_VERSION (Table 24.14). -/
def fwVersion (hm : HM) (_ : Req) : HM × Reply :=
  let e := hm.1.edges
  let x := e.fw.getD e.active {}
  (hm, doneQ (leBytes 8 x.version ++ leBytes 4 x.secVer ++ leBytes 4 hm.1.ident.fusedMin ++ leBytes 1 e.active
    ++ leBytes 1 (e.fw.getD (1 - e.active) {}).st ++ leBytes 1 e.bootAct ++ leBytes 1 (e.fw.getD (2 + (1 - e.bootAct)) {}).st))

/-- FW_WRITE (R732). -/
def fwWrite (hm : HM) (r : Req) : HM × Reply :=
  let h := hm.1
  let b := r.payload
  let image := leAt b 0 1
  let slot := leAt b 1 1
  let off := leAt b 4 4
  let data := b.drop 8
  let pl := imagePlace image slot
  if imageActive h image slot then (hm, deny 0x20 0x100)
  else if off + data.length > pl.2 then (hm, deny 0x20 0x103)
  else
    let h1 := { h with edges := { h.edges with flash := putBytes h.edges.flash (pl.1 + off) data } }
    ((setImage h1 (imageNo image slot) { st := 1 }, hm.2), doneC)

/-- FW_VERIFY (R663, R732): what the signature check finds in the slot. RESULT is 0 where it passes. -/
def fwVerify (info : ImageInfo) (hm : HM) (r : Req) : HM × Reply :=
  let h := hm.1
  let image := leAt r.payload 0 1
  let slot := leAt r.payload 1 1
  let n := imageNo image slot
  let ok := info.ok && decide ((h.edges.fw.getD n {}).st ≠ 0)
  if imageActive h image slot then (hm, deny 0x20 0x100)
  else
    let x : FwSlot := { st := if ok then 2 else 3, version := info.version, secVer := info.secVer, digest := info.digest }
    ((setImage h n x, hm.2), doneC (leBytes 1 (flag (!ok)) ++ zeros 3 ++ leBytes 4 info.secVer ++ ((info.digest ++ zeros 48).take 48)))

/-- FW_ACTIVATE (R727, R732). -/
def fwActivate (hm : HM) (r : Req) : HM × Reply :=
  let h := hm.1
  let image := leAt r.payload 0 1
  let slot := leAt r.payload 1 1
  let x := h.edges.fw.getD (imageNo image slot) {}
  if x.st ≠ 2 then (hm, deny 0x20 0x101)
  else if x.secVer < h.ident.fusedMin then (hm, deny 0x20 0x102)
  else if image = 0 then
    (({ h with edges := { h.edges with active := slot } }, hm.2), { commit := true, closes := true, after := fun hm => (mrBegin hm.1, hm.2) })
  else (({ h with edges := { h.edges with bootAct := slot } }, hm.2), doneC)

/-! ### The rows -/

/-- DEV_REPORT_GET (R655): the bytes of the device's interface report and signed measurements. -/
def execDevReportGet (m : Mbx) (tag : Nat) (report meas : List Byte) (s : State) : Host.Outcome State Fault Refusal :=
  onAll s (fun hm => serve hm m tag 0x0202 (devReportGet m report meas))

/-- DEV_ACCEPT (R655). -/
def execDevAccept (m : Mbx) (tag : Nat) (s : State) : Host.Outcome State Fault Refusal :=
  onAll s (fun hm => serve hm m tag 0x0203 (devAccept m))

/-- PORT_STATUS (R660). -/
def execPortStatus (m : Mbx) (tag : Nat) (s : State) : Host.Outcome State Fault Refusal :=
  onAll s (fun hm => serve hm m tag 0x0C01 portStatus)

/-- PORT_CONFIG (R642). -/
def execPortConfig (m : Mbx) (tag : Nat) (s : State) : Host.Outcome State Fault Refusal :=
  onAll s (fun hm => serve hm m tag 0x0C02 portConfig)

/-- SLOT_CONTROL (R651). -/
def execSlotControl (m : Mbx) (tag : Nat) (s : State) : Host.Outcome State Fault Refusal :=
  onAll s (fun hm => serve hm m tag 0x0C03 slotControl)

/-- DEV_ASSIGN (R654): what the device answers. -/
def execDevAssign (m : Mbx) (tag : Nat) (dev : DevInfo) (s : State) : Host.Outcome State Fault Refusal :=
  onAll s (fun hm => serve hm m tag 0x0C04 (devAssign dev))

/-- HDM_DECODER_SET (R647). -/
def execHdmDecoderSet (m : Mbx) (tag : Nat) (s : State) : Host.Outcome State Fault Refusal :=
  onAll s (fun hm => serve hm m tag 0x0C05 hdmDecoderSet)

/-- PIN_SET (R667): whether the pin's SMBus transaction is in progress. -/
def execPinSet (m : Mbx) (tag : Nat) (smb : Bool) (s : State) : Host.Outcome State Fault Refusal :=
  onAll s (fun hm => serve hm m tag 0x0C06 (pinSet smb))

/-- PIN_STATUS (R666). -/
def execPinStatus (m : Mbx) (tag : Nat) (s : State) : Host.Outcome State Fault Refusal :=
  onAll s (fun hm => serve hm m tag 0x0C07 pinStatus)

/-- RTC_SET (R672). -/
def execRtcSet (m : Mbx) (tag : Nat) (s : State) : Host.Outcome State Fault Refusal :=
  onAll s (fun hm => serve hm m tag 0x0C08 rtcSet)

/-- RTC_ALARM_SET (R673). -/
def execRtcAlarmSet (m : Mbx) (tag : Nat) (s : State) : Host.Outcome State Fault Refusal :=
  onAll s (fun hm => serve hm m tag 0x0C09 rtcAlarmSet)

/-- CHARGER_SET (R670). -/
def execChargerSet (m : Mbx) (tag : Nat) (s : State) : Host.Outcome State Fault Refusal :=
  onAll s (fun hm => serve hm m tag 0x0C0A chargerSet)

/-- SHIP_MODE_ARM (R676). -/
def execShipModeArm (m : Mbx) (tag : Nat) (s : State) : Host.Outcome State Fault Refusal :=
  onAll s (fun hm => serve hm m tag 0x0C0B (shipMode true))

/-- SHIP_MODE_DISARM (R676). -/
def execShipModeDisarm (m : Mbx) (tag : Nat) (s : State) : Host.Outcome State Fault Refusal :=
  onAll s (fun hm => serve hm m tag 0x0C0C (shipMode false))

/-- TAMPER_CONFIG (R677). -/
def execTamperConfig (m : Mbx) (tag : Nat) (s : State) : Host.Outcome State Fault Refusal :=
  onAll s (fun hm => serve hm m tag 0x0C0D tamperConfig)

/-- KA_STATUS (R161). -/
def execKaStatus (m : Mbx) (tag : Nat) (s : State) : Host.Outcome State Fault Refusal :=
  onAll s (fun hm => serve hm m tag 0x0C0E kaStatus)

/-- FW_VERSION (R663). -/
def execFwVersion (m : Mbx) (tag : Nat) (s : State) : Host.Outcome State Fault Refusal :=
  onAll s (fun hm => serve hm m tag 0x0F01 fwVersion)

/-- FW_WRITE (R732). -/
def execFwWrite (m : Mbx) (tag : Nat) (s : State) : Host.Outcome State Fault Refusal :=
  onAll s (fun hm => serve hm m tag 0x0F02 fwWrite)

/-- FW_VERIFY (R663): what the check of the slot finds. -/
def execFwVerify (m : Mbx) (tag : Nat) (info : ImageInfo) (s : State) : Host.Outcome State Fault Refusal :=
  onAll s (fun hm => serve hm m tag 0x0F03 (fwVerify info))

/-- FW_ACTIVATE (R732). -/
def execFwActivate (m : Mbx) (tag : Nat) (s : State) : Host.Outcome State Fault Refusal :=
  onAll s (fun hm => serve hm m tag 0x0F04 fwActivate)

end Sys2Proof.Machine
end

