-- ==== Sys2Proof/Machine/EngineRows.lean ====
section
/-! DEFINITION. The commands of slips, ferries, engines, knots, pools, ledgers and VERIFY (chapters 9 and 12 to 17): one meaning
per row of the command table. A descriptor's command names its slip and its sequence count. -/
namespace Sys2Proof.Machine

/-! ### Fetching, staging, dispatch, completion -/

/-- DESCRIPTOR_FETCH (R392): the front end fetches for ferry `f` (package ferry number); `u` is what the array answers. -/
def execDescriptorFetch (f : Nat) (u : Upset) (s : State) : Host.Outcome State Fault Refusal :=
  onHw s (fun h => fetchFor h s.mem f u)

/-- STAGING (R360): the oldest fetched descriptor of a slip is checked and its walks begin. -/
def execStaging (slip : Nat) (s : State) : Host.Outcome State Fault Refusal := onHw s (fun h => stageNext h slip)

/-- WALK (R377): a free walker of group `g` takes the next request and completes one page-table walk. -/
def execWalk (g : Nat) (u : Upset) (s : State) : Host.Outcome State Fault Refusal := onAll s (waiting (fun hm => walkTurn hm g u))

/-- DISPATCH (R401): ferry `f` dispatches the descriptor it chooses. -/
def execDispatch (f : Nat) (s : State) : Host.Outcome State Fault Refusal := onHw s (fun h => dispatchFor h f)

/-- BOLT_MISS_FILL (R293): the misses of a descriptor are served. -/
def execBoltMissFill (slip : Nat) (seq : W32) (s : State) : Host.Outcome State Fault Refusal := onAll s (waiting (fun hm => missFill hm slip seq))

/-- DESCRIPTOR_COMPLETE (R221): the next completion record of a slip. -/
def execDescriptorComplete (slip : Nat) (s : State) : Host.Outcome State Fault Refusal :=
  onAll s (waiting (fun hm => settle (completeNext hm slip)))

/-- CHANNEL_HALT (R344): a ferry read of a descriptor meets a detected uncorrectable error at a local address. -/
def execChannelHalt (slip : Nat) (seq : W32) (addr : Nat) (s : State) : Host.Outcome State Fault Refusal :=
  onAll s (fun hm => channelHalt hm slip seq addr)

/-! ### Ferry descriptors (chapters 9 and 13) -/

/-- MOVE (R407): the next `n` bytes of a MOVE descriptor. -/
def execMove (slip : Nat) (seq : W32) (n : Nat) (s : State) : Host.Outcome State Fault Refusal :=
  onAll s (ferrying slip seq (fun hm => moveStep hm slip seq 0x10 n))

/-- FILL (R407): the next `n` bytes of a FILL descriptor. -/
def execFill (slip : Nat) (seq : W32) (n : Nat) (s : State) : Host.Outcome State Fault Refusal :=
  onAll s (ferrying slip seq (fun hm => moveStep hm slip seq 0x11 n))

/-- BOLT_LOAD (R292). -/
def execBoltLoad (slip : Nat) (seq : W32) (s : State) : Host.Outcome State Fault Refusal := onAll s (ferrying slip seq (fun hm => boltStep hm slip seq 0x14))

/-- BOLT_STORE (R289). -/
def execBoltStore (slip : Nat) (seq : W32) (s : State) : Host.Outcome State Fault Refusal := onAll s (ferrying slip seq (fun hm => boltStep hm slip seq 0x15))

/-- BOLT_MOVE (R286). -/
def execBoltMove (slip : Nat) (seq : W32) (s : State) : Host.Outcome State Fault Refusal := onAll s (ferrying slip seq (fun hm => boltStep hm slip seq 0x16))

/-- BOLT_COPY_UP (R286). -/
def execBoltCopyUp (slip : Nat) (seq : W32) (s : State) : Host.Outcome State Fault Refusal := onAll s (ferrying slip seq (fun hm => boltStep hm slip seq 0x17))

/-- BOLT_CLEAN (R290). -/
def execBoltClean (slip : Nat) (seq : W32) (s : State) : Host.Outcome State Fault Refusal := onAll s (ferrying slip seq (fun hm => boltStep hm slip seq 0x18))

/-- BOLT_DROP (R290). -/
def execBoltDrop (slip : Nat) (seq : W32) (s : State) : Host.Outcome State Fault Refusal := onAll s (ferrying slip seq (fun hm => boltStep hm slip seq 0x19))

/-- BOLT_TAKE_RETRY (R284). -/
def execBoltTakeRetry (slip : Nat) (seq : W32) (s : State) : Host.Outcome State Fault Refusal := onAll s (ferrying slip seq (fun hm => boltRetry hm slip seq))

/-- BOLT_WAIT (R284): WAIT_LIMIT passes. -/
def execBoltWait (slip : Nat) (seq : W32) (s : State) : Host.Outcome State Fault Refusal := onAll s (ferrying slip seq (fun hm => boltGiveUp hm slip seq))

/-- ATOMIC (R411). -/
def execAtomic (slip : Nat) (seq : W32) (s : State) : Host.Outcome State Fault Refusal := onAll s (ferrying slip seq (fun hm => atomicDesc hm slip seq))

/-- BARRIER (R413). -/
def execBarrier (slip : Nat) (seq : W32) (s : State) : Host.Outcome State Fault Refusal := onHw s (fun h => barrierDesc h slip seq)

/-- NOP (R403). -/
def execNop (slip : Nat) (seq : W32) (s : State) : Host.Outcome State Fault Refusal := onHw s (fun h => nopDesc h slip seq)

/-! ### Looms (chapter 14) -/

/-- WEAVE (R445): a weave descriptor is checked and waits for its gang, or ends when its passes have drained. -/
def execWeave (slip : Nat) (seq : W32) (s : State) : Host.Outcome State Fault Refusal := onAll s (fun hm => weaveDesc hm slip seq)

/-- PASS_START (R437). -/
def execPassStart (slip : Nat) (seq : W32) (s : State) : Host.Outcome State Fault Refusal := onHw s (fun h => passStart h slip seq)

/-- BANK_SWAP (R437); `parity`: the pass met a parity error (R448). -/
def execBankSwap (slip : Nat) (seq : W32) (parity : Bool) (s : State) : Host.Outcome State Fault Refusal :=
  onHw s (fun h => bankSwap h slip seq parity)

/-- DRAIN (R437). -/
def execDrain (slip : Nat) (seq : W32) (s : State) : Host.Outcome State Fault Refusal := onHw s (fun h => drainBank h slip seq)

/-- PASS_CUT (R439). -/
def execPassCut (slip : Nat) (seq : W32) (s : State) : Host.Outcome State Fault Refusal := onHw s (fun h => passCut h slip seq)

/-! ### Finishers (chapter 15) -/

/-- MAP (R462). -/
def execMap (slip : Nat) (seq : W32) (s : State) : Host.Outcome State Fault Refusal := onHw s (fun h => finDesc h slip seq 0x50)

/-- REDUCE (R456). -/
def execReduce (slip : Nat) (seq : W32) (s : State) : Host.Outcome State Fault Refusal := onHw s (fun h => finDesc h slip seq 0x51)

/-- SOFTMAX (R463). -/
def execSoftmax (slip : Nat) (seq : W32) (s : State) : Host.Outcome State Fault Refusal := onHw s (fun h => finDesc h slip seq 0x52)

/-- NORM (R465). -/
def execNorm (slip : Nat) (seq : W32) (s : State) : Host.Outcome State Fault Refusal := onHw s (fun h => finDesc h slip seq 0x53)

/-- SELECT (R466). -/
def execSelect (slip : Nat) (seq : W32) (s : State) : Host.Outcome State Fault Refusal := onHw s (fun h => finDesc h slip seq 0x54)

/-- QUANT (R469). -/
def execQuant (slip : Nat) (seq : W32) (s : State) : Host.Outcome State Fault Refusal := onHw s (fun h => finDesc h slip seq 0x55)

/-- DEQUANT (R470). -/
def execDequant (slip : Nat) (seq : W32) (s : State) : Host.Outcome State Fault Refusal := onHw s (fun h => finDesc h slip seq 0x56)

/-- SAMPLE (R471). -/
def execSample (slip : Nat) (seq : W32) (s : State) : Host.Outcome State Fault Refusal := onHw s (fun h => finDesc h slip seq 0x57)

/-- ROW_END (R476): a finisher row completes; `parity`: it met a parity error (R479). -/
def execRowEnd (slip : Nat) (seq : W32) (parity : Bool) (s : State) : Host.Outcome State Fault Refusal :=
  onAll s (fun hm => settle (rowEnd hm slip seq parity))

/-- ROW_CUT (R475). -/
def execRowCut (slip : Nat) (seq : W32) (s : State) : Host.Outcome State Fault Refusal := onHw s (fun h => rowCut h slip seq)

/-! ### Knots, pools and ledgers (chapters 16 and 17) -/

/-- KNOT_INIT (R482). -/
def execKnotInit (slip : Nat) (seq : W32) (s : State) : Host.Outcome State Fault Refusal :=
  onAll s (fun hm => settle (onDesc hm.1 slip seq 0x60 (knotInit hm.1 slip), hm.2))

/-- KNOT_SIGNAL (R483); `ans` is what the home package of a remote knot answers (R491). -/
def execKnotSignal (slip : Nat) (seq : W32) (ans : KnotAns) (s : State) : Host.Outcome State Fault Refusal :=
  onAll s (fun hm => settle (onDesc hm.1 slip seq 0x61 (fun d => knotSignal hm.1 slip d ans), hm.2))

/-- KNOT_WAIT (R484); for a remote knot with its answer (R492), also the answer that comes later to a wait held there. -/
def execKnotWait (slip : Nat) (seq : W32) (ans : KnotAns) (s : State) : Host.Outcome State Fault Refusal :=
  onAll s (fun hm =>
    if hm.1.sync.remoteWaits.any (fun w => decide (w.1 = slip ∧ w.2.1 = seq)) then
      settle (remoteAnswer hm.1 slip seq false ans, hm.2)
    else settle (onDesc hm.1 slip seq 0x62 (fun d => knotWait hm.1 slip d ans), hm.2))

/-- KNOT_TIMEOUT (R486). -/
def execKnotTimeout (slip : Nat) (seq : W32) (s : State) : Host.Outcome State Fault Refusal :=
  onAll s (fun hm => settle (knotTimeout hm.1 slip seq, hm.2))

/-- REMOTE_WAIT_RETRY (R494). -/
def execRemoteWaitRetry (slip : Nat) (seq : W32) (ans : KnotAns) (s : State) : Host.Outcome State Fault Refusal :=
  onAll s (fun hm => settle (remoteAnswer hm.1 slip seq true ans, hm.2))

/-- POOL_ALLOC (R497). -/
def execPoolAlloc (slip : Nat) (seq : W32) (s : State) : Host.Outcome State Fault Refusal :=
  onAll s (waiting (fun hm => settle (onDescM hm slip seq 0x63 (poolAlloc hm slip))))

/-- POOL_FREE (R499). -/
def execPoolFree (slip : Nat) (seq : W32) (s : State) : Host.Outcome State Fault Refusal :=
  onAll s (waiting (fun hm => settle (onDescM hm slip seq 0x64 (poolFree hm slip))))

/-- POOL_EMPTY (R498): a queued allocation's timeout passes. -/
def execPoolEmpty (slip : Nat) (seq : W32) (s : State) : Host.Outcome State Fault Refusal :=
  onAll s (waiting (fun hm => poolTimeout hm slip seq 0x63 0x14))

/-- LEDGER_INIT (R520). -/
def execLedgerInit (slip : Nat) (seq : W32) (s : State) : Host.Outcome State Fault Refusal :=
  onAll s (waiting (fun hm => settle (onDescM hm slip seq 0x70 (ledgerDesc hm slip))))

/-- LEDGER_EXTEND (R520). -/
def execLedgerExtend (slip : Nat) (seq : W32) (s : State) : Host.Outcome State Fault Refusal :=
  onAll s (waiting (fun hm => settle (onDescM hm slip seq 0x71 (ledgerDesc hm slip))))

/-- LEDGER_COMMIT (R520). -/
def execLedgerCommit (slip : Nat) (seq : W32) (s : State) : Host.Outcome State Fault Refusal :=
  onAll s (waiting (fun hm => settle (onDescM hm slip seq 0x72 (ledgerDesc hm slip))))

/-- LEDGER_ROLLBACK (R520). -/
def execLedgerRollback (slip : Nat) (seq : W32) (s : State) : Host.Outcome State Fault Refusal :=
  onAll s (waiting (fun hm => settle (onDescM hm slip seq 0x73 (ledgerDesc hm slip))))

/-- LEDGER_TRIM (R520). -/
def execLedgerTrim (slip : Nat) (seq : W32) (s : State) : Host.Outcome State Fault Refusal :=
  onAll s (waiting (fun hm => settle (onDescM hm slip seq 0x74 (ledgerDesc hm slip))))

/-- LEDGER_EXTEND_TIMEOUT (R521). -/
def execLedgerExtendTimeout (slip : Nat) (seq : W32) (s : State) : Host.Outcome State Fault Refusal :=
  onAll s (waiting (fun hm => poolTimeout hm slip seq 0x71 0x1C))

/-- VERIFY (R528). -/
def execVerify (slip : Nat) (seq : W32) (s : State) : Host.Outcome State Fault Refusal := onHw s (fun h => verifyDesc h slip seq)

end Sys2Proof.Machine
end

