-- ==== Sys2Proof/Machine/MbxRows.lean ====
section
/-! DEFINITION. The commands of the mailboxes themselves, of sessions, attestation and partitions (chapters 3 and 4): one meaning per
row. A mailbox command's row names its mailbox and tag. -/
namespace Sys2Proof.Machine

/-! ### The Keeper's transport (R142 to R144, R659 to R661) -/

/-- Whether the I3C target acknowledges its address: from t0 + 50 ms (R659, Table 5.2). -/
def i3cAnswers (h : Hw) : Bool := decide (h.tb.now ≥ h.start.t0 + 50000000)

/-- Whether a message over a transport comes from the Keeper: over I3C always; over PCIe VDM from the requester ID a trained port
names, while partition 0 or nobody owns that function (R660). -/
def keeperFrom (h : Hw) (bus : KeeperBus) (port rid : Nat) : Bool :=
  match bus with
  | .i3c => i3cAnswers h
  | .pcieVdm =>
    let p := tabGet {} h.edges.ports port
    let o := (unitAt h 9 rid).owner
    p.up && decide (p.keeper = rid) && decide (o = 0 ∨ o = 31)

/-- An MCTP message of a function that is not the Keeper's is counted at its port (R660). -/
def countDiscard (h : Hw) (bus : KeeperBus) (port : Nat) : Hw :=
  match bus with
  | .i3c => h
  | .pcieVdm =>
    if (tabGet {} h.edges.ports port).up then
      { h with edges := { h.edges with ports := tabMod {} h.edges.ports port (fun p => { p with discards := p.discards + 1 }) } }
    else h

/-- KEEPER_FRAME (R142, R143): an MCTP message of type 0x7E with its vendor identifier, MCTP message tag and the bytes that follow
the vendor identifier. While READY is 0 the front end answers as R130 does. -/
def keeperFrame (h : Hw) (bus : KeeperBus) (port rid vendor mtag : Nat) (bytes : List Byte) : Hw :=
  if !keeperFrom h bus port rid then countDiscard h bus port
  else if vendor ≠ 0x0F1A ∨ bytes.length < 64 then h
  else
    let hdr := bytes.take 64
    if !mbxReady h .keeper then
      setBox h .keeper { boxAt h .keeper with keeperOut := [standInResp h hdr ((readHdr hdr).tag % 8) (some { bus := bus, port := port, rid := rid })] }
    else acceptFrame h .keeper hdr (bytes.drop 64) mtag (some { bus := bus, port := port, rid := rid })

/-- Bytes of an answer that other standards fix: their number and values are open (log entry 12). -/
def openBytes (n : Nat) : List Byte := (List.range (Config.protocolByte n 0xFFFF).toNat).map (Config.protocolByte n)

/-- An SPDM ERROR response. -/
def spdmError (code : Nat) : List Byte := [0x13, 0x7F, BitVec.ofNat 8 code, 0]

/-! ### Attestation (R145 to R147, Table 4.7) -/

/-- The certificate chain of slot 0 (R145), in the form SPDM carries it: its length and the root's digest go before it. -/
def certChain (h : Hw) : List Byte :=
  let c := Config.certificate 0 ++ Config.certificate 1 ++ Config.certificate 2 ++ Config.aliasCertificate (fwMeasure h)
  leBytes 2 (52 + c.length) ++ zeros 2 ++ sha384 (Config.certificate 0) ++ c

/-- Content of a measurement block (Table 4.7): block 5 is the configuration of partition `p`, with which of its keys are present. -/
def measurement (h : Hw) (p : Nat) : Nat → List Byte
  | 1 => Config.romDigest
  | 2 => fwMeasure h
  | 3 => (List.range 3).flatMap (fun i => leBytes 8 (identReg h i).toNat) ++ leBytes 4 h.ident.fusedMin
  | 4 => leBytes 1 (flag h.ident.benchSeen + 2 * flag h.keep.kaLost + 4 * flag (logDegraded h))
  | _ => partReport h p ++ leBytes 1 (flag (decide ((partAt h p).farKey ≠ 0)) + 2 * flag (decide ((partAt h p).nearKey ≠ 0)))

/-- Whether a role sees a measurement block of partition `p` (Table 4.7, R147). -/
def seesBlock (m : Mbx) (p blk : Nat) : Bool :=
  decide (1 ≤ blk ∧ blk ≤ 4) || (decide (blk = 5) && (match m with | .steward => decide (p ≤ 16) | .part q => decide (p = q) | .keeper => false))

/-- One block of a MEASUREMENTS response. -/
def measureBlock (h : Hw) (p blk : Nat) : List Byte :=
  let v := measurement h p blk
  leBytes 1 blk ++ leBytes 1 1 ++ leBytes 2 (v.length + 3) ++ leBytes 1 (blk - 1) ++ leBytes 2 v.length ++ v

/-- 32 bytes of a nonce: free values. -/
def nonce (h : Hw) : List Byte := (List.range 32).map (Config.protocolByte h.free)

/-- A response signed with the Alias key over the request and itself. -/
def aliasSigned (h : Hw) (req body : List Byte) : List Byte := body ++ slice (Config.signature (fwMeasure h) h.free (req ++ body)) 0 96

/-- MEASUREMENTS: the blocks asked for (0 their number, 0xFF all the role sees) with a nonce, signed where that is asked. -/
def spdmMeasure (h : Hw) (m : Mbx) (p : Nat) (req : List Byte) : List Byte :=
  let op := leAt req 3 1
  let all := (List.range 6).filter (seesBlock m p)
  let blks := if op = 0xFF then all else if op = 0 then [] else [op]
  if op ≠ 0 ∧ op ≠ 0xFF ∧ !seesBlock m p op then spdmError 1
  else
    let r := blks.flatMap (measureBlock h p)
    let body := [0x13, 0x60, BitVec.ofNat 8 (if op = 0 then all.length else 0), 0] ++ leBytes 1 blks.length ++ leBytes 3 r.length ++ r
      ++ nonce h ++ zeros 2
    if bitOf (leAt req 2 1) 0 then aliasSigned h req body else body

/-- Cralu's SPDM 1.3 answer to a request (R146, R147): `target` is the partition a request names, `m` who asks. -/
def spdmAnswer (h : Hw) (m : Mbx) (target : Nat) (req : List Byte) : List Byte :=
  let chain := certChain h
  if req.length < 4 then spdmError 1
  else match leAt req 1 1 with
    | 0x84 => [0x10, 0x04, 0, 0, 0, 1, 0x00, 0x13]
    | 0xE1 => [0x13, 0x61, 0, 0] ++ openBytes h.free ++ [0x16, 0, 0, 0]
    | 0xE3 => [0x13, 0x63, 0, 0] ++ openBytes h.free
    | 0x81 => [0x13, 0x01, 1, 1] ++ sha384 chain
    | 0x82 =>
      if leAt req 2 1 ≠ 0 ∨ chain.length ≤ leAt req 4 2 then spdmError 1
      else
        let part := (chain.drop (leAt req 4 2)).take (leAt req 6 2)
        [0x13, 0x02, 0, 0] ++ leBytes 2 part.length ++ leBytes 2 (chain.length - leAt req 4 2 - part.length) ++ part
    | 0x83 =>
      if leAt req 2 1 ≠ 0 then spdmError 1
      else aliasSigned h req ([0x13, 0x03, 0, 1] ++ sha384 chain ++ nonce h
        ++ (if leAt req 3 1 = 0 then [] else sha384 ([1, 2, 3, 4].flatMap (measureBlock h target))) ++ zeros 2)
    | 0xE0 => spdmMeasure h m target req
    | _ => spdmError 7

/-- An MCTP answer other than an Efano frame, given once READY is set to the endpoint that asked (R143, R144). -/
def mctpAnswer (h : Hw) (bus : KeeperBus) (port rid : Nat) (ans : List Byte) : Hw :=
  if !keeperFrom h bus port rid then countDiscard h bus port
  else if h.efano.ready then
    let to_ : KeeperEnd := { bus := bus, port := port, rid := rid }
    { h with efano := { h.efano with mctp := ans, mctpAns := h.efano.mctpAns + 1, mctpTo := some to_ }, free := h.free + 1 }
  else h

/-- SPDM_MESSAGE (R146, R147): a tenant that names another partition is answered InvalidRequest. -/
def spdmMessage (m : Mbx) (hm : HM) (r : Req) : HM × Reply :=
  let h := hm.1
  let t := leAt r.payload 0 1
  let foreign := match m with | .part p => decide (t ≠ p) | _ => false
  let ans := if foreign then spdmError 1 else spdmAnswer h m t (r.payload.drop 4)
  (({ h with free := h.free + 1 }, hm.2), doneQ ans)

/-- IDENTITY_GET (R50). -/
def identityGet (hm : HM) (_ : Req) : HM × Reply :=
  let h := hm.1
  let f := h.edges.fw.getD h.edges.active {}
  let fl := flag h.ident.benchSeen + 2 * flag h.keep.kaLost + 4 * flag (logDegraded h)
  (hm, doneQ ((List.range 7).flatMap (fun i => leBytes 8 (identReg h i).toNat) ++ leBytes 8 f.version ++ leBytes 4 f.secVer
    ++ leBytes 1 h.edges.active ++ leBytes 1 fl ++ zeros 2))

/-! ### Mailbox rows -/

/-- MBX_DOORBELL (R118); it ends Idle or Drowse (Table 5.7). -/
def execMbxDoorbell (m : Mbx) (value : Nat) (s : State) : Host.Outcome State Fault Refusal := onHw s (fun h => stir (ringDoorbell h m value))

/-- STAND_IN (R130). -/
def execStandIn (m : Mbx) (s : State) : Host.Outcome State Fault Refusal := onHw s (fun h => postStandIn h m)

/-- ACCEPTANCE (R119). -/
def execAcceptance (m : Mbx) (s : State) : Host.Outcome State Fault Refusal := onHw s (fun h => acceptRung h m)

/-- ACCEPTED_INTERIM (R134). -/
def execAcceptedInterim (m : Mbx) (tag : Nat) (s : State) : Host.Outcome State Fault Refusal := onHw s (fun h => interimReq h m tag)

/-- COMMAND_TIMEOUT (R139). -/
def execCommandTimeout (m : Mbx) (tag : Nat) (s : State) : Host.Outcome State Fault Refusal := onHw s (fun h => timeoutReq h m tag)

/-- RESPONSE_POST (R121). -/
def execResponsePost (m : Mbx) (s : State) : Host.Outcome State Fault Refusal := onHw s (fun h => postResp h m)

/-- MBX_RSP_ACK (R121). -/
def execMbxRspAck (m : Mbx) (s : State) : Host.Outcome State Fault Refusal := onHw s (fun h => ackResp h m)

/-- KEEPER_FRAME (R142). -/
def execKeeperFrame (bus : KeeperBus) (port rid vendor mtag : Nat) (bytes : List Byte) (s : State) :
    Host.Outcome State Fault Refusal := onHw s (fun h => keeperFrame h bus port rid vendor mtag bytes)

/-- MCTP_CONTROL (R144). -/
def execMctpControl (bus : KeeperBus) (port rid : Nat) (s : State) : Host.Outcome State Fault Refusal :=
  onHw s (fun h => mctpAnswer h bus port rid (openBytes h.free))

/-- PLDM_REQUEST (R661): PLDM types 0, 2 and 4 are answered, in bytes their own standards lay out; a message of a function that is not the
Keeper's is counted and discarded whatever its type. -/
def execPldmRequest (bus : KeeperBus) (port rid : Nat) (type : Nat) (s : State) : Host.Outcome State Fault Refusal :=
  onHw s (fun h =>
    if type = 0 ∨ type = 2 ∨ type = 4 ∨ !keeperFrom h bus port rid then mctpAnswer h bus port rid (openBytes h.free) else h)

/-- SPDM_REQUEST (R146). -/
def execSpdmRequest (bus : KeeperBus) (port rid : Nat) (req : List Byte) (s : State) : Host.Outcome State Fault Refusal :=
  onHw s (fun h => mctpAnswer h bus port rid (spdmAnswer h .keeper 0xFF req))

/-! ### Sessions and identity -/

/-- VERSION_GET (R127). -/
def execVersionGet (m : Mbx) (tag : Nat) (s : State) : Host.Outcome State Fault Refusal :=
  onAll s (fun hm => serve hm m tag 0x0101 (versionGet m))

/-- SESSION_OPEN (R128). -/
def execSessionOpen (m : Mbx) (tag : Nat) (s : State) : Host.Outcome State Fault Refusal := onAll s (fun hm => sessionOpen hm m tag)

/-- SESSION_CLOSE (R129). -/
def execSessionClose (m : Mbx) (tag : Nat) (s : State) : Host.Outcome State Fault Refusal := onAll s (fun hm => sessionClose hm m tag)

/-- ECHO (R129). -/
def execEcho (m : Mbx) (tag : Nat) (s : State) : Host.Outcome State Fault Refusal :=
  onAll s (fun hm => serve hm m tag 0x0104 (fun hm r => (hm, doneQ r.payload)))

/-- OUTCOME_GET (R153). -/
def execOutcomeGet (m : Mbx) (tag : Nat) (s : State) : Host.Outcome State Fault Refusal :=
  onAll s (fun hm => serve hm m tag 0x0105 (outcomeGet m))

/-- SPDM_MESSAGE (R147). -/
def execSpdmMessage (m : Mbx) (tag : Nat) (s : State) : Host.Outcome State Fault Refusal :=
  onAll s (fun hm => serve hm m tag 0x0201 (spdmMessage m))

/-- IDENTITY_GET (R50). -/
def execIdentityGet (m : Mbx) (tag : Nat) (s : State) : Host.Outcome State Fault Refusal :=
  onAll s (fun hm => serve hm m tag 0x0204 identityGet)

/-! ### Partitions -/

/-- PART_CREATE (R92). -/
def execPartCreate (m : Mbx) (tag : Nat) (s : State) : Host.Outcome State Fault Refusal :=
  onAll s (fun hm => serve hm m tag 0x0301 partCreate)

/-- PART_DESTROY (R733). -/
def execPartDestroy (m : Mbx) (tag : Nat) (s : State) : Host.Outcome State Fault Refusal :=
  onAll s (fun hm => serve hm m tag 0x0302 partDestroy)

/-- PART_ASSIGN (R84). -/
def execPartAssign (m : Mbx) (tag : Nat) (s : State) : Host.Outcome State Fault Refusal :=
  onAll s (fun hm => serve hm m tag 0x0303 (partAssign m))

/-- PART_RELEASE (R97). -/
def execPartRelease (m : Mbx) (tag : Nat) (s : State) : Host.Outcome State Fault Refusal :=
  onAll s (fun hm => serve hm m tag 0x0304 (partRelease m))

/-- PART_QUERY (R734). -/
def execPartQuery (m : Mbx) (tag : Nat) (s : State) : Host.Outcome State Fault Refusal :=
  onAll s (fun hm => serve hm m tag 0x0305 (partQuery m))

/-- PART_CONFIG (R95). -/
def execPartConfig (m : Mbx) (tag : Nat) (s : State) : Host.Outcome State Fault Refusal :=
  onAll s (fun hm => serve hm m tag 0x0306 (partConfig m))

/-- WAYMASK_SET (R266). -/
def execWaymaskSet (m : Mbx) (tag : Nat) (s : State) : Host.Outcome State Fault Refusal :=
  onAll s (fun hm => serve hm m tag 0x0307 (waymaskSet m))

/-- SCRUB_REPORT_GET (R103). -/
def execScrubReportGet (m : Mbx) (tag : Nat) (s : State) : Host.Outcome State Fault Refusal :=
  onAll s (fun hm => serve hm m tag 0x0308 (scrubReport m))

/-- SHELF_SPLIT_SET (R263). -/
def execShelfSplitSet (m : Mbx) (tag : Nat) (s : State) : Host.Outcome State Fault Refusal :=
  onAll s (fun hm => serve hm m tag 0x0309 shelfSplitSet)

/-- BACKGROUND_SCRUB (R83): the scrub of BLANK swatch `k`; `bad` is the address that miscompared, if one did. -/
def execBackgroundScrub (k : Nat) (bad : Option Nat) (s : State) : Host.Outcome State Fault Refusal :=
  onAll s (fun hm => backgroundScrub hm k bad)

/-- SCRUB_COMPLETE (R101): the scrub with a REPORT_SEQ ends; `bad` is a unit that failed and the address that miscompared. -/
def execScrubComplete (seq : Nat) (bad : Option (Nat × Nat × Nat)) (s : State) : Host.Outcome State Fault Refusal :=
  onAll s (fun hm => scrubComplete hm seq bad)

end Sys2Proof.Machine
end

