-- ==== Sys2Proof/Machine/MemRows.lean ====
section
/-! DEFINITION. Bench mode, repair and the memory controllers' own events (chapters 3 and 10, Table 24.12). -/
namespace Sys2Proof.Machine

/-! ### Repair addresses (RADDR of Table 24.1) -/

/-- A RADDR. -/
structure RAddr where
  tier : Nat
  unit : Nat
  chan : Nat
  rank : Nat
  bank : Nat
  kind : Nat
  row  : Nat
  lane : Nat

/-- Read a RADDR. -/
def raddrOf (b : List Byte) : RAddr :=
  { tier := leAt b 0 1, unit := leAt b 1 1, chan := leAt b 2 1, rank := leAt b 3 1, bank := leAt b 4 1, kind := leAt b 5 1,
    row := leAt b 8 4, lane := leAt b 12 2 }

/-- Data lanes of a near-tier pseudo-channel and of a far-tier channel (R309, R310). -/
def lanesOf (tier : Nat) : Nat := if tier = 2 then 32 else 16

/-- Key of a stack or channel in the memory hardware. -/
def raddrUnit (r : RAddr) : Nat := if r.tier = 2 then r.unit else 16 + 64 * r.unit + r.chan

/-- Whether the stack or channel of a repair address exists, and its rank in the device that training found there. -/
def raddrPlace (h : Hw) (r : RAddr) : Bool :=
  if r.tier = 2 then decide (r.unit < 12 ∧ r.chan < 32) && decide (h.ident.sites.getD r.unit .ldie = SiteKind.stack)
  else decide (r.tier = 3 ∧ r.unit < 2 ∧ r.chan < 64 ∧ r.rank < (deviceAt h (raddrUnit r)).ranks)

/-- Whether a repair address suits a command of a tier and kind and names a row or lane that exists (R330). -/
def raddrOk (h : Hw) (r : RAddr) (tier kind : Nat) : Bool :=
  decide (r.tier = tier ∧ r.kind = kind) && raddrPlace h r &&
  (if kind = 0 then decide (r.bank < banksOf tier ∧ r.row < (deviceAt h (raddrUnit r)).rows) else decide (r.lane < lanesOf tier))

/-- Key of a bank in the count of row spares used. -/
def bankKey (r : RAddr) (bank : Nat) : Nat :=
  if r.tier = 2 then (r.unit * 32 + r.chan) * 64 + bank else 2 ^ 20 + ((r.unit * 64 + r.chan) * 4 + r.rank) * 64 + bank

/-- Key of a stack's channel in the count of lane spares used. -/
def laneKey (r : RAddr) : Nat := r.unit * 16 + r.chan / 2

/-- Row spares left in a bank. -/
def rowsLeft (h : Hw) (r : RAddr) (bank : Nat) : Nat :=
  let k := bankKey r bank
  tabGet (Config.rowSpares k) h.memhw.rowFuse k - tabGet 0 h.memhw.rowUsed k

/-- Lane spares left in a channel; far-tier lanes have none. -/
def lanesLeft (h : Hw) (r : RAddr) : Nat :=
  let k := laneKey r
  if r.tier = 2 then tabGet (Config.laneSpares k) h.memhw.laneFuse k - tabGet 0 h.memhw.laneUsed k else 0

/-- The array of channels has been written by a test: what it held is gone, and what it holds is free (R327). -/
def testChannels (h : Hw) (ks : List Nat) : Hw :=
  let hit (l : Nat) : Bool := decide (channelKey h (l * 64) ∈ ks)
  { h with memhw := { h.memhw with tests := ks.foldl (fun t k => tabPut 0 t k (h.free + 1)) h.memhw.tests }, free := h.free + 1,
           sel := { h.sel with written := tabClear h.sel.written hit }, coh := { h.coh with unknown := tabClear h.coh.unknown hit } }

/-- A row's array has been written by the patterns of a repair's verification: what that row holds is free, and every other row keeps its
bytes (R331). -/
def testRow (h : Hw) (r : RAddr) : Hw :=
  let k := rowKey (raddrUnit r) (if r.tier = 2 then r.chan else r.rank) r.bank r.row
  let hit (l : Nat) : Bool := decide (regionOf (l * 64) ≤ 1 ∧ lineRow h (l * 64) = k)
  { h with memhw := { h.memhw with rowTests := tabPut 0 h.memhw.rowTests k (h.free + 1) }, free := h.free + 1,
           sel := { h.sel with written := tabClear h.sel.written hit }, coh := { h.coh with unknown := tabClear h.coh.unknown hit } }

/-- Keys of the channel that a repair address names, as `channelKey` gives them. -/
def testKeys (r : RAddr) : List Nat := if r.tier = 2 then [32 * r.unit + r.chan] else [1024 + 64 * r.unit + r.chan]

/-! ### Bench mode (R112 to R115) -/

/-- Whether BENCH_ENTER may begin (R112): no tenant, not admitted, nothing being scrubbed, held or failed. -/
def benchMay (h : Hw) : Bool :=
  !((List.range 17).any (fun p => decide (p ≠ 0) && partExists h p)) && !h.ident.admitted && h.sel.scrubs.all (fun r => r.done)
  && decide (h.sel.base ≠ SwState.scrubbing) && !(h.sel.swatches.any (fun e => e.2.failed || decide (e.2.state = SwState.scrubbing ∨ e.2.state = SwState.held)))
  && !(h.sel.units.any (fun e => e.2.failed || decide (e.2.state = UnitState.scrubbing ∨ e.2.state = UnitState.held)))

/-- BENCH_ENTER (R112, R113): the full scrub begins; the paths open when it has ended. In Bench mode it is answered likewise (log entry
63). -/
def benchEnter (hm : HM) (_ : Req) : HM × Reply :=
  if !benchMay hm.1 then (hm, deny 0x20 0)
  else
    let o := beginAll hm.1
    ((o.2, hm.2), { commit := true, wait := .units [o.1] })

/-- BENCH_STATUS (R115). -/
def benchStatus (hm : HM) (_ : Req) : HM × Reply :=
  (hm, doneQ (leBytes 1 (flag hm.1.ident.bench) ++ leBytes 1 (flag hm.1.ident.benchSeen) ++ zeros 6))

/-- Whether a Bench command may go on (R330). -/
def benchOnly (hm : HM) (f : HM × Reply) : HM × Reply := if hm.1.ident.bench then f else (hm, deny 0x20 0x100)

/-! ### The candidate list (R328, R329) -/

/-- An entry of REPAIR_CANDIDATES_GET. -/
def candBytes (c : Candidate) : List Byte :=
  leBytes 1 c.tier ++ leBytes 1 c.unit ++ leBytes 1 c.channel ++ leBytes 1 c.rank ++ leBytes 1 c.bank ++ leBytes 1 (flag c.lane) ++ zeros 2
  ++ leBytes 4 c.row ++ leBytes 2 c.laneNo ++ zeros 2 ++ leBytes 4 c.count ++ zeros 4 ++ leBytes 8 c.first ++ leBytes 8 c.last

/-- REPAIR_CANDIDATES_GET (R328). -/
def candidatesGet (m : Mbx) (hm : HM) (r : Req) : HM × Reply :=
  (hm, doneQ (leBytes 4 hm.1.memhw.discarded ++ zeros 4
    ++ paged m 8 40 (leAt r.payload 0 4) (leAt r.payload 4 2) (hm.1.memhw.cands.map candBytes)))

/-- REPAIR_CANDIDATE_CLEAR (R328). -/
def candidateClear (hm : HM) (r : Req) : HM × Reply :=
  let h := hm.1
  let i := leAt r.payload 0 2
  if i ≥ h.memhw.cands.length then (hm, deny 0x20 0x101)
  else (({ h with memhw := { h.memhw with cands := h.memhw.cands.eraseIdx i } }, hm.2), doneC)

/-! ### Margining and tests (R327, R330) -/

/-- MEM_MARGIN (R327): the eyes of the lanes named, as the device shows them: width in milli-UI and height in mV. -/
def memMargin (eyes : List (Nat × Nat)) (hm : HM) (q : Req) : HM × Reply :=
  let r := raddrOf q.payload
  let every := decide (r.lane = 0xFFFF)
  benchOnly hm (
    if !((decide (r.tier = 2 ∨ r.tier = 3)) && decide (r.kind = 1) && raddrPlace hm.1 r && (every || decide (r.lane < lanesOf r.tier))) then
      (hm, deny 0x20 0x103)
    else
      let lanes := if every then List.range (lanesOf r.tier) else [r.lane]
      let entry (l : Nat) : List Byte := let e := eyes.getD l (0, 0); leBytes 2 l ++ leBytes 2 e.1 ++ leBytes 2 e.2 ++ zeros 2
      ((testChannels hm.1 (testKeys r), hm.2), doneC (leBytes 4 lanes.length ++ zeros 4 ++ lanes.flatMap entry)))

/-- Lines of `n` granules from a local address. -/
def granuleLines (a n : Nat) : List Nat := (List.range (64 * n)).map (lineOf a + ·)

/-- MEM_TEST (R330): patterns are written to granules and read back; `fails` granules failed, the first at `firstFail`. The bytes left are
free; a sound write clears a line's poison (R341). -/
def memTest (fails firstFail : Nat) (hm : HM) (q : Req) : HM × Reply :=
  let b := q.payload
  let a := leAt b 0 8
  let n := leAt b 8 4
  let h := hm.1
  benchOnly hm (
    if a % 4096 ≠ 0 ∨ n = 0 then (hm, deny 0x20 0)
    else if regionOf a > 1 ∨ a ≥ 2 ^ 52 ∨ !populated h a ∨ !populated h (a + 4096 * n - 1) ∨ regionOf (a + 4096 * n - 1) ≠ regionOf a then
      (hm, deny 0x20 0x103)
    else
      let h1 := (granuleLines a n).foldl (fun h l => clearLine (forgetLine h l) (l * 64)) h
      ((h1, hm.2), doneC (leBytes 1 (flag (decide (fails ≠ 0))) ++ zeros 3 ++ leBytes 4 fails ++ leBytes 8 (if fails = 0 then 0 else firstFail))))

/-- REPAIR_RESOURCES_GET (R330). -/
def resourcesGet (hm : HM) (q : Req) : HM × Reply :=
  let r := raddrOf q.payload
  let every := decide (r.bank = 0xFF)
  benchOnly hm (
    if !(raddrPlace hm.1 r && (every || decide (r.bank < banksOf r.tier))) then (hm, deny 0x20 0x103)
    else
      let banks := if every then List.range (banksOf r.tier) else [r.bank]
      (hm, doneQ (leBytes 4 banks.length ++ zeros 4 ++ banks.flatMap (fun k =>
        leBytes 1 k ++ leBytes 1 (min 255 (rowsLeft hm.1 r k)) ++ leBytes 1 (min 255 (lanesLeft hm.1 r)) ++ zeros 1))))

/-! ### Repairs (R331 to R333) -/

/-- A repair's verification (R331): RESULT, with REPAIR_FAIL where it fails. The patterns leave the repaired row's bytes free, or those of the
remapped channel, whose pseudo-channels have the keys `ks`. -/
def verifyRepair (hm : HM) (r : RAddr) (code : Nat) (ks : List Nat) (pass : Bool) : HM × Reply :=
  let h1 := if ks.isEmpty then testRow hm.1 r else testChannels hm.1 ks
  let h2 := if pass then h1 else recordWrite h1 { type := 0x0406, part := 0xFF, unitKind := 17, unit := raddrUnit r, arg0 := code }
  ((h2, hm.2), doneC (leBytes 1 (flag (!pass)) ++ zeros 7))

/-- HBM_SPPR: a soft repair of one row, kept while the stack is powered (Table 10.7). -/
def hbmSppr (pass : Bool) (hm : HM) (q : Req) : HM × Reply :=
  let r := raddrOf q.payload
  benchOnly hm (
    if !raddrOk hm.1 r 2 0 then (hm, deny 0x20 0x103)
    else if rowsLeft hm.1 r r.bank = 0 then (hm, deny 0x40 0x102)
    else
      let c := chanAt hm.1 r.unit
      let row := (r.chan, r.bank, r.row)
      let h1 := setChan hm.1 r.unit { c with softRows := if row ∈ c.softRows then c.softRows else c.softRows ++ [row] }
      verifyRepair (h1, hm.2) r 0x0D08 [] pass)

/-- A hard repair of one row uses its spare, whatever the verification says (R331). -/
def hardRow (hm : HM) (r : RAddr) (code : Nat) (pass : Bool) : HM × Reply :=
  let h := hm.1
  let used := tabMod 0 h.memhw.rowUsed (bankKey r r.bank) (· + 1)
  verifyRepair ({ h with memhw := { h.memhw with rowUsed := used } }, hm.2) r code [] pass

/-- HBM_HPPR: a hard repair supersedes a soft one of the row. -/
def hbmHppr (pass : Bool) (hm : HM) (q : Req) : HM × Reply :=
  let r := raddrOf q.payload
  benchOnly hm (
    if !raddrOk hm.1 r 2 0 then (hm, deny 0x20 0x103)
    else if rowsLeft hm.1 r r.bank = 0 then (hm, deny 0x40 0x102)
    else
      let c := chanAt hm.1 r.unit
      hardRow (setChan hm.1 r.unit { c with softRows := c.softRows.erase (r.chan, r.bank, r.row) }, hm.2) r 0x0D09 pass)

/-- HBM_LANE_REMAP (R332): a lane's spare is used and its channel retrained cold; what the stack's training showed stands for its other
channels. -/
def hbmLaneRemap (pass : Bool) (hm : HM) (q : Req) : HM × Reply :=
  let r := raddrOf q.payload
  let h := hm.1
  benchOnly hm (
    if !raddrOk h r 2 1 then (hm, deny 0x20 0x103)
    else if lanesLeft h r = 0 then (hm, deny 0x40 0x102)
    else
      let h1 := { h with memhw := { h.memhw with laneUsed := tabMod 0 h.memhw.laneUsed (laneKey r) (· + 1) } }
      let h2 := setChan h1 r.unit { chanAt h1 r.unit with coldChans := r.chan / 2 :: (chanAt h1 r.unit).coldChans.erase (r.chan / 2) }
      let base := 32 * r.unit + r.chan / 2 * 2
      verifyRepair (h2, hm.2) r 0x0D0A [base, base + 1] pass)

/-- LP_PPR (R333): a far-tier row is repaired for good. -/
def lpPpr (pass : Bool) (hm : HM) (q : Req) : HM × Reply :=
  let r := raddrOf q.payload
  benchOnly hm (
    if !raddrOk hm.1 r 3 0 then (hm, deny 0x20 0x103)
    else if rowsLeft hm.1 r r.bank = 0 then (hm, deny 0x40 0x102)
    else hardRow hm r 0x0D0B pass)

/-! ### The controllers' own events (R319, R323 to R326) -/

/-- Whether a tier accepts traffic. -/
def tierOpen (h : Hw) (k : Nat) : Bool := decide (k ∈ tierUnits h (decide (k < 16))) && (if k < 16 then h.memhw.nearOpen else h.memhw.farOpen)

/-- RECALIBRATION (R319, R328): a channel recalibrates; lanes found below their margin become candidates. -/
def recalibrate (h : Hw) (k chan : Nat) (lanes : List Nat) : Hw :=
  if !tierOpen h k || h.memhw.selfRefresh then h
  else
    let c := chanAt h k
    let h1 := setChan h k { c with recals := c.recals + 1 }
    lanes.foldl (fun h l =>
      recordWrite (addCandidate h (laneCand k chan l))
        { type := 0x0405, cls := 1, part := 0xFF, unitKind := 17, unit := k, arg1 := trainArg k, arg2 := l }) h1

/-- The row of Table 10.6 in force: 0 below 85 °C, 1 from there, 2 from 95 °C; each ends 3 °C below its threshold (R324). -/
def hotRow (was t : Nat) : Nat :=
  if t ≥ 380 ∨ (was = 2 ∧ t > 368) then 2
  else if t ≥ 340 ∨ (1 ≤ was ∧ t > 328) then 1
  else 0

/-- The row a refresh multiplier shows. -/
def hotOf (refresh : Nat) : Nat := if refresh = 4 then 2 else if refresh = 2 then 1 else 0

/-- NEAR_HOT (R324): a stack's temperature in 0.25 °C. -/
def nearHot (h : Hw) (site t : Nat) : Hw :=
  if site ∉ tierUnits h true then h
  else
    let c := chanAt h site
    let r := hotRow (hotOf c.refresh) t
    let h1 := setChan h site { c with temp := t, refresh := 2 ^ r, throttle := if r = 2 then 50 else 100 }
    if t ≥ 420 then thermalTrip h1 17 site t
    else if r = 2 then recordLimited h1 { type := 0x0403, part := 0xFF, unitKind := 17, unit := site, arg0 := t }
    else h1

/-- FAR_HOT (R325): the MR4 value of a rank of a channel, the refresh multiplier and timing derating that it requires, and whether it is above
its operating limit. The channel is refreshed as its hottest rank requires, and throttled while a rank of it is above its limit. -/
def farHot (h : Hw) (n rank mr4 mult : Nat) (derate over_ : Bool) : Hw :=
  if n ≥ 128 ∨ rank ≥ 2 then h
  else
    let c := chanAt h (16 + n)
    let rs := c.mr4.set rank { value := mr4, mult := mult, derate := derate, over_ := over_ }
    let h1 := setChan h (16 + n) { c with mr4 := rs, temp := (rs.map (·.value)).foldl max 0, refresh := (rs.map (·.mult)).foldl max 0,
                                          throttle := if rs.any (·.over_) then 25 else 100 }
    if over_ then recordLimited h1 { type := 0x0404, part := 0xFF, unitKind := 17, unit := 16 + n, arg0 := mr4 } else h1

/-- Whether a stack or channel has a pseudo-channel or rank, a bank and a row. -/
def rowExists (h : Hw) (k chan bank row : Nat) : Bool :=
  let d := deviceAt h k
  decide (chan < (if k < 16 then 32 else d.ranks) ∧ bank < banksOf (if k < 16 then 2 else 3) ∧ row < d.rows)

/-- TARGETED_REFRESH (R326): `n` more activations of a row; at 512 its neighbours are refreshed before its next activation, and RFM goes to
the bank as often as its device requires. -/
def activations (h : Hw) (k chan bank row n : Nat) : Hw :=
  if !tierOpen h k || !rowExists h k chan bank row then h
  else
    let key := rowKey k chan bank row
    let x := tabGet 0 h.memhw.acts key + n
    let d := deviceAt h k
    let y := tabGet 0 h.memhw.raa (bankAt k chan bank) + n
    let m := { h.memhw with acts := tabPut 0 h.memhw.acts key (x % 512), targeted := h.memhw.targeted + x / 512 }
    { h with memhw := if d.rfmAt = 0 then m
        else { m with raa := tabPut 0 m.raa (bankAt k chan bank) (y % d.rfmAt), rfms := m.rfms + y / d.rfmAt } }

/-- Whether a refresh of rows [first, first + count) of a bank covers every row within two of a row (R326). -/
def coversNear (d : MemDevice) (first count row : Nat) : Bool :=
  decide (first ≤ row - 2 ∧ (row + 2 < first + count ∨ (d.rows ≤ row + 3 ∧ d.rows ≤ first + count)))

/-- REFRESH (R323): a per-bank refresh of a stack or channel; a row whose neighbours it covers starts its count of activations anew (R326).
In self-refresh the memory refreshes itself. -/
def refreshRow (h : Hw) (r : RefreshOf) : Hw :=
  if r.unit ∉ tierUnits h true ++ tierUnits h false ∨ h.start.st = PowerSt.off ∨ h.memhw.selfRefresh then h
  else
    let c := chanAt h r.unit
    let h1 := setChan h r.unit { c with refreshes := c.refreshes + 1 }
    let gone (k : Nat) : Bool := decide (k / 2 ^ 32 = bankAt r.unit r.chan r.bank) && coversNear c.dev r.first r.count (k % 2 ^ 32)
    { h1 with memhw := { h1.memhw with acts := tabClear h1.memhw.acts gone } }

/-! ### The rows -/

/-- RECALIBRATION (R319): stack site, or 16 + channel; its pseudo-channel; the lanes found below margin. -/
def execRecalibration (unit chan : Nat) (lanes : List Nat) (s : State) : Host.Outcome State Fault Refusal :=
  onHw s (fun h => recalibrate h unit chan lanes)

/-- NEAR_HOT (R324). -/
def execNearHot (site temp : Nat) (s : State) : Host.Outcome State Fault Refusal := onHw s (fun h => nearHot h site temp)

/-- FAR_HOT (R325): the channel and rank, its MR4 value, the refresh multiplier and whether it derates its timings. -/
def execFarHot (chan : Nat × Nat) (mr4 : Nat) (mult : Nat × Bool) (overLimit : Bool) (s : State) : Host.Outcome State Fault Refusal :=
  onHw s (fun h => farHot h chan.1 chan.2 mr4 mult.1 mult.2 overLimit)

/-- TARGETED_REFRESH (R326). -/
def execTargetedRefresh (unit chan bank row n : Nat) (s : State) : Host.Outcome State Fault Refusal :=
  onHw s (fun h => activations h unit chan bank row n)

/-- REFRESH (R323). -/
def execRefresh (at_ : RefreshOf) (s : State) : Host.Outcome State Fault Refusal := onHw s (fun h => refreshRow h at_)

/-- BENCH_ENTER (R113). -/
def execBenchEnter (m : Mbx) (tag : Nat) (s : State) : Host.Outcome State Fault Refusal :=
  onAll s (fun hm => serve hm m tag 0x0D01 benchEnter)

/-- BENCH_STATUS (R115). -/
def execBenchStatus (m : Mbx) (tag : Nat) (s : State) : Host.Outcome State Fault Refusal :=
  onAll s (fun hm => serve hm m tag 0x0D02 benchStatus)

/-- REPAIR_CANDIDATES_GET (R328). -/
def execRepairCandidatesGet (m : Mbx) (tag : Nat) (s : State) : Host.Outcome State Fault Refusal :=
  onAll s (fun hm => serve hm m tag 0x0D03 (candidatesGet m))

/-- REPAIR_CANDIDATE_CLEAR (R328). -/
def execRepairCandidateClear (m : Mbx) (tag : Nat) (s : State) : Host.Outcome State Fault Refusal :=
  onAll s (fun hm => serve hm m tag 0x0D04 candidateClear)

/-- MEM_MARGIN (R327): the eyes the device shows, by lane. -/
def execMemMargin (m : Mbx) (tag : Nat) (eyes : List (Nat × Nat)) (s : State) : Host.Outcome State Fault Refusal :=
  onAll s (fun hm => serve hm m tag 0x0D05 (memMargin eyes))

/-- MEM_TEST (R330): what the read-back finds. -/
def execMemTest (m : Mbx) (tag : Nat) (fails firstFail : Nat) (s : State) : Host.Outcome State Fault Refusal :=
  onAll s (fun hm => serve hm m tag 0x0D06 (memTest fails firstFail))

/-- REPAIR_RESOURCES_GET (R330). -/
def execRepairResourcesGet (m : Mbx) (tag : Nat) (s : State) : Host.Outcome State Fault Refusal :=
  onAll s (fun hm => serve hm m tag 0x0D07 resourcesGet)

/-- HBM_SPPR (R331): what the verification finds. -/
def execHbmSppr (m : Mbx) (tag : Nat) (pass : Bool) (s : State) : Host.Outcome State Fault Refusal :=
  onAll s (fun hm => serve hm m tag 0x0D08 (hbmSppr pass))

/-- HBM_HPPR (R333). -/
def execHbmHppr (m : Mbx) (tag : Nat) (pass : Bool) (s : State) : Host.Outcome State Fault Refusal :=
  onAll s (fun hm => serve hm m tag 0x0D09 (hbmHppr pass))

/-- HBM_LANE_REMAP (R332). -/
def execHbmLaneRemap (m : Mbx) (tag : Nat) (pass : Bool) (s : State) : Host.Outcome State Fault Refusal :=
  onAll s (fun hm => serve hm m tag 0x0D0A (hbmLaneRemap pass))

/-- LP_PPR (R333). -/
def execLpPpr (m : Mbx) (tag : Nat) (pass : Bool) (s : State) : Host.Outcome State Fault Refusal :=
  onAll s (fun hm => serve hm m tag 0x0D0B (lpPpr pass))

end Sys2Proof.Machine
end

