-- ==== Sys2Proof/Machine/ObjCmds.lean ====
section
/-! DEFINITION. The commands of groups 0x04 to 0x08 (Tables 24.5, 24.6): objects, memory status, slips, ferries, lock groups, knots,
pools and ledgers. -/
namespace Sys2Proof.Machine

/-! ### Who may name what -/

/-- Whether a unit is a mailbox's to name: a tenant's own; the Steward names any (Table 24.6, 'S; T own'). -/
def mayName (h : Hw) (m : Mbx) (kind idx : Nat) : Bool :=
  match m with
  | .part p => decide (ownerOf h kind idx = p)
  | _ => true

/-- Whether a run of bytes at a compact address lies in swatches of this package that a partition owns (R278, R495). -/
def ownsArea (h : Hw) (p ca n : Nat) : Bool :=
  isLocal h ca && (pieces (compactLocal ca) n).all (fun a =>
    let s := swatchAt h a
    populated h a && decide (s.owner = p) && decide (s.state = SwState.owned))

/-! ### Objects (R277 to R280) -/

/-- An object record as OBJREC lays it out. -/
def objOf (b : List Byte) : ObjRec :=
  { used := true, mode := leAt b 2 1, format := leAt b 3 1, rows := leAt b 4 4, cols := leAt b 8 4, count := leAt b 12 4,
    codecs := leAt b 16 1, lossOk := decide (leAt b 17 1 = 1), slots := leAt b 18 1,
    waitUs := if leAt b 20 4 = 0 then 1000 else leAt b 20 4, map := leAt b 24 8, transit := leAt b 32 8 }

/-- OBJREC of a record. -/
def objBytes (id : Nat) (o : ObjRec) : List Byte :=
  leBytes 2 id ++ leBytes 1 o.mode ++ leBytes 1 o.format ++ leBytes 4 o.rows ++ leBytes 4 o.cols ++ leBytes 4 o.count
  ++ leBytes 1 o.codecs ++ leBytes 1 (flag o.lossOk) ++ leBytes 1 o.slots ++ zeros 1 ++ leBytes 4 o.waitUs ++ leBytes 8 o.map
  ++ leBytes 8 o.transit

/-- Bytes that the elements and scales of a bolt occupy (R276). -/
def boltBytes (bits : Nat) (scaled : Bool) (rows cols : Nat) : Nat := rows * cols * bits / 8 + (if scaled then rows * cols / 32 else 0)

/-- The fields that OBJECT_UPDATE may change, within their ranges (R279). -/
def objVarOk (o : ObjRec) (lossByte : Nat) : Bool :=
  decide (o.codecs < 32) && bitOf o.codecs 0 && decide (lossByte ≤ 1) && decide (1 ≤ o.slots ∧ o.slots ≤ 64)
  && decide (1 ≤ o.waitUs ∧ o.waitUs ≤ 100000) && decide (o.transit % 65536 = 0) && decide (field o.transit 47 44 = 2)
  && decide (o.transit < 2 ^ 56)

/-- OBJECT_REGISTER (R278). -/
def objectRegister (m : Mbx) (hm : HM) (r : Req) : HM × Reply :=
  let h := hm.1
  let p := actsFor m
  let id := leAt r.payload 0 2
  let o := objOf r.payload
  let fixedOk := decide (id < 1024) && decide (o.mode ≤ 1) && decide (1 ≤ o.format ∧ o.format ≤ 0x0E)
    && decide (1 ≤ o.rows ∧ o.rows ≤ 65536 ∧ 1 ≤ o.cols ∧ o.cols ≤ 65536 ∧ o.cols % 32 = 0)
    && decide (boltBytes (fmtBits o.format) (decide (3 ≤ o.format ∧ o.format ≤ 7)) o.rows o.cols ≤ 65536)
    && decide (1 ≤ o.count ∧ o.count ≤ 16777216) && decide (o.map % 32 = 0) && decide (o.map < 2 ^ 56)
  if !(ownsArea h p o.map (32 * o.count) && ownsArea h p o.transit (65536 * o.slots)) then (hm, deny 0x21 0)
  else if !(fixedOk && objVarOk o (leAt r.payload 17 1)) then (hm, deny 0x20 0)
  else if (h.tiers.objects.filter (fun e => decide (e.1 / 1024 = p))).length ≥ 1024 then (hm, deny 0x40 0)
  else if (objAt h p id).used then (hm, deny 0x20 0x100)
  else ((setObj h p id o, hm.2), doneC)

/-- OBJECT_UPDATE (R279). -/
def objectUpdate (m : Mbx) (hm : HM) (r : Req) : HM × Reply :=
  let h := hm.1
  let p := actsFor m
  let id := leAt r.payload 0 2
  let o := objOf r.payload
  let x := objAt h p id
  if !x.used then (hm, deny 0x20 0x102)
  else if !(ownsArea h p o.transit (65536 * o.slots)) then (hm, deny 0x21 0)
  else if o.mode ≠ x.mode ∨ o.format ≠ x.format ∨ o.rows ≠ x.rows ∨ o.cols ≠ x.cols ∨ o.count ≠ x.count ∨ o.map ≠ x.map then
    (hm, deny 0x20 0x101)
  else if !objVarOk o (leAt r.payload 17 1) then (hm, deny 0x20 0)
  else ((setObj h p id o, hm.2), doneC)

/-- Descriptors of a partition that were dispatched before an object's retiring finish without setting its tags (R280). -/
def markRetired (h : Hw) (p id : Nat) : Hw :=
  (h.eng.slips.filter (fun e => decide (slipOwner h e.1 = p))).foldl (fun h e =>
    setSlip h e.1 { e.2 with descs := e.2.descs.map (fun d =>
      { d with objs := d.objs.map (fun b => if b.id = id then { b with retired := true } else b) }) }) h

/-- OBJECT_RETIRE (R280): every bobbin slot tag of the object is invalid, on the looms of its partition. -/
def objectRetire (m : Mbx) (hm : HM) (r : Req) : HM × Reply :=
  let h := hm.1
  let p := actsFor m
  let id := leAt r.payload 0 2
  if !(objAt h p id).used then (hm, deny 0x20 0x102)
  else
    let t := tabMap {} h.tiers.tags (fun k g => if g.obj = id ∧ (unitAt h 3 (k / 16 / 4)).owner = p then {} else g)
    let h1 := markRetired h p id
    (({ (setObj h1 p id {}) with tiers := { (setObj h1 p id {}).tiers with tags := t } }, hm.2), doneC)

/-- OBJECT_QUERY. -/
def objectQuery (m : Mbx) (hm : HM) (r : Req) : HM × Reply :=
  let id := leAt r.payload 0 2
  let x := objAt hm.1 (actsFor m) id
  if x.used then (hm, doneQ (objBytes id x)) else (hm, deny 0x20 0x102)

/-! ### MEM_STATUS (R330) -/

/-- A MEM_STATUS entry. -/
def memEntry (c : Channel) (temp : Nat) : List Byte :=
  let path := match c.path with | .none => 0 | .warm => 1 | .cold => 2 | .ldie => 3
  leBytes 1 path ++ leBytes 1 (flag c.failed) ++ leBytes 1 c.failStep ++ leBytes 1 temp ++ leBytes 1 c.refresh
  ++ leBytes 1 c.throttle ++ zeros 2

/-- MEM_STATUS: twelve sites, then the 128 far-tier channels. -/
def memStatus (hm : HM) (_ : Req) : HM × Reply :=
  let h := hm.1
  let at_ (k : Nat) : Channel := tabGet {} h.memhw.chans k
  let site (i : Nat) : List Byte :=
    if h.ident.sites.getD i .stack = SiteKind.ldie then memEntry { path := .ldie } 0 else memEntry (at_ i) ((at_ i).temp / 4)
  (hm, doneQ (leBytes 1 (flag h.memhw.nearOpen) ++ leBytes 1 (flag h.memhw.farOpen) ++ zeros 6
    ++ (List.range 12).flatMap site ++ (List.range 128).flatMap (fun c => memEntry (at_ (16 + c)) (at_ (16 + c)).temp)))

/-! ### Slips, ferries and lock groups -/

/-- SLIP_QUERY (R722). -/
def slipQuery (m : Mbx) (hm : HM) (r : Req) : HM × Reply :=
  let h := hm.1
  let s := leAt r.payload 0 2
  if s ≥ 1024 then (hm, deny 0x20 0)
  else if !mayName h m 5 s then (hm, deny 0x21 0)
  else
    let x := slipAt h s
    (hm, doneQ ((List.range 12).flatMap (fun i => leBytes 8 (slipReg x (8 * i)).toNat) ++ leBytes 2 (placesOf x)
      ++ leBytes 2 x.skip.length ++ zeros 4))

/-- One entry of FERRY_QUERY: places per class, enabled slips, line reads and line writes outstanding (R400, R402). -/
def ferryEntry (h : Hw) (f : Nat) : List Byte :=
  let sl := ferrySlips h f
  (List.range 4).flatMap (fun c => leBytes 2 ((sl.filter (fun s => decide ((slipAt h s).cls = c))).foldl (fun n s => n + placesOf (slipAt h s)
    + (h.tiers.misses.filter (fun m => m.transit.isSome && decide (m.slip = s))).length) 0))
  ++ leBytes 1 sl.length ++ zeros 1 ++ leBytes 2 (outCount h f false) ++ leBytes 2 (outCount h f true) ++ zeros 2

/-- FERRY_QUERY (R400). -/
def ferryQuery (m : Mbx) (hm : HM) (r : Req) : HM × Reply :=
  let h := hm.1
  let g := leAt r.payload 0 1
  if g ≥ 34 then (hm, deny 0x20 0)
  else if !mayName h m 4 g then (hm, deny 0x21 0)
  else (hm, doneQ ((List.range 8).flatMap (fun k => ferryEntry h (8 * g + k))))

/-- The quads a lock command names. -/
def lockNamed (b : List Byte) : List Nat := (List.range (leAt b 2 1)).map (fun i => 32 * leAt b 0 1 + leAt b 1 1 + i)

/-- Whether a lock command's quads form a group of R63. -/
def lockShape (b : List Byte) : Bool :=
  let n := leAt b 2 1
  decide (leAt b 0 1 < 4) && decide (n = 2 ∨ n = 4) && decide (leAt b 1 1 % n = 0) && decide (leAt b 1 1 + n ≤ 32)

/-- Whether an island is gated or closing (R64): from the acceptance of its gate request until it is asked to wake. -/
def gatedOrClosing (h : Hw) (i : Island) : Bool :=
  match (islandAt h i).power with
  | .closing _ => true
  | .drained _ => true
  | .gated => true
  | _ => false

/-- LOCK_GROUP_SET (R64, R65): the lock forms; DONE follows once it has formed. -/
def lockSet (m : Mbx) (hm : HM) (r : Req) : HM × Reply :=
  let h := hm.1
  let b := r.payload
  let qs := lockNamed b
  if leAt b 0 1 ≥ 4 ∨ leAt b 1 1 + leAt b 2 1 > 32 then (hm, deny 0x20 0x100)
  else if !(qs.all (fun q => decide (ownerOf h 3 q = actsFor m))) then (hm, deny 0x21 0)
  else if !lockShape b then (hm, deny 0x20 0x100)
  else if qs.any (fun q => (lockOf h q).isSome || gatedOrClosing h { kind := .quad, idx := q }) then
    (hm, deny 0x11 0)
  else
    let g : LockGroup := { die := leAt b 0 1, first := leAt b 1 1, size := leAt b 2 1, since := h.tb.now }
    (({ h with locks := h.locks ++ [g] }, hm.2), { commit := true, wait := .lock g.die g.first })

/-- LOCK_FORMED (R65): within 50 us the lock completes and its command with it. -/
def lockFormed (h : Hw) (die first : Nat) : Hw :=
  if h.locks.any (fun g => decide (g.die = die ∧ g.first = first) && !g.locked) then
    endWaits { h with locks := h.locks.map (fun g => if g.die = die ∧ g.first = first then { g with locked := true } else g) }
      (fun r => decide (r.wait = Wait.lock die first)) 0 0
  else h

/-- LOCK_GROUP_CLEAR (R64). A group that still forms is one its LOCK_GROUP_SET is changing: BUSY (R137). -/
def lockClear (m : Mbx) (hm : HM) (r : Req) : HM × Reply :=
  let h := hm.1
  let b := r.payload
  let qs := lockNamed b
  let mine (g : LockGroup) : Bool := decide (g.die = leAt b 0 1 ∧ g.first = leAt b 1 1 ∧ g.size = leAt b 2 1)
  if leAt b 0 1 ≥ 4 ∨ leAt b 1 1 + leAt b 2 1 > 32 then (hm, deny 0x20 0x101)
  else if !(qs.all (fun q => decide (ownerOf h 3 q = actsFor m))) then (hm, deny 0x21 0)
  else if !(h.locks.any mine) then (hm, deny 0x20 0x101)
  else if h.locks.any (fun g => mine g && !g.locked) then (hm, deny 0x11 0)
  else if qs.any (fun q => (quadRuns h q).any (·.running)) then (hm, deny 0x11 0)
  else (({ h with locks := h.locks.filter (fun g => !mine g) }, hm.2), doneC)

/-! ### Knots and pools -/

/-- KNOT_QUERY (R480). -/
def knotQuery (m : Mbx) (hm : HM) (r : Req) : HM × Reply :=
  let h := hm.1
  let ref := leAt r.payload 0 4
  let n := refKnot ref
  if ref ≥ 2 ^ 18 then (hm, deny 0x20 0)
  else if !mayName h m 6 (n / 256) then (hm, deny 0x21 0)
  else
    let k := knotAt h n
    (hm, doneQ (leBytes 1 k.type ++ leBytes 1 k.evmode ++ leBytes 1 (flag k.cross + 2 * flag k.broken + 4 * flag k.poison) ++ zeros 1
      ++ leBytes 2 k.irq ++ zeros 2 ++ leBytes 4 k.parties ++ leBytes 4 k.waiters.length ++ leBytes 8 k.value.toNat
      ++ leBytes 32 k.members))

/-- Pools that a sync island holds (R495). -/
def poolsOn (h : Hw) (die : Nat) : Nat := (h.sync.pools.filter (fun e => e.2.used && decide (e.2.die = die))).length

/-- POOL_CREATE (R495): ring slot i takes i for every i below ENTRIES; HEAD 0, TAIL ENTRIES. -/
def poolCreate (m : Mbx) (hm : HM) (r : Req) : HM × Reply :=
  let h := hm.1
  let b := r.payload
  let p := actsFor m
  let id := leAt b 0 1
  let x : Pool := { used := true, die := leAt b 1 1, entries := leAt b 4 4, bufSize := leAt b 8 8, base := leAt b 16 8,
                    ring := leAt b 24 8, refill := leAt b 32 4, tail := w32 (leAt b 4 4) }
  if !(ownsArea h p x.base (x.entries * x.bufSize) && ownsArea h p x.ring (4 * ringCap x.entries)
       && decide (x.refill < 2 ^ 18) && decide (knotOwner h (refKnot x.refill) = p)) then (hm, deny 0x21 0)
  else if !(decide (id < 64 ∧ x.die < 4 ∧ x.base % 4096 = 0 ∧ x.ring % 4096 = 0 ∧ x.bufSize % 4096 = 0)
       && decide (4096 ≤ x.bufSize ∧ x.bufSize ≤ 2 ^ 30 ∧ 1 ≤ x.entries ∧ x.entries ≤ 16777216)) then (hm, deny 0x20 0)
  else if (poolAt h p id).used then (hm, deny 0x20 0x100)
  else if poolsOn h x.die ≥ 256 ∨ (h.sync.pools.filter (fun e => decide (e.1 / 64 = p))).length ≥ 64 then (hm, deny 0x40 0)
  else
    let o := cohWrite hm (compactLocal x.ring) ((List.range x.entries).flatMap (leBytes 4))
    ((setPool o.1 p id x, o.2), doneC)

/-- POOL_DESTROY (R501). -/
def poolDestroy (m : Mbx) (hm : HM) (r : Req) : HM × Reply :=
  let id := leAt r.payload 0 1
  if id < 64 ∧ (poolAt hm.1 (actsFor m) id).used then (destroyPool hm (actsFor m) id, doneC)
  else (hm, deny 0x20 0x101)

/-- POOL_QUERY (R495). -/
def poolQuery (m : Mbx) (hm : HM) (r : Req) : HM × Reply :=
  let id := leAt r.payload 0 1
  let x := poolAt hm.1 (actsFor m) id
  if id < 64 ∧ x.used then
    (hm, doneQ (leBytes 1 id ++ leBytes 1 x.die ++ zeros 2 ++ leBytes 4 x.entries ++ leBytes 8 x.bufSize ++ leBytes 8 x.base
      ++ leBytes 8 x.ring ++ leBytes 4 x.refill ++ zeros 4 ++ leBytes 4 x.head.toNat ++ leBytes 4 x.tail.toNat
      ++ leBytes 4 x.queue.length ++ zeros 4))
  else (hm, deny 0x20 0x101)

/-- KNOT_WAIT_STATS (R510, R108): in us, as at the latest 1 ms boundary. -/
def knotWaitStats (m : Mbx) (hm : HM) (r : Req) : HM × Reply :=
  let h := hm.1
  let first := leAt r.payload 0 4
  let n := leAt r.payload 4 2
  if n = 0 ∨ n > 256 ∨ first + n > 2 ^ 18 then (hm, deny 0x20 0)
  else if !((List.range n).all (fun i => mayName h m 6 ((first + i) / 256))) then (hm, deny 0x21 0)
  else (hm, doneQ ((List.range n).flatMap (fun i => leBytes 8 ((knotAt h (first + i)).waitShown / 1000))))

/-! ### Ledgers -/

/-- The 32 bytes of a ledger entry (Table 17.1). -/
def ledgerBytes (x : Ledger) : List Byte :=
  leBytes 4 x.l ++ leBytes 4 x.t ++ leBytes 8 (x.list / 64 + x.pool * 2 ^ 50 + flag x.active * 2 ^ 63)
  ++ leBytes 8 (x.npages + x.cap * 2 ^ 17 + x.spare * 2 ^ 34) ++ leBytes 8 x.gen.toNat

/-- LEDGER_QUERY (R512). -/
def ledgerQuery (m : Mbx) (hm : HM) (r : Req) : HM × Reply :=
  let h := hm.1
  let n := leAt r.payload 0 2
  if !mayName h m 7 (n / 16) then (hm, deny 0x21 0)
  else (hm, doneQ (ledgerBytes (ledgerAt h n) ++ leBytes 1 (ledgerAt h n).poison ++ zeros 7))

/-! ### The rows -/

/-- OBJECT_REGISTER (R278). -/
def execObjectRegister (m : Mbx) (tag : Nat) (s : State) : Host.Outcome State Fault Refusal :=
  onAll s (fun hm => serve hm m tag 0x0401 (objectRegister m))

/-- OBJECT_UPDATE (R279). -/
def execObjectUpdate (m : Mbx) (tag : Nat) (s : State) : Host.Outcome State Fault Refusal :=
  onAll s (fun hm => serve hm m tag 0x0402 (objectUpdate m))

/-- OBJECT_RETIRE (R280). -/
def execObjectRetire (m : Mbx) (tag : Nat) (s : State) : Host.Outcome State Fault Refusal :=
  onAll s (fun hm => serve hm m tag 0x0403 (objectRetire m))

/-- OBJECT_QUERY (R277). -/
def execObjectQuery (m : Mbx) (tag : Nat) (s : State) : Host.Outcome State Fault Refusal :=
  onAll s (fun hm => serve hm m tag 0x0404 (objectQuery m))

/-- MEM_STATUS (R330). -/
def execMemStatus (m : Mbx) (tag : Nat) (s : State) : Host.Outcome State Fault Refusal :=
  onAll s (fun hm => serve hm m tag 0x0405 memStatus)

/-- SLIP_QUERY (R722). -/
def execSlipQuery (m : Mbx) (tag : Nat) (s : State) : Host.Outcome State Fault Refusal :=
  onAll s (fun hm => serve hm m tag 0x0501 (slipQuery m))

/-- FERRY_QUERY (R400). -/
def execFerryQuery (m : Mbx) (tag : Nat) (s : State) : Host.Outcome State Fault Refusal :=
  onAll s (fun hm => serve hm m tag 0x0502 (ferryQuery m))

/-- LOCK_GROUP_SET (R64). -/
def execLockGroupSet (m : Mbx) (tag : Nat) (s : State) : Host.Outcome State Fault Refusal :=
  onAll s (fun hm => serve hm m tag 0x0601 (lockSet m))

/-- LOCK_GROUP_CLEAR (R64). -/
def execLockGroupClear (m : Mbx) (tag : Nat) (s : State) : Host.Outcome State Fault Refusal :=
  onAll s (fun hm => serve hm m tag 0x0602 (lockClear m))

/-- KNOT_QUERY (R480). -/
def execKnotQuery (m : Mbx) (tag : Nat) (s : State) : Host.Outcome State Fault Refusal :=
  onAll s (fun hm => serve hm m tag 0x0701 (knotQuery m))

/-- POOL_CREATE (R495). -/
def execPoolCreate (m : Mbx) (tag : Nat) (s : State) : Host.Outcome State Fault Refusal :=
  onAll s (fun hm => serve hm m tag 0x0702 (poolCreate m))

/-- POOL_DESTROY (R501). -/
def execPoolDestroy (m : Mbx) (tag : Nat) (s : State) : Host.Outcome State Fault Refusal :=
  onAll s (fun hm => serve hm m tag 0x0703 (poolDestroy m))

/-- POOL_QUERY (R495). -/
def execPoolQuery (m : Mbx) (tag : Nat) (s : State) : Host.Outcome State Fault Refusal :=
  onAll s (fun hm => serve hm m tag 0x0704 (poolQuery m))

/-- KNOT_WAIT_STATS (R510). -/
def execKnotWaitStats (m : Mbx) (tag : Nat) (s : State) : Host.Outcome State Fault Refusal :=
  onAll s (fun hm => serve hm m tag 0x0705 (knotWaitStats m))

/-- LEDGER_QUERY (R512). -/
def execLedgerQuery (m : Mbx) (tag : Nat) (s : State) : Host.Outcome State Fault Refusal :=
  onAll s (fun hm => serve hm m tag 0x0801 (ledgerQuery m))

/-- LOCK_FORMED (R65): the group of a die and its first quad. -/
def execLockFormed (die first : Nat) (s : State) : Host.Outcome State Fault Refusal := onHw s (fun h => lockFormed h die first)

end Sys2Proof.Machine
end

