-- ==== Sys2Proof/Machine/Dispatch.lean ====
section
/-! DEFINITION. One arm per command, each a direct call of its meaning. -/
namespace Sys2Proof.Machine

/-- The effect of a command on everything but the queue. -/
def exec (i : Instr) (s : State) : Host.Outcome State Fault Refusal :=
  match i with
  | .mbxDoorbell m value => Sys2Proof.Machine.execMbxDoorbell m value s
  | .standIn m => Sys2Proof.Machine.execStandIn m s
  | .acceptance m => Sys2Proof.Machine.execAcceptance m s
  | .acceptedInterim m tag => Sys2Proof.Machine.execAcceptedInterim m tag s
  | .commandTimeout m tag => Sys2Proof.Machine.execCommandTimeout m tag s
  | .responsePost m => Sys2Proof.Machine.execResponsePost m s
  | .mbxRspAck m => Sys2Proof.Machine.execMbxRspAck m s
  | .keeperFrame bus port rid vendor mtag bytes => Sys2Proof.Machine.execKeeperFrame bus port rid vendor mtag bytes s
  | .mctpControl bus port rid => Sys2Proof.Machine.execMctpControl bus port rid s
  | .pldmRequest bus port rid type => Sys2Proof.Machine.execPldmRequest bus port rid type s
  | .spdmRequest bus port rid req => Sys2Proof.Machine.execSpdmRequest bus port rid req s
  | .versionGet m tag => Sys2Proof.Machine.execVersionGet m tag s
  | .sessionOpen m tag => Sys2Proof.Machine.execSessionOpen m tag s
  | .sessionClose m tag => Sys2Proof.Machine.execSessionClose m tag s
  | .echo m tag => Sys2Proof.Machine.execEcho m tag s
  | .outcomeGet m tag => Sys2Proof.Machine.execOutcomeGet m tag s
  | .spdmMessage m tag => Sys2Proof.Machine.execSpdmMessage m tag s
  | .devReportGet m tag report meas => Sys2Proof.Machine.execDevReportGet m tag report meas s
  | .devAccept m tag => Sys2Proof.Machine.execDevAccept m tag s
  | .identityGet m tag => Sys2Proof.Machine.execIdentityGet m tag s
  | .partCreate m tag => Sys2Proof.Machine.execPartCreate m tag s
  | .partDestroy m tag => Sys2Proof.Machine.execPartDestroy m tag s
  | .partAssign m tag => Sys2Proof.Machine.execPartAssign m tag s
  | .partRelease m tag => Sys2Proof.Machine.execPartRelease m tag s
  | .partQuery m tag => Sys2Proof.Machine.execPartQuery m tag s
  | .partConfig m tag => Sys2Proof.Machine.execPartConfig m tag s
  | .waymaskSet m tag => Sys2Proof.Machine.execWaymaskSet m tag s
  | .scrubReportGet m tag => Sys2Proof.Machine.execScrubReportGet m tag s
  | .shelfSplitSet m tag => Sys2Proof.Machine.execShelfSplitSet m tag s
  | .objectRegister m tag => Sys2Proof.Machine.execObjectRegister m tag s
  | .objectUpdate m tag => Sys2Proof.Machine.execObjectUpdate m tag s
  | .objectRetire m tag => Sys2Proof.Machine.execObjectRetire m tag s
  | .objectQuery m tag => Sys2Proof.Machine.execObjectQuery m tag s
  | .memStatus m tag => Sys2Proof.Machine.execMemStatus m tag s
  | .slipQuery m tag => Sys2Proof.Machine.execSlipQuery m tag s
  | .ferryQuery m tag => Sys2Proof.Machine.execFerryQuery m tag s
  | .lockGroupSet m tag => Sys2Proof.Machine.execLockGroupSet m tag s
  | .lockFormed die first => Sys2Proof.Machine.execLockFormed die first s
  | .lockGroupClear m tag => Sys2Proof.Machine.execLockGroupClear m tag s
  | .knotQuery m tag => Sys2Proof.Machine.execKnotQuery m tag s
  | .poolCreate m tag => Sys2Proof.Machine.execPoolCreate m tag s
  | .poolDestroy m tag => Sys2Proof.Machine.execPoolDestroy m tag s
  | .poolQuery m tag => Sys2Proof.Machine.execPoolQuery m tag s
  | .knotWaitStats m tag => Sys2Proof.Machine.execKnotWaitStats m tag s
  | .ledgerQuery m tag => Sys2Proof.Machine.execLedgerQuery m tag s
  | .powerBudgetSet m tag => Sys2Proof.Machine.execPowerBudgetSet m tag s
  | .powerBoundsSet m tag => Sys2Proof.Machine.execPowerBoundsSet m tag s
  | .railCapSet m tag => Sys2Proof.Machine.execRailCapSet m tag s
  | .thermalSet m tag => Sys2Proof.Machine.execThermalSet m tag s
  | .poolConfig m tag => Sys2Proof.Machine.execPoolConfig m tag s
  | .powerTelemetry m tag => Sys2Proof.Machine.execPowerTelemetry m tag s
  | .powerStatus m tag => Sys2Proof.Machine.execPowerStatus m tag s
  | .fenceStatus m tag => Sys2Proof.Machine.execFenceStatus m tag s
  | .logRead m tag => Sys2Proof.Machine.execLogRead m tag s
  | .logRelease m tag => Sys2Proof.Machine.execLogRelease m tag s
  | .faultQueueRead m tag => Sys2Proof.Machine.execFaultQueueRead m tag s
  | .unitReconcile m tag bad agree => Sys2Proof.Machine.execUnitReconcile m tag bad agree s
  | .scrubRetry m tag bad => Sys2Proof.Machine.execScrubRetry m tag bad s
  | .logResync m tag result => Sys2Proof.Machine.execLogResync m tag result s
  | .lastWordClear m tag => Sys2Proof.Machine.execLastWordClear m tag s
  | .bucketSet m tag => Sys2Proof.Machine.execBucketSet m tag s
  | .bucketGet m tag => Sys2Proof.Machine.execBucketGet m tag s
  | .patrolSet m tag => Sys2Proof.Machine.execPatrolSet m tag s
  | .poisonQuery m tag => Sys2Proof.Machine.execPoisonQuery m tag s
  | .poisonClear m tag => Sys2Proof.Machine.execPoisonClear m tag s
  | .archStatus m tag => Sys2Proof.Machine.execArchStatus m tag s
  | .archFound m tag => Sys2Proof.Machine.execArchFound m tag s
  | .archJoin m tag => Sys2Proof.Machine.execArchJoin m tag s
  | .archAdmit m tag => Sys2Proof.Machine.execArchAdmit m tag s
  | .archPolicySet m tag => Sys2Proof.Machine.execArchPolicySet m tag s
  | .archDepart m tag => Sys2Proof.Machine.execArchDepart m tag s
  | .archRoleSet m tag => Sys2Proof.Machine.execArchRoleSet m tag s
  | .archSetBind m tag => Sys2Proof.Machine.execArchSetBind m tag s
  | .archSetUnbind m tag => Sys2Proof.Machine.execArchSetUnbind m tag s
  | .archCensus m tag => Sys2Proof.Machine.execArchCensus m tag s
  | .archCensusRead m tag => Sys2Proof.Machine.execArchCensusRead m tag s
  | .linkControl m tag => Sys2Proof.Machine.execLinkControl m tag s
  | .portStatus m tag => Sys2Proof.Machine.execPortStatus m tag s
  | .portConfig m tag => Sys2Proof.Machine.execPortConfig m tag s
  | .slotControl m tag => Sys2Proof.Machine.execSlotControl m tag s
  | .devAssign m tag dev => Sys2Proof.Machine.execDevAssign m tag dev s
  | .hdmDecoderSet m tag => Sys2Proof.Machine.execHdmDecoderSet m tag s
  | .pinSet m tag smb => Sys2Proof.Machine.execPinSet m tag smb s
  | .pinSwitchWindowEnd pin => Sys2Proof.Machine.execPinSwitchWindowEnd pin s
  | .pinForced pin => Sys2Proof.Machine.execPinForced pin s
  | .pinStatus m tag => Sys2Proof.Machine.execPinStatus m tag s
  | .rtcSet m tag => Sys2Proof.Machine.execRtcSet m tag s
  | .rtcAlarmSet m tag => Sys2Proof.Machine.execRtcAlarmSet m tag s
  | .chargerSet m tag => Sys2Proof.Machine.execChargerSet m tag s
  | .shipModeArm m tag => Sys2Proof.Machine.execShipModeArm m tag s
  | .shipModeDisarm m tag => Sys2Proof.Machine.execShipModeDisarm m tag s
  | .tamperConfig m tag => Sys2Proof.Machine.execTamperConfig m tag s
  | .kaStatus m tag => Sys2Proof.Machine.execKaStatus m tag s
  | .benchEnter m tag => Sys2Proof.Machine.execBenchEnter m tag s
  | .benchStatus m tag => Sys2Proof.Machine.execBenchStatus m tag s
  | .repairCandidatesGet m tag => Sys2Proof.Machine.execRepairCandidatesGet m tag s
  | .repairCandidateClear m tag => Sys2Proof.Machine.execRepairCandidateClear m tag s
  | .memMargin m tag eyes => Sys2Proof.Machine.execMemMargin m tag eyes s
  | .memTest m tag fails firstFail => Sys2Proof.Machine.execMemTest m tag fails firstFail s
  | .repairResourcesGet m tag => Sys2Proof.Machine.execRepairResourcesGet m tag s
  | .hbmSppr m tag pass => Sys2Proof.Machine.execHbmSppr m tag pass s
  | .hbmHppr m tag pass => Sys2Proof.Machine.execHbmHppr m tag pass s
  | .hbmLaneRemap m tag pass => Sys2Proof.Machine.execHbmLaneRemap m tag pass s
  | .lpPpr m tag pass => Sys2Proof.Machine.execLpPpr m tag pass s
  | .partReset m tag => Sys2Proof.Machine.execPartReset m tag s
  | .unitReset m tag => Sys2Proof.Machine.execUnitReset m tag s
  | .mgmtRestart m tag => Sys2Proof.Machine.execMgmtRestart m tag s
  | .pkgReset m tag => Sys2Proof.Machine.execPkgReset m tag s
  | .powerStateSet m tag => Sys2Proof.Machine.execPowerStateSet m tag s
  | .powerStateConfig m tag => Sys2Proof.Machine.execPowerStateConfig m tag s
  | .wakeReportGet m tag => Sys2Proof.Machine.execWakeReportGet m tag s
  | .keepaliveAck m tag => Sys2Proof.Machine.execKeepaliveAck m tag s
  | .trainingCacheClear m tag => Sys2Proof.Machine.execTrainingCacheClear m tag s
  | .fwVersion m tag => Sys2Proof.Machine.execFwVersion m tag s
  | .fwWrite m tag => Sys2Proof.Machine.execFwWrite m tag s
  | .fwVerify m tag info => Sys2Proof.Machine.execFwVerify m tag info s
  | .fwActivate m tag => Sys2Proof.Machine.execFwActivate m tag s
  | .registerWrite t w v => Sys2Proof.Machine.execRegisterWrite t w v s
  | .fqHead k v => Sys2Proof.Machine.execFqHead k v s
  | .fqOvfTake k => Sys2Proof.Machine.execFqOvfTake k s
  | .slpDoorbell p slip v => Sys2Proof.Machine.execSlpDoorbell p slip v s
  | .slpDone p slip v => Sys2Proof.Machine.execSlpDone p slip v s
  | .slpRing p slip v => Sys2Proof.Machine.execSlpRing p slip v s
  | .enable p slip => Sys2Proof.Machine.execEnable p slip s
  | .disable p slip => Sys2Proof.Machine.execDisable p slip s
  | .slipDisabled slip => Sys2Proof.Machine.execSlipDisabled slip s
  | .restart p slip => Sys2Proof.Machine.execRestart p slip s
  | .restartSkip p slip => Sys2Proof.Machine.execRestartSkip p slip s
  | .all p => Sys2Proof.Machine.execAll p s
  | .asid p asid => Sys2Proof.Machine.execAsid p asid s
  | .vmid p vmid => Sys2Proof.Machine.execVmid p vmid s
  | .descriptorPause slip seq => Sys2Proof.Machine.execDescriptorPause slip seq s
  | .slpXinvSync n => Sys2Proof.Machine.execSlpXinvSync n s
  | .kntSignal p knot v => Sys2Proof.Machine.execKntSignal p knot v s
  | .kntValue hart knot => Sys2Proof.Machine.execKntValue hart knot s
  | .seteipnumLe p hart file v => Sys2Proof.Machine.execSeteipnumLe p hart file v s
  | .hartLoad a => Sys2Proof.Machine.execHartLoad a s
  | .hartStore a data => Sys2Proof.Machine.execHartStore a data s
  | .hartFetch a => Sys2Proof.Machine.execHartFetch a s
  | .amo a o operand compare => Sys2Proof.Machine.execAmo a o operand compare s
  | .lr a => Sys2Proof.Machine.execLr a s
  | .sc a data => Sys2Proof.Machine.execSc a data s
  | .fence hart va sets => Sys2Proof.Machine.execFence hart va sets s
  | .ycfence hart v => Sys2Proof.Machine.execYcfence hart v s
  | .stop hart => Sys2Proof.Machine.execStop hart s
  | .ymhartstart hart target => Sys2Proof.Machine.execYmhartstart hart target s
  | .mnret hart => Sys2Proof.Machine.execMnret hart s
  | .descriptorFetch f u => Sys2Proof.Machine.execDescriptorFetch f u s
  | .staging slip => Sys2Proof.Machine.execStaging slip s
  | .walk g u => Sys2Proof.Machine.execWalk g u s
  | .dispatch f => Sys2Proof.Machine.execDispatch f s
  | .boltMissFill slip seq => Sys2Proof.Machine.execBoltMissFill slip seq s
  | .descriptorComplete slip => Sys2Proof.Machine.execDescriptorComplete slip s
  | .channelHalt slip seq addr => Sys2Proof.Machine.execChannelHalt slip seq addr s
  | .move slip seq n => Sys2Proof.Machine.execMove slip seq n s
  | .fill slip seq n => Sys2Proof.Machine.execFill slip seq n s
  | .boltLoad slip seq => Sys2Proof.Machine.execBoltLoad slip seq s
  | .boltStore slip seq => Sys2Proof.Machine.execBoltStore slip seq s
  | .boltMove slip seq => Sys2Proof.Machine.execBoltMove slip seq s
  | .boltCopyUp slip seq => Sys2Proof.Machine.execBoltCopyUp slip seq s
  | .boltClean slip seq => Sys2Proof.Machine.execBoltClean slip seq s
  | .boltDrop slip seq => Sys2Proof.Machine.execBoltDrop slip seq s
  | .boltTakeRetry slip seq => Sys2Proof.Machine.execBoltTakeRetry slip seq s
  | .boltWait slip seq => Sys2Proof.Machine.execBoltWait slip seq s
  | .atomic slip seq => Sys2Proof.Machine.execAtomic slip seq s
  | .barrier slip seq => Sys2Proof.Machine.execBarrier slip seq s
  | .nop slip seq => Sys2Proof.Machine.execNop slip seq s
  | .weave slip seq => Sys2Proof.Machine.execWeave slip seq s
  | .passStart slip seq => Sys2Proof.Machine.execPassStart slip seq s
  | .bankSwap slip seq parity => Sys2Proof.Machine.execBankSwap slip seq parity s
  | .drain slip seq => Sys2Proof.Machine.execDrain slip seq s
  | .passCut slip seq => Sys2Proof.Machine.execPassCut slip seq s
  | .map slip seq => Sys2Proof.Machine.execMap slip seq s
  | .reduce slip seq => Sys2Proof.Machine.execReduce slip seq s
  | .softmax slip seq => Sys2Proof.Machine.execSoftmax slip seq s
  | .norm slip seq => Sys2Proof.Machine.execNorm slip seq s
  | .select slip seq => Sys2Proof.Machine.execSelect slip seq s
  | .quant slip seq => Sys2Proof.Machine.execQuant slip seq s
  | .dequant slip seq => Sys2Proof.Machine.execDequant slip seq s
  | .sample slip seq => Sys2Proof.Machine.execSample slip seq s
  | .rowEnd slip seq parity => Sys2Proof.Machine.execRowEnd slip seq parity s
  | .rowCut slip seq => Sys2Proof.Machine.execRowCut slip seq s
  | .knotInit slip seq => Sys2Proof.Machine.execKnotInit slip seq s
  | .knotSignal slip seq ans => Sys2Proof.Machine.execKnotSignal slip seq ans s
  | .knotWait slip seq ans => Sys2Proof.Machine.execKnotWait slip seq ans s
  | .knotTimeout slip seq => Sys2Proof.Machine.execKnotTimeout slip seq s
  | .remoteWaitRetry slip seq ans => Sys2Proof.Machine.execRemoteWaitRetry slip seq ans s
  | .poolAlloc slip seq => Sys2Proof.Machine.execPoolAlloc slip seq s
  | .poolFree slip seq => Sys2Proof.Machine.execPoolFree slip seq s
  | .poolEmpty slip seq => Sys2Proof.Machine.execPoolEmpty slip seq s
  | .ledgerInit slip seq => Sys2Proof.Machine.execLedgerInit slip seq s
  | .ledgerExtend slip seq => Sys2Proof.Machine.execLedgerExtend slip seq s
  | .ledgerCommit slip seq => Sys2Proof.Machine.execLedgerCommit slip seq s
  | .ledgerRollback slip seq => Sys2Proof.Machine.execLedgerRollback slip seq s
  | .ledgerTrim slip seq => Sys2Proof.Machine.execLedgerTrim slip seq s
  | .ledgerExtendTimeout slip seq => Sys2Proof.Machine.execLedgerExtendTimeout slip seq s
  | .verify slip seq => Sys2Proof.Machine.execVerify slip seq s
  | .readShared agent part addr => Sys2Proof.Machine.execReadShared agent part addr s
  | .readOwn agent part addr => Sys2Proof.Machine.execReadOwn agent part addr s
  | .readOnce agent part addr => Sys2Proof.Machine.execReadOnce agent part addr s
  | .writeLine agent part addr data poison => Sys2Proof.Machine.execWriteLine agent part addr data poison s
  | .writePart agent part addr data mask poison => Sys2Proof.Machine.execWritePart agent part addr data mask poison s
  | .writeBack agent addr data poison => Sys2Proof.Machine.execWriteBack agent addr data poison s
  | .atomicHome agent part addr op size operand compare => Sys2Proof.Machine.execAtomicHome agent part addr op size operand compare s
  | .atomicMem part addr op size operand compare => Sys2Proof.Machine.execAtomicMem part addr op size operand compare s
  | .snp agent addr kind => Sys2Proof.Machine.execSnp agent addr kind s
  | .straitMessage a b cls flit part back => Sys2Proof.Machine.execStraitMessage a b cls flit part back s
  | .straitHandshakeTimeout a b part => Sys2Proof.Machine.execStraitHandshakeTimeout a b part s
  | .ghostDiscard b cls kind part addr => Sys2Proof.Machine.execGhostDiscard b cls kind part addr s
  | .close i_ => Sys2Proof.Machine.execClose i_ s
  | .drainComplete i_ => Sys2Proof.Machine.execDrainComplete i_ s
  | .gateAbandon i_ => Sys2Proof.Machine.execGateAbandon i_ s
  | .gate i_ => Sys2Proof.Machine.execGate i_ s
  | .wakeRequested i_ => Sys2Proof.Machine.execWakeRequested i_ s
  | .straitsOpen i_ => Sys2Proof.Machine.execStraitsOpen i_ s
  | .syncMarker => Sys2Proof.Machine.execSyncMarker s
  | .tbRefLost => Sys2Proof.Machine.execTbRefLost s
  | .tbRefRestored ahead => Sys2Proof.Machine.execTbRefRestored ahead s
  | .cp cause => Sys2Proof.Machine.execCp cause s
  | .keepAliveCheck anchor => Sys2Proof.Machine.execKeepAliveCheck anchor s
  | .rootPortsConfigured ports pins => Sys2Proof.Machine.execRootPortsConfigured ports pins s
  | .trainingStart cacheOk => Sys2Proof.Machine.execTrainingStart cacheOk s
  | .trainingStep unit ok gib => Sys2Proof.Machine.execTrainingStep unit ok gib s
  | .tierOpened near => Sys2Proof.Machine.execTierOpened near s
  | .bootResources vector => Sys2Proof.Machine.execBootResources vector s
  | .coresReleased => Sys2Proof.Machine.execCoresReleased s
  | .ready => Sys2Proof.Machine.execReady s
  | .backgroundScrub k bad => Sys2Proof.Machine.execBackgroundScrub k bad s
  | .scrubComplete seq bad => Sys2Proof.Machine.execScrubComplete seq bad s
  | .wp cause => Sys2Proof.Machine.execWp cause s
  | .wpZeroised => Sys2Proof.Machine.execWpZeroised s
  | .mr => Sys2Proof.Machine.execMr s
  | .lockstepMismatch => Sys2Proof.Machine.execLockstepMismatch s
  | .craluWatchdog => Sys2Proof.Machine.execCraluWatchdog s
  | .mrFail => Sys2Proof.Machine.execMrFail s
  | .kr => Sys2Proof.Machine.execKr s
  | .idleEntry wfi => Sys2Proof.Machine.execIdleEntry wfi s
  | .drowseEntry => Sys2Proof.Machine.execDrowseEntry s
  | .dormantEntry => Sys2Proof.Machine.execDormantEntry s
  | .exitTrigger by_ => Sys2Proof.Machine.execExitTrigger by_ s
  | .dormantExit by_ ok => Sys2Proof.Machine.execDormantExit by_ ok s
  | .pwrGoodFall => Sys2Proof.Machine.execPwrGoodFall s
  | .causeOfDoubt c => Sys2Proof.Machine.execCauseOfDoubt c s
  | .rateLimitFlush type unit => Sys2Proof.Machine.execRateLimitFlush type unit s
  | .logCopyFail copy addr => Sys2Proof.Machine.execLogCopyFail copy addr s
  | .logLost => Sys2Proof.Machine.execLogLost s
  | .reconciliation ms => Sys2Proof.Machine.execReconciliation ms s
  | .patrolRead u e => Sys2Proof.Machine.execPatrolRead u e s
  | .metaUe u => Sys2Proof.Machine.execMetaUe u s
  | .recalibration unit chan lanes => Sys2Proof.Machine.execRecalibration unit chan lanes s
  | .nearHot site temp => Sys2Proof.Machine.execNearHot site temp s
  | .farHot chan mr4 mult overLimit => Sys2Proof.Machine.execFarHot chan mr4 mult overLimit s
  | .targetedRefresh unit chan bank row n => Sys2Proof.Machine.execTargetedRefresh unit chan bank row n s
  | .railSample rail cur win us ms ok => Sys2Proof.Machine.execRailSample rail cur win us ms ok s
  | .protectiveRelease rail => Sys2Proof.Machine.execProtectiveRelease rail s
  | .droop i_ => Sys2Proof.Machine.execDroop i_ s
  | .thermalSample readings => Sys2Proof.Machine.execThermalSample readings s
  | .prochotExt => Sys2Proof.Machine.execProchotExt s
  | .budgetLoop inputW energies => Sys2Proof.Machine.execBudgetLoop inputW energies s
  | .poolEpochStart => Sys2Proof.Machine.execPoolEpochStart s
  | .poolEpoch => Sys2Proof.Machine.execPoolEpoch s
  | .leaseEnd => Sys2Proof.Machine.execLeaseEnd s
  | .presenceTick => Sys2Proof.Machine.execPresenceTick s
  | .presence c p => Sys2Proof.Machine.execPresence c p s
  | .join c => Sys2Proof.Machine.execJoin c s
  | .joinAnswer c accept => Sys2Proof.Machine.execJoinAnswer c accept s
  | .delayReq rx => Sys2Proof.Machine.execDelayReq rx s
  | .delayRsp c rx tx => Sys2Proof.Machine.execDelayRsp c rx tx s
  | .timeTick => Sys2Proof.Machine.execTimeTick s
  | .time c corr residence => Sys2Proof.Machine.execTime c corr residence s
  | .timeFrameTimeout => Sys2Proof.Machine.execTimeFrameTimeout s
  | .admitFrame c dest a => Sys2Proof.Machine.execAdmit c dest a s
  | .admitted c pos tag digest => Sys2Proof.Machine.execAdmitted c pos tag digest s
  | .departing c pos => Sys2Proof.Machine.execDeparting c pos s
  | .departed c pos => Sys2Proof.Machine.execDeparted c pos s
  | .removed c pos reason => Sys2Proof.Machine.execRemoved c pos reason s
  | .abandon c => Sys2Proof.Machine.execAbandon c s
  | .fenced c => Sys2Proof.Machine.execFenced c s
  | .causewayPortBreak port => Sys2Proof.Machine.execCausewayPortBreak port s
  | .break c port lastTag => Sys2Proof.Machine.execBreak c port lastTag s
  | .restored c port lastTag => Sys2Proof.Machine.execRestored c port lastTag s
  | .role c dest m role port => Sys2Proof.Machine.execRole c dest m role port s
  | .roleSuccession role => Sys2Proof.Machine.execRoleSuccession role s
  | .memberAbsent pos => Sys2Proof.Machine.execMemberAbsent pos s
  | .route c num at_ edges => Sys2Proof.Machine.execRoute c num at_ edges s
  | .routeActivation => Sys2Proof.Machine.execRouteActivation s
  | .set c set bound => Sys2Proof.Machine.execSet c set bound s
  | .censusReq c seq ts => Sys2Proof.Machine.execCensusReq c seq ts s
  | .censusSample initiator seq => Sys2Proof.Machine.execCensusSample initiator seq s
  | .censusData c dest seq mark entry => Sys2Proof.Machine.execCensusData c dest seq mark entry s
  | .censusComplete seq => Sys2Proof.Machine.execCensusComplete seq s
  | .poolTelemetry c set looms waitTotal awaited => Sys2Proof.Machine.execPoolTelemetry c set looms waitTotal awaited s
  | .poolGrant c dest set watts issued => Sys2Proof.Machine.execPoolGrant c dest set watts issued s
  | .wake c tag ok => Sys2Proof.Machine.execWake c tag ok s
  | .reattest pos a => Sys2Proof.Machine.execReattest pos a s
  | .linkTrained port peer tag arch => Sys2Proof.Machine.execLinkTrained port peer tag arch s
  | .linkKeyExchange port ok => Sys2Proof.Machine.execLinkKeyExchange port ok s
  | .flit port seq good => Sys2Proof.Machine.execFlit port seq good s
  | .nak port seq => Sys2Proof.Machine.execNak port seq s
  | .ack port seq => Sys2Proof.Machine.execAck port seq s
  | .linkDown port => Sys2Proof.Machine.execLinkDown port s
  | .linkRetrainAttempt port => Sys2Proof.Machine.execLinkRetrainAttempt port s
  | .segment port stream gen counter tagOk msgs => Sys2Proof.Machine.execSegment port stream gen counter tagOk msgs s
  | .generationChange port stream => Sys2Proof.Machine.execGenerationChange port stream s
  | .inboundRequest func stream addr req => Sys2Proof.Machine.execInboundRequest func stream addr req s
  | .devError who addr requester reason => Sys2Proof.Machine.execDevError who addr requester reason s
  | .hotplugAdd port rate width => Sys2Proof.Machine.execHotplugAdd port rate width s
  | .slotPowerFault port => Sys2Proof.Machine.execSlotPowerFault port s
  | .hotplugRemove port => Sys2Proof.Machine.execHotplugRemove port s
  | .slotButton port => Sys2Proof.Machine.execSlotButton port s
  | .ideFail func integrity => Sys2Proof.Machine.execIdeFail func integrity s
  | .cxlPortLost port media => Sys2Proof.Machine.execCxlPortLost port media s
  | .i3cHotJoin => Sys2Proof.Machine.execI3cHotJoin s
  | .moduleAttention => Sys2Proof.Machine.execModuleAttention s
  | .irqIn pin level asserted wired => Sys2Proof.Machine.execIrqIn pin level asserted wired s
  | .wakeN pin ok => Sys2Proof.Machine.execWakeN pin ok s
  | .timePulse pin => Sys2Proof.Machine.execTimePulse pin s
  | .kaBtnRelease heldMs => Sys2Proof.Machine.execKaBtnRelease heldMs s
  | .kaBtnHold => Sys2Proof.Machine.execKaBtnHold s
  | .tamper input => Sys2Proof.Machine.execTamper input s
  | .vkaFall => Sys2Proof.Machine.execVkaFall s
  | .vkaReturn => Sys2Proof.Machine.execVkaReturn s
  | .cellFault cause mv => Sys2Proof.Machine.execCellFault cause mv s
  | .rtcAlarm ok => Sys2Proof.Machine.execRtcAlarm ok s
  | .rtcCopy => Sys2Proof.Machine.execRtcCopy s
  | .causewayIslandRunning => Sys2Proof.Machine.execCausewayIslandRunning s
  | .ownJoinSent => Sys2Proof.Machine.execOwnJoinSent s
  | .idurrumTrainingBegins => Sys2Proof.Machine.execIdurrumTrainingBegins s
  | .causewayCarrier port => Sys2Proof.Machine.execCausewayCarrier port s
  | .causewayFrameUnprocessed c type crcOk body => Sys2Proof.Machine.execCausewayFrameUnprocessed c type crcOk body s
  | .retrainComplete port => Sys2Proof.Machine.execRetrainComplete port s
  | .fenceOrderedSet port => Sys2Proof.Machine.execFenceOrderedSet port s
  | .rootPortLinkUp port rate width => Sys2Proof.Machine.execRootPortLinkUp port rate width s
  | .rootPortLinkDown port dpc => Sys2Proof.Machine.execRootPortLinkDown port dpc s
  | .ideKeyRefresh => Sys2Proof.Machine.execIdeKeyRefresh s
  | .dynamicAddressAssignment addr => Sys2Proof.Machine.execDynamicAddressAssignment addr s
  | .tapInstruction op => Sys2Proof.Machine.execTapInstruction op s
  | .droopEnd i_ => Sys2Proof.Machine.execDroopEnd i_ s
  | .prochotExtRelease => Sys2Proof.Machine.execProchotExtRelease s
  | .cellBelowHold mv => Sys2Proof.Machine.execCellBelowHold mv s
  | .chargePhase mv tail => Sys2Proof.Machine.execChargePhase mv tail s
  | .tamperDeasserted input => Sys2Proof.Machine.execTamperDeasserted input s
  | .busIdle pin => Sys2Proof.Machine.execBusIdle pin s
  | .neutralWindowOpen pin ext => Sys2Proof.Machine.execNeutralWindowOpen pin ext s
  | .reservationTimeout hart => Sys2Proof.Machine.execReservationTimeout hart s
  | .refresh unit => Sys2Proof.Machine.execRefresh unit s

end Sys2Proof.Machine
end

