-- ==== Sys2Proof/Safety.lean ====
section
/-! DEFINITION. What statements mean by a command that completes, a property that every step keeps, a safe run, a mailbox command that
is served, and its answer. -/
namespace Sys2Proof

/-- A command completes in a state: it answers a next state of which something holds. -/
def Completes (c : Instr) (s : Machine.State) (post : Machine.State → Prop) : Prop := ∃ t, Machine.exec c s = .next t ∧ post t

/-- A property that every step keeps, in every state, reached by a run or not. -/
def StepKeeps (inv : Machine.State → Prop) : Prop := ∀ s t, inv s → Machine.step s = .next t → inv t

/-- A safe run of k steps: no step of it faults or is refused, and the property holds in the state it ends in. -/
def SafeRun (inv : Machine.State → Prop) (s : Machine.State) (k : Nat) : Prop := ∃ t, core.run k s = .next t ∧ inv t

namespace Machine

/-- A state with other hardware: its memory and its queue stay. -/
abbrev State.withHw (s : State) (h : Hw) : State := { s with hw := h }

/-- A state after a row that leaves the byte memory alone and whose effect gives that hardware: an interrupt it delivered ends Idle or
Drowse, and its messages are routed. -/
abbrev State.ended (s : State) (h : Hw) : State := s.withHw (stepEnd h)

/-- A state with other hardware and memory: its queue stays. -/
abbrev State.withHm (s : State) (o : HM) : State := { s with hw := o.1, mem := o.2 }

/-- A state after a row whose effect gives that hardware and memory: an interrupt it delivered ends Idle or Drowse, and its messages are
routed. -/
abbrev State.routed (s : State) (o : HM) : State := s.withHm (stepEnd o.1, o.2)

/-- A state after a row at a sync island: the queues of pools and ledgers are served, then its messages routed. -/
abbrev State.settled (s : State) (o : HM) : State := s.routed (settle o)

/-- No access of a step that gives this hardware has to wait: the home and the islands that each needs are ready (R73, R234, R238, R271). -/
abbrev NoWait (h : Hw) : Prop := h.coh.stalls = []

/-- A state after a step of a ferry's descriptor none of whose accesses has to wait: none of them is outstanding any more (R402). -/
abbrev State.ferried (s : State) (i : Nat) (q : W32) (o : HM) : State := s.routed (tagWrites (setOuts o.1 (o.1.eng.outs.filter (fun x => !outOf i q x))) (.slip i q), o.2)

/-- What a slip's descriptor leaves, its writes to other packages marked as that descriptor's (R221). -/
abbrev tagged (o : HM) (i : Nat) (q : W32) : HM := (tagWrites o.1 (.slip i q), o.2)

/-- A mailbox command may run now: the oldest accepted request of the mailbox that has not begun carries that tag and code, its session
has not closed since its acceptance, the mailbox is READY, no request of another mailbox accepted before it still has to run (R136), its deadline has not
passed before its commit point (R139) and the outcome store has room (R724). -/
abbrev Serving (s : State) (m : Mbx) (tag code : Nat) (r : Req) : Prop :=
  nextReq (boxAt s.hw m) = some r ∧ r.orphan = false ∧ r.tag = tag ∧ r.cmd = code ∧ mbxReady s.hw m = true ∧ elderWaits s.hw m r = false
    ∧ expired s.hw r = false ∧ (boxAt s.hw m).outcomes.length < 4096

/-- A request as it stands once its command has passed its commit point with nothing left to wait for. -/
def begunReq (h : Hw) (r : Req) (payload : List Byte) : Req :=
  { r with begun := true, commit := commitTime h r, wait := .none, reply := payload }

/-- The hardware after a committing command whose own effect is `e`: its outcome is recorded and DONE is answered. -/
def doneCommand (h e : Hw) (m : Mbx) (r : Req) (payload : List Byte) : Hw :=
  let r1 := begunReq h r payload
  finalResp (endOutcome (addOutcome (setBox e m (setReq (boxAt e m) r1)) m r1) m r1 0 0) m r1 0 0 payload

/-- The hardware after a committing command whose own effect is `e` and which still waits: its outcome is open. -/
def waitCommand (h e : Hw) (m : Mbx) (r : Req) (w : Wait) (payload : List Byte) : Hw :=
  let r1 : Req := { r with begun := true, commit := commitTime h r, wait := w, reply := payload }
  addOutcome (setBox e m (setReq (boxAt e m) r1)) m r1

/-- The hardware after a committing command whose own effect so far is `e` and which has further steps: its row is presented again. -/
def againCommand (h e : Hw) (m : Mbx) (r : Req) : Hw :=
  let h1 := addOutcome (setBox e m (setReq (boxAt e m) (begunReq h r []))) m (begunReq h r [])
  setBox h1 m (setReq (boxAt h1 m) { begunReq h r [] with again := true })

/-- The hardware after the steps left of a committed command, whose effect is `e` and which then is DONE. -/
def resumedCommand (e : Hw) (m : Mbx) (r : Req) : Hw :=
  let r1 : Req := { r with again := false, wait := .none, reply := [] }
  finalResp (endOutcome (setBox e m (setReq (boxAt e m) r1)) m r1 0 0) m r1 0 0 []

/-- The hardware after a command whose own effect so far is `e` and which waits before its commit point. -/
def holdCommand (e : Hw) (m : Mbx) (r : Req) (w : Wait) (payload : List Byte) : Hw :=
  setBox e m (setReq (boxAt e m) { r with running := true, wait := w, reply := payload })

/-- The hardware on which the reset of a command that closes its own session runs (R727): its outcome recorded, its session closed, and
the command itself no longer outstanding. -/
def closedFor (h e : Hw) (m : Mbx) (r : Req) : Hw :=
  let r1 := begunReq h r []
  let h1 := closeSession (endOutcome (addOutcome (setBox e m (setReq (boxAt e m) r1)) m r1) m r1 0 0) m none
  let x := boxAt h1 m
  setBox h1 m { x with reqs := x.reqs.filter (fun q => q ≠ { r1 with orphan := true }) }

/-- The hardware after that reset `o`: the last answer of the command is ACCEPTED (R727). -/
def acceptedLast (h o : Hw) (m : Mbx) (r : Req) : Hw :=
  let x := boxAt o m
  setBox o m { x with queue := x.queue ++ respFrames m (begunReq h r []) 1 0 [] false }

/-- A causeway frame reaches this package, is forwarded as its way says, and is processed on the hardware `g` (R620 to R623). -/
abbrev Taken (h : Hw) (c : Cw) (type : Nat) (w : FrameWay) (body : List Nat) (g : Hw) : Prop := recvFrame h c type w body = (g, true)

end Machine

end Sys2Proof
end

