-- ==== Sys2Proof/Certificates/Slice0/Obligations.lean ====
section
/-! DEFINITION. The statements of the model: what each row of the command table does, rule by rule, and what every step keeps. -/
open Sys2Proof Sys2Proof.Machine

/-- A step runs the command at the front of the queue, and an empty queue idles (the model's own queue, log entry 1). For every command c and
every state s, a step of s with c at the front of its queue is exec c on s with the queue's rest; on an empty queue a step changes
nothing. The queue and the idle step are the model's choice (log entry 1). -/
def Obligations.StepRunsTheFrontCommand : Prop :=
  (∀ (s : State) (c : Instr) (cs : List Instr), step { s with pending := c :: cs } = exec c { s with pending := cs }) ∧
    (∀ s : State, s.pending = [] → step s = .next s)

/-- Every command answers a next state and leaves the waiting commands alone. For every command and every state, exec answers a next state,
never a fault or a refusal, and the queue of waiting commands is as it was. Every refusal of the spec is an answer of the block. -/
def Obligations.EveryCommandAnswers : Prop :=
  ∀ (c : Instr) (s : State), ∃ t, exec c s = .next t ∧ t.pending = s.pending

/-- The state after a cold power-on. After reset no command waits and the memory lists nothing and has its canonical form; every swatch of
regions 0 to 2 is BLANK and owned by nobody, the seventeen windows of region 3 are FIXED and owned by their partitions, and the remaining
window of partition 0 at offset 0x4000_0000 is FIXED and its own; no unit is owned; the package is Active, not admitted,
at Position ID 0 and not READY; no mailbox has a session; every slip is disabled with STAGE_DEPTH 8; every knot and every epoch is zero;
no ledger is active; every fault queue is empty with IRQ_MIN_CLASS 2 and entry 0xFFFF; nothing is fenced and FAULT_N is high; every leaky
bucket is empty with CAPACITY 32 over 60 s; the STATIC budget is 2,000 W, the target 95 degrees and no pool runs; no port of the causeway
is joined; KA_LOST is set and no alarm, latch or ship mode is. Values that the spec does not give are the model's (log entry 14) and are
not stated. -/
def Obligations.ResetState : Prop :=
  State.reset.pending = [] ∧ State.reset.mem = [] ∧ Memory.wf State.reset.mem ∧
    (∀ a, regionOf a ≤ 2 → (swatchAt State.reset.hw a).state = .blank ∧ (swatchAt State.reset.hw a).owner = 31) ∧
    (∀ a, regionOf a = 3 → offsetOf a < 17 * 2 ^ 24 →
      (swatchAt State.reset.hw a).state = .fixed ∧ (swatchAt State.reset.hw a).owner = offsetOf a / 2 ^ 24) ∧
    (∀ a, regionOf a = 3 → 2 ^ 30 ≤ offsetOf a → offsetOf a < 2 ^ 30 + 2 ^ 26 →
      (swatchAt State.reset.hw a).state = .fixed ∧ (swatchAt State.reset.hw a).owner = 0) ∧
    (∀ k i, (unitAt State.reset.hw k i).owner = 31) ∧
    State.reset.hw.start.st = .active ∧ State.reset.hw.ident.admitted = false ∧ State.reset.hw.ident.position = 0 ∧
    State.reset.hw.efano.ready = false ∧ (∀ m, (boxAt State.reset.hw m).session = 0 ∧ mbxReady State.reset.hw m = false) ∧
    (∀ i, (slipAt State.reset.hw i).st = .disabled ∧ (slipAt State.reset.hw i).depth = 8 ∧ (slipAt State.reset.hw i).stopIrq = 0xFFFF) ∧
    (∀ n, (knotAt State.reset.hw n).value = 0) ∧ (∀ p i, epochAt State.reset.hw p i = 0) ∧ (∀ n, (ledgerAt State.reset.hw n).active = false) ∧
    (∀ k, queueUsed (queueAt State.reset.hw k) = 0 ∧ (queueAt State.reset.hw k).irqMin = 2 ∧ (queueAt State.reset.hw k).irqEntry = 0xFFFF) ∧
    State.reset.hw.faults.fences = [] ∧ State.reset.hw.faults.faultN = true ∧ State.reset.hw.faults.log.recs = [] ∧
    State.reset.hw.ecc.buckets = [] ∧ (∀ c, c < 9 → State.reset.hw.ecc.cfg[c]? = some { capacity := 32, periodMs := 60000 }) ∧
    State.reset.hw.power.static = 2000 ∧ State.reset.hw.power.tjTarget = 95 ∧ State.reset.hw.power.poolOn = false ∧
    State.reset.hw.arch.east.joined = false ∧ State.reset.hw.arch.west.joined = false ∧
    State.reset.hw.keep.kaLost = true ∧ State.reset.hw.keep.alarm = 0 ∧ State.reset.hw.keep.latch = 0 ∧ State.reset.hw.keep.ship = false

/-- Every step keeps the canonical form of the byte memory. For every state, reached by a run or not, whose byte memory has the canonical
form (addresses strictly rising, no entry equal to what an unlisted address reads as), every step, whatever command stands at the front of
the queue, answers a state whose memory has it: so two memories that read the same everywhere are equal data, after every store, scrub,
atomic, eviction and reset alike. -/
def Obligations.MemoryStaysCanonical : Prop :=
  StepKeeps (fun s => Memory.wf s.mem)

/-- A refusal writes no record outside the acting partition and fences nothing. For every state and every acting partition: an access refused
at the selvedge fences no scope, leaves the log and every fault queue but the acting partition's own as they were, the Steward's among
them, and counts once in SEL_REFUSE_COUNT of that partition, the count the Steward sees. -/
def Obligations.RefusalStaysInItsPartition : Prop :=
  ∀ (h g : Hw) (p a d : Nat), p ≤ 16 → tabWf {} h.sel.parts = true → g = refuseEngine h p a d →
    g.faults.fences = h.faults.fences ∧ g.faults.log = h.faults.log ∧ (∀ k, k ≠ p → queueAt g k = queueAt h k) ∧
    (partAt g p).selRefuse = ((partAt h p).selRefuse + 1) % 2 ^ 64 ∧ (∀ q, q ≠ p → partAt g q = partAt h q)

/-- Waiters of a knot are released in the order in which they registered. For every knot and every list of its waiters in registration order:
the waiter that is released first has its condition; every waiter before it either does not have its own, or is an ACQUIRE or ONE_SHOT
waiter held back by an earlier one of that kind whose condition does not hold; and an ACQUIRE or ONE_SHOT waiter is released only where
every earlier waiter of that kind is gone. None is released only where every waiter stands so. -/
def Obligations.WaitersGoInOrder : Prop :=
  ∀ (k : Knot) (ws : List Waiter),
    (∀ w : Waiter, firstRelease k false ws = some w → ∃ a b : List Waiter, ws = a ++ w :: b ∧ condHolds k w.cond w.x = true ∧
      (holdsBack k w.cond = true → ∀ v : Waiter, v ∈ a → holdsBack k v.cond = false) ∧
      (∀ (i : Nat) (v : Waiter), a[i]? = some v → condHolds k v.cond v.x = false ∨
        (holdsBack k v.cond = true ∧ ∃ (j : Nat) (u : Waiter), j < i ∧ a[j]? = some u ∧ holdsBack k u.cond = true ∧ condHolds k u.cond u.x = false))) ∧
    (firstRelease k false ws = none → ∀ (i : Nat) (v : Waiter), ws[i]? = some v → condHolds k v.cond v.x = false ∨
      (holdsBack k v.cond = true ∧ ∃ (j : Nat) (u : Waiter), j < i ∧ ws[j]? = some u ∧ holdsBack k u.cond = true ∧ condHolds k u.cond u.x = false))

/-- A ferry's choice among its slips: the lowest class, round robin within it, and the 16th choice of a class passed over. For every arbiter
state and every rising list of ready slips: some slip is chosen where one of a class below 4 is ready, and it is ready; where no class
with a ready slip has been passed over 15 times, no ready slip has a lower class than the chosen one; where one has, the chosen slip's
class has; within its class it is the first after the slip chosen last, or the first of all where none follows; the choice is kept as the
latest of its class, whose count of passes returns to zero, and every other class with a ready slip is counted as passed over once more. -/
def Obligations.FerryArbitration : Prop :=
  ∀ (h : Hw) (a : Arbiter) (r : List Nat), r.Pairwise (· < ·) → a.last.length = 4 →
    (∀ j, j ∈ r → (slipAt h j).cls < 4 → choose h a r ≠ none) ∧
    (∀ i b c, choose h a r = some (i, b) → c = (slipAt h i).cls →
      i ∈ r ∧ c < 4 ∧
      ((∀ k, k < 4 → (∃ j, j ∈ r ∧ (slipAt h j).cls = k) → a.passed.getD k 0 < 15) → ∀ j, j ∈ r → (slipAt h j).cls < 4 → c ≤ (slipAt h j).cls) ∧
      ((∃ k, k < 4 ∧ 15 ≤ a.passed.getD k 0 ∧ ∃ j, j ∈ r ∧ (slipAt h j).cls = k) → 15 ≤ a.passed.getD c 0) ∧
      (∀ j, j ∈ r → (slipAt h j).cls = c → (a.last.getD c 0 < i → j < i → j ≤ a.last.getD c 0) ∧
        (i ≤ a.last.getD c 0 → j ≤ a.last.getD c 0 ∧ i ≤ j)) ∧
      b.last.getD c 0 = i ∧ b.passed.getD c 0 = 0 ∧
      (∀ k, k < 4 → k ≠ c → (∃ j, j ∈ r ∧ (slipAt h j).cls = k) → b.passed.getD k 0 = a.passed.getD k 0 + 1))

/-- Doorbell, stand-in, acceptance, interim, timeout, posting and acknowledgement of a mailbox. For every state: a doorbell of a READY
mailbox with REQ_FREE set stores the tag it carries; a doorbell while REQ_FREE is 0 sets OVERRUN and nothing else; a doorbell of a mailbox
that is not READY leaves the stand-in answer of R130 to be posted, or sets OVERRUN while one waits; each of these ends Idle and Drowse;
STAND_IN and RESPONSE_POST write the header and payload of the waiting response, set RSP_VALID and raise the mailbox's interrupt entry (the
Keeper's mailbox sends it at once); MBX_RSP_ACK clears RSP_VALID and frees the tag of a final response; ACCEPTANCE of a whole
single-fragment request that passes checks 1 to 7 enters it under its tag with the time base as ACCEPT_TB and sets REQ_FREE;
ACCEPTED_INTERIM answers ACCEPTED no sooner than 100 us after the commit point; COMMAND_TIMEOUT answers TIMEOUT, no sooner than its
deadline, to a request that is not past its commit point. Each equation gives the whole next state, so everything it does not name is
unchanged, but for the frames that the command before had shown. That the time base moves to the instant a timed row is due is the model's
choice (log entry 1). -/
def Obligations.MailboxTransportRows : Prop :=
  ∀ (s : State) (h : Hw) (m : Mbx), h = clearSent s.hw →
    (∀ v, m ≠ .keeper → mbxReady h m = true → (boxAt h m).rung = none →
      exec (.mbxDoorbell m v) s = .next (s.ended (stir (setBox h m { boxAt h m with rung := some (v % 8) })))) ∧
    (∀ v, m ≠ .keeper → mbxReady h m = true → (boxAt h m).rung ≠ none →
      exec (.mbxDoorbell m v) s = .next (s.ended (stir (setBox h m { boxAt h m with overrun := true })))) ∧
    (∀ v, m ≠ .keeper → mbxReady h m = false → (boxAt h m).standIn = none →
      exec (.mbxDoorbell m v) s = .next (s.ended (stir (setBox h m
        { boxAt h m with standIn := some (standInResp h (pageRead (boxAt h m).reqHdr 0 64) (v % 8) none) })))) ∧
    (∀ v, m ≠ .keeper → mbxReady h m = false → (boxAt h m).standIn ≠ none →
      exec (.mbxDoorbell m v) s = .next (s.ended (stir (setBox h m { boxAt h m with overrun := true })))) ∧
    (∀ r, (boxAt h m).standIn = some r → (boxAt h m).valid = false →
      exec (.standIn m) s = .next (s.ended (raise (setBox h m
        { boxAt h m with
                            standIn := none, rspHdr := pageWrite [] 0 r.hdr, rspPage := pageWrite (boxAt h m).rspPage 0 r.payload,
                            valid := true, shown := some r }) (actsFor m) (boxAt h m).irq))) ∧
    (∀ r rs, m ≠ .keeper → (boxAt h m).queue = r :: rs → (boxAt h m).valid = false →
      exec (.responsePost m) s = .next (s.ended (raise (setBox h m
        { boxAt h m with
                            queue := rs, rspHdr := pageWrite [] 0 r.hdr, rspPage := pageWrite (boxAt h m).rspPage 0 r.payload,
                            valid := true, shown := some r }) (actsFor m) (boxAt h m).irq))) ∧
    (∀ r rs, m = .keeper → (boxAt h m).queue = r :: rs →
      exec (.responsePost m) s = .next (s.ended (setBox h m
        (freeTag { boxAt h m with queue := rs, keeperOut := [r] } r)))) ∧
    (∀ r, (boxAt h m).shown = some r →
      exec (.mbxRspAck m) s = .next (s.ended (setBox h m
        (freeTag { boxAt h m with valid := false, shown := none } r)))) ∧
    (∀ tag r, findReq (boxAt h m) tag = some r → r.begun = true → r.ended = false → r.interim = false →
      exec (.acceptedInterim m tag) s = .next (s.ended (sendResp (setBox (advanceTo h (r.commit + 100000)) m
        (setReq (boxAt h m) { r with interim := true })) m r 1 0 [] false))) ∧
    (∀ tag r, findReq (boxAt h m) tag = some r → r.begun = false → r.ended = false → committedEarly r = false →
      exec (.commandTimeout m tag) s = .next (s.ended (finalResp (advanceTo h (deadline r)) m { r with payload := [] } 0x80 0 []))) ∧
    (∀ t hdr f pay, m ≠ .keeper → (boxAt h m).rung = some t → mbxReady h m = true → hdr = pageRead (boxAt h m).reqHdr 0 64 →
      f = readHdr hdr → pay = pageRead (boxAt h m).reqPage 0 (min f.plen 4096) →
      (cmdInfo f.cmd).isSome = true → (sessionless f.cmd = true ∨ ((boxAt h m).session ≠ 0 ∧ f.session = (boxAt h m).session ∧ f.rev = 4)) →
      frameOk m f t pay.length = true → fragIdx f = 0 → fragLast f = true → f.total = pay.length →
      (sessionless f.cmd = true ∨ ∀ q, (boxAt h m).lastSeq = some q → q < f.seq) →
      findReq (boxAt h m) t = none → laterChecks h m f hdr pay = (0, 0) →
      Completes (.acceptance m) s (fun u => (boxAt u.hw m).rung = none ∧
        (boxAt u.hw m).reqs = (boxAt h m).reqs ++
          [{
             tag := t, cmd := f.cmd, seq := f.seq, session := f.session, total := f.total, payload := pay, frags := 1,
             accept := h.tb.now, timeout := f.timeout, whole := true }] ∧
        u.hw = { h with efano := u.hw.efano } ∧ u.mem = s.mem))

/-- Efano frames and MCTP messages over the Keeper's transport. For every state and every message of the Keeper: KEEPER_FRAME with the vendor
identifier 0x0F1A and a full header gives the frame (its first 64 bytes the header, the rest the payload) to acceptance at the Keeper
mailbox, with the endpoint it came from; while READY is 0 the stand-in answer is sent at once instead; with another vendor identifier, or
too short for a header, it changes nothing. MCTP_CONTROL, PLDM_REQUEST of types 0, 2 and 4 and SPDM_REQUEST are answered to the endpoint
that asked while READY is set, and change nothing while it is 0; PLDM_REQUEST of another type changes nothing. The bytes of MCTP and PLDM
answers are free values (log entry 12). Any of the four messages over PCIe VDM from a function that is not the Keeper's is counted at its
port and discarded if the port is up, and changes nothing if it is down; over I3C before the target answers its address it changes
nothing. Each equation gives the whole next state. -/
def Obligations.KeeperTransportRows : Prop :=
  ∀ (s : State) (h : Hw) (bus : KeeperBus) (port rid : Nat), h = clearSent s.hw →
    (∀ vendor mtag bytes, keeperFrom h bus port rid = true → (vendor ≠ 0x0F1A ∨ bytes.length < 64) →
      exec (.keeperFrame bus port rid vendor mtag bytes) s = .next (s.withHw h)) ∧
    (∀ mtag bytes, keeperFrom h bus port rid = true → 64 ≤ bytes.length → mbxReady h .keeper = true →
      exec (.keeperFrame bus port rid 0x0F1A mtag bytes) s =
        .next (s.ended (acceptFrame h .keeper (bytes.take 64) (bytes.drop 64) mtag (some { bus := bus, port := port, rid := rid })))) ∧
    (∀ mtag bytes, keeperFrom h bus port rid = true → 64 ≤ bytes.length → mbxReady h .keeper = false →
      exec (.keeperFrame bus port rid 0x0F1A mtag bytes) s = .next (s.ended (setBox h .keeper
        { boxAt h .keeper with
                              keeperOut := [standInResp h (bytes.take 64) ((readHdr (bytes.take 64)).tag % 8)
                                (some { bus := bus, port := port, rid := rid })] }))) ∧
    (keeperFrom h bus port rid = true → h.efano.ready = true →
      exec (.mctpControl bus port rid) s = .next (s.ended { h with
        efano := { h.efano with
                               mctp := openBytes h.free, mctpAns := h.efano.mctpAns + 1,
                               mctpTo := some { bus := bus, port := port, rid := rid } }, free := h.free + 1 })) ∧
    (∀ type, (type = 0 ∨ type = 2 ∨ type = 4) → keeperFrom h bus port rid = true → h.efano.ready = true →
      exec (.pldmRequest bus port rid type) s = .next (s.ended { h with
        efano := { h.efano with
                               mctp := openBytes h.free, mctpAns := h.efano.mctpAns + 1,
                               mctpTo := some { bus := bus, port := port, rid := rid } }, free := h.free + 1 })) ∧
    (∀ req, keeperFrom h bus port rid = true → h.efano.ready = true →
      exec (.spdmRequest bus port rid req) s = .next (s.ended { h with
        efano := { h.efano with
                               mctp := spdmAnswer h .keeper 0xFF req, mctpAns := h.efano.mctpAns + 1,
                               mctpTo := some { bus := bus, port := port, rid := rid } }, free := h.free + 1 })) ∧
    (∀ type req, keeperFrom h bus port rid = true → h.efano.ready = false →
      exec (.mctpControl bus port rid) s = .next (s.withHw h) ∧
      exec (.pldmRequest bus port rid type) s = .next (s.withHw h) ∧
      exec (.spdmRequest bus port rid req) s = .next (s.withHw h)) ∧
    (∀ type, type ≠ 0 → type ≠ 2 → type ≠ 4 → keeperFrom h bus port rid = true →
      exec (.pldmRequest bus port rid type) s = .next (s.withHw h)) ∧
    (∀ vendor mtag bytes type req g, keeperFrom h .pcieVdm port rid = false → (tabGet {} h.edges.ports port).up = true →
      g = { h with edges := { h.edges with ports := tabMod {} h.edges.ports port (fun p => { p with discards := p.discards + 1 }) } } →
      exec (.keeperFrame .pcieVdm port rid vendor mtag bytes) s = .next (s.ended g) ∧
      exec (.mctpControl .pcieVdm port rid) s = .next (s.ended g) ∧
      exec (.pldmRequest .pcieVdm port rid type) s = .next (s.ended g) ∧
      exec (.spdmRequest .pcieVdm port rid req) s = .next (s.ended g)) ∧
    (∀ vendor mtag bytes type req, keeperFrom h bus port rid = false →
      (bus = .i3c ∨ (tabGet {} h.edges.ports port).up = false) →
      exec (.keeperFrame bus port rid vendor mtag bytes) s = .next (s.withHw h) ∧
      exec (.mctpControl bus port rid) s = .next (s.withHw h) ∧
      exec (.pldmRequest bus port rid type) s = .next (s.withHw h) ∧
      exec (.spdmRequest bus port rid req) s = .next (s.withHw h))

/-- VERSION_GET, SESSION_OPEN, SESSION_CLOSE, ECHO, OUTCOME_GET, SPDM_MESSAGE and IDENTITY_GET answer as chapter 4 says. For every state in
which the mailbox serves the request: VERSION_GET answers DONE with bitmap bit 4, the running firmware's version, the payload limit, 16
fragments and 8 tags; SESSION_OPEN of a revision other than 4 answers BAD_VERSION and changes nothing else; SESSION_OPEN of revision 4
closes the session the mailbox held, if it held one, whose undelivered frames leave the queue and whose outcomes become the previous
session's, gives the mailbox a SESSION_ID that is neither zero nor one it has had since CP, and queues the answer with it and MGMT_EPOCH;
SESSION_CLOSE closes the session and answers DONE; ECHO returns its payload unchanged; OUTCOME_GET answers the entries of the previous
session where they are kept; SPDM_MESSAGE answers a tenant that names another partition with InvalidRequest, and the Steward, or a tenant
that names itself, with the SPDM answer for the partition named; IDENTITY_GET answers the seven identity registers first, and changes
only the mailbox. -/
def Obligations.SessionRows : Prop :=
  ∀ (s : State) (h : Hw) (m : Mbx) (tag : Nat) (r : Req), h = clearSent s.hw →
    (Serving s m tag 0x0101 r → exec (.versionGet m tag) s = .next (s.ended (finalResp h m r 0 0
      (leBytes 4 0x10 ++ leBytes 8 (h.edges.fw.getD h.edges.active {}).version ++ leBytes 2 (frameLimit m) ++ leBytes 1 16
        ++ leBytes 1 8)))) ∧
    (Serving s m tag 0x0102 r → leAt r.payload 0 1 ≠ 4 →
      exec (.sessionOpen m tag) s = .next (s.ended (finalResp h m r 0x30 3 []))) ∧
    (Serving s m tag 0x0102 r → leAt r.payload 0 1 = 4 → (boxAt h m).sessions.length + 2 ≤ 2 ^ 32 →
      Completes (.sessionOpen m tag) s (fun t => (boxAt t.hw m).session ≠ 0 ∧ (boxAt t.hw m).session ∉ (boxAt h m).sessions ∧
        (boxAt t.hw m).sessions = (boxAt t.hw m).session :: (boxAt h m).sessions ∧ (boxAt t.hw m).lastSeq = none ∧
        (boxAt t.hw m).queue = (if (boxAt h m).session = 0 then (boxAt h m).queue
          else (boxAt h m).queue.filter (fun q => decide (leAt q.hdr 0x10 4 ≠ (boxAt h m).session))) ++
          respFrames m { r with session := (boxAt t.hw m).session, begun := true } 0 0
            (leBytes 4 (boxAt t.hw m).session ++ leBytes 4 h.efano.epoch.toNat) true ∧
        ((boxAt h m).session ≠ 0 → (boxAt t.hw m).prevId = (boxAt h m).session ∧
          ∃ es, (boxAt t.hw m).prev = (boxAt h m).outcomes ++ es ∧ ∀ e, e ∈ es → e.status = 1) ∧
        t.hw = { h with efano := t.hw.efano, free := h.free + 1 } ∧ t.mem = s.mem)) ∧
    (Serving s m tag 0x0103 r → exec (.sessionClose m tag) s =
      .next (s.ended (finalResp (closeSession h m (some tag)) m { r with begun := true } 0 0 []))) ∧
    (Serving s m tag 0x0104 r → exec (.echo m tag) s = .next (s.ended (finalResp h m r 0 0 r.payload))) ∧
    (Serving s m tag 0x0105 r → (boxAt h m).prevKind = .kept → exec (.outcomeGet m tag) s =
      .next (s.ended (finalResp h m r 0 0 (leBytes 4 (boxAt h m).prevId ++ leBytes 1 0 ++ zeros 3
        ++ paged m 8 32 (leAt r.payload 0 4) (leAt r.payload 4 2) ((boxAt h m).prev.map outcomeBytes))))) ∧
    (∀ p, m = .part p → Serving s m tag 0x0201 r → leAt r.payload 0 1 ≠ p → exec (.spdmMessage m tag) s =
      .next (s.ended (finalResp { h with free := h.free + 1 } m r 0 0 (spdmError 1)))) ∧
    (Serving s m tag 0x0201 r → (m = .steward ∨ m = .part (leAt r.payload 0 1)) → exec (.spdmMessage m tag) s =
      .next (s.ended (finalResp { h with free := h.free + 1 } m r 0 0
        (spdmAnswer h m (leAt r.payload 0 1) (r.payload.drop 4))))) ∧
    (Serving s m tag 0x0204 r → Completes (.identityGet m tag) s (fun t => ∃ more,
      t.hw = finalResp h m r 0 0 ((List.range 7).flatMap (fun i => leBytes 8 (identReg h i).toNat) ++ more) ∧
      t.mem = s.mem))

/-- PART_CREATE, PART_ASSIGN, PART_RELEASE, PART_QUERY, PART_CONFIG and PART_DESTROY change what chapter 3 says. For every state in which the
mailbox serves the request: PART_CREATE of a partition from 1 to 16 that does not exist, outside Bench mode, gives it a record at its
reset values with two keys no partition has had; in Bench mode it is DENIED with no effect; PART_ASSIGN whose checks pass grants the units
of every range in order, and waits for the scrubs that BLANK or ZERO_FILL swatches need; PART_RELEASE whose checks pass revokes the units
of every range in order and waits for their scrubs; PART_QUERY answers a tenant for itself and NOT_OWNER for another partition;
PART_CONFIG of NEAR_PLAIN while the partition owns a swatch of region 1 is BUSY with no effect, and with SET naming the vectors,
NEAR_PLAIN and WEIGHT, none of them refused, it sets the three; PART_DESTROY by the Steward of a partition that owns no range, way, swatch
or unit, has no scrub open and no fence, ends it at once: its record, its objects, pools, epochs, interrupt table, sets and fault queue
return to their reset values, its mailbox keeps nothing but the SESSION_IDs it has had, and no other partition's ways, swatches, harts or
slips change. -/
def Obligations.PartitionRows : Prop :=
  ∀ (s : State) (h : Hw) (m : Mbx) (tag : Nat) (r : Req) (p : Nat), h = clearSent s.hw → leAt r.payload 0 1 = p →
    (Serving s m tag 0x0301 r → p ≠ 0 → p ≤ 16 → partExists h p = false → h.ident.bench = false →
      exec (.partCreate m tag) s = .next (s.ended (doneCommand h
        (dropIns (drawKeys (setPart h p { exists_ := true }) p)) m r []))) ∧
    (Serving s m tag 0x0301 r → p ≠ 0 → p ≤ 16 → partExists h p = false → h.ident.bench = true →
      exec (.partCreate m tag) s = .next (s.ended (finalResp h m r 0x20 0x101 []))) ∧
    (∀ o, Serving s m tag 0x0303 r → partCheck h m p = none → assignRefusal h p (rangesOf r.payload) = none →
      o = (rangesOf r.payload).foldl (fun (a : Hw × List Nat × Nat) x =>
        let g := grantRange a.1 p (bitOf (leAt r.payload 1 1) 0) x
        (g.1, a.2.1 ++ g.2.1, a.2.2 + g.2.2)) (h, [], 0) →
      exec (.partAssign m tag) s = .next (s.ended (
        let pay := leBytes 4 (((rangesOf r.payload).map (fun x => x.units.length)).foldl (· + ·) 0) ++ leBytes 4 o.2.2
        if o.2.1 = [] then doneCommand h o.1 m r pay else waitCommand h o.1 m r (.units o.2.1) pay))) ∧
    (∀ o us z, Serving s m tag 0x0304 r → partCheck h m p = none →
      us = (rangesOf r.payload).flatMap (fun x => x.units.map (fun i => (x.kind, i))) →
      (rangesOf r.payload).any (fun x => !x.ok || x.units.isEmpty) = false → us.eraseDups.length = us.length →
      us.findSome? (fun u => releaseBad h p u.1 u.2 (bitOf (leAt r.payload 1 1) 0)) = none →
      (∀ g, g ∈ [4, 5, 6, 7] → (((us.filter (fun u => decide (u.1 = 1) && isAperture u.2)).foldl (fun rs u => dropAperture rs (u.2 * 2 ^ 21))
        h.sel.ranges).filter (fun x => decide (regionOf x.first = g))).length ≤ 64) →
      z = ((rangesOf r.payload).filter (fun x => x.kind = 4)).foldl (fun hm x => x.units.foldl forceGroup hm) (h, s.mem) →
      o = (rangesOf r.payload).foldl (fun (a : HM × List Nat) x => let g := releaseRange a.1 p x; (g.1, a.2 ++ g.2))
        (z, []) → o.2 ≠ [] →
      exec (.partRelease m tag) s =
        .next (s.withHm (stepEnd (waitCommand h o.1.1 m r (.units o.2) (leBytes 4 us.length)), o.1.2))) ∧
    (Serving s m tag 0x0305 r → m = .part p →
      exec (.partQuery m tag) s = .next (s.ended (finalResp h m r 0 0 (partReport h p)))) ∧
    (∀ q, Serving s m tag 0x0305 r → m = .part q → p ≠ q →
      exec (.partQuery m tag) s = .next (s.ended (finalResp h m r 0x21 0 []))) ∧
    (Serving s m tag 0x0306 r → partCheck h m p = none → leAt r.payload 1 1 = 2 →
      (partAt h p).nearPlain ≠ bitOf (leAt r.payload 2 1) 0 → swCount h p 1 ≠ 0 →
      exec (.partConfig m tag) s = .next (s.ended (finalResp h m r 0x11 0 []))) ∧
    (Serving s m tag 0x0306 r → partCheck h m p = none → leAt r.payload 1 1 = 7 → leAt r.payload 3 1 ≠ 0 → swCount h p 1 = 0 →
      exec (.partConfig m tag) s = .next (s.ended (doneCommand h (setPart h p
        { partAt h p with
                             resetVec := leAt r.payload 8 8, rnmi := leAt r.payload 16 8, rnmiExc := leAt r.payload 24 8,
                             nearPlain := bitOf (leAt r.payload 2 1) 0, weight := leAt r.payload 3 1 }) m r []))) ∧
    (Serving s m tag 0x0302 r → p ≠ 0 → p ≤ 16 → partExists h p = true → destroying h p = false → m = .steward →
      (∀ a, a ∈ h.sel.ranges → a.owner ≠ p) → (∀ e, e ∈ h.coh.wayOwner → e.2 ≠ p + 1) → (∀ e, e ∈ h.sel.swatches → e.2.owner ≠ p) →
      (∀ e, e ∈ h.sel.units → e.2.owner ≠ p) → (∀ x, x ∈ h.sel.scrubs → x.done = true ∨ x.from_ ≠ p) →
      (∀ f, f ∈ h.faults.fences → f.part ≠ p) →
      Completes (.partDestroy m tag) s (fun t => t.hw.sel.parts = tabPut {} h.sel.parts p {} ∧
        t.hw.tiers.objects = tabClear h.tiers.objects (fun k => decide (k / 1024 = p)) ∧
        t.hw.sync.pools = tabClear h.sync.pools (fun k => decide (k / 64 = p)) ∧
        t.hw.eng.epochs = tabClear h.eng.epochs (fun k => decide (k / 81 = p)) ∧
        t.hw.intTable = tabClear h.intTable (fun k => decide (k / 4096 = p)) ∧
        t.hw.faults = { h.faults with queues := tabPut {} h.faults.queues p {} } ∧
        t.hw.arch.sets = tabClear h.arch.sets (fun k => decide ((tabGet {} h.arch.sets k).part = p)) ∧
        boxAt t.hw (.part p) = { sessions := (boxAt h (.part p)).sessions } ∧ t.hw.coh.wayOwner = h.coh.wayOwner ∧
        t.hw.sel.swatches = h.sel.swatches ∧ t.hw.harts = h.harts ∧ t.hw.eng.slips = h.eng.slips ∧
        (boxAt t.hw m).queue = (boxAt h m).queue ++ respFrames m r 0 0 [] true ∧ t.mem = s.mem))

/-- WAYMASK_SET, SHELF_SPLIT_SET, SCRUB_REPORT_GET and the two scrub events. For every state in which the mailbox serves the request: a
WAYMASK_SET that would give a partition a way of another partition is DENIED with no effect, and one that changes a slot between the steps
of another such command is BUSY; any other, where it leaves a way to a partition with clusters, quads or ferry groups, and once the MSHRs of
the leaving ways and the lines it recalls are done, gives the partition exactly the ways its new masks name and takes from no other
partition, and is DONE; until then it has passed its commit point and its row is presented again; a SHELF_SPLIT_SET makes the swatches that
enter the cache CACHE and its slots answer no lookup, and once their MSHRs are free gives each named slot its new split, and is DONE where no
swatch leaves the cache, else waits for the scrub of those that do; until then its row is presented again; one of a swatch that is neither
FREE nor CACHE, or of a slot between the steps of another such command, is BUSY; SCRUB_REPORT_GET of a unit the tenant does not own is NOT_OWNER, and of a unit with a finished record answers its
report followed by a signature (a free value, log entry 12). BACKGROUND_SCRUB without a miscompare of a BLANK swatch of an open tier after
READY takes a scrub record and ends it: the swatch is FREE, has no owner and reads as zero, and no other byte changes. SCRUB_COMPLETE
without a miscompare of one partition's scrub in course marks its record done and not failed, and leaves the bytes of memory that the
scrub of its units leaves. -/
def Obligations.ShelfAndScrubRows : Prop :=
  ∀ (s : State) (h : Hw) (m : Mbx) (tag : Nat) (r : Req), h = clearSent s.hw →
    (∀ w, Serving s m tag 0x0307 r → partCheck h m (leAt r.payload 0 1) = none → w < 512 →
      bitOf (newMask h r.payload (leAt r.payload 0 1) (w / 16)) (w % 16) = true →
      tabGet 0 h.coh.wayOwner w ≠ 0 → tabGet 0 h.coh.wayOwner w ≠ leAt r.payload 0 1 + 1 →
      exec (.waymaskSet m tag) s = .next (s.ended (finalResp h m r 0x20 0 []))) ∧
    (∀ p out into o x, p = leAt r.payload 0 1 → tabWf 0 h.coh.wayOwner = true →
      out = (List.range 512).filter (fun w => decide (tabGet 0 h.coh.wayOwner w = p + 1) && !bitOf (newMask h r.payload p (w / 16)) (w % 16)) →
      into = (List.range 512).filter (fun w => bitOf (newMask h r.payload p (w / 16)) (w % 16) && !decide (tabGet 0 h.coh.wayOwner w = p + 1)) →
      waysPass (h, s.mem) p out into = (o, x) →
      (x.again = false → (∀ w, w < 512 → tabGet 0 o.1.coh.wayOwner w = if bitOf (newMask h r.payload p (w / 16)) (w % 16) then p + 1
          else if tabGet 0 h.coh.wayOwner w = p + 1 then 0 else tabGet 0 h.coh.wayOwner w) ∧ o.2 = s.mem) ∧
      (Serving s m tag 0x0307 r → partCheck h m p = none →
        (∀ w, w ∈ into → tabGet 0 h.coh.wayOwner w = 0) →
        ((∃ w, w < 512 ∧ bitOf (newMask h r.payload p (w / 16)) (w % 16) = true) ∨
          (∀ e, e ∈ h.sel.units → e.2.owner = p → e.1 / 2 ^ 32 ∉ [2, 3, 4])) →
        ((∃ w, w ∈ out ++ into ∧ slotBusy h (w / 16) = true) → exec (.waymaskSet m tag) s = .next (s.ended (finalResp h m r 0x11 0 []))) ∧
        ((∀ w, w ∈ out ++ into → slotBusy h (w / 16) = false) →
          (x.again = false → exec (.waymaskSet m tag) s = .next (s.routed (doneCommand h o.1 m r [], o.2))) ∧
          (x.again = true → exec (.waymaskSet m tag) s = .next (s.routed (againCommand h o.1 m r, o.2))))) ∧
      (nextReq (boxAt h m) = none → (boxAt h m).reqs.find? (fun q => q.again && !q.ended && decide (q.tag = tag ∧ q.cmd = 0x0307)) = some r →
        mbxReady h m = true →
        (x.again = false → exec (.waymaskSet m tag) s = .next (s.routed (resumedCommand o.1 m r, o.2))) ∧
        (x.again = true → exec (.waymaskSet m tag) s = .next (s.routed o)))) ∧
    (∀ slots into out y o x, slots = (List.range 32).filter (bitOf (leAt r.payload 0 4)) →
      into = slots.flatMap (fun n => ((List.range 6).filter (fun k =>
        bitOf (leAt r.payload (8 + n) 1) k && !bitOf (tabGet 0 h.coh.split n) k)).map (slotSwatch n)) →
      out = slots.flatMap (fun n => ((List.range 6).filter (fun k =>
        !bitOf (leAt r.payload (8 + n) 1) k && bitOf (tabGet 0 h.coh.split n) k)).map (slotSwatch n)) →
      y = into.foldl (fun g k => setSwatch g k { swGet g k with state := .cache }) h →
      splitShelf ({ y with coh := { y.coh with bypass := y.coh.bypass ++ slots } }, s.mem) r.payload slots out = (o, x) →
      (x.again = false → ∀ n, n ∈ slots → leAt r.payload (8 + n) 1 ≠ 0 → tabGet 0 o.1.coh.split n = leAt r.payload (8 + n) 1) ∧
      (Serving s m tag 0x0309 r →
        (((∃ k, k ∈ into ++ out ∧ (swGet h k).state ∉ [.free, .cache]) ∨ (∃ n, n ∈ slots ∧ slotBusy h n = true)) →
          exec (.shelfSplitSet m tag) s = .next (s.ended (finalResp h m r 0x11 0 []))) ∧
        ((∀ k, k ∈ into ++ out → (swGet h k).state ∈ [.free, .cache]) → (∀ n, n ∈ slots → slotBusy h n = false) →
          (x.again = true → exec (.shelfSplitSet m tag) s = .next (s.routed (againCommand h o.1 m r, o.2))) ∧
          (x.again = false → out = [] → exec (.shelfSplitSet m tag) s = .next (s.routed (doneCommand h o.1 m r [], o.2))) ∧
          (x.again = false → out ≠ [] → exec (.shelfSplitSet m tag) s = .next (s.routed (waitCommand h o.1 m r x.wait [], o.2)))))) ∧
    (∀ p, m = .part p → Serving s m tag 0x0308 r → nowOwner h (leAt r.payload 0 1) (leAt r.payload 4 4) ≠ p →
      exec (.scrubReportGet m tag) s = .next (s.ended (finalResp h m r 0x21 0 []))) ∧
    (∀ x, Serving s m tag 0x0308 r → (∀ p, m = .part p → nowOwner h (leAt r.payload 0 1) (leAt r.payload 4 4) = p) →
      reportFor h (leAt r.payload 0 1) (leAt r.payload 4 4) = some x →
      exec (.scrubReportGet m tag) s = .next (s.ended (
        let body := reportBody h x (nowOwner h (leAt r.payload 0 1) (leAt r.payload 4 4)) (slice r.payload 8 32)
        finalResp { h with free := h.free + 1 } m r 0 0 (body ++ slice (Config.signature (fwMeasure h) h.free body) 0 96)))) ∧
    (∀ k, h.efano.ready = true → swatchExists h k = true → populated h (k * 2 ^ 21) = true → (swGet h k).state = .blank →
      (regionOf (k * 2 ^ 21) = 0 → h.memhw.farOpen = true) → (regionOf (k * 2 ^ 21) = 1 → h.memhw.nearOpen = true) →
      tabWf (swBase h) h.sel.swatches = true →
      Completes (.backgroundScrub k none) s (fun t => (swGet t.hw k).state = .free ∧ (swGet t.hw k).owner = 31 ∧
        (∀ a, k * 2 ^ 21 ≤ a → a < (k + 1) * 2 ^ 21 → memByte t.mem a = 0) ∧
        (∀ a, (a < k * 2 ^ 21 ∨ (k + 1) * 2 ^ 21 ≤ a) → memByte t.mem a = memByte s.mem a) ∧
        t.hw.sel.scrubSeq = h.sel.scrubSeq + 1)) ∧
    (∀ seq x, findScrub h seq = some x → x.done = false → x.all = false →
      Completes (.scrubComplete seq none) s (fun t => ∃ y, findScrub t.hw seq = some y ∧ y.done = true ∧ y.failed = false ∧
        y.units = x.units ∧ t.mem = (passScrub (h, s.mem) x x.units).2))

/-- Object commands, MEM_STATUS, SLIP_QUERY, FERRY_QUERY and the lock group commands. For every state in which the mailbox serves the
request: OBJECT_REGISTER whose map and transit areas are the partition's, whose fields are in range and whose OBJ_ID is unused writes the
record of the payload (R278); OBJECT_UPDATE of a record with the same fixed fields replaces it (R279); OBJECT_RETIRE clears the record and
every bobbin slot tag of the object on the partition's looms (R280); OBJECT_QUERY answers the record; MEM_STATUS, SLIP_QUERY and FERRY_QUERY
answer their reports (of 1,128 bytes and 104 bytes the first two) and change nothing but the mailbox; LOCK_GROUP_SET of quads the caller
owns, in the shape of R63, in no group and open begins a forming group and waits for LOCK_FORMED; LOCK_GROUP_CLEAR of a locked group no pass
runs on ends it; LOCK_FORMED locks the group and completes the command that waits for it. -/
def Obligations.ObjectAndLockRows : Prop :=
  ∀ (s : State) (h : Hw) (m : Mbx) (tag : Nat) (r : Req), h = clearSent s.hw →
    (∀ id o, Serving s m tag 0x0401 r → id = leAt r.payload 0 2 → o = objOf r.payload →
      ownsArea h (actsFor m) o.map (32 * o.count) = true → ownsArea h (actsFor m) o.transit (65536 * o.slots) = true →
      id < 1024 → o.mode ≤ 1 → 1 ≤ o.format → o.format ≤ 0x0E → 1 ≤ o.rows → o.rows ≤ 65536 → 1 ≤ o.cols → o.cols ≤ 65536 →
      o.cols % 32 = 0 → boltBytes (fmtBits o.format) (decide (3 ≤ o.format ∧ o.format ≤ 7)) o.rows o.cols ≤ 65536 →
      1 ≤ o.count → o.count ≤ 16777216 → o.map % 32 = 0 → o.map < 2 ^ 56 → objVarOk o (leAt r.payload 17 1) = true →
      (h.tiers.objects.filter (fun e => decide (e.1 / 1024 = actsFor m))).length < 1024 → (objAt h (actsFor m) id).used = false →
      exec (.objectRegister m tag) s =
        .next (s.ended (doneCommand h (setObj h (actsFor m) id o) m r []))) ∧
    (∀ id o x, Serving s m tag 0x0402 r → id = leAt r.payload 0 2 → o = objOf r.payload → x = objAt h (actsFor m) id → x.used = true →
      ownsArea h (actsFor m) o.transit (65536 * o.slots) = true → o.mode = x.mode → o.format = x.format → o.rows = x.rows →
      o.cols = x.cols → o.count = x.count → o.map = x.map → objVarOk o (leAt r.payload 17 1) = true →
      exec (.objectUpdate m tag) s =
        .next (s.ended (doneCommand h (setObj h (actsFor m) id o) m r []))) ∧
    (∀ id, Serving s m tag 0x0403 r → id = leAt r.payload 0 2 → (objAt h (actsFor m) id).used = true →
      exec (.objectRetire m tag) s = .next (s.ended (doneCommand h { h with
        tiers := { h.tiers with
          objects := tabPut {} h.tiers.objects (actsFor m * 1024 + id) {},
          tags := tabMap {} h.tiers.tags (fun k g => if g.obj = id ∧ (unitAt h 3 (k / 16 / 4)).owner = actsFor m then {} else g) },
        eng := (markRetired h (actsFor m) id).eng }
        m r []))) ∧
    (∀ id, Serving s m tag 0x0404 r → id = leAt r.payload 0 2 → (objAt h (actsFor m) id).used = true →
      exec (.objectQuery m tag) s =
        .next (s.ended (finalResp h m r 0 0 (objBytes id (objAt h (actsFor m) id))))) ∧
    (Serving s m tag 0x0405 r → Completes (.memStatus m tag) s (fun t => ∃ p, p.length = 1128 ∧ leAt p 0 1 = flag h.memhw.nearOpen ∧
      leAt p 1 1 = flag h.memhw.farOpen ∧ t = s.ended (finalResp h m r 0 0 p))) ∧
    (Serving s m tag 0x0501 r → leAt r.payload 0 2 < 1024 → mayName h m 5 (leAt r.payload 0 2) = true →
      Completes (.slipQuery m tag) s (fun t => ∃ p, p.length = 104 ∧
        (∀ i, i < 12 → leAt p (8 * i) 8 = (slipReg (slipAt h (leAt r.payload 0 2)) (8 * i)).toNat) ∧
        t = s.ended (finalResp h m r 0 0 p))) ∧
    (Serving s m tag 0x0502 r → leAt r.payload 0 1 < 34 → mayName h m 4 (leAt r.payload 0 1) = true →
      exec (.ferryQuery m tag) s = .next (s.ended (finalResp h m r 0 0
        ((List.range 8).flatMap (fun k => ferryEntry h (8 * leAt r.payload 0 1 + k)))))) ∧
    (Serving s m tag 0x0601 r → lockShape r.payload = true → (∀ q ∈ lockNamed r.payload, ownerOf h 3 q = actsFor m ∧
        lockOf h q = none ∧ (islandAt h { kind := .quad, idx := q }).power = .open) →
      exec (.lockGroupSet m tag) s = .next (s.ended (waitCommand h { h with
        locks := h.locks ++ [{ die := leAt r.payload 0 1, first := leAt r.payload 1 1, size := leAt r.payload 2 1, since := h.tb.now }] }
        m r (.lock (leAt r.payload 0 1) (leAt r.payload 1 1)) []))) ∧
    (Serving s m tag 0x0602 r → lockShape r.payload = true → (∀ q ∈ lockNamed r.payload, ownerOf h 3 q = actsFor m ∧
        ∀ x ∈ quadRuns h q, x.running = false) →
      (∃ g ∈ h.locks, g.die = leAt r.payload 0 1 ∧ g.first = leAt r.payload 1 1 ∧ g.size = leAt r.payload 2 1) →
      (∀ g ∈ h.locks, g.die = leAt r.payload 0 1 → g.first = leAt r.payload 1 1 → g.size = leAt r.payload 2 1 → g.locked = true) →
      exec (.lockGroupClear m tag) s = .next (s.ended (doneCommand h { h with
        locks := h.locks.filter (fun g =>
          !decide (g.die = leAt r.payload 0 1 ∧ g.first = leAt r.payload 1 1 ∧ g.size = leAt r.payload 2 1)) } m r []))) ∧
    (∀ die first g, g ∈ h.locks → g.die = die → g.first = first → g.locked = false →
      exec (.lockFormed die first) s = .next (s.ended (endWaits { h with
        locks := h.locks.map (fun g => if g.die = die ∧ g.first = first then { g with locked := true } else g) }
        (fun r => decide (r.wait = Wait.lock die first)) 0 0)))

/-- KNOT_QUERY, POOL_CREATE, POOL_DESTROY, POOL_QUERY, KNOT_WAIT_STATS and LEDGER_QUERY. For every state in which the mailbox serves the
request: KNOT_QUERY, POOL_QUERY, KNOT_WAIT_STATS and LEDGER_QUERY of objects the caller may name answer the fields of Table 24.6 and
change nothing but the mailbox; POOL_CREATE whose areas and refill knot are the caller's, whose fields are in range and whose POOL_ID is
free writes the ring slots 0 to ENTRIES - 1 and sets HEAD 0 and TAIL ENTRIES (R495); POOL_DESTROY of an existing pool destroys it (R501).
Each equation gives the whole next state. -/
def Obligations.KnotPoolLedgerQueries : Prop :=
  ∀ (s : State) (h : Hw) (m : Mbx) (tag : Nat) (r : Req), h = clearSent s.hw →
    (∀ k, Serving s m tag 0x0701 r → leAt r.payload 0 4 < 2 ^ 18 → mayName h m 6 (refKnot (leAt r.payload 0 4) / 256) = true →
      k = knotAt h (refKnot (leAt r.payload 0 4)) →
      exec (.knotQuery m tag) s = .next (s.ended (finalResp h m r 0 0
        (leBytes 1 k.type ++ leBytes 1 k.evmode ++ leBytes 1 (flag k.cross + 2 * flag k.broken + 4 * flag k.poison) ++ zeros 1
          ++ leBytes 2 k.irq ++ zeros 2 ++ leBytes 4 k.parties ++ leBytes 4 k.waiters.length ++ leBytes 8 k.value.toNat
          ++ leBytes 32 k.members)))) ∧
    (∀ b x p, Serving s m tag 0x0702 r → b = r.payload → p = actsFor m →
      x = {
            used := true, die := leAt b 1 1, entries := leAt b 4 4, bufSize := leAt b 8 8, base := leAt b 16 8, ring := leAt b 24 8,
            refill := leAt b 32 4, tail := w32 (leAt b 4 4) } →
      ownsArea h p x.base (x.entries * x.bufSize) = true → ownsArea h p x.ring (4 * ringCap x.entries) = true →
      x.refill < 2 ^ 18 → knotOwner h (refKnot x.refill) = p → leAt b 0 1 < 64 → x.die < 4 → x.base % 4096 = 0 → x.ring % 4096 = 0 →
      x.bufSize % 4096 = 0 → 4096 ≤ x.bufSize → x.bufSize ≤ 2 ^ 30 → 1 ≤ x.entries → x.entries ≤ 16777216 →
      (poolAt h p (leAt b 0 1)).used = false → poolsOn h x.die < 256 →
      (h.sync.pools.filter (fun e => decide (e.1 / 64 = p))).length < 64 →
      exec (.poolCreate m tag) s = .next (s.withHm (
        let o := cohWrite (h, s.mem) (compactLocal x.ring) ((List.range x.entries).flatMap (leBytes 4))
        (stepEnd (doneCommand h (setPool o.1 p (leAt b 0 1) x) m r []), o.2)))) ∧
    (Serving s m tag 0x0703 r → leAt r.payload 0 1 < 64 → (poolAt h (actsFor m) (leAt r.payload 0 1)).used = true →
      exec (.poolDestroy m tag) s = .next (s.withHm (
        let o := destroyPool (h, s.mem) (actsFor m) (leAt r.payload 0 1)
        (stepEnd (doneCommand h o.1 m r []), o.2)))) ∧
    (∀ x, Serving s m tag 0x0704 r → leAt r.payload 0 1 < 64 → x = poolAt h (actsFor m) (leAt r.payload 0 1) → x.used = true →
      exec (.poolQuery m tag) s = .next (s.ended (finalResp h m r 0 0
        (leBytes 1 (leAt r.payload 0 1) ++ leBytes 1 x.die ++ zeros 2 ++ leBytes 4 x.entries ++ leBytes 8 x.bufSize ++ leBytes 8 x.base
          ++ leBytes 8 x.ring ++ leBytes 4 x.refill ++ zeros 4 ++ leBytes 4 x.head.toNat ++ leBytes 4 x.tail.toNat
          ++ leBytes 4 x.queue.length ++ zeros 4)))) ∧
    (∀ first n, Serving s m tag 0x0705 r → first = leAt r.payload 0 4 → n = leAt r.payload 4 2 → n ≠ 0 → n ≤ 256 → first + n ≤ 2 ^ 18 →
      (∀ i, i < n → mayName h m 6 ((first + i) / 256) = true) →
      exec (.knotWaitStats m tag) s = .next (s.ended (finalResp h m r 0 0
        ((List.range n).flatMap (fun i => leBytes 8 ((knotAt h (first + i)).waitShown / 1000)))))) ∧
    (∀ n, Serving s m tag 0x0801 r → n = leAt r.payload 0 2 → mayName h m 7 (n / 16) = true →
      exec (.ledgerQuery m tag) s = .next (s.ended (finalResp h m r 0 0
        (ledgerBytes (ledgerAt h n) ++ leBytes 1 (ledgerAt h n).poison ++ zeros 7))))

/-- FENCE_STATUS, LOG_READ, LOG_RELEASE, FAULT_QUEUE_READ, UNIT_RECONCILE, SCRUB_RETRY, LOG_RESYNC and LAST_WORD_CLEAR. For every state in
which the mailbox serves the request: FENCE_STATUS answers its flags and the entries of the fences it shows; LOG_READ answers the flags, the
last word, the class counters and the oldest records of the log from a PSEQ, as many as fit; LOG_RELEASE frees exactly the records up to a
PSEQ (R580); FAULT_QUEUE_READ answers the records present and leaves the queue as it is; UNIT_RECONCILE of a unit no MGMT_DATA_MISMATCH
names is DENIED NOT_MISMATCHED, and of a mismatched swatch whose scrub passes and whose views agree makes it OWNED by the named partition
(R594); SCRUB_RETRY of a unit whose scrub has not failed is DENIED NOT_FAILED, of a swatch whose scrub has failed makes it FREE with RESULT
0 where it passes, and where it miscompares again answers RESULT 1 and fails the scrub again; LOG_RESYNC of a failed copy whose pattern
check passes ends LOG_DEGRADED and writes LOG_RESYNCED (R582), and of a sound copy is DENIED; LAST_WORD_CLEAR answers the last word and
clears it to zero (R584). -/
def Obligations.FaultAndLogCommandRows : Prop :=
  ∀ (s : State) (h : Hw) (m : Mbx) (tag : Nat) (r : Req), h = clearSent s.hw →
    (Serving s m tag 0x0A01 r → (m = .part (leAt r.payload 0 1) ∨ (m = .steward ∧ (leAt r.payload 0 1 ≤ 16 ∨ leAt r.payload 0 1 = 0xFF))) →
      leAt r.payload 0 1 ≤ 0xFF → (leAt r.payload 0 1 ≤ 16 ∨ leAt r.payload 0 1 = 0xFF) →
      exec (.fenceStatus m tag) s = .next (s.ended (finalResp h m r 0 0
        (leBytes 1 (flag (pkgFenced h) + 2 * flag (memberFenced h) + 4 * flag (logDegraded h) + 8 * flag (logLost h)) ++ zeros 7
          ++ paged m 8 24 (leAt r.payload 4 4) (leAt r.payload 8 2)
            ((h.faults.fences.filter (fenceShown (leAt r.payload 0 1))).flatMap (fun f => f.causes.map (fenceEntry f))).eraseDups)))) ∧
    (Serving s m tag 0x0A02 r → logLost h = false → Completes (.logRead m tag) s (fun t => ∃ rs first,
      rs = (h.faults.log.recs.filter (fun x => decide (leAt r.payload 0 8 ≤ x.seq))).take
        (if leAt r.payload 8 2 = 0 then (messageLimit m - 168) / 64 else min (leAt r.payload 8 2) ((messageLimit m - 168) / 64)) ∧
      (∀ x, rs.head? = some x → first = x.seq) ∧
      t = s.ended (finalResp h m r 0 0 (leBytes 4 rs.length
        ++ leBytes 1 (2 * flag (logDegraded h)
          + 4 * flag (decide (rs.length < (h.faults.log.recs.filter (fun x => decide (leAt r.payload 0 8 ≤ x.seq))).length))) ++ zeros 3
        ++ leBytes 8 first ++ leBytes 8 h.keep.lastWord.toNat
        ++ h.faults.log.ctrs.flatMap (fun c => leBytes 8 c.count ++ leBytes 8 c.first ++ leBytes 8 c.last)
        ++ rs.flatMap (fun x => recBytes x false))))) ∧
    (Serving s m tag 0x0A03 r → exec (.logRelease m tag) s = .next (s.ended (doneCommand h { h with
      faults := { h.faults with
        log := { h.faults.log with
        recs := h.faults.log.recs.filter (fun x => decide (leAt r.payload 0 8 < x.seq)) } } } m r []))) ∧
    (Serving s m tag 0x0A04 r → leAt r.payload 0 1 ≤ 17 → (m = .steward ∨ m = .part (leAt r.payload 0 1)) →
      exec (.faultQueueRead m tag) s = .next (s.ended (finalResp h m r 0 0
        (paged m 0 64 (leAt r.payload 4 4) (leAt r.payload 2 2) (queueRecs h (leAt r.payload 0 1)))))) ∧
    (∀ bad agree, Serving s m tag 0x0A05 r → (leAt r.payload 8 1 = 0xFF ∨ (leAt r.payload 8 1 ≤ 16 ∧ partExists h (leAt r.payload 8 1) = true)) →
      mismatched h (leAt r.payload 0 1) (leAt r.payload 4 4) = false →
      exec (.unitReconcile m tag bad agree) s = .next (s.ended (finalResp h m r 0x20 0x100 []))) ∧
    (∀ p, Serving s m tag 0x0A05 r → p = leAt r.payload 8 1 → p ≤ 16 → partExists h p = true → leAt r.payload 0 1 = 1 →
      mismatched h 1 (leAt r.payload 4 4) = true →
      Completes (.unitReconcile m tag none true) s (fun t => (swGet t.hw (leAt r.payload 4 4)).owner = p ∧
        (swGet t.hw (leAt r.payload 4 4)).state = .owned ∧ mismatched t.hw 1 (leAt r.payload 4 4) = false ∧
        (boxAt t.hw m).queue = (boxAt h m).queue ++ respFrames m r 0 0 [] true)) ∧
    (∀ bad, Serving s m tag 0x0A06 r → scrubFailed h (leAt r.payload 0 1) (leAt r.payload 4 4) = false →
      exec (.scrubRetry m tag bad) s = .next (s.ended (finalResp h m r 0x20 0x100 []))) ∧
    (Serving s m tag 0x0A06 r → leAt r.payload 0 1 = 1 → (swGet h (leAt r.payload 4 4)).failed = true →
      tabWf (swBase h) h.sel.swatches = true → closedTier h (leAt r.payload 4 4) = false →
      Completes (.scrubRetry m tag none) s (fun t => (swGet t.hw (leAt r.payload 4 4)).state = .free ∧
        (swGet t.hw (leAt r.payload 4 4)).owner = 31 ∧ (swGet t.hw (leAt r.payload 4 4)).failed = false ∧
        (boxAt t.hw m).queue = (boxAt h m).queue ++ respFrames m r 0 0 (zeros 8) true)) ∧
    (∀ a, Serving s m tag 0x0A06 r → leAt r.payload 0 1 = 1 → (swGet h (leAt r.payload 4 4)).failed = true →
      Completes (.scrubRetry m tag (some a)) s (fun t => ∃ (old x : ScrubRec) (h0 : Hw),
        x = ({ old with
                        seq := h.sel.scrubSeq, units := [leAt r.payload 4 4], first := leAt r.payload 4 4 * 2 ^ 21, startTb := h.tb.now,
                        endTb := h.tb.now, done := true, grant := none, failed := true } : ScrubRec) ∧
        h0 = { h with sel := { h.sel with scrubs := x :: h.sel.scrubs, scrubSeq := h.sel.scrubSeq + 1 } } ∧
        t = s.ended (doneCommand h (failScrub h0 x (leAt r.payload 4 4) a) m r (leBytes 1 1 ++ zeros 7)))) ∧
    (∀ c, Serving s m tag 0x0A07 r → c = leAt r.payload 0 1 → c ≤ 1 → logLost h = false →
      (if c = 0 then h.faults.log.failed0 else h.faults.log.failed1) = true →
      exec (.logResync m tag 0) s = .next (s.ended (doneCommand h (recordWrite { h with
        faults := { h.faults with log := { h.faults.log with failed0 := false, failed1 := false } } }
        { type := 0x0802, cls := 0, part := 0xFF, unitKind := 19, unit := c, arg0 := c }) m r (zeros 8)))) ∧
    (∀ c n, Serving s m tag 0x0A07 r → c = leAt r.payload 0 1 → c ≤ 1 → logLost h = false →
      (if c = 0 then h.faults.log.failed0 else h.faults.log.failed1) = false →
      exec (.logResync m tag n) s = .next (s.ended (finalResp h m r 0x20 0x100 []))) ∧
    (Serving s m tag 0x0A08 r → exec (.lastWordClear m tag) s = .next (s.ended (doneCommand h { h with
      keep := { h.keep with lastWord := 0 } } m r (leBytes 8 h.keep.lastWord.toNat))))

/-- BUCKET_SET, BUCKET_GET, PATROL_SET, POISON_QUERY and POISON_CLEAR. For every state in which the mailbox serves the request: BUCKET_SET of
a class of Table 11.5 with a capacity and a period in range sets both and clamps every COUNT of the class above the new capacity to it;
BUCKET_GET answers the buckets of a class that have seen an event; PATROL_SET of a row other than 4 with a period in its range sets it;
POISON_QUERY of the caller's own swatch answers its poisoned lines; POISON_CLEAR of the caller's own swatch makes every byte of it read as
zero, clears every poison mark of it, drops its cached lines and leaves every other byte as it was. Each equation
gives the whole next state. -/
def Obligations.BucketPatrolPoisonRows : Prop :=
  ∀ (s : State) (h : Hw) (m : Mbx) (tag : Nat) (r : Req), h = clearSent s.hw →
    (∀ c cap per, Serving s m tag 0x0A10 r → c = leAt r.payload 0 1 → cap = leAt r.payload 2 2 → per = leAt r.payload 4 4 → c ≤ 8 →
      cap ≠ 0 → per ≠ 0 → per ≤ 86400000 →
      exec (.bucketSet m tag) s = .next (s.ended (doneCommand h { h with
        ecc := { h.ecc with
                               cfg := h.ecc.cfg.set c { capacity := cap, periodMs := per },
                               buckets := tabMap {} h.ecc.buckets (fun k b =>
                                 if k / 2 ^ 32 = c then { b with count := min b.count cap } else b) } } m r []))) ∧
    (∀ c, Serving s m tag 0x0A11 r → c = leAt r.payload 0 1 → c ≤ 8 →
      exec (.bucketGet m tag) s = .next (s.ended (finalResp h m r 0 0
        (paged m 0 16 (leAt r.payload 4 4) (leAt r.payload 2 2) ((h.ecc.buckets.filter (fun e => decide (e.1 / 2 ^ 32 = c))).map (fun e =>
          leBytes 2 e.2.count ++ leBytes 2 (h.ecc.cfg.getD c {}).capacity ++ leBytes 4 (h.ecc.cfg.getD c {}).periodMs
            ++ leBytes 8 e.2.lastAddr)))))) ∧
    (∀ row per, Serving s m tag 0x0A12 r → row = leAt r.payload 0 1 → per = leAt r.payload 4 4 → row < 4 → (patrolRange row).1 ≤ per →
      per ≤ (patrolRange row).2 →
      exec (.patrolSet m tag) s = .next (s.ended (doneCommand h { h with
        ecc := { h.ecc with patrolMs := h.ecc.patrolMs.set row per } } m r []))) ∧
    (∀ a, Serving s m tag 0x0A13 r → a = leAt r.payload 0 8 → (m = .steward ∨ m = .part (ownerOf h 1 (a / 2 ^ 21))) →
      swatchField h a = true →
      exec (.poisonQuery m tag) s = .next (s.ended (finalResp h m r 0 0
        (leBytes 1 (flag (tabGet false h.coh.swPoison (swatchOf a))) ++ zeros 7 ++ paged m 8 8 (leAt r.payload 8 4) (leAt r.payload 12 2)
          ((h.coh.poison.filter (fun e => decide (swatchOf (e.1 * 64) = swatchOf a))).map (fun e =>
            leBytes 8 (toCompact h.ident.position (e.1 * 64)))))))) ∧
    (∀ a, Serving s m tag 0x0A14 r → a = leAt r.payload 0 8 → ownerOf h 1 (a / 2 ^ 21) = actsFor m → swatchField h a = true →
      tabWf false h.coh.swPoison = true → tabWf (swBase h) h.sel.swatches = true → (∀ k, tabGet 0 h.memhw.tests k ≤ h.free) →
      Completes (.poisonClear m tag) s (fun t =>
        (∀ x, a ≤ x → x < a + 2 ^ 21 → memByte t.mem x = 0 ∧ poisoned t.hw x = false ∧ cohByte t.hw t.mem x = 0) ∧
        (∀ x, (x < a ∨ a + 2 ^ 21 ≤ x) → memByte t.mem x = memByte s.mem x) ∧
        (swGet t.hw (a / 2 ^ 21)).owner = (swGet h (a / 2 ^ 21)).owner ∧
        (boxAt t.hw m).queue = (boxAt h m).queue ++ respFrames m { r with begun := true, commit := h.tb.now } 0 0 [] true))

/-- CAUSE_OF_DOUBT, META_UE, RECONCILIATION, LOG_COPY_FAIL, LOG_LOST, RATE_LIMIT_FLUSH and PATROL_READ. For every state: a latched tamper, a
rail overshoot and a thermal trip each fence the package with their record (Table 19.8); an uncorrectable error in a partition's key slot
fences that partition with KEY_UE, in a selvedge table the package with META_UE, and in a slip the slip with SLIP_UE (Table 11.7); a
disagreement, in a field other than owner and gating, on a unit other than a swatch fences the unit with MGMT_DATA_MISMATCH; during an MR a
comparison does nothing while a committed command is unfinished, and afterwards one that agrees lets READY return (R151); the failure of the
first log copy marks it failed and writes LOG_COPY_FAIL, and the failure of the last sound one loses the log; RATE_LIMIT_FLUSH with
occurrences pending writes one record that carries their number; a PATROL_READ of a clean unit while Active advances its scrubber and
changes nothing else. The causes are taken by the one operation every cause of doubt goes through. -/
def Obligations.FaultEventRows : Prop :=
  ∀ (s : State) (h : Hw), h = clearSent s.hw →
    (∀ n, exec (.causeOfDoubt (.tamper n)) s =
      .next (s.ended (causeOfDoubt h .package 0 0 0xFF { type := 0x0804, arg0 := n }))) ∧
    (∀ rail ma, exec (.causeOfDoubt (.railOvershoot rail ma)) s =
      .next (s.ended (causeOfDoubt h .package 15 rail 0xFF { type := 0x0706, arg0 := ma }))) ∧
    (∀ k u x, exec (.causeOfDoubt (.thermalTrip k u x)) s = .next (s.ended (causeOfDoubt
      { h with power := { h.power with tripped := true } } .package k u 0xFF { type := 0x0707, arg0 := x }))) ∧
    (∀ p near, exec (.metaUe (.keySlot p near)) s =
      .next (s.ended (causeOfDoubt h .partition 0 0 p { type := 0x0103, arg0 := flag near }))) ∧
    (∀ die, exec (.metaUe (.table die)) s =
      .next (s.ended (causeOfDoubt h .package 0 0 0xFF { type := 0x0504, arg0 := 0, arg1 := die }))) ∧
    (∀ n off, exec (.metaUe (.slip n off)) s =
      .next (s.ended (causeOfDoubt h .unit 5 n (unitPart h 5 n) { type := 0x0507, arg0 := off }))) ∧
    (∀ ms, h.efano.mr.isSome = true → journalOpen h = true → exec (.reconciliation ms) s = .next (s.withHw h)) ∧
    (h.efano.mr.isSome = true → journalOpen h = false →
      exec (.reconciliation []) s = .next (s.ended { h with efano := { h.efano with agreed := true } })) ∧
    (∀ m : Mismatch, h.efano.mr = none → m.kind ≠ 1 → m.fld ≠ 1 → m.fld ≠ 3 →
      exec (.reconciliation [m]) s = .next (s.ended (causeOfDoubt h .unit m.kind m.idx
        (unitPart h m.kind m.idx) { type := 0x0803, arg0 := m.mgmt, arg1 := m.data, arg2 := m.fld }))) ∧
    (∀ addr, h.faults.log.failed0 = false → h.faults.log.failed1 = false →
      exec (.logCopyFail 0 addr) s = .next (s.ended (recordWrite { h with
        faults := { h.faults with log := { h.faults.log with failed0 := true } } }
        { type := 0x0801, cls := 4, part := 0xFF, unitKind := 19, unit := 0, addr := addr, arg0 := 0 }))) ∧
    (∀ addr, h.faults.log.failed0 = true → h.faults.log.failed1 = false →
      Completes (.logCopyFail 1 addr) s (fun t => logLost t.hw = true ∧ pkgFenced t.hw = true ∧ t.hw.faults.log.recs = [] ∧
        bitOf t.hw.keep.lastWord.toNat 19 = true ∧ field t.hw.keep.lastWord.toNat 15 0 = 0x0807)) ∧
    (logLost h = false → Completes .logLost s (fun t => logLost t.hw = true ∧ pkgFenced t.hw = true ∧ t.hw.faults.log.recs = [] ∧
        bitOf t.hw.keep.lastWord.toNat 19 = true ∧ field t.hw.keep.lastWord.toNat 15 0 = 0x0807)) ∧
    (∀ type unit x, x = tabGet {} h.faults.rates (type * 2 ^ 32 + unit) → x.armed = true → x.pending ≠ 0 →
      Completes (.rateLimitFlush type unit) s (fun t => ∃ h1 h2 y, y = ({ armed := true, last := h1.tb.now, record := x.record } : RateState) ∧ h1 = advanceTo h (x.last + 1000000000) ∧
        h2 = recordWrite h1 { x.record with count := x.pending } ∧
        t = s.ended { h2 with
          faults := { h2.faults with rates := tabPut {} h2.faults.rates (type * 2 ^ 32 + unit) y } })) ∧
    (∀ u, patrolled h u = true → exec (.patrolRead u .clean) s = .next (s.ended { h with
      ecc := { h.ecc with patrolPos := tabMod 0 h.ecc.patrolPos (patrolRow u) (· + 1) } }))

/-- POWER_BUDGET_SET, POWER_BOUNDS_SET, RAIL_CAP_SET, THERMAL_SET, POOL_CONFIG, POWER_TELEMETRY and POWER_STATUS. For every state in which
the mailbox serves the request: POWER_BUDGET_SET of a budget in steps of 5 W with 1200 <= POOL_MIN <= STATIC <= POOL_MAX <= 2600 sets the
three, and any other is DENIED with no effect; the Steward's POWER_BOUNDS_SET of one adjustable island sets floor and ceiling in its range
and raises a lower tenant ceiling to the floor, having noted the partitions that are slowed (R108), and a floor above the ceiling is DENIED;
a tenant's ceiling on its own island between the Steward's floor and ceiling is set, outside them DENIED, and on another's island NOT_OWNER;
RAIL_CAP_SET of a hard cap alone from a quarter of the fused value to the fused value sets it and brings SOFT_CAP to the new cap where it
stood above it, and to a tenth of it where it stood below that, and any other hard cap is DENIED; THERMAL_SET of 80 to 104 C sets TJ_TARGET,
and any other is DENIED; POOL_CONFIG that disables the pool drops every incoming lease; POWER_TELEMETRY answers a tenant its own totals as
taken at the last 1 ms boundary; POWER_STATUS answers PROCHOT, trip and response state. Each equation gives the whole next state. -/
def Obligations.PowerCommandRows : Prop :=
  ∀ (s : State) (h : Hw) (m : Mbx) (tag : Nat) (r : Req), h = clearSent s.hw →
    (∀ st lo hi, Serving s m tag 0x0901 r → st = leAt r.payload 0 2 → lo = leAt r.payload 2 2 → hi = leAt r.payload 4 2 →
      ((st % 5 = 0 ∧ 1200 ≤ lo ∧ lo ≤ st ∧ st ≤ hi ∧ hi ≤ 2600) →
        exec (.powerBudgetSet m tag) s = .next (s.ended (doneCommand h
          { h with power := { h.power with static := st, poolMin := lo, poolMax := hi } } m r []))) ∧
      (¬(st % 5 = 0 ∧ 1200 ≤ lo ∧ lo ≤ st ∧ st ≤ hi ∧ hi ≤ 2600) →
        exec (.powerBudgetSet m tag) s = .next (s.ended (finalResp h m r 0x20 0 [])))) ∧
    (∀ k n i fl ce, Serving s m tag 0x0902 r → (∀ p, m ≠ .part p) → kindOf (leAt r.payload 0 1) = some k → adjustable k = true →
      leAt r.payload 1 1 = 3 → leAt r.payload 2 2 = 1 → n = leAt r.payload 4 4 → n < kindCount h k → i = ({ kind := k, idx := n } : Island) →
      fl = leAt r.payload 8 2 → ce = leAt r.payload 10 2 →
      (∀ b, b = ({ floor := some fl, ceiling := some ce, tenant := (boundsAt h i).tenant.map (fun t => max t fl) } : Bounds) →
        (kindRange k).1 ≤ fl → fl ≤ ce → ce ≤ (kindRange k).2 →
        exec (.powerBoundsSet m tag) s = .next (s.ended (doneCommand h
          { noteThrottle h with power := { h.power with bounds := tabPut {} h.power.bounds (islandKey i) b } } m r []))) ∧
      (¬((kindRange k).1 ≤ fl ∧ fl ≤ ce ∧ ce ≤ (kindRange k).2) →
        exec (.powerBoundsSet m tag) s = .next (s.ended (finalResp h m r 0x20 0 [])))) ∧
    (∀ p k n i ce, Serving s m tag 0x0902 r → m = .part p → kindOf (leAt r.payload 0 1) = some k → adjustable k = true →
      leAt r.payload 1 1 = 2 → leAt r.payload 2 2 = 1 → n = leAt r.payload 4 4 → n < kindCount h k → i = ({ kind := k, idx := n } : Island) →
      ce = leAt r.payload 10 2 →
      (∀ b, b = { boundsAt h i with tenant := some ce } → islandOwner h i = p → floorOf h i ≤ ce → ce ≤ stewardCeil h i →
        exec (.powerBoundsSet m tag) s = .next (s.ended (doneCommand h
          { noteThrottle h with power := { h.power with bounds := tabPut {} h.power.bounds (islandKey i) b } } m r []))) ∧
      (islandOwner h i = p → ¬(floorOf h i ≤ ce ∧ ce ≤ stewardCeil h i) →
        exec (.powerBoundsSet m tag) s = .next (s.ended (finalResp h m r 0x20 0 []))) ∧
      (islandOwner h i ≠ p →
        exec (.powerBoundsSet m tag) s = .next (s.ended (finalResp h m r 0x21 0 [])))) ∧
    (∀ n c, Serving s m tag 0x0903 r → n = leAt r.payload 0 1 → n < 26 → leAt r.payload 1 1 = 1 → c = leAt r.payload 4 4 →
      ((railFuse h n ≤ 4 * c ∧ c ≤ railFuse h n) →
        exec (.railCapSet m tag) s = .next (s.ended (doneCommand h (setRail h n { railAt h n with
          hard := some c,
          soft := some (if c < railSoft h n then c else if 10 * railSoft h n < c then ceilDiv c 10 else railSoft h n) }) m r []))) ∧
      (¬(railFuse h n ≤ 4 * c ∧ c ≤ railFuse h n) →
        exec (.railCapSet m tag) s = .next (s.ended (finalResp h m r 0x20 0 [])))) ∧
    (∀ t, Serving s m tag 0x0904 r → t = leAt r.payload 0 1 →
      ((80 ≤ t ∧ t ≤ 104) → exec (.thermalSet m tag) s = .next (s.ended (doneCommand h
        { h with power := { h.power with tjTarget := t } } m r []))) ∧
      (¬(80 ≤ t ∧ t ≤ 104) → exec (.thermalSet m tag) s = .next (s.ended (finalResp h m r 0x20 0 [])))) ∧
    (∀ th st, Serving s m tag 0x0905 r → bitOf (leAt r.payload 4 1) 0 = false → th = leAt r.payload 5 1 → st = leAt r.payload 6 2 →
      5 ≤ th → th ≤ 95 → 5 ≤ st → st ≤ 200 →
      exec (.poolConfig m tag) s = .next (s.ended (doneCommand h { h with
        power := { h.power with poolSet := leAt r.payload 0 4, poolOn := false, theta := th, stepMax := st, ins := [] } } m r []))) ∧
    (∀ q, Serving s m tag 0x0906 r → m = .part q →
      exec (.powerTelemetry m tag) s = .next (s.ended (finalResp h m r 0 0
        (leBytes 8 h.power.telemAt ++ leBytes 8 ((partAt h q).shown.getD 0 0) ++ leBytes 8 ((partAt h q).shown.getD 1 0)
          ++ leBytes 8 ((partAt h q).shown.getD 2 0 / 4096) ++ leBytes 8 ((partAt h q).shown.getD 3 0 / 1000))))) ∧
    (Serving s m tag 0x0907 r →
      exec (.powerStatus m tag) s = .next (s.ended (finalResp h m r 0 0
        (leBytes 1 (if h.power.extHot then 0x3F else h.power.prochot)
          ++ leBytes 1 (flag h.power.extHot + 2 * flag h.power.tripped + 4 * flag (takesPart h) + 8 * flag h.tb.holdover) ++ zeros 2
          ++ leBytes 4 (bitmapNat 30 (fun n => (railAt h n).engaged.isSome))
          ++ leBytes 4 (bitmapNat 17 (fun k => match kindOf k with
            | some kd => adjustable kd && (List.range (kindCount h kd)).any (fun n => heldLow h { kind := kd, idx := n })
            | none => false))))))

/-- Rail samples and release, droop, thermal samples, external PROCHOT, budget loop, pool epoch and lease end. For every state: a RAIL_SAMPLE
of a sound rail sensor below the overshoot limit records the 1 ms average, engages the protective response above the hard cap or while the
window average stays at 95 % of it, and turns the soft-cap loop on above the soft cap; an average over 1 us above 110 % of the hard cap
fences the package with RAIL_OVERSHOOT (R542); PROTECTIVE_RELEASE ends the response one window after the last crossing; DROOP stretches
the clock of the island, with its lock group's, and counts it (an island the grade lacks has none, R55), DROOP_END ends it; THERMAL_SAMPLE 20 us after the last takes every reading
(a failed self-check or a jump of more than 20 C fails the sensor with SENSOR_FAIL), moves each die in and out of PROCHOT at 105 C and
below 102 C, and trips at 118 C; PROCHOT_EXT and its release set and clear external PROCHOT; BUDGET_LOOP ends a 1 ms interval, takes the
tenants' telemetry and moves one group of ceilings in the order of R555; POOL_EPOCH_START resets the wait counters and, where the package
takes no part, drops its incoming leases; POOL_EPOCH lowers the budget by what it grants and sends the grants; LEASE_END removes the
leases and reductions that have ended. Rail samples, the end of a response, thermal samples and PROCHOT_EXT_RELEASE first note the
partitions that are slowed (R108). That a timed row moves the time base to its instant is the model's choice (log entry 1). -/
def Obligations.PowerEventRows : Prop :=
  ∀ (s : State) (h : Hw), h = clearSent s.hw →
    (∀ r cur win us ms x y g, g = noteThrottle h → x = railAt h r → r < 30 → x.dead = false → 100 * us ≤ 110 * railHard h r →
      y = { x with
                   engaged := if (railHard h r < cur ∧ r < 26) ∨ (x.engaged ≠ none ∧ 95 * railHard h r ≤ 100 * win) then some h.tb.now else x.engaged,
                   softOn := decide (railSoft h r < win), current := ms } →
      exec (.railSample r cur win us ms true) s = .next (s.ended (setRail g r y))) ∧
    (∀ r cur win us ms x y g, g = noteThrottle h → x = railAt h r → r < 30 → x.dead = false → 110 * railHard h r < 100 * us →
      y = { x with
                   engaged := if (railHard h r < cur ∧ r < 26) ∨ (x.engaged ≠ none ∧ 95 * railHard h r ≤ 100 * win) then some h.tb.now else x.engaged,
                   softOn := decide (railSoft h r < win), current := ms } →
      exec (.railSample r cur win us ms true) s =
        .next (s.ended (causeOfDoubt (setRail g r y) .package 15 r 0xFF { type := 0x0706, arg0 := us }))) ∧
    (∀ r x cur win us ms g, g = noteThrottle h → x = railAt h r → r < 30 → x.dead = false → exec (.railSample r cur win us ms false) s =
      .next (s.ended (yieldFloors (recordWrite (setRail g r { x with dead := true })
        { type := 0x0705, part := 0xFF, unitKind := 15, unit := r }) (fun i => decide (railOf i = r))))) ∧
    (∀ r t, (railAt h r).engaged = some t → exec (.protectiveRelease r) s =
      .next (s.ended (setRail (advanceTo (noteThrottle h) (t + 1000 * (railAt h r).window)) r { railAt h r with engaged := none }))) ∧
    (∀ i, islandExists h i = true → Completes (.droop i) s (fun t => (∀ j, j ∈ clockGroup h i → (islandAt t.hw j).stretch = true) ∧
      t.hw.power = { h.power with droops := tabMod 0 h.power.droops (islandKey i) (· + 1) } ∧ t.mem = s.mem ∧
      t.hw = { h with islands := t.hw.islands, power := t.hw.power })) ∧
    (∀ i, islandExists h i = false → exec (.droop i) s = .next (s.withHw h)) ∧
    (∀ i, i.kind ≠ IslandKind.quad → exec (.droopEnd i) s = .next (s.ended (setIsland h i { islandAt h i with stretch := false }))) ∧
    (∀ rs h0 h2, h0 = advanceTo (noteThrottle h) (h.power.sampled + 20000) →
      h2 = (List.range 6).foldl dieThermal (rs.foldl sampleOne { h0 with power := { h0.power with sampled := h0.tb.now } }) →
      (h2.power.sensors.find? (fun e => !e.2.failed && decide (472 ≤ e.2.reading.getD 0)) = none →
        exec (.thermalSample rs) s = .next (s.ended h2)) ∧
      (∀ e, h2.power.sensors.find? (fun e => !e.2.failed && decide (472 ≤ e.2.reading.getD 0)) = some e →
        exec (.thermalSample rs) s = .next (s.ended (thermalTrip h2 16 e.1 (e.2.reading.getD 0))))) ∧
    (∀ (g : Hw) n v, n < 512 → (sensorAt g n).failed = false → (∀ o, (sensorAt g n).reading = some o → v ≤ o + 80 ∧ o ≤ v + 80) →
      sampleOne g (n, v, true) = { g with power := { g.power with sensors := tabPut {} g.power.sensors n { reading := some v } } }) ∧
    (∀ (g : Hw) n v ok, n < 512 → (sensorAt g n).failed = false → (ok = false ∨ ∃ o, (sensorAt g n).reading = some o ∧ (o + 80 < v ∨ v + 80 < o)) →
      sampleOne g (n, v, ok) = recordWrite
        { g with power := { g.power with sensors := tabPut {} g.power.sensors n { reading := some v, failed := true } } }
        { type := 0x0704, part := 0xFF, unitKind := 16, unit := n }) ∧
    (∀ (g : Hw) d, d < 6 →
      (bitOf g.power.prochot d = false → 420 ≤ hottestDie g d → bitOf (dieThermal g d).power.prochot d = true) ∧
      (bitOf g.power.prochot d = false → hottestDie g d < 420 → (dieThermal g d).power.prochot = g.power.prochot) ∧
      (bitOf g.power.prochot d = true → hottestDie g d < 408 → bitOf (dieThermal g d).power.prochot d = false) ∧
      (bitOf g.power.prochot d = true → 408 ≤ hottestDie g d → (dieThermal g d).power.prochot = g.power.prochot)) ∧
    (h.power.extHot = false → exec .prochotExt s = .next (s.ended (yieldFloors
      (recordLimited { h with power := { h.power with extHot := true } } { type := 0x0703, part := 0xFF }) (fun _ => true)))) ∧
    exec .prochotExtRelease s = .next (s.ended { noteThrottle h with power := { h.power with extHot := false } }) ∧
    (∀ w, Completes (.budgetLoop w []) s (fun t => t.hw.power.inputW = w ∧ t.hw.power.telemAt = t.hw.tb.now ∧
      t.hw.tb.now = max h.tb.now ((h.power.loopAt / 1000000 + 1) * 1000000) ∧
      (tabWf {} h.sel.parts = true → ∀ p, p ≤ 16 → ∃ n, (n = (partAt h p).throttled ∨ n = (partAt h p).throttled + 1) ∧ (partAt t.hw p).throttled = n ∧
        (partAt t.hw p).shown = [(partAt h p).energy, n, (partAt h p).traffic, (partAt h p).knotWaitNs]) ∧
      (w = effective h → t.hw.power.kindCeil = h.power.kindCeil) ∧
      (effective h < w → canLower h .quad = true →
        t.hw.power.kindCeil = tabPut 0 h.power.kindCeil IslandKind.quad.code (tabGet 0 h.power.kindCeil IslandKind.quad.code + 25)) ∧
      t.hw.sel.swatches = h.sel.swatches ∧ t.hw.eng = h.eng ∧ t.mem = s.mem)) ∧
    (∀ h0, h0 = advanceTo h ((h.power.epoch / 1000000 + 1) * 1000000) → takesPart h0 = false →
      exec .poolEpochStart s = .next (s.withHw
        { h0 with
                  arch := { h0.arch with sets := tabMap {} h0.arch.sets (fun _ b => { b with waitTotal := 0, awaited := [] }) },
                  power := { h0.power with
                                           epoch := max ((h.power.epoch / 1000000 + 1) * 1000000) (h0.tb.now / 1000000 * 1000000),
                                           epochRun := false, frames := [], mine := none, ins := [] } })) ∧
    (∀ h0, h0 = advanceTo h (h.power.epoch + 500000) → h0.power.epochRun = false → takesPart h0 = true →
      exec .poolEpoch s = .next (s.ended ((poolShares h0).foldl (fun g e => direct g 0x16 e.1 [e.1, g.power.poolSet, e.2, h0.tb.now])
        { h0 with
                                           power := { h0.power with
                                           epochRun := true,
                                           outs := if (poolShares h0).foldl (fun n e => n + e.2) 0 = 0 then h0.power.outs
                                                   else h0.power.outs ++ [{
                                                                            watts := (poolShares h0).foldl (fun n e => n + e.2) 0,
                                                                            ends := h0.tb.now + 4001000 }] } }))) ∧
    (∀ l ls g, h.power.outs ++ h.power.ins = l :: ls → g = advanceTo h (ls.foldl (fun n x => min n x.ends) l.ends) →
      exec .leaseEnd s = .next (s.ended { g with
        power := { g.power with
        outs := g.power.outs.filter (fun x => decide (g.tb.now < x.ends)), ins := g.power.ins.filter (fun x => decide (g.tb.now < x.ends)) } }))

/-- The power pool never takes a package below POOL_MIN. In every state in which the outgoing reductions leave at least POOL_MIN of the
static budget, POOL_EPOCH completes and its own reductions leave at least POOL_MIN (R535, R560): what one epoch gives away never exceeds
STATIC - POOL_MIN - OUT; and the effective budget never exceeds POOL_MAX (R554). -/
def Obligations.PoolKeepsMinimum : Prop :=
  ∀ s : State, s.hw.power.poolMin + leaseSum s.hw.power.outs ≤ s.hw.power.static →
    Completes .poolEpoch s (fun t => t.hw.power.poolMin + leaseSum t.hw.power.outs ≤ t.hw.power.static ∧
      t.hw.power.static = s.hw.power.static ∧ t.hw.power.poolMin = s.hw.power.poolMin ∧ effective t.hw ≤ t.hw.power.poolMax)

/-- The reset and power-state commands of group 0x0E. For every state in which the mailbox serves the request: the Steward's PART_RESET of a
partition whose fence holds no pending cause that a reset does not itself clear (R595) lifts its fence and resets it, and with one is DENIED
CAUSE_PENDING; a tenant's own PART_RESET closes its session, resets it and answers ACCEPTED last; UNIT_RESET of a unit that the command
names and no pending cause holds lifts its fence, wakes its island and resets it (a ferry group's taken descriptors are
released first, and a slip's held descriptors complete HALTED), of a SCRUBBING unit is BUSY, and of a unit of another kind is DENIED; MGMT_RESTART begins an MR and
PKG_RESET a WP, each after its session has closed, answering ACCEPTED last; POWER_STATE_SET Drowse asks for Drowse, Dormant where R173 does
not refuse it asks for Dormant and is answered ACCEPTED, where R173 refuses it DENIED, and Off empties the package; POWER_STATE_CONFIG in
range with a save area of partition 0's own region-0 swatches sets the delays and the area, and out of range is DENIED; WAKE_REPORT_GET
answers the latest report; KEEPALIVE_ACK clears KA_LOST and TRAINING_CACHE_CLEAR drops every cached training parameter. -/
def Obligations.ResetCommandRows : Prop :=
  ∀ (s : State) (h : Hw) (m : Mbx) (tag : Nat) (r : Req), h = clearSent s.hw →
    (∀ p, Serving s m tag 0x0E01 r → (∀ q, m ≠ .part q) → p = leAt r.payload 0 1 → p ≤ 16 → partExists h p = true →
      (∀ f, f ∈ h.faults.fences → f.scope = Scope.partition → f.part = p → ∀ c, c ∈ f.causes → c.pending = true → c.type = 0x0505) →
      exec (.partReset m tag) s = .next (s.ended (doneCommand h (partReset
        (liftFences h (fun f => decide (f.scope = Scope.partition ∧ f.part = p)) 0x0E01) p) m r []))) ∧
    (∀ p f c, Serving s m tag 0x0E01 r → (∀ q, m ≠ .part q) → p = leAt r.payload 0 1 → p ≤ 16 → partExists h p = true →
      f ∈ h.faults.fences → f.scope = Scope.partition → f.part = p → c ∈ f.causes → c.pending = true → c.type ≠ 0x0505 →
      exec (.partReset m tag) s = .next (s.ended (finalResp h m r 0x20 0x110 []))) ∧
    (∀ p, Serving s m tag 0x0E01 r → m = .part p → p = leAt r.payload 0 1 → h.faults.fences = [] →
      exec (.partReset m tag) s = .next (s.ended (acceptedLast h (partReset (liftFences (closedFor h h m r)
        (fun f => decide (f.scope = Scope.partition ∧ f.part = p)) 0x0E01) p) m r))) ∧
    (∀ k n i g, Serving s m tag 0x0E02 r → k = leAt r.payload 0 1 → n = leAt r.payload 4 4 → k ∈ [2, 3, 4, 10, 11, 12] → n < unitCount k →
      partFenced h (unitPart h k n) = false →
      h.faults.fences.any (fun f => decide (f.scope = Scope.unit ∧ f.kind = k ∧ f.unit = n) && stillPending f urClears) = false →
      ((unitAt h k n).state = UnitState.scrubbing → (unitAt h k n).failed = true) → unitIsland k n = some i → g = wakeWhole h i →
      (k ≠ 4 → exec (.unitReset m tag) s = .next (s.ended (doneCommand h (unitReset (liftUnit g k n 0x0E02) k n) m r []))) ∧
      (∀ o, k = 4 → o = releaseTaken (g, s.mem) n (fun d => decide (d.phase = Phase.dispatched ∨ d.phase = Phase.waiting ∨ d.phase = Phase.walking)) →
        exec (.unitReset m tag) s = .next { s with hw := stepEnd (doneCommand h (unitReset (liftUnit o.1 4 n 0x0E02) 4 n) m r []), mem := o.2 })) ∧
    (∀ n o, Serving s m tag 0x0E02 r → leAt r.payload 0 1 = 5 → n = leAt r.payload 4 4 → n < unitCount 5 → h.faults.fences = [] →
      ((unitAt h 5 n).state = UnitState.scrubbing → (unitAt h 5 n).failed = true) → tabWf {} h.eng.slips = true → o = haltHeld (h, s.mem) n →
      exec (.unitReset m tag) s = .next { s with hw := stepEnd (doneCommand h (resetSlip (liftUnit o.1 5 n 0x0E02) n) m r []), mem := o.2 } ∧
      (unitFencedOwn (liftUnit o.1 5 n 0x0E02) 5 n = false → tabWf {} (liftUnit o.1 5 n 0x0E02).eng.slips = true →
        slipAt (resetSlip (liftUnit o.1 5 n 0x0E02) n) n = {})) ∧
    (∀ k n, Serving s m tag 0x0E02 r → k = leAt r.payload 0 1 → n = leAt r.payload 4 4 → k ∈ [2, 3, 4, 5, 10, 11, 12] → n < unitCount k →
      partFenced h (unitPart h k n) = false → (unitAt h k n).state = UnitState.scrubbing → (unitAt h k n).failed = false →
      exec (.unitReset m tag) s = .next (s.ended (finalResp h m r 0x11 0 []))) ∧
    (∀ k, Serving s m tag 0x0E02 r → k = leAt r.payload 0 1 → k ∉ [2, 3, 4, 5, 10, 11, 12] →
      partFenced h (unitPart h k (leAt r.payload 4 4)) = false →
      exec (.unitReset m tag) s = .next (s.ended (finalResp h m r 0x20 0x100 []))) ∧
    (Serving s m tag 0x0E03 r → h.efano.mr = none →
      exec (.mgmtRestart m tag) s = .next (s.ended (acceptedLast h (mrBegin (closedFor h h m r)) m r))) ∧
    (Serving s m tag 0x0E04 r → h.efano.ready = true → h.start.st ≠ PowerSt.off →
      exec (.pkgReset m tag) s = .next (s.ended (acceptedLast h
        (wpBegin (closedFor h h m r) (if pkgFenced h then 3 else if m = Mbx.keeper then 2 else 1)) m r))) ∧
    (Serving s m tag 0x0E05 r → findReq (boxAt h m) tag = some r → leAt r.payload 0 1 = 2 →
      exec (.powerStateSet m tag) s = .next (s.ended (doneCommand h { h with start := { h.start with drowseReq := true } } m r []))) ∧
    (Serving s m tag 0x0E05 r → findReq (boxAt h m) tag = some r → leAt r.payload 0 1 = 3 → dormantBad h = true →
      exec (.powerStateSet m tag) s = .next (s.ended (finalResp h m r 0x20 0 []))) ∧
    (Serving s m tag 0x0E05 r → leAt r.payload 0 1 = 3 → dormantBad h = false → findReq (boxAt h m) tag = some r →
      Completes (.powerStateSet m tag) s (fun t => t.hw.start = { h.start with dormReq := true } ∧ t.mem = s.mem ∧
        (boxAt t.hw m).queue = (boxAt h m).queue ++ respFrames m { r with begun := true, commit := h.tb.now, wait := .dormant } 1 0 [] false ∧
        t.hw = { h with start := t.hw.start, efano := t.hw.efano })) ∧
    (Serving s m tag 0x0E05 r → leAt r.payload 0 1 = 4 →
      exec (.powerStateSet m tag) s = .next { s with hw := stepEnd (acceptedLast h (powerOff (closedFor h h m r, s.mem)).1 m r), mem := [] }) ∧
    (∀ us dm n a, Serving s m tag 0x0E06 r → us = leAt r.payload 0 4 → dm = leAt r.payload 4 2 → n = leAt r.payload 8 4 → a = leAt r.payload 16 8 →
      ((10 ≤ us ∧ us ≤ 10000 ∧ 1 ≤ dm ∧ dm ≤ 1000 ∧ a % 2 ^ 21 = 0) →
        (∀ i, i < n → regionOf ((a / 2 ^ 21 + i) * 2 ^ 21) = 0 ∧ (swGet h (a / 2 ^ 21 + i)).owner = 0) →
        exec (.powerStateConfig m tag) s = .next (s.ended (doneCommand h
          { h with start := { h.start with idleUs := us, drowseMs := dm, drowseOn := bitOf (leAt r.payload 6 1) 0, saveN := n, saveAt := a } } m r []))) ∧
      (¬(10 ≤ us ∧ us ≤ 10000 ∧ 1 ≤ dm ∧ dm ≤ 1000 ∧ a % 2 ^ 21 = 0) →
        exec (.powerStateConfig m tag) s = .next (s.ended (finalResp h m r 0x20 0 [])))) ∧
    (Serving s m tag 0x0E07 r → h.start.report ≠ [] →
      exec (.wakeReportGet m tag) s = .next (s.ended (finalResp h m r 0 0 h.start.report))) ∧
    (Serving s m tag 0x0E08 r → exec (.keepaliveAck m tag) s =
      .next (s.ended (doneCommand h { h with keep := { h.keep with kaLost := false } } m r []))) ∧
    (Serving s m tag 0x0E09 r → exec (.trainingCacheClear m tag) s = .next (s.ended (doneCommand h
      ((tierUnits h true ++ tierUnits h false).foldl (fun g k => setChan g k { chanAt g k with cached := false }) h) m r [])))

/-- CP and the steps of start-up: Table 5.1, training, boot resources, cores, READY and the joins. For every state: CP starts the package
over, keeping the keep-alive domain, the fuses, the flash and what repairs burnt in, with memory empty, every mailbox closed, partition 0's keys drawn (R92) and the time
base from the real-time clock where that is valid and from zero where it is not (R154); then, each at its instant of Table 5.1:
KEEP_ALIVE_CHECK samples the ANCHOR strap, checks the fuses and locks the Cralu pair, CAUSEWAY_ISLAND_RUNNING starts the causeway,
ROOT_PORTS_CONFIGURED applies the port and pin tables and picks a slot that qualifies (R663), TRAINING_START takes the warm path where the
cache holds for every stack and channel and the cold one otherwise (R158), TRAINING_STEP takes a step that passes, reading the device in
step 2, where only a 36 GiB stack or a channel populated like the others passes (R309 to R311), enters the lanes it finds below the margin
as repair candidates (R328), and fails a step that does not pass, but for a warm step 4, after which the cold steps follow (R317), TIER_OPENED opens a tier whose units have all trained and caches their parameters, BOOT_RESOURCES, once the far tier is open and the
near tier's training is over, gives partition 0 what R157 lists, CORES_RELEASED starts cluster 0, READY sets READY in every mailbox and
writes the wake report, and after an MR sets READY once no committed command is unfinished and the views agree (R151), OWN_JOIN_SENT opens
the causeway to joins (R156), and IDURRUM_TRAINING_BEGINS starts the ports that are not disabled once the causeway is joined (R604). That a
timed step moves the time base to its instant is the model's choice (log entry 1). -/
def Obligations.StartupRows : Prop :=
  ∀ (s : State) (h : Hw), h = clearSent s.hw →
    (∀ c, c = 1 ∨ c = 2 ∨ c = 3 → exec (.cp c) s = .next { s with hw := coldStart h c, mem := [] } ∧
      (coldStart h c).keep = { h.keep with rtc := h.keep.rtc + (h.tb.now - h.keep.rtcAt), rtcAt := (coldStart h c).tb.now } ∧
      (coldStart h c).tb.now = (if h.keep.rtcValid then h.keep.rtc + (h.tb.now - h.keep.rtcAt) else 0) ∧
      (coldStart h c).edges.flash = h.edges.flash ∧ (coldStart h c).ident.sites = h.ident.sites ∧
      (coldStart h c).ident.admitted = false ∧ (coldStart h c).efano.ready = false ∧ (coldStart h c).efano.boxes = [] ∧
      (coldStart h c).sel.swatches = [] ∧ (coldStart h c).sel.base = SwState.blank ∧
      (coldStart h c).sel.parts = tabPut {} [] 0 { farKey := h.sel.keyCount + 1, nearKey := h.sel.keyCount + 2 } ∧
      (coldStart h c).faults.fences = [] ∧ (coldStart h c).eng.slips = [] ∧ (coldStart h c).sync.knots = []) ∧
    (∀ a g, h.start.checked = false → starting h = true → h.keep.vka = true → h.keep.powered = true → g = advanceTo h (h.start.t0 + 20000000) →
      exec (.keepAliveCheck a) s = .next (s.ended { g with
        edges := { g.edges with anchor := a }, start := { g.start with checked := fuseOk g }, ident := { g.ident with pairLock := fuseOk g } })) ∧
    (∀ g, h.start.checked = true → h.arch.running = false → h.start.st = PowerSt.active → g = advanceTo h (h.start.t0 + 20000000) →
      exec .causewayIslandRunning s = .next (s.ended { g with arch := { g.arch with running := true } })) ∧
    (∀ rs ps, h.start.checked = true → h.start.ports = false → starting h = true → h.start.warm = false →
      Completes (.rootPortsConfigured rs ps) s (fun t => t.hw.start.ports = true ∧ t.hw.tb.now = max h.tb.now (h.start.t0 + 100000000) ∧
        t.hw.edges.pinsOn = true ∧
        (slotQualifies h h.edges.active = true → t.hw.edges.active = h.edges.active ∧ t.hw.start.fwOk = true) ∧
        (slotQualifies h h.edges.active = false → slotQualifies h (1 - h.edges.active) = true →
          t.hw.edges.active = 1 - h.edges.active ∧ t.hw.start.fwOk = true) ∧
        (slotQualifies h h.edges.active = false → slotQualifies h (1 - h.edges.active) = false → t.hw.start.fwOk = false) ∧
        (rs = [] → t.hw.edges.ports = []) ∧ (∀ p cx, p < 32 → p % 4 = 0 → rs = [{ port := p, cxl := cx }] →
          tabGet {} t.hw.edges.ports p = { exists_ := true, cxl := cx, training := true }))) ∧
    (∀ ok, h.start.checked = true → h.start.ports = true → h.start.fwOk = true → h.memhw.training = false → h.start.warm = false → starting h = true →
      Completes (.trainingStart ok) s (fun t => t.hw.memhw.training = true ∧ t.hw.tb.now = max h.tb.now (h.start.t0 + 120000000) ∧
        (∀ k, k ∈ tierUnits h true ++ tierUnits h false → ok = true → (∀ j, j ∈ tierUnits h true ++ tierUnits h false → (chanAt h j).cached = true) →
          (chanAt t.hw k).path = TrainPath.warm ∧ (chanAt t.hw k).cached = true) ∧
        (∀ k, k ∈ tierUnits h true ++ tierUnits h false → ok = false →
          (chanAt t.hw k).path = TrainPath.cold ∧ (chanAt t.hw k).cached = (chanAt h k).cached))) ∧
    (∀ k f far c n g, far = decide (k ≥ 16) → k ∈ tierUnits h (!far) → c = chanAt h k → n = nextStep c.path c.step → h.memhw.training = true →
      c.done = false → c.failed = false → pkgFenced h = false → g = f.lanes.foldl (fun h l => addCandidate h (laneCand k l.1 l.2)) h →
      (f.lanes = [] → n ≠ 2 → exec (.trainingStep k true f) s = .next (s.ended (setChan h k { c with step := n, done := decide (n = 10) }))) ∧
      (f.lanes = [] → n = 2 → far = false → deviceOk false f.dev = true →
        exec (.trainingStep k true f) s = .next (s.ended (setChan h k { c with step := 2, dev := f.dev }))) ∧
      (∀ e, f.lanes = [] → n = 2 → far = true → deviceOk true f.dev = true → (∀ d, h.memhw.farDev = some d → alike f.dev d = true) →
        e = setChan h k { c with step := 2, dev := f.dev } →
        exec (.trainingStep k true f) s =
          .next (s.ended { e with memhw := { e.memhw with kGib := farGib f.dev, farDev := some f.dev } })) ∧
      (∀ ok, n = 2 → (deviceOk far f.dev = false ∨ (far = true ∧ ∃ d, h.memhw.farDev = some d ∧ alike f.dev d = false)) →
        exec (.trainingStep k ok f) s = .next (s.ended (trainFail g k 2))) ∧
      (∀ ok, (ok = false ∨ f.lanes ≠ []) → (n = 2 ∨ (6 ≤ n ∧ n ≤ 10) ∨ (n = 5 ∧ far = true)) →
        exec (.trainingStep k ok f) s = .next (s.ended (trainFail g k n))) ∧
      (∀ ok, (ok = false ∨ f.lanes ≠ []) → (n = 1 ∨ n = 3 ∨ (n = 5 ∧ far = false)) →
        exec (.trainingStep k ok f) s = .next (s.ended (setChan g k { c with step := n, done := false }))) ∧
      (∀ ok, (ok = false ∨ f.lanes ≠ []) → n = 4 →
        exec (.trainingStep k ok f) s = .next (s.ended (recordWrite (setChan g k { c with path := .cold, step := 4 })
          { type := 0x0402, cls := 0, part := 0xFF, arg0 := if far then 3 else 2, arg1 := trainArg k, arg2 := 4 })))) ∧
    (∀ g, h.memhw.training = true → h.memhw.farOpen = false → pkgFenced h = false →
      (∀ k, k ∈ tierUnits h false → (chanAt h k).done = true ∧ (chanAt h k).failed = false) →
      g = advanceTo h (h.start.t0 + (120 + tierMs false ((tierUnits h false).map (chanAt h))) * 1000000) →
      Completes (.tierOpened false) s (fun t => t.hw.memhw.farOpen = true ∧ t.hw.ident = { h.ident with c0Gib := 64 * h.memhw.kGib, c1Gib := 64 * h.memhw.kGib } ∧
        t.hw.tb = g.tb ∧ (∀ k, k ∈ tierUnits h false → (chanAt t.hw k).cached = true) ∧ t.hw.sel = h.sel ∧ t.mem = s.mem)) ∧
    (∀ v, starting h = true → h.start.boot = false → h.memhw.farOpen = true → tierDone h true = true → h.start.checked = true → h.start.fwOk = true →
      h.sel.base = SwState.blank → h.sel.swatches = [] → h.sel.units = [] → h.sel.scrubs = [] → h.edges.flash = [] → s.mem = [] →
      Completes (.bootResources v) s (fun t => t.hw.start.boot = true ∧ (partAt t.hw 0).resetVec = v ∧ (partAt t.hw 0).farKey = (partAt h 0).farKey ∧
        (∀ k, k < 512 → (swGet t.hw k).owner = 0 ∧ (swGet t.hw k).state = SwState.owned) ∧
        (∀ k, 512 ≤ k → swGet t.hw k = { state := .blank }) ∧
        (unitAt t.hw 2 0).owner = 0 ∧ (unitAt t.hw 4 32).owner = 0 ∧ (∀ i, i < 32 → (unitAt t.hw 5 (960 + i)).owner = 0) ∧
        (unitAt t.hw 2 1).owner = 31 ∧ tabGet 0 t.hw.coh.wayOwner 15 = 1 ∧ t.mem = [])) ∧
    (starting h = true → h.start.boot = true → h.start.released = false → pkgFenced h = false →
      exec .coresReleased s = .next (s.ended (startCluster { h with start := { h.start with released := true } } 0))) ∧
    (h.efano.ready = false → h.start.wp = none → h.start.checked = true → h.start.fwOk = true → h.efano.mr = none → h.start.released = true →
      tierDone h true = true → h.keep.latch = 0 → h.start.st = PowerSt.active →
      Completes .ready s (fun t => t.hw.efano.ready = true ∧ t.hw.start.bgScrub = true ∧ t.hw.start.report.length = 128 ∧
        t.hw.start.wakeSeq = h.start.wakeSeq + 1 ∧ t.mem = s.mem)) ∧
    (∀ t, h.efano.ready = false → h.start.wp = none → h.start.checked = true → h.start.fwOk = true → h.efano.mr = some t → h.start.released = true →
      journalOpen h = false → h.efano.agreed = true →
      exec .ready s = .next (s.ended (setReady h))) ∧
    (∀ g, h.arch.running = true → h.start.ownJoin = false → h.start.st = PowerSt.active → h.arch.east.carrier = false → h.arch.west.carrier = false →
      g = advanceTo h (h.start.t0 + 250000000) →
      exec .ownJoinSent s = .next (s.ended { g with arch := { g.arch with joinOk := true }, start := { g.start with ownJoin := true } })) ∧
    (∀ n, h.arch.east.joined = true → h.start.st = PowerSt.active → n < portCount h → (tabGet {} h.arch.links n).st = LinkSt.disabled →
      (tabGet {} h.arch.links n).off = false → h.faults.fences = [] →
      Completes .idurrumTrainingBegins s (fun t => (tabGet {} t.hw.arch.links n).st = LinkSt.training ∧
        t.hw.tb.now = max h.tb.now (h.start.t0 + 600000000) ∧ t.mem = s.mem))

/-- WP, WP_ZEROISED, MR and its triggers, MR_FAIL and KR. For every state: a WP that no CP or WP in course absorbs clears READY, advances
MGMT_EPOCH, ends membership and Bench mode, retires every key and draws partition 0's, ends partitions 1 to 16 and clears every unit, keeps
the Steward queue and the log; a CP or WP in course absorbs a WP and an MR (R169), but a WP after a package fence has cut training short runs and
retrains (chapter 10, When things fall together); WP_ZEROISED 200 ms after the WP began makes every byte
zero and every swatch of regions 0 to 2 FREE, takes the memories out of self-refresh and writes WP_ZEROISED; an MR, however triggered, clears READY, advances MGMT_EPOCH, closes
every session and drops every response and every request that has not committed, and does nothing while one is in course (a lockstep
mismatch is one while the pair's lock stands); MR_FAIL begins another and the third in a row fences the package (R152); a KR returns every
item of keep-alive state to its default, draws a new sealing key, sets KA_LOST and touches nothing else. -/
def Obligations.ResetEventRows : Prop :=
  ∀ (s : State) (h : Hw), h = clearSent s.hw →
    (∀ c, 1 ≤ c → c ≤ 4 → resetting h = false → h.start.st ≠ PowerSt.off →
      exec (.wp c) s = .next (s.ended (wpBegin h c)) ∧
      (wpBegin h c).efano.ready = false ∧ (wpBegin h c).efano.epoch = h.efano.epoch + 1 ∧ (wpBegin h c).start.wp = some h.tb.now ∧
      (wpBegin h c).ident.admitted = false ∧ (wpBegin h c).ident.position = 0 ∧ (wpBegin h c).ident.bench = false ∧
      (wpBegin h c).sel.units = [] ∧ (wpBegin h c).sel.swatches = [] ∧ (wpBegin h c).sel.ranges = [] ∧ (wpBegin h c).sel.base = SwState.blank ∧
      (wpBegin h c).sel.parts = tabPut {} [] 0 { farKey := h.sel.keyCount + 1, nearKey := h.sel.keyCount + 2 } ∧
      (wpBegin h c).eng.slips = [] ∧ (wpBegin h c).harts = [] ∧ (wpBegin h c).sync.knots = [] ∧ (wpBegin h c).sync.ledgers = [] ∧
      (wpBegin h c).locks = [] ∧ (wpBegin h c).keep = h.keep ∧ (wpBegin h c).tb.now = h.tb.now ∧
      (logLost h = false → (wpBegin h c).faults.log = h.faults.log ∧ (wpBegin h c).faults.queues = tabPut {} [] 17 (queueAt h 17)) ∧
      (h.ident.admitted = false → (wpBegin h c).arch.sent = []) ∧
      (∀ n x, tabGet {} (wpBegin h c).edges.ports n = x → x.up = false ∧ x.training = false)) ∧
    (∀ c, resetting h = true → trainCut h = false → exec (.wp c) s = .next (s.withHw h)) ∧
    (∀ c, 1 ≤ c → c ≤ 4 → trainCut h = true → h.start.st ≠ PowerSt.off → exec (.wp c) s = .next (s.ended (wpBegin h c)) ∧
      (wpBegin h c).start.retrain = true ∧ (wpBegin h c).memhw.training = false) ∧
    (∀ t g k j, h.start.wp = some t → h.faults.fences = [] → g = advanceTo h (t + 200000000) →
      k = { g with sel := { g.sel with base := .free, swatches := [] }, start := { g.start with wp := none } } →
      j = recordWrite k { type := 0x0301, cls := 0, part := 0xFF, arg0 := 200000 } →
      exec .wpZeroised s = .next { s with
        hw := stepEnd { j with faults := { j.faults with faultN := true }, memhw := setSelfRefresh j.memhw false }, mem := [] }) ∧
    (h.efano.mr = none → h.efano.ready = true → tabWf {} h.efano.boxes = true →
      exec .mr s = .next (s.ended (mrBegin h)) ∧ (mrBegin h).efano.ready = false ∧ (mrBegin h).efano.epoch = h.efano.epoch + 1 ∧
      (mrBegin h).efano.mr = some h.tb.now ∧ mrBegin h = { h with efano := (mrBegin h).efano } ∧
      (∀ m, m ∈ allMbx → (boxAt (mrBegin h) m).session = 0 ∧ (boxAt (mrBegin h) m).valid = false ∧ (boxAt (mrBegin h) m).queue = [] ∧
        (boxAt (mrBegin h) m).rung = none ∧ (∀ r, r ∈ (boxAt (mrBegin h) m).reqs → (r.begun = true ∨ committedEarly r = true) ∧ r.ended = false))) ∧
    ((h.efano.mr ≠ none ∨ resetting h = true) → exec .mr s = .next (s.withHw h)) ∧
    (h.ident.pairLock = true → exec .lockstepMismatch s = exec .mr s) ∧ exec .craluWatchdog s = exec .mr s ∧
    (∀ t g, h.efano.mr = some t → h.efano.mrFails ≠ 2 → g = restartMgmt (advanceTo h (t + 500000000)) →
      exec .mrFail s = .next (s.ended { g with efano := { g.efano with mrFails := h.efano.mrFails + 1 } }) ∧
      g.efano.ready = false ∧ g.efano.agreed = false ∧ g.efano.epoch = h.efano.epoch + 1 ∧ g.efano.mr = some (max h.tb.now (t + 500000000)) ∧
      (tabWf {} h.efano.boxes = true → ∀ m, m ∈ allMbx →
        (boxAt g m).session = 0 ∧ (boxAt g m).valid = false ∧ (boxAt g m).queue = [] ∧ (boxAt g m).rung = none)) ∧
    (∀ t, h.efano.mr = some t → h.efano.mrFails = 2 → Completes .mrFail s (fun u => pkgFenced u.hw = true ∧
      u.hw.efano.epoch = h.efano.epoch + 1)) ∧
    (∀ g, h.keep.powered = true → g = advanceTo h (h.tb.now + 250000000) →
      exec .kr s = .next (s.ended { g with keep := { keepReset g.keep with powered := true, rtcAt := g.tb.now } }) ∧
      (keepReset g.keep).kaLost = true ∧ (keepReset g.keep).lastWord = 0 ∧ (keepReset g.keep).latch = 0 ∧ (keepReset g.keep).rtcValid = false ∧
      (keepReset g.keep).sealKey = h.keep.sealNext)

/-- Idle, Drowse, Dormant and Off: entry, exit and what each loses. For every state: IDLE_ENTRY of an Active, READY package with no work
enters Idle after IDLE_DELAY and returns the loops' integrators to their defaults; DROWSE_ENTRY from a POWER_STATE_SET with every response
acknowledged, or from Idle with Drowse enabled after DROWSE_DELAY, empties caches and mode registers and keeps bobbins and scratch;
EXIT_TRIGGER leaves Idle with no report and Drowse with a wake report; DORMANT_ENTRY that was asked for, with no work in flight and nothing
SCRUBBING or HELD, seals the image under the current sealing key, empties the caches, clears scratch and keeps every byte of regions other
than 2 outside the swatches that the sealed image takes (whose bytes are free values, log entry 65), and with something SCRUBBING or HELD
refuses the request that asked; DORMANT_EXIT (not by traffic, which ends no Dormant) whose memories retrain and whose image verifies under
the same sealing key returns to Active with a report and READY, and any other becomes a WP with cause IMAGE_LOST; PWR_GOOD_FALL keeps nothing outside the keep-alive domain. -/
def Obligations.LowPowerRows : Prop :=
  ∀ (s : State) (h : Hw), h = clearSent s.hw →
    (∀ w g, h.start.st = PowerSt.active → h.efano.ready = true → enginesBusy h = false →
      (w = true ∨ ∀ n, n < 128 → (hartAt h n).run ≠ HartRun.running) → g = loopDefaults (advanceTo (noteThrottle h) (h.tb.now + h.start.idleUs * 1000)) →
      exec (.idleEntry w) s = .next (s.ended { g with start := { g.start with st := .idle, since := g.tb.now } })) ∧
    (∀ k x, k = dropForSleep h → (h.start.st = PowerSt.active ∨ h.start.st = PowerSt.idle) → h.start.drowseReq = true → unacked h = false →
      enginesBusy h = false → x = { k.start with st := .drowse, since := k.tb.now, entryTb := k.tb.now, drowseReq := false } →
      exec .drowseEntry s = .next (s.ended { k with start := x })) ∧
    (∀ k x, k = dropForSleep (advanceTo h (h.start.since + h.start.drowseMs * 1000000)) → h.start.st = PowerSt.idle → h.start.drowseOn = true →
      h.start.drowseReq = false → enginesBusy h = false →
      x = { k.start with st := .drowse, since := k.tb.now, entryTb := k.tb.now, drowseReq := false } →
      exec .drowseEntry s = .next (s.ended { k with start := x })) ∧
    (∀ b, h.start.st = PowerSt.idle →
      exec (.exitTrigger b) s = .next (s.ended { h with start := { h.start with st := .active, since := h.tb.now } })) ∧
    (∀ b, h.start.st = PowerSt.drowse → exec (.exitTrigger b) s = .next (s.ended (writeReport
      { h with start := { h.start with st := .active, since := h.tb.now } } 3 (wakeCode b) h.start.entryTb 0))) ∧
    (h.start.dormReq = true → h.start.st = PowerSt.active → workLeft h = false → anyHeld h = false →
      Completes .dormantEntry s (fun t => t.hw.start.st = PowerSt.dormant ∧ t.hw.start.image = some h.keep.sealKey ∧ t.hw.start.dormReq = false ∧
        t.hw.start.entryTb = h.tb.now ∧ t.hw.coh.caches = [] ∧ t.hw.memhw.selfRefresh = true ∧
        (∀ a, regionOf a = 2 → memByte t.mem a = 0) ∧
        (∀ a, regionOf a ≠ 2 → a / 2 ^ 21 ∉ imageSwatches h → memByte t.mem a = memByte s.mem a) ∧
        t.hw.keep = h.keep ∧ t.hw.sel.units = h.sel.units ∧ t.hw.faults.fences = h.faults.fences)) ∧
    (h.start.dormReq = true → h.start.st = PowerSt.active → workLeft h = false → anyHeld h = true →
      exec .dormantEntry s = .next (s.ended (endWaits { h with start := { h.start with dormReq := false } }
        (fun r => decide (r.wait = Wait.dormant)) 0x20 0))) ∧
    (∀ b w, h.start.st = PowerSt.dormant → b ≠ WakeBy.traffic → w.image = true → w.fails = [] → h.start.image = some h.keep.sealKey →
      Completes (.dormantExit b w) s (fun t => t.hw.start.st = PowerSt.active ∧ t.hw.start.image = none ∧
        t.hw.memhw.selfRefresh = pkgFenced h ∧ t.hw.memhw.nearOpen = h.memhw.nearOpen ∧ t.hw.memhw.farOpen = h.memhw.farOpen ∧
        t.hw.efano.ready = true ∧ t.hw.start.wakeSeq = h.start.wakeSeq + 1 ∧ t.hw.start.report.length = 128 ∧ t.mem = s.mem)) ∧
    (∀ b w g, h.start.st = PowerSt.dormant → b ≠ WakeBy.traffic → (w.image = false ∨ h.start.image ≠ some h.keep.sealKey) →
      g = wakeTrain { h with memhw := setSelfRefresh h.memhw (pkgFenced h) } w.fails →
      exec (.dormantExit b w) s = .next (s.ended (wpBegin { g with start := { g.start with st := .active, image := none } } 4))) ∧
    (∀ b w g, h.start.st = PowerSt.dormant → b ≠ WakeBy.traffic →
      g = wakeTrain { h with memhw := setSelfRefresh h.memhw (pkgFenced h) } w.fails →
      (g.memhw.nearOpen ≠ h.memhw.nearOpen ∨ g.memhw.farOpen ≠ h.memhw.farOpen) →
      exec (.dormantExit b w) s = .next (s.ended (wpBegin { g with start := { g.start with st := .active, image := none } } 4))) ∧
    (∀ w, exec (.dormantExit .traffic w) s = .next (s.ended h)) ∧
    Completes .pwrGoodFall s (fun t => t.mem = [] ∧ ∃ k : Hw, k = coldStart h 1 ∧ t.hw = { k with start := { k.start with st := .off, since := k.tb.now } })

/-- HART_LOAD, HART_STORE and HART_FETCH: data, store buffer, and precise access faults. For every state and access of a running hart none of
whose parts has to wait (o: after what precedes it, the stores that leave the buffer): a load of the coherent space that meets no condition
returns each byte from the youngest buffered store to it, else from the coherent space, having touched the caches, with the prefetches it
brings; one through an uncached page reads each line once from its home; a load of register space returns what the register reads; a load of
another I/O space, or of another package, returns what is answered (a free value, log entries 7 and 46); a cache-block prefetch in I/O
space is ignored and a cache-block management there faults; a store to the coherent space that meets no condition enters the store buffer;
through an uncached page marked so, and through an IO page performed at once; a cbo.zero below M-mode that no enable allows is illegal; a store
to register space goes through the register, one to the apertures of a live port leaves the package, one to those of a dead port is
recorded (R645), and one to the I/O space of another package is written there; a fetch that meets none fills
the caches, or through an uncached page reads its lines once, and is illegal where its instruction belongs to an omitted extension; an access that meets a condition takes the access fault of
its kind, precise, with the destination unchanged (R209), and the qualifier and line address of the mode that takes it are written, with
that mode's cause, value and pc registers (Table 6.6: OVF is what VALID was); requester ownership comes first, then PMP, then the selvedge
(Table 3.4); a hart of a Fenced cluster whose NMIE is 0 parks on its fetch (R207). An access that has to wait has no effect but the requests
it leaves (log entry 60). What RISC-V gives beyond chapter 6 is log entry 82. -/
def Obligations.HartAccessRows : Prop :=
  ∀ (s : State) (h : Hw) (a : HartAccess) (l : Nat), h = clearSent s.hw → runs h a.hart = true → l = compactLocal a.ca →
    (∀ o g k, o = beforeAccess (h, s.mem) a → a.cbo = .none → a.pbmt = .pma → g = arrayAnswers o.1 a → inIo l = false → isLocal g a.ca = true →
      meets o.1 a .load false true = none →
      k = a.ahead.foldl (fun k x => prefetch k a.hart l x)
        ((linesOf l a.size).foldl (fun k x => touchCore k a.hart x false false a.ca) (addTraffic (retryStall g l) (hartOwner g a.hart) a.size)) →
      ((∀ x, x ∈ linesOf l a.size → poisoned k (x * 64) = false) → NoWait k →
        exec (.hartLoad a) s = .next (s.routed (setResult k a.hart (loadBytes (k, o.2) a.hart a.ca a.size), o.2))) ∧
      (∀ x f, (linesOf l a.size).find? (fun x => poisoned k (x * 64)) = some x →
        f = hartFault k a .load (2, sourceOf l, a.ca - l % 2 ^ 44 + max l (x * 64) % 2 ^ 44) → NoWait f →
        exec (.hartLoad a) s = .next (s.routed (f, o.2)))) ∧
    (∀ o r, o = beforeAccess (h, s.mem) a → a.cbo = .none → a.pbmt ≠ .pma → inIo l = false → meets o.1 a .load false true = none →
      r = readUncached (arrayAnswers o.1 a, o.2) a.hart a.ca a.size → NoWait r.2 →
      exec (.hartLoad a) s = .next (s.routed (setResult r.2 a.hart r.1, o.2))) ∧
    (∀ o g, o = beforeAccess (h, s.mem) a → a.cbo = .none → g = arrayAnswers o.1 a → regionOf l = 3 → isLocal g a.ca = true →
      meets o.1 a .load false true = none →
      (∀ v, (offsetOf l % 2 ^ 24 ≠ 0x6008 ∨ stewardBase ≤ offsetOf l ∨ invalidated g (offsetOf l / 2 ^ 24) = true) → NoWait g →
        region3Read g (offsetOf l) a.size = some v →
        exec (.hartLoad a) s = .next (s.routed (setResult g a.hart (leBytes a.size v), o.2))) ∧
      (∀ f, (offsetOf l % 2 ^ 24 ≠ 0x6008 ∨ stewardBase ≤ offsetOf l ∨ invalidated g (offsetOf l / 2 ^ 24) = true) →
        region3Read g (offsetOf l) a.size = none → f = accessFault g a 5 1 2 0xC a.ca → NoWait f →
        exec (.hartLoad a) s = .next (s.routed (f, o.2))) ∧
      (offsetOf l % 2 ^ 24 = 0x6008 → offsetOf l < stewardBase → invalidated g (offsetOf l / 2 ^ 24) = false → NoWait o.1 →
        exec (.hartLoad a) s = .next (s.routed o))) ∧
    (∀ o g r, o = beforeAccess (h, s.mem) a → a.cbo = .none → g = arrayAnswers o.1 a → regionOf l ∈ [4, 5] → isLocal g a.ca = true →
      meets o.1 a .load false true = none → r = takeRemote (retryStall g l) a.ca a.size → NoWait r.2 →
      exec (.hartLoad a) s = .next (s.routed (setResult r.2 a.hart r.1, o.2))) ∧
    (∀ o g r, o = beforeAccess (h, s.mem) a → a.cbo = .none → (a.pbmt = .pma ∨ inIo l = true) → g = arrayAnswers o.1 a → isLocal g a.ca = false →
      meets o.1 a .load false true = none → r = readAfar g a.hart a.ca a.size → NoWait r.2 →
      exec (.hartLoad a) s = .next (s.routed (setResult r.2 a.hart r.1, o.2))) ∧
    (∀ o e g, o = beforeAccess (h, s.mem) a → a.cbo = .none → meets o.1 a .load false true = some e → g = hartFault o.1 a .load e → NoWait g →
      exec (.hartLoad a) s = .next (s.routed (g, o.2)) ∧
      (hartAt g a.hart).result = (hartAt o.1 a.hart).result ∧
      (hartAt g a.hart).trap =
        some { cause := 5, tval := a.va, mode := trapMode (hartAt o.1 a.hart) 5, epc := (hartAt o.1 a.hart).pc }) ∧
    (a.cbo ∈ [.prefetchR, .prefetchW, .prefetchI] → inIo l = true → exec (.hartLoad a) s = .next (s.ended h)) ∧
    (∀ o b, a.cbo ∈ [.clean, .flush, .inval] → inIo l = true → (hartAt h a.hart).mode = 3 → o = drainBuffer (h, s.mem) a.hart →
      hartOwner o.1 a.hart ≤ 16 → unitFenced o.1 2 (a.hart / 8) = false → b = { a with ca := a.ca / 64 * 64, size := 64 } →
      NoWait (accessFault o.1 b 7 2 7 0 b.ca) →
      exec (.hartLoad a) s = .next (s.routed (accessFault o.1 b 7 2 7 0 b.ca, o.2))) ∧
    (∀ bs o g w, bs.length = a.size → inIo l = false → o = beforeStore (h, s.mem) a →
      (a.size ≤ 8 ∨ cboGate (hartAt o.1 a.hart) .none true = none) → meets o.1 a (storeOp a) true false = none →
      g = addTraffic (evictAnswer o.1 a) (hartOwner o.1 a.hart) a.size →
      w = (setHart g a.hart { hartAt g a.hart with
        sb := (hartAt g a.hart).sb ++ [{ addr := a.ca, bytes := bs, io := decide (a.pbmt ≠ .pma) }] }, o.2) →
      (a.pbmt ≠ .io → NoWait w.1 → exec (.hartStore a bs) s = .next (s.routed w)) ∧
      (a.pbmt = .io → NoWait (drainBuffer w a.hart).1 → exec (.hartStore a bs) s = .next (s.routed (drainBuffer w a.hart)))) ∧
    (∀ bs o c, bs.length = a.size → 8 < a.size → o = beforeStore (h, s.mem) a → cboGate (hartAt o.1 a.hart) .none true = some c → NoWait o.1 →
      exec (.hartStore a bs) s = .next (s.routed (takeTrap o.1 a.hart c 0, o.2))) ∧
    (∀ bs o w, bs.length = a.size → o = beforeStore (h, s.mem) a → inIo l = true → isLocal o.1 a.ca = false → a.size ≤ 8 →
      meets o.1 a .store true false = none → w = tagWrites (remoteWrite o.1 (hartOwner o.1 a.hart) a.ca bs false) (.hart a.hart) → NoWait w →
      exec (.hartStore a bs) s = .next (s.routed (w, o.2))) ∧
    (∀ bs o w, bs.length = a.size → o = beforeStore (h, s.mem) a → regionOf l = 3 → isLocal o.1 a.ca = true → a.size ≤ 8 →
      meets o.1 a .store true false = none → w = region3Store o (offsetOf l) a.size (leNat bs) → NoWait w.1 →
      exec (.hartStore a bs) s = .next (s.routed w)) ∧
    (∀ bs o w, bs.length = a.size → o = beforeStore (h, s.mem) a → regionOf l ∈ [4, 5] → isLocal o.1 a.ca = true → a.size ≤ 8 →
      meets o.1 a .store true false = none → w = (if portDead o.1 l then devError o.1 l 3 else retryStall o.1 l) → NoWait w →
      exec (.hartStore a bs) s = .next (s.routed (w, o.2))) ∧
    (∀ bs e o g, bs.length = a.size → o = beforeStore (h, s.mem) a → (a.size ≤ 8 ∨ cboGate (hartAt o.1 a.hart) .none true = none) →
      meets o.1 a (storeOp a) true false = some e → g = hartFault o.1 a (storeOp a) e → NoWait g →
      exec (.hartStore a bs) s = .next (s.routed (g, o.2))) ∧
    (∀ g, g = setHart h a.hart { xret (hartAt h a.hart) a.ret with pc := a.va } → unitFenced h 2 (a.hart / 8) = true →
      (hartAt h a.hart).nmie = false →
      exec (.hartFetch a) s = .next (s.ended (setHart g a.hart { hartAt g a.hart with run := .parked }))) ∧
    (∀ f g k, f = setHart h a.hart { xret (hartAt h a.hart) a.ret with pc := a.va } →
      (unitFenced h 2 (a.hart / 8) = false ∨ (hartAt h a.hart).nmie = true) →
      meets f a .fetch false true = none → g = arrayAnswers f a →
      k = (if a.pbmt ≠ .pma then (readUncached (g, s.mem) a.hart a.ca a.size).2
        else if isLocal g a.ca then
          (linesOf l a.size).foldl (fun k x => touchCore k a.hart x true false a.ca) (addTraffic (retryStall g l) (hartOwner g a.hart) a.size)
        else touchAll g a.hart a.ca a.size true false) →
      ((isLocal k a.ca = true → ∀ x, x ∈ linesOf l a.size → poisoned k (x * 64) = false) → NoWait k →
        exec (.hartFetch a) s = .next (s.ended (if a.omitted then takeTrap k a.hart 2 0 else k))) ∧
      (∀ x e, isLocal k a.ca = true → (linesOf l a.size).find? (fun x => poisoned k (x * 64)) = some x →
        e = hartFault k a .fetch (2, sourceOf l, a.ca - l % 2 ^ 44 + max l (x * 64) % 2 ^ 44) → NoWait e →
        exec (.hartFetch a) s = .next (s.ended e))) ∧
    (∀ g e, g = setHart h a.hart { xret (hartAt h a.hart) a.ret with pc := a.va } →
      (unitFenced h 2 (a.hart / 8) = false ∨ (hartAt h a.hart).nmie = true) →
      meets g a .fetch false true = some e → NoWait (hartFault g a .fetch e) →
      exec (.hartFetch a) s = .next (s.ended (hartFault g a .fetch e))) ∧
    (∀ o bs, (o = hartLoad (h, s.mem) a → ¬ NoWait o.1 → exec (.hartLoad a) s = .next (s.ended (o.1.coh.stalls.foldl leaveStall h))) ∧
      (o = hartStore (h, s.mem) a bs → ¬ NoWait o.1 → exec (.hartStore a bs) s = .next (s.ended (o.1.coh.stalls.foldl leaveStall h))) ∧
      (o = hartFetch (h, s.mem) a → ¬ NoWait o.1 → exec (.hartFetch a) s = .next (s.ended (o.1.coh.stalls.foldl leaveStall h)))) ∧
    (∀ op w rd, (hartOwner h a.hart > 16 ∨ unitFenced h 2 (a.hart / 8) = true) → meets h a op w rd = some (3, 0, a.ca)) ∧
    (∀ op w rd, 0 < a.size → hartOwner h a.hart ≤ 16 → unitFenced h 2 (a.hart / 8) = false → pmpOk h a op w rd a.ca = false →
      meets h a op w rd = some (7, 0, a.ca)) ∧
    (∀ op w rd x, isLocal h a.ca = true → hartOwner h a.hart ≤ 16 → unitFenced h 2 (a.hart / 8) = false →
      (∀ y, y ∈ blocks l a.size → pmpOk h a op w rd (a.ca - l % 2 ^ 44 + y % 2 ^ 44) = true ∧ pmaOk op (regionOf y) l a.size = true) →
      (blocks l a.size).find? (fun x => !selPiece h (hartOwner h a.hart) x w) = some x →
      meets h a op w rd = some (3, 0, a.ca - l % 2 ^ 44 + x % 2 ^ 44)) ∧
    (∀ xc acc c src ca x y b, x = hartAt h a.hart → tabWf 0 x.csrs = true → acc < 4 → src < 16 → c < 256 → a.implicit = false →
      y = hartAt (accessFault h a xc acc c src ca) a.hart → b = trapBase (trapMode x xc) →
      y.trap = some { cause := xc, tval := a.va, mode := trapMode x xc, epc := x.pc } ∧
      csrOf y (b + 0x41) = x.pc % 2 ^ 64 ∧ csrOf y (b + 0x42) = xc % 2 ^ 64 ∧ csrOf y (b + 0x43) = a.va % 2 ^ 64 ∧
      (trapMode x xc = .m → y.mHwErr = qualifier x.mHwErr acc src c ∧ y.mHwAddr = w64 (ca % 2 ^ 56 / 64 * 64) ∧ y.mode = 3 ∧ y.virt = false ∧
        y.hsHwErr = x.hsHwErr ∧ y.vsHwErr = x.vsHwErr ∧
        y.pc = (if !x.nmie && decide (x.mode = 3) then (partAt h (hartOwner h a.hart)).rnmiExc else csrOf x 0x305 / 4 * 4)) ∧
      (trapMode x xc = .hs → y.hsHwErr = qualifier x.hsHwErr acc src c ∧ y.hsHwAddr = w64 (ca % 2 ^ 56 / 64 * 64) ∧ y.mode = 1 ∧
        y.virt = false ∧ y.mHwErr = x.mHwErr ∧ y.vsHwErr = x.vsHwErr ∧ y.pc = csrOf x 0x105 / 4 * 4) ∧
      (trapMode x xc = .vs → a.gpa = none → y.vsHwErr = qualifier x.vsHwErr acc src c ∧ y.vsHwAddr = w64 (ca % 2 ^ 56 / 64 * 64) ∧
        y.mode = 1 ∧ y.virt = true ∧ y.mHwErr = x.mHwErr ∧ y.hsHwErr = x.hsHwErr ∧ y.pc = csrOf x 0x205 / 4 * 4))

/-- AMO, LR, SC and the reservation's time limit. For every state and access of a running hart: an AMO that does not lie in one aligned
16-byte block, and an LR or SC that is not naturally aligned, takes the address-misaligned exception of its kind and writes no qualifier;
an AMO that finds a buffered store lost takes its fault; an AMO of a local line that meets no condition and does not have to wait first
drains the store buffer, then writes the operation's result over the old value at its home or in its L1D and returns the old value; an AMO
of a line of another package that its core holds exclusively runs there, and any other of another package is asked for at its home; an LR
drains the buffer, returns the line's bytes and reserves the line, local or of another package, and of I/O space takes the access fault of
Table 6.3; an SC whose reservation stands performs its store, answers zero and ends the reservation, and one whose reservation does not
stand answers one and stores nothing; an AMO, LR or SC that meets a condition takes its access fault, an SC ending the reservation;
RESERVATION_TIMEOUT of a hart with no delayed snoop, where no line waits for nothing, changes nothing,
and of one with a delayed snoop ends the reservation. -/
def Obligations.HartAtomicRows : Prop :=
  ∀ (s : State) (h : Hw) (a : HartAccess) (l : Nat), h = clearSent s.hw → runs h a.hart = true → l = compactLocal a.ca →
    (∀ op v c, within16 a.ca a.size = false → exec (.amo a op v c) s = .next (s.ended (takeTrap h a.hart 6 a.va))) ∧
    (a.ca % max 1 a.size ≠ 0 → exec (.lr a) s = .next (s.ended (takeTrap h a.hart 4 a.va))) ∧
    (∀ bs, bs.length = a.size → a.ca % max 1 a.size ≠ 0 → exec (.sc a bs) s = .next (s.ended (takeTrap h a.hart 6 a.va))) ∧
    (∀ c t x y, x = hartAt h a.hart → y = hartAt (takeTrap h a.hart c t) a.hart →
      y.trap = some { cause := c, tval := t, mode := trapMode x c, epc := x.pc } ∧ y.mHwErr = x.mHwErr ∧ y.hsHwErr = x.hsHwErr ∧
      y.vsHwErr = x.vsHwErr ∧ y.result = x.result ∧ y.sb = x.sb ∧ y.resv = x.resv) ∧
    (∀ o op v c e, o = drainBuffer (h, s.mem) a.hart → within16 a.ca a.size = true → (hartAt o.1 a.hart).sbBad = some e →
      NoWait (lostStore o.1 a.hart a.va e) → exec (.amo a op v c) s = .next (s.routed (lostStore o.1 a.hart a.va e, o.2))) ∧
    (∀ o g k w op v c old, o = drainBuffer (h, s.mem) a.hart → within16 a.ca a.size = true → (hartAt o.1 a.hart).sbBad = none →
      meets o.1 a .atomic true true = none → g = arrayAnswers o.1 a → isLocal g a.ca = true →
      poisoned (loseFenced g (lineOf l) { kind := .atomicHome, agent := .l3 (a.hart / 8) }) l = false →
      k = placeAtomic (addTraffic g (hartOwner g a.hart) a.size) o.2 a.hart (lineOf l) → NoWait k → old = leNat (cohRead k o.2 l a.size) →
      w = cohWrite (k, o.2) l (leBytes a.size (amoNew op a.size old v c)) →
      exec (.amo a op v c) s = .next (s.routed (setResult (dropResv w.1 (lineOf l) (some a.hart)) a.hart (leBytes a.size old), w.2))) ∧
    (∀ o g f op v c, o = drainBuffer (h, s.mem) a.hart → within16 a.ca a.size = true → (hartAt o.1 a.hart).sbBad = none →
      meets o.1 a .atomic true true = none → isLocal (arrayAnswers o.1 a) a.ca = true →
      g = loseFenced (arrayAnswers o.1 a) (lineOf l) { kind := .atomicHome, agent := .l3 (a.hart / 8) } → poisoned g l = true →
      f = hartFault g a .atomic (2, sourceOf l, a.ca) → NoWait f → exec (.amo a op v c) s = .next (s.routed (f, o.2))) ∧
    (∀ o g op v c old, o = drainBuffer (h, s.mem) a.hart → within16 a.ca a.size = true → (hartAt o.1 a.hart).sbBad = none →
      meets o.1 a .atomic true true = none → g = arrayAnswers o.1 a → isLocal g a.ca = false → NoWait g →
      exclusiveAfar g a.hart (a.ca / 64) = true → old = leNat ((List.range a.size).map (fun i => proxyByte g (a.ca + i))) →
      exec (.amo a op v c) s = .next (s.routed
        (setResult (proxyWrite g a.ca (leBytes a.size (amoNew op a.size old v c))) a.hart (leBytes a.size old), o.2))) ∧
    (∀ o g op v c r, o = drainBuffer (h, s.mem) a.hart → within16 a.ca a.size = true → (hartAt o.1 a.hart).sbBad = none →
      meets o.1 a .atomic true true = none → g = arrayAnswers o.1 a → isLocal g a.ca = false → exclusiveAfar g a.hart (a.ca / 64) = false →
      r = atomicAfar g (hartOwner g a.hart) 7 a.ca a.size v c (amoCode op) → NoWait r.2 →
      exec (.amo a op v c) s = .next (s.routed (setResult r.2 a.hart r.1, o.2))) ∧
    (∀ o op v c e, o = drainBuffer (h, s.mem) a.hart → within16 a.ca a.size = true → (hartAt o.1 a.hart).sbBad = none →
      meets o.1 a .atomic true true = some e → NoWait (hartFault o.1 a .atomic e) →
      exec (.amo a op v c) s = .next (s.routed (hartFault o.1 a .atomic e, o.2))) ∧
    (∀ o g k, o = drainBuffer (h, s.mem) a.hart → a.ca % max 1 a.size = 0 → inIo l = false →
      isLocal o.1 a.ca = true → meets o.1 a .load false true = none → g = arrayAnswers o.1 a →
      k = touchCore (retryStall g l) a.hart (lineOf l) false true a.ca →
      (∀ j, NoWait k → poisoned k l = false → j = setResult k a.hart (cohRead k o.2 l a.size) →
        exec (.lr a) s = .next (s.routed (setHart j a.hart { hartAt j a.hart with resv := some (lineOf l), resvHeld := false }, o.2))) ∧
      (∀ f, poisoned k l = true → f = hartFault k a .load (2, sourceOf l, a.ca) → NoWait f →
        exec (.lr a) s = .next (s.routed (f, o.2)))) ∧
    (∀ o e, o = drainBuffer (h, s.mem) a.hart → a.ca % max 1 a.size = 0 → inIo l = false → meets o.1 a .load false true = some e →
      NoWait (hartFault o.1 a .load e) → exec (.lr a) s = .next (s.routed (hartFault o.1 a .load e, o.2))) ∧
    (∀ bs o e f, bs.length = a.size → o = drainBuffer (h, s.mem) a.hart → a.ca % max 1 a.size = 0 → meets o.1 a .atomic true false = some e →
      f = hartFault (endResv o a.hart).1 a .atomic e → NoWait f →
      exec (.sc a bs) s = .next (s.routed (f, (endResv o a.hart).2))) ∧
    (∀ o k j, o = drainBuffer (h, s.mem) a.hart → a.ca % max 1 a.size = 0 → inIo l = false → isLocal o.1 a.ca = false →
      meets o.1 a .load false true = none →
      k = touchRemote o.1 a.hart (lineStatus o.1 (hartOwner o.1 a.hart) (a.ca / 64)) (a.ca / 64) false true → NoWait k →
      j = setResult k a.hart ((List.range a.size).map (fun i => proxyByte k (a.ca + i))) →
      exec (.lr a) s = .next (s.routed (setHart j a.hart { hartAt j a.hart with resv := some (2 ^ 54 + a.ca / 64) }, o.2))) ∧
    (∀ o, o = drainBuffer (h, s.mem) a.hart → a.ca % max 1 a.size = 0 → inIo l = true → NoWait (hartFault o.1 a .load (7, 0, a.ca)) →
      exec (.lr a) s = .next (s.routed (hartFault o.1 a .load (7, 0, a.ca), o.2))) ∧
    (∀ bs o w e, bs.length = a.size → o = drainBuffer (h, s.mem) a.hart → a.ca % max 1 a.size = 0 → isLocal o.1 a.ca = true →
      meets o.1 a .atomic true false = none → (hartAt o.1 a.hart).resv = some (lineOf l) →
      w = cohWrite (placeAtomic o.1 o.2 a.hart (lineOf l), o.2) l bs →
      e = endResv (dropResv w.1 (lineOf l) (some a.hart), w.2) a.hart → NoWait e.1 →
      exec (.sc a bs) s = .next (s.routed (setResult e.1 a.hart (leBytes 8 0), e.2))) ∧
    (∀ bs o w e, bs.length = a.size → o = drainBuffer (h, s.mem) a.hart → a.ca % max 1 a.size = 0 → isLocal o.1 a.ca = false →
      meets o.1 a .atomic true false = none → (hartAt o.1 a.hart).resv = some (2 ^ 54 + a.ca / 64) →
      w = (if exclusiveAfar o.1 a.hart (a.ca / 64) then proxyWrite o.1 a.ca bs
        else (atomicAfar o.1 (hartOwner o.1 a.hart) 7 a.ca a.size (leNat bs) 0 5).2) →
      e = endResv (w, o.2) a.hart → NoWait e.1 →
      exec (.sc a bs) s = .next (s.routed (setResult e.1 a.hart (leBytes 8 0), e.2))) ∧
    (∀ bs o e, bs.length = a.size → o = drainBuffer (h, s.mem) a.hart → a.ca % max 1 a.size = 0 → meets o.1 a .atomic true false = none →
      (hartAt o.1 a.hart).resv ≠ some (if isLocal o.1 a.ca then lineOf l else 2 ^ 54 + a.ca / 64) → e = endResv o a.hart → NoWait e.1 →
      exec (.sc a bs) s = .next (s.routed (setResult e.1 a.hart (leBytes 8 1), e.2))) ∧
    (∀ n, (hartAt h n).resvHeld = false → idleLines h = [] → exec (.reservationTimeout n) s = .next (s.withHw h)) ∧
    (∀ n k, (hartAt h n).resv = some k → k < 2 ^ 54 → (hartAt h n).resvHeld = true → idleLines h = [] → (dirAt h k).queue = [] →
      tabWf {} h.coh.dir = true → tabWf {} h.harts = true →
      Completes (.reservationTimeout n) s (fun t => (hartAt t.hw n).resv = none ∧ t.mem = s.mem))

/-- FENCE, YCFENCE, STOP, YMHARTSTART, MNRET, KNT_VALUE and SLP_XINV_SYNC. For every state: a FENCE of a running hart drains its store buffer,
if no store of it has to wait, and with I or O in its predecessor set waits for its I/O stores; where a store of it was lost it takes that
store's fault; a YCFENCE with PRED or SUCC zero orders nothing, one with I or O in either acts as FENCE, any other with W in PRED drains the
buffer, and one without changes nothing; STOP in M-mode drains the buffer, ends the reservation and stops the hart, and in another mode is
an illegal instruction; a YMHARTSTART by M-mode software of the target's own partition starts a stopped hart in M-mode at its YMSTARTPC,
or, in a gated cluster, wakes the cluster first, in one that closes or wakes waits for it, and one that names the writer, a hart that is not stopped or another partition's is
ignored; outside M-mode it and MNRET are illegal instructions; MNRET of a hart whose scope is not Fenced returns to what the RNMI interrupted with NMIE set, and of a parked hart of a Fenced
cluster changes nothing; KNT_VALUE returns the VALUE of a knot the partition owns, after the hart's stores, and of a poisoned knot takes
the load access fault; SLP_XINV_SYNC returns zero once every earlier invalidation of the hart's partition has completed, and waits until then. -/
def Obligations.HartControlRows : Prop :=
  ∀ (s : State) (h : Hw) (n : Nat), h = clearSent s.hw →
    (∀ va sets o g, runs h n = true → o = drainBuffer (h, s.mem) n → (hartAt o.1 n).sbBad = none →
      g = (if bitOf sets 7 || bitOf sets 6 then ioOrder o.1 n else o.1) → NoWait g →
      exec (.fence n va sets) s = .next (s.routed (g, o.2))) ∧
    (∀ va sets o e, runs h n = true → o = drainBuffer (h, s.mem) n → (hartAt o.1 n).sbBad = some e → NoWait (lostStore o.1 n va e) →
      exec (.fence n va sets) s = .next (s.routed (lostStore o.1 n va e, o.2))) ∧
    (∀ v va, runs h n = true → (field v 7 4 = 0 ∨ field v 3 0 = 0) → exec (.ycfence { hart := n, va := va } v) s = .next (s.ended h)) ∧
    (∀ v va, runs h n = true → field v 7 4 ≠ 0 → field v 3 0 ≠ 0 → (bitOf v 7 || bitOf v 6 || bitOf v 3 || bitOf v 2) = true →
      exec (.ycfence { hart := n, va := va } v) s = exec (.fence n va v) s) ∧
    (∀ v va o, runs h n = true → o = drainBuffer (h, s.mem) n → field v 7 4 ≠ 0 → field v 3 0 ≠ 0 →
      (bitOf v 7 || bitOf v 6 || bitOf v 3 || bitOf v 2) = false →
      (bitOf v 4 = true → (hartAt o.1 n).sbBad = none → NoWait o.1 →
        exec (.ycfence { hart := n, va := va } v) s = .next (s.routed o)) ∧
      (∀ e, bitOf v 4 = true → (hartAt o.1 n).sbBad = some e → NoWait (lostStore o.1 n va e) →
        exec (.ycfence { hart := n, va := va } v) s = .next (s.routed (lostStore o.1 n va e, o.2))) ∧
      (bitOf v 4 = false → exec (.ycfence { hart := n, va := va } v) s = .next (s.ended h))) ∧
    (∀ o, runs h n = true → (hartAt h n).mode = 3 → o = endResv (drainBuffer (h, s.mem) n) n → NoWait o.1 →
      exec (.stop n) s = .next (s.routed (setHart o.1 n { hartAt o.1 n with run := .stopped }, o.2))) ∧
    (runs h n = true → (hartAt h n).mode ≠ 3 → exec (.stop n) s = .next (s.ended (takeTrap h n 2 0))) ∧
    (∀ k, runs h n = true → (hartAt h n).mode = 3 → k < 128 → k ≠ n → hartOwner h k = hartOwner h n → (hartAt h k).run = HartRun.stopped →
      (islandAt h { kind := .cluster, idx := k / 8 }).power = .open → (hartAt h k).rnmi = [] →
      exec (.ymhartstart n k) s = .next (s.ended (setHart h k
        { hartAt h k with run := .running, mode := 3, virt := false, pc := (hartAt h k).startPc.toNat, startReq := false }))) ∧
    (∀ k, runs h n = true → (hartAt h n).mode = 3 →
      (128 ≤ k ∨ k = n ∨ hartOwner h k ≠ hartOwner h n ∨ (hartAt h k).run ≠ HartRun.stopped) →
      exec (.ymhartstart n k) s = .next (s.ended h)) ∧
    (∀ k, runs h n = true → (hartAt h n).mode = 3 → k < 128 → k ≠ n → hartOwner h k = hartOwner h n → (hartAt h k).run = HartRun.stopped →
      (islandAt h { kind := .cluster, idx := k / 8 }).power = .gated →
      Completes (.ymhartstart n k) s (fun t => (hartAt t.hw k).run = HartRun.stopped ∧ (hartAt t.hw k).startReq = true ∧
        (islandAt t.hw { kind := .cluster, idx := k / 8 }).power = .waking h.tb.now ∧ t.mem = s.mem)) ∧
    (∀ k, runs h n = true → (hartAt h n).mode = 3 → k < 128 → k ≠ n → hartOwner h k = hartOwner h n → (hartAt h k).run = HartRun.stopped →
      (islandAt h { kind := .cluster, idx := k / 8 }).power ≠ .open → (islandAt h { kind := .cluster, idx := k / 8 }).power ≠ .gated →
      exec (.ymhartstart n k) s = .next (s.ended (setHart h k { hartAt h k with startReq := true }))) ∧
    (∀ k, runs h n = true → (hartAt h n).mode ≠ 3 → exec (.ymhartstart n k) s = .next (s.ended (takeTrap h n 2 0))) ∧
    (n < 128 → (hartAt h n).run = HartRun.running → (hartAt h n).mode ≠ 3 → exec (.mnret n) s = .next (s.ended (takeTrap h n 2 0))) ∧
    (∀ x, x = hartAt h n → n < 128 → (x.run = HartRun.running ∨ (x.run = HartRun.parked ∧ unitFenced h 2 (n / 8) = false)) → x.mode = 3 →
      x.rnmi = [] →
      exec (.mnret n) s = .next (s.ended (setHart h n { x with run := .running, pc := x.mnepc, mode := x.mnpp, virt := x.mnpv, nmie := true }))) ∧
    (n < 128 → (hartAt h n).run = HartRun.parked → unitFenced h 2 (n / 8) = true → exec (.mnret n) s = .next (s.ended h)) ∧
    (∀ va k v o g, runs h n = true → hartOwner h n ≤ 16 → o = drainBuffer (h, s.mem) n → g = ioOrder o.1 n → NoWait g →
      windowValue g (hartOwner h n) k = some v →
      exec (.kntValue { hart := n, va := va } k) s = .next (s.routed (setResult g n (leBytes 8 v.toNat), o.2))) ∧
    (∀ va k o g ca e, runs h n = true → hartOwner h n ≤ 16 → o = drainBuffer (h, s.mem) n → g = ioOrder o.1 n →
      windowValue g (hartOwner h n) k = none →
      ca = toCompact g.ident.position (3 * 2 ^ 48 + hartOwner h n * 2 ^ 24 + 0x800000 + 16 * k) →
      e = accessFault g { hart := n, va := va, ca := ca, size := 8 } 5 1 2 0xC ca → NoWait e →
      exec (.kntValue { hart := n, va := va } k) s = .next (s.routed (e, o.2))) ∧
    (∀ o g, n < 128 → hartOwner h n ≤ 16 → invalidated h (hartOwner h n) = true → o = drainBuffer (h, s.mem) n → g = ioOrder o.1 n → NoWait g →
      exec (.slpXinvSync n) s = .next (s.routed (setResult g n (zeros 8), o.2))) ∧
    (invalidated h (hartOwner h n) = false → exec (.slpXinvSync n) s = .next (s.ended h))

/-- The REQ messages of Table 7.7 at a line's home, and a snoop at a caching agent. For every state: each of the eight REQ rows of an agent
that passes the selvedge check at the home, with the partition tag its cluster's owner gives it, is served there as Table 7.7 says; one of a
Fenced agent, or one that does not pass, is refused, and counted where it is of this package; behind a gated island the ghost responder
answers (R76), a closing or waking one holds it by RETRY (R73), a dead port answers poison (R645), and in I/O space only another package's
request is served, uncached (R39); at a line in state I that no reservation or other package holds and no cache waits for: READ_ONCE answers
the line's bytes and leaves the directory; WRITE_LINE puts the 64 bytes and clears poison, WRITE_PART puts the bytes the mask names, and
neither leaves an entry; an atomic of either place answers the old value and writes the new one, and on a poisoned line writes nothing; every
reader's answer carries the poison mark. A snoop of an agent that is neither Fenced nor gated, with no reservation, answers the owner's bytes
with their poison mark, and none of an agent that does not own the line: TO_INVALID takes the copy away, TO_SHARED leaves a shared one, ONCE
leaves everything; a Fenced agent's copy is lost (R249), a gated one's answer is empty (Table 2.5), a closing or waking one's waits (R73), and
a reserved line's waits for the reservation (R239). -/
def Obligations.HomeRows : Prop :=
  ∀ (s : State) (h : Hw) (ag : Agent) (p a : Nat), h = clearSent s.hw →
    (∀ c k g x q w, (c, k, g, x) ∈ ([(.readShared ag p a, .readShared, ag, {}), (.readOwn ag p a, .readOwn, ag, {}),
        (.readOnce ag p a, .readOnce, ag, {})] : List (Instr × ReqKind × Agent × HomeAct)) ∨
        (∃ b y, b.length = 64 ∧ (c, k, g, x) = (.writeLine ag p a b y, .writeLine, ag, { bytes := b, poison := y, grant := 2 })) ∨
        (∃ (b : List Byte) (m : W64) (y : Bool), b.length = 64 ∧
          (c, k, g, x) = (.writePart ag p a b m y, .writePart, ag, { bytes := b, mask := m.toNat, poison := y })) ∨
        (∃ op n v m, (c, k, g, x) = (.atomicHome ag p a op n v m, .atomicHome, ag, { op := op, size := n, operand := v, compare := m })) ∨
        (∃ op n v m, (c, k, g, x) = (.atomicMem p a op n v m, .atomicMem, Agent.other, { op := op, size := n, operand := v, compare := m })) ∨
        (∃ b y, b.length = 64 ∧ p = 31 ∧ (c, k, g, x) = (.writeBack ag a b y, .writeBack, ag, { bytes := b, poison := y, grant := 2 })) →
      q = { kind := k, agent := g, part := reqTag h g p, act := { x with addr := a } } → w = (writesLine k || decide (k = .readOwn)) →
      (∀ o, regionOf a ∉ [3, 4, 5] →
        (k = .writeBack ∨ (agentFenced h g = false ∧ selRange h q.part a (if k = .atomicHome ∨ k = .atomicMem then max 1 x.size else 1) w = true)) →
        behindGhost h a = false → lineRetries h (lineOf a) = false → portDead h a = false → o = homeServe (h, s.mem) (lineOf a) q →
        exec c s = .next (s.routed o)) ∧
      (∀ e, regionOf a ∉ [3, 4, 5] → k ≠ .writeBack →
        (agentFenced h g = true ∨ selRange h q.part a (if k = .atomicHome ∨ k = .atomicMem then max 1 x.size else 1) w = false) →
        (e = h ∧ (∃ r, g = .remote r) ∨ e = countRefusal h q.part ∧ ∀ r, g ≠ .remote r) →
        exec c s = .next (s.routed (answered (answerWith e [] 3, s.mem) q))) ∧
      (regionOf a ∉ [3, 4, 5] →
        (k = .writeBack ∨ (agentFenced h g = false ∧ selRange h q.part a (if k = .atomicHome ∨ k = .atomicMem then max 1 x.size else 1) w = true)) →
        (behindGhost h a = true →
          exec c s = .next (s.routed (answered (ghostAnswer h (!writesLine k && decide (k ≠ .writeBack)), s.mem) q))) ∧
        (behindGhost h a = false → lineRetries h (lineOf a) = true →
          exec c s = .next (s.ended (answerWith (holdReq h (lineOf a) q) [] 0))) ∧
        (behindGhost h a = false → lineRetries h (lineOf a) = false → portDead h a = true →
          exec c s = .next (s.routed (answered (answerWith h (zeros 64) 2, s.mem) q)))) ∧
      (regionOf a ∈ [3, 4, 5] → (∃ r, g = .remote r) → exec c s = .next (s.routed (answered (ioReq (h, s.mem) q) q))) ∧
      (regionOf a ∈ [3, 4, 5] → (∀ r, g ≠ .remote r) → exec c s = .next (s.ended h))) ∧
    (∀ q line, line = lineOf a → dirAt h line = {} → reservedBy h line = none → q.snooped = false → (∀ r, q.agent ≠ .remote r) → tabWf {} h.coh.dir = true →
      h.coh.mshrs = [] →
      (q.kind = .readOnce → (homeServe (h, s.mem) line q).1.coh.answer = cohRead h s.mem (line * 64) 64 ∧
        (homeServe (h, s.mem) line q).1.coh.answerBad = (if poisoned h (line * 64) then 2 else 0) ∧
        (homeServe (h, s.mem) line q).2 = s.mem ∧ dirAt (homeServe (h, s.mem) line q).1 line = {}) ∧
      (q.kind = .writeLine → q.act.bytes.length = 64 → q.act.poison = false →
        (homeServe (h, s.mem) line q).2 = (cohWrite (h, s.mem) (line * 64) q.act.bytes).2 ∧
        dirAt (homeServe (h, s.mem) line q).1 line = {} ∧
        (tabWf false h.coh.poison = true → tabGet false (homeServe (h, s.mem) line q).1.coh.poison line = false)) ∧
      (q.kind = .writePart → (homeServe (h, s.mem) line q).2 = (maskedWrite (h, s.mem) (line * 64) q.act.bytes q.act.mask).2 ∧
        dirAt (homeServe (h, s.mem) line q).1 line = {} ∧
        (poisoned h (line * 64) = true → poisoned (homeServe (h, s.mem) line q).1 (line * 64) = true)) ∧
      (∀ old, (q.kind = .atomicHome ∨ q.kind = .atomicMem) → poisoned h (line * 64) = false → old = leNat (cohRead h s.mem q.act.addr q.act.size) →
        (homeServe (h, s.mem) line q).2 = (cohWrite (h, s.mem) q.act.addr
          (leBytes q.act.size (atomicNew q.act.op q.act.size old q.act.operand q.act.compare))).2 ∧
        (homeServe (h, s.mem) line q).1.coh.answer = leBytes q.act.size old ∧ (homeServe (h, s.mem) line q).1.coh.answerBad = 0) ∧
      ((q.kind = .atomicHome ∨ q.kind = .atomicMem) → poisoned h (line * 64) = true →
        (homeServe (h, s.mem) line q).2 = s.mem ∧ (homeServe (h, s.mem) line q).1.coh.answerBad = 2)) ∧
    (∀ line e b x, line = lineOf a → agentFenced h ag = false → agentGated h ag = false → agentRetry h ag = none → agentResv h ag line = none →
      e = dirAt h line → b = cohRead h s.mem (line * 64) 64 → x = (if poisoned h (line * 64) then 2 else 0) →
      (e.owner ≠ some ag →
        exec (.snp ag a .once) s = .next (s.ended (answerWith h [] 0)) ∧
        exec (.snp ag a .toShared) s = .next (s.ended (answerWith (setDir h line e) [] 0)) ∧
        exec (.snp ag a .toInvalid) s = .next (s.ended (answerWith (setDir (dropCopy h ag line) line (withoutAgent e ag)) [] 0))) ∧
      (e.owner = some ag →
        exec (.snp ag a .once) s = .next (s.ended (answerWith h b x)) ∧
        exec (.snp ag a .toShared) s = .next (s.ended (answerWith
          (setDir h line (addSharer { e with st := .s, owner := none, dirty := false } ag)) b x)) ∧
        exec (.snp ag a .toInvalid) s = .next (s.ended (answerWith (setDir (dropCopy h ag line) line (withoutAgent e ag)) b x)))) ∧
    (∀ k line e, line = lineOf a → agentFenced h ag = true →
      e = (if (dirAt h line).owner = some ag then loseFenced h line { kind := .readOwn, agent := .other } else h) →
      exec (.snp ag a k) s = .next (s.ended (answerWith (setDir (dropCopy e ag line) line (withoutAgent (dirAt e line) ag)) [] 0))) ∧
    (∀ k, agentFenced h ag = false → agentGated h ag = true → exec (.snp ag a k) s = .next (s.ended (answerWith h [] 0))) ∧
    (∀ k g, agentFenced h ag = false → agentGated h ag = false → agentRetry h ag = some g →
      exec (.snp ag a k) s = .next (s.ended (answerWith g [] 0))) ∧
    (∀ n line, line = lineOf a → agentFenced h ag = false → agentGated h ag = false → agentRetry h ag = none → agentResv h ag line = some n → ∀ k,
      exec (.snp ag a k) s = .next (s.ended (setHart h n { hartAt h n with resvHeld := true })))

/-- ARCH_STATUS, ARCH_FOUND, ARCH_JOIN, ARCH_ADMIT, ARCH_POLICY_SET, ARCH_DEPART and ARCH_ROLE_SET. For every state in which the mailbox
serves the request: ARCH_STATUS answers ARCH_ID, the Position ID and the flags first and changes nothing else; ARCH_FOUND on the
unadmitted anchor outside Bench mode with no other ARCH_ID heard for a second draws a non-zero 64-bit ARCH_ID, takes Position ID 0,
ADMITTED and both roles, steps to a later START_TB once and otherwise ignores it, and clears UNSYNCED, and in any of the four other cases
is DENIED; ARCH_JOIN is DENIED while a tenant exists, in Bench mode, or admitted with an unfenced membership, and otherwise waits, holding
EXPECT_ARCH and the accepted digests; ARCH_ADMIT is DENIED NOT_ADMITTER or ID_BUSY, and otherwise sends an ADMIT frame and waits;
ARCH_POLICY_SET replaces the policy; ARCH_DEPART of a role holder while other members exist is DENIED ROLE_HELD, of this package begins
its departure, and at the ADMITTER naming another member broadcasts DEPARTING and waits; ARCH_ROLE_SET unadmitted is DENIED, for a role
this package holds is done at once, and otherwise sends a ROLE request to the holder and waits. Each equation gives the whole next state. -/
def Obligations.ArchMembershipCommands : Prop :=
  ∀ (s : State) (h : Hw) (m : Mbx) (tag : Nat) (r : Req), h = clearSent s.hw →
    (Serving s m tag 0x0B01 r → Completes (.archStatus m tag) s (fun t => ∃ more, t.mem = s.mem ∧ t.hw = finalResp h m r 0 0
      (leBytes 8 h.arch.archId ++ leBytes 1 h.ident.position ++ leBytes 1 (flag h.ident.admitted + 2 * flag h.edges.anchor
        + 4 * flag (memberFenced h) + 8 * flag h.tb.holdover + 16 * flag h.tb.unsynced) ++ leBytes 1 (ownRoles h) ++ more))) ∧
    (∀ T, T = (if bitOf (leAt r.payload 0 1) 0 then max h.tb.now (leAt r.payload 8 8) else h.tb.now) →
      Serving s m tag 0x0B02 r → h.edges.anchor = true → h.ident.admitted = false → h.ident.bench = false →
      (∀ t, h.arch.foreign = some t → t + 1000000000 ≤ h.tb.now) →
      ∃ id, id ≠ 0 ∧ id < 2 ^ 64 ∧ exec (.archFound m tag) s = .next (s.ended (doneCommand h { h with
        free := h.free + 1, tb := { h.tb with now := T, unsynced := false }, ident := { h.ident with position := 0, admitted := true },
        arch := { h.arch with
          archId := id, timeSrc := some 0, admitter := some 0, plan := { root := 0 }, tickAt := T, timeAt := T, members := tabPut {} [] 0 {
            st := .member, tag := Config.deviceTag.toNat, digest := Config.aliasDigest (fwMeasure h), lastSeen := T, attested := T } } } m r (leBytes 8 id)))) ∧
    (Serving s m tag 0x0B02 r → (h.edges.anchor = false ∨ h.ident.admitted = true ∨ h.ident.bench = true ∨
        ∃ t, h.arch.foreign = some t ∧ h.tb.now < t + 1000000000) →
      exec (.archFound m tag) s = .next (s.ended (finalResp h m r 0x20 0 []))) ∧
    (Serving s m tag 0x0B03 r → ((∃ p, 1 ≤ p ∧ p ≤ 16 ∧ partExists h p = true) ∨ h.ident.bench = true ∨
        (h.ident.admitted = true ∧ memberFenced h = false)) →
      exec (.archJoin m tag) s = .next (s.ended (finalResp h m r 0x20 0 []))) ∧
    (Serving s m tag 0x0B03 r → (∀ p, 1 ≤ p → p ≤ 16 → partExists h p = false) → h.ident.bench = false →
      (h.ident.admitted = false ∨ memberFenced h = true) → waitsFor h (fun w => decide (w = Wait.join)) = false →
      exec (.archJoin m tag) s = .next (s.ended (holdCommand { h with
        arch := { h.arch with
        expect := leAt r.payload 0 8, accepts := (List.range (leAt r.payload 8 1)).map (fun i => (r.payload.drop (16 + 48 * i)).take 48) } } m r .join []))) ∧
    (∀ p, Serving s m tag 0x0B04 r → p = leAt r.payload 8 1 →
      (holdsRole h 1 = false → exec (.archAdmit m tag) s = .next (s.ended (finalResp h m r 0x20 0x102 []))) ∧
      (holdsRole h 1 = true → idFree h p = false → exec (.archAdmit m tag) s = .next (s.ended (finalResp h m r 0x20 0x101 []))) ∧
      (holdsRole h 1 = true → idFree h p = true → waitsFor h (fun w => match w with | .admission _ q => decide (q = p) | _ => false) = false →
        exec (.archAdmit m tag) s = .next (s.ended (holdCommand (sendAdmit h (leAt r.payload 0 8) 0) m r
          (.admission (leAt r.payload 0 8) p) [])))) ∧
    (Serving s m tag 0x0B05 r → exec (.archPolicySet m tag) s = .next (s.ended (doneCommand h { h with
      arch := { h.arch with
      minSec := leAt r.payload 0 4, needKa := bitOf (leAt r.payload 4 1) 0,
      policy := (List.range (leAt r.payload 5 1)).map (fun i => (r.payload.drop (8 + 48 * i)).take 48) } } m r []))) ∧
    (∀ p, Serving s m tag 0x0B06 r → p = leAt r.payload 0 1 → isMember h p = true → (p = h.ident.position ∨ holdsRole h 1 = true) →
      ((h.arch.timeSrc = some p ∨ h.arch.admitter = some p) → 2 ≤ (memberIds h).length →
        exec (.archDepart m tag) s = .next (s.ended (finalResp h m r 0x20 0x105 []))) ∧
      (∀ o : HM, ¬(h.arch.timeSrc = some p ∨ h.arch.admitter = some p) → p = h.ident.position → o = beginDepart (h, s.mem) →
        exec (.archDepart m tag) s = .next (s.withHm (stepEnd (if o.1.ident.admitted then waitCommand h o.1 m r (.depart p) []
          else doneCommand h o.1 m r []), o.2))) ∧
      (∀ b : Hw, ¬(h.arch.timeSrc = some p ∨ h.arch.admitter = some p) → p ≠ h.ident.position →
        b = broadcast (setMember h p { memberAt h p with st := .departing }) 0x09 [p] →
        exec (.archDepart m tag) s = .next (s.ended (waitCommand h { b with arch := { b.arch with memSeq := h.arch.seq } } m r (.depart p) [])))) ∧
    (Serving s m tag 0x0B07 r → h.ident.admitted = false → exec (.archRoleSet m tag) s = .next (s.ended (finalResp h m r 0x20 0 []))) ∧
    (∀ q, Serving s m tag 0x0B07 r → h.ident.admitted = true → leAt r.payload 0 1 < 2 → roleHolder h (leAt r.payload 0 1) = some q →
      waitsFor h (fun w => decide (w = Wait.role (leAt r.payload 0 1) (leAt r.payload 1 1))) = false →
      (q = h.ident.position → exec (.archRoleSet m tag) s = .next (s.ended (doneCommand h h m r []))) ∧
      (q ≠ h.ident.position → exec (.archRoleSet m tag) s = .next (s.ended (holdCommand
        (direct h 0x10 q [0, leAt r.payload 0 1, leAt r.payload 1 1]) m r (.role (leAt r.payload 0 1) (leAt r.payload 1 1)) []))))

/-- ARCH_SET_BIND, ARCH_SET_UNBIND, ARCH_CENSUS, ARCH_CENSUS_READ and LINK_CONTROL. For every state in which the mailbox serves the request:
ARCH_SET_BIND is DENIED while the package is unadmitted; of an existing partition and a set identifier in range that is bound to no other
partition it binds the partition, with its MEMBERS, in its own slot or a free one, broadcasts SET and allocates the streams, and has no
effect with NO_RESOURCE where more than 255 sets would then join two members; ARCH_SET_UNBIND of a pair that is not bound is DENIED, and
of a bound pair gives up the partition's remote lines, recalls the lines homed here, breaks its cross-package knots and ends the binding
at once when nothing is left to recall, else waits; ARCH_CENSUS with four censuses open is BUSY and otherwise opens one sampling LEAD
after now and broadcasts CENSUS_REQ; ARCH_CENSUS_READ of a complete census answers its markers and 256 entries, of one this package only
sampled its own entry; LINK_CONTROL disables a port, enables one into TRAINING, and retrains an ACTIVE link. Each equation gives the whole
next state. -/
def Obligations.ArchSetCensusLinkCommands : Prop :=
  ∀ (s : State) (h : Hw) (m : Mbx) (tag : Nat) (r : Req), h = clearSent s.hw →
    (Serving s m tag 0x0B08 r → partCheck h .steward (leAt r.payload 0 1) = none → h.ident.admitted = false →
      exec (.archSetBind m tag) s = .next (s.ended (finalResp h m r 0x20 0x101 []))) ∧
    (∀ p set used slot b, Serving s m tag 0x0B08 r → p = leAt r.payload 0 1 → set = leAt r.payload 4 4 → partCheck h .steward p = none →
      h.ident.admitted = true → set ≠ 0 → set ≠ 0xFFFFFFFF → used = h.arch.sets.filter (fun e => e.2.used) →
      (∀ e, e ∈ used → (e.2.set = set ↔ e.2.part = p)) →
      slot = (match used.find? (fun e => decide (e.2.part = p)) with
        | some e => e.1
        | none => ((List.range 17).find? (fun i => !(tabGet {} h.arch.sets i).used)).getD 17) →
      b = { h with arch := { h.arch with sets := tabPut {} h.arch.sets slot { used := true, set := set, part := p, members := leAt r.payload 8 32 } } } →
      ((liveSets b).length > 255 → exec (.archSetBind m tag) s = .next (s.ended (finalResp h m r 0x40 0 []))) ∧
      ((liveSets b).length ≤ 255 → exec (.archSetBind m tag) s =
        .next (s.ended (doneCommand h (routeWaiting (syncStreams (broadcast b 0x12 [set, 1]))) m r [])))) ∧
    (Serving s m tag 0x0B09 r → partCheck h .steward (leAt r.payload 0 1) = none →
      (∀ e, e ∈ h.arch.sets → e.2.used = true → ¬(e.2.set = leAt r.payload 4 4 ∧ e.2.part = leAt r.payload 0 1)) →
      exec (.archSetUnbind m tag) s = .next (s.ended (finalResp h m r 0x20 0x102 []))) ∧
    (∀ (p set : Nat) (g u : Hw) (o : HM), Serving s m tag 0x0B09 r → p = leAt r.payload 0 1 → set = leAt r.payload 4 4 →
      partCheck h .steward p = none → (∃ e, e ∈ h.arch.sets ∧ e.2.used = true ∧ e.2.set = set ∧ e.2.part = p) →
      g = giveUpProxies h (fun _ x => decide (x.part = p)) true →
      o = recallLines (g, s.mem) (fun l => decide ((swatchAt g (l * 64)).owner = p)) →
      u = unbindDone (breakRemote (breakCross o.1 (fun n => decide (knotOwner o.1 n = p))) (fun q _ => decide (slipOwner
        (breakCross o.1 (fun n => decide (knotOwner o.1 n = p))) q = p))) p set →
      exec (.archSetUnbind m tag) s = .next (s.withHm (stepEnd
        (if u.arch.sets.any (fun e => e.2.used && decide (e.2.set = set ∧ e.2.part = p)) then waitCommand h u m r (.unbind p set) []
         else doneCommand h u m r []), o.2))) ∧
    (Serving s m tag 0x0B0A r → h.ident.admitted = true → 1000 ≤ leAt r.payload 0 4 → leAt r.payload 0 4 ≤ 100000 →
      4 ≤ (h.arch.censuses.filter (censusOpen h)).length → exec (.archCensus m tag) s = .next (s.ended (finalResp h m r 0x11 0 []))) ∧
    (∀ lead n, Serving s m tag 0x0B0A r → lead = leAt r.payload 0 4 → n = h.arch.censusSeq % 65536 → h.ident.admitted = true → 1000 ≤ lead →
      lead ≤ 100000 → (h.arch.censuses.filter (censusOpen h)).length < 4 →
      exec (.archCensus m tag) s = .next (s.ended (waitCommand h (broadcast { h with
        arch := { h.arch with
        censusSeq := h.arch.censusSeq + 1, censuses := h.arch.censuses.filter (fun x => !decide (x.initiator = h.ident.position ∧ x.seq = n)) ++
          [{ initiator := h.ident.position, seq := n, ts := h.tb.now + 1000 * lead, lead := 1000 * lead }] } } 0x13
          [h.ident.position, n, h.tb.now + 1000 * lead]) m r (.census n)
        (leBytes 1 h.ident.position ++ zeros 1 ++ leBytes 2 n ++ zeros 4)))) ∧
    (∀ c, Serving s m tag 0x0B0B r → findCensus h (leAt r.payload 0 1) (leAt r.payload 2 2) = some c →
      (c.initiator = h.ident.position → h.ident.admitted = true → c.done = true → exec (.archCensusRead m tag) s = .next (s.withHw
        (finalResp h m r 0 0 (leBytes 1 1 ++ leBytes 1 c.marks.length ++ leBytes 2 256 ++ zeros 4
          ++ (List.range 8).flatMap (fun i => leBytes 1 (c.marks.getD i (0, 0)).1 ++ leBytes 1 (c.marks.getD i (0, 0)).2)
          ++ ((List.range 256).map (censusResult h c)).flatten)))) ∧
      (c.initiator ≠ h.ident.position → c.sampled = true → exec (.archCensusRead m tag) s = .next (s.withHw
        (finalResp h m r 0 0 (leBytes 1 2 ++ leBytes 1 0 ++ leBytes 2 1 ++ zeros 4 ++ zeros 16 ++ leBytes 32 c.mine))))) ∧
    (∀ n l, Serving s m tag 0x0B0C r → n = leAt r.payload 0 1 → n < portCount h → l = linkAt h n →
      waitsFor h (fun x => decide (x = Wait.link n)) = false →
      (leAt r.payload 1 1 = 0 → exec (.linkControl m tag) s = .next (s.ended (doneCommand h (setLink h n
        { l with st := .disabled, off := true, since := h.tb.now }) m r []))) ∧
      (leAt r.payload 1 1 = 1 → l.off = true → mayTrain h = true → exec (.linkControl m tag) s = .next (s.ended (waitCommand h (setLink h n
        { l with off := false, st := .training, since := h.tb.now }) m r (.link n) []))) ∧
      (leAt r.payload 1 1 = 2 → l.st = .active → exec (.linkControl m tag) s = .next (s.ended (waitCommand h (setLink h n
        { l with st := .retraining, since := h.tb.now }) m r (.link n) []))))

/-- Which causeway frames are heard, dropped, forwarded, and fence the membership. For every state, header, reserved TYPE and body: a frame
whose CRC fails changes nothing; so does a frame of HOPS 0 from a port that is not joined, this package's own copy on its return, a frame
while the causeway island does not run, and a RESENT copy of a broadcast whose origin and SEQ have been seen leaves what it told of the
ring alone; a frame with another archipelago's non-zero ARCH_ID at an admitted package fences the membership once, with ARCH_CONFLICT, and
is dropped; any other frame is remembered and forwarded by the opposite port with HOPS one greater and every other field as it came, or
dropped there when that port is broken, and nothing else of the package changes. The processing of the known types is stated row by row. -/
def Obligations.CausewayReception : Prop :=
  ∀ (s : State) (h : Hw) (c : Cw) (ty : Nat) (body : List Nat), h = clearSent s.hw → 0x17 < ty →
    (∀ k, exec (.causewayFrameUnprocessed c k false body) s = .next (s.withHw h)) ∧
    (∀ k, k ≠ 0 → k ≤ 0x17 → exec (.causewayFrameUnprocessed c k true body) s = .next (s.withHw h)) ∧
    (h.arch.running = false → exec (.causewayFrameUnprocessed c ty true body) s = .next (s.withHw h)) ∧
    (c.tag = Config.deviceTag.toNat → exec (.causewayFrameUnprocessed c ty true body) s = .next (s.withHw h)) ∧
    (c.hops = 0 → (cwPort h c.port).joined = false → exec (.causewayFrameUnprocessed c ty true body) s = .next (s.withHw h)) ∧
    (h.arch.running = true → c.tag ≠ Config.deviceTag.toNat → (c.hops ≠ 0 ∨ (cwPort h c.port).joined = true) →
      h.ident.admitted = true → c.archId ≠ 0 → c.archId ≠ h.arch.archId →
      exec (.causewayFrameUnprocessed c ty true body) s = .next (s.ended (memberDoubt h 0 0 0x090C c.archId 0))) ∧
    (∀ g, h.arch.running = true → c.tag ≠ Config.deviceTag.toNat → (c.hops ≠ 0 ∨ (cwPort h c.port).joined = true) →
      archConflict h c = false → positionClash h c = false → g = noteFrame h c →
      ((c.tag, c.seq) ∈ h.arch.seen → c.resent = true → exec (.causewayFrameUnprocessed c ty true body) s = .next (s.ended g)) ∧
      (((c.tag, c.seq) ∉ h.arch.seen ∨ c.resent = false) →
        exec (.causewayFrameUnprocessed c ty true body) s = .next (s.ended { g with
          arch := { g.arch with
          seen := ((c.tag, c.seq) :: g.arch.seen).take 1024,
          sent := if (cwPort g (otherPort c.port)).broken then g.arch.sent else g.arch.sent ++ [{
            type := ty, ports := otherPort c.port + 1, resent := c.resent, origin := c.origin, hops := (c.hops + 1) % 256, seq := c.seq,
            archId := c.archId, tag := c.tag, dest := 0, tb := c.tb, holdover := c.holdover, fenced := c.fenced,
            unadmitted := c.unadmitted, body := body }] } })))

/-- PRESENCE, JOIN, causeway carrier, breaks and their repair, and holdover. For every state: the presence tick of a running causeway island,
no role pass due and not ADMITTER, advances the time base to 1 ms after the last and sends PRESENCE with its roles, link peers and the SEQ
of the last membership frame, then FENCED while the package or its membership is Fenced; a PRESENCE heard with UNADMITTED adds its
DEVICE_TAG to at most 16 newcomers, and one of a member renews what the table holds of it; JOIN at a port with carrier is answered ACCEPT
and joins the port, or BUSY before t0 + 250 ms; an ACCEPT joins the port; carrier is answered with JOIN once join frames may be sent; a
port that breaks becomes an arc end: it is not joined, directed frames of the last 20 us are sent again with RESENT by the other port,
BREAK is broadcast, the break is recorded and every member is in holdover; BREAK and RESTORED received enter and remove the break, and are
recorded; the reaction to a frame is stated on the hardware on which reception leaves it. -/
def Obligations.PresenceAndJoinRows : Prop :=
  ∀ (s : State) (h g : Hw) (c : Cw), h = clearSent s.hw → g.arch.posted = [] →
    (∀ a b, h.arch.running = true → h.arch.rolePend = [] → holdsRole b 1 = false →
      a = { h with
                   tb := { h.tb with now := max h.tb.now (h.arch.presAt + 1000000) },
                   arch := { h.arch with presAt := max h.tb.now (h.arch.presAt + 1000000) } } →
      b = sendFrame a (presenceFrame a ([ownRoles a, (ownUp a).length] ++ ownUp a ++ [(ownDown a).length] ++ ownDown a ++ [a.arch.memSeq])) →
      (pkgFenced b || memberFenced b) = false → exec .presenceTick s = .next (s.ended b)) ∧
    (∀ a b, h.arch.running = true → h.arch.rolePend = [] → holdsRole (broadcast b 0x0D []) 1 = false →
      a = { h with
                   tb := { h.tb with now := max h.tb.now (h.arch.presAt + 1000000) },
                   arch := { h.arch with presAt := max h.tb.now (h.arch.presAt + 1000000) } } →
      b = sendFrame a (presenceFrame a ([ownRoles a, (ownUp a).length] ++ ownUp a ++ [(ownDown a).length] ++ ownDown a ++ [a.arch.memSeq])) →
      (pkgFenced b || memberFenced b) = true → exec .presenceTick s = .next (s.ended (broadcast b 0x0D []))) ∧
    (∀ p : Presence, Taken h c 0x01 .broadcast ([p.roles, p.upTo.length] ++ p.upTo ++ [p.downTo.length] ++ p.downTo ++ [p.applied]) g →
      (c.unadmitted = true → c.tag ∉ g.arch.newcomers → g.arch.newcomers.length < 16 → exec (.presence c p) s =
        .next (s.ended { g with arch := { g.arch with newcomers := g.arch.newcomers ++ [c.tag] } })) ∧
      (c.unadmitted = true → (c.tag ∈ g.arch.newcomers ∨ 16 ≤ g.arch.newcomers.length) → exec (.presence c p) s = .next (s.ended g)) ∧
      (c.unadmitted = false → p.roles % 4 = 0 → fromMember g c = true → exec (.presence c p) s = .next (s.ended (confirmFreeing
        (setMember g c.origin { memberAt g c.origin with lastSeen := g.tb.now, applied := p.applied, upTo := p.upTo, downTo := p.downTo })
        c.origin p.applied)))) ∧
    (Taken h c 0x02 .neighbour [] g → (cwPort g c.port).carrier = true → g.arch.joinOk = true →
      exec (.join c) s = .next (s.ended (portJoined (toNeighbour g 0x03 (if c.port = 0 then 0 else 1) [1]) c.port))) ∧
    (Taken h c 0x02 .neighbour [] g → (cwPort g c.port).carrier = true → g.arch.joinOk = false →
      exec (.join c) s = .next (s.ended (toNeighbour g 0x03 (if c.port = 0 then 0 else 1) [0]))) ∧
    (Taken h c 0x03 .neighbour [1] g → (cwPort g c.port).carrier = true → g.arch.joinOk = true → (cwPort g c.port).broken = false →
      exec (.joinAnswer c true) s = .next (s.ended (setCwPort g c.port { cwPort g c.port with joined := true, broken := false, wasUp := false }))) ∧
    (Taken h c 0x03 .neighbour [0] g → exec (.joinAnswer c false) s = .next (s.ended g)) ∧
    (∀ n, (h.arch.running = false ∨ h.arch.joinOk = false) →
      exec (.causewayCarrier n) s = .next (s.ended (setCwPort h n { cwPort h n with carrier := true }))) ∧
    (∀ n, h.arch.running = true → h.arch.joinOk = true → exec (.causewayCarrier n) s =
      .next (s.ended (toNeighbour (setCwPort h n { cwPort h n with carrier := true }) 0x02 (if n = 0 then 0 else 1) []))) ∧
    (∀ n, n < 2 → h.arch.running = true → (cwPort h n).carrier = true → (cwPort h (otherPort n)).broken = false → h.ident.admitted = true →
      Completes (.causewayPortBreak n) s (fun t => cwPort t.hw n = { cwPort h n with carrier := false, joined := false, broken := true, wasUp := (cwPort h n).joined }
        ∧ t.hw.tb.holdover = true ∧ t.hw.tb.netHold = true ∧ (Config.deviceTag.toNat, n) ∈ t.hw.arch.breaks ∧ t.hw.arch.timeRun = 0
        ∧ (∀ f, f ∈ h.arch.recent → h.tb.now ≤ f.1 + 20000 → bitOf f.2.ports n = true →
            { f.2 with resent := true, ports := otherPort n + 1 } ∈ t.hw.arch.sent)
        ∧ (∃ f, f ∈ t.hw.arch.sent ∧ f.type = 0x0E ∧ f.body = [h.ident.position, n, (cwPort h n).lastTag]) ∧ t.mem = s.mem)) ∧
    (∀ n lt, Taken h c 0x0E .broadcast [c.origin, n, lt] g → exec (.break c n lt) s = .next (s.ended (ringRecord (dropIns (causewayHold
      { g with arch := { g.arch with breaks := (g.arch.breaks.filter (fun b => b ≠ (c.tag, n))) ++ [(c.tag, n)] } })) 0x0905 c.origin n))) ∧
    (∀ n lt, Taken h c 0x0F .broadcast [c.origin, n, lt] g → exec (.restored c n lt) s = .next (s.ended (ringRecord
      { g with arch := { g.arch with breaks := g.arch.breaks.filter (fun b => b ≠ (c.tag, n)), timeRun := 0 } } 0x0906 c.origin n)))

/-- DELAY_REQ, DELAY_RSP, TIME_TICK, TIME and the loss of TIME frames. For every state: the delay tick stamps and sends DELAY_REQ on each
joined port 1 ms after the last; DELAY_REQ received is answered with this package's instants; DELAY_RSP sets the port's delay to half the
round trip less the answering package's residence, in 2^-16 ns; the TIME_SOURCE broadcasts TIME 125 us after its last, and a package that
is not the TIME_SOURCE does nothing; a TIME frame taken by a package that is not a member only notes the time, TB + CORRECTION + the
arrival link's delay, and leaves its time base and TB_STATUS as they were; by an unfenced member that is not the TIME_SOURCE it sets the
slew to the difference, enters holdover where the frame is flagged HOLDOVER and otherwise counts toward the eight that end it; the copy of
a TIME frame already taken is used instead only with fewer HOPS, or with equal HOPS at the west port; a member that is not the TIME_SOURCE
with no TIME frame for 1 ms enters holdover. "Taken" is the hardware on which reception leaves the frame. -/
def Obligations.ArchTimeRows : Prop :=
  ∀ (s : State) (h g : Hw) (c : Cw), h = clearSent s.hw → g.arch.posted = [] →
    (∀ a, h.arch.running = true → a = { h with
        tb := { h.tb with now := max h.tb.now (h.arch.delayAt + 1000000) },
        arch := { h.arch with delayAt := max h.tb.now (h.arch.delayAt + 1000000) } } → h.arch.east.joined = false → h.arch.west.joined = true →
      exec (.delayReq none) s = .next (s.ended (setCwPort (toNeighbour a 0x04 1 []) 1 { a.arch.west with reqAt := a.tb.now }))) ∧
    (∀ a, h.arch.running = true → a = { h with
        tb := { h.tb with now := max h.tb.now (h.arch.delayAt + 1000000) },
        arch := { h.arch with delayAt := max h.tb.now (h.arch.delayAt + 1000000) } } → h.arch.east.joined = true → h.arch.west.joined = false →
      exec (.delayReq none) s = .next (s.ended (setCwPort (toNeighbour a 0x04 0 []) 0 { a.arch.east with reqAt := a.tb.now }))) ∧
    (Taken h c 0x04 .neighbour [] g → exec (.delayReq (some c)) s =
      .next (s.ended (toNeighbour g 0x05 (if c.port = 0 then 0 else 1) [g.tb.now, g.tb.now]))) ∧
    (∀ rx tx, Taken h c 0x05 .neighbour [rx, tx] g → exec (.delayRsp c rx tx) s = .next (s.ended (setCwPort g c.port
      { cwPort g c.port with delay := ((g.tb.now - (cwPort g c.port).reqAt) - (tx - rx)) * 65536 / 2 }))) ∧
    (∀ a, h.arch.running = true → holdsRole h 0 = true → a = { h with
        tb := { h.tb with now := max h.tb.now (h.arch.tickAt + 125000) },
        arch := { h.arch with tickAt := max h.tb.now (h.arch.tickAt + 125000), timeAt := max h.tb.now (h.arch.tickAt + 125000) } } →
      exec .timeTick s = .next (s.ended (countTime (broadcast a 0x06 [0])))) ∧
    ((h.arch.running = false ∨ holdsRole h 0 = false) → exec .timeTick s = .next (s.withHw h)) ∧
    (∀ corr res t, Taken h c 0x06 .broadcast [corr + res + (cwPort h c.port).delay] g → t = c.tb + (corr + (cwPort g c.port).delay) / 65536 →
      g.arch.timeSeq ≠ c.seq →
      (g.ident.admitted = false → exec (.time c corr res) s = .next (s.ended { g with
        arch := { g.arch with
        timeAt := g.tb.now, timeSeq := c.seq, timeHops := c.hops, archTb := some (t, g.tb.now) } })) ∧
      (∀ u, fromMember g c = true → memberFenced g = false → roleHolder g 0 ≠ some g.ident.position → u = { g with
        arch := { g.arch with timeAt := g.tb.now, timeSeq := c.seq, timeHops := c.hops, archTb := some (t, g.tb.now) },
        tb := { g.tb with slew := (t : Int) - (g.tb.now : Int) } } →
        exec (.time c corr res) s = .next (s.ended (if c.holdover then causewayHold u else countTime u)))) ∧
    (∀ corr res, Taken h c 0x06 .broadcast [corr + res + (cwPort h c.port).delay] g → g.arch.timeSeq = c.seq → g.arch.timeHops ≤ 255 →
      (g.arch.timeHops < c.hops ∨ (g.arch.timeHops = c.hops ∧ c.port = 0)) → exec (.time c corr res) s = .next (s.ended g)) ∧
    (h.ident.admitted = true → memberFenced h = false → holdsRole h 0 = false → exec .timeFrameTimeout s = .next (s.withHw (stepEnd
      (causewayHold { h with tb := { h.tb with now := max h.tb.now (h.arch.timeAt + 1000000) } })))) ∧
    ((h.ident.admitted = false ∨ holdsRole h 0 = true) → exec .timeFrameTimeout s = .next (s.withHw h))

/-- ADMIT, ADMITTED and re-attestation. For every state: an ADMIT taken at the ADMITTER while READY for a newcomer it is admitting refuses it
with ATTEST_FAIL where its attestation fails the policy or the newcomer has refused, with TB_AHEAD where its clock is too far ahead,
answers again while the newcomer slews, and otherwise broadcasts ADMITTED with the Position ID, enters the member and completes
ARCH_ADMIT; at the newcomer it refuses an ADMITTER whose chain, ARCH_ID or digest is not accepted, waits for a TIME frame, refuses when
its clock is more than 1 s ahead, slews when ahead by more than 1 us, and otherwise agrees; ADMITTED of another member enters it in the
table at every member; ADMITTED naming a package that waits to join gives it its Position ID, ADMITTED and ARCH_ID, clears UNSYNCED and
lifts its membership fence; REATTEST at the ADMITTER renews a member that passes the policy and declares one that fails it removed with
REASON 4, and at a member that passes broadcasts ADMITTED again. -/
def Obligations.AdmissionRows : Prop :=
  ∀ (s : State) (h g : Hw) (c : Cw), h = clearSent s.hw →
    (∀ (d pos : Nat) (a : Attest) (w : Wait → Bool), Taken h c 0x07 (.directed d) [a.verdict] g → outsider g = false → holdsRole g 1 = true →
      g.efano.ready = true → admitting g c.tag = some pos → w = (fun x => decide (x = Wait.admission c.tag pos)) →
      ((policyOk g a = false ∨ a.verdict = 1) → exec (.admitFrame c d a) s = .next (s.ended (sendAdmit (admitRefused g w c.tag 0x104) c.tag 1))) ∧
      (policyOk g a = true → a.verdict = 2 → exec (.admitFrame c d a) s = .next (s.ended (admitRefused g w c.tag 0x103))) ∧
      (policyOk g a = true → a.verdict = 3 → exec (.admitFrame c d a) s = .next (s.ended (sendAdmit g c.tag 0))) ∧
      (policyOk g a = true → a.verdict = 0 → exec (.admitFrame c d a) s = .next (s.ended (endWaits (appliedFrame
        (enterMember (broadcast g 0x08 [pos, c.tag, leNat a.alias_]) pos c.tag a.alias_) g.arch.seq) (fun r => w r.wait) 0 0)))) ∧
    (∀ (d : Nat) (a : Attest) (w : Wait → Bool), Taken h c 0x07 (.directed d) [a.verdict] g → outsider g = true → g.efano.ready = true →
      w = (fun x => decide (x = Wait.join)) → waitsFor g w = true → a.verdict = 0 →
      (a.chainOk = false → exec (.admitFrame c d a) s = .next (s.withHw (stepEnd
        (admitRefused (sendAdmit g c.origin 1) w Config.deviceTag.toNat 0x104)))) ∧
      (a.chainOk = true → (g.arch.expect = 0 ∨ g.arch.expect = c.archId) → (g.arch.accepts = [] ∨ a.digest ∈ g.arch.accepts) →
        (g.arch.archTb = none → exec (.admitFrame c d a) s = .next (s.ended (sendAdmit g c.origin 3))) ∧
        (∀ x, aheadBy g = some x → 1000000000 < x → exec (.admitFrame c d a) s = .next (s.withHw (stepEnd
          (admitRefused (sendAdmit g c.origin 2) w Config.deviceTag.toNat 0x103)))) ∧
        (∀ x, aheadBy g = some x → 1000 < x → x ≤ 1000000000 → exec (.admitFrame c d a) s = .next (s.withHw (stepEnd
          (sendAdmit { g with tb := { g.tb with slew := -x } } c.origin 3)))) ∧
        (∀ x, aheadBy g = some x → x ≤ 1000 → exec (.admitFrame c d a) s = .next (s.ended (sendAdmit g c.origin 0))))) ∧
    (∀ pos tag dg, Taken h c 0x08 .broadcast [pos, tag, leNat dg] g → outsider g = false → fromMember g c = true →
      exec (.admitted c pos tag dg) s = .next (s.ended (appliedFrame (enterMember g pos tag dg) c.seq))) ∧
    (∀ pos tag dg, Taken h c 0x08 .broadcast [pos, tag, leNat dg] g → g.ident.admitted = false → g.ident.bench = false → tag = Config.deviceTag.toNat →
      waitsFor g (fun w => decide (w = Wait.join)) = true → pos < 256 →
      Completes (.admitted c pos tag dg) s (fun t => t.hw.ident.position = pos ∧ t.hw.ident.admitted = true ∧ t.hw.arch.archId = c.archId ∧
        t.hw.tb.unsynced = false ∧ g.tb.now ≤ t.hw.tb.now ∧ (memberAt t.hw pos).st = MemberSt.member ∧ t.mem = s.mem)) ∧
    (∀ pos tag dg, Taken h c 0x08 .broadcast [pos, tag, leNat dg] g → outsider g = true →
      (g.ident.bench = true ∨ tag ≠ Config.deviceTag.toNat ∨ waitsFor g (fun w => decide (w = Wait.join)) = false) →
      exec (.admitted c pos tag dg) s = .next (s.ended g)) ∧
    (∀ pos a, h.efano.ready = true → holdsRole h 1 = true → pos ≠ h.ident.position → (memberAt h pos).st ≠ MemberSt.none →
      (policyOk h a = true → exec (.reattest pos a) s = .next (s.ended (setMember h pos { memberAt h pos with attested := h.tb.now }))) ∧
      (∀ o, policyOk h a = false → o = memberGone (broadcast h 0x0B [pos, 4], s.mem) pos h.arch.seq (some 4) →
        exec (.reattest pos a) s = .next (s.withHm (stepEnd o.1, o.2)))) ∧
    (∀ pos a, holdsRole h 1 = false → h.ident.admitted = true → memberFenced h = false → pos = h.ident.position → a.verdict = 0 →
      exec (.reattest pos a) s = .next (s.ended (enterMember
        (broadcast h 0x08 [pos, Config.deviceTag.toNat, leNat (Config.aliasDigest (fwMeasure h))]) pos Config.deviceTag.toNat
        (Config.aliasDigest (fwMeasure h)))))

/-- DEPARTING, DEPARTED, REMOVED, ABANDON, FENCED and a member that is absent. For every state and frame of a member: DEPARTING of another
member marks it DEPARTING, and naming this package, a member with no role, begins its departure; DEPARTED of a member frees its entry,
forgets its bindings, breaks its cross-package knots, takes its links back to TRAINED and records MEMBER_DEPARTED; REMOVED naming this
package fences its membership, with ATTEST_MISMATCH for REASON 4 and MEMBER_REMOVED otherwise; REMOVED and ABANDON of another member, and
FENCED and three silent milliseconds with every link down at the ADMITTER, remove it with the REASON of R638: whatever happens to it, the
entry is free, its bindings are forgotten and MEMBER_REMOVED is recorded; a second frame for a member already gone changes only the SEQ
last applied; FENCED at a package that is not the ADMITTER marks the member and breaks its knots. -/
def Obligations.MembershipEndRows : Prop :=
  ∀ (s : State) (h g : Hw) (c : Cw), h = clearSent s.hw →
    (∀ pos, Taken h c 0x09 .broadcast [pos] g → fromMember g c = true → pos ≠ g.ident.position → (memberAt g pos).st ≠ MemberSt.none →
      exec (.departing c pos) s = .next (s.ended (appliedFrame (setMember g pos { memberAt g pos with st := .departing }) c.seq))) ∧
    (∀ pos o, Taken h c 0x09 .broadcast [pos] g → fromMember g c = true → pos = g.ident.position → ownRoles g = 0 →
      (memberAt g pos).st = MemberSt.member → o = beginDepart (g, s.mem) → exec (.departing c pos) s = .next (s.withHm (stepEnd o.1, o.2))) ∧
    (∀ pos o, Taken h c 0x0A .broadcast [pos] g → fromMember g c = true → o = memberGone (g, s.mem) pos c.seq none →
      exec (.departed c pos) s = .next (s.withHm (stepEnd o.1, o.2))) ∧
    (∀ pos, Taken h c 0x0A .broadcast [pos] g → fromMember g c = true → (memberAt g pos).st = MemberSt.none → g.arch.posted = [] →
      exec (.departed c pos) s = .next (s.ended { g with arch := { g.arch with memSeq := c.seq } })) ∧
    (∀ pos re, Taken h c 0x0B .broadcast [pos, re] g → fromMember g c = true → pos = g.ident.position →
      exec (.removed c pos re) s = .next (s.ended (if re = 4 then memberDoubt g 0 0 0x0805 0 pos else memberDoubt g 0 0 0x0903 pos re))) ∧
    (∀ pos re o, Taken h c 0x0B .broadcast [pos, re] g → fromMember g c = true → pos ≠ g.ident.position →
      o = memberGone (g, s.mem) pos c.seq (some re) → exec (.removed c pos re) s = .next (s.withHm (stepEnd o.1, o.2))) ∧
    (∀ o, Taken h c 0x0C .broadcast [] g → fromMember g c = true → holdsRole g 1 = false →
      o = memberGone (g, s.mem) c.origin c.seq (some 3) → exec (.abandon c) s = .next (s.withHm (stepEnd o.1, o.2))) ∧
    (∀ o, Taken h c 0x0C .broadcast [] g → fromMember g c = true → holdsRole g 1 = true → c.origin ≠ g.ident.position →
      o = memberGone (broadcast g 0x0B [c.origin, 3], s.mem) c.origin g.arch.seq (some 3) →
      exec (.abandon c) s = .next (s.withHm (stepEnd o.1, o.2))) ∧
    (∀ u v o, Taken h c 0x0D .broadcast [] g → fromMember g c = true → c.origin ≠ g.ident.position →
      u = setMember g c.origin { memberAt g c.origin with st := .fenced } →
      v = breakRemote (breakCross u (fun n => bitOf (knotAt u n).members c.origin)) (fun _ p => decide (p = c.origin)) →
      holdsRole v 1 = true → v.ident = g.ident → (memberAt v c.origin).st ≠ MemberSt.none →
      o = memberGone (broadcast v 0x0B [c.origin, 2], s.mem) c.origin v.arch.seq (some 2) →
      exec (.fenced c) s = .next (s.withHm (stepEnd o.1, o.2))) ∧
    (∀ u v, Taken h c 0x0D .broadcast [] g → fromMember g c = true →
      u = setMember g c.origin { memberAt g c.origin with st := .fenced } →
      v = breakRemote (breakCross u (fun n => bitOf (knotAt u n).members c.origin)) (fun _ p => decide (p = c.origin)) →
      holdsRole v 1 = false → exec (.fenced c) s = .next (s.ended v)) ∧
    (∀ pos u o, u = { h with tb := { h.tb with now := max h.tb.now ((memberAt h pos).lastSeen + 3000000) } } → holdsRole h 1 = true →
      (ownUp u).contains pos = false → (∀ e, e ∈ u.arch.members → e.1 ≠ pos → pos ∉ e.2.upTo) → (memberAt h pos).st ≠ MemberSt.none →
      pos ≠ h.ident.position → o = memberGone (broadcast u 0x0B [pos, 1], s.mem) pos h.arch.seq (some 1) →
      exec (.memberAbsent pos) s = .next (s.withHm (stepEnd o.1, o.2))) ∧
    (∀ pos, holdsRole h 1 = false → exec (.memberAbsent pos) s = .next (s.withHw h))

/-- ROLE frames, succession to a role, route plans and the bindings of other members. For every state: a ROLE request for TIME_SOURCE or
ADMITTER at its holder waits for its TB plus 1 ms, and of two that collide the lower Position ID's is kept and the other is answered
COLLIDED_LOST; a request to swap LINK_STEWARD at the peer of an ACTIVE link does the same; a grant gives the role, or exchanges the link's
stewardship, and completes the waiting command, COLLIDED_LOST completes it with that status; when the holder of a role has sent no
PRESENCE for 3 ms, or is Fenced or gone, the role passes to the present, unfenced member of the lowest Position ID; a ROUTE frame of a
member holds its plan for the instant it names, and at that instant it becomes the plan, the one before it kept for 10 ms; a SET frame
enters or removes a member's binding, on which streams follow. -/
def Obligations.RoleRows : Prop :=
  ∀ (s : State) (h g : Hw) (c : Cw), h = clearSent s.hw →
    (∀ d r, Taken h c 0x10 (.directed d) [0, r, 0] g → fromMember g c = true → g.efano.ready = true → r ≤ 1 → holdsRole g r = true →
      (∀ x, x ∈ g.arch.rolePend → x.1 ≠ r) → exec (.role c d .request r 0) s = .next (s.withHw (stepEnd
        { g with arch := { g.arch with rolePend := g.arch.rolePend ++ [(r, 0, c.origin, c.tb + 1000000)] } }))) ∧
    (∀ d r x xs, Taken h c 0x10 (.directed d) [0, r, 0] g → fromMember g c = true → g.efano.ready = true → r ≤ 1 → holdsRole g r = true →
      g.arch.rolePend = x :: xs → x.1 = r → x.2.2.1 ≤ c.origin →
      exec (.role c d .request r 0) s = .next (s.ended (direct g 0x10 c.origin [2, r, 0]))) ∧
    (∀ d r x k, Taken h c 0x10 (.directed d) [0, r, 0] g → fromMember g c = true → g.efano.ready = true → r ≤ 1 → holdsRole g r = true →
      g.arch.rolePend = [x] → x.1 = r → c.origin < x.2.2.1 →
      k = direct { g with arch := { g.arch with rolePend := [] } } 0x10 x.2.2.1 [2, r, 0] → exec (.role c d .request r 0) s =
        .next (s.ended { k with arch := { k.arch with rolePend := k.arch.rolePend ++ [(r, 0, c.origin, c.tb + 1000000)] } })) ∧
    (∀ d p, Taken h c 0x10 (.directed d) [0, 2, p] g → fromMember g c = true → g.efano.ready = true → (linkAt g p).st = LinkSt.active →
      (linkAt g p).peer = c.origin → waitsFor g (fun w => decide (w = Wait.role 2 p)) = true → g.ident.position < c.origin →
      exec (.role c d .request 2 p) s = .next (s.ended (direct g 0x10 c.origin [2, 2, p]))) ∧
    (∀ d r, Taken h c 0x10 (.directed d) [1, r, 0] g → fromMember g c = true → g.efano.ready = true → r ≤ 1 →
      waitsFor g (fun w => decide (w = Wait.role r 0)) = true → exec (.role c d .grant r 0) s = .next (s.withHw (stepEnd
        (endWaits (setHolder g r g.ident.position) (fun q => decide (q.wait = Wait.role r 0)) 0 0)))) ∧
    (∀ d p, Taken h c 0x10 (.directed d) [1, 2, p] g → fromMember g c = true → g.efano.ready = true →
      waitsFor g (fun w => decide (w = Wait.role 2 p)) = true → exec (.role c d .grant 2 p) s = .next (s.withHw (stepEnd
        (endWaits (setLink g p { linkAt g p with steward := !(linkAt g p).steward }) (fun q => decide (q.wait = Wait.role 2 p)) 0 0)))) ∧
    (∀ d r p, Taken h c 0x10 (.directed d) [2, r, p] g → fromMember g c = true → g.efano.ready = true →
      waitsFor g (fun w => decide (w = Wait.role r p)) = true →
      exec (.role c d .lost r p) s = .next (s.ended (endWaits g (fun q => decide (q.wait = Wait.role r p)) 0x50 0))) ∧
    (∀ r q n u, h.ident.admitted = true → r ≤ 1 → roleHolder h r = some q → q ≠ h.ident.position →
      (memberAt h q).st = MemberSt.member → u = { h with tb := { h.tb with now := max h.tb.now ((memberAt h q).lastSeen + 3000000) } } →
      n < 256 → presentMember u n = true → (∀ k, k < n → presentMember u k = false) → n ≠ q →
      exec (.roleSuccession r) s = .next (s.ended (setHolder u r n))) ∧
    (∀ r q n, h.ident.admitted = true → r ≤ 1 → roleHolder h r = some q → presentMember h q = false →
      ((q ≠ h.ident.position ∧ ((memberAt h q).st = MemberSt.none ∨ (memberAt h q).st = MemberSt.fenced)) ∨ q = h.ident.position) →
      n < 256 → presentMember h n = true → (∀ k, k < n → presentMember h k = false) →
      exec (.roleSuccession r) s = .next (s.ended (setHolder h r n))) ∧
    (∀ num at_ es, Taken h c 0x11 .broadcast ([num, c.origin, at_] ++ es.flatMap (fun e => [e.1, e.2])) g → fromMember g c = true →
      exec (.route c num at_ es) s = .next (s.withHw (stepEnd
        { g with arch := { g.arch with nextPlan := some { num := num, root := c.origin, edges := es, at_ := at_ } } }))) ∧
    (∀ q u, h.arch.nextPlan = some q → u = { h with tb := { h.tb with now := max h.tb.now q.at_ } } →
      exec .routeActivation s = .next (s.ended (routeWaiting
        { u with arch := { u.arch with prevPlan := some (u.arch.plan, q.at_ + 10000000), plan := q, nextPlan := none } }))) ∧
    (h.arch.nextPlan = none → exec .routeActivation s = .next (s.withHw h)) ∧
    (∀ n, Taken h c 0x12 .broadcast [n, 1] g → fromMember g c = true →
      exec (.set c n true) s = .next (s.ended (routeWaiting (syncStreams
        { g with arch := { g.arch with others := g.arch.others.filter (fun e => e ≠ (c.origin, n)) ++ [(c.origin, n)] } })))) ∧
    (∀ n, Taken h c 0x12 .broadcast [n, 0] g → fromMember g c = true →
      exec (.set c n false) s = .next (s.ended (routeWaiting (syncStreams
        { g with arch := { g.arch with others := g.arch.others.filter (fun e => e ≠ (c.origin, n)) } }))))

/-- The census, the power pool's frames between packages, and WAKE. For every state: CENSUS_REQ of a member opens a census whose sample is
due at T_s, samples at once with LATE set if T_s has passed, and is answered BUSY beyond four open; at T_s the package samples and returns
the entry of Table 20.8 as a directed CENSUS_DATA frame, or enters it itself at the initiator; an entry that arrives is kept under its
sender, RESENT where its frame was, and a BREAK marker among at most eight; the census completes when every member at T_s has an entry or is
cut off, otherwise at T_s + 10 ms; POOL_TELEMETRY of a member adds its frame to the epoch; POOL_GRANT at a package of the set that takes
part adds a lease that ends at the issue instant plus 4 ms, and one that is late or of another set changes nothing; WAKE of a package that
is not Dormant changes nothing, and of a Dormant one goes as DORMANT_EXIT, to Active with a report
and READY where its memories retrain and its image verifies. -/
def Obligations.CensusAndPoolRows : Prop :=
  ∀ (s : State) (h g : Hw) (c : Cw), h = clearSent s.hw →
    (∀ q ts, Taken h c 0x13 .broadcast [c.origin, q, ts] g → fromMember g c = true → (g.arch.censuses.filter (censusOpen g)).length < 4 →
      g.tb.now ≤ ts → exec (.censusReq c q ts) s = .next (s.ended { g with
        arch := { g.arch with
        censuses := g.arch.censuses.filter (fun x => !decide (x.initiator = c.origin ∧ x.seq = q)) ++ [{ initiator := c.origin, seq := q, ts := ts }] } })) ∧
    (∀ q ts, Taken h c 0x13 .broadcast [c.origin, q, ts] g → fromMember g c = true → 4 ≤ (g.arch.censuses.filter (censusOpen g)).length →
      c.origin ≠ g.ident.position → exec (.censusReq c q ts) s =
        .next (s.ended (direct g 0x14 c.origin [q, 0, leNat (censusEntry g c.origin 3 false g.tb.now)]))) ∧
    (∀ q ts u, Taken h c 0x13 .broadcast [c.origin, q, ts] g → fromMember g c = true → (g.arch.censuses.filter (censusOpen g)).length < 4 →
      ts < g.tb.now → u = { g with
        arch := { g.arch with
        censuses := g.arch.censuses.filter (fun x => !decide (x.initiator = c.origin ∧ x.seq = q)) ++ [{ initiator := c.origin, seq := q, ts := ts }] } } →
      exec (.censusReq c q ts) s = .next (s.ended (takeSample u { initiator := c.origin, seq := q, ts := ts } true))) ∧
    (∀ i q x u e v, findCensus h i q = some x → x.sampled = false → x.initiator = i → i ≠ h.ident.position →
      u = { h with tb := { h.tb with now := max h.tb.now x.ts } } → e = censusEntry u i 0 false u.tb.now →
      v = setCensus u { x with
                               sampled := true, mine := leNat e, late := false,
                               members := (u.arch.members.filter (fun m => decide (m.2.st ≠ MemberSt.none))).map (·.1) } →
      exec (.censusSample i q) s = .next (s.ended (direct v 0x14 i [x.seq, 0, leNat e]))) ∧
    (∀ i q x, findCensus h i q = some x → x.sampled = true → exec (.censusSample i q) s = .next (s.withHw h)) ∧
    (∀ d q e x, Taken h c 0x14 (.directed d) [q, 0, leNat e] g → findCensus g g.ident.position q = some x → x.done = false →
      fromMember g c = true → c.resent = false → exec (.censusData c d q none e) s =
        .next (s.ended (setCensus g { x with entries := tabPut 0 x.entries c.origin (leNat (e.take 32) + 1) }))) ∧
    (∀ d q p e x, Taken h c 0x14 (.directed d) [q, 1, p] g → findCensus g g.ident.position q = some x → x.done = false →
      fromMember g c = true → x.marks.length < 8 → exec (.censusData c d q (some p) e) s =
        .next (s.ended (setCensus g { x with marks := x.marks ++ [(p, p + 1)] }))) ∧
    (∀ q x, findCensus h h.ident.position q = some x → x.done = false → x.sampled = true →
      (∀ k, k ∈ x.members → tabGet 0 x.entries k ≠ 0 ∨ cutOff x (memberAt h k).ringEast = true) → exec (.censusComplete q) s =
        .next (s.ended (endWaits (setCensus h { x with done := true }) (fun r => decide (r.wait = Wait.census q)) 0 0))) ∧
    (∀ q x k u, findCensus h h.ident.position q = some x → x.done = false → x.sampled = true → k ∈ x.members → tabGet 0 x.entries k = 0 →
      cutOff x (memberAt h k).ringEast = false → u = { h with tb := { h.tb with now := max h.tb.now (x.ts + 10000000) } } →
      exec (.censusComplete q) s =
        .next (s.ended (endWaits (setCensus u { x with done := true }) (fun r => decide (r.wait = Wait.census q)) 0 0))) ∧
    (∀ n looms w a, Taken h c 0x15 .broadcast ([n, looms, a.length, w] ++ a.flatMap (fun e => [e.1, e.2])) g → fromMember g c = true →
      g.power.epochRun = false → (∀ f, f ∈ g.power.frames → f.position ≠ c.origin) → exec (.poolTelemetry c n looms w a) s =
        .next (s.ended { g with
          power := { g.power with
          frames := g.power.frames ++ [{ position := c.origin, set := n, waitTotal := w, looms := looms, awaited := a.take 8 }] } })) ∧
    (∀ d n w t, Taken h c 0x16 (.directed d) [d, n, w, t] g → fromMember g c = true → takesPart g = true → n = g.power.poolSet →
      g.tb.now < t + 4000000 → exec (.poolGrant c d n w t) s =
        .next (s.ended { g with power := { g.power with ins := g.power.ins ++ [{ watts := w, ends := t + 4000000 }] } })) ∧
    (∀ d n w t, Taken h c 0x16 (.directed d) [d, n, w, t] g → (takesPart g = false ∨ n ≠ g.power.poolSet ∨ t + 4000000 ≤ g.tb.now) →
      exec (.poolGrant c d n w t) s = .next (s.ended g)) ∧
    (∀ t w, Taken h c 0x17 (.directed t) [t] g → g.start.st ≠ PowerSt.dormant → exec (.wake c t w) s = .next (s.ended g)) ∧
    (∀ t w, Taken h c 0x17 (.directed t) [t] g → g.start.st = PowerSt.dormant → g.start.image = some g.keep.sealKey →
      w.image = true → w.fails = [] → Completes (.wake c t w) s (fun t => t.hw.start.st = PowerSt.active ∧ t.hw.start.image = none ∧
        t.hw.memhw.selfRefresh = pkgFenced g ∧ t.hw.efano.ready = true ∧ t.hw.start.wakeSeq = g.start.wakeSeq + 1 ∧ t.mem = s.mem)) ∧
    (∀ t w, Taken h c 0x17 (.directed t) [t] g → g.start.st = PowerSt.dormant →
      exec (.wake c t w) s = .next (s.ended (dormantExit g .causeway w)))

/-- Training, link keys, flits and replay, going down, retraining and generations of an Idurrum link. For every state and port: LINK_TRAINED
of a port in TRAINING holds what the peer said, and the end of the lower Position ID is its steward; a key exchange that passes between
two members of one archipelago makes the link ACTIVE under a new key, every stream with key before it one generation on from counter zero,
and one that fails leaves it TRAINED with LINK_KEY_FAIL; a flit in SEQ order is acknowledged and any other answered by a NAK naming the
SEQ expected; ACK frees what it covers; NAK frees what is before it and counts a try of the rest, and of one tried three times sends the
link to RETRAINING with its replay buffer kept; RETRAIN_COMPLETE resumes replay; a link goes DOWN 100 ms after it began to retrain, or at
once with the peer's FENCE, and its membership is fenced by LINK_LOST where unacknowledged flits carry messages, or LINK_DOWN is recorded;
a DOWN link is retrained 1 s later; GENERATION_CHANGE announces the next generation. -/
def Obligations.LinkRows : Prop :=
  ∀ (s : State) (h : Hw) (n : Nat) (l : Link), h = clearSent s.hw → l = linkAt h n →
    (∀ q tag arch, l.st = LinkSt.training → n < portCount h → exec (.linkTrained n q tag arch) s = .next (s.ended (linkSettled
      (setLink h n {
                     st := .trained, since := h.tb.now, peer := q, peerTag := tag, peerArch := arch,
                     steward := decide (h.ident.position < q) }) n))) ∧
    (∀ q tag arch, l.st ≠ LinkSt.training → exec (.linkTrained n q tag arch) s = .next (s.withHw h)) ∧
    (∀ u, (l.st = LinkSt.trained ∨ l.st = LinkSt.active) → isMember h h.ident.position = true → isMember h l.peer = true →
      l.peerArch = h.arch.archId → (memberAt h l.peer).tag = l.peerTag → memberFenced h = false → pkgFenced h = false →
      u = {
        setLink h n { l with
        st := .active, since := if l.st = LinkSt.active then l.since else h.tb.now, key := h.free + 1, keyAt := h.tb.now,
        streams := tabMap {} l.streams (fun _ x =>
          { x with gen := if l.key = 0 then x.gen else (x.gen + 1) % 128, counter := 0, sent := 0, nextGen := none }) } with free := h.free + 1 } →
      exec (.linkKeyExchange n true) s = .next (s.ended (linkSettled (routeWaiting (syncStreams u)) n))) ∧
    ((l.st = LinkSt.trained ∨ l.st = LinkSt.active) → isMember h h.ident.position = true → isMember h l.peer = true →
      l.peerArch = h.arch.archId → (memberAt h l.peer).tag = l.peerTag → memberFenced h = false → pkgFenced h = false →
      exec (.linkKeyExchange n false) s = .next (s.ended (linkSettled (recordWrite
        (setLink h n { l with st := .trained, key := 0, keyAt := h.tb.now }) { type := 0x0908, unitKind := 12, unit := n }) n))) ∧
    ((l.st = LinkSt.active ∨ l.st = LinkSt.trained) →
      exec (.flit n l.rx true) s = .next (s.ended (setLink h n { l with rx := (l.rx + 1) % 4096, answers := [(2, l.rx)] }))) ∧
    (∀ q ok, (l.st = LinkSt.active ∨ l.st = LinkSt.trained) → (ok = false ∨ q ≠ l.rx) →
      exec (.flit n q ok) s = .next (s.ended (setLink h n { l with answers := [(3, l.rx)] }))) ∧
    (∀ q, exec (.ack n q) s = .next (s.ended (routeWaiting
      (setLink h n { l with replay := l.replay.filter (fun f => seqBefore q f.seq) })))) ∧
    (∀ q k, l.st = LinkSt.active → k = l.replay.filter (fun f => !seqBefore f.seq q) → (∀ f, f ∈ k → f.tries < 3) →
      exec (.nak n q) s = .next (s.ended (setLink h n { l with replay := k.map (fun f => { f with tries := f.tries + 1 }) }))) ∧
    (∀ q k f, l.st = LinkSt.active → k = l.replay.filter (fun f => !seqBefore f.seq q) → f ∈ k → 3 ≤ f.tries →
      exec (.nak n q) s = .next (s.ended (setLink h n { l with replay := k, st := .retraining, since := h.tb.now }))) ∧
    (l.st = LinkSt.retraining → exec (.retrainComplete n) s = .next (s.ended (linkSettled (routeWaiting (setLink h n
      { l with st := .active, since := h.tb.now, replay := l.replay.map (fun f => { f with tries := 0 }) })) n))) ∧
    (∀ u, (l.st = LinkSt.retraining ∨ l.st = LinkSt.training) → (∀ f, f ∈ l.replay → f.message = false) →
      u = { h with tb := { h.tb with now := max h.tb.now (l.since + 100000000) } } →
      exec (.linkDown n) s = .next (s.ended (linkSettled (recordWrite
        (setLink u n { l with st := .down, since := u.tb.now, replay := [], key := 0, streams := [] })
        { type := 0x0907, cls := 1, unitKind := 12, unit := n, arg0 := l.peer }) n))) ∧
    (∀ k, (l.st = LinkSt.trained ∨ l.st = LinkSt.active ∨ l.st = LinkSt.retraining) → k = (l.replay.filter (·.message)).length → k ≠ 0 →
      h.ident.admitted = true → exec (.fenceOrderedSet n) s = .next (s.ended (linkSettled (memberDoubt
        (setLink h n { l with st := .down, since := h.tb.now, replay := [], key := 0, streams := [] }) 12 n 0x090A k 0) n))) ∧
    (∀ u, l.st = LinkSt.down → l.off = false → u = { h with tb := { h.tb with now := max h.tb.now (l.since + 1000000000) } } →
      exec (.linkRetrainAttempt n) s = .next (s.ended (setLink u n { l with st := .training, since := u.tb.now }))) ∧
    (∀ k x, l.st = LinkSt.active → x = tabGet {} l.streams k → x.used = true → exec (.generationChange n k) s = .next (s.withHw
      (setLink h n { l with streams := tabPut {} l.streams k { x with nextGen := some ((x.gen + 1) % 128), sent := 0 } })))

/-- A segment of a stream: link integrity doubts, messages to this package and messages in transit. For every state, port and segment of a
stream in use on an ACTIVE link: a tag that fails, a counter of the present generation that has come before, and a generation no peer has
announced each fence the membership with LINK_AUTH_FAIL, and nothing of the segment is served; otherwise the stream's counter goes past
the segment's, an announced generation is entered, and its messages are served one after another: a message for another package is posted
again unchanged for routing; a message for this package ends Idle or Drowse, and then: a request of a package not among the MEMBERS of the
binding is refused with status HALTED; a request of the set goes to the home under the bound partition; a snoop answers for the copy held;
RSP is taken at the home as a snooped package's answer, and so is DAT, but DAT of a write that was granted is written; CMP ends what this
package's own request waited for. -/
def Obligations.SegmentRow : Prop :=
  ∀ (s : State) (h : Hw) (n k gen ctr : Nat) (l : Link) (x : Stream) (ms : List Msg), h = clearSent s.hw → l = linkAt h n →
    x = tabGet {} l.streams k →
    ((l.st ≠ LinkSt.active ∨ x.used = false) → ∀ ok, exec (.segment n k gen ctr ok ms) s = .next (s.withHw h)) ∧
    (∀ ok, l.st = LinkSt.active → x.used = true → (ok = false ∨ (gen = x.gen ∧ ctr < x.counter) ∨ (gen ≠ x.gen ∧ x.nextGen ≠ some gen)) →
      exec (.segment n k gen ctr ok ms) s = .next (s.ended (memberDoubt h 12 n 0x0909 k 0))) ∧
    (∀ y o, l.st = LinkSt.active → x.used = true → gen = x.gen → x.counter ≤ ctr → y = { x with counter := ctr + 1 } →
      o = takeMsgs (setLink h n { l with streams := tabPut {} l.streams k y }, s.mem) x.set ms →
      exec (.segment n k gen ctr true ms) s = .next (s.withHm (stepEnd (recallsDone o.1), o.2))) ∧
    (∀ y o, l.st = LinkSt.active → x.used = true → gen ≠ x.gen → x.nextGen = some gen →
      y = { x with gen := gen, counter := ctr + 1, nextGen := none } →
      o = takeMsgs (setLink h n { l with streams := tabPut {} l.streams k y }, s.mem) x.set ms →
      exec (.segment n k gen ctr true ms) s = .next (s.withHm (stepEnd (recallsDone o.1), o.2))) ∧
    (∀ g mem (m : Msg), m.dst ≠ g.ident.position →
      takeMsgs (g, mem) k [m] = ({ g with arch := { g.arch with posted := g.arch.posted ++ [{ set := k, own := false, msg := m }] } }, mem)) ∧
    (∀ g mem (m : Msg) v, m.dst = g.ident.position → v = stir g →
      (m.cls = .req → (∀ e, e ∈ v.arch.sets → e.2.used = true → e.2.set = k → bitOf e.2.members m.src = false) →
        takeMsgs (g, mem) k [m] = (postMsg v k { cls := .cmp, op := 3, status := 0x09, dst := m.src, txn := m.txn, addr := m.addr }, mem)) ∧
      (∀ p q, m.cls = .req → setPartFor v k m.src = some p → m.op ≠ 9 → reqOf m.op = some q →
        takeMsgs (g, mem) k [m] = remoteReq (v, mem) p m q) ∧
      (m.cls = .snp → takeMsgs (g, mem) k [m] = (remoteSnoop v k m, mem)) ∧
      ((m.cls = .rsp ∨ (m.cls = .dat ∧ awaitsDat v m = false)) → takeMsgs (g, mem) k [m] = snoopAnswer (v, mem) m.src m) ∧
      (m.cls = .dat → awaitsDat v m = true → takeMsgs (g, mem) k [m] = writeDat (v, mem) m) ∧
      (m.cls = .cmp → takeMsgs (g, mem) k [m] = (writeAnswered v m, mem)))

/-- PORT_STATUS, PORT_CONFIG, SLOT_CONTROL, HDM_DECODER_SET, DEV_ASSIGN, DEV_REPORT_GET and DEV_ACCEPT. For every state and served command:
PORT_STATUS answers Table 24.11's entry of each of the 32 ports; PORT_CONFIG refuses a port that is absent, a BASE over its LIMIT, a LIMIT
past 0xFFFF00, a window that meets another port's of its die, and a timeout outside 1 to 64 ms, is BUSY while a swatch of the old window is
held, and sets the timeout, the KEEPER bits or a first window where SET names that alone; SLOT_CONTROL refuses a port that is no slot, is
BUSY while a tenant's function is behind it where power is to go off, and otherwise takes power away, and lets a slot that is off or
faulted go on; HDM_DECODER_SET refuses a decoder number past Table 24.11 and clears a decoder where no swatch is held; DEV_ASSIGN of a free
function refuses a port that is not up or is contained and a device without TDISP, and otherwise, the device having no BAR, resets the
function, locks it under the first stream where that is free and gives it to the tenant; DEV_REPORT_GET answers the device's report with
the nonce; DEV_ACCEPT takes a LOCKED interface of the tenant to RUN, and one that is not LOCKED is refused. -/
def Obligations.PortAndDeviceCommands : Prop :=
  ∀ (s : State) (h : Hw) (m : Mbx) (tag : Nat) (r : Req), h = clearSent s.hw →
    (Serving s m tag 0x0C01 r → exec (.portStatus m tag) s = .next (s.ended (finalResp h m r 0 0
      ((List.range 32).flatMap (fun n => portBytes (portAt h n)))))) ∧
    (∀ n x, Serving s m tag 0x0C02 r → n = leAt r.payload 0 1 → x = portAt h n → (32 ≤ n ∨ x.exists_ = false) →
      exec (.portConfig m tag) s = .next (s.ended (finalResp h m r 0x20 0 []))) ∧
    (∀ n x, Serving s m tag 0x0C02 r → n = leAt r.payload 0 1 → x = portAt h n → n < 32 → x.exists_ = true → bitOf (leAt r.payload 1 1) 0 = true →
      (leAt r.payload 12 4 < leAt r.payload 8 4 ∨ 0xFFFF00 < leAt r.payload 12 4) →
      exec (.portConfig m tag) s = .next (s.ended (finalResp h m r 0x20 0 []))) ∧
    (∀ n x k y, Serving s m tag 0x0C02 r → n = leAt r.payload 0 1 → x = portAt h n → n < 32 → x.exists_ = true → bitOf (leAt r.payload 1 1) 0 = true →
      k < 32 → k / 16 = n / 16 → k ≠ n → y = portAt h k → y.base < leAt r.payload 12 4 → leAt r.payload 8 4 < y.limit → y.base < y.limit →
      leAt r.payload 8 4 < leAt r.payload 12 4 → exec (.portConfig m tag) s = .next (s.ended (finalResp h m r 0x20 0 []))) ∧
    (∀ n x, Serving s m tag 0x0C02 r → n = leAt r.payload 0 1 → x = portAt h n → n < 32 → x.exists_ = true → leAt r.payload 1 1 = 2 →
      (leAt r.payload 3 1 = 0 ∨ 64 < leAt r.payload 3 1) → exec (.portConfig m tag) s = .next (s.ended (finalResp h m r 0x20 0 []))) ∧
    (∀ n x, Serving s m tag 0x0C02 r → n = leAt r.payload 0 1 → x = portAt h n → n < 32 → x.exists_ = true → leAt r.payload 1 1 = 1 →
      leAt r.payload 8 4 = leAt r.payload 12 4 → leAt r.payload 12 4 ≤ 0xFFFF00 → x.base < x.limit → leAt r.payload 8 4 ≠ x.base →
      rangeHeld h ((4 + n / 16) * 2 ^ 48 + x.base * 2 ^ 20) ((4 + n / 16) * 2 ^ 48 + x.limit * 2 ^ 20) = true →
      exec (.portConfig m tag) s = .next (s.ended (finalResp h m r 0x11 0 []))) ∧
    (∀ n x, Serving s m tag 0x0C02 r → n = leAt r.payload 0 1 → x = portAt h n → n < 32 → x.exists_ = true → leAt r.payload 1 1 = 2 →
      1 ≤ leAt r.payload 3 1 → leAt r.payload 3 1 ≤ 64 →
      exec (.portConfig m tag) s = .next (s.ended (doneCommand h (setPort h n { x with timeoutMs := leAt r.payload 3 1 }) m r []))) ∧
    (∀ n x, Serving s m tag 0x0C02 r → n = leAt r.payload 0 1 → x = portAt h n → n < 32 → x.exists_ = true → leAt r.payload 1 1 = 8 →
      exec (.portConfig m tag) s = .next (s.ended (doneCommand h (setPort h n { x with keeper := leAt r.payload 16 4 }) m r []))) ∧
    (∀ n x b l, Serving s m tag 0x0C02 r → n = leAt r.payload 0 1 → x = portAt h n → n < 32 → x.exists_ = true → leAt r.payload 1 1 = 1 →
      b = leAt r.payload 8 4 → l = leAt r.payload 12 4 → b < l → l ≤ 0xFFFF00 → x.limit ≤ x.base →
      (∀ i, i < 16 → i + n / 16 * 16 ≠ n → (portAt h (i + n / 16 * 16)).limit ≤ (portAt h (i + n / 16 * 16)).base) →
      exec (.portConfig m tag) s = .next (s.ended (doneCommand h (setPort h n { x with base := b, limit := l }) m r []))) ∧
    (∀ n x, Serving s m tag 0x0C03 r → n = leAt r.payload 0 1 → x = portAt h n → (32 ≤ n ∨ x.exists_ = false ∨ x.isSlot = false) →
      exec (.slotControl m tag) s = .next (s.ended (finalResp h m r 0x20 0x100 []))) ∧
    (∀ n x, Serving s m tag 0x0C03 r → n = leAt r.payload 0 1 → x = portAt h n → n < 32 → x.exists_ = true → x.isSlot = true →
      leAt r.payload 1 1 = 0 → (funcsOn h n).any (tenantFunc h) = true → exec (.slotControl m tag) s = .next (s.ended (finalResp h m r 0x11 0 []))) ∧
    (∀ n x u, Serving s m tag 0x0C03 r → n = leAt r.payload 0 1 → x = portAt h n → n < 32 → x.exists_ = true → x.isSlot = true →
      leAt r.payload 1 1 = 0 → (funcsOn h n).any (tenantFunc h) = false → u = slotPowerOff h n → (x.cxl = false ∨ x.up = false) → exec (.slotControl m tag) s = .next (s.withHw
        (doneCommand h (setPort u n { portAt u n with held := true, slot := if x.slot = SlotSt.empty then .empty else .off }) m r []))) ∧
    (∀ n x, Serving s m tag 0x0C03 r → n = leAt r.payload 0 1 → x = portAt h n → n < 32 → x.exists_ = true → x.isSlot = true →
      leAt r.payload 1 1 ≠ 0 → (x.slot = SlotSt.off ∨ x.slot = SlotSt.faulted) → exec (.slotControl m tag) s =
        .next (s.ended (doneCommand h (setPort h n { x with held := false, slot := .debounced, slotAt := h.tb.now }) m r []))) ∧
    (Serving s m tag 0x0C05 r → (1 < leAt r.payload 0 1 ∨ 15 < leAt r.payload 1 1) →
      exec (.hdmDecoderSet m tag) s = .next (s.ended (finalResp h m r 0x20 0 []))) ∧
    (∀ k, Serving s m tag 0x0C05 r → leAt r.payload 0 1 ≤ 1 → leAt r.payload 1 1 ≤ 15 → leAt r.payload 2 1 = 0 →
      k = leAt r.payload 0 1 * 16 + leAt r.payload 1 1 → h.sel.ranges = [] → exec (.hdmDecoderSet m tag) s =
        .next (s.ended (doneCommand h { h with edges := { h.edges with decoders := tabPut {} h.edges.decoders k {} } } m r []))) ∧
    (∀ dev p, Serving s m tag 0x0C04 r → p = leAt r.payload 4 1 → p ≠ 0 → partCheck h .steward p = none →
      (unitAt h 9 (leAt r.payload 0 4)).state = UnitState.free → ((portAt h dev.port).up = false ∨ (portAt h dev.port).contained = true) →
      exec (.devAssign m tag dev) s = .next (s.ended (finalResp h m r 0x20 0x100 []))) ∧
    (∀ dev p, Serving s m tag 0x0C04 r → p = leAt r.payload 4 1 → p ≠ 0 → partCheck h .steward p = none →
      (unitAt h 9 (leAt r.payload 0 4)).state = UnitState.free → (portAt h dev.port).up = true → (portAt h dev.port).contained = false →
      field (leAt r.payload 0 4) 16 16 = dev.port / 16 → dev.tdisp = false →
      exec (.devAssign m tag dev) s = .next (s.ended (finalResp h m r 0x20 0x101 []))) ∧
    (∀ dev p f x u, Serving s m tag 0x0C04 r → f = leAt r.payload 0 4 → p = leAt r.payload 4 1 → p ≠ 0 → partCheck h .steward p = none →
      (unitAt h 9 f).state = UnitState.free → (portAt h dev.port).up = true → (portAt h dev.port).contained = false →
      field f 16 16 = dev.port / 16 → dev.tdisp = true → dev.bars = [] → tooManyRanges h.sel.ranges = false → x = funcAt h f →
      0 ∉ streamsUsed h dev.port f → u = setUnit (setFunc h f {
        port := dev.port, tdisp := .locked, ide := 1, stream := 0, keys := x.keys + 1,
        resets := x.resets + 1, bars := [] }) 9 f { owner := p, state := .owned } →
      exec (.devAssign m tag dev) s = .next (s.ended (doneCommand h u m r []))) ∧
    (∀ rep meas f x, Serving s m tag 0x0202 r → f = leAt r.payload 0 4 → x = funcAt h f →
      (m = .steward ∨ m = .keeper ∨ ∃ p, m = .part p ∧ (unitAt h 9 f).owner = p) → devThere h f = true →
      exec (.devReportGet m tag rep meas) s = .next (s.ended (finalResp h m r 0 0 (leBytes 1 (tdispCode x.tdisp) ++ leBytes 1 x.ide ++ zeros 2 ++
        leBytes 4 rep.length ++ leBytes 4 meas.length ++ zeros 4 ++ (r.payload.drop 8).take 32 ++ rep ++ meas)))) ∧
    (∀ f x, Serving s m tag 0x0203 r → f = leAt r.payload 0 4 → x = funcAt h f → (unitAt h 9 f).owner = actsFor m → devThere h f = true →
      x.tdisp = Tdisp.locked → exec (.devAccept m tag) s = .next (s.ended (doneCommand h (setFunc h f { x with tdisp := .run }) m r []))) ∧
    (∀ f x, Serving s m tag 0x0203 r → f = leAt r.payload 0 4 → x = funcAt h f → (unitAt h 9 f).owner = actsFor m → devThere h f = true →
      x.tdisp ≠ Tdisp.locked → exec (.devAccept m tag) s = .next (s.ended (finalResp h m r 0x20 0x100 [])))

/-- PIN_SET, the four steps of switching a pin, PIN_STATUS and the events of general pins. For every state: PIN_SET refuses a pin past 31, a
locked pin, a function past 0x0D and an argument outside Table 21.6, is BUSY while the pin switches, gives a GPIO pin it names with its
present function and argument its new value at once, leaves another such pin as it is, and otherwise begins the switch: step 1 waits for a
transaction or pulse in progress, step 2 holds the level 4 us; BUS_IDLE ends a transaction, a pulse 100 us after it rose; PIN_FORCED goes on
after 1 ms with PIN_FORCED recorded, for SMBus functions only; NEUTRAL_WINDOW_OPEN turns the driver off and the new pull, or the board's
level, shows; PIN_SWITCH_WINDOW_END 5 us later gives the pin its new function at its idle level and PIN_SET completes; TIME_PULSE rises at
the next multiple of PERIOD; IRQ_IN shows the pad's level and delivers an assertion once, to the file its source is configured for, if the
hart is of the source's partition (log entry 83), and an internal wired source goes the same way; WAKE_N of a WAKE pin low for 1 ms ends
Dormant as DORMANT_EXIT does and leaves a package in another state there; PIN_STATUS answers every pin. Each of these events on a pin in
another step or function changes nothing. -/
def Obligations.PinCommandsAndRows : Prop :=
  ∀ (s : State) (h : Hw) (m : Mbx) (tag : Nat) (r : Req) (n : Nat) (p : Pin), h = clearSent s.hw → p = pinAt h n →
    (Serving s m tag 0x0C07 r → exec (.pinStatus m tag) s = .next (s.ended (finalResp h m r 0 0 ((List.range 32).flatMap (fun k =>
      leBytes 1 (pinAt h k).fn ++ leBytes 1 (flag (pinAt h k).level) ++ leBytes 1 (flag (pinAt h k).locked) ++ zeros 1 ++ leBytes 4 (pinAt h k).arg))))) ∧
    (∀ b, Serving s m tag 0x0C06 r → leAt r.payload 0 1 = n →
      (32 ≤ n → exec (.pinSet m tag b) s = .next (s.ended (finalResp h m r 0x20 0 []))) ∧
      (n < 32 → p.locked = true → exec (.pinSet m tag b) s = .next (s.ended (finalResp h m r 0x20 0x100 []))) ∧
      (n < 32 → p.locked = false → 0x0E ≤ leAt r.payload 1 1 → exec (.pinSet m tag b) s = .next (s.ended (finalResp h m r 0x20 0x101 []))) ∧
      (n < 32 → p.locked = false → leAt r.payload 1 1 < 0x0E → p.step ≠ 0 → exec (.pinSet m tag b) s = .next (s.ended (finalResp h m r 0x11 0 []))) ∧
      (n < 32 → p.locked = false → p.step = 0 → leAt r.payload 1 1 < 0x0E →
        pinArgOk (leAt r.payload 1 1) (leAt r.payload 2 1) (leAt r.payload 4 4) = false →
        exec (.pinSet m tag b) s = .next (s.ended (finalResp h m r 0x20 0 []))) ∧
      (n < 32 → p.locked = false → p.step = 0 → p.fn = 2 → leAt r.payload 1 1 = 2 → leAt r.payload 2 1 ≤ 1 → leAt r.payload 4 4 = p.arg →
        exec (.pinSet m tag b) s = .next (s.ended (doneCommand h (setPin h n
          { p with value := leAt r.payload 2 1, level := decide (leAt r.payload 2 1 % 2 = 1) }) m r []))) ∧
      (n < 32 → p.locked = false → p.step = 0 → p.fn = 1 → leAt r.payload 1 1 = 1 → leAt r.payload 2 1 ≤ 2 → leAt r.payload 4 4 = p.arg →
        exec (.pinSet m tag b) s = .next (s.ended (doneCommand h (setPin h n
          { p with value := leAt r.payload 2 1, level := pinIdle 1 (leAt r.payload 2 1) p.level }) m r []))) ∧
      (n < 32 → p.locked = false → p.step = 0 → leAt r.payload 1 1 = p.fn → p.fn < 0x0E → p.fn ≠ 1 → p.fn ≠ 2 → leAt r.payload 4 4 = p.arg →
        pinArgOk p.fn (leAt r.payload 2 1) p.arg = true → exec (.pinSet m tag b) s = .next (s.ended (doneCommand h h m r []))) ∧
      (∀ k, n < 32 → p.locked = false → p.step = 0 → leAt r.payload 1 1 < 0x0E →
        (leAt r.payload 1 1 ≠ p.fn ∨ leAt r.payload 4 4 ≠ p.arg) → pinArgOk (leAt r.payload 1 1) (leAt r.payload 2 1) (leAt r.payload 4 4) = true → k = { p with
          newFn := leAt r.payload 1 1, newVal := leAt r.payload 2 1, newArg := leAt r.payload 4 4, since := h.tb.now } →
        ((p.busy || (b && decide (p.fn = 0x0B ∨ p.fn = 0x0C ∨ p.fn = 0x0D))) = true → exec (.pinSet m tag b) s = .next (s.withHw
          (waitCommand h (setPin h n { k with busy := true, step := 1 }) m r (.pin n) []))) ∧
        ((p.busy || (b && decide (p.fn = 0x0B ∨ p.fn = 0x0C ∨ p.fn = 0x0D))) = false → exec (.pinSet m tag b) s = .next (s.withHw
          (waitCommand h (setPin h n { k with busy := false, step := 2 }) m r (.pin n) []))))) ∧
    (p.busy = true → p.fn ≠ 5 → p.step = 1 →
      exec (.busIdle n) s = .next (s.ended (setPin h n { p with busy := false, step := 2, since := h.tb.now }))) ∧
    (∀ u, p.busy = true → p.fn = 5 → p.step ≠ 1 → u = { h with tb := { h.tb with now := max h.tb.now (p.pulse + 100000) } } →
      exec (.busIdle n) s = .next (s.ended (setPin u n { p with busy := false, level := false }))) ∧
    (∀ u, p.busy = true → p.fn = 5 → p.step = 1 → u = { h with tb := { h.tb with now := max h.tb.now (p.pulse + 100000) } } →
      exec (.busIdle n) s = .next (s.ended (setPin u n { p with busy := false, level := false, step := 2, since := u.tb.now }))) ∧
    (p.busy = true → p.fn ≠ 5 → p.step ≠ 1 → exec (.busIdle n) s = .next (s.ended (setPin h n { p with busy := false }))) ∧
    (p.busy = false → exec (.busIdle n) s = .next (s.ended h)) ∧
    ((p.step ≠ 1 ∨ p.busy = false ∨ (p.fn ≠ 0x0B ∧ p.fn ≠ 0x0C ∧ p.fn ≠ 0x0D)) → exec (.pinForced n) s = .next (s.ended h)) ∧
    (∀ e, p.step ≠ 2 → exec (.neutralWindowOpen n e) s = .next (s.ended h)) ∧
    (p.step ≠ 3 → exec (.pinSwitchWindowEnd n) s = .next (s.ended h)) ∧
    (∀ u, p.step = 1 → p.busy = true → (p.fn = 0x0B ∨ p.fn = 0x0C ∨ p.fn = 0x0D) →
      u = { h with tb := { h.tb with now := max h.tb.now (p.since + 1000000) } } → exec (.pinForced n) s = .next (s.withHw (stepEnd
        (recordWrite (setPin u n { p with busy := false, step := 2, since := u.tb.now }) { type := 0x0A08, cls := 0, part := 0xFF, arg0 := n, arg1 := p.fn })))) ∧
    (∀ u e, p.step = 2 → u = { h with tb := { h.tb with now := max h.tb.now (p.since + 4000) } } → exec (.neutralWindowOpen n (some e)) s =
      .next (s.ended (setPin u n { p with step := 3, since := u.tb.now, asserted := false, level := e }))) ∧
    (∀ u, p.step = 2 → u = { h with tb := { h.tb with now := max h.tb.now (p.since + 4000) } } → exec (.neutralWindowOpen n none) s =
      .next (s.ended (setPin u n { p with step := 3, since := u.tb.now, asserted := false, level := pinPull p.newFn p.newVal p.level }))) ∧
    (∀ u k, p.step = 3 → u = { h with tb := { h.tb with now := max h.tb.now (p.since + 5000) } } →
      k = {
        fn := p.newFn, value := p.newVal, arg := p.newArg, locked := p.locked, fired := p.fired,
        level := if pinDrives p.newFn then pinIdle p.newFn p.newVal p.level else p.level } → exec (.pinSwitchWindowEnd n) s =
      .next (s.ended (endWaits (setPin u n k) (fun q => decide (q.wait = Wait.pin n)) 0 0))) ∧
    (∀ t u, p.fn = 5 → p.step = 0 → p.busy = false → p.arg ≠ 0 → t = (h.tb.now / p.arg + 1) * p.arg →
      u = { h with tb := { h.tb with now := max h.tb.now t } } →
      exec (.timePulse n) s = .next (s.ended (setPin u n { p with level := true, busy := true, pulse := t, fired := p.fired + 1 }))) ∧
    ((p.step ≠ 0 ∨ p.fn ≠ 5 ∨ p.busy = true ∨ p.arg = 0) → exec (.timePulse n) s = .next (s.ended h)) ∧
    (∀ l a, p.fn = 3 → p.step = 0 → n < 32 → (a = false ∨ p.asserted = true) → exec (.irqIn n l a none) s = .next (s.ended (setPin h n
      { p with level := l, asserted := a }))) ∧
    (∀ l u k w, p.fn = 3 → p.step = 0 → n < 32 → p.asserted = false → k = aplicKey (n / 16) (n % 16 + 1) → w = tabGet 0 h.edges.irqTarget k →
      u = setPin h n { p with level := l, asserted := true, fired := p.fired + 1 } →
      ((bitOf w 63 = true ∧ hartOwner h (field w 6 0) = tabGet 31 h.edges.irqOwner k) →
        exec (.irqIn n l true none) s = .next (s.ended (imsicSet u (field w 6 0) (field w 9 7) (field w 20 10)))) ∧
      ((bitOf w 63 = false ∨ hartOwner h (field w 6 0) ≠ tabGet 31 h.edges.irqOwner k) →
        exec (.irqIn n l true none) s = .next (s.ended u))) ∧
    (∀ l a, (p.fn ≠ 3 ∨ p.step ≠ 0 ∨ 32 ≤ n) → exec (.irqIn n l a none) s = .next (s.ended h)) ∧
    (∀ l d q k w, d < 2 → 16 < q → q ≤ 64 → k = aplicKey d q → w = tabGet 0 h.edges.irqTarget k →
      ((bitOf w 63 = true ∧ hartOwner h (field w 6 0) = tabGet 31 h.edges.irqOwner k) →
        exec (.irqIn n l true (some (d, q))) s = .next (s.ended (imsicSet h (field w 6 0) (field w 9 7) (field w 20 10)))) ∧
      ((bitOf w 63 = false ∨ hartOwner h (field w 6 0) ≠ tabGet 31 h.edges.irqOwner k) →
        exec (.irqIn n l true (some (d, q))) s = .next (s.ended h))) ∧
    (∀ l a d q, (a = false ∨ 2 ≤ d ∨ q ≤ 16 ∨ 64 < q) → exec (.irqIn n l a (some (d, q))) s = .next (s.ended h)) ∧
    (∀ w, (p.fn ≠ 4 ∨ p.step ≠ 0) → exec (.wakeN n w) s = .next (s.ended h)) ∧
    (∀ w g, p.fn = 4 → p.step = 0 → g = setPin { h with tb := { h.tb with now := max h.tb.now (h.tb.now + 1000000) } } n { p with level := false } →
      (h.start.st ≠ PowerSt.dormant → exec (.wakeN n w) s = .next (s.ended g)) ∧
      (h.start.st = PowerSt.dormant → exec (.wakeN n w) s = .next (s.ended (dormantExit g .pin w)))) ∧
    (∀ w, p.fn = 4 → p.step = 0 → h.start.st = PowerSt.dormant → h.start.image = some h.keep.sealKey → w.image = true → w.fails = [] →
      Completes (.wakeN n w) s (fun t => t.hw.start.st = PowerSt.active ∧ t.hw.start.image = none ∧ t.hw.efano.ready = true))

/-- The commands of the keep-alive domain and of firmware images. For every state and served command: RTC_SET of an unadmitted package sets
the clock and makes it valid, and of an admitted one is refused; RTC_ALARM_SET sets the alarm; CHARGER_SET refuses a current or voltage
outside Table 24.11 and otherwise sets the charger and ends its fault; SHIP_MODE_ARM and SHIP_MODE_DISARM set and clear ship mode;
TAMPER_CONFIG refuses a debounce outside 1 to 100 ms and otherwise sets enables and debounce; KA_STATUS answers the domain's state;
FW_VERSION answers the active and the other slot; FW_WRITE refuses the active slot and bytes past the slot, and otherwise writes them and
marks the slot WRITTEN; FW_VERIFY refuses the active slot and otherwise answers the result and holds it; FW_ACTIVATE refuses a slot that
is not verified or lies under the fused minimum, makes a boot image active at once, and a firmware slot with an MR that closes the
session. What a command does not name it leaves as it was. -/
def Obligations.KeepAliveCommands : Prop :=
  ∀ (s : State) (h : Hw) (m : Mbx) (tag : Nat) (r : Req) (k : KeepAlive), h = clearSent s.hw → k = h.keep →
    (Serving s m tag 0x0C08 r → h.ident.admitted = false → exec (.rtcSet m tag) s = .next (s.ended (doneCommand h { h with
      keep := { k with rtc := leAt r.payload 0 8, rtcAt := h.tb.now, rtcValid := true } } m r []))) ∧
    (Serving s m tag 0x0C08 r → h.ident.admitted = true → exec (.rtcSet m tag) s = .next (s.ended (finalResp h m r 0x20 0x100 []))) ∧
    (Serving s m tag 0x0C09 r →
      exec (.rtcAlarmSet m tag) s = .next (s.ended (doneCommand h { h with keep := { k with alarm := leAt r.payload 0 8 } } m r []))) ∧
    (∀ icc vcv on, Serving s m tag 0x0C0A r → icc = leAt r.payload 1 1 → vcv = leAt r.payload 2 2 → on = bitOf (leAt r.payload 0 1) 0 →
      ((icc = 0 ∨ 20 < icc ∨ vcv < 2800 ∨ 3300 < vcv ∨ vcv % 10 ≠ 0) →
        exec (.chargerSet m tag) s = .next (s.ended (finalResp h m r 0x20 0 []))) ∧
      (1 ≤ icc → icc ≤ 20 → 2800 ≤ vcv → vcv ≤ 3300 → vcv % 10 = 0 → exec (.chargerSet m tag) s = .next (s.ended (doneCommand h { h with
        keep := { k with chgOn := on, icc := icc, vcv := vcv, cellBad := 0, phase := if on then k.phase else 0 } } m r [])))) ∧
    (Serving s m tag 0x0C0B r → exec (.shipModeArm m tag) s = .next (s.ended (doneCommand h { h with keep := { k with ship := true } } m r []))) ∧
    (Serving s m tag 0x0C0C r → exec (.shipModeDisarm m tag) s = .next (s.ended (doneCommand h { h with keep := { k with ship := false } } m r []))) ∧
    (∀ d, Serving s m tag 0x0C0D r → d = (List.range 4).map (fun i => leAt r.payload (4 + i) 1) →
      ((∃ x, x ∈ d ∧ (x = 0 ∨ 100 < x)) → exec (.tamperConfig m tag) s = .next (s.ended (finalResp h m r 0x20 0 []))) ∧
      ((∀ x, x ∈ d → 1 ≤ x ∧ x ≤ 100) → exec (.tamperConfig m tag) s = .next (s.ended (doneCommand h { h with
        keep := { k with enables := leAt r.payload 0 1 % 16, debounce := d } } m r [])))) ∧
    (Serving s m tag 0x0C0E r → exec (.kaStatus m tag) s = .next (s.ended (finalResp h m r 0 0 (leBytes 8 (k.rtc + (h.tb.now - k.rtcAt)) ++
      leBytes 1 (flag k.rtcValid + 2 * flag k.kaLost + 4 * flag k.ship + 8 * flag (decide (k.cellBad ≠ 0)) + 16 * flag (!k.vka) + 32 * flag (charging k))
      ++ leBytes 1 k.latch ++ leBytes 1 k.tampers ++ leBytes 1 k.icc ++ leBytes 2 k.vcv ++ leBytes 2 k.cellMv ++ leBytes 8 k.lastWord.toNat)))) ∧
    (∀ a b, Serving s m tag 0x0F01 r → a = h.edges.active → b = h.edges.bootAct → exec (.fwVersion m tag) s = .next (s.withHw
      (finalResp h m r 0 0 (leBytes 8 (h.edges.fw.getD a {}).version ++ leBytes 4 (h.edges.fw.getD a {}).secVer ++ leBytes 4 h.ident.fusedMin ++
        leBytes 1 a ++ leBytes 1 (h.edges.fw.getD (1 - a) {}).st ++ leBytes 1 b ++ leBytes 1 (h.edges.fw.getD (2 + (1 - b)) {}).st)))) ∧
    (∀ i n a, Serving s m tag 0x0F02 r → i = leAt r.payload 0 1 → n = leAt r.payload 1 1 → a = (if i = 0 then h.edges.active else h.edges.bootAct) →
      (n = a → exec (.fwWrite m tag) s = .next (s.ended (finalResp h m r 0x20 0x100 []))) ∧
      (n ≠ a → (imagePlace i n).2 < leAt r.payload 4 4 + (r.payload.drop 8).length →
        exec (.fwWrite m tag) s = .next (s.ended (finalResp h m r 0x20 0x103 []))) ∧
      (n ≠ a → leAt r.payload 4 4 + (r.payload.drop 8).length ≤ (imagePlace i n).2 → exec (.fwWrite m tag) s = .next (s.withHw
        (doneCommand h { h with
          edges := { h.edges with
          flash := putBytes h.edges.flash ((imagePlace i n).1 + leAt r.payload 4 4) (r.payload.drop 8), fw := h.edges.fw.set (i * 2 + n) { st := 1 } } } m r [])))) ∧
    (∀ i n a info, Serving s m tag 0x0F03 r → i = leAt r.payload 0 1 → n = leAt r.payload 1 1 → a = (if i = 0 then h.edges.active else h.edges.bootAct) →
      (n = a → exec (.fwVerify m tag info) s = .next (s.ended (finalResp h m r 0x20 0x100 []))) ∧
      (n ≠ a → info.ok = true → (h.edges.fw.getD (i * 2 + n) {}).st ≠ 0 → exec (.fwVerify m tag info) s = .next (s.ended (doneCommand h { h with
        edges := { h.edges with fw := h.edges.fw.set (i * 2 + n) { st := 2, version := info.version, secVer := info.secVer, digest := info.digest } } } m r
        (leBytes 1 0 ++ zeros 3 ++ leBytes 4 info.secVer ++ ((info.digest ++ zeros 48).take 48))))) ∧
      (n ≠ a → info.ok = false → exec (.fwVerify m tag info) s = .next (s.ended (doneCommand h { h with
        edges := { h.edges with fw := h.edges.fw.set (i * 2 + n) { st := 3, version := info.version, secVer := info.secVer, digest := info.digest } } } m r
        (leBytes 1 1 ++ zeros 3 ++ leBytes 4 info.secVer ++ ((info.digest ++ zeros 48).take 48)))))) ∧
    (∀ i n x, Serving s m tag 0x0F04 r → i = leAt r.payload 0 1 → n = leAt r.payload 1 1 → x = h.edges.fw.getD (i * 2 + n) {} →
      (x.st ≠ 2 → exec (.fwActivate m tag) s = .next (s.ended (finalResp h m r 0x20 0x101 []))) ∧
      (x.st = 2 → x.secVer < h.ident.fusedMin → exec (.fwActivate m tag) s = .next (s.ended (finalResp h m r 0x20 0x102 []))) ∧
      (x.st = 2 → h.ident.fusedMin ≤ x.secVer → i ≠ 0 →
        exec (.fwActivate m tag) s = .next (s.ended (doneCommand h { h with edges := { h.edges with bootAct := n } } m r []))) ∧
      (∀ u, x.st = 2 → h.ident.fusedMin ≤ x.secVer → i = 0 → u = closedFor h { h with edges := { h.edges with active := n } } m r →
        exec (.fwActivate m tag) s = .next (s.ended (acceptedLast h (mrBegin u) m r))))

/-- The clock, button, tamper inputs, supply, cell and charger of the keep-alive domain. For every state: RTC_COPY copies a time base that is
synced and not in holdover into the clock, and no other; RTC_ALARM of a set alarm clears it and ends Dormant as DORMANT_EXIT does; a press of 2 s to 6 s is a clear press, any
other release of a powered domain changes nothing, and a hold is a KR; a tamper input that is enabled sets its latch bit, counts up to
255, replaces the sealing key, and raises TAMPER_ASSERTED at package scope unless Off, and a disabled one does nothing; an input that
returns high restarts its debounce; a clear press with every enabled input quiet for its debounce clears the latch; VKA_FALL leaves the
cell to carry the domain, or opens the switch in ship mode or under 2.2 V and the domain's contents are lost; VKA_RETURN 10 ms later
restarts a domain that had lost power; a cell under 2.2 V without VKA opens the switch likewise; the charger goes into its first phase under
2.5 V, a charged cell's only 100 mV under the target, from its second to its third at the target, and has charged the cell where the current
is low; its first phase over 2 h and a cell under 1.0 V are faults that end the charge. -/
def Obligations.KeepAliveRows : Prop :=
  ∀ (s : State) (h : Hw) (k : KeepAlive), h = clearSent s.hw → k = h.keep →
    (k.powered = true → h.tb.unsynced = false → h.tb.holdover = false → h.start.st ≠ PowerSt.off →
      exec .rtcCopy s = .next (s.ended { h with keep := { k with rtc := h.tb.now, rtcAt := h.tb.now, rtcValid := true } })) ∧
    ((k.powered = false ∨ h.tb.unsynced = true ∨ h.tb.holdover = true ∨ h.start.st = PowerSt.off) → exec .rtcCopy s = .next (s.withHw h)) ∧
    (∀ ok g, k.powered = true → k.alarm ≠ 0 → h.start.st ≠ PowerSt.dormant → g = { h with
      tb := { h.tb with
      now := max h.tb.now (h.tb.now + (k.alarm - (k.rtc + (h.tb.now - k.rtcAt)))) } } →
      exec (.rtcAlarm ok) s = .next (s.ended { g with keep := { k with alarm := 0 } })) ∧
    (∀ ok g, k.powered = true → k.alarm ≠ 0 → h.start.st = PowerSt.dormant →
      g = { h with tb := { h.tb with now := max h.tb.now (h.tb.now + (k.alarm - (k.rtc + (h.tb.now - k.rtcAt)))) } } →
      exec (.rtcAlarm ok) s = .next (s.ended (dormantExit { g with keep := { k with alarm := 0 } } .alarm ok))) ∧
    (∀ ok, k.alarm = 0 → exec (.rtcAlarm ok) s = .next (s.withHw h)) ∧
    (∀ t, k.powered = true → 2000 ≤ t → t ≤ 6000 → k.latch ≠ 0 →
      (∀ i, i < 4 → bitOf k.enables i = true → bitOf k.inputs i = false ∧ k.risen.getD i 0 + k.debounce.getD i 10 * 1000000 ≤ h.tb.now) →
      exec (.kaBtnRelease t) s = .next (s.withHw (stepEnd
        (flushKeep { h with keep := { k with latch := 0, cleared := some k.latch, clearedAt := some h.tb.now } })))) ∧
    (∀ t i, k.powered = true → 2000 ≤ t → t ≤ 6000 → i < 4 → bitOf k.enables i = true → bitOf k.inputs i = true →
      exec (.kaBtnRelease t) s = .next (s.withHw h)) ∧
    (∀ t, k.powered = true → (t < 2000 ∨ 6000 < t) → exec (.kaBtnRelease t) s = .next (s.withHw h)) ∧
    (k.powered = true → exec .kaBtnHold s = .next (s.ended (restartKeep h))) ∧
    (∀ n g, k.powered = true → n < 4 → bitOf k.enables n = true → bitOf k.inputs n = false → g = { h with
      keep := { k with
      inputs := k.inputs ||| 2 ^ n, latch := k.latch ||| 2 ^ n, tampers := min 255 (k.tampers + 1), sealKey := k.sealNext, sealNext := k.sealNext + 1 } } →
      (h.start.st = PowerSt.off → exec (.tamper n) s = .next (s.ended g)) ∧
      (h.start.st ≠ PowerSt.off → exec (.tamper n) s = .next (s.ended (doubt g (.tamper n))))) ∧
    (∀ n, (k.powered = false ∨ 4 ≤ n ∨ bitOf k.enables n = false) → exec (.tamper n) s = .next (s.withHw h)) ∧
    (∀ n, n < 4 → k.powered = true → exec (.tamperDeasserted n) s =
      .next (s.ended { h with keep := { k with inputs := setField k.inputs n n 0, risen := k.risen.set n h.tb.now } })) ∧
    (k.vka = true → k.ship = false → 2200 ≤ k.cellMv → exec .vkaFall s = .next (s.ended { h with keep := { k with vka := false, phase := 0 } })) ∧
    (k.vka = true → (k.ship = true ∨ k.cellMv < 2200) →
      exec .vkaFall s = .next (s.ended { h with
        keep := { k with vka := false, powered := false, open_ := true, phase := 0, kaLost := true } })) ∧
    (∀ g, k.vka = false → g = { h with tb := { h.tb with now := max h.tb.now (h.tb.now + 10000000) }, keep := { k with vka := true } } →
      (k.powered = true → exec .vkaReturn s = .next (s.ended g)) ∧
      (k.powered = false → exec .vkaReturn s = .next (s.ended (restartKeep g)))) ∧
    (∀ mv, k.vka = false → k.powered = true → mv < 2200 →
      exec (.cellBelowHold mv) s = .next (s.ended { h with keep := { k with cellMv := mv, powered := false, open_ := true, kaLost := true } })) ∧
    (∀ mv t, chargerOn h = true → (k.phase = 0 ∨ k.phase = 4 ∧ mv + 100 ≤ k.vcv) → mv < 2500 →
      exec (.chargePhase mv t) s = .next (s.ended { h with keep := { k with cellMv := mv, phase := 1, phaseAt := h.tb.now } })) ∧
    (∀ mv t, chargerOn h = true → k.phase = 2 → 2500 ≤ mv → k.vcv ≤ mv →
      exec (.chargePhase mv t) s = .next (s.ended { h with keep := { k with cellMv := mv, phase := 3, phaseAt := h.tb.now } })) ∧
    (∀ mv, chargerOn h = true → k.phase = 3 →
      exec (.chargePhase mv true) s = .next (s.ended { h with keep := { k with cellMv := mv, phase := 4, phaseAt := h.tb.now } })) ∧
    (∀ mv t, chargerOn h = true → k.phase = 4 → k.vcv < mv + 100 →
      exec (.chargePhase mv t) s = .next (s.ended { h with keep := { k with cellMv := mv } })) ∧
    (∀ mv g, chargerOn h = true → k.phase = 1 → g = { h with tb := { h.tb with now := max h.tb.now (k.phaseAt + 7200 * 1000000000) } } →
      exec (.cellFault 1 mv) s =
        .next (s.ended (flushKeep { g with keep := { k with cellBad := 1, cellRec := 1, phase := 0, cellMv := mv } }))) ∧
    (∀ mv, chargerOn h = true → mv < 1000 → exec (.cellFault 4 mv) s =
      .next (s.ended (flushKeep { h with keep := { k with cellBad := 4, cellRec := 4, phase := 0, cellMv := mv } }))) ∧
    (∀ c mv, chargerOn h = false → exec (.cellFault c mv) s = .next (s.withHw h))

/-- The steps of a slot, the links of root ports, and the events of I3C, the TAP and ATTN_N. For every state: HOTPLUG_ADD takes a slot of a
package whose ports run through Table 21.3: presence debounced, power on 1 ms later, reset lifted 201 ms after the debounce, and up 301 ms
after it with HOTPLUG_ADD recorded; an empty or running slot of an absent port changes nothing; SLOT_POWER_FAULT 101 ms after it, at a slot
with a power-good pin, takes power away, holds it FAULTED and is recorded; HOTPLUG_REMOVE takes power away, contains the port, sends every
interface behind it to ERROR and empties the slot, and what a CXL port served is lost with its link; SLOT_BUTTON records at a slot with an
attention button; a root port's link comes up at its rate and width, and one that is no slot goes down into training or containment;
I3C_HOT_JOIN acknowledges 50 ms after t0; an address assigned is held; outside Bench mode only BYPASS and IDCODE act, no segment is in the
scan path and wrapper instructions are refused; ATTN_N is recorded. -/
def Obligations.SlotPortAndBusRows : Prop :=
  ∀ (s : State) (h : Hw) (n : Nat) (x : RootPort), h = clearSent s.hw → x = portAt h n →
    (∀ a b, (x.exists_ = false ∨ x.isSlot = false ∨ x.slot = SlotSt.up) → exec (.hotplugAdd n a b) s = .next (s.withHw h)) ∧
    (∀ a b, x.exists_ = true → x.isSlot = true → x.hotReset = false → h.start.ports = true → h.start.st = PowerSt.active →
      (x.slot = SlotSt.empty → exec (.hotplugAdd n a b) s = .next (s.ended (setPort h n { x with slot := .debounced, slotAt := h.tb.now }))) ∧
      (∀ g, x.slot = SlotSt.debounced → x.held = false → g = { h with tb := { h.tb with now := max h.tb.now (x.slotAt + 1000000) } } →
        exec (.hotplugAdd n a b) s = .next (s.ended (drivePins (setPort g n { x with slot := .powered }) 8 n true))) ∧
      (x.slot = SlotSt.debounced → x.held = true → exec (.hotplugAdd n a b) s = .next (s.withHw h)) ∧
      (∀ g, x.slot = SlotSt.powered → g = { h with tb := { h.tb with now := max h.tb.now (x.slotAt + 201000000) } } →
        exec (.hotplugAdd n a b) s = .next (s.ended (drivePins (setPort g n { x with slot := .perst, training := true }) 10 n true))) ∧
      (∀ g, x.slot = SlotSt.perst → g = { h with tb := { h.tb with now := max h.tb.now (x.slotAt + 301000000) } } →
        exec (.hotplugAdd n a b) s = .next (s.ended (recordWrite
          (setPort g n { x with slot := .up, up := true, training := false, contained := false, rate := a, width := b })
          { type := 0x0A02, cls := 0, part := 0xFF, unitKind := 11, unit := n })))) ∧
    (∀ g, x.slot = SlotSt.powered → hasPin h 9 n = true → g = { h with tb := { h.tb with now := max h.tb.now (x.slotAt + 101000000) } } →
      exec (.slotPowerFault n) s = .next (s.ended (recordWrite (setPort (drivePins g 8 n false) n { x with slot := .faulted })
        { type := 0x0A04, cls := 0, part := 0xFF, unitKind := 11, unit := n }))) ∧
    ((x.slot ≠ SlotSt.powered ∨ hasPin h 9 n = false) → exec (.slotPowerFault n) s = .next (s.withHw h)) ∧
    ((x.isSlot = false ∨ x.slot = SlotSt.empty) → exec (.hotplugRemove n) s = .next (s.withHw h)) ∧
    (∀ g, x.isSlot = true → x.slot ≠ SlotSt.empty → g = errorPort (slotPowerOff h n) n → funcsOn h n = [] →
      exec (.hotplugRemove n) s = .next (s.ended (linkGone (recordWrite (setPort g n { portAt g n with contained := true, slot := .empty })
        { type := 0x0A03, cls := 0, part := 0xFF, unitKind := 11, unit := n, arg0 := 0 }) x n))) ∧
    (∀ g f o, x.isSlot = true → x.slot ≠ SlotSt.empty → g = errorPort (slotPowerOff h n) n → funcsOn h n = [f] → (unitAt h 9 f).owner = o → o ≤ 16 →
      exec (.hotplugRemove n) s = .next (s.ended (linkGone (recordWrite (setPort g n { portAt g n with contained := true, slot := .empty })
        { type := 0x0A03, cls := 0, part := o, unitKind := 11, unit := n, arg0 := 1 }) x n))) ∧
    (x.isSlot = true → hasPin h 7 n = true → exec (.slotButton n) s = .next (s.ended (recordWrite h
      { type := 0x0A05, cls := 0, part := 0xFF, unitKind := 11, unit := n }))) ∧
    ((x.isSlot = false ∨ hasPin h 7 n = false) → exec (.slotButton n) s = .next (s.withHw h)) ∧
    (∀ a b, x.exists_ = true → x.hotReset = false → (x.training = true ∨ x.contained = true) → x.isSlot = false →
      (islandAt h { kind := .rootPort, idx := n / 4 }).power = .open → exec (.rootPortLinkUp n a b) s =
        .next (s.ended (setPort h n { x with up := true, training := false, contained := false, rate := a, width := b }))) ∧
    (∀ d, x.up = true → x.isSlot = false →
      exec (.rootPortLinkDown n d) s =
        .next (s.ended (linkGone (setPort h n { x with up := false, contained := d, training := !d }) x n))) ∧
    (∀ d, (x.up = false ∨ x.isSlot = true) → exec (.rootPortLinkDown n d) s = .next (s.withHw h)) ∧
    (∀ g, h.edges.i3cAck = false → h.start.st ≠ PowerSt.off → g = { h with tb := { h.tb with now := max h.tb.now (h.start.t0 + 50000000) } } →
      exec .i3cHotJoin s = .next (s.ended { g with
        edges := { h.edges with
        i3cAck := true, hotJoin := if h.edges.i3cDyn then h.edges.hotJoin else h.edges.hotJoin + 1 } })) ∧
    (h.edges.i3cAck = true → exec .i3cHotJoin s = .next (s.withHw h)) ∧
    (∀ a, h.start.t0 + 50000000 ≤ h.tb.now → h.start.st ≠ PowerSt.off → exec (.dynamicAddressAssignment a) s =
      .next (s.ended { h with edges := { h.edges with i3cAck := true, i3cDyn := true, i3cAddr := a % 128 } })) ∧
    (∀ a, h.tb.now < h.start.t0 + 50000000 → exec (.dynamicAddressAssignment a) s = .next (s.withHw h)) ∧
    (∀ a, exec (.tapInstruction (.ir a)) s = .next (s.ended { h with
      edges := { h.edges with
      tapIr := if h.ident.bench then a else if a = 1 then 1 else 0 } })) ∧
    (∀ a on_, h.ident.bench = false → exec (.tapInstruction (.segment a on_)) s = .next (s.ended { h with edges := { h.edges with tapSegs := [] } })) ∧
    (∀ a on_, h.ident.bench = true → Completes (.tapInstruction (.segment a on_)) s (fun t => (a ∈ t.hw.edges.tapSegs ↔ on_ = true) ∧
      (∀ b, b ≠ a → (b ∈ t.hw.edges.tapSegs ↔ b ∈ h.edges.tapSegs)))) ∧
    (∀ k i, h.ident.bench = false → exec (.tapInstruction (.wrapper k i)) s =
      .next (s.ended { h with edges := { h.edges with wrapBad := h.edges.wrapBad + 1 } })) ∧
    (∀ k i, h.ident.bench = true → h.ident.sites.getD k .ldie = .stack → exec (.tapInstruction (.wrapper k i)) s =
      .next (s.ended { h with edges := { h.edges with wrapIr := tabPut 0 h.edges.wrapIr k (i + 1) } })) ∧
    (∀ k i, h.ident.bench = true → h.ident.sites.getD k .ldie ≠ .stack → exec (.tapInstruction (.wrapper k i)) s = .next (s.ended h)) ∧
    (∀ g, h.start.st ≠ PowerSt.off → g = { h with tb := { h.tb with now := max h.tb.now (h.tb.now + 20000000) } } →
      exec .moduleAttention s = .next (s.ended (recordWrite g { type := 0x0A0B, cls := 0, part := 0xFF })))

/-- Inbound requests of devices, their refusals, device errors, IDE failure and key refresh, and CXL loss. For every state: a request ends
Idle or Drowse, and then: I/O, configuration, ATS and PASID requests, and any at or past 2^56, answer Unsupported Request and have no other
effect; of a request of a function that no partition owns, or whose owner is Fenced, or of a tenant's function outside RUN or off its own
selective stream, a read is answered Unsupported Request and a write or atomic is discarded, counted and recorded against the partition
owning the function; any other read or write of memory runs under its owner's tag, piece by piece at swatch boundaries: of one that lies in
one swatch, a read answers the bytes, poisoned where they are, a write is performed, and what the selvedge or an absent home refuses is
refused the same way; a write behind a gated island is discarded, counted and recorded there (R77); an AtomicOp of Table 21.1 is performed at
its home, and another one is answered Unsupported Request; a 4-byte write to the interrupt doorbells of its own partition's window goes
through the register, and any other access to region 3 is answered Unsupported Request or refused; a request that is answered with data
waits for the function's earlier posted writes to other packages (R229); a device error at a port of the window is
counted, recorded and answered as poisoned data to the hart or ferry that asked, a timeout at its instant; an IDE integrity failure of a
bound stream sends the interface to ERROR and is recorded for its owner, a TDISP error only sends it to ERROR; IDE_KEY_REFRESH renews the
keys of every bound stream; a CXL port lost, where it serves no line, is recorded, and one with bad media poisons the lines it serves. -/
def Obligations.DeviceRows : Prop :=
  ∀ (s : State) (h g : Hw) (f : Nat) (x : Func) (u : UnitOwn), h = clearSent s.hw → g = stir h → x = funcAt g f → u = unitAt g 9 f → NoWait g →
    (∀ st a q, (q = .io ∨ q = .config ∨ q = .translation ∨ q = .pasid) →
      exec (.inboundRequest f st a q) s = .next (s.ended (answerWith g [] 3))) ∧
    (∀ st a n, 2 ^ 56 ≤ a → exec (.inboundRequest f st a (.read n)) s = .next (s.ended (answerWith g [] 3))) ∧
    (∀ st a b p, 2 ^ 56 ≤ a → exec (.inboundRequest f st a (.write b p)) s = .next (s.ended (answerWith g [] 3))) ∧
    (∀ st a o z v w, 2 ^ 56 ≤ a → exec (.inboundRequest f st a (.atomic o z v w)) s = .next (s.ended (answerWith g [] 3))) ∧
    (∀ st a q e, a < 2 ^ 56 → (((∃ n, q = .read n) ∧ e = 3) ∨ (((∃ b p, q = .write b p) ∨ ∃ o z v w, q = .atomic o z v w) ∧ e = 0)) →
      (16 < u.owner →
        exec (.inboundRequest f st a q) s = .next (s.ended (answerWith g [] e))) ∧
      (∀ v, u.owner ≤ 16 → (u.state ≠ UnitState.owned ∨ partFenced g u.owner = true ∨
          (u.owner ≠ 0 ∧ (x.tdisp ≠ Tdisp.run ∨ x.ide ≠ 1 ∨ st ≠ some x.stream))) →
        v = answerWith (recordWrite (countRefusal g u.owner) { type := 0x0101, part := u.owner, addr := a, arg0 := noDesc }) [] e → NoWait v →
        exec (.inboundRequest f st a q) s = .next (s.ended v))) ∧
    (∀ st a p T, a < 2 ^ 56 → u.state = UnitState.owned → p = u.owner → p ≤ 16 → partFenced g p = false →
      (p = 0 ∨ (x.tdisp = Tdisp.run ∧ x.ide = 1 ∧ st = some x.stream)) → T = (fun v => tagWrites v (.func f)) →
      (regionOf (compactLocal a) ≠ 3 → actorPending g (.func f) = false →
        (∀ n o, o = (swatchCuts a n).foldl (deviceReadPiece f p a) ((g, s.mem), [], 0) → NoWait o.1.1 →
          exec (.inboundRequest f st a (.read n)) s = .next (s.routed (T (answerWith o.1.1 o.2.1 o.2.2), o.1.2))) ∧
        (∀ n o, 0 < n → swatchOf (a + n - 1) = swatchOf a → o = engineRead (g, s.mem) 4 p true a n → NoWait o.1.1 →
          (o.2.v = .ok → exec (.inboundRequest f st a (.read n)) s =
            .next (s.routed (T (answerWith o.1.1 o.2.bytes (if o.2.poison then 2 else 0)), o.1.2))) ∧
          (∀ v, (o.2.v = .absent ∨ ∃ w, o.2.v = .refused w) → v = refuseDevice o.1.1 f a true → NoWait v →
            exec (.inboundRequest f st a (.read n)) s = .next (s.routed (T (answerWith v [] 3), o.1.2))))) ∧
      (regionOf (compactLocal a) ≠ 3 → ∀ b y,
        (∀ o, o = (swatchCuts a b.length).foldl (deviceWritePiece f p a b y) (g, s.mem) → NoWait o.1 →
          exec (.inboundRequest f st a (.write b y)) s = .next (s.routed (T (answerWith o.1 [] 0), o.2))) ∧
        (∀ o, 0 < b.length → swatchOf (a + b.length - 1) = swatchOf a → o = engineWrite (g, s.mem) p a b y → NoWait o.1.1 →
          (o.2 = .ok → exec (.inboundRequest f st a (.write b y)) s = .next (s.routed (T (answerWith o.1.1 [] 0), o.1.2))) ∧
          (∀ v, o.2 = .off → v = discardPosted o.1.1 p a → NoWait v →
            exec (.inboundRequest f st a (.write b y)) s = .next (s.routed (T (answerWith v [] 0), o.1.2))) ∧
          (∀ v, (o.2 = .absent ∨ ∃ w, o.2 = .refused w) → v = refuseDevice o.1.1 f a false → NoWait v →
            exec (.inboundRequest f st a (.write b y)) s = .next (s.routed (T (answerWith v [] 0), o.1.2))))) ∧
      (∀ c n v w, actorPending g (.func f) = false →
        (regionOf (compactLocal a) ∈ [3, 4, 5] ∨ devAtomic c n = none ∨ compactLocal a % n ≠ 0 →
          exec (.inboundRequest f st a (.atomic c n v w)) s = .next (s.routed (T (answerWith g [] 3), s.mem))) ∧
        (∀ k d, regionOf (compactLocal a) ∉ [3, 4, 5] → devAtomic c n = some k → compactLocal a % n = 0 → d = verdict g p a n true →
          (∀ o, d = .ok → poisoned g (compactLocal a) = false → o = atomicAt (g, s.mem) true (compactLocal a) k n v w → NoWait o.1.1 →
            exec (.inboundRequest f st a (.atomic c n v w)) s = .next (s.routed (T (answerWith o.1.1 (leBytes n o.2) 0), o.1.2))) ∧
          ((d = .ok ∧ poisoned g (compactLocal a) = true ∨ d = .dead) →
            exec (.inboundRequest f st a (.atomic c n v w)) s = .next (s.routed (T (answerWith g (zeros n) 2), s.mem))) ∧
          (∀ o e, isLocal g a = false → isMember g (compactPos a) = true → memberFenced g = false → regionOf (compactLocal a) < 8 →
            o = atomicAfar g p 7 a n v w k → e = refuseDevice g f a false → NoWait o.2 → NoWait e →
            exec (.inboundRequest f st a (.atomic c n v w)) s = .next (s.routed (T (if (refusedAfar g p a n).isSome then e
              else answerWith o.2 o.1 (if remoteStatus g p a = 2 then 2 else 0)), s.mem))) ∧
          (d = .off → exec (.inboundRequest f st a (.atomic c n v w)) s = .next (s.routed (T (ghostAnswer g true), s.mem))) ∧
          (∀ e, (d = .absent ∨ ∃ w, d = .refused w) → e = refuseDevice g f a false → NoWait e →
            exec (.inboundRequest f st a (.atomic c n v w)) s = .next (s.routed (T e, s.mem))))) ∧
      (∀ o, regionOf (compactLocal a) = 3 → o = offsetOf (compactLocal a) →
        (∀ n, actorPending g (.func f) = false →
          exec (.inboundRequest f st a (.read n)) s = .next (s.routed (T (answerWith g [] 3), s.mem))) ∧
        (∀ b y, (b.length ≠ 4 ∨ o % 4 ≠ 0 ∨ 17 * 2 ^ 24 ≤ o ∨ o % 2 ^ 24 < 0xC00000) →
          exec (.inboundRequest f st a (.write b y)) s = .next (s.routed (T (answerWith g [] 3), s.mem))) ∧
        (∀ b y, b.length = 4 → o % 4 = 0 → o < 17 * 2 ^ 24 → 0xC00000 ≤ o % 2 ^ 24 →
          (∀ v, isLocal g a = false → v = deviceWritePiece f p a b false (g, s.mem) (0, 4) → NoWait v.1 →
            exec (.inboundRequest f st a (.write b y)) s = .next (s.routed (T (answerWith v.1 [] 0), v.2))) ∧
          (∀ v, isLocal g a = true → o / 2 ^ 24 ≠ p → v = refuseDevice g f a false → NoWait v →
            exec (.inboundRequest f st a (.write b y)) s = .next (s.routed (T v, s.mem))) ∧
          (∀ v, isLocal g a = true → o / 2 ^ 24 = p → v = windowStore (g, s.mem) p (o % 2 ^ 24 / 8 * 8) (leNat b) (halfAt o 4) → NoWait v.1 →
            exec (.inboundRequest f st a (.write b y)) s = .next (s.routed (T v.1, v.2))))) ∧
      (∀ q, ((∃ n, q = .read n) ∨ ∃ c n v w, q = .atomic c n v w) → actorPending g (.func f) = true →
        ¬ NoWait (inbound (g, s.mem) f st a q).1)) ∧
    (∀ st a q o, o = inbound (g, s.mem) f st a q → ¬ NoWait o.1 →
      exec (.inboundRequest f st a q) s = .next (s.ended (o.1.coh.stalls.foldl leaveStall h))) ∧
    (∀ y a n q v, (regionOf a = 4 ∨ regionOf a = 5) → windowPort h a = some n → q ≤ 1 → v = devErrorBy h a 0 q →
      exec (.devError (.hart y) a 0 q) s = .next (s.ended (accessFault v y (opFault .load) (opAccess .load) 2 0 y.ca))) ∧
    (∀ i k a n v d, (regionOf a = 4 ∨ regionOf a = 5) → windowPort h a = some n →
      v = devErrorBy { h with tb := { h.tb with now := max h.tb.now (h.tb.now + (portAt h n).timeoutMs * 1000000) } } a 0 2 →
      findDesc (slipAt v i) (w32 k) = some d →
      exec (.devError (.ferry i k) a 0 2) s = .next (s.ended (putDesc v i { d with poison := true }))) ∧
    (∀ y o, y = funcAt h f → o = (unitAt h 9 f).owner → y.ide = 1 →
      (o ≤ 16 → exec (.ideFail f true) s = .next (s.ended (recordWrite (setFunc h f { y with tdisp := .error, ide := 2 })
        { type := 0x0A06, cls := 1, part := o, unitKind := 9, unit := f, arg0 := y.stream }))) ∧
      exec (.ideFail f false) s = .next (s.ended (setFunc h f { y with tdisp := .error }))) ∧
    ((funcAt h f).ide ≠ 1 → ∀ b, exec (.ideFail f b) s = .next (s.withHw h)) ∧
    exec .ideKeyRefresh s = .next (s.ended { h with
      edges := { h.edges with
      funcs := tabMap {} h.edges.funcs (fun _ y => if y.ide = 1 then { y with keys := y.keys + 1 } else y) } }) ∧
    (∀ n b, ((portAt h n).exists_ = false ∨ (portAt h n).cxl = false) → exec (.cxlPortLost n b) s = .next (s.withHw h)) ∧
    (∀ n p, p = portAt h n → p.exists_ = true → p.cxl = true → p.up = true → portGranules h n = [] →
      exec (.cxlPortLost n false) s = .next (s.ended (recordWrite (setPort h n { p with up := false, training := !p.isSlot })
        { type := 0x0A07, cls := 2, part := 0xFF, unitKind := 11, unit := n, arg0 := 0 }))) ∧
    (∀ n p, p = portAt h n → p.exists_ = true → p.cxl = true → p.mediaBad = false →
      Completes (.cxlPortLost n true) s (fun t => (portAt t.hw n).mediaBad = true ∧
        (∀ a i, a ∈ portGranules h n → i < 64 → tabGet false t.hw.coh.poison (a / 64 + i) = true) ∧ t.mem = s.mem))

/-- Bench mode, repair candidates, margining, tests and repairs of memory. For every state and served command: BENCH_ENTER of a package with
a tenant, admitted or with anything scrubbing, held or failed is refused, and otherwise begins the full scrub and waits for it, in Bench
mode too (the model's choice, log entry 63); BENCH_STATUS answers the two Bench bits; REPAIR_CANDIDATES_GET answers the list and the
discards; REPAIR_CANDIDATE_CLEAR removes the entry named and refuses an index past the list; MEM_MARGIN answers the eyes of the lane named or
of every lane, MEM_TEST what the read-back found of its granules, REPAIR_RESOURCES_GET the spares left of the bank named or of every bank;
they and HBM_SPPR, HBM_HPPR, HBM_LANE_REMAP and LP_PPR are refused with NOT_BENCH outside Bench mode and with BAD_ADDRESS at an address that
does not suit them or names what does not exist; a repair without a spare left is refused with NO_SPARE; a soft repair is kept with the
stack, a hard one uses a spare of the bank and a remap one of the channel, which trains cold next, whatever the verification says; each
repair answers its verification, and a failed one records REPAIR_FAIL; what margining or a remap writes leaves the channel's bytes unknown,
what a row's repair writes those of the row. -/
def Obligations.BenchAndRepairCommands : Prop :=
  ∀ (s : State) (h : Hw) (m : Mbx) (tag : Nat) (r : Req) (q : RAddr), h = clearSent s.hw → q = raddrOf r.payload →
    (Serving s m tag 0x0D01 r → benchMay h = false → exec (.benchEnter m tag) s = .next (s.ended (finalResp h m r 0x20 0 []))) ∧
    (∀ o, Serving s m tag 0x0D01 r → (∀ p, 1 ≤ p → p ≤ 16 → partExists h p = false) → h.ident.admitted = false →
      (∀ x, x ∈ h.sel.scrubs → x.done = true) → h.sel.base ≠ SwState.scrubbing →
      (∀ e, e ∈ h.sel.swatches → e.2.failed = false ∧ e.2.state ≠ SwState.scrubbing ∧ e.2.state ≠ SwState.held) →
      (∀ e, e ∈ h.sel.units → e.2.failed = false ∧ e.2.state ≠ UnitState.scrubbing ∧ e.2.state ≠ UnitState.held) → o = beginAll h →
      exec (.benchEnter m tag) s = .next (s.ended (waitCommand h o.2 m r (.units [o.1]) []))) ∧
    (Serving s m tag 0x0D02 r → exec (.benchStatus m tag) s = .next (s.ended (finalResp h m r 0 0
      (leBytes 1 (flag h.ident.bench) ++ leBytes 1 (flag h.ident.benchSeen) ++ zeros 6)))) ∧
    (Serving s m tag 0x0D03 r → exec (.repairCandidatesGet m tag) s = .next (s.ended (finalResp h m r 0 0 (leBytes 4 h.memhw.discarded ++ zeros 4 ++
      paged m 8 40 (leAt r.payload 0 4) (leAt r.payload 4 2) (h.memhw.cands.map candBytes))))) ∧
    (∀ i, Serving s m tag 0x0D04 r → i = leAt r.payload 0 2 →
      (h.memhw.cands.length ≤ i → exec (.repairCandidateClear m tag) s = .next (s.ended (finalResp h m r 0x20 0x101 []))) ∧
      (i < h.memhw.cands.length → exec (.repairCandidateClear m tag) s = .next (s.ended (doneCommand h
        { h with memhw := { h.memhw with cands := h.memhw.cands.eraseIdx i } } m r [])))) ∧
    (∀ e a b, h.ident.bench = false →
      (Serving s m tag 0x0D05 r → exec (.memMargin m tag e) s = .next (s.ended (finalResp h m r 0x20 0x100 []))) ∧
      (Serving s m tag 0x0D06 r → exec (.memTest m tag a b) s = .next (s.ended (finalResp h m r 0x20 0x100 []))) ∧
      (Serving s m tag 0x0D07 r → exec (.repairResourcesGet m tag) s = .next (s.ended (finalResp h m r 0x20 0x100 [])))) ∧
    (∀ ok, h.ident.bench = false →
      (Serving s m tag 0x0D08 r → exec (.hbmSppr m tag ok) s = .next (s.ended (finalResp h m r 0x20 0x100 []))) ∧
      (Serving s m tag 0x0D09 r → exec (.hbmHppr m tag ok) s = .next (s.ended (finalResp h m r 0x20 0x100 []))) ∧
      (Serving s m tag 0x0D0A r → exec (.hbmLaneRemap m tag ok) s = .next (s.ended (finalResp h m r 0x20 0x100 []))) ∧
      (Serving s m tag 0x0D0B r → exec (.lpPpr m tag ok) s = .next (s.ended (finalResp h m r 0x20 0x100 [])))) ∧
    (∀ e a b, h.ident.bench = true →
      (Serving s m tag 0x0D05 r → (q.tier ≠ 2 ∧ q.tier ≠ 3 ∨ q.kind ≠ 1 ∨ raddrPlace h q = false ∨ lanesOf q.tier ≤ q.lane ∧ q.lane ≠ 0xFFFF) →
        exec (.memMargin m tag e) s = .next (s.ended (finalResp h m r 0x20 0x103 []))) ∧
      (Serving s m tag 0x0D06 r → (leAt r.payload 0 8 % 4096 ≠ 0 ∨ leAt r.payload 8 4 = 0) →
        exec (.memTest m tag a b) s = .next (s.ended (finalResp h m r 0x20 0 []))) ∧
      (Serving s m tag 0x0D06 r → leAt r.payload 0 8 % 4096 = 0 → leAt r.payload 8 4 ≠ 0 → (1 < regionOf (leAt r.payload 0 8) ∨ 2 ^ 52 ≤ leAt r.payload 0 8) →
        exec (.memTest m tag a b) s = .next (s.ended (finalResp h m r 0x20 0x103 []))) ∧
      (Serving s m tag 0x0D07 r → (raddrPlace h q = false ∨ banksOf q.tier ≤ q.bank ∧ q.bank ≠ 0xFF) →
        exec (.repairResourcesGet m tag) s = .next (s.ended (finalResp h m r 0x20 0x103 [])))) ∧
    (∀ ok, h.ident.bench = true →
      (raddrOk h q 2 0 = false →
        (Serving s m tag 0x0D08 r → exec (.hbmSppr m tag ok) s = .next (s.ended (finalResp h m r 0x20 0x103 []))) ∧
        (Serving s m tag 0x0D09 r → exec (.hbmHppr m tag ok) s = .next (s.ended (finalResp h m r 0x20 0x103 [])))) ∧
      (raddrOk h q 2 1 = false → Serving s m tag 0x0D0A r → exec (.hbmLaneRemap m tag ok) s = .next (s.ended (finalResp h m r 0x20 0x103 []))) ∧
      (raddrOk h q 3 0 = false → Serving s m tag 0x0D0B r → exec (.lpPpr m tag ok) s = .next (s.ended (finalResp h m r 0x20 0x103 []))) ∧
      (raddrOk h q 2 0 = true → rowsLeft h q q.bank = 0 →
        (Serving s m tag 0x0D08 r → exec (.hbmSppr m tag ok) s = .next (s.ended (finalResp h m r 0x40 0x102 []))) ∧
        (Serving s m tag 0x0D09 r → exec (.hbmHppr m tag ok) s = .next (s.ended (finalResp h m r 0x40 0x102 [])))) ∧
      (raddrOk h q 2 1 = true → lanesLeft h q = 0 → Serving s m tag 0x0D0A r →
        exec (.hbmLaneRemap m tag ok) s = .next (s.ended (finalResp h m r 0x40 0x102 []))) ∧
      (raddrOk h q 3 0 = true → rowsLeft h q q.bank = 0 → Serving s m tag 0x0D0B r →
        exec (.lpPpr m tag ok) s = .next (s.ended (finalResp h m r 0x40 0x102 [])))) ∧
    (∀ e, Serving s m tag 0x0D05 r → h.ident.bench = true → (q.tier = 2 ∨ q.tier = 3) → q.kind = 1 → raddrPlace h q = true →
      (q.lane < lanesOf q.tier → exec (.memMargin m tag e) s = .next (s.ended (doneCommand h (testChannels h (testKeys q)) m r
        (leBytes 4 1 ++ zeros 4 ++ (leBytes 2 q.lane ++ leBytes 2 (e.getD q.lane (0, 0)).1 ++ leBytes 2 (e.getD q.lane (0, 0)).2 ++ zeros 2))))) ∧
      (q.lane = 0xFFFF → exec (.memMargin m tag e) s = .next (s.ended (doneCommand h (testChannels h (testKeys q)) m r
        (leBytes 4 (lanesOf q.tier) ++ zeros 4 ++ (List.range (lanesOf q.tier)).flatMap (fun l =>
          leBytes 2 l ++ leBytes 2 (e.getD l (0, 0)).1 ++ leBytes 2 (e.getD l (0, 0)).2 ++ zeros 2)))))) ∧
    (∀ a b x n, Serving s m tag 0x0D06 r → h.ident.bench = true → x = leAt r.payload 0 8 → n = leAt r.payload 8 4 → x % 4096 = 0 → n ≠ 0 →
      regionOf x ≤ 1 → x < 2 ^ 52 →
      (populated h x = true → populated h (x + 4096 * n - 1) = true → regionOf (x + 4096 * n - 1) = regionOf x →
        exec (.memTest m tag a b) s = .next (s.ended (doneCommand h
          ((granuleLines x n).foldl (fun g l => clearLine (forgetLine g l) (l * 64)) h) m r
          (leBytes 1 (flag (decide (a ≠ 0))) ++ zeros 3 ++ leBytes 4 a ++ leBytes 8 (if a = 0 then 0 else b))))) ∧
      ((populated h x = false ∨ populated h (x + 4096 * n - 1) = false ∨ regionOf (x + 4096 * n - 1) ≠ regionOf x) →
        exec (.memTest m tag a b) s = .next (s.ended (finalResp h m r 0x20 0x103 [])))) ∧
    (Serving s m tag 0x0D07 r → h.ident.bench = true → raddrPlace h q = true →
      (q.bank ≠ 0xFF → q.bank < banksOf q.tier → exec (.repairResourcesGet m tag) s = .next (s.ended (finalResp h m r 0 0
        (leBytes 4 1 ++ zeros 4 ++ (leBytes 1 q.bank ++ leBytes 1 (min 255 (rowsLeft h q q.bank)) ++ leBytes 1 (min 255 (lanesLeft h q)) ++ zeros 1))))) ∧
      (q.bank = 0xFF → exec (.repairResourcesGet m tag) s = .next (s.ended (finalResp h m r 0 0
        (leBytes 4 (banksOf q.tier) ++ zeros 4 ++ (List.range (banksOf q.tier)).flatMap (fun k =>
          leBytes 1 k ++ leBytes 1 (min 255 (rowsLeft h q k)) ++ leBytes 1 (min 255 (lanesLeft h q)) ++ zeros 1)))))) ∧
    (∀ ok c o, Serving s m tag 0x0D08 r → h.ident.bench = true → raddrOk h q 2 0 = true → rowsLeft h q q.bank ≠ 0 → c = chanAt h q.unit →
      o = testRow (setChan h q.unit { c with
        softRows := if (q.chan, q.bank, q.row) ∈ c.softRows then c.softRows else c.softRows ++ [(q.chan, q.bank, q.row)] }) q →
      exec (.hbmSppr m tag ok) s = .next (s.ended (doneCommand h (if ok then o else recordWrite o
        { type := 0x0406, part := 0xFF, unitKind := 17, unit := raddrUnit q, arg0 := 0x0D08 }) m r (leBytes 1 (flag (!ok)) ++ zeros 7)))) ∧
    (∀ ok c k o, Serving s m tag 0x0D09 r → h.ident.bench = true → raddrOk h q 2 0 = true → rowsLeft h q q.bank ≠ 0 → c = chanAt h q.unit →
      k = setChan h q.unit { c with softRows := c.softRows.erase (q.chan, q.bank, q.row) } →
      o = testRow { k with memhw := { k.memhw with rowUsed := tabMod 0 k.memhw.rowUsed (bankKey q q.bank) (fun x => x + 1) } } q →
      exec (.hbmHppr m tag ok) s = .next (s.ended (doneCommand h (if ok then o else recordWrite o
        { type := 0x0406, part := 0xFF, unitKind := 17, unit := raddrUnit q, arg0 := 0x0D09 }) m r (leBytes 1 (flag (!ok)) ++ zeros 7)))) ∧
    (∀ ok k x o, Serving s m tag 0x0D0A r → h.ident.bench = true → raddrOk h q 2 1 = true → lanesLeft h q ≠ 0 →
      k = { h with memhw := { h.memhw with laneUsed := tabMod 0 h.memhw.laneUsed (laneKey q) (fun x => x + 1) } } → x = chanAt h q.unit →
      o = testChannels (setChan k q.unit { x with coldChans := q.chan / 2 :: x.coldChans.erase (q.chan / 2) })
        [32 * q.unit + q.chan / 2 * 2, 32 * q.unit + q.chan / 2 * 2 + 1] →
      exec (.hbmLaneRemap m tag ok) s = .next (s.ended (doneCommand h (if ok then o else recordWrite o
        { type := 0x0406, part := 0xFF, unitKind := 17, unit := raddrUnit q, arg0 := 0x0D0A }) m r (leBytes 1 (flag (!ok)) ++ zeros 7)))) ∧
    (∀ ok o, Serving s m tag 0x0D0B r → h.ident.bench = true → raddrOk h q 3 0 = true → rowsLeft h q q.bank ≠ 0 →
      o = testRow { h with memhw := { h.memhw with rowUsed := tabMod 0 h.memhw.rowUsed (bankKey q q.bank) (fun x => x + 1) } } q →
      exec (.lpPpr m tag ok) s = .next (s.ended (doneCommand h (if ok then o else recordWrite o
        { type := 0x0406, part := 0xFF, unitKind := 17, unit := raddrUnit q, arg0 := 0x0D0B }) m r (leBytes 1 (flag (!ok)) ++ zeros 7)))) ∧
    (∀ g k hit, k = rowKey (raddrUnit q) (if q.tier = 2 then q.chan else q.rank) q.bank q.row →
      hit = (fun l => decide (regionOf (l * 64) ≤ 1 ∧ lineRow g (l * 64) = k)) →
      testRow g q = { g with
        memhw := { g.memhw with rowTests := tabPut 0 g.memhw.rowTests k (g.free + 1) }, free := g.free + 1,
        sel := { g.sel with written := tabClear g.sel.written hit }, coh := { g.coh with unknown := tabClear g.coh.unknown hit } }) ∧
    (∀ g ks hit, hit = (fun l => decide (channelKey g (l * 64) ∈ ks)) →
      testChannels g ks = { g with
        memhw := { g.memhw with tests := ks.foldl (fun t k => tabPut 0 t k (g.free + 1)) g.memhw.tests }, free := g.free + 1,
        sel := { g.sel with written := tabClear g.sel.written hit }, coh := { g.coh with unknown := tabClear g.coh.unknown hit } })

/-- The sync marker, the reference clock, recalibration, temperature and refresh of memories. For every state: a sync marker advances the
time base by 1 us less what is slewed back, at most 1 ns in 16, or with what is still ahead (forward whole is the model's choice, log
entry 78), counts itself, and gives the time base to an island that has been waking for 4 us; HOLDOVER stays where the reference is lost, the
causeway gives a reason or more than 1 ns is left to slew, and otherwise ends with that marker, with its record; a lost reference enters
HOLDOVER once, with its record; one restored is followed after 10 ms with the difference to be slewed, within the drift R72 allows, and one
that stands further off changes nothing; a recalibration of an open tier counts itself and makes each lane below its margin a candidate,
with MARGIN_LOW recorded; a near stack's temperature sets the row of Table 10.6 by its thresholds and 3 degrees of hysteresis, and 105
degrees is a thermal trip; a far rank's MR4 sets the refresh of its channel to that of its hottest rank and the throttle while a rank is
over its limit, FAR_HOT recorded; activations of a row that its device has count and at 512 refresh the neighbours, with RFM as often as the
device asks (log entry 93); a refresh of a stack or channel that is not in self-refresh counts itself, and a row whose neighbours it covers
starts its count anew. What names no open tier, stack, channel or row changes nothing. That rows due at an instant move the time base there
is the model's choice (log entry 1). -/
def Obligations.ClockAndMemoryRows : Prop :=
  ∀ (s : State) (h : Hw), h = clearSent s.hw →
    (∀ back fwd t left g, back = min (-h.tb.slew).toNat 62 → fwd = h.tb.slew.toNat → t = h.tb.now + (1000 - back) + fwd →
      left = h.tb.slew + back - fwd → g = { h with
        tb := { h.tb with now := t, slew := left, markers := h.tb.markers + 1 }, islands := tabMap {} h.islands (fun _ y => loadTb t y) } →
      ((h.tb.holdover = false ∨ h.tb.refLost = true ∨ h.tb.netHold = true ∨ left < -1) → exec .syncMarker s = .next (s.ended g)) ∧
      (h.tb.holdover = true → h.tb.refLost = false → h.tb.netHold = false → -1 ≤ left → exec .syncMarker s =
        .next (s.ended (recordWrite { g with tb := { g.tb with holdover := false } } { type := 0x090E, arg0 := 0 })))) ∧
    (∀ i (y : IslandState) t1 t, y = islandAt h i → y.power = .waking t1 → h.tb.slew = 0 → h.tb.holdover = false → tabWf {} h.islands = true →
      t = h.tb.now + 1000 → Completes .syncMarker s (fun u => islandAt u.hw i = if t1 + 4000 ≤ t then { y with hasTb := true } else y)) ∧
    (h.tb.refLost = true → exec .tbRefLost s = .next (s.ended h)) ∧
    (∀ g, h.tb.refLost = false → g = { h with tb := { h.tb with refLost := true, holdSince := h.tb.now } } →
      (h.tb.holdover = true → exec .tbRefLost s = .next (s.ended g)) ∧
      (h.tb.holdover = false → exec .tbRefLost s = .next (s.ended (dropIns (recordWrite
        { g with tb := { g.tb with holdover := true } } { type := 0x090E, arg0 := 1 }))))) ∧
    (∀ a, h.tb.refLost = false → exec (.tbRefRestored a) s = .next (s.ended h)) ∧
    (∀ (a : Int) t g, h.tb.refLost = true → t = max h.tb.now (h.tb.holdSince + 10000000) → a.natAbs ≤ driftBound (t - h.tb.holdSince) →
      g = { h with tb := { h.tb with now := t, refLost := false, slew := h.tb.slew + a } } →
      ((h.tb.netHold = true ∨ 1 < g.tb.slew.natAbs ∨ h.tb.holdover = false) → exec (.tbRefRestored a) s = .next (s.ended g)) ∧
      (h.tb.netHold = false → g.tb.slew.natAbs ≤ 1 → h.tb.holdover = true → exec (.tbRefRestored a) s =
        .next (s.ended (recordWrite { g with tb := { g.tb with holdover := false } } { type := 0x090E, arg0 := 0 })))) ∧
    (∀ (a : Int), h.tb.refLost = true → driftBound (max h.tb.now (h.tb.holdSince + 10000000) - h.tb.holdSince) < a.natAbs →
      exec (.tbRefRestored a) s = .next (s.ended h)) ∧
    (∀ k c l g, tierOpen h k = true → h.memhw.selfRefresh = false → g = setChan h k { chanAt h k with recals := (chanAt h k).recals + 1 } →
      exec (.recalibration k c []) s = .next (s.ended g) ∧
      exec (.recalibration k c l) s = .next (s.ended (l.foldl (fun u x => recordWrite (addCandidate u (laneCand k c x))
        { type := 0x0405, cls := 1, part := 0xFF, unitKind := 17, unit := k, arg1 := trainArg k, arg2 := x }) g))) ∧
    (∀ k c l, (tierOpen h k = false ∨ h.memhw.selfRefresh = true) → exec (.recalibration k c l) s = .next (s.ended h)) ∧
    (∀ k t x, k ∈ tierUnits h true → x = chanAt h k →
      ((t < 340 ∧ x.refresh ≠ 2 ∧ x.refresh ≠ 4 ∨ t ≤ 328) → exec (.nearHot k t) s =
        .next (s.ended (setChan h k { x with temp := t, refresh := 1, throttle := 100 }))) ∧
      ((340 ≤ t ∧ t < 380 ∧ x.refresh ≠ 4 ∨ 340 ≤ t ∧ t ≤ 368 ∨ 328 < t ∧ t ≤ 368 ∧ (x.refresh = 2 ∨ x.refresh = 4)) → exec (.nearHot k t) s =
        .next (s.ended (setChan h k { x with temp := t, refresh := 2, throttle := 100 }))) ∧
      (t < 420 → (380 ≤ t ∨ 368 < t ∧ x.refresh = 4) → exec (.nearHot k t) s = .next (s.ended (recordLimited
        (setChan h k { x with temp := t, refresh := 4, throttle := 50 }) { type := 0x0403, part := 0xFF, unitKind := 17, unit := k, arg0 := t }))) ∧
      (420 ≤ t → exec (.nearHot k t) s = .next (s.ended (thermalTrip
        (setChan h k { x with temp := t, refresh := 4, throttle := 50 }) 17 k t)))) ∧
    (∀ k t, k ∉ tierUnits h true → exec (.nearHot k t) s = .next (s.ended h)) ∧
    (∀ n k a b d x rs g, n < 128 → k < 2 → x = chanAt h (16 + n) → rs = x.mr4.set k { value := a, mult := b, derate := d, over_ := false } →
      g = setChan h (16 + n) { x with mr4 := rs, temp := (rs.map (·.value)).foldl max 0, refresh := (rs.map (·.mult)).foldl max 0,
                                      throttle := if rs.any (·.over_) then 25 else 100 } →
      exec (.farHot (n, k) a (b, d) false) s = .next (s.ended g)) ∧
    (∀ n k a b d x rs g, n < 128 → k < 2 → x = chanAt h (16 + n) → k < x.mr4.length →
      rs = x.mr4.set k { value := a, mult := b, derate := d, over_ := true } →
      g = setChan h (16 + n) { x with mr4 := rs, temp := (rs.map (·.value)).foldl max 0, refresh := (rs.map (·.mult)).foldl max 0, throttle := 25 } →
      exec (.farHot (n, k) a (b, d) true) s = .next (s.ended (recordLimited g
        { type := 0x0404, part := 0xFF, unitKind := 17, unit := 16 + n, arg0 := a }))) ∧
    (∀ n k a b o, (128 ≤ n ∨ 2 ≤ k) → exec (.farHot (n, k) a b o) s = .next (s.ended h)) ∧
    (∀ k c b row n x d y m, tierOpen h k = true → d = (chanAt h k).dev → c < (if k < 16 then 32 else d.ranks) → b < (if k < 16 then 48 else 16) →
      row < d.rows → x = tabGet 0 h.memhw.acts (rowKey k c b row) + n → y = tabGet 0 h.memhw.raa (bankAt k c b) + n →
      m = { h.memhw with acts := tabPut 0 h.memhw.acts (rowKey k c b row) (x % 512), targeted := h.memhw.targeted + x / 512 } →
      (d.rfmAt = 0 → exec (.targetedRefresh k c b row n) s = .next (s.ended { h with memhw := m })) ∧
      (d.rfmAt ≠ 0 → exec (.targetedRefresh k c b row n) s = .next (s.ended { h with
        memhw := { m with raa := tabPut 0 m.raa (bankAt k c b) (y % d.rfmAt), rfms := m.rfms + y / d.rfmAt } }))) ∧
    (∀ k c b row n d, d = (chanAt h k).dev → (tierOpen h k = false ∨ (if k < 16 then 32 else d.ranks) ≤ c ∨ (if k < 16 then 48 else 16) ≤ b ∨
      d.rows ≤ row) → exec (.targetedRefresh k c b row n) s = .next (s.ended h)) ∧
    (∀ r c g, (r.unit ∈ tierUnits h true ∨ r.unit ∈ tierUnits h false) → h.start.st ≠ PowerSt.off → h.memhw.selfRefresh = false →
      c = chanAt h r.unit → g = setChan h r.unit { c with refreshes := c.refreshes + 1 } → tabWf 0 h.memhw.acts = true →
      Completes (.refresh r) s (fun t => t.hw = { g with memhw := { g.memhw with acts := t.hw.memhw.acts } } ∧ t.mem = s.mem ∧
        (∀ q, q / 2 ^ 32 = bankAt r.unit r.chan r.bank → coversNear c.dev r.first r.count (q % 2 ^ 32) = true →
          tabGet 0 t.hw.memhw.acts q = 0) ∧
        (∀ q, (q / 2 ^ 32 ≠ bankAt r.unit r.chan r.bank ∨ coversNear c.dev r.first r.count (q % 2 ^ 32) = false) →
          tabGet 0 t.hw.memhw.acts q = tabGet 0 h.memhw.acts q))) ∧
    (∀ r, (h.start.st = PowerSt.off ∨ h.memhw.selfRefresh = true ∨ r.unit ∉ tierUnits h true ∧ r.unit ∉ tierUnits h false) → exec (.refresh r) s = .next (s.ended h))

/-- The power-down and wake of an island: CLOSE to GATE, GATE_ABANDON, WAKE_REQUESTED and STRAITS_OPEN. For every state and island: CLOSE of
an open island the package has and Table 2.1 lets be gated begins its closing, and of one it does not answers BUSY and changes nothing else;
DRAIN_COMPLETE within 5 us of the close takes a drained island to the ghost responders, a cluster with its dirty lines written back;
GATE_ABANDON 5 us after the close opens it again, BUSY; GATE 100 ns after the drain takes power and time base away, and what gating loses
with them, which the response reports of a quad; WAKE_REQUESTED of a gated island brings power back, of one that is drained waits for the
gate first, and of one that closes is dropped (the model's choice, log entry 79); STRAITS_OPEN of a waking island that has loaded the time
base opens its straits, and before that does nothing; what was held for RETRY is presented again when the ghost responders answer or the
straits open, and harts of a cluster whose start waited then start; each row at an island in another state changes nothing. That the time
base moves to the instant a timed row is due is the model's choice (log entry 1). -/
def Obligations.GatingRows : Prop :=
  ∀ (s : State) (h : Hw) (i : Island) (x : IslandState), h = clearSent s.hw → x = islandAt h i →
    (x.power = .open → i.idx < kindCount h i.kind → mayGate h i = true → exec (.close i) s =
      .next (s.ended (setIsland h i { x with power := .closing h.tb.now, gateBusy := false, gateLost := false }))) ∧
    (x.power = .open → i.idx < kindCount h i.kind → mayGate h i = false →
      exec (.close i) s = .next (s.ended (setIsland h i { x with gateBusy := true, gateLost := false }))) ∧
    ((x.power ≠ .open ∨ kindCount h i.kind ≤ i.idx) → exec (.close i) s = .next (s.ended h)) ∧
    (∀ t g, x.power = .closing t → h.tb.now ≤ t + 5000 → drainedIsland h i = true →
      g = setIsland h i { x with power := .drained h.tb.now, held := 0 } →
      (i.kind ≠ IslandKind.cluster → exec (.drainComplete i) s = .next (s.routed (presentHeld (g, s.mem) i))) ∧
      (i.kind = IslandKind.cluster → exec (.drainComplete i) s = .next (s.routed (presentHeld (emptyCluster g i.idx true, s.mem) i)))) ∧
    (∀ t, x.power = .closing t → (t + 5000 < h.tb.now ∨ drainedIsland h i = false) → exec (.drainComplete i) s = .next (s.ended h)) ∧
    ((∀ t, x.power ≠ .closing t) → exec (.drainComplete i) s = .next (s.ended h)) ∧
    (∀ t g, x.power = .closing t → g = setIsland { h with tb := { h.tb with now := max h.tb.now (t + 5000) } } i
        { x with power := .open, held := 0, gateBusy := true } →
      (i.kind ≠ IslandKind.cluster → exec (.gateAbandon i) s = .next (s.routed (presentHeld (g, s.mem) i))) ∧
      (i.kind = IslandKind.cluster → exec (.gateAbandon i) s = .next (s.routed (presentHeld (startWaiting g i.idx, s.mem) i)))) ∧
    ((∀ t, x.power ≠ .closing t) → exec (.gateAbandon i) s = .next (s.ended h)) ∧
    (∀ t g, x.power = .drained t → g = { h with tb := { h.tb with now := max h.tb.now (t + 100) } } → exec (.gate i) s =
      .next (s.ended (gateLoss (setIsland g i
        { x with power := .gated, hasTb := false, gateLost := decide (i.kind = IslandKind.quad) }) i))) ∧
    (∀ t g, x.power = .drained t → (i.kind = .rootPort ∨ i.kind = .baseIdurrum ∨ i.kind = .ldiePort) →
      g = { h with tb := { h.tb with now := max h.tb.now (t + 100) } } →
      exec (.gate i) s = .next (s.ended (setIsland g i { x with power := .gated, hasTb := false, gateLost := false }))) ∧
    ((∀ t, x.power ≠ .drained t) → exec (.gate i) s = .next (s.ended h)) ∧
    (x.power = .gated → exec (.wakeRequested i) s = .next (s.ended (setIsland h i { x with power := .waking h.tb.now }))) ∧
    (∀ t g, x.power = .drained t → g = gateLoss (setIsland { h with tb := { h.tb with now := max h.tb.now (t + 100) } } i
        { x with power := .gated, hasTb := false, gateLost := decide (i.kind = IslandKind.quad) }) i →
      exec (.wakeRequested i) s = .next (s.ended (setIsland g i { islandAt g i with power := .waking g.tb.now }))) ∧
    (x.power ≠ .gated → (∀ t, x.power ≠ .drained t) → exec (.wakeRequested i) s = .next (s.ended h)) ∧
    (∀ t g, x.power = .waking t → x.hasTb = true → g = setIsland h i { x with power := .open, held := 0 } →
      (i.kind ≠ IslandKind.cluster → exec (.straitsOpen i) s = .next (s.routed (presentHeld (g, s.mem) i))) ∧
      (i.kind = IslandKind.cluster → exec (.straitsOpen i) s = .next (s.routed (presentHeld (startWaiting g i.idx, s.mem) i)))) ∧
    (((∀ t, x.power ≠ .waking t) ∨ x.hasTb = false) → exec (.straitsOpen i) s = .next (s.ended h))

/-- Messages across straits, their credits and replays, the handshake timeout and the ghost responders. For every state, pair of islands that
the package has, class and number of credits that the receiver returns first: a message with a credit left, and at a REQ or SNP room for
its answer, crosses to an open island, counts itself, holds its credit until it is returned, keeps receive space for its answer, frees with
the last flit of an answer what was kept for it, and leaves its flit as it was sent in the replay buffer and as it arrived at the receiver;
each of up to three transmissions in a row with a parity error in a word is discarded and replayed, and counted for both directions of the
strait in one counter and its bucket; a class with no credit left waits, but RSP and CMP cross without one; a REQ between islands that
partitions share waits where its partition holds half the credits (Table 3.8); REQ and SNP into an island that retries are held for RETRY;
nothing leaves an isolated island, nothing crosses to one whose ghost answers (that is GHOST_DISCARD) or, but RETRY, that has no time base;
a fourth parity error, or a handshake with no answer, is a cause of doubt at unit scope where an end can be gated, at package scope
otherwise; a handshake into an island that retries or whose ghost answers raises none; a ghost responder discards a posted request and
counts and records it, answers a read with data marked poisoned and ISLAND_OFF, another request with ISLAND_OFF, a snoop with nothing, and
takes an RSP, DAT or CMP as a cause of doubt; an island without a ghost discards nothing; what names an island that the package does not
have changes nothing. -/
def Obligations.StraitRows : Prop :=
  ∀ (s : State) (h : Hw) (a b : Island) (c : MsgClass) (p : Nat) (x : IslandState) (u : Nat × Nat), h = clearSent s.hw →
    x = islandAt h b → u = (if gateableKind a.kind then islandUnit a else islandUnit b) →
    (∀ f n, (islandExists h a = false ∨ islandExists h b = false) → exec (.straitMessage a b c f p n) s = .next (s.ended h)) ∧
    ((islandExists h a = false ∨ islandExists h b = false) → exec (.straitHandshakeTimeout a b p) s = .next (s.ended h)) ∧
    (∀ f n g y e, islandExists h a = true → islandExists h b = true → g = returnCredits h a b c n → y = straitAt g a b → e = flitErrs f →
      (x.power = .open → isolated h a = false → x.hasTb = true → (creditFree a b y c p = true ∧ answerRoom y c = true ∨ c = .rsp ∨ c = .cmp) →
        e ≤ 3 → ∀ v w, v = delivered g a b c f p → w = { v with
          straits := tabMod {} v.straits (pairKey a b) (fun z => { z with errors := z.errors + e }) } →
        exec (.straitMessage a b c f p n) s = .next (s.ended ((List.range e).foldl (fun k _ => corrected k 6 (pairKey a b) 0 none) w))) ∧
      (x.power = .open → isolated h a = false → x.hasTb = true → (creditFree a b y c p = false ∨ answerRoom y c = false) → c ≠ .rsp → c ≠ .cmp →
        exec (.straitMessage a b c f p n) s = .next (s.ended g)) ∧
      (x.power = .open → isolated h a = false → x.hasTb = true → (creditFree a b y c p = true ∧ answerRoom y c = true ∨ c = .rsp ∨ c = .cmp) →
        4 ≤ e → exec (.straitMessage a b c f p n) s = .next (s.ended (causeOfDoubt
          (setStrait g a b { y with buffer := f.words, replays := y.replays + 3 })
          (if gateableKind a.kind || gateableKind b.kind then .unit else .package) u.1 u.2 p { type := 0x0203, arg0 := 0, arg1 := islandKey b }))) ∧
      (retrying h b = true → isolated h a = false → (c = .req ∨ c = .snp) →
        exec (.straitMessage a b c f p n) s = .next (s.ended (setIsland g b { x with held := x.held + 1 }))) ∧
      ((isolated h a = true ∨ ghosted h b = true) → exec (.straitMessage a b c f p n) s = .next (s.ended g)) ∧
      (isolated h a = false → ghosted h b = false → x.hasTb = false → c ≠ .req → c ≠ .snp →
        exec (.straitMessage a b c f p n) s = .next (s.ended g))) ∧
    (∀ f y, islandExists h a = true → islandExists h b = true → tabWf {} h.straits = true → straitKey a b ≠ straitKey b a → x.power = .open →
      isolated h a = false → x.hasTb = true → y = straitAt h a b → creditFree a b y c p = true → answerRoom y c = true → flitErrs f = 0 →
      Completes (.straitMessage a b c f p 0) s (fun t => t.mem = s.mem ∧
        t.hw = { h with straits := t.hw.straits } ∧ straitAt t.hw a b = { y with
          used := y.used.set (classIdx c) (y.used.getD (classIdx c) [] ++ [p]),
          answers := match answersTo c with | some j => bump y.answers j | none => y.answers,
          buffer := f.words, got := (transmission f 0).map (· % 2 ^ 16),
          delivered := bump y.delivered (classIdx c) } ∧
        (∀ j r, answered_ c = some j → f.ends = true → r = straitAt h b a →
          straitAt t.hw b a = { r with answers := r.answers.set j (r.answers.getD j 0 - 1) }) ∧
        ((answered_ c = none ∨ f.ends = false) → straitAt t.hw b a = straitAt h b a) ∧
        (∀ a' b', straitKey a' b' ≠ straitKey a b → straitKey a' b' ≠ straitKey b a → straitAt t.hw a' b' = straitAt h a' b'))) ∧
    (∀ y, sharedIsland a = true → sharedIsland b = true → 8 ≤ ((y.used.getD 0 []).filter (· = p)).length → creditFree a b y .req p = false) ∧
    (islandExists h a = true → islandExists h b = true → ghosted h b = false → retrying h b = false →
      exec (.straitHandshakeTimeout a b p) s = .next (s.ended (causeOfDoubt h
        (if gateableKind a.kind || gateableKind b.kind then .unit else .package) u.1 u.2 p { type := 0x0203, arg0 := 1, arg1 := islandKey b }))) ∧
    ((ghosted h b = true ∨ retrying h b = true) → exec (.straitHandshakeTimeout a b p) s = .next (s.ended h)) ∧
    (∀ ad n, ghosted h b = true → n = (x.ghostDiscard + 1) % 2 ^ 32 → exec (.ghostDiscard b .req .posted p ad) s =
      .next (s.ended (recordWrite (setIsland h b { x with ghostDiscard := n }) {
        type := 0x0201, part := p,
        unitKind := (islandUnit b).1, unit := (islandUnit b).2, addr := toCompact h.ident.position ad, arg0 := n }))) ∧
    (∀ ad, ghosted h b = true → Completes (.ghostDiscard b .req .read p ad) s (fun t => t.hw.coh.answerBad = 4 ∧ t.hw.coh.answerPoison = true ∧
      t.hw.coh.answer.length = 64 ∧ t.hw = { h with
        coh := { h.coh with answer := t.hw.coh.answer, answerBad := 4, answerPoison := true }, free := t.hw.free } ∧ t.mem = s.mem)) ∧
    (∀ ad k, ghosted h b = true → k ≠ .posted → k ≠ .read → exec (.ghostDiscard b .req k p ad) s =
      .next (s.ended { h with coh := { h.coh with answer := [], answerBad := 4, answerPoison := false } })) ∧
    (∀ ad k, ghosted h b = true → exec (.ghostDiscard b .snp k p ad) s =
      .next (s.ended { h with coh := { h.coh with answer := [], answerBad := 0, answerPoison := false } })) ∧
    (∀ ad k, ghosted h b = true → c ≠ .req → c ≠ .snp → exec (.ghostDiscard b c k p ad) s = .next (s.ended
      (causeOfDoubt h .unit (islandUnit b).1 (islandUnit b).2 p { type := 0x0202, arg0 := classIdx c }))) ∧
    (∀ ad k, ghosted h b = false → exec (.ghostDiscard b c k p ad) s = .next (s.ended h))

/-- Stores to the windows and the custom CSRs, FQ_HEAD, FQ_OVF_TAKE, KNT_SIGNAL and SETEIPNUM_LE. For every state: FQ_HEAD takes a value from
HEAD to TAIL and ignores any other; FQ_OVF_TAKE copies the live counters, zeroes them and clears OVF; KNT_SIGNAL of a knot of the
partition signals it by its type, of a poisoned one is recorded, of any other does nothing; SETEIPNUM_LE sets the pending bit of an
identity the file holds of a hart of the partition's cluster, and otherwise nothing; a store to a window that sets no reserved bit is the
same as the row of its register, a zero in the upper half of an action register acts on nothing, and a window past partition 16 or an
offset past 2^24 ignores it; one that sets reserved bits has an unpredictable result, of the same register where it acts, or, where no
register takes the bits, at a free place of the page (the model's choice, log entry 24); request bytes take the value stored, and a free
one while REQ_FREE is 0 (the model's choice, log entry 70); MBX_STATUS clears OVERRUN where its bit is one; an interrupt-table entry takes
the bits that have a meaning, and a VALID one stored by halves is half-rewritten until the other half; SEL_ and PWR_ take no store; the owner
of an APLIC source is assigned by the Steward and alone configures it (log entry 83); a CSR of a hart that runs answers the old value as it
is written, a custom one from a mode it does not list is an illegal instruction, a write-only one reads zero, YHWERR keeps a reserved CAUSE
or SOURCE, YHWADDR reads zero in [5:0]; of a hart that does not run nothing is written. -/
def Obligations.RegisterWindowStores : Prop :=
  ∀ (s : State) (h : Hw), h = clearSent s.hw →
    (∀ k v x, k ≤ 17 → x = queueAt h k →
      (((BitVec.ofNat 32 v) - x.head).toNat ≤ queueUsed x →
        exec (.fqHead k v) s = .next (s.ended (setQueue h k { x with head := BitVec.ofNat 32 v }))) ∧
      (queueUsed x < ((BitVec.ofNat 32 v) - x.head).toNat → exec (.fqHead k v) s = .next (s.withHw h)) ∧
      exec (.fqOvfTake k) s = .next (s.ended (setQueue h k { x with snap := x.live, live := List.replicate 6 {}, ovf := false }))) ∧
    (∀ k v, 17 < k → exec (.fqHead k v) s = .next (s.ended h) ∧ exec (.fqOvfTake k) s = .next (s.ended h)) ∧
    (∀ p k v x o, x = knotAt h k → knotOwner h k = p → x.poison = false → x.broken = false →
      o = (if x.type = 0 then 1 else if x.type = 1 then 3 else if x.type = 2 then (if v = 0#64 then 6 else 5) else 7) →
      exec (.kntSignal p k v) s = .next (s.settled (signalKnot h k o v.toNat h.ident.position, s.mem))) ∧
    (∀ p k v x o, x = knotAt h k → knotOwner h k = p → x.poison = true → o = recordWrite h { type := 0x0609, part := p, arg0 := k } →
      exec (.kntSignal p k v) s = .next (s.settled (o, s.mem))) ∧
    (∀ p k v x, x = knotAt h k → knotOwner h k = p → x.poison = false → x.broken = true → exec (.kntSignal p k v) s = .next (s.settled (h, s.mem))) ∧
    (∀ p k v, knotOwner h k ≠ p → exec (.kntSignal p k v) s = .next (s.settled (h, s.mem))) ∧
    (∀ p k v, knotOwner h k ≠ p → h.sync.pools = [] → h.sync.ledgers = [] → exec (.kntSignal p k v) s = .next (s.withHw h)) ∧
    (∀ p n f v, p ≤ 16 → n < 128 → f < 8 → hartOwner h n = p →
      exec (.seteipnumLe p n f v) s = .next (s.ended (imsicSet h n f (v % 2 ^ 32)))) ∧
    (∀ p n f v, (hartOwner h n ≠ p ∨ 16 < p ∨ 128 ≤ n ∨ 8 ≤ f) → exec (.seteipnumLe p n f v) s = .next (s.ended h)) ∧
    (∀ n f v, n < 128 → f < 8 → 1 ≤ v → v ≤ (if f = 0 then 255 else 2047) →
      imsicSet h n f v = noteIrq { h with imsic := tabPut false h.imsic ((n * 8 + f) * 2048 + v) true }) ∧
    (∀ n f v, (v = 0 ∨ (if f = 0 then 255 else 2047) < v) → imsicSet h n f v = h) ∧
    (∀ p w v, p ≤ 16 →
      ((w = .lower ∨ (w = .full ∧ v < 2 ^ 32)) → exec (.registerWrite (.window p 0x4000) w v) s = exec (.fqHead p (v % 2 ^ 32)) s) ∧
      (w ≠ .upper → exec (.registerWrite (.window p 0x4020) w v) s = exec (.fqOvfTake p) s) ∧
      exec (.registerWrite (.window p 0x4000) .upper 0) s = .next (s.withHw h) ∧
      exec (.registerWrite (.window p 0x4020) .upper v) s = .next (s.withHw h) ∧
      exec (.registerWrite (.window p 0x6000) .upper 0) s = .next (s.withHw h) ∧
      (v < 8 → NoWait (stir (ringDoorbell h (.part p) v)) →
        exec (.registerWrite (.window p 0x1080) .full v) s = exec (.mbxDoorbell (.part p) v) s) ∧
      exec (.registerWrite (.window p 0x1080) .upper 0) s = .next (s.withHw h) ∧
      (NoWait (advanceEpoch h p 0) → exec (.registerWrite (.window p 0x6000) .full 1) s = exec (.all p) s) ∧
      (NoWait (advanceEpoch h p (asidEpoch (v % 2 ^ 16))) →
        exec (.registerWrite (.window p 0x6000) .full (2 + 2 ^ 16 * (v % 2 ^ 16))) s = exec (.asid p (v % 2 ^ 16)) s) ∧
      exec (.registerWrite (.window p 0x6000) .full 0) s = .next (s.withHw h) ∧
      (bitOf v 3 = true → v < 16 →
        exec (.registerWrite (.window p 0x1090) .full v) s = .next (s.ended (setBox h (.part p) { boxAt h (.part p) with overrun := false }))) ∧
      (v < 2 ^ 48 → exec (.registerWrite (.window p 0) .full v) s = .next (s.withHw h)) ∧
      exec (.registerWrite (.window p 0x5000) .full v) s = .next (s.withHw h)) ∧
    (∀ p v f o, p ≤ 16 →
      (2 ^ 32 ≤ v → v < 2 ^ 64 → f = takeFree h →
        exec (.registerWrite (.window p 0x4000) .full v) s = .next (s.ended (fqHead f.2 p (f.1.toNat &&& 0xFFFFFFFF)))) ∧
      (2 ^ 48 ≤ v → v < 2 ^ 64 → f = takeFree (takeFree h).2 → o = windowPlain (f.2, s.mem) p (strayOff h 0) f.1.toNat .full →
        exec (.registerWrite (.window p 0) .full v) s = .next (s.routed (waiting (fun _ => o) (h, s.mem))))) ∧
    (∀ p k v x f, p ≤ 16 → k < 8 → v < 2 ^ 64 → x = boxAt h (.part p) → f = takeFree h →
      (x.rung = none → exec (.registerWrite (.window p (0x1000 + 8 * k)) .full v) s =
        .next (s.ended (setBox h (.part p) { x with reqHdr := pageWrite x.reqHdr (8 * k) (leBytes 8 v) }))) ∧
      (x.rung ≠ none → exec (.registerWrite (.window p (0x1000 + 8 * k)) .full v) s =
        .next (s.ended (setBox f.2 (.part p) { x with reqHdr := pageWrite x.reqHdr (8 * k) (leBytes 8 f.1.toNat) })))) ∧
    (∀ p i w v, i < 1024 → p ≤ 16 →
      (slipOwner h i = p → (w = .lower ∨ w = .full) → v < 2 ^ 32 → NoWait (stir (setSlip h i (doorbell (slipAt h i) (BitVec.ofNat 32 v)))) →
        exec (.registerWrite (.window p (0x400000 + 4096 * i)) w v) s = exec (.slpDoorbell p i v) s) ∧
      (slipOwner h i ≠ p → exec (.registerWrite (.window p (0x400000 + 4096 * i)) w v) s = .next (s.withHw h)) ∧
      (slipOwner h i = p → NoWait (slipEnable h i) →
        exec (.registerWrite (.window p (0x400000 + 4096 * i + 0x50)) .full 1) s = exec (.enable p i) s) ∧
      (slipOwner h i = p → NoWait (slipDisable h i) →
        exec (.registerWrite (.window p (0x400000 + 4096 * i + 0x50)) .full 2) s = exec (.disable p i) s) ∧
      (slipOwner h i = p → exec (.registerWrite (.window p (0x400000 + 4096 * i + 0x50)) .full 5) s = .next (s.withHw h))) ∧
    (∀ p e v, p ≤ 16 → e < 4096 → (∃ x, x < 2 ^ 21 ∧ (v = x ∨ v = 2 ^ 63 + x)) →
      exec (.registerWrite (.window p (0x10000 + 8 * e)) .full v) s = .next (s.ended { h with
        intTable := tabPut 0 h.intTable (4096 * p + e) (BitVec.ofNat 64 v), intHalf := tabPut 0 h.intHalf (4096 * p + e) 0 })) ∧
    (∀ p e v, p ≤ 16 → e < 4096 → v < 2 ^ 21 → tabGet 0 h.intTable (4096 * p + e) = BitVec.ofNat 64 (2 ^ 63) → tabGet 0 h.intHalf (4096 * p + e) = 0 →
      exec (.registerWrite (.window p (0x10000 + 8 * e)) .lower v) s = .next (s.ended { h with
        intTable := tabPut 0 h.intTable (4096 * p + e) (BitVec.ofNat 64 (2 ^ 63 + v)), intHalf := tabPut 0 h.intHalf (4096 * p + e) 1 })) ∧
    (∀ p o w v, (16 < p ∨ 2 ^ 24 ≤ o) → exec (.registerWrite (.window p o) w v) s = .next (s.withHw h)) ∧
    (∀ o w v, (o / 4096 = 0x100 ∨ o / 4096 = 0x200) → exec (.registerWrite (.steward o) w v) s = .next (s.withHw h)) ∧
    (∀ v, v < 2 ^ 16 → exec (.registerWrite (.steward 0x6000) .full v) s = .next (s.ended { h with faults := { h.faults with intSteward := v } })) ∧
    (∀ p e v x, p ≤ 16 → e < 4096 → x < 2 ^ 21 → v % 2 ^ 32 = 2 ^ 31 → tabGet 0 h.intTable (4096 * p + e) = BitVec.ofNat 64 (2 ^ 63 + x) →
      tabGet 0 h.intHalf (4096 * p + e) = 1 → exec (.registerWrite (.window p (0x10000 + 8 * e)) .upper v) s = .next (s.ended { h with
        intTable := tabPut 0 h.intTable (4096 * p + e) (BitVec.ofNat 64 (2 ^ 63 + x)), intHalf := tabPut 0 h.intHalf (4096 * p + e) 0 })) ∧
    (∀ d q v w k, d < 2 → 1 ≤ q → q ≤ 64 → v ≤ 16 → k = aplicKey d q → tabGet 31 h.edges.irqOwner k ≠ v →
      exec (.registerWrite (.aplicOwner d q) w v) s = .next (s.ended { h with
        edges := { h.edges with irqOwner := tabPut 31 h.edges.irqOwner k v, irqTarget := tabPut 0 h.edges.irqTarget k 0 } })) ∧
    (∀ d q v w, (2 ≤ d ∨ q = 0 ∨ 64 < q) → exec (.registerWrite (.aplicOwner d q) w v) s = .next (s.ended h)) ∧
    (∀ p d q v w k, d < 2 → p ≤ 16 → k = aplicKey d q →
      (tabGet 31 h.edges.irqOwner k = p → exec (.registerWrite (.aplic p d q) w v) s = .next (s.ended { h with
        edges := { h.edges with irqTarget := tabPut 0 h.edges.irqTarget k (v &&& (2 ^ 63 + (2 ^ 21 - 1))) } })) ∧
      (tabGet 31 h.edges.irqOwner k ≠ p → exec (.registerWrite (.aplic p d q) w v) s = .next (s.ended h))) ∧
    (∀ n c o v w, runs h n = false → exec (.registerWrite (.csr n c o) w v) s = .next (s.ended h)) ∧
    (∀ n c o v w k, runs h n = true → csrTrap (hartAt h n) c o = some k →
      exec (.registerWrite (.csr n c o) w v) s = .next (s.ended (takeTrap h n k 0))) ∧
    (∀ (x : Hart) o c, x.mode ≠ 3 → c ∈ [0x7C0, 0x7C1, 0x7C4, 0x7C5, 0x7C6] → csrTrap x c o = some 2) ∧
    (∀ (x : Hart) o c, x.mode = 0 → c ∈ [0x5C0, 0x5C1, 0x6C0, 0x6C1, 0xDC0] → csrTrap x c o = some 2) ∧
    (∀ (x : Hart) o c, x.mode = 3 → c ∈ [0x7C0, 0x7C1, 0x7C4, 0x7C5, 0x7C6, 0x5C0, 0x5C1, 0x6C0, 0x6C1, 0x800] → csrTrap x c o = none) ∧
    (∀ n c v w, runs h n = true → csrTrap (hartAt h n) c .read = none → csrFree c = false →
      exec (.registerWrite (.csr n c .read) w v) s = .next (s.ended (setResult h n (leBytes 8 (csrValue h n c))))) ∧
    (∀ n c, c ∈ [0x7C4, 0x7C6, 0x800] → csrValue h n c = 0) ∧
    (∀ n v w x, runs h n = true → x = hartAt h n → x.mode = 3 →
      exec (.registerWrite (.csr n 0x7C0 .write) w v) s = .next (s.ended (setHart h n { x with
        result := leBytes 8 x.mHwErr.toNat, mHwErr := BitVec.ofNat 64 (writeQual x.mHwErr.toNat v) })) ∧
      exec (.registerWrite (.csr n 0x7C0 .set) w v) s = .next (s.ended (setHart h n { x with
        result := leBytes 8 x.mHwErr.toNat, mHwErr := BitVec.ofNat 64 (writeQual x.mHwErr.toNat (x.mHwErr.toNat ||| v)) })) ∧
      exec (.registerWrite (.csr n 0x7C1 .write) w v) s = .next (s.ended (setHart h n { x with
        result := leBytes 8 x.mHwAddr.toNat, mHwAddr := BitVec.ofNat 64 (v % 2 ^ 64 / 64 * 64) })) ∧
      exec (.registerWrite (.csr n 0x7C5 .write) w v) s = .next (s.ended (setHart h n { x with
        result := leBytes 8 x.startPc.toNat, startPc := BitVec.ofNat 64 (v % 2 ^ 64 / 4 * 4) }))) ∧
    (∀ n v w x, runs h n = true → x = hartAt h n → x.mode = 1 → x.virt = true → exec (.registerWrite (.csr n 0x5C0 .write) w v) s =
      .next (s.ended (setHart h n { x with
        result := leBytes 8 x.vsHwErr.toNat, vsHwErr := BitVec.ofNat 64 (writeQual x.vsHwErr.toNat v) }))) ∧
    (∀ n v w x, runs h n = true → x = hartAt h n → x.mode = 1 → x.virt = false → exec (.registerWrite (.csr n 0x5C0 .write) w v) s =
      .next (s.ended (setHart h n { x with
        result := leBytes 8 x.hsHwErr.toNat, hsHwErr := BitVec.ofNat 64 (writeQual x.hsHwErr.toNat v) }))) ∧
    (∀ n v w x, runs h n = true → x = hartAt h n → x.mode = 3 → exec (.registerWrite (.csr n 0x340 .write) w v) s =
      .next (s.ended (setHart h n { x with result := leBytes 8 (csrOf x 0x340), csrs := tabPut 0 x.csrs 0x340 (v % 2 ^ 64) }))) ∧
    (∀ old v, 7 < v % 256 → (writeQual old v) % 256 = old % 256) ∧
    (∀ old v, 12 < v / 256 % 16 → (writeQual old v) / 256 % 16 = old / 256 % 16)

/-- Doorbells, DONE and RING stores, the slip commands, invalidations and the pause of a stale move. For every state and every slip of the
partition whose window is written: a doorbell ends Idle or Drowse, and from HEAD to DONE + SIZE it becomes TAIL and any other sets
DB_OVERRUN; DONE and RING are taken only of a disabled slip, within the ring invariant; ENABLE of a disabled slip refuses a group not owned
or of another die, a fenced group and a ferry with 32 slips, each with its reason, and otherwise sets RUNNING; DISABLE of a running slip
discards what is not in flight and sets DISABLING, waits for a stop under way, and does nothing to a disabled slip; SLIP_DISABLED comes when
nothing is in flight; RESTART goes on at STOP_SEQ and RESTART_SKIP past it and past the final records that follow; both refuse a group no
longer owned and do nothing to a slip that is not stopped. Another partition's window does nothing. ALL, ASID and VMID advance their one
epoch and mark the stale descriptors. DESCRIPTOR_PAUSE walks a stale dispatched descriptor again. SLP_XINV_SYNC answers zero once the
invalidations of the hart's partition are complete, at once where no store of the hart is still to be performed, and nothing before. -/
def Obligations.SlipCommandRows : Prop :=
  ∀ (s : State) (h : Hw), h = clearSent s.hw →
    (∀ p i x, i < 1024 → p ≤ 16 → slipOwner h i = p → x = slipAt h i →
      (∀ v, ((x.head - x.done).toNat ≤ ((BitVec.ofNat 32 v) - x.done).toNat ∧ ((BitVec.ofNat 32 v) - x.done).toNat ≤ 2 ^ x.log2) →
        exec (.slpDoorbell p i v) s = .next (s.ended (stir (setSlip h i { x with tail := BitVec.ofNat 32 v })))) ∧
      (∀ v, (((BitVec.ofNat 32 v) - x.done).toNat < (x.head - x.done).toNat ∨ 2 ^ x.log2 < ((BitVec.ofNat 32 v) - x.done).toNat) →
        exec (.slpDoorbell p i v) s = .next (s.ended (stir (setSlip h i { x with dbOverrun := true })))) ∧
      (∀ v, x.st = .disabled → (x.tail - BitVec.ofNat 32 v).toNat ≤ 2 ^ x.log2 → exec (.slpDone p i v) s =
        .next (s.ended (setSlip h i { x with done := BitVec.ofNat 32 v, head := BitVec.ofNat 32 v, skip := [], resume := 0 }))) ∧
      (∀ v, (x.st ≠ .disabled ∨ 2 ^ x.log2 < (x.tail - BitVec.ofNat 32 v).toNat) → exec (.slpDone p i v) s = .next (s.ended (setSlip h i x))) ∧
      (∀ l b, x.st = .disabled → 4 ≤ l → l ≤ 16 → b < 2 ^ 44 → (x.tail - x.done).toNat ≤ 2 ^ l →
        exec (.slpRing p i (l + b * 2 ^ 12)) s = .next (s.ended (setSlip h i { x with log2 := l, ring := b * 4096 }))) ∧
      (∀ l b, x.st ≠ .disabled → l < 32 → b < 2 ^ 44 → exec (.slpRing p i (l + b * 2 ^ 12)) s = .next (s.ended (setSlip h i x))) ∧
      (x.st ≠ .disabled → exec (.enable p i) s = .next (s.withHw h)) ∧
      (x.st = .disabled → (unitHolder h 4 x.group ≠ p ∨ groupDie x.group ≠ slipDie i) → exec (.enable p i) s =
        .next (s.ended (refuseEngine (setSlip h i { x with reason := 0x20 }) p 0 noDesc))) ∧
      (x.st = .disabled → unitHolder h 4 x.group = p → groupDie x.group = slipDie i →
        (unitFenced h 4 x.group = true → exec (.enable p i) s = .next (s.ended (setSlip h i { x with reason := 0x2E }))) ∧
        (unitFenced h 4 x.group = false → 32 ≤ (ferrySlips h (8 * x.group + x.ferry)).length →
          exec (.enable p i) s = .next (s.ended (setSlip h i { x with reason := 0x2D }))) ∧
        (unitFenced h 4 x.group = false → (ferrySlips h (8 * x.group + x.ferry)).length < 32 →
          exec (.enable p i) s = .next (s.ended (setSlip h i { x with st := .running, stopping := none, reason := 0 })))) ∧
      (x.st = .running → x.stopping ≠ none → exec (.disable p i) s = .next (s.ended (setSlip h i { x with disableReq := true }))) ∧
      ((x.st = .running ∧ x.stopping = none ∨ x.st = .stopped) → exec (.disable p i) s = .next (s.ended (withdrawWaits
        (setSlip h i { x with st := .disabling, head := x.done, descs := x.descs.filter (fun d => inFlight d && !syncWaiting d) }) i
        (fun q => x.descs.any (fun d => decide (d.seq = q) && syncWaiting d))))) ∧
      ((x.st = .disabled ∨ x.st = .disabling ∨ x.st = .fenced) → exec (.disable p i) s = .next (s.withHw h)) ∧
      (x.st ≠ .stopped → exec (.restart p i) s = .next (s.withHw h) ∧ exec (.restartSkip p i) s = .next (s.withHw h)) ∧
      (x.st = .stopped → unitHolder h 4 x.group ≠ p →
        exec (.restart p i) s = .next (s.ended (stopUnserved h i)) ∧
        exec (.restartSkip p i) s = .next (s.ended (stopUnserved h i))) ∧
      (x.st = .stopped → unitHolder h 4 x.group = p → exec (.restart p i) s =
        .next (s.ended (setSlip h i { x with st := .running, head := x.stopSeq, descs := [], stopping := none }))) ∧
      (∀ e, x.st = .stopped → unitHolder h 4 x.group = p → e = skipPast x.skip.length (x.stopSeq + 1) x.skip → exec (.restartSkip p i) s =
        .next (s.ended (setSlip h i { x with
          st := .running, done := e, head := e, descs := [], stopping := none, resume := 0,
          skip := x.skip.filter (fun k => decide ((k - e).toNat < 2 ^ 31)) }))) ∧
      (∀ e, x.st = .stopped → e = skipPast x.skip.length (x.stopSeq + 1) x.skip → x.stopSeq + 1 ∉ x.skip → e = x.stopSeq + 1) ∧
      (∀ l b, x.st = .disabled → l < 32 → b < 2 ^ 44 → (l < 4 ∨ 16 < l) → (x.tail - x.done).toNat ≤ 2 ^ x.log2 →
        exec (.slpRing p i (l + b * 2 ^ 12)) s = .next (s.ended (setSlip h i { x with ring := b * 4096 }))) ∧
      (∀ l b, x.st = .disabled → 4 ≤ l → l ≤ 16 → b < 2 ^ 44 → 2 ^ l < (x.tail - x.done).toNat →
        exec (.slpRing p i (l + b * 2 ^ 12)) s = .next (s.ended (setSlip h i x)))) ∧
    (∀ n (v : W32) k, v ∈ k → skipPast (n + 1) v k = skipPast n (v + 1) k) ∧
    (∀ p i v, (slipOwner h i ≠ p ∨ 1024 ≤ i ∨ 16 < p) → exec (.slpDoorbell p i v) s = .next (s.withHw h) ∧ exec (.slpDone p i v) s = .next (s.withHw h) ∧
      exec (.slpRing p i v) s = .next (s.withHw h) ∧ exec (.enable p i) s = .next (s.withHw h) ∧ exec (.disable p i) s = .next (s.withHw h) ∧
      exec (.restart p i) s = .next (s.withHw h) ∧ exec (.restartSkip p i) s = .next (s.withHw h)) ∧
    (∀ i x, x = slipAt h i →
      (x.st = .disabling → x.descs.any inFlight = false → exec (.slipDisabled i) s =
        .next (s.ended (setSlip h i { x with st := .disabled, head := x.done, descs := [], stopping := none }))) ∧
      ((x.st ≠ .disabling ∨ x.descs.any inFlight = true) → exec (.slipDisabled i) s = .next (s.withHw h))) ∧
    (∀ p e v, v = (fun i => { h with eng := { h.eng with epochs := tabPut 0 h.eng.epochs (81 * p + i) (epochAt h p i + 1) } }) → p ≤ 16 →
      (epochAt h p 0 ≠ 0xFFFFFFFF#32 → exec (.all p) s = .next (s.ended (staleAll (v 0) p))) ∧
      (epochAt h p (1 + e % 64) ≠ 0xFFFFFFFF#32 → exec (.asid p e) s = .next (s.ended (staleAll (v (1 + e % 64)) p))) ∧
      (epochAt h p (65 + e % 16) ≠ 0xFFFFFFFF#32 → exec (.vmid p e) s = .next (s.ended (staleAll (v (65 + e % 16)) p)))) ∧
    (∀ p e v i l, v = { h with eng := { h.eng with epochs := tabPut 0 h.eng.epochs (81 * p + i) 0, leaves := l } } → p ≤ 16 →
      epochAt h p i = 0xFFFFFFFF#32 → l = tabClear h.eng.leaves (fun k => decide ((unitAt h 4 (k % 64)).owner = p)) →
      ∀ o, o = (v.eng.slips.filter (fun y => slipOwner v y.1 = p)).foldl (fun g y => y.2.descs.foldl (fun g d => staleDesc g y.1 d) g) v →
      (i = 0 → exec (.all p) s = .next (s.ended o)) ∧ (i = 1 + e % 64 → exec (.asid p e) s = .next (s.ended o)) ∧
      (i = 65 + e % 16 → exec (.vmid p e) s = .next (s.ended o))) ∧
    (∀ p e, 16 < p → exec (.all p) s = .next (s.ended h) ∧ exec (.asid p e) s = .next (s.ended h) ∧ exec (.vmid p e) s = .next (s.ended h)) ∧
    (∀ i q d, findDesc (slipAt h i) q = some d →
      (d.pauseReq = true → d.phase = .dispatched →
        exec (.descriptorPause i q) s = .next (s.ended (startWalk h i { d with pauseReq := false, begun := true } true))) ∧
      ((d.pauseReq = false ∨ d.phase ≠ .dispatched) → exec (.descriptorPause i q) s = .next (s.ended h))) ∧
    (∀ i q, findDesc (slipAt h i) q = none → exec (.descriptorPause i q) s = .next (s.ended h)) ∧
    (∀ n, n < 128 → hartOwner h n ≤ 16 → invalidated h (hartOwner h n) = false → exec (.slpXinvSync n) s = .next (s.ended h)) ∧
    (∀ n x, x = hartAt h n → n < 128 → hartOwner h n ≤ 16 → invalidated h (hartOwner h n) = true → x.sb = [] → actorPending h (.hart n) = false →
      exec (.slpXinvSync n) s = .next (s.ended (setResult h n (zeros 8))))

/-- Fetching, staging, walks, dispatch, completion records and the channel halt. For every state: DESCRIPTOR_FETCH reads for the slip the
arbiter chooses as many descriptors as R392 allows, each the 128 bytes of its ring place, or free values where the slip's rings overlap,
with HEAD's sequence count, and HEAD advances by one; STAGING frees the ring lines of the oldest fetched descriptor and ends it on poison,
halts it on an error or a refusal of its ring lines, on an unknown opcode or one its C-die slip may not carry, or on a bad checked field,
takes one that sets reserved bits beside these as one with free values, stages it at once without buffers, faults on a reserved context and
otherwise begins its walk under a fresh snapshot and, where its context translates, looks up the first page of each buffer; a lookup that
misses is the outstanding miss of its group's cache, a second one stops lookups, and later ones wait behind it; WALK runs the request of
lowest class and greatest age, the outstanding miss among them, a fenced group walks nothing, a BOLT_STORE whose walk faults releases its
bolt, and a Bare buffer of one page run is staged with its extents; DISPATCH walks a stale descriptor again, halts one whose engines or
bobbins are not owned and hands over any other; DESCRIPTOR_COMPLETE writes bytes 8 to 31 and then 0 to 7 of the oldest ended descriptor's
record, of a record in this package, once no write of the slip up to it is still to be performed, and then it is final, or recorded where it
stops the slip; CHANNEL_HALT halts a ferry descriptor that reads the address. A row with nothing to act on changes nothing. -/
def Obligations.FerryFrontRows : Prop :=
  ∀ (s : State) (h : Hw), h = clearSent s.hw →
    (∀ f u, choose h (tabGet {} h.eng.fetchArb f) ((ferrySlips h f).filter (fetchable h)) = none →
      exec (.descriptorFetch f u) s = .next (s.ended h)) ∧
    (∀ f u i a, choose h (tabGet {} h.eng.fetchArb f) ((ferrySlips h f).filter (fetchable h)) = some (i, a) →
      exec (.descriptorFetch f u) s = .next (s.ended (iter (fetchOne s.mem i u) (fetchCount h i)
        { h with eng := { h.eng with fetchArb := tabPut {} h.eng.fetchArb f a } }))) ∧
    (∀ i u x a, x = slipAt h i → a = x.ring + 128 * (x.head.toNat % 2 ^ x.log2) → isLocal h a = true → x.head ∉ x.skip →
      slipAt (fetchOne s.mem i u h) i = { x with
        head := x.head + 1,
        descs := x.descs ++ [{
          seq := x.head, bytes := if ringsMeet x then (takeFreeBytes h 128).1 else cohRead h s.mem (compactLocal a) 128,
          ringBad := (ringRead h (slipOwner h i) (compactLocal a) u).getD 3,
          asid := x.asid, vmid := x.vmid, gmode := x.gmode, progress := if x.stopSeq = x.head then x.resume else 0 }] }) ∧
    (∀ i, (slipAt h i).descs.find? (fun d => d.phase = .fetched) = none → exec (.staging i) s = .next (s.ended h)) ∧
    (∀ i x d ca a g, x = slipAt h i → x.descs.find? (fun d => d.phase = .fetched) = some d →
      ca = x.ring + 128 * (d.seq.toNat % 2 ^ x.log2) → a = lineOf (compactLocal ca) → g = freeRing (freeRing h x.group a) x.group (a + 1) →
      (d.ringBad = 1 → exec (.staging i) s = .next (s.ended
        (endDesc g i { d with bytes := d.bytes.take 4 ++ zeros 4 ++ d.bytes.drop 8 } 0x01 0x2F))) ∧
      (d.ringBad = 2 → exec (.staging i) s = .next (s.ended (haltUe g i d (compactLocal ca) (ueSource (compactLocal ca))))) ∧
      (d.ringBad = 3 → isLocal h ca = true → exec (.staging i) s = .next (s.ended (haltRefused g i d (compactLocal ca)))) ∧
      (d.ringBad = 3 → isLocal h ca = false → exec (.staging i) s = .next (s.ended (haltRefused g i d (2 ^ 60 + ca)))) ∧
      (4 ≤ d.ringBad → exec (.staging i) s = .next (s.ended (endDesc g i d (goneStatus g) 0))) ∧
      (d.ringBad = 0 → stagingHalt i d ≠ 0 → exec (.staging i) s = .next (s.ended (haltDesc g i d (stagingHalt i d)))) ∧
      (d.ringBad = 0 → stagingHalt i d = 0 → reservedSet d.bytes = false →
        (buffersOf d = [] → exec (.staging i) s =
          .next (s.ended (setSlip g i (setDesc (slipAt g i) { snapshot g (slipOwner g i) d with phase := .staged })))) ∧
        (∀ b bs, buffersOf d = b :: bs → (x.mode ∉ [0, 9, 10] ∨ x.gmode ∉ [0, 9, 10]) → exec (.staging i) s =
          .next (s.ended (xlatFault g i d { reason := 0x0C, buf := 0, va := b.1 } 0))) ∧
        (∀ b bs, buffersOf d = b :: bs → x.mode ∈ [0, 9, 10] → x.gmode ∈ [0, 9, 10] →
          ((x.mode ≠ 0 ∨ x.gmode ≠ 0) →
            exec (.staging i) s = .next (s.ended (lookUpAll (startWalk g i d false) i d g.eng.stamp))) ∧
          (x.mode = 0 → x.gmode = 0 → exec (.staging i) s = .next (s.ended (startWalk g i d false))))) ∧
      (∀ r, d.ringBad = 0 → stagingHalt i d = 0 → reservedSet d.bytes = true → r = strangeDesc g d →
        exec (.staging i) s = .next (s.ended (stageDesc r.1 i r.2)))) ∧
    (∀ i d, (knownOp (opcode d) = false → stagingHalt i d = 0x22) ∧
      (knownOp (opcode d) = true → 4 ≤ slipDie i → cDieOp (opcode d) = false → stagingHalt i d = 0x2C) ∧
      (knownOp (opcode d) = true → (slipDie i < 4 ∨ cDieOp (opcode d) = true) →
        (bitOf (leAt d.bytes 1 1) 1 = true → refBad (leAt d.bytes 8 4) = true → stagingHalt i d = 0x22) ∧
        ((bitOf (leAt d.bytes 1 1) 1 = false ∨ refBad (leAt d.bytes 8 4) = false) → stagingHalt i d = checkFields d))) ∧
    (∀ v g k d f, lookupDesc v k = some d → f = frontAt v g →
      (f.stopped = [] → leafHit v k.slip d k.buf = none →
        (f.miss = none → lookUp g v k = setFront v g { f with miss := some k }) ∧
        (f.miss ≠ none → lookUp g v k = setFront v g { f with stopped := [k] })) ∧
      (f.stopped ≠ [] → lookUp g v k = setFront v g { f with stopped := f.stopped ++ [k] })) ∧
    (∀ g u v q o r, unitFenced h 4 g = false → v = resumeLookups h g → firstRequest (walkRequests v g) = some q →
      o = (match q.miss with | none => walkOne (v, s.mem) q.slip q.desc u | some b => walkMiss (v, s.mem) g q.slip q.desc b u) →
      r = releaseTaken o g (fun d => decide (d.phase = .ended) && decide (0 < d.reason ∧ d.reason < 0x20)) → NoWait r.1 →
      exec (.walk g u) s = .next (s.routed r)) ∧
    (∀ g u r, unitFenced h 4 g = true →
      r = releaseTaken (h, s.mem) g (fun d => decide (d.phase = .ended) && decide (0 < d.reason ∧ d.reason < 0x20)) → NoWait r.1 →
      exec (.walk g u) s = .next (s.routed r)) ∧
    (∀ g u v r, unitFenced h 4 g = false → v = resumeLookups h g → firstRequest (walkRequests v g) = none →
      r = releaseTaken (v, s.mem) g (fun d => decide (d.phase = .ended) && decide (0 < d.reason ∧ d.reason < 0x20)) → NoWait r.1 →
      exec (.walk g u) s = .next (s.routed r)) ∧
    (∀ (o : HM) g f, (∀ e, e ∈ o.1.eng.slips → ∀ d, d ∈ e.2.descs → d.scratch ≠ 1) → releaseTaken o g f = o) ∧
    (∀ i u d w va n, (slipAt h i).mode = 0 → (slipAt h i).gmode = 0 → buffersOf d = [(va, n, w)] → 0 < n → va + n ≤ 2 ^ 56 →
      d.walk.buf = 0 → d.walk.off = 0 → d.walk.exts = [] → d.walk.fault = none → d.walk.kept = [] → h.eng.kept = [] → d.begun = false →
      stale h (slipOwner h i) d = false →
      (addRun 40 [] 0 0 n va w)[16]? = none →
      walkOne (h, s.mem) i d u = (setSlip h i (setDesc (slipAt h i) { d with
        phase := .staged, pauseReq := false, extents := addRun 40 [] 0 0 n va w,
        walk := { d.walk with exts := addRun 40 [] 0 0 n va w, buf := 1, off := walkStart d 1 } }), s.mem)) ∧
    (∀ f i a d g, choose h (tabGet {} h.eng.dispArb f) ((ferrySlips h f).filter (dispatchable h)) = some (i, a) →
      nextDispatch (slipAt h i) = some d → g = { h with eng := { h.eng with dispArb := tabPut {} h.eng.dispArb f a } } →
      (stale h (slipOwner h i) d = true → buffersOf d ≠ [] → exec (.dispatch f) s = .next (s.ended (startWalk g i d true))) ∧
      ((stale h (slipOwner h i) d = false ∨ buffersOf d = []) → engineCheck h i d ≠ 0 →
        exec (.dispatch f) s = .next (s.ended (haltDesc g i d (engineCheck h i d)))) ∧
      ((stale h (slipOwner h i) d = false ∨ buffersOf d = []) → engineCheck h i d = 0 →
        exec (.dispatch f) s = .next (s.ended (setSlip g i (setDesc (slipAt g i) { d with
          phase := .dispatched, since := h.tb.now, objs := bindObjs h i d }))))) ∧
    (∀ f, choose h (tabGet {} h.eng.dispArb f) ((ferrySlips h f).filter (dispatchable h)) = none →
      exec (.dispatch f) s = .next (s.ended h)) ∧
    (∀ i x t, x = slipAt h i → nextRecord x = none →
      t = (slipDisabled (finishStop (setSlip h i (passFinal x.descs.length x)) i) i, s.mem) → NoWait (settle t).1 →
      exec (.descriptorComplete i) s = .next (s.settled t)) ∧
    (∀ i x d, x = slipAt h i → nextRecord x = some d → slipPending h i d.seq = true → NoWait (settle (h, s.mem)).1 →
      exec (.descriptorComplete i) s = .next (s.settled (h, s.mem))) ∧
    (∀ i x d b ca o q, x = slipAt h i → nextRecord x = some d → b = recordBytes x d (stops d.status d.reason && decide (x.st ≠ .fenced)) →
      ca = recordAddr x d.seq → isLocal h ca = true → slipPending h i d.seq = false →
      engineWrite (h, s.mem) (slipOwner h i) (ca + 8) (b.drop 8) false = (o, .ok) →
      engineWrite o (slipOwner h i) ca (b.take 8) false = (q, .ok) →
      (∀ t, stops d.status d.reason = true → x.st ≠ .fenced →
        t = (slipDisabled (finishStop (setSlip q.1 i (setDesc (slipAt q.1 i) { d with phase := .recorded })) i) i, q.2) → NoWait (settle t).1 →
        exec (.descriptorComplete i) s = .next (s.settled t)) ∧
      (∀ g y t, (stops d.status d.reason = false ∨ x.st = .fenced) →
        g = afterFinal (setSlip q.1 i (setDesc (slipAt q.1 i) { d with phase := .final })) i d →
        y = passFinal (slipAt g i).descs.length (slipAt g i) → t = (slipDisabled (finishStop (setSlip g i y) i) i, q.2) → NoWait (settle t).1 →
        exec (.descriptorComplete i) s = .next (s.settled t))) ∧
    (∀ i q d a, findDesc (slipAt h i) q = some d → opcode d = 0x20 →
      (d.phase = .dispatched → selPiece h (slipOwner h i) a false = true → poisoned h a = false → exec (.channelHalt i q a) s =
        .next (s.ended (haltUe h i { d with result := [] } a (ueSource a)))) ∧
      (d.phase ≠ .dispatched → exec (.channelHalt i q a) s = .next (s.ended h))) ∧
    (∀ i q d a e, findDesc (slipAt h i) q = some d → opcode d = 0x10 → d.phase = .dispatched → e ∈ d.extents → e.wr = false →
      isLocal h e.paddr = true → compactLocal e.paddr / 64 ≤ a / 64 → a < compactLocal e.paddr + e.len →
      selPiece h (slipOwner h i) a false = true → poisoned h a = false →
      exec (.channelHalt i q a) s = .next (s.ended (haltUe h i { d with result := [] } a (ueSource a)))) ∧
    (∀ i q d a, findDesc (slipAt h i) q = some d → opcode d ∈ [0x11, 0x30, 0x31] → exec (.channelHalt i q a) s = .next (s.ended h)) ∧
    (∀ i q a, findDesc (slipAt h i) q = none → exec (.channelHalt i q a) s = .next (s.ended h))

/-- MOVE, FILL, ATOMIC, BARRIER and NOP descriptors. For every state and every dispatched descriptor that nothing earlier holds back, whose
ferry has room for its accesses and none of whose accesses has to wait: a MOVE or a FILL whose engines may not be used, or of a buffer in
region 3, halts, any other moves the bytes asked and on to the end of the 8-byte blocks or the row it has begun, and ends with its status
once all are moved; one whose ferry has 256 accesses of a kind outstanding waits; a FILL into a bobbin writes its pattern, a row and a
granule at a time, and marks sound a granule it has written whole; a MOVE between buffers writes at the destination what it read at the
source, its poison with it, and free values where the two overlap; an ATOMIC on regions 3 to 5 halts, one refused halts, one whose home is
gone, gated or down ends with the status that says so, on a poisoned line it ends POISONED, and otherwise it performs its operation at the
home and returns the old value; a BARRIER ends once every earlier descriptor has and no write of the slip up to it is still to be performed,
and not before; a NOP ends OK. A descriptor of another opcode, or one not dispatched, is not touched. The atomic operations are add, and, or,
exclusive or, swap, signed and unsigned minimum and maximum, compare-and-swap and the floating-point sum. -/
def Obligations.FerryBodyRows : Prop :=
  ∀ (s : State) (h : Hw), h = clearSent s.hw →
    (∀ i q n c op, (c, op) ∈ [(Instr.move i q n, 0x10), (.fill i q n, 0x11), (.atomic i q, 0x20)] →
      (ferryFull h i q = true → exec c s = .next (s.withHw h)) ∧
      (ferryFull h i q = false → (∀ d, runnable h i q = some d → opcode d ≠ op) → exec c s = .next (s.ferried i q (h, s.mem)))) ∧
    (∀ i q, (∀ o, o ∈ h.eng.outs → outOf i q o = false) → s.ferried i q (h, s.mem) = s.withHw h) ∧
    (∀ f e i q d, findDesc (slipAt h i) q = some d → f = ferryOf h i → e ∈ d.extents →
      256 ≤ (h.eng.outs.filter (fun o => decide (o.write = e.wr ∧ ferryOf h o.slip = f) && (findDesc (slipAt h o.slip) o.seq).isSome &&
        !outOf i q o)).length → ferryFull h i q = true) ∧
    (∀ i q n d c t k, runnable h i q = some d → ((c = .move i q n ∧ opcode d = 0x10) ∨ (c = .fill i q n ∧ opcode d = 0x11)) →
      ferryFull h i q = false → k = wholeBlocks d n → NoWait t.1 →
      (engineCheck h i d ≠ 0 → t = (haltDesc h i d (engineCheck h i d), s.mem) → exec c s = .next (s.ferried i q t)) ∧
      (engineCheck h i d = 0 → inRegion3 h d = true → t = (haltDesc h i d 0x25, s.mem) → exec c s = .next (s.ferried i q t)) ∧
      (engineCheck h i d = 0 → inRegion3 h d = false → t = moveBytes (k + 1) (h, s.mem) i d k → exec c s = .next (s.ferried i q t)) ∧
      (engineCheck h i d = 0 → inRegion3 h d = false → leAt d.bytes 0x20 4 * leAt d.bytes 0x24 4 ≤ d.progress →
        t = (endDesc h i d (if d.off then 0x06 else if d.poison then 0x01 else 0) 0, s.mem) → exec c s = .next (s.ferried i q t))) ∧
    (∀ d n len, len = leAt d.bytes 0x20 4 → 0 < len → 0 < n →
      wholeBlocks d 0 = 0 ∧ n ≤ wholeBlocks d n ∧ (d.progress + wholeBlocks d n) / len ≤ (d.progress + n + len - 1) / len) ∧
    (∀ i n d t len loom off k bs g, opcode d = 0x11 → leAt d.bytes 0x29 1 = 1 → t = d.progress → len = leAt d.bytes 0x20 4 →
      loom = field (leAt d.bytes 0x18 8) 28 20 → loomGhost h loom = false →
      off = field (leAt d.bytes 0x18 8) 19 0 + rowOff len (leAt d.bytes 0x24 4) (leAt d.bytes 0x38 8) t →
      k = min (min n (len - t % len)) (4096 - off % 4096) → 0 < k → k ≤ n →
      bs = (List.range k).map (fun j => BitVec.ofNat 8 (leAt d.bytes (0x40 + (t % len + j) % 8) 1)) →
      g = bobWrite (loomStall h loom off true) loom off bs false →
      movePiece (h, s.mem) i d n = ((if (off + k) % 4096 = 0 ∧ off - t % len ≤ (off + k - 1) / 4096 * 4096 ∧ d.scratch ≠ (off + k - 1) / 4096 + 1
          then bobMark g loom ((off + k - 1) / 4096) false else g, s.mem),
        k, { d with begun := true, progress := t + k })) ∧
    (∀ i n d t len so dof ca cb sleft room k r w, opcode d = 0x10 → leAt d.bytes 0x28 1 = 0 → leAt d.bytes 0x29 1 = 0 → t = d.progress →
      len = leAt d.bytes 0x20 4 → so = rowOff len (leAt d.bytes 0x24 4) (leAt d.bytes 0x30 8) t →
      dof = rowOff len (leAt d.bytes 0x24 4) (leAt d.bytes 0x38 8) t → extAddr d.extents 0 so = some (ca, sleft) →
      extAddr d.extents 1 dof = some (cb, room) →
      k = min (min n (len - t % len)) (min (min room (64 - cb % 64)) (min sleft (2 ^ 21 - ca % 2 ^ 21))) → 0 < k →
      r = strangeMove d (engineRead (h, s.mem) (slipDie i) (slipOwner h i) (bitOf (leAt d.bytes 0x2A 1) 0) ca k (i + 1)) → r.2.v = .ok →
      engineWrite r.1 (slipOwner h i) cb r.2.bytes r.2.poison = (w, .ok) →
      movePiece (h, s.mem) i d n = (w, k, { d with poison := d.poison || r.2.poison, begun := true, progress := t + k })) ∧
    (∀ d (x : HM × Got), (overlaps d = false → strangeMove d x = x) ∧
      (overlaps d = true → x.2.bytes ≠ [] → (strangeMove d x).2.bytes = (takeFreeBytes x.1.1 x.2.bytes.length).1)) ∧
    (∀ i q d ca left p a size v t, runnable h i q = some d → opcode d = 0x20 → extAddr d.extents 0 0 = some (ca, left) → p = slipOwner h i →
      a = compactLocal ca → size = leAt d.bytes 0x19 1 → v = verdict h p ca size true → ferryFull h i q = false → NoWait t.1 →
      (regionOf a ∈ [3, 4, 5] → t = (haltDesc h i d 0x23, s.mem) → exec (.atomic i q) s = .next (s.ferried i q t)) ∧
      (regionOf a ∉ [3, 4, 5] →
        (∀ x, v = .refused x → t = (haltRefused h i d x, s.mem) → exec (.atomic i q) s = .next (s.ferried i q t)) ∧
        (v = .absent → t = (endDesc h i d (goneStatus h) 0, s.mem) → exec (.atomic i q) s = .next (s.ferried i q t)) ∧
        (v = .off → t = (endDesc h i d 0x06 0, s.mem) → exec (.atomic i q) s = .next (s.ferried i q t)) ∧
        (v = .dead → t = (endDesc h i d 0x01 0, s.mem) → exec (.atomic i q) s = .next (s.ferried i q t)) ∧
        (∀ r, isLocal h ca = false → isMember h (compactPos ca) = true → memberFenced h = false → regionOf a < 8 →
          r = atomicAfar h p (if regionOf a ≤ 1 then 8 else 7) ca size (leAt d.bytes 0x20 size) (leAt d.bytes 0x30 size)
            (leAt d.bytes 0x18 1) →
          t = ((refusedAfar h p ca size).elim
            (if remoteStatus h p ca = 2 then endDesc r.2 i { d with poison := true } 0x01 0
              else endDesc r.2 i { d with begun := true, result := r.1 ++ zeros (16 - size) } 0 0)
            (fun x => haltRefused h i d (2 ^ 60 + x)), s.mem) →
          exec (.atomic i q) s = .next (s.ferried i q t)) ∧
        (v = .ok → poisoned h a = true → t = (endDesc h i { d with poison := true } 0x01 0, s.mem) →
          exec (.atomic i q) s = .next (s.ferried i q t)) ∧
        (∀ r, v = .ok → poisoned h a = false →
          r = atomicAt (h, s.mem) false a (leAt d.bytes 0x18 1) size (leAt d.bytes 0x20 size) (leAt d.bytes 0x30 size) →
          t = (endDesc r.1.1 i { d with begun := true, result := leBytes 16 r.2 } 0 0, r.1.2) →
          exec (.atomic i q) s = .next (s.ferried i q t)))) ∧
    (∀ a op size x y k r, k = (if regionOf a ≤ 1 then ReqKind.atomicMem else ReqKind.atomicHome) →
      r = atomicAt (h, s.mem) false a op size x y → r.2 = leNat (cohRead h s.mem a size) ∧
      (notReady h (lineOf a) { kind := k, agent := .other } = false →
        r.1.2 = (cohWrite (h, s.mem) a (leBytes size (atomicNew op size (leNat (cohRead h s.mem a size)) x y))).2)) ∧
    (∀ i q x d, x = slipAt h i → findDesc x q = some d →
      (opcode d = 0x30 → d.phase = .dispatched → earlierDone x d = true → slipPending h i q = false →
        exec (.barrier i q) s = .next (s.ended (endDesc h i d 0 0))) ∧
      ((opcode d ≠ 0x30 ∨ d.phase ≠ .dispatched ∨ earlierDone x d = false ∨ slipPending h i q = true) →
        exec (.barrier i q) s = .next (s.withHw h))) ∧
    (∀ i q, findDesc (slipAt h i) q = none → exec (.barrier i q) s = .next (s.withHw h)) ∧
    (∀ i q, runnable h i q = none → exec (.nop i q) s = .next (s.withHw h)) ∧
    (∀ i q d, runnable h i q = some d → (opcode d = 0x31 → exec (.nop i q) s = .next (s.ended (endDesc h i d 0 0))) ∧
      (opcode d ≠ 0x31 → exec (.nop i q) s = .next (s.withHw h))) ∧
    (∀ w a b c, a < 2 ^ (8 * w) → b < 2 ^ (8 * w) → c < 2 ^ (8 * w) →
      atomicNew 1 w a b c = (a + b) % 2 ^ (8 * w) ∧ atomicNew 2 w a b c = a &&& b ∧ atomicNew 3 w a b c = a ||| b ∧
      atomicNew 4 w a b c = a ^^^ b ∧ atomicNew 5 w a b c = b ∧
      atomicNew 6 w a b c = (if signed (8 * w) a ≤ signed (8 * w) b then a else b) ∧
      atomicNew 7 w a b c = (if signed (8 * w) b ≤ signed (8 * w) a then a else b) ∧
      atomicNew 8 w a b c = min a b ∧ atomicNew 9 w a b c = max a b ∧ atomicNew 10 w a b c = (if a = c then b else a) ∧
      (∀ f, f = (if w = 4 then binary32 else binary64) → atomicNew 11 w a b c = (encF f false (fadd (decF f a) (decF f b))).1))

/-- Bolt descriptors, their waits and bolt misses. For every state: a bolt descriptor that nothing earlier holds back, whose ferry has room
for its accesses and none of whose accesses has to wait, takes its turn at its map entry, and one of another opcode is not touched. At the
entry, an unused object or an index past its bolts halts it with OBJECT_UNKNOWN, a BOLT_STORE with no granule ends, a poisoned entry ends it
POISONED and releases what it took, as does an entry it may not read, an entry in breach or an operation the object's mode does not allow
halts it, as does a store to a home of a codec the object refuses, an entry taken by another makes it wait; BOLT_LOAD reads the bolt into its
slot, with the slot's tag, but none for an object retired meanwhile; any other takes the bolt with a compare-and-swap, WRITING for BOLT_STORE
and MOVING otherwise, keeps the word it took, and acts in its next turn. A BOLT_STORE to a copy writes its granules there and marks them
dirty; a BOLT_MOVE writes a new home, and to where the bolt is only raises VERSION; BOLT_COPY_UP writes a copy; BOLT_CLEAN writes the copy's
dirty granules to a plain home; BOLT_DROP of a clean copy only drops it; each ends by putting the new word in place of the taken one; a
BOLT_MOVE or BOLT_COPY_UP one of whose writes is refused, finds no home or meets a gated island fails and releases the bolt instead.
BOLT_TAKE_RETRY takes a waiting descriptor's turn 256 ns later and no later than WAIT_LIMIT, BOLT_WAIT takes it at WAIT_LIMIT after it began
to wait, or serves its miss then, and halts it if it must still wait; both leave any other descriptor alone. BOLT_MISS_FILL puts a sound bolt
in its transit slot and in every bobbin slot that waits for it, ends or halts the descriptor whose bolt it cannot read, and waits at an entry
being written. A CHANNEL_HALT of a bolt descriptor that has begun its turns, or waits, releases what it took. -/
def Obligations.BoltRows : Prop :=
  ∀ (s : State) (h : Hw), h = clearSent s.hw →
    (∀ i q d c op t, runnable h i q = some d → ferryFull h i q = false →
      (c, op) ∈ [(Instr.boltLoad i q, 0x14), (.boltStore i q, 0x15), (.boltMove i q, 0x16), (.boltCopyUp i q, 0x17), (.boltClean i q, 0x18),
        (.boltDrop i q, 0x19)] →
      (opcode d = op → t = boltTurn (h, s.mem) i d → NoWait t.1 → exec c s = .next (s.ferried i q t)) ∧
      (opcode d ≠ op → exec c s = .next (s.ferried i q (h, s.mem)))) ∧
    (∀ i q c, c ∈ [Instr.boltLoad i q, .boltStore i q, .boltMove i q, .boltCopyUp i q, .boltClean i q, .boltDrop i q] →
      (runnable h i q = none → ferryFull h i q = false → exec c s = .next (s.ferried i q (h, s.mem))) ∧
      (ferryFull h i q = true → exec c s = .next (s.withHw h))) ∧
    (∀ i d, ((boundObj h i d (boltObj d)).used = false ∨ (boundObj h i d (boltObj d)).count ≤ boltIdx d) →
      boltTurn (h, s.mem) i d = (haltDesc h i d 0x29, s.mem)) ∧
    (∀ i d p o r x, p = slipOwner h i → o = boundObj h i d (boltObj d) → o.used = true → boltIdx d < o.count →
      (opcode d = 0x15 → boltMask d = 0 → boltTurn (h, s.mem) i d = (endDesc h i d 0 0, s.mem)) ∧
      ((opcode d = 0x15 → boltMask d ≠ 0) → readEntry (h, s.mem) (slipDie i) p (o.map + 32 * boltIdx d) = (r, .poisoned) →
        x = releaseFailed r i d → boltTurn (h, s.mem) i d = (endDesc x.1 i { d with result := [] } 0x01 0, x.2)) ∧
      (∀ b, (opcode d = 0x15 → boltMask d ≠ 0) → readEntry (h, s.mem) (slipDie i) p (o.map + 32 * boltIdx d) = (r, .bad b) →
        boltTurn (h, s.mem) i d = failBolt r i d b) ∧
      (∀ e, (opcode d = 0x15 → boltMask d ≠ 0) → readEntry (h, s.mem) (slipDie i) p (o.map + 32 * boltIdx d) = (r, .ok e) → d.scratch ≠ 1 →
        ((mapBad r.1 o e = true ∨ (0x16 < opcode d ∧ o.mode ≠ 1)) → boltTurn (h, s.mem) i d = (haltDesc r.1 i d 0x26, r.2)) ∧
        (mapBad r.1 o e = false → (opcode d ≤ 0x16 ∨ o.mode = 1) →
          (opcode d = 0x14 → (e.state = 3 → boltTurn (h, s.mem) i d = (waitBolt r.1 i d, r.2)) ∧
            (e.state ≠ 3 → boltTurn (h, s.mem) i d = actLoad r i { d with phase := .dispatched } o e)) ∧
          (opcode d = 0x15 → e.state ≤ 1 → e.copyTier = 0 → codecOk o e.codec e.homeTier = false →
            boltTurn (h, s.mem) i d = (haltDesc r.1 i d 0x28, r.2)) ∧
          (opcode d ≠ 0x14 → (opcode d ≠ 0x15 ∨ 1 < e.state ∨ e.copyTier ≠ 0 ∨ codecOk o e.codec e.homeTier = true) →
            (e.state ≠ 0 → (e.state ≠ 1 ∨ opcode d ≠ 0x15) → boltTurn (h, s.mem) i d = (waitBolt r.1 i d, r.2)) ∧
            (∀ c won, (e.state = 0 ∨ (e.state = 1 ∧ opcode d = 0x15)) →
              casWord r p (o.map + 32 * boltIdx d) e.w0 (setField e.w0 11 9 (if opcode d = 0x15 then 3 else 2)) = (c, won) →
              (∀ a, verdict r.1 p (o.map + 32 * boltIdx d) 16 true = .refused a → boltTurn (h, s.mem) i d = (haltRefused r.1 i d a, r.2)) ∧
              ((∀ a, verdict r.1 p (o.map + 32 * boltIdx d) 16 true ≠ .refused a) →
                boltTurn (h, s.mem) i d = if won then
                  (putDesc c.1 i { d with phase := .dispatched, begun := true, scratch := 1, result := leBytes 16 e.w0 }, c.2)
                else (waitBolt c.1 i d, c.2)))))) ∧
      (∀ e e0, (opcode d = 0x15 → boltMask d ≠ 0) → readEntry (h, s.mem) (slipDie i) p (o.map + 32 * boltIdx d) = (r, .ok e) → d.scratch = 1 →
        e0 = { w0 := leNat d.result, w1 := e.w1 } →
        (opcode d = 0x15 → boltTurn (h, s.mem) i d = actStore r i d o e0) ∧ (opcode d = 0x16 → boltTurn (h, s.mem) i d = actMove r i d o e0) ∧
        (opcode d = 0x17 → boltTurn (h, s.mem) i d = actCopyUp r i d o e0) ∧ (opcode d = 0x18 → boltTurn (h, s.mem) i d = actClean r i d o e0) ∧
        (opcode d = 0x19 → boltTurn (h, s.mem) i d = actClean r i d o e0))) ∧
    (∀ i d o e p v b r w, p = slipOwner h i → v = (e.version + 1) % 2 ^ 32 → e.w0 = leNat d.result → b.off = false →
      (storeSource (h, s.mem) i d = (r, .ok b) → e.copyTier ≠ 0 → e.state = 0 → writePlain r p e.copyLine (boltMask d) b = (w, .ok) →
        actStore (h, s.mem) i d o e =
          finishBolt w i d (wordWith e.w0 0 v (e.dirty ||| boltMask d)) (decide (b.pm &&& boltMask d ≠ 0)) false true) ∧
      (e.copyTier = 0 →
        (e.homeTier = boltTier d → e.homeLine = boltLine d → e.codec = boltCodec d →
          actMove (h, s.mem) i d o e = finishBolt (h, s.mem) i d (wordWith e.w0 0 v e.dirty) false false true) ∧
        (∀ k n u, e.homeLine ≠ boltLine d → tierOk h (boltTier d) (boltLine d) = true → codecOk o (boltCodec d) (boltTier d) = true →
          readHome (h, s.mem) (slipDie i) p o.format e = (r, .ok b) →
          writeHome r p (boltLine d) (boltCodec d) o (boltObj d) (boltIdx d) b = (w, u, k, n) →
          actMove (h, s.mem) i d o e = onVerdict w i d false u (fun dead =>
            finishBolt w i d (wordWith (wordHome e.w0 (boltTier d) k (boltLine d) n) 0 v e.dirty) (decide (b.pm ≠ 0) || dead) b.rejected true)) ∧
        (∀ x u y, boltTier d < e.homeTier → tierOk h (boltTier d) (boltLine d) = true →
          readHome (h, s.mem) (slipDie i) p o.format e = (r, .ok b) →
          writePlain r p (boltLine d) 0xFFFF b = (w, u) → u ≠ .absent → (∀ a, u ≠ .refused a) →
          engineWrite w p (o.map + 32 * boltIdx d + 16) (leBytes 8 (setField (e.w1 % 2 ^ 64) 49 0 (boltLine d))) false = (x, y) →
          actCopyUp (h, s.mem) i d o e = onVerdict x i d false (worst u y) (fun dead =>
            finishBolt x i d (wordWith (setField e.w0 5 3 (boltTier d)) 0 e.version 0) (decide (b.pm ≠ 0) || dead) b.rejected false)) ∧
        actClean (h, s.mem) i d o e = haltBolt (h, s.mem) i d 0x26) ∧
      (e.copyTier ≠ 0 → actMove (h, s.mem) i d o e = haltBolt (h, s.mem) i d 0x26 ∧ actCopyUp (h, s.mem) i d o e = haltBolt (h, s.mem) i d 0x26 ∧
        (opcode d = 0x18 → e.codec = 0 → e.dirty ≠ 0 → readPlain (h, s.mem) (slipDie i) p e.copyLine = (r, .ok b) →
          writePlain r p e.homeLine e.dirty b = (w, .ok) → actClean (h, s.mem) i d o e =
            finishBolt w i d (wordWith (wordHome e.w0 e.homeTier 0 e.homeLine e.lines) 0 e.version 0) (decide (b.pm &&& e.dirty ≠ 0)) false false) ∧
        (opcode d = 0x19 → e.dirty = 0 → actClean (h, s.mem) i d o e = finishBolt (h, s.mem) i d
          (wordWith (setField (wordHome e.w0 e.homeTier e.codec e.homeLine e.lines) 5 3 0) 0 e.version 0) false false false))) ∧
    (∀ x i d k, onVerdict x i d false .ok k = k false ∧ onVerdict x i d false .dead k = k true ∧
      onVerdict x i d false .off k = failBolt x i d .gated ∧ onVerdict x i d false .absent k = failBolt x i d .absent ∧
      (∀ a off, onVerdict x i d off (.refused a) k = failBolt x i d (.refused a))) ∧
    (∀ i d p o new poison res c won, p = slipOwner h i → o = boundObj h i d (boltObj d) →
      casWord (h, s.mem) p (o.map + 32 * boltIdx d) (setField (leNat d.result) 11 9 (if opcode d = 0x15 then 3 else 2)) new = (c, won) →
      finishBolt (h, s.mem) i d new poison false res =
        (endDesc c.1 i { d with poison := poison, result := if res then boltResult new else [] } (if d.off then 0x06 else if poison then 0x01 else 0) 0,
          c.2)) ∧
    (∀ i d o e b r, readBolt (h, s.mem) (slipDie i) (slipOwner h i) o.format e = (r, .ok b) → b.rejected = false → b.pm = 0 → b.off = false →
      loomGhost r.1 (boltLoom d) = false → actLoad (h, s.mem) i d o e =
        (endDesc (fillFor r.1 d (boltLoom d) (boltSlot d) (boltObj d) (boltIdx d) e.version b) i { d with poison := false, off := false } 0 0, r.2)) ∧
    (∀ d k l n o v b, k < 512 → l < 16 →
      (retiredFor d n = false → tagAt (fillFor h d k l n o v b) k l = { valid := true, obj := n, bolt := o, version := v }) ∧
      (retiredFor d n = true → tagAt (fillFor h d k l n o v b) k l = {})) ∧
    (∀ i q d, findDesc (slipAt h i) q = some d →
      (∀ a t, boltWaiting d = true → ferryFull h i q = false → NoWait t.1 →
        (a = max h.tb.now (min (h.tb.now + 256) (boltLimit h i d)) → t = boltAgain (h, s.mem) i d a →
          exec (.boltTakeRetry i q) s = .next (s.ferried i q t)) ∧
        (a = max h.tb.now (boltLimit h i d) → t = boltAgain (h, s.mem) i d a → exec (.boltWait i q) s = .next (s.ferried i q t))) ∧
      (boltWaiting d = false → ferryFull h i q = false → exec (.boltTakeRetry i q) s = .next (s.ferried i q (h, s.mem)) ∧
        (h.tiers.misses.find? (fun m => decide (m.slip = i ∧ m.seq = q) && m.waited) = none →
          exec (.boltWait i q) s = .next (s.ferried i q (h, s.mem))) ∧
        (∀ m a t, h.tiers.misses.find? (fun m => decide (m.slip = i ∧ m.seq = q) && m.waited) = some m →
          a = d.since + 1000 * (boundObj h i d m.obj).waitUs → t = missFill (advanceTo h a, s.mem) i q → NoWait t.1 →
          ((∀ n, n ∈ t.1.tiers.misses → n.slip = i → n.seq = q → n.waited = false) → exec (.boltWait i q) s = .next (s.ferried i q t)) ∧
          (∀ n, n ∈ t.1.tiers.misses → n.slip = i → n.seq = q → n.waited = true → NoWait (haltDesc (dropMisses t.1 i q) i d 0x27) →
            exec (.boltWait i q) s = .next (s.ferried i q (grantTransit (haltDesc (dropMisses t.1 i q) i d 0x27), t.2))))) ∧
      (ferryFull h i q = true → exec (.boltTakeRetry i q) s = .next (s.withHw h) ∧ exec (.boltWait i q) s = .next (s.withHw h))) ∧
    (∀ i q, findDesc (slipAt h i) q = none → exec (.boltTakeRetry i q) s = .next (s.ferried i q (h, s.mem)) ∧
      exec (.boltWait i q) s = .next (s.ferried i q (h, s.mem))) ∧
    (∀ i d a t, boltLimit h i d = d.since + 1000 * (boundObj h i d (boltObj d)).waitUs ∧ (t = boltTurn (advanceTo h a, s.mem) i d →
      (∀ x, findDesc (slipAt t.1 i) d.seq = some x → boltWaiting x = true → boltLimit h i d ≤ a →
        boltAgain (h, s.mem) i d a = (haltDesc t.1 i x 0x27, t.2)) ∧
      (∀ x, findDesc (slipAt t.1 i) d.seq = some x → (boltWaiting x = false ∨ a < boltLimit h i d) → boltAgain (h, s.mem) i d a = t) ∧
      (findDesc (slipAt t.1 i) d.seq = none → boltAgain (h, s.mem) i d a = t))) ∧
    (∀ i q, h.tiers.misses.find? (fun m => decide (m.slip = i ∧ m.seq = q) && m.transit.isSome) = none →
      exec (.boltMissFill i q) s = .next (s.withHw h)) ∧
    (∀ i q k d p o r t, h.tiers.misses.find? (fun m => decide (m.slip = i ∧ m.seq = q) && m.transit.isSome) = some k →
      findDesc (slipAt h i) q = some d → p = slipOwner h i → o = boundObj h i d k.obj → NoWait t →
      (readEntry (h, s.mem) (slipDie i) p (o.map + 32 * k.bolt) = (r, .poisoned) → t = grantTransit (endDesc (dropMisses r.1 i q) i d 0x01 0) →
        exec (.boltMissFill i q) s = .next (s.withHm (stepEnd t, r.2))) ∧
      (∀ b, readEntry (h, s.mem) (slipDie i) p (o.map + 32 * k.bolt) = (r, .bad b) →
        t = grantTransit (missStop (dropMisses r.1 i q) i d (.bad b)) → exec (.boltMissFill i q) s = .next (s.withHm (stepEnd t, r.2))) ∧
      (∀ e, readEntry (h, s.mem) (slipDie i) p (o.map + 32 * k.bolt) = (r, .ok e) →
        (mapBad r.1 o e = true → t = grantTransit (haltDesc (dropMisses r.1 i q) i d 0x26) →
          exec (.boltMissFill i q) s = .next (s.withHm (stepEnd t, r.2))) ∧
        (mapBad r.1 o e = false → e.state = 3 →
          t = { r.1 with tiers := { r.1.tiers with misses := r.1.tiers.misses.map (fun n => if n = k then { n with waited := true } else n) } } →
          exec (.boltMissFill i q) s = .next (s.withHm (stepEnd t, r.2))) ∧
        (∀ c b, mapBad r.1 o e = false → e.state ≠ 3 → readBolt r (slipDie i) p o.format e = (c, .error b) →
          t = grantTransit (missStop (dropMisses c.1 i q) i d (.bad b)) → exec (.boltMissFill i q) s = .next (s.withHm (stepEnd t, c.2))))) ∧
    (∀ i q k d p o r e c b w f t, h.tiers.misses = [k] → k.slip = i → k.seq = q → k.transit = some t → findDesc (slipAt h i) q = some d →
      p = slipOwner h i → o = boundObj h i d k.obj → readEntry (h, s.mem) (slipDie i) p (o.map + 32 * k.bolt) = (r, .ok e) → mapBad r.1 o e = false →
      e.state ≠ 3 → readBolt r (slipDie i) p o.format e = (c, .ok b) → b.rejected = false → b.pm = 0 → b.off = false →
      writePlain c p (t / 64) 0xFFFF b = (w, .ok) → w.1.tiers.misses = [k] → findDesc (slipAt w.1 i) q = some d →
      f = fillFor w.1 d k.loom k.slot k.obj k.bolt e.version b → findDesc (slipAt f i) q = some d → NoWait f →
      exec (.boltMissFill i q) s = .next (s.withHm (stepEnd { setSlip f i (setDesc (slipAt f i) d) with tiers := { f.tiers with misses := [] } }, w.2))) ∧
    (∀ i q d a x, findDesc (slipAt h i) q = some d → 0x14 ≤ opcode d → opcode d ≤ 0x19 → selPiece h (slipOwner h i) a false = true →
      poisoned h a = false → (d.phase = .dispatched ∨ boltWaiting d = true) → x = releaseFailed (h, s.mem) i d →
      exec (.channelHalt i q a) s = .next (s.routed (haltUe x.1 i { d with result := [] } a (ueSource a), x.2)))

/-- Weaves: their checks, passes, bank swaps, drains and cuts, and the semirings. For every state: a dispatched WEAVE that nothing
holds back halts with the reason its checks give, ends FENCED where a quad of its gang is, waits for a quad to wake, halts on an unknown
operand bolt, and otherwise, where none of its accesses has to wait, joins the waiting runs with its bolt misses; a gang that is not a
multiple of its size halts with its reason; one that has joined, or a descriptor of another opcode, is not touched. PASS_START of a granted
run takes the lowest bank free on every member and counts the pass; with both banks busy or no grant it does nothing. BANK_SWAP within
PASS_LIMIT moves the time base to the end of the steps, fills the bank on every member and queues its drain, all of it poisoned on a parity
error; past PASS_LIMIT it does nothing. DRAIN writes the oldest swapped pass and ends the descriptor after the last. PASS_CUT drains what
has been swapped, clears the running bank and halts. Each of them leaves a descriptor with no run as it is. A semiring's exact term, its
selection or sum, the saturation and the wrapping of an INT32 accumulator and its identity are those of the spec's tables. -/
def Obligations.WeaveRows : Prop :=
  ∀ (s : State) (h : Hw), h = clearSent s.hw →
    (∀ i q d, runnable h i q = some d → opcode d = 0x40 → runAt h i q = none →
      (weaveCheck h i d ≠ 0 → exec (.weave i q) s = .next (s.ended (haltDesc h i d (weaveCheck h i d)))) ∧
      (∀ m, weaveCheck h i d = 0 → m ∈ wMembers d → unitFenced h 3 (m / 4) = true →
        exec (.weave i q) s = .next (s.ended (endDesc h i d 0x07 0))) ∧
      (weaveCheck h i d = 0 → (∀ m, m ∈ wMembers d → unitFenced h 3 (m / 4) = false) →
        (∀ m, m ∈ wMembers d → (islandAt h { kind := .quad, idx := m / 4 }).power ≠ .open → exec (.weave i q) s = .next (s.withHw h)) ∧
        ((∀ m, m ∈ wMembers d → (islandAt h { kind := .quad, idx := m / 4 }).power = .open) →
          (∀ e r, missesFor (h, s.mem) i d = (r, .error e) → NoWait r.1 →
            exec (.weave i q) s = .next (s.withHm (stepEnd (missStop r.1 i d e), r.2))) ∧
          (∀ r ms g, missesFor (h, s.mem) i d = (r, .ok ms) → NoWait r.1 → g = addRunFor (putDesc r.1 i { d with begun := true })
              { slip := i, seq := q, units := wMembers d, cls := (slipAt r.1 i).cls, total := wPasses d } →
            exec (.weave i q) s = .next (s.withHm (stepEnd (grantTransit { g with tiers := { g.tiers with misses := g.tiers.misses ++ ms } }), r.2)))))) ∧
    (∀ i d, missStop h i d .unknown = haltDesc h i d 0x29 ∧ missStop h i d .poisoned = endDesc h i d 0x01 0 ∧
      (∀ a, missStop h i d (.bad (.refused a)) = haltRefused h i d a) ∧ missStop h i d (.bad .absent) = endDesc h i d (goneStatus h) 0 ∧
      missStop h i d (.bad .gated) = endDesc h i d 0x06 0) ∧
    (∀ i q, (runnable h i q = none ∨ runAt h i q ≠ none) → exec (.weave i q) s = .next (s.withHw h)) ∧
    (∀ i q d, runnable h i q = some d → opcode d ≠ 0x40 → exec (.weave i q) s = .next (s.withHw h)) ∧
    (∀ i d, wGang d % gangSize (wShape d) ≠ 0 → weaveCheck h i d = 0x40) ∧
    (∀ i q p, (runAt h i q = none ∨ findDesc (slipAt h i) q = none) → exec (.passStart i q) s = .next (s.withHw h) ∧
      exec (.bankSwap i q p) s = .next (s.withHw h) ∧ exec (.drain i q) s = .next (s.withHw h) ∧ exec (.passCut i q) s = .next (s.withHw h)) ∧
    (∀ i q r d, runAt h i q = some r → findDesc (slipAt h i) q = some d →
      (opcode d ≠ 0x40 → ∀ p, exec (.passStart i q) s = .next (s.withHw h) ∧ exec (.bankSwap i q p) s = .next (s.withHw h) ∧
        exec (.passCut i q) s = .next (s.withHw h)) ∧
      (∀ g b, opcode d = 0x40 → grantedRun h r = true → ((b = 0 ∧ 0 ∉ busyBanks h r) ∨ (b = 1 ∧ 0 ∈ busyBanks h r ∧ 1 ∉ busyBanks h r)) →
        g = passOver h r → exec (.passStart i q) s = .next (s.ended (putRun { g with
          weaves := { g.weaves with
            looms := (wMembers d).foldl (fun t m => tabMod {} t m (fun l => { l with
            cfg := wCfg d, mode := if r.next = 0 ∧ bitOf (leAt d.bytes 0x17 1) 7 then field (leAt d.bytes 0x17 1) 2 0 else l.mode })) h.weaves.looms } }
        { r with
          running := true, start := h.tb.now, bank := b, passed := none, next := r.next + 1,
          fresh := (wMembers d).any (fun m => decide ((tabGet {} h.weaves.looms m).cfg ≠ wCfg d)) || (decide (r.next = 0) && (busyBanks h r).isEmpty) }))) ∧
      ((grantedRun h r = false ∨ (0 ∈ busyBanks h r ∧ 1 ∈ busyBanks h r)) → exec (.passStart i q) s = .next (s.withHw h)) ∧
      (∀ t g f y p x, opcode d = 0x40 → r.running = true →
        t = max h.tb.now (r.start + quadNs h (wGang d / 4) (stepCycles d + (if r.fresh then bcastCycles (wShape d) else 0))) →
        (r.start + 10 * leAt d.bytes 0x1E 2 < t → exec (.bankSwap i q p) s = .next (s.withHw h)) ∧
        (t ≤ r.start + 10 * leAt d.bytes 0x1E 2 → g = advanceTo h t →
          f = (List.range (gangSize (wShape d))).foldl (fun (acc : Tab Loom × Bool) m => (tabMod {} acc.1 (wGang d + m) (fun l =>
            if r.bank = 0 then { l with bank0 := (memberBank g d (r.next - 1) m).1 } else { l with bank1 := (memberBank g d (r.next - 1) m).1 }),
            acc.2 || (memberBank g d (r.next - 1) m).2)) (g.weaves.looms, false) →
          y = { g with weaves := { g.weaves with looms := f.1 } } →
          x = restamp (if p then corrected y 3 (wGang d / 4) (wGang d) none else y) { r with
            running := false, cyc := passBegin d r + stepCycles d + 1,
            swaps := if r.bank = 0 then [passBegin d r + stepCycles d + 1, r.swaps.getD 1 0] else [r.swaps.getD 0 0, passBegin d r + stepCycles d + 1],
            flags := r.flags ||| flag f.2,
            drains := r.drains ++ [{
              bank := r.bank, pass := r.next - 1, since := t, rows := (passPoison g d (r.next - 1)).1, cols := (passPoison g d (r.next - 1)).2.1,
              cells := (passPoison g d (r.next - 1)).2.2, all := p }] } →
          exec (.bankSwap i q p) s = .next (s.ended (putRun x.1 x.2)))) ∧
      (∀ p, r.running = false → exec (.bankSwap i q p) s = .next (s.withHw h) ∧ exec (.passCut i q) s = .next (s.withHw h)) ∧
      (r.drains = [] → exec (.drain i q) s = .next (s.withHw h)) ∧
      (∀ k ks g x, r.drains = k :: ks → g = advanceTo h (k.since + quadNs h (wGang d / 4) 72) → x = drainOne g d r →
        (x.2.1.done ≠ x.2.1.total → exec (.drain i q) s = .next (s.ended (putRun x.1 x.2.1))) ∧
        (∀ e, x.2.1.done = x.2.1.total → e = { d with poison := d.poison || x.2.1.poison, result := weaveResult x.2.1 } →
          exec (.drain i q) s = .next (s.ended (endDesc x.1 i e (endStatus e) 0)))) ∧
      (∀ x g, opcode d = 0x40 → r.running = true → x = drainAll 3 (advanceTo h (r.start + 10 * leAt d.bytes 0x1E 2)) d r →
        g = { x.1 with weaves := { x.1.weaves with looms := (wMembers d).foldl (fun t m => tabMod {} t m (fun l =>
          if r.bank = 0 then { l with bank0 := [] } else { l with bank1 := [] })) x.1.weaves.looms } } →
        exec (.passCut i q) s = .next (s.ended (haltDesc g i { d with result := weaveResult x.2 } 0x44)))) ∧
    (∀ a b : FV, floatTerm 0 a b = fmul a b ∧ floatTerm 1 a b = fadd a b ∧ floatTerm 2 a b = fadd a b ∧ floatTerm 3 a b = fabs (fadd a (fneg b)) ∧
      floatTerm 4 a b = fmul (fadd a (fneg b)) (fadd a (fneg b)) ∧ floatTerm 7 a b = fmul a b ∧
      (∀ k, k ∈ [0, 3, 4] → a ≠ .nan → b ≠ .nan → floatAcc k a b = rne32 (fadd a b)) ∧
      (a ≠ .nan → b ≠ .nan → floatAcc 1 a b = (if flt (rne32 b) a then rne32 b else a) ∧ floatAcc 2 a b = (if flt a (rne32 b) then rne32 b else a) ∧
        floatAcc 7 a b = floatAcc 2 a b)) ∧
    (∀ (ge : Bool) (a b : Int), intTerm 0 ge a b = a * b ∧ intTerm 1 ge a b = a + b ∧ intTerm 2 ge a b = a + b ∧ intTerm 4 ge a b = (a - b) * (a - b) ∧
      intTerm 3 ge a b = (if a ≥ b then a - b else b - a) ∧ intTerm 5 ge a b = popcount32 (a.toNat ^^^ b.toNat) ∧
      intTerm 6 false a b = (if b < a then 1 else 0) ∧ intTerm 6 true a b = (if b ≤ a then 1 else 0) ∧ intTerm 7 ge a b = a * b) ∧
    (∀ (w : Bool) (a t : Int), intAcc 1 w a t = (min a t, false) ∧ intAcc 2 w a t = (max a t, false) ∧ intAcc 7 w a t = (max a t, false) ∧
      (∀ k, k ∈ [0, 3, 4, 5, 6] → intAcc k true a t = (signed 32 (unsigned 32 (a + t)), false) ∧
        (2 ^ 31 - 1 < a + t → intAcc k false a t = (2 ^ 31 - 1, true)) ∧ (a + t < -(2 ^ 31) → intAcc k false a t = (-(2 ^ 31), true)) ∧
        (-(2 ^ 31) ≤ a + t → a + t ≤ 2 ^ 31 - 1 → intAcc k false a t = (a + t, false)))) ∧
    (∀ k (n : Bool), (k ∈ [0, 3, 4, 5, 6] → identityBits k n = 0) ∧ (k ∈ [2, 7] → identityBits k true = 0x80000000 ∧ identityBits k false = 0xFF800000)) ∧
    (identityBits 1 true = 0x7FFFFFFF ∧ identityBits 1 false = 0x7F800000)

/-- Finishing descriptors, VERIFY's admission, and their rows and cuts. For every state and each of the eight finishing opcodes: a dispatched
descriptor that nothing holds back halts with the reason its checks give, ends FENCED where its quad is, waits for its quad to wake, and
otherwise joins the waiting runs of its finisher; one of another opcode, one not dispatched, or one that has joined already, is not touched.
VERIFY is admitted the same way by its own checks, after its ledger's poison, and keeps the ledger's GEN. A ROW_END of a granted run within
ROW_LIMIT does one whole row: the time base moves, the pieces are written, poisoned where the row's inputs are or on a parity error, which
poisons the rows before it too, and with free values where output and input overlap, the row is counted, and the last row ends the descriptor
with its flags and result; where there is no run, no grant holds or the limit is passed it does nothing. ROW_CUT of a granted run halts the
descriptor, and where none is granted does nothing. -/
def Obligations.FinisherRows : Prop :=
  ∀ (s : State) (h : Hw), h = clearSent s.hw →
    (∀ i q d c op, runnable h i q = some d → runAt h i q = none →
      (c, op) ∈ [(Instr.map i q, 0x50), (.reduce i q, 0x51), (.softmax i q, 0x52), (.norm i q, 0x53), (.select i q, 0x54), (.quant i q, 0x55),
        (.dequant i q, 0x56), (.sample i q, 0x57)] →
      (opcode d ≠ op → exec c s = .next (s.withHw h)) ∧
      (opcode d = op → finCheck h i d ≠ 0 → exec c s = .next (s.ended (haltDesc h i d (finCheck h i d)))) ∧
      (opcode d = op → finCheck h i d = 0 → unitFenced h 3 (fQuad d) = true → exec c s = .next (s.ended (endDesc h i d 0x07 0))) ∧
      (opcode d = op → finCheck h i d = 0 → unitFenced h 3 (fQuad d) = false → (islandAt h { kind := .quad, idx := fQuad d }).power ≠ .open →
        exec c s = .next (s.withHw h)) ∧
      (opcode d = op → finCheck h i d = 0 → unitFenced h 3 (fQuad d) = false → (islandAt h { kind := .quad, idx := fQuad d }).power = .open →
        exec c s = .next (s.ended (addRunFor (putDesc h i { d with begun := true })
          { slip := i, seq := q, units := [512 + fQuad d], cls := (slipAt h i).cls, total := fRows d, cyc := 16 })))) ∧
    (∀ i q c, (runnable h i q = none ∨ runAt h i q ≠ none) → c ∈ [Instr.map i q, .reduce i q, .softmax i q, .norm i q, .select i q, .quant i q,
      .dequant i q, .sample i q, .verify i q] → exec c s = .next (s.withHw h)) ∧
    (∀ i q d x, runnable h i q = some d → runAt h i q = none → x = ledgerAt h (vLedger d) →
      (opcode d ≠ 0x78 → exec (.verify i q) s = .next (s.withHw h)) ∧
      (opcode d = 0x78 → verifyCheck h i d ≠ 0 → exec (.verify i q) s = .next (s.ended (haltDesc h i d (verifyCheck h i d)))) ∧
      (opcode d = 0x78 → verifyCheck h i d = 0 → x.poison ≠ 0 → exec (.verify i q) s =
        .next (s.ended (endDesc h i { d with poison := true, result := verifyResult x 0 0 0 0 } 0x01 0))) ∧
      (opcode d = 0x78 → verifyCheck h i d = 0 → x.poison = 0 → unitFenced h 3 (fQuad d) = true →
        exec (.verify i q) s = .next (s.ended (endDesc h i d 0x07 0))) ∧
      (opcode d = 0x78 → verifyCheck h i d = 0 → x.poison = 0 → unitFenced h 3 (fQuad d) = false →
        (islandAt h { kind := .quad, idx := fQuad d }).power ≠ .open → exec (.verify i q) s = .next (s.withHw h)) ∧
      (opcode d = 0x78 → verifyCheck h i d = 0 → x.poison = 0 → unitFenced h 3 (fQuad d) = false →
        (islandAt h { kind := .quad, idx := fQuad d }).power = .open → exec (.verify i q) s =
          .next (s.ended (addRunFor (putDesc h i { d with begun := true }) {
            slip := i, seq := q, units := [512 + fQuad d], cls := (slipAt h i).cls, total := vDrafts d + 1, cyc := 16, gen := x.gen.toNat })))) ∧
    (∀ i q p, (runAt h i q = none ∨ findDesc (slipAt h i) q = none) →
      exec (.rowEnd i q p) s = .next (s.settled (h, s.mem)) ∧ exec (.rowCut i q) s = .next (s.withHw h)) ∧
    (∀ i q r d p, runAt h i q = some r → findDesc (slipAt h i) q = some d →
      ((opcode d < 0x50 ∨ grantedRun h r = false ∨ fLimit d < quadNs h (fQuad d) (rowCycles d)) →
        exec (.rowEnd i q p) s = .next (s.settled (h, s.mem))) ∧
      ((opcode d < 0x50 ∨ grantedRun h r = false) → exec (.rowCut i q) s = .next (s.withHw h)) ∧
      (0x50 ≤ opcode d → opcode d ≠ 0x78 → grantedRun h r = true →
        (quadNs h (fQuad d) (rowCycles d) ≤ fLimit d → exec (.rowEnd i q p) s = .next (s.settled (finRowEnd h i d r p, s.mem))) ∧
        exec (.rowCut i q) s = .next (s.ended (finRowCut h i d r))) ∧
      (opcode d = 0x78 → grantedRun h r = true →
        (quadNs h (fQuad d) (rowCycles d) ≤ fLimit d → exec (.rowEnd i q p) s = .next (s.settled (settle (verifyRowEnd (h, s.mem) i d r p)))) ∧
        exec (.rowCut i q) s = .next (s.withHw (stepEnd
          (haltDesc (advanceTo h (h.tb.now + fLimit d)) i { d with result := verifyResult (ledgerAt h (vLedger d)) 0 0 0 r.cyc } 0x44))))) ∧
    (∀ i d r g o r1 p b f w, g = loadMode (passOver (advanceTo h (h.tb.now + quadNs h (fQuad d) (rowCycles d))) r) d r →
      b = (r.tainted || p || (fReads d r.next).any (fun x => bobPoisoned g x.1 x.2.1 x.2.2)) →
      o = finRow g d (tabGet 0 g.weaves.fmode (fQuad d)) r.next →
      f = (if fOverlap d then freePieces g (rowPieces d o b r.next) else (rowPieces d o b r.next, g)) →
      w = (if p then (List.range r.next).foldl (fun u k => (fOutRanges d k).foldl (fun u x => (granulesOf x.2.1 x.2.2).foldl
          (fun u n => bobMark u x.1 n true) u) u) (corrected (writeTile f.2 f.1) 3 (fQuad d) (4 * fQuad d) none) else writeTile f.2 f.1) →
      r1 = { r with
        next := r.next + 1, done := r.done + 1, passed := none, tainted := r.tainted || p, poison := r.poison || b,
        flags := if b then r.flags else r.flags ||| o.flags, cyc := r.cyc + rowCycles d, first := if r.next = 0 then o.first else r.first } →
      (r1.done ≠ r1.total → finRowEnd h i d r p = putRun (restamp w r1).1 (restamp w r1).2) ∧
      (∀ e, r1.done = r1.total → e = { d with poison := d.poison || r1.poison, result := finResult r1 } →
        finRowEnd h i d r p = endDesc w i e (endStatus e) 0))

/-- KNOT_INIT, KNOT_SIGNAL, KNOT_WAIT, their timeout and the answers of remote knots. For every state and every dispatched knot descriptor
that nothing holds back: KNOT_INIT of a knot not owned halts, of a cross-package knot without membership halts, and otherwise writes the
knot anew after its waiters end BROKEN; KNOT_SIGNAL and KNOT_WAIT on a local knot halt where it is not owned or its type does not allow
the operation, end BROKEN or POISONED where the knot is, and otherwise signal it with the result of Table 16.9, or arrive where they are to,
register the wait and release every waiter that may go; on another package's knot they end ABSENT where it is no member, BROKEN where the
membership is fenced, and otherwise post the operation and end as its home answers, a held wait waiting. A KNOT_WAIT that waits there already
takes its later answer. KNOT_TIMEOUT withdraws a waiting wait and halts it TIMEOUT_US after it began; REMOTE_WAIT_RETRY posts a wait that
found no entry again after 2 us. A descriptor of another opcode, or one not dispatched, is not touched. The signal operations, the
conditions and the values after a release are those of Tables 16.3 and 16.4. -/
def Obligations.KnotRows : Prop :=
  ∀ (s : State) (h : Hw), h = clearSent s.hw →
    (∀ i q a c op, (c, op) ∈ [(Instr.knotInit i q, 0x60), (.knotSignal i q a, 0x61), (.knotWait i q a, 0x62)] →
      (∀ d, runnable h i q = some d → opcode d ≠ op) → (op = 0x62 → ∀ w, w ∈ h.sync.remoteWaits → (w.1, w.2.1) ≠ (i, q)) →
      exec c s = .next (s.settled (h, s.mem))) ∧
    (∀ i q d n k c m, runnable h i q = some d → opcode d = 0x60 → n = refKnot (leAt d.bytes 0x10 4) → c = leAt d.bytes 0x24 1 →
      m = leAt d.bytes 0x40 32 →
      (knotOwner h n ≠ slipOwner h i → exec (.knotInit i q) s = .next (s.settled (haltDesc h i d 0x20, s.mem))) ∧
      (knotOwner h n = slipOwner h i → c = 1 → (h.ident.admitted = false ∨ bitOf m h.ident.position = false) →
        exec (.knotInit i q) s = .next (s.settled (haltDesc h i d 0x42, s.mem))) ∧
      (knotOwner h n = slipOwner h i → (c ≠ 1 ∨ (h.ident.admitted = true ∧ bitOf m h.ident.position = true)) → k = ({
          type := leAt d.bytes 0x14 1,
          value := BitVec.ofNat 64 (if leAt d.bytes 0x14 1 = 2 then leAt d.bytes 0x18 8 % 2 else leAt d.bytes 0x18 8),
          parties := leAt d.bytes 0x20 4, evmode := leAt d.bytes 0x15 1, irq := leAt d.bytes 0x16 2, cross := decide (c = 1),
          members := if c = 1 then m else 0, lastSig := h.ident.position, waitShown := (knotAt h n).waitShown } : Knot) →
        exec (.knotInit i q) s = .next (s.settled
          (endDesc (setKnot (breakWaiters h n) n k) i { d with result := knotResult k.value.toNat 0 h.ident.position } 0 0, s.mem)))) ∧
    (∀ i q d r n op x a, runnable h i q = some d → opcode d = 0x61 → r = leAt d.bytes 0x10 4 → n = refKnot r → op = leAt d.bytes 0x14 1 →
      x = leAt d.bytes 0x18 8 →
      (refLocal h r = true → knotOwner h n ≠ slipOwner h i → exec (.knotSignal i q a) s = .next (s.settled (haltDesc h i d 0x20, s.mem))) ∧
      (refLocal h r = true → knotOwner h n = slipOwner h i → (knotAt h n).broken = true →
        exec (.knotSignal i q a) s = .next (s.settled (endDesc h i d 0x08 0, s.mem))) ∧
      (refLocal h r = true → knotOwner h n = slipOwner h i → (knotAt h n).broken = false → (knotAt h n).poison = true →
        exec (.knotSignal i q a) s = .next (s.settled (endDesc h i { d with poison := true } 0x01 0, s.mem))) ∧
      (refLocal h r = true → knotOwner h n = slipOwner h i → (knotAt h n).broken = false → (knotAt h n).poison = false →
        (sigAllowed (knotAt h n).type op = false → exec (.knotSignal i q a) s = .next (s.settled (haltDesc h i d 0x40, s.mem))) ∧
        (sigAllowed (knotAt h n).type op = true → exec (.knotSignal i q a) s = .next (s.settled
          (endDesc (signalKnot h n op x h.ident.position) i { d with
            result := leBytes 8 (sigValue (knotAt h n) op x).toNat ++ leBytes 4 0 ++ leBytes 4 h.ident.position } 0 0, s.mem)))) ∧
      (refLocal h r = false → isMember h (field r 25 18) = false → exec (.knotSignal i q a) s = .next (s.settled (endDesc h i d 0x05 0, s.mem))) ∧
      (refLocal h r = false → isMember h (field r 25 18) = true → memberFenced h = true →
        exec (.knotSignal i q a) s = .next (s.settled (endDesc h i d 0x08 0, s.mem))) ∧
      (refLocal h r = false → isMember h (field r 25 18) = true → memberFenced h = false →
        exec (.knotSignal i q a) s = .next (s.settled (remoteEnd (postKnot h i d false) i d a, s.mem)))) ∧
    (∀ g i d, remoteEnd g i d .broken = endDesc g i d 0x08 0 ∧ remoteEnd g i d .notMember = haltDesc g i d 0x43 ∧
      remoteEnd g i d .badType = haltDesc g i d 0x40 ∧ remoteEnd g i d .poisoned = endDesc g i { d with poison := true } 0x01 0 ∧
      remoteEnd g i d .held = g ∧ remoteEnd g i d .noEntry = g ∧
      (∀ v l, opcode d = 0x61 → remoteEnd g i d (.done v l) = endDesc g i { d with
        result := knotResult (v % 2 ^ 64) ((g.tb.now - d.since) / 1000) (l % 256) } 0 0) ∧
      (∀ v l, opcode d = 0x62 → remoteEnd g i d (.done v l) = endDesc (accountSet g i d.seq (g.tb.now - d.since) (l % 256)) i { d with
        result := knotResult (v % 2 ^ 64) ((g.tb.now - d.since) / 1000) (l % 256) } 0 0)) ∧
    (∀ i q d r n c x a, runnable h i q = some d → opcode d = 0x62 → (∀ w, w ∈ h.sync.remoteWaits → (w.1, w.2.1) ≠ (i, q)) →
      r = leAt d.bytes 0x10 4 → n = refKnot r → c = leAt d.bytes 0x14 1 →
      x = (if leAt d.bytes 0x15 1 = 1 then (knotAt h n).value.toNat / 2 ^ 32 else leAt d.bytes 0x18 8) →
      (refLocal h r = true → knotOwner h n ≠ slipOwner h i → exec (.knotWait i q a) s = .next (s.settled (haltDesc h i d 0x20, s.mem))) ∧
      (refLocal h r = true → knotOwner h n = slipOwner h i → (knotAt h n).broken = true →
        exec (.knotWait i q a) s = .next (s.settled (endDesc h i d 0x08 0, s.mem))) ∧
      (refLocal h r = true → knotOwner h n = slipOwner h i → (knotAt h n).broken = false → (knotAt h n).poison = true →
        exec (.knotWait i q a) s = .next (s.settled (endDesc h i { d with poison := true } 0x01 0, s.mem))) ∧
      (refLocal h r = true → knotOwner h n = slipOwner h i → (knotAt h n).broken = false → (knotAt h n).poison = false →
        condAllowed (knotAt h n).type c = false → exec (.knotWait i q a) s = .next (s.settled (haltDesc h i d 0x40, s.mem))) ∧
      (∀ g k, refLocal h r = true → knotOwner h n = slipOwner h i → (knotAt h n).broken = false → (knotAt h n).poison = false →
        condAllowed (knotAt h n).type c = true →
        g = (if leAt d.bytes 0x15 1 = 1 then signalKnot (putDesc h i { d with phase := .waiting, since := h.tb.now, begun := true }) n 3 1 h.ident.position
          else putDesc h i { d with phase := .waiting, since := h.tb.now, begun := true }) → k = knotAt g n →
        exec (.knotWait i q a) s = .next (s.settled (serveKnot (k.waiters.length + 2) n (setKnot g n { k with
          waiters := k.waiters ++ [{ slip := i, seq := d.seq, part := slipOwner h i, cond := c, x := x, since := h.tb.now }] }), s.mem))) ∧
      (refLocal h r = false → isMember h (field r 25 18) = false → exec (.knotWait i q a) s = .next (s.settled (endDesc h i d 0x05 0, s.mem))) ∧
      (refLocal h r = false → isMember h (field r 25 18) = true → memberFenced h = true →
        exec (.knotWait i q a) s = .next (s.settled (endDesc h i d 0x08 0, s.mem))) ∧
      (∀ g, refLocal h r = false → isMember h (field r 25 18) = true → memberFenced h = false →
        (a ∈ [KnotAns.held, .noEntry] → g = putDesc (postKnot h i d true) i { d with phase := .waiting, since := h.tb.now } →
          exec (.knotWait i q a) s = .next (s.settled ({ g with sync := { g.sync with
            remoteWaits := g.sync.remoteWaits ++ [(i, d.seq, if a = KnotAns.held then 1 else 0)] } }, s.mem))) ∧
        (a ∉ [KnotAns.held, .noEntry] → exec (.knotWait i q a) s =
          .next (s.settled (remoteEnd (postKnot h i d true) i { d with since := h.tb.now } a, s.mem))))) ∧
    (∀ i q a, (∃ w, w ∈ h.sync.remoteWaits ∧ (w.1, w.2.1) = (i, q)) →
      exec (.knotWait i q a) s = .next (s.settled (remoteAnswer h i q false a, s.mem))) ∧
    (∀ i q a, exec (.remoteWaitRetry i q a) s = .next (s.settled (remoteAnswer h i q true a, s.mem))) ∧
    (∀ i q a d (retry : Bool) g, ((∀ w, w ∈ h.sync.remoteWaits → (w.1, w.2.1) = (i, q) → retry = true ∧ w.2.2 ≠ 0) → remoteAnswer h i q retry a = h) ∧
      (findDesc (slipAt h i) q = some d → (∃ w, w ∈ h.sync.remoteWaits ∧ (w.1, w.2.1) = (i, q) ∧ (retry = true → w.2.2 = 0)) →
        g = (if retry then postKnot (advanceTo h (h.tb.now + 2000)) i d true else h) →
        (a ∈ [KnotAns.held, .noEntry] → remoteAnswer h i q retry a = { g with sync := { g.sync with
          remoteWaits := g.sync.remoteWaits.map (fun w => if decide (w.1 = i ∧ w.2.1 = q) && (!retry || decide (w.2.2 = 0)) then
            (w.1, w.2.1, if a = KnotAns.held then 1 else w.2.2) else w) } }) ∧
        (a ∉ [KnotAns.held, .noEntry] → findDesc (slipAt g i) q = some d → remoteAnswer h i q retry a = remoteEnd { g with sync := { g.sync with
          remoteWaits := g.sync.remoteWaits.filter (fun w => !(decide (w.1 = i ∧ w.2.1 = q) && (!retry || decide (w.2.2 = 0)))) } } i d a))) ∧
    (∀ k n f, knotAt h n = k → (firstRelease k false k.waiters = none → serveKnot f n h = h) ∧
      (∀ w y g, firstRelease k false k.waiters = some w → y = { k with value := releaseValue k w.cond w.x, waiters := k.waiters.erase w } →
        g = setKnot h n y →
        (∀ p, w.remote = some p → serveKnot (f + 1) n h = serveKnot f n (postMsg g (partSet g w.part)
          { cls := .cmp, op := 2, dst := p, txn := w.tag, payload := leBytes 8 y.value.toNat ++ leBytes 4 y.lastSig })) ∧
        (∀ d, w.remote = none → findDesc (slipAt g w.slip) w.seq = some d → serveKnot (f + 1) n h = serveKnot f n
          (endDesc (accountWait g n w.slip w.seq w.since y.lastSig) w.slip { d with
            result := knotResult y.value.toNat ((h.tb.now - w.since) / 1000) y.lastSig } 0 0)))) ∧
    (∀ i q, findDesc (slipAt h i) q = none → exec (.knotTimeout i q) s = .next (s.settled (h, s.mem))) ∧
    (∀ i q d, findDesc (slipAt h i) q = some d →
      (opcode d = 0x62 → d.phase = .waiting → leAt d.bytes 0x20 4 ≠ 0 → exec (.knotTimeout i q) s = .next (s.settled
        (haltDesc (withdrawWaits (advanceTo h (d.since + 1000 * leAt d.bytes 0x20 4)) i (fun k => decide (k = q))) i d 0x41, s.mem))) ∧
      ((opcode d ≠ 0x62 ∨ d.phase ≠ .waiting ∨ leAt d.bytes 0x20 4 = 0) → exec (.knotTimeout i q) s = .next (s.settled (h, s.mem)))) ∧
    (∀ (k : Knot) (x v n g a : Nat), v = k.value.toNat → n = x % 65536 → g = v / 2 ^ 32 → a = v % 2 ^ 32 →
      sigValue k 1 x = BitVec.ofNat 64 (v + x) ∧ sigValue k 2 x = BitVec.ofNat 64 x ∧
      sigValue k 5 x = 1 ∧ sigValue k 6 x = 0 ∧ (x < 2 ^ 64 → sigValue k 7 x = BitVec.ofNat 64 (max v x)) ∧
      (n = 0 → sigValue k 3 x = k.value) ∧ (0 < n → a + n < k.parties → sigValue k 3 x = BitVec.ofNat 64 (v + n)) ∧
      (0 < n → k.parties ≤ a + n → sigValue k 3 x = BitVec.ofNat 64 ((g + 1) % 2 ^ 32 * 2 ^ 32)) ∧
      sigValue k 4 x = BitVec.ofNat 64 (g * 2 ^ 32) ∧
      condHolds k 1 x = decide (x ≤ v) ∧ condHolds k 2 x = decide (v = x) ∧ condHolds k 3 x = decide (x ≤ v) ∧
      condHolds k 4 x = decide (g ≠ x % 2 ^ 32) ∧ condHolds k 5 x = decide (v % 2 = 1) ∧
      releaseValue k 3 x = BitVec.ofNat 64 (v - x) ∧ releaseValue k 5 x = (if k.evmode = 1 then 0 else k.value) ∧
      (∀ c, c ∈ [1, 2, 4] → releaseValue k c x = k.value))

/-- POOL_ALLOC, POOL_FREE and the timeout of a queued allocation. For every state and every dispatched pool descriptor that nothing holds
back and none of whose accesses has to wait: an unknown pool or more inline indices than fit halts it, a poisoned pool ends it POISONED;
POOL_ALLOC with an empty queue and enough free buffers is served at once, its indices read from HEAD, in order, given inline, the first two
and HEAD, or written to its buffer, with NOWAIT it ends EMPTY where there are too few, and otherwise it waits in the pool's queue, and waits
on where it stands there already; POOL_FREE takes its indices from the descriptor or from buffer 0, ends POISONED where one is poisoned,
halts past the pool's entries, and otherwise writes them at TAIL, or free values in place of indices that are duplicate or out of range
(R500), raises TAIL, signals the refill knot and answers TAIL; an access that is refused, absent or gated ends it so. POOL_EMPTY of a queued
allocation takes it out of the queue TIMEOUT_US after it began to wait and ends it EMPTY; of any other it does nothing. A descriptor of
another opcode, or one not dispatched, is not touched. -/
def Obligations.PoolRows : Prop :=
  ∀ (s : State) (h : Hw), h = clearSent s.hw →
    (∀ i q c op o, (c, op) ∈ [(Instr.poolAlloc i q, 0x63), (.poolFree i q, 0x64)] → (∀ d, runnable h i q = some d → opcode d ≠ op) →
      o = (h, s.mem) → NoWait (settle o).1 → exec c s = .next (s.settled o)) ∧
    (∀ i q d p id c x o, runnable h i q = some d → p = slipOwner h i → id = leAt d.bytes 0x10 1 → c = leAt d.bytes 0x12 1 → x = poolAt h p id →
      NoWait (settle o).1 →
      (opcode d = 0x63 → (∃ w, w ∈ x.queue ∧ (w.slip, w.seq) = (i, d.seq)) → o = tagged (putDesc h i { d with phase := .waiting }, s.mem) i q →
        exec (.poolAlloc i q) s = .next (s.settled o)) ∧
      (opcode d = 0x63 → (∀ w, w ∈ x.queue → (w.slip, w.seq) ≠ (i, d.seq)) →
        ((63 < id ∨ x.used = false ∨ (leAt d.bytes 0x18 8 = 0 ∧ 2 < c)) → o = tagged (haltDesc h i d 0x44, s.mem) i q →
          exec (.poolAlloc i q) s = .next (s.settled o)) ∧
        (id ≤ 63 → x.used = true → (leAt d.bytes 0x18 8 ≠ 0 ∨ c ≤ 2) →
          (x.poison = true → o = tagged (endDesc h i { d with poison := true } 0x01 0, s.mem) i q → exec (.poolAlloc i q) s = .next (s.settled o)) ∧
          (x.poison = false → x.queue = [] → c ≤ (x.tail - x.head).toNat → o = tagged (serveAlloc (h, s.mem) i p id d c) i q →
            exec (.poolAlloc i q) s = .next (s.settled o)) ∧
          (x.poison = false → (x.queue ≠ [] ∨ (x.tail - x.head).toNat < c) → leAt d.bytes 0x13 1 = 1 →
            o = tagged (endDesc h i d 0x03 0, s.mem) i q → exec (.poolAlloc i q) s = .next (s.settled o)) ∧
          (∀ g, x.poison = false → (x.queue ≠ [] ∨ (x.tail - x.head).toNat < c) → leAt d.bytes 0x13 1 ≠ 1 →
            g = putDesc h i { d with phase := .waiting, since := h.tb.now, begun := true } →
            o = tagged (setPool g p id { x with queue := x.queue ++ [{ slip := i, seq := d.seq, count := c }] }, s.mem) i q →
            exec (.poolAlloc i q) s = .next (s.settled o)))) ∧
      (opcode d = 0x64 →
        ((63 < id ∨ x.used = false ∨ (leAt d.bytes 0x18 8 = 0 ∧ 8 < c)) → o = tagged (haltDesc h i d 0x44, s.mem) i q →
          exec (.poolFree i q) s = .next (s.settled o)) ∧
        (id ≤ 63 → x.used = true → (leAt d.bytes 0x18 8 ≠ 0 ∨ c ≤ 8) →
          (x.poison = true → o = tagged (endDesc h i { d with poison := true } 0x01 0, s.mem) i q → exec (.poolFree i q) s = .next (s.settled o)) ∧
          (∀ r b, x.poison = false → freeIndices (h, s.mem) i d c = (r, .error b) → o = tagged (failAccess r.1 i d b, r.2) i q →
            exec (.poolFree i q) s = .next (s.settled o)) ∧
          (∀ r v, x.poison = false → freeIndices (h, s.mem) i d c = (r, .ok (true, v)) →
            o = tagged (endDesc r.1 i { d with poison := true } 0x01 0, r.2) i q → exec (.poolFree i q) s = .next (s.settled o)) ∧
          (∀ r v, x.poison = false → freeIndices (h, s.mem) i d c = (r, .ok (false, v)) → x.entries < (x.tail - x.head).toNat + c →
            o = tagged (haltDesc r.1 i d 0x45, r.2) i q → exec (.poolFree i q) s = .next (s.settled o)) ∧
          (∀ r v w u, x.poison = false → freeIndices (h, s.mem) i d c = (r, .ok (false, v)) → (x.tail - x.head).toNat + c ≤ x.entries →
            poolPut (poolIndices r x v).1 p id (poolIndices r x v).2 d.seq.toNat = (w, u) →
            (∀ a, u = .refused a → o = tagged (haltRefused w.1 i d a, w.2) i q → exec (.poolFree i q) s = .next (s.settled o)) ∧
            (u = .absent → o = tagged (endDesc w.1 i d (goneStatus w.1) 0, w.2) i q → exec (.poolFree i q) s = .next (s.settled o)) ∧
            ((∀ a, u ≠ .refused a) → u ≠ .absent → o = tagged (settle (endDesc w.1 i { d with result := leBytes 16 (poolAt w.1 p id).tail.toNat }
              (if u = .off then 0x06 else 0) 0, w.2)) i q → exec (.poolFree i q) s = .next (s.settled o)))))) ∧
    (∀ g m i d c, leAt d.bytes 0x18 8 = 0 →
      freeIndices (g, m) i d c = ((g, m), .ok (false, (List.range c).map (fun j => leAt d.bytes (0x20 + 4 * j) 4)))) ∧
    (∀ x v, (∀ j, j ∈ v → j < x.entries) → v.Nodup →
      (∀ k, k < (x.tail - x.head).toNat → k < x.entries → ringIndex (h, s.mem) x (x.head.toNat + k) ∉ v) →
      poolIndices (h, s.mem) x v = ((h, s.mem), v)) ∧
    (∀ x v, ((∃ j, j ∈ v ∧ x.entries ≤ j) ∨ ¬ v.Nodup ∨
        ∃ k, k < (x.tail - x.head).toNat ∧ k < x.entries ∧ ringIndex (h, s.mem) x (x.head.toNat + k) ∈ v) →
      poolIndices (h, s.mem) x v = (({ h with free := h.free + 4 * v.length }, s.mem),
        (List.range v.length).map (fun j => leAt (takeFreeBytes h (4 * v.length)).1 (4 * j) 4))) ∧
    (∀ i p id d c r e, poolTake (h, s.mem) p id c = (r, e) →
      (∀ b, e = .error b → serveAlloc (h, s.mem) i p id d c = (failAccess r.1 i d b, r.2)) ∧
      (∀ v, e = .ok (true, v) → serveAlloc (h, s.mem) i p id d c = (endDesc r.1 i { d with poison := true } 0x01 0, r.2)) ∧
      (∀ v, e = .ok (false, v) → buffersOf d = [] → serveAlloc (h, s.mem) i p id d c = (endDesc (tagWrites r.1 (.slip i d.seq)) i { d with
        result := leBytes 4 (v.getD 0 0) ++ leBytes 4 (v.getD 1 0xFFFFFFFF) ++ leBytes 4 (poolAt h p id).head.toNat ++ zeros 4 } 0 0, r.2)) ∧
      (∀ v w, e = .ok (false, v) → buffersOf d ≠ [] → bufWrite r i d 0 (v.flatMap (leBytes 4)) = (w, .ok) →
        serveAlloc (h, s.mem) i p id d c = (endDesc (tagWrites w.1 (.slip i d.seq)) i { d with
          result := leBytes 4 (v.getD 0 0) ++ leBytes 4 (v.getD 1 0xFFFFFFFF) ++ leBytes 4 (poolAt h p id).head.toNat ++ zeros 4 } 0 0, w.2))) ∧
    (∀ p id n r x, x = poolAt h p id →
      (∀ v, readSlots (h, s.mem) x.die p (ringSlot x) x.head.toNat n = (r, .ok (false, v)) →
        poolTake (h, s.mem) p id n = ((setPool r.1 p id { x with head := x.head + BitVec.ofNat 32 n }, r.2), .ok (false, v))) ∧
      (∀ v, readSlots (h, s.mem) x.die p (ringSlot x) x.head.toNat n = (r, .ok (true, v)) → poolTake (h, s.mem) p id n = (r, .ok (true, v))) ∧
      (∀ b, readSlots (h, s.mem) x.die p (ringSlot x) x.head.toNat n = (r, .error b) → poolTake (h, s.mem) p id n = (r, .error b))) ∧
    (∀ p id v q w u x g n k, x = poolAt h p id → writeSlots (h, s.mem) p (ringSlot x) x.tail.toNat v = (w, u) → (∀ a, u ≠ .refused a) → u ≠ .absent →
      g = setPool w.1 p id { x with tail := x.tail + BitVec.ofNat 32 v.length } → n = refKnot x.refill → k = knotAt g n →
      (knotOpen g p n = false → poolPut (h, s.mem) p id v q = ((g, w.2), u)) ∧
      (knotOpen g p n = true → k.type = 0 → poolPut (h, s.mem) p id v q = ((signalKnot g n 1 v.length g.ident.position, w.2), u)) ∧
      (knotOpen g p n = true → k.type ≠ 0 →
        poolPut (h, s.mem) p id v q = ((signalKnot g n (headerSignal k q).1 (headerSignal k q).2 g.ident.position, w.2), u))) ∧
    (∀ g i d, (∀ a, failAccess g i d (.refused a) = haltRefused g i d a) ∧ failAccess g i d .absent = endDesc g i d (goneStatus g) 0 ∧
      failAccess g i d .gated = endDesc g i d 0x06 0) ∧
    (∀ i q d k p w o, findDesc (slipAt h i) q = some d → opcode d = 0x63 → leAt d.bytes 0x14 4 ≠ 0 → (k, p) ∈ h.sync.pools → w ∈ p.queue →
      (w.slip, w.seq) = (i, q) →
      o = (endDesc (withdrawWaits (advanceTo h (d.since + 1000 * leAt d.bytes 0x14 4)) i (fun k => decide (k = q))) i d 0x03 0, s.mem) →
      NoWait (settle o).1 → exec (.poolEmpty i q) s = .next (s.settled o)) ∧
    (∀ i q, (findDesc (slipAt h i) q = none ∨ (∀ k p, (k, p) ∈ h.sync.pools → ∀ w, w ∈ p.queue → (w.slip, w.seq) ≠ (i, q))) →
      exec (.poolEmpty i q) s = .next (s.withHw h)) ∧
    (∀ i q d, findDesc (slipAt h i) q = some d → (opcode d ≠ 0x63 ∨ leAt d.bytes 0x14 4 = 0) →
      exec (.poolEmpty i q) s = .next (s.withHw h))

/-- Ledger operations: INIT, EXTEND, COMMIT, ROLLBACK, TRIM and the extend's timeout. For every state and each ledger opcode: a dispatched
descriptor that nothing holds back and none of whose accesses has to wait waits behind an extend that holds its ledger, and otherwise is
performed; one of another opcode, or not dispatched, is not touched. A ledger not owned halts it; INIT of an active ledger, or with a pool of
another sync island, halts, and otherwise writes it anew; a poisoned word ends any operation POISONED but INIT and TRIM with RELEASE, which
clears the ledger and keeps the poison; EXTEND past CAP halts, needs no page where T stays within them, and otherwise takes pages from its
pool, or waits for them, or with NOWAIT ends EMPTY, and then adds COUNT to T and raises GEN; COMMIT past T halts, and otherwise sets L and
raises GEN where L changes; ROLLBACK sets T to L; TRIM past L halts and otherwise sets L and T, or with RELEASE clears the ledger; the
surplus pages go back to the pool, none where none is surplus, and a return that fails ends the operation. EXTEND_TIMEOUT of a queued extend
takes it out of the pool's queue TIMEOUT_US after it began to wait and ends it EMPTY; of any other it does nothing. -/
def Obligations.LedgerRows : Prop :=
  ∀ (s : State) (h : Hw), h = clearSent s.hw →
    (∀ i q c op o, (c, op) ∈ [(Instr.ledgerInit i q, 0x70), (.ledgerExtend i q, 0x71), (.ledgerCommit i q, 0x72), (.ledgerRollback i q, 0x73),
        (.ledgerTrim i q, 0x74)] → NoWait (settle o).1 →
      (∀ d, runnable h i q = some d → opcode d = op → o = tagged (ledgerDesc (h, s.mem) i d) i q → exec c s = .next (s.settled o)) ∧
      ((∀ d, runnable h i q = some d → opcode d ≠ op) → o = (h, s.mem) → exec c s = .next (s.settled o))) ∧
    (∀ i d n x, n = leAt d.bytes 0x10 2 → x = ledgerAt h n →
      (ledgerOwner h n = slipOwner h i → (x.held = true ∨ x.queue ≠ []) → ledgerDesc (h, s.mem) i d =
        (setLedger (putDesc h i { d with phase := .waiting, since := h.tb.now }) n { x with queue := x.queue ++ [(i, d.seq)] }, s.mem)) ∧
      (ledgerOwner h n ≠ slipOwner h i → ledgerDesc (h, s.mem) i d = settle (haltDesc h i d 0x20, s.mem)) ∧
      (ledgerOwner h n = slipOwner h i → x.held = false → x.queue = [] → ledgerDesc (h, s.mem) i d = settle (ledgerOp (h, s.mem) i d))) ∧
    (∀ i d n x p pl c need, n = leAt d.bytes 0x10 2 → x = ledgerAt h n → p = slipOwner h i → ledgerOwner h n = p → pl = poolAt h p x.pool →
      c = leAt d.bytes 0x18 4 → need = ceilDiv (x.t + c) 16 - x.npages →
      (opcode d = 0x70 → x.active = true → ledgerOp (h, s.mem) i d = (haltDesc h i d 0x40, s.mem)) ∧
      (opcode d = 0x70 → x.active = false → ((poolAt h p (leAt d.bytes 0x14 1)).used = false ∨ (poolAt h p (leAt d.bytes 0x14 1)).die ≠ n / 16384) →
        ledgerOp (h, s.mem) i d = (haltDesc h i d 0x42, s.mem)) ∧
      (∀ y, opcode d = 0x70 → x.active = false → (poolAt h p (leAt d.bytes 0x14 1)).used = true →
        (poolAt h p (leAt d.bytes 0x14 1)).die = n / 16384 → y = ({
          list := leAt d.bytes 0x18 8 / 64 % 2 ^ 50, pool := leAt d.bytes 0x14 1, active := true, cap := leAt d.bytes 0x20 4,
          spare := leAt d.bytes 0x15 1, queue := x.queue } : Ledger) →
        ledgerOp (h, s.mem) i d = (endDesc (setLedger h n y) i { d with result := zeros 16 } 0 0, s.mem)) ∧
      ((opcode d ∈ [0x71, 0x72, 0x73] ∨ (opcode d = 0x74 ∧ leAt d.bytes 0x14 1 ≠ 1)) → x.poison ≠ 0 →
        ledgerOp (h, s.mem) i d = (endDesc h i { d with poison := true } 0x01 0, s.mem)) ∧
      (opcode d = 0x71 → x.poison = 0 →
        (x.active = false → ledgerOp (h, s.mem) i d = (haltDesc h i d 0x40, s.mem)) ∧
        (x.active = true → 16 * x.cap < x.t + c → ledgerOp (h, s.mem) i d = (haltDesc h i d 0x41, s.mem)) ∧
        (∀ y, x.active = true → x.t + c ≤ 16 * x.cap → x.t + c ≤ 16 * x.npages →
          y = { x with t := x.t + c, gen := x.gen + 1, held := false } →
          ledgerOp (h, s.mem) i d = (endDesc (setLedger h n y) i { d with result := ledgerResult y 0 0 } 0 0, s.mem)) ∧
        (x.active = true → x.t + c ≤ 16 * x.cap → 16 * x.npages < x.t + c →
          ((pl.used = false ∨ pl.die ≠ n / 16384) → ledgerOp (h, s.mem) i d = (haltDesc h i d 0x42, s.mem)) ∧
          (pl.used = true → pl.die = n / 16384 →
            (pl.poison = true → ledgerOp (h, s.mem) i d = (endDesc h i { d with poison := true } 0x01 0, s.mem)) ∧
            (∀ r e, pl.poison = false → pl.queue = [] → need ≤ (pl.tail - pl.head).toNat → poolTake (h, s.mem) p x.pool need = (r, e) →
              (∀ b, e = .error b → ledgerOp (h, s.mem) i d = (failAccess r.1 i d b, r.2)) ∧
              (∀ v, e = .ok (true, v) → ledgerOp (h, s.mem) i d = (endDesc r.1 i { d with poison := true } 0x01 0, r.2)) ∧
              (∀ v, e = .ok (false, v) → ledgerOp (h, s.mem) i d = finishExtend r i d n v)) ∧
            (pl.poison = false → (pl.queue ≠ [] ∨ (pl.tail - pl.head).toNat < need) →
              (leAt d.bytes 0x14 1 = 1 → ledgerOp (h, s.mem) i d = (endDesc h i d 0x03 0, s.mem)) ∧
              (leAt d.bytes 0x14 1 ≠ 1 → ledgerOp (h, s.mem) i d = (setPool (setLedger (putDesc h i { d with
                phase := .waiting, since := h.tb.now, begun := true }) n { x with held := true }) p x.pool { pl with
                queue := pl.queue ++ [{ slip := i, seq := d.seq, count := need, ledger := some n }] }, s.mem)))))) ∧
      (∀ l, opcode d = 0x72 → x.poison = 0 → l = (if leAt d.bytes 0x14 1 = 1 then x.t else x.l + c) →
        (x.t < l → ledgerOp (h, s.mem) i d = (haltDesc h i d 0x40, s.mem)) ∧
        (∀ y, l ≤ x.t → y = { x with l := l, gen := if l = x.l then x.gen else x.gen + 1 } →
          ledgerOp (h, s.mem) i d = (endDesc (setLedger h n y) i { d with result := ledgerResult y 0 0 } 0 0, s.mem))) ∧
      (opcode d = 0x74 → x.poison = 0 → leAt d.bytes 0x14 1 ≠ 1 → x.l < c → ledgerOp (h, s.mem) i d = (haltDesc h i d 0x40, s.mem)) ∧
      (∀ y l, ((opcode d = 0x73 ∧ l = x.l) ∨ (opcode d = 0x74 ∧ leAt d.bytes 0x14 1 ≠ 1 ∧ l = c ∧ l ≤ x.l)) → x.poison = 0 →
        (x.npages ≤ ceilDiv l 16 + x.spare → tabWf {} h.sync.ledgers = true →
          y = { x with l := l, t := l, gen := if x.l ≠ l ∨ x.t ≠ l then x.gen + 1 else x.gen } →
          ledgerOp (h, s.mem) i d = (endDesc (setLedger h n y) i { d with result := ledgerResult y 0 0 } 0 0, s.mem)) ∧
        (∀ r e, setLengths (h, s.mem) p n l l false d.seq.toNat = (r, e) →
          ledgerOp (h, s.mem) i d = endReturn r i d n e (fun _ => ledgerAt r.1 n))) ∧
      (∀ r e, opcode d = 0x74 → leAt d.bytes 0x14 1 = 1 → x.poison = 0 → setLengths (h, s.mem) p n 0 0 true d.seq.toNat = (r, e) →
        ledgerOp (h, s.mem) i d = endReturn r i d n e (fun _ => { gen := (ledgerAt r.1 n).gen, queue := x.queue })) ∧
      (∀ r y, opcode d = 0x74 → leAt d.bytes 0x14 1 = 1 → x.poison ≠ 0 →
        r = (if x.poison &&& 6 = 0 then setLengths (h, s.mem) p n 0 0 true d.seq.toNat else ((h, s.mem), .ok 0)).1 →
        y = ({ gen := (ledgerAt r.1 n).gen, poison := x.poison, queue := x.queue } : Ledger) →
        ledgerOp (h, s.mem) i d = (endDesc (setLedger r.1 n y) i { d with poison := true } 0x01 0, r.2))) ∧
    (∀ i d n v x w y, x = ledgerAt h n → v ≠ [] → listBad x = false →
      writeSlots (h, s.mem) (slipOwner h i) (pageSlot x) x.npages v = (w, .ok) →
      y = { x with t := x.t + leAt d.bytes 0x18 4, npages := x.npages + v.length, gen := x.gen + 1, held := false } →
      finishExtend (h, s.mem) i d n v = (endDesc (setLedger w.1 n y) i { d with result := ledgerResult y v.length 0 } 0 0, w.2)) ∧
    (∀ o i d n (f : Nat → Ledger), (∀ c, endReturn o i d n (.ok c) f =
        (endDesc (setLedger o.1 n (f c)) i { d with result := ledgerResult (f c) 0 c } 0 0, o.2)) ∧
      endReturn o i d n .poison f = (endDesc o.1 i { d with poison := true } 0x01 0, o.2) ∧
      (∀ e, endReturn o i d n (.halt e) f = (haltDesc o.1 i d e, o.2)) ∧ (∀ b, endReturn o i d n (.bad b) f = (failAccess o.1 i d b, o.2))) ∧
    (∀ p n l t q k x pl r, x = ledgerAt h n → pl = poolAt h p x.pool → k = ceilDiv t 16 + x.spare →
      (∀ c y, returnPages (h, s.mem) p n k q = (r, .ok c) → y = ledgerAt r.1 n → setLengths (h, s.mem) p n l t false q =
        ((setLedger r.1 n { y with l := l, t := t, gen := if x.l ≠ l ∨ x.t ≠ t ∨ c ≠ 0 then y.gen + 1 else y.gen }, r.2), .ok c)) ∧
      (x.npages ≤ k → returnPages (h, s.mem) p n k q = ((h, s.mem), .ok 0)) ∧
      (k < x.npages → listBad x = true → returnPages (h, s.mem) p n k q = ((h, s.mem), .bad (.refused (compactLocal (x.list * 64))))) ∧
      (k < x.npages → listBad x = false →
        ((pl.used = false ∨ pl.die ≠ n / 16384) → returnPages (h, s.mem) p n k q = ((h, s.mem), .halt 0x42)) ∧
        (pl.used = true → pl.die = n / 16384 → pl.poison = true → returnPages (h, s.mem) p n k q = ((h, s.mem), .poison)) ∧
        (∀ u v, pl.used = true → pl.die = n / 16384 → pl.poison = false →
          readSlots (h, s.mem) (n / 16384) p (pageSlot x) k (x.npages - k) = (u, .ok (false, v)) →
          (pl.entries < (pl.tail - pl.head).toNat + (x.npages - k) → returnPages (h, s.mem) p n k q = ((h, s.mem), .halt 0x45)) ∧
          ((pl.tail - pl.head).toNat + (x.npages - k) ≤ pl.entries → poolPut (poolIndices u pl v).1 p x.pool (poolIndices u pl v).2 q = (r, .ok) →
            returnPages (h, s.mem) p n k q = ((setLedger r.1 n { ledgerAt r.1 n with npages := k }, r.2), .ok (x.npages - k)))))) ∧
    (∀ i q d k p w o, findDesc (slipAt h i) q = some d → opcode d = 0x71 → leAt d.bytes 0x1C 4 ≠ 0 → (k, p) ∈ h.sync.pools → w ∈ p.queue →
      (w.slip, w.seq) = (i, q) →
      o = (endDesc (withdrawWaits (advanceTo h (d.since + 1000 * leAt d.bytes 0x1C 4)) i (fun k => decide (k = q))) i d 0x03 0, s.mem) →
      NoWait (settle o).1 → exec (.ledgerExtendTimeout i q) s = .next (s.settled o)) ∧
    (∀ i q, (findDesc (slipAt h i) q = none ∨ (∀ k p, (k, p) ∈ h.sync.pools → ∀ w, w ∈ p.queue → (w.slip, w.seq) ≠ (i, q))) →
      exec (.ledgerExtendTimeout i q) s = .next (s.withHw h)) ∧
    (∀ i q d, findDesc (slipAt h i) q = some d → (opcode d ≠ 0x71 ∨ leAt d.bytes 0x1C 4 = 0) →
      exec (.ledgerExtendTimeout i q) s = .next (s.withHw h))

/-- How a VERIFY ends: accepted drafts and the next token, a rolled back draft, poison, and a ledger that changed meanwhile. For every state:
the row that yields the next token sets L and T of the ledger to L plus the accepted drafts plus one, writes the accepted drafts and the
token to the output and ends OK with its result; a row that rolls back sets T to L and ends NUMERIC; a poisoned row sets T to L, unless the
ledger changed meanwhile, and ends POISONED, and so does a poisoned ledger, which stays; where GEN differs from the one kept at dispatch any
other row ends the descriptor HALTED with its reason and the ledger stays; a failed page return halts without changing L or T. An accepted
draft gives the finisher up at the row's boundary, with the row counted; any other row, one with a parity error among them, ends the
descriptor so, but while an extend holds the ledger it does nothing. -/
def Obligations.VerifyOutcomes : Prop :=
  ∀ (s : State) (h : Hw) (i : Nat) (d : Desc) (r : Run) (n : Nat) (x : Ledger), h = clearSent s.hw → n = vLedger d → x = ledgerAt h n →
    (∀ v, x.poison ≠ 0 → verifyEnd (h, s.mem) i d r v =
      (endDesc h i { d with poison := true, result := verifyResult x 0 0 0 r.cyc } 0x01 0, s.mem)) ∧
    (∀ v, x.poison = 0 → x.gen.toNat ≠ r.gen → v ≠ .poison → verifyEnd (h, s.mem) i d r v = (endDesc h i d 0x09 0x40, s.mem)) ∧
    (x.gen.toNat ≠ r.gen → verifyEnd (h, s.mem) i d r .poison =
      (endDesc h i { d with poison := true, result := verifyResult x 0 0 0 r.cyc } 0x01 0, s.mem)) ∧
    (∀ u c, x.poison = 0 → x.gen.toNat = r.gen → setLengths (h, s.mem) (slipOwner h i) n x.l x.l false d.seq.toNat = (u, .ok c) →
      verifyEnd (h, s.mem) i d r .poison =
        (endDesc u.1 i { d with poison := true, result := verifyResult (ledgerAt u.1 n) 0 0 0 r.cyc } 0x01 0, u.2)) ∧
    (∀ f u c, x.poison = 0 → x.gen.toNat = r.gen → setLengths (h, s.mem) (slipOwner h i) n x.l x.l false d.seq.toNat = (u, .ok c) →
      verifyEnd (h, s.mem) i d r (.roll f) =
        (endDesc u.1 i { d with poison := d.poison, result := verifyResult (ledgerAt u.1 n) 0 f 0 r.cyc } 0x0A 0, u.2)) ∧
    (∀ v u e, x.poison = 0 → x.gen.toNat = r.gen → (v = .poison ∨ ∃ f, v = .roll f) →
      setLengths (h, s.mem) (slipOwner h i) n x.l x.l false d.seq.toNat = (u, .halt e) → verifyEnd (h, s.mem) i d r v = (haltDesc h i d e, s.mem)) ∧
    (∀ t f u c g, x.poison = 0 → x.gen.toNat = r.gen →
      setLengths (h, s.mem) (slipOwner h i) n (x.l + r.done + 1) (x.l + r.done + 1) false d.seq.toNat = (u, .ok c) →
      g = bobWrite u.1 (vOutput d).1 (vOutput d).2.1 (bobRead u.1 (vTokens d).1 (vTokens d).2.1 (4 * r.done) ++ leBytes 4 t) false →
      verifyEnd (h, s.mem) i d r (.next t f) =
        (endDesc g i { d with poison := d.poison, result := verifyResult (ledgerAt g n) r.done f t r.cyc } 0x00 0, u.2)) ∧
    (∀ t f u e, x.poison = 0 → x.gen.toNat = r.gen →
      setLengths (h, s.mem) (slipOwner h i) n (x.l + r.done + 1) (x.l + r.done + 1) false d.seq.toNat = (u, .halt e) →
      verifyEnd (h, s.mem) i d r (.next t f) = (haltDesc h i d e, s.mem)) ∧
    (∀ g v k p, g = passOver (advanceTo h (h.tb.now + quadNs h (fQuad d) (rowCycles d))) r →
      v = (if p then (.poison, g) else verifyRow g d (bitOf (tabGet 0 g.weaves.fmode (fQuad d)) 2) r.next) →
      k = { r with next := r.next + 1, passed := none, cyc := r.cyc + rowCycles d } →
      (v.1 = .accept → verifyRowEnd (h, s.mem) i d r p =
        (putRun (restamp v.2 { k with done := r.done + 1 }).1 (restamp v.2 { k with done := r.done + 1 }).2, s.mem)) ∧
      (v.1 ≠ .accept → x.held = true → verifyRowEnd (h, s.mem) i d r p = (h, s.mem)) ∧
      (v.1 ≠ .accept → x.held = false → verifyRowEnd (h, s.mem) i d r p =
        verifyEnd ((if p then corrected v.2 3 (fQuad d) (4 * fQuad d) none else v.2), s.mem) i d k v.1))
end

