-- ==== Sys2Proof/Laws/Tab.lean ====
section
/-! SUPPORT. The laws of sparse tables: reading after writing, and the canonical form, which every table operation keeps. -/
namespace Sys2Proof.Machine

variable {α : Type}

/-- Keys of a rising table lie above its bound. -/
theorem tabRising_lt {lo : Nat} {t : Tab α} (h : tabRising (some lo) t = true) : ∀ e ∈ t, lo < e.1 := by
  induction t generalizing lo with
  | nil => simp
  | cons a t ih =>
    obtain ⟨k, v⟩ := a
    simp only [tabRising, Bool.and_eq_true, decide_eq_true_eq] at h
    intro e he
    rcases List.mem_cons.1 he with rfl | he
    · exact h.1
    · exact lt_trans h.1 (ih h.2 e he)

/-- Rising is being strictly sorted by key. -/
theorem tabRising_iff {t : Tab α} : tabRising none t = true ↔ t.Pairwise (fun a b => a.1 < b.1) := by
  have key : ∀ (t : Tab α) (lo : Nat), tabRising (some lo) t = true ↔ (∀ e ∈ t, lo < e.1) ∧ t.Pairwise (fun a b => a.1 < b.1) := by
    intro t
    induction t with
    | nil => simp [tabRising]
    | cons a t ih =>
      obtain ⟨k, v⟩ := a
      intro lo
      simp only [tabRising, Bool.and_eq_true, decide_eq_true_eq, ih, List.pairwise_cons, List.mem_cons, forall_eq_or_imp]
      constructor
      · rintro ⟨h1, h2, h3⟩
        exact ⟨⟨h1, fun e he => lt_trans h1 (h2 e he)⟩, h2, h3⟩
      · rintro ⟨⟨h1, _⟩, h2, h3⟩
        exact ⟨h1, h2, h3⟩
  cases t with
  | nil => simp [tabRising]
  | cons a t =>
    obtain ⟨k, v⟩ := a
    simp [tabRising, key]

/-- The canonical form, in terms of lists. -/
theorem tabWf_iff [DecidableEq α] {d : α} {t : Tab α} :
    tabWf d t = true ↔ t.Pairwise (fun a b => a.1 < b.1) ∧ ∀ e ∈ t, e.2 ≠ d := by
  simp [tabWf, tabRising_iff, List.all_eq_true]

/-- A filtered table keeps the canonical form. -/
theorem tabWf_filter [DecidableEq α] {d : α} {t : Tab α} (p : Nat × α → Bool) (h : tabWf d t = true) : tabWf d (t.filter p) = true := by
  rw [tabWf_iff] at *
  exact ⟨h.1.filter p, fun e he => h.2 e (List.mem_filter.1 he).1⟩

/-- Clearing keys keeps the canonical form. -/
theorem tabClear_wf [DecidableEq α] {d : α} {t : Tab α} (p : Nat → Bool) (h : tabWf d t = true) : tabWf d (tabClear t p) = true :=
  tabWf_filter _ h

/-- Members of a table after removal of a key. -/
theorem tabDel_sublist (t : Tab α) (n : Nat) : (tabDel t n).Sublist t := by
  induction t with
  | nil => simp [tabDel]
  | cons a t ih =>
    obtain ⟨k, v⟩ := a
    unfold tabDel
    split
    · exact List.sublist_cons_self _ _
    · exact ih.cons_cons _

/-- Removing a key keeps the canonical form. -/
theorem tabDel_wf [DecidableEq α] {d : α} {t : Tab α} (n : Nat) (h : tabWf d t = true) : tabWf d (tabDel t n) = true := by
  rw [tabWf_iff] at *
  exact ⟨h.1.sublist (tabDel_sublist t n), fun e he => h.2 e ((tabDel_sublist t n).subset he)⟩

/-- Members of a table after an insertion. -/
theorem mem_tabIns {t : Tab α} {n : Nat} {x : α} {e : Nat × α} (h : e ∈ tabIns t n x) : e = (n, x) ∨ e ∈ t := by
  induction t with
  | nil => simpa [tabIns] using h
  | cons a t ih =>
    obtain ⟨k, v⟩ := a
    unfold tabIns at h
    split at h
    · simpa using h
    · split at h
      · rcases List.mem_cons.1 h with h | h
        · exact .inl h
        · exact .inr (List.mem_cons_of_mem _ h)
      · rcases List.mem_cons.1 h with h | h
        · exact .inr (by simp [h])
        · rcases ih h with h | h
          · exact .inl h
          · exact .inr (List.mem_cons_of_mem _ h)

/-- Insertion keeps keys strictly rising. -/
theorem tabIns_sorted {t : Tab α} (n : Nat) (x : α) (h : t.Pairwise (fun a b => a.1 < b.1)) :
    (tabIns t n x).Pairwise (fun a b => a.1 < b.1) := by
  induction t with
  | nil => simp [tabIns]
  | cons a t ih =>
    obtain ⟨k, v⟩ := a
    have hs := List.pairwise_cons.1 h
    unfold tabIns
    split
    · rename_i hlt
      refine List.pairwise_cons.2 ⟨?_, h⟩
      intro e he
      rcases List.mem_cons.1 he with rfl | he
      · exact hlt
      · exact lt_trans hlt (hs.1 e he)
    · split
      · rename_i heq
        subst heq
        exact List.pairwise_cons.2 ⟨fun e he => hs.1 e he, hs.2⟩
      · rename_i h1 h2
        refine List.pairwise_cons.2 ⟨?_, ih hs.2⟩
        intro e he
        rcases mem_tabIns he with rfl | he
        · exact lt_of_le_of_ne (not_lt.1 h1) (Ne.symm h2)
        · exact hs.1 e he

/-- A write keeps the canonical form. -/
theorem tabPut_wf [DecidableEq α] {d : α} {t : Tab α} (n : Nat) (x : α) (h : tabWf d t = true) : tabWf d (tabPut d t n x) = true := by
  unfold tabPut
  split
  · exact tabDel_wf n h
  · rename_i hx
    rw [tabWf_iff] at *
    refine ⟨tabIns_sorted n x h.1, fun e he => ?_⟩
    rcases mem_tabIns he with rfl | he
    · exact hx
    · exact h.2 e he

/-- Reading an inserted key. -/
theorem tabGet_ins_same (d : α) (t : Tab α) (n : Nat) (x : α) : tabGet d (tabIns t n x) n = x := by
  induction t with
  | nil => simp [tabIns, tabGet]
  | cons a t ih =>
    obtain ⟨k, v⟩ := a
    unfold tabIns
    split
    · simp [tabGet]
    · split
      · simp [tabGet]
      · rename_i h1 h2
        simp [tabGet, Ne.symm h2, ih]

/-- Reading another key than the inserted one. -/
theorem tabGet_ins_other (d : α) (t : Tab α) {n m : Nat} (x : α) (h : m ≠ n) : tabGet d (tabIns t n x) m = tabGet d t m := by
  induction t with
  | nil => simp [tabIns, tabGet, Ne.symm h]
  | cons a t ih =>
    obtain ⟨k, v⟩ := a
    unfold tabIns
    split
    · simp [tabGet, Ne.symm h]
    · split
      · rename_i _ h2
        subst h2
        simp [tabGet, Ne.symm h]
      · simp [tabGet, ih]

/-- Reading a key that lies below every key of a table. -/
theorem tabGet_below (d : α) {t : Tab α} {n : Nat} (h : ∀ e ∈ t, n < e.1) : tabGet d t n = d := by
  induction t with
  | nil => rfl
  | cons a t ih =>
    obtain ⟨k, v⟩ := a
    have : n < k := h (k, v) (by simp)
    simp [tabGet, Nat.ne_of_gt this, ih (fun e he => h e (List.mem_cons_of_mem _ he))]

/-- Reading a removed key. -/
theorem tabGet_del_same (d : α) {t : Tab α} (n : Nat) (h : t.Pairwise (fun a b => a.1 < b.1)) : tabGet d (tabDel t n) n = d := by
  induction t with
  | nil => rfl
  | cons a t ih =>
    obtain ⟨k, v⟩ := a
    have hs := List.pairwise_cons.1 h
    unfold tabDel
    split
    · rename_i hk
      subst hk
      exact tabGet_below d (fun e he => hs.1 e he)
    · rename_i hk
      simp [tabGet, hk, ih hs.2]

/-- Reading another key than the removed one. -/
theorem tabGet_del_other (d : α) (t : Tab α) {n m : Nat} (h : m ≠ n) : tabGet d (tabDel t n) m = tabGet d t m := by
  induction t with
  | nil => rfl
  | cons a t ih =>
    obtain ⟨k, v⟩ := a
    unfold tabDel
    split
    · rename_i hk
      subst hk
      simp [tabGet, Ne.symm h]
    · simp [tabGet, ih]

/-- A read after a write to another key. -/
@[simp] theorem tabGet_put_other [DecidableEq α] (d : α) (t : Tab α) {n m : Nat} (x : α) (h : m ≠ n) :
    tabGet d (tabPut d t n x) m = tabGet d t m := by
  unfold tabPut
  split
  · exact tabGet_del_other d t h
  · exact tabGet_ins_other d t x h

/-- A read after a write to the same key, in a table of the canonical form. -/
theorem tabGet_put_same [DecidableEq α] (d : α) {t : Tab α} (n : Nat) (x : α) (h : tabWf d t = true) : tabGet d (tabPut d t n x) n = x := by
  unfold tabPut
  split
  · rename_i hx
    rw [hx]
    exact tabGet_del_same d n (tabWf_iff.1 h).1
  · exact tabGet_ins_same d t n x

/-- A read after a write of another value than the default. -/
theorem tabGet_put_ne [DecidableEq α] (d : α) (t : Tab α) (n : Nat) {x : α} (h : x ≠ d) : tabGet d (tabPut d t n x) n = x := by
  unfold tabPut
  rw [if_neg h]
  exact tabGet_ins_same d t n x

/-- A read of a cleared key. -/
theorem tabGet_clear_in (d : α) (t : Tab α) {p : Nat → Bool} {n : Nat} (h : p n = true) : tabGet d (tabClear t p) n = d := by
  induction t with
  | nil => rfl
  | cons a t ih =>
    obtain ⟨k, v⟩ := a
    unfold tabClear at *
    by_cases hk : p k = true
    · simpa [List.filter_cons, hk] using ih
    · have : k ≠ n := fun e => hk (e ▸ h)
      simpa [List.filter_cons, hk, tabGet, this] using ih

/-- A read of a key that was not cleared. -/
theorem tabGet_clear_out (d : α) (t : Tab α) {p : Nat → Bool} {n : Nat} (h : p n = false) : tabGet d (tabClear t p) n = tabGet d t n := by
  induction t with
  | nil => rfl
  | cons a t ih =>
    obtain ⟨k, v⟩ := a
    unfold tabClear at *
    by_cases hk : p k = true
    · have : k ≠ n := fun e => by rw [e, h] at hk; exact absurd hk (by simp)
      simpa [List.filter_cons, hk, tabGet, this] using ih
    · simp only [List.filter_cons, hk, Bool.not_false, if_true, tabGet]
      split
      · rfl
      · exact ih

end Sys2Proof.Machine
end

