-- ==== Sys2Proof/Laws/Memory.lean ====
section
/-! SUPPORT. The byte memory: a read after a write, and the canonical form, which every memory operation keeps. -/
namespace Sys2Proof.Machine

/-- Writing one byte keeps the canonical form. -/
theorem memPut_wf {m : Memory} (a : Nat) (b : Byte) (h : Memory.wf m) : Memory.wf (memPut m a b) := tabPut_wf a b h

/-- Writing bytes keeps the canonical form. -/
theorem memWrite_wf {m : Memory} (a : Nat) (bs : List Byte) (h : Memory.wf m) : Memory.wf (memWrite m a bs) := by
  induction bs generalizing m a with
  | nil => exact h
  | cons b bs ih => exact ih (a + 1) (memPut_wf a b h)

/-- Zeroing a range keeps the canonical form. -/
theorem memZero_wf {m : Memory} (a n : Nat) (h : Memory.wf m) : Memory.wf (memZero m a n) := tabClear_wf _ h

/-- The empty memory has the canonical form. -/
theorem memory_nil_wf : Memory.wf [] := by decide

/-- A byte just written. -/
theorem memByte_put_same {m : Memory} (a : Nat) (b : Byte) (h : Memory.wf m) : memByte (memPut m a b) a = b := tabGet_put_same 0 a b h

/-- A byte elsewhere. -/
@[simp] theorem memByte_put_other (m : Memory) {a x : Nat} (b : Byte) (h : x ≠ a) : memByte (memPut m a b) x = memByte m x :=
  tabGet_put_other 0 m b h

/-- A byte outside a write. -/
theorem memByte_write_out (m : Memory) (a : Nat) (bs : List Byte) {x : Nat} (h : x < a ∨ a + bs.length ≤ x) :
    memByte (memWrite m a bs) x = memByte m x := by
  induction bs generalizing m a with
  | nil => rfl
  | cons b bs ih =>
    have hx : x ≠ a := by
      rcases h with h | h
      · omega
      · simp only [List.length_cons] at h
        omega
    unfold memWrite
    rw [ih, memByte_put_other m b hx]
    rcases h with h | h
    · left
      omega
    · right
      simp only [List.length_cons] at h
      omega

/-- A byte within a write. -/
theorem memByte_write_in {m : Memory} (a : Nat) (bs : List Byte) (h : Memory.wf m) {i : Nat} (hi : i < bs.length) :
    memByte (memWrite m a bs) (a + i) = bs[i] := by
  induction bs generalizing m a i with
  | nil => simp at hi
  | cons b bs ih =>
    unfold memWrite
    cases i with
    | zero => rw [memByte_write_out _ _ _ (by left; omega)]; simpa using memByte_put_same a b h
    | succ i =>
      have hi' : i < bs.length := by simpa using hi
      have := ih (a + 1) (memPut_wf a b h) hi'
      rw [show a + (i + 1) = a + 1 + i by omega, this]
      rfl

/-- A byte of a zeroed range. -/
theorem memByte_zero_in (m : Memory) {a n x : Nat} (h : a ≤ x ∧ x < a + n) : memByte (memZero m a n) x = 0 :=
  tabGet_clear_in 0 m (by simp [h])

/-- A byte outside a zeroed range. -/
theorem memByte_zero_out (m : Memory) {a n x : Nat} (h : x < a ∨ a + n ≤ x) : memByte (memZero m a n) x = memByte m x := by
  refine tabGet_clear_out 0 m ?_
  rcases h with h | h
  · simp [show ¬ a ≤ x by omega]
  · simp [show ¬ x < a + n by omega]

end Sys2Proof.Machine
end

