-- ==== Sys2Proof/Laws/State.lean ====
section
/-! SUPPORT. What each update of one piece of state leaves alone, field by field, and what its reader then reads. -/
namespace Sys2Proof.Machine

/-! ### The three parts of a state -/

@[simp] theorem State.withHw_hw (s : State) (h : Hw) : (s.withHw h).hw = h := rfl
@[simp] theorem State.withHw_mem (s : State) (h : Hw) : (s.withHw h).mem = s.mem := rfl
@[simp] theorem State.withHw_pending (s : State) (h : Hw) : (s.withHw h).pending = s.pending := rfl
@[simp] theorem State.withHm_hw (s : State) (o : HM) : (s.withHm o).hw = o.1 := rfl
@[simp] theorem State.withHm_mem (s : State) (o : HM) : (s.withHm o).mem = o.2 := rfl
@[simp] theorem State.withHm_pending (s : State) (o : HM) : (s.withHm o).pending = s.pending := rfl

@[simp] theorem clearSent_ident (h : Hw) : (clearSent h).ident = h.ident := rfl
@[simp] theorem clearSent_tb (h : Hw) : (clearSent h).tb = h.tb := rfl
@[simp] theorem clearSent_islands (h : Hw) : (clearSent h).islands = h.islands := rfl
@[simp] theorem clearSent_straits (h : Hw) : (clearSent h).straits = h.straits := rfl
@[simp] theorem clearSent_locks (h : Hw) : (clearSent h).locks = h.locks := rfl
@[simp] theorem clearSent_sel (h : Hw) : (clearSent h).sel = h.sel := rfl
@[simp] theorem clearSent_faults (h : Hw) : (clearSent h).faults = h.faults := rfl
@[simp] theorem clearSent_harts (h : Hw) : (clearSent h).harts = h.harts := rfl
@[simp] theorem clearSent_intTable (h : Hw) : (clearSent h).intTable = h.intTable := rfl
@[simp] theorem clearSent_intHalf (h : Hw) : (clearSent h).intHalf = h.intHalf := rfl
@[simp] theorem clearSent_imsic (h : Hw) : (clearSent h).imsic = h.imsic := rfl
@[simp] theorem clearSent_coh (h : Hw) : (clearSent h).coh = { h.coh with stalls := [] } := rfl
@[simp] theorem clearSent_ecc (h : Hw) : (clearSent h).ecc = h.ecc := rfl
@[simp] theorem clearSent_memhw (h : Hw) : (clearSent h).memhw = h.memhw := rfl
@[simp] theorem clearSent_eng (h : Hw) : (clearSent h).eng = h.eng := rfl
@[simp] theorem clearSent_tiers (h : Hw) : (clearSent h).tiers = h.tiers := rfl
@[simp] theorem clearSent_weaves (h : Hw) : (clearSent h).weaves = h.weaves := rfl
@[simp] theorem clearSent_sync (h : Hw) : (clearSent h).sync = h.sync := rfl
@[simp] theorem clearSent_edges (h : Hw) : (clearSent h).edges = { h.edges with uart := [] } := rfl
@[simp] theorem clearSent_power (h : Hw) : (clearSent h).power = h.power := rfl
@[simp] theorem clearSent_keep (h : Hw) : (clearSent h).keep = h.keep := rfl
@[simp] theorem clearSent_efano (h : Hw) : (clearSent h).efano = h.efano := rfl
@[simp] theorem clearSent_start (h : Hw) : (clearSent h).start = { h.start with irqWake := false } := rfl
@[simp] theorem clearSent_free (h : Hw) : (clearSent h).free = h.free := rfl
@[simp] theorem clearSent_arch_members (h : Hw) : (clearSent h).arch.members = h.arch.members := rfl
@[simp] theorem clearSent_arch_sets (h : Hw) : (clearSent h).arch.sets = h.arch.sets := rfl
@[simp] theorem clearSent_arch_archId (h : Hw) : (clearSent h).arch.archId = h.arch.archId := rfl
@[simp] theorem clearSent_arch_timeSrc (h : Hw) : (clearSent h).arch.timeSrc = h.arch.timeSrc := rfl
@[simp] theorem clearSent_arch_admitter (h : Hw) : (clearSent h).arch.admitter = h.arch.admitter := rfl
@[simp] theorem clearSent_arch_minSec (h : Hw) : (clearSent h).arch.minSec = h.arch.minSec := rfl
@[simp] theorem clearSent_arch_needKa (h : Hw) : (clearSent h).arch.needKa = h.arch.needKa := rfl
@[simp] theorem clearSent_arch_policy (h : Hw) : (clearSent h).arch.policy = h.arch.policy := rfl
@[simp] theorem clearSent_arch_expect (h : Hw) : (clearSent h).arch.expect = h.arch.expect := rfl
@[simp] theorem clearSent_arch_accepts (h : Hw) : (clearSent h).arch.accepts = h.arch.accepts := rfl
@[simp] theorem clearSent_arch_newcomers (h : Hw) : (clearSent h).arch.newcomers = h.arch.newcomers := rfl
@[simp] theorem clearSent_arch_freeing (h : Hw) : (clearSent h).arch.freeing = h.arch.freeing := rfl
@[simp] theorem clearSent_arch_memSeq (h : Hw) : (clearSent h).arch.memSeq = h.arch.memSeq := rfl
@[simp] theorem clearSent_arch_east (h : Hw) : (clearSent h).arch.east = h.arch.east := rfl
@[simp] theorem clearSent_arch_west (h : Hw) : (clearSent h).arch.west = h.arch.west := rfl
@[simp] theorem clearSent_arch_running (h : Hw) : (clearSent h).arch.running = h.arch.running := rfl
@[simp] theorem clearSent_arch_joinOk (h : Hw) : (clearSent h).arch.joinOk = h.arch.joinOk := rfl
@[simp] theorem clearSent_arch_seq (h : Hw) : (clearSent h).arch.seq = h.arch.seq := rfl
@[simp] theorem clearSent_arch_seen (h : Hw) : (clearSent h).arch.seen = h.arch.seen := rfl
@[simp] theorem clearSent_arch_sent (h : Hw) : (clearSent h).arch.sent = [] := rfl
@[simp] theorem clearSent_arch_recent (h : Hw) : (clearSent h).arch.recent = h.arch.recent := rfl
@[simp] theorem clearSent_arch_foreign (h : Hw) : (clearSent h).arch.foreign = h.arch.foreign := rfl
@[simp] theorem clearSent_arch_timeAt (h : Hw) : (clearSent h).arch.timeAt = h.arch.timeAt := rfl
@[simp] theorem clearSent_arch_timeHops (h : Hw) : (clearSent h).arch.timeHops = h.arch.timeHops := rfl
@[simp] theorem clearSent_arch_timeSeq (h : Hw) : (clearSent h).arch.timeSeq = h.arch.timeSeq := rfl
@[simp] theorem clearSent_arch_timeRun (h : Hw) : (clearSent h).arch.timeRun = h.arch.timeRun := rfl
@[simp] theorem clearSent_arch_breaks (h : Hw) : (clearSent h).arch.breaks = h.arch.breaks := rfl
@[simp] theorem clearSent_arch_archTb (h : Hw) : (clearSent h).arch.archTb = h.arch.archTb := rfl
@[simp] theorem clearSent_arch_plan (h : Hw) : (clearSent h).arch.plan = h.arch.plan := rfl
@[simp] theorem clearSent_arch_prevPlan (h : Hw) : (clearSent h).arch.prevPlan = h.arch.prevPlan := rfl
@[simp] theorem clearSent_arch_nextPlan (h : Hw) : (clearSent h).arch.nextPlan = h.arch.nextPlan := rfl
@[simp] theorem clearSent_arch_others (h : Hw) : (clearSent h).arch.others = h.arch.others := rfl
@[simp] theorem clearSent_arch_rolePend (h : Hw) : (clearSent h).arch.rolePend = h.arch.rolePend := rfl
@[simp] theorem clearSent_arch_censuses (h : Hw) : (clearSent h).arch.censuses = h.arch.censuses := rfl
@[simp] theorem clearSent_arch_censusSeq (h : Hw) : (clearSent h).arch.censusSeq = h.arch.censusSeq := rfl
@[simp] theorem clearSent_arch_links (h : Hw) : (clearSent h).arch.links = h.arch.links := rfl
@[simp] theorem clearSent_arch_posted (h : Hw) : (clearSent h).arch.posted = [] := rfl
@[simp] theorem clearSent_arch_out (h : Hw) : (clearSent h).arch.out = [] := rfl
@[simp] theorem clearSent_arch_waiting (h : Hw) : (clearSent h).arch.waiting = h.arch.waiting := rfl
@[simp] theorem clearSent_arch_txn (h : Hw) : (clearSent h).arch.txn = h.arch.txn := rfl
@[simp] theorem clearSent_arch_presAt (h : Hw) : (clearSent h).arch.presAt = h.arch.presAt := rfl
@[simp] theorem clearSent_arch_tickAt (h : Hw) : (clearSent h).arch.tickAt = h.arch.tickAt := rfl
@[simp] theorem clearSent_arch_delayAt (h : Hw) : (clearSent h).arch.delayAt = h.arch.delayAt := rfl

/-! ### setHart -/

@[simp] theorem setHart_ident (h : Hw) (n : Nat) (x : Hart) : (setHart h n x).ident = h.ident := rfl
@[simp] theorem setHart_tb (h : Hw) (n : Nat) (x : Hart) : (setHart h n x).tb = h.tb := rfl
@[simp] theorem setHart_islands (h : Hw) (n : Nat) (x : Hart) : (setHart h n x).islands = h.islands := rfl
@[simp] theorem setHart_straits (h : Hw) (n : Nat) (x : Hart) : (setHart h n x).straits = h.straits := rfl
@[simp] theorem setHart_locks (h : Hw) (n : Nat) (x : Hart) : (setHart h n x).locks = h.locks := rfl
@[simp] theorem setHart_sel (h : Hw) (n : Nat) (x : Hart) : (setHart h n x).sel = h.sel := rfl
@[simp] theorem setHart_faults (h : Hw) (n : Nat) (x : Hart) : (setHart h n x).faults = h.faults := rfl
@[simp] theorem setHart_intTable (h : Hw) (n : Nat) (x : Hart) : (setHart h n x).intTable = h.intTable := rfl
@[simp] theorem setHart_intHalf (h : Hw) (n : Nat) (x : Hart) : (setHart h n x).intHalf = h.intHalf := rfl
@[simp] theorem setHart_imsic (h : Hw) (n : Nat) (x : Hart) : (setHart h n x).imsic = h.imsic := rfl
@[simp] theorem setHart_coh (h : Hw) (n : Nat) (x : Hart) : (setHart h n x).coh = h.coh := rfl
@[simp] theorem setHart_ecc (h : Hw) (n : Nat) (x : Hart) : (setHart h n x).ecc = h.ecc := rfl
@[simp] theorem setHart_memhw (h : Hw) (n : Nat) (x : Hart) : (setHart h n x).memhw = h.memhw := rfl
@[simp] theorem setHart_eng (h : Hw) (n : Nat) (x : Hart) : (setHart h n x).eng = h.eng := rfl
@[simp] theorem setHart_tiers (h : Hw) (n : Nat) (x : Hart) : (setHart h n x).tiers = h.tiers := rfl
@[simp] theorem setHart_weaves (h : Hw) (n : Nat) (x : Hart) : (setHart h n x).weaves = h.weaves := rfl
@[simp] theorem setHart_sync (h : Hw) (n : Nat) (x : Hart) : (setHart h n x).sync = h.sync := rfl
@[simp] theorem setHart_edges (h : Hw) (n : Nat) (x : Hart) : (setHart h n x).edges = h.edges := rfl
@[simp] theorem setHart_power (h : Hw) (n : Nat) (x : Hart) : (setHart h n x).power = h.power := rfl
@[simp] theorem setHart_arch (h : Hw) (n : Nat) (x : Hart) : (setHart h n x).arch = h.arch := rfl
@[simp] theorem setHart_keep (h : Hw) (n : Nat) (x : Hart) : (setHart h n x).keep = h.keep := rfl
@[simp] theorem setHart_efano (h : Hw) (n : Nat) (x : Hart) : (setHart h n x).efano = h.efano := rfl
@[simp] theorem setHart_start (h : Hw) (n : Nat) (x : Hart) : (setHart h n x).start = h.start := rfl
@[simp] theorem setHart_free (h : Hw) (n : Nat) (x : Hart) : (setHart h n x).free = h.free := rfl
theorem hartAt_setHart_same (h : Hw) (n : Nat) (x : Hart) (hw : tabWf ({} : Hart) h.harts = true) : hartAt (setHart h n x) n = x :=
  tabGet_put_same _ _ _ hw
theorem hartAt_setHart_ne (h : Hw) (n : Nat) (x : Hart) (hx : x ≠ ({} : Hart)) : hartAt (setHart h n x) n = x :=
  tabGet_put_ne _ _ _ hx
@[simp] theorem hartAt_setHart_other (h : Hw) (n : Nat) (x : Hart) {m : Nat} (hm : m ≠ n) : hartAt (setHart h n x) m = hartAt h m :=
  tabGet_put_other _ _ _ hm

/-! ### setUnit -/

@[simp] theorem setUnit_ident (h : Hw) (k i : Nat) (x : UnitOwn) : (setUnit h k i x).ident = h.ident := rfl
@[simp] theorem setUnit_tb (h : Hw) (k i : Nat) (x : UnitOwn) : (setUnit h k i x).tb = h.tb := rfl
@[simp] theorem setUnit_islands (h : Hw) (k i : Nat) (x : UnitOwn) : (setUnit h k i x).islands = h.islands := rfl
@[simp] theorem setUnit_straits (h : Hw) (k i : Nat) (x : UnitOwn) : (setUnit h k i x).straits = h.straits := rfl
@[simp] theorem setUnit_locks (h : Hw) (k i : Nat) (x : UnitOwn) : (setUnit h k i x).locks = h.locks := rfl
@[simp] theorem setUnit_faults (h : Hw) (k i : Nat) (x : UnitOwn) : (setUnit h k i x).faults = h.faults := rfl
@[simp] theorem setUnit_harts (h : Hw) (k i : Nat) (x : UnitOwn) : (setUnit h k i x).harts = h.harts := rfl
@[simp] theorem setUnit_intTable (h : Hw) (k i : Nat) (x : UnitOwn) : (setUnit h k i x).intTable = h.intTable := rfl
@[simp] theorem setUnit_intHalf (h : Hw) (k i : Nat) (x : UnitOwn) : (setUnit h k i x).intHalf = h.intHalf := rfl
@[simp] theorem setUnit_imsic (h : Hw) (k i : Nat) (x : UnitOwn) : (setUnit h k i x).imsic = h.imsic := rfl
@[simp] theorem setUnit_coh (h : Hw) (k i : Nat) (x : UnitOwn) : (setUnit h k i x).coh = h.coh := rfl
@[simp] theorem setUnit_ecc (h : Hw) (k i : Nat) (x : UnitOwn) : (setUnit h k i x).ecc = h.ecc := rfl
@[simp] theorem setUnit_memhw (h : Hw) (k i : Nat) (x : UnitOwn) : (setUnit h k i x).memhw = h.memhw := rfl
@[simp] theorem setUnit_eng (h : Hw) (k i : Nat) (x : UnitOwn) : (setUnit h k i x).eng = h.eng := rfl
@[simp] theorem setUnit_tiers (h : Hw) (k i : Nat) (x : UnitOwn) : (setUnit h k i x).tiers = h.tiers := rfl
@[simp] theorem setUnit_weaves (h : Hw) (k i : Nat) (x : UnitOwn) : (setUnit h k i x).weaves = h.weaves := rfl
@[simp] theorem setUnit_sync (h : Hw) (k i : Nat) (x : UnitOwn) : (setUnit h k i x).sync = h.sync := rfl
@[simp] theorem setUnit_edges (h : Hw) (k i : Nat) (x : UnitOwn) : (setUnit h k i x).edges = h.edges := rfl
@[simp] theorem setUnit_power (h : Hw) (k i : Nat) (x : UnitOwn) : (setUnit h k i x).power = h.power := rfl
@[simp] theorem setUnit_arch (h : Hw) (k i : Nat) (x : UnitOwn) : (setUnit h k i x).arch = h.arch := rfl
@[simp] theorem setUnit_keep (h : Hw) (k i : Nat) (x : UnitOwn) : (setUnit h k i x).keep = h.keep := rfl
@[simp] theorem setUnit_efano (h : Hw) (k i : Nat) (x : UnitOwn) : (setUnit h k i x).efano = h.efano := rfl
@[simp] theorem setUnit_start (h : Hw) (k i : Nat) (x : UnitOwn) : (setUnit h k i x).start = h.start := rfl
@[simp] theorem setUnit_free (h : Hw) (k i : Nat) (x : UnitOwn) : (setUnit h k i x).free = h.free := rfl
@[simp] theorem setUnit_sel_base (h : Hw) (k i : Nat) (x : UnitOwn) : (setUnit h k i x).sel.base = h.sel.base := rfl
@[simp] theorem setUnit_sel_swatches (h : Hw) (k i : Nat) (x : UnitOwn) : (setUnit h k i x).sel.swatches = h.sel.swatches := rfl
@[simp] theorem setUnit_sel_ranges (h : Hw) (k i : Nat) (x : UnitOwn) : (setUnit h k i x).sel.ranges = h.sel.ranges := rfl
@[simp] theorem setUnit_sel_parts (h : Hw) (k i : Nat) (x : UnitOwn) : (setUnit h k i x).sel.parts = h.sel.parts := rfl
@[simp] theorem setUnit_sel_scrubs (h : Hw) (k i : Nat) (x : UnitOwn) : (setUnit h k i x).sel.scrubs = h.sel.scrubs := rfl
@[simp] theorem setUnit_sel_scrubSeq (h : Hw) (k i : Nat) (x : UnitOwn) : (setUnit h k i x).sel.scrubSeq = h.sel.scrubSeq := rfl
@[simp] theorem setUnit_sel_written (h : Hw) (k i : Nat) (x : UnitOwn) : (setUnit h k i x).sel.written = h.sel.written := rfl
@[simp] theorem setUnit_sel_keyCount (h : Hw) (k i : Nat) (x : UnitOwn) : (setUnit h k i x).sel.keyCount = h.sel.keyCount := rfl
theorem unitAt_setUnit_same (h : Hw) (k i : Nat) (x : UnitOwn) (hw : tabWf ({} : UnitOwn) h.sel.units = true) : unitAt (setUnit h k i x) k i = x :=
  tabGet_put_same _ _ _ hw
theorem unitAt_setUnit_ne (h : Hw) (k i : Nat) (x : UnitOwn) (hx : x ≠ ({} : UnitOwn)) : unitAt (setUnit h k i x) k i = x :=
  tabGet_put_ne _ _ _ hx
@[simp] theorem unitAt_setUnit_other (h : Hw) (k i : Nat) (x : UnitOwn) {j : Nat} (hm : j ≠ i) : unitAt (setUnit h k i x) k j = unitAt h k j :=
  tabGet_put_other _ _ _ (by unfold unitKey; omega)

/-! ### setSwatch -/

@[simp] theorem setSwatch_ident (h : Hw) (k : Nat) (x : Swatch) : (setSwatch h k x).ident = h.ident := rfl
@[simp] theorem setSwatch_tb (h : Hw) (k : Nat) (x : Swatch) : (setSwatch h k x).tb = h.tb := rfl
@[simp] theorem setSwatch_islands (h : Hw) (k : Nat) (x : Swatch) : (setSwatch h k x).islands = h.islands := rfl
@[simp] theorem setSwatch_straits (h : Hw) (k : Nat) (x : Swatch) : (setSwatch h k x).straits = h.straits := rfl
@[simp] theorem setSwatch_locks (h : Hw) (k : Nat) (x : Swatch) : (setSwatch h k x).locks = h.locks := rfl
@[simp] theorem setSwatch_faults (h : Hw) (k : Nat) (x : Swatch) : (setSwatch h k x).faults = h.faults := rfl
@[simp] theorem setSwatch_harts (h : Hw) (k : Nat) (x : Swatch) : (setSwatch h k x).harts = h.harts := rfl
@[simp] theorem setSwatch_intTable (h : Hw) (k : Nat) (x : Swatch) : (setSwatch h k x).intTable = h.intTable := rfl
@[simp] theorem setSwatch_intHalf (h : Hw) (k : Nat) (x : Swatch) : (setSwatch h k x).intHalf = h.intHalf := rfl
@[simp] theorem setSwatch_imsic (h : Hw) (k : Nat) (x : Swatch) : (setSwatch h k x).imsic = h.imsic := rfl
@[simp] theorem setSwatch_coh (h : Hw) (k : Nat) (x : Swatch) : (setSwatch h k x).coh = h.coh := rfl
@[simp] theorem setSwatch_ecc (h : Hw) (k : Nat) (x : Swatch) : (setSwatch h k x).ecc = h.ecc := rfl
@[simp] theorem setSwatch_memhw (h : Hw) (k : Nat) (x : Swatch) : (setSwatch h k x).memhw = h.memhw := rfl
@[simp] theorem setSwatch_eng (h : Hw) (k : Nat) (x : Swatch) : (setSwatch h k x).eng = h.eng := rfl
@[simp] theorem setSwatch_tiers (h : Hw) (k : Nat) (x : Swatch) : (setSwatch h k x).tiers = h.tiers := rfl
@[simp] theorem setSwatch_weaves (h : Hw) (k : Nat) (x : Swatch) : (setSwatch h k x).weaves = h.weaves := rfl
@[simp] theorem setSwatch_sync (h : Hw) (k : Nat) (x : Swatch) : (setSwatch h k x).sync = h.sync := rfl
@[simp] theorem setSwatch_edges (h : Hw) (k : Nat) (x : Swatch) : (setSwatch h k x).edges = h.edges := rfl
@[simp] theorem setSwatch_power (h : Hw) (k : Nat) (x : Swatch) : (setSwatch h k x).power = h.power := rfl
@[simp] theorem setSwatch_arch (h : Hw) (k : Nat) (x : Swatch) : (setSwatch h k x).arch = h.arch := rfl
@[simp] theorem setSwatch_keep (h : Hw) (k : Nat) (x : Swatch) : (setSwatch h k x).keep = h.keep := rfl
@[simp] theorem setSwatch_efano (h : Hw) (k : Nat) (x : Swatch) : (setSwatch h k x).efano = h.efano := rfl
@[simp] theorem setSwatch_start (h : Hw) (k : Nat) (x : Swatch) : (setSwatch h k x).start = h.start := rfl
@[simp] theorem setSwatch_free (h : Hw) (k : Nat) (x : Swatch) : (setSwatch h k x).free = h.free := rfl
@[simp] theorem setSwatch_sel_base (h : Hw) (k : Nat) (x : Swatch) : (setSwatch h k x).sel.base = h.sel.base := rfl
@[simp] theorem setSwatch_sel_ranges (h : Hw) (k : Nat) (x : Swatch) : (setSwatch h k x).sel.ranges = h.sel.ranges := rfl
@[simp] theorem setSwatch_sel_units (h : Hw) (k : Nat) (x : Swatch) : (setSwatch h k x).sel.units = h.sel.units := rfl
@[simp] theorem setSwatch_sel_parts (h : Hw) (k : Nat) (x : Swatch) : (setSwatch h k x).sel.parts = h.sel.parts := rfl
@[simp] theorem setSwatch_sel_scrubs (h : Hw) (k : Nat) (x : Swatch) : (setSwatch h k x).sel.scrubs = h.sel.scrubs := rfl
@[simp] theorem setSwatch_sel_scrubSeq (h : Hw) (k : Nat) (x : Swatch) : (setSwatch h k x).sel.scrubSeq = h.sel.scrubSeq := rfl
@[simp] theorem setSwatch_sel_written (h : Hw) (k : Nat) (x : Swatch) : (setSwatch h k x).sel.written = h.sel.written := rfl
@[simp] theorem setSwatch_sel_keyCount (h : Hw) (k : Nat) (x : Swatch) : (setSwatch h k x).sel.keyCount = h.sel.keyCount := rfl
theorem swGet_eq (h : Hw) (k : Nat) : swGet h k = (if (tabGet (swBase h) h.sel.swatches k).state = SwState.free ∧ closedTier h k = true
    then { tabGet (swBase h) h.sel.swatches k with state := .blank } else tabGet (swBase h) h.sel.swatches k) := rfl
theorem swGet_setSwatch_same (h : Hw) (k : Nat) (x : Swatch) (hw : tabWf (swBase h) h.sel.swatches = true)
    (hx : x.state ≠ SwState.free ∨ closedTier h k = false) : swGet (setSwatch h k x) k = x := by
  have e : tabGet (swBase (setSwatch h k x)) (setSwatch h k x).sel.swatches k = x := tabGet_put_same _ _ _ hw
  have c : closedTier (setSwatch h k x) k = closedTier h k := rfl
  rw [swGet_eq, e, c]
  rcases hx with hx | hx <;> simp [hx]
theorem swGet_setSwatch_ne (h : Hw) (k : Nat) (x : Swatch) (hd : x ≠ swBase h)
    (hx : x.state ≠ SwState.free ∨ closedTier h k = false) : swGet (setSwatch h k x) k = x := by
  have e : tabGet (swBase (setSwatch h k x)) (setSwatch h k x).sel.swatches k = x := tabGet_put_ne _ _ _ hd
  have c : closedTier (setSwatch h k x) k = closedTier h k := rfl
  rw [swGet_eq, e, c]
  rcases hx with hx | hx <;> simp [hx]
@[simp] theorem swGet_setSwatch_other (h : Hw) (k : Nat) (x : Swatch) {m : Nat} (hm : m ≠ k) : swGet (setSwatch h k x) m = swGet h m := by
  have e : tabGet (swBase (setSwatch h k x)) (setSwatch h k x).sel.swatches m = tabGet (swBase h) h.sel.swatches m := tabGet_put_other _ _ _ hm
  have c : closedTier (setSwatch h k x) m = closedTier h m := rfl
  rw [swGet_eq, swGet_eq, e, c]

/-! ### setPart -/

@[simp] theorem setPart_ident (h : Hw) (p : Nat) (x : Part) : (setPart h p x).ident = h.ident := rfl
@[simp] theorem setPart_tb (h : Hw) (p : Nat) (x : Part) : (setPart h p x).tb = h.tb := rfl
@[simp] theorem setPart_islands (h : Hw) (p : Nat) (x : Part) : (setPart h p x).islands = h.islands := rfl
@[simp] theorem setPart_straits (h : Hw) (p : Nat) (x : Part) : (setPart h p x).straits = h.straits := rfl
@[simp] theorem setPart_locks (h : Hw) (p : Nat) (x : Part) : (setPart h p x).locks = h.locks := rfl
@[simp] theorem setPart_faults (h : Hw) (p : Nat) (x : Part) : (setPart h p x).faults = h.faults := rfl
@[simp] theorem setPart_harts (h : Hw) (p : Nat) (x : Part) : (setPart h p x).harts = h.harts := rfl
@[simp] theorem setPart_intTable (h : Hw) (p : Nat) (x : Part) : (setPart h p x).intTable = h.intTable := rfl
@[simp] theorem setPart_intHalf (h : Hw) (p : Nat) (x : Part) : (setPart h p x).intHalf = h.intHalf := rfl
@[simp] theorem setPart_imsic (h : Hw) (p : Nat) (x : Part) : (setPart h p x).imsic = h.imsic := rfl
@[simp] theorem setPart_coh (h : Hw) (p : Nat) (x : Part) : (setPart h p x).coh = h.coh := rfl
@[simp] theorem setPart_ecc (h : Hw) (p : Nat) (x : Part) : (setPart h p x).ecc = h.ecc := rfl
@[simp] theorem setPart_memhw (h : Hw) (p : Nat) (x : Part) : (setPart h p x).memhw = h.memhw := rfl
@[simp] theorem setPart_eng (h : Hw) (p : Nat) (x : Part) : (setPart h p x).eng = h.eng := rfl
@[simp] theorem setPart_tiers (h : Hw) (p : Nat) (x : Part) : (setPart h p x).tiers = h.tiers := rfl
@[simp] theorem setPart_weaves (h : Hw) (p : Nat) (x : Part) : (setPart h p x).weaves = h.weaves := rfl
@[simp] theorem setPart_sync (h : Hw) (p : Nat) (x : Part) : (setPart h p x).sync = h.sync := rfl
@[simp] theorem setPart_edges (h : Hw) (p : Nat) (x : Part) : (setPart h p x).edges = h.edges := rfl
@[simp] theorem setPart_power (h : Hw) (p : Nat) (x : Part) : (setPart h p x).power = h.power := rfl
@[simp] theorem setPart_arch (h : Hw) (p : Nat) (x : Part) : (setPart h p x).arch = h.arch := rfl
@[simp] theorem setPart_keep (h : Hw) (p : Nat) (x : Part) : (setPart h p x).keep = h.keep := rfl
@[simp] theorem setPart_efano (h : Hw) (p : Nat) (x : Part) : (setPart h p x).efano = h.efano := rfl
@[simp] theorem setPart_start (h : Hw) (p : Nat) (x : Part) : (setPart h p x).start = h.start := rfl
@[simp] theorem setPart_free (h : Hw) (p : Nat) (x : Part) : (setPart h p x).free = h.free := rfl
@[simp] theorem setPart_sel_base (h : Hw) (p : Nat) (x : Part) : (setPart h p x).sel.base = h.sel.base := rfl
@[simp] theorem setPart_sel_swatches (h : Hw) (p : Nat) (x : Part) : (setPart h p x).sel.swatches = h.sel.swatches := rfl
@[simp] theorem setPart_sel_ranges (h : Hw) (p : Nat) (x : Part) : (setPart h p x).sel.ranges = h.sel.ranges := rfl
@[simp] theorem setPart_sel_units (h : Hw) (p : Nat) (x : Part) : (setPart h p x).sel.units = h.sel.units := rfl
@[simp] theorem setPart_sel_scrubs (h : Hw) (p : Nat) (x : Part) : (setPart h p x).sel.scrubs = h.sel.scrubs := rfl
@[simp] theorem setPart_sel_scrubSeq (h : Hw) (p : Nat) (x : Part) : (setPart h p x).sel.scrubSeq = h.sel.scrubSeq := rfl
@[simp] theorem setPart_sel_written (h : Hw) (p : Nat) (x : Part) : (setPart h p x).sel.written = h.sel.written := rfl
@[simp] theorem setPart_sel_keyCount (h : Hw) (p : Nat) (x : Part) : (setPart h p x).sel.keyCount = h.sel.keyCount := rfl
theorem partAt_setPart_same (h : Hw) (p : Nat) (x : Part) (hw : tabWf ({} : Part) h.sel.parts = true) : partAt (setPart h p x) p = x :=
  tabGet_put_same _ _ _ hw
theorem partAt_setPart_ne (h : Hw) (p : Nat) (x : Part) (hx : x ≠ ({} : Part)) : partAt (setPart h p x) p = x :=
  tabGet_put_ne _ _ _ hx
@[simp] theorem partAt_setPart_other (h : Hw) (p : Nat) (x : Part) {m : Nat} (hm : m ≠ p) : partAt (setPart h p x) m = partAt h m :=
  tabGet_put_other _ _ _ hm

/-! ### setQueue -/

@[simp] theorem setQueue_ident (h : Hw) (k : Nat) (x : FaultQueue) : (setQueue h k x).ident = h.ident := rfl
@[simp] theorem setQueue_tb (h : Hw) (k : Nat) (x : FaultQueue) : (setQueue h k x).tb = h.tb := rfl
@[simp] theorem setQueue_islands (h : Hw) (k : Nat) (x : FaultQueue) : (setQueue h k x).islands = h.islands := rfl
@[simp] theorem setQueue_straits (h : Hw) (k : Nat) (x : FaultQueue) : (setQueue h k x).straits = h.straits := rfl
@[simp] theorem setQueue_locks (h : Hw) (k : Nat) (x : FaultQueue) : (setQueue h k x).locks = h.locks := rfl
@[simp] theorem setQueue_sel (h : Hw) (k : Nat) (x : FaultQueue) : (setQueue h k x).sel = h.sel := rfl
@[simp] theorem setQueue_harts (h : Hw) (k : Nat) (x : FaultQueue) : (setQueue h k x).harts = h.harts := rfl
@[simp] theorem setQueue_intTable (h : Hw) (k : Nat) (x : FaultQueue) : (setQueue h k x).intTable = h.intTable := rfl
@[simp] theorem setQueue_intHalf (h : Hw) (k : Nat) (x : FaultQueue) : (setQueue h k x).intHalf = h.intHalf := rfl
@[simp] theorem setQueue_imsic (h : Hw) (k : Nat) (x : FaultQueue) : (setQueue h k x).imsic = h.imsic := rfl
@[simp] theorem setQueue_coh (h : Hw) (k : Nat) (x : FaultQueue) : (setQueue h k x).coh = h.coh := rfl
@[simp] theorem setQueue_ecc (h : Hw) (k : Nat) (x : FaultQueue) : (setQueue h k x).ecc = h.ecc := rfl
@[simp] theorem setQueue_memhw (h : Hw) (k : Nat) (x : FaultQueue) : (setQueue h k x).memhw = h.memhw := rfl
@[simp] theorem setQueue_eng (h : Hw) (k : Nat) (x : FaultQueue) : (setQueue h k x).eng = h.eng := rfl
@[simp] theorem setQueue_tiers (h : Hw) (k : Nat) (x : FaultQueue) : (setQueue h k x).tiers = h.tiers := rfl
@[simp] theorem setQueue_weaves (h : Hw) (k : Nat) (x : FaultQueue) : (setQueue h k x).weaves = h.weaves := rfl
@[simp] theorem setQueue_sync (h : Hw) (k : Nat) (x : FaultQueue) : (setQueue h k x).sync = h.sync := rfl
@[simp] theorem setQueue_edges (h : Hw) (k : Nat) (x : FaultQueue) : (setQueue h k x).edges = h.edges := rfl
@[simp] theorem setQueue_power (h : Hw) (k : Nat) (x : FaultQueue) : (setQueue h k x).power = h.power := rfl
@[simp] theorem setQueue_arch (h : Hw) (k : Nat) (x : FaultQueue) : (setQueue h k x).arch = h.arch := rfl
@[simp] theorem setQueue_keep (h : Hw) (k : Nat) (x : FaultQueue) : (setQueue h k x).keep = h.keep := rfl
@[simp] theorem setQueue_efano (h : Hw) (k : Nat) (x : FaultQueue) : (setQueue h k x).efano = h.efano := rfl
@[simp] theorem setQueue_start (h : Hw) (k : Nat) (x : FaultQueue) : (setQueue h k x).start = h.start := rfl
@[simp] theorem setQueue_free (h : Hw) (k : Nat) (x : FaultQueue) : (setQueue h k x).free = h.free := rfl
@[simp] theorem setQueue_faults_log (h : Hw) (k : Nat) (x : FaultQueue) : (setQueue h k x).faults.log = h.faults.log := rfl
@[simp] theorem setQueue_faults_rates (h : Hw) (k : Nat) (x : FaultQueue) : (setQueue h k x).faults.rates = h.faults.rates := rfl
@[simp] theorem setQueue_faults_fences (h : Hw) (k : Nat) (x : FaultQueue) : (setQueue h k x).faults.fences = h.faults.fences := rfl
@[simp] theorem setQueue_faults_faultN (h : Hw) (k : Nat) (x : FaultQueue) : (setQueue h k x).faults.faultN = h.faults.faultN := rfl
@[simp] theorem setQueue_faults_intSteward (h : Hw) (k : Nat) (x : FaultQueue) : (setQueue h k x).faults.intSteward = h.faults.intSteward := rfl
theorem queueAt_setQueue_same (h : Hw) (k : Nat) (x : FaultQueue) (hw : tabWf ({} : FaultQueue) h.faults.queues = true) : queueAt (setQueue h k x) k = x :=
  tabGet_put_same _ _ _ hw
theorem queueAt_setQueue_ne (h : Hw) (k : Nat) (x : FaultQueue) (hx : x ≠ ({} : FaultQueue)) : queueAt (setQueue h k x) k = x :=
  tabGet_put_ne _ _ _ hx
@[simp] theorem queueAt_setQueue_other (h : Hw) (k : Nat) (x : FaultQueue) {m : Nat} (hm : m ≠ k) : queueAt (setQueue h k x) m = queueAt h m :=
  tabGet_put_other _ _ _ hm

/-! ### setBox -/

@[simp] theorem setBox_ident (h : Hw) (b : Mbx) (x : Mbox) : (setBox h b x).ident = h.ident := rfl
@[simp] theorem setBox_tb (h : Hw) (b : Mbx) (x : Mbox) : (setBox h b x).tb = h.tb := rfl
@[simp] theorem setBox_islands (h : Hw) (b : Mbx) (x : Mbox) : (setBox h b x).islands = h.islands := rfl
@[simp] theorem setBox_straits (h : Hw) (b : Mbx) (x : Mbox) : (setBox h b x).straits = h.straits := rfl
@[simp] theorem setBox_locks (h : Hw) (b : Mbx) (x : Mbox) : (setBox h b x).locks = h.locks := rfl
@[simp] theorem setBox_sel (h : Hw) (b : Mbx) (x : Mbox) : (setBox h b x).sel = h.sel := rfl
@[simp] theorem setBox_faults (h : Hw) (b : Mbx) (x : Mbox) : (setBox h b x).faults = h.faults := rfl
@[simp] theorem setBox_harts (h : Hw) (b : Mbx) (x : Mbox) : (setBox h b x).harts = h.harts := rfl
@[simp] theorem setBox_intTable (h : Hw) (b : Mbx) (x : Mbox) : (setBox h b x).intTable = h.intTable := rfl
@[simp] theorem setBox_intHalf (h : Hw) (b : Mbx) (x : Mbox) : (setBox h b x).intHalf = h.intHalf := rfl
@[simp] theorem setBox_imsic (h : Hw) (b : Mbx) (x : Mbox) : (setBox h b x).imsic = h.imsic := rfl
@[simp] theorem setBox_coh (h : Hw) (b : Mbx) (x : Mbox) : (setBox h b x).coh = h.coh := rfl
@[simp] theorem setBox_ecc (h : Hw) (b : Mbx) (x : Mbox) : (setBox h b x).ecc = h.ecc := rfl
@[simp] theorem setBox_memhw (h : Hw) (b : Mbx) (x : Mbox) : (setBox h b x).memhw = h.memhw := rfl
@[simp] theorem setBox_eng (h : Hw) (b : Mbx) (x : Mbox) : (setBox h b x).eng = h.eng := rfl
@[simp] theorem setBox_tiers (h : Hw) (b : Mbx) (x : Mbox) : (setBox h b x).tiers = h.tiers := rfl
@[simp] theorem setBox_weaves (h : Hw) (b : Mbx) (x : Mbox) : (setBox h b x).weaves = h.weaves := rfl
@[simp] theorem setBox_sync (h : Hw) (b : Mbx) (x : Mbox) : (setBox h b x).sync = h.sync := rfl
@[simp] theorem setBox_edges (h : Hw) (b : Mbx) (x : Mbox) : (setBox h b x).edges = h.edges := rfl
@[simp] theorem setBox_power (h : Hw) (b : Mbx) (x : Mbox) : (setBox h b x).power = h.power := rfl
@[simp] theorem setBox_arch (h : Hw) (b : Mbx) (x : Mbox) : (setBox h b x).arch = h.arch := rfl
@[simp] theorem setBox_keep (h : Hw) (b : Mbx) (x : Mbox) : (setBox h b x).keep = h.keep := rfl
@[simp] theorem setBox_start (h : Hw) (b : Mbx) (x : Mbox) : (setBox h b x).start = h.start := rfl
@[simp] theorem setBox_free (h : Hw) (b : Mbx) (x : Mbox) : (setBox h b x).free = h.free := rfl
@[simp] theorem setBox_efano_ready (h : Hw) (b : Mbx) (x : Mbox) : (setBox h b x).efano.ready = h.efano.ready := rfl
@[simp] theorem setBox_efano_epoch (h : Hw) (b : Mbx) (x : Mbox) : (setBox h b x).efano.epoch = h.efano.epoch := rfl
@[simp] theorem setBox_efano_mr (h : Hw) (b : Mbx) (x : Mbox) : (setBox h b x).efano.mr = h.efano.mr := rfl
@[simp] theorem setBox_efano_mrFails (h : Hw) (b : Mbx) (x : Mbox) : (setBox h b x).efano.mrFails = h.efano.mrFails := rfl
@[simp] theorem setBox_efano_mctp (h : Hw) (b : Mbx) (x : Mbox) : (setBox h b x).efano.mctp = h.efano.mctp := rfl
@[simp] theorem setBox_efano_mctpAns (h : Hw) (b : Mbx) (x : Mbox) : (setBox h b x).efano.mctpAns = h.efano.mctpAns := rfl
@[simp] theorem setBox_efano_mctpTo (h : Hw) (m : Mbx) (x : Mbox) : (setBox h m x).efano.mctpTo = h.efano.mctpTo := rfl
@[simp] theorem setBox_efano_agreed (h : Hw) (m : Mbx) (x : Mbox) : (setBox h m x).efano.agreed = h.efano.agreed := rfl
theorem boxAt_setBox_same (h : Hw) (b : Mbx) (x : Mbox) (hw : tabWf ({} : Mbox) h.efano.boxes = true) : boxAt (setBox h b x) b = x :=
  tabGet_put_same _ _ _ hw
theorem boxAt_setBox_ne (h : Hw) (b : Mbx) (x : Mbox) (hx : x ≠ ({} : Mbox)) : boxAt (setBox h b x) b = x :=
  tabGet_put_ne _ _ _ hx
@[simp] theorem boxAt_setBox_other (h : Hw) (b : Mbx) (x : Mbox) {c : Mbx} (hm : mbxKey c ≠ mbxKey b) : boxAt (setBox h b x) c = boxAt h c :=
  tabGet_put_other _ _ _ hm

/-! ### setSlip -/

@[simp] theorem setSlip_ident (h : Hw) (n : Nat) (x : Slip) : (setSlip h n x).ident = h.ident := rfl
@[simp] theorem setSlip_tb (h : Hw) (n : Nat) (x : Slip) : (setSlip h n x).tb = h.tb := rfl
@[simp] theorem setSlip_islands (h : Hw) (n : Nat) (x : Slip) : (setSlip h n x).islands = h.islands := rfl
@[simp] theorem setSlip_straits (h : Hw) (n : Nat) (x : Slip) : (setSlip h n x).straits = h.straits := rfl
@[simp] theorem setSlip_locks (h : Hw) (n : Nat) (x : Slip) : (setSlip h n x).locks = h.locks := rfl
@[simp] theorem setSlip_sel (h : Hw) (n : Nat) (x : Slip) : (setSlip h n x).sel = h.sel := rfl
@[simp] theorem setSlip_faults (h : Hw) (n : Nat) (x : Slip) : (setSlip h n x).faults = h.faults := rfl
@[simp] theorem setSlip_harts (h : Hw) (n : Nat) (x : Slip) : (setSlip h n x).harts = h.harts := rfl
@[simp] theorem setSlip_intTable (h : Hw) (n : Nat) (x : Slip) : (setSlip h n x).intTable = h.intTable := rfl
@[simp] theorem setSlip_intHalf (h : Hw) (n : Nat) (x : Slip) : (setSlip h n x).intHalf = h.intHalf := rfl
@[simp] theorem setSlip_imsic (h : Hw) (n : Nat) (x : Slip) : (setSlip h n x).imsic = h.imsic := rfl
@[simp] theorem setSlip_coh (h : Hw) (n : Nat) (x : Slip) : (setSlip h n x).coh = h.coh := rfl
@[simp] theorem setSlip_ecc (h : Hw) (n : Nat) (x : Slip) : (setSlip h n x).ecc = h.ecc := rfl
@[simp] theorem setSlip_memhw (h : Hw) (n : Nat) (x : Slip) : (setSlip h n x).memhw = h.memhw := rfl
@[simp] theorem setSlip_tiers (h : Hw) (n : Nat) (x : Slip) : (setSlip h n x).tiers = h.tiers := rfl
@[simp] theorem setSlip_weaves (h : Hw) (n : Nat) (x : Slip) : (setSlip h n x).weaves = h.weaves := rfl
@[simp] theorem setSlip_sync (h : Hw) (n : Nat) (x : Slip) : (setSlip h n x).sync = h.sync := rfl
@[simp] theorem setSlip_edges (h : Hw) (n : Nat) (x : Slip) : (setSlip h n x).edges = h.edges := rfl
@[simp] theorem setSlip_power (h : Hw) (n : Nat) (x : Slip) : (setSlip h n x).power = h.power := rfl
@[simp] theorem setSlip_arch (h : Hw) (n : Nat) (x : Slip) : (setSlip h n x).arch = h.arch := rfl
@[simp] theorem setSlip_keep (h : Hw) (n : Nat) (x : Slip) : (setSlip h n x).keep = h.keep := rfl
@[simp] theorem setSlip_efano (h : Hw) (n : Nat) (x : Slip) : (setSlip h n x).efano = h.efano := rfl
@[simp] theorem setSlip_start (h : Hw) (n : Nat) (x : Slip) : (setSlip h n x).start = h.start := rfl
@[simp] theorem setSlip_free (h : Hw) (n : Nat) (x : Slip) : (setSlip h n x).free = h.free := rfl
@[simp] theorem setSlip_eng_epochs (h : Hw) (n : Nat) (x : Slip) : (setSlip h n x).eng.epochs = h.eng.epochs := rfl
@[simp] theorem setSlip_eng_fetchArb (h : Hw) (n : Nat) (x : Slip) : (setSlip h n x).eng.fetchArb = h.eng.fetchArb := rfl
@[simp] theorem setSlip_eng_dispArb (h : Hw) (n : Nat) (x : Slip) : (setSlip h n x).eng.dispArb = h.eng.dispArb := rfl
@[simp] theorem setSlip_eng_stamp (h : Hw) (n : Nat) (x : Slip) : (setSlip h n x).eng.stamp = h.eng.stamp := rfl
@[simp] theorem setSlip_eng_fronts (h : Hw) (s : Nat) (x : Slip) : (setSlip h s x).eng.fronts = h.eng.fronts := rfl
@[simp] theorem setSlip_eng_leaves (h : Hw) (s : Nat) (x : Slip) : (setSlip h s x).eng.leaves = h.eng.leaves := rfl
@[simp] theorem setSlip_eng_kept (h : Hw) (s : Nat) (x : Slip) : (setSlip h s x).eng.kept = h.eng.kept := rfl
@[simp] theorem setSlip_eng_outs (h : Hw) (s : Nat) (x : Slip) : (setSlip h s x).eng.outs = h.eng.outs := rfl
theorem slipAt_setSlip_same (h : Hw) (n : Nat) (x : Slip) (hw : tabWf ({} : Slip) h.eng.slips = true) : slipAt (setSlip h n x) n = x :=
  tabGet_put_same _ _ _ hw
theorem slipAt_setSlip_ne (h : Hw) (n : Nat) (x : Slip) (hx : x ≠ ({} : Slip)) : slipAt (setSlip h n x) n = x :=
  tabGet_put_ne _ _ _ hx
@[simp] theorem slipAt_setSlip_other (h : Hw) (n : Nat) (x : Slip) {m : Nat} (hm : m ≠ n) : slipAt (setSlip h n x) m = slipAt h m :=
  tabGet_put_other _ _ _ hm

/-! ### setKnot -/

@[simp] theorem setKnot_ident (h : Hw) (n : Nat) (x : Knot) : (setKnot h n x).ident = h.ident := rfl
@[simp] theorem setKnot_tb (h : Hw) (n : Nat) (x : Knot) : (setKnot h n x).tb = h.tb := rfl
@[simp] theorem setKnot_islands (h : Hw) (n : Nat) (x : Knot) : (setKnot h n x).islands = h.islands := rfl
@[simp] theorem setKnot_straits (h : Hw) (n : Nat) (x : Knot) : (setKnot h n x).straits = h.straits := rfl
@[simp] theorem setKnot_locks (h : Hw) (n : Nat) (x : Knot) : (setKnot h n x).locks = h.locks := rfl
@[simp] theorem setKnot_sel (h : Hw) (n : Nat) (x : Knot) : (setKnot h n x).sel = h.sel := rfl
@[simp] theorem setKnot_faults (h : Hw) (n : Nat) (x : Knot) : (setKnot h n x).faults = h.faults := rfl
@[simp] theorem setKnot_harts (h : Hw) (n : Nat) (x : Knot) : (setKnot h n x).harts = h.harts := rfl
@[simp] theorem setKnot_intTable (h : Hw) (n : Nat) (x : Knot) : (setKnot h n x).intTable = h.intTable := rfl
@[simp] theorem setKnot_intHalf (h : Hw) (n : Nat) (x : Knot) : (setKnot h n x).intHalf = h.intHalf := rfl
@[simp] theorem setKnot_imsic (h : Hw) (n : Nat) (x : Knot) : (setKnot h n x).imsic = h.imsic := rfl
@[simp] theorem setKnot_coh (h : Hw) (n : Nat) (x : Knot) : (setKnot h n x).coh = h.coh := rfl
@[simp] theorem setKnot_ecc (h : Hw) (n : Nat) (x : Knot) : (setKnot h n x).ecc = h.ecc := rfl
@[simp] theorem setKnot_memhw (h : Hw) (n : Nat) (x : Knot) : (setKnot h n x).memhw = h.memhw := rfl
@[simp] theorem setKnot_eng (h : Hw) (n : Nat) (x : Knot) : (setKnot h n x).eng = h.eng := rfl
@[simp] theorem setKnot_tiers (h : Hw) (n : Nat) (x : Knot) : (setKnot h n x).tiers = h.tiers := rfl
@[simp] theorem setKnot_weaves (h : Hw) (n : Nat) (x : Knot) : (setKnot h n x).weaves = h.weaves := rfl
@[simp] theorem setKnot_edges (h : Hw) (n : Nat) (x : Knot) : (setKnot h n x).edges = h.edges := rfl
@[simp] theorem setKnot_power (h : Hw) (n : Nat) (x : Knot) : (setKnot h n x).power = h.power := rfl
@[simp] theorem setKnot_arch (h : Hw) (n : Nat) (x : Knot) : (setKnot h n x).arch = h.arch := rfl
@[simp] theorem setKnot_keep (h : Hw) (n : Nat) (x : Knot) : (setKnot h n x).keep = h.keep := rfl
@[simp] theorem setKnot_efano (h : Hw) (n : Nat) (x : Knot) : (setKnot h n x).efano = h.efano := rfl
@[simp] theorem setKnot_start (h : Hw) (n : Nat) (x : Knot) : (setKnot h n x).start = h.start := rfl
@[simp] theorem setKnot_free (h : Hw) (n : Nat) (x : Knot) : (setKnot h n x).free = h.free := rfl
@[simp] theorem setKnot_sync_pools (h : Hw) (n : Nat) (x : Knot) : (setKnot h n x).sync.pools = h.sync.pools := rfl
@[simp] theorem setKnot_sync_ledgers (h : Hw) (n : Nat) (x : Knot) : (setKnot h n x).sync.ledgers = h.sync.ledgers := rfl
@[simp] theorem setKnot_sync_remoteWaits (h : Hw) (n : Nat) (x : Knot) : (setKnot h n x).sync.remoteWaits = h.sync.remoteWaits := rfl
theorem knotAt_setKnot_same (h : Hw) (n : Nat) (x : Knot) (hw : tabWf ({} : Knot) h.sync.knots = true) : knotAt (setKnot h n x) n = x :=
  tabGet_put_same _ _ _ hw
theorem knotAt_setKnot_ne (h : Hw) (n : Nat) (x : Knot) (hx : x ≠ ({} : Knot)) : knotAt (setKnot h n x) n = x :=
  tabGet_put_ne _ _ _ hx
@[simp] theorem knotAt_setKnot_other (h : Hw) (n : Nat) (x : Knot) {m : Nat} (hm : m ≠ n) : knotAt (setKnot h n x) m = knotAt h m :=
  tabGet_put_other _ _ _ hm

/-! ### setPool -/

@[simp] theorem setPool_ident (h : Hw) (p i : Nat) (x : Pool) : (setPool h p i x).ident = h.ident := rfl
@[simp] theorem setPool_tb (h : Hw) (p i : Nat) (x : Pool) : (setPool h p i x).tb = h.tb := rfl
@[simp] theorem setPool_islands (h : Hw) (p i : Nat) (x : Pool) : (setPool h p i x).islands = h.islands := rfl
@[simp] theorem setPool_straits (h : Hw) (p i : Nat) (x : Pool) : (setPool h p i x).straits = h.straits := rfl
@[simp] theorem setPool_locks (h : Hw) (p i : Nat) (x : Pool) : (setPool h p i x).locks = h.locks := rfl
@[simp] theorem setPool_sel (h : Hw) (p i : Nat) (x : Pool) : (setPool h p i x).sel = h.sel := rfl
@[simp] theorem setPool_faults (h : Hw) (p i : Nat) (x : Pool) : (setPool h p i x).faults = h.faults := rfl
@[simp] theorem setPool_harts (h : Hw) (p i : Nat) (x : Pool) : (setPool h p i x).harts = h.harts := rfl
@[simp] theorem setPool_intTable (h : Hw) (p i : Nat) (x : Pool) : (setPool h p i x).intTable = h.intTable := rfl
@[simp] theorem setPool_intHalf (h : Hw) (p i : Nat) (x : Pool) : (setPool h p i x).intHalf = h.intHalf := rfl
@[simp] theorem setPool_imsic (h : Hw) (p i : Nat) (x : Pool) : (setPool h p i x).imsic = h.imsic := rfl
@[simp] theorem setPool_coh (h : Hw) (p i : Nat) (x : Pool) : (setPool h p i x).coh = h.coh := rfl
@[simp] theorem setPool_ecc (h : Hw) (p i : Nat) (x : Pool) : (setPool h p i x).ecc = h.ecc := rfl
@[simp] theorem setPool_memhw (h : Hw) (p i : Nat) (x : Pool) : (setPool h p i x).memhw = h.memhw := rfl
@[simp] theorem setPool_eng (h : Hw) (p i : Nat) (x : Pool) : (setPool h p i x).eng = h.eng := rfl
@[simp] theorem setPool_tiers (h : Hw) (p i : Nat) (x : Pool) : (setPool h p i x).tiers = h.tiers := rfl
@[simp] theorem setPool_weaves (h : Hw) (p i : Nat) (x : Pool) : (setPool h p i x).weaves = h.weaves := rfl
@[simp] theorem setPool_edges (h : Hw) (p i : Nat) (x : Pool) : (setPool h p i x).edges = h.edges := rfl
@[simp] theorem setPool_power (h : Hw) (p i : Nat) (x : Pool) : (setPool h p i x).power = h.power := rfl
@[simp] theorem setPool_arch (h : Hw) (p i : Nat) (x : Pool) : (setPool h p i x).arch = h.arch := rfl
@[simp] theorem setPool_keep (h : Hw) (p i : Nat) (x : Pool) : (setPool h p i x).keep = h.keep := rfl
@[simp] theorem setPool_efano (h : Hw) (p i : Nat) (x : Pool) : (setPool h p i x).efano = h.efano := rfl
@[simp] theorem setPool_start (h : Hw) (p i : Nat) (x : Pool) : (setPool h p i x).start = h.start := rfl
@[simp] theorem setPool_free (h : Hw) (p i : Nat) (x : Pool) : (setPool h p i x).free = h.free := rfl
@[simp] theorem setPool_sync_knots (h : Hw) (p i : Nat) (x : Pool) : (setPool h p i x).sync.knots = h.sync.knots := rfl
@[simp] theorem setPool_sync_ledgers (h : Hw) (p i : Nat) (x : Pool) : (setPool h p i x).sync.ledgers = h.sync.ledgers := rfl
@[simp] theorem setPool_sync_remoteWaits (h : Hw) (p i : Nat) (x : Pool) : (setPool h p i x).sync.remoteWaits = h.sync.remoteWaits := rfl
theorem poolAt_setPool_same (h : Hw) (p i : Nat) (x : Pool) (hw : tabWf ({} : Pool) h.sync.pools = true) : poolAt (setPool h p i x) p i = x :=
  tabGet_put_same _ _ _ hw
theorem poolAt_setPool_ne (h : Hw) (p i : Nat) (x : Pool) (hx : x ≠ ({} : Pool)) : poolAt (setPool h p i x) p i = x :=
  tabGet_put_ne _ _ _ hx
@[simp] theorem poolAt_setPool_other (h : Hw) (p i : Nat) (x : Pool) {j : Nat} (hm : j ≠ i) : poolAt (setPool h p i x) p j = poolAt h p j :=
  tabGet_put_other _ _ _ (by omega)

/-! ### setLedger -/

@[simp] theorem setLedger_ident (h : Hw) (n : Nat) (x : Ledger) : (setLedger h n x).ident = h.ident := rfl
@[simp] theorem setLedger_tb (h : Hw) (n : Nat) (x : Ledger) : (setLedger h n x).tb = h.tb := rfl
@[simp] theorem setLedger_islands (h : Hw) (n : Nat) (x : Ledger) : (setLedger h n x).islands = h.islands := rfl
@[simp] theorem setLedger_straits (h : Hw) (n : Nat) (x : Ledger) : (setLedger h n x).straits = h.straits := rfl
@[simp] theorem setLedger_locks (h : Hw) (n : Nat) (x : Ledger) : (setLedger h n x).locks = h.locks := rfl
@[simp] theorem setLedger_sel (h : Hw) (n : Nat) (x : Ledger) : (setLedger h n x).sel = h.sel := rfl
@[simp] theorem setLedger_faults (h : Hw) (n : Nat) (x : Ledger) : (setLedger h n x).faults = h.faults := rfl
@[simp] theorem setLedger_harts (h : Hw) (n : Nat) (x : Ledger) : (setLedger h n x).harts = h.harts := rfl
@[simp] theorem setLedger_intTable (h : Hw) (n : Nat) (x : Ledger) : (setLedger h n x).intTable = h.intTable := rfl
@[simp] theorem setLedger_intHalf (h : Hw) (n : Nat) (x : Ledger) : (setLedger h n x).intHalf = h.intHalf := rfl
@[simp] theorem setLedger_imsic (h : Hw) (n : Nat) (x : Ledger) : (setLedger h n x).imsic = h.imsic := rfl
@[simp] theorem setLedger_coh (h : Hw) (n : Nat) (x : Ledger) : (setLedger h n x).coh = h.coh := rfl
@[simp] theorem setLedger_ecc (h : Hw) (n : Nat) (x : Ledger) : (setLedger h n x).ecc = h.ecc := rfl
@[simp] theorem setLedger_memhw (h : Hw) (n : Nat) (x : Ledger) : (setLedger h n x).memhw = h.memhw := rfl
@[simp] theorem setLedger_eng (h : Hw) (n : Nat) (x : Ledger) : (setLedger h n x).eng = h.eng := rfl
@[simp] theorem setLedger_tiers (h : Hw) (n : Nat) (x : Ledger) : (setLedger h n x).tiers = h.tiers := rfl
@[simp] theorem setLedger_weaves (h : Hw) (n : Nat) (x : Ledger) : (setLedger h n x).weaves = h.weaves := rfl
@[simp] theorem setLedger_edges (h : Hw) (n : Nat) (x : Ledger) : (setLedger h n x).edges = h.edges := rfl
@[simp] theorem setLedger_power (h : Hw) (n : Nat) (x : Ledger) : (setLedger h n x).power = h.power := rfl
@[simp] theorem setLedger_arch (h : Hw) (n : Nat) (x : Ledger) : (setLedger h n x).arch = h.arch := rfl
@[simp] theorem setLedger_keep (h : Hw) (n : Nat) (x : Ledger) : (setLedger h n x).keep = h.keep := rfl
@[simp] theorem setLedger_efano (h : Hw) (n : Nat) (x : Ledger) : (setLedger h n x).efano = h.efano := rfl
@[simp] theorem setLedger_start (h : Hw) (n : Nat) (x : Ledger) : (setLedger h n x).start = h.start := rfl
@[simp] theorem setLedger_free (h : Hw) (n : Nat) (x : Ledger) : (setLedger h n x).free = h.free := rfl
@[simp] theorem setLedger_sync_knots (h : Hw) (n : Nat) (x : Ledger) : (setLedger h n x).sync.knots = h.sync.knots := rfl
@[simp] theorem setLedger_sync_pools (h : Hw) (n : Nat) (x : Ledger) : (setLedger h n x).sync.pools = h.sync.pools := rfl
@[simp] theorem setLedger_sync_remoteWaits (h : Hw) (n : Nat) (x : Ledger) : (setLedger h n x).sync.remoteWaits = h.sync.remoteWaits := rfl
theorem ledgerAt_setLedger_same (h : Hw) (n : Nat) (x : Ledger) (hw : tabWf ({} : Ledger) h.sync.ledgers = true) : ledgerAt (setLedger h n x) n = x :=
  tabGet_put_same _ _ _ hw
theorem ledgerAt_setLedger_ne (h : Hw) (n : Nat) (x : Ledger) (hx : x ≠ ({} : Ledger)) : ledgerAt (setLedger h n x) n = x :=
  tabGet_put_ne _ _ _ hx
@[simp] theorem ledgerAt_setLedger_other (h : Hw) (n : Nat) (x : Ledger) {m : Nat} (hm : m ≠ n) : ledgerAt (setLedger h n x) m = ledgerAt h m :=
  tabGet_put_other _ _ _ hm

/-! ### setIsland -/

@[simp] theorem setIsland_ident (h : Hw) (i : Island) (x : IslandState) : (setIsland h i x).ident = h.ident := rfl
@[simp] theorem setIsland_tb (h : Hw) (i : Island) (x : IslandState) : (setIsland h i x).tb = h.tb := rfl
@[simp] theorem setIsland_straits (h : Hw) (i : Island) (x : IslandState) : (setIsland h i x).straits = h.straits := rfl
@[simp] theorem setIsland_locks (h : Hw) (i : Island) (x : IslandState) : (setIsland h i x).locks = h.locks := rfl
@[simp] theorem setIsland_sel (h : Hw) (i : Island) (x : IslandState) : (setIsland h i x).sel = h.sel := rfl
@[simp] theorem setIsland_faults (h : Hw) (i : Island) (x : IslandState) : (setIsland h i x).faults = h.faults := rfl
@[simp] theorem setIsland_harts (h : Hw) (i : Island) (x : IslandState) : (setIsland h i x).harts = h.harts := rfl
@[simp] theorem setIsland_intTable (h : Hw) (i : Island) (x : IslandState) : (setIsland h i x).intTable = h.intTable := rfl
@[simp] theorem setIsland_intHalf (h : Hw) (i : Island) (x : IslandState) : (setIsland h i x).intHalf = h.intHalf := rfl
@[simp] theorem setIsland_imsic (h : Hw) (i : Island) (x : IslandState) : (setIsland h i x).imsic = h.imsic := rfl
@[simp] theorem setIsland_coh (h : Hw) (i : Island) (x : IslandState) : (setIsland h i x).coh = h.coh := rfl
@[simp] theorem setIsland_ecc (h : Hw) (i : Island) (x : IslandState) : (setIsland h i x).ecc = h.ecc := rfl
@[simp] theorem setIsland_memhw (h : Hw) (i : Island) (x : IslandState) : (setIsland h i x).memhw = h.memhw := rfl
@[simp] theorem setIsland_eng (h : Hw) (i : Island) (x : IslandState) : (setIsland h i x).eng = h.eng := rfl
@[simp] theorem setIsland_tiers (h : Hw) (i : Island) (x : IslandState) : (setIsland h i x).tiers = h.tiers := rfl
@[simp] theorem setIsland_weaves (h : Hw) (i : Island) (x : IslandState) : (setIsland h i x).weaves = h.weaves := rfl
@[simp] theorem setIsland_sync (h : Hw) (i : Island) (x : IslandState) : (setIsland h i x).sync = h.sync := rfl
@[simp] theorem setIsland_edges (h : Hw) (i : Island) (x : IslandState) : (setIsland h i x).edges = h.edges := rfl
@[simp] theorem setIsland_power (h : Hw) (i : Island) (x : IslandState) : (setIsland h i x).power = h.power := rfl
@[simp] theorem setIsland_arch (h : Hw) (i : Island) (x : IslandState) : (setIsland h i x).arch = h.arch := rfl
@[simp] theorem setIsland_keep (h : Hw) (i : Island) (x : IslandState) : (setIsland h i x).keep = h.keep := rfl
@[simp] theorem setIsland_efano (h : Hw) (i : Island) (x : IslandState) : (setIsland h i x).efano = h.efano := rfl
@[simp] theorem setIsland_start (h : Hw) (i : Island) (x : IslandState) : (setIsland h i x).start = h.start := rfl
@[simp] theorem setIsland_free (h : Hw) (i : Island) (x : IslandState) : (setIsland h i x).free = h.free := rfl
theorem islandAt_setIsland_same (h : Hw) (i : Island) (x : IslandState) (hw : tabWf ({} : IslandState) h.islands = true) : islandAt (setIsland h i x) i = x :=
  tabGet_put_same _ _ _ hw
theorem islandAt_setIsland_ne (h : Hw) (i : Island) (x : IslandState) (hx : x ≠ ({} : IslandState)) : islandAt (setIsland h i x) i = x :=
  tabGet_put_ne _ _ _ hx
@[simp] theorem islandAt_setIsland_other (h : Hw) (i : Island) (x : IslandState) {j : Island} (hm : islandKey j ≠ islandKey i) : islandAt (setIsland h i x) j = islandAt h j :=
  tabGet_put_other _ _ _ hm

/-! ### setStrait -/

@[simp] theorem setStrait_ident (h : Hw) (a b : Island) (x : Strait) : (setStrait h a b x).ident = h.ident := rfl
@[simp] theorem setStrait_tb (h : Hw) (a b : Island) (x : Strait) : (setStrait h a b x).tb = h.tb := rfl
@[simp] theorem setStrait_islands (h : Hw) (a b : Island) (x : Strait) : (setStrait h a b x).islands = h.islands := rfl
@[simp] theorem setStrait_locks (h : Hw) (a b : Island) (x : Strait) : (setStrait h a b x).locks = h.locks := rfl
@[simp] theorem setStrait_sel (h : Hw) (a b : Island) (x : Strait) : (setStrait h a b x).sel = h.sel := rfl
@[simp] theorem setStrait_faults (h : Hw) (a b : Island) (x : Strait) : (setStrait h a b x).faults = h.faults := rfl
@[simp] theorem setStrait_harts (h : Hw) (a b : Island) (x : Strait) : (setStrait h a b x).harts = h.harts := rfl
@[simp] theorem setStrait_intTable (h : Hw) (a b : Island) (x : Strait) : (setStrait h a b x).intTable = h.intTable := rfl
@[simp] theorem setStrait_intHalf (h : Hw) (a b : Island) (x : Strait) : (setStrait h a b x).intHalf = h.intHalf := rfl
@[simp] theorem setStrait_imsic (h : Hw) (a b : Island) (x : Strait) : (setStrait h a b x).imsic = h.imsic := rfl
@[simp] theorem setStrait_coh (h : Hw) (a b : Island) (x : Strait) : (setStrait h a b x).coh = h.coh := rfl
@[simp] theorem setStrait_ecc (h : Hw) (a b : Island) (x : Strait) : (setStrait h a b x).ecc = h.ecc := rfl
@[simp] theorem setStrait_memhw (h : Hw) (a b : Island) (x : Strait) : (setStrait h a b x).memhw = h.memhw := rfl
@[simp] theorem setStrait_eng (h : Hw) (a b : Island) (x : Strait) : (setStrait h a b x).eng = h.eng := rfl
@[simp] theorem setStrait_tiers (h : Hw) (a b : Island) (x : Strait) : (setStrait h a b x).tiers = h.tiers := rfl
@[simp] theorem setStrait_weaves (h : Hw) (a b : Island) (x : Strait) : (setStrait h a b x).weaves = h.weaves := rfl
@[simp] theorem setStrait_sync (h : Hw) (a b : Island) (x : Strait) : (setStrait h a b x).sync = h.sync := rfl
@[simp] theorem setStrait_edges (h : Hw) (a b : Island) (x : Strait) : (setStrait h a b x).edges = h.edges := rfl
@[simp] theorem setStrait_power (h : Hw) (a b : Island) (x : Strait) : (setStrait h a b x).power = h.power := rfl
@[simp] theorem setStrait_arch (h : Hw) (a b : Island) (x : Strait) : (setStrait h a b x).arch = h.arch := rfl
@[simp] theorem setStrait_keep (h : Hw) (a b : Island) (x : Strait) : (setStrait h a b x).keep = h.keep := rfl
@[simp] theorem setStrait_efano (h : Hw) (a b : Island) (x : Strait) : (setStrait h a b x).efano = h.efano := rfl
@[simp] theorem setStrait_start (h : Hw) (a b : Island) (x : Strait) : (setStrait h a b x).start = h.start := rfl
@[simp] theorem setStrait_free (h : Hw) (a b : Island) (x : Strait) : (setStrait h a b x).free = h.free := rfl
theorem straitAt_setStrait_same (h : Hw) (a b : Island) (x : Strait) (hw : tabWf ({} : Strait) h.straits = true) : straitAt (setStrait h a b x) a b = x :=
  tabGet_put_same _ _ _ hw
theorem straitAt_setStrait_ne (h : Hw) (a b : Island) (x : Strait) (hx : x ≠ ({} : Strait)) : straitAt (setStrait h a b x) a b = x :=
  tabGet_put_ne _ _ _ hx
@[simp] theorem straitAt_setStrait_other (h : Hw) (a b : Island) (x : Strait) {c d : Island} (hm : straitKey c d ≠ straitKey a b) : straitAt (setStrait h a b x) c d = straitAt h c d :=
  tabGet_put_other _ _ _ hm

/-! ### setPort -/

@[simp] theorem setPort_ident (h : Hw) (n : Nat) (x : RootPort) : (setPort h n x).ident = h.ident := rfl
@[simp] theorem setPort_tb (h : Hw) (n : Nat) (x : RootPort) : (setPort h n x).tb = h.tb := rfl
@[simp] theorem setPort_islands (h : Hw) (n : Nat) (x : RootPort) : (setPort h n x).islands = h.islands := rfl
@[simp] theorem setPort_straits (h : Hw) (n : Nat) (x : RootPort) : (setPort h n x).straits = h.straits := rfl
@[simp] theorem setPort_locks (h : Hw) (n : Nat) (x : RootPort) : (setPort h n x).locks = h.locks := rfl
@[simp] theorem setPort_sel (h : Hw) (n : Nat) (x : RootPort) : (setPort h n x).sel = h.sel := rfl
@[simp] theorem setPort_faults (h : Hw) (n : Nat) (x : RootPort) : (setPort h n x).faults = h.faults := rfl
@[simp] theorem setPort_harts (h : Hw) (n : Nat) (x : RootPort) : (setPort h n x).harts = h.harts := rfl
@[simp] theorem setPort_intTable (h : Hw) (n : Nat) (x : RootPort) : (setPort h n x).intTable = h.intTable := rfl
@[simp] theorem setPort_intHalf (h : Hw) (n : Nat) (x : RootPort) : (setPort h n x).intHalf = h.intHalf := rfl
@[simp] theorem setPort_imsic (h : Hw) (n : Nat) (x : RootPort) : (setPort h n x).imsic = h.imsic := rfl
@[simp] theorem setPort_coh (h : Hw) (n : Nat) (x : RootPort) : (setPort h n x).coh = h.coh := rfl
@[simp] theorem setPort_ecc (h : Hw) (n : Nat) (x : RootPort) : (setPort h n x).ecc = h.ecc := rfl
@[simp] theorem setPort_memhw (h : Hw) (n : Nat) (x : RootPort) : (setPort h n x).memhw = h.memhw := rfl
@[simp] theorem setPort_eng (h : Hw) (n : Nat) (x : RootPort) : (setPort h n x).eng = h.eng := rfl
@[simp] theorem setPort_tiers (h : Hw) (n : Nat) (x : RootPort) : (setPort h n x).tiers = h.tiers := rfl
@[simp] theorem setPort_weaves (h : Hw) (n : Nat) (x : RootPort) : (setPort h n x).weaves = h.weaves := rfl
@[simp] theorem setPort_sync (h : Hw) (n : Nat) (x : RootPort) : (setPort h n x).sync = h.sync := rfl
@[simp] theorem setPort_power (h : Hw) (n : Nat) (x : RootPort) : (setPort h n x).power = h.power := rfl
@[simp] theorem setPort_arch (h : Hw) (n : Nat) (x : RootPort) : (setPort h n x).arch = h.arch := rfl
@[simp] theorem setPort_keep (h : Hw) (n : Nat) (x : RootPort) : (setPort h n x).keep = h.keep := rfl
@[simp] theorem setPort_efano (h : Hw) (n : Nat) (x : RootPort) : (setPort h n x).efano = h.efano := rfl
@[simp] theorem setPort_start (h : Hw) (n : Nat) (x : RootPort) : (setPort h n x).start = h.start := rfl
@[simp] theorem setPort_free (h : Hw) (n : Nat) (x : RootPort) : (setPort h n x).free = h.free := rfl
@[simp] theorem setPort_edges_decoders (h : Hw) (n : Nat) (x : RootPort) : (setPort h n x).edges.decoders = h.edges.decoders := rfl
@[simp] theorem setPort_edges_funcs (h : Hw) (n : Nat) (x : RootPort) : (setPort h n x).edges.funcs = h.edges.funcs := rfl
@[simp] theorem setPort_edges_pins (h : Hw) (n : Nat) (x : RootPort) : (setPort h n x).edges.pins = h.edges.pins := rfl
@[simp] theorem setPort_edges_pinsOn (h : Hw) (n : Nat) (x : RootPort) : (setPort h n x).edges.pinsOn = h.edges.pinsOn := rfl
@[simp] theorem setPort_edges_anchor (h : Hw) (n : Nat) (x : RootPort) : (setPort h n x).edges.anchor = h.edges.anchor := rfl
@[simp] theorem setPort_edges_i3cAck (h : Hw) (n : Nat) (x : RootPort) : (setPort h n x).edges.i3cAck = h.edges.i3cAck := rfl
@[simp] theorem setPort_edges_i3cDyn (h : Hw) (n : Nat) (x : RootPort) : (setPort h n x).edges.i3cDyn = h.edges.i3cDyn := rfl
@[simp] theorem setPort_edges_i3cAddr (h : Hw) (n : Nat) (x : RootPort) : (setPort h n x).edges.i3cAddr = h.edges.i3cAddr := rfl
@[simp] theorem setPort_edges_hotJoin (h : Hw) (n : Nat) (x : RootPort) : (setPort h n x).edges.hotJoin = h.edges.hotJoin := rfl
@[simp] theorem setPort_edges_eids (h : Hw) (n : Nat) (x : RootPort) : (setPort h n x).edges.eids = h.edges.eids := rfl
@[simp] theorem setPort_edges_tapIr (h : Hw) (n : Nat) (x : RootPort) : (setPort h n x).edges.tapIr = h.edges.tapIr := rfl
@[simp] theorem setPort_edges_fw (h : Hw) (n : Nat) (x : RootPort) : (setPort h n x).edges.fw = h.edges.fw := rfl
@[simp] theorem setPort_edges_active (h : Hw) (n : Nat) (x : RootPort) : (setPort h n x).edges.active = h.edges.active := rfl
@[simp] theorem setPort_edges_bootAct (h : Hw) (n : Nat) (x : RootPort) : (setPort h n x).edges.bootAct = h.edges.bootAct := rfl
@[simp] theorem setPort_edges_flash (h : Hw) (n : Nat) (x : RootPort) : (setPort h n x).edges.flash = h.edges.flash := rfl
@[simp] theorem setPort_edges_uart (h : Hw) (n : Nat) (x : RootPort) : (setPort h n x).edges.uart = h.edges.uart := rfl
@[simp] theorem setPort_edges_irqOwner (h : Hw) (n : Nat) (x : RootPort) : (setPort h n x).edges.irqOwner = h.edges.irqOwner := rfl
@[simp] theorem setPort_edges_irqTarget (h : Hw) (n : Nat) (x : RootPort) : (setPort h n x).edges.irqTarget = h.edges.irqTarget := rfl
@[simp] theorem setPort_edges_tapSegs (h : Hw) (n : Nat) (x : RootPort) : (setPort h n x).edges.tapSegs = h.edges.tapSegs := rfl
@[simp] theorem setPort_edges_wrapIr (h : Hw) (n : Nat) (x : RootPort) : (setPort h n x).edges.wrapIr = h.edges.wrapIr := rfl
@[simp] theorem setPort_edges_wrapBad (h : Hw) (n : Nat) (x : RootPort) : (setPort h n x).edges.wrapBad = h.edges.wrapBad := rfl
theorem portAt_setPort_same (h : Hw) (n : Nat) (x : RootPort) (hw : tabWf ({} : RootPort) h.edges.ports = true) : portAt (setPort h n x) n = x :=
  tabGet_put_same _ _ _ hw
theorem portAt_setPort_ne (h : Hw) (n : Nat) (x : RootPort) (hx : x ≠ ({} : RootPort)) : portAt (setPort h n x) n = x :=
  tabGet_put_ne _ _ _ hx
@[simp] theorem portAt_setPort_other (h : Hw) (n : Nat) (x : RootPort) {m : Nat} (hm : m ≠ n) : portAt (setPort h n x) m = portAt h m :=
  tabGet_put_other _ _ _ hm

/-! ### setFunc -/

@[simp] theorem setFunc_ident (h : Hw) (n : Nat) (x : Func) : (setFunc h n x).ident = h.ident := rfl
@[simp] theorem setFunc_tb (h : Hw) (n : Nat) (x : Func) : (setFunc h n x).tb = h.tb := rfl
@[simp] theorem setFunc_islands (h : Hw) (n : Nat) (x : Func) : (setFunc h n x).islands = h.islands := rfl
@[simp] theorem setFunc_straits (h : Hw) (n : Nat) (x : Func) : (setFunc h n x).straits = h.straits := rfl
@[simp] theorem setFunc_locks (h : Hw) (n : Nat) (x : Func) : (setFunc h n x).locks = h.locks := rfl
@[simp] theorem setFunc_sel (h : Hw) (n : Nat) (x : Func) : (setFunc h n x).sel = h.sel := rfl
@[simp] theorem setFunc_faults (h : Hw) (n : Nat) (x : Func) : (setFunc h n x).faults = h.faults := rfl
@[simp] theorem setFunc_harts (h : Hw) (n : Nat) (x : Func) : (setFunc h n x).harts = h.harts := rfl
@[simp] theorem setFunc_intTable (h : Hw) (n : Nat) (x : Func) : (setFunc h n x).intTable = h.intTable := rfl
@[simp] theorem setFunc_intHalf (h : Hw) (n : Nat) (x : Func) : (setFunc h n x).intHalf = h.intHalf := rfl
@[simp] theorem setFunc_imsic (h : Hw) (n : Nat) (x : Func) : (setFunc h n x).imsic = h.imsic := rfl
@[simp] theorem setFunc_coh (h : Hw) (n : Nat) (x : Func) : (setFunc h n x).coh = h.coh := rfl
@[simp] theorem setFunc_ecc (h : Hw) (n : Nat) (x : Func) : (setFunc h n x).ecc = h.ecc := rfl
@[simp] theorem setFunc_memhw (h : Hw) (n : Nat) (x : Func) : (setFunc h n x).memhw = h.memhw := rfl
@[simp] theorem setFunc_eng (h : Hw) (n : Nat) (x : Func) : (setFunc h n x).eng = h.eng := rfl
@[simp] theorem setFunc_tiers (h : Hw) (n : Nat) (x : Func) : (setFunc h n x).tiers = h.tiers := rfl
@[simp] theorem setFunc_weaves (h : Hw) (n : Nat) (x : Func) : (setFunc h n x).weaves = h.weaves := rfl
@[simp] theorem setFunc_sync (h : Hw) (n : Nat) (x : Func) : (setFunc h n x).sync = h.sync := rfl
@[simp] theorem setFunc_power (h : Hw) (n : Nat) (x : Func) : (setFunc h n x).power = h.power := rfl
@[simp] theorem setFunc_arch (h : Hw) (n : Nat) (x : Func) : (setFunc h n x).arch = h.arch := rfl
@[simp] theorem setFunc_keep (h : Hw) (n : Nat) (x : Func) : (setFunc h n x).keep = h.keep := rfl
@[simp] theorem setFunc_efano (h : Hw) (n : Nat) (x : Func) : (setFunc h n x).efano = h.efano := rfl
@[simp] theorem setFunc_start (h : Hw) (n : Nat) (x : Func) : (setFunc h n x).start = h.start := rfl
@[simp] theorem setFunc_free (h : Hw) (n : Nat) (x : Func) : (setFunc h n x).free = h.free := rfl
@[simp] theorem setFunc_edges_ports (h : Hw) (n : Nat) (x : Func) : (setFunc h n x).edges.ports = h.edges.ports := rfl
@[simp] theorem setFunc_edges_decoders (h : Hw) (n : Nat) (x : Func) : (setFunc h n x).edges.decoders = h.edges.decoders := rfl
@[simp] theorem setFunc_edges_pins (h : Hw) (n : Nat) (x : Func) : (setFunc h n x).edges.pins = h.edges.pins := rfl
@[simp] theorem setFunc_edges_pinsOn (h : Hw) (n : Nat) (x : Func) : (setFunc h n x).edges.pinsOn = h.edges.pinsOn := rfl
@[simp] theorem setFunc_edges_anchor (h : Hw) (n : Nat) (x : Func) : (setFunc h n x).edges.anchor = h.edges.anchor := rfl
@[simp] theorem setFunc_edges_i3cAck (h : Hw) (n : Nat) (x : Func) : (setFunc h n x).edges.i3cAck = h.edges.i3cAck := rfl
@[simp] theorem setFunc_edges_i3cDyn (h : Hw) (n : Nat) (x : Func) : (setFunc h n x).edges.i3cDyn = h.edges.i3cDyn := rfl
@[simp] theorem setFunc_edges_i3cAddr (h : Hw) (n : Nat) (x : Func) : (setFunc h n x).edges.i3cAddr = h.edges.i3cAddr := rfl
@[simp] theorem setFunc_edges_hotJoin (h : Hw) (n : Nat) (x : Func) : (setFunc h n x).edges.hotJoin = h.edges.hotJoin := rfl
@[simp] theorem setFunc_edges_eids (h : Hw) (n : Nat) (x : Func) : (setFunc h n x).edges.eids = h.edges.eids := rfl
@[simp] theorem setFunc_edges_tapIr (h : Hw) (n : Nat) (x : Func) : (setFunc h n x).edges.tapIr = h.edges.tapIr := rfl
@[simp] theorem setFunc_edges_fw (h : Hw) (n : Nat) (x : Func) : (setFunc h n x).edges.fw = h.edges.fw := rfl
@[simp] theorem setFunc_edges_active (h : Hw) (n : Nat) (x : Func) : (setFunc h n x).edges.active = h.edges.active := rfl
@[simp] theorem setFunc_edges_bootAct (h : Hw) (n : Nat) (x : Func) : (setFunc h n x).edges.bootAct = h.edges.bootAct := rfl
@[simp] theorem setFunc_edges_flash (h : Hw) (n : Nat) (x : Func) : (setFunc h n x).edges.flash = h.edges.flash := rfl
@[simp] theorem setFunc_edges_uart (h : Hw) (f : Nat) (x : Func) : (setFunc h f x).edges.uart = h.edges.uart := rfl
@[simp] theorem setFunc_edges_irqOwner (h : Hw) (f : Nat) (x : Func) : (setFunc h f x).edges.irqOwner = h.edges.irqOwner := rfl
@[simp] theorem setFunc_edges_irqTarget (h : Hw) (f : Nat) (x : Func) : (setFunc h f x).edges.irqTarget = h.edges.irqTarget := rfl
@[simp] theorem setFunc_edges_tapSegs (h : Hw) (f : Nat) (x : Func) : (setFunc h f x).edges.tapSegs = h.edges.tapSegs := rfl
@[simp] theorem setFunc_edges_wrapIr (h : Hw) (f : Nat) (x : Func) : (setFunc h f x).edges.wrapIr = h.edges.wrapIr := rfl
@[simp] theorem setFunc_edges_wrapBad (h : Hw) (f : Nat) (x : Func) : (setFunc h f x).edges.wrapBad = h.edges.wrapBad := rfl
theorem funcAt_setFunc_same (h : Hw) (n : Nat) (x : Func) (hw : tabWf ({} : Func) h.edges.funcs = true) : funcAt (setFunc h n x) n = x :=
  tabGet_put_same _ _ _ hw
theorem funcAt_setFunc_ne (h : Hw) (n : Nat) (x : Func) (hx : x ≠ ({} : Func)) : funcAt (setFunc h n x) n = x :=
  tabGet_put_ne _ _ _ hx
@[simp] theorem funcAt_setFunc_other (h : Hw) (n : Nat) (x : Func) {m : Nat} (hm : m ≠ n) : funcAt (setFunc h n x) m = funcAt h m :=
  tabGet_put_other _ _ _ hm

/-! ### setPin -/

@[simp] theorem setPin_ident (h : Hw) (n : Nat) (x : Pin) : (setPin h n x).ident = h.ident := rfl
@[simp] theorem setPin_tb (h : Hw) (n : Nat) (x : Pin) : (setPin h n x).tb = h.tb := rfl
@[simp] theorem setPin_islands (h : Hw) (n : Nat) (x : Pin) : (setPin h n x).islands = h.islands := rfl
@[simp] theorem setPin_straits (h : Hw) (n : Nat) (x : Pin) : (setPin h n x).straits = h.straits := rfl
@[simp] theorem setPin_locks (h : Hw) (n : Nat) (x : Pin) : (setPin h n x).locks = h.locks := rfl
@[simp] theorem setPin_sel (h : Hw) (n : Nat) (x : Pin) : (setPin h n x).sel = h.sel := rfl
@[simp] theorem setPin_faults (h : Hw) (n : Nat) (x : Pin) : (setPin h n x).faults = h.faults := rfl
@[simp] theorem setPin_harts (h : Hw) (n : Nat) (x : Pin) : (setPin h n x).harts = h.harts := rfl
@[simp] theorem setPin_intTable (h : Hw) (n : Nat) (x : Pin) : (setPin h n x).intTable = h.intTable := rfl
@[simp] theorem setPin_intHalf (h : Hw) (n : Nat) (x : Pin) : (setPin h n x).intHalf = h.intHalf := rfl
@[simp] theorem setPin_imsic (h : Hw) (n : Nat) (x : Pin) : (setPin h n x).imsic = h.imsic := rfl
@[simp] theorem setPin_coh (h : Hw) (n : Nat) (x : Pin) : (setPin h n x).coh = h.coh := rfl
@[simp] theorem setPin_ecc (h : Hw) (n : Nat) (x : Pin) : (setPin h n x).ecc = h.ecc := rfl
@[simp] theorem setPin_memhw (h : Hw) (n : Nat) (x : Pin) : (setPin h n x).memhw = h.memhw := rfl
@[simp] theorem setPin_eng (h : Hw) (n : Nat) (x : Pin) : (setPin h n x).eng = h.eng := rfl
@[simp] theorem setPin_tiers (h : Hw) (n : Nat) (x : Pin) : (setPin h n x).tiers = h.tiers := rfl
@[simp] theorem setPin_weaves (h : Hw) (n : Nat) (x : Pin) : (setPin h n x).weaves = h.weaves := rfl
@[simp] theorem setPin_sync (h : Hw) (n : Nat) (x : Pin) : (setPin h n x).sync = h.sync := rfl
@[simp] theorem setPin_power (h : Hw) (n : Nat) (x : Pin) : (setPin h n x).power = h.power := rfl
@[simp] theorem setPin_arch (h : Hw) (n : Nat) (x : Pin) : (setPin h n x).arch = h.arch := rfl
@[simp] theorem setPin_keep (h : Hw) (n : Nat) (x : Pin) : (setPin h n x).keep = h.keep := rfl
@[simp] theorem setPin_efano (h : Hw) (n : Nat) (x : Pin) : (setPin h n x).efano = h.efano := rfl
@[simp] theorem setPin_start (h : Hw) (n : Nat) (x : Pin) : (setPin h n x).start = h.start := rfl
@[simp] theorem setPin_free (h : Hw) (n : Nat) (x : Pin) : (setPin h n x).free = h.free := rfl
@[simp] theorem setPin_edges_ports (h : Hw) (n : Nat) (x : Pin) : (setPin h n x).edges.ports = h.edges.ports := rfl
@[simp] theorem setPin_edges_decoders (h : Hw) (n : Nat) (x : Pin) : (setPin h n x).edges.decoders = h.edges.decoders := rfl
@[simp] theorem setPin_edges_funcs (h : Hw) (n : Nat) (x : Pin) : (setPin h n x).edges.funcs = h.edges.funcs := rfl
@[simp] theorem setPin_edges_pinsOn (h : Hw) (n : Nat) (x : Pin) : (setPin h n x).edges.pinsOn = h.edges.pinsOn := rfl
@[simp] theorem setPin_edges_anchor (h : Hw) (n : Nat) (x : Pin) : (setPin h n x).edges.anchor = h.edges.anchor := rfl
@[simp] theorem setPin_edges_i3cAck (h : Hw) (n : Nat) (x : Pin) : (setPin h n x).edges.i3cAck = h.edges.i3cAck := rfl
@[simp] theorem setPin_edges_i3cDyn (h : Hw) (n : Nat) (x : Pin) : (setPin h n x).edges.i3cDyn = h.edges.i3cDyn := rfl
@[simp] theorem setPin_edges_i3cAddr (h : Hw) (n : Nat) (x : Pin) : (setPin h n x).edges.i3cAddr = h.edges.i3cAddr := rfl
@[simp] theorem setPin_edges_hotJoin (h : Hw) (n : Nat) (x : Pin) : (setPin h n x).edges.hotJoin = h.edges.hotJoin := rfl
@[simp] theorem setPin_edges_eids (h : Hw) (n : Nat) (x : Pin) : (setPin h n x).edges.eids = h.edges.eids := rfl
@[simp] theorem setPin_edges_tapIr (h : Hw) (n : Nat) (x : Pin) : (setPin h n x).edges.tapIr = h.edges.tapIr := rfl
@[simp] theorem setPin_edges_fw (h : Hw) (n : Nat) (x : Pin) : (setPin h n x).edges.fw = h.edges.fw := rfl
@[simp] theorem setPin_edges_active (h : Hw) (n : Nat) (x : Pin) : (setPin h n x).edges.active = h.edges.active := rfl
@[simp] theorem setPin_edges_bootAct (h : Hw) (n : Nat) (x : Pin) : (setPin h n x).edges.bootAct = h.edges.bootAct := rfl
@[simp] theorem setPin_edges_flash (h : Hw) (n : Nat) (x : Pin) : (setPin h n x).edges.flash = h.edges.flash := rfl
@[simp] theorem setPin_edges_uart (h : Hw) (n : Nat) (x : Pin) : (setPin h n x).edges.uart = h.edges.uart := rfl
@[simp] theorem setPin_edges_irqOwner (h : Hw) (n : Nat) (x : Pin) : (setPin h n x).edges.irqOwner = h.edges.irqOwner := rfl
@[simp] theorem setPin_edges_irqTarget (h : Hw) (n : Nat) (x : Pin) : (setPin h n x).edges.irqTarget = h.edges.irqTarget := rfl
@[simp] theorem setPin_edges_tapSegs (h : Hw) (n : Nat) (x : Pin) : (setPin h n x).edges.tapSegs = h.edges.tapSegs := rfl
@[simp] theorem setPin_edges_wrapIr (h : Hw) (n : Nat) (x : Pin) : (setPin h n x).edges.wrapIr = h.edges.wrapIr := rfl
@[simp] theorem setPin_edges_wrapBad (h : Hw) (n : Nat) (x : Pin) : (setPin h n x).edges.wrapBad = h.edges.wrapBad := rfl
theorem pinAt_setPin_same (h : Hw) (n : Nat) (x : Pin) (hw : tabWf ({} : Pin) h.edges.pins = true) : pinAt (setPin h n x) n = x :=
  tabGet_put_same _ _ _ hw
theorem pinAt_setPin_ne (h : Hw) (n : Nat) (x : Pin) (hx : x ≠ ({} : Pin)) : pinAt (setPin h n x) n = x :=
  tabGet_put_ne _ _ _ hx
@[simp] theorem pinAt_setPin_other (h : Hw) (n : Nat) (x : Pin) {m : Nat} (hm : m ≠ n) : pinAt (setPin h n x) m = pinAt h m :=
  tabGet_put_other _ _ _ hm

/-! ### setLink -/

@[simp] theorem setLink_ident (h : Hw) (n : Nat) (x : Link) : (setLink h n x).ident = h.ident := rfl
@[simp] theorem setLink_tb (h : Hw) (n : Nat) (x : Link) : (setLink h n x).tb = h.tb := rfl
@[simp] theorem setLink_islands (h : Hw) (n : Nat) (x : Link) : (setLink h n x).islands = h.islands := rfl
@[simp] theorem setLink_straits (h : Hw) (n : Nat) (x : Link) : (setLink h n x).straits = h.straits := rfl
@[simp] theorem setLink_locks (h : Hw) (n : Nat) (x : Link) : (setLink h n x).locks = h.locks := rfl
@[simp] theorem setLink_sel (h : Hw) (n : Nat) (x : Link) : (setLink h n x).sel = h.sel := rfl
@[simp] theorem setLink_faults (h : Hw) (n : Nat) (x : Link) : (setLink h n x).faults = h.faults := rfl
@[simp] theorem setLink_harts (h : Hw) (n : Nat) (x : Link) : (setLink h n x).harts = h.harts := rfl
@[simp] theorem setLink_intTable (h : Hw) (n : Nat) (x : Link) : (setLink h n x).intTable = h.intTable := rfl
@[simp] theorem setLink_intHalf (h : Hw) (n : Nat) (x : Link) : (setLink h n x).intHalf = h.intHalf := rfl
@[simp] theorem setLink_imsic (h : Hw) (n : Nat) (x : Link) : (setLink h n x).imsic = h.imsic := rfl
@[simp] theorem setLink_coh (h : Hw) (n : Nat) (x : Link) : (setLink h n x).coh = h.coh := rfl
@[simp] theorem setLink_ecc (h : Hw) (n : Nat) (x : Link) : (setLink h n x).ecc = h.ecc := rfl
@[simp] theorem setLink_memhw (h : Hw) (n : Nat) (x : Link) : (setLink h n x).memhw = h.memhw := rfl
@[simp] theorem setLink_eng (h : Hw) (n : Nat) (x : Link) : (setLink h n x).eng = h.eng := rfl
@[simp] theorem setLink_tiers (h : Hw) (n : Nat) (x : Link) : (setLink h n x).tiers = h.tiers := rfl
@[simp] theorem setLink_weaves (h : Hw) (n : Nat) (x : Link) : (setLink h n x).weaves = h.weaves := rfl
@[simp] theorem setLink_sync (h : Hw) (n : Nat) (x : Link) : (setLink h n x).sync = h.sync := rfl
@[simp] theorem setLink_edges (h : Hw) (n : Nat) (x : Link) : (setLink h n x).edges = h.edges := rfl
@[simp] theorem setLink_power (h : Hw) (n : Nat) (x : Link) : (setLink h n x).power = h.power := rfl
@[simp] theorem setLink_keep (h : Hw) (n : Nat) (x : Link) : (setLink h n x).keep = h.keep := rfl
@[simp] theorem setLink_efano (h : Hw) (n : Nat) (x : Link) : (setLink h n x).efano = h.efano := rfl
@[simp] theorem setLink_start (h : Hw) (n : Nat) (x : Link) : (setLink h n x).start = h.start := rfl
@[simp] theorem setLink_free (h : Hw) (n : Nat) (x : Link) : (setLink h n x).free = h.free := rfl
@[simp] theorem setLink_arch_members (h : Hw) (n : Nat) (x : Link) : (setLink h n x).arch.members = h.arch.members := rfl
@[simp] theorem setLink_arch_sets (h : Hw) (n : Nat) (x : Link) : (setLink h n x).arch.sets = h.arch.sets := rfl
@[simp] theorem setLink_arch_archId (h : Hw) (n : Nat) (x : Link) : (setLink h n x).arch.archId = h.arch.archId := rfl
@[simp] theorem setLink_arch_timeSrc (h : Hw) (n : Nat) (x : Link) : (setLink h n x).arch.timeSrc = h.arch.timeSrc := rfl
@[simp] theorem setLink_arch_admitter (h : Hw) (n : Nat) (x : Link) : (setLink h n x).arch.admitter = h.arch.admitter := rfl
@[simp] theorem setLink_arch_minSec (h : Hw) (n : Nat) (x : Link) : (setLink h n x).arch.minSec = h.arch.minSec := rfl
@[simp] theorem setLink_arch_needKa (h : Hw) (n : Nat) (x : Link) : (setLink h n x).arch.needKa = h.arch.needKa := rfl
@[simp] theorem setLink_arch_policy (h : Hw) (n : Nat) (x : Link) : (setLink h n x).arch.policy = h.arch.policy := rfl
@[simp] theorem setLink_arch_expect (h : Hw) (n : Nat) (x : Link) : (setLink h n x).arch.expect = h.arch.expect := rfl
@[simp] theorem setLink_arch_accepts (h : Hw) (n : Nat) (x : Link) : (setLink h n x).arch.accepts = h.arch.accepts := rfl
@[simp] theorem setLink_arch_newcomers (h : Hw) (n : Nat) (x : Link) : (setLink h n x).arch.newcomers = h.arch.newcomers := rfl
@[simp] theorem setLink_arch_freeing (h : Hw) (n : Nat) (x : Link) : (setLink h n x).arch.freeing = h.arch.freeing := rfl
@[simp] theorem setLink_arch_memSeq (h : Hw) (n : Nat) (x : Link) : (setLink h n x).arch.memSeq = h.arch.memSeq := rfl
@[simp] theorem setLink_arch_east (h : Hw) (n : Nat) (x : Link) : (setLink h n x).arch.east = h.arch.east := rfl
@[simp] theorem setLink_arch_west (h : Hw) (n : Nat) (x : Link) : (setLink h n x).arch.west = h.arch.west := rfl
@[simp] theorem setLink_arch_running (h : Hw) (n : Nat) (x : Link) : (setLink h n x).arch.running = h.arch.running := rfl
@[simp] theorem setLink_arch_joinOk (h : Hw) (n : Nat) (x : Link) : (setLink h n x).arch.joinOk = h.arch.joinOk := rfl
@[simp] theorem setLink_arch_seq (h : Hw) (n : Nat) (x : Link) : (setLink h n x).arch.seq = h.arch.seq := rfl
@[simp] theorem setLink_arch_seen (h : Hw) (n : Nat) (x : Link) : (setLink h n x).arch.seen = h.arch.seen := rfl
@[simp] theorem setLink_arch_sent (h : Hw) (n : Nat) (x : Link) : (setLink h n x).arch.sent = h.arch.sent := rfl
@[simp] theorem setLink_arch_recent (h : Hw) (n : Nat) (x : Link) : (setLink h n x).arch.recent = h.arch.recent := rfl
@[simp] theorem setLink_arch_foreign (h : Hw) (n : Nat) (x : Link) : (setLink h n x).arch.foreign = h.arch.foreign := rfl
@[simp] theorem setLink_arch_timeAt (h : Hw) (n : Nat) (x : Link) : (setLink h n x).arch.timeAt = h.arch.timeAt := rfl
@[simp] theorem setLink_arch_timeHops (h : Hw) (n : Nat) (x : Link) : (setLink h n x).arch.timeHops = h.arch.timeHops := rfl
@[simp] theorem setLink_arch_timeSeq (h : Hw) (n : Nat) (x : Link) : (setLink h n x).arch.timeSeq = h.arch.timeSeq := rfl
@[simp] theorem setLink_arch_timeRun (h : Hw) (n : Nat) (x : Link) : (setLink h n x).arch.timeRun = h.arch.timeRun := rfl
@[simp] theorem setLink_arch_breaks (h : Hw) (n : Nat) (x : Link) : (setLink h n x).arch.breaks = h.arch.breaks := rfl
@[simp] theorem setLink_arch_archTb (h : Hw) (n : Nat) (x : Link) : (setLink h n x).arch.archTb = h.arch.archTb := rfl
@[simp] theorem setLink_arch_plan (h : Hw) (n : Nat) (x : Link) : (setLink h n x).arch.plan = h.arch.plan := rfl
@[simp] theorem setLink_arch_prevPlan (h : Hw) (n : Nat) (x : Link) : (setLink h n x).arch.prevPlan = h.arch.prevPlan := rfl
@[simp] theorem setLink_arch_nextPlan (h : Hw) (n : Nat) (x : Link) : (setLink h n x).arch.nextPlan = h.arch.nextPlan := rfl
@[simp] theorem setLink_arch_others (h : Hw) (n : Nat) (x : Link) : (setLink h n x).arch.others = h.arch.others := rfl
@[simp] theorem setLink_arch_rolePend (h : Hw) (n : Nat) (x : Link) : (setLink h n x).arch.rolePend = h.arch.rolePend := rfl
@[simp] theorem setLink_arch_censuses (h : Hw) (n : Nat) (x : Link) : (setLink h n x).arch.censuses = h.arch.censuses := rfl
@[simp] theorem setLink_arch_censusSeq (h : Hw) (n : Nat) (x : Link) : (setLink h n x).arch.censusSeq = h.arch.censusSeq := rfl
@[simp] theorem setLink_arch_posted (h : Hw) (n : Nat) (x : Link) : (setLink h n x).arch.posted = h.arch.posted := rfl
@[simp] theorem setLink_arch_out (h : Hw) (n : Nat) (x : Link) : (setLink h n x).arch.out = h.arch.out := rfl
@[simp] theorem setLink_arch_waiting (h : Hw) (n : Nat) (x : Link) : (setLink h n x).arch.waiting = h.arch.waiting := rfl
@[simp] theorem setLink_arch_txn (h : Hw) (n : Nat) (x : Link) : (setLink h n x).arch.txn = h.arch.txn := rfl
@[simp] theorem setLink_arch_presAt (h : Hw) (n : Nat) (x : Link) : (setLink h n x).arch.presAt = h.arch.presAt := rfl
@[simp] theorem setLink_arch_tickAt (h : Hw) (n : Nat) (x : Link) : (setLink h n x).arch.tickAt = h.arch.tickAt := rfl
@[simp] theorem setLink_arch_delayAt (h : Hw) (n : Nat) (x : Link) : (setLink h n x).arch.delayAt = h.arch.delayAt := rfl
@[simp] theorem setLink_arch_held (h : Hw) (n : Nat) (l : Link) : (setLink h n l).arch.held = h.arch.held := rfl
@[simp] theorem setLink_arch_snpHeld (h : Hw) (n : Nat) (l : Link) : (setLink h n l).arch.snpHeld = h.arch.snpHeld := rfl
@[simp] theorem setLink_arch_writes (h : Hw) (n : Nat) (l : Link) : (setLink h n l).arch.writes = h.arch.writes := rfl
theorem linkAt_setLink_same (h : Hw) (n : Nat) (x : Link) (hw : tabWf ({} : Link) h.arch.links = true) : linkAt (setLink h n x) n = x :=
  tabGet_put_same _ _ _ hw
theorem linkAt_setLink_ne (h : Hw) (n : Nat) (x : Link) (hx : x ≠ ({} : Link)) : linkAt (setLink h n x) n = x :=
  tabGet_put_ne _ _ _ hx
@[simp] theorem linkAt_setLink_other (h : Hw) (n : Nat) (x : Link) {m : Nat} (hm : m ≠ n) : linkAt (setLink h n x) m = linkAt h m :=
  tabGet_put_other _ _ _ hm

/-! ### setMember -/

@[simp] theorem setMember_ident (h : Hw) (n : Nat) (x : Member) : (setMember h n x).ident = h.ident := rfl
@[simp] theorem setMember_tb (h : Hw) (n : Nat) (x : Member) : (setMember h n x).tb = h.tb := rfl
@[simp] theorem setMember_islands (h : Hw) (n : Nat) (x : Member) : (setMember h n x).islands = h.islands := rfl
@[simp] theorem setMember_straits (h : Hw) (n : Nat) (x : Member) : (setMember h n x).straits = h.straits := rfl
@[simp] theorem setMember_locks (h : Hw) (n : Nat) (x : Member) : (setMember h n x).locks = h.locks := rfl
@[simp] theorem setMember_sel (h : Hw) (n : Nat) (x : Member) : (setMember h n x).sel = h.sel := rfl
@[simp] theorem setMember_faults (h : Hw) (n : Nat) (x : Member) : (setMember h n x).faults = h.faults := rfl
@[simp] theorem setMember_harts (h : Hw) (n : Nat) (x : Member) : (setMember h n x).harts = h.harts := rfl
@[simp] theorem setMember_intTable (h : Hw) (n : Nat) (x : Member) : (setMember h n x).intTable = h.intTable := rfl
@[simp] theorem setMember_intHalf (h : Hw) (n : Nat) (x : Member) : (setMember h n x).intHalf = h.intHalf := rfl
@[simp] theorem setMember_imsic (h : Hw) (n : Nat) (x : Member) : (setMember h n x).imsic = h.imsic := rfl
@[simp] theorem setMember_coh (h : Hw) (n : Nat) (x : Member) : (setMember h n x).coh = h.coh := rfl
@[simp] theorem setMember_ecc (h : Hw) (n : Nat) (x : Member) : (setMember h n x).ecc = h.ecc := rfl
@[simp] theorem setMember_memhw (h : Hw) (n : Nat) (x : Member) : (setMember h n x).memhw = h.memhw := rfl
@[simp] theorem setMember_eng (h : Hw) (n : Nat) (x : Member) : (setMember h n x).eng = h.eng := rfl
@[simp] theorem setMember_tiers (h : Hw) (n : Nat) (x : Member) : (setMember h n x).tiers = h.tiers := rfl
@[simp] theorem setMember_weaves (h : Hw) (n : Nat) (x : Member) : (setMember h n x).weaves = h.weaves := rfl
@[simp] theorem setMember_sync (h : Hw) (n : Nat) (x : Member) : (setMember h n x).sync = h.sync := rfl
@[simp] theorem setMember_edges (h : Hw) (n : Nat) (x : Member) : (setMember h n x).edges = h.edges := rfl
@[simp] theorem setMember_power (h : Hw) (n : Nat) (x : Member) : (setMember h n x).power = h.power := rfl
@[simp] theorem setMember_keep (h : Hw) (n : Nat) (x : Member) : (setMember h n x).keep = h.keep := rfl
@[simp] theorem setMember_efano (h : Hw) (n : Nat) (x : Member) : (setMember h n x).efano = h.efano := rfl
@[simp] theorem setMember_start (h : Hw) (n : Nat) (x : Member) : (setMember h n x).start = h.start := rfl
@[simp] theorem setMember_free (h : Hw) (n : Nat) (x : Member) : (setMember h n x).free = h.free := rfl
@[simp] theorem setMember_arch_sets (h : Hw) (n : Nat) (x : Member) : (setMember h n x).arch.sets = h.arch.sets := rfl
@[simp] theorem setMember_arch_archId (h : Hw) (n : Nat) (x : Member) : (setMember h n x).arch.archId = h.arch.archId := rfl
@[simp] theorem setMember_arch_timeSrc (h : Hw) (n : Nat) (x : Member) : (setMember h n x).arch.timeSrc = h.arch.timeSrc := rfl
@[simp] theorem setMember_arch_admitter (h : Hw) (n : Nat) (x : Member) : (setMember h n x).arch.admitter = h.arch.admitter := rfl
@[simp] theorem setMember_arch_minSec (h : Hw) (n : Nat) (x : Member) : (setMember h n x).arch.minSec = h.arch.minSec := rfl
@[simp] theorem setMember_arch_needKa (h : Hw) (n : Nat) (x : Member) : (setMember h n x).arch.needKa = h.arch.needKa := rfl
@[simp] theorem setMember_arch_policy (h : Hw) (n : Nat) (x : Member) : (setMember h n x).arch.policy = h.arch.policy := rfl
@[simp] theorem setMember_arch_expect (h : Hw) (n : Nat) (x : Member) : (setMember h n x).arch.expect = h.arch.expect := rfl
@[simp] theorem setMember_arch_accepts (h : Hw) (n : Nat) (x : Member) : (setMember h n x).arch.accepts = h.arch.accepts := rfl
@[simp] theorem setMember_arch_newcomers (h : Hw) (n : Nat) (x : Member) : (setMember h n x).arch.newcomers = h.arch.newcomers := rfl
@[simp] theorem setMember_arch_freeing (h : Hw) (n : Nat) (x : Member) : (setMember h n x).arch.freeing = h.arch.freeing := rfl
@[simp] theorem setMember_arch_memSeq (h : Hw) (n : Nat) (x : Member) : (setMember h n x).arch.memSeq = h.arch.memSeq := rfl
@[simp] theorem setMember_arch_east (h : Hw) (n : Nat) (x : Member) : (setMember h n x).arch.east = h.arch.east := rfl
@[simp] theorem setMember_arch_west (h : Hw) (n : Nat) (x : Member) : (setMember h n x).arch.west = h.arch.west := rfl
@[simp] theorem setMember_arch_running (h : Hw) (n : Nat) (x : Member) : (setMember h n x).arch.running = h.arch.running := rfl
@[simp] theorem setMember_arch_joinOk (h : Hw) (n : Nat) (x : Member) : (setMember h n x).arch.joinOk = h.arch.joinOk := rfl
@[simp] theorem setMember_arch_seq (h : Hw) (n : Nat) (x : Member) : (setMember h n x).arch.seq = h.arch.seq := rfl
@[simp] theorem setMember_arch_seen (h : Hw) (n : Nat) (x : Member) : (setMember h n x).arch.seen = h.arch.seen := rfl
@[simp] theorem setMember_arch_sent (h : Hw) (n : Nat) (x : Member) : (setMember h n x).arch.sent = h.arch.sent := rfl
@[simp] theorem setMember_arch_recent (h : Hw) (n : Nat) (x : Member) : (setMember h n x).arch.recent = h.arch.recent := rfl
@[simp] theorem setMember_arch_foreign (h : Hw) (n : Nat) (x : Member) : (setMember h n x).arch.foreign = h.arch.foreign := rfl
@[simp] theorem setMember_arch_timeAt (h : Hw) (n : Nat) (x : Member) : (setMember h n x).arch.timeAt = h.arch.timeAt := rfl
@[simp] theorem setMember_arch_timeHops (h : Hw) (n : Nat) (x : Member) : (setMember h n x).arch.timeHops = h.arch.timeHops := rfl
@[simp] theorem setMember_arch_timeSeq (h : Hw) (n : Nat) (x : Member) : (setMember h n x).arch.timeSeq = h.arch.timeSeq := rfl
@[simp] theorem setMember_arch_timeRun (h : Hw) (n : Nat) (x : Member) : (setMember h n x).arch.timeRun = h.arch.timeRun := rfl
@[simp] theorem setMember_arch_breaks (h : Hw) (n : Nat) (x : Member) : (setMember h n x).arch.breaks = h.arch.breaks := rfl
@[simp] theorem setMember_arch_archTb (h : Hw) (n : Nat) (x : Member) : (setMember h n x).arch.archTb = h.arch.archTb := rfl
@[simp] theorem setMember_arch_plan (h : Hw) (n : Nat) (x : Member) : (setMember h n x).arch.plan = h.arch.plan := rfl
@[simp] theorem setMember_arch_prevPlan (h : Hw) (n : Nat) (x : Member) : (setMember h n x).arch.prevPlan = h.arch.prevPlan := rfl
@[simp] theorem setMember_arch_nextPlan (h : Hw) (n : Nat) (x : Member) : (setMember h n x).arch.nextPlan = h.arch.nextPlan := rfl
@[simp] theorem setMember_arch_others (h : Hw) (n : Nat) (x : Member) : (setMember h n x).arch.others = h.arch.others := rfl
@[simp] theorem setMember_arch_rolePend (h : Hw) (n : Nat) (x : Member) : (setMember h n x).arch.rolePend = h.arch.rolePend := rfl
@[simp] theorem setMember_arch_censuses (h : Hw) (n : Nat) (x : Member) : (setMember h n x).arch.censuses = h.arch.censuses := rfl
@[simp] theorem setMember_arch_censusSeq (h : Hw) (n : Nat) (x : Member) : (setMember h n x).arch.censusSeq = h.arch.censusSeq := rfl
@[simp] theorem setMember_arch_links (h : Hw) (n : Nat) (x : Member) : (setMember h n x).arch.links = h.arch.links := rfl
@[simp] theorem setMember_arch_posted (h : Hw) (n : Nat) (x : Member) : (setMember h n x).arch.posted = h.arch.posted := rfl
@[simp] theorem setMember_arch_out (h : Hw) (n : Nat) (x : Member) : (setMember h n x).arch.out = h.arch.out := rfl
@[simp] theorem setMember_arch_waiting (h : Hw) (n : Nat) (x : Member) : (setMember h n x).arch.waiting = h.arch.waiting := rfl
@[simp] theorem setMember_arch_txn (h : Hw) (n : Nat) (x : Member) : (setMember h n x).arch.txn = h.arch.txn := rfl
@[simp] theorem setMember_arch_presAt (h : Hw) (n : Nat) (x : Member) : (setMember h n x).arch.presAt = h.arch.presAt := rfl
@[simp] theorem setMember_arch_tickAt (h : Hw) (n : Nat) (x : Member) : (setMember h n x).arch.tickAt = h.arch.tickAt := rfl
@[simp] theorem setMember_arch_delayAt (h : Hw) (n : Nat) (x : Member) : (setMember h n x).arch.delayAt = h.arch.delayAt := rfl
@[simp] theorem setMember_arch_held (h : Hw) (pos : Nat) (x : Member) : (setMember h pos x).arch.held = h.arch.held := rfl
@[simp] theorem setMember_arch_snpHeld (h : Hw) (pos : Nat) (x : Member) : (setMember h pos x).arch.snpHeld = h.arch.snpHeld := rfl
@[simp] theorem setMember_arch_writes (h : Hw) (pos : Nat) (x : Member) : (setMember h pos x).arch.writes = h.arch.writes := rfl
theorem memberAt_setMember_same (h : Hw) (n : Nat) (x : Member) (hw : tabWf ({} : Member) h.arch.members = true) : memberAt (setMember h n x) n = x :=
  tabGet_put_same _ _ _ hw
theorem memberAt_setMember_ne (h : Hw) (n : Nat) (x : Member) (hx : x ≠ ({} : Member)) : memberAt (setMember h n x) n = x :=
  tabGet_put_ne _ _ _ hx
@[simp] theorem memberAt_setMember_other (h : Hw) (n : Nat) (x : Member) {m : Nat} (hm : m ≠ n) : memberAt (setMember h n x) m = memberAt h m :=
  tabGet_put_other _ _ _ hm

/-! ### setProxy -/

@[simp] theorem setProxy_ident (h : Hw) (n : Nat) (x : Proxy) : (setProxy h n x).ident = h.ident := rfl
@[simp] theorem setProxy_tb (h : Hw) (n : Nat) (x : Proxy) : (setProxy h n x).tb = h.tb := rfl
@[simp] theorem setProxy_islands (h : Hw) (n : Nat) (x : Proxy) : (setProxy h n x).islands = h.islands := rfl
@[simp] theorem setProxy_straits (h : Hw) (n : Nat) (x : Proxy) : (setProxy h n x).straits = h.straits := rfl
@[simp] theorem setProxy_locks (h : Hw) (n : Nat) (x : Proxy) : (setProxy h n x).locks = h.locks := rfl
@[simp] theorem setProxy_sel (h : Hw) (n : Nat) (x : Proxy) : (setProxy h n x).sel = h.sel := rfl
@[simp] theorem setProxy_faults (h : Hw) (n : Nat) (x : Proxy) : (setProxy h n x).faults = h.faults := rfl
@[simp] theorem setProxy_harts (h : Hw) (n : Nat) (x : Proxy) : (setProxy h n x).harts = h.harts := rfl
@[simp] theorem setProxy_intTable (h : Hw) (n : Nat) (x : Proxy) : (setProxy h n x).intTable = h.intTable := rfl
@[simp] theorem setProxy_intHalf (h : Hw) (n : Nat) (x : Proxy) : (setProxy h n x).intHalf = h.intHalf := rfl
@[simp] theorem setProxy_imsic (h : Hw) (n : Nat) (x : Proxy) : (setProxy h n x).imsic = h.imsic := rfl
@[simp] theorem setProxy_ecc (h : Hw) (n : Nat) (x : Proxy) : (setProxy h n x).ecc = h.ecc := rfl
@[simp] theorem setProxy_memhw (h : Hw) (n : Nat) (x : Proxy) : (setProxy h n x).memhw = h.memhw := rfl
@[simp] theorem setProxy_eng (h : Hw) (n : Nat) (x : Proxy) : (setProxy h n x).eng = h.eng := rfl
@[simp] theorem setProxy_tiers (h : Hw) (n : Nat) (x : Proxy) : (setProxy h n x).tiers = h.tiers := rfl
@[simp] theorem setProxy_weaves (h : Hw) (n : Nat) (x : Proxy) : (setProxy h n x).weaves = h.weaves := rfl
@[simp] theorem setProxy_sync (h : Hw) (n : Nat) (x : Proxy) : (setProxy h n x).sync = h.sync := rfl
@[simp] theorem setProxy_edges (h : Hw) (n : Nat) (x : Proxy) : (setProxy h n x).edges = h.edges := rfl
@[simp] theorem setProxy_power (h : Hw) (n : Nat) (x : Proxy) : (setProxy h n x).power = h.power := rfl
@[simp] theorem setProxy_arch (h : Hw) (n : Nat) (x : Proxy) : (setProxy h n x).arch = h.arch := rfl
@[simp] theorem setProxy_keep (h : Hw) (n : Nat) (x : Proxy) : (setProxy h n x).keep = h.keep := rfl
@[simp] theorem setProxy_efano (h : Hw) (n : Nat) (x : Proxy) : (setProxy h n x).efano = h.efano := rfl
@[simp] theorem setProxy_start (h : Hw) (n : Nat) (x : Proxy) : (setProxy h n x).start = h.start := rfl
@[simp] theorem setProxy_free (h : Hw) (n : Nat) (x : Proxy) : (setProxy h n x).free = h.free := rfl
@[simp] theorem setProxy_coh_dir (h : Hw) (n : Nat) (x : Proxy) : (setProxy h n x).coh.dir = h.coh.dir := rfl
@[simp] theorem setProxy_coh_dirSets (h : Hw) (n : Nat) (x : Proxy) : (setProxy h n x).coh.dirSets = h.coh.dirSets := rfl
@[simp] theorem setProxy_coh_caches (h : Hw) (n : Nat) (x : Proxy) : (setProxy h n x).coh.caches = h.coh.caches := rfl
@[simp] theorem setProxy_coh_wayOwner (h : Hw) (n : Nat) (x : Proxy) : (setProxy h n x).coh.wayOwner = h.coh.wayOwner := rfl
@[simp] theorem setProxy_coh_split (h : Hw) (n : Nat) (x : Proxy) : (setProxy h n x).coh.split = h.coh.split := rfl
@[simp] theorem setProxy_coh_answer (h : Hw) (n : Nat) (x : Proxy) : (setProxy h n x).coh.answer = h.coh.answer := rfl
@[simp] theorem setProxy_coh_answerBad (h : Hw) (n : Nat) (x : Proxy) : (setProxy h n x).coh.answerBad = h.coh.answerBad := rfl
@[simp] theorem setProxy_coh_unknown (h : Hw) (n : Nat) (x : Proxy) : (setProxy h n x).coh.unknown = h.coh.unknown := rfl
@[simp] theorem setProxy_coh_poison (h : Hw) (n : Nat) (x : Proxy) : (setProxy h n x).coh.poison = h.coh.poison := rfl
@[simp] theorem setProxy_coh_swPoison (h : Hw) (n : Nat) (x : Proxy) : (setProxy h n x).coh.swPoison = h.coh.swPoison := rfl
@[simp] theorem setProxy_coh_answerPoison (h : Hw) (line : Nat) (x : Proxy) : (setProxy h line x).coh.answerPoison = h.coh.answerPoison := rfl
@[simp] theorem setProxy_coh_mshrs (h : Hw) (line : Nat) (x : Proxy) : (setProxy h line x).coh.mshrs = h.coh.mshrs := rfl
@[simp] theorem setProxy_coh_stalls (h : Hw) (line : Nat) (x : Proxy) : (setProxy h line x).coh.stalls = h.coh.stalls := rfl
@[simp] theorem setProxy_coh_bypass (h : Hw) (line : Nat) (x : Proxy) : (setProxy h line x).coh.bypass = h.coh.bypass := rfl
@[simp] theorem setProxy_coh_leaving (h : Hw) (line : Nat) (x : Proxy) : (setProxy h line x).coh.leaving = h.coh.leaving := rfl
@[simp] theorem setProxy_coh_copies (h : Hw) (line : Nat) (x : Proxy) : (setProxy h line x).coh.copies = h.coh.copies := rfl
@[simp] theorem setProxy_coh_restored (h : Hw) (line : Nat) (x : Proxy) : (setProxy h line x).coh.restored = h.coh.restored := rfl
@[simp] theorem setProxy_coh_gone (h : Hw) (line : Nat) (x : Proxy) : (setProxy h line x).coh.gone = h.coh.gone := rfl
theorem proxyAt_setProxy_same (h : Hw) (n : Nat) (x : Proxy) (hw : tabWf ({} : Proxy) h.coh.proxies = true) : proxyAt (setProxy h n x) n = x :=
  tabGet_put_same _ _ _ hw
theorem proxyAt_setProxy_ne (h : Hw) (n : Nat) (x : Proxy) (hx : x ≠ ({} : Proxy)) : proxyAt (setProxy h n x) n = x :=
  tabGet_put_ne _ _ _ hx
@[simp] theorem proxyAt_setProxy_other (h : Hw) (n : Nat) (x : Proxy) {m : Nat} (hm : m ≠ n) : proxyAt (setProxy h n x) m = proxyAt h m :=
  tabGet_put_other _ _ _ hm

/-! ### setDir -/

/-- What a line's leaving its directory way changes. -/
theorem dropDirTag_eq (h : Hw) (p tag : Nat) : ∃ d, dropDirTag h p tag = { h with coh := { h.coh with dirSets := d } } := by
  unfold dropDirTag
  split
  · exact ⟨_, rfl⟩
  · exact ⟨_, rfl⟩

/-- What replacing a directory entry changes: the entry, the kept copies and the directory's ways. -/
theorem setDir_eq (h : Hw) (n : Nat) (x : DirEntry) : ∃ d, setDir h n x = { h with coh := { h.coh with
    dir := tabPut {} h.coh.dir n x, copies := (if x.st = DirState.e then h.coh.copies else tabPut [] h.coh.copies n []), dirSets := d } } := by
  by_cases hx : x = ({} : DirEntry)
  · simp only [setDir, if_pos hx]
    exact ⟨_, (dropDirTag_eq _ _ _).choose_spec⟩
  · simp only [setDir, if_neg hx]
    exact ⟨_, rfl⟩
@[simp] theorem setDir_ident (h : Hw) (n : Nat) (x : DirEntry) : (setDir h n x).ident = h.ident := by
  obtain ⟨d, eq⟩ := setDir_eq h n x; rw [eq]
@[simp] theorem setDir_tb (h : Hw) (n : Nat) (x : DirEntry) : (setDir h n x).tb = h.tb := by
  obtain ⟨d, eq⟩ := setDir_eq h n x; rw [eq]
@[simp] theorem setDir_islands (h : Hw) (n : Nat) (x : DirEntry) : (setDir h n x).islands = h.islands := by
  obtain ⟨d, eq⟩ := setDir_eq h n x; rw [eq]
@[simp] theorem setDir_straits (h : Hw) (n : Nat) (x : DirEntry) : (setDir h n x).straits = h.straits := by
  obtain ⟨d, eq⟩ := setDir_eq h n x; rw [eq]
@[simp] theorem setDir_locks (h : Hw) (n : Nat) (x : DirEntry) : (setDir h n x).locks = h.locks := by
  obtain ⟨d, eq⟩ := setDir_eq h n x; rw [eq]
@[simp] theorem setDir_sel (h : Hw) (n : Nat) (x : DirEntry) : (setDir h n x).sel = h.sel := by
  obtain ⟨d, eq⟩ := setDir_eq h n x; rw [eq]
@[simp] theorem setDir_faults (h : Hw) (n : Nat) (x : DirEntry) : (setDir h n x).faults = h.faults := by
  obtain ⟨d, eq⟩ := setDir_eq h n x; rw [eq]
@[simp] theorem setDir_harts (h : Hw) (n : Nat) (x : DirEntry) : (setDir h n x).harts = h.harts := by
  obtain ⟨d, eq⟩ := setDir_eq h n x; rw [eq]
@[simp] theorem setDir_intTable (h : Hw) (n : Nat) (x : DirEntry) : (setDir h n x).intTable = h.intTable := by
  obtain ⟨d, eq⟩ := setDir_eq h n x; rw [eq]
@[simp] theorem setDir_intHalf (h : Hw) (n : Nat) (x : DirEntry) : (setDir h n x).intHalf = h.intHalf := by
  obtain ⟨d, eq⟩ := setDir_eq h n x; rw [eq]
@[simp] theorem setDir_imsic (h : Hw) (n : Nat) (x : DirEntry) : (setDir h n x).imsic = h.imsic := by
  obtain ⟨d, eq⟩ := setDir_eq h n x; rw [eq]
@[simp] theorem setDir_ecc (h : Hw) (n : Nat) (x : DirEntry) : (setDir h n x).ecc = h.ecc := by
  obtain ⟨d, eq⟩ := setDir_eq h n x; rw [eq]
@[simp] theorem setDir_memhw (h : Hw) (n : Nat) (x : DirEntry) : (setDir h n x).memhw = h.memhw := by
  obtain ⟨d, eq⟩ := setDir_eq h n x; rw [eq]
@[simp] theorem setDir_eng (h : Hw) (n : Nat) (x : DirEntry) : (setDir h n x).eng = h.eng := by
  obtain ⟨d, eq⟩ := setDir_eq h n x; rw [eq]
@[simp] theorem setDir_tiers (h : Hw) (n : Nat) (x : DirEntry) : (setDir h n x).tiers = h.tiers := by
  obtain ⟨d, eq⟩ := setDir_eq h n x; rw [eq]
@[simp] theorem setDir_weaves (h : Hw) (n : Nat) (x : DirEntry) : (setDir h n x).weaves = h.weaves := by
  obtain ⟨d, eq⟩ := setDir_eq h n x; rw [eq]
@[simp] theorem setDir_sync (h : Hw) (n : Nat) (x : DirEntry) : (setDir h n x).sync = h.sync := by
  obtain ⟨d, eq⟩ := setDir_eq h n x; rw [eq]
@[simp] theorem setDir_edges (h : Hw) (n : Nat) (x : DirEntry) : (setDir h n x).edges = h.edges := by
  obtain ⟨d, eq⟩ := setDir_eq h n x; rw [eq]
@[simp] theorem setDir_power (h : Hw) (n : Nat) (x : DirEntry) : (setDir h n x).power = h.power := by
  obtain ⟨d, eq⟩ := setDir_eq h n x; rw [eq]
@[simp] theorem setDir_arch (h : Hw) (n : Nat) (x : DirEntry) : (setDir h n x).arch = h.arch := by
  obtain ⟨d, eq⟩ := setDir_eq h n x; rw [eq]
@[simp] theorem setDir_keep (h : Hw) (n : Nat) (x : DirEntry) : (setDir h n x).keep = h.keep := by
  obtain ⟨d, eq⟩ := setDir_eq h n x; rw [eq]
@[simp] theorem setDir_efano (h : Hw) (n : Nat) (x : DirEntry) : (setDir h n x).efano = h.efano := by
  obtain ⟨d, eq⟩ := setDir_eq h n x; rw [eq]
@[simp] theorem setDir_start (h : Hw) (n : Nat) (x : DirEntry) : (setDir h n x).start = h.start := by
  obtain ⟨d, eq⟩ := setDir_eq h n x; rw [eq]
@[simp] theorem setDir_free (h : Hw) (n : Nat) (x : DirEntry) : (setDir h n x).free = h.free := by
  obtain ⟨d, eq⟩ := setDir_eq h n x; rw [eq]
theorem setDir_coh_dirSets (h : Hw) (n : Nat) (x : DirEntry) (hx : x ≠ ({} : DirEntry)) : (setDir h n x).coh.dirSets = h.coh.dirSets := by
  simp [setDir, hx]
@[simp] theorem setDir_coh_caches (h : Hw) (n : Nat) (x : DirEntry) : (setDir h n x).coh.caches = h.coh.caches := by
  obtain ⟨d, eq⟩ := setDir_eq h n x; rw [eq]
@[simp] theorem setDir_coh_wayOwner (h : Hw) (n : Nat) (x : DirEntry) : (setDir h n x).coh.wayOwner = h.coh.wayOwner := by
  obtain ⟨d, eq⟩ := setDir_eq h n x; rw [eq]
@[simp] theorem setDir_coh_split (h : Hw) (n : Nat) (x : DirEntry) : (setDir h n x).coh.split = h.coh.split := by
  obtain ⟨d, eq⟩ := setDir_eq h n x; rw [eq]
@[simp] theorem setDir_coh_answer (h : Hw) (n : Nat) (x : DirEntry) : (setDir h n x).coh.answer = h.coh.answer := by
  obtain ⟨d, eq⟩ := setDir_eq h n x; rw [eq]
@[simp] theorem setDir_coh_answerBad (h : Hw) (n : Nat) (x : DirEntry) : (setDir h n x).coh.answerBad = h.coh.answerBad := by
  obtain ⟨d, eq⟩ := setDir_eq h n x; rw [eq]
@[simp] theorem setDir_coh_proxies (h : Hw) (n : Nat) (x : DirEntry) : (setDir h n x).coh.proxies = h.coh.proxies := by
  obtain ⟨d, eq⟩ := setDir_eq h n x; rw [eq]
@[simp] theorem setDir_coh_unknown (h : Hw) (n : Nat) (x : DirEntry) : (setDir h n x).coh.unknown = h.coh.unknown := by
  obtain ⟨d, eq⟩ := setDir_eq h n x; rw [eq]
@[simp] theorem setDir_coh_poison (h : Hw) (n : Nat) (x : DirEntry) : (setDir h n x).coh.poison = h.coh.poison := by
  obtain ⟨d, eq⟩ := setDir_eq h n x; rw [eq]
@[simp] theorem setDir_coh_swPoison (h : Hw) (n : Nat) (x : DirEntry) : (setDir h n x).coh.swPoison = h.coh.swPoison := by
  obtain ⟨d, eq⟩ := setDir_eq h n x; rw [eq]
@[simp] theorem setDir_coh_answerPoison (h : Hw) (line : Nat) (e : DirEntry) : (setDir h line e).coh.answerPoison = h.coh.answerPoison := by
  obtain ⟨d, eq⟩ := setDir_eq h line e; rw [eq]
@[simp] theorem setDir_coh_mshrs (h : Hw) (line : Nat) (e : DirEntry) : (setDir h line e).coh.mshrs = h.coh.mshrs := by
  obtain ⟨d, eq⟩ := setDir_eq h line e; rw [eq]
@[simp] theorem setDir_coh_stalls (h : Hw) (line : Nat) (e : DirEntry) : (setDir h line e).coh.stalls = h.coh.stalls := by
  obtain ⟨d, eq⟩ := setDir_eq h line e; rw [eq]
theorem dirAt_setDir_same (h : Hw) (n : Nat) (x : DirEntry) (hw : tabWf ({} : DirEntry) h.coh.dir = true) : dirAt (setDir h n x) n = x :=
  by obtain ⟨d, eq⟩ := setDir_eq h n x; rw [eq]; exact tabGet_put_same _ _ _ hw
theorem dirAt_setDir_ne (h : Hw) (n : Nat) (x : DirEntry) (hx : x ≠ ({} : DirEntry)) : dirAt (setDir h n x) n = x :=
  by obtain ⟨d, eq⟩ := setDir_eq h n x; rw [eq]; exact tabGet_put_ne _ _ _ hx
@[simp] theorem dirAt_setDir_other (h : Hw) (n : Nat) (x : DirEntry) {m : Nat} (hm : m ≠ n) : dirAt (setDir h n x) m = dirAt h m :=
  by obtain ⟨d, eq⟩ := setDir_eq h n x; rw [eq]; exact tabGet_put_other _ _ _ hm

/-! ### setRail -/

@[simp] theorem setRail_ident (h : Hw) (n : Nat) (x : Rail) : (setRail h n x).ident = h.ident := rfl
@[simp] theorem setRail_tb (h : Hw) (n : Nat) (x : Rail) : (setRail h n x).tb = h.tb := rfl
@[simp] theorem setRail_islands (h : Hw) (n : Nat) (x : Rail) : (setRail h n x).islands = h.islands := rfl
@[simp] theorem setRail_straits (h : Hw) (n : Nat) (x : Rail) : (setRail h n x).straits = h.straits := rfl
@[simp] theorem setRail_locks (h : Hw) (n : Nat) (x : Rail) : (setRail h n x).locks = h.locks := rfl
@[simp] theorem setRail_sel (h : Hw) (n : Nat) (x : Rail) : (setRail h n x).sel = h.sel := rfl
@[simp] theorem setRail_faults (h : Hw) (n : Nat) (x : Rail) : (setRail h n x).faults = h.faults := rfl
@[simp] theorem setRail_harts (h : Hw) (n : Nat) (x : Rail) : (setRail h n x).harts = h.harts := rfl
@[simp] theorem setRail_intTable (h : Hw) (n : Nat) (x : Rail) : (setRail h n x).intTable = h.intTable := rfl
@[simp] theorem setRail_intHalf (h : Hw) (n : Nat) (x : Rail) : (setRail h n x).intHalf = h.intHalf := rfl
@[simp] theorem setRail_imsic (h : Hw) (n : Nat) (x : Rail) : (setRail h n x).imsic = h.imsic := rfl
@[simp] theorem setRail_coh (h : Hw) (n : Nat) (x : Rail) : (setRail h n x).coh = h.coh := rfl
@[simp] theorem setRail_ecc (h : Hw) (n : Nat) (x : Rail) : (setRail h n x).ecc = h.ecc := rfl
@[simp] theorem setRail_memhw (h : Hw) (n : Nat) (x : Rail) : (setRail h n x).memhw = h.memhw := rfl
@[simp] theorem setRail_eng (h : Hw) (n : Nat) (x : Rail) : (setRail h n x).eng = h.eng := rfl
@[simp] theorem setRail_tiers (h : Hw) (n : Nat) (x : Rail) : (setRail h n x).tiers = h.tiers := rfl
@[simp] theorem setRail_weaves (h : Hw) (n : Nat) (x : Rail) : (setRail h n x).weaves = h.weaves := rfl
@[simp] theorem setRail_sync (h : Hw) (n : Nat) (x : Rail) : (setRail h n x).sync = h.sync := rfl
@[simp] theorem setRail_edges (h : Hw) (n : Nat) (x : Rail) : (setRail h n x).edges = h.edges := rfl
@[simp] theorem setRail_arch (h : Hw) (n : Nat) (x : Rail) : (setRail h n x).arch = h.arch := rfl
@[simp] theorem setRail_keep (h : Hw) (n : Nat) (x : Rail) : (setRail h n x).keep = h.keep := rfl
@[simp] theorem setRail_efano (h : Hw) (n : Nat) (x : Rail) : (setRail h n x).efano = h.efano := rfl
@[simp] theorem setRail_start (h : Hw) (n : Nat) (x : Rail) : (setRail h n x).start = h.start := rfl
@[simp] theorem setRail_free (h : Hw) (n : Nat) (x : Rail) : (setRail h n x).free = h.free := rfl
@[simp] theorem setRail_power_static (h : Hw) (n : Nat) (x : Rail) : (setRail h n x).power.static = h.power.static := rfl
@[simp] theorem setRail_power_poolMin (h : Hw) (n : Nat) (x : Rail) : (setRail h n x).power.poolMin = h.power.poolMin := rfl
@[simp] theorem setRail_power_poolMax (h : Hw) (n : Nat) (x : Rail) : (setRail h n x).power.poolMax = h.power.poolMax := rfl
@[simp] theorem setRail_power_outs (h : Hw) (n : Nat) (x : Rail) : (setRail h n x).power.outs = h.power.outs := rfl
@[simp] theorem setRail_power_ins (h : Hw) (n : Nat) (x : Rail) : (setRail h n x).power.ins = h.power.ins := rfl
@[simp] theorem setRail_power_poolSet (h : Hw) (n : Nat) (x : Rail) : (setRail h n x).power.poolSet = h.power.poolSet := rfl
@[simp] theorem setRail_power_poolOn (h : Hw) (n : Nat) (x : Rail) : (setRail h n x).power.poolOn = h.power.poolOn := rfl
@[simp] theorem setRail_power_theta (h : Hw) (n : Nat) (x : Rail) : (setRail h n x).power.theta = h.power.theta := rfl
@[simp] theorem setRail_power_stepMax (h : Hw) (n : Nat) (x : Rail) : (setRail h n x).power.stepMax = h.power.stepMax := rfl
@[simp] theorem setRail_power_tjTarget (h : Hw) (n : Nat) (x : Rail) : (setRail h n x).power.tjTarget = h.power.tjTarget := rfl
@[simp] theorem setRail_power_sensors (h : Hw) (n : Nat) (x : Rail) : (setRail h n x).power.sensors = h.power.sensors := rfl
@[simp] theorem setRail_power_sampled (h : Hw) (n : Nat) (x : Rail) : (setRail h n x).power.sampled = h.power.sampled := rfl
@[simp] theorem setRail_power_prochot (h : Hw) (n : Nat) (x : Rail) : (setRail h n x).power.prochot = h.power.prochot := rfl
@[simp] theorem setRail_power_extHot (h : Hw) (n : Nat) (x : Rail) : (setRail h n x).power.extHot = h.power.extHot := rfl
@[simp] theorem setRail_power_tripped (h : Hw) (n : Nat) (x : Rail) : (setRail h n x).power.tripped = h.power.tripped := rfl
@[simp] theorem setRail_power_bounds (h : Hw) (n : Nat) (x : Rail) : (setRail h n x).power.bounds = h.power.bounds := rfl
@[simp] theorem setRail_power_kindCeil (h : Hw) (n : Nat) (x : Rail) : (setRail h n x).power.kindCeil = h.power.kindCeil := rfl
@[simp] theorem setRail_power_dieCeil (h : Hw) (n : Nat) (x : Rail) : (setRail h n x).power.dieCeil = h.power.dieCeil := rfl
@[simp] theorem setRail_power_loopMiss (h : Hw) (n : Nat) (x : Rail) : (setRail h n x).power.loopMiss = h.power.loopMiss := rfl
@[simp] theorem setRail_power_yields (h : Hw) (n : Nat) (x : Rail) : (setRail h n x).power.yields = h.power.yields := rfl
@[simp] theorem setRail_power_droops (h : Hw) (n : Nat) (x : Rail) : (setRail h n x).power.droops = h.power.droops := rfl
@[simp] theorem setRail_power_inputW (h : Hw) (n : Nat) (x : Rail) : (setRail h n x).power.inputW = h.power.inputW := rfl
@[simp] theorem setRail_power_loopAt (h : Hw) (n : Nat) (x : Rail) : (setRail h n x).power.loopAt = h.power.loopAt := rfl
@[simp] theorem setRail_power_telemAt (h : Hw) (n : Nat) (x : Rail) : (setRail h n x).power.telemAt = h.power.telemAt := rfl
@[simp] theorem setRail_power_epoch (h : Hw) (n : Nat) (x : Rail) : (setRail h n x).power.epoch = h.power.epoch := rfl
@[simp] theorem setRail_power_epochRun (h : Hw) (n : Nat) (x : Rail) : (setRail h n x).power.epochRun = h.power.epochRun := rfl
@[simp] theorem setRail_power_frames (h : Hw) (n : Nat) (x : Rail) : (setRail h n x).power.frames = h.power.frames := rfl
@[simp] theorem setRail_power_mine (h : Hw) (n : Nat) (x : Rail) : (setRail h n x).power.mine = h.power.mine := rfl
theorem railAt_setRail_same (h : Hw) (n : Nat) (x : Rail) (hw : tabWf ({} : Rail) h.power.rails = true) : railAt (setRail h n x) n = x :=
  tabGet_put_same _ _ _ hw
theorem railAt_setRail_ne (h : Hw) (n : Nat) (x : Rail) (hx : x ≠ ({} : Rail)) : railAt (setRail h n x) n = x :=
  tabGet_put_ne _ _ _ hx
@[simp] theorem railAt_setRail_other (h : Hw) (n : Nat) (x : Rail) {m : Nat} (hm : m ≠ n) : railAt (setRail h n x) m = railAt h m :=
  tabGet_put_other _ _ _ hm

/-! ### setChan -/

@[simp] theorem setChan_ident (h : Hw) (n : Nat) (x : Channel) : (setChan h n x).ident = h.ident := rfl
@[simp] theorem setChan_tb (h : Hw) (n : Nat) (x : Channel) : (setChan h n x).tb = h.tb := rfl
@[simp] theorem setChan_islands (h : Hw) (n : Nat) (x : Channel) : (setChan h n x).islands = h.islands := rfl
@[simp] theorem setChan_straits (h : Hw) (n : Nat) (x : Channel) : (setChan h n x).straits = h.straits := rfl
@[simp] theorem setChan_locks (h : Hw) (n : Nat) (x : Channel) : (setChan h n x).locks = h.locks := rfl
@[simp] theorem setChan_sel (h : Hw) (n : Nat) (x : Channel) : (setChan h n x).sel = h.sel := rfl
@[simp] theorem setChan_faults (h : Hw) (n : Nat) (x : Channel) : (setChan h n x).faults = h.faults := rfl
@[simp] theorem setChan_harts (h : Hw) (n : Nat) (x : Channel) : (setChan h n x).harts = h.harts := rfl
@[simp] theorem setChan_intTable (h : Hw) (n : Nat) (x : Channel) : (setChan h n x).intTable = h.intTable := rfl
@[simp] theorem setChan_intHalf (h : Hw) (n : Nat) (x : Channel) : (setChan h n x).intHalf = h.intHalf := rfl
@[simp] theorem setChan_imsic (h : Hw) (n : Nat) (x : Channel) : (setChan h n x).imsic = h.imsic := rfl
@[simp] theorem setChan_coh (h : Hw) (n : Nat) (x : Channel) : (setChan h n x).coh = h.coh := rfl
@[simp] theorem setChan_ecc (h : Hw) (n : Nat) (x : Channel) : (setChan h n x).ecc = h.ecc := rfl
@[simp] theorem setChan_eng (h : Hw) (n : Nat) (x : Channel) : (setChan h n x).eng = h.eng := rfl
@[simp] theorem setChan_tiers (h : Hw) (n : Nat) (x : Channel) : (setChan h n x).tiers = h.tiers := rfl
@[simp] theorem setChan_weaves (h : Hw) (n : Nat) (x : Channel) : (setChan h n x).weaves = h.weaves := rfl
@[simp] theorem setChan_sync (h : Hw) (n : Nat) (x : Channel) : (setChan h n x).sync = h.sync := rfl
@[simp] theorem setChan_edges (h : Hw) (n : Nat) (x : Channel) : (setChan h n x).edges = h.edges := rfl
@[simp] theorem setChan_power (h : Hw) (n : Nat) (x : Channel) : (setChan h n x).power = h.power := rfl
@[simp] theorem setChan_arch (h : Hw) (n : Nat) (x : Channel) : (setChan h n x).arch = h.arch := rfl
@[simp] theorem setChan_keep (h : Hw) (n : Nat) (x : Channel) : (setChan h n x).keep = h.keep := rfl
@[simp] theorem setChan_efano (h : Hw) (n : Nat) (x : Channel) : (setChan h n x).efano = h.efano := rfl
@[simp] theorem setChan_start (h : Hw) (n : Nat) (x : Channel) : (setChan h n x).start = h.start := rfl
@[simp] theorem setChan_free (h : Hw) (n : Nat) (x : Channel) : (setChan h n x).free = h.free := rfl
@[simp] theorem setChan_memhw_nearOpen (h : Hw) (n : Nat) (x : Channel) : (setChan h n x).memhw.nearOpen = h.memhw.nearOpen := rfl
@[simp] theorem setChan_memhw_farOpen (h : Hw) (n : Nat) (x : Channel) : (setChan h n x).memhw.farOpen = h.memhw.farOpen := rfl
@[simp] theorem setChan_memhw_training (h : Hw) (n : Nat) (x : Channel) : (setChan h n x).memhw.training = h.memhw.training := rfl
@[simp] theorem setChan_memhw_kGib (h : Hw) (n : Nat) (x : Channel) : (setChan h n x).memhw.kGib = h.memhw.kGib := rfl
@[simp] theorem setChan_memhw_acts (h : Hw) (n : Nat) (x : Channel) : (setChan h n x).memhw.acts = h.memhw.acts := rfl
@[simp] theorem setChan_memhw_targeted (h : Hw) (n : Nat) (x : Channel) : (setChan h n x).memhw.targeted = h.memhw.targeted := rfl
@[simp] theorem setChan_memhw_cands (h : Hw) (n : Nat) (x : Channel) : (setChan h n x).memhw.cands = h.memhw.cands := rfl
@[simp] theorem setChan_memhw_discarded (h : Hw) (n : Nat) (x : Channel) : (setChan h n x).memhw.discarded = h.memhw.discarded := rfl
@[simp] theorem setChan_memhw_rowFuse (h : Hw) (n : Nat) (x : Channel) : (setChan h n x).memhw.rowFuse = h.memhw.rowFuse := rfl
@[simp] theorem setChan_memhw_laneFuse (h : Hw) (n : Nat) (x : Channel) : (setChan h n x).memhw.laneFuse = h.memhw.laneFuse := rfl
@[simp] theorem setChan_memhw_rowUsed (h : Hw) (n : Nat) (x : Channel) : (setChan h n x).memhw.rowUsed = h.memhw.rowUsed := rfl
@[simp] theorem setChan_memhw_laneUsed (h : Hw) (n : Nat) (x : Channel) : (setChan h n x).memhw.laneUsed = h.memhw.laneUsed := rfl
@[simp] theorem setChan_memhw_selfRefresh (h : Hw) (n : Nat) (x : Channel) : (setChan h n x).memhw.selfRefresh = h.memhw.selfRefresh := rfl
@[simp] theorem setChan_memhw_tests (h : Hw) (n : Nat) (x : Channel) : (setChan h n x).memhw.tests = h.memhw.tests := rfl
@[simp] theorem setChan_memhw_farDev (h : Hw) (k : Nat) (c : Channel) : (setChan h k c).memhw.farDev = h.memhw.farDev := rfl
@[simp] theorem setChan_memhw_raa (h : Hw) (k : Nat) (c : Channel) : (setChan h k c).memhw.raa = h.memhw.raa := rfl
@[simp] theorem setChan_memhw_rfms (h : Hw) (k : Nat) (c : Channel) : (setChan h k c).memhw.rfms = h.memhw.rfms := rfl
@[simp] theorem setChan_memhw_allBank (h : Hw) (k : Nat) (c : Channel) : (setChan h k c).memhw.allBank = h.memhw.allBank := rfl
@[simp] theorem setChan_memhw_rowTests (h : Hw) (k : Nat) (c : Channel) : (setChan h k c).memhw.rowTests = h.memhw.rowTests := rfl
theorem chanAt_setChan_same (h : Hw) (n : Nat) (x : Channel) (hw : tabWf ({} : Channel) h.memhw.chans = true) : chanAt (setChan h n x) n = x :=
  tabGet_put_same _ _ _ hw
theorem chanAt_setChan_ne (h : Hw) (n : Nat) (x : Channel) (hx : x ≠ ({} : Channel)) : chanAt (setChan h n x) n = x :=
  tabGet_put_ne _ _ _ hx
@[simp] theorem chanAt_setChan_other (h : Hw) (n : Nat) (x : Channel) {m : Nat} (hm : m ≠ n) : chanAt (setChan h n x) m = chanAt h m :=
  tabGet_put_other _ _ _ hm

/-! ### setObj -/

@[simp] theorem setObj_ident (h : Hw) (p i : Nat) (x : ObjRec) : (setObj h p i x).ident = h.ident := rfl
@[simp] theorem setObj_tb (h : Hw) (p i : Nat) (x : ObjRec) : (setObj h p i x).tb = h.tb := rfl
@[simp] theorem setObj_islands (h : Hw) (p i : Nat) (x : ObjRec) : (setObj h p i x).islands = h.islands := rfl
@[simp] theorem setObj_straits (h : Hw) (p i : Nat) (x : ObjRec) : (setObj h p i x).straits = h.straits := rfl
@[simp] theorem setObj_locks (h : Hw) (p i : Nat) (x : ObjRec) : (setObj h p i x).locks = h.locks := rfl
@[simp] theorem setObj_sel (h : Hw) (p i : Nat) (x : ObjRec) : (setObj h p i x).sel = h.sel := rfl
@[simp] theorem setObj_faults (h : Hw) (p i : Nat) (x : ObjRec) : (setObj h p i x).faults = h.faults := rfl
@[simp] theorem setObj_harts (h : Hw) (p i : Nat) (x : ObjRec) : (setObj h p i x).harts = h.harts := rfl
@[simp] theorem setObj_intTable (h : Hw) (p i : Nat) (x : ObjRec) : (setObj h p i x).intTable = h.intTable := rfl
@[simp] theorem setObj_intHalf (h : Hw) (p i : Nat) (x : ObjRec) : (setObj h p i x).intHalf = h.intHalf := rfl
@[simp] theorem setObj_imsic (h : Hw) (p i : Nat) (x : ObjRec) : (setObj h p i x).imsic = h.imsic := rfl
@[simp] theorem setObj_coh (h : Hw) (p i : Nat) (x : ObjRec) : (setObj h p i x).coh = h.coh := rfl
@[simp] theorem setObj_ecc (h : Hw) (p i : Nat) (x : ObjRec) : (setObj h p i x).ecc = h.ecc := rfl
@[simp] theorem setObj_memhw (h : Hw) (p i : Nat) (x : ObjRec) : (setObj h p i x).memhw = h.memhw := rfl
@[simp] theorem setObj_eng (h : Hw) (p i : Nat) (x : ObjRec) : (setObj h p i x).eng = h.eng := rfl
@[simp] theorem setObj_weaves (h : Hw) (p i : Nat) (x : ObjRec) : (setObj h p i x).weaves = h.weaves := rfl
@[simp] theorem setObj_sync (h : Hw) (p i : Nat) (x : ObjRec) : (setObj h p i x).sync = h.sync := rfl
@[simp] theorem setObj_edges (h : Hw) (p i : Nat) (x : ObjRec) : (setObj h p i x).edges = h.edges := rfl
@[simp] theorem setObj_power (h : Hw) (p i : Nat) (x : ObjRec) : (setObj h p i x).power = h.power := rfl
@[simp] theorem setObj_arch (h : Hw) (p i : Nat) (x : ObjRec) : (setObj h p i x).arch = h.arch := rfl
@[simp] theorem setObj_keep (h : Hw) (p i : Nat) (x : ObjRec) : (setObj h p i x).keep = h.keep := rfl
@[simp] theorem setObj_efano (h : Hw) (p i : Nat) (x : ObjRec) : (setObj h p i x).efano = h.efano := rfl
@[simp] theorem setObj_start (h : Hw) (p i : Nat) (x : ObjRec) : (setObj h p i x).start = h.start := rfl
@[simp] theorem setObj_free (h : Hw) (p i : Nat) (x : ObjRec) : (setObj h p i x).free = h.free := rfl
@[simp] theorem setObj_tiers_bobbin (h : Hw) (p i : Nat) (x : ObjRec) : (setObj h p i x).tiers.bobbin = h.tiers.bobbin := rfl
@[simp] theorem setObj_tiers_lost (h : Hw) (p i : Nat) (x : ObjRec) : (setObj h p i x).tiers.lost = h.tiers.lost := rfl
@[simp] theorem setObj_tiers_poison (h : Hw) (p i : Nat) (x : ObjRec) : (setObj h p i x).tiers.poison = h.tiers.poison := rfl
@[simp] theorem setObj_tiers_tags (h : Hw) (p i : Nat) (x : ObjRec) : (setObj h p i x).tiers.tags = h.tiers.tags := rfl
@[simp] theorem setObj_tiers_misses (h : Hw) (p i : Nat) (x : ObjRec) : (setObj h p i x).tiers.misses = h.tiers.misses := rfl

/-! ### setTag -/

@[simp] theorem setTag_ident (h : Hw) (l i : Nat) (x : BobTag) : (setTag h l i x).ident = h.ident := rfl
@[simp] theorem setTag_tb (h : Hw) (l i : Nat) (x : BobTag) : (setTag h l i x).tb = h.tb := rfl
@[simp] theorem setTag_islands (h : Hw) (l i : Nat) (x : BobTag) : (setTag h l i x).islands = h.islands := rfl
@[simp] theorem setTag_straits (h : Hw) (l i : Nat) (x : BobTag) : (setTag h l i x).straits = h.straits := rfl
@[simp] theorem setTag_locks (h : Hw) (l i : Nat) (x : BobTag) : (setTag h l i x).locks = h.locks := rfl
@[simp] theorem setTag_sel (h : Hw) (l i : Nat) (x : BobTag) : (setTag h l i x).sel = h.sel := rfl
@[simp] theorem setTag_faults (h : Hw) (l i : Nat) (x : BobTag) : (setTag h l i x).faults = h.faults := rfl
@[simp] theorem setTag_harts (h : Hw) (l i : Nat) (x : BobTag) : (setTag h l i x).harts = h.harts := rfl
@[simp] theorem setTag_intTable (h : Hw) (l i : Nat) (x : BobTag) : (setTag h l i x).intTable = h.intTable := rfl
@[simp] theorem setTag_intHalf (h : Hw) (l i : Nat) (x : BobTag) : (setTag h l i x).intHalf = h.intHalf := rfl
@[simp] theorem setTag_imsic (h : Hw) (l i : Nat) (x : BobTag) : (setTag h l i x).imsic = h.imsic := rfl
@[simp] theorem setTag_coh (h : Hw) (l i : Nat) (x : BobTag) : (setTag h l i x).coh = h.coh := rfl
@[simp] theorem setTag_ecc (h : Hw) (l i : Nat) (x : BobTag) : (setTag h l i x).ecc = h.ecc := rfl
@[simp] theorem setTag_memhw (h : Hw) (l i : Nat) (x : BobTag) : (setTag h l i x).memhw = h.memhw := rfl
@[simp] theorem setTag_eng (h : Hw) (l i : Nat) (x : BobTag) : (setTag h l i x).eng = h.eng := rfl
@[simp] theorem setTag_weaves (h : Hw) (l i : Nat) (x : BobTag) : (setTag h l i x).weaves = h.weaves := rfl
@[simp] theorem setTag_sync (h : Hw) (l i : Nat) (x : BobTag) : (setTag h l i x).sync = h.sync := rfl
@[simp] theorem setTag_edges (h : Hw) (l i : Nat) (x : BobTag) : (setTag h l i x).edges = h.edges := rfl
@[simp] theorem setTag_power (h : Hw) (l i : Nat) (x : BobTag) : (setTag h l i x).power = h.power := rfl
@[simp] theorem setTag_arch (h : Hw) (l i : Nat) (x : BobTag) : (setTag h l i x).arch = h.arch := rfl
@[simp] theorem setTag_keep (h : Hw) (l i : Nat) (x : BobTag) : (setTag h l i x).keep = h.keep := rfl
@[simp] theorem setTag_efano (h : Hw) (l i : Nat) (x : BobTag) : (setTag h l i x).efano = h.efano := rfl
@[simp] theorem setTag_start (h : Hw) (l i : Nat) (x : BobTag) : (setTag h l i x).start = h.start := rfl
@[simp] theorem setTag_free (h : Hw) (l i : Nat) (x : BobTag) : (setTag h l i x).free = h.free := rfl
@[simp] theorem setTag_tiers_bobbin (h : Hw) (l i : Nat) (x : BobTag) : (setTag h l i x).tiers.bobbin = h.tiers.bobbin := rfl
@[simp] theorem setTag_tiers_lost (h : Hw) (l i : Nat) (x : BobTag) : (setTag h l i x).tiers.lost = h.tiers.lost := rfl
@[simp] theorem setTag_tiers_poison (h : Hw) (l i : Nat) (x : BobTag) : (setTag h l i x).tiers.poison = h.tiers.poison := rfl
@[simp] theorem setTag_tiers_objects (h : Hw) (l i : Nat) (x : BobTag) : (setTag h l i x).tiers.objects = h.tiers.objects := rfl
@[simp] theorem setTag_tiers_misses (h : Hw) (l i : Nat) (x : BobTag) : (setTag h l i x).tiers.misses = h.tiers.misses := rfl

/-! ### putCache -/

@[simp] theorem putCache_ident (h : Hw) (c i : Nat) (x : CSet) : (putCache h c i x).ident = h.ident := rfl
@[simp] theorem putCache_tb (h : Hw) (c i : Nat) (x : CSet) : (putCache h c i x).tb = h.tb := rfl
@[simp] theorem putCache_islands (h : Hw) (c i : Nat) (x : CSet) : (putCache h c i x).islands = h.islands := rfl
@[simp] theorem putCache_straits (h : Hw) (c i : Nat) (x : CSet) : (putCache h c i x).straits = h.straits := rfl
@[simp] theorem putCache_locks (h : Hw) (c i : Nat) (x : CSet) : (putCache h c i x).locks = h.locks := rfl
@[simp] theorem putCache_sel (h : Hw) (c i : Nat) (x : CSet) : (putCache h c i x).sel = h.sel := rfl
@[simp] theorem putCache_faults (h : Hw) (c i : Nat) (x : CSet) : (putCache h c i x).faults = h.faults := rfl
@[simp] theorem putCache_harts (h : Hw) (c i : Nat) (x : CSet) : (putCache h c i x).harts = h.harts := rfl
@[simp] theorem putCache_intTable (h : Hw) (c i : Nat) (x : CSet) : (putCache h c i x).intTable = h.intTable := rfl
@[simp] theorem putCache_intHalf (h : Hw) (c i : Nat) (x : CSet) : (putCache h c i x).intHalf = h.intHalf := rfl
@[simp] theorem putCache_imsic (h : Hw) (c i : Nat) (x : CSet) : (putCache h c i x).imsic = h.imsic := rfl
@[simp] theorem putCache_ecc (h : Hw) (c i : Nat) (x : CSet) : (putCache h c i x).ecc = h.ecc := rfl
@[simp] theorem putCache_memhw (h : Hw) (c i : Nat) (x : CSet) : (putCache h c i x).memhw = h.memhw := rfl
@[simp] theorem putCache_eng (h : Hw) (c i : Nat) (x : CSet) : (putCache h c i x).eng = h.eng := rfl
@[simp] theorem putCache_tiers (h : Hw) (c i : Nat) (x : CSet) : (putCache h c i x).tiers = h.tiers := rfl
@[simp] theorem putCache_weaves (h : Hw) (c i : Nat) (x : CSet) : (putCache h c i x).weaves = h.weaves := rfl
@[simp] theorem putCache_sync (h : Hw) (c i : Nat) (x : CSet) : (putCache h c i x).sync = h.sync := rfl
@[simp] theorem putCache_edges (h : Hw) (c i : Nat) (x : CSet) : (putCache h c i x).edges = h.edges := rfl
@[simp] theorem putCache_power (h : Hw) (c i : Nat) (x : CSet) : (putCache h c i x).power = h.power := rfl
@[simp] theorem putCache_arch (h : Hw) (c i : Nat) (x : CSet) : (putCache h c i x).arch = h.arch := rfl
@[simp] theorem putCache_keep (h : Hw) (c i : Nat) (x : CSet) : (putCache h c i x).keep = h.keep := rfl
@[simp] theorem putCache_efano (h : Hw) (c i : Nat) (x : CSet) : (putCache h c i x).efano = h.efano := rfl
@[simp] theorem putCache_start (h : Hw) (c i : Nat) (x : CSet) : (putCache h c i x).start = h.start := rfl
@[simp] theorem putCache_free (h : Hw) (c i : Nat) (x : CSet) : (putCache h c i x).free = h.free := rfl
@[simp] theorem putCache_coh_dir (h : Hw) (c i : Nat) (x : CSet) : (putCache h c i x).coh.dir = h.coh.dir := rfl
@[simp] theorem putCache_coh_dirSets (h : Hw) (c i : Nat) (x : CSet) : (putCache h c i x).coh.dirSets = h.coh.dirSets := rfl
@[simp] theorem putCache_coh_wayOwner (h : Hw) (c i : Nat) (x : CSet) : (putCache h c i x).coh.wayOwner = h.coh.wayOwner := rfl
@[simp] theorem putCache_coh_split (h : Hw) (c i : Nat) (x : CSet) : (putCache h c i x).coh.split = h.coh.split := rfl
@[simp] theorem putCache_coh_answer (h : Hw) (c i : Nat) (x : CSet) : (putCache h c i x).coh.answer = h.coh.answer := rfl
@[simp] theorem putCache_coh_answerBad (h : Hw) (c i : Nat) (x : CSet) : (putCache h c i x).coh.answerBad = h.coh.answerBad := rfl
@[simp] theorem putCache_coh_proxies (h : Hw) (c i : Nat) (x : CSet) : (putCache h c i x).coh.proxies = h.coh.proxies := rfl
@[simp] theorem putCache_coh_unknown (h : Hw) (c i : Nat) (x : CSet) : (putCache h c i x).coh.unknown = h.coh.unknown := rfl
@[simp] theorem putCache_coh_poison (h : Hw) (c i : Nat) (x : CSet) : (putCache h c i x).coh.poison = h.coh.poison := rfl
@[simp] theorem putCache_coh_swPoison (h : Hw) (c i : Nat) (x : CSet) : (putCache h c i x).coh.swPoison = h.coh.swPoison := rfl
@[simp] theorem putCache_coh_answerPoison (h : Hw) (cache set : Nat) (c : CSet) : (putCache h cache set c).coh.answerPoison = h.coh.answerPoison := rfl
@[simp] theorem putCache_coh_mshrs (h : Hw) (cache set : Nat) (c : CSet) : (putCache h cache set c).coh.mshrs = h.coh.mshrs := rfl
@[simp] theorem putCache_coh_stalls (h : Hw) (cache set : Nat) (c : CSet) : (putCache h cache set c).coh.stalls = h.coh.stalls := rfl
@[simp] theorem putCache_coh_bypass (h : Hw) (cache set : Nat) (c : CSet) : (putCache h cache set c).coh.bypass = h.coh.bypass := rfl
@[simp] theorem putCache_coh_leaving (h : Hw) (cache set : Nat) (c : CSet) : (putCache h cache set c).coh.leaving = h.coh.leaving := rfl
@[simp] theorem putCache_coh_copies (h : Hw) (cache set : Nat) (c : CSet) : (putCache h cache set c).coh.copies = h.coh.copies := rfl
@[simp] theorem putCache_coh_restored (h : Hw) (cache set : Nat) (c : CSet) : (putCache h cache set c).coh.restored = h.coh.restored := rfl
@[simp] theorem putCache_coh_gone (h : Hw) (cache set : Nat) (c : CSet) : (putCache h cache set c).coh.gone = h.coh.gone := rfl

/-! ### putRun -/

@[simp] theorem putRun_ident (h : Hw) (r : Run) : (putRun h r).ident = h.ident := rfl
@[simp] theorem putRun_tb (h : Hw) (r : Run) : (putRun h r).tb = h.tb := rfl
@[simp] theorem putRun_islands (h : Hw) (r : Run) : (putRun h r).islands = h.islands := rfl
@[simp] theorem putRun_straits (h : Hw) (r : Run) : (putRun h r).straits = h.straits := rfl
@[simp] theorem putRun_locks (h : Hw) (r : Run) : (putRun h r).locks = h.locks := rfl
@[simp] theorem putRun_sel (h : Hw) (r : Run) : (putRun h r).sel = h.sel := rfl
@[simp] theorem putRun_faults (h : Hw) (r : Run) : (putRun h r).faults = h.faults := rfl
@[simp] theorem putRun_harts (h : Hw) (r : Run) : (putRun h r).harts = h.harts := rfl
@[simp] theorem putRun_intTable (h : Hw) (r : Run) : (putRun h r).intTable = h.intTable := rfl
@[simp] theorem putRun_intHalf (h : Hw) (r : Run) : (putRun h r).intHalf = h.intHalf := rfl
@[simp] theorem putRun_imsic (h : Hw) (r : Run) : (putRun h r).imsic = h.imsic := rfl
@[simp] theorem putRun_coh (h : Hw) (r : Run) : (putRun h r).coh = h.coh := rfl
@[simp] theorem putRun_ecc (h : Hw) (r : Run) : (putRun h r).ecc = h.ecc := rfl
@[simp] theorem putRun_memhw (h : Hw) (r : Run) : (putRun h r).memhw = h.memhw := rfl
@[simp] theorem putRun_eng (h : Hw) (r : Run) : (putRun h r).eng = h.eng := rfl
@[simp] theorem putRun_tiers (h : Hw) (r : Run) : (putRun h r).tiers = h.tiers := rfl
@[simp] theorem putRun_sync (h : Hw) (r : Run) : (putRun h r).sync = h.sync := rfl
@[simp] theorem putRun_edges (h : Hw) (r : Run) : (putRun h r).edges = h.edges := rfl
@[simp] theorem putRun_power (h : Hw) (r : Run) : (putRun h r).power = h.power := rfl
@[simp] theorem putRun_arch (h : Hw) (r : Run) : (putRun h r).arch = h.arch := rfl
@[simp] theorem putRun_keep (h : Hw) (r : Run) : (putRun h r).keep = h.keep := rfl
@[simp] theorem putRun_efano (h : Hw) (r : Run) : (putRun h r).efano = h.efano := rfl
@[simp] theorem putRun_start (h : Hw) (r : Run) : (putRun h r).start = h.start := rfl
@[simp] theorem putRun_free (h : Hw) (r : Run) : (putRun h r).free = h.free := rfl
@[simp] theorem putRun_weaves_looms (h : Hw) (r : Run) : (putRun h r).weaves.looms = h.weaves.looms := rfl
@[simp] theorem putRun_weaves_fmode (h : Hw) (r : Run) : (putRun h r).weaves.fmode = h.weaves.fmode := rfl
@[simp] theorem putRun_weaves_stamp (h : Hw) (r : Run) : (putRun h r).weaves.stamp = h.weaves.stamp := rfl

/-! ### setFront -/

@[simp] theorem setFront_ident (h : Hw) (g : Nat) (f : FrontEnd) : (setFront h g f).ident = h.ident := rfl
@[simp] theorem setFront_tb (h : Hw) (g : Nat) (f : FrontEnd) : (setFront h g f).tb = h.tb := rfl
@[simp] theorem setFront_islands (h : Hw) (g : Nat) (f : FrontEnd) : (setFront h g f).islands = h.islands := rfl
@[simp] theorem setFront_straits (h : Hw) (g : Nat) (f : FrontEnd) : (setFront h g f).straits = h.straits := rfl
@[simp] theorem setFront_locks (h : Hw) (g : Nat) (f : FrontEnd) : (setFront h g f).locks = h.locks := rfl
@[simp] theorem setFront_sel (h : Hw) (g : Nat) (f : FrontEnd) : (setFront h g f).sel = h.sel := rfl
@[simp] theorem setFront_faults (h : Hw) (g : Nat) (f : FrontEnd) : (setFront h g f).faults = h.faults := rfl
@[simp] theorem setFront_harts (h : Hw) (g : Nat) (f : FrontEnd) : (setFront h g f).harts = h.harts := rfl
@[simp] theorem setFront_intTable (h : Hw) (g : Nat) (f : FrontEnd) : (setFront h g f).intTable = h.intTable := rfl
@[simp] theorem setFront_intHalf (h : Hw) (g : Nat) (f : FrontEnd) : (setFront h g f).intHalf = h.intHalf := rfl
@[simp] theorem setFront_imsic (h : Hw) (g : Nat) (f : FrontEnd) : (setFront h g f).imsic = h.imsic := rfl
@[simp] theorem setFront_coh (h : Hw) (g : Nat) (f : FrontEnd) : (setFront h g f).coh = h.coh := rfl
@[simp] theorem setFront_ecc (h : Hw) (g : Nat) (f : FrontEnd) : (setFront h g f).ecc = h.ecc := rfl
@[simp] theorem setFront_memhw (h : Hw) (g : Nat) (f : FrontEnd) : (setFront h g f).memhw = h.memhw := rfl
@[simp] theorem setFront_tiers (h : Hw) (g : Nat) (f : FrontEnd) : (setFront h g f).tiers = h.tiers := rfl
@[simp] theorem setFront_weaves (h : Hw) (g : Nat) (f : FrontEnd) : (setFront h g f).weaves = h.weaves := rfl
@[simp] theorem setFront_sync (h : Hw) (g : Nat) (f : FrontEnd) : (setFront h g f).sync = h.sync := rfl
@[simp] theorem setFront_edges (h : Hw) (g : Nat) (f : FrontEnd) : (setFront h g f).edges = h.edges := rfl
@[simp] theorem setFront_power (h : Hw) (g : Nat) (f : FrontEnd) : (setFront h g f).power = h.power := rfl
@[simp] theorem setFront_arch (h : Hw) (g : Nat) (f : FrontEnd) : (setFront h g f).arch = h.arch := rfl
@[simp] theorem setFront_keep (h : Hw) (g : Nat) (f : FrontEnd) : (setFront h g f).keep = h.keep := rfl
@[simp] theorem setFront_efano (h : Hw) (g : Nat) (f : FrontEnd) : (setFront h g f).efano = h.efano := rfl
@[simp] theorem setFront_start (h : Hw) (g : Nat) (f : FrontEnd) : (setFront h g f).start = h.start := rfl
@[simp] theorem setFront_free (h : Hw) (g : Nat) (f : FrontEnd) : (setFront h g f).free = h.free := rfl
@[simp] theorem setFront_eng_slips (h : Hw) (g : Nat) (f : FrontEnd) : (setFront h g f).eng.slips = h.eng.slips := rfl
@[simp] theorem setFront_eng_epochs (h : Hw) (g : Nat) (f : FrontEnd) : (setFront h g f).eng.epochs = h.eng.epochs := rfl
@[simp] theorem setFront_eng_fetchArb (h : Hw) (g : Nat) (f : FrontEnd) : (setFront h g f).eng.fetchArb = h.eng.fetchArb := rfl
@[simp] theorem setFront_eng_dispArb (h : Hw) (g : Nat) (f : FrontEnd) : (setFront h g f).eng.dispArb = h.eng.dispArb := rfl
@[simp] theorem setFront_eng_stamp (h : Hw) (g : Nat) (f : FrontEnd) : (setFront h g f).eng.stamp = h.eng.stamp := rfl
@[simp] theorem setFront_eng_leaves (h : Hw) (g : Nat) (f : FrontEnd) : (setFront h g f).eng.leaves = h.eng.leaves := rfl
@[simp] theorem setFront_eng_kept (h : Hw) (g : Nat) (f : FrontEnd) : (setFront h g f).eng.kept = h.eng.kept := rfl
@[simp] theorem setFront_eng_outs (h : Hw) (g : Nat) (f : FrontEnd) : (setFront h g f).eng.outs = h.eng.outs := rfl
theorem frontAt_setFront_same (h : Hw) (g : Nat) (f : FrontEnd) (hw : tabWf ({} : FrontEnd) h.eng.fronts = true) :
    frontAt (setFront h g f) g = f :=
  tabGet_put_same _ _ _ hw
theorem frontAt_setFront_ne (h : Hw) (g : Nat) (f : FrontEnd) (hf : f ≠ ({} : FrontEnd)) : frontAt (setFront h g f) g = f :=
  tabGet_put_ne _ _ _ hf
@[simp] theorem frontAt_setFront_other (h : Hw) {g k : Nat} (f : FrontEnd) (hk : k ≠ g) : frontAt (setFront h g f) k = frontAt h k :=
  tabGet_put_other _ _ _ hk

/-! ### setOuts -/

@[simp] theorem setOuts_ident (h : Hw) (os : List FerryOut) : (setOuts h os).ident = h.ident := rfl
@[simp] theorem setOuts_tb (h : Hw) (os : List FerryOut) : (setOuts h os).tb = h.tb := rfl
@[simp] theorem setOuts_islands (h : Hw) (os : List FerryOut) : (setOuts h os).islands = h.islands := rfl
@[simp] theorem setOuts_straits (h : Hw) (os : List FerryOut) : (setOuts h os).straits = h.straits := rfl
@[simp] theorem setOuts_locks (h : Hw) (os : List FerryOut) : (setOuts h os).locks = h.locks := rfl
@[simp] theorem setOuts_sel (h : Hw) (os : List FerryOut) : (setOuts h os).sel = h.sel := rfl
@[simp] theorem setOuts_faults (h : Hw) (os : List FerryOut) : (setOuts h os).faults = h.faults := rfl
@[simp] theorem setOuts_harts (h : Hw) (os : List FerryOut) : (setOuts h os).harts = h.harts := rfl
@[simp] theorem setOuts_intTable (h : Hw) (os : List FerryOut) : (setOuts h os).intTable = h.intTable := rfl
@[simp] theorem setOuts_intHalf (h : Hw) (os : List FerryOut) : (setOuts h os).intHalf = h.intHalf := rfl
@[simp] theorem setOuts_imsic (h : Hw) (os : List FerryOut) : (setOuts h os).imsic = h.imsic := rfl
@[simp] theorem setOuts_coh (h : Hw) (os : List FerryOut) : (setOuts h os).coh = h.coh := rfl
@[simp] theorem setOuts_ecc (h : Hw) (os : List FerryOut) : (setOuts h os).ecc = h.ecc := rfl
@[simp] theorem setOuts_memhw (h : Hw) (os : List FerryOut) : (setOuts h os).memhw = h.memhw := rfl
@[simp] theorem setOuts_tiers (h : Hw) (os : List FerryOut) : (setOuts h os).tiers = h.tiers := rfl
@[simp] theorem setOuts_weaves (h : Hw) (os : List FerryOut) : (setOuts h os).weaves = h.weaves := rfl
@[simp] theorem setOuts_sync (h : Hw) (os : List FerryOut) : (setOuts h os).sync = h.sync := rfl
@[simp] theorem setOuts_edges (h : Hw) (os : List FerryOut) : (setOuts h os).edges = h.edges := rfl
@[simp] theorem setOuts_power (h : Hw) (os : List FerryOut) : (setOuts h os).power = h.power := rfl
@[simp] theorem setOuts_arch (h : Hw) (os : List FerryOut) : (setOuts h os).arch = h.arch := rfl
@[simp] theorem setOuts_keep (h : Hw) (os : List FerryOut) : (setOuts h os).keep = h.keep := rfl
@[simp] theorem setOuts_efano (h : Hw) (os : List FerryOut) : (setOuts h os).efano = h.efano := rfl
@[simp] theorem setOuts_start (h : Hw) (os : List FerryOut) : (setOuts h os).start = h.start := rfl
@[simp] theorem setOuts_free (h : Hw) (os : List FerryOut) : (setOuts h os).free = h.free := rfl
@[simp] theorem setOuts_eng_slips (h : Hw) (os : List FerryOut) : (setOuts h os).eng.slips = h.eng.slips := rfl
@[simp] theorem setOuts_eng_epochs (h : Hw) (os : List FerryOut) : (setOuts h os).eng.epochs = h.eng.epochs := rfl
@[simp] theorem setOuts_eng_fetchArb (h : Hw) (os : List FerryOut) : (setOuts h os).eng.fetchArb = h.eng.fetchArb := rfl
@[simp] theorem setOuts_eng_dispArb (h : Hw) (os : List FerryOut) : (setOuts h os).eng.dispArb = h.eng.dispArb := rfl
@[simp] theorem setOuts_eng_stamp (h : Hw) (os : List FerryOut) : (setOuts h os).eng.stamp = h.eng.stamp := rfl
@[simp] theorem setOuts_eng_fronts (h : Hw) (os : List FerryOut) : (setOuts h os).eng.fronts = h.eng.fronts := rfl
@[simp] theorem setOuts_eng_leaves (h : Hw) (os : List FerryOut) : (setOuts h os).eng.leaves = h.eng.leaves := rfl
@[simp] theorem setOuts_eng_kept (h : Hw) (os : List FerryOut) : (setOuts h os).eng.kept = h.eng.kept := rfl
@[simp] theorem setOuts_eng_outs (h : Hw) (os : List FerryOut) : (setOuts h os).eng.outs = os := rfl

/-! ### setCwPort -/

@[simp] theorem setCwPort_ident (h : Hw) (p : Nat) (x : CwPort) : (setCwPort h p x).ident = h.ident := by unfold setCwPort; split <;> rfl
@[simp] theorem setCwPort_tb (h : Hw) (p : Nat) (x : CwPort) : (setCwPort h p x).tb = h.tb := by unfold setCwPort; split <;> rfl
@[simp] theorem setCwPort_islands (h : Hw) (p : Nat) (x : CwPort) : (setCwPort h p x).islands = h.islands := by unfold setCwPort; split <;> rfl
@[simp] theorem setCwPort_straits (h : Hw) (p : Nat) (x : CwPort) : (setCwPort h p x).straits = h.straits := by unfold setCwPort; split <;> rfl
@[simp] theorem setCwPort_locks (h : Hw) (p : Nat) (x : CwPort) : (setCwPort h p x).locks = h.locks := by unfold setCwPort; split <;> rfl
@[simp] theorem setCwPort_sel (h : Hw) (p : Nat) (x : CwPort) : (setCwPort h p x).sel = h.sel := by unfold setCwPort; split <;> rfl
@[simp] theorem setCwPort_faults (h : Hw) (p : Nat) (x : CwPort) : (setCwPort h p x).faults = h.faults := by unfold setCwPort; split <;> rfl
@[simp] theorem setCwPort_harts (h : Hw) (p : Nat) (x : CwPort) : (setCwPort h p x).harts = h.harts := by unfold setCwPort; split <;> rfl
@[simp] theorem setCwPort_intTable (h : Hw) (p : Nat) (x : CwPort) : (setCwPort h p x).intTable = h.intTable := by unfold setCwPort; split <;> rfl
@[simp] theorem setCwPort_intHalf (h : Hw) (p : Nat) (x : CwPort) : (setCwPort h p x).intHalf = h.intHalf := by unfold setCwPort; split <;> rfl
@[simp] theorem setCwPort_imsic (h : Hw) (p : Nat) (x : CwPort) : (setCwPort h p x).imsic = h.imsic := by unfold setCwPort; split <;> rfl
@[simp] theorem setCwPort_coh (h : Hw) (p : Nat) (x : CwPort) : (setCwPort h p x).coh = h.coh := by unfold setCwPort; split <;> rfl
@[simp] theorem setCwPort_ecc (h : Hw) (p : Nat) (x : CwPort) : (setCwPort h p x).ecc = h.ecc := by unfold setCwPort; split <;> rfl
@[simp] theorem setCwPort_memhw (h : Hw) (p : Nat) (x : CwPort) : (setCwPort h p x).memhw = h.memhw := by unfold setCwPort; split <;> rfl
@[simp] theorem setCwPort_eng (h : Hw) (p : Nat) (x : CwPort) : (setCwPort h p x).eng = h.eng := by unfold setCwPort; split <;> rfl
@[simp] theorem setCwPort_tiers (h : Hw) (p : Nat) (x : CwPort) : (setCwPort h p x).tiers = h.tiers := by unfold setCwPort; split <;> rfl
@[simp] theorem setCwPort_weaves (h : Hw) (p : Nat) (x : CwPort) : (setCwPort h p x).weaves = h.weaves := by unfold setCwPort; split <;> rfl
@[simp] theorem setCwPort_sync (h : Hw) (p : Nat) (x : CwPort) : (setCwPort h p x).sync = h.sync := by unfold setCwPort; split <;> rfl
@[simp] theorem setCwPort_edges (h : Hw) (p : Nat) (x : CwPort) : (setCwPort h p x).edges = h.edges := by unfold setCwPort; split <;> rfl
@[simp] theorem setCwPort_power (h : Hw) (p : Nat) (x : CwPort) : (setCwPort h p x).power = h.power := by unfold setCwPort; split <;> rfl
@[simp] theorem setCwPort_keep (h : Hw) (p : Nat) (x : CwPort) : (setCwPort h p x).keep = h.keep := by unfold setCwPort; split <;> rfl
@[simp] theorem setCwPort_efano (h : Hw) (p : Nat) (x : CwPort) : (setCwPort h p x).efano = h.efano := by unfold setCwPort; split <;> rfl
@[simp] theorem setCwPort_start (h : Hw) (p : Nat) (x : CwPort) : (setCwPort h p x).start = h.start := by unfold setCwPort; split <;> rfl
@[simp] theorem setCwPort_free (h : Hw) (p : Nat) (x : CwPort) : (setCwPort h p x).free = h.free := by unfold setCwPort; split <;> rfl
@[simp] theorem cwPort_setCwPort_same (h : Hw) (p : Nat) (x : CwPort) : cwPort (setCwPort h p x) p = x := by
  unfold setCwPort cwPort; split <;> rfl
theorem cwPort_setCwPort_other (h : Hw) {p q : Nat} (x : CwPort) (hq : ¬ (p = 0 ↔ q = 0)) : cwPort (setCwPort h p x) q = cwPort h q := by
  unfold setCwPort cwPort; by_cases hp : p = 0 <;> by_cases h0 : q = 0 <;> simp_all

end Sys2Proof.Machine
end

