-- ==== Sys2Proof/Laws/Records.lean ====
section
/-! SUPPORT. What a fault record can change (R567 to R583, R710): the queues, the log, the debug UART, the interrupt files, the note of an
interrupt that ends a low-power state and the free values taken, and nothing else; and what ending a descriptor leaves alone. -/
namespace Sys2Proof.Machine

@[simp] theorem imsicSet_ident (h : Hw) (n k v : Nat) : (imsicSet h n k v).ident = h.ident := by
  simp only [imsicSet, noteIrq, apply_ite Hw.ident, ite_self]
@[simp] theorem deliverEntry_ident (h : Hw) (p v : Nat) : (deliverEntry h p v).ident = h.ident := by
  simp only [deliverEntry, apply_ite Hw.ident, imsicSet_ident, ite_self]
@[simp] theorem raise_ident (h : Hw) (p e : Nat) : (raise h p e).ident = h.ident := by
  simp only [raise, takeFree, apply_ite Hw.ident, deliverEntry_ident, ite_self]
@[simp] theorem queueWrite_ident (h : Hw) (q : Nat) (r : FaultRec) : (queueWrite h q r).ident = h.ident := by
  simp only [queueWrite, setQueue, apply_ite Hw.ident, raise_ident, ite_self]
@[simp] theorem logWrite_ident (h : Hw) (r : FaultRec) : (logWrite h r).ident = h.ident := by
  simp only [logWrite, apply_ite Hw.ident, ite_self]
@[simp] theorem recordWrite_ident (h : Hw) (r : FaultRec) : (recordWrite h r).ident = h.ident := by
  simp only [recordWrite, apply_ite Hw.ident, queueWrite_ident, logWrite_ident, ite_self]

@[simp] theorem imsicSet_tb (h : Hw) (n k v : Nat) : (imsicSet h n k v).tb = h.tb := by
  simp only [imsicSet, noteIrq, apply_ite Hw.tb, ite_self]
@[simp] theorem deliverEntry_tb (h : Hw) (p v : Nat) : (deliverEntry h p v).tb = h.tb := by
  simp only [deliverEntry, apply_ite Hw.tb, imsicSet_tb, ite_self]
@[simp] theorem raise_tb (h : Hw) (p e : Nat) : (raise h p e).tb = h.tb := by
  simp only [raise, takeFree, apply_ite Hw.tb, deliverEntry_tb, ite_self]
@[simp] theorem queueWrite_tb (h : Hw) (q : Nat) (r : FaultRec) : (queueWrite h q r).tb = h.tb := by
  simp only [queueWrite, setQueue, apply_ite Hw.tb, raise_tb, ite_self]
@[simp] theorem logWrite_tb (h : Hw) (r : FaultRec) : (logWrite h r).tb = h.tb := by
  simp only [logWrite, apply_ite Hw.tb, ite_self]
@[simp] theorem recordWrite_tb (h : Hw) (r : FaultRec) : (recordWrite h r).tb = h.tb := by
  simp only [recordWrite, apply_ite Hw.tb, queueWrite_tb, logWrite_tb, ite_self]

@[simp] theorem imsicSet_islands (h : Hw) (n k v : Nat) : (imsicSet h n k v).islands = h.islands := by
  simp only [imsicSet, noteIrq, apply_ite Hw.islands, ite_self]
@[simp] theorem deliverEntry_islands (h : Hw) (p v : Nat) : (deliverEntry h p v).islands = h.islands := by
  simp only [deliverEntry, apply_ite Hw.islands, imsicSet_islands, ite_self]
@[simp] theorem raise_islands (h : Hw) (p e : Nat) : (raise h p e).islands = h.islands := by
  simp only [raise, takeFree, apply_ite Hw.islands, deliverEntry_islands, ite_self]
@[simp] theorem queueWrite_islands (h : Hw) (q : Nat) (r : FaultRec) : (queueWrite h q r).islands = h.islands := by
  simp only [queueWrite, setQueue, apply_ite Hw.islands, raise_islands, ite_self]
@[simp] theorem logWrite_islands (h : Hw) (r : FaultRec) : (logWrite h r).islands = h.islands := by
  simp only [logWrite, apply_ite Hw.islands, ite_self]
@[simp] theorem recordWrite_islands (h : Hw) (r : FaultRec) : (recordWrite h r).islands = h.islands := by
  simp only [recordWrite, apply_ite Hw.islands, queueWrite_islands, logWrite_islands, ite_self]

@[simp] theorem imsicSet_straits (h : Hw) (n k v : Nat) : (imsicSet h n k v).straits = h.straits := by
  simp only [imsicSet, noteIrq, apply_ite Hw.straits, ite_self]
@[simp] theorem deliverEntry_straits (h : Hw) (p v : Nat) : (deliverEntry h p v).straits = h.straits := by
  simp only [deliverEntry, apply_ite Hw.straits, imsicSet_straits, ite_self]
@[simp] theorem raise_straits (h : Hw) (p e : Nat) : (raise h p e).straits = h.straits := by
  simp only [raise, takeFree, apply_ite Hw.straits, deliverEntry_straits, ite_self]
@[simp] theorem queueWrite_straits (h : Hw) (q : Nat) (r : FaultRec) : (queueWrite h q r).straits = h.straits := by
  simp only [queueWrite, setQueue, apply_ite Hw.straits, raise_straits, ite_self]
@[simp] theorem logWrite_straits (h : Hw) (r : FaultRec) : (logWrite h r).straits = h.straits := by
  simp only [logWrite, apply_ite Hw.straits, ite_self]
@[simp] theorem recordWrite_straits (h : Hw) (r : FaultRec) : (recordWrite h r).straits = h.straits := by
  simp only [recordWrite, apply_ite Hw.straits, queueWrite_straits, logWrite_straits, ite_self]

@[simp] theorem imsicSet_locks (h : Hw) (n k v : Nat) : (imsicSet h n k v).locks = h.locks := by
  simp only [imsicSet, noteIrq, apply_ite Hw.locks, ite_self]
@[simp] theorem deliverEntry_locks (h : Hw) (p v : Nat) : (deliverEntry h p v).locks = h.locks := by
  simp only [deliverEntry, apply_ite Hw.locks, imsicSet_locks, ite_self]
@[simp] theorem raise_locks (h : Hw) (p e : Nat) : (raise h p e).locks = h.locks := by
  simp only [raise, takeFree, apply_ite Hw.locks, deliverEntry_locks, ite_self]
@[simp] theorem queueWrite_locks (h : Hw) (q : Nat) (r : FaultRec) : (queueWrite h q r).locks = h.locks := by
  simp only [queueWrite, setQueue, apply_ite Hw.locks, raise_locks, ite_self]
@[simp] theorem logWrite_locks (h : Hw) (r : FaultRec) : (logWrite h r).locks = h.locks := by
  simp only [logWrite, apply_ite Hw.locks, ite_self]
@[simp] theorem recordWrite_locks (h : Hw) (r : FaultRec) : (recordWrite h r).locks = h.locks := by
  simp only [recordWrite, apply_ite Hw.locks, queueWrite_locks, logWrite_locks, ite_self]

@[simp] theorem imsicSet_sel (h : Hw) (n k v : Nat) : (imsicSet h n k v).sel = h.sel := by
  simp only [imsicSet, noteIrq, apply_ite Hw.sel, ite_self]
@[simp] theorem deliverEntry_sel (h : Hw) (p v : Nat) : (deliverEntry h p v).sel = h.sel := by
  simp only [deliverEntry, apply_ite Hw.sel, imsicSet_sel, ite_self]
@[simp] theorem raise_sel (h : Hw) (p e : Nat) : (raise h p e).sel = h.sel := by
  simp only [raise, takeFree, apply_ite Hw.sel, deliverEntry_sel, ite_self]
@[simp] theorem queueWrite_sel (h : Hw) (q : Nat) (r : FaultRec) : (queueWrite h q r).sel = h.sel := by
  simp only [queueWrite, setQueue, apply_ite Hw.sel, raise_sel, ite_self]
@[simp] theorem logWrite_sel (h : Hw) (r : FaultRec) : (logWrite h r).sel = h.sel := by
  simp only [logWrite, apply_ite Hw.sel, ite_self]
@[simp] theorem recordWrite_sel (h : Hw) (r : FaultRec) : (recordWrite h r).sel = h.sel := by
  simp only [recordWrite, apply_ite Hw.sel, queueWrite_sel, logWrite_sel, ite_self]

@[simp] theorem imsicSet_harts (h : Hw) (n k v : Nat) : (imsicSet h n k v).harts = h.harts := by
  simp only [imsicSet, noteIrq, apply_ite Hw.harts, ite_self]
@[simp] theorem deliverEntry_harts (h : Hw) (p v : Nat) : (deliverEntry h p v).harts = h.harts := by
  simp only [deliverEntry, apply_ite Hw.harts, imsicSet_harts, ite_self]
@[simp] theorem raise_harts (h : Hw) (p e : Nat) : (raise h p e).harts = h.harts := by
  simp only [raise, takeFree, apply_ite Hw.harts, deliverEntry_harts, ite_self]
@[simp] theorem queueWrite_harts (h : Hw) (q : Nat) (r : FaultRec) : (queueWrite h q r).harts = h.harts := by
  simp only [queueWrite, setQueue, apply_ite Hw.harts, raise_harts, ite_self]
@[simp] theorem logWrite_harts (h : Hw) (r : FaultRec) : (logWrite h r).harts = h.harts := by
  simp only [logWrite, apply_ite Hw.harts, ite_self]
@[simp] theorem recordWrite_harts (h : Hw) (r : FaultRec) : (recordWrite h r).harts = h.harts := by
  simp only [recordWrite, apply_ite Hw.harts, queueWrite_harts, logWrite_harts, ite_self]

@[simp] theorem imsicSet_intTable (h : Hw) (n k v : Nat) : (imsicSet h n k v).intTable = h.intTable := by
  simp only [imsicSet, noteIrq, apply_ite Hw.intTable, ite_self]
@[simp] theorem deliverEntry_intTable (h : Hw) (p v : Nat) : (deliverEntry h p v).intTable = h.intTable := by
  simp only [deliverEntry, apply_ite Hw.intTable, imsicSet_intTable, ite_self]
@[simp] theorem raise_intTable (h : Hw) (p e : Nat) : (raise h p e).intTable = h.intTable := by
  simp only [raise, takeFree, apply_ite Hw.intTable, deliverEntry_intTable, ite_self]
@[simp] theorem queueWrite_intTable (h : Hw) (q : Nat) (r : FaultRec) : (queueWrite h q r).intTable = h.intTable := by
  simp only [queueWrite, setQueue, apply_ite Hw.intTable, raise_intTable, ite_self]
@[simp] theorem logWrite_intTable (h : Hw) (r : FaultRec) : (logWrite h r).intTable = h.intTable := by
  simp only [logWrite, apply_ite Hw.intTable, ite_self]
@[simp] theorem recordWrite_intTable (h : Hw) (r : FaultRec) : (recordWrite h r).intTable = h.intTable := by
  simp only [recordWrite, apply_ite Hw.intTable, queueWrite_intTable, logWrite_intTable, ite_self]

@[simp] theorem imsicSet_intHalf (h : Hw) (n k v : Nat) : (imsicSet h n k v).intHalf = h.intHalf := by
  simp only [imsicSet, noteIrq, apply_ite Hw.intHalf, ite_self]
@[simp] theorem deliverEntry_intHalf (h : Hw) (p v : Nat) : (deliverEntry h p v).intHalf = h.intHalf := by
  simp only [deliverEntry, apply_ite Hw.intHalf, imsicSet_intHalf, ite_self]
@[simp] theorem raise_intHalf (h : Hw) (p e : Nat) : (raise h p e).intHalf = h.intHalf := by
  simp only [raise, takeFree, apply_ite Hw.intHalf, deliverEntry_intHalf, ite_self]
@[simp] theorem queueWrite_intHalf (h : Hw) (q : Nat) (r : FaultRec) : (queueWrite h q r).intHalf = h.intHalf := by
  simp only [queueWrite, setQueue, apply_ite Hw.intHalf, raise_intHalf, ite_self]
@[simp] theorem logWrite_intHalf (h : Hw) (r : FaultRec) : (logWrite h r).intHalf = h.intHalf := by
  simp only [logWrite, apply_ite Hw.intHalf, ite_self]
@[simp] theorem recordWrite_intHalf (h : Hw) (r : FaultRec) : (recordWrite h r).intHalf = h.intHalf := by
  simp only [recordWrite, apply_ite Hw.intHalf, queueWrite_intHalf, logWrite_intHalf, ite_self]

@[simp] theorem imsicSet_coh (h : Hw) (n k v : Nat) : (imsicSet h n k v).coh = h.coh := by
  simp only [imsicSet, noteIrq, apply_ite Hw.coh, ite_self]
@[simp] theorem deliverEntry_coh (h : Hw) (p v : Nat) : (deliverEntry h p v).coh = h.coh := by
  simp only [deliverEntry, apply_ite Hw.coh, imsicSet_coh, ite_self]
@[simp] theorem raise_coh (h : Hw) (p e : Nat) : (raise h p e).coh = h.coh := by
  simp only [raise, takeFree, apply_ite Hw.coh, deliverEntry_coh, ite_self]
@[simp] theorem queueWrite_coh (h : Hw) (q : Nat) (r : FaultRec) : (queueWrite h q r).coh = h.coh := by
  simp only [queueWrite, setQueue, apply_ite Hw.coh, raise_coh, ite_self]
@[simp] theorem logWrite_coh (h : Hw) (r : FaultRec) : (logWrite h r).coh = h.coh := by
  simp only [logWrite, apply_ite Hw.coh, ite_self]
@[simp] theorem recordWrite_coh (h : Hw) (r : FaultRec) : (recordWrite h r).coh = h.coh := by
  simp only [recordWrite, apply_ite Hw.coh, queueWrite_coh, logWrite_coh, ite_self]

@[simp] theorem imsicSet_ecc (h : Hw) (n k v : Nat) : (imsicSet h n k v).ecc = h.ecc := by
  simp only [imsicSet, noteIrq, apply_ite Hw.ecc, ite_self]
@[simp] theorem deliverEntry_ecc (h : Hw) (p v : Nat) : (deliverEntry h p v).ecc = h.ecc := by
  simp only [deliverEntry, apply_ite Hw.ecc, imsicSet_ecc, ite_self]
@[simp] theorem raise_ecc (h : Hw) (p e : Nat) : (raise h p e).ecc = h.ecc := by
  simp only [raise, takeFree, apply_ite Hw.ecc, deliverEntry_ecc, ite_self]
@[simp] theorem queueWrite_ecc (h : Hw) (q : Nat) (r : FaultRec) : (queueWrite h q r).ecc = h.ecc := by
  simp only [queueWrite, setQueue, apply_ite Hw.ecc, raise_ecc, ite_self]
@[simp] theorem logWrite_ecc (h : Hw) (r : FaultRec) : (logWrite h r).ecc = h.ecc := by
  simp only [logWrite, apply_ite Hw.ecc, ite_self]
@[simp] theorem recordWrite_ecc (h : Hw) (r : FaultRec) : (recordWrite h r).ecc = h.ecc := by
  simp only [recordWrite, apply_ite Hw.ecc, queueWrite_ecc, logWrite_ecc, ite_self]

@[simp] theorem imsicSet_memhw (h : Hw) (n k v : Nat) : (imsicSet h n k v).memhw = h.memhw := by
  simp only [imsicSet, noteIrq, apply_ite Hw.memhw, ite_self]
@[simp] theorem deliverEntry_memhw (h : Hw) (p v : Nat) : (deliverEntry h p v).memhw = h.memhw := by
  simp only [deliverEntry, apply_ite Hw.memhw, imsicSet_memhw, ite_self]
@[simp] theorem raise_memhw (h : Hw) (p e : Nat) : (raise h p e).memhw = h.memhw := by
  simp only [raise, takeFree, apply_ite Hw.memhw, deliverEntry_memhw, ite_self]
@[simp] theorem queueWrite_memhw (h : Hw) (q : Nat) (r : FaultRec) : (queueWrite h q r).memhw = h.memhw := by
  simp only [queueWrite, setQueue, apply_ite Hw.memhw, raise_memhw, ite_self]
@[simp] theorem logWrite_memhw (h : Hw) (r : FaultRec) : (logWrite h r).memhw = h.memhw := by
  simp only [logWrite, apply_ite Hw.memhw, ite_self]
@[simp] theorem recordWrite_memhw (h : Hw) (r : FaultRec) : (recordWrite h r).memhw = h.memhw := by
  simp only [recordWrite, apply_ite Hw.memhw, queueWrite_memhw, logWrite_memhw, ite_self]

@[simp] theorem imsicSet_eng (h : Hw) (n k v : Nat) : (imsicSet h n k v).eng = h.eng := by
  simp only [imsicSet, noteIrq, apply_ite Hw.eng, ite_self]
@[simp] theorem deliverEntry_eng (h : Hw) (p v : Nat) : (deliverEntry h p v).eng = h.eng := by
  simp only [deliverEntry, apply_ite Hw.eng, imsicSet_eng, ite_self]
@[simp] theorem raise_eng (h : Hw) (p e : Nat) : (raise h p e).eng = h.eng := by
  simp only [raise, takeFree, apply_ite Hw.eng, deliverEntry_eng, ite_self]
@[simp] theorem queueWrite_eng (h : Hw) (q : Nat) (r : FaultRec) : (queueWrite h q r).eng = h.eng := by
  simp only [queueWrite, setQueue, apply_ite Hw.eng, raise_eng, ite_self]
@[simp] theorem logWrite_eng (h : Hw) (r : FaultRec) : (logWrite h r).eng = h.eng := by
  simp only [logWrite, apply_ite Hw.eng, ite_self]
@[simp] theorem recordWrite_eng (h : Hw) (r : FaultRec) : (recordWrite h r).eng = h.eng := by
  simp only [recordWrite, apply_ite Hw.eng, queueWrite_eng, logWrite_eng, ite_self]

@[simp] theorem imsicSet_tiers (h : Hw) (n k v : Nat) : (imsicSet h n k v).tiers = h.tiers := by
  simp only [imsicSet, noteIrq, apply_ite Hw.tiers, ite_self]
@[simp] theorem deliverEntry_tiers (h : Hw) (p v : Nat) : (deliverEntry h p v).tiers = h.tiers := by
  simp only [deliverEntry, apply_ite Hw.tiers, imsicSet_tiers, ite_self]
@[simp] theorem raise_tiers (h : Hw) (p e : Nat) : (raise h p e).tiers = h.tiers := by
  simp only [raise, takeFree, apply_ite Hw.tiers, deliverEntry_tiers, ite_self]
@[simp] theorem queueWrite_tiers (h : Hw) (q : Nat) (r : FaultRec) : (queueWrite h q r).tiers = h.tiers := by
  simp only [queueWrite, setQueue, apply_ite Hw.tiers, raise_tiers, ite_self]
@[simp] theorem logWrite_tiers (h : Hw) (r : FaultRec) : (logWrite h r).tiers = h.tiers := by
  simp only [logWrite, apply_ite Hw.tiers, ite_self]
@[simp] theorem recordWrite_tiers (h : Hw) (r : FaultRec) : (recordWrite h r).tiers = h.tiers := by
  simp only [recordWrite, apply_ite Hw.tiers, queueWrite_tiers, logWrite_tiers, ite_self]

@[simp] theorem imsicSet_weaves (h : Hw) (n k v : Nat) : (imsicSet h n k v).weaves = h.weaves := by
  simp only [imsicSet, noteIrq, apply_ite Hw.weaves, ite_self]
@[simp] theorem deliverEntry_weaves (h : Hw) (p v : Nat) : (deliverEntry h p v).weaves = h.weaves := by
  simp only [deliverEntry, apply_ite Hw.weaves, imsicSet_weaves, ite_self]
@[simp] theorem raise_weaves (h : Hw) (p e : Nat) : (raise h p e).weaves = h.weaves := by
  simp only [raise, takeFree, apply_ite Hw.weaves, deliverEntry_weaves, ite_self]
@[simp] theorem queueWrite_weaves (h : Hw) (q : Nat) (r : FaultRec) : (queueWrite h q r).weaves = h.weaves := by
  simp only [queueWrite, setQueue, apply_ite Hw.weaves, raise_weaves, ite_self]
@[simp] theorem logWrite_weaves (h : Hw) (r : FaultRec) : (logWrite h r).weaves = h.weaves := by
  simp only [logWrite, apply_ite Hw.weaves, ite_self]
@[simp] theorem recordWrite_weaves (h : Hw) (r : FaultRec) : (recordWrite h r).weaves = h.weaves := by
  simp only [recordWrite, apply_ite Hw.weaves, queueWrite_weaves, logWrite_weaves, ite_self]

@[simp] theorem imsicSet_sync (h : Hw) (n k v : Nat) : (imsicSet h n k v).sync = h.sync := by
  simp only [imsicSet, noteIrq, apply_ite Hw.sync, ite_self]
@[simp] theorem deliverEntry_sync (h : Hw) (p v : Nat) : (deliverEntry h p v).sync = h.sync := by
  simp only [deliverEntry, apply_ite Hw.sync, imsicSet_sync, ite_self]
@[simp] theorem raise_sync (h : Hw) (p e : Nat) : (raise h p e).sync = h.sync := by
  simp only [raise, takeFree, apply_ite Hw.sync, deliverEntry_sync, ite_self]
@[simp] theorem queueWrite_sync (h : Hw) (q : Nat) (r : FaultRec) : (queueWrite h q r).sync = h.sync := by
  simp only [queueWrite, setQueue, apply_ite Hw.sync, raise_sync, ite_self]
@[simp] theorem logWrite_sync (h : Hw) (r : FaultRec) : (logWrite h r).sync = h.sync := by
  simp only [logWrite, apply_ite Hw.sync, ite_self]
@[simp] theorem recordWrite_sync (h : Hw) (r : FaultRec) : (recordWrite h r).sync = h.sync := by
  simp only [recordWrite, apply_ite Hw.sync, queueWrite_sync, logWrite_sync, ite_self]

@[simp] theorem imsicSet_power (h : Hw) (n k v : Nat) : (imsicSet h n k v).power = h.power := by
  simp only [imsicSet, noteIrq, apply_ite Hw.power, ite_self]
@[simp] theorem deliverEntry_power (h : Hw) (p v : Nat) : (deliverEntry h p v).power = h.power := by
  simp only [deliverEntry, apply_ite Hw.power, imsicSet_power, ite_self]
@[simp] theorem raise_power (h : Hw) (p e : Nat) : (raise h p e).power = h.power := by
  simp only [raise, takeFree, apply_ite Hw.power, deliverEntry_power, ite_self]
@[simp] theorem queueWrite_power (h : Hw) (q : Nat) (r : FaultRec) : (queueWrite h q r).power = h.power := by
  simp only [queueWrite, setQueue, apply_ite Hw.power, raise_power, ite_self]
@[simp] theorem logWrite_power (h : Hw) (r : FaultRec) : (logWrite h r).power = h.power := by
  simp only [logWrite, apply_ite Hw.power, ite_self]
@[simp] theorem recordWrite_power (h : Hw) (r : FaultRec) : (recordWrite h r).power = h.power := by
  simp only [recordWrite, apply_ite Hw.power, queueWrite_power, logWrite_power, ite_self]

@[simp] theorem imsicSet_arch (h : Hw) (n k v : Nat) : (imsicSet h n k v).arch = h.arch := by
  simp only [imsicSet, noteIrq, apply_ite Hw.arch, ite_self]
@[simp] theorem deliverEntry_arch (h : Hw) (p v : Nat) : (deliverEntry h p v).arch = h.arch := by
  simp only [deliverEntry, apply_ite Hw.arch, imsicSet_arch, ite_self]
@[simp] theorem raise_arch (h : Hw) (p e : Nat) : (raise h p e).arch = h.arch := by
  simp only [raise, takeFree, apply_ite Hw.arch, deliverEntry_arch, ite_self]
@[simp] theorem queueWrite_arch (h : Hw) (q : Nat) (r : FaultRec) : (queueWrite h q r).arch = h.arch := by
  simp only [queueWrite, setQueue, apply_ite Hw.arch, raise_arch, ite_self]
@[simp] theorem logWrite_arch (h : Hw) (r : FaultRec) : (logWrite h r).arch = h.arch := by
  simp only [logWrite, apply_ite Hw.arch, ite_self]
@[simp] theorem recordWrite_arch (h : Hw) (r : FaultRec) : (recordWrite h r).arch = h.arch := by
  simp only [recordWrite, apply_ite Hw.arch, queueWrite_arch, logWrite_arch, ite_self]

@[simp] theorem imsicSet_keep (h : Hw) (n k v : Nat) : (imsicSet h n k v).keep = h.keep := by
  simp only [imsicSet, noteIrq, apply_ite Hw.keep, ite_self]
@[simp] theorem deliverEntry_keep (h : Hw) (p v : Nat) : (deliverEntry h p v).keep = h.keep := by
  simp only [deliverEntry, apply_ite Hw.keep, imsicSet_keep, ite_self]
@[simp] theorem raise_keep (h : Hw) (p e : Nat) : (raise h p e).keep = h.keep := by
  simp only [raise, takeFree, apply_ite Hw.keep, deliverEntry_keep, ite_self]
@[simp] theorem queueWrite_keep (h : Hw) (q : Nat) (r : FaultRec) : (queueWrite h q r).keep = h.keep := by
  simp only [queueWrite, setQueue, apply_ite Hw.keep, raise_keep, ite_self]
@[simp] theorem logWrite_keep (h : Hw) (r : FaultRec) : (logWrite h r).keep = h.keep := by
  simp only [logWrite, apply_ite Hw.keep, ite_self]
@[simp] theorem recordWrite_keep (h : Hw) (r : FaultRec) : (recordWrite h r).keep = h.keep := by
  simp only [recordWrite, apply_ite Hw.keep, queueWrite_keep, logWrite_keep, ite_self]

@[simp] theorem imsicSet_efano (h : Hw) (n k v : Nat) : (imsicSet h n k v).efano = h.efano := by
  simp only [imsicSet, noteIrq, apply_ite Hw.efano, ite_self]
@[simp] theorem deliverEntry_efano (h : Hw) (p v : Nat) : (deliverEntry h p v).efano = h.efano := by
  simp only [deliverEntry, apply_ite Hw.efano, imsicSet_efano, ite_self]
@[simp] theorem raise_efano (h : Hw) (p e : Nat) : (raise h p e).efano = h.efano := by
  simp only [raise, takeFree, apply_ite Hw.efano, deliverEntry_efano, ite_self]
@[simp] theorem queueWrite_efano (h : Hw) (q : Nat) (r : FaultRec) : (queueWrite h q r).efano = h.efano := by
  simp only [queueWrite, setQueue, apply_ite Hw.efano, raise_efano, ite_self]
@[simp] theorem logWrite_efano (h : Hw) (r : FaultRec) : (logWrite h r).efano = h.efano := by
  simp only [logWrite, apply_ite Hw.efano, ite_self]
@[simp] theorem recordWrite_efano (h : Hw) (r : FaultRec) : (recordWrite h r).efano = h.efano := by
  simp only [recordWrite, apply_ite Hw.efano, queueWrite_efano, logWrite_efano, ite_self]

@[simp] theorem endDesc_coh (h : Hw) (s : Nat) (d : Desc) (a b : Nat) : (endDesc h s d a b).coh = h.coh := by
  unfold endDesc; dsimp only; split <;> rfl

@[simp] theorem haltRefused_coh (h : Hw) (s : Nat) (d : Desc) (a : Nat) : (haltRefused h s d a).coh = h.coh := by
  unfold haltRefused refuseEngine countRefusal; rw [endDesc_coh, recordWrite_coh]; dsimp only; split <;> rfl

end Sys2Proof.Machine
end

