-- ==== Sys2Proof/Laws/Rows.lean ====
section
/-! SUPPORT. The outcome of a row: what posts no message to another package is not routed, and a served command runs its body once. -/
namespace Sys2Proof.Machine

/-- Hardware with no posted message is not changed by routing. -/
theorem routeOut_nil {h : Hw} (e : h.arch.posted = []) : routeOut h = h := by
  obtain ⟨⟩ := h
  unfold routeOut
  simp only at e
  rw [e]
  simp only [List.foldl_nil]
  congr 1
  rename_i a _ _ _ _
  obtain ⟨⟩ := a
  simp_all

/-- A step that delivered no interrupt leaves a low-power state as it is. -/
theorem wakeUp_quiet {h : Hw} (w : h.start.irqWake = false) : wakeUp h = h := by
  simp [wakeUp, w]

/-- A step that delivered no interrupt routes its messages at its end. -/
theorem stepEnd_quiet {h : Hw} (w : h.start.irqWake = false) : stepEnd h = routeOut h := by
  rw [stepEnd, wakeUp_quiet w]

/-- A step that delivered no interrupt and posted no message has nothing left to do at its end. -/
theorem stepEnd_nil {h : Hw} (e : h.arch.posted = []) (w : h.start.irqWake = false) : stepEnd h = h := by
  rw [stepEnd_quiet w, routeOut_nil e]

/-- Frames and messages of an earlier command are gone. -/
@[simp] theorem clearSent_posted (h : Hw) : (clearSent h).arch.posted = [] := rfl

/-- The mark of an interrupt delivered by an earlier command is gone. -/
@[simp] theorem clearSent_irqWake (h : Hw) : (clearSent h).start.irqWake = false := rfl

/-- A row over the hardware whose effect posts nothing and delivers no interrupt. -/
theorem onHw_quiet (s : State) (f : Hw → Hw) (e : (f (clearSent s.hw)).arch.posted = []) (w : (f (clearSent s.hw)).start.irqWake = false) :
    onHw s f = .next { s with hw := f (clearSent s.hw) } := by
  unfold onHw
  rw [stepEnd_nil e w]

/-- A row over the hardware and the byte memory whose effect posts nothing and delivers no interrupt. -/
theorem onAll_quiet (s : State) (f : HM → HM) (e : (f (clearSent s.hw, s.mem)).1.arch.posted = [])
    (w : (f (clearSent s.hw, s.mem)).1.start.irqWake = false) :
    onAll s f = .next { s with hw := (f (clearSent s.hw, s.mem)).1, mem := (f (clearSent s.hw, s.mem)).2 } := by
  unfold onAll
  simp only
  rw [stepEnd_nil e w]

/-! A row's outcome, from what its effect gives on the hardware `h` without the frames of the command before. -/

/-- A row over the hardware whose effect posts nothing and delivers no interrupt. -/
theorem onHw_gives {s : State} {h e : Hw} {f : Hw → Hw} (hh : h = clearSent s.hw) (he : f h = e) (hp : e.arch.posted = [])
    (hw : e.start.irqWake = false) : onHw s f = .next (s.withHw e) := by
  subst hh he
  exact onHw_quiet s f hp hw

/-- A row over the hardware and the byte memory whose effect posts nothing and delivers no interrupt. -/
theorem onAll_gives {s : State} {h : Hw} {f : HM → HM} {o : HM} (hh : h = clearSent s.hw) (he : f (h, s.mem) = o) (hp : o.1.arch.posted = [])
    (hw : o.1.start.irqWake = false) : onAll s f = .next (s.withHm o) := by
  subst hh he
  exact onAll_quiet s f hp hw

/-- A row whose effect leaves the byte memory as it was. -/
theorem onAll_hw {s : State} {h e : Hw} {f : HM → HM} (hh : h = clearSent s.hw) (he : f (h, s.mem) = (e, s.mem)) (hp : e.arch.posted = [])
    (hw : e.start.irqWake = false) : onAll s f = .next (s.withHw e) := onAll_gives hh he hp hw

/-- A row over the hardware, with the end of its step. -/
theorem onHw_routed {s : State} {h e : Hw} {f : Hw → Hw} (hh : h = clearSent s.hw) (he : f h = e) :
    onHw s f = .next (s.withHw (stepEnd e)) := by
  subst hh he
  rfl

/-- A row over the hardware and the byte memory, with the end of its step. -/
theorem onAll_routed {s : State} {h : Hw} {f : HM → HM} {o : HM} (hh : h = clearSent s.hw) (he : f (h, s.mem) = o) :
    onAll s f = .next (s.withHm (stepEnd o.1, o.2)) := by
  subst hh he
  rfl

theorem onAll_routedHw {s : State} {h e : Hw} {f : HM → HM} (hh : h = clearSent s.hw) (he : f (h, s.mem) = (e, s.mem)) :
    onAll s f = .next (s.withHw (stepEnd e)) := onAll_routed hh he

/-- Routing one message changes the archipelago only. -/
theorem routeMsg_only (h : Hw) (o : OutMsg) : routeMsg h o = { h with arch := (routeMsg h o).arch } := by
  unfold routeMsg
  simp only
  repeat' split
  all_goals rfl

theorem foldl_routeMsg_only (l : List OutMsg) (h : Hw) : l.foldl routeMsg h = { h with arch := (l.foldl routeMsg h).arch } := by
  induction l generalizing h with
  | nil => rfl
  | cons o l ih =>
    rw [List.foldl_cons, ih, routeMsg_only]

/-- Routing changes the archipelago only. -/
theorem routeOut_only (h : Hw) : routeOut h = { h with arch := (routeOut h).arch } := by
  unfold routeOut
  rw [foldl_routeMsg_only]

@[simp] theorem boxAt_clearSent (h : Hw) (m : Mbx) : boxAt (clearSent h) m = boxAt h m := rfl
@[simp] theorem mbxReady_clearSent (h : Hw) (m : Mbx) : mbxReady (clearSent h) m = mbxReady h m := rfl

/-- Writing a mailbox leaves every other part of the hardware alone. -/
theorem setBox_only (h : Hw) (m : Mbx) (x : Mbox) : setBox h m x = { h with efano := (setBox h m x).efano } := rfl

theorem sendResp_only (h : Hw) (m : Mbx) (r : Req) (a b : Nat) (p : List Byte) (f : Bool) :
    sendResp h m r a b p f = { h with efano := (sendResp h m r a b p f).efano } := rfl

/-- A final response changes a mailbox only. -/
theorem finalResp_only (h : Hw) (m : Mbx) (r : Req) (a b : Nat) (p : List Byte) :
    finalResp h m r a b p = { h with efano := (finalResp h m r a b p).efano } := by
  unfold finalResp
  split <;> rfl

theorem addOutcome_only (h : Hw) (m : Mbx) (r : Req) : addOutcome h m r = { h with efano := (addOutcome h m r).efano } := by
  unfold addOutcome
  split <;> rfl

theorem endOutcome_only (h : Hw) (m : Mbx) (r : Req) (a b : Nat) :
    endOutcome h m r a b = { h with efano := (endOutcome h m r a b).efano } := by
  unfold endOutcome
  simp only
  repeat' split
  all_goals rfl

/-- A command whose session still stands leaves no entry behind when its checks refuse it. -/
theorem dropOutcome_of_open {h : Hw} {m : Mbx} {r : Req} (e : r.orphan = false) : dropOutcome h m r = h := by
  unfold dropOutcome
  simp [e]

/-- Completing a committed command changes a mailbox only. -/
theorem doneCommand_only (h e : Hw) (m : Mbx) (r : Req) (p : List Byte) :
    doneCommand h e m r p = { e with efano := (doneCommand h e m r p).efano } := by
  unfold doneCommand
  simp only
  rw [finalResp_only, endOutcome_only, addOutcome_only, setBox_only]

theorem waitCommand_only (h e : Hw) (m : Mbx) (r : Req) (w : Wait) (p : List Byte) :
    waitCommand h e m r w p = { e with efano := (waitCommand h e m r w p).efano } := by
  unfold waitCommand
  simp only
  rw [addOutcome_only, setBox_only]

@[simp] theorem finalResp_arch (h : Hw) (m : Mbx) (r : Req) (a b : Nat) (p : List Byte) : (finalResp h m r a b p).arch = h.arch := by
  rw [finalResp_only]

@[simp] theorem doneCommand_arch (h e : Hw) (m : Mbx) (r : Req) (p : List Byte) : (doneCommand h e m r p).arch = e.arch := by
  rw [doneCommand_only]

@[simp] theorem waitCommand_arch (h e : Hw) (m : Mbx) (r : Req) (w : Wait) (p : List Byte) : (waitCommand h e m r w p).arch = e.arch := by
  rw [waitCommand_only]

@[simp] theorem sendResp_arch (h : Hw) (m : Mbx) (r : Req) (a b : Nat) (p : List Byte) (f : Bool) : (sendResp h m r a b p f).arch = h.arch := rfl

@[simp] theorem advanceTo_arch (h : Hw) (t : Nat) : (advanceTo h t).arch = h.arch := rfl

@[simp] theorem refuseReq_arch (h : Hw) (m : Mbx) (r : Req) (a b : Nat) : (refuseReq h m r a b).arch = h.arch := by
  unfold refuseReq
  simp only
  split <;> rfl

@[simp] theorem acceptNext_arch (h : Hw) (m : Mbx) (hdr p : List Byte) (t : Nat) (r q : Req) :
    (acceptNext h m hdr p t r q).arch = h.arch := by
  unfold acceptNext
  simp only
  repeat' split
  all_goals first | rfl | simp

/-- Accepting a frame changes a mailbox only. -/
@[simp] theorem acceptFrame_arch (h : Hw) (m : Mbx) (hdr p : List Byte) (t : Nat) (b : Option KeeperEnd) :
    (acceptFrame h m hdr p t b).arch = h.arch := by
  unfold acceptFrame
  simp only
  repeat' split
  all_goals first | rfl | simp

@[simp] theorem closeSession_arch (h : Hw) (m : Mbx) (k : Option Nat) : (closeSession h m k).arch = h.arch := rfl

/-- A served query: its body runs once and DONE is answered with its payload. -/
theorem serve_query {s : State} {h : Hw} {m : Mbx} {tag code : Nat} {r : Req} (hh : h = clearSent s.hw) (hs : Serving s m tag code r)
    (f : HM → Req → HM × Reply) {hm : HM} {p : List Byte} (hf : f (h, s.mem) r = (hm, doneQ p)) :
    serve (h, s.mem) m tag code f = (finalResp hm.1 m r 0 0 p, hm.2) := by
  subst hh
  obtain ⟨e1, e2, rfl, rfl, e4, e5, e7, h6⟩ := hs
  have e1 : nextReq (boxAt (clearSent s.hw) m) = some r := e1
  have e4 : mbxReady (clearSent s.hw) m = true := e4
  have e5 : elderWaits (clearSent s.hw) m r = false := e5
  have e7 : expired (clearSent s.hw) r = false := e7
  unfold serve
  simp only [e1, e4, e5, e7, hf, doneQ]
  simp [dropOutcome_of_open e2]

/-- A served command that its own checks refuse: the refusal is answered. -/
theorem serve_deny {s : State} {h : Hw} {m : Mbx} {tag code : Nat} {r : Req} (hh : h = clearSent s.hw) (hs : Serving s m tag code r)
    (f : HM → Req → HM × Reply) {hm : HM} {a b : Nat} (hf : f (h, s.mem) r = (hm, deny a b)) :
    serve (h, s.mem) m tag code f = (finalResp hm.1 m r a b [], hm.2) := by
  subst hh
  obtain ⟨e1, e2, rfl, rfl, e4, e5, e7, h6⟩ := hs
  have e1 : nextReq (boxAt (clearSent s.hw) m) = some r := e1
  have e4 : mbxReady (clearSent s.hw) m = true := e4
  have e5 : elderWaits (clearSent s.hw) m r = false := e5
  have e7 : expired (clearSent s.hw) r = false := e7
  unfold serve
  simp only [e1, e4, e5, e7, hf, deny]
  simp [dropOutcome_of_open e2]

/-- A served command that commits with nothing to wait for: its body runs once, its outcome is recorded and DONE is answered. -/
theorem serve_done {s : State} {h : Hw} {m : Mbx} {tag code : Nat} {r : Req} (hh : h = clearSent s.hw) (hs : Serving s m tag code r)
    (f : HM → Req → HM × Reply) {hm : HM} {p : List Byte} (hf : f (h, s.mem) r = (hm, doneC p)) :
    serve (h, s.mem) m tag code f = (doneCommand h hm.1 m r p, hm.2) := by
  subst hh
  obtain ⟨e1, e2, rfl, rfl, e4, e5, e7, h6⟩ := hs
  have e1 : nextReq (boxAt (clearSent s.hw) m) = some r := e1
  have e4 : mbxReady (clearSent s.hw) m = true := e4
  have e5 : elderWaits (clearSent s.hw) m r = false := e5
  have e7 : expired (clearSent s.hw) r = false := e7
  have e6 : decide ((boxAt (clearSent s.hw) m).outcomes.length ≥ 4096) = false := by
    have : (boxAt (clearSent s.hw) m).outcomes.length < 4096 := h6
    simpa using this
  unfold serve
  simp only [e1, e4, e5, e7, hf, doneC, e6]
  simp [doneCommand, begunReq]

/-- A served command that commits and then waits: its body runs once and its outcome is open. -/
theorem serve_wait {s : State} {h : Hw} {m : Mbx} {tag code : Nat} {r : Req} (hh : h = clearSent s.hw) (hs : Serving s m tag code r)
    (f : HM → Req → HM × Reply) {hm : HM} {p : List Byte} {w : Wait} (hf : f (h, s.mem) r = (hm, { payload := p, commit := true, wait := w }))
    (hw : w ≠ .none) : serve (h, s.mem) m tag code f = (waitCommand h hm.1 m r w p, hm.2) := by
  subst hh
  obtain ⟨e1, e2, rfl, rfl, e4, e5, e7, h6⟩ := hs
  have e1 : nextReq (boxAt (clearSent s.hw) m) = some r := e1
  have e4 : mbxReady (clearSent s.hw) m = true := e4
  have e5 : elderWaits (clearSent s.hw) m r = false := e5
  have e7 : expired (clearSent s.hw) r = false := e7
  have e6 : decide ((boxAt (clearSent s.hw) m).outcomes.length ≥ 4096) = false := by
    have : (boxAt (clearSent s.hw) m).outcomes.length < 4096 := h6
    simpa using this
  unfold serve
  simp only [e1, e4, e5, e7, hf, e6]
  simp [waitCommand, hw]

/-- A served command that waits before its commit point: its body runs once. -/
theorem serve_hold {s : State} {h : Hw} {m : Mbx} {tag code : Nat} {r : Req} (hh : h = clearSent s.hw) (hs : Serving s m tag code r)
    (f : HM → Req → HM × Reply) {hm : HM} {p : List Byte} {w : Wait} (hf : f (h, s.mem) r = (hm, { payload := p, wait := w }))
    (hw : w ≠ .none) : serve (h, s.mem) m tag code f = (holdCommand hm.1 m r w p, hm.2) := by
  subst hh
  obtain ⟨e1, e2, rfl, rfl, e4, e5, e7, h6⟩ := hs
  have e1 : nextReq (boxAt (clearSent s.hw) m) = some r := e1
  have e4 : mbxReady (clearSent s.hw) m = true := e4
  have e5 : elderWaits (clearSent s.hw) m r = false := e5
  have e7 : expired (clearSent s.hw) r = false := e7
  unfold serve
  simp only [e1, e4, e5, e7, hf]
  simp [holdCommand, hw]

@[simp] theorem holdCommand_arch (e : Hw) (m : Mbx) (r : Req) (w : Wait) (p : List Byte) : (holdCommand e m r w p).arch = e.arch := rfl

/-- A served command that closes its own session: the reset runs on what is left, and ACCEPTED is its last answer. -/
theorem serve_closes {s : State} {h : Hw} {m : Mbx} {tag code : Nat} {r : Req} (hh : h = clearSent s.hw) (hs : Serving s m tag code r)
    (f : HM → Req → HM × Reply) {hm : HM} {g : HM → HM} (hf : f (h, s.mem) r = (hm, { commit := true, closes := true, after := g })) :
    serve (h, s.mem) m tag code f = (acceptedLast h (g (closedFor h hm.1 m r, hm.2)).1 m r, (g (closedFor h hm.1 m r, hm.2)).2) := by
  subst hh
  obtain ⟨e1, e2, rfl, rfl, e4, e5, e7, h6⟩ := hs
  have e1 : nextReq (boxAt (clearSent s.hw) m) = some r := e1
  have e4 : mbxReady (clearSent s.hw) m = true := e4
  have e5 : elderWaits (clearSent s.hw) m r = false := e5
  have e7 : expired (clearSent s.hw) r = false := e7
  have e6 : decide ((boxAt (clearSent s.hw) m).outcomes.length ≥ 4096) = false := by
    have : (boxAt (clearSent s.hw) m).outcomes.length < 4096 := h6
    simpa using this
  unfold serve
  simp only [e1, e4, e5, e7, hf, e6]
  simp [acceptedLast, closedFor, begunReq, e2]

/-- A frame that is taken is processed on the hardware reception leaves. -/
theorem onFrame_taken {h g : Hw} {c : Cw} {ty : Nat} {w : FrameWay} {b : List Nat} {f : Hw → Hw} (ht : Taken h c ty w b g) :
    onFrame h c ty w b f = f g := by
  have ht' : recvFrame h c ty w b = (g, true) := ht
  unfold onFrame
  rw [ht']
  rfl

/-- The same, with the byte memory. -/
theorem onFrameM_taken {h g : Hw} {m : Memory} {c : Cw} {ty : Nat} {w : FrameWay} {b : List Nat} {f : HM → HM} (ht : Taken h c ty w b g) :
    onFrameM (h, m) c ty w b f = f (g, m) := by
  have ht' : recvFrame h c ty w b = (g, true) := ht
  unfold onFrameM
  simp only
  rw [ht']
  rfl

/-! ### Accesses that wait (R271, R402) -/

/-- A row none of whose accesses has to wait has its whole effect. -/
theorem waiting_done {f : HM → HM} {hm : HM} (e : (f hm).1.coh.stalls = []) : waiting f hm = f hm := by
  simp [waiting, e]

/-- A row with an access that has to wait has no effect but the requests it leaves. -/
theorem waiting_stalls {f : HM → HM} {hm : HM} (e : (f hm).1.coh.stalls ≠ []) :
    waiting f hm = ((f hm).1.coh.stalls.foldl leaveStall hm.1, hm.2) := by
  simp [waiting, e]

/-- A row over the hardware and the byte memory none of whose accesses has to wait, with its messages routed. -/
theorem onAll_waiting {s : State} {h : Hw} {f : HM → HM} {o : HM} (hh : h = clearSent s.hw) (he : f (h, s.mem) = o)
    (hw : o.1.coh.stalls = []) : onAll s (waiting f) = .next (s.withHm (stepEnd o.1, o.2)) := by
  refine onAll_routed hh ?_
  rw [waiting_done (by rw [he]; exact hw), he]

/-- A descriptor whose ferry has no place for its accesses waits: nothing changes. -/
theorem ferrying_full {s : Nat} {seq : W32} {f : HM → HM} {hm : HM} (e : ferryFull hm.1 s seq = true) : ferrying s seq f hm = hm := by
  simp [ferrying, e]

/-- A descriptor's step none of whose accesses has to wait gives back the places it held, and its writes to other packages are its own. -/
theorem ferrying_done {s : Nat} {seq : W32} {f : HM → HM} {hm : HM} (e : ferryFull hm.1 s seq = false) (w : (f hm).1.coh.stalls = []) :
    ferrying s seq f hm = (tagWrites (setOuts (f hm).1 ((f hm).1.eng.outs.filter (fun o => !outOf s seq o))) (.slip s seq), (f hm).2) := by
  simp [ferrying, e, w]

end Sys2Proof.Machine
end

