-- ==== Sys2Proof/WellFormed.lean ====
section
/-! DEFINITION. Well-formed commands: the units, mailboxes, ports, positions and addresses a command names exist on a package (Tables 1.1,
3.1, 4.1, 20.5, 21.6). `exec` does not rely on it: a command that names what does not exist changes nothing, or is answered as the spec
answers it. -/
namespace Sys2Proof

/-- A mailbox (Table 4.1): partitions 0 to 16, the Steward's, the Keeper's. -/
def mbxOk : Mbx → Bool
  | .part p => decide (p ≤ 16)
  | .steward => true
  | .keeper => true

/-- Islands of each kind (Table 2.1). -/
def islandCount : IslandKind → Nat
  | .cluster => 16 | .cFabric => 2 | .farGroup => 8 | .rootPort => 8 | .baseIdurrum => 2 | .cFerry => 2 | .cralu => 1 | .causeway => 1
  | .quad => 128 | .shelf => 32 | .ferryGroup => 32 | .aFabric => 4 | .sync => 4 | .stackCtl => 12 | .stackPhy => 12 | .ldieLink => 8
  | .ldiePort => 16

/-- An island of a package. -/
def islandOk (i : Island) : Bool := decide (i.idx < islandCount i.kind)

/-- A caching agent or requester (R230): 16 clusters, 32 shelf slices, 256 positions. -/
def agentOk : Agent → Bool
  | .l3 c => decide (c < 16)
  | .slice s => decide (s < 32)
  | .remote p => decide (p < 256)
  | .other => true

/-- A causeway frame header (Table 20.5): its port, origin and hop count are fields of that width. -/
def cwOk (c : Cw) : Bool := decide (c.port < 2) && decide (c.origin < 256) && decide (c.hops < 256)

/-- A place REGISTER_WRITE stores to (Tables 23.1, 23.2, 6.5). -/
def placeOk : RegPlace → Bool
  | .window p off => decide (p ≤ 16) && decide (off < 2 ^ 24)
  | .steward off => decide (off < 2 ^ 26)
  | .csr h n _ => decide (h < 128) && decide (n < 4096)
  | .aplicOwner d n => decide (d < 2) && decide (1 ≤ n) && decide (n ≤ 64)
  | .aplic p d n => decide (p ≤ 16) && decide (d < 2) && decide (1 ≤ n) && decide (n ≤ 64)

/-- Whether a command is well-formed. -/
def Instr.wellFormed : Instr → Bool
  | .mbxDoorbell m _ => mbxOk m
  | .standIn m => mbxOk m
  | .acceptance m => mbxOk m
  | .acceptedInterim m tag => mbxOk m && decide (tag < 8)
  | .commandTimeout m tag => mbxOk m && decide (tag < 8)
  | .responsePost m => mbxOk m
  | .mbxRspAck m => mbxOk m
  | .keeperFrame _ port _ _ _ _ => decide (port < 32)
  | .mctpControl _ port _ => decide (port < 32)
  | .pldmRequest _ port _ _ => decide (port < 32)
  | .spdmRequest _ port _ _ => decide (port < 32)
  | .versionGet m tag => mbxOk m && decide (tag < 8)
  | .sessionOpen m tag => mbxOk m && decide (tag < 8)
  | .sessionClose m tag => mbxOk m && decide (tag < 8)
  | .echo m tag => mbxOk m && decide (tag < 8)
  | .outcomeGet m tag => mbxOk m && decide (tag < 8)
  | .spdmMessage m tag => mbxOk m && decide (tag < 8)
  | .devReportGet m tag _ _ => mbxOk m && decide (tag < 8)
  | .devAccept m tag => mbxOk m && decide (tag < 8)
  | .identityGet m tag => mbxOk m && decide (tag < 8)
  | .partCreate m tag => mbxOk m && decide (tag < 8)
  | .partDestroy m tag => mbxOk m && decide (tag < 8)
  | .partAssign m tag => mbxOk m && decide (tag < 8)
  | .partRelease m tag => mbxOk m && decide (tag < 8)
  | .partQuery m tag => mbxOk m && decide (tag < 8)
  | .partConfig m tag => mbxOk m && decide (tag < 8)
  | .waymaskSet m tag => mbxOk m && decide (tag < 8)
  | .scrubReportGet m tag => mbxOk m && decide (tag < 8)
  | .shelfSplitSet m tag => mbxOk m && decide (tag < 8)
  | .objectRegister m tag => mbxOk m && decide (tag < 8)
  | .objectUpdate m tag => mbxOk m && decide (tag < 8)
  | .objectRetire m tag => mbxOk m && decide (tag < 8)
  | .objectQuery m tag => mbxOk m && decide (tag < 8)
  | .memStatus m tag => mbxOk m && decide (tag < 8)
  | .slipQuery m tag => mbxOk m && decide (tag < 8)
  | .ferryQuery m tag => mbxOk m && decide (tag < 8)
  | .lockGroupSet m tag => mbxOk m && decide (tag < 8)
  | .lockFormed _ _ => true
  | .lockGroupClear m tag => mbxOk m && decide (tag < 8)
  | .knotQuery m tag => mbxOk m && decide (tag < 8)
  | .poolCreate m tag => mbxOk m && decide (tag < 8)
  | .poolDestroy m tag => mbxOk m && decide (tag < 8)
  | .poolQuery m tag => mbxOk m && decide (tag < 8)
  | .knotWaitStats m tag => mbxOk m && decide (tag < 8)
  | .ledgerQuery m tag => mbxOk m && decide (tag < 8)
  | .powerBudgetSet m tag => mbxOk m && decide (tag < 8)
  | .powerBoundsSet m tag => mbxOk m && decide (tag < 8)
  | .railCapSet m tag => mbxOk m && decide (tag < 8)
  | .thermalSet m tag => mbxOk m && decide (tag < 8)
  | .poolConfig m tag => mbxOk m && decide (tag < 8)
  | .powerTelemetry m tag => mbxOk m && decide (tag < 8)
  | .powerStatus m tag => mbxOk m && decide (tag < 8)
  | .fenceStatus m tag => mbxOk m && decide (tag < 8)
  | .logRead m tag => mbxOk m && decide (tag < 8)
  | .logRelease m tag => mbxOk m && decide (tag < 8)
  | .faultQueueRead m tag => mbxOk m && decide (tag < 8)
  | .unitReconcile m tag _ _ => mbxOk m && decide (tag < 8)
  | .scrubRetry m tag _ => mbxOk m && decide (tag < 8)
  | .logResync m tag _ => mbxOk m && decide (tag < 8)
  | .lastWordClear m tag => mbxOk m && decide (tag < 8)
  | .bucketSet m tag => mbxOk m && decide (tag < 8)
  | .bucketGet m tag => mbxOk m && decide (tag < 8)
  | .patrolSet m tag => mbxOk m && decide (tag < 8)
  | .poisonQuery m tag => mbxOk m && decide (tag < 8)
  | .poisonClear m tag => mbxOk m && decide (tag < 8)
  | .archStatus m tag => mbxOk m && decide (tag < 8)
  | .archFound m tag => mbxOk m && decide (tag < 8)
  | .archJoin m tag => mbxOk m && decide (tag < 8)
  | .archAdmit m tag => mbxOk m && decide (tag < 8)
  | .archPolicySet m tag => mbxOk m && decide (tag < 8)
  | .archDepart m tag => mbxOk m && decide (tag < 8)
  | .archRoleSet m tag => mbxOk m && decide (tag < 8)
  | .archSetBind m tag => mbxOk m && decide (tag < 8)
  | .archSetUnbind m tag => mbxOk m && decide (tag < 8)
  | .archCensus m tag => mbxOk m && decide (tag < 8)
  | .archCensusRead m tag => mbxOk m && decide (tag < 8)
  | .linkControl m tag => mbxOk m && decide (tag < 8)
  | .portStatus m tag => mbxOk m && decide (tag < 8)
  | .portConfig m tag => mbxOk m && decide (tag < 8)
  | .slotControl m tag => mbxOk m && decide (tag < 8)
  | .devAssign m tag _ => mbxOk m && decide (tag < 8)
  | .hdmDecoderSet m tag => mbxOk m && decide (tag < 8)
  | .pinSet m tag _ => mbxOk m && decide (tag < 8)
  | .pinSwitchWindowEnd pin => decide (pin < 32)
  | .pinForced pin => decide (pin < 32)
  | .pinStatus m tag => mbxOk m && decide (tag < 8)
  | .rtcSet m tag => mbxOk m && decide (tag < 8)
  | .rtcAlarmSet m tag => mbxOk m && decide (tag < 8)
  | .chargerSet m tag => mbxOk m && decide (tag < 8)
  | .shipModeArm m tag => mbxOk m && decide (tag < 8)
  | .shipModeDisarm m tag => mbxOk m && decide (tag < 8)
  | .tamperConfig m tag => mbxOk m && decide (tag < 8)
  | .kaStatus m tag => mbxOk m && decide (tag < 8)
  | .benchEnter m tag => mbxOk m && decide (tag < 8)
  | .benchStatus m tag => mbxOk m && decide (tag < 8)
  | .repairCandidatesGet m tag => mbxOk m && decide (tag < 8)
  | .repairCandidateClear m tag => mbxOk m && decide (tag < 8)
  | .memMargin m tag _ => mbxOk m && decide (tag < 8)
  | .memTest m tag _ _ => mbxOk m && decide (tag < 8)
  | .repairResourcesGet m tag => mbxOk m && decide (tag < 8)
  | .hbmSppr m tag _ => mbxOk m && decide (tag < 8)
  | .hbmHppr m tag _ => mbxOk m && decide (tag < 8)
  | .hbmLaneRemap m tag _ => mbxOk m && decide (tag < 8)
  | .lpPpr m tag _ => mbxOk m && decide (tag < 8)
  | .partReset m tag => mbxOk m && decide (tag < 8)
  | .unitReset m tag => mbxOk m && decide (tag < 8)
  | .mgmtRestart m tag => mbxOk m && decide (tag < 8)
  | .pkgReset m tag => mbxOk m && decide (tag < 8)
  | .powerStateSet m tag => mbxOk m && decide (tag < 8)
  | .powerStateConfig m tag => mbxOk m && decide (tag < 8)
  | .wakeReportGet m tag => mbxOk m && decide (tag < 8)
  | .keepaliveAck m tag => mbxOk m && decide (tag < 8)
  | .trainingCacheClear m tag => mbxOk m && decide (tag < 8)
  | .fwVersion m tag => mbxOk m && decide (tag < 8)
  | .fwWrite m tag => mbxOk m && decide (tag < 8)
  | .fwVerify m tag _ => mbxOk m && decide (tag < 8)
  | .fwActivate m tag => mbxOk m && decide (tag < 8)
  | .registerWrite t _ _ => placeOk t
  | .fqHead k _ => decide (k ≤ 17)
  | .fqOvfTake k => decide (k ≤ 17)
  | .slpDoorbell p slip _ => decide (p ≤ 16) && decide (slip < 1024)
  | .slpDone p slip _ => decide (p ≤ 16) && decide (slip < 1024)
  | .slpRing p slip _ => decide (p ≤ 16) && decide (slip < 1024)
  | .enable p slip => decide (p ≤ 16) && decide (slip < 1024)
  | .disable p slip => decide (p ≤ 16) && decide (slip < 1024)
  | .slipDisabled slip => decide (slip < 1024)
  | .restart p slip => decide (p ≤ 16) && decide (slip < 1024)
  | .restartSkip p slip => decide (p ≤ 16) && decide (slip < 1024)
  | .all p => decide (p ≤ 16)
  | .asid p asid_ => decide (p ≤ 16) && decide (asid_ < 2 ^ 16)
  | .vmid p vmid_ => decide (p ≤ 16) && decide (vmid_ < 2 ^ 14)
  | .descriptorPause slip _ => decide (slip < 1024)
  | .slpXinvSync _ => true
  | .kntSignal p knot _ => decide (p ≤ 16) && decide (knot < 262144)
  | .kntValue hart knot => decide (hart.hart < 128) && decide (knot < 262144)
  | .seteipnumLe p hart file _ => decide (p ≤ 16) && decide (hart < 128) && decide (file < 8)
  | .hartLoad a => decide (a.hart < 128)
  | .hartStore a data => decide (a.hart < 128) && decide (data.length ≤ 64)
  | .hartFetch a => decide (a.hart < 128)
  | .amo a _ _ _ => decide (a.hart < 128)
  | .lr a => decide (a.hart < 128)
  | .sc a data => decide (a.hart < 128) && decide (data.length ≤ 64)
  | .fence hart _ sets => decide (hart < 128) && decide (sets < 256)
  | .ycfence hart v => decide (hart.hart < 128) && decide (v < 2 ^ 64) && decide (hart.va < 2 ^ 64)
  | .stop hart => decide (hart < 128)
  | .ymhartstart hart target => decide (hart < 128) && decide (target < 128)
  | .mnret hart => decide (hart < 128)
  | .descriptorFetch _ _ => true
  | .staging slip => decide (slip < 1024)
  | .walk _ _ => true
  | .dispatch _ => true
  | .boltMissFill slip _ => decide (slip < 1024)
  | .descriptorComplete slip => decide (slip < 1024)
  | .channelHalt slip _ addr => decide (slip < 1024) && decide (addr < 2 ^ 60)
  | .move slip _ _ => decide (slip < 1024)
  | .fill slip _ _ => decide (slip < 1024)
  | .boltLoad slip _ => decide (slip < 1024)
  | .boltStore slip _ => decide (slip < 1024)
  | .boltMove slip _ => decide (slip < 1024)
  | .boltCopyUp slip _ => decide (slip < 1024)
  | .boltClean slip _ => decide (slip < 1024)
  | .boltDrop slip _ => decide (slip < 1024)
  | .boltTakeRetry slip _ => decide (slip < 1024)
  | .boltWait slip _ => decide (slip < 1024)
  | .atomic slip _ => decide (slip < 1024)
  | .barrier slip _ => decide (slip < 1024)
  | .nop slip _ => decide (slip < 1024)
  | .weave slip _ => decide (slip < 1024)
  | .passStart slip _ => decide (slip < 1024)
  | .bankSwap slip _ _ => decide (slip < 1024)
  | .drain slip _ => decide (slip < 1024)
  | .passCut slip _ => decide (slip < 1024)
  | .map slip _ => decide (slip < 1024)
  | .reduce slip _ => decide (slip < 1024)
  | .softmax slip _ => decide (slip < 1024)
  | .norm slip _ => decide (slip < 1024)
  | .select slip _ => decide (slip < 1024)
  | .quant slip _ => decide (slip < 1024)
  | .dequant slip _ => decide (slip < 1024)
  | .sample slip _ => decide (slip < 1024)
  | .rowEnd slip _ _ => decide (slip < 1024)
  | .rowCut slip _ => decide (slip < 1024)
  | .knotInit slip _ => decide (slip < 1024)
  | .knotSignal slip _ _ => decide (slip < 1024)
  | .knotWait slip _ _ => decide (slip < 1024)
  | .knotTimeout slip _ => decide (slip < 1024)
  | .remoteWaitRetry slip _ _ => decide (slip < 1024)
  | .poolAlloc slip _ => decide (slip < 1024)
  | .poolFree slip _ => decide (slip < 1024)
  | .poolEmpty slip _ => decide (slip < 1024)
  | .ledgerInit slip _ => decide (slip < 1024)
  | .ledgerExtend slip _ => decide (slip < 1024)
  | .ledgerCommit slip _ => decide (slip < 1024)
  | .ledgerRollback slip _ => decide (slip < 1024)
  | .ledgerTrim slip _ => decide (slip < 1024)
  | .ledgerExtendTimeout slip _ => decide (slip < 1024)
  | .verify slip _ => decide (slip < 1024)
  | .readShared agent part addr => agentOk agent && decide (part ≤ 16) && decide (addr < 2 ^ 60)
  | .readOwn agent part addr => agentOk agent && decide (part ≤ 16) && decide (addr < 2 ^ 60)
  | .readOnce agent part addr => agentOk agent && decide (part ≤ 16) && decide (addr < 2 ^ 60)
  | .writeLine agent part addr data _ => agentOk agent && decide (part ≤ 16) && decide (addr < 2 ^ 60) && decide (data.length ≤ 64)
  | .writePart agent part addr data _ _ => agentOk agent && decide (part ≤ 16) && decide (addr < 2 ^ 60) && decide (data.length ≤ 64)
  | .writeBack agent addr data _ => agentOk agent && decide (addr < 2 ^ 60) && decide (data.length ≤ 64)
  | .atomicHome agent part addr _ size _ _ => agentOk agent && decide (part ≤ 16) && decide (addr < 2 ^ 60) && decide (size ∈ [1, 2, 4, 8, 16])
  | .atomicMem part addr _ size _ _ => decide (part ≤ 16) && decide (addr < 2 ^ 60) && decide (size ∈ [1, 2, 4, 8, 16])
  | .snp agent addr _ => agentOk agent && decide (addr < 2 ^ 60)
  | .straitMessage a b _ f part _ => islandOk a && islandOk b && decide (part ≤ 16) && decide (f.words.length = 16)
  | .straitHandshakeTimeout a b part => islandOk a && islandOk b && decide (part ≤ 16)
  | .ghostDiscard b _ _ part addr => islandOk b && decide (part ≤ 16 ∨ part = 0xFF) && decide (addr < 2 ^ 60)
  | .close i => islandOk i
  | .drainComplete i => islandOk i
  | .gateAbandon i => islandOk i
  | .gate i => islandOk i
  | .wakeRequested i => islandOk i
  | .straitsOpen i => islandOk i
  | .syncMarker => true
  | .tbRefLost => true
  | .tbRefRestored _ => true
  | .cp _ => true
  | .keepAliveCheck _ => true
  | .rootPortsConfigured _ _ => true
  | .trainingStart _ => true
  | .trainingStep _ _ _ => true
  | .tierOpened _ => true
  | .bootResources _ => true
  | .coresReleased => true
  | .ready => true
  | .backgroundScrub _ _ => true
  | .scrubComplete _ _ => true
  | .wp _ => true
  | .wpZeroised => true
  | .mr => true
  | .lockstepMismatch => true
  | .craluWatchdog => true
  | .mrFail => true
  | .kr => true
  | .idleEntry _ => true
  | .drowseEntry => true
  | .dormantEntry => true
  | .exitTrigger _ => true
  | .dormantExit _ _ => true
  | .pwrGoodFall => true
  | .causeOfDoubt _ => true
  | .rateLimitFlush _ _ => true
  | .logCopyFail copy addr => decide (copy < 2) && decide (addr < 2 ^ 60)
  | .logLost => true
  | .reconciliation _ => true
  | .patrolRead _ _ => true
  | .metaUe _ => true
  | .recalibration _ _ _ => true
  | .nearHot _ _ => true
  | .farHot _ _ _ _ => true
  | .targetedRefresh _ _ _ _ _ => true
  | .railSample rail _ _ _ _ _ => decide (rail < 64)
  | .protectiveRelease rail => decide (rail < 64)
  | .droop i => islandOk i
  | .thermalSample _ => true
  | .prochotExt => true
  | .budgetLoop _ _ => true
  | .poolEpochStart => true
  | .poolEpoch => true
  | .leaseEnd => true
  | .presenceTick => true
  | .presence c _ => cwOk c
  | .join c => cwOk c
  | .joinAnswer c _ => cwOk c
  | .delayReq _ => true
  | .delayRsp c _ _ => cwOk c
  | .timeTick => true
  | .time c _ _ => cwOk c
  | .timeFrameTimeout => true
  | .admitFrame c dest _ => cwOk c && decide (dest < 256)
  | .admitted c pos tag _ => cwOk c && decide (pos < 256) && decide (tag < 2 ^ 64)
  | .departing c pos => cwOk c && decide (pos < 256)
  | .departed c pos => cwOk c && decide (pos < 256)
  | .removed c pos _ => cwOk c && decide (pos < 256)
  | .abandon c => cwOk c
  | .fenced c => cwOk c
  | .causewayPortBreak port => decide (port < 32)
  | .break c port _ => cwOk c && decide (port < 32)
  | .restored c port _ => cwOk c && decide (port < 32)
  | .role c dest _ _ port => cwOk c && decide (dest < 256) && decide (port < 32)
  | .roleSuccession _ => true
  | .memberAbsent pos => decide (pos < 256)
  | .route c _ _ _ => cwOk c
  | .routeActivation => true
  | .set c set_ _ => cwOk c && decide (set_ < 2 ^ 32)
  | .censusReq c _ _ => cwOk c
  | .censusSample initiator _ => decide (initiator < 256)
  | .censusData c dest _ _ _ => cwOk c && decide (dest < 256)
  | .censusComplete _ => true
  | .poolTelemetry c set_ _ _ _ => cwOk c && decide (set_ < 2 ^ 32)
  | .poolGrant c dest set_ _ _ => cwOk c && decide (dest < 256) && decide (set_ < 2 ^ 32)
  | .wake c tag _ => cwOk c && decide (tag < 2 ^ 64)
  | .reattest pos _ => decide (pos < 256)
  | .linkTrained port peer tag _ => decide (port < 32) && decide (peer < 256) && decide (tag < 2 ^ 64)
  | .linkKeyExchange port _ => decide (port < 32)
  | .flit port _ _ => decide (port < 32)
  | .nak port _ => decide (port < 32)
  | .ack port _ => decide (port < 32)
  | .linkDown port => decide (port < 32)
  | .linkRetrainAttempt port => decide (port < 32)
  | .segment port _ _ _ _ _ => decide (port < 32)
  | .generationChange port _ => decide (port < 32)
  | .inboundRequest func _ addr _ => decide (func < 2 ^ 17) && decide (addr < 2 ^ 60)
  | .devError _ addr _ _ => decide (addr < 2 ^ 60)
  | .hotplugAdd port _ _ => decide (port < 32)
  | .slotPowerFault port => decide (port < 32)
  | .hotplugRemove port => decide (port < 32)
  | .slotButton port => decide (port < 32)
  | .ideFail func _ => decide (func < 2 ^ 17)
  | .cxlPortLost port _ => decide (port < 32)
  | .i3cHotJoin => true
  | .moduleAttention => true
  | .irqIn pin _ _ w => decide (pin < 32) && (match w with | some x => decide (x.1 < 2) && decide (17 ≤ x.2) && decide (x.2 ≤ 64) | none => true)
  | .wakeN pin _ => decide (pin < 32)
  | .timePulse pin => decide (pin < 32)
  | .kaBtnRelease _ => true
  | .kaBtnHold => true
  | .tamper input => decide (input < 4)
  | .vkaFall => true
  | .vkaReturn => true
  | .cellFault _ _ => true
  | .rtcAlarm _ => true
  | .rtcCopy => true
  | .causewayIslandRunning => true
  | .ownJoinSent => true
  | .idurrumTrainingBegins => true
  | .causewayCarrier port => decide (port < 32)
  | .causewayFrameUnprocessed c _ _ _ => cwOk c
  | .retrainComplete port => decide (port < 32)
  | .fenceOrderedSet port => decide (port < 32)
  | .rootPortLinkUp port _ _ => decide (port < 32)
  | .rootPortLinkDown port _ => decide (port < 32)
  | .ideKeyRefresh => true
  | .dynamicAddressAssignment addr => decide (addr < 2 ^ 60)
  | .tapInstruction op => (match op with | .wrapper site _ => decide (site < 12) | _ => true)
  | .droopEnd i => islandOk i
  | .prochotExtRelease => true
  | .cellBelowHold _ => true
  | .chargePhase _ _ => true
  | .tamperDeasserted input => decide (input < 4)
  | .busIdle pin => decide (pin < 32)
  | .neutralWindowOpen pin _ => decide (pin < 32)
  | .reservationTimeout hart => decide (hart < 128)
  | .refresh _ => true

end Sys2Proof
end

