-- ==== Sys2Proof/Tests/Slice0.lean ====
section
/-! SUPPORT. The author's own tests: ill-formed commands are refused, single steps against the spec's worked values, and for every
statement a concrete state and operands that meet the hypotheses of each of its clauses. -/
open Sys2Proof Sys2Proof.Machine
namespace Sys2Proof.Tests
set_option Elab.async false

/-- A request accepted whole at time 0, with tag 0. -/
def rq (code : Nat) (payload : List Byte) : Req :=
  { tag := 0, cmd := code, seq := 1, session := 1, total := payload.length, payload := payload, frags := 1, whole := true }

/-- The hardware with that request waiting in a mailbox. -/
def srvHw (m : Mbx) (code : Nat) (payload : List Byte) (h : Hw) : Hw :=
  { h with efano := { h.efano with ready := true, boxes := [(mbxKey m, { session := 1, reqs := [rq code payload] })] } }

/-- A state in which a mailbox serves that request. -/
def srv (m : Mbx) (code : Nat) (payload : List Byte) (h : Hw) : State := { hw := srvHw m code payload h }

/-- A state of some hardware and memory. -/
def st (h : Hw) (m : Memory := []) : State := { hw := h, mem := m }

/-- A DEVICE_TAG that is not this package's. -/
def tg : Nat := (Config.deviceTag.toNat + 1) % 2 ^ 64

theorem tg_ne : tg ≠ Config.deviceTag.toNat := by unfold tg; have := Config.deviceTag.isLt; omega

/-- A frame that another member sent, as it arrives by the WEST port one hop away. -/
def fr : Cw := { port := 1, hops := 1, seq := 5, origin := 3, archId := 7, tag := tg }

/-- A frame that a package not yet admitted sent. -/
def fu : Cw := { port := 1, hops := 1, seq := 5, unadmitted := true, tag := tg }

/-- The frame before any seen: a broadcast is taken and forwarded. -/
theorem taken_b {h : Hw} {c : Cw} {ty : Nat} {body : List Nat} (ht : c.tag ≠ Config.deviceTag.toNat)
    (h1 : (h.arch.running && (decide (c.hops ≠ 0) || (cwPort h c.port).joined)) = true) (h2 : archConflict h c = false)
    (h3 : positionClash h c = false) (h4 : seenBefore h c = false) :
    Taken h c ty .broadcast body (forwardFrame (markSeen (noteFrame h c) c) c ty .broadcast body) := by
  simp only [Bool.and_eq_true, Bool.or_eq_true] at h1
  have : heard h c ty = true := by unfold heard; simp only [Bool.and_eq_true, Bool.or_eq_true]; exact ⟨⟨h1.1, .inl h1.2⟩, by simpa using ht⟩
  unfold Taken recvFrame
  simp [this, h2, h3, h4]

/-- A frame to the neighbour is taken. -/
theorem taken_n {h : Hw} {c : Cw} {ty : Nat} {body : List Nat} (ht : c.tag ≠ Config.deviceTag.toNat)
    (h1 : (h.arch.running && (decide (c.hops ≠ 0) || (cwPort h c.port).joined)) = true) (h2 : archConflict h c = false)
    (h3 : positionClash h c = false) (h4 : h.arch.joinOk = true) : Taken h c ty .neighbour body (noteFrame h c) := by
  simp only [Bool.and_eq_true, Bool.or_eq_true] at h1
  have : heard h c ty = true := by unfold heard; simp only [Bool.and_eq_true, Bool.or_eq_true]; exact ⟨⟨h1.1, .inl h1.2⟩, by simpa using ht⟩
  unfold Taken recvFrame
  simp [this, h2, h3, h4]

/-- A JOIN that comes before JOIN frames are accepted is taken, to be answered, and changes nothing. -/
theorem taken_early {h : Hw} {c : Cw} {body : List Nat} (ht : c.tag ≠ Config.deviceTag.toNat)
    (h1 : (h.arch.running && (decide (c.hops ≠ 0) || (cwPort h c.port).joined)) = true) (h2 : h.arch.joinOk = false) :
    Taken h c 2 .neighbour body h := by
  simp only [Bool.and_eq_true, Bool.or_eq_true] at h1
  have : heard h c 2 = true := by unfold heard; simp only [Bool.and_eq_true, Bool.or_eq_true]; exact ⟨⟨h1.1, .inl h1.2⟩, by simpa using ht⟩
  unfold Taken recvFrame
  simp [this, h2]

/-- A directed frame to this package is taken. -/
theorem taken_d {h : Hw} {c : Cw} {ty : Nat} {body : List Nat} (ht : c.tag ≠ Config.deviceTag.toNat)
    (h1 : (h.arch.running && (decide (c.hops ≠ 0) || (cwPort h c.port).joined)) = true) (h2 : archConflict h c = false)
    (h3 : positionClash h c = false) (h4 : seenBefore h c = false) :
    Taken h c ty (.directed (ownName h)) body (stir (markSeen (noteFrame h c) c)) := by
  simp only [Bool.and_eq_true, Bool.or_eq_true] at h1
  have : heard h c ty = true := by unfold heard; simp only [Bool.and_eq_true, Bool.or_eq_true]; exact ⟨⟨h1.1, .inl h1.2⟩, by simpa using ht⟩
  unfold Taken recvFrame
  simp [this, h2, h3, h4]

/-- A frame of a member. -/
theorem from_mk {g : Hw} {c : Cw} (h1 : (g.ident.admitted && !c.unadmitted) = true) (h2 : c.archId = g.arch.archId)
    (h3 : (memberAt g c.origin).st ≠ MemberSt.none) (h4 : (memberAt g c.origin).tag = c.tag) : fromMember g c = true := by
  simp only [Bool.and_eq_true] at h1
  simp [fromMember, h1.1, h2, h3, h4]
  simpa using h1.2

/-- The ADMITTER is admitting a newcomer to Position ID 0's place. -/
theorem admitting_zero {h : Hw} {t : Nat} {r : Req} (h1 : r ∈ (boxAt h .steward).reqs) (h2 : (r.begun && !r.ended) = true)
    (h3 : r.wait = .admission t 0) : admitting h t = some 0 := by
  unfold admitting
  rw [List.range_succ_eq_map, List.find?_cons_of_pos]
  simp only [Bool.and_eq_true] at h2
  simp only [waitsFor, List.any_eq_true]
  exact ⟨.steward, by decide, r, h1, by simp [h2.1, h3]; simpa using h2.2⟩

/-- A package on which 256 sets are live. -/
def many : List (Nat × Nat) := (List.range 256).flatMap (fun i => [(1, i), (2, i)])

theorem live_many {h : Hw} (hh : h.arch.others = many) : 255 < (liveSets h).length := by
  have hm : ∀ i, i < 256 → (1, i) ∈ h.arch.others ∧ (2, i) ∈ h.arch.others := by
    intro i hi; rw [hh]; unfold many; constructor <;> simp [hi]
  have key : List.range 256 ⊆ liveSets h := by
    intro i hi
    obtain ⟨m1, m2⟩ := hm i (List.mem_range.mp hi)
    unfold liveSets
    dsimp only
    refine List.mem_filter.mpr ⟨?_, ?_⟩
    · rw [List.mem_eraseDups]
      exact List.mem_map.mpr ⟨(1, i), by rw [List.mem_eraseDups]; exact List.mem_append.mpr (.inr m1), rfl⟩
    · simp only [decide_eq_true_eq]
      by_contra hc
      have a1 : (1, i) ∈ (((List.filter (fun e => e.2.used) h.arch.sets).map (fun e => (h.ident.position, e.2.set))
          ++ h.arch.others).eraseDups.filter (fun e => decide (e.2 = i))) :=
        List.mem_filter.mpr ⟨by rw [List.mem_eraseDups]; exact List.mem_append.mpr (.inr m1), by simp⟩
      have a2 : (2, i) ∈ (((List.filter (fun e => e.2.used) h.arch.sets).map (fun e => (h.ident.position, e.2.set))
          ++ h.arch.others).eraseDups.filter (fun e => decide (e.2 = i))) :=
        List.mem_filter.mpr ⟨by rw [List.mem_eraseDups]; exact List.mem_append.mpr (.inr m2), by simp⟩
      revert hc a1 a2
      generalize (((List.filter (fun e => e.2.used) h.arch.sets).map (fun e => (h.ident.position, e.2.set))
          ++ h.arch.others).eraseDups.filter (fun e => decide (e.2 = i))) = l
      intro hc a1 a2
      match l, hc, a1, a2 with
      | [], _, a1, _ => simp at a1
      | [x], _, a1, a2 => simp at a1 a2; rw [← a1] at a2; simp at a2
      | _ :: _ :: _, hc, _, _ => simp at hc
  have := (List.nodup_range (n := 256)).subperm key |>.length_le
  simp at this
  omega

/-- A descriptor's 128 bytes, from fields (offset, width in bytes, value). -/
def dsc (l : List (Nat × Nat × Nat)) : List Byte :=
  (List.range 128).map (fun k => l.foldl (fun b e => if e.1 ≤ k ∧ k < e.1 + e.2.1 then BitVec.ofNat 8 (e.2.2 / 256 ^ (k - e.1)) else b) 0)

/-- A descriptor with sequence number 3 at its engine. -/
def at3 (l : List (Nat × Nat × Nat)) : Desc := { seq := 3, bytes := dsc l, phase := .dispatched }

/-- Hardware in which partition 0 owns slip 5, group 0, quad 0, knots 0 to 255, ledgers 0 to 15 and the first 2 MiB of C0 memory,
and the slip runs with these descriptors. -/
def wk (ds : List Desc) (h : Hw := {}) (x : Slip := { st := .running }) : Hw :=
  { h with
    ident := { h.ident with c0Gib := 1 }
    sel := { h.sel with
      swatches := [(0, { owner := 0, state := .owned })]
      units := [(unitKey 2 0, { owner := 0, state := .owned }), (unitKey 3 0, { owner := 0, state := .owned }), (unitKey 4 0, { owner := 0, state := .owned }),
                (unitKey 5 5, { owner := 0, state := .owned }), (unitKey 6 0, { owner := 0, state := .owned }),
                (unitKey 7 0, { owner := 0, state := .owned })] }
    eng := { h.eng with slips := [(5, { x with descs := ds })] } }

theorem pair_of {α β : Type} {x : α × β} {b : β} (h : x.2 = b) : x = (x.1, b) := by subst h; rfl

theorem pair_snd {α β : Type} {x : α × β} {a : α} (h : x.1 = a) : x = (a, x.2) := by subst h; rfl

/-- A descriptor whose work is over. -/
def endd (status : Nat) : Desc := { seq := 3, bytes := [], phase := .ended, status := status }

/-- The hardware and memory once all but the first 8 bytes of that descriptor's record are written. -/
def recTail (status : Nat) : HM :=
  (engineWrite (clearSent (wk [endd status]), []) 0 (recordAddr (slipAt (wk [endd status]) 5) 3 + 8)
    ((recordBytes (slipAt (wk [endd status]) 5) (endd status) (stops status 0)).drop 8) false).1

/-- The hardware and memory once that record is whole. -/
def recWhole (status : Nat) : HM :=
  (engineWrite (recTail status) 0 (recordAddr (slipAt (wk [endd status]) 5) 3)
    ((recordBytes (slipAt (wk [endd status]) 5) (endd status) (stops status 0)).take 8) false).1

/-- Memory holding a number's 16 bytes at an address. -/
def memAt (a w : Nat) : Memory := ((List.range 16).map (fun k => (a + k, BitVec.ofNat 8 (w / 256 ^ k)))).filter (fun c => c.2 ≠ 0)

/-- Word 0 of a map entry in a state: its home in C0 at line 0, 1,024 lines. -/
def ent (state : Nat) : Nat := 3 + 512 * state + 2 ^ 124

/-- Whether a map entry was read, with these words. -/
def entryIs (x : EntryRead) (w0 w1 : Nat) : Bool :=
  match x with
  | .ok e => decide (e.w0 = w0) && decide (e.w1 = w1)
  | _ => false

theorem entry_of {x : HM × EntryRead} {w0 w1 : Nat} (h : entryIs x.2 w0 w1 = true) : x = (x.1, .ok { w0 := w0, w1 := w1 }) := by
  obtain ⟨y, e⟩ := x
  cases e with
  | ok e =>
    simp only [entryIs, Bool.and_eq_true, decide_eq_true_eq] at h
    obtain ⟨rfl, rfl⟩ := h
    rfl
  | poisoned => simp [entryIs] at h
  | bad b => simp [entryIs] at h

/-- Whether reading a map entry met poison. -/
def entryPoisoned (x : EntryRead) : Bool :=
  match x with
  | .poisoned => true
  | _ => false

theorem poisoned_of {x : HM × EntryRead} (h : entryPoisoned x.2 = true) : x = (x.1, .poisoned) := by
  obtain ⟨y, e⟩ := x
  cases e with
  | ok e => simp [entryPoisoned] at h
  | poisoned => rfl
  | bad b => simp [entryPoisoned] at h

/-- The error with which a map entry could not be read. -/
def entryBad (x : EntryRead) : Option Bad := match x with | .bad b => some b | _ => none

theorem bad_of {x : HM × EntryRead} {b : Bad} (h : entryBad x.2 = some b) : x = (x.1, .bad b) := by
  obtain ⟨y, e⟩ := x
  cases e <;> simp_all [entryBad]

/-- The content a bolt's read gives, and the error. -/
def boltOk (x : Except Bad BoltData) : BoltData := match x with | .ok b => b | .error _ => { bytes := [], pm := 0 }
def boltErr (x : Except Bad BoltData) : Option Bad := match x with | .ok _ => none | .error b => some b

theorem ok_of {x : HM × Except Bad BoltData} (h : boltErr x.2 = none) : x = (x.1, .ok (boltOk x.2)) := by
  obtain ⟨y, e⟩ := x
  cases e <;> simp_all [boltErr, boltOk]

theorem err_of {x : HM × Except Bad BoltData} {b : Bad} (h : boltErr x.2 = some b) : x = (x.1, .error b) := by
  obtain ⟨y, e⟩ := x
  cases e <;> simp_all [boltErr]

theorem readHome_empty {hm : HM} {die p f : Nat} {e : MapEntry} (h : e.state = 1) :
    readHome hm die p f e = (hm, .ok { bytes := zeros 65536, pm := 0 }) := if_pos h

theorem some_of {α : Type} {x : Option α} (h : x.isSome = true) : x = some (x.get h) := (Option.some_get h).symm

theorem not_refused {v : Verdict} (h : v = .ok) : ∀ a, v ≠ .refused a := by subst h; exact fun _ e => nomatch e

/-- Reading a bolt whose entry is EMPTY. -/
theorem readBolt_empty (hm : HM) (die p f : Nat) (e : MapEntry) (h1 : e.copyTier = 0) (h2 : e.state = 1) :
    readBolt hm die p f e = (hm, .ok { bytes := zeros 65536, pm := 0 }) := by
  simp [readBolt, readHome, h1, h2]

/-- The same with a window of port 15 in partition 0's hands. -/
def dev (ds : List Desc) (h : Hw := {}) : Hw :=
  { wk ds h with
    sel := { (wk ds h).sel with ranges := [{ first := 4 * 2 ^ 48, count := 1, owner := 0 }] }
    edges := { ports := [(15, { exists_ := true, up := true, base := 0, limit := 2 })] } }

/-- Hardware in which partition 0 owns cluster 0, the first 2 MiB of C0 memory and the window of port 15, hart 0 runs with this state and
the package at Position ID 3 is a member. -/
def hartHw (h : Hw := {}) (x : Hart := { run := .running, nmie := true }) : Hw :=
  { h with
    ident := { h.ident with c0Gib := 1, admitted := true }
    arch := { h.arch with members := [(3, { st := .member })] }
    harts := [(0, x)]
    sel := { h.sel with
      swatches := [(0, { owner := 0, state := .owned })]
      units := [(unitKey 2 0, { owner := 0, state := .owned })]
      ranges := [{ first := 4 * 2 ^ 48, count := 1, owner := 0 }] }
    edges := { h.edges with ports := [(15, { exists_ := true, up := true, base := 0, limit := 2 })] } }

/-- The same, holding a line of package 3 in state E, and one that it shares. -/
def afarHw (x : Hart := { run := .running, nmie := true }) : Hw :=
  hartHw { coh := { proxies := [(3 * 2 ^ 42, { own := true, part := 0, clusters := 1, bytes := zeros 64 })] } } x

/-- The same with line 1 in state B. -/
def busyHw (x : Hart := { run := .running, nmie := true }) : Hw := hartHw { coh := { dir := [(1, { busy := true })] } } x

/-- No partition but 0 exists at reset, whatever request the Steward mailbox holds. -/
theorem parts_none {c : Nat} {b : List Byte} {p : Nat} (_ : 1 ≤ p) (_ : p ≤ 16) :
    partExists (clearSent (srv .steward c b {}).hw) p = false := by
  interval_cases p <;> rfl

/-- The lookup of the first page of the first buffer of descriptor 3 of slip 5. -/
def look0 : Lookup := { slip := 5, seq := 3, stamp := 0, buf := 0 }

/-- Every place for a write of the ferry of group 0 is taken by descriptor 3 of slip 6; slip 5 has a FILL to run. -/
def fullSt : State :=
  let h := wk [{ at3 [(0, 1, 0x11)] with extents := [{ buf := 0, voff := 0, len := 8, paddr := 64, wr := true }] }]
  st { h with eng := { h.eng with
    slips := h.eng.slips ++ [(6, { descs := [at3 []] })]
    outs := List.replicate 256 { slip := 6, seq := 3, line := 1, write := true } } }

/-- A bolt miss holding a transit slot. -/
def miss0 : Miss := { slip := 5, seq := 3, loom := 0, slot := 0, obj := 0, bolt := 0, transit := some (4 * 2 ^ 44) }

/-- The object whose bolt it is. -/
def missObj : ObjRec := { used := true, count := 1, map := 64, transit := 4 * 2 ^ 44 }

/-- The state that serves it: object 0's one bolt is EMPTY. -/
def missSt : State :=
  st (dev [at3 [(0, 1, 0x40)]] { tiers := { objects := [(0, missObj)], misses := [miss0] } })
    (memAt 64 (ent 1))

/-- That state once the bolt's entry has been read. -/
def missRead : HM := (readEntry (clearSent missSt.hw, missSt.mem) (slipDie 5) 0 (missObj.map + 32 * miss0.bolt)).1

/-- The island an address ends at answers RETRY. -/
def retriesAt (h : Hw) (a : Nat) : Bool := match targetIsland h a with | some i => retrying h i | none => false

/-- An access that ends at an island in service does not wait. -/
theorem retryStall_quiet {h : Hw} {a : Nat} {w : Bool} (e : retriesAt h a = false) : retryStall h a w = h := by
  unfold retriesAt at e
  unfold retryStall
  cases ht : targetIsland h a with
  | none => rfl
  | some i =>
    rw [ht] at e
    exact if_neg (fun c => Bool.false_ne_true (e.symm.trans c))

/-- A write of 4 KiB into a device's window changes no memory. -/
theorem engineWrite_window (hm : HM) (p ca : Nat) (bs : List Byte) (po : Bool) (hl : bs.length = 4096)
    (hv1 : verdict hm.1 p ca 4096 true = .ok) (hv2 : regionOf (compactLocal ca) ∈ [4, 5])
    (hs : retryStall hm.1 (compactLocal ca) true = hm.1) : engineWrite hm p ca bs po = (hm, .ok) := by
  unfold engineWrite
  have e : (if isLocal hm.1 ca then retryStall hm.1 (compactLocal ca) true else hm.1) = hm.1 := by rw [hs, ite_self]
  simp only [e, hl, hv1, if_pos hv2]

/-- Writing a whole bolt where no granule's write changes anything. -/
theorem writePlain_same (hm : HM) (p line : Nat) (bs : List Byte) (v : Verdict) (hv : v = .ok ∨ v = .dead ∨ v = .off)
    (step : ∀ g, g < 16 → engineWrite hm p (line * 64 + 4096 * g) ((bs.drop (4096 * g)).take 4096) (bitOf 0 g) = (hm, v)) :
    writePlain hm p line 0xFFFF { bytes := bs, pm := 0 } = (hm, v) := by
  have key : ∀ (l : List Nat) (x : Verdict), (x = .ok ∨ x = v) → (∀ g, g ∈ l → g < 16 ∧ bitOf 0xFFFF g = true) → l.foldl (fun (acc : HM × Verdict) g =>
      match acc.2 with
      | .refused _ => acc
      | .absent => acc
      | v =>
        if bitOf 0xFFFF g then
          let r := engineWrite acc.1 p (line * 64 + 4096 * g) ((bs.drop (4096 * g)).take 4096) (bitOf 0 g)
          (r.1, worst v r.2)
        else acc) (hm, x) = (hm, if l = [] then x else v) := by
    intro l
    induction l with
    | nil => intro x _ _; rfl
    | cons g l ih =>
      intro x hx hl
      have hw : worst x v = v := by rcases hx with rfl | rfl <;> rcases hv with rfl | rfl | rfl <;> rfl
      have hk := ih v (.inr rfl) (fun y hy => hl y (List.mem_cons_of_mem _ hy))
      have h0 := hl g (List.mem_cons_self ..)
      rw [List.foldl_cons, if_neg (List.cons_ne_nil g l)]
      rw [ite_self] at hk
      rcases hx with rfl | rfl
      · simp only [h0.2, if_true, step g h0.1, hw]; exact hk
      · rcases hv with rfl | rfl | rfl <;> (simp only [h0.2, if_true, step g h0.1, hw]; exact hk)
  exact key (List.range 16) .ok (.inl rfl) (by decide)

/-- Writing a whole bolt into a device's window changes no memory. -/
theorem writePlain_window (hm : HM) (p line : Nat) (bs : List Byte) (hb : bs.length = 65536)
    (hv : ∀ g, g < 16 → verdict hm.1 p (line * 64 + 4096 * g) 4096 true = .ok ∧ regionOf (compactLocal (line * 64 + 4096 * g)) ∈ [4, 5] ∧
      retriesAt hm.1 (compactLocal (line * 64 + 4096 * g)) = false) :
    writePlain hm p line 0xFFFF { bytes := bs, pm := 0 } = (hm, .ok) :=
  writePlain_same hm p line bs .ok (.inl rfl) (fun g hg =>
    engineWrite_window hm p _ _ _ (by simp [hb]; omega) (hv g hg).1 (hv g hg).2.1 (retryStall_quiet (hv g hg).2.2))

/-- A write of 4 KiB behind a dead root port or a gated island changes nothing. -/
theorem engineWrite_lost (hm : HM) (p ca : Nat) (bs : List Byte) (po : Bool) (v : Verdict) (hl : bs.length = 4096)
    (hv1 : verdict hm.1 p ca 4096 true = v) (hv2 : v = .dead ∨ v = .off) (hv3 : regionOf (compactLocal ca) ∉ [4, 5])
    (hs : retryStall hm.1 (compactLocal ca) true = hm.1) : engineWrite hm p ca bs po = (hm, v) := by
  unfold engineWrite
  have e : (if isLocal hm.1 ca then retryStall hm.1 (compactLocal ca) true else hm.1) = hm.1 := by rw [hs, ite_self]
  rcases hv2 with rfl | rfl <;> simp only [e, hl, hv1, if_neg hv3]

/-- So does writing a whole bolt there. -/
theorem writePlain_lost (hm : HM) (p line : Nat) (bs : List Byte) (v : Verdict) (hb : bs.length = 65536) (hd : v = .dead ∨ v = .off)
    (hv : ∀ g, g < 16 → verdict hm.1 p (line * 64 + 4096 * g) 4096 true = v ∧ regionOf (compactLocal (line * 64 + 4096 * g)) ∉ [4, 5] ∧
      retriesAt hm.1 (compactLocal (line * 64 + 4096 * g)) = false) :
    writePlain hm p line 0xFFFF { bytes := bs, pm := 0 } = (hm, v) :=
  writePlain_same hm p line bs v (.inr hd) (fun g hg =>
    engineWrite_lost hm p _ _ _ v (by simp [hb]; omega) (hv g hg).1 hd (hv g hg).2.1 (retryStall_quiet (hv g hg).2.2))

/-- Hardware in which partition 0 owns region 6, behind a root port that is down. -/
def deadHw : Hw :=
  { wk [] { edges := { decoders := [(0, { used := true, first := 6 * 2 ^ 48, count := 1, ports := [0] })] } } with
    sel := { (wk []).sel with ranges := [{ first := 6 * 2 ^ 48, count := 1, owner := 0 }] } }

/-- A bolt's new home behind that port takes no byte. -/
theorem dead_written {p line codec : Nat} (o : ObjRec) (obj bolt : Nat) (hp : p = 0) (hl : line = 6 * 2 ^ 44 / 64) (hc : codec = 0) :
    writeHome (clearSent deadHw, []) p line codec o obj bolt { bytes := zeros 65536, pm := 0 } = ((clearSent deadHw, []), .dead, 0, 1024) := by
  subst hp hl hc
  have e := writePlain_lost (clearSent deadHw, []) 0 (6 * 2 ^ 44 / 64) (zeros 65536) .dead List.length_replicate (.inl rfl) (by decide +kernel)
  simp only [writeHome, encodeImage, e, if_true]

/-- Hardware in which partition 0 owns a swatch of shelf slot 0, which is gated. -/
def offHw : Hw :=
  { wk [] { islands := [(islandKey { kind := .shelf, idx := 0 }, { power := .gated })] } with
    sel := { (wk []).sel with swatches := [(0, { owner := 0, state := .owned }), (slotSwatch 0 0, { owner := 0, state := .owned })] } }

/-- A bolt's copy there takes no byte. -/
theorem off_written {p line : Nat} (hp : p = 0) (hl : line = 2 * 2 ^ 44 / 64) :
    writePlain (clearSent offHw, []) p line 0xFFFF { bytes := zeros 65536, pm := 0 } = ((clearSent offHw, []), .off) := by
  subst hp hl
  exact writePlain_lost _ 0 (2 * 2 ^ 44 / 64) (zeros 65536) .off List.length_replicate (.inr rfl) (by decide +kernel)

theorem miss_written : writePlain missRead 0 (4 * 2 ^ 44 / 64) 0xFFFF { bytes := zeros 65536, pm := 0 }
    = (missRead, .ok) :=
  writePlain_window _ _ _ _ List.length_replicate (by decide +kernel)

/-- Whether the bolts a WEAVE needs were read, and with how many misses. -/
def missCount (x : Except MissStop (List Miss)) : Option Nat := match x with | .ok l => some l.length | .error _ => none

theorem misses_none {x : HM × Except MissStop (List Miss)} (h : missCount x.2 = some 0) : x = (x.1, .ok []) := by
  obtain ⟨y, e⟩ := x
  cases e with
  | ok l => cases l with
    | nil => rfl
    | cons a l => simp [missCount] at h
  | error b => simp [missCount] at h

/-- Whether a WEAVE names an object that does not exist. -/
def missUnknown (x : Except MissStop (List Miss)) : Bool := match x with | .error .unknown => true | _ => false

theorem misses_unknown {x : HM × Except MissStop (List Miss)} (h : missUnknown x.2 = true) : x = (x.1, .error .unknown) := by
  obtain ⟨y, e⟩ := x
  cases e with
  | ok l => simp [missUnknown] at h
  | error b => cases b with
    | unknown => rfl
    | poisoned => simp [missUnknown] at h
    | bad c => simp [missUnknown] at h

/-! ### A witness for every clause of every statement -/

theorem wit_StepRunsTheFrontCommand :
    (∃ (s : State), s.pending = []) :=
  ⟨State.reset, (by decide +kernel)⟩

theorem wit_ResetState :
    (∃ (a : Nat), regionOf a ≤ 2) ∧
    (∃ (c : Nat), c < 9) ∧
    (∃ (a : Nat), regionOf a = 3 ∧ offsetOf a < 17 * 2 ^ 24) ∧
    (∃ (a : Nat), regionOf a = 3 ∧ 2 ^ 30 ≤ offsetOf a ∧ offsetOf a < 2 ^ 30 + 2 ^ 26) :=
  ⟨⟨(3 * 2 ^ 48 - 1), (by decide +kernel)⟩,
   ⟨8, (by decide +kernel)⟩,
   ⟨(3 * 2 ^ 48 + 17 * 2 ^ 24 - 1), (by decide +kernel), (by decide +kernel)⟩,
   ⟨(3 * 2 ^ 48 + 2 ^ 30), (by decide +kernel), (by decide +kernel), (by decide +kernel)⟩⟩

theorem wit_RefusalStaysInItsPartition :
    (∃ (h : Hw) (g : Hw) (p : Nat) (a : Nat) (d : Nat), p ≤ 16 ∧ tabWf {} h.sel.parts = true ∧ g = refuseEngine h p a d) ∧
    (∃ (h : Hw) (g : Hw) (p : Nat) (a : Nat) (d : Nat), ∃ k, p ≤ 16 ∧ tabWf {} h.sel.parts = true ∧ g = refuseEngine h p a d ∧ k ≠ p) ∧
    (∃ (h : Hw) (g : Hw) (p : Nat) (a : Nat) (d : Nat), ∃ q, p ≤ 16 ∧ tabWf {} h.sel.parts = true ∧ g = refuseEngine h p a d ∧ q ≠ p) :=
  ⟨⟨{}, _, 16, 64, 2, (by decide +kernel), (by decide +kernel), rfl⟩,
   ⟨{}, _, 16, 64, 2, 17, (by decide +kernel), (by decide +kernel), rfl, (by decide +kernel)⟩,
   ⟨{}, _, 16, 64, 2, 0, (by decide +kernel), (by decide +kernel), rfl, (by decide +kernel)⟩⟩

theorem wit_WaitersGoInOrder :
    (∃ (k : Knot) (ws : List Waiter) (w : Waiter), firstRelease k false ws = some w) ∧
    (∃ (k : Knot) (ws : List Waiter) (i : Nat) (v : Waiter), firstRelease k false ws = none ∧ ws[i]? = some v) :=
  ⟨⟨{ value := 1 }, [{ cond := 3, x := 2 }, { cond := 1, x := 1 }], _, rfl⟩,
   ⟨{ value := 1 }, [{ cond := 3, x := 2 }, { cond := 3, x := 1 }], 1, _, (by decide +kernel), rfl⟩⟩

theorem wit_FerryArbitration :
    (∃ (h : Hw) (a : Arbiter) (r : List Nat), ∃ j, r.Pairwise (· < ·) ∧ a.last.length = 4 ∧ j ∈ r ∧ (slipAt h j).cls < 4) ∧
    (∃ (h : Hw) (a : Arbiter) (r : List Nat), ∃ i b c, r.Pairwise (· < ·) ∧ a.last.length = 4 ∧ choose h a r = some (i, b) ∧
     c = (slipAt h i).cls) ∧
    (∃ (h : Hw) (a : Arbiter) (r : List Nat), ∃ i b c j, r.Pairwise (· < ·) ∧ a.last.length = 4 ∧ choose h a r = some (i, b) ∧
     c = (slipAt h i).cls ∧ ((∀ k, k < 4 → (∃ j, j ∈ r ∧ (slipAt h j).cls = k) → a.passed.getD k 0 < 15)) ∧ j ∈ r ∧ (slipAt h j).cls < 4) ∧
    (∃ (h : Hw) (a : Arbiter) (r : List Nat), ∃ i b c, r.Pairwise (· < ·) ∧ a.last.length = 4 ∧ choose h a r = some (i, b) ∧
     c = (slipAt h i).cls ∧ ((∃ k, k < 4 ∧ 15 ≤ a.passed.getD k 0 ∧ ∃ j, j ∈ r ∧ (slipAt h j).cls = k))) ∧
    (∃ (h : Hw) (a : Arbiter) (r : List Nat), ∃ i b c j, r.Pairwise (· < ·) ∧ a.last.length = 4 ∧ choose h a r = some (i, b) ∧
     c = (slipAt h i).cls ∧ j ∈ r ∧ (slipAt h j).cls = c ∧ a.last.getD c 0 < i ∧ j < i) ∧
    (∃ (h : Hw) (a : Arbiter) (r : List Nat), ∃ i b c j, r.Pairwise (· < ·) ∧ a.last.length = 4 ∧ choose h a r = some (i, b) ∧
     c = (slipAt h i).cls ∧ j ∈ r ∧ (slipAt h j).cls = c ∧ i ≤ a.last.getD c 0) ∧
    (∃ (h : Hw) (a : Arbiter) (r : List Nat), ∃ i b c k, r.Pairwise (· < ·) ∧ a.last.length = 4 ∧ choose h a r = some (i, b) ∧
     c = (slipAt h i).cls ∧ k < 4 ∧ k ≠ c ∧ ((∃ j, j ∈ r ∧ (slipAt h j).cls = k))) :=
  ⟨⟨{ eng := { slips := [(3, { cls := 1 }), (5, { cls := 0 })] } }, { last := [0, 0, 0, 0] }, [3, 5], 5, (by decide +kernel),
     (by decide +kernel), (by decide +kernel), (by decide +kernel)⟩,
   ⟨{ eng := { slips := [(3, { cls := 1 }), (5, { cls := 0 })] } }, { last := [0, 3, 0, 0], passed := [0, 15, 0, 0] }, [3, 5], _, _, _,
     (by decide +kernel), (by decide +kernel), rfl, rfl⟩,
   ⟨{ eng := { slips := [(3, { cls := 1 }), (5, { cls := 0 })] } }, { last := [0, 0, 0, 0] }, [3, 5], _, _, _, 3, (by decide +kernel),
     (by decide +kernel), rfl, rfl, (by decide +kernel), (by decide +kernel), (by decide +kernel)⟩,
   ⟨{ eng := { slips := [(3, { cls := 1 }), (5, { cls := 0 })] } }, { last := [0, 3, 0, 0], passed := [0, 15, 0, 0] }, [3, 5], _, _, _,
     (by decide +kernel), (by decide +kernel), rfl, rfl, (by decide +kernel)⟩,
   ⟨{ eng := { slips := [(1, { cls := 1 }), (4, { cls := 1 })] } }, { last := [0, 3, 0, 0] }, [1, 4], _, _, _, 1, (by decide +kernel),
     (by decide +kernel), rfl, rfl, (by decide +kernel), (by decide +kernel), (by decide +kernel), (by decide +kernel)⟩,
   ⟨{ eng := { slips := [(3, { cls := 1 }), (5, { cls := 0 })] } }, { last := [0, 3, 0, 0], passed := [0, 15, 0, 0] }, [3, 5], _, _, _, 3,
     (by decide +kernel), (by decide +kernel), rfl, rfl, (by decide +kernel), (by decide +kernel), (by decide +kernel)⟩,
   ⟨{ eng := { slips := [(3, { cls := 1 }), (5, { cls := 0 })] } }, { last := [0, 3, 0, 0], passed := [0, 15, 0, 0] }, [3, 5], _, _, _, 0,
     (by decide +kernel), (by decide +kernel), rfl, rfl, (by decide +kernel), (by decide +kernel), (by decide +kernel)⟩⟩

theorem wit_MailboxTransportRows :
    (∃ (s : State) (h : Hw) (m : Mbx), h = clearSent s.hw ∧ m ≠ .keeper ∧ mbxReady h m = true ∧ (boxAt h m).rung = none) ∧
    (∃ (s : State) (h : Hw) (m : Mbx), h = clearSent s.hw ∧ m ≠ .keeper ∧ mbxReady h m = true ∧ (boxAt h m).rung ≠ none) ∧
    (∃ (s : State) (h : Hw) (m : Mbx), h = clearSent s.hw ∧ m ≠ .keeper ∧ mbxReady h m = false ∧ (boxAt h m).standIn = none) ∧
    (∃ (s : State) (h : Hw) (m : Mbx), h = clearSent s.hw ∧ m ≠ .keeper ∧ mbxReady h m = false ∧ (boxAt h m).standIn ≠ none) ∧
    (∃ (s : State) (h : Hw) (m : Mbx), ∃ r, h = clearSent s.hw ∧ (boxAt h m).standIn = some r ∧ (boxAt h m).valid = false) ∧
    (∃ (s : State) (h : Hw) (m : Mbx), ∃ r rs, h = clearSent s.hw ∧ m ≠ .keeper ∧ (boxAt h m).queue = r :: rs ∧ (boxAt h m).valid = false) ∧
    (∃ (s : State) (h : Hw) (m : Mbx), ∃ r rs, h = clearSent s.hw ∧ m = .keeper ∧ (boxAt h m).queue = r :: rs) ∧
    (∃ (s : State) (h : Hw) (m : Mbx), ∃ r, h = clearSent s.hw ∧ (boxAt h m).shown = some r) ∧
    (∃ (s : State) (h : Hw) (m : Mbx), ∃ tag r, h = clearSent s.hw ∧ findReq (boxAt h m) tag = some r ∧ r.begun = true ∧ r.ended = false ∧
     r.interim = false) ∧
    (∃ (s : State) (h : Hw) (m : Mbx), ∃ t hdr f pay, h = clearSent s.hw ∧ m ≠ .keeper ∧ (boxAt h m).rung = some t ∧ mbxReady h m = true ∧
     hdr = pageRead (boxAt h m).reqHdr 0 64 ∧ f = readHdr hdr ∧ pay = pageRead (boxAt h m).reqPage 0 (min f.plen 4096) ∧ (cmdInfo
     f.cmd).isSome = true ∧ ((sessionless f.cmd = true ∨ ((boxAt h m).session ≠ 0 ∧ f.session = (boxAt h m).session ∧ f.rev = 4))) ∧ frameOk
     m f t pay.length = true ∧ fragIdx f = 0 ∧ fragLast f = true ∧ f.total = pay.length ∧ ((sessionless f.cmd = true ∨ ∀ q, (boxAt h
     m).lastSeq = some q → q < f.seq)) ∧ findReq (boxAt h m) t = none ∧ laterChecks h m f hdr pay = (0, 0)) ∧
    (∃ (s : State) (h : Hw) (m : Mbx) (tag : Nat) (r : Req), h = clearSent s.hw ∧ findReq (boxAt h m) tag = some r ∧ r.begun = false ∧
     r.ended = false ∧ committedEarly r = false) :=
  ⟨⟨(st { efano := { ready := true } }), _, .steward, rfl, (by decide +kernel), (by decide +kernel), (by decide +kernel)⟩,
   ⟨(st { efano := { ready := true, boxes := [(17, { rung := some 3 })] } }), _, .steward, rfl, (by decide +kernel), (by decide +kernel),
     (by decide +kernel)⟩,
   ⟨(st {}), _, .steward, rfl, (by decide +kernel), (by decide +kernel), (by decide +kernel)⟩,
   ⟨(st { efano := { boxes := [(17, { standIn := some { tag := 0, hdr := [1], payload := [2] } })] } }), _, .steward, rfl,
     (by decide +kernel), (by decide +kernel), (by decide +kernel)⟩,
   ⟨(st { efano := { boxes := [(17, { standIn := some { tag := 0, hdr := [1], payload := [2] } })] } }), _, .steward, _, rfl, rfl,
     (by decide +kernel)⟩,
   ⟨(st { efano := { boxes := [(17, { queue := [{ tag := 0, hdr := [1], payload := [2] }] })] } }), _, .steward, _, _, rfl,
     (by decide +kernel), rfl, (by decide +kernel)⟩,
   ⟨(st { efano := { boxes := [(18, { queue := [{ tag := 0, hdr := [1], payload := [2] }] })] } }), _, .keeper, _, _, rfl,
     (by decide +kernel), rfl⟩,
   ⟨(st { efano := { boxes := [(17, { shown := some { tag := 0, hdr := [1], payload := [2] } })] } }), _, .steward, _, rfl, rfl⟩,
   ⟨(st { efano := { boxes := [(17, { reqs := [{ rq 0x0E01 [] with begun := true }] })] } }), _, .steward, 0, _, rfl, rfl,
     (by decide +kernel), (by decide +kernel), (by decide +kernel)⟩,
   ⟨(st
     { efano := { ready := true, boxes := [(17, { rung := some 3, reqHdr := [(0, 0x45), (1, 0x46), (2, 0x4E), (3, 0x4F), (4, 4), (5, 1), (6, 3), (7, 128), (8, 1), (9, 1)] })] } }),
     _, .steward, _, _, _, _, rfl, (by decide +kernel), rfl, (by decide +kernel), rfl, rfl, rfl, (by decide +kernel), (by decide +kernel),
     (by decide +kernel), (by decide +kernel), (by decide +kernel), (by decide +kernel), (by decide +kernel), (by decide +kernel),
     (by decide +kernel)⟩,
   ⟨(srv .steward 0x0E01 [] {}), _, .steward, 0, _, rfl, rfl, (by decide +kernel), (by decide +kernel), (by decide +kernel)⟩⟩

theorem wit_KeeperTransportRows :
    (∃ (s : State) (h : Hw) (bus : KeeperBus) (port : Nat) (rid : Nat) (bytes : List Byte), ∃ vendor, h = clearSent s.hw ∧ keeperFrom h bus
     port rid = true ∧ ((vendor ≠ 0x0F1A ∨ bytes.length < 64))) ∧
    (∃ (s : State) (h : Hw) (bus : KeeperBus) (port : Nat) (rid : Nat) (bytes : List Byte), h = clearSent s.hw ∧ keeperFrom h bus port rid =
     true ∧ 64 ≤ bytes.length ∧ mbxReady h .keeper = true) ∧
    (∃ (s : State) (h : Hw) (bus : KeeperBus) (port : Nat) (rid : Nat) (bytes : List Byte), h = clearSent s.hw ∧ keeperFrom h bus port rid =
     true ∧ 64 ≤ bytes.length ∧ mbxReady h .keeper = false) ∧
    (∃ (s : State) (h : Hw) (bus : KeeperBus) (port : Nat) (rid : Nat), h = clearSent s.hw ∧ keeperFrom h bus port rid = true ∧
     h.efano.ready = true) ∧
    (∃ (s : State) (h : Hw) (bus : KeeperBus) (port : Nat) (rid : Nat), ∃ type, h = clearSent s.hw ∧ ((type = 0 ∨ type = 2 ∨ type = 4)) ∧
     keeperFrom h bus port rid = true ∧ h.efano.ready = true) ∧
    (∃ (s : State) (h : Hw) (bus : KeeperBus) (port : Nat) (rid : Nat), h = clearSent s.hw ∧ keeperFrom h bus port rid = true ∧
     h.efano.ready = true) ∧
    (∃ (s : State) (h : Hw) (bus : KeeperBus) (port : Nat) (rid : Nat), h = clearSent s.hw ∧ keeperFrom h bus port rid = true ∧
     h.efano.ready = false) ∧
    (∃ (s : State) (h : Hw) (bus : KeeperBus) (port : Nat) (rid : Nat) (type : Nat), h = clearSent s.hw ∧ type ≠ 0 ∧ type ≠ 2 ∧ type ≠ 4 ∧
     keeperFrom h bus port rid = true) ∧
    (∃ (s : State) (h : Hw) (port : Nat) (rid : Nat) (g : Hw), h = clearSent s.hw ∧ keeperFrom h .pcieVdm port rid = false ∧ (tabGet {}
     h.edges.ports port).up = true ∧ g =
     { h with edges := { h.edges with ports := tabMod {} h.edges.ports port (fun p => { p with discards := p.discards + 1 }) } }) ∧
    (∃ (s : State) (h : Hw) (bus : KeeperBus) (port : Nat) (rid : Nat), h = clearSent s.hw ∧ keeperFrom h bus port rid = false ∧ (bus = .i3c
     ∨ (tabGet {} h.edges.ports port).up = false)) :=
  ⟨⟨(st { tb := { now := 50000000 } }), _, .i3c, 0, 0, [1], 0x0F1A, rfl, (by decide +kernel), (by decide +kernel)⟩,
   ⟨(st { efano := { ready := true }, tb := { now := 50000000 } }), _, .i3c, 0, 0, (List.replicate 64 0), rfl, (by decide +kernel),
     (by decide +kernel), (by decide +kernel)⟩,
   ⟨(st { tb := { now := 50000000 } }), _, .i3c, 0, 0, (List.replicate 64 0), rfl, (by decide +kernel), (by decide +kernel),
     (by decide +kernel)⟩,
   ⟨(st { efano := { ready := true }, tb := { now := 50000000 } }), _, .i3c, 0, 0, rfl, (by decide +kernel), (by decide +kernel)⟩,
   ⟨(st { efano := { ready := true }, tb := { now := 50000000 } }), _, .i3c, 0, 0, 4, rfl, (by decide +kernel), (by decide +kernel),
     (by decide +kernel)⟩,
   ⟨(st { efano := { ready := true }, tb := { now := 50000000 } }), _, .i3c, 0, 0, rfl, (by decide +kernel), (by decide +kernel)⟩,
   ⟨(st { tb := { now := 50000000 } }), _, .i3c, 0, 0, rfl, (by decide +kernel), (by decide +kernel)⟩,
   ⟨(st { tb := { now := 50000000 } }), _, .i3c, 0, 0, 1, rfl, (by decide +kernel), (by decide +kernel), (by decide +kernel),
     (by decide +kernel)⟩,
   ⟨(st { edges := { ports := [(7, { up := true })] } }), _, 7, 0xFFFF, _, rfl, (by decide +kernel), (by decide +kernel), rfl⟩,
   ⟨(st {}), _, .pcieVdm, 7, 0xFFFF, rfl, (by decide +kernel), (by decide +kernel)⟩⟩

theorem wit_SessionRows :
    (∃ (s : State) (h : Hw) (m : Mbx) (tag : Nat) (r : Req), h = clearSent s.hw ∧ Serving s m tag 0x0101 r) ∧
    (∃ (s : State) (h : Hw) (m : Mbx) (tag : Nat) (r : Req), h = clearSent s.hw ∧ Serving s m tag 0x0102 r ∧ leAt r.payload 0 1 ≠ 4) ∧
    (∃ (s : State) (h : Hw) (m : Mbx) (tag : Nat) (r : Req), h = clearSent s.hw ∧ Serving s m tag 0x0102 r ∧ leAt r.payload 0 1 = 4 ∧
     (boxAt h m).sessions.length + 2 ≤ 2 ^ 32) ∧
    (∃ (s : State) (h : Hw) (m : Mbx) (tag : Nat) (r : Req), h = clearSent s.hw ∧ Serving s m tag 0x0103 r) ∧
    (∃ (s : State) (h : Hw) (m : Mbx) (tag : Nat) (r : Req), h = clearSent s.hw ∧ Serving s m tag 0x0104 r) ∧
    (∃ (s : State) (h : Hw) (m : Mbx) (tag : Nat) (r : Req), h = clearSent s.hw ∧ Serving s m tag 0x0105 r ∧ (boxAt h m).prevKind = .kept) ∧
    (∃ (s : State) (h : Hw) (m : Mbx) (tag : Nat) (r : Req), ∃ p, h = clearSent s.hw ∧ m = .part p ∧ Serving s m tag 0x0201 r ∧
     leAt r.payload 0 1 ≠ p) ∧
    (∃ (s : State) (h : Hw) (m : Mbx) (tag : Nat) (r : Req), h = clearSent s.hw ∧ Serving s m tag 0x0201 r ∧
     ((m = .steward ∨ m = .part (leAt r.payload 0 1)))) ∧
    (∃ (s : State) (h : Hw) (m : Mbx) (tag : Nat) (r : Req), h = clearSent s.hw ∧ Serving s m tag 0x0204 r) :=
  ⟨⟨(srv .steward 0x0101 [] {}), _, .steward, 0, (rq 0x0101 []), rfl, (by decide +kernel)⟩,
   ⟨(srv .steward 0x0102 [3] {}), _, .steward, 0, (rq 0x0102 [3]), rfl, (by decide +kernel), (by decide +kernel)⟩,
   ⟨(srv .steward 0x0102 [4] {}), _, .steward, 0, (rq 0x0102 [4]), rfl, (by decide +kernel), (by decide +kernel), (by decide +kernel)⟩,
   ⟨(srv .steward 0x0103 [] {}), _, .steward, 0, (rq 0x0103 []), rfl, (by decide +kernel)⟩,
   ⟨(srv .steward 0x0104 [7, 8] {}), _, .steward, 0, (rq 0x0104 [7, 8]), rfl, (by decide +kernel)⟩,
   ⟨{ hw := { efano := { ready := true, boxes := [(17, { session := 2, prevId := 1, prevKind := .kept, reqs := [rq 0x0105 [0, 0, 0, 0, 0, 0]] })] } } },
     _, .steward, 0, (rq 0x0105 [0, 0, 0, 0, 0, 0]), rfl, (by decide +kernel), (by decide +kernel)⟩,
   ⟨(srv (.part 0) 0x0201 [1] {}), _, (.part 0), 0, (rq 0x0201 [1]), 0, rfl, (by decide +kernel), (by decide +kernel), (by decide +kernel)⟩,
   ⟨(srv .steward 0x0201 [1] {}), _, .steward, 0, (rq 0x0201 [1]), rfl, (by decide +kernel), (by decide +kernel)⟩,
   ⟨(srv .steward 0x0204 [] {}), _, .steward, 0, (rq 0x0204 []), rfl, (by decide +kernel)⟩⟩

theorem wit_PartitionRows :
    (∃ (s : State) (h : Hw) (m : Mbx) (tag : Nat) (r : Req) (p : Nat), h = clearSent s.hw ∧ leAt r.payload 0 1 = p ∧ Serving s m tag 0x0301
     r ∧ p ≠ 0 ∧ p ≤ 16 ∧ partExists h p = false ∧ h.ident.bench = false) ∧
    (∃ (s : State) (h : Hw) (m : Mbx) (tag : Nat) (r : Req) (p : Nat), h = clearSent s.hw ∧ leAt r.payload 0 1 = p ∧ Serving s m tag 0x0301
     r ∧ p ≠ 0 ∧ p ≤ 16 ∧ partExists h p = false ∧ h.ident.bench = true) ∧
    (∃ (s : State) (h : Hw) (m : Mbx) (tag : Nat) (r : Req) (p : Nat), ∃ o, h = clearSent s.hw ∧ leAt r.payload 0 1 = p ∧ Serving s m tag
     0x0303 r ∧ partCheck h m p = none ∧ assignRefusal h p (rangesOf r.payload) = none ∧ (o = (rangesOf r.payload).foldl (fun (a : Hw × List
     Nat × Nat) x => let g := grantRange a.1 p (bitOf (leAt r.payload 1 1) 0) x; (g.1, a.2.1 ++ g.2.1, a.2.2 + g.2.2)) (h, [], 0))) ∧
    (∃ (s : State) (h : Hw) (m : Mbx) (tag : Nat) (r : Req) (p : Nat), h = clearSent s.hw ∧ leAt r.payload 0 1 = p ∧ Serving s m tag 0x0305
     r ∧ m = .part p) ∧
    (∃ (s : State) (h : Hw) (m : Mbx) (tag : Nat) (r : Req) (p : Nat), ∃ q, h = clearSent s.hw ∧ leAt r.payload 0 1 = p ∧ Serving s m tag
     0x0305 r ∧ m = .part q ∧ p ≠ q) ∧
    (∃ (s : State) (h : Hw) (m : Mbx) (tag : Nat) (r : Req) (p : Nat), h = clearSent s.hw ∧ leAt r.payload 0 1 = p ∧ Serving s m tag 0x0306
     r ∧ partCheck h m p = none ∧ leAt r.payload 1 1 = 2 ∧ (partAt h p).nearPlain ≠ bitOf (leAt r.payload 2 1) 0 ∧ swCount h p 1 ≠ 0) ∧
    (∃ (s : State) (h : Hw) (m : Mbx) (tag : Nat) (r : Req) (p : Nat), h = clearSent s.hw ∧ leAt r.payload 0 1 = p ∧ Serving s m tag 0x0306
     r ∧ partCheck h m p = none ∧ leAt r.payload 1 1 = 7 ∧ leAt r.payload 3 1 ≠ 0 ∧ swCount h p 1 = 0) ∧
    (∃ (s : State) (h : Hw) (m : Mbx) (tag : Nat) (r : Req) (p : Nat) (o : HM × List Nat) (us : List (Nat × Nat)) (z : Hw × Memory), h =
     clearSent s.hw ∧ leAt r.payload 0 1 = p ∧ Serving s m tag 0x0304 r ∧ partCheck h m p = none ∧ us = (rangesOf r.payload).flatMap (fun x
     => x.units.map (fun i => (x.kind, i))) ∧ (rangesOf r.payload).any (fun x => !x.ok || x.units.isEmpty) = false ∧ us.eraseDups.length =
     us.length ∧ us.findSome? (fun u => releaseBad h p u.1 u.2 (bitOf (leAt r.payload 1 1) 0)) = none ∧ (∀ g, g ∈ [4, 5, 6, 7] →
     (((us.filter (fun u => decide (u.1 = 1) && isAperture u.2)).foldl (fun rs u => dropAperture rs (u.2 * 2 ^ 21)) h.sel.ranges).filter
     (fun x => decide (regionOf x.first = g))).length ≤ 64) ∧ z = ((rangesOf r.payload).filter (fun x => x.kind = 4)).foldl (fun hm x =>
     x.units.foldl forceGroup hm) (h, s.mem) ∧ o = (rangesOf r.payload).foldl (fun (a : HM × List Nat) x => let g := releaseRange a.1 p x;
     (g.1, a.2 ++ g.2)) (z, []) ∧ o.2 ≠ []) ∧
    (∃ (s : State) (h : Hw) (m : Mbx) (tag : Nat) (r : Req) (p : Nat), h = clearSent s.hw ∧ leAt r.payload 0 1 = p ∧ Serving s m tag 0x0302
     r ∧ p ≠ 0 ∧ p ≤ 16 ∧ partExists h p = true ∧ destroying h p = false ∧ m = .steward ∧ (∀ a, a ∈ h.sel.ranges → a.owner ≠ p) ∧ (∀ e, e ∈
     h.coh.wayOwner → e.2 ≠ p + 1) ∧ (∀ e, e ∈ h.sel.swatches → e.2.owner ≠ p) ∧ (∀ e, e ∈ h.sel.units → e.2.owner ≠ p) ∧ (∀ x, x ∈
     h.sel.scrubs → x.done = true ∨ x.from_ ≠ p) ∧ (∀ f, f ∈ h.faults.fences → f.part ≠ p)) :=
  ⟨⟨(srv .steward 0x0301 [1] {}), _, .steward, 0, (rq 0x0301 [1]), 1, rfl, (by decide +kernel), (by decide +kernel), (by decide +kernel),
     (by decide +kernel), (by decide +kernel), (by decide +kernel)⟩,
   ⟨(srv .steward 0x0301 [16] { ident := { bench := true } }), _, .steward, 0, (rq 0x0301 [16]), 16, rfl, (by decide +kernel),
     (by decide +kernel), (by decide +kernel), (by decide +kernel), (by decide +kernel), (by decide +kernel)⟩,
   ⟨(srv .steward 0x0303 [1, 0, 0, 0, 1, 0, 0, 0, 2, 0, 0, 0, 1, 0, 0, 0, 15]
     { sel := { parts := [(1, { exists_ := true })], units := [] }, coh := { wayOwner := [(0, 2)] } }), _, .steward, 0, (rq 0x0303 [1, 0, 0,
     0, 1, 0, 0, 0, 2, 0, 0, 0, 1, 0, 0, 0, 15]), 1, _, rfl, (by decide +kernel), (by decide +kernel), (by decide +kernel),
     (by decide +kernel), rfl⟩,
   ⟨(srv (.part 0) 0x0305 [0] {}), _, (.part 0), 0, (rq 0x0305 [0]), 0, rfl, (by decide +kernel), (by decide +kernel), (by decide +kernel)⟩,
   ⟨(srv (.part 0) 0x0305 [1] {}), _, (.part 0), 0, (rq 0x0305 [1]), 1, 0, rfl, (by decide +kernel), (by decide +kernel),
     (by decide +kernel), (by decide +kernel)⟩,
   ⟨(srv .steward 0x0306 [1, 2, 1]
     { sel := { parts := [(1, { exists_ := true })], swatches := [(2 ^ 27, { owner := 1, state := .owned })] } }), _, .steward, 0, (rq
     0x0306 [1, 2, 1]), 1, rfl, (by decide +kernel), (by decide +kernel), (by decide +kernel), (by decide +kernel), (by decide +kernel),
     (by decide +kernel)⟩,
   ⟨(srv .steward 0x0306 [1, 7, 1, 16] { sel := { parts := [(1, { exists_ := true })] } }), _, .steward, 0, (rq 0x0306 [1, 7, 1, 16]), 1,
     rfl, (by decide +kernel), (by decide +kernel), (by decide +kernel), (by decide +kernel), (by decide +kernel), (by decide +kernel)⟩,
   ⟨(srv .steward 0x0304 [1, 0, 0, 0, 1, 0, 0, 0, 5, 0, 0, 0, 1, 0, 0, 0, 9]
     { sel := { parts := [(1, { exists_ := true })], units := [(unitKey 5 9, { owner := 1, state := .owned })] } }), _, .steward, 0, (rq
     0x0304 [1, 0, 0, 0, 1, 0, 0, 0, 5, 0, 0, 0, 1, 0, 0, 0, 9]), 1, _, _, _, rfl, (by decide +kernel), (by decide +kernel),
     (by decide +kernel), rfl, (by decide +kernel), (by decide +kernel), (by decide +kernel), (by decide +kernel), rfl, rfl,
     (by decide +kernel)⟩,
   ⟨(srv .steward 0x0302 [16] { sel := { parts := [(16, { exists_ := true })] } }), _, .steward, 0, (rq 0x0302 [16]), 16, rfl,
     (by decide +kernel), (by decide +kernel), (by decide +kernel), (by decide +kernel), (by decide +kernel), (by decide +kernel), rfl,
     (by decide +kernel), (by decide +kernel), (by decide +kernel), (by decide +kernel), (by decide +kernel), (by decide +kernel)⟩⟩

theorem wit_ShelfAndScrubRows :
    (∃ (s : State) (h : Hw) (m : Mbx) (tag : Nat) (r : Req), ∃ w, h = clearSent s.hw ∧ Serving s m tag 0x0307 r ∧ partCheck h m (leAt
     r.payload 0 1) = none ∧ w < 512 ∧ bitOf (newMask h r.payload (leAt r.payload 0 1) (w / 16)) (w % 16) = true ∧ tabGet 0 h.coh.wayOwner w
     ≠ 0 ∧ tabGet 0 h.coh.wayOwner w ≠ leAt r.payload 0 1 + 1) ∧
    (∃ (s : State) (h : Hw), ∃ seq x, h = clearSent s.hw ∧ findScrub h seq = some x ∧ x.done = false ∧ x.all = false) ∧
    (∃ (s : State) (h : Hw) (m : Mbx) (tag : Nat) (r : Req) (p : Nat), h = clearSent s.hw ∧ m = .part p ∧ Serving s m tag 0x0308 r ∧
     nowOwner h (leAt r.payload 0 1) (leAt r.payload 4 4) ≠ p) ∧
    (∃ (s : State) (h : Hw) (m : Mbx) (tag : Nat) (r : Req) (x : ScrubRec), h = clearSent s.hw ∧ Serving s m tag 0x0308 r ∧ (∀ p, m = .part
     p → nowOwner h (leAt r.payload 0 1) (leAt r.payload 4 4) = p) ∧ reportFor h (leAt r.payload 0 1) (leAt r.payload 4 4) = some x) ∧
    (∃ (s : State) (h : Hw) (k : Nat), h = clearSent s.hw ∧ h.efano.ready = true ∧ swatchExists h k = true ∧ populated h (k * 2 ^ 21) = true
     ∧ (swGet h k).state = .blank ∧ (regionOf (k * 2 ^ 21) = 0 → h.memhw.farOpen = true) ∧ (regionOf (k * 2 ^ 21) = 1 → h.memhw.nearOpen =
     true) ∧ tabWf (swBase h) h.sel.swatches = true) ∧
    (∃ (s : State) (h : Hw) (r : Req) (p : Nat) (out : List Nat) (into : List Nat) (o : HM) (x : Reply) (w : Nat), h = clearSent s.hw ∧ p =
     leAt r.payload 0 1 ∧ tabWf 0 h.coh.wayOwner = true ∧ out = (List.range 512).filter (fun w => decide (tabGet 0 h.coh.wayOwner w = p + 1)
     && !bitOf (newMask h r.payload p (w / 16)) (w % 16)) ∧ into = (List.range 512).filter (fun w => bitOf (newMask h r.payload p (w / 16))
     (w % 16) && !decide (tabGet 0 h.coh.wayOwner w = p + 1)) ∧ waysPass (h, s.mem) p out into = (o, x) ∧ x.again = false ∧ w < 512) ∧
    (∃ (s : State) (h : Hw) (m : Mbx) (tag : Nat) (r : Req) (p : Nat) (out : List Nat) (into : List Nat) (o : HM) (x : Reply), h = clearSent
     s.hw ∧ p = leAt r.payload 0 1 ∧ tabWf 0 h.coh.wayOwner = true ∧ out = (List.range 512).filter (fun w => decide (tabGet 0 h.coh.wayOwner
     w = p + 1) && !bitOf (newMask h r.payload p (w / 16)) (w % 16)) ∧ into = (List.range 512).filter (fun w => bitOf (newMask h r.payload p
     (w / 16)) (w % 16) && !decide (tabGet 0 h.coh.wayOwner w = p + 1)) ∧ waysPass (h, s.mem) p out into = (o, x) ∧ Serving s m tag 0x0307 r
     ∧ partCheck h m p = none ∧ (∀ w, w ∈ into → tabGet 0 h.coh.wayOwner w = 0) ∧ ((∃ w, w < 512 ∧ bitOf (newMask h r.payload p (w / 16)) (w
     % 16) = true) ∨ (∀ e, e ∈ h.sel.units → e.2.owner = p → e.1 / 2 ^ 32 ∉ [2, 3, 4])) ∧ (∃ w, w ∈ out ++ into ∧ slotBusy h (w / 16) =
     true)) ∧
    (∃ (s : State) (h : Hw) (m : Mbx) (tag : Nat) (r : Req) (p : Nat) (out : List Nat) (into : List Nat) (o : HM) (x : Reply), h = clearSent
     s.hw ∧ p = leAt r.payload 0 1 ∧ tabWf 0 h.coh.wayOwner = true ∧ out = (List.range 512).filter (fun w => decide (tabGet 0 h.coh.wayOwner
     w = p + 1) && !bitOf (newMask h r.payload p (w / 16)) (w % 16)) ∧ into = (List.range 512).filter (fun w => bitOf (newMask h r.payload p
     (w / 16)) (w % 16) && !decide (tabGet 0 h.coh.wayOwner w = p + 1)) ∧ waysPass (h, s.mem) p out into = (o, x) ∧ Serving s m tag 0x0307 r
     ∧ partCheck h m p = none ∧ (∀ w, w ∈ into → tabGet 0 h.coh.wayOwner w = 0) ∧ ((∃ w, w < 512 ∧ bitOf (newMask h r.payload p (w / 16)) (w
     % 16) = true) ∨ (∀ e, e ∈ h.sel.units → e.2.owner = p → e.1 / 2 ^ 32 ∉ [2, 3, 4])) ∧ (∀ w, w ∈ out ++ into → slotBusy h (w / 16) =
     false) ∧ x.again = false) ∧
    (∃ (s : State) (h : Hw) (m : Mbx) (tag : Nat) (r : Req) (p : Nat) (out : List Nat) (into : List Nat) (o : HM) (x : Reply), h = clearSent
     s.hw ∧ p = leAt r.payload 0 1 ∧ tabWf 0 h.coh.wayOwner = true ∧ out = (List.range 512).filter (fun w => decide (tabGet 0 h.coh.wayOwner
     w = p + 1) && !bitOf (newMask h r.payload p (w / 16)) (w % 16)) ∧ into = (List.range 512).filter (fun w => bitOf (newMask h r.payload p
     (w / 16)) (w % 16) && !decide (tabGet 0 h.coh.wayOwner w = p + 1)) ∧ waysPass (h, s.mem) p out into = (o, x) ∧ Serving s m tag 0x0307 r
     ∧ partCheck h m p = none ∧ (∀ w, w ∈ into → tabGet 0 h.coh.wayOwner w = 0) ∧ ((∃ w, w < 512 ∧ bitOf (newMask h r.payload p (w / 16)) (w
     % 16) = true) ∨ (∀ e, e ∈ h.sel.units → e.2.owner = p → e.1 / 2 ^ 32 ∉ [2, 3, 4])) ∧ (∀ w, w ∈ out ++ into → slotBusy h (w / 16) =
     false) ∧ x.again = true) ∧
    (∃ (s : State) (h : Hw) (m : Mbx) (tag : Nat) (r : Req) (p : Nat) (out : List Nat) (into : List Nat) (o : HM) (x : Reply), h = clearSent
     s.hw ∧ p = leAt r.payload 0 1 ∧ tabWf 0 h.coh.wayOwner = true ∧ out = (List.range 512).filter (fun w => decide (tabGet 0 h.coh.wayOwner
     w = p + 1) && !bitOf (newMask h r.payload p (w / 16)) (w % 16)) ∧ into = (List.range 512).filter (fun w => bitOf (newMask h r.payload p
     (w / 16)) (w % 16) && !decide (tabGet 0 h.coh.wayOwner w = p + 1)) ∧ waysPass (h, s.mem) p out into = (o, x) ∧ nextReq (boxAt h m) =
     none ∧ (boxAt h m).reqs.find? (fun q => q.again && !q.ended && decide (q.tag = tag ∧ q.cmd = 0x0307)) = some r ∧ mbxReady h m = true ∧
     x.again = false) ∧
    (∃ (s : State) (h : Hw) (m : Mbx) (tag : Nat) (r : Req) (p : Nat) (out : List Nat) (into : List Nat) (o : HM) (x : Reply), h = clearSent
     s.hw ∧ p = leAt r.payload 0 1 ∧ tabWf 0 h.coh.wayOwner = true ∧ out = (List.range 512).filter (fun w => decide (tabGet 0 h.coh.wayOwner
     w = p + 1) && !bitOf (newMask h r.payload p (w / 16)) (w % 16)) ∧ into = (List.range 512).filter (fun w => bitOf (newMask h r.payload p
     (w / 16)) (w % 16) && !decide (tabGet 0 h.coh.wayOwner w = p + 1)) ∧ waysPass (h, s.mem) p out into = (o, x) ∧ nextReq (boxAt h m) =
     none ∧ (boxAt h m).reqs.find? (fun q => q.again && !q.ended && decide (q.tag = tag ∧ q.cmd = 0x0307)) = some r ∧ mbxReady h m = true ∧
     x.again = true) ∧
    (∃ (s : State) (h : Hw) (r : Req) (slots : List Nat) (into : List Nat) (out : List Nat) (y : Hw) (o : HM) (x : Reply) (n : Nat), h =
     clearSent s.hw ∧ slots = (List.range 32).filter (bitOf (leAt r.payload 0 4)) ∧ into = slots.flatMap (fun n => ((List.range 6).filter
     (fun k => bitOf (leAt r.payload (8 + n) 1) k && !bitOf (tabGet 0 h.coh.split n) k)).map (slotSwatch n)) ∧ out = slots.flatMap (fun n =>
     ((List.range 6).filter (fun k => !bitOf (leAt r.payload (8 + n) 1) k && bitOf (tabGet 0 h.coh.split n) k)).map (slotSwatch n)) ∧ y =
     into.foldl (fun g k => setSwatch g k { swGet g k with state := .cache }) h ∧ splitShelf
     ({ y with coh := { y.coh with bypass := y.coh.bypass ++ slots } }, s.mem) r.payload slots out = (o, x) ∧ x.again = false ∧ n ∈ slots ∧
     leAt r.payload (8 + n) 1 ≠ 0) ∧
    (∃ (s : State) (h : Hw) (m : Mbx) (tag : Nat) (r : Req) (slots : List Nat) (into : List Nat) (out : List Nat) (y : Hw) (o : HM) (x :
     Reply), h = clearSent s.hw ∧ slots = (List.range 32).filter (bitOf (leAt r.payload 0 4)) ∧ into = slots.flatMap (fun n => ((List.range
     6).filter (fun k => bitOf (leAt r.payload (8 + n) 1) k && !bitOf (tabGet 0 h.coh.split n) k)).map (slotSwatch n)) ∧ out = slots.flatMap
     (fun n => ((List.range 6).filter (fun k => !bitOf (leAt r.payload (8 + n) 1) k && bitOf (tabGet 0 h.coh.split n) k)).map (slotSwatch
     n)) ∧ y = into.foldl (fun g k => setSwatch g k { swGet g k with state := .cache }) h ∧ splitShelf
     ({ y with coh := { y.coh with bypass := y.coh.bypass ++ slots } }, s.mem) r.payload slots out = (o, x) ∧ Serving s m tag 0x0309 r ∧ ((∃
     k, k ∈ into ++ out ∧ (swGet h k).state ∉ [.free, .cache]) ∨ (∃ n, n ∈ slots ∧ slotBusy h n = true))) ∧
    (∃ (s : State) (h : Hw) (m : Mbx) (tag : Nat) (r : Req) (slots : List Nat) (into : List Nat) (out : List Nat) (y : Hw) (o : HM) (x :
     Reply), h = clearSent s.hw ∧ slots = (List.range 32).filter (bitOf (leAt r.payload 0 4)) ∧ into = slots.flatMap (fun n => ((List.range
     6).filter (fun k => bitOf (leAt r.payload (8 + n) 1) k && !bitOf (tabGet 0 h.coh.split n) k)).map (slotSwatch n)) ∧ out = slots.flatMap
     (fun n => ((List.range 6).filter (fun k => !bitOf (leAt r.payload (8 + n) 1) k && bitOf (tabGet 0 h.coh.split n) k)).map (slotSwatch
     n)) ∧ y = into.foldl (fun g k => setSwatch g k { swGet g k with state := .cache }) h ∧ splitShelf
     ({ y with coh := { y.coh with bypass := y.coh.bypass ++ slots } }, s.mem) r.payload slots out = (o, x) ∧ Serving s m tag 0x0309 r ∧ (∀
     k, k ∈ into ++ out → (swGet h k).state ∈ [.free, .cache]) ∧ (∀ n, n ∈ slots → slotBusy h n = false) ∧ x.again = true) ∧
    (∃ (s : State) (h : Hw) (m : Mbx) (tag : Nat) (r : Req) (slots : List Nat) (into : List Nat) (out : List Nat) (y : Hw) (o : HM) (x :
     Reply), h = clearSent s.hw ∧ slots = (List.range 32).filter (bitOf (leAt r.payload 0 4)) ∧ into = slots.flatMap (fun n => ((List.range
     6).filter (fun k => bitOf (leAt r.payload (8 + n) 1) k && !bitOf (tabGet 0 h.coh.split n) k)).map (slotSwatch n)) ∧ out = slots.flatMap
     (fun n => ((List.range 6).filter (fun k => !bitOf (leAt r.payload (8 + n) 1) k && bitOf (tabGet 0 h.coh.split n) k)).map (slotSwatch
     n)) ∧ y = into.foldl (fun g k => setSwatch g k { swGet g k with state := .cache }) h ∧ splitShelf
     ({ y with coh := { y.coh with bypass := y.coh.bypass ++ slots } }, s.mem) r.payload slots out = (o, x) ∧ Serving s m tag 0x0309 r ∧ (∀
     k, k ∈ into ++ out → (swGet h k).state ∈ [.free, .cache]) ∧ (∀ n, n ∈ slots → slotBusy h n = false) ∧ x.again = false ∧ out = []) ∧
    (∃ (s : State) (h : Hw) (m : Mbx) (tag : Nat) (r : Req) (slots : List Nat) (into : List Nat) (out : List Nat) (y : Hw) (o : HM) (x :
     Reply), h = clearSent s.hw ∧ slots = (List.range 32).filter (bitOf (leAt r.payload 0 4)) ∧ into = slots.flatMap (fun n => ((List.range
     6).filter (fun k => bitOf (leAt r.payload (8 + n) 1) k && !bitOf (tabGet 0 h.coh.split n) k)).map (slotSwatch n)) ∧ out = slots.flatMap
     (fun n => ((List.range 6).filter (fun k => !bitOf (leAt r.payload (8 + n) 1) k && bitOf (tabGet 0 h.coh.split n) k)).map (slotSwatch
     n)) ∧ y = into.foldl (fun g k => setSwatch g k { swGet g k with state := .cache }) h ∧ splitShelf
     ({ y with coh := { y.coh with bypass := y.coh.bypass ++ slots } }, s.mem) r.payload slots out = (o, x) ∧ Serving s m tag 0x0309 r ∧ (∀
     k, k ∈ into ++ out → (swGet h k).state ∈ [.free, .cache]) ∧ (∀ n, n ∈ slots → slotBusy h n = false) ∧ x.again = false ∧ out ≠ []) :=
  ⟨⟨(srv .steward 0x0307 [0, 0, 0, 0, 1, 0, 0, 0, 1] { coh := { wayOwner := [(0, 5)] } }), _, .steward, 0, (rq 0x0307 [0, 0, 0, 0, 1, 0, 0,
     0, 1]), 0, rfl, (by decide +kernel), (by decide +kernel), (by decide +kernel), (by decide +kernel), (by decide +kernel),
     (by decide +kernel)⟩,
   ⟨(srv .steward 0x0308 [] { sel := { scrubs := [{ seq := 4, units := [0] }] } }), _, 4, _, rfl, rfl, (by decide +kernel),
     (by decide +kernel)⟩,
   ⟨(srv (.part 0) 0x0308 [2] {}), _, (.part 0), 0, (rq 0x0308 [2]), 0, rfl, rfl, (by decide +kernel), (by decide +kernel)⟩,
   ⟨(srv .steward 0x0308 [2] { sel := { scrubs := [{ kind := 2, units := [0], done := true }] } }), _, .steward, 0, (rq 0x0308 [2]), _, rfl,
     (by decide +kernel), (fun _ e => nomatch e), rfl⟩,
   ⟨(st { ident := { c0Gib := 1 }, efano := { ready := true }, memhw := { farOpen := true } }), _, 511, rfl, (by decide +kernel),
     (by decide +kernel), (by decide +kernel), (by decide +kernel), (by decide +kernel), (by decide +kernel), (by decide +kernel)⟩,
   ⟨(srv .steward 0x0307 [0, 0, 0, 0, 1, 0, 0, 0, 2, 0] { coh := { wayOwner := [(0, 1)] } }), _, (rq 0x0307 [0, 0, 0, 0, 1, 0, 0, 0, 2, 0]),
     0, _, _, _, _, 511, rfl, rfl, (by decide +kernel), rfl, rfl, Prod.mk.eta.symm, (by decide +kernel), (by decide +kernel)⟩,
   ⟨(srv .steward 0x0307 [0, 0, 0, 0, 1, 0, 0, 0, 2, 0] { coh := { bypass := [0] } }), _, .steward, 0, (rq 0x0307 [0, 0, 0, 0, 1, 0, 0, 0,
     2, 0]), 0, _, _, _, _, rfl, rfl, (by decide +kernel), rfl, rfl, Prod.mk.eta.symm, (by decide +kernel), (by decide +kernel),
     (by decide +kernel), (.inl ⟨1, by decide +kernel, by decide +kernel⟩), ⟨1, by decide +kernel, by decide +kernel⟩⟩,
   ⟨(srv .steward 0x0307 [0, 0, 0, 0, 1, 0, 0, 0, 2, 0] { coh := { wayOwner := [(0, 1)] } }), _, .steward, 0, (rq 0x0307 [0, 0, 0, 0, 1, 0,
     0, 0, 2, 0]), 0, _, _, _, _, rfl, rfl, (by decide +kernel), rfl, rfl, Prod.mk.eta.symm, (by decide +kernel), (by decide +kernel),
     (by decide +kernel), (.inl ⟨1, by decide +kernel, by decide +kernel⟩), (by decide +kernel), (by decide +kernel)⟩,
   ⟨(srv .steward 0x0307 [0, 0, 0, 0, 1, 0, 0, 0, 2, 0] { coh := { wayOwner := [(0, 1)] }, arch := { writes := [{ by_ := .cache }] } }), _,
     .steward, 0, (rq 0x0307 [0, 0, 0, 0, 1, 0, 0, 0, 2, 0]), 0, _, _, _, _, rfl, rfl, (by decide +kernel), rfl, rfl, Prod.mk.eta.symm,
     (by decide +kernel), (by decide +kernel), (by decide +kernel), (.inl ⟨1, by decide +kernel, by decide +kernel⟩), (by decide +kernel),
     (by decide +kernel)⟩,
   ⟨(st
     { efano := { ready := true, boxes := [(mbxKey .steward, { session := 1, reqs := [{ rq 0x0307 [0, 0, 0, 0, 1, 0, 0, 0, 2, 0] with begun := true, again := true }] })] }, coh := { wayOwner := [(0, 1)] } }),
     _, .steward, 0, { rq 0x0307 [0, 0, 0, 0, 1, 0, 0, 0, 2, 0] with begun := true, again := true }, 0, _, _, _, _, rfl, rfl,
     (by decide +kernel), rfl, rfl, Prod.mk.eta.symm, (by decide +kernel), (by decide +kernel), (by decide +kernel), (by decide +kernel)⟩,
   ⟨(st
     { efano := { ready := true, boxes := [(mbxKey .steward, { session := 1, reqs := [{ rq 0x0307 [0, 0, 0, 0, 1, 0, 0, 0, 2, 0] with begun := true, again := true }] })] }, coh := { wayOwner := [(0, 1)] }, arch := { writes := [{ by_ := .cache }] } }),
     _, .steward, 0, { rq 0x0307 [0, 0, 0, 0, 1, 0, 0, 0, 2, 0] with begun := true, again := true }, 0, _, _, _, _, rfl, rfl,
     (by decide +kernel), rfl, rfl, Prod.mk.eta.symm, (by decide +kernel), (by decide +kernel), (by decide +kernel), (by decide +kernel)⟩,
   ⟨(srv .steward 0x0309 [1, 0, 0, 0, 0, 0, 0, 0, 1] { sel := { base := .free } }), _, (rq 0x0309 [1, 0, 0, 0, 0, 0, 0, 0, 1]), _, _, _, _,
     _, _, 0, rfl, rfl, rfl, rfl, rfl, Prod.mk.eta.symm, (by decide +kernel), (by decide +kernel), (by decide +kernel)⟩,
   ⟨(srv .steward 0x0309 [1, 0, 0, 0, 0, 0, 0, 0, 1] { sel := { base := .blank } }), _, .steward, 0, (rq 0x0309 [1, 0, 0, 0, 0, 0, 0, 0,
     1]), _, _, _, _, _, _, rfl, rfl, rfl, rfl, rfl, Prod.mk.eta.symm, (by decide +kernel), (.inl ⟨slotSwatch 0 0, by decide +kernel,
     by decide +kernel⟩)⟩,
   ⟨(srv .steward 0x0309 [1, 0, 0, 0, 0, 0, 0, 0, 1]
     { sel := { base := .free }, coh := { mshrs := [(400, [{ num := 0, line := 5, part := 0 }])] } }), _, .steward, 0, (rq 0x0309 [1, 0, 0,
     0, 0, 0, 0, 0, 1]), _, _, _, _, _, _, rfl, rfl, rfl, rfl, rfl, Prod.mk.eta.symm, (by decide +kernel), (by decide +kernel),
     (by decide +kernel), (by decide +kernel)⟩,
   ⟨(srv .steward 0x0309 [1, 0, 0, 0, 0, 0, 0, 0, 1] { sel := { base := .free } }), _, .steward, 0, (rq 0x0309 [1, 0, 0, 0, 0, 0, 0, 0, 1]),
     _, _, _, _, _, _, rfl, rfl, rfl, rfl, rfl, Prod.mk.eta.symm, (by decide +kernel), (by decide +kernel), (by decide +kernel),
     (by decide +kernel), rfl⟩,
   ⟨(srv .steward 0x0309 [1, 0, 0, 0, 0, 0, 0, 0, 0]
     { sel := { base := .free, swatches := [(slotSwatch 0 0, { state := .cache })] }, coh := { split := [(0, 1)] } }), _, .steward, 0, (rq
     0x0309 [1, 0, 0, 0, 0, 0, 0, 0, 0]), _, _, _, _, _, _, rfl, rfl, rfl, rfl, rfl, Prod.mk.eta.symm, (by decide +kernel),
     (by decide +kernel), (by decide +kernel), (by decide +kernel), (by decide +kernel)⟩⟩

theorem wit_ObjectAndLockRows :
    (∃ (s : State) (h : Hw) (m : Mbx) (tag : Nat) (r : Req), ∃ id o x, h = clearSent s.hw ∧ Serving s m tag 0x0402 r ∧ id = leAt r.payload 0
     2 ∧ o = objOf r.payload ∧ x = objAt h (actsFor m) id ∧ x.used = true ∧ ownsArea h (actsFor m) o.transit (65536 * o.slots) = true ∧
     o.mode = x.mode ∧ o.format = x.format ∧ o.rows = x.rows ∧ o.cols = x.cols ∧ o.count = x.count ∧ o.map = x.map ∧ objVarOk o (leAt
     r.payload 17 1) = true) ∧
    (∃ (s : State) (h : Hw) (m : Mbx) (tag : Nat) (r : Req), ∃ id, h = clearSent s.hw ∧ Serving s m tag 0x0403 r ∧ id = leAt r.payload 0 2 ∧
     (objAt h (actsFor m) id).used = true) ∧
    (∃ (s : State) (h : Hw) (m : Mbx) (tag : Nat) (r : Req), ∃ id, h = clearSent s.hw ∧ Serving s m tag 0x0404 r ∧ id = leAt r.payload 0 2 ∧
     (objAt h (actsFor m) id).used = true) ∧
    (∃ (s : State) (h : Hw) (m : Mbx) (tag : Nat) (r : Req), h = clearSent s.hw ∧ Serving s m tag 0x0405 r) ∧
    (∃ (s : State) (h : Hw) (m : Mbx) (tag : Nat) (r : Req), h = clearSent s.hw ∧ Serving s m tag 0x0501 r ∧ leAt r.payload 0 2 < 1024 ∧
     mayName h m 5 (leAt r.payload 0 2) = true) ∧
    (∃ (s : State) (h : Hw) (m : Mbx) (tag : Nat) (r : Req), h = clearSent s.hw ∧ Serving s m tag 0x0502 r ∧ leAt r.payload 0 1 < 34 ∧
     mayName h m 4 (leAt r.payload 0 1) = true) ∧
    (∃ (s : State) (h : Hw) (m : Mbx) (tag : Nat) (r : Req), h = clearSent s.hw ∧ Serving s m tag 0x0601 r ∧ lockShape r.payload = true ∧
     ((∀ q ∈ lockNamed r.payload, ownerOf h 3 q = actsFor m ∧ lockOf h q = none ∧ (islandAt h { kind := .quad, idx := q }).power = .open))) ∧
    (∃ (s : State) (h : Hw), ∃ die first g, h = clearSent s.hw ∧ g ∈ h.locks ∧ g.die = die ∧ g.first = first ∧ g.locked = false) ∧
    (∃ (s : State) (h : Hw) (m : Mbx) (tag : Nat) (r : Req), h = clearSent s.hw ∧ Serving s m tag 0x0602 r ∧ lockShape r.payload = true ∧ (∀
     q ∈ lockNamed r.payload, ownerOf h 3 q = actsFor m ∧ ∀ x ∈ quadRuns h q, x.running = false) ∧ (∃ g ∈ h.locks, g.die = leAt r.payload 0
     1 ∧ g.first = leAt r.payload 1 1 ∧ g.size = leAt r.payload 2 1) ∧ (∀ g ∈ h.locks, g.die = leAt r.payload 0 1 → g.first = leAt r.payload
     1 1 → g.size = leAt r.payload 2 1 → g.locked = true)) ∧
    (∃ (s : State) (h : Hw) (m : Mbx) (tag : Nat) (r : Req) (id : Nat) (o : ObjRec), h = clearSent s.hw ∧ Serving s m tag 0x0401 r ∧ id =
     leAt r.payload 0 2 ∧ o = objOf r.payload ∧ ownsArea h (actsFor m) o.map (32 * o.count) = true ∧ ownsArea h (actsFor m) o.transit (65536
     * o.slots) = true ∧ id < 1024 ∧ o.mode ≤ 1 ∧ 1 ≤ o.format ∧ o.format ≤ 0x0E ∧ 1 ≤ o.rows ∧ o.rows ≤ 65536 ∧ 1 ≤ o.cols ∧ o.cols ≤ 65536
     ∧ o.cols % 32 = 0 ∧ boltBytes (fmtBits o.format) (decide (3 ≤ o.format ∧ o.format ≤ 7)) o.rows o.cols ≤ 65536 ∧ 1 ≤ o.count ∧ o.count ≤
     16777216 ∧ o.map % 32 = 0 ∧ o.map < 2 ^ 56 ∧ objVarOk o (leAt r.payload 17 1) = true ∧ (h.tiers.objects.filter (fun e => decide (e.1 /
     1024 = actsFor m))).length < 1024 ∧ (objAt h (actsFor m) id).used = false) :=
  ⟨⟨(srv .steward 0x0402 [0, 0, 0, 1, 1, 0, 0, 0, 32, 0, 0, 0, 1, 0, 0, 0, 1, 0, 1, 0, 0, 0, 0, 0, 0, 0, 0, 0, 0, 0, 0, 0, 0, 0, 0, 0, 0,
     0x20, 0, 0]
     { ident := { c0Gib := 1 }, sel := { swatches := [(0, { owner := 0, state := .owned }), (2 ^ 28, { owner := 0, state := .owned })] }, tiers := { objects := [(0, { used := true, format := 1, rows := 1, cols := 32, count := 1 })] } }),
     _, .steward, 0, (rq 0x0402 [0, 0, 0, 1, 1, 0, 0, 0, 32, 0, 0, 0, 1, 0, 0, 0, 1, 0, 1, 0, 0, 0, 0, 0, 0, 0, 0, 0, 0, 0, 0, 0, 0, 0, 0,
     0, 0, 0x20, 0, 0]), _, _, _, rfl, (by decide +kernel), rfl, rfl, rfl, (by decide +kernel), (by decide +kernel), (by decide +kernel),
     (by decide +kernel), (by decide +kernel), (by decide +kernel), (by decide +kernel), (by decide +kernel), (by decide +kernel)⟩,
   ⟨(srv .steward 0x0403 [0, 0] { tiers := { objects := [(0, { used := true, format := 1, rows := 1, cols := 32, count := 1 })] } }), _,
     .steward, 0, (rq 0x0403 [0, 0]), _, rfl, (by decide +kernel), rfl, (by decide +kernel)⟩,
   ⟨(srv .steward 0x0404 [0, 0] { tiers := { objects := [(0, { used := true, format := 1, rows := 1, cols := 32, count := 1 })] } }), _,
     .steward, 0, (rq 0x0404 [0, 0]), _, rfl, (by decide +kernel), rfl, (by decide +kernel)⟩,
   ⟨(srv .steward 0x0405 [] {}), _, .steward, 0, (rq 0x0405 []), rfl, (by decide +kernel)⟩,
   ⟨(srv (.part 0) 0x0501 [255, 3] { sel := { units := [(unitKey 5 1023, { owner := 0, state := .owned })] } }), _, (.part 0), 0, (rq 0x0501
     [255, 3]), rfl, (by decide +kernel), (by decide +kernel), (by decide +kernel)⟩,
   ⟨(srv (.part 0) 0x0502 [33] { sel := { units := [(unitKey 4 33, { owner := 0, state := .owned })] } }), _, (.part 0), 0, (rq 0x0502
     [33]), rfl, (by decide +kernel), (by decide +kernel), (by decide +kernel)⟩,
   ⟨(srv .steward 0x0601 [3, 30, 2]
     { sel := { units := [(unitKey 3 126, { owner := 0, state := .owned }), (unitKey 3 127, { owner := 0, state := .owned })] } }), _,
     .steward, 0, (rq 0x0601 [3, 30, 2]), rfl, (by decide +kernel), (by decide +kernel), (by decide +kernel)⟩,
   ⟨(st { locks := [{ die := 3, first := 30, size := 2 }] }), _, _, _, { die := 3, first := 30, size := 2 }, rfl, (by decide +kernel), rfl,
     rfl, (by decide +kernel)⟩,
   ⟨(srv .steward 0x0602 [3, 30, 2]
     { locks := [{ die := 3, first := 30, size := 2, locked := true }], sel := { units := [(unitKey 3 126, { owner := 0, state := .owned }), (unitKey 3 127, { owner := 0, state := .owned })] } }),
     _, .steward, 0, (rq 0x0602 [3, 30, 2]), rfl, (by decide +kernel), (by decide +kernel), (by decide +kernel), (by decide +kernel),
     (by decide +kernel)⟩,
   ⟨(srv .steward 0x0401 [0, 0, 0, 1, 1, 0, 0, 0, 32, 0, 0, 0, 1, 0, 0, 0, 1, 0, 1, 0, 0, 0, 0, 0, 0, 0, 0, 0, 0, 0, 0, 0, 0, 0, 0, 0, 0,
     0x20, 0, 0]
     { ident := { c0Gib := 1 }, sel := { swatches := [(0, { owner := 0, state := .owned }), (2 ^ 28, { owner := 0, state := .owned })] } }),
     _, .steward, 0, (rq 0x0401 [0, 0, 0, 1, 1, 0, 0, 0, 32, 0, 0, 0, 1, 0, 0, 0, 1, 0, 1, 0, 0, 0, 0, 0, 0, 0, 0, 0, 0, 0, 0, 0, 0, 0, 0,
     0, 0, 0x20, 0, 0]), _, _, rfl, (by decide +kernel), rfl, rfl, (by decide +kernel), (by decide +kernel), (by decide +kernel),
     (by decide +kernel), (by decide +kernel), (by decide +kernel), (by decide +kernel), (by decide +kernel), (by decide +kernel),
     (by decide +kernel), (by decide +kernel), (by decide +kernel), (by decide +kernel), (by decide +kernel), (by decide +kernel),
     (by decide +kernel), (by decide +kernel), (by decide +kernel), (by decide +kernel)⟩⟩

theorem wit_KnotPoolLedgerQueries :
    (∃ (s : State) (h : Hw) (m : Mbx) (tag : Nat) (r : Req), ∃ k, h = clearSent s.hw ∧ Serving s m tag 0x0701 r ∧ leAt r.payload 0 4 < 2 ^ 18 ∧
     mayName h m 6 (refKnot (leAt r.payload 0 4) / 256) = true ∧ k = knotAt h (refKnot (leAt r.payload 0 4))) ∧
    (∃ (s : State) (h : Hw) (m : Mbx) (tag : Nat) (r : Req) (x : Pool), ∃ b p, h = clearSent s.hw ∧ Serving s m tag 0x0702 r ∧ b = r.payload ∧
     p = actsFor m ∧
     x = { used := true, die := leAt b 1 1, entries := leAt b 4 4, bufSize := leAt b 8 8, base := leAt b 16 8, ring := leAt b 24 8, refill := leAt b 32 4, tail := w32 (leAt b 4 4) } ∧
     ownsArea h p x.base (x.entries * x.bufSize) = true ∧ ownsArea h p x.ring (4 * ringCap x.entries) = true ∧ x.refill < 2 ^ 18 ∧
     knotOwner h (refKnot x.refill) = p ∧ leAt b 0 1 < 64 ∧ x.die < 4 ∧ x.base % 4096 = 0 ∧ x.ring % 4096 = 0 ∧ x.bufSize % 4096 = 0 ∧
     4096 ≤ x.bufSize ∧ x.bufSize ≤ 2 ^ 30 ∧ 1 ≤ x.entries ∧ x.entries ≤ 16777216 ∧ (poolAt h p (leAt b 0 1)).used = false ∧
     poolsOn h x.die < 256 ∧ ((h.sync.pools.filter (fun e => decide (e.1 / 64 = p))).length < 64)) ∧
    (∃ (s : State) (h : Hw) (m : Mbx) (tag : Nat) (r : Req), h = clearSent s.hw ∧ Serving s m tag 0x0703 r ∧ leAt r.payload 0 1 < 64 ∧
     (poolAt h (actsFor m) (leAt r.payload 0 1)).used = true) ∧
    (∃ (s : State) (h : Hw) (m : Mbx) (tag : Nat) (r : Req), ∃ x, h = clearSent s.hw ∧ Serving s m tag 0x0704 r ∧ leAt r.payload 0 1 < 64 ∧
     x = poolAt h (actsFor m) (leAt r.payload 0 1) ∧ x.used = true) ∧
    (∃ (s : State) (h : Hw) (m : Mbx) (tag : Nat) (r : Req), ∃ first n, h = clearSent s.hw ∧ Serving s m tag 0x0705 r ∧
     first = leAt r.payload 0 4 ∧ n = leAt r.payload 4 2 ∧ n ≠ 0 ∧ n ≤ 256 ∧ first + n ≤ 2 ^ 18 ∧
     ((∀ i, i < n → mayName h m 6 ((first + i) / 256) = true))) ∧
    (∃ (s : State) (h : Hw) (m : Mbx) (tag : Nat) (r : Req), ∃ n, h = clearSent s.hw ∧ Serving s m tag 0x0801 r ∧ n = leAt r.payload 0 2 ∧
     mayName h m 7 (n / 16) = true) :=
  ⟨⟨(srv (.part 0) 0x0701 [255, 255, 3] { sel := { units := [(unitKey 6 1023, { owner := 0, state := .owned })] } }), _, (.part 0), 0,
     (rq 0x0701 [255, 255, 3]), _, rfl, (by decide +kernel), (by decide +kernel), (by decide +kernel), rfl⟩,
   ⟨(srv .steward 0x0702 [63, 3, 0, 0, 1, 0, 0, 0, 0, 16, 0, 0, 0, 0, 0, 0, 0, 0, 0, 0, 0, 0, 0, 0, 0, 16] { ident := { c0Gib := 1 }, sel := { swatches := [(0, { owner := 0, state := .owned })], units := [(unitKey 6 0, { owner := 0, state := .owned })] } }),
     _, .steward, 0, (rq 0x0702 [63, 3, 0, 0, 1, 0, 0, 0, 0, 16, 0, 0, 0, 0, 0, 0, 0, 0, 0, 0, 0, 0, 0, 0, 0, 16]), _, _, _, rfl,
     (by decide +kernel), rfl, rfl, rfl, (by decide +kernel), (by decide +kernel), (by decide +kernel), (by decide +kernel),
     (by decide +kernel), (by decide +kernel), (by decide +kernel), (by decide +kernel), (by decide +kernel), (by decide +kernel),
     (by decide +kernel), (by decide +kernel), (by decide +kernel), (by decide +kernel), (by decide +kernel), (by decide +kernel)⟩,
   ⟨(srv .steward 0x0703 [63] { sync := { pools := [(63, { used := true })] } }), _, .steward, 0, (rq 0x0703 [63]), rfl, (by decide +kernel),
     (by decide +kernel), (by decide +kernel)⟩,
   ⟨(srv .steward 0x0704 [63] { sync := { pools := [(63, { used := true })] } }), _, .steward, 0, (rq 0x0704 [63]), _, rfl,
     (by decide +kernel), (by decide +kernel), rfl, (by decide +kernel)⟩,
   ⟨(srv (.part 0) 0x0705 [255, 255, 3, 0, 1, 0] { sel := { units := [(unitKey 6 1023, { owner := 0, state := .owned })] } }), _, (.part 0), 0,
     (rq 0x0705 [255, 255, 3, 0, 1, 0]), _, _, rfl, (by decide +kernel), rfl, rfl, (by decide +kernel), (by decide +kernel),
     (by decide +kernel), (by decide +kernel)⟩,
   ⟨(srv (.part 0) 0x0801 [16] { sel := { units := [(unitKey 7 1, { owner := 0, state := .owned })] } }), _, (.part 0), 0, (rq 0x0801 [16]), _,
     rfl, (by decide +kernel), rfl, (by decide +kernel)⟩⟩

theorem wit_FaultAndLogCommandRows :
    (∃ (s : State) (h : Hw) (m : Mbx) (tag : Nat) (r : Req), h = clearSent s.hw ∧ Serving s m tag 0x0A01 r ∧ ((m = .part (leAt r.payload 0
     1) ∨ (m = .steward ∧ (leAt r.payload 0 1 ≤ 16 ∨ leAt r.payload 0 1 = 0xFF)))) ∧ leAt r.payload 0 1 ≤ 0xFF ∧ ((leAt r.payload 0 1 ≤ 16 ∨
     leAt r.payload 0 1 = 0xFF))) ∧
    (∃ (s : State) (h : Hw) (m : Mbx) (tag : Nat) (r : Req), h = clearSent s.hw ∧ Serving s m tag 0x0A02 r ∧ logLost h = false) ∧
    (∃ (s : State) (h : Hw) (m : Mbx) (tag : Nat) (r : Req), h = clearSent s.hw ∧ Serving s m tag 0x0A03 r) ∧
    (∃ (s : State) (h : Hw) (m : Mbx) (tag : Nat) (r : Req), h = clearSent s.hw ∧ Serving s m tag 0x0A04 r ∧ leAt r.payload 0 1 ≤ 17 ∧ ((m =
     .steward ∨ m = .part (leAt r.payload 0 1)))) ∧
    (∃ (s : State) (h : Hw) (m : Mbx) (tag : Nat) (r : Req), ∃ p, h = clearSent s.hw ∧ Serving s m tag 0x0A05 r ∧ p = leAt r.payload 8 1 ∧ p
     ≤ 16 ∧ partExists h p = true ∧ leAt r.payload 0 1 = 1 ∧ mismatched h 1 (leAt r.payload 4 4) = true ∧ h.sel.base = .blank) ∧
    (∃ (s : State) (h : Hw) (m : Mbx) (tag : Nat) (r : Req), h = clearSent s.hw ∧ Serving s m tag 0x0A06 r ∧ scrubFailed h (leAt r.payload 0
     1) (leAt r.payload 4 4) = false) ∧
    (∃ (s : State) (h : Hw) (m : Mbx) (tag : Nat) (r : Req), h = clearSent s.hw ∧ Serving s m tag 0x0A06 r ∧ leAt r.payload 0 1 = 1 ∧ (swGet
     h (leAt r.payload 4 4)).failed = true) ∧
    (∃ (s : State) (h : Hw) (m : Mbx) (tag : Nat) (r : Req), ∃ c, h = clearSent s.hw ∧ Serving s m tag 0x0A07 r ∧ c = leAt r.payload 0 1 ∧ c
     ≤ 1 ∧ logLost h = false ∧ (if c = 0 then h.faults.log.failed0 else h.faults.log.failed1) = true) ∧
    (∃ (s : State) (h : Hw) (m : Mbx) (tag : Nat) (r : Req), ∃ c, h = clearSent s.hw ∧ Serving s m tag 0x0A07 r ∧ c = leAt r.payload 0 1 ∧ c
     ≤ 1 ∧ logLost h = false ∧ (if c = 0 then h.faults.log.failed0 else h.faults.log.failed1) = false) ∧
    (∃ (s : State) (h : Hw) (m : Mbx) (tag : Nat) (r : Req), h = clearSent s.hw ∧ Serving s m tag 0x0A08 r) ∧
    (∃ (s : State) (h : Hw) (m : Mbx) (tag : Nat) (r : Req), h = clearSent s.hw ∧ Serving s m tag 0x0A05 r ∧ (leAt r.payload 8 1 = 0xFF ∨
     (leAt r.payload 8 1 ≤ 16 ∧ partExists h (leAt r.payload 8 1) = true)) ∧ mismatched h (leAt r.payload 0 1) (leAt r.payload 4 4) = false) ∧
    (∃ (s : State) (h : Hw) (m : Mbx) (tag : Nat) (r : Req), h = clearSent s.hw ∧ Serving s m tag 0x0A06 r ∧ leAt r.payload 0 1 = 1 ∧ (swGet
     h (leAt r.payload 4 4)).failed = true ∧ tabWf (swBase h) h.sel.swatches = true) ∧
    (∃ (s : State) (h : Hw) (m : Mbx) (tag : Nat) (r : Req), h = clearSent s.hw ∧ Serving s m tag 0x0A06 r ∧ leAt r.payload 0 1 = 1 ∧ (swGet
     h (leAt r.payload 4 4)).failed = true ∧ tabWf (swBase h) h.sel.swatches = true ∧ closedTier h (leAt r.payload 4 4) = false) :=
  ⟨⟨(srv .steward 0x0A01 [255] {}), _, .steward, 0, (rq 0x0A01 [255]), rfl, (by decide +kernel), (by decide +kernel), (by decide +kernel),
     (by decide +kernel)⟩,
   ⟨(srv .steward 0x0A02 [] { faults := { log := { failed0 := true } } }), _, .steward, 0, (rq 0x0A02 []), rfl, (by decide +kernel),
     (by decide +kernel)⟩,
   ⟨(srv .steward 0x0A03 [] {}), _, .steward, 0, (rq 0x0A03 []), rfl, (by decide +kernel)⟩,
   ⟨(srv (.part 16) 0x0A04 [16] { sel := { parts := [(16, { exists_ := true })] } }), _, (.part 16), 0, (rq 0x0A04 [16]), rfl,
     (by decide +kernel), (by decide +kernel), (by decide +kernel)⟩,
   ⟨(srv .steward 0x0A05 [1]
     { faults := { fences := [{ scope := .partition, part := 0, causes := [{ type := 0x0803, kind := 1, unit := 0, pending := true }] }] } }),
     _, .steward, 0, (rq 0x0A05 [1]), _, rfl, (by decide +kernel), rfl, (by decide +kernel), (by decide +kernel), (by decide +kernel),
     (by decide +kernel), (by decide +kernel)⟩,
   ⟨(srv .steward 0x0A06 [1] {}), _, .steward, 0, (rq 0x0A06 [1]), rfl, (by decide +kernel), (by decide +kernel)⟩,
   ⟨(srv .steward 0x0A06 [1] { sel := { swatches := [(0, { failed := true })] } }), _, .steward, 0, (rq 0x0A06 [1]), rfl,
     (by decide +kernel), (by decide +kernel), (by decide +kernel)⟩,
   ⟨(srv .steward 0x0A07 [1] { faults := { log := { failed1 := true } } }), _, .steward, 0, (rq 0x0A07 [1]), _, rfl, (by decide +kernel),
     rfl, (by decide +kernel), (by decide +kernel), (by decide +kernel)⟩,
   ⟨(srv .steward 0x0A07 [1] { faults := { log := { failed0 := true } } }), _, .steward, 0, (rq 0x0A07 [1]), _, rfl, (by decide +kernel),
     rfl, (by decide +kernel), (by decide +kernel), (by decide +kernel)⟩,
   ⟨(srv .steward 0x0A08 [] {}), _, .steward, 0, (rq 0x0A08 []), rfl, (by decide +kernel)⟩,
   ⟨(srv .steward 0x0A05 [1, 0, 0, 0, 0, 0, 0, 0, 0] { sel := { parts := [(0, { exists_ := true })] } }), _, .steward, 0, (rq 0x0A05 [1, 0,
     0, 0, 0, 0, 0, 0, 0]), rfl, (by decide +kernel), (by decide +kernel), (by decide +kernel)⟩,
   ⟨(srv .steward 0x0A06 [1] { sel := { swatches := [(0, { failed := true })] } }), _, .steward, 0, (rq 0x0A06 [1]), rfl,
     (by decide +kernel), (by decide +kernel), (by decide +kernel), (by decide +kernel)⟩,
   ⟨(srv .steward 0x0A06 [1] { sel := { swatches := [(0, { failed := true })] }, memhw := { farOpen := true } }), _, .steward, 0, (rq 0x0A06
     [1]), rfl, (by decide +kernel), (by decide +kernel), (by decide +kernel), (by decide +kernel), (by decide +kernel)⟩⟩

theorem wit_BucketPatrolPoisonRows :
    (∃ (s : State) (h : Hw) (m : Mbx) (tag : Nat) (r : Req), ∃ c cap per, h = clearSent s.hw ∧ Serving s m tag 0x0A10 r ∧ c = leAt r.payload
     0 1 ∧ cap = leAt r.payload 2 2 ∧ per = leAt r.payload 4 4 ∧ c ≤ 8 ∧ cap ≠ 0 ∧ per ≠ 0 ∧ per ≤ 86400000) ∧
    (∃ (s : State) (h : Hw) (m : Mbx) (tag : Nat) (r : Req), ∃ c, h = clearSent s.hw ∧ Serving s m tag 0x0A11 r ∧ c = leAt r.payload 0 1 ∧ c
     ≤ 8) ∧
    (∃ (s : State) (h : Hw) (m : Mbx) (tag : Nat) (r : Req), ∃ row per, h = clearSent s.hw ∧ Serving s m tag 0x0A12 r ∧ row = leAt r.payload
     0 1 ∧ per = leAt r.payload 4 4 ∧ row < 4 ∧ (patrolRange row).1 ≤ per ∧ per ≤ (patrolRange row).2) ∧
    (∃ (s : State) (h : Hw) (m : Mbx) (tag : Nat) (r : Req), ∃ a, h = clearSent s.hw ∧ Serving s m tag 0x0A13 r ∧ a = leAt r.payload 0 8 ∧
     ((m = .steward ∨ m = .part (ownerOf h 1 (a / 2 ^ 21)))) ∧ swatchField h a = true) ∧
    (∃ (s : State) (h : Hw) (m : Mbx) (tag : Nat) (r : Req) (a : Nat), h = clearSent s.hw ∧ Serving s m tag 0x0A14 r ∧ a = leAt r.payload 0
     8 ∧ ownerOf h 1 (a / 2 ^ 21) = actsFor m ∧ swatchField h a = true ∧ tabWf false h.coh.swPoison = true ∧ tabWf (swBase h) h.sel.swatches
     = true ∧ (∀ k, tabGet 0 h.memhw.tests k ≤ h.free)) :=
  ⟨⟨(srv .steward 0x0A10 [8, 0, 32, 0, 0, 0x5C, 0x26, 5] {}), _, .steward, 0, (rq 0x0A10 [8, 0, 32, 0, 0, 0x5C, 0x26, 5]), _, _, _, rfl,
     (by decide +kernel), rfl, rfl, rfl, (by decide +kernel), (by decide +kernel), (by decide +kernel), (by decide +kernel)⟩,
   ⟨(srv .steward 0x0A11 [8] {}), _, .steward, 0, (rq 0x0A11 [8]), _, rfl, (by decide +kernel), rfl, (by decide +kernel)⟩,
   ⟨(srv .steward 0x0A12 [2, 0, 0, 0, 100] {}), _, .steward, 0, (rq 0x0A12 [2, 0, 0, 0, 100]), _, _, rfl, (by decide +kernel), rfl, rfl,
     (by decide +kernel), (by decide +kernel), (by decide +kernel)⟩,
   ⟨(srv .steward 0x0A13 [0] {}), _, .steward, 0, (rq 0x0A13 [0]), _, rfl, (by decide +kernel), rfl, (by decide +kernel),
     (by decide +kernel)⟩,
   ⟨(srv .steward 0x0A14 [0] { sel := { swatches := [(0, { owner := 0, state := .owned })] } }), _, .steward, 0, (rq 0x0A14 [0]), _, rfl,
     (by decide +kernel), rfl, (by decide +kernel), (by decide +kernel), (by decide +kernel), (by decide +kernel), fun _ => Nat.zero_le _⟩⟩

theorem wit_FaultEventRows :
    (∃ (s : State) (h : Hw), h = clearSent s.hw) ∧
    (∃ (s : State) (h : Hw), h = clearSent s.hw ∧ h.efano.mr.isSome = true) ∧
    (∃ (s : State) (h : Hw) (m : Mismatch), h = clearSent s.hw ∧ h.efano.mr = none ∧ m.kind ≠ 1 ∧ m.fld ≠ 1 ∧ m.fld ≠ 3) ∧
    (∃ (s : State) (h : Hw), h = clearSent s.hw ∧ h.faults.log.failed0 = false ∧ h.faults.log.failed1 = false) ∧
    (∃ (s : State) (h : Hw), h = clearSent s.hw ∧ h.faults.log.failed0 = true ∧ h.faults.log.failed1 = false) ∧
    (∃ (s : State) (h : Hw), h = clearSent s.hw ∧ logLost h = false) ∧
    (∃ (s : State) (h : Hw), ∃ type unit x, h = clearSent s.hw ∧ x = tabGet {} h.faults.rates (type * 2 ^ 32 + unit) ∧ x.armed = true ∧
     x.pending ≠ 0) ∧
    (∃ (s : State) (h : Hw), h = clearSent s.hw ∧ h.start.st = .active) ∧
    (∃ (s : State) (h : Hw), h = clearSent s.hw ∧ h.efano.mr.isSome = true ∧ journalOpen h = true) ∧
    (∃ (s : State) (h : Hw), h = clearSent s.hw ∧ h.efano.mr.isSome = true ∧ journalOpen h = false) ∧
    (∃ (s : State) (h : Hw) (u : PatrolUnit), h = clearSent s.hw ∧ patrolled h u = true) :=
  ⟨⟨(st {}), _, rfl⟩,
   ⟨(st { efano := { mr := some 5 } }), _, rfl, (by decide +kernel)⟩,
   ⟨(st {}), _, { kind := 2, idx := 0, fld := 0, mgmt := 0, data := 0, mgmtOwner := 0, dataOwner := 0 }, rfl, (by decide +kernel),
     (by decide +kernel), (by decide +kernel), (by decide +kernel)⟩,
   ⟨(st {}), _, rfl, (by decide +kernel), (by decide +kernel)⟩,
   ⟨(st { faults := { log := { failed0 := true } } }), _, rfl, (by decide +kernel), (by decide +kernel)⟩,
   ⟨(st {}), _, rfl, (by decide +kernel)⟩,
   ⟨(st { faults := { rates := [(5, { armed := true, pending := 1 })] } }), _, 0, 5, _, rfl, rfl, (by decide +kernel), (by decide +kernel)⟩,
   ⟨(st {}), _, rfl, (by decide +kernel)⟩,
   ⟨(st { efano := { mr := some 5, boxes := [(17, { reqs := [{ rq 0x0E01 [] with begun := true }] })] } }), _, rfl, (by decide +kernel),
     (by decide +kernel)⟩,
   ⟨(st { efano := { mr := some 5 } }), _, rfl, (by decide +kernel), (by decide +kernel)⟩,
   ⟨(st {}), _, (.cache 0 0), rfl, (by decide +kernel)⟩⟩

theorem wit_PowerCommandRows :
    (∃ (s : State) (h : Hw) (m : Mbx) (tag : Nat) (r : Req), ∃ st lo hi, h = clearSent s.hw ∧ Serving s m tag 0x0901 r ∧
     st = leAt r.payload 0 2 ∧ lo = leAt r.payload 2 2 ∧ hi = leAt r.payload 4 2 ∧ (st % 5 = 0 ∧ 1200 ≤ lo ∧ lo ≤ st ∧ st ≤ hi ∧ hi ≤ 2600)) ∧
    (∃ (s : State) (h : Hw) (m : Mbx) (tag : Nat) (r : Req), ∃ st lo hi, h = clearSent s.hw ∧ Serving s m tag 0x0901 r ∧
     st = leAt r.payload 0 2 ∧ lo = leAt r.payload 2 2 ∧ hi = leAt r.payload 4 2 ∧
     ¬(st % 5 = 0 ∧ 1200 ≤ lo ∧ lo ≤ st ∧ st ≤ hi ∧ hi ≤ 2600)) ∧
    (∃ (s : State) (h : Hw) (m : Mbx) (tag : Nat) (r : Req), ∃ k n i fl ce b, h = clearSent s.hw ∧ Serving s m tag 0x0902 r ∧
     ((∀ p, m ≠ .part p)) ∧ kindOf (leAt r.payload 0 1) = some k ∧ adjustable k = true ∧ leAt r.payload 1 1 = 3 ∧ leAt r.payload 2 2 = 1 ∧
     n = leAt r.payload 4 4 ∧ n < kindCount h k ∧ i = ({ kind := k, idx := n } : Island) ∧ fl = leAt r.payload 8 2 ∧
     ce = leAt r.payload 10 2 ∧
     (b = ({ floor := some fl, ceiling := some ce, tenant := (boundsAt h i).tenant.map (fun t => max t fl) } : Bounds)) ∧
     (kindRange k).1 ≤ fl ∧ fl ≤ ce ∧ ce ≤ (kindRange k).2) ∧
    (∃ (s : State) (h : Hw) (m : Mbx) (tag : Nat) (r : Req), ∃ k n i fl ce, h = clearSent s.hw ∧ Serving s m tag 0x0902 r ∧
     ((∀ p, m ≠ .part p)) ∧ kindOf (leAt r.payload 0 1) = some k ∧ adjustable k = true ∧ leAt r.payload 1 1 = 3 ∧ leAt r.payload 2 2 = 1 ∧
     n = leAt r.payload 4 4 ∧ n < kindCount h k ∧ i = ({ kind := k, idx := n } : Island) ∧ fl = leAt r.payload 8 2 ∧
     ce = leAt r.payload 10 2 ∧ ¬((kindRange k).1 ≤ fl ∧ fl ≤ ce ∧ ce ≤ (kindRange k).2)) ∧
    (∃ (s : State) (h : Hw) (m : Mbx) (tag : Nat) (r : Req), ∃ p k n i ce b, h = clearSent s.hw ∧ Serving s m tag 0x0902 r ∧ m = .part p ∧
     kindOf (leAt r.payload 0 1) = some k ∧ adjustable k = true ∧ leAt r.payload 1 1 = 2 ∧ leAt r.payload 2 2 = 1 ∧ n = leAt r.payload 4 4 ∧
     n < kindCount h k ∧ i = ({ kind := k, idx := n } : Island) ∧ ce = leAt r.payload 10 2 ∧ b = { boundsAt h i with tenant := some ce } ∧
     islandOwner h i = p ∧ floorOf h i ≤ ce ∧ ce ≤ stewardCeil h i) ∧
    (∃ (s : State) (h : Hw) (m : Mbx) (tag : Nat) (r : Req), ∃ p k n i ce, h = clearSent s.hw ∧ Serving s m tag 0x0902 r ∧ m = .part p ∧
     kindOf (leAt r.payload 0 1) = some k ∧ adjustable k = true ∧ leAt r.payload 1 1 = 2 ∧ leAt r.payload 2 2 = 1 ∧ n = leAt r.payload 4 4 ∧
     n < kindCount h k ∧ i = ({ kind := k, idx := n } : Island) ∧ ce = leAt r.payload 10 2 ∧ islandOwner h i = p ∧
     ¬(floorOf h i ≤ ce ∧ ce ≤ stewardCeil h i)) ∧
    (∃ (s : State) (h : Hw) (m : Mbx) (tag : Nat) (r : Req), ∃ p k n i ce, h = clearSent s.hw ∧ Serving s m tag 0x0902 r ∧ m = .part p ∧
     kindOf (leAt r.payload 0 1) = some k ∧ adjustable k = true ∧ leAt r.payload 1 1 = 2 ∧ leAt r.payload 2 2 = 1 ∧ n = leAt r.payload 4 4 ∧
     n < kindCount h k ∧ i = ({ kind := k, idx := n } : Island) ∧ ce = leAt r.payload 10 2 ∧ islandOwner h i ≠ p) ∧
    (∃ (s : State) (h : Hw) (m : Mbx) (tag : Nat) (r : Req), ∃ n c, h = clearSent s.hw ∧ Serving s m tag 0x0903 r ∧ n = leAt r.payload 0 1 ∧
     n < 26 ∧ leAt r.payload 1 1 = 1 ∧ c = leAt r.payload 4 4 ∧ (railFuse h n ≤ 4 * c ∧ c ≤ railFuse h n)) ∧
    (∃ (s : State) (h : Hw) (m : Mbx) (tag : Nat) (r : Req), ∃ n c, h = clearSent s.hw ∧ Serving s m tag 0x0903 r ∧ n = leAt r.payload 0 1 ∧
     n < 26 ∧ leAt r.payload 1 1 = 1 ∧ c = leAt r.payload 4 4 ∧ ¬(railFuse h n ≤ 4 * c ∧ c ≤ railFuse h n)) ∧
    (∃ (s : State) (h : Hw) (m : Mbx) (tag : Nat) (r : Req), ∃ t, h = clearSent s.hw ∧ Serving s m tag 0x0904 r ∧ t = leAt r.payload 0 1 ∧
     (80 ≤ t ∧ t ≤ 104)) ∧
    (∃ (s : State) (h : Hw) (m : Mbx) (tag : Nat) (r : Req), ∃ t, h = clearSent s.hw ∧ Serving s m tag 0x0904 r ∧ t = leAt r.payload 0 1 ∧
     ¬(80 ≤ t ∧ t ≤ 104)) ∧
    (∃ (s : State) (h : Hw) (m : Mbx) (tag : Nat) (r : Req), ∃ th st, h = clearSent s.hw ∧ Serving s m tag 0x0905 r ∧
     bitOf (leAt r.payload 4 1) 0 = false ∧ th = leAt r.payload 5 1 ∧ st = leAt r.payload 6 2 ∧ 5 ≤ th ∧ th ≤ 95 ∧ 5 ≤ st ∧ st ≤ 200) ∧
    (∃ (s : State) (h : Hw) (m : Mbx) (tag : Nat) (r : Req), ∃ q, h = clearSent s.hw ∧ Serving s m tag 0x0906 r ∧ m = .part q) ∧
    (∃ (s : State) (h : Hw) (m : Mbx) (tag : Nat) (r : Req), h = clearSent s.hw ∧ Serving s m tag 0x0907 r) :=
  ⟨⟨(srv .steward 0x0901 [0xB0, 4, 0xB0, 4, 0x28, 10] {}), _, .steward, 0, (rq 0x0901 [0xB0, 4, 0xB0, 4, 0x28, 10]), _, _, _, rfl,
     (by decide +kernel), rfl, rfl, rfl, (by decide +kernel)⟩,
   ⟨(srv .steward 0x0901 [0xB0, 4, 0xB1, 4, 0x28, 10] {}), _, .steward, 0, (rq 0x0901 [0xB0, 4, 0xB1, 4, 0x28, 10]), _, _, _, rfl,
     (by decide +kernel), rfl, rfl, rfl, (by decide +kernel)⟩,
   ⟨(srv .steward 0x0902 [8, 3, 1, 0, 127, 0, 0, 0, 0xF4, 1, 0xD0, 7] {}), _, .steward, 0,
     (rq 0x0902 [8, 3, 1, 0, 127, 0, 0, 0, 0xF4, 1, 0xD0, 7]), _, _, _, _, _, _, rfl, (by decide +kernel), by simp, rfl,
     (by decide +kernel), (by decide +kernel), (by decide +kernel), rfl, (by decide +kernel), rfl, rfl, rfl, rfl, (by decide +kernel),
     (by decide +kernel), (by decide +kernel)⟩,
   ⟨(srv .steward 0x0902 [8, 3, 1, 0, 127, 0, 0, 0, 0xF4, 1, 0xD1, 7] {}), _, .steward, 0,
     (rq 0x0902 [8, 3, 1, 0, 127, 0, 0, 0, 0xF4, 1, 0xD1, 7]), _, _, _, _, _, rfl, (by decide +kernel), by simp, rfl, (by decide +kernel),
     (by decide +kernel), (by decide +kernel), rfl, (by decide +kernel), rfl, rfl, rfl, (by decide +kernel)⟩,
   ⟨(srv (.part 2) 0x0902 [8, 2, 1, 0, 127, 0, 0, 0, 0, 0, 0xF4, 1] { sel := { units := [(unitKey 3 127, { owner := 2, state := .owned })], parts := [(2, { exists_ := true }), (3, { exists_ := true })] } }),
     _, (.part 2), 0, (rq 0x0902 [8, 2, 1, 0, 127, 0, 0, 0, 0, 0, 0xF4, 1]), 2, _, _, _, _, _, rfl, (by decide +kernel),
     (by decide +kernel), rfl, (by decide +kernel), (by decide +kernel), (by decide +kernel), rfl, (by decide +kernel), rfl, rfl, rfl,
     (by decide +kernel), (by decide +kernel), (by decide +kernel)⟩,
   ⟨(srv (.part 2) 0x0902 [8, 2, 1, 0, 127, 0, 0, 0, 0, 0, 0xF3, 1] { sel := { units := [(unitKey 3 127, { owner := 2, state := .owned })], parts := [(2, { exists_ := true }), (3, { exists_ := true })] } }),
     _, (.part 2), 0, (rq 0x0902 [8, 2, 1, 0, 127, 0, 0, 0, 0, 0, 0xF3, 1]), 2, _, _, _, _, rfl, (by decide +kernel), (by decide +kernel),
     rfl, (by decide +kernel), (by decide +kernel), (by decide +kernel), rfl, (by decide +kernel), rfl, rfl, (by decide +kernel),
     (by decide +kernel)⟩,
   ⟨(srv (.part 3) 0x0902 [8, 2, 1, 0, 127, 0, 0, 0, 0, 0, 0xF4, 1] { sel := { units := [(unitKey 3 127, { owner := 2, state := .owned })], parts := [(2, { exists_ := true }), (3, { exists_ := true })] } }),
     _, (.part 3), 0, (rq 0x0902 [8, 2, 1, 0, 127, 0, 0, 0, 0, 0, 0xF4, 1]), 3, _, _, _, _, rfl, (by decide +kernel), (by decide +kernel),
     rfl, (by decide +kernel), (by decide +kernel), (by decide +kernel), rfl, (by decide +kernel), rfl, rfl, (by decide +kernel)⟩,
   ⟨(srv .steward 0x0903 [25, 1, 0, 0, 0x98, 0x3A] {}), _, .steward, 0, (rq 0x0903 [25, 1, 0, 0, 0x98, 0x3A]), _, _, rfl, (by decide +kernel),
     rfl, (by decide +kernel), (by decide +kernel), rfl, (by decide +kernel)⟩,
   ⟨(srv .steward 0x0903 [25, 1, 0, 0, 0x97, 0x3A] {}), _, .steward, 0, (rq 0x0903 [25, 1, 0, 0, 0x97, 0x3A]), _, _, rfl, (by decide +kernel),
     rfl, (by decide +kernel), (by decide +kernel), rfl, (by decide +kernel)⟩,
   ⟨(srv .steward 0x0904 [104] {}), _, .steward, 0, (rq 0x0904 [104]), _, rfl, (by decide +kernel), rfl, (by decide +kernel)⟩,
   ⟨(srv .steward 0x0904 [105] {}), _, .steward, 0, (rq 0x0904 [105]), _, rfl, (by decide +kernel), rfl, (by decide +kernel)⟩,
   ⟨(srv .steward 0x0905 [0, 0, 0, 0, 0, 95, 200] {}), _, .steward, 0, (rq 0x0905 [0, 0, 0, 0, 0, 95, 200]), _, _, rfl, (by decide +kernel),
     (by decide +kernel), rfl, rfl, (by decide +kernel), (by decide +kernel), (by decide +kernel), (by decide +kernel)⟩,
   ⟨(srv (.part 0) 0x0906 [] {}), _, (.part 0), 0, (rq 0x0906 []), 0, rfl, (by decide +kernel), (by decide +kernel)⟩,
   ⟨(srv .steward 0x0907 [] {}), _, .steward, 0, (rq 0x0907 []), rfl, (by decide +kernel)⟩⟩

theorem wit_PowerEventRows :
    (∃ (s : State) (h : Hw), h = clearSent s.hw) ∧
    (∃ (s : State) (h : Hw) (r : Nat) (cur : Nat) (win : Nat) (us : Nat) (ms : Nat) (x : Rail) (y : Rail), h = clearSent s.hw ∧ x = railAt h
     r ∧ r < 30 ∧ x.dead = false ∧ 100 * us ≤ 110 * railHard h r ∧ (y =
     { x with engaged := if (railHard h r < cur ∧ r < 26) ∨ (x.engaged ≠ none ∧ 95 * railHard h r ≤ 100 * win) then some h.tb.now else x.engaged, softOn := decide (railSoft h r < win), current := ms })) ∧
    (∃ (s : State) (h : Hw) (r : Nat) (cur : Nat) (win : Nat) (us : Nat) (ms : Nat) (x : Rail) (y : Rail), h = clearSent s.hw ∧ x = railAt h
     r ∧ r < 30 ∧ x.dead = false ∧ 110 * railHard h r < 100 * us ∧ (y =
     { x with engaged := if (railHard h r < cur ∧ r < 26) ∨ (x.engaged ≠ none ∧ 95 * railHard h r ≤ 100 * win) then some h.tb.now else x.engaged, softOn := decide (railSoft h r < win), current := ms })) ∧
    (∃ (s : State) (h : Hw), ∃ r x, h = clearSent s.hw ∧ x = railAt h r ∧ r < 30 ∧ x.dead = false) ∧
    (∃ (s : State) (h : Hw), ∃ r t, h = clearSent s.hw ∧ (railAt h r).engaged = some t) ∧
    (∃ (s : State) (h : Hw), h = clearSent s.hw) ∧
    (∃ (s : State) (h : Hw) (i : Island), h = clearSent s.hw ∧ i.kind ≠ IslandKind.quad) ∧
    (∃ (s : State) (h : Hw) (rs : List (Nat × Nat × Bool)), ∃ h0 h2, h = clearSent s.hw ∧ h0 = advanceTo h (h.power.sampled + 20000) ∧ h2 =
     (List.range 6).foldl dieThermal (rs.foldl sampleOne { h0 with power := { h0.power with sampled := h0.tb.now } }) ∧
     (h2.power.sensors.find? (fun e => !e.2.failed && decide (472 ≤ e.2.reading.getD 0)) = none)) ∧
    (∃ (s : State) (h : Hw) (rs : List (Nat × Nat × Bool)), ∃ h0 h2 e, h = clearSent s.hw ∧ h0 = advanceTo h (h.power.sampled + 20000) ∧ h2
     = (List.range 6).foldl dieThermal (rs.foldl sampleOne { h0 with power := { h0.power with sampled := h0.tb.now } }) ∧
     (h2.power.sensors.find? (fun e => !e.2.failed && decide (472 ≤ e.2.reading.getD 0)) = some e)) ∧
    (∃ (s : State) (h : Hw) (g : Hw) (v : Nat), ∃ n, h = clearSent s.hw ∧ n < 512 ∧ (sensorAt g n).failed = false ∧ ((∀ o, (sensorAt g
     n).reading = some o → v ≤ o + 80 ∧ o ≤ v + 80))) ∧
    (∃ (s : State) (h : Hw) (g : Hw) (v : Nat), ∃ n ok, h = clearSent s.hw ∧ n < 512 ∧ (sensorAt g n).failed = false ∧ ((ok = false ∨ ∃ o,
     (sensorAt g n).reading = some o ∧ (o + 80 < v ∨ v + 80 < o)))) ∧
    (∃ (s : State) (h : Hw) (g : Hw), ∃ d, h = clearSent s.hw ∧ d < 6 ∧ bitOf g.power.prochot d = false ∧ 420 ≤ hottestDie g d) ∧
    (∃ (s : State) (h : Hw) (g : Hw), ∃ d, h = clearSent s.hw ∧ d < 6 ∧ bitOf g.power.prochot d = false ∧ hottestDie g d < 420) ∧
    (∃ (s : State) (h : Hw) (g : Hw), ∃ d, h = clearSent s.hw ∧ d < 6 ∧ bitOf g.power.prochot d = true ∧ hottestDie g d < 408) ∧
    (∃ (s : State) (h : Hw) (g : Hw), ∃ d, h = clearSent s.hw ∧ d < 6 ∧ bitOf g.power.prochot d = true ∧ 408 ≤ hottestDie g d) ∧
    (∃ (s : State) (h : Hw), h = clearSent s.hw ∧ h.power.extHot = false) ∧
    (∃ (s : State) (h : Hw), h = clearSent s.hw) ∧
    (∃ (s : State) (h : Hw), ∃ h0, h = clearSent s.hw ∧ h0 = advanceTo h ((h.power.epoch / 1000000 + 1) * 1000000) ∧ takesPart h0 = false) ∧
    (∃ (s : State) (h : Hw), ∃ h0, h = clearSent s.hw ∧ h0 = advanceTo h (h.power.epoch + 500000) ∧ h0.power.epochRun = false ∧ takesPart h0
     = true) ∧
    (∃ (s : State) (h : Hw), ∃ l ls g, h = clearSent s.hw ∧ h.power.outs ++ h.power.ins = l :: ls ∧ (g = advanceTo h (ls.foldl (fun n x =>
     min n x.ends) l.ends))) ∧
    (∃ (s : State) (h : Hw) (r : Nat) (cur : Nat) (win : Nat) (us : Nat) (ms : Nat) (x : Rail) (y : Rail) (g : Hw), h = clearSent s.hw ∧ g =
     noteThrottle h ∧ x = railAt h r ∧ r < 30 ∧ x.dead = false ∧ 100 * us ≤ 110 * railHard h r ∧ y =
     { x with engaged := if (railHard h r < cur ∧ r < 26) ∨ (x.engaged ≠ none ∧ 95 * railHard h r ≤ 100 * win) then some h.tb.now else x.engaged, softOn := decide (railSoft h r < win), current := ms }) ∧
    (∃ (s : State) (h : Hw) (r : Nat) (cur : Nat) (win : Nat) (us : Nat) (ms : Nat) (x : Rail) (y : Rail) (g : Hw), h = clearSent s.hw ∧ g =
     noteThrottle h ∧ x = railAt h r ∧ r < 30 ∧ x.dead = false ∧ 110 * railHard h r < 100 * us ∧ y =
     { x with engaged := if (railHard h r < cur ∧ r < 26) ∨ (x.engaged ≠ none ∧ 95 * railHard h r ≤ 100 * win) then some h.tb.now else x.engaged, softOn := decide (railSoft h r < win), current := ms }) ∧
    (∃ (s : State) (h : Hw) (rs : List (Nat × Nat × Bool)) (h0 : Hw) (h2 : Hw), h = clearSent s.hw ∧ h0 = advanceTo (noteThrottle h)
     (h.power.sampled + 20000) ∧ h2 = (List.range 6).foldl dieThermal (rs.foldl sampleOne
     { h0 with power := { h0.power with sampled := h0.tb.now } }) ∧ h2.power.sensors.find? (fun e => !e.2.failed && decide (472 ≤
     e.2.reading.getD 0)) = none) ∧
    (∃ (s : State) (h : Hw) (rs : List (Nat × Nat × Bool)) (h0 : Hw) (h2 : Hw) (e : Nat × Sensor), h = clearSent s.hw ∧ h0 = advanceTo
     (noteThrottle h) (h.power.sampled + 20000) ∧ h2 = (List.range 6).foldl dieThermal (rs.foldl sampleOne
     { h0 with power := { h0.power with sampled := h0.tb.now } }) ∧ h2.power.sensors.find? (fun e => !e.2.failed && decide (472 ≤
     e.2.reading.getD 0)) = some e) ∧
    (∃ (s : State) (h : Hw) (i : Island), h = clearSent s.hw ∧ islandExists h i = true) ∧
    (∃ (s : State) (h : Hw) (i : Island), h = clearSent s.hw ∧ islandExists h i = false) :=
  ⟨⟨(st {}), _, rfl⟩,
   ⟨(st {}), _, 25, 1, 1, 66000, 1, _, _, rfl, rfl, (by decide +kernel), (by decide +kernel), (by decide +kernel), rfl⟩,
   ⟨(st {}), _, 25, 1, 1, 66001, 1, _, _, rfl, rfl, (by decide +kernel), (by decide +kernel), (by decide +kernel), rfl⟩,
   ⟨(st {}), _, 29, _, rfl, rfl, (by decide +kernel), (by decide +kernel)⟩,
   ⟨(st { power := { rails := [(25, { engaged := some 0 })] } }), _, 25, _, rfl, rfl⟩,
   ⟨(st {}), _, rfl⟩,
   ⟨(st {}), _, { kind := .shelf, idx := 0 }, rfl, (by decide +kernel)⟩,
   ⟨(st {}), _, [(0, 471, true)], _, _, rfl, rfl, rfl, (by decide +kernel)⟩,
   ⟨(st {}), _, [(511, 472, true)], _, _, _, rfl, rfl, rfl, rfl⟩,
   ⟨(st {}), _, { power := { sensors := [(511, { reading := some 100 })] } }, 180, 511, rfl, (by decide +kernel), (by decide +kernel), by
     intro o h; cases h; decide⟩,
   ⟨(st {}), _, { power := { sensors := [(511, { reading := some 100 })] } }, 181, 511, true, rfl, (by decide +kernel), (by decide +kernel),
     .inr ⟨100, rfl, .inl (by decide)⟩⟩,
   ⟨(st {}), _, { power := { sensors := [(447, { reading := some 420 })] } }, 0, rfl, (by decide +kernel), (by decide +kernel),
     (by decide +kernel)⟩,
   ⟨(st {}), _, { power := { sensors := [(447, { reading := some 419 })] } }, 0, rfl, (by decide +kernel), (by decide +kernel),
     (by decide +kernel)⟩,
   ⟨(st {}), _, { power := { prochot := 1, sensors := [(447, { reading := some 407 })] } }, 0, rfl, (by decide +kernel),
     (by decide +kernel), (by decide +kernel)⟩,
   ⟨(st {}), _, { power := { prochot := 1, sensors := [(447, { reading := some 408 })] } }, 0, rfl, (by decide +kernel),
     (by decide +kernel), (by decide +kernel)⟩,
   ⟨(st {}), _, rfl, (by decide +kernel)⟩,
   ⟨(st {}), _, rfl⟩,
   ⟨(st {}), _, _, rfl, rfl, (by decide +kernel)⟩,
   ⟨(st
     { ident := { admitted := true }, power := { poolOn := true, poolSet := 0 }, arch := { sets := [(0, { used := true, part := 0 })] } }),
     _, _, rfl, rfl, (by decide +kernel), (by decide +kernel)⟩,
   ⟨(st { power := { outs := [{ watts := 5, ends := 4 }] } }), _, _, _, _, rfl, rfl, rfl⟩,
   ⟨(st {}), _, 25, 1, 1, 66000, 1, _, _, _, rfl, rfl, rfl, (by decide +kernel), (by decide +kernel), (by decide +kernel), rfl⟩,
   ⟨(st {}), _, 25, 1, 1, 66001, 1, _, _, _, rfl, rfl, rfl, (by decide +kernel), (by decide +kernel), (by decide +kernel), rfl⟩,
   ⟨(st {}), _, [(0, 471, true)], _, _, rfl, rfl, rfl, (by decide +kernel)⟩,
   ⟨(st {}), _, [(511, 472, true)], _, _, (511, { reading := some 472 }), rfl, rfl, rfl, (by decide +kernel)⟩,
   ⟨(st {}), _, { kind := .quad, idx := 127 }, rfl, (by decide +kernel)⟩,
   ⟨(st {}), _, { kind := .quad, idx := 128 }, rfl, (by decide +kernel)⟩⟩

theorem wit_PoolKeepsMinimum :
    (∃ (s : State), s.hw.power.poolMin + leaseSum s.hw.power.outs ≤ s.hw.power.static) :=
  ⟨(st {}), (by decide +kernel)⟩

theorem wit_ResetCommandRows :
    (∃ (s : State) (h : Hw) (m : Mbx) (tag : Nat) (r : Req), ∃ p, h = clearSent s.hw ∧ Serving s m tag 0x0E01 r ∧ ((∀ q, m ≠ .part q)) ∧ p =
     leAt r.payload 0 1 ∧ p ≤ 16 ∧ partExists h p = true ∧ ((∀ f, f ∈ h.faults.fences → f.scope = Scope.partition → f.part = p → ∀ c, c ∈
     f.causes → c.pending = true → c.type = 0x0505))) ∧
    (∃ (s : State) (h : Hw) (m : Mbx) (tag : Nat) (r : Req), ∃ p f c, h = clearSent s.hw ∧ Serving s m tag 0x0E01 r ∧ ((∀ q, m ≠ .part q)) ∧
     p = leAt r.payload 0 1 ∧ p ≤ 16 ∧ partExists h p = true ∧ f ∈ h.faults.fences ∧ f.scope = Scope.partition ∧ f.part = p ∧ c ∈ f.causes ∧
     c.pending = true ∧ c.type ≠ 0x0505) ∧
    (∃ (s : State) (h : Hw) (m : Mbx) (tag : Nat) (r : Req), ∃ p, h = clearSent s.hw ∧ Serving s m tag 0x0E01 r ∧ m = .part p ∧ p = leAt
     r.payload 0 1 ∧ h.faults.fences = []) ∧
    (∃ (s : State) (h : Hw) (m : Mbx) (tag : Nat) (r : Req), h = clearSent s.hw ∧ Serving s m tag 0x0E05 r ∧ findReq (boxAt h m) tag = some
     r ∧ leAt r.payload 0 1 = 2) ∧
    (∃ (s : State) (h : Hw) (m : Mbx) (tag : Nat) (r : Req), h = clearSent s.hw ∧ Serving s m tag 0x0E05 r ∧ findReq (boxAt h m) tag = some
     r ∧ leAt r.payload 0 1 = 3 ∧ dormantBad h = true) ∧
    (∃ (s : State) (h : Hw) (m : Mbx) (tag : Nat) (r : Req), h = clearSent s.hw ∧ Serving s m tag 0x0E05 r ∧ leAt r.payload 0 1 = 3 ∧
     dormantBad h = false ∧ findReq (boxAt h m) tag = some r) ∧
    (∃ (s : State) (h : Hw) (m : Mbx) (tag : Nat) (r : Req), h = clearSent s.hw ∧ Serving s m tag 0x0E05 r ∧ leAt r.payload 0 1 = 4) ∧
    (∃ (s : State) (h : Hw) (m : Mbx) (tag : Nat) (r : Req), ∃ us dm n a, h = clearSent s.hw ∧ Serving s m tag 0x0E06 r ∧ us = leAt
     r.payload 0 4 ∧ dm = leAt r.payload 4 2 ∧ n = leAt r.payload 8 4 ∧ a = leAt r.payload 16 8 ∧ (10 ≤ us ∧ us ≤ 10000 ∧ 1 ≤ dm ∧ dm ≤ 1000
     ∧ a % 2 ^ 21 = 0) ∧ ((∀ i, i < n → regionOf ((a / 2 ^ 21 + i) * 2 ^ 21) = 0 ∧ (swGet h (a / 2 ^ 21 + i)).owner = 0))) ∧
    (∃ (s : State) (h : Hw) (m : Mbx) (tag : Nat) (r : Req), ∃ us dm n a, h = clearSent s.hw ∧ Serving s m tag 0x0E06 r ∧ us = leAt
     r.payload 0 4 ∧ dm = leAt r.payload 4 2 ∧ n = leAt r.payload 8 4 ∧ a = leAt r.payload 16 8 ∧ ¬(10 ≤ us ∧ us ≤ 10000 ∧ 1 ≤ dm ∧ dm ≤
     1000 ∧ a % 2 ^ 21 = 0)) ∧
    (∃ (s : State) (h : Hw) (m : Mbx) (tag : Nat) (r : Req), h = clearSent s.hw ∧ Serving s m tag 0x0E07 r ∧ h.start.report ≠ []) ∧
    (∃ (s : State) (h : Hw) (m : Mbx) (tag : Nat) (r : Req), h = clearSent s.hw ∧ Serving s m tag 0x0E08 r) ∧
    (∃ (s : State) (h : Hw) (m : Mbx) (tag : Nat) (r : Req), h = clearSent s.hw ∧ Serving s m tag 0x0E09 r) ∧
    (∃ (s : State) (h : Hw) (m : Mbx) (tag : Nat) (r : Req), h = clearSent s.hw ∧ Serving s m tag 0x0E03 r ∧ h.efano.mr = none) ∧
    (∃ (s : State) (h : Hw) (m : Mbx) (tag : Nat) (r : Req), h = clearSent s.hw ∧ Serving s m tag 0x0E04 r ∧ h.efano.ready = true ∧
     h.start.st ≠ PowerSt.off) ∧
    (∃ (s : State) (h : Hw) (m : Mbx) (tag : Nat) (r : Req) (k : Nat) (n : Nat) (i : Island) (g : Hw), h = clearSent s.hw ∧ Serving s m tag
     0x0E02 r ∧ k = leAt r.payload 0 1 ∧ n = leAt r.payload 4 4 ∧ k ∈ [2, 3, 4, 10, 11, 12] ∧ n < unitCount k ∧ partFenced h (unitPart h k
     n) = false ∧ h.faults.fences.any (fun f => decide (f.scope = Scope.unit ∧ f.kind = k ∧ f.unit = n) && stillPending f urClears) = false
     ∧ ((unitAt h k n).state = UnitState.scrubbing → (unitAt h k n).failed = true) ∧ unitIsland k n = some i ∧ g = wakeWhole h i ∧ k ≠ 4) ∧
    (∃ (s : State) (h : Hw) (m : Mbx) (tag : Nat) (r : Req) (k : Nat) (n : Nat) (i : Island) (g : Hw) (o : HM), h = clearSent s.hw ∧ Serving
     s m tag 0x0E02 r ∧ k = leAt r.payload 0 1 ∧ n = leAt r.payload 4 4 ∧ k ∈ [2, 3, 4, 10, 11, 12] ∧ n < unitCount k ∧ partFenced h
     (unitPart h k n) = false ∧ h.faults.fences.any (fun f => decide (f.scope = Scope.unit ∧ f.kind = k ∧ f.unit = n) && stillPending f
     urClears) = false ∧ ((unitAt h k n).state = UnitState.scrubbing → (unitAt h k n).failed = true) ∧ unitIsland k n = some i ∧ g =
     wakeWhole h i ∧ k = 4 ∧ o = releaseTaken (g, s.mem) n (fun d => decide (d.phase = Phase.dispatched ∨ d.phase = Phase.waiting ∨ d.phase
     = Phase.walking))) ∧
    (∃ (s : State) (h : Hw) (m : Mbx) (tag : Nat) (r : Req) (n : Nat) (o : HM), h = clearSent s.hw ∧ Serving s m tag 0x0E02 r ∧ leAt
     r.payload 0 1 = 5 ∧ n = leAt r.payload 4 4 ∧ n < unitCount 5 ∧ h.faults.fences = [] ∧ ((unitAt h 5 n).state = UnitState.scrubbing →
     (unitAt h 5 n).failed = true) ∧ tabWf {} h.eng.slips = true ∧ o = haltHeld (h, s.mem) n ∧ unitFencedOwn (liftUnit o.1 5 n 0x0E02) 5 n =
     false ∧ tabWf {} (liftUnit o.1 5 n 0x0E02).eng.slips = true) ∧
    (∃ (s : State) (h : Hw) (m : Mbx) (tag : Nat) (r : Req) (k : Nat) (n : Nat), h = clearSent s.hw ∧ Serving s m tag 0x0E02 r ∧ k = leAt
     r.payload 0 1 ∧ n = leAt r.payload 4 4 ∧ k ∈ [2, 3, 4, 5, 10, 11, 12] ∧ n < unitCount k ∧ partFenced h (unitPart h k n) = false ∧
     (unitAt h k n).state = UnitState.scrubbing ∧ (unitAt h k n).failed = false) ∧
    (∃ (s : State) (h : Hw) (m : Mbx) (tag : Nat) (r : Req) (k : Nat), h = clearSent s.hw ∧ Serving s m tag 0x0E02 r ∧ k = leAt r.payload 0
     1 ∧ k ∉ [2, 3, 4, 5, 10, 11, 12] ∧ partFenced h (unitPart h k (leAt r.payload 4 4)) = false) :=
  ⟨⟨(srv .steward 0x0E01 [0]
     { faults := { fences := [{ scope := .partition, part := 0, causes := [{ type := 0x0505, pending := true }] }] } }), _, .steward, 0, (rq
     0x0E01 [0]), _, rfl, (by decide +kernel), by simp, rfl, (by decide +kernel), (by decide +kernel), (by decide +kernel)⟩,
   ⟨(srv .steward 0x0E01 [16]
     { sel := { parts := [(16, { exists_ := true })] }, faults := { fences := [{ scope := .partition, part := 16, causes := [{ type := 0x0803, pending := true }] }] } }),
     _, .steward, 0, (rq 0x0E01 [16]), _, { scope := .partition, part := 16, causes := [{ type := 0x0803, pending := true }] },
     { type := 0x0803, pending := true }, rfl, (by decide +kernel), by simp, rfl, (by decide +kernel), (by decide +kernel),
     (by decide +kernel), (by decide +kernel), (by decide +kernel), (by decide +kernel), (by decide +kernel), (by decide +kernel)⟩,
   ⟨(srv (.part 0) 0x0E01 [0] {}), _, (.part 0), 0, (rq 0x0E01 [0]), _, rfl, (by decide +kernel), rfl, (by decide +kernel),
     (by decide +kernel)⟩,
   ⟨(srv .steward 0x0E05 [2] {}), _, .steward, 0, (rq 0x0E05 [2]), rfl, (by decide +kernel), (by decide +kernel), (by decide +kernel)⟩,
   ⟨(srv .steward 0x0E05 [3] {}), _, .steward, 0, (rq 0x0E05 [3]), rfl, (by decide +kernel), (by decide +kernel), (by decide +kernel),
     (by decide +kernel)⟩,
   ⟨(srv .steward 0x0E05 [3]
     { ident := { c0Gib := 1 }, sel := { swatches := (List.range 32).map (fun k => (k, { owner := 0, state := .owned })) }, start := { saveN := 32 } }),
     _, .steward, 0, (rq 0x0E05 [3]), rfl, (by decide +kernel), (by decide +kernel), (by decide +kernel), (by decide +kernel)⟩,
   ⟨(srv .steward 0x0E05 [4] {}), _, .steward, 0, (rq 0x0E05 [4]), rfl, (by decide +kernel), (by decide +kernel)⟩,
   ⟨(srv .steward 0x0E06 [0x10, 0x27, 0, 0, 1, 0, 0, 0, 1] { sel := { swatches := [(0, { owner := 0, state := .owned })] } }), _, .steward,
     0, (rq 0x0E06 [0x10, 0x27, 0, 0, 1, 0, 0, 0, 1]), _, _, _, _, rfl, (by decide +kernel), rfl, rfl, rfl, rfl, (by decide +kernel),
     (by decide +kernel)⟩,
   ⟨(srv .steward 0x0E06 [9, 0, 0, 0, 1] {}), _, .steward, 0, (rq 0x0E06 [9, 0, 0, 0, 1]), _, _, _, _, rfl, (by decide +kernel), rfl, rfl,
     rfl, rfl, (by decide +kernel)⟩,
   ⟨(srv .steward 0x0E07 [] { start := { report := [1] } }), _, .steward, 0, (rq 0x0E07 []), rfl, (by decide +kernel), (by decide +kernel)⟩,
   ⟨(srv .steward 0x0E08 [] {}), _, .steward, 0, (rq 0x0E08 []), rfl, (by decide +kernel)⟩,
   ⟨(srv .steward 0x0E09 [] {}), _, .steward, 0, (rq 0x0E09 []), rfl, (by decide +kernel)⟩,
   ⟨(srv .steward 0x0E03 [] {}), _, .steward, 0, (rq 0x0E03 []), rfl, (by decide +kernel), (by decide +kernel)⟩,
   ⟨(srv .steward 0x0E04 [] {}), _, .steward, 0, (rq 0x0E04 []), rfl, (by decide +kernel), (by decide +kernel), (by decide +kernel)⟩,
   ⟨(srv .steward 0x0E02 [12, 0, 0, 0, 17] {}), _, .steward, 0, (rq 0x0E02 [12, 0, 0, 0, 17]), _, _, _, _, rfl, (by decide +kernel), rfl,
     rfl, (by decide +kernel), (by decide +kernel), (by decide +kernel), (by decide +kernel), (fun e => absurd e (by decide +kernel)), rfl,
     rfl, (by decide +kernel)⟩,
   ⟨(srv .steward 0x0E02 [4, 0, 0, 0, 33] {}), _, .steward, 0, (rq 0x0E02 [4, 0, 0, 0, 33]), _, _, _, _, _, rfl, (by decide +kernel), rfl,
     rfl, (by decide +kernel), (by decide +kernel), (by decide +kernel), (by decide +kernel), (fun e => absurd e (by decide +kernel)), rfl,
     rfl, rfl, rfl⟩,
   ⟨(srv .steward 0x0E02 [5, 0, 0, 0, 255, 3] {}), _, .steward, 0, (rq 0x0E02 [5, 0, 0, 0, 255, 3]), _, _, rfl, (by decide +kernel),
     (by decide +kernel), rfl, (by decide +kernel), (by decide +kernel), (fun e => absurd e (by decide +kernel)), (by decide +kernel), rfl,
     (by decide +kernel), (by decide +kernel)⟩,
   ⟨(srv .steward 0x0E02 [2, 0, 0, 0, 15] { sel := { units := [(unitKey 2 15, { state := .scrubbing })] } }), _, .steward, 0, (rq 0x0E02 [2,
     0, 0, 0, 15]), _, _, rfl, (by decide +kernel), rfl, rfl, (by decide +kernel), (by decide +kernel), (by decide +kernel),
     (by decide +kernel), (by decide +kernel)⟩,
   ⟨(srv .steward 0x0E02 [6, 0, 0, 0, 0] {}), _, .steward, 0, (rq 0x0E02 [6, 0, 0, 0, 0]), _, rfl, (by decide +kernel), rfl,
     (by decide +kernel), (by decide +kernel)⟩⟩

theorem wit_StartupRows :
    (∃ (s : State) (h : Hw) (c : Nat), h = clearSent s.hw ∧ (c = 1 ∨ c = 2 ∨ c = 3)) ∧
    (∃ (s : State) (h : Hw), ∃ g, h = clearSent s.hw ∧ h.start.checked = false ∧ starting h = true ∧ h.keep.vka = true ∧ h.keep.powered =
     true ∧ g = advanceTo h (h.start.t0 + 20000000)) ∧
    (∃ (s : State) (h : Hw), ∃ g, h = clearSent s.hw ∧ h.start.checked = true ∧ h.arch.running = false ∧ h.start.st = PowerSt.active ∧ g =
     advanceTo h (h.start.t0 + 20000000)) ∧
    (∃ (s : State) (h : Hw), h = clearSent s.hw ∧ h.start.checked = true ∧ h.start.ports = false ∧ starting h = true ∧ h.start.warm = false) ∧
    (∃ (s : State) (h : Hw), h = clearSent s.hw ∧ h.start.checked = true ∧ h.start.ports = true ∧ h.start.fwOk = true ∧ h.memhw.training =
     false ∧ h.start.warm = false ∧ starting h = true) ∧
    (∃ (s : State) (h : Hw), ∃ g, h = clearSent s.hw ∧ h.memhw.training = true ∧ h.memhw.farOpen = false ∧ pkgFenced h = false ∧ ((∀ k, k ∈
     tierUnits h false → (chanAt h k).done = true ∧ (chanAt h k).failed = false)) ∧ g = advanceTo h (h.start.t0 + (120 + tierMs false
     ((tierUnits h false).map (chanAt h))) * 1000000)) ∧
    (∃ (s : State) (h : Hw), h = clearSent s.hw ∧ starting h = true ∧ h.start.boot = true ∧ h.start.released = false ∧ pkgFenced h = false) ∧
    (∃ (s : State) (h : Hw), ∃ g, h = clearSent s.hw ∧ h.arch.running = true ∧ h.start.ownJoin = false ∧ h.start.st = PowerSt.active ∧
     h.arch.east.carrier = false ∧ h.arch.west.carrier = false ∧ g = advanceTo h (h.start.t0 + 250000000)) ∧
    (∃ (s : State) (h : Hw), ∃ n, h = clearSent s.hw ∧ h.arch.east.joined = true ∧ h.start.st = PowerSt.active ∧ n < portCount h ∧ (tabGet
     {} h.arch.links n).st = LinkSt.disabled ∧ (tabGet {} h.arch.links n).off = false ∧ h.faults.fences = []) ∧
    (∃ (s : State) (h : Hw), h = clearSent s.hw ∧ starting h = true ∧ h.start.boot = false ∧ h.memhw.farOpen = true ∧ tierDone h true = true
     ∧ h.start.checked = true ∧ h.start.fwOk = true ∧ h.sel.base = SwState.blank ∧ h.sel.swatches = [] ∧ h.sel.units = [] ∧ h.sel.scrubs =
     [] ∧ h.edges.flash = [] ∧ s.mem = []) ∧
    (∃ (s : State) (h : Hw) (t : Nat), h = clearSent s.hw ∧ h.efano.ready = false ∧ h.start.wp = none ∧ h.start.checked = true ∧
     h.start.fwOk = true ∧ h.efano.mr = some t ∧ h.start.released = true ∧ journalOpen h = false ∧ h.efano.agreed = true) ∧
    (∃ (s : State) (h : Hw) (k : Nat) (f : StepFound) (far : Bool) (c : Channel) (n : Nat) (g : Hw), h = clearSent s.hw ∧ far = decide (k ≥
     16) ∧ k ∈ tierUnits h (!far) ∧ c = chanAt h k ∧ n = nextStep c.path c.step ∧ h.memhw.training = true ∧ c.done = false ∧ c.failed =
     false ∧ pkgFenced h = false ∧ g = f.lanes.foldl (fun h l => addCandidate h (laneCand k l.1 l.2)) h ∧ f.lanes = [] ∧ n ≠ 2) ∧
    (∃ (s : State) (h : Hw) (k : Nat) (f : StepFound) (far : Bool) (c : Channel) (n : Nat) (g : Hw), h = clearSent s.hw ∧ far = decide (k ≥
     16) ∧ k ∈ tierUnits h (!far) ∧ c = chanAt h k ∧ n = nextStep c.path c.step ∧ h.memhw.training = true ∧ c.done = false ∧ c.failed =
     false ∧ pkgFenced h = false ∧ g = f.lanes.foldl (fun h l => addCandidate h (laneCand k l.1 l.2)) h ∧ f.lanes = [] ∧ n = 2 ∧ far = false
     ∧ deviceOk false f.dev = true) ∧
    (∃ (s : State) (h : Hw) (k : Nat) (f : StepFound) (far : Bool) (c : Channel) (n : Nat) (g : Hw) (e : Hw), h = clearSent s.hw ∧ far =
     decide (k ≥ 16) ∧ k ∈ tierUnits h (!far) ∧ c = chanAt h k ∧ n = nextStep c.path c.step ∧ h.memhw.training = true ∧ c.done = false ∧
     c.failed = false ∧ pkgFenced h = false ∧ g = f.lanes.foldl (fun h l => addCandidate h (laneCand k l.1 l.2)) h ∧ f.lanes = [] ∧ n = 2 ∧
     far = true ∧ deviceOk true f.dev = true ∧ (∀ d, h.memhw.farDev = some d → alike f.dev d = true) ∧ e = setChan h k
     { c with step := 2, dev := f.dev }) ∧
    (∃ (s : State) (h : Hw) (k : Nat) (f : StepFound) (far : Bool) (c : Channel) (n : Nat) (g : Hw), h = clearSent s.hw ∧ far = decide (k ≥
     16) ∧ k ∈ tierUnits h (!far) ∧ c = chanAt h k ∧ n = nextStep c.path c.step ∧ h.memhw.training = true ∧ c.done = false ∧ c.failed =
     false ∧ pkgFenced h = false ∧ g = f.lanes.foldl (fun h l => addCandidate h (laneCand k l.1 l.2)) h ∧ n = 2 ∧ (deviceOk far f.dev =
     false ∨ (far = true ∧ ∃ d, h.memhw.farDev = some d ∧ alike f.dev d = false))) ∧
    (∃ (s : State) (h : Hw) (k : Nat) (f : StepFound) (far : Bool) (c : Channel) (n : Nat) (g : Hw) (ok : Bool), h = clearSent s.hw ∧ far =
     decide (k ≥ 16) ∧ k ∈ tierUnits h (!far) ∧ c = chanAt h k ∧ n = nextStep c.path c.step ∧ h.memhw.training = true ∧ c.done = false ∧
     c.failed = false ∧ pkgFenced h = false ∧ g = f.lanes.foldl (fun h l => addCandidate h (laneCand k l.1 l.2)) h ∧ (ok = false ∨ f.lanes ≠
     []) ∧ (n = 2 ∨ (6 ≤ n ∧ n ≤ 10) ∨ (n = 5 ∧ far = true))) ∧
    (∃ (s : State) (h : Hw) (k : Nat) (f : StepFound) (far : Bool) (c : Channel) (n : Nat) (g : Hw) (ok : Bool), h = clearSent s.hw ∧ far =
     decide (k ≥ 16) ∧ k ∈ tierUnits h (!far) ∧ c = chanAt h k ∧ n = nextStep c.path c.step ∧ h.memhw.training = true ∧ c.done = false ∧
     c.failed = false ∧ pkgFenced h = false ∧ g = f.lanes.foldl (fun h l => addCandidate h (laneCand k l.1 l.2)) h ∧ (ok = false ∨ f.lanes ≠
     []) ∧ (n = 1 ∨ n = 3 ∨ (n = 5 ∧ far = false))) ∧
    (∃ (s : State) (h : Hw) (k : Nat) (f : StepFound) (far : Bool) (c : Channel) (n : Nat) (g : Hw) (ok : Bool), h = clearSent s.hw ∧ far =
     decide (k ≥ 16) ∧ k ∈ tierUnits h (!far) ∧ c = chanAt h k ∧ n = nextStep c.path c.step ∧ h.memhw.training = true ∧ c.done = false ∧
     c.failed = false ∧ pkgFenced h = false ∧ g = f.lanes.foldl (fun h l => addCandidate h (laneCand k l.1 l.2)) h ∧ (ok = false ∨ f.lanes ≠
     []) ∧ n = 4) ∧
    (∃ (s : State) (h : Hw), h = clearSent s.hw ∧ h.efano.ready = false ∧ h.start.wp = none ∧ h.start.checked = true ∧ h.start.fwOk = true ∧
     h.efano.mr = none ∧ h.start.released = true ∧ tierDone h true = true ∧ h.keep.latch = 0 ∧ h.start.st = PowerSt.active) :=
  ⟨⟨(st {}), _, 3, rfl, (by decide +kernel)⟩,
   ⟨(st {}), _, _, rfl, (by decide +kernel), (by decide +kernel), (by decide +kernel), (by decide +kernel), rfl⟩,
   ⟨(st { start := { checked := true } }), _, _, rfl, (by decide +kernel), (by decide +kernel), (by decide +kernel), rfl⟩,
   ⟨(st { start := { checked := true } }), _, rfl, (by decide +kernel), (by decide +kernel), (by decide +kernel), (by decide +kernel)⟩,
   ⟨(st { start := { checked := true, ports := true } }), _, rfl, (by decide +kernel), (by decide +kernel), (by decide +kernel),
     (by decide +kernel), (by decide +kernel), (by decide +kernel)⟩,
   ⟨(st { memhw := { training := true, chans := (List.range 128).map (fun k => (16 + k, { done := true })) } }), _, _, rfl,
     (by decide +kernel), (by decide +kernel), (by decide +kernel), (by decide +kernel), rfl⟩,
   ⟨(st { start := { boot := true } }), _, rfl, (by decide +kernel), (by decide +kernel), (by decide +kernel), (by decide +kernel)⟩,
   ⟨(st { arch := { running := true } }), _, _, rfl, (by decide +kernel), (by decide +kernel), (by decide +kernel), (by decide +kernel),
     (by decide +kernel), rfl⟩,
   ⟨(st { arch := { east := { joined := true } } }), _, 1, rfl, (by decide +kernel), (by decide +kernel), (by decide +kernel),
     (by decide +kernel), (by decide +kernel), (by decide +kernel)⟩,
   ⟨(st { memhw := { nearOpen := true, farOpen := true }, start := { checked := true } }), _, rfl, (by decide +kernel), (by decide +kernel),
     (by decide +kernel), (by decide +kernel), (by decide +kernel), (by decide +kernel), (by decide +kernel), (by decide +kernel),
     (by decide +kernel), (by decide +kernel), (by decide +kernel), (by decide +kernel)⟩,
   ⟨(st { start := { checked := true, released := true }, efano := { mr := some 5, agreed := true } }), _, _, rfl, (by decide +kernel),
     (by decide +kernel), (by decide +kernel), (by decide +kernel), rfl, (by decide +kernel), (by decide +kernel), (by decide +kernel)⟩,
   ⟨(st { memhw := { training := true, chans := [(11, { path := .cold, step := 9 })] } }), _, 11, {}, _, _, _, _, rfl, rfl,
     (by decide +kernel), rfl, rfl, (by decide +kernel), (by decide +kernel), (by decide +kernel), (by decide +kernel), rfl,
     (by decide +kernel), (by decide +kernel)⟩,
   ⟨(st { memhw := { training := true, chans := [(0, { path := .cold, step := 1 })] } }), _, 0, { dev := { gbit := 24, ranks := 12 } }, _,
     _, _, _, rfl, rfl, (by decide +kernel), rfl, rfl, (by decide +kernel), (by decide +kernel), (by decide +kernel), (by decide +kernel),
     rfl, (by decide +kernel), rfl, rfl, (by decide +kernel)⟩,
   ⟨(st { memhw := { training := true, chans := [(143, { path := .cold, step := 1 })] } }), _, 143, {}, _, _, _, _, _, rfl, rfl,
     (by decide +kernel), rfl, rfl, (by decide +kernel), (by decide +kernel), (by decide +kernel), (by decide +kernel), rfl,
     (by decide +kernel), rfl, rfl, (by decide +kernel), (fun _ e => nomatch e), rfl⟩,
   ⟨(st { memhw := { training := true, chans := [(16, { path := .cold, step := 1 })] } }), _, 16, { dev := { gbit := 8 } }, _, _, _, _, rfl,
     rfl, (by decide +kernel), rfl, rfl, (by decide +kernel), (by decide +kernel), (by decide +kernel), (by decide +kernel), rfl, rfl, (.inl
     (by decide +kernel))⟩,
   ⟨(st { memhw := { training := true, chans := [(16, { path := .cold, step := 9 })] } }), _, 16, { lanes := [(0, 1)] }, _, _, _, _, true,
     rfl, rfl, (by decide +kernel), rfl, rfl, (by decide +kernel), (by decide +kernel), (by decide +kernel), (by decide +kernel), rfl,
     (by decide +kernel), (by decide +kernel)⟩,
   ⟨(st { memhw := { training := true, chans := [(11, { path := .cold, step := 4 })] } }), _, 11, {}, _, _, _, _, false, rfl, rfl,
     (by decide +kernel), rfl, rfl, (by decide +kernel), (by decide +kernel), (by decide +kernel), (by decide +kernel), rfl,
     (by decide +kernel), (by decide +kernel)⟩,
   ⟨(st { memhw := { training := true, chans := [(11, { path := .warm, step := 3 })] } }), _, 11, {}, _, _, _, _, false, rfl, rfl,
     (by decide +kernel), rfl, rfl, (by decide +kernel), (by decide +kernel), (by decide +kernel), (by decide +kernel), rfl,
     (by decide +kernel), rfl⟩,
   ⟨(st { memhw := { nearOpen := true, farOpen := true }, start := { checked := true, released := true } }), _, rfl, (by decide +kernel),
     (by decide +kernel), (by decide +kernel), (by decide +kernel), (by decide +kernel), (by decide +kernel), (by decide +kernel),
     (by decide +kernel), (by decide +kernel)⟩⟩

theorem wit_ResetEventRows :
    (∃ (s : State) (h : Hw), h = clearSent s.hw) ∧
    (∃ (s : State) (h : Hw), ∃ t, h = clearSent s.hw ∧ h.start.wp = some t) ∧
    (∃ (s : State) (h : Hw), ∃ t g k j, h = clearSent s.hw ∧ h.start.wp = some t ∧ h.faults.fences = [] ∧ g = advanceTo h (t + 200000000) ∧
     k = { g with sel := { g.sel with base := .free, swatches := [] }, start := { g.start with wp := none } } ∧ j = recordWrite k
     { type := 0x0301, cls := 0, part := 0xFF, arg0 := 200000 }) ∧
    (∃ (s : State) (h : Hw), h = clearSent s.hw ∧ h.efano.mr = none ∧ h.start.wp = none ∧ tabWf {} h.efano.boxes = true) ∧
    (∃ (s : State) (h : Hw), ∃ m, h = clearSent s.hw ∧ h.efano.mr = none ∧ h.start.wp = none ∧ tabWf {} h.efano.boxes = true ∧ m ∈ allMbx) ∧
    (∃ (s : State) (h : Hw), h = clearSent s.hw ∧ ((h.efano.mr ≠ none ∨ h.start.wp ≠ none))) ∧
    (∃ (s : State) (h : Hw), ∃ t g e, h = clearSent s.hw ∧ h.efano.mr = some t ∧ h.efano.mrFails ≠ 2 ∧ g = advanceTo h (t + 500000000) ∧ e =
     { g.efano with mrFails := h.efano.mrFails + 1, epoch := h.efano.epoch + 1, mr := some g.tb.now }) ∧
    (∃ (s : State) (h : Hw), ∃ t, h = clearSent s.hw ∧ h.efano.mr = some t ∧ h.efano.mrFails = 2) ∧
    (∃ (s : State) (h : Hw), ∃ g, h = clearSent s.hw ∧ h.keep.powered = true ∧ g = advanceTo h (h.tb.now + 250000000)) ∧
    (∃ (s : State) (h : Hw) (c : Nat), h = clearSent s.hw ∧ 1 ≤ c ∧ c ≤ 4 ∧ resetting h = false ∧ h.start.st ≠ PowerSt.off ∧ logLost h =
     false) ∧
    (∃ (s : State) (h : Hw) (c : Nat), h = clearSent s.hw ∧ 1 ≤ c ∧ c ≤ 4 ∧ resetting h = false ∧ h.start.st ≠ PowerSt.off ∧
     h.ident.admitted = false) ∧
    (∃ (s : State) (h : Hw) (c : Nat) (n : Nat) (x : RootPort), h = clearSent s.hw ∧ 1 ≤ c ∧ c ≤ 4 ∧ resetting h = false ∧ h.start.st ≠
     PowerSt.off ∧ tabGet {} (wpBegin h c).edges.ports n = x) ∧
    (∃ (s : State) (h : Hw), h = clearSent s.hw ∧ resetting h = true) ∧
    (∃ (s : State) (h : Hw) (m : Mbx) (r : Req), h = clearSent s.hw ∧ h.efano.mr = none ∧ h.efano.ready = true ∧ tabWf {} h.efano.boxes =
     true ∧ m ∈ allMbx ∧ r ∈ (boxAt (mrBegin h) m).reqs) ∧
    (∃ (s : State) (h : Hw), h = clearSent s.hw ∧ (h.efano.mr ≠ none ∨ resetting h = true)) ∧
    (∃ (s : State) (h : Hw), h = clearSent s.hw ∧ h.ident.pairLock = true) ∧
    (∃ (s : State) (h : Hw), h = clearSent s.hw ∧ resetting h = true ∧ trainCut h = false) ∧
    (∃ (s : State) (h : Hw) (c : Nat), h = clearSent s.hw ∧ 1 ≤ c ∧ c ≤ 4 ∧ trainCut h = true ∧ h.start.st ≠ PowerSt.off) ∧
    (∃ (s : State) (h : Hw) (t : Nat) (g : Hw) (m : Mbx), h = clearSent s.hw ∧ h.efano.mr = some t ∧ h.efano.mrFails ≠ 2 ∧ g = restartMgmt
     (advanceTo h (t + 500000000)) ∧ tabWf {} h.efano.boxes = true ∧ m ∈ allMbx) :=
  ⟨⟨(st { start := { wp := some 3 } }), _, rfl⟩,
   ⟨(st { start := { wp := some 3 } }), _, _, rfl, rfl⟩,
   ⟨(st { start := { wp := some 3 } }), _, _, _, _, _, rfl, rfl, (by decide +kernel), rfl, rfl, rfl⟩,
   ⟨(st {}), _, rfl, (by decide +kernel), (by decide +kernel), (by decide +kernel)⟩,
   ⟨(st {}), _, .keeper, rfl, (by decide +kernel), (by decide +kernel), (by decide +kernel), (by decide +kernel)⟩,
   ⟨(st { start := { wp := some 3 } }), _, rfl, (by decide +kernel)⟩,
   ⟨(st { efano := { mr := some 3 } }), _, _, _, _, rfl, rfl, (by decide +kernel), rfl, rfl⟩,
   ⟨(st { efano := { mr := some 3, mrFails := 2 } }), _, _, rfl, rfl, (by decide +kernel)⟩,
   ⟨(st {}), _, _, rfl, (by decide +kernel), rfl⟩,
   ⟨(st { efano := { ready := true } }), _, 4, rfl, (by decide +kernel), (by decide +kernel), (by decide +kernel), (by decide +kernel),
     (by decide +kernel)⟩,
   ⟨(st { efano := { ready := true } }), _, 4, rfl, (by decide +kernel), (by decide +kernel), (by decide +kernel), (by decide +kernel),
     (by decide +kernel)⟩,
   ⟨(st { edges := { ports := [(7, { up := true })] }, efano := { ready := true } }), _, 4, 7, _, rfl, (by decide +kernel),
     (by decide +kernel), (by decide +kernel), (by decide +kernel), rfl⟩,
   ⟨(st { start := { wp := some 3 } }), _, rfl, (by decide +kernel)⟩,
   ⟨(st { efano := { ready := true, boxes := [(17, { reqs := [{ rq 0x0E01 [] with begun := true }] })] } }), _, .steward,
     { rq 0x0E01 [] with begun := true }, rfl, (by decide +kernel), (by decide +kernel), (by decide +kernel), (by decide +kernel),
     (by decide +kernel)⟩,
   ⟨(st { start := { wp := some 3 } }), _, rfl, (by decide +kernel)⟩,
   ⟨(st { ident := { pairLock := true } }), _, rfl, (by decide +kernel)⟩,
   ⟨(st {}), _, rfl, (by decide +kernel), (by decide +kernel)⟩,
   ⟨(st { memhw := { training := true }, faults := { fences := [{ scope := .package }] } }), _, 4, rfl, (by decide +kernel),
     (by decide +kernel), (by decide +kernel), (by decide +kernel)⟩,
   ⟨(st { efano := { mr := some 3, mrFails := 1 } }), _, _, _, .keeper, rfl, rfl, (by decide +kernel), rfl, (by decide +kernel), (by
     decide)⟩⟩

theorem wit_LowPowerRows :
    (∃ (s : State) (h : Hw), h = clearSent s.hw) ∧
    (∃ (s : State) (h : Hw) (w : Bool), ∃ g, h = clearSent s.hw ∧ h.start.st = PowerSt.active ∧ h.efano.ready = true ∧ enginesBusy h = false
     ∧ ((w = true ∨ ∀ n, n < 128 → (hartAt h n).run ≠ HartRun.running)) ∧ g = loopDefaults (advanceTo h (h.tb.now + h.start.idleUs * 1000))) ∧
    (∃ (s : State) (h : Hw), ∃ k x, h = clearSent s.hw ∧ k = dropForSleep h ∧ ((h.start.st = PowerSt.active ∨ h.start.st = PowerSt.idle)) ∧
     h.start.drowseReq = true ∧ unacked h = false ∧ enginesBusy h = false ∧ x =
     { k.start with st := .drowse, since := k.tb.now, entryTb := k.tb.now, drowseReq := false }) ∧
    (∃ (s : State) (h : Hw), ∃ k x, h = clearSent s.hw ∧ k = dropForSleep (advanceTo h (h.start.since + h.start.drowseMs * 1000000)) ∧
     h.start.st = PowerSt.idle ∧ h.start.drowseOn = true ∧ h.start.drowseReq = false ∧ enginesBusy h = false ∧ x =
     { k.start with st := .drowse, since := k.tb.now, entryTb := k.tb.now, drowseReq := false }) ∧
    (∃ (s : State) (h : Hw), h = clearSent s.hw ∧ h.start.st = PowerSt.idle) ∧
    (∃ (s : State) (h : Hw), h = clearSent s.hw ∧ h.start.st = PowerSt.drowse) ∧
    (∃ (s : State) (h : Hw), h = clearSent s.hw ∧ h.start.dormReq = true ∧ h.start.st = PowerSt.active ∧ workLeft h = false ∧ anyHeld h =
     false) ∧
    (∃ (s : State) (h : Hw), h = clearSent s.hw ∧ h.start.dormReq = true ∧ h.start.st = PowerSt.active ∧ workLeft h = false ∧ anyHeld h =
     true) ∧
    (∃ (s : State) (h : Hw), h = clearSent s.hw ∧ h.start.st = PowerSt.dormant ∧ h.start.image = some h.keep.sealKey) ∧
    (∃ (s : State) (h : Hw) (ok : Bool), h = clearSent s.hw ∧ h.start.st = PowerSt.dormant ∧ ((ok = false ∨ h.start.image ≠ some
     h.keep.sealKey))) ∧
    (∃ (s : State) (h : Hw) (w : Bool) (g : Hw), h = clearSent s.hw ∧ h.start.st = PowerSt.active ∧ h.efano.ready = true ∧ enginesBusy h =
     false ∧ (w = true ∨ ∀ n, n < 128 → (hartAt h n).run ≠ HartRun.running) ∧ g = loopDefaults (advanceTo (noteThrottle h) (h.tb.now +
     h.start.idleUs * 1000))) ∧
    (∃ (s : State) (h : Hw) (b : WakeBy) (w : WakeTrain), h = clearSent s.hw ∧ h.start.st = PowerSt.dormant ∧ b ≠ WakeBy.traffic ∧ w.image =
     true ∧ w.fails = [] ∧ h.start.image = some h.keep.sealKey) ∧
    (∃ (s : State) (h : Hw) (b : WakeBy) (w : WakeTrain) (g : Hw), h = clearSent s.hw ∧ h.start.st = PowerSt.dormant ∧ b ≠ WakeBy.traffic ∧
     (w.image = false ∨ h.start.image ≠ some h.keep.sealKey) ∧ g = wakeTrain { h with memhw := setSelfRefresh h.memhw (pkgFenced h) }
     w.fails) ∧
    (∃ (s : State) (h : Hw) (b : WakeBy) (w : WakeTrain) (g : Hw), h = clearSent s.hw ∧ h.start.st = PowerSt.dormant ∧ b ≠ WakeBy.traffic ∧
     g = wakeTrain { h with memhw := setSelfRefresh h.memhw (pkgFenced h) } w.fails ∧ (g.memhw.nearOpen ≠ h.memhw.nearOpen ∨ g.memhw.farOpen
     ≠ h.memhw.farOpen)) :=
  ⟨⟨(st {}), _, rfl⟩,
   ⟨(st { efano := { ready := true } }), _, false, _, rfl, (by decide +kernel), (by decide +kernel), (by decide +kernel),
     (by decide +kernel), rfl⟩,
   ⟨(st { start := { drowseReq := true } }), _, _, _, rfl, rfl, (by decide +kernel), (by decide +kernel), (by decide +kernel),
     (by decide +kernel), rfl⟩,
   ⟨(st { start := { st := .idle, drowseOn := true } }), _, _, _, rfl, rfl, (by decide +kernel), (by decide +kernel), (by decide +kernel),
     (by decide +kernel), rfl⟩,
   ⟨(st { start := { st := .idle } }), _, rfl, (by decide +kernel)⟩,
   ⟨(st { start := { st := .drowse } }), _, rfl, (by decide +kernel)⟩,
   ⟨(st { start := { dormReq := true } }), _, rfl, (by decide +kernel), (by decide +kernel), (by decide +kernel), (by decide +kernel)⟩,
   ⟨(st { start := { dormReq := true }, sel := { base := .scrubbing } }), _, rfl, (by decide +kernel), (by decide +kernel),
     (by decide +kernel), (by decide +kernel)⟩,
   ⟨(st { start := { st := .dormant, image := some 1 } }), _, rfl, (by decide +kernel), (by decide +kernel)⟩,
   ⟨(st { start := { st := .dormant, image := some 2 } }), _, true, rfl, (by decide +kernel), (by decide +kernel)⟩,
   ⟨(st { efano := { ready := true } }), _, false, _, rfl, (by decide +kernel), (by decide +kernel), (by decide +kernel), (.inr
     (by decide +kernel)), rfl⟩,
   ⟨(st { start := { st := .dormant, image := some 1 }, keep := { sealKey := 1 } }), _, .pin, { image := true }, rfl, (by decide +kernel),
     (by decide +kernel), (by decide +kernel), (by decide +kernel), rfl⟩,
   ⟨(st { start := { st := .dormant, image := some 2 } }), _, .pin, { image := true }, _, rfl, (by decide +kernel), (by decide +kernel),
     (by decide +kernel), rfl⟩,
   ⟨(st { start := { st := .dormant, image := some 1 }, memhw := { nearOpen := true, farOpen := true } }), _, .alarm,
     { image := true, fails := [(0, 10)] }, _, rfl, (by decide +kernel), (by decide +kernel), rfl, (by decide +kernel)⟩⟩

theorem wit_HartAccessRows :
    (∃ (s : State) (h : Hw) (a : HartAccess) (l : Nat) (o : HM) (g : Hw) (k : Hw), h = clearSent s.hw ∧ runs h a.hart = true ∧ l =
     compactLocal a.ca ∧ o = beforeAccess (h, s.mem) a ∧ a.cbo = .none ∧ a.pbmt = .pma ∧ g = arrayAnswers o.1 a ∧ inIo l = false ∧ isLocal g
     a.ca = true ∧ meets o.1 a .load false true = none ∧ k = a.ahead.foldl (fun k x => prefetch k a.hart l x) ((linesOf l a.size).foldl (fun
     k x => touchCore k a.hart x false false a.ca) (addTraffic (retryStall g l) (hartOwner g a.hart) a.size)) ∧ (∀ x, x ∈ linesOf l a.size →
     poisoned k (x * 64) = false) ∧ NoWait k) ∧
    (∃ (s : State) (h : Hw) (a : HartAccess) (l : Nat) (o : HM) (g : Hw) (k : Hw) (x : Nat) (f : Hw), h = clearSent s.hw ∧ runs h a.hart =
     true ∧ l = compactLocal a.ca ∧ o = beforeAccess (h, s.mem) a ∧ a.cbo = .none ∧ a.pbmt = .pma ∧ g = arrayAnswers o.1 a ∧ inIo l = false
     ∧ isLocal g a.ca = true ∧ meets o.1 a .load false true = none ∧ k = a.ahead.foldl (fun k x => prefetch k a.hart l x) ((linesOf l
     a.size).foldl (fun k x => touchCore k a.hart x false false a.ca) (addTraffic (retryStall g l) (hartOwner g a.hart) a.size)) ∧ (linesOf
     l a.size).find? (fun x => poisoned k (x * 64)) = some x ∧ f = hartFault k a .load (2, sourceOf l, a.ca - l % 2 ^ 44 + max l (x * 64) %
     2 ^ 44) ∧ NoWait f) ∧
    (∃ (s : State) (h : Hw) (a : HartAccess) (l : Nat) (o : HM) (r : List Byte × Hw), h = clearSent s.hw ∧ runs h a.hart = true ∧ l =
     compactLocal a.ca ∧ o = beforeAccess (h, s.mem) a ∧ a.cbo = .none ∧ a.pbmt ≠ .pma ∧ inIo l = false ∧ meets o.1 a .load false true =
     none ∧ r = readUncached (arrayAnswers o.1 a, o.2) a.hart a.ca a.size ∧ NoWait r.2) ∧
    (∃ (s : State) (h : Hw) (a : HartAccess) (l : Nat) (o : HM) (g : Hw) (v : Nat), h = clearSent s.hw ∧ runs h a.hart = true ∧ l =
     compactLocal a.ca ∧ o = beforeAccess (h, s.mem) a ∧ a.cbo = .none ∧ g = arrayAnswers o.1 a ∧ regionOf l = 3 ∧ isLocal g a.ca = true ∧
     meets o.1 a .load false true = none ∧ (offsetOf l % 2 ^ 24 ≠ 0x6008 ∨ stewardBase ≤ offsetOf l ∨ invalidated g (offsetOf l / 2 ^ 24) =
     true) ∧ NoWait g ∧ region3Read g (offsetOf l) a.size = some v) ∧
    (∃ (s : State) (h : Hw) (a : HartAccess) (l : Nat) (o : HM) (g : Hw) (f : Hw), h = clearSent s.hw ∧ runs h a.hart = true ∧ l =
     compactLocal a.ca ∧ o = beforeAccess (h, s.mem) a ∧ a.cbo = .none ∧ g = arrayAnswers o.1 a ∧ regionOf l = 3 ∧ isLocal g a.ca = true ∧
     meets o.1 a .load false true = none ∧ (offsetOf l % 2 ^ 24 ≠ 0x6008 ∨ stewardBase ≤ offsetOf l ∨ invalidated g (offsetOf l / 2 ^ 24) =
     true) ∧ region3Read g (offsetOf l) a.size = none ∧ f = accessFault g a 5 1 2 0xC a.ca ∧ NoWait f) ∧
    (∃ (s : State) (h : Hw) (a : HartAccess) (l : Nat) (o : HM) (g : Hw), h = clearSent s.hw ∧ runs h a.hart = true ∧ l = compactLocal a.ca
     ∧ o = beforeAccess (h, s.mem) a ∧ a.cbo = .none ∧ g = arrayAnswers o.1 a ∧ regionOf l = 3 ∧ isLocal g a.ca = true ∧ meets o.1 a .load
     false true = none ∧ offsetOf l % 2 ^ 24 = 0x6008 ∧ offsetOf l < stewardBase ∧ invalidated g (offsetOf l / 2 ^ 24) = false ∧ NoWait o.1) ∧
    (∃ (s : State) (h : Hw) (a : HartAccess) (l : Nat) (o : HM) (g : Hw) (r : List Byte × Hw), h = clearSent s.hw ∧ runs h a.hart = true ∧ l
     = compactLocal a.ca ∧ o = beforeAccess (h, s.mem) a ∧ a.cbo = .none ∧ g = arrayAnswers o.1 a ∧ regionOf l ∈ [4, 5] ∧ isLocal g a.ca =
     true ∧ meets o.1 a .load false true = none ∧ r = takeRemote (retryStall g l) a.ca a.size ∧ NoWait r.2) ∧
    (∃ (s : State) (h : Hw) (a : HartAccess) (l : Nat) (o : HM) (g : Hw) (r : List Byte × Hw), h = clearSent s.hw ∧ runs h a.hart = true ∧ l
     = compactLocal a.ca ∧ o = beforeAccess (h, s.mem) a ∧ a.cbo = .none ∧ (a.pbmt = .pma ∨ inIo l = true) ∧ g = arrayAnswers o.1 a ∧
     isLocal g a.ca = false ∧ meets o.1 a .load false true = none ∧ r = readAfar g a.hart a.ca a.size ∧ NoWait r.2) ∧
    (∃ (s : State) (h : Hw) (a : HartAccess) (l : Nat) (o : HM) (e : Nat × Nat × Nat) (g : Hw), h = clearSent s.hw ∧ runs h a.hart = true ∧
     l = compactLocal a.ca ∧ o = beforeAccess (h, s.mem) a ∧ a.cbo = .none ∧ meets o.1 a .load false true = some e ∧ g = hartFault o.1 a
     .load e ∧ NoWait g) ∧
    (∃ (s : State) (h : Hw) (a : HartAccess) (l : Nat), h = clearSent s.hw ∧ runs h a.hart = true ∧ l = compactLocal a.ca ∧ a.cbo ∈
     [.prefetchR, .prefetchW, .prefetchI] ∧ inIo l = true) ∧
    (∃ (s : State) (h : Hw) (a : HartAccess) (l : Nat) (o : HM) (b : HartAccess), h = clearSent s.hw ∧ runs h a.hart = true ∧ l =
     compactLocal a.ca ∧ a.cbo ∈ [.clean, .flush, .inval] ∧ inIo l = true ∧ (hartAt h a.hart).mode = 3 ∧ o = drainBuffer (h, s.mem) a.hart ∧
     hartOwner o.1 a.hart ≤ 16 ∧ unitFenced o.1 2 (a.hart / 8) = false ∧ b = { a with ca := a.ca / 64 * 64, size := 64 } ∧ NoWait
     (accessFault o.1 b 7 2 7 0 b.ca)) ∧
    (∃ (s : State) (h : Hw) (a : HartAccess) (l : Nat) (bs : List Byte) (o : HM) (g : Hw) (w : Hw × Memory), h = clearSent s.hw ∧ runs h
     a.hart = true ∧ l = compactLocal a.ca ∧ bs.length = a.size ∧ inIo l = false ∧ o = beforeStore (h, s.mem) a ∧ (a.size ≤ 8 ∨ cboGate
     (hartAt o.1 a.hart) .none true = none) ∧ meets o.1 a (storeOp a) true false = none ∧ g = addTraffic (evictAnswer o.1 a) (hartOwner o.1
     a.hart) a.size ∧ w = (setHart g a.hart
     { hartAt g a.hart with sb := (hartAt g a.hart).sb ++ [{ addr := a.ca, bytes := bs, io := decide (a.pbmt ≠ .pma) }] }, o.2) ∧ a.pbmt ≠
     .io ∧ NoWait w.1) ∧
    (∃ (s : State) (h : Hw) (a : HartAccess) (l : Nat) (bs : List Byte) (o : HM) (g : Hw) (w : Hw × Memory), h = clearSent s.hw ∧ runs h
     a.hart = true ∧ l = compactLocal a.ca ∧ bs.length = a.size ∧ inIo l = false ∧ o = beforeStore (h, s.mem) a ∧ (a.size ≤ 8 ∨ cboGate
     (hartAt o.1 a.hart) .none true = none) ∧ meets o.1 a (storeOp a) true false = none ∧ g = addTraffic (evictAnswer o.1 a) (hartOwner o.1
     a.hart) a.size ∧ w = (setHart g a.hart
     { hartAt g a.hart with sb := (hartAt g a.hart).sb ++ [{ addr := a.ca, bytes := bs, io := decide (a.pbmt ≠ .pma) }] }, o.2) ∧ a.pbmt =
     .io ∧ NoWait (drainBuffer w a.hart).1) ∧
    (∃ (s : State) (h : Hw) (a : HartAccess) (l : Nat) (bs : List Byte) (o : HM) (c : Nat), h = clearSent s.hw ∧ runs h a.hart = true ∧ l =
     compactLocal a.ca ∧ bs.length = a.size ∧ 8 < a.size ∧ o = beforeStore (h, s.mem) a ∧ cboGate (hartAt o.1 a.hart) .none true = some c ∧
     NoWait o.1) ∧
    (∃ (s : State) (h : Hw) (a : HartAccess) (l : Nat) (bs : List Byte) (o : HM) (w : Hw), h = clearSent s.hw ∧ runs h a.hart = true ∧ l =
     compactLocal a.ca ∧ bs.length = a.size ∧ o = beforeStore (h, s.mem) a ∧ inIo l = true ∧ isLocal o.1 a.ca = false ∧ a.size ≤ 8 ∧ meets
     o.1 a .store true false = none ∧ w = tagWrites (remoteWrite o.1 (hartOwner o.1 a.hart) a.ca bs false) (.hart a.hart) ∧ NoWait w) ∧
    (∃ (s : State) (h : Hw) (a : HartAccess) (l : Nat) (bs : List Byte) (o : HM) (w : HM), h = clearSent s.hw ∧ runs h a.hart = true ∧ l =
     compactLocal a.ca ∧ bs.length = a.size ∧ o = beforeStore (h, s.mem) a ∧ regionOf l = 3 ∧ isLocal o.1 a.ca = true ∧ a.size ≤ 8 ∧ meets
     o.1 a .store true false = none ∧ w = region3Store o (offsetOf l) a.size (leNat bs) ∧ NoWait w.1) ∧
    (∃ (s : State) (h : Hw) (a : HartAccess) (l : Nat) (bs : List Byte) (o : HM) (w : Hw), h = clearSent s.hw ∧ runs h a.hart = true ∧ l =
     compactLocal a.ca ∧ bs.length = a.size ∧ o = beforeStore (h, s.mem) a ∧ regionOf l ∈ [4, 5] ∧ isLocal o.1 a.ca = true ∧ a.size ≤ 8 ∧
     meets o.1 a .store true false = none ∧ w = (if portDead o.1 l then devError o.1 l 3 else retryStall o.1 l) ∧ NoWait w) ∧
    (∃ (s : State) (h : Hw) (a : HartAccess) (l : Nat) (bs : List Byte) (e : Nat × Nat × Nat) (o : HM) (g : Hw), h = clearSent s.hw ∧ runs h
     a.hart = true ∧ l = compactLocal a.ca ∧ bs.length = a.size ∧ o = beforeStore (h, s.mem) a ∧ (a.size ≤ 8 ∨ cboGate (hartAt o.1 a.hart)
     .none true = none) ∧ meets o.1 a (storeOp a) true false = some e ∧ g = hartFault o.1 a (storeOp a) e ∧ NoWait g) ∧
    (∃ (s : State) (h : Hw) (a : HartAccess) (l : Nat) (g : Hw), h = clearSent s.hw ∧ runs h a.hart = true ∧ l = compactLocal a.ca ∧ g =
     setHart h a.hart { xret (hartAt h a.hart) a.ret with pc := a.va } ∧ unitFenced h 2 (a.hart / 8) = true ∧ (hartAt h a.hart).nmie =
     false) ∧
    (∃ (s : State) (h : Hw) (a : HartAccess) (l : Nat) (f : Hw) (g : Hw) (k : Hw), h = clearSent s.hw ∧ runs h a.hart = true ∧ l =
     compactLocal a.ca ∧ f = setHart h a.hart { xret (hartAt h a.hart) a.ret with pc := a.va } ∧ (unitFenced h 2 (a.hart / 8) = false ∨
     (hartAt h a.hart).nmie = true) ∧ meets f a .fetch false true = none ∧ g = arrayAnswers f a ∧ k = (if a.pbmt ≠ .pma then (readUncached
     (g, s.mem) a.hart a.ca a.size).2 else if isLocal g a.ca then (linesOf l a.size).foldl (fun k x => touchCore k a.hart x true false a.ca)
     (addTraffic (retryStall g l) (hartOwner g a.hart) a.size) else touchAll g a.hart a.ca a.size true false) ∧ (isLocal k a.ca = true → ∀
     x, x ∈ linesOf l a.size → poisoned k (x * 64) = false) ∧ NoWait k) ∧
    (∃ (s : State) (h : Hw) (a : HartAccess) (l : Nat) (f : Hw) (g : Hw) (k : Hw) (x : Nat) (e : Hw), h = clearSent s.hw ∧ runs h a.hart =
     true ∧ l = compactLocal a.ca ∧ f = setHart h a.hart { xret (hartAt h a.hart) a.ret with pc := a.va } ∧ (unitFenced h 2 (a.hart / 8) =
     false ∨ (hartAt h a.hart).nmie = true) ∧ meets f a .fetch false true = none ∧ g = arrayAnswers f a ∧ k = (if a.pbmt ≠ .pma then
     (readUncached (g, s.mem) a.hart a.ca a.size).2 else if isLocal g a.ca then (linesOf l a.size).foldl (fun k x => touchCore k a.hart x
     true false a.ca) (addTraffic (retryStall g l) (hartOwner g a.hart) a.size) else touchAll g a.hart a.ca a.size true false) ∧ isLocal k
     a.ca = true ∧ (linesOf l a.size).find? (fun x => poisoned k (x * 64)) = some x ∧ e = hartFault k a .fetch (2, sourceOf l, a.ca - l % 2
     ^ 44 + max l (x * 64) % 2 ^ 44) ∧ NoWait e) ∧
    (∃ (s : State) (h : Hw) (a : HartAccess) (l : Nat) (g : Hw) (e : Nat × Nat × Nat), h = clearSent s.hw ∧ runs h a.hart = true ∧ l =
     compactLocal a.ca ∧ g = setHart h a.hart { xret (hartAt h a.hart) a.ret with pc := a.va } ∧ (unitFenced h 2 (a.hart / 8) = false ∨
     (hartAt h a.hart).nmie = true) ∧ meets g a .fetch false true = some e ∧ NoWait (hartFault g a .fetch e)) ∧
    (∃ (s : State) (h : Hw) (a : HartAccess) (l : Nat) (o : HM), h = clearSent s.hw ∧ runs h a.hart = true ∧ l = compactLocal a.ca ∧ o =
     hartLoad (h, s.mem) a ∧ ¬ NoWait o.1) ∧
    (∃ (s : State) (h : Hw) (a : HartAccess) (l : Nat) (o : HM) (bs : List Byte), h = clearSent s.hw ∧ runs h a.hart = true ∧ l =
     compactLocal a.ca ∧ o = hartStore (h, s.mem) a bs ∧ ¬ NoWait o.1) ∧
    (∃ (s : State) (h : Hw) (a : HartAccess) (l : Nat) (o : HM), h = clearSent s.hw ∧ runs h a.hart = true ∧ l = compactLocal a.ca ∧ o =
     hartFetch (h, s.mem) a ∧ ¬ NoWait o.1) ∧
    (∃ (s : State) (h : Hw) (a : HartAccess) (l : Nat), h = clearSent s.hw ∧ runs h a.hart = true ∧ l = compactLocal a.ca ∧ (hartOwner h
     a.hart > 16 ∨ unitFenced h 2 (a.hart / 8) = true)) ∧
    (∃ (s : State) (h : Hw) (a : HartAccess) (l : Nat) (op : HartOp) (w : Bool) (rd : Bool), h = clearSent s.hw ∧ runs h a.hart = true ∧ l =
     compactLocal a.ca ∧ 0 < a.size ∧ hartOwner h a.hart ≤ 16 ∧ unitFenced h 2 (a.hart / 8) = false ∧ pmpOk h a op w rd a.ca = false) ∧
    (∃ (s : State) (h : Hw) (a : HartAccess) (l : Nat) (op : HartOp) (w : Bool) (rd : Bool) (x : Nat), h = clearSent s.hw ∧ runs h a.hart =
     true ∧ l = compactLocal a.ca ∧ isLocal h a.ca = true ∧ hartOwner h a.hart ≤ 16 ∧ unitFenced h 2 (a.hart / 8) = false ∧ (∀ y, y ∈ blocks
     l a.size → pmpOk h a op w rd (a.ca - l % 2 ^ 44 + y % 2 ^ 44) = true ∧ pmaOk op (regionOf y) l a.size = true) ∧ (blocks l a.size).find?
     (fun x => !selPiece h (hartOwner h a.hart) x w) = some x) ∧
    (∃ (s : State) (h : Hw) (a : HartAccess) (l : Nat) (xc : Nat) (acc : Nat) (c : Nat) (src : Nat) (ca : Nat) (x : Hart) (y : Hart) (b :
     Nat), h = clearSent s.hw ∧ runs h a.hart = true ∧ l = compactLocal a.ca ∧ x = hartAt h a.hart ∧ tabWf 0 x.csrs = true ∧ acc < 4 ∧ src <
     16 ∧ c < 256 ∧ a.implicit = false ∧ y = hartAt (accessFault h a xc acc c src ca) a.hart ∧ b = trapBase (trapMode x xc) ∧ trapMode x xc
     = .m) ∧
    (∃ (s : State) (h : Hw) (a : HartAccess) (l : Nat) (xc : Nat) (acc : Nat) (c : Nat) (src : Nat) (ca : Nat) (x : Hart) (y : Hart) (b :
     Nat), h = clearSent s.hw ∧ runs h a.hart = true ∧ l = compactLocal a.ca ∧ x = hartAt h a.hart ∧ tabWf 0 x.csrs = true ∧ acc < 4 ∧ src <
     16 ∧ c < 256 ∧ a.implicit = false ∧ y = hartAt (accessFault h a xc acc c src ca) a.hart ∧ b = trapBase (trapMode x xc) ∧ trapMode x xc
     = .hs) ∧
    (∃ (s : State) (h : Hw) (a : HartAccess) (l : Nat) (xc : Nat) (acc : Nat) (c : Nat) (src : Nat) (ca : Nat) (x : Hart) (y : Hart) (b :
     Nat), h = clearSent s.hw ∧ runs h a.hart = true ∧ l = compactLocal a.ca ∧ x = hartAt h a.hart ∧ tabWf 0 x.csrs = true ∧ acc < 4 ∧ src <
     16 ∧ c < 256 ∧ a.implicit = false ∧ y = hartAt (accessFault h a xc acc c src ca) a.hart ∧ b = trapBase (trapMode x xc) ∧ trapMode x xc
     = .vs ∧ a.gpa = none) :=
  ⟨⟨(st (hartHw)), _, { hart := 0, va := 64, ca := 64 }, _, _, _, _, rfl, (by decide +kernel), rfl, rfl, (by decide +kernel),
     (by decide +kernel), rfl, (by decide +kernel), (by decide +kernel), (by decide +kernel), rfl, (by decide +kernel), (by decide +kernel)⟩,
   ⟨(st (hartHw
     { coh := { dir := [(1, { st := .e, owner := some (.l3 5) })] }, faults := { fences := [{ scope := .unit, kind := 2, unit := 5 }] } })),
     _, { hart := 0, va := 64, ca := 64 }, _, _, _, _, 1, _, rfl, (by decide +kernel), rfl, rfl, (by decide +kernel), (by decide +kernel),
     rfl, (by decide +kernel), (by decide +kernel), (by decide +kernel), rfl, (by decide +kernel), rfl, (by decide +kernel)⟩,
   ⟨(st (hartHw)), _, { hart := 0, va := 64, ca := 64, pbmt := .nc }, _, _, _, rfl, (by decide +kernel), rfl, rfl, (by decide +kernel),
     (by decide +kernel), (by decide +kernel), (by decide +kernel), rfl, (by decide +kernel)⟩,
   ⟨(st (hartHw)), _, { hart := 0, va := 64, ca := 3 * 2 ^ 44 + 0x18000 }, _, _, _, 0, rfl, (by decide +kernel), rfl, rfl,
     (by decide +kernel), rfl, (by decide +kernel), (by decide +kernel), (by decide +kernel), (by decide +kernel), (by decide +kernel),
     (by decide +kernel)⟩,
   ⟨(st (wk [] { harts := [(0, { run := .running, nmie := true })], sync := { knots := [(3, { poison := true })] } })), _,
     { hart := 0, va := 64, ca := 3 * 2 ^ 44 + 0x800030 }, _, _, _, _, rfl, (by decide +kernel), rfl, rfl, (by decide +kernel), rfl,
     (by decide +kernel), (by decide +kernel), (by decide +kernel), (by decide +kernel), (by decide +kernel), rfl, (by decide +kernel)⟩,
   ⟨(st (wk [{ at3 [] with pauseReq := true }] { harts := [(0, { run := .running, nmie := true })] })), _,
     { hart := 0, va := 64, ca := 3 * 2 ^ 44 + 24584 }, _, _, _, rfl, (by decide +kernel), rfl, rfl, (by decide +kernel), rfl,
     (by decide +kernel), (by decide +kernel), (by decide +kernel), (by decide +kernel), (by decide +kernel), (by decide +kernel),
     (by decide +kernel)⟩,
   ⟨(st (hartHw)), _, { hart := 0, va := 64, ca := 4 * 2 ^ 44 }, _, _, _, _, rfl, (by decide +kernel), rfl, rfl, (by decide +kernel), rfl,
     (by decide +kernel), (by decide +kernel), (by decide +kernel), rfl, (by decide +kernel)⟩,
   ⟨(st (afarHw)), _, { hart := 0, va := 64, ca := 3 * 2 ^ 48 }, _, _, _, _, rfl, (by decide +kernel), rfl, rfl, (by decide +kernel),
     (by decide +kernel), rfl, (by decide +kernel), (by decide +kernel), rfl, (by decide +kernel)⟩,
   ⟨(st (hartHw {} { run := .running, nmie := true, mode := 0 })), _, { hart := 0, va := 64, ca := 64 }, _, _, (7, 0, 64), _, rfl,
     (by decide +kernel), rfl, rfl, (by decide +kernel), (by decide +kernel), rfl, (by decide +kernel)⟩,
   ⟨(st (hartHw)), _, { hart := 0, va := 64, ca := 3 * 2 ^ 44, cbo := .prefetchR }, _, rfl, (by decide +kernel), rfl, (by decide +kernel),
     (by decide +kernel)⟩,
   ⟨(st (hartHw)), _, { hart := 0, va := 64, ca := 3 * 2 ^ 44, cbo := .flush }, _, _, _, rfl, (by decide +kernel), rfl, (by decide +kernel),
     (by decide +kernel), (by decide +kernel), rfl, (by decide +kernel), (by decide +kernel), rfl, (by decide +kernel)⟩,
   ⟨(st (hartHw)), _, { hart := 0, va := 64, ca := 64 }, _, (zeros 8), _, _, _, rfl, (by decide +kernel), rfl, (by decide +kernel),
     (by decide +kernel), rfl, (by decide +kernel), (by decide +kernel), rfl, rfl, (by decide +kernel), (by decide +kernel)⟩,
   ⟨(st (hartHw)), _, { hart := 0, va := 64, ca := 64, pbmt := .io }, _, (zeros 8), _, _, _, rfl, (by decide +kernel), rfl,
     (by decide +kernel), (by decide +kernel), rfl, (by decide +kernel), (by decide +kernel), rfl, rfl, (by decide +kernel),
     (by decide +kernel)⟩,
   ⟨(st (hartHw {} { run := .running, nmie := true, mode := 0 })), _, { hart := 0, va := 64, ca := 64, size := 64 }, _, (zeros 64), _, 2,
     rfl, (by decide +kernel), rfl, (by decide +kernel), (by decide +kernel), rfl, (by decide +kernel), (by decide +kernel)⟩,
   ⟨(st (hartHw { coh := { proxies := [(3 * 2 ^ 42 + 4 * 2 ^ 38, { own := true, part := 0, clusters := 1, bytes := zeros 64 })] } })), _,
     { hart := 0, va := 64, ca := 3 * 2 ^ 48 + 4 * 2 ^ 44 }, _, (zeros 8), _, _, rfl, (by decide +kernel), rfl, (by decide +kernel), rfl,
     (by decide +kernel), (by decide +kernel), (by decide +kernel), (by decide +kernel), rfl, (by decide +kernel)⟩,
   ⟨(st (hartHw)), _, { hart := 0, va := 64, ca := 3 * 2 ^ 44 }, _, (zeros 8), _, _, rfl, (by decide +kernel), rfl, (by decide +kernel),
     rfl, (by decide +kernel), (by decide +kernel), (by decide +kernel), (by decide +kernel), rfl, (by decide +kernel)⟩,
   ⟨(st (hartHw)), _, { hart := 0, va := 64, ca := 4 * 2 ^ 44 }, _, (zeros 8), _, _, rfl, (by decide +kernel), rfl, (by decide +kernel),
     rfl, (by decide +kernel), (by decide +kernel), (by decide +kernel), (by decide +kernel), rfl, (by decide +kernel)⟩,
   ⟨(st (hartHw {} { run := .running, nmie := true, mode := 0 })), _, { hart := 0, va := 64, ca := 64 }, _, (zeros 8), (7, 0, 64), _, _,
     rfl, (by decide +kernel), rfl, (by decide +kernel), rfl, (by decide +kernel), (by decide +kernel), rfl, (by decide +kernel)⟩,
   ⟨(st { harts := [(127, { run := .running })], faults := { fences := [{ scope := .unit, kind := 2, unit := 15 }] } }), _,
     { hart := 127, va := 64, ca := 64 }, _, _, rfl, (by decide +kernel), rfl, rfl, (by decide +kernel), (by decide +kernel)⟩,
   ⟨(st (hartHw)), _, { hart := 0, va := 64, ca := 64 }, _, _, _, _, rfl, (by decide +kernel), rfl, rfl, (by decide +kernel),
     (by decide +kernel), rfl, rfl, (fun _ => by decide +kernel), (by decide +kernel)⟩,
   ⟨(st (hartHw
     { coh := { dir := [(1, { st := .e, owner := some (.l3 5) })] }, faults := { fences := [{ scope := .unit, kind := 2, unit := 5 }] } })),
     _, { hart := 0, va := 64, ca := 64 }, _, _, _, _, 1, _, rfl, (by decide +kernel), rfl, rfl, (by decide +kernel), (by decide +kernel),
     rfl, rfl, (by decide +kernel), (by decide +kernel), rfl, (by decide +kernel)⟩,
   ⟨(st (hartHw {} { run := .running, nmie := true, mode := 0 })), _, { hart := 0, va := 64, ca := 64 }, _, _, (7, 0, 64), rfl,
     (by decide +kernel), rfl, rfl, (by decide +kernel), (by decide +kernel), (by decide +kernel)⟩,
   ⟨(st (busyHw)), _, { hart := 0, va := 64, ca := 64 }, _, _, rfl, (by decide +kernel), rfl, rfl, (by decide +kernel)⟩,
   ⟨(st (busyHw { run := .running, nmie := true, sb := [{ addr := 64, bytes := [1] }] })), _,
     { hart := 0, va := 72, ca := 72, drained := 1 }, _, _, (zeros 8), rfl, (by decide +kernel), rfl, rfl, (by decide +kernel)⟩,
   ⟨(st (busyHw)), _, { hart := 0, va := 64, ca := 64 }, _, _, rfl, (by decide +kernel), rfl, rfl, (by decide +kernel)⟩,
   ⟨(st { harts := [(127, { run := .running })] }), _, { hart := 127, va := 64, ca := 64 }, _, rfl, (by decide +kernel), rfl,
     (by decide +kernel)⟩,
   ⟨(st (hartHw {} { run := .running, nmie := true, mode := 0 })), _, { hart := 0, va := 64, ca := 64 }, _, .load, false, true, rfl,
     (by decide +kernel), rfl, (by decide +kernel), (by decide +kernel), (by decide +kernel), (by decide +kernel)⟩,
   ⟨(st (hartHw)), _, { hart := 0, va := 64, ca := 2 ^ 21 }, _, .load, false, true, (2 ^ 21), rfl, (by decide +kernel), rfl,
     (by decide +kernel), (by decide +kernel), (by decide +kernel), (by decide +kernel), (by decide +kernel)⟩,
   ⟨(st (hartHw)), _, { hart := 0, va := 64, ca := 64 }, _, 5, 1, 3, 0, 64, _, _, _, rfl, (by decide +kernel), rfl, rfl,
     (by decide +kernel), (by decide +kernel), (by decide +kernel), (by decide +kernel), (by decide +kernel), rfl, rfl, (by decide +kernel)⟩,
   ⟨(st (hartHw {} { run := .running, nmie := true, mode := 1, csrs := [(0x302, 32)] })), _, { hart := 0, va := 64, ca := 64 }, _, 5, 1, 3,
     0, 64, _, _, _, rfl, (by decide +kernel), rfl, rfl, (by decide +kernel), (by decide +kernel), (by decide +kernel), (by decide +kernel),
     (by decide +kernel), rfl, rfl, (by decide +kernel)⟩,
   ⟨(st (hartHw {} { run := .running, nmie := true, mode := 1, virt := true, csrs := [(0x302, 32), (0x602, 32)] })), _,
     { hart := 0, va := 64, ca := 64 }, _, 5, 1, 3, 0, 64, _, _, _, rfl, (by decide +kernel), rfl, rfl, (by decide +kernel),
     (by decide +kernel), (by decide +kernel), (by decide +kernel), (by decide +kernel), rfl, rfl, (by decide +kernel), (by decide +kernel)⟩⟩

theorem wit_HartAtomicRows :
    (∃ (s : State) (h : Hw) (a : HartAccess) (l : Nat), h = clearSent s.hw ∧ runs h a.hart = true ∧ l = compactLocal a.ca ∧ within16 a.ca
     a.size = false) ∧
    (∃ (s : State) (h : Hw) (a : HartAccess) (l : Nat) (bs : List Byte), h = clearSent s.hw ∧ runs h a.hart = true ∧ l = compactLocal a.ca ∧
     bs.length = a.size ∧ a.ca % max 1 a.size ≠ 0) ∧
    (∃ (s : State) (h : Hw) (a : HartAccess) (l : Nat) (c : Nat) (t : Nat) (x : Hart) (y : Hart), h = clearSent s.hw ∧ runs h a.hart = true
     ∧ l = compactLocal a.ca ∧ x = hartAt h a.hart ∧ y = hartAt (takeTrap h a.hart c t) a.hart) ∧
    (∃ (s : State) (h : Hw) (a : HartAccess) (l : Nat) (o : HM) (e : Nat × Nat), h = clearSent s.hw ∧ runs h a.hart = true ∧ l =
     compactLocal a.ca ∧ o = drainBuffer (h, s.mem) a.hart ∧ within16 a.ca a.size = true ∧ (hartAt o.1 a.hart).sbBad = some e ∧ NoWait
     (lostStore o.1 a.hart a.va e)) ∧
    (∃ (s : State) (h : Hw) (a : HartAccess) (l : Nat) (o : HM) (g : Hw) (k : Hw) (w : Hw × Memory) (op : AmoOp) (v : Nat) (c : Nat) (old :
     Nat), h = clearSent s.hw ∧ runs h a.hart = true ∧ l = compactLocal a.ca ∧ o = drainBuffer (h, s.mem) a.hart ∧ within16 a.ca a.size =
     true ∧ (hartAt o.1 a.hart).sbBad = none ∧ meets o.1 a .atomic true true = none ∧ g = arrayAnswers o.1 a ∧ isLocal g a.ca = true ∧
     poisoned (loseFenced g (lineOf l) { kind := .atomicHome, agent := .l3 (a.hart / 8) }) l = false ∧ k = placeAtomic (addTraffic g
     (hartOwner g a.hart) a.size) o.2 a.hart (lineOf l) ∧ NoWait k ∧ old = leNat (cohRead k o.2 l a.size) ∧ w = cohWrite (k, o.2) l (leBytes
     a.size (amoNew op a.size old v c))) ∧
    (∃ (s : State) (h : Hw) (a : HartAccess) (l : Nat) (o : HM) (g : Hw) (f : Hw), h = clearSent s.hw ∧ runs h a.hart = true ∧ l =
     compactLocal a.ca ∧ o = drainBuffer (h, s.mem) a.hart ∧ within16 a.ca a.size = true ∧ (hartAt o.1 a.hart).sbBad = none ∧ meets o.1 a
     .atomic true true = none ∧ isLocal (arrayAnswers o.1 a) a.ca = true ∧ g = loseFenced (arrayAnswers o.1 a) (lineOf l)
     { kind := .atomicHome, agent := .l3 (a.hart / 8) } ∧ poisoned g l = true ∧ f = hartFault g a .atomic (2, sourceOf l, a.ca) ∧ NoWait f) ∧
    (∃ (s : State) (h : Hw) (a : HartAccess) (l : Nat) (o : HM) (g : Hw) (old : Nat), h = clearSent s.hw ∧ runs h a.hart = true ∧ l =
     compactLocal a.ca ∧ o = drainBuffer (h, s.mem) a.hart ∧ within16 a.ca a.size = true ∧ (hartAt o.1 a.hart).sbBad = none ∧ meets o.1 a
     .atomic true true = none ∧ g = arrayAnswers o.1 a ∧ isLocal g a.ca = false ∧ NoWait g ∧ exclusiveAfar g a.hart (a.ca / 64) = true ∧ old
     = leNat ((List.range a.size).map (fun i => proxyByte g (a.ca + i)))) ∧
    (∃ (s : State) (h : Hw) (a : HartAccess) (l : Nat) (o : HM) (g : Hw) (op : AmoOp) (v : Nat) (c : Nat) (r : List Byte × Hw), h =
     clearSent s.hw ∧ runs h a.hart = true ∧ l = compactLocal a.ca ∧ o = drainBuffer (h, s.mem) a.hart ∧ within16 a.ca a.size = true ∧
     (hartAt o.1 a.hart).sbBad = none ∧ meets o.1 a .atomic true true = none ∧ g = arrayAnswers o.1 a ∧ isLocal g a.ca = false ∧
     exclusiveAfar g a.hart (a.ca / 64) = false ∧ r = atomicAfar g (hartOwner g a.hart) 7 a.ca a.size v c (amoCode op) ∧ NoWait r.2) ∧
    (∃ (s : State) (h : Hw) (a : HartAccess) (l : Nat) (o : HM) (e : Nat × Nat × Nat), h = clearSent s.hw ∧ runs h a.hart = true ∧ l =
     compactLocal a.ca ∧ o = drainBuffer (h, s.mem) a.hart ∧ within16 a.ca a.size = true ∧ (hartAt o.1 a.hart).sbBad = none ∧ meets o.1 a
     .atomic true true = some e ∧ NoWait (hartFault o.1 a .atomic e)) ∧
    (∃ (s : State) (h : Hw) (a : HartAccess) (l : Nat) (o : HM) (g : Hw) (k : Hw) (j : Hw), h = clearSent s.hw ∧ runs h a.hart = true ∧ l =
     compactLocal a.ca ∧ o = drainBuffer (h, s.mem) a.hart ∧ a.ca % max 1 a.size = 0 ∧ inIo l = false ∧ isLocal o.1 a.ca = true ∧ meets o.1
     a .load false true = none ∧ g = arrayAnswers o.1 a ∧ k = touchCore (retryStall g l) a.hart (lineOf l) false true a.ca ∧ NoWait k ∧
     poisoned k l = false ∧ j = setResult k a.hart (cohRead k o.2 l a.size)) ∧
    (∃ (s : State) (h : Hw) (a : HartAccess) (l : Nat) (o : HM) (g : Hw) (k : Hw) (f : Hw), h = clearSent s.hw ∧ runs h a.hart = true ∧ l =
     compactLocal a.ca ∧ o = drainBuffer (h, s.mem) a.hart ∧ a.ca % max 1 a.size = 0 ∧ inIo l = false ∧ isLocal o.1 a.ca = true ∧ meets o.1
     a .load false true = none ∧ g = arrayAnswers o.1 a ∧ k = touchCore (retryStall g l) a.hart (lineOf l) false true a.ca ∧ poisoned k l =
     true ∧ f = hartFault k a .load (2, sourceOf l, a.ca) ∧ NoWait f) ∧
    (∃ (s : State) (h : Hw) (a : HartAccess) (l : Nat) (o : HM) (e : Nat × Nat × Nat), h = clearSent s.hw ∧ runs h a.hart = true ∧ l =
     compactLocal a.ca ∧ o = drainBuffer (h, s.mem) a.hart ∧ a.ca % max 1 a.size = 0 ∧ inIo l = false ∧ meets o.1 a .load false true = some
     e ∧ NoWait (hartFault o.1 a .load e)) ∧
    (∃ (s : State) (h : Hw) (a : HartAccess) (l : Nat) (bs : List Byte) (o : HM) (e : Nat × Nat × Nat) (f : Hw), h = clearSent s.hw ∧ runs h
     a.hart = true ∧ l = compactLocal a.ca ∧ bs.length = a.size ∧ o = drainBuffer (h, s.mem) a.hart ∧ a.ca % max 1 a.size = 0 ∧ meets o.1 a
     .atomic true false = some e ∧ f = hartFault (endResv o a.hart).1 a .atomic e ∧ NoWait f) ∧
    (∃ (s : State) (h : Hw) (a : HartAccess) (l : Nat) (o : HM) (k : Hw) (j : Hw), h = clearSent s.hw ∧ runs h a.hart = true ∧ l =
     compactLocal a.ca ∧ o = drainBuffer (h, s.mem) a.hart ∧ a.ca % max 1 a.size = 0 ∧ inIo l = false ∧ isLocal o.1 a.ca = false ∧ meets o.1
     a .load false true = none ∧ k = touchRemote o.1 a.hart (lineStatus o.1 (hartOwner o.1 a.hart) (a.ca / 64)) (a.ca / 64) false true ∧
     NoWait k ∧ j = setResult k a.hart ((List.range a.size).map (fun i => proxyByte k (a.ca + i)))) ∧
    (∃ (s : State) (h : Hw) (a : HartAccess) (l : Nat) (o : HM), h = clearSent s.hw ∧ runs h a.hart = true ∧ l = compactLocal a.ca ∧ o =
     drainBuffer (h, s.mem) a.hart ∧ a.ca % max 1 a.size = 0 ∧ inIo l = true ∧ NoWait (hartFault o.1 a .load (7, 0, a.ca))) ∧
    (∃ (s : State) (h : Hw) (a : HartAccess) (l : Nat) (bs : List Byte) (o : HM) (w : Hw × Memory) (e : HM), h = clearSent s.hw ∧ runs h
     a.hart = true ∧ l = compactLocal a.ca ∧ bs.length = a.size ∧ o = drainBuffer (h, s.mem) a.hart ∧ a.ca % max 1 a.size = 0 ∧ isLocal o.1
     a.ca = true ∧ meets o.1 a .atomic true false = none ∧ (hartAt o.1 a.hart).resv = some (lineOf l) ∧ w = cohWrite (placeAtomic o.1 o.2
     a.hart (lineOf l), o.2) l bs ∧ e = endResv (dropResv w.1 (lineOf l) (some a.hart), w.2) a.hart ∧ NoWait e.1) ∧
    (∃ (s : State) (h : Hw) (a : HartAccess) (l : Nat) (bs : List Byte) (o : HM) (w : Hw) (e : HM), h = clearSent s.hw ∧ runs h a.hart =
     true ∧ l = compactLocal a.ca ∧ bs.length = a.size ∧ o = drainBuffer (h, s.mem) a.hart ∧ a.ca % max 1 a.size = 0 ∧ isLocal o.1 a.ca =
     false ∧ meets o.1 a .atomic true false = none ∧ (hartAt o.1 a.hart).resv = some (2 ^ 54 + a.ca / 64) ∧ w = (if exclusiveAfar o.1 a.hart
     (a.ca / 64) then proxyWrite o.1 a.ca bs else (atomicAfar o.1 (hartOwner o.1 a.hart) 7 a.ca a.size (leNat bs) 0 5).2) ∧ e = endResv (w,
     o.2) a.hart ∧ NoWait e.1) ∧
    (∃ (s : State) (h : Hw) (a : HartAccess) (l : Nat) (bs : List Byte) (o : HM) (e : HM), h = clearSent s.hw ∧ runs h a.hart = true ∧ l =
     compactLocal a.ca ∧ bs.length = a.size ∧ o = drainBuffer (h, s.mem) a.hart ∧ a.ca % max 1 a.size = 0 ∧ meets o.1 a .atomic true false =
     none ∧ (hartAt o.1 a.hart).resv ≠ some (if isLocal o.1 a.ca then lineOf l else 2 ^ 54 + a.ca / 64) ∧ e = endResv o a.hart ∧ NoWait e.1) ∧
    (∃ (s : State) (h : Hw) (a : HartAccess) (l : Nat) (n : Nat), h = clearSent s.hw ∧ runs h a.hart = true ∧ l = compactLocal a.ca ∧
     (hartAt h n).resvHeld = false ∧ idleLines h = []) ∧
    (∃ (s : State) (h : Hw) (a : HartAccess) (l : Nat) (n : Nat) (k : Nat), h = clearSent s.hw ∧ runs h a.hart = true ∧ l = compactLocal
     a.ca ∧ (hartAt h n).resv = some k ∧ k < 2 ^ 54 ∧ (hartAt h n).resvHeld = true ∧ idleLines h = [] ∧ (dirAt h k).queue = [] ∧ tabWf {}
     h.coh.dir = true ∧ tabWf {} h.harts = true) :=
  ⟨⟨(st (hartHw)), _, { hart := 0, va := 73, ca := 73 }, _, rfl, (by decide +kernel), rfl, (by decide +kernel)⟩,
   ⟨(st (hartHw)), _, { hart := 0, va := 73, ca := 73 }, _, (zeros 8), rfl, (by decide +kernel), rfl, (by decide +kernel),
     (by decide +kernel)⟩,
   ⟨(st (hartHw)), _, { hart := 0, va := 64, ca := 64 }, _, 6, 64, _, _, rfl, (by decide +kernel), rfl, rfl, rfl⟩,
   ⟨(st (hartHw {} { run := .running, nmie := true, sbBad := some (64, 5) })), _, { hart := 0, va := 64, ca := 64 }, _, _, (64, 5), rfl,
     (by decide +kernel), rfl, rfl, (by decide +kernel), (by decide +kernel), (by decide +kernel)⟩,
   ⟨(st (hartHw)), _, { hart := 0, va := 72, ca := 72 }, _, _, _, _, _, .add, 1, 1, _, rfl, (by decide +kernel), rfl, rfl,
     (by decide +kernel), (by decide +kernel), (by decide +kernel), rfl, (by decide +kernel), (by decide +kernel), rfl, (by decide +kernel),
     rfl, rfl⟩,
   ⟨(st (hartHw
     { coh := { dir := [(1, { st := .e, owner := some (.l3 5) })] }, faults := { fences := [{ scope := .unit, kind := 2, unit := 5 }] } })),
     _, { hart := 0, va := 64, ca := 64 }, _, _, _, _, rfl, (by decide +kernel), rfl, rfl, (by decide +kernel), (by decide +kernel),
     (by decide +kernel), (by decide +kernel), rfl, (by decide +kernel), rfl, (by decide +kernel)⟩,
   ⟨(st (hartHw
     { coh := { proxies := [(3 * 2 ^ 42, { own := true, part := 0, clusters := 1, bytes := zeros 64 })], caches := [(cacheKey 128 (remoteTag (3 * 2 ^ 42) % 128), { tags := [some (remoteTag (3 * 2 ^ 42))] })] } })),
     _, { hart := 0, va := 64, ca := 3 * 2 ^ 48 }, _, _, _, _, rfl, (by decide +kernel), rfl, rfl, (by decide +kernel), (by decide +kernel),
     (by decide +kernel), rfl, (by decide +kernel), (by decide +kernel), (by decide +kernel), rfl⟩,
   ⟨(st (afarHw)), _, { hart := 0, va := 64, ca := 3 * 2 ^ 48 }, _, _, _, .add, 1, 1, _, rfl, (by decide +kernel), rfl, rfl,
     (by decide +kernel), (by decide +kernel), (by decide +kernel), rfl, (by decide +kernel), (by decide +kernel), rfl, (by decide +kernel)⟩,
   ⟨(st { harts := [(0, { run := .running })] }), _, { hart := 0, va := 64, ca := 64 }, _, _, (3, 0, 64), rfl, (by decide +kernel), rfl,
     rfl, (by decide +kernel), (by decide +kernel), (by decide +kernel), (by decide +kernel)⟩,
   ⟨(st (hartHw)), _, { hart := 0, va := 64, ca := 64 }, _, _, _, _, _, rfl, (by decide +kernel), rfl, rfl, (by decide +kernel),
     (by decide +kernel), (by decide +kernel), (by decide +kernel), rfl, rfl, (by decide +kernel), (by decide +kernel), rfl⟩,
   ⟨(st (hartHw
     { coh := { dir := [(1, { st := .e, owner := some (.l3 5) })] }, faults := { fences := [{ scope := .unit, kind := 2, unit := 5 }] } })),
     _, { hart := 0, va := 64, ca := 64 }, _, _, _, _, _, rfl, (by decide +kernel), rfl, rfl, (by decide +kernel), (by decide +kernel),
     (by decide +kernel), (by decide +kernel), rfl, rfl, (by decide +kernel), rfl, (by decide +kernel)⟩,
   ⟨(st { harts := [(0, { run := .running })] }), _, { hart := 0, va := 64, ca := 64 }, _, _, (3, 0, 64), rfl, (by decide +kernel), rfl,
     rfl, (by decide +kernel), (by decide +kernel), (by decide +kernel), (by decide +kernel)⟩,
   ⟨(st { harts := [(0, { run := .running })] }), _, { hart := 0, va := 64, ca := 64 }, _, (zeros 8), _, (3, 0, 64), _, rfl,
     (by decide +kernel), rfl, (by decide +kernel), rfl, (by decide +kernel), (by decide +kernel), rfl, (by decide +kernel)⟩,
   ⟨(st (afarHw)), _, { hart := 0, va := 64, ca := 3 * 2 ^ 48 }, _, _, _, _, rfl, (by decide +kernel), rfl, rfl, (by decide +kernel),
     (by decide +kernel), (by decide +kernel), (by decide +kernel), rfl, (by decide +kernel), rfl⟩,
   ⟨(st (hartHw)), _, { hart := 0, va := 64, ca := 3 * 2 ^ 44 }, _, _, rfl, (by decide +kernel), rfl, rfl, (by decide +kernel),
     (by decide +kernel), (by decide +kernel)⟩,
   ⟨(st (hartHw {} { run := .running, nmie := true, resv := some 1 })), _, { hart := 0, va := 64, ca := 64 }, _, (zeros 8), _, _, _, rfl,
     (by decide +kernel), rfl, (by decide +kernel), rfl, (by decide +kernel), (by decide +kernel), (by decide +kernel), (by decide +kernel),
     rfl, rfl, (by decide +kernel)⟩,
   ⟨(st (hartHw
     { coh := { proxies := [(3 * 2 ^ 42, { own := true, part := 0, clusters := 1, bytes := zeros 64 })], caches := [(cacheKey 128 (remoteTag (3 * 2 ^ 42) % 128), { tags := [some (remoteTag (3 * 2 ^ 42))] })] } }
     { run := .running, nmie := true, resv := some (2 ^ 54 + 3 * 2 ^ 42) })), _, { hart := 0, va := 64, ca := 3 * 2 ^ 48 }, _, (zeros 8), _,
     _, _, rfl, (by decide +kernel), rfl, (by decide +kernel), rfl, (by decide +kernel), (by decide +kernel), (by decide +kernel),
     (by decide +kernel), rfl, rfl, (by decide +kernel)⟩,
   ⟨(st (hartHw)), _, { hart := 0, va := 64, ca := 64 }, _, (zeros 8), _, _, rfl, (by decide +kernel), rfl, (by decide +kernel), rfl,
     (by decide +kernel), (by decide +kernel), (by decide +kernel), rfl, (by decide +kernel)⟩,
   ⟨(st (hartHw)), _, { hart := 0, va := 64, ca := 64 }, _, 0, rfl, (by decide +kernel), rfl, (by decide +kernel), (by decide +kernel)⟩,
   ⟨(st (hartHw {} { run := .running, nmie := true, resv := some 1, resvHeld := true })), _, { hart := 0, va := 64, ca := 64 }, _, 0, 1,
     rfl, (by decide +kernel), rfl, (by decide +kernel), (by decide +kernel), (by decide +kernel), (by decide +kernel), (by decide +kernel),
     (by decide +kernel), (by decide +kernel)⟩⟩

theorem wit_HartControlRows :
    (∃ (s : State) (h : Hw) (n : Nat) (v : Nat), h = clearSent s.hw ∧ runs h n = true ∧ ((field v 7 4 = 0 ∨ field v 3 0 = 0))) ∧
    (∃ (s : State) (h : Hw) (n : Nat), h = clearSent s.hw ∧ runs h n = true ∧ (hartAt h n).mode ≠ 3) ∧
    (∃ (s : State) (h : Hw) (n : Nat) (k : Nat), h = clearSent s.hw ∧ runs h n = true ∧ (hartAt h n).mode = 3 ∧ k < 128 ∧ k ≠ n ∧ hartOwner
     h k = hartOwner h n ∧ (hartAt h k).run = HartRun.stopped ∧ (islandAt h { kind := .cluster, idx := k / 8 }).power = .open ∧ (hartAt h
     k).rnmi = []) ∧
    (∃ (s : State) (h : Hw) (n : Nat) (k : Nat), h = clearSent s.hw ∧ runs h n = true ∧ (hartAt h n).mode = 3 ∧ ((128 ≤ k ∨ k = n ∨
     hartOwner h k ≠ hartOwner h n ∨ (hartAt h k).run ≠ HartRun.stopped))) ∧
    (∃ (s : State) (h : Hw) (n : Nat) (k : Nat), h = clearSent s.hw ∧ runs h n = true ∧ (hartAt h n).mode = 3 ∧ k < 128 ∧ k ≠ n ∧ hartOwner
     h k = hartOwner h n ∧ (hartAt h k).run = HartRun.stopped ∧ (islandAt h { kind := .cluster, idx := k / 8 }).power = .gated) ∧
    (∃ (s : State) (h : Hw) (n : Nat), h = clearSent s.hw ∧ n < 128 ∧ (hartAt h n).run = HartRun.parked ∧ unitFenced h 2 (n / 8) = true) ∧
    (∃ (s : State) (h : Hw) (n : Nat) (v : Nat), h = clearSent s.hw ∧ runs h n = true ∧ field v 7 4 ≠ 0 ∧ field v 3 0 ≠ 0 ∧ (bitOf v 7 ||
     bitOf v 6 || bitOf v 3 || bitOf v 2) = true) ∧
    (∃ (s : State) (h : Hw) (n : Nat) (v : Nat) (o : HM), h = clearSent s.hw ∧ runs h n = true ∧ o = drainBuffer (h, s.mem) n ∧ field v 7 4
     ≠ 0 ∧ field v 3 0 ≠ 0 ∧ (bitOf v 7 || bitOf v 6 || bitOf v 3 || bitOf v 2) = false ∧ bitOf v 4 = false) ∧
    (∃ (s : State) (h : Hw) (n : Nat) (o : HM), h = clearSent s.hw ∧ runs h n = true ∧ (hartAt h n).mode = 3 ∧ o = endResv (drainBuffer (h,
     s.mem) n) n ∧ NoWait o.1) ∧
    (∃ (s : State) (h : Hw) (n : Nat) (sets : Nat) (o : HM) (g : Hw), h = clearSent s.hw ∧ runs h n = true ∧ o = drainBuffer (h, s.mem) n ∧
     (hartAt o.1 n).sbBad = none ∧ g = (if bitOf sets 7 || bitOf sets 6 then ioOrder o.1 n else o.1) ∧ NoWait g) ∧
    (∃ (s : State) (h : Hw) (n : Nat) (v : Nat) (o : HM), h = clearSent s.hw ∧ runs h n = true ∧ o = drainBuffer (h, s.mem) n ∧ field v 7 4
     ≠ 0 ∧ field v 3 0 ≠ 0 ∧ (bitOf v 7 || bitOf v 6 || bitOf v 3 || bitOf v 2) = false ∧ bitOf v 4 = true ∧ (hartAt o.1 n).sbBad = none ∧
     NoWait o.1) ∧
    (∃ (s : State) (h : Hw) (n : Nat) (v : Nat) (va : Nat) (o : HM) (e : Nat × Nat), h = clearSent s.hw ∧ runs h n = true ∧ o = drainBuffer
     (h, s.mem) n ∧ field v 7 4 ≠ 0 ∧ field v 3 0 ≠ 0 ∧ (bitOf v 7 || bitOf v 6 || bitOf v 3 || bitOf v 2) = false ∧ bitOf v 4 = true ∧
     (hartAt o.1 n).sbBad = some e ∧ NoWait (lostStore o.1 n va e)) ∧
    (∃ (s : State) (h : Hw) (n : Nat) (k : Nat), h = clearSent s.hw ∧ runs h n = true ∧ (hartAt h n).mode = 3 ∧ k < 128 ∧ k ≠ n ∧ hartOwner
     h k = hartOwner h n ∧ (hartAt h k).run = HartRun.stopped ∧ (islandAt h { kind := .cluster, idx := k / 8 }).power ≠ .open ∧ (islandAt h
     { kind := .cluster, idx := k / 8 }).power ≠ .gated) ∧
    (∃ (s : State) (h : Hw) (n : Nat), h = clearSent s.hw ∧ n < 128 ∧ (hartAt h n).run = HartRun.running ∧ (hartAt h n).mode ≠ 3) ∧
    (∃ (s : State) (h : Hw) (n : Nat) (x : Hart), h = clearSent s.hw ∧ x = hartAt h n ∧ n < 128 ∧ (x.run = HartRun.running ∨ (x.run =
     HartRun.parked ∧ unitFenced h 2 (n / 8) = false)) ∧ x.mode = 3 ∧ x.rnmi = []) ∧
    (∃ (s : State) (h : Hw) (n : Nat) (k : Nat) (v : W64) (o : HM) (g : Hw), h = clearSent s.hw ∧ runs h n = true ∧ hartOwner h n ≤ 16 ∧ o =
     drainBuffer (h, s.mem) n ∧ g = ioOrder o.1 n ∧ NoWait g ∧ windowValue g (hartOwner h n) k = some v) ∧
    (∃ (s : State) (h : Hw) (n : Nat) (va : Nat) (k : Nat) (o : HM) (g : Hw) (ca : Nat) (e : Hw), h = clearSent s.hw ∧ runs h n = true ∧
     hartOwner h n ≤ 16 ∧ o = drainBuffer (h, s.mem) n ∧ g = ioOrder o.1 n ∧ windowValue g (hartOwner h n) k = none ∧ ca = toCompact
     g.ident.position (3 * 2 ^ 48 + hartOwner h n * 2 ^ 24 + 0x800000 + 16 * k) ∧ e = accessFault g
     { hart := n, va := va, ca := ca, size := 8 } 5 1 2 0xC ca ∧ NoWait e) ∧
    (∃ (s : State) (h : Hw) (n : Nat) (o : HM) (g : Hw), h = clearSent s.hw ∧ n < 128 ∧ hartOwner h n ≤ 16 ∧ invalidated h (hartOwner h n) =
     true ∧ o = drainBuffer (h, s.mem) n ∧ g = ioOrder o.1 n ∧ NoWait g) ∧
    (∃ (s : State) (h : Hw) (n : Nat), h = clearSent s.hw ∧ invalidated h (hartOwner h n) = false) :=
  ⟨⟨(st { harts := [(0, { run := .running })], sel := { units := [(unitKey 2 0, { owner := 0, state := .owned })] } }), _, 0, 0x0F, rfl,
     (by decide +kernel), (by decide +kernel)⟩,
   ⟨(st { harts := [(127, { run := .running, mode := 1 })] }), _, 127, rfl, (by decide +kernel), (by decide +kernel)⟩,
   ⟨(st
     { harts := [(0, { run := .running }), (7, { run := .stopped })], sel := { units := [(unitKey 2 0, { owner := 0, state := .owned })] } }),
     _, 0, 7, rfl, (by decide +kernel), (by decide +kernel), (by decide +kernel), (by decide +kernel), (by decide +kernel),
     (by decide +kernel), (by decide +kernel), (by decide +kernel)⟩,
   ⟨(st { harts := [(0, { run := .running })], sel := { units := [(unitKey 2 0, { owner := 0, state := .owned })] } }), _, 0, 128, rfl,
     (by decide +kernel), (by decide +kernel), (by decide +kernel)⟩,
   ⟨(st
     { harts := [(0, { run := .running }), (7, { run := .stopped })], sel := { units := [(unitKey 2 0, { owner := 0, state := .owned })] }, islands := [(islandKey { kind := .cluster, idx := 0 }, { power := .gated })] }),
     _, 0, 7, rfl, (by decide +kernel), (by decide +kernel), (by decide +kernel), (by decide +kernel), (by decide +kernel),
     (by decide +kernel), (by decide +kernel)⟩,
   ⟨(st { harts := [(127, { run := .parked })], faults := { fences := [{ scope := .unit, kind := 2, unit := 15 }] } }), _, 127, rfl,
     (by decide +kernel), (by decide +kernel), (by decide +kernel)⟩,
   ⟨(st (hartHw)), _, 0, 0x81, rfl, (by decide +kernel), (by decide +kernel), (by decide +kernel), (by decide +kernel)⟩,
   ⟨(st (hartHw)), _, 0, 0x21, _, rfl, (by decide +kernel), rfl, (by decide +kernel), (by decide +kernel), (by decide +kernel),
     (by decide +kernel)⟩,
   ⟨(st (hartHw)), _, 0, _, rfl, (by decide +kernel), (by decide +kernel), rfl, (by decide +kernel)⟩,
   ⟨(st (hartHw)), _, 0, 0, _, _, rfl, (by decide +kernel), rfl, (by decide +kernel), rfl, (by decide +kernel)⟩,
   ⟨(st (hartHw)), _, 0, 0x11, _, rfl, (by decide +kernel), rfl, (by decide +kernel), (by decide +kernel), (by decide +kernel),
     (by decide +kernel), (by decide +kernel), (by decide +kernel)⟩,
   ⟨(st (hartHw {} { run := .running, nmie := true, sbBad := some (64, 5) })), _, 0, 0x11, 0, _, (64, 5), rfl, (by decide +kernel), rfl,
     (by decide +kernel), (by decide +kernel), (by decide +kernel), (by decide +kernel), (by decide +kernel), (by decide +kernel)⟩,
   ⟨(st
     { harts := [(0, { run := .running }), (1, { run := .stopped })], islands := [(islandKey { kind := .cluster, idx := 0 }, { power := .closing 0 })] }),
     _, 0, 1, rfl, (by decide +kernel), (by decide +kernel), (by decide +kernel), (by decide +kernel), (by decide +kernel),
     (by decide +kernel), (by decide +kernel), (by decide +kernel)⟩,
   ⟨(st { harts := [(127, { run := .running, mode := 1 })] }), _, 127, rfl, (by decide +kernel), (by decide +kernel), (by decide +kernel)⟩,
   ⟨(st (hartHw)), _, 0, _, rfl, rfl, (by decide +kernel), (by decide +kernel), (by decide +kernel), (by decide +kernel)⟩,
   ⟨(st (wk [] (hartHw))), _, 0, 7, 0, _, _, rfl, (by decide +kernel), (by decide +kernel), rfl, rfl, (by decide +kernel),
     (by decide +kernel)⟩,
   ⟨(st (wk [] (hartHw { sync := { knots := [(7, { poison := true })] } }))), _, 0, 0, 7, _, _, _, _, rfl, (by decide +kernel),
     (by decide +kernel), rfl, rfl, (by decide +kernel), rfl, rfl, (by decide +kernel)⟩,
   ⟨(st (hartHw)), _, 0, _, _, rfl, (by decide +kernel), (by decide +kernel), (by decide +kernel), rfl, rfl, (by decide +kernel)⟩,
   ⟨(st (wk [{ at3 [] with pauseReq := true }])), _, 0, rfl, (by decide +kernel)⟩⟩

theorem wit_HomeRows :
    (∃ (s : State) (h : Hw) (a : Nat) (q : DirReq) (line : Nat), h = clearSent s.hw ∧ line = lineOf a ∧ dirAt h line = {} ∧ reservedBy h
     line = none ∧ q.snooped = false ∧ (∀ r, q.agent ≠ .remote r) ∧ tabWf {} h.coh.dir = true ∧ h.coh.mshrs = [] ∧ q.kind = .readOnce) ∧
    (∃ (s : State) (h : Hw) (a : Nat) (q : DirReq) (line : Nat), h = clearSent s.hw ∧ line = lineOf a ∧ dirAt h line = {} ∧ reservedBy h
     line = none ∧ q.snooped = false ∧ (∀ r, q.agent ≠ .remote r) ∧ tabWf {} h.coh.dir = true ∧ h.coh.mshrs = [] ∧ q.kind = .writeLine ∧
     q.act.bytes.length = 64 ∧ q.act.poison = false ∧ tabWf false h.coh.poison = true) ∧
    (∃ (s : State) (h : Hw) (a : Nat) (q : DirReq) (line : Nat), h = clearSent s.hw ∧ line = lineOf a ∧ dirAt h line = {} ∧ reservedBy h
     line = none ∧ q.snooped = false ∧ (∀ r, q.agent ≠ .remote r) ∧ tabWf {} h.coh.dir = true ∧ h.coh.mshrs = [] ∧ q.kind = .writePart ∧
     poisoned h (line * 64) = true) ∧
    (∃ (s : State) (h : Hw) (a : Nat) (q : DirReq) (line : Nat) (old : Nat), h = clearSent s.hw ∧ line = lineOf a ∧ dirAt h line = {} ∧
     reservedBy h line = none ∧ q.snooped = false ∧ (∀ r, q.agent ≠ .remote r) ∧ tabWf {} h.coh.dir = true ∧ h.coh.mshrs = [] ∧ (q.kind =
     .atomicHome ∨ q.kind = .atomicMem) ∧ poisoned h (line * 64) = false ∧ old = leNat (cohRead h s.mem q.act.addr q.act.size)) ∧
    (∃ (s : State) (h : Hw) (a : Nat) (q : DirReq) (line : Nat), h = clearSent s.hw ∧ line = lineOf a ∧ dirAt h line = {} ∧ reservedBy h
     line = none ∧ q.snooped = false ∧ (∀ r, q.agent ≠ .remote r) ∧ tabWf {} h.coh.dir = true ∧ h.coh.mshrs = [] ∧ (q.kind = .atomicHome ∨
     q.kind = .atomicMem) ∧ poisoned h (line * 64) = true) ∧
    (∃ (s : State) (h : Hw) (ag : Agent) (p : Nat) (a : Nat) (c : Instr) (k : ReqKind) (g : Agent) (x : HomeAct) (q : DirReq) (w : Bool) (o
     : HM), h = clearSent s.hw ∧ ((c, k, g, x) ∈ ([(.readShared ag p a, .readShared, ag, {}), (.readOwn ag p a, .readOwn, ag, {}),
     (.readOnce ag p a, .readOnce, ag, {})] : List (Instr × ReqKind × Agent × HomeAct)) ∨ (∃ b y, b.length = 64 ∧ (c, k, g, x) = (.writeLine
     ag p a b y, .writeLine, ag, { bytes := b, poison := y, grant := 2 })) ∨ (∃ (b : List Byte) (m : W64) (y : Bool), b.length = 64 ∧ (c, k,
     g, x) = (.writePart ag p a b m y, .writePart, ag, { bytes := b, mask := m.toNat, poison := y })) ∨ (∃ op n v m, (c, k, g, x) =
     (.atomicHome ag p a op n v m, .atomicHome, ag, { op := op, size := n, operand := v, compare := m })) ∨ (∃ op n v m, (c, k, g, x) =
     (.atomicMem p a op n v m, .atomicMem, Agent.other, { op := op, size := n, operand := v, compare := m })) ∨ (∃ b y, b.length = 64 ∧ p =
     31 ∧ (c, k, g, x) = (.writeBack ag a b y, .writeBack, ag, { bytes := b, poison := y, grant := 2 }))) ∧ q =
     { kind := k, agent := g, part := reqTag h g p, act := { x with addr := a } } ∧ w = (writesLine k || decide (k = .readOwn)) ∧ regionOf a
     ∉ [3, 4, 5] ∧ (k = .writeBack ∨ (agentFenced h g = false ∧ selRange h q.part a (if k = .atomicHome ∨ k = .atomicMem then max 1 x.size
     else 1) w = true)) ∧ behindGhost h a = false ∧ lineRetries h (lineOf a) = false ∧ portDead h a = false ∧ o = homeServe (h, s.mem)
     (lineOf a) q) ∧
    (∃ (s : State) (h : Hw) (ag : Agent) (p : Nat) (a : Nat) (c : Instr) (k : ReqKind) (g : Agent) (x : HomeAct) (q : DirReq) (w : Bool) (e
     : Hw), h = clearSent s.hw ∧ ((c, k, g, x) ∈ ([(.readShared ag p a, .readShared, ag, {}), (.readOwn ag p a, .readOwn, ag, {}),
     (.readOnce ag p a, .readOnce, ag, {})] : List (Instr × ReqKind × Agent × HomeAct)) ∨ (∃ b y, b.length = 64 ∧ (c, k, g, x) = (.writeLine
     ag p a b y, .writeLine, ag, { bytes := b, poison := y, grant := 2 })) ∨ (∃ (b : List Byte) (m : W64) (y : Bool), b.length = 64 ∧ (c, k,
     g, x) = (.writePart ag p a b m y, .writePart, ag, { bytes := b, mask := m.toNat, poison := y })) ∨ (∃ op n v m, (c, k, g, x) =
     (.atomicHome ag p a op n v m, .atomicHome, ag, { op := op, size := n, operand := v, compare := m })) ∨ (∃ op n v m, (c, k, g, x) =
     (.atomicMem p a op n v m, .atomicMem, Agent.other, { op := op, size := n, operand := v, compare := m })) ∨ (∃ b y, b.length = 64 ∧ p =
     31 ∧ (c, k, g, x) = (.writeBack ag a b y, .writeBack, ag, { bytes := b, poison := y, grant := 2 }))) ∧ q =
     { kind := k, agent := g, part := reqTag h g p, act := { x with addr := a } } ∧ w = (writesLine k || decide (k = .readOwn)) ∧ regionOf a
     ∉ [3, 4, 5] ∧ k ≠ .writeBack ∧ (agentFenced h g = true ∨ selRange h q.part a (if k = .atomicHome ∨ k = .atomicMem then max 1 x.size
     else 1) w = false) ∧ (e = h ∧ (∃ r, g = .remote r) ∨ e = countRefusal h q.part ∧ ∀ r, g ≠ .remote r)) ∧
    (∃ (s : State) (h : Hw) (ag : Agent) (p : Nat) (a : Nat) (c : Instr) (k : ReqKind) (g : Agent) (x : HomeAct) (q : DirReq) (w : Bool), h
     = clearSent s.hw ∧ ((c, k, g, x) ∈ ([(.readShared ag p a, .readShared, ag, {}), (.readOwn ag p a, .readOwn, ag, {}), (.readOnce ag p a,
     .readOnce, ag, {})] : List (Instr × ReqKind × Agent × HomeAct)) ∨ (∃ b y, b.length = 64 ∧ (c, k, g, x) = (.writeLine ag p a b y,
     .writeLine, ag, { bytes := b, poison := y, grant := 2 })) ∨ (∃ (b : List Byte) (m : W64) (y : Bool), b.length = 64 ∧ (c, k, g, x) =
     (.writePart ag p a b m y, .writePart, ag, { bytes := b, mask := m.toNat, poison := y })) ∨ (∃ op n v m, (c, k, g, x) = (.atomicHome ag
     p a op n v m, .atomicHome, ag, { op := op, size := n, operand := v, compare := m })) ∨ (∃ op n v m, (c, k, g, x) = (.atomicMem p a op n
     v m, .atomicMem, Agent.other, { op := op, size := n, operand := v, compare := m })) ∨ (∃ b y, b.length = 64 ∧ p = 31 ∧ (c, k, g, x) =
     (.writeBack ag a b y, .writeBack, ag, { bytes := b, poison := y, grant := 2 }))) ∧ q =
     { kind := k, agent := g, part := reqTag h g p, act := { x with addr := a } } ∧ w = (writesLine k || decide (k = .readOwn)) ∧ regionOf a
     ∉ [3, 4, 5] ∧ (k = .writeBack ∨ (agentFenced h g = false ∧ selRange h q.part a (if k = .atomicHome ∨ k = .atomicMem then max 1 x.size
     else 1) w = true)) ∧ behindGhost h a = true) ∧
    (∃ (s : State) (h : Hw) (ag : Agent) (p : Nat) (a : Nat) (c : Instr) (k : ReqKind) (g : Agent) (x : HomeAct) (q : DirReq) (w : Bool), h
     = clearSent s.hw ∧ ((c, k, g, x) ∈ ([(.readShared ag p a, .readShared, ag, {}), (.readOwn ag p a, .readOwn, ag, {}), (.readOnce ag p a,
     .readOnce, ag, {})] : List (Instr × ReqKind × Agent × HomeAct)) ∨ (∃ b y, b.length = 64 ∧ (c, k, g, x) = (.writeLine ag p a b y,
     .writeLine, ag, { bytes := b, poison := y, grant := 2 })) ∨ (∃ (b : List Byte) (m : W64) (y : Bool), b.length = 64 ∧ (c, k, g, x) =
     (.writePart ag p a b m y, .writePart, ag, { bytes := b, mask := m.toNat, poison := y })) ∨ (∃ op n v m, (c, k, g, x) = (.atomicHome ag
     p a op n v m, .atomicHome, ag, { op := op, size := n, operand := v, compare := m })) ∨ (∃ op n v m, (c, k, g, x) = (.atomicMem p a op n
     v m, .atomicMem, Agent.other, { op := op, size := n, operand := v, compare := m })) ∨ (∃ b y, b.length = 64 ∧ p = 31 ∧ (c, k, g, x) =
     (.writeBack ag a b y, .writeBack, ag, { bytes := b, poison := y, grant := 2 }))) ∧ q =
     { kind := k, agent := g, part := reqTag h g p, act := { x with addr := a } } ∧ w = (writesLine k || decide (k = .readOwn)) ∧ regionOf a
     ∉ [3, 4, 5] ∧ (k = .writeBack ∨ (agentFenced h g = false ∧ selRange h q.part a (if k = .atomicHome ∨ k = .atomicMem then max 1 x.size
     else 1) w = true)) ∧ behindGhost h a = false ∧ lineRetries h (lineOf a) = true) ∧
    (∃ (s : State) (h : Hw) (ag : Agent) (p : Nat) (a : Nat) (c : Instr) (k : ReqKind) (g : Agent) (x : HomeAct) (q : DirReq) (w : Bool), h
     = clearSent s.hw ∧ ((c, k, g, x) ∈ ([(.readShared ag p a, .readShared, ag, {}), (.readOwn ag p a, .readOwn, ag, {}), (.readOnce ag p a,
     .readOnce, ag, {})] : List (Instr × ReqKind × Agent × HomeAct)) ∨ (∃ b y, b.length = 64 ∧ (c, k, g, x) = (.writeLine ag p a b y,
     .writeLine, ag, { bytes := b, poison := y, grant := 2 })) ∨ (∃ (b : List Byte) (m : W64) (y : Bool), b.length = 64 ∧ (c, k, g, x) =
     (.writePart ag p a b m y, .writePart, ag, { bytes := b, mask := m.toNat, poison := y })) ∨ (∃ op n v m, (c, k, g, x) = (.atomicHome ag
     p a op n v m, .atomicHome, ag, { op := op, size := n, operand := v, compare := m })) ∨ (∃ op n v m, (c, k, g, x) = (.atomicMem p a op n
     v m, .atomicMem, Agent.other, { op := op, size := n, operand := v, compare := m })) ∨ (∃ b y, b.length = 64 ∧ p = 31 ∧ (c, k, g, x) =
     (.writeBack ag a b y, .writeBack, ag, { bytes := b, poison := y, grant := 2 }))) ∧ q =
     { kind := k, agent := g, part := reqTag h g p, act := { x with addr := a } } ∧ w = (writesLine k || decide (k = .readOwn)) ∧ regionOf a
     ∉ [3, 4, 5] ∧ (k = .writeBack ∨ (agentFenced h g = false ∧ selRange h q.part a (if k = .atomicHome ∨ k = .atomicMem then max 1 x.size
     else 1) w = true)) ∧ behindGhost h a = false ∧ lineRetries h (lineOf a) = false ∧ portDead h a = true) ∧
    (∃ (s : State) (h : Hw) (ag : Agent) (p : Nat) (a : Nat) (c : Instr) (k : ReqKind) (g : Agent) (x : HomeAct) (q : DirReq) (w : Bool), h
     = clearSent s.hw ∧ ((c, k, g, x) ∈ ([(.readShared ag p a, .readShared, ag, {}), (.readOwn ag p a, .readOwn, ag, {}), (.readOnce ag p a,
     .readOnce, ag, {})] : List (Instr × ReqKind × Agent × HomeAct)) ∨ (∃ b y, b.length = 64 ∧ (c, k, g, x) = (.writeLine ag p a b y,
     .writeLine, ag, { bytes := b, poison := y, grant := 2 })) ∨ (∃ (b : List Byte) (m : W64) (y : Bool), b.length = 64 ∧ (c, k, g, x) =
     (.writePart ag p a b m y, .writePart, ag, { bytes := b, mask := m.toNat, poison := y })) ∨ (∃ op n v m, (c, k, g, x) = (.atomicHome ag
     p a op n v m, .atomicHome, ag, { op := op, size := n, operand := v, compare := m })) ∨ (∃ op n v m, (c, k, g, x) = (.atomicMem p a op n
     v m, .atomicMem, Agent.other, { op := op, size := n, operand := v, compare := m })) ∨ (∃ b y, b.length = 64 ∧ p = 31 ∧ (c, k, g, x) =
     (.writeBack ag a b y, .writeBack, ag, { bytes := b, poison := y, grant := 2 }))) ∧ q =
     { kind := k, agent := g, part := reqTag h g p, act := { x with addr := a } } ∧ w = (writesLine k || decide (k = .readOwn)) ∧ regionOf a
     ∈ [3, 4, 5] ∧ (∃ r, g = .remote r)) ∧
    (∃ (s : State) (h : Hw) (ag : Agent) (p : Nat) (a : Nat) (c : Instr) (k : ReqKind) (g : Agent) (x : HomeAct) (q : DirReq) (w : Bool), h
     = clearSent s.hw ∧ ((c, k, g, x) ∈ ([(.readShared ag p a, .readShared, ag, {}), (.readOwn ag p a, .readOwn, ag, {}), (.readOnce ag p a,
     .readOnce, ag, {})] : List (Instr × ReqKind × Agent × HomeAct)) ∨ (∃ b y, b.length = 64 ∧ (c, k, g, x) = (.writeLine ag p a b y,
     .writeLine, ag, { bytes := b, poison := y, grant := 2 })) ∨ (∃ (b : List Byte) (m : W64) (y : Bool), b.length = 64 ∧ (c, k, g, x) =
     (.writePart ag p a b m y, .writePart, ag, { bytes := b, mask := m.toNat, poison := y })) ∨ (∃ op n v m, (c, k, g, x) = (.atomicHome ag
     p a op n v m, .atomicHome, ag, { op := op, size := n, operand := v, compare := m })) ∨ (∃ op n v m, (c, k, g, x) = (.atomicMem p a op n
     v m, .atomicMem, Agent.other, { op := op, size := n, operand := v, compare := m })) ∨ (∃ b y, b.length = 64 ∧ p = 31 ∧ (c, k, g, x) =
     (.writeBack ag a b y, .writeBack, ag, { bytes := b, poison := y, grant := 2 }))) ∧ q =
     { kind := k, agent := g, part := reqTag h g p, act := { x with addr := a } } ∧ w = (writesLine k || decide (k = .readOwn)) ∧ regionOf a
     ∈ [3, 4, 5] ∧ (∀ r, g ≠ .remote r)) ∧
    (∃ (s : State) (h : Hw) (ag : Agent) (a : Nat) (line : Nat) (e : DirEntry) (b : List Byte) (x : Nat), h = clearSent s.hw ∧ line = lineOf
     a ∧ agentFenced h ag = false ∧ agentGated h ag = false ∧ agentRetry h ag = none ∧ agentResv h ag line = none ∧ e = dirAt h line ∧ b =
     cohRead h s.mem (line * 64) 64 ∧ x = (if poisoned h (line * 64) then 2 else 0) ∧ e.owner ≠ some ag) ∧
    (∃ (s : State) (h : Hw) (ag : Agent) (a : Nat) (line : Nat) (e : DirEntry) (b : List Byte) (x : Nat), h = clearSent s.hw ∧ line = lineOf
     a ∧ agentFenced h ag = false ∧ agentGated h ag = false ∧ agentRetry h ag = none ∧ agentResv h ag line = none ∧ e = dirAt h line ∧ b =
     cohRead h s.mem (line * 64) 64 ∧ x = (if poisoned h (line * 64) then 2 else 0) ∧ e.owner = some ag) ∧
    (∃ (s : State) (h : Hw) (ag : Agent) (a : Nat) (line : Nat) (e : Hw), h = clearSent s.hw ∧ line = lineOf a ∧ agentFenced h ag = true ∧ e
     = (if (dirAt h line).owner = some ag then loseFenced h line { kind := .readOwn, agent := .other } else h)) ∧
    (∃ (s : State) (h : Hw) (ag : Agent), h = clearSent s.hw ∧ agentFenced h ag = false ∧ agentGated h ag = true) ∧
    (∃ (s : State) (h : Hw) (ag : Agent) (g : Hw), h = clearSent s.hw ∧ agentFenced h ag = false ∧ agentGated h ag = false ∧ agentRetry h ag
     = some g) ∧
    (∃ (s : State) (h : Hw) (ag : Agent) (a : Nat) (n : Nat) (line : Nat), h = clearSent s.hw ∧ line = lineOf a ∧ agentFenced h ag = false ∧
     agentGated h ag = false ∧ agentRetry h ag = none ∧ agentResv h ag line = some n) :=
  ⟨⟨(st (hartHw)), _, 64, { kind := .readOnce, agent := .l3 0 }, _, rfl, rfl, (by decide +kernel), (by decide +kernel), (by decide +kernel),
     by simp, (by decide +kernel), (by decide +kernel), (by decide +kernel)⟩,
   ⟨(st (hartHw)), _, 64, { kind := .writeLine, agent := .l3 0, act := { bytes := zeros 64 } }, _, rfl, rfl, (by decide +kernel),
     (by decide +kernel), (by decide +kernel), by simp, (by decide +kernel), (by decide +kernel), (by decide +kernel), (by decide +kernel),
     (by decide +kernel), (by decide +kernel)⟩,
   ⟨(st (hartHw { coh := { poison := [(1, true)] } })), _, 64, { kind := .writePart, agent := .l3 0 }, _, rfl, rfl, (by decide +kernel),
     (by decide +kernel), (by decide +kernel), by simp, (by decide +kernel), (by decide +kernel), (by decide +kernel), (by decide +kernel)⟩,
   ⟨(st (hartHw)), _, 64, { kind := .atomicMem, agent := .l3 0 }, _, _, rfl, rfl, (by decide +kernel), (by decide +kernel),
     (by decide +kernel), by simp, (by decide +kernel), (by decide +kernel), (by decide +kernel), (by decide +kernel), rfl⟩,
   ⟨(st (hartHw { coh := { poison := [(1, true)] } })), _, 64, { kind := .atomicHome, agent := .l3 0 }, _, rfl, rfl, (by decide +kernel),
     (by decide +kernel), (by decide +kernel), by simp, (by decide +kernel), (by decide +kernel), (by decide +kernel), (by decide +kernel)⟩,
   ⟨(st (hartHw)), _, (.l3 0), 0, 64, _, _, _, _, _, _, _, rfl, (.inl List.mem_cons_self), rfl, rfl, (by decide +kernel),
     (by decide +kernel), (by decide +kernel), (by decide +kernel), (by decide +kernel), rfl⟩,
   ⟨(st {}), _, (.l3 0), 0, 64, _, _, _, _, _, _, _, rfl, (.inl List.mem_cons_self), rfl, rfl, (by decide +kernel), (by decide +kernel),
     (by decide +kernel), (.inr ⟨rfl, fun _ e => nomatch e⟩)⟩,
   ⟨(st { islands := [(islandKey { kind := .shelf, idx := 0 }, { power := .gated })] }), _, (.l3 0), 31, (2 * 2 ^ 48), _, _, _, _, _, _,
     rfl, (.inr (.inr (.inr (.inr (.inr ⟨zeros 64, false, rfl, rfl, rfl⟩))))), rfl, rfl, (by decide +kernel), (by decide +kernel),
     (by decide +kernel)⟩,
   ⟨(st { islands := [(islandKey { kind := .shelf, idx := 0 }, { power := .closing 0 })] }), _, (.l3 0), 31, (2 * 2 ^ 48), _, _, _, _, _, _,
     rfl, (.inr (.inr (.inr (.inr (.inr ⟨zeros 64, false, rfl, rfl, rfl⟩))))), rfl, rfl, (by decide +kernel), (by decide +kernel),
     (by decide +kernel), (by decide +kernel)⟩,
   ⟨(st { edges := { decoders := [(0, { used := true, first := 6 * 2 ^ 48, count := 1, ports := [0] })] } }), _, (.l3 0), 31, (6 * 2 ^ 48),
     _, _, _, _, _, _, rfl, (.inr (.inr (.inr (.inr (.inr ⟨zeros 64, false, rfl, rfl, rfl⟩))))), rfl, rfl, (by decide +kernel),
     (by decide +kernel), (by decide +kernel), (by decide +kernel), (by decide +kernel)⟩,
   ⟨(st {}), _, (.remote 1), 0, (4 * 2 ^ 48), _, _, _, _, _, _, rfl, (.inl List.mem_cons_self), rfl, rfl, (by decide +kernel), ⟨1, rfl⟩⟩,
   ⟨(st {}), _, (.l3 0), 0, (4 * 2 ^ 48), _, _, _, _, _, _, rfl, (.inl List.mem_cons_self), rfl, rfl, (by decide +kernel), (fun _ e =>
     nomatch e)⟩,
   ⟨(st (hartHw)), _, (.l3 0), 64, _, _, _, _, rfl, rfl, (by decide +kernel), (by decide +kernel), (by decide +kernel), (by decide +kernel),
     rfl, rfl, rfl, (by decide +kernel)⟩,
   ⟨(st (hartHw { coh := { dir := [(1, { st := .e, owner := some (.l3 0) })] } })), _, (.l3 0), 64, _, _, _, _, rfl, rfl,
     (by decide +kernel), (by decide +kernel), (by decide +kernel), (by decide +kernel), rfl, rfl, rfl, (by decide +kernel)⟩,
   ⟨(st (hartHw
     { coh := { dir := [(1, { st := .e, owner := some (.l3 5) })] }, faults := { fences := [{ scope := .unit, kind := 2, unit := 5 }] } })),
     _, (.l3 5), 64, _, _, rfl, rfl, (by decide +kernel), rfl⟩,
   ⟨(st { islands := [(islandKey { kind := .cluster, idx := 0 }, { power := .gated })] }), _, (.l3 0), rfl, (by decide +kernel),
     (by decide +kernel)⟩,
   ⟨(st { islands := [(islandKey { kind := .cluster, idx := 0 }, { power := .closing 0 })] }), _, (.l3 0), _, rfl, (by decide +kernel),
     (by decide +kernel), rfl⟩,
   ⟨(st { harts := [(7, { resv := some 1 })] }), _, (.l3 0), 64, _, _, rfl, rfl, (by decide +kernel), (by decide +kernel),
     (by decide +kernel), rfl⟩⟩

theorem wit_ArchMembershipCommands :
    (∃ (s : State) (h : Hw) (m : Mbx) (tag : Nat) (r : Req), h = clearSent s.hw ∧ Serving s m tag 0x0B01 r) ∧
    (∃ (s : State) (h : Hw) (m : Mbx) (tag : Nat) (r : Req), ∃ T, h = clearSent s.hw ∧
     T = (if bitOf (leAt r.payload 0 1) 0 then max h.tb.now (leAt r.payload 8 8) else h.tb.now) ∧ Serving s m tag 0x0B02 r ∧
     h.edges.anchor = true ∧ h.ident.admitted = false ∧ h.ident.bench = false ∧
     ((∀ t, h.arch.foreign = some t → t + 1000000000 ≤ h.tb.now))) ∧
    (∃ (s : State) (h : Hw) (m : Mbx) (tag : Nat) (r : Req), h = clearSent s.hw ∧ Serving s m tag 0x0B02 r ∧
     ((h.edges.anchor = false ∨ h.ident.admitted = true ∨ h.ident.bench = true ∨ ∃ t, h.arch.foreign = some t ∧ h.tb.now < t + 1000000000))) ∧
    (∃ (s : State) (h : Hw) (m : Mbx) (tag : Nat) (r : Req), h = clearSent s.hw ∧ Serving s m tag 0x0B03 r ∧
     (((∃ p, 1 ≤ p ∧ p ≤ 16 ∧ partExists h p = true) ∨ h.ident.bench = true ∨ (h.ident.admitted = true ∧ memberFenced h = false)))) ∧
    (∃ (s : State) (h : Hw) (m : Mbx) (tag : Nat) (r : Req), h = clearSent s.hw ∧ Serving s m tag 0x0B03 r ∧
     ((∀ p, 1 ≤ p → p ≤ 16 → partExists h p = false)) ∧ h.ident.bench = false ∧ ((h.ident.admitted = false ∨ memberFenced h = true)) ∧
     (waitsFor h (fun w => decide (w = Wait.join)) = false)) ∧
    (∃ (s : State) (h : Hw) (m : Mbx) (tag : Nat) (r : Req), ∃ p, h = clearSent s.hw ∧ Serving s m tag 0x0B04 r ∧ p = leAt r.payload 8 1 ∧
     holdsRole h 1 = false) ∧
    (∃ (s : State) (h : Hw) (m : Mbx) (tag : Nat) (r : Req), ∃ p, h = clearSent s.hw ∧ Serving s m tag 0x0B04 r ∧ p = leAt r.payload 8 1 ∧
     holdsRole h 1 = true ∧ idFree h p = false) ∧
    (∃ (s : State) (h : Hw) (m : Mbx) (tag : Nat) (r : Req), ∃ p, h = clearSent s.hw ∧ Serving s m tag 0x0B04 r ∧ p = leAt r.payload 8 1 ∧
     holdsRole h 1 = true ∧ idFree h p = true ∧
     (waitsFor h (fun w => match w with | .admission _ q => decide (q = p) | _ => false) = false)) ∧
    (∃ (s : State) (h : Hw) (m : Mbx) (tag : Nat) (r : Req), h = clearSent s.hw ∧ Serving s m tag 0x0B05 r) ∧
    (∃ (s : State) (h : Hw) (m : Mbx) (tag : Nat) (r : Req), ∃ p, h = clearSent s.hw ∧ Serving s m tag 0x0B06 r ∧ p = leAt r.payload 0 1 ∧
     isMember h p = true ∧ ((p = h.ident.position ∨ holdsRole h 1 = true)) ∧ ((h.arch.timeSrc = some p ∨ h.arch.admitter = some p)) ∧
     2 ≤ (memberIds h).length) ∧
    (∃ (s : State) (h : Hw) (m : Mbx) (tag : Nat) (r : Req) (o : HM), ∃ p, h = clearSent s.hw ∧ Serving s m tag 0x0B06 r ∧
     p = leAt r.payload 0 1 ∧ isMember h p = true ∧ ((p = h.ident.position ∨ holdsRole h 1 = true)) ∧
     (¬(h.arch.timeSrc = some p ∨ h.arch.admitter = some p)) ∧ p = h.ident.position ∧ o = beginDepart (h, s.mem)) ∧
    (∃ (s : State) (h : Hw) (m : Mbx) (tag : Nat) (r : Req) (b : Hw), ∃ p, h = clearSent s.hw ∧ Serving s m tag 0x0B06 r ∧
     p = leAt r.payload 0 1 ∧ isMember h p = true ∧ ((p = h.ident.position ∨ holdsRole h 1 = true)) ∧
     (¬(h.arch.timeSrc = some p ∨ h.arch.admitter = some p)) ∧ p ≠ h.ident.position ∧
     b = broadcast (setMember h p { memberAt h p with st := .departing }) 0x09 [p]) ∧
    (∃ (s : State) (h : Hw) (m : Mbx) (tag : Nat) (r : Req), h = clearSent s.hw ∧ Serving s m tag 0x0B07 r ∧ h.ident.admitted = false) ∧
    (∃ (s : State) (h : Hw) (m : Mbx) (tag : Nat) (r : Req), ∃ q, h = clearSent s.hw ∧ Serving s m tag 0x0B07 r ∧ h.ident.admitted = true ∧
     leAt r.payload 0 1 < 2 ∧ roleHolder h (leAt r.payload 0 1) = some q ∧
     (waitsFor h (fun w => decide (w = Wait.role (leAt r.payload 0 1) (leAt r.payload 1 1))) = false) ∧ q = h.ident.position) ∧
    (∃ (s : State) (h : Hw) (m : Mbx) (tag : Nat) (r : Req), ∃ q, h = clearSent s.hw ∧ Serving s m tag 0x0B07 r ∧ h.ident.admitted = true ∧
     leAt r.payload 0 1 < 2 ∧ roleHolder h (leAt r.payload 0 1) = some q ∧
     (waitsFor h (fun w => decide (w = Wait.role (leAt r.payload 0 1) (leAt r.payload 1 1))) = false) ∧ q ≠ h.ident.position) :=
  ⟨⟨(srv .steward 0x0B01 [] {}), _, .steward, 0, (rq 0x0B01 []), rfl, (by decide +kernel)⟩,
   ⟨(srv .steward 0x0B02 [1, 0, 0, 0, 0, 0, 0, 0, 9] { edges := { anchor := true } }), _, .steward, 0, (rq 0x0B02 [1, 0, 0, 0, 0, 0, 0, 0, 9]),
     _, rfl, rfl, (by decide +kernel), (by decide +kernel), (by decide +kernel), (by decide +kernel), (by decide +kernel)⟩,
   ⟨(srv .steward 0x0B02 [] {}), _, .steward, 0, (rq 0x0B02 []), rfl, (by decide +kernel), by decide +kernel⟩,
   ⟨(srv .steward 0x0B03 [] { ident := { bench := true } }), _, .steward, 0, (rq 0x0B03 []), rfl, (by decide +kernel), .inr (.inl rfl)⟩,
   ⟨(srv .steward 0x0B03 [] {}), _, .steward, 0, (rq 0x0B03 []), rfl, (by decide +kernel),
     by intro p h1 h2; interval_cases p <;> decide +kernel, (by decide +kernel), (by decide +kernel), (by decide +kernel)⟩,
   ⟨(srv .steward 0x0B04 [] {}), _, .steward, 0, (rq 0x0B04 []), _, rfl, (by decide +kernel), rfl, (by decide +kernel)⟩,
   ⟨(srv .steward 0x0B04 [0, 0, 0, 0, 0, 0, 0, 0, 3] { ident := { admitted := true }, arch := { admitter := some 0, members := [(0, { st := .member }), (3, { st := .member })] } }),
     _, .steward, 0, (rq 0x0B04 [0, 0, 0, 0, 0, 0, 0, 0, 3]), _, rfl, (by decide +kernel), rfl, (by decide +kernel), (by decide +kernel)⟩,
   ⟨(srv .steward 0x0B04 [0, 0, 0, 0, 0, 0, 0, 0, 255] { ident := { admitted := true }, arch := { admitter := some 0, members := [(0, { st := .member }), (3, { st := .member })] } }),
     _, .steward, 0, (rq 0x0B04 [0, 0, 0, 0, 0, 0, 0, 0, 255]), _, rfl, (by decide +kernel), rfl, (by decide +kernel), (by decide +kernel),
     (by decide +kernel)⟩,
   ⟨(srv .steward 0x0B05 [] {}), _, .steward, 0, (rq 0x0B05 []), rfl, (by decide +kernel)⟩,
   ⟨(srv .steward 0x0B06 [0] { ident := { admitted := true }, arch := { admitter := some 0, members := [(0, { st := .member }), (3, { st := .member })] } }),
     _, .steward, 0, (rq 0x0B06 [0]), _, rfl, (by decide +kernel), rfl, (by decide +kernel), (by decide +kernel), (by decide +kernel),
     (by decide +kernel)⟩,
   ⟨(srv .steward 0x0B06 [0] { ident := { admitted := true }, arch := { members := [(0, { st := .member })] } }), _, .steward, 0,
     (rq 0x0B06 [0]), _, _, rfl, (by decide +kernel), rfl, (by decide +kernel), (by decide +kernel), (by decide +kernel),
     (by decide +kernel), rfl⟩,
   ⟨(srv .steward 0x0B06 [3] { ident := { admitted := true }, arch := { admitter := some 0, members := [(0, { st := .member }), (3, { st := .member })] } }),
     _, .steward, 0, (rq 0x0B06 [3]), _, _, rfl, (by decide +kernel), rfl, (by decide +kernel), (by decide +kernel), (by decide +kernel),
     (by decide +kernel), rfl⟩,
   ⟨(srv .steward 0x0B07 [0] {}), _, .steward, 0, (rq 0x0B07 [0]), rfl, (by decide +kernel), (by decide +kernel)⟩,
   ⟨(srv .steward 0x0B07 [1] { ident := { admitted := true }, arch := { admitter := some 0, members := [(0, { st := .member }), (3, { st := .member })] } }),
     _, .steward, 0, (rq 0x0B07 [1]), _, rfl, (by decide +kernel), (by decide +kernel), (by decide +kernel), rfl, (by decide +kernel),
     (by decide +kernel)⟩,
   ⟨(srv .steward 0x0B07 [0] { ident := { admitted := true }, arch := { timeSrc := some 3 } }), _, .steward, 0, (rq 0x0B07 [0]), _, rfl,
     (by decide +kernel), (by decide +kernel), (by decide +kernel), rfl, (by decide +kernel), (by decide +kernel)⟩⟩

theorem wit_ArchSetCensusLinkCommands :
    (∃ (s : State) (h : Hw) (m : Mbx) (tag : Nat) (r : Req), h = clearSent s.hw ∧ Serving s m tag 0x0B08 r ∧
     partCheck h .steward (leAt r.payload 0 1) = none ∧ h.ident.admitted = false) ∧
    (∃ (s : State) (h : Hw) (m : Mbx) (tag : Nat) (r : Req), ∃ p set used slot b, h = clearSent s.hw ∧ Serving s m tag 0x0B08 r ∧
     p = leAt r.payload 0 1 ∧ set = leAt r.payload 4 4 ∧ partCheck h .steward p = none ∧ h.ident.admitted = true ∧ set ≠ 0 ∧
     set ≠ 0xFFFFFFFF ∧ (used = h.arch.sets.filter (fun e => e.2.used)) ∧ ((∀ e, e ∈ used → (e.2.set = set ↔ e.2.part = p))) ∧
     (slot = (match used.find? (fun e => decide (e.2.part = p)) with | some e => e.1 | none => ((List.range 17).find? (fun i => !(tabGet {} h.arch.sets i).used)).getD 17)) ∧
     b = { h with arch := { h.arch with sets := tabPut {} h.arch.sets slot { used := true, set := set, part := p, members := leAt r.payload 8 32 } } } ∧
     (liveSets b).length > 255) ∧
    (∃ (s : State) (h : Hw) (m : Mbx) (tag : Nat) (r : Req), ∃ p set used slot b, h = clearSent s.hw ∧ Serving s m tag 0x0B08 r ∧
     p = leAt r.payload 0 1 ∧ set = leAt r.payload 4 4 ∧ partCheck h .steward p = none ∧ h.ident.admitted = true ∧ set ≠ 0 ∧
     set ≠ 0xFFFFFFFF ∧ (used = h.arch.sets.filter (fun e => e.2.used)) ∧ ((∀ e, e ∈ used → (e.2.set = set ↔ e.2.part = p))) ∧
     (slot = (match used.find? (fun e => decide (e.2.part = p)) with | some e => e.1 | none => ((List.range 17).find? (fun i => !(tabGet {} h.arch.sets i).used)).getD 17)) ∧
     b = { h with arch := { h.arch with sets := tabPut {} h.arch.sets slot { used := true, set := set, part := p, members := leAt r.payload 8 32 } } } ∧
     (liveSets b).length ≤ 255) ∧
    (∃ (s : State) (h : Hw) (m : Mbx) (tag : Nat) (r : Req), h = clearSent s.hw ∧ Serving s m tag 0x0B09 r ∧
     partCheck h .steward (leAt r.payload 0 1) = none ∧
     ((∀ e, e ∈ h.arch.sets → e.2.used = true → ¬(e.2.set = leAt r.payload 4 4 ∧ e.2.part = leAt r.payload 0 1)))) ∧
    (∃ (s : State) (h : Hw) (m : Mbx) (tag : Nat) (r : Req) (p : Nat) (set : Nat) (g : Hw) (u : Hw) (o : HM), h = clearSent s.hw ∧
     Serving s m tag 0x0B09 r ∧ p = leAt r.payload 0 1 ∧ set = leAt r.payload 4 4 ∧ partCheck h .steward p = none ∧
     ((∃ e, e ∈ h.arch.sets ∧ e.2.used = true ∧ e.2.set = set ∧ e.2.part = p)) ∧
     (g = giveUpProxies h (fun _ x => decide (x.part = p)) true) ∧
     (o = recallLines (g, s.mem) (fun l => decide ((swatchAt g (l * 64)).owner = p))) ∧
     (u = unbindDone (breakRemote (breakCross o.1 (fun n => decide (knotOwner o.1 n = p))) (fun q _ => decide (slipOwner (breakCross o.1 (fun n => decide (knotOwner o.1 n = p))) q = p))) p set)) ∧
    (∃ (s : State) (h : Hw) (m : Mbx) (tag : Nat) (r : Req), h = clearSent s.hw ∧ Serving s m tag 0x0B0A r ∧ h.ident.admitted = true ∧
     1000 ≤ leAt r.payload 0 4 ∧ leAt r.payload 0 4 ≤ 100000 ∧ 4 ≤ (h.arch.censuses.filter (censusOpen h)).length) ∧
    (∃ (s : State) (h : Hw) (m : Mbx) (tag : Nat) (r : Req), ∃ lead n, h = clearSent s.hw ∧ Serving s m tag 0x0B0A r ∧
     lead = leAt r.payload 0 4 ∧ n = h.arch.censusSeq % 65536 ∧ h.ident.admitted = true ∧ 1000 ≤ lead ∧ lead ≤ 100000 ∧
     (h.arch.censuses.filter (censusOpen h)).length < 4) ∧
    (∃ (s : State) (h : Hw) (m : Mbx) (tag : Nat) (r : Req), ∃ c, h = clearSent s.hw ∧ Serving s m tag 0x0B0B r ∧
     findCensus h (leAt r.payload 0 1) (leAt r.payload 2 2) = some c ∧ c.initiator = h.ident.position ∧ h.ident.admitted = true ∧
     c.done = true) ∧
    (∃ (s : State) (h : Hw) (m : Mbx) (tag : Nat) (r : Req), ∃ c, h = clearSent s.hw ∧ Serving s m tag 0x0B0B r ∧
     findCensus h (leAt r.payload 0 1) (leAt r.payload 2 2) = some c ∧ c.initiator ≠ h.ident.position ∧ c.sampled = true) ∧
    (∃ (s : State) (h : Hw) (m : Mbx) (tag : Nat) (r : Req), ∃ n l, h = clearSent s.hw ∧ Serving s m tag 0x0B0C r ∧ n = leAt r.payload 0 1 ∧
     n < portCount h ∧ l = linkAt h n ∧ (waitsFor h (fun x => decide (x = Wait.link n)) = false) ∧ leAt r.payload 1 1 = 0) ∧
    (∃ (s : State) (h : Hw) (m : Mbx) (tag : Nat) (r : Req), ∃ n l, h = clearSent s.hw ∧ Serving s m tag 0x0B0C r ∧ n = leAt r.payload 0 1 ∧
     n < portCount h ∧ l = linkAt h n ∧ (waitsFor h (fun x => decide (x = Wait.link n)) = false) ∧ leAt r.payload 1 1 = 1 ∧ l.off = true ∧
     mayTrain h = true) ∧
    (∃ (s : State) (h : Hw) (m : Mbx) (tag : Nat) (r : Req), ∃ n l, h = clearSent s.hw ∧ Serving s m tag 0x0B0C r ∧ n = leAt r.payload 0 1 ∧
     n < portCount h ∧ l = linkAt h n ∧ (waitsFor h (fun x => decide (x = Wait.link n)) = false) ∧ leAt r.payload 1 1 = 2 ∧ l.st = .active) :=
  ⟨⟨(srv .steward 0x0B08 [] {}), _, .steward, 0, (rq 0x0B08 []), rfl, (by decide +kernel), (by decide +kernel), (by decide +kernel)⟩,
   ⟨(srv .steward 0x0B08 [0, 0, 0, 0, 0xFE, 0xFF, 0xFF, 0xFF] { ident := { admitted := true }, arch := { others := many } }), _, .steward, 0,
     (rq 0x0B08 [0, 0, 0, 0, 0xFE, 0xFF, 0xFF, 0xFF]), _, _, _, _, _, rfl, (by decide +kernel), rfl, rfl, (by decide +kernel),
     (by decide +kernel), (by decide +kernel), (by decide +kernel), rfl, (by decide +kernel), rfl, rfl, live_many rfl⟩,
   ⟨(srv .steward 0x0B08 [0, 0, 0, 0, 1] { ident := { admitted := true } }), _, .steward, 0, (rq 0x0B08 [0, 0, 0, 0, 1]), _, _, _, _, _, rfl,
     (by decide +kernel), rfl, rfl, (by decide +kernel), (by decide +kernel), (by decide +kernel), (by decide +kernel), rfl,
     (by decide +kernel), rfl, rfl, (by decide +kernel)⟩,
   ⟨(srv .steward 0x0B09 [] {}), _, .steward, 0, (rq 0x0B09 []), rfl, (by decide +kernel), (by decide +kernel), (by decide +kernel)⟩,
   ⟨(srv .steward 0x0B09 [0, 0, 0, 0, 1] { ident := { admitted := true }, arch := { sets := [(0, { used := true, set := 1 })] } }), _,
     .steward, 0, (rq 0x0B09 [0, 0, 0, 0, 1]), _, _, _, _, _, rfl, (by decide +kernel), rfl, rfl, (by decide +kernel), (by decide +kernel),
     rfl, rfl, rfl⟩,
   ⟨(srv .steward 0x0B0A [0xA0, 0x86, 1] { ident := { admitted := true }, arch := { censuses := List.replicate 4 { initiator := 0, seq := 0, ts := 0 } } }),
     _, .steward, 0, (rq 0x0B0A [0xA0, 0x86, 1]), rfl, (by decide +kernel), (by decide +kernel), (by decide +kernel), (by decide +kernel),
     (by decide +kernel)⟩,
   ⟨(srv .steward 0x0B0A [0xE8, 3] { ident := { admitted := true }, arch := { censuses := List.replicate 3 { initiator := 0, seq := 0, ts := 0 } } }),
     _, .steward, 0, (rq 0x0B0A [0xE8, 3]), _, _, rfl, (by decide +kernel), rfl, rfl, (by decide +kernel), (by decide +kernel),
     (by decide +kernel), (by decide +kernel)⟩,
   ⟨(srv .steward 0x0B0B [] { ident := { admitted := true }, arch := { censuses := [{ initiator := 0, seq := 0, ts := 0, done := true }] } }),
     _, .steward, 0, (rq 0x0B0B []), _, rfl, (by decide +kernel), rfl, (by decide +kernel), (by decide +kernel), (by decide +kernel)⟩,
   ⟨(srv .steward 0x0B0B [1] { ident := { admitted := true }, arch := { censuses := [{ initiator := 1, seq := 0, ts := 0, sampled := true }] } }),
     _, .steward, 0, (rq 0x0B0B [1]), _, rfl, (by decide +kernel), rfl, (by decide +kernel), (by decide +kernel)⟩,
   ⟨(srv .steward 0x0B0C [1] {}), _, .steward, 0, (rq 0x0B0C [1]), _, _, rfl, (by decide +kernel), rfl, (by decide +kernel), rfl,
     (by decide +kernel), (by decide +kernel)⟩,
   ⟨{ hw := { tb := { now := 600000000 }, arch := { east := { joined := true }, links := [(1, { off := true })] }, efano := { ready := true, boxes := [(17, { reqs := [{ rq 0x0B0C [1, 1] with accept := 600000000 }] })] } } },
     _, .steward, 0, { rq 0x0B0C [1, 1] with accept := 600000000 }, _, _, rfl, (by decide +kernel), rfl, (by decide +kernel), rfl,
     (by decide +kernel), (by decide +kernel), (by decide +kernel), (by decide +kernel)⟩,
   ⟨(srv .steward 0x0B0C [1, 2] { arch := { links := [(1, { st := .active })] } }), _, .steward, 0, (rq 0x0B0C [1, 2]), _, _, rfl,
     (by decide +kernel), rfl, (by decide +kernel), rfl, (by decide +kernel), (by decide +kernel), (by decide +kernel)⟩⟩

theorem wit_CausewayReception :
    (∃ (s : State) (h : Hw) (ty : Nat), h = clearSent s.hw ∧ 0x17 < ty) ∧
    (∃ (s : State) (h : Hw) (ty : Nat) (k : Nat), h = clearSent s.hw ∧ 0x17 < ty ∧ k ≠ 0 ∧ k ≤ 0x17) ∧
    (∃ (s : State) (h : Hw) (ty : Nat), h = clearSent s.hw ∧ 0x17 < ty ∧ h.arch.running = false) ∧
    (∃ (s : State) (h : Hw) (c : Cw) (ty : Nat), h = clearSent s.hw ∧ 0x17 < ty ∧ c.tag = Config.deviceTag.toNat) ∧
    (∃ (s : State) (h : Hw) (c : Cw) (ty : Nat), h = clearSent s.hw ∧ 0x17 < ty ∧ c.hops = 0 ∧ (cwPort h c.port).joined = false) ∧
    (∃ (s : State) (h : Hw) (c : Cw) (ty : Nat), h = clearSent s.hw ∧ 0x17 < ty ∧ h.arch.running = true ∧ c.tag ≠ Config.deviceTag.toNat ∧
     ((c.hops ≠ 0 ∨ (cwPort h c.port).joined = true)) ∧ h.ident.admitted = true ∧ c.archId ≠ 0 ∧ c.archId ≠ h.arch.archId) ∧
    (∃ (s : State) (h : Hw) (c : Cw) (ty : Nat), ∃ g, h = clearSent s.hw ∧ 0x17 < ty ∧ h.arch.running = true ∧ c.tag ≠ Config.deviceTag.toNat ∧
     ((c.hops ≠ 0 ∨ (cwPort h c.port).joined = true)) ∧ archConflict h c = false ∧ positionClash h c = false ∧ g = noteFrame h c ∧
     (c.tag, c.seq) ∈ h.arch.seen ∧ c.resent = true) ∧
    (∃ (s : State) (h : Hw) (c : Cw) (ty : Nat), ∃ g, h = clearSent s.hw ∧ 0x17 < ty ∧ h.arch.running = true ∧ c.tag ≠ Config.deviceTag.toNat ∧
     ((c.hops ≠ 0 ∨ (cwPort h c.port).joined = true)) ∧ archConflict h c = false ∧ positionClash h c = false ∧ g = noteFrame h c ∧
     (((c.tag, c.seq) ∉ h.arch.seen ∨ c.resent = false))) :=
  ⟨⟨(st {}), _, 0x18, rfl, (by decide +kernel)⟩,
   ⟨(st {}), _, 0x18, 0x17, rfl, (by decide +kernel), (by decide +kernel), (by decide +kernel)⟩,
   ⟨(st {}), _, 0x18, rfl, (by decide +kernel), (by decide +kernel)⟩,
   ⟨(st {}), _, { tag := Config.deviceTag.toNat }, 0x18, rfl, (by decide +kernel), rfl⟩,
   ⟨(st {}), _, { tag := 1 }, 0x18, rfl, (by decide +kernel), (by decide +kernel), (by decide +kernel)⟩,
   ⟨(st { ident := { admitted := true }, arch := { running := true, archId := 7, members := [(3, { st := .member, tag := tg })] } }), _,
     { fr with archId := 8 }, 0xFF, rfl, (by decide +kernel), (by decide +kernel), tg_ne, (by decide +kernel), (by decide +kernel),
     (by decide +kernel), (by decide +kernel)⟩,
   ⟨(st { ident := { admitted := true }, arch := { running := true, archId := 7, seen := [(tg, 5)] } }), _, { fr with resent := true }, 0xFF,
     _, rfl, (by decide +kernel), (by decide +kernel), tg_ne, (by decide +kernel), (by decide +kernel), (by decide +kernel), rfl, .head _,
     (by decide +kernel)⟩,
   ⟨(st { ident := { admitted := true }, arch := { running := true, archId := 7, members := [(3, { st := .member, tag := tg })] } }), _, fr,
     0xFF, _, rfl, (by decide +kernel), (by decide +kernel), tg_ne, (by decide +kernel), (by decide +kernel), (by decide +kernel), rfl,
     (by decide +kernel)⟩⟩

theorem wit_PresenceAndJoinRows :
    (∃ (s : State) (h : Hw) (g : Hw) (a : Hw) (b : Hw), h = clearSent s.hw ∧ g.arch.posted = [] ∧ h.arch.running = true ∧ h.arch.rolePend = [] ∧
     holdsRole b 1 = false ∧
     a = { h with tb := { h.tb with now := max h.tb.now (h.arch.presAt + 1000000) }, arch := { h.arch with presAt := max h.tb.now (h.arch.presAt + 1000000) } } ∧
     b = sendFrame a (presenceFrame a ([ownRoles a, (ownUp a).length] ++ ownUp a ++ [(ownDown a).length] ++ ownDown a ++ [a.arch.memSeq])) ∧
     (pkgFenced b || memberFenced b) = false) ∧
    (∃ (s : State) (h : Hw) (g : Hw) (a : Hw) (b : Hw), h = clearSent s.hw ∧ g.arch.posted = [] ∧ h.arch.running = true ∧ h.arch.rolePend = [] ∧
     holdsRole (broadcast b 0x0D []) 1 = false ∧
     a = { h with tb := { h.tb with now := max h.tb.now (h.arch.presAt + 1000000) }, arch := { h.arch with presAt := max h.tb.now (h.arch.presAt + 1000000) } } ∧
     b = sendFrame a (presenceFrame a ([ownRoles a, (ownUp a).length] ++ ownUp a ++ [(ownDown a).length] ++ ownDown a ++ [a.arch.memSeq])) ∧
     (pkgFenced b || memberFenced b) = true) ∧
    (∃ (s : State) (h : Hw) (g : Hw) (c : Cw) (p : Presence), h = clearSent s.hw ∧ g.arch.posted = [] ∧
     Taken h c 0x01 .broadcast ([p.roles, p.upTo.length] ++ p.upTo ++ [p.downTo.length] ++ p.downTo ++ [p.applied]) g ∧
     c.unadmitted = true ∧ c.tag ∉ g.arch.newcomers ∧ g.arch.newcomers.length < 16) ∧
    (∃ (s : State) (h : Hw) (g : Hw) (c : Cw) (p : Presence), h = clearSent s.hw ∧ g.arch.posted = [] ∧
     Taken h c 0x01 .broadcast ([p.roles, p.upTo.length] ++ p.upTo ++ [p.downTo.length] ++ p.downTo ++ [p.applied]) g ∧
     c.unadmitted = true ∧ ((c.tag ∈ g.arch.newcomers ∨ 16 ≤ g.arch.newcomers.length))) ∧
    (∃ (s : State) (h : Hw) (g : Hw) (c : Cw) (p : Presence), h = clearSent s.hw ∧ g.arch.posted = [] ∧
     Taken h c 0x01 .broadcast ([p.roles, p.upTo.length] ++ p.upTo ++ [p.downTo.length] ++ p.downTo ++ [p.applied]) g ∧
     c.unadmitted = false ∧ p.roles % 4 = 0 ∧ fromMember g c = true) ∧
    (∃ (s : State) (h : Hw) (g : Hw) (c : Cw), h = clearSent s.hw ∧ g.arch.posted = [] ∧ Taken h c 0x02 .neighbour [] g ∧
     (cwPort g c.port).carrier = true ∧ g.arch.joinOk = true) ∧
    (∃ (s : State) (h : Hw) (g : Hw) (c : Cw), h = clearSent s.hw ∧ g.arch.posted = [] ∧ Taken h c 0x02 .neighbour [] g ∧
     (cwPort g c.port).carrier = true ∧ g.arch.joinOk = false) ∧
    (∃ (s : State) (h : Hw) (g : Hw) (c : Cw), h = clearSent s.hw ∧ g.arch.posted = [] ∧ Taken h c 0x03 .neighbour [1] g ∧
     (cwPort g c.port).carrier = true ∧ g.arch.joinOk = true ∧ (cwPort g c.port).broken = false) ∧
    (∃ (s : State) (h : Hw) (g : Hw) (c : Cw), h = clearSent s.hw ∧ g.arch.posted = [] ∧ Taken h c 0x03 .neighbour [0] g) ∧
    (∃ (s : State) (h : Hw) (g : Hw), h = clearSent s.hw ∧ g.arch.posted = [] ∧ ((h.arch.running = false ∨ h.arch.joinOk = false))) ∧
    (∃ (s : State) (h : Hw) (g : Hw), h = clearSent s.hw ∧ g.arch.posted = [] ∧ h.arch.running = true ∧ h.arch.joinOk = true) ∧
    (∃ (s : State) (h : Hw) (g : Hw) (n : Nat), h = clearSent s.hw ∧ g.arch.posted = [] ∧ n < 2 ∧ h.arch.running = true ∧
     (cwPort h n).carrier = true ∧ (cwPort h (otherPort n)).broken = false ∧ h.ident.admitted = true) ∧
    (∃ (s : State) (h : Hw) (g : Hw) (c : Cw) (n : Nat) (lt : Nat), h = clearSent s.hw ∧ g.arch.posted = [] ∧
     Taken h c 0x0E .broadcast [c.origin, n, lt] g) ∧
    (∃ (s : State) (h : Hw) (g : Hw) (c : Cw) (n : Nat) (lt : Nat), h = clearSent s.hw ∧ g.arch.posted = [] ∧
     Taken h c 0x0F .broadcast [c.origin, n, lt] g) :=
  ⟨⟨(st { arch := { running := true, archId := 7 } }), _, {}, _, _, rfl, (by decide +kernel), (by decide +kernel), (by decide +kernel),
     (by decide +kernel), rfl, rfl, (by decide +kernel)⟩,
   ⟨(st { arch := { running := true, archId := 7 }, faults := { fences := [{ scope := .package }] } }), _, {}, _, _, rfl, (by decide +kernel),
     (by decide +kernel), (by decide +kernel), (by decide +kernel), rfl, rfl, (by decide +kernel)⟩,
   ⟨(st { arch := { running := true, archId := 7 } }), _, _, fu, {}, rfl, rfl, taken_b tg_ne rfl rfl rfl rfl, (by decide +kernel),
     (by decide +kernel), (by decide +kernel)⟩,
   ⟨(st { arch := { running := true, newcomers := List.replicate 16 0 } }), _, _, fu, {}, rfl, rfl, taken_b tg_ne rfl rfl rfl rfl,
     (by decide +kernel), .inr (by decide)⟩,
   ⟨(st { ident := { admitted := true }, arch := { running := true, archId := 7, members := [(3, { st := .member, tag := tg })] } }), _, _, fr,
     {}, rfl, rfl, taken_b tg_ne rfl rfl rfl rfl, (by decide +kernel), (by decide +kernel), from_mk rfl rfl (by decide +kernel) rfl⟩,
   ⟨(st { arch := { running := true, joinOk := true, west := { carrier := true } } }), _, _, fr, rfl, rfl, taken_n tg_ne rfl rfl rfl rfl,
     (by decide +kernel), (by decide +kernel)⟩,
   ⟨(st { arch := { running := true, west := { carrier := true } } }), _, _, fr, rfl, rfl, taken_early tg_ne rfl rfl, (by decide +kernel),
     (by decide +kernel)⟩,
   ⟨(st { arch := { running := true, joinOk := true, west := { carrier := true } } }), _, _, fr, rfl, rfl, taken_n tg_ne rfl rfl rfl rfl,
     (by decide +kernel), (by decide +kernel), (by decide +kernel)⟩,
   ⟨(st { arch := { running := true, archId := 7, joinOk := true } }), _, _, fr, rfl, rfl, taken_n tg_ne rfl rfl rfl rfl⟩,
   ⟨(st {}), _, {}, rfl, (by decide +kernel), (by decide +kernel)⟩,
   ⟨(st { arch := { running := true, joinOk := true } }), _, {}, rfl, (by decide +kernel), (by decide +kernel), (by decide +kernel)⟩,
   ⟨(st { ident := { admitted := true }, arch := { running := true, west := { carrier := true } } }), _, {}, 1, rfl, (by decide +kernel),
     (by decide +kernel), (by decide +kernel), (by decide +kernel), (by decide +kernel), (by decide +kernel)⟩,
   ⟨(st { arch := { running := true, archId := 7 } }), _, _, fr, 1, 0, rfl, rfl, taken_b tg_ne rfl rfl rfl rfl⟩,
   ⟨(st { arch := { running := true, archId := 7 } }), _, _, fr, 1, 0, rfl, rfl, taken_b tg_ne rfl rfl rfl rfl⟩⟩

theorem wit_ArchTimeRows :
    (∃ (s : State) (h : Hw) (g : Hw), ∃ a, h = clearSent s.hw ∧ g.arch.posted = [] ∧ h.arch.running = true ∧
     a = { h with tb := { h.tb with now := max h.tb.now (h.arch.delayAt + 1000000) }, arch := { h.arch with delayAt := max h.tb.now (h.arch.delayAt + 1000000) } } ∧
     h.arch.east.joined = false ∧ h.arch.west.joined = true) ∧
    (∃ (s : State) (h : Hw) (g : Hw), ∃ a, h = clearSent s.hw ∧ g.arch.posted = [] ∧ h.arch.running = true ∧
     a = { h with tb := { h.tb with now := max h.tb.now (h.arch.delayAt + 1000000) }, arch := { h.arch with delayAt := max h.tb.now (h.arch.delayAt + 1000000) } } ∧
     h.arch.east.joined = true ∧ h.arch.west.joined = false) ∧
    (∃ (s : State) (h : Hw) (g : Hw) (c : Cw), h = clearSent s.hw ∧ g.arch.posted = [] ∧ Taken h c 0x04 .neighbour [] g) ∧
    (∃ (s : State) (h : Hw) (g : Hw) (c : Cw) (rx : Nat) (tx : Nat), h = clearSent s.hw ∧ g.arch.posted = [] ∧
     Taken h c 0x05 .neighbour [rx, tx] g) ∧
    (∃ (s : State) (h : Hw) (g : Hw), ∃ a, h = clearSent s.hw ∧ g.arch.posted = [] ∧ h.arch.running = true ∧ holdsRole h 0 = true ∧
     a = { h with tb := { h.tb with now := max h.tb.now (h.arch.tickAt + 125000) }, arch := { h.arch with tickAt := max h.tb.now (h.arch.tickAt + 125000), timeAt := max h.tb.now (h.arch.tickAt + 125000) } }) ∧
    (∃ (s : State) (h : Hw) (g : Hw), h = clearSent s.hw ∧ g.arch.posted = [] ∧ ((h.arch.running = false ∨ holdsRole h 0 = false))) ∧
    (∃ (s : State) (h : Hw) (g : Hw) (c : Cw) (corr : Nat) (res : Nat), ∃ t, h = clearSent s.hw ∧ g.arch.posted = [] ∧
     Taken h c 0x06 .broadcast [corr + res + (cwPort h c.port).delay] g ∧ t = c.tb + (corr + (cwPort g c.port).delay) / 65536 ∧
     g.arch.timeSeq ≠ c.seq ∧ g.ident.admitted = false) ∧
    (∃ (s : State) (h : Hw) (g : Hw) (c : Cw) (corr : Nat) (res : Nat), ∃ t u, h = clearSent s.hw ∧ g.arch.posted = [] ∧
     Taken h c 0x06 .broadcast [corr + res + (cwPort h c.port).delay] g ∧ t = c.tb + (corr + (cwPort g c.port).delay) / 65536 ∧
     g.arch.timeSeq ≠ c.seq ∧ fromMember g c = true ∧ memberFenced g = false ∧ roleHolder g 0 ≠ some g.ident.position ∧
     u = { g with arch := { g.arch with timeAt := g.tb.now, timeSeq := c.seq, timeHops := c.hops, archTb := some (t, g.tb.now) }, tb := { g.tb with slew := (t : Int) - (g.tb.now : Int) } }) ∧
    (∃ (s : State) (h : Hw) (g : Hw) (c : Cw) (corr : Nat) (res : Nat), h = clearSent s.hw ∧ g.arch.posted = [] ∧
     Taken h c 0x06 .broadcast [corr + res + (cwPort h c.port).delay] g ∧ g.arch.timeSeq = c.seq ∧ g.arch.timeHops ≤ 255 ∧
     ((g.arch.timeHops < c.hops ∨ (g.arch.timeHops = c.hops ∧ c.port = 0)))) ∧
    (∃ (s : State) (h : Hw) (g : Hw), h = clearSent s.hw ∧ g.arch.posted = [] ∧ h.ident.admitted = true ∧ memberFenced h = false ∧
     holdsRole h 0 = false) ∧
    (∃ (s : State) (h : Hw) (g : Hw), h = clearSent s.hw ∧ g.arch.posted = [] ∧ ((h.ident.admitted = false ∨ holdsRole h 0 = true))) :=
  ⟨⟨(st { arch := { running := true, west := { joined := true } } }), _, {}, _, rfl, (by decide +kernel), (by decide +kernel), rfl,
     (by decide +kernel), (by decide +kernel)⟩,
   ⟨(st { arch := { running := true, east := { joined := true } } }), _, {}, _, rfl, (by decide +kernel), (by decide +kernel), rfl,
     (by decide +kernel), (by decide +kernel)⟩,
   ⟨(st { arch := { running := true, archId := 7, joinOk := true } }), _, _, fr, rfl, rfl, taken_n tg_ne rfl rfl rfl rfl⟩,
   ⟨(st { arch := { running := true, archId := 7, joinOk := true } }), _, _, fr, 3, 4, rfl, rfl, taken_n tg_ne rfl rfl rfl rfl⟩,
   ⟨(st { ident := { admitted := true }, arch := { running := true, timeSrc := some 0 } }), _, {}, _, rfl, (by decide +kernel),
     (by decide +kernel), (by decide +kernel), rfl⟩,
   ⟨(st {}), _, {}, rfl, (by decide +kernel), (by decide +kernel)⟩,
   ⟨(st { arch := { running := true, archId := 7 } }), _, _, fr, 0, 0, _, rfl, rfl, taken_b tg_ne rfl rfl rfl rfl, rfl, (by decide +kernel),
     (by decide +kernel)⟩,
   ⟨(st { ident := { admitted := true }, arch := { running := true, archId := 7, members := [(3, { st := .member, tag := tg })] } }), _, _, fr,
     0, 0, _, _, rfl, rfl, taken_b tg_ne rfl rfl rfl rfl, rfl, (by decide +kernel), from_mk rfl rfl (by decide +kernel) rfl,
     (by decide +kernel), (by decide +kernel), rfl⟩,
   ⟨(st { arch := { running := true, archId := 7, timeSeq := 5, timeHops := 0 } }), _, _, fr, 0, 0, rfl, rfl, taken_b tg_ne rfl rfl rfl rfl,
     (by decide +kernel), (by decide +kernel), (by decide +kernel)⟩,
   ⟨(st { ident := { admitted := true } }), _, {}, rfl, (by decide +kernel), (by decide +kernel), (by decide +kernel), (by decide +kernel)⟩,
   ⟨(st {}), _, {}, rfl, (by decide +kernel), (by decide +kernel)⟩⟩

theorem wit_AdmissionRows :
    (∃ (s : State) (h : Hw) (g : Hw) (c : Cw) (d : Nat) (pos : Nat) (a : Attest) (w : Wait → Bool), h = clearSent s.hw ∧ Taken h c 0x07
     (.directed d) [a.verdict] g ∧ outsider g = false ∧ holdsRole g 1 = true ∧ g.efano.ready = true ∧ admitting g c.tag = some pos ∧ (w =
     (fun x => decide (x = Wait.admission c.tag pos))) ∧ ((policyOk g a = false ∨ a.verdict = 1))) ∧
    (∃ (s : State) (h : Hw) (g : Hw) (c : Cw) (d : Nat) (pos : Nat) (a : Attest) (w : Wait → Bool), h = clearSent s.hw ∧ Taken h c 0x07
     (.directed d) [a.verdict] g ∧ outsider g = false ∧ holdsRole g 1 = true ∧ g.efano.ready = true ∧ admitting g c.tag = some pos ∧ (w =
     (fun x => decide (x = Wait.admission c.tag pos))) ∧ policyOk g a = true ∧ a.verdict = 2) ∧
    (∃ (s : State) (h : Hw) (g : Hw) (c : Cw) (d : Nat) (pos : Nat) (a : Attest) (w : Wait → Bool), h = clearSent s.hw ∧ Taken h c 0x07
     (.directed d) [a.verdict] g ∧ outsider g = false ∧ holdsRole g 1 = true ∧ g.efano.ready = true ∧ admitting g c.tag = some pos ∧ (w =
     (fun x => decide (x = Wait.admission c.tag pos))) ∧ policyOk g a = true ∧ a.verdict = 3) ∧
    (∃ (s : State) (h : Hw) (g : Hw) (c : Cw) (d : Nat) (pos : Nat) (a : Attest) (w : Wait → Bool), h = clearSent s.hw ∧ Taken h c 0x07
     (.directed d) [a.verdict] g ∧ outsider g = false ∧ holdsRole g 1 = true ∧ g.efano.ready = true ∧ admitting g c.tag = some pos ∧ (w =
     (fun x => decide (x = Wait.admission c.tag pos))) ∧ policyOk g a = true ∧ a.verdict = 0) ∧
    (∃ (s : State) (h : Hw) (g : Hw) (c : Cw) (d : Nat) (a : Attest) (w : Wait → Bool), h = clearSent s.hw ∧ Taken h c 0x07 (.directed d)
     [a.verdict] g ∧ outsider g = true ∧ g.efano.ready = true ∧ (w = (fun x => decide (x = Wait.join))) ∧ waitsFor g w = true ∧ a.verdict =
     0 ∧ a.chainOk = false) ∧
    (∃ (s : State) (h : Hw) (g : Hw) (c : Cw) (d : Nat) (a : Attest) (w : Wait → Bool), h = clearSent s.hw ∧ Taken h c 0x07 (.directed d)
     [a.verdict] g ∧ outsider g = true ∧ g.efano.ready = true ∧ (w = (fun x => decide (x = Wait.join))) ∧ waitsFor g w = true ∧ a.verdict =
     0 ∧ a.chainOk = true ∧ ((g.arch.expect = 0 ∨ g.arch.expect = c.archId)) ∧ ((g.arch.accepts = [] ∨ a.digest ∈ g.arch.accepts)) ∧
     g.arch.archTb = none) ∧
    (∃ (s : State) (h : Hw) (g : Hw) (c : Cw) (d : Nat) (a : Attest) (w : Wait → Bool) (x : Int), h = clearSent s.hw ∧ Taken h c 0x07
     (.directed d) [a.verdict] g ∧ outsider g = true ∧ g.efano.ready = true ∧ (w = (fun x => decide (x = Wait.join))) ∧ waitsFor g w = true
     ∧ a.verdict = 0 ∧ a.chainOk = true ∧ ((g.arch.expect = 0 ∨ g.arch.expect = c.archId)) ∧ ((g.arch.accepts = [] ∨ a.digest ∈
     g.arch.accepts)) ∧ aheadBy g = some x ∧ 1000000000 < x) ∧
    (∃ (s : State) (h : Hw) (g : Hw) (c : Cw) (d : Nat) (a : Attest) (w : Wait → Bool) (x : Int), h = clearSent s.hw ∧ Taken h c 0x07
     (.directed d) [a.verdict] g ∧ outsider g = true ∧ g.efano.ready = true ∧ (w = (fun x => decide (x = Wait.join))) ∧ waitsFor g w = true
     ∧ a.verdict = 0 ∧ a.chainOk = true ∧ ((g.arch.expect = 0 ∨ g.arch.expect = c.archId)) ∧ ((g.arch.accepts = [] ∨ a.digest ∈
     g.arch.accepts)) ∧ aheadBy g = some x ∧ 1000 < x ∧ x ≤ 1000000000) ∧
    (∃ (s : State) (h : Hw) (g : Hw) (c : Cw) (d : Nat) (a : Attest) (w : Wait → Bool) (x : Int), h = clearSent s.hw ∧ Taken h c 0x07
     (.directed d) [a.verdict] g ∧ outsider g = true ∧ g.efano.ready = true ∧ (w = (fun x => decide (x = Wait.join))) ∧ waitsFor g w = true
     ∧ a.verdict = 0 ∧ a.chainOk = true ∧ ((g.arch.expect = 0 ∨ g.arch.expect = c.archId)) ∧ ((g.arch.accepts = [] ∨ a.digest ∈
     g.arch.accepts)) ∧ aheadBy g = some x ∧ x ≤ 1000) ∧
    (∃ (s : State) (h : Hw) (g : Hw) (c : Cw) (pos : Nat) (tag : Nat) (dg : List Byte), h = clearSent s.hw ∧ Taken h c 0x08 .broadcast [pos,
     tag, leNat dg] g ∧ outsider g = false ∧ fromMember g c = true) ∧
    (∃ (s : State) (h : Hw) (pos : Nat) (a : Attest), h = clearSent s.hw ∧ h.efano.ready = true ∧ holdsRole h 1 = true ∧ pos ≠
     h.ident.position ∧ (memberAt h pos).st ≠ MemberSt.none ∧ policyOk h a = true) ∧
    (∃ (s : State) (h : Hw) (pos : Nat) (a : Attest), ∃ o, h = clearSent s.hw ∧ h.efano.ready = true ∧ holdsRole h 1 = true ∧ pos ≠
     h.ident.position ∧ (memberAt h pos).st ≠ MemberSt.none ∧ policyOk h a = false ∧ o = memberGone (broadcast h 0x0B [pos, 4], s.mem) pos
     h.arch.seq (some 4)) ∧
    (∃ (s : State) (h : Hw) (pos : Nat) (a : Attest), h = clearSent s.hw ∧ holdsRole h 1 = false ∧ h.ident.admitted = true ∧ memberFenced h
     = false ∧ pos = h.ident.position ∧ a.verdict = 0) ∧
    (∃ (s : State) (h : Hw) (g : Hw) (c : Cw) (pos : Nat) (tag : Nat) (dg : List Byte), h = clearSent s.hw ∧ Taken h c 0x08 .broadcast [pos,
     tag, leNat dg] g ∧ g.ident.admitted = false ∧ g.ident.bench = false ∧ tag = Config.deviceTag.toNat ∧ waitsFor g (fun w => decide (w =
     Wait.join)) = true ∧ pos < 256) ∧
    (∃ (s : State) (h : Hw) (g : Hw) (c : Cw) (pos : Nat) (tag : Nat) (dg : List Byte), h = clearSent s.hw ∧ Taken h c 0x08 .broadcast [pos,
     tag, leNat dg] g ∧ outsider g = true ∧ (g.ident.bench = true ∨ tag ≠ Config.deviceTag.toNat ∨ waitsFor g (fun w => decide (w =
     Wait.join)) = false)) :=
  ⟨⟨(st
     { ident := { admitted := true, position := 2 }, arch := { running := true, archId := 7, admitter := some 2, policy := [[1]] }, efano := { ready := true, boxes := [(17, { reqs := [{ rq 0x0B04 [] with begun := true, wait := .admission tg 0 }] })] } }),
     _, _, fu, _, _, { chainOk := false, digest := [1], secVer := 0, benchSeen := false, kaLost := false, alias_ := [] }, _, rfl, taken_d
     tg_ne rfl rfl rfl rfl, (by decide +kernel), (by decide +kernel), (by decide +kernel), admitting_zero (.head _) rfl rfl, rfl,
     (by decide +kernel)⟩,
   ⟨(st
     { ident := { admitted := true, position := 2 }, arch := { running := true, archId := 7, admitter := some 2, policy := [[1]] }, efano := { ready := true, boxes := [(17, { reqs := [{ rq 0x0B04 [] with begun := true, wait := .admission tg 0 }] })] } }),
     _, _, fu, _, _, { chainOk := true, digest := [1], secVer := 0, benchSeen := false, kaLost := false, alias_ := [], verdict := 2 }, _,
     rfl, taken_d tg_ne rfl rfl rfl rfl, (by decide +kernel), (by decide +kernel), (by decide +kernel), admitting_zero (.head _) rfl rfl,
     rfl, (by decide +kernel), (by decide +kernel)⟩,
   ⟨(st
     { ident := { admitted := true, position := 2 }, arch := { running := true, archId := 7, admitter := some 2, policy := [[1]] }, efano := { ready := true, boxes := [(17, { reqs := [{ rq 0x0B04 [] with begun := true, wait := .admission tg 0 }] })] } }),
     _, _, fu, _, _, { chainOk := true, digest := [1], secVer := 0, benchSeen := false, kaLost := false, alias_ := [], verdict := 3 }, _,
     rfl, taken_d tg_ne rfl rfl rfl rfl, (by decide +kernel), (by decide +kernel), (by decide +kernel), admitting_zero (.head _) rfl rfl,
     rfl, (by decide +kernel), (by decide +kernel)⟩,
   ⟨(st
     { ident := { admitted := true, position := 2 }, arch := { running := true, archId := 7, admitter := some 2, policy := [[1]] }, efano := { ready := true, boxes := [(17, { reqs := [{ rq 0x0B04 [] with begun := true, wait := .admission tg 0 }] })] } }),
     _, _, fu, _, _, { chainOk := true, digest := [1], secVer := 0, benchSeen := false, kaLost := false, alias_ := [] }, _, rfl, taken_d
     tg_ne rfl rfl rfl rfl, (by decide +kernel), (by decide +kernel), (by decide +kernel), admitting_zero (.head _) rfl rfl, rfl,
     (by decide +kernel), (by decide +kernel)⟩,
   ⟨(st
     { arch := { running := true }, efano := { ready := true, boxes := [(17, { reqs := [{ rq 0x0B03 [] with running := true, wait := .join }] })] } }),
     _, _, fr, _, { chainOk := false, digest := [1], secVer := 0, benchSeen := false, kaLost := false, alias_ := [] }, _, rfl, taken_d tg_ne
     rfl rfl rfl rfl, (by decide +kernel), (by decide +kernel), rfl, (by decide +kernel), (by decide +kernel), (by decide +kernel)⟩,
   ⟨(st
     { arch := { running := true }, efano := { ready := true, boxes := [(17, { reqs := [{ rq 0x0B03 [] with running := true, wait := .join }] })] } }),
     _, _, fr, _, { chainOk := true, digest := [1], secVer := 0, benchSeen := false, kaLost := false, alias_ := [] }, _, rfl, taken_d tg_ne
     rfl rfl rfl rfl, (by decide +kernel), (by decide +kernel), rfl, (by decide +kernel), (by decide +kernel), (by decide +kernel),
     (by decide +kernel), (by decide +kernel), (by decide +kernel)⟩,
   ⟨(st
     { tb := { now := 1000000001 }, arch := { running := true, archTb := some (0, 1000000001) }, efano := { ready := true, boxes := [(17, { reqs := [{ rq 0x0B03 [] with running := true, wait := .join }] })] } }),
     _, _, fr, _, { chainOk := true, digest := [1], secVer := 0, benchSeen := false, kaLost := false, alias_ := [] }, _, 1000000001, rfl,
     taken_d tg_ne rfl rfl rfl rfl, (by decide +kernel), (by decide +kernel), rfl, (by decide +kernel), (by decide +kernel),
     (by decide +kernel), (by decide +kernel), (by decide +kernel), by decide +kernel, (by decide +kernel)⟩,
   ⟨(st
     { tb := { now := 1001 }, arch := { running := true, archTb := some (0, 1001) }, efano := { ready := true, boxes := [(17, { reqs := [{ rq 0x0B03 [] with running := true, wait := .join }] })] } }),
     _, _, fr, _, { chainOk := true, digest := [1], secVer := 0, benchSeen := false, kaLost := false, alias_ := [] }, _, 1001, rfl, taken_d
     tg_ne rfl rfl rfl rfl, (by decide +kernel), (by decide +kernel), rfl, (by decide +kernel), (by decide +kernel), (by decide +kernel),
     (by decide +kernel), (by decide +kernel), by decide +kernel, (by decide +kernel), (by decide +kernel)⟩,
   ⟨(st
     { tb := { now := 1000 }, arch := { running := true, archTb := some (0, 1000) }, efano := { ready := true, boxes := [(17, { reqs := [{ rq 0x0B03 [] with running := true, wait := .join }] })] } }),
     _, _, fr, _, { chainOk := true, digest := [1], secVer := 0, benchSeen := false, kaLost := false, alias_ := [] }, _, 1000, rfl, taken_d
     tg_ne rfl rfl rfl rfl, (by decide +kernel), (by decide +kernel), rfl, (by decide +kernel), (by decide +kernel), (by decide +kernel),
     (by decide +kernel), (by decide +kernel), by decide +kernel, (by decide +kernel)⟩,
   ⟨(st { ident := { admitted := true }, arch := { running := true, archId := 7, members := [(3, { st := .member, tag := tg })] } }), _, _,
     fr, 255, 4, [1], rfl, taken_b tg_ne rfl rfl rfl rfl, (by decide +kernel), from_mk rfl rfl (by decide +kernel) rfl⟩,
   ⟨(st
     { ident := { admitted := true }, arch := { admitter := some 0, policy := [[1]], members := [(3, { st := .member })] }, efano := { ready := true } }),
     _, 3, { chainOk := true, digest := [1], secVer := 0, benchSeen := false, kaLost := false, alias_ := [] }, rfl, (by decide +kernel),
     (by decide +kernel), (by decide +kernel), (by decide +kernel), (by decide +kernel)⟩,
   ⟨(st { ident := { admitted := true }, arch := { admitter := some 0, members := [(3, { st := .member })] }, efano := { ready := true } }),
     _, 3, { chainOk := true, digest := [1], secVer := 0, benchSeen := false, kaLost := false, alias_ := [] }, _, rfl, (by decide +kernel),
     (by decide +kernel), (by decide +kernel), (by decide +kernel), (by decide +kernel), rfl⟩,
   ⟨(st { ident := { admitted := true } }), _, 0,
     { chainOk := true, digest := [1], secVer := 0, benchSeen := false, kaLost := false, alias_ := [] }, rfl, (by decide +kernel),
     (by decide +kernel), (by decide +kernel), (by decide +kernel), (by decide +kernel)⟩,
   ⟨(st
     { arch := { running := true }, efano := { ready := true, boxes := [(17, { reqs := [{ rq 0x0B03 [] with running := true, wait := .join }] })] } }),
     _, _, fr, 255, Config.deviceTag.toNat, [1], rfl, taken_b tg_ne rfl rfl rfl rfl, (by decide +kernel), (by decide +kernel), rfl,
     (by decide +kernel), (by decide +kernel)⟩,
   ⟨(st
     { ident := { bench := true }, arch := { running := true }, efano := { ready := true, boxes := [(17, { reqs := [{ rq 0x0B03 [] with running := true, wait := .join }] })] } }),
     _, _, fr, 255, 4, [1], rfl, taken_b tg_ne rfl rfl rfl rfl, (by decide +kernel), (.inl rfl)⟩⟩

theorem wit_MembershipEndRows :
    (∃ (s : State) (h : Hw) (g : Hw) (c : Cw) (pos : Nat), h = clearSent s.hw ∧ Taken h c 0x09 .broadcast [pos] g ∧ fromMember g c = true ∧
     pos ≠ g.ident.position ∧ (memberAt g pos).st ≠ MemberSt.none) ∧
    (∃ (s : State) (h : Hw) (g : Hw) (c : Cw) (pos : Nat), ∃ o, h = clearSent s.hw ∧ Taken h c 0x09 .broadcast [pos] g ∧ fromMember g c = true ∧
     pos = g.ident.position ∧ ownRoles g = 0 ∧ (memberAt g pos).st = MemberSt.member ∧ o = beginDepart (g, s.mem)) ∧
    (∃ (s : State) (h : Hw) (g : Hw) (c : Cw) (pos : Nat), ∃ o, h = clearSent s.hw ∧ Taken h c 0x0A .broadcast [pos] g ∧ fromMember g c = true ∧
     o = memberGone (g, s.mem) pos c.seq none) ∧
    (∃ (s : State) (h : Hw) (g : Hw) (c : Cw) (pos : Nat), h = clearSent s.hw ∧ Taken h c 0x0A .broadcast [pos] g ∧ fromMember g c = true ∧
     (memberAt g pos).st = MemberSt.none ∧ g.arch.posted = []) ∧
    (∃ (s : State) (h : Hw) (g : Hw) (c : Cw) (pos : Nat) (re : Nat), h = clearSent s.hw ∧ Taken h c 0x0B .broadcast [pos, re] g ∧
     fromMember g c = true ∧ pos = g.ident.position) ∧
    (∃ (s : State) (h : Hw) (g : Hw) (c : Cw) (pos : Nat) (re : Nat), ∃ o, h = clearSent s.hw ∧ Taken h c 0x0B .broadcast [pos, re] g ∧
     fromMember g c = true ∧ pos ≠ g.ident.position ∧ o = memberGone (g, s.mem) pos c.seq (some re)) ∧
    (∃ (s : State) (h : Hw) (g : Hw) (c : Cw), ∃ o, h = clearSent s.hw ∧ Taken h c 0x0C .broadcast [] g ∧ fromMember g c = true ∧
     holdsRole g 1 = false ∧ o = memberGone (g, s.mem) c.origin c.seq (some 3)) ∧
    (∃ (s : State) (h : Hw) (g : Hw) (c : Cw), ∃ o, h = clearSent s.hw ∧ Taken h c 0x0C .broadcast [] g ∧ fromMember g c = true ∧
     holdsRole g 1 = true ∧ c.origin ≠ g.ident.position ∧
     o = memberGone (broadcast g 0x0B [c.origin, 3], s.mem) c.origin g.arch.seq (some 3)) ∧
    (∃ (s : State) (h : Hw) (g : Hw) (c : Cw), ∃ u v o, h = clearSent s.hw ∧ Taken h c 0x0D .broadcast [] g ∧ fromMember g c = true ∧
     c.origin ≠ g.ident.position ∧ u = setMember g c.origin { memberAt g c.origin with st := .fenced } ∧
     (v = breakRemote (breakCross u (fun n => bitOf (knotAt u n).members c.origin)) (fun _ p => decide (p = c.origin))) ∧
     holdsRole v 1 = true ∧ v.ident = g.ident ∧ (memberAt v c.origin).st ≠ MemberSt.none ∧
     o = memberGone (broadcast v 0x0B [c.origin, 2], s.mem) c.origin v.arch.seq (some 2)) ∧
    (∃ (s : State) (h : Hw) (g : Hw) (c : Cw), ∃ u v, h = clearSent s.hw ∧ Taken h c 0x0D .broadcast [] g ∧ fromMember g c = true ∧
     u = setMember g c.origin { memberAt g c.origin with st := .fenced } ∧
     (v = breakRemote (breakCross u (fun n => bitOf (knotAt u n).members c.origin)) (fun _ p => decide (p = c.origin))) ∧
     holdsRole v 1 = false) ∧
    (∃ (s : State) (h : Hw) (pos : Nat), ∃ u o, h = clearSent s.hw ∧
     u = { h with tb := { h.tb with now := max h.tb.now ((memberAt h pos).lastSeen + 3000000) } } ∧ holdsRole h 1 = true ∧
     (ownUp u).contains pos = false ∧ ((∀ e, e ∈ u.arch.members → e.1 ≠ pos → pos ∉ e.2.upTo)) ∧ (memberAt h pos).st ≠ MemberSt.none ∧
     pos ≠ h.ident.position ∧ o = memberGone (broadcast u 0x0B [pos, 1], s.mem) pos h.arch.seq (some 1)) ∧
    (∃ (s : State) (h : Hw), h = clearSent s.hw ∧ holdsRole h 1 = false) :=
  ⟨⟨(st { ident := { admitted := true }, arch := { running := true, archId := 7, members := [(0, { st := .member }), (3, { st := .member, tag := tg })] } }),
     _, _, fr, 3, rfl, taken_b tg_ne rfl rfl rfl rfl, from_mk rfl rfl (by decide +kernel) rfl, (by decide +kernel), (by decide +kernel)⟩,
   ⟨(st { ident := { admitted := true }, arch := { running := true, archId := 7, members := [(0, { st := .member }), (3, { st := .member, tag := tg })] } }),
     _, _, fr, 0, _, rfl, taken_b tg_ne rfl rfl rfl rfl, from_mk rfl rfl (by decide +kernel) rfl, (by decide +kernel), (by decide +kernel),
     (by decide +kernel), rfl⟩,
   ⟨(st { ident := { admitted := true }, arch := { running := true, archId := 7, members := [(0, { st := .member }), (3, { st := .member, tag := tg })] } }),
     _, _, fr, 0, _, rfl, taken_b tg_ne rfl rfl rfl rfl, from_mk rfl rfl (by decide +kernel) rfl, rfl⟩,
   ⟨(st { ident := { admitted := true }, arch := { running := true, archId := 7, members := [(0, { st := .member }), (3, { st := .member, tag := tg })] } }),
     _, _, fr, 9, rfl, taken_b tg_ne rfl rfl rfl rfl, from_mk rfl rfl (by decide +kernel) rfl, (by decide +kernel), (by decide +kernel)⟩,
   ⟨(st { ident := { admitted := true }, arch := { running := true, archId := 7, members := [(0, { st := .member }), (3, { st := .member, tag := tg })] } }),
     _, _, fr, 0, 1, rfl, taken_b tg_ne rfl rfl rfl rfl, from_mk rfl rfl (by decide +kernel) rfl, (by decide +kernel)⟩,
   ⟨(st { ident := { admitted := true }, arch := { running := true, archId := 7, members := [(0, { st := .member }), (3, { st := .member, tag := tg })] } }),
     _, _, fr, 3, 1, _, rfl, taken_b tg_ne rfl rfl rfl rfl, from_mk rfl rfl (by decide +kernel) rfl, (by decide +kernel), rfl⟩,
   ⟨(st { ident := { admitted := true }, arch := { running := true, archId := 7, members := [(0, { st := .member }), (3, { st := .member, tag := tg })] } }),
     _, _, fr, _, rfl, taken_b tg_ne rfl rfl rfl rfl, from_mk rfl rfl (by decide +kernel) rfl, (by decide +kernel), rfl⟩,
   ⟨(st { ident := { admitted := true }, arch := { running := true, archId := 7, admitter := some 0, members := [(0, { st := .member }), (3, { st := .member, tag := tg })] } }),
     _, _, fr, _, rfl, taken_b tg_ne rfl rfl rfl rfl, from_mk rfl rfl (by decide +kernel) rfl, (by decide +kernel), (by decide +kernel),
     rfl⟩,
   ⟨(st { ident := { admitted := true }, arch := { running := true, archId := 7, admitter := some 0, members := [(0, { st := .member }), (3, { st := .member, tag := tg })] } }),
     _, _, fr, _, _, _, rfl, taken_b tg_ne rfl rfl rfl rfl, from_mk rfl rfl (by decide +kernel) rfl, (by decide +kernel), rfl, rfl,
     (by decide +kernel), (by decide +kernel), (by decide +kernel), rfl⟩,
   ⟨(st { ident := { admitted := true }, arch := { running := true, archId := 7, members := [(0, { st := .member }), (3, { st := .member, tag := tg })] } }),
     _, _, fr, _, _, rfl, taken_b tg_ne rfl rfl rfl rfl, from_mk rfl rfl (by decide +kernel) rfl, rfl, rfl, (by decide +kernel)⟩,
   ⟨(st { ident := { admitted := true }, arch := { running := true, archId := 7, admitter := some 0, members := [(0, { st := .member }), (3, { st := .member, tag := tg })] } }),
     _, 3, _, _, rfl, rfl, (by decide +kernel), (by decide +kernel), (by decide +kernel), (by decide +kernel), (by decide +kernel), rfl⟩,
   ⟨(st {}), _, rfl, (by decide +kernel)⟩⟩

theorem wit_RoleRows :
    (∃ (s : State) (h : Hw) (g : Hw) (c : Cw) (d : Nat) (r : Nat), h = clearSent s.hw ∧ Taken h c 0x10 (.directed d) [0, r, 0] g ∧
     fromMember g c = true ∧ g.efano.ready = true ∧ r ≤ 1 ∧ holdsRole g r = true ∧ ((∀ x, x ∈ g.arch.rolePend → x.1 ≠ r))) ∧
    (∃ (s : State) (h : Hw) (g : Hw) (c : Cw) (d : Nat) (r : Nat) (x : Nat × Nat × Nat × Nat) (xs : List (Nat × Nat × Nat × Nat)),
     h = clearSent s.hw ∧ Taken h c 0x10 (.directed d) [0, r, 0] g ∧ fromMember g c = true ∧ g.efano.ready = true ∧ r ≤ 1 ∧
     holdsRole g r = true ∧ g.arch.rolePend = x :: xs ∧ x.1 = r ∧ x.2.2.1 ≤ c.origin) ∧
    (∃ (s : State) (h : Hw) (g : Hw) (c : Cw) (d : Nat) (r : Nat) (x : Nat × Nat × Nat × Nat), ∃ k, h = clearSent s.hw ∧
     Taken h c 0x10 (.directed d) [0, r, 0] g ∧ fromMember g c = true ∧ g.efano.ready = true ∧ r ≤ 1 ∧ holdsRole g r = true ∧
     g.arch.rolePend = [x] ∧ x.1 = r ∧ c.origin < x.2.2.1 ∧
     k = direct { g with arch := { g.arch with rolePend := [] } } 0x10 x.2.2.1 [2, r, 0]) ∧
    (∃ (s : State) (h : Hw) (g : Hw) (c : Cw) (d : Nat) (p : Nat), h = clearSent s.hw ∧ Taken h c 0x10 (.directed d) [0, 2, p] g ∧
     fromMember g c = true ∧ g.efano.ready = true ∧ (linkAt g p).st = LinkSt.active ∧ (linkAt g p).peer = c.origin ∧
     (waitsFor g (fun w => decide (w = Wait.role 2 p)) = true) ∧ g.ident.position < c.origin) ∧
    (∃ (s : State) (h : Hw) (g : Hw) (c : Cw) (d : Nat) (r : Nat), h = clearSent s.hw ∧ Taken h c 0x10 (.directed d) [1, r, 0] g ∧
     fromMember g c = true ∧ g.efano.ready = true ∧ r ≤ 1 ∧ (waitsFor g (fun w => decide (w = Wait.role r 0)) = true)) ∧
    (∃ (s : State) (h : Hw) (g : Hw) (c : Cw) (d : Nat) (p : Nat), h = clearSent s.hw ∧ Taken h c 0x10 (.directed d) [1, 2, p] g ∧
     fromMember g c = true ∧ g.efano.ready = true ∧ (waitsFor g (fun w => decide (w = Wait.role 2 p)) = true)) ∧
    (∃ (s : State) (h : Hw) (g : Hw) (c : Cw) (d : Nat) (r : Nat) (p : Nat), h = clearSent s.hw ∧ Taken h c 0x10 (.directed d) [2, r, p] g ∧
     fromMember g c = true ∧ g.efano.ready = true ∧ (waitsFor g (fun w => decide (w = Wait.role r p)) = true)) ∧
    (∃ (s : State) (h : Hw) (r : Nat) (q : Nat) (n : Nat), ∃ u, h = clearSent s.hw ∧ h.ident.admitted = true ∧ r ≤ 1 ∧ roleHolder h r = some q ∧
     q ≠ h.ident.position ∧ (memberAt h q).st = MemberSt.member ∧
     u = { h with tb := { h.tb with now := max h.tb.now ((memberAt h q).lastSeen + 3000000) } } ∧ n < 256 ∧ presentMember u n = true ∧
     ((∀ k, k < n → presentMember u k = false)) ∧ n ≠ q) ∧
    (∃ (s : State) (h : Hw) (r : Nat) (q : Nat) (n : Nat), h = clearSent s.hw ∧ h.ident.admitted = true ∧ r ≤ 1 ∧ roleHolder h r = some q ∧
     presentMember h q = false ∧
     (((q ≠ h.ident.position ∧ ((memberAt h q).st = MemberSt.none ∨ (memberAt h q).st = MemberSt.fenced)) ∨ q = h.ident.position)) ∧
     n < 256 ∧ presentMember h n = true ∧ ((∀ k, k < n → presentMember h k = false))) ∧
    (∃ (s : State) (h : Hw) (g : Hw) (c : Cw) (num : Nat) (at_ : Nat) (es : List (Nat × Nat)), h = clearSent s.hw ∧
     (Taken h c 0x11 .broadcast ([num, c.origin, at_] ++ es.flatMap (fun e => [e.1, e.2])) g) ∧ fromMember g c = true) ∧
    (∃ (s : State) (h : Hw) (q : Plan), ∃ u, h = clearSent s.hw ∧ h.arch.nextPlan = some q ∧
     u = { h with tb := { h.tb with now := max h.tb.now q.at_ } }) ∧
    (∃ (s : State) (h : Hw), h = clearSent s.hw ∧ h.arch.nextPlan = none) ∧
    (∃ (s : State) (h : Hw) (g : Hw) (c : Cw) (n : Nat), h = clearSent s.hw ∧ Taken h c 0x12 .broadcast [n, 1] g ∧ fromMember g c = true) ∧
    (∃ (s : State) (h : Hw) (g : Hw) (c : Cw) (n : Nat), h = clearSent s.hw ∧ Taken h c 0x12 .broadcast [n, 0] g ∧ fromMember g c = true) :=
  ⟨⟨(st { ident := { admitted := true }, efano := { ready := true }, arch := { running := true, archId := 7, members := [(0, { st := .member }), (3, { st := .member, tag := tg })], admitter := some 0 } }),
     _, _, fr, _, 1, rfl, taken_d tg_ne rfl rfl rfl rfl, from_mk rfl rfl (by decide +kernel) rfl, (by decide +kernel), (by decide +kernel),
     (by decide +kernel), (by decide +kernel)⟩,
   ⟨(st { ident := { admitted := true }, efano := { ready := true }, arch := { running := true, archId := 7, members := [(0, { st := .member }), (3, { st := .member, tag := tg })], admitter := some 0, rolePend := [(1, 0, 3, 0)] } }),
     _, _, fr, _, 1, (1, 0, 3, 0), [], rfl, taken_d tg_ne rfl rfl rfl rfl, from_mk rfl rfl (by decide +kernel) rfl, (by decide +kernel),
     (by decide +kernel), (by decide +kernel), rfl, (by decide +kernel), (by decide +kernel)⟩,
   ⟨(st { ident := { admitted := true }, efano := { ready := true }, arch := { running := true, archId := 7, members := [(0, { st := .member }), (3, { st := .member, tag := tg })], admitter := some 0, rolePend := [(1, 0, 4, 0)] } }),
     _, _, fr, _, 1, (1, 0, 4, 0), _, rfl, taken_d tg_ne rfl rfl rfl rfl, from_mk rfl rfl (by decide +kernel) rfl, (by decide +kernel),
     (by decide +kernel), (by decide +kernel), rfl, (by decide +kernel), (by decide +kernel), rfl⟩,
   ⟨(st { ident := { admitted := true }, efano := { ready := true, boxes := [(17, { reqs := [{ rq 0x0B07 [] with begun := true, wait := .role 2 1 }] })] }, arch := { running := true, archId := 7, members := [(0, { st := .member }), (3, { st := .member, tag := tg })], links := [(1, { st := .active, peer := 3 })] } }),
     _, _, fr, _, 1, rfl, taken_d tg_ne rfl rfl rfl rfl, from_mk rfl rfl (by decide +kernel) rfl, (by decide +kernel), (by decide +kernel),
     (by decide +kernel), (by decide +kernel), (by decide +kernel)⟩,
   ⟨(st { ident := { admitted := true }, efano := { ready := true, boxes := [(17, { reqs := [{ rq 0x0B07 [] with begun := true, wait := .role 1 0 }] })] }, arch := { running := true, archId := 7, members := [(0, { st := .member }), (3, { st := .member, tag := tg })] } }),
     _, _, fr, _, 1, rfl, taken_d tg_ne rfl rfl rfl rfl, from_mk rfl rfl (by decide +kernel) rfl, (by decide +kernel), (by decide +kernel),
     (by decide +kernel)⟩,
   ⟨(st { ident := { admitted := true }, efano := { ready := true, boxes := [(17, { reqs := [{ rq 0x0B07 [] with begun := true, wait := .role 2 1 }] })] }, arch := { running := true, archId := 7, members := [(0, { st := .member }), (3, { st := .member, tag := tg })] } }),
     _, _, fr, _, 1, rfl, taken_d tg_ne rfl rfl rfl rfl, from_mk rfl rfl (by decide +kernel) rfl, (by decide +kernel), (by decide +kernel)⟩,
   ⟨(st { ident := { admitted := true }, efano := { ready := true, boxes := [(17, { reqs := [{ rq 0x0B07 [] with begun := true, wait := .role 2 1 }] })] }, arch := { running := true, archId := 7, members := [(0, { st := .member }), (3, { st := .member, tag := tg })] } }),
     _, _, fr, _, 2, 1, rfl, taken_d tg_ne rfl rfl rfl rfl, from_mk rfl rfl (by decide +kernel) rfl, (by decide +kernel),
     (by decide +kernel)⟩,
   ⟨(st { ident := { admitted := true }, arch := { running := true, archId := 7, members := [(0, { st := .member }), (3, { st := .member, tag := tg })], admitter := some 3 } }),
     _, 1, 3, 0, _, rfl, (by decide +kernel), (by decide +kernel), (by decide +kernel), (by decide +kernel), (by decide +kernel), rfl,
     (by decide +kernel), (by decide +kernel), (by decide +kernel), (by decide +kernel)⟩,
   ⟨(st { ident := { admitted := true, position := 3 }, arch := { running := true, archId := 7, members := [(0, { st := .member }), (3, { st := .member, tag := tg })], timeSrc := some 9 } }),
     _, 0, 9, 0, rfl, (by decide +kernel), (by decide +kernel), (by decide +kernel), (by decide +kernel), (by decide +kernel),
     (by decide +kernel), (by decide +kernel), (by decide +kernel)⟩,
   ⟨(st { ident := { admitted := true }, arch := { running := true, archId := 7, members := [(0, { st := .member }), (3, { st := .member, tag := tg })] } }),
     _, _, fr, 1, 7, [(0, 3)], rfl, taken_b tg_ne rfl rfl rfl rfl, from_mk rfl rfl (by decide +kernel) rfl⟩,
   ⟨(st { arch := { nextPlan := some { at_ := 9 } } }), _, { at_ := 9 }, _, rfl, (by decide +kernel), rfl⟩,
   ⟨(st {}), _, rfl, (by decide +kernel)⟩,
   ⟨(st { ident := { admitted := true }, arch := { running := true, archId := 7, members := [(0, { st := .member }), (3, { st := .member, tag := tg })] } }),
     _, _, fr, 1, rfl, taken_b tg_ne rfl rfl rfl rfl, from_mk rfl rfl (by decide +kernel) rfl⟩,
   ⟨(st { ident := { admitted := true }, arch := { running := true, archId := 7, members := [(0, { st := .member }), (3, { st := .member, tag := tg })] } }),
     _, _, fr, 1, rfl, taken_b tg_ne rfl rfl rfl rfl, from_mk rfl rfl (by decide +kernel) rfl⟩⟩

theorem wit_CensusAndPoolRows :
    (∃ (s : State) (h : Hw) (g : Hw) (c : Cw) (q : Nat) (ts : Nat), h = clearSent s.hw ∧ Taken h c 0x13 .broadcast [c.origin, q, ts] g ∧
     fromMember g c = true ∧ (g.arch.censuses.filter (censusOpen g)).length < 4 ∧ g.tb.now ≤ ts) ∧
    (∃ (s : State) (h : Hw) (g : Hw) (c : Cw) (q : Nat) (ts : Nat), h = clearSent s.hw ∧ Taken h c 0x13 .broadcast [c.origin, q, ts] g ∧
     fromMember g c = true ∧ 4 ≤ (g.arch.censuses.filter (censusOpen g)).length ∧ c.origin ≠ g.ident.position) ∧
    (∃ (s : State) (h : Hw) (g : Hw) (c : Cw) (q : Nat) (ts : Nat) (u : Hw), h = clearSent s.hw ∧ Taken h c 0x13 .broadcast [c.origin, q,
     ts] g ∧ fromMember g c = true ∧ (g.arch.censuses.filter (censusOpen g)).length < 4 ∧ ts < g.tb.now ∧ (u =
     { g with arch := { g.arch with censuses := g.arch.censuses.filter (fun x => !decide (x.initiator = c.origin ∧ x.seq = q)) ++ [{ initiator := c.origin, seq := q, ts := ts }] } })) ∧
    (∃ (s : State) (h : Hw) (i : Nat) (q : Nat) (x : Census), ∃ u e v, h = clearSent s.hw ∧ findCensus h i q = some x ∧ x.sampled = false ∧
     x.initiator = i ∧ i ≠ h.ident.position ∧ u = { h with tb := { h.tb with now := max h.tb.now x.ts } } ∧ e = censusEntry u i 0 false
     u.tb.now ∧ (v = setCensus u
     { x with sampled := true, mine := leNat e, late := false, members := (u.arch.members.filter (fun m => decide (m.2.st ≠ MemberSt.none))).map (·.1) })) ∧
    (∃ (s : State) (h : Hw) (i : Nat) (q : Nat) (x : Census), h = clearSent s.hw ∧ findCensus h i q = some x ∧ x.sampled = true) ∧
    (∃ (s : State) (h : Hw) (g : Hw) (c : Cw) (d : Nat) (q : Nat) (e : List Byte) (x : Census), h = clearSent s.hw ∧ Taken h c 0x14
     (.directed d) [q, 0, leNat e] g ∧ findCensus g g.ident.position q = some x ∧ x.done = false ∧ fromMember g c = true ∧ c.resent = false) ∧
    (∃ (s : State) (h : Hw) (g : Hw) (c : Cw) (d : Nat) (q : Nat) (p : Nat) (x : Census), h = clearSent s.hw ∧ Taken h c 0x14 (.directed d)
     [q, 1, p] g ∧ findCensus g g.ident.position q = some x ∧ x.done = false ∧ fromMember g c = true ∧ x.marks.length < 8) ∧
    (∃ (s : State) (h : Hw) (q : Nat) (x : Census), h = clearSent s.hw ∧ findCensus h h.ident.position q = some x ∧ x.done = false ∧
     x.sampled = true ∧ ((∀ k, k ∈ x.members → tabGet 0 x.entries k ≠ 0 ∨ cutOff x (memberAt h k).ringEast = true))) ∧
    (∃ (s : State) (h : Hw) (q : Nat) (x : Census) (k : Nat), ∃ u, h = clearSent s.hw ∧ findCensus h h.ident.position q = some x ∧ x.done =
     false ∧ x.sampled = true ∧ k ∈ x.members ∧ tabGet 0 x.entries k = 0 ∧ cutOff x (memberAt h k).ringEast = false ∧ u =
     { h with tb := { h.tb with now := max h.tb.now (x.ts + 10000000) } }) ∧
    (∃ (s : State) (h : Hw) (g : Hw) (c : Cw) (n : Nat) (looms : Nat) (w : Nat) (a : List (Nat × Nat)), h = clearSent s.hw ∧ (Taken h c 0x15
     .broadcast ([n, looms, a.length, w] ++ a.flatMap (fun e => [e.1, e.2])) g) ∧ fromMember g c = true ∧ g.power.epochRun = false ∧ ((∀ f,
     f ∈ g.power.frames → f.position ≠ c.origin))) ∧
    (∃ (s : State) (h : Hw) (g : Hw) (c : Cw) (d : Nat) (n : Nat) (w : Nat) (t : Nat), h = clearSent s.hw ∧ Taken h c 0x16 (.directed d) [d,
     n, w, t] g ∧ fromMember g c = true ∧ takesPart g = true ∧ n = g.power.poolSet ∧ g.tb.now < t + 4000000) ∧
    (∃ (s : State) (h : Hw) (g : Hw) (c : Cw) (d : Nat) (n : Nat) (w : Nat) (t : Nat), h = clearSent s.hw ∧ Taken h c 0x16 (.directed d) [d,
     n, w, t] g ∧ ((takesPart g = false ∨ n ≠ g.power.poolSet ∨ t + 4000000 ≤ g.tb.now))) ∧
    (∃ (s : State) (h : Hw) (g : Hw) (c : Cw) (t : Nat), h = clearSent s.hw ∧ Taken h c 0x17 (.directed t) [t] g ∧ g.start.st ≠
     PowerSt.dormant) ∧
    (∃ (s : State) (h : Hw) (g : Hw) (c : Cw) (t : Nat), ∃ u, h = clearSent s.hw ∧ Taken h c 0x17 (.directed t) [t] g ∧ g.start.st =
     PowerSt.dormant ∧ g.start.image = some g.keep.sealKey ∧ (u = retrainPorts
     { g with memhw := { g.memhw with selfRefresh := false }, start := { g.start with st := .active, since := g.tb.now, image := none } }
     (fun _ => true))) ∧
    (∃ (s : State) (h : Hw) (g : Hw) (c : Cw) (t : Nat) (w : WakeTrain), h = clearSent s.hw ∧ Taken h c 0x17 (.directed t) [t] g ∧
     g.start.st = PowerSt.dormant ∧ g.start.image = some g.keep.sealKey ∧ w.image = true ∧ w.fails = []) :=
  ⟨⟨(st { ident := { admitted := true }, arch := { running := true, archId := 7, members := [(3, { st := .member, tag := tg })] } }), _, _,
     fr, 65535, 0, rfl, taken_b tg_ne rfl rfl rfl rfl, from_mk rfl rfl (by decide +kernel) rfl, (by decide +kernel), (by decide +kernel)⟩,
   ⟨(st
     { ident := { admitted := true }, arch := { running := true, archId := 7, members := [(3, { st := .member, tag := tg })], censuses := List.replicate 4 { initiator := 3, seq := 0, ts := 0 } } }),
     _, _, fr, 1, 0, rfl, taken_b tg_ne rfl rfl rfl rfl, from_mk rfl rfl (by decide +kernel) rfl, (by decide +kernel), (by decide +kernel)⟩,
   ⟨(st
     { ident := { admitted := true }, tb := { now := 1 }, arch := { running := true, archId := 7, members := [(3, { st := .member, tag := tg })] } }),
     _, _, fr, 1, 0, _, rfl, taken_b tg_ne rfl rfl rfl rfl, from_mk rfl rfl (by decide +kernel) rfl, (by decide +kernel),
     (by decide +kernel), rfl⟩,
   ⟨(st { ident := { admitted := true }, arch := { censuses := [{ initiator := 3, seq := 1, ts := 9 }] } }), _, 3, 1, _, _, _, _, rfl, rfl,
     (by decide +kernel), (by decide +kernel), (by decide +kernel), rfl, rfl, rfl⟩,
   ⟨(st { arch := { censuses := [{ initiator := 3, seq := 1, ts := 9, sampled := true }] } }), _, 3, 1, _, rfl, rfl, (by decide +kernel)⟩,
   ⟨(st
     { ident := { admitted := true }, arch := { running := true, archId := 7, members := [(3, { st := .member, tag := tg })], censuses := [{ initiator := 0, seq := 1, ts := 9 }] } }),
     _, _, fr, _, 1, [1], _, rfl, taken_d tg_ne rfl rfl rfl rfl, rfl, (by decide +kernel), from_mk rfl rfl (by decide +kernel) rfl,
     (by decide +kernel)⟩,
   ⟨(st
     { ident := { admitted := true }, arch := { running := true, archId := 7, members := [(3, { st := .member, tag := tg })], censuses := [{ initiator := 0, seq := 1, ts := 9, marks := List.replicate 7 (0, 0) }] } }),
     _, _, fr, _, 1, 3, _, rfl, taken_d tg_ne rfl rfl rfl rfl, rfl, (by decide +kernel), from_mk rfl rfl (by decide +kernel) rfl,
     (by decide +kernel)⟩,
   ⟨(st { arch := { censuses := [{ initiator := 0, seq := 1, ts := 9, sampled := true, members := [0], entries := [(0, 1)] }] } }), _, 1, _,
     rfl, rfl, (by decide +kernel), (by decide +kernel), (by decide +kernel)⟩,
   ⟨(st { arch := { censuses := [{ initiator := 0, seq := 1, ts := 9, sampled := true, members := [0, 3] }] } }), _, 1, _, 3, _, rfl, rfl,
     (by decide +kernel), (by decide +kernel), (by decide +kernel), (by decide +kernel), (by decide +kernel), rfl⟩,
   ⟨(st { ident := { admitted := true }, arch := { running := true, archId := 7, members := [(3, { st := .member, tag := tg })] } }), _, _,
     fr, 1, 4, 9, [(0, 1)], rfl, taken_b tg_ne rfl rfl rfl rfl, from_mk rfl rfl (by decide +kernel) rfl, (by decide +kernel),
     (by decide +kernel)⟩,
   ⟨(st
     { ident := { admitted := true }, power := { poolOn := true, poolSet := 1 }, tb := { now := 3999999 }, arch := { running := true, archId := 7, members := [(3, { st := .member, tag := tg })] } }),
     _, _, fr, _, 1, 9, 0, rfl, taken_d tg_ne rfl rfl rfl rfl, from_mk rfl rfl (by decide +kernel) rfl, (by decide +kernel),
     (by decide +kernel), (by decide +kernel)⟩,
   ⟨(st { ident := { admitted := true }, arch := { running := true, archId := 7, members := [(3, { st := .member, tag := tg })] } }), _, _,
     fr, _, 1, 9, 0, rfl, taken_d tg_ne rfl rfl rfl rfl, (by decide +kernel)⟩,
   ⟨(st { ident := { admitted := true }, arch := { running := true, archId := 7, members := [(3, { st := .member, tag := tg })] } }), _, _,
     fr, _, rfl, taken_d tg_ne rfl rfl rfl rfl, (by decide +kernel)⟩,
   ⟨(st
     { ident := { admitted := true }, start := { st := .dormant, image := some 1 }, arch := { running := true, archId := 7, members := [(3, { st := .member, tag := tg })] } }),
     _, _, fr, _, _, rfl, taken_d tg_ne rfl rfl rfl rfl, (by decide +kernel), (by decide +kernel), rfl⟩,
   ⟨(st
     { ident := { admitted := true }, keep := { sealKey := 1 }, start := { st := .dormant, image := some 1 }, arch := { running := true, archId := 7, members := [(3, { st := .member, tag := tg })] } }),
     _, _, fr, _, { image := true }, rfl, taken_d tg_ne rfl rfl rfl rfl, (by decide +kernel), rfl, (by decide +kernel), (by decide +kernel)⟩⟩

theorem wit_LinkRows :
    (∃ (s : State) (h : Hw) (n : Nat) (l : Link), h = clearSent s.hw ∧ l = linkAt h n) ∧
    (∃ (s : State) (h : Hw) (n : Nat) (l : Link), h = clearSent s.hw ∧ l = linkAt h n ∧ l.st = LinkSt.training ∧ n < portCount h) ∧
    (∃ (s : State) (h : Hw) (n : Nat) (l : Link), h = clearSent s.hw ∧ l = linkAt h n ∧ l.st ≠ LinkSt.training) ∧
    (∃ (s : State) (h : Hw) (n : Nat) (l : Link), ∃ u, h = clearSent s.hw ∧ l = linkAt h n ∧ ((l.st = LinkSt.trained ∨ l.st = LinkSt.active)) ∧
     isMember h h.ident.position = true ∧ isMember h l.peer = true ∧ l.peerArch = h.arch.archId ∧ (memberAt h l.peer).tag = l.peerTag ∧
     memberFenced h = false ∧ pkgFenced h = false ∧
     (u = { setLink h n { l with st := .active, since := if l.st = LinkSt.active then l.since else h.tb.now, key := h.free + 1, keyAt := h.tb.now, streams := tabMap {} l.streams (fun _ x => { x with gen := if l.key = 0 then x.gen else (x.gen + 1) % 128, counter := 0, sent := 0, nextGen := none }) } with free := h.free + 1 })) ∧
    (∃ (s : State) (h : Hw) (n : Nat) (l : Link), h = clearSent s.hw ∧ l = linkAt h n ∧ ((l.st = LinkSt.trained ∨ l.st = LinkSt.active)) ∧
     isMember h h.ident.position = true ∧ isMember h l.peer = true ∧ l.peerArch = h.arch.archId ∧ (memberAt h l.peer).tag = l.peerTag ∧
     memberFenced h = false ∧ pkgFenced h = false) ∧
    (∃ (s : State) (h : Hw) (n : Nat) (l : Link), h = clearSent s.hw ∧ l = linkAt h n ∧ ((l.st = LinkSt.active ∨ l.st = LinkSt.trained))) ∧
    (∃ (s : State) (h : Hw) (n : Nat) (l : Link) (q : Nat) (ok : Bool), h = clearSent s.hw ∧ l = linkAt h n ∧
     ((l.st = LinkSt.active ∨ l.st = LinkSt.trained)) ∧ ((ok = false ∨ q ≠ l.rx))) ∧
    (∃ (s : State) (h : Hw) (n : Nat) (l : Link) (q : Nat), ∃ k, h = clearSent s.hw ∧ l = linkAt h n ∧ l.st = LinkSt.active ∧
     (k = l.replay.filter (fun f => !seqBefore f.seq q)) ∧ ((∀ f, f ∈ k → f.tries < 3))) ∧
    (∃ (s : State) (h : Hw) (n : Nat) (l : Link) (q : Nat) (f : Flit), ∃ k, h = clearSent s.hw ∧ l = linkAt h n ∧ l.st = LinkSt.active ∧
     (k = l.replay.filter (fun f => !seqBefore f.seq q)) ∧ f ∈ k ∧ 3 ≤ f.tries) ∧
    (∃ (s : State) (h : Hw) (n : Nat) (l : Link), h = clearSent s.hw ∧ l = linkAt h n ∧ l.st = LinkSt.retraining) ∧
    (∃ (s : State) (h : Hw) (n : Nat) (l : Link), ∃ u, h = clearSent s.hw ∧ l = linkAt h n ∧
     ((l.st = LinkSt.retraining ∨ l.st = LinkSt.training)) ∧ ((∀ f, f ∈ l.replay → f.message = false)) ∧
     u = { h with tb := { h.tb with now := max h.tb.now (l.since + 100000000) } }) ∧
    (∃ (s : State) (h : Hw) (n : Nat) (l : Link), ∃ k, h = clearSent s.hw ∧ l = linkAt h n ∧
     ((l.st = LinkSt.trained ∨ l.st = LinkSt.active ∨ l.st = LinkSt.retraining)) ∧ k = (l.replay.filter (·.message)).length ∧ k ≠ 0 ∧
     h.ident.admitted = true) ∧
    (∃ (s : State) (h : Hw) (n : Nat) (l : Link), ∃ u, h = clearSent s.hw ∧ l = linkAt h n ∧ l.st = LinkSt.down ∧ l.off = false ∧
     u = { h with tb := { h.tb with now := max h.tb.now (l.since + 1000000000) } }) ∧
    (∃ (s : State) (h : Hw) (n : Nat) (l : Link) (k : Nat), ∃ x, h = clearSent s.hw ∧ l = linkAt h n ∧ l.st = LinkSt.active ∧
     x = tabGet {} l.streams k ∧ x.used = true) :=
  ⟨⟨(st {}), _, 17, _, rfl, rfl⟩,
   ⟨(st { arch := { links := [(1, { st := .training })] } }), _, 1, _, rfl, rfl, (by decide +kernel), (by decide +kernel)⟩,
   ⟨(st {}), _, 1, _, rfl, rfl, (by decide +kernel)⟩,
   ⟨(st { ident := { admitted := true }, arch := { members := [(0, { st := .member }), (3, { st := .member })], links := [(1, { st := .trained, peer := 3 })] } }),
     _, 1, _, _, rfl, rfl, (by decide +kernel), (by decide +kernel), (by decide +kernel), (by decide +kernel), (by decide +kernel),
     (by decide +kernel), (by decide +kernel), rfl⟩,
   ⟨(st { ident := { admitted := true }, arch := { members := [(0, { st := .member }), (3, { st := .member })], links := [(1, { st := .trained, peer := 3 })] } }),
     _, 1, _, rfl, rfl, (by decide +kernel), (by decide +kernel), (by decide +kernel), (by decide +kernel), (by decide +kernel),
     (by decide +kernel), (by decide +kernel)⟩,
   ⟨(st { arch := { links := [(1, { st := .trained })] } }), _, 1, _, rfl, rfl, (by decide +kernel)⟩,
   ⟨(st { arch := { links := [(1, { st := .trained })] } }), _, 1, _, 1, true, rfl, rfl, (by decide +kernel), (by decide +kernel)⟩,
   ⟨(st { arch := { links := [(1, { st := .active, replay := [{ seq := 4, tries := 2 }] })] } }), _, 1, _, 4, _, rfl, rfl, (by decide +kernel),
     rfl, (by decide +kernel)⟩,
   ⟨(st { arch := { links := [(1, { st := .active, replay := [{ seq := 4, tries := 3 }] })] } }), _, 1, _, 4, { seq := 4, tries := 3 }, _, rfl,
     rfl, (by decide +kernel), rfl, (by decide +kernel), (by decide +kernel)⟩,
   ⟨(st { arch := { links := [(1, { st := .retraining })] } }), _, 1, _, rfl, rfl, (by decide +kernel)⟩,
   ⟨(st { arch := { links := [(1, { st := .retraining, replay := [{ seq := 4, message := false }] })] } }), _, 1, _, _, rfl, rfl,
     (by decide +kernel), (by decide +kernel), rfl⟩,
   ⟨(st { ident := { admitted := true }, arch := { links := [(1, { st := .retraining, replay := [{ seq := 4 }] })] } }), _, 1, _, _, rfl, rfl,
     (by decide +kernel), rfl, (by decide +kernel), (by decide +kernel)⟩,
   ⟨(st { arch := { links := [(1, { st := .down })] } }), _, 1, _, _, rfl, rfl, (by decide +kernel), (by decide +kernel), rfl⟩,
   ⟨(st { arch := { links := [(1, { st := .active, streams := [(255, { used := true })] })] } }), _, 1, _, 255, _, rfl, rfl,
     (by decide +kernel), rfl, (by decide +kernel)⟩⟩

theorem wit_SegmentRow :
    (∃ (s : State) (h : Hw) (n : Nat) (k : Nat) (l : Link) (x : Stream), h = clearSent s.hw ∧ l = linkAt h n ∧ x = tabGet {} l.streams k ∧
     ((l.st ≠ LinkSt.active ∨ x.used = false))) ∧
    (∃ (s : State) (h : Hw) (n : Nat) (k : Nat) (gen : Nat) (ctr : Nat) (l : Link) (x : Stream) (ok : Bool), h = clearSent s.hw ∧ l = linkAt
     h n ∧ x = tabGet {} l.streams k ∧ l.st = LinkSt.active ∧ x.used = true ∧ ((ok = false ∨ (gen = x.gen ∧ ctr < x.counter) ∨ (gen ≠ x.gen
     ∧ x.nextGen ≠ some gen)))) ∧
    (∃ (s : State) (h : Hw) (n : Nat) (k : Nat) (l : Link) (x : Stream) (g : Hw) (m : Msg), h = clearSent s.hw ∧ l = linkAt h n ∧ x = tabGet
     {} l.streams k ∧ m.dst ≠ g.ident.position) ∧
    (∃ (s : State) (h : Hw) (n : Nat) (k : Nat) (l : Link) (x : Machine.Stream) (g : Hw) (m : Msg) (v : Hw), h = clearSent s.hw ∧ l = linkAt
     h n ∧ x = tabGet {} l.streams k ∧ m.dst = g.ident.position ∧ v = stir g ∧ m.cls = .req ∧ (∀ e, e ∈ v.arch.sets → e.2.used = true →
     e.2.set = k → bitOf e.2.members m.src = false)) ∧
    (∃ (s : State) (h : Hw) (n : Nat) (k : Nat) (l : Link) (x : Machine.Stream) (g : Hw) (m : Msg) (v : Hw) (p : Nat) (q : ReqKind), h =
     clearSent s.hw ∧ l = linkAt h n ∧ x = tabGet {} l.streams k ∧ m.dst = g.ident.position ∧ v = stir g ∧ m.cls = .req ∧ setPartFor v k
     m.src = some p ∧ m.op ≠ 9 ∧ reqOf m.op = some q) ∧
    (∃ (s : State) (h : Hw) (n : Nat) (k : Nat) (l : Link) (x : Machine.Stream) (g : Hw) (m : Msg) (v : Hw), h = clearSent s.hw ∧ l = linkAt
     h n ∧ x = tabGet {} l.streams k ∧ m.dst = g.ident.position ∧ v = stir g ∧ m.cls = .snp) ∧
    (∃ (s : State) (h : Hw) (n : Nat) (k : Nat) (l : Link) (x : Machine.Stream) (g : Hw) (m : Msg) (v : Hw), h = clearSent s.hw ∧ l = linkAt
     h n ∧ x = tabGet {} l.streams k ∧ m.dst = g.ident.position ∧ v = stir g ∧ (m.cls = .rsp ∨ (m.cls = .dat ∧ awaitsDat v m = false))) ∧
    (∃ (s : State) (h : Hw) (n : Nat) (k : Nat) (l : Link) (x : Machine.Stream) (g : Hw) (m : Msg) (v : Hw), h = clearSent s.hw ∧ l = linkAt
     h n ∧ x = tabGet {} l.streams k ∧ m.dst = g.ident.position ∧ v = stir g ∧ m.cls = .dat ∧ awaitsDat v m = true) ∧
    (∃ (s : State) (h : Hw) (n : Nat) (k : Nat) (l : Link) (x : Machine.Stream) (g : Hw) (m : Msg) (v : Hw), h = clearSent s.hw ∧ l = linkAt
     h n ∧ x = tabGet {} l.streams k ∧ m.dst = g.ident.position ∧ v = stir g ∧ m.cls = .cmp) ∧
    (∃ (s : State) (h : Hw) (n : Nat) (k : Nat) (gen : Nat) (ctr : Nat) (l : Link) (x : Machine.Stream) (ms : List Msg) (y : Machine.Stream)
     (o : HM), h = clearSent s.hw ∧ l = linkAt h n ∧ x = tabGet {} l.streams k ∧ l.st = LinkSt.active ∧ x.used = true ∧ gen = x.gen ∧
     x.counter ≤ ctr ∧ y = { x with counter := ctr + 1 } ∧ o = takeMsgs (setLink h n { l with streams := tabPut {} l.streams k y }, s.mem)
     x.set ms) ∧
    (∃ (s : State) (h : Hw) (n : Nat) (k : Nat) (gen : Nat) (ctr : Nat) (l : Link) (x : Machine.Stream) (ms : List Msg) (y : Machine.Stream)
     (o : HM), h = clearSent s.hw ∧ l = linkAt h n ∧ x = tabGet {} l.streams k ∧ l.st = LinkSt.active ∧ x.used = true ∧ gen ≠ x.gen ∧
     x.nextGen = some gen ∧ y = { x with gen := gen, counter := ctr + 1, nextGen := none } ∧ o = takeMsgs (setLink h n
     { l with streams := tabPut {} l.streams k y }, s.mem) x.set ms) :=
  ⟨⟨(st {}), _, 1, 2, _, _, rfl, rfl, rfl, (by decide +kernel)⟩,
   ⟨(st { arch := { links := [(1, { st := .active, streams := [(2, { used := true, gen := 5, counter := 9, nextGen := some 6 })] })] } }),
     _, 1, 2, 5, 8, _, _, true, rfl, rfl, rfl, (by decide +kernel), (by decide +kernel), (by decide +kernel)⟩,
   ⟨(st { arch := { links := [(1, { st := .active, streams := [(2, { used := true, gen := 5, counter := 9, nextGen := some 6 })] })] } }),
     _, 1, 2, _, _, {}, { dst := 1 }, rfl, rfl, rfl, (by decide +kernel)⟩,
   ⟨(st { arch := { links := [(1, { st := .active, streams := [(2, { used := true, gen := 5, counter := 9, nextGen := some 6 })] })] } }),
     _, 1, 2, _, _, { arch := { sets := [(0, { used := true, set := 2, members := 2 })] } }, {}, _, rfl, rfl, rfl, (by decide +kernel), rfl,
     (by decide +kernel), by decide +kernel⟩,
   ⟨(st { arch := { links := [(1, { st := .active, streams := [(2, { used := true, gen := 5, counter := 9, nextGen := some 6 })] })] } }),
     _, 1, 2, _, _, { arch := { sets := [(0, { used := true, set := 2, members := 2 })] } }, { src := 1, op := 8 }, _, _, _, rfl, rfl, rfl,
     (by decide +kernel), rfl, (by decide +kernel), rfl, (by decide +kernel), rfl⟩,
   ⟨(st { arch := { links := [(1, { st := .active, streams := [(2, { used := true, gen := 5, counter := 9, nextGen := some 6 })] })] } }),
     _, 1, 2, _, _, {}, { cls := .snp }, _, rfl, rfl, rfl, (by decide +kernel), rfl, (by decide +kernel)⟩,
   ⟨(st { arch := { links := [(1, { st := .active, streams := [(2, { used := true, gen := 5, counter := 9, nextGen := some 6 })] })] } }),
     _, 1, 2, _, _, {}, { cls := .rsp }, _, rfl, rfl, rfl, (by decide +kernel), rfl, (by decide +kernel)⟩,
   ⟨(st { arch := { links := [(1, { st := .active, streams := [(2, { used := true, gen := 5, counter := 9, nextGen := some 6 })] })] } }),
     _, 1, 2, _, _,
     { coh := { dir := [(1, { busy := true, queue := [{ kind := .writeLine, agent := .remote 1, act := { grant := 1, txn := 5 } }] })] } },
     { cls := .dat, src := 1, op := 1, txn := 5, addr := 64 }, _, rfl, rfl, rfl, (by decide +kernel), rfl, (by decide +kernel),
     (by decide +kernel)⟩,
   ⟨(st { arch := { links := [(1, { st := .active, streams := [(2, { used := true, gen := 5, counter := 9, nextGen := some 6 })] })] } }),
     _, 1, 2, _, _, {}, { cls := .cmp }, _, rfl, rfl, rfl, (by decide +kernel), rfl, (by decide +kernel)⟩,
   ⟨(st { arch := { links := [(1, { st := .active, streams := [(2, { used := true, gen := 5, counter := 9, nextGen := some 6 })] })] } }),
     _, 1, 2, _, 9, _, _, [], _, _, rfl, rfl, rfl, (by decide +kernel), (by decide +kernel), rfl, (by decide +kernel), rfl, rfl⟩,
   ⟨(st { arch := { links := [(1, { st := .active, streams := [(2, { used := true, gen := 5, counter := 9, nextGen := some 6 })] })] } }),
     _, 1, 2, 6, 0, _, _, [], _, _, rfl, rfl, rfl, (by decide +kernel), (by decide +kernel), (by decide +kernel), (by decide +kernel), rfl,
     rfl⟩⟩

theorem wit_PortAndDeviceCommands :
    (∃ (s : State) (h : Hw) (m : Mbx) (tag : Nat) (r : Req), h = clearSent s.hw ∧ Serving s m tag 0x0C01 r) ∧
    (∃ (s : State) (h : Hw) (m : Mbx) (tag : Nat) (r : Req), ∃ n x, h = clearSent s.hw ∧ Serving s m tag 0x0C02 r ∧ n = leAt r.payload 0 1 ∧
     x = portAt h n ∧ ((32 ≤ n ∨ x.exists_ = false))) ∧
    (∃ (s : State) (h : Hw) (m : Mbx) (tag : Nat) (r : Req), ∃ n x, h = clearSent s.hw ∧ Serving s m tag 0x0C02 r ∧ n = leAt r.payload 0 1 ∧
     x = portAt h n ∧ n < 32 ∧ x.exists_ = true ∧ leAt r.payload 1 1 = 2 ∧ 1 ≤ leAt r.payload 3 1 ∧ leAt r.payload 3 1 ≤ 64) ∧
    (∃ (s : State) (h : Hw) (m : Mbx) (tag : Nat) (r : Req), ∃ n x, h = clearSent s.hw ∧ Serving s m tag 0x0C02 r ∧ n = leAt r.payload 0 1 ∧
     x = portAt h n ∧ n < 32 ∧ x.exists_ = true ∧ leAt r.payload 1 1 = 8) ∧
    (∃ (s : State) (h : Hw) (m : Mbx) (tag : Nat) (r : Req), ∃ n x b l, h = clearSent s.hw ∧ Serving s m tag 0x0C02 r ∧ n = leAt r.payload 0
     1 ∧ x = portAt h n ∧ n < 32 ∧ x.exists_ = true ∧ leAt r.payload 1 1 = 1 ∧ b = leAt r.payload 8 4 ∧ l = leAt r.payload 12 4 ∧ b < l ∧ l
     ≤ 0xFFFF00 ∧ x.limit ≤ x.base ∧ ((∀ i, i < 16 → i + n / 16 * 16 ≠ n → (portAt h (i + n / 16 * 16)).limit ≤ (portAt h (i + n / 16 *
     16)).base))) ∧
    (∃ (s : State) (h : Hw) (m : Mbx) (tag : Nat) (r : Req), ∃ n x, h = clearSent s.hw ∧ Serving s m tag 0x0C03 r ∧ n = leAt r.payload 0 1 ∧
     x = portAt h n ∧ ((32 ≤ n ∨ x.exists_ = false ∨ x.isSlot = false))) ∧
    (∃ (s : State) (h : Hw) (m : Mbx) (tag : Nat) (r : Req), ∃ n x, h = clearSent s.hw ∧ Serving s m tag 0x0C03 r ∧ n = leAt r.payload 0 1 ∧
     x = portAt h n ∧ n < 32 ∧ x.exists_ = true ∧ x.isSlot = true ∧ leAt r.payload 1 1 = 0 ∧ (funcsOn h n).any (tenantFunc h) = true) ∧
    (∃ (s : State) (h : Hw) (m : Mbx) (tag : Nat) (r : Req), ∃ n x, h = clearSent s.hw ∧ Serving s m tag 0x0C03 r ∧ n = leAt r.payload 0 1 ∧
     x = portAt h n ∧ n < 32 ∧ x.exists_ = true ∧ x.isSlot = true ∧ leAt r.payload 1 1 ≠ 0 ∧ ((x.slot = SlotSt.off ∨ x.slot =
     SlotSt.faulted))) ∧
    (∃ (s : State) (h : Hw) (m : Mbx) (tag : Nat) (r : Req), h = clearSent s.hw ∧ Serving s m tag 0x0C05 r ∧ ((1 < leAt r.payload 0 1 ∨ 15 <
     leAt r.payload 1 1))) ∧
    (∃ (s : State) (h : Hw) (m : Mbx) (tag : Nat) (r : Req), ∃ k, h = clearSent s.hw ∧ Serving s m tag 0x0C05 r ∧ leAt r.payload 0 1 ≤ 1 ∧
     leAt r.payload 1 1 ≤ 15 ∧ leAt r.payload 2 1 = 0 ∧ k = leAt r.payload 0 1 * 16 + leAt r.payload 1 1 ∧ h.sel.ranges = []) ∧
    (∃ (s : State) (h : Hw) (m : Mbx) (tag : Nat) (r : Req) (dev : DevInfo), ∃ p, h = clearSent s.hw ∧ Serving s m tag 0x0C04 r ∧ p = leAt
     r.payload 4 1 ∧ p ≠ 0 ∧ partCheck h .steward p = none ∧ (unitAt h 9 (leAt r.payload 0 4)).state = UnitState.free ∧ (((portAt h
     dev.port).up = false ∨ (portAt h dev.port).contained = true))) ∧
    (∃ (s : State) (h : Hw) (m : Mbx) (tag : Nat) (r : Req), ∃ f x, h = clearSent s.hw ∧ Serving s m tag 0x0202 r ∧ f = leAt r.payload 0 4 ∧
     x = funcAt h f ∧ ((m = .steward ∨ m = .keeper ∨ ∃ p, m = .part p ∧ (unitAt h 9 f).owner = p)) ∧ devThere h f = true) ∧
    (∃ (s : State) (h : Hw) (m : Mbx) (tag : Nat) (r : Req), ∃ f x, h = clearSent s.hw ∧ Serving s m tag 0x0203 r ∧ f = leAt r.payload 0 4 ∧
     x = funcAt h f ∧ (unitAt h 9 f).owner = actsFor m ∧ devThere h f = true ∧ x.tdisp = Tdisp.locked) ∧
    (∃ (s : State) (h : Hw) (m : Mbx) (tag : Nat) (r : Req), ∃ f x, h = clearSent s.hw ∧ Serving s m tag 0x0203 r ∧ f = leAt r.payload 0 4 ∧
     x = funcAt h f ∧ (unitAt h 9 f).owner = actsFor m ∧ devThere h f = true ∧ x.tdisp ≠ Tdisp.locked) ∧
    (∃ (s : State) (h : Hw) (m : Mbx) (tag : Nat) (r : Req) (n : Nat) (x : RootPort), h = clearSent s.hw ∧ Serving s m tag 0x0C02 r ∧ n =
     leAt r.payload 0 1 ∧ x = portAt h n ∧ n < 32 ∧ x.exists_ = true ∧ bitOf (leAt r.payload 1 1) 0 = true ∧ (leAt r.payload 12 4 < leAt
     r.payload 8 4 ∨ 0xFFFF00 < leAt r.payload 12 4)) ∧
    (∃ (s : State) (h : Hw) (m : Mbx) (tag : Nat) (r : Req) (n : Nat) (x : RootPort) (k : Nat) (y : RootPort), h = clearSent s.hw ∧ Serving
     s m tag 0x0C02 r ∧ n = leAt r.payload 0 1 ∧ x = portAt h n ∧ n < 32 ∧ x.exists_ = true ∧ bitOf (leAt r.payload 1 1) 0 = true ∧ k < 32 ∧
     k / 16 = n / 16 ∧ k ≠ n ∧ y = portAt h k ∧ y.base < leAt r.payload 12 4 ∧ leAt r.payload 8 4 < y.limit ∧ y.base < y.limit ∧ leAt
     r.payload 8 4 < leAt r.payload 12 4) ∧
    (∃ (s : State) (h : Hw) (m : Mbx) (tag : Nat) (r : Req) (n : Nat) (x : RootPort), h = clearSent s.hw ∧ Serving s m tag 0x0C02 r ∧ n =
     leAt r.payload 0 1 ∧ x = portAt h n ∧ n < 32 ∧ x.exists_ = true ∧ leAt r.payload 1 1 = 2 ∧ (leAt r.payload 3 1 = 0 ∨ 64 < leAt
     r.payload 3 1)) ∧
    (∃ (s : State) (h : Hw) (m : Mbx) (tag : Nat) (r : Req) (n : Nat) (x : RootPort), h = clearSent s.hw ∧ Serving s m tag 0x0C02 r ∧ n =
     leAt r.payload 0 1 ∧ x = portAt h n ∧ n < 32 ∧ x.exists_ = true ∧ leAt r.payload 1 1 = 1 ∧ leAt r.payload 8 4 = leAt r.payload 12 4 ∧
     leAt r.payload 12 4 ≤ 0xFFFF00 ∧ x.base < x.limit ∧ leAt r.payload 8 4 ≠ x.base ∧ rangeHeld h ((4 + n / 16) * 2 ^ 48 + x.base * 2 ^ 20)
     ((4 + n / 16) * 2 ^ 48 + x.limit * 2 ^ 20) = true) ∧
    (∃ (s : State) (h : Hw) (m : Mbx) (tag : Nat) (r : Req) (dev : DevInfo) (p : Nat), h = clearSent s.hw ∧ Serving s m tag 0x0C04 r ∧ p =
     leAt r.payload 4 1 ∧ p ≠ 0 ∧ partCheck h .steward p = none ∧ (unitAt h 9 (leAt r.payload 0 4)).state = UnitState.free ∧ (portAt h
     dev.port).up = true ∧ (portAt h dev.port).contained = false ∧ field (leAt r.payload 0 4) 16 16 = dev.port / 16 ∧ dev.tdisp = false) ∧
    (∃ (s : State) (h : Hw) (m : Mbx) (tag : Nat) (r : Req) (n : Nat) (x : RootPort) (u : Hw), h = clearSent s.hw ∧ Serving s m tag 0x0C03 r
     ∧ n = leAt r.payload 0 1 ∧ x = portAt h n ∧ n < 32 ∧ x.exists_ = true ∧ x.isSlot = true ∧ leAt r.payload 1 1 = 0 ∧ (funcsOn h n).any
     (tenantFunc h) = false ∧ u = slotPowerOff h n ∧ (x.cxl = false ∨ x.up = false)) ∧
    (∃ (s : State) (h : Hw) (m : Mbx) (tag : Nat) (r : Req) (dev : DevInfo) (p : Nat) (f : Nat) (x : Func) (u : Hw), h = clearSent s.hw ∧
     Serving s m tag 0x0C04 r ∧ f = leAt r.payload 0 4 ∧ p = leAt r.payload 4 1 ∧ p ≠ 0 ∧ partCheck h .steward p = none ∧ (unitAt h 9
     f).state = UnitState.free ∧ (portAt h dev.port).up = true ∧ (portAt h dev.port).contained = false ∧ field f 16 16 = dev.port / 16 ∧
     dev.tdisp = true ∧ dev.bars = [] ∧ tooManyRanges h.sel.ranges = false ∧ x = funcAt h f ∧ 0 ∉ streamsUsed h dev.port f ∧ u = setUnit
     (setFunc h f { port := dev.port, tdisp := .locked, ide := 1, stream := 0, keys := x.keys + 1, resets := x.resets + 1, bars := [] }) 9 f
     { owner := p, state := .owned }) :=
  ⟨⟨(srv .steward 0x0C01 [] {}), _, .steward, 0, (rq 0x0C01 []), rfl, (by decide +kernel)⟩,
   ⟨(srv .steward 0x0C02 [32] {}), _, .steward, 0, (rq 0x0C02 [32]), _, _, rfl, (by decide +kernel), rfl, rfl, (by decide +kernel)⟩,
   ⟨(srv .steward 0x0C02 [31, 2, 0, 64] { edges := { ports := [(31, { exists_ := true })] } }), _, .steward, 0, (rq 0x0C02 [31, 2, 0, 64]),
     _, _, rfl, (by decide +kernel), rfl, rfl, (by decide +kernel), (by decide +kernel), (by decide +kernel), (by decide +kernel),
     (by decide +kernel)⟩,
   ⟨(srv .steward 0x0C02 [31, 8] { edges := { ports := [(31, { exists_ := true })] } }), _, .steward, 0, (rq 0x0C02 [31, 8]), _, _, rfl,
     (by decide +kernel), rfl, rfl, (by decide +kernel), (by decide +kernel), (by decide +kernel)⟩,
   ⟨(srv .steward 0x0C02 [31, 1, 0, 0, 0, 0, 0, 0, 0xFF, 0xFE, 0xFF, 0, 0, 0xFF, 0xFF]
     { edges := { ports := [(31, { exists_ := true })] } }), _, .steward, 0, (rq 0x0C02 [31, 1, 0, 0, 0, 0, 0, 0, 0xFF, 0xFE, 0xFF, 0, 0,
     0xFF, 0xFF]), _, _, _, _, rfl, (by decide +kernel), rfl, rfl, (by decide +kernel), (by decide +kernel), (by decide +kernel), rfl, rfl,
     (by decide +kernel), (by decide +kernel), (by decide +kernel), (by decide +kernel)⟩,
   ⟨(srv .steward 0x0C03 [31] { edges := { ports := [(31, { exists_ := true })] } }), _, .steward, 0, (rq 0x0C03 [31]), _, _, rfl,
     (by decide +kernel), rfl, rfl, (by decide +kernel)⟩,
   ⟨(srv .steward 0x0C03 [31]
     { edges := { ports := [(31, { exists_ := true, isSlot := true })], funcs := [(65536, { port := 31 })] }, sel := { units := [(unitKey 9 65536, { owner := 16, state := .owned })] } }),
     _, .steward, 0, (rq 0x0C03 [31]), _, _, rfl, (by decide +kernel), rfl, rfl, (by decide +kernel), (by decide +kernel),
     (by decide +kernel), (by decide +kernel), (by decide +kernel)⟩,
   ⟨(srv .steward 0x0C03 [31, 1] { edges := { ports := [(31, { exists_ := true, isSlot := true, slot := .off })] } }), _, .steward, 0, (rq
     0x0C03 [31, 1]), _, _, rfl, (by decide +kernel), rfl, rfl, (by decide +kernel), (by decide +kernel), (by decide +kernel),
     (by decide +kernel), (by decide +kernel)⟩,
   ⟨(srv .steward 0x0C05 [2] {}), _, .steward, 0, (rq 0x0C05 [2]), rfl, (by decide +kernel), (by decide +kernel)⟩,
   ⟨(srv .steward 0x0C05 [1, 15] {}), _, .steward, 0, (rq 0x0C05 [1, 15]), _, rfl, (by decide +kernel), (by decide +kernel),
     (by decide +kernel), (by decide +kernel), rfl, (by decide +kernel)⟩,
   ⟨(srv .steward 0x0C04 [0, 0, 0, 0, 1] { sel := { parts := [(1, { exists_ := true })] } }), _, .steward, 0, (rq 0x0C04 [0, 0, 0, 0, 1]),
     { port := 3 }, _, rfl, (by decide +kernel), rfl, (by decide +kernel), (by decide +kernel), (by decide +kernel), (by decide +kernel)⟩,
   ⟨(srv .steward 0x0202 [0, 0, 0, 0] { edges := { ports := [(0, { up := true })], funcs := [(0, { ide := 1 })] } }), _, .steward, 0, (rq
     0x0202 [0, 0, 0, 0]), _, _, rfl, (by decide +kernel), rfl, rfl, .inl rfl, (by decide +kernel)⟩,
   ⟨(srv .steward 0x0203 [0, 0, 0, 0]
     { sel := { units := [(unitKey 9 0, { owner := 0, state := .owned })] }, edges := { ports := [(0, { up := true })], funcs := [(0, { tdisp := .locked })] } }),
     _, .steward, 0, (rq 0x0203 [0, 0, 0, 0]), _, _, rfl, (by decide +kernel), rfl, rfl, (by decide +kernel), (by decide +kernel),
     (by decide +kernel)⟩,
   ⟨(srv .steward 0x0203 [0, 0, 0, 0]
     { sel := { units := [(unitKey 9 0, { owner := 0, state := .owned })] }, edges := { ports := [(0, { up := true })], funcs := [(0, { tdisp := .run })] } }),
     _, .steward, 0, (rq 0x0203 [0, 0, 0, 0]), _, _, rfl, (by decide +kernel), rfl, rfl, (by decide +kernel), (by decide +kernel),
     (by decide +kernel)⟩,
   ⟨(srv .steward 0x0C02 [31, 1, 0, 0, 0, 0, 0, 0, 1] { edges := { ports := [(31, { exists_ := true })] } }), _, .steward, 0, (rq 0x0C02
     [31, 1, 0, 0, 0, 0, 0, 0, 1]), _, _, rfl, (by decide +kernel), rfl, rfl, (by decide +kernel), (by decide +kernel), (by decide +kernel),
     (by decide +kernel)⟩,
   ⟨(srv .steward 0x0C02 [31, 1, 0, 0, 0, 0, 0, 0, 1, 0, 0, 0, 3]
     { edges := { ports := [(30, { exists_ := true, base := 2, limit := 4 }), (31, { exists_ := true })] } }), _, .steward, 0, (rq 0x0C02
     [31, 1, 0, 0, 0, 0, 0, 0, 1, 0, 0, 0, 3]), _, _, 30, _, rfl, (by decide +kernel), rfl, rfl, (by decide +kernel), (by decide +kernel),
     (by decide +kernel), (by decide +kernel), (by decide +kernel), (by decide +kernel), rfl, (by decide +kernel), (by decide +kernel),
     (by decide +kernel), (by decide +kernel)⟩,
   ⟨(srv .steward 0x0C02 [31, 2, 0, 65] { edges := { ports := [(31, { exists_ := true })] } }), _, .steward, 0, (rq 0x0C02 [31, 2, 0, 65]),
     _, _, rfl, (by decide +kernel), rfl, rfl, (by decide +kernel), (by decide +kernel), (by decide +kernel), (by decide +kernel)⟩,
   ⟨(srv .steward 0x0C02 [31, 1, 0, 0, 0, 0, 0, 0, 1, 0, 0, 0, 1]
     { edges := { ports := [(31, { exists_ := true, base := 2, limit := 3 })] }, sel := { ranges := [{ first := 5 * 2 ^ 48 + 2 * 2 ^ 20, count := 1, owner := 0 }] } }),
     _, .steward, 0, (rq 0x0C02 [31, 1, 0, 0, 0, 0, 0, 0, 1, 0, 0, 0, 1]), _, _, rfl, (by decide +kernel), rfl, rfl, (by decide +kernel),
     (by decide +kernel), (by decide +kernel), (by decide +kernel), (by decide +kernel), (by decide +kernel), (by decide +kernel),
     (by decide +kernel)⟩,
   ⟨(srv .steward 0x0C04 [0, 0, 0, 0, 1] { edges := { ports := [(15, { up := true })] }, sel := { parts := [(1, { exists_ := true })] } }),
     _, .steward, 0, (rq 0x0C04 [0, 0, 0, 0, 1]), { port := 15, tdisp := false }, _, rfl, (by decide +kernel), rfl, (by decide +kernel),
     (by decide +kernel), (by decide +kernel), (by decide +kernel), (by decide +kernel), (by decide +kernel), (by decide +kernel)⟩,
   ⟨(srv .steward 0x0C03 [31] { edges := { ports := [(31, { exists_ := true, isSlot := true, slot := .off })] } }), _, .steward, 0, (rq
     0x0C03 [31]), _, _, _, rfl, (by decide +kernel), rfl, rfl, (by decide +kernel), (by decide +kernel), (by decide +kernel),
     (by decide +kernel), (by decide +kernel), rfl, (by decide +kernel)⟩,
   ⟨(srv .steward 0x0C04 [0, 0, 0, 0, 1] { edges := { ports := [(15, { up := true })] }, sel := { parts := [(1, { exists_ := true })] } }),
     _, .steward, 0, (rq 0x0C04 [0, 0, 0, 0, 1]), { port := 15 }, _, _, _, _, rfl, (by decide +kernel), rfl, rfl, (by decide +kernel),
     (by decide +kernel), (by decide +kernel), (by decide +kernel), (by decide +kernel), (by decide +kernel), (by decide +kernel),
     (by decide +kernel), (by decide +kernel), rfl, (by decide +kernel), rfl⟩⟩

theorem wit_PinCommandsAndRows :
    (∃ (s : State) (h : Hw) (m : Mbx) (tag : Nat) (r : Req) (n : Nat) (p : Pin), h = clearSent s.hw ∧ p = pinAt h n ∧ Serving s m tag 0x0C07
     r) ∧
    (∃ (s : State) (h : Hw) (m : Mbx) (tag : Nat) (r : Req) (n : Nat) (p : Pin), h = clearSent s.hw ∧ p = pinAt h n ∧ Serving s m tag 0x0C06
     r ∧ leAt r.payload 0 1 = n ∧ 32 ≤ n) ∧
    (∃ (s : State) (h : Hw) (m : Mbx) (tag : Nat) (r : Req) (n : Nat) (p : Pin), h = clearSent s.hw ∧ p = pinAt h n ∧ Serving s m tag 0x0C06
     r ∧ leAt r.payload 0 1 = n ∧ n < 32 ∧ p.locked = true) ∧
    (∃ (s : State) (h : Hw) (m : Mbx) (tag : Nat) (r : Req) (n : Nat) (p : Pin), h = clearSent s.hw ∧ p = pinAt h n ∧ Serving s m tag 0x0C06
     r ∧ leAt r.payload 0 1 = n ∧ n < 32 ∧ p.locked = false ∧ 0x0E ≤ leAt r.payload 1 1) ∧
    (∃ (s : State) (h : Hw) (m : Mbx) (tag : Nat) (r : Req) (n : Nat) (p : Pin), h = clearSent s.hw ∧ p = pinAt h n ∧ Serving s m tag 0x0C06
     r ∧ leAt r.payload 0 1 = n ∧ n < 32 ∧ p.locked = false ∧ leAt r.payload 1 1 < 0x0E ∧ p.step ≠ 0) ∧
    (∃ (s : State) (h : Hw) (m : Mbx) (tag : Nat) (r : Req) (n : Nat) (p : Pin), h = clearSent s.hw ∧ p = pinAt h n ∧ Serving s m tag 0x0C06
     r ∧ leAt r.payload 0 1 = n ∧ n < 32 ∧ p.locked = false ∧ p.step = 0 ∧ leAt r.payload 1 1 < 0x0E ∧ pinArgOk (leAt r.payload 1 1) (leAt
     r.payload 2 1) (leAt r.payload 4 4) = false) ∧
    (∃ (s : State) (h : Hw) (m : Mbx) (tag : Nat) (r : Req) (n : Nat) (p : Pin), h = clearSent s.hw ∧ p = pinAt h n ∧ Serving s m tag 0x0C06
     r ∧ leAt r.payload 0 1 = n ∧ n < 32 ∧ p.locked = false ∧ p.step = 0 ∧ p.fn = 2 ∧ leAt r.payload 1 1 = 2 ∧ leAt r.payload 2 1 ≤ 1 ∧ leAt
     r.payload 4 4 = p.arg) ∧
    (∃ (s : State) (h : Hw) (m : Mbx) (tag : Nat) (r : Req) (n : Nat) (p : Pin), h = clearSent s.hw ∧ p = pinAt h n ∧ Serving s m tag 0x0C06
     r ∧ leAt r.payload 0 1 = n ∧ n < 32 ∧ p.locked = false ∧ p.step = 0 ∧ p.fn = 1 ∧ leAt r.payload 1 1 = 1 ∧ leAt r.payload 2 1 ≤ 2 ∧ leAt
     r.payload 4 4 = p.arg) ∧
    (∃ (s : State) (h : Hw) (m : Mbx) (tag : Nat) (r : Req) (n : Nat) (p : Pin), h = clearSent s.hw ∧ p = pinAt h n ∧ Serving s m tag 0x0C06
     r ∧ leAt r.payload 0 1 = n ∧ n < 32 ∧ p.locked = false ∧ p.step = 0 ∧ leAt r.payload 1 1 = p.fn ∧ p.fn < 0x0E ∧ p.fn ≠ 1 ∧ p.fn ≠ 2 ∧
     leAt r.payload 4 4 = p.arg ∧ pinArgOk p.fn (leAt r.payload 2 1) p.arg = true) ∧
    (∃ (s : State) (h : Hw) (m : Mbx) (tag : Nat) (r : Req) (n : Nat) (p : Pin) (b : Bool) (k : Pin), h = clearSent s.hw ∧ p = pinAt h n ∧
     Serving s m tag 0x0C06 r ∧ leAt r.payload 0 1 = n ∧ n < 32 ∧ p.locked = false ∧ p.step = 0 ∧ leAt r.payload 1 1 < 0x0E ∧ (leAt
     r.payload 1 1 ≠ p.fn ∨ leAt r.payload 4 4 ≠ p.arg) ∧ pinArgOk (leAt r.payload 1 1) (leAt r.payload 2 1) (leAt r.payload 4 4) = true ∧ k
     = { p with newFn := leAt r.payload 1 1, newVal := leAt r.payload 2 1, newArg := leAt r.payload 4 4, since := h.tb.now } ∧ (p.busy || (b
     && decide (p.fn = 0x0B ∨ p.fn = 0x0C ∨ p.fn = 0x0D))) = true) ∧
    (∃ (s : State) (h : Hw) (m : Mbx) (tag : Nat) (r : Req) (n : Nat) (p : Pin) (b : Bool) (k : Pin), h = clearSent s.hw ∧ p = pinAt h n ∧
     Serving s m tag 0x0C06 r ∧ leAt r.payload 0 1 = n ∧ n < 32 ∧ p.locked = false ∧ p.step = 0 ∧ leAt r.payload 1 1 < 0x0E ∧ (leAt
     r.payload 1 1 ≠ p.fn ∨ leAt r.payload 4 4 ≠ p.arg) ∧ pinArgOk (leAt r.payload 1 1) (leAt r.payload 2 1) (leAt r.payload 4 4) = true ∧ k
     = { p with newFn := leAt r.payload 1 1, newVal := leAt r.payload 2 1, newArg := leAt r.payload 4 4, since := h.tb.now } ∧ (p.busy || (b
     && decide (p.fn = 0x0B ∨ p.fn = 0x0C ∨ p.fn = 0x0D))) = false) ∧
    (∃ (s : State) (h : Hw) (n : Nat) (p : Pin), h = clearSent s.hw ∧ p = pinAt h n ∧ p.busy = true ∧ p.fn ≠ 5 ∧ p.step = 1) ∧
    (∃ (s : State) (h : Hw) (n : Nat) (p : Pin) (u : Hw), h = clearSent s.hw ∧ p = pinAt h n ∧ p.busy = true ∧ p.fn = 5 ∧ p.step ≠ 1 ∧ u =
     { h with tb := { h.tb with now := max h.tb.now (p.pulse + 100000) } }) ∧
    (∃ (s : State) (h : Hw) (n : Nat) (p : Pin) (u : Hw), h = clearSent s.hw ∧ p = pinAt h n ∧ p.busy = true ∧ p.fn = 5 ∧ p.step = 1 ∧ u =
     { h with tb := { h.tb with now := max h.tb.now (p.pulse + 100000) } }) ∧
    (∃ (s : State) (h : Hw) (n : Nat) (p : Pin), h = clearSent s.hw ∧ p = pinAt h n ∧ p.busy = true ∧ p.fn ≠ 5 ∧ p.step ≠ 1) ∧
    (∃ (s : State) (h : Hw) (n : Nat) (p : Pin), h = clearSent s.hw ∧ p = pinAt h n ∧ (p.step ≠ 1 ∨ p.busy = false ∨ (p.fn ≠ 0x0B ∧ p.fn ≠
     0x0C ∧ p.fn ≠ 0x0D))) ∧
    (∃ (s : State) (h : Hw) (n : Nat) (p : Pin), h = clearSent s.hw ∧ p = pinAt h n ∧ p.step ≠ 2) ∧
    (∃ (s : State) (h : Hw) (n : Nat) (p : Pin), h = clearSent s.hw ∧ p = pinAt h n ∧ p.step ≠ 3) ∧
    (∃ (s : State) (h : Hw) (n : Nat) (p : Pin) (u : Hw), h = clearSent s.hw ∧ p = pinAt h n ∧ p.step = 1 ∧ p.busy = true ∧ (p.fn = 0x0B ∨
     p.fn = 0x0C ∨ p.fn = 0x0D) ∧ u = { h with tb := { h.tb with now := max h.tb.now (p.since + 1000000) } }) ∧
    (∃ (s : State) (h : Hw) (n : Nat) (p : Pin) (u : Hw), h = clearSent s.hw ∧ p = pinAt h n ∧ p.step = 2 ∧ u =
     { h with tb := { h.tb with now := max h.tb.now (p.since + 4000) } }) ∧
    (∃ (s : State) (h : Hw) (n : Nat) (p : Pin) (u : Hw) (k : Pin), h = clearSent s.hw ∧ p = pinAt h n ∧ p.step = 3 ∧ u =
     { h with tb := { h.tb with now := max h.tb.now (p.since + 5000) } } ∧ k =
     { fn := p.newFn, value := p.newVal, arg := p.newArg, locked := p.locked, fired := p.fired, level := if pinDrives p.newFn then pinIdle p.newFn p.newVal p.level else p.level }) ∧
    (∃ (s : State) (h : Hw) (n : Nat) (p : Pin) (t : Nat) (u : Hw), h = clearSent s.hw ∧ p = pinAt h n ∧ p.fn = 5 ∧ p.step = 0 ∧ p.busy =
     false ∧ p.arg ≠ 0 ∧ t = (h.tb.now / p.arg + 1) * p.arg ∧ u = { h with tb := { h.tb with now := max h.tb.now t } }) ∧
    (∃ (s : State) (h : Hw) (n : Nat) (p : Pin), h = clearSent s.hw ∧ p = pinAt h n ∧ (p.step ≠ 0 ∨ p.fn ≠ 5 ∨ p.busy = true ∨ p.arg = 0)) ∧
    (∃ (s : State) (h : Hw) (n : Nat) (p : Pin) (a : Bool), h = clearSent s.hw ∧ p = pinAt h n ∧ p.fn = 3 ∧ p.step = 0 ∧ n < 32 ∧ (a = false
     ∨ p.asserted = true)) ∧
    (∃ (s : State) (h : Hw) (n : Nat) (p : Pin) (l : Bool) (u : Hw) (k : Nat) (w : Nat), h = clearSent s.hw ∧ p = pinAt h n ∧ p.fn = 3 ∧
     p.step = 0 ∧ n < 32 ∧ p.asserted = false ∧ k = aplicKey (n / 16) (n % 16 + 1) ∧ w = tabGet 0 h.edges.irqTarget k ∧ u = setPin h n
     { p with level := l, asserted := true, fired := p.fired + 1 } ∧ bitOf w 63 = true ∧ hartOwner h (field w 6 0) = tabGet 31
     h.edges.irqOwner k) ∧
    (∃ (s : State) (h : Hw) (n : Nat) (p : Pin) (l : Bool) (u : Hw) (k : Nat) (w : Nat), h = clearSent s.hw ∧ p = pinAt h n ∧ p.fn = 3 ∧
     p.step = 0 ∧ n < 32 ∧ p.asserted = false ∧ k = aplicKey (n / 16) (n % 16 + 1) ∧ w = tabGet 0 h.edges.irqTarget k ∧ u = setPin h n
     { p with level := l, asserted := true, fired := p.fired + 1 } ∧ (bitOf w 63 = false ∨ hartOwner h (field w 6 0) ≠ tabGet 31
     h.edges.irqOwner k)) ∧
    (∃ (s : State) (h : Hw) (n : Nat) (p : Pin), h = clearSent s.hw ∧ p = pinAt h n ∧ (p.fn ≠ 3 ∨ p.step ≠ 0 ∨ 32 ≤ n)) ∧
    (∃ (s : State) (h : Hw) (n : Nat) (p : Pin) (d : Nat) (q : Nat) (k : Nat) (w : Nat), h = clearSent s.hw ∧ p = pinAt h n ∧ d < 2 ∧ 16 < q
     ∧ q ≤ 64 ∧ k = aplicKey d q ∧ w = tabGet 0 h.edges.irqTarget k ∧ bitOf w 63 = true ∧ hartOwner h (field w 6 0) = tabGet 31
     h.edges.irqOwner k) ∧
    (∃ (s : State) (h : Hw) (n : Nat) (p : Pin) (d : Nat) (q : Nat) (k : Nat) (w : Nat), h = clearSent s.hw ∧ p = pinAt h n ∧ d < 2 ∧ 16 < q
     ∧ q ≤ 64 ∧ k = aplicKey d q ∧ w = tabGet 0 h.edges.irqTarget k ∧ (bitOf w 63 = false ∨ hartOwner h (field w 6 0) ≠ tabGet 31
     h.edges.irqOwner k)) ∧
    (∃ (s : State) (h : Hw) (n : Nat) (p : Pin) (a : Bool) (d : Nat) (q : Nat), h = clearSent s.hw ∧ p = pinAt h n ∧ (a = false ∨ 2 ≤ d ∨ q
     ≤ 16 ∨ 64 < q)) ∧
    (∃ (s : State) (h : Hw) (n : Nat) (p : Pin), h = clearSent s.hw ∧ p = pinAt h n ∧ (p.fn ≠ 4 ∨ p.step ≠ 0)) ∧
    (∃ (s : State) (h : Hw) (n : Nat) (p : Pin) (g : Hw), h = clearSent s.hw ∧ p = pinAt h n ∧ p.fn = 4 ∧ p.step = 0 ∧ g = setPin
     { h with tb := { h.tb with now := max h.tb.now (h.tb.now + 1000000) } } n { p with level := false } ∧ h.start.st ≠ PowerSt.dormant) ∧
    (∃ (s : State) (h : Hw) (n : Nat) (p : Pin) (g : Hw), h = clearSent s.hw ∧ p = pinAt h n ∧ p.fn = 4 ∧ p.step = 0 ∧ g = setPin
     { h with tb := { h.tb with now := max h.tb.now (h.tb.now + 1000000) } } n { p with level := false } ∧ h.start.st = PowerSt.dormant) ∧
    (∃ (s : State) (h : Hw) (n : Nat) (p : Pin) (w : WakeTrain), h = clearSent s.hw ∧ p = pinAt h n ∧ p.fn = 4 ∧ p.step = 0 ∧ h.start.st =
     PowerSt.dormant ∧ h.start.image = some h.keep.sealKey ∧ w.image = true ∧ w.fails = []) :=
  ⟨⟨(srv .steward 0x0C07 [] {}), _, .steward, 0, (rq 0x0C07 []), 0, _, rfl, rfl, (by decide +kernel)⟩,
   ⟨(srv .steward 0x0C06 [32] {}), _, .steward, 0, (rq 0x0C06 [32]), 32, _, rfl, rfl, (by decide +kernel), (by decide +kernel),
     (by decide +kernel)⟩,
   ⟨(srv .steward 0x0C06 [31] { edges := { pins := [(31, { locked := true })] } }), _, .steward, 0, (rq 0x0C06 [31]), 31, _, rfl, rfl,
     (by decide +kernel), (by decide +kernel), (by decide +kernel), (by decide +kernel)⟩,
   ⟨(srv .steward 0x0C06 [31, 14] { edges := { pins := [(31, { })] } }), _, .steward, 0, (rq 0x0C06 [31, 14]), 31, _, rfl, rfl,
     (by decide +kernel), (by decide +kernel), (by decide +kernel), (by decide +kernel), (by decide +kernel)⟩,
   ⟨(srv .steward 0x0C06 [31, 13] { edges := { pins := [(31, { step := 1 })] } }), _, .steward, 0, (rq 0x0C06 [31, 13]), 31, _, rfl, rfl,
     (by decide +kernel), (by decide +kernel), (by decide +kernel), (by decide +kernel), (by decide +kernel), (by decide +kernel)⟩,
   ⟨(srv .steward 0x0C06 [31, 1, 3] { edges := { pins := [(31, { })] } }), _, .steward, 0, (rq 0x0C06 [31, 1, 3]), 31, _, rfl, rfl,
     (by decide +kernel), (by decide +kernel), (by decide +kernel), (by decide +kernel), (by decide +kernel), (by decide +kernel),
     (by decide +kernel)⟩,
   ⟨(srv .steward 0x0C06 [31, 2, 1] { edges := { pins := [(31, { fn := 2 })] } }), _, .steward, 0, (rq 0x0C06 [31, 2, 1]), 31, _, rfl, rfl,
     (by decide +kernel), (by decide +kernel), (by decide +kernel), (by decide +kernel), (by decide +kernel), (by decide +kernel),
     (by decide +kernel), (by decide +kernel), (by decide +kernel)⟩,
   ⟨(srv .steward 0x0C06 [31, 1, 2] { edges := { pins := [(31, { fn := 1 })] } }), _, .steward, 0, (rq 0x0C06 [31, 1, 2]), 31, _, rfl, rfl,
     (by decide +kernel), (by decide +kernel), (by decide +kernel), (by decide +kernel), (by decide +kernel), (by decide +kernel),
     (by decide +kernel), (by decide +kernel), (by decide +kernel)⟩,
   ⟨(srv .steward 0x0C06 [31, 3, 0] { edges := { pins := [(31, { fn := 3 })] } }), _, .steward, 0, (rq 0x0C06 [31, 3, 0]), 31, _, rfl, rfl,
     (by decide +kernel), (by decide +kernel), (by decide +kernel), (by decide +kernel), (by decide +kernel), (by decide +kernel),
     (by decide +kernel), (by decide +kernel), (by decide +kernel), (by decide +kernel), (by decide +kernel)⟩,
   ⟨(srv .steward 0x0C06 [31, 10, 0, 0, 31] { edges := { pins := [(31, { fn := 13 })] } }), _, .steward, 0, (rq 0x0C06 [31, 10, 0, 0, 31]),
     31, _, true, _, rfl, rfl, (by decide +kernel), (by decide +kernel), (by decide +kernel), (by decide +kernel), (by decide +kernel),
     (by decide +kernel), (by decide +kernel), (by decide +kernel), rfl, (by decide +kernel)⟩,
   ⟨(srv .steward 0x0C06 [31, 13, 0, 0, 3] { edges := { pins := [(31, { fn := 10 })] } }), _, .steward, 0, (rq 0x0C06 [31, 13, 0, 0, 3]),
     31, _, true, _, rfl, rfl, (by decide +kernel), (by decide +kernel), (by decide +kernel), (by decide +kernel), (by decide +kernel),
     (by decide +kernel), (by decide +kernel), (by decide +kernel), rfl, (by decide +kernel)⟩,
   ⟨(st { edges := { pins := [(0, { busy := true, step := 1 })] } }), _, 0, _, rfl, rfl, (by decide +kernel), (by decide +kernel),
     (by decide +kernel)⟩,
   ⟨(st { edges := { pins := [(0, { busy := true, fn := 5 })] } }), _, 0, _, _, rfl, rfl, (by decide +kernel), (by decide +kernel),
     (by decide +kernel), rfl⟩,
   ⟨(st { edges := { pins := [(0, { busy := true, fn := 5, step := 1 })] } }), _, 0, _, _, rfl, rfl, (by decide +kernel),
     (by decide +kernel), (by decide +kernel), rfl⟩,
   ⟨(st { edges := { pins := [(0, { busy := true, fn := 13 })] } }), _, 0, _, rfl, rfl, (by decide +kernel), (by decide +kernel),
     (by decide +kernel)⟩,
   ⟨(st { edges := { pins := [(0, { step := 1 })] } }), _, 0, _, rfl, rfl, (by decide +kernel)⟩,
   ⟨(st {}), _, 0, _, rfl, rfl, (by decide +kernel)⟩,
   ⟨(st {}), _, 0, _, rfl, rfl, (by decide +kernel)⟩,
   ⟨(st { edges := { pins := [(0, { busy := true, fn := 13, step := 1 })] } }), _, 0, _, _, rfl, rfl, (by decide +kernel),
     (by decide +kernel), (by decide +kernel), rfl⟩,
   ⟨(st { edges := { pins := [(0, { step := 2 })] } }), _, 0, _, _, rfl, rfl, (by decide +kernel), rfl⟩,
   ⟨(st { edges := { pins := [(0, { step := 3 })] } }), _, 0, _, _, _, rfl, rfl, (by decide +kernel), rfl, rfl⟩,
   ⟨(st { edges := { pins := [(0, { fn := 5, arg := 1000000 })] } }), _, 0, _, _, _, rfl, rfl, (by decide +kernel), (by decide +kernel),
     (by decide +kernel), (by decide +kernel), rfl, rfl⟩,
   ⟨(st {}), _, 0, _, rfl, rfl, (by decide +kernel)⟩,
   ⟨(st { edges := { pins := [(31, { fn := 3 })] } }), _, 31, _, false, rfl, rfl, (by decide +kernel), (by decide +kernel),
     (by decide +kernel), (by decide +kernel)⟩,
   ⟨(st
     { edges := { pins := [(31, { fn := 3 })], irqTarget := [(aplicKey 1 16, 2 ^ 63)], irqOwner := [(aplicKey 1 16, 0)] }, sel := { units := [(unitKey 2 0, { owner := 0, state := .owned })] } }),
     _, 31, _, false, _, _, _, rfl, rfl, (by decide +kernel), (by decide +kernel), (by decide +kernel), (by decide +kernel), rfl, rfl, rfl,
     (by decide +kernel), (by decide +kernel)⟩,
   ⟨(st { edges := { pins := [(31, { fn := 3 })] } }), _, 31, _, false, _, _, _, rfl, rfl, (by decide +kernel), (by decide +kernel),
     (by decide +kernel), (by decide +kernel), rfl, rfl, rfl, (by decide +kernel)⟩,
   ⟨(st {}), _, 0, _, rfl, rfl, (by decide +kernel)⟩,
   ⟨(st
     { edges := { irqTarget := [(aplicKey 1 64, 2 ^ 63)], irqOwner := [(aplicKey 1 64, 0)] }, sel := { units := [(unitKey 2 0, { owner := 0, state := .owned })] } }),
     _, 0, _, 1, 64, _, _, rfl, rfl, (by decide +kernel), (by decide +kernel), (by decide +kernel), rfl, rfl, (by decide +kernel),
     (by decide +kernel)⟩,
   ⟨(st {}), _, 0, _, 1, 17, _, _, rfl, rfl, (by decide +kernel), (by decide +kernel), (by decide +kernel), rfl, rfl, (by decide +kernel)⟩,
   ⟨(st {}), _, 0, _, true, 2, 17, rfl, rfl, (by decide +kernel)⟩,
   ⟨(st {}), _, 0, _, rfl, rfl, (by decide +kernel)⟩,
   ⟨(st { edges := { pins := [(0, { fn := 4 })] } }), _, 0, _, _, rfl, rfl, (by decide +kernel), (by decide +kernel), rfl,
     (by decide +kernel)⟩,
   ⟨(st { start := { st := .dormant }, edges := { pins := [(0, { fn := 4 })] } }), _, 0, _, _, rfl, rfl, (by decide +kernel),
     (by decide +kernel), rfl, (by decide +kernel)⟩,
   ⟨(st { keep := { sealKey := 1 }, start := { st := .dormant, image := some 1 }, edges := { pins := [(0, { fn := 4 })] } }), _, 0, _,
     { image := true }, rfl, rfl, (by decide +kernel), (by decide +kernel), (by decide +kernel), rfl, (by decide +kernel),
     (by decide +kernel)⟩⟩

theorem wit_KeepAliveCommands :
    (∃ (s : State) (h : Hw) (m : Mbx) (tag : Nat) (r : Req) (k : KeepAlive), h = clearSent s.hw ∧ k = h.keep ∧ Serving s m tag 0x0C08 r ∧
     h.ident.admitted = false) ∧
    (∃ (s : State) (h : Hw) (m : Mbx) (tag : Nat) (r : Req) (k : KeepAlive), h = clearSent s.hw ∧ k = h.keep ∧ Serving s m tag 0x0C08 r ∧
     h.ident.admitted = true) ∧
    (∃ (s : State) (h : Hw) (m : Mbx) (tag : Nat) (r : Req) (k : KeepAlive), h = clearSent s.hw ∧ k = h.keep ∧ Serving s m tag 0x0C09 r) ∧
    (∃ (s : State) (h : Hw) (m : Mbx) (tag : Nat) (r : Req) (k : KeepAlive), ∃ icc vcv on, h = clearSent s.hw ∧ k = h.keep ∧
     Serving s m tag 0x0C0A r ∧ icc = leAt r.payload 1 1 ∧ vcv = leAt r.payload 2 2 ∧ on = bitOf (leAt r.payload 0 1) 0 ∧
     ((icc = 0 ∨ 20 < icc ∨ vcv < 2800 ∨ 3300 < vcv ∨ vcv % 10 ≠ 0))) ∧
    (∃ (s : State) (h : Hw) (m : Mbx) (tag : Nat) (r : Req) (k : KeepAlive), ∃ icc vcv on, h = clearSent s.hw ∧ k = h.keep ∧
     Serving s m tag 0x0C0A r ∧ icc = leAt r.payload 1 1 ∧ vcv = leAt r.payload 2 2 ∧ on = bitOf (leAt r.payload 0 1) 0 ∧ 1 ≤ icc ∧
     icc ≤ 20 ∧ 2800 ≤ vcv ∧ vcv ≤ 3300 ∧ vcv % 10 = 0) ∧
    (∃ (s : State) (h : Hw) (m : Mbx) (tag : Nat) (r : Req) (k : KeepAlive), h = clearSent s.hw ∧ k = h.keep ∧ Serving s m tag 0x0C0B r) ∧
    (∃ (s : State) (h : Hw) (m : Mbx) (tag : Nat) (r : Req) (k : KeepAlive), h = clearSent s.hw ∧ k = h.keep ∧ Serving s m tag 0x0C0C r) ∧
    (∃ (s : State) (h : Hw) (m : Mbx) (tag : Nat) (r : Req) (k : KeepAlive), ∃ d, h = clearSent s.hw ∧ k = h.keep ∧ Serving s m tag 0x0C0D r ∧
     (d = (List.range 4).map (fun i => leAt r.payload (4 + i) 1)) ∧ ((∃ x, x ∈ d ∧ (x = 0 ∨ 100 < x)))) ∧
    (∃ (s : State) (h : Hw) (m : Mbx) (tag : Nat) (r : Req) (k : KeepAlive), ∃ d, h = clearSent s.hw ∧ k = h.keep ∧ Serving s m tag 0x0C0D r ∧
     (d = (List.range 4).map (fun i => leAt r.payload (4 + i) 1)) ∧ ((∀ x, x ∈ d → 1 ≤ x ∧ x ≤ 100))) ∧
    (∃ (s : State) (h : Hw) (m : Mbx) (tag : Nat) (r : Req) (k : KeepAlive), h = clearSent s.hw ∧ k = h.keep ∧ Serving s m tag 0x0C0E r) ∧
    (∃ (s : State) (h : Hw) (m : Mbx) (tag : Nat) (r : Req) (k : KeepAlive), ∃ a b, h = clearSent s.hw ∧ k = h.keep ∧ Serving s m tag 0x0F01 r ∧
     a = h.edges.active ∧ b = h.edges.bootAct) ∧
    (∃ (s : State) (h : Hw) (m : Mbx) (tag : Nat) (r : Req) (k : KeepAlive), ∃ i n a, h = clearSent s.hw ∧ k = h.keep ∧
     Serving s m tag 0x0F02 r ∧ i = leAt r.payload 0 1 ∧ n = leAt r.payload 1 1 ∧ a = (if i = 0 then h.edges.active else h.edges.bootAct) ∧
     n = a) ∧
    (∃ (s : State) (h : Hw) (m : Mbx) (tag : Nat) (r : Req) (k : KeepAlive), ∃ i n a, h = clearSent s.hw ∧ k = h.keep ∧
     Serving s m tag 0x0F02 r ∧ i = leAt r.payload 0 1 ∧ n = leAt r.payload 1 1 ∧ a = (if i = 0 then h.edges.active else h.edges.bootAct) ∧
     n ≠ a ∧ (imagePlace i n).2 < leAt r.payload 4 4 + (r.payload.drop 8).length) ∧
    (∃ (s : State) (h : Hw) (m : Mbx) (tag : Nat) (r : Req) (k : KeepAlive), ∃ i n a, h = clearSent s.hw ∧ k = h.keep ∧
     Serving s m tag 0x0F02 r ∧ i = leAt r.payload 0 1 ∧ n = leAt r.payload 1 1 ∧ a = (if i = 0 then h.edges.active else h.edges.bootAct) ∧
     n ≠ a ∧ leAt r.payload 4 4 + (r.payload.drop 8).length ≤ (imagePlace i n).2) ∧
    (∃ (s : State) (h : Hw) (m : Mbx) (tag : Nat) (r : Req) (k : KeepAlive), ∃ i n a, h = clearSent s.hw ∧ k = h.keep ∧
     Serving s m tag 0x0F03 r ∧ i = leAt r.payload 0 1 ∧ n = leAt r.payload 1 1 ∧ a = (if i = 0 then h.edges.active else h.edges.bootAct) ∧
     n = a) ∧
    (∃ (s : State) (h : Hw) (m : Mbx) (tag : Nat) (r : Req) (k : KeepAlive) (info : ImageInfo), ∃ i n a, h = clearSent s.hw ∧ k = h.keep ∧
     Serving s m tag 0x0F03 r ∧ i = leAt r.payload 0 1 ∧ n = leAt r.payload 1 1 ∧ a = (if i = 0 then h.edges.active else h.edges.bootAct) ∧
     n ≠ a ∧ info.ok = true ∧ (h.edges.fw.getD (i * 2 + n) {}).st ≠ 0) ∧
    (∃ (s : State) (h : Hw) (m : Mbx) (tag : Nat) (r : Req) (k : KeepAlive) (info : ImageInfo), ∃ i n a, h = clearSent s.hw ∧ k = h.keep ∧
     Serving s m tag 0x0F03 r ∧ i = leAt r.payload 0 1 ∧ n = leAt r.payload 1 1 ∧ a = (if i = 0 then h.edges.active else h.edges.bootAct) ∧
     n ≠ a ∧ info.ok = false) ∧
    (∃ (s : State) (h : Hw) (m : Mbx) (tag : Nat) (r : Req) (k : KeepAlive), ∃ i n x, h = clearSent s.hw ∧ k = h.keep ∧
     Serving s m tag 0x0F04 r ∧ i = leAt r.payload 0 1 ∧ n = leAt r.payload 1 1 ∧ x = h.edges.fw.getD (i * 2 + n) {} ∧ x.st ≠ 2) ∧
    (∃ (s : State) (h : Hw) (m : Mbx) (tag : Nat) (r : Req) (k : KeepAlive), ∃ i n x, h = clearSent s.hw ∧ k = h.keep ∧
     Serving s m tag 0x0F04 r ∧ i = leAt r.payload 0 1 ∧ n = leAt r.payload 1 1 ∧ x = h.edges.fw.getD (i * 2 + n) {} ∧ x.st = 2 ∧
     x.secVer < h.ident.fusedMin) ∧
    (∃ (s : State) (h : Hw) (m : Mbx) (tag : Nat) (r : Req) (k : KeepAlive), ∃ i n x, h = clearSent s.hw ∧ k = h.keep ∧
     Serving s m tag 0x0F04 r ∧ i = leAt r.payload 0 1 ∧ n = leAt r.payload 1 1 ∧ x = h.edges.fw.getD (i * 2 + n) {} ∧ x.st = 2 ∧
     h.ident.fusedMin ≤ x.secVer ∧ i ≠ 0) ∧
    (∃ (s : State) (h : Hw) (m : Mbx) (tag : Nat) (r : Req) (k : KeepAlive), ∃ i n x u, h = clearSent s.hw ∧ k = h.keep ∧
     Serving s m tag 0x0F04 r ∧ i = leAt r.payload 0 1 ∧ n = leAt r.payload 1 1 ∧ x = h.edges.fw.getD (i * 2 + n) {} ∧ x.st = 2 ∧
     h.ident.fusedMin ≤ x.secVer ∧ i = 0 ∧ u = closedFor h { h with edges := { h.edges with active := n } } m r) :=
  ⟨⟨(srv .steward 0x0C08 [] {}), _, .steward, 0, (rq 0x0C08 []), _, rfl, rfl, (by decide +kernel), (by decide +kernel)⟩,
   ⟨(srv .steward 0x0C08 [] { ident := { admitted := true } }), _, .steward, 0, (rq 0x0C08 []), _, rfl, rfl, (by decide +kernel),
     (by decide +kernel)⟩,
   ⟨(srv .steward 0x0C09 [] {}), _, .steward, 0, (rq 0x0C09 []), _, rfl, rfl, (by decide +kernel)⟩,
   ⟨(srv .steward 0x0C0A [1, 21, 0x1C, 12] {}), _, .steward, 0, (rq 0x0C0A [1, 21, 0x1C, 12]), _, _, _, _, rfl, rfl, (by decide +kernel), rfl,
     rfl, rfl, (by decide +kernel)⟩,
   ⟨(srv .steward 0x0C0A [1, 20, 0xE4, 12] {}), _, .steward, 0, (rq 0x0C0A [1, 20, 0xE4, 12]), _, _, _, _, rfl, rfl, (by decide +kernel), rfl,
     rfl, rfl, (by decide +kernel), (by decide +kernel), (by decide +kernel), (by decide +kernel), (by decide +kernel)⟩,
   ⟨(srv .steward 0x0C0B [] {}), _, .steward, 0, (rq 0x0C0B []), _, rfl, rfl, (by decide +kernel)⟩,
   ⟨(srv .steward 0x0C0C [] {}), _, .steward, 0, (rq 0x0C0C []), _, rfl, rfl, (by decide +kernel)⟩,
   ⟨(srv .steward 0x0C0D [0, 0, 0, 0, 1, 101, 1, 1] {}), _, .steward, 0, (rq 0x0C0D [0, 0, 0, 0, 1, 101, 1, 1]), _, _, rfl, rfl,
     (by decide +kernel), rfl, (by decide +kernel)⟩,
   ⟨(srv .steward 0x0C0D [0, 0, 0, 0, 1, 100, 1, 1] {}), _, .steward, 0, (rq 0x0C0D [0, 0, 0, 0, 1, 100, 1, 1]), _, _, rfl, rfl,
     (by decide +kernel), rfl, (by decide +kernel)⟩,
   ⟨(srv .steward 0x0C0E [] {}), _, .steward, 0, (rq 0x0C0E []), _, rfl, rfl, (by decide +kernel)⟩,
   ⟨(srv .steward 0x0F01 [] {}), _, .steward, 0, (rq 0x0F01 []), _, _, _, rfl, rfl, (by decide +kernel), rfl, rfl⟩,
   ⟨(srv .steward 0x0F02 [1, 0] {}), _, .steward, 0, (rq 0x0F02 [1, 0]), _, _, _, _, rfl, rfl, (by decide +kernel), rfl, rfl, rfl,
     (by decide +kernel)⟩,
   ⟨(srv .steward 0x0F02 [0, 1, 0, 0, 0xFF, 0xFF, 0xFF, 0, 1, 1] {}), _, .steward, 0, (rq 0x0F02 [0, 1, 0, 0, 0xFF, 0xFF, 0xFF, 0, 1, 1]), _,
     _, _, _, rfl, rfl, (by decide +kernel), rfl, rfl, rfl, (by decide +kernel), (by decide +kernel)⟩,
   ⟨(srv .steward 0x0F02 [0, 1, 0, 0, 0xFF, 0xFF, 0xFF, 0, 1] {}), _, .steward, 0, (rq 0x0F02 [0, 1, 0, 0, 0xFF, 0xFF, 0xFF, 0, 1]), _, _, _,
     _, rfl, rfl, (by decide +kernel), rfl, rfl, rfl, (by decide +kernel), (by decide +kernel)⟩,
   ⟨(srv .steward 0x0F03 [0, 0] {}), _, .steward, 0, (rq 0x0F03 [0, 0]), _, _, _, _, rfl, rfl, (by decide +kernel), rfl, rfl, rfl,
     (by decide +kernel)⟩,
   ⟨(srv .steward 0x0F03 [0, 1] { edges := { fw := [{}, {}, {}, {}] } }), _, .steward, 0, (rq 0x0F03 [0, 1]), _,
     { ok := true, version := 1, secVer := 1, digest := [] }, _, _, _, rfl, rfl, (by decide +kernel), rfl, rfl, rfl, (by decide +kernel),
     (by decide +kernel), (by decide +kernel)⟩,
   ⟨(srv .steward 0x0F03 [0, 1] {}), _, .steward, 0, (rq 0x0F03 [0, 1]), _, { ok := false, version := 1, secVer := 1, digest := [] }, _, _, _,
     rfl, rfl, (by decide +kernel), rfl, rfl, rfl, (by decide +kernel), (by decide +kernel)⟩,
   ⟨(srv .steward 0x0F04 [0, 1] { edges := { fw := [{}, { st := 1 }, {}, {}] } }), _, .steward, 0, (rq 0x0F04 [0, 1]), _, _, _, _, rfl, rfl,
     (by decide +kernel), rfl, rfl, rfl, (by decide +kernel)⟩,
   ⟨(srv .steward 0x0F04 [0, 1] { ident := { fusedMin := 1 }, edges := { fw := [{}, { st := 2 }, {}, {}] } }), _, .steward, 0,
     (rq 0x0F04 [0, 1]), _, _, _, _, rfl, rfl, (by decide +kernel), rfl, rfl, rfl, (by decide +kernel), (by decide +kernel)⟩,
   ⟨(srv .steward 0x0F04 [1, 1] { edges := { fw := [{}, {}, {}, { st := 2 }] } }), _, .steward, 0, (rq 0x0F04 [1, 1]), _, _, _, _, rfl, rfl,
     (by decide +kernel), rfl, rfl, rfl, (by decide +kernel), (by decide +kernel), (by decide +kernel)⟩,
   ⟨(srv .steward 0x0F04 [0, 1] { edges := { fw := [{}, { st := 2 }, {}, {}] } }), _, .steward, 0, (rq 0x0F04 [0, 1]), _, _, _, _, _, rfl, rfl,
     (by decide +kernel), rfl, rfl, rfl, (by decide +kernel), (by decide +kernel), (by decide +kernel), rfl⟩⟩

theorem wit_KeepAliveRows :
    (∃ (s : State) (h : Hw) (k : KeepAlive), h = clearSent s.hw ∧ k = h.keep ∧ k.powered = true ∧ h.tb.unsynced = false ∧ h.tb.holdover =
     false ∧ h.start.st ≠ PowerSt.off) ∧
    (∃ (s : State) (h : Hw) (k : KeepAlive), h = clearSent s.hw ∧ k = h.keep ∧ ((k.powered = false ∨ h.tb.unsynced = true ∨ h.tb.holdover =
     true ∨ h.start.st = PowerSt.off))) ∧
    (∃ (s : State) (h : Hw) (k : KeepAlive), ∃ g, h = clearSent s.hw ∧ k = h.keep ∧ k.powered = true ∧ k.alarm ≠ 0 ∧ h.start.st ≠
     PowerSt.dormant ∧ g = { h with tb := { h.tb with now := max h.tb.now (h.tb.now + (k.alarm - (k.rtc + (h.tb.now - k.rtcAt)))) } }) ∧
    (∃ (s : State) (h : Hw) (k : KeepAlive), h = clearSent s.hw ∧ k = h.keep ∧ k.alarm = 0) ∧
    (∃ (s : State) (h : Hw) (k : KeepAlive) (t : Nat), h = clearSent s.hw ∧ k = h.keep ∧ k.powered = true ∧ 2000 ≤ t ∧ t ≤ 6000 ∧ k.latch ≠
     0 ∧ ((∀ i, i < 4 → bitOf k.enables i = true → bitOf k.inputs i = false ∧ k.risen.getD i 0 + k.debounce.getD i 10 * 1000000 ≤
     h.tb.now))) ∧
    (∃ (s : State) (h : Hw) (k : KeepAlive) (t : Nat) (i : Nat), h = clearSent s.hw ∧ k = h.keep ∧ k.powered = true ∧ 2000 ≤ t ∧ t ≤ 6000 ∧
     i < 4 ∧ bitOf k.enables i = true ∧ bitOf k.inputs i = true) ∧
    (∃ (s : State) (h : Hw) (k : KeepAlive) (t : Nat), h = clearSent s.hw ∧ k = h.keep ∧ k.powered = true ∧ ((t < 2000 ∨ 6000 < t))) ∧
    (∃ (s : State) (h : Hw) (k : KeepAlive), h = clearSent s.hw ∧ k = h.keep ∧ k.powered = true) ∧
    (∃ (s : State) (h : Hw) (k : KeepAlive) (n : Nat), ∃ g, h = clearSent s.hw ∧ k = h.keep ∧ k.powered = true ∧ n < 4 ∧ bitOf k.enables n =
     true ∧ bitOf k.inputs n = false ∧ g =
     { h with keep := { k with inputs := k.inputs ||| 2 ^ n, latch := k.latch ||| 2 ^ n, tampers := min 255 (k.tampers + 1), sealKey := k.sealNext, sealNext := k.sealNext + 1 } }
     ∧ h.start.st = PowerSt.off) ∧
    (∃ (s : State) (h : Hw) (k : KeepAlive) (n : Nat), ∃ g, h = clearSent s.hw ∧ k = h.keep ∧ k.powered = true ∧ n < 4 ∧ bitOf k.enables n =
     true ∧ bitOf k.inputs n = false ∧ g =
     { h with keep := { k with inputs := k.inputs ||| 2 ^ n, latch := k.latch ||| 2 ^ n, tampers := min 255 (k.tampers + 1), sealKey := k.sealNext, sealNext := k.sealNext + 1 } }
     ∧ h.start.st ≠ PowerSt.off) ∧
    (∃ (s : State) (h : Hw) (k : KeepAlive) (n : Nat), h = clearSent s.hw ∧ k = h.keep ∧ ((k.powered = false ∨ 4 ≤ n ∨ bitOf k.enables n =
     false))) ∧
    (∃ (s : State) (h : Hw) (k : KeepAlive) (n : Nat), h = clearSent s.hw ∧ k = h.keep ∧ n < 4 ∧ k.powered = true) ∧
    (∃ (s : State) (h : Hw) (k : KeepAlive), h = clearSent s.hw ∧ k = h.keep ∧ k.vka = true ∧ k.ship = false ∧ 2200 ≤ k.cellMv) ∧
    (∃ (s : State) (h : Hw) (k : KeepAlive), h = clearSent s.hw ∧ k = h.keep ∧ k.vka = true ∧ ((k.ship = true ∨ k.cellMv < 2200))) ∧
    (∃ (s : State) (h : Hw) (k : KeepAlive), ∃ g, h = clearSent s.hw ∧ k = h.keep ∧ k.vka = false ∧ g =
     { h with tb := { h.tb with now := max h.tb.now (h.tb.now + 10000000) }, keep := { k with vka := true } } ∧ k.powered = true) ∧
    (∃ (s : State) (h : Hw) (k : KeepAlive), ∃ g, h = clearSent s.hw ∧ k = h.keep ∧ k.vka = false ∧ g =
     { h with tb := { h.tb with now := max h.tb.now (h.tb.now + 10000000) }, keep := { k with vka := true } } ∧ k.powered = false) ∧
    (∃ (s : State) (h : Hw) (k : KeepAlive) (mv : Nat), h = clearSent s.hw ∧ k = h.keep ∧ k.vka = false ∧ k.powered = true ∧ mv < 2200) ∧
    (∃ (s : State) (h : Hw) (k : KeepAlive) (mv : Nat), h = clearSent s.hw ∧ k = h.keep ∧ chargerOn h = true ∧ k.phase = 2 ∧ 2500 ≤ mv ∧
     k.vcv ≤ mv) ∧
    (∃ (s : State) (h : Hw) (k : KeepAlive), h = clearSent s.hw ∧ k = h.keep ∧ chargerOn h = true ∧ k.phase = 3) ∧
    (∃ (s : State) (h : Hw) (k : KeepAlive), ∃ g, h = clearSent s.hw ∧ k = h.keep ∧ chargerOn h = true ∧ k.phase = 1 ∧ g =
     { h with tb := { h.tb with now := max h.tb.now (k.phaseAt + 7200 * 1000000000) } }) ∧
    (∃ (s : State) (h : Hw) (k : KeepAlive) (mv : Nat), h = clearSent s.hw ∧ k = h.keep ∧ chargerOn h = true ∧ mv < 1000) ∧
    (∃ (s : State) (h : Hw) (k : KeepAlive), h = clearSent s.hw ∧ k = h.keep ∧ chargerOn h = false) ∧
    (∃ (s : State) (h : Hw) (k : KeepAlive) (mv : Nat), h = clearSent s.hw ∧ k = h.keep ∧ chargerOn h = true ∧ (k.phase = 0 ∨ k.phase = 4 ∧
     mv + 100 ≤ k.vcv) ∧ mv < 2500) ∧
    (∃ (s : State) (h : Hw) (k : KeepAlive) (mv : Nat), h = clearSent s.hw ∧ k = h.keep ∧ chargerOn h = true ∧ k.phase = 4 ∧ k.vcv < mv +
     100) ∧
    (∃ (s : State) (h : Hw) (k : KeepAlive) (g : Hw), h = clearSent s.hw ∧ k = h.keep ∧ k.powered = true ∧ k.alarm ≠ 0 ∧ h.start.st =
     PowerSt.dormant ∧ g = { h with tb := { h.tb with now := max h.tb.now (h.tb.now + (k.alarm - (k.rtc + (h.tb.now - k.rtcAt)))) } }) :=
  ⟨⟨(st { tb := { unsynced := false } }), _, _, rfl, rfl, (by decide +kernel), (by decide +kernel), (by decide +kernel),
     (by decide +kernel)⟩,
   ⟨(st { tb := { holdover := true } }), _, _, rfl, rfl, (by decide +kernel)⟩,
   ⟨(st { keep := { alarm := 5 } }), _, _, _, rfl, rfl, (by decide +kernel), (by decide +kernel), (by decide +kernel), rfl⟩,
   ⟨(st {}), _, _, rfl, rfl, (by decide +kernel)⟩,
   ⟨(st { tb := { now := 10000000 }, keep := { latch := 1 } }), _, _, 6000, rfl, rfl, (by decide +kernel), (by decide +kernel),
     (by decide +kernel), (by decide +kernel), (by decide +kernel)⟩,
   ⟨(st { keep := { inputs := 8 } }), _, _, 2000, 3, rfl, rfl, (by decide +kernel), (by decide +kernel), (by decide +kernel),
     (by decide +kernel), (by decide +kernel), (by decide +kernel)⟩,
   ⟨(st {}), _, _, 6001, rfl, rfl, (by decide +kernel), (by decide +kernel)⟩,
   ⟨(st {}), _, _, rfl, rfl, (by decide +kernel)⟩,
   ⟨(st { start := { st := .off } }), _, _, 3, _, rfl, rfl, (by decide +kernel), (by decide +kernel), (by decide +kernel),
     (by decide +kernel), rfl, (by decide +kernel)⟩,
   ⟨(st {}), _, _, 3, _, rfl, rfl, (by decide +kernel), (by decide +kernel), (by decide +kernel), (by decide +kernel), rfl,
     (by decide +kernel)⟩,
   ⟨(st {}), _, _, 4, rfl, rfl, (by decide +kernel)⟩,
   ⟨(st {}), _, _, 3, rfl, rfl, (by decide +kernel), (by decide +kernel)⟩,
   ⟨(st { keep := { cellMv := 2200 } }), _, _, rfl, rfl, (by decide +kernel), (by decide +kernel), (by decide +kernel)⟩,
   ⟨(st { keep := { cellMv := 2199 } }), _, _, rfl, rfl, (by decide +kernel), (by decide +kernel)⟩,
   ⟨(st { keep := { vka := false } }), _, _, _, rfl, rfl, (by decide +kernel), rfl, (by decide +kernel)⟩,
   ⟨(st { keep := { vka := false, powered := false } }), _, _, _, rfl, rfl, (by decide +kernel), rfl, (by decide +kernel)⟩,
   ⟨(st { keep := { vka := false } }), _, _, 2199, rfl, rfl, (by decide +kernel), (by decide +kernel), (by decide +kernel)⟩,
   ⟨(st { keep := { phase := 2 } }), _, _, 3100, rfl, rfl, (by decide +kernel), (by decide +kernel), (by decide +kernel),
     (by decide +kernel)⟩,
   ⟨(st { keep := { phase := 3 } }), _, _, rfl, rfl, (by decide +kernel), (by decide +kernel)⟩,
   ⟨(st { keep := { phase := 1 } }), _, _, _, rfl, rfl, (by decide +kernel), (by decide +kernel), rfl⟩,
   ⟨(st {}), _, _, 999, rfl, rfl, (by decide +kernel), (by decide +kernel)⟩,
   ⟨(st { keep := { vka := false } }), _, _, rfl, rfl, (by decide +kernel)⟩,
   ⟨(st { keep := { phase := 4 } }), _, _, 2499, rfl, rfl, (by decide +kernel), (by decide +kernel), (by decide +kernel)⟩,
   ⟨(st { keep := { phase := 4 } }), _, _, 3001, rfl, rfl, (by decide +kernel), (by decide +kernel), (by decide +kernel)⟩,
   ⟨(st { keep := { powered := true, alarm := 5 }, start := { st := .dormant } }), _, _, _, rfl, rfl, (by decide +kernel),
     (by decide +kernel), (by decide +kernel), rfl⟩⟩

theorem wit_SlotPortAndBusRows :
    (∃ (s : State) (h : Hw) (n : Nat) (x : RootPort), h = clearSent s.hw ∧ x = portAt h n) ∧
    (∃ (s : State) (h : Hw) (n : Nat) (x : RootPort), h = clearSent s.hw ∧ x = portAt h n ∧ ((x.exists_ = false ∨ x.isSlot = false ∨ x.slot
     = SlotSt.up))) ∧
    (∃ (s : State) (h : Hw) (n : Nat) (x : RootPort), h = clearSent s.hw ∧ x = portAt h n ∧ x.exists_ = true ∧ x.isSlot = true ∧ x.hotReset
     = false ∧ h.start.ports = true ∧ h.start.st = PowerSt.active ∧ x.slot = SlotSt.empty) ∧
    (∃ (s : State) (h : Hw) (n : Nat) (x : RootPort), ∃ g, h = clearSent s.hw ∧ x = portAt h n ∧ x.exists_ = true ∧ x.isSlot = true ∧
     x.hotReset = false ∧ h.start.ports = true ∧ h.start.st = PowerSt.active ∧ x.slot = SlotSt.debounced ∧ x.held = false ∧ g =
     { h with tb := { h.tb with now := max h.tb.now (x.slotAt + 1000000) } }) ∧
    (∃ (s : State) (h : Hw) (n : Nat) (x : RootPort), h = clearSent s.hw ∧ x = portAt h n ∧ x.exists_ = true ∧ x.isSlot = true ∧ x.hotReset
     = false ∧ h.start.ports = true ∧ h.start.st = PowerSt.active ∧ x.slot = SlotSt.debounced ∧ x.held = true) ∧
    (∃ (s : State) (h : Hw) (n : Nat) (x : RootPort), ∃ g, h = clearSent s.hw ∧ x = portAt h n ∧ x.exists_ = true ∧ x.isSlot = true ∧
     x.hotReset = false ∧ h.start.ports = true ∧ h.start.st = PowerSt.active ∧ x.slot = SlotSt.powered ∧ g =
     { h with tb := { h.tb with now := max h.tb.now (x.slotAt + 201000000) } }) ∧
    (∃ (s : State) (h : Hw) (n : Nat) (x : RootPort), ∃ g, h = clearSent s.hw ∧ x = portAt h n ∧ x.exists_ = true ∧ x.isSlot = true ∧
     x.hotReset = false ∧ h.start.ports = true ∧ h.start.st = PowerSt.active ∧ x.slot = SlotSt.perst ∧ g =
     { h with tb := { h.tb with now := max h.tb.now (x.slotAt + 301000000) } }) ∧
    (∃ (s : State) (h : Hw) (n : Nat) (x : RootPort), ∃ g, h = clearSent s.hw ∧ x = portAt h n ∧ x.slot = SlotSt.powered ∧ hasPin h 9 n =
     true ∧ g = { h with tb := { h.tb with now := max h.tb.now (x.slotAt + 101000000) } }) ∧
    (∃ (s : State) (h : Hw) (n : Nat) (x : RootPort), h = clearSent s.hw ∧ x = portAt h n ∧ ((x.slot ≠ SlotSt.powered ∨ hasPin h 9 n =
     false))) ∧
    (∃ (s : State) (h : Hw) (n : Nat) (x : RootPort), h = clearSent s.hw ∧ x = portAt h n ∧ ((x.isSlot = false ∨ x.slot = SlotSt.empty))) ∧
    (∃ (s : State) (h : Hw) (n : Nat) (x : RootPort), ∃ g, h = clearSent s.hw ∧ x = portAt h n ∧ x.isSlot = true ∧ x.slot ≠ SlotSt.empty ∧ g
     = errorPort (slotPowerOff h n) n ∧ funcsOn h n = []) ∧
    (∃ (s : State) (h : Hw) (n : Nat) (x : RootPort) (f : Nat), ∃ g o, h = clearSent s.hw ∧ x = portAt h n ∧ x.isSlot = true ∧ x.slot ≠
     SlotSt.empty ∧ g = errorPort (slotPowerOff h n) n ∧ funcsOn h n = [f] ∧ (unitAt h 9 f).owner = o ∧ o ≤ 16) ∧
    (∃ (s : State) (h : Hw) (n : Nat) (x : RootPort), h = clearSent s.hw ∧ x = portAt h n ∧ x.isSlot = true ∧ hasPin h 7 n = true) ∧
    (∃ (s : State) (h : Hw) (n : Nat) (x : RootPort), h = clearSent s.hw ∧ x = portAt h n ∧ ((x.isSlot = false ∨ hasPin h 7 n = false))) ∧
    (∃ (s : State) (h : Hw) (n : Nat) (x : RootPort), h = clearSent s.hw ∧ x = portAt h n ∧ x.exists_ = true ∧ x.hotReset = false ∧
     ((x.training = true ∨ x.contained = true)) ∧ x.isSlot = false ∧ (islandAt h { kind := .rootPort, idx := n / 4 }).power = .open) ∧
    (∃ (s : State) (h : Hw) (n : Nat) (x : RootPort), h = clearSent s.hw ∧ x = portAt h n ∧ x.up = true ∧ x.isSlot = false) ∧
    (∃ (s : State) (h : Hw) (n : Nat) (x : RootPort), h = clearSent s.hw ∧ x = portAt h n ∧ ((x.up = false ∨ x.isSlot = true))) ∧
    (∃ (s : State) (h : Hw) (n : Nat) (x : RootPort), ∃ g, h = clearSent s.hw ∧ x = portAt h n ∧ h.edges.i3cAck = false ∧ h.start.st ≠
     PowerSt.off ∧ g = { h with tb := { h.tb with now := max h.tb.now (h.start.t0 + 50000000) } }) ∧
    (∃ (s : State) (h : Hw) (n : Nat) (x : RootPort), h = clearSent s.hw ∧ x = portAt h n ∧ h.edges.i3cAck = true) ∧
    (∃ (s : State) (h : Hw) (n : Nat) (x : RootPort), h = clearSent s.hw ∧ x = portAt h n ∧ h.start.t0 + 50000000 ≤ h.tb.now ∧ h.start.st ≠
     PowerSt.off) ∧
    (∃ (s : State) (h : Hw) (n : Nat) (x : RootPort), h = clearSent s.hw ∧ x = portAt h n ∧ h.tb.now < h.start.t0 + 50000000) ∧
    (∃ (s : State) (h : Hw) (n : Nat) (x : RootPort), ∃ g, h = clearSent s.hw ∧ x = portAt h n ∧ h.start.st ≠ PowerSt.off ∧ g =
     { h with tb := { h.tb with now := max h.tb.now (h.tb.now + 20000000) } }) ∧
    (∃ (s : State) (h : Hw) (n : Nat) (x : RootPort), h = clearSent s.hw ∧ x = portAt h n ∧ h.ident.bench = false) ∧
    (∃ (s : State) (h : Hw) (n : Nat) (x : RootPort) (k : Nat), h = clearSent s.hw ∧ x = portAt h n ∧ h.ident.bench = true ∧
     h.ident.sites.getD k .ldie = .stack) ∧
    (∃ (s : State) (h : Hw) (n : Nat) (x : RootPort) (k : Nat), h = clearSent s.hw ∧ x = portAt h n ∧ h.ident.bench = true ∧
     h.ident.sites.getD k .ldie ≠ .stack) :=
  ⟨⟨(st {}), _, 31, _, rfl, rfl⟩,
   ⟨(st {}), _, 31, _, rfl, rfl, (by decide +kernel)⟩,
   ⟨(st { start := { ports := true }, edges := { ports := [(31, { exists_ := true, isSlot := true })] } }), _, 31, _, rfl, rfl,
     (by decide +kernel), (by decide +kernel), (by decide +kernel), (by decide +kernel), (by decide +kernel), (by decide +kernel)⟩,
   ⟨(st { start := { ports := true }, edges := { ports := [(31, { exists_ := true, isSlot := true, slot := .debounced })] } }), _, 31, _, _,
     rfl, rfl, (by decide +kernel), (by decide +kernel), (by decide +kernel), (by decide +kernel), (by decide +kernel), (by decide +kernel),
     (by decide +kernel), rfl⟩,
   ⟨(st
     { start := { ports := true }, edges := { ports := [(31, { exists_ := true, isSlot := true, slot := .debounced, held := true })] } }),
     _, 31, _, rfl, rfl, (by decide +kernel), (by decide +kernel), (by decide +kernel), (by decide +kernel), (by decide +kernel),
     (by decide +kernel), (by decide +kernel)⟩,
   ⟨(st { start := { ports := true }, edges := { ports := [(31, { exists_ := true, isSlot := true, slot := .powered })] } }), _, 31, _, _,
     rfl, rfl, (by decide +kernel), (by decide +kernel), (by decide +kernel), (by decide +kernel), (by decide +kernel), (by decide +kernel),
     rfl⟩,
   ⟨(st { start := { ports := true }, edges := { ports := [(31, { exists_ := true, isSlot := true, slot := .perst })] } }), _, 31, _, _,
     rfl, rfl, (by decide +kernel), (by decide +kernel), (by decide +kernel), (by decide +kernel), (by decide +kernel), (by decide +kernel),
     rfl⟩,
   ⟨(st { edges := { ports := [(31, { exists_ := true, isSlot := true, slot := .powered })], pins := [(0, { fn := 9, arg := 31 })] } }), _,
     31, _, _, rfl, rfl, (by decide +kernel), (by decide +kernel), rfl⟩,
   ⟨(st {}), _, 31, _, rfl, rfl, (by decide +kernel)⟩,
   ⟨(st {}), _, 31, _, rfl, rfl, (by decide +kernel)⟩,
   ⟨(st { edges := { ports := [(31, { exists_ := true, isSlot := true, slot := .up })] } }), _, 31, _, _, rfl, rfl, (by decide +kernel),
     (by decide +kernel), rfl, (by decide +kernel)⟩,
   ⟨(st
     { edges := { ports := [(31, { exists_ := true, isSlot := true, slot := .up })], funcs := [(65536, { port := 31 })] }, sel := { units := [(unitKey 9 65536, { owner := 16, state := .owned })] } }),
     _, 31, _, 65536, _, _, rfl, rfl, (by decide +kernel), (by decide +kernel), rfl, (by decide +kernel), rfl, (by decide +kernel)⟩,
   ⟨(st { edges := { ports := [(31, { exists_ := true, isSlot := true })], pins := [(0, { fn := 7, arg := 31 })] } }), _, 31, _, rfl, rfl,
     (by decide +kernel), (by decide +kernel)⟩,
   ⟨(st {}), _, 31, _, rfl, rfl, (by decide +kernel)⟩,
   ⟨(st { edges := { ports := [(31, { exists_ := true, contained := true })] } }), _, 31, _, rfl, rfl, (by decide +kernel),
     (by decide +kernel), (by decide +kernel), (by decide +kernel), (by decide +kernel)⟩,
   ⟨(st { edges := { ports := [(31, { up := true })] } }), _, 31, _, rfl, rfl, (by decide +kernel), (by decide +kernel)⟩,
   ⟨(st {}), _, 31, _, rfl, rfl, (by decide +kernel)⟩,
   ⟨(st {}), _, 0, _, _, rfl, rfl, (by decide +kernel), (by decide +kernel), rfl⟩,
   ⟨(st { edges := { i3cAck := true } }), _, 0, _, rfl, rfl, (by decide +kernel)⟩,
   ⟨(st { tb := { now := 50000000 } }), _, 0, _, rfl, rfl, (by decide +kernel), (by decide +kernel)⟩,
   ⟨(st {}), _, 31, _, rfl, rfl, (by decide +kernel)⟩,
   ⟨(st {}), _, 31, _, _, rfl, rfl, (by decide +kernel), rfl⟩,
   ⟨(st {}), _, 0, _, rfl, rfl, (by decide +kernel)⟩,
   ⟨(st { ident := { bench := true } }), _, 0, _, 11, rfl, rfl, (by decide +kernel), (by decide +kernel)⟩,
   ⟨(st { ident := { bench := true } }), _, 0, _, 12, rfl, rfl, (by decide +kernel), (by decide +kernel)⟩⟩

theorem wit_DeviceRows :
    (∃ (s : State) (h : Hw) (g : Hw) (f : Nat) (x : Func) (u : UnitOwn) (q : InReq), h = clearSent s.hw ∧ g = stir h ∧ x = funcAt g f ∧ u =
     unitAt g 9 f ∧ NoWait g ∧ (q = .io ∨ q = .config ∨ q = .translation ∨ q = .pasid)) ∧
    (∃ (s : State) (h : Hw) (g : Hw) (f : Nat) (x : Func) (u : UnitOwn) (a : Nat), h = clearSent s.hw ∧ g = stir h ∧ x = funcAt g f ∧ u =
     unitAt g 9 f ∧ NoWait g ∧ 2 ^ 56 ≤ a) ∧
    (∃ (s : State) (h : Hw) (g : Hw) (f : Nat) (x : Func) (u : UnitOwn) (a : Nat) (q : InReq) (e : Nat), h = clearSent s.hw ∧ g = stir h ∧ x
     = funcAt g f ∧ u = unitAt g 9 f ∧ NoWait g ∧ a < 2 ^ 56 ∧ (((∃ n, q = .read n) ∧ e = 3) ∨ (((∃ b p, q = .write b p) ∨ ∃ o z v w, q =
     .atomic o z v w) ∧ e = 0)) ∧ 16 < u.owner) ∧
    (∃ (s : State) (h : Hw) (g : Hw) (f : Nat) (x : Func) (u : UnitOwn) (st : Option Nat) (a : Nat) (q : InReq) (e : Nat) (v : Hw), h =
     clearSent s.hw ∧ g = stir h ∧ x = funcAt g f ∧ u = unitAt g 9 f ∧ NoWait g ∧ a < 2 ^ 56 ∧ (((∃ n, q = .read n) ∧ e = 3) ∨ (((∃ b p, q =
     .write b p) ∨ ∃ o z v w, q = .atomic o z v w) ∧ e = 0)) ∧ u.owner ≤ 16 ∧ (u.state ≠ UnitState.owned ∨ partFenced g u.owner = true ∨
     (u.owner ≠ 0 ∧ (x.tdisp ≠ Tdisp.run ∨ x.ide ≠ 1 ∨ st ≠ some x.stream))) ∧ v = answerWith (recordWrite (countRefusal g u.owner)
     { type := 0x0101, part := u.owner, addr := a, arg0 := noDesc }) [] e ∧ NoWait v) ∧
    (∃ (s : State) (h : Hw) (g : Hw) (f : Nat) (x : Func) (u : UnitOwn) (st : Option Nat) (a : Nat) (n : Nat) (o : HM × List Byte × Nat), h
     = clearSent s.hw ∧ g = stir h ∧ x = funcAt g f ∧ u = unitAt g 9 f ∧ NoWait g ∧ a < 2 ^ 56 ∧ u.state = UnitState.owned ∧ u.owner ≤ 16 ∧
     partFenced g u.owner = false ∧ (u.owner = 0 ∨ (x.tdisp = Tdisp.run ∧ x.ide = 1 ∧ st = some x.stream)) ∧ regionOf (compactLocal a) ≠ 3 ∧
     o = (swatchCuts a n).foldl (deviceReadPiece f u.owner a) ((g, s.mem), [], 0) ∧ NoWait o.1.1) ∧
    (∃ (s : State) (h : Hw) (g : Hw) (f : Nat) (x : Func) (u : UnitOwn) (st : Option Nat) (a : Nat) (n : Nat) (o : HM × Got), h = clearSent
     s.hw ∧ g = stir h ∧ x = funcAt g f ∧ u = unitAt g 9 f ∧ NoWait g ∧ a < 2 ^ 56 ∧ u.state = UnitState.owned ∧ u.owner ≤ 16 ∧ partFenced g
     u.owner = false ∧ (u.owner = 0 ∨ (x.tdisp = Tdisp.run ∧ x.ide = 1 ∧ st = some x.stream)) ∧ regionOf (compactLocal a) ≠ 3 ∧ 0 < n ∧
     swatchOf (a + n - 1) = swatchOf a ∧ o = engineRead (g, s.mem) 4 u.owner true a n ∧ NoWait o.1.1 ∧ o.2.v = .ok) ∧
    (∃ (s : State) (h : Hw) (g : Hw) (f : Nat) (x : Func) (u : UnitOwn) (st : Option Nat) (a : Nat) (n : Nat) (o : HM × Got) (v : Hw), h =
     clearSent s.hw ∧ g = stir h ∧ x = funcAt g f ∧ u = unitAt g 9 f ∧ NoWait g ∧ a < 2 ^ 56 ∧ u.state = UnitState.owned ∧ u.owner ≤ 16 ∧
     partFenced g u.owner = false ∧ (u.owner = 0 ∨ (x.tdisp = Tdisp.run ∧ x.ide = 1 ∧ st = some x.stream)) ∧ regionOf (compactLocal a) ≠ 3 ∧
     0 < n ∧ swatchOf (a + n - 1) = swatchOf a ∧ o = engineRead (g, s.mem) 4 u.owner true a n ∧ NoWait o.1.1 ∧ (o.2.v = .absent ∨ ∃ w, o.2.v
     = .refused w) ∧ v = refuseDevice o.1.1 f a true ∧ NoWait v) ∧
    (∃ (s : State) (h : Hw) (g : Hw) (f : Nat) (x : Func) (u : UnitOwn) (st : Option Nat) (a : Nat) (b : List Byte) (p : Bool) (o : HM), h =
     clearSent s.hw ∧ g = stir h ∧ x = funcAt g f ∧ u = unitAt g 9 f ∧ NoWait g ∧ a < 2 ^ 56 ∧ u.state = UnitState.owned ∧ u.owner ≤ 16 ∧
     partFenced g u.owner = false ∧ (u.owner = 0 ∨ (x.tdisp = Tdisp.run ∧ x.ide = 1 ∧ st = some x.stream)) ∧ regionOf (compactLocal a) ≠ 3 ∧
     o = (swatchCuts a b.length).foldl (deviceWritePiece f u.owner a b p) (g, s.mem) ∧ NoWait o.1) ∧
    (∃ (s : State) (h : Hw) (g : Hw) (f : Nat) (x : Func) (u : UnitOwn) (st : Option Nat) (a : Nat) (b : List Byte) (p : Bool) (o : HM ×
     Verdict), h = clearSent s.hw ∧ g = stir h ∧ x = funcAt g f ∧ u = unitAt g 9 f ∧ NoWait g ∧ a < 2 ^ 56 ∧ u.state = UnitState.owned ∧
     u.owner ≤ 16 ∧ partFenced g u.owner = false ∧ (u.owner = 0 ∨ (x.tdisp = Tdisp.run ∧ x.ide = 1 ∧ st = some x.stream)) ∧ regionOf
     (compactLocal a) ≠ 3 ∧ 0 < b.length ∧ swatchOf (a + b.length - 1) = swatchOf a ∧ o = engineWrite (g, s.mem) u.owner a b p ∧ NoWait
     o.1.1 ∧ o.2 = .ok) ∧
    (∃ (s : State) (h : Hw) (g : Hw) (f : Nat) (x : Func) (u : UnitOwn) (st : Option Nat) (a : Nat) (b : List Byte) (p : Bool) (o : HM ×
     Verdict) (i : Island) (v : Hw), h = clearSent s.hw ∧ g = stir h ∧ x = funcAt g f ∧ u = unitAt g 9 f ∧ NoWait g ∧ a < 2 ^ 56 ∧ u.state =
     UnitState.owned ∧ u.owner ≤ 16 ∧ partFenced g u.owner = false ∧ (u.owner = 0 ∨ (x.tdisp = Tdisp.run ∧ x.ide = 1 ∧ st = some x.stream))
     ∧ regionOf (compactLocal a) ≠ 3 ∧ 0 < b.length ∧ swatchOf (a + b.length - 1) = swatchOf a ∧ o = engineWrite (g, s.mem) u.owner a b p ∧
     NoWait o.1.1 ∧ o.2 = .off ∧ targetIsland o.1.1 (compactLocal a) = some i ∧ v = ghostWrite o.1.1 i u.owner a ∧ NoWait v) ∧
    (∃ (s : State) (h : Hw) (g : Hw) (f : Nat) (x : Func) (u : UnitOwn) (st : Option Nat) (a : Nat) (b : List Byte) (p : Bool) (o : HM ×
     Verdict) (v : Hw), h = clearSent s.hw ∧ g = stir h ∧ x = funcAt g f ∧ u = unitAt g 9 f ∧ NoWait g ∧ a < 2 ^ 56 ∧ u.state =
     UnitState.owned ∧ u.owner ≤ 16 ∧ partFenced g u.owner = false ∧ (u.owner = 0 ∨ (x.tdisp = Tdisp.run ∧ x.ide = 1 ∧ st = some x.stream))
     ∧ regionOf (compactLocal a) ≠ 3 ∧ 0 < b.length ∧ swatchOf (a + b.length - 1) = swatchOf a ∧ o = engineWrite (g, s.mem) u.owner a b p ∧
     NoWait o.1.1 ∧ (o.2 = .absent ∨ ∃ w, o.2 = .refused w) ∧ v = refuseDevice o.1.1 f a false ∧ NoWait v) ∧
    (∃ (s : State) (h : Hw) (g : Hw) (f : Nat) (x : Func) (u : UnitOwn) (a : Nat) (n : Nat) (q : Nat) (v : Hw), h = clearSent s.hw ∧ g =
     stir h ∧ x = funcAt g f ∧ u = unitAt g 9 f ∧ NoWait g ∧ (regionOf a = 4 ∨ regionOf a = 5) ∧ windowPort h a = some n ∧ q ≤ 1 ∧ v =
     devErrorBy h a 0 q) ∧
    (∃ (s : State) (h : Hw) (g : Hw) (f : Nat) (x : Func) (u : UnitOwn) (i : Nat) (k : Nat) (a : Nat) (n : Nat) (v : Hw) (d : Desc), h =
     clearSent s.hw ∧ g = stir h ∧ x = funcAt g f ∧ u = unitAt g 9 f ∧ NoWait g ∧ (regionOf a = 4 ∨ regionOf a = 5) ∧ windowPort h a = some
     n ∧ v = devErrorBy { h with tb := { h.tb with now := max h.tb.now (h.tb.now + (portAt h n).timeoutMs * 1000000) } } a 0 2 ∧ findDesc
     (slipAt v i) (w32 k) = some d) ∧
    (∃ (s : State) (h : Hw) (g : Hw) (f : Nat) (x : Func) (u : UnitOwn) (y : Func) (o : Nat), h = clearSent s.hw ∧ g = stir h ∧ x = funcAt g
     f ∧ u = unitAt g 9 f ∧ NoWait g ∧ y = funcAt h f ∧ o = (unitAt h 9 f).owner ∧ y.ide = 1 ∧ o ≤ 16) ∧
    (∃ (s : State) (h : Hw) (g : Hw) (f : Nat) (x : Func) (u : UnitOwn), h = clearSent s.hw ∧ g = stir h ∧ x = funcAt g f ∧ u = unitAt g 9 f
     ∧ NoWait g ∧ (funcAt h f).ide ≠ 1) ∧
    (∃ (s : State) (h : Hw) (g : Hw) (f : Nat) (x : Func) (u : UnitOwn) (n : Nat), h = clearSent s.hw ∧ g = stir h ∧ x = funcAt g f ∧ u =
     unitAt g 9 f ∧ NoWait g ∧ ((portAt h n).exists_ = false ∨ (portAt h n).cxl = false)) ∧
    (∃ (s : State) (h : Hw) (g : Hw) (f : Nat) (x : Func) (u : UnitOwn) (n : Nat) (p : RootPort), h = clearSent s.hw ∧ g = stir h ∧ x =
     funcAt g f ∧ u = unitAt g 9 f ∧ NoWait g ∧ p = portAt h n ∧ p.exists_ = true ∧ p.cxl = true ∧ p.up = true ∧ portGranules h n = []) ∧
    (∃ (s : State) (h : Hw) (g : Hw) (f : Nat) (x : Func) (u : UnitOwn) (n : Nat) (p : RootPort), h = clearSent s.hw ∧ g = stir h ∧ x =
     funcAt g f ∧ u = unitAt g 9 f ∧ NoWait g ∧ p = portAt h n ∧ p.exists_ = true ∧ p.cxl = true ∧ p.mediaBad = false) ∧
    (∃ (s : State) (h : Hw) (g : Hw) (f : Nat) (x : Func) (u : UnitOwn) (st : Option Nat) (a : Nat) (p : Nat) (T : Hw → Hw) (n : Nat) (o :
     HM × List Byte × Nat), h = clearSent s.hw ∧ g = stir h ∧ x = funcAt g f ∧ u = unitAt g 9 f ∧ NoWait g ∧ a < 2 ^ 56 ∧ u.state =
     UnitState.owned ∧ p = u.owner ∧ p ≤ 16 ∧ partFenced g p = false ∧ (p = 0 ∨ (x.tdisp = Tdisp.run ∧ x.ide = 1 ∧ st = some x.stream)) ∧ T
     = (fun v => tagWrites v (.func f)) ∧ regionOf (compactLocal a) ≠ 3 ∧ actorPending g (.func f) = false ∧ o = (swatchCuts a n).foldl
     (deviceReadPiece f p a) ((g, s.mem), [], 0) ∧ NoWait o.1.1) ∧
    (∃ (s : State) (h : Hw) (g : Hw) (f : Nat) (x : Func) (u : UnitOwn) (st : Option Nat) (a : Nat) (p : Nat) (T : Hw → Hw) (n : Nat) (o :
     HM × Got), h = clearSent s.hw ∧ g = stir h ∧ x = funcAt g f ∧ u = unitAt g 9 f ∧ NoWait g ∧ a < 2 ^ 56 ∧ u.state = UnitState.owned ∧ p
     = u.owner ∧ p ≤ 16 ∧ partFenced g p = false ∧ (p = 0 ∨ (x.tdisp = Tdisp.run ∧ x.ide = 1 ∧ st = some x.stream)) ∧ T = (fun v =>
     tagWrites v (.func f)) ∧ regionOf (compactLocal a) ≠ 3 ∧ actorPending g (.func f) = false ∧ 0 < n ∧ swatchOf (a + n - 1) = swatchOf a ∧
     o = engineRead (g, s.mem) 4 p true a n ∧ NoWait o.1.1 ∧ o.2.v = .ok) ∧
    (∃ (s : State) (h : Hw) (g : Hw) (f : Nat) (x : Func) (u : UnitOwn) (st : Option Nat) (a : Nat) (p : Nat) (T : Hw → Hw) (n : Nat) (o :
     HM × Got) (v : Hw), h = clearSent s.hw ∧ g = stir h ∧ x = funcAt g f ∧ u = unitAt g 9 f ∧ NoWait g ∧ a < 2 ^ 56 ∧ u.state =
     UnitState.owned ∧ p = u.owner ∧ p ≤ 16 ∧ partFenced g p = false ∧ (p = 0 ∨ (x.tdisp = Tdisp.run ∧ x.ide = 1 ∧ st = some x.stream)) ∧ T
     = (fun v => tagWrites v (.func f)) ∧ regionOf (compactLocal a) ≠ 3 ∧ actorPending g (.func f) = false ∧ 0 < n ∧ swatchOf (a + n - 1) =
     swatchOf a ∧ o = engineRead (g, s.mem) 4 p true a n ∧ NoWait o.1.1 ∧ (o.2.v = .absent ∨ ∃ w, o.2.v = .refused w) ∧ v = refuseDevice
     o.1.1 f a true ∧ NoWait v) ∧
    (∃ (s : State) (h : Hw) (g : Hw) (f : Nat) (x : Func) (u : UnitOwn) (st : Option Nat) (a : Nat) (p : Nat) (T : Hw → Hw) (b : List Byte)
     (y : Bool) (o : HM), h = clearSent s.hw ∧ g = stir h ∧ x = funcAt g f ∧ u = unitAt g 9 f ∧ NoWait g ∧ a < 2 ^ 56 ∧ u.state =
     UnitState.owned ∧ p = u.owner ∧ p ≤ 16 ∧ partFenced g p = false ∧ (p = 0 ∨ (x.tdisp = Tdisp.run ∧ x.ide = 1 ∧ st = some x.stream)) ∧ T
     = (fun v => tagWrites v (.func f)) ∧ regionOf (compactLocal a) ≠ 3 ∧ o = (swatchCuts a b.length).foldl (deviceWritePiece f p a b y) (g,
     s.mem) ∧ NoWait o.1) ∧
    (∃ (s : State) (h : Hw) (g : Hw) (f : Nat) (x : Func) (u : UnitOwn) (st : Option Nat) (a : Nat) (p : Nat) (T : Hw → Hw) (b : List Byte)
     (y : Bool) (o : HM × Verdict), h = clearSent s.hw ∧ g = stir h ∧ x = funcAt g f ∧ u = unitAt g 9 f ∧ NoWait g ∧ a < 2 ^ 56 ∧ u.state =
     UnitState.owned ∧ p = u.owner ∧ p ≤ 16 ∧ partFenced g p = false ∧ (p = 0 ∨ (x.tdisp = Tdisp.run ∧ x.ide = 1 ∧ st = some x.stream)) ∧ T
     = (fun v => tagWrites v (.func f)) ∧ regionOf (compactLocal a) ≠ 3 ∧ 0 < b.length ∧ swatchOf (a + b.length - 1) = swatchOf a ∧ o =
     engineWrite (g, s.mem) p a b y ∧ NoWait o.1.1 ∧ o.2 = .ok) ∧
    (∃ (s : State) (h : Hw) (g : Hw) (f : Nat) (x : Func) (u : UnitOwn) (st : Option Nat) (a : Nat) (p : Nat) (T : Hw → Hw) (b : List Byte)
     (y : Bool) (o : HM × Verdict) (v : Hw), h = clearSent s.hw ∧ g = stir h ∧ x = funcAt g f ∧ u = unitAt g 9 f ∧ NoWait g ∧ a < 2 ^ 56 ∧
     u.state = UnitState.owned ∧ p = u.owner ∧ p ≤ 16 ∧ partFenced g p = false ∧ (p = 0 ∨ (x.tdisp = Tdisp.run ∧ x.ide = 1 ∧ st = some
     x.stream)) ∧ T = (fun v => tagWrites v (.func f)) ∧ regionOf (compactLocal a) ≠ 3 ∧ 0 < b.length ∧ swatchOf (a + b.length - 1) =
     swatchOf a ∧ o = engineWrite (g, s.mem) p a b y ∧ NoWait o.1.1 ∧ o.2 = .off ∧ v = discardPosted o.1.1 p a ∧ NoWait v) ∧
    (∃ (s : State) (h : Hw) (g : Hw) (f : Nat) (x : Func) (u : UnitOwn) (st : Option Nat) (a : Nat) (p : Nat) (T : Hw → Hw) (b : List Byte)
     (y : Bool) (o : HM × Verdict) (v : Hw), h = clearSent s.hw ∧ g = stir h ∧ x = funcAt g f ∧ u = unitAt g 9 f ∧ NoWait g ∧ a < 2 ^ 56 ∧
     u.state = UnitState.owned ∧ p = u.owner ∧ p ≤ 16 ∧ partFenced g p = false ∧ (p = 0 ∨ (x.tdisp = Tdisp.run ∧ x.ide = 1 ∧ st = some
     x.stream)) ∧ T = (fun v => tagWrites v (.func f)) ∧ regionOf (compactLocal a) ≠ 3 ∧ 0 < b.length ∧ swatchOf (a + b.length - 1) =
     swatchOf a ∧ o = engineWrite (g, s.mem) p a b y ∧ NoWait o.1.1 ∧ (o.2 = .absent ∨ ∃ w, o.2 = .refused w) ∧ v = refuseDevice o.1.1 f a
     false ∧ NoWait v) ∧
    (∃ (s : State) (h : Hw) (g : Hw) (f : Nat) (x : Func) (u : UnitOwn) (st : Option Nat) (a : Nat) (p : Nat) (T : Hw → Hw) (c : Nat) (n :
     Nat) (v : Nat), h = clearSent s.hw ∧ g = stir h ∧ x = funcAt g f ∧ u = unitAt g 9 f ∧ NoWait g ∧ a < 2 ^ 56 ∧ u.state = UnitState.owned
     ∧ p = u.owner ∧ p ≤ 16 ∧ partFenced g p = false ∧ (p = 0 ∨ (x.tdisp = Tdisp.run ∧ x.ide = 1 ∧ st = some x.stream)) ∧ T = (fun v =>
     tagWrites v (.func f)) ∧ actorPending g (.func f) = false ∧ (regionOf (compactLocal a) ∈ [3, 4, 5] ∨ devAtomic c n = none ∨
     compactLocal a % n ≠ 0)) ∧
    (∃ (s : State) (h : Hw) (g : Hw) (f : Nat) (x : Func) (u : UnitOwn) (st : Option Nat) (a : Nat) (p : Nat) (T : Hw → Hw) (c : Nat) (n :
     Nat) (v : Nat) (w : Nat) (k : Nat) (d : Verdict) (o : HM × Nat), h = clearSent s.hw ∧ g = stir h ∧ x = funcAt g f ∧ u = unitAt g 9 f ∧
     NoWait g ∧ a < 2 ^ 56 ∧ u.state = UnitState.owned ∧ p = u.owner ∧ p ≤ 16 ∧ partFenced g p = false ∧ (p = 0 ∨ (x.tdisp = Tdisp.run ∧
     x.ide = 1 ∧ st = some x.stream)) ∧ T = (fun v => tagWrites v (.func f)) ∧ actorPending g (.func f) = false ∧ regionOf (compactLocal a)
     ∉ [3, 4, 5] ∧ devAtomic c n = some k ∧ compactLocal a % n = 0 ∧ d = verdict g p a n true ∧ d = .ok ∧ poisoned g (compactLocal a) =
     false ∧ o = atomicAt (g, s.mem) true (compactLocal a) k n v w ∧ NoWait o.1.1) ∧
    (∃ (s : State) (h : Hw) (g : Hw) (f : Nat) (x : Func) (u : UnitOwn) (st : Option Nat) (a : Nat) (p : Nat) (T : Hw → Hw) (c : Nat) (n :
     Nat) (v : Nat) (k : Nat) (d : Verdict), h = clearSent s.hw ∧ g = stir h ∧ x = funcAt g f ∧ u = unitAt g 9 f ∧ NoWait g ∧ a < 2 ^ 56 ∧
     u.state = UnitState.owned ∧ p = u.owner ∧ p ≤ 16 ∧ partFenced g p = false ∧ (p = 0 ∨ (x.tdisp = Tdisp.run ∧ x.ide = 1 ∧ st = some
     x.stream)) ∧ T = (fun v => tagWrites v (.func f)) ∧ actorPending g (.func f) = false ∧ regionOf (compactLocal a) ∉ [3, 4, 5] ∧
     devAtomic c n = some k ∧ compactLocal a % n = 0 ∧ d = verdict g p a n true ∧ (d = .ok ∧ poisoned g (compactLocal a) = true ∨ d =
     .dead)) ∧
    (∃ (s : State) (h : Hw) (g : Hw) (f : Nat) (x : Func) (u : UnitOwn) (st : Option Nat) (a : Nat) (p : Nat) (T : Hw → Hw) (c : Nat) (n :
     Nat) (v : Nat) (w : Nat) (k : Nat) (d : Verdict) (o : List Byte × Hw) (e : Hw), h = clearSent s.hw ∧ g = stir h ∧ x = funcAt g f ∧ u =
     unitAt g 9 f ∧ NoWait g ∧ a < 2 ^ 56 ∧ u.state = UnitState.owned ∧ p = u.owner ∧ p ≤ 16 ∧ partFenced g p = false ∧ (p = 0 ∨ (x.tdisp =
     Tdisp.run ∧ x.ide = 1 ∧ st = some x.stream)) ∧ T = (fun v => tagWrites v (.func f)) ∧ actorPending g (.func f) = false ∧ regionOf
     (compactLocal a) ∉ [3, 4, 5] ∧ devAtomic c n = some k ∧ compactLocal a % n = 0 ∧ d = verdict g p a n true ∧ isLocal g a = false ∧
     isMember g (compactPos a) = true ∧ memberFenced g = false ∧ regionOf (compactLocal a) < 8 ∧ o = atomicAfar g p 7 a n v w k ∧ e =
     refuseDevice g f a false ∧ NoWait o.2 ∧ NoWait e) ∧
    (∃ (s : State) (h : Hw) (g : Hw) (f : Nat) (x : Func) (u : UnitOwn) (st : Option Nat) (a : Nat) (p : Nat) (T : Hw → Hw) (c : Nat) (n :
     Nat) (v : Nat) (k : Nat) (d : Verdict), h = clearSent s.hw ∧ g = stir h ∧ x = funcAt g f ∧ u = unitAt g 9 f ∧ NoWait g ∧ a < 2 ^ 56 ∧
     u.state = UnitState.owned ∧ p = u.owner ∧ p ≤ 16 ∧ partFenced g p = false ∧ (p = 0 ∨ (x.tdisp = Tdisp.run ∧ x.ide = 1 ∧ st = some
     x.stream)) ∧ T = (fun v => tagWrites v (.func f)) ∧ actorPending g (.func f) = false ∧ regionOf (compactLocal a) ∉ [3, 4, 5] ∧
     devAtomic c n = some k ∧ compactLocal a % n = 0 ∧ d = verdict g p a n true ∧ d = .off) ∧
    (∃ (s : State) (h : Hw) (g : Hw) (f : Nat) (x : Func) (u : UnitOwn) (st : Option Nat) (a : Nat) (p : Nat) (T : Hw → Hw) (c : Nat) (n :
     Nat) (v : Nat) (w : Nat) (k : Nat) (d : Verdict) (e : Hw), h = clearSent s.hw ∧ g = stir h ∧ x = funcAt g f ∧ u = unitAt g 9 f ∧ NoWait
     g ∧ a < 2 ^ 56 ∧ u.state = UnitState.owned ∧ p = u.owner ∧ p ≤ 16 ∧ partFenced g p = false ∧ (p = 0 ∨ (x.tdisp = Tdisp.run ∧ x.ide = 1
     ∧ st = some x.stream)) ∧ T = (fun v => tagWrites v (.func f)) ∧ actorPending g (.func f) = false ∧ regionOf (compactLocal a) ∉ [3, 4,
     5] ∧ devAtomic c n = some k ∧ compactLocal a % n = 0 ∧ d = verdict g p a n true ∧ (d = .absent ∨ ∃ w, d = .refused w) ∧ e =
     refuseDevice g f a false ∧ NoWait e) ∧
    (∃ (s : State) (h : Hw) (g : Hw) (f : Nat) (x : Func) (u : UnitOwn) (st : Option Nat) (a : Nat) (p : Nat) (T : Hw → Hw) (o : Nat), h =
     clearSent s.hw ∧ g = stir h ∧ x = funcAt g f ∧ u = unitAt g 9 f ∧ NoWait g ∧ a < 2 ^ 56 ∧ u.state = UnitState.owned ∧ p = u.owner ∧ p ≤
     16 ∧ partFenced g p = false ∧ (p = 0 ∨ (x.tdisp = Tdisp.run ∧ x.ide = 1 ∧ st = some x.stream)) ∧ T = (fun v => tagWrites v (.func f)) ∧
     regionOf (compactLocal a) = 3 ∧ o = offsetOf (compactLocal a) ∧ actorPending g (.func f) = false) ∧
    (∃ (s : State) (h : Hw) (g : Hw) (f : Nat) (x : Func) (u : UnitOwn) (st : Option Nat) (a : Nat) (p : Nat) (T : Hw → Hw) (o : Nat) (b :
     List Byte), h = clearSent s.hw ∧ g = stir h ∧ x = funcAt g f ∧ u = unitAt g 9 f ∧ NoWait g ∧ a < 2 ^ 56 ∧ u.state = UnitState.owned ∧ p
     = u.owner ∧ p ≤ 16 ∧ partFenced g p = false ∧ (p = 0 ∨ (x.tdisp = Tdisp.run ∧ x.ide = 1 ∧ st = some x.stream)) ∧ T = (fun v =>
     tagWrites v (.func f)) ∧ regionOf (compactLocal a) = 3 ∧ o = offsetOf (compactLocal a) ∧ (b.length ≠ 4 ∨ o % 4 ≠ 0 ∨ 17 * 2 ^ 24 ≤ o ∨
     o % 2 ^ 24 < 0xC00000)) ∧
    (∃ (s : State) (h : Hw) (g : Hw) (f : Nat) (x : Func) (u : UnitOwn) (st : Option Nat) (a : Nat) (p : Nat) (T : Hw → Hw) (o : Nat) (b :
     List Byte) (v : HM), h = clearSent s.hw ∧ g = stir h ∧ x = funcAt g f ∧ u = unitAt g 9 f ∧ NoWait g ∧ a < 2 ^ 56 ∧ u.state =
     UnitState.owned ∧ p = u.owner ∧ p ≤ 16 ∧ partFenced g p = false ∧ (p = 0 ∨ (x.tdisp = Tdisp.run ∧ x.ide = 1 ∧ st = some x.stream)) ∧ T
     = (fun v => tagWrites v (.func f)) ∧ regionOf (compactLocal a) = 3 ∧ o = offsetOf (compactLocal a) ∧ b.length = 4 ∧ o % 4 = 0 ∧ o < 17
     * 2 ^ 24 ∧ 0xC00000 ≤ o % 2 ^ 24 ∧ isLocal g a = false ∧ v = deviceWritePiece f p a b false (g, s.mem) (0, 4) ∧ NoWait v.1) ∧
    (∃ (s : State) (h : Hw) (g : Hw) (f : Nat) (x : Func) (u : UnitOwn) (st : Option Nat) (a : Nat) (p : Nat) (T : Hw → Hw) (o : Nat) (b :
     List Byte) (v : Hw), h = clearSent s.hw ∧ g = stir h ∧ x = funcAt g f ∧ u = unitAt g 9 f ∧ NoWait g ∧ a < 2 ^ 56 ∧ u.state =
     UnitState.owned ∧ p = u.owner ∧ p ≤ 16 ∧ partFenced g p = false ∧ (p = 0 ∨ (x.tdisp = Tdisp.run ∧ x.ide = 1 ∧ st = some x.stream)) ∧ T
     = (fun v => tagWrites v (.func f)) ∧ regionOf (compactLocal a) = 3 ∧ o = offsetOf (compactLocal a) ∧ b.length = 4 ∧ o % 4 = 0 ∧ o < 17
     * 2 ^ 24 ∧ 0xC00000 ≤ o % 2 ^ 24 ∧ isLocal g a = true ∧ o / 2 ^ 24 ≠ p ∧ v = refuseDevice g f a false ∧ NoWait v) ∧
    (∃ (s : State) (h : Hw) (g : Hw) (f : Nat) (x : Func) (u : UnitOwn) (st : Option Nat) (a : Nat) (p : Nat) (T : Hw → Hw) (o : Nat) (b :
     List Byte) (v : HM), h = clearSent s.hw ∧ g = stir h ∧ x = funcAt g f ∧ u = unitAt g 9 f ∧ NoWait g ∧ a < 2 ^ 56 ∧ u.state =
     UnitState.owned ∧ p = u.owner ∧ p ≤ 16 ∧ partFenced g p = false ∧ (p = 0 ∨ (x.tdisp = Tdisp.run ∧ x.ide = 1 ∧ st = some x.stream)) ∧ T
     = (fun v => tagWrites v (.func f)) ∧ regionOf (compactLocal a) = 3 ∧ o = offsetOf (compactLocal a) ∧ b.length = 4 ∧ o % 4 = 0 ∧ o < 17
     * 2 ^ 24 ∧ 0xC00000 ≤ o % 2 ^ 24 ∧ isLocal g a = true ∧ o / 2 ^ 24 = p ∧ v = windowStore (g, s.mem) p (o % 2 ^ 24 / 8 * 8) (leNat b)
     (halfAt o 4) ∧ NoWait v.1) ∧
    (∃ (s : State) (h : Hw) (g : Hw) (f : Nat) (x : Func) (u : UnitOwn) (st : Option Nat) (a : Nat) (p : Nat) (T : Hw → Hw) (q : InReq), h =
     clearSent s.hw ∧ g = stir h ∧ x = funcAt g f ∧ u = unitAt g 9 f ∧ NoWait g ∧ a < 2 ^ 56 ∧ u.state = UnitState.owned ∧ p = u.owner ∧ p ≤
     16 ∧ partFenced g p = false ∧ (p = 0 ∨ (x.tdisp = Tdisp.run ∧ x.ide = 1 ∧ st = some x.stream)) ∧ T = (fun v => tagWrites v (.func f)) ∧
     ((∃ n, q = .read n) ∨ ∃ c n v w, q = .atomic c n v w) ∧ actorPending g (.func f) = true) ∧
    (∃ (s : State) (h : Hw) (g : Hw) (f : Nat) (x : Func) (u : UnitOwn) (st : Option Nat) (a : Nat) (q : InReq) (o : HM), h = clearSent s.hw
     ∧ g = stir h ∧ x = funcAt g f ∧ u = unitAt g 9 f ∧ NoWait g ∧ o = inbound (g, s.mem) f st a q ∧ ¬ NoWait o.1) :=
  ⟨⟨(st {}), _, _, 7, _, _, .pasid, rfl, rfl, rfl, rfl, (by decide +kernel), (by decide +kernel)⟩,
   ⟨(st {}), _, _, 7, _, _, (2 ^ 56), rfl, rfl, rfl, rfl, (by decide +kernel), (by decide +kernel)⟩,
   ⟨(st {}), _, _, 7, _, _, (2 ^ 56 - 1), (.read 1), 3, rfl, rfl, rfl, rfl, (by decide +kernel), (by decide +kernel), .inl ⟨⟨1, rfl⟩, rfl⟩,
     (by decide +kernel)⟩,
   ⟨(st
     { ident := { c0Gib := 1 }, sel := { units := [(unitKey 9 7, { owner := 1, state := .owned })], swatches := [(0, { owner := 1, state := .owned })] }, edges := { funcs := [(7, { tdisp := .run, ide := 1, stream := 255 })] } }),
     _, _, 7, _, _, none, 0, (.write [] false), 0, _, rfl, rfl, rfl, rfl, (by decide +kernel), (by decide +kernel), .inr ⟨.inl ⟨[], false,
     rfl⟩, rfl⟩, (by decide +kernel), (by decide +kernel), rfl, (by decide +kernel)⟩,
   ⟨(st
     { ident := { c0Gib := 1 }, sel := { units := [(unitKey 9 7, { owner := 1, state := .owned })], swatches := [(0, { owner := 1, state := .owned })] }, edges := { funcs := [(7, { tdisp := .run, ide := 1, stream := 255 })] } }),
     _, _, 7, _, _, (some 255), (2 ^ 21 - 4), 8, _, rfl, rfl, rfl, rfl, (by decide +kernel), (by decide +kernel), (by decide +kernel),
     (by decide +kernel), (by decide +kernel), (by decide +kernel), (by decide +kernel), rfl, (by decide +kernel)⟩,
   ⟨(st
     { ident := { c0Gib := 1 }, sel := { units := [(unitKey 9 7, { owner := 1, state := .owned })], swatches := [(0, { owner := 1, state := .owned })] }, edges := { funcs := [(7, { tdisp := .run, ide := 1, stream := 255 })] } }),
     _, _, 7, _, _, (some 255), 0, 8, _, rfl, rfl, rfl, rfl, (by decide +kernel), (by decide +kernel), (by decide +kernel),
     (by decide +kernel), (by decide +kernel), (by decide +kernel), (by decide +kernel), (by decide +kernel), (by decide +kernel), rfl,
     (by decide +kernel), (by decide +kernel)⟩,
   ⟨(st { ident := { c0Gib := 1 }, sel := { units := [(unitKey 9 7, { owner := 0, state := .owned })] } }), _, _, 7, _, _, none, 0, 8, _, _,
     rfl, rfl, rfl, rfl, (by decide +kernel), (by decide +kernel), (by decide +kernel), (by decide +kernel), (by decide +kernel),
     (by decide +kernel), (by decide +kernel), (by decide +kernel), (by decide +kernel), rfl, (by decide +kernel), .inr ⟨_, rfl⟩, rfl,
     (by decide +kernel)⟩,
   ⟨(st
     { ident := { c0Gib := 1 }, sel := { units := [(unitKey 9 7, { owner := 1, state := .owned })], swatches := [(0, { owner := 1, state := .owned })] }, edges := { funcs := [(7, { tdisp := .run, ide := 1, stream := 255 })] } }),
     _, _, 7, _, _, (some 255), (2 ^ 21 - 4), (zeros 8), false, _, rfl, rfl, rfl, rfl, (by decide +kernel), (by decide +kernel),
     (by decide +kernel), (by decide +kernel), (by decide +kernel), (by decide +kernel), (by decide +kernel), rfl, (by decide +kernel)⟩,
   ⟨(st
     { ident := { c0Gib := 1 }, sel := { units := [(unitKey 9 7, { owner := 0, state := .owned })], swatches := [(0, { owner := 0, state := .owned })] } }),
     _, _, 7, _, _, none, 0, [1], false, _, rfl, rfl, rfl, rfl, (by decide +kernel), (by decide +kernel), (by decide +kernel),
     (by decide +kernel), (by decide +kernel), (by decide +kernel), (by decide +kernel), (by decide +kernel), (by decide +kernel), rfl,
     (by decide +kernel), (by decide +kernel)⟩,
   ⟨(st
     { sel := { units := [(unitKey 9 7, { owner := 0, state := .owned })], ranges := [{ first := 4 * 2 ^ 48, count := 1, owner := 0 }] }, edges := { ports := [(15, { exists_ := true, up := true, base := 0, limit := 2 })] }, islands := [(islandKey { kind := .rootPort, idx := 3 }, { power := .gated })] }),
     _, _, 7, _, _, none, (4 * 2 ^ 44), [1], false, _, { kind := .rootPort, idx := 3 }, _, rfl, rfl, rfl, rfl, (by decide +kernel),
     (by decide +kernel), (by decide +kernel), (by decide +kernel), (by decide +kernel), (by decide +kernel), (by decide +kernel),
     (by decide +kernel), (by decide +kernel), rfl, (by decide +kernel), (by decide +kernel), (by decide +kernel), rfl, (by decide +kernel)⟩,
   ⟨(st { ident := { c0Gib := 1 }, sel := { units := [(unitKey 9 7, { owner := 0, state := .owned })] } }), _, _, 7, _, _, none, 0, [1],
     false, _, _, rfl, rfl, rfl, rfl, (by decide +kernel), (by decide +kernel), (by decide +kernel), (by decide +kernel),
     (by decide +kernel), (by decide +kernel), (by decide +kernel), (by decide +kernel), (by decide +kernel), rfl, (by decide +kernel), .inr
     ⟨_, rfl⟩, rfl, (by decide +kernel)⟩,
   ⟨(st
     { edges := { ports := [(15, { exists_ := true, up := true, base := 0, limit := 1 })] }, eng := { slips := [(5, { descs := [at3 []] })] } }),
     _, _, 7, _, _, (4 * 2 ^ 48), 15, 1, _, rfl, rfl, rfl, rfl, (by decide +kernel), (by decide +kernel), (by decide +kernel),
     (by decide +kernel), rfl⟩,
   ⟨(st
     { edges := { ports := [(15, { exists_ := true, up := true, base := 0, limit := 1 })] }, eng := { slips := [(5, { descs := [at3 []] })] } }),
     _, _, 7, _, _, 5, 3, (4 * 2 ^ 48), 15, _, _, rfl, rfl, rfl, rfl, (by decide +kernel), (by decide +kernel), (by decide +kernel), rfl,
     rfl⟩,
   ⟨(st { edges := { funcs := [(7, { ide := 1 })] }, sel := { units := [(unitKey 9 7, { owner := 16, state := .owned })] } }), _, _, 7, _,
     _, _, _, rfl, rfl, rfl, rfl, (by decide +kernel), rfl, rfl, (by decide +kernel), (by decide +kernel)⟩,
   ⟨(st {}), _, _, 7, _, _, rfl, rfl, rfl, rfl, (by decide +kernel), (by decide +kernel)⟩,
   ⟨(st {}), _, _, 7, _, _, 31, rfl, rfl, rfl, rfl, (by decide +kernel), (by decide +kernel)⟩,
   ⟨(st { edges := { ports := [(31, { exists_ := true, cxl := true, up := true })] } }), _, _, 7, _, _, 31, _, rfl, rfl, rfl, rfl,
     (by decide +kernel), rfl, (by decide +kernel), (by decide +kernel), (by decide +kernel), (by decide +kernel)⟩,
   ⟨(st { edges := { ports := [(31, { exists_ := true, cxl := true, up := true })] } }), _, _, 7, _, _, 31, _, rfl, rfl, rfl, rfl,
     (by decide +kernel), rfl, (by decide +kernel), (by decide +kernel), (by decide +kernel)⟩,
   ⟨(st
     { ident := { c0Gib := 1 }, sel := { units := [(unitKey 9 7, { owner := 0, state := .owned })], swatches := [(0, { owner := 0, state := .owned })] } }),
     _, _, 7, _, _, none, (2 ^ 21 - 4), _, _, 8, _, rfl, rfl, rfl, rfl, (by decide +kernel), (by decide +kernel), (by decide +kernel), rfl,
     (by decide +kernel), (by decide +kernel), (by decide +kernel), rfl, (by decide +kernel), (by decide +kernel), rfl, (by decide +kernel)⟩,
   ⟨(st
     { ident := { c0Gib := 1 }, sel := { units := [(unitKey 9 7, { owner := 0, state := .owned })], swatches := [(0, { owner := 0, state := .owned })] } }),
     _, _, 7, _, _, none, 0, _, _, 8, _, rfl, rfl, rfl, rfl, (by decide +kernel), (by decide +kernel), (by decide +kernel), rfl,
     (by decide +kernel), (by decide +kernel), (by decide +kernel), rfl, (by decide +kernel), (by decide +kernel), (by decide +kernel),
     (by decide +kernel), rfl, (by decide +kernel), (by decide +kernel)⟩,
   ⟨(st
     { ident := { c0Gib := 1 }, sel := { units := [(unitKey 9 7, { owner := 0, state := .owned })], swatches := [(0, { owner := 0, state := .owned })] } }),
     _, _, 7, _, _, none, (2 ^ 21), _, _, 8, _, _, rfl, rfl, rfl, rfl, (by decide +kernel), (by decide +kernel), (by decide +kernel), rfl,
     (by decide +kernel), (by decide +kernel), (by decide +kernel), rfl, (by decide +kernel), (by decide +kernel), (by decide +kernel),
     (by decide +kernel), rfl, (by decide +kernel), (.inr ⟨_, rfl⟩), rfl, (by decide +kernel)⟩,
   ⟨(st
     { ident := { c0Gib := 1 }, sel := { units := [(unitKey 9 7, { owner := 0, state := .owned })], swatches := [(0, { owner := 0, state := .owned })] } }),
     _, _, 7, _, _, none, (2 ^ 21 - 4), _, _, (zeros 8), false, _, rfl, rfl, rfl, rfl, (by decide +kernel), (by decide +kernel),
     (by decide +kernel), rfl, (by decide +kernel), (by decide +kernel), (by decide +kernel), rfl, (by decide +kernel), rfl,
     (by decide +kernel)⟩,
   ⟨(st
     { ident := { c0Gib := 1 }, sel := { units := [(unitKey 9 7, { owner := 0, state := .owned })], swatches := [(0, { owner := 0, state := .owned })] } }),
     _, _, 7, _, _, none, 0, _, _, (zeros 8), false, _, rfl, rfl, rfl, rfl, (by decide +kernel), (by decide +kernel), (by decide +kernel),
     rfl, (by decide +kernel), (by decide +kernel), (by decide +kernel), rfl, (by decide +kernel), (by decide +kernel), (by decide +kernel),
     rfl, (by decide +kernel), (by decide +kernel)⟩,
   ⟨(st
     { sel := { units := [(unitKey 9 7, { owner := 0, state := .owned })], ranges := [{ first := 4 * 2 ^ 48, count := 1, owner := 0 }] }, edges := { ports := [(15, { exists_ := true, up := true, base := 0, limit := 2 })] }, islands := [(islandKey { kind := .rootPort, idx := 3 }, { power := .gated })] }),
     _, _, 7, _, _, none, (4 * 2 ^ 44), _, _, [1], false, _, _, rfl, rfl, rfl, rfl, (by decide +kernel), (by decide +kernel),
     (by decide +kernel), rfl, (by decide +kernel), (by decide +kernel), (by decide +kernel), rfl, (by decide +kernel), (by decide +kernel),
     (by decide +kernel), rfl, (by decide +kernel), (by decide +kernel), rfl, (by decide +kernel)⟩,
   ⟨(st
     { ident := { c0Gib := 1 }, sel := { units := [(unitKey 9 7, { owner := 0, state := .owned })], swatches := [(0, { owner := 0, state := .owned })] } }),
     _, _, 7, _, _, none, (2 ^ 21), _, _, (zeros 8), false, _, _, rfl, rfl, rfl, rfl, (by decide +kernel), (by decide +kernel),
     (by decide +kernel), rfl, (by decide +kernel), (by decide +kernel), (by decide +kernel), rfl, (by decide +kernel), (by decide +kernel),
     (by decide +kernel), rfl, (by decide +kernel), (.inr ⟨_, rfl⟩), rfl, (by decide +kernel)⟩,
   ⟨(st
     { ident := { c0Gib := 1 }, sel := { units := [(unitKey 9 7, { owner := 0, state := .owned })], swatches := [(0, { owner := 0, state := .owned })] } }),
     _, _, 7, _, _, none, 4, _, _, 1, 8, 0, rfl, rfl, rfl, rfl, (by decide +kernel), (by decide +kernel), (by decide +kernel), rfl,
     (by decide +kernel), (by decide +kernel), (by decide +kernel), rfl, (by decide +kernel), (by decide +kernel)⟩,
   ⟨(st
     { ident := { c0Gib := 1 }, sel := { units := [(unitKey 9 7, { owner := 0, state := .owned })], swatches := [(0, { owner := 0, state := .owned })] } }),
     _, _, 7, _, _, none, 0, _, _, 1, 8, 0, 0, _, _, _, rfl, rfl, rfl, rfl, (by decide +kernel), (by decide +kernel), (by decide +kernel),
     rfl, (by decide +kernel), (by decide +kernel), (by decide +kernel), rfl, (by decide +kernel), (by decide +kernel), rfl,
     (by decide +kernel), rfl, rfl, (by decide +kernel), rfl, (by decide +kernel)⟩,
   ⟨(st
     { ident := { c0Gib := 1 }, sel := { units := [(unitKey 9 7, { owner := 0, state := .owned })], swatches := [(0, { owner := 0, state := .owned })] }, coh := { poison := [(0, true)] } }),
     _, _, 7, _, _, none, 0, _, _, 1, 8, 0, _, _, rfl, rfl, rfl, rfl, (by decide +kernel), (by decide +kernel), (by decide +kernel), rfl,
     (by decide +kernel), (by decide +kernel), (by decide +kernel), rfl, (by decide +kernel), (by decide +kernel), rfl, (by decide +kernel),
     rfl, (.inl ⟨by decide +kernel, by decide +kernel⟩)⟩,
   ⟨(st
     { ident := { c0Gib := 1, admitted := true }, sel := { units := [(unitKey 9 7, { owner := 0, state := .owned })], swatches := [(0, { owner := 0, state := .owned })] }, arch := { members := [(3, { st := .member })] } }),
     _, _, 7, _, _, none, (3 * 2 ^ 48), _, _, 1, 8, 0, 0, _, _, _, _, rfl, rfl, rfl, rfl, (by decide +kernel), (by decide +kernel),
     (by decide +kernel), rfl, (by decide +kernel), (by decide +kernel), (by decide +kernel), rfl, (by decide +kernel), (by decide +kernel),
     rfl, (by decide +kernel), rfl, (by decide +kernel), (by decide +kernel), (by decide +kernel), (by decide +kernel), rfl, rfl,
     (by decide +kernel), (by decide +kernel)⟩,
   ⟨(st
     { sel := { units := [(unitKey 9 7, { owner := 0, state := .owned })], swatches := [(slotSwatch 0 0, { owner := 0, state := .owned })] }, islands := [(islandKey { kind := .shelf, idx := 0 }, { power := .gated })] }),
     _, _, 7, _, _, none, (2 * 2 ^ 44), _, _, 1, 8, 0, _, _, rfl, rfl, rfl, rfl, (by decide +kernel), (by decide +kernel),
     (by decide +kernel), rfl, (by decide +kernel), (by decide +kernel), (by decide +kernel), rfl, (by decide +kernel), (by decide +kernel),
     rfl, (by decide +kernel), rfl, rfl⟩,
   ⟨(st
     { ident := { c0Gib := 1 }, sel := { units := [(unitKey 9 7, { owner := 0, state := .owned })], swatches := [(0, { owner := 0, state := .owned })] } }),
     _, _, 7, _, _, none, (2 ^ 21), _, _, 1, 8, 0, 0, _, _, _, rfl, rfl, rfl, rfl, (by decide +kernel), (by decide +kernel),
     (by decide +kernel), rfl, (by decide +kernel), (by decide +kernel), (by decide +kernel), rfl, (by decide +kernel), (by decide +kernel),
     rfl, (by decide +kernel), rfl, (.inr ⟨_, rfl⟩), rfl, (by decide +kernel)⟩,
   ⟨(st
     { ident := { c0Gib := 1 }, sel := { units := [(unitKey 9 7, { owner := 0, state := .owned })], swatches := [(0, { owner := 0, state := .owned })] } }),
     _, _, 7, _, _, none, (3 * 2 ^ 44), _, _, _, rfl, rfl, rfl, rfl, (by decide +kernel), (by decide +kernel), (by decide +kernel), rfl,
     (by decide +kernel), (by decide +kernel), (by decide +kernel), rfl, (by decide +kernel), rfl, (by decide +kernel)⟩,
   ⟨(st
     { ident := { c0Gib := 1 }, sel := { units := [(unitKey 9 7, { owner := 0, state := .owned })], swatches := [(0, { owner := 0, state := .owned })] } }),
     _, _, 7, _, _, none, (3 * 2 ^ 44), _, _, _, [1], rfl, rfl, rfl, rfl, (by decide +kernel), (by decide +kernel), (by decide +kernel),
     rfl, (by decide +kernel), (by decide +kernel), (by decide +kernel), rfl, (by decide +kernel), rfl, (by decide +kernel)⟩,
   ⟨(st
     { ident := { c0Gib := 1, admitted := true }, sel := { units := [(unitKey 9 7, { owner := 0, state := .owned })], swatches := [(0, { owner := 0, state := .owned })] }, arch := { members := [(3, { st := .member })] } }),
     _, _, 7, _, _, none, (3 * 2 ^ 48 + 3 * 2 ^ 44 + 0xC00000), _, _, _, (zeros 4), _, rfl, rfl, rfl, rfl, (by decide +kernel),
     (by decide +kernel), (by decide +kernel), rfl, (by decide +kernel), (by decide +kernel), (by decide +kernel), rfl, (by decide +kernel),
     rfl, (by decide +kernel), (by decide +kernel), (by decide +kernel), (by decide +kernel), (by decide +kernel), rfl, (by decide +kernel)⟩,
   ⟨(st
     { ident := { c0Gib := 1 }, sel := { units := [(unitKey 9 7, { owner := 0, state := .owned })], swatches := [(0, { owner := 0, state := .owned })] } }),
     _, _, 7, _, _, none, (3 * 2 ^ 44 + 0x1C00000), _, _, _, (zeros 4), _, rfl, rfl, rfl, rfl, (by decide +kernel), (by decide +kernel),
     (by decide +kernel), rfl, (by decide +kernel), (by decide +kernel), (by decide +kernel), rfl, (by decide +kernel), rfl,
     (by decide +kernel), (by decide +kernel), (by decide +kernel), (by decide +kernel), (by decide +kernel), (by decide +kernel), rfl,
     (by decide +kernel)⟩,
   ⟨(st
     { ident := { c0Gib := 1 }, sel := { units := [(unitKey 9 7, { owner := 0, state := .owned })], swatches := [(0, { owner := 0, state := .owned })] } }),
     _, _, 7, _, _, none, (3 * 2 ^ 44 + 0xC00000), _, _, _, (zeros 4), _, rfl, rfl, rfl, rfl, (by decide +kernel), (by decide +kernel),
     (by decide +kernel), rfl, (by decide +kernel), (by decide +kernel), (by decide +kernel), rfl, (by decide +kernel), rfl,
     (by decide +kernel), (by decide +kernel), (by decide +kernel), (by decide +kernel), (by decide +kernel), (by decide +kernel), rfl,
     (by decide +kernel)⟩,
   ⟨(st
     { ident := { c0Gib := 1 }, sel := { units := [(unitKey 9 7, { owner := 0, state := .owned })], swatches := [(0, { owner := 0, state := .owned })] }, arch := { writes := [{ by_ := .func 7 }] } }),
     _, _, 7, _, _, none, 0, _, _, (.read 8), rfl, rfl, rfl, rfl, (by decide +kernel), (by decide +kernel), (by decide +kernel), rfl,
     (by decide +kernel), (by decide +kernel), (by decide +kernel), rfl, (.inl ⟨8, rfl⟩), (by decide +kernel)⟩,
   ⟨(st
     { ident := { c0Gib := 1 }, sel := { units := [(unitKey 9 7, { owner := 0, state := .owned })], swatches := [(0, { owner := 0, state := .owned })] }, arch := { writes := [{ by_ := .func 7 }] } }),
     _, _, 7, _, _, none, 0, (.read 8), _, rfl, rfl, rfl, rfl, (by decide +kernel), rfl, (by decide +kernel)⟩⟩

theorem wit_BenchAndRepairCommands :
    (∃ (s : State) (h : Hw) (m : Mbx) (tag : Nat) (r : Req) (q : RAddr), h = clearSent s.hw ∧ q = raddrOf r.payload ∧ Serving s m tag 0x0D01
     r ∧ h.ident.bench = false ∧ benchMay h = false) ∧
    (∃ (s : State) (h : Hw) (m : Mbx) (tag : Nat) (r : Req) (q : RAddr), h = clearSent s.hw ∧ q = raddrOf r.payload ∧ Serving s m tag 0x0D02
     r) ∧
    (∃ (s : State) (h : Hw) (m : Mbx) (tag : Nat) (r : Req) (q : RAddr), h = clearSent s.hw ∧ q = raddrOf r.payload ∧ Serving s m tag 0x0D03
     r) ∧
    (∃ (s : State) (h : Hw) (m : Mbx) (tag : Nat) (r : Req) (q : RAddr), ∃ i, h = clearSent s.hw ∧ q = raddrOf r.payload ∧ Serving s m tag
     0x0D04 r ∧ i = leAt r.payload 0 2 ∧ h.memhw.cands.length ≤ i) ∧
    (∃ (s : State) (h : Hw) (m : Mbx) (tag : Nat) (r : Req) (q : RAddr), ∃ i, h = clearSent s.hw ∧ q = raddrOf r.payload ∧ Serving s m tag
     0x0D04 r ∧ i = leAt r.payload 0 2 ∧ i < h.memhw.cands.length) ∧
    (∃ (s : State) (h : Hw) (m : Mbx) (tag : Nat) (r : Req) (q : RAddr), h = clearSent s.hw ∧ q = raddrOf r.payload ∧ h.ident.bench = false
     ∧ Serving s m tag 0x0D05 r) ∧
    (∃ (s : State) (h : Hw) (m : Mbx) (tag : Nat) (r : Req) (q : RAddr), h = clearSent s.hw ∧ q = raddrOf r.payload ∧ h.ident.bench = false
     ∧ Serving s m tag 0x0D06 r) ∧
    (∃ (s : State) (h : Hw) (m : Mbx) (tag : Nat) (r : Req) (q : RAddr), h = clearSent s.hw ∧ q = raddrOf r.payload ∧ h.ident.bench = false
     ∧ Serving s m tag 0x0D07 r) ∧
    (∃ (s : State) (h : Hw) (m : Mbx) (tag : Nat) (r : Req) (q : RAddr), h = clearSent s.hw ∧ q = raddrOf r.payload ∧ h.ident.bench = false
     ∧ Serving s m tag 0x0D08 r) ∧
    (∃ (s : State) (h : Hw) (m : Mbx) (tag : Nat) (r : Req) (q : RAddr), h = clearSent s.hw ∧ q = raddrOf r.payload ∧ h.ident.bench = false
     ∧ Serving s m tag 0x0D09 r) ∧
    (∃ (s : State) (h : Hw) (m : Mbx) (tag : Nat) (r : Req) (q : RAddr), h = clearSent s.hw ∧ q = raddrOf r.payload ∧ h.ident.bench = false
     ∧ Serving s m tag 0x0D0A r) ∧
    (∃ (s : State) (h : Hw) (m : Mbx) (tag : Nat) (r : Req) (q : RAddr), h = clearSent s.hw ∧ q = raddrOf r.payload ∧ h.ident.bench = false
     ∧ Serving s m tag 0x0D0B r) ∧
    (∃ (s : State) (h : Hw) (m : Mbx) (tag : Nat) (r : Req) (q : RAddr), h = clearSent s.hw ∧ q = raddrOf r.payload ∧ h.ident.bench = true ∧
     raddrOk h q 2 0 = false ∧ Serving s m tag 0x0D08 r) ∧
    (∃ (s : State) (h : Hw) (m : Mbx) (tag : Nat) (r : Req) (q : RAddr), h = clearSent s.hw ∧ q = raddrOf r.payload ∧ h.ident.bench = true ∧
     raddrOk h q 2 0 = false ∧ Serving s m tag 0x0D09 r) ∧
    (∃ (s : State) (h : Hw) (m : Mbx) (tag : Nat) (r : Req) (q : RAddr), h = clearSent s.hw ∧ q = raddrOf r.payload ∧ h.ident.bench = true ∧
     raddrOk h q 2 0 = true ∧ rowsLeft h q q.bank = 0 ∧ Serving s m tag 0x0D08 r) ∧
    (∃ (s : State) (h : Hw) (m : Mbx) (tag : Nat) (r : Req) (q : RAddr), h = clearSent s.hw ∧ q = raddrOf r.payload ∧ h.ident.bench = true ∧
     raddrOk h q 2 0 = true ∧ rowsLeft h q q.bank = 0 ∧ Serving s m tag 0x0D09 r) ∧
    (∃ (s : State) (h : Hw) (m : Mbx) (tag : Nat) (r : Req) (q : RAddr), h = clearSent s.hw ∧ q = raddrOf r.payload ∧ Serving s m tag 0x0D05
     r ∧ h.ident.bench = true ∧ ((q.tier = 2 ∨ q.tier = 3)) ∧ q.kind = 1 ∧ raddrPlace h q = true ∧ q.lane < lanesOf q.tier) ∧
    (∃ (s : State) (h : Hw) (m : Mbx) (tag : Nat) (r : Req) (q : RAddr), ∃ x n, h = clearSent s.hw ∧ q = raddrOf r.payload ∧ Serving s m tag
     0x0D06 r ∧ h.ident.bench = true ∧ x = leAt r.payload 0 8 ∧ n = leAt r.payload 8 4 ∧ x % 4096 = 0 ∧ n ≠ 0 ∧ regionOf x ≤ 1 ∧ x < 2 ^ 52
     ∧ populated h x = true ∧ populated h (x + 4096 * n - 1) = true ∧ regionOf (x + 4096 * n - 1) = regionOf x) ∧
    (∃ (s : State) (h : Hw) (m : Mbx) (tag : Nat) (r : Req) (q : RAddr), h = clearSent s.hw ∧ q = raddrOf r.payload ∧ Serving s m tag 0x0D07
     r ∧ h.ident.bench = true ∧ raddrPlace h q = true ∧ q.bank ≠ 0xFF ∧ q.bank < banksOf q.tier) ∧
    (∃ (s : State) (h : Hw) (m : Mbx) (tag : Nat) (r : Req) (q : RAddr) (o : Nat × Hw), h = clearSent s.hw ∧ q = raddrOf r.payload ∧ Serving
     s m tag 0x0D01 r ∧ (∀ p, 1 ≤ p → p ≤ 16 → partExists h p = false) ∧ h.ident.admitted = false ∧ (∀ x, x ∈ h.sel.scrubs → x.done = true)
     ∧ h.sel.base ≠ SwState.scrubbing ∧ (∀ e, e ∈ h.sel.swatches → e.2.failed = false ∧ e.2.state ≠ SwState.scrubbing ∧ e.2.state ≠
     SwState.held) ∧ (∀ e, e ∈ h.sel.units → e.2.failed = false ∧ e.2.state ≠ UnitState.scrubbing ∧ e.2.state ≠ UnitState.held) ∧ o =
     beginAll h) ∧
    (∃ (s : State) (h : Hw) (m : Mbx) (tag : Nat) (r : Req) (q : RAddr), h = clearSent s.hw ∧ q = raddrOf r.payload ∧ h.ident.bench = true ∧
     Serving s m tag 0x0D05 r ∧ (q.tier ≠ 2 ∧ q.tier ≠ 3 ∨ q.kind ≠ 1 ∨ raddrPlace h q = false ∨ lanesOf q.tier ≤ q.lane ∧ q.lane ≠ 0xFFFF)) ∧
    (∃ (s : State) (h : Hw) (m : Mbx) (tag : Nat) (r : Req) (q : RAddr), h = clearSent s.hw ∧ q = raddrOf r.payload ∧ h.ident.bench = true ∧
     Serving s m tag 0x0D06 r ∧ (leAt r.payload 0 8 % 4096 ≠ 0 ∨ leAt r.payload 8 4 = 0)) ∧
    (∃ (s : State) (h : Hw) (m : Mbx) (tag : Nat) (r : Req) (q : RAddr), h = clearSent s.hw ∧ q = raddrOf r.payload ∧ h.ident.bench = true ∧
     Serving s m tag 0x0D06 r ∧ leAt r.payload 0 8 % 4096 = 0 ∧ leAt r.payload 8 4 ≠ 0 ∧ (1 < regionOf (leAt r.payload 0 8) ∨ 2 ^ 52 ≤ leAt
     r.payload 0 8)) ∧
    (∃ (s : State) (h : Hw) (m : Mbx) (tag : Nat) (r : Req) (q : RAddr), h = clearSent s.hw ∧ q = raddrOf r.payload ∧ h.ident.bench = true ∧
     Serving s m tag 0x0D07 r ∧ (raddrPlace h q = false ∨ banksOf q.tier ≤ q.bank ∧ q.bank ≠ 0xFF)) ∧
    (∃ (s : State) (h : Hw) (m : Mbx) (tag : Nat) (r : Req) (q : RAddr), h = clearSent s.hw ∧ q = raddrOf r.payload ∧ h.ident.bench = true ∧
     raddrOk h q 2 1 = false ∧ Serving s m tag 0x0D0A r) ∧
    (∃ (s : State) (h : Hw) (m : Mbx) (tag : Nat) (r : Req) (q : RAddr), h = clearSent s.hw ∧ q = raddrOf r.payload ∧ h.ident.bench = true ∧
     raddrOk h q 3 0 = false ∧ Serving s m tag 0x0D0B r) ∧
    (∃ (s : State) (h : Hw) (m : Mbx) (tag : Nat) (r : Req) (q : RAddr), h = clearSent s.hw ∧ q = raddrOf r.payload ∧ h.ident.bench = true ∧
     raddrOk h q 2 1 = true ∧ lanesLeft h q = 0 ∧ Serving s m tag 0x0D0A r) ∧
    (∃ (s : State) (h : Hw) (m : Mbx) (tag : Nat) (r : Req) (q : RAddr), h = clearSent s.hw ∧ q = raddrOf r.payload ∧ h.ident.bench = true ∧
     raddrOk h q 3 0 = true ∧ rowsLeft h q q.bank = 0 ∧ Serving s m tag 0x0D0B r) ∧
    (∃ (s : State) (h : Hw) (m : Mbx) (tag : Nat) (r : Req) (q : RAddr), h = clearSent s.hw ∧ q = raddrOf r.payload ∧ Serving s m tag 0x0D05
     r ∧ h.ident.bench = true ∧ (q.tier = 2 ∨ q.tier = 3) ∧ q.kind = 1 ∧ raddrPlace h q = true ∧ q.lane = 0xFFFF) ∧
    (∃ (s : State) (h : Hw) (m : Mbx) (tag : Nat) (r : Req) (q : RAddr) (x : Nat) (n : Nat), h = clearSent s.hw ∧ q = raddrOf r.payload ∧
     Serving s m tag 0x0D06 r ∧ h.ident.bench = true ∧ x = leAt r.payload 0 8 ∧ n = leAt r.payload 8 4 ∧ x % 4096 = 0 ∧ n ≠ 0 ∧ regionOf x ≤
     1 ∧ x < 2 ^ 52 ∧ (populated h x = false ∨ populated h (x + 4096 * n - 1) = false ∨ regionOf (x + 4096 * n - 1) ≠ regionOf x)) ∧
    (∃ (s : State) (h : Hw) (m : Mbx) (tag : Nat) (r : Req) (q : RAddr), h = clearSent s.hw ∧ q = raddrOf r.payload ∧ Serving s m tag 0x0D07
     r ∧ h.ident.bench = true ∧ raddrPlace h q = true ∧ q.bank = 0xFF) ∧
    (∃ (s : State) (h : Hw) (m : Mbx) (tag : Nat) (r : Req) (q : RAddr) (c : Channel) (o : Hw), h = clearSent s.hw ∧ q = raddrOf r.payload ∧
     Serving s m tag 0x0D08 r ∧ h.ident.bench = true ∧ raddrOk h q 2 0 = true ∧ rowsLeft h q q.bank ≠ 0 ∧ c = chanAt h q.unit ∧ o = testRow
     (setChan h q.unit
     { c with softRows := if (q.chan, q.bank, q.row) ∈ c.softRows then c.softRows else c.softRows ++ [(q.chan, q.bank, q.row)] }) q) ∧
    (∃ (s : State) (h : Hw) (m : Mbx) (tag : Nat) (r : Req) (q : RAddr) (c : Channel) (k : Hw) (o : Hw), h = clearSent s.hw ∧ q = raddrOf
     r.payload ∧ Serving s m tag 0x0D09 r ∧ h.ident.bench = true ∧ raddrOk h q 2 0 = true ∧ rowsLeft h q q.bank ≠ 0 ∧ c = chanAt h q.unit ∧
     k = setChan h q.unit { c with softRows := c.softRows.erase (q.chan, q.bank, q.row) } ∧ o = testRow
     { k with memhw := { k.memhw with rowUsed := tabMod 0 k.memhw.rowUsed (bankKey q q.bank) (fun x => x + 1) } } q) ∧
    (∃ (s : State) (h : Hw) (m : Mbx) (tag : Nat) (r : Req) (q : RAddr) (k : Hw) (x : Channel) (o : Hw), h = clearSent s.hw ∧ q = raddrOf
     r.payload ∧ Serving s m tag 0x0D0A r ∧ h.ident.bench = true ∧ raddrOk h q 2 1 = true ∧ lanesLeft h q ≠ 0 ∧ k =
     { h with memhw := { h.memhw with laneUsed := tabMod 0 h.memhw.laneUsed (laneKey q) (fun x => x + 1) } } ∧ x = chanAt h q.unit ∧ o =
     testChannels (setChan k q.unit { x with coldChans := q.chan / 2 :: x.coldChans.erase (q.chan / 2) }) [32 * q.unit + q.chan / 2 * 2, 32
     * q.unit + q.chan / 2 * 2 + 1]) ∧
    (∃ (s : State) (h : Hw) (m : Mbx) (tag : Nat) (r : Req) (q : RAddr) (o : Hw), h = clearSent s.hw ∧ q = raddrOf r.payload ∧ Serving s m
     tag 0x0D0B r ∧ h.ident.bench = true ∧ raddrOk h q 3 0 = true ∧ rowsLeft h q q.bank ≠ 0 ∧ o = testRow
     { h with memhw := { h.memhw with rowUsed := tabMod 0 h.memhw.rowUsed (bankKey q q.bank) (fun x => x + 1) } } q) ∧
    (∃ (s : State) (h : Hw) (r : Req) (q : RAddr) (g : Hw) (k : Nat) (hit : Nat → Bool), h = clearSent s.hw ∧ q = raddrOf r.payload ∧ k =
     rowKey (raddrUnit q) (if q.tier = 2 then q.chan else q.rank) q.bank q.row ∧ hit = (fun l => decide (regionOf (l * 64) ≤ 1 ∧ lineRow g
     (l * 64) = k))) ∧
    (∃ (s : State) (h : Hw) (r : Req) (q : RAddr) (g : Hw) (ks : List Nat) (hit : Nat → Bool), h = clearSent s.hw ∧ q = raddrOf r.payload ∧
     hit = (fun l => decide (channelKey g (l * 64) ∈ ks))) :=
  ⟨⟨(srv .steward 0x0D01 [] { ident := { admitted := true } }), _, .steward, 0, (rq 0x0D01 []), _, rfl, rfl, (by decide +kernel),
     (by decide +kernel), (by decide +kernel)⟩,
   ⟨(srv .steward 0x0D02 [] {}), _, .steward, 0, (rq 0x0D02 []), _, rfl, rfl, (by decide +kernel)⟩,
   ⟨(srv .steward 0x0D03 [] {}), _, .steward, 0, (rq 0x0D03 []), _, rfl, rfl, (by decide +kernel)⟩,
   ⟨(srv .steward 0x0D04 [] {}), _, .steward, 0, (rq 0x0D04 []), _, _, rfl, rfl, (by decide +kernel), rfl, (by decide +kernel)⟩,
   ⟨(srv .steward 0x0D04 [0] { memhw := { cands := [{}] } }), _, .steward, 0, (rq 0x0D04 [0]), _, _, rfl, rfl, (by decide +kernel), rfl,
     (by decide +kernel)⟩,
   ⟨(srv .steward 0x0D05 [] {}), _, .steward, 0, (rq 0x0D05 []), _, rfl, rfl, (by decide +kernel), (by decide +kernel)⟩,
   ⟨(srv .steward 0x0D06 [] {}), _, .steward, 0, (rq 0x0D06 []), _, rfl, rfl, (by decide +kernel), (by decide +kernel)⟩,
   ⟨(srv .steward 0x0D07 [] {}), _, .steward, 0, (rq 0x0D07 []), _, rfl, rfl, (by decide +kernel), (by decide +kernel)⟩,
   ⟨(srv .steward 0x0D08 [] {}), _, .steward, 0, (rq 0x0D08 []), _, rfl, rfl, (by decide +kernel), (by decide +kernel)⟩,
   ⟨(srv .steward 0x0D09 [] {}), _, .steward, 0, (rq 0x0D09 []), _, rfl, rfl, (by decide +kernel), (by decide +kernel)⟩,
   ⟨(srv .steward 0x0D0A [] {}), _, .steward, 0, (rq 0x0D0A []), _, rfl, rfl, (by decide +kernel), (by decide +kernel)⟩,
   ⟨(srv .steward 0x0D0B [] {}), _, .steward, 0, (rq 0x0D0B []), _, rfl, rfl, (by decide +kernel), (by decide +kernel)⟩,
   ⟨(srv .steward 0x0D08 [2, 12] { ident := { bench := true } }), _, .steward, 0, (rq 0x0D08 [2, 12]), _, rfl, rfl, (by decide +kernel),
     (by decide +kernel), (by decide +kernel)⟩,
   ⟨(srv .steward 0x0D09 [2, 12] { ident := { bench := true } }), _, .steward, 0, (rq 0x0D09 [2, 12]), _, rfl, rfl, (by decide +kernel),
     (by decide +kernel), (by decide +kernel)⟩,
   ⟨(srv .steward 0x0D08 [2, 11, 31, 0, 47, 0]
     { ident := { bench := true }, memhw := { rowFuse := [(bankKey (raddrOf [2, 11, 31, 0, 47, 0, 0, 0, 0]) 47, 0)] } }), _, .steward, 0,
     (rq 0x0D08 [2, 11, 31, 0, 47, 0]), _, rfl, rfl, (by decide +kernel), (by decide +kernel), (by decide +kernel), (by decide +kernel)⟩,
   ⟨(srv .steward 0x0D09 [2, 11, 31, 0, 47, 0]
     { ident := { bench := true }, memhw := { rowFuse := [(bankKey (raddrOf [2, 11, 31, 0, 47, 0, 0, 0, 0]) 47, 0)] } }), _, .steward, 0,
     (rq 0x0D09 [2, 11, 31, 0, 47, 0]), _, rfl, rfl, (by decide +kernel), (by decide +kernel), (by decide +kernel), (by decide +kernel)⟩,
   ⟨(srv .steward 0x0D05 [2, 11, 31, 0, 0, 1, 0, 0, 0, 0, 0, 0, 31] { ident := { bench := true } }), _, .steward, 0, (rq 0x0D05 [2, 11, 31,
     0, 0, 1, 0, 0, 0, 0, 0, 0, 31]), _, rfl, rfl, (by decide +kernel), (by decide +kernel), (by decide +kernel), (by decide +kernel),
     (by decide +kernel), (by decide +kernel)⟩,
   ⟨(srv .steward 0x0D06 [0, 0, 0, 0, 0, 0, 0, 0, 0, 0, 4] { ident := { bench := true, c0Gib := 1 } }), _, .steward, 0, (rq 0x0D06 [0, 0, 0,
     0, 0, 0, 0, 0, 0, 0, 4]), _, _, _, rfl, rfl, (by decide +kernel), (by decide +kernel), rfl, rfl, (by decide +kernel),
     (by decide +kernel), (by decide +kernel), (by decide +kernel), (by decide +kernel), (by decide +kernel), (by decide +kernel)⟩,
   ⟨(srv .steward 0x0D07 [2, 11, 31, 0, 47] { ident := { bench := true } }), _, .steward, 0, (rq 0x0D07 [2, 11, 31, 0, 47]), _, rfl, rfl,
     (by decide +kernel), (by decide +kernel), (by decide +kernel), (by decide +kernel), (by decide +kernel)⟩,
   ⟨(srv .steward 0x0D01 [] {}), _, .steward, 0, (rq 0x0D01 []), _, _, rfl, rfl, (by decide +kernel), (fun _ => parts_none),
     (by decide +kernel), (by decide +kernel), (by decide +kernel), (by decide +kernel), (by decide +kernel), rfl⟩,
   ⟨(srv .steward 0x0D05 [2, 11, 31, 0, 0, 1, 0, 0, 0, 0, 0, 0, 32] { ident := { bench := true } }), _, .steward, 0, (rq 0x0D05 [2, 11, 31,
     0, 0, 1, 0, 0, 0, 0, 0, 0, 32]), _, rfl, rfl, (by decide +kernel), (by decide +kernel), (by decide +kernel)⟩,
   ⟨(srv .steward 0x0D06 [1] { ident := { bench := true } }), _, .steward, 0, (rq 0x0D06 [1]), _, rfl, rfl, (by decide +kernel),
     (by decide +kernel), (by decide +kernel)⟩,
   ⟨(srv .steward 0x0D06 [0, 0, 0, 0, 0, 0, 2, 0, 1] { ident := { bench := true } }), _, .steward, 0, (rq 0x0D06 [0, 0, 0, 0, 0, 0, 2, 0,
     1]), _, rfl, rfl, (by decide +kernel), (by decide +kernel), (by decide +kernel), (by decide +kernel), (by decide +kernel)⟩,
   ⟨(srv .steward 0x0D07 [2, 11, 31, 0, 48] { ident := { bench := true } }), _, .steward, 0, (rq 0x0D07 [2, 11, 31, 0, 48]), _, rfl, rfl,
     (by decide +kernel), (by decide +kernel), (by decide +kernel)⟩,
   ⟨(srv .steward 0x0D0A [2, 11, 31, 0, 0, 1, 0, 0, 0, 0, 0, 0, 32] { ident := { bench := true } }), _, .steward, 0, (rq 0x0D0A [2, 11, 31,
     0, 0, 1, 0, 0, 0, 0, 0, 0, 32]), _, rfl, rfl, (by decide +kernel), (by decide +kernel), (by decide +kernel)⟩,
   ⟨(srv .steward 0x0D0B [3, 1, 63, 2, 15, 0] { ident := { bench := true } }), _, .steward, 0, (rq 0x0D0B [3, 1, 63, 2, 15, 0]), _, rfl,
     rfl, (by decide +kernel), (by decide +kernel), (by decide +kernel)⟩,
   ⟨(srv .steward 0x0D0A [2, 11, 31, 0, 0, 1, 0, 0, 0, 0, 0, 0, 31]
     { ident := { bench := true }, memhw := { rowFuse := [(bankKey (raddrOf [2, 11, 31, 0, 47, 0, 0, 0, 255, 255, 0, 0, 0, 0]) 47, 1)], laneFuse := [(191, 0)] } }),
     _, .steward, 0, (rq 0x0D0A [2, 11, 31, 0, 0, 1, 0, 0, 0, 0, 0, 0, 31]), _, rfl, rfl, (by decide +kernel), (by decide +kernel),
     (by decide +kernel), (by decide +kernel)⟩,
   ⟨(srv .steward 0x0D0B [3, 1, 63, 1, 15, 0, 0, 0, 255, 255]
     { ident := { bench := true }, memhw := { rowFuse := [(bankKey (raddrOf [3, 1, 63, 1, 15, 0, 0, 0, 255, 255, 0, 0, 0, 0]) 15, 0)], laneFuse := [(191, 0)] } }),
     _, .steward, 0, (rq 0x0D0B [3, 1, 63, 1, 15, 0, 0, 0, 255, 255]), _, rfl, rfl, (by decide +kernel), (by decide +kernel),
     (by decide +kernel), (by decide +kernel)⟩,
   ⟨(srv .steward 0x0D05 [2, 11, 31, 0, 0, 1, 0, 0, 0, 0, 0, 0, 255, 255] { ident := { bench := true } }), _, .steward, 0, (rq 0x0D05 [2,
     11, 31, 0, 0, 1, 0, 0, 0, 0, 0, 0, 255, 255]), _, rfl, rfl, (by decide +kernel), (by decide +kernel), (by decide +kernel),
     (by decide +kernel), (by decide +kernel), (by decide +kernel)⟩,
   ⟨(srv .steward 0x0D06 [0, 0, 0, 64, 0, 0, 0, 0, 1] { ident := { bench := true, c0Gib := 1 } }), _, .steward, 0, (rq 0x0D06 [0, 0, 0, 64,
     0, 0, 0, 0, 1]), _, _, _, rfl, rfl, (by decide +kernel), (by decide +kernel), rfl, rfl, (by decide +kernel), (by decide +kernel),
     (by decide +kernel), (by decide +kernel), (by decide +kernel)⟩,
   ⟨(srv .steward 0x0D07 [2, 11, 31, 0, 255] { ident := { bench := true } }), _, .steward, 0, (rq 0x0D07 [2, 11, 31, 0, 255]), _, rfl, rfl,
     (by decide +kernel), (by decide +kernel), (by decide +kernel), (by decide +kernel)⟩,
   ⟨(srv .steward 0x0D08 [2, 11, 31, 0, 47, 0, 0, 0, 255, 255]
     { ident := { bench := true }, memhw := { rowFuse := [(bankKey (raddrOf [2, 11, 31, 0, 47, 0, 0, 0, 255, 255, 0, 0, 0, 0]) 47, 1)], laneFuse := [(191, 0)] } }),
     _, .steward, 0, (rq 0x0D08 [2, 11, 31, 0, 47, 0, 0, 0, 255, 255]), _, _, _, rfl, rfl, (by decide +kernel), (by decide +kernel),
     (by decide +kernel), (by decide +kernel), rfl, rfl⟩,
   ⟨(srv .steward 0x0D09 [2, 11, 31, 0, 47, 0, 0, 0, 255, 255]
     { ident := { bench := true }, memhw := { rowFuse := [(bankKey (raddrOf [2, 11, 31, 0, 47, 0, 0, 0, 255, 255, 0, 0, 0, 0]) 47, 1)], laneFuse := [(191, 0)] } }),
     _, .steward, 0, (rq 0x0D09 [2, 11, 31, 0, 47, 0, 0, 0, 255, 255]), _, _, _, _, rfl, rfl, (by decide +kernel), (by decide +kernel),
     (by decide +kernel), (by decide +kernel), rfl, rfl, rfl⟩,
   ⟨(srv .steward 0x0D0A [2, 11, 31, 0, 0, 1, 0, 0, 0, 0, 0, 0, 31]
     { ident := { bench := true }, memhw := { rowFuse := [(bankKey (raddrOf [2, 11, 31, 0, 47, 0, 0, 0, 255, 255, 0, 0, 0, 0]) 47, 1)], laneFuse := [(191, 1)] } }),
     _, .steward, 0, (rq 0x0D0A [2, 11, 31, 0, 0, 1, 0, 0, 0, 0, 0, 0, 31]), _, _, _, _, rfl, rfl, (by decide +kernel), (by decide +kernel),
     (by decide +kernel), (by decide +kernel), rfl, rfl, rfl⟩,
   ⟨(srv .steward 0x0D0B [3, 1, 63, 1, 15, 0, 0, 0, 255, 255]
     { ident := { bench := true }, memhw := { rowFuse := [(bankKey (raddrOf [3, 1, 63, 1, 15, 0, 0, 0, 255, 255, 0, 0, 0, 0]) 15, 1)], laneFuse := [(191, 0)] } }),
     _, .steward, 0, (rq 0x0D0B [3, 1, 63, 1, 15, 0, 0, 0, 255, 255]), _, _, rfl, rfl, (by decide +kernel), (by decide +kernel),
     (by decide +kernel), (by decide +kernel), rfl⟩,
   ⟨(st {}), _, (rq 0x0D01 []), _, {}, _, _, rfl, rfl, rfl, rfl⟩,
   ⟨(st {}), _, (rq 0x0D01 []), _, {}, [0], _, rfl, rfl, rfl⟩⟩

theorem wit_ClockAndMemoryRows :
    (∃ (s : State) (h : Hw), h = clearSent s.hw ∧ h.tb.slew = 0 ∧ h.tb.holdover = true ∧ h.tb.refLost = false ∧ h.tb.netHold = false) ∧
    (∃ (s : State) (h : Hw), h = clearSent s.hw ∧ h.tb.refLost = true) ∧
    (∃ (s : State) (h : Hw), h = clearSent s.hw ∧ h.tb.refLost = false ∧ h.tb.holdover = false) ∧
    (∃ (s : State) (h : Hw), h = clearSent s.hw ∧ h.tb.refLost = false) ∧
    (∃ (s : State) (h : Hw), h = clearSent s.hw ∧ h.tb.refLost = true ∧ h.tb.netHold = true) ∧
    (∃ (s : State) (h : Hw) (i : Island) (y : IslandState) (t1 : Nat) (t : Nat), h = clearSent s.hw ∧ y = islandAt h i ∧ y.power = .waking
     t1 ∧ h.tb.slew = 0 ∧ h.tb.holdover = false ∧ tabWf {} h.islands = true ∧ t = h.tb.now + 1000) ∧
    (∃ (s : State) (h : Hw) (a : ℤ) (t : Nat), h = clearSent s.hw ∧ h.tb.refLost = true ∧ h.tb.netHold = true ∧ t = max h.tb.now
     (h.tb.holdSince + 10000000) ∧ a.natAbs ≤ driftBound (t - h.tb.holdSince)) ∧
    (∃ (s : State) (h : Hw) (a : ℤ), h = clearSent s.hw ∧ h.tb.refLost = true ∧ driftBound (max h.tb.now (h.tb.holdSince + 10000000) -
     h.tb.holdSince) < a.natAbs) ∧
    (∃ (s : State) (h : Hw) (back : Nat) (fwd : Nat) (t : Nat) (left : ℤ) (g : Hw), h = clearSent s.hw ∧ back = min (-h.tb.slew).toNat 62 ∧
     fwd = h.tb.slew.toNat ∧ t = h.tb.now + (1000 - back) + fwd ∧ left = h.tb.slew + back - fwd ∧ g =
     { h with tb := { h.tb with now := t, slew := left, markers := h.tb.markers + 1 }, islands := tabMap {} h.islands (fun _ y => loadTb t y) }
     ∧ (h.tb.holdover = false ∨ h.tb.refLost = true ∨ h.tb.netHold = true ∨ left < -1)) ∧
    (∃ (s : State) (h : Hw) (back : Nat) (fwd : Nat) (t : Nat) (left : ℤ) (g : Hw), h = clearSent s.hw ∧ back = min (-h.tb.slew).toNat 62 ∧
     fwd = h.tb.slew.toNat ∧ t = h.tb.now + (1000 - back) + fwd ∧ left = h.tb.slew + back - fwd ∧ g =
     { h with tb := { h.tb with now := t, slew := left, markers := h.tb.markers + 1 }, islands := tabMap {} h.islands (fun _ y => loadTb t y) }
     ∧ h.tb.holdover = true ∧ h.tb.refLost = false ∧ h.tb.netHold = false ∧ -1 ≤ left) ∧
    (∃ (s : State) (h : Hw) (g : Hw), h = clearSent s.hw ∧ h.tb.refLost = false ∧ g =
     { h with tb := { h.tb with refLost := true, holdSince := h.tb.now } } ∧ h.tb.holdover = true) ∧
    (∃ (s : State) (h : Hw) (g : Hw), h = clearSent s.hw ∧ h.tb.refLost = false ∧ g =
     { h with tb := { h.tb with refLost := true, holdSince := h.tb.now } } ∧ h.tb.holdover = false) ∧
    (∃ (s : State) (h : Hw) (a : ℤ) (t : Nat) (g : Hw), h = clearSent s.hw ∧ h.tb.refLost = true ∧ t = max h.tb.now (h.tb.holdSince +
     10000000) ∧ a.natAbs ≤ driftBound (t - h.tb.holdSince) ∧ g =
     { h with tb := { h.tb with now := t, refLost := false, slew := h.tb.slew + a } } ∧ (h.tb.netHold = true ∨ 1 < g.tb.slew.natAbs ∨
     h.tb.holdover = false)) ∧
    (∃ (s : State) (h : Hw) (a : ℤ) (t : Nat) (g : Hw), h = clearSent s.hw ∧ h.tb.refLost = true ∧ t = max h.tb.now (h.tb.holdSince +
     10000000) ∧ a.natAbs ≤ driftBound (t - h.tb.holdSince) ∧ g =
     { h with tb := { h.tb with now := t, refLost := false, slew := h.tb.slew + a } } ∧ h.tb.netHold = false ∧ g.tb.slew.natAbs ≤ 1 ∧
     h.tb.holdover = true) ∧
    (∃ (s : State) (h : Hw) (k : Nat) (g : Hw), h = clearSent s.hw ∧ tierOpen h k = true ∧ h.memhw.selfRefresh = false ∧ g = setChan h k
     { chanAt h k with recals := (chanAt h k).recals + 1 }) ∧
    (∃ (s : State) (h : Hw) (k : Nat), h = clearSent s.hw ∧ (tierOpen h k = false ∨ h.memhw.selfRefresh = true)) ∧
    (∃ (s : State) (h : Hw) (k : Nat) (t : Nat) (x : Channel), h = clearSent s.hw ∧ k ∈ tierUnits h true ∧ x = chanAt h k ∧ (t < 340 ∧
     x.refresh ≠ 2 ∧ x.refresh ≠ 4 ∨ t ≤ 328)) ∧
    (∃ (s : State) (h : Hw) (k : Nat) (t : Nat) (x : Channel), h = clearSent s.hw ∧ k ∈ tierUnits h true ∧ x = chanAt h k ∧ (340 ≤ t ∧ t <
     380 ∧ x.refresh ≠ 4 ∨ 340 ≤ t ∧ t ≤ 368 ∨ 328 < t ∧ t ≤ 368 ∧ (x.refresh = 2 ∨ x.refresh = 4))) ∧
    (∃ (s : State) (h : Hw) (k : Nat) (t : Nat) (x : Channel), h = clearSent s.hw ∧ k ∈ tierUnits h true ∧ x = chanAt h k ∧ t < 420 ∧ (380 ≤
     t ∨ 368 < t ∧ x.refresh = 4)) ∧
    (∃ (s : State) (h : Hw) (k : Nat) (t : Nat) (x : Channel), h = clearSent s.hw ∧ k ∈ tierUnits h true ∧ x = chanAt h k ∧ 420 ≤ t) ∧
    (∃ (s : State) (h : Hw) (k : Nat), h = clearSent s.hw ∧ k ∉ tierUnits h true) ∧
    (∃ (s : State) (h : Hw) (n : Nat) (k : Nat) (a : Nat) (b : Nat) (d : Bool) (x : Channel) (rs : List RankHot) (g : Hw), h = clearSent
     s.hw ∧ n < 128 ∧ k < 2 ∧ x = chanAt h (16 + n) ∧ rs = x.mr4.set k { value := a, mult := b, derate := d, over_ := false } ∧ g = setChan
     h (16 + n)
     { x with mr4 := rs, temp := (rs.map (·.value)).foldl max 0, refresh := (rs.map (·.mult)).foldl max 0, throttle := if rs.any (·.over_) then 25 else 100 }) ∧
    (∃ (s : State) (h : Hw) (n : Nat) (k : Nat) (a : Nat) (b : Nat) (d : Bool) (x : Channel) (rs : List RankHot) (g : Hw), h = clearSent
     s.hw ∧ n < 128 ∧ k < 2 ∧ x = chanAt h (16 + n) ∧ k < x.mr4.length ∧ rs = x.mr4.set k
     { value := a, mult := b, derate := d, over_ := true } ∧ g = setChan h (16 + n)
     { x with mr4 := rs, temp := (rs.map (·.value)).foldl max 0, refresh := (rs.map (·.mult)).foldl max 0, throttle := 25 }) ∧
    (∃ (s : State) (h : Hw) (n : Nat) (k : Nat), h = clearSent s.hw ∧ (128 ≤ n ∨ 2 ≤ k)) ∧
    (∃ (s : State) (h : Hw) (k : Nat) (c : Nat) (b : Nat) (row : Nat) (n : Nat) (x : Nat) (d : MemDevice) (y : Nat) (m : MemHw), h =
     clearSent s.hw ∧ tierOpen h k = true ∧ d = (chanAt h k).dev ∧ c < (if k < 16 then 32 else d.ranks) ∧ b < (if k < 16 then 48 else 16) ∧
     row < d.rows ∧ x = tabGet 0 h.memhw.acts (rowKey k c b row) + n ∧ y = tabGet 0 h.memhw.raa (bankAt k c b) + n ∧ m =
     { h.memhw with acts := tabPut 0 h.memhw.acts (rowKey k c b row) (x % 512), targeted := h.memhw.targeted + x / 512 } ∧ d.rfmAt = 0) ∧
    (∃ (s : State) (h : Hw) (k : Nat) (c : Nat) (b : Nat) (row : Nat) (n : Nat) (x : Nat) (d : MemDevice) (y : Nat) (m : MemHw), h =
     clearSent s.hw ∧ tierOpen h k = true ∧ d = (chanAt h k).dev ∧ c < (if k < 16 then 32 else d.ranks) ∧ b < (if k < 16 then 48 else 16) ∧
     row < d.rows ∧ x = tabGet 0 h.memhw.acts (rowKey k c b row) + n ∧ y = tabGet 0 h.memhw.raa (bankAt k c b) + n ∧ m =
     { h.memhw with acts := tabPut 0 h.memhw.acts (rowKey k c b row) (x % 512), targeted := h.memhw.targeted + x / 512 } ∧ d.rfmAt ≠ 0) ∧
    (∃ (s : State) (h : Hw) (k : Nat) (c : Nat) (b : Nat) (row : Nat) (d : MemDevice), h = clearSent s.hw ∧ d = (chanAt h k).dev ∧ (tierOpen
     h k = false ∨ (if k < 16 then 32 else d.ranks) ≤ c ∨ (if k < 16 then 48 else 16) ≤ b ∨ d.rows ≤ row)) ∧
    (∃ (s : State) (h : Hw) (r : RefreshOf) (c : Channel) (g : Hw), h = clearSent s.hw ∧ (r.unit ∈ tierUnits h true ∨ r.unit ∈ tierUnits h
     false) ∧ h.start.st ≠ PowerSt.off ∧ h.memhw.selfRefresh = false ∧ c = chanAt h r.unit ∧ g = setChan h r.unit
     { c with refreshes := c.refreshes + 1 } ∧ tabWf 0 h.memhw.acts = true) ∧
    (∃ (s : State) (h : Hw) (r : RefreshOf), h = clearSent s.hw ∧ (h.start.st = PowerSt.off ∨ h.memhw.selfRefresh = true ∨ r.unit ∉
     tierUnits h true ∧ r.unit ∉ tierUnits h false)) :=
  ⟨⟨(st { tb := { holdover := true } }), _, rfl, (by decide +kernel), (by decide +kernel), (by decide +kernel), (by decide +kernel)⟩,
   ⟨(st { tb := { refLost := true } }), _, rfl, (by decide +kernel)⟩,
   ⟨(st {}), _, rfl, (by decide +kernel), (by decide +kernel)⟩,
   ⟨(st {}), _, rfl, (by decide +kernel)⟩,
   ⟨(st { tb := { refLost := true, netHold := true } }), _, rfl, (by decide +kernel), (by decide +kernel)⟩,
   ⟨(st { islands := [(islandKey { kind := .quad, idx := 127 }, { power := .waking 0, hasTb := false })], tb := { now := 3000 } }), _,
     { kind := .quad, idx := 127 }, _, _, _, rfl, rfl, rfl, (by decide +kernel), (by decide +kernel), (by decide +kernel), rfl⟩,
   ⟨(st { tb := { refLost := true, netHold := true } }), _, 1, _, rfl, (by decide +kernel), (by decide +kernel), rfl, (by decide +kernel)⟩,
   ⟨(st { tb := { refLost := true } }), _, 6, rfl, (by decide +kernel), (by decide +kernel)⟩,
   ⟨(st {}), _, _, _, _, _, _, rfl, rfl, rfl, rfl, rfl, rfl, (by decide +kernel)⟩,
   ⟨(st { tb := { holdover := true, slew := -63 } }), _, _, _, _, _, _, rfl, rfl, rfl, rfl, rfl, rfl, (by decide +kernel),
     (by decide +kernel), (by decide +kernel), (by decide +kernel)⟩,
   ⟨(st { tb := { holdover := true } }), _, _, rfl, (by decide +kernel), rfl, (by decide +kernel)⟩,
   ⟨(st {}), _, _, rfl, (by decide +kernel), rfl, (by decide +kernel)⟩,
   ⟨(st { tb := { refLost := true, netHold := true } }), _, 1, _, _, rfl, (by decide +kernel), rfl, (by decide +kernel), rfl,
     (by decide +kernel)⟩,
   ⟨(st { tb := { refLost := true, holdover := true } }), _, 1, _, _, rfl, (by decide +kernel), rfl, (by decide +kernel), rfl,
     (by decide +kernel), (by decide +kernel), (by decide +kernel)⟩,
   ⟨(st { memhw := { nearOpen := true, farOpen := true } }), _, 143, _, rfl, (by decide +kernel), (by decide +kernel), rfl⟩,
   ⟨(st {}), _, 11, rfl, (by decide +kernel)⟩,
   ⟨(st {}), _, 11, 339, _, rfl, (by decide +kernel), rfl, (by decide +kernel)⟩,
   ⟨(st {}), _, 11, 379, _, rfl, (by decide +kernel), rfl, (by decide +kernel)⟩,
   ⟨(st {}), _, 11, 419, _, rfl, (by decide +kernel), rfl, (by decide +kernel), (by decide +kernel)⟩,
   ⟨(st {}), _, 0, 420, _, rfl, (by decide +kernel), rfl, (by decide +kernel)⟩,
   ⟨(st {}), _, 12, rfl, (by decide +kernel)⟩,
   ⟨(st {}), _, 127, 1, 5, 4, true, _, _, _, rfl, (by decide +kernel), (by decide +kernel), rfl, rfl, rfl⟩,
   ⟨(st {}), _, 127, 1, 7, 8, true, _, _, _, rfl, (by decide +kernel), (by decide +kernel), rfl, (by decide +kernel), rfl, rfl⟩,
   ⟨(st {}), _, 127, 2, rfl, (by decide +kernel)⟩,
   ⟨(st { memhw := { nearOpen := true, farOpen := true } }), _, 143, 1, 15, 65535, 7, _, _, _, _, rfl, (by decide +kernel), rfl,
     (by decide +kernel), (by decide +kernel), (by decide +kernel), rfl, rfl, rfl, (by decide +kernel)⟩,
   ⟨(st { memhw := { nearOpen := true, chans := [(11, { dev := { rfmAt := 4 } })] } }), _, 11, 31, 47, 65535, 9, _, _, _, _, rfl,
     (by decide +kernel), rfl, (by decide +kernel), (by decide +kernel), (by decide +kernel), rfl, rfl, rfl, (by decide +kernel)⟩,
   ⟨(st { memhw := { nearOpen := true, farOpen := true } }), _, 143, 1, 15, 65536, _, rfl, rfl, (by decide +kernel)⟩,
   ⟨(st { start := { st := .active }, memhw := { nearOpen := true } }), _, { unit := 11, chan := 31, bank := 47, first := 0, count := 8 },
     _, _, rfl, (by decide +kernel), (by decide +kernel), (by decide +kernel), rfl, rfl, (by decide +kernel)⟩,
   ⟨(st {}), _, { unit := 12, chan := 0, bank := 0, first := 0, count := 1 }, rfl, (by decide +kernel)⟩⟩

theorem wit_GatingRows :
    (∃ (s : State) (h : Hw) (i : Island) (x : IslandState), ∃ t, h = clearSent s.hw ∧ x = islandAt h i ∧ x.power = .closing t ∧ ((t + 5000 <
     h.tb.now ∨ drainedIsland h i = false))) ∧
    (∃ (s : State) (h : Hw) (i : Island) (x : IslandState), ∃ t g, h = clearSent s.hw ∧ x = islandAt h i ∧ x.power = .drained t ∧ g =
     { h with tb := { h.tb with now := max h.tb.now (t + 100) } }) ∧
    (∃ (s : State) (h : Hw) (i : Island) (x : IslandState), ∃ t g, h = clearSent s.hw ∧ x = islandAt h i ∧ x.power = .drained t ∧ ((i.kind =
     .rootPort ∨ i.kind = .baseIdurrum ∨ i.kind = .ldiePort)) ∧ g = { h with tb := { h.tb with now := max h.tb.now (t + 100) } }) ∧
    (∃ (s : State) (h : Hw) (i : Island) (x : IslandState), h = clearSent s.hw ∧ x = islandAt h i ∧ ((∀ t, x.power ≠ .drained t))) ∧
    (∃ (s : State) (h : Hw) (i : Island) (x : IslandState), h = clearSent s.hw ∧ x = islandAt h i ∧ x.power = .gated) ∧
    (∃ (s : State) (h : Hw) (i : Island) (x : IslandState), h = clearSent s.hw ∧ x = islandAt h i ∧ x.power = .open ∧ i.idx < kindCount h
     i.kind ∧ mayGate h i = true) ∧
    (∃ (s : State) (h : Hw) (i : Island) (x : IslandState), h = clearSent s.hw ∧ x = islandAt h i ∧ x.power = .open ∧ i.idx < kindCount h
     i.kind ∧ mayGate h i = false) ∧
    (∃ (s : State) (h : Hw) (i : Island) (x : IslandState), h = clearSent s.hw ∧ x = islandAt h i ∧ (x.power ≠ .open ∨ kindCount h i.kind ≤
     i.idx)) ∧
    (∃ (s : State) (h : Hw) (i : Island) (x : IslandState) (t : Nat) (g : Hw), h = clearSent s.hw ∧ x = islandAt h i ∧ x.power = .drained t
     ∧ g = gateLoss (setIsland { h with tb := { h.tb with now := max h.tb.now (t + 100) } } i
     { x with power := .gated, hasTb := false, gateLost := decide (i.kind = IslandKind.quad) }) i) ∧
    (∃ (s : State) (h : Hw) (i : Island) (x : IslandState), h = clearSent s.hw ∧ x = islandAt h i ∧ ((∀ t, x.power ≠ .waking t) ∨ x.hasTb =
     false)) ∧
    (∃ (s : State) (h : Hw) (i : Island) (x : IslandState) (t : Nat) (g : Hw), h = clearSent s.hw ∧ x = islandAt h i ∧ x.power = .closing t
     ∧ h.tb.now ≤ t + 5000 ∧ drainedIsland h i = true ∧ g = setIsland h i { x with power := .drained h.tb.now, held := 0 } ∧ i.kind ≠
     IslandKind.cluster) ∧
    (∃ (s : State) (h : Hw) (i : Island) (x : IslandState) (t : Nat) (g : Hw), h = clearSent s.hw ∧ x = islandAt h i ∧ x.power = .closing t
     ∧ h.tb.now ≤ t + 5000 ∧ drainedIsland h i = true ∧ g = setIsland h i { x with power := .drained h.tb.now, held := 0 } ∧ i.kind =
     IslandKind.cluster) ∧
    (∃ (s : State) (h : Hw) (i : Island) (x : IslandState), h = clearSent s.hw ∧ x = islandAt h i ∧ (∀ t, x.power ≠ .closing t)) ∧
    (∃ (s : State) (h : Hw) (i : Island) (x : IslandState) (t : Nat) (g : Hw), h = clearSent s.hw ∧ x = islandAt h i ∧ x.power = .closing t
     ∧ g = setIsland { h with tb := { h.tb with now := max h.tb.now (t + 5000) } } i { x with power := .open, held := 0, gateBusy := true }
     ∧ i.kind ≠ IslandKind.cluster) ∧
    (∃ (s : State) (h : Hw) (i : Island) (x : IslandState) (t : Nat) (g : Hw), h = clearSent s.hw ∧ x = islandAt h i ∧ x.power = .closing t
     ∧ g = setIsland { h with tb := { h.tb with now := max h.tb.now (t + 5000) } } i { x with power := .open, held := 0, gateBusy := true }
     ∧ i.kind = IslandKind.cluster) ∧
    (∃ (s : State) (h : Hw) (i : Island) (x : IslandState), h = clearSent s.hw ∧ x = islandAt h i ∧ x.power ≠ .gated ∧ (∀ t, x.power ≠
     .drained t)) ∧
    (∃ (s : State) (h : Hw) (i : Island) (x : IslandState) (t : Nat) (g : Hw), h = clearSent s.hw ∧ x = islandAt h i ∧ x.power = .waking t ∧
     x.hasTb = true ∧ g = setIsland h i { x with power := .open, held := 0 } ∧ i.kind ≠ IslandKind.cluster) ∧
    (∃ (s : State) (h : Hw) (i : Island) (x : IslandState) (t : Nat) (g : Hw), h = clearSent s.hw ∧ x = islandAt h i ∧ x.power = .waking t ∧
     x.hasTb = true ∧ g = setIsland h i { x with power := .open, held := 0 } ∧ i.kind = IslandKind.cluster) :=
  ⟨⟨(st { tb := { now := 5001 }, islands := [(islandKey { kind := .cluster, idx := 15 }, { power := .closing 0 })] }), _,
     { kind := .cluster, idx := 15 }, _, _, rfl, rfl, rfl, (by decide +kernel)⟩,
   ⟨(st { islands := [(islandKey { kind := .quad, idx := 127 }, { power := .drained 0 })] }), _, { kind := .quad, idx := 127 }, _, _, _,
     rfl, rfl, rfl, rfl⟩,
   ⟨(st { islands := [(islandKey { kind := .ldiePort, idx := 15 }, { power := .drained 0 })] }), _, { kind := .ldiePort, idx := 15 }, _, _,
     _, rfl, rfl, rfl, (by decide +kernel), rfl⟩,
   ⟨(st {}), _, { kind := .quad, idx := 127 }, _, rfl, rfl, fun t h => by cases (show IslandPower.open = .drained t from h)⟩,
   ⟨(st { islands := [(islandKey { kind := .quad, idx := 127 }, { power := .gated })] }), _, { kind := .quad, idx := 127 }, _, rfl, rfl,
     (by decide +kernel)⟩,
   ⟨(st {}), _, { kind := .quad, idx := 127 }, _, rfl, rfl, (by decide +kernel), (by decide +kernel), (by decide +kernel)⟩,
   ⟨(st { locks := [{ die := 3, first := 30, size := 2 }] }), _, { kind := .quad, idx := 127 }, _, rfl, rfl, (by decide +kernel),
     (by decide +kernel), (by decide +kernel)⟩,
   ⟨(st {}), _, { kind := .quad, idx := 128 }, _, rfl, rfl, (by decide +kernel)⟩,
   ⟨(st { islands := [(islandKey { kind := .quad, idx := 127 }, { power := .drained 0 })] }), _, { kind := .quad, idx := 127 }, _, 0, _,
     rfl, rfl, (by decide +kernel), rfl⟩,
   ⟨(st { islands := [(islandKey { kind := .quad, idx := 127 }, { power := .waking 0, hasTb := false })] }), _,
     { kind := .quad, idx := 127 }, _, rfl, rfl, .inr rfl⟩,
   ⟨(st { islands := [(islandKey { kind := .quad, idx := 127 }, { power := .closing 0 })], tb := { now := 5000 } }), _,
     { kind := .quad, idx := 127 }, _, 0, _, rfl, rfl, (by decide +kernel), (by decide +kernel), (by decide +kernel), rfl,
     (by decide +kernel)⟩,
   ⟨(st { islands := [(islandKey { kind := .cluster, idx := 15 }, { power := .closing 0 })], tb := { now := 5000 } }), _,
     { kind := .cluster, idx := 15 }, _, 0, _, rfl, rfl, (by decide +kernel), (by decide +kernel), (by decide +kernel), rfl,
     (by decide +kernel)⟩,
   ⟨(st {}), _, { kind := .quad, idx := 127 }, _, rfl, rfl, (fun _ e => nomatch e)⟩,
   ⟨(st { islands := [(islandKey { kind := .quad, idx := 127 }, { power := .closing 0 })] }), _, { kind := .quad, idx := 127 }, _, 0, _,
     rfl, rfl, (by decide +kernel), rfl, (by decide +kernel)⟩,
   ⟨(st { islands := [(islandKey { kind := .cluster, idx := 15 }, { power := .closing 0 })] }), _, { kind := .cluster, idx := 15 }, _, 0, _,
     rfl, rfl, (by decide +kernel), rfl, (by decide +kernel)⟩,
   ⟨(st {}), _, { kind := .quad, idx := 127 }, _, rfl, rfl, (by decide +kernel), (fun _ e => nomatch e)⟩,
   ⟨(st { islands := [(islandKey { kind := .quad, idx := 127 }, { power := .waking 0 })] }), _, { kind := .quad, idx := 127 }, _, 0, _, rfl,
     rfl, (by decide +kernel), (by decide +kernel), rfl, (by decide +kernel)⟩,
   ⟨(st { islands := [(islandKey { kind := .cluster, idx := 15 }, { power := .waking 0 })] }), _, { kind := .cluster, idx := 15 }, _, 0, _,
     rfl, rfl, (by decide +kernel), (by decide +kernel), rfl, (by decide +kernel)⟩⟩

theorem wit_StraitRows :
    (∃ (s : State) (h : Hw) (a : Island) (b : Island) (p : Nat) (x : IslandState) (y : Strait) (u : Nat × Nat), h = clearSent s.hw ∧ x =
     islandAt h b ∧ y = straitAt h a b ∧ a.idx < kindCount h a.kind ∧ b.idx < kindCount h b.kind ∧ u = (if gateableKind a.kind then
     islandUnit a else islandUnit b) ∧ sharedIsland a = true ∧ sharedIsland b = true ∧ 8 ≤ ((y.used.getD 0 []).filter (· = p)).length) ∧
    (∃ (s : State) (h : Hw) (a : Island) (b : Island) (x : IslandState) (y : Strait) (u : Nat × Nat), h = clearSent s.hw ∧ x = islandAt h b
     ∧ y = straitAt h a b ∧ a.idx < kindCount h a.kind ∧ b.idx < kindCount h b.kind ∧ u = (if gateableKind a.kind then islandUnit a else
     islandUnit b) ∧ ghosted h b = false ∧ retrying h b = false) ∧
    (∃ (s : State) (h : Hw) (a : Island) (b : Island) (x : IslandState) (y : Strait) (u : Nat × Nat), h = clearSent s.hw ∧ x = islandAt h b
     ∧ y = straitAt h a b ∧ a.idx < kindCount h a.kind ∧ b.idx < kindCount h b.kind ∧ u = (if gateableKind a.kind then islandUnit a else
     islandUnit b) ∧ (ghosted h b = true ∨ retrying h b = true)) ∧
    (∃ (s : State) (h : Hw) (a : Island) (b : Island) (x : IslandState) (y : Strait) (u : Nat × Nat) (n : Nat), h = clearSent s.hw ∧ x =
     islandAt h b ∧ y = straitAt h a b ∧ a.idx < kindCount h a.kind ∧ b.idx < kindCount h b.kind ∧ u = (if gateableKind a.kind then
     islandUnit a else islandUnit b) ∧ ghosted h b = true ∧ n = (x.ghostDiscard + 1) % 2 ^ 32) ∧
    (∃ (s : State) (h : Hw) (a : Island) (b : Island) (x : IslandState) (y : Strait) (u : Nat × Nat) (k : MsgKind), h = clearSent s.hw ∧ x =
     islandAt h b ∧ y = straitAt h a b ∧ a.idx < kindCount h a.kind ∧ b.idx < kindCount h b.kind ∧ u = (if gateableKind a.kind then
     islandUnit a else islandUnit b) ∧ ghosted h b = true ∧ k ≠ .posted ∧ k ≠ .read) ∧
    (∃ (s : State) (h : Hw) (a : Island) (b : Island) (c : MsgClass) (x : IslandState) (y : Strait) (u : Nat × Nat), h = clearSent s.hw ∧ x
     = islandAt h b ∧ y = straitAt h a b ∧ a.idx < kindCount h a.kind ∧ b.idx < kindCount h b.kind ∧ u = (if gateableKind a.kind then
     islandUnit a else islandUnit b) ∧ ghosted h b = true ∧ c ≠ .req ∧ c ≠ .snp) ∧
    (∃ (s : State) (h : Hw) (a : Island) (b : Island) (x : IslandState) (u : Nat × Nat), h = clearSent s.hw ∧ x = islandAt h b ∧ u = (if
     gateableKind a.kind then islandUnit a else islandUnit b) ∧ (islandExists h a = false ∨ islandExists h b = false)) ∧
    (∃ (s : State) (h : Hw) (a : Island) (b : Island) (c : MsgClass) (p : Nat) (x : IslandState) (u : Nat × Nat) (f : StraitFlit) (n : Nat)
     (g : Hw) (y : Strait) (e : Nat) (v : Hw) (w : Hw), h = clearSent s.hw ∧ x = islandAt h b ∧ u = (if gateableKind a.kind then islandUnit
     a else islandUnit b) ∧ islandExists h a = true ∧ islandExists h b = true ∧ g = returnCredits h a b c n ∧ y = straitAt g a b ∧ e =
     flitErrs f ∧ x.power = .open ∧ isolated h a = false ∧ x.hasTb = true ∧ (creditFree a b y c p = true ∧ answerRoom y c = true ∨ c = .rsp
     ∨ c = .cmp) ∧ e ≤ 3 ∧ v = delivered g a b c f p ∧ w =
     { v with straits := tabMod {} v.straits (pairKey a b) (fun z => { z with errors := z.errors + e }) }) ∧
    (∃ (s : State) (h : Hw) (a : Island) (b : Island) (c : MsgClass) (p : Nat) (x : IslandState) (u : Nat × Nat) (f : StraitFlit) (n : Nat)
     (g : Hw) (y : Strait) (e : Nat), h = clearSent s.hw ∧ x = islandAt h b ∧ u = (if gateableKind a.kind then islandUnit a else islandUnit
     b) ∧ islandExists h a = true ∧ islandExists h b = true ∧ g = returnCredits h a b c n ∧ y = straitAt g a b ∧ e = flitErrs f ∧ x.power =
     .open ∧ isolated h a = false ∧ x.hasTb = true ∧ (creditFree a b y c p = false ∨ answerRoom y c = false) ∧ c ≠ .rsp ∧ c ≠ .cmp) ∧
    (∃ (s : State) (h : Hw) (a : Island) (b : Island) (c : MsgClass) (p : Nat) (x : IslandState) (u : Nat × Nat) (f : StraitFlit) (n : Nat)
     (g : Hw) (y : Strait) (e : Nat), h = clearSent s.hw ∧ x = islandAt h b ∧ u = (if gateableKind a.kind then islandUnit a else islandUnit
     b) ∧ islandExists h a = true ∧ islandExists h b = true ∧ g = returnCredits h a b c n ∧ y = straitAt g a b ∧ e = flitErrs f ∧ x.power =
     .open ∧ isolated h a = false ∧ x.hasTb = true ∧ (creditFree a b y c p = true ∧ answerRoom y c = true ∨ c = .rsp ∨ c = .cmp) ∧ 4 ≤ e) ∧
    (∃ (s : State) (h : Hw) (a : Island) (b : Island) (c : MsgClass) (x : IslandState) (u : Nat × Nat) (f : StraitFlit) (n : Nat) (g : Hw)
     (y : Strait) (e : Nat), h = clearSent s.hw ∧ x = islandAt h b ∧ u = (if gateableKind a.kind then islandUnit a else islandUnit b) ∧
     islandExists h a = true ∧ islandExists h b = true ∧ g = returnCredits h a b c n ∧ y = straitAt g a b ∧ e = flitErrs f ∧ retrying h b =
     true ∧ isolated h a = false ∧ (c = .req ∨ c = .snp)) ∧
    (∃ (s : State) (h : Hw) (a : Island) (b : Island) (c : MsgClass) (x : IslandState) (u : Nat × Nat) (f : StraitFlit) (n : Nat) (g : Hw)
     (y : Strait) (e : Nat), h = clearSent s.hw ∧ x = islandAt h b ∧ u = (if gateableKind a.kind then islandUnit a else islandUnit b) ∧
     islandExists h a = true ∧ islandExists h b = true ∧ g = returnCredits h a b c n ∧ y = straitAt g a b ∧ e = flitErrs f ∧ (isolated h a =
     true ∨ ghosted h b = true)) ∧
    (∃ (s : State) (h : Hw) (a : Island) (b : Island) (c : MsgClass) (x : IslandState) (u : Nat × Nat) (f : StraitFlit) (n : Nat) (g : Hw)
     (y : Strait) (e : Nat), h = clearSent s.hw ∧ x = islandAt h b ∧ u = (if gateableKind a.kind then islandUnit a else islandUnit b) ∧
     islandExists h a = true ∧ islandExists h b = true ∧ g = returnCredits h a b c n ∧ y = straitAt g a b ∧ e = flitErrs f ∧ isolated h a =
     false ∧ ghosted h b = false ∧ x.hasTb = false ∧ c ≠ .req ∧ c ≠ .snp) ∧
    (∃ (s : State) (h : Hw) (a : Island) (b : Island) (c : MsgClass) (p : Nat) (x : IslandState) (u : Nat × Nat) (f : StraitFlit) (y :
     Strait), h = clearSent s.hw ∧ x = islandAt h b ∧ u = (if gateableKind a.kind then islandUnit a else islandUnit b) ∧ islandExists h a =
     true ∧ islandExists h b = true ∧ tabWf {} h.straits = true ∧ straitKey a b ≠ straitKey b a ∧ x.power = .open ∧ isolated h a = false ∧
     x.hasTb = true ∧ y = straitAt h a b ∧ creditFree a b y c p = true ∧ answerRoom y c = true ∧ flitErrs f = 0) ∧
    (∃ (s : State) (h : Hw) (a : Island) (b : Island) (x : IslandState) (u : Nat × Nat), h = clearSent s.hw ∧ x = islandAt h b ∧ u = (if
     gateableKind a.kind then islandUnit a else islandUnit b) ∧ islandExists h a = true ∧ islandExists h b = true ∧ ghosted h b = false ∧
     retrying h b = false) :=
  ⟨⟨(st
     { straits := [(straitKey { kind := .aFabric, idx := 2 } { kind := .aFabric, idx := 3 }, { used := [List.replicate 8 0, [], [], [], []] })] }),
     _, { kind := .aFabric, idx := 2 }, { kind := .aFabric, idx := 3 }, 0, _, _, _, rfl, rfl, rfl, (by decide +kernel), (by decide +kernel),
     rfl, (by decide +kernel), (by decide +kernel), (by decide +kernel)⟩,
   ⟨(st {}), _, { kind := .quad, idx := 127 }, { kind := .aFabric, idx := 3 }, _, _, _, rfl, rfl, rfl, (by decide +kernel),
     (by decide +kernel), rfl, (by decide +kernel), (by decide +kernel)⟩,
   ⟨(st { islands := [(islandKey { kind := .aFabric, idx := 3 }, { power := .waking 0 })], tb := { now := 1999 } }), _,
     { kind := .quad, idx := 127 }, { kind := .aFabric, idx := 3 }, _, _, _, rfl, rfl, rfl, (by decide +kernel), (by decide +kernel), rfl,
     (by decide +kernel)⟩,
   ⟨(st { islands := [(islandKey { kind := .aFabric, idx := 3 }, { power := .gated })], tb := { now := 0 } }), _,
     { kind := .quad, idx := 127 }, { kind := .aFabric, idx := 3 }, _, _, _, _, rfl, rfl, rfl, (by decide +kernel), (by decide +kernel),
     rfl, (by decide +kernel), rfl⟩,
   ⟨(st { islands := [(islandKey { kind := .aFabric, idx := 3 }, { power := .gated })], tb := { now := 0 } }), _,
     { kind := .quad, idx := 127 }, { kind := .aFabric, idx := 3 }, _, _, _, .other, rfl, rfl, rfl, (by decide +kernel),
     (by decide +kernel), rfl, (by decide +kernel), (by decide +kernel), (by decide +kernel)⟩,
   ⟨(st { islands := [(islandKey { kind := .aFabric, idx := 3 }, { power := .drained 0 })], tb := { now := 0 } }), _,
     { kind := .quad, idx := 127 }, { kind := .aFabric, idx := 3 }, .dat, _, _, _, rfl, rfl, rfl, (by decide +kernel), (by decide +kernel),
     rfl, (by decide +kernel), (by decide +kernel), (by decide +kernel)⟩,
   ⟨(st {}), _, { kind := .quad, idx := 128 }, { kind := .aFabric, idx := 3 }, _, _, rfl, rfl, rfl, (by decide +kernel)⟩,
   ⟨(st {}), _, { kind := .quad, idx := 127 }, { kind := .aFabric, idx := 3 }, .req, 0, _, _, { upsets := List.replicate 3 [(0, 0)] }, 1, _,
     _, _, _, _, rfl, rfl, rfl, (by decide +kernel), (by decide +kernel), rfl, rfl, rfl, (by decide +kernel), (by decide +kernel),
     (by decide +kernel), (by decide +kernel), (by decide +kernel), rfl, rfl⟩,
   ⟨(st
     { straits := [(straitKey { kind := .quad, idx := 127 } { kind := .aFabric, idx := 3 }, { used := [List.replicate 16 0, [], [], [], []] })] }),
     _, { kind := .quad, idx := 127 }, { kind := .aFabric, idx := 3 }, .req, 0, _, _, {}, 0, _, _, _, rfl, rfl, rfl, (by decide +kernel),
     (by decide +kernel), rfl, rfl, rfl, (by decide +kernel), (by decide +kernel), (by decide +kernel), (by decide +kernel),
     (by decide +kernel), (by decide +kernel)⟩,
   ⟨(st {}), _, { kind := .quad, idx := 127 }, { kind := .aFabric, idx := 3 }, .cmp, 0, _, _, { upsets := List.replicate 4 [(0, 0)] }, 0, _,
     _, _, rfl, rfl, rfl, (by decide +kernel), (by decide +kernel), rfl, rfl, rfl, (by decide +kernel), (by decide +kernel),
     (by decide +kernel), (by decide +kernel), (by decide +kernel)⟩,
   ⟨(st { islands := [(islandKey { kind := .aFabric, idx := 3 }, { power := .waking 0 })], tb := { now := 2000 } }), _,
     { kind := .quad, idx := 127 }, { kind := .aFabric, idx := 3 }, .snp, _, _, {}, 0, _, _, _, rfl, rfl, rfl, (by decide +kernel),
     (by decide +kernel), rfl, rfl, rfl, (by decide +kernel), (by decide +kernel), (by decide +kernel)⟩,
   ⟨(st { islands := [(islandKey { kind := .aFabric, idx := 3 }, { power := .waking 0 })], tb := { now := 1999 } }), _,
     { kind := .quad, idx := 127 }, { kind := .aFabric, idx := 3 }, .cmp, _, _, {}, 0, _, _, _, rfl, rfl, rfl, (by decide +kernel),
     (by decide +kernel), rfl, rfl, rfl, (by decide +kernel)⟩,
   ⟨(st { islands := [(islandKey { kind := .aFabric, idx := 3 }, { power := .waking 0, hasTb := false })], tb := { now := 2000 } }), _,
     { kind := .quad, idx := 127 }, { kind := .aFabric, idx := 3 }, .cmp, _, _, {}, 0, _, _, _, rfl, rfl, rfl, (by decide +kernel),
     (by decide +kernel), rfl, rfl, rfl, (by decide +kernel), (by decide +kernel), (by decide +kernel), (by decide +kernel),
     (by decide +kernel)⟩,
   ⟨(st {}), _, { kind := .quad, idx := 127 }, { kind := .aFabric, idx := 3 }, .req, 0, _, _, {}, _, rfl, rfl, rfl, (by decide +kernel),
     (by decide +kernel), (by decide +kernel), (by decide +kernel), (by decide +kernel), (by decide +kernel), (by decide +kernel), rfl,
     (by decide +kernel), (by decide +kernel), (by decide +kernel)⟩,
   ⟨(st {}), _, { kind := .quad, idx := 127 }, { kind := .aFabric, idx := 3 }, _, _, rfl, rfl, rfl, (by decide +kernel),
     (by decide +kernel), (by decide +kernel), (by decide +kernel)⟩⟩

theorem wit_RegisterWindowStores :
    (∃ (s : State) (h : Hw) (k : Nat) (x : FaultQueue), h = clearSent s.hw ∧ k ≤ 17 ∧ x = queueAt h k) ∧
    (∃ (s : State) (h : Hw) (k : Nat) (v : Nat) (x : FaultQueue), h = clearSent s.hw ∧ k ≤ 17 ∧ x = queueAt h k ∧ ((BitVec.ofNat 32 v) -
     x.head).toNat ≤ queueUsed x) ∧
    (∃ (s : State) (h : Hw) (k : Nat) (v : Nat) (x : FaultQueue), h = clearSent s.hw ∧ k ≤ 17 ∧ x = queueAt h k ∧ queueUsed x <
     ((BitVec.ofNat 32 v) - x.head).toNat) ∧
    (∃ (s : State) (h : Hw) (p : Nat) (k : Nat) (v : BitVec 64) (x : Knot) (o : Nat), h = clearSent s.hw ∧ x = knotAt h k ∧ knotOwner h k =
     p ∧ x.poison = false ∧ x.broken = false ∧ o = (if x.type = 0 then 1 else if x.type = 1 then 3 else if x.type = 2 then (if v = 0#64 then
     6 else 5) else 7)) ∧
    (∃ (s : State) (h : Hw) (p : Nat) (k : Nat), h = clearSent s.hw ∧ knotOwner h k ≠ p ∧ h.sync.pools = [] ∧ h.sync.ledgers = []) ∧
    (∃ (s : State) (h : Hw) (p : Nat) (n : Nat) (f : Nat), h = clearSent s.hw ∧ p ≤ 16 ∧ n < 128 ∧ f < 8 ∧ hartOwner h n = p) ∧
    (∃ (s : State) (h : Hw) (n : Nat) (f : Nat) (v : Nat), h = clearSent s.hw ∧ n < 128 ∧ f < 8 ∧ 1 ≤ v ∧ v ≤ (if f = 0 then 255 else 2047)) ∧
    (∃ (s : State) (h : Hw) (p : Nat), h = clearSent s.hw ∧ p ≤ 16) ∧
    (∃ (s : State) (h : Hw) (p : Nat) (w : Half), h = clearSent s.hw ∧ p ≤ 16 ∧ w ≠ .upper) ∧
    (∃ (s : State) (h : Hw) (p : Nat) (w : Half), h = clearSent s.hw ∧ p ≤ 16 ∧ w ≠ .upper) ∧
    (∃ (s : State) (h : Hw) (p : Nat) (v : Nat), h = clearSent s.hw ∧ p ≤ 16 ∧ bitOf v 3 = true ∧ v < 2 ^ 32) ∧
    (∃ (s : State) (h : Hw) (i : Nat) (w : Half), ∃ p, h = clearSent s.hw ∧ i < 1024 ∧ p ≤ 16 ∧ slipOwner h i = p ∧ w ≠ .upper) ∧
    (∃ (s : State) (h : Hw) (p : Nat) (i : Nat), h = clearSent s.hw ∧ i < 1024 ∧ p ≤ 16 ∧ slipOwner h i ≠ p) ∧
    (∃ (s : State) (h : Hw) (i : Nat), ∃ p, h = clearSent s.hw ∧ i < 1024 ∧ p ≤ 16 ∧ slipOwner h i = p) ∧
    (∃ (s : State) (h : Hw) (i : Nat), ∃ p, h = clearSent s.hw ∧ i < 1024 ∧ p ≤ 16 ∧ slipOwner h i = p) ∧
    (∃ (s : State) (h : Hw) (i : Nat), ∃ p, h = clearSent s.hw ∧ i < 1024 ∧ p ≤ 16 ∧ slipOwner h i = p) ∧
    (∃ (s : State) (h : Hw) (p : Nat) (e : Nat) (v : Nat), h = clearSent s.hw ∧ p ≤ 16 ∧ e < 4096 ∧ ((∃ x, x < 2 ^ 21 ∧ (v = x ∨ v = 2 ^ 63
     + x)))) ∧
    (∃ (s : State) (h : Hw) (p : Nat) (e : Nat) (v : Nat), h = clearSent s.hw ∧ p ≤ 16 ∧ e < 4096 ∧ v < 2 ^ 21 ∧ tabGet 0 h.intTable (4096 *
     p + e) = BitVec.ofNat 64 (2 ^ 63) ∧ tabGet 0 h.intHalf (4096 * p + e) = 0) ∧
    (∃ (s : State) (h : Hw) (p : Nat) (o : Nat), h = clearSent s.hw ∧ ((16 < p ∨ 2 ^ 24 ≤ o))) ∧
    (∃ (s : State) (h : Hw) (v : Nat), h = clearSent s.hw ∧ v < 2 ^ 16) ∧
    (∃ (s : State) (h : Hw) (n : Nat), h = clearSent s.hw ∧ runs h n = false) ∧
    (∃ (s : State) (h : Hw) (n : Nat) (x : Hart), h = clearSent s.hw ∧ runs h n = true ∧ x = hartAt h n ∧ x.mode = 3) ∧
    (∃ (s : State) (h : Hw) (n : Nat) (x : Hart), h = clearSent s.hw ∧ runs h n = true ∧ x = hartAt h n ∧ x.mode = 1 ∧ x.virt = true) ∧
    (∃ (s : State) (h : Hw) (v : Nat), h = clearSent s.hw ∧ 7 < v % 256) ∧
    (∃ (s : State) (h : Hw) (p : Nat) (w : Half) (v : Nat), h = clearSent s.hw ∧ p ≤ 16 ∧ (w = .lower ∨ (w = .full ∧ v < 2 ^ 32))) ∧
    (∃ (s : State) (h : Hw) (p : Nat) (v : Nat), h = clearSent s.hw ∧ p ≤ 16 ∧ v < 8 ∧ NoWait (stir (ringDoorbell h (.part p) v))) ∧
    (∃ (s : State) (h : Hw) (p : Nat), h = clearSent s.hw ∧ p ≤ 16 ∧ NoWait (advanceEpoch h p 0)) ∧
    (∃ (s : State) (h : Hw) (p : Nat) (v : Nat), h = clearSent s.hw ∧ p ≤ 16 ∧ NoWait (advanceEpoch h p (asidEpoch (v % 2 ^ 16)))) ∧
    (∃ (s : State) (h : Hw) (p : Nat) (v : Nat), h = clearSent s.hw ∧ p ≤ 16 ∧ bitOf v 3 = true ∧ v < 16) ∧
    (∃ (s : State) (h : Hw) (p : Nat) (v : Nat), h = clearSent s.hw ∧ p ≤ 16 ∧ v < 2 ^ 48) ∧
    (∃ (s : State) (h : Hw) (p : Nat) (v : Nat) (f : W64 × Hw), h = clearSent s.hw ∧ p ≤ 16 ∧ 2 ^ 32 ≤ v ∧ v < 2 ^ 64 ∧ f = takeFree h) ∧
    (∃ (s : State) (h : Hw) (p : Nat) (v : Nat) (f : W64 × Hw) (o : HM), h = clearSent s.hw ∧ p ≤ 16 ∧ 2 ^ 48 ≤ v ∧ v < 2 ^ 64 ∧ f =
     takeFree (takeFree h).2 ∧ o = windowPlain (f.2, s.mem) p (strayOff h 0) f.1.toNat .full) ∧
    (∃ (s : State) (h : Hw) (p : Nat) (k : Nat) (v : Nat) (x : Mbox) (f : W64 × Hw), h = clearSent s.hw ∧ p ≤ 16 ∧ k < 8 ∧ v < 2 ^ 64 ∧ x =
     boxAt h (.part p) ∧ f = takeFree h ∧ x.rung = none) ∧
    (∃ (s : State) (h : Hw) (p : Nat) (k : Nat) (v : Nat) (x : Mbox) (f : W64 × Hw), h = clearSent s.hw ∧ p ≤ 16 ∧ k < 8 ∧ v < 2 ^ 64 ∧ x =
     boxAt h (.part p) ∧ f = takeFree h ∧ x.rung ≠ none) ∧
    (∃ (s : State) (h : Hw) (p : Nat) (i : Nat) (w : Half) (v : Nat), h = clearSent s.hw ∧ i < 1024 ∧ p ≤ 16 ∧ slipOwner h i = p ∧ (w =
     .lower ∨ w = .full) ∧ v < 2 ^ 32 ∧ NoWait (stir (setSlip h i (doorbell (slipAt h i) (BitVec.ofNat 32 v))))) ∧
    (∃ (s : State) (h : Hw) (p : Nat) (i : Nat), h = clearSent s.hw ∧ i < 1024 ∧ p ≤ 16 ∧ slipOwner h i = p ∧ NoWait (slipEnable h i)) ∧
    (∃ (s : State) (h : Hw) (p : Nat) (i : Nat), h = clearSent s.hw ∧ i < 1024 ∧ p ≤ 16 ∧ slipOwner h i = p ∧ NoWait (slipDisable h i)) ∧
    (∃ (s : State) (h : Hw) (o : Nat), h = clearSent s.hw ∧ (o / 4096 = 0x100 ∨ o / 4096 = 0x200)) ∧
    (∃ (s : State) (h : Hw) (n : Nat) (c : Nat), h = clearSent s.hw ∧ runs h n = false ∧ c ≠ 0x7C4 ∧ c ≠ 0x7C6 ∧ c ≠ 0x800) ∧
    (∃ (s : State) (h : Hw) (p : Nat) (v : Nat) (f : W64 × Hw) (o : HM), h = clearSent s.hw ∧ p ≤ 16 ∧ 2 ^ 48 ≤ v ∧ v < 2 ^ 64 ∧ f =
     takeFree (takeFree h).2 ∧ o = windowPlain (f.2, s.mem) p (strayOff h 0) f.1.toNat .full) ∧
    (∃ (s : State) (h : Hw) (k : Nat), h = clearSent s.hw ∧ 17 < k) ∧
    (∃ (s : State) (h : Hw) (p : Nat) (k : Nat) (x : Knot) (o : Hw), h = clearSent s.hw ∧ x = knotAt h k ∧ knotOwner h k = p ∧ x.poison =
     true ∧ o = recordWrite h { type := 0x0609, part := p, arg0 := k }) ∧
    (∃ (s : State) (h : Hw) (p : Nat) (k : Nat) (x : Knot), h = clearSent s.hw ∧ x = knotAt h k ∧ knotOwner h k = p ∧ x.poison = false ∧
     x.broken = true) ∧
    (∃ (s : State) (h : Hw) (p : Nat) (n : Nat) (f : Nat), h = clearSent s.hw ∧ (hartOwner h n ≠ p ∨ 16 < p ∨ 128 ≤ n ∨ 8 ≤ f)) ∧
    (∃ (s : State) (h : Hw) (f : Nat) (v : Nat), h = clearSent s.hw ∧ (v = 0 ∨ (if f = 0 then 255 else 2047) < v)) ∧
    (∃ (s : State) (h : Hw) (p : Nat) (e : Nat) (v : Nat) (x : Nat), h = clearSent s.hw ∧ p ≤ 16 ∧ e < 4096 ∧ x < 2 ^ 21 ∧ v % 2 ^ 32 = 2 ^
     31 ∧ tabGet 0 h.intTable (4096 * p + e) = BitVec.ofNat 64 (2 ^ 63 + x) ∧ tabGet 0 h.intHalf (4096 * p + e) = 1) ∧
    (∃ (s : State) (h : Hw) (d : Nat) (q : Nat) (v : Nat) (k : Nat), h = clearSent s.hw ∧ d < 2 ∧ 1 ≤ q ∧ q ≤ 64 ∧ v ≤ 16 ∧ k = aplicKey d q
     ∧ tabGet 31 h.edges.irqOwner k ≠ v) ∧
    (∃ (s : State) (h : Hw) (d : Nat) (q : Nat), h = clearSent s.hw ∧ (2 ≤ d ∨ q = 0 ∨ 64 < q)) ∧
    (∃ (s : State) (h : Hw) (p : Nat) (d : Nat) (q : Nat) (k : Nat), h = clearSent s.hw ∧ d < 2 ∧ p ≤ 16 ∧ k = aplicKey d q ∧ tabGet 31
     h.edges.irqOwner k = p) ∧
    (∃ (s : State) (h : Hw) (p : Nat) (d : Nat) (q : Nat) (k : Nat), h = clearSent s.hw ∧ d < 2 ∧ p ≤ 16 ∧ k = aplicKey d q ∧ tabGet 31
     h.edges.irqOwner k ≠ p) ∧
    (∃ (s : State) (h : Hw) (n : Nat) (c : Nat) (o : CsrOp) (k : Nat), h = clearSent s.hw ∧ runs h n = true ∧ csrTrap (hartAt h n) c o =
     some k) ∧
    (∃ (s : State) (h : Hw) (x : Hart) (c : Nat), h = clearSent s.hw ∧ x.mode ≠ 3 ∧ c ∈ [0x7C0, 0x7C1, 0x7C4, 0x7C5, 0x7C6]) ∧
    (∃ (s : State) (h : Hw) (x : Hart) (c : Nat), h = clearSent s.hw ∧ x.mode = 0 ∧ c ∈ [0x5C0, 0x5C1, 0x6C0, 0x6C1, 0xDC0]) ∧
    (∃ (s : State) (h : Hw) (x : Hart) (c : Nat), h = clearSent s.hw ∧ x.mode = 3 ∧ c ∈ [0x7C0, 0x7C1, 0x7C4, 0x7C5, 0x7C6, 0x5C0, 0x5C1,
     0x6C0, 0x6C1, 0x800]) ∧
    (∃ (s : State) (h : Hw) (n : Nat) (c : Nat), h = clearSent s.hw ∧ runs h n = true ∧ csrTrap (hartAt h n) c .read = none ∧ csrFree c =
     false) ∧
    (∃ (s : State) (h : Hw) (c : Nat), h = clearSent s.hw ∧ c ∈ [0x7C4, 0x7C6, 0x800]) ∧
    (∃ (s : State) (h : Hw) (n : Nat) (x : Hart), h = clearSent s.hw ∧ runs h n = true ∧ x = hartAt h n ∧ x.mode = 1 ∧ x.virt = false) ∧
    (∃ (s : State) (h : Hw) (v : Nat), h = clearSent s.hw ∧ 12 < v / 256 % 16) :=
  ⟨⟨(st {}), _, 17, _, rfl, (by decide +kernel), rfl⟩,
   ⟨(st {}), _, 17, 0, _, rfl, (by decide +kernel), rfl, (by decide +kernel)⟩,
   ⟨(st {}), _, 17, 1, _, rfl, (by decide +kernel), rfl, (by decide +kernel)⟩,
   ⟨(st (wk [])), _, 0, 255, 3, _, _, rfl, rfl, (by decide +kernel), (by decide +kernel), (by decide +kernel), rfl⟩,
   ⟨(st (wk [])), _, 1, 255, rfl, (by decide +kernel), (by decide +kernel), (by decide +kernel)⟩,
   ⟨(st { harts := [(0, { run := .running })], sel := { units := [(unitKey 2 0, { owner := 0, state := .owned })] } }), _, 0, 7, 7, rfl,
     (by decide +kernel), (by decide +kernel), (by decide +kernel), (by decide +kernel)⟩,
   ⟨(st {}), _, 127, 0, 255, rfl, (by decide +kernel), (by decide +kernel), (by decide +kernel), (by decide +kernel)⟩,
   ⟨(st {}), _, 16, rfl, (by decide +kernel)⟩,
   ⟨(st {}), _, 16, .full, rfl, (by decide +kernel), (by decide +kernel)⟩,
   ⟨(st {}), _, 16, .full, rfl, (by decide +kernel), (by decide +kernel)⟩,
   ⟨(st {}), _, 16, 8, rfl, (by decide +kernel), (by decide +kernel), (by decide +kernel)⟩,
   ⟨(st (wk [])), _, 5, .lower, 0, rfl, (by decide +kernel), (by decide +kernel), (by decide +kernel), (by decide +kernel)⟩,
   ⟨(st (wk [])), _, 1, 5, rfl, (by decide +kernel), (by decide +kernel), (by decide +kernel)⟩,
   ⟨(st (wk [])), _, 5, 0, rfl, (by decide +kernel), (by decide +kernel), (by decide +kernel)⟩,
   ⟨(st (wk [])), _, 5, 0, rfl, (by decide +kernel), (by decide +kernel), (by decide +kernel)⟩,
   ⟨(st (wk [])), _, 5, 0, rfl, (by decide +kernel), (by decide +kernel), (by decide +kernel)⟩,
   ⟨(st {}), _, 16, 4095, (2 ^ 63 + 2 ^ 21 - 1), rfl, (by decide +kernel), (by decide +kernel), ⟨2 ^ 21 - 1, by decide, .inr rfl⟩⟩,
   ⟨(st { intTable := [(4096 * 16 + 4095, BitVec.ofNat 64 (2 ^ 63))] }), _, 16, 4095, (2 ^ 21 - 1), rfl, (by decide +kernel),
     (by decide +kernel), (by decide +kernel), (by decide +kernel), (by decide +kernel)⟩,
   ⟨(st {}), _, 16, (2 ^ 24), rfl, (by decide +kernel)⟩,
   ⟨(st {}), _, (2 ^ 16 - 1), rfl, (by decide +kernel)⟩,
   ⟨(st {}), _, 0, rfl, (by decide +kernel)⟩,
   ⟨(st { harts := [(0, { run := .running })], sel := { units := [(unitKey 2 0, { owner := 0, state := .owned })] } }), _, 0, _, rfl,
     (by decide +kernel), rfl, (by decide +kernel)⟩,
   ⟨(st { harts := [(0, { run := .running, mode := 1, virt := true })] }), _, 0, _, rfl, (by decide +kernel), rfl, (by decide +kernel),
     (by decide +kernel)⟩,
   ⟨(st {}), _, 8, rfl, (by decide +kernel)⟩,
   ⟨(st {}), _, 16, .full, (2 ^ 32 - 1), rfl, (by decide +kernel), (by decide +kernel)⟩,
   ⟨(st {}), _, 16, 7, rfl, (by decide +kernel), (by decide +kernel), (by decide +kernel)⟩,
   ⟨(st {}), _, 16, rfl, (by decide +kernel), (by decide +kernel)⟩,
   ⟨(st {}), _, 16, 65535, rfl, (by decide +kernel), (by decide +kernel)⟩,
   ⟨(st {}), _, 16, 15, rfl, (by decide +kernel), (by decide +kernel), (by decide +kernel)⟩,
   ⟨(st {}), _, 16, (2 ^ 48 - 1), rfl, (by decide +kernel), (by decide +kernel)⟩,
   ⟨(st {}), _, 16, (2 ^ 32), _, rfl, (by decide +kernel), (by decide +kernel), (by decide +kernel), rfl⟩,
   ⟨(st {}), _, 16, (2 ^ 48), _, _, rfl, (by decide +kernel), (by decide +kernel), (by decide +kernel), rfl, rfl⟩,
   ⟨(st {}), _, 16, 7, (2 ^ 64 - 1), _, _, rfl, (by decide +kernel), (by decide +kernel), (by decide +kernel), rfl, rfl,
     (by decide +kernel)⟩,
   ⟨(st { efano := { boxes := [(16, { rung := some 0 })] } }), _, 16, 7, (2 ^ 64 - 1), _, _, rfl, (by decide +kernel), (by decide +kernel),
     (by decide +kernel), rfl, rfl, (by decide +kernel)⟩,
   ⟨(st (wk [])), _, 0, 5, .lower, 7, rfl, (by decide +kernel), (by decide +kernel), (by decide +kernel), (by decide +kernel),
     (by decide +kernel), (by decide +kernel)⟩,
   ⟨(st (wk [])), _, 0, 5, rfl, (by decide +kernel), (by decide +kernel), (by decide +kernel), (by decide +kernel)⟩,
   ⟨(st (wk [])), _, 0, 5, rfl, (by decide +kernel), (by decide +kernel), (by decide +kernel), (by decide +kernel)⟩,
   ⟨(st {}), _, 0x200FFF, rfl, (by decide +kernel)⟩,
   ⟨(st {}), _, 0, 0x7C5, rfl, (by decide +kernel), (by decide +kernel), (by decide +kernel), (by decide +kernel)⟩,
   ⟨(st {}), _, 16, (2 ^ 48), _, _, rfl, (by decide +kernel), (by decide +kernel), (by decide +kernel), rfl, rfl⟩,
   ⟨(st {}), _, 18, rfl, (by decide +kernel)⟩,
   ⟨(st (wk [] { sync := { knots := [(3, { poison := true })] } })), _, 0, 3, _, _, rfl, rfl, (by decide +kernel), (by decide +kernel), rfl⟩,
   ⟨(st (wk [] { sync := { knots := [(3, { broken := true })] } })), _, 0, 3, _, rfl, rfl, (by decide +kernel), (by decide +kernel),
     (by decide +kernel)⟩,
   ⟨(st (hartHw)), _, 0, 0, 8, rfl, (by decide +kernel)⟩,
   ⟨(st {}), _, 0, 256, rfl, (by decide +kernel)⟩,
   ⟨(st { intTable := [(0, BitVec.ofNat 64 (2 ^ 63 + 5))], intHalf := [(0, 1)] }), _, 0, 0, (2 ^ 31), 5, rfl, (by decide +kernel),
     (by decide +kernel), (by decide +kernel), (by decide +kernel), (by decide +kernel), (by decide +kernel)⟩,
   ⟨(st {}), _, 1, 64, 16, _, rfl, (by decide +kernel), (by decide +kernel), (by decide +kernel), (by decide +kernel), rfl,
     (by decide +kernel)⟩,
   ⟨(st {}), _, 1, 65, rfl, (by decide +kernel)⟩,
   ⟨(st { edges := { irqOwner := [(aplicKey 1 64, 16)] } }), _, 16, 1, 64, _, rfl, (by decide +kernel), (by decide +kernel), rfl,
     (by decide +kernel)⟩,
   ⟨(st {}), _, 16, 1, 64, _, rfl, (by decide +kernel), (by decide +kernel), rfl, (by decide +kernel)⟩,
   ⟨(st (hartHw)), _, 0, 0x7C2, .write, 2, rfl, (by decide +kernel), (by decide +kernel)⟩,
   ⟨(st {}), _, { mode := 1 }, 1990, rfl, (by decide +kernel), (by decide +kernel)⟩,
   ⟨(st {}), _, { mode := 0 }, 1472, rfl, (by decide +kernel), (by decide +kernel)⟩,
   ⟨(st {}), _, {}, 0x800, rfl, (by decide +kernel), (by decide +kernel)⟩,
   ⟨(st (hartHw)), _, 0, 1984, rfl, (by decide +kernel), (by decide +kernel), (by decide +kernel)⟩,
   ⟨(st {}), _, 1988, rfl, (by decide +kernel)⟩,
   ⟨(st (hartHw {} { run := .running, nmie := true, mode := 1 })), _, 0, _, rfl, (by decide +kernel), rfl, (by decide +kernel),
     (by decide +kernel)⟩,
   ⟨(st {}), _, (13 * 256), rfl, (by decide +kernel)⟩⟩

theorem wit_SlipCommandRows :
    (∃ (s : State) (h : Hw) (p : Nat) (i : Nat) (x : Slip) (v : Nat), h = clearSent s.hw ∧ i < 1024 ∧ p ≤ 16 ∧ slipOwner h i = p ∧ x =
     slipAt h i ∧ ((x.head - x.done).toNat ≤ ((BitVec.ofNat 32 v) - x.done).toNat ∧ ((BitVec.ofNat 32 v) - x.done).toNat ≤ 2 ^ x.log2)) ∧
    (∃ (s : State) (h : Hw) (p : Nat) (i : Nat) (x : Slip) (v : Nat), h = clearSent s.hw ∧ i < 1024 ∧ p ≤ 16 ∧ slipOwner h i = p ∧ x =
     slipAt h i ∧ ((((BitVec.ofNat 32 v) - x.done).toNat < (x.head - x.done).toNat ∨ 2 ^ x.log2 < ((BitVec.ofNat 32 v) - x.done).toNat))) ∧
    (∃ (s : State) (h : Hw) (p : Nat) (i : Nat) (x : Slip) (v : Nat), h = clearSent s.hw ∧ i < 1024 ∧ p ≤ 16 ∧ slipOwner h i = p ∧ x =
     slipAt h i ∧ x.st = .disabled ∧ (x.tail - BitVec.ofNat 32 v).toNat ≤ 2 ^ x.log2) ∧
    (∃ (s : State) (h : Hw) (p : Nat) (i : Nat) (x : Slip) (v : Nat), h = clearSent s.hw ∧ i < 1024 ∧ p ≤ 16 ∧ slipOwner h i = p ∧ x =
     slipAt h i ∧ ((x.st ≠ .disabled ∨ 2 ^ x.log2 < (x.tail - BitVec.ofNat 32 v).toNat))) ∧
    (∃ (s : State) (h : Hw) (p : Nat) (i : Nat) (x : Slip) (l : Nat) (b : Nat), h = clearSent s.hw ∧ i < 1024 ∧ p ≤ 16 ∧ slipOwner h i = p ∧
     x = slipAt h i ∧ x.st = .disabled ∧ 4 ≤ l ∧ l ≤ 16 ∧ b < 2 ^ 44 ∧ (x.tail - x.done).toNat ≤ 2 ^ l) ∧
    (∃ (s : State) (h : Hw) (p : Nat) (i : Nat) (x : Slip) (l : Nat) (b : Nat), h = clearSent s.hw ∧ i < 1024 ∧ p ≤ 16 ∧ slipOwner h i = p ∧
     x = slipAt h i ∧ x.st ≠ .disabled ∧ l < 32 ∧ b < 2 ^ 44) ∧
    (∃ (s : State) (h : Hw) (p : Nat) (i : Nat) (x : Slip), h = clearSent s.hw ∧ i < 1024 ∧ p ≤ 16 ∧ slipOwner h i = p ∧ x = slipAt h i ∧
     x.st ≠ .disabled) ∧
    (∃ (s : State) (h : Hw) (p : Nat) (i : Nat) (x : Slip), h = clearSent s.hw ∧ i < 1024 ∧ p ≤ 16 ∧ slipOwner h i = p ∧ x = slipAt h i ∧
     x.st = .running ∧ x.stopping ≠ none) ∧
    (∃ (s : State) (h : Hw) (p : Nat) (i : Nat) (x : Slip), h = clearSent s.hw ∧ i < 1024 ∧ p ≤ 16 ∧ slipOwner h i = p ∧ x = slipAt h i ∧
     ((x.st = .disabled ∨ x.st = .disabling ∨ x.st = .fenced))) ∧
    (∃ (s : State) (h : Hw) (p : Nat) (i : Nat) (x : Slip), h = clearSent s.hw ∧ i < 1024 ∧ p ≤ 16 ∧ slipOwner h i = p ∧ x = slipAt h i ∧
     x.st ≠ .stopped) ∧
    (∃ (s : State) (h : Hw) (i : Nat) (x : Slip), h = clearSent s.hw ∧ x = slipAt h i ∧ x.st = .disabling ∧ x.descs.any inFlight = false) ∧
    (∃ (s : State) (h : Hw) (i : Nat) (x : Slip), h = clearSent s.hw ∧ x = slipAt h i ∧ ((x.st ≠ .disabling ∨ x.descs.any inFlight = true))) ∧
    (∃ (s : State) (h : Hw) (p : Nat) (v : Nat → Hw), h = clearSent s.hw ∧ (v = (fun i =>
     { h with eng := { h.eng with epochs := tabPut 0 h.eng.epochs (81 * p + i) (epochAt h p i + 1) } })) ∧ p ≤ 16 ∧ epochAt h p 0 ≠
     0xFFFFFFFF#32) ∧
    (∃ (s : State) (h : Hw) (p : Nat) (e : Nat) (v : Nat → Hw), h = clearSent s.hw ∧ (v = (fun i =>
     { h with eng := { h.eng with epochs := tabPut 0 h.eng.epochs (81 * p + i) (epochAt h p i + 1) } })) ∧ p ≤ 16 ∧ epochAt h p (1 + e % 64)
     ≠ 0xFFFFFFFF#32) ∧
    (∃ (s : State) (h : Hw) (p : Nat) (e : Nat) (v : Nat → Hw), h = clearSent s.hw ∧ (v = (fun i =>
     { h with eng := { h.eng with epochs := tabPut 0 h.eng.epochs (81 * p + i) (epochAt h p i + 1) } })) ∧ p ≤ 16 ∧ epochAt h p (65 + e %
     16) ≠ 0xFFFFFFFF#32) ∧
    (∃ (s : State) (h : Hw) (i : Nat) (q : BitVec 32) (d : Desc), h = clearSent s.hw ∧ findDesc (slipAt h i) q = some d ∧ d.pauseReq = true
     ∧ d.phase = .dispatched) ∧
    (∃ (s : State) (h : Hw) (i : Nat) (q : BitVec 32) (d : Desc), h = clearSent s.hw ∧ findDesc (slipAt h i) q = some d ∧ ((d.pauseReq =
     false ∨ d.phase ≠ .dispatched))) ∧
    (∃ (s : State) (h : Hw) (n : Nat), h = clearSent s.hw ∧ n < 128 ∧ hartOwner h n ≤ 16 ∧ invalidated h (hartOwner h n) = false) ∧
    (∃ (s : State) (h : Hw) (p : Nat) (i : Nat) (x : Slip), h = clearSent s.hw ∧ i < 1024 ∧ p ≤ 16 ∧ slipOwner h i = p ∧ x = slipAt h i ∧
     x.st = .disabled ∧ (unitHolder h 4 x.group ≠ p ∨ groupDie x.group ≠ slipDie i)) ∧
    (∃ (s : State) (h : Hw) (p : Nat) (i : Nat) (x : Slip), h = clearSent s.hw ∧ i < 1024 ∧ p ≤ 16 ∧ slipOwner h i = p ∧ x = slipAt h i ∧
     x.st = .disabled ∧ unitHolder h 4 x.group = p ∧ groupDie x.group = slipDie i ∧ unitFenced h 4 x.group = true) ∧
    (∃ (s : State) (h : Hw) (p : Nat) (i : Nat) (x : Slip), h = clearSent s.hw ∧ i < 1024 ∧ p ≤ 16 ∧ slipOwner h i = p ∧ x = slipAt h i ∧
     x.st = .disabled ∧ unitHolder h 4 x.group = p ∧ groupDie x.group = slipDie i ∧ unitFenced h 4 x.group = false ∧ 32 ≤ (ferrySlips h (8 *
     x.group + x.ferry)).length) ∧
    (∃ (s : State) (h : Hw) (p : Nat) (i : Nat) (x : Slip), h = clearSent s.hw ∧ i < 1024 ∧ p ≤ 16 ∧ slipOwner h i = p ∧ x = slipAt h i ∧
     x.st = .disabled ∧ unitHolder h 4 x.group = p ∧ groupDie x.group = slipDie i ∧ unitFenced h 4 x.group = false ∧ (ferrySlips h (8 *
     x.group + x.ferry)).length < 32) ∧
    (∃ (s : State) (h : Hw) (p : Nat) (i : Nat) (x : Slip), h = clearSent s.hw ∧ i < 1024 ∧ p ≤ 16 ∧ slipOwner h i = p ∧ x = slipAt h i ∧
     (x.st = .running ∧ x.stopping = none ∨ x.st = .stopped)) ∧
    (∃ (s : State) (h : Hw) (p : Nat) (i : Nat) (x : Slip), h = clearSent s.hw ∧ i < 1024 ∧ p ≤ 16 ∧ slipOwner h i = p ∧ x = slipAt h i ∧
     x.st = .stopped ∧ unitHolder h 4 x.group ≠ p) ∧
    (∃ (s : State) (h : Hw) (p : Nat) (i : Nat) (x : Slip) (e : W32), h = clearSent s.hw ∧ i < 1024 ∧ p ≤ 16 ∧ slipOwner h i = p ∧ x =
     slipAt h i ∧ x.st = .stopped ∧ unitHolder h 4 x.group = p ∧ e = skipPast x.skip.length (x.stopSeq + 1) x.skip) ∧
    (∃ (s : State) (h : Hw) (p : Nat) (i : Nat) (x : Slip) (e : W32), h = clearSent s.hw ∧ i < 1024 ∧ p ≤ 16 ∧ slipOwner h i = p ∧ x =
     slipAt h i ∧ x.st = .stopped ∧ e = skipPast x.skip.length (x.stopSeq + 1) x.skip ∧ x.stopSeq + 1 ∉ x.skip) ∧
    (∃ (s : State) (h : Hw) (p : Nat) (i : Nat) (x : Slip) (l : Nat) (b : Nat), h = clearSent s.hw ∧ i < 1024 ∧ p ≤ 16 ∧ slipOwner h i = p ∧
     x = slipAt h i ∧ x.st = .disabled ∧ l < 32 ∧ b < 2 ^ 44 ∧ (l < 4 ∨ 16 < l) ∧ (x.tail - x.done).toNat ≤ 2 ^ x.log2) ∧
    (∃ (s : State) (h : Hw) (p : Nat) (i : Nat) (x : Slip) (l : Nat) (b : Nat), h = clearSent s.hw ∧ i < 1024 ∧ p ≤ 16 ∧ slipOwner h i = p ∧
     x = slipAt h i ∧ x.st = .disabled ∧ 4 ≤ l ∧ l ≤ 16 ∧ b < 2 ^ 44 ∧ 2 ^ l < (x.tail - x.done).toNat) ∧
    (∃ (s : State) (h : Hw) (v : W32) (k : List W32), h = clearSent s.hw ∧ v ∈ k) ∧
    (∃ (s : State) (h : Hw) (p : Nat) (i : Nat), h = clearSent s.hw ∧ (slipOwner h i ≠ p ∨ 1024 ≤ i ∨ 16 < p)) ∧
    (∃ (s : State) (h : Hw) (p : Nat) (v : Hw) (i : Nat) (l : Tab (Option Leaf)) (o : Hw), h = clearSent s.hw ∧ v =
     { h with eng := { h.eng with epochs := tabPut 0 h.eng.epochs (81 * p + i) 0, leaves := l } } ∧ p ≤ 16 ∧ epochAt h p i = 0xFFFFFFFF#32 ∧
     l = tabClear h.eng.leaves (fun k => decide ((unitAt h 4 (k % 64)).owner = p)) ∧ o = (v.eng.slips.filter (fun y => slipOwner v y.1 =
     p)).foldl (fun g y => y.2.descs.foldl (fun g d => staleDesc g y.1 d) g) v ∧ i = 0) ∧
    (∃ (s : State) (h : Hw) (p : Nat) (e : Nat) (v : Hw) (i : Nat) (l : Tab (Option Leaf)) (o : Hw), h = clearSent s.hw ∧ v =
     { h with eng := { h.eng with epochs := tabPut 0 h.eng.epochs (81 * p + i) 0, leaves := l } } ∧ p ≤ 16 ∧ epochAt h p i = 0xFFFFFFFF#32 ∧
     l = tabClear h.eng.leaves (fun k => decide ((unitAt h 4 (k % 64)).owner = p)) ∧ o = (v.eng.slips.filter (fun y => slipOwner v y.1 =
     p)).foldl (fun g y => y.2.descs.foldl (fun g d => staleDesc g y.1 d) g) v ∧ i = 1 + e % 64) ∧
    (∃ (s : State) (h : Hw) (p : Nat) (e : Nat) (v : Hw) (i : Nat) (l : Tab (Option Leaf)) (o : Hw), h = clearSent s.hw ∧ v =
     { h with eng := { h.eng with epochs := tabPut 0 h.eng.epochs (81 * p + i) 0, leaves := l } } ∧ p ≤ 16 ∧ epochAt h p i = 0xFFFFFFFF#32 ∧
     l = tabClear h.eng.leaves (fun k => decide ((unitAt h 4 (k % 64)).owner = p)) ∧ o = (v.eng.slips.filter (fun y => slipOwner v y.1 =
     p)).foldl (fun g y => y.2.descs.foldl (fun g d => staleDesc g y.1 d) g) v ∧ i = 65 + e % 16) ∧
    (∃ (s : State) (h : Hw) (p : Nat), h = clearSent s.hw ∧ 16 < p) ∧
    (∃ (s : State) (h : Hw) (i : Nat) (q : W32), h = clearSent s.hw ∧ findDesc (slipAt h i) q = none) ∧
    (∃ (s : State) (h : Hw) (n : Nat) (x : Hart), h = clearSent s.hw ∧ x = hartAt h n ∧ n < 128 ∧ hartOwner h n ≤ 16 ∧ invalidated h
     (hartOwner h n) = true ∧ x.sb = [] ∧ actorPending h (.hart n) = false) :=
  ⟨⟨(st (wk [])), _, 0, 5, _, 16, rfl, (by decide +kernel), (by decide +kernel), (by decide +kernel), rfl, (by decide +kernel)⟩,
   ⟨(st (wk [])), _, 0, 5, _, 17, rfl, (by decide +kernel), (by decide +kernel), (by decide +kernel), rfl, (by decide +kernel)⟩,
   ⟨(st (wk [] {} {})), _, 0, 5, _, 0, rfl, (by decide +kernel), (by decide +kernel), (by decide +kernel), rfl, (by decide +kernel),
     (by decide +kernel)⟩,
   ⟨(st (wk [])), _, 0, 5, _, 0, rfl, (by decide +kernel), (by decide +kernel), (by decide +kernel), rfl, (by decide +kernel)⟩,
   ⟨(st (wk [] {} {})), _, 0, 5, _, 16, (2 ^ 44 - 1), rfl, (by decide +kernel), (by decide +kernel), (by decide +kernel), rfl,
     (by decide +kernel), (by decide +kernel), (by decide +kernel), (by decide +kernel), (by decide +kernel)⟩,
   ⟨(st (wk [])), _, 0, 5, _, 31, (2 ^ 44 - 1), rfl, (by decide +kernel), (by decide +kernel), (by decide +kernel), rfl,
     (by decide +kernel), (by decide +kernel), (by decide +kernel)⟩,
   ⟨(st (wk [])), _, 0, 5, _, rfl, (by decide +kernel), (by decide +kernel), (by decide +kernel), rfl, (by decide +kernel)⟩,
   ⟨(st (wk [] {} { st := .running, stopping := some 3 })), _, 0, 5, _, rfl, (by decide +kernel), (by decide +kernel), (by decide +kernel),
     rfl, (by decide +kernel), (by decide +kernel)⟩,
   ⟨(st (wk [] {} {})), _, 0, 5, _, rfl, (by decide +kernel), (by decide +kernel), (by decide +kernel), rfl, (by decide +kernel)⟩,
   ⟨(st (wk [])), _, 0, 5, _, rfl, (by decide +kernel), (by decide +kernel), (by decide +kernel), rfl, (by decide +kernel)⟩,
   ⟨(st (wk [] {} { st := .disabling })), _, 5, _, rfl, rfl, (by decide +kernel), (by decide +kernel)⟩,
   ⟨(st (wk [])), _, 5, _, rfl, rfl, (by decide +kernel)⟩,
   ⟨(st {}), _, 16, _, rfl, rfl, (by decide +kernel), (by decide +kernel)⟩,
   ⟨(st {}), _, 16, 63, _, rfl, rfl, (by decide +kernel), (by decide +kernel)⟩,
   ⟨(st {}), _, 16, 15, _, rfl, rfl, (by decide +kernel), (by decide +kernel)⟩,
   ⟨(st (wk [{ at3 [] with pauseReq := true }])), _, 5, 3, _, rfl, rfl, (by decide +kernel), (by decide +kernel)⟩,
   ⟨(st (wk [at3 []])), _, 5, 3, _, rfl, rfl, (by decide +kernel)⟩,
   ⟨(st (wk [{ at3 [] with pauseReq := true }] {} { st := .running })), _, 7, rfl, (by decide +kernel), (by decide +kernel),
     (by decide +kernel)⟩,
   ⟨(st (wk [] {} { group := 8 })), _, 0, 5, _, rfl, (by decide +kernel), (by decide +kernel), (by decide +kernel), rfl,
     (by decide +kernel), (by decide +kernel)⟩,
   ⟨(st (wk [] { faults := { fences := [{ scope := .partition, part := 0 }] } } {})), _, 0, 5, _, rfl, (by decide +kernel),
     (by decide +kernel), (by decide +kernel), rfl, (by decide +kernel), (by decide +kernel), (by decide +kernel), (by decide +kernel)⟩,
   ⟨(st { (wk [] {} {}) with eng := { slips := (5, {}) :: (List.range 32).map (fun k => (6 + k, { st := .running })) } }), _, 0, 5, _, rfl,
     (by decide +kernel), (by decide +kernel), (by decide +kernel), rfl, (by decide +kernel), (by decide +kernel), (by decide +kernel),
     (by decide +kernel), (by decide +kernel)⟩,
   ⟨(st (wk [] {} {})), _, 0, 5, _, rfl, (by decide +kernel), (by decide +kernel), (by decide +kernel), rfl, (by decide +kernel),
     (by decide +kernel), (by decide +kernel), (by decide +kernel), (by decide +kernel)⟩,
   ⟨(st (wk [] {} { st := .stopped })), _, 0, 5, _, rfl, (by decide +kernel), (by decide +kernel), (by decide +kernel), rfl,
     (by decide +kernel)⟩,
   ⟨(st (wk [] {} { st := .stopped, group := 8 })), _, 0, 5, _, rfl, (by decide +kernel), (by decide +kernel), (by decide +kernel), rfl,
     (by decide +kernel), (by decide +kernel)⟩,
   ⟨(st (wk [] {} { st := .stopped, stopSeq := 3, skip := [4] })), _, 0, 5, _, _, rfl, (by decide +kernel), (by decide +kernel),
     (by decide +kernel), rfl, (by decide +kernel), (by decide +kernel), rfl⟩,
   ⟨(st (wk [] {} { st := .stopped })), _, 0, 5, _, _, rfl, (by decide +kernel), (by decide +kernel), (by decide +kernel), rfl,
     (by decide +kernel), rfl, (by decide +kernel)⟩,
   ⟨(st (wk [] {} {})), _, 0, 5, _, 31, (2 ^ 44 - 1), rfl, (by decide +kernel), (by decide +kernel), (by decide +kernel), rfl,
     (by decide +kernel), (by decide +kernel), (by decide +kernel), (by decide +kernel), (by decide +kernel)⟩,
   ⟨(st (wk [] {} { log2 := 16, tail := 17 })), _, 0, 5, _, 4, (2 ^ 44 - 1), rfl, (by decide +kernel), (by decide +kernel),
     (by decide +kernel), rfl, (by decide +kernel), (by decide +kernel), (by decide +kernel), (by decide +kernel), (by decide +kernel)⟩,
   ⟨(st {}), _, 4, [4], rfl, (by decide +kernel)⟩,
   ⟨(st (wk [])), _, 1, 5, rfl, (by decide +kernel)⟩,
   ⟨(st
     { eng := { epochs := [(0, 4294967295)], slips := [(5, { descs := [at3 []] })] }, sel := { units := [(unitKey 5 5, { owner := 0, state := .owned })] } }),
     _, 0, _, 0, _, _, rfl, rfl, (by decide +kernel), (by decide +kernel), rfl, rfl, rfl⟩,
   ⟨(st
     { eng := { epochs := [(64, 4294967295)], slips := [(5, { descs := [at3 []] })] }, sel := { units := [(unitKey 5 5, { owner := 0, state := .owned })] } }),
     _, 0, 63, _, 64, _, _, rfl, rfl, (by decide +kernel), (by decide +kernel), rfl, rfl, rfl⟩,
   ⟨(st
     { eng := { epochs := [(80, 4294967295)], slips := [(5, { descs := [at3 []] })] }, sel := { units := [(unitKey 5 5, { owner := 0, state := .owned })] } }),
     _, 0, 15, _, 80, _, _, rfl, rfl, (by decide +kernel), (by decide +kernel), rfl, rfl, rfl⟩,
   ⟨(st {}), _, 17, rfl, (by decide +kernel)⟩,
   ⟨(st (wk [])), _, 5, 3, rfl, (by decide +kernel)⟩,
   ⟨(st (hartHw)), _, 0, _, rfl, rfl, (by decide +kernel), (by decide +kernel), (by decide +kernel), (by decide +kernel),
     (by decide +kernel)⟩⟩

theorem wit_FerryFrontRows :
    (∃ (s : State) (h : Hw) (i : Nat) (x : Slip) (a : Nat), h = clearSent s.hw ∧ x = slipAt h i ∧ a = x.ring + 128 * (x.head.toNat % 2 ^
     x.log2) ∧ isLocal h a = true ∧ x.head ∉ x.skip) ∧
    (∃ (s : State) (h : Hw) (i : Nat), h = clearSent s.hw ∧ (slipAt h i).descs.find? (fun d => d.phase = .fetched) = none) ∧
    (∃ (s : State) (h : Hw) (i : Nat) (x : Slip) (d : Desc) (a : Nat) (g : Hw), h = clearSent s.hw ∧ x = slipAt h i ∧ x.descs.find? (fun d
     => d.phase = .fetched) = some d ∧ a = lineOf (compactLocal (x.ring + 128 * (d.seq.toNat % 2 ^ x.log2))) ∧ g = freeRing (freeRing h
     x.group a) x.group (a + 1) ∧ d.ringBad = 0 ∧ knownOp (opcode d) = false) ∧
    (∃ (s : State) (h : Hw) (i : Nat) (x : Slip) (d : Desc) (a : Nat) (g : Hw), h = clearSent s.hw ∧ x = slipAt h i ∧ x.descs.find? (fun d
     => d.phase = .fetched) = some d ∧ a = lineOf (compactLocal (x.ring + 128 * (d.seq.toNat % 2 ^ x.log2))) ∧ g = freeRing (freeRing h
     x.group a) x.group (a + 1) ∧ d.ringBad = 0 ∧ knownOp (opcode d) = true ∧ 4 ≤ slipDie i ∧ cDieOp (opcode d) = false) ∧
    (∃ (s : State) (h : Hw) (v : Hw) (g : Nat) (k : Lookup) (d : Desc) (f : FrontEnd), h = clearSent s.hw ∧ lookupDesc v k = some d ∧ f =
     frontAt v g ∧ f.stopped = [] ∧ leafHit v k.slip d k.buf = none ∧ f.miss = none) ∧
    (∃ (s : State) (h : Hw) (v : Hw) (g : Nat) (k : Lookup) (d : Desc) (f : FrontEnd), h = clearSent s.hw ∧ lookupDesc v k = some d ∧ f =
     frontAt v g ∧ f.stopped = [] ∧ leafHit v k.slip d k.buf = none ∧ f.miss ≠ none) ∧
    (∃ (s : State) (h : Hw) (v : Hw) (g : Nat) (k : Lookup) (d : Desc) (f : FrontEnd), h = clearSent s.hw ∧ lookupDesc v k = some d ∧ f =
     frontAt v g ∧ f.stopped ≠ []) ∧
    (∃ (s : State) (h : Hw) (g : Nat) (u : Upset) (v : Hw) (q : WalkReq) (o : HM), h = clearSent s.hw ∧ unitFenced h 4 g = false ∧ v =
     resumeLookups h g ∧ firstRequest (walkRequests v g) = some q ∧ (∀ e, e ∈ o.1.eng.slips → ∀ d, d ∈ e.2.descs → d.scratch ≠ 1) ∧ NoWait
     o.1 ∧ q.miss = none ∧ o = walkOne (v, s.mem) q.slip q.desc u) ∧
    (∃ (s : State) (h : Hw) (g : Nat) (u : Upset) (v : Hw) (q : WalkReq) (o : HM) (b : Nat), h = clearSent s.hw ∧ unitFenced h 4 g = false ∧
     v = resumeLookups h g ∧ firstRequest (walkRequests v g) = some q ∧ (∀ e, e ∈ o.1.eng.slips → ∀ d, d ∈ e.2.descs → d.scratch ≠ 1) ∧
     NoWait o.1 ∧ q.miss = some b ∧ o = walkMiss (v, s.mem) g q.slip q.desc b u) ∧
    (∃ (s : State) (h : Hw) (i : Nat) (d : Desc) (w : Bool) (va : Nat) (n : Nat), h = clearSent s.hw ∧ (slipAt h i).mode = 0 ∧ (slipAt h
     i).gmode = 0 ∧ buffersOf d = [(va, n, w)] ∧ 0 < n ∧ va + n ≤ 2 ^ 56 ∧ d.walk.buf = 0 ∧ d.walk.off = 0 ∧ d.walk.exts = [] ∧ d.walk.fault
     = none ∧ d.walk.kept = [] ∧ h.eng.kept = [] ∧ d.begun = false ∧ stale h (slipOwner h i) d = false ∧ (addRun 40 [] 0 0 n va w)[16]? =
     none) ∧
    (∃ (s : State) (h : Hw) (f : Nat) (i : Nat) (a : Arbiter) (d : Desc) (g : Hw), h = clearSent s.hw ∧ choose h (tabGet {} h.eng.dispArb f)
     ((ferrySlips h f).filter (dispatchable h)) = some (i, a) ∧ nextDispatch (slipAt h i) = some d ∧ g =
     { h with eng := { h.eng with dispArb := tabPut {} h.eng.dispArb f a } } ∧ stale h (slipOwner h i) d = true ∧ buffersOf d ≠ []) ∧
    (∃ (s : State) (h : Hw) (f : Nat) (i : Nat) (a : Arbiter) (d : Desc) (g : Hw), h = clearSent s.hw ∧ choose h (tabGet {} h.eng.dispArb f)
     ((ferrySlips h f).filter (dispatchable h)) = some (i, a) ∧ nextDispatch (slipAt h i) = some d ∧ g =
     { h with eng := { h.eng with dispArb := tabPut {} h.eng.dispArb f a } } ∧ (stale h (slipOwner h i) d = false ∨ buffersOf d = []) ∧
     engineCheck h i d ≠ 0) ∧
    (∃ (s : State) (h : Hw) (f : Nat) (i : Nat) (a : Arbiter) (d : Desc) (g : Hw), h = clearSent s.hw ∧ choose h (tabGet {} h.eng.dispArb f)
     ((ferrySlips h f).filter (dispatchable h)) = some (i, a) ∧ nextDispatch (slipAt h i) = some d ∧ g =
     { h with eng := { h.eng with dispArb := tabPut {} h.eng.dispArb f a } } ∧ (stale h (slipOwner h i) d = false ∨ buffersOf d = []) ∧
     engineCheck h i d = 0) ∧
    (∃ (s : State) (h : Hw) (f : Nat), h = clearSent s.hw ∧ choose h (tabGet {} h.eng.fetchArb f) ((ferrySlips h f).filter (fetchable h)) =
     none) ∧
    (∃ (s : State) (h : Hw) (f : Nat) (i : Nat) (a : Arbiter), h = clearSent s.hw ∧ choose h (tabGet {} h.eng.fetchArb f) ((ferrySlips h
     f).filter (fetchable h)) = some (i, a)) ∧
    (∃ (s : State) (h : Hw) (i : Nat) (x : Slip) (d : Desc) (ca : Nat) (a : Nat) (g : Hw), h = clearSent s.hw ∧ x = slipAt h i ∧
     x.descs.find? (fun d => d.phase = .fetched) = some d ∧ ca = x.ring + 128 * (d.seq.toNat % 2 ^ x.log2) ∧ a = lineOf (compactLocal ca) ∧
     g = freeRing (freeRing h x.group a) x.group (a + 1) ∧ d.ringBad = 1) ∧
    (∃ (s : State) (h : Hw) (i : Nat) (x : Slip) (d : Desc) (ca : Nat) (a : Nat) (g : Hw), h = clearSent s.hw ∧ x = slipAt h i ∧
     x.descs.find? (fun d => d.phase = .fetched) = some d ∧ ca = x.ring + 128 * (d.seq.toNat % 2 ^ x.log2) ∧ a = lineOf (compactLocal ca) ∧
     g = freeRing (freeRing h x.group a) x.group (a + 1) ∧ d.ringBad = 2) ∧
    (∃ (s : State) (h : Hw) (i : Nat) (x : Slip) (d : Desc) (ca : Nat) (a : Nat) (g : Hw), h = clearSent s.hw ∧ x = slipAt h i ∧
     x.descs.find? (fun d => d.phase = .fetched) = some d ∧ ca = x.ring + 128 * (d.seq.toNat % 2 ^ x.log2) ∧ a = lineOf (compactLocal ca) ∧
     g = freeRing (freeRing h x.group a) x.group (a + 1) ∧ d.ringBad = 3 ∧ isLocal h ca = true) ∧
    (∃ (s : State) (h : Hw) (i : Nat) (x : Slip) (d : Desc) (ca : Nat) (a : Nat) (g : Hw), h = clearSent s.hw ∧ x = slipAt h i ∧
     x.descs.find? (fun d => d.phase = .fetched) = some d ∧ ca = x.ring + 128 * (d.seq.toNat % 2 ^ x.log2) ∧ a = lineOf (compactLocal ca) ∧
     g = freeRing (freeRing h x.group a) x.group (a + 1) ∧ d.ringBad = 3 ∧ isLocal h ca = false) ∧
    (∃ (s : State) (h : Hw) (i : Nat) (x : Slip) (d : Desc) (ca : Nat) (a : Nat) (g : Hw), h = clearSent s.hw ∧ x = slipAt h i ∧
     x.descs.find? (fun d => d.phase = .fetched) = some d ∧ ca = x.ring + 128 * (d.seq.toNat % 2 ^ x.log2) ∧ a = lineOf (compactLocal ca) ∧
     g = freeRing (freeRing h x.group a) x.group (a + 1) ∧ 4 ≤ d.ringBad) ∧
    (∃ (s : State) (h : Hw) (i : Nat) (x : Slip) (d : Desc) (ca : Nat) (a : Nat) (g : Hw), h = clearSent s.hw ∧ x = slipAt h i ∧
     x.descs.find? (fun d => d.phase = .fetched) = some d ∧ ca = x.ring + 128 * (d.seq.toNat % 2 ^ x.log2) ∧ a = lineOf (compactLocal ca) ∧
     g = freeRing (freeRing h x.group a) x.group (a + 1) ∧ d.ringBad = 0 ∧ stagingHalt i d ≠ 0) ∧
    (∃ (s : State) (h : Hw) (i : Nat) (x : Slip) (d : Desc) (ca : Nat) (a : Nat) (g : Hw), h = clearSent s.hw ∧ x = slipAt h i ∧
     x.descs.find? (fun d => d.phase = .fetched) = some d ∧ ca = x.ring + 128 * (d.seq.toNat % 2 ^ x.log2) ∧ a = lineOf (compactLocal ca) ∧
     g = freeRing (freeRing h x.group a) x.group (a + 1) ∧ d.ringBad = 0 ∧ stagingHalt i d = 0 ∧ reservedSet d.bytes = false ∧ buffersOf d =
     []) ∧
    (∃ (s : State) (h : Hw) (i : Nat) (x : Slip) (d : Desc) (ca : Nat) (a : Nat) (g : Hw) (b : Nat × Nat × Bool) (bs : List (Nat × Nat ×
     Bool)), h = clearSent s.hw ∧ x = slipAt h i ∧ x.descs.find? (fun d => d.phase = .fetched) = some d ∧ ca = x.ring + 128 * (d.seq.toNat %
     2 ^ x.log2) ∧ a = lineOf (compactLocal ca) ∧ g = freeRing (freeRing h x.group a) x.group (a + 1) ∧ d.ringBad = 0 ∧ stagingHalt i d = 0
     ∧ reservedSet d.bytes = false ∧ buffersOf d = b :: bs ∧ (x.mode ∉ [0, 9, 10] ∨ x.gmode ∉ [0, 9, 10])) ∧
    (∃ (s : State) (h : Hw) (i : Nat) (x : Slip) (d : Desc) (ca : Nat) (a : Nat) (g : Hw) (b : Nat × Nat × Bool) (bs : List (Nat × Nat ×
     Bool)), h = clearSent s.hw ∧ x = slipAt h i ∧ x.descs.find? (fun d => d.phase = .fetched) = some d ∧ ca = x.ring + 128 * (d.seq.toNat %
     2 ^ x.log2) ∧ a = lineOf (compactLocal ca) ∧ g = freeRing (freeRing h x.group a) x.group (a + 1) ∧ d.ringBad = 0 ∧ stagingHalt i d = 0
     ∧ reservedSet d.bytes = false ∧ buffersOf d = b :: bs ∧ x.mode ∈ [0, 9, 10] ∧ x.gmode ∈ [0, 9, 10] ∧ (x.mode ≠ 0 ∨ x.gmode ≠ 0)) ∧
    (∃ (s : State) (h : Hw) (i : Nat) (x : Slip) (d : Desc) (ca : Nat) (a : Nat) (g : Hw) (b : Nat × Nat × Bool) (bs : List (Nat × Nat ×
     Bool)), h = clearSent s.hw ∧ x = slipAt h i ∧ x.descs.find? (fun d => d.phase = .fetched) = some d ∧ ca = x.ring + 128 * (d.seq.toNat %
     2 ^ x.log2) ∧ a = lineOf (compactLocal ca) ∧ g = freeRing (freeRing h x.group a) x.group (a + 1) ∧ d.ringBad = 0 ∧ stagingHalt i d = 0
     ∧ reservedSet d.bytes = false ∧ buffersOf d = b :: bs ∧ x.mode ∈ [0, 9, 10] ∧ x.gmode ∈ [0, 9, 10] ∧ x.mode = 0 ∧ x.gmode = 0) ∧
    (∃ (s : State) (h : Hw) (i : Nat) (x : Slip) (d : Desc) (ca : Nat) (a : Nat) (g : Hw) (r : Hw × Desc), h = clearSent s.hw ∧ x = slipAt h
     i ∧ x.descs.find? (fun d => d.phase = .fetched) = some d ∧ ca = x.ring + 128 * (d.seq.toNat % 2 ^ x.log2) ∧ a = lineOf (compactLocal
     ca) ∧ g = freeRing (freeRing h x.group a) x.group (a + 1) ∧ d.ringBad = 0 ∧ stagingHalt i d = 0 ∧ reservedSet d.bytes = true ∧ r =
     strangeDesc g d) ∧
    (∃ (s : State) (h : Hw) (i : Nat) (d : Desc), h = clearSent s.hw ∧ knownOp (opcode d) = true ∧ (slipDie i < 4 ∨ cDieOp (opcode d) =
     true) ∧ bitOf (leAt d.bytes 1 1) 1 = true ∧ refBad (leAt d.bytes 8 4) = true) ∧
    (∃ (s : State) (h : Hw) (i : Nat) (d : Desc), h = clearSent s.hw ∧ knownOp (opcode d) = true ∧ (slipDie i < 4 ∨ cDieOp (opcode d) =
     true) ∧ (bitOf (leAt d.bytes 1 1) 1 = false ∨ refBad (leAt d.bytes 8 4) = false)) ∧
    (∃ (s : State) (h : Hw) (g : Nat) (u : Upset) (v : Hw) (q : WalkReq) (o : HM) (r : HM), h = clearSent s.hw ∧ unitFenced h 4 g = false ∧
     v = resumeLookups h g ∧ firstRequest (walkRequests v g) = some q ∧ o =
     (match q.miss with | none => walkOne (v, s.mem) q.slip q.desc u | some b => walkMiss (v, s.mem) g q.slip q.desc b u) ∧ r = releaseTaken
     o g (fun d => decide (d.phase = .ended) && decide (0 < d.reason ∧ d.reason < 0x20)) ∧ NoWait r.1) ∧
    (∃ (s : State) (h : Hw) (g : Nat) (r : HM), h = clearSent s.hw ∧ unitFenced h 4 g = true ∧ r = releaseTaken (h, s.mem) g (fun d =>
     decide (d.phase = .ended) && decide (0 < d.reason ∧ d.reason < 0x20)) ∧ NoWait r.1) ∧
    (∃ (s : State) (h : Hw) (g : Nat) (v : Hw) (r : HM), h = clearSent s.hw ∧ unitFenced h 4 g = false ∧ v = resumeLookups h g ∧
     firstRequest (walkRequests v g) = none ∧ r = releaseTaken (v, s.mem) g (fun d => decide (d.phase = .ended) && decide (0 < d.reason ∧
     d.reason < 0x20)) ∧ NoWait r.1) ∧
    (∃ (s : State) (h : Hw) (f : Nat), h = clearSent s.hw ∧ choose h (tabGet {} h.eng.dispArb f) ((ferrySlips h f).filter (dispatchable h))
     = none) ∧
    (∃ (s : State) (h : Hw) (i : Nat) (x : Slip) (t : Hw × Memory), h = clearSent s.hw ∧ x = slipAt h i ∧ nextRecord x = none ∧ t =
     (slipDisabled (finishStop (setSlip h i (passFinal x.descs.length x)) i) i, s.mem) ∧ NoWait (settle t).1) ∧
    (∃ (s : State) (h : Hw) (i : Nat) (x : Slip) (d : Desc), h = clearSent s.hw ∧ x = slipAt h i ∧ nextRecord x = some d ∧ slipPending h i
     d.seq = true ∧ NoWait (settle (h, s.mem)).1) ∧
    (∃ (s : State) (h : Hw) (i : Nat) (x : Slip) (d : Desc) (b : List Byte) (ca : Nat) (o : HM) (q : HM) (t : Hw × Memory), h = clearSent
     s.hw ∧ x = slipAt h i ∧ nextRecord x = some d ∧ b = recordBytes x d (stops d.status d.reason && decide (x.st ≠ .fenced)) ∧ ca =
     recordAddr x d.seq ∧ isLocal h ca = true ∧ slipPending h i d.seq = false ∧ engineWrite (h, s.mem) (slipOwner h i) (ca + 8) (b.drop 8)
     false = (o, .ok) ∧ engineWrite o (slipOwner h i) ca (b.take 8) false = (q, .ok) ∧ stops d.status d.reason = true ∧ x.st ≠ .fenced ∧ t =
     (slipDisabled (finishStop (setSlip q.1 i (setDesc (slipAt q.1 i) { d with phase := .recorded })) i) i, q.2) ∧ NoWait (settle t).1) ∧
    (∃ (s : State) (h : Hw) (i : Nat) (x : Slip) (d : Desc) (b : List Byte) (ca : Nat) (o : HM) (q : HM) (g : Hw) (y : Slip) (t : Hw ×
     Memory), h = clearSent s.hw ∧ x = slipAt h i ∧ nextRecord x = some d ∧ b = recordBytes x d (stops d.status d.reason && decide (x.st ≠
     .fenced)) ∧ ca = recordAddr x d.seq ∧ isLocal h ca = true ∧ slipPending h i d.seq = false ∧ engineWrite (h, s.mem) (slipOwner h i) (ca
     + 8) (b.drop 8) false = (o, .ok) ∧ engineWrite o (slipOwner h i) ca (b.take 8) false = (q, .ok) ∧ (stops d.status d.reason = false ∨
     x.st = .fenced) ∧ g = afterFinal (setSlip q.1 i (setDesc (slipAt q.1 i) { d with phase := .final })) i d ∧ y = passFinal (slipAt g
     i).descs.length (slipAt g i) ∧ t = (slipDisabled (finishStop (setSlip g i y) i) i, q.2) ∧ NoWait (settle t).1) ∧
    (∃ (s : State) (h : Hw) (i : Nat) (q : W32) (d : Desc) (a : Nat), h = clearSent s.hw ∧ findDesc (slipAt h i) q = some d ∧ opcode d =
     0x20 ∧ d.phase = .dispatched ∧ selPiece h (slipOwner h i) a false = true ∧ poisoned h a = false) ∧
    (∃ (s : State) (h : Hw) (i : Nat) (q : W32) (d : Desc), h = clearSent s.hw ∧ findDesc (slipAt h i) q = some d ∧ opcode d = 0x20 ∧
     d.phase ≠ .dispatched) ∧
    (∃ (s : State) (h : Hw) (i : Nat) (q : W32) (d : Desc) (a : Nat) (e : Extent), h = clearSent s.hw ∧ findDesc (slipAt h i) q = some d ∧
     opcode d = 0x10 ∧ d.phase = .dispatched ∧ e ∈ d.extents ∧ e.wr = false ∧ isLocal h e.paddr = true ∧ compactLocal e.paddr / 64 ≤ a / 64
     ∧ a < compactLocal e.paddr + e.len ∧ selPiece h (slipOwner h i) a false = true ∧ poisoned h a = false) ∧
    (∃ (s : State) (h : Hw) (i : Nat) (q : W32) (d : Desc), h = clearSent s.hw ∧ findDesc (slipAt h i) q = some d ∧ opcode d ∈ [0x11, 0x30,
     0x31]) ∧
    (∃ (s : State) (h : Hw) (i : Nat) (q : W32), h = clearSent s.hw ∧ findDesc (slipAt h i) q = none) :=
  ⟨⟨(st (wk [] {} { st := .running, cring := 0x1000 })), _, 5, _, _, rfl, rfl, rfl, (by decide +kernel), (by decide +kernel)⟩,
   ⟨(st (wk [at3 []])), _, 5, rfl, (by decide +kernel)⟩,
   ⟨(st (wk [{ at3 [] with phase := .fetched }])), _, 5, _, _, _, _, rfl, rfl, rfl, rfl, rfl, (by decide +kernel), (by decide +kernel)⟩,
   ⟨(st { (wk []) with eng := { slips := [(1023, { st := .running, descs := [{ at3 [(0, 1, 0x40)] with phase := .fetched }] })] } }), _,
     1023, _, _, _, _, rfl, rfl, rfl, rfl, rfl, (by decide +kernel), (by decide +kernel), (by decide +kernel), (by decide +kernel)⟩,
   ⟨(st {}), _, (wk [{ at3 [(0, 1, 0x10), (0x20, 4, 64), (0x24, 4, 1), (0x10, 8, 4096), (0x18, 8, 8192)] with phase := .walking }] {}
     { st := .running, mode := 9 }), 0, look0, _, _, rfl, rfl, rfl, (by decide +kernel), (by decide +kernel), (by decide +kernel)⟩,
   ⟨(st {}), _, (wk [{ at3 [(0, 1, 0x10), (0x20, 4, 64), (0x24, 4, 1), (0x10, 8, 4096), (0x18, 8, 8192)] with phase := .walking }]
     { eng := { fronts := [(0, { miss := some look0 })] } } { st := .running, mode := 9 }), 0, look0, _, _, rfl, rfl, rfl,
     (by decide +kernel), (by decide +kernel), (by decide +kernel)⟩,
   ⟨(st {}), _, (wk [{ at3 [(0, 1, 0x10), (0x20, 4, 64), (0x24, 4, 1), (0x10, 8, 4096), (0x18, 8, 8192)] with phase := .walking }]
     { eng := { fronts := [(0, { stopped := [look0] })] } } { st := .running, mode := 9 }), 0, look0, _, _, rfl, rfl, rfl,
     (by decide +kernel)⟩,
   ⟨(st (wk [{ at3 [(0, 1, 0x10), (0x20, 4, 64), (0x24, 4, 1), (0x10, 8, 4096), (0x18, 8, 8192)] with phase := .walking }])), _, 0, .clean,
     _, _, _, rfl, (by decide +kernel), rfl, rfl, (by decide +kernel), (by decide +kernel), (by decide +kernel), rfl⟩,
   ⟨(st (wk [{ at3 [(0, 1, 0x10), (0x20, 4, 64), (0x24, 4, 1), (0x10, 8, 4096), (0x18, 8, 8192)] with phase := .walking, scratch := 0 }]
     { eng := { fronts := [(0, { miss := some look0 })] } } { st := .running, mode := 9 })), _, 0, .clean, _, _, _, _, rfl,
     (by decide +kernel), rfl, rfl, (by decide +kernel), (by decide +kernel), rfl, rfl⟩,
   ⟨(st (wk [{ at3 [(0, 1, 0x20), (0x10, 8, 4096), (0x19, 1, 8)] with phase := .walking }])), _, 5,
     { at3 [(0, 1, 0x20), (0x10, 8, 4096), (0x19, 1, 8)] with phase := .walking }, true, 4096, 8, rfl, (by decide +kernel),
     (by decide +kernel), (by decide +kernel), (by decide +kernel), (by decide +kernel), (by decide +kernel), (by decide +kernel),
     (by decide +kernel), (by decide +kernel), (by decide +kernel), (by decide +kernel), (by decide +kernel), (by decide +kernel),
     (by decide +kernel)⟩,
   ⟨(st (wk [{ at3 [(0, 1, 0x10), (0x20, 4, 64), (0x24, 4, 1), (0x10, 8, 4096), (0x18, 8, 8192)] with phase := .staged, snapAll := 1 }])),
     _, 0, 5, _, _, _, rfl, rfl, rfl, rfl, (by decide +kernel), (by decide +kernel)⟩,
   ⟨(st (wk [{ at3 [(0, 1, 0x10), (0x28, 1, 1), (0x20, 4, 64), (0x24, 4, 1), (0x10, 8, 511 * 2 ^ 20)] with phase := .staged }])), _, 0, 5,
     _, _, _, rfl, rfl, rfl, rfl, (by decide +kernel), (by decide +kernel)⟩,
   ⟨(st (wk [{ at3 [(0, 1, 0x31)] with phase := .staged }])), _, 0, 5, _, _, _, rfl, rfl, rfl, rfl, (by decide +kernel),
     (by decide +kernel)⟩,
   ⟨(st {}), _, 0, rfl, (by decide +kernel)⟩,
   ⟨(st (wk [] {} { st := .running, tail := 1 })), _, 0, 5, _, rfl, rfl⟩,
   ⟨(st (wk [{ at3 [] with phase := .fetched, ringBad := 1 }])), _, 5, _, _, _, _, _, rfl, rfl, rfl, rfl, rfl, rfl, (by decide +kernel)⟩,
   ⟨(st (wk [{ at3 [] with phase := .fetched, ringBad := 2 }])), _, 5, _, _, _, _, _, rfl, rfl, rfl, rfl, rfl, rfl, (by decide +kernel)⟩,
   ⟨(st (wk [{ at3 [] with phase := .fetched, ringBad := 3 }])), _, 5, _, _, _, _, _, rfl, rfl, rfl, rfl, rfl, rfl, (by decide +kernel),
     (by decide +kernel)⟩,
   ⟨(st (wk [{ at3 [] with phase := .fetched, ringBad := 3 }] {} { st := .running, ring := 3 * 2 ^ 48 })), _, 5, _, _, _, _, _, rfl, rfl,
     rfl, rfl, rfl, rfl, (by decide +kernel), (by decide +kernel)⟩,
   ⟨(st (wk [{ at3 [] with phase := .fetched, ringBad := 4 }])), _, 5, _, _, _, _, _, rfl, rfl, rfl, rfl, rfl, rfl, (by decide +kernel)⟩,
   ⟨(st (wk [{ at3 [] with phase := .fetched }])), _, 5, _, _, _, _, _, rfl, rfl, rfl, rfl, rfl, rfl, (by decide +kernel),
     (by decide +kernel)⟩,
   ⟨(st (wk [{ at3 [(0, 1, 0x31)] with phase := .fetched }])), _, 5, _, _, _, _, _, rfl, rfl, rfl, rfl, rfl, rfl, (by decide +kernel),
     (by decide +kernel), (by decide +kernel), (by decide +kernel)⟩,
   ⟨(st (wk [{ at3 [(0, 1, 0x10), (0x20, 4, 64), (0x24, 4, 1), (0x10, 8, 4096), (0x18, 8, 8192)] with phase := .fetched }] {}
     { st := .running, mode := 1 })), _, 5, _, _, _, _, _, (4096, 64, false), [(8192, 64, true)], rfl, rfl, rfl, rfl, rfl, rfl,
     (by decide +kernel), (by decide +kernel), (by decide +kernel), (by decide +kernel), (by decide +kernel)⟩,
   ⟨(st (wk [{ at3 [(0, 1, 0x10), (0x20, 4, 64), (0x24, 4, 1), (0x10, 8, 4096), (0x18, 8, 8192)] with phase := .fetched }] {}
     { st := .running, mode := 9 })), _, 5, _, _, _, _, _, (4096, 64, false), [(8192, 64, true)], rfl, rfl, rfl, rfl, rfl, rfl,
     (by decide +kernel), (by decide +kernel), (by decide +kernel), (by decide +kernel), (by decide +kernel), (by decide +kernel),
     (by decide +kernel)⟩,
   ⟨(st (wk [{ at3 [(0, 1, 0x10), (0x20, 4, 64), (0x24, 4, 1), (0x10, 8, 4096), (0x18, 8, 8192)] with phase := .fetched }])), _, 5, _, _, _,
     _, _, (4096, 64, false), [(8192, 64, true)], rfl, rfl, rfl, rfl, rfl, rfl, (by decide +kernel), (by decide +kernel),
     (by decide +kernel), (by decide +kernel), (by decide +kernel), (by decide +kernel), (by decide +kernel), (by decide +kernel)⟩,
   ⟨(st (wk [{ at3 [(0, 1, 0x10), (0x20, 4, 64), (0x24, 4, 1), (0x10, 8, 4096), (0x18, 8, 8192), (1, 1, 0x80)] with phase := .fetched }])),
     _, 5, _, _, _, _, _, _, rfl, rfl, rfl, rfl, rfl, rfl, (by decide +kernel), (by decide +kernel), (by decide +kernel), rfl⟩,
   ⟨(st {}), _, 5, (at3 [(0, 1, 0x31), (1, 1, 2), (8, 4, 2 ^ 18)]), rfl, (by decide +kernel), (by decide +kernel), (by decide +kernel),
     (by decide +kernel)⟩,
   ⟨(st {}), _, 5, (at3 [(0, 1, 0x31), (1, 1, 2), (8, 4, 2 ^ 26)]), rfl, (by decide +kernel), (by decide +kernel), (by decide +kernel)⟩,
   ⟨(st (wk [{ at3 [(0, 1, 0x10), (0x20, 4, 64), (0x24, 4, 1), (0x10, 8, 4096), (0x18, 8, 8192)] with phase := .walking }])), _, 0, .clean,
     _, _, _, _, rfl, (by decide +kernel), rfl, rfl, rfl, rfl, (by decide +kernel)⟩,
   ⟨(st { faults := { fences := [{ scope := .unit, kind := 4, unit := 0 }] } }), _, 0, _, rfl, (by decide +kernel), rfl,
     (by decide +kernel)⟩,
   ⟨(st {}), _, 127, _, _, rfl, (by decide +kernel), rfl, (by decide +kernel), rfl, (by decide +kernel)⟩,
   ⟨(st {}), _, 1023, rfl, (by decide +kernel)⟩,
   ⟨(st (wk [])), _, 5, _, _, rfl, rfl, (by decide +kernel), rfl, (by decide +kernel)⟩,
   ⟨(st (wk [endd 0] { arch := { writes := [{ by_ := .slip 5 3 }] } })), _, 5, _, _, rfl, rfl, rfl, (by decide +kernel),
     (by decide +kernel)⟩,
   ⟨(st (wk [endd 2])), _, 5, _, (endd 2), _, _, (recTail 2), (recWhole 2), _, rfl, rfl, (by decide +kernel), rfl, rfl, (by decide +kernel),
     (by decide +kernel), pair_of (by decide +kernel), pair_of (by decide +kernel), (by decide +kernel), (by decide +kernel), rfl,
     (by decide +kernel)⟩,
   ⟨(st (wk [endd 0])), _, 5, _, (endd 0), _, _, (recTail 0), (recWhole 0), _, _, _, rfl, rfl, (by decide +kernel), rfl, rfl,
     (by decide +kernel), (by decide +kernel), pair_of (by decide +kernel), pair_of (by decide +kernel), (by decide +kernel), rfl, rfl, rfl,
     (by decide +kernel)⟩,
   ⟨(st (wk [at3 [(0, 1, 0x20)]])), _, 5, 3, _, 64, rfl, rfl, (by decide +kernel), (by decide +kernel), (by decide +kernel),
     (by decide +kernel)⟩,
   ⟨(st (wk [{ at3 [(0, 1, 0x20)] with phase := .ended }])), _, 5, 3, _, rfl, rfl, (by decide +kernel), (by decide +kernel)⟩,
   ⟨(st (wk [{ at3 [(0, 1, 0x10)] with extents := [{ buf := 0, voff := 0, len := 64, paddr := 64, wr := false }] }])), _, 5, 3, _, 64,
     { buf := 0, voff := 0, len := 64, paddr := 64, wr := false }, rfl, rfl, (by decide +kernel), (by decide +kernel), (by decide +kernel),
     (by decide +kernel), (by decide +kernel), (by decide +kernel), (by decide +kernel), (by decide +kernel), (by decide +kernel)⟩,
   ⟨(st (wk [at3 [(0, 1, 0x31)]])), _, 5, 3, _, rfl, rfl, (by decide +kernel)⟩,
   ⟨(st (wk [])), _, 5, 3, rfl, (by decide +kernel)⟩⟩

theorem wit_FerryBodyRows :
    (∃ (s : State) (h : Hw) (i : Nat) (q : BitVec 32), h = clearSent s.hw ∧ runnable h i q = none) ∧
    (∃ (s : State) (h : Hw) (i : Nat) (q : BitVec 32) (d : Desc), h = clearSent s.hw ∧ runnable h i q = some d ∧ opcode d = 0x31) ∧
    (∃ (s : State) (h : Hw) (i : Nat) (q : BitVec 32) (d : Desc), h = clearSent s.hw ∧ runnable h i q = some d ∧ opcode d ≠ 0x31) ∧
    (∃ (s : State) (h : Hw) (w : Nat) (a : Nat) (b : Nat) (c : Nat), h = clearSent s.hw ∧ a < 2 ^ (8 * w) ∧ b < 2 ^ (8 * w) ∧ c < 2 ^ (8 *
     w)) ∧
    (∃ (s : State) (h : Hw) (i : Nat) (q : W32), h = clearSent s.hw ∧ runnable h i q = none ∧ (∀ o, o ∈ h.eng.outs → outOf i q o = false)) ∧
    (∃ (s : State) (h : Hw) (f : Nat) (e : Extent) (i : Nat) (q : W32) (d : Desc), h = clearSent s.hw ∧ findDesc (slipAt h i) q = some d ∧ f
     = ferryOf h i ∧ e ∈ d.extents ∧ 256 ≤ (h.eng.outs.filter (fun o => decide (o.write = e.wr ∧ ferryOf h o.slip = f) && (findDesc (slipAt
     h o.slip) o.seq).isSome && !outOf i q o)).length) ∧
    (∃ (s : State) (h : Hw) (i : Nat) (q : W32) (n : Nat) (d : Desc) (c : Instr) (t : Hw × Memory) (k : Nat), h = clearSent s.hw ∧ runnable
     h i q = some d ∧ ((c = .move i q n ∧ opcode d = 0x10) ∨ (c = .fill i q n ∧ opcode d = 0x11)) ∧ ferryFull h i q = false ∧ k =
     wholeBlocks d n ∧ NoWait t.1 ∧ engineCheck h i d ≠ 0 ∧ t = (haltDesc h i d (engineCheck h i d), s.mem)) ∧
    (∃ (s : State) (h : Hw) (i : Nat) (q : W32) (n : Nat) (d : Desc) (c : Instr) (t : Hw × Memory) (k : Nat), h = clearSent s.hw ∧ runnable
     h i q = some d ∧ ((c = .move i q n ∧ opcode d = 0x10) ∨ (c = .fill i q n ∧ opcode d = 0x11)) ∧ ferryFull h i q = false ∧ k =
     wholeBlocks d n ∧ NoWait t.1 ∧ engineCheck h i d = 0 ∧ inRegion3 h d = true ∧ t = (haltDesc h i d 0x25, s.mem)) ∧
    (∃ (s : State) (h : Hw) (i : Nat) (q : W32) (n : Nat) (d : Desc) (c : Instr) (t : Hw × Memory) (k : Nat), h = clearSent s.hw ∧ runnable
     h i q = some d ∧ ((c = .move i q n ∧ opcode d = 0x10) ∨ (c = .fill i q n ∧ opcode d = 0x11)) ∧ ferryFull h i q = false ∧ k =
     wholeBlocks d n ∧ NoWait t.1 ∧ engineCheck h i d = 0 ∧ inRegion3 h d = false ∧ t = moveBytes (k + 1) (h, s.mem) i d k) ∧
    (∃ (s : State) (h : Hw) (i : Nat) (q : W32) (n : Nat) (d : Desc) (c : Instr) (t : Hw × Memory) (k : Nat), h = clearSent s.hw ∧ runnable
     h i q = some d ∧ ((c = .move i q n ∧ opcode d = 0x10) ∨ (c = .fill i q n ∧ opcode d = 0x11)) ∧ ferryFull h i q = false ∧ k =
     wholeBlocks d n ∧ NoWait t.1 ∧ engineCheck h i d = 0 ∧ inRegion3 h d = false ∧ leAt d.bytes 0x20 4 * leAt d.bytes 0x24 4 ≤ d.progress ∧
     t = (endDesc h i d (if d.off then 0x06 else if d.poison then 0x01 else 0) 0, s.mem)) ∧
    (∃ (s : State) (h : Hw) (i : Nat) (q : W32) (n : Nat) (c : Instr) (op : Nat), h = clearSent s.hw ∧ (c, op) ∈ [(Instr.move i q n, 0x10),
     (.fill i q n, 0x11), (.atomic i q, 0x20)] ∧ ferryFull h i q = true) ∧
    (∃ (s : State) (h : Hw) (i : Nat) (q : W32) (n : Nat) (c : Instr) (op : Nat), h = clearSent s.hw ∧ (c, op) ∈ [(Instr.move i q n, 0x10),
     (.fill i q n, 0x11), (.atomic i q, 0x20)] ∧ ferryFull h i q = false ∧ (∀ d, runnable h i q = some d → opcode d ≠ op)) ∧
    (∃ (s : State) (h : Hw) (d : Desc) (n : Nat) (len : Nat), h = clearSent s.hw ∧ len = leAt d.bytes 0x20 4 ∧ 0 < len ∧ 0 < n) ∧
    (∃ (s : State) (h : Hw) (n : Nat) (d : Desc) (t : Nat) (len : Nat) (loom : Nat) (off : Nat) (k : Nat) (bs : List (BitVec 8)) (g : Hw), h
     = clearSent s.hw ∧ opcode d = 0x11 ∧ leAt d.bytes 0x29 1 = 1 ∧ t = d.progress ∧ len = leAt d.bytes 0x20 4 ∧ loom = field (leAt d.bytes
     0x18 8) 28 20 ∧ loomGhost h loom = false ∧ off = field (leAt d.bytes 0x18 8) 19 0 + rowOff len (leAt d.bytes 0x24 4) (leAt d.bytes 0x38
     8) t ∧ k = min (min n (len - t % len)) (4096 - off % 4096) ∧ 0 < k ∧ k ≤ n ∧ bs = (List.range k).map (fun j => BitVec.ofNat 8 (leAt
     d.bytes (0x40 + (t % len + j) % 8) 1)) ∧ g = bobWrite (loomStall h loom off true) loom off bs false) ∧
    (∃ (s : State) (h : Hw) (i : Nat) (n : Nat) (d : Desc) (t : Nat) (len : Nat) (so : Nat) (dof : Nat) (ca : Nat) (cb : Nat) (sleft : Nat)
     (room : Nat) (k : Nat) (r : HM × Got) (w : HM), h = clearSent s.hw ∧ opcode d = 0x10 ∧ leAt d.bytes 0x28 1 = 0 ∧ leAt d.bytes 0x29 1 =
     0 ∧ t = d.progress ∧ len = leAt d.bytes 0x20 4 ∧ so = rowOff len (leAt d.bytes 0x24 4) (leAt d.bytes 0x30 8) t ∧ dof = rowOff len (leAt
     d.bytes 0x24 4) (leAt d.bytes 0x38 8) t ∧ extAddr d.extents 0 so = some (ca, sleft) ∧ extAddr d.extents 1 dof = some (cb, room) ∧ k =
     min (min n (len - t % len)) (min (min room (64 - cb % 64)) (min sleft (2 ^ 21 - ca % 2 ^ 21))) ∧ 0 < k ∧ r = strangeMove d (engineRead
     (h, s.mem) (slipDie i) (slipOwner h i) (bitOf (leAt d.bytes 0x2A 1) 0) ca k (i + 1)) ∧ r.2.v = .ok ∧ engineWrite r.1 (slipOwner h i) cb
     r.2.bytes r.2.poison = (w, .ok)) ∧
    (∃ (s : State) (h : Hw) (d : Desc), h = clearSent s.hw ∧ overlaps d = false) ∧
    (∃ (s : State) (h : Hw) (d : Desc) (x : HM × Got), h = clearSent s.hw ∧ overlaps d = true ∧ x.2.bytes ≠ []) ∧
    (∃ (s : State) (h : Hw) (i : Nat) (q : W32) (d : Desc) (ca : Nat) (left : Nat) (p : Nat) (a : Nat) (size : Nat) (v : Verdict) (t : Hw ×
     Memory), h = clearSent s.hw ∧ runnable h i q = some d ∧ opcode d = 0x20 ∧ extAddr d.extents 0 0 = some (ca, left) ∧ p = slipOwner h i ∧
     a = compactLocal ca ∧ size = leAt d.bytes 0x19 1 ∧ v = verdict h p ca size true ∧ ferryFull h i q = false ∧ NoWait t.1 ∧ regionOf a ∈
     [3, 4, 5] ∧ t = (haltDesc h i d 0x23, s.mem)) ∧
    (∃ (s : State) (h : Hw) (i : Nat) (q : W32) (d : Desc) (ca : Nat) (left : Nat) (p : Nat) (a : Nat) (size : Nat) (v : Verdict) (t : Hw ×
     Memory) (x : Nat), h = clearSent s.hw ∧ runnable h i q = some d ∧ opcode d = 0x20 ∧ extAddr d.extents 0 0 = some (ca, left) ∧ p =
     slipOwner h i ∧ a = compactLocal ca ∧ size = leAt d.bytes 0x19 1 ∧ v = verdict h p ca size true ∧ ferryFull h i q = false ∧ NoWait t.1
     ∧ regionOf a ∉ [3, 4, 5] ∧ v = .refused x ∧ t = (haltRefused h i d x, s.mem)) ∧
    (∃ (s : State) (h : Hw) (i : Nat) (q : W32) (d : Desc) (ca : Nat) (left : Nat) (p : Nat) (a : Nat) (size : Nat) (v : Verdict) (t : Hw ×
     Memory), h = clearSent s.hw ∧ runnable h i q = some d ∧ opcode d = 0x20 ∧ extAddr d.extents 0 0 = some (ca, left) ∧ p = slipOwner h i ∧
     a = compactLocal ca ∧ size = leAt d.bytes 0x19 1 ∧ v = verdict h p ca size true ∧ ferryFull h i q = false ∧ NoWait t.1 ∧ regionOf a ∉
     [3, 4, 5] ∧ v = .absent ∧ t = (endDesc h i d (goneStatus h) 0, s.mem)) ∧
    (∃ (s : State) (h : Hw) (i : Nat) (q : W32) (d : Desc) (ca : Nat) (left : Nat) (p : Nat) (a : Nat) (size : Nat) (v : Verdict) (t : Hw ×
     Memory), h = clearSent s.hw ∧ runnable h i q = some d ∧ opcode d = 0x20 ∧ extAddr d.extents 0 0 = some (ca, left) ∧ p = slipOwner h i ∧
     a = compactLocal ca ∧ size = leAt d.bytes 0x19 1 ∧ v = verdict h p ca size true ∧ ferryFull h i q = false ∧ NoWait t.1 ∧ regionOf a ∉
     [3, 4, 5] ∧ v = .off ∧ t = (endDesc h i d 0x06 0, s.mem)) ∧
    (∃ (s : State) (h : Hw) (i : Nat) (q : W32) (d : Desc) (ca : Nat) (left : Nat) (p : Nat) (a : Nat) (size : Nat) (v : Verdict) (t : Hw ×
     Memory), h = clearSent s.hw ∧ runnable h i q = some d ∧ opcode d = 0x20 ∧ extAddr d.extents 0 0 = some (ca, left) ∧ p = slipOwner h i ∧
     a = compactLocal ca ∧ size = leAt d.bytes 0x19 1 ∧ v = verdict h p ca size true ∧ ferryFull h i q = false ∧ NoWait t.1 ∧ regionOf a ∉
     [3, 4, 5] ∧ v = .dead ∧ t = (endDesc h i d 0x01 0, s.mem)) ∧
    (∃ (s : State) (h : Hw) (i : Nat) (q : W32) (d : Desc) (ca : Nat) (left : Nat) (p : Nat) (a : Nat) (size : Nat) (v : Verdict) (t : Hw ×
     Memory) (r : List Byte × Hw), h = clearSent s.hw ∧ runnable h i q = some d ∧ opcode d = 0x20 ∧ extAddr d.extents 0 0 = some (ca, left)
     ∧ p = slipOwner h i ∧ a = compactLocal ca ∧ size = leAt d.bytes 0x19 1 ∧ v = verdict h p ca size true ∧ ferryFull h i q = false ∧
     NoWait t.1 ∧ regionOf a ∉ [3, 4, 5] ∧ isLocal h ca = false ∧ isMember h (compactPos ca) = true ∧ memberFenced h = false ∧ regionOf a <
     8 ∧ r = atomicAfar h p (if regionOf a ≤ 1 then 8 else 7) ca size (leAt d.bytes 0x20 size) (leAt d.bytes 0x30 size) (leAt d.bytes 0x18
     1) ∧ t = ((refusedAfar h p ca size).elim (if remoteStatus h p ca = 2 then endDesc r.2 i { d with poison := true } 0x01 0 else endDesc
     r.2 i { d with begun := true, result := r.1 ++ zeros (16 - size) } 0 0) (fun x => haltRefused h i d (2 ^ 60 + x)), s.mem)) ∧
    (∃ (s : State) (h : Hw) (i : Nat) (q : W32) (d : Desc) (ca : Nat) (left : Nat) (p : Nat) (a : Nat) (size : Nat) (v : Verdict) (t : Hw ×
     Memory), h = clearSent s.hw ∧ runnable h i q = some d ∧ opcode d = 0x20 ∧ extAddr d.extents 0 0 = some (ca, left) ∧ p = slipOwner h i ∧
     a = compactLocal ca ∧ size = leAt d.bytes 0x19 1 ∧ v = verdict h p ca size true ∧ ferryFull h i q = false ∧ NoWait t.1 ∧ regionOf a ∉
     [3, 4, 5] ∧ v = .ok ∧ poisoned h a = true ∧ t = (endDesc h i { d with poison := true } 0x01 0, s.mem)) ∧
    (∃ (s : State) (h : Hw) (i : Nat) (q : W32) (d : Desc) (ca : Nat) (left : Nat) (p : Nat) (a : Nat) (size : Nat) (v : Verdict) (t : Hw ×
     Memory) (r : HM × Nat), h = clearSent s.hw ∧ runnable h i q = some d ∧ opcode d = 0x20 ∧ extAddr d.extents 0 0 = some (ca, left) ∧ p =
     slipOwner h i ∧ a = compactLocal ca ∧ size = leAt d.bytes 0x19 1 ∧ v = verdict h p ca size true ∧ ferryFull h i q = false ∧ NoWait t.1
     ∧ regionOf a ∉ [3, 4, 5] ∧ v = .ok ∧ poisoned h a = false ∧ r = atomicAt (h, s.mem) false a (leAt d.bytes 0x18 1) size (leAt d.bytes
     0x20 size) (leAt d.bytes 0x30 size) ∧ t = (endDesc r.1.1 i { d with begun := true, result := leBytes 16 r.2 } 0 0, r.1.2)) ∧
    (∃ (s : State) (h : Hw) (a : Nat) (op : Nat) (size : Nat) (x : Nat) (y : Nat) (k : ReqKind) (r : HM × Nat), h = clearSent s.hw ∧ k = (if
     regionOf a ≤ 1 then ReqKind.atomicMem else ReqKind.atomicHome) ∧ r = atomicAt (h, s.mem) false a op size x y ∧ notReady h (lineOf a)
     { kind := k, agent := .other } = false) ∧
    (∃ (s : State) (h : Hw) (i : Nat) (q : W32) (x : Slip) (d : Desc), h = clearSent s.hw ∧ x = slipAt h i ∧ findDesc x q = some d ∧ opcode
     d = 0x30 ∧ d.phase = .dispatched ∧ earlierDone x d = true ∧ slipPending h i q = false) ∧
    (∃ (s : State) (h : Hw) (i : Nat) (q : W32) (x : Slip) (d : Desc), h = clearSent s.hw ∧ x = slipAt h i ∧ findDesc x q = some d ∧ (opcode
     d ≠ 0x30 ∨ d.phase ≠ .dispatched ∨ earlierDone x d = false ∨ slipPending h i q = true)) ∧
    (∃ (s : State) (h : Hw) (i : Nat) (q : W32), h = clearSent s.hw ∧ findDesc (slipAt h i) q = none) ∧
    (∃ (s : State) (h : Hw) (w : Nat) (a : Nat) (b : Nat) (c : Nat) (f : Fmt), h = clearSent s.hw ∧ a < 2 ^ (8 * w) ∧ b < 2 ^ (8 * w) ∧ c <
     2 ^ (8 * w) ∧ f = (if w = 4 then binary32 else binary64)) :=
  ⟨⟨(st {}), _, 5, 3, rfl, (by decide +kernel)⟩,
   ⟨(st (wk [at3 [(0, 1, 0x31)]])), _, 5, 3, _, rfl, rfl, (by decide +kernel)⟩,
   ⟨(st (wk [at3 [(0, 1, 0x10)]])), _, 5, 3, _, rfl, rfl, (by decide +kernel)⟩,
   ⟨(st {}), _, 8, (2 ^ 64 - 1), (2 ^ 64 - 1), (2 ^ 64 - 1), rfl, (by decide +kernel), (by decide +kernel), (by decide +kernel)⟩,
   ⟨(st {}), _, 5, 3, rfl, (by decide +kernel), (by decide +kernel)⟩,
   ⟨fullSt, _, 0, { buf := 0, voff := 0, len := 8, paddr := 64, wr := true }, 5, 3, _, rfl, rfl, rfl, (by decide +kernel),
     (by decide +kernel)⟩,
   ⟨(st (wk [{ at3 [(0, 1, 0x10), (0x28, 1, 1), (0x20, 4, 64), (0x24, 4, 1), (0x10, 8, 511 * 2 ^ 20)] with extents := [] }])), _, 5, 3, 8,
     _, (.move 5 3 8), _, _, rfl, rfl, .inl ⟨rfl, by decide +kernel⟩, (by decide +kernel), rfl, (by decide +kernel), (by decide +kernel),
     rfl⟩,
   ⟨(st (wk [{ at3 [(0, 1, 0x11)] with extents := [{ buf := 0, voff := 0, len := 8, paddr := 3 * 2 ^ 44, wr := true }] }])), _, 5, 3, 8, _,
     (.fill 5 3 8), _, _, rfl, rfl, .inr ⟨rfl, by decide +kernel⟩, (by decide +kernel), rfl, (by decide +kernel), (by decide +kernel),
     (by decide +kernel), rfl⟩,
   ⟨(st (wk [at3 [(0, 1, 0x10)]])), _, 5, 3, 8, _, (.move 5 3 8), _, _, rfl, rfl, .inl ⟨rfl, by decide +kernel⟩, (by decide +kernel), rfl,
     (by decide +kernel), (by decide +kernel), (by decide +kernel), rfl⟩,
   ⟨(st (wk [at3 [(0, 1, 0x10)]])), _, 5, 3, 8, _, (.move 5 3 8), _, _, rfl, rfl, .inl ⟨rfl, by decide +kernel⟩, (by decide +kernel), rfl,
     (by decide +kernel), (by decide +kernel), (by decide +kernel), (by decide +kernel), rfl⟩,
   ⟨fullSt, _, 5, 3, 1, (.fill 5 3 1), 0x11, rfl, (by decide +kernel), (by decide +kernel)⟩,
   ⟨(st {}), _, 5, 3, 1, (.fill 5 3 1), 0x11, rfl, (by decide +kernel), (by decide +kernel), (fun _ e => nomatch e)⟩,
   ⟨(st {}), _, (at3 [(0, 1, 0x11), (0x29, 1, 1), (0x20, 4, 64), (0x24, 4, 1)]), 1, _, rfl, rfl, (by decide +kernel), (by decide +kernel)⟩,
   ⟨(st {}), _, 1, (at3 [(0, 1, 0x11), (0x29, 1, 1), (0x20, 4, 64), (0x24, 4, 1)]), _, _, _, _, _, _, _, rfl, (by decide +kernel),
     (by decide +kernel), rfl, rfl, rfl, (by decide +kernel), rfl, rfl, (by decide +kernel), (by decide +kernel), rfl, rfl⟩,
   ⟨(st (wk [])), _, 5, 64,
     { at3 [(0, 1, 0x10), (0x20, 4, 64), (0x24, 4, 1), (0x10, 8, 4096), (0x18, 8, 8192)] with extents := [{ buf := 0, voff := 0, len := 64, paddr := 64, wr := false }, { buf := 1, voff := 0, len := 64, paddr := 256, wr := true }] },
     _, _, _, _, 64, 256, 64, 64, _, _, _, rfl, (by decide +kernel), (by decide +kernel), (by decide +kernel), rfl, rfl, rfl, rfl,
     (by decide +kernel), (by decide +kernel), rfl, (by decide +kernel), rfl, (by decide +kernel), pair_of (by decide +kernel)⟩,
   ⟨(st {}), _, (at3 [(0, 1, 0x11), (0x29, 1, 1), (0x20, 4, 64), (0x24, 4, 1)]), rfl, (by decide +kernel)⟩,
   ⟨(st {}), _,
     { at3 [(0, 1, 0x10), (0x20, 4, 64), (0x24, 4, 1)] with extents := [{ buf := 0, voff := 0, len := 64, paddr := 64, wr := false }, { buf := 1, voff := 0, len := 64, paddr := 96, wr := true }] },
     (({}, []), { v := .ok, bytes := [1], poison := false }), rfl, (by decide +kernel), (by decide +kernel)⟩,
   ⟨(st (wk
     [{ at3 [(0, 1, 0x20), (0x18, 1, 1), (0x19, 1, 8), (0x20, 8, 7)] with extents := [{ buf := 0, voff := 0, len := 8, paddr := 3 * 2 ^ 44, wr := true }] }]
     {})), _, 5, 3, _, (3 * 2 ^ 44), 8, _, _, _, _, _, rfl, rfl, (by decide +kernel), (by decide +kernel), rfl, rfl, rfl, rfl,
     (by decide +kernel), (by decide +kernel), (by decide +kernel), rfl⟩,
   ⟨(st (wk
     [{ at3 [(0, 1, 0x20), (0x18, 1, 1), (0x19, 1, 8), (0x20, 8, 7)] with extents := [{ buf := 0, voff := 0, len := 8, paddr := 2 ^ 21, wr := true }] }]
     {})), _, 5, 3, _, (2 ^ 21), 8, _, _, _, _, _, (2 ^ 21), rfl, rfl, (by decide +kernel), (by decide +kernel), rfl, rfl, rfl, rfl,
     (by decide +kernel), (by decide +kernel), (by decide +kernel), rfl, rfl⟩,
   ⟨(st (wk
     [{ at3 [(0, 1, 0x20), (0x18, 1, 1), (0x19, 1, 8), (0x20, 8, 7)] with extents := [{ buf := 0, voff := 0, len := 8, paddr := 3 * 2 ^ 48, wr := true }] }]
     {})), _, 5, 3, _, (3 * 2 ^ 48), 8, _, _, _, _, _, rfl, rfl, (by decide +kernel), (by decide +kernel), rfl, rfl, rfl, rfl,
     (by decide +kernel), (by decide +kernel), (by decide +kernel), rfl, rfl⟩,
   ⟨(st
     { (wk [{ at3 [(0, 1, 0x20), (0x18, 1, 1), (0x19, 1, 8), (0x20, 8, 7)] with extents := [{ buf := 0, voff := 0, len := 8, paddr := 2 * 2 ^ 44, wr := true }] }] {}) with sel := { units := [(unitKey 5 5, { owner := 0, state := .owned })], swatches := [(slotSwatch 0 0, { owner := 0, state := .owned })] }, islands := [(islandKey { kind := .shelf, idx := 0 }, { power := .gated })] }),
     _, 5, 3, _, (2 * 2 ^ 44), 8, _, _, _, _, _, rfl, rfl, (by decide +kernel), (by decide +kernel), rfl, rfl, rfl, rfl,
     (by decide +kernel), (by decide +kernel), (by decide +kernel), rfl, rfl⟩,
   ⟨(st
     { (wk [{ at3 [(0, 1, 0x20), (0x18, 1, 1), (0x19, 1, 8), (0x20, 8, 7)] with extents := [{ buf := 0, voff := 0, len := 8, paddr := 6 * 2 ^ 44, wr := true }] }] {}) with sel := { units := [(unitKey 5 5, { owner := 0, state := .owned })], ranges := [{ first := 6 * 2 ^ 48, count := 1, owner := 0 }] }, edges := { decoders := [(0, { used := true, first := 6 * 2 ^ 48, count := 1, ports := [0] })] } }),
     _, 5, 3, _, (6 * 2 ^ 44), 8, _, _, _, _, _, rfl, rfl, (by decide +kernel), (by decide +kernel), rfl, rfl, rfl, rfl,
     (by decide +kernel), (by decide +kernel), (by decide +kernel), rfl, rfl⟩,
   ⟨(st (wk
     [{ at3 [(0, 1, 0x20), (0x18, 1, 1), (0x19, 1, 8), (0x20, 8, 7)] with extents := [{ buf := 0, voff := 0, len := 8, paddr := 3 * 2 ^ 48, wr := true }] }]
     { ident := { admitted := true }, arch := { members := [(3, { st := .member })] } })), _, 5, 3, _, (3 * 2 ^ 48), 8, _, _, _, _, _, _,
     rfl, rfl, (by decide +kernel), (by decide +kernel), rfl, rfl, rfl, rfl, (by decide +kernel), (by dsimp only; rcases refusedAfar _ _ _ _
     with _ | x <;> dsimp only [Option.elim] <;> first | (split <;> decide +kernel) | (rw [NoWait, haltRefused_coh]; decide +kernel)),
     (by decide +kernel), (by decide +kernel), (by decide +kernel), (by decide +kernel), (by decide +kernel), rfl, rfl⟩,
   ⟨(st (wk
     [{ at3 [(0, 1, 0x20), (0x18, 1, 1), (0x19, 1, 8), (0x20, 8, 7)] with extents := [{ buf := 0, voff := 0, len := 8, paddr := 64, wr := true }] }]
     { coh := { poison := [(1, true)] } })), _, 5, 3, _, (64), 8, _, _, _, _, _, rfl, rfl, (by decide +kernel), (by decide +kernel), rfl,
     rfl, rfl, rfl, (by decide +kernel), (by decide +kernel), (by decide +kernel), rfl, (by decide +kernel), rfl⟩,
   ⟨(st (wk
     [{ at3 [(0, 1, 0x20), (0x18, 1, 1), (0x19, 1, 8), (0x20, 8, 7)] with extents := [{ buf := 0, voff := 0, len := 8, paddr := 64, wr := true }] }]
     {})), _, 5, 3, _, (64), 8, _, _, _, _, _, _, rfl, rfl, (by decide +kernel), (by decide +kernel), rfl, rfl, rfl, rfl,
     (by decide +kernel), (by decide +kernel), (by decide +kernel), rfl, (by decide +kernel), rfl, rfl⟩,
   ⟨(st {}), _, (2 ^ 64 - 1), 11, 8, 1, 2, _, _, rfl, rfl, rfl, (by decide +kernel)⟩,
   ⟨(st (wk [at3 [(0, 1, 0x30)]])), _, 5, 3, _, _, rfl, rfl, rfl, (by decide +kernel), (by decide +kernel), (by decide +kernel),
     (by decide +kernel)⟩,
   ⟨(st (wk [{ at3 [] with seq := 2 }, at3 [(0, 1, 0x30)]])), _, 5, 3, _, _, rfl, rfl, rfl, (by decide +kernel)⟩,
   ⟨(st {}), _, 5, 3, rfl, (by decide +kernel)⟩,
   ⟨(st {}), _, 8, (2 ^ 64 - 1), (2 ^ 64 - 1), (2 ^ 64 - 1), _, rfl, (by decide +kernel), (by decide +kernel), (by decide +kernel), rfl⟩⟩

theorem wit_BoltRows :
    (∃ (s : State) (h : Hw), h = clearSent s.hw) ∧
    (∃ (s : State) (h : Hw) (i : Nat) (q : BitVec 32) (d : Desc) (c : Instr) (op : Nat) (t : HM), h = clearSent s.hw ∧ runnable h i q = some
     d ∧ t = boltTurn (h, s.mem) i d ∧ (c, op) ∈ [(Instr.boltLoad i q, 0x14), (.boltStore i q, 0x15), (.boltMove i q, 0x16), (.boltCopyUp i
     q, 0x17), (.boltClean i q, 0x18), (.boltDrop i q, 0x19)] ∧ opcode d = op) ∧
    (∃ (s : State) (h : Hw) (i : Nat) (q : BitVec 32) (d : Desc) (c : Instr) (op : Nat) (t : HM), h = clearSent s.hw ∧ runnable h i q = some
     d ∧ t = boltTurn (h, s.mem) i d ∧ (c, op) ∈ [(Instr.boltLoad i q, 0x14), (.boltStore i q, 0x15), (.boltMove i q, 0x16), (.boltCopyUp i
     q, 0x17), (.boltClean i q, 0x18), (.boltDrop i q, 0x19)] ∧ opcode d ≠ op) ∧
    (∃ (s : State) (h : Hw) (d : Desc) (e : MapEntry), h = clearSent s.hw ∧ e.copyTier = 0 ∧ e.homeTier = boltTier d ∧ e.homeLine = boltLine
     d ∧ e.codec = boltCodec d ∧ e.w0 = leNat d.result) ∧
    (∃ (s : State) (h : Hw) (i : Nat) (q : BitVec 32) (d : Desc), h = clearSent s.hw ∧ findDesc (slipAt h i) q = some d ∧ boltWaiting d =
     false ∧ h.tiers.misses = []) ∧
    (∃ (s : State) (h : Hw), h = clearSent s.hw ∧ h.tiers.misses = []) ∧
    (∃ (s : State) (h : Hw) (i : Nat) (q : W32) (d : Desc) (c : Instr) (op : Nat) (t : HM), h = clearSent s.hw ∧ runnable h i q = some d ∧
     ferryFull h i q = false ∧ (c, op) ∈ [(Instr.boltLoad i q, 0x14), (.boltStore i q, 0x15), (.boltMove i q, 0x16), (.boltCopyUp i q,
     0x17), (.boltClean i q, 0x18), (.boltDrop i q, 0x19)] ∧ opcode d = op ∧ t = boltTurn (h, s.mem) i d ∧ NoWait t.1) ∧
    (∃ (s : State) (h : Hw) (i : Nat) (q : W32) (d : Desc) (c : Instr) (op : Nat), h = clearSent s.hw ∧ runnable h i q = some d ∧ ferryFull
     h i q = false ∧ (c, op) ∈ [(Instr.boltLoad i q, 0x14), (.boltStore i q, 0x15), (.boltMove i q, 0x16), (.boltCopyUp i q, 0x17),
     (.boltClean i q, 0x18), (.boltDrop i q, 0x19)] ∧ opcode d ≠ op ∧ (∀ o, o ∈ h.eng.outs → outOf i q o = false)) ∧
    (∃ (s : State) (h : Hw) (i : Nat) (q : W32) (d : Desc), h = clearSent s.hw ∧ findDesc (slipAt h i) q = some d ∧ boltWaiting d = false ∧
     h.tiers.misses = [] ∧ (∀ o, o ∈ h.eng.outs → outOf i q o = false)) ∧
    (∃ (s : State) (h : Hw) (i : Nat) (d : Desc), h = clearSent s.hw ∧ ((boundObj h i d (boltObj d)).used = false ∨ (boundObj h i d (boltObj
     d)).count ≤ boltIdx d)) ∧
    (∃ (s : State) (h : Hw) (i : Nat) (d : Desc) (p : Nat) (o : ObjRec), h = clearSent s.hw ∧ p = slipOwner h i ∧ o = boundObj h i d
     (boltObj d) ∧ o.used = true ∧ boltIdx d < o.count ∧ opcode d = 0x15 ∧ boltMask d = 0) ∧
    (∃ (s : State) (h : Hw) (i : Nat) (d : Desc) (p : Nat) (o : ObjRec) (r : HM), h = clearSent s.hw ∧ p = slipOwner h i ∧ o = boundObj h i
     d (boltObj d) ∧ o.used = true ∧ boltIdx d < o.count ∧ (opcode d = 0x15 → boltMask d ≠ 0) ∧ readEntry (h, s.mem) (slipDie i) p (o.map +
     32 * boltIdx d) = (r, .poisoned) ∧ d.scratch ≠ 1) ∧
    (∃ (s : State) (h : Hw) (i : Nat) (d : Desc) (p : Nat) (o : ObjRec) (r : HM) (e : MapEntry), h = clearSent s.hw ∧ p = slipOwner h i ∧ o
     = boundObj h i d (boltObj d) ∧ o.used = true ∧ boltIdx d < o.count ∧ (opcode d = 0x15 → boltMask d ≠ 0) ∧ readEntry (h, s.mem) (slipDie
     i) p (o.map + 32 * boltIdx d) = (r, .ok e) ∧ d.scratch ≠ 1 ∧ (mapBad r.1 o e = true ∨ (0x16 < opcode d ∧ o.mode ≠ 1))) ∧
    (∃ (s : State) (h : Hw) (i : Nat) (d : Desc) (p : Nat) (o : ObjRec) (r : HM) (e : MapEntry), h = clearSent s.hw ∧ p = slipOwner h i ∧ o
     = boundObj h i d (boltObj d) ∧ o.used = true ∧ boltIdx d < o.count ∧ (opcode d = 0x15 → boltMask d ≠ 0) ∧ readEntry (h, s.mem) (slipDie
     i) p (o.map + 32 * boltIdx d) = (r, .ok e) ∧ d.scratch ≠ 1 ∧ mapBad r.1 o e = false ∧ (opcode d ≤ 0x16 ∨ o.mode = 1) ∧ e.state = 3) ∧
    (∃ (s : State) (h : Hw) (i : Nat) (d : Desc) (p : Nat) (o : ObjRec) (r : HM) (e : MapEntry), h = clearSent s.hw ∧ p = slipOwner h i ∧ o
     = boundObj h i d (boltObj d) ∧ o.used = true ∧ boltIdx d < o.count ∧ (opcode d = 0x15 → boltMask d ≠ 0) ∧ readEntry (h, s.mem) (slipDie
     i) p (o.map + 32 * boltIdx d) = (r, .ok e) ∧ d.scratch ≠ 1 ∧ mapBad r.1 o e = false ∧ (opcode d ≤ 0x16 ∨ o.mode = 1) ∧ e.state = 2 ∧
     opcode d ≠ 0x14 ∧ (opcode d ≠ 0x15 ∨ e.copyTier ≠ 0)) ∧
    (∃ (s : State) (h : Hw) (i : Nat) (d : Desc) (p : Nat) (o : ObjRec) (r : HM) (e : MapEntry), h = clearSent s.hw ∧ p = slipOwner h i ∧ o
     = boundObj h i d (boltObj d) ∧ o.used = true ∧ boltIdx d < o.count ∧ (opcode d = 0x15 → boltMask d ≠ 0) ∧ readEntry (h, s.mem) (slipDie
     i) p (o.map + 32 * boltIdx d) = (r, .ok e) ∧ d.scratch ≠ 1 ∧ mapBad r.1 o e = false ∧ (opcode d ≤ 0x16 ∨ o.mode = 1) ∧ e.state ≠ 3 ∧
     opcode d = 0x14) ∧
    (∃ (s : State) (h : Hw) (i : Nat) (d : Desc) (p : Nat) (o : ObjRec) (r : HM) (e : MapEntry) (c : HM), h = clearSent s.hw ∧ p = slipOwner
     h i ∧ o = boundObj h i d (boltObj d) ∧ o.used = true ∧ boltIdx d < o.count ∧ (opcode d = 0x15 → boltMask d ≠ 0) ∧ readEntry (h, s.mem)
     (slipDie i) p (o.map + 32 * boltIdx d) = (r, .ok e) ∧ d.scratch ≠ 1 ∧ mapBad r.1 o e = false ∧ (opcode d ≤ 0x16 ∨ o.mode = 1) ∧ e.state
     = 0 ∧ opcode d ≠ 0x14 ∧ (opcode d ≠ 0x15 ∨ e.copyTier ≠ 0) ∧ casWord r p (o.map + 32 * boltIdx d) e.w0 (setField e.w0 11 9 (if opcode d
     = 0x15 then 3 else 2)) = (c, true)) ∧
    (∃ (s : State) (h : Hw) (i : Nat) (d : Desc) (p : Nat) (o : ObjRec) (r : HM) (e : MapEntry) (e0 : MapEntry), h = clearSent s.hw ∧ p =
     slipOwner h i ∧ o = boundObj h i d (boltObj d) ∧ o.used = true ∧ boltIdx d < o.count ∧ (opcode d = 0x15 → boltMask d ≠ 0) ∧ readEntry
     (h, s.mem) (slipDie i) p (o.map + 32 * boltIdx d) = (r, .ok e) ∧ d.scratch = 1 ∧ e0 = { w0 := leNat d.result, w1 := e.w1 } ∧ opcode d =
     0x15) ∧
    (∃ (s : State) (h : Hw) (i : Nat) (d : Desc) (p : Nat) (o : ObjRec) (r : HM) (e : MapEntry) (e0 : MapEntry), h = clearSent s.hw ∧ p =
     slipOwner h i ∧ o = boundObj h i d (boltObj d) ∧ o.used = true ∧ boltIdx d < o.count ∧ (opcode d = 0x15 → boltMask d ≠ 0) ∧ readEntry
     (h, s.mem) (slipDie i) p (o.map + 32 * boltIdx d) = (r, .ok e) ∧ d.scratch = 1 ∧ e0 = { w0 := leNat d.result, w1 := e.w1 } ∧ opcode d =
     0x16) ∧
    (∃ (s : State) (h : Hw) (i : Nat) (d : Desc) (p : Nat) (o : ObjRec) (r : HM) (e : MapEntry) (e0 : MapEntry), h = clearSent s.hw ∧ p =
     slipOwner h i ∧ o = boundObj h i d (boltObj d) ∧ o.used = true ∧ boltIdx d < o.count ∧ (opcode d = 0x15 → boltMask d ≠ 0) ∧ readEntry
     (h, s.mem) (slipDie i) p (o.map + 32 * boltIdx d) = (r, .ok e) ∧ d.scratch = 1 ∧ e0 = { w0 := leNat d.result, w1 := e.w1 } ∧ opcode d =
     0x17) ∧
    (∃ (s : State) (h : Hw) (i : Nat) (d : Desc) (p : Nat) (o : ObjRec) (r : HM) (e : MapEntry) (e0 : MapEntry), h = clearSent s.hw ∧ p =
     slipOwner h i ∧ o = boundObj h i d (boltObj d) ∧ o.used = true ∧ boltIdx d < o.count ∧ (opcode d = 0x15 → boltMask d ≠ 0) ∧ readEntry
     (h, s.mem) (slipDie i) p (o.map + 32 * boltIdx d) = (r, .ok e) ∧ d.scratch = 1 ∧ e0 = { w0 := leNat d.result, w1 := e.w1 } ∧ opcode d =
     0x18) ∧
    (∃ (s : State) (h : Hw) (i : Nat) (d : Desc) (p : Nat) (o : ObjRec) (r : HM) (e : MapEntry) (e0 : MapEntry), h = clearSent s.hw ∧ p =
     slipOwner h i ∧ o = boundObj h i d (boltObj d) ∧ o.used = true ∧ boltIdx d < o.count ∧ (opcode d = 0x15 → boltMask d ≠ 0) ∧ readEntry
     (h, s.mem) (slipDie i) p (o.map + 32 * boltIdx d) = (r, .ok e) ∧ d.scratch = 1 ∧ e0 = { w0 := leNat d.result, w1 := e.w1 } ∧ opcode d =
     0x19) ∧
    (∃ (s : State) (h : Hw) (i : Nat) (d : Desc) (o : ObjRec) (e : MapEntry) (b : BoltData) (r : HM), h = clearSent s.hw ∧ readBolt (h,
     s.mem) (slipDie i) (slipOwner h i) o.format e = (r, .ok b) ∧ b.rejected = false ∧ b.pm = 0 ∧ b.off = false ∧ loomGhost r.1 (boltLoom d)
     = false ∧ retiredFor d (boltObj d) = false) ∧
    (∃ (s : State) (h : Hw) (i : Nat) (q : W32) (c : Instr), h = clearSent s.hw ∧ c ∈ [Instr.boltLoad i q, .boltStore i q, .boltMove i q,
     .boltCopyUp i q, .boltClean i q, .boltDrop i q] ∧ runnable h i q = none ∧ ferryFull h i q = false) ∧
    (∃ (s : State) (h : Hw) (i : Nat) (q : W32) (c : Instr), h = clearSent s.hw ∧ c ∈ [Instr.boltLoad i q, .boltStore i q, .boltMove i q,
     .boltCopyUp i q, .boltClean i q, .boltDrop i q] ∧ ferryFull h i q = true) ∧
    (∃ (s : State) (h : Hw) (i : Nat) (d : Desc) (p : Nat) (o : ObjRec) (r : HM) (x : HM), h = clearSent s.hw ∧ p = slipOwner h i ∧ o =
     boundObj h i d (boltObj d) ∧ o.used = true ∧ boltIdx d < o.count ∧ (opcode d = 0x15 → boltMask d ≠ 0) ∧ readEntry (h, s.mem) (slipDie
     i) p (o.map + 32 * boltIdx d) = (r, .poisoned) ∧ x = releaseFailed r i d) ∧
    (∃ (s : State) (h : Hw) (i : Nat) (d : Desc) (p : Nat) (o : ObjRec) (r : HM) (b : Bad), h = clearSent s.hw ∧ p = slipOwner h i ∧ o =
     boundObj h i d (boltObj d) ∧ o.used = true ∧ boltIdx d < o.count ∧ (opcode d = 0x15 → boltMask d ≠ 0) ∧ readEntry (h, s.mem) (slipDie
     i) p (o.map + 32 * boltIdx d) = (r, .bad b)) ∧
    (∃ (s : State) (h : Hw) (i : Nat) (d : Desc) (p : Nat) (o : ObjRec) (r : HM) (e : MapEntry), h = clearSent s.hw ∧ p = slipOwner h i ∧ o
     = boundObj h i d (boltObj d) ∧ o.used = true ∧ boltIdx d < o.count ∧ (opcode d = 0x15 → boltMask d ≠ 0) ∧ readEntry (h, s.mem) (slipDie
     i) p (o.map + 32 * boltIdx d) = (r, .ok e) ∧ d.scratch ≠ 1 ∧ mapBad r.1 o e = false ∧ (opcode d ≤ 0x16 ∨ o.mode = 1) ∧ opcode d = 0x14
     ∧ e.state = 3) ∧
    (∃ (s : State) (h : Hw) (i : Nat) (d : Desc) (p : Nat) (o : ObjRec) (r : HM) (e : MapEntry), h = clearSent s.hw ∧ p = slipOwner h i ∧ o
     = boundObj h i d (boltObj d) ∧ o.used = true ∧ boltIdx d < o.count ∧ (opcode d = 0x15 → boltMask d ≠ 0) ∧ readEntry (h, s.mem) (slipDie
     i) p (o.map + 32 * boltIdx d) = (r, .ok e) ∧ d.scratch ≠ 1 ∧ mapBad r.1 o e = false ∧ (opcode d ≤ 0x16 ∨ o.mode = 1) ∧ opcode d = 0x15
     ∧ e.state ≤ 1 ∧ e.copyTier = 0 ∧ codecOk o e.codec e.homeTier = false) ∧
    (∃ (s : State) (h : Hw) (i : Nat) (d : Desc) (p : Nat) (o : ObjRec) (r : HM) (e : MapEntry), h = clearSent s.hw ∧ p = slipOwner h i ∧ o
     = boundObj h i d (boltObj d) ∧ o.used = true ∧ boltIdx d < o.count ∧ (opcode d = 0x15 → boltMask d ≠ 0) ∧ readEntry (h, s.mem) (slipDie
     i) p (o.map + 32 * boltIdx d) = (r, .ok e) ∧ d.scratch ≠ 1 ∧ mapBad r.1 o e = false ∧ (opcode d ≤ 0x16 ∨ o.mode = 1) ∧ opcode d ≠ 0x14
     ∧ (opcode d ≠ 0x15 ∨ 1 < e.state ∨ e.copyTier ≠ 0 ∨ codecOk o e.codec e.homeTier = true) ∧ e.state ≠ 0 ∧ (e.state ≠ 1 ∨ opcode d ≠
     0x15)) ∧
    (∃ (s : State) (h : Hw) (i : Nat) (d : Desc) (p : Nat) (o : ObjRec) (r : HM) (e : MapEntry) (c : HM) (won : Bool) (a : Nat), h =
     clearSent s.hw ∧ p = slipOwner h i ∧ o = boundObj h i d (boltObj d) ∧ o.used = true ∧ boltIdx d < o.count ∧ (opcode d = 0x15 → boltMask
     d ≠ 0) ∧ readEntry (h, s.mem) (slipDie i) p (o.map + 32 * boltIdx d) = (r, .ok e) ∧ d.scratch ≠ 1 ∧ mapBad r.1 o e = false ∧ (opcode d
     ≤ 0x16 ∨ o.mode = 1) ∧ opcode d ≠ 0x14 ∧ (opcode d ≠ 0x15 ∨ 1 < e.state ∨ e.copyTier ≠ 0 ∨ codecOk o e.codec e.homeTier = true) ∧
     (e.state = 0 ∨ (e.state = 1 ∧ opcode d = 0x15)) ∧ casWord r p (o.map + 32 * boltIdx d) e.w0 (setField e.w0 11 9 (if opcode d = 0x15
     then 3 else 2)) = (c, won) ∧ verdict r.1 p (o.map + 32 * boltIdx d) 16 true = .refused a) ∧
    (∃ (s : State) (h : Hw) (i : Nat) (d : Desc) (p : Nat) (o : ObjRec) (r : HM) (e : MapEntry) (c : HM) (won : Bool), h = clearSent s.hw ∧
     p = slipOwner h i ∧ o = boundObj h i d (boltObj d) ∧ o.used = true ∧ boltIdx d < o.count ∧ (opcode d = 0x15 → boltMask d ≠ 0) ∧
     readEntry (h, s.mem) (slipDie i) p (o.map + 32 * boltIdx d) = (r, .ok e) ∧ d.scratch ≠ 1 ∧ mapBad r.1 o e = false ∧ (opcode d ≤ 0x16 ∨
     o.mode = 1) ∧ opcode d ≠ 0x14 ∧ (opcode d ≠ 0x15 ∨ 1 < e.state ∨ e.copyTier ≠ 0 ∨ codecOk o e.codec e.homeTier = true) ∧ (e.state = 0 ∨
     (e.state = 1 ∧ opcode d = 0x15)) ∧ casWord r p (o.map + 32 * boltIdx d) e.w0 (setField e.w0 11 9 (if opcode d = 0x15 then 3 else 2)) =
     (c, won) ∧ (∀ a, verdict r.1 p (o.map + 32 * boltIdx d) 16 true ≠ .refused a)) ∧
    (∃ (s : State) (h : Hw) (i : Nat) (d : Desc) (e : MapEntry) (p : Nat) (v : Nat) (b : BoltData) (r : HM) (w : HM), h = clearSent s.hw ∧ p
     = slipOwner h i ∧ v = (e.version + 1) % 2 ^ 32 ∧ e.w0 = leNat d.result ∧ b.off = false ∧ storeSource (h, s.mem) i d = (r, .ok b) ∧
     e.copyTier ≠ 0 ∧ e.state = 0 ∧ writePlain r p e.copyLine (boltMask d) b = (w, .ok)) ∧
    (∃ (s : State) (h : Hw) (i : Nat) (d : Desc) (e : MapEntry) (p : Nat) (v : Nat) (b : BoltData), h = clearSent s.hw ∧ p = slipOwner h i ∧
     v = (e.version + 1) % 2 ^ 32 ∧ e.w0 = leNat d.result ∧ b.off = false ∧ e.copyTier = 0 ∧ e.homeTier = boltTier d ∧ e.homeLine = boltLine
     d ∧ e.codec = boltCodec d) ∧
    (∃ (s : State) (h : Hw) (i : Nat) (d : Desc) (o : ObjRec) (e : MapEntry) (p : Nat) (v : Nat) (b : BoltData) (r : HM) (w : HM) (k : Nat)
     (n : Nat) (u : Verdict), h = clearSent s.hw ∧ p = slipOwner h i ∧ v = (e.version + 1) % 2 ^ 32 ∧ e.w0 = leNat d.result ∧ b.off = false
     ∧ e.copyTier = 0 ∧ e.homeLine ≠ boltLine d ∧ tierOk h (boltTier d) (boltLine d) = true ∧ codecOk o (boltCodec d) (boltTier d) = true ∧
     readHome (h, s.mem) (slipDie i) p o.format e = (r, .ok b) ∧ writeHome r p (boltLine d) (boltCodec d) o (boltObj d) (boltIdx d) b = (w,
     u, k, n)) ∧
    (∃ (s : State) (h : Hw) (i : Nat) (d : Desc) (o : ObjRec) (e : MapEntry) (p : Nat) (v : Nat) (b : BoltData) (r : HM) (w : HM) (x : HM)
     (u : Verdict) (y : Verdict), h = clearSent s.hw ∧ p = slipOwner h i ∧ v = (e.version + 1) % 2 ^ 32 ∧ e.w0 = leNat d.result ∧ b.off =
     false ∧ e.copyTier = 0 ∧ boltTier d < e.homeTier ∧ tierOk h (boltTier d) (boltLine d) = true ∧ readHome (h, s.mem) (slipDie i) p
     o.format e = (r, .ok b) ∧ writePlain r p (boltLine d) 0xFFFF b = (w, u) ∧ u ≠ .absent ∧ (∀ a, u ≠ .refused a) ∧ engineWrite w p (o.map
     + 32 * boltIdx d + 16) (leBytes 8 (setField (e.w1 % 2 ^ 64) 49 0 (boltLine d))) false = (x, y)) ∧
    (∃ (s : State) (h : Hw) (i : Nat) (d : Desc) (e : MapEntry) (p : Nat) (v : Nat) (b : BoltData) (r : HM) (w : HM), h = clearSent s.hw ∧ p
     = slipOwner h i ∧ v = (e.version + 1) % 2 ^ 32 ∧ e.w0 = leNat d.result ∧ b.off = false ∧ e.copyTier ≠ 0 ∧ opcode d = 0x18 ∧ e.codec = 0
     ∧ e.dirty ≠ 0 ∧ readPlain (h, s.mem) (slipDie i) p e.copyLine = (r, .ok b) ∧ writePlain r p e.homeLine e.dirty b = (w, .ok)) ∧
    (∃ (s : State) (h : Hw) (i : Nat) (d : Desc) (e : MapEntry) (p : Nat) (v : Nat) (b : BoltData), h = clearSent s.hw ∧ p = slipOwner h i ∧
     v = (e.version + 1) % 2 ^ 32 ∧ e.w0 = leNat d.result ∧ b.off = false ∧ e.copyTier ≠ 0 ∧ opcode d = 0x19 ∧ e.dirty = 0) ∧
    (∃ (s : State) (h : Hw) (i : Nat) (d : Desc) (p : Nat) (o : ObjRec) (new : Nat) (c : HM) (won : Bool), h = clearSent s.hw ∧ p =
     slipOwner h i ∧ o = boundObj h i d (boltObj d) ∧ casWord (h, s.mem) p (o.map + 32 * boltIdx d) (setField (leNat d.result) 11 9 (if
     opcode d = 0x15 then 3 else 2)) new = (c, won)) ∧
    (∃ (s : State) (h : Hw) (d : Desc) (k : Nat) (l : Nat) (n : Nat), h = clearSent s.hw ∧ k < 512 ∧ l < 16 ∧ retiredFor d n = false) ∧
    (∃ (s : State) (h : Hw) (d : Desc) (k : Nat) (l : Nat) (n : Nat), h = clearSent s.hw ∧ k < 512 ∧ l < 16 ∧ retiredFor d n = true) ∧
    (∃ (s : State) (h : Hw) (i : Nat) (q : W32) (d : Desc) (a : Nat) (t : HM), h = clearSent s.hw ∧ findDesc (slipAt h i) q = some d ∧
     boltWaiting d = true ∧ ferryFull h i q = false ∧ NoWait t.1 ∧ a = max h.tb.now (min (h.tb.now + 256) (boltLimit h i d)) ∧ t = boltAgain
     (h, s.mem) i d a) ∧
    (∃ (s : State) (h : Hw) (i : Nat) (q : W32) (d : Desc) (a : Nat) (t : HM), h = clearSent s.hw ∧ findDesc (slipAt h i) q = some d ∧
     boltWaiting d = true ∧ ferryFull h i q = false ∧ NoWait t.1 ∧ a = max h.tb.now (boltLimit h i d) ∧ t = boltAgain (h, s.mem) i d a) ∧
    (∃ (s : State) (h : Hw) (i : Nat) (q : W32) (d : Desc), h = clearSent s.hw ∧ findDesc (slipAt h i) q = some d ∧ boltWaiting d = false ∧
     ferryFull h i q = false ∧ h.tiers.misses.find? (fun m => decide (m.slip = i ∧ m.seq = q) && m.waited) = none) ∧
    (∃ (s : State) (h : Hw) (i : Nat) (q : W32) (d : Desc) (m : Miss) (a : Nat) (t : HM), h = clearSent s.hw ∧ findDesc (slipAt h i) q =
     some d ∧ boltWaiting d = false ∧ ferryFull h i q = false ∧ h.tiers.misses.find? (fun m => decide (m.slip = i ∧ m.seq = q) && m.waited)
     = some m ∧ a = d.since + 1000 * (boundObj h i d m.obj).waitUs ∧ t = missFill (advanceTo h a, s.mem) i q ∧ NoWait t.1 ∧ (∀ n, n ∈
     t.1.tiers.misses → n.slip = i → n.seq = q → n.waited = false)) ∧
    (∃ (s : State) (h : Hw) (i : Nat) (q : W32) (d : Desc) (m : Miss) (a : Nat) (t : HM) (n : Miss), h = clearSent s.hw ∧ findDesc (slipAt h
     i) q = some d ∧ boltWaiting d = false ∧ ferryFull h i q = false ∧ h.tiers.misses.find? (fun m => decide (m.slip = i ∧ m.seq = q) &&
     m.waited) = some m ∧ a = d.since + 1000 * (boundObj h i d m.obj).waitUs ∧ t = missFill (advanceTo h a, s.mem) i q ∧ NoWait t.1 ∧ n ∈
     t.1.tiers.misses ∧ n.slip = i ∧ n.seq = q ∧ n.waited = true ∧ NoWait (haltDesc (dropMisses t.1 i q) i d 0x27)) ∧
    (∃ (s : State) (h : Hw) (i : Nat) (q : W32) (d : Desc), h = clearSent s.hw ∧ findDesc (slipAt h i) q = some d ∧ ferryFull h i q = true) ∧
    (∃ (s : State) (h : Hw) (i : Nat) (q : W32), h = clearSent s.hw ∧ findDesc (slipAt h i) q = none) ∧
    (∃ (s : State) (h : Hw) (i : Nat) (d : Desc) (a : Nat) (t : HM) (x : Desc), h = clearSent s.hw ∧ t = boltTurn (advanceTo h a, s.mem) i d
     ∧ findDesc (slipAt t.1 i) d.seq = some x ∧ boltWaiting x = true ∧ boltLimit h i d ≤ a) ∧
    (∃ (s : State) (h : Hw) (i : Nat) (d : Desc) (a : Nat) (t : HM) (x : Desc), h = clearSent s.hw ∧ t = boltTurn (advanceTo h a, s.mem) i d
     ∧ findDesc (slipAt t.1 i) d.seq = some x ∧ (boltWaiting x = false ∨ a < boltLimit h i d)) ∧
    (∃ (s : State) (h : Hw) (i : Nat) (d : Desc) (a : Nat) (t : HM), h = clearSent s.hw ∧ t = boltTurn (advanceTo h a, s.mem) i d ∧ findDesc
     (slipAt t.1 i) d.seq = none) ∧
    (∃ (s : State) (h : Hw) (i : Nat) (q : W32), h = clearSent s.hw ∧ h.tiers.misses.find? (fun m => decide (m.slip = i ∧ m.seq = q) &&
     m.transit.isSome) = none) ∧
    (∃ (s : State) (h : Hw) (i : Nat) (q : W32) (k : Miss) (d : Desc) (p : Nat) (o : ObjRec) (r : HM) (t : Hw), h = clearSent s.hw ∧
     h.tiers.misses.find? (fun m => decide (m.slip = i ∧ m.seq = q) && m.transit.isSome) = some k ∧ findDesc (slipAt h i) q = some d ∧ p =
     slipOwner h i ∧ o = boundObj h i d k.obj ∧ NoWait t ∧ readEntry (h, s.mem) (slipDie i) p (o.map + 32 * k.bolt) = (r, .poisoned) ∧ t =
     grantTransit (endDesc (dropMisses r.1 i q) i d 0x01 0)) ∧
    (∃ (s : State) (h : Hw) (i : Nat) (q : W32) (k : Miss) (d : Desc) (p : Nat) (o : ObjRec) (r : HM) (t : Hw) (b : Bad), h = clearSent s.hw
     ∧ h.tiers.misses.find? (fun m => decide (m.slip = i ∧ m.seq = q) && m.transit.isSome) = some k ∧ findDesc (slipAt h i) q = some d ∧ p =
     slipOwner h i ∧ o = boundObj h i d k.obj ∧ NoWait t ∧ readEntry (h, s.mem) (slipDie i) p (o.map + 32 * k.bolt) = (r, .bad b) ∧ t =
     grantTransit (missStop (dropMisses r.1 i q) i d (.bad b))) ∧
    (∃ (s : State) (h : Hw) (i : Nat) (q : W32) (k : Miss) (d : Desc) (p : Nat) (o : ObjRec) (r : HM) (t : Hw) (e : MapEntry), h = clearSent
     s.hw ∧ h.tiers.misses.find? (fun m => decide (m.slip = i ∧ m.seq = q) && m.transit.isSome) = some k ∧ findDesc (slipAt h i) q = some d
     ∧ p = slipOwner h i ∧ o = boundObj h i d k.obj ∧ NoWait t ∧ readEntry (h, s.mem) (slipDie i) p (o.map + 32 * k.bolt) = (r, .ok e) ∧
     mapBad r.1 o e = true ∧ t = grantTransit (haltDesc (dropMisses r.1 i q) i d 0x26)) ∧
    (∃ (s : State) (h : Hw) (i : Nat) (q : W32) (k : Miss) (d : Desc) (p : Nat) (o : ObjRec) (r : HM) (t : Hw) (e : MapEntry), h = clearSent
     s.hw ∧ h.tiers.misses.find? (fun m => decide (m.slip = i ∧ m.seq = q) && m.transit.isSome) = some k ∧ findDesc (slipAt h i) q = some d
     ∧ p = slipOwner h i ∧ o = boundObj h i d k.obj ∧ NoWait t ∧ readEntry (h, s.mem) (slipDie i) p (o.map + 32 * k.bolt) = (r, .ok e) ∧
     mapBad r.1 o e = false ∧ e.state = 3 ∧ t =
     { r.1 with tiers := { r.1.tiers with misses := r.1.tiers.misses.map (fun n => if n = k then { n with waited := true } else n) } }) ∧
    (∃ (s : State) (h : Hw) (i : Nat) (q : W32) (k : Miss) (d : Desc) (p : Nat) (o : ObjRec) (r : HM) (t : Hw) (e : MapEntry) (c : HM) (b :
     Bad), h = clearSent s.hw ∧ h.tiers.misses.find? (fun m => decide (m.slip = i ∧ m.seq = q) && m.transit.isSome) = some k ∧ findDesc
     (slipAt h i) q = some d ∧ p = slipOwner h i ∧ o = boundObj h i d k.obj ∧ NoWait t ∧ readEntry (h, s.mem) (slipDie i) p (o.map + 32 *
     k.bolt) = (r, .ok e) ∧ mapBad r.1 o e = false ∧ e.state ≠ 3 ∧ readBolt r (slipDie i) p o.format e = (c, .error b) ∧ t = grantTransit
     (missStop (dropMisses c.1 i q) i d (.bad b))) ∧
    (∃ (s : State) (h : Hw) (i : Nat) (q : W32) (k : Miss) (d : Desc) (p : Nat) (o : ObjRec) (r : HM) (e : MapEntry) (c : HM) (b : BoltData)
     (w : HM) (f : Hw) (t : Nat), h = clearSent s.hw ∧ h.tiers.misses = [k] ∧ k.slip = i ∧ k.seq = q ∧ k.transit = some t ∧ findDesc (slipAt
     h i) q = some d ∧ p = slipOwner h i ∧ o = boundObj h i d k.obj ∧ readEntry (h, s.mem) (slipDie i) p (o.map + 32 * k.bolt) = (r, .ok e)
     ∧ mapBad r.1 o e = false ∧ e.state ≠ 3 ∧ readBolt r (slipDie i) p o.format e = (c, .ok b) ∧ b.rejected = false ∧ b.pm = 0 ∧ b.off =
     false ∧ writePlain c p (t / 64) 0xFFFF b = (w, .ok) ∧ w.1.tiers.misses = [k] ∧ findDesc (slipAt w.1 i) q = some d ∧ f = fillFor w.1 d
     k.loom k.slot k.obj k.bolt e.version b ∧ findDesc (slipAt f i) q = some d ∧ NoWait f) ∧
    (∃ (s : State) (h : Hw) (i : Nat) (q : W32) (d : Desc) (a : Nat) (x : HM), h = clearSent s.hw ∧ findDesc (slipAt h i) q = some d ∧ 0x14
     ≤ opcode d ∧ opcode d ≤ 0x19 ∧ selPiece h (slipOwner h i) a false = true ∧ poisoned h a = false ∧ (d.phase = .dispatched ∨ boltWaiting
     d = true) ∧ x = releaseFailed (h, s.mem) i d) :=
  ⟨⟨(st {}), _, rfl⟩,
   ⟨(st (wk [at3 [(0, 1, 0x19)]])), _, 5, 3, _, (.boltDrop 5 3), 0x19, _, rfl, rfl, rfl, by simp, (by decide +kernel)⟩,
   ⟨(st (wk [at3 [(0, 1, 0x18)]])), _, 5, 3, _, (.boltDrop 5 3), 0x19, _, rfl, rfl, rfl, by simp, (by decide +kernel)⟩,
   ⟨(st {}), _, { at3 [(0x1A, 1, 3)] with result := leBytes 16 3 }, { w0 := 3, w1 := 0 }, rfl, (by decide +kernel), (by decide +kernel),
     (by decide +kernel), (by decide +kernel), (by decide +kernel)⟩,
   ⟨(st (wk [at3 [(0, 1, 0x14)]])), _, 5, 3, _, rfl, rfl, (by decide +kernel), (by decide +kernel)⟩,
   ⟨(st {}), _, rfl, (by decide +kernel)⟩,
   ⟨(st (wk [at3 [(0, 1, 0x19)]])), _, 5, 3, _, (.boltDrop 5 3), 0x19, _, rfl, rfl, (by decide +kernel), by simp, (by decide +kernel), rfl,
     (by decide +kernel)⟩,
   ⟨(st (wk [at3 [(0, 1, 0x18)]])), _, 5, 3, _, (.boltDrop 5 3), 0x19, rfl, rfl, (by decide +kernel), by simp, (by decide +kernel),
     (by decide +kernel)⟩,
   ⟨(st (wk [at3 [(0, 1, 0x14)]])), _, 5, 3, _, rfl, rfl, (by decide +kernel), (by decide +kernel), (by decide +kernel)⟩,
   ⟨(st (wk [])), _, 5, (at3 [(0, 1, 0x14)]), rfl, (by decide +kernel)⟩,
   ⟨(st (wk [] { tiers := { objects := [(0, { used := true, count := 1, map := 64 })] } })), _, 5, (at3 [(0, 1, 0x15)]), _, _, rfl, rfl,
     rfl, (by decide +kernel), (by decide +kernel), (by decide +kernel), (by decide +kernel)⟩,
   ⟨(st (wk [] { tiers := { objects := [(0, { used := true, count := 1, map := 64 })] } , coh := { poison := [(1, true)] } })), _, 5, (at3
     [(0, 1, 0x14)]), _, _, _, rfl, rfl, rfl, (by decide +kernel), (by decide +kernel), (by decide +kernel), poisoned_of
     (by decide +kernel), (by decide +kernel)⟩,
   ⟨(st (wk [] { tiers := { objects := [(0, { used := true, count := 1, map := 64 })] } })), _, 5, (at3 [(0, 1, 0x14)]), _, _, _,
     { w0 := 0, w1 := 0 }, rfl, rfl, rfl, (by decide +kernel), (by decide +kernel), (by decide +kernel), entry_of (by decide +kernel),
     (by decide +kernel), (by decide +kernel)⟩,
   ⟨(st (wk [] { tiers := { objects := [(0, { used := true, count := 1, map := 64 })] } }) (memAt 64 (ent 3))), _, 5, (at3 [(0, 1, 0x14)]),
     _, _, _, { w0 := ent 3, w1 := 0 }, rfl, rfl, rfl, (by decide +kernel), (by decide +kernel), (by decide +kernel), entry_of
     (by decide +kernel), (by decide +kernel), (by decide +kernel), (by decide +kernel), (by decide +kernel)⟩,
   ⟨(st (wk [] { tiers := { objects := [(0, { used := true, count := 1, map := 64 })] } }) (memAt 64 (ent 2))), _, 5, (at3 [(0, 1, 0x16)]),
     _, _, _, { w0 := ent 2, w1 := 0 }, rfl, rfl, rfl, (by decide +kernel), (by decide +kernel), (by decide +kernel), entry_of
     (by decide +kernel), (by decide +kernel), (by decide +kernel), (by decide +kernel), (by decide +kernel), (by decide +kernel),
     (by decide +kernel)⟩,
   ⟨(st (wk [] { tiers := { objects := [(0, { used := true, count := 1, map := 64 })] } }) (memAt 64 (ent 0))), _, 5, (at3 [(0, 1, 0x14)]),
     _, _, _, { w0 := ent 0, w1 := 0 }, rfl, rfl, rfl, (by decide +kernel), (by decide +kernel), (by decide +kernel), entry_of
     (by decide +kernel), (by decide +kernel), (by decide +kernel), (by decide +kernel), (by decide +kernel), (by decide +kernel)⟩,
   ⟨(st (wk [] { tiers := { objects := [(0, { used := true, count := 1, map := 64 })] } }) (memAt 64 (ent 0))), _, 5, (at3 [(0, 1, 0x16)]),
     _, _, _, { w0 := ent 0, w1 := 0 }, _, rfl, rfl, rfl, (by decide +kernel), (by decide +kernel), (by decide +kernel), entry_of
     (by decide +kernel), (by decide +kernel), (by decide +kernel), (by decide +kernel), (by decide +kernel), (by decide +kernel),
     (by decide +kernel), pair_of (by decide +kernel)⟩,
   ⟨(st (wk [] { tiers := { objects := [(0, { used := true, count := 1, map := 64 })] } })), _, 5,
     { at3 [(0, 1, 0x15), (0x18, 2, 1)] with scratch := 1 }, _, _, _, { w0 := 0, w1 := 0 }, _, rfl, rfl, rfl, (by decide +kernel),
     (by decide +kernel), (by decide +kernel), entry_of (by decide +kernel), (by decide +kernel), rfl, (by decide +kernel)⟩,
   ⟨(st (wk [] { tiers := { objects := [(0, { used := true, count := 1, map := 64 })] } })), _, 5, { at3 [(0, 1, 0x16)] with scratch := 1 },
     _, _, _, { w0 := 0, w1 := 0 }, _, rfl, rfl, rfl, (by decide +kernel), (by decide +kernel), (by decide +kernel), entry_of
     (by decide +kernel), (by decide +kernel), rfl, (by decide +kernel)⟩,
   ⟨(st (wk [] { tiers := { objects := [(0, { used := true, count := 1, map := 64 })] } })), _, 5, { at3 [(0, 1, 0x17)] with scratch := 1 },
     _, _, _, { w0 := 0, w1 := 0 }, _, rfl, rfl, rfl, (by decide +kernel), (by decide +kernel), (by decide +kernel), entry_of
     (by decide +kernel), (by decide +kernel), rfl, (by decide +kernel)⟩,
   ⟨(st (wk [] { tiers := { objects := [(0, { used := true, count := 1, map := 64 })] } })), _, 5, { at3 [(0, 1, 0x18)] with scratch := 1 },
     _, _, _, { w0 := 0, w1 := 0 }, _, rfl, rfl, rfl, (by decide +kernel), (by decide +kernel), (by decide +kernel), entry_of
     (by decide +kernel), (by decide +kernel), rfl, (by decide +kernel)⟩,
   ⟨(st (wk [] { tiers := { objects := [(0, { used := true, count := 1, map := 64 })] } })), _, 5, { at3 [(0, 1, 0x19)] with scratch := 1 },
     _, _, _, { w0 := 0, w1 := 0 }, _, rfl, rfl, rfl, (by decide +kernel), (by decide +kernel), (by decide +kernel), entry_of
     (by decide +kernel), (by decide +kernel), rfl, (by decide +kernel)⟩,
   ⟨(st {}), _, 5, (at3 []), {}, { w0 := ent 1, w1 := 0 }, { bytes := zeros 65536, pm := 0 }, _, rfl, readBolt_empty _ _ _ _ _
     (by decide +kernel) (by decide +kernel), (by decide +kernel), (by decide +kernel), (by decide +kernel), (by decide +kernel),
     (by decide +kernel)⟩,
   ⟨(st {}), _, 5, 3, (.boltDrop 5 3), rfl, (by simp), (by decide +kernel), (by decide +kernel)⟩,
   ⟨fullSt, _, 5, 3, (.boltDrop 5 3), rfl, (by simp), (by decide +kernel)⟩,
   ⟨(st (wk [] { tiers := { objects := [(0, { used := true, count := 1, map := 64 })] }, coh := { poison := [(1, true)] } })), _, 5, (at3
     [(0, 1, 0x14)]), _, _, _, _, rfl, rfl, rfl, (by decide +kernel), (by decide +kernel), (fun e => absurd e (by decide +kernel)),
     poisoned_of (by decide +kernel), rfl⟩,
   ⟨(st (wk [] { tiers := { objects := [(0, { used := true, count := 1, map := 2 ^ 21 })] } })), _, 5, (at3 [(0, 1, 0x14)]), _, _, _,
     (.refused (2 ^ 21)), rfl, rfl, rfl, (by decide +kernel), (by decide +kernel), (fun e => absurd e (by decide +kernel)), bad_of
     (by decide +kernel)⟩,
   ⟨(st (wk [] { tiers := { objects := [(0, { used := true, count := 1, map := 64 })] } }) (memAt 64 (ent 3))), _, 5, (at3 [(0, 1, 0x14)]),
     _, _, _, { w0 := ent 3, w1 := 0 }, rfl, rfl, rfl, (by decide +kernel), (by decide +kernel), (fun e => absurd e (by decide +kernel)),
     entry_of (by decide +kernel), (by decide +kernel), (by decide +kernel), (by decide +kernel), (by decide +kernel), (by decide +kernel)⟩,
   ⟨(st (wk [] { tiers := { objects := [(0, { used := true, count := 1, map := 64 })] } }) (memAt 64 (ent 0 + 64))), _, 5, (at3 [(0, 1,
     0x15), (0x18, 2, 1)]), _, _, _, { w0 := ent 0 + 64, w1 := 0 }, rfl, rfl, rfl, (by decide +kernel), (by decide +kernel), (fun _ =>
     by decide +kernel), entry_of (by decide +kernel), (by decide +kernel), (by decide +kernel), (by decide +kernel), (by decide +kernel),
     (by decide +kernel), (by decide +kernel), (by decide +kernel)⟩,
   ⟨(st (wk [] { tiers := { objects := [(0, { used := true, count := 1, map := 64 })] } }) (memAt 64 (ent 2))), _, 5, (at3 [(0, 1, 0x16)]),
     _, _, _, { w0 := ent 2, w1 := 0 }, rfl, rfl, rfl, (by decide +kernel), (by decide +kernel), (fun e => absurd e (by decide +kernel)),
     entry_of (by decide +kernel), (by decide +kernel), (by decide +kernel), (by decide +kernel), (by decide +kernel), (by decide +kernel),
     (by decide +kernel), (by decide +kernel)⟩,
   ⟨(st
     { wk [] { tiers := { objects := [(0, { used := true, count := 1, map := 64 })] } } with sel := { (wk []).sel with swatches := [(0, { owner := 0, state := .owned, rdOnly := true })] } }
     (memAt 64 (ent 0))), _, 5, (at3 [(0, 1, 0x16)]), _, _, _, { w0 := ent 0, w1 := 0 }, _, _, 64, rfl, rfl, rfl, (by decide +kernel),
     (by decide +kernel), (fun e => absurd e (by decide +kernel)), entry_of (by decide +kernel), (by decide +kernel), (by decide +kernel),
     (by decide +kernel), (by decide +kernel), (by decide +kernel), (by decide +kernel), Prod.mk.eta.symm, (by decide +kernel)⟩,
   ⟨(st (wk [] { tiers := { objects := [(0, { used := true, count := 1, map := 64 })] } }) (memAt 64 (ent 0))), _, 5, (at3 [(0, 1, 0x16)]),
     _, _, _, { w0 := ent 0, w1 := 0 }, _, _, rfl, rfl, rfl, (by decide +kernel), (by decide +kernel), (fun e => absurd e
     (by decide +kernel)), entry_of (by decide +kernel), (by decide +kernel), (by decide +kernel), (by decide +kernel), (by decide +kernel),
     (by decide +kernel), (by decide +kernel), Prod.mk.eta.symm, not_refused (by decide +kernel)⟩,
   ⟨(st (dev [])), _, 5, { at3 [(0, 1, 0x15), (0x18, 2, 1), (0x1C, 1, 1)] with result := leBytes 16 8 }, { w0 := 8, w1 := 4 * 2 ^ 44 / 64 },
     _, _, _, _, _, rfl, rfl, rfl, (by decide +kernel), (by decide +kernel), ok_of (by decide +kernel), (by decide +kernel),
     (by decide +kernel), pair_of (by decide +kernel)⟩,
   ⟨(st {}), _, 5, { at3 [(0x1A, 1, 3)] with result := leBytes 16 3 }, { w0 := 3, w1 := 0 }, _, _, { bytes := [], pm := 0 }, rfl, rfl, rfl,
     (by decide +kernel), (by decide +kernel), (by decide +kernel), (by decide +kernel), (by decide +kernel), (by decide +kernel)⟩,
   ⟨(st deadHw), _, 5, { at3 [(0x1A, 1, 4), (0x20, 8, 6 * 2 ^ 44 / 64)] with result := leBytes 16 515 }, {}, { w0 := 515, w1 := 0 }, 0, _,
     { bytes := zeros 65536, pm := 0 }, (clearSent deadHw, []), (clearSent deadHw, []), 0, 1024, .dead, rfl, (by decide +kernel), rfl,
     (by decide +kernel), (by decide +kernel), (by decide +kernel), (by decide +kernel), (by decide +kernel), (by decide +kernel),
     readHome_empty (by decide +kernel), dead_written _ _ _ rfl (by decide +kernel) (by decide +kernel)⟩,
   ⟨(st offHw), _, 5, { at3 [(0x1A, 1, 1), (0x20, 8, 2 * 2 ^ 44 / 64)] with result := leBytes 16 515 }, { map := 64 },
     { w0 := 515, w1 := 0 }, 0, _, { bytes := zeros 65536, pm := 0 }, (clearSent offHw, []), (clearSent offHw, []), _, .off, _, rfl,
     (by decide +kernel), rfl, (by decide +kernel), (by decide +kernel), (by decide +kernel), (by decide +kernel), (by decide +kernel),
     readHome_empty (by decide +kernel), off_written rfl (by decide +kernel), (by decide +kernel), (fun _ e => nomatch e), Prod.mk.eta.symm⟩,
   ⟨(st
     { wk [] { edges := { ports := [(15, { exists_ := true, up := true, base := 0, limit := 2 })], decoders := [(0, { used := true, first := 6 * 2 ^ 48, count := 1, ports := [0] })] } } with sel := { (wk []).sel with ranges := [{ first := 4 * 2 ^ 48, count := 1, owner := 0 }, { first := 6 * 2 ^ 48, count := 1, owner := 0 }] } }),
     _, 5, { at3 [(0, 1, 0x18)] with result := leBytes 16 (8 + 2 ^ 48 + 2 ^ 64 * (4 * 2 ^ 44 / 64)) },
     { w0 := 8 + 2 ^ 48 + 2 ^ 64 * (4 * 2 ^ 44 / 64), w1 := 6 * 2 ^ 44 / 64 }, _, _, _, _, _, rfl, rfl, rfl, (by decide +kernel),
     (by decide +kernel), (by decide +kernel), (by decide +kernel), (by decide +kernel), (by decide +kernel), ok_of (by decide +kernel),
     pair_of (by decide +kernel)⟩,
   ⟨(st {}), _, 5, { at3 [(0, 1, 0x19)] with result := leBytes 16 8 }, { w0 := 8, w1 := 0 }, _, _, { bytes := [], pm := 0 }, rfl, rfl, rfl,
     (by decide +kernel), (by decide +kernel), (by decide +kernel), (by decide +kernel), (by decide +kernel)⟩,
   ⟨(st (wk [])), _, 5, (at3 [(0, 1, 0x16)]), _, _, 0, _, _, rfl, rfl, rfl, Prod.mk.eta.symm⟩,
   ⟨(st {}), _, (at3 []), 511, 15, 0, rfl, (by decide +kernel), (by decide +kernel), (by decide +kernel)⟩,
   ⟨(st {}), _, { at3 [] with objs := [{ id := 0, record := {}, retired := true }] }, 511, 15, 0, rfl, (by decide +kernel),
     (by decide +kernel), (by decide +kernel)⟩,
   ⟨(st (wk [{ at3 [(0, 1, 0x14)] with phase := .waiting }])), _, 5, 3, _, _, _, rfl, rfl, (by decide +kernel), (by decide +kernel),
     (by decide +kernel), rfl, rfl⟩,
   ⟨(st (wk [{ at3 [(0, 1, 0x14)] with phase := .waiting }])), _, 5, 3, _, _, _, rfl, rfl, (by decide +kernel), (by decide +kernel),
     (by decide +kernel), rfl, rfl⟩,
   ⟨(st (wk [(at3 [(0, 1, 0x14)])])), _, 5, 3, _, rfl, rfl, (by decide +kernel), (by decide +kernel), (by decide +kernel)⟩,
   ⟨(st (dev [at3 [(0, 1, 0x40)]]
     { tiers := { objects := [(0, missObj)], misses := [{ miss0 with waited := true }] }, coh := { poison := [(1, true)] } }) (memAt 64 (ent
     1))), _, 5, 3, (at3 [(0, 1, 0x40)]), { miss0 with waited := true }, _, _, rfl, (by decide +kernel), (by decide +kernel),
     (by decide +kernel), rfl, rfl, rfl, (by decide +kernel), (by decide +kernel)⟩,
   ⟨(st (dev [at3 [(0, 1, 0x40)]] { tiers := { objects := [(0, missObj)], misses := [{ miss0 with waited := true }] } }) (memAt 64 (ent
     3))), _, 5, 3, (at3 [(0, 1, 0x40)]), { miss0 with waited := true }, _, _, { miss0 with waited := true }, rfl, (by decide +kernel),
     (by decide +kernel), (by decide +kernel), rfl, rfl, rfl, (by decide +kernel), (by decide +kernel), (by decide +kernel),
     (by decide +kernel), (by decide +kernel), (by decide +kernel)⟩,
   ⟨fullSt, _, 5, 3, _, rfl, rfl, (by decide +kernel)⟩,
   ⟨(st (wk [])), _, 5, 3, rfl, (by decide +kernel)⟩,
   ⟨(st (wk [{ at3 [(0, 1, 0x14)] with phase := .waiting }] { tiers := { objects := [(0, { used := true, count := 1, map := 64 })] } })
     (memAt 64 (ent 3))), _, 5, { at3 [(0, 1, 0x14)] with phase := .waiting }, 1000000, _, _, rfl, rfl, some_of (by decide +kernel),
     (by decide +kernel), (by decide +kernel)⟩,
   ⟨(st (wk [{ at3 [(0, 1, 0x14)] with phase := .waiting }] { tiers := { objects := [(0, { used := true, count := 1, map := 64 })] } })
     (memAt 64 (ent 3))), _, 5, { at3 [(0, 1, 0x14)] with phase := .waiting, since := 1 }, 0, _, _, rfl, rfl, some_of (by decide +kernel),
     (by decide +kernel)⟩,
   ⟨(st (wk [])), _, 5, { at3 [(0, 1, 0x14)] with phase := .waiting }, 0, _, rfl, rfl, (by decide +kernel)⟩,
   ⟨(st {}), _, 5, 3, rfl, (by decide +kernel)⟩,
   ⟨(st (dev [at3 [(0, 1, 0x40)]] { tiers := { objects := [(0, missObj)], misses := [miss0] }, coh := { poison := [(1, true)] } }) (memAt 64
     (ent 1))), _, 5, 3, miss0, (at3 [(0, 1, 0x40)]), _, _, _, _, rfl, rfl, (by decide +kernel), rfl, rfl, (by decide +kernel), poisoned_of
     (by decide +kernel), rfl⟩,
   ⟨(st (dev [at3 [(0, 1, 0x40)]] { tiers := { objects := [(0, { missObj with map := 2 ^ 21 })], misses := [miss0] } }) (memAt 64 (ent 1))),
     _, 5, 3, miss0, (at3 [(0, 1, 0x40)]), _, _, _, _, (.refused (2 ^ 21)), rfl, rfl, (by decide +kernel), rfl, rfl, (by decide +kernel),
     bad_of (by decide +kernel), rfl⟩,
   ⟨(st (dev [at3 [(0, 1, 0x40)]] { tiers := { objects := [(0, missObj)], misses := [miss0] } }) ), _, 5, 3, miss0, (at3 [(0, 1, 0x40)]), _,
     _, _, _, { w0 := 0, w1 := 0 }, rfl, rfl, (by decide +kernel), rfl, rfl, (by decide +kernel), entry_of (by decide +kernel),
     (by decide +kernel), rfl⟩,
   ⟨(st (dev [at3 [(0, 1, 0x40)]] { tiers := { objects := [(0, missObj)], misses := [miss0] } }) (memAt 64 (ent 3))), _, 5, 3, miss0, (at3
     [(0, 1, 0x40)]), _, _, _, _, { w0 := ent 3, w1 := 0 }, rfl, rfl, (by decide +kernel), rfl, rfl, (by decide +kernel), entry_of
     (by decide +kernel), (by decide +kernel), (by decide +kernel), rfl⟩,
   ⟨(st (dev [at3 [(0, 1, 0x40)]] { tiers := { objects := [(0, missObj)], misses := [miss0] } }) (memAt 64 (ent 0 + 2 ^ 79))), _, 5, 3,
     miss0, (at3 [(0, 1, 0x40)]), _, _, _, _, { w0 := ent 0 + 2 ^ 79, w1 := 0 }, _, (.refused (2 ^ 21)), rfl, rfl, (by decide +kernel), rfl,
     rfl, (by decide +kernel), entry_of (by decide +kernel), (by decide +kernel), (by decide +kernel), err_of (by decide +kernel), rfl⟩,
   ⟨missSt, _, 5, 3, miss0, (at3 [(0, 1, 0x40)]), 0, missObj, missRead, { w0 := ent 1, w1 := 0 }, missRead,
     { bytes := zeros 65536, pm := 0 }, missRead, _, (4 * 2 ^ 44), rfl, (by decide +kernel), (by decide +kernel), (by decide +kernel),
     (by decide +kernel), (by decide +kernel), (by decide +kernel), (by decide +kernel), entry_of (by decide +kernel), (by decide +kernel),
     (by decide +kernel), readBolt_empty _ _ _ _ _ (by decide +kernel) (by decide +kernel), (by decide +kernel), (by decide +kernel),
     (by decide +kernel), miss_written, (by decide +kernel), (by decide +kernel), rfl, (by decide +kernel), (by decide +kernel)⟩,
   ⟨(st (wk [(at3 [(0, 1, 0x14)])])), _, 5, 3, _, 64, _, rfl, rfl, (by decide +kernel), (by decide +kernel), (by decide +kernel),
     (by decide +kernel), (by decide +kernel), rfl⟩⟩

theorem wit_WeaveRows :
    (∃ (s : State) (h : Hw), h = clearSent s.hw) ∧
    (∃ (s : State) (h : Hw) (i : Nat) (q : BitVec 32) (d : Desc), h = clearSent s.hw ∧ runnable h i q = some d ∧ opcode d = 0x40 ∧ runAt h i
     q = none ∧ weaveCheck h i d ≠ 0) ∧
    (∃ (s : State) (h : Hw) (i : Nat) (q : BitVec 32) (d : Desc) (m : Nat), h = clearSent s.hw ∧ runnable h i q = some d ∧ opcode d = 0x40 ∧
     runAt h i q = none ∧ weaveCheck h i d = 0 ∧ m ∈ wMembers d ∧ unitFenced h 3 (m / 4) = true) ∧
    (∃ (s : State) (h : Hw) (i : Nat) (q : BitVec 32) (d : Desc) (m : Nat), h = clearSent s.hw ∧ runnable h i q = some d ∧ opcode d = 0x40 ∧
     runAt h i q = none ∧ weaveCheck h i d = 0 ∧ ((∀ m, m ∈ wMembers d → unitFenced h 3 (m / 4) = false)) ∧ m ∈ wMembers d ∧ (islandAt h
     { kind := .quad, idx := m / 4 }).power ≠ .open) ∧
    (∃ (s : State) (h : Hw) (i : Nat) (q : BitVec 32) (d : Desc), h = clearSent s.hw ∧ runnable h i q = some d ∧ runAt h i q ≠ none) ∧
    (∃ (s : State) (h : Hw) (d : Desc), h = clearSent s.hw ∧ wGang d % gangSize (wShape d) ≠ 0) ∧
    (∃ (s : State) (h : Hw) (i : Nat) (q : BitVec 32) (r : Run) (d : Desc) (g : Hw), h = clearSent s.hw ∧ runAt h i q = some r ∧ findDesc
     (slipAt h i) q = some d ∧ opcode d = 0x40 ∧ grantedRun h r = true ∧ 0 ∉ busyBanks h r ∧ g = passOver h r) ∧
    (∃ (s : State) (h : Hw) (i : Nat) (q : BitVec 32) (r : Run) (d : Desc), h = clearSent s.hw ∧ runAt h i q = some r ∧ findDesc (slipAt h
     i) q = some d ∧ opcode d = 0x40 ∧ ((grantedRun h r = false ∨ (0 ∈ busyBanks h r ∧ 1 ∈ busyBanks h r)))) ∧
    (∃ (s : State) (h : Hw) (i : Nat) (q : BitVec 32) (r : Run) (d : Desc) (t : Nat) (g : Hw) (b : List Nat × Bool) (x : Hw × Run), h =
     clearSent s.hw ∧ runAt h i q = some r ∧ findDesc (slipAt h i) q = some d ∧ opcode d = 0x40 ∧ r.running = true ∧ t = max h.tb.now
     (r.start + quadNs h (wGang d / 4) (stepCycles d + (if r.fresh then bcastCycles (wShape d) else 0))) ∧ t ≤ r.start + 10 * leAt d.bytes
     0x1E 2 ∧ g = advanceTo h t ∧ wShape d = 0 ∧ r.bank = 0 ∧ b = memberBank g d (r.next - 1) 0 ∧ (x = restamp
     { g with weaves := { g.weaves with looms := tabMod {} g.weaves.looms (wGang d) (fun l => { l with bank0 := b.1 }) } }
     { r with running := false, cyc := passBegin d r + stepCycles d + 1, swaps := [passBegin d r + stepCycles d + 1, r.swaps.getD 1 0], flags := r.flags ||| flag b.2, drains := r.drains ++ [{ bank := 0, pass := r.next - 1, since := t, rows := (passPoison g d (r.next - 1)).1, cols := (passPoison g d (r.next - 1)).2.1, cells := (passPoison g d (r.next - 1)).2.2 }] })) ∧
    (∃ (s : State) (h : Hw) (i : Nat) (q : BitVec 32) (r : Run) (d : Desc), h = clearSent s.hw ∧ runAt h i q = some r ∧ findDesc (slipAt h
     i) q = some d ∧ opcode d = 0x40 ∧ r.running = false) ∧
    (∃ (s : State) (h : Hw) (i : Nat) (q : BitVec 32) (r : Run) (d : Desc), h = clearSent s.hw ∧ runAt h i q = some r ∧ findDesc (slipAt h
     i) q = some d ∧ opcode d = 0x40 ∧ r.drains = []) ∧
    (∃ (s : State) (h : Hw) (i : Nat) (q : BitVec 32) (r : Run) (d : Desc) (k : Drain) (ks : List Drain) (g : Hw) (x : Hw × Run × Bool), h =
     clearSent s.hw ∧ runAt h i q = some r ∧ findDesc (slipAt h i) q = some d ∧ opcode d = 0x40 ∧ r.drains = k :: ks ∧ g = advanceTo h
     (k.since + quadNs h (wGang d / 4) 72) ∧ x = drainOne g d r ∧ x.2.1.done ≠ x.2.1.total) ∧
    (∃ (s : State) (h : Hw) (i : Nat) (q : BitVec 32) (r : Run) (d : Desc) (k : Drain) (ks : List Drain) (g : Hw) (x : Hw × Run × Bool) (e :
     Desc), h = clearSent s.hw ∧ runAt h i q = some r ∧ findDesc (slipAt h i) q = some d ∧ opcode d = 0x40 ∧ r.drains = k :: ks ∧ g =
     advanceTo h (k.since + quadNs h (wGang d / 4) 72) ∧ x = drainOne g d r ∧ x.2.1.done = x.2.1.total ∧ e =
     { d with poison := d.poison || x.2.1.poison, result := weaveResult x.2.1 }) ∧
    (∃ (s : State) (h : Hw) (i : Nat) (q : BitVec 32) (r : Run) (d : Desc) (x : Hw × Run) (g : Hw), h = clearSent s.hw ∧ runAt h i q = some
     r ∧ findDesc (slipAt h i) q = some d ∧ opcode d = 0x40 ∧ r.running = true ∧ r.bank = 0 ∧ x = drainAll 3 (advanceTo h (r.start + 10 *
     leAt d.bytes 0x1E 2)) d r ∧ (g =
     { x.1 with weaves := { x.1.weaves with looms := (wMembers d).foldl (fun t m => tabMod {} t m (fun l => { l with bank0 := [] })) x.1.weaves.looms } })) ∧
    (∃ (s : State) (h : Hw), h = clearSent s.hw) ∧
    (∃ (s : State) (h : Hw) (a : Int) (t : Int), h = clearSent s.hw ∧ 2 ^ 31 - 1 < a + t) ∧
    (∃ (s : State) (h : Hw) (a : Int) (t : Int), h = clearSent s.hw ∧ a + t < -(2 ^ 31)) ∧
    (∃ (s : State) (h : Hw) (a : Int) (t : Int), h = clearSent s.hw ∧ -(2 ^ 31) ≤ a + t ∧ a + t ≤ 2 ^ 31 - 1) ∧
    (∃ (s : State) (h : Hw) (i : Nat) (q : W32) (d : Desc) (e : MissStop) (r : HM), h = clearSent s.hw ∧ runnable h i q = some d ∧ opcode d
     = 0x40 ∧ runAt h i q = none ∧ weaveCheck h i d = 0 ∧ (∀ m, m ∈ wMembers d → unitFenced h 3 (m / 4) = false) ∧ (∀ m, m ∈ wMembers d →
     (islandAt h { kind := .quad, idx := m / 4 }).power = .open) ∧ missesFor (h, s.mem) i d = (r, .error e) ∧ NoWait r.1) ∧
    (∃ (s : State) (h : Hw) (i : Nat) (q : W32) (d : Desc) (r : HM) (ms : List Miss) (g : Hw), h = clearSent s.hw ∧ runnable h i q = some d
     ∧ opcode d = 0x40 ∧ runAt h i q = none ∧ weaveCheck h i d = 0 ∧ (∀ m, m ∈ wMembers d → unitFenced h 3 (m / 4) = false) ∧ (∀ m, m ∈
     wMembers d → (islandAt h { kind := .quad, idx := m / 4 }).power = .open) ∧ missesFor (h, s.mem) i d = (r, .ok ms) ∧ NoWait r.1 ∧ g =
     addRunFor (putDesc r.1 i { d with begun := true })
     { slip := i, seq := q, units := wMembers d, cls := (slipAt r.1 i).cls, total := wPasses d }) ∧
    (∃ (s : State) (h : Hw) (i : Nat) (q : W32), h = clearSent s.hw ∧ (runnable h i q = none ∨ runAt h i q ≠ none)) ∧
    (∃ (s : State) (h : Hw) (i : Nat) (q : W32), h = clearSent s.hw ∧ (runAt h i q = none ∨ findDesc (slipAt h i) q = none)) ∧
    (∃ (s : State) (h : Hw) (k : Nat), h = clearSent s.hw ∧ k ∈ [2, 7]) ∧
    (∃ (s : State) (h : Hw) (i : Nat) (q : W32) (r : Run) (d : Desc) (g : Hw) (b : Nat), h = clearSent s.hw ∧ runAt h i q = some r ∧
     findDesc (slipAt h i) q = some d ∧ opcode d = 0x40 ∧ grantedRun h r = true ∧ ((b = 0 ∧ 0 ∉ busyBanks h r) ∨ (b = 1 ∧ 0 ∈ busyBanks h r
     ∧ 1 ∉ busyBanks h r)) ∧ g = passOver h r) ∧
    (∃ (s : State) (h : Hw) (i : Nat) (q : W32) (r : Run) (d : Desc) (x : Hw × Run) (g : Hw), h = clearSent s.hw ∧ runAt h i q = some r ∧
     findDesc (slipAt h i) q = some d ∧ opcode d = 0x40 ∧ r.running = true ∧ x = drainAll 3 (advanceTo h (r.start + 10 * leAt d.bytes 0x1E
     2)) d r ∧ g =
     { x.1 with weaves := { x.1.weaves with looms := (wMembers d).foldl (fun t m => tabMod {} t m (fun l => if r.bank = 0 then { l with bank0 := [] } else { l with bank1 := [] })) x.1.weaves.looms } }) ∧
    (∃ (s : State) (h : Hw) (a : ℤ) (t : ℤ) (k : Nat), h = clearSent s.hw ∧ k ∈ [0, 3, 4, 5, 6] ∧ 2 ^ 31 - 1 < a + t) ∧
    (∃ (s : State) (h : Hw) (a : ℤ) (t : ℤ) (k : Nat), h = clearSent s.hw ∧ k ∈ [0, 3, 4, 5, 6] ∧ -(2 ^ 31) ≤ a + t ∧ a + t ≤ 2 ^ 31 - 1) ∧
    (∃ (s : State) (h : Hw) (i : Nat) (q : W32) (r : Run) (d : Desc) (t : Nat) (g : Hw) (f : Tab Loom × Bool) (y : Hw) (p : Bool) (x : Hw ×
     Run), h = clearSent s.hw ∧ runAt h i q = some r ∧ findDesc (slipAt h i) q = some d ∧ opcode d = 0x40 ∧ r.running = true ∧ t = max
     h.tb.now (r.start + quadNs h (wGang d / 4) (stepCycles d + (if r.fresh then bcastCycles (wShape d) else 0))) ∧ t ≤ r.start + 10 * leAt
     d.bytes 0x1E 2 ∧ g = advanceTo h t ∧ f = (List.range (gangSize (wShape d))).foldl (fun (acc : Tab Loom × Bool) m => (tabMod {} acc.1
     (wGang d + m) (fun l => if r.bank = 0 then { l with bank0 := (memberBank g d (r.next - 1) m).1 } else
     { l with bank1 := (memberBank g d (r.next - 1) m).1 }), acc.2 || (memberBank g d (r.next - 1) m).2)) (g.weaves.looms, false) ∧ y =
     { g with weaves := { g.weaves with looms := f.1 } } ∧ x = restamp (if p then corrected y 3 (wGang d / 4) (wGang d) none else y)
     { r with running := false, cyc := passBegin d r + stepCycles d + 1, swaps := if r.bank = 0 then [passBegin d r + stepCycles d + 1, r.swaps.getD 1 0] else [r.swaps.getD 0 0, passBegin d r + stepCycles d + 1], flags := r.flags ||| flag f.2, drains := r.drains ++ [{ bank := r.bank, pass := r.next - 1, since := t, rows := (passPoison g d (r.next - 1)).1, cols := (passPoison g d (r.next - 1)).2.1, cells := (passPoison g d (r.next - 1)).2.2, all := p }] }) ∧
    (∃ (s : State) (h : Hw) (i : Nat) (q : W32) (d : Desc), h = clearSent s.hw ∧ runnable h i q = some d ∧ opcode d ≠ 0x40) ∧
    (∃ (s : State) (h : Hw) (i : Nat) (q : W32) (r : Run) (d : Desc), h = clearSent s.hw ∧ runAt h i q = some r ∧ findDesc (slipAt h i) q =
     some d ∧ opcode d ≠ 0x40) ∧
    (∃ (s : State) (h : Hw) (i : Nat) (q : W32) (r : Run) (d : Desc) (t : Nat), h = clearSent s.hw ∧ runAt h i q = some r ∧ findDesc (slipAt
     h i) q = some d ∧ opcode d = 0x40 ∧ r.running = true ∧ t = max h.tb.now (r.start + quadNs h (wGang d / 4) (stepCycles d + (if r.fresh
     then bcastCycles (wShape d) else 0))) ∧ r.start + 10 * leAt d.bytes 0x1E 2 < t) ∧
    (∃ (s : State) (h : Hw) (a : FV) (b : FV) (k : Nat), h = clearSent s.hw ∧ k ∈ [0, 3, 4] ∧ a ≠ .nan ∧ b ≠ .nan) ∧
    (∃ (s : State) (h : Hw) (a : ℤ) (t : ℤ) (k : Nat), h = clearSent s.hw ∧ k ∈ [0, 3, 4, 5, 6] ∧ a + t < -(2 ^ 31)) :=
  ⟨⟨(st {}), _, rfl⟩,
   ⟨(st (wk [at3 [(0, 1, 0x40)]])), _, 5, 3, _, rfl, rfl, (by decide +kernel), (by decide +kernel), (by decide +kernel)⟩,
   ⟨(st (wk [at3 [(0, 1, 0x40), (0x14, 1, 1), (0x15, 1, 1), (0x16, 1, 13), (0x18, 4, 32), (0x1C, 2, 1), (0x1E, 2, 2000)]]
     { faults := { fences := [{ scope := .partition, part := 0 }] } })), _, 5, 3, _, 0, rfl, rfl, (by decide +kernel), (by decide +kernel),
     (by decide +kernel), (by decide +kernel), (by decide +kernel)⟩,
   ⟨(st (wk [at3 [(0, 1, 0x40), (0x14, 1, 1), (0x15, 1, 1), (0x16, 1, 13), (0x18, 4, 32), (0x1C, 2, 1), (0x1E, 2, 2000)]]
     { islands := [(islandKey { kind := .quad, idx := 0 }, { power := .gated })] })), _, 5, 3, _, 0, rfl, rfl, (by decide +kernel),
     (by decide +kernel), (by decide +kernel), (by decide +kernel), (by decide +kernel), (by decide +kernel)⟩,
   ⟨(st (wk [at3 [(0, 1, 0x40), (0x14, 1, 1), (0x15, 1, 1), (0x16, 1, 13), (0x18, 4, 32), (0x1C, 2, 1), (0x1E, 2, 2000)]]
     { weaves := { runs := [{ slip := 5, seq := 3, units := [0], cls := 3, total := 2 }] } })), _, 5, 3, _, rfl, rfl, (by decide +kernel)⟩,
   ⟨(st {}), _, (at3 [(0x10, 2, 1), (0x12, 1, 1)]), rfl, (by decide +kernel)⟩,
   ⟨(st (wk [at3 [(0, 1, 0x40), (0x14, 1, 1), (0x15, 1, 1), (0x16, 1, 13), (0x18, 4, 32), (0x1C, 2, 1), (0x1E, 2, 2000)]]
     { weaves := { runs := [{ slip := 5, seq := 3, units := [0], cls := 3, total := 2 }] } })), _, 5, 3, _, _, _, rfl, rfl, rfl,
     (by decide +kernel), (by decide +kernel), (by decide +kernel), rfl⟩,
   ⟨(st (wk [at3 [(0, 1, 0x40), (0x14, 1, 1), (0x15, 1, 1), (0x16, 1, 13), (0x18, 4, 32), (0x1C, 2, 1), (0x1E, 2, 2000)]]
     { weaves := { runs := [{ slip := 5, seq := 3, units := [0], cls := 3, total := 2, next := 2, drains := [{ bank := 0, pass := 0 }, { bank := 1, pass := 1 }] }] } })),
     _, 5, 3, _, _, rfl, rfl, rfl, (by decide +kernel), (by decide +kernel)⟩,
   ⟨(st (wk [at3 [(0, 1, 0x40), (0x14, 1, 1), (0x15, 1, 1), (0x16, 1, 13), (0x18, 4, 32), (0x1C, 2, 1), (0x1E, 2, 2000)]]
     { weaves := { runs := [{ slip := 5, seq := 3, units := [0], cls := 3, total := 2, next := 1, running := true }] } })), _, 5, 3, _, _,
     _, _, _, _, rfl, rfl, rfl, (by decide +kernel), (by decide +kernel), rfl, (by decide +kernel), rfl, (by decide +kernel),
     (by decide +kernel), rfl, rfl⟩,
   ⟨(st (wk [at3 [(0, 1, 0x40), (0x14, 1, 1), (0x15, 1, 1), (0x16, 1, 13), (0x18, 4, 32), (0x1C, 2, 1), (0x1E, 2, 2000)]]
     { weaves := { runs := [{ slip := 5, seq := 3, units := [0], cls := 3, total := 2 }] } })), _, 5, 3, _, _, rfl, rfl, rfl,
     (by decide +kernel), (by decide +kernel)⟩,
   ⟨(st (wk [at3 [(0, 1, 0x40), (0x14, 1, 1), (0x15, 1, 1), (0x16, 1, 13), (0x18, 4, 32), (0x1C, 2, 1), (0x1E, 2, 2000)]]
     { weaves := { runs := [{ slip := 5, seq := 3, units := [0], cls := 3, total := 2 }] } })), _, 5, 3, _, _, rfl, rfl, rfl,
     (by decide +kernel), (by decide +kernel)⟩,
   ⟨(st (wk [at3 [(0, 1, 0x40), (0x14, 1, 1), (0x15, 1, 1), (0x16, 1, 13), (0x18, 4, 32), (0x1C, 2, 1), (0x1E, 2, 2000)]]
     { weaves := { runs := [{ slip := 5, seq := 3, units := [0], cls := 3, total := 2, next := 1, drains := [{ bank := 0, pass := 0 }] }] } })),
     _, 5, 3, _, _, { bank := 0, pass := 0 }, [], _, _, rfl, rfl, rfl, (by decide +kernel), (by decide +kernel), rfl, rfl,
     (by decide +kernel)⟩,
   ⟨(st (wk [at3 [(0, 1, 0x40), (0x14, 1, 1), (0x15, 1, 1), (0x16, 1, 13), (0x18, 4, 32), (0x1C, 2, 1), (0x1E, 2, 2000)]]
     { weaves := { runs := [{ slip := 5, seq := 3, units := [0], cls := 3, total := 1, next := 1, drains := [{ bank := 0, pass := 0 }] }] } })),
     _, 5, 3, _, _, { bank := 0, pass := 0 }, [], _, _, _, rfl, rfl, rfl, (by decide +kernel), (by decide +kernel), rfl, rfl,
     (by decide +kernel), rfl⟩,
   ⟨(st (wk [at3 [(0, 1, 0x40), (0x14, 1, 1), (0x15, 1, 1), (0x16, 1, 13), (0x18, 4, 32), (0x1C, 2, 1), (0x1E, 2, 2000)]]
     { weaves := { runs := [{ slip := 5, seq := 3, units := [0], cls := 3, total := 2, next := 1, running := true }] } })), _, 5, 3, _, _,
     _, _, rfl, rfl, rfl, (by decide +kernel), (by decide +kernel), (by decide +kernel), rfl, rfl⟩,
   ⟨(st {}), _, rfl⟩,
   ⟨(st {}), _, (2 ^ 31 - 1), 1, rfl, (by decide +kernel)⟩,
   ⟨(st {}), _, (-(2 ^ 31)), -1, rfl, (by decide +kernel)⟩,
   ⟨(st {}), _, (2 ^ 31 - 1), 0, rfl, (by decide +kernel), (by decide +kernel)⟩,
   ⟨(st (wk [at3 [(0, 1, 0x40), (0x14, 1, 1), (0x15, 1, 1), (0x16, 1, 13), (0x18, 4, 32), (0x1C, 2, 1), (0x1E, 2, 2000), (0x68, 8, 1)]])),
     _, 5, 3, _, .unknown, _, rfl, rfl, (by decide +kernel), (by decide +kernel), (by decide +kernel), (by decide +kernel),
     (by decide +kernel), misses_unknown (by decide +kernel), (by decide +kernel)⟩,
   ⟨(st (wk [at3 [(0, 1, 0x40), (0x14, 1, 1), (0x15, 1, 1), (0x16, 1, 13), (0x18, 4, 32), (0x1C, 2, 1), (0x1E, 2, 2000)]])), _, 5, 3, _, _,
     [], _, rfl, rfl, (by decide +kernel), (by decide +kernel), (by decide +kernel), (by decide +kernel), (by decide +kernel), misses_none
     (by decide +kernel), (by decide +kernel), rfl⟩,
   ⟨(st {}), _, 5, 3, rfl, (by decide +kernel)⟩,
   ⟨(st {}), _, 5, 3, rfl, (by decide +kernel)⟩,
   ⟨(st (wk [at3 [(0, 1, 0x40), (0x14, 1, 1), (0x15, 1, 1), (0x16, 1, 13), (0x18, 4, 32), (0x1C, 2, 1), (0x1E, 2, 2000)]]
     { weaves := { runs := [{ slip := 5, seq := 3, units := [0], cls := 3, total := 2, next := 1, drains := [{ bank := 0, pass := 0 }] }] } })),
     _, 2, rfl, (by decide +kernel)⟩,
   ⟨(st (wk [at3 [(0, 1, 0x40), (0x14, 1, 1), (0x15, 1, 1), (0x16, 1, 13), (0x18, 4, 32), (0x1C, 2, 1), (0x1E, 2, 2000)]]
     { weaves := { runs := [{ slip := 5, seq := 3, units := [0], cls := 3, total := 2 }] } })), _, 5, 3, _, _, _, 0, rfl, rfl, rfl,
     (by decide +kernel), (by decide +kernel), (by decide +kernel), rfl⟩,
   ⟨(st (wk [at3 [(0, 1, 0x40), (0x14, 1, 1), (0x15, 1, 1), (0x16, 1, 13), (0x18, 4, 32), (0x1C, 2, 1), (0x1E, 2, 2000)]]
     { weaves := { runs := [{ slip := 5, seq := 3, units := [0], cls := 3, total := 2, next := 1, running := true }] } })), _, 5, 3, _, _,
     _, _, rfl, rfl, rfl, (by decide +kernel), (by decide +kernel), rfl, rfl⟩,
   ⟨(st {}), _, (2 ^ 31 - 1), 1, 0, rfl, (by decide +kernel), (by decide +kernel)⟩,
   ⟨(st {}), _, (2 ^ 31 - 1), -1, 0, rfl, (by decide +kernel), (by decide +kernel), (by decide +kernel)⟩,
   ⟨(st (wk [at3 [(0, 1, 0x40), (0x14, 1, 1), (0x15, 1, 1), (0x16, 1, 13), (0x18, 4, 32), (0x1C, 2, 1), (0x1E, 2, 2000)]]
     { weaves := { runs := [{ slip := 5, seq := 3, units := [0], cls := 3, total := 2, next := 1, running := true }] } })), _, 5, 3, _, _,
     _, _, _, _, false, _, rfl, rfl, rfl, (by decide +kernel), (by decide +kernel), rfl, (by decide +kernel), rfl, rfl, rfl, rfl⟩,
   ⟨(st (wk [at3 [(0, 1, 0x41), (0x14, 1, 1), (0x15, 1, 1), (0x16, 1, 13), (0x18, 4, 32), (0x1C, 2, 1), (0x1E, 2, 2000)]])), _, 5, 3, _,
     rfl, rfl, (by decide +kernel)⟩,
   ⟨(st (wk [at3 [(0, 1, 0x41), (0x14, 1, 1), (0x15, 1, 1), (0x16, 1, 13), (0x18, 4, 32), (0x1C, 2, 1), (0x1E, 2, 2000)]]
     { weaves := { runs := [{ slip := 5, seq := 3, units := [0], cls := 3, total := 2, next := 1, running := true }] } })), _, 5, 3, _, _,
     rfl, rfl, rfl, (by decide +kernel)⟩,
   ⟨(st (wk [at3 [(0, 1, 0x40), (0x14, 1, 1), (0x15, 1, 1), (0x16, 1, 13), (0x18, 4, 32), (0x1C, 2, 1), (0x1E, 2, 0)]]
     { weaves := { runs := [{ slip := 5, seq := 3, units := [0], cls := 3, total := 2, next := 1, running := true }] } })), _, 5, 3, _, _,
     _, rfl, rfl, rfl, (by decide +kernel), (by decide +kernel), rfl, (by decide +kernel)⟩,
   ⟨(st {}), _, (.fin false 1 0), (.fin true 1 0), 0, rfl, (by decide +kernel), (by decide +kernel), (by decide +kernel)⟩,
   ⟨(st {}), _, (-(2 ^ 31)), (-1), 0, rfl, (by decide +kernel), (by decide +kernel)⟩⟩

theorem wit_FinisherRows :
    (∃ (s : State) (h : Hw) (i : Nat) (q : BitVec 32) (d : Desc) (c : Instr) (op : Nat), h = clearSent s.hw ∧ runnable h i q = some d ∧
     runAt h i q = none ∧ (c, op) ∈ [(Instr.map i q, 0x50), (.reduce i q, 0x51), (.softmax i q, 0x52), (.norm i q, 0x53), (.select i q,
     0x54), (.quant i q, 0x55), (.dequant i q, 0x56), (.sample i q, 0x57)] ∧ opcode d ≠ op) ∧
    (∃ (s : State) (h : Hw) (i : Nat) (q : BitVec 32) (d : Desc) (c : Instr) (op : Nat), h = clearSent s.hw ∧ runnable h i q = some d ∧
     runAt h i q = none ∧ (c, op) ∈ [(Instr.map i q, 0x50), (.reduce i q, 0x51), (.softmax i q, 0x52), (.norm i q, 0x53), (.select i q,
     0x54), (.quant i q, 0x55), (.dequant i q, 0x56), (.sample i q, 0x57)] ∧ opcode d = op ∧ finCheck h i d ≠ 0) ∧
    (∃ (s : State) (h : Hw) (i : Nat) (q : BitVec 32) (d : Desc) (c : Instr) (op : Nat), h = clearSent s.hw ∧ runnable h i q = some d ∧
     runAt h i q = none ∧ (c, op) ∈ [(Instr.map i q, 0x50), (.reduce i q, 0x51), (.softmax i q, 0x52), (.norm i q, 0x53), (.select i q,
     0x54), (.quant i q, 0x55), (.dequant i q, 0x56), (.sample i q, 0x57)] ∧ opcode d = op ∧ finCheck h i d = 0 ∧ unitFenced h 3 (fQuad d) =
     true) ∧
    (∃ (s : State) (h : Hw) (i : Nat) (q : BitVec 32) (d : Desc) (c : Instr) (op : Nat), h = clearSent s.hw ∧ runnable h i q = some d ∧
     runAt h i q = none ∧ (c, op) ∈ [(Instr.map i q, 0x50), (.reduce i q, 0x51), (.softmax i q, 0x52), (.norm i q, 0x53), (.select i q,
     0x54), (.quant i q, 0x55), (.dequant i q, 0x56), (.sample i q, 0x57)] ∧ opcode d = op ∧ finCheck h i d = 0 ∧ unitFenced h 3 (fQuad d) =
     false ∧ (islandAt h { kind := .quad, idx := fQuad d }).power ≠ .open) ∧
    (∃ (s : State) (h : Hw) (i : Nat) (q : BitVec 32) (d : Desc) (c : Instr) (op : Nat), h = clearSent s.hw ∧ runnable h i q = some d ∧
     runAt h i q = none ∧ (c, op) ∈ [(Instr.map i q, 0x50), (.reduce i q, 0x51), (.softmax i q, 0x52), (.norm i q, 0x53), (.select i q,
     0x54), (.quant i q, 0x55), (.dequant i q, 0x56), (.sample i q, 0x57)] ∧ opcode d = op ∧ finCheck h i d = 0 ∧ unitFenced h 3 (fQuad d) =
     false ∧ (islandAt h { kind := .quad, idx := fQuad d }).power = .open) ∧
    (∃ (s : State) (h : Hw) (i : Nat) (q : BitVec 32) (d : Desc), ∃ x, h = clearSent s.hw ∧ runnable h i q = some d ∧ runAt h i q = none ∧ x
     = ledgerAt h (vLedger d) ∧ opcode d ≠ 0x78) ∧
    (∃ (s : State) (h : Hw) (i : Nat) (q : BitVec 32) (d : Desc) (x : Ledger), h = clearSent s.hw ∧ runnable h i q = some d ∧ runAt h i q =
     none ∧ x = ledgerAt h (vLedger d) ∧ opcode d = 0x78 ∧ verifyCheck h i d ≠ 0) ∧
    (∃ (s : State) (h : Hw) (i : Nat) (q : BitVec 32) (d : Desc) (x : Ledger), h = clearSent s.hw ∧ runnable h i q = some d ∧ runAt h i q =
     none ∧ x = ledgerAt h (vLedger d) ∧ opcode d = 0x78 ∧ verifyCheck h i d = 0 ∧ x.poison ≠ 0) ∧
    (∃ (s : State) (h : Hw) (i : Nat) (q : BitVec 32) (d : Desc) (x : Ledger), h = clearSent s.hw ∧ runnable h i q = some d ∧ runAt h i q =
     none ∧ x = ledgerAt h (vLedger d) ∧ opcode d = 0x78 ∧ verifyCheck h i d = 0 ∧ x.poison = 0 ∧ unitFenced h 3 (fQuad d) = true) ∧
    (∃ (s : State) (h : Hw) (i : Nat) (q : BitVec 32) (d : Desc) (x : Ledger), h = clearSent s.hw ∧ runnable h i q = some d ∧ runAt h i q =
     none ∧ x = ledgerAt h (vLedger d) ∧ opcode d = 0x78 ∧ verifyCheck h i d = 0 ∧ x.poison = 0 ∧ unitFenced h 3 (fQuad d) = false ∧
     (islandAt h { kind := .quad, idx := fQuad d }).power = .open) ∧
    (∃ (s : State) (h : Hw) (i : Nat) (q : BitVec 32) (r : Run) (d : Desc), h = clearSent s.hw ∧ runAt h i q = some r ∧ findDesc (slipAt h
     i) q = some d ∧ 0x50 ≤ opcode d ∧ opcode d ≠ 0x78 ∧ grantedRun h r = true) ∧
    (∃ (s : State) (h : Hw) (i : Nat) (q : BitVec 32) (r : Run) (d : Desc), h = clearSent s.hw ∧ runAt h i q = some r ∧ findDesc (slipAt h
     i) q = some d ∧ 0x50 ≤ opcode d ∧ opcode d ≠ 0x78 ∧ grantedRun h r = true ∧ quadNs h (fQuad d) (rowCycles d) ≤ fLimit d) ∧
    (∃ (s : State) (h : Hw) (i : Nat) (q : BitVec 32) (r : Run) (d : Desc), h = clearSent s.hw ∧ runAt h i q = some r ∧ findDesc (slipAt h
     i) q = some d ∧ opcode d = 0x78 ∧ grantedRun h r = true) ∧
    (∃ (s : State) (h : Hw) (i : Nat) (q : BitVec 32) (r : Run) (d : Desc), h = clearSent s.hw ∧ runAt h i q = some r ∧ findDesc (slipAt h
     i) q = some d ∧ opcode d = 0x78 ∧ grantedRun h r = true ∧ quadNs h (fQuad d) (rowCycles d) ≤ fLimit d) ∧
    (∃ (s : State) (h : Hw) (i : Nat) (q : W32) (c : Instr), h = clearSent s.hw ∧ (runnable h i q = none ∨ runAt h i q ≠ none) ∧ c ∈
     [Instr.map i q, .reduce i q, .softmax i q, .norm i q, .select i q, .quant i q, .dequant i q, .sample i q, .verify i q]) ∧
    (∃ (s : State) (h : Hw) (i : Nat) (q : W32), h = clearSent s.hw ∧ (runAt h i q = none ∨ findDesc (slipAt h i) q = none)) ∧
    (∃ (s : State) (h : Hw) (d : Desc) (r : Run) (g : Hw) (o : RowOut) (r1 : Run) (p : Bool) (b : Bool) (f : List Piece × Hw) (w : Hw), h =
     clearSent s.hw ∧ g = loadMode (passOver (advanceTo h (h.tb.now + quadNs h (fQuad d) (rowCycles d))) r) d r ∧ b = (r.tainted || p ||
     (fReads d r.next).any (fun x => bobPoisoned g x.1 x.2.1 x.2.2)) ∧ o = finRow g d (tabGet 0 g.weaves.fmode (fQuad d)) r.next ∧ f = (if
     fOverlap d then freePieces g (rowPieces d o b r.next) else (rowPieces d o b r.next, g)) ∧ w = (if p then (List.range r.next).foldl (fun
     u k => (fOutRanges d k).foldl (fun u x => (granulesOf x.2.1 x.2.2).foldl (fun u n => bobMark u x.1 n true) u) u) (corrected (writeTile
     f.2 f.1) 3 (fQuad d) (4 * fQuad d) none) else writeTile f.2 f.1) ∧ r1 =
     { r with next := r.next + 1, done := r.done + 1, passed := none, tainted := r.tainted || p, poison := r.poison || b, flags := if b then r.flags else r.flags ||| o.flags, cyc := r.cyc + rowCycles d, first := if r.next = 0 then o.first else r.first }
     ∧ r1.done ≠ r1.total) ∧
    (∃ (s : State) (h : Hw) (i : Nat) (q : W32) (r : Run) (d : Desc), h = clearSent s.hw ∧ runAt h i q = some r ∧ findDesc (slipAt h i) q =
     some d ∧ (opcode d < 0x50 ∨ grantedRun h r = false ∨ fLimit d < quadNs h (fQuad d) (rowCycles d))) ∧
    (∃ (s : State) (h : Hw) (i : Nat) (q : W32) (r : Run) (d : Desc), h = clearSent s.hw ∧ runAt h i q = some r ∧ findDesc (slipAt h i) q =
     some d ∧ (opcode d < 0x50 ∨ grantedRun h r = false)) ∧
    (∃ (s : State) (h : Hw) (d : Desc) (r : Run) (g : Hw) (o : RowOut) (r1 : Run) (p : Bool) (b : Bool) (f : List Piece × Hw) (w : Hw) (e :
     Desc), h = clearSent s.hw ∧ g = loadMode (passOver (advanceTo h (h.tb.now + quadNs h (fQuad d) (rowCycles d))) r) d r ∧ b = (r.tainted
     || p || (fReads d r.next).any (fun x => bobPoisoned g x.1 x.2.1 x.2.2)) ∧ o = finRow g d (tabGet 0 g.weaves.fmode (fQuad d)) r.next ∧ f
     = (if fOverlap d then freePieces g (rowPieces d o b r.next) else (rowPieces d o b r.next, g)) ∧ w = (if p then (List.range
     r.next).foldl (fun u k => (fOutRanges d k).foldl (fun u x => (granulesOf x.2.1 x.2.2).foldl (fun u n => bobMark u x.1 n true) u) u)
     (corrected (writeTile f.2 f.1) 3 (fQuad d) (4 * fQuad d) none) else writeTile f.2 f.1) ∧ r1 =
     { r with next := r.next + 1, done := r.done + 1, passed := none, tainted := r.tainted || p, poison := r.poison || b, flags := if b then r.flags else r.flags ||| o.flags, cyc := r.cyc + rowCycles d, first := if r.next = 0 then o.first else r.first }
     ∧ r1.done = r1.total ∧ e = { d with poison := d.poison || r1.poison, result := finResult r1 }) ∧
    (∃ (s : State) (h : Hw) (i : Nat) (q : W32) (d : Desc) (x : Ledger), h = clearSent s.hw ∧ runnable h i q = some d ∧ runAt h i q = none ∧
     x = ledgerAt h (vLedger d) ∧ opcode d = 0x78 ∧ verifyCheck h i d = 0 ∧ x.poison = 0 ∧ unitFenced h 3 (fQuad d) = false ∧ (islandAt h
     { kind := .quad, idx := fQuad d }).power ≠ .open) :=
  ⟨⟨(st (wk [at3 [(0, 1, 0x51)]])), _, 5, 3, _, (.map 5 3), 0x50, rfl, rfl, (by decide +kernel), by simp, (by decide +kernel)⟩,
   ⟨(st (wk [at3 [(0, 1, 0x50)]])), _, 5, 3, _, (.map 5 3), 0x50, rfl, rfl, (by decide +kernel), by simp, (by decide +kernel),
     (by decide +kernel)⟩,
   ⟨(st (wk [at3 [(0, 1, 0x50), (0x12, 1, 13), (0x13, 1, 13), (0x16, 1, 1), (0x18, 2, 2), (0x1C, 4, 1), (0x38, 4, 64), (0x54, 2, 2000)]]
     { faults := { fences := [{ scope := .partition, part := 0 }] } })), _, 5, 3, _, (.map 5 3), 0x50, rfl, rfl, (by decide +kernel), by
     simp, (by decide +kernel), (by decide +kernel), (by decide +kernel)⟩,
   ⟨(st (wk [at3 [(0, 1, 0x50), (0x12, 1, 13), (0x13, 1, 13), (0x16, 1, 1), (0x18, 2, 2), (0x1C, 4, 1), (0x38, 4, 64), (0x54, 2, 2000)]]
     { islands := [(islandKey { kind := .quad, idx := 0 }, { power := .gated })] })), _, 5, 3, _, (.map 5 3), 0x50, rfl, rfl,
     (by decide +kernel), by simp, (by decide +kernel), (by decide +kernel), (by decide +kernel), (by decide +kernel)⟩,
   ⟨(st (wk [at3 [(0, 1, 0x50), (0x12, 1, 13), (0x13, 1, 13), (0x16, 1, 1), (0x18, 2, 2), (0x1C, 4, 1), (0x38, 4, 64), (0x54, 2, 2000)]])),
     _, 5, 3, _, (.map 5 3), 0x50, rfl, rfl, (by decide +kernel), by simp, (by decide +kernel), (by decide +kernel), (by decide +kernel),
     (by decide +kernel)⟩,
   ⟨(st (wk [at3 [(0, 1, 0x50), (0x12, 1, 13), (0x13, 1, 13), (0x16, 1, 1), (0x18, 2, 2), (0x1C, 4, 1), (0x38, 4, 64), (0x54, 2, 2000)]])),
     _, 5, 3, _, _, rfl, rfl, (by decide +kernel), rfl, (by decide +kernel)⟩,
   ⟨(st (wk [at3 [(0, 1, 0x78)]])), _, 5, 3, _, _, rfl, rfl, (by decide +kernel), rfl, (by decide +kernel), (by decide +kernel)⟩,
   ⟨(st (wk [at3 [(0, 1, 0x78), (0x11, 1, 1), (0x12, 1, 13), (0x13, 1, 1), (0x16, 1, 1), (0x1A, 2, 2000), (0x1C, 4, 1)]]
     { sync := { ledgers := [(0, { active := true, t := 2, poison := 1 })] } })), _, 5, 3, _, _, rfl, rfl, (by decide +kernel), rfl,
     (by decide +kernel), (by decide +kernel), (by decide +kernel)⟩,
   ⟨(st (wk [at3 [(0, 1, 0x78), (0x11, 1, 1), (0x12, 1, 13), (0x13, 1, 1), (0x16, 1, 1), (0x1A, 2, 2000), (0x1C, 4, 1)]]
     { sync := { ledgers := [(0, { active := true, t := 2 })] }, faults := { fences := [{ scope := .partition, part := 0 }] } })), _, 5, 3,
     _, _, rfl, rfl, (by decide +kernel), rfl, (by decide +kernel), (by decide +kernel), (by decide +kernel), (by decide +kernel)⟩,
   ⟨(st (wk [at3 [(0, 1, 0x78), (0x11, 1, 1), (0x12, 1, 13), (0x13, 1, 1), (0x16, 1, 1), (0x1A, 2, 2000), (0x1C, 4, 1)]]
     { sync := { ledgers := [(0, { active := true, t := 2 })] } })), _, 5, 3, _, _, rfl, rfl, (by decide +kernel), rfl, (by decide +kernel),
     (by decide +kernel), (by decide +kernel), (by decide +kernel), (by decide +kernel)⟩,
   ⟨(st (wk [at3 [(0, 1, 0x50), (0x12, 1, 13), (0x13, 1, 13), (0x16, 1, 1), (0x18, 2, 2), (0x1C, 4, 1), (0x38, 4, 64), (0x54, 2, 2000)]]
     { weaves := { runs := [{ slip := 5, seq := 3, units := [512], cls := 3, total := 2 }] } })), _, 5, 3, _, _, rfl, rfl, rfl,
     (by decide +kernel), (by decide +kernel), (by decide +kernel)⟩,
   ⟨(st (wk [at3 [(0, 1, 0x50), (0x12, 1, 13), (0x13, 1, 13), (0x16, 1, 1), (0x18, 2, 2), (0x1C, 4, 1), (0x38, 4, 64), (0x54, 2, 2000)]]
     { weaves := { runs := [{ slip := 5, seq := 3, units := [512], cls := 3, total := 2 }] } })), _, 5, 3, _, _, rfl, rfl, rfl,
     (by decide +kernel), (by decide +kernel), (by decide +kernel), (by decide +kernel)⟩,
   ⟨(st (wk [at3 [(0, 1, 0x78), (0x11, 1, 1), (0x12, 1, 13), (0x13, 1, 1), (0x16, 1, 1), (0x1A, 2, 2000), (0x1C, 4, 1)]]
     { weaves := { runs := [{ slip := 5, seq := 3, units := [512], cls := 3, total := 2 }] } })), _, 5, 3, _, _, rfl, rfl, rfl,
     (by decide +kernel), (by decide +kernel)⟩,
   ⟨(st (wk [at3 [(0, 1, 0x78), (0x11, 1, 1), (0x12, 1, 13), (0x13, 1, 1), (0x16, 1, 1), (0x1A, 2, 2000), (0x1C, 4, 1)]]
     { weaves := { runs := [{ slip := 5, seq := 3, units := [512], cls := 3, total := 2 }] } })), _, 5, 3, _, _, rfl, rfl, rfl,
     (by decide +kernel), (by decide +kernel), (by decide +kernel)⟩,
   ⟨(st (wk [at3 [(0, 1, 0x50), (0x12, 1, 13), (0x13, 1, 13), (0x16, 1, 1), (0x18, 2, 2), (0x1C, 4, 1), (0x38, 4, 64), (0x54, 2, 2000)]]
     { weaves := { runs := [{ slip := 5, seq := 3, units := [512], cls := 3, total := 2, next := 2 }] } })), _, 5, 3, (.map 5 3), rfl,
     (by decide +kernel), (by decide +kernel)⟩,
   ⟨(st (wk [at3 [(0, 1, 0x51)]])), _, 5, 3, rfl, (by decide +kernel)⟩,
   ⟨(st (wk [at3 [(0, 1, 0x51)]])), _, (at3 [(0, 1, 0x50), (0x12, 1, 13), (0x13, 1, 13), (0x16, 1, 1), (0x18, 2, 2), (0x1C, 4, 1), (0x38, 4,
     64), (0x54, 2, 2000)]), { slip := 5, seq := 3, units := [512], cls := 3, total := 2 }, _, _, _, false, _, _, _, rfl, rfl, rfl, rfl,
     rfl, rfl, rfl, (by decide +kernel)⟩,
   ⟨(st (wk [at3 [(0, 1, 0x50), (0x12, 1, 13), (0x13, 1, 13), (0x16, 1, 1), (0x18, 2, 2), (0x1C, 4, 1), (0x38, 4, 64), (0x54, 2, 2000)]]
     { weaves := { runs := [{ slip := 5, seq := 3, units := [512], cls := 3, total := 2, next := 2 }] } })), _, 5, 3, _, _, rfl, rfl, rfl,
     (by decide +kernel)⟩,
   ⟨(st (wk [at3 [(0, 1, 0x50), (0x12, 1, 13), (0x13, 1, 13), (0x16, 1, 1), (0x18, 2, 2), (0x1C, 4, 1), (0x38, 4, 64), (0x54, 2, 2000)]]
     { weaves := { runs := [{ slip := 5, seq := 3, units := [512], cls := 3, total := 2, next := 2 }] } })), _, 5, 3, _, _, rfl, rfl, rfl,
     (by decide +kernel)⟩,
   ⟨(st (wk [at3 [(0, 1, 0x51)]])), _, (at3 [(0, 1, 0x50), (0x12, 1, 13), (0x13, 1, 13), (0x16, 1, 1), (0x18, 2, 2), (0x1C, 4, 1), (0x38, 4,
     64), (0x54, 2, 2000)]), { slip := 5, seq := 3, units := [512], cls := 3, total := 1 }, _, _, _, false, _, _, _, _, rfl, rfl, rfl, rfl,
     rfl, rfl, rfl, (by decide +kernel), rfl⟩,
   ⟨(st (wk [at3 [(0, 1, 0x78), (0x11, 1, 1), (0x12, 1, 13), (0x13, 1, 1), (0x16, 1, 1), (0x1A, 2, 2000), (0x1C, 4, 1)]]
     { sync := { ledgers := [(0, { active := true, t := 2 })] }, islands := [(islandKey { kind := .quad, idx := 0 }, { power := .gated })] })),
     _, 5, 3, _, _, rfl, rfl, (by decide +kernel), rfl, (by decide +kernel), (by decide +kernel), (by decide +kernel), (by decide +kernel),
     (by decide +kernel)⟩⟩

theorem wit_KnotRows :
    (∃ (s : State) (h : Hw) (i : Nat) (q : BitVec 32), h = clearSent s.hw ∧ runnable h i q = none) ∧
    (∃ (s : State) (h : Hw) (i : Nat) (q : BitVec 32), h = clearSent s.hw ∧ runnable h i q = none ∧ h.sync.remoteWaits = []) ∧
    (∃ (s : State) (h : Hw) (i : Nat) (q : BitVec 32) (d : Desc) (n : Nat), h = clearSent s.hw ∧ runnable h i q = some d ∧ opcode d = 0x60 ∧
     n = refKnot (leAt d.bytes 0x10 4) ∧ knotOwner h n ≠ slipOwner h i) ∧
    (∃ (s : State) (h : Hw) (i : Nat) (q : BitVec 32) (d : Desc) (n : Nat), h = clearSent s.hw ∧ runnable h i q = some d ∧ opcode d = 0x60 ∧
     n = refKnot (leAt d.bytes 0x10 4) ∧ knotOwner h n = slipOwner h i ∧ leAt d.bytes 0x24 1 = 1 ∧ h.ident.admitted = false) ∧
    (∃ (s : State) (h : Hw) (i : Nat) (q : BitVec 32) (d : Desc) (n : Nat) (k : Knot), h = clearSent s.hw ∧ runnable h i q = some d ∧ opcode
     d = 0x60 ∧ n = refKnot (leAt d.bytes 0x10 4) ∧ knotOwner h n = slipOwner h i ∧ leAt d.bytes 0x24 1 = 0 ∧ leAt d.bytes 0x14 1 ≠ 2 ∧ k =
     ({ type := leAt d.bytes 0x14 1, value := BitVec.ofNat 64 (leAt d.bytes 0x18 8), parties := leAt d.bytes 0x20 4, evmode := leAt d.bytes 0x15 1, irq := leAt d.bytes 0x16 2, lastSig := h.ident.position, waitShown := (knotAt h n).waitShown }
     : Knot)) ∧
    (∃ (s : State) (h : Hw) (i : Nat) (q : BitVec 32) (d : Desc) (r : Nat) (n : Nat) (op : Nat) (x : Nat), h = clearSent s.hw ∧ runnable h i
     q = some d ∧ opcode d = 0x61 ∧ r = leAt d.bytes 0x10 4 ∧ n = refKnot r ∧ op = leAt d.bytes 0x14 1 ∧ x = leAt d.bytes 0x18 8 ∧ refLocal
     h r = true ∧ knotOwner h n ≠ slipOwner h i) ∧
    (∃ (s : State) (h : Hw) (i : Nat) (q : BitVec 32) (d : Desc) (r : Nat) (n : Nat) (op : Nat) (x : Nat), h = clearSent s.hw ∧ runnable h i
     q = some d ∧ opcode d = 0x61 ∧ r = leAt d.bytes 0x10 4 ∧ n = refKnot r ∧ op = leAt d.bytes 0x14 1 ∧ x = leAt d.bytes 0x18 8 ∧ refLocal
     h r = true ∧ knotOwner h n = slipOwner h i ∧ (knotAt h n).broken = true) ∧
    (∃ (s : State) (h : Hw) (i : Nat) (q : BitVec 32) (d : Desc) (r : Nat) (n : Nat) (op : Nat) (x : Nat), h = clearSent s.hw ∧ runnable h i
     q = some d ∧ opcode d = 0x61 ∧ r = leAt d.bytes 0x10 4 ∧ n = refKnot r ∧ op = leAt d.bytes 0x14 1 ∧ x = leAt d.bytes 0x18 8 ∧ refLocal
     h r = true ∧ knotOwner h n = slipOwner h i ∧ (knotAt h n).broken = false ∧ (knotAt h n).poison = true) ∧
    (∃ (s : State) (h : Hw) (i : Nat) (q : BitVec 32) (d : Desc) (r : Nat) (n : Nat) (op : Nat) (x : Nat), h = clearSent s.hw ∧ runnable h i
     q = some d ∧ opcode d = 0x61 ∧ r = leAt d.bytes 0x10 4 ∧ n = refKnot r ∧ op = leAt d.bytes 0x14 1 ∧ x = leAt d.bytes 0x18 8 ∧ refLocal
     h r = true ∧ knotOwner h n = slipOwner h i ∧ (knotAt h n).broken = false ∧ (knotAt h n).poison = false ∧ sigAllowed (knotAt h n).type
     op = false) ∧
    (∃ (s : State) (h : Hw) (i : Nat) (q : BitVec 32) (d : Desc) (r : Nat) (n : Nat) (op : Nat) (x : Nat), h = clearSent s.hw ∧ runnable h i
     q = some d ∧ opcode d = 0x61 ∧ r = leAt d.bytes 0x10 4 ∧ n = refKnot r ∧ op = leAt d.bytes 0x14 1 ∧ x = leAt d.bytes 0x18 8 ∧ refLocal
     h r = true ∧ knotOwner h n = slipOwner h i ∧ (knotAt h n).broken = false ∧ (knotAt h n).poison = false ∧ sigAllowed (knotAt h n).type
     op = true) ∧
    (∃ (s : State) (h : Hw) (i : Nat) (q : BitVec 32) (d : Desc) (r : Nat) (n : Nat) (op : Nat) (x : Nat), h = clearSent s.hw ∧ runnable h i
     q = some d ∧ opcode d = 0x61 ∧ r = leAt d.bytes 0x10 4 ∧ n = refKnot r ∧ op = leAt d.bytes 0x14 1 ∧ x = leAt d.bytes 0x18 8 ∧ refLocal
     h r = false ∧ isMember h (field r 25 18) = false) ∧
    (∃ (s : State) (h : Hw) (i : Nat) (q : BitVec 32) (d : Desc) (r : Nat) (n : Nat) (op : Nat) (x : Nat), h = clearSent s.hw ∧ runnable h i
     q = some d ∧ opcode d = 0x61 ∧ r = leAt d.bytes 0x10 4 ∧ n = refKnot r ∧ op = leAt d.bytes 0x14 1 ∧ x = leAt d.bytes 0x18 8 ∧ refLocal
     h r = false ∧ isMember h (field r 25 18) = true ∧ memberFenced h = true) ∧
    (∃ (s : State) (h : Hw) (i : Nat) (q : BitVec 32) (d : Desc) (r : Nat) (n : Nat) (op : Nat) (x : Nat), h = clearSent s.hw ∧ runnable h i
     q = some d ∧ opcode d = 0x61 ∧ r = leAt d.bytes 0x10 4 ∧ n = refKnot r ∧ op = leAt d.bytes 0x14 1 ∧ x = leAt d.bytes 0x18 8 ∧ refLocal
     h r = false ∧ isMember h (field r 25 18) = true ∧ memberFenced h = false) ∧
    (∃ (s : State) (h : Hw) (i : Nat) (q : BitVec 32) (d : Desc) (r : Nat) (n : Nat) (c : Nat) (x : Nat), h = clearSent s.hw ∧ runnable h i
     q = some d ∧ opcode d = 0x62 ∧ h.sync.remoteWaits = [] ∧ r = leAt d.bytes 0x10 4 ∧ n = refKnot r ∧ c = leAt d.bytes 0x14 1 ∧ x = leAt
     d.bytes 0x18 8 ∧ refLocal h r = true ∧ knotOwner h n ≠ slipOwner h i) ∧
    (∃ (s : State) (h : Hw) (i : Nat) (q : BitVec 32) (d : Desc) (r : Nat) (n : Nat) (c : Nat) (x : Nat), h = clearSent s.hw ∧ runnable h i
     q = some d ∧ opcode d = 0x62 ∧ h.sync.remoteWaits = [] ∧ r = leAt d.bytes 0x10 4 ∧ n = refKnot r ∧ c = leAt d.bytes 0x14 1 ∧ x = leAt
     d.bytes 0x18 8 ∧ refLocal h r = true ∧ knotOwner h n = slipOwner h i ∧ (knotAt h n).broken = false ∧ (knotAt h n).poison = false ∧
     condAllowed (knotAt h n).type c = false) ∧
    (∃ (s : State) (h : Hw) (i : Nat) (q : BitVec 32) (d : Desc) (r : Nat) (n : Nat) (c : Nat) (x : Nat) (g : Hw) (k : Knot), h = clearSent
     s.hw ∧ runnable h i q = some d ∧ opcode d = 0x62 ∧ h.sync.remoteWaits = [] ∧ r = leAt d.bytes 0x10 4 ∧ n = refKnot r ∧ c = leAt d.bytes
     0x14 1 ∧ x = leAt d.bytes 0x18 8 ∧ refLocal h r = true ∧ knotOwner h n = slipOwner h i ∧ (knotAt h n).broken = false ∧ (knotAt h
     n).poison = false ∧ condAllowed (knotAt h n).type c = true ∧ leAt d.bytes 0x15 1 = 0 ∧ k = knotAt h n ∧ g = putDesc h i
     { d with phase := .waiting, since := h.tb.now, begun := true }) ∧
    (∃ (s : State) (h : Hw) (i : Nat) (q : BitVec 32) (d : Desc) (r : Nat) (n : Nat) (c : Nat) (x : Nat) (g : Hw), h = clearSent s.hw ∧
     runnable h i q = some d ∧ opcode d = 0x62 ∧ h.sync.remoteWaits = [] ∧ r = leAt d.bytes 0x10 4 ∧ n = refKnot r ∧ c = leAt d.bytes 0x14 1
     ∧ x = leAt d.bytes 0x18 8 ∧ refLocal h r = false ∧ isMember h (field r 25 18) = true ∧ memberFenced h = false ∧ g = putDesc (postKnot h
     i d true) i { d with phase := .waiting, since := h.tb.now }) ∧
    (∃ (s : State) (h : Hw) (k : Knot) (n : Nat), h = clearSent s.hw ∧ firstRelease k false k.waiters = none ∧ knotAt h n = k) ∧
    (∃ (s : State) (h : Hw) (i : Nat) (q : BitVec 32) (d : Desc), h = clearSent s.hw ∧ findDesc (slipAt h i) q = some d ∧ opcode d = 0x62 ∧
     d.phase = .waiting ∧ leAt d.bytes 0x20 4 ≠ 0) ∧
    (∃ (s : State) (h : Hw) (i : Nat) (q : BitVec 32) (d : Desc), h = clearSent s.hw ∧ findDesc (slipAt h i) q = some d ∧ ((opcode d ≠ 0x62
     ∨ d.phase ≠ .waiting ∨ leAt d.bytes 0x20 4 = 0))) ∧
    (∃ (s : State) (h : Hw) (i : Nat) (q : BitVec 32) (d : Desc), h = clearSent s.hw ∧ findDesc (slipAt h i) q = some d ∧ h.sync.remoteWaits
     = []) ∧
    (∃ (s : State) (h : Hw) (i : Nat) (q : BitVec 32) (d : Desc) (g : Hw), h = clearSent s.hw ∧ findDesc (slipAt h i) q = some d ∧
     h.sync.remoteWaits = [(i, q, 0)] ∧ g = postKnot (advanceTo h (h.tb.now + 2000)) i d true) ∧
    (∃ (s : State) (h : Hw), h = clearSent s.hw) ∧
    (∃ (s : State) (h : Hw) (x : Nat), h = clearSent s.hw ∧ x < 2 ^ 64) ∧
    (∃ (s : State) (h : Hw) (x : Nat), h = clearSent s.hw ∧ x % 65536 = 0) ∧
    (∃ (s : State) (h : Hw) (i : Nat) (q : W32) (d : Desc) (r : Nat) (n : Nat) (c : Nat) (x : Nat), h = clearSent s.hw ∧ runnable h i q =
     some d ∧ opcode d = 0x62 ∧ (∀ w, w ∈ h.sync.remoteWaits → (w.1, w.2.1) ≠ (i, q)) ∧ r = leAt d.bytes 0x10 4 ∧ n = refKnot r ∧ c = leAt
     d.bytes 0x14 1 ∧ x = (if leAt d.bytes 0x15 1 = 1 then (knotAt h n).value.toNat / 2 ^ 32 else leAt d.bytes 0x18 8) ∧ refLocal h r = true
     ∧ knotOwner h n ≠ slipOwner h i) ∧
    (∃ (s : State) (h : Hw) (i : Nat) (q : W32) (retry : Bool), h = clearSent s.hw ∧ (∀ w, w ∈ h.sync.remoteWaits → (w.1, w.2.1) = (i, q) →
     retry = true ∧ w.2.2 ≠ 0)) ∧
    (∃ (s : State) (h : Hw) (i : Nat) (q : W32), h = clearSent s.hw ∧ findDesc (slipAt h i) q = none) ∧
    (∃ (s : State) (h : Hw) (k : Knot) (x : Nat) (v : Nat) (n : Nat) (g : Nat) (a : Nat), h = clearSent s.hw ∧ v = k.value.toNat ∧ n = x %
     65536 ∧ g = v / 2 ^ 32 ∧ a = v % 2 ^ 32 ∧ x < 2 ^ 64) ∧
    (∃ (s : State) (h : Hw) (k : Knot) (x : Nat) (v : Nat) (n : Nat) (g : Nat) (a : Nat), h = clearSent s.hw ∧ v = k.value.toNat ∧ n = x %
     65536 ∧ g = v / 2 ^ 32 ∧ a = v % 2 ^ 32 ∧ 0 < n ∧ k.parties ≤ a + n) ∧
    (∃ (s : State) (h : Hw) (k : Knot) (x : Nat) (v : Nat) (n : Nat) (g : Nat) (a : Nat) (c : Nat), h = clearSent s.hw ∧ v = k.value.toNat ∧
     n = x % 65536 ∧ g = v / 2 ^ 32 ∧ a = v % 2 ^ 32 ∧ c ∈ [1, 2, 4]) ∧
    (∃ (s : State) (h : Hw) (i : Nat) (q : W32) (d : Desc) (n : Nat) (c : Nat) (m : Nat), h = clearSent s.hw ∧ runnable h i q = some d ∧
     opcode d = 0x60 ∧ n = refKnot (leAt d.bytes 0x10 4) ∧ c = leAt d.bytes 0x24 1 ∧ m = leAt d.bytes 0x40 32 ∧ knotOwner h n ≠ slipOwner h
     i) ∧
    (∃ (s : State) (h : Hw) (i : Nat) (q : W32) (d : Desc) (r : Nat) (n : Nat) (c : Nat) (x : Nat), h = clearSent s.hw ∧ runnable h i q =
     some d ∧ opcode d = 0x62 ∧ (∀ w, w ∈ h.sync.remoteWaits → (w.1, w.2.1) ≠ (i, q)) ∧ r = leAt d.bytes 0x10 4 ∧ n = refKnot r ∧ c = leAt
     d.bytes 0x14 1 ∧ x = (if leAt d.bytes 0x15 1 = 1 then (knotAt h n).value.toNat / 2 ^ 32 else leAt d.bytes 0x18 8) ∧ refLocal h r = true
     ∧ knotOwner h n = slipOwner h i ∧ (knotAt h n).broken = false ∧ (knotAt h n).poison = false ∧ condAllowed (knotAt h n).type c = false) ∧
    (∃ (s : State) (h : Hw) (i : Nat) (q : W32), h = clearSent s.hw ∧ (∃ w, w ∈ h.sync.remoteWaits ∧ (w.1, w.2.1) = (i, q))) ∧
    (∃ (s : State) (h : Hw) (k : Knot) (x : Nat) (v : Nat) (n : Nat) (g : Nat) (a : Nat), h = clearSent s.hw ∧ v = k.value.toNat ∧ n = x %
     65536 ∧ g = v / 2 ^ 32 ∧ a = v % 2 ^ 32 ∧ n = 0) ∧
    (∃ (s : State) (h : Hw) (i : Nat) (q : W32) (d : Desc) (n : Nat) (c : Nat) (m : Nat), h = clearSent s.hw ∧ runnable h i q = some d ∧
     opcode d = 0x60 ∧ n = refKnot (leAt d.bytes 0x10 4) ∧ c = leAt d.bytes 0x24 1 ∧ m = leAt d.bytes 0x40 32 ∧ knotOwner h n = slipOwner h
     i ∧ c = 1 ∧ (h.ident.admitted = false ∨ bitOf m h.ident.position = false)) ∧
    (∃ (s : State) (h : Hw) (i : Nat) (q : W32) (d : Desc) (r : Nat) (n : Nat) (c : Nat) (x : Nat) (g : Hw) (k : Knot), h = clearSent s.hw ∧
     runnable h i q = some d ∧ opcode d = 0x62 ∧ (∀ w, w ∈ h.sync.remoteWaits → (w.1, w.2.1) ≠ (i, q)) ∧ r = leAt d.bytes 0x10 4 ∧ n =
     refKnot r ∧ c = leAt d.bytes 0x14 1 ∧ x = (if leAt d.bytes 0x15 1 = 1 then (knotAt h n).value.toNat / 2 ^ 32 else leAt d.bytes 0x18 8)
     ∧ refLocal h r = true ∧ knotOwner h n = slipOwner h i ∧ (knotAt h n).broken = false ∧ (knotAt h n).poison = false ∧ condAllowed (knotAt
     h n).type c = true ∧ g = (if leAt d.bytes 0x15 1 = 1 then signalKnot (putDesc h i
     { d with phase := .waiting, since := h.tb.now, begun := true }) n 3 1 h.ident.position else putDesc h i
     { d with phase := .waiting, since := h.tb.now, begun := true }) ∧ k = knotAt g n) ∧
    (∃ (s : State) (h : Hw) (i : Nat) (q : W32) (d : Desc) (n : Nat) (k : Knot) (c : Nat) (m : Nat), h = clearSent s.hw ∧ runnable h i q =
     some d ∧ opcode d = 0x60 ∧ n = refKnot (leAt d.bytes 0x10 4) ∧ c = leAt d.bytes 0x24 1 ∧ m = leAt d.bytes 0x40 32 ∧ knotOwner h n =
     slipOwner h i ∧ (c ≠ 1 ∨ (h.ident.admitted = true ∧ bitOf m h.ident.position = true)) ∧ k =
     ({ type := leAt d.bytes 0x14 1, value := BitVec.ofNat 64 (if leAt d.bytes 0x14 1 = 2 then leAt d.bytes 0x18 8 % 2 else leAt d.bytes 0x18 8), parties := leAt d.bytes 0x20 4, evmode := leAt d.bytes 0x15 1, irq := leAt d.bytes 0x16 2, cross := decide (c = 1), members := if c = 1 then m else 0, lastSig := h.ident.position, waitShown := (knotAt h n).waitShown }
     : Knot)) ∧
    (∃ (s : State) (h : Hw) (i : Nat) (q : W32) (a : KnotAns) (c : Instr) (op : Nat), h = clearSent s.hw ∧ (c, op) ∈ [(Instr.knotInit i q,
     0x60), (.knotSignal i q a, 0x61), (.knotWait i q a, 0x62)] ∧ (∀ d, runnable h i q = some d → opcode d ≠ op) ∧ (op = 0x62 → ∀ w, w ∈
     h.sync.remoteWaits → (w.1, w.2.1) ≠ (i, q))) ∧
    (∃ (s : State) (h : Hw) (i : Nat) (q : W32) (d : Desc) (r : Nat) (n : Nat) (c : Nat) (x : Nat), h = clearSent s.hw ∧ runnable h i q =
     some d ∧ opcode d = 0x62 ∧ (∀ w, w ∈ h.sync.remoteWaits → (w.1, w.2.1) ≠ (i, q)) ∧ r = leAt d.bytes 0x10 4 ∧ n = refKnot r ∧ c = leAt
     d.bytes 0x14 1 ∧ x = (if leAt d.bytes 0x15 1 = 1 then (knotAt h n).value.toNat / 2 ^ 32 else leAt d.bytes 0x18 8) ∧ refLocal h r = true
     ∧ knotOwner h n = slipOwner h i ∧ (knotAt h n).broken = true) ∧
    (∃ (s : State) (h : Hw) (i : Nat) (q : W32) (d : Desc) (r : Nat) (n : Nat) (c : Nat) (x : Nat), h = clearSent s.hw ∧ runnable h i q =
     some d ∧ opcode d = 0x62 ∧ (∀ w, w ∈ h.sync.remoteWaits → (w.1, w.2.1) ≠ (i, q)) ∧ r = leAt d.bytes 0x10 4 ∧ n = refKnot r ∧ c = leAt
     d.bytes 0x14 1 ∧ x = (if leAt d.bytes 0x15 1 = 1 then (knotAt h n).value.toNat / 2 ^ 32 else leAt d.bytes 0x18 8) ∧ refLocal h r = true
     ∧ knotOwner h n = slipOwner h i ∧ (knotAt h n).broken = false ∧ (knotAt h n).poison = true) ∧
    (∃ (s : State) (h : Hw) (i : Nat) (q : W32) (d : Desc) (r : Nat) (n : Nat) (c : Nat) (x : Nat), h = clearSent s.hw ∧ runnable h i q =
     some d ∧ opcode d = 0x62 ∧ (∀ w, w ∈ h.sync.remoteWaits → (w.1, w.2.1) ≠ (i, q)) ∧ r = leAt d.bytes 0x10 4 ∧ n = refKnot r ∧ c = leAt
     d.bytes 0x14 1 ∧ x = (if leAt d.bytes 0x15 1 = 1 then (knotAt h n).value.toNat / 2 ^ 32 else leAt d.bytes 0x18 8) ∧ refLocal h r =
     false ∧ isMember h (field r 25 18) = false) ∧
    (∃ (s : State) (h : Hw) (i : Nat) (q : W32) (d : Desc) (r : Nat) (n : Nat) (c : Nat) (x : Nat), h = clearSent s.hw ∧ runnable h i q =
     some d ∧ opcode d = 0x62 ∧ (∀ w, w ∈ h.sync.remoteWaits → (w.1, w.2.1) ≠ (i, q)) ∧ r = leAt d.bytes 0x10 4 ∧ n = refKnot r ∧ c = leAt
     d.bytes 0x14 1 ∧ x = (if leAt d.bytes 0x15 1 = 1 then (knotAt h n).value.toNat / 2 ^ 32 else leAt d.bytes 0x18 8) ∧ refLocal h r =
     false ∧ isMember h (field r 25 18) = true ∧ memberFenced h = true) ∧
    (∃ (s : State) (h : Hw) (i : Nat) (q : W32) (d : Desc) (r : Nat) (n : Nat) (c : Nat) (x : Nat) (a : KnotAns) (g : Hw), h = clearSent
     s.hw ∧ runnable h i q = some d ∧ opcode d = 0x62 ∧ (∀ w, w ∈ h.sync.remoteWaits → (w.1, w.2.1) ≠ (i, q)) ∧ r = leAt d.bytes 0x10 4 ∧ n
     = refKnot r ∧ c = leAt d.bytes 0x14 1 ∧ x = (if leAt d.bytes 0x15 1 = 1 then (knotAt h n).value.toNat / 2 ^ 32 else leAt d.bytes 0x18
     8) ∧ refLocal h r = false ∧ isMember h (field r 25 18) = true ∧ memberFenced h = false ∧ a ∈ [KnotAns.held, .noEntry] ∧ g = putDesc
     (postKnot h i d true) i { d with phase := .waiting, since := h.tb.now }) ∧
    (∃ (s : State) (h : Hw) (i : Nat) (q : W32) (d : Desc) (r : Nat) (n : Nat) (c : Nat) (x : Nat) (a : KnotAns), h = clearSent s.hw ∧
     runnable h i q = some d ∧ opcode d = 0x62 ∧ (∀ w, w ∈ h.sync.remoteWaits → (w.1, w.2.1) ≠ (i, q)) ∧ r = leAt d.bytes 0x10 4 ∧ n =
     refKnot r ∧ c = leAt d.bytes 0x14 1 ∧ x = (if leAt d.bytes 0x15 1 = 1 then (knotAt h n).value.toNat / 2 ^ 32 else leAt d.bytes 0x18 8)
     ∧ refLocal h r = false ∧ isMember h (field r 25 18) = true ∧ memberFenced h = false ∧ a ∉ [KnotAns.held, .noEntry]) ∧
    (∃ (s : State) (h : Hw) (i : Nat) (q : W32) (a : KnotAns) (d : Desc) (retry : Bool) (g : Hw), h = clearSent s.hw ∧ findDesc (slipAt h i)
     q = some d ∧ (∃ w, w ∈ h.sync.remoteWaits ∧ (w.1, w.2.1) = (i, q) ∧ (retry = true → w.2.2 = 0)) ∧ g = (if retry then postKnot
     (advanceTo h (h.tb.now + 2000)) i d true else h) ∧ a ∈ [KnotAns.held, .noEntry]) ∧
    (∃ (s : State) (h : Hw) (i : Nat) (q : W32) (a : KnotAns) (d : Desc) (retry : Bool) (g : Hw), h = clearSent s.hw ∧ findDesc (slipAt h i)
     q = some d ∧ (∃ w, w ∈ h.sync.remoteWaits ∧ (w.1, w.2.1) = (i, q) ∧ (retry = true → w.2.2 = 0)) ∧ g = (if retry then postKnot
     (advanceTo h (h.tb.now + 2000)) i d true else h) ∧ a ∉ [KnotAns.held, .noEntry] ∧ findDesc (slipAt g i) q = some d) ∧
    (∃ (s : State) (h : Hw) (k : Knot) (n : Nat) (w : Waiter) (y : Knot) (g : Hw) (p : Nat), h = clearSent s.hw ∧ knotAt h n = k ∧
     firstRelease k false k.waiters = some w ∧ y = { k with value := releaseValue k w.cond w.x, waiters := k.waiters.erase w } ∧ g = setKnot
     h n y ∧ w.remote = some p) ∧
    (∃ (s : State) (h : Hw) (k : Knot) (n : Nat) (w : Waiter) (y : Knot) (g : Hw) (d : Desc), h = clearSent s.hw ∧ knotAt h n = k ∧
     firstRelease k false k.waiters = some w ∧ y = { k with value := releaseValue k w.cond w.x, waiters := k.waiters.erase w } ∧ g = setKnot
     h n y ∧ w.remote = none ∧ findDesc (slipAt g w.slip) w.seq = some d) ∧
    (∃ (s : State) (h : Hw) (k : Knot) (x : Nat) (v : Nat) (n : Nat) (g : Nat) (a : Nat), h = clearSent s.hw ∧ v = k.value.toNat ∧ n = x %
     65536 ∧ g = v / 2 ^ 32 ∧ a = v % 2 ^ 32 ∧ 0 < n ∧ a + n < k.parties) :=
  ⟨⟨(st {}), _, 5, 3, rfl, (by decide +kernel)⟩,
   ⟨(st {}), _, 5, 3, rfl, (by decide +kernel), (by decide +kernel)⟩,
   ⟨(st (wk [at3 [(0, 1, 0x60), (0x10, 4, 256)]])), _, 5, 3, _, _, rfl, rfl, (by decide +kernel), rfl, (by decide +kernel)⟩,
   ⟨(st (wk [at3 [(0, 1, 0x60), (0x10, 4, 255), (0x24, 1, 1)]])), _, 5, 3, _, _, rfl, rfl, (by decide +kernel), rfl, (by decide +kernel),
     (by decide +kernel), (by decide +kernel)⟩,
   ⟨(st (wk [at3 [(0, 1, 0x60), (0x10, 4, 255)]])), _, 5, 3, _, _, _, rfl, rfl, (by decide +kernel), rfl, (by decide +kernel),
     (by decide +kernel), (by decide +kernel), rfl⟩,
   ⟨(st (wk [at3 [(0, 1, 0x61), (0x10, 4, 256), (0x14, 1, 1)]])), _, 5, 3, _, _, _, _, _, rfl, rfl, (by decide +kernel), rfl, rfl, rfl, rfl,
     (by decide +kernel), (by decide +kernel)⟩,
   ⟨(st (wk [at3 [(0, 1, 0x61), (0x10, 4, 255), (0x14, 1, 1)]] { sync := { knots := [(255, { broken := true })] } })), _, 5, 3, _, _, _, _,
     _, rfl, rfl, (by decide +kernel), rfl, rfl, rfl, rfl, (by decide +kernel), (by decide +kernel), (by decide +kernel)⟩,
   ⟨(st (wk [at3 [(0, 1, 0x61), (0x10, 4, 255), (0x14, 1, 1)]] { sync := { knots := [(255, { poison := true })] } })), _, 5, 3, _, _, _, _,
     _, rfl, rfl, (by decide +kernel), rfl, rfl, rfl, rfl, (by decide +kernel), (by decide +kernel), (by decide +kernel),
     (by decide +kernel)⟩,
   ⟨(st (wk [at3 [(0, 1, 0x61), (0x10, 4, 255), (0x14, 1, 3)]])), _, 5, 3, _, _, _, _, _, rfl, rfl, (by decide +kernel), rfl, rfl, rfl, rfl,
     (by decide +kernel), (by decide +kernel), (by decide +kernel), (by decide +kernel), (by decide +kernel)⟩,
   ⟨(st (wk [at3 [(0, 1, 0x61), (0x10, 4, 255), (0x14, 1, 1)]])), _, 5, 3, _, _, _, _, _, rfl, rfl, (by decide +kernel), rfl, rfl, rfl, rfl,
     (by decide +kernel), (by decide +kernel), (by decide +kernel), (by decide +kernel), (by decide +kernel)⟩,
   ⟨(st (wk [at3 [(0, 1, 0x61), (0x10, 4, 2 ^ 26 + 3 * 2 ^ 18 + 255), (0x14, 1, 1)]])), _, 5, 3, _, _, _, _, _, rfl, rfl,
     (by decide +kernel), rfl, rfl, rfl, rfl, (by decide +kernel), (by decide +kernel)⟩,
   ⟨(st (wk [at3 [(0, 1, 0x61), (0x10, 4, 2 ^ 26 + 3 * 2 ^ 18 + 255), (0x14, 1, 1)]]
     { ident := { admitted := true }, arch := { members := [(3, { st := .member })] }, faults := { fences := [{ scope := .membership }] } })),
     _, 5, 3, _, _, _, _, _, rfl, rfl, (by decide +kernel), rfl, rfl, rfl, rfl, (by decide +kernel), (by decide +kernel),
     (by decide +kernel)⟩,
   ⟨(st (wk [at3 [(0, 1, 0x61), (0x10, 4, 2 ^ 26 + 3 * 2 ^ 18 + 255), (0x14, 1, 1)]]
     { ident := { admitted := true }, arch := { members := [(3, { st := .member })] } })), _, 5, 3, _, _, _, _, _, rfl, rfl,
     (by decide +kernel), rfl, rfl, rfl, rfl, (by decide +kernel), (by decide +kernel), (by decide +kernel)⟩,
   ⟨(st (wk [at3 [(0, 1, 0x62), (0x10, 4, 256), (0x14, 1, 1)]])), _, 5, 3, _, _, _, _, _, rfl, rfl, (by decide +kernel),
     (by decide +kernel), rfl, rfl, rfl, rfl, (by decide +kernel), (by decide +kernel)⟩,
   ⟨(st (wk [at3 [(0, 1, 0x62), (0x10, 4, 255), (0x14, 1, 4)]])), _, 5, 3, _, _, _, _, _, rfl, rfl, (by decide +kernel),
     (by decide +kernel), rfl, rfl, rfl, rfl, (by decide +kernel), (by decide +kernel), (by decide +kernel), (by decide +kernel),
     (by decide +kernel)⟩,
   ⟨(st (wk [at3 [(0, 1, 0x62), (0x10, 4, 255), (0x14, 1, 1)]])), _, 5, 3, _, _, _, _, _, _, _, rfl, rfl, (by decide +kernel),
     (by decide +kernel), rfl, rfl, rfl, rfl, (by decide +kernel), (by decide +kernel), (by decide +kernel), (by decide +kernel),
     (by decide +kernel), (by decide +kernel), rfl, rfl⟩,
   ⟨(st (wk [at3 [(0, 1, 0x62), (0x10, 4, 2 ^ 26 + 3 * 2 ^ 18 + 255), (0x14, 1, 1)]]
     { ident := { admitted := true }, arch := { members := [(3, { st := .member })] } })), _, 5, 3, _, _, _, _, _, _, rfl, rfl,
     (by decide +kernel), (by decide +kernel), rfl, rfl, rfl, rfl, (by decide +kernel), (by decide +kernel), (by decide +kernel), rfl⟩,
   ⟨(st {}), _, {}, 255, rfl, (by decide +kernel), (by decide +kernel)⟩,
   ⟨(st (wk [{ at3 [(0, 1, 0x62), (0x20, 4, 5)] with phase := .waiting }])), _, 5, 3, _, rfl, rfl, (by decide +kernel), (by decide +kernel),
     (by decide +kernel)⟩,
   ⟨(st (wk [at3 []])), _, 5, 3, _, rfl, rfl, (by decide +kernel)⟩,
   ⟨(st (wk [at3 []])), _, 5, 3, _, rfl, rfl, (by decide +kernel)⟩,
   ⟨(st (wk [at3 [(0, 1, 0x62), (0x10, 4, 2 ^ 26 + 3 * 2 ^ 18 + 255)]] { sync := { remoteWaits := [(5, 3, 0)] } })), _, 5, 3, _, _, rfl,
     rfl, (by decide +kernel), rfl⟩,
   ⟨(st {}), _, rfl⟩,
   ⟨(st {}), _, (2 ^ 64 - 1), rfl, (by decide +kernel)⟩,
   ⟨(st {}), _, 65536, rfl, (by decide +kernel)⟩,
   ⟨(st (wk [at3 [(0, 1, 0x62), (0x10, 4, 256), (0x14, 1, 1)]])), _, 5, 3, _, _, _, _, _, rfl, rfl, (by decide +kernel),
     (by decide +kernel), rfl, rfl, rfl, rfl, (by decide +kernel), (by decide +kernel)⟩,
   ⟨(st {}), _, 5, 3, false, rfl, (by decide +kernel)⟩,
   ⟨(st {}), _, 5, 3, rfl, (by decide +kernel)⟩,
   ⟨(st {}), _, {}, (2 ^ 64 - 1), _, _, _, _, rfl, rfl, rfl, rfl, rfl, (by decide +kernel)⟩,
   ⟨(st {}), _, {}, (2 ^ 64 - 1), _, _, _, _, rfl, rfl, rfl, rfl, rfl, (by decide +kernel), (by decide +kernel)⟩,
   ⟨(st {}), _, {}, 65536, _, _, _, _, 1, rfl, rfl, rfl, rfl, rfl, (by decide +kernel)⟩,
   ⟨(st (wk [at3 [(0, 1, 0x60), (0x10, 4, 256)]])), _, 5, 3, _, _, _, _, rfl, rfl, (by decide +kernel), rfl, rfl, rfl, (by decide +kernel)⟩,
   ⟨(st (wk [at3 [(0, 1, 0x62), (0x10, 4, 255), (0x14, 1, 4)]])), _, 5, 3, _, _, _, _, _, rfl, rfl, (by decide +kernel),
     (by decide +kernel), rfl, rfl, rfl, rfl, (by decide +kernel), (by decide +kernel), (by decide +kernel), (by decide +kernel),
     (by decide +kernel)⟩,
   ⟨(st (wk [at3 [(0, 1, 0x62), (0x10, 4, 2 ^ 26 + 3 * 2 ^ 18 + 255)]] { sync := { remoteWaits := [(5, 3, 0)] } })), _, 5, 3, rfl,
     (by decide +kernel)⟩,
   ⟨(st {}), _, {}, 65536, _, _, _, _, rfl, rfl, rfl, rfl, rfl, rfl⟩,
   ⟨(st (wk [at3 [(0, 1, 0x60), (0x10, 4, 255), (0x24, 1, 1)]])), _, 5, 3, _, _, _, _, rfl, rfl, (by decide +kernel), rfl, rfl, rfl,
     (by decide +kernel), rfl, (by decide +kernel)⟩,
   ⟨(st (wk [at3 [(0, 1, 0x62), (0x10, 4, 255), (0x14, 1, 1)]])), _, 5, 3, _, _, _, _, _, _, _, rfl, rfl, (by decide +kernel),
     (by decide +kernel), rfl, rfl, rfl, rfl, (by decide +kernel), (by decide +kernel), (by decide +kernel), (by decide +kernel),
     (by decide +kernel), rfl, rfl⟩,
   ⟨(st (wk [at3 [(0, 1, 0x60), (0x10, 4, 255)]])), _, 5, 3, _, _, _, _, _, rfl, rfl, (by decide +kernel), rfl, rfl, rfl,
     (by decide +kernel), (by decide +kernel), rfl⟩,
   ⟨(st {}), _, 5, 3, .held, (.knotInit 5 3), 0x60, rfl, (by decide +kernel), (fun _ e => nomatch e), (by decide +kernel)⟩,
   ⟨(st (wk [at3 [(0, 1, 0x62), (0x10, 4, 255), (0x14, 1, 1)]] { sync := { knots := [(255, { broken := true })] } })), _, 5, 3, _, _, _, _,
     _, rfl, rfl, (by decide +kernel), (by decide +kernel), rfl, rfl, rfl, rfl, (by decide +kernel), (by decide +kernel),
     (by decide +kernel)⟩,
   ⟨(st (wk [at3 [(0, 1, 0x62), (0x10, 4, 255), (0x14, 1, 1)]] { sync := { knots := [(255, { poison := true })] } })), _, 5, 3, _, _, _, _,
     _, rfl, rfl, (by decide +kernel), (by decide +kernel), rfl, rfl, rfl, rfl, (by decide +kernel), (by decide +kernel),
     (by decide +kernel), (by decide +kernel)⟩,
   ⟨(st (wk [at3 [(0, 1, 0x62), (0x10, 4, 2 ^ 26 + 3 * 2 ^ 18 + 255), (0x14, 1, 1)]] { sync := { knots := [(255, { })] } })), _, 5, 3, _, _,
     _, _, _, rfl, rfl, (by decide +kernel), (by decide +kernel), rfl, rfl, rfl, rfl, (by decide +kernel), (by decide +kernel)⟩,
   ⟨(st (wk [at3 [(0, 1, 0x62), (0x10, 4, 2 ^ 26 + 3 * 2 ^ 18 + 255), (0x14, 1, 1)]]
     { sync := { knots := [(255, { })] }, ident := { admitted := true }, arch := { members := [(3, { st := .member })] }, faults := { fences := [{ scope := .membership }] } })),
     _, 5, 3, _, _, _, _, _, rfl, rfl, (by decide +kernel), (by decide +kernel), rfl, rfl, rfl, rfl, (by decide +kernel),
     (by decide +kernel), (by decide +kernel)⟩,
   ⟨(st (wk [at3 [(0, 1, 0x62), (0x10, 4, 2 ^ 26 + 3 * 2 ^ 18 + 255), (0x14, 1, 1)]]
     { sync := { knots := [(255, { })] }, ident := { admitted := true }, arch := { members := [(3, { st := .member })] } })), _, 5, 3, _, _,
     _, _, _, .held, _, rfl, rfl, (by decide +kernel), (by decide +kernel), rfl, rfl, rfl, rfl, (by decide +kernel), (by decide +kernel),
     (by decide +kernel), (by decide +kernel), rfl⟩,
   ⟨(st (wk [at3 [(0, 1, 0x62), (0x10, 4, 2 ^ 26 + 3 * 2 ^ 18 + 255), (0x14, 1, 1)]]
     { sync := { knots := [(255, { })] }, ident := { admitted := true }, arch := { members := [(3, { st := .member })] } })), _, 5, 3, _, _,
     _, _, _, (.done 0 0), rfl, rfl, (by decide +kernel), (by decide +kernel), rfl, rfl, rfl, rfl, (by decide +kernel), (by decide +kernel),
     (by decide +kernel), (by decide +kernel)⟩,
   ⟨(st (wk [at3 [(0, 1, 0x62), (0x10, 4, 2 ^ 26 + 3 * 2 ^ 18 + 255)]] { sync := { remoteWaits := [(5, 3, 0)] } })), _, 5, 3, .noEntry, _,
     true, _, rfl, rfl, (by decide +kernel), rfl, (by decide +kernel)⟩,
   ⟨(st (wk [at3 [(0, 1, 0x62), (0x10, 4, 2 ^ 26 + 3 * 2 ^ 18 + 255)]] { sync := { remoteWaits := [(5, 3, 0)] } })), _, 5, 3, (.done 0 0),
     _, true, _, rfl, rfl, (by decide +kernel), rfl, (by decide +kernel), rfl⟩,
   ⟨(st (wk [at3 [(0, 1, 0x62)]] { sync := { knots := [(255, { waiters := [{ remote := some 3, cond := 1 }] })] } })), _,
     { waiters := [{ remote := some 3, cond := 1 }] }, 255, { remote := some 3, cond := 1 }, _, _, 3, rfl, (by decide +kernel),
     (by decide +kernel), rfl, rfl, (by decide +kernel)⟩,
   ⟨(st (wk [at3 [(0, 1, 0x62)]] { sync := { knots := [(255, { waiters := [{ slip := 5, seq := 3, cond := 1 }] })] } })), _,
     { waiters := [{ slip := 5, seq := 3, cond := 1 }] }, 255, { slip := 5, seq := 3, cond := 1 }, _, _, _, rfl, (by decide +kernel),
     (by decide +kernel), rfl, rfl, (by decide +kernel), rfl⟩,
   ⟨(st {}), _, { parties := 5 }, 4, _, _, _, _, rfl, rfl, rfl, rfl, rfl, (by decide +kernel), (by decide +kernel)⟩⟩

theorem wit_PoolRows :
    (∃ (s : State) (h : Hw) (i : Nat) (q : BitVec 32) (d : Desc) (p : Pool) (k : Nat), h = clearSent s.hw ∧ findDesc (slipAt h i) q = some d
     ∧ opcode d = 0x63 ∧ leAt d.bytes 0x14 4 ≠ 0 ∧ (k, p) ∈ h.sync.pools ∧ { slip := i, seq := q, count := leAt d.bytes 0x12 1 } ∈ p.queue) ∧
    (∃ (s : State) (h : Hw) (i : Nat) (q : BitVec 32) (d : Desc), h = clearSent s.hw ∧ findDesc (slipAt h i) q = some d ∧ ((opcode d ≠ 0x63
     ∨ leAt d.bytes 0x14 4 = 0))) ∧
    (∃ (s : State) (h : Hw) (p : Nat) (id : Nat) (n : Nat) (r : HM) (v : List Nat) (x : Pool), h = clearSent s.hw ∧ x = poolAt h p id ∧
     readSlots (h, s.mem) x.die p (ringSlot x) x.head.toNat n = (r, .ok (false, v))) ∧
    (∃ (s : State) (h : Hw) (i : Nat) (q : W32) (d : Desc) (o : Hw × Memory), h = clearSent s.hw ∧ runnable h i q = some d ∧ opcode d ≠ 0x63
     ∧ o = (h, s.mem) ∧ NoWait (settle o).1) ∧
    (∃ (s : State) (h : Hw) (i : Nat) (q : W32) (d : Desc) (o : Hw × Memory), h = clearSent s.hw ∧ runnable h i q = some d ∧ opcode d ≠ 0x64
     ∧ o = (h, s.mem) ∧ NoWait (settle o).1) ∧
    (∃ (s : State) (h : Hw) (i : Nat) (q : W32) (d : Desc) (p : Nat) (id : Nat) (c : Nat) (x : Pool) (o : Hw × Memory), h = clearSent s.hw ∧
     runnable h i q = some d ∧ p = slipOwner h i ∧ id = leAt d.bytes 0x10 1 ∧ c = leAt d.bytes 0x12 1 ∧ x = poolAt h p id ∧ opcode d = 0x63
     ∧ (∀ w, w ∈ x.queue → (w.slip, w.seq) ≠ (i, d.seq)) ∧ (63 < id ∨ x.used = false ∨ (leAt d.bytes 0x18 8 = 0 ∧ 2 < c)) ∧ o = (haltDesc h
     i d 0x44, s.mem) ∧ NoWait (settle o).1) ∧
    (∃ (s : State) (h : Hw) (i : Nat) (q : W32) (d : Desc) (p : Nat) (id : Nat) (c : Nat) (x : Pool) (o : Hw × Memory), h = clearSent s.hw ∧
     runnable h i q = some d ∧ p = slipOwner h i ∧ id = leAt d.bytes 0x10 1 ∧ c = leAt d.bytes 0x12 1 ∧ x = poolAt h p id ∧ opcode d = 0x63
     ∧ (∀ w, w ∈ x.queue → (w.slip, w.seq) ≠ (i, d.seq)) ∧ id ≤ 63 ∧ x.used = true ∧ (leAt d.bytes 0x18 8 ≠ 0 ∨ c ≤ 2) ∧ x.poison = true ∧ o
     = (endDesc h i { d with poison := true } 0x01 0, s.mem) ∧ NoWait (settle o).1) ∧
    (∃ (s : State) (h : Hw) (i : Nat) (q : W32) (d : Desc) (p : Nat) (id : Nat) (c : Nat) (x : Pool) (r : HM) (v : List Nat) (o : Hw ×
     Memory), h = clearSent s.hw ∧ runnable h i q = some d ∧ p = slipOwner h i ∧ id = leAt d.bytes 0x10 1 ∧ c = leAt d.bytes 0x12 1 ∧ x =
     poolAt h p id ∧ opcode d = 0x63 ∧ (∀ w, w ∈ x.queue → (w.slip, w.seq) ≠ (i, d.seq)) ∧ id ≤ 63 ∧ x.used = true ∧ (leAt d.bytes 0x18 8 ≠
     0 ∨ c ≤ 2) ∧ x.poison = false ∧ x.queue = [] ∧ c ≤ (x.tail - x.head).toNat ∧ leAt d.bytes 0x18 8 = 0 ∧ poolTake (h, s.mem) p id c = (r,
     .ok (false, v)) ∧ o = (endDesc r.1 i
     { d with result := leBytes 4 (v.getD 0 0) ++ leBytes 4 (v.getD 1 0xFFFFFFFF) ++ leBytes 4 x.head.toNat ++ zeros 4 } 0 0, r.2) ∧ NoWait
     (settle o).1) ∧
    (∃ (s : State) (h : Hw) (i : Nat) (q : W32) (d : Desc) (p : Nat) (id : Nat) (c : Nat) (x : Pool) (o : Hw × Memory), h = clearSent s.hw ∧
     runnable h i q = some d ∧ p = slipOwner h i ∧ id = leAt d.bytes 0x10 1 ∧ c = leAt d.bytes 0x12 1 ∧ x = poolAt h p id ∧ opcode d = 0x63
     ∧ (∀ w, w ∈ x.queue → (w.slip, w.seq) ≠ (i, d.seq)) ∧ id ≤ 63 ∧ x.used = true ∧ (leAt d.bytes 0x18 8 ≠ 0 ∨ c ≤ 2) ∧ x.poison = false ∧
     (x.queue ≠ [] ∨ (x.tail - x.head).toNat < c) ∧ leAt d.bytes 0x13 1 = 1 ∧ o = (endDesc h i d 0x03 0, s.mem) ∧ NoWait (settle o).1) ∧
    (∃ (s : State) (h : Hw) (i : Nat) (q : W32) (d : Desc) (p : Nat) (id : Nat) (c : Nat) (x : Pool) (g : Hw) (o : Hw × Memory), h =
     clearSent s.hw ∧ runnable h i q = some d ∧ p = slipOwner h i ∧ id = leAt d.bytes 0x10 1 ∧ c = leAt d.bytes 0x12 1 ∧ x = poolAt h p id ∧
     opcode d = 0x63 ∧ (∀ w, w ∈ x.queue → (w.slip, w.seq) ≠ (i, d.seq)) ∧ id ≤ 63 ∧ x.used = true ∧ (leAt d.bytes 0x18 8 ≠ 0 ∨ c ≤ 2) ∧
     x.poison = false ∧ (x.queue ≠ [] ∨ (x.tail - x.head).toNat < c) ∧ leAt d.bytes 0x13 1 = 0 ∧ g = putDesc h i
     { d with phase := .waiting, since := h.tb.now, begun := true } ∧ o = (setPool g p id
     { x with queue := x.queue ++ [{ slip := i, seq := d.seq, count := c }] }, s.mem) ∧ NoWait (settle o).1) ∧
    (∃ (s : State) (h : Hw) (i : Nat) (q : W32) (d : Desc) (p : Nat) (id : Nat) (c : Nat) (x : Pool) (o : Hw × Memory), h = clearSent s.hw ∧
     runnable h i q = some d ∧ p = slipOwner h i ∧ id = leAt d.bytes 0x10 1 ∧ c = leAt d.bytes 0x12 1 ∧ x = poolAt h p id ∧ opcode d = 0x64
     ∧ (63 < id ∨ x.used = false ∨ (leAt d.bytes 0x18 8 = 0 ∧ 8 < c)) ∧ o = (haltDesc h i d 0x44, s.mem) ∧ NoWait (settle o).1) ∧
    (∃ (s : State) (h : Hw) (i : Nat) (q : W32) (d : Desc) (p : Nat) (id : Nat) (c : Nat) (x : Pool) (o : HM), h = clearSent s.hw ∧ runnable
     h i q = some d ∧ p = slipOwner h i ∧ id = leAt d.bytes 0x10 1 ∧ c = leAt d.bytes 0x12 1 ∧ x = poolAt h p id ∧ opcode d = 0x63 ∧ (∀ w, w
     ∈ x.queue → (w.slip, w.seq) ≠ (i, d.seq)) ∧ id ≤ 63 ∧ x.used = true ∧ (leAt d.bytes 0x18 8 ≠ 0 ∨ c ≤ 2) ∧ x.poison = false ∧ x.queue =
     [] ∧ c ≤ (x.tail - x.head).toNat ∧ o = serveAlloc (h, s.mem) i p id d c ∧ NoWait (settle o).1) ∧
    (∃ (s : State) (h : Hw) (i : Nat) (q : W32) (d : Desc) (p : Nat) (id : Nat) (c : Nat) (x : Pool) (o : Hw × Memory), h = clearSent s.hw ∧
     runnable h i q = some d ∧ p = slipOwner h i ∧ id = leAt d.bytes 0x10 1 ∧ c = leAt d.bytes 0x12 1 ∧ x = poolAt h p id ∧ opcode d = 0x64
     ∧ id ≤ 63 ∧ x.used = true ∧ (leAt d.bytes 0x18 8 ≠ 0 ∨ c ≤ 8) ∧ x.poison = true ∧ o = (endDesc h i { d with poison := true } 0x01 0,
     s.mem) ∧ NoWait (settle o).1) ∧
    (∃ (s : State) (h : Hw) (i : Nat) (q : W32) (d : Desc) (p : Nat) (id : Nat) (c : Nat) (x : Pool) (r : HM) (v : List Nat) (o : Hw ×
     Memory), h = clearSent s.hw ∧ runnable h i q = some d ∧ p = slipOwner h i ∧ id = leAt d.bytes 0x10 1 ∧ c = leAt d.bytes 0x12 1 ∧ x =
     poolAt h p id ∧ opcode d = 0x64 ∧ id ≤ 63 ∧ x.used = true ∧ (leAt d.bytes 0x18 8 ≠ 0 ∨ c ≤ 8) ∧ x.poison = false ∧ freeIndices (h,
     s.mem) i d c = (r, .ok (true, v)) ∧ o = (endDesc r.1 i { d with poison := true } 0x01 0, r.2) ∧ NoWait (settle o).1) ∧
    (∃ (s : State) (h : Hw) (i : Nat) (q : W32) (d : Desc) (p : Nat) (id : Nat) (c : Nat) (x : Pool) (r : HM) (v : List Nat) (o : Hw ×
     Memory), h = clearSent s.hw ∧ runnable h i q = some d ∧ p = slipOwner h i ∧ id = leAt d.bytes 0x10 1 ∧ c = leAt d.bytes 0x12 1 ∧ x =
     poolAt h p id ∧ opcode d = 0x64 ∧ id ≤ 63 ∧ x.used = true ∧ (leAt d.bytes 0x18 8 ≠ 0 ∨ c ≤ 8) ∧ x.poison = false ∧ freeIndices (h,
     s.mem) i d c = (r, .ok (false, v)) ∧ x.entries < (x.tail - x.head).toNat + c ∧ o = (haltDesc r.1 i d 0x45, r.2) ∧ NoWait (settle o).1) ∧
    (∃ (s : State) (h : Hw) (i : Nat) (q : W32) (d : Desc) (p : Nat) (id : Nat) (c : Nat) (x : Pool) (r : HM) (v : List Nat) (w : HM) (o :
     HM), h = clearSent s.hw ∧ runnable h i q = some d ∧ p = slipOwner h i ∧ id = leAt d.bytes 0x10 1 ∧ c = leAt d.bytes 0x12 1 ∧ x = poolAt
     h p id ∧ opcode d = 0x64 ∧ id ≤ 63 ∧ x.used = true ∧ (leAt d.bytes 0x18 8 ≠ 0 ∨ c ≤ 8) ∧ x.poison = false ∧ freeIndices (h, s.mem) i d
     c = (r, .ok (false, v)) ∧ (x.tail - x.head).toNat + c ≤ x.entries ∧ poolPut (poolIndices r x v).1 p id (poolIndices r x
     v).2 d.seq.toNat = (w, .ok) ∧ o = (settle (endDesc w.1
     i { d with result := leBytes 16 (poolAt w.1 p id).tail.toNat } 0 0, w.2)) ∧ NoWait (settle o).1) ∧
    (∃ (s : State) (h : Hw) (i : Nat) (q : W32) (d : Desc) (p : Nat) (id : Nat) (c : Nat) (x : Pool), h = clearSent s.hw ∧ runnable h i q =
     some d ∧ p = slipOwner h i ∧ id = leAt d.bytes 0x10 1 ∧ c = leAt d.bytes 0x12 1 ∧ x = poolAt h p id ∧ opcode d = 0x64 ∧ leAt d.bytes
     0x18 8 = 0) ∧
    (∃ (s : State) (h : Hw) (i : Nat) (q : W32) (d : Desc) (p : Nat) (id : Nat) (c : Nat) (x : Pool) (o : HM), h = clearSent s.hw ∧ runnable
     h i q = some d ∧ p = slipOwner h i ∧ id = leAt d.bytes 0x10 1 ∧ c = leAt d.bytes 0x12 1 ∧ x = poolAt h p id ∧ NoWait (settle o).1 ∧
     opcode d = 0x63 ∧ (∃ w, w ∈ x.queue ∧ (w.slip, w.seq) = (i, d.seq)) ∧ o = tagged (putDesc h i { d with phase := .waiting }, s.mem) i q) ∧
    (∃ (s : State) (h : Hw) (i : Nat) (q : W32) (d : Desc) (p : Nat) (id : Nat) (c : Nat) (x : Pool) (o : HM), h = clearSent s.hw ∧ runnable
     h i q = some d ∧ p = slipOwner h i ∧ id = leAt d.bytes 0x10 1 ∧ c = leAt d.bytes 0x12 1 ∧ x = poolAt h p id ∧ NoWait (settle o).1 ∧
     opcode d = 0x63 ∧ (∀ w, w ∈ x.queue → (w.slip, w.seq) ≠ (i, d.seq)) ∧ id ≤ 63 ∧ x.used = true ∧ (leAt d.bytes 0x18 8 ≠ 0 ∨ c ≤ 2) ∧
     x.poison = true ∧ o = tagged (endDesc h i { d with poison := true } 0x01 0, s.mem) i q) ∧
    (∃ (s : State) (h : Hw) (i : Nat) (q : W32) (d : Desc) (p : Nat) (id : Nat) (c : Nat) (x : Pool) (o : HM), h = clearSent s.hw ∧ runnable
     h i q = some d ∧ p = slipOwner h i ∧ id = leAt d.bytes 0x10 1 ∧ c = leAt d.bytes 0x12 1 ∧ x = poolAt h p id ∧ NoWait (settle o).1 ∧
     opcode d = 0x63 ∧ (∀ w, w ∈ x.queue → (w.slip, w.seq) ≠ (i, d.seq)) ∧ id ≤ 63 ∧ x.used = true ∧ (leAt d.bytes 0x18 8 ≠ 0 ∨ c ≤ 2) ∧
     x.poison = false ∧ x.queue = [] ∧ c ≤ (x.tail - x.head).toNat ∧ o = tagged (serveAlloc (h, s.mem) i p id d c) i q) ∧
    (∃ (s : State) (h : Hw) (i : Nat) (q : W32) (d : Desc) (p : Nat) (id : Nat) (c : Nat) (x : Pool) (o : HM), h = clearSent s.hw ∧ runnable
     h i q = some d ∧ p = slipOwner h i ∧ id = leAt d.bytes 0x10 1 ∧ c = leAt d.bytes 0x12 1 ∧ x = poolAt h p id ∧ NoWait (settle o).1 ∧
     opcode d = 0x63 ∧ (∀ w, w ∈ x.queue → (w.slip, w.seq) ≠ (i, d.seq)) ∧ (63 < id ∨ x.used = false ∨ (leAt d.bytes 0x18 8 = 0 ∧ 2 < c)) ∧
     o = tagged (haltDesc h i d 0x44, s.mem) i q) ∧
    (∃ (s : State) (h : Hw) (i : Nat) (q : W32) (d : Desc) (p : Nat) (id : Nat) (c : Nat) (x : Pool) (o : HM), h = clearSent s.hw ∧ runnable
     h i q = some d ∧ p = slipOwner h i ∧ id = leAt d.bytes 0x10 1 ∧ c = leAt d.bytes 0x12 1 ∧ x = poolAt h p id ∧ NoWait (settle o).1 ∧
     opcode d = 0x64 ∧ id ≤ 63 ∧ x.used = true ∧ (leAt d.bytes 0x18 8 ≠ 0 ∨ c ≤ 8) ∧ x.poison = true ∧ o = tagged (endDesc h i
     { d with poison := true } 0x01 0, s.mem) i q) ∧
    (∃ (s : State) (h : Hw) (i : Nat) (q : W32) (d : Desc) (p : Nat) (id : Nat) (c : Nat) (x : Pool) (o : HM), h = clearSent s.hw ∧ runnable
     h i q = some d ∧ p = slipOwner h i ∧ id = leAt d.bytes 0x10 1 ∧ c = leAt d.bytes 0x12 1 ∧ x = poolAt h p id ∧ NoWait (settle o).1 ∧
     opcode d = 0x63 ∧ (∀ w, w ∈ x.queue → (w.slip, w.seq) ≠ (i, d.seq)) ∧ id ≤ 63 ∧ x.used = true ∧ (leAt d.bytes 0x18 8 ≠ 0 ∨ c ≤ 2) ∧
     x.poison = false ∧ (x.queue ≠ [] ∨ (x.tail - x.head).toNat < c) ∧ leAt d.bytes 0x13 1 = 1 ∧ o = tagged (endDesc h i d 0x03 0, s.mem) i
     q) ∧
    (∃ (s : State) (h : Hw) (i : Nat) (q : W32) (d : Desc) (p : Nat) (id : Nat) (c : Nat) (x : Pool) (o : HM), h = clearSent s.hw ∧ runnable
     h i q = some d ∧ p = slipOwner h i ∧ id = leAt d.bytes 0x10 1 ∧ c = leAt d.bytes 0x12 1 ∧ x = poolAt h p id ∧ NoWait (settle o).1 ∧
     opcode d = 0x64 ∧ (63 < id ∨ x.used = false ∨ (leAt d.bytes 0x18 8 = 0 ∧ 8 < c)) ∧ o = tagged (haltDesc h i d 0x44, s.mem) i q) ∧
    (∃ (s : State) (h : Hw) (i : Nat) (q : W32) (d : Desc) (p : Nat) (id : Nat) (c : Nat) (x : Pool) (o : HM) (g : Hw), h = clearSent s.hw ∧
     runnable h i q = some d ∧ p = slipOwner h i ∧ id = leAt d.bytes 0x10 1 ∧ c = leAt d.bytes 0x12 1 ∧ x = poolAt h p id ∧ NoWait (settle
     o).1 ∧ opcode d = 0x63 ∧ (∀ w, w ∈ x.queue → (w.slip, w.seq) ≠ (i, d.seq)) ∧ id ≤ 63 ∧ x.used = true ∧ (leAt d.bytes 0x18 8 ≠ 0 ∨ c ≤
     2) ∧ x.poison = false ∧ (x.queue ≠ [] ∨ (x.tail - x.head).toNat < c) ∧ leAt d.bytes 0x13 1 ≠ 1 ∧ g = putDesc h i
     { d with phase := .waiting, since := h.tb.now, begun := true } ∧ o = tagged (setPool g p id
     { x with queue := x.queue ++ [{ slip := i, seq := d.seq, count := c }] }, s.mem) i q) ∧
    (∃ (s : State) (h : Hw) (i : Nat) (q : W32) (c : Instr) (op : Nat) (o : Hw × Memory), h = clearSent s.hw ∧ (c, op) ∈ [(Instr.poolAlloc i
     q, 0x63), (.poolFree i q, 0x64)] ∧ (∀ d, runnable h i q = some d → opcode d ≠ op) ∧ o = (h, s.mem) ∧ NoWait (settle o).1) ∧
    (∃ (s : State) (h : Hw) (i : Nat) (q : W32) (d : Desc) (p : Nat) (id : Nat) (c : Nat) (x : Pool) (o : HM) (r : HM) (b : Bad), h =
     clearSent s.hw ∧ runnable h i q = some d ∧ p = slipOwner h i ∧ id = leAt d.bytes 0x10 1 ∧ c = leAt d.bytes 0x12 1 ∧ x = poolAt h p id ∧
     NoWait (settle o).1 ∧ opcode d = 0x64 ∧ id ≤ 63 ∧ x.used = true ∧ (leAt d.bytes 0x18 8 ≠ 0 ∨ c ≤ 8) ∧ x.poison = false ∧ freeIndices
     (h, s.mem) i d c = (r, .error b) ∧ o = tagged (failAccess r.1 i d b, r.2) i q) ∧
    (∃ (s : State) (h : Hw) (i : Nat) (q : W32) (d : Desc) (p : Nat) (id : Nat) (c : Nat) (x : Pool) (o : HM) (r : HM) (v : List Nat), h =
     clearSent s.hw ∧ runnable h i q = some d ∧ p = slipOwner h i ∧ id = leAt d.bytes 0x10 1 ∧ c = leAt d.bytes 0x12 1 ∧ x = poolAt h p id ∧
     NoWait (settle o).1 ∧ opcode d = 0x64 ∧ id ≤ 63 ∧ x.used = true ∧ (leAt d.bytes 0x18 8 ≠ 0 ∨ c ≤ 8) ∧ x.poison = false ∧ freeIndices
     (h, s.mem) i d c = (r, .ok (true, v)) ∧ o = tagged (endDesc r.1 i { d with poison := true } 0x01 0, r.2) i q) ∧
    (∃ (s : State) (h : Hw) (i : Nat) (q : W32) (d : Desc) (p : Nat) (id : Nat) (c : Nat) (x : Pool) (o : HM) (r : HM) (v : List Nat), h =
     clearSent s.hw ∧ runnable h i q = some d ∧ p = slipOwner h i ∧ id = leAt d.bytes 0x10 1 ∧ c = leAt d.bytes 0x12 1 ∧ x = poolAt h p id ∧
     NoWait (settle o).1 ∧ opcode d = 0x64 ∧ id ≤ 63 ∧ x.used = true ∧ (leAt d.bytes 0x18 8 ≠ 0 ∨ c ≤ 8) ∧ x.poison = false ∧ freeIndices
     (h, s.mem) i d c = (r, .ok (false, v)) ∧ x.entries < (x.tail - x.head).toNat + c ∧ o = tagged (haltDesc r.1 i d 0x45, r.2) i q) ∧
    (∃ (s : State) (h : Hw) (i : Nat) (q : W32) (d : Desc) (p : Nat) (id : Nat) (c : Nat) (x : Pool) (o : HM) (r : HM) (v : List Nat) (w :
     HM) (u : Verdict) (a : Nat), h = clearSent s.hw ∧ runnable h i q = some d ∧ p = slipOwner h i ∧ id = leAt d.bytes 0x10 1 ∧ c = leAt
     d.bytes 0x12 1 ∧ x = poolAt h p id ∧ NoWait (settle o).1 ∧ opcode d = 0x64 ∧ id ≤ 63 ∧ x.used = true ∧ (leAt d.bytes 0x18 8 ≠ 0 ∨ c ≤
     8) ∧ x.poison = false ∧ freeIndices (h, s.mem) i d c = (r, .ok (false, v)) ∧ (x.tail - x.head).toNat + c ≤ x.entries ∧ poolPut (poolIndices r x v).1 p id (poolIndices r x
     v).2 d.seq.toNat = (w, u) ∧ u = .refused a ∧ o = tagged (haltRefused w.1 i d a, w.2) i q) ∧
    (∃ (s : State) (h : Hw) (i : Nat) (q : W32) (d : Desc) (p : Nat) (id : Nat) (c : Nat) (x : Pool) (o : HM) (r : HM) (v : List Nat) (w :
     HM) (u : Verdict), h = clearSent s.hw ∧ runnable h i q = some d ∧ p = slipOwner h i ∧ id = leAt d.bytes 0x10 1 ∧ c = leAt d.bytes 0x12
     1 ∧ x = poolAt h p id ∧ NoWait (settle o).1 ∧ opcode d = 0x64 ∧ id ≤ 63 ∧ x.used = true ∧ (leAt d.bytes 0x18 8 ≠ 0 ∨ c ≤ 8) ∧ x.poison
     = false ∧ freeIndices (h, s.mem) i d c = (r, .ok (false, v)) ∧ (x.tail - x.head).toNat + c ≤ x.entries ∧ poolPut (poolIndices r x v).1 p id (poolIndices r x
     v).2 d.seq.toNat =
     (w, u) ∧ u = .absent ∧ o = tagged (endDesc w.1 i d (goneStatus w.1) 0, w.2) i q) ∧
    (∃ (s : State) (h : Hw) (i : Nat) (q : W32) (d : Desc) (p : Nat) (id : Nat) (c : Nat) (x : Pool) (o : HM) (r : HM) (v : List Nat) (w :
     HM) (u : Verdict), h = clearSent s.hw ∧ runnable h i q = some d ∧ p = slipOwner h i ∧ id = leAt d.bytes 0x10 1 ∧ c = leAt d.bytes 0x12
     1 ∧ x = poolAt h p id ∧ NoWait (settle o).1 ∧ opcode d = 0x64 ∧ id ≤ 63 ∧ x.used = true ∧ (leAt d.bytes 0x18 8 ≠ 0 ∨ c ≤ 8) ∧ x.poison
     = false ∧ freeIndices (h, s.mem) i d c = (r, .ok (false, v)) ∧ (x.tail - x.head).toNat + c ≤ x.entries ∧ poolPut (poolIndices r x v).1 p id (poolIndices r x
     v).2 d.seq.toNat =
     (w, u) ∧ (∀ a, u ≠ .refused a) ∧ u ≠ .absent ∧ o = tagged (settle (endDesc w.1 i
     { d with result := leBytes 16 (poolAt w.1 p id).tail.toNat } (if u = .off then 0x06 else 0) 0, w.2)) i q) ∧
    (∃ (s : State) (h : Hw) (p : Nat) (id : Nat) (c : Nat) (r : HM) (e : Except Bad (Bool × List Nat)) (b : Bad), h = clearSent s.hw ∧
     poolTake (h, s.mem) p id c = (r, e) ∧ e = .error b) ∧
    (∃ (s : State) (h : Hw) (p : Nat) (id : Nat) (c : Nat) (r : HM) (e : Except Bad (Bool × List Nat)) (v : List Nat), h = clearSent s.hw ∧
     poolTake (h, s.mem) p id c = (r, e) ∧ e = .ok (true, v)) ∧
    (∃ (s : State) (h : Hw) (p : Nat) (id : Nat) (d : Desc) (c : Nat) (r : HM) (e : Except Bad (Bool × List Nat)) (v : List Nat), h =
     clearSent s.hw ∧ poolTake (h, s.mem) p id c = (r, e) ∧ e = .ok (false, v) ∧ buffersOf d = []) ∧
    (∃ (s : State) (h : Hw) (i : Nat) (p : Nat) (id : Nat) (d : Desc) (c : Nat) (r : HM) (e : Except Bad (Bool × List Nat)) (v : List Nat)
     (w : HM), h = clearSent s.hw ∧ poolTake (h, s.mem) p id c = (r, e) ∧ e = .ok (false, v) ∧ buffersOf d ≠ [] ∧ bufWrite r i d 0
     (v.flatMap (leBytes 4)) = (w, .ok)) ∧
    (∃ (s : State) (h : Hw) (p : Nat) (id : Nat) (n : Nat) (r : HM) (x : Pool) (v : List Nat), h = clearSent s.hw ∧ x = poolAt h p id ∧
     readSlots (h, s.mem) x.die p (ringSlot x) x.head.toNat n = (r, .ok (true, v))) ∧
    (∃ (s : State) (h : Hw) (p : Nat) (id : Nat) (n : Nat) (r : HM) (x : Pool) (b : Bad), h = clearSent s.hw ∧ x = poolAt h p id ∧ readSlots
     (h, s.mem) x.die p (ringSlot x) x.head.toNat n = (r, .error b)) ∧
    (∃ (s : State) (h : Hw) (p : Nat) (id : Nat) (v : List Nat) (w : HM) (u : Verdict) (x : Pool) (g : Hw) (n : Nat) (k : Knot), h =
     clearSent s.hw ∧ x = poolAt h p id ∧ writeSlots (h, s.mem) p (ringSlot x) x.tail.toNat v = (w, u) ∧ (∀ a, u ≠ .refused a) ∧ u ≠ .absent
     ∧ g = setPool w.1 p id { x with tail := x.tail + BitVec.ofNat 32 v.length } ∧ n = refKnot x.refill ∧ k = knotAt g n ∧ knotOpen g p n =
     false) ∧
    (∃ (s : State) (h : Hw) (p : Nat) (id : Nat) (v : List Nat) (w : HM) (u : Verdict) (x : Pool) (g : Hw) (n : Nat) (k : Knot), h =
     clearSent s.hw ∧ x = poolAt h p id ∧ writeSlots (h, s.mem) p (ringSlot x) x.tail.toNat v = (w, u) ∧ (∀ a, u ≠ .refused a) ∧ u ≠ .absent
     ∧ g = setPool w.1 p id { x with tail := x.tail + BitVec.ofNat 32 v.length } ∧ n = refKnot x.refill ∧ k = knotAt g n ∧ knotOpen g p n =
     true ∧ k.type = 0) ∧
    (∃ (s : State) (h : Hw) (p : Nat) (id : Nat) (v : List Nat) (w : HM) (u : Verdict) (x : Pool) (g : Hw) (n : Nat) (k : Knot), h =
     clearSent s.hw ∧ x = poolAt h p id ∧ writeSlots (h, s.mem) p (ringSlot x) x.tail.toNat v = (w, u) ∧ (∀ a, u ≠ .refused a) ∧ u ≠ .absent
     ∧ g = setPool w.1 p id { x with tail := x.tail + BitVec.ofNat 32 v.length } ∧ n = refKnot x.refill ∧ k = knotAt g n ∧ knotOpen g p n =
     true ∧ k.type ≠ 0) ∧
    (∃ (s : State) (h : Hw) (i : Nat) (q : W32) (d : Desc) (k : Nat) (p : Pool) (w : PoolWait) (o : Hw × Memory), h = clearSent s.hw ∧
     findDesc (slipAt h i) q = some d ∧ opcode d = 0x63 ∧ leAt d.bytes 0x14 4 ≠ 0 ∧ (k, p) ∈ h.sync.pools ∧ w ∈ p.queue ∧ (w.slip, w.seq) =
     (i, q) ∧ o = (endDesc (withdrawWaits (advanceTo h (d.since + 1000 * leAt d.bytes 0x14 4)) i (fun k => decide (k = q))) i d 0x03 0,
     s.mem) ∧ NoWait (settle o).1) ∧
    (∃ (s : State) (h : Hw) (i : Nat) (q : W32), h = clearSent s.hw ∧ (findDesc (slipAt h i) q = none ∨ (∀ k p, (k, p) ∈ h.sync.pools → ∀ w,
     w ∈ p.queue → (w.slip, w.seq) ≠ (i, q)))) ∧
    (∃ (s : State) (h : Hw) (x : Pool) (v : List Nat), h = clearSent s.hw ∧ v ≠ [] ∧ (∀ j, j ∈ v → j < x.entries) ∧ v.Nodup ∧ (∀ k, k <
     (x.tail - x.head).toNat → k < x.entries → ringIndex (h, s.mem) x (x.head.toNat + k) ∉ v)) ∧
    (∃ (s : State) (h : Hw) (x : Pool) (v : List Nat), h = clearSent s.hw ∧ ((∃ j, j ∈ v ∧ x.entries ≤ j) ∨ ¬ v.Nodup ∨ ∃ k, k < (x.tail -
     x.head).toNat ∧ k < x.entries ∧ ringIndex (h, s.mem) x (x.head.toNat + k) ∈ v)) :=
  ⟨⟨(st (wk [at3 [(0, 1, 0x63), (0x14, 4, 1), (0x12, 1, 2)]]
     { sync := { pools := [(0, { queue := [{ slip := 5, seq := 3, count := 2 }] })] } })), _, 5, 3, _,
     { queue := [{ slip := 5, seq := 3, count := 2 }] }, 0, rfl, rfl, (by decide +kernel), (by decide +kernel), (by decide +kernel),
     (by decide +kernel)⟩,
   ⟨(st (wk [at3 [(0, 1, 0x63), (0x12, 1, 2)]])), _, 5, 3, _, rfl, rfl, (by decide +kernel)⟩,
   ⟨(st (wk [] { sync := { pools := [(0, { used := true, die := 0, entries := 16, ring := 64, tail := 2, head := 0 })] } })), _, 0, 0, 2, _,
     [0, 0], _, rfl, rfl, pair_of (by decide +kernel)⟩,
   ⟨(st (wk [at3 [(0, 1, 0x64), (0x12, 1, 2)]])), _, 5, 3, _, _, rfl, rfl, (by decide +kernel), rfl, (by decide +kernel)⟩,
   ⟨(st (wk [at3 [(0, 1, 0x63), (0x12, 1, 2)]])), _, 5, 3, _, _, rfl, rfl, (by decide +kernel), rfl, (by decide +kernel)⟩,
   ⟨(st (wk [at3 [(0, 1, 0x63), (0x12, 1, 2), (0x10, 1, 64)]])), _, 5, 3, _, _, _, _, _, _, rfl, rfl, rfl, rfl, rfl, rfl,
     (by decide +kernel), (by decide +kernel), (by decide +kernel), rfl, (by decide +kernel)⟩,
   ⟨(st (wk [at3 [(0, 1, 0x63), (0x12, 1, 2)]] { sync := { pools := [(0, { used := true, poison := true })] } })), _, 5, 3, _, _, _, _, _,
     _, rfl, rfl, rfl, rfl, rfl, rfl, (by decide +kernel), (by decide +kernel), (by decide +kernel), (by decide +kernel),
     (by decide +kernel), (by decide +kernel), rfl, (by decide +kernel)⟩,
   ⟨(st (wk [at3 [(0, 1, 0x63), (0x12, 1, 2)]]
     { sync := { pools := [(0, { used := true, die := 0, entries := 16, ring := 64, tail := 2, head := 0 })] } })), _, 5, 3, _, _, _, _, _,
     _, [0, 0], _, rfl, rfl, rfl, rfl, rfl, rfl, (by decide +kernel), (by decide +kernel), (by decide +kernel), (by decide +kernel),
     (by decide +kernel), (by decide +kernel), (by decide +kernel), (by decide +kernel), (by decide +kernel), pair_of (by decide +kernel),
     rfl, (by decide +kernel)⟩,
   ⟨(st (wk [at3 [(0, 1, 0x63), (0x12, 1, 3), (0x18, 8, 4096), (0x13, 1, 1)]]
     { sync := { pools := [(0, { used := true, die := 0, entries := 16, ring := 64, tail := 2, head := 0 })] } })), _, 5, 3, _, _, _, _, _,
     _, rfl, rfl, rfl, rfl, rfl, rfl, (by decide +kernel), (by decide +kernel), (by decide +kernel), (by decide +kernel),
     (by decide +kernel), (by decide +kernel), (by decide +kernel), (by decide +kernel), rfl, (by decide +kernel)⟩,
   ⟨(st (wk [at3 [(0, 1, 0x63), (0x12, 1, 3), (0x18, 8, 4096)]]
     { sync := { pools := [(0, { used := true, die := 0, entries := 16, ring := 64, tail := 2, head := 0 })] } })), _, 5, 3, _, _, _, _, _,
     _, _, rfl, rfl, rfl, rfl, rfl, rfl, (by decide +kernel), (by decide +kernel), (by decide +kernel), (by decide +kernel),
     (by decide +kernel), (by decide +kernel), (by decide +kernel), (by decide +kernel), rfl, rfl, (by decide +kernel)⟩,
   ⟨(st (wk [at3 [(0, 1, 0x64), (0x12, 1, 2)]])), _, 5, 3, _, _, _, _, _, _, rfl, rfl, rfl, rfl, rfl, rfl, (by decide +kernel),
     (by decide +kernel), rfl, (by decide +kernel)⟩,
   ⟨(st (wk [at3 [(0, 1, 0x63), (0x12, 1, 2), (0x18, 8, 4096)]]
     { sync := { pools := [(0, { used := true, die := 0, entries := 16, ring := 64, tail := 2, head := 0 })] } })), _, 5, 3, _, _, _, _, _,
     _, rfl, rfl, rfl, rfl, rfl, rfl, (by decide +kernel), (by decide +kernel), (by decide +kernel), (by decide +kernel),
     (by decide +kernel), (by decide +kernel), (by decide +kernel), (by decide +kernel), rfl, (by decide +kernel)⟩,
   ⟨(st (wk
     [{ at3 [(0, 1, 0x64), (0x12, 1, 2), (0x18, 8, 4096)] with extents := [{ buf := 0, voff := 0, len := 8, paddr := 4096, wr := false }] }]
     { sync := { pools := [(0, { used := true, die := 0, entries := 16, ring := 64, tail := 2, head := 0, poison := true })] } })), _, 5, 3,
     _, _, _, _, _, _, rfl, rfl, rfl, rfl, rfl, rfl, (by decide +kernel), (by decide +kernel), (by decide +kernel), (by decide +kernel),
     (by decide +kernel), rfl, (by decide +kernel)⟩,
   ⟨(st (wk
     [{ at3 [(0, 1, 0x64), (0x12, 1, 2), (0x18, 8, 4096)] with extents := [{ buf := 0, voff := 0, len := 8, paddr := 4096, wr := false }] }]
     { sync := { pools := [(0, { used := true, die := 0, entries := 16, ring := 64, tail := 2, head := 0 })] }, coh := { poison := [(64, true)] } })),
     _, 5, 3, _, _, _, _, _, _, [0, 0], _, rfl, rfl, rfl, rfl, rfl, rfl, (by decide +kernel), (by decide +kernel), (by decide +kernel),
     (by decide +kernel), (by decide +kernel), pair_of (by decide +kernel), rfl, (by decide +kernel)⟩,
   ⟨(st (wk
     [{ at3 [(0, 1, 0x64), (0x12, 1, 2), (0x18, 8, 4096)] with extents := [{ buf := 0, voff := 0, len := 8, paddr := 4096, wr := false }] }]
     { sync := { pools := [(0, { used := true, die := 0, entries := 16, ring := 64, tail := 15, head := 0 })] } })), _, 5, 3, _, _, _, _, _,
     _, [0, 0], _, rfl, rfl, rfl, rfl, rfl, rfl, (by decide +kernel), (by decide +kernel), (by decide +kernel), (by decide +kernel),
     (by decide +kernel), pair_of (by decide +kernel), (by decide +kernel), rfl, (by decide +kernel)⟩,
   ⟨(st (wk
     [{ at3 [(0, 1, 0x64), (0x12, 1, 2), (0x18, 8, 4096)] with extents := [{ buf := 0, voff := 0, len := 8, paddr := 4096, wr := false }] }]
     { sync := { pools := [(0, { used := true, die := 0, entries := 16, ring := 64, tail := 2, head := 0 })] } })), _, 5, 3, _, _, _, _, _,
     _, [0, 0], _, _, rfl, rfl, rfl, rfl, rfl, rfl, (by decide +kernel), (by decide +kernel), (by decide +kernel), (by decide +kernel),
     (by decide +kernel), pair_of (by decide +kernel), (by decide +kernel), pair_of (by decide +kernel), rfl, (by decide +kernel)⟩,
   ⟨(st (wk [at3 [(0, 1, 0x64), (0x12, 1, 2)]])), _, 5, 3, _, _, _, _, _, rfl, rfl, rfl, rfl, rfl, rfl, (by decide +kernel),
     (by decide +kernel)⟩,
   ⟨(st (wk [at3 [(0, 1, 0x63), (0x14, 4, 1), (0x12, 1, 2)]]
     { sync := { pools := [(0, { queue := [{ slip := 5, seq := 3, count := 2 }] })] } })), _, 5, 3, _, _, _, _, _, _, rfl, rfl, rfl, rfl,
     rfl, rfl, (by decide +kernel), (by decide +kernel), (by decide +kernel), rfl⟩,
   ⟨(st (wk [at3 [(0, 1, 0x63), (0x12, 1, 2)]] { sync := { pools := [(0, { used := true, poison := true })] } })), _, 5, 3, _, _, _, _, _,
     _, rfl, rfl, rfl, rfl, rfl, rfl, (by decide +kernel), (by decide +kernel), (by decide +kernel), (by decide +kernel),
     (by decide +kernel), (by decide +kernel), (by decide +kernel), rfl⟩,
   ⟨(st (wk [at3 [(0, 1, 0x63), (0x12, 1, 2), (0x18, 8, 4096)]]
     { sync := { pools := [(0, { used := true, die := 0, entries := 16, ring := 64, tail := 2, head := 0 })] } })), _, 5, 3, _, _, _, _, _,
     _, rfl, rfl, rfl, rfl, rfl, rfl, (by decide +kernel), (by decide +kernel), (by decide +kernel), (by decide +kernel),
     (by decide +kernel), (by decide +kernel), (by decide +kernel), (by decide +kernel), (by decide +kernel), rfl⟩,
   ⟨(st (wk [at3 [(0, 1, 0x63), (0x12, 1, 2)]])), _, 5, 3, _, _, _, _, _, _, rfl, rfl, rfl, rfl, rfl, rfl, (by decide +kernel),
     (by decide +kernel), (by decide +kernel), (by decide +kernel), rfl⟩,
   ⟨(st (wk
     [{ at3 [(0, 1, 0x64), (0x12, 1, 2), (0x18, 8, 4096)] with extents := [{ buf := 0, voff := 0, len := 8, paddr := 4096, wr := false }] }]
     { sync := { pools := [(0, { used := true, die := 0, entries := 16, ring := 64, tail := 2, head := 0, poison := true })] } })), _, 5, 3,
     _, _, _, _, _, _, rfl, rfl, rfl, rfl, rfl, rfl, (by decide +kernel), (by decide +kernel), (by decide +kernel), (by decide +kernel),
     (by decide +kernel), (by decide +kernel), rfl⟩,
   ⟨(st (wk [at3 [(0, 1, 0x63), (0x12, 1, 3), (0x18, 8, 4096), (0x13, 1, 1)]]
     { sync := { pools := [(0, { used := true, die := 0, entries := 16, ring := 64, tail := 2, head := 0 })] } })), _, 5, 3, _, _, _, _, _,
     _, rfl, rfl, rfl, rfl, rfl, rfl, (by decide +kernel), (by decide +kernel), (by decide +kernel), (by decide +kernel),
     (by decide +kernel), (by decide +kernel), (by decide +kernel), (by decide +kernel), (by decide +kernel), rfl⟩,
   ⟨(st (wk [at3 [(0, 1, 0x64), (0x12, 1, 2)]])), _, 5, 3, _, _, _, _, _, _, rfl, rfl, rfl, rfl, rfl, rfl, (by decide +kernel),
     (by decide +kernel), (by decide +kernel), rfl⟩,
   ⟨(st (wk [at3 [(0, 1, 0x63), (0x12, 1, 3), (0x18, 8, 4096)]]
     { sync := { pools := [(0, { used := true, die := 0, entries := 16, ring := 64, tail := 2, head := 0 })] } })), _, 5, 3, _, _, _, _, _,
     _, _, rfl, rfl, rfl, rfl, rfl, rfl, (by decide +kernel), (by decide +kernel), (by decide +kernel), (by decide +kernel),
     (by decide +kernel), (by decide +kernel), (by decide +kernel), (by decide +kernel), (by decide +kernel), rfl, rfl⟩,
   ⟨(st {}), _, 5, 3, (.poolAlloc 5 3), 0x63, _, rfl, (by decide +kernel), (fun _ e => nomatch e), rfl, (by decide +kernel)⟩,
   ⟨(st (wk
     [{ at3 [(0, 1, 0x64), (0x12, 1, 1), (0x18, 8, 4096)] with extents := [{ buf := 0, voff := 0, len := 8, paddr := 2 ^ 21, wr := true }] }]
     { sync := { pools := [(0, { used := true, die := 0, entries := 16, ring := 64, tail := 2, head := 0 })] } })), _, 5, 3, _, _, _, _, _,
     _, _, (.refused (2 ^ 21)), rfl, rfl, rfl, rfl, rfl, rfl, (by decide +kernel), (by decide +kernel), (by decide +kernel),
     (by decide +kernel), (by decide +kernel), (by decide +kernel), pair_of (by decide +kernel), rfl⟩,
   ⟨(st (wk
     [{ at3 [(0, 1, 0x64), (0x12, 1, 1), (0x18, 8, 4096)] with extents := [{ buf := 0, voff := 0, len := 8, paddr := 4096, wr := true }] }]
     { sync := { pools := [(0, { used := true, die := 0, entries := 16, ring := 64, tail := 2, head := 0 })] }, coh := { poison := [(64, true)] } })),
     _, 5, 3, _, _, _, _, _, _, _, [0], rfl, rfl, rfl, rfl, rfl, rfl, (by decide +kernel), (by decide +kernel), (by decide +kernel),
     (by decide +kernel), (by decide +kernel), (by decide +kernel), pair_of (by decide +kernel), rfl⟩,
   ⟨(st (wk [(at3 [(0, 1, 0x64), (0x12, 1, 1)])]
     { sync := { pools := [(0, { used := true, die := 0, entries := 2, ring := 64, tail := 2, head := 0 })] } })), _, 5, 3, _, _, _, _, _,
     _, _, [0], rfl, rfl, rfl, rfl, rfl, rfl, (by decide +kernel), (by decide +kernel), (by decide +kernel), (by decide +kernel),
     (by decide +kernel), (by decide +kernel), pair_of (by decide +kernel), (by decide +kernel), rfl⟩,
   ⟨(st (wk [(at3 [(0, 1, 0x64), (0x12, 1, 1)])]
     { sync := { pools := [(0, { used := true, die := 0, entries := 16, ring := 2 ^ 21, tail := 2, head := 0 })] } })), _, 5, 3, _, _, _, _,
     _, _, _, [0], _, (.refused (2 ^ 21 + 8)), (2 ^ 21 + 8), rfl, rfl, rfl, rfl, rfl, rfl, (by decide +kernel), (by decide +kernel),
     (by decide +kernel), (by decide +kernel), (by decide +kernel), (by decide +kernel), pair_of (by decide +kernel), (by decide +kernel),
     pair_of (by decide +kernel), rfl, rfl⟩,
   ⟨(st (wk [(at3 [(0, 1, 0x64), (0x12, 1, 1)])]
     { sync := { pools := [(0, { used := true, die := 0, entries := 16, ring := 3 * 2 ^ 48, tail := 2, head := 0 })] } })), _, 5, 3, _, _,
     _, _, _, _, _, [0], _, .absent, rfl, rfl, rfl, rfl, rfl, rfl, (by decide +kernel), (by decide +kernel), (by decide +kernel),
     (by decide +kernel), (by decide +kernel), (by decide +kernel), pair_of (by decide +kernel), (by decide +kernel), pair_of
     (by decide +kernel), rfl, rfl⟩,
   ⟨(st (wk [(at3 [(0, 1, 0x64), (0x12, 1, 1)])]
     { sync := { pools := [(0, { used := true, die := 0, entries := 16, ring := 64, tail := 2, head := 0 })] } })), _, 5, 3, _, _, _, _, _,
     _, _, [0], _, .ok, rfl, rfl, rfl, rfl, rfl, rfl, (by decide +kernel), (by decide +kernel), (by decide +kernel), (by decide +kernel),
     (by decide +kernel), (by decide +kernel), pair_of (by decide +kernel), (by decide +kernel), pair_of (by decide +kernel), (fun _ e =>
     nomatch e), (by decide +kernel), rfl⟩,
   ⟨(st (wk [] { sync := { pools := [(0, { used := true, die := 0, entries := 16, ring := 2 ^ 21, tail := 2, head := 0 })] } })), _, 0, 0,
     1, _, (.error (.refused (2 ^ 21))), (.refused (2 ^ 21)), rfl, pair_of (by decide +kernel), rfl⟩,
   ⟨(st (wk []
     { sync := { pools := [(0, { used := true, die := 0, entries := 16, ring := 64, tail := 2, head := 0 })] }, coh := { poison := [(1, true)] } })),
     _, 0, 0, 1, _, (.ok (true, [0])), [0], rfl, pair_of (by decide +kernel), rfl⟩,
   ⟨(st (wk [] { sync := { pools := [(0, { used := true, die := 0, entries := 16, ring := 64, tail := 2, head := 0 })] } })), _, 0, 0, (at3
     [(0, 1, 0x63), (0x12, 1, 1)]), 1, _, (.ok (false, [0])), [0], rfl, pair_of (by decide +kernel), rfl, (by decide +kernel)⟩,
   ⟨(st (wk
     [{ at3 [(0, 1, 0x63), (0x12, 1, 1), (0x18, 8, 4096)] with extents := [{ buf := 0, voff := 0, len := 8, paddr := 4096, wr := true }] }]
     { sync := { pools := [(0, { used := true, die := 0, entries := 16, ring := 64, tail := 2, head := 0 })] } })), _, 5, 0, 0,
     { at3 [(0, 1, 0x63), (0x12, 1, 1), (0x18, 8, 4096)] with extents := [{ buf := 0, voff := 0, len := 8, paddr := 4096, wr := true }] },
     1, _, (.ok (false, [0])), [0], _, rfl, pair_of (by decide +kernel), rfl, (by decide +kernel), pair_of (by decide +kernel)⟩,
   ⟨(st (wk []
     { sync := { pools := [(0, { used := true, die := 0, entries := 16, ring := 64, tail := 2, head := 0 })] }, coh := { poison := [(1, true)] } })),
     _, 0, 0, 1, _, _, [0], rfl, rfl, pair_of (by decide +kernel)⟩,
   ⟨(st (wk [] { sync := { pools := [(0, { used := true, die := 0, entries := 16, ring := 2 ^ 21, tail := 2, head := 0 })] } })), _, 0, 0,
     1, _, _, (.refused (2 ^ 21)), rfl, rfl, pair_of (by decide +kernel)⟩,
   ⟨(st (wk [] { sync := { pools := [(0, { used := true, die := 0, entries := 16, ring := 64, tail := 2, head := 0, refill := 256 })] } })),
     _, 0, 0, [0], _, .ok, _, _, _, _, rfl, rfl, pair_of (by decide +kernel), (fun _ e => nomatch e), (by decide +kernel), rfl, rfl, rfl,
     (by decide +kernel)⟩,
   ⟨(st (wk [] { sync := { pools := [(0, { used := true, die := 0, entries := 16, ring := 64, tail := 2, head := 0 })] } })), _, 0, 0, [0],
     _, .ok, _, _, _, _, rfl, rfl, pair_of (by decide +kernel), (fun _ e => nomatch e), (by decide +kernel), rfl, rfl, rfl,
     (by decide +kernel), (by decide +kernel)⟩,
   ⟨(st (wk []
     { sync := { pools := [(0, { used := true, die := 0, entries := 16, ring := 64, tail := 2, head := 0 })], knots := [(0, { type := 1 })] } })),
     _, 0, 0, [0], _, .ok, _, _, _, _, rfl, rfl, pair_of (by decide +kernel), (fun _ e => nomatch e), (by decide +kernel), rfl, rfl, rfl,
     (by decide +kernel), (by decide +kernel)⟩,
   ⟨(st (wk [(at3 [(0, 1, 0x63), (0x14, 4, 1), (0x12, 1, 2)])]
     { sync := { pools := [(0, { queue := [{ slip := 5, seq := 3, count := 2 }] })] } })), _, 5, 3, _, 0,
     { queue := [{ slip := 5, seq := 3, count := 2 }] }, { slip := 5, seq := 3, count := 2 }, _, rfl, rfl, (by decide +kernel),
     (by decide +kernel), (by decide +kernel), (by decide +kernel), (by decide +kernel), rfl, (by decide +kernel)⟩,
   ⟨(st {}), _, 5, 3, rfl, (Or.inl rfl)⟩,
   ⟨(st {}), _, { entries := 4 }, [1, 3], rfl, (by decide), (by decide), (by decide), (by decide +kernel)⟩,
   ⟨(st {}), _, { entries := 4 }, [1, 1], rfl, .inr (.inl (by decide))⟩⟩

theorem wit_LedgerRows :
    (∃ (s : State) (h : Hw) (i : Nat) (d : Desc) (n : Nat) (x : Ledger), h = clearSent s.hw ∧ n = leAt d.bytes 0x10 2 ∧ x = ledgerAt h n ∧
     ledgerOwner h n = slipOwner h i ∧ ((x.held = true ∨ x.queue ≠ []))) ∧
    (∃ (s : State) (h : Hw) (i : Nat) (d : Desc) (n : Nat) (x : Ledger), h = clearSent s.hw ∧ n = leAt d.bytes 0x10 2 ∧ x = ledgerAt h n ∧
     ledgerOwner h n ≠ slipOwner h i) ∧
    (∃ (s : State) (h : Hw) (i : Nat) (d : Desc) (n : Nat) (x : Ledger), h = clearSent s.hw ∧ n = leAt d.bytes 0x10 2 ∧ x = ledgerAt h n ∧
     ledgerOwner h n = slipOwner h i ∧ x.held = false ∧ x.queue = []) ∧
    (∃ (s : State) (h : Hw) (i : Nat) (d : Desc) (n : Nat) (x : Ledger) (p : Nat), h = clearSent s.hw ∧ n = leAt d.bytes 0x10 2 ∧ x =
     ledgerAt h n ∧ p = slipOwner h i ∧ ledgerOwner h n = p ∧ opcode d = 0x70 ∧ x.active = true) ∧
    (∃ (s : State) (h : Hw) (i : Nat) (d : Desc) (n : Nat) (x : Ledger) (p : Nat) (y : Ledger), h = clearSent s.hw ∧ n = leAt d.bytes 0x10 2
     ∧ x = ledgerAt h n ∧ p = slipOwner h i ∧ ledgerOwner h n = p ∧ opcode d = 0x70 ∧ x.active = false ∧ (poolAt h p (leAt d.bytes 0x14
     1)).used = true ∧ (poolAt h p (leAt d.bytes 0x14 1)).die = n / 16384 ∧ y =
     ({ list := leAt d.bytes 0x18 8 / 64 % 2 ^ 50, pool := leAt d.bytes 0x14 1, active := true, cap := leAt d.bytes 0x20 4, spare := leAt d.bytes 0x15 1, queue := x.queue }
     : Ledger)) ∧
    (∃ (s : State) (h : Hw) (i : Nat) (d : Desc) (n : Nat) (x : Ledger) (p : Nat), h = clearSent s.hw ∧ n = leAt d.bytes 0x10 2 ∧ x =
     ledgerAt h n ∧ p = slipOwner h i ∧ ledgerOwner h n = p ∧ opcode d ∈ [0x71, 0x72, 0x73] ∧ x.poison ≠ 0) ∧
    (∃ (s : State) (h : Hw) (i : Nat) (d : Desc) (n : Nat) (x : Ledger) (p : Nat), h = clearSent s.hw ∧ n = leAt d.bytes 0x10 2 ∧ x =
     ledgerAt h n ∧ p = slipOwner h i ∧ ledgerOwner h n = p ∧ opcode d = 0x71 ∧ x.poison = 0 ∧ x.active = false) ∧
    (∃ (s : State) (h : Hw) (i : Nat) (d : Desc) (n : Nat) (x : Ledger) (p : Nat), h = clearSent s.hw ∧ n = leAt d.bytes 0x10 2 ∧ x =
     ledgerAt h n ∧ p = slipOwner h i ∧ ledgerOwner h n = p ∧ opcode d = 0x71 ∧ x.poison = 0 ∧ x.active = true ∧ 16 * x.cap < x.t + leAt
     d.bytes 0x18 4) ∧
    (∃ (s : State) (h : Hw) (i : Nat) (d : Desc) (n : Nat) (x : Ledger) (p : Nat) (y : Ledger), h = clearSent s.hw ∧ n = leAt d.bytes 0x10 2
     ∧ x = ledgerAt h n ∧ p = slipOwner h i ∧ ledgerOwner h n = p ∧ opcode d = 0x71 ∧ x.poison = 0 ∧ x.active = true ∧ x.t + leAt d.bytes
     0x18 4 ≤ 16 * x.cap ∧ x.t + leAt d.bytes 0x18 4 ≤ 16 * x.npages ∧ y =
     { x with t := x.t + leAt d.bytes 0x18 4, gen := x.gen + 1, held := false }) ∧
    (∃ (s : State) (h : Hw) (i : Nat) (d : Desc) (n : Nat) (x : Ledger) (p : Nat) (l : Nat), h = clearSent s.hw ∧ n = leAt d.bytes 0x10 2 ∧
     x = ledgerAt h n ∧ p = slipOwner h i ∧ ledgerOwner h n = p ∧ opcode d = 0x72 ∧ x.poison = 0 ∧ l = (if leAt d.bytes 0x14 1 = 1 then x.t
     else x.l + leAt d.bytes 0x18 4) ∧ x.t < l) ∧
    (∃ (s : State) (h : Hw) (i : Nat) (d : Desc) (n : Nat) (x : Ledger) (p : Nat) (l : Nat) (y : Ledger), h = clearSent s.hw ∧ n = leAt
     d.bytes 0x10 2 ∧ x = ledgerAt h n ∧ p = slipOwner h i ∧ ledgerOwner h n = p ∧ opcode d = 0x72 ∧ x.poison = 0 ∧ l = (if leAt d.bytes
     0x14 1 = 1 then x.t else x.l + leAt d.bytes 0x18 4) ∧ l ≤ x.t ∧ y = { x with l := l, gen := if l = x.l then x.gen else x.gen + 1 }) ∧
    (∃ (s : State) (h : Hw) (i : Nat) (d : Desc) (n : Nat) (x : Ledger) (p : Nat), h = clearSent s.hw ∧ n = leAt d.bytes 0x10 2 ∧ x =
     ledgerAt h n ∧ p = slipOwner h i ∧ ledgerOwner h n = p ∧ opcode d = 0x74 ∧ x.poison = 0 ∧ leAt d.bytes 0x14 1 = 0 ∧ x.l < leAt d.bytes
     0x18 4) ∧
    (∃ (s : State) (h : Hw) (i : Nat) (d : Desc) (n : Nat) (x : Ledger) (p : Nat) (y : Ledger) (l : Nat), h = clearSent s.hw ∧ n = leAt
     d.bytes 0x10 2 ∧ x = ledgerAt h n ∧ p = slipOwner h i ∧ ledgerOwner h n = p ∧ (((opcode d = 0x73 ∧ l = x.l) ∨ (opcode d = 0x74 ∧ leAt
     d.bytes 0x14 1 = 0 ∧ l = leAt d.bytes 0x18 4 ∧ l ≤ x.l))) ∧ x.poison = 0 ∧ x.npages ≤ ceilDiv l 16 + x.spare ∧ tabWf {} h.sync.ledgers
     = true ∧ (y = { x with l := l, t := l, gen := if x.l ≠ l ∨ x.t ≠ l then x.gen + 1 else x.gen })) ∧
    (∃ (s : State) (h : Hw) (i : Nat) (q : BitVec 32) (d : Desc) (p : Pool) (k : Nat) (n : Nat), h = clearSent s.hw ∧ findDesc (slipAt h i)
     q = some d ∧ opcode d = 0x71 ∧ leAt d.bytes 0x1C 4 ≠ 0 ∧ (k, p) ∈ h.sync.pools ∧
     { slip := i, seq := q, count := n, ledger := some (leAt d.bytes 0x10 2) } ∈ p.queue) ∧
    (∃ (s : State) (h : Hw) (i : Nat) (q : BitVec 32) (d : Desc), h = clearSent s.hw ∧ findDesc (slipAt h i) q = some d ∧ ((opcode d ≠ 0x71
     ∨ leAt d.bytes 0x1C 4 = 0))) ∧
    (∃ (s : State) (h : Hw) (i : Nat) (q : W32) (d : Desc) (c : Instr) (op : Nat) (o : HM), h = clearSent s.hw ∧ runnable h i q = some d ∧
     (c, op) ∈ [(Instr.ledgerInit i q, 0x70), (.ledgerExtend i q, 0x71), (.ledgerCommit i q, 0x72), (.ledgerRollback i q, 0x73),
     (.ledgerTrim i q, 0x74)] ∧ opcode d = op ∧ o = (ledgerDesc (h, s.mem) i d) ∧ NoWait (settle o).1) ∧
    (∃ (s : State) (h : Hw) (i : Nat) (q : W32) (d : Desc) (c : Instr) (op : Nat) (o : Hw × Memory), h = clearSent s.hw ∧ runnable h i q =
     some d ∧ (c, op) ∈ [(Instr.ledgerInit i q, 0x70), (.ledgerExtend i q, 0x71), (.ledgerCommit i q, 0x72), (.ledgerRollback i q, 0x73),
     (.ledgerTrim i q, 0x74)] ∧ opcode d ≠ op ∧ o = (h, s.mem) ∧ NoWait (settle o).1) ∧
    (∃ (s : State) (h : Hw) (i : Nat) (q : W32) (c : Instr) (op : Nat) (o : HM), h = clearSent s.hw ∧ (c, op) ∈ [(Instr.ledgerInit i q,
     0x70), (.ledgerExtend i q, 0x71), (.ledgerCommit i q, 0x72), (.ledgerRollback i q, 0x73), (.ledgerTrim i q, 0x74)] ∧ NoWait (settle
     o).1 ∧ (∀ d, runnable h i q = some d → opcode d ≠ op) ∧ o = (h, s.mem)) ∧
    (∃ (s : State) (h : Hw) (i : Nat) (d : Desc) (n : Nat) (x : Ledger) (p : Nat) (pl : Pool) (c : Nat) (need : Nat), h = clearSent s.hw ∧ n
     = leAt d.bytes 0x10 2 ∧ x = ledgerAt h n ∧ p = slipOwner h i ∧ ledgerOwner h n = p ∧ pl = poolAt h p x.pool ∧ c = leAt d.bytes 0x18 4 ∧
     need = ceilDiv (x.t + c) 16 - x.npages ∧ opcode d = 0x70 ∧ x.active = false ∧ ((poolAt h p (leAt d.bytes 0x14 1)).used = false ∨
     (poolAt h p (leAt d.bytes 0x14 1)).die ≠ n / 16384)) ∧
    (∃ (s : State) (h : Hw) (i : Nat) (d : Desc) (n : Nat) (x : Ledger) (p : Nat) (pl : Pool) (c : Nat) (need : Nat) (y : Ledger), h =
     clearSent s.hw ∧ n = leAt d.bytes 0x10 2 ∧ x = ledgerAt h n ∧ p = slipOwner h i ∧ ledgerOwner h n = p ∧ pl = poolAt h p x.pool ∧ c =
     leAt d.bytes 0x18 4 ∧ need = ceilDiv (x.t + c) 16 - x.npages ∧ opcode d = 0x70 ∧ x.active = false ∧ (poolAt h p (leAt d.bytes 0x14
     1)).used = true ∧ (poolAt h p (leAt d.bytes 0x14 1)).die = n / 16384 ∧ y =
     ({ list := leAt d.bytes 0x18 8 / 64 % 2 ^ 50, pool := leAt d.bytes 0x14 1, active := true, cap := leAt d.bytes 0x20 4, spare := leAt d.bytes 0x15 1, queue := x.queue }
     : Ledger)) ∧
    (∃ (s : State) (h : Hw) (i : Nat) (d : Desc) (n : Nat) (x : Ledger) (p : Nat) (pl : Pool) (c : Nat) (need : Nat) (y : Ledger), h =
     clearSent s.hw ∧ n = leAt d.bytes 0x10 2 ∧ x = ledgerAt h n ∧ p = slipOwner h i ∧ ledgerOwner h n = p ∧ pl = poolAt h p x.pool ∧ c =
     leAt d.bytes 0x18 4 ∧ need = ceilDiv (x.t + c) 16 - x.npages ∧ opcode d = 0x71 ∧ x.poison = 0 ∧ x.active = true ∧ x.t + c ≤ 16 * x.cap
     ∧ x.t + c ≤ 16 * x.npages ∧ y = { x with t := x.t + c, gen := x.gen + 1, held := false }) ∧
    (∃ (s : State) (h : Hw) (i : Nat) (d : Desc) (n : Nat) (x : Ledger) (p : Nat) (pl : Pool) (c : Nat) (need : Nat) (y : Ledger) (l : Nat),
     h = clearSent s.hw ∧ n = leAt d.bytes 0x10 2 ∧ x = ledgerAt h n ∧ p = slipOwner h i ∧ ledgerOwner h n = p ∧ pl = poolAt h p x.pool ∧ c
     = leAt d.bytes 0x18 4 ∧ need = ceilDiv (x.t + c) 16 - x.npages ∧ ((opcode d = 0x73 ∧ l = x.l) ∨ (opcode d = 0x74 ∧ leAt d.bytes 0x14 1
     ≠ 1 ∧ l = c ∧ l ≤ x.l)) ∧ x.poison = 0 ∧ x.npages ≤ ceilDiv l 16 + x.spare ∧ tabWf {} h.sync.ledgers = true ∧ y =
     { x with l := l, t := l, gen := if x.l ≠ l ∨ x.t ≠ l then x.gen + 1 else x.gen }) ∧
    (∃ (s : State) (h : Hw) (i : Nat) (d : Desc) (n : Nat) (x : Ledger) (p : Nat) (pl : Pool) (c : Nat) (need : Nat) (l : Nat) (r : HM) (e :
     Returned), h = clearSent s.hw ∧ n = leAt d.bytes 0x10 2 ∧ x = ledgerAt h n ∧ p = slipOwner h i ∧ ledgerOwner h n = p ∧ pl = poolAt h p
     x.pool ∧ c = leAt d.bytes 0x18 4 ∧ need = ceilDiv (x.t + c) 16 - x.npages ∧ ((opcode d = 0x73 ∧ l = x.l) ∨ (opcode d = 0x74 ∧ leAt
     d.bytes 0x14 1 ≠ 1 ∧ l = c ∧ l ≤ x.l)) ∧ x.poison = 0 ∧ setLengths (h, s.mem) p n l l false d.seq.toNat = (r, e)) ∧
    (∃ (s : State) (h : Hw) (i : Nat) (d : Desc) (n : Nat) (x : Ledger) (p : Nat) (pl : Pool) (c : Nat) (need : Nat), h = clearSent s.hw ∧ n
     = leAt d.bytes 0x10 2 ∧ x = ledgerAt h n ∧ p = slipOwner h i ∧ ledgerOwner h n = p ∧ pl = poolAt h p x.pool ∧ c = leAt d.bytes 0x18 4 ∧
     need = ceilDiv (x.t + c) 16 - x.npages ∧ (opcode d ∈ [0x71, 0x72, 0x73] ∨ (opcode d = 0x74 ∧ leAt d.bytes 0x14 1 ≠ 1)) ∧ x.poison ≠ 0) ∧
    (∃ (s : State) (h : Hw) (i : Nat) (d : Desc) (n : Nat) (x : Ledger) (p : Nat) (pl : Pool) (c : Nat) (need : Nat) (l : Nat), h =
     clearSent s.hw ∧ n = leAt d.bytes 0x10 2 ∧ x = ledgerAt h n ∧ p = slipOwner h i ∧ ledgerOwner h n = p ∧ pl = poolAt h p x.pool ∧ c =
     leAt d.bytes 0x18 4 ∧ need = ceilDiv (x.t + c) 16 - x.npages ∧ opcode d = 0x72 ∧ x.poison = 0 ∧ l = (if leAt d.bytes 0x14 1 = 1 then
     x.t else x.l + c) ∧ x.t < l) ∧
    (∃ (s : State) (h : Hw) (i : Nat) (d : Desc) (n : Nat) (x : Ledger) (p : Nat) (pl : Pool) (c : Nat) (need : Nat), h = clearSent s.hw ∧ n
     = leAt d.bytes 0x10 2 ∧ x = ledgerAt h n ∧ p = slipOwner h i ∧ ledgerOwner h n = p ∧ pl = poolAt h p x.pool ∧ c = leAt d.bytes 0x18 4 ∧
     need = ceilDiv (x.t + c) 16 - x.npages ∧ opcode d = 0x71 ∧ x.poison = 0 ∧ x.active = false) ∧
    (∃ (s : State) (h : Hw) (i : Nat) (d : Desc) (n : Nat) (x : Ledger) (p : Nat) (pl : Pool) (c : Nat) (need : Nat) (l : Nat) (y : Ledger),
     h = clearSent s.hw ∧ n = leAt d.bytes 0x10 2 ∧ x = ledgerAt h n ∧ p = slipOwner h i ∧ ledgerOwner h n = p ∧ pl = poolAt h p x.pool ∧ c
     = leAt d.bytes 0x18 4 ∧ need = ceilDiv (x.t + c) 16 - x.npages ∧ opcode d = 0x72 ∧ x.poison = 0 ∧ l = (if leAt d.bytes 0x14 1 = 1 then
     x.t else x.l + c) ∧ l ≤ x.t ∧ y = { x with l := l, gen := if l = x.l then x.gen else x.gen + 1 }) ∧
    (∃ (s : State) (h : Hw) (i : Nat) (d : Desc) (n : Nat) (x : Ledger) (p : Nat) (pl : Pool) (c : Nat) (need : Nat), h = clearSent s.hw ∧ n
     = leAt d.bytes 0x10 2 ∧ x = ledgerAt h n ∧ p = slipOwner h i ∧ ledgerOwner h n = p ∧ pl = poolAt h p x.pool ∧ c = leAt d.bytes 0x18 4 ∧
     need = ceilDiv (x.t + c) 16 - x.npages ∧ opcode d = 0x70 ∧ x.active = true) ∧
    (∃ (s : State) (h : Hw) (i : Nat) (d : Desc) (n : Nat) (x : Ledger) (p : Nat) (pl : Pool) (c : Nat) (need : Nat), h = clearSent s.hw ∧ n
     = leAt d.bytes 0x10 2 ∧ x = ledgerAt h n ∧ p = slipOwner h i ∧ ledgerOwner h n = p ∧ pl = poolAt h p x.pool ∧ c = leAt d.bytes 0x18 4 ∧
     need = ceilDiv (x.t + c) 16 - x.npages ∧ opcode d = 0x71 ∧ x.poison = 0 ∧ x.active = true ∧ 16 * x.cap < x.t + c) ∧
    (∃ (s : State) (h : Hw) (i : Nat) (d : Desc) (n : Nat) (x : Ledger) (p : Nat) (pl : Pool) (c : Nat) (need : Nat), h = clearSent s.hw ∧ n
     = leAt d.bytes 0x10 2 ∧ x = ledgerAt h n ∧ p = slipOwner h i ∧ ledgerOwner h n = p ∧ pl = poolAt h p x.pool ∧ c = leAt d.bytes 0x18 4 ∧
     need = ceilDiv (x.t + c) 16 - x.npages ∧ opcode d = 0x74 ∧ x.poison = 0 ∧ leAt d.bytes 0x14 1 ≠ 1 ∧ x.l < c) ∧
    (∃ (s : State) (h : Hw) (i : Nat) (q : W32) (c : Instr) (op : Nat) (o : HM) (d : Desc), h = clearSent s.hw ∧ (c, op) ∈
     [(Instr.ledgerInit i q, 0x70), (.ledgerExtend i q, 0x71), (.ledgerCommit i q, 0x72), (.ledgerRollback i q, 0x73), (.ledgerTrim i q,
     0x74)] ∧ NoWait (settle o).1 ∧ runnable h i q = some d ∧ opcode d = op ∧ o = tagged (ledgerDesc (h, s.mem) i d) i q) ∧
    (∃ (s : State) (h : Hw) (i : Nat) (d : Desc) (n : Nat) (x : Ledger) (p : Nat) (pl : Pool) (c : Nat) (need : Nat), h = clearSent s.hw ∧ n
     = leAt d.bytes 0x10 2 ∧ x = ledgerAt h n ∧ p = slipOwner h i ∧ ledgerOwner h n = p ∧ pl = poolAt h p x.pool ∧ c = leAt d.bytes 0x18 4 ∧
     need = ceilDiv (x.t + c) 16 - x.npages ∧ opcode d = 0x71 ∧ x.poison = 0 ∧ x.active = true ∧ x.t + c ≤ 16 * x.cap ∧ 16 * x.npages < x.t
     + c ∧ (pl.used = false ∨ pl.die ≠ n / 16384)) ∧
    (∃ (s : State) (h : Hw) (i : Nat) (d : Desc) (n : Nat) (x : Ledger) (p : Nat) (pl : Pool) (c : Nat) (need : Nat), h = clearSent s.hw ∧ n
     = leAt d.bytes 0x10 2 ∧ x = ledgerAt h n ∧ p = slipOwner h i ∧ ledgerOwner h n = p ∧ pl = poolAt h p x.pool ∧ c = leAt d.bytes 0x18 4 ∧
     need = ceilDiv (x.t + c) 16 - x.npages ∧ opcode d = 0x71 ∧ x.poison = 0 ∧ x.active = true ∧ x.t + c ≤ 16 * x.cap ∧ 16 * x.npages < x.t
     + c ∧ pl.used = true ∧ pl.die = n / 16384 ∧ pl.poison = true) ∧
    (∃ (s : State) (h : Hw) (i : Nat) (d : Desc) (n : Nat) (x : Ledger) (p : Nat) (pl : Pool) (c : Nat) (need : Nat) (r : HM) (e : Except
     Bad (Bool × List Nat)) (b : Bad), h = clearSent s.hw ∧ n = leAt d.bytes 0x10 2 ∧ x = ledgerAt h n ∧ p = slipOwner h i ∧ ledgerOwner h n
     = p ∧ pl = poolAt h p x.pool ∧ c = leAt d.bytes 0x18 4 ∧ need = ceilDiv (x.t + c) 16 - x.npages ∧ opcode d = 0x71 ∧ x.poison = 0 ∧
     x.active = true ∧ x.t + c ≤ 16 * x.cap ∧ 16 * x.npages < x.t + c ∧ pl.used = true ∧ pl.die = n / 16384 ∧ pl.poison = false ∧ pl.queue =
     [] ∧ need ≤ (pl.tail - pl.head).toNat ∧ poolTake (h, s.mem) p x.pool need = (r, e) ∧ e = .error b) ∧
    (∃ (s : State) (h : Hw) (i : Nat) (d : Desc) (n : Nat) (x : Ledger) (p : Nat) (pl : Pool) (c : Nat) (need : Nat) (r : HM) (e : Except
     Bad (Bool × List Nat)) (v : List Nat), h = clearSent s.hw ∧ n = leAt d.bytes 0x10 2 ∧ x = ledgerAt h n ∧ p = slipOwner h i ∧
     ledgerOwner h n = p ∧ pl = poolAt h p x.pool ∧ c = leAt d.bytes 0x18 4 ∧ need = ceilDiv (x.t + c) 16 - x.npages ∧ opcode d = 0x71 ∧
     x.poison = 0 ∧ x.active = true ∧ x.t + c ≤ 16 * x.cap ∧ 16 * x.npages < x.t + c ∧ pl.used = true ∧ pl.die = n / 16384 ∧ pl.poison =
     false ∧ pl.queue = [] ∧ need ≤ (pl.tail - pl.head).toNat ∧ poolTake (h, s.mem) p x.pool need = (r, e) ∧ e = .ok (true, v)) ∧
    (∃ (s : State) (h : Hw) (i : Nat) (d : Desc) (n : Nat) (x : Ledger) (p : Nat) (pl : Pool) (c : Nat) (need : Nat) (r : HM) (e : Except
     Bad (Bool × List Nat)) (v : List Nat), h = clearSent s.hw ∧ n = leAt d.bytes 0x10 2 ∧ x = ledgerAt h n ∧ p = slipOwner h i ∧
     ledgerOwner h n = p ∧ pl = poolAt h p x.pool ∧ c = leAt d.bytes 0x18 4 ∧ need = ceilDiv (x.t + c) 16 - x.npages ∧ opcode d = 0x71 ∧
     x.poison = 0 ∧ x.active = true ∧ x.t + c ≤ 16 * x.cap ∧ 16 * x.npages < x.t + c ∧ pl.used = true ∧ pl.die = n / 16384 ∧ pl.poison =
     false ∧ pl.queue = [] ∧ need ≤ (pl.tail - pl.head).toNat ∧ poolTake (h, s.mem) p x.pool need = (r, e) ∧ e = .ok (false, v)) ∧
    (∃ (s : State) (h : Hw) (i : Nat) (d : Desc) (n : Nat) (x : Ledger) (p : Nat) (pl : Pool) (c : Nat) (need : Nat), h = clearSent s.hw ∧ n
     = leAt d.bytes 0x10 2 ∧ x = ledgerAt h n ∧ p = slipOwner h i ∧ ledgerOwner h n = p ∧ pl = poolAt h p x.pool ∧ c = leAt d.bytes 0x18 4 ∧
     need = ceilDiv (x.t + c) 16 - x.npages ∧ opcode d = 0x71 ∧ x.poison = 0 ∧ x.active = true ∧ x.t + c ≤ 16 * x.cap ∧ 16 * x.npages < x.t
     + c ∧ pl.used = true ∧ pl.die = n / 16384 ∧ pl.poison = false ∧ (pl.queue ≠ [] ∨ (pl.tail - pl.head).toNat < need) ∧ leAt d.bytes 0x14
     1 = 1) ∧
    (∃ (s : State) (h : Hw) (i : Nat) (d : Desc) (n : Nat) (x : Ledger) (p : Nat) (pl : Pool) (c : Nat) (need : Nat), h = clearSent s.hw ∧ n
     = leAt d.bytes 0x10 2 ∧ x = ledgerAt h n ∧ p = slipOwner h i ∧ ledgerOwner h n = p ∧ pl = poolAt h p x.pool ∧ c = leAt d.bytes 0x18 4 ∧
     need = ceilDiv (x.t + c) 16 - x.npages ∧ opcode d = 0x71 ∧ x.poison = 0 ∧ x.active = true ∧ x.t + c ≤ 16 * x.cap ∧ 16 * x.npages < x.t
     + c ∧ pl.used = true ∧ pl.die = n / 16384 ∧ pl.poison = false ∧ (pl.queue ≠ [] ∨ (pl.tail - pl.head).toNat < need) ∧ leAt d.bytes 0x14
     1 ≠ 1) ∧
    (∃ (s : State) (h : Hw) (i : Nat) (d : Desc) (n : Nat) (x : Ledger) (p : Nat) (pl : Pool) (c : Nat) (need : Nat) (r : HM) (e :
     Returned), h = clearSent s.hw ∧ n = leAt d.bytes 0x10 2 ∧ x = ledgerAt h n ∧ p = slipOwner h i ∧ ledgerOwner h n = p ∧ pl = poolAt h p
     x.pool ∧ c = leAt d.bytes 0x18 4 ∧ need = ceilDiv (x.t + c) 16 - x.npages ∧ opcode d = 0x74 ∧ leAt d.bytes 0x14 1 = 1 ∧ x.poison = 0 ∧
     setLengths (h, s.mem) p n 0 0 true d.seq.toNat = (r, e)) ∧
    (∃ (s : State) (h : Hw) (i : Nat) (d : Desc) (n : Nat) (x : Ledger) (p : Nat) (pl : Pool) (c : Nat) (need : Nat) (r : HM) (y : Ledger),
     h = clearSent s.hw ∧ n = leAt d.bytes 0x10 2 ∧ x = ledgerAt h n ∧ p = slipOwner h i ∧ ledgerOwner h n = p ∧ pl = poolAt h p x.pool ∧ c
     = leAt d.bytes 0x18 4 ∧ need = ceilDiv (x.t + c) 16 - x.npages ∧ opcode d = 0x74 ∧ leAt d.bytes 0x14 1 = 1 ∧ x.poison ≠ 0 ∧ r = (if
     x.poison &&& 6 = 0 then setLengths (h, s.mem) p n 0 0 true d.seq.toNat else ((h, s.mem), .ok 0)).1 ∧ y =
     ({ gen := (ledgerAt r.1 n).gen, poison := x.poison, queue := x.queue } : Ledger)) ∧
    (∃ (s : State) (h : Hw) (i : Nat) (d : Desc) (n : Nat) (v : List Nat) (x : Ledger) (w : HM) (y : Ledger), h = clearSent s.hw ∧ x =
     ledgerAt h n ∧ v ≠ [] ∧ listBad x = false ∧ writeSlots (h, s.mem) (slipOwner h i) (pageSlot x) x.npages v = (w, .ok) ∧ y =
     { x with t := x.t + leAt d.bytes 0x18 4, npages := x.npages + v.length, gen := x.gen + 1, held := false }) ∧
    (∃ (s : State) (h : Hw) (p : Nat) (n : Nat) (t : Nat) (q : Nat) (k : Nat) (x : Ledger) (pl : Pool) (r : HM) (c : Nat) (y : Ledger), h =
     clearSent s.hw ∧ x = ledgerAt h n ∧ pl = poolAt h p x.pool ∧ k = ceilDiv t 16 + x.spare ∧ returnPages (h, s.mem) p n k q = (r, .ok c) ∧
     y = ledgerAt r.1 n) ∧
    (∃ (s : State) (h : Hw) (p : Nat) (n : Nat) (t : Nat) (k : Nat) (x : Ledger) (pl : Pool), h = clearSent s.hw ∧ x = ledgerAt h n ∧ pl =
     poolAt h p x.pool ∧ k = ceilDiv t 16 + x.spare ∧ x.npages ≤ k) ∧
    (∃ (s : State) (h : Hw) (p : Nat) (n : Nat) (t : Nat) (k : Nat) (x : Ledger) (pl : Pool), h = clearSent s.hw ∧ x = ledgerAt h n ∧ pl =
     poolAt h p x.pool ∧ k = ceilDiv t 16 + x.spare ∧ k < x.npages ∧ listBad x = true) ∧
    (∃ (s : State) (h : Hw) (p : Nat) (n : Nat) (t : Nat) (k : Nat) (x : Ledger) (pl : Pool), h = clearSent s.hw ∧ x = ledgerAt h n ∧ pl =
     poolAt h p x.pool ∧ k = ceilDiv t 16 + x.spare ∧ k < x.npages ∧ listBad x = false ∧ (pl.used = false ∨ pl.die ≠ n / 16384)) ∧
    (∃ (s : State) (h : Hw) (p : Nat) (n : Nat) (t : Nat) (k : Nat) (x : Ledger) (pl : Pool), h = clearSent s.hw ∧ x = ledgerAt h n ∧ pl =
     poolAt h p x.pool ∧ k = ceilDiv t 16 + x.spare ∧ k < x.npages ∧ listBad x = false ∧ pl.used = true ∧ pl.die = n / 16384 ∧ pl.poison =
     true) ∧
    (∃ (s : State) (h : Hw) (p : Nat) (n : Nat) (t : Nat) (k : Nat) (x : Ledger) (pl : Pool) (u : HM) (v : List Nat), h = clearSent s.hw ∧ x
     = ledgerAt h n ∧ pl = poolAt h p x.pool ∧ k = ceilDiv t 16 + x.spare ∧ k < x.npages ∧ listBad x = false ∧ pl.used = true ∧ pl.die = n /
     16384 ∧ pl.poison = false ∧ readSlots (h, s.mem) (n / 16384) p (pageSlot x) k (x.npages - k) = (u, .ok (false, v)) ∧ pl.entries <
     (pl.tail - pl.head).toNat + (x.npages - k)) ∧
    (∃ (s : State) (h : Hw) (p : Nat) (n : Nat) (t : Nat) (q : Nat) (k : Nat) (x : Ledger) (pl : Pool) (r : HM) (u : HM) (v : List Nat), h =
     clearSent s.hw ∧ x = ledgerAt h n ∧ pl = poolAt h p x.pool ∧ k = ceilDiv t 16 + x.spare ∧ k < x.npages ∧ listBad x = false ∧ pl.used =
     true ∧ pl.die = n / 16384 ∧ pl.poison = false ∧ readSlots (h, s.mem) (n / 16384) p (pageSlot x) k (x.npages - k) = (u, .ok (false, v))
     ∧ (pl.tail - pl.head).toNat + (x.npages - k) ≤ pl.entries ∧ poolPut (poolIndices u pl v).1 p x.pool
     (poolIndices u pl v).2 q = (r, .ok)) ∧
    (∃ (s : State) (h : Hw) (i : Nat) (q : W32) (d : Desc) (k : Nat) (p : Pool) (w : PoolWait) (o : Hw × Memory), h = clearSent s.hw ∧
     findDesc (slipAt h i) q = some d ∧ opcode d = 0x71 ∧ leAt d.bytes 0x1C 4 ≠ 0 ∧ (k, p) ∈ h.sync.pools ∧ w ∈ p.queue ∧ (w.slip, w.seq) =
     (i, q) ∧ o = (endDesc (withdrawWaits (advanceTo h (d.since + 1000 * leAt d.bytes 0x1C 4)) i (fun k => decide (k = q))) i d 0x03 0,
     s.mem) ∧ NoWait (settle o).1) ∧
    (∃ (s : State) (h : Hw) (i : Nat) (q : W32), h = clearSent s.hw ∧ (findDesc (slipAt h i) q = none ∨ (∀ k p, (k, p) ∈ h.sync.pools → ∀ w,
     w ∈ p.queue → (w.slip, w.seq) ≠ (i, q)))) :=
  ⟨⟨(st (wk [] { sync := { ledgers := [(0, { held := true })] } })), _, 5, (at3 []), _, _, rfl, rfl, rfl, (by decide +kernel),
     (by decide +kernel)⟩,
   ⟨(st (wk [])), _, 5, (at3 [(0x10, 2, 16)]), _, _, rfl, rfl, rfl, (by decide +kernel)⟩,
   ⟨(st (wk [])), _, 5, (at3 [(0x10, 2, 15)]), _, _, rfl, rfl, rfl, (by decide +kernel), (by decide +kernel), (by decide +kernel)⟩,
   ⟨(st (wk [] { sync := { ledgers := [(0, { active := true, cap := 4, npages := 2, l := 3, t := 5 })] } })), _, 5, (at3 [(0, 1, 0x70)]), _,
     _, _, rfl, rfl, rfl, rfl, (by decide +kernel), (by decide +kernel), (by decide +kernel)⟩,
   ⟨(st (wk [] { sync := { pools := [(0, { used := true })] } })), _, 5, (at3 [(0, 1, 0x70)]), _, _, _, _, rfl, rfl, rfl, rfl,
     (by decide +kernel), (by decide +kernel), (by decide +kernel), (by decide +kernel), (by decide +kernel), rfl⟩,
   ⟨(st (wk [] { sync := { ledgers := [(0, { poison := 4 })] } })), _, 5, (at3 [(0, 1, 0x71)]), _, _, _, rfl, rfl, rfl, rfl,
     (by decide +kernel), (by decide +kernel), (by decide +kernel)⟩,
   ⟨(st (wk [])), _, 5, (at3 [(0, 1, 0x71)]), _, _, _, rfl, rfl, rfl, rfl, (by decide +kernel), (by decide +kernel), (by decide +kernel),
     (by decide +kernel)⟩,
   ⟨(st (wk [] { sync := { ledgers := [(0, { active := true, cap := 4, npages := 2, l := 3, t := 5 })] } })), _, 5, (at3 [(0, 1, 0x71),
     (0x18, 4, 60)]), _, _, _, rfl, rfl, rfl, rfl, (by decide +kernel), (by decide +kernel), (by decide +kernel), (by decide +kernel),
     (by decide +kernel)⟩,
   ⟨(st (wk [] { sync := { ledgers := [(0, { active := true, cap := 4, npages := 2, l := 3, t := 5 })] } })), _, 5, (at3 [(0, 1, 0x71),
     (0x18, 4, 27)]), _, _, _, _, rfl, rfl, rfl, rfl, (by decide +kernel), (by decide +kernel), (by decide +kernel), (by decide +kernel),
     (by decide +kernel), (by decide +kernel), rfl⟩,
   ⟨(st (wk [] { sync := { ledgers := [(0, { active := true, cap := 4, npages := 2, l := 3, t := 5 })] } })), _, 5, (at3 [(0, 1, 0x72),
     (0x18, 4, 3)]), _, _, _, _, rfl, rfl, rfl, rfl, (by decide +kernel), (by decide +kernel), (by decide +kernel), rfl,
     (by decide +kernel)⟩,
   ⟨(st (wk [] { sync := { ledgers := [(0, { active := true, cap := 4, npages := 2, l := 3, t := 5 })] } })), _, 5, (at3 [(0, 1, 0x72),
     (0x18, 4, 2)]), _, _, _, _, _, rfl, rfl, rfl, rfl, (by decide +kernel), (by decide +kernel), (by decide +kernel), rfl,
     (by decide +kernel), rfl⟩,
   ⟨(st (wk [] { sync := { ledgers := [(0, { active := true, cap := 4, npages := 2, l := 3, t := 5 })] } })), _, 5, (at3 [(0, 1, 0x74),
     (0x18, 4, 4)]), _, _, _, rfl, rfl, rfl, rfl, (by decide +kernel), (by decide +kernel), (by decide +kernel), (by decide +kernel),
     (by decide +kernel)⟩,
   ⟨(st (wk [] { sync := { ledgers := [(0, { active := true, cap := 4, npages := 1, l := 3, t := 5 })] } })), _, 5, (at3 [(0, 1, 0x74),
     (0x18, 4, 3)]), _, _, _, _, 3, rfl, rfl, rfl, rfl, (by decide +kernel), .inr (by decide +kernel), (by decide +kernel),
     (by decide +kernel), (by decide +kernel), rfl⟩,
   ⟨(st (wk [at3 [(0, 1, 0x71), (0x1C, 4, 1)]]
     { sync := { pools := [(0, { queue := [{ slip := 5, seq := 3, count := 2, ledger := some 0 }] })] } })), _, 5, 3, _,
     { queue := [{ slip := 5, seq := 3, count := 2, ledger := some 0 }] }, 0, 2, rfl, rfl, (by decide +kernel), (by decide +kernel),
     (by decide +kernel), (by decide +kernel)⟩,
   ⟨(st (wk [at3 []])), _, 5, 3, _, rfl, rfl, (by decide +kernel)⟩,
   ⟨(st (wk [at3 [(0, 1, 0x70)]])), _, 5, 3, _, (.ledgerInit 5 3), 0x70, _, rfl, rfl, by simp, (by decide +kernel), rfl,
     (by decide +kernel)⟩,
   ⟨(st (wk [at3 [(0, 1, 0x71)]])), _, 5, 3, _, (.ledgerInit 5 3), 0x70, _, rfl, rfl, by simp, (by decide +kernel), rfl,
     (by decide +kernel)⟩,
   ⟨(st (wk [] { sync := { ledgers := [(0, { held := true })] } })), _, 5, 3, (.ledgerInit 5 3), 0x70, _, rfl, (by decide +kernel),
     (by decide +kernel), (by decide +kernel), rfl⟩,
   ⟨(st (wk [at3 [(0, 1, 0x71), (0x1C, 4, 1)]]
     { sync := { pools := [(0, { queue := [{ slip := 5, seq := 3, count := 2, ledger := some 0 }] })] } })), _, 5, (at3 [(0, 1, 0x70)]), _,
     _, _, _, _, _, rfl, rfl, rfl, rfl, (by decide +kernel), rfl, rfl, rfl, (by decide +kernel), (by decide +kernel), (by decide +kernel)⟩,
   ⟨(st (wk [] { sync := { pools := [(0, { used := true })] } })), _, 5, (at3 [(0, 1, 0x70)]), _, _, _, _, _, _, _, rfl, rfl, rfl, rfl,
     (by decide +kernel), rfl, rfl, rfl, (by decide +kernel), (by decide +kernel), (by decide +kernel), (by decide +kernel), rfl⟩,
   ⟨(st (wk [] { sync := { ledgers := [(0, { active := true, cap := 4, npages := 2, l := 3, t := 5 })] } })), _, 5, (at3 [(0, 1, 0x71),
     (0x18, 4, 27)]), _, _, _, _, _, _, _, rfl, rfl, rfl, rfl, (by decide +kernel), rfl, rfl, rfl, (by decide +kernel), (by decide +kernel),
     (by decide +kernel), (by decide +kernel), (by decide +kernel), rfl⟩,
   ⟨(st (wk [] { sync := { ledgers := [(0, { active := true, cap := 4, npages := 1, l := 3, t := 5 })] } })), _, 5, (at3 [(0, 1, 0x74),
     (0x18, 4, 3)]), _, _, _, _, _, _, _, 3, rfl, rfl, rfl, rfl, (by decide +kernel), rfl, rfl, rfl, (by decide +kernel),
     (by decide +kernel), (by decide +kernel), (by decide +kernel), rfl⟩,
   ⟨(st (wk [] { sync := { ledgers := [(0, { active := true, cap := 4, npages := 1, l := 3, t := 5 })] } })), _, 5, (at3 [(0, 1, 0x74),
     (0x18, 4, 3)]), _, _, _, _, _, _, 3, _, _, rfl, rfl, rfl, rfl, (by decide +kernel), rfl, rfl, rfl, (by decide +kernel),
     (by decide +kernel), rfl⟩,
   ⟨(st (wk [] { sync := { ledgers := [(0, { poison := 4 })] } })), _, 5, (at3 [(0, 1, 0x71)]), _, _, _, _, _, _, rfl, rfl, rfl, rfl,
     (by decide +kernel), rfl, rfl, rfl, (by decide +kernel), (by decide +kernel)⟩,
   ⟨(st (wk [] { sync := { ledgers := [(0, { active := true, cap := 4, npages := 2, l := 3, t := 5 })] } })), _, 5, (at3 [(0, 1, 0x72),
     (0x18, 4, 3)]), _, _, _, _, _, _, _, rfl, rfl, rfl, rfl, (by decide +kernel), rfl, rfl, rfl, (by decide +kernel), (by decide +kernel),
     rfl, (by decide +kernel)⟩,
   ⟨(st (wk [])), _, 5, (at3 [(0, 1, 0x71)]), _, _, _, _, _, _, rfl, rfl, rfl, rfl, (by decide +kernel), rfl, rfl, rfl, (by decide +kernel),
     (by decide +kernel), (by decide +kernel)⟩,
   ⟨(st (wk [] { sync := { ledgers := [(0, { active := true, cap := 4, npages := 2, l := 3, t := 5 })] } })), _, 5, (at3 [(0, 1, 0x72),
     (0x18, 4, 2)]), _, _, _, _, _, _, _, _, rfl, rfl, rfl, rfl, (by decide +kernel), rfl, rfl, rfl, (by decide +kernel),
     (by decide +kernel), rfl, (by decide +kernel), rfl⟩,
   ⟨(st (wk [] { sync := { ledgers := [(0, { active := true, cap := 4, npages := 2, l := 3, t := 5 })] } })), _, 5, (at3 [(0, 1, 0x70)]), _,
     _, _, _, _, _, rfl, rfl, rfl, rfl, (by decide +kernel), rfl, rfl, rfl, (by decide +kernel), (by decide +kernel)⟩,
   ⟨(st (wk [] { sync := { ledgers := [(0, { active := true, cap := 4, npages := 2, l := 3, t := 5 })] } })), _, 5, (at3 [(0, 1, 0x71),
     (0x18, 4, 60)]), _, _, _, _, _, _, rfl, rfl, rfl, rfl, (by decide +kernel), rfl, rfl, rfl, (by decide +kernel), (by decide +kernel),
     (by decide +kernel), (by decide +kernel)⟩,
   ⟨(st (wk [] { sync := { ledgers := [(0, { active := true, cap := 4, npages := 2, l := 3, t := 5 })] } })), _, 5, (at3 [(0, 1, 0x74),
     (0x18, 4, 4)]), _, _, _, _, _, _, rfl, rfl, rfl, rfl, (by decide +kernel), rfl, rfl, rfl, (by decide +kernel), (by decide +kernel),
     (by decide +kernel), (by decide +kernel)⟩,
   ⟨(st (wk [at3 [(0, 1, 0x70)]])), _, 5, 3, (.ledgerInit 5 3), 0x70, _, _, rfl, (by decide +kernel), (by decide +kernel), rfl,
     (by decide +kernel), rfl⟩,
   ⟨(st (wk [] { sync := { ledgers := [(0, { active := true, cap := 4, npages := 1, l := 3, t := 5 })] } })), _, 5, (at3 [(0, 1, 0x71),
     (0x18, 4, 27)]), _, _, _, _, _, _, rfl, rfl, rfl, rfl, (by decide +kernel), rfl, rfl, rfl, (by decide +kernel), (by decide +kernel),
     (by decide +kernel), (by decide +kernel), (by decide +kernel), (by decide +kernel)⟩,
   ⟨(st (wk []
     { sync := { ledgers := [(0, { active := true, cap := 4, npages := 1, l := 3, t := 5 })], pools := [(0, { used := true, die := 0, entries := 16, ring := 64, tail := 2, head := 0, poison := true })] } })),
     _, 5, (at3 [(0, 1, 0x71), (0x18, 4, 27)]), _, _, _, _, _, _, rfl, rfl, rfl, rfl, (by decide +kernel), rfl, rfl, rfl,
     (by decide +kernel), (by decide +kernel), (by decide +kernel), (by decide +kernel), (by decide +kernel), (by decide +kernel),
     (by decide +kernel), (by decide +kernel)⟩,
   ⟨(st (wk []
     { sync := { ledgers := [(0, { active := true, cap := 4, npages := 1, l := 3, t := 5 })], pools := [(0, { used := true, die := 0, entries := 16, ring := 2 ^ 21, tail := 2, head := 0 })] } })),
     _, 5, (at3 [(0, 1, 0x71), (0x18, 4, 27)]), _, _, _, _, _, _, _, (.error (.refused (2 ^ 21))), (.refused (2 ^ 21)), rfl, rfl, rfl, rfl,
     (by decide +kernel), rfl, rfl, rfl, (by decide +kernel), (by decide +kernel), (by decide +kernel), (by decide +kernel),
     (by decide +kernel), (by decide +kernel), (by decide +kernel), (by decide +kernel), (by decide +kernel), (by decide +kernel), pair_of
     (by decide +kernel), rfl⟩,
   ⟨(st (wk []
     { sync := { ledgers := [(0, { active := true, cap := 4, npages := 1, l := 3, t := 5 })], pools := [(0, { used := true, die := 0, entries := 16, ring := 64, tail := 2, head := 0 })] }, coh := { poison := [(1, true)] } })),
     _, 5, (at3 [(0, 1, 0x71), (0x18, 4, 27)]), _, _, _, _, _, _, _, (.ok (true, [0])), [0], rfl, rfl, rfl, rfl, (by decide +kernel), rfl,
     rfl, rfl, (by decide +kernel), (by decide +kernel), (by decide +kernel), (by decide +kernel), (by decide +kernel), (by decide +kernel),
     (by decide +kernel), (by decide +kernel), (by decide +kernel), (by decide +kernel), pair_of (by decide +kernel), rfl⟩,
   ⟨(st (wk []
     { sync := { ledgers := [(0, { active := true, cap := 4, npages := 1, l := 3, t := 5 })], pools := [(0, { used := true, die := 0, entries := 16, ring := 64, tail := 2, head := 0 })] } })),
     _, 5, (at3 [(0, 1, 0x71), (0x18, 4, 27)]), _, _, _, _, _, _, _, (.ok (false, [0])), [0], rfl, rfl, rfl, rfl, (by decide +kernel), rfl,
     rfl, rfl, (by decide +kernel), (by decide +kernel), (by decide +kernel), (by decide +kernel), (by decide +kernel), (by decide +kernel),
     (by decide +kernel), (by decide +kernel), (by decide +kernel), (by decide +kernel), pair_of (by decide +kernel), rfl⟩,
   ⟨(st (wk []
     { sync := { ledgers := [(0, { active := true, cap := 4, npages := 1, l := 3, t := 5 })], pools := [(0, { used := true, die := 0, entries := 16, ring := 64, tail := 0, head := 0 })] } })),
     _, 5, (at3 [(0, 1, 0x71), (0x18, 4, 27), (0x14, 1, 1)]), _, _, _, _, _, _, rfl, rfl, rfl, rfl, (by decide +kernel), rfl, rfl, rfl,
     (by decide +kernel), (by decide +kernel), (by decide +kernel), (by decide +kernel), (by decide +kernel), (by decide +kernel),
     (by decide +kernel), (by decide +kernel), (by decide +kernel), (by decide +kernel)⟩,
   ⟨(st (wk []
     { sync := { ledgers := [(0, { active := true, cap := 4, npages := 1, l := 3, t := 5 })], pools := [(0, { used := true, die := 0, entries := 16, ring := 64, tail := 0, head := 0 })] } })),
     _, 5, (at3 [(0, 1, 0x71), (0x18, 4, 27)]), _, _, _, _, _, _, rfl, rfl, rfl, rfl, (by decide +kernel), rfl, rfl, rfl,
     (by decide +kernel), (by decide +kernel), (by decide +kernel), (by decide +kernel), (by decide +kernel), (by decide +kernel),
     (by decide +kernel), (by decide +kernel), (by decide +kernel), (by decide +kernel)⟩,
   ⟨(st (wk [] { sync := { ledgers := [(0, { active := true, cap := 4, npages := 2, l := 3, t := 5 })] } })), _, 5, (at3 [(0, 1, 0x74),
     (0x14, 1, 1)]), _, _, _, _, _, _, _, _, rfl, rfl, rfl, rfl, (by decide +kernel), rfl, rfl, rfl, (by decide +kernel),
     (by decide +kernel), (by decide +kernel), Prod.mk.eta.symm⟩,
   ⟨(st (wk [] { sync := { ledgers := [(0, { poison := 1 })] } })), _, 5, (at3 [(0, 1, 0x74), (0x14, 1, 1)]), _, _, _, _, _, _, _, _, rfl,
     rfl, rfl, rfl, (by decide +kernel), rfl, rfl, rfl, (by decide +kernel), (by decide +kernel), (by decide +kernel), rfl, rfl⟩,
   ⟨(st (wk [] { sync := { ledgers := [(0, { active := true, cap := 4, npages := 1, l := 3, t := 5, list := 1 })] } })), _, 5, (at3 [(0, 1,
     0x71), (0x18, 4, 27)]), 0, [7], _, _, _, rfl, rfl, (by decide +kernel), (by decide +kernel), pair_of (by decide +kernel), rfl⟩,
   ⟨(st (wk [] { sync := { ledgers := [(0, { l := 3, t := 5 })] } })), _, 0, 0, 0, 0, _, _, _, _, 0, _, rfl, rfl, rfl, rfl, pair_of
     (by decide +kernel), rfl⟩,
   ⟨(st (wk [] { sync := { ledgers := [(0, { l := 3, t := 5 })] } })), _, 0, 0, 0, _, _, _, rfl, rfl, rfl, rfl, (by decide +kernel)⟩,
   ⟨(st (wk [] { sync := { ledgers := [(0, { npages := 2, list := 2 ^ 40 })] } })), _, 0, 0, 0, _, _, _, rfl, rfl, rfl, rfl,
     (by decide +kernel), (by decide +kernel)⟩,
   ⟨(st (wk [] { sync := { ledgers := [(0, { npages := 2 })] } })), _, 0, 0, 0, _, _, _, rfl, rfl, rfl, rfl, (by decide +kernel),
     (by decide +kernel), (by decide +kernel)⟩,
   ⟨(st (wk []
     { sync := { ledgers := [(0, { npages := 2 })], pools := [(0, { used := true, die := 0, entries := 16, ring := 64, tail := 2, head := 0, poison := true })] } })),
     _, 0, 0, 0, _, _, _, rfl, rfl, rfl, rfl, (by decide +kernel), (by decide +kernel), (by decide +kernel), (by decide +kernel),
     (by decide +kernel)⟩,
   ⟨(st (wk []
     { sync := { ledgers := [(0, { npages := 2, list := 1 })], pools := [(0, { used := true, die := 0, entries := 1, ring := 64, tail := 2, head := 0 })] } })),
     _, 0, 0, 0, _, _, _, _, [0, 0], rfl, rfl, rfl, rfl, (by decide +kernel), (by decide +kernel), (by decide +kernel), (by decide +kernel),
     (by decide +kernel), pair_of (by decide +kernel), (by decide +kernel)⟩,
   ⟨(st (wk []
     { sync := { ledgers := [(0, { npages := 2, list := 1 })], pools := [(0, { used := true, die := 0, entries := 16, ring := 64, tail := 2, head := 0 })] } })),
     _, 0, 0, 0, 0, _, _, _, _, _, [0, 0], rfl, rfl, rfl, rfl, (by decide +kernel), (by decide +kernel), (by decide +kernel),
     (by decide +kernel), (by decide +kernel), pair_of (by decide +kernel), (by decide +kernel), pair_of (by decide +kernel)⟩,
   ⟨(st (wk [(at3 [(0, 1, 0x71), (0x1C, 4, 1)])]
     { sync := { pools := [(0, { queue := [{ slip := 5, seq := 3, count := 2, ledger := some 0 }] })] } })), _, 5, 3, _, 0,
     { queue := [{ slip := 5, seq := 3, count := 2, ledger := some 0 }] }, { slip := 5, seq := 3, count := 2, ledger := some 0 }, _, rfl,
     rfl, (by decide +kernel), (by decide +kernel), (by decide +kernel), (by decide +kernel), (by decide +kernel), rfl, (by decide +kernel)⟩,
   ⟨(st {}), _, 5, 3, rfl, (Or.inl rfl)⟩⟩

theorem wit_VerifyOutcomes :
    (∃ (s : State) (h : Hw) (d : Desc) (n : Nat) (x : Ledger), h = clearSent s.hw ∧ n = vLedger d ∧ x = ledgerAt h n ∧ x.poison ≠ 0) ∧
    (∃ (s : State) (h : Hw) (d : Desc) (r : Run) (n : Nat) (x : Ledger) (v : VRow), h = clearSent s.hw ∧ n = vLedger d ∧ x = ledgerAt h n ∧
     x.poison = 0 ∧ x.gen.toNat ≠ r.gen ∧ v ≠ .poison) ∧
    (∃ (s : State) (h : Hw) (i : Nat) (d : Desc) (r : Run) (n : Nat) (x : Ledger) (u : HM) (c : Nat), h = clearSent s.hw ∧ n = vLedger d ∧ x
     = ledgerAt h n ∧ x.poison = 0 ∧ x.gen.toNat = r.gen ∧ setLengths (h, s.mem) (slipOwner h i) n x.l x.l false d.seq.toNat = (u, .ok c)) ∧
    (∃ (s : State) (h : Hw) (i : Nat) (d : Desc) (r : Run) (n : Nat) (x : Ledger) (t : Nat) (u : HM) (c : Nat) (g : Hw), h = clearSent s.hw
     ∧ n = vLedger d ∧ x = ledgerAt h n ∧ x.poison = 0 ∧ x.gen.toNat = r.gen ∧ setLengths (h, s.mem) (slipOwner h i) n (x.l + r.done + 1)
     (x.l + r.done + 1) false d.seq.toNat = (u, .ok c) ∧ g = bobWrite u.1 (vOutput d).1 (vOutput d).2.1 (bobRead u.1 (vTokens d).1 (vTokens
     d).2.1 (4 * r.done) ++ leBytes 4 t) false) ∧
    (∃ (s : State) (h : Hw) (i : Nat) (d : Desc) (r : Run) (n : Nat) (x : Ledger) (u : HM) (e : Nat), h = clearSent s.hw ∧ n = vLedger d ∧ x
     = ledgerAt h n ∧ x.poison = 0 ∧ x.gen.toNat = r.gen ∧ setLengths (h, s.mem) (slipOwner h i) n (x.l + r.done + 1) (x.l + r.done + 1)
     false d.seq.toNat = (u, .halt e)) ∧
    (∃ (s : State) (h : Hw) (i : Nat) (d : Desc) (r : Run) (n : Nat) (x : Ledger) (v : VRow) (u : HM) (e : Nat), h = clearSent s.hw ∧ n =
     vLedger d ∧ x = ledgerAt h n ∧ x.poison = 0 ∧ x.gen.toNat = r.gen ∧ (v = .poison ∨ ∃ f, v = .roll f) ∧ setLengths (h, s.mem) (slipOwner
     h i) n x.l x.l false d.seq.toNat = (u, .halt e)) ∧
    (∃ (s : State) (h : Hw) (d : Desc) (r : Run) (n : Nat) (x : Ledger) (g : Hw) (v : VRow × Hw) (k : Run) (p : Bool), h = clearSent s.hw ∧
     n = vLedger d ∧ x = ledgerAt h n ∧ g = passOver (advanceTo h (h.tb.now + quadNs h (fQuad d) (rowCycles d))) r ∧ v = (if p then
     (.poison, g) else verifyRow g d (bitOf (tabGet 0 g.weaves.fmode (fQuad d)) 2) r.next) ∧ k =
     { r with next := r.next + 1, passed := none, cyc := r.cyc + rowCycles d } ∧ v.1 = .accept) ∧
    (∃ (s : State) (h : Hw) (d : Desc) (r : Run) (n : Nat) (x : Ledger) (g : Hw) (v : VRow × Hw) (k : Run) (p : Bool), h = clearSent s.hw ∧
     n = vLedger d ∧ x = ledgerAt h n ∧ g = passOver (advanceTo h (h.tb.now + quadNs h (fQuad d) (rowCycles d))) r ∧ v = (if p then
     (.poison, g) else verifyRow g d (bitOf (tabGet 0 g.weaves.fmode (fQuad d)) 2) r.next) ∧ k =
     { r with next := r.next + 1, passed := none, cyc := r.cyc + rowCycles d } ∧ v.1 ≠ .accept ∧ x.held = true) ∧
    (∃ (s : State) (h : Hw) (d : Desc) (r : Run) (n : Nat) (x : Ledger) (g : Hw) (v : VRow × Hw) (k : Run) (p : Bool), h = clearSent s.hw ∧
     n = vLedger d ∧ x = ledgerAt h n ∧ g = passOver (advanceTo h (h.tb.now + quadNs h (fQuad d) (rowCycles d))) r ∧ v = (if p then
     (.poison, g) else verifyRow g d (bitOf (tabGet 0 g.weaves.fmode (fQuad d)) 2) r.next) ∧ k =
     { r with next := r.next + 1, passed := none, cyc := r.cyc + rowCycles d } ∧ v.1 ≠ .accept ∧ x.held = false) :=
  ⟨⟨(st { sync := { ledgers := [(0, { poison := 1 })] } }), _, (at3 [(0, 1, 0x78), (0x11, 1, 1), (0x12, 1, 13), (0x13, 1, 1), (0x16, 1, 1),
     (0x1A, 2, 2000), (0x1C, 4, 1)]), _, _, rfl, rfl, rfl, (by decide +kernel)⟩,
   ⟨(st { sync := { ledgers := [(0, { gen := 1 })] } }), _, (at3 [(0, 1, 0x78), (0x11, 1, 1), (0x12, 1, 13), (0x13, 1, 1), (0x16, 1, 1),
     (0x1A, 2, 2000), (0x1C, 4, 1)]), { slip := 5, seq := 3, units := [512], cls := 3, total := 2 }, _, _, .accept, rfl, rfl, rfl,
     (by decide +kernel), (by decide +kernel), by simp⟩,
   ⟨(st (wk [at3 [(0, 1, 0x78), (0x11, 1, 1), (0x12, 1, 13), (0x13, 1, 1), (0x16, 1, 1), (0x1A, 2, 2000), (0x1C, 4, 1)]])), _, 5, (at3 [(0,
     1, 0x78), (0x11, 1, 1), (0x12, 1, 13), (0x13, 1, 1), (0x16, 1, 1), (0x1A, 2, 2000), (0x1C, 4, 1)]),
     { slip := 5, seq := 3, units := [512], cls := 3, total := 2 }, _, _, _, 0, rfl, rfl, rfl, (by decide +kernel), (by decide +kernel),
     pair_of rfl⟩,
   ⟨(st (wk [at3 [(0, 1, 0x78), (0x11, 1, 1), (0x12, 1, 13), (0x13, 1, 1), (0x16, 1, 1), (0x1A, 2, 2000), (0x1C, 4, 1)]])), _, 5, (at3 [(0,
     1, 0x78), (0x11, 1, 1), (0x12, 1, 13), (0x13, 1, 1), (0x16, 1, 1), (0x1A, 2, 2000), (0x1C, 4, 1)]),
     { slip := 5, seq := 3, units := [512], cls := 3, total := 2 }, _, _, 0, _, 0, _, rfl, rfl, rfl, (by decide +kernel),
     (by decide +kernel), pair_of rfl, rfl⟩,
   ⟨(st (wk [at3 [(0, 1, 0x78), (0x11, 1, 1), (0x12, 1, 13), (0x13, 1, 1), (0x16, 1, 1), (0x1A, 2, 2000), (0x1C, 4, 1)]]
     { sync := { ledgers := [(0, { active := true, npages := 9, cap := 9 })] } })), _, 5, (at3 [(0, 1, 0x78), (0x11, 1, 1), (0x12, 1, 13),
     (0x13, 1, 1), (0x16, 1, 1), (0x1A, 2, 2000), (0x1C, 4, 1)]), { slip := 5, seq := 3, units := [512], cls := 3, total := 2 }, _, _, _,
     0x42, rfl, rfl, rfl, (by decide +kernel), (by decide +kernel), pair_of rfl⟩,
   ⟨(st (wk [] { sync := { ledgers := [(0, { active := true, npages := 9, cap := 9 })] } })), _, 5, (at3 [(0, 1, 0x78), (0x11, 1, 1), (0x12,
     1, 13), (0x13, 1, 1), (0x16, 1, 1), (0x1A, 2, 2000), (0x1C, 4, 1)]), { slip := 5, seq := 3, units := [512], cls := 3, total := 2 }, _,
     _, .poison, _, 0x42, rfl, rfl, rfl, (by decide +kernel), (by decide +kernel), (Or.inl rfl), pair_of (by decide +kernel)⟩,
   ⟨(st (wk [])), _, (at3 [(0, 1, 0x78), (0x11, 1, 1), (0x12, 1, 13), (0x13, 1, 1), (0x16, 1, 1), (0x1A, 2, 2000), (0x1C, 4, 1)]),
     { slip := 5, seq := 3, units := [512], cls := 3, total := 2 }, _, _, _, _, _, false, rfl, rfl, rfl, rfl, rfl, rfl, rfl⟩,
   ⟨(st (wk [] { sync := { ledgers := [(0, { held := true })] } })), _, (at3 [(0, 1, 0x78), (0x11, 1, 1), (0x12, 1, 13), (0x13, 1, 1),
     (0x16, 1, 1), (0x1A, 2, 2000), (0x1C, 4, 1)]), { slip := 5, seq := 3, units := [512], cls := 3, total := 2 }, _, _, _, _, _, true, rfl,
     rfl, rfl, rfl, rfl, rfl, (by decide +kernel), (by decide +kernel)⟩,
   ⟨(st (wk [] { sync := { ledgers := [(0, { })] } })), _, (at3 [(0, 1, 0x78), (0x11, 1, 1), (0x12, 1, 13), (0x13, 1, 1), (0x16, 1, 1),
     (0x1A, 2, 2000), (0x1C, 4, 1)]), { slip := 5, seq := 3, units := [512], cls := 3, total := 2 }, _, _, _, _, _, true, rfl, rfl, rfl,
     rfl, rfl, rfl, (by decide +kernel), (by decide +kernel)⟩⟩

theorem wit_MemoryStaysCanonical : Memory.wf State.reset.mem := by decide

/-! ### Ill-formed commands are refused -/

theorem test_wf_mailbox : (Instr.echo (.part 17) 0).wellFormed = false := by decide
theorem test_wf_tag : (Instr.echo .steward 8).wellFormed = false := by decide
theorem test_wf_slip : (Instr.weave 1024 0).wellFormed = false := by decide
theorem test_wf_port : (Instr.slotButton 32).wellFormed = false := by decide
theorem test_wf_header : (Instr.departed { port := 2, hops := 0, seq := 0 } 0).wellFormed = false := by decide
theorem test_wf_position : (Instr.memberAbsent 256).wellFormed = false := by decide
theorem test_wf_island : (Instr.straitHandshakeTimeout { kind := .cluster, idx := 16 } { kind := .quad, idx := 0 } 0).wellFormed = false := by decide
theorem test_wf_pin : (Instr.timePulse 32).wellFormed = false := by decide
theorem test_wf_hart : (Instr.stop 128).wellFormed = false := by decide
theorem test_wf_target : (Instr.ymhartstart 0 128).wellFormed = false := by decide
theorem test_wf_access : (Instr.lr { hart := 128, va := 0, ca := 0 }).wellFormed = false := by decide
theorem test_wf_agent : (Instr.readOnce (.l3 16) 0 0).wellFormed = false := by decide
theorem test_wf_part : (Instr.readOnce (.l3 0) 17 0).wellFormed = false := by decide
theorem test_wf_address : (Instr.readOnce (.l3 0) 0 (2 ^ 60)).wellFormed = false := by decide
theorem test_wf_line : (Instr.writeLine (.l3 0) 0 0 (List.replicate 65 0) false).wellFormed = false := by decide
theorem test_wf_size : (Instr.atomicMem 0 0 1 3 0 0).wellFormed = false := by decide
theorem test_wf_rail : (Instr.protectiveRelease 64).wellFormed = false := by decide
theorem test_wf_queue : (Instr.fqOvfTake 18).wellFormed = false := by decide
theorem test_wf_knot : (Instr.kntValue { hart := 0, va := 0 } 262144).wellFormed = false := by decide
theorem test_wf_file : (Instr.seteipnumLe 0 0 8 0).wellFormed = false := by decide
theorem test_wf_asid : (Instr.asid 0 (2 ^ 16)).wellFormed = false := by decide
theorem test_wf_vmid : (Instr.vmid 0 (2 ^ 14)).wellFormed = false := by decide
theorem test_wf_place : (Instr.registerWrite (.csr 0 4096) .full 0).wellFormed = false := by decide
theorem test_wf_copy : (Instr.logCopyFail 2 0).wellFormed = false := by decide
theorem test_wf_input : (Instr.tamper 4).wellFormed = false := by decide
theorem test_wf_initiator : (Instr.censusSample 256 0).wellFormed = false := by decide
theorem test_wf_function : (Instr.ideFail (2 ^ 17) 0).wellFormed = false := by decide
theorem test_wf_set : (Instr.set fr (2 ^ 32) 0).wellFormed = false := by decide

/-! ### Values the spec works out -/

/-- An empty queue idles. -/
theorem test_idle : step State.reset = .next State.reset := rfl

/-- The slip of the worked example of chapter 13: slip 40 of A1, LOG2_SIZE 10, CRING_BASE 0x4002_0000. -/
def slip280 : Slip := { log2 := 10, ring := 0x40000000, cring := 0x40020000, tail := 1022, head := 1022, done := 1022, st := .running }

/-- Slip 280 lies on A1. -/
theorem test_slip_die : slipDie (240 + 40) = 1 := by decide

/-- Table 13.16's table of records: the address of s = 1,022's. -/
theorem test_record_address : recordAddr slip280 1022 = 0x40027FC0 := by decide

/-- PHASE is 1 for s = 1,023 and 0 for s = 1,024 (R415). -/
theorem test_phase : recPhase slip280 1023 = 1 ∧ recPhase slip280 1024 = 0 := by decide

/-- Bytes 0x00 to 0x07 of the record of s = 1,023 are 0x0000_0043_0021_0309. -/
theorem test_record_word :
    leNat ((recordBytes slip280 { seq := 1023, bytes := dsc [(4, 4, 0x43)], status := 0x09, reason := 0x21 } true).take 8)
      = 0x0000004300210309 := by decide +kernel

/-- A doorbell of 1,026 is accepted: TAIL becomes 1,026. -/
theorem test_doorbell :
    (match exec (.slpDoorbell 3 280 1026) (st { sel := { units := [(unitKey 5 280, { owner := 3, state := .owned })] }
                                                eng := { slips := [(280, slip280)] } }) with
      | .next t => (slipAt t.hw 280).tail
      | _ => 0) = 1026 := by decide +kernel

/-- ASID 261 belongs to class 5 (chapter 12): epoch 6 of its partition's 81. -/
theorem test_asid_class : asidEpoch 0x0105 = 6 := by decide

/-- Operand 0x0000_0000_0924_0000 is offset 0x4_0000 of loom 146's bobbin. -/
theorem test_loom_operand : field 0x09240000 28 20 = 146 ∧ field 0x09240000 19 0 = 0x40000 := by decide

/-- Pool 2 of chapter 16: slot 64 is 8,000 mod 256 with 130 entries. -/
theorem test_pool_slot : ringSlot { entries := 130 } 8000 = 4 * 64 := by decide

/-- Chapter 17: after T = 2,004 with SPARE_MAX 1 the ledger keeps 127 pages. -/
theorem test_keep_pages : keepPages { spare := 1 } 2004 false = 127 := by decide

/-- CRC-32C of "123456789", the check value published for that code. -/
theorem test_crc32c : crc32c [0x31, 0x32, 0x33, 0x34, 0x35, 0x36, 0x37, 0x38, 0x39] = 0xE3069283 := by decide +kernel

/-- Philox-4×32-10 of key 0 and counter 0, from the authors' published vectors. -/
theorem test_philox : philox 0 0 0 = [0x6627E8D5, 0xE169C58D, 0xBC57AC4C, 0x9B00DBD8] := by decide +kernel

/-- The residual draw of row 3 of Table 17.8: a token accepted when u1 q < p. -/
theorem test_no_accept : flt (.fin false 2928 (-14)) (.fin false 1200 (-14)) = false := by decide +kernel

end Sys2Proof.Tests
end

/-! PROOFS. Partitions (R87 to R91): what a refusal at the selvedge writes. A record due only to a partition's queue touches that queue and
nothing else of the fault stores, because the interrupt it raises leaves the fault stores alone. -/
section
namespace Sys2Proof.Machine

/-! ### Interrupts leave the fault stores alone (R710, R714) -/

@[simp] theorem imsicSet_faults (h : Hw) (n k v : Nat) : (imsicSet h n k v).faults = h.faults := by
  simp only [imsicSet, noteIrq, apply_ite Hw.faults, ite_self]

@[simp] theorem deliverEntry_faults (h : Hw) (p w : Nat) : (deliverEntry h p w).faults = h.faults := by
  simp only [deliverEntry, apply_ite Hw.faults, imsicSet_faults, ite_self]

@[simp] theorem raise_faults (h : Hw) (p e : Nat) : (raise h p e).faults = h.faults := by
  simp only [raise, takeFree, apply_ite Hw.faults, deliverEntry_faults, ite_self]

/-! ### Records (R571, R575, R576) -/

/-- A record due to a queue replaces that queue, whether it enters or is folded, and nothing else of the fault stores. -/
theorem queueWrite_faults (h : Hw) (k : Nat) (r : FaultRec) : ∃ x, (queueWrite h k r).faults = (setQueue h k x).faults := by
  unfold queueWrite
  dsimp only
  split <;> exact ⟨_, by simp only [apply_ite Hw.faults, raise_faults, ite_self]; rfl⟩

/-- A record whose type names destination P alone, of a partition, is due to that partition's queue only; none is written after both log
copies are lost (R583). -/
theorem recordWrite_partOnly (h : Hw) (r : FaultRec) (ht : recTo r.type = (true, false, false)) (hp : r.part ≠ 0xFF) :
    recordWrite h r = h ∨ ∃ r', recordWrite h r = queueWrite h r.part r' := by
  unfold recordWrite
  split
  · exact .inl rfl
  · exact .inr ⟨_, by simp [ht, hp]; rfl⟩

/-- An INFO record SEL_REFUSED is due to its partition alone (Table 19.4). -/
theorem recTo_selRefused : recTo 0x0101 = (true, false, false) := by decide

/-! ### Refusals (R91, Table 3.5) -/

@[simp] theorem countRefusal_faults (h : Hw) (p : Nat) : (countRefusal h p).faults = h.faults := by
  simp only [countRefusal, apply_ite Hw.faults, setPart_faults, ite_self]

/-- A refusal counts once in the acting partition's SEL_REFUSE_COUNT. -/
theorem partAt_countRefusal_same (h : Hw) {p : Nat} (hp : p ≤ 16) (hw : tabWf {} h.sel.parts = true) :
    partAt (countRefusal h p) p = { partAt h p with selRefuse := ((partAt h p).selRefuse + 1) % 2 ^ 64 } := by
  simp only [countRefusal, if_pos hp, partAt_setPart_same h p _ hw]

@[simp] theorem partAt_countRefusal_other (h : Hw) (p : Nat) {q : Nat} (hq : q ≠ p) : partAt (countRefusal h p) q = partAt h q := by
  unfold countRefusal
  dsimp only
  split
  · exact partAt_setPart_other h p _ hq
  · rfl

/-- The record of a refusal is not part of the partition table: the refusal changes it as its count does. -/
@[simp] theorem partAt_refuseEngine (h : Hw) (p a d q : Nat) : partAt (refuseEngine h p a d) q = partAt (countRefusal h p) q := by
  simp only [partAt, refuseEngine, recordWrite_sel]

/-- A refusal changes at most the acting partition's queue of the fault stores. -/
theorem refuseEngine_faults (h : Hw) {p : Nat} (a d : Nat) (hp : p ≤ 16) :
    (refuseEngine h p a d).faults = h.faults ∨ ∃ x, (refuseEngine h p a d).faults = (setQueue h p x).faults := by
  unfold refuseEngine
  dsimp only
  obtain hr | ⟨r', hr⟩ := recordWrite_partOnly (countRefusal h p)
    { type := 0x0101, part := p, addr := if 2 ^ 60 ≤ a then a % 2 ^ 60 else toCompact h.ident.position a, arg0 := d }
    recTo_selRefused (show p ≠ 0xFF by omega)
  · exact .inl (by rw [hr, countRefusal_faults])
  · obtain ⟨x, hx⟩ := queueWrite_faults (countRefusal h p) p r'
    exact .inr ⟨x, by rw [hr, hx]; simp only [setQueue, countRefusal_faults]⟩

/-- A fault queue is read from the fault stores alone. -/
theorem queueAt_congr {g h : Hw} (e : g.faults = h.faults) (k : Nat) : queueAt g k = queueAt h k := by
  simp only [queueAt, e]

/-- Settles O5: the record of a refusal is due to the acting partition's queue alone, and the interrupt it raises touches no fault store. -/
theorem refusalStaysInItsPartition : Obligations.RefusalStaysInItsPartition := by
  rintro h g p a d hp hw rfl
  have hcount : (partAt (refuseEngine h p a d) p).selRefuse = ((partAt h p).selRefuse + 1) % 2 ^ 64 := by
    rw [partAt_refuseEngine, partAt_countRefusal_same h hp hw]
  have hothers : ∀ q, q ≠ p → partAt (refuseEngine h p a d) q = partAt h q := fun q hq => by
    rw [partAt_refuseEngine, partAt_countRefusal_other h p hq]
  obtain hf | ⟨x, hf⟩ := refuseEngine_faults h a d hp
  · exact ⟨by rw [hf], by rw [hf], fun k _ => queueAt_congr hf k, hcount, hothers⟩
  · exact ⟨by rw [hf, setQueue_faults_fences], by rw [hf, setQueue_faults_log],
      fun k hk => (queueAt_congr hf k).trans (queueAt_setQueue_other h p x hk), hcount, hothers⟩

end Sys2Proof.Machine
end

/-! PROOFS. Knots (R485): the order in which waiters are released. The waiters that stand before the one released are a list that releases
none, so both halves of the statement rest on what such a list is. -/
section
namespace Sys2Proof.Machine

/-- The first waiter goes if its condition holds and it is not held back; otherwise the rest are looked at, held back by it if of its kind. -/
theorem firstRelease_cons (k : Knot) (back : Bool) (v : Waiter) (ws : List Waiter) : firstRelease k back (v :: ws) =
    if condHolds k v.cond v.x && !(back && holdsBack k v.cond) then some v else firstRelease k (back || holdsBack k v.cond) ws := rfl

/-- A waiter stays where its condition does not hold, or where it is of the kind held back and an earlier one holds back that kind. -/
theorem firstRelease_cons_eq_none (k : Knot) (back : Bool) (v : Waiter) (ws : List Waiter) : firstRelease k back (v :: ws) = none ↔
    (condHolds k v.cond v.x = false ∨ back = true ∧ holdsBack k v.cond = true) ∧
      firstRelease k (back || holdsBack k v.cond) ws = none := by
  rw [firstRelease_cons]
  cases condHolds k v.cond v.x <;> cases back <;> cases holdsBack k v.cond <;> simp

/-- The waiter released has its condition and stands behind waiters of which none is released; one that is held back by its kind is released
only where none of that kind stands before it. -/
theorem firstRelease_eq_some {k : Knot} {w : Waiter} {back : Bool} {ws : List Waiter} (h : firstRelease k back ws = some w) :
    ∃ a b, ws = a ++ w :: b ∧ firstRelease k back a = none ∧ condHolds k w.cond w.x = true ∧
      (holdsBack k w.cond = true → back = false ∧ ∀ v ∈ a, holdsBack k v.cond = false) := by
  induction ws generalizing back with
  | nil => cases h
  | cons v ws ih =>
    rw [firstRelease_cons] at h
    split at h
    next hgo =>
      obtain rfl : v = w := by simpa using h
      rw [Bool.and_eq_true, Bool.not_eq_true'] at hgo
      obtain ⟨hcond, hfree⟩ := hgo
      exact ⟨[], ws, rfl, rfl, hcond, fun hkind => ⟨by simpa [hkind] using hfree, by simp⟩⟩
    next hstay =>
      obtain ⟨a, b, rfl, hnone, hcond, hfirst⟩ := ih h
      have hv : firstRelease k back (v :: a) = none := by rw [firstRelease_cons, if_neg hstay, hnone]
      refine ⟨v :: a, b, rfl, hv, hcond, fun hkind => ?_⟩
      obtain ⟨hback, ha⟩ := hfirst hkind
      obtain ⟨hback, hvk⟩ := Bool.or_eq_false_iff.mp hback
      exact ⟨hback, List.forall_mem_cons.mpr ⟨hvk, ha⟩⟩

/-- Where none is released, each waiter lacks its condition or is held back by its kind; what started the holding back is a waiter of that
kind whose condition does not hold, before the list (`back`) or in it. -/
theorem stands_of_firstRelease_eq_none {k : Knot} {back : Bool} {ws : List Waiter} (h : firstRelease k back ws = none) {i : Nat} {v : Waiter}
    (hi : ws[i]? = some v) : condHolds k v.cond v.x = false ∨ (holdsBack k v.cond = true ∧ (back = true ∨
      ∃ (j : Nat) (u : Waiter), j < i ∧ ws[j]? = some u ∧ holdsBack k u.cond = true ∧ condHolds k u.cond u.x = false)) := by
  induction ws generalizing back i with
  | nil => simp at hi
  | cons u ws ih =>
    obtain ⟨hu, hws⟩ := (firstRelease_cons_eq_none k back u ws).mp h
    cases i with
    | zero =>
      obtain rfl : u = v := by simpa using hi
      exact hu.imp_right fun ⟨hback, hkind⟩ => ⟨hkind, .inl hback⟩
    | succ i =>
      refine (ih hws hi).imp_right fun ⟨hkind, hearlier⟩ => ⟨hkind, ?_⟩
      obtain hback | ⟨j, x, hj, hx, hxkind, hxcond⟩ := hearlier
      · obtain hback | hukind := (Bool.or_eq_true _ _).mp hback
        · exact .inl hback
        · exact hu.symm.imp (·.1) fun hcond => ⟨0, u, i.succ_pos, rfl, hukind, hcond⟩
      · exact .inr ⟨j + 1, x, Nat.succ_lt_succ hj, hx, hxkind, hxcond⟩

/-- Settles O6: the waiters before the one released are a list that releases none, and in such a list each lacks its condition or is held
back by one that does. -/
theorem waitersGoInOrder : Obligations.WaitersGoInOrder := by
  have hstand : ∀ (k : Knot) (ws : List Waiter), firstRelease k false ws = none → ∀ (i : Nat) (v : Waiter), ws[i]? = some v →
      condHolds k v.cond v.x = false ∨ (holdsBack k v.cond = true ∧
        ∃ (j : Nat) (u : Waiter), j < i ∧ ws[j]? = some u ∧ holdsBack k u.cond = true ∧ condHolds k u.cond u.x = false) := by
    intro k ws h i v hi
    simpa using stands_of_firstRelease_eq_none h hi
  refine fun k ws => ⟨fun w h => ?_, hstand k ws⟩
  obtain ⟨a, b, hws, hnone, hcond, hfirst⟩ := firstRelease_eq_some h
  exact ⟨a, b, hws, hcond, fun hkind => (hfirst hkind).2, hstand k a hnone⟩

end Sys2Proof.Machine
end

/-! PROOFS. Membership commands (R599 to R602, R631, R634 to R637): what each command does in each of its cases. A case of a command is one
equation for its body, and the way the mailbox serves an answer of that form turns the equation into the whole next state. -/
section
namespace Sys2Proof.Machine

/-! ### The row of a served command, by the form of its answer -/

section Rows

variable {s : State} {h e : Hw} {m : Mbx} {tag code : Nat} {r : Req} {f : HM → Req → HM × Reply} {p : List Byte}

/-- The row of a served query whose body changes nothing: no interrupt and no message is left for the end of the step. -/
theorem onAll_serve_query (hh : h = clearSent s.hw) (hs : Serving s m tag code r) (hf : f (h, s.mem) r = ((h, s.mem), doneQ p)) :
    onAll s (fun hm => serve hm m tag code f) = .next (s.withHw (finalResp h m r 0 0 p)) := by
  refine onAll_hw hh (serve_query hh hs f hf) ?_ ?_
  · rw [finalResp_arch, hh, clearSent_posted]
  · rw [finalResp_only, hh]
    exact clearSent_irqWake s.hw

/-- The row of a served command that its own checks refuse. -/
theorem onAll_serve_deny {a b : Nat} (hh : h = clearSent s.hw) (hs : Serving s m tag code r) (hf : f (h, s.mem) r = ((e, s.mem), deny a b)) :
    onAll s (fun hm => serve hm m tag code f) = .next (s.ended (finalResp e m r a b [])) :=
  onAll_routedHw hh (serve_deny hh hs f hf)

/-- The row of a served command that commits with nothing to wait for. -/
theorem onAll_serve_done (hh : h = clearSent s.hw) (hs : Serving s m tag code r) (hf : f (h, s.mem) r = ((e, s.mem), doneC p)) :
    onAll s (fun hm => serve hm m tag code f) = .next (s.ended (doneCommand h e m r p)) :=
  onAll_routedHw hh (serve_done hh hs f hf)

/-- The row of a served command that commits and waits. -/
theorem onAll_serve_wait {w : Wait} (hh : h = clearSent s.hw) (hs : Serving s m tag code r)
    (hf : f (h, s.mem) r = ((e, s.mem), { commit := true, wait := w })) (hw : w ≠ .none) :
    onAll s (fun hm => serve hm m tag code f) = .next (s.ended (waitCommand h e m r w [])) :=
  onAll_routedHw hh (serve_wait hh hs f hf hw)

/-- The row of a served command that waits before its commit point. -/
theorem onAll_serve_hold {w : Wait} (hh : h = clearSent s.hw) (hs : Serving s m tag code r)
    (hf : f (h, s.mem) r = ((e, s.mem), { wait := w })) (hw : w ≠ .none) :
    onAll s (fun hm => serve hm m tag code f) = .next (s.ended (holdCommand e m r w [])) :=
  onAll_routedHw hh (serve_hold hh hs f hf hw)

end Rows

section Bodies

variable {h : Hw} {mem : Memory} {r : Req}

/-! ### ARCH_STATUS (R601) -/

/-- ARCH_STATUS answers ARCH_ID, the Position ID, the flags and the roles before its tables. -/
theorem archStatus_answers (m : Mbx) : ∃ more, archStatus m (h, mem) r = ((h, mem), doneQ (leBytes 8 h.arch.archId
    ++ leBytes 1 h.ident.position ++ leBytes 1 (flag h.ident.admitted + 2 * flag h.edges.anchor + 4 * flag (memberFenced h)
    + 8 * flag h.tb.holdover + 16 * flag h.tb.unsynced) ++ leBytes 1 (ownRoles h) ++ more)) := by
  apply Exists.intro
  simp only [archStatus, List.append_assoc]
  rfl

/-! ### ARCH_FOUND (R599, R600) -/

/-- Another ARCH_ID was heard less than a second ago (R599). -/
def heardForeign (h : Hw) : Bool := match h.arch.foreign with | some t => decide (h.tb.now < t + second) | none => false

theorem heardForeign_iff (h : Hw) : heardForeign h = true ↔ ∃ t, h.arch.foreign = some t ∧ h.tb.now < t + second := by
  unfold heardForeign
  cases h.arch.foreign <;> simp

/-- The ARCH_ID drawn from a random number: never zero. -/
def drawnArchId (v : W64) : Nat := if v.toNat = 0 then 1 else v.toNat

theorem drawnArchId_ne_zero (v : W64) : drawnArchId v ≠ 0 := by
  unfold drawnArchId
  split
  · exact one_ne_zero
  · assumption

theorem drawnArchId_lt (v : W64) : drawnArchId v < 2 ^ 64 := by
  unfold drawnArchId
  split
  · norm_num
  · exact v.isLt

/-- The time base of a founder: START_TB where the request gives a later one, else its own (R600). -/
def startTb (h : Hw) (r : Req) : Nat := if bitOf (leAt r.payload 0 1) 0 then max h.tb.now (leAt r.payload 8 8) else h.tb.now

/-- The package that has founded an archipelago of an ARCH_ID at a time: its only member, at Position ID 0, with both roles (R599, R600). -/
def founded (h : Hw) (id T : Nat) : Hw :=
  { h with
    free := h.free + 1
    tb := { h.tb with now := T, unsynced := false }
    ident := { h.ident with position := 0, admitted := true }
    arch := { h.arch with
      archId := id, timeSrc := some 0, admitter := some 0, plan := { root := 0 }, tickAt := T, timeAt := T
      members := tabPut {} [] 0 { st := .member, tag := Config.deviceTag.toNat, digest := Config.aliasDigest (fwMeasure h), lastSeen := T,
                                  attested := T } } }

theorem archFound_eq : archFound (h, mem) r = if !h.edges.anchor || h.ident.admitted || h.ident.bench || heardForeign h
    then ((h, mem), deny 0x20 0)
    else ((founded h (drawnArchId (Config.freeValue h.free)) (startTb h r), mem), doneC (leBytes 8 (drawnArchId (Config.freeValue h.free)))) := by
  unfold archFound startTb
  cases bitOf (leAt r.payload 0 1) 0 <;> rfl

theorem archFound_denied (hd : h.edges.anchor = false ∨ h.ident.admitted = true ∨ h.ident.bench = true ∨
    ∃ t, h.arch.foreign = some t ∧ h.tb.now < t + second) : archFound (h, mem) r = ((h, mem), deny 0x20 0) := by
  rw [← heardForeign_iff] at hd
  rw [archFound_eq, if_pos]
  simpa only [Bool.or_eq_true, Bool.not_eq_true', or_assoc] using hd

theorem archFound_founds (hanchor : h.edges.anchor = true) (hadm : h.ident.admitted = false) (hbench : h.ident.bench = false)
    (hquiet : ∀ t, h.arch.foreign = some t → t + second ≤ h.tb.now) :
    archFound (h, mem) r = ((founded h (drawnArchId (Config.freeValue h.free)) (startTb h r), mem),
      doneC (leBytes 8 (drawnArchId (Config.freeValue h.free)))) := by
  have hheard : ¬ heardForeign h = true := fun hn =>
    let ⟨t, ht, hlt⟩ := (heardForeign_iff h).mp hn
    (hquiet t ht).not_gt hlt
  rw [archFound_eq, if_neg (by simpa [hanchor, hadm, hbench] using hheard)]

/-! ### ARCH_JOIN (R634) -/

theorem archJoin_denied
    (hd : (∃ p, 1 ≤ p ∧ p ≤ 16 ∧ partExists h p = true) ∨ h.ident.bench = true ∨ (h.ident.admitted = true ∧ memberFenced h = false)) :
    archJoin (h, mem) r = ((h, mem), deny 0x20 0) := by
  unfold archJoin
  refine if_pos ?_
  simp only [Bool.or_eq_true, Bool.and_eq_true, List.any_eq_true, List.mem_range, decide_eq_true_eq, Bool.not_eq_true', or_assoc]
  exact hd.imp_left fun ⟨p, h1, h16, hp⟩ => ⟨p, by omega, by omega, hp⟩

theorem archJoin_waits (hparts : ∀ p, 1 ≤ p → p ≤ 16 → partExists h p = false) (hbench : h.ident.bench = false)
    (hfree : h.ident.admitted = false ∨ memberFenced h = true) (hnone : waitsFor h (fun w => decide (w = Wait.join)) = false) :
    archJoin (h, mem) r = (({ h with arch := { h.arch with
        expect := leAt r.payload 0 8, accepts := (List.range (leAt r.payload 8 1)).map (fun i => (r.payload.drop (16 + 48 * i)).take 48) } }, mem),
      { wait := .join }) := by
  have hpart : ((List.range 17).any fun p => decide (p ≠ 0) && partExists h p) = false := by
    rw [List.any_eq_false]
    intro p hp
    rw [List.mem_range] at hp
    by_cases h0 : p = 0
    · simp [h0]
    · simp [hparts p (by omega) (by omega)]
  have hadm : (h.ident.admitted && !memberFenced h) = false := by
    obtain hfree | hfree := hfree <;> simp [hfree]
  unfold archJoin
  simp only [hpart, hbench, hadm, hnone, Bool.or_self, Bool.false_eq_true, if_false]

/-! ### ARCH_ADMIT (R602, R635) -/

theorem archAdmit_notAdmitter (hrole : holdsRole h 1 = false) : archAdmit (h, mem) r = ((h, mem), deny 0x20 0x102) := by
  simp [archAdmit, hrole]

theorem archAdmit_idBusy (hrole : holdsRole h 1 = true) (hid : idFree h (leAt r.payload 8 1) = false) :
    archAdmit (h, mem) r = ((h, mem), deny 0x20 0x101) := by
  simp [archAdmit, hrole, hid]

theorem archAdmit_waits (hrole : holdsRole h 1 = true) (hid : idFree h (leAt r.payload 8 1) = true)
    (hnone : waitsFor h (fun w => match w with | .admission _ q => decide (q = leAt r.payload 8 1) | _ => false) = false) :
    archAdmit (h, mem) r = ((sendAdmit h (leAt r.payload 0 8) 0, mem), { wait := .admission (leAt r.payload 0 8) (leAt r.payload 8 1) }) := by
  unfold archAdmit
  dsimp only
  rw [if_neg (by simp [hrole]), if_neg]
  rw [hid]
  exact Bool.eq_false_iff.mp hnone

/-! ### ARCH_DEPART (R637) -/

/-- ARCH_DEPART of a member, asked for by that member or by the ADMITTER, is decided by the member's roles and by whose departure it is. -/
theorem archDepart_checked {p : Nat} (hp : p = leAt r.payload 0 1) (hmember : isMember h p = true)
    (hmay : p = h.ident.position ∨ holdsRole h 1 = true) : archDepart (h, mem) r =
    if (h.arch.timeSrc = some p ∨ h.arch.admitter = some p) ∧ 2 ≤ (memberIds h).length then ((h, mem), deny 0x20 0x105)
    else if p = h.ident.position then
      (beginDepart (h, mem), if (beginDepart (h, mem)).1.ident.admitted then { commit := true, wait := .depart p } else doneC)
    else ((appliedFrame (broadcast (setMember h p { memberAt h p with st := .departing }) 0x09 [p]) h.arch.seq, mem),
      { commit := true, wait := .depart p }) := by
  subst hp
  have hchecks : (!decide (leAt r.payload 0 1 = h.ident.position) && !holdsRole h 1) = false := by
    obtain hmay | hmay := hmay <;> simp [hmay]
  unfold archDepart
  simp only [hmember, hchecks, Bool.not_true, Bool.false_eq_true, if_false, Bool.and_eq_true, decide_eq_true_eq]
  split_ifs <;> rfl

/-! ### ARCH_ROLE_SET (R631) -/

theorem archRoleSet_unadmitted (hadm : h.ident.admitted = false) : archRoleSet (h, mem) r = ((h, mem), deny 0x20 0) := by
  simp [archRoleSet, hadm]

/-- Moving TIME_SOURCE or ADMITTER: nothing to do where this package holds it, else a request to its holder. -/
theorem archRoleSet_held {q : Nat} (hadm : h.ident.admitted = true) (hrole : leAt r.payload 0 1 < 2)
    (hholder : roleHolder h (leAt r.payload 0 1) = some q)
    (hnone : waitsFor h (fun w => decide (w = Wait.role (leAt r.payload 0 1) (leAt r.payload 1 1))) = false) :
    archRoleSet (h, mem) r = if q = h.ident.position then ((h, mem), doneC)
      else ((direct h 0x10 q [0, leAt r.payload 0 1, leAt r.payload 1 1], mem), { wait := .role (leAt r.payload 0 1) (leAt r.payload 1 1) }) := by
  unfold archRoleSet
  simp only [hadm, hnone, hholder, Nat.ne_of_lt hrole, Bool.not_true, Bool.false_eq_true, if_false]

end Bodies

/-! ### The statement -/

/-- Settles O29: each case of each command is its body's equation, served. -/
theorem archMembershipCommands : Obligations.ArchMembershipCommands := by
  intro s h m tag r hh
  refine ⟨?status, ?found, ?foundDenied, ?joinDenied, ?join, ?admission, ?policy, ?depart, ?roleDenied, ?role⟩
  case status =>
    intro hs
    obtain ⟨more, hf⟩ := archStatus_answers (h := h) (mem := s.mem) (r := r) m
    exact ⟨_, onAll_serve_query hh hs hf, more, rfl, rfl⟩
  case found =>
    rintro T rfl hs hanchor hadm hbench hquiet
    exact ⟨_, drawnArchId_ne_zero _, drawnArchId_lt _, onAll_serve_done hh hs (archFound_founds hanchor hadm hbench hquiet)⟩
  case foundDenied => exact fun hs hd => onAll_serve_deny hh hs (archFound_denied hd)
  case joinDenied => exact fun hs hd => onAll_serve_deny hh hs (archJoin_denied hd)
  case join => exact fun hs hparts hbench hfree hnone => onAll_serve_hold hh hs (archJoin_waits hparts hbench hfree hnone) nofun
  case admission =>
    rintro p hs rfl
    exact ⟨fun hrole => onAll_serve_deny hh hs (archAdmit_notAdmitter hrole),
      fun hrole hid => onAll_serve_deny hh hs (archAdmit_idBusy hrole hid),
      fun hrole hid hnone => onAll_serve_hold hh hs (archAdmit_waits hrole hid hnone) nofun⟩
  case policy => exact fun hs => onAll_serve_done hh hs rfl
  case depart =>
    intro p hs hp hmember hmay
    have hbody := archDepart_checked (mem := s.mem) hp hmember hmay
    refine ⟨fun hrole hmany => onAll_serve_deny hh hs (hbody.trans (if_pos ⟨hrole, hmany⟩)), ?own, ?other⟩
    case own =>
      rintro _ hrole hown rfl
      rw [if_neg fun hc => hrole hc.1, if_pos hown] at hbody
      split_ifs at hbody ⊢ with hadm
      · exact onAll_routed (f := (serve · m tag 0x0B06 archDepart)) hh (serve_wait hh hs archDepart hbody nofun)
      · exact onAll_routed (f := (serve · m tag 0x0B06 archDepart)) hh (serve_done hh hs archDepart hbody)
    case other =>
      rintro _ hrole hother rfl
      rw [if_neg fun hc => hrole hc.1, if_neg hother] at hbody
      exact onAll_serve_wait hh hs hbody nofun
  case roleDenied => exact fun hs hadm => onAll_serve_deny hh hs (archRoleSet_unadmitted hadm)
  case role =>
    intro q hs hadm hlt hholder hnone
    have hbody := archRoleSet_held (mem := s.mem) hadm hlt hholder hnone
    exact ⟨fun hq => onAll_serve_done hh hs (hbody.trans (if_pos hq)),
      fun hq => onAll_serve_hold hh hs (hbody.trans (if_neg hq)) nofun⟩

end Sys2Proof.Machine
end

/-! PROOFS. CXL loss (R648) and the poison registries (R339, R340). A line that a Fenced agent holds is marked as it is invalidated (R249),
and a full registry of regions 0 and 1 then marks the whole swatch and frees the marks of its lines. So of two lines of one swatch that are
lost in turn, the second frees the mark of the first, and the last clause of the statement fails in a state whose decoder maps a CXL port to
region 0. HDM_DECODER_SET sets no such decoder (R647), but the statement is about every state. -/
section
namespace Sys2Proof.Machine

/-! ### What reads a poison mark -/

/-- What the poison registries are: the sites that place their lines, the marks of lines and those of swatches. -/
def registries (h : Hw) : Ident × Tab Bool × Tab Bool := (h.ident, h.coh.poison, h.coh.swPoison)

theorem registries_eq_iff {g h : Hw} :
    registries g = registries h ↔ g.ident = h.ident ∧ g.coh.poison = h.coh.poison ∧ g.coh.swPoison = h.coh.swPoison := by
  simp only [registries, Prod.mk.injEq]

theorem poison_of_registries {g h : Hw} (e : registries g = registries h) : g.coh.poison = h.coh.poison := (registries_eq_iff.mp e).2.1

/-- Entering a line reads and writes nothing but the registries. -/
theorem markPoison_registries {g h : Hw} (e : registries g = registries h) (a : Nat) :
    registries (markPoison g a) = registries (markPoison h a) := by
  obtain ⟨hident, hpoison, hsw⟩ := registries_eq_iff.mp e
  have hplace : registryOf g = registryOf h := by
    funext x
    simp only [registryOf, nearPlace, nearPerDie, stackSite, stacksPerDie, hident]
  simp only [markPoison, poisoned, hplace, hpoison, hsw, apply_ite registries]
  simp only [registries, hident, hpoison, hsw]

/-! ### Invalidating a line leaves the registries alone but for the mark of R249 -/

/-- What every step of a fold leaves alone, the fold leaves alone. -/
theorem foldl_keeps {α β : Type} (v : Hw → β) {f : Hw → α → Hw} (hf : ∀ h a, v (f h a) = v h) (l : List α) (h : Hw) :
    v (l.foldl f h) = v h := by
  induction l generalizing h with
  | nil => rfl
  | cons a l ih => rw [List.foldl_cons, ih, hf]

@[simp] theorem cacheDrop_registries (h : Hw) (c n line : Nat) : registries (cacheDrop h c n line) = registries h := rfl
@[simp] theorem restoreLine_registries (h : Hw) (line : Nat) : registries (restoreLine h line) = registries h := rfl
@[simp] theorem forgetLine_registries (h : Hw) (line : Nat) : registries (forgetLine h line) = registries h := rfl
@[simp] theorem postSnoop_registries (h : Hw) (line op p : Nat) : registries (postSnoop h line op p) = registries h := rfl

@[simp] theorem dropL2_registries (h : Hw) (n line : Nat) : registries (dropL2 h n line) = registries h := by
  unfold dropL2 dropL1
  simp only [cacheDrop_registries]

@[simp] theorem dropL3_registries (h : Hw) (c line : Nat) : registries (dropL3 h c line) = registries h := by
  unfold dropL3
  rw [cacheDrop_registries, foldl_keeps registries fun g k => dropL2_registries g (8 * c + k) line]

@[simp] theorem dropShelf_registries (h : Hw) (slot line : Nat) : registries (dropShelf h slot line) = registries h := by
  unfold dropShelf
  dsimp only
  split <;> rfl

@[simp] theorem dropLocals_registries (h : Hw) (v line : Nat) : registries (dropLocals h v line) = registries h := by
  unfold dropLocals
  rw [foldl_keeps registries fun g s => dropShelf_registries g s line, foldl_keeps registries fun g c => dropL3_registries g c line]

@[simp] theorem setDir_registries (h : Hw) (line : Nat) (e : DirEntry) : registries (setDir h line e) = registries h :=
  registries_eq_iff.mpr ⟨setDir_ident .., setDir_coh_poison .., setDir_coh_swPoison ..⟩

@[simp] theorem recallRemote_registries (h : Hw) (line op : Nat) (ps : List Nat) :
    registries (recallRemote h line op ps) = registries h := by
  have hsnoops := foldl_keeps registries (f := fun g p => postSnoop g line op p) (fun g p => postSnoop_registries g line op p) ps h
  unfold recallRemote
  dsimp only
  split
  · rw [forgetLine_registries, hsnoops]
  · exact hsnoops

@[simp] theorem askHolders_registries (h : Hw) (line op : Nat) (ps : List Nat) (q : DirReq) :
    registries (askHolders h line op ps q) = registries h := by
  unfold askHolders
  rw [setDir_registries, foldl_keeps registries fun g p => postSnoop_registries g line op p]

/-- A request that snoops its line's holder finds a Fenced agent there, so that the line is lost (R249). -/
def heldFenced (h : Hw) (line : Nat) (q : DirReq) : Bool :=
  match (dirAt h line).owner with
  | some o => snoopsHolder q.kind (dirAt h line) && decide (o ≠ q.agent) && agentFenced h o
  | none => false

theorem loseFenced_of_sound {h : Hw} {line : Nat} {q : DirReq} (hs : heldFenced h line q = false) : loseFenced h line q = h := by
  cases ho : (dirAt h line).owner with
  | none => simp only [loseFenced, ho]
  | some o =>
    simp only [heldFenced, ho] at hs
    simp only [loseFenced, ho, hs, Bool.false_eq_true, if_false]

/-- A line that is lost is marked, and its record touches no registry. -/
theorem loseFenced_registries_of_held {h : Hw} {line : Nat} {q : DirReq} (hf : heldFenced h line q = true) :
    registries (loseFenced h line q) = registries (markPoison h (line * 64)) := by
  cases ho : (dirAt h line).owner with
  | none => simp [heldFenced, ho] at hf
  | some o =>
    simp only [heldFenced, ho] at hf
    simp only [loseFenced, ho, hf, if_true]
    have hrest : registries (setDir (restoreLine (dropLocals h (holders (dirAt h line)) line) line) line
        { queue := (dirAt h line).queue, busy := (dirAt h line).busy }) = registries h := by
      rw [setDir_registries, restoreLine_registries, dropLocals_registries]
    rw [← markPoison_registries hrest]
    simp only [registries, recordWrite_ident, recordWrite_coh]

/-- Of what invalidating a line does, only its loss to a Fenced agent touches a registry. -/
theorem invalidateLine_registries (h : Hw) (line : Nat) :
    registries (invalidateLine h line) = registries (loseFenced h line (collectReq line)) := by
  unfold invalidateLine
  dsimp only
  split
  · rw [setDir_registries, recallRemote_registries, dropLocals_registries]
  · rw [askHolders_registries, setDir_registries, dropLocals_registries]

@[simp] theorem dropLocals_zero (h : Hw) (line : Nat) : dropLocals h 0 line = h := by
  have hbit : bitOf 0 = fun _ => false := funext Nat.zero_testBit
  simp [dropLocals, hbit]

/-- A line that no cache and no package holds has only its empty directory entry written. -/
theorem invalidateLine_uncached {h : Hw} {line : Nat} (hd : dirAt h line = {}) : invalidateLine h line = setDir h line {} := by
  have hsound : loseFenced h line (collectReq line) = h := loseFenced_of_sound (by simp [heldFenced, hd])
  have hlocals : holders {} = 0 := rfl
  have hremote : remoteHolders h {} = [] := rfl
  unfold invalidateLine
  simp [hsound, hd, hlocals, hremote, recallRemote]

/-! ### Lines lost in turn (R648) -/

theorem loseLine_poison (h : Hw) (line : Nat) :
    (loseLine h line).coh.poison = tabPut false (loseFenced h line (collectReq line)).coh.poison line true := by
  rw [← poison_of_registries (invalidateLine_registries h line)]
  rfl

theorem markPoison_poison (h : Hw) (a : Nat) : (markPoison h a).coh.poison =
    if poisoned h a = true then h.coh.poison
    else if regionOf a ≤ 1 ∧ 8192 ≤ (h.coh.poison.filter fun e => decide (registryOf h (e.1 * 64) = registryOf h a)).length
    then tabClear h.coh.poison fun l => decide (swatchOf (l * 64) = swatchOf a)
    else tabPut false h.coh.poison (lineOf a) true := by
  unfold markPoison
  split_ifs <;> rfl

/-- Marking a line marks no other line. -/
theorem markPoison_unmarked {h : Hw} {a m : Nat} (hm : m ≠ lineOf a) (h0 : tabGet false h.coh.poison m = false) :
    tabGet false (markPoison h a).coh.poison m = false := by
  rw [markPoison_poison]
  split_ifs
  · exact h0
  · by_cases hc : swatchOf (m * 64) = swatchOf a
    · exact tabGet_clear_in false _ (by simpa using hc)
    · exact (tabGet_clear_out false _ (by simpa using hc)).trans h0
  · rwa [tabGet_put_other false _ _ hm]

/-- Losing a line marks no other line. -/
theorem loseLine_unmarked {h : Hw} {line m : Nat} (hm : m ≠ line) (h0 : tabGet false h.coh.poison m = false) :
    tabGet false (loseLine h line).coh.poison m = false := by
  rw [loseLine_poison, tabGet_put_other false _ _ hm]
  cases hf : heldFenced h line (collectReq line) with
  | false => rwa [loseFenced_of_sound hf]
  | true =>
    rw [poison_of_registries (loseFenced_registries_of_held hf)]
    exact markPoison_unmarked (by simpa [lineOf] using hm) h0

theorem foldl_loseLine_unmarked {m : Nat} (ls : List Nat) (hm : m ∉ ls) (h : Hw) (h0 : tabGet false h.coh.poison m = false) :
    tabGet false (ls.foldl loseLine h).coh.poison m = false := by
  induction ls generalizing h with
  | nil => exact h0
  | cons l ls ih =>
    rw [List.mem_cons, not_or] at hm
    exact ih hm.2 _ (loseLine_unmarked hm.1 h0)

/-- Losing a line that a Fenced agent holds and whose registry is full frees the mark of every other line of its swatch (R249, R340). -/
theorem loseLine_frees_marks {h : Hw} {line m : Nat} (hf : heldFenced h line (collectReq line) = true) (hp : poisoned h (line * 64) = false)
    (htier : regionOf (line * 64) ≤ 1)
    (hfull : 8192 ≤ (h.coh.poison.filter fun e => decide (registryOf h (e.1 * 64) = registryOf h (line * 64))).length)
    (hm : m ≠ line) (hsw : swatchOf (m * 64) = swatchOf (line * 64)) : tabGet false (loseLine h line).coh.poison m = false := by
  rw [loseLine_poison, tabGet_put_other false _ _ hm, poison_of_registries (loseFenced_registries_of_held hf), markPoison_poison,
    if_neg (by simp [hp]), if_pos ⟨htier, hfull⟩]
  exact tabGet_clear_in false _ (by simpa using hsw)

/-- A CXL port whose device reports media failure loses what it serves. -/
theorem cxlLost_media {h : Hw} {n : Nat} (hex : (portAt h n).exists_ = true) (hcxl : (portAt h n).cxl = true)
    (hbad : (portAt h n).mediaBad = false) : cxlLost h n true = loseGranules (setPort h n { portAt h n with mediaBad := true }) n := by
  simp [cxlLost, hex, hcxl, hbad]

/-- CXL_PORT_LOST changes the hardware alone. -/
theorem exec_cxlPortLost (n : Nat) (media : Bool) (s : State) : exec (.cxlPortLost n media) s =
    .next (s.ended (cxlLost (clearSent s.hw) n media)) := rfl

/-! ### What follows the lost lines touches no mark -/

@[simp] theorem recordEach_coh (h : Hw) (r : FaultRec) (ps : List Nat) : (recordEach h r ps).coh = h.coh := by
  cases ps with
  | nil => exact recordWrite_coh ..
  | cons p ps =>
    refine (foldl_keeps Hw.coh (fun g q => ?_) ps _).trans (recordWrite_coh ..)
    split
    · rfl
    · exact queueWrite_coh ..

@[simp] theorem writeReport_coh (h : Hw) (a b c d : Nat) : (writeReport h a b c d).coh = h.coh := by
  unfold writeReport
  exact (foldl_keeps Hw.coh (fun _ _ => recordWrite_coh ..) _ _).trans (recordWrite_coh ..)

@[simp] theorem exitTrigger_coh (h : Hw) (w : WakeBy) : (exitTrigger h w).coh = h.coh := by
  unfold exitTrigger
  split
  · rfl
  · exact writeReport_coh ..
  · rfl

@[simp] theorem stepEnd_coh (h : Hw) : (stepEnd h).coh = h.coh := by
  unfold stepEnd wakeUp
  rw [routeOut_only]
  split
  · exact exitTrigger_coh ..
  · rfl

/-! ### A state in which a lost line's mark is freed -/

/-- A registry of the far tier that is full: its lines stand 256 MiB apart, one to a swatch. -/
def fullRegistry : Tab Bool := (List.range' 0 8192).map fun j => (j * 2 ^ 22, true)

theorem fullRegistry_eq_cons : fullRegistry = (0, true) :: (List.range' 1 8191).map fun j => (j * 2 ^ 22, true) := by
  rw [fullRegistry, List.range'_succ, List.map_cons, Nat.zero_mul]

/-- Region 0 lines 256 MiB apart have one registry (R312, R339). -/
theorem registryOf_far (h : Hw) {a : Nat} (hlt : a < 2 ^ 44) (hmod : a % 2 ^ 28 = 0) : registryOf h a = 0 := by
  have hregion : regionOf a = 0 := by unfold regionOf field; omega
  have hgranule : offsetOf a / 4096 % 2 ^ 16 = 0 := by unfold offsetOf field; omega
  generalize hg : offsetOf a / 4096 = g at hgranule
  have h0 : field g 0 0 = 0 := by unfold field; omega
  have h9 : field g 9 9 = 0 := by unfold field; omega
  have h6 : field g 6 1 = 0 := by unfold field; omega
  have h15 : field g 15 10 = 0 := by unfold field; omega
  simp only [registryOf, hregion, farChannel, hg, h0, h9, h6, h15]
  rfl

theorem fullRegistry_full (h : Hw) :
    8192 ≤ (fullRegistry.filter fun e => decide (registryOf h (e.1 * 64) = registryOf h (1 * 64))).length := by
  have hall : (fullRegistry.filter fun e => decide (registryOf h (e.1 * 64) = registryOf h (1 * 64))) = fullRegistry := by
    refine List.filter_eq_self.mpr fun e he => decide_eq_true ?_
    obtain ⟨j, hj, rfl⟩ := List.mem_map.mp he
    have hj : j < 8192 := by simpa using hj
    exact registryOf_far h (by dsimp only; omega) (by dsimp only; omega)
  rw [hall, fullRegistry, List.length_map, List.length_range']

theorem fullRegistry_line1 : tabGet false fullRegistry 1 = false := by
  rw [fullRegistry_eq_cons, tabGet, if_neg zero_ne_one]
  refine tabGet_below false fun e he => ?_
  obtain ⟨j, hj, rfl⟩ := List.mem_map.mp he
  have hj : 1 ≤ j := (List.mem_range'_1.mp hj).1
  dsimp only
  omega

theorem fullRegistry_put0 : tabPut false fullRegistry 0 true = fullRegistry := by
  rw [fullRegistry_eq_cons]
  rfl

/-- A decoder that gives port 0 the first 2 MiB of region 0. -/
def strayDecoder : HdmDecoder := { used := true, first := 0, count := 1, ports := [0] }

theorem portGranules_of_strayDecoder {h : Hw} (hd : h.edges.decoders = [(0, strayDecoder)]) :
    portGranules h 0 = (List.range 512).map (· * 4096) := by
  simp [portGranules, hd, decoderGranules, strayDecoder, Nat.mod_one]

/-- The lines of those granules, in the order in which they are lost: line 0 comes once, before line 1. -/
theorem strayLines_eq_cons : ∃ ls, 0 ∉ ls ∧
    ((List.range 512).map (· * 4096)).flatMap (fun g => (List.range 64).map fun i => g / 64 + i) = 0 :: 1 :: ls := by
  refine ⟨List.range' 2 62 ++ (((List.range 511).map Nat.succ).map (· * 4096)).flatMap (fun g => (List.range 64).map fun i => g / 64 + i),
    ?_, ?_⟩
  · simp only [List.mem_append, List.mem_range'_1, List.mem_flatMap, List.mem_map, not_or, not_exists, not_and]
    refine ⟨by omega, ?_⟩
    rintro _ ⟨_, ⟨j, -, rfl⟩, rfl⟩ i -
    omega
  · have hfirst : (List.range 64).map (fun i => 0 * 4096 / 64 + i) = 0 :: 1 :: List.range' 2 62 := by decide
    rw [List.range_succ_eq_map (n := 511), List.map_cons, List.flatMap_cons, hfirst]
    rfl

/-- A CXL port that this decoder serves, where Fenced cluster 0 holds line 1. -/
def strayHw (marks : Tab Bool) : Hw :=
  { edges := { ports := [(0, { exists_ := true, cxl := true, up := true })],
               decoders := [(0, strayDecoder)] }
    coh := { poison := marks, dir := [(1, { st := .e, owner := some (.l3 0) })] }
    faults := { fences := [{ scope := .unit, kind := 2, unit := 0 }] } }

/-- That hardware once the port's device has reported media failure. -/
def strayBad (marks : Tab Bool) : Hw := setPort (clearSent (strayHw marks)) 0 { portAt (clearSent (strayHw marks)) 0 with mediaBad := true }

theorem cxlLost_strayHw (marks : Tab Bool) : cxlLost (clearSent (strayHw marks)) 0 true = loseGranules (strayBad marks) 0 :=
  cxlLost_media rfl rfl rfl

/-- Line 0, marked as it is lost, holds no mark after line 1 is lost, if its registry is full. -/
theorem strayBad_loses_mark {marks : Tab Bool} (h0 : tabPut false marks 0 true = marks) (h1 : tabGet false marks 1 = false)
    (hfull : ∀ h, 8192 ≤ (marks.filter fun e => decide (registryOf h (e.1 * 64) = registryOf h (1 * 64))).length) :
    tabGet false (loseLine (loseLine (strayBad marks) 0) 1).coh.poison 0 = false := by
  have hinv : invalidateLine (strayBad marks) 0 = setDir (strayBad marks) 0 {} := invalidateLine_uncached rfl
  have hpoison : (loseLine (strayBad marks) 0).coh.poison = marks := by
    unfold loseLine
    simp only [hinv, setDir_coh_poison]
    exact h0
  have hsw : (loseLine (strayBad marks) 0).coh.swPoison = [] := by
    unfold loseLine
    simp only [hinv, setDir_coh_swPoison]
    rfl
  have hdir : dirAt (loseLine (strayBad marks) 0) 1 = { st := .e, owner := some (.l3 0) } := by
    unfold loseLine
    rw [hinv]
    exact dirAt_setDir_other _ _ _ one_ne_zero
  have hfenced : agentFenced (loseLine (strayBad marks) 0) (.l3 0) = true := by
    unfold agentFenced unitFenced unitFencedOwn loseLine
    simp only [hinv, setDir_faults]
    rfl
  refine loseLine_frees_marks ?_ ?_ ?_ ?_ zero_ne_one ?_
  · simp [heldFenced, hdir, hfenced, collectReq, snoopsHolder]
  · unfold poisoned
    rw [hpoison, hsw]
    exact (Bool.or_false _).trans h1
  · decide
  · rw [hpoison]
    exact hfull _
  · decide

theorem strayHw_unmarked : tabGet false (stepEnd (cxlLost (clearSent (strayHw fullRegistry)) 0 true)).coh.poison 0 = false := by
  have hgranules : portGranules (strayBad fullRegistry) 0 = (List.range 512).map (· * 4096) := portGranules_of_strayDecoder rfl
  obtain ⟨ls, hls, hlines⟩ := strayLines_eq_cons
  rw [stepEnd_coh, cxlLost_strayHw]
  simp only [loseGranules, hgranules, recordEach_coh, hlines, List.foldl_cons]
  exact foldl_loseLine_unmarked ls hls _ (strayBad_loses_mark fullRegistry_put0 fullRegistry_line1 fullRegistry_full)

/-! ### The statement -/

/-- Refutes O45: a decoder gives CXL port 0 the start of region 0, the registry there is full, and Fenced cluster 0 holds line 1. As the
port's media failure poisons its lines in turn, the loss of line 1 frees the mark just set on line 0 (R249, R340). -/
theorem not_deviceRows : ¬ Obligations.DeviceRows := by
  intro hall
  obtain ⟨-, -, -, -, -, -, -, -, -, -, -, -, -, -, hmedia⟩ :=
    hall { hw := strayHw fullRegistry } _ _ 0 _ _ rfl rfl rfl rfl rfl
  obtain ⟨t, ht, -, hmarked, -⟩ := hmedia 0 _ rfl rfl rfl rfl
  rw [exec_cxlPortLost] at ht
  obtain rfl := Host.Outcome.next.inj ht
  have hserved : 0 ∈ portGranules (clearSent (strayHw fullRegistry)) 0 := by
    rw [portGranules_of_strayDecoder rfl]
    exact List.mem_map.mpr ⟨0, List.mem_range.mpr (by omega), rfl⟩
  have hmark := hmarked 0 0 hserved (by decide)
  rw [Nat.zero_div, Nat.zero_add] at hmark
  dsimp only at hmark
  rw [strayHw_unmarked] at hmark
  cases hmark

end Sys2Proof.Machine
end

/-! PROOFS. The step runs the command at the front of the queue, and every command answers a next state. -/
section
namespace Sys2Proof.Machine

/-- Settles O1: both halves are the two cases of `step`. -/
theorem stepRunsTheFrontCommand : Obligations.StepRunsTheFrontCommand :=
  ⟨fun _ _ _ => rfl, fun s hs => by rw [step, hs]⟩

/-- Settles O2: every arm of `exec` is a row on the hardware or on the hardware and the bytes, whose outcome is a next state with the
queue it found. -/
theorem everyCommandAnswers : Obligations.EveryCommandAnswers := by
  intro c s
  cases c <;> exact ⟨_, rfl, rfl⟩

end Sys2Proof.Machine
end

/-! PROOFS. The byte memory (R99). Every effect on the byte memory is a write of bytes or a zeroing of a range, and both keep its canonical
form: so each operation of the model keeps it, in the order in which the model builds them, and with them every command. -/
section
namespace Sys2Proof.Machine

/- The lemmas of this part are many and alike: elaborated one after another they hold far less memory at once. -/
set_option Elab.async false

/-- The byte memory beside the hardware has the canonical form. -/
structure Canonical (hm : HM) : Prop where
  mem : Memory.wf hm.2

theorem canonical_mk {h : Hw} {m : Memory} : Canonical (h, m) ↔ Memory.wf m := ⟨fun c => c.mem, fun c => ⟨c⟩⟩

/-- An effect on the hardware alone. -/
theorem Canonical.keep {hm : HM} (c : Canonical hm) (h : Hw) : Canonical (h, hm.2) := ⟨c.mem⟩

/-- Memory in which nothing is written. -/
theorem canonical_nil (h : Hw) : Canonical (h, []) := ⟨memory_nil_wf⟩

theorem canonical_ite_fst {α : Type} {p : Prop} [Decidable p] {x y : HM × α} (hx : Canonical x.1) (hy : Canonical y.1) :
    Canonical (if p then x else y).1 := by
  split
  · exact hx
  · exact hy

theorem Canonical.foldl {α : Type} {f : HM → α → HM} (hf : ∀ o a, Canonical o → Canonical (f o a)) (l : List α) {hm : HM}
    (c : Canonical hm) : Canonical (l.foldl f hm) := by
  induction l generalizing hm with
  | nil => exact c
  | cons a l ih => exact ih (hf hm a c)

theorem Canonical.foldl_fst {α β : Type} {f : HM × β → α → HM × β} (hf : ∀ o a, Canonical o.1 → Canonical (f o a).1) (l : List α)
    {x : HM × β} (c : Canonical x.1) : Canonical (l.foldl f x).1 := by
  induction l generalizing x with
  | nil => exact c
  | cons a l ih => exact ih (hf x a c)

/-- What a command's body answers keeps the canonical form, and so does what follows once it has closed its session (R727). -/
structure Answered (x : HM × Reply) : Prop where
  now : Canonical x.1
  after : ∀ o, Canonical o → Canonical (x.2.after o)

/-- A command's body keeps the canonical form. -/
def BodyKeeps (f : HM → Req → HM × Reply) : Prop := ∀ hm r, Canonical hm → Answered (f hm r)

/-- The answer of a body that leaves nothing to follow. -/
theorem Canonical.answered {x : HM} (c : Canonical x) {y : Reply} (hy : y.after = id) : Answered (x, y) :=
  ⟨c, fun o co => by rw [hy]; exact co⟩

/-! ### The coherent space -/

theorem openLine_canonical {hm : HM} (line : Nat) (c : Canonical hm) : Canonical (openLine hm line) := by
  unfold openLine
  grind only [canonical_mk, Canonical.mem, memWrite_wf]

theorem cohWrite_canonical {hm : HM} (a : Nat) (bs : List Byte) (c : Canonical hm) : Canonical (cohWrite hm a bs) := by
  unfold cohWrite
  grind only [canonical_mk, Canonical.mem, memWrite_wf, Canonical.foldl, Canonical.foldl_fst, openLine_canonical]

/-! ### Translation -/

theorem keepPte_canonical {hm : HM} (ca : Nat) (p : Nat) (line : List Nat) (leaf : Bool) (c : Canonical hm) :
    Canonical (keepPte hm ca p line leaf) := ⟨c.mem⟩

theorem forgetPte_canonical {hm : HM} (ca : Nat) (c : Canonical hm) : Canonical (forgetPte hm ca) := ⟨c.mem⟩

theorem readPteLine_canonical (w : WalkCtx) {hm : HM} (ca : Nat) (c : Canonical hm) : Canonical (readPteLine w hm ca).1 := by
  unfold readPteLine
  dsimp only
  split
  · split
    · split <;> exact c.keep _
    · exact c
  · split_ifs <;> exact c.keep _

theorem readPte_canonical (w : WalkCtx) {hm : HM} (ca : Nat) (c : Canonical hm) : Canonical (readPte w hm ca).1 := by
  unfold readPte
  grind only [canonical_mk, Canonical.mem, readPteLine_canonical]

theorem writePte_canonical {w : WalkCtx} {hm o : HM} {ca old v : Nat} (c : Canonical hm) (ho : writePte w hm ca old v = .ok o) :
    Canonical o := by
  have hk := keepPte_canonical ca v [v] false c
  have hw := cohWrite_canonical (compactLocal ca) (leBytes 8 v) hk
  unfold writePte at ho
  dsimp only at ho
  split_ifs at ho <;> obtain rfl := Except.ok.inj ho
  · exact hk.keep _
  · exact hw.keep _
  · exact hk.keep _

theorem gWalk_canonical (w : WalkCtx) (write : Bool) (gpa level table : Nat) {hm : HM} (c : Canonical hm) :
    Canonical (gWalk w write gpa level table hm).1 := by
  induction level generalizing table hm with
  | zero =>
    unfold gWalk
    grind only [writePte_canonical, keepPte_canonical, readPte_canonical]
  | succ l ih =>
    unfold gWalk
    grind only [writePte_canonical, keepPte_canonical, readPte_canonical]

theorem gTranslate_canonical (x : WalkCtx) (write : Bool) (gpa : Nat) {hm : HM} (c : Canonical hm) :
    Canonical (gTranslate x write gpa hm).1 := by
  unfold gTranslate
  grind only [canonical_mk, Canonical.mem, gWalk_canonical]

theorem vWalk_canonical (w : WalkCtx) (write : Bool) (va level table : Nat) {hm : HM} (c : Canonical hm) :
    Canonical (vWalk w write va level table hm).1 := by
  induction level generalizing table hm with
  | zero =>
    unfold vWalk
    grind only [writePte_canonical, keepPte_canonical, readPte_canonical, gTranslate_canonical]
  | succ l ih =>
    unfold vWalk
    grind only [writePte_canonical, keepPte_canonical, readPte_canonical, gTranslate_canonical]

theorem walkBoth_canonical (x : WalkCtx) (write : Bool) (va : Nat) {hm : HM} (c : Canonical hm) : Canonical (walkBoth x write va hm).1 := by
  unfold walkBoth
  grind only [canonical_mk, Canonical.mem, gTranslate_canonical, vWalk_canonical]

theorem retranslate_canonical (w : WalkCtx) (write : Bool) (va n : Nat) {hm : HM} (c : Canonical hm) :
    Canonical (retranslate w write va n hm).1 := by
  induction n generalizing hm with
  | zero => exact walkBoth_canonical w write va c
  | succ n ih =>
    have hb := walkBoth_canonical w write va c
    unfold retranslate
    split
    next hfault =>
      rw [hfault] at hb
      split_ifs
      · exact ih (forgetPte_canonical _ hb)
      · exact hb
    next => exact hb

theorem translate_canonical (x : WalkCtx) (write : Bool) (va : Nat) {hm : HM} (c : Canonical hm) :
    Canonical (translate x write va hm).1 := by
  unfold translate
  grind only [canonical_mk, Canonical.mem, retranslate_canonical]

/-! ### Walks -/

theorem walkPage_canonical {hm : HM} (s : Nat) (d : Desc) (buf : Nat) (off : Nat) (u : Upset) (c : Canonical hm) :
    Canonical (walkPage hm s d buf off u).1 := by
  unfold walkPage
  grind only [canonical_mk, Canonical.mem, translate_canonical]

theorem walkOne_canonical {hm : HM} (s : Nat) (d : Desc) (u : Upset) (c : Canonical hm) : Canonical (walkOne hm s d u) := by
  unfold walkOne
  grind only [canonical_mk, Canonical.mem, walkPage_canonical]

theorem walkMiss_canonical {hm : HM} (g : Nat) (s : Nat) (d : Desc) (buf : Nat) (u : Upset) (c : Canonical hm) :
    Canonical (walkMiss hm g s d buf u) := by
  unfold walkMiss
  grind only [canonical_mk, Canonical.mem, walkPage_canonical]

theorem walkFor_canonical {hm : HM} (g : Nat) (u : Upset) (c : Canonical hm) : Canonical (walkFor hm g u) := by
  unfold walkFor
  grind only [canonical_mk, Canonical.mem, walkMiss_canonical, walkOne_canonical]

/-! ### Accesses of engines -/

theorem engineRead_canonical {hm : HM} (die p : Nat) (noShelf : Bool) (ca n who : Nat) (c : Canonical hm) :
    Canonical (engineRead hm die p noShelf ca n who).1 := by
  unfold engineRead
  dsimp only
  (repeat' split) <;> grind only [canonical_mk, Canonical.mem, Canonical.foldl, Canonical.foldl_fst]

theorem engineWrite_canonical {hm : HM} (p ca : Nat) (bs : List Byte) (poison : Bool) (c : Canonical hm) :
    Canonical (engineWrite hm p ca bs poison).1 := by
  unfold engineWrite
  dsimp only
  split
  · split
    · exact c.keep _
    · exact (cohWrite_canonical _ bs (c.keep _)).keep _
  · exact c.keep _
  · exact c.keep _
  · exact c

/-! ### MOVE, FILL and ATOMIC -/

theorem strangeMove_canonical (d : Desc) {x : HM × Got} (c : Canonical x.1) : Canonical (strangeMove d x).1 := by
  unfold strangeMove
  grind only [canonical_mk, Canonical.mem]

theorem movePiece_canonical {hm : HM} (s : Nat) (d : Desc) (n : Nat) (c : Canonical hm) : Canonical (movePiece hm s d n).1 := by
  unfold movePiece
  extract_lets +onlyGivenNames h b len rows t p src dst so dof dloom doff dext sext room sroom k
  split
  · exact c
  · extract_lets +onlyGivenNames loom off got g
    have hg : Canonical got.1 := by
      refine strangeMove_canonical d ?_
      (repeat' split) <;> grind only [canonical_mk, Canonical.mem, engineRead_canonical]
    have hw := fun ca => engineWrite_canonical p ca g.bytes g.poison hg
    split
    · exact hg.keep _
    · exact hg.keep _
    · extract_lets +onlyGivenNames d1
      refine canonical_ite_fst (canonical_ite_fst hg (hg.keep _)) ?_
      rcases dext with _ | ⟨ca, left⟩
      · exact hg
      · dsimp only
        split
        · exact (hw ca).keep _
        · exact (hw ca).keep _
        · exact canonical_ite_fst ((hw ca).keep _) (hw ca)
        · exact hw ca
        · exact hw ca

theorem moveBytes_canonical (fuel : Nat) {hm : HM} (s : Nat) (d : Desc) (n : Nat) (c : Canonical hm) :
    Canonical (moveBytes fuel hm s d n) := by
  induction fuel generalizing hm d n with
  | zero => exact c.keep _
  | succ fuel ih =>
    unfold moveBytes
    extract_lets +onlyGivenNames total cap budget r
    have hr : Canonical r.1 := movePiece_canonical s d budget c
    split
    · exact c.keep _
    · split
      · exact c.keep _
      · split
        · exact hr
        · exact ih _ _ hr

theorem moveStep_canonical {hm : HM} (s : Nat) (seq : W32) (op : Nat) (n : Nat) (c : Canonical hm) :
    Canonical (moveStep hm s seq op n) := by
  unfold moveStep
  grind only [canonical_mk, Canonical.mem, moveBytes_canonical]

theorem atomicAt_canonical {hm : HM} (home : Bool) (a : Nat) (op : Nat) (size : Nat) (operand : Nat) (compare : Nat) (c : Canonical hm) :
    Canonical (atomicAt hm home a op size operand compare).1 := by
  unfold atomicAt
  grind only [canonical_mk, Canonical.mem, cohWrite_canonical]

theorem atomicDesc_canonical {hm : HM} (s : Nat) (seq : W32) (c : Canonical hm) : Canonical (atomicDesc hm s seq) := by
  unfold atomicDesc
  dsimp only
  (repeat' split) <;> grind only [canonical_mk, Canonical.mem, atomicAt_canonical]

/-! ### Bolts -/

theorem readPlain_canonical {hm : HM} (die p line : Nat) (c : Canonical hm) : Canonical (readPlain hm die p line).1 := by
  refine Canonical.foldl_fst (fun o g co => ?_) _ c
  have hr := engineRead_canonical die p false (line * 64 + 4096 * g) 4096 0 co
  dsimp only
  split
  · exact co
  · split <;> exact hr

theorem readHome_canonical {hm : HM} (die p fmt : Nat) (e : MapEntry) (c : Canonical hm) : Canonical (readHome hm die p fmt e).1 := by
  unfold readHome
  dsimp only
  repeat' split
  all_goals grind only [canonical_mk, Canonical.mem, engineRead_canonical, readPlain_canonical]

theorem readBolt_canonical {hm : HM} (die : Nat) (p : Nat) (fmt : Nat) (e : MapEntry) (c : Canonical hm) :
    Canonical (readBolt hm die p fmt e).1 := by
  unfold readBolt
  grind only [canonical_mk, Canonical.mem, readPlain_canonical, readHome_canonical]

theorem writePlain_canonical {hm : HM} (p : Nat) (line : Nat) (mask : Nat) (b : BoltData) (c : Canonical hm) :
    Canonical (writePlain hm p line mask b).1 := by
  unfold writePlain
  grind only [canonical_mk, Canonical.mem, Canonical.foldl, Canonical.foldl_fst, engineWrite_canonical]

theorem writeHome_canonical {hm : HM} (p : Nat) (line : Nat) (codec : Nat) (o : ObjRec) (obj : Nat) (bolt : Nat) (b : BoltData) (c :
    Canonical hm) :
    Canonical (writeHome hm p line codec o obj bolt b).1 := by
  unfold writeHome
  grind only [canonical_mk, Canonical.mem, writePlain_canonical, engineWrite_canonical]

theorem readEntry_canonical {hm : HM} (die p ca : Nat) (c : Canonical hm) : Canonical (readEntry hm die p ca).1 := by
  have hr := engineRead_canonical die p true ca 32 0 c
  unfold readEntry
  dsimp only
  split
  any_goals exact hr
  split_ifs <;> exact hr

theorem casWord_canonical {hm : HM} (p : Nat) (ca : Nat) (old : Nat) (new : Nat) (c : Canonical hm) :
    Canonical (casWord hm p ca old new).1 := by
  unfold casWord
  grind only [canonical_mk, Canonical.mem, atomicAt_canonical]

theorem storeGranule_canonical {hm : HM} (s : Nat) (d : Desc) (g : Nat) (c : Canonical hm) : Canonical (storeGranule hm s d g).1 := by
  unfold storeGranule
  grind only [canonical_mk, Canonical.mem, Canonical.foldl, Canonical.foldl_fst, engineRead_canonical]

theorem storeSource_canonical {hm : HM} (s : Nat) (d : Desc) (c : Canonical hm) : Canonical (storeSource hm s d).1 := by
  unfold storeSource
  grind only [canonical_mk, Canonical.mem, Canonical.foldl, Canonical.foldl_fst, storeGranule_canonical]

theorem mixStore_canonical {hm : HM} (s : Nat) (d : Desc) (o : ObjRec) (e : MapEntry) (c : Canonical hm) :
    Canonical (mixStore hm s d o e).1 := by
  unfold mixStore
  grind only [canonical_mk, Canonical.mem, Canonical.foldl, Canonical.foldl_fst, readBolt_canonical, storeGranule_canonical,
    writePlain_canonical, writeHome_canonical]

theorem releaseFailed_canonical {hm : HM} (s : Nat) (d : Desc) (c : Canonical hm) : Canonical (releaseFailed hm s d) := by
  unfold releaseFailed
  grind only [canonical_mk, Canonical.mem, mixStore_canonical, casWord_canonical]

theorem failBolt_canonical {hm : HM} (s : Nat) (d : Desc) (b : Bad) (c : Canonical hm) : Canonical (failBolt hm s d b) := by
  unfold failBolt
  grind only [canonical_mk, Canonical.mem, releaseFailed_canonical]

theorem haltBolt_canonical {hm : HM} (s : Nat) (d : Desc) (reason : Nat) (c : Canonical hm) : Canonical (haltBolt hm s d reason) := by
  unfold haltBolt
  grind only [canonical_mk, Canonical.mem, releaseFailed_canonical]

theorem finishBolt_canonical {hm : HM} (s : Nat) (d : Desc) (new : Nat) (poison : Bool) (rejected : Bool) (res : Bool) (c : Canonical hm) :
    Canonical (finishBolt hm s d new poison rejected res) := by
  unfold finishBolt
  grind only [canonical_mk, Canonical.mem, casWord_canonical]

theorem onVerdict_canonical {hm : HM} (s : Nat) (d : Desc) (off : Bool) (v : Verdict) {k : Bool → HM} (c :
    Canonical hm) (hk : ∀ b, Canonical (k b)) :
    Canonical (onVerdict hm s d off v k) := by
  unfold onVerdict
  grind only [canonical_mk, Canonical.mem, failBolt_canonical]

theorem actStore_canonical {hm : HM} (s : Nat) (d : Desc) (o : ObjRec) (e : MapEntry) (c : Canonical hm) :
    Canonical (actStore hm s d o e) := by
  unfold actStore
  grind only [canonical_mk, Canonical.mem, storeSource_canonical, failBolt_canonical, onVerdict_canonical, finishBolt_canonical,
    writePlain_canonical, readHome_canonical, writeHome_canonical]

theorem actMove_canonical {hm : HM} (s : Nat) (d : Desc) (o : ObjRec) (e : MapEntry) (c : Canonical hm) :
    Canonical (actMove hm s d o e) := by
  unfold actMove
  grind only [canonical_mk, Canonical.mem, haltBolt_canonical, finishBolt_canonical, readHome_canonical, failBolt_canonical,
    writeHome_canonical, onVerdict_canonical]

theorem actCopyUp_canonical {hm : HM} (s : Nat) (d : Desc) (o : ObjRec) (e : MapEntry) (c : Canonical hm) :
    Canonical (actCopyUp hm s d o e) := by
  unfold actCopyUp
  grind only [canonical_mk, Canonical.mem, haltBolt_canonical, readHome_canonical, failBolt_canonical, writePlain_canonical,
    engineWrite_canonical, onVerdict_canonical, finishBolt_canonical]

theorem cleanHome_canonical {hm : HM} (s : Nat) (d : Desc) (o : ObjRec) (e : MapEntry) (c : Canonical hm) :
    Canonical (cleanHome hm s d o e).1 := by
  unfold cleanHome
  grind only [canonical_mk, Canonical.mem, readPlain_canonical, writePlain_canonical, writeHome_canonical]

theorem actClean_canonical {hm : HM} (s : Nat) (d : Desc) (o : ObjRec) (e : MapEntry) (c : Canonical hm) :
    Canonical (actClean hm s d o e) := by
  unfold actClean
  grind only [canonical_mk, Canonical.mem, haltBolt_canonical, cleanHome_canonical, failBolt_canonical, onVerdict_canonical,
    finishBolt_canonical]

theorem actLoad_canonical {hm : HM} (s : Nat) (d : Desc) (o : ObjRec) (e : MapEntry) (c : Canonical hm) :
    Canonical (actLoad hm s d o e) := by
  unfold actLoad
  grind only [canonical_mk, Canonical.mem, readBolt_canonical, failBolt_canonical]

theorem boltTurn_canonical {hm0 : HM} (s : Nat) (d : Desc) (c : Canonical hm0) : Canonical (boltTurn hm0 s d) := by
  unfold boltTurn
  dsimp only
  (repeat' split) <;> grind only [canonical_mk, Canonical.mem, readEntry_canonical, failBolt_canonical, releaseFailed_canonical,
    actStore_canonical, actMove_canonical, actCopyUp_canonical, actClean_canonical, actLoad_canonical, casWord_canonical]

theorem boltStep_canonical {hm : HM} (s : Nat) (seq : W32) (op : Nat) (c : Canonical hm) : Canonical (boltStep hm s seq op) := by
  unfold boltStep
  grind only [canonical_mk, Canonical.mem, boltTurn_canonical]

theorem releaseTaken_canonical {hm : HM} (g : Nat) (p : Desc → Bool) (c : Canonical hm) : Canonical (releaseTaken hm g p) := by
  unfold releaseTaken
  grind only [canonical_mk, Canonical.mem, Canonical.foldl, Canonical.foldl_fst, releaseFailed_canonical]

theorem walkTurn_canonical {hm : HM} (g : Nat) (u : Upset) (c : Canonical hm) : Canonical (walkTurn hm g u) := by
  unfold walkTurn
  grind only [canonical_mk, Canonical.mem, releaseTaken_canonical, walkFor_canonical]

theorem boltAgain_canonical {hm : HM} (s : Nat) (d : Desc) (t : Nat) (c : Canonical hm) : Canonical (boltAgain hm s d t) := by
  unfold boltAgain
  grind only [canonical_mk, Canonical.mem, boltTurn_canonical]

theorem boltRetry_canonical {hm : HM} (s : Nat) (seq : W32) (c : Canonical hm) : Canonical (boltRetry hm s seq) := by
  unfold boltRetry
  grind only [canonical_mk, Canonical.mem, boltAgain_canonical]

theorem channelHalt_canonical {hm : HM} (s : Nat) (seq : W32) (addr : Nat) (c : Canonical hm) : Canonical (channelHalt hm s seq addr) := by
  unfold channelHalt
  grind only [canonical_mk, Canonical.mem, releaseFailed_canonical]

theorem missesFor_canonical {hm : HM} (s : Nat) (d : Desc) (c : Canonical hm) : Canonical (missesFor hm s d).1 := by
  unfold missesFor
  grind only [canonical_mk, Canonical.mem, Canonical.foldl, Canonical.foldl_fst, readEntry_canonical]

theorem missFill_canonical {hm : HM} (s : Nat) (seq : W32) (c : Canonical hm) : Canonical (missFill hm s seq) := by
  unfold missFill
  dsimp only
  (repeat' split) <;> grind only [canonical_mk, Canonical.mem, Canonical.foldl, Canonical.foldl_fst, readEntry_canonical,
    readBolt_canonical, writePlain_canonical]

theorem boltGiveUp_canonical {hm : HM} (s : Nat) (seq : W32) (c : Canonical hm) : Canonical (boltGiveUp hm s seq) := by
  unfold boltGiveUp
  grind only [canonical_mk, Canonical.mem, boltAgain_canonical, missFill_canonical]

/-! ### Pools and ledgers -/

theorem onDescM_canonical {hm : HM} (s : Nat) (seq : W32) (op : Nat) {f : Desc → HM} (c : Canonical hm) (hf : ∀ d, Canonical (f d)) :
    Canonical (onDescM hm s seq op f) := by
  unfold onDescM
  grind only [canonical_mk, Canonical.mem]

theorem readSlots_canonical {hm : HM} (die p : Nat) (addr : Nat → Nat) (from_ n : Nat) (c : Canonical hm) :
    Canonical (readSlots hm die p addr from_ n).1 := by
  refine Canonical.foldl_fst (fun o i co => ?_) _ c
  have hr := engineRead_canonical die p true (addr (from_ + i)) 4 0 co
  dsimp only
  split
  · exact co
  · split <;> exact hr

theorem writeSlots_canonical {hm : HM} (p : Nat) (addr : Nat → Nat) (from_ : Nat) (vs : List Nat) (c : Canonical hm) :
    Canonical (writeSlots hm p addr from_ vs).1 := by
  unfold writeSlots
  grind only [canonical_mk, Canonical.mem, Canonical.foldl, Canonical.foldl_fst, engineWrite_canonical]

theorem poolTake_canonical {hm : HM} (p : Nat) (id : Nat) (n : Nat) (c : Canonical hm) : Canonical (poolTake hm p id n).1 := by
  unfold poolTake
  grind only [canonical_mk, Canonical.mem, readSlots_canonical]

theorem poolIndices_canonical {hm : HM} (x : Pool) (vs : List Nat) (c : Canonical hm) : Canonical (poolIndices hm x vs).1 := by
  unfold poolIndices
  grind only [canonical_mk, Canonical.mem]

theorem poolPut_canonical {hm : HM} (p : Nat) (id : Nat) (vs : List Nat) (seq : Nat) (c : Canonical hm) :
    Canonical (poolPut hm p id vs seq).1 := by
  unfold poolPut
  grind only [canonical_mk, Canonical.mem, writeSlots_canonical]

theorem bufWrite_canonical {hm : HM} (s : Nat) (d : Desc) (buf : Nat) (bs : List Byte) (c : Canonical hm) :
    Canonical (bufWrite hm s d buf bs).1 := by
  unfold bufWrite
  grind only [canonical_mk, Canonical.mem, Canonical.foldl, Canonical.foldl_fst, engineWrite_canonical]

theorem completeAlloc_canonical {hm : HM} (s : Nat) (d : Desc) (vs : List Nat) (head : Nat) (c : Canonical hm) :
    Canonical (completeAlloc hm s d vs head) := by
  unfold completeAlloc
  grind only [canonical_mk, Canonical.mem, bufWrite_canonical]

theorem serveAlloc_canonical {hm : HM} (s : Nat) (p : Nat) (id : Nat) (d : Desc) (n : Nat) (c : Canonical hm) :
    Canonical (serveAlloc hm s p id d n) := by
  unfold serveAlloc
  grind only [canonical_mk, Canonical.mem, poolTake_canonical, completeAlloc_canonical]

theorem returnPages_canonical {hm : HM} (p : Nat) (n : Nat) (keep : Nat) (seq : Nat) (c : Canonical hm) :
    Canonical (returnPages hm p n keep seq).1 := by
  unfold returnPages
  dsimp only
  (repeat' split) <;> grind only [canonical_mk, Canonical.mem, readSlots_canonical, poolIndices_canonical, poolPut_canonical]

theorem setLengths_canonical {hm : HM} (p : Nat) (n : Nat) (l : Nat) (t : Nat) (release : Bool) (seq : Nat) (c : Canonical hm) :
    Canonical (setLengths hm p n l t release seq).1 := by
  unfold setLengths
  grind only [canonical_mk, Canonical.mem, returnPages_canonical]

theorem endReturn_canonical {hm : HM} (s : Nat) (d : Desc) (n : Nat) (r : Returned) (f : Nat → Ledger) (c : Canonical hm) :
    Canonical (endReturn hm s d n r f) := by
  unfold endReturn
  grind only [canonical_mk, Canonical.mem]

theorem finishExtend_canonical {hm : HM} (s : Nat) (d : Desc) (n : Nat) (vs : List Nat) (c : Canonical hm) :
    Canonical (finishExtend hm s d n vs) := by
  unfold finishExtend
  grind only [canonical_mk, Canonical.mem, writeSlots_canonical, poolPut_canonical]

theorem ledgerExtend_canonical {hm : HM} (s : Nat) (d : Desc) (n : Nat) (c : Canonical hm) : Canonical (ledgerExtend hm s d n) := by
  unfold ledgerExtend
  grind only [canonical_mk, Canonical.mem, finishExtend_canonical, poolTake_canonical]

theorem ledgerOp_canonical {hm : HM} (s : Nat) (d : Desc) (c : Canonical hm) : Canonical (ledgerOp hm s d) := by
  unfold ledgerOp
  grind only [canonical_mk, Canonical.mem, ledgerExtend_canonical, setLengths_canonical, endReturn_canonical]

theorem serveQueues_canonical (fuel : Nat) {hm : HM} (c : Canonical hm) : Canonical (serveQueues fuel hm) := by
  induction fuel generalizing hm with
  | zero => exact c
  | succ fuel ih =>
    unfold serveQueues
    dsimp only
    split
    · split
      · exact ih (c.keep _)
      · refine ih ?_
        split
        · exact serveAlloc_canonical _ _ _ _ _ (c.keep _)
        · split
          · exact finishExtend_canonical _ _ _ _ (poolTake_canonical _ _ _ (c.keep _))
          · exact (poolTake_canonical _ _ _ (c.keep _)).keep _
          · exact (poolTake_canonical _ _ _ (c.keep _)).keep _
    · split
      · split
        · exact ih (ledgerOp_canonical _ _ (c.keep _))
        · exact ih (c.keep _)
      · exact c

theorem settle_canonical {hm : HM} (c : Canonical hm) : Canonical (settle hm) := by
  unfold settle
  grind only [canonical_mk, Canonical.mem, serveQueues_canonical]

theorem poolAlloc_canonical {hm : HM} (s : Nat) (d : Desc) (c : Canonical hm) : Canonical (poolAlloc hm s d) := by
  unfold poolAlloc
  grind only [canonical_mk, Canonical.mem, serveAlloc_canonical]

theorem freeIndices_canonical {hm : HM} (s : Nat) (d : Desc) (x : Nat) (c : Canonical hm) : Canonical (freeIndices hm s d x).1 := by
  unfold freeIndices
  grind only [canonical_mk, Canonical.mem, Canonical.foldl, Canonical.foldl_fst, engineRead_canonical]

theorem poolFree_canonical {hm : HM} (s : Nat) (d : Desc) (c : Canonical hm) : Canonical (poolFree hm s d) := by
  unfold poolFree
  grind only [canonical_mk, Canonical.mem, freeIndices_canonical, poolIndices_canonical, poolPut_canonical, settle_canonical]

theorem poolTimeout_canonical {hm : HM} (s : Nat) (seq : W32) (op : Nat) (off : Nat) (c : Canonical hm) :
    Canonical (poolTimeout hm s seq op off) := by
  unfold poolTimeout
  grind only [canonical_mk, Canonical.mem, settle_canonical]

theorem ledgerDesc_canonical {hm : HM} (s : Nat) (d : Desc) (c : Canonical hm) : Canonical (ledgerDesc hm s d) := by
  unfold ledgerDesc
  grind only [canonical_mk, Canonical.mem, settle_canonical, ledgerOp_canonical]

theorem destroyPool_canonical {hm : HM} (p : Nat) (id : Nat) (c : Canonical hm) : Canonical (destroyPool hm p id) := by
  unfold destroyPool
  grind only [canonical_mk, Canonical.mem, Canonical.foldl, Canonical.foldl_fst, settle_canonical]

/-! ### Weaves -/

theorem weaveDesc_canonical {hm : HM} (s : Nat) (seq : W32) (c : Canonical hm) : Canonical (weaveDesc hm s seq) := by
  unfold weaveDesc
  grind only [canonical_mk, Canonical.mem, Canonical.foldl, Canonical.foldl_fst, missesFor_canonical]

/-! ### VERIFY -/

theorem verifyEnd_canonical {hm : HM} (s : Nat) (d : Desc) (r : Run) (v : VRow) (c : Canonical hm) : Canonical (verifyEnd hm s d r v) := by
  unfold verifyEnd
  grind only [canonical_mk, Canonical.mem, setLengths_canonical]

theorem verifyRowEnd_canonical {hm : HM} (s : Nat) (d : Desc) (r : Run) (parity : Bool) (c : Canonical hm) :
    Canonical (verifyRowEnd hm s d r parity) := by
  unfold verifyRowEnd
  grind only [canonical_mk, Canonical.mem, verifyEnd_canonical]

theorem rowEnd_canonical {hm : HM} (s : Nat) (seq : W32) (parity : Bool) (c : Canonical hm) : Canonical (rowEnd hm s seq parity) := by
  unfold rowEnd
  grind only [canonical_mk, Canonical.mem, settle_canonical, verifyRowEnd_canonical]

/-! ### Completion records -/

theorem writeRecord_canonical {hm : HM} (p : Nat) (ca : Nat) (bs : List Byte) (k : Nat) (c : Canonical hm) :
    Canonical (writeRecord hm p ca bs k).1 := by
  unfold writeRecord
  grind only [canonical_mk, Canonical.mem, engineWrite_canonical]

theorem completeNext_canonical {hm : HM} (s : Nat) (c : Canonical hm) : Canonical (completeNext hm s) := by
  unfold completeNext
  grind only [canonical_mk, Canonical.mem, writeRecord_canonical]

/-! ### Mailbox commands -/

theorem resume_canonical {hm : HM} (m : Mbx) (tag code : Nat) {f : HM → Req → HM × Reply} (hf : BodyKeeps f) (c : Canonical hm) :
    Canonical (resume hm m tag code f) := by
  unfold resume
  split
  next r _ =>
    have hnow := (hf hm r c).now
    dsimp only
    split_ifs
    · exact c
    · exact hnow
    · exact hnow.keep _
    · exact hnow.keep _
  next => exact c

theorem serve_canonical {hm : HM} (m : Mbx) (tag code : Nat) {f : HM → Req → HM × Reply} (hf : BodyKeeps f) (c : Canonical hm) :
    Canonical (serve hm m tag code f) := by
  have hresume := resume_canonical m tag code hf c
  unfold serve
  split
  next r _ =>
    obtain ⟨hnow, hafter⟩ := hf hm r c
    dsimp only
    split_ifs
    · exact c.keep _
    · exact c.keep _
    · exact hafter _ (hnow.keep _)
    · exact (hafter _ (hnow.keep _)).keep _
    · exact hnow.keep _
    · exact hnow.keep _
    · exact hnow.keep _
    · exact hnow.keep _
    · exact hnow.keep _
    · exact hresume
  next => exact hresume

theorem versionGet_keeps (m : Mbx) : BodyKeeps (versionGet m) := fun _ _ c => ⟨⟨c.mem⟩, fun _ co => co⟩

theorem sessionOpen_canonical {hm : HM} (m : Mbx) (tag : Nat) (c : Canonical hm) : Canonical (sessionOpen hm m tag) := by
  unfold sessionOpen
  grind only [canonical_mk, Canonical.mem]

theorem sessionClose_canonical {hm : HM} (m : Mbx) (tag : Nat) (c : Canonical hm) : Canonical (sessionClose hm m tag) := by
  unfold sessionClose
  grind only [canonical_mk, Canonical.mem]

theorem outcomeGet_keeps (m : Mbx) : BodyKeeps (outcomeGet m) := fun _ _ c => ⟨⟨c.mem⟩, fun _ co => co⟩

/-! ### Scrubs -/

theorem clearSwatch_canonical {hm : HM} (k : Nat) (key : Bool) (zero : Bool) (c : Canonical hm) :
    Canonical (clearSwatch hm k key zero) := by
  unfold clearSwatch
  grind only [canonical_mk, Canonical.mem, memZero_wf, tabClear_wf]

theorem clearUnit_canonical {hm : HM} (kind : Nat) (idx : Nat) (key : Bool) (zero : Bool) (c : Canonical hm) :
    Canonical (clearUnit hm kind idx key zero) := by
  unfold clearUnit
  grind only [canonical_mk, Canonical.mem, clearSwatch_canonical]

theorem passScrub_canonical {hm : HM} (r : ScrubRec) (units : List Nat) (c : Canonical hm) : Canonical (passScrub hm r units) := by
  unfold passScrub
  grind only [canonical_mk, Canonical.mem, Canonical.foldl, Canonical.foldl_fst, clearUnit_canonical]

theorem passAll_canonical {hm : HM} (bad : Option (Nat × Nat)) (c : Canonical hm) : Canonical (passAll hm bad) := by
  unfold passAll
  grind only [canonical_mk, Canonical.mem, tabClear_wf, Canonical.foldl, Canonical.foldl_fst, clearUnit_canonical]

theorem endScrub_canonical {hm : HM} (seq : Nat) (bad : Option (Nat × Nat × Nat)) (c : Canonical hm) : Canonical (endScrub hm seq bad) := by
  unfold endScrub
  grind only [canonical_mk, Canonical.mem, passAll_canonical, passScrub_canonical]

/-! ### Partitions, ways and shelves -/

theorem partCreate_keeps : BodyKeeps partCreate := by
  intro hm r c
  unfold partCreate
  dsimp only
  repeat' split
  all_goals exact ⟨⟨c.mem⟩, fun _ co => co⟩

theorem partQuery_keeps (m : Mbx) : BodyKeeps (partQuery m) := by
  intro hm r c
  unfold partQuery
  dsimp only
  repeat' split
  all_goals exact ⟨⟨c.mem⟩, fun _ co => co⟩

theorem partConfig_keeps (m : Mbx) : BodyKeeps (partConfig m) := by
  intro hm r c
  unfold partConfig
  dsimp only
  repeat' split
  all_goals exact ⟨⟨c.mem⟩, fun _ co => co⟩

theorem partAssign_keeps (m : Mbx) : BodyKeeps (partAssign m) := by
  intro hm r c
  unfold partAssign
  dsimp only
  repeat' split
  all_goals exact ⟨⟨c.mem⟩, fun _ co => co⟩

theorem releaseRange_canonical {hm : HM} (p : Nat) (r : URange) (c : Canonical hm) : Canonical (releaseRange hm p r).1 := by
  unfold releaseRange
  grind only [canonical_mk, Canonical.mem, memZero_wf, Canonical.foldl, Canonical.foldl_fst]

theorem forceDesc_canonical (s : Nat) {hm : HM} (d : Desc) (c : Canonical hm) : Canonical (forceDesc s hm d) := by
  unfold forceDesc
  grind only [canonical_mk, Canonical.mem, engineWrite_canonical]

theorem forceGroup_canonical {hm : HM} (g : Nat) (c : Canonical hm) : Canonical (forceGroup hm g) := by
  unfold forceGroup
  grind only [canonical_mk, Canonical.mem, Canonical.foldl, Canonical.foldl_fst, releaseTaken_canonical,
    forceDesc_canonical]

theorem partRelease_keeps (m : Mbx) : BodyKeeps (partRelease m) := by
  intro hm r c
  unfold partRelease
  dsimp only
  split
  · exact c.answered rfl
  · split
    · split <;> exact c.answered rfl
    · split
      · exact c.answered rfl
      · split
        · exact c.answered rfl
        · refine Canonical.answered ?_ rfl
          refine Canonical.foldl_fst (fun (o : HM × List Nat) x co => ?_) _ ?_
          · exact releaseRange_canonical _ x co
          exact Canonical.foldl (fun o x co => Canonical.foldl (fun _ _ co => forceGroup_canonical _ co) _ co) _ c

theorem partDestroy_keeps : BodyKeeps partDestroy := by
  intro hm r c
  unfold partDestroy
  dsimp only
  have hrel : ∀ (aps : List ApRange) (h : Hw), Canonical (aps.foldl (fun hm a => (releaseRange hm (leAt r.payload 0 1)
      { kind := 1, units := (List.range a.count).map (a.first / 2 ^ 21 + ·), ok := true }).1) (h, hm.2)) :=
    fun aps h => Canonical.foldl (fun _ a co => releaseRange_canonical _ _ co) aps (c.keep h)
  split
  · exact c.answered rfl
  · split
    · exact c.answered rfl
    · split
      · exact c.answered rfl
      · split
        · exact ((hrel _ _).keep _).answered rfl
        · exact ((hrel _ _).keep _).answered rfl

theorem scrubComplete_canonical {hm : HM} (seq : Nat) (bad : Option (Nat × Nat × Nat)) (c : Canonical hm) :
    Canonical (scrubComplete hm seq bad) := by
  unfold scrubComplete
  grind only [canonical_mk, Canonical.mem, endScrub_canonical]

theorem backgroundScrub_canonical {hm : HM} (k : Nat) (bad : Option Nat) (c : Canonical hm) : Canonical (backgroundScrub hm k bad) := by
  unfold backgroundScrub
  grind only [canonical_mk, Canonical.mem, scrubComplete_canonical]

theorem waysPass_answered {hm : HM} (p : Nat) (out : List Nat) (into : List Nat) (c : Canonical hm) :
    Answered (waysPass hm p out into) := by
  unfold waysPass
  dsimp only
  repeat' split
  all_goals exact ⟨⟨c.mem⟩, fun _ co => co⟩

theorem waymaskSet_keeps (m : Mbx) : BodyKeeps (waymaskSet m) := by
  intro hm r c
  unfold waymaskSet
  extract_lets +onlyGivenNames h b p all want has out into
  split
  · exact waysPass_answered _ _ _ c
  · split
    · exact c.answered rfl
    · extract_lets +onlyGivenNames owns
      split
      · exact c.answered rfl
      · split
        · exact c.answered rfl
        · split
          · exact c.answered rfl
          · exact waysPass_answered _ _ _ c

theorem splitShelf_answered {hm : HM} (b : List Byte) (slots : List Nat) (out : List Nat) (c : Canonical hm) :
    Answered (splitShelf hm b slots out) := by
  unfold splitShelf
  repeat' split
  all_goals exact ⟨⟨c.mem⟩, fun _ co => co⟩

theorem shelfSplitSet_keeps : BodyKeeps shelfSplitSet := by
  intro hm r c
  unfold shelfSplitSet
  dsimp only
  split
  · exact splitShelf_answered _ _ _ c
  · split
    · exact c.answered rfl
    · exact splitShelf_answered _ _ _ (c.keep _)

theorem scrubReport_keeps (m : Mbx) : BodyKeeps (scrubReport m) := by
  intro hm r c
  unfold scrubReport
  dsimp only
  repeat' split
  all_goals exact ⟨⟨c.mem⟩, fun _ co => co⟩

/-! ### Rows that wait -/

theorem waiting_canonical {f : HM → HM} (hf : ∀ o, Canonical o → Canonical (f o)) {hm : HM} (c : Canonical hm) :
    Canonical (waiting f hm) := by
  unfold waiting
  grind only [canonical_mk, Canonical.mem, Canonical.foldl, Canonical.foldl_fst]

theorem ferrying_canonical (s : Nat) (seq : W32) {f : HM → HM} (hf : ∀ o, Canonical o → Canonical (f o)) {hm : HM} (c : Canonical hm) :
    Canonical (ferrying s seq f hm) := by
  unfold ferrying
  grind only [canonical_mk, Canonical.mem, Canonical.foldl, Canonical.foldl_fst]

/-! ### Power -/

theorem powerBudgetSet_keeps : BodyKeeps powerBudgetSet := by
  intro hm r c
  unfold powerBudgetSet
  dsimp only
  repeat' split
  all_goals exact ⟨⟨c.mem⟩, fun _ co => co⟩

theorem powerBoundsSet_keeps (m : Mbx) : BodyKeeps (powerBoundsSet m) := by
  intro hm r c
  unfold powerBoundsSet
  dsimp only
  repeat' split
  all_goals exact ⟨⟨c.mem⟩, fun _ co => co⟩

theorem railCapSet_keeps : BodyKeeps railCapSet := by
  intro hm r c
  unfold railCapSet
  dsimp only
  repeat' split
  all_goals exact ⟨⟨c.mem⟩, fun _ co => co⟩

theorem thermalSet_keeps : BodyKeeps thermalSet := by
  intro hm r c
  unfold thermalSet
  dsimp only
  repeat' split
  all_goals exact ⟨⟨c.mem⟩, fun _ co => co⟩

theorem poolConfig_keeps : BodyKeeps poolConfig := by
  intro hm r c
  unfold poolConfig
  dsimp only
  repeat' split
  all_goals exact ⟨⟨c.mem⟩, fun _ co => co⟩

theorem powerTelemetry_keeps (m : Mbx) : BodyKeeps (powerTelemetry m) := by
  intro hm r c
  unfold powerTelemetry
  repeat' split
  all_goals exact ⟨⟨c.mem⟩, fun _ co => co⟩

theorem powerStatus_keeps : BodyKeeps powerStatus := fun _ _ c => ⟨⟨c.mem⟩, fun _ co => co⟩

/-! ### Resets -/

theorem wpZeroised_canonical {hm : HM} (c : Canonical hm) : Canonical (wpZeroised hm) := by
  unfold wpZeroised
  split
  · exact canonical_nil _
  · exact c

/-! ### Faults -/

theorem doubtAll_canonical {hm : HM} (x : DoubtCause) (c : Canonical hm) : Canonical (doubtAll hm x) := by
  unfold doubtAll
  grind only [canonical_mk, Canonical.mem, scrubComplete_canonical]

theorem fenceStatus_keeps (m : Mbx) : BodyKeeps (fenceStatus m) := by
  intro hm r c
  unfold fenceStatus
  dsimp only
  repeat' split
  all_goals exact ⟨⟨c.mem⟩, fun _ co => co⟩

theorem logRead_keeps (m : Mbx) : BodyKeeps (logRead m) := fun _ _ c => ⟨⟨c.mem⟩, fun _ co => co⟩

theorem logRelease_keeps : BodyKeeps logRelease := fun _ _ c => ⟨⟨c.mem⟩, fun _ co => co⟩

theorem faultQueueRead_keeps (m : Mbx) : BodyKeeps (faultQueueRead m) := by
  intro hm r c
  unfold faultQueueRead
  dsimp only
  repeat' split
  all_goals exact ⟨⟨c.mem⟩, fun _ co => co⟩

theorem unitReconcile_keeps (bad : Option Nat) (agree : Bool) : BodyKeeps (unitReconcile bad agree) := by
  intro hm r c
  unfold unitReconcile
  extract_lets +onlyGivenNames h kind idx own
  split
  · exact c.answered rfl
  · split
    · exact c.answered rfl
    · split
      · exact c.answered rfl
      · cases bad with
        | some a => exact ⟨c.keep _, fun _ co => co⟩
        | none =>
          have ho : ∀ g, Canonical (clearUnit (g, hm.2) kind idx false false) := fun g => clearUnit_canonical _ _ _ _ (c.keep g)
          cases agree
          · exact ⟨(ho _).keep _, fun _ co => co⟩
          · exact ⟨(ho _).keep _, fun _ co => co⟩

theorem scrubRetry_keeps (bad : Option Nat) : BodyKeeps (scrubRetry bad) := by
  intro hm r c
  unfold scrubRetry
  dsimp only
  split
  · exact c.answered rfl
  · split
    · exact c.answered rfl
    · split
      · exact (c.keep _).answered rfl
      · exact ((passScrub_canonical _ _ (c.keep _)).keep _).answered rfl

theorem logResync_keeps (result : Nat) : BodyKeeps (logResync result) := by
  intro hm r c
  unfold logResync
  dsimp only
  repeat' split
  all_goals exact ⟨⟨c.mem⟩, fun _ co => co⟩

theorem lastWordClear_keeps : BodyKeeps lastWordClear := fun _ _ c => ⟨⟨c.mem⟩, fun _ co => co⟩

theorem bucketSet_keeps : BodyKeeps bucketSet := by
  intro hm r c
  unfold bucketSet
  dsimp only
  repeat' split
  all_goals exact ⟨⟨c.mem⟩, fun _ co => co⟩

theorem bucketGet_keeps (m : Mbx) : BodyKeeps (bucketGet m) := by
  intro hm r c
  unfold bucketGet
  dsimp only
  repeat' split
  all_goals exact ⟨⟨c.mem⟩, fun _ co => co⟩

theorem patrolSet_keeps : BodyKeeps patrolSet := by
  intro hm r c
  unfold patrolSet
  dsimp only
  repeat' split
  all_goals exact ⟨⟨c.mem⟩, fun _ co => co⟩

theorem poisonQuery_keeps (m : Mbx) : BodyKeeps (poisonQuery m) := by
  intro hm r c
  unfold poisonQuery
  dsimp only
  repeat' split
  all_goals exact ⟨⟨c.mem⟩, fun _ co => co⟩

theorem poisonClear_keeps (m : Mbx) : BodyKeeps (poisonClear m) := by
  intro hm r c
  unfold poisonClear
  dsimp only
  split
  · exact c.answered rfl
  · split
    · exact c.answered rfl
    · exact Canonical.answered ⟨memZero_wf _ _ c.mem⟩ rfl

/-! ### Registers -/

theorem windowPlain_canonical {hm : HM} (p : Nat) (off : Nat) (v : Nat) (w : Half) (c : Canonical hm) :
    Canonical (windowPlain hm p off v w) := by
  unfold windowPlain
  grind only [canonical_mk, Canonical.mem, settle_canonical]

theorem windowStore_canonical {hm : HM} (p : Nat) (off : Nat) (v : Nat) (w : Half) (c : Canonical hm) :
    Canonical (windowStore hm p off v w) := by
  unfold windowStore
  grind only [canonical_mk, Canonical.mem, windowPlain_canonical]

theorem stewardPlain_canonical {hm : HM} (off : Nat) (v : Nat) (w : Half) (c : Canonical hm) : Canonical (stewardPlain hm off v w) := by
  unfold stewardPlain
  grind only [canonical_mk, Canonical.mem]

theorem stewardStore_canonical {hm : HM} (off : Nat) (v : Nat) (w : Half) (c : Canonical hm) : Canonical (stewardStore hm off v w) := by
  unfold stewardStore
  grind only [canonical_mk, Canonical.mem, stewardPlain_canonical]

theorem region3Store_canonical {hm : HM} (o : Nat) (n : Nat) (v : Nat) (c : Canonical hm) : Canonical (region3Store hm o n v) := by
  unfold region3Store
  grind only [canonical_mk, Canonical.mem, stewardStore_canonical, windowStore_canonical]

/-! ### Homes -/

theorem maskedWrite_canonical {hm : HM} (a : Nat) (bs : List Byte) (mask : Nat) (c : Canonical hm) :
    Canonical (maskedWrite hm a bs mask) := by
  unfold maskedWrite
  grind only [canonical_mk, Canonical.mem, Canonical.foldl, Canonical.foldl_fst, cohWrite_canonical]

theorem homeData_canonical {hm : HM} (line : Nat) (q : DirReq) (c : Canonical hm) : Canonical (homeData hm line q) := by
  unfold homeData
  grind only [canonical_mk, Canonical.mem, cohWrite_canonical, maskedWrite_canonical]

theorem answered_canonical {hm : HM} (q : DirReq) (c : Canonical hm) : Canonical (answered hm q) := by
  unfold answered
  split
  · exact c.keep _
  · exact c

theorem homeServe_canonical {hm : HM} (line : Nat) (q : DirReq) (c : Canonical hm) : Canonical (homeServe hm line q) := by
  unfold homeServe
  grind only [canonical_mk, Canonical.mem, answered_canonical, homeData_canonical]

theorem serveLine_canonical {hm : HM} (line : Nat) (c : Canonical hm) : Canonical (serveLine hm line) := by
  unfold serveLine
  grind only [canonical_mk, Canonical.mem, Canonical.foldl, Canonical.foldl_fst, homeServe_canonical]

theorem wakeLines_canonical {hm : HM} (c : Canonical hm) : Canonical (wakeLines hm) := by
  unfold wakeLines
  grind only [canonical_mk, Canonical.mem, Canonical.foldl, Canonical.foldl_fst, serveLine_canonical]

theorem serveQueue_canonical {hm : HM} (line : Nat) (c : Canonical hm) : Canonical (serveQueue hm line) := by
  unfold serveQueue
  grind only [canonical_mk, Canonical.mem, wakeLines_canonical, serveLine_canonical]

theorem ioWrite_canonical {hm : HM} (a : Nat) (bs : List Byte) (c : Canonical hm) : Canonical (ioWrite hm a bs) := by
  unfold ioWrite
  grind only [canonical_mk, Canonical.mem, region3Store_canonical]

theorem ioReq_canonical {hm : HM} (q : DirReq) (c : Canonical hm) : Canonical (ioReq hm q) := by
  unfold ioReq
  grind only [canonical_mk, Canonical.mem, ioWrite_canonical]

theorem homeReq_canonical {hm : HM} (k : ReqKind) (ag : Agent) (part : Nat) (addr : Nat) (x : HomeAct) (c : Canonical hm) :
    Canonical (homeReq hm k ag part addr x) := by
  unfold homeReq
  grind only [canonical_mk, Canonical.mem, answered_canonical, ioReq_canonical, homeServe_canonical]

theorem presentHeld_canonical {hm : HM} (i : Island) (c : Canonical hm) : Canonical (presentHeld hm i) := by
  unfold presentHeld
  grind only [canonical_mk, Canonical.mem, Canonical.foldl, Canonical.foldl_fst, homeReq_canonical, wakeLines_canonical]

theorem snoop_canonical {hm : HM} (ag : Agent) (addr : Nat) (k : SnpKind) (c : Canonical hm) : Canonical (snoop hm ag addr k) := by
  unfold snoop
  grind only [canonical_mk, Canonical.mem]

/-! ### Harts -/

theorem performStore_canonical {hm : HM} (n : Nat) (e : SbEntry) (c : Canonical hm) : Canonical (performStore hm n e) := by
  unfold performStore
  grind only [canonical_mk, Canonical.mem, Canonical.foldl, Canonical.foldl_fst, cohWrite_canonical]

theorem drainSome_canonical {hm : HM} (n : Nat) (k : Nat) (c : Canonical hm) : Canonical (drainSome hm n k) := by
  unfold drainSome
  grind only [canonical_mk, Canonical.mem, Canonical.foldl, Canonical.foldl_fst, performStore_canonical]

theorem drainBuffer_canonical {hm : HM} (n : Nat) (c : Canonical hm) : Canonical (drainBuffer hm n) := by
  unfold drainBuffer
  grind only [canonical_mk, Canonical.mem, drainSome_canonical]

theorem beforeAccess_canonical {hm : HM} (a : HartAccess) (c : Canonical hm) : Canonical (beforeAccess hm a) := by
  unfold beforeAccess
  dsimp only
  (repeat' split) <;> grind only [canonical_mk, Canonical.mem, drainBuffer_canonical, drainSome_canonical]

theorem beforeStore_canonical {hm : HM} (a : HartAccess) (c : Canonical hm) : Canonical (beforeStore hm a) := by
  unfold beforeStore
  dsimp only
  (repeat' split) <;> grind only [canonical_mk, Canonical.mem, beforeAccess_canonical, drainSome_canonical]

theorem hartBlock_canonical {hm0 : HM} (a : HartAccess) (c : Canonical hm0) : Canonical (hartBlock hm0 a) := by
  unfold hartBlock
  dsimp only
  (repeat' split) <;> grind only [canonical_mk, Canonical.mem, drainBuffer_canonical]

theorem hartLoad_canonical {hm0 : HM} (a : HartAccess) (c : Canonical hm0) : Canonical (hartLoad hm0 a) := by
  unfold hartLoad
  extract_lets +onlyGivenNames n l
  split
  · exact c
  · split
    · exact hartBlock_canonical a c
    · extract_lets +onlyGivenNames hm
      have hb : Canonical hm := beforeAccess_canonical a c
      split
      · exact hb.keep _
      · extract_lets +onlyGivenNames h
        split
        · exact hb.keep _
        · split
          · exact hb.keep _
          · split
            · extract_lets +onlyGivenNames o
              split
              · exact hb
              · split <;> exact hb.keep _
            · split
              · exact hb.keep _
              · extract_lets +onlyGivenNames h0 h1 bs
                split <;> exact hb.keep _

theorem hartStore_canonical {hm0 : HM} (a : HartAccess) (bs : List Byte) (c : Canonical hm0) : Canonical (hartStore hm0 a bs) := by
  unfold hartStore
  extract_lets +onlyGivenNames n l
  split
  · exact c
  · extract_lets +onlyGivenNames hm o
    have hb : Canonical hm := beforeStore_canonical a c
    generalize (if a.size > 8 then cboGate (hartAt hm.1 n) .none true else none) = gate
    cases gate with
    | some k => exact hb.keep _
    | none =>
      cases meets hm.1 a o true false with
      | some e => exact hb.keep _
      | none =>
        dsimp only
        split
        · exact hb.keep _
        · split
          · exact region3Store_canonical _ _ _ hb
          · split
            · split <;> exact hb.keep _
            · split
              · exact drainBuffer_canonical _ (hb.keep _)
              · exact hb.keep _

theorem hartFetch_canonical {hm : HM} (a : HartAccess) (c : Canonical hm) : Canonical (hartFetch hm a) := by
  unfold hartFetch
  grind only [canonical_mk, Canonical.mem, Canonical.foldl, Canonical.foldl_fst]

theorem hartAmo_canonical {hm0 : HM} (a : HartAccess) (o : AmoOp) (operand : Nat) (compare : Nat) (c : Canonical hm0) :
    Canonical (hartAmo hm0 a o operand compare) := by
  unfold hartAmo
  grind only [canonical_mk, Canonical.mem, drainBuffer_canonical, cohWrite_canonical]

theorem hartLr_canonical {hm0 : HM} (a : HartAccess) (c : Canonical hm0) : Canonical (hartLr hm0 a) := by
  unfold hartLr
  extract_lets +onlyGivenNames n l
  split
  · exact c
  · split
    · exact c.keep _
    · extract_lets +onlyGivenNames hm
      have hd : Canonical hm := drainBuffer_canonical _ c
      split
      · exact hd.keep _
      · split
        · exact hd.keep _
        · extract_lets +onlyGivenNames h h0
          split <;> exact hd.keep _

theorem endResv_canonical {hm : HM} (n : Nat) (c : Canonical hm) : Canonical (endResv hm n) := by
  unfold endResv
  grind only [canonical_mk, Canonical.mem, serveQueue_canonical]

theorem hartSc_canonical {hm0 : HM} (a : HartAccess) (bs : List Byte) (c : Canonical hm0) : Canonical (hartSc hm0 a bs) := by
  unfold hartSc
  grind only [canonical_mk, Canonical.mem, drainBuffer_canonical, endResv_canonical, cohWrite_canonical]

theorem resvTimeout_canonical {hm : HM} (n : Nat) (c : Canonical hm) : Canonical (resvTimeout hm n) := by
  unfold resvTimeout
  grind only [canonical_mk, Canonical.mem, wakeLines_canonical, endResv_canonical]

theorem hartFence_canonical {hm : HM} (n : Nat) (va : Nat) (sets : Nat) (c : Canonical hm) : Canonical (hartFence hm n va sets) := by
  unfold hartFence
  grind only [canonical_mk, Canonical.mem, drainBuffer_canonical]

theorem ycfence_canonical {hm : HM} (n : Nat) (v : Nat) (va : Nat) (c : Canonical hm) : Canonical (ycfence hm n v va) := by
  unfold ycfence
  grind only [canonical_mk, Canonical.mem, hartFence_canonical, drainBuffer_canonical]

theorem hartStop_canonical {hm : HM} (n : Nat) (c : Canonical hm) : Canonical (hartStop hm n) := by
  unfold hartStop
  grind only [canonical_mk, Canonical.mem, drainBuffer_canonical, endResv_canonical]

theorem kntValue_canonical {hm0 : HM} (x : HartPoint) (knot : Nat) (c : Canonical hm0) : Canonical (kntValue hm0 x knot) := by
  unfold kntValue
  grind only [canonical_mk, Canonical.mem, drainBuffer_canonical]

theorem xinvSync_canonical {hm0 : HM} (n : Nat) (c : Canonical hm0) : Canonical (xinvSync hm0 n) := by
  unfold xinvSync
  grind only [canonical_mk, Canonical.mem, drainBuffer_canonical]

theorem csrStore_canonical {hm : HM} (n : Nat) (num : Nat) (op : CsrOp) (v : Nat) (c : Canonical hm) :
    Canonical (csrStore hm n num op v) := by
  unfold csrStore
  grind only [canonical_mk, Canonical.mem, hartStop_canonical, ycfence_canonical]

theorem registerWrite_canonical {hm : HM} (t : RegPlace) (w : Half) (v : Nat) (c : Canonical hm) : Canonical (registerWrite hm t w v) := by
  unfold registerWrite
  grind only [canonical_mk, Canonical.mem, windowStore_canonical, stewardStore_canonical, csrStore_canonical]

/-! ### Islands -/

theorem drainComplete_canonical {hm : HM} (i : Island) (c : Canonical hm) : Canonical (drainComplete hm i) := by
  unfold drainComplete
  grind only [canonical_mk, Canonical.mem, presentHeld_canonical]

theorem gateAbandon_canonical {hm : HM} (i : Island) (c : Canonical hm) : Canonical (gateAbandon hm i) := by
  unfold gateAbandon
  grind only [canonical_mk, Canonical.mem, presentHeld_canonical]

theorem straitsOpen_canonical {hm : HM} (i : Island) (c : Canonical hm) : Canonical (straitsOpen hm i) := by
  unfold straitsOpen
  grind only [canonical_mk, Canonical.mem, presentHeld_canonical]

/-! ### Start-up and resets -/

theorem loadImage_canonical {hm : HM} (c : Canonical hm) : Canonical (loadImage hm) := by
  refine Canonical.foldl (fun o e co => ?_) _ c
  split
  · exact cohWrite_canonical _ _ co
  · exact co

theorem bootResources_canonical {hm : HM} (vector : Nat) (c : Canonical hm) : Canonical (bootResources hm vector) := by
  unfold bootResources
  dsimp only
  split
  · exact c
  · exact loadImage_canonical ((endScrub_canonical _ _ (c.keep _)).keep _)

theorem coldReset_canonical {hm : HM} (cause : Nat) (c : Canonical hm) : Canonical (coldReset hm cause) := by
  unfold coldReset
  split_ifs
  · exact canonical_nil _
  · exact c

theorem warmReset_canonical {hm : HM} (cause : Nat) (c : Canonical hm) : Canonical (warmReset hm cause) := by
  unfold warmReset
  grind only [canonical_mk, Canonical.mem]

theorem powerOff_canonical (hm : HM) : Canonical (powerOff hm) := canonical_nil _

theorem dormantBytes_wf (h : Hw) {m : Memory} (c : Memory.wf m) : Memory.wf (dormantBytes h m) := by
  unfold dormantBytes
  grind only [canonical_mk, Canonical.mem, tabClear_wf]

theorem partResetCmd_keeps (m : Mbx) : BodyKeeps (partResetCmd m) := by
  intro hm r c
  unfold partResetCmd
  extract_lets +onlyGivenNames p
  split
  · exact c.answered rfl
  · extract_lets +onlyGivenNames pend run
    split
    · exact c.answered rfl
    · split
      · exact ⟨c, fun _ co => co.keep _⟩
      · exact (c.keep _).answered rfl

theorem iter_canonical {f : HM → HM} (hf : ∀ o, Canonical o → Canonical (f o)) (n : Nat) {hm : HM} (c : Canonical hm) :
    Canonical (iter f n hm) := by
  induction n generalizing hm with
  | zero => exact c
  | succ n ih => exact ih (hf hm c)

theorem haltHeld_canonical {hm : HM} (s : Nat) (c : Canonical hm) : Canonical (haltHeld hm s) :=
  iter_canonical (fun _ co => completeNext_canonical s (co.keep _)) _ (c.keep _)

theorem unitResetCmd_keeps : BodyKeeps unitResetCmd := by
  intro hm r c
  unfold unitResetCmd
  extract_lets +onlyGivenNames h kind idx
  split
  · exact c.answered rfl
  · split
    · exact c.answered rfl
    · split
      · exact c.answered rfl
      · split
        · exact c.answered rfl
        · split
          · exact c.answered rfl
          · extract_lets +onlyGivenNames h1 hm1 hm2
            have h1c : Canonical hm1 := by
              unfold hm1
              split
              · exact releaseTaken_canonical _ _ (c.keep _)
              · exact c.keep _
            have h2c : Canonical hm2 := by
              unfold hm2
              split
              · exact haltHeld_canonical _ h1c
              · exact h1c
            exact (h2c.keep _).answered rfl

theorem mgmtRestart_keeps : BodyKeeps mgmtRestart := fun _ _ c => ⟨c, fun _ co => co.keep _⟩

theorem pkgReset_keeps (m : Mbx) : BodyKeeps (pkgReset m) := by
  intro hm r c
  unfold pkgReset
  refine ⟨?_, fun _ co => ?_⟩ <;> grind only [canonical_mk, Canonical.mem, warmReset_canonical]

theorem powerStateSet_keeps : BodyKeeps powerStateSet := by
  intro hm r c
  unfold powerStateSet
  dsimp only
  split
  · exact (c.keep _).answered rfl
  · split
    · exact c.answered rfl
    · exact (c.keep _).answered rfl
  · exact ⟨c, fun _ _ => powerOff_canonical _⟩

theorem acceptDormant_canonical {hm : HM} (m : Mbx) (tag : Nat) (c : Canonical hm) : Canonical (acceptDormant hm m tag) := by
  unfold acceptDormant
  grind only [canonical_mk, Canonical.mem]

theorem powerStateConfig_keeps : BodyKeeps powerStateConfig := by
  intro hm r c
  unfold powerStateConfig
  dsimp only
  repeat' split
  all_goals exact ⟨⟨c.mem⟩, fun _ co => co⟩

theorem wakeReportGet_keeps : BodyKeeps wakeReportGet := fun _ _ c => ⟨⟨c.mem⟩, fun _ co => co⟩

theorem keepaliveAck_keeps : BodyKeeps keepaliveAck := fun _ _ c => ⟨⟨c.mem⟩, fun _ co => co⟩

theorem cacheClear_keeps : BodyKeeps cacheClear := fun _ _ c => ⟨⟨c.mem⟩, fun _ co => co⟩

/-! ### Membership -/

theorem onFrameM_canonical {hm : HM} (x : Cw) (type : Nat) (w : FrameWay) (body : List Nat) {f : HM → HM} (hf : ∀ o,
    Canonical o → Canonical (f o)) (c : Canonical hm) :
    Canonical (onFrameM hm x type w body f) := by
  unfold onFrameM
  grind only [canonical_mk, Canonical.mem]

theorem recallLines_canonical {hm : HM} (p : Nat → Bool) (c : Canonical hm) : Canonical (recallLines hm p) := by
  unfold recallLines
  grind only [canonical_mk, Canonical.mem, Canonical.foldl, Canonical.foldl_fst, homeServe_canonical]

theorem resumeLine_canonical {hm : HM} (line : Nat) (c : Canonical hm) : Canonical (resumeLine hm line) := by
  unfold resumeLine
  grind only [canonical_mk, Canonical.mem, serveQueue_canonical]

theorem writeDat_canonical {hm : HM} (m : Msg) (c : Canonical hm) : Canonical (writeDat hm m) := by
  unfold writeDat
  grind only [canonical_mk, Canonical.mem, serveQueue_canonical]

theorem snoopAnswer_canonical {hm : HM} (src : Nat) (m : Msg) (c : Canonical hm) : Canonical (snoopAnswer hm src m) := by
  unfold snoopAnswer
  grind only [canonical_mk, Canonical.mem, cohWrite_canonical, resumeLine_canonical]

theorem forgetHolder_canonical {hm : HM} (q : Nat) (lost : Bool) (c : Canonical hm) : Canonical (forgetHolder hm q lost) := by
  unfold forgetHolder
  grind only [canonical_mk, Canonical.mem, Canonical.foldl, Canonical.foldl_fst, resumeLine_canonical, serveQueue_canonical]

theorem memberGone_canonical {hm : HM} (q : Nat) (seq : Nat) (reason : Option Nat) (c : Canonical hm) :
    Canonical (memberGone hm q seq reason) := by
  unfold memberGone
  grind only [canonical_mk, Canonical.mem, Canonical.foldl, Canonical.foldl_fst, waiting_canonical, forgetHolder_canonical]

theorem declareRemoved_canonical {hm : HM} (q : Nat) (reason : Nat) (c : Canonical hm) : Canonical (declareRemoved hm q reason) := by
  unfold declareRemoved
  grind only [canonical_mk, Canonical.mem, memberGone_canonical]

theorem beginDepart_canonical {hm : HM} (c : Canonical hm) : Canonical (beginDepart hm) := by
  unfold beginDepart
  grind only [canonical_mk, Canonical.mem, recallLines_canonical]

/-! ### Frames -/

theorem forgetPast_canonical {hm : HM} (c : Canonical hm) : Canonical (forgetPast hm) := by
  unfold forgetPast
  grind only [canonical_mk, Canonical.mem, Canonical.foldl, Canonical.foldl_fst, forgetHolder_canonical, waiting_canonical]

theorem joinArch_canonical {hm : HM} (x : Cw) (pos : Nat) (digest : List Byte) (c : Canonical hm) :
    Canonical (joinArch hm x pos digest) := by
  unfold joinArch
  grind only [canonical_mk, Canonical.mem, forgetPast_canonical]

theorem onAdmitted_canonical {hm : HM} (x : Cw) (pos : Nat) (tag : Nat) (digest : List Byte) (c : Canonical hm) :
    Canonical (onAdmitted hm x pos tag digest) := by
  unfold onAdmitted
  grind only [canonical_mk, Canonical.mem, joinArch_canonical]

theorem reattest_canonical {hm : HM} (pos : Nat) (a : Attest) (c : Canonical hm) : Canonical (reattest hm pos a) := by
  unfold reattest
  grind only [canonical_mk, Canonical.mem, declareRemoved_canonical]

theorem onDeparting_canonical {hm : HM} (x : Cw) (pos : Nat) (c : Canonical hm) : Canonical (onDeparting hm x pos) := by
  unfold onDeparting
  grind only [canonical_mk, Canonical.mem, beginDepart_canonical]

theorem onDeparted_canonical {hm : HM} (x : Cw) (pos : Nat) (c : Canonical hm) : Canonical (onDeparted hm x pos) := by
  unfold onDeparted
  grind only [canonical_mk, Canonical.mem, memberGone_canonical]

theorem onRemoved_canonical {hm : HM} (x : Cw) (pos : Nat) (reason : Nat) (c : Canonical hm) : Canonical (onRemoved hm x pos reason) := by
  unfold onRemoved
  grind only [canonical_mk, Canonical.mem, memberGone_canonical]

theorem onAbandon_canonical {hm : HM} (x : Cw) (c : Canonical hm) : Canonical (onAbandon hm x) := by
  unfold onAbandon
  grind only [canonical_mk, Canonical.mem, declareRemoved_canonical, memberGone_canonical]

theorem onFenced_canonical {hm : HM} (x : Cw) (c : Canonical hm) : Canonical (onFenced hm x) := by
  unfold onFenced
  grind only [canonical_mk, Canonical.mem, declareRemoved_canonical]

theorem memberAbsent_canonical {hm : HM} (pos : Nat) (c : Canonical hm) : Canonical (memberAbsent hm pos) := by
  unfold memberAbsent
  grind only [canonical_mk, Canonical.mem, declareRemoved_canonical]

/-! ### Segments -/

theorem remoteReq_canonical {hm : HM} (p : Nat) (m : Msg) (k0 : ReqKind) (c : Canonical hm) : Canonical (remoteReq hm p m k0) := by
  unfold remoteReq
  grind only [canonical_mk, Canonical.mem, homeReq_canonical]

theorem takeMsg_canonical {hm : HM} (set : Nat) (m : Msg) (c : Canonical hm) : Canonical (takeMsg hm set m) := by
  unfold takeMsg
  grind only [canonical_mk, Canonical.mem, settle_canonical, remoteReq_canonical, writeDat_canonical, snoopAnswer_canonical]

theorem takeMsgs_canonical {hm : HM} (set : Nat) (ms : List Msg) (c : Canonical hm) : Canonical (takeMsgs hm set ms) := by
  unfold takeMsgs
  grind only [canonical_mk, Canonical.mem, Canonical.foldl, Canonical.foldl_fst, takeMsg_canonical]

theorem onSegment_canonical {hm : HM} (port : Nat) (stream : Nat) (gen : Nat) (counter : Nat) (tagOk : Bool) (ms : List Msg) (c :
    Canonical hm) :
    Canonical (onSegment hm port stream gen counter tagOk ms) := by
  unfold onSegment
  grind only [canonical_mk, Canonical.mem, takeMsgs_canonical]

/-! ### Archipelago commands -/

theorem archStatus_keeps (m : Mbx) : BodyKeeps (archStatus m) := fun _ _ c => ⟨⟨c.mem⟩, fun _ co => co⟩

theorem archFound_keeps : BodyKeeps archFound := by
  intro hm r c
  unfold archFound
  dsimp only
  repeat' split
  all_goals exact ⟨⟨c.mem⟩, fun _ co => co⟩

theorem archJoin_keeps : BodyKeeps archJoin := by
  intro hm r c
  unfold archJoin
  dsimp only
  repeat' split
  all_goals exact ⟨⟨c.mem⟩, fun _ co => co⟩

theorem archAdmit_keeps : BodyKeeps archAdmit := by
  intro hm r c
  unfold archAdmit
  dsimp only
  repeat' split
  all_goals exact ⟨⟨c.mem⟩, fun _ co => co⟩

theorem archPolicySet_keeps : BodyKeeps archPolicySet := fun _ _ c => ⟨⟨c.mem⟩, fun _ co => co⟩

theorem archDepart_keeps : BodyKeeps archDepart := by
  intro hm r c
  unfold archDepart
  dsimp only
  split_ifs
  any_goals exact c.answered rfl
  · exact (beginDepart_canonical c).answered rfl
  · exact (beginDepart_canonical c).answered rfl
  · exact (c.keep _).answered rfl

theorem archRoleSet_keeps : BodyKeeps archRoleSet := by
  intro hm r c
  unfold archRoleSet
  dsimp only
  repeat' split
  all_goals exact ⟨⟨c.mem⟩, fun _ co => co⟩

theorem archSetBind_keeps : BodyKeeps archSetBind := by
  intro hm r c
  unfold archSetBind
  dsimp only
  repeat' split
  all_goals exact ⟨⟨c.mem⟩, fun _ co => co⟩

theorem archSetUnbind_keeps : BodyKeeps archSetUnbind := by
  intro hm r c
  unfold archSetUnbind
  dsimp only
  split
  · exact c.answered rfl
  · split
    · exact c.answered rfl
    · split <;> exact ((recallLines_canonical _ (c.keep _)).keep _).answered rfl

theorem archCensus_keeps : BodyKeeps archCensus := by
  intro hm r c
  unfold archCensus
  dsimp only
  repeat' split
  all_goals exact ⟨⟨c.mem⟩, fun _ co => co⟩

theorem archCensusRead_keeps : BodyKeeps archCensusRead := by
  intro hm r c
  unfold archCensusRead
  dsimp only
  repeat' split
  all_goals exact ⟨⟨c.mem⟩, fun _ co => co⟩

theorem linkControl_keeps : BodyKeeps linkControl := by
  intro hm r c
  unfold linkControl
  dsimp only
  repeat' split
  all_goals exact ⟨⟨c.mem⟩, fun _ co => co⟩

/-! ### Devices -/

theorem deviceReadPiece_canonical (f p ca : Nat) {acc : HM × List Byte × Nat} (x : Nat × Nat) (c : Canonical acc.1) :
    Canonical (deviceReadPiece f p ca acc x).1 := by
  unfold deviceReadPiece
  grind only [canonical_mk, Canonical.mem, engineRead_canonical]

theorem deviceWritePiece_canonical (f : Nat) (p : Nat) (ca : Nat) (bs : List Byte) (poison : Bool) {hm : HM} (x : Nat × Nat) (c :
    Canonical hm) :
    Canonical (deviceWritePiece f p ca bs poison hm x) := by
  unfold deviceWritePiece
  grind only [canonical_mk, Canonical.mem, engineWrite_canonical]

theorem deviceAccess_canonical {hm : HM} (f : Nat) (p : Nat) (ca : Nat) (q : InReq) (c : Canonical hm) :
    Canonical (deviceAccess hm f p ca q) := by
  unfold deviceAccess
  dsimp only
  (repeat' split) <;> grind only [canonical_mk, Canonical.mem, Canonical.foldl, Canonical.foldl_fst, deviceWritePiece_canonical,
    windowStore_canonical, deviceReadPiece_canonical, atomicAt_canonical]

theorem inbound_canonical {hm : HM} (f : Nat) (stream : Option Nat) (addr : Nat) (q : InReq) (c : Canonical hm) :
    Canonical (inbound hm f stream addr q) := by
  unfold inbound
  grind only [canonical_mk, Canonical.mem, deviceAccess_canonical]

/-! ### Edge commands -/

theorem devReportGet_keeps (m : Mbx) (report : List Byte) (meas : List Byte) : BodyKeeps (devReportGet m report meas) := by
  intro hm r c
  unfold devReportGet
  dsimp only
  repeat' split
  all_goals exact ⟨⟨c.mem⟩, fun _ co => co⟩

theorem devAccept_keeps (m : Mbx) : BodyKeeps (devAccept m) := by
  intro hm r c
  unfold devAccept
  dsimp only
  repeat' split
  all_goals exact ⟨⟨c.mem⟩, fun _ co => co⟩

theorem devAssign_keeps (dev : DevInfo) : BodyKeeps (devAssign dev) := by
  intro hm r c
  unfold devAssign
  dsimp only
  repeat' split
  all_goals exact ⟨⟨c.mem⟩, fun _ co => co⟩

theorem portStatus_keeps : BodyKeeps portStatus := fun _ _ c => ⟨⟨c.mem⟩, fun _ co => co⟩

theorem portConfig_keeps : BodyKeeps portConfig := by
  intro hm r c
  unfold portConfig
  dsimp only
  repeat' split
  all_goals exact ⟨⟨c.mem⟩, fun _ co => co⟩

theorem slotControl_keeps : BodyKeeps slotControl := by
  intro hm r c
  unfold slotControl
  dsimp only
  repeat' split
  all_goals exact ⟨⟨c.mem⟩, fun _ co => co⟩

theorem hdmDecoderSet_keeps : BodyKeeps hdmDecoderSet := by
  intro hm r c
  unfold hdmDecoderSet
  dsimp only
  repeat' split
  all_goals exact ⟨⟨c.mem⟩, fun _ co => co⟩

theorem pinSet_keeps (smb : Bool) : BodyKeeps (pinSet smb) := by
  intro hm r c
  unfold pinSet
  dsimp only
  repeat' split
  all_goals exact ⟨⟨c.mem⟩, fun _ co => co⟩

theorem pinStatus_keeps : BodyKeeps pinStatus := fun _ _ c => ⟨⟨c.mem⟩, fun _ co => co⟩

theorem rtcSet_keeps : BodyKeeps rtcSet := by
  intro hm r c
  unfold rtcSet
  repeat' split
  all_goals exact ⟨⟨c.mem⟩, fun _ co => co⟩

theorem rtcAlarmSet_keeps : BodyKeeps rtcAlarmSet := fun _ _ c => ⟨⟨c.mem⟩, fun _ co => co⟩

theorem chargerSet_keeps : BodyKeeps chargerSet := by
  intro hm r c
  unfold chargerSet
  dsimp only
  repeat' split
  all_goals exact ⟨⟨c.mem⟩, fun _ co => co⟩

theorem shipMode_keeps (on : Bool) : BodyKeeps (shipMode on) := fun _ _ c => ⟨⟨c.mem⟩, fun _ co => co⟩

theorem tamperConfig_keeps : BodyKeeps tamperConfig := by
  intro hm r c
  unfold tamperConfig
  dsimp only
  repeat' split
  all_goals exact ⟨⟨c.mem⟩, fun _ co => co⟩

theorem kaStatus_keeps : BodyKeeps kaStatus := fun _ _ c => ⟨⟨c.mem⟩, fun _ co => co⟩

theorem fwVersion_keeps : BodyKeeps fwVersion := fun _ _ c => ⟨⟨c.mem⟩, fun _ co => co⟩

theorem fwWrite_keeps : BodyKeeps fwWrite := by
  intro hm r c
  unfold fwWrite
  dsimp only
  repeat' split
  all_goals exact ⟨⟨c.mem⟩, fun _ co => co⟩

theorem fwVerify_keeps (info : ImageInfo) : BodyKeeps (fwVerify info) := by
  intro hm r c
  unfold fwVerify
  dsimp only
  repeat' split
  all_goals exact ⟨⟨c.mem⟩, fun _ co => co⟩

theorem fwActivate_keeps : BodyKeeps fwActivate := by
  intro hm r c
  unfold fwActivate
  dsimp only
  split
  · exact c.answered rfl
  · split
    · exact c.answered rfl
    · split
      · exact ⟨c.keep _, fun _ co => co.keep _⟩
      · exact (c.keep _).answered rfl

/-! ### Mailbox rows -/

theorem spdmMessage_keeps (m : Mbx) : BodyKeeps (spdmMessage m) := fun _ _ c => ⟨⟨c.mem⟩, fun _ co => co⟩

theorem identityGet_keeps : BodyKeeps identityGet := fun _ _ c => ⟨⟨c.mem⟩, fun _ co => co⟩

/-! ### Memory commands -/

theorem benchEnter_keeps : BodyKeeps benchEnter := by
  intro hm r c
  unfold benchEnter
  repeat' split
  all_goals exact ⟨⟨c.mem⟩, fun _ co => co⟩

theorem benchStatus_keeps : BodyKeeps benchStatus := fun _ _ c => ⟨⟨c.mem⟩, fun _ co => co⟩

theorem benchOnly_answered {hm : HM} {f : HM × Reply} (c : Canonical hm) (hf : Answered f) : Answered (benchOnly hm f) := by
  unfold benchOnly
  split
  · exact hf
  · exact c.answered rfl

theorem candidatesGet_keeps (m : Mbx) : BodyKeeps (candidatesGet m) := fun _ _ c => ⟨⟨c.mem⟩, fun _ co => co⟩

theorem candidateClear_keeps : BodyKeeps candidateClear := by
  intro hm r c
  unfold candidateClear
  dsimp only
  repeat' split
  all_goals exact ⟨⟨c.mem⟩, fun _ co => co⟩

theorem memMargin_keeps (eyes : List (Nat × Nat)) : BodyKeeps (memMargin eyes) := by
  intro hm r c
  refine benchOnly_answered c ?_
  split
  · exact c.answered rfl
  · exact (c.keep _).answered rfl

theorem memTest_keeps (fails firstFail : Nat) : BodyKeeps (memTest fails firstFail) := by
  intro hm r c
  refine benchOnly_answered c ?_
  split
  · exact c.answered rfl
  · split
    · exact c.answered rfl
    · exact (c.keep _).answered rfl

theorem resourcesGet_keeps : BodyKeeps resourcesGet := by
  intro hm r c
  refine benchOnly_answered c ?_
  split <;> exact c.answered rfl

theorem verifyRepair_answered {hm : HM} (r : RAddr) (code : Nat) (ks : List Nat) (pass : Bool) (c : Canonical hm) :
    Answered (verifyRepair hm r code ks pass) := ⟨⟨c.mem⟩, fun _ co => co⟩

theorem hbmSppr_keeps (pass : Bool) : BodyKeeps (hbmSppr pass) := by
  intro hm r c
  refine benchOnly_answered c ?_
  split
  · exact c.answered rfl
  · split
    · exact c.answered rfl
    · exact verifyRepair_answered _ _ _ _ (c.keep _)

theorem hardRow_answered {hm : HM} (r : RAddr) (code : Nat) (pass : Bool) (c : Canonical hm) :
    Answered (hardRow hm r code pass) := ⟨⟨c.mem⟩, fun _ co => co⟩

theorem hbmHppr_keeps (pass : Bool) : BodyKeeps (hbmHppr pass) := by
  intro hm r c
  refine benchOnly_answered c ?_
  split
  · exact c.answered rfl
  · split
    · exact c.answered rfl
    · exact hardRow_answered _ _ _ (c.keep _)

theorem hbmLaneRemap_keeps (pass : Bool) : BodyKeeps (hbmLaneRemap pass) := by
  intro hm r c
  refine benchOnly_answered c ?_
  split
  · exact c.answered rfl
  · split
    · exact c.answered rfl
    · exact verifyRepair_answered _ _ _ _ (c.keep _)

theorem lpPpr_keeps (pass : Bool) : BodyKeeps (lpPpr pass) := by
  intro hm r c
  refine benchOnly_answered c ?_
  split
  · exact c.answered rfl
  · split
    · exact c.answered rfl
    · exact hardRow_answered _ _ _ c

/-! ### Object commands -/

theorem objectRegister_keeps (m : Mbx) : BodyKeeps (objectRegister m) := by
  intro hm r c
  unfold objectRegister
  dsimp only
  repeat' split
  all_goals exact ⟨⟨c.mem⟩, fun _ co => co⟩

theorem objectUpdate_keeps (m : Mbx) : BodyKeeps (objectUpdate m) := by
  intro hm r c
  unfold objectUpdate
  dsimp only
  repeat' split
  all_goals exact ⟨⟨c.mem⟩, fun _ co => co⟩

theorem objectRetire_keeps (m : Mbx) : BodyKeeps (objectRetire m) := by
  intro hm r c
  unfold objectRetire
  dsimp only
  repeat' split
  all_goals exact ⟨⟨c.mem⟩, fun _ co => co⟩

theorem objectQuery_keeps (m : Mbx) : BodyKeeps (objectQuery m) := by
  intro hm r c
  unfold objectQuery
  dsimp only
  repeat' split
  all_goals exact ⟨⟨c.mem⟩, fun _ co => co⟩

theorem memStatus_keeps : BodyKeeps memStatus := fun _ _ c => ⟨⟨c.mem⟩, fun _ co => co⟩

theorem slipQuery_keeps (m : Mbx) : BodyKeeps (slipQuery m) := by
  intro hm r c
  unfold slipQuery
  dsimp only
  repeat' split
  all_goals exact ⟨⟨c.mem⟩, fun _ co => co⟩

theorem ferryQuery_keeps (m : Mbx) : BodyKeeps (ferryQuery m) := by
  intro hm r c
  unfold ferryQuery
  dsimp only
  repeat' split
  all_goals exact ⟨⟨c.mem⟩, fun _ co => co⟩

theorem lockSet_keeps (m : Mbx) : BodyKeeps (lockSet m) := by
  intro hm r c
  unfold lockSet
  dsimp only
  repeat' split
  all_goals exact ⟨⟨c.mem⟩, fun _ co => co⟩

theorem lockClear_keeps (m : Mbx) : BodyKeeps (lockClear m) := by
  intro hm r c
  unfold lockClear
  dsimp only
  repeat' split
  all_goals exact ⟨⟨c.mem⟩, fun _ co => co⟩

theorem knotQuery_keeps (m : Mbx) : BodyKeeps (knotQuery m) := by
  intro hm r c
  unfold knotQuery
  dsimp only
  repeat' split
  all_goals exact ⟨⟨c.mem⟩, fun _ co => co⟩

theorem poolCreate_keeps (m : Mbx) : BodyKeeps (poolCreate m) := by
  intro hm r c
  unfold poolCreate
  extract_lets +onlyGivenNames h b p id x
  split
  · exact c.answered rfl
  · split
    · exact c.answered rfl
    · split
      · exact c.answered rfl
      · split
        · exact c.answered rfl
        · exact ((cohWrite_canonical _ _ c).keep _).answered rfl

theorem poolDestroy_keeps (m : Mbx) : BodyKeeps (poolDestroy m) := by
  intro hm r c
  unfold poolDestroy
  dsimp only
  split
  · exact (destroyPool_canonical _ _ c).answered rfl
  · exact c.answered rfl

theorem poolQuery_keeps (m : Mbx) : BodyKeeps (poolQuery m) := by
  intro hm r c
  unfold poolQuery
  dsimp only
  repeat' split
  all_goals exact ⟨⟨c.mem⟩, fun _ co => co⟩

theorem knotWaitStats_keeps (m : Mbx) : BodyKeeps (knotWaitStats m) := by
  intro hm r c
  unfold knotWaitStats
  dsimp only
  repeat' split
  all_goals exact ⟨⟨c.mem⟩, fun _ co => co⟩

theorem ledgerQuery_keeps (m : Mbx) : BodyKeeps (ledgerQuery m) := by
  intro hm r c
  unfold ledgerQuery
  dsimp only
  repeat' split
  all_goals exact ⟨⟨c.mem⟩, fun _ co => co⟩

/-! ### Rows -/

theorem canonical_ite {p : Prop} [Decidable p] {x y : HM} (hx : Canonical x) (hy : Canonical y) : Canonical (if p then x else y) := by
  split
  · exact hx
  · exact hy

/-- What Dormant entry leaves of the byte memory (R174). -/
theorem dormantEntry_canonical {hm : HM} (c : Canonical hm) : Canonical (dormantEntry hm.1,
    if (dormantEntry hm.1).start.st = PowerSt.dormant ∧
    hm.1.start.st ≠ PowerSt.dormant then dormantBytes (dormantEntry hm.1) hm.2 else hm.2) := by
  rw [canonical_mk]
  split
  · exact dormantBytes_wf _ c.mem
  · exact c.mem

/-- The outcome of a row keeps the canonical form. -/
def RowKeeps (s : State) (o : Host.Outcome State Fault Refusal) : Prop := Memory.wf s.mem → ∀ t, o = .next t → Memory.wf t.mem

/-- A row on the hardware alone ends with the byte memory as it was. -/
theorem RowKeeps.of_mem {s t : State} {o : Host.Outcome State Fault Refusal} (ht : o = .next t) (hm : t.mem = s.mem) : RowKeeps s o := by
  intro h u hu
  obtain rfl := Host.Outcome.next.inj (ht.symm.trans hu)
  rwa [hm]

theorem onAll_keeps {s : State} {f : HM → HM} (hf : ∀ o, Canonical o → Canonical (f o)) : RowKeeps s (onAll s f) := by
  intro h t ht
  obtain rfl := Host.Outcome.next.inj ht
  exact (hf (clearSent s.hw, s.mem) ⟨h⟩).mem

theorem served_keeps {s : State} {m : Mbx} {tag code : Nat} {f : HM → Req → HM × Reply} (hf : BodyKeeps f) :
    RowKeeps s (onAll s fun hm => serve hm m tag code f) :=
  onAll_keeps fun _ c => serve_canonical _ _ _ hf c

theorem waits_keeps {s : State} {f : HM → HM} (hf : ∀ o, Canonical o → Canonical (f o)) : RowKeeps s (onAll s (waiting f)) :=
  onAll_keeps fun _ c => waiting_canonical hf c

theorem ferries_keeps {s : State} {slip : Nat} {seq : W32} {f : HM → HM} (hf : ∀ o, Canonical o → Canonical (f o)) :
    RowKeeps s (onAll s (ferrying slip seq f)) :=
  onAll_keeps fun _ c => ferrying_canonical _ _ hf c

/-! ### The rows with effects of their own on the byte memory -/

theorem execRegisterWrite_keeps {s : State} {t : RegPlace} {w : Half} {v : Nat} : RowKeeps s (execRegisterWrite t w v s) :=
  waits_keeps fun _ co => registerWrite_canonical _ _ _ co

theorem execSlpXinvSync_keeps {s : State} {n : Nat} : RowKeeps s (execSlpXinvSync n s) :=
  waits_keeps fun _ co => xinvSync_canonical _ co

theorem execKntSignal_keeps {s : State} {p knot : Nat} {v : W64} : RowKeeps s (execKntSignal p knot v s) :=
  onAll_keeps fun _ co => settle_canonical (co.keep _)

theorem execKntValue_keeps {s : State} {hart : HartPoint} {knot : Nat} : RowKeeps s (execKntValue hart knot s) :=
  waits_keeps fun _ co => kntValue_canonical _ _ co

theorem execHartLoad_keeps {s : State} {a : HartAccess} : RowKeeps s (execHartLoad a s) :=
  waits_keeps fun _ co => hartLoad_canonical _ co

theorem execHartStore_keeps {s : State} {a : HartAccess} {data : List Byte} : RowKeeps s (execHartStore a data s) :=
  waits_keeps fun _ co => hartStore_canonical _ _ co

theorem execHartFetch_keeps {s : State} {a : HartAccess} : RowKeeps s (execHartFetch a s) :=
  waits_keeps fun _ co => hartFetch_canonical _ co

theorem execAmo_keeps {s : State} {a : HartAccess} {o : AmoOp} {operand compare : Nat} : RowKeeps s (execAmo a o operand compare s) :=
  waits_keeps fun _ co => hartAmo_canonical _ _ _ _ co

theorem execLr_keeps {s : State} {a : HartAccess} : RowKeeps s (execLr a s) :=
  waits_keeps fun _ co => hartLr_canonical _ co

theorem execSc_keeps {s : State} {a : HartAccess} {data : List Byte} : RowKeeps s (execSc a data s) :=
  waits_keeps fun _ co => hartSc_canonical _ _ co

theorem execFence_keeps {s : State} {hart va sets : Nat} : RowKeeps s (execFence hart va sets s) :=
  waits_keeps fun _ co => hartFence_canonical _ _ _ co

theorem execYcfence_keeps {s : State} {hart : HartPoint} {v : Nat} : RowKeeps s (execYcfence hart v s) :=
  waits_keeps fun _ co => ycfence_canonical _ _ _ co

theorem execStop_keeps {s : State} {hart : Nat} : RowKeeps s (execStop hart s) :=
  waits_keeps fun _ co => hartStop_canonical _ co

theorem execWalk_keeps {s : State} {g : Nat} {u : Upset} : RowKeeps s (execWalk g u s) :=
  waits_keeps fun _ co => walkTurn_canonical _ _ co

theorem execBoltMissFill_keeps {s : State} {slip : Nat} {seq : W32} : RowKeeps s (execBoltMissFill slip seq s) :=
  waits_keeps fun _ co => missFill_canonical _ _ co

theorem execDescriptorComplete_keeps {s : State} {slip : Nat} : RowKeeps s (execDescriptorComplete slip s) :=
  waits_keeps fun _ co => settle_canonical (completeNext_canonical _ co)

theorem execChannelHalt_keeps {s : State} {slip : Nat} {seq : W32} {addr : Nat} : RowKeeps s (execChannelHalt slip seq addr s) :=
  onAll_keeps fun _ co => channelHalt_canonical _ _ _ co

theorem execMove_keeps {s : State} {slip : Nat} {seq : W32} {n : Nat} : RowKeeps s (execMove slip seq n s) :=
  ferries_keeps fun _ co => moveStep_canonical _ _ _ _ co

theorem execFill_keeps {s : State} {slip : Nat} {seq : W32} {n : Nat} : RowKeeps s (execFill slip seq n s) :=
  ferries_keeps fun _ co => moveStep_canonical _ _ _ _ co

theorem execBoltLoad_keeps {s : State} {slip : Nat} {seq : W32} : RowKeeps s (execBoltLoad slip seq s) :=
  ferries_keeps fun _ co => boltStep_canonical _ _ _ co

theorem execBoltStore_keeps {s : State} {slip : Nat} {seq : W32} : RowKeeps s (execBoltStore slip seq s) :=
  ferries_keeps fun _ co => boltStep_canonical _ _ _ co

theorem execBoltMove_keeps {s : State} {slip : Nat} {seq : W32} : RowKeeps s (execBoltMove slip seq s) :=
  ferries_keeps fun _ co => boltStep_canonical _ _ _ co

theorem execBoltCopyUp_keeps {s : State} {slip : Nat} {seq : W32} : RowKeeps s (execBoltCopyUp slip seq s) :=
  ferries_keeps fun _ co => boltStep_canonical _ _ _ co

theorem execBoltClean_keeps {s : State} {slip : Nat} {seq : W32} : RowKeeps s (execBoltClean slip seq s) :=
  ferries_keeps fun _ co => boltStep_canonical _ _ _ co

theorem execBoltDrop_keeps {s : State} {slip : Nat} {seq : W32} : RowKeeps s (execBoltDrop slip seq s) :=
  ferries_keeps fun _ co => boltStep_canonical _ _ _ co

theorem execBoltTakeRetry_keeps {s : State} {slip : Nat} {seq : W32} : RowKeeps s (execBoltTakeRetry slip seq s) :=
  ferries_keeps fun _ co => boltRetry_canonical _ _ co

theorem execBoltWait_keeps {s : State} {slip : Nat} {seq : W32} : RowKeeps s (execBoltWait slip seq s) :=
  ferries_keeps fun _ co => boltGiveUp_canonical _ _ co

theorem execAtomic_keeps {s : State} {slip : Nat} {seq : W32} : RowKeeps s (execAtomic slip seq s) :=
  ferries_keeps fun _ co => atomicDesc_canonical _ _ co

theorem execWeave_keeps {s : State} {slip : Nat} {seq : W32} : RowKeeps s (execWeave slip seq s) :=
  onAll_keeps fun _ co => weaveDesc_canonical _ _ co

theorem execRowEnd_keeps {s : State} {slip : Nat} {seq : W32} {parity : Bool} : RowKeeps s (execRowEnd slip seq parity s) :=
  onAll_keeps fun _ co => settle_canonical (rowEnd_canonical _ _ _ co)

theorem execKnotInit_keeps {s : State} {slip : Nat} {seq : W32} : RowKeeps s (execKnotInit slip seq s) :=
  onAll_keeps fun _ co => settle_canonical (co.keep _)

theorem execKnotSignal_keeps {s : State} {slip : Nat} {seq : W32} {ans : KnotAns} : RowKeeps s (execKnotSignal slip seq ans s) :=
  onAll_keeps fun _ co => settle_canonical (co.keep _)

theorem execKnotWait_keeps {s : State} {slip : Nat} {seq : W32} {ans : KnotAns} : RowKeeps s (execKnotWait slip seq ans s) :=
  onAll_keeps fun _ co => canonical_ite (settle_canonical (co.keep _)) (settle_canonical (co.keep _))

theorem execKnotTimeout_keeps {s : State} {slip : Nat} {seq : W32} : RowKeeps s (execKnotTimeout slip seq s) :=
  onAll_keeps fun _ co => settle_canonical (co.keep _)

theorem execRemoteWaitRetry_keeps {s : State} {slip : Nat} {seq : W32} {ans : KnotAns} : RowKeeps s (execRemoteWaitRetry slip seq ans s) :=
  onAll_keeps fun _ co => settle_canonical (co.keep _)

theorem execPoolAlloc_keeps {s : State} {slip : Nat} {seq : W32} : RowKeeps s (execPoolAlloc slip seq s) :=
  waits_keeps fun _ co => settle_canonical (onDescM_canonical _ _ _ co fun _ =>
    poolAlloc_canonical _ _ co)

theorem execPoolFree_keeps {s : State} {slip : Nat} {seq : W32} : RowKeeps s (execPoolFree slip seq s) :=
  waits_keeps fun _ co => settle_canonical (onDescM_canonical _ _ _ co fun _ =>
    poolFree_canonical _ _ co)

theorem execPoolEmpty_keeps {s : State} {slip : Nat} {seq : W32} : RowKeeps s (execPoolEmpty slip seq s) :=
  waits_keeps fun _ co => poolTimeout_canonical _ _ _ _ co

theorem execLedgerInit_keeps {s : State} {slip : Nat} {seq : W32} : RowKeeps s (execLedgerInit slip seq s) :=
  waits_keeps fun _ co => settle_canonical (onDescM_canonical _ _ _ co fun _ =>
    ledgerDesc_canonical _ _ co)

theorem execLedgerExtend_keeps {s : State} {slip : Nat} {seq : W32} : RowKeeps s (execLedgerExtend slip seq s) :=
  waits_keeps fun _ co => settle_canonical (onDescM_canonical _ _ _ co fun _ =>
    ledgerDesc_canonical _ _ co)

theorem execLedgerCommit_keeps {s : State} {slip : Nat} {seq : W32} : RowKeeps s (execLedgerCommit slip seq s) :=
  waits_keeps fun _ co => settle_canonical (onDescM_canonical _ _ _ co fun _ =>
    ledgerDesc_canonical _ _ co)

theorem execLedgerRollback_keeps {s : State} {slip : Nat} {seq : W32} : RowKeeps s (execLedgerRollback slip seq s) :=
  waits_keeps fun _ co => settle_canonical (onDescM_canonical _ _ _ co fun _ =>
    ledgerDesc_canonical _ _ co)

theorem execLedgerTrim_keeps {s : State} {slip : Nat} {seq : W32} : RowKeeps s (execLedgerTrim slip seq s) :=
  waits_keeps fun _ co => settle_canonical (onDescM_canonical _ _ _ co fun _ =>
    ledgerDesc_canonical _ _ co)

theorem execLedgerExtendTimeout_keeps {s : State} {slip : Nat} {seq : W32} : RowKeeps s (execLedgerExtendTimeout slip seq s) :=
  waits_keeps fun _ co => poolTimeout_canonical _ _ _ _ co

theorem execReadShared_keeps {s : State} {agent : Agent} {part addr : Nat} : RowKeeps s (execReadShared agent part addr s) :=
  onAll_keeps fun _ co => homeReq_canonical _ _ _ _ _ co

theorem execReadOwn_keeps {s : State} {agent : Agent} {part addr : Nat} : RowKeeps s (execReadOwn agent part addr s) :=
  onAll_keeps fun _ co => homeReq_canonical _ _ _ _ _ co

theorem execReadOnce_keeps {s : State} {agent : Agent} {part addr : Nat} : RowKeeps s (execReadOnce agent part addr s) :=
  onAll_keeps fun _ co => homeReq_canonical _ _ _ _ _ co

theorem execWriteLine_keeps {s : State} {agent : Agent} {part addr : Nat} {data : List Byte} {poison : Bool} :
    RowKeeps s (execWriteLine agent part addr data poison s) :=
  onAll_keeps fun _ co => canonical_ite co (homeReq_canonical _ _ _ _ _ co)

theorem execWriteBack_keeps {s : State} {agent : Agent} {addr : Nat} {data : List Byte} {poison : Bool} :
    RowKeeps s (execWriteBack agent addr data poison s) :=
  onAll_keeps fun _ co => canonical_ite co (homeReq_canonical _ _ _ _ _ co)

theorem execAtomicHome_keeps {s : State} {agent : Agent} {part addr op size : Nat} {operand compare : Nat} :
    RowKeeps s (execAtomicHome agent part addr op size operand compare s) :=
  onAll_keeps fun _ co => homeReq_canonical _ _ _ _ _ co

theorem execAtomicMem_keeps {s : State} {part addr op size : Nat} {operand compare : Nat} :
    RowKeeps s (execAtomicMem part addr op size operand compare s) :=
  onAll_keeps fun _ co => homeReq_canonical _ _ _ _ _ co

theorem execSnp_keeps {s : State} {agent : Agent} {addr : Nat} {kind : SnpKind} : RowKeeps s (execSnp agent addr kind s) :=
  onAll_keeps fun _ co => snoop_canonical _ _ _ co

theorem execDrainComplete_keeps {s : State} {i : Island} : RowKeeps s (execDrainComplete i s) :=
  onAll_keeps fun _ co => drainComplete_canonical _ co

theorem execGateAbandon_keeps {s : State} {i : Island} : RowKeeps s (execGateAbandon i s) :=
  onAll_keeps fun _ co => gateAbandon_canonical _ co

theorem execStraitsOpen_keeps {s : State} {i : Island} : RowKeeps s (execStraitsOpen i s) :=
  onAll_keeps fun _ co => straitsOpen_canonical _ co

theorem execCp_keeps {s : State} {cause : Nat} : RowKeeps s (execCp cause s) :=
  onAll_keeps fun _ co => coldReset_canonical _ co

theorem execBootResources_keeps {s : State} {vector : Nat} : RowKeeps s (execBootResources vector s) :=
  onAll_keeps fun _ co => bootResources_canonical _ co

theorem execBackgroundScrub_keeps {s : State} {k : Nat} {bad : Option Nat} : RowKeeps s (execBackgroundScrub k bad s) :=
  onAll_keeps fun _ co => backgroundScrub_canonical _ _ co

theorem execScrubComplete_keeps {s : State} {seq : Nat} {bad : Option (Nat × Nat × Nat)} : RowKeeps s (execScrubComplete seq bad s) :=
  onAll_keeps fun _ co => scrubComplete_canonical _ _ co

theorem execWp_keeps {s : State} {cause : Nat} : RowKeeps s (execWp cause s) :=
  onAll_keeps fun _ co => warmReset_canonical _ co

theorem execWpZeroised_keeps {s : State} : RowKeeps s (execWpZeroised s) :=
  onAll_keeps fun _ co => wpZeroised_canonical co

theorem execDormantEntry_keeps {s : State} : RowKeeps s (execDormantEntry s) :=
  onAll_keeps fun _ co => dormantEntry_canonical co

theorem execPwrGoodFall_keeps {s : State} : RowKeeps s (execPwrGoodFall s) :=
  onAll_keeps fun _ _ => powerOff_canonical _

theorem execCauseOfDoubt_keeps {s : State} {c : DoubtCause} : RowKeeps s (execCauseOfDoubt c s) :=
  onAll_keeps fun _ co => doubtAll_canonical _ co

theorem execAdmitted_keeps {s : State} {c : Cw} {pos tag : Nat} {digest : List Byte} : RowKeeps s (execAdmitted c pos tag digest s) :=
  onAll_keeps fun _ co => onFrameM_canonical _ _ _ _ (fun _ co => onAdmitted_canonical _ _ _ _ co) co

theorem execDeparting_keeps {s : State} {c : Cw} {pos : Nat} : RowKeeps s (execDeparting c pos s) :=
  onAll_keeps fun _ co => onFrameM_canonical _ _ _ _ (fun _ co => onDeparting_canonical _ _ co) co

theorem execDeparted_keeps {s : State} {c : Cw} {pos : Nat} : RowKeeps s (execDeparted c pos s) :=
  onAll_keeps fun _ co => onFrameM_canonical _ _ _ _ (fun _ co => onDeparted_canonical _ _ co) co

theorem execRemoved_keeps {s : State} {c : Cw} {pos reason : Nat} : RowKeeps s (execRemoved c pos reason s) :=
  onAll_keeps fun _ co => onFrameM_canonical _ _ _ _ (fun _ co => onRemoved_canonical _ _ _ co) co

theorem execAbandon_keeps {s : State} {c : Cw} : RowKeeps s (execAbandon c s) :=
  onAll_keeps fun _ co => onFrameM_canonical _ _ _ _ (fun _ co => onAbandon_canonical _ co) co

theorem execFenced_keeps {s : State} {c : Cw} : RowKeeps s (execFenced c s) :=
  onAll_keeps fun _ co => onFrameM_canonical _ _ _ _ (fun _ co => onFenced_canonical _ co) co

theorem execMemberAbsent_keeps {s : State} {pos : Nat} : RowKeeps s (execMemberAbsent pos s) :=
  onAll_keeps fun _ co => memberAbsent_canonical _ co

theorem execReattest_keeps {s : State} {pos : Nat} {a : Attest} : RowKeeps s (execReattest pos a s) :=
  onAll_keeps fun _ co => reattest_canonical _ _ co

theorem execSegment_keeps {s : State} {port stream gen counter : Nat} {tagOk : Bool} {msgs : List Msg} :
    RowKeeps s (execSegment port stream gen counter tagOk msgs s) :=
  onAll_keeps fun _ co => onSegment_canonical _ _ _ _ _ _ co

theorem execInboundRequest_keeps {s : State} {func : Nat} {stream : Option Nat} {addr : Nat} {req : InReq} :
    RowKeeps s (execInboundRequest func stream addr req s) :=
  waits_keeps fun _ co => inbound_canonical _ _ _ _ (co.keep _)

theorem execReservationTimeout_keeps {s : State} {hart : Nat} : RowKeeps s (execReservationTimeout hart s) :=
  onAll_keeps fun _ co => resvTimeout_canonical _ co

theorem execWritePart_keeps {s : State} {agent : Agent} {part addr : Nat} {data : List Byte} {mask : W64} {poison : Bool} :
    RowKeeps s (execWritePart agent part addr data mask poison s) :=
  onAll_keeps fun _ co => canonical_ite co (homeReq_canonical _ _ _ _ _ co)

/-- Every command keeps the canonical form: those on the hardware alone leave the byte memory as it is. -/
theorem exec_keeps (c : Instr) (s : State) : RowKeeps s (exec c s) := by
  cases c
  case mbxDoorbell | standIn | acceptance | acceptedInterim | commandTimeout | responsePost | mbxRspAck | keeperFrame | mctpControl |
    pldmRequest | spdmRequest | lockFormed | pinSwitchWindowEnd | pinForced | fqHead | fqOvfTake | slpDoorbell | slpDone | slpRing |
    enable | disable | slipDisabled | restart | restartSkip | all | asid | vmid | descriptorPause | seteipnumLe | ymhartstart | mnret |
    descriptorFetch | staging | dispatch | barrier | nop | passStart | bankSwap | drain | passCut | map | reduce | softmax | norm |
    select | quant | dequant | sample | rowCut | verify | straitMessage | straitHandshakeTimeout | ghostDiscard | close | gate |
    wakeRequested | syncMarker | tbRefLost | tbRefRestored | keepAliveCheck | rootPortsConfigured | trainingStart | trainingStep |
    tierOpened | coresReleased | ready | mr | lockstepMismatch | craluWatchdog | mrFail | kr | idleEntry | drowseEntry | exitTrigger |
    dormantExit | rateLimitFlush | logCopyFail | logLost | reconciliation | patrolRead | metaUe | recalibration | nearHot | farHot |
    targetedRefresh | railSample | protectiveRelease | droop | thermalSample | prochotExt | budgetLoop | poolEpochStart | poolEpoch |
    leaseEnd | presenceTick | presence | join | joinAnswer | delayReq | delayRsp | timeTick | time | timeFrameTimeout | admitFrame |
    causewayPortBreak | restored | role | roleSuccession | route | routeActivation | set | censusReq | censusSample |
    censusData | censusComplete | poolTelemetry | poolGrant | wake | linkTrained | linkKeyExchange | flit | nak | ack | linkDown |
    linkRetrainAttempt | generationChange | devError | hotplugAdd | slotPowerFault | hotplugRemove | slotButton | ideFail | cxlPortLost |
    i3cHotJoin | moduleAttention | irqIn | wakeN | timePulse | kaBtnRelease | kaBtnHold | tamper | vkaFall | vkaReturn | cellFault |
    rtcAlarm | rtcCopy | causewayIslandRunning | ownJoinSent | idurrumTrainingBegins | causewayCarrier | causewayFrameUnprocessed |
    retrainComplete | fenceOrderedSet | rootPortLinkUp | rootPortLinkDown | ideKeyRefresh | dynamicAddressAssignment | tapInstruction |
    droopEnd | prochotExtRelease | cellBelowHold | chargePhase | tamperDeasserted | busIdle | neutralWindowOpen |
    refresh => exact .of_mem rfl rfl
  case versionGet => exact served_keeps (versionGet_keeps _)
  case sessionOpen => exact onAll_keeps fun _ co => sessionOpen_canonical _ _ co
  case sessionClose => exact onAll_keeps fun _ co => sessionClose_canonical _ _ co
  case echo => exact served_keeps fun _ _ c => c.answered rfl
  case outcomeGet => exact served_keeps (outcomeGet_keeps _)
  case spdmMessage => exact served_keeps (spdmMessage_keeps _)
  case devReportGet => exact served_keeps (devReportGet_keeps _ _ _)
  case devAccept => exact served_keeps (devAccept_keeps _)
  case identityGet => exact served_keeps identityGet_keeps
  case partCreate => exact served_keeps partCreate_keeps
  case partDestroy => exact served_keeps partDestroy_keeps
  case partAssign => exact served_keeps (partAssign_keeps _)
  case partRelease => exact served_keeps (partRelease_keeps _)
  case partQuery => exact served_keeps (partQuery_keeps _)
  case partConfig => exact served_keeps (partConfig_keeps _)
  case waymaskSet => exact served_keeps (waymaskSet_keeps _)
  case scrubReportGet => exact served_keeps (scrubReport_keeps _)
  case shelfSplitSet => exact served_keeps shelfSplitSet_keeps
  case objectRegister => exact served_keeps (objectRegister_keeps _)
  case objectUpdate => exact served_keeps (objectUpdate_keeps _)
  case objectRetire => exact served_keeps (objectRetire_keeps _)
  case objectQuery => exact served_keeps (objectQuery_keeps _)
  case memStatus => exact served_keeps memStatus_keeps
  case slipQuery => exact served_keeps (slipQuery_keeps _)
  case ferryQuery => exact served_keeps (ferryQuery_keeps _)
  case lockGroupSet => exact served_keeps (lockSet_keeps _)
  case lockGroupClear => exact served_keeps (lockClear_keeps _)
  case knotQuery => exact served_keeps (knotQuery_keeps _)
  case poolCreate => exact served_keeps (poolCreate_keeps _)
  case poolDestroy => exact served_keeps (poolDestroy_keeps _)
  case poolQuery => exact served_keeps (poolQuery_keeps _)
  case knotWaitStats => exact served_keeps (knotWaitStats_keeps _)
  case ledgerQuery => exact served_keeps (ledgerQuery_keeps _)
  case powerBudgetSet => exact served_keeps powerBudgetSet_keeps
  case powerBoundsSet => exact served_keeps (powerBoundsSet_keeps _)
  case railCapSet => exact served_keeps railCapSet_keeps
  case thermalSet => exact served_keeps thermalSet_keeps
  case poolConfig => exact served_keeps poolConfig_keeps
  case powerTelemetry => exact served_keeps (powerTelemetry_keeps _)
  case powerStatus => exact served_keeps powerStatus_keeps
  case fenceStatus => exact served_keeps (fenceStatus_keeps _)
  case logRead => exact served_keeps (logRead_keeps _)
  case logRelease => exact served_keeps logRelease_keeps
  case faultQueueRead => exact served_keeps (faultQueueRead_keeps _)
  case unitReconcile => exact served_keeps (unitReconcile_keeps _ _)
  case scrubRetry => exact served_keeps (scrubRetry_keeps _)
  case logResync => exact served_keeps (logResync_keeps _)
  case lastWordClear => exact served_keeps lastWordClear_keeps
  case bucketSet => exact served_keeps bucketSet_keeps
  case bucketGet => exact served_keeps (bucketGet_keeps _)
  case patrolSet => exact served_keeps patrolSet_keeps
  case poisonQuery => exact served_keeps (poisonQuery_keeps _)
  case poisonClear => exact served_keeps (poisonClear_keeps _)
  case archStatus => exact served_keeps (archStatus_keeps _)
  case archFound => exact served_keeps archFound_keeps
  case archJoin => exact served_keeps archJoin_keeps
  case archAdmit => exact served_keeps archAdmit_keeps
  case archPolicySet => exact served_keeps archPolicySet_keeps
  case archDepart => exact served_keeps archDepart_keeps
  case archRoleSet => exact served_keeps archRoleSet_keeps
  case archSetBind => exact served_keeps archSetBind_keeps
  case archSetUnbind => exact served_keeps archSetUnbind_keeps
  case archCensus => exact served_keeps archCensus_keeps
  case archCensusRead => exact served_keeps archCensusRead_keeps
  case linkControl => exact served_keeps linkControl_keeps
  case portStatus => exact served_keeps portStatus_keeps
  case portConfig => exact served_keeps portConfig_keeps
  case slotControl => exact served_keeps slotControl_keeps
  case devAssign => exact served_keeps (devAssign_keeps _)
  case hdmDecoderSet => exact served_keeps hdmDecoderSet_keeps
  case pinSet => exact served_keeps (pinSet_keeps _)
  case pinStatus => exact served_keeps pinStatus_keeps
  case rtcSet => exact served_keeps rtcSet_keeps
  case rtcAlarmSet => exact served_keeps rtcAlarmSet_keeps
  case chargerSet => exact served_keeps chargerSet_keeps
  case shipModeArm => exact served_keeps (shipMode_keeps _)
  case shipModeDisarm => exact served_keeps (shipMode_keeps _)
  case tamperConfig => exact served_keeps tamperConfig_keeps
  case kaStatus => exact served_keeps kaStatus_keeps
  case benchEnter => exact served_keeps benchEnter_keeps
  case benchStatus => exact served_keeps benchStatus_keeps
  case repairCandidatesGet => exact served_keeps (candidatesGet_keeps _)
  case repairCandidateClear => exact served_keeps candidateClear_keeps
  case memMargin => exact served_keeps (memMargin_keeps _)
  case memTest => exact served_keeps (memTest_keeps _ _)
  case repairResourcesGet => exact served_keeps resourcesGet_keeps
  case hbmSppr => exact served_keeps (hbmSppr_keeps _)
  case hbmHppr => exact served_keeps (hbmHppr_keeps _)
  case hbmLaneRemap => exact served_keeps (hbmLaneRemap_keeps _)
  case lpPpr => exact served_keeps (lpPpr_keeps _)
  case partReset => exact served_keeps (partResetCmd_keeps _)
  case unitReset => exact served_keeps unitResetCmd_keeps
  case mgmtRestart => exact served_keeps mgmtRestart_keeps
  case pkgReset => exact served_keeps (pkgReset_keeps _)
  case powerStateSet => exact onAll_keeps fun _ co => acceptDormant_canonical _ _ (serve_canonical _ _ _ powerStateSet_keeps co)
  case powerStateConfig => exact served_keeps powerStateConfig_keeps
  case wakeReportGet => exact served_keeps wakeReportGet_keeps
  case keepaliveAck => exact served_keeps keepaliveAck_keeps
  case trainingCacheClear => exact served_keeps cacheClear_keeps
  case fwVersion => exact served_keeps fwVersion_keeps
  case fwWrite => exact served_keeps fwWrite_keeps
  case fwVerify => exact served_keeps (fwVerify_keeps _)
  case fwActivate => exact served_keeps fwActivate_keeps
  case registerWrite => exact execRegisterWrite_keeps
  case slpXinvSync => exact execSlpXinvSync_keeps
  case kntSignal => exact execKntSignal_keeps
  case kntValue => exact execKntValue_keeps
  case hartLoad => exact execHartLoad_keeps
  case hartStore => exact execHartStore_keeps
  case hartFetch => exact execHartFetch_keeps
  case amo => exact execAmo_keeps
  case lr => exact execLr_keeps
  case sc => exact execSc_keeps
  case fence => exact execFence_keeps
  case ycfence => exact execYcfence_keeps
  case stop => exact execStop_keeps
  case walk => exact execWalk_keeps
  case boltMissFill => exact execBoltMissFill_keeps
  case descriptorComplete => exact execDescriptorComplete_keeps
  case channelHalt => exact execChannelHalt_keeps
  case move => exact execMove_keeps
  case fill => exact execFill_keeps
  case boltLoad => exact execBoltLoad_keeps
  case boltStore => exact execBoltStore_keeps
  case boltMove => exact execBoltMove_keeps
  case boltCopyUp => exact execBoltCopyUp_keeps
  case boltClean => exact execBoltClean_keeps
  case boltDrop => exact execBoltDrop_keeps
  case boltTakeRetry => exact execBoltTakeRetry_keeps
  case boltWait => exact execBoltWait_keeps
  case atomic => exact execAtomic_keeps
  case weave => exact execWeave_keeps
  case rowEnd => exact execRowEnd_keeps
  case knotInit => exact execKnotInit_keeps
  case knotSignal => exact execKnotSignal_keeps
  case knotWait => exact execKnotWait_keeps
  case knotTimeout => exact execKnotTimeout_keeps
  case remoteWaitRetry => exact execRemoteWaitRetry_keeps
  case poolAlloc => exact execPoolAlloc_keeps
  case poolFree => exact execPoolFree_keeps
  case poolEmpty => exact execPoolEmpty_keeps
  case ledgerInit => exact execLedgerInit_keeps
  case ledgerExtend => exact execLedgerExtend_keeps
  case ledgerCommit => exact execLedgerCommit_keeps
  case ledgerRollback => exact execLedgerRollback_keeps
  case ledgerTrim => exact execLedgerTrim_keeps
  case ledgerExtendTimeout => exact execLedgerExtendTimeout_keeps
  case readShared => exact execReadShared_keeps
  case readOwn => exact execReadOwn_keeps
  case readOnce => exact execReadOnce_keeps
  case writeLine => exact execWriteLine_keeps
  case writeBack => exact execWriteBack_keeps
  case atomicHome => exact execAtomicHome_keeps
  case atomicMem => exact execAtomicMem_keeps
  case snp => exact execSnp_keeps
  case drainComplete => exact execDrainComplete_keeps
  case gateAbandon => exact execGateAbandon_keeps
  case straitsOpen => exact execStraitsOpen_keeps
  case cp => exact execCp_keeps
  case bootResources => exact execBootResources_keeps
  case backgroundScrub => exact execBackgroundScrub_keeps
  case scrubComplete => exact execScrubComplete_keeps
  case wp => exact execWp_keeps
  case wpZeroised => exact execWpZeroised_keeps
  case dormantEntry => exact execDormantEntry_keeps
  case pwrGoodFall => exact execPwrGoodFall_keeps
  case causeOfDoubt => exact execCauseOfDoubt_keeps
  case admitted => exact execAdmitted_keeps
  case departing => exact execDeparting_keeps
  case departed => exact execDeparted_keeps
  case removed => exact execRemoved_keeps
  case abandon => exact execAbandon_keeps
  case fenced => exact execFenced_keeps
  case memberAbsent => exact execMemberAbsent_keeps
  case reattest => exact execReattest_keeps
  case segment => exact execSegment_keeps
  case inboundRequest => exact execInboundRequest_keeps
  case reservationTimeout => exact execReservationTimeout_keeps
  case writePart => exact execWritePart_keeps
  -- BREAK is left: its name is a word of Lean's, so no `case` names it.
  exact .of_mem rfl rfl

/-- Settles O4: a step idles or runs the command at the front of its queue. -/
theorem memoryStaysCanonical : Obligations.MemoryStaysCanonical := by
  intro s t hwf ht
  unfold step at ht
  split at ht
  next => exact Host.Outcome.next.inj ht ▸ hwf
  next c cs _ => exact exec_keeps c { s with pending := cs } hwf t ht

end Sys2Proof.Machine
end

/-! PROOFS. How a row's equation gives its outcome: what its effect is on the hardware `g` without the frames of the command before is rewritten
to what the statement writes, and the command's own arm of `exec` holds by definition. -/
section
namespace Sys2Proof.Machine

section
variable {s : State} {o : Host.Outcome State Fault Refusal}

/-- A row over the hardware, with the end of its step. -/
theorem row_ended {g e : Hw} (he : g = e) (ho : o = .next (s.ended g)) : o = .next (s.ended e) := he ▸ ho

/-- A row over the hardware that posts nothing and delivers no interrupt. -/
theorem row_gives {g e : Hw} (he : g = e) (hp : e.arch.posted = []) (hw : e.start.irqWake = false) (ho : o = .next (s.ended g)) :
    o = .next (s.withHw e) := by
  rw [ho, he, State.ended, stepEnd_nil hp hw]

/-- A row over the hardware that does nothing: what the command before had shown is gone. -/
theorem row_idle {g : Hw} (he : g = clearSent s.hw) (ho : o = .next (s.ended g)) : o = .next (s.withHw (clearSent s.hw)) :=
  row_gives he rfl rfl ho

/-- A row over the hardware and the byte memory, with the end of its step. -/
theorem row_endedAll {g e : HM} (he : g = e) (ho : o = .next (s.withHm (stepEnd g.1, g.2))) : o = .next (s.withHm (stepEnd e.1, e.2)) :=
  he ▸ ho

/-- A row over the hardware and the byte memory that leaves the bytes alone, with the end of its step. -/
theorem row_endedHw {g : HM} {e : Hw} (he : g = (e, s.mem)) (ho : o = .next (s.withHm (stepEnd g.1, g.2))) : o = .next (s.ended e) := by
  rw [ho, he]

/-- A row over the hardware and the byte memory that posts nothing and delivers no interrupt. -/
theorem row_givesAll {g e : HM} (he : g = e) (hp : e.1.arch.posted = []) (hw : e.1.start.irqWake = false)
    (ho : o = .next (s.withHm (stepEnd g.1, g.2))) : o = .next (s.withHm e) := by
  rw [ho, he, stepEnd_nil hp hw]

end

/-! ### The row of a served command, by the form of its answer -/

section
variable {s : State} {h : Hw} {hm : HM} {m : Mbx} {tag code : Nat} {r : Req} {f : HM → Req → HM × Reply} {p : List Byte}

/-- A served query, with the end of its step. -/
theorem onAll_serve_answer {e : Hw} (hh : h = clearSent s.hw) (hs : Serving s m tag code r) (hf : f (h, s.mem) r = ((e, s.mem), doneQ p)) :
    onAll s (fun hm => serve hm m tag code f) = .next (s.ended (finalResp e m r 0 0 p)) :=
  onAll_routedHw hh (serve_query hh hs f hf)

/-- A served command that commits with nothing to wait for and changes the byte memory. -/
theorem onAll_serve_doneAll (hh : h = clearSent s.hw) (hs : Serving s m tag code r) (hf : f (h, s.mem) r = (hm, doneC p)) :
    onAll s (fun hm => serve hm m tag code f) = .next (s.withHm (stepEnd (doneCommand h hm.1 m r p), hm.2)) :=
  onAll_routed (f := fun hm => serve hm m tag code f) hh (serve_done hh hs f hf)

/-- A served command that commits with an answer, waits, and changes the byte memory. -/
theorem onAll_serve_waitAll {w : Wait} (hh : h = clearSent s.hw) (hs : Serving s m tag code r)
    (hf : f (h, s.mem) r = (hm, { payload := p, commit := true, wait := w })) (hw : w ≠ .none) :
    onAll s (fun hm => serve hm m tag code f) = .next (s.withHm (stepEnd (waitCommand h hm.1 m r w p), hm.2)) :=
  onAll_routed (f := fun hm => serve hm m tag code f) hh (serve_wait hh hs f hf hw)

end

end Sys2Proof.Machine
end

/-! PROOFS. The state after a cold power-on. -/
section
namespace Sys2Proof.Machine

theorem queueUsed_default : queueUsed {} = 0 := by decide

theorem swatchAt_swGet {h : Hw} {a : Nat} (hr : regionOf a ≤ 2) : swatchAt h a = swGet h (swatchOf a) := by
  unfold swatchAt
  obtain hr | hr | hr : regionOf a = 0 ∨ regionOf a = 1 ∨ regionOf a = 2 := by omega
  all_goals
    rw [hr]
    rfl

theorem swatchAt_window {h : Hw} {a : Nat} (hr : regionOf a = 3) (ho : offsetOf a < 17 * 2 ^ 24) :
    swatchAt h a = { owner := offsetOf a / 2 ^ 24, state := .fixed } := by
  unfold swatchAt
  rw [hr]
  exact if_pos ho

theorem swatchAt_rest {h : Hw} {a : Nat} (hr : regionOf a = 3) (hlo : 2 ^ 30 ≤ offsetOf a) (hhi : offsetOf a < 2 ^ 30 + 2 ^ 26) :
    swatchAt h a = { owner := 0, state := .fixed } := by
  unfold swatchAt
  rw [hr]
  exact (if_neg (by omega)).trans (if_pos ⟨hlo, hhi⟩)

/-- Settles O3: the reset state lists nothing, so every table answers its default; region 3 is decided by the position of the address. -/
theorem resetState : Obligations.ResetState := by
  refine ⟨rfl, rfl, memory_nil_wf, ?swatches, ?windows, ?rest, fun _ _ => rfl, rfl, rfl, rfl, rfl, fun _ => ⟨rfl, rfl⟩,
    fun _ => ⟨rfl, rfl, rfl⟩, fun _ => rfl, fun _ _ => rfl, fun _ => rfl, fun _ => ⟨queueUsed_default, rfl, rfl⟩, rfl, rfl, rfl, rfl,
    ?buckets, rfl, rfl, rfl, rfl, rfl, rfl, rfl, rfl, rfl⟩
  case swatches =>
    intro a hr
    rw [swatchAt_swGet hr]
    exact ⟨rfl, rfl⟩
  case windows =>
    intro a hr ho
    rw [swatchAt_window hr ho]
    exact ⟨rfl, rfl⟩
  case rest =>
    intro a hr hlo hhi
    rw [swatchAt_rest hr hlo hhi]
    exact ⟨rfl, rfl⟩
  case buckets =>
    intro c hc
    interval_cases c <;> rfl

end Sys2Proof.Machine
end

/-! PROOFS. A ferry's choice among its slips (R399). -/
section
namespace Sys2Proof.Machine

/-- The ready slips of a class. -/
def readyOf (h : Hw) (r : List Nat) (c : Nat) : List Nat := r.filter (fun s => decide ((slipAt h s).cls = c))

theorem mem_readyOf {h : Hw} {r : List Nat} {c j : Nat} : j ∈ readyOf h r c ↔ j ∈ r ∧ (slipAt h j).cls = c := by
  simp [readyOf]

theorem readyOf_nonempty {h : Hw} {r : List Nat} {c : Nat} : (!(readyOf h r c).isEmpty) = true ↔ ∃ j, j ∈ r ∧ (slipAt h j).cls = c := by
  simp [readyOf, List.filter_eq_nil_iff]

/-- The class served next: the lowest starved one with a ready slip, else the lowest with one. -/
def servedClass (h : Hw) (a : Arbiter) (r : List Nat) : Option Nat :=
  ((List.range 4).find? fun c => !(readyOf h r c).isEmpty && decide (a.passed.getD c 0 ≥ 15)).or
    ((List.range 4).find? fun c => !(readyOf h r c).isEmpty)

/-- The arbiter after the choice of a slip of a class. -/
def arbiterAfter (h : Hw) (a : Arbiter) (r : List Nat) (c s : Nat) : Arbiter :=
  { last := a.last.set c s
    passed := (List.range 4).map fun k => if k = c then 0 else if (readyOf h r k).isEmpty then a.passed.getD k 0 else a.passed.getD k 0 + 1 }

theorem choose_eq (h : Hw) (a : Arbiter) (r : List Nat) : choose h a r = (servedClass h a r).bind fun c =>
    (roundRobin (readyOf h r c) (a.last.getD c 0)).map fun s => (s, arbiterAfter h a r c s) := by
  unfold choose
  extract_lets ready starved cls
  have hcls : cls = servedClass h a r := by
    unfold cls servedClass
    change _ = starved.or _
    cases starved <;> rfl
  rw [hcls]
  cases servedClass h a r with
  | none => rfl
  | some c =>
    change (match roundRobin (readyOf h r c) (a.last.getD c 0) with | none => none | some s => some (s, arbiterAfter h a r c s)) = _
    dsimp only [Option.bind]
    cases roundRobin (readyOf h r c) (a.last.getD c 0) <;> rfl

/-- What a choice answers: a class that is served and the slip that round robin takes of it. -/
theorem choose_some {h : Hw} {a b : Arbiter} {r : List Nat} {i : Nat} (hb : choose h a r = some (i, b)) :
    ∃ c, servedClass h a r = some c ∧ roundRobin (readyOf h r c) (a.last.getD c 0) = some i ∧ b = arbiterAfter h a r c i := by
  rw [choose_eq, Option.bind_eq_some_iff] at hb
  obtain ⟨c, hc, hb⟩ := hb
  rw [Option.map_eq_some_iff] at hb
  obtain ⟨s, hs, hsb⟩ := hb
  obtain ⟨rfl, rfl⟩ := Prod.mk.inj hsb
  exact ⟨c, hc, hs, rfl⟩

/-! ### Round robin within a class -/

theorem roundRobin_mem {l : List Nat} {last i : Nat} (hi : roundRobin l last = some i) : i ∈ l := by
  unfold roundRobin at hi
  split at hi
  next hf => exact Option.some.inj hi ▸ List.mem_of_find?_eq_some hf
  next => exact List.mem_of_head? hi

theorem roundRobin_ne_none {l : List Nat} {last : Nat} (hl : l ≠ []) : roundRobin l last ≠ none := by
  unfold roundRobin
  split
  · simp
  · simpa using hl

/-- Of a rising list round robin takes the first slip after the last one. -/
theorem roundRobin_next {l : List Nat} {last i j : Nat} (hp : l.Pairwise (· < ·)) (hi : roundRobin l last = some i) (hj : j ∈ l)
    (hlt : last < i) (hji : j < i) : j ≤ last := by
  unfold roundRobin at hi
  split at hi
  next s hf =>
    obtain rfl := Option.some.inj hi
    obtain ⟨-, u, v, rfl, hu⟩ := List.find?_eq_some_iff_append.mp hf
    rw [List.pairwise_append, List.pairwise_cons] at hp
    obtain ⟨-, ⟨hv, -⟩, -⟩ := hp
    rcases List.mem_append.mp hj with hj | hj
    · simpa using hu j hj
    · rcases List.mem_cons.mp hj with rfl | hj
      · omega
      · have := hv j hj
        omega
  next hf => simpa using List.find?_eq_none.mp hf j hj

/-- Of a rising list with no slip after the last one round robin takes the first. -/
theorem roundRobin_wraps {l : List Nat} {last i j : Nat} (hp : l.Pairwise (· < ·)) (hi : roundRobin l last = some i) (hj : j ∈ l)
    (hle : i ≤ last) : j ≤ last ∧ i ≤ j := by
  unfold roundRobin at hi
  split at hi
  next s hf =>
    obtain rfl := Option.some.inj hi
    have := List.find?_some hf
    simp at this
    omega
  next hf =>
    refine ⟨by simpa using List.find?_eq_none.mp hf j hj, ?_⟩
    cases l with
    | nil => cases hj
    | cons x l =>
      obtain rfl := Option.some.inj hi
      rcases List.mem_cons.mp hj with rfl | hj
      · exact le_rfl
      · exact (List.rel_of_pairwise_cons hp hj).le

/-! ### The class served -/

theorem servedClass_lt {h : Hw} {a : Arbiter} {r : List Nat} {c : Nat} (hc : servedClass h a r = some c) : c < 4 := by
  rcases Option.or_eq_some_iff.mp hc with hf | ⟨-, hf⟩ <;> exact List.mem_range.mp (List.mem_of_find?_eq_some hf)

theorem servedClass_ready {h : Hw} {a : Arbiter} {r : List Nat} {c : Nat} (hc : servedClass h a r = some c) : readyOf h r c ≠ [] := by
  rcases Option.or_eq_some_iff.mp hc with hf | ⟨-, hf⟩
  · have := List.find?_some hf
    simp_all
  · have := List.find?_some hf
    simp_all

theorem servedClass_ne_none {h : Hw} {a : Arbiter} {r : List Nat} {j : Nat} (hj : j ∈ r) (hlt : (slipAt h j).cls < 4) :
    servedClass h a r ≠ none := by
  intro hn
  obtain ⟨-, hn⟩ := Option.or_eq_none_iff.mp hn
  have := List.find?_eq_none.mp hn _ (List.mem_range.mpr hlt)
  exact this (readyOf_nonempty.mpr ⟨j, hj, rfl⟩)

/-- Where no class with a ready slip is starved, the class served is the lowest with one. -/
theorem servedClass_lowest {h : Hw} {a : Arbiter} {r : List Nat} {c j : Nat} (hc : servedClass h a r = some c)
    (hfed : ∀ k, k < 4 → (∃ j, j ∈ r ∧ (slipAt h j).cls = k) → a.passed.getD k 0 < 15) (hj : j ∈ r) : c ≤ (slipAt h j).cls := by
  rcases Option.or_eq_some_iff.mp hc with hf | ⟨-, hf⟩
  · have hs := List.find?_some hf
    rw [Bool.and_eq_true, readyOf_nonempty, decide_eq_true_iff] at hs
    have := hfed c (servedClass_lt hc) hs.1
    omega
  · obtain ⟨-, -, hlow⟩ := List.find?_range_eq_some.mp hf
    by_contra hlt
    have := hlow _ (Nat.lt_of_not_le hlt)
    rw [readyOf_nonempty.mpr ⟨j, hj, rfl⟩] at this
    cases this

/-- Where a class with a ready slip is starved, the class served is. -/
theorem servedClass_starved {h : Hw} {a : Arbiter} {r : List Nat} {c k : Nat} (hc : servedClass h a r = some c) (hk : k < 4)
    (hstarved : 15 ≤ a.passed.getD k 0) (hready : ∃ j, j ∈ r ∧ (slipAt h j).cls = k) : 15 ≤ a.passed.getD c 0 := by
  rcases Option.or_eq_some_iff.mp hc with hf | ⟨hn, -⟩
  · have hs := List.find?_some hf
    rw [Bool.and_eq_true, decide_eq_true_iff] at hs
    exact hs.2
  · refine absurd ?_ (List.find?_eq_none.mp hn k (List.mem_range.mpr hk))
    rw [Bool.and_eq_true, readyOf_nonempty, decide_eq_true_iff]
    exact ⟨hready, hstarved⟩

/-! ### The arbiter after the choice -/

theorem arbiterAfter_passed {h : Hw} {a : Arbiter} {r : List Nat} {c s k : Nat} (hk : k < 4) : (arbiterAfter h a r c s).passed.getD k 0 =
    if k = c then 0 else if (readyOf h r k).isEmpty then a.passed.getD k 0 else a.passed.getD k 0 + 1 := by
  simp [arbiterAfter, hk]

/-- Settles O7: a choice takes a class and a slip of it, and what it leaves of the arbiter is stated of these two. -/
theorem ferryArbitration : Obligations.FerryArbitration := by
  intro h a r hp hlen
  refine ⟨fun j hj hlt => ?some, fun i b c hb hcls => ?_⟩
  case some =>
    obtain ⟨c, hc⟩ := Option.ne_none_iff_exists'.mp (servedClass_ne_none (a := a) hj hlt)
    obtain ⟨s, hs⟩ := Option.ne_none_iff_exists'.mp (roundRobin_ne_none (last := a.last.getD c 0) (servedClass_ready hc))
    rw [choose_eq, hc, Option.bind_some, hs]
    exact Option.some_ne_none _
  obtain ⟨c', hc, hrr, rfl⟩ := choose_some hb
  obtain ⟨hir, hic⟩ := mem_readyOf.mp (roundRobin_mem hrr)
  obtain rfl : c = c' := hcls.trans hic
  have hlt := servedClass_lt hc
  have hrise : (readyOf h r c).Pairwise (· < ·) := hp.filter _
  refine ⟨hir, hlt, fun hfed j hj _ => servedClass_lowest hc hfed hj, fun ⟨k, hk, hst, hready⟩ => servedClass_starved hc hk hst hready,
    fun j hj hjc => ?turn, ?latest, ?zero, fun k hk hne hready => ?passed⟩
  case turn =>
    have hj' := mem_readyOf.mpr ⟨hj, hjc⟩
    exact ⟨fun hlt hji => roundRobin_next hrise hrr hj' hlt hji, fun hle => roundRobin_wraps hrise hrr hj' hle⟩
  case latest => simp [arbiterAfter, hlen, hlt]
  case zero => rw [arbiterAfter_passed hlt, if_pos rfl]
  case passed =>
    rw [arbiterAfter_passed hk, if_neg hne, if_neg]
    simpa using readyOf_nonempty.mpr hready

end Sys2Proof.Machine
end

/-! PROOFS. What one epoch of the power pool gives away (R560). -/
section
namespace Sys2Proof.Machine

/-! ### A directed frame changes the causeway alone -/

theorem direct_only (h : Hw) (ty d : Nat) (b : List Nat) : direct h ty d b = { h with arch := (direct h ty d b).arch } := by
  unfold direct
  split <;> rfl

@[simp] theorem direct_power (h : Hw) (ty d : Nat) (b : List Nat) : (direct h ty d b).power = h.power := by
  rw [direct_only]

@[simp] theorem direct_start (h : Hw) (ty d : Nat) (b : List Nat) : (direct h ty d b).start = h.start := by
  rw [direct_only]

@[simp] theorem direct_posted (h : Hw) (ty d : Nat) (b : List Nat) : (direct h ty d b).arch.posted = h.arch.posted := by
  unfold direct
  split <;> rfl

/-! ### What the shares of an epoch amount to -/

theorem foldl_add_snd (l : List (Nat × Nat)) (n : Nat) : l.foldl (fun n e => n + e.2) n = n + (l.map (·.2)).sum := by
  induction l generalizing n with
  | nil => rfl
  | cons e l ih => rw [List.foldl_cons, ih, List.map_cons, List.sum_cons, Nat.add_assoc]

theorem sum_map_filter_pos (l : List (Nat × Nat)) : ((l.filter fun e => decide (0 < e.2)).map (·.2)).sum = (l.map (·.2)).sum := by
  induction l with
  | nil => rfl
  | cons e l ih => by_cases he : 0 < e.2 <;> simp_all

/-- Whole shares of an amount in proportion to demands come to no more than the amount. -/
theorem sum_shares_le (d : Nat → Nat) (g tot : Nat) (l : List Nat) : (l.map fun q => g * d q / tot).sum ≤ g * (l.map d).sum / tot := by
  induction l with
  | nil => simp
  | cons q l ih =>
    rw [List.map_cons, List.sum_cons, List.map_cons, List.sum_cons, Nat.mul_add]
    exact (Nat.add_le_add_left ih _).trans (Nat.div_add_div_le_add_div)

theorem poolShares_le (h : Hw) :
    (poolShares h).foldl (fun n e => n + e.2) 0 ≤ h.power.static - h.power.poolMin - leaseSum h.power.outs := by
  unfold poolShares
  split
  · exact Nat.zero_le _
  · extract_lets d tot full g
    split
    · exact Nat.zero_le _
    · rename_i hn
      rw [foldl_add_snd, Nat.zero_add, sum_map_filter_pos, List.map_map]
      have htot : tot = ((List.range 256).map d).sum := by
        unfold tot
        rw [List.sum_eq_foldl, List.foldl_map]
      have hs := sum_shares_le d g tot (List.range 256)
      rw [← htot, Nat.mul_div_cancel _ (by omega)] at hs
      exact hs.trans (min_le_right _ _)

/-! ### The epoch -/

theorem leaseSum_append (ls : List Lease) (l : Lease) : leaseSum (ls ++ [l]) = leaseSum ls + l.watts := by
  simp [leaseSum]

/-- The epoch takes place or not: all that it changes of the power state is that it ran and what it gave away. -/
theorem poolEpoch_power (h : Hw) : ∃ run outs, (poolEpoch h).power = { h.power with epochRun := run, outs := outs } ∧
    leaseSum outs ≤ leaseSum h.power.outs + (h.power.static - h.power.poolMin - leaseSum h.power.outs) := by
  unfold poolEpoch
  extract_lets g shares n t outs
  split
  · exact ⟨_, _, rfl, Nat.le_add_right _ _⟩
  · refine ⟨_, _, foldl_keeps Hw.power (fun _ _ => direct_power ..) _ _, ?_⟩
    have hle : n ≤ h.power.static - h.power.poolMin - leaseSum h.power.outs := poolShares_le g
    unfold outs
    split
    · exact Nat.le_add_right _ _
    · rw [leaseSum_append]
      exact Nat.add_le_add_left hle _

theorem poolEpoch_posted (h : Hw) : (poolEpoch h).arch.posted = h.arch.posted := by
  unfold poolEpoch
  extract_lets g shares n t outs
  split
  · rfl
  · exact foldl_keeps (fun h => h.arch.posted) (fun _ _ => direct_posted ..) _ _

theorem poolEpoch_start (h : Hw) : (poolEpoch h).start = h.start := by
  unfold poolEpoch
  extract_lets g shares n t outs
  split
  · rfl
  · exact foldl_keeps Hw.start (fun _ _ => direct_start ..) _ _

/-- Settles O20: what the epoch gives away is at most what R560 leaves it. -/
theorem poolKeepsMinimum : Obligations.PoolKeepsMinimum := by
  intro s hmin
  have hrow : exec .poolEpoch s = .next (s.withHw (poolEpoch (clearSent s.hw))) :=
    onHw_gives rfl rfl (poolEpoch_posted _) (congrArg Startup.irqWake (poolEpoch_start _))
  obtain ⟨run, outs, hpower, houts⟩ := poolEpoch_power (clearSent s.hw)
  refine ⟨_, hrow, ?_⟩
  have hpow : (clearSent s.hw).power = s.hw.power := rfl
  rw [hpow] at hpower houts
  beta_reduce
  rw [State.withHw_hw, hpower]
  exact ⟨by dsimp only; omega, rfl, rfl, (min_le_left _ _).trans_eq (congrArg (·.poolMax) hpower)⟩

end Sys2Proof.Machine
end

/-! PROOFS. The transport rows of a mailbox. -/
section
namespace Sys2Proof.Machine

/-! ### A doorbell (R118, R120, R130) -/

section
variable {h : Hw} {m : Mbx} (v : Nat) (hm : m ≠ .keeper)
include hm

theorem ringDoorbell_free (hr : mbxReady h m = true) (hn : (boxAt h m).rung = none) :
    ringDoorbell h m v = setBox h m { boxAt h m with rung := some (v % 8) } := by
  simp [ringDoorbell, hm, hr, hn]

theorem ringDoorbell_busy (hr : mbxReady h m = true) (hn : (boxAt h m).rung ≠ none) :
    ringDoorbell h m v = setBox h m { boxAt h m with overrun := true } := by
  simp [ringDoorbell, hm, hr, Option.isSome_iff_ne_none, hn]

theorem ringDoorbell_standIn (hr : mbxReady h m = false) (hn : (boxAt h m).standIn = none) : ringDoorbell h m v =
    setBox h m { boxAt h m with standIn := some (standInResp h (pageRead (boxAt h m).reqHdr 0 64) (v % 8) none) } := by
  simp [ringDoorbell, hm, hr, hn]

theorem ringDoorbell_standInWaits (hr : mbxReady h m = false) (hn : (boxAt h m).standIn ≠ none) :
    ringDoorbell h m v = setBox h m { boxAt h m with overrun := true } := by
  simp [ringDoorbell, hm, hr, Option.isSome_iff_ne_none, hn]

end

/-! ### Responses (R121, R122, R130, R134, R139) -/

section
variable {h : Hw} {m : Mbx}

theorem postStandIn_waiting {r : Resp} (hs : (boxAt h m).standIn = some r) (hv : (boxAt h m).valid = false) :
    postStandIn h m = showResp h m r fun y => { y with standIn := none } := by
  simp [postStandIn, hs, hv]

theorem postResp_mailbox {r : Resp} {rs : List Resp} (hm : m ≠ .keeper) (hq : (boxAt h m).queue = r :: rs) (hv : (boxAt h m).valid = false) :
    postResp h m = showResp h m r fun y => { y with queue := rs } := by
  simp [postResp, hm, hq, hv]

theorem postResp_keeper {r : Resp} {rs : List Resp} (hm : m = .keeper) (hq : (boxAt h m).queue = r :: rs) :
    postResp h m = setBox h m (freeTag { boxAt h m with queue := rs, keeperOut := [r] } r) := by
  subst hm
  simp [postResp, hq]

theorem ackResp_shown {r : Resp} (hs : (boxAt h m).shown = some r) :
    ackResp h m = setBox h m (freeTag { boxAt h m with valid := false, shown := none } r) := by
  simp [ackResp, hs]

theorem interimReq_begun {tag : Nat} {r : Req} (hf : findReq (boxAt h m) tag = some r) (hb : r.begun = true) (he : r.ended = false)
    (hi : r.interim = false) : interimReq h m tag =
      sendResp (setBox (advanceTo h (r.commit + 100000)) m (setReq (boxAt h m) { r with interim := true })) m r 1 0 [] false := by
  simp only [interimReq, hf, hb, he, hi]
  rfl

theorem timeoutReq_early {tag : Nat} {r : Req} (hf : findReq (boxAt h m) tag = some r) (hb : r.begun = false) (he : r.ended = false)
    (hc : committedEarly r = false) :
    timeoutReq h m tag = finalResp (advanceTo h (deadline r)) m { r with payload := [] } 0x80 0 [] := by
  simp [timeoutReq, hf, hb, he, hc]

end

/-! ### Acceptance (R119) -/

/-- The request a single-fragment frame announces. -/
def wholeReq (h : Hw) (f : ReqHdr) (t : Nat) (pay : List Byte) : Req :=
  { tag := t, cmd := f.cmd, seq := f.seq, session := f.session, total := f.total, payload := pay, frags := 1, accept := h.tb.now,
    timeout := f.timeout, whole := true }

theorem laterChecks_passed {h : Hw} {m : Mbx} {f : ReqHdr} {hdr pay : List Byte} (hc : laterChecks h m f hdr pay = (0, 0)) :
    lenOk f.cmd pay = true ∧ hdrReserved hdr f.cmd = true := by
  unfold laterChecks at hc
  split at hc
  · simp at hc
  · split_ifs at hc <;> simp_all

theorem laterChecks_setBox (h : Hw) (m : Mbx) (x : Mbox) (f : ReqHdr) (hdr pay : List Byte) :
    laterChecks (setBox h m x) m f hdr pay = laterChecks h m f hdr pay := rfl

theorem versionBad_none {x : Mbox} {f : ReqHdr} (hs : sessionless f.cmd = true ∨ (x.session ≠ 0 ∧ f.session = x.session ∧ f.rev = 4)) :
    versionBad x f = none := by
  rcases hs with hs | ⟨hx, hf, hr⟩
  · simp [versionBad, hs]
  · simp [versionBad, hx, hf, hr]

/-- The SEQ a session's mailbox keeps when it enters a request (R123). -/
def noteSeq (h : Hw) (m : Mbx) (f : ReqHdr) : Hw := if sessionless f.cmd then h else setBox h m { boxAt h m with lastSeq := some f.seq }

/-- A whole single-fragment frame that passes checks 1 to 7 is entered under its tag. -/
theorem acceptFrame_whole {h : Hw} {m : Mbx} {f : ReqHdr} {hdr pay : List Byte} {t : Nat} (hf : f = readHdr hdr)
    (hcmd : (cmdInfo f.cmd).isSome = true) (hver : versionBad (boxAt h m) f = none) (hok : frameOk m f t pay.length = true)
    (hidx : fragIdx f = 0) (hlast : fragLast f = true) (htot : f.total = pay.length)
    (hseq : sessionless f.cmd = true ∨ ∀ q, (boxAt h m).lastSeq = some q → q < f.seq) (hnew : findReq (boxAt h m) t = none)
    (hlater : laterChecks h m f hdr pay = (0, 0)) : acceptFrame h m hdr pay t none = setBox (noteSeq h m f) m
      { boxAt (noteSeq h m f) m with reqs := (boxAt h m).reqs ++ [wholeReq h f t pay] } := by
  subst hf
  obtain ⟨hlen, hres⟩ := laterChecks_passed hlater
  have hfrag : fragOk (readHdr hdr) pay.length = true := by simp [fragOk, hlast, htot]
  have hsome : (cmdInfo (readHdr hdr).cmd).isNone = false := by simpa using hcmd
  unfold acceptFrame noteSeq wholeReq
  simp only [hnew, hsome, hver, hok, hidx, hlen, hlast, hfrag, hlater, hres, Option.filter_none, Option.isSome_none]
  rcases hseq with hs | hs
  · simp [hs]
  · cases hl : (boxAt h m).lastSeq with
    | none => simp
    | some q => simp [Nat.not_le.mpr (hs q hl)]

/-- A header that passes the frame checks is not blank. -/
theorem frameOk_not_blank {m : Mbx} {t n : Nat} : frameOk m (readHdr (pageRead [] 0 64)) t n = false := by
  have hmagic : (readHdr (pageRead [] 0 64)).magic = 0 := by decide
  simp [frameOk, hmagic]

/-- Cralu serves a rung doorbell on the mailbox whose REQ_FREE is set again. -/
theorem acceptRung_rung {h : Hw} {m : Mbx} {t : Nat} (hrung : (boxAt h m).rung = some t) (hr : mbxReady h m = true) : acceptRung h m =
    acceptFrame (setBox h m { boxAt h m with rung := none }) m (pageRead (boxAt h m).reqHdr 0 64)
      (pageRead (boxAt h m).reqPage 0 (min (readHdr (pageRead (boxAt h m).reqHdr 0 64)).plen 4096)) t none := by
  simp [acceptRung, hrung, hr]

theorem noteSeq_only (h : Hw) (m : Mbx) (f : ReqHdr) : noteSeq h m f = { h with efano := (noteSeq h m f).efano } := by
  unfold noteSeq
  split <;> rfl

theorem boxAt_noteSeq_rung (h : Hw) (m : Mbx) (f : ReqHdr) : (boxAt (noteSeq h m f) m).rung = (boxAt h m).rung := by
  unfold noteSeq
  split
  · rfl
  · rw [boxAt_setBox_ne _ _ _ (by rw [Ne, Mbox.mk.injEq]; simp)]

/-- An entered request stands in its mailbox, and the mailbox changes alone. -/
theorem entered_effects {h g : Hw} {m : Mbx} {f : ReqHdr} {x : Mbox} {r : Req} {l : List Req} (hx : boxAt h m = x)
    (hg : g = setBox (noteSeq h m f) m { boxAt (noteSeq h m f) m with reqs := l ++ [r] }) :
    (boxAt g m).rung = x.rung ∧ (boxAt g m).reqs = l ++ [r] ∧ g = { h with efano := g.efano } := by
  subst hx hg
  rw [boxAt_setBox_ne _ _ _ (by rw [Ne, Mbox.mk.injEq]; simp)]
  exact ⟨boxAt_noteSeq_rung h m f, rfl, by rw [noteSeq_only]; rfl⟩

/-- Settles O8: each row is its equation, routed at the end of the step. -/
theorem mailboxTransportRows : Obligations.MailboxTransportRows := by
  rintro s h m rfl
  refine ⟨?free, ?busy, ?standIn, ?waits, ?post, ?resp, ?keeper, ?ack, ?interim, ?timeout, ?accept⟩
  case free => exact fun v hm hr hn => row_ended (congrArg stir (ringDoorbell_free v hm hr hn)) rfl
  case busy => exact fun v hm hr hn => row_ended (congrArg stir (ringDoorbell_busy v hm hr hn)) rfl
  case standIn => exact fun v hm hr hn => row_ended (congrArg stir (ringDoorbell_standIn v hm hr hn)) rfl
  case waits => exact fun v hm hr hn => row_ended (congrArg stir (ringDoorbell_standInWaits v hm hr hn)) rfl
  case post => exact fun r hs hv => row_ended (postStandIn_waiting hs hv) rfl
  case resp => exact fun r rs hm hq hv => row_ended (postResp_mailbox hm hq hv) rfl
  case keeper => exact fun r rs hm hq => row_ended (postResp_keeper hm hq) rfl
  case ack => exact fun r hs => row_ended (ackResp_shown hs) rfl
  case interim => exact fun tag r hf hb he hi => row_ended (interimReq_begun hf hb he hi) rfl
  case timeout => exact fun tag r hf hb he hc => row_ended (timeoutReq_early hf hb he hc) rfl
  case accept =>
    intro t hdr f pay hm hrung hr hhdr hf hpay hcmd hver hok hidx hlast htot hseq hnew hlater
    subst hhdr hf hpay
    have hx : ({ boxAt (clearSent s.hw) m with rung := none } : Mbox) ≠ {} := by
      intro hx
      have hblank : (boxAt (clearSent s.hw) m).reqHdr = [] := congrArg Mbox.reqHdr hx
      rw [hblank, frameOk_not_blank] at hok
      cases hok
    have hbox := boxAt_setBox_ne (clearSent s.hw) m _ hx
    have hrow := acceptFrame_whole (h := setBox (clearSent s.hw) m { boxAt (clearSent s.hw) m with rung := none }) (t := t) rfl hcmd
      (versionBad_none (by rw [hbox]; exact hver)) hok hidx hlast htot (by rw [hbox]; exact hseq) (by rw [hbox]; exact hnew) hlater
    obtain ⟨hnone, hreqs, honly⟩ := entered_effects hbox hrow
    have hout := row_gives (acceptRung_rung hrung hr) (by rw [honly]; rfl) (by rw [honly]; rfl) (rfl : exec (.acceptance m) s = _)
    exact ⟨_, hout, hnone, hreqs.trans (by rw [hbox]; rfl), honly, rfl⟩

end Sys2Proof.Machine
end

/-! PROOFS. The Keeper's transport (R142 to R146, R660, R661). -/
section
namespace Sys2Proof.Machine

section
variable {h : Hw} {bus : KeeperBus} {port rid : Nat}

/-- The endpoint a message of the Keeper comes from. -/
abbrev endpoint (bus : KeeperBus) (port rid : Nat) : KeeperEnd := { bus := bus, port := port, rid := rid }

theorem keeperFrame_foreign {vendor mtag : Nat} {bytes : List Byte} (hk : keeperFrom h bus port rid = true)
    (hv : vendor ≠ 0x0F1A ∨ bytes.length < 64) : keeperFrame h bus port rid vendor mtag bytes = h := by
  simp [keeperFrame, hk, hv]

theorem keeperFrame_ready {mtag : Nat} {bytes : List Byte} (hk : keeperFrom h bus port rid = true) (hlen : 64 ≤ bytes.length)
    (hr : mbxReady h .keeper = true) : keeperFrame h bus port rid 0x0F1A mtag bytes =
      acceptFrame h .keeper (bytes.take 64) (bytes.drop 64) mtag (some (endpoint bus port rid)) := by
  simp [keeperFrame, hk, hr, Nat.not_lt.mpr hlen]

theorem keeperFrame_standIn {mtag : Nat} {bytes : List Byte} (hk : keeperFrom h bus port rid = true) (hlen : 64 ≤ bytes.length)
    (hr : mbxReady h .keeper = false) : keeperFrame h bus port rid 0x0F1A mtag bytes = setBox h .keeper
      { boxAt h .keeper with
        keeperOut := [standInResp h (bytes.take 64) ((readHdr (bytes.take 64)).tag % 8) (some (endpoint bus port rid))] } := by
  simp [keeperFrame, hk, hr, Nat.not_lt.mpr hlen]

theorem mctpAnswer_ready {ans : List Byte} (hk : keeperFrom h bus port rid = true) (hr : h.efano.ready = true) :
    mctpAnswer h bus port rid ans = { h with
      efano := { h.efano with mctp := ans, mctpAns := h.efano.mctpAns + 1, mctpTo := some (endpoint bus port rid) }, free := h.free + 1 } := by
  simp [mctpAnswer, hk, hr]

theorem mctpAnswer_notReady {ans : List Byte} (hk : keeperFrom h bus port rid = true) (hr : h.efano.ready = false) :
    mctpAnswer h bus port rid ans = h := by
  simp [mctpAnswer, hk, hr]

/-! ### Messages of a function that is not the Keeper's -/

theorem keeperFrame_stranger {vendor mtag : Nat} {bytes : List Byte} (hk : keeperFrom h bus port rid = false) :
    keeperFrame h bus port rid vendor mtag bytes = countDiscard h bus port := by
  simp [keeperFrame, hk]

theorem mctpAnswer_stranger {ans : List Byte} (hk : keeperFrom h bus port rid = false) :
    mctpAnswer h bus port rid ans = countDiscard h bus port := by
  simp [mctpAnswer, hk]

theorem countDiscard_up (hup : (tabGet {} h.edges.ports port).up = true) : countDiscard h .pcieVdm port =
    { h with edges := { h.edges with ports := tabMod {} h.edges.ports port fun p => { p with discards := p.discards + 1 } } } :=
  if_pos hup

theorem countDiscard_unheard (hb : bus = .i3c ∨ (tabGet {} h.edges.ports port).up = false) : countDiscard h bus port = h := by
  unfold countDiscard
  rcases hb with rfl | hup
  · rfl
  · cases bus <;> simp [hup]

/-- What PLDM_REQUEST does (R661). -/
def pldmAnswer (h : Hw) (bus : KeeperBus) (port rid type : Nat) : Hw :=
  if type = 0 ∨ type = 2 ∨ type = 4 ∨ !keeperFrom h bus port rid then mctpAnswer h bus port rid (openBytes h.free) else h

theorem exec_pldmRequest (type : Nat) (s : State) :
    exec (.pldmRequest bus port rid type) s = .next (s.ended (pldmAnswer (clearSent s.hw) bus port rid type)) := rfl

theorem pldmAnswer_served {type : Nat} (ht : type = 0 ∨ type = 2 ∨ type = 4) :
    pldmAnswer h bus port rid type = mctpAnswer h bus port rid (openBytes h.free) := by
  refine if_pos ?_
  rcases ht with ht | ht | ht <;> simp [ht]

theorem pldmAnswer_stranger {type : Nat} (hk : keeperFrom h bus port rid = false) :
    pldmAnswer h bus port rid type = countDiscard h bus port :=
  (if_pos (by simp [hk])).trans (mctpAnswer_stranger hk)

theorem pldmAnswer_other {type : Nat} (h0 : type ≠ 0) (h2 : type ≠ 2) (h4 : type ≠ 4) (hk : keeperFrom h bus port rid = true) :
    pldmAnswer h bus port rid type = h :=
  if_neg (by simp [h0, h2, h4, hk])

theorem pldmAnswer_notReady {type : Nat} (hk : keeperFrom h bus port rid = true) (hr : h.efano.ready = false) :
    pldmAnswer h bus port rid type = h := by
  unfold pldmAnswer
  split
  · exact mctpAnswer_notReady hk hr
  · rfl

end

/-- Settles O9: each message is its answer's equation, or the count of a stranger's message. -/
theorem keeperTransportRows : Obligations.KeeperTransportRows := by
  rintro s h bus port rid rfl
  refine ⟨?foreign, ?frame, ?standIn, ?mctp, ?pldm, ?spdm, ?notReady, ?otherType, ?stranger, ?unheard⟩
  case foreign => exact fun v mtag bytes hk hv => row_idle (keeperFrame_foreign hk hv) rfl
  case frame => exact fun mtag bytes hk hlen hr => row_ended (keeperFrame_ready hk hlen hr) rfl
  case standIn => exact fun mtag bytes hk hlen hr => row_ended (keeperFrame_standIn hk hlen hr) rfl
  case mctp => exact fun hk hr => row_ended (mctpAnswer_ready hk hr) rfl
  case pldm => exact fun type ht hk hr => row_ended ((pldmAnswer_served ht).trans (mctpAnswer_ready hk hr)) (exec_pldmRequest ..)
  case spdm => exact fun req hk hr => row_ended (mctpAnswer_ready hk hr) rfl
  case notReady =>
    exact fun type req hk hr => ⟨row_idle (mctpAnswer_notReady hk hr) rfl, row_idle (pldmAnswer_notReady hk hr) (exec_pldmRequest ..),
      row_idle (mctpAnswer_notReady hk hr) rfl⟩
  case otherType => exact fun type h0 h2 h4 hk => row_idle (pldmAnswer_other h0 h2 h4 hk) (exec_pldmRequest ..)
  case stranger =>
    rintro vendor mtag bytes type req _ hk hup rfl
    have hcount := countDiscard_up hup
    exact ⟨row_ended ((keeperFrame_stranger hk).trans hcount) rfl, row_ended ((mctpAnswer_stranger hk).trans hcount) rfl,
      row_ended ((pldmAnswer_stranger hk).trans hcount) (exec_pldmRequest ..), row_ended ((mctpAnswer_stranger hk).trans hcount) rfl⟩
  case unheard =>
    intro vendor mtag bytes type req hk hb
    have hquiet := countDiscard_unheard hb
    exact ⟨row_idle ((keeperFrame_stranger hk).trans hquiet) rfl, row_idle ((mctpAnswer_stranger hk).trans hquiet) rfl,
      row_idle ((pldmAnswer_stranger hk).trans hquiet) (exec_pldmRequest ..), row_idle ((mctpAnswer_stranger hk).trans hquiet) rfl⟩

end Sys2Proof.Machine
end

/-! PROOFS. Sessions and identity (R127 to R129, R147, R153, R50). -/
section
namespace Sys2Proof.Machine

/-! ### The SESSION_ID drawn for a mailbox (R128) -/

/-- The numbers a drawn value is tried as. -/
def sessionTries (n v : Nat) : List Nat := (List.range (n + 2)).map fun i => (v + i) % 2 ^ 32

theorem sessionTries_nodup {n : Nat} (hn : n + 2 ≤ 2 ^ 32) (v : Nat) : (sessionTries n v).Nodup := by
  refine List.Nodup.map_on (fun i hi j hj hij => ?_) List.nodup_range
  rw [List.mem_range] at hi hj
  omega

/-- Of more numbers than are used one is new. -/
theorem exists_new_try {used : List Nat} (hn : used.length + 2 ≤ 2 ^ 32) (v : Nat) :
    ∃ c ∈ sessionTries used.length v, c ≠ 0 ∧ c ∉ used := by
  by_contra hall
  push Not at hall
  have hsub : sessionTries used.length v ⊆ 0 :: used := fun c hc => by
    by_cases h0 : c = 0
    · exact h0 ▸ List.mem_cons_self
    · exact List.mem_cons_of_mem _ (hall c hc h0)
  have hlen := ((sessionTries_nodup hn v).subperm hsub).length_le
  simp [sessionTries] at hlen

/-- A SESSION_ID is not zero and none of the mailbox's earlier ones. -/
theorem sessionId_new {used : List Nat} (hn : used.length + 2 ≤ 2 ^ 32) (v : Nat) : sessionId used v ≠ 0 ∧ sessionId used v ∉ used := by
  obtain ⟨c, hc, hnew⟩ := exists_new_try hn v
  unfold sessionId
  cases hf : ((List.range (used.length + 2)).map fun i => (v + i) % 2 ^ 32).find? fun c => decide (c ≠ 0) && decide (c ∉ used) with
  | none => simpa [hnew.1, hnew.2] using List.find?_eq_none.mp hf c hc
  | some d => simpa using List.find?_some hf

/-! ### SESSION_OPEN and SESSION_CLOSE -/

section
variable {h : Hw} {mem : Memory} {m : Mbx} {tag : Nat} {r : Req}

theorem sessionOpen_version (hr : nextReq (boxAt h m) = some r) (ht : r.tag = tag) (hc : r.cmd = 0x0102) (hready : mbxReady h m = true)
    (hv : leAt r.payload 0 1 ≠ 4) : sessionOpen (h, mem) m tag = (finalResp h m r 0x30 3 [], mem) := by
  simp [sessionOpen, hr, ht, hc, hready, hv]

theorem sessionClose_closes (hr : nextReq (boxAt h m) = some r) (ht : r.tag = tag) (hc : r.cmd = 0x0103) (hready : mbxReady h m = true) :
    sessionClose (h, mem) m tag = (finalResp (closeSession h m (some tag)) m { r with begun := true } 0 0 [], mem) := by
  simp [sessionClose, hr, ht, hc, hready]

/-- What closing its session leaves of a mailbox that holds a request. -/
theorem closeSession_box (k : Option Nat) (hreqs : (boxAt h m).reqs ≠ []) : ∃ y, closeSession h m k = setBox h m y ∧ y ≠ {} ∧
    y.sessions = (boxAt h m).sessions ∧
    y.queue = (if (boxAt h m).session = 0 then (boxAt h m).queue
      else (boxAt h m).queue.filter fun q => decide (leAt q.hdr 0x10 4 ≠ (boxAt h m).session)) ∧
    ((boxAt h m).session ≠ 0 → y.prevId = (boxAt h m).session ∧ ∃ es, y.prev = (boxAt h m).outcomes ++ es ∧ ∀ e, e ∈ es → e.status = 1) := by
  refine ⟨_, rfl, ?_⟩
  split
  next h0 => exact ⟨fun he => hreqs (congrArg Mbox.reqs he), rfl, rfl, fun hn => absurd h0 hn⟩
  next h0 =>
    refine ⟨fun he => ?_, rfl, ?_, fun _ => ⟨rfl, _, rfl, fun e he => ?_⟩⟩
    · cases congrArg Mbox.prevKind he
    · simp
    · obtain ⟨q, -, rfl⟩ := List.mem_map.mp he
      rfl

/-- SESSION_OPEN of revision 4 on what closing the old session leaves. -/
theorem sessionOpen_opens {y : Mbox} {i : Nat} (hr : nextReq (boxAt h m) = some r) (ht : r.tag = tag) (hc : r.cmd = 0x0102)
    (hready : mbxReady h m = true) (hv : leAt r.payload 0 1 = 4) (hy : closeSession h m (some tag) = setBox h m y) (hne : y ≠ {})
    (hi : i = sessionId y.sessions (Config.freeValue h.free).toNat) : sessionOpen (h, mem) m tag =
      (finalResp { setBox (setBox h m y) m { y with session := i, sessions := i :: y.sessions, lastSeq := none } with free := h.free + 1 } m
        { r with session := i, begun := true } 0 0 (leBytes 4 i ++ leBytes 4 h.efano.epoch.toNat), mem) := by
  have hbox (n : Nat) : boxAt { setBox h m y with free := n } m = y := boxAt_setBox_ne h m y hne
  subst hi
  unfold sessionOpen
  simp only [hr, ht, hc, hready, hv, hy, takeFree, hbox]
  rfl

/-- What an open request's last response leaves of a mailbox with a session. -/
theorem finalResp_box {g : Hw} {x : Mbox} {q : Req} {p : List Byte} (hx : boxAt g m = x) (hq : q.orphan = false) (hs : x.session ≠ 0) :
    boxAt (finalResp g m q 0 0 p) m =
      { setReq x { q with ended := true, wait := .none } with queue := x.queue ++ respFrames m q 0 0 p true } := by
  have hne {z : Mbox} (hz : z.session = x.session) : z ≠ {} := fun he => hs (hz.symm.trans (congrArg Mbox.session he))
  subst hx
  unfold finalResp sendResp
  dsimp only
  have hended := boxAt_setBox_ne g m (setReq (boxAt g m) { q with ended := true, wait := .none }) (hne rfl)
  rw [if_neg (by simp [hq]), if_pos rfl, hended, boxAt_setBox_ne]
  · rfl
  · exact fun he => hs (congrArg Mbox.session he)

/-- What SESSION_OPEN leaves: the new session's mailbox with its answer queued, and one free value taken. -/
theorem opened_effects {g : Hw} {y z : Mbox} {q : Req} {p : List Byte} {n : Nat} (hq : q.orphan = false) (hz : z.session ≠ 0)
    (hg : g = finalResp { setBox (setBox h m y) m z with free := n } m q 0 0 p) :
    boxAt g m = { setReq z { q with ended := true, wait := .none } with queue := z.queue ++ respFrames m q 0 0 p true } ∧
      g = { h with efano := g.efano, free := n } := by
  subst hg
  have hbox : boxAt { setBox (setBox h m y) m z with free := n } m = z :=
    boxAt_setBox_ne (setBox h m y) m z fun he => hz (congrArg Mbox.session he)
  exact ⟨finalResp_box hbox hq hz, by rw [finalResp_only]; rfl⟩

end

/-! ### Queries -/

theorem outcomeGet_kept {h : Hw} {mem : Memory} {m : Mbx} {r : Req} (hk : (boxAt h m).prevKind = .kept) :
    outcomeGet m (h, mem) r = ((h, mem), doneQ (leBytes 4 (boxAt h m).prevId ++ leBytes 1 0 ++ zeros 3
      ++ paged m 8 32 (leAt r.payload 0 4) (leAt r.payload 4 2) ((boxAt h m).prev.map outcomeBytes))) := by
  simp [outcomeGet, hk]

theorem spdmMessage_foreign {h : Hw} {mem : Memory} {m : Mbx} {r : Req} {p : Nat} (hm : m = .part p) (hp : leAt r.payload 0 1 ≠ p) :
    spdmMessage m (h, mem) r = (({ h with free := h.free + 1 }, mem), doneQ (spdmError 1)) := by
  simp [spdmMessage, hm, hp]

theorem spdmMessage_own {h : Hw} {mem : Memory} {m : Mbx} {r : Req} (hm : m = .steward ∨ m = .part (leAt r.payload 0 1)) :
    spdmMessage m (h, mem) r =
      (({ h with free := h.free + 1 }, mem), doneQ (spdmAnswer h m (leAt r.payload 0 1) (r.payload.drop 4))) := by
  rcases hm with rfl | hm
  · rfl
  · rw [hm]
    simp [spdmMessage]

theorem identityGet_answers {h : Hw} {mem : Memory} {r : Req} : ∃ more, identityGet (h, mem) r =
    ((h, mem), doneQ ((List.range 7).flatMap (fun i => leBytes 8 (identReg h i).toNat) ++ more)) := by
  apply Exists.intro
  simp only [identityGet, List.append_assoc]
  rfl

/-- Settles O10: each command is its body's equation, served. -/
theorem sessionRows : Obligations.SessionRows := by
  rintro s h m tag r hh
  refine ⟨fun hs => onAll_serve_answer hh hs rfl, ?version, ?opens, ?close, fun hs => onAll_serve_answer hh hs rfl,
    fun hs hk => onAll_serve_answer hh hs (outcomeGet_kept hk), fun p hm hs hp => onAll_serve_answer hh hs (spdmMessage_foreign hm hp),
    fun hs hm => onAll_serve_answer hh hs (spdmMessage_own hm), ?identity⟩
  case version =>
    subst hh
    rintro ⟨hr, -, ht, hc, hready, -⟩ hv
    exact row_endedHw (sessionOpen_version hr ht hc hready hv) rfl
  case opens =>
    subst hh
    rintro ⟨hr, hopen, ht, hc, hready, -⟩ hv hfew
    have hreqs : (boxAt (clearSent s.hw) m).reqs ≠ [] := List.ne_nil_of_mem (List.mem_of_find?_eq_some hr)
    obtain ⟨y, hy, hne, hsessions, hqueue, hprev⟩ := closeSession_box (some tag) hreqs
    obtain ⟨i, hi⟩ : ∃ i, i = sessionId y.sessions (Config.freeValue (clearSent s.hw).free).toNat := ⟨_, rfl⟩
    obtain ⟨hzero, hnew⟩ : i ≠ 0 ∧ i ∉ y.sessions := hi ▸ sessionId_new (hsessions ▸ hfew) _
    have hbody := sessionOpen_opens (h := clearSent s.hw) (mem := s.mem) hr ht hc hready hv hy hne hi
    obtain ⟨g, hg⟩ : ∃ g, g = finalResp { setBox (setBox (clearSent s.hw) m y) m
      { y with session := i, sessions := i :: y.sessions, lastSeq := none } with free := (clearSent s.hw).free + 1 } m
        { r with session := i, begun := true } 0 0 (leBytes 4 i ++ leBytes 4 (clearSent s.hw).efano.epoch.toNat) := ⟨_, rfl⟩
    rw [← hg] at hbody
    obtain ⟨hbox, honly⟩ := opened_effects (q := { r with session := i, begun := true }) hopen hzero hg
    have hout := row_givesAll hbody (by rw [honly]; rfl) (by rw [honly]; rfl) (rfl : exec (.sessionOpen m tag) s = _)
    refine ⟨_, hout, ?_⟩
    beta_reduce
    rw [State.withHm_hw, hbox]
    exact ⟨hzero, hsessions ▸ hnew, congrArg (i :: ·) hsessions, rfl, congrArg (· ++ respFrames m _ 0 0 _ true) hqueue, hprev, honly, rfl⟩
  case close =>
    subst hh
    rintro ⟨hr, -, ht, hc, hready, -⟩
    exact row_endedHw (sessionClose_closes hr ht hc hready) rfl
  case identity =>
    intro hs
    obtain ⟨more, hf⟩ := identityGet_answers (h := h) (mem := s.mem) (r := r)
    exact ⟨_, onAll_serve_query hh hs hf, more, rfl, rfl⟩

end Sys2Proof.Machine
end

/-! PROOFS. PART_DESTROY writes a mailbox that keeps nothing but its SESSION_IDs (R98, R128); where it has had none that is the
value of an unlisted mailbox, and the entry is taken out of the mailbox table. In a table that lists the mailbox twice the second entry then
shows, so the last clause of the statement, which is about every state, fails in a state whose table is not in its canonical form. -/
section
namespace Sys2Proof.Machine

/-- The Steward's PART_DESTROY of partition 1. -/
def destroyReq : Req := { tag := 0, cmd := 0x0302, seq := 0, total := 8, payload := [1], frags := 1, whole := true, timeout := 1000 }

/-- A READY package with partition 1, which owns nothing; its mailbox stands twice in the table. -/
def twiceHw : Hw :=
  { sel := { parts := [(1, { exists_ := true })] },
    efano := { ready := true, boxes := [(1, { overrun := true }), (1, { overrun := true }), (17, { reqs := [destroyReq] })] } }

theorem twiceHw_serves : Serving { hw := twiceHw } .steward 0 0x0302 destroyReq := by
  refine ⟨rfl, rfl, rfl, rfl, rfl, rfl, rfl, by decide⟩

/-- What the row leaves of the two entries is the second. -/
theorem twiceHw_keeps_second : ∃ t, exec (.partDestroy .steward 0) { hw := twiceHw } = .next t ∧ (boxAt t.hw (.part 1)).overrun = true :=
  ⟨_, rfl, by rfl⟩

/-- Refutes O11: the mailbox of partition 1 stands twice in a table that is not canonical, and PART_DESTROY shows its second entry. -/
theorem not_partitionRows : ¬ Obligations.PartitionRows := by
  intro hall
  obtain ⟨-, -, -, -, -, -, -, -, hdestroy⟩ := hall { hw := twiceHw } _ .steward 0 destroyReq 1 rfl rfl
  obtain ⟨t, ht, -, -, -, -, -, -, -, hbox, -⟩ := hdestroy twiceHw_serves (by decide) (by decide) rfl rfl rfl nofun nofun nofun nofun nofun nofun
  obtain ⟨u, hu, hkept⟩ := twiceHw_keeps_second
  obtain rfl := Host.Outcome.next.inj (ht.symm.trans hu)
  rw [hbox] at hkept
  cases hkept

end Sys2Proof.Machine
end

/-! PROOFS. A scrub that passes ends its record with the FAILED mark as it was (R101, R102). The last clause of the statement, which is about
every state, reads the mark as clear also where a record that is not done bears it, as no run leaves one. -/
section
namespace Sys2Proof.Machine

/-- A scrub of no units in course, already marked failed. -/
def failedRec : ScrubRec := { seq := 0, from_ := 1, method := 3, kind := 3, first := 0, units := [], startTb := 0, failed := true }

def failedHw : Hw := { sel := { scrubs := [failedRec] } }

theorem failedHw_stays_failed : ∃ t, exec (.scrubComplete 0 none) { hw := failedHw } = .next t ∧
    (findScrub t.hw 0).map (·.failed) = some true := ⟨_, rfl, by decide +kernel⟩

/-- Refutes O12: a record in course that bears the FAILED mark keeps it as its scrub passes. -/
theorem not_shelfAndScrubRows : ¬ Obligations.ShelfAndScrubRows := by
  intro hall
  obtain ⟨-, -, -, -, -, -, hcomplete⟩ := hall { hw := failedHw } _ .steward 0 { tag := 0, cmd := 0, seq := 0 } rfl
  obtain ⟨t, ht, y, hy, -, hfailed, -⟩ := hcomplete 0 failedRec rfl rfl rfl
  obtain ⟨u, hu, hkept⟩ := failedHw_stays_failed
  obtain rfl := Host.Outcome.next.inj (ht.symm.trans hu)
  rw [hy] at hkept
  exact absurd (Option.some.inj hkept) (by simp [hfailed])

end Sys2Proof.Machine
end

/-! PROOFS. Little-endian fields of an answer's bytes (R20, R718). -/
section
namespace Sys2Proof.Machine

@[simp] theorem leBytes_length (n x : Nat) : (leBytes n x).length = n := by
  induction n generalizing x with
  | zero => rfl
  | succ n ih => rw [leBytes, List.length_cons, ih]

theorem leNat_leBytes (n x : Nat) : leNat (leBytes n x) = x % 256 ^ n := by
  induction n generalizing x with
  | zero => simp [leBytes, leNat, Nat.mod_one]
  | succ n ih =>
    have hsplit := Nat.mod_mul (x := x) (a := 256) (b := 256 ^ n)
    rw [leBytes, leNat, ih, BitVec.toNat_ofNat, pow_succ' 256 n, hsplit]

@[simp] theorem zeros_length (n : Nat) : (zeros n).length = n := List.length_replicate

/-- A field past the first bytes. -/
theorem leAt_append_right {a b : List Byte} {k off n : Nat} (ha : a.length = k) : leAt (a ++ b) (k + off) n = leAt b off n := by
  subst ha
  simp [leAt, List.drop_append, List.drop_eq_nil_of_le]

/-- A field within the first bytes. -/
theorem leAt_append_left {a b : List Byte} {off n : Nat} (ha : off + n ≤ a.length) : leAt (a ++ b) off n = leAt a off n := by
  rw [leAt, leAt, List.drop_append_of_le_length (by omega), List.take_append_of_le_length (by rw [List.length_drop]; omega)]

theorem leAt_leBytes (n x : Nat) : leAt (leBytes n x) 0 n = x % 256 ^ n := by
  rw [leAt, List.drop_zero, List.take_of_length_le (leBytes_length n x).le, leNat_leBytes]

theorem length_flatMap_const {α : Type} {f : α → List Byte} {k : Nat} (hf : ∀ a, (f a).length = k) (l : List α) :
    (l.flatMap f).length = k * l.length := by
  simp [List.length_flatMap, hf, Nat.mul_comm]

/-- The i-th of fields of equal length. -/
theorem leAt_flatMap {α : Type} {f : α → List Byte} {k : Nat} (hf : ∀ a, (f a).length = k) {l : List α} {i : Nat} {a : α}
    (hi : l[i]? = some a) : leAt (l.flatMap f) (k * i) k = leNat (f a) := by
  induction l generalizing i with
  | nil => simp at hi
  | cons b l ih =>
    rw [List.flatMap_cons]
    cases i with
    | zero =>
      obtain rfl : b = a := by simpa using hi
      rw [Nat.mul_zero, leAt_append_left (by rw [hf]; omega), leAt, List.drop_zero, List.take_of_length_le (hf b).le]
    | succ i =>
      rw [Nat.mul_succ, Nat.add_comm, leAt_append_right (hf b)]
      exact ih (by simpa using hi)

end Sys2Proof.Machine
end

/-! PROOFS. Objects, reports and lock groups (R63 to R65, R278 to R280, R400, R722). -/
section
namespace Sys2Proof.Machine

section
variable {h : Hw} {mem : Memory} {m : Mbx} {r : Req}

/-! ### Objects -/

theorem objectRegister_writes {id : Nat} {o : ObjRec} (hid : id = leAt r.payload 0 2) (ho : o = objOf r.payload)
    (hmap : ownsArea h (actsFor m) o.map (32 * o.count) = true) (htransit : ownsArea h (actsFor m) o.transit (65536 * o.slots) = true)
    (hlt : id < 1024) (hmode : o.mode ≤ 1) (hfmt : 1 ≤ o.format) (hfmt' : o.format ≤ 0x0E) (hrows : 1 ≤ o.rows) (hrows' : o.rows ≤ 65536)
    (hcols : 1 ≤ o.cols) (hcols' : o.cols ≤ 65536) (hmod : o.cols % 32 = 0)
    (hbytes : boltBytes (fmtBits o.format) (decide (3 ≤ o.format ∧ o.format ≤ 7)) o.rows o.cols ≤ 65536) (hcount : 1 ≤ o.count)
    (hcount' : o.count ≤ 16777216) (halign : o.map % 32 = 0) (hmapLt : o.map < 2 ^ 56) (hvar : objVarOk o (leAt r.payload 17 1) = true)
    (hroom : (h.tiers.objects.filter fun e => decide (e.1 / 1024 = actsFor m)).length < 1024) (hnew : (objAt h (actsFor m) id).used = false) :
    objectRegister m (h, mem) r = ((setObj h (actsFor m) id o, mem), doneC) := by
  subst hid ho
  unfold objectRegister
  simp only [hmap, htransit, hlt, hmode, hfmt, hfmt', hrows, hrows', hcols, hcols', hmod, hbytes, hcount, hcount', halign, hmapLt, hvar,
    hnew, Nat.not_le.mpr hroom]
  rfl

theorem objectUpdate_writes {id : Nat} {o x : ObjRec} (hid : id = leAt r.payload 0 2) (ho : o = objOf r.payload)
    (hx : x = objAt h (actsFor m) id) (hused : x.used = true) (htransit : ownsArea h (actsFor m) o.transit (65536 * o.slots) = true)
    (hmode : o.mode = x.mode) (hfmt : o.format = x.format) (hrows : o.rows = x.rows) (hcols : o.cols = x.cols) (hcount : o.count = x.count)
    (hmap : o.map = x.map) (hvar : objVarOk o (leAt r.payload 17 1) = true) :
    objectUpdate m (h, mem) r = ((setObj h (actsFor m) id o, mem), doneC) := by
  subst hid ho hx
  simp [objectUpdate, hused, htransit, hmode, hfmt, hrows, hcols, hcount, hmap, hvar]

/-- Marking descriptors changes the slips alone. -/
theorem markRetired_only (h : Hw) (p id : Nat) : markRetired h p id = { h with eng := (markRetired h p id).eng } := by
  have hrest : ({ markRetired h p id with eng := h.eng } : Hw) = h := by
    unfold markRetired
    refine foldl_keeps (fun g : Hw => { g with eng := h.eng }) (fun g e => ?_) _ h
    rfl
  exact congrArg (fun g : Hw => { g with eng := (markRetired h p id).eng }) hrest

theorem objectRetire_clears {id : Nat} (hid : id = leAt r.payload 0 2) (hused : (objAt h (actsFor m) id).used = true) :
    objectRetire m (h, mem) r = (({ h with
        tiers := { h.tiers with
          objects := tabPut {} h.tiers.objects (actsFor m * 1024 + id) {},
          tags := tabMap {} h.tiers.tags (fun k g => if g.obj = id ∧ (unitAt h 3 (k / 16 / 4)).owner = actsFor m then {} else g) },
        eng := (markRetired h (actsFor m) id).eng }, mem), doneC) := by
  subst hid
  unfold objectRetire
  simp only [hused, Bool.not_true, Bool.false_eq_true, if_false, setObj]
  rw [markRetired_only]

theorem objectQuery_answers {id : Nat} (hid : id = leAt r.payload 0 2) (hused : (objAt h (actsFor m) id).used = true) :
    objectQuery m (h, mem) r = ((h, mem), doneQ (objBytes id (objAt h (actsFor m) id))) := by
  subst hid
  simp [objectQuery, hused]

/-! ### Reports -/

theorem memEntry_length (c : Channel) (t : Nat) : (memEntry c t).length = 8 := by
  simp [memEntry]

theorem memStatus_answers : ∃ p, memStatus (h, mem) r = ((h, mem), doneQ p) ∧ p.length = 1128 ∧ leAt p 0 1 = flag h.memhw.nearOpen ∧
    leAt p 1 1 = flag h.memhw.farOpen := by
  have hflag (b : Bool) : flag b % 256 ^ 1 = flag b := by cases b <;> rfl
  refine ⟨_, rfl, ?_, ?_, ?_⟩
  · rw [List.length_append, List.length_append, length_flatMap_const (k := 8), length_flatMap_const (k := 8)]
    · simp
    · exact fun _ => memEntry_length ..
    · intro i
      split <;> exact memEntry_length ..
  · rw [List.append_assoc, List.append_assoc, List.append_assoc, leAt_append_left (by simp), leAt_leBytes, hflag]
  · rw [List.append_assoc, List.append_assoc, List.append_assoc, leAt_append_right (off := 0) (by simp), leAt_append_left (by simp),
      leAt_leBytes, hflag]

theorem slipQuery_answers (hlt : leAt r.payload 0 2 < 1024) (hname : mayName h m 5 (leAt r.payload 0 2) = true) :
    ∃ p, slipQuery m (h, mem) r = ((h, mem), doneQ p) ∧ p.length = 104 ∧
      ∀ i, i < 12 → leAt p (8 * i) 8 = (slipReg (slipAt h (leAt r.payload 0 2)) (8 * i)).toNat := by
  have hlen (i : Nat) : (leBytes 8 (slipReg (slipAt h (leAt r.payload 0 2)) (8 * i)).toNat).length = 8 := leBytes_length ..
  refine ⟨(List.range 12).flatMap (fun i => leBytes 8 (slipReg (slipAt h (leAt r.payload 0 2)) (8 * i)).toNat) ++
    leBytes 2 (placesOf (slipAt h (leAt r.payload 0 2))) ++ leBytes 2 (slipAt h (leAt r.payload 0 2)).skip.length ++ zeros 4, ?_, ?_, ?_⟩
  · simp [slipQuery, Nat.not_le.mpr hlt, hname]
  · simp only [List.length_append, length_flatMap_const hlen, List.length_range, leBytes_length, zeros_length]
  · intro i hi
    rw [List.append_assoc, List.append_assoc, leAt_append_left (by rw [length_flatMap_const hlen, List.length_range]; omega),
      leAt_flatMap hlen (List.getElem?_range hi), leNat_leBytes]
    exact Nat.mod_eq_of_lt (slipReg (slipAt h (leAt r.payload 0 2)) (8 * i)).isLt

theorem ferryQuery_answers (hlt : leAt r.payload 0 1 < 34) (hname : mayName h m 4 (leAt r.payload 0 1) = true) :
    ferryQuery m (h, mem) r = ((h, mem), doneQ ((List.range 8).flatMap fun k => ferryEntry h (8 * leAt r.payload 0 1 + k))) := by
  simp [ferryQuery, Nat.not_le.mpr hlt, hname]

/-! ### Lock groups -/

theorem lockShape_inDie {b : List Byte} (hs : lockShape b = true) : ¬(leAt b 0 1 ≥ 4 ∨ leAt b 1 1 + leAt b 2 1 > 32) := by
  simp [lockShape] at hs
  omega

theorem lockSet_forms (hs : lockShape r.payload = true) (hq : ∀ q ∈ lockNamed r.payload, ownerOf h 3 q = actsFor m ∧
    lockOf h q = none ∧ (islandAt h { kind := .quad, idx := q }).power = .open) : lockSet m (h, mem) r = (({ h with
        locks := h.locks ++ [{ die := leAt r.payload 0 1, first := leAt r.payload 1 1, size := leAt r.payload 2 1, since := h.tb.now }] }, mem),
      { commit := true, wait := .lock (leAt r.payload 0 1) (leAt r.payload 1 1) }) := by
  have hown : ((lockNamed r.payload).all fun q => decide (ownerOf h 3 q = actsFor m)) = true :=
    List.all_eq_true.mpr fun q hm => decide_eq_true (hq q hm).1
  have hopen : ((lockNamed r.payload).any fun q => (lockOf h q).isSome || gatedOrClosing h { kind := .quad, idx := q }) = false :=
    List.any_eq_false.mpr fun q hm => by simp [(hq q hm).2.1, gatedOrClosing, (hq q hm).2.2]
  unfold lockSet
  simp only [if_neg (lockShape_inDie hs), hown, hs, hopen]
  rfl

theorem lockClear_ends (hs : lockShape r.payload = true)
    (hq : ∀ q ∈ lockNamed r.payload, ownerOf h 3 q = actsFor m ∧ ∀ x ∈ quadRuns h q, x.running = false)
    (hg : ∃ g ∈ h.locks, g.die = leAt r.payload 0 1 ∧ g.first = leAt r.payload 1 1 ∧ g.size = leAt r.payload 2 1)
    (hlocked : ∀ g ∈ h.locks, g.die = leAt r.payload 0 1 → g.first = leAt r.payload 1 1 → g.size = leAt r.payload 2 1 → g.locked = true) :
    lockClear m (h, mem) r = (({ h with
      locks := h.locks.filter fun g =>
        !decide (g.die = leAt r.payload 0 1 ∧ g.first = leAt r.payload 1 1 ∧ g.size = leAt r.payload 2 1) }, mem), doneC) := by
  have hown : ((lockNamed r.payload).all fun q => decide (ownerOf h 3 q = actsFor m)) = true :=
    List.all_eq_true.mpr fun q hm => decide_eq_true (hq q hm).1
  have hidle : ((lockNamed r.payload).any fun q => (quadRuns h q).any (·.running)) = false :=
    List.any_eq_false.mpr fun q hm => by simpa using (hq q hm).2
  have hthere : (h.locks.any fun g => decide (g.die = leAt r.payload 0 1 ∧ g.first = leAt r.payload 1 1 ∧ g.size = leAt r.payload 2 1)) = true := by
    simpa using hg
  have hformed : (h.locks.any fun g =>
      decide (g.die = leAt r.payload 0 1 ∧ g.first = leAt r.payload 1 1 ∧ g.size = leAt r.payload 2 1) && !g.locked) = false := by
    rw [List.any_eq_false]
    intro g hm
    simpa using hlocked g hm
  unfold lockClear
  simp only [if_neg (lockShape_inDie hs), hown, hidle, hthere, hformed]
  rfl

theorem lockFormed_locks {die first : Nat} {g : LockGroup} (hg : g ∈ h.locks) (hdie : g.die = die) (hfirst : g.first = first)
    (hforms : g.locked = false) : lockFormed h die first = endWaits { h with
      locks := h.locks.map fun g => if g.die = die ∧ g.first = first then { g with locked := true } else g }
      (fun r => decide (r.wait = Wait.lock die first)) 0 0 :=
  if_pos (List.any_eq_true.mpr ⟨g, hg, by simp [hdie, hfirst, hforms]⟩)

end

/-- Settles O13: each command is its body's equation, served. -/
theorem objectAndLockRows : Obligations.ObjectAndLockRows := by
  intro s h m tag r hh
  refine ⟨?register, ?update, ?retire, ?query, ?mem, ?slip, ?ferry, ?set, ?clear, ?formed⟩
  case register =>
    intro id o hs hid ho hmap ht hlt h1 h2 h3 h4 h5 h6 h7 h8 h9 h10 h11 h12 h13 hvar hroom hnew
    exact onAll_serve_done hh hs
      (objectRegister_writes hid ho hmap ht hlt h1 h2 h3 h4 h5 h6 h7 h8 h9 h10 h11 h12 h13 hvar hroom hnew)
  case update =>
    intro id o x hs hid ho hx hused ht h1 h2 h3 h4 h5 h6 hvar
    exact onAll_serve_done hh hs (objectUpdate_writes hid ho hx hused ht h1 h2 h3 h4 h5 h6 hvar)
  case retire => exact fun id hs hid hused => onAll_serve_done hh hs (objectRetire_clears hid hused)
  case query => exact fun id hs hid hused => onAll_serve_answer hh hs (objectQuery_answers hid hused)
  case mem =>
    intro hs
    obtain ⟨p, hp, hlen, hnear, hfar⟩ := memStatus_answers (h := h) (mem := s.mem) (r := r)
    exact ⟨_, onAll_serve_answer hh hs hp, p, hlen, hnear, hfar, rfl⟩
  case slip =>
    intro hs hlt hname
    obtain ⟨p, hp, hlen, hregs⟩ := slipQuery_answers (mem := s.mem) hlt hname
    exact ⟨_, onAll_serve_answer hh hs hp, p, hlen, hregs, rfl⟩
  case ferry => exact fun hs hlt hname => onAll_serve_answer hh hs (ferryQuery_answers hlt hname)
  case set => exact fun hs hshape hq => onAll_serve_wait hh hs (lockSet_forms hshape hq) nofun
  case clear => exact fun hs hshape hq hg hl => onAll_serve_done hh hs (lockClear_ends hshape hq hg hl)
  case formed =>
    subst hh
    exact fun die first g hg hdie hfirst hf => row_ended (lockFormed_locks hg hdie hfirst hf) rfl

end Sys2Proof.Machine
end

/-! PROOFS. Knots, pools and ledgers as the mailbox answers of them (R480, R495, R501, R510, R512). -/
section
namespace Sys2Proof.Machine

section
variable {h : Hw} {mem : Memory} {m : Mbx} {r : Req}

theorem knotQuery_answers {k : Knot} (hlt : leAt r.payload 0 4 < 2 ^ 18) (hname : mayName h m 6 (refKnot (leAt r.payload 0 4) / 256) = true)
    (hk : k = knotAt h (refKnot (leAt r.payload 0 4))) : knotQuery m (h, mem) r = ((h, mem), doneQ (leBytes 1 k.type ++ leBytes 1 k.evmode
      ++ leBytes 1 (flag k.cross + 2 * flag k.broken + 4 * flag k.poison) ++ zeros 1 ++ leBytes 2 k.irq ++ zeros 2 ++ leBytes 4 k.parties
      ++ leBytes 4 k.waiters.length ++ leBytes 8 k.value.toNat ++ leBytes 32 k.members)) := by
  subst hk
  unfold knotQuery
  simp only [if_neg (Nat.not_le.mpr hlt), hname]
  rfl

/-- The pool that POOL_CREATE's payload describes. -/
def newPool (b : List Byte) : Pool :=
  { used := true, die := leAt b 1 1, entries := leAt b 4 4, bufSize := leAt b 8 8, base := leAt b 16 8, ring := leAt b 24 8,
    refill := leAt b 32 4, tail := w32 (leAt b 4 4) }

/-- The fields of a pool are in range (Table 24.6). -/
structure PoolInRange (id : Nat) (x : Pool) : Prop where
  id : id < 64
  die : x.die < 4
  base : x.base % 4096 = 0
  ring : x.ring % 4096 = 0
  whole : x.bufSize % 4096 = 0
  least : 4096 ≤ x.bufSize
  most : x.bufSize ≤ 2 ^ 30
  some : 1 ≤ x.entries
  bound : x.entries ≤ 16777216

theorem poolCreate_creates {x : Pool} (hx : x = newPool r.payload)
    (hbase : ownsArea h (actsFor m) x.base (x.entries * x.bufSize) = true) (hring : ownsArea h (actsFor m) x.ring (4 * ringCap x.entries) = true)
    (hrefill : x.refill < 2 ^ 18) (hknot : knotOwner h (refKnot x.refill) = actsFor m) (hrange : PoolInRange (leAt r.payload 0 1) x)
    (hnew : (poolAt h (actsFor m) (leAt r.payload 0 1)).used = false) (hdie : poolsOn h x.die < 256)
    (hroom : (h.sync.pools.filter fun e => decide (e.1 / 64 = actsFor m)).length < 64) : poolCreate m (h, mem) r =
      ((setPool (cohWrite (h, mem) (compactLocal x.ring) ((List.range x.entries).flatMap (leBytes 4))).1 (actsFor m) (leAt r.payload 0 1) x,
        (cohWrite (h, mem) (compactLocal x.ring) ((List.range x.entries).flatMap (leBytes 4))).2), doneC) := by
  subst hx
  obtain ⟨h1, h2, h3, h4, h5, h6, h7, h8, h9⟩ := hrange
  unfold newPool at *
  dsimp only at *
  unfold poolCreate
  simp only [hbase, hring, hrefill, hknot, h1, h2, h3, h4, h5, h6, h7, h8, h9, hnew, Nat.not_le.mpr hdie, Nat.not_le.mpr hroom]
  rfl

theorem poolDestroy_destroys (hlt : leAt r.payload 0 1 < 64) (hused : (poolAt h (actsFor m) (leAt r.payload 0 1)).used = true) :
    poolDestroy m (h, mem) r = (destroyPool (h, mem) (actsFor m) (leAt r.payload 0 1), doneC) :=
  if_pos ⟨hlt, hused⟩

theorem poolQuery_answers {x : Pool} (hlt : leAt r.payload 0 1 < 64) (hx : x = poolAt h (actsFor m) (leAt r.payload 0 1))
    (hused : x.used = true) : poolQuery m (h, mem) r = ((h, mem), doneQ (leBytes 1 (leAt r.payload 0 1) ++ leBytes 1 x.die ++ zeros 2
      ++ leBytes 4 x.entries ++ leBytes 8 x.bufSize ++ leBytes 8 x.base ++ leBytes 8 x.ring ++ leBytes 4 x.refill ++ zeros 4
      ++ leBytes 4 x.head.toNat ++ leBytes 4 x.tail.toNat ++ leBytes 4 x.queue.length ++ zeros 4)) := by
  subst hx
  exact if_pos ⟨hlt, hused⟩

theorem knotWaitStats_answers {first n : Nat} (hfirst : first = leAt r.payload 0 4) (hn : n = leAt r.payload 4 2) (h0 : n ≠ 0) (hn' : n ≤ 256)
    (hlast : first + n ≤ 2 ^ 18) (hname : ∀ i, i < n → mayName h m 6 ((first + i) / 256) = true) : knotWaitStats m (h, mem) r =
      ((h, mem), doneQ ((List.range n).flatMap fun i => leBytes 8 ((knotAt h (first + i)).waitShown / 1000))) := by
  subst hfirst hn
  have hmine : ((List.range (leAt r.payload 4 2)).all fun i => mayName h m 6 ((leAt r.payload 0 4 + i) / 256)) = true :=
    List.all_eq_true.mpr fun i hi => hname i (List.mem_range.mp hi)
  unfold knotWaitStats
  simp only [if_neg (by omega : ¬(leAt r.payload 4 2 = 0 ∨ leAt r.payload 4 2 > 256 ∨ leAt r.payload 0 4 + leAt r.payload 4 2 > 2 ^ 18)), hmine]
  rfl

theorem ledgerQuery_answers {n : Nat} (hn : n = leAt r.payload 0 2) (hname : mayName h m 7 (n / 16) = true) : ledgerQuery m (h, mem) r =
    ((h, mem), doneQ (ledgerBytes (ledgerAt h n) ++ leBytes 1 (ledgerAt h n).poison ++ zeros 7)) := by
  subst hn
  simp [ledgerQuery, hname]

end

/-- Settles O14: each command is its body's equation, served. -/
theorem knotPoolLedgerQueries : Obligations.KnotPoolLedgerQueries := by
  intro s h m tag r hh
  refine ⟨?knot, ?create, ?destroy, ?pool, ?stats, ?ledger⟩
  case knot => exact fun k hs hlt hname hk => onAll_serve_answer hh hs (knotQuery_answers hlt hname hk)
  case create =>
    rintro _ x _ hs rfl rfl hx hbase hring hrefill hknot h1 h2 h3 h4 h5 h6 h7 h8 h9 hnew hdie hroom
    have hbody := poolCreate_creates (mem := s.mem) hx hbase hring hrefill hknot ⟨h1, h2, h3, h4, h5, h6, h7, h8, h9⟩ hnew hdie hroom
    have hrow : exec (.poolCreate m tag) s = _ := onAll_serve_doneAll hh hs hbody
    rw [hrow]
  case destroy => exact fun hs hlt hused => onAll_serve_doneAll hh hs (poolDestroy_destroys hlt hused)
  case pool => exact fun x hs hlt hx hused => onAll_serve_answer hh hs (poolQuery_answers hlt hx hused)
  case stats =>
    exact fun first n hs hfirst hn h0 hn' hlast hname => onAll_serve_answer hh hs (knotWaitStats_answers hfirst hn h0 hn' hlast hname)
  case ledger => exact fun n hs hn hname => onAll_serve_answer hh hs (ledgerQuery_answers hn hname)

end Sys2Proof.Machine
end

/-! PROOFS. UNIT_RECONCILE while a wider fence stands (chapter 19, after Table 19.11). A unit whose partition is Fenced is not recovered yet, and
the refusal of that comes before the check that a MGMT_DATA_MISMATCH names the unit. The statement gives NOT_MISMATCHED to every unit that
none names, so it fails under a package fence. -/
section
namespace Sys2Proof.Machine

/-- The Steward's UNIT_RECONCILE of cluster 0, to nobody. -/
def reconcileReq : Req :=
  { tag := 0, cmd := 0x0A05, seq := 0, total := 16, payload := [2, 0, 0, 0, 0, 0, 0, 0, 0xFF, 0, 0, 0, 0, 0, 0, 0], frags := 1, whole := true,
    timeout := 1000 }

/-- A READY package that is Fenced, with that request in the Steward's mailbox. -/
def fencedHw : Hw :=
  { faults := { fences := [{ scope := .package, kind := 0, unit := 0, part := 0xFF, causes := [] }] },
    efano := { ready := true, boxes := [(17, { reqs := [reconcileReq] })] } }

theorem fencedHw_serves : Serving { hw := fencedHw } .steward 0 0x0A05 reconcileReq := by
  refine ⟨rfl, rfl, rfl, rfl, rfl, rfl, rfl, by decide⟩

/-- The status byte of the first answer a mailbox has queued. -/
def firstStatus (t : State) (m : Mbx) : Option Nat := (boxAt t.hw m).queue.head?.map fun q => leAt q.hdr 10 2

theorem fencedHw_answers : ∃ t, exec (.unitReconcile .steward 0 none true) { hw := fencedHw } = .next t ∧ firstStatus t .steward = some 0x60 :=
  ⟨_, rfl, by decide +kernel⟩

/-- Refutes O15: a package fence refuses UNIT_RECONCILE with FENCED before the mismatch is looked for. -/
theorem not_faultAndLogCommandRows : ¬ Obligations.FaultAndLogCommandRows := by
  intro hall
  obtain ⟨-, -, -, -, hreconcile, -⟩ := hall { hw := fencedHw } _ .steward 0 reconcileReq rfl
  have hrow := hreconcile none true fencedHw_serves (.inl (by decide)) (by decide)
  obtain ⟨t, ht, hstatus⟩ := fencedHw_answers
  obtain rfl := Host.Outcome.next.inj (ht.symm.trans hrow)
  exact absurd hstatus (by decide +kernel)

end Sys2Proof.Machine
end

/-! PROOFS. Causes of doubt, the failing log, and patrol reads (R151, R349, R573, R581, R583, R585). -/
section
namespace Sys2Proof.Machine

/-! ### A package fence over a lost log leaves the fault stores and the last word as they are -/

/-- What a lost log, its fence and its last word are kept in: the fault stores but for FAULT_N, the last word, and the mailboxes. -/
def doubtKept (h : Hw) : FaultLog × List Fence × W64 × Efano := (h.faults.log, h.faults.fences, h.keep.lastWord, h.efano)

theorem endDesc_doubtKept (h : Hw) (s : Nat) (d : Desc) (a b : Nat) : doubtKept (endDesc h s d a b) = doubtKept h := by
  unfold endDesc
  dsimp only
  split <;> rfl

theorem fenceQuad_doubtKept (h : Hw) (q : Nat) : doubtKept (fenceQuad h q) = doubtKept h := by
  refine Eq.trans rfl (foldl_keeps doubtKept (fun g r => ?_) (quadRuns h q) h)
  split
  · exact endDesc_doubtKept ..
  · rfl

theorem postSnoop_doubtKept (h : Hw) (l op p : Nat) : doubtKept (postSnoop h l op p) = doubtKept h := rfl

theorem forgetLines_doubtKept (h : Hw) (p : Nat → Bool) : doubtKept (forgetLines h p) = doubtKept h := by
  unfold forgetLines
  refine (Eq.trans rfl (foldl_keeps doubtKept (fun g l => ?_) _ _)).trans (foldl_keeps doubtKept (fun g e => ?_) _ h)
  · rfl
  · exact foldl_keeps doubtKept (fun g q => postSnoop_doubtKept g e.1 2 q) _ g

theorem rnmi_doubtKept (h : Hw) (n c : Nat) : doubtKept (rnmi h n c) = doubtKept h := by
  unfold rnmi
  dsimp only
  split
  · rfl
  · split <;> rfl

theorem broadcast_doubtKept (h : Hw) (t : Nat) (b : List Nat) : doubtKept (broadcast h t b) = doubtKept h := by
  unfold broadcast
  split <;> rfl

theorem holdSwatches_doubtKept (h : Hw) (p : Nat → Swatch → Bool) : doubtKept (holdSwatches h p) = doubtKept h :=
  forgetLines_doubtKept ..

theorem rnmiAll_doubtKept (h : Hw) (p : Nat → Bool) (c : Nat) : doubtKept (rnmiAll h p c) = doubtKept h :=
  foldl_keeps doubtKept (fun _ _ => rnmi_doubtKept ..) _ _

theorem fenceLinks_doubtKept (h : Hw) (p : Nat → Bool) : doubtKept (fenceLinks (hotReset h p) p) = doubtKept h := rfl

theorem fenceSlip_doubtKept (h : Hw) (n : Nat) (b : Bool) : doubtKept (fenceSlip h n b) = doubtKept h := rfl

theorem fencePackage_doubtKept (h : Hw) : doubtKept (fencePackage h) = doubtKept h := by
  unfold fencePackage
  extract_lets h1 h2 h3 h4 h5 power
  have e1 : doubtKept h1 = doubtKept h := foldl_keeps doubtKept (fun _ _ => fenceSlip_doubtKept ..) _ _
  have e2 : doubtKept h2 = doubtKept h1 := foldl_keeps doubtKept (fun _ _ => fenceQuad_doubtKept ..) _ _
  have e3 : doubtKept h3 = doubtKept h2 := holdSwatches_doubtKept ..
  have e4 : doubtKept h4 = doubtKept h3 := fenceLinks_doubtKept ..
  have e5 : doubtKept h5 = doubtKept h4 := rnmiAll_doubtKept ..
  clear_value h1 h2 h3 h4 h5
  exact (broadcast_doubtKept ..).trans (e5.trans (e4.trans (e3.trans (e2.trans e1))))

theorem recordWrite_lost {h : Hw} (hl : logLost h = true) (r : FaultRec) : recordWrite h r = h := if_pos hl

theorem logLost_of_log {h h' : Hw} (e : doubtKept h' = doubtKept h) (hl : logLost h = true) : logLost h' = true :=
  (congrArg (fun k : FaultLog × List Fence × W64 × Efano => k.1.failed0 && k.1.failed1) e).trans hl

/-- No wake report is recorded by a lost log (R583). -/
theorem writeReport_doubtKept {h : Hw} (hl : logLost h = true) (a b c d : Nat) : doubtKept (writeReport h a b c d) = doubtKept h := by
  have keep (g : Hw) (r : FaultRec) (hg : doubtKept g = doubtKept h) : doubtKept (recordWrite g r) = doubtKept h := by
    rw [recordWrite_lost (logLost_of_log hg hl), hg]
  unfold writeReport
  exact List.foldlRecOn _ _ (motive := fun g => doubtKept g = doubtKept h) (keep _ _ rfl) fun g hg p _ => keep g _ hg

theorem exitTrigger_doubtKept {h : Hw} (hl : logLost h = true) (w : WakeBy) : doubtKept (exitTrigger h w) = doubtKept h := by
  unfold exitTrigger
  split
  · rfl
  · exact writeReport_doubtKept (h := { h with start := { h.start with st := .active, since := h.tb.now } }) hl ..
  · rfl

theorem wakeUp_doubtKept {h : Hw} (hl : logLost h = true) : doubtKept (wakeUp h) = doubtKept h := by
  unfold wakeUp
  split
  · exact exitTrigger_doubtKept (h := { h with start := { h.start with irqWake := false } }) hl _
  · rfl

theorem routeOut_doubtKept (h : Hw) : doubtKept (routeOut h) = doubtKept h := by
  rw [routeOut_only]
  rfl

theorem stepEnd_doubtKept {h : Hw} (hl : logLost h = true) : doubtKept (stepEnd h) = doubtKept h :=
  (routeOut_doubtKept _).trans (wakeUp_doubtKept hl)

/-! ### The log is lost (R583) -/

/-- What losing the log leaves: no sound copy, no record, a package fence, and its type in the last word with the log's loss marked. -/
structure LogIsLost (h : Hw) : Prop where
  lost : logLost h = true
  fenced : pkgFenced h = true
  empty : h.faults.log.recs = []
  marked : bitOf h.keep.lastWord.toNat 19 = true
  type : field h.keep.lastWord.toNat 15 0 = 0x0807

theorem LogIsLost.of_doubtKept {h h' : Hw} (e : doubtKept h' = doubtKept h) (hl : LogIsLost h) : LogIsLost h' := by
  obtain ⟨e1, e2, e3, -⟩ : h'.faults.log = h.faults.log ∧ h'.faults.fences = h.faults.fences ∧ h'.keep.lastWord = h.keep.lastWord ∧ _ := by
    simpa [doubtKept] using e
  obtain ⟨a, b, c, d, f⟩ := hl
  exact ⟨by rw [logLost, e1]; exact a, by rw [pkgFenced, e2]; exact b, by rw [e1]; exact c, by rw [e3]; exact d, by rw [e3]; exact f⟩

theorem addCause_package (fs : List Fence) (c : Cause) :
    (addCause fs .package 0 0 0xFF c).any (fun f => f.scope = Scope.package) = true := by
  unfold addCause
  split
  next hany =>
    obtain ⟨f, hf, hc⟩ := List.any_eq_true.mp hany
    refine List.any_eq_true.mpr ⟨_, List.mem_map.mpr ⟨f, hf, rfl⟩, ?_⟩
    rw [if_pos hc]
    simp only [Bool.and_eq_true, decide_eq_true_eq] at hc ⊢
    exact hc.1.1.1
  next => simp

theorem lastWordNext_toNat (w : W64) (tb : Nat) : ∃ n t, n < 16 ∧
    (lastWordNext w 0x0807 true tb).toNat = 0x0807 + 3 * 2 ^ 16 + 2 ^ 19 + n * 2 ^ 20 + t * 2 ^ 24 := by
  have hn : (if field w.toNat 23 20 = 15 then 15 else field w.toNat 23 20 + 1) < 16 := by
    have : field w.toNat 23 20 < 16 := Nat.mod_lt _ (by decide)
    split <;> omega
  have ht : field tb 55 16 < 2 ^ 40 := Nat.mod_lt _ (by decide)
  refine ⟨_, field tb 55 16, hn, (BitVec.toNat_ofNat ..).trans ?_⟩
  simp only [Bool.true_or, flag, if_true]
  omega

/-- A state with one cause more on the package's fence. -/
def packageCause (h : Hw) (c : Cause) : Hw :=
  { h with faults := { h.faults with fences := addCause h.faults.fences .package 0 0 0xFF c } }

/-- A package-scope cause fences the package, is recorded and writes the last word (R585, R586). -/
theorem causeOfDoubt_package (h : Hw) (kind idx part : Nat) (r0 : FaultRec) : ∃ c r, r.type = r0.type ∧
    causeOfDoubt h .package kind idx part r0 = lastWord (recordWrite (fencePackage (packageCause h c)) r) r.type
      (logLost (recordWrite (fencePackage (packageCause h c)) r)) := by
  unfold causeOfDoubt
  generalize fencePackage = fence, recordWrite = write
  exact ⟨_, { r0 with cls := scopeClass .package, scope := scopeCode .package, unitKind := kind, unit := idx, part := part }, rfl, rfl⟩

theorem lastWord_keep (g : Hw) (type : Nat) (lost : Bool) :
    (lastWord g type lost).keep.lastWord = lastWordNext g.keep.lastWord type lost g.tb.now := rfl

theorem setWord_faults (g : Hw) (w : W64) : ({ g with keep := { g.keep with lastWord := w } } : Hw).faults = g.faults := rfl

theorem lastWord_faults (g : Hw) (type : Nat) (lost : Bool) : (lastWord g type lost).faults = g.faults := setWord_faults g _

theorem bitOf_lastWordNext (w : W64) (tb : Nat) : bitOf (lastWordNext w 0x0807 true tb).toNat 19 = true := by
  obtain ⟨n, t, hn, hw⟩ := lastWordNext_toNat w tb
  rw [hw, bitOf, Nat.testBit_eq_decide_div_mod_eq, decide_eq_true_eq]
  omega

theorem field_lastWordNext (w : W64) (tb : Nat) : field (lastWordNext w 0x0807 true tb).toNat 15 0 = 0x0807 := by
  obtain ⟨n, t, hn, hw⟩ := lastWordNext_toNat w tb
  rw [hw, field]
  omega

theorem lastWord_logIsLost {g : Hw} (hl : logLost g = true) (hf : pkgFenced g = true) (he : g.faults.log.recs = []) :
    LogIsLost (lastWord g 0x0807 true) := by
  refine ⟨by rw [logLost, lastWord_faults]; exact hl, by rw [pkgFenced, lastWord_faults]; exact hf,
    by rw [lastWord_faults]; exact he, ?_, ?_⟩
  · rw [lastWord_keep]
    exact bitOf_lastWordNext ..
  · rw [lastWord_keep]
    exact field_lastWordNext ..

theorem causeOfDoubt_logIsLost {h : Hw} (hl : logLost h = true) (he : h.faults.log.recs = []) (kind idx part : Nat) {r0 : FaultRec}
    (ht : r0.type = 0x0807) : LogIsLost (causeOfDoubt h .package kind idx part r0) := by
  obtain ⟨c, r, hr, e⟩ := causeOfDoubt_package h kind idx part r0
  have e3 := fencePackage_doubtKept (packageCause h c)
  rw [e, hr, ht]
  generalize fencePackage (packageCause h c) = g at e3
  have hlog : g.faults.log = h.faults.log := congrArg Prod.fst e3
  have hfences : g.faults.fences = addCause h.faults.fences .package 0 0 0xFF c := congrArg (·.2.1) e3
  have hlg : logLost g = true := by rw [logLost, hlog]; exact hl
  rw [recordWrite_lost hlg, hlg]
  exact lastWord_logIsLost hlg (by rw [pkgFenced, hfences]; exact addCause_package ..) (by rw [hlog]; exact he)

theorem loseLog_logIsLost (h : Hw) : LogIsLost (loseLog h) := by
  unfold loseLog
  exact causeOfDoubt_logIsLost rfl rfl _ _ _ rfl

theorem logLostEvent_sound {h : Hw} (hl : logLost h = false) : logLostEvent h = loseLog h := by
  simp [logLostEvent, hl]

/-- A row that loses the log leaves it lost at the end of its step. -/
theorem ended_logIsLost {s : State} {g : Hw} (hg : LogIsLost g) : LogIsLost (s.ended g).hw :=
  hg.of_doubtKept (stepEnd_doubtKept hg.lost)

/-! ### The rows -/

section
variable {h : Hw}

theorem doubtAll_tamper (mem : Memory) (n : Nat) : doubtAll (h, mem) (.tamper n) =
    (causeOfDoubt h .package 0 0 0xFF { type := 0x0804, arg0 := n }, mem) := by
  simp only [doubtAll, doubt]

theorem doubtAll_rail (mem : Memory) (rail ma : Nat) : doubtAll (h, mem) (.railOvershoot rail ma) =
    (causeOfDoubt h .package 15 rail 0xFF { type := 0x0706, arg0 := ma }, mem) := by
  simp only [doubtAll, doubt]

theorem doubtAll_thermal (mem : Memory) (k u x : Nat) : doubtAll (h, mem) (.thermalTrip k u x) =
    (causeOfDoubt { h with power := { h.power with tripped := true } } .package k u 0xFF { type := 0x0707, arg0 := x }, mem) := by
  simp only [doubtAll, doubt]

theorem metaUe_keySlot (p : Nat) (near : Bool) : metaUe h (.keySlot p near) =
    causeOfDoubt h .partition 0 0 p { type := 0x0103, arg0 := flag near } := by
  simp only [metaUe]

theorem metaUe_table (die : Nat) : metaUe h (.table die) =
    causeOfDoubt h .package 0 0 0xFF { type := 0x0504, arg0 := 0, arg1 := die } := by
  simp only [metaUe]

theorem metaUe_slip (n off : Nat) : metaUe h (.slip n off) =
    causeOfDoubt h .unit 5 n (unitPart h 5 n) { type := 0x0507, arg0 := off } := by
  simp only [metaUe]

theorem exec_causeOfDoubt (c : DoubtCause) (s : State) : exec (.causeOfDoubt c) s =
    .next (s.withHm (stepEnd (doubtAll (clearSent s.hw, s.mem) c).1, (doubtAll (clearSent s.hw, s.mem) c).2)) := rfl

theorem exec_metaUe (u : MetaUnit) (s : State) : exec (.metaUe u) s = .next (s.ended (metaUe (clearSent s.hw) u)) := rfl

theorem disagree_unit {m : Mismatch} (hk : m.kind ≠ 1) (h1 : m.fld ≠ 1) (h3 : m.fld ≠ 3) : disagree h m =
    causeOfDoubt h .unit m.kind m.idx (unitPart h m.kind m.idx) { type := 0x0803, arg0 := m.mgmt, arg1 := m.data, arg2 := m.fld } := by
  unfold disagree restrict
  simp only [if_neg hk, if_neg h1, if_neg h3]

theorem reconciliation_busy (hm : h.efano.mr.isSome = true) (hj : journalOpen h = true) (ms : List Mismatch) :
    reconciliation h ms = h := by
  unfold reconciliation
  rw [if_pos hm, if_pos hj]

theorem reconciliation_agrees (hm : h.efano.mr.isSome = true) (hj : journalOpen h = false) :
    reconciliation h [] = { h with efano := { h.efano with agreed := true } } := by
  unfold reconciliation
  rw [if_pos hm, hj]
  rfl

theorem reconciliation_one (hm : h.efano.mr = none) (m : Mismatch) : reconciliation h [m] = disagree h m := by
  unfold reconciliation
  rw [hm]
  rfl

theorem logCopyFail_first (addr : Nat) (h0 : h.faults.log.failed0 = false) (h1 : h.faults.log.failed1 = false) :
    logCopyFail h 0 addr = recordWrite { h with faults := { h.faults with log := { h.faults.log with failed0 := true } } }
      { type := 0x0801, cls := 4, part := 0xFF, unitKind := 19, unit := 0, addr := addr, arg0 := 0 } := by
  simp [logCopyFail, h0, h1]

theorem logCopyFail_last (addr : Nat) (h0 : h.faults.log.failed0 = true) (h1 : h.faults.log.failed1 = false) :
    logCopyFail h 1 addr = loseLog h := by
  simp [logCopyFail, h0, h1]

theorem rateFlush_pending {type unit : Nat} {x : RateState} (hx : x = tabGet {} h.faults.rates (type * 2 ^ 32 + unit)) (ha : x.armed = true)
    (hp : x.pending ≠ 0) : ∃ h1 h2 y, y = ({ armed := true, last := h1.tb.now, record := x.record } : RateState) ∧
      h1 = advanceTo h (x.last + 1000000000) ∧ h2 = recordWrite h1 { x.record with count := x.pending } ∧
      rateFlush h type unit = { h2 with faults := { h2.faults with rates := tabPut {} h2.faults.rates (type * 2 ^ 32 + unit) y } } := by
  refine ⟨_, _, _, rfl, rfl, rfl, ?_⟩
  subst hx
  unfold rateFlush
  simp only [ha, if_true, if_neg hp]
  rfl

theorem patrolRead_clean {u : PatrolUnit} (hu : patrolled h u = true) : patrolRead h u .clean =
    { h with ecc := { h.ecc with patrolPos := tabMod 0 h.ecc.patrolPos (patrolRow u) (· + 1) } } := by
  simp [patrolRead, hu, Upset.counts, Upset.isUe]

end

/-- Settles O17: every cause goes through one operation, and once the log is lost neither the package fence nor the end of the step writes
its stores or the last word again. -/
theorem faultEventRows : Obligations.FaultEventRows := by
  rintro s _ rfl
  refine ⟨fun n => row_endedHw (doubtAll_tamper ..) (exec_causeOfDoubt ..), fun rail ma => row_endedHw (doubtAll_rail ..) (exec_causeOfDoubt ..),
    fun k u x => row_endedHw (doubtAll_thermal ..) (exec_causeOfDoubt ..), fun p near => row_ended (metaUe_keySlot ..) (exec_metaUe ..),
    fun die => row_ended (metaUe_table ..) (exec_metaUe ..), fun n off => row_ended (metaUe_slip ..) (exec_metaUe ..), fun ms hm hj => ?_,
    fun hm hj => ?_, fun m hm hk h1 h3 => ?_, fun addr h0 h1 => ?_, fun addr h0 h1 => ?_, fun hl => ?_,
    fun type unit x hx ha hp => ?_, fun u hu => ?_⟩
  · exact row_idle (reconciliation_busy hm hj ms) rfl
  · exact row_ended (reconciliation_agrees hm hj) rfl
  · exact row_ended ((reconciliation_one hm m).trans (disagree_unit hk h1 h3)) rfl
  · exact row_ended (logCopyFail_first addr h0 h1) rfl
  · obtain ⟨a, b, c, d, e⟩ := ended_logIsLost (s := s) (loseLog_logIsLost (clearSent s.hw))
    exact ⟨_, row_ended (logCopyFail_last addr h0 h1) rfl, a, b, c, d, e⟩
  · obtain ⟨a, b, c, d, e⟩ := ended_logIsLost (s := s) (loseLog_logIsLost (clearSent s.hw))
    exact ⟨_, row_ended (logLostEvent_sound hl) rfl, a, b, c, d, e⟩
  · obtain ⟨h1, h2, y, hy, e1, e2, e⟩ := rateFlush_pending hx ha hp
    exact ⟨_, row_ended e rfl, h1, h2, y, hy, e1, e2, rfl⟩
  · exact row_ended (patrolRead_clean hu) rfl

end Sys2Proof.Machine
end

/-! PROOFS. The power commands as the mailbox serves them (R540, R543, R548, R553, R556, R558, R564). -/
section
namespace Sys2Proof.Machine

/-- Noting the slowed partitions changes no more than the partitions. -/
theorem noteThrottle_only (h : Hw) : ∃ t : Tab Part, noteThrottle h = { h with sel := { h.sel with parts := t } } := by
  refine List.foldlRecOn _ _ (motive := fun g => ∃ t : Tab Part, g = { h with sel := { h.sel with parts := t } }) ⟨h.sel.parts, rfl⟩ ?_
  rintro _ ⟨t, rfl⟩ p -
  split
  · exact ⟨_, rfl⟩
  · exact ⟨t, rfl⟩

@[simp] theorem noteThrottle_power (h : Hw) : (noteThrottle h).power = h.power := by
  obtain ⟨t, e⟩ := noteThrottle_only h
  rw [e]

theorem noteThrottle_kindCount (h : Hw) (k : IslandKind) : kindCount (noteThrottle h) k = kindCount h k := by
  obtain ⟨t, e⟩ := noteThrottle_only h
  rw [e]
  rfl

theorem noteThrottle_units (h : Hw) : (noteThrottle h).sel.units = h.sel.units := by
  obtain ⟨t, e⟩ := noteThrottle_only h
  rw [e]

theorem noteThrottle_unitAt (h : Hw) (k n : Nat) : unitAt (noteThrottle h) k n = unitAt h k n := by
  rw [unitAt, noteThrottle_units, unitAt]

/-- The owner of a unit that is neither a swatch nor a way. -/
theorem ownerOf_unit (h : Hw) {k : Nat} (n : Nat) (h1 : k ≠ 1) (h8 : k ≠ 8) : ownerOf h k n = (unitAt h k n).owner := by
  unfold ownerOf
  split
  · exact absurd rfl h1
  · exact absurd rfl h8
  · rfl

theorem noteThrottle_islandOwner (h : Hw) (i : Island) : islandOwner (noteThrottle h) i = islandOwner h i := by
  have hu (k n : Nat) (h1 : k ≠ 1) (h8 : k ≠ 8) : ownerOf (noteThrottle h) k n = ownerOf h k n := by
    rw [ownerOf_unit _ _ h1 h8, ownerOf_unit _ _ h1 h8, noteThrottle_unitAt]
  unfold islandOwner
  split
  case h_5 => rfl
  all_goals exact hu _ _ (by decide) (by decide)

theorem noteThrottle_boundsAt (h : Hw) (i : Island) : boundsAt (noteThrottle h) i = boundsAt h i := by
  rw [boundsAt, noteThrottle_power, boundsAt]

theorem newBounds_noteThrottle (h : Hw) (t : Bool) (i : Island) (b : List Byte) : newBounds (noteThrottle h) t i b = newBounds h t i b := by
  unfold newBounds floorOf stewardCeil
  rw [noteThrottle_boundsAt]

section
variable {h : Hw} {mem : Memory} {m : Mbx} {r : Req}

theorem powerBudgetSet_sets {st lo hi : Nat} (hst : st = leAt r.payload 0 2) (hlo : lo = leAt r.payload 2 2) (hhi : hi = leAt r.payload 4 2)
    (hin : st % 5 = 0 ∧ 1200 ≤ lo ∧ lo ≤ st ∧ st ≤ hi ∧ hi ≤ 2600) : powerBudgetSet (h, mem) r =
      (({ h with power := { h.power with static := st, poolMin := lo, poolMax := hi } }, mem), doneC) := by
  subst hst hlo hhi
  exact if_pos hin

theorem powerBudgetSet_denied {st lo hi : Nat} (hst : st = leAt r.payload 0 2) (hlo : lo = leAt r.payload 2 2) (hhi : hi = leAt r.payload 4 2)
    (hout : ¬(st % 5 = 0 ∧ 1200 ≤ lo ∧ lo ≤ st ∧ st ≤ hi ∧ hi ≤ 2600)) : powerBudgetSet (h, mem) r = ((h, mem), deny 0x20 0) := by
  subst hst hlo hhi
  exact if_neg hout

/-- Whether a mailbox is a tenant's. -/
def isTenant : Mbx → Bool
  | .part _ => true
  | _ => false

/-- What POWER_BOUNDS_SET leaves of the new bounds of one island. -/
def setBounds (h : Hw) (i : Island) (x : Bounds) : Hw :=
  { noteThrottle h with power := { h.power with bounds := tabPut {} h.power.bounds (islandKey i) x } }

/-- What POWER_BOUNDS_SET of one adjustable island does. -/
def oneBounds (m : Mbx) (h : Hw) (mem : Memory) (i : Island) (b : List Byte) : HM × Reply :=
  if isTenant m && !decide (islandOwner h i = actsFor m) then ((h, mem), deny 0x21 0)
  else if isTenant m && bitOf (leAt b 1 1) 0 then ((h, mem), deny 0x20 0x100)
  else if isTenant m && !bitOf (leAt b 1 1) 1 then ((h, mem), doneC)
  else match newBounds h (isTenant m) i b with
    | none => ((h, mem), deny 0x20 0)
    | some x => ((setBounds h i x, mem), doneC)

theorem powerBoundsSet_one {k : IslandKind} {i : Island} (hk : kindOf (leAt r.payload 0 1) = some k) (ha : adjustable k = true)
    (hc : leAt r.payload 2 2 = 1) (hn : leAt r.payload 4 4 < kindCount h k) (hi : { kind := k, idx := leAt r.payload 4 4 } = i) :
    powerBoundsSet m (h, mem) r = oneBounds m h mem i r.payload := by
  have hone : ¬(1 = 0 ∨ leAt r.payload 4 4 + 1 > kindCount h k) := by omega
  unfold powerBoundsSet oneBounds setBounds
  dsimp only
  rw [hk]
  dsimp only
  rw [hc, noteThrottle_kindCount, if_neg hone, List.range_one, List.map_singleton, Nat.add_zero, hi, noteThrottle_power]
  simp only [List.all_cons, List.all_nil, Bool.and_true, List.any_cons, List.any_nil, Bool.or_false, List.foldl_cons, List.foldl_nil,
    noteThrottle_islandOwner, newBounds_noteThrottle, ha, Bool.not_true, Bool.false_eq_true, if_false]
  cases m <;> dsimp only [isTenant]
  case part p => cases newBounds h true i r.payload <;> rfl
  all_goals cases newBounds h false i r.payload <;> rfl

theorem oneBounds_steward {i : Island} {b : List Byte} (ht : isTenant m = false) : oneBounds m h mem i b =
    match newBounds h false i b with
    | none => ((h, mem), deny 0x20 0)
    | some x => ((setBounds h i x, mem), doneC) := by
  unfold oneBounds
  rw [ht]
  rfl

theorem newBounds_steward {i : Island} {b : List Byte} (hset : leAt b 1 1 = 3) : newBounds h false i b =
    if (kindRange i.kind).1 ≤ leAt b 8 2 ∧ leAt b 8 2 ≤ leAt b 10 2 ∧ leAt b 10 2 ≤ (kindRange i.kind).2 then
      some { floor := some (leAt b 8 2), ceiling := some (leAt b 10 2), tenant := (boundsAt h i).tenant.map (fun t => max t (leAt b 8 2)) }
    else none := by
  unfold newBounds
  rw [hset]
  rfl

theorem newBounds_tenant {i : Island} {b : List Byte} : newBounds h true i b =
    if floorOf h i ≤ leAt b 10 2 ∧ leAt b 10 2 ≤ stewardCeil h i then some { boundsAt h i with tenant := some (leAt b 10 2) } else none := rfl

theorem oneBounds_tenant {p : Nat} {i : Island} {b : List Byte} (hset : leAt b 1 1 = 2) : oneBounds (.part p) h mem i b =
    if islandOwner h i ≠ p then ((h, mem), deny 0x21 0) else match newBounds h true i b with
    | none => ((h, mem), deny 0x20 0)
    | some x => ((setBounds h i x, mem), doneC) := by
  have b0 : bitOf 2 0 = false := rfl
  have b1 : bitOf 2 1 = true := rfl
  unfold oneBounds
  rw [hset]
  simp only [isTenant, actsFor, b0, b1, Bool.true_and, Bool.not_true, Bool.false_eq_true, if_false]
  by_cases hown : islandOwner h i = p
  · rw [if_neg (not_not_intro hown)]
    exact if_neg (by simp [hown])
  · rw [if_pos hown]
    exact if_pos (by simp [hown])

theorem railCapSet_hard {n c : Nat} (hn : n = leAt r.payload 0 1) (hlt : n < 26) (hset : leAt r.payload 1 1 = 1) (hc : c = leAt r.payload 4 4) :
    railCapSet (h, mem) r = if railFuse h n ≤ 4 * c ∧ c ≤ railFuse h n then
      ((setRail h n { railAt h n with
          hard := some c
          soft := some (if c < railSoft h n then c else if 10 * railSoft h n < c then ceilDiv c 10 else railSoft h n) }, mem), doneC)
      else ((h, mem), deny 0x20 0) := by
  subst hn hc
  have b0 : bitOf 1 0 = true := rfl
  have b1 : bitOf 1 1 = false := rfl
  have b2 : bitOf 1 2 = false := rfl
  unfold railCapSet
  simp only [hset, b0, b1, b2, railResponds, hlt, if_true, ge_iff_le, Nat.not_le.mpr (Nat.lt_of_lt_of_le hlt (by decide : 26 ≤ 30))]
  by_cases hr : railFuse h (leAt r.payload 0 1) ≤ 4 * leAt r.payload 4 4 ∧ leAt r.payload 4 4 ≤ railFuse h (leAt r.payload 0 1)
  · rw [if_pos hr]; simp [hr]
  · rw [if_neg hr]; simp [hr]

theorem poolConfig_off (hb : bitOf (leAt r.payload 4 1) 0 = false) (h1 : 5 ≤ leAt r.payload 5 1) (h2 : leAt r.payload 5 1 ≤ 95)
    (h3 : 5 ≤ leAt r.payload 6 2) (h4 : leAt r.payload 6 2 ≤ 200) : poolConfig (h, mem) r = (({ h with
      power := { h.power with poolSet := leAt r.payload 0 4, poolOn := false, theta := leAt r.payload 5 1, stepMax := leAt r.payload 6 2,
                              ins := [] } }, mem), doneC) := by
  simp [poolConfig, hb, h1, h2, h3, h4]

end

/-- Settles O18: each command's own checks accept exactly the ranges that chapter 18 gives. -/
theorem powerCommandRows : Obligations.PowerCommandRows := by
  intro s h m tag r hh
  refine ⟨fun st lo hi hs hst hlo hhi => ⟨fun hin => ?_, fun hout => ?_⟩, ?steward, ?tenant, fun n c hs hn hlt hset hc => ?_, fun t hs ht => ?_,
    fun th st hs hb hth hst h1 h2 h3 h4 => ?_, fun q hs hm => ?_, fun hs => onAll_serve_answer hh hs rfl⟩
  · exact onAll_serve_done hh hs (powerBudgetSet_sets hst hlo hhi hin)
  · exact onAll_serve_deny hh hs (powerBudgetSet_denied hst hlo hhi hout)
  case steward =>
    rintro k n i fl ce hs hm hk ha hset hc rfl hlt rfl rfl rfl
    have ht : isTenant m = false := by
      cases m
      case part p => exact absurd rfl (hm p)
      all_goals rfl
    have hbody := (powerBoundsSet_one (mem := s.mem) (m := m) hk ha hc hlt rfl).trans (oneBounds_steward ht)
    rw [newBounds_steward hset] at hbody
    refine ⟨?_, fun hout => onAll_serve_deny hh hs ?_⟩
    · rintro b rfl h1 h2 h3
      rw [if_pos ⟨h1, h2, h3⟩] at hbody
      exact onAll_serve_done hh hs hbody
    · rw [hbody, if_neg hout]
  case tenant =>
    rintro p k n i ce hs rfl hk ha hset hc rfl hlt rfl rfl
    have hbody := (powerBoundsSet_one (mem := s.mem) (m := .part p) hk ha hc hlt rfl).trans (oneBounds_tenant hset)
    rw [newBounds_tenant] at hbody
    refine ⟨?_, fun hown hout => onAll_serve_deny hh hs ?_, fun hown => onAll_serve_deny hh hs ?_⟩
    · rintro b rfl hown h1 h2
      rw [if_neg (not_not_intro hown), if_pos ⟨h1, h2⟩] at hbody
      exact onAll_serve_done hh hs hbody
    · rw [hbody, if_neg (not_not_intro hown), if_neg hout]
    · rw [hbody, if_pos hown]
  · have hbody := railCapSet_hard (h := h) (mem := s.mem) hn hlt hset hc
    exact ⟨fun hin => onAll_serve_done hh hs (hbody.trans (if_pos hin)), fun hout => onAll_serve_deny hh hs (hbody.trans (if_neg hout))⟩
  · subst ht
    exact ⟨fun hin => onAll_serve_done hh hs (if_pos hin), fun hout => onAll_serve_deny hh hs (if_neg hout)⟩
  · subst hth hst
    exact onAll_serve_done hh hs (poolConfig_off hb h1 h2 h3 h4)
  · subst hm
    exact onAll_serve_answer hh hs rfl

end Sys2Proof.Machine
end

/-! PROOFS. Power events: rails, droops, temperatures, the budget loop and the pool's rows (R541 to R563). -/
section
namespace Sys2Proof.Machine

section
variable {h : Hw}

/-! ### Rails, droops and external PROCHOT -/

theorem noteThrottle_railAt (h : Hw) (r : Nat) : railAt (noteThrottle h) r = railAt h r := by
  rw [railAt, noteThrottle_power, railAt]

theorem noteThrottle_railHard (h : Hw) (r : Nat) : railHard (noteThrottle h) r = railHard h r := by
  obtain ⟨t, e⟩ := noteThrottle_only h
  rw [railHard, railHard, noteThrottle_railAt, e]
  rfl

theorem noteThrottle_railSoft (h : Hw) (r : Nat) : railSoft (noteThrottle h) r = railSoft h r := by
  rw [railSoft, railSoft, noteThrottle_railAt, noteThrottle_railHard]

theorem noteThrottle_tb (h : Hw) : (noteThrottle h).tb = h.tb := by
  obtain ⟨t, e⟩ := noteThrottle_only h
  rw [e]

/-- What a sample of a sound rail sensor leaves of its rail. -/
def sampledRail (h : Hw) (r cur win ms : Nat) : Rail :=
  { railAt h r with
    engaged := if (railHard h r < cur ∧ r < 26) ∨ ((railAt h r).engaged ≠ none ∧ 95 * railHard h r ≤ 100 * win) then some h.tb.now
      else (railAt h r).engaged
    softOn := decide (railSoft h r < win)
    current := ms }

theorem railSample_sound {r cur win us ms : Nat} (hr : r < 30) (hd : (railAt h r).dead = false) : railSample (noteThrottle h) r cur win us ms true =
    if 110 * railHard h r < 100 * us then
      causeOfDoubt (setRail (noteThrottle h) r (sampledRail h r cur win ms)) .package 15 r 0xFF { type := 0x0706, arg0 := us }
    else setRail (noteThrottle h) r (sampledRail h r cur win ms) := by
  have hy : (if (decide (railHard h r < cur) && railResponds r || (railAt h r).engaged.isSome && decide (95 * railHard h r ≤ 100 * win)) = true
      then some h.tb.now else (railAt h r).engaged) =
      if (railHard h r < cur ∧ r < 26) ∨ ((railAt h r).engaged ≠ none ∧ 95 * railHard h r ≤ 100 * win) then some h.tb.now
      else (railAt h r).engaged := by
    refine if_congr ?_ rfl rfl
    simp [railResponds, Option.isSome_iff_ne_none]
  unfold railSample sampledRail
  simp only [noteThrottle_railAt, noteThrottle_railHard, noteThrottle_railSoft, noteThrottle_tb, ge_iff_le, gt_iff_lt, hy]
  rw [if_neg (Nat.not_le.mpr hr), hd]
  rfl

theorem railSample_in {r cur win us ms : Nat} (hr : r < 30) (hd : (railAt h r).dead = false) (hus : 100 * us ≤ 110 * railHard h r) :
    railSample (noteThrottle h) r cur win us ms true = setRail (noteThrottle h) r (sampledRail h r cur win ms) := by
  rw [railSample_sound hr hd, if_neg (Nat.not_lt.mpr hus)]

theorem railSample_over {r cur win us ms : Nat} (hr : r < 30) (hd : (railAt h r).dead = false) (hus : 110 * railHard h r < 100 * us) :
    railSample (noteThrottle h) r cur win us ms true =
      causeOfDoubt (setRail (noteThrottle h) r (sampledRail h r cur win ms)) .package 15 r 0xFF { type := 0x0706, arg0 := us } := by
  rw [railSample_sound hr hd, if_pos hus]

theorem railSample_dies {r cur win us ms : Nat} (hr : r < 30) (hd : (railAt h r).dead = false) :
    railSample (noteThrottle h) r cur win us ms false = yieldFloors (recordWrite (setRail (noteThrottle h) r { railAt h r with dead := true })
      { type := 0x0705, part := 0xFF, unitKind := 15, unit := r }) (fun i => decide (railOf i = r)) := by
  unfold railSample
  simp only [noteThrottle_railAt, hd]
  rw [if_neg (Nat.not_le.mpr hr)]
  rfl

theorem protectiveRelease_ends {r t : Nat} (he : (railAt h r).engaged = some t) : protectiveRelease (noteThrottle h) r =
    setRail (advanceTo (noteThrottle h) (t + 1000 * (railAt h r).window)) r { railAt h r with engaged := none } := by
  unfold protectiveRelease
  simp only [noteThrottle_railAt, he]

/-- The islands of a list stretched. -/
def stretchAll (l : List Island) (h : Hw) : Hw := l.foldl (fun h j => setIsland h j { islandAt h j with stretch := true }) h

theorem stretchAll_only (l : List Island) (h : Hw) : ∃ t : Tab IslandState, stretchAll l h = { h with islands := t } := by
  refine List.foldlRecOn _ _ (motive := fun g => ∃ t : Tab IslandState, g = { h with islands := t }) ⟨h.islands, rfl⟩ ?_
  rintro _ ⟨t, rfl⟩ p -
  exact ⟨_, rfl⟩

theorem stretched_set (h : Hw) (i : Island) : (islandAt (setIsland h i { islandAt h i with stretch := true }) i).stretch = true := by
  rw [islandAt_setIsland_ne _ _ _ fun e => Bool.noConfusion (congrArg IslandState.stretch e)]

theorem stretched_keeps (h : Hw) (i j : Island) (hj : (islandAt h j).stretch = true) :
    (islandAt (setIsland h i { islandAt h i with stretch := true }) j).stretch = true := by
  by_cases he : islandKey j = islandKey i
  · have := stretched_set h i
    rwa [islandAt, ← he] at this
  · rwa [islandAt_setIsland_other _ _ _ he]

theorem stretchAll_stretches (l : List Island) (h : Hw) (j : Island) (hj : j ∈ l ∨ (islandAt h j).stretch = true) :
    (islandAt (stretchAll l h) j).stretch = true := by
  induction l generalizing h with
  | nil => exact hj.resolve_left List.not_mem_nil
  | cons i l ih =>
    refine ih _ ?_
    rcases hj with hj | hj
    · rcases List.mem_cons.mp hj with rfl | hj
      · exact .inr (stretched_set h j)
      · exact .inl hj
    · exact .inr (stretched_keeps h i j hj)

theorem droop_stretches {i : Island} (hi : islandExists h i = true) : droop h i =
    { stretchAll (clockGroup h i) h with power := { (stretchAll (clockGroup h i) h).power with
        droops := tabMod 0 (stretchAll (clockGroup h i) h).power.droops (islandKey i) (· + 1) } } := by
  unfold droop
  rw [hi]
  rfl

theorem droop_absent {i : Island} (hi : islandExists h i = false) : droop h i = h := by
  unfold droop
  rw [hi]
  rfl

theorem droopEnd_alone {i : Island} (hk : i.kind ≠ IslandKind.quad) : droopEnd h i = setIsland h i { islandAt h i with stretch := false } := by
  unfold droopEnd clockGroup
  rw [if_neg hk]
  rfl

theorem prochotExt_asserts (he : h.power.extHot = false) : prochotExt h = yieldFloors
    (recordLimited { h with power := { h.power with extHot := true } } { type := 0x0703, part := 0xFF }) (fun _ => true) := by
  unfold prochotExt
  rw [he]
  rfl

theorem prochotExtRelease_ends (h : Hw) :
    prochotExtRelease (noteThrottle h) = { noteThrottle h with power := { h.power with extHot := false } } := by
  rw [prochotExtRelease, noteThrottle_power]

/-! ### Temperatures -/

theorem sampleOne_taken {n v : Nat} (hn : n < 512) (hf : (sensorAt h n).failed = false)
    (hv : ∀ o, (sensorAt h n).reading = some o → v ≤ o + 80 ∧ o ≤ v + 80) :
    sampleOne h (n, v, true) = { h with power := { h.power with sensors := tabPut {} h.power.sensors n { reading := some v } } } := by
  unfold sampleOne
  dsimp only
  rw [if_neg (by simp [hf, hn])]
  cases hr : (sensorAt h n).reading with
  | none => rfl
  | some o =>
    obtain ⟨h1, h2⟩ := hv o hr
    have : decide (o + 80 < v ∨ v + 80 < o) = false := decide_eq_false (by omega)
    simp [this]

theorem sampleOne_fails {n v : Nat} {ok : Bool} (hn : n < 512) (hf : (sensorAt h n).failed = false)
    (hv : ok = false ∨ ∃ o, (sensorAt h n).reading = some o ∧ (o + 80 < v ∨ v + 80 < o)) : sampleOne h (n, v, ok) = recordWrite
      { h with power := { h.power with sensors := tabPut {} h.power.sensors n { reading := some v, failed := true } } }
      { type := 0x0704, part := 0xFF, unitKind := 16, unit := n } := by
  unfold sampleOne
  dsimp only
  rw [if_neg (by simp [hf, hn])]
  rcases hv with rfl | ⟨o, hr, hjump⟩
  · rfl
  · rw [hr]
    simp [hjump]

theorem thermalSample_takes (rs : List (Nat × Nat × Bool)) {h0 h2 : Hw} (e0 : h0 = advanceTo (noteThrottle h) (h.power.sampled + 20000))
    (e2 : h2 = (List.range 6).foldl dieThermal (rs.foldl sampleOne { h0 with power := { h0.power with sampled := h0.tb.now } })) :
    thermalSample (noteThrottle h) rs =
      match h2.power.sensors.find? (fun e => !e.2.failed && decide (472 ≤ e.2.reading.getD 0)) with
      | some e => thermalTrip h2 16 e.1 (e.2.reading.getD 0)
      | none => h2 := by
  subst e2 e0
  unfold thermalSample
  rw [noteThrottle_power] <;> rfl

theorem recordLimited_power (h : Hw) (r : FaultRec) : (recordLimited h r).power = h.power := by
  unfold recordLimited
  dsimp only
  split
  · rfl
  · exact recordWrite_power ..

theorem yieldFloors_prochot (h : Hw) (p : Island → Bool) : (yieldFloors h p).power.prochot = h.power.prochot := by
  refine foldl_keeps (fun g => g.power.prochot) (fun g k => ?_) adjustableKinds h
  dsimp only
  split
  · rw [recordLimited_power]
  · rfl

/-- PROCHOT of the dies after one of them was sampled. -/
theorem dieThermal_prochot (h : Hw) (d : Nat) : (dieThermal h d).power.prochot =
    if !bitOf h.power.prochot d && decide (420 ≤ hottestDie h d) then h.power.prochot + 2 ^ d
    else if bitOf h.power.prochot d && decide (hottestDie h d < 408) then h.power.prochot - 2 ^ d
    else h.power.prochot := by
  unfold dieThermal
  dsimp only
  split
  · rw [yieldFloors_prochot, recordLimited_power]
  · split <;> rfl

theorem bitOf_add_clear {x d : Nat} (hb : bitOf x d = false) : bitOf (x + 2 ^ d) d = true := by
  rw [bitOf, Nat.add_comm, Nat.testBit_two_pow_add_eq]
  simpa [bitOf] using hb

theorem bitOf_sub_set {x d : Nat} (hb : bitOf x d = true) : bitOf (x - 2 ^ d) d = false := by
  obtain ⟨y, rfl⟩ := Nat.exists_eq_add_of_le (Nat.ge_two_pow_of_testBit hb)
  rw [bitOf, Nat.testBit_two_pow_add_eq] at hb
  rw [Nat.add_sub_cancel_left]
  simpa [bitOf] using hb

/-! ### The budget loop (R555) -/

theorem loopMissed_only (h : Hw) (i : Nat) (b : Bool) : ∃ l, loopMissed h i b = { h with power := { h.power with loopMiss := l } } := by
  unfold loopMissed
  split
  · exact ⟨_, rfl⟩
  · exact ⟨h.power.loopMiss, rfl⟩

theorem find_budgetOrder_quad {p : List IslandKind → Bool} (hq : p [.quad] = true) : budgetOrder.find? p = some [.quad] := by
  rw [budgetOrder, List.find?_cons_of_pos hq]

theorem stepKinds_quad (hq : canLower h .quad = true) : stepKinds h [.quad] true = { h with power := { h.power with
    kindCeil := tabPut 0 h.power.kindCeil IslandKind.quad.code (tabGet 0 h.power.kindCeil IslandKind.quad.code + 25) } } := by
  simp [stepKinds, hq]

theorem budgetStep_only (h : Hw) : ∃ c l, budgetStep h = { h with power := { h.power with kindCeil := c, loopMiss := l } } ∧
    (h.power.inputW = effective h → c = h.power.kindCeil) ∧
    (effective h < h.power.inputW → canLower h .quad = true →
      c = tabPut 0 h.power.kindCeil IslandKind.quad.code (tabGet 0 h.power.kindCeil IslandKind.quad.code + 25)) := by
  by_cases hgt : h.power.inputW > effective h
  · unfold budgetStep
    simp only [if_pos hgt]
    by_cases hq : canLower h .quad = true
    · rw [find_budgetOrder_quad (by simpa using hq)]
      exact ⟨_, h.power.loopMiss, stepKinds_quad hq, fun he => absurd he (Nat.ne_of_gt hgt), fun _ _ => rfl⟩
    · split
      · exact ⟨_, h.power.loopMiss, rfl, fun he => absurd he (Nat.ne_of_gt hgt), fun _ h => absurd h hq⟩
      · obtain ⟨l, e⟩ := loopMissed_only h 2 true
        exact ⟨h.power.kindCeil, l, e, fun _ => rfl, fun _ h => absurd h hq⟩
  · have hno : ∀ c : Tab Nat, effective h < h.power.inputW → canLower h .quad = true →
        c = tabPut 0 h.power.kindCeil IslandKind.quad.code (tabGet 0 h.power.kindCeil IslandKind.quad.code + 25) :=
      fun _ hlt => absurd hlt hgt
    unfold budgetStep
    simp only [if_neg hgt]
    split
    next hlt =>
      split
      · exact ⟨_, h.power.loopMiss, rfl, fun he => absurd he (Nat.ne_of_lt hlt), hno _⟩
      · exact ⟨h.power.kindCeil, h.power.loopMiss, rfl, fun _ => rfl, hno _⟩
    next => exact ⟨h.power.kindCeil, h.power.loopMiss, rfl, fun _ => rfl, hno _⟩

/-! ### What tenants are shown at a 1 ms boundary (R108) -/

/-- One partition's telemetry is taken. -/
def takeOne (h : Hw) (p : Nat) : Hw :=
  let x := partAt h p
  let n := if x.slowed || throttled h p then x.throttled + 1 else x.throttled
  setPart h p { x with throttled := n, slowed := false, shown := [x.energy, n, x.traffic, x.knotWaitNs] }

/-- What a partition's record holds of an interval: its intervals so far and the totals shown. -/
structure ShownOf (x y : Part) : Prop where
  count : y.throttled = x.throttled ∨ y.throttled = x.throttled + 1
  shown : y.shown = [x.energy, y.throttled, x.traffic, x.knotWaitNs]

theorem takeOne_shown (hw : tabWf {} h.sel.parts = true) (p : Nat) : ShownOf (partAt h p) (partAt (takeOne h p) p) := by
  unfold takeOne
  rw [partAt_setPart_same _ _ _ hw]
  refine ⟨?_, rfl⟩
  dsimp only
  split
  · exact .inr rfl
  · exact .inl rfl

theorem takeOne_other (h : Hw) {p q : Nat} (hq : q ≠ p) : partAt (takeOne h p) q = partAt h q := partAt_setPart_other _ _ _ hq

theorem takeOne_wf (hw : tabWf {} h.sel.parts = true) (p : Nat) : tabWf {} (takeOne h p).sel.parts = true := tabPut_wf _ _ hw

theorem takeAll_other (l : List Nat) {q : Nat} (hq : q ∉ l) (h : Hw) : partAt (l.foldl takeOne h) q = partAt h q := by
  induction l generalizing h with
  | nil => rfl
  | cons p l ih =>
    rw [List.mem_cons, not_or] at hq
    rw [List.foldl_cons, ih hq.2, takeOne_other _ hq.1]

theorem takeAll_shown (l : List Nat) (hl : l.Nodup) (hw : tabWf {} h.sel.parts = true) {q : Nat} (hq : q ∈ l) :
    ShownOf (partAt h q) (partAt (l.foldl takeOne h) q) := by
  induction l generalizing h with
  | nil => exact absurd hq List.not_mem_nil
  | cons p l ih =>
    rw [List.nodup_cons] at hl
    rw [List.foldl_cons]
    by_cases hqp : q = p
    · subst hqp
      rw [takeAll_other l hl.1]
      exact takeOne_shown hw q
    · have := ih (h := takeOne h p) hl.2 (takeOne_wf hw p) (List.mem_of_ne_of_mem hqp hq)
      rwa [takeOne_other _ hqp] at this

theorem takeAll_only (l : List Nat) (h : Hw) : ∃ t : Tab Part, l.foldl takeOne h = { h with sel := { h.sel with parts := t } } := by
  refine List.foldlRecOn _ _ (motive := fun g => ∃ t : Tab Part, g = { h with sel := { h.sel with parts := t } }) ⟨h.sel.parts, rfl⟩ ?_
  rintro _ ⟨t, rfl⟩ p -
  exact ⟨_, rfl⟩

/-- What taking a list of partitions' totals leaves. -/
theorem takeAll_table {l : List Nat} (hl : l.Nodup) (h : Hw) : ∃ t : Tab Part, l.foldl takeOne h = { h with sel := { h.sel with parts := t } } ∧
    (tabWf {} h.sel.parts = true → ∀ p, p ∈ l → ShownOf (partAt h p) (tabGet {} t p)) := by
  obtain ⟨t, e⟩ := takeAll_only l h
  refine ⟨t, e, fun hw p hp => ?_⟩
  have := takeAll_shown l hl hw hp
  rw [e] at this
  exact this

theorem takeTelemetry_only (h : Hw) : ∃ t k, takeTelemetry h [] = { h with
      sel := { h.sel with parts := t }
      sync := { h.sync with knots := k }
      power := { h.power with telemAt := h.tb.now } } ∧
    (tabWf {} h.sel.parts = true → ∀ p, p ∈ List.range 17 → ShownOf (partAt h p) (tabGet {} t p)) := by
  obtain ⟨t, e, ht⟩ := takeAll_table List.nodup_range h
  refine ⟨t, tabMap {} h.sync.knots (fun _ k => { k with waitShown := k.waitNs }), ?_, ht⟩
  unfold takeTelemetry
  change ({ (List.range 17).foldl takeOne h with
    sync := { ((List.range 17).foldl takeOne h).sync with
      knots := tabMap {} ((List.range 17).foldl takeOne h).sync.knots (fun _ k => { k with waitShown := k.waitNs }) }
    power := { ((List.range 17).foldl takeOne h).power with telemAt := ((List.range 17).foldl takeOne h).tb.now } } : Hw) = _
  rw [e]

theorem loopsMissed_only (h : Hw) (a b c : Bool) :
    ∃ l, loopMissed (loopMissed (loopMissed h 0 a) 1 b) 3 c = { h with power := { h.power with loopMiss := l } } := by
  obtain ⟨l1, e1⟩ := loopMissed_only h 0 a
  obtain ⟨l2, e2⟩ := loopMissed_only { h with power := { h.power with loopMiss := l1 } } 1 b
  obtain ⟨l3, e3⟩ := loopMissed_only { h with power := { h.power with loopMiss := l2 } } 3 c
  exact ⟨l3, by rw [e1, e2, e3]⟩

/-- The interval that BUDGET_LOOP ends, before anything is read or moved. -/
def endInterval (h : Hw) (w : Nat) : Hw :=
  let h0 := advanceTo h ((h.power.loopAt / msec + 1) * msec)
  { h0 with power := { h0.power with
      loopAt := max ((h.power.loopAt / msec + 1) * msec) (h0.tb.now / msec * msec)
      inputW := w } }

theorem budgetLoop_steps (h : Hw) (w : Nat) : ∃ b0 b1 b2, budgetLoop h w [] =
    loopMissed (loopMissed (loopMissed (budgetStep (takeTelemetry (endInterval h w) [])) 0 b0) 1 b1) 3 b2 := ⟨_, _, _, rfl⟩

/-- What BUDGET_LOOP leaves: the totals shown, and the power loops. -/
theorem budgetLoop_only (h : Hw) (w : Nat) : ∃ t k c l, budgetLoop h w [] = { endInterval h w with
      sel := { h.sel with parts := t }
      sync := { h.sync with knots := k }
      power := { (endInterval h w).power with
        telemAt := (endInterval h w).tb.now
        kindCeil := c
        loopMiss := l } } ∧
    (tabWf {} h.sel.parts = true → ∀ p, p ≤ 16 → ShownOf (partAt h p) (tabGet {} t p)) ∧
    (w = effective h → c = h.power.kindCeil) ∧
    (effective h < w → canLower h .quad = true →
      c = tabPut 0 h.power.kindCeil IslandKind.quad.code (tabGet 0 h.power.kindCeil IslandKind.quad.code + 25)) := by
  obtain ⟨b0, b1, b2, e⟩ := budgetLoop_steps h w
  obtain ⟨t, k, e1, ht⟩ := takeTelemetry_only (endInterval h w)
  rw [e1] at e
  obtain ⟨c, l2, e2, hc, hq⟩ := budgetStep_only { endInterval h w with
      sel := { (endInterval h w).sel with parts := t }
      sync := { (endInterval h w).sync with knots := k }
      power := { (endInterval h w).power with telemAt := (endInterval h w).tb.now } }
  rw [e2] at e
  obtain ⟨l, e3⟩ := loopsMissed_only _ b0 b1 b2
  exact ⟨t, k, c, l, e.trans e3, fun hw p hp => ht hw p (List.mem_range.mpr (by omega)), hc, hq⟩

/-! ### The pool's rows (R559 to R561) -/

theorem poolEpochStart_alone {h0 : Hw} (e0 : h0 = advanceTo h ((h.power.epoch / 1000000 + 1) * 1000000)) (ht : takesPart h0 = false) :
    poolEpochStart h = { h0 with
      arch := { h0.arch with sets := tabMap {} h0.arch.sets (fun _ b => { b with waitTotal := 0, awaited := [] }) }
      power := { h0.power with
        epoch := max ((h.power.epoch / 1000000 + 1) * 1000000) (h0.tb.now / 1000000 * 1000000)
        epochRun := false
        frames := []
        mine := none
        ins := [] } } := by
  subst e0
  unfold poolEpochStart
  exact if_neg (by simp only [msec, ht, Bool.false_eq_true, not_false_iff])

theorem poolEpoch_runs {h0 : Hw} (e0 : h0 = advanceTo h (h.power.epoch + 500000)) (hr : h0.power.epochRun = false) (ht : takesPart h0 = true) :
    poolEpoch h = (poolShares h0).foldl (fun g e => direct g 0x16 e.1 [e.1, g.power.poolSet, e.2, h0.tb.now]) { h0 with
      power := { h0.power with
        epochRun := true
        outs := if (poolShares h0).foldl (fun n e => n + e.2) 0 = 0 then h0.power.outs
          else h0.power.outs ++ [{ watts := (poolShares h0).foldl (fun n e => n + e.2) 0, ends := h0.tb.now + 4001000 }] } } := by
  subst e0
  unfold poolEpoch
  rw [if_neg (by simp [hr, ht])]
  rfl

theorem leaseEnd_ends {l : Lease} {ls : List Lease} {g : Hw} (hl : h.power.outs ++ h.power.ins = l :: ls)
    (hg : g = advanceTo h (ls.foldl (fun n x => min n x.ends) l.ends)) : leaseEnd h = { g with
      power := { g.power with
        outs := g.power.outs.filter (fun x => decide (g.tb.now < x.ends))
        ins := g.power.ins.filter (fun x => decide (g.tb.now < x.ends)) } } := by
  subst hg
  unfold leaseEnd
  rw [hl]

end

/-- Settles O19: each event's equation follows its own branches; the budget loop's telemetry is read partition by partition, before the
loops move. -/
theorem powerEventRows : Obligations.PowerEventRows := by
  intro s h hh
  refine ⟨?sample, ?overshoot, ?dies, ?release, ?droop, ?absent, ?droopEnd, ?thermal, fun g n v => sampleOne_taken,
    fun g n v ok => sampleOne_fails, ?prochot, ?ext, ?extRelease, ?budget, ?start, ?epoch, ?lease⟩
  case sample =>
    intro r cur win us ms x y g hg hx hr hd hus hy
    rw [hg, hy, hx]
    rw [hx] at hd
    subst hh
    exact row_ended (railSample_in hr hd hus) rfl
  case overshoot =>
    intro r cur win us ms x y g hg hx hr hd hus hy
    rw [hg, hy, hx]
    rw [hx] at hd
    subst hh
    exact row_ended (railSample_over hr hd hus) rfl
  case dies =>
    intro r x cur win us ms g hg hx hr hd
    rw [hg, hx]
    rw [hx] at hd
    subst hh
    exact row_ended (railSample_dies hr hd) rfl
  case release =>
    intro r t he
    subst hh
    exact row_ended (protectiveRelease_ends he) rfl
  case droop =>
    subst hh
    intro i hi
    obtain ⟨t, e⟩ := stretchAll_only (clockGroup (clearSent s.hw) i) (clearSent s.hw)
    refine ⟨_, row_gives (droop_stretches hi) ?_ ?_ rfl, fun j hj => ?_, ?_, rfl, ?_⟩
    · rw [e, clearSent_posted]
    · rw [e, clearSent_irqWake]
    · rw [State.withHw_hw]
      exact stretchAll_stretches _ _ _ (.inl hj)
    · rw [State.withHw_hw, e]
    · rw [State.withHw_hw, e]
  case absent =>
    intro i hi
    subst hh
    exact row_idle (droop_absent hi) rfl
  case droopEnd =>
    intro i hk
    subst hh
    exact row_ended (droopEnd_alone hk) rfl
  case thermal =>
    intro rs h0 h2 e0 e2
    subst hh
    have hbody := thermalSample_takes rs e0 e2
    refine ⟨fun hf => ?_, fun e hf => ?_⟩
    · rw [hf] at hbody
      exact row_ended hbody rfl
    · rw [hf] at hbody
      exact row_ended hbody rfl
  case prochot =>
    intro g d _
    rw [dieThermal_prochot]
    refine ⟨fun hb ht => ?_, fun hb ht => ?_, fun hb ht => ?_, fun hb ht => ?_⟩
    · rw [if_pos (by simp [hb, ht])]
      exact bitOf_add_clear hb
    · rw [if_neg (by simp [hb, ht]), if_neg (by simp [hb])]
    · rw [if_neg (by simp [hb]), if_pos (by simp [hb, ht])]
      exact bitOf_sub_set hb
    · rw [if_neg (by simp [hb]), if_neg (by simp [ht])]
  case ext =>
    intro he
    subst hh
    exact row_ended (prochotExt_asserts he) rfl
  case extRelease =>
    subst hh
    exact row_ended (prochotExtRelease_ends _) rfl
  case budget =>
    intro w
    subst hh
    obtain ⟨t, k, c, l, e, hshown, hkeep, hlower⟩ := budgetLoop_only (clearSent s.hw) w
    refine ⟨_, row_gives e rfl rfl rfl, rfl, rfl, rfl, fun hw p hp => ?_, hkeep, hlower, rfl, rfl, rfl⟩
    obtain ⟨hcount, hs⟩ := hshown hw p hp
    exact ⟨_, hcount, rfl, hs⟩
  case start =>
    intro h0 e0 ht
    have e := poolEpochStart_alone e0 ht
    subst e0 hh
    exact row_gives e rfl rfl rfl
  case epoch =>
    intro h0 e0 hr ht
    subst hh
    exact row_ended (poolEpoch_runs e0 hr ht) rfl
  case lease =>
    intro l ls g hl hg
    subst hh
    exact row_ended (leaseEnd_ends hl hg) rfl

end Sys2Proof.Machine
end

/-! PROOFS. POWER_STATE_SET Dormant of a request that is marked as answered ACCEPTED before it has begun (R731). ACCEPTED is posted to a request
that has not had it; the statement gives it to every served request, so it fails for one whose mark stands already. -/
section
namespace Sys2Proof.Machine

/-- The Steward's POWER_STATE_SET Dormant, marked as answered ACCEPTED. -/
def dormantReq : Req :=
  { tag := 0, cmd := 0x0E05, seq := 0, total := 8, payload := [3, 0, 0, 0, 0, 0, 0, 0], frags := 1, whole := true, timeout := 1000,
    interim := true }

/-- A READY package whose save area is partition 0's first 32 swatches, with that request in the Steward's mailbox. -/
def savingHw : Hw :=
  { sel := { swatches := (List.range 32).map fun k => (k, { state := .owned, owner := 0 }) },
    start := { saveN := 32 },
    efano := { ready := true, boxes := [(17, { reqs := [dormantReq] })] } }

theorem savingHw_serves : Serving { hw := savingHw } .steward 0 0x0E05 dormantReq := by
  refine ⟨rfl, rfl, rfl, rfl, rfl, rfl, rfl, by decide⟩

theorem savingHw_saves : dormantBad (clearSent savingHw) = false := by decide +kernel

theorem savingHw_answers : ∃ t, exec (.powerStateSet .steward 0) { hw := savingHw } = .next t ∧ (boxAt t.hw .steward).queue = [] :=
  ⟨_, rfl, by decide +kernel⟩

/-- Refutes O21: no second ACCEPTED is queued for a request marked as answered ACCEPTED. -/
theorem not_resetCommandRows : ¬ Obligations.ResetCommandRows := by
  intro hall
  obtain ⟨-, -, -, -, -, -, -, -, -, -, -, hdormant, -⟩ := hall { hw := savingHw } _ .steward 0 dormantReq rfl
  obtain ⟨t, ht, -, -, hqueue, -⟩ := hdormant savingHw_serves rfl savingHw_saves rfl
  obtain ⟨u, hu, hempty⟩ := savingHw_answers
  obtain rfl := Host.Outcome.next.inj (hu.symm.trans ht)
  rw [hempty] at hqueue
  exact absurd hqueue (by decide +kernel)

end Sys2Proof.Machine
end

/-! PROOFS. BOOT_RESOURCES of a package whose table of partitions lists partition 0 twice. Writing a record equal to the default takes the
first of its entries away, and the second then shows: the boot vector 0 is lost. The statement does not suppose the canonical form of that
table, so it fails there. -/
section
namespace Sys2Proof.Machine

/-! ### What gives partition 0 its first resources keeps the table of partitions -/

/-- The table of partitions, and the flash that the boot image is loaded from. -/
def bootKept (h : Hw) : Tab Part × Tab (Option Byte) := (h.sel.parts, h.edges.flash)

theorem postSnoop_bootKept (h : Hw) (l op p : Nat) : bootKept (postSnoop h l op p) = bootKept h := rfl

theorem forgetLines_bootKept (h : Hw) (p : Nat → Bool) : bootKept (forgetLines h p) = bootKept h := by
  unfold forgetLines
  refine (Eq.trans rfl (foldl_keeps bootKept (fun g l => ?_) _ _)).trans (foldl_keeps bootKept (fun g e => ?_) _ h)
  · rfl
  · exact foldl_keeps bootKept (fun g q => postSnoop_bootKept g e.1 2 q) _ g

theorem revokeSwatch_bootKept (h : Hw) (i : Nat) : bootKept (revokeUnit h 1 i) = bootKept h := forgetLines_bootKept ..

/-- The swatches revoked. -/
def revokeAll (h : Hw) (units : List Nat) : Hw := units.foldl (fun h i => revokeUnit (wakeFor h 1 i) 1 i) h

/-- The record that a scrub of far-tier swatches by ZERO for partition 0 opens. -/
def bootScrub (h : Hw) (units : List Nat) : ScrubRec :=
  { seq := (revokeAll h units).sel.scrubSeq, from_ := 0xFF, method := 1, kind := 1, first := units.headD 0 * 2 ^ 21, units := units, startTb := h.tb.now,
    position := h.ident.position, grant := some 0, zero := false, samples := samplesOf 1 1 units.length }

theorem revokeAll_bootKept (h : Hw) (units : List Nat) : bootKept (revokeAll h units) = bootKept h :=
  foldl_keeps bootKept (fun g i => revokeSwatch_bootKept g i) units h

theorem beginScrub_boot (h : Hw) (units : List Nat) : beginScrub h 1 units 0xFF 1 (some 0) false =
    ((revokeAll h units).sel.scrubSeq, { revokeAll h units with sel := { (revokeAll h units).sel with
      scrubs := bootScrub h units :: (revokeAll h units).sel.scrubs
      scrubSeq := (revokeAll h units).sel.scrubSeq + 1 } }) := by
  unfold beginScrub
  rw [if_pos rfl]
  rfl

theorem passOne_bootKept (hm : HM) (i : Nat) (g : Option Nat) :
    bootKept (freeUnit (clearUnit hm 1 i false false).1 1 i g) = bootKept hm.1 := rfl

theorem passScrub_bootKept (hm : HM) (h : Hw) (units : List Nat) (l : List Nat) : bootKept (passScrub hm (bootScrub h units) l).1 = bootKept hm.1 := by
  unfold passScrub
  refine List.foldlRecOn _ _ (motive := fun g : HM => bootKept g.1 = bootKept hm.1) rfl fun g hg i _ => ?_
  exact (passOne_bootKept g i _).trans hg

theorem endScrub_bootKept (hm : HM) (units : List Nat) (h : Hw) (hf : findScrub hm.1 (bootScrub h units).seq = some (bootScrub h units)) :
    bootKept (endScrub hm (bootScrub h units).seq none).1 = bootKept hm.1 := by
  unfold endScrub
  rw [hf]
  exact passScrub_bootKept hm h units units

theorem loadImage_empty {hm : HM} (hf : hm.1.edges.flash = []) : loadImage hm = hm := by
  unfold loadImage
  rw [hf]
  rfl

theorem foldl_setUnit_bootKept (h : Hw) (l : List Nat) (k : Nat → Nat) (x : UnitOwn) :
    bootKept (l.foldl (fun h i => setUnit h 5 (k i) x) h) = bootKept h :=
  foldl_keeps bootKept (f := fun g i => setUnit g 5 (k i) x) (fun _ _ => rfl) l h

/-- Partition 0 with its first way and units, and a list of slips of C0. -/
def bootUnits (h : Hw) (l : List Nat) : Hw :=
  let h1 := { h with coh := { h.coh with wayOwner := tabPut 0 h.coh.wayOwner 15 1 } }
  let h2 := setUnit (setUnit h1 2 0 { owner := 0, state := .owned }) 4 32 { owner := 0, state := .owned }
  l.foldl (fun h i => setUnit h 5 (960 + i) { owner := 0, state := .owned }) h2

theorem bootUnits_kept (h : Hw) (l : List Nat) : bootKept (bootUnits h l) = bootKept h :=
  (foldl_setUnit_bootKept _ l (960 + ·) { owner := 0, state := .owned }).trans rfl

/-- Partition 0 with its first way, units and slips, and its boot vector. -/
def bootGranted (h : Hw) (v : Nat) : Hw := 
  setPart (bootUnits h (List.range 32)) 0 { partAt (bootUnits h (List.range 32)) 0 with resetVec := v }

theorem setVector_kept {g h : Hw} (e : bootKept g = bootKept h) (v : Nat) : bootKept (setPart g 0 { partAt g 0 with resetVec := v }) =
    (tabPut {} h.sel.parts 0 { partAt h 0 with resetVec := v }, h.edges.flash) := by
  obtain ⟨ep, ef⟩ := Prod.mk.inj e
  unfold partAt
  rw [← ep, ← ef]
  rfl

theorem bootGranted_kept (h : Hw) (v : Nat) :
    bootKept (bootGranted h v) = (tabPut {} h.sel.parts 0 { partAt h 0 with resetVec := v }, h.edges.flash) :=
  setVector_kept (bootUnits_kept h _) v

/-- A scrub of swatches by ZERO for partition 0, begun and ended. -/
def scrubbedFor (h : Hw) (mem : Memory) (units : List Nat) (due : Nat) : HM :=
  endScrub (advanceTo (beginScrub h 1 units 0xFF 1 (some 0) false).2 due, mem) (beginScrub h 1 units 0xFF 1 (some 0) false).1 none

theorem scrubbedFor_bootKept (h : Hw) (mem : Memory) (units : List Nat) (due : Nat) : bootKept (scrubbedFor h mem units due).1 = bootKept h := by
  unfold scrubbedFor
  rw [beginScrub_boot]
  refine (endScrub_bootKept _ units h ?_).trans (revokeAll_bootKept h units)
  exact List.find?_cons_of_pos (decide_eq_true rfl)

theorem bootResources_steps {h : Hw} {mem : Memory} {v : Nat} (hs : starting h = true) (hb : h.start.boot = false) (ho : h.memhw.farOpen = true)
    (hn : tierDone h true = true) (hc : h.start.checked = true) (hw : h.start.fwOk = true) : ∃ due, bootResources (h, mem) v =
      loadImage ({ (scrubbedFor (bootGranted h v) mem (List.range 512) due).1 with
        start := { (scrubbedFor (bootGranted h v) mem (List.range 512) due).1.start with boot := true } },
        (scrubbedFor (bootGranted h v) mem (List.range 512) due).2) := by
  unfold bootResources bootGranted bootUnits scrubbedFor
  rw [if_neg (by simp [hs, hb, ho, hn, hc, hw])]
  generalize List.range 512 = l, List.range 32 = k
  exact ⟨_, rfl⟩

theorem loadImage_parts {o : HM} {t : Tab Part} (hk : bootKept o.1 = (t, [])) :
    (loadImage ({ o.1 with start := { o.1.start with boot := true } }, o.2)).1.sel.parts = t := by
  obtain ⟨hp, hf⟩ := Prod.mk.inj hk
  rw [loadImage_empty]
  · exact hp
  · exact hf

/-- BOOT_RESOURCES without a boot image in the flash leaves the partitions with the boot vector written. -/
theorem bootResources_parts {h : Hw} {mem : Memory} {v : Nat} (hs : starting h = true) (hb : h.start.boot = false) (ho : h.memhw.farOpen = true)
    (hn : tierDone h true = true) (hc : h.start.checked = true) (hw : h.start.fwOk = true) (hf : h.edges.flash = []) :
    (bootResources (h, mem) v).1.sel.parts = tabPut {} h.sel.parts 0 { partAt h 0 with resetVec := v } := by
  obtain ⟨due, e⟩ := bootResources_steps (mem := mem) (v := v) hs hb ho hn hc hw
  have hk := (scrubbedFor_bootKept (bootGranted h v) mem (List.range 512) due).trans (bootGranted_kept h v)
  rw [hf] at hk
  rw [e, loadImage_parts hk]

theorem writeReport_parts (h : Hw) (a b c d : Nat) : (writeReport h a b c d).sel.parts = h.sel.parts :=
  (foldl_keeps (fun g : Hw => g.sel.parts) (fun g p => by rw [recordWrite_sel]) _ _).trans (by rw [recordWrite_sel])

theorem exitTrigger_parts (h : Hw) (w : WakeBy) : (exitTrigger h w).sel.parts = h.sel.parts := by
  unfold exitTrigger
  split
  · rfl
  · exact writeReport_parts ..
  · rfl

theorem stepEnd_parts (h : Hw) : (stepEnd h).sel.parts = h.sel.parts := by
  unfold stepEnd wakeUp
  rw [routeOut_only]
  split
  · exact exitTrigger_parts ..
  · rfl

/-! ### A state in which the boot vector is lost -/

/-- A package whose tiers are open and whose table of partitions lists partition 0 twice. -/
def twiceBootHw : Hw :=
  { sel := { parts := [(0, {}), (0, { resetVec := 5 })] }, memhw := { nearOpen := true, farOpen := true }, start := { checked := true, fwOk := true } }

theorem exec_bootResources (v : Nat) (s : State) : exec (.bootResources v) s =
    .next (s.withHm (stepEnd (bootResources (clearSent s.hw, s.mem) v).1, (bootResources (clearSent s.hw, s.mem) v).2)) :=
  onAll_routed (f := fun hm => bootResources hm v) rfl rfl

theorem twiceBootHw_parts : ∃ t, exec (.bootResources 0) { hw := twiceBootHw } = .next t ∧ (partAt t.hw 0).resetVec = 5 := by
  refine ⟨_, exec_bootResources .., ?_⟩
  have e := (stepEnd_parts _).trans (bootResources_parts (h := clearSent twiceBootHw) (mem := []) (v := 0) rfl rfl rfl rfl rfl rfl rfl)
  generalize bootResources (clearSent twiceBootHw, []) 0 = o at e
  refine (congrArg (fun t : Tab Part => (tabGet {} t 0).resetVec) e).trans ?_
  decide +kernel

/-- Refutes O22: the boot vector 0 of a partition 0 that is listed twice is lost. -/
theorem not_startupRows : ¬ Obligations.StartupRows := by
  intro hall
  obtain ⟨-, -, -, -, -, -, -, hboot, -⟩ := hall { hw := twiceBootHw } _ rfl
  obtain ⟨t, ht, -, hv, -⟩ := hboot 0 rfl rfl rfl rfl rfl rfl rfl rfl rfl rfl rfl rfl
  obtain ⟨u, hu, hlost⟩ := twiceBootHw_parts
  obtain rfl := Host.Outcome.next.inj (hu.symm.trans ht)
  exact absurd (hlost.symm.trans hv) (by decide)

end Sys2Proof.Machine
end

/-! PROOFS. WP, MR, their ends and failures, and KR (R148 to R152, R161 to R163, R169). -/
section
namespace Sys2Proof.Machine

section
variable {h : Hw}

/-! ### Faults that records leave alone -/

theorem queueWrite_fences (h : Hw) (k : Nat) (r : FaultRec) : (queueWrite h k r).faults.fences = h.faults.fences := by
  unfold queueWrite
  dsimp only
  repeat' split
  all_goals first | rfl | rw [raise_faults]; rfl

theorem recordWrite_fences (h : Hw) (r : FaultRec) : (recordWrite h r).faults.fences = h.faults.fences := by
  unfold recordWrite logWrite
  dsimp only
  repeat' split
  all_goals first | rfl | simp only [queueWrite_fences]

/-! ### WP (R163, R169) -/

theorem warmReset_begins {mem : Memory} {c : Nat} (h1 : 1 ≤ c) (h4 : c ≤ 4) (hr : resetting h = false ∨ trainCut h = true)
    (hs : h.start.st ≠ PowerSt.off) : warmReset (h, mem) c = (wpBegin h c, mem) := by
  unfold warmReset
  rw [if_neg]
  rcases hr with hr | hr <;> simp [hr, hs] <;> omega

theorem warmReset_absorbed {mem : Memory} {c : Nat} (hr : resetting h = true) (ht : trainCut h = false) : warmReset (h, mem) c = (h, mem) := by
  unfold warmReset
  rw [if_pos]
  simp [hr, ht]

/-- The departure that a WP announces changes the causeway only. -/
theorem depart_only (h : Hw) : ∃ a, (if h.ident.admitted then broadcast h 0x0C [] else h) = { h with arch := a } := by
  unfold broadcast
  split
  · split
    · exact ⟨_, rfl⟩
    · exact ⟨h.arch, rfl⟩
  · exact ⟨h.arch, rfl⟩

/-- What a WP keeps and what it clears. -/
structure WarmFresh (h g : Hw) : Prop where
  ready : g.efano.ready = false
  epoch : g.efano.epoch = h.efano.epoch + 1
  wp : g.start.wp = some h.tb.now
  admitted : g.ident.admitted = false
  position : g.ident.position = 0
  bench : g.ident.bench = false
  units : g.sel.units = []
  swatches : g.sel.swatches = []
  ranges : g.sel.ranges = []
  base : g.sel.base = SwState.blank
  parts : g.sel.parts = tabPut {} [] 0 { farKey := h.sel.keyCount + 1, nearKey := h.sel.keyCount + 2 }
  slips : g.eng.slips = []
  harts : g.harts = []
  knots : g.sync.knots = []
  ledgers : g.sync.ledgers = []
  locks : g.locks = []
  keep : g.keep = h.keep
  now : g.tb.now = h.tb.now

theorem wpBegin_fresh (h : Hw) (c : Nat) : WarmFresh h (wpBegin h c) := by
  obtain ⟨a, e⟩ := depart_only h
  unfold wpBegin
  simp only [e]
  constructor <;> rfl

theorem wpBegin_log (c : Nat) (hl : logLost h = false) :
    (wpBegin h c).faults.log = h.faults.log ∧ (wpBegin h c).faults.queues = tabPut {} [] 17 (queueAt h 17) := by
  obtain ⟨a, e⟩ := depart_only h
  have hw : wpFaults { h with arch := a } = { h.faults with queues := tabPut {} [] 17 (queueAt h 17), intSteward := 0xFFFF } := by
    unfold wpFaults
    exact if_neg (by rw [show logLost { h with arch := a } = false from hl]; exact Bool.false_ne_true)
  unfold wpBegin
  simp only [e, hw, and_self]

theorem wpBegin_silent (c : Nat) (ha : h.ident.admitted = false) : (wpBegin h c).arch.sent = h.arch.sent := by
  unfold wpBegin
  simp only [ha]
  rfl

theorem tabGet_tabMap_all {α : Type} [DecidableEq α] {d : α} {P : α → Prop} (hd : P d) {f : Nat → α → α} (hf : ∀ n x, P (f n x)) (t : Tab α) (n : Nat) :
    P (tabGet d (tabMap d t f) n) := by
  induction t with
  | nil => exact hd
  | cons e t ih =>
    unfold tabMap at ih ⊢
    rw [List.filterMap_cons]
    split
    · exact ih
    next v hv =>
      split at hv
      · exact absurd hv nofun
      · obtain rfl := Option.some.inj hv
        unfold tabGet
        split
        · exact hf ..
        · exact ih

theorem wpEdges_ports (e : Edges) (n : Nat) :
    (tabGet {} (wpEdges e).ports n).up = false ∧ (tabGet {} (wpEdges e).ports n).training = false := by
  unfold wpEdges
  dsimp only
  refine tabGet_tabMap_all (d := {}) (P := fun x : RootPort => x.up = false ∧ x.training = false) ⟨rfl, rfl⟩ (fun _ _ => ?_) _ n
  exact ⟨rfl, rfl⟩

theorem wpBegin_ports (h : Hw) (c n : Nat) :
    (tabGet {} (wpBegin h c).edges.ports n).up = false ∧ (tabGet {} (wpBegin h c).edges.ports n).training = false := by
  obtain ⟨a, e⟩ := depart_only h
  unfold wpBegin
  simp only [e]
  exact wpEdges_ports h.edges n

theorem wpBegin_retrains (c : Nat) (ht : trainCut h = true) : (wpBegin h c).start.retrain = true ∧ (wpBegin h c).memhw.training = false := by
  obtain ⟨a, e⟩ := depart_only h
  have ht' : trainCut { h with arch := a } = true := ht
  unfold wpBegin wpMemHw
  simp only [e, ht', Bool.not_true, Bool.and_false, and_self]

/-! ### WP_ZEROISED (R163) -/

theorem wpZeroised_unfenced {mem : Memory} {t : Nat} {g k j : Hw} (hw : h.start.wp = some t) (hf : h.faults.fences = [])
    (hg : g = advanceTo h (t + 200000000))
    (hk : k = { g with sel := { g.sel with base := .free, swatches := [] }, start := { g.start with wp := none } })
    (hj : j = recordWrite k { type := 0x0301, cls := 0, part := 0xFF, arg0 := 200000 }) : wpZeroised (h, mem) =
      ({ j with faults := { j.faults with faultN := true }, memhw := setSelfRefresh j.memhw false }, []) := by
  have hfj : j.faults.fences = [] := by rw [hj, recordWrite_fences, hk, hg]; exact hf
  have hlift : liftFences j wpLifts 0x0E04 = j := by
    unfold liftFences
    rw [hfj]
    rfl
  have hfenced : ¬pkgFenced j = true := by
    rw [pkgFenced, hfj]
    exact Bool.false_ne_true
  unfold wpZeroised
  simp only [hw]
  rw [← hg, ← hk, ← hj, hlift, if_neg hfenced]

/-! ### MR (R148, R149) -/

/-- What a management restart leaves of a mailbox. -/
structure Restarted (x : Mbox) : Prop where
  session : x.session = 0
  valid : x.valid = false
  queue : x.queue = []
  rung : x.rung = none
  reqs : ∀ r, r ∈ x.reqs → (r.begun = true ∨ committedEarly r = true) ∧ r.ended = false

theorem closeSession_session (h : Hw) (m : Mbx) (k : Option Nat) (hw : tabWf {} h.efano.boxes = true) :
    (boxAt (closeSession h m k) m).session = 0 := by
  unfold closeSession
  rw [boxAt_setBox_same _ _ _ hw]
  split
  next h0 => exact h0
  next => rfl

theorem setBox_wf (hw : tabWf {} h.efano.boxes = true) (m : Mbx) (x : Mbox) : tabWf {} (setBox h m x).efano.boxes = true := tabPut_wf _ _ hw

theorem closeSession_wf (hw : tabWf {} h.efano.boxes = true) (m : Mbx) (k : Option Nat) : tabWf {} (closeSession h m k).efano.boxes = true :=
  setBox_wf hw m _

theorem restartBox_wf (hw : tabWf {} h.efano.boxes = true) (m : Mbx) : tabWf {} (restartBox h m).efano.boxes = true :=
  setBox_wf (setBox_wf hw m _) m _

theorem restartBox_restarts (hw : tabWf {} h.efano.boxes = true) (m : Mbx) : Restarted (boxAt (restartBox h m) m) := by
  unfold restartBox
  dsimp only
  rw [boxAt_setBox_same _ _ _ (closeSession_wf hw m none)]
  refine ⟨closeSession_session h m none hw, rfl, rfl, rfl, fun r hr => ?_⟩
  obtain ⟨-, hr⟩ := List.mem_filter.mp hr
  simp only [Bool.and_eq_true, Bool.or_eq_true, Bool.not_eq_true', leftToRun] at hr
  exact ⟨hr.1.imp_right And.left, hr.2⟩

theorem restartBox_other (m : Mbx) {n : Mbx} (hn : mbxKey n ≠ mbxKey m) : boxAt (restartBox h m) n = boxAt h n := by
  unfold restartBox closeSession
  rw [boxAt_setBox_other _ _ _ hn, boxAt_setBox_other _ _ _ hn]

theorem restartAll_other (l : List Mbx) {n : Mbx} (hn : ∀ m, m ∈ l → mbxKey n ≠ mbxKey m) (h : Hw) : boxAt (l.foldl restartBox h) n = boxAt h n := by
  induction l generalizing h with
  | nil => rfl
  | cons m l ih =>
    rw [List.foldl_cons, ih (fun k hk => hn k (List.mem_cons_of_mem _ hk)), restartBox_other _ (hn m List.mem_cons_self)]

theorem restartAll_restarts (l : List Mbx) (hl : (l.map mbxKey).Nodup) (hw : tabWf {} h.efano.boxes = true) {n : Mbx} (hn : n ∈ l) :
    Restarted (boxAt (l.foldl restartBox h) n) := by
  induction l generalizing h with
  | nil => exact absurd hn List.not_mem_nil
  | cons m l ih =>
    rw [List.map_cons, List.nodup_cons] at hl
    rw [List.foldl_cons]
    by_cases hnl : n ∈ l
    · exact ih hl.2 (restartBox_wf hw m) hnl
    · obtain rfl : n = m := (List.mem_cons.mp hn).resolve_right hnl
      rw [restartAll_other l (fun k hk he => hl.1 (he ▸ List.mem_map_of_mem hk))]
      exact restartBox_restarts hw n

theorem restartAll_only (l : List Mbx) (h : Hw) : ∃ t : Tab Mbox, l.foldl restartBox h = { h with efano := { h.efano with boxes := t } } := by
  refine List.foldlRecOn _ _ (motive := fun g => ∃ t : Tab Mbox, g = { h with efano := { h.efano with boxes := t } }) ⟨h.efano.boxes, rfl⟩ ?_
  rintro _ ⟨t, rfl⟩ m -
  exact ⟨_, rfl⟩

/-- What a management restart leaves. -/
theorem restartMgmt_only (h : Hw) : ∃ t : Tab Mbox, restartMgmt h = { h with efano := { h.efano with
      boxes := t
      ready := false
      epoch := h.efano.epoch + 1
      mr := some h.tb.now
      agreed := false } } ∧
    (tabWf {} h.efano.boxes = true → ∀ m, m ∈ allMbx → Restarted (tabGet {} t (mbxKey m))) := by
  obtain ⟨t, e⟩ := restartAll_only allMbx h
  refine ⟨t, ?_, fun hw m hm => ?_⟩
  · unfold restartMgmt
    rw [e]
  · have := restartAll_restarts allMbx (by decide) hw hm
    rw [e] at this
    exact this

theorem mrBegin_begins (hm : h.efano.mr = none) (hr : h.efano.ready = true) : mrBegin h = restartMgmt h := by
  unfold mrBegin resetting
  rw [if_neg]
  simp [hm, hr]

theorem mrBegin_absorbed (hm : h.efano.mr ≠ none ∨ resetting h = true) : mrBegin h = h := by
  unfold mrBegin
  rw [if_pos]
  rcases hm with hm | hm
  · simp [Option.isSome_iff_ne_none.mpr hm]
  · simp [hm]

theorem lockstep_restarts (hp : h.ident.pairLock = true) : (if h.ident.pairLock then mrBegin h else h) = mrBegin h := if_pos hp

theorem mrFail_again {t : Nat} (hm : h.efano.mr = some t) (hn : h.efano.mrFails ≠ 2) {g : Hw} (hg : g = restartMgmt (advanceTo h (t + 500000000))) :
    mrFail h = { g with efano := { g.efano with mrFails := h.efano.mrFails + 1 } } := by
  obtain ⟨b, e, -⟩ := restartMgmt_only (advanceTo h (t + 500000000))
  unfold mrFail
  simp only [hm]
  rw [show t + 500 * ms = t + 500000000 from rfl, ← hg, hg, e]
  exact if_neg fun he => hn (Nat.succ.inj he)

theorem mrFail_third {t : Nat} (hm : h.efano.mr = some t) (hn : h.efano.mrFails = 2) :
    ∃ g, mrFail h = mrDoubt g ∧ g.efano.epoch = h.efano.epoch + 1 := by
  obtain ⟨b, e, -⟩ := restartMgmt_only (advanceTo h (t + 500000000))
  unfold mrFail
  simp only [hm]
  rw [show t + 500 * ms = t + 500000000 from rfl, e]
  exact ⟨_, if_pos (congrArg Nat.succ hn), rfl⟩

/-! ### A package-scope cause, and the end of its step, keep the fence and the mailboxes -/

/-- The fences and the mailboxes. -/
def fencesAndBoxes (h : Hw) : List Fence × Efano := (h.faults.fences, h.efano)

theorem recordWrite_fencesAndBoxes (h : Hw) (r : FaultRec) : fencesAndBoxes (recordWrite h r) = fencesAndBoxes h := by
  rw [fencesAndBoxes, recordWrite_fences, recordWrite_efano, fencesAndBoxes]

theorem fencePackage_fencesAndBoxes (h : Hw) : fencesAndBoxes (fencePackage h) = fencesAndBoxes h := by
  have e := fencePackage_doubtKept h
  generalize fencePackage h = g at e
  exact congrArg (fun k : FaultLog × List Fence × W64 × Efano => (k.2.1, k.2.2.2)) e

theorem exitTrigger_fencesAndBoxes (h : Hw) (w : WakeBy) : fencesAndBoxes (exitTrigger h w) = fencesAndBoxes h := by
  unfold exitTrigger
  split
  · rfl
  · exact (foldl_keeps fencesAndBoxes (fun _ _ => recordWrite_fencesAndBoxes ..) _ _).trans (recordWrite_fencesAndBoxes ..)
  · rfl

theorem stepEnd_fencesAndBoxes (h : Hw) : fencesAndBoxes (stepEnd h) = fencesAndBoxes h := by
  unfold stepEnd wakeUp
  rw [routeOut_only]
  split
  · exact exitTrigger_fencesAndBoxes { h with start := { h.start with irqWake := false } } .traffic
  · rfl

theorem stepEnd_fenced {h : Hw} (hf : pkgFenced h = true) : pkgFenced (stepEnd h) = true := by
  rw [pkgFenced, (Prod.mk.inj (stepEnd_fencesAndBoxes h)).1]
  exact hf

theorem stepEnd_efano (h : Hw) : (stepEnd h).efano = h.efano := (Prod.mk.inj (stepEnd_fencesAndBoxes h)).2

theorem setWord_fencesAndBoxes (h : Hw) (w : W64) :
    fencesAndBoxes { h with keep := { h.keep with lastWord := w } } = fencesAndBoxes h := rfl

theorem lastWord_fencesAndBoxes (h : Hw) (type : Nat) (lost : Bool) : fencesAndBoxes (lastWord h type lost) = fencesAndBoxes h :=
  setWord_fencesAndBoxes h _

theorem mrDoubt_fences (h : Hw) : pkgFenced (mrDoubt h) = true ∧ (mrDoubt h).efano = h.efano := by
  obtain ⟨c, r, -, e⟩ := causeOfDoubt_package h 0 0 0xFF { type := 0x0803, arg2 := 7 }
  have hk := (recordWrite_fencesAndBoxes _ r).trans (fencePackage_fencesAndBoxes (packageCause h c))
  generalize recordWrite (fencePackage (packageCause h c)) r = g at e hk
  have hk' := (lastWord_fencesAndBoxes g r.type (logLost g)).trans hk
  rw [← e] at hk'
  obtain ⟨hf, he⟩ := Prod.mk.inj hk'
  exact ⟨(congrArg (fun fs : List Fence => fs.any fun f => f.scope = Scope.package) hf).trans (addCause_package ..), he⟩

end

/-- Settles O23: a WP's state is its own literal, an MR restarts each mailbox in turn, and the third failure fences through the package's
cause of doubt. -/
theorem resetEventRows : Obligations.ResetEventRows := by
  rintro s _ rfl
  refine ⟨fun c h1 h4 hr hs => ?wp, fun c hr ht => ?absorbed, fun c h1 h4 ht hs => ?cut, fun t g k j hw hf hg hk hj => ?zeroised,
    fun hm hr hw => ?mr, fun hm => row_idle (mrBegin_absorbed hm) rfl, fun hp => ?lockstep, rfl, fun t g hm hn hg => ?fail,
    fun t hm hn => ?third, fun g hp hg => ?kr⟩
  case wp =>
    obtain ⟨e1, e2, e3, e4, e5, e6, e7, e8, e9, e10, e11, e12, e13, e14, e15, e16, e17, e18⟩ := wpBegin_fresh (clearSent s.hw) c
    exact ⟨row_endedHw (warmReset_begins h1 h4 (.inl hr) hs) rfl, e1, e2, e3, e4, e5, e6, e7, e8, e9, e10, e11, e12, e13, e14, e15, e16, e17, e18,
      wpBegin_log c, wpBegin_silent c, fun n x hx => hx ▸ wpBegin_ports _ c n⟩
  case absorbed => exact row_givesAll (warmReset_absorbed hr ht) rfl rfl rfl
  case cut => exact ⟨row_endedHw (warmReset_begins h1 h4 (.inr ht) hs) rfl, wpBegin_retrains c ht⟩
  case zeroised => exact row_endedAll (wpZeroised_unfenced hw hf hg hk hj) rfl
  case mr =>
    obtain ⟨t, e, hboxes⟩ := restartMgmt_only (clearSent s.hw)
    have hb := (mrBegin_begins hm hr).trans e
    refine ⟨rfl, ?_⟩
    rw [hb]
    refine ⟨rfl, rfl, rfl, rfl, fun m hmem => ?_⟩
    obtain ⟨h1, h2, h3, h4, h5⟩ := hboxes hw m hmem
    exact ⟨h1, h2, h3, h4, h5⟩
  case lockstep => exact (row_ended (lockstep_restarts hp) rfl).trans rfl
  case fail =>
    obtain ⟨b, e, hboxes⟩ := restartMgmt_only (advanceTo (clearSent s.hw) (t + 500000000))
    refine ⟨row_ended (mrFail_again hm hn hg) rfl, ?_⟩
    rw [hg, e]
    refine ⟨rfl, rfl, rfl, rfl, fun hw m hmem => ?_⟩
    obtain ⟨h1, h2, h3, h4, -⟩ := hboxes hw m hmem
    exact ⟨h1, h2, h3, h4⟩
  case third =>
    obtain ⟨g, e, hepoch⟩ := mrFail_third hm hn
    obtain ⟨hf, he⟩ := mrDoubt_fences g
    generalize mrDoubt g = d at e hf he
    refine ⟨_, row_ended e rfl, stepEnd_fenced hf, ?_⟩
    rw [State.withHw_hw, stepEnd_efano, he, hepoch]
  case kr =>
    subst hg
    exact ⟨row_ended (if_pos hp) rfl, rfl, rfl, rfl, rfl, rfl⟩

end Sys2Proof.Machine
end

/-! PROOFS. Idle, Drowse, Dormant and Off (R172 to R178, Table 5.7). -/
section
namespace Sys2Proof.Machine

section
variable {h : Hw}

/-! ### What going to sleep leaves alone -/

/-- Start-up and power state, the keep-alive domain, units, fault stores and the memories' hardware. -/
def sleepKept (h : Hw) : Startup × KeepAlive × Tab UnitOwn × Faults × MemHw := (h.start, h.keep, h.sel.units, h.faults, h.memhw)

theorem setCoh_sleepKept (h : Hw) (c : Coherence) : sleepKept { h with coh := c } = sleepKept h := rfl

theorem cacheDrop_sleepKept (h : Hw) (c n l : Nat) : sleepKept (cacheDrop h c n l) = sleepKept h := setCoh_sleepKept h _

theorem dropL1_sleepKept (h : Hw) (n l : Nat) : sleepKept (dropL1 h n l) = sleepKept h :=
  (cacheDrop_sleepKept ..).trans (cacheDrop_sleepKept ..)

theorem dropL2_sleepKept (h : Hw) (n l : Nat) : sleepKept (dropL2 h n l) = sleepKept h :=
  (cacheDrop_sleepKept ..).trans (dropL1_sleepKept ..)

theorem dropL3_sleepKept (h : Hw) (c l : Nat) : sleepKept (dropL3 h c l) = sleepKept h :=
  (cacheDrop_sleepKept ..).trans (foldl_keeps sleepKept (fun _ _ => dropL2_sleepKept ..) _ h)

theorem dropDirTag_sleepKept (h : Hw) (p t : Nat) : sleepKept (dropDirTag h p t) = sleepKept h := by
  unfold dropDirTag
  split
  · exact setCoh_sleepKept h _
  · rfl

theorem dropProxy_sleepKept (h : Hw) (l : Nat) : sleepKept (dropProxy h l) = sleepKept h :=
  (dropDirTag_sleepKept ..).trans (setCoh_sleepKept h _)

theorem setArch_sleepKept (h : Hw) (a : Arch) : sleepKept { h with arch := a } = sleepKept h := rfl

theorem askWrite_sleepKept (h : Hw) (p op ca : Nat) (b : List Byte) (x : Bool) : sleepKept (askWrite h p op ca b x) = sleepKept h :=
  setArch_sleepKept h _

theorem setHarts_sleepKept (h : Hw) (t : Tab Hart) : sleepKept { h with harts := t } = sleepKept h := rfl

theorem dropShelf_sleepKept (h : Hw) (n l : Nat) : sleepKept (dropShelf h n l) = sleepKept h := by
  unfold dropShelf
  dsimp only
  split
  · rfl
  · exact setCoh_sleepKept h _

theorem giveUpLine_sleepKept (h : Hw) (w : Bool) (l : Nat) (x : Proxy) : sleepKept (giveUpLine h w l x) = sleepKept h := by
  unfold giveUpLine
  dsimp only
  generalize hk : List.foldl _ (List.foldl _ h _) _ = k
  have ek : sleepKept k = sleepKept h := by
    rw [← hk]
    exact (foldl_keeps sleepKept (fun _ _ => dropShelf_sleepKept ..) _ _).trans (foldl_keeps sleepKept (fun _ _ => dropL3_sleepKept ..) _ h)
  refine (dropProxy_sleepKept ..).trans ((setHarts_sleepKept _ _).trans ?_)
  split
  · exact (askWrite_sleepKept ..).trans ek
  · exact ek

theorem giveUpProxies_sleepKept (h : Hw) (p : Nat → Proxy → Bool) (w : Bool) : sleepKept (giveUpProxies h p w) = sleepKept h := by
  unfold giveUpProxies
  refine foldl_keeps sleepKept (fun g e => ?_) _ h
  exact giveUpLine_sleepKept g w e.1 e.2

theorem leaveProxies_sleepKept (h : Hw) (w : Bool) (f : Nat → Proxy → Proxy) : sleepKept (leaveProxies h w f) = sleepKept h :=
  giveUpProxies_sleepKept ..

theorem emptyCluster_sleepKept (h : Hw) (c : Nat) (w : Bool) : sleepKept (emptyCluster h c w) = sleepKept h := by
  unfold emptyCluster
  dsimp only
  generalize hg : dropMshrs (dropClusterProxies h c w) (.l3 c) = g
  have eg : sleepKept g = sleepKept h := by
    rw [← hg]
    exact leaveProxies_sleepKept ..
  refine Eq.trans ?_ ((foldl_keeps sleepKept (f := fun g k => emptyCache (emptyCache (emptyCache g (8 * c + k)) (128 + (8 * c + k)))
    (256 + (8 * c + k))) (fun _ _ => rfl) (List.range 8) g).trans eg)
  generalize List.foldl _ _ _ = k
  rfl

theorem emptyShelf_sleepKept (h : Hw) (n : Nat) : sleepKept (emptyShelf h n) = sleepKept h := leaveProxies_sleepKept ..

theorem noteThrottle_sleepKept (h : Hw) : sleepKept (noteThrottle h) = sleepKept h := by
  obtain ⟨t, e⟩ := noteThrottle_only h
  rw [e]
  rfl

theorem dropForSleep_sleepKept (h : Hw) : sleepKept (dropForSleep h) = sleepKept h := by
  unfold dropForSleep
  dsimp only
  generalize hk : List.foldl emptyShelf _ _ = k
  have ek : sleepKept k = sleepKept h := by
    rw [← hk]
    exact (foldl_keeps sleepKept (fun _ _ => emptyShelf_sleepKept ..) _ _).trans (foldl_keeps sleepKept (fun _ _ => emptyCluster_sleepKept ..) _ _)
  refine Eq.trans ?_ ((noteThrottle_sleepKept (clearReplacement k)).trans ek)
  generalize noteThrottle (clearReplacement k) = g
  rfl

theorem writeImage_sleepKept (h : Hw) (n : Nat) : sleepKept (writeImage h n) = sleepKept h :=
  foldl_keeps sleepKept (f := fun h k =>
    let mine (l : Nat) : Bool := decide (l / 32768 = k)
    let h1 := setSwatch h k { swGet h k with fresh := true, keyed := false, lost := n }
    { h1 with sel := { h1.sel with written := tabClear h1.sel.written mine },
              coh := { h1.coh with unknown := tabClear h1.coh.unknown mine, poison := tabClear h1.coh.poison mine } }) (fun _ _ => rfl) _ h

theorem dropBobbins_sleepKept (h : Hw) (q : Nat) : sleepKept (dropBobbins h q) = sleepKept h := rfl

/-- What is written and dropped at Dormant entry before the islands are gated. -/
def imaged (h : Hw) : Hw :=
  (List.range 128).foldl dropBobbins (writeImage { dropForSleep h with free := (dropForSleep h).free + 1 } ((dropForSleep h).free + 1))

theorem imaged_sleepKept (h : Hw) : sleepKept (imaged h) = sleepKept h := by
  refine (foldl_keeps sleepKept dropBobbins_sleepKept _ _).trans ((writeImage_sleepKept ..).trans ?_)
  refine Eq.trans ?_ (dropForSleep_sleepKept h)
  generalize dropForSleep h = g
  rfl

/-- The package with its islands gated, after the image was written. -/
def gatedDown (h2 : Hw) : Hw :=
  let gone (k : Nat) : Bool := decide (regionOf (k * 2 ^ 21) = 2)
  let sw := tabMap (swBase h2) h2.sel.swatches (fun k s => if gone k ∧ s.state = SwState.owned then { s with fresh := true, lost := h2.free + 1 } else s)
  let sel := { h2.sel with swatches := sw, written := tabClear h2.sel.written (fun l => gone (l / 32768)) }
  let eng := { h2.eng with slips := tabMap {} h2.eng.slips (fun _ x => sleepSlip x), fetchArb := [], dispArb := [], fronts := [], leaves := [] }
  let edges := { h2.edges with ports := tabMap {} h2.edges.ports (fun _ x => { x with up := false, training := false }),
                               funcs := tabMap {} h2.edges.funcs (fun _ f => { f with tdisp := .unlocked, ide := 0, stream := 0, bars := [] }) }
  let coh := { h2.coh with caches := [], poison := tabClear h2.coh.poison (fun l => gone (l / 32768)),
                           swPoison := tabClear h2.coh.swPoison gone }
  { h2 with sel := sel, eng := eng, edges := edges, coh := coh, free := h2.free + 1, arch := { h2.arch with links := [] },
            harts := tabMap {} h2.harts (fun _ x => { x with hpm := [] }) }

/-- The package asleep under its present sealing key since an instant. -/
def asleep (g : Hw) (entry : Nat) : Hw :=
  { g with
    memhw := setSelfRefresh g.memhw true
    start := { g.start with st := .dormant, since := g.tb.now, entryTb := entry, image := some g.keep.sealKey, dormReq := false } }

theorem dormantEntry_sleeps (hd : h.start.dormReq = true) (hs : h.start.st = PowerSt.active) (hw : workLeft h = false) (ha : anyHeld h = false) :
    dormantEntry h = asleep (gatedDown (imaged h)) h.tb.now := by
  unfold dormantEntry
  rw [if_neg (by simp [hd, hs, hw]), if_neg (by simp [ha])]
  change _ = asleep (gatedDown (List.foldl dropBobbins _ _)) _
  dsimp only
  generalize List.foldl dropBobbins _ _ = k
  rfl

theorem gatedDown_sleepKept (h : Hw) : sleepKept (gatedDown h) = sleepKept h := rfl

theorem gatedDown_caches (h : Hw) : (gatedDown h).coh.caches = [] := rfl

/-- What a package asleep is seen to hold. -/
structure Asleep (h g : Hw) : Prop where
  st : g.start.st = PowerSt.dormant
  image : g.start.image = some h.keep.sealKey
  asked : g.start.dormReq = false
  entry : g.start.entryTb = h.tb.now
  caches : g.coh.caches = []
  refresh : g.memhw.selfRefresh = true
  keep : g.keep = h.keep
  units : g.sel.units = h.sel.units
  fences : g.faults.fences = h.faults.fences
  quiet : g.start.irqWake = h.start.irqWake
  saved : imageSwatches g = imageSwatches h

theorem setSelfRefresh_on (m : MemHw) (b : Bool) : (setSelfRefresh m b).selfRefresh = b := by
  unfold setSelfRefresh
  split
  next he => exact he
  next => rfl

theorem asleep_of_kept {g : Hw} (hc : g.coh.caches = []) (hk : sleepKept g = sleepKept h) : Asleep h (asleep g h.tb.now) := by
  obtain ⟨hs, hrest⟩ := Prod.mk.inj hk
  obtain ⟨hkeep, hrest⟩ := Prod.mk.inj hrest
  obtain ⟨hunits, hrest⟩ := Prod.mk.inj hrest
  obtain ⟨hfaults, -⟩ := Prod.mk.inj hrest
  have hquiet : g.start.irqWake = h.start.irqWake := congrArg Startup.irqWake hs
  have himg : imageSwatches g = imageSwatches h := by rw [imageSwatches, hs, imageSwatches]
  exact ⟨rfl, congrArg (fun k : KeepAlive => some k.sealKey) hkeep, rfl, rfl, hc, setSelfRefresh_on .., hkeep, hunits,
    congrArg Faults.fences hfaults, hquiet, himg⟩

theorem dormantEntry_asleep (hd : h.start.dormReq = true) (hs : h.start.st = PowerSt.active) (hw : workLeft h = false) (ha : anyHeld h = false) :
    Asleep h (dormantEntry h) := by
  rw [dormantEntry_sleeps hd hs hw ha]
  exact asleep_of_kept (gatedDown_caches _) ((gatedDown_sleepKept _).trans (imaged_sleepKept h))

theorem Asleep.routed {g : Hw} (hg : Asleep h g) : Asleep h (routeOut g) := by
  rw [routeOut_only]
  obtain ⟨a, b, c, d, e, f, i, j, k, l, m⟩ := hg
  exact ⟨a, b, c, d, e, f, i, j, k, l, m⟩

theorem dormantEntry_refused (hd : h.start.dormReq = true) (hs : h.start.st = PowerSt.active) (hw : workLeft h = false) (ha : anyHeld h = true) :
    dormantEntry h = endWaits { h with start := { h.start with dormReq := false } } (fun r => decide (r.wait = Wait.dormant)) 0x20 0 := by
  unfold dormantEntry
  rw [if_neg (by simp [hd, hs, hw]), if_pos ha]

/-! ### Idle and Drowse -/

theorem idleEntry_enters {w : Bool} {g : Hw} (hs : h.start.st = PowerSt.active) (hr : h.efano.ready = true) (he : enginesBusy h = false)
    (hw : w = true ∨ ∀ n, n < 128 → (hartAt h n).run ≠ HartRun.running)
    (hg : g = loopDefaults (advanceTo (noteThrottle h) (h.tb.now + h.start.idleUs * 1000))) :
    idleEntry h w = { g with start := { g.start with st := .idle, since := g.tb.now } } := by
  unfold idleEntry
  rw [if_pos ⟨hs, hr, he, hw.imp_right fun hall => List.all_eq_true.mpr fun n hn => decide_eq_true (hall n (List.mem_range.mp hn))⟩, ← hg]

theorem drowseEntry_asked {k : Hw} (hk : k = dropForSleep h) (hs : h.start.st = PowerSt.active ∨ h.start.st = PowerSt.idle)
    (hd : h.start.drowseReq = true) (hu : unacked h = false) (he : enginesBusy h = false) :
    drowseEntry h = { k with start := { k.start with st := .drowse, since := k.tb.now, entryTb := k.tb.now, drowseReq := false } } := by
  unfold drowseEntry
  simp only [hd, hu, he, decide_eq_true hs, Bool.not_false, Bool.and_true, Bool.true_or, Bool.not_true, Bool.or_self, Bool.false_eq_true,
    if_false, if_true]
  rw [← hk]

theorem drowseEntry_idled {k : Hw} (hk : k = dropForSleep (advanceTo h (h.start.since + h.start.drowseMs * 1000000)))
    (hs : h.start.st = PowerSt.idle) (hon : h.start.drowseOn = true) (hd : h.start.drowseReq = false) (he : enginesBusy h = false) :
    drowseEntry h = { k with start := { k.start with st := .drowse, since := k.tb.now, entryTb := k.tb.now, drowseReq := false } } := by
  unfold drowseEntry
  rw [if_neg (by simp [hd, he, hs, hon]), if_neg (by simp [hd])]
  dsimp only
  rw [show ms = 1000000 from rfl, ← hk]

theorem exitTrigger_idle (b : WakeBy) (hs : h.start.st = PowerSt.idle) :
    exitTrigger h b = { h with start := { h.start with st := .active, since := h.tb.now } } := by
  unfold exitTrigger
  rw [hs]

theorem exitTrigger_drowse (b : WakeBy) (hs : h.start.st = PowerSt.drowse) : exitTrigger h b =
    writeReport { h with start := { h.start with st := .active, since := h.tb.now } } 3 (wakeCode b) h.start.entryTb 0 := by
  unfold exitTrigger
  rw [hs]

/-! ### Dormant's end -/

theorem dormantExit_lost {b : WakeBy} {w : WakeTrain} {g : Hw} (hs : h.start.st = PowerSt.dormant) (hb : b ≠ WakeBy.traffic)
    (hg : g = wakeTrain { h with memhw := setSelfRefresh h.memhw (pkgFenced h) } w.fails)
    (hl : ¬(w.image = true ∧ g.memhw.nearOpen = h.memhw.nearOpen ∧ g.memhw.farOpen = h.memhw.farOpen ∧ h.start.image = some h.keep.sealKey)) :
    dormantExit h b w = wpBegin { g with start := { g.start with st := .active, image := none } } 4 := by
  unfold dormantExit
  rw [if_neg (by simp [hs, hb]), ← hg]
  exact if_neg hl

/-- The package that has woken from Dormant, before its report. -/
def woken (g : Hw) : Hw :=
  retrainPorts { g with ecc := { g.ecc with buckets := tabMap {} g.ecc.buckets (fun _ b => { b with count := 0 }) },
                        start := { g.start with st := .active, since := g.tb.now, image := none } } (fun _ => true)

theorem dormantExit_wakes {b : WakeBy} {w : WakeTrain} {g : Hw} (hs : h.start.st = PowerSt.dormant) (hb : b ≠ WakeBy.traffic)
    (hg : g = wakeTrain { h with memhw := setSelfRefresh h.memhw (pkgFenced h) } w.fails) (hi : w.image = true)
    (hn : g.memhw.nearOpen = h.memhw.nearOpen) (hf : g.memhw.farOpen = h.memhw.farOpen) (hk : h.start.image = some h.keep.sealKey) :
    dormantExit h b w = endWaits (setReady (writeReport (woken g) 4 (wakeCode b) (woken g).start.entryTb 1))
      (fun r => decide (r.wait = Wait.dormant)) 0 0 := by
  unfold dormantExit
  rw [if_neg (by simp [hs, hb]), ← hg]
  exact if_pos ⟨hi, hn, hf, hk⟩

theorem exec_dormantExit (b : WakeBy) (w : WakeTrain) (s : State) :
    exec (.dormantExit b w) s = .next (s.ended (dormantExit (clearSent s.hw) b w)) := rfl

theorem dormantExit_traffic (w : WakeTrain) : dormantExit h .traffic w = h := if_pos (.inr rfl)

/-! ### While the package is Active no interrupt is noted (Table 5.7) -/

/-- Neither Idle nor Drowse, so that an interrupt ends neither. -/
def isAwake (h : Hw) : Prop := h.start.st = PowerSt.active

theorem noteIrq_start (hs : isAwake h) : (noteIrq h).start = h.start := congrArg Hw.start (if_neg (by rw [hs]; simp))

theorem ite_start {c : Prop} [Decidable c] {a b : Hw} (ha : a.start = h.start) (hb : b.start = h.start) : (if c then a else b).start = h.start := by
  split
  · exact ha
  · exact hb

theorem imsicSet_start (hs : isAwake h) (n k v : Nat) : (imsicSet h n k v).start = h.start :=
  ite_start (noteIrq_start hs) rfl

theorem deliverEntry_start (hs : isAwake h) (p v : Nat) : (deliverEntry h p v).start = h.start := by
  unfold deliverEntry
  split
  · exact imsicSet_start hs ..
  · rfl

theorem raise_start (hs : isAwake h) (p e : Nat) : (raise h p e).start = h.start := by
  unfold raise
  split
  · rfl
  · split
    · exact deliverEntry_start hs ..
    · exact deliverEntry_start (h := (takeFree h).2) hs ..

theorem queueWrite_start (hs : isAwake h) (k : Nat) (r : FaultRec) : (queueWrite h k r).start = h.start := by
  unfold queueWrite
  dsimp only
  repeat' split
  all_goals first | rfl | exact raise_start (h := setQueue h k _) hs ..

theorem logWrite_start (h : Hw) (r : FaultRec) : (logWrite h r).start = h.start := by
  unfold logWrite
  dsimp only
  split <;> rfl

theorem recordWrite_start (hs : isAwake h) (r : FaultRec) : (recordWrite h r).start = h.start := by
  have keep {g : Hw} (hg : g.start = h.start) (k : Nat) (r : FaultRec) : (queueWrite g k r).start = h.start :=
    (queueWrite_start (show g.start.st = _ from hg ▸ hs) k r).trans hg
  unfold recordWrite
  split
  · rfl
  · extract_lets r dst toS toP entersS entersL h1 faults log h2 h3
    have e1 : h1.start = h.start := ite_start (logWrite_start h r) rfl
    have e2 : h2.start = h.start := ite_start e1 e1
    have e3 : h3.start = h.start := ite_start (keep e2 17 r) e2
    exact ite_start (keep e3 r.part r) e3

theorem foldl_start {α : Type} {f : Hw → α → Hw} (hf : ∀ g a, isAwake g → (f g a).start = g.start) (hs : isAwake h) (l : List α) :
    (l.foldl f h).start = h.start := by
  refine List.foldlRecOn _ _ (motive := fun g : Hw => g.start = h.start) rfl fun g hg a _ => ?_
  exact (hf g a (show g.start.st = _ from hg ▸ hs)).trans hg

/-- Start-up's state, the memories' hardware and READY. -/
def wakeKept (h : Hw) : Startup × MemHw × Efano := (h.start, h.memhw, h.efano)

theorem recordWrite_wakeKept (hs : isAwake h) (r : FaultRec) : wakeKept (recordWrite h r) = wakeKept h := by
  rw [wakeKept, recordWrite_start hs, recordWrite_memhw, recordWrite_efano, wakeKept]

theorem raise_wakeKept (hs : isAwake h) (p e : Nat) : wakeKept (raise h p e) = wakeKept h := by
  rw [wakeKept, raise_start hs, raise_memhw, raise_efano, wakeKept]

theorem isAwake_of_kept {g : Hw} (e : wakeKept g = wakeKept h) (hs : isAwake h) : isAwake g :=
  (congrArg (fun k : Startup × MemHw × Efano => k.1.st) e).trans hs

theorem foldl_wakeKept {α : Type} {f : Hw → α → Hw} (hf : ∀ g a, isAwake g → wakeKept (f g a) = wakeKept g) (hs : isAwake h) (l : List α) :
    wakeKept (l.foldl f h) = wakeKept h := by
  refine List.foldlRecOn _ _ (motive := fun g : Hw => wakeKept g = wakeKept h) rfl fun g hg a _ => ?_
  exact (hf g a (isAwake_of_kept hg hs)).trans hg

/-- A wake report is 128 bytes, kept with the next number, and then its records are written. -/
theorem writeReport_steps (h : Hw) (a b c d : Nat) : ∃ (bytes : List Byte) (r : FaultRec) (f : Hw → Nat → FaultRec) (ps : List Nat),
    writeReport h a b c d = ps.foldl (fun g p => recordWrite g (f g p))
      (recordWrite { h with start := { h.start with report := bytes, wakeSeq := h.start.wakeSeq + 1 } } r) ∧ bytes.length = 128 := by
  refine ⟨_, _, _, _, rfl, ?_⟩
  simp only [List.length_append, leBytes_length, zeros_length]

/-- What a wake report leaves of an Active package. -/
theorem writeReport_wakes (hs : isAwake h) (a b c d : Nat) : ∃ bytes : List Byte, bytes.length = 128 ∧
    wakeKept (writeReport h a b c d) = ({ h.start with report := bytes, wakeSeq := h.start.wakeSeq + 1 }, h.memhw, h.efano) := by
  obtain ⟨bytes, r, f, ps, e, hlen⟩ := writeReport_steps h a b c d
  have hs1 : isAwake { h with start := { h.start with report := bytes, wakeSeq := h.start.wakeSeq + 1 } } := hs
  have e1 := recordWrite_wakeKept hs1 r
  refine ⟨bytes, hlen, ?_⟩
  rw [e]
  exact (foldl_wakeKept (fun _ _ hg => recordWrite_wakeKept hg _) (isAwake_of_kept e1 hs1) ps).trans e1

theorem flushKeep_wakeKept (hs : isAwake h) : wakeKept (flushKeep h) = wakeKept h := by
  have one (g : Hw) (hg : wakeKept g = wakeKept h) (k : KeepAlive) (r : FaultRec) : wakeKept (recordWrite { g with keep := k } r) = wakeKept h :=
    (recordWrite_wakeKept (h := { g with keep := k }) (isAwake_of_kept hg hs) r).trans hg
  unfold flushKeep
  split
  · rfl
  · dsimp only
    split
    · split
      · exact one h rfl _ _
      · exact one _ (one h rfl _ _) _ _
    · split
      · rfl
      · exact one h rfl _ _

theorem setReady_wakes (hs : isAwake h) : ∃ e, e.ready = true ∧ wakeKept (setReady h) = ({ h.start with bgScrub := true }, h.memhw, e) := by
  refine ⟨{ h.efano with ready := true, mr := none, mrFails := 0 }, rfl, ?_⟩
  unfold setReady
  dsimp only
  generalize hg : List.foldl _ _ _ = g
  have hall : wakeKept g = ({ h.start with bgScrub := true }, h.memhw, { h.efano with ready := true, mr := none, mrFails := 0 }) := by
    rw [← hg]
    refine (foldl_wakeKept (h := { h with
      efano := { h.efano with ready := true, mr := none, mrFails := 0 }
      start := { h.start with bgScrub := true } }) (fun k m hk => ?_) hs _).trans rfl
    cases m
    case keeper => rfl
    all_goals
      dsimp only
      split
      · exact raise_wakeKept hk ..
      · rfl
  have hsg : isAwake g := (congrArg (fun k : Startup × MemHw × Efano => k.1.st) hall).trans hs
  exact (flushKeep_wakeKept hsg).trans hall

/-- A hardware that differs in its mailboxes only. -/
def boxesOf (h : Hw) (t : Tab Mbox) : Hw := { h with efano := { h.efano with boxes := t } }

theorem setBox_boxes (h : Hw) (t : Tab Mbox) (m : Mbx) (x : Mbox) : ∃ u, setBox (boxesOf h t) m x = boxesOf h u := ⟨_, rfl⟩

theorem finalResp_boxes (h : Hw) (t : Tab Mbox) (m : Mbx) (r : Req) (a b : Nat) (p : List Byte) :
    ∃ u, finalResp (boxesOf h t) m r a b p = boxesOf h u := by
  unfold finalResp
  dsimp only
  split
  · exact ⟨_, rfl⟩
  · exact ⟨_, rfl⟩

theorem addOutcome_boxes (h : Hw) (t : Tab Mbox) (m : Mbx) (r : Req) : ∃ u, addOutcome (boxesOf h t) m r = boxesOf h u := by
  unfold addOutcome
  dsimp only
  split
  · exact ⟨_, rfl⟩
  · exact ⟨t, rfl⟩

theorem endOutcome_boxes (h : Hw) (t : Tab Mbox) (m : Mbx) (r : Req) (a b : Nat) : ∃ u, endOutcome (boxesOf h t) m r a b = boxesOf h u := by
  unfold endOutcome
  dsimp only
  split
  · split
    · exact ⟨_, rfl⟩
    · exact ⟨t, rfl⟩
  · exact ⟨_, rfl⟩

theorem endWaits_boxes (h : Hw) (p : Req → Bool) (a b : Nat) : ∃ u, endWaits h p a b = boxesOf h u := by
  refine List.foldlRecOn _ _ (motive := fun g => ∃ u, g = boxesOf h u) ⟨h.efano.boxes, rfl⟩ ?_
  rintro _ ⟨t, rfl⟩ m -
  refine List.foldlRecOn _ _ (motive := fun g => ∃ u, g = boxesOf h u) ⟨t, rfl⟩ ?_
  rintro _ ⟨t, rfl⟩ r -
  split
  · split
    · obtain ⟨u, e⟩ := endOutcome_boxes h t m r a b
      rw [e]
      exact finalResp_boxes ..
    · split
      · exact finalResp_boxes ..
      · split
        · obtain ⟨u, e⟩ := setBox_boxes h t m (setReq (boxAt (boxesOf h t) m) { r with begun := true, commit := commitTime (boxesOf h t) r })
          dsimp only
          rw [e]
          obtain ⟨u, e⟩ := addOutcome_boxes h u m { r with begun := true, commit := commitTime (boxesOf h t) r }
          rw [e]
          obtain ⟨u, e⟩ := endOutcome_boxes h u m { r with begun := true, commit := commitTime (boxesOf h t) r } 0 0
          rw [e]
          exact finalResp_boxes ..
        · exact finalResp_boxes ..
  · exact ⟨t, rfl⟩

theorem exitTrigger_awake (hs : isAwake h) (w : WakeBy) : exitTrigger h w = h := by
  unfold exitTrigger
  rw [hs]

theorem wakeUp_awake (hs : isAwake h) : ∃ b, wakeUp h = { h with start := { h.start with irqWake := b } } := by
  unfold wakeUp
  split
  · exact ⟨false, exitTrigger_awake (h := { h with start := { h.start with irqWake := false } }) hs _⟩
  · exact ⟨h.start.irqWake, rfl⟩

theorem stepEnd_awake (hs : isAwake h) : ∃ b a, stepEnd h = { h with start := { h.start with irqWake := b }, arch := a } := by
  obtain ⟨b, e⟩ := wakeUp_awake hs
  exact ⟨b, (routeOut (wakeUp h)).arch, by rw [stepEnd, routeOut_only, e]⟩

/-- A hardware that differs in its stacks' and channels' state only. -/
def chansOf (h : Hw) (t : Tab Channel) : Hw := { h with memhw := { h.memhw with chans := t } }

theorem foldl_setChan_chans (h : Hw) (f : Hw → Nat → Channel) (l : List Nat) (t : Tab Channel) :
    ∃ u, l.foldl (fun g k => setChan g k (f g k)) (chansOf h t) = chansOf h u := by
  refine List.foldlRecOn _ _ (motive := fun g => ∃ u, g = chansOf h u) ⟨t, rfl⟩ ?_
  rintro _ ⟨u, rfl⟩ k -
  exact ⟨_, rfl⟩

/-- A tier that retrains with nothing failing. -/
theorem wakeTier_chans (h : Hw) (t : Tab Channel) {c : Prop} [Decidable c] (f : Hw → Nat → Channel) (l : List Nat) :
    ∃ u, (if c then chansOf h t else l.foldl (fun g k => setChan g k (f g k)) (chansOf h t)) = chansOf h u := by
  split
  · exact ⟨t, rfl⟩
  · exact foldl_setChan_chans h f l t

/-- Retraining in which nothing fails closes no tier. -/
theorem wakeTrain_sound (h : Hw) : ∃ u, wakeTrain h [] = chansOf h u := by
  have step (near : Bool) (t : Tab Channel) := wakeTier_chans h t
    (c := (!(if near then (chansOf h t).memhw.nearOpen else (chansOf h t).memhw.farOpen)) = true)
    (fun g k => { chanAt g k with path := .warm, step := 11 }) (tierUnits (chansOf h t) near)
  unfold wakeTrain
  simp only [List.filter_nil, List.foldl_nil, List.isEmpty_nil, if_true]
  obtain ⟨u, e⟩ := step true h.memhw.chans
  obtain ⟨v, e'⟩ := step false u
  refine ⟨v, ?_⟩
  rw [← e', ← e]
  rfl

/-- What a package that woke from Dormant is seen to hold. -/
structure Woken (h g : Hw) : Prop where
  st : g.start.st = PowerSt.active
  image : g.start.image = none
  refresh : g.memhw.selfRefresh = pkgFenced h
  near : g.memhw.nearOpen = h.memhw.nearOpen
  far : g.memhw.farOpen = h.memhw.farOpen
  ready : g.efano.ready = true
  seq : g.start.wakeSeq = h.start.wakeSeq + 1
  report : g.start.report.length = 128

theorem setSelfRefresh_tiers (m : MemHw) (b : Bool) :
    (setSelfRefresh m b).nearOpen = m.nearOpen ∧ (setSelfRefresh m b).farOpen = m.farOpen := by
  unfold setSelfRefresh
  split <;> exact ⟨rfl, rfl⟩

/-- A wake with its report, READY, and the end of its step. -/
theorem stepEnd_woken {g : Hw} (hs : isAwake g) (hi : g.start.image = none) (hr : g.memhw.selfRefresh = pkgFenced h)
    (hn : g.memhw.nearOpen = h.memhw.nearOpen) (hf : g.memhw.farOpen = h.memhw.farOpen) (hq : g.start.wakeSeq = h.start.wakeSeq)
    (a b c d : Nat) (p : Req → Bool) : Woken h (stepEnd (endWaits (setReady (writeReport g a b c d)) p 0 0)) := by
  obtain ⟨bytes, hlen, e1⟩ := writeReport_wakes hs a b c d
  generalize writeReport g a b c d = k at e1
  obtain ⟨ks, e1⟩ := Prod.mk.inj e1
  obtain ⟨km, -⟩ := Prod.mk.inj e1
  have hsk : isAwake k := (congrArg Startup.st ks).trans hs
  obtain ⟨e, hready, e2⟩ := setReady_wakes hsk
  generalize setReady k = j at e2
  obtain ⟨js, e2⟩ := Prod.mk.inj e2
  obtain ⟨jm, je⟩ := Prod.mk.inj e2
  have hsj : isAwake j := (congrArg Startup.st js).trans hsk
  obtain ⟨u, e3⟩ := endWaits_boxes j p 0 0
  obtain ⟨q, v, e4⟩ := stepEnd_awake (h := boxesOf j u) hsj
  rw [e3, e4]
  have hm : j.memhw = g.memhw := jm.trans km
  have hstart : j.start = { g.start with report := bytes, wakeSeq := g.start.wakeSeq + 1, bgScrub := true } := by rw [js, ks]
  exact ⟨hsj, (congrArg Startup.image hstart).trans hi, (congrArg MemHw.selfRefresh hm).trans hr, (congrArg MemHw.nearOpen hm).trans hn,
    (congrArg MemHw.farOpen hm).trans hf, (congrArg Efano.ready je).trans hready,
    (congrArg Startup.wakeSeq hstart).trans (congrArg (· + 1) hq), (congrArg (fun k : Startup => k.report.length) hstart).trans hlen⟩

theorem dormantExit_woken {b : WakeBy} {w : WakeTrain} (hs : h.start.st = PowerSt.dormant) (hb : b ≠ WakeBy.traffic) (hi : w.image = true)
    (hf : w.fails = []) (hk : h.start.image = some h.keep.sealKey) : Woken h (stepEnd (dormantExit h b w)) := by
  obtain ⟨u, e⟩ := wakeTrain_sound { h with memhw := setSelfRefresh h.memhw (pkgFenced h) }
  obtain ⟨hn, hfar⟩ := setSelfRefresh_tiers h.memhw (pkgFenced h)
  rw [dormantExit_wakes hs hb rfl hi, hf, e]
  · generalize hg : woken _ = g
    have hw : g.start = { h.start with st := .active, since := h.tb.now, image := none } ∧
        g.memhw = { setSelfRefresh h.memhw (pkgFenced h) with chans := u } := by
      rw [← hg]
      exact ⟨rfl, rfl⟩
    obtain ⟨hstart, hmem⟩ := hw
    have hseq : g.start.wakeSeq = h.start.wakeSeq := by rw [hstart]
    exact stepEnd_woken (congrArg Startup.st hstart) (congrArg Startup.image hstart)
      ((congrArg MemHw.selfRefresh hmem).trans (setSelfRefresh_on ..)) ((congrArg MemHw.nearOpen hmem).trans hn)
      ((congrArg MemHw.farOpen hmem).trans hfar) hseq ..
  · rw [hf, e]; exact hn
  · rw [hf, e]; exact hfar
  · exact hk

theorem memByte_dormantBytes_scratch (m : Memory) {a : Nat} (ha : regionOf a = 2) : memByte (dormantBytes h m) a = 0 :=
  tabGet_clear_in 0 m (by simp [ha])

theorem memByte_dormantBytes_kept (m : Memory) {a : Nat} (ha : regionOf a ≠ 2) (hi : a / 2 ^ 21 ∉ imageSwatches h) :
    memByte (dormantBytes h m) a = memByte m a := tabGet_clear_out 0 m (by simp only [ha, hi, decide_false, Bool.or_self])

end

/-- Settles O24: each entry and exit follows its own guard; sleeping keeps units, fences and the keep-alive domain, and an Active package
notes no interrupt, so that the wake report stands. -/
theorem lowPowerRows : Obligations.LowPowerRows := by
  rintro s _ rfl
  refine ⟨fun w g hs hr he hw hg => row_ended (idleEntry_enters hs hr he hw hg) rfl,
    fun k x hk hs hd hu he hx => hx ▸ row_ended (drowseEntry_asked hk hs hd hu he) rfl,
    fun k x hk hs hon hd he hx => hx ▸ row_ended (drowseEntry_idled hk hs hon hd he) rfl,
    fun b hs => row_ended (exitTrigger_idle b hs) rfl, fun b hs => row_ended (exitTrigger_drowse b hs) rfl,
    fun hd hs hw ha => ?dormant, fun hd hs hw ha => ?refused, fun b w hs hb hi hf hk => ?wakes,
    fun b w g hs hb hl hg => ?lost, fun b w g hs hb hg hl => ?closed, fun w => row_ended (dormantExit_traffic w) rfl, ?off⟩
  case dormant =>
    have hg := dormantEntry_asleep hd hs hw ha
    refine ⟨_, row_endedAll (e := (dormantEntry (clearSent s.hw), dormantBytes (dormantEntry (clearSent s.hw)) s.mem)) ?_ rfl, ?_⟩
    · exact congrArg (Prod.mk _) (if_pos ⟨hg.st, by rw [hs]; decide⟩)
    · generalize dormantEntry (clearSent s.hw) = g at hg
      rw [State.withHm_hw, State.withHm_mem, stepEnd_quiet hg.quiet]
      obtain ⟨a, b, c, d, e, f, i, j, k, -, -⟩ := hg.routed
      exact ⟨a, b, c, d, e, f, fun x hx => memByte_dormantBytes_scratch _ hx,
        fun x hx hn => memByte_dormantBytes_kept _ hx (hg.saved ▸ hn), i, j, k⟩
  case refused =>
    have e := dormantEntry_refused hd hs hw ha
    have hawake : (dormantEntry (clearSent s.hw)).start.st ≠ PowerSt.dormant := by
      obtain ⟨u, e'⟩ := endWaits_boxes { clearSent s.hw with start := { (clearSent s.hw).start with dormReq := false } }
        (fun r => decide (r.wait = Wait.dormant)) 0x20 0
      rw [e, e']
      exact fun hn => absurd (hs.symm.trans hn) (by decide)
    have hrow : exec .dormantEntry s = .next (s.withHm (stepEnd (dormantEntry (clearSent s.hw)), s.mem)) :=
      row_endedAll (e := (dormantEntry (clearSent s.hw), s.mem)) (congrArg (Prod.mk _) (if_neg fun hn => hawake hn.1)) rfl
    rw [hrow, e]
  case wakes =>
    obtain ⟨a, b', c, d, e, f, i, j⟩ := dormantExit_woken hs hb hi hf hk
    refine ⟨_, exec_dormantExit .., ?_⟩
    beta_reduce
    rw [State.withHw_hw]
    exact ⟨a, b', c, d, e, f, i, j, rfl⟩
  case lost =>
    refine row_ended (dormantExit_lost hs hb hg ?_) rfl
    rintro ⟨h1, -, -, h2⟩
    rcases hl with hl | hl
    · exact absurd (hl.symm.trans h1) (by decide)
    · exact hl h2
  case closed =>
    refine row_ended (dormantExit_lost hs hb hg ?_) rfl
    rintro ⟨-, h1, h2, -⟩
    exact hl.elim (· h1) (· h2)
  case off => exact ⟨_, rfl, rfl, _, rfl, rfl⟩

end Sys2Proof.Machine
end

/-! PROOFS. The loads, stores and fetches of a hart (chapters 6 and 7): what a trap leaves in the hart that takes it, what an access meets, and
the equation of each form of an access. -/
section
namespace Sys2Proof.Machine

/-! ### Traps and access faults -/

/-- A hart that goes on in the handler of a mode. -/
def trapTo (z : Hart) (t : Trap) (mode : Nat) (virt : Bool) (pc : Nat) : Hart :=
  { z with trap := some t, mode := mode, virt := virt, pc := pc }

/-- The CSRs that a trap saves: cause, value and pc, in those of the mode that takes it. -/
def saved (x : Hart) (md : TrapMode) (cause tval : Nat) : Hart :=
  setCsr (setCsr (setCsr (stackStatus x md) (trapBase md + 0x41) x.pc) (trapBase md + 0x42) cause) (trapBase md + 0x43) tval

/-- Where a trap goes on. -/
def handlerPc (h : Hw) (n : Nat) (x : Hart) (md : TrapMode) : Nat :=
  if !x.nmie && decide (x.mode = 3) then (partAt h (hartOwner h n)).rnmiExc else csrOf x (trapBase md + 5) / 4 * 4

/-- The privilege that a trap's handler runs with. -/
def handlerMode : TrapMode → Nat
  | .m => 3 | .hs => 1 | .vs => 1

theorem takeTrap_eq (h : Hw) (n cause tval : Nat) :
    takeTrap h n cause tval =
      setHart h n (trapTo (saved (hartAt h n) (trapMode (hartAt h n) cause) cause tval)
        { cause := cause, tval := tval, mode := trapMode (hartAt h n) cause, epc := (hartAt h n).pc }
        (handlerMode (trapMode (hartAt h n) cause)) (decide (trapMode (hartAt h n) cause = .vs))
        (handlerPc h n (hartAt h n) (trapMode (hartAt h n) cause))) := rfl

theorem trapTo_ne (z : Hart) (t : Trap) (m p : Nat) (v : Bool) : trapTo z t m v p ≠ {} :=
  fun e => absurd (congrArg Hart.trap e) (by simp [trapTo])

/-- The hart that has taken a trap, whatever the others are. -/
theorem takeTrap_hart (h : Hw) (n cause tval : Nat) :
    hartAt (takeTrap h n cause tval) n =
      trapTo (saved (hartAt h n) (trapMode (hartAt h n) cause) cause tval)
        { cause := cause, tval := tval, mode := trapMode (hartAt h n) cause, epc := (hartAt h n).pc }
        (handlerMode (trapMode (hartAt h n) cause)) (decide (trapMode (hartAt h n) cause = .vs))
        (handlerPc h n (hartAt h n) (trapMode (hartAt h n) cause)) := by
  rw [takeTrap_eq]
  exact hartAt_setHart_ne _ _ _ (trapTo_ne _ _ _ _ _)

/-- What a trap's CSR writes leave of a hart: its destination, its qualifiers and line addresses. -/
def hwErrs (x : Hart) : List Byte × (W64 × W64) × (W64 × W64) × (W64 × W64) :=
  (x.result, (x.mHwErr, x.mHwAddr), (x.hsHwErr, x.hsHwAddr), (x.vsHwErr, x.vsHwAddr))

theorem setCsr_hwErrs (x : Hart) (n v : Nat) : hwErrs (setCsr x n v) = hwErrs x := rfl

theorem stackStatus_m (x : Hart) : ∃ v, stackStatus x .m = setCsr x 0x300 v := ⟨_, rfl⟩
theorem stackStatus_hs (x : Hart) : ∃ v w, stackStatus x .hs = setCsr (setCsr x 0x300 v) 0x600 w := ⟨_, _, rfl⟩
theorem stackStatus_vs (x : Hart) : ∃ v, stackStatus x .vs = setCsr x 0x200 v := ⟨_, rfl⟩

theorem stackStatus_hwErrs (x : Hart) (md : TrapMode) : hwErrs (stackStatus x md) = hwErrs x := by
  cases md with
  | m => obtain ⟨v, e⟩ := stackStatus_m x; rw [e, setCsr_hwErrs]
  | hs => obtain ⟨v, w, e⟩ := stackStatus_hs x; rw [e, setCsr_hwErrs, setCsr_hwErrs]
  | vs => obtain ⟨v, e⟩ := stackStatus_vs x; rw [e, setCsr_hwErrs]

theorem saved_hwErrs (x : Hart) (md : TrapMode) (c v : Nat) : hwErrs (saved x md c v) = hwErrs x := by
  unfold saved
  rw [setCsr_hwErrs, setCsr_hwErrs, setCsr_hwErrs, stackStatus_hwErrs]

theorem trapTo_hwErrs (z : Hart) (t : Trap) (m p : Nat) (v : Bool) : hwErrs (trapTo z t m v p) = hwErrs z := rfl

theorem trapTo_result (z : Hart) (t : Trap) (m p : Nat) (v : Bool) : (trapTo z t m v p).result = z.result := rfl

theorem saved_result (x : Hart) (md : TrapMode) (c v : Nat) : (saved x md c v).result = x.result := congrArg Prod.fst (saved_hwErrs x md c v)

theorem csrOf_trapTo (z : Hart) (t : Trap) (m p k : Nat) (v : Bool) : csrOf (trapTo z t m v p) k = csrOf z k := rfl

theorem trapTo_fields (z : Hart) (t : Trap) (m p : Nat) (v : Bool) :
    (trapTo z t m v p).trap = some t ∧ (trapTo z t m v p).mode = m ∧ (trapTo z t m v p).virt = v ∧ (trapTo z t m v p).pc = p :=
  ⟨rfl, rfl, rfl, rfl⟩

/-- VALID is set, so a qualifier of encodings in range is not zero (Table 6.6). -/
theorem qualifier_ne_zero {old : W64} {acc src c : Nat} (ha : acc < 4) (hs : src < 16) (hc : c < 256) : qualifier old acc src c ≠ 0 := by
  intro e
  have hf : flag (bitOf old.toNat 63) ≤ 1 := by unfold flag; split <;> omega
  have e' := congrArg BitVec.toNat e
  simp only [qualifier, w64, BitVec.toNat_ofNat, BitVec.ofNat_eq_ofNat] at e'
  omega

/-- The qualifier and the line address of M-mode written. -/
def markM (x : Hart) (q l : W64) : Hart := { x with mHwErr := q, mHwAddr := l }

/-- The qualifier and the line address of HS-mode written. -/
def markHs (x : Hart) (q l : W64) : Hart := { x with hsHwErr := q, hsHwAddr := l }

/-- The qualifier and the line address of VS-mode written. -/
def markVs (x : Hart) (q l : W64) : Hart := { x with vsHwErr := q, vsHwAddr := l }

/-- The line address that VS-mode reads: the guest's, where it is given. -/
def guestLine (a : HartAccess) (ca : Nat) : W64 :=
  match a.gpa with
  | some g => w64 ((if g = 0 then 0 else g + (ca - a.ca)) / 64 * 64)
  | none => w64 (ca % 2 ^ 56 / 64 * 64)

/-- A hart with the qualifier and line address of the mode that takes its access fault. -/
def qualified (x : Hart) (a : HartAccess) (xcause acc cause source ca : Nat) : Hart :=
  match trapMode x xcause with
  | .m => markM x (qualifier x.mHwErr acc source cause) (w64 (ca % 2 ^ 56 / 64 * 64))
  | .hs => markHs x (qualifier x.hsHwErr acc source cause) (w64 (ca % 2 ^ 56 / 64 * 64))
  | .vs => markVs x (qualifier x.vsHwErr acc source cause) (guestLine a ca)

theorem accessFault_eq (h : Hw) (a : HartAccess) (xc acc c src ca : Nat) :
    accessFault h a xc acc c src ca =
      takeTrap (setHart h a.hart (qualified (hartAt h a.hart) a xc (if a.implicit then 3 else acc) c src ca)) a.hart xc a.va := rfl

/-- What a trap is decided by, and the destination of the access. -/
def trapView (x : Hart) : Tab Nat × Nat × Nat × Bool × Bool × List Byte := (x.csrs, x.pc, x.mode, x.virt, x.nmie, x.result)

theorem markM_trapView (x : Hart) (q l : W64) : trapView (markM x q l) = trapView x := rfl
theorem markHs_trapView (x : Hart) (q l : W64) : trapView (markHs x q l) = trapView x := rfl
theorem markVs_trapView (x : Hart) (q l : W64) : trapView (markVs x q l) = trapView x := rfl

/-- The qualifier and the line address are apart from what a trap saves. -/
theorem qualified_keeps (x : Hart) (a : HartAccess) (xc acc c src ca : Nat) :
    (qualified x a xc acc c src ca).csrs = x.csrs ∧ (qualified x a xc acc c src ca).pc = x.pc ∧
    (qualified x a xc acc c src ca).mode = x.mode ∧ (qualified x a xc acc c src ca).virt = x.virt ∧
    (qualified x a xc acc c src ca).nmie = x.nmie ∧ (qualified x a xc acc c src ca).result = x.result := by
  have e : trapView (qualified x a xc acc c src ca) = trapView x := by
    unfold qualified
    cases trapMode x xc with
    | m => exact markM_trapView _ _ _
    | hs => exact markHs_trapView _ _ _
    | vs => exact markVs_trapView _ _ _
  simpa only [trapView, Prod.mk.injEq] using e

theorem qualified_trapMode (x : Hart) (a : HartAccess) (xc acc c src ca k : Nat) :
    trapMode (qualified x a xc acc c src ca) k = trapMode x k := by
  obtain ⟨hc, -, hm, hv, -, -⟩ := qualified_keeps x a xc acc c src ca
  unfold trapMode csrOf
  rw [hc, hm, hv]

theorem markM_ne (x : Hart) {q : W64} (l : W64) (hq : q ≠ 0) : markM x q l ≠ {} := fun e => hq (congrArg Hart.mHwErr e)
theorem markHs_ne (x : Hart) {q : W64} (l : W64) (hq : q ≠ 0) : markHs x q l ≠ {} := fun e => hq (congrArg Hart.hsHwErr e)
theorem markVs_ne (x : Hart) {q : W64} (l : W64) (hq : q ≠ 0) : markVs x q l ≠ {} := fun e => hq (congrArg Hart.vsHwErr e)

theorem qualified_ne (x : Hart) (a : HartAccess) {xc acc c src ca : Nat} (ha : acc < 4) (hs : src < 16) (hc : c < 256) :
    qualified x a xc acc c src ca ≠ {} := by
  unfold qualified
  cases trapMode x xc with
  | m => exact markM_ne _ _ (qualifier_ne_zero ha hs hc)
  | hs => exact markHs_ne _ _ (qualifier_ne_zero ha hs hc)
  | vs => exact markVs_ne _ _ (qualifier_ne_zero ha hs hc)

theorem hartAt_setHart_qualified (h : Hw) (a : HartAccess) {xc acc c src ca : Nat} (ha : acc < 4) (hs : src < 16) (hc : c < 256) :
    hartAt (setHart h a.hart (qualified (hartAt h a.hart) a xc acc c src ca)) a.hart = qualified (hartAt h a.hart) a xc acc c src ca :=
  hartAt_setHart_ne _ _ _ (qualified_ne _ _ ha hs hc)

theorem accessOf_lt (a : HartAccess) {acc : Nat} (ha : acc < 4) : (if a.implicit then 3 else acc) < 4 := by split <;> omega

/-- An access fault leaves the destination as it was and saves the cause, the address and the pc (R199, R209). -/
theorem accessFault_precise (h : Hw) (a : HartAccess) {xc acc c src ca : Nat} (ha : acc < 4) (hs : src < 16) (hc : c < 256) :
    (hartAt (accessFault h a xc acc c src ca) a.hart).result = (hartAt h a.hart).result ∧
    (hartAt (accessFault h a xc acc c src ca) a.hart).trap =
      some { cause := xc, tval := a.va, mode := trapMode (hartAt h a.hart) xc, epc := (hartAt h a.hart).pc } := by
  rw [accessFault_eq, takeTrap_hart, hartAt_setHart_qualified h a (accessOf_lt a ha) hs hc, qualified_trapMode]
  obtain ⟨-, hp, -, -, -, hr⟩ := qualified_keeps (hartAt h a.hart) a xc (if a.implicit then 3 else acc) c src ca
  rw [hp, (trapTo_fields _ _ _ _ _).1]
  refine ⟨?_, rfl⟩
  rw [trapTo_result, saved_result, hr]

/-! ### The CSRs that a trap writes -/

theorem csrOf_setCsr_same {x : Hart} (hw : tabWf 0 x.csrs = true) (n v : Nat) : csrOf (setCsr x n v) n = v % 2 ^ 64 := tabGet_put_same _ _ _ hw

theorem csrOf_setCsr_other (x : Hart) {n m : Nat} (v : Nat) (hm : m ≠ n) : csrOf (setCsr x n v) m = csrOf x m := tabGet_put_other _ _ _ hm

theorem setCsr_wf {x : Hart} (hw : tabWf 0 x.csrs = true) (n v : Nat) : tabWf 0 (setCsr x n v).csrs = true := tabPut_wf _ _ hw

theorem stackStatus_wf {x : Hart} (hw : tabWf 0 x.csrs = true) (md : TrapMode) : tabWf 0 (stackStatus x md).csrs = true := by
  cases md with
  | m => obtain ⟨v, e⟩ := stackStatus_m x; rw [e]; exact setCsr_wf hw _ _
  | hs => obtain ⟨v, w, e⟩ := stackStatus_hs x; rw [e]; exact setCsr_wf (setCsr_wf hw _ _) _ _
  | vs => obtain ⟨v, e⟩ := stackStatus_vs x; rw [e]; exact setCsr_wf hw _ _

/-- Three CSRs written one after another hold what was written. -/
theorem csrOf_setCsr_thrice {x : Hart} (hw : tabWf 0 x.csrs = true) (b u v w : Nat) :
    csrOf (setCsr (setCsr (setCsr x (b + 0x41) u) (b + 0x42) v) (b + 0x43) w) (b + 0x41) = u % 2 ^ 64 ∧
    csrOf (setCsr (setCsr (setCsr x (b + 0x41) u) (b + 0x42) v) (b + 0x43) w) (b + 0x42) = v % 2 ^ 64 ∧
    csrOf (setCsr (setCsr (setCsr x (b + 0x41) u) (b + 0x42) v) (b + 0x43) w) (b + 0x43) = w % 2 ^ 64 := by
  refine ⟨?_, ?_, csrOf_setCsr_same (setCsr_wf (setCsr_wf hw _ _) _ _) _ _⟩
  · rw [csrOf_setCsr_other _ _ (by omega), csrOf_setCsr_other _ _ (by omega), csrOf_setCsr_same hw]
  · rw [csrOf_setCsr_other _ _ (by omega), csrOf_setCsr_same (setCsr_wf hw _ _)]

/-- The hart after an access fault, field by field. -/
theorem accessFault_fields (h : Hw) (a : HartAccess) {xc acc c src ca : Nat} {x q : Hart} (hx : x = hartAt h a.hart)
    (hq : q = qualified x a xc (if a.implicit then 3 else acc) c src ca) (hw : tabWf 0 x.csrs = true) (ha : acc < 4) (hs : src < 16)
    (hc : c < 256) {y : Hart} (hy : y = hartAt (accessFault h a xc acc c src ca) a.hart) :
    (csrOf y (trapBase (trapMode x xc) + 0x41) = x.pc % 2 ^ 64 ∧ csrOf y (trapBase (trapMode x xc) + 0x42) = xc % 2 ^ 64 ∧
      csrOf y (trapBase (trapMode x xc) + 0x43) = a.va % 2 ^ 64) ∧
    hwErrs y = hwErrs q ∧ y.mode = handlerMode (trapMode x xc) ∧ y.virt = decide (trapMode x xc = .vs) ∧
    y.pc = handlerPc h a.hart x (trapMode x xc) := by
  obtain ⟨kc, kp, km, -, kn, -⟩ := qualified_keeps x a xc (if a.implicit then 3 else acc) c src ca
  rw [← hq] at kc kp km kn
  have e : hartAt (setHart h a.hart q) a.hart = q := by
    rw [hq, hx]
    exact hartAt_setHart_qualified h a (accessOf_lt a ha) hs hc
  have et : trapMode q xc = trapMode x xc := by rw [hq, qualified_trapMode]
  rw [accessFault_eq, ← hx, ← hq, takeTrap_hart, e, et] at hy
  have hpc : handlerPc (setHart h a.hart q) a.hart q (trapMode x xc) = handlerPc h a.hart x (trapMode x xc) := by
    unfold handlerPc csrOf
    rw [kn, km, kc]
    rfl
  have hcsr : ∀ k, csrOf y k = csrOf (saved q (trapMode x xc) xc a.va) k := fun k => by rw [hy, csrOf_trapTo]
  obtain ⟨e1, e2, e3⟩ := csrOf_setCsr_thrice (stackStatus_wf (kc ▸ hw) (trapMode x xc)) (trapBase (trapMode x xc)) q.pc xc a.va
  obtain ⟨-, f1, f2, f3⟩ := trapTo_fields (saved q (trapMode x xc) xc a.va)
    { cause := xc, tval := a.va, mode := trapMode x xc, epc := q.pc } (handlerMode (trapMode x xc))
    (handlerPc (setHart h a.hart q) a.hart q (trapMode x xc)) (decide (trapMode x xc = .vs))
  rw [← hy] at f1 f2 f3
  refine ⟨⟨?_, ?_, ?_⟩, ?_, f1, f2, f3.trans hpc⟩
  · rw [hcsr, saved, e1, kp]
  · rw [hcsr, saved, e2]
  · rw [hcsr, saved, e3]
  · rw [hy, trapTo_hwErrs, saved_hwErrs]

/-- M-mode takes the trap: its own qualifier and line address, its mode and its handler. -/
theorem accessFault_m (h : Hw) (a : HartAccess) {xc acc c src ca : Nat} {x y : Hart} (hx : x = hartAt h a.hart) (hw : tabWf 0 x.csrs = true)
    (ha : acc < 4) (hs : src < 16) (hc : c < 256) (hi : a.implicit = false) (hy : y = hartAt (accessFault h a xc acc c src ca) a.hart)
    (hm : trapMode x xc = .m) :
    y.mHwErr = qualifier x.mHwErr acc src c ∧ y.mHwAddr = w64 (ca % 2 ^ 56 / 64 * 64) ∧ y.mode = 3 ∧ y.virt = false ∧
      y.hsHwErr = x.hsHwErr ∧ y.vsHwErr = x.vsHwErr ∧
      y.pc = (if !x.nmie && decide (x.mode = 3) then (partAt h (hartOwner h a.hart)).rnmiExc else csrOf x 0x305 / 4 * 4) := by
  obtain ⟨-, he, hmode, hv, hp⟩ := accessFault_fields h a hx rfl hw ha hs hc hy
  rw [hm] at hmode hv hp
  simp only [hwErrs, qualified, markM, hm, hi, Bool.false_eq_true, if_false, Prod.mk.injEq] at he
  obtain ⟨-, ⟨e1, e2⟩, ⟨e3, -⟩, e4, -⟩ := he
  exact ⟨e1, e2, hmode, hv, e3, e4, hp⟩

/-- A trap that M-mode does not take is not raised in M-mode. -/
theorem trapMode_below {x : Hart} {xc : Nat} (hm : trapMode x xc ≠ .m) : x.mode ≠ 3 := by
  intro h3
  exact hm (by simp [trapMode, h3])

/-- HS-mode takes the trap. -/
theorem accessFault_hs (h : Hw) (a : HartAccess) {xc acc c src ca : Nat} {x y : Hart} (hx : x = hartAt h a.hart) (hw : tabWf 0 x.csrs = true)
    (ha : acc < 4) (hs : src < 16) (hc : c < 256) (hi : a.implicit = false) (hy : y = hartAt (accessFault h a xc acc c src ca) a.hart)
    (hm : trapMode x xc = .hs) :
    y.hsHwErr = qualifier x.hsHwErr acc src c ∧ y.hsHwAddr = w64 (ca % 2 ^ 56 / 64 * 64) ∧ y.mode = 1 ∧
      y.virt = false ∧ y.mHwErr = x.mHwErr ∧ y.vsHwErr = x.vsHwErr ∧ y.pc = csrOf x 0x105 / 4 * 4 := by
  obtain ⟨-, he, hmode, hv, hp⟩ := accessFault_fields h a hx rfl hw ha hs hc hy
  have h3 : x.mode ≠ 3 := trapMode_below (by rw [hm]; decide)
  rw [hm] at hmode hv hp
  simp only [hwErrs, qualified, markHs, hm, hi, Bool.false_eq_true, if_false, Prod.mk.injEq] at he
  obtain ⟨-, ⟨e1, -⟩, ⟨e2, e3⟩, e4, -⟩ := he
  exact ⟨e2, e3, hmode, hv, e1, e4, hp.trans (by simp [h3, handlerPc, trapBase])⟩

/-- VS-mode takes the trap of an access that no guest-physical address is given for. -/
theorem accessFault_vs (h : Hw) (a : HartAccess) {xc acc c src ca : Nat} {x y : Hart} (hx : x = hartAt h a.hart) (hw : tabWf 0 x.csrs = true)
    (ha : acc < 4) (hs : src < 16) (hc : c < 256) (hi : a.implicit = false) (hy : y = hartAt (accessFault h a xc acc c src ca) a.hart)
    (hm : trapMode x xc = .vs) (hg : a.gpa = none) :
    y.vsHwErr = qualifier x.vsHwErr acc src c ∧ y.vsHwAddr = w64 (ca % 2 ^ 56 / 64 * 64) ∧
      y.mode = 1 ∧ y.virt = true ∧ y.mHwErr = x.mHwErr ∧ y.hsHwErr = x.hsHwErr ∧ y.pc = csrOf x 0x205 / 4 * 4 := by
  obtain ⟨-, he, hmode, hv, hp⟩ := accessFault_fields h a hx rfl hw ha hs hc hy
  have h3 : x.mode ≠ 3 := trapMode_below (by rw [hm]; decide)
  rw [hm] at hmode hv hp
  simp only [hwErrs, qualified, markVs, guestLine, hm, hi, hg, Bool.false_eq_true, if_false, Prod.mk.injEq] at he
  obtain ⟨-, ⟨e1, -⟩, ⟨e2, -⟩, e3, e4⟩ := he
  exact ⟨e3, e4, hmode, hv, e1, e2, hp.trans (by simp [h3, handlerPc, trapBase])⟩

end Sys2Proof.Machine
end

section
namespace Sys2Proof.Machine

/-! ### What an access meets (Table 3.4, R209) -/

/-- The condition that one piece of an access meets. -/
def pieceMeets (h : Hw) (a : HartAccess) (o : HartOp) (writes reads : Bool) (x : Nat) : Option (Nat × Nat × Nat) :=
  if !pmpOk h a o writes reads (a.ca - compactLocal a.ca % 2 ^ 44 + x % 2 ^ 44) || !pmaOk o (regionOf x) (compactLocal a.ca) a.size then
    some (7, 0, a.ca - compactLocal a.ca % 2 ^ 44 + x % 2 ^ 44)
  else (if isLocal h a.ca then meetsLocal h (hartOwner h a.hart) a x writes reads
    else meetsRemote h (hartOwner h a.hart) (a.ca - compactLocal a.ca % 2 ^ 44 + x % 2 ^ 44) reads).map
      (fun c => (c.1, c.2, a.ca - compactLocal a.ca % 2 ^ 44 + x % 2 ^ 44))

/-- What an access meets after the requester's own check: the conditions of its pieces in the order of Table 3.4. -/
def firstMet (l : List (Nat × Nat × Nat)) : Option (Nat × Nat × Nat) :=
  [7, 3, 5, 6, 4, 1, 2].findSome? (fun c => l.find? (fun f => decide (f.1 = c)))

theorem meets_eq (h : Hw) (a : HartAccess) (o : HartOp) (w rd : Bool) :
    meets h a o w rd = if decide (hartOwner h a.hart > 16) || unitFenced h 2 (a.hart / 8) then some (3, 0, a.ca)
      else firstMet ((blocks (compactLocal a.ca) a.size).filterMap (pieceMeets h a o w rd)) := rfl

/-- Requester ownership comes first. -/
theorem meets_requester {h : Hw} {a : HartAccess} (hr : hartOwner h a.hart > 16 ∨ unitFenced h 2 (a.hart / 8) = true) (o : HartOp)
    (w rd : Bool) : meets h a o w rd = some (3, 0, a.ca) := by
  rw [meets_eq, if_pos (by simpa using hr)]

theorem meets_pieces {h : Hw} {a : HartAccess} (ho : hartOwner h a.hart ≤ 16) (hf : unitFenced h 2 (a.hart / 8) = false) (o : HartOp)
    (w rd : Bool) : meets h a o w rd = firstMet ((blocks (compactLocal a.ca) a.size).filterMap (pieceMeets h a o w rd)) := by
  rw [meets_eq, if_neg (by simp [hf, ho])]

/-- A first piece that PMP or Table 6.3 forbids decides. -/
theorem firstMet_seven (s ca : Nat) (l : List (Nat × Nat × Nat)) : firstMet ((7, s, ca) :: l) = some (7, s, ca) := by
  simp [firstMet]

/-- Where no piece is forbidden by PMP or Table 6.3, the first of another partition decides. -/
theorem firstMet_three {l : List (Nat × Nat × Nat)} {e : Nat × Nat × Nat} (h7 : ∀ f ∈ l, f.1 ≠ 7)
    (h3 : l.find? (fun f => decide (f.1 = 3)) = some e) : firstMet l = some e := by
  have e7 : l.find? (fun f => decide (f.1 = 7)) = none := List.find?_eq_none.2 fun f hf => by simpa using h7 f hf
  simp [firstMet, e7, h3]

/-- What decides is one of the conditions found. -/
theorem firstMet_mem {l : List (Nat × Nat × Nat)} {e : Nat × Nat × Nat} (he : firstMet l = some e) : e ∈ l := by
  obtain ⟨c, -, hc⟩ := List.exists_of_findSome?_eq_some he
  exact List.mem_of_find?_eq_some hc

theorem compactLocal_offset (c : Nat) : compactLocal c % 2 ^ 44 = c % 2 ^ 44 := by
  unfold compactLocal field
  omega

theorem compact_rebase (c : Nat) : c - compactLocal c % 2 ^ 44 + compactLocal c % 2 ^ 44 = c := by
  rw [compactLocal_offset]
  omega

theorem blocks_cons {n : Nat} (l : Nat) (hn : 0 < n) : ∃ t, blocks l n = l :: t := by
  unfold blocks
  rw [if_neg (by omega)]
  exact ⟨_, rfl⟩

/-- The first piece forbidden by PMP or Table 6.3: the access meets PROT_MISMATCH at its first byte. -/
theorem meets_forbidden {h : Hw} {a : HartAccess} (hn : 0 < a.size) (ho : hartOwner h a.hart ≤ 16)
    (hf : unitFenced h 2 (a.hart / 8) = false) {o : HartOp} {w rd : Bool}
    (hp : pmpOk h a o w rd a.ca = false ∨ pmaOk o (regionOf (compactLocal a.ca)) (compactLocal a.ca) a.size = false) :
    meets h a o w rd = some (7, 0, a.ca) := by
  obtain ⟨t, ht⟩ := blocks_cons (compactLocal a.ca) hn
  have e : pieceMeets h a o w rd (compactLocal a.ca) = some (7, 0, a.ca) := by
    unfold pieceMeets
    rw [compact_rebase, if_pos (by simpa using hp)]
  rw [meets_pieces ho hf, ht, List.filterMap_cons_some e, firstMet_seven]

/-- A local piece that the partition may not access is the only one that meets cause 3, and none meets cause 7. -/
theorem meetsLocal_three {h : Hw} {p : Nat} {a : HartAccess} {x : Nat} {w rd : Bool} :
    (selPiece h p x w = false → meetsLocal h p a x w rd = some (3, 0)) ∧
    (selPiece h p x w = true → ∀ c, meetsLocal h p a x w rd = some c → c.1 ≠ 3 ∧ c.1 ≠ 7) := by
  constructor
  · intro hs
    simp [meetsLocal, hs]
  · intro hs c hc
    unfold meetsLocal at hc
    rw [if_neg (by simp [hs])] at hc
    split_ifs at hc <;> cases hc <;> exact ⟨by simp, by simp⟩

/-- Then the selvedge: the first piece of another partition (Table 3.4). -/
theorem meets_refused {h : Hw} {a : HartAccess} {o : HartOp} {w rd : Bool} {x : Nat} (hl : isLocal h a.ca = true)
    (ho : hartOwner h a.hart ≤ 16) (hf : unitFenced h 2 (a.hart / 8) = false)
    (hp : ∀ y, y ∈ blocks (compactLocal a.ca) a.size →
      pmpOk h a o w rd (a.ca - compactLocal a.ca % 2 ^ 44 + y % 2 ^ 44) = true ∧
        pmaOk o (regionOf y) (compactLocal a.ca) a.size = true)
    (hx : (blocks (compactLocal a.ca) a.size).find? (fun x => !selPiece h (hartOwner h a.hart) x w) = some x) :
    meets h a o w rd = some (3, 0, a.ca - compactLocal a.ca % 2 ^ 44 + x % 2 ^ 44) := by
  rw [meets_pieces ho hf]
  have hpiece : ∀ y ∈ blocks (compactLocal a.ca) a.size, pieceMeets h a o w rd y =
      (meetsLocal h (hartOwner h a.hart) a y w rd).map (fun c => (c.1, c.2, a.ca - compactLocal a.ca % 2 ^ 44 + y % 2 ^ 44)) := by
    intro y hy
    obtain ⟨h1, h2⟩ := hp y hy
    unfold pieceMeets
    rw [h1, h2, if_neg (by decide), if_pos hl]
  generalize blocks (compactLocal a.ca) a.size = bl at hx hpiece
  clear hp
  apply firstMet_three
  · intro f hm
    obtain ⟨y, hy, he⟩ := List.mem_filterMap.1 hm
    rw [hpiece y hy] at he
    obtain ⟨c, hc, rfl⟩ := Option.map_eq_some_iff.1 he
    cases hs : selPiece h (hartOwner h a.hart) y w with
    | false =>
      rw [meetsLocal_three.1 hs] at hc
      cases hc
      simp
    | true => exact (meetsLocal_three.2 hs c hc).2
  · induction bl with
    | nil => simp at hx
    | cons y t ih =>
      have hy := hpiece y (List.mem_cons_self ..)
      have ht := fun z hz => hpiece z (List.mem_cons_of_mem _ hz)
      cases hs : selPiece h (hartOwner h a.hart) y w with
      | false =>
        rw [meetsLocal_three.1 hs] at hy
        rw [List.find?_cons_of_pos (by simp [hs])] at hx
        cases hx
        rw [List.filterMap_cons_some hy, List.find?_cons_of_pos (by simp)]
      | true =>
        rw [List.find?_cons_of_neg (by simp [hs])] at hx
        cases hm : meetsLocal h (hartOwner h a.hart) a y w rd with
        | none =>
          rw [hm] at hy
          rw [List.filterMap_cons_none hy]
          exact ih hx ht
        | some c =>
          rw [hm] at hy
          rw [List.filterMap_cons_some hy, List.find?_cons_of_neg (by simpa using (meetsLocal_three.2 hs c hm).1)]
          exact ih hx ht

/-! ### The encodings of a condition (Tables 6.6 to 6.8) -/

theorem sourceOf_lt (l : Nat) : sourceOf l < 16 := by
  unfold sourceOf
  split <;> omega

theorem storageSource_lt (x : Storage) : x.source < 16 := by cases x <;> decide

theorem meetsLocal_lt {h : Hw} {p : Nat} {a : HartAccess} {x : Nat} {w rd : Bool} {c : Nat × Nat} (hc : meetsLocal h p a x w rd = some c) :
    c.1 < 256 ∧ c.2 < 16 := by
  unfold meetsLocal at hc
  split_ifs at hc <;> cases hc <;> refine ⟨by simp, ?_⟩
  case pos => simp
  case pos => simp
  case pos => exact storageSource_lt _
  case pos => simp
  case pos => exact sourceOf_lt _

theorem meetsRemote_lt {h : Hw} {p ca : Nat} {rd : Bool} {c : Nat × Nat} (hc : meetsRemote h p ca rd = some c) : c.1 < 256 ∧ c.2 < 16 := by
  unfold meetsRemote at hc
  dsimp only at hc
  split at hc
  · cases hc; simp
  split at hc
  · cases hc; simp
  split at hc
  · cases hc; simp
  split at hc
  · split at hc <;> cases hc
    simp
  split at hc
  · cases hc; simp
  split at hc
  · cases hc; simp
  · split at hc <;> cases hc
    simp
  · cases hc

/-- A condition that an access meets has encodings of Tables 6.6 to 6.8. -/
theorem meets_lt {h : Hw} {a : HartAccess} {o : HartOp} {w rd : Bool} {e : Nat × Nat × Nat} (he : meets h a o w rd = some e) :
    e.1 < 256 ∧ e.2.1 < 16 := by
  rw [meets_eq] at he
  split at he
  · cases he; simp
  · obtain ⟨x, -, hx⟩ := List.mem_filterMap.1 (firstMet_mem he)
    unfold pieceMeets at hx
    split at hx
    · cases hx; simp
    · obtain ⟨c, hc, rfl⟩ := Option.map_eq_some_iff.1 hx
      split at hc
      · exact meetsLocal_lt hc
      · exact meetsRemote_lt hc

/-! ### What a condition leaves beside its fault -/

theorem countRefusal_harts (h : Hw) (p : Nat) : (countRefusal h p).harts = h.harts := by
  unfold countRefusal
  exact (apply_ite Hw.harts _ _ _).trans (ite_self _)

theorem markPoison_harts (h : Hw) (l : Nat) : (markPoison h l).harts = h.harts := by
  simp only [markPoison, apply_ite Hw.harts, ite_self]

theorem addCandidate_harts (h : Hw) (c : Candidate) : (addCandidate h c).harts = h.harts := by
  unfold addCandidate
  dsimp only
  split
  · rfl
  split
  · rfl
  · split <;> rfl

theorem devError_harts (h : Hw) (l k : Nat) : (devError h l k).harts = h.harts := by
  unfold devError devErrorBy
  dsimp only
  rw [recordWrite_harts]
  split <;> rfl

/-- A condition's fault is the access fault on harts that what it leaves beside has not touched. -/
theorem hartFault_fault (h : Hw) (a : HartAccess) (o : HartOp) (e : Nat × Nat × Nat) :
    ∃ g : Hw, g.harts = h.harts ∧ hartFault h a o e = accessFault g a (opFault o) (opAccess o) e.1 e.2.1 e.2.2 := by
  unfold hartFault
  refine ⟨_, ?_, rfl⟩
  split
  · exact countRefusal_harts _ _
  split
  · split
    · split
      · exact (addCandidate_harts _ _).trans (markPoison_harts _ _)
      · exact markPoison_harts _ _
    · exact markPoison_harts _ _
  split
  · exact devError_harts _ _ _
  · rfl

/-- A load that meets a condition is precise: its destination stays, and the trap names its address and its pc. -/
theorem hartFault_load {h : Hw} {a : HartAccess} {e : Nat × Nat × Nat} {w rd : Bool} (he : meets h a .load w rd = some e) :
    (hartAt (hartFault h a .load e) a.hart).result = (hartAt h a.hart).result ∧
    (hartAt (hartFault h a .load e) a.hart).trap =
      some { cause := 5, tval := a.va, mode := trapMode (hartAt h a.hart) 5, epc := (hartAt h a.hart).pc } := by
  obtain ⟨h1, h2⟩ := meets_lt he
  obtain ⟨g, hg, e'⟩ := hartFault_fault h a .load e
  have hx : hartAt g a.hart = hartAt h a.hart := by rw [hartAt, hg, ← hartAt]
  rw [e', ← hx]
  exact accessFault_precise g a (by decide) h2 h1

end Sys2Proof.Machine
end

section
namespace Sys2Proof.Machine

/-! ### The forms of a load -/

section
variable {hm o : HM} {a : HartAccess}

/-- A load of a running hart that meets a condition. -/
theorem hartLoad_meets {e : Nat × Nat × Nat} (run : runs hm.1 a.hart = true) (hc : a.cbo = .none) (ho : o = beforeAccess hm a)
    (he : meets o.1 a .load false true = some e) : hartLoad hm a = (hartFault o.1 a .load e, o.2) := by
  unfold hartLoad
  rw [if_neg (by simp [run]), if_neg (by simp [hc]), ← ho]
  dsimp only
  rw [he]

/-- What a load that meets no condition does: through an uncached page, at another package, in register space, in other I/O space, or in
the coherent space. -/
def loadPasses (o : HM) (a : HartAccess) : HM :=
  if decide (a.pbmt ≠ .pma) && !inIo (compactLocal a.ca) then
    (setResult (readUncached (arrayAnswers o.1 a, o.2) a.hart a.ca a.size).2 a.hart
      (readUncached (arrayAnswers o.1 a, o.2) a.hart a.ca a.size).1, o.2)
  else if !isLocal (arrayAnswers o.1 a) a.ca then
    (setResult (readAfar (arrayAnswers o.1 a) a.hart a.ca a.size).2 a.hart (readAfar (arrayAnswers o.1 a) a.hart a.ca a.size).1, o.2)
  else if regionOf (compactLocal a.ca) = 3 then
    if offsetOf (compactLocal a.ca) % 2 ^ 24 = 0x6008 ∧ offsetOf (compactLocal a.ca) < stewardBase ∧
        !invalidated (arrayAnswers o.1 a) (offsetOf (compactLocal a.ca) / 2 ^ 24) then o
    else match region3Read (arrayAnswers o.1 a) (offsetOf (compactLocal a.ca)) a.size with
      | some v => (setResult (arrayAnswers o.1 a) a.hart (leBytes a.size v), o.2)
      | none => (accessFault (arrayAnswers o.1 a) a 5 1 2 0xC a.ca, o.2)
  else if inIo (compactLocal a.ca) then
    (setResult (takeRemote (retryStall (arrayAnswers o.1 a) (compactLocal a.ca)) a.ca a.size).2 a.hart
      (takeRemote (retryStall (arrayAnswers o.1 a) (compactLocal a.ca)) a.ca a.size).1, o.2)
  else loadCached o a (compactLocal a.ca)
where
  loadCached (o : HM) (a : HartAccess) (l : Nat) : HM :=
    let g := arrayAnswers o.1 a
    let k := a.ahead.foldl (fun k x => prefetch k a.hart l x)
      ((linesOf l a.size).foldl (fun k x => touchCore k a.hart x false false a.ca) (addTraffic (retryStall g l) (hartOwner g a.hart) a.size))
    match (linesOf l a.size).find? (fun x => poisoned k (x * 64)) with
    | some x => (hartFault k a .load (2, sourceOf l, a.ca - l % 2 ^ 44 + max l (x * 64) % 2 ^ 44), o.2)
    | none => (setResult k a.hart (loadBytes (k, o.2) a.hart a.ca a.size), o.2)

theorem hartLoad_passes (run : runs hm.1 a.hart = true) (hc : a.cbo = .none) (ho : o = beforeAccess hm a)
    (he : meets o.1 a .load false true = none) : hartLoad hm a = loadPasses o a := by
  unfold hartLoad
  rw [if_neg (by simp [run]), if_neg (by simp [hc]), ← ho]
  dsimp only
  rw [he] <;> rfl

theorem loadPasses_uncached (hp : a.pbmt ≠ .pma) (hio : inIo (compactLocal a.ca) = false) :
    loadPasses o a = (setResult (readUncached (arrayAnswers o.1 a, o.2) a.hart a.ca a.size).2 a.hart
      (readUncached (arrayAnswers o.1 a, o.2) a.hart a.ca a.size).1, o.2) :=
  if_pos (by simp [hp, hio])

/-- A load that is not through an uncached page. -/
theorem loadPasses_direct (hp : a.pbmt = .pma ∨ inIo (compactLocal a.ca) = true) :
    ¬ (decide (a.pbmt ≠ .pma) && !inIo (compactLocal a.ca)) = true := by
  rcases hp with hp | hp <;> simp [hp]

theorem loadPasses_afar (hp : a.pbmt = .pma ∨ inIo (compactLocal a.ca) = true) (hl : isLocal (arrayAnswers o.1 a) a.ca = false) :
    loadPasses o a = (setResult (readAfar (arrayAnswers o.1 a) a.hart a.ca a.size).2 a.hart
      (readAfar (arrayAnswers o.1 a) a.hart a.ca a.size).1, o.2) := by
  unfold loadPasses
  rw [if_neg (loadPasses_direct hp), hl]
  exact if_pos rfl

theorem inIo_of_region {l : Nat} (h : regionOf l ∈ [3, 4, 5]) : inIo l = true := decide_eq_true h

section
variable (hl : isLocal (arrayAnswers o.1 a) a.ca = true)
include hl

theorem loadPasses_register (h3 : regionOf (compactLocal a.ca) = 3) : loadPasses o a =
    if offsetOf (compactLocal a.ca) % 2 ^ 24 = 0x6008 ∧ offsetOf (compactLocal a.ca) < stewardBase ∧
        !invalidated (arrayAnswers o.1 a) (offsetOf (compactLocal a.ca) / 2 ^ 24) then o
    else match region3Read (arrayAnswers o.1 a) (offsetOf (compactLocal a.ca)) a.size with
      | some v => (setResult (arrayAnswers o.1 a) a.hart (leBytes a.size v), o.2)
      | none => (accessFault (arrayAnswers o.1 a) a 5 1 2 0xC a.ca, o.2) := by
  unfold loadPasses
  rw [if_neg (loadPasses_direct (.inr (inIo_of_region (by simp [h3])))), if_neg (by simp [hl]), if_pos h3]

/-- A load of YF_XINV_SYNC while an invalidation of the window's partition is not complete returns nothing yet. -/
theorem loadPasses_sync (h3 : regionOf (compactLocal a.ca) = 3) (h6 : offsetOf (compactLocal a.ca) % 2 ^ 24 = 0x6008)
    (hs : offsetOf (compactLocal a.ca) < stewardBase)
    (hi : invalidated (arrayAnswers o.1 a) (offsetOf (compactLocal a.ca) / 2 ^ 24) = false) : loadPasses o a = o := by
  rw [loadPasses_register hl h3, if_pos ⟨h6, hs, by rw [hi]; rfl⟩]

theorem loadPasses_read (h3 : regionOf (compactLocal a.ca) = 3)
    (hn : offsetOf (compactLocal a.ca) % 2 ^ 24 ≠ 0x6008 ∨ stewardBase ≤ offsetOf (compactLocal a.ca) ∨
      invalidated (arrayAnswers o.1 a) (offsetOf (compactLocal a.ca) / 2 ^ 24) = true) : loadPasses o a =
    match region3Read (arrayAnswers o.1 a) (offsetOf (compactLocal a.ca)) a.size with
      | some v => (setResult (arrayAnswers o.1 a) a.hart (leBytes a.size v), o.2)
      | none => (accessFault (arrayAnswers o.1 a) a 5 1 2 0xC a.ca, o.2) := by
  rw [loadPasses_register hl h3, if_neg] <;> try rfl
  rintro ⟨h6, hs, hi⟩
  rcases hn with hn | hn | hn
  · exact hn h6
  · omega
  · rw [hn] at hi
    exact absurd hi (by decide)

theorem loadPasses_io (h4 : regionOf (compactLocal a.ca) ∈ [4, 5]) : loadPasses o a =
    (setResult (takeRemote (retryStall (arrayAnswers o.1 a) (compactLocal a.ca)) a.ca a.size).2 a.hart
      (takeRemote (retryStall (arrayAnswers o.1 a) (compactLocal a.ca)) a.ca a.size).1, o.2) := by
  have hio : inIo (compactLocal a.ca) = true := inIo_of_region (List.mem_cons_of_mem _ h4)
  have h3 : regionOf (compactLocal a.ca) ≠ 3 := by rcases List.mem_pair.1 h4 with e | e <;> omega
  unfold loadPasses
  rw [if_neg (loadPasses_direct (.inr hio)), if_neg (by simp [hl]), if_neg h3, if_pos hio]

theorem loadPasses_cached (hp : a.pbmt = .pma) (hio : inIo (compactLocal a.ca) = false) :
    loadPasses o a = loadPasses.loadCached o a (compactLocal a.ca) := by
  have h3 : regionOf (compactLocal a.ca) ≠ 3 := fun e => by simp [inIo, e] at hio
  unfold loadPasses
  rw [if_neg (loadPasses_direct (.inl hp)), if_neg (by simp [hl]), if_neg h3, if_neg (by simp [hio])]

end

/-! ### Cache-block instructions in I/O space (R194) -/

theorem cboGate_none {x : Hart} {c : CacheOp} (h : x.mode = 3 ∨ c ∈ [.prefetchR, .prefetchW, .prefetchI]) : cboGate x c false = none := by
  unfold cboGate
  rcases h with h | h
  · rw [if_pos h]
  · fin_cases h <;> simp [gated]

/-- A prefetch of a block in I/O space is ignored. -/
theorem hartBlock_ignored (hc : a.cbo ∈ [.prefetchR, .prefetchW, .prefetchI]) (hio : inIo (compactLocal a.ca) = true) :
    hartBlock hm a = hm := by
  have hg := cboGate_none (x := hartAt hm.1 a.hart) (.inr hc)
  unfold hartBlock
  dsimp only
  rw [hg]
  generalize a.cbo = c at hc
  fin_cases hc <;> exact if_pos (.inl hio)

/-- The region of a block is that of its bytes. -/
theorem regionOf_block (c : Nat) : regionOf (compactLocal (c / 64 * 64)) = regionOf (compactLocal c) := by
  unfold regionOf compactLocal field
  omega

theorem pmaOk_management {r l n : Nat} (hr : r ∈ [3, 4, 5]) : pmaOk .cacheZero r l n = false := by
  fin_cases hr <;> rfl

/-- Management of a block in I/O space faults. -/
theorem hartBlock_faults {b : HartAccess} (hc : a.cbo ∈ [.clean, .flush, .inval]) (hio : inIo (compactLocal a.ca) = true)
    (hm3 : (hartAt hm.1 a.hart).mode = 3) (ho : o = drainBuffer hm a.hart) (hown : hartOwner o.1 a.hart ≤ 16)
    (hf : unitFenced o.1 2 (a.hart / 8) = false) (hb : b = { a with ca := a.ca / 64 * 64, size := 64 }) :
    hartBlock hm a = (accessFault o.1 b 7 2 7 0 b.ca, o.2) := by
  have hr : regionOf (compactLocal (a.ca / 64 * 64)) ∈ [3, 4, 5] := by rw [regionOf_block]; exact of_decide_eq_true hio
  have hmeets : meets o.1 b .cacheZero false false = some (7, 0, b.ca) := by
    subst hb
    exact meets_forbidden (a := { a with ca := a.ca / 64 * 64, size := 64 }) (Nat.zero_lt_succ 63) hown hf (.inr (pmaOk_management hr))
  have hg := cboGate_none (x := hartAt hm.1 a.hart) (c := a.cbo) (.inl hm3)
  unfold hartBlock
  dsimp only
  rw [hg]
  dsimp only
  split
  · next e => simp [e] at hc
  · next e => simp [e] at hc
  · next e => simp [e] at hc
  · rw [← ho, ← hb, hmeets]
    rfl

theorem hartLoad_block (run : runs hm.1 a.hart = true) (hc : a.cbo ≠ .none) : hartLoad hm a = hartBlock hm a := by
  unfold hartLoad
  rw [if_neg (by simp [run]), if_pos hc]

/-! ### The forms of a store -/

section
variable {bs : List Byte} (run : runs hm.1 a.hart = true) (hlen : bs.length = a.size) (ho : o = beforeStore hm a)
include run hlen ho

/-- A cbo.zero that no enable allows is illegal. -/
theorem hartStore_gated {c : Nat} (h8 : 8 < a.size) (hg : cboGate (hartAt o.1 a.hart) .none true = some c) :
    hartStore hm a bs = (takeTrap o.1 a.hart c 0, o.2) := by
  unfold hartStore
  rw [if_neg (by simp [run, hlen]), ← ho]
  dsimp only
  rw [if_pos h8, hg]

/-- A store that meets a condition. -/
theorem hartStore_meets {e : Nat × Nat × Nat} (hg : a.size ≤ 8 ∨ cboGate (hartAt o.1 a.hart) .none true = none)
    (he : meets o.1 a (storeOp a) true false = some e) : hartStore hm a bs = (hartFault o.1 a (storeOp a) e, o.2) := by
  have hgate : (if a.size > 8 then cboGate (hartAt o.1 a.hart) .none true else none) = none := by
    split
    · exact hg.resolve_left (by omega)
    · rfl
  unfold hartStore
  rw [if_neg (by simp [run, hlen]), ← ho]
  dsimp only
  rw [hgate, he]

omit run hlen ho in
/-- What a store that meets no condition does. -/
def storePasses (o : HM) (a : HartAccess) (bs : List Byte) : HM :=
  if inIo (compactLocal a.ca) && !isLocal o.1 a.ca then
    (tagWrites (remoteWrite o.1 (hartOwner o.1 a.hart) a.ca bs false) (.hart a.hart), o.2)
  else if regionOf (compactLocal a.ca) = 3 then region3Store o (offsetOf (compactLocal a.ca)) a.size (leNat bs)
  else if inIo (compactLocal a.ca) then
    (if portDead o.1 (compactLocal a.ca) then (devError o.1 (compactLocal a.ca) 3, o.2) else (retryStall o.1 (compactLocal a.ca), o.2))
  else if a.pbmt = .io then drainBuffer (storeBuffered o a bs) a.hart else storeBuffered o a bs
where
  storeBuffered (o : HM) (a : HartAccess) (bs : List Byte) : HM :=
    (setHart (addTraffic (evictAnswer o.1 a) (hartOwner o.1 a.hart) a.size) a.hart
      { hartAt (addTraffic (evictAnswer o.1 a) (hartOwner o.1 a.hart) a.size) a.hart with
        sb := (hartAt (addTraffic (evictAnswer o.1 a) (hartOwner o.1 a.hart) a.size) a.hart).sb ++
          [{ addr := a.ca, bytes := bs, io := decide (a.pbmt ≠ .pma) }] }, o.2)

theorem hartStore_passes (hg : a.size ≤ 8 ∨ cboGate (hartAt o.1 a.hart) .none true = none)
    (he : meets o.1 a (storeOp a) true false = none) : hartStore hm a bs = storePasses o a bs := by
  have hgate : (if a.size > 8 then cboGate (hartAt o.1 a.hart) .none true else none) = none := by
    split
    · exact hg.resolve_left (by omega)
    · rfl
  unfold hartStore
  rw [if_neg (by simp [run, hlen]), ← ho]
  dsimp only
  rw [hgate, he] <;> rfl

end

theorem storePasses_afar {bs : List Byte} (hio : inIo (compactLocal a.ca) = true) (hl : isLocal o.1 a.ca = false) :
    storePasses o a bs = (tagWrites (remoteWrite o.1 (hartOwner o.1 a.hart) a.ca bs false) (.hart a.hart), o.2) :=
  if_pos (by simp [hio, hl])

theorem storePasses_register {bs : List Byte} (h3 : regionOf (compactLocal a.ca) = 3) (hl : isLocal o.1 a.ca = true) :
    storePasses o a bs = region3Store o (offsetOf (compactLocal a.ca)) a.size (leNat bs) := by
  unfold storePasses
  rw [if_neg (by simp [hl]), if_pos h3]

theorem storePasses_io {bs : List Byte} (h4 : regionOf (compactLocal a.ca) ∈ [4, 5]) (hl : isLocal o.1 a.ca = true) :
    storePasses o a bs = (if portDead o.1 (compactLocal a.ca) then devError o.1 (compactLocal a.ca) 3
      else retryStall o.1 (compactLocal a.ca), o.2) := by
  have hio : inIo (compactLocal a.ca) = true := inIo_of_region (List.mem_cons_of_mem _ h4)
  have h3 : regionOf (compactLocal a.ca) ≠ 3 := by rcases List.mem_pair.1 h4 with e | e <;> omega
  unfold storePasses
  rw [if_neg (by simp [hl]), if_neg h3, if_pos hio]
  exact (apply_ite (·, o.2) _ _ _).symm

theorem storePasses_buffered {bs : List Byte} (hio : inIo (compactLocal a.ca) = false) :
    storePasses o a bs = if a.pbmt = .io then drainBuffer (storePasses.storeBuffered o a bs) a.hart else storePasses.storeBuffered o a bs := by
  have h3 : regionOf (compactLocal a.ca) ≠ 3 := fun e => by simp [inIo, e] at hio
  unfold storePasses
  rw [if_neg (by simp [hio]), if_neg h3, if_neg (by simp [hio])]

theorem storeOp_small (h8 : a.size ≤ 8) : storeOp a = .store := if_neg (by omega)

/-! ### The forms of a fetch -/

section
variable {f g : Hw} (run : runs hm.1 a.hart = true) (hf : f = setHart hm.1 a.hart { xret (hartAt hm.1 a.hart) a.ret with pc := a.va })
include run hf

/-- A hart of a Fenced cluster parks on its fetch while NMIE is 0 (R207). -/
theorem hartFetch_parks (hfence : unitFenced hm.1 2 (a.hart / 8) = true) (hn : (hartAt hm.1 a.hart).nmie = false) :
    hartFetch hm a = (setHart f a.hart { hartAt f a.hart with run := .parked }, hm.2) := by
  subst hf
  unfold hartFetch
  rw [if_neg (by simp [run])]
  dsimp only
  rw [if_pos (by simp [hfence, hn])]

theorem hartFetch_meets {e : Nat × Nat × Nat} (hfence : unitFenced hm.1 2 (a.hart / 8) = false ∨ (hartAt hm.1 a.hart).nmie = true)
    (he : meets f a .fetch false true = some e) : hartFetch hm a = (hartFault f a .fetch e, hm.2) := by
  unfold hartFetch
  rw [if_neg (by simp [run])]
  dsimp only
  rw [if_neg (by rcases hfence with h | h <;> simp [h]), ← hf, he]

/-- A fetch that meets no condition: it fills the caches, and poison of a local line faults. -/
theorem hartFetch_passes {k : Hw} (hfence : unitFenced hm.1 2 (a.hart / 8) = false ∨ (hartAt hm.1 a.hart).nmie = true)
    (he : meets f a .fetch false true = none) (hg : g = arrayAnswers f a)
    (hk : k = if a.pbmt ≠ .pma then (readUncached (g, hm.2) a.hart a.ca a.size).2
      else if isLocal g a.ca then
        (linesOf (compactLocal a.ca) a.size).foldl (fun k x => touchCore k a.hart x true false a.ca)
          (addTraffic (retryStall g (compactLocal a.ca)) (hartOwner g a.hart) a.size)
      else touchAll g a.hart a.ca a.size true false) :
    hartFetch hm a = match (if isLocal k a.ca then (linesOf (compactLocal a.ca) a.size).find? (fun x => poisoned k (x * 64)) else none) with
      | some x => (hartFault k a .fetch (2, sourceOf (compactLocal a.ca),
          a.ca - compactLocal a.ca % 2 ^ 44 + max (compactLocal a.ca) (x * 64) % 2 ^ 44), hm.2)
      | none => (if a.omitted then takeTrap k a.hart 2 0 else k, hm.2) := by
  unfold hartFetch
  rw [if_neg (by simp [run])]
  dsimp only
  rw [if_neg (by rcases hfence with h | h <;> simp [h]), ← hf, he, hk, hg] <;> rfl

end

end

theorem takeTrap_stalls (h : Hw) (n c v : Nat) : (takeTrap h n c v).coh = h.coh := rfl

end Sys2Proof.Machine
end

section
namespace Sys2Proof.Machine

/-! ### The rows of a hart's accesses -/

section
variable {s : State} {h : Hw} {a : HartAccess} {bs : List Byte} (hh : h = clearSent s.hw)
include hh

theorem load_row {o : HM} (he : hartLoad (h, s.mem) a = o) (nw : NoWait o.1) : exec (.hartLoad a) s = .next (s.routed o) :=
  onAll_waiting (f := fun hm => hartLoad hm a) hh he nw

theorem store_row {o : HM} (he : hartStore (h, s.mem) a bs = o) (nw : NoWait o.1) : exec (.hartStore a bs) s = .next (s.routed o) :=
  onAll_waiting (f := fun hm => hartStore hm a bs) hh he nw

theorem fetch_row {g : Hw} (he : hartFetch (h, s.mem) a = (g, s.mem)) (nw : NoWait g) : exec (.hartFetch a) s = .next (s.ended g) :=
  onAll_waiting (f := fun hm => hartFetch hm a) hh he nw

/-- An access that has to wait leaves its requests. -/
theorem stalled_row {f : HM → HM} (hs : ¬ NoWait (f (h, s.mem)).1) :
    onAll s (waiting f) = .next (s.ended ((f (h, s.mem)).1.coh.stalls.foldl leaveStall h)) :=
  onAll_routedHw hh (waiting_stalls hs)

theorem cleared_noWait : NoWait h := by rw [hh]; rfl

end

theorem setHart_noWait {h : Hw} (n : Nat) (x : Hart) (nw : NoWait h) : NoWait (setHart h n x) := nw

/-- Settles O25: what an access meets decides its fault, and each form of an access that meets nothing has its own equation. -/
theorem hartAccessRows : Obligations.HartAccessRows := by
  intro s h a l hh run hl
  subst hl
  refine ⟨?cached, ?uncached, ?register, ?ioLoad, ?afarLoad, ?loadFault, ?prefetchIo, ?manageIo, ?buffered, ?gate, ?afarStore, ?regStore, ?ioStore,
    ?storeFault, ?parks, ?fetch, ?fetchFault, ?waits, ?requester, ?pmp, ?selvedge, ?trap⟩
  case cached =>
    intro o g k ho hc hp hg hio hl hm hk
    have e := (hartLoad_passes (hm := (h, s.mem)) run hc ho hm).trans (loadPasses_cached (hg ▸ hl) hp hio)
    unfold loadPasses.loadCached at e
    rw [← hg] at e
    dsimp only at e
    rw [← hk] at e
    constructor
    · intro hs nw
      rw [List.find?_eq_none.2 (fun x hx => by simp [hs x hx])] at e
      exact load_row hh e nw
    · intro x f hx hf nw
      rw [hx] at e
      subst hf
      exact load_row hh e nw
  case uncached =>
    intro o r ho hc hp hio hm hr nw
    have e := (hartLoad_passes (hm := (h, s.mem)) run hc ho hm).trans (loadPasses_uncached hp hio)
    rw [← hr] at e
    exact load_row hh e nw
  case register =>
    intro o g ho hc hg h3 hl hm
    have e := hartLoad_passes (hm := (h, s.mem)) run hc ho hm
    rw [hg] at hl
    refine ⟨fun v hn nw hv => ?_, fun f hn hv hf nw => ?_, fun h6 hs hi nw => ?_⟩
    · rw [loadPasses_read hl h3 (hg ▸ hn), ← hg, hv] at e
      exact load_row hh e nw
    · rw [loadPasses_read hl h3 (hg ▸ hn), ← hg, hv] at e
      subst hf
      exact load_row hh e nw
    · rw [loadPasses_sync hl h3 h6 hs (hg ▸ hi)] at e
      exact load_row hh e nw
  case ioLoad =>
    intro o g r ho hc hg h4 hl hm hr nw
    have e := (hartLoad_passes (hm := (h, s.mem)) run hc ho hm).trans (loadPasses_io (hg ▸ hl) h4)
    rw [← hg, ← hr] at e
    exact load_row hh e nw
  case afarLoad =>
    intro o g r ho hc hp hg hl hm hr nw
    have e := (hartLoad_passes (hm := (h, s.mem)) run hc ho hm).trans (loadPasses_afar hp (hg ▸ hl))
    rw [← hg, ← hr] at e
    exact load_row hh e nw
  case loadFault =>
    intro o e g ho hc hm hg nw
    subst hg
    exact ⟨load_row hh (hartLoad_meets (hm := (h, s.mem)) run hc ho hm) nw, hartFault_load hm⟩
  case prefetchIo =>
    intro hc hio
    have e := (hartLoad_block (hm := (h, s.mem)) run (by rintro e; simp [e] at hc)).trans (hartBlock_ignored hc hio)
    exact load_row hh e (cleared_noWait hh)
  case manageIo =>
    intro o b hc hio h3 ho hown hf hb nw
    have e := (hartLoad_block (hm := (h, s.mem)) run (by rintro e; simp [e] at hc)).trans (hartBlock_faults hc hio h3 ho hown hf hb)
    exact load_row hh e nw
  case buffered =>
    intro bs o g w hlen hio ho hgate hm hg hw
    have e := (hartStore_passes (hm := (h, s.mem)) run hlen ho hgate hm).trans (storePasses_buffered hio)
    have hbuf : storePasses.storeBuffered o a bs = w := by rw [hw, hg]; rfl
    rw [hbuf] at e
    refine ⟨fun hp nw => ?_, fun hp nw => ?_⟩
    · rw [if_neg hp] at e
      exact store_row hh e nw
    · rw [if_pos hp] at e
      exact store_row hh e nw
  case gate =>
    intro bs o c hlen h8 ho hgate nw
    exact store_row hh (hartStore_gated (hm := (h, s.mem)) run hlen ho h8 hgate) nw
  case afarStore =>
    intro bs o w hlen ho hio hl h8 hm hw nw
    rw [← storeOp_small h8] at hm
    have e := (hartStore_passes (hm := (h, s.mem)) run hlen ho (.inl h8) hm).trans (storePasses_afar hio hl)
    rw [← hw] at e
    exact store_row hh e nw
  case regStore =>
    intro bs o w hlen ho h3 hl h8 hm hw nw
    rw [← storeOp_small h8] at hm
    have e := (hartStore_passes (hm := (h, s.mem)) run hlen ho (.inl h8) hm).trans (storePasses_register h3 hl)
    rw [← hw] at e
    exact store_row hh e nw
  case ioStore =>
    intro bs o w hlen ho h4 hl h8 hm hw nw
    rw [← storeOp_small h8] at hm
    have e := (hartStore_passes (hm := (h, s.mem)) run hlen ho (.inl h8) hm).trans (storePasses_io h4 hl)
    rw [← hw] at e
    exact store_row hh e nw
  case storeFault =>
    intro bs e o g hlen ho hgate hm hg nw
    subst hg
    exact store_row hh (hartStore_meets (hm := (h, s.mem)) run hlen ho hgate hm) nw
  case parks =>
    intro g hg hfence hn
    exact fetch_row hh (hartFetch_parks (hm := (h, s.mem)) run hg hfence hn) (setHart_noWait _ _ (hg ▸ setHart_noWait _ _ (cleared_noWait hh)))
  case fetch =>
    intro f g k hf hfence hm hg hk
    have e := hartFetch_passes (hm := (h, s.mem)) run hf hfence hm hg hk
    constructor
    · intro hs nw
      have hnone : (if isLocal k a.ca then (linesOf (compactLocal a.ca) a.size).find? (fun x => poisoned k (x * 64)) else none) = none := by
        split
        · next hl => exact List.find?_eq_none.2 fun x hx => by simp [hs hl x hx]
        · rfl
      rw [hnone] at e
      refine fetch_row hh e ?_
      split
      · rw [NoWait, takeTrap_stalls]; exact nw
      · exact nw
    · intro x f' hl hx hf' nw
      rw [if_pos hl, hx] at e
      subst hf'
      exact fetch_row hh e nw
  case fetchFault =>
    intro g e hg hfence hm nw
    exact fetch_row hh (hartFetch_meets (hm := (h, s.mem)) run hg hfence hm) nw
  case waits =>
    intro o bs
    refine ⟨fun ho hs => ?_, fun ho hs => ?_, fun ho hs => ?_⟩
    · subst ho; exact stalled_row (f := fun hm => hartLoad hm a) hh hs
    · subst ho; exact stalled_row (f := fun hm => hartStore hm a bs) hh hs
    · subst ho; exact stalled_row (f := fun hm => hartFetch hm a) hh hs
  case requester => exact fun op w rd hr => meets_requester hr op w rd
  case pmp => exact fun op w rd hn ho hf hp => meets_forbidden hn ho hf (.inl hp)
  case selvedge => exact fun op w rd x hl ho hf hp hx => meets_refused hl ho hf hp hx
  case trap =>
    intro xc acc c src ca x y b hx hw ha hs hc hi hy hb
    subst hb
    have ht : y.trap = some { cause := xc, tval := a.va, mode := trapMode x xc, epc := x.pc } := by
      rw [hy, hx]
      exact (accessFault_precise h a ha hs hc).2
    obtain ⟨⟨e1, e2, e3⟩, -⟩ := accessFault_fields h a hx rfl hw ha hs hc hy
    exact ⟨ht, e1, e2, e3, accessFault_m h a hx hw ha hs hc hi hy, accessFault_hs h a hx hw ha hs hc hi hy,
      accessFault_vs h a hx hw ha hs hc hi hy⟩

end Sys2Proof.Machine
end

/-! PROOFS. AMO, LR and SC (chapters 6 and 7), and the end of a reservation. -/
section
namespace Sys2Proof.Machine

/-! ### Traps without a qualifier -/

theorem setCsr_buffer (x : Hart) (n v : Nat) : ((setCsr x n v).sb, (setCsr x n v).resv) = (x.sb, x.resv) := rfl

theorem stackStatus_buffer (x : Hart) (md : TrapMode) : ((stackStatus x md).sb, (stackStatus x md).resv) = (x.sb, x.resv) := by
  cases md with
  | m => obtain ⟨v, e⟩ := stackStatus_m x; rw [e, setCsr_buffer]
  | hs => obtain ⟨v, w, e⟩ := stackStatus_hs x; rw [e, setCsr_buffer, setCsr_buffer]
  | vs => obtain ⟨v, e⟩ := stackStatus_vs x; rw [e, setCsr_buffer]

theorem saved_buffer (x : Hart) (md : TrapMode) (c v : Nat) : ((saved x md c v).sb, (saved x md c v).resv) = (x.sb, x.resv) := by
  unfold saved
  rw [setCsr_buffer, setCsr_buffer, setCsr_buffer, stackStatus_buffer]

theorem trapTo_buffer (z : Hart) (t : Trap) (m p : Nat) (v : Bool) : ((trapTo z t m v p).sb, (trapTo z t m v p).resv) = (z.sb, z.resv) := rfl

/-- A trap leaves the qualifiers, the destination, the store buffer and the reservation of its hart. -/
theorem takeTrap_plain {h : Hw} {n c t : Nat} {x y : Hart} (hx : x = hartAt h n) (hy : y = hartAt (takeTrap h n c t) n) :
    y.trap = some { cause := c, tval := t, mode := trapMode x c, epc := x.pc } ∧ y.mHwErr = x.mHwErr ∧ y.hsHwErr = x.hsHwErr ∧
      y.vsHwErr = x.vsHwErr ∧ y.result = x.result ∧ y.sb = x.sb ∧ y.resv = x.resv := by
  rw [takeTrap_hart, ← hx] at hy
  have he : hwErrs y = hwErrs x := by rw [hy, trapTo_hwErrs, saved_hwErrs]
  have hb : (y.sb, y.resv) = (x.sb, x.resv) := by rw [hy, trapTo_buffer, saved_buffer]
  simp only [hwErrs, Prod.mk.injEq] at he hb
  obtain ⟨hr, ⟨hm, -⟩, ⟨hhs, -⟩, hvs, -⟩ := he
  exact ⟨by rw [hy]; exact (trapTo_fields _ _ _ _ _).1, hm, hhs, hvs, hr, hb⟩

theorem takeTrap_noWait {h : Hw} (n c t : Nat) (nw : NoWait h) : NoWait (takeTrap h n c t) := by
  rw [NoWait, takeTrap_stalls]
  exact nw

/-! ### Effects that leave no access waiting -/

theorem setResult_noWait {h : Hw} (n : Nat) (bs : List Byte) (nw : NoWait h) : NoWait (setResult h n bs) := setHart_noWait _ _ nw

theorem dropResv_noWait {h : Hw} (l : Nat) (k : Option Nat) (nw : NoWait h) : NoWait (dropResv h l k) := nw

theorem openLine_stalls (hm : HM) (l : Nat) : (openLine hm l).1.coh.stalls = hm.1.coh.stalls := by
  unfold openLine
  dsimp only
  split
  · split <;> rfl
  · rfl

theorem cohWrite_noWait {hm : HM} (l : Nat) (bs : List Byte) (nw : NoWait hm.1) : NoWait (cohWrite hm l bs).1 := by
  have e : ((linesOf l bs.length).foldl openLine hm).1.coh.stalls = hm.1.coh.stalls :=
    List.foldlRecOn (motive := fun x : HM => x.1.coh.stalls = hm.1.coh.stalls) _ _ rfl fun _ hx _ _ => (openLine_stalls _ _).trans hx
  exact e.trans nw

theorem proxyWrite_noWait {h : Hw} (ca : Nat) (bs : List Byte) (nw : NoWait h) : NoWait (proxyWrite h ca bs) :=
  (foldl_keeps (fun h : Hw => h.coh.stalls) (fun _ _ => setProxy_coh_stalls _ _ _) _ _).trans nw

/-! ### The forms of an AMO -/

section
variable {hm o : HM} {a : HartAccess} {op : AmoOp} {v c : Nat}

theorem hartAmo_misaligned (run : runs hm.1 a.hart = true) (hw : within16 a.ca a.size = false) :
    hartAmo hm a op v c = (takeTrap hm.1 a.hart 6 a.va, hm.2) := by
  unfold hartAmo
  rw [if_neg (by simp [run]), if_pos (by simp [hw])]
  rfl

section
variable (run : runs hm.1 a.hart = true) (hw : within16 a.ca a.size = true) (ho : o = drainBuffer hm a.hart)
include run hw ho

/-- An AMO that finds a buffered store lost takes its fault. -/
theorem hartAmo_lost {e : Nat × Nat} (hb : (hartAt o.1 a.hart).sbBad = some e) :
    hartAmo hm a op v c = (lostStore o.1 a.hart a.va e, o.2) := by
  unfold hartAmo
  rw [if_neg (by simp [run]), if_neg (by simp [hw]), ← ho]
  dsimp only
  rw [hb]

variable (hb : (hartAt o.1 a.hart).sbBad = none)
include hb

theorem hartAmo_meets {e : Nat × Nat × Nat} (he : meets o.1 a .atomic true true = some e) :
    hartAmo hm a op v c = (hartFault o.1 a .atomic e, o.2) := by
  unfold hartAmo
  rw [if_neg (by simp [run]), if_neg (by simp [hw]), ← ho]
  dsimp only
  rw [hb]
  dsimp only
  rw [he]

variable (he : meets o.1 a .atomic true true = none)
include he

theorem hartAmo_exclusive {g : Hw} {old : Nat} (hg : g = arrayAnswers o.1 a) (hl : isLocal g a.ca = false)
    (hx : exclusiveAfar g a.hart (a.ca / 64) = true) (hold : old = leNat ((List.range a.size).map (fun i => proxyByte g (a.ca + i)))) :
    hartAmo hm a op v c =
      (setResult (proxyWrite g a.ca (leBytes a.size (amoNew op a.size old v c))) a.hart (leBytes a.size old), o.2) := by
  unfold hartAmo
  rw [if_neg (by simp [run]), if_neg (by simp [hw]), ← ho]
  dsimp only
  rw [hb]
  dsimp only
  rw [he]
  dsimp only
  rw [← hg, if_pos (by simp [hl]), if_pos hx, ← hold]

theorem hartAmo_afar {g : Hw} {r : List Byte × Hw} (hg : g = arrayAnswers o.1 a) (hl : isLocal g a.ca = false)
    (hx : exclusiveAfar g a.hart (a.ca / 64) = false) (hr : r = atomicAfar g (hartOwner g a.hart) 7 a.ca a.size v c (amoCode op)) :
    hartAmo hm a op v c = (setResult r.2 a.hart r.1, o.2) := by
  unfold hartAmo
  rw [if_neg (by simp [run]), if_neg (by simp [hw]), ← ho]
  dsimp only
  rw [hb]
  dsimp only
  rw [he]
  dsimp only
  rw [← hg, if_pos (by simp [hl]), if_neg (by simp [hx]), ← hr]

theorem hartAmo_poisoned {g : Hw} (hl : isLocal (arrayAnswers o.1 a) a.ca = true)
    (hg : g = loseFenced (arrayAnswers o.1 a) (lineOf (compactLocal a.ca)) { kind := .atomicHome, agent := .l3 (a.hart / 8) })
    (hp : poisoned g (compactLocal a.ca) = true) :
    hartAmo hm a op v c = (hartFault g a .atomic (2, sourceOf (compactLocal a.ca), a.ca), o.2) := by
  unfold hartAmo
  rw [if_neg (by simp [run]), if_neg (by simp [hw]), ← ho]
  dsimp only
  rw [hb]
  dsimp only
  rw [he]
  dsimp only
  rw [if_neg (by simp [hl]), ← hg, if_pos hp]

theorem hartAmo_local {g k : Hw} {w : HM} {old : Nat} (hg : g = arrayAnswers o.1 a) (hl : isLocal g a.ca = true)
    (hp : poisoned (loseFenced g (lineOf (compactLocal a.ca)) { kind := .atomicHome, agent := .l3 (a.hart / 8) }) (compactLocal a.ca) = false)
    (hk : k = placeAtomic (addTraffic g (hartOwner g a.hart) a.size) o.2 a.hart (lineOf (compactLocal a.ca)))
    (hold : old = leNat (cohRead k o.2 (compactLocal a.ca) a.size))
    (hwr : w = cohWrite (k, o.2) (compactLocal a.ca) (leBytes a.size (amoNew op a.size old v c))) :
    hartAmo hm a op v c =
      (setResult (dropResv w.1 (lineOf (compactLocal a.ca)) (some a.hart)) a.hart (leBytes a.size old), w.2) := by
  unfold hartAmo
  rw [if_neg (by simp [run]), if_neg (by simp [hw]), ← ho]
  dsimp only
  rw [hb]
  dsimp only
  rw [he]
  dsimp only
  rw [← hg, if_neg (by simp [hl]), if_neg (by simp [hp]), ← hk, ← hold, ← hwr]

end

/-! ### The forms of an LR -/

theorem hartLr_misaligned (run : runs hm.1 a.hart = true) (hn : a.ca % max 1 a.size ≠ 0) :
    hartLr hm a = (takeTrap hm.1 a.hart 4 a.va, hm.2) := by
  unfold hartLr
  rw [if_neg (by simp [run]), if_pos hn]
  rfl

section
variable (run : runs hm.1 a.hart = true) (hn : a.ca % max 1 a.size = 0) (ho : o = drainBuffer hm a.hart)
include run hn ho

theorem hartLr_io (hio : inIo (compactLocal a.ca) = true) : hartLr hm a = (hartFault o.1 a .load (7, 0, a.ca), o.2) := by
  unfold hartLr
  rw [if_neg (by simp [run]), if_neg (by simp [hn]), ← ho]
  generalize inIo (compactLocal a.ca) = b at hio
  subst hio
  rfl

variable (hio : inIo (compactLocal a.ca) = false)
include hio

theorem hartLr_meets {e : Nat × Nat × Nat} (he : meets o.1 a .load false true = some e) : hartLr hm a = (hartFault o.1 a .load e, o.2) := by
  unfold hartLr
  rw [if_neg (by simp [run]), if_neg (by simp [hn]), ← ho]
  generalize inIo (compactLocal a.ca) = b at hio
  subst hio
  simp only [he, if_false, Bool.false_eq_true]

variable (he : meets o.1 a .load false true = none)
include he

/-- An LR of a line of another package reserves it. -/
theorem hartLr_afar {k j : Hw} (hl : isLocal o.1 a.ca = false)
    (hk : k = touchRemote o.1 a.hart (lineStatus o.1 (hartOwner o.1 a.hart) (a.ca / 64)) (a.ca / 64) false true)
    (hj : j = setResult k a.hart ((List.range a.size).map (fun i => proxyByte k (a.ca + i)))) :
    hartLr hm a = (setHart j a.hart { hartAt j a.hart with resv := some (2 ^ 54 + a.ca / 64) }, o.2) := by
  unfold hartLr
  rw [if_neg (by simp [run]), if_neg (by simp [hn]), ← ho]
  generalize inIo (compactLocal a.ca) = b at hio
  subst hio
  simp only [he, hl, if_false, Bool.false_eq_true, Bool.not_false, if_true, ← hk, ← hj]

variable {k : Hw} (hl : isLocal o.1 a.ca = true)
  (hk : k = touchCore (retryStall (arrayAnswers o.1 a) (compactLocal a.ca)) a.hart (lineOf (compactLocal a.ca)) false true a.ca)
include hl hk

theorem hartLr_poisoned (hp : poisoned k (compactLocal a.ca) = true) :
    hartLr hm a = (hartFault k a .load (2, sourceOf (compactLocal a.ca), a.ca), o.2) := by
  unfold hartLr
  rw [if_neg (by simp [run]), if_neg (by simp [hn]), ← ho]
  generalize hb : inIo (compactLocal a.ca) = b at hio
  subst hio
  simp only [he, hl, if_false, Bool.false_eq_true, Bool.not_true, ← hk, hp, if_true]

/-- An LR of a local line reserves it. -/
theorem hartLr_local {j : Hw} (hp : poisoned k (compactLocal a.ca) = false)
    (hj : j = setResult k a.hart (cohRead k o.2 (compactLocal a.ca) a.size)) :
    hartLr hm a = (setHart j a.hart { hartAt j a.hart with resv := some (lineOf (compactLocal a.ca)), resvHeld := false }, o.2) := by
  unfold hartLr
  rw [if_neg (by simp [run]), if_neg (by simp [hn]), ← ho]
  generalize hb : inIo (compactLocal a.ca) = b at hio
  subst hio
  simp only [he, hl, if_false, Bool.false_eq_true, Bool.not_true, ← hk, hp, ← hj]

end

/-! ### The forms of an SC -/

section
variable {bs : List Byte} (run : runs hm.1 a.hart = true) (hlen : bs.length = a.size)
include run hlen

theorem hartSc_misaligned (hn : a.ca % max 1 a.size ≠ 0) : hartSc hm a bs = (takeTrap hm.1 a.hart 6 a.va, hm.2) := by
  unfold hartSc
  rw [if_neg (by simp [run, hlen]), if_pos hn]
  rfl

variable (hn : a.ca % max 1 a.size = 0) (ho : o = drainBuffer hm a.hart)
include hn ho

/-- An SC that meets a condition ends the reservation and takes its fault. -/
theorem hartSc_meets {e : Nat × Nat × Nat} (he : meets o.1 a .atomic true false = some e) :
    hartSc hm a bs = (hartFault (endResv o a.hart).1 a .atomic e, (endResv o a.hart).2) := by
  unfold hartSc
  rw [if_neg (by simp [run, hlen]), if_neg (by simp [hn]), ← ho]
  dsimp only
  rw [he]

variable (he : meets o.1 a .atomic true false = none)
include he

theorem hartSc_fails {e : HM} (hr : (hartAt o.1 a.hart).resv ≠ some (if isLocal o.1 a.ca then lineOf (compactLocal a.ca) else 2 ^ 54 + a.ca / 64))
    (hE : e = endResv o a.hart) : hartSc hm a bs = (setResult e.1 a.hart (leBytes 8 1), e.2) := by
  unfold hartSc
  rw [if_neg (by simp [run, hlen]), if_neg (by simp [hn]), ← ho]
  dsimp only
  rw [he]
  dsimp only
  rw [if_neg hr, ← hE]

theorem hartSc_local {w e : HM} (hl : isLocal o.1 a.ca = true) (hr : (hartAt o.1 a.hart).resv = some (lineOf (compactLocal a.ca)))
    (hw : w = cohWrite (placeAtomic o.1 o.2 a.hart (lineOf (compactLocal a.ca)), o.2) (compactLocal a.ca) bs)
    (hE : e = endResv (dropResv w.1 (lineOf (compactLocal a.ca)) (some a.hart), w.2) a.hart) :
    hartSc hm a bs = (setResult e.1 a.hart (leBytes 8 0), e.2) := by
  unfold hartSc
  rw [if_neg (by simp [run, hlen]), if_neg (by simp [hn]), ← ho]
  dsimp only
  rw [he]
  dsimp only
  rw [if_pos (by rw [hr, if_pos hl]), if_neg (by simp [hl]), ← hw, ← hE]

theorem hartSc_afar {w : Hw} {e : HM} (hl : isLocal o.1 a.ca = false) (hr : (hartAt o.1 a.hart).resv = some (2 ^ 54 + a.ca / 64))
    (hw : w = if exclusiveAfar o.1 a.hart (a.ca / 64) then proxyWrite o.1 a.ca bs
      else (atomicAfar o.1 (hartOwner o.1 a.hart) 7 a.ca a.size (leNat bs) 0 5).2)
    (hE : e = endResv (w, o.2) a.hart) : hartSc hm a bs = (setResult e.1 a.hart (leBytes 8 0), e.2) := by
  have hw' : (w, o.2) = if exclusiveAfar o.1 a.hart (a.ca / 64) then (proxyWrite o.1 a.ca bs, o.2)
      else ((atomicAfar o.1 (hartOwner o.1 a.hart) 7 a.ca a.size (leNat bs) 0 5).2, o.2) := by
    rw [hw]
    exact apply_ite (·, o.2) _ _ _
  unfold hartSc
  rw [if_neg (by simp [run, hlen]), if_neg (by simp [hn]), ← ho]
  dsimp only
  rw [he]
  dsimp only
  rw [if_pos (by rw [hr, hl]; rfl), if_pos (by simp [hl]), ← hw', ← hE]

end

end

end Sys2Proof.Machine
end

section
namespace Sys2Proof.Machine

/-! ### The end of a reservation (R239) -/

/-- An entry of a table of the canonical form is what a read of its key gives. -/
theorem tabGet_of_mem [DecidableEq α] {d : α} {t : Tab α} (hw : tabWf d t = true) {e : Nat × α} (he : e ∈ t) : tabGet d t e.1 = e.2 := by
  obtain ⟨hs, -⟩ := tabWf_iff.1 hw
  clear hw
  induction t with
  | nil => cases he
  | cons a t ih =>
    obtain ⟨ha, ht⟩ := List.pairwise_cons.1 hs
    rcases List.mem_cons.1 he with rfl | he
    · exact if_pos rfl
    · exact (if_neg (ne_of_lt (ha e he))).trans (ih he ht)

/-- An entry of another key was there before a write. -/
theorem mem_of_mem_tabPut [DecidableEq α] {d : α} {t : Tab α} {n : Nat} {x : α} {e : Nat × α} (he : e ∈ tabPut d t n x) (hn : e.1 ≠ n) :
    e ∈ t := by
  unfold tabPut at he
  split at he
  · exact (tabDel_sublist t n).subset he
  · exact (mem_tabIns he).resolve_left fun h => hn (by rw [h])

/-- Whether a directory entry's queue waits for nothing any more. -/
def queueFree (h : Hw) (e : Nat × DirEntry) : Bool :=
  e.2.busy && e.2.awaits.isEmpty && !e.2.queue.isEmpty && (reservedBy h e.1).isNone && !lineRetries h e.1
    && !(e.2.queue.take 1).any (fun q => decide (q.act.grant = 1) || heldSnoop h e.1 q)

theorem idleLines_nil {h : Hw} : idleLines h = [] ↔ ∀ e ∈ h.coh.dir, queueFree h e = false := by
  unfold idleLines
  rw [List.map_eq_nil_iff, List.filter_eq_nil_iff]
  exact forall₂_congr fun e _ => Bool.eq_false_iff.symm

theorem wakeLines_nil {g : Hw} (m : Memory) (h : idleLines g = []) : wakeLines (g, m) = (g, m) := by
  unfold wakeLines
  dsimp only
  rw [h]
  rfl

/-- A line that no hart's reservation but that of another line has changed is reserved as before. -/
theorem reservedBy_congr {g h : Hw} {line : Nat} (hr : ∀ i, (hartAt g i).resv = some line ↔ (hartAt h i).resv = some line) :
    reservedBy g line = reservedBy h line := by
  unfold reservedBy
  congr 1
  funext i
  exact decide_eq_decide.2 (hr i)

theorem lineRetries_congr (h : Hw) (t : Tab Hart) (c : Coherence) (line : Nat) :
    lineRetries { h with harts := t, coh := c } line = lineRetries h line := rfl

theorem heldSnoop_congr {h : Hw} {t : Tab Hart} {c : Coherence} {line : Nat} (hd : tabGet {} c.dir line = tabGet {} h.coh.dir line)
    (q : DirReq) : heldSnoop { h with harts := t, coh := c } line q = heldSnoop h line q := by
  have e : dirAt { h with harts := t, coh := c } line = dirAt h line := hd
  unfold heldSnoop
  rw [e]
  rfl

/-- With one reservation gone and the entry of its line without a queue, no queue waits for nothing that did not before. -/
theorem idleLines_still {h : Hw} {n k : Nat} {t : Tab Hart} {c : Coherence} (hi : idleLines h = []) (hk : (hartAt h n).resv = some k)
    (hn : (tabGet {} t n).resv = none) (ho : ∀ i, i ≠ n → tabGet {} t i = hartAt h i)
    (hq : ∀ e ∈ c.dir, e.1 = k → e.2.queue = []) (hd : ∀ e ∈ c.dir, e.1 ≠ k → e ∈ h.coh.dir)
    (hg : ∀ line, line ≠ k → tabGet {} c.dir line = tabGet {} h.coh.dir line) :
    idleLines { h with harts := t, coh := c } = [] := by
  refine idleLines_nil.2 fun e he => ?_
  by_cases hek : e.1 = k
  · simp [queueFree, hq e he hek]
  · have hold := idleLines_nil.1 hi e (hd e he hek)
    have hres : reservedBy { h with harts := t, coh := c } e.1 = reservedBy h e.1 := reservedBy_congr fun i => by
      show (tabGet {} t i).resv = some e.1 ↔ _
      by_cases hin : i = n
      · subst hin
        rw [hn, hk]
        simpa using fun h => hek h.symm
      · rw [ho i hin]
    unfold queueFree at hold ⊢
    rw [hres, lineRetries_congr]
    simp only [heldSnoop_congr (hg e.1 hek)]
    exact hold

theorem resvTimeout_held {hm : HM} {n : Nat} (hheld : (hartAt hm.1 n).resvHeld = true) : resvTimeout hm n = wakeLines (endResv hm n) := by
  unfold resvTimeout
  rw [if_pos hheld]

section
variable {h : Hw} {m : Memory} {n k : Nat}

/-- The harts once a hart's reservation has ended. -/
def unreserved (h : Hw) (n : Nat) : Tab Hart := tabPut {} h.harts n { hartAt h n with resv := none, resvHeld := false }

theorem unreserved_same (hw : tabWf {} h.harts = true) : (tabGet {} (unreserved h n) n).resv = none := by
  unfold unreserved
  rw [tabGet_put_same _ _ _ hw]

theorem unreserved_other {i : Nat} (hi : i ≠ n) : tabGet {} (unreserved h n) i = hartAt h i := tabGet_put_other _ _ _ hi

variable (hr : (hartAt h n).resv = some k) (hk : k < 2 ^ 54) (hheld : (hartAt h n).resvHeld = true) (hi : idleLines h = [])
  (hq : (dirAt h k).queue = []) (hd : tabWf {} h.coh.dir = true) (hw : tabWf {} h.harts = true)
include hr hi hq hd hw

/-- The reservation alone gone leaves no line to serve. -/
theorem idleLines_unreserved : idleLines { h with harts := unreserved h n } = [] :=
  idleLines_still (c := h.coh) hi hr (unreserved_same hw) (fun _ => unreserved_other)
    (fun e he hek => by rw [← tabGet_of_mem hd he, hek]; exact hq) (fun _ he _ => he) fun _ _ => rfl

/-- A queue with nothing in it is served by the end of its line's busy state alone. -/
theorem serveLine_empty : ∃ c : Coherence,
    serveLine ({ h with harts := unreserved h n }, m) k = ({ h with harts := unreserved h n, coh := c }, m) ∧
    idleLines { h with harts := unreserved h n, coh := c } = [] := by
  obtain ⟨d, e⟩ := setDir_eq { h with harts := unreserved h n } k { dirAt h k with busy := false, queue := [] }
  have hs : serveLine ({ h with harts := unreserved h n }, m) k =
      (dirAt h k).queue.foldl (fun hm q => homeServe hm k q)
        (setDir { h with harts := unreserved h n } k { dirAt h k with busy := false, queue := [] }, m) := rfl
  rw [hq, List.foldl_nil, e] at hs
  refine ⟨_, hs, idleLines_still hi hr (unreserved_same hw) (fun _ => unreserved_other) (fun x hx hxk => ?_) (fun x hx hxk => ?_)
    fun line hl => tabGet_put_other _ _ _ hl⟩
  · rw [← tabGet_of_mem (tabPut_wf _ _ hd) hx, hxk]
    exact congrArg DirEntry.queue (tabGet_put_same _ _ _ hd)
  · exact mem_of_mem_tabPut hx hxk

include hk hheld in
/-- The end of a reservation whose line has no queue touches the reservation and the directory only. -/
theorem resvTimeout_ends : ∃ c : Coherence, resvTimeout (h, m) n = ({ h with harts := unreserved h n, coh := c }, m) := by
  have he : endResv (h, m) n = if (dirAt h k).awaits.isEmpty then serveQueue ({ h with harts := unreserved h n }, m) k
      else ({ h with harts := unreserved h n }, m) := by
    unfold endResv
    dsimp only
    rw [hr]
    dsimp only
    rw [hheld, if_neg (by decide), if_neg (by omega)]
    rfl
  rw [resvTimeout_held (hm := (h, m)) hheld, he]
  split
  · obtain ⟨c, e, hc⟩ := serveLine_empty (m := m) hr hi hq hd hw
    refine ⟨c, ?_⟩
    rw [serveQueue, e, wakeLines_nil m hc, wakeLines_nil m hc]
  · exact ⟨h.coh, wakeLines_nil m (idleLines_unreserved hr hi hq hd hw)⟩

end

/-! ### The rows -/

section
variable {s : State} {h : Hw} {a : HartAccess} {bs : List Byte} {op : AmoOp} {v c : Nat} (hh : h = clearSent s.hw)
include hh

theorem amo_row {o : HM} (he : hartAmo (h, s.mem) a op v c = o) (nw : NoWait o.1) : exec (.amo a op v c) s = .next (s.routed o) :=
  onAll_waiting (f := fun hm => hartAmo hm a op v c) hh he nw

theorem lr_row {o : HM} (he : hartLr (h, s.mem) a = o) (nw : NoWait o.1) : exec (.lr a) s = .next (s.routed o) :=
  onAll_waiting (f := fun hm => hartLr hm a) hh he nw

theorem sc_row {o : HM} (he : hartSc (h, s.mem) a bs = o) (nw : NoWait o.1) : exec (.sc a bs) s = .next (s.routed o) :=
  onAll_waiting (f := fun hm => hartSc hm a bs) hh he nw

theorem resvTimeout_row {n : Nat} {o : HM} (he : resvTimeout (h, s.mem) n = o) :
    exec (.reservationTimeout n) s = .next (s.withHm (stepEnd o.1, o.2)) :=
  onAll_routed (f := fun hm => resvTimeout hm n) hh he

end

theorem stepEnd_cleared {s : State} {t : Tab Hart} {c : Coherence} :
    stepEnd { clearSent s.hw with harts := t, coh := c } = { clearSent s.hw with harts := t, coh := c } :=
  stepEnd_nil (h := { clearSent s.hw with harts := t, coh := c }) rfl rfl

/-- Settles O26: each form of an AMO, an LR and an SC has its own equation; a reservation that ends serves the queue of its line. -/
theorem hartAtomicRows : Obligations.HartAtomicRows := by
  intro s h a l hh run hl
  subst hl
  refine ⟨?amoMis, ?lrMis, ?scMis, ?trap, ?amoLost, ?amoLocal, ?amoPoison, ?amoExclusive, ?amoAfar, ?amoFault, ?lrLocal, ?lrFault, ?scFault,
    ?lrAfar, ?lrIo, ?scLocal, ?scAfar, ?scFails, ?idle, ?ends⟩
  case amoMis => exact fun op v c hw => amo_row hh (hartAmo_misaligned run hw) (takeTrap_noWait _ _ _ (cleared_noWait hh))
  case lrMis => exact fun hn => lr_row hh (hartLr_misaligned run hn) (takeTrap_noWait _ _ _ (cleared_noWait hh))
  case scMis => exact fun bs hlen hn => sc_row hh (hartSc_misaligned run hlen hn) (takeTrap_noWait _ _ _ (cleared_noWait hh))
  case trap => exact fun c t x y hx hy => takeTrap_plain hx hy
  case amoLost => exact fun o op v c e ho hw hb nw => amo_row hh (hartAmo_lost run hw ho hb) nw
  case amoLocal =>
    intro o g k w op v c old ho hw hb he hg hl hp hk nw hold hwr
    refine amo_row hh (hartAmo_local run hw ho hb he hg hl hp hk hold hwr) (setResult_noWait _ _ (dropResv_noWait _ _ ?_))
    rw [hwr]
    exact cohWrite_noWait _ _ nw
  case amoPoison =>
    intro o g f op v c ho hw hb he hl hg hp hf nw
    subst hf
    exact amo_row hh (hartAmo_poisoned run hw ho hb he hl hg hp) nw
  case amoExclusive =>
    exact fun o g op v c old ho hw hb he hg hl nw hx hold =>
      amo_row hh (hartAmo_exclusive run hw ho hb he hg hl hx hold) (setResult_noWait _ _ (proxyWrite_noWait _ _ nw))
  case amoAfar =>
    exact fun o g op v c r ho hw hb he hg hl hx hr nw => amo_row hh (hartAmo_afar run hw ho hb he hg hl hx hr) (setResult_noWait _ _ nw)
  case amoFault => exact fun o op v c e ho hw hb he nw => amo_row hh (hartAmo_meets run hw ho hb he) nw
  case lrLocal =>
    intro o g k ho hn hio hl he hg hk
    subst hg
    refine ⟨fun j nw hp hj => ?_, fun f hp hf nw => ?_⟩
    · refine lr_row hh (hartLr_local run hn ho hio he hl hk hp hj) (setHart_noWait _ _ ?_)
      rw [hj]
      exact setResult_noWait _ _ nw
    · subst hf
      exact lr_row hh (hartLr_poisoned run hn ho hio he hl hk hp) nw
  case lrFault => exact fun o e ho hn hio he nw => lr_row hh (hartLr_meets run hn ho hio he) nw
  case scFault =>
    intro bs o e f hlen ho hn he hf nw
    subst hf
    exact sc_row hh (hartSc_meets run hlen hn ho he) nw
  case lrAfar =>
    intro o k j ho hn hio hl he hk nw hj
    refine lr_row hh (hartLr_afar run hn ho hio he hl hk hj) (setHart_noWait _ _ ?_)
    rw [hj]
    exact setResult_noWait _ _ nw
  case lrIo => exact fun o ho hn hio nw => lr_row hh (hartLr_io run hn ho hio) nw
  case scLocal =>
    exact fun bs o w e hlen ho hn hl he hr hw hE nw => sc_row hh (hartSc_local run hlen hn ho he hl hr hw hE) (setResult_noWait _ _ nw)
  case scAfar =>
    exact fun bs o w e hlen ho hn hl he hr hw hE nw => sc_row hh (hartSc_afar run hlen hn ho he hl hr hw hE) (setResult_noWait _ _ nw)
  case scFails =>
    exact fun bs o e hlen ho hn he hr hE nw => sc_row hh (hartSc_fails run hlen hn ho he hr hE) (setResult_noWait _ _ nw)
  case idle =>
    intro n hheld hi
    have e : resvTimeout (h, s.mem) n = (h, s.mem) := by
      unfold resvTimeout
      rw [if_neg (by simp [hheld]), wakeLines_nil _ hi]
    rw [resvTimeout_row hh e]
    subst hh
    rw [stepEnd_nil rfl rfl]
  case ends =>
    intro n k hr hk hheld hi hq hd hw
    obtain ⟨c, e⟩ := resvTimeout_ends (m := s.mem) hr hk hheld hi hq hd hw
    refine ⟨_, resvTimeout_row hh e, ?_⟩
    subst hh
    rw [stepEnd_cleared]
    exact ⟨unreserved_same hw, rfl⟩

end Sys2Proof.Machine
end

/-! PROOFS. The instructions of a hart that order, stop, start and return (chapters 6 and 7). -/
section
namespace Sys2Proof.Machine

/-! ### FENCE and YCFENCE -/

section
variable {hm o : HM} {n va v : Nat} (run : runs hm.1 n = true)
include run

theorem hartFence_drains {sets : Nat} {g : Hw} (ho : o = drainBuffer hm n) (hb : (hartAt o.1 n).sbBad = none)
    (hg : g = if bitOf sets 7 || bitOf sets 6 then ioOrder o.1 n else o.1) : hartFence hm n va sets = (g, o.2) := by
  unfold hartFence
  rw [if_neg (by simp [run]), ← ho]
  dsimp only
  rw [hb, hg]

theorem hartFence_lost {sets : Nat} {e : Nat × Nat} (ho : o = drainBuffer hm n) (hb : (hartAt o.1 n).sbBad = some e) :
    hartFence hm n va sets = (lostStore o.1 n va e, o.2) := by
  unfold hartFence
  rw [if_neg (by simp [run]), ← ho]
  dsimp only
  rw [hb]

theorem ycfence_empty (hv : field v 7 4 = 0 ∨ field v 3 0 = 0) : ycfence hm n v va = hm := by
  unfold ycfence
  rw [if_neg (by simp [run]), if_pos hv]

section
variable (h1 : field v 7 4 ≠ 0) (h2 : field v 3 0 ≠ 0)
include h1 h2

theorem ycfence_io (hio : (bitOf v 7 || bitOf v 6 || bitOf v 3 || bitOf v 2) = true) : ycfence hm n v va = hartFence hm n va v := by
  unfold ycfence
  rw [if_neg (by simp [run]), if_neg (by simp [h1, h2]), if_pos hio]

variable (hio : (bitOf v 7 || bitOf v 6 || bitOf v 3 || bitOf v 2) = false)
include hio

theorem ycfence_drains (h4 : bitOf v 4 = true) (ho : o = drainBuffer hm n) (hb : (hartAt o.1 n).sbBad = none) : ycfence hm n v va = o := by
  unfold ycfence
  rw [if_neg (by simp [run]), if_neg (by simp [h1, h2]), if_neg (by simp [hio]), if_pos h4, ← ho]
  dsimp only
  rw [hb]

theorem ycfence_lost {e : Nat × Nat} (h4 : bitOf v 4 = true) (ho : o = drainBuffer hm n) (hb : (hartAt o.1 n).sbBad = some e) :
    ycfence hm n v va = (lostStore o.1 n va e, o.2) := by
  unfold ycfence
  rw [if_neg (by simp [run]), if_neg (by simp [h1, h2]), if_neg (by simp [hio]), if_pos h4, ← ho]
  dsimp only
  rw [hb]

theorem ycfence_reads (h4 : bitOf v 4 = false) : ycfence hm n v va = hm := by
  unfold ycfence
  rw [if_neg (by simp [run]), if_neg (by simp [h1, h2]), if_neg (by simp [hio]), if_neg (by simp [h4])]

end

/-! ### STOP -/

theorem hartStop_stops (h3 : (hartAt hm.1 n).mode = 3) (ho : o = endResv (drainBuffer hm n) n) :
    hartStop hm n = (setHart o.1 n { hartAt o.1 n with run := .stopped }, o.2) := by
  unfold hartStop
  rw [if_neg (by simp [run]), if_neg (by simp [h3]), ho]

theorem hartStop_illegal (h3 : (hartAt hm.1 n).mode ≠ 3) : hartStop hm n = (takeTrap hm.1 n 2 0, hm.2) := by
  unfold hartStop
  rw [if_neg (by simp [run]), if_pos h3]

/-! ### The loads of a knot and of the invalidations' end -/

section
variable {k : Nat} {g : Hw} (hown : hartOwner hm.1 n ≤ 16) (ho : o = drainBuffer hm n) (hg : g = ioOrder o.1 n)
include hown ho hg

theorem kntValue_reads {w : BitVec 64} (hv : windowValue g (hartOwner hm.1 n) k = some w) :
    kntValue hm { hart := n, va := va } k = (setResult g n (leBytes 8 w.toNat), o.2) := by
  unfold kntValue
  dsimp only
  rw [if_neg (by simp [run, hown]), ← ho, ← hg, hv]

theorem kntValue_faults {ca : Nat} (hv : windowValue g (hartOwner hm.1 n) k = none)
    (hca : ca = toCompact g.ident.position (3 * 2 ^ 48 + hartOwner hm.1 n * 2 ^ 24 + 0x800000 + 16 * k)) :
    kntValue hm { hart := n, va := va } k = (accessFault g { hart := n, va := va, ca := ca, size := 8 } 5 1 2 0xC ca, o.2) := by
  unfold kntValue
  dsimp only
  rw [if_neg (by simp [run, hown]), ← ho, ← hg, hv, hca]

end

end

theorem xinvSync_zero {hm o : HM} {n : Nat} {g : Hw} (hn : n < 128) (hown : hartOwner hm.1 n ≤ 16)
    (hi : invalidated hm.1 (hartOwner hm.1 n) = true) (ho : o = drainBuffer hm n) (hg : g = ioOrder o.1 n) :
    xinvSync hm n = (setResult g n (zeros 8), o.2) := by
  unfold xinvSync
  rw [if_pos ⟨hn, hown, hi⟩, hg, ho]

theorem xinvSync_waits {hm : HM} {n : Nat} (hi : invalidated hm.1 (hartOwner hm.1 n) = false) : xinvSync hm n = hm := by
  unfold xinvSync
  rw [if_neg (by simp [hi])]

/-! ### YMHARTSTART and MNRET -/

/-- A hart that runs and has no RNMI pending goes on. -/
theorem afterStart_plain {h : Hw} {n : Nat} {x : Hart} (hr : x.run = .running) (hn : x.rnmi = []) :
    afterStart (setHart h n x) n = setHart h n x := by
  have hx : x ≠ {} := by
    rintro rfl
    cases hr
  unfold afterStart
  dsimp only
  rw [hartAt_setHart_ne h n x hx, hn]

section
variable {h : Hw} {n k : Nat}

section
variable (run : runs h n = true)
include run

theorem hartStart_illegal (h3 : (hartAt h n).mode ≠ 3) : hartStart h n k = takeTrap h n 2 0 := by
  unfold hartStart
  rw [if_neg (by simp [run]), if_pos h3]

variable (h3 : (hartAt h n).mode = 3)
include h3

theorem hartStart_ignored (hk : 128 ≤ k ∨ k = n ∨ hartOwner h k ≠ hartOwner h n ∨ (hartAt h k).run ≠ HartRun.stopped) :
    hartStart h n k = h := by
  unfold hartStart
  rw [if_neg (by simp [run]), if_neg (by simp [h3]), if_pos hk]

variable (hk : k < 128) (hne : k ≠ n) (hown : hartOwner h k = hartOwner h n) (hstop : (hartAt h k).run = HartRun.stopped)
include hk hne hown hstop

/-- A start of a hart that may be started depends on its cluster's island alone. -/
theorem hartStart_asked :
    hartStart h n k = match (islandAt h { kind := .cluster, idx := k / 8 }).power with
      | .open => startHart h k
      | .gated => setIsland (setHart h k { hartAt h k with startReq := true }) { kind := .cluster, idx := k / 8 }
          { islandAt h { kind := .cluster, idx := k / 8 } with power := .waking h.tb.now }
      | _ => setHart h k { hartAt h k with startReq := true } := by
  unfold hartStart
  rw [if_neg (by simp [run]), if_neg (by simp [h3]), if_neg (by simp [hne, hown, hstop]; omega)] <;> rfl

theorem hartStart_runs (hp : (islandAt h { kind := .cluster, idx := k / 8 }).power = .open) (hr : (hartAt h k).rnmi = []) :
    hartStart h n k = setHart h k
      { hartAt h k with run := .running, mode := 3, virt := false, pc := (hartAt h k).startPc.toNat, startReq := false } := by
  rw [hartStart_asked run h3 hk hne hown hstop, hp]
  dsimp only
  unfold startHart
  dsimp only
  rw [if_pos hstop]
  exact afterStart_plain rfl hr

theorem hartStart_waits (ho : (islandAt h { kind := .cluster, idx := k / 8 }).power ≠ .open)
    (hg : (islandAt h { kind := .cluster, idx := k / 8 }).power ≠ .gated) :
    hartStart h n k = setHart h k { hartAt h k with startReq := true } := by
  rw [hartStart_asked run h3 hk hne hown hstop]
  split
  · next e => exact absurd e ho
  · next e => exact absurd e hg
  · rfl

theorem hartStart_wakes (hp : (islandAt h { kind := .cluster, idx := k / 8 }).power = .gated) :
    hartStart h n k = setIsland (setHart h k { hartAt h k with startReq := true }) { kind := .cluster, idx := k / 8 }
          { islandAt h { kind := .cluster, idx := k / 8 } with power := .waking h.tb.now } := by
  rw [hartStart_asked run h3 hk hne hown hstop, hp]

end

theorem mnret_illegal (hn : n < 128) (hr : (hartAt h n).run = .running) (h3 : (hartAt h n).mode ≠ 3) : mnret h n = takeTrap h n 2 0 := by
  unfold mnret
  dsimp only
  rw [if_neg (by simp [hr]; omega), if_pos h3]

theorem mnret_returns {x : Hart} (hx : x = hartAt h n) (hn : n < 128)
    (hr : x.run = .running ∨ x.run = .parked ∧ unitFenced h 2 (n / 8) = false) (h3 : x.mode = 3) (hp : x.rnmi = []) :
    mnret h n = setHart h n { x with run := .running, pc := x.mnepc, mode := x.mnpp, virt := x.mnpv, nmie := true } := by
  have hgo : ¬ (n ≥ 128 ∨ !(x.run = HartRun.running ∨ x.run = HartRun.parked) ∨ (x.run = HartRun.parked ∧ unitFenced h 2 (n / 8))) := by
    rcases hr with e | ⟨e, hf⟩
    · simp [e, hn]
    · simp [e, hf, hn]
  unfold mnret
  dsimp only
  rw [← hx, if_neg hgo, if_neg (by simp [h3])]
  exact afterStart_plain rfl hp

theorem mnret_parked (hr : (hartAt h n).run = .parked) (hf : unitFenced h 2 (n / 8) = true) : mnret h n = h := by
  unfold mnret
  dsimp only
  rw [if_pos (.inr (.inr ⟨hr, hf⟩))]

end

/-! ### The rows -/

section
variable {s : State} {h : Hw} {n : Nat} (hh : h = clearSent s.hw)
include hh

theorem fence_row {va sets : Nat} {o : HM} (he : hartFence (h, s.mem) n va sets = o) (nw : NoWait o.1) :
    exec (.fence n va sets) s = .next (s.routed o) :=
  onAll_waiting (f := fun hm => hartFence hm n va sets) hh he nw

theorem ycfence_row {va v : Nat} {o : HM} (he : ycfence (h, s.mem) n v va = o) (nw : NoWait o.1) :
    exec (.ycfence { hart := n, va := va } v) s = .next (s.routed o) :=
  onAll_waiting (f := fun hm => ycfence hm n v va) hh he nw

/-- A YCFENCE that does at this state what a FENCE does has its outcome. -/
theorem ycfence_as_fence {va v : Nat} (he : ycfence (h, s.mem) n v va = hartFence (h, s.mem) n va v) :
    exec (.ycfence { hart := n, va := va } v) s = exec (.fence n va v) s := by
  have e : waiting (fun hm => ycfence hm n v va) (h, s.mem) = waiting (fun hm => hartFence hm n va v) (h, s.mem) := by
    unfold waiting
    dsimp only
    rw [he]
  have e1 : exec (.ycfence { hart := n, va := va } v) s = onAll s (waiting (fun hm => ycfence hm n v va)) := rfl
  have e2 : exec (.fence n va v) s = onAll s (waiting (fun hm => hartFence hm n va v)) := rfl
  rw [e1, e2, onAll_routed hh e, onAll_routed hh rfl]

theorem stop_row {o : HM} (he : hartStop (h, s.mem) n = o) (nw : NoWait o.1) : exec (.stop n) s = .next (s.routed o) :=
  onAll_waiting (f := fun hm => hartStop hm n) hh he nw

theorem hartStart_row {k : Nat} {g : Hw} (he : hartStart h n k = g) : exec (.ymhartstart n k) s = .next (s.ended g) :=
  row_ended (g := hartStart (clearSent s.hw) n k) (hh ▸ he) rfl

theorem mnret_row {g : Hw} (he : mnret h n = g) : exec (.mnret n) s = .next (s.ended g) :=
  row_ended (g := mnret (clearSent s.hw) n) (hh ▸ he) rfl

theorem kntValue_row {va k : Nat} {o : HM} (he : kntValue (h, s.mem) { hart := n, va := va } k = o) (nw : NoWait o.1) :
    exec (.kntValue { hart := n, va := va } k) s = .next (s.routed o) :=
  onAll_waiting (f := fun hm => kntValue hm { hart := n, va := va } k) hh he nw

theorem xinvSync_row {o : HM} (he : xinvSync (h, s.mem) n = o) (nw : NoWait o.1) : exec (.slpXinvSync n) s = .next (s.routed o) :=
  onAll_waiting (f := fun hm => xinvSync hm n) hh he nw

end

/-- Settles O27: each ordering, stopping, starting and returning instruction has its own equation by the condition it finds. -/
theorem hartControlRows : Obligations.HartControlRows := by
  intro s h n hh
  have nw0 := cleared_noWait hh
  refine ⟨?fence, ?fenceLost, ?ycEmpty, ?ycIo, ?yc, ?stop, ?stopIllegal, ?start, ?startIgnored, ?startWakes, ?startWaits, ?startIllegal,
    ?mnretIllegal, ?mnret, ?mnretParked, ?knot, ?knotFault, ?sync, ?syncWaits⟩
  case fence => exact fun va sets o g run ho hb hg nw => fence_row hh (hartFence_drains run ho hb hg) nw
  case fenceLost => exact fun va sets o e run ho hb nw => fence_row hh (hartFence_lost run ho hb) nw
  case ycEmpty => exact fun v va run hv => ycfence_row hh (ycfence_empty run hv) nw0
  case ycIo => exact fun v va run h1 h2 hio => ycfence_as_fence hh (ycfence_io run h1 h2 hio)
  case yc =>
    intro v va o run ho h1 h2 hio
    exact ⟨fun h4 hb nw => ycfence_row hh (ycfence_drains run h1 h2 hio h4 ho hb) nw,
      fun e h4 hb nw => ycfence_row hh (ycfence_lost run h1 h2 hio h4 ho hb) nw,
      fun h4 => ycfence_row hh (ycfence_reads run h1 h2 hio h4) nw0⟩
  case stop => exact fun o run h3 ho nw => stop_row hh (hartStop_stops run h3 ho) (setHart_noWait _ _ nw)
  case stopIllegal => exact fun run h3 => stop_row hh (hartStop_illegal run h3) (takeTrap_noWait _ _ _ nw0)
  case start => exact fun k run h3 hk hne hown hstop hp hr => hartStart_row hh (hartStart_runs run h3 hk hne hown hstop hp hr)
  case startIgnored => exact fun k run h3 hk => hartStart_row hh (hartStart_ignored run h3 hk)
  case startWakes =>
    intro k run h3 hk hne hown hstop hp
    refine ⟨_, hartStart_row hh (hartStart_wakes run h3 hk hne hown hstop hp), ?_⟩
    subst hh
    have hs : ∀ x : Hart, hartAt (setHart (clearSent s.hw) k { x with startReq := true }) k = { x with startReq := true } := fun x =>
      hartAt_setHart_ne _ _ _ fun e => absurd (congrArg Hart.startReq e) (by simp)
    rw [State.ended, stepEnd_nil rfl rfl]
    refine ⟨?_, ?_, ?_, rfl⟩
    · exact (congrArg Hart.run (hs _)).trans hstop
    · exact congrArg Hart.startReq (hs _)
    · exact congrArg IslandState.power (islandAt_setIsland_ne _ _ _ fun e => IslandPower.noConfusion (congrArg IslandState.power e))
  case startWaits => exact fun k run h3 hk hne hown hstop ho hg => hartStart_row hh (hartStart_waits run h3 hk hne hown hstop ho hg)
  case startIllegal => exact fun k run h3 => hartStart_row hh (hartStart_illegal run h3)
  case mnretIllegal => exact fun hn hr h3 => mnret_row hh (mnret_illegal hn hr h3)
  case mnret => exact fun x hx hn hr h3 hp => mnret_row hh (mnret_returns hx hn hr h3 hp)
  case mnretParked => exact fun _ hr hf => mnret_row hh (mnret_parked hr hf)
  case knot =>
    exact fun va k v o g run hown ho hg nw hv => kntValue_row hh (kntValue_reads run hown ho hg hv) (setResult_noWait _ _ nw)
  case knotFault =>
    intro va k o g ca e run hown ho hg hv hca he nw
    subst he
    exact kntValue_row hh (kntValue_faults run hown ho hg hv hca) nw
  case sync => exact fun o g hn hown hi ho hg nw => xinvSync_row hh (xinvSync_zero hn hown hi ho hg) (setResult_noWait _ _ nw)
  case syncWaits => exact fun hi => xinvSync_row hh (xinvSync_waits hi) nw0

end Sys2Proof.Machine
end

/-! PROOFS. A line's home and its caching agents (Table 7.7, chapter 7): the checks that precede a request, the transactions of a line in
state I, and the answers to a snoop. -/
section
namespace Sys2Proof.Machine

/-! ### The checks that precede a request -/

section
variable {hm : HM} {k : ReqKind} {ag : Agent} {part a : Nat} {x : HomeAct} {q : DirReq}
  (hq : q = { kind := k, agent := ag, part := reqTag hm.1 ag part, act := { x with addr := a } })
include hq

theorem homeReq_io (hio : regionOf a ∈ [3, 4, 5]) :
    homeReq hm k ag part a x = match ag with | .remote _ => answered (ioReq hm q) q | _ => hm := by
  subst hq
  unfold homeReq
  dsimp only
  rw [if_pos hio] <;> cases ag <;> rfl

variable (hio : regionOf a ∉ [3, 4, 5])
include hio

theorem homeReq_refused (hk : k ≠ .writeBack)
    (hs : agentFenced hm.1 ag = true ∨ selRange hm.1 q.part a (if k = .atomicHome ∨ k = .atomicMem then max 1 x.size else 1)
      (writesLine k || decide (k = .readOwn)) = false) :
    homeReq hm k ag part a x =
      answered (answerWith (match ag with | .remote _ => hm.1 | _ => countRefusal hm.1 q.part) [] 3, hm.2) q := by
  subst hq
  unfold homeReq
  dsimp only
  rw [if_neg hio, if_pos ⟨hk, by rcases hs with h | h <;> simp [h]⟩]
  cases ag <;> rfl

variable (hs : k = .writeBack ∨ (agentFenced hm.1 ag = false ∧
  selRange hm.1 q.part a (if k = .atomicHome ∨ k = .atomicMem then max 1 x.size else 1) (writesLine k || decide (k = .readOwn)) = true))
include hs

/-- A request that passes the checks: the ghost responder, RETRY, a dead port, or the line's home. -/
theorem homeReq_passes : homeReq hm k ag part a x =
    if behindGhost hm.1 a then answered (ghostAnswer hm.1 (!writesLine k && decide (k ≠ ReqKind.writeBack)), hm.2) q
    else if lineRetries hm.1 (lineOf a) then (answerWith (holdReq hm.1 (lineOf a) q) [] 0, hm.2)
    else if portDead hm.1 a then answered (answerWith hm.1 (zeros 64) 2, hm.2) q
    else homeServe hm (lineOf a) q := by
  subst hq
  unfold homeReq
  dsimp only
  rw [if_neg hio, if_neg]
  rintro ⟨hk, hf⟩
  rcases hs with h | ⟨h1, h2⟩
  · exact hk h
  · dsimp only at h2
    rw [h1, h2] at hf
    exact absurd hf (by decide)

end

/-! ### A line in state I -/

/-- A home's hardware with other harts, directory, kept copies and MSHRs: what a read or a write of the coherent space does not look at. -/
def atHome (h : Hw) (t : Tab Hart) (d : Tab DirEntry) (ds : Tab CSet) (cp : Tab (List Byte)) (ms : Tab (List Mshr)) : Hw :=
  { h with
    harts := t
    coh := { h.coh with dir := d, dirSets := ds, copies := cp, mshrs := ms } }

section
variable (h : Hw) (t : Tab Hart) (d : Tab DirEntry) (ds : Tab CSet) (cp : Tab (List Byte)) (ms : Tab (List Mshr))

theorem dirAt_atHome (l : Nat) : dirAt (atHome h t d ds cp ms) l = tabGet {} d l := rfl

theorem lineCipher_atHome (a : Nat) : lineCipher (atHome h t d ds cp ms) a = lineCipher h a := rfl

theorem poisoned_atHome (a : Nat) : poisoned (atHome h t d ds cp ms) a = poisoned h a := rfl

theorem cohByte_atHome (m : Memory) (a : Nat) : cohByte (atHome h t d ds cp ms) m a = cohByte h m a := by
  unfold cohByte
  rw [lineCipher_atHome]
  rfl

theorem cohRead_atHome (m : Memory) (a n : Nat) : cohRead (atHome h t d ds cp ms) m a n = cohRead h m a n := by
  unfold cohRead
  simp only [cohByte_atHome]

theorem openLine_atHome (m : Memory) (l : Nat) :
    openLine (atHome h t d ds cp ms, m) l = (atHome (openLine (h, m) l).1 t d ds cp ms, (openLine (h, m) l).2) := by
  unfold openLine
  dsimp only
  rw [lineCipher_atHome]
  split
  · have hr : (atHome h t d ds cp ms).coh.restored = h.coh.restored := rfl
    rw [hr]
    split <;> rfl
  · rfl

theorem cohWrite_atHome (m : Memory) (a : Nat) (bs : List Byte) :
    cohWrite (atHome h t d ds cp ms, m) a bs = (atHome (cohWrite (h, m) a bs).1 t d ds cp ms, (cohWrite (h, m) a bs).2) := by
  have e : ∀ (l : List Nat) (h : Hw) (m : Memory), l.foldl openLine (atHome h t d ds cp ms, m) =
      (atHome (l.foldl openLine (h, m)).1 t d ds cp ms, (l.foldl openLine (h, m)).2) := by
    intro l
    induction l with
    | nil => exact fun _ _ => rfl
    | cons x l ih =>
      intro h m
      rw [List.foldl_cons, openLine_atHome, ih]
      rfl
  unfold cohWrite
  dsimp only
  rw [e]

theorem maskedWrite_atHome (m : Memory) (a : Nat) (bs : List Byte) (mask : Nat) :
    maskedWrite (atHome h t d ds cp ms, m) a bs mask = (atHome (maskedWrite (h, m) a bs mask).1 t d ds cp ms, (maskedWrite (h, m) a bs mask).2) := by
  unfold maskedWrite
  generalize (List.range (min 64 bs.length)).filter (bitOf mask) = l
  induction l generalizing h m with
  | nil => rfl
  | cons x l ih =>
    rw [List.foldl_cons, cohWrite_atHome, ih]
    rfl

end

theorem touchDir_atHome (h : Hw) (p l : Nat) : ∃ ds, touchDir h p l = atHome h h.harts h.coh.dir ds h.coh.copies h.coh.mshrs := by
  unfold touchDir
  split
  · exact ⟨_, rfl⟩
  · dsimp only
    split
    · exact ⟨_, rfl⟩
    · exact ⟨_, rfl⟩

theorem setDir_atHome (h : Hw) (l : Nat) (e : DirEntry) :
    ∃ ds cp, setDir h l e = atHome h h.harts (tabPut {} h.coh.dir l e) ds cp h.coh.mshrs := by
  obtain ⟨ds, eq⟩ := setDir_eq h l e
  exact ⟨_, _, eq⟩

/-- A fill with no miss outstanding serves nothing. -/
theorem fillMshrs_none {h : Hw} (hm : h.coh.mshrs = []) (l : Nat) (q : DirReq) : fillMshrs h l q = h := by
  have hany : ∀ k, (mshrsOf h k).any (fun m => decide (m.line = l)) = false := fun k => by simp [mshrsOf, hm, tabGet]
  have hlast : ({ h with coh := { h.coh with mshrs := tabMap [] h.coh.mshrs (fun k ms =>
      if agentCache q.agent k then ms.filter (fun m => decide (m.line ≠ l)) else ms) } } : Hw) = h := by
    rw [hm]
    show ({ h with coh := { h.coh with mshrs := [] } } : Hw) = h
    rw [← hm]
  unfold fillMshrs
  dsimp only
  split
  · rw [List.filter_eq_nil_iff.2 (fun k _ => by simp [hany])]
    exact hlast
  · rw [if_pos (.inr (.inr (by simp [hany])))]
    exact hlast
  · exact hlast

section
variable {h : Hw} {m : Memory} {line : Nat} {q : DirReq} (hd : dirAt h line = {}) (hr : reservedBy h line = none) (hag : ∀ r, q.agent ≠ .remote r)

include hd in
/-- No other package holds a line in state I. -/
theorem remoteSnoops_none : (remoteSnoops h (dirAt h line) q).2 = [] := by
  rw [hd]
  unfold remoteSnoops
  cases q.kind <;> simp [remoteHolders]

include hag in
theorem awaitsGrant_local : awaitsGrant q = false := by
  unfold awaitsGrant
  split
  · next r e => exact absurd e (hag r)
  · simp

include hag in
theorem answered_local (hm : HM) : answered hm q = hm := by
  unfold answered
  split
  · next r e => exact absurd e (hag r)
  · rfl

include hd hr in
/-- A read that keeps no entry and a write of a line in state I are served at once. -/
theorem serveReq_quiet (hk : needsEntry q.kind = false) :
    serveReq h line q = homeTurn (touchDir h (swatchAt h (line * 64)).owner line) line q := by
  have hres : resvDelays h line q = none := by
    unfold resvDelays
    rw [hr]
  have hheld : heldSnoop h line q = false := by
    unfold heldSnoop
    rw [hd]
    simp [holders]
  have hentry : entryFor h line q = some (touchDir h (swatchAt h (line * 64)).owner line) := if_neg (by simp [hk])
  have hbusy : (dirAt h line).busy = false := by rw [hd]
  unfold serveReq
  dsimp only
  rw [hbusy, hres, hheld, hentry]
  rfl

include hd hag in
/-- A request of this package at a line in state I is served with its data. -/
theorem homeServe_quiet {g : Hw} (hg : serveReq h line q = g) (hgd : (dirAt g line).queue = []) (hk : q.kind ≠ .writeBack) :
    homeServe (h, m) line q = homeData (if writesLine q.kind then dropResv g line none else g, m) line q := by
  unfold homeServe
  dsimp only
  rw [if_neg (by simp [remoteSnoops_none hd]), awaitsGrant_local hag, if_neg (by simp), hg, hgd, if_neg (by simp), if_neg (fun e => hk e.1),
    answered_local hag]

variable (hms : h.coh.mshrs = [])

include hd in
/-- The home's turn of a request at a line in state I is its action alone. -/
theorem homeTurn_quiet : homeTurn h line q = fillMshrs (homeAction h line q) line q := by
  have hl : loseFenced h line q = h := by
    unfold loseFenced
    rw [hd]
  unfold homeTurn
  dsimp only
  rw [if_pos (by simp [remoteSnoops_none hd]), hl]

include hd hr hms in
theorem serveReq_readOnce (hk : q.kind = .readOnce) : ∃ ds, serveReq h line q = atHome h h.harts h.coh.dir ds h.coh.copies [] := by
  obtain ⟨ds, e⟩ := touchDir_atHome h (swatchAt h (line * 64)).owner line
  rw [hms] at e
  refine ⟨ds, ?_⟩
  have ha : homeAction (atHome h h.harts h.coh.dir ds h.coh.copies []) line q = atHome h h.harts h.coh.dir ds h.coh.copies [] := by
    unfold homeAction
    rw [hk]
  rw [serveReq_quiet hd hr (by rw [hk]; rfl), e, homeTurn_quiet (by rw [dirAt_atHome]; exact hd), ha, fillMshrs_none rfl]

/-- A write ends every copy and the entry of its line. -/
theorem homeAction_write {h : Hw} {line : Nat} {q : DirReq} (hk : writesLine q.kind = true) :
    homeAction h line q = setDir (dropLocals h (holders (dirAt h line)) line) line
      { queue := (dirAt h line).queue, busy := (dirAt h line).busy } := by
  unfold homeAction
  generalize q.kind = k at hk
  cases k with
  | readShared => cases hk
  | readOwn => cases hk
  | readOnce => cases hk
  | writeBack => cases hk
  | writeLine => rfl
  | writePart => rfl
  | atomicHome => rfl
  | atomicMem => rfl

theorem needsEntry_write {k : ReqKind} (hk : writesLine k = true) : needsEntry k = false := by
  cases k <;> trivial

include hd hr hms in
/-- A write of a line in state I leaves no entry. -/
theorem serveReq_write (hk : writesLine q.kind = true) :
    ∃ ds cp, serveReq h line q = atHome h h.harts (tabPut {} h.coh.dir line {}) ds cp [] := by
  obtain ⟨ds, e⟩ := touchDir_atHome h (swatchAt h (line * 64)).owner line
  rw [hms] at e
  have hd1 : dirAt (atHome h h.harts h.coh.dir ds h.coh.copies []) line = {} := hd
  obtain ⟨ds', cp', e'⟩ := setDir_atHome (atHome h h.harts h.coh.dir ds h.coh.copies []) line {}
  refine ⟨ds', cp', ?_⟩
  have ha : homeAction (atHome h h.harts h.coh.dir ds h.coh.copies []) line q = atHome h h.harts (tabPut {} h.coh.dir line {}) ds' cp' [] := by
    have hz : holders ({} : DirEntry) = 0 := rfl
    rw [homeAction_write hk, hd1, hz, dropLocals_zero]
    exact e'
  rw [serveReq_quiet hd hr (needsEntry_write hk), e, homeTurn_quiet hd1, ha, fillMshrs_none rfl]

end

end Sys2Proof.Machine
end

section
namespace Sys2Proof.Machine

/-! ### What the home answers at a line in state I -/

theorem openLine_poison (hm : HM) (l : Nat) :
    ((openLine hm l).1.coh.poison, (openLine hm l).1.coh.swPoison) = (hm.1.coh.poison, hm.1.coh.swPoison) := by
  unfold openLine
  dsimp only
  split
  · split <;> rfl
  · rfl

theorem cohWrite_poison (hm : HM) (a : Nat) (bs : List Byte) :
    ((cohWrite hm a bs).1.coh.poison, (cohWrite hm a bs).1.coh.swPoison) = (hm.1.coh.poison, hm.1.coh.swPoison) :=
  List.foldlRecOn (motive := fun x : HM => (x.1.coh.poison, x.1.coh.swPoison) = (hm.1.coh.poison, hm.1.coh.swPoison)) _ _ rfl
    fun _ hx _ _ => (openLine_poison _ _).trans hx

theorem maskedWrite_poison (hm : HM) (a : Nat) (bs : List Byte) (mask : Nat) :
    ((maskedWrite hm a bs mask).1.coh.poison, (maskedWrite hm a bs mask).1.coh.swPoison) = (hm.1.coh.poison, hm.1.coh.swPoison) :=
  List.foldlRecOn (motive := fun x : HM => (x.1.coh.poison, x.1.coh.swPoison) = (hm.1.coh.poison, hm.1.coh.swPoison)) _ _ rfl
    fun _ hx _ _ => (cohWrite_poison _ _ _).trans hx

theorem poisoned_congr {g h : Hw} (e : (g.coh.poison, g.coh.swPoison) = (h.coh.poison, h.coh.swPoison)) (a : Nat) :
    poisoned g a = poisoned h a := by
  obtain ⟨e1, e2⟩ := Prod.mk.inj e
  unfold poisoned
  rw [e1, e2]

theorem lineOf_line (line : Nat) : lineOf (line * 64) = line := by
  unfold lineOf
  omega

theorem markPoison_dir (h : Hw) (a : Nat) : (markPoison h a).coh.dir = h.coh.dir := by
  unfold markPoison
  split
  · rfl
  · split <;> rfl

theorem dirAt_markPoison (h : Hw) (a l : Nat) : dirAt (markPoison h a) l = dirAt h l := by rw [dirAt, markPoison_dir, ← dirAt]

theorem dirAt_clearLine (h : Hw) (a l : Nat) : dirAt (clearLine h a) l = dirAt h l := rfl

theorem dirAt_answerWith (h : Hw) (bs : List Byte) (b l : Nat) : dirAt (answerWith h bs b) l = dirAt h l := rfl

theorem poisoned_answerWith (h : Hw) (bs : List Byte) (b a : Nat) : poisoned (answerWith h bs b) a = poisoned h a := rfl

theorem markPoison_of_poisoned {h : Hw} {a : Nat} (hp : poisoned h a = true) : markPoison h a = h := if_pos hp

theorem answerWith_answer (h : Hw) (bs : List Byte) (b : Nat) : (answerWith h bs b).coh.answer = bs ∧ (answerWith h bs b).coh.answerBad = b :=
  ⟨rfl, rfl⟩

theorem dropResv_atHome (h : Hw) (t : Tab Hart) (d : Tab DirEntry) (ds : Tab CSet) (cp : Tab (List Byte)) (ms : Tab (List Mshr)) (l : Nat)
    (k : Option Nat) : ∃ t', dropResv (atHome h t d ds cp ms) l k = atHome h t' d ds cp ms := ⟨_, rfl⟩

section
variable {h : Hw} {m : Memory} {line : Nat} {q : DirReq} (hd : dirAt h line = {}) (hr : reservedBy h line = none)
  (hag : ∀ r, q.agent ≠ .remote r) (hms : h.coh.mshrs = [])
include hd hr hag hms

/-- A READ_ONCE of a line in state I answers its bytes and touches nothing of it. -/
theorem homeServe_readOnce (hk : q.kind = .readOnce) :
    (homeServe (h, m) line q).1.coh.answer = cohRead h m (line * 64) 64 ∧
    (homeServe (h, m) line q).1.coh.answerBad = (if poisoned h (line * 64) then 2 else 0) ∧
    (homeServe (h, m) line q).2 = m ∧ dirAt (homeServe (h, m) line q).1 line = {} := by
  obtain ⟨ds, e⟩ := serveReq_readOnce hd hr hms hk
  have hd1 : dirAt (atHome h h.harts h.coh.dir ds h.coh.copies []) line = {} := hd
  rw [homeServe_quiet hd hag e (by rw [hd1]) (by rw [hk]; decide), hk, if_neg (by decide)]
  unfold homeData
  rw [hk]
  dsimp only
  rw [(answerWith_answer _ _ _).1, (answerWith_answer _ _ _).2, cohRead_atHome, poisoned_atHome, dirAt_answerWith]
  exact ⟨rfl, rfl, rfl, hd1⟩

variable (hwf : tabWf {} h.coh.dir = true)
include hwf

/-- A write or an atomic at a line in state I acts on what the line held, and leaves no entry. -/
theorem homeServe_writes (hk : writesLine q.kind = true) :
    ∃ t d ds cp, homeServe (h, m) line q = homeData (atHome h t d ds cp [], m) line q ∧ tabGet {} d line = {} := by
  obtain ⟨ds, cp, e⟩ := serveReq_write hd hr hms hk
  have hd1 : dirAt (atHome h h.harts (tabPut {} h.coh.dir line {}) ds cp []) line = {} := by
    rw [dirAt_atHome]
    exact tabGet_put_same _ _ _ hwf
  have hw : q.kind ≠ .writeBack := by
    intro hw
    rw [hw] at hk
    cases hk
  obtain ⟨t, et⟩ := dropResv_atHome h h.harts (tabPut {} h.coh.dir line {}) ds cp [] line none
  refine ⟨t, _, ds, cp, ?_, tabGet_put_same _ _ _ hwf⟩
  rw [homeServe_quiet hd hag e (by rw [hd1]) hw, if_pos hk, et]

theorem homeServe_writeLine (hk : q.kind = .writeLine) (hb : q.act.bytes.length = 64) (hp : q.act.poison = false) :
    (homeServe (h, m) line q).2 = (cohWrite (h, m) (line * 64) q.act.bytes).2 ∧ dirAt (homeServe (h, m) line q).1 line = {} ∧
    (tabWf false h.coh.poison = true → tabGet false (homeServe (h, m) line q).1.coh.poison line = false) := by
  obtain ⟨t, d, ds, cp, e, hd1⟩ := homeServe_writes (m := m) hd hr hag hms hwf (q := q) (by rw [hk]; rfl)
  rw [e]
  unfold homeData
  rw [hk]
  dsimp only
  rw [List.take_of_length_le (le_of_eq hb), cohWrite_atHome, hp, if_neg (by decide), if_pos (by omega), dirAt_answerWith, dirAt_clearLine,
    dirAt_atHome]
  refine ⟨rfl, hd1, fun hpw => ?_⟩
  have hpo := (Prod.mk.inj (cohWrite_poison (h, m) (line * 64) q.act.bytes)).1
  show tabGet false (tabPut false (cohWrite (h, m) (line * 64) q.act.bytes).1.coh.poison (lineOf (line * 64)) false) line = false
  rw [hpo, lineOf_line]
  exact tabGet_put_same _ _ _ hpw

theorem homeServe_writePart (hk : q.kind = .writePart) :
    (homeServe (h, m) line q).2 = (maskedWrite (h, m) (line * 64) q.act.bytes q.act.mask).2 ∧ dirAt (homeServe (h, m) line q).1 line = {} ∧
    (poisoned h (line * 64) = true → poisoned (homeServe (h, m) line q).1 (line * 64) = true) := by
  obtain ⟨t, d, ds, cp, e, hd1⟩ := homeServe_writes (m := m) hd hr hag hms hwf (q := q) (by rw [hk]; rfl)
  rw [e]
  unfold homeData
  rw [hk]
  dsimp only
  rw [maskedWrite_atHome, dirAt_answerWith, poisoned_answerWith]
  have hpo := poisoned_congr (maskedWrite_poison (h, m) (line * 64) q.act.bytes q.act.mask) (line * 64)
  split
  · rw [dirAt_markPoison, dirAt_atHome]
    refine ⟨rfl, hd1, fun hp => ?_⟩
    rw [markPoison_of_poisoned] <;> rw [poisoned_atHome, hpo, hp]
  · rw [dirAt_atHome, poisoned_atHome, hpo]
    exact ⟨rfl, hd1, id⟩

theorem homeServe_atomic {old : Nat} (hk : q.kind = .atomicHome ∨ q.kind = .atomicMem) (hp : poisoned h (line * 64) = false)
    (hold : old = leNat (cohRead h m q.act.addr q.act.size)) :
    (homeServe (h, m) line q).2 = (cohWrite (h, m) q.act.addr
      (leBytes q.act.size (atomicNew q.act.op q.act.size old q.act.operand q.act.compare))).2 ∧
    (homeServe (h, m) line q).1.coh.answer = leBytes q.act.size old ∧ (homeServe (h, m) line q).1.coh.answerBad = 0 := by
  obtain ⟨t, d, ds, cp, e, -⟩ := homeServe_writes (m := m) hd hr hag hms hwf (q := q) (by rcases hk with hk | hk <;> rw [hk] <;> rfl)
  have e' : homeData (atHome h t d ds cp [], m) line q =
      (answerWith (cohWrite (atHome h t d ds cp [], m) q.act.addr
        (leBytes q.act.size (atomicNew q.act.op q.act.size old q.act.operand q.act.compare))).1 (leBytes q.act.size old) 0,
        (cohWrite (atHome h t d ds cp [], m) q.act.addr
          (leBytes q.act.size (atomicNew q.act.op q.act.size old q.act.operand q.act.compare))).2) := by
    unfold homeData
    rcases hk with hk | hk <;>
    · rw [hk]
      dsimp only
      rw [poisoned_atHome, hp, if_neg (by decide), cohRead_atHome, ← hold]
  rw [e, e', cohWrite_atHome]
  exact ⟨rfl, answerWith_answer _ _ _⟩

theorem homeServe_atomicPoisoned (hk : q.kind = .atomicHome ∨ q.kind = .atomicMem) (hp : poisoned h (line * 64) = true) :
    (homeServe (h, m) line q).2 = m ∧ (homeServe (h, m) line q).1.coh.answerBad = 2 := by
  obtain ⟨t, d, ds, cp, e, -⟩ := homeServe_writes (m := m) hd hr hag hms hwf (q := q) (by rcases hk with hk | hk <;> rw [hk] <;> rfl)
  have e' : homeData (atHome h t d ds cp [], m) line q = (answerWith (atHome h t d ds cp []) [] 2, m) := by
    unfold homeData
    rcases hk with hk | hk <;>
    · rw [hk]
      dsimp only
      rw [poisoned_atHome, hp, if_pos rfl]
  rw [e, e']
  exact ⟨rfl, (answerWith_answer _ _ _).2⟩

end

/-! ### Snoops -/

section
variable {hm : HM} {ag : Agent} {a : Nat} {k : SnpKind}

theorem snoop_fenced (hf : agentFenced hm.1 ag = true) {e : Hw}
    (he : e = if (dirAt hm.1 (lineOf a)).owner = some ag then loseFenced hm.1 (lineOf a) { kind := .readOwn, agent := .other } else hm.1) :
    snoop hm ag a k =
      (answerWith (setDir (dropCopy e ag (lineOf a)) (lineOf a) (withoutAgent (dirAt e (lineOf a)) ag)) [] 0, hm.2) := by
  unfold snoop
  dsimp only
  rw [if_pos hf, he]

variable (hf : agentFenced hm.1 ag = false)
include hf

theorem snoop_gated (hg : agentGated hm.1 ag = true) : snoop hm ag a k = (answerWith hm.1 [] 0, hm.2) := by
  unfold snoop
  dsimp only
  rw [if_neg (by simp [hf]), if_pos hg]

variable (hg : agentGated hm.1 ag = false)
include hg

theorem snoop_retried {g : Hw} (hr : agentRetry hm.1 ag = some g) : snoop hm ag a k = (answerWith g [] 0, hm.2) := by
  unfold snoop
  dsimp only
  rw [if_neg (by simp [hf]), if_neg (by simp [hg]), hr]

variable (hr : agentRetry hm.1 ag = none)
include hr

theorem snoop_reserved {n : Nat} (hn : agentResv hm.1 ag (lineOf a) = some n) :
    snoop hm ag a k = (setHart hm.1 n { hartAt hm.1 n with resvHeld := true }, hm.2) := by
  unfold snoop
  dsimp only
  rw [if_neg (by simp [hf]), if_neg (by simp [hg]), hr, hn]

variable (hn : agentResv hm.1 ag (lineOf a) = none)
include hn

theorem snoop_notOwner (ho : (dirAt hm.1 (lineOf a)).owner ≠ some ag) :
    snoop hm ag a .once = (answerWith hm.1 [] 0, hm.2) ∧
    snoop hm ag a .toShared = (answerWith (setDir hm.1 (lineOf a) (dirAt hm.1 (lineOf a))) [] 0, hm.2) ∧
    snoop hm ag a .toInvalid =
      (answerWith (setDir (dropCopy hm.1 ag (lineOf a)) (lineOf a) (withoutAgent (dirAt hm.1 (lineOf a)) ag)) [] 0, hm.2) := by
  have hm' : decide ((dirAt hm.1 (lineOf a)).owner = some ag) = false := decide_eq_false ho
  refine ⟨?_, ?_, ?_⟩ <;>
  · unfold snoop
    dsimp only
    rw [if_neg (by simp [hf]), if_neg (by simp [hg]), hr, hn, hm']
    rfl

theorem snoop_owner {b : List Byte} {x : Nat} (hb : b = cohRead hm.1 hm.2 (lineOf a * 64) 64)
    (hx : x = if poisoned hm.1 (lineOf a * 64) then 2 else 0) (ho : (dirAt hm.1 (lineOf a)).owner = some ag) :
    snoop hm ag a .once = (answerWith hm.1 b x, hm.2) ∧
    snoop hm ag a .toShared = (answerWith (setDir hm.1 (lineOf a)
      (addSharer { dirAt hm.1 (lineOf a) with st := .s, owner := none, dirty := false } ag)) b x, hm.2) ∧
    snoop hm ag a .toInvalid =
      (answerWith (setDir (dropCopy hm.1 ag (lineOf a)) (lineOf a) (withoutAgent (dirAt hm.1 (lineOf a)) ag)) b x, hm.2) := by
  have hm' : decide ((dirAt hm.1 (lineOf a)).owner = some ag) = true := decide_eq_true ho
  refine ⟨?_, ?_, ?_⟩ <;>
  · unfold snoop
    dsimp only
    rw [if_neg (by simp [hf]), if_neg (by simp [hg]), hr, hn, hm', Bool.true_and, hb, hx]
    rfl

end

/-! ### The rows -/

section
variable {s : State} {h : Hw} (hh : h = clearSent s.hw)
include hh

theorem home_row {c : Instr} {k : ReqKind} {g : Agent} {p a : Nat} {x : HomeAct} {o : HM}
    (hc : exec c s = onAll s (fun hm => homeReq hm k g p a x)) (he : homeReq (h, s.mem) k g p a x = o) : exec c s = .next (s.routed o) :=
  hc.trans (onAll_routed (f := fun hm => homeReq hm k g p a x) hh he)

theorem snp_row {ag : Agent} {a : Nat} {k : SnpKind} {g : Hw} (he : snoop (h, s.mem) ag a k = (g, s.mem)) :
    exec (.snp ag a k) s = .next (s.ended g) :=
  onAll_routedHw (f := fun hm => snoop hm ag a k) hh he

end

/-- DAT of a whole line is a request at its home. -/
theorem onAll_dat {s : State} {b : List Byte} (hb : b.length = 64) (f : HM → HM) :
    onAll s (fun hm => if b.length ≠ 64 then hm else f hm) = onAll s f := by
  simp only [hb, ne_eq, not_true_eq_false, if_false]

/-- Each of the eight commands of Table 7.7 is a request at the home of its line. -/
theorem requests_are_homeReq {s : State} {c : Instr} {k : ReqKind} {ag g : Agent} {p a : Nat} {x : HomeAct}
    (hc : (c, k, g, x) ∈ ([(.readShared ag p a, .readShared, ag, {}), (.readOwn ag p a, .readOwn, ag, {}),
        (.readOnce ag p a, .readOnce, ag, {})] : List (Instr × ReqKind × Agent × HomeAct)) ∨
        (∃ b y, b.length = 64 ∧ (c, k, g, x) = (.writeLine ag p a b y, .writeLine, ag, { bytes := b, poison := y, grant := 2 })) ∨
        (∃ (b : List Byte) (m : W64) (y : Bool), b.length = 64 ∧
          (c, k, g, x) = (.writePart ag p a b m y, .writePart, ag, { bytes := b, mask := m.toNat, poison := y })) ∨
        (∃ op n v m, (c, k, g, x) = (.atomicHome ag p a op n v m, .atomicHome, ag, { op := op, size := n, operand := v, compare := m })) ∨
        (∃ op n v m, (c, k, g, x) = (.atomicMem p a op n v m, .atomicMem, Agent.other, { op := op, size := n, operand := v, compare := m })) ∨
        (∃ b y, b.length = 64 ∧ p = 31 ∧ (c, k, g, x) = (.writeBack ag a b y, .writeBack, ag, { bytes := b, poison := y, grant := 2 }))) :
    exec c s = onAll s (fun hm => homeReq hm k g p a x) := by
  rcases hc with hc | ⟨b, y, hb, e⟩ | ⟨b, m, y, hb, e⟩ | ⟨op, n, v, m, e⟩ | ⟨op, n, v, m, e⟩ | ⟨b, y, hb, hp, e⟩
  · simp only [List.mem_cons, List.not_mem_nil, or_false, Prod.mk.injEq] at hc
    obtain ⟨rfl, rfl, rfl, rfl⟩ | ⟨rfl, rfl, rfl, rfl⟩ | ⟨rfl, rfl, rfl, rfl⟩ := hc
    · rfl
    · rfl
    · rfl
  · cases e; exact onAll_dat hb (fun hm => homeReq hm _ _ p a _)
  · cases e; exact onAll_dat hb (fun hm => homeReq hm _ _ p a _)
  · cases e; rfl
  · cases e; rfl
  · cases e; subst hp; exact onAll_dat hb (fun hm => homeReq hm _ _ 31 a _)

/-- Settles O28: a request is checked and ends at the ghost, at RETRY, at a dead port or at its home, where a line in state I is served at
once; a snoop answers by its agent's state. -/
theorem homeRows : Obligations.HomeRows := by
  intro s h ag p a hh
  refine ⟨?requests, ?stateI, ?snoops, ?fenced, ?gated, ?retried, ?reserved⟩
  case requests =>
    intro c k g x q w hc hq hw
    have hrow := requests_are_homeReq (s := s) hc
    subst hw
    refine ⟨fun o hio hs hb hl hp ho => ?home, fun e hio hk hs he => ?refused, fun hio hs => ⟨fun hb => ?ghost, fun hb hl => ?retry,
      fun hb hl hp => ?dead⟩, fun hio hr => ?io, fun hio hr => ?ioHere⟩
    case home =>
      refine home_row hh hrow ?_
      rw [homeReq_passes (hm := (h, s.mem)) hq hio hs, if_neg (by simp [hb]), if_neg (by simp [hl]), if_neg (by simp [hp]), ho]
    case refused =>
      refine home_row hh hrow ?_
      rw [homeReq_refused (hm := (h, s.mem)) hq hio hk hs]
      rcases he with ⟨rfl, r, rfl⟩ | ⟨rfl, hr⟩
      · rfl
      · cases g with
        | remote r => exact absurd rfl (hr r)
        | l3 _ => rfl
        | slice _ => rfl
        | other => rfl
    case ghost =>
      refine home_row hh hrow ?_
      rw [homeReq_passes (hm := (h, s.mem)) hq hio hs, if_pos hb]
    case retry =>
      refine home_row hh hrow (o := (answerWith (holdReq h (lineOf a) q) [] 0, s.mem)) ?_
      rw [homeReq_passes (hm := (h, s.mem)) hq hio hs, if_neg (by simp [hb]), if_pos hl]
    case dead =>
      refine home_row hh hrow ?_
      rw [homeReq_passes (hm := (h, s.mem)) hq hio hs, if_neg (by simp [hb]), if_neg (by simp [hl]), if_pos hp]
    case io =>
      obtain ⟨r, rfl⟩ := hr
      exact home_row hh hrow (homeReq_io (hm := (h, s.mem)) hq hio)
    case ioHere =>
      refine home_row hh hrow (o := (h, s.mem)) ?_
      rw [homeReq_io (hm := (h, s.mem)) hq hio]
      cases g with
      | remote r => exact absurd rfl (hr r)
      | l3 _ => rfl
      | slice _ => rfl
      | other => rfl
  case stateI =>
    intro q line _ hd hr _ hag hwf hms
    exact ⟨homeServe_readOnce hd hr hag hms, homeServe_writeLine hd hr hag hms hwf, homeServe_writePart hd hr hag hms hwf,
      fun old hk hp hold => homeServe_atomic hd hr hag hms hwf hk hp hold, homeServe_atomicPoisoned hd hr hag hms hwf⟩
  case snoops =>
    intro line e b x hl hf hg hr hn he hb hx
    subst hl he
    refine ⟨fun ho => ?_, fun ho => ?_⟩
    · obtain ⟨e1, e2, e3⟩ := snoop_notOwner (hm := (h, s.mem)) hf hg hr hn ho
      exact ⟨snp_row hh e1, snp_row hh e2, snp_row hh e3⟩
    · obtain ⟨e1, e2, e3⟩ := snoop_owner (hm := (h, s.mem)) hf hg hr hn hb hx ho
      exact ⟨snp_row hh e1, snp_row hh e2, snp_row hh e3⟩
  case fenced =>
    intro k line e hl hf he
    subst hl
    exact snp_row hh (snoop_fenced (hm := (h, s.mem)) hf he)
  case gated => exact fun k hf hg => snp_row hh (snoop_gated (hm := (h, s.mem)) hf hg)
  case retried => exact fun k g hf hg hr => snp_row hh (snoop_retried (hm := (h, s.mem)) hf hg hr)
  case reserved =>
    intro n line hl hf hg hr hn k
    subst hl
    exact snp_row hh (snoop_reserved (hm := (h, s.mem)) hf hg hr hn)

end Sys2Proof.Machine
end

/-! PROOFS. ARCH_SET_BIND and ARCH_SET_UNBIND, ARCH_CENSUS, ARCH_CENSUS_READ and LINK_CONTROL (chapters 20 and 24): no step of an unbinding
changes who owns a unit, so its owners may be read before or after. -/
section
namespace Sys2Proof.Machine

/-! ### What leaves the ownable units alone -/

/-- The ownable units of the package. -/
def ownersOf (h : Hw) : Tab UnitOwn := h.sel.units

theorem ownersOf_of_sleepKept {g h : Hw} (e : sleepKept g = sleepKept h) : ownersOf g = ownersOf h := congrArg (fun x => x.2.2.1) e

theorem setCoh_units (h : Hw) (c : Coherence) : ownersOf { h with coh := c } = ownersOf h := rfl

theorem postSnoop_units (h : Hw) (l op p : Nat) : ownersOf (postSnoop h l op p) = ownersOf h := rfl

theorem setDir_units (h : Hw) (l : Nat) (e : DirEntry) : ownersOf (setDir h l e) = ownersOf h := congrArg Selvedge.units (setDir_sel h l e)

theorem setHart_units (h : Hw) (n : Nat) (x : Hart) : ownersOf (setHart h n x) = ownersOf h := rfl

theorem recordWrite_units (h : Hw) (r : FaultRec) : ownersOf (recordWrite h r) = ownersOf h := congrArg Selvedge.units (recordWrite_sel h r)

theorem markPoison_units (h : Hw) (a : Nat) : ownersOf (markPoison h a) = ownersOf h := by
  unfold markPoison
  split
  · rfl
  · split <;> rfl

theorem dropLocals_units (h : Hw) (v l : Nat) : ownersOf (dropLocals h v l) = ownersOf h :=
  (foldl_keeps ownersOf (fun g n => ownersOf_of_sleepKept (dropShelf_sleepKept g n l)) _ _).trans
    (foldl_keeps ownersOf (fun g n => ownersOf_of_sleepKept (dropL3_sleepKept g n l)) _ h)

theorem restoreLine_units (h : Hw) (l : Nat) : ownersOf (restoreLine h l) = ownersOf h := rfl

theorem loseFenced_units (h : Hw) (l : Nat) (q : DirReq) : ownersOf (loseFenced h l q) = ownersOf h := by
  unfold loseFenced
  dsimp only
  split
  · split
    · rw [recordWrite_units, markPoison_units, setDir_units, restoreLine_units, dropLocals_units]
    · rfl
  · rfl

theorem forgetLine_units (h : Hw) (l : Nat) : ownersOf (forgetLine h l) = ownersOf h := rfl

theorem recallRemote_units (h : Hw) (l op : Nat) (ps : List Nat) : ownersOf (recallRemote h l op ps) = ownersOf h := by
  unfold recallRemote
  dsimp only
  have e := foldl_keeps (f := fun h p => postSnoop h l op p) ownersOf (fun g p => postSnoop_units g l op p) ps h
  split
  · rw [forgetLine_units, e]
  · exact e

theorem askHolders_units (h : Hw) (l op : Nat) (ps : List Nat) (q : DirReq) : ownersOf (askHolders h l op ps q) = ownersOf h := by
  unfold askHolders
  dsimp only
  rw [setDir_units]
  exact foldl_keeps (f := fun h p => postSnoop h l op p) ownersOf (fun g p => postSnoop_units g l op p) ps h

theorem touchDir_units (h : Hw) (p l : Nat) : ownersOf (touchDir h p l) = ownersOf h := by
  obtain ⟨ds, e⟩ := touchDir_atHome h p l
  rw [e]
  rfl

theorem openLine_units (hm : HM) (l : Nat) : ownersOf (openLine hm l).1 = ownersOf hm.1 := by
  unfold openLine
  dsimp only
  split
  · split <;> rfl
  · rfl

theorem cohWrite_units (hm : HM) (a : Nat) (bs : List Byte) : ownersOf (cohWrite hm a bs).1 = ownersOf hm.1 :=
  List.foldlRecOn (motive := fun x : HM => ownersOf x.1 = ownersOf hm.1) _ _ rfl fun _ hx _ _ => (openLine_units _ _).trans hx

/-- A merge of no bytes, by which the home has a line's holders snooped for the package itself. -/
structure IsCollect (q : DirReq) : Prop where
  kind : q.kind = .writePart
  agent : q.agent = .other

section
variable {q : DirReq} (hq : IsCollect q)
include hq

theorem fillMshrs_units (h : Hw) (l : Nat) : ownersOf (fillMshrs h l q) = ownersOf h := by
  unfold fillMshrs
  rw [hq.agent]
  exact setCoh_units h _

theorem homeTurn_units (h : Hw) (l : Nat) : ownersOf (homeTurn h l q) = ownersOf h := by
  unfold homeTurn
  dsimp only
  rw [fillMshrs_units hq, homeAction_write (by rw [hq.kind]; rfl), setDir_units, dropLocals_units, loseFenced_units]
  split
  · rfl
  · exact recallRemote_units ..

theorem serveReq_units (h : Hw) (l : Nat) : ownersOf (serveReq h l q) = ownersOf h := by
  have he : entryFor h l q = some (touchDir h (swatchAt h (l * 64)).owner l) := if_neg (by rw [hq.kind]; decide)
  unfold serveReq
  dsimp only
  split
  · exact setDir_units ..
  split
  · exact (setDir_units ..).trans (setHart_units ..)
  split
  · exact setDir_units ..
  · rw [he]
    exact (homeTurn_units hq _ _).trans (touchDir_units ..)

theorem homeData_units (hm : HM) (l : Nat) : ownersOf (homeData hm l q).1 = ownersOf hm.1 := by
  have e : ownersOf (maskedWrite hm (l * 64) q.act.bytes q.act.mask).1 = ownersOf hm.1 :=
    List.foldlRecOn (motive := fun x : HM => ownersOf x.1 = ownersOf hm.1) _ _ rfl fun _ hx _ _ => (cohWrite_units _ _ _).trans hx
  unfold homeData
  rw [hq.kind]
  dsimp only
  split
  · exact (setCoh_units ..).trans ((markPoison_units ..).trans e)
  · exact (setCoh_units ..).trans e

/-- A line recalled for the package itself leaves every unit's owner. -/
theorem homeServe_units (hm : HM) (l : Nat) : ownersOf (homeServe hm l q).1 = ownersOf hm.1 := by
  have hag : ∀ r, q.agent ≠ .remote r := fun r => by rw [hq.agent]; exact fun e => by cases e
  have hdrop : ∀ (g : Hw) (b : Bool), ownersOf (if b then dropResv g l none else g) = ownersOf g := fun g b => by cases b <;> rfl
  unfold homeServe
  dsimp only
  split
  · exact (setCoh_units ..).trans (askHolders_units ..)
  rw [awaitsGrant_local hag, if_neg (by simp)]
  split
  · exact (setCoh_units ..).trans (serveReq_units hq ..)
  rw [if_neg (by rw [hq.kind]; exact fun e => by cases e.1), answered_local hag]
  exact (homeData_units hq _ _).trans ((hdrop _ _).trans (serveReq_units hq _ _))

end

theorem recallLines_units (hm : HM) (p : Nat → Bool) : ownersOf (recallLines hm p).1 = ownersOf hm.1 :=
  List.foldlRecOn (motive := fun x : HM => ownersOf x.1 = ownersOf hm.1) _ _ rfl fun x hx l _ =>
    (homeServe_units (q := { kind := .writePart, agent := .other, part := 31, act := { addr := l * 64, mask := 0 } }) ⟨rfl, rfl⟩ x l).trans hx

theorem endDesc_units (h : Hw) (s : Nat) (d : Desc) (a b : Nat) : ownersOf (endDesc h s d a b) = ownersOf h := by
  unfold endDesc
  dsimp only
  split <;> rfl

theorem postMsg_units (h : Hw) (s : Nat) (m : Msg) : ownersOf (postMsg h s m) = ownersOf h := rfl

theorem setKnot_units (h : Hw) (n : Nat) (k : Knot) : ownersOf (setKnot h n k) = ownersOf h := rfl

theorem breakKnot_units (h : Hw) (n : Nat) : ownersOf (breakKnot h n) = ownersOf h := by
  unfold breakKnot breakWaiters
  dsimp only
  rw [setKnot_units]
  refine (foldl_keeps ownersOf (fun g w => ?_) _ _).trans (setKnot_units ..)
  split
  · exact postMsg_units ..
  · split
    · exact endDesc_units ..
    · rfl

theorem breakCross_units (h : Hw) (p : Nat → Bool) : ownersOf (breakCross h p) = ownersOf h :=
  foldl_keeps (f := fun h (e : Nat × Knot) => breakKnot h e.1) ownersOf (fun g e => breakKnot_units g e.1) _ h

theorem giveUpProxies_units (h : Hw) (p : Nat → Proxy → Bool) (w : Bool) : ownersOf (giveUpProxies h p w) = ownersOf h :=
  ownersOf_of_sleepKept (giveUpProxies_sleepKept h p w)

theorem knotOwner_congr {g h : Hw} (e : ownersOf g = ownersOf h) : knotOwner g = knotOwner h := by
  have e' : g.sel.units = h.sel.units := e
  funext n
  unfold knotOwner unitHolder unitAt
  rw [e']

theorem slipOwner_congr {g h : Hw} (e : ownersOf g = ownersOf h) : slipOwner g = slipOwner h := by
  have e' : g.sel.units = h.sel.units := e
  funext n
  unfold slipOwner unitHolder unitAt
  rw [e']

/-! ### ARCH_SET_BIND -/

section
variable {h : Hw} {mem : Memory} {r : Req} (hp : partCheck h .steward (leAt r.payload 0 1) = none)
include hp

theorem archSetBind_unadmitted (ha : h.ident.admitted = false) : archSetBind (h, mem) r = ((h, mem), deny 0x20 0x101) := by
  unfold archSetBind
  dsimp only
  rw [hp]
  dsimp only
  rw [if_pos (by simp [ha])]

theorem archSetBind_admitted {b : Hw} {slot : Nat} {used : List (Nat × SetBind)} (ha : h.ident.admitted = true)
    (h0 : leAt r.payload 4 4 ≠ 0) (hf : leAt r.payload 4 4 ≠ 0xFFFFFFFF) (hu : used = h.arch.sets.filter (fun e => e.2.used))
    (hpair : ∀ e, e ∈ used → (e.2.set = leAt r.payload 4 4 ↔ e.2.part = leAt r.payload 0 1))
    (hs : slot = match used.find? (fun e => decide (e.2.part = leAt r.payload 0 1)) with
      | some e => e.1
      | none => ((List.range 17).find? (fun i => !(tabGet {} h.arch.sets i).used)).getD 17)
    {x : SetBind} (hx : x = { used := true, set := leAt r.payload 4 4, part := leAt r.payload 0 1, members := leAt r.payload 8 32 })
    (hb : b = { h with arch := { h.arch with sets := tabPut {} h.arch.sets slot x } }) :
    archSetBind (h, mem) r = if (liveSets b).length > 255 then ((h, mem), deny 0x40 0)
      else ((routeWaiting (syncStreams (broadcast b 0x12 [leAt r.payload 4 4, 1])), mem), doneC) := by
  have hany : used.any (fun e => decide (e.2.set = leAt r.payload 4 4) != decide (e.2.part = leAt r.payload 0 1)) = false :=
    List.any_eq_false.2 fun e he => by simp [hpair e he]
  unfold archSetBind
  dsimp only
  rw [hp]
  dsimp only
  rw [if_neg (by simp [ha]), if_neg (by simp [h0, hf]), ← hu, hany, if_neg (by simp), hb, hs, hx] <;> rfl

/-! ### ARCH_SET_UNBIND -/

theorem archSetUnbind_unbound (hn : ∀ e, e ∈ h.arch.sets → e.2.used = true → ¬(e.2.set = leAt r.payload 4 4 ∧ e.2.part = leAt r.payload 0 1)) :
    archSetUnbind (h, mem) r = ((h, mem), deny 0x20 0x102) := by
  have hany : h.arch.sets.any (fun e => e.2.used && decide (e.2.set = leAt r.payload 4 4 ∧ e.2.part = leAt r.payload 0 1)) = false :=
    List.any_eq_false.2 fun e he => by simpa using fun hu hset => fun hpart => hn e he hu ⟨hset, hpart⟩
  unfold archSetUnbind
  dsimp only
  rw [hp]
  dsimp only
  rw [hany]
  rfl

theorem archSetUnbind_bound {p set : Nat} {g u : Hw} {o : HM} (hep : p = leAt r.payload 0 1) (hes : set = leAt r.payload 4 4)
    (hb : ∃ e, e ∈ h.arch.sets ∧ e.2.used = true ∧ e.2.set = set ∧ e.2.part = p)
    (hg : g = giveUpProxies h (fun _ x => decide (x.part = p)) true)
    (ho : o = recallLines (g, mem) (fun l => decide ((swatchAt g (l * 64)).owner = p)))
    (hu : u = unbindDone (breakRemote (breakCross o.1 (fun n => decide (knotOwner o.1 n = p))) (fun q _ => decide (slipOwner
      (breakCross o.1 (fun n => decide (knotOwner o.1 n = p))) q = p))) p set) :
    archSetUnbind (h, mem) r = if u.arch.sets.any (fun e => e.2.used && decide (e.2.set = set ∧ e.2.part = p))
      then ((u, o.2), { commit := true, wait := .unbind p set }) else ((u, o.2), doneC) := by
  obtain ⟨e, hmem, hused, hset, hpart⟩ := hb
  have hany : h.arch.sets.any (fun e => e.2.used && decide (e.2.set = set ∧ e.2.part = p)) = true :=
    List.any_eq_true.2 ⟨e, hmem, by simp [hused, hset, hpart]⟩
  have hunits : ownersOf o.1 = ownersOf h := by rw [ho, recallLines_units, hg, giveUpProxies_units]
  rw [slipOwner_congr ((breakCross_units ..).trans hunits), knotOwner_congr hunits] at hu
  unfold archSetUnbind
  dsimp only
  rw [hp]
  dsimp only
  rw [← hep, ← hes, hany, if_neg (by simp), ← hg, ← ho, ← hu]

end

/-! ### The census -/

section
variable {h : Hw} {mem : Memory} {r : Req}

section
variable (ha : h.ident.admitted = true) (h1 : 1000 ≤ leAt r.payload 0 4) (h2 : leAt r.payload 0 4 ≤ 100000)
include ha h1 h2

theorem archCensus_busy (h4 : 4 ≤ (h.arch.censuses.filter (censusOpen h)).length) : archCensus (h, mem) r = ((h, mem), deny 0x11 0) := by
  unfold archCensus
  dsimp only
  rw [if_neg (by simp [ha]; omega), if_pos h4]

theorem archCensus_opens {lead n : Nat} (hl : lead = leAt r.payload 0 4) (hn : n = h.arch.censusSeq % 65536)
    (h4 : (h.arch.censuses.filter (censusOpen h)).length < 4) {cs : List Census}
    (hcs : cs = h.arch.censuses.filter (fun x => !decide (x.initiator = h.ident.position ∧ x.seq = n)) ++
      [{ initiator := h.ident.position, seq := n, ts := h.tb.now + 1000 * lead, lead := 1000 * lead }]) : archCensus (h, mem) r =
      ((broadcast { h with arch := { h.arch with censusSeq := h.arch.censusSeq + 1, censuses := cs } } 0x13
          [h.ident.position, n, h.tb.now + 1000 * lead], mem),
        { commit := true, wait := .census n, payload := leBytes 1 h.ident.position ++ zeros 1 ++ leBytes 2 n ++ zeros 4 }) := by
  subst hl hn hcs
  unfold archCensus
  dsimp only
  rw [if_neg (by simp [ha]; omega), if_neg (by omega)]

end

theorem archCensusRead_complete {c : Census} (hc : findCensus h (leAt r.payload 0 1) (leAt r.payload 2 2) = some c)
    (hi : c.initiator = h.ident.position) (ha : h.ident.admitted = true) (hd : c.done = true) :
    archCensusRead (h, mem) r = ((h, mem), doneQ (leBytes 1 1 ++ leBytes 1 c.marks.length ++ leBytes 2 256 ++ zeros 4
          ++ (List.range 8).flatMap (fun i => leBytes 1 (c.marks.getD i (0, 0)).1 ++ leBytes 1 (c.marks.getD i (0, 0)).2)
          ++ ((List.range 256).map (censusResult h c)).flatten)) := by
  have hlen : ((List.range 256).map (censusResult h c)).length = 256 := by rw [List.length_map, List.length_range]
  unfold archCensusRead
  dsimp only
  rw [hc]
  dsimp only
  rw [if_pos ⟨hi, ha⟩, if_pos hd, hlen]

theorem archCensusRead_sampled {c : Census} (hc : findCensus h (leAt r.payload 0 1) (leAt r.payload 2 2) = some c)
    (hi : c.initiator ≠ h.ident.position) (hs : c.sampled = true) :
    archCensusRead (h, mem) r =
      ((h, mem), doneQ (leBytes 1 2 ++ leBytes 1 0 ++ leBytes 2 1 ++ zeros 4 ++ zeros 16 ++ leBytes 32 c.mine)) := by
  have hmarks : (List.range 8).flatMap (fun i => leBytes 1 ((([] : List (Nat × Nat)).getD i (0, 0)).1) ++
      leBytes 1 ((([] : List (Nat × Nat)).getD i (0, 0)).2)) = zeros 16 := by decide
  unfold archCensusRead
  dsimp only
  rw [hc]
  dsimp only
  rw [if_neg (fun e => hi e.1), if_pos hs, hmarks]
  simp only [List.flatten_cons, List.flatten_nil, List.append_nil, List.length_nil, List.length_cons]

end

/-! ### LINK_CONTROL -/

section
variable {h : Hw} {mem : Memory} {r : Req} {n : Nat} {l : Link} (hn : n = leAt r.payload 0 1) (hc : n < portCount h) (hl : l = linkAt h n)
  (hw : waitsFor h (fun x => decide (x = Wait.link n)) = false)
include hn hc hl hw

theorem linkControl_disable (h0 : leAt r.payload 1 1 = 0) :
    linkControl (h, mem) r = ((setLink h n { l with st := .disabled, off := true, since := h.tb.now }, mem), doneC) := by
  unfold linkControl
  dsimp only
  rw [← hn, ← hl, hw, h0, if_neg (by omega)]
  rfl

theorem linkControl_enable (h1 : leAt r.payload 1 1 = 1) (ho : l.off = true) (ht : mayTrain h = true) :
    linkControl (h, mem) r =
      ((setLink h n { l with off := false, st := .training, since := h.tb.now }, mem), { commit := true, wait := .link n }) := by
  unfold linkControl
  dsimp only
  rw [← hn, ← hl, hw, h1, if_neg (by omega), if_neg (by simp)]
  show (if l.off ∧ mayTrain h then _ else _) = _
  rw [if_pos ⟨ho, ht⟩]

theorem linkControl_retrain (h2 : leAt r.payload 1 1 = 2) (hst : l.st = .active) :
    linkControl (h, mem) r =
      ((setLink h n { l with st := .retraining, since := h.tb.now }, mem), { commit := true, wait := .link n }) := by
  unfold linkControl
  dsimp only
  rw [← hn, ← hl, hw, h2, hst, if_neg (by omega)]
  rfl

end

/-- A served command that commits with an answer and waits, and leaves the byte memory alone. -/
theorem onAll_serve_waitAnswer {s : State} {h e : Hw} {m : Mbx} {tag code : Nat} {r : Req} {f : HM → Req → HM × Reply} {p : List Byte} {w : Wait}
    (hh : h = clearSent s.hw) (hs : Serving s m tag code r)
    (hf : f (h, s.mem) r = ((e, s.mem), { payload := p, commit := true, wait := w })) (hw : w ≠ .none) :
    onAll s (fun hm => serve hm m tag code f) = .next (s.ended (waitCommand h e m r w p)) :=
  onAll_routedHw hh (serve_wait hh hs f hf hw)

/-- Settles O30: each command's reply and effect, by the condition it finds. -/
theorem archSetCensusLinkCommands : Obligations.ArchSetCensusLinkCommands := by
  intro s h m tag r hh
  refine ⟨?unadmitted, ?bind, ?unbound, ?unbind, ?busy, ?opens, ?read, ?link⟩
  case unadmitted => exact fun hs hp ha => onAll_serve_deny (f := archSetBind) hh hs (archSetBind_unadmitted hp ha)
  case bind =>
    intro p set used slot b hs hep hes hp ha h0 hf hu hpair hslot hb
    subst hep hes
    have e := archSetBind_admitted (mem := s.mem) hp ha h0 hf hu hpair hslot rfl hb
    refine ⟨fun hlen => ?_, fun hlen => ?_⟩
    · rw [if_pos hlen] at e
      exact onAll_serve_deny (f := archSetBind) hh hs e
    · rw [if_neg (by omega)] at e
      exact onAll_serve_done (f := archSetBind) hh hs e
  case unbound => exact fun hs hp hn => onAll_serve_deny (f := archSetUnbind) hh hs (archSetUnbind_unbound hp hn)
  case unbind =>
    intro p set g u o hs hep hes hp hb hg ho hu
    have e := archSetUnbind_bound (mem := s.mem) (r := r) (by rw [← hep]; exact hp) hep hes hb hg ho hu
    split at e
    · next hany =>
      rw [if_pos hany]
      exact onAll_serve_waitAll (f := archSetUnbind) hh hs e (by simp)
    · next hany =>
      rw [if_neg hany]
      exact onAll_serve_doneAll (hm := (u, o.2)) (p := []) (f := archSetUnbind) hh hs e
  case busy => exact fun hs ha h1 h2 h4 => onAll_serve_deny (f := archCensus) hh hs (archCensus_busy ha h1 h2 h4)
  case opens =>
    intro lead n hs hl hn ha h1 h2 h4
    have e := archCensus_opens (mem := s.mem) ha (hl ▸ h1) (hl ▸ h2) hl hn h4 rfl
    exact onAll_serve_waitAnswer (f := archCensus) hh hs e (by simp)
  case read =>
    intro c hs hc
    exact ⟨fun hi ha hd => onAll_serve_query (f := archCensusRead) hh hs (archCensusRead_complete hc hi ha hd),
      fun hi hsam => onAll_serve_query (f := archCensusRead) hh hs (archCensusRead_sampled hc hi hsam)⟩
  case link =>
    intro n l hs hn hc hl hw
    exact ⟨fun h0 => onAll_serve_done (f := linkControl) hh hs (linkControl_disable hn hc hl hw h0),
      fun h1 ho ht => onAll_serve_wait (f := linkControl) hh hs (linkControl_enable hn hc hl hw h1 ho ht) (by simp),
      fun h2 hst => onAll_serve_wait (f := linkControl) hh hs (linkControl_retrain hn hc hl hw h2 hst) (by simp)⟩

end Sys2Proof.Machine
end

/-! PROOFS. The causeway (chapter 20): which frames are heard and forwarded, PRESENCE, JOIN, carrier, and the break of a port. -/
section
namespace Sys2Proof.Machine

/-! ### Reception -/

section
variable {h : Hw} {c : Cw} {ty : Nat} {body : List Nat}

theorem recvFrame_unheard (w : FrameWay) (hh : heard h c ty = false) : recvFrame h c ty w body = (h, false) := by
  unfold recvFrame
  rw [if_pos (by simp [hh])]

theorem recvFrame_conflict (hh : heard h c ty = true) (hc : archConflict h c = true) :
    recvFrame h c ty .broadcast body = (memberDoubt h 0 0 0x090C c.archId 0, false) := by
  unfold recvFrame
  rw [if_neg (by simp [hh]), if_neg (fun e => by cases e.1), if_pos hc]

variable (hh : heard h c ty = true) (hc : archConflict h c = false) (hp : positionClash h c = false)
include hh hc hp

/-- A broadcast that is heard tells of the ring, and goes on unless it is a copy sent again of one already seen. -/
theorem recvFrame_broadcast : recvFrame h c ty .broadcast body =
    if seenBefore h c && c.resent then (noteFrame h c, false)
    else (forwardFrame (markSeen (noteFrame h c) c) c ty .broadcast body, !seenBefore h c && !positionClash h c) := by
  unfold recvFrame
  rw [if_neg (by simp [hh]), if_neg (fun e => by cases e.1), if_neg (by simp [hc]), if_neg (by simp [hp])]

theorem onFrame_repeated (hs : (c.tag, c.seq) ∈ h.arch.seen) (hr : c.resent = true) : onFrame h c ty .broadcast body id = noteFrame h c := by
  have hs' : seenBefore h c = true := decide_eq_true hs
  have e : recvFrame h c ty .broadcast body = (noteFrame h c, false) :=
    (recvFrame_broadcast hh hc hp).trans (if_pos (by simp [hs', hr]))
  unfold onFrame
  rw [e]
  exact if_neg (by simp)

theorem onFrame_forwards (hs : (c.tag, c.seq) ∉ h.arch.seen ∨ c.resent = false) :
    onFrame h c ty .broadcast body id = forwardFrame (markSeen (noteFrame h c) c) c ty .broadcast body := by
  have hs' : (seenBefore h c && c.resent) = false := by
    rcases hs with hs | hs
    · simp [seenBefore, hs]
    · simp [hs]
  have e := (recvFrame_broadcast (ty := ty) (body := body) hh hc hp).trans (if_neg (by simp [hs']))
  unfold onFrame
  rw [e]
  exact ite_self _

end

theorem onFrame_unheard {h : Hw} {c : Cw} {ty : Nat} {body : List Nat} (hh : heard h c ty = false) : onFrame h c ty .broadcast body id = h := by
  unfold onFrame
  rw [recvFrame_unheard _ hh]
  exact if_neg (by simp)

theorem onFrame_conflict {h : Hw} {c : Cw} {ty : Nat} {body : List Nat} (hh : heard h c ty = true) (hc : archConflict h c = true) :
    onFrame h c ty .broadcast body id = memberDoubt h 0 0 0x090C c.archId 0 := by
  unfold onFrame
  rw [recvFrame_conflict hh hc]
  exact if_neg (by simp)

/-- A broadcast that goes on leaves by the opposite port with HOPS one greater, or is dropped there. -/
theorem forwardFrame_broadcast (g : Hw) (c : Cw) (ty : Nat) (body : List Nat) :
    forwardFrame (markSeen g c) c ty .broadcast body = { g with
          arch := { g.arch with
          seen := ((c.tag, c.seq) :: g.arch.seen).take 1024,
          sent := if (cwPort g (otherPort c.port)).broken then g.arch.sent else g.arch.sent ++ [{
            type := ty, ports := otherPort c.port + 1, resent := c.resent, origin := c.origin, hops := (c.hops + 1) % 256, seq := c.seq,
            archId := c.archId, tag := c.tag, dest := 0, tb := c.tb, holdover := c.holdover, fenced := c.fenced,
            unadmitted := c.unadmitted, body := body }] } } := by
  have hb : cwPort (markSeen g c) (otherPort c.port) = cwPort g (otherPort c.port) := rfl
  unfold forwardFrame
  dsimp only
  rw [hb]
  split
  · rfl
  · rfl

theorem joins_reserved {ty : Nat} (hty : 0x17 < ty) : joins ty = false := decide_eq_false (by omega)

theorem heard_eq (h : Hw) (c : Cw) {ty : Nat} (hty : 0x17 < ty) :
    heard h c ty = (h.arch.running && (decide (c.hops ≠ 0) || (cwPort h c.port).joined) && decide (c.tag ≠ Config.deviceTag.toNat)) := by
  unfold heard
  rw [joins_reserved hty, Bool.or_false]

/-- Settles O31: what makes a frame unheard, a conflict, a repetition or one that goes on. -/
theorem causewayReception : Obligations.CausewayReception := by
  intro s h c ty body hh hty
  have hrow : ∀ k b g, (if b && decide (k = 0 ∨ k > 0x17) then onFrame h c k .broadcast body id else h) = g →
      exec (.causewayFrameUnprocessed c k b body) s = .next (s.ended g) := fun k b g e => row_ended (hh ▸ e) rfl
  have hidle : ∀ k b, (if b && decide (k = 0 ∨ k > 0x17) then onFrame h c k .broadcast body id else h) = h →
      exec (.causewayFrameUnprocessed c k b body) s = .next (s.withHw h) := fun k b e => by
    rw [hrow k b h e, State.ended, hh, stepEnd_nil rfl rfl]
  have hres : ∀ g, onFrame h c ty .broadcast body id = g →
      (if true && decide (ty = 0 ∨ ty > 0x17) then onFrame h c ty .broadcast body id else h) = g := fun g e =>
    (if_pos (by simp; omega)).trans e
  have hheard := heard_eq h c hty
  refine ⟨?crc, ?known, ?stopped, ?own, ?unjoined, ?conflict, ?other⟩
  case crc => exact fun k => hidle k false (if_neg (by simp))
  case known => exact fun k h0 h1 => hidle k true (if_neg (by simp; omega))
  case stopped => exact fun hr => hidle ty true (hres _ (onFrame_unheard (by simp [hheard, hr])))
  case own => exact fun ht => hidle ty true (hres _ (onFrame_unheard (by simp [hheard, ht])))
  case unjoined => exact fun h0 hj => hidle ty true (hres _ (onFrame_unheard (by simp [hheard, h0, hj])))
  case conflict =>
    intro hr ht hj ha h0 hne
    have hy : heard h c ty = true := by
      rw [hheard]
      rcases hj with hj | hj <;> simp [hr, ht, hj]
    exact hrow ty true _ (hres _ (onFrame_conflict hy (by simp [archConflict, ha, h0, hne])))
  case other =>
    intro g hr ht hj hc hp hg
    have hy : heard h c ty = true := by
      rw [hheard]
      rcases hj with hj | hj <;> simp [hr, ht, hj]
    subst hg
    refine ⟨fun hs hre => hrow ty true _ (hres _ (onFrame_repeated hy hc hp hs hre)), fun hs => hrow ty true _ (hres _ ?_)⟩
    rw [onFrame_forwards hy hc hp hs]
    exact forwardFrame_broadcast _ _ _ _

end Sys2Proof.Machine
end

/-! PROOFS. PRESENCE, JOIN, causeway carrier, and the break of a causeway port with all that it tells the package (chapter 20). -/
section
namespace Sys2Proof.Machine

/-! ### PRESENCE -/

/-- A tick with no role pass outstanding sends PRESENCE on the hardware as it stands. -/
theorem presenceTick_eq {h a b : Hw} (hr : h.arch.running = true) (hp : h.arch.rolePend = [])
    (ha : a = { h with
                   tb := { h.tb with now := max h.tb.now (h.arch.presAt + 1000000) },
                   arch := { h.arch with presAt := max h.tb.now (h.arch.presAt + 1000000) } })
    (hb : b = sendFrame a (presenceFrame a ([ownRoles a, (ownUp a).length] ++ ownUp a ++ [(ownDown a).length] ++ ownDown a ++ [a.arch.memSeq]))) :
    presenceTick h = issuePlan (if pkgFenced b || memberFenced b then broadcast b 0x0D [] else b) := by
  have e : passRoles a = a := by
    have hpa : a.arch.rolePend = [] := by rw [ha]; exact hp
    unfold passRoles
    dsimp only
    rw [hpa, List.filter_nil, List.filter_nil, List.foldl_nil, ← hpa]
  have ea : { advanceTo h (h.arch.presAt + 1000000) with
      arch := { (advanceTo h (h.arch.presAt + 1000000)).arch with presAt := (advanceTo h (h.arch.presAt + 1000000)).tb.now } } = a := by
    rw [ha]
    rfl
  unfold presenceTick
  rw [if_pos hr]
  dsimp only
  rw [ea, e, ← hb]

theorem issuePlan_none {h : Hw} (hr : holdsRole h 1 = false) : issuePlan h = h := by
  unfold issuePlan
  dsimp only
  rw [if_neg (by simp [hr])]

/-- A frame of a member of the table teaches nothing. -/
theorem learnMember_known {h : Hw} {c : Cw} (hm : fromMember h c = true) : learnMember h c = h := by
  have hst : (memberAt h c.origin).st ≠ MemberSt.none := by
    unfold fromMember at hm
    simp only [Bool.and_eq_true, decide_eq_true_eq] at hm
    exact hm.1.2
  have hf : idFree h c.origin = false := by
    unfold idFree
    rw [decide_eq_false hst, Bool.false_and]
  unfold learnMember
  rw [if_neg (by simp [hf])]

theorem onPresence_newcomer {g : Hw} {c : Cw} {p : Presence} (hu : c.unadmitted = true) (hn : c.tag ∉ g.arch.newcomers)
    (hl : g.arch.newcomers.length < 16) :
    onPresence g c p = { g with arch := { g.arch with newcomers := g.arch.newcomers ++ [c.tag] } } := by
  unfold onPresence
  rw [if_pos hu, if_neg]
  rintro (e | e)
  · exact hn e
  · omega

theorem onPresence_full {g : Hw} {c : Cw} {p : Presence} (hu : c.unadmitted = true)
    (hn : c.tag ∈ g.arch.newcomers ∨ 16 ≤ g.arch.newcomers.length) : onPresence g c p = g := by
  unfold onPresence
  rw [if_pos hu, if_pos hn]

theorem onPresence_member {g : Hw} {c : Cw} {p : Presence} (hu : c.unadmitted = false) (hr : p.roles % 4 = 0) (hm : fromMember g c = true) :
    onPresence g c p = confirmFreeing
        (setMember g c.origin { memberAt g c.origin with lastSeen := g.tb.now, applied := p.applied, upTo := p.upTo, downTo := p.downTo })
        c.origin p.applied := by
  have h0 : bitOf p.roles 0 = false := by
    rw [bitOf, Nat.testBit_zero]
    exact decide_eq_false (by omega)
  have h1 : bitOf p.roles 1 = false := by
    rw [bitOf, Nat.testBit_succ, Nat.testBit_zero]
    exact decide_eq_false (by omega)
  unfold onPresence
  rw [if_neg (by simp [hu])]
  dsimp only
  rw [learnMember_known hm, if_pos hm, h0, h1]
  rfl

/-! ### JOIN and carrier -/

theorem portJoined_whole {g : Hw} {p : Nat} (hb : (cwPort g p).broken = false) :
    portJoined g p = setCwPort g p { cwPort g p with joined := true, broken := false, wasUp := false } := by
  unfold portJoined
  dsimp only
  rw [if_neg (by simp [hb])]

theorem onJoin_accepts {g : Hw} {c : Cw} (hc : (cwPort g c.port).carrier = true) (hj : g.arch.joinOk = true) :
    onJoin g c = portJoined (toNeighbour g 0x03 (if c.port = 0 then 0 else 1) [1]) c.port := by
  unfold onJoin
  rw [if_neg (by simp [hc]), if_pos hj]

theorem onJoin_busy {g : Hw} {c : Cw} (hc : (cwPort g c.port).carrier = true) (hj : g.arch.joinOk = false) :
    onJoin g c = toNeighbour g 0x03 (if c.port = 0 then 0 else 1) [0] := by
  unfold onJoin
  rw [if_neg (by simp [hc]), if_neg (by simp [hj])]

theorem portCarrier_quiet {h : Hw} {n : Nat} (hj : h.arch.running = false ∨ h.arch.joinOk = false) :
    portCarrier h n = setCwPort h n { cwPort h n with carrier := true } := by
  unfold portCarrier
  refine if_neg ?_
  unfold setCwPort
  split <;> rcases hj with e | e <;> simp [e]

theorem portCarrier_joins {h : Hw} {n : Nat} (hr : h.arch.running = true) (hj : h.arch.joinOk = true) :
    portCarrier h n = toNeighbour (setCwPort h n { cwPort h n with carrier := true }) 0x02 (if n = 0 then 0 else 1) [] := by
  unfold portCarrier
  refine if_pos ?_
  unfold setCwPort
  split <;> simp [hr, hj]

/-! ### The break of a port -/

/-- What the break of a port has set: the ports of the causeway, the breaks, the run of TIME frames, and the time base. -/
def ringKept (h : Hw) : CwPort × CwPort × List (Nat × Nat) × Nat × TimeBase :=
  (h.arch.east, h.arch.west, h.arch.breaks, h.arch.timeRun, h.tb)

theorem cwPort_kept {g h : Hw} (e : ringKept g = ringKept h) (n : Nat) : cwPort g n = cwPort h n := by
  simp only [ringKept, Prod.mk.injEq] at e
  unfold cwPort
  rw [e.1, e.2.1]

/-- Later work leaves what the break has set, and every frame already sent. -/
structure AfterBreak (g h : Hw) : Prop where
  ring : ringKept g = ringKept h
  sent : ∀ f, f ∈ h.arch.sent → f ∈ g.arch.sent
  posted : g.arch.posted = h.arch.posted

theorem AfterBreak.refl (h : Hw) : AfterBreak h h := ⟨rfl, fun _ => id, rfl⟩

theorem AfterBreak.trans {g k h : Hw} (a : AfterBreak g k) (b : AfterBreak k h) : AfterBreak g h :=
  ⟨a.ring.trans b.ring, fun f hf => a.sent f (b.sent f hf), a.posted.trans b.posted⟩

/-- Hardware with the same causeway and time base. -/
theorem afterBreak_of_eq {g h : Hw} (ha : g.arch = h.arch) (ht : g.tb = h.tb) : AfterBreak g h := by
  refine ⟨?_, fun f => ?_, by rw [ha]⟩
  · unfold ringKept
    rw [ha, ht]
  · rw [ha]
    exact id

theorem sendFrame_afterBreak (h : Hw) (f : CwFrame) : AfterBreak (sendFrame h f) h := ⟨rfl, fun _ => List.mem_append_left _, rfl⟩

theorem keepFrame_afterBreak (h : Hw) (f : CwFrame) : AfterBreak (keepFrame h f) h := ⟨rfl, fun _ => id, rfl⟩

theorem broadcast_afterBreak (h : Hw) (ty : Nat) (b : List Nat) : AfterBreak (broadcast h ty b) h := by
  unfold broadcast
  split
  · exact sendFrame_afterBreak _ _
  · exact .refl h

theorem direct_afterBreak (h : Hw) (ty d : Nat) (b : List Nat) : AfterBreak (direct h ty d b) h := by
  unfold direct
  split
  · exact (keepFrame_afterBreak _ _).trans (sendFrame_afterBreak _ _)
  · exact .refl h

theorem recordWrite_afterBreak (h : Hw) (r : FaultRec) : AfterBreak (recordWrite h r) h :=
  afterBreak_of_eq (recordWrite_arch h r) (recordWrite_tb h r)

theorem dropIns_afterBreak (h : Hw) : AfterBreak (dropIns h) h := ⟨rfl, fun _ => id, rfl⟩

theorem setCensus_afterBreak (h : Hw) (c : Census) : AfterBreak (setCensus h c) h := ⟨rfl, fun _ => id, rfl⟩

theorem censusMark_afterBreak (h : Hw) (c : Census) (n : Nat) : AfterBreak (censusMark h c n) h := by
  unfold censusMark
  dsimp only
  split
  · exact setCensus_afterBreak _ _
  · exact direct_afterBreak _ _ _ _

theorem writeReport_afterBreak (h : Hw) (a b c d : Nat) : AfterBreak (writeReport h a b c d) h := by
  unfold writeReport
  dsimp only
  refine List.foldlRecOn (motive := fun g => AfterBreak g h) _ _ ?_ fun g hg p _ => (recordWrite_afterBreak _ _).trans hg
  exact (recordWrite_afterBreak _ _).trans (afterBreak_of_eq rfl rfl)

theorem wakeUp_afterBreak (h : Hw) : AfterBreak (wakeUp h) h := by
  unfold wakeUp exitTrigger
  split
  · split
    · exact afterBreak_of_eq rfl rfl
    · exact (writeReport_afterBreak _ _ _ _ _).trans (afterBreak_of_eq rfl rfl)
    · exact afterBreak_of_eq rfl rfl
  · exact .refl h

theorem stepEnd_afterBreak {h : Hw} (hp : h.arch.posted = []) : AfterBreak (stepEnd h) h := by
  have hw := wakeUp_afterBreak h
  unfold stepEnd
  rw [routeOut_nil (hw.posted.trans hp)]
  exact hw

/-- A causeway that enters holdover: its time base is in holdover, and nothing else of the ring changes. -/
theorem causewayHold_admitted {h : Hw} (ha : h.ident.admitted = true) :
    (causewayHold h).tb.holdover = true ∧ (causewayHold h).tb.netHold = true ∧
    (causewayHold h).arch = { h.arch with timeRun := 0 } ∧ (causewayHold h).ident = h.ident ∧ (causewayHold h).arch.running = h.arch.running := by
  have e : causewayHold h = enterHoldover { h with arch := { h.arch with timeRun := 0 }, tb := { h.tb with netHold := true } } := by
    unfold causewayHold
    exact if_pos ha
  rw [e]
  unfold enterHoldover
  split
  · next hh => exact ⟨hh, rfl, rfl, rfl, rfl⟩
  · have hr : ∀ (g : Hw) (r : FaultRec), (dropIns (recordWrite g r)).tb = g.tb ∧ (dropIns (recordWrite g r)).arch = g.arch ∧
        (dropIns (recordWrite g r)).ident = g.ident := fun g r => ⟨recordWrite_tb g r, recordWrite_arch g r, recordWrite_ident g r⟩
    refine ⟨?_, ?_, ?_, ?_, ?_⟩
    · rw [(hr _ _).1]
    · rw [(hr _ _).1]
    · rw [(hr _ _).2.1]
    · rw [(hr _ _).2.2]
    · rw [(hr _ _).2.1]

/-- The causeway port `n` broken, the frames of the last 20 us sent again by the other. -/
def portCut (h : Hw) (n : Nat) : Hw :=
  let h1 := setCwPort h n { cwPort h n with carrier := false, joined := false, broken := true, wasUp := (cwPort h n).joined }
  let again := h1.arch.recent.filter (fun f => decide (h1.tb.now ≤ f.1 + 20000) && bitOf f.2.ports n)
  { h1 with arch := { h1.arch with sent := h1.arch.sent ++ again.map (fun f => { f.2 with resent := true, ports := otherPort n + 1 }) } }

section
variable {h : Hw} {n : Nat} (hn : n < 2)

theorem portCut_keeps (h : Hw) (n : Nat) : (portCut h n).ident = h.ident ∧ (portCut h n).tb = h.tb ∧ (portCut h n).arch.running = h.arch.running ∧
    (portCut h n).arch.posted = h.arch.posted := by
  unfold portCut setCwPort
  split <;> exact ⟨rfl, rfl, rfl, rfl⟩

theorem portCut_port (h : Hw) (n : Nat) : cwPort (portCut h n) n =
    { cwPort h n with carrier := false, joined := false, broken := true, wasUp := (cwPort h n).joined } :=
  cwPort_setCwPort_same h n _

theorem portCut_resends {f : Nat × CwFrame} (hf : f ∈ h.arch.recent) (ht : h.tb.now ≤ f.1 + 20000) (hb : bitOf f.2.ports n = true) :
    { f.2 with resent := true, ports := otherPort n + 1 } ∈ (portCut h n).arch.sent := by
  unfold portCut
  dsimp only
  refine List.mem_append_right _ (List.mem_map.2 ⟨f, List.mem_filter.2 ⟨?_, ?_⟩, rfl⟩)
  · unfold setCwPort
    split <;> exact hf
  · unfold setCwPort
    split <;> simp [ht, hb]

include hn

/-- The port's number as the causeway's frames name it. -/
theorem portIndex : (if n = 0 then 0 else 1) = n := by split <;> omega

/-- The breaks of the ring with one more. -/
def withBreak (g : Hw) (n : Nat) : Hw :=
  { g with arch := { g.arch with
    breaks := (g.arch.breaks.filter (fun b => b ≠ (Config.deviceTag.toNat, n))) ++ [(Config.deviceTag.toNat, n)] } }

/-- The break of a port with carrier, the other being whole: holdover, BREAK, its record, and the marks of the open censuses. -/
theorem portBreak_after (hr : h.arch.running = true) (hc : (cwPort h n).carrier = true) (ho : (cwPort h (otherPort n)).broken = false) :
    AfterBreak (portBreak h n) (broadcast (causewayHold (withBreak (portCut h n) n)) 0x0E
      [(causewayHold (withBreak (portCut h n) n)).ident.position, n, (cwPort h n).lastTag]) := by
  have hoth : cwPort (setCwPort h n { cwPort h n with carrier := false, joined := false, broken := true, wasUp := (cwPort h n).joined })
      (otherPort n) = cwPort h (otherPort n) := cwPort_setCwPort_other h _ (by unfold otherPort; split <;> omega)
  have hgo : ¬ (!h.arch.running || !(cwPort h n).carrier) = true := by simp [hr, hc]
  have ho' : ¬ (cwPort h (otherPort n)).broken = true := by simp [ho]
  unfold portBreak
  dsimp only
  rw [if_neg hgo, hoth, if_neg ho', portIndex hn]
  refine (dropIns_afterBreak _).trans ?_
  refine List.foldlRecOn (motive := fun g => AfterBreak g _) _ _ ?_ fun g hg c _ => (censusMark_afterBreak _ _ _).trans hg
  exact recordWrite_afterBreak _ _

/-- What holds after the break of a port of a member. -/
theorem portBreak_holds (hr : h.arch.running = true) (hc : (cwPort h n).carrier = true) (ho : (cwPort h (otherPort n)).broken = false)
    (ha : h.ident.admitted = true) {t : Hw} (hp : h.arch.posted = []) (ht : t = stepEnd (portBreak h n)) :
    cwPort t n = { cwPort h n with carrier := false, joined := false, broken := true, wasUp := (cwPort h n).joined }
      ∧ t.tb.holdover = true ∧ t.tb.netHold = true ∧ (Config.deviceTag.toNat, n) ∈ t.arch.breaks ∧ t.arch.timeRun = 0
      ∧ (∀ f, f ∈ h.arch.recent → h.tb.now ≤ f.1 + 20000 → bitOf f.2.ports n = true →
          { f.2 with resent := true, ports := otherPort n + 1 } ∈ t.arch.sent)
      ∧ (∃ f, f ∈ t.arch.sent ∧ f.type = 0x0E ∧ f.body = [h.ident.position, n, (cwPort h n).lastTag]) := by
  obtain ⟨ki, kt, kr, kp⟩ := portCut_keeps h n
  obtain ⟨e1, e2, e3, e4, e5⟩ := causewayHold_admitted (h := withBreak (portCut h n) n) (ki ▸ ha)
  have hb := portBreak_after hn hr hc ho
  generalize hk : causewayHold (withBreak (portCut h n) n) = k at hb e1 e2 e3 e4 e5
  have hrun : k.arch.running = true := e5.trans (kr.trans hr)
  have hpos : k.ident.position = h.ident.position := by rw [e4]; exact congrArg Ident.position ki
  have hbc := broadcast_afterBreak k 0x0E [k.ident.position, n, (cwPort h n).lastTag]
  have hpp : (portBreak h n).arch.posted = [] := by
    rw [hb.posted, hbc.posted, e3]
    exact kp.trans hp
  have hall : AfterBreak t k := by
    rw [ht]
    exact (stepEnd_afterBreak hpp).trans (hb.trans hbc)
  have hring := hall.ring
  have hport := cwPort_kept hring n
  simp only [ringKept, Prod.mk.injEq] at hring
  obtain ⟨-, -, hbr, hrunTime, htb⟩ := hring
  refine ⟨?_, by rw [htb, e1], by rw [htb, e2], ?_, ?_, fun f hf hft hbit => ?_, ?_⟩
  · rw [hport, ← portCut_port h n]
    unfold cwPort
    rw [e3]
    rfl
  · rw [hbr, e3]
    exact List.mem_append_right _ (List.mem_singleton_self _)
  · rw [hrunTime, e3]
  · refine hall.sent _ ?_
    rw [e3]
    exact portCut_resends hf hft hbit
  · refine ⟨ownFrame k 0x0E (openPorts k) 0 [k.ident.position, n, (cwPort h n).lastTag], ?_, rfl, by rw [← hpos]; rfl⟩
    have hsent := ((stepEnd_afterBreak hpp).trans hb).sent
    rw [ht]
    refine hsent _ ?_
    unfold broadcast
    rw [if_pos hrun]
    exact List.mem_append_right _ (List.mem_singleton_self _)

end

/-! ### The rows -/

/-- A causeway frame that is taken is processed on the hardware on which reception leaves it. -/
theorem frame_row {s : State} {h g e : Hw} {i : Instr} {c : Cw} {ty : Nat} {w : FrameWay} {b : List Nat} {f : Hw → Hw} (hh : h = clearSent s.hw)
    (ho : exec i s = onHw s (fun h => onFrame h c ty w b f)) (ht : Taken h c ty w b g) (he : f g = e) : exec i s = .next (s.ended e) :=
  ho.trans (onHw_routed (f := fun h => onFrame h c ty w b f) hh ((onFrame_taken ht).trans he))

/-- Settles O32: each tick, frame and break of the causeway has its own equation; what the break of a port has set stays to the step's end. -/
theorem presenceAndJoinRows : Obligations.PresenceAndJoinRows := by
  intro s h g c hh _
  refine ⟨?tick, ?tickFenced, ?presence, ?join, ?joinBusy, ?answer, ?refused, ?carrier, ?carrierJoins, ?break_, ?onBreak, ?onRestored⟩
  case tick =>
    intro a b hr hp hrole ha hb hf
    refine row_ended (g := presenceTick (clearSent s.hw)) ?_ rfl
    rw [← hh, presenceTick_eq hr hp ha hb, hf, if_neg (by decide), issuePlan_none hrole]
  case tickFenced =>
    intro a b hr hp hrole ha hb hf
    refine row_ended (g := presenceTick (clearSent s.hw)) ?_ rfl
    rw [← hh, presenceTick_eq hr hp ha hb, hf, if_pos rfl, issuePlan_none hrole]
  case presence =>
    intro p ht
    have hrow : ∀ e, onPresence g c p = e → exec (.presence c p) s = .next (s.ended e) := fun e he =>
      frame_row (f := fun h => onPresence h c p) hh rfl ht he
    exact ⟨fun hu hn hl => hrow _ (onPresence_newcomer hu hn hl), fun hu hn => hrow _ (onPresence_full hu hn),
      fun hu hr hm => hrow _ (onPresence_member hu hr hm)⟩
  case join => exact fun ht hc hj => frame_row (f := fun h => onJoin h c) hh rfl ht (onJoin_accepts hc hj)
  case joinBusy => exact fun ht hc hj => frame_row (f := fun h => onJoin h c) hh rfl ht (onJoin_busy hc hj)
  case answer =>
    intro ht hc hj hb
    refine frame_row (f := fun h => if true && (cwPort h c.port).carrier && h.arch.joinOk then portJoined h c.port else h) hh rfl ht ?_
    rw [if_pos (by simp [hc, hj]), portJoined_whole hb]
  case refused =>
    intro ht
    refine frame_row (f := fun h => if false && (cwPort h c.port).carrier && h.arch.joinOk then portJoined h c.port else h) hh rfl ht ?_
    exact if_neg (by simp)
  case carrier => exact fun n hj => row_ended (g := portCarrier (clearSent s.hw) n) (hh ▸ portCarrier_quiet (hh ▸ hj)) rfl
  case carrierJoins => exact fun n hr hj => row_ended (g := portCarrier (clearSent s.hw) n) (hh ▸ portCarrier_joins (hh ▸ hr) (hh ▸ hj)) rfl
  case break_ =>
    intro n hn hr hc ho ha
    have hp : h.arch.posted = [] := by rw [hh]; rfl
    refine ⟨_, onHw_routed (f := fun h => portBreak h n) hh rfl, ?_⟩
    obtain ⟨h1, h2, h3, h4, h5, h6, h7⟩ := portBreak_holds hn hr hc ho ha hp rfl
    exact ⟨h1, h2, h3, h4, h5, h6, h7, rfl⟩
  case onBreak => exact fun n lt ht => frame_row (f := fun h => onBreak h c n) hh rfl ht rfl
  case onRestored => exact fun n lt ht => frame_row (f := fun h => onRestored h c n) hh rfl ht rfl

end Sys2Proof.Machine
end

/-! PROOFS. Archipelago time: the delay measurement, TIME, and its loss (chapter 20, R625 and R627). -/
section
namespace Sys2Proof.Machine

/-- The delay tick with the WEST port joined alone. -/
theorem delayReq_west {h a : Hw} (hr : h.arch.running = true)
    (ha : a = { h with
                  tb := { h.tb with now := max h.tb.now (h.arch.delayAt + 1000000) },
                  arch := { h.arch with delayAt := max h.tb.now (h.arch.delayAt + 1000000) } })
    (he : h.arch.east.joined = false) (hw : h.arch.west.joined = true) :
    delayReq h none = setCwPort (toNeighbour a 0x04 1 []) 1 { a.arch.west with reqAt := a.tb.now } := by
  have ee : ¬ (cwPort a 0).joined = true := by
    rw [ha]
    exact Bool.eq_false_iff.1 he
  have ew : (cwPort a 1).joined = true := by
    rw [ha]
    exact hw
  have ea : { advanceTo h (h.arch.delayAt + 1000000) with
      arch := { (advanceTo h (h.arch.delayAt + 1000000)).arch with delayAt := (advanceTo h (h.arch.delayAt + 1000000)).tb.now } } = a := by
    rw [ha]
    rfl
  unfold delayReq
  dsimp only
  rw [if_pos hr, ea]
  simp only [List.foldl_cons, List.foldl_nil]
  rw [if_neg ee, if_pos ew]
  rfl

/-- The delay tick with the EAST port joined alone. -/
theorem delayReq_east {h a : Hw} (hr : h.arch.running = true)
    (ha : a = { h with
                  tb := { h.tb with now := max h.tb.now (h.arch.delayAt + 1000000) },
                  arch := { h.arch with delayAt := max h.tb.now (h.arch.delayAt + 1000000) } })
    (he : h.arch.east.joined = true) (hw : h.arch.west.joined = false) :
    delayReq h none = setCwPort (toNeighbour a 0x04 0 []) 0 { a.arch.east with reqAt := a.tb.now } := by
  have ee : (cwPort a 0).joined = true := by
    rw [ha]
    exact he
  have ew : ¬ (cwPort (setCwPort (toNeighbour a 0x04 0 []) 0 { cwPort a 0 with reqAt := a.tb.now }) 1).joined = true := by
    rw [cwPort_setCwPort_other _ _ (by decide), ha]
    exact Bool.eq_false_iff.1 hw
  have ea : { advanceTo h (h.arch.delayAt + 1000000) with
      arch := { (advanceTo h (h.arch.delayAt + 1000000)).arch with delayAt := (advanceTo h (h.arch.delayAt + 1000000)).tb.now } } = a := by
    rw [ha]
    rfl
  unfold delayReq
  dsimp only
  rw [if_pos hr, ea]
  simp only [List.foldl_cons, List.foldl_nil]
  rw [if_pos ee, if_neg ew]
  rfl

theorem timeTick_source {h a : Hw} (hr : h.arch.running = true) (hs : holdsRole h 0 = true)
    (ha : a = { h with
                  tb := { h.tb with now := max h.tb.now (h.arch.tickAt + 125000) },
                  arch := { h.arch with
                    tickAt := max h.tb.now (h.arch.tickAt + 125000)
                    timeAt := max h.tb.now (h.arch.tickAt + 125000) } }) :
    timeTick h = countTime (broadcast a 0x06 [0]) := by
  rw [ha]
  unfold timeTick
  rw [if_pos (by simp [hr, hs])]
  rfl

theorem timeTick_other {h : Hw} (hn : h.arch.running = false ∨ holdsRole h 0 = false) : timeTick h = h := by
  unfold timeTick
  exact if_neg (by rcases hn with e | e <;> simp [e])

theorem timeTimeout_member {h : Hw} (ha : h.ident.admitted = true) (hf : memberFenced h = false) (hs : holdsRole h 0 = false) :
    timeTimeout h = causewayHold { h with tb := { h.tb with now := max h.tb.now (h.arch.timeAt + 1000000) } } := by
  unfold timeTimeout
  rw [if_pos (by simp [ha, hf, hs])]
  rfl

theorem timeTimeout_other {h : Hw} (hn : h.ident.admitted = false ∨ holdsRole h 0 = true) : timeTimeout h = h := by
  unfold timeTimeout
  exact if_neg (by rcases hn with e | e <;> simp [e])

/-! ### TIME -/

/-- A TIME frame that reception hands over is weighed. -/
theorem onTime_taken {h g : Hw} {c : Cw} {corr res : Nat} (ht : Taken h c 0x06 .broadcast [corr + res + (cwPort h c.port).delay] g) :
    onTime h c corr res = takeTime g c corr := by
  unfold onTime
  dsimp only
  rw [ht, Bool.true_or, if_pos rfl]

/-- What a package notes of a TIME frame. -/
def noteTime (g : Hw) (c : Cw) (t : Nat) : Hw :=
  { g with arch := { g.arch with timeAt := g.tb.now, timeSeq := c.seq, timeHops := c.hops, archTb := some (t, g.tb.now) } }

section
variable {g : Hw} {c : Cw} {corr t : Nat} (ht : t = archTime g c corr) (hs : g.arch.timeSeq ≠ c.seq)
include ht hs

/-- A frame whose SEQ is new is noted, and at a member that is not the TIME_SOURCE disciplines the time base. -/
theorem takeTime_fresh : takeTime g c corr =
    if fromMember (noteTime g c t) c && !memberFenced (noteTime g c t) && decide (roleHolder g 0 ≠ some g.ident.position) then
      (if c.holdover then causewayHold { noteTime g c t with tb := { g.tb with slew := (t : Int) - (g.tb.now : Int) } }
      else countTime { noteTime g c t with tb := { g.tb with slew := (t : Int) - (g.tb.now : Int) } })
    else noteTime g c t := by
  have hfresh : decide (g.arch.timeSeq ≠ c.seq) = true := decide_eq_true hs
  subst ht
  unfold takeTime
  dsimp only
  rw [hfresh, Bool.true_or, Bool.true_or, if_pos rfl, Bool.not_true, if_neg Bool.false_ne_true]
  rfl

theorem takeTime_outsider (ha : g.ident.admitted = false) : takeTime g c corr = noteTime g c t := by
  have hm : fromMember (noteTime g c t) c = false := by
    unfold fromMember
    have e : (noteTime g c t).ident.admitted = false := ha
    rw [e]
    rfl
  rw [takeTime_fresh ht hs, hm]
  rfl

theorem takeTime_member (hm : fromMember g c = true) (hf : memberFenced g = false) (hr : roleHolder g 0 ≠ some g.ident.position) :
    takeTime g c corr = (if c.holdover then causewayHold { noteTime g c t with tb := { g.tb with slew := (t : Int) - (g.tb.now : Int) } }
      else countTime { noteTime g c t with tb := { g.tb with slew := (t : Int) - (g.tb.now : Int) } }) := by
  have hm' : fromMember (noteTime g c t) c = true := hm
  have hf' : memberFenced (noteTime g c t) = false := hf
  rw [takeTime_fresh ht hs, hm', hf', decide_eq_true hr]
  rfl

end

/-- A copy that is no better than the one taken is dropped. -/
theorem takeTime_worse {g : Hw} {c : Cw} {corr : Nat} (hs : g.arch.timeSeq = c.seq) (hh : g.arch.timeHops ≤ 255)
    (hw : g.arch.timeHops < c.hops ∨ (g.arch.timeHops = c.hops ∧ c.port = 0)) : takeTime g c corr = g := by
  unfold takeTime
  refine if_neg ?_
  rcases hw with hw | ⟨he, hp⟩
  · simp [hs, Nat.not_lt.2 hh]
    omega
  · simp [hs, Nat.not_lt.2 hh, hp]
    omega

/-- Settles O33: each tick and frame of the time of the archipelago has its own equation on the hardware reception leaves. -/
theorem archTimeRows : Obligations.ArchTimeRows := by
  intro s h g c hh _
  refine ⟨?west, ?east, ?request, ?answer, ?tick, ?noTick, ?time, ?worse, ?lost, ?noLoss⟩
  case west =>
    intro a hr ha he hw
    refine row_ended (g := delayReq (clearSent s.hw) none) ?_ rfl
    rw [← hh, delayReq_west hr ha he hw]
  case east =>
    intro a hr ha he hw
    refine row_ended (g := delayReq (clearSent s.hw) none) ?_ rfl
    rw [← hh, delayReq_east hr ha he hw]
  case request =>
    exact fun ht => frame_row (f := fun h => toNeighbour h 0x05 (if c.port = 0 then 0 else 1) [h.tb.now, h.tb.now]) hh rfl ht rfl
  case answer => exact fun rx tx ht => frame_row (f := fun h => delayRsp h c rx tx) hh rfl ht rfl
  case tick =>
    intro a hr hs ha
    refine row_ended (g := timeTick (clearSent s.hw)) ?_ rfl
    rw [← hh, timeTick_source hr hs ha]
  case noTick =>
    subst hh
    exact fun hn => row_idle (timeTick_other hn) rfl
  case time =>
    intro corr res t ht hat hs
    have hrow : ∀ e, takeTime g c corr = e → exec (.time c corr res) s = .next (s.ended e) := fun e he =>
      onHw_routed (f := fun h => onTime h c corr res) hh ((onTime_taken ht).trans he)
    exact ⟨fun ha => hrow _ (takeTime_outsider hat hs ha),
      fun u hm hf hr hu => hrow _ (hu ▸ takeTime_member hat hs hm hf hr)⟩
  case worse =>
    exact fun corr res ht hs hh' hw =>
      onHw_routed (f := fun h => onTime h c corr res) hh ((onTime_taken ht).trans (takeTime_worse hs hh' hw))
  case lost => exact fun ha hf hs => row_ended (g := timeTimeout (clearSent s.hw)) (hh ▸ timeTimeout_member (hh ▸ ha) (hh ▸ hf) (hh ▸ hs)) rfl
  case noLoss =>
    subst hh
    exact fun hn => row_idle (timeTimeout_other hn) rfl

end Sys2Proof.Machine
end

/-! PROOFS. Admission (chapter 20, R635): a newcomer's own entry in the membership table keeps its state when it joins. -/
section
namespace Sys2Proof.Machine

theorem wakeUp_arch (h : Hw) : (wakeUp h).arch = h.arch := by
  have hr : ∀ (g : Hw) (a b c d : Nat), (writeReport g a b c d).arch = g.arch := fun g a b c d =>
    (foldl_keeps (fun g : Hw => g.arch) (fun g p => by rw [recordWrite_arch]) _ _).trans (by rw [recordWrite_arch])
  unfold wakeUp exitTrigger
  split
  · split
    · rfl
    · exact hr _ _ _ _ _
    · rfl
  · rfl

/-- Where no message is posted the end of the step leaves the archipelago. -/
theorem stepEnd_arch {h : Hw} (hp : h.arch.posted = []) : (stepEnd h).arch = h.arch := by
  have e := wakeUp_arch h
  unfold stepEnd
  rw [routeOut_nil (by rw [e, hp]), e]

theorem endWaits_arch (h : Hw) (p : Req → Bool) (a b : Nat) : (endWaits h p a b).arch = h.arch := by
  obtain ⟨u, e⟩ := endWaits_boxes h p a b
  rw [e]
  rfl

theorem replyFor_arch (h : Hw) (p : Wait → Bool) (b : List Byte) : (replyFor h p b).arch = h.arch := by
  unfold replyFor
  refine foldl_keeps (fun g : Hw => g.arch) (fun g m => ?_) _ _
  dsimp only
  split <;> rfl

/-- A member entered again under its own tag keeps the state it has. -/
theorem enterMember_known {h : Hw} {pos tag : Nat} {d : List Byte} (hs : (memberAt h pos).st ≠ MemberSt.none) (ht : (memberAt h pos).tag = tag) :
    (memberAt (enterMember h pos tag d) pos).st = (memberAt h pos).st ∧ (enterMember h pos tag d).arch.posted = h.arch.posted := by
  have hk : decide ((memberAt h pos).st ≠ MemberSt.none ∧ (memberAt h pos).tag = tag) = true := decide_eq_true ⟨hs, ht⟩
  unfold enterMember
  dsimp only
  rw [hk, if_pos rfl, if_pos rfl]
  refine ⟨?_, rfl⟩
  rw [memberAt_setMember_ne]
  exact fun e => hs (congrArg Member.st e)

/-- The archipelago of a package as it joins, before its own entry is written: its members are as they were. -/
theorem joinArch_arch {g : Hw} {m : Memory} {c : Cw} {pos : Nat} {d : List Byte} (ha : g.ident.admitted = false) (hf : g.faults.fences = [])
    (hu : c.unadmitted = true) :
    ∃ k : Hw, k.arch.members = g.arch.members ∧ k.arch.posted = g.arch.posted ∧
      (joinArch (g, m) c pos d).1.arch = (enterMember k pos Config.deviceTag.toNat d).arch := by
  have hl : ∀ k : Hw, learnMember k c = k := fun k => by
    unfold learnMember
    exact if_neg (by simp [hu])
  unfold joinArch liftFences
  dsimp only
  rw [if_neg (by simp [ha]), hf, List.filter_nil, List.foldl_nil, endWaits_arch, replyFor_arch, hl]
  refine ⟨_, ?_, ?_, rfl⟩ <;> split <;> rfl

/-- A newcomer whose own entry stands under its tag joins with the entry's state as it was. -/
theorem joinArch_ownEntry {g : Hw} {m : Memory} {c : Cw} {pos : Nat} {d : List Byte} (ha : g.ident.admitted = false) (hf : g.faults.fences = [])
    (hu : c.unadmitted = true) (hs : (memberAt g pos).st ≠ MemberSt.none) (ht : (memberAt g pos).tag = Config.deviceTag.toNat)
    (hp : g.arch.posted = []) : (memberAt (stepEnd (joinArch (g, m) c pos d).1) pos).st = (memberAt g pos).st := by
  obtain ⟨k, hkm, hkp, e⟩ := joinArch_arch (m := m) (pos := pos) (d := d) ha hf hu
  have hk : memberAt k pos = memberAt g pos := congrArg (fun t : Tab Member => tabGet ({} : Member) t pos) hkm
  obtain ⟨hst, hpo⟩ := enterMember_known (h := k) (d := d) (hk ▸ hs) (hk ▸ ht)
  have hj : memberAt (joinArch (g, m) c pos d).1 pos = memberAt (enterMember k pos Config.deviceTag.toNat d) pos :=
    congrArg (fun a : Arch => tabGet ({} : Member) a.members pos) e
  have hend : (stepEnd (joinArch (g, m) c pos d).1).arch = (joinArch (g, m) c pos d).1.arch :=
    stepEnd_arch (by rw [e, hpo, hkp, hp])
  calc (memberAt (stepEnd (joinArch (g, m) c pos d).1) pos).st
      = (memberAt (joinArch (g, m) c pos d).1 pos).st := congrArg (fun a : Arch => (tabGet ({} : Member) a.members pos).st) hend
    _ = (memberAt g pos).st := by rw [hj, hst, hk]

/-! ### A newcomer whose own entry says DEPARTING -/

/-- A package that waits to join and whose table still holds it as departing. -/
def departingHw : Hw :=
  { arch := { running := true, members := [(5, { st := .departing, tag := Config.deviceTag.toNat })], west := { broken := true } },
    efano := { boxes := [(17, { reqs := [{ tag := 0, cmd := 0, seq := 0, begun := true, wait := .join }] })] } }

/-- ADMITTED as it arrives, from a package of another tag. -/
def joinFrame : Cw := { hops := 1, unadmitted := true, tag := Config.deviceTag.toNat + 1 }

/-- The hardware reception leaves. -/
def joinTaken : Hw := markSeen (clearSent departingHw) joinFrame

theorem joinFrame_taken (b : List Nat) : Taken (clearSent departingHw) joinFrame 0x08 .broadcast b joinTaken := by
  have hheard : heard (clearSent departingHw) joinFrame 0x08 = true := by
    have ht : decide (joinFrame.tag ≠ Config.deviceTag.toNat) = true := decide_eq_true (Nat.succ_ne_self _)
    unfold heard
    rw [ht]
    rfl
  unfold Taken recvFrame
  rw [hheard]
  rfl

theorem exec_joinFrame (d : List Byte) : exec (.admitted joinFrame 5 Config.deviceTag.toNat d) { hw := departingHw } =
    .next (({ hw := departingHw } : State).withHm (stepEnd (joinArch (joinTaken, []) joinFrame 5 d).1,
      (joinArch (joinTaken, []) joinFrame 5 d).2)) := by
  refine onAll_routed (f := fun hm => onFrameM hm joinFrame 0x08 .broadcast [5, Config.deviceTag.toNat, leNat d]
    (fun hm => onAdmitted hm joinFrame 5 Config.deviceTag.toNat d)) rfl ?_
  rw [onFrameM_taken (joinFrame_taken _)]
  unfold onAdmitted
  dsimp only
  rw [if_pos (show outsider joinTaken = true from rfl), if_pos]
  exact ⟨rfl, rfl, by decide +kernel⟩

theorem joinTaken_entry : memberAt joinTaken 5 = { st := .departing, tag := Config.deviceTag.toNat } := by
  have e : joinTaken.arch.members = [(5, { st := .departing, tag := Config.deviceTag.toNat })] := rfl
  unfold memberAt
  rw [e, tabGet, if_pos rfl]

/-- Refutes O34: a newcomer whose table holds it as departing, under its own tag, joins and stays departing. -/
theorem not_admissionRows : ¬ Obligations.AdmissionRows := by
  unfold Obligations.AdmissionRows
  intro hall
  obtain ⟨-, -, -, hjoin, -⟩ := hall { hw := departingHw } (clearSent departingHw) joinTaken joinFrame rfl
  obtain ⟨t, ht, -, -, -, -, -, hst, -⟩ := hjoin 5 _ [] (joinFrame_taken _) rfl rfl rfl (by decide +kernel) (by decide)
  have hs := joinArch_ownEntry (g := joinTaken) (m := []) (c := joinFrame) (pos := 5) (d := []) rfl rfl rfl
    (by rw [joinTaken_entry]; decide) (by rw [joinTaken_entry]) rfl
  rw [exec_joinFrame] at ht
  have e := Host.Outcome.next.inj ht
  rw [← e, State.withHm_hw] at hst
  dsimp only at hst
  rw [hs, joinTaken_entry] at hst
  exact absurd hst (by decide)

end Sys2Proof.Machine
end

/-! PROOFS. The census, the power pool's frames between packages, and WAKE (chapters 18 and 20). -/
section
namespace Sys2Proof.Machine

/-! ### CENSUS_REQ -/

section
variable {g : Hw} {c : Cw} {q ts : Nat} (hm : fromMember g c = true)
include hm

theorem onCensusReq_due (hl : (g.arch.censuses.filter (censusOpen g)).length < 4) (ht : g.tb.now ≤ ts) :
    onCensusReq g c q ts = { g with arch := { g.arch with
      censuses := g.arch.censuses.filter (fun x => !decide (x.initiator = c.origin ∧ x.seq = q)) ++ [{ initiator := c.origin, seq := q, ts := ts }] } } := by
  unfold onCensusReq
  rw [hm]
  dsimp only
  rw [if_neg (by decide), if_neg (by omega), if_neg (by omega)]

theorem onCensusReq_late (hl : (g.arch.censuses.filter (censusOpen g)).length < 4) (ht : ts < g.tb.now) :
    onCensusReq g c q ts = takeSample { g with arch := { g.arch with
      censuses := g.arch.censuses.filter (fun x => !decide (x.initiator = c.origin ∧ x.seq = q)) ++ [{ initiator := c.origin, seq := q, ts := ts }] } }
      { initiator := c.origin, seq := q, ts := ts } true := by
  unfold onCensusReq
  rw [hm]
  dsimp only
  rw [if_neg (by decide), if_neg (by omega), if_pos ht]

theorem onCensusReq_busy (hl : 4 ≤ (g.arch.censuses.filter (censusOpen g)).length) (ho : c.origin ≠ g.ident.position) :
    onCensusReq g c q ts = direct g 0x14 c.origin [q, 0, leNat (censusEntry g c.origin 3 false g.tb.now)] := by
  unfold onCensusReq sendEntry
  rw [hm]
  dsimp only
  rw [if_neg (by decide), if_pos hl, if_neg ho]

end

/-! ### CENSUS_SAMPLE, CENSUS_DATA and CENSUS_COMPLETE -/

theorem censusSample_done {h : Hw} {i q : Nat} {x : Census} (hf : findCensus h i q = some x) (hs : x.sampled = true) : censusSample h i q = h := by
  unfold censusSample
  rw [hf]
  exact if_pos hs

/-- A sample at T_s of another package's census goes to its initiator. -/
theorem censusSample_sends {h u v : Hw} {i q : Nat} {x : Census} {e : List Byte} (hf : findCensus h i q = some x) (hs : x.sampled = false)
    (hx : x.initiator = i) (hi : i ≠ h.ident.position) (hu : u = { h with tb := { h.tb with now := max h.tb.now x.ts } })
    (he : e = censusEntry u i 0 false u.tb.now)
    (hv : v = setCensus u { x with
                               sampled := true, mine := leNat e, late := false,
                               members := (u.arch.members.filter (fun m => decide (m.2.st ≠ MemberSt.none))).map (·.1) }) :
    censusSample h i q = direct v 0x14 i [x.seq, 0, leNat e] := by
  have hadv : advanceTo h x.ts = u := by
    rw [hu]
    rfl
  have hpos : x.initiator ≠ v.ident.position := by
    rw [hx, hv, hu]
    exact hi
  subst hx
  unfold censusSample
  rw [hf]
  dsimp only
  rw [if_neg (by simp [hs]), hadv]
  unfold takeSample sendEntry
  dsimp only
  rw [← he, ← hv, if_neg hpos]

section
variable {g : Hw} {c : Cw} {q : Nat} {x : Census} (hf : findCensus g g.ident.position q = some x) (hd : x.done = false)
include hf hd

theorem onCensusData_entry (hm : fromMember g c = true) (hr : c.resent = false) (e : List Byte) :
    onCensusData g c q none e = setCensus g { x with entries := tabPut 0 x.entries c.origin (leNat (e.take 32) + 1) } := by
  unfold onCensusData
  rw [hf]
  dsimp only
  rw [hd, hm, hr]
  rfl

theorem onCensusData_mark (hm : fromMember g c = true) (hl : x.marks.length < 8) (p : Nat) (e : List Byte) :
    onCensusData g c q (some p) e = setCensus g { x with marks := x.marks ++ [(p, p + 1)] } := by
  unfold onCensusData
  rw [hf]
  dsimp only
  rw [hd, hm, if_pos hl]
  rfl

/-- A census whose members have all answered or are cut off completes now. -/
theorem censusComplete_all (hs : x.sampled = true)
    (ha : ∀ k, k ∈ x.members → tabGet 0 x.entries k ≠ 0 ∨ cutOff x (memberAt g k).ringEast = true) :
    censusComplete g q = endWaits (setCensus g { x with done := true }) (fun r => decide (r.wait = Wait.census q)) 0 0 := by
  have hall : x.members.all (fun m => decide (tabGet 0 x.entries m ≠ 0) || cutOff x (memberAt g m).ringEast) = true := by
    rw [List.all_eq_true]
    intro k hk
    rcases ha k hk with h1 | h1
    · rw [decide_eq_true h1, Bool.true_or]
    · rw [h1, Bool.or_true]
  unfold censusComplete
  rw [hf]
  dsimp only
  rw [if_neg (by simp [hd, hs]), if_pos hall]

/-- A census with a member that neither answered nor is cut off completes 10 ms after T_s. -/
theorem censusComplete_late (hs : x.sampled = true) {k : Nat} {u : Hw} (hk : k ∈ x.members) (hn : tabGet 0 x.entries k = 0)
    (hc : cutOff x (memberAt g k).ringEast = false) (hu : u = { g with tb := { g.tb with now := max g.tb.now (x.ts + 10000000) } }) :
    censusComplete g q = endWaits (setCensus u { x with done := true }) (fun r => decide (r.wait = Wait.census q)) 0 0 := by
  have hall : ¬ x.members.all (fun m => decide (tabGet 0 x.entries m ≠ 0) || cutOff x (memberAt g m).ringEast) = true := by
    rw [List.all_eq_true]
    intro ha
    have := ha k hk
    rw [decide_eq_false (not_not.2 hn), hc] at this
    exact Bool.noConfusion this
  unfold censusComplete
  rw [hf]
  dsimp only
  rw [if_neg (by simp [hd, hs]), if_neg hall, hu]
  rfl

end

/-! ### The power pool's frames -/

theorem onTelemetry_new {g : Hw} {c : Cw} {n looms w : Nat} {a : List (Nat × Nat)} (hm : fromMember g c = true) (hr : g.power.epochRun = false)
    (hn : ∀ f, f ∈ g.power.frames → f.position ≠ c.origin) :
    onTelemetry g c n looms w a = { g with power := { g.power with
      frames := g.power.frames ++ [{ position := c.origin, set := n, waitTotal := w, looms := looms, awaited := a.take 8 }] } } := by
  have hany : g.power.frames.any (fun f => decide (f.position = c.origin)) = false := by
    rw [List.any_eq_false]
    exact fun f hf => by simpa using hn f hf
  unfold onTelemetry
  rw [hm, hr, hany]
  rfl

theorem onGrant_taken {g : Hw} {c : Cw} {n w t : Nat} (hm : fromMember g c = true) (hp : takesPart g = true) (hn : n = g.power.poolSet)
    (ht : g.tb.now < t + 4000000) :
    onGrant g c n w t = { g with power := { g.power with ins := g.power.ins ++ [{ watts := w, ends := t + 4000000 }] } } := by
  unfold onGrant
  exact if_neg (by simp [hm, hp, hn, ht])

theorem onGrant_refused {g : Hw} {c : Cw} {n w t : Nat} (hn : takesPart g = false ∨ n ≠ g.power.poolSet ∨ t + 4000000 ≤ g.tb.now) :
    onGrant g c n w t = g := by
  unfold onGrant
  exact if_pos (by rcases hn with e | e | e <;> simp [e])

/-- Settles O37: each frame and instant of the census and of the pool has its own equation; a WAKE that ends Dormant goes as DORMANT_EXIT. -/
theorem censusAndPoolRows : Obligations.CensusAndPoolRows := by
  intro s h g c hh
  refine ⟨?due, ?busy, ?late, ?sample, ?sampled, ?entry, ?mark, ?complete, ?completeLate, ?telemetry, ?grant, ?noGrant, ?awake, ?wakes, ?exit⟩
  case due => exact fun q ts ht hm hl hd => frame_row (f := fun h => onCensusReq h c q ts) hh rfl ht (onCensusReq_due hm hl hd)
  case busy => exact fun q ts ht hm hl ho => frame_row (f := fun h => onCensusReq h c q ts) hh rfl ht (onCensusReq_busy hm hl ho)
  case late =>
    exact fun q ts u ht hm hl hd hu => frame_row (f := fun h => onCensusReq h c q ts) hh rfl ht (hu ▸ onCensusReq_late hm hl hd)
  case sample =>
    intro i q x u e v hf hs hx hi hu he hv
    exact onHw_routed (f := fun h => censusSample h i q) hh (censusSample_sends hf hs hx hi hu he hv)
  case sampled =>
    subst hh
    exact fun i q x hf hs => row_idle (censusSample_done hf hs) rfl
  case entry =>
    exact fun d q e x ht hf hd hm hr => frame_row (f := fun h => onCensusData h c q none e) hh rfl ht (onCensusData_entry hf hd hm hr e)
  case mark =>
    exact fun d q p e x ht hf hd hm hl => frame_row (f := fun h => onCensusData h c q (some p) e) hh rfl ht (onCensusData_mark hf hd hm hl p e)
  case complete =>
    exact fun q x hf hd hs ha => onHw_routed (f := fun h => censusComplete h q) hh (censusComplete_all hf hd hs ha)
  case completeLate =>
    exact fun q x k u hf hd hs hk hn hc hu => onHw_routed (f := fun h => censusComplete h q) hh (censusComplete_late hf hd hs hk hn hc hu)
  case telemetry =>
    exact fun n looms w a ht hm hr hn => frame_row (f := fun h => onTelemetry h c n looms w a) hh rfl ht (onTelemetry_new hm hr hn)
  case grant => exact fun d n w t ht hm hp hn hl => frame_row (f := fun h => onGrant h c n w t) hh rfl ht (onGrant_taken hm hp hn hl)
  case noGrant => exact fun d n w t ht hn => frame_row (f := fun h => onGrant h c n w t) hh rfl ht (onGrant_refused hn)
  case awake =>
    exact fun t w ht hs => frame_row (f := fun h => dormantExit h .causeway w) hh rfl ht (if_pos (.inl hs))
  case wakes =>
    intro t w ht hs hk hi hf
    obtain ⟨a, b, c', -, -, d, e, -⟩ := dormantExit_woken (b := .causeway) hs (by decide) hi hf hk
    exact ⟨_, frame_row (f := fun h => dormantExit h .causeway w) hh rfl ht rfl, a, b, c', d, e, rfl⟩
  case exit => exact fun t w ht hs => frame_row (f := fun h => dormantExit h .causeway w) hh rfl ht rfl

end Sys2Proof.Machine
end

/-! PROOFS. The links of the archipelago and the segments of their streams (chapter 20, R604 to R619). -/
section
namespace Sys2Proof.Machine

/-! ### Training, keys and flits -/

section
variable {h : Hw} {n : Nat} {l : Link} (hl : l = linkAt h n)
include hl

theorem linkTrained_trains {q tag arch : Nat} (hs : l.st = LinkSt.training) (hn : n < portCount h) :
    linkTrained h n q tag arch = linkSettled (setLink h n
      { st := .trained, since := h.tb.now, peer := q, peerTag := tag, peerArch := arch, steward := decide (h.ident.position < q) }) n :=
  if_pos ⟨hl ▸ hs, hn⟩

theorem linkTrained_idle {q tag arch : Nat} (hs : l.st ≠ LinkSt.training) : linkTrained h n q tag arch = h :=
  if_neg fun e => hs (hl ▸ e.1)

/-- When two ends may exchange a key: both are members of one archipelago, and neither the membership nor the package is fenced. -/
def keysMeet (h : Hw) (l : Link) : Prop :=
  (l.st = LinkSt.trained ∨ l.st = LinkSt.active) ∧ (isMember h h.ident.position && isMember h l.peer && decide (l.peerArch = h.arch.archId) &&
    decide ((memberAt h l.peer).tag = l.peerTag)) = true ∧ memberFenced h = false ∧ pkgFenced h = false

theorem keyExchange_passed {u : Hw} (hk : keysMeet h l)
    (hu : u = {
      setLink h n { l with
      st := .active, since := if l.st = LinkSt.active then l.since else h.tb.now, key := h.free + 1, keyAt := h.tb.now,
      streams := tabMap {} l.streams (fun _ x =>
        { x with gen := if l.key = 0 then x.gen else (x.gen + 1) % 128, counter := 0, sent := 0, nextGen := none }) } with free := h.free + 1 }) :
    keyExchange h n true = linkSettled (routeWaiting (syncStreams u)) n := by
  subst hl hu
  exact if_pos hk

theorem keyExchange_failed (hk : keysMeet h l) :
    keyExchange h n false = linkSettled (recordWrite
      (setLink h n { l with st := .trained, key := 0, keyAt := h.tb.now }) { type := 0x0908, unitKind := 12, unit := n }) n := by
  subst hl
  exact if_pos hk

theorem onFlit_inOrder (hs : l.st = LinkSt.active ∨ l.st = LinkSt.trained) :
    onFlit h n l.rx true = setLink h n { l with rx := (l.rx + 1) % 4096, answers := [(2, l.rx)] } := by
  subst hl
  unfold onFlit
  dsimp only
  rw [if_neg (by rcases hs with e | e <;> simp [e]), if_pos (by simp)]

theorem onFlit_other {q : Nat} {ok : Bool} (hs : l.st = LinkSt.active ∨ l.st = LinkSt.trained) (hq : ok = false ∨ q ≠ l.rx) :
    onFlit h n q ok = setLink h n { l with answers := [(3, l.rx)] } := by
  subst hl
  unfold onFlit
  dsimp only
  rw [if_neg (by rcases hs with e | e <;> simp [e]), if_neg (by rcases hq with e | e <;> simp [e])]

theorem onAck_frees {q : Nat} : onAck h n q = routeWaiting (setLink h n { l with replay := l.replay.filter (fun f => seqBefore q f.seq) }) := by
  subst hl
  rfl

section
variable {q : Nat} {k : List Flit} (hs : l.st = LinkSt.active) (hk : k = l.replay.filter (fun f => !seqBefore f.seq q))
include hs hk

theorem onNak_replays (ht : ∀ f, f ∈ k → f.tries < 3) :
    onNak h n q = setLink h n { l with replay := k.map (fun f => { f with tries := f.tries + 1 }) } := by
  have hany : ¬ k.any (fun f => decide (3 ≤ f.tries)) = true := by
    rw [List.any_eq_true]
    rintro ⟨f, hf, h3⟩
    exact absurd (ht f hf) (Nat.not_lt.2 (of_decide_eq_true h3))
  subst hl hk
  unfold onNak
  dsimp only
  rw [if_neg (not_not.2 hs), if_neg hany]

theorem onNak_retrains {f : Flit} (hf : f ∈ k) (ht : 3 ≤ f.tries) :
    onNak h n q = setLink h n { l with replay := k, st := .retraining, since := h.tb.now } := by
  have hany : k.any (fun f => decide (3 ≤ f.tries)) = true := List.any_eq_true.2 ⟨f, hf, decide_eq_true ht⟩
  subst hl hk
  unfold onNak
  dsimp only
  rw [if_neg (not_not.2 hs), if_pos hany]

end

/-! ### Down, retraining and generations -/

theorem retrained_resumes (hs : l.st = LinkSt.retraining) : retrained h n = linkSettled (routeWaiting (setLink h n
    { l with st := .active, since := h.tb.now, replay := l.replay.map (fun f => { f with tries := 0 }) })) n := by
  subst hl
  exact if_pos hs

/-- A link without messages to lose goes down with its record. -/
theorem goDown_recorded (hm : ∀ f, f ∈ l.replay → f.message = false) : goDown h n = linkSettled (recordWrite
    (setLink h n { l with st := .down, since := h.tb.now, replay := [], key := 0, streams := [] })
    { type := 0x0907, cls := 1, unitKind := 12, unit := n, arg0 := l.peer }) n := by
  have hnil : l.replay.filter (·.message) = [] := List.filter_eq_nil_iff.2 fun f hf => by rw [hm f hf]; decide
  subst hl
  unfold goDown
  dsimp only
  rw [hnil, if_neg fun e => e.1 rfl]

/-- A link that loses messages fences the membership. -/
theorem goDown_fences {k : Nat} (hk : k = (l.replay.filter (·.message)).length) (h0 : k ≠ 0) (ha : h.ident.admitted = true) :
    goDown h n = linkSettled (memberDoubt
      (setLink h n { l with st := .down, since := h.tb.now, replay := [], key := 0, streams := [] }) 12 n 0x090A k 0) n := by
  subst hl hk
  unfold goDown
  dsimp only
  rw [if_pos ⟨h0, ha⟩]

theorem linkDown_recorded {u : Hw} (hs : l.st = LinkSt.retraining ∨ l.st = LinkSt.training) (hm : ∀ f, f ∈ l.replay → f.message = false)
    (hu : u = { h with tb := { h.tb with now := max h.tb.now (l.since + 100000000) } }) :
    linkDown h n = linkSettled (recordWrite
      (setLink u n { l with st := .down, since := u.tb.now, replay := [], key := 0, streams := [] })
      { type := 0x0907, cls := 1, unitKind := 12, unit := n, arg0 := l.peer }) n := by
  have hlu : l = linkAt u n := by
    rw [hl, hu]
    rfl
  rw [← goDown_recorded hlu hm]
  subst hl hu
  exact if_pos hs

theorem peerFenced_fences {k : Nat} (hs : l.st = LinkSt.trained ∨ l.st = LinkSt.active ∨ l.st = LinkSt.retraining)
    (hk : k = (l.replay.filter (·.message)).length) (h0 : k ≠ 0) (ha : h.ident.admitted = true) :
    peerFenced h n = linkSettled (memberDoubt
      (setLink h n { l with st := .down, since := h.tb.now, replay := [], key := 0, streams := [] }) 12 n 0x090A k 0) n := by
  rw [← goDown_fences hl hk h0 ha]
  subst hl
  exact if_pos (by simpa using hs)

theorem retrainAttempt_down {u : Hw} (hs : l.st = LinkSt.down) (ho : l.off = false)
    (hu : u = { h with tb := { h.tb with now := max h.tb.now (l.since + 1000000000) } }) :
    retrainAttempt h n = setLink u n { l with st := .training, since := u.tb.now } := by
  subst hl hu
  exact if_pos ⟨hs, ho⟩

theorem generationChange_announces {k : Nat} {x : Stream} (hs : l.st = LinkSt.active) (hx : x = tabGet {} l.streams k) (hu : x.used = true) :
    generationChange h n k = setLink h n { l with streams := tabPut {} l.streams k { x with nextGen := some ((x.gen + 1) % 128), sent := 0 } } := by
  subst hl hx
  exact if_pos ⟨hs, hu⟩

end

/-- Settles O38: each event of a link has its own equation. -/
theorem linkRows : Obligations.LinkRows := by
  intro s h n l hh hl
  refine ⟨?trains, ?idle, ?keyed, ?keyFails, ?inOrder, ?outOfOrder, ?ack, ?nak, ?nakRetrains, ?resumes, ?down, ?fenced, ?attempt, ?generation⟩
  case trains => exact fun q tag arch hs hn => onHw_routed (f := fun h => linkTrained h n q tag arch) hh (linkTrained_trains hl hs hn)
  case idle =>
    subst hh
    exact fun q tag arch hs => row_idle (linkTrained_idle hl hs) rfl
  case keyed =>
    intro u hs ho hp ha ht hm hk hu
    exact onHw_routed (f := fun h => keyExchange h n true) hh (keyExchange_passed hl ⟨hs, by simp [ho, hp, ha, ht], hm, hk⟩ hu)
  case keyFails =>
    intro hs ho hp ha ht hm hk
    exact onHw_routed (f := fun h => keyExchange h n false) hh (keyExchange_failed hl ⟨hs, by simp [ho, hp, ha, ht], hm, hk⟩)
  case inOrder => exact fun hs => onHw_routed (f := fun h => onFlit h n l.rx true) hh (onFlit_inOrder hl hs)
  case outOfOrder => exact fun q ok hs hq => onHw_routed (f := fun h => onFlit h n q ok) hh (onFlit_other hl hs hq)
  case ack => exact fun q => onHw_routed (f := fun h => onAck h n q) hh (onAck_frees hl)
  case nak => exact fun q k hs hk ht => onHw_routed (f := fun h => onNak h n q) hh (onNak_replays hl hs hk ht)
  case nakRetrains => exact fun q k f hs hk hf ht => onHw_routed (f := fun h => onNak h n q) hh (onNak_retrains hl hs hk hf ht)
  case resumes => exact fun hs => onHw_routed (f := fun h => retrained h n) hh (retrained_resumes hl hs)
  case down => exact fun u hs hm hu => onHw_routed (f := fun h => linkDown h n) hh (linkDown_recorded hl hs hm hu)
  case fenced => exact fun k hs hk h0 ha => onHw_routed (f := fun h => peerFenced h n) hh (peerFenced_fences hl hs hk h0 ha)
  case attempt => exact fun u hs ho hu => onHw_routed (f := fun h => retrainAttempt h n) hh (retrainAttempt_down hl hs ho hu)
  case generation =>
    intro k x hs hx hu
    refine (onHw_routed (f := fun h => generationChange h n k) hh (generationChange_announces hl hs hx hu)).trans ?_
    rw [stepEnd_nil (by rw [hh]; rfl) (by rw [hh]; rfl)]

end Sys2Proof.Machine
end

/-! PROOFS. The segments of a stream and their messages (chapter 20, R617 to R619 and Table 20.4). -/
section
namespace Sys2Proof.Machine

/-! ### Segments -/

section
variable {h : Hw} {mem : Memory} {n k gen ctr : Nat} {l : Link} {x : Stream} {ms : List Msg} (hl : l = linkAt h n) (hx : x = tabGet {} l.streams k)
include hl hx

theorem onSegment_idle {ok : Bool} (hi : l.st ≠ LinkSt.active ∨ x.used = false) : onSegment (h, mem) n k gen ctr ok ms = (h, mem) := by
  subst hl hx
  exact if_pos hi

section
variable (hs : l.st = LinkSt.active) (hu : x.used = true)
include hs hu

theorem onSegment_bad {ok : Bool} (hb : ok = false ∨ (gen = x.gen ∧ ctr < x.counter) ∨ (gen ≠ x.gen ∧ x.nextGen ≠ some gen)) :
    onSegment (h, mem) n k gen ctr ok ms = (memberDoubt h 12 n 0x0909 k 0, mem) := by
  have hbad : segmentBad x gen ctr ok = true := by
    unfold segmentBad
    rcases hb with e | ⟨e, hc⟩ | ⟨e, hc⟩
    · rw [e]
      rfl
    · rw [if_pos e, decide_eq_true hc, Bool.or_true]
    · rw [if_neg e, decide_eq_true hc, Bool.or_true]
  subst hl hx
  unfold onSegment
  dsimp only
  rw [if_neg (by simp [hs, hu]), if_pos hbad]

/-- A sound segment enters its stream and has its messages served. -/
theorem onSegment_sound {y : Stream} (hb : segmentBad x gen ctr true = false)
    (hy : y = if gen = x.gen then { x with counter := ctr + 1 } else { x with gen := gen, counter := ctr + 1, nextGen := none }) {o : HM}
    (ho : o = takeMsgs (setLink h n { l with streams := tabPut {} l.streams k y }, mem) x.set ms) :
    onSegment (h, mem) n k gen ctr true ms = (recallsDone o.1, o.2) := by
  subst hl hx ho hy
  unfold onSegment
  dsimp only
  rw [if_neg (by simp [hs, hu]), if_neg (by rw [hb]; decide)]

end
end

theorem segmentBad_present {x : Stream} {ctr : Nat} (hc : x.counter ≤ ctr) : segmentBad x x.gen ctr true = false := by
  unfold segmentBad
  rw [if_pos rfl, decide_eq_false (Nat.not_lt.2 hc)]
  rfl

theorem segmentBad_announced {x : Stream} {gen ctr : Nat} (hg : gen ≠ x.gen) (hn : x.nextGen = some gen) : segmentBad x gen ctr true = false := by
  unfold segmentBad
  rw [if_neg hg, decide_eq_false (not_not.2 hn)]
  rfl

/-! ### Messages -/

theorem takeMsgs_transit {g : Hw} {mem : Memory} {k : Nat} {m : Msg} (hd : m.dst ≠ g.ident.position) :
    takeMsgs (g, mem) k [m] = ({ g with arch := { g.arch with posted := g.arch.posted ++ [{ set := k, own := false, msg := m }] } }, mem) := by
  unfold takeMsgs
  rw [List.foldl_cons, List.foldl_nil, if_neg hd]
  rfl

theorem takeMsgs_mine {g : Hw} {mem : Memory} {k : Nat} {m : Msg} (hd : m.dst = g.ident.position) :
    takeMsgs (g, mem) k [m] = takeMsg (stir g, mem) k m := by
  unfold takeMsgs
  rw [List.foldl_cons, List.foldl_nil, if_pos hd]

section
variable {v : Hw} {mem : Memory} {k : Nat} {m : Msg}

/-- Where no binding of a set admits a package, the set has no partition for it. -/
theorem setPartFor_none {src : Nat} (hn : ∀ e, e ∈ v.arch.sets → e.2.used = true → e.2.set = k → bitOf e.2.members src = false) :
    setPartFor v k src = none := by
  unfold setPartFor
  rw [Option.map_eq_none_iff, List.find?_eq_none]
  intro e he
  simp only [Bool.and_eq_true, decide_eq_true_eq, not_and, Bool.not_eq_true]
  exact fun hu => hn e he hu.1 hu.2

theorem takeMsg_refused (hc : m.cls = .req) (hp : setPartFor v k m.src = none) :
    takeMsg (v, mem) k m = (postMsg v k { cls := .cmp, op := 3, status := 0x09, dst := m.src, txn := m.txn, addr := m.addr }, mem) := by
  unfold takeMsg
  rw [hc]
  dsimp only
  rw [hp]

theorem takeMsg_request {p : Nat} {q : ReqKind} (hc : m.cls = .req) (hp : setPartFor v k m.src = some p) (h9 : m.op ≠ 9) (hq : reqOf m.op = some q) :
    takeMsg (v, mem) k m = remoteReq (v, mem) p m q := by
  unfold takeMsg
  rw [hc]
  dsimp only
  rw [hp]
  dsimp only
  rw [if_neg h9, hq]

theorem takeMsg_snoop (hc : m.cls = .snp) : takeMsg (v, mem) k m = (remoteSnoop v k m, mem) := by
  unfold takeMsg
  rw [hc]

theorem takeMsg_answer (hc : m.cls = .rsp ∨ (m.cls = .dat ∧ awaitsDat v m = false)) : takeMsg (v, mem) k m = snoopAnswer (v, mem) m.src m := by
  unfold takeMsg
  rcases hc with hc | ⟨hc, ha⟩
  · rw [hc]
  · rw [hc]
    dsimp only
    rw [ha, if_neg (by decide)]

theorem takeMsg_granted (hc : m.cls = .dat) (ha : awaitsDat v m = true) : takeMsg (v, mem) k m = writeDat (v, mem) m := by
  unfold takeMsg
  rw [hc]
  dsimp only
  rw [if_pos ha]

theorem takeMsg_completion (hc : m.cls = .cmp) : takeMsg (v, mem) k m = (writeAnswered v m, mem) := by
  unfold takeMsg
  rw [hc]

end

/-- Settles O39: a bad segment raises its doubt alone; a sound one enters its stream, and each message goes by its class. -/
theorem segmentRow : Obligations.SegmentRow := by
  intro s h n k gen ctr l x ms hh hl hx
  have hrow : ∀ {ok : Bool} {o : HM}, onSegment (h, s.mem) n k gen ctr ok ms = o →
      exec (.segment n k gen ctr ok ms) s = .next (s.withHm (stepEnd o.1, o.2)) := fun {ok} {o} he =>
    onAll_routed (f := fun hm => onSegment hm n k gen ctr ok ms) hh he
  refine ⟨?idle, ?bad, ?present, ?announced, ?transit, ?mine⟩
  case idle =>
    intro hi ok
    refine (hrow (onSegment_idle hl hx hi)).trans ?_
    rw [stepEnd_nil (by rw [hh]; rfl) (by rw [hh]; rfl), State.withHm]
  case bad =>
    intro ok hs hu hb
    exact hrow (onSegment_bad hl hx hs hu hb)
  case present =>
    intro y o hs hu hg hc hy ho
    refine hrow (onSegment_sound hl hx hs hu (hg ▸ segmentBad_present hc) ?_ ho)
    rw [if_pos hg, hy]
  case announced =>
    intro y o hs hu hg hn hy ho
    refine hrow (onSegment_sound hl hx hs hu (segmentBad_announced hg hn) ?_ ho)
    rw [if_neg hg, hy]
  case transit => exact fun g mem m hd => takeMsgs_transit hd
  case mine =>
    intro g mem m v hd hv
    have hrun : takeMsgs (g, mem) k [m] = takeMsg (v, mem) k m := (takeMsgs_mine hd).trans (by rw [hv])
    rw [hrun]
    exact ⟨fun hc hn => takeMsg_refused hc (setPartFor_none hn), fun p q hc hp h9 hq => takeMsg_request hc hp h9 hq, takeMsg_snoop, takeMsg_answer,
      takeMsg_granted, takeMsg_completion⟩

end Sys2Proof.Machine
end

/-! PROOFS. Root ports, slots, decoders and the assignment of device functions (chapters 21 and 24). -/
section
namespace Sys2Proof.Machine

/-! ### PORT_CONFIG -/

/-- A field that SET does not name is not checked. -/
theorem skip_bit {a b : Bool} (h : a = false) : ¬ (a && b) = true := by simp [h]

theorem skip_bits {a b c d : Bool} (h : a = false) : ¬ (a && b && c && d) = true := by simp [h]

section
variable {h : Hw} {mem : Memory} {r : Req} {n : Nat} {x : RootPort} (hn : n = leAt r.payload 0 1) (hx : x = portAt h n)
include hn hx

theorem portConfig_absent (ha : 32 ≤ n ∨ x.exists_ = false) : portConfig (h, mem) r = ((h, mem), deny 0x20 0) := by
  subst hx hn
  exact if_pos (by simpa using ha)

section
variable (h32 : n < 32) (he : x.exists_ = true)
include h32 he

theorem portConfig_window (hset : bitOf (leAt r.payload 1 1) 0 = true)
    (hb : leAt r.payload 12 4 < leAt r.payload 8 4 ∨ 0xFFFF00 < leAt r.payload 12 4) : portConfig (h, mem) r = ((h, mem), deny 0x20 0) := by
  subst hx hn
  unfold portConfig
  dsimp only
  rw [if_neg (by simp [he]; omega), if_pos]
  rw [hset, decide_eq_true (by exact hb)]
  rfl

theorem portConfig_overlap {k : Nat} {y : RootPort} (hset : bitOf (leAt r.payload 1 1) 0 = true) (hd : k / 16 = n / 16) (hkn : k ≠ n)
    (hy : y = portAt h k) (h1 : y.base < leAt r.payload 12 4) (h2 : leAt r.payload 8 4 < y.limit) (h3 : y.base < y.limit)
    (h4 : leAt r.payload 8 4 < leAt r.payload 12 4) : portConfig (h, mem) r = ((h, mem), deny 0x20 0) := by
  have hover : ((List.range 16).map (· + n / 16 * 16)).any (fun k => decide (k ≠ n ∧ (portAt h k).base < (portAt h k).limit ∧
      (portAt h k).base < leAt r.payload 12 4 ∧ leAt r.payload 8 4 < (portAt h k).limit)) = true := by
    rw [List.any_eq_true]
    refine ⟨k, List.mem_map.2 ⟨k % 16, List.mem_range.2 (Nat.mod_lt _ (by decide)), by omega⟩, ?_⟩
    rw [← hy]
    exact decide_eq_true ⟨hkn, h3, h1, h2⟩
  subst hx hn
  unfold portConfig
  dsimp only
  rw [if_neg (by simp [he]; omega), if_pos]
  rw [hset, hover, decide_eq_true h4, Bool.and_true, Bool.or_true]
  rfl

theorem portConfig_timeout (hset : leAt r.payload 1 1 = 2) (ht : leAt r.payload 3 1 = 0 ∨ 64 < leAt r.payload 3 1) :
    portConfig (h, mem) r = ((h, mem), deny 0x20 0) := by
  subst hx hn
  unfold portConfig
  dsimp only
  rw [hset, if_neg (by simp [he]; omega), if_neg (skip_bit (by decide)), if_pos]
  rw [decide_eq_true ht]
  rfl

theorem portConfig_held (hset : leAt r.payload 1 1 = 1) (heq : leAt r.payload 8 4 = leAt r.payload 12 4) (hl : leAt r.payload 12 4 ≤ 0xFFFF00)
    (hw : x.base < x.limit) (hb : leAt r.payload 8 4 ≠ x.base)
    (hr : rangeHeld h ((4 + n / 16) * 2 ^ 48 + x.base * 2 ^ 20) ((4 + n / 16) * 2 ^ 48 + x.limit * 2 ^ 20) = true) :
    portConfig (h, mem) r = ((h, mem), deny 0x11 0) := by
  subst hx hn
  unfold portConfig
  dsimp only
  rw [hset, if_neg (by simp [he]; omega), if_neg, if_neg (skip_bit (by decide)), if_pos]
  · rw [hr, decide_eq_true (.inl hb), decide_eq_true hw]
    rfl
  · rw [decide_eq_false (by omega : ¬ leAt r.payload 8 4 < leAt r.payload 12 4), Bool.false_and, Bool.or_false, decide_eq_false (by omega)]
    decide

theorem portConfig_setTimeout (hset : leAt r.payload 1 1 = 2) (h1 : 1 ≤ leAt r.payload 3 1) (h64 : leAt r.payload 3 1 ≤ 64) :
    portConfig (h, mem) r = ((setPort h n { x with timeoutMs := leAt r.payload 3 1 }, mem), doneC) := by
  subst hx hn
  unfold portConfig
  dsimp only
  rw [hset, if_neg (by simp [he]; omega), if_neg (skip_bit (by decide)), if_neg, if_neg (skip_bits (by decide))]
  · rfl
  · rw [decide_eq_false (by omega)]
    decide

theorem portConfig_setKeeper (hset : leAt r.payload 1 1 = 8) :
    portConfig (h, mem) r = ((setPort h n { x with keeper := leAt r.payload 16 4 }, mem), doneC) := by
  subst hx hn
  unfold portConfig
  dsimp only
  rw [hset, if_neg (by simp [he]; omega), if_neg (skip_bit (by decide)), if_neg (skip_bit (by decide)),
    if_neg (skip_bits (by decide))]
  rfl

theorem portConfig_setWindow {b l : Nat} (hset : leAt r.payload 1 1 = 1) (hb : b = leAt r.payload 8 4) (hl : l = leAt r.payload 12 4) (hbl : b < l)
    (hmax : l ≤ 0xFFFF00) (hw : x.limit ≤ x.base)
    (ho : ∀ i, i < 16 → i + n / 16 * 16 ≠ n → (portAt h (i + n / 16 * 16)).limit ≤ (portAt h (i + n / 16 * 16)).base) :
    portConfig (h, mem) r = ((setPort h n { x with base := b, limit := l }, mem), doneC) := by
  subst hx hn
  have hover : ((List.range 16).map (· + leAt r.payload 0 1 / 16 * 16)).any (fun k => decide (k ≠ leAt r.payload 0 1 ∧
      (portAt h k).base < (portAt h k).limit ∧ (portAt h k).base < l ∧ b < (portAt h k).limit)) = false := by
    rw [List.any_eq_false]
    intro k hk
    obtain ⟨i, hi, rfl⟩ := List.mem_map.1 hk
    rw [decide_eq_true_eq]
    rintro ⟨hne, hlt, -⟩
    exact absurd hlt (Nat.not_lt.2 (ho i (List.mem_range.1 hi) hne))
  unfold portConfig
  dsimp only
  rw [hset, ← hb, ← hl, if_neg (by simp [he]; omega), hover, if_neg, if_neg (skip_bit (by decide)), if_neg]
  · rfl
  · rw [decide_eq_false (Nat.not_lt.2 hw)]
    simp
  · rw [decide_eq_false (by omega : ¬ (b > l ∨ l > 0xFFFF00)), Bool.and_false]
    decide

end

/-! ### SLOT_CONTROL -/

theorem slotControl_noSlot (ha : 32 ≤ n ∨ x.exists_ = false ∨ x.isSlot = false) : slotControl (h, mem) r = ((h, mem), deny 0x20 0x100) := by
  subst hx hn
  exact if_pos (by simpa using ha)

section
variable (h32 : n < 32) (he : x.exists_ = true) (hs : x.isSlot = true)
include h32 he hs

theorem slotControl_busy (h0 : leAt r.payload 1 1 = 0) (ht : (funcsOn h n).any (tenantFunc h) = true) :
    slotControl (h, mem) r = ((h, mem), deny 0x11 0) := by
  subst hx hn
  unfold slotControl
  dsimp only
  rw [if_neg (by simp [he, hs]; omega), if_pos h0, if_pos ht]

theorem slotControl_off {u : Hw} (h0 : leAt r.payload 1 1 = 0) (ht : (funcsOn h n).any (tenantFunc h) = false) (hu : u = slotPowerOff h n)
    (hl : x.cxl = false ∨ x.up = false) :
    slotControl (h, mem) r =
      ((setPort u n { portAt u n with held := true, slot := if x.slot = SlotSt.empty then .empty else .off }, mem), doneC) := by
  have hgone : ∀ g : Hw, linkGone g x n = g := fun g => if_neg (by rcases hl with e | e <;> simp [e])
  rw [hx, hn] at hgone
  subst hx hn hu
  unfold slotControl
  dsimp only
  rw [if_neg (by simp [he, hs]; omega), if_pos h0, if_neg (by simp [ht]), hgone]

theorem slotControl_again (h0 : leAt r.payload 1 1 ≠ 0) (ha : x.slot = SlotSt.off ∨ x.slot = SlotSt.faulted) :
    slotControl (h, mem) r = ((setPort h n { x with held := false, slot := .debounced, slotAt := h.tb.now }, mem), doneC) := by
  subst hx hn
  unfold slotControl
  dsimp only
  rw [if_neg (by simp [he, hs]; omega), if_neg h0, if_pos]
  exact decide_eq_true (ha.imp_right .inl)

end
end

/-- What a slot's power takes with it is no message and no interrupt. -/
theorem slotPowerOff_quiet (h : Hw) (n : Nat) (x : RootPort) : (setPort (slotPowerOff h n) n x).arch = h.arch ∧
    (setPort (slotPowerOff h n) n x).start = h.start := by
  unfold slotPowerOff drivePins
  exact ⟨rfl, rfl⟩

/-! ### HDM_DECODER_SET -/

section
variable {h : Hw} {mem : Memory} {r : Req}

theorem hdmDecoderSet_number (hb : 1 < leAt r.payload 0 1 ∨ 15 < leAt r.payload 1 1) : hdmDecoderSet (h, mem) r = ((h, mem), deny 0x20 0) :=
  if_pos hb

theorem hdmDecoderSet_clear {k : Nat} (hd : leAt r.payload 0 1 ≤ 1) (hb : leAt r.payload 1 1 ≤ 15) (h0 : leAt r.payload 2 1 = 0)
    (hk : k = leAt r.payload 0 1 * 16 + leAt r.payload 1 1) (hr : h.sel.ranges = []) :
    hdmDecoderSet (h, mem) r = (({ h with edges := { h.edges with decoders := tabPut {} h.edges.decoders k {} } }, mem), doneC) := by
  have hheld : ∀ lo hi, rangeHeld h lo hi = false := fun lo hi => by
    unfold rangeHeld
    rw [hr]
    rfl
  subst hk
  unfold hdmDecoderSet
  dsimp only
  rw [if_neg (by omega), if_neg (fun e => e.1 h0), h0, List.range_zero, List.map_nil, List.any_nil, if_neg (by decide), if_neg (by simp), hheld,
    Bool.and_false, if_neg (by decide)]
  rfl

/-! ### DEV_ASSIGN, DEV_REPORT_GET and DEV_ACCEPT -/

section
variable {dev : DevInfo} {p f : Nat} (hf : f = leAt r.payload 0 4) (hp : p = leAt r.payload 4 1) (h0 : p ≠ 0) (hc : partCheck h .steward p = none)
  (hu : (unitAt h 9 f).state = UnitState.free)
include hf hp h0 hc hu

theorem devAssign_port (hd : (portAt h dev.port).up = false ∨ (portAt h dev.port).contained = true) :
    devAssign dev (h, mem) r = ((h, mem), deny 0x20 0x100) := by
  subst hf hp
  unfold devAssign
  dsimp only
  rw [if_neg h0, hc]
  dsimp only
  rw [if_neg (by simp [hu]), if_neg (by simp [hu]), if_pos (by rcases hd with e | e <;> simp [e])]

section
variable (hup : (portAt h dev.port).up = true) (hcont : (portAt h dev.port).contained = false) (hport : field f 16 16 = dev.port / 16)
include hup hcont hport

theorem devAssign_noTdisp (ht : dev.tdisp = false) : devAssign dev (h, mem) r = ((h, mem), deny 0x20 0x101) := by
  subst hf hp
  unfold devAssign
  dsimp only
  rw [if_neg h0, hc]
  dsimp only
  rw [if_neg (by simp [hu]), if_neg (by simp [hu]), if_neg (by simp [hup, hcont, hport]), if_pos (by simp [ht])]

theorem devAssign_locks {x : Func} {u : Hw} (ht : dev.tdisp = true) (hb : dev.bars = []) (hr : tooManyRanges h.sel.ranges = false) (hx : x = funcAt h f)
    (hs : 0 ∉ streamsUsed h dev.port f)
    (huu : u = setUnit (setFunc h f
      { port := dev.port, tdisp := .locked, ide := 1, stream := 0, keys := x.keys + 1, resets := x.resets + 1, bars := [] }) 9 f
      { owner := p, state := .owned }) : devAssign dev (h, mem) r = ((u, mem), doneC) := by
  have hfree : (List.range 4).find? (fun i => decide (i ∉ streamsUsed h dev.port f)) = some 0 := by
    have e : List.range 4 = 0 :: [1, 2, 3] := rfl
    rw [e, List.find?_cons_of_pos]
    exact decide_eq_true hs
  have hbars : barsBad h p dev.port [] = none := by
    unfold barsBad
    rw [List.any_nil, List.foldl_nil, hr]
    rfl
  subst hf hp hx huu
  unfold devAssign
  dsimp only
  rw [if_neg h0, hc]
  dsimp only
  rw [if_neg (by simp [hu]), if_neg (by simp [hu]), if_neg (by simp [hup, hcont, hport]), if_neg (by simp [ht]), hb, hbars, hfree]
  rfl

end
end

theorem devReportGet_answers {m : Mbx} {rep meas : List Byte} {f : Nat} {x : Func} (hf : f = leAt r.payload 0 4) (hx : x = funcAt h f)
    (hm : m = .steward ∨ m = .keeper ∨ ∃ p, m = .part p ∧ (unitAt h 9 f).owner = p) (hd : devThere h f = true) :
    devReportGet m rep meas (h, mem) r = ((h, mem), doneQ (leBytes 1 (tdispCode x.tdisp) ++ leBytes 1 x.ide ++ zeros 2 ++
      leBytes 4 rep.length ++ leBytes 4 meas.length ++ zeros 4 ++ (r.payload.drop 8).take 32 ++ rep ++ meas)) := by
  subst hx hf
  unfold devReportGet
  rcases hm with rfl | rfl | ⟨p, rfl, ho⟩
  · dsimp only
    rw [if_neg (by decide), if_neg (by simp [hd])]
  · dsimp only
    rw [if_neg (by decide), if_neg (by simp [hd])]
  · dsimp only
    rw [if_neg (by simp [ho]), if_neg (by simp [hd])]

section
variable {m : Mbx} {f : Nat} {x : Func} (hf : f = leAt r.payload 0 4) (hx : x = funcAt h f) (ho : (unitAt h 9 f).owner = actsFor m)
  (hd : devThere h f = true)
include hf hx ho hd

theorem devAccept_runs (ht : x.tdisp = Tdisp.locked) : devAccept m (h, mem) r = ((setFunc h f { x with tdisp := .run }, mem), doneC) := by
  subst hx hf
  unfold devAccept
  dsimp only
  rw [if_neg (not_not.2 ho), if_neg (by simp [hd]), if_neg (not_not.2 ht)]

theorem devAccept_refused (ht : x.tdisp ≠ Tdisp.locked) : devAccept m (h, mem) r = ((h, mem), deny 0x20 0x100) := by
  subst hx hf
  unfold devAccept
  dsimp only
  rw [if_neg (not_not.2 ho), if_neg (by simp [hd]), if_pos ht]

end
end

/-- Settles O40: each command's checks come in the order of its row, and each outcome has its own equation. -/
theorem portAndDeviceCommands : Obligations.PortAndDeviceCommands := by
  intro s h m tag r hh
  refine ⟨fun hs => onAll_serve_answer hh hs rfl,
    fun n x hs hn hx ha => onAll_serve_deny hh hs (portConfig_absent hn hx ha),
    fun n x hs hn hx h32 he hset hb => onAll_serve_deny hh hs (portConfig_window hn hx h32 he hset hb),
    fun n x k y hs hn hx h32 he hset _ hd hkn hy h1 h2 h3 h4 =>
      onAll_serve_deny hh hs (portConfig_overlap hn hx h32 he hset hd hkn hy h1 h2 h3 h4),
    fun n x hs hn hx h32 he hset ht => onAll_serve_deny hh hs (portConfig_timeout hn hx h32 he hset ht),
    fun n x hs hn hx h32 he hset heq hl hw hb hr => onAll_serve_deny hh hs (portConfig_held hn hx h32 he hset heq hl hw hb hr),
    fun n x hs hn hx h32 he hset h1 h64 => onAll_serve_done hh hs (portConfig_setTimeout hn hx h32 he hset h1 h64),
    fun n x hs hn hx h32 he hset => onAll_serve_done hh hs (portConfig_setKeeper hn hx h32 he hset),
    fun n x b l hs hn hx h32 he hset hb hl hbl hmax hw ho =>
      onAll_serve_done hh hs (portConfig_setWindow hn hx h32 he hset hb hl hbl hmax hw ho),
    fun n x hs hn hx ha => onAll_serve_deny hh hs (slotControl_noSlot hn hx ha),
    fun n x hs hn hx h32 he hsl h0 ht => onAll_serve_deny hh hs (slotControl_busy hn hx h32 he hsl h0 ht), ?off,
    fun n x hs hn hx h32 he hsl h0 ha => onAll_serve_done hh hs (slotControl_again hn hx h32 he hsl h0 ha),
    fun hs hb => onAll_serve_deny hh hs (hdmDecoderSet_number hb),
    fun k hs hd hb h0 hk hr => onAll_serve_done hh hs (hdmDecoderSet_clear hd hb h0 hk hr),
    fun dev p hs hp h0 hc hu hd => onAll_serve_deny hh hs (devAssign_port rfl hp h0 hc hu hd),
    fun dev p hs hp h0 hc hu hup hcont hport ht => onAll_serve_deny hh hs (devAssign_noTdisp rfl hp h0 hc hu hup hcont hport ht),
    fun dev p f x u hs hf hp h0 hc hu hup hcont hport ht hb hr hx hst huu =>
      onAll_serve_done hh hs (devAssign_locks hf hp h0 hc hu hup hcont hport ht hb hr hx hst huu),
    fun rep meas f x hs hf hx hm hd => onAll_serve_answer hh hs (devReportGet_answers hf hx hm hd),
    fun f x hs hf hx ho hd ht => onAll_serve_done hh hs (devAccept_runs hf hx ho hd ht),
    fun f x hs hf hx ho hd ht => onAll_serve_deny hh hs (devAccept_refused hf hx ho hd ht)⟩
  case off =>
    intro n x u hs hn hx h32 he hsl h0 ht hu hl
    refine (onAll_serve_done hh hs (slotControl_off hn hx h32 he hsl h0 ht hu hl)).trans ?_
    subst hu
    obtain ⟨ea, es⟩ := slotPowerOff_quiet h n
      { portAt (slotPowerOff h n) n with held := true, slot := if x.slot = SlotSt.empty then .empty else .off }
    generalize setPort (slotPowerOff h n) n _ = g at ea es
    unfold State.ended
    rw [stepEnd_nil]
    · rw [doneCommand_arch, ea, hh]
      rfl
    · rw [doneCommand_only]
      exact (congrArg Startup.irqWake es).trans (by rw [hh]; rfl)

end Sys2Proof.Machine
end

/-! PROOFS. General pins: PIN_SET and the steps of a switch, pulses, interrupts and WAKE_N (chapter 21). -/
section
namespace Sys2Proof.Machine

/-! ### PIN_SET -/

section
variable {h : Hw} {mem : Memory} {r : Req} {n : Nat} {p : Pin} {b : Bool} (hn : leAt r.payload 0 1 = n)
include hn

theorem pinSet_number (h32 : 32 ≤ n) : pinSet b (h, mem) r = ((h, mem), deny 0x20 0) := by
  subst hn
  exact if_pos h32

section
variable (hp : p = pinAt h n)
include hp

section
variable (h32 : n < 32)
include h32

theorem pinSet_locked (hl : p.locked = true) : pinSet b (h, mem) r = ((h, mem), deny 0x20 0x100) := by
  subst hp hn
  unfold pinSet
  dsimp only
  rw [if_neg (by omega), if_pos hl]

section
variable (hl : p.locked = false)
include hl

theorem pinSet_function (hf : 0x0E ≤ leAt r.payload 1 1) : pinSet b (h, mem) r = ((h, mem), deny 0x20 0x101) := by
  subst hp hn
  unfold pinSet
  dsimp only
  rw [if_neg (by omega), if_neg (by simp [hl]), if_pos hf]

theorem pinSet_switching (hf : leAt r.payload 1 1 < 0x0E) (hs : p.step ≠ 0) : pinSet b (h, mem) r = ((h, mem), deny 0x11 0) := by
  subst hp hn
  unfold pinSet
  dsimp only
  rw [if_neg (by omega), if_neg (by simp [hl]), if_neg (by omega), if_pos hs]

section
variable (hs : p.step = 0) (hf : leAt r.payload 1 1 < 0x0E)
include hs hf

theorem pinSet_argument (ha : pinArgOk (leAt r.payload 1 1) (leAt r.payload 2 1) (leAt r.payload 4 4) = false) :
    pinSet b (h, mem) r = ((h, mem), deny 0x20 0) := by
  subst hp hn
  unfold pinSet
  dsimp only
  rw [if_neg (by omega), if_neg (by simp [hl]), if_neg (by omega), if_neg (not_not.2 hs), if_pos (by simp [ha])]

section
variable (ha : pinArgOk (leAt r.payload 1 1) (leAt r.payload 2 1) (leAt r.payload 4 4) = true)
include ha

/-- A pin named with its present function and argument: only a GPIO pin takes the value. -/
theorem pinSet_same (hfn : leAt r.payload 1 1 = p.fn) (harg : leAt r.payload 4 4 = p.arg) :
    pinSet b (h, mem) r = ((if p.fn = 0x01 ∨ p.fn = 0x02 then
      setPin h n { p with value := leAt r.payload 2 1, level := pinIdle p.fn (leAt r.payload 2 1) p.level } else h, mem), doneC) := by
  subst hp hn
  unfold pinSet
  dsimp only
  rw [if_neg (by omega), if_neg (by simp [hl]), if_neg (by omega), if_neg (not_not.2 hs), if_neg (by simp [ha]), if_pos ⟨hfn, harg⟩, hfn]

/-- The switch of a pin begins: at step 1 where its function is busy, at step 2 otherwise. -/
theorem pinSet_switches {k : Pin} (hd : leAt r.payload 1 1 ≠ p.fn ∨ leAt r.payload 4 4 ≠ p.arg)
    (hk : k = { p with newFn := leAt r.payload 1 1, newVal := leAt r.payload 2 1, newArg := leAt r.payload 4 4, since := h.tb.now })
    {busy : Bool} (hb : (p.busy || (b && decide (p.fn = 0x0B ∨ p.fn = 0x0C ∨ p.fn = 0x0D))) = busy) :
    pinSet b (h, mem) r =
      ((setPin h n { k with busy := busy, step := if busy then 1 else 2 }, mem), { commit := true, wait := .pin n }) := by
  subst hp hn hk
  unfold pinSet
  dsimp only
  rw [if_neg (by omega), if_neg (by simp [hl]), if_neg (by omega), if_neg (not_not.2 hs), if_neg (by simp [ha]), if_neg (by tauto), hb]

end
end
end
end
end
end

/-! ### The steps of a switch -/

section
variable {h u : Hw} {n : Nat} {p : Pin} (hp : p = pinAt h n)
include hp

theorem busIdle_idle (hb : p.busy = false) : busIdle h n = h := by
  subst hp
  exact if_pos (by simp [hb])

section
variable (hb : p.busy = true)
include hb

theorem busIdle_switches (hf : p.fn ≠ 5) (hs : p.step = 1) :
    busIdle h n = setPin h n { p with busy := false, step := 2, since := h.tb.now } := by
  subst hp
  unfold busIdle
  dsimp only
  rw [if_neg (by simp [hb]), if_neg hf, if_neg hf, if_pos hs]

theorem busIdle_ends (hf : p.fn ≠ 5) (hs : p.step ≠ 1) : busIdle h n = setPin h n { p with busy := false } := by
  subst hp
  unfold busIdle
  dsimp only
  rw [if_neg (by simp [hb]), if_neg hf, if_neg hf, if_neg hs]

section
variable (hf : p.fn = 5) (hu : u = { h with tb := { h.tb with now := max h.tb.now (p.pulse + 100000) } })
include hf hu

theorem busIdle_pulse (hs : p.step ≠ 1) : busIdle h n = setPin u n { p with busy := false, level := false } := by
  subst hp hu
  unfold busIdle
  dsimp only
  rw [if_neg (by simp [hb]), if_pos hf, if_pos hf, if_neg hs]
  rfl

theorem busIdle_pulseSwitches (hs : p.step = 1) :
    busIdle h n = setPin u n { p with busy := false, level := false, step := 2, since := u.tb.now } := by
  subst hp hu
  unfold busIdle
  dsimp only
  rw [if_neg (by simp [hb]), if_pos hf, if_pos hf, if_pos hs]
  rfl

end
end

theorem pinForced_idle (hn : p.step ≠ 1 ∨ p.busy = false ∨ (p.fn ≠ 0x0B ∧ p.fn ≠ 0x0C ∧ p.fn ≠ 0x0D)) : pinForced h n = h := by
  subst hp
  exact if_pos hn

theorem pinForced_forces (hs : p.step = 1) (hb : p.busy = true) (hf : p.fn = 0x0B ∨ p.fn = 0x0C ∨ p.fn = 0x0D)
    (hu : u = { h with tb := { h.tb with now := max h.tb.now (p.since + 1000000) } }) :
    pinForced h n = recordWrite (setPin u n { p with busy := false, step := 2, since := u.tb.now })
      { type := 0x0A08, cls := 0, part := 0xFF, arg0 := n, arg1 := p.fn } := by
  have hgo : ¬ (p.step ≠ 1 ∨ p.busy = false ∨ (p.fn ≠ 0x0B ∧ p.fn ≠ 0x0C ∧ p.fn ≠ 0x0D)) := by
    rw [hs, hb]
    rcases hf with e | e | e <;> simp [e]
  subst hp hu
  exact if_neg hgo

theorem windowOpens_idle {e : Option Bool} (hs : p.step ≠ 2) : windowOpens h n e = h := by
  subst hp
  exact if_pos hs

theorem windowOpens_opens {e : Option Bool} (hs : p.step = 2) (hu : u = { h with tb := { h.tb with now := max h.tb.now (p.since + 4000) } }) :
    windowOpens h n e = setPin u n
      { p with step := 3, since := u.tb.now, asserted := false, level := e.getD (pinPull p.newFn p.newVal p.level) } := by
  subst hp hu
  exact if_neg (not_not.2 hs)

theorem windowEnds_idle (hs : p.step ≠ 3) : windowEnds h n = h := by
  subst hp
  exact if_pos hs

theorem windowEnds_ends {k : Pin} (hs : p.step = 3) (hu : u = { h with tb := { h.tb with now := max h.tb.now (p.since + 5000) } })
    (hk : k = {
      fn := p.newFn, value := p.newVal, arg := p.newArg, locked := p.locked, fired := p.fired,
      level := if pinDrives p.newFn then pinIdle p.newFn p.newVal p.level else p.level }) :
    windowEnds h n = endWaits (setPin u n k) (fun q => decide (q.wait = Wait.pin n)) 0 0 := by
  subst hp hu hk
  exact if_neg (not_not.2 hs)

/-! ### Pulses, interrupts and WAKE_N -/

theorem timePulse_rises {t : Nat} (hf : p.fn = 5) (hs : p.step = 0) (hb : p.busy = false) (ha : p.arg ≠ 0) (ht : t = (h.tb.now / p.arg + 1) * p.arg)
    (hu : u = { h with tb := { h.tb with now := max h.tb.now t } }) :
    timePulse h n = setPin u n { p with level := true, busy := true, pulse := t, fired := p.fired + 1 } := by
  have hgo : ¬ (p.fn ≠ 0x05 ∨ p.step ≠ 0 ∨ p.busy = true ∨ p.arg = 0) := by simp [hf, hs, hb, ha]
  subst hp ht hu
  exact if_neg hgo

theorem timePulse_idle (hn : p.step ≠ 0 ∨ p.fn ≠ 5 ∨ p.busy = true ∨ p.arg = 0) : timePulse h n = h := by
  subst hp
  exact if_pos (by tauto)

theorem irqIn_other {l a : Bool} (hn : p.fn ≠ 3 ∨ p.step ≠ 0 ∨ 32 ≤ n) : irqIn h n l a none = h := by
  subst hp
  exact if_pos hn

section
variable (hf : p.fn = 3) (hs : p.step = 0) (h32 : n < 32)
include hf hs h32

theorem irqIn_quiet {l a : Bool} (ha : a = false ∨ p.asserted = true) : irqIn h n l a none = setPin h n { p with level := l, asserted := a } := by
  have hno : (a && !p.asserted) = false := by rcases ha with e | e <;> simp [e]
  rw [hp] at hno
  subst hp
  unfold irqIn
  dsimp only
  rw [if_neg (by simp [hf, hs, h32]), hno, if_neg (by decide)]
  rfl

theorem irqIn_asserts {l : Bool} (ha : p.asserted = false) (hu : u = setPin h n { p with level := l, asserted := true, fired := p.fired + 1 }) :
    irqIn h n l true none = aplicRaise u (n / 16) (n % 16 + 1) := by
  have hyes : (true && !p.asserted) = true := by rw [ha]; rfl
  rw [hp] at hyes
  subst hp hu
  unfold irqIn
  dsimp only
  rw [if_neg (by simp [hf, hs, h32]), hyes, if_pos rfl]
  rfl

end
end

theorem aplicRaise_delivers {h g : Hw} {d q k : Nat} {w : Nat} (hk : k = aplicKey d q) (hw : w = tabGet 0 h.edges.irqTarget k)
    (ht : g.edges.irqTarget = h.edges.irqTarget) (ho : g.edges.irqOwner = h.edges.irqOwner) (hh : ∀ x, hartOwner g x = hartOwner h x)
    (hd : bitOf w 63 = true ∧ hartOwner h (field w 6 0) = tabGet 31 h.edges.irqOwner k) :
    aplicRaise g d q = imsicSet g (field w 6 0) (field w 9 7) (field w 20 10) := by
  subst hk hw
  unfold aplicRaise
  dsimp only
  rw [ht, ho, hh]
  exact if_pos (by simp [hd.1, hd.2])

theorem aplicRaise_drops {h g : Hw} {d q k : Nat} {w : Nat} (hk : k = aplicKey d q) (hw : w = tabGet 0 h.edges.irqTarget k)
    (ht : g.edges.irqTarget = h.edges.irqTarget) (ho : g.edges.irqOwner = h.edges.irqOwner) (hh : ∀ x, hartOwner g x = hartOwner h x)
    (hd : bitOf w 63 = false ∨ hartOwner h (field w 6 0) ≠ tabGet 31 h.edges.irqOwner k) : aplicRaise g d q = g := by
  subst hk hw
  unfold aplicRaise
  dsimp only
  rw [ht, ho, hh]
  exact if_neg (by rcases hd with e | e <;> simp [e])

theorem irqIn_wired {h : Hw} {n d q : Nat} {l : Bool} (hd : d < 2) (h16 : 16 < q) (h64 : q ≤ 64) :
    irqIn h n l true (some (d, q)) = aplicRaise h d q := by
  unfold irqIn
  exact if_pos (by simp [hd, h16, h64])

theorem irqIn_wiredOther {h : Hw} {n d q : Nat} {l a : Bool} (hn : a = false ∨ 2 ≤ d ∨ q ≤ 16 ∨ 64 < q) : irqIn h n l a (some (d, q)) = h := by
  unfold irqIn
  refine if_neg ?_
  rcases hn with e | e
  · simp [e]
  · simp only [Bool.and_eq_true, decide_eq_true_eq]
    omega

section
variable {h g : Hw} {n : Nat} {p : Pin} {w : WakeTrain} (hp : p = pinAt h n)
include hp

theorem wakePin_other (hn : p.fn ≠ 4 ∨ p.step ≠ 0) : wakePin h n w = h := by
  subst hp
  exact if_pos hn

theorem wakePin_wakes (hf : p.fn = 4) (hs : p.step = 0)
    (hg : g = setPin { h with tb := { h.tb with now := max h.tb.now (h.tb.now + 1000000) } } n { p with level := false }) :
    wakePin h n w = dormantExit g .pin w := by
  have hgo : ¬ (p.fn ≠ 0x04 ∨ p.step ≠ 0) := by simp [hf, hs]
  subst hp hg
  exact if_neg hgo

end

/-! ### The rows -/

/-- The row of a served command that commits and waits, where its effect leaves no message and no interrupt. -/
theorem waitCommand_quiet {h e : Hw} {m : Mbx} {r : Req} {w : Wait} (ha : e.arch.posted = []) (hi : e.start.irqWake = false) :
    stepEnd (waitCommand h e m r w []) = waitCommand h e m r w [] :=
  stepEnd_nil (by rw [waitCommand_arch, ha]) (by rw [waitCommand_only]; exact hi)

/-- Settles O41: each check of PIN_SET and each step and event of a pin has its own equation. -/
theorem pinCommandsAndRows : Obligations.PinCommandsAndRows := by
  intro s h m tag r n p hh hp
  refine ⟨fun hs => onAll_serve_answer hh hs rfl, ?set, ?idle, ?pulse, ?pulseSwitch, ?ends, ?idle0, ?forced0, ?open0, ?end0, ?forced, ?openExt, ?open_,
    ?end_, ?rise, ?rise0, ?irqQuiet, ?irq, ?irqOther, ?wired, ?wiredOther, ?wake0, ?wake, ?wakes⟩
  case set =>
    intro b hs hn
    refine ⟨fun h32 => onAll_serve_deny hh hs (pinSet_number hn h32),
      fun h32 hl => onAll_serve_deny hh hs (pinSet_locked hn hp h32 hl),
      fun h32 hl hf => onAll_serve_deny hh hs (pinSet_function hn hp h32 hl hf),
      fun h32 hl hf hst => onAll_serve_deny hh hs (pinSet_switching hn hp h32 hl hf hst),
      fun h32 hl hst hf ha => onAll_serve_deny hh hs (pinSet_argument hn hp h32 hl hst hf ha), ?gpio2, ?gpio1, ?same, ?switch⟩
    case gpio2 =>
      intro h32 hl hst hfn hf hv ha
      refine onAll_serve_done hh hs ((pinSet_same hn hp h32 hl hst (by omega) ?_ (hf.trans hfn.symm) ha).trans ?_)
      · rw [hf]
        exact decide_eq_true hv
      · rw [hfn, if_pos (.inr rfl)]
        rfl
    case gpio1 =>
      intro h32 hl hst hfn hf hv ha
      refine onAll_serve_done hh hs ((pinSet_same hn hp h32 hl hst (by omega) ?_ (hf.trans hfn.symm) ha).trans ?_)
      · rw [hf]
        exact decide_eq_true hv
      · rw [hfn, if_pos (.inl rfl)]
    case same =>
      intro h32 hl hst hf hlt h1 h2 ha hok
      refine onAll_serve_done hh hs ((pinSet_same hn hp h32 hl hst (by omega) (by rw [hf, ha, hok]) hf ha).trans ?_)
      rw [if_neg (by simp [h1, h2])]
    case switch =>
      intro k h32 hl hst hf hd ha hk
      have hquiet : ∀ x, (setPin h n x).arch.posted = [] ∧ (setPin h n x).start.irqWake = false := fun x => by
        rw [hh]
        exact ⟨rfl, rfl⟩
      have hrow : ∀ busy, (p.busy || (b && decide (p.fn = 0x0B ∨ p.fn = 0x0C ∨ p.fn = 0x0D))) = busy →
          exec (.pinSet m tag b) s = .next (s.withHw
            (waitCommand h (setPin h n { k with busy := busy, step := if busy then 1 else 2 }) m r (.pin n) [])) := fun busy hb => by
        refine (onAll_serve_wait hh hs (pinSet_switches hn hp h32 hl hst hf ha hd hk hb) (by simp)).trans ?_
        obtain ⟨e1, e2⟩ := hquiet { k with busy := busy, step := if busy then 1 else 2 }
        unfold State.ended
        rw [waitCommand_quiet e1 e2]
      exact ⟨fun hb => hrow true hb, fun hb => hrow false hb⟩
  case idle => exact fun hb hf hs => onHw_routed (f := fun h => busIdle h n) hh (busIdle_switches hp hb hf hs)
  case pulse => exact fun u hb hf hs hu => onHw_routed (f := fun h => busIdle h n) hh (busIdle_pulse hp hb hf hu hs)
  case pulseSwitch => exact fun u hb hf hs hu => onHw_routed (f := fun h => busIdle h n) hh (busIdle_pulseSwitches hp hb hf hu hs)
  case ends => exact fun hb hf hs => onHw_routed (f := fun h => busIdle h n) hh (busIdle_ends hp hb hf hs)
  case idle0 => exact fun hb => onHw_routed (f := fun h => busIdle h n) hh (busIdle_idle hp hb)
  case forced0 => exact fun hn => onHw_routed (f := fun h => pinForced h n) hh (pinForced_idle hp hn)
  case open0 => exact fun e hs => onHw_routed (f := fun h => windowOpens h n e) hh (windowOpens_idle hp hs)
  case end0 => exact fun hs => onHw_routed (f := fun h => windowEnds h n) hh (windowEnds_idle hp hs)
  case forced => exact fun u hs hb hf hu => onHw_routed (f := fun h => pinForced h n) hh (pinForced_forces hp hs hb hf hu)
  case openExt => exact fun u e hs hu => onHw_routed (f := fun h => windowOpens h n (some e)) hh (windowOpens_opens hp hs hu)
  case open_ => exact fun u hs hu => onHw_routed (f := fun h => windowOpens h n none) hh (windowOpens_opens hp hs hu)
  case end_ => exact fun u k hs hu hk => onHw_routed (f := fun h => windowEnds h n) hh (windowEnds_ends hp hs hu hk)
  case rise =>
    exact fun t u hf hs hb ha ht hu => onHw_routed (f := fun h => timePulse h n) hh (timePulse_rises hp hf hs hb ha ht hu)
  case rise0 => exact fun hn => onHw_routed (f := fun h => timePulse h n) hh (timePulse_idle hp hn)
  case irqQuiet =>
    exact fun l a hf hs h32 ha => onHw_routed (f := fun h => irqIn h n l a none) hh (irqIn_quiet hp hf hs h32 ha)
  case irq =>
    intro l u k w hf hs h32 ha hk hw hu
    have hrow : ∀ e, aplicRaise u (n / 16) (n % 16 + 1) = e → exec (.irqIn n l true none) s = .next (s.ended e) := fun e he =>
      onHw_routed (f := fun h => irqIn h n l true none) hh ((irqIn_asserts hp hf hs h32 ha hu).trans he)
    subst hu
    exact ⟨fun hd => hrow _ (aplicRaise_delivers hk hw rfl rfl (fun _ => rfl) hd), fun hd => hrow _ (aplicRaise_drops hk hw rfl rfl (fun _ => rfl) hd)⟩
  case irqOther => exact fun l a hn => onHw_routed (f := fun h => irqIn h n l a none) hh (irqIn_other hp hn)
  case wired =>
    intro l d q k w hd h16 h64 hk hw
    have hrow : ∀ e, aplicRaise h d q = e → exec (.irqIn n l true (some (d, q))) s = .next (s.ended e) := fun e he =>
      onHw_routed (f := fun h => irqIn h n l true (some (d, q))) hh ((irqIn_wired hd h16 h64).trans he)
    exact ⟨fun hd => hrow _ (aplicRaise_delivers hk hw rfl rfl (fun _ => rfl) hd), fun hd => hrow _ (aplicRaise_drops hk hw rfl rfl (fun _ => rfl) hd)⟩
  case wiredOther => exact fun l a d q hn => onHw_routed (f := fun h => irqIn h n l a (some (d, q))) hh (irqIn_wiredOther hn)
  case wake0 => exact fun w hn => onHw_routed (f := fun h => wakePin h n w) hh (wakePin_other hp hn)
  case wake =>
    intro w g hf hs hg
    have hrow : ∀ e, dormantExit g .pin w = e → exec (.wakeN n w) s = .next (s.ended e) := fun e he =>
      onHw_routed (f := fun h => wakePin h n w) hh ((wakePin_wakes hp hf hs hg).trans he)
    refine ⟨fun hst => hrow _ (if_pos (.inl ?_)), fun _ => hrow _ rfl⟩
    rw [hg]
    exact hst
  case wakes =>
    intro w hf hs hst hk hi hfail
    refine ⟨_, onHw_routed (f := fun h => wakePin h n w) hh (wakePin_wakes hp hf hs rfl), ?_⟩
    obtain ⟨a, b, -, -, -, d, -, -⟩ := dormantExit_woken
      (h := setPin { h with tb := { h.tb with now := max h.tb.now (h.tb.now + 1000000) } } n { p with level := false })
      (b := .pin) (w := w) hst (by decide) hi hfail hk
    exact ⟨a, b, d⟩

end Sys2Proof.Machine
end

/-! PROOFS. The commands of the keep-alive domain and of firmware images (chapters 21 and 24). -/
section
namespace Sys2Proof.Machine

section
variable {h : Hw} {mem : Memory} {r : Req} {k : KeepAlive}

theorem rtcSet_sets (hk : k = h.keep) (ha : h.ident.admitted = false) : rtcSet (h, mem) r =
    (({ h with keep := { k with rtc := leAt r.payload 0 8, rtcAt := h.tb.now, rtcValid := true } }, mem), doneC) := by
  subst hk
  exact if_neg (by simp [ha])

theorem rtcSet_refused (ha : h.ident.admitted = true) : rtcSet (h, mem) r = ((h, mem), deny 0x20 0x100) := if_pos ha

theorem chargerSet_refused {icc vcv : Nat} (hi : icc = leAt r.payload 1 1) (hv : vcv = leAt r.payload 2 2)
    (hb : icc = 0 ∨ 20 < icc ∨ vcv < 2800 ∨ 3300 < vcv ∨ vcv % 10 ≠ 0) : chargerSet (h, mem) r = ((h, mem), deny 0x20 0) := by
  subst hi hv
  exact if_pos hb

theorem chargerSet_sets {icc vcv : Nat} {on : Bool} (hk : k = h.keep) (hi : icc = leAt r.payload 1 1) (hv : vcv = leAt r.payload 2 2)
    (ho : on = bitOf (leAt r.payload 0 1) 0) (h1 : 1 ≤ icc) (h20 : icc ≤ 20) (hlo : 2800 ≤ vcv) (hhi : vcv ≤ 3300) (h10 : vcv % 10 = 0) :
    chargerSet (h, mem) r =
      (({ h with keep := { k with chgOn := on, icc := icc, vcv := vcv, cellBad := 0, phase := if on then k.phase else 0 } }, mem), doneC) := by
  have hgo : ¬ (icc = 0 ∨ icc > 20 ∨ vcv < 2800 ∨ vcv > 3300 ∨ vcv % 10 ≠ 0) := by omega
  subst hk hi hv ho
  exact if_neg hgo

theorem tamperConfig_refused {d : List Nat} (hd : d = (List.range 4).map (fun i => leAt r.payload (4 + i) 1)) (hx : ∃ x, x ∈ d ∧ (x = 0 ∨ 100 < x)) :
    tamperConfig (h, mem) r = ((h, mem), deny 0x20 0) := by
  obtain ⟨x, hm, hb⟩ := hx
  have hany : d.any (fun d => decide (d = 0 ∨ d > 100)) = true := List.any_eq_true.2 ⟨x, hm, decide_eq_true hb⟩
  subst hd
  exact if_pos hany

theorem tamperConfig_sets {d : List Nat} (hk : k = h.keep) (hd : d = (List.range 4).map (fun i => leAt r.payload (4 + i) 1))
    (hx : ∀ x, x ∈ d → 1 ≤ x ∧ x ≤ 100) :
    tamperConfig (h, mem) r = (({ h with keep := { k with enables := leAt r.payload 0 1 % 16, debounce := d } }, mem), doneC) := by
  have hany : ¬ d.any (fun d => decide (d = 0 ∨ d > 100)) = true := by
    rw [List.any_eq_true]
    rintro ⟨x, hm, hb⟩
    have := hx x hm
    have := of_decide_eq_true hb
    omega
  subst hk hd
  exact if_neg hany

/-! ### Images -/

section
variable {i n a : Nat} (hi : i = leAt r.payload 0 1) (hn : n = leAt r.payload 1 1) (ha : a = if i = 0 then h.edges.active else h.edges.bootAct)
include hi hn ha

theorem fwWrite_active (he : n = a) : fwWrite (h, mem) r = ((h, mem), deny 0x20 0x100) := by
  subst hi hn ha
  exact if_pos (decide_eq_true he)

theorem fwWrite_long (he : n ≠ a) (hl : (imagePlace i n).2 < leAt r.payload 4 4 + (r.payload.drop 8).length) :
    fwWrite (h, mem) r = ((h, mem), deny 0x20 0x103) := by
  subst hi hn ha
  unfold fwWrite imageActive
  dsimp only
  rw [if_neg (by simpa using he), if_pos hl]

theorem fwWrite_writes (he : n ≠ a) (hl : leAt r.payload 4 4 + (r.payload.drop 8).length ≤ (imagePlace i n).2) :
    fwWrite (h, mem) r = (({ h with
      edges := { h.edges with
        flash := putBytes h.edges.flash ((imagePlace i n).1 + leAt r.payload 4 4) (r.payload.drop 8)
        fw := h.edges.fw.set (i * 2 + n) { st := 1 } } }, mem), doneC) := by
  subst hi hn ha
  unfold fwWrite imageActive
  dsimp only
  rw [if_neg (by simpa using he), if_neg (by omega)]
  rfl

theorem fwVerify_active {info : ImageInfo} (he : n = a) : fwVerify info (h, mem) r = ((h, mem), deny 0x20 0x100) := by
  subst hi hn ha
  exact if_pos (decide_eq_true he)

/-- A slot's check answers its result and is kept with the slot. -/
theorem fwVerify_checks {info : ImageInfo} (he : n ≠ a) {ok : Bool} (ho : (info.ok && decide ((h.edges.fw.getD (i * 2 + n) {}).st ≠ 0)) = ok) :
    fwVerify info (h, mem) r = ((setImage h (i * 2 + n)
      { st := if ok then 2 else 3, version := info.version, secVer := info.secVer, digest := info.digest }, mem),
      doneC (leBytes 1 (flag (!ok)) ++ zeros 3 ++ leBytes 4 info.secVer ++ ((info.digest ++ zeros 48).take 48))) := by
  subst hi hn ha ho
  unfold fwVerify imageActive
  dsimp only
  rw [if_neg (by simpa using he)]
  rfl

end

section
variable {i n : Nat} {x : FwSlot} (hi : i = leAt r.payload 0 1) (hn : n = leAt r.payload 1 1) (hx : x = h.edges.fw.getD (i * 2 + n) {})
include hi hn hx

theorem fwActivate_unverified (hs : x.st ≠ 2) : fwActivate (h, mem) r = ((h, mem), deny 0x20 0x101) := by
  subst hi hn hx
  exact if_pos hs

section
variable (hs : x.st = 2)
include hs

theorem fwActivate_old (hv : x.secVer < h.ident.fusedMin) : fwActivate (h, mem) r = ((h, mem), deny 0x20 0x102) := by
  subst hi hn hx
  unfold fwActivate imageNo
  dsimp only
  rw [if_neg (not_not.2 hs), if_pos hv]

theorem fwActivate_boot (hv : h.ident.fusedMin ≤ x.secVer) (h0 : i ≠ 0) :
    fwActivate (h, mem) r = (({ h with edges := { h.edges with bootAct := n } }, mem), doneC) := by
  subst hi hn hx
  unfold fwActivate imageNo
  dsimp only
  rw [if_neg (not_not.2 hs), if_neg (Nat.not_lt.2 hv), if_neg h0]

theorem fwActivate_firmware (hv : h.ident.fusedMin ≤ x.secVer) (h0 : i = 0) :
    fwActivate (h, mem) r = (({ h with edges := { h.edges with active := n } }, mem),
      { commit := true, closes := true, after := fun hm => (mrBegin hm.1, hm.2) }) := by
  subst hi hn hx
  unfold fwActivate imageNo
  dsimp only
  rw [if_neg (not_not.2 hs), if_neg (Nat.not_lt.2 hv), if_pos h0]

end
end
end

/-! ### The rows -/

/-- The end of the step of a command that commits leaves it as it is, where its effect leaves no message and no interrupt. -/
theorem doneCommand_quiet {h e : Hw} {m : Mbx} {r : Req} {p : List Byte} (ha : e.arch.posted = []) (hi : e.start.irqWake = false) :
    stepEnd (doneCommand h e m r p) = doneCommand h e m r p :=
  stepEnd_nil (by rw [doneCommand_arch, ha]) (by rw [doneCommand_only]; exact hi)

/-- The row of a served command that closes its own session and resets what is left. -/
theorem onAll_serve_closes {s : State} {h e : Hw} {m : Mbx} {tag code : Nat} {r : Req} {f : HM → Req → HM × Reply} {g : Hw → Hw}
    (hh : h = clearSent s.hw) (hs : Serving s m tag code r)
    (hf : f (h, s.mem) r = ((e, s.mem), { commit := true, closes := true, after := fun hm => (g hm.1, hm.2) })) :
    onAll s (fun hm => serve hm m tag code f) = .next (s.ended (acceptedLast h (g (closedFor h e m r)) m r)) :=
  onAll_routedHw hh (serve_closes hh hs f hf)

/-- Settles O42: each command is one equation for its body. -/
theorem keepAliveCommands : Obligations.KeepAliveCommands := by
  intro s h m tag r k hh hk
  refine ⟨fun hs ha => onAll_serve_done hh hs (rtcSet_sets hk ha), fun hs ha => onAll_serve_deny hh hs (rtcSet_refused ha),
    fun hs => onAll_serve_done hh hs (by subst hk; rfl), ?charger, fun hs => onAll_serve_done hh hs (by subst hk; rfl),
    fun hs => onAll_serve_done hh hs (by subst hk; rfl), ?tamper, fun hs => onAll_serve_answer hh hs (by subst hk; rfl), ?version, ?write,
    ?verify, ?activate⟩
  case charger =>
    intro icc vcv on hs hi hv ho
    exact ⟨fun hb => onAll_serve_deny hh hs (chargerSet_refused hi hv hb),
      fun h1 h20 hlo hhi h10 => onAll_serve_done hh hs (chargerSet_sets hk hi hv ho h1 h20 hlo hhi h10)⟩
  case tamper =>
    intro d hs hd
    exact ⟨fun hx => onAll_serve_deny hh hs (tamperConfig_refused hd hx), fun hx => onAll_serve_done hh hs (tamperConfig_sets hk hd hx)⟩
  case version =>
    rintro a b hs rfl rfl
    exact onAll_serve_query hh hs rfl
  case write =>
    intro i n a hs hi hn ha
    refine ⟨fun he => onAll_serve_deny hh hs (fwWrite_active hi hn ha he), fun he hl => onAll_serve_deny hh hs (fwWrite_long hi hn ha he hl),
      fun he hl => (onAll_serve_done hh hs (fwWrite_writes hi hn ha he hl)).trans ?_⟩
    unfold State.ended
    rw [doneCommand_quiet (by rw [hh]; rfl) (by rw [hh]; rfl)]
  case verify =>
    intro i n a info hs hi hn ha
    exact ⟨fun he => onAll_serve_deny hh hs (fwVerify_active hi hn ha he),
      fun he ho hst => onAll_serve_done hh hs (fwVerify_checks (info := info) hi hn ha he (ok := true) (by rw [ho, decide_eq_true hst]; rfl)),
      fun he ho => onAll_serve_done hh hs (fwVerify_checks (info := info) hi hn ha he (ok := false) (by simp [ho]))⟩
  case activate =>
    intro i n x hs hi hn hx
    refine ⟨fun hst => onAll_serve_deny hh hs (fwActivate_unverified hi hn hx hst),
      fun hst hv => onAll_serve_deny hh hs (fwActivate_old hi hn hx hst hv),
      fun hst hv h0 => onAll_serve_done hh hs (fwActivate_boot hi hn hx hst hv h0), ?_⟩
    rintro u hst hv h0 rfl
    exact onAll_serve_closes hh hs (fwActivate_firmware hi hn hx hst hv h0)

end Sys2Proof.Machine
end

/-! PROOFS. The events of the keep-alive domain: clock, button, tamper inputs, supply, cell and charger (chapter 21). -/
section
namespace Sys2Proof.Machine

section
variable {h : Hw} {k : KeepAlive} (hk : k = h.keep)
include hk

/-! ### The clock and the button -/

theorem rtcCopy_copies (hp : k.powered = true) (hu : h.tb.unsynced = false) (ho : h.tb.holdover = false) (hs : h.start.st ≠ PowerSt.off) :
    rtcCopy h = { h with keep := { k with rtc := h.tb.now, rtcAt := h.tb.now, rtcValid := true } } := by
  subst hk
  exact if_neg (by simp [hp, hu, ho, hs])

theorem rtcCopy_none (hn : k.powered = false ∨ h.tb.unsynced = true ∨ h.tb.holdover = true ∨ h.start.st = PowerSt.off) : rtcCopy h = h := by
  subst hk
  exact if_pos (by rcases hn with e | e | e | e <;> simp [e])

theorem rtcAlarm_rings {g : Hw} {ok : WakeTrain} (hp : k.powered = true) (ha : k.alarm ≠ 0)
    (hg : g = { h with tb := { h.tb with now := max h.tb.now (h.tb.now + (k.alarm - (k.rtc + (h.tb.now - k.rtcAt)))) } }) :
    rtcAlarm h ok = dormantExit { g with keep := { k with alarm := 0 } } .alarm ok := by
  subst hk hg
  exact if_neg (by simp [hp, ha])

theorem rtcAlarm_unset {ok : WakeTrain} (ha : k.alarm = 0) : rtcAlarm h ok = h := by
  subst hk
  exact if_pos (by simp [ha])

/-- The enabled tamper inputs are quiet where each has returned high for its debounce. -/
theorem tamperQuiet_of (hq : ∀ i, i < 4 → bitOf k.enables i = true →
    bitOf k.inputs i = false ∧ k.risen.getD i 0 + k.debounce.getD i 10 * 1000000 ≤ h.tb.now) : tamperQuiet h = true := by
  subst hk
  unfold tamperQuiet
  rw [List.all_eq_true]
  intro i hi
  rw [List.mem_range] at hi
  cases he : bitOf h.keep.enables i with
  | false => simp
  | true =>
    obtain ⟨h1, h2⟩ := hq i hi he
    rw [h1, decide_eq_true (by exact h2)]
    rfl

theorem tamperQuiet_not {i : Nat} (hi : i < 4) (he : bitOf k.enables i = true) (hl : bitOf k.inputs i = true) : tamperQuiet h = false := by
  subst hk
  rw [Bool.eq_false_iff]
  unfold tamperQuiet
  rw [Ne, List.all_eq_true]
  intro hall
  have := hall i (List.mem_range.2 hi)
  simp [he, hl] at this

theorem buttonRelease_clears {t : Nat} (hp : k.powered = true) (hlo : 2000 ≤ t) (hhi : t ≤ 6000) (hl : k.latch ≠ 0) (hq : tamperQuiet h = true) :
    buttonRelease h t = flushKeep { h with keep := { k with latch := 0, cleared := some k.latch, clearedAt := some h.tb.now } } := by
  subst hk
  unfold buttonRelease clearPress
  rw [if_neg (by simp [hp]), if_pos ⟨hlo, hhi⟩, if_neg (by simp [hl, hq])]

theorem buttonRelease_held {t : Nat} (hp : k.powered = true) (hlo : 2000 ≤ t) (hhi : t ≤ 6000) (hq : tamperQuiet h = false) : buttonRelease h t = h := by
  subst hk
  unfold buttonRelease clearPress
  rw [if_neg (by simp [hp]), if_pos ⟨hlo, hhi⟩, if_pos (.inr hq)]

theorem buttonRelease_other {t : Nat} (hp : k.powered = true) (ht : t < 2000 ∨ 6000 < t) : buttonRelease h t = h := by
  subst hk
  unfold buttonRelease
  rw [if_neg (by simp [hp]), if_neg (by omega)]

theorem buttonHold_restarts (hp : k.powered = true) : buttonHold h = restartKeep h := by
  subst hk
  exact if_pos (by simp [hp])

/-! ### The tamper inputs -/

theorem tamper_latches {n : Nat} {g : Hw} (hp : k.powered = true) (hn : n < 4) (he : bitOf k.enables n = true) (hi : bitOf k.inputs n = false)
    (hg : g = { h with keep := { k with
      inputs := k.inputs ||| 2 ^ n, latch := k.latch ||| 2 ^ n, tampers := min 255 (k.tampers + 1), sealKey := k.sealNext,
      sealNext := k.sealNext + 1 } }) :
    tamper h n = if h.start.st = PowerSt.off then g else doubt g (.tamper n) := by
  subst hk hg
  exact if_neg (by simp [hp, hn, he, hi])

theorem tamper_ignored {n : Nat} (hn : k.powered = false ∨ 4 ≤ n ∨ bitOf k.enables n = false) : tamper h n = h := by
  subst hk
  exact if_pos (by rcases hn with e | e | e <;> simp [e])

theorem tamperHigh_rises {n : Nat} (hn : n < 4) (hp : k.powered = true) :
    tamperHigh h n = { h with keep := { k with inputs := setField k.inputs n n 0, risen := k.risen.set n h.tb.now } } := by
  subst hk
  exact if_neg (by simp [hp, hn])

/-! ### The supply and the cell -/

theorem vkaFall_carried (hv : k.vka = true) (hs : k.ship = false) (hc : 2200 ≤ k.cellMv) :
    vkaFall h = { h with keep := { k with vka := false, phase := 0 } } := by
  subst hk
  unfold vkaFall
  dsimp only
  rw [if_neg (by simp [hv]), if_neg (by simp [hs, hc])]

theorem vkaFall_opens (hv : k.vka = true) (hc : k.ship = true ∨ k.cellMv < 2200) :
    vkaFall h = { h with keep := { k with vka := false, powered := false, open_ := true, phase := 0, kaLost := true } } := by
  subst hk
  unfold vkaFall
  dsimp only
  rw [if_neg (by simp [hv]), if_pos (by simpa using hc)]

theorem vkaReturn_returns {g : Hw} (hv : k.vka = false)
    (hg : g = { h with tb := { h.tb with now := max h.tb.now (h.tb.now + 10000000) }, keep := { k with vka := true } }) :
    vkaReturn h = if k.powered then g else restartKeep g := by
  subst hk hg
  exact if_neg (by simp [hv])

theorem cellLow_opens {mv : Nat} (hv : k.vka = false) (hp : k.powered = true) (hm : mv < 2200) :
    cellLow h mv = { h with keep := { k with cellMv := mv, powered := false, open_ := true, kaLost := true } } := by
  subst hk
  exact if_neg (by simp [hv, hp, hm])

/-! ### The charger -/

section
variable {mv : Nat} (hc : chargerOn h = true)
include hc

theorem chargePhase_low {t : Bool} (hp : k.phase = 0 ∨ k.phase = 4 ∧ mv + 100 ≤ k.vcv) (hm : mv < 2500) :
    chargePhase h mv t = { h with keep := { k with cellMv := mv, phase := 1, phaseAt := h.tb.now } } := by
  subst hk
  unfold chargePhase
  dsimp only
  rcases hp with e | ⟨e, hv⟩
  · rw [if_neg (by simp [hc])]
    simp [e, hm]
  · rw [if_neg (by simp [hc])]
    simp [e, hv, hm]

theorem chargePhase_target {t : Bool} (hp : k.phase = 2) (hm : 2500 ≤ mv) (hv : k.vcv ≤ mv) :
    chargePhase h mv t = { h with keep := { k with cellMv := mv, phase := 3, phaseAt := h.tb.now } } := by
  subst hk
  unfold chargePhase
  dsimp only
  rw [if_neg (by simp [hc])]
  simp [hp, Nat.not_lt.2 hm, hv]

theorem chargePhase_tail (hp : k.phase = 3) : chargePhase h mv true = { h with keep := { k with cellMv := mv, phase := 4, phaseAt := h.tb.now } } := by
  subst hk
  unfold chargePhase
  dsimp only
  rw [if_neg (by simp [hc]), hp]
  rfl

/-- A charged cell that is not 100 mV under the target stays charged. -/
theorem chargePhase_stays {t : Bool} (hp : k.phase = 4) (hv : k.vcv < mv + 100) : chargePhase h mv t = { h with keep := { k with cellMv := mv } } := by
  subst hk
  unfold chargePhase
  dsimp only
  rw [if_neg (by simp [hc])]
  simp [hp, Nat.not_le.2 hv]

theorem cellFault_precharge {g : Hw} (hp : k.phase = 1) (hg : g = { h with tb := { h.tb with now := max h.tb.now (k.phaseAt + 7200 * 1000000000) } }) :
    cellFault h 1 mv = flushKeep { g with keep := { k with cellBad := 1, cellRec := 1, phase := 0, cellMv := mv } } := by
  subst hk hg
  exact if_neg (by simp [hc, hp])

theorem cellFault_noCell (hm : mv < 1000) :
    cellFault h 4 mv = flushKeep { h with keep := { k with cellBad := 4, cellRec := 4, phase := 0, cellMv := mv } } := by
  subst hk
  exact if_neg (by simp [hc, hm])

end
end

theorem cellFault_off {h : Hw} {c mv : Nat} (hc : chargerOn h = false) : cellFault h c mv = h := if_pos (by simp [hc])

/-- Settles O43: each event of the domain has its own equation. -/
theorem keepAliveRows : Obligations.KeepAliveRows := by
  intro s h k hh hk
  have hidle : ∀ {i : Instr} {f : Hw → Hw}, exec i s = onHw s f → f h = h → exec i s = .next (s.withHw h) := by
    intro i f hi hf
    subst hh
    exact hi.trans (row_idle hf rfl)
  refine ⟨fun hp hu ho hs => onHw_routed hh (rtcCopy_copies hk hp hu ho hs), fun hn => hidle rfl (rtcCopy_none hk hn), ?alarm, ?alarmWakes,
    fun ok ha => hidle (f := fun h => rtcAlarm h ok) rfl (rtcAlarm_unset hk ha), ?clears, ?held, fun t hp ht => hidle (f := fun h => buttonRelease h t) rfl (buttonRelease_other hk hp ht),
    fun hp => onHw_routed hh (buttonHold_restarts hk hp), ?tamper, fun n hn => hidle (f := fun h => tamper h n) rfl (tamper_ignored hk hn),
    fun n hn hp => onHw_routed (f := fun h => tamperHigh h n) hh (tamperHigh_rises hk hn hp),
    fun hv hs hc => onHw_routed hh (vkaFall_carried hk hv hs hc), fun hv hc => onHw_routed hh (vkaFall_opens hk hv hc), ?vkaReturn,
    fun mv hv hp hm => onHw_routed (f := fun h => cellLow h mv) hh (cellLow_opens hk hv hp hm),
    fun mv t hc hp hm => onHw_routed (f := fun h => chargePhase h mv t) hh (chargePhase_low hk hc hp hm),
    fun mv t hc hp hm hv => onHw_routed (f := fun h => chargePhase h mv t) hh (chargePhase_target hk hc hp hm hv),
    fun mv hc hp => onHw_routed (f := fun h => chargePhase h mv true) hh (chargePhase_tail hk hc hp),
    fun mv t hc hp hv => onHw_routed (f := fun h => chargePhase h mv t) hh (chargePhase_stays hk hc hp hv),
    fun mv g hc hp hg => onHw_routed (f := fun h => cellFault h 1 mv) hh (cellFault_precharge hk hc hp hg),
    fun mv hc hm => onHw_routed (f := fun h => cellFault h 4 mv) hh (cellFault_noCell hk hc hm),
    fun c mv hc => hidle (f := fun h => cellFault h c mv) rfl (cellFault_off hc)⟩
  case alarm =>
    intro ok g hp ha hs hg
    refine onHw_routed (f := fun h => rtcAlarm h ok) hh ((rtcAlarm_rings hk hp ha hg).trans (if_pos (.inl ?_)))
    rw [hg]
    exact hs
  case alarmWakes => exact fun ok g hp ha hs hg => onHw_routed (f := fun h => rtcAlarm h ok) hh (rtcAlarm_rings hk hp ha hg)
  case clears =>
    exact fun t hp hlo hhi hl hq => onHw_routed (f := fun h => buttonRelease h t) hh (buttonRelease_clears hk hp hlo hhi hl (tamperQuiet_of hk hq))
  case held => exact fun t i hp hlo hhi hi he hin => hidle (f := fun h => buttonRelease h t) rfl (buttonRelease_held hk hp hlo hhi (tamperQuiet_not hk hi he hin))
  case tamper =>
    intro n g hp hn he hi hg
    exact ⟨fun hs => onHw_routed (f := fun h => tamper h n) hh ((tamper_latches hk hp hn he hi hg).trans (if_pos hs)),
      fun hs => onHw_routed (f := fun h => tamper h n) hh ((tamper_latches hk hp hn he hi hg).trans (if_neg hs))⟩
  case vkaReturn =>
    intro g hv hg
    exact ⟨fun hp => onHw_routed hh ((vkaReturn_returns hk hv hg).trans (if_pos hp)),
      fun hp => onHw_routed hh ((vkaReturn_returns hk hv hg).trans (if_neg (by simp [hp])))⟩

end Sys2Proof.Machine
end

/-! PROOFS. The steps of a slot, root port links, and the events of I3C, the TAP and ATTN_N (chapter 21). -/
section
namespace Sys2Proof.Machine

/-! ### Slots -/

section
variable {h : Hw} {n : Nat} {x : RootPort} (hx : x = portAt h n)
include hx

theorem hotplugAdd_idle {a b : Nat} (hi : x.exists_ = false ∨ x.isSlot = false ∨ x.slot = SlotSt.up) : hotplugAdd h n a b = h := by
  subst hx
  unfold hotplugAdd
  dsimp only
  split
  · rfl
  · next hgo =>
    rcases hi with e | e | e
    · exact absurd (by simp [e]) hgo
    · exact absurd (by simp [e]) hgo
    · rw [e]

section
variable {a b : Nat} (he : x.exists_ = true) (hs : x.isSlot = true) (hr : x.hotReset = false) (hp : h.start.ports = true)
  (ha : h.start.st = PowerSt.active)
include he hs hr hp ha

omit hx in
/-- A slot whose package's ports run goes by its step. -/
theorem hotplugAdd_goes : (!x.exists_ || !x.isSlot || x.hotReset || !h.start.ports ||
    decide (h.start.st = PowerSt.off ∨ h.start.st = PowerSt.dormant)) ≠ true := by
  simp [he, hs, hr, hp, ha]

theorem hotplugAdd_empty (hsl : x.slot = SlotSt.empty) : hotplugAdd h n a b = setPort h n { x with slot := .debounced, slotAt := h.tb.now } := by
  have hgo := hotplugAdd_goes he hs hr hp ha
  subst hx
  unfold hotplugAdd
  dsimp only
  rw [if_neg hgo, hsl]

theorem hotplugAdd_debounced {g : Hw} (hsl : x.slot = SlotSt.debounced) (hh : x.held = false)
    (hg : g = { h with tb := { h.tb with now := max h.tb.now (x.slotAt + 1000000) } }) :
    hotplugAdd h n a b = drivePins (setPort g n { x with slot := .powered }) 8 n true := by
  have hgo := hotplugAdd_goes he hs hr hp ha
  subst hx hg
  unfold hotplugAdd
  dsimp only
  rw [if_neg hgo, hsl]
  exact if_neg (by simp [hh])

theorem hotplugAdd_held (hsl : x.slot = SlotSt.debounced) (hh : x.held = true) : hotplugAdd h n a b = h := by
  have hgo := hotplugAdd_goes he hs hr hp ha
  subst hx
  unfold hotplugAdd
  dsimp only
  rw [if_neg hgo, hsl]
  exact if_pos hh

theorem hotplugAdd_powered {g : Hw} (hsl : x.slot = SlotSt.powered)
    (hg : g = { h with tb := { h.tb with now := max h.tb.now (x.slotAt + 201000000) } }) :
    hotplugAdd h n a b = drivePins (setPort g n { x with slot := .perst, training := true }) 10 n true := by
  have hgo := hotplugAdd_goes he hs hr hp ha
  subst hx hg
  unfold hotplugAdd
  dsimp only
  rw [if_neg hgo, hsl]
  rfl

theorem hotplugAdd_perst {g : Hw} (hsl : x.slot = SlotSt.perst)
    (hg : g = { h with tb := { h.tb with now := max h.tb.now (x.slotAt + 301000000) } }) :
    hotplugAdd h n a b = recordWrite
      (setPort g n { x with slot := .up, up := true, training := false, contained := false, rate := a, width := b })
      { type := 0x0A02, cls := 0, part := 0xFF, unitKind := 11, unit := n } := by
  have hgo := hotplugAdd_goes he hs hr hp ha
  subst hx hg
  unfold hotplugAdd
  dsimp only
  rw [if_neg hgo, hsl]
  rfl

end

theorem slotPowerFault_faults {g : Hw} (hsl : x.slot = SlotSt.powered) (hpin : hasPin h 9 n = true)
    (hg : g = { h with tb := { h.tb with now := max h.tb.now (x.slotAt + 101000000) } }) :
    slotPowerFault h n = recordWrite (setPort (drivePins g 8 n false) n { x with slot := .faulted })
      { type := 0x0A04, cls := 0, part := 0xFF, unitKind := 11, unit := n } := by
  subst hx hg
  exact if_neg (by simp [hsl, hpin])

theorem slotPowerFault_idle (hi : x.slot ≠ SlotSt.powered ∨ hasPin h 9 n = false) : slotPowerFault h n = h := by
  subst hx
  exact if_pos hi

theorem hotplugRemove_idle (hi : x.isSlot = false ∨ x.slot = SlotSt.empty) : hotplugRemove h n = h := by
  subst hx
  exact if_pos (by rcases hi with e | e <;> simp [e])

/-- A removed slot is recorded once to each owner of the functions behind it. -/
theorem hotplugRemove_records {g : Hw} {fs : List Nat} (hs : x.isSlot = true) (hsl : x.slot ≠ SlotSt.empty) (hg : g = errorPort (slotPowerOff h n) n)
    (hf : funcsOn h n = fs) :
    hotplugRemove h n = linkGone (recordEach (setPort g n { portAt g n with contained := true, slot := .empty })
      { type := 0x0A03, cls := 0, unitKind := 11, unit := n, arg0 := fs.length }
      ((fs.map (fun f => (unitAt h 9 f).owner)).filter (fun o => decide (o ≤ 16))).eraseDups) x n := by
  subst hx hg hf
  exact if_neg (by simp [hs, hsl])

theorem slotButton_records (hs : x.isSlot = true) (hpin : hasPin h 7 n = true) :
    slotButton h n = recordWrite h { type := 0x0A05, cls := 0, part := 0xFF, unitKind := 11, unit := n } := by
  subst hx
  exact if_pos (by simp [hs, hpin])

theorem slotButton_idle (hi : x.isSlot = false ∨ hasPin h 7 n = false) : slotButton h n = h := by
  subst hx
  exact if_neg (by rcases hi with e | e <;> simp [e])

/-! ### The links of root ports -/

theorem portUp_trained {a b : Nat} (he : x.exists_ = true) (hr : x.hotReset = false) (ht : x.training = true ∨ x.contained = true)
    (hs : x.isSlot = false) (hp : (islandAt h { kind := .rootPort, idx := n / 4 }).power = .open) :
    portUp h n a b = setPort h n { x with up := true, training := false, contained := false, rate := a, width := b } := by
  subst hx
  exact if_neg (by rcases ht with e | e <;> simp [he, hr, e, hs, hp])

theorem portDown_goes {d : Bool} (hu : x.up = true) (hs : x.isSlot = false) :
    portDown h n d = linkGone (setPort h n { x with up := false, contained := d, training := !d }) x n := by
  subst hx
  exact if_neg (by simp [hu, hs])

theorem portDown_idle {d : Bool} (hi : x.up = false ∨ x.isSlot = true) : portDown h n d = h := by
  subst hx
  exact if_pos (by rcases hi with e | e <;> simp [e])

end

/-! ### I3C, the TAP and ATTN_N -/

section
variable {h : Hw}

theorem i3cHotJoin_acks {g : Hw} (hn : h.edges.i3cAck = false) (hs : h.start.st ≠ PowerSt.off)
    (hg : g = { h with tb := { h.tb with now := max h.tb.now (h.start.t0 + 50000000) } }) :
    i3cHotJoin h = { g with
      edges := { h.edges with i3cAck := true, hotJoin := if h.edges.i3cDyn then h.edges.hotJoin else h.edges.hotJoin + 1 } } := by
  subst hg
  exact if_neg (by simp [hn, hs])

theorem i3cHotJoin_idle (hn : h.edges.i3cAck = true) : i3cHotJoin h = h := if_pos (.inl hn)

theorem i3cAddress_held {a : Nat} (ht : h.start.t0 + 50000000 ≤ h.tb.now) (hs : h.start.st ≠ PowerSt.off) :
    i3cAddress h a = { h with edges := { h.edges with i3cAck := true, i3cDyn := true, i3cAddr := a % 128 } } :=
  if_neg (not_or.2 ⟨Nat.not_lt.2 ht, hs⟩)

theorem i3cAddress_early {a : Nat} (ht : h.tb.now < h.start.t0 + 50000000) : i3cAddress h a = h := if_pos (.inl ht)

theorem tapSegment_locked {a : Nat} {o : Bool} (hb : h.ident.bench = false) :
    tapInstruction h (.segment a o) = { h with edges := { h.edges with tapSegs := [] } } := by
  unfold tapInstruction
  dsimp only
  rw [if_pos (by simp [hb])]

/-- In Bench mode a segment is in the scan path as its instruction says, and no other segment moves. -/
theorem tapSegment_bench {a : Nat} {o : Bool} (hb : h.ident.bench = true) : (a ∈ (tapInstruction h (.segment a o)).edges.tapSegs ↔ o = true) ∧
    ∀ b, b ≠ a → (b ∈ (tapInstruction h (.segment a o)).edges.tapSegs ↔ b ∈ h.edges.tapSegs) := by
  unfold tapInstruction
  dsimp only
  rw [if_neg (by simp [hb])]
  cases o with
  | false => simp +contextual
  | true =>
    by_cases hm : a ∈ h.edges.tapSegs
    · simp [hm]
    · simp +contextual [hm]

theorem tapWrapper_refused {k i : Nat} (hb : h.ident.bench = false) :
    tapInstruction h (.wrapper k i) = { h with edges := { h.edges with wrapBad := h.edges.wrapBad + 1 } } := by
  unfold tapInstruction
  dsimp only
  rw [if_pos (by simp [hb])]

theorem tapWrapper_stack {k i : Nat} (hb : h.ident.bench = true) (hs : h.ident.sites.getD k .ldie = .stack) :
    tapInstruction h (.wrapper k i) = { h with edges := { h.edges with wrapIr := tabPut 0 h.edges.wrapIr k (i + 1) } } := by
  unfold tapInstruction
  dsimp only
  rw [if_neg (by simp [hb]), if_pos hs]

theorem tapWrapper_other {k i : Nat} (hb : h.ident.bench = true) (hs : h.ident.sites.getD k .ldie ≠ .stack) :
    tapInstruction h (.wrapper k i) = h := by
  unfold tapInstruction
  dsimp only
  rw [if_neg (by simp [hb]), if_neg hs]

theorem moduleAttention_records {g : Hw} (hs : h.start.st ≠ PowerSt.off)
    (hg : g = { h with tb := { h.tb with now := max h.tb.now (h.tb.now + 20000000) } }) :
    moduleAttention h = recordWrite g { type := 0x0A0B, cls := 0, part := 0xFF } := by
  subst hg
  exact if_neg hs

end

/-- A row that answers for the hardware as it stands changes nothing. -/
theorem onHw_idle {s : State} {h : Hw} {f : Hw → Hw} (hh : h = clearSent s.hw) (he : f h = h) : onHw s f = .next (s.withHw h) := by
  subst hh
  exact row_idle he rfl

/-- Settles O44: each step of a slot and each event has its own equation. -/
theorem slotPortAndBusRows : Obligations.SlotPortAndBusRows := by
  intro s h n x hh hx
  refine ⟨fun a b hi => onHw_idle (f := fun h => hotplugAdd h n a b) hh (hotplugAdd_idle hx hi), ?add,
    fun g hs hp hg => onHw_routed (f := fun h => slotPowerFault h n) hh (slotPowerFault_faults hx hs hp hg),
    fun hi => onHw_idle (f := fun h => slotPowerFault h n) hh (slotPowerFault_idle hx hi),
    fun hi => onHw_idle (f := fun h => hotplugRemove h n) hh (hotplugRemove_idle hx hi),
    ?removeNone, ?removeOne,
    fun hs hp => onHw_routed (f := fun h => slotButton h n) hh (slotButton_records hx hs hp),
    fun hi => onHw_idle (f := fun h => slotButton h n) hh (slotButton_idle hx hi),
    fun a b he hr ht hs hp => onHw_routed (f := fun h => portUp h n a b) hh (portUp_trained hx he hr ht hs hp),
    fun d hu hs => onHw_routed (f := fun h => portDown h n d) hh (portDown_goes hx hu hs),
    fun d hi => onHw_idle (f := fun h => portDown h n d) hh (portDown_idle hx hi),
    fun g hn hs hg => onHw_routed hh (i3cHotJoin_acks hn hs hg),
    fun hn => onHw_idle hh (i3cHotJoin_idle hn),
    fun a ht hs => onHw_routed (f := fun h => i3cAddress h a) hh (i3cAddress_held ht hs),
    fun a ht => onHw_idle (f := fun h => i3cAddress h a) hh (i3cAddress_early ht),
    fun a => onHw_routed (f := fun h => tapInstruction h (.ir a)) hh rfl,
    fun a o hb => onHw_routed (f := fun h => tapInstruction h (.segment a o)) hh (tapSegment_locked hb), ?segment,
    fun k i hb => onHw_routed (f := fun h => tapInstruction h (.wrapper k i)) hh (tapWrapper_refused hb),
    fun k i hb hs => onHw_routed (f := fun h => tapInstruction h (.wrapper k i)) hh (tapWrapper_stack hb hs),
    fun k i hb hs => onHw_routed (f := fun h => tapInstruction h (.wrapper k i)) hh (tapWrapper_other hb hs),
    fun g hs hg => onHw_routed hh (moduleAttention_records hs hg)⟩
  case add =>
    intro a b he hs hr hp ha
    have hrow : ∀ {e}, hotplugAdd h n a b = e → exec (.hotplugAdd n a b) s = .next (s.ended e) := fun {e} he =>
      onHw_routed (f := fun h => hotplugAdd h n a b) hh he
    exact ⟨fun hsl => hrow (hotplugAdd_empty hx he hs hr hp ha hsl), fun g hsl hd hg => hrow (hotplugAdd_debounced hx he hs hr hp ha hsl hd hg),
      fun hsl hd => onHw_idle (f := fun h => hotplugAdd h n a b) hh (hotplugAdd_held hx he hs hr hp ha hsl hd),
      fun g hsl hg => hrow (hotplugAdd_powered hx he hs hr hp ha hsl hg), fun g hsl hg => hrow (hotplugAdd_perst hx he hs hr hp ha hsl hg)⟩
  case removeNone =>
    intro g hs hsl hg hf
    refine onHw_routed (f := fun h => hotplugRemove h n) hh ((hotplugRemove_records hx hs hsl hg hf).trans ?_)
    rw [List.map_nil, List.filter_nil, List.eraseDups_nil]
    rfl
  case removeOne =>
    intro g f o hs hsl hg hf ho hle
    refine onHw_routed (f := fun h => hotplugRemove h n) hh ((hotplugRemove_records hx hs hsl hg hf).trans ?_)
    have hps : ([f].map (fun f => (unitAt h 9 f).owner)).filter (fun o => decide (o ≤ 16)) = [o] := by simp [ho, hle]
    rw [hps, List.eraseDups_cons, List.filter_nil, List.eraseDups_nil]
    rfl
  case segment =>
    intro a o hb
    refine ⟨_, onHw_routed (f := fun h => tapInstruction h (.segment a o)) hh rfl, ?_⟩
    rw [stepEnd_nil (by rw [hh]; rfl) (by rw [hh]; rfl)]
    exact tapSegment_bench hb

end Sys2Proof.Machine
end

/-! PROOFS. Bench mode, repair candidates, margining, tests and repairs of memory (chapters 10 and 24). -/
section
namespace Sys2Proof.Machine

/-! ### Bench mode and the repair candidates -/

section
variable {h : Hw} {mem : Memory} {r : Req}

theorem benchMay_of (ht : ∀ p, 1 ≤ p → p ≤ 16 → partExists h p = false) (ha : h.ident.admitted = false) (hs : ∀ x, x ∈ h.sel.scrubs → x.done = true)
    (hb : h.sel.base ≠ SwState.scrubbing)
    (hw : ∀ e, e ∈ h.sel.swatches → e.2.failed = false ∧ e.2.state ≠ SwState.scrubbing ∧ e.2.state ≠ SwState.held)
    (hu : ∀ e, e ∈ h.sel.units → e.2.failed = false ∧ e.2.state ≠ UnitState.scrubbing ∧ e.2.state ≠ UnitState.held) : benchMay h = true := by
  have h1 : (List.range 17).any (fun p => decide (p ≠ 0) && partExists h p) = false := by
    rw [List.any_eq_false]
    intro p hp
    rw [List.mem_range] at hp
    by_cases h0 : p = 0
    · simp [h0]
    · simp [ht p (by omega) (by omega)]
  have h2 : h.sel.swatches.any (fun e => e.2.failed || decide (e.2.state = SwState.scrubbing ∨ e.2.state = SwState.held)) = false := by
    rw [List.any_eq_false]
    intro e he
    obtain ⟨a, b, c⟩ := hw e he
    simp [a, b, c]
  have h3 : h.sel.units.any (fun e => e.2.failed || decide (e.2.state = UnitState.scrubbing ∨ e.2.state = UnitState.held)) = false := by
    rw [List.any_eq_false]
    intro e he
    obtain ⟨a, b, c⟩ := hu e he
    simp [a, b, c]
  unfold benchMay
  rw [h1, h2, h3, ha, List.all_eq_true.2 hs, decide_eq_true hb]
  rfl

theorem benchEnter_refused (hm : benchMay h = false) : benchEnter (h, mem) r = ((h, mem), deny 0x20 0) := if_pos (by simp [hm])

theorem benchEnter_scrubs {o : Nat × Hw} (hm : benchMay h = true) (ho : o = beginAll h) :
    benchEnter (h, mem) r = ((o.2, mem), { commit := true, wait := .units [o.1] }) := by
  subst ho
  exact if_neg (by simp [hm])

theorem candidateClear_past {i : Nat} (hi : i = leAt r.payload 0 2) (hl : h.memhw.cands.length ≤ i) :
    candidateClear (h, mem) r = ((h, mem), deny 0x20 0x101) := by
  subst hi
  exact if_pos hl

theorem candidateClear_removes {i : Nat} (hi : i = leAt r.payload 0 2) (hl : i < h.memhw.cands.length) :
    candidateClear (h, mem) r = (({ h with memhw := { h.memhw with cands := h.memhw.cands.eraseIdx i } }, mem), doneC) := by
  subst hi
  exact if_neg (Nat.not_le.2 hl)

/-- Outside Bench mode a Bench command is refused. -/
theorem benchOnly_outside {x : HM × Reply} (hb : h.ident.bench = false) : benchOnly (h, mem) x = ((h, mem), deny 0x20 0x100) :=
  if_neg (by simp [hb])

theorem benchOnly_inside {x : HM × Reply} (hb : h.ident.bench = true) : benchOnly (h, mem) x = x := if_pos hb

/-! ### MEM_MARGIN, MEM_TEST and REPAIR_RESOURCES_GET -/

section
variable {q : RAddr} (hq : q = raddrOf r.payload) (hb : h.ident.bench = true)
include hq hb

theorem memMargin_address {e : List (Nat × Nat)}
    (hn : q.tier ≠ 2 ∧ q.tier ≠ 3 ∨ q.kind ≠ 1 ∨ raddrPlace h q = false ∨ lanesOf q.tier ≤ q.lane ∧ q.lane ≠ 0xFFFF) :
    memMargin e (h, mem) r = ((h, mem), deny 0x20 0x103) := by
  subst hq
  unfold memMargin
  dsimp only
  rw [benchOnly_inside hb, if_pos]
  rcases hn with ⟨h2, h3⟩ | hk | hp | ⟨hl, hf⟩
  · simp [h2, h3]
  · simp [hk]
  · simp [hp]
  · simp [hf, Nat.not_lt.2 hl]

section
variable {e : List (Nat × Nat)} (ht : q.tier = 2 ∨ q.tier = 3) (hk : q.kind = 1) (hp : raddrPlace h q = true)
include ht hk hp

theorem memMargin_lane (hl : q.lane < lanesOf q.tier) :
    memMargin e (h, mem) r = ((testChannels h (testKeys q), mem), doneC
      (leBytes 4 1 ++ zeros 4 ++ (leBytes 2 q.lane ++ leBytes 2 (e.getD q.lane (0, 0)).1 ++ leBytes 2 (e.getD q.lane (0, 0)).2 ++ zeros 2))) := by
  have hlane : q.lane ≠ 0xFFFF := by
    have : lanesOf q.tier ≤ 32 := by unfold lanesOf; split <;> omega
    omega
  subst hq
  unfold memMargin
  dsimp only
  rw [benchOnly_inside hb, if_neg (by rcases ht with e | e <;> simp [e, hk, hp] <;> exact fun _ => e ▸ hl), if_neg (by simp [hlane])]
  simp only [List.flatMap_cons, List.flatMap_nil, List.append_nil, List.length_cons, List.length_nil]

theorem memMargin_every (hl : q.lane = 0xFFFF) :
    memMargin e (h, mem) r = ((testChannels h (testKeys q), mem), doneC
      (leBytes 4 (lanesOf q.tier) ++ zeros 4 ++ (List.range (lanesOf q.tier)).flatMap (fun l =>
        leBytes 2 l ++ leBytes 2 (e.getD l (0, 0)).1 ++ leBytes 2 (e.getD l (0, 0)).2 ++ zeros 2))) := by
  subst hq
  unfold memMargin
  dsimp only
  rw [benchOnly_inside hb, if_neg (by rcases ht with e | e <;> simp [e, hk, hp, hl]), if_pos (by simp [hl]), List.length_range]

end

omit hq in
theorem memTest_unaligned {a b : Nat} (hn : leAt r.payload 0 8 % 4096 ≠ 0 ∨ leAt r.payload 8 4 = 0) :
    memTest a b (h, mem) r = ((h, mem), deny 0x20 0) := by
  unfold memTest
  dsimp only
  rw [benchOnly_inside hb, if_pos hn]

section
variable {a b x n : Nat} (hx : x = leAt r.payload 0 8) (hn : n = leAt r.payload 8 4) (h0 : x % 4096 = 0) (hn0 : n ≠ 0)
include hx hn h0 hn0

omit hq in
theorem memTest_address (hbad : 1 < regionOf x ∨ 2 ^ 52 ≤ x ∨ populated h x = false ∨ populated h (x + 4096 * n - 1) = false ∨
    regionOf (x + 4096 * n - 1) ≠ regionOf x) : memTest a b (h, mem) r = ((h, mem), deny 0x20 0x103) := by
  subst hx hn
  unfold memTest
  dsimp only
  rw [benchOnly_inside hb, if_neg (by simp [h0, hn0]), if_pos (by simpa using hbad)]

omit hq in
theorem memTest_tests (hr : regionOf x ≤ 1) (hlt : x < 2 ^ 52) (hp : populated h x = true) (hp' : populated h (x + 4096 * n - 1) = true)
    (hreg : regionOf (x + 4096 * n - 1) = regionOf x) :
    memTest a b (h, mem) r = (((granuleLines x n).foldl (fun g l => clearLine (forgetLine g l) (l * 64)) h, mem), doneC
      (leBytes 1 (flag (decide (a ≠ 0))) ++ zeros 3 ++ leBytes 4 a ++ leBytes 8 (if a = 0 then 0 else b))) := by
  subst hx hn
  unfold memTest
  dsimp only
  rw [benchOnly_inside hb, if_neg (by simp [h0, hn0]), if_neg]
  rintro (e | e | e | e | e)
  · omega
  · omega
  · rw [hp] at e
    exact Bool.noConfusion e
  · rw [hp'] at e
    exact Bool.noConfusion e
  · exact e hreg

end

theorem resourcesGet_address (hn : raddrPlace h q = false ∨ banksOf q.tier ≤ q.bank ∧ q.bank ≠ 0xFF) :
    resourcesGet (h, mem) r = ((h, mem), deny 0x20 0x103) := by
  subst hq
  unfold resourcesGet
  dsimp only
  rw [benchOnly_inside hb, if_pos]
  rcases hn with hp | ⟨hl, hf⟩
  · simp [hp]
  · simp [hf, Nat.not_lt.2 hl]

theorem resourcesGet_bank (hp : raddrPlace h q = true) (hf : q.bank ≠ 0xFF) (hl : q.bank < banksOf q.tier) :
    resourcesGet (h, mem) r = ((h, mem), doneQ
      (leBytes 4 1 ++ zeros 4 ++ (leBytes 1 q.bank ++ leBytes 1 (min 255 (rowsLeft h q q.bank)) ++ leBytes 1 (min 255 (lanesLeft h q)) ++ zeros 1))) := by
  subst hq
  unfold resourcesGet
  dsimp only
  rw [benchOnly_inside hb, if_neg (by simp [hp, hl]), if_neg (by simp [hf])]
  simp only [List.flatMap_cons, List.flatMap_nil, List.append_nil, List.length_cons, List.length_nil]

theorem resourcesGet_every (hp : raddrPlace h q = true) (hf : q.bank = 0xFF) :
    resourcesGet (h, mem) r = ((h, mem), doneQ
      (leBytes 4 (banksOf q.tier) ++ zeros 4 ++ (List.range (banksOf q.tier)).flatMap (fun k =>
        leBytes 1 k ++ leBytes 1 (min 255 (rowsLeft h q k)) ++ leBytes 1 (min 255 (lanesLeft h q)) ++ zeros 1))) := by
  subst hq
  unfold resourcesGet
  dsimp only
  rw [benchOnly_inside hb, if_neg (by simp [hp, hf]), if_pos (by simp [hf]), List.length_range]

/-! ### Repairs -/

section
variable {ok : Bool}

theorem repairs_address : (raddrOk h q 2 0 = false →
      hbmSppr ok (h, mem) r = ((h, mem), deny 0x20 0x103) ∧ hbmHppr ok (h, mem) r = ((h, mem), deny 0x20 0x103)) ∧
    (raddrOk h q 2 1 = false → hbmLaneRemap ok (h, mem) r = ((h, mem), deny 0x20 0x103)) ∧
    (raddrOk h q 3 0 = false → lpPpr ok (h, mem) r = ((h, mem), deny 0x20 0x103)) := by
  subst hq
  unfold hbmSppr hbmHppr hbmLaneRemap lpPpr
  dsimp only
  rw [benchOnly_inside hb, benchOnly_inside hb, benchOnly_inside hb, benchOnly_inside hb]
  exact ⟨fun e => ⟨if_pos (by simp [e]), if_pos (by simp [e])⟩, fun e => if_pos (by simp [e]), fun e => if_pos (by simp [e])⟩

theorem repairs_noSpare : (raddrOk h q 2 0 = true → rowsLeft h q q.bank = 0 →
      hbmSppr ok (h, mem) r = ((h, mem), deny 0x40 0x102) ∧ hbmHppr ok (h, mem) r = ((h, mem), deny 0x40 0x102)) ∧
    (raddrOk h q 2 1 = true → lanesLeft h q = 0 → hbmLaneRemap ok (h, mem) r = ((h, mem), deny 0x40 0x102)) ∧
    (raddrOk h q 3 0 = true → rowsLeft h q q.bank = 0 → lpPpr ok (h, mem) r = ((h, mem), deny 0x40 0x102)) := by
  subst hq
  unfold hbmSppr hbmHppr hbmLaneRemap lpPpr
  dsimp only
  rw [benchOnly_inside hb, benchOnly_inside hb, benchOnly_inside hb, benchOnly_inside hb]
  exact ⟨fun e h0 => ⟨(if_neg (by simp [e])).trans (if_pos h0), (if_neg (by simp [e])).trans (if_pos h0)⟩,
    fun e h0 => (if_neg (by simp [e])).trans (if_pos h0), fun e h0 => (if_neg (by simp [e])).trans (if_pos h0)⟩

theorem hbmSppr_repairs {c : Channel} (ho : raddrOk h q 2 0 = true) (hl : rowsLeft h q q.bank ≠ 0) (hc : c = chanAt h q.unit) :
    hbmSppr ok (h, mem) r = verifyRepair (setChan h q.unit { c with
      softRows := if (q.chan, q.bank, q.row) ∈ c.softRows then c.softRows else c.softRows ++ [(q.chan, q.bank, q.row)] }, mem) q 0x0D08 [] ok := by
  subst hq hc
  unfold hbmSppr
  dsimp only
  rw [benchOnly_inside hb, if_neg (by simp [ho]), if_neg hl]

theorem hbmHppr_repairs {c : Channel} {k : Hw} (ho : raddrOk h q 2 0 = true) (hl : rowsLeft h q q.bank ≠ 0) (hc : c = chanAt h q.unit)
    (hk : k = setChan h q.unit { c with softRows := c.softRows.erase (q.chan, q.bank, q.row) }) :
    hbmHppr ok (h, mem) r = verifyRepair
      ({ k with memhw := { k.memhw with rowUsed := tabMod 0 k.memhw.rowUsed (bankKey q q.bank) (fun x => x + 1) } }, mem) q 0x0D09 [] ok := by
  subst hq hc hk
  unfold hbmHppr
  dsimp only
  rw [benchOnly_inside hb, if_neg (by simp [ho]), if_neg hl]
  rfl

theorem hbmLaneRemap_repairs {x : Channel} {k : Hw} (ho : raddrOk h q 2 1 = true) (hl : lanesLeft h q ≠ 0)
    (hk : k = { h with memhw := { h.memhw with laneUsed := tabMod 0 h.memhw.laneUsed (laneKey q) (fun x => x + 1) } }) (hx : x = chanAt h q.unit) :
    hbmLaneRemap ok (h, mem) r = verifyRepair (setChan k q.unit { x with coldChans := q.chan / 2 :: x.coldChans.erase (q.chan / 2) }, mem) q 0x0D0A
      [32 * q.unit + q.chan / 2 * 2, 32 * q.unit + q.chan / 2 * 2 + 1] ok := by
  subst hq hx hk
  unfold hbmLaneRemap
  dsimp only
  rw [benchOnly_inside hb, if_neg (by simp [ho]), if_neg hl]
  rfl

theorem lpPpr_repairs (ho : raddrOk h q 3 0 = true) (hl : rowsLeft h q q.bank ≠ 0) :
    lpPpr ok (h, mem) r = verifyRepair
      ({ h with memhw := { h.memhw with rowUsed := tabMod 0 h.memhw.rowUsed (bankKey q q.bank) (fun x => x + 1) } }, mem) q 0x0D0B [] ok := by
  subst hq
  unfold lpPpr
  dsimp only
  rw [benchOnly_inside hb, if_neg (by simp [ho]), if_neg hl]
  rfl

end
end
end

/-- Settles O46: a Bench command's checks come in the order of its row, and a repair ends by its verification. -/
theorem benchAndRepairCommands : Obligations.BenchAndRepairCommands := by
  intro s h m tag r q hh hq
  refine ⟨fun hs hm => onAll_serve_deny hh hs (benchEnter_refused hm), ?enter, fun hs => onAll_serve_answer hh hs rfl,
    fun hs => onAll_serve_answer hh hs rfl, ?clear, ?outside, ?repairsOutside, ?address, ?repairAddress, ?margin, ?test, ?resources, ?sppr, ?hppr,
    ?remap, ?lppr, ?row, ?channels⟩
  case enter =>
    intro o hs ht ha hsc hb hw hu ho
    exact onAll_serve_wait hh hs (benchEnter_scrubs (benchMay_of ht ha hsc hb hw hu) ho) (by simp)
  case clear =>
    intro i hs hi
    exact ⟨fun hl => onAll_serve_deny hh hs (candidateClear_past hi hl), fun hl => onAll_serve_done hh hs (candidateClear_removes hi hl)⟩
  case outside =>
    intro e a b hb
    exact ⟨fun hs => onAll_serve_deny hh hs (benchOnly_outside hb), fun hs => onAll_serve_deny hh hs (benchOnly_outside hb),
      fun hs => onAll_serve_deny hh hs (benchOnly_outside hb)⟩
  case repairsOutside =>
    intro ok hb
    exact ⟨fun hs => onAll_serve_deny hh hs (benchOnly_outside hb), fun hs => onAll_serve_deny hh hs (benchOnly_outside hb),
      fun hs => onAll_serve_deny hh hs (benchOnly_outside hb), fun hs => onAll_serve_deny hh hs (benchOnly_outside hb)⟩
  case address =>
    intro e a b hb
    exact ⟨fun hs hn => onAll_serve_deny hh hs (memMargin_address hq hb hn), fun hs hn => onAll_serve_deny hh hs (memTest_unaligned hb hn),
      fun hs h0 hn hbad => onAll_serve_deny hh hs (memTest_address hb rfl rfl h0 hn (hbad.imp_right .inl)),
      fun hs hn => onAll_serve_deny hh hs (resourcesGet_address hq hb hn)⟩
  case repairAddress =>
    intro ok hb
    obtain ⟨a1, a2, a3⟩ := repairs_address (mem := s.mem) (ok := ok) hq hb
    obtain ⟨b1, b2, b3⟩ := repairs_noSpare (mem := s.mem) (ok := ok) hq hb
    exact ⟨fun e => ⟨fun hs => onAll_serve_deny hh hs (a1 e).1, fun hs => onAll_serve_deny hh hs (a1 e).2⟩,
      fun e hs => onAll_serve_deny hh hs (a2 e), fun e hs => onAll_serve_deny hh hs (a3 e),
      fun e h0 => ⟨fun hs => onAll_serve_deny hh hs (b1 e h0).1, fun hs => onAll_serve_deny hh hs (b1 e h0).2⟩,
      fun e h0 hs => onAll_serve_deny hh hs (b2 e h0), fun e h0 hs => onAll_serve_deny hh hs (b3 e h0)⟩
  case margin =>
    intro e hs hb ht hk hp
    exact ⟨fun hl => onAll_serve_done hh hs (memMargin_lane hq hb ht hk hp hl), fun hl => onAll_serve_done hh hs (memMargin_every hq hb ht hk hp hl)⟩
  case test =>
    intro a b x n hs hb hx hn h0 hn0 hr hlt
    exact ⟨fun hp hp' hreg => onAll_serve_done hh hs (memTest_tests hb hx hn h0 hn0 hr hlt hp hp' hreg),
      fun hbad => onAll_serve_deny hh hs (memTest_address hb hx hn h0 hn0 (.inr (.inr hbad)))⟩
  case resources =>
    intro hs hb hp
    exact ⟨fun hf hl => onAll_serve_answer hh hs (resourcesGet_bank hq hb hp hf hl),
      fun hf => onAll_serve_answer hh hs (resourcesGet_every hq hb hp hf)⟩
  case sppr =>
    intro ok c o hs hb ho hl hc heq
    subst heq
    exact onAll_serve_done hh hs (hbmSppr_repairs hq hb ho hl hc)
  case hppr =>
    intro ok c k o hs hb ho hl hc hk heq
    subst heq
    exact onAll_serve_done hh hs (hbmHppr_repairs hq hb ho hl hc hk)
  case remap =>
    intro ok k x o hs hb ho hl hk hx heq
    subst heq
    exact onAll_serve_done hh hs (hbmLaneRemap_repairs hq hb ho hl hk hx)
  case lppr =>
    intro ok o hs hb ho hl heq
    subst heq
    exact onAll_serve_done hh hs (lpPpr_repairs hq hb ho hl)
  case row => rintro g _ _ rfl rfl; rfl
  case channels => rintro g ks _ rfl; rfl

end Sys2Proof.Machine
end

/-! PROOFS. The sync marker, the reference clock, and the recalibration, temperature and refresh of memories (chapters 2, 10 and 22). -/
section
namespace Sys2Proof.Machine

/-- A change of every listed value reads as the change of what was read, where the default stays. -/
theorem tabGet_tabMap [DecidableEq α] {d : α} {t : Tab α} (hw : tabWf d t = true) {f : Nat → α → α} (hd : ∀ n, f n d = d) (n : Nat) :
    tabGet d (tabMap d t f) n = f n (tabGet d t n) := by
  obtain ⟨hs, -⟩ := tabWf_iff.1 hw
  clear hw
  induction t with
  | nil => exact (hd n).symm
  | cons a t ih =>
    obtain ⟨k, v⟩ := a
    obtain ⟨ha, ht⟩ := List.pairwise_cons.1 hs
    have ih := ih ht
    unfold tabMap at ih ⊢
    by_cases hk : k = n
    · subst hk
      have hr : tabGet d ((k, v) :: t) k = v := if_pos rfl
      rw [hr]
      by_cases hf : f k v = d
      · rw [List.filterMap_cons_none (by exact if_pos hf), ih, tabGet_below d ha, hd, hf]
      · rw [List.filterMap_cons_some (by exact if_neg hf)]
        exact if_pos rfl
    · have hr : tabGet d ((k, v) :: t) n = tabGet d t n := if_neg hk
      rw [hr, ← ih]
      by_cases hf : f k v = d
      · rw [List.filterMap_cons_none (by exact if_pos hf)]
      · rw [List.filterMap_cons_some (by exact if_neg hf)]
        exact if_neg hk

/-! ### The sync marker and holdover -/

/-- HOLDOVER stays. -/
theorem settleHoldover_stays {h : Hw} (hn : h.tb.holdover = false ∨ h.tb.refLost = true ∨ h.tb.netHold = true ∨ h.tb.slew < -1 ∨ 1 < h.tb.slew) :
    settleHoldover h = h := by
  unfold settleHoldover
  split
  · next hgo =>
    simp only [Bool.and_eq_true, Bool.not_eq_true', decide_eq_true_eq] at hgo
    obtain ⟨⟨⟨hr, hnet⟩, hlo⟩, hhi⟩ := hgo
    have hh : h.tb.holdover = false := by
      rcases hn with e | e | e | e | e
      · exact e
      · rw [hr] at e
        exact Bool.noConfusion e
      · rw [hnet] at e
        exact Bool.noConfusion e
      · omega
      · omega
    exact if_neg (by simp [hh])
  · rfl

/-- HOLDOVER ends. -/
theorem settleHoldover_ends {h : Hw} (hh : h.tb.holdover = true) (hr : h.tb.refLost = false) (hn : h.tb.netHold = false) (hlo : -1 ≤ h.tb.slew)
    (hhi : h.tb.slew ≤ 1) : settleHoldover h = recordWrite { h with tb := { h.tb with holdover := false } } { type := 0x090E, arg0 := 0 } := by
  unfold settleHoldover
  rw [if_pos (by simp [hr, hn, hlo, hhi])]
  exact if_pos hh

/-- The time base and the islands after a sync marker. -/
theorem syncMarker_eq {h : Hw} {back fwd t : Nat} {left : Int} (hb : back = min (-h.tb.slew).toNat 62) (hf : fwd = h.tb.slew.toNat)
    (ht : t = h.tb.now + (1000 - back) + fwd) (hl : left = h.tb.slew + back - fwd) :
    syncMarker h = { h with
      tb := { h.tb with now := t, slew := left, markers := h.tb.markers + 1 }, islands := tabMap {} h.islands (fun _ y => loadTb t y) } := by
  have eb : (if h.tb.slew < 0 then min (-h.tb.slew).toNat (1000 / 16) else 0) = back := by
    rw [hb]
    split
    · rfl
    · omega
  have ef : (if h.tb.slew > 0 then h.tb.slew.toNat else 0) = fwd := by
    rw [hf]
    split
    · rfl
    · omega
  subst ht hl
  unfold syncMarker
  dsimp only
  rw [eb, ef]

/-- What is left to slew after a marker is never ahead. -/
theorem left_nonpos {slew : Int} {back fwd : Nat} (hb : back = min (-slew).toNat 62) (hf : fwd = slew.toNat) : slew + back - fwd ≤ 0 := by omega

theorem loadTb_default (t : Nat) : loadTb t {} = {} := rfl

theorem loadTb_waking {t t1 : Nat} {y : IslandState} (hp : y.power = .waking t1) :
    loadTb t y = if t1 + 4000 ≤ t then { y with hasTb := true } else y := by
  unfold loadTb
  rw [hp]

/-- An island that wakes takes the time base from a marker 4 us after its wake. -/
theorem syncMarker_wakes {h : Hw} {i : Island} {y : IslandState} {t1 t : Nat} (hy : y = islandAt h i) (hp : y.power = .waking t1) (hs : h.tb.slew = 0)
    (hw : tabWf {} h.islands = true) (ht : t = h.tb.now + 1000) :
    islandAt (syncMarker h) i = if t1 + 4000 ≤ t then { y with hasTb := true } else y := by
  have e := syncMarker_eq (h := h) (back := 0) (fwd := 0) (t := t) (left := 0) (by rw [hs]; rfl) (by rw [hs]; rfl) (by omega) (by rw [hs]; rfl)
  rw [e, ← loadTb_waking hp, hy]
  exact tabGet_tabMap hw (fun _ => loadTb_default t) (islandKey i)

/-! ### The reference clock -/

theorem refLost_again {h : Hw} (hr : h.tb.refLost = true) : refLost h = h := if_pos hr

section
variable {h g : Hw} (hr : h.tb.refLost = false) (hg : g = { h with tb := { h.tb with refLost := true, holdSince := h.tb.now } })
include hr hg

theorem refLost_held (hh : h.tb.holdover = true) : refLost h = g := by
  subst hg
  unfold refLost enterHoldover
  rw [if_neg (by simp [hr])]
  exact if_pos hh

theorem refLost_enters (hh : h.tb.holdover = false) :
    refLost h = dropIns (recordWrite { g with tb := { g.tb with holdover := true } } { type := 0x090E, arg0 := 1 }) := by
  subst hg
  unfold refLost enterHoldover
  rw [if_neg (by simp [hr])]
  exact if_neg (by simp [hh])

end

theorem refRestored_ignored {h : Hw} {a : Int}
    (hn : h.tb.refLost = false ∨ driftBound (max h.tb.now (h.tb.holdSince + 10000000) - h.tb.holdSince) < a.natAbs) : refRestored h a = h := by
  unfold refRestored
  refine if_neg ?_
  rcases hn with e | e
  · simp [e]
  · have hlt : ¬ a.natAbs ≤ driftBound ((advanceTo h (h.tb.holdSince + 10000000)).tb.now - h.tb.holdSince) := Nat.not_le.2 e
    simp [hlt]

theorem refRestored_follows {h g : Hw} {a : Int} {t : Nat} (hr : h.tb.refLost = true) (ht : t = max h.tb.now (h.tb.holdSince + 10000000))
    (ha : a.natAbs ≤ driftBound (t - h.tb.holdSince))
    (hg : g = { h with tb := { h.tb with now := t, refLost := false, slew := h.tb.slew + a } }) : refRestored h a = settleHoldover g := by
  subst ht hg
  exact if_pos (by rw [hr, decide_eq_true (by exact ha)]; rfl)

/-! ### Memories -/

section
variable {h : Hw} {k : Nat}

theorem recalibrate_counts {c : Nat} {l : List Nat} {g : Hw} (ho : tierOpen h k = true) (hs : h.memhw.selfRefresh = false)
    (hg : g = setChan h k { chanAt h k with recals := (chanAt h k).recals + 1 }) :
    recalibrate h k c l = l.foldl (fun u x => recordWrite (addCandidate u (laneCand k c x))
      { type := 0x0405, cls := 1, part := 0xFF, unitKind := 17, unit := k, arg1 := trainArg k, arg2 := x }) g := by
  subst hg
  exact if_neg (by simp [ho, hs])

theorem recalibrate_none {c : Nat} {l : List Nat} (hn : tierOpen h k = false ∨ h.memhw.selfRefresh = true) : recalibrate h k c l = h :=
  if_pos (by rcases hn with e | e <;> simp [e])

theorem nearHot_none {t : Nat} (hk : k ∉ tierUnits h true) : nearHot h k t = h := if_pos hk

/-- The rows of Table 10.6. -/
theorem hotRow_cool {f t : Nat} (ht : t < 340 ∧ f ≠ 2 ∧ f ≠ 4 ∨ t ≤ 328) : hotRow (hotOf f) t = 0 := by
  unfold hotRow hotOf
  repeat' split
  all_goals omega

theorem hotRow_warm {f t : Nat} (ht : 340 ≤ t ∧ t < 380 ∧ f ≠ 4 ∨ 340 ≤ t ∧ t ≤ 368 ∨ 328 < t ∧ t ≤ 368 ∧ (f = 2 ∨ f = 4)) :
    hotRow (hotOf f) t = 1 := by
  unfold hotRow hotOf
  repeat' split
  all_goals omega

theorem hotRow_hot {f t : Nat} (ht : 380 ≤ t ∨ 368 < t ∧ f = 4) : hotRow (hotOf f) t = 2 := by
  unfold hotRow hotOf
  repeat' split
  all_goals omega

section
variable {t : Nat} {x : Channel} (hk : k ∈ tierUnits h true) (hx : x = chanAt h k)
include hk hx

theorem nearHot_row {r : Nat} (hr : hotRow (hotOf x.refresh) t = r) (h2 : r ≠ 2) (ht : t < 420) :
    nearHot h k t = setChan h k { x with temp := t, refresh := 2 ^ r, throttle := 100 } := by
  subst hx hr
  unfold nearHot
  dsimp only
  rw [if_neg (not_not.2 hk), if_neg (by omega), if_neg h2, if_neg h2]

theorem nearHot_hot (hr : hotRow (hotOf x.refresh) t = 2) (ht : t < 420) : nearHot h k t = recordLimited
    (setChan h k { x with temp := t, refresh := 4, throttle := 50 }) { type := 0x0403, part := 0xFF, unitKind := 17, unit := k, arg0 := t } := by
  subst hx
  unfold nearHot
  dsimp only
  rw [if_neg (not_not.2 hk), hr, if_neg (by omega), if_pos rfl, if_pos rfl]
  rfl

theorem nearHot_trips (hr : hotRow (hotOf x.refresh) t = 2) (ht : 420 ≤ t) :
    nearHot h k t = thermalTrip (setChan h k { x with temp := t, refresh := 4, throttle := 50 }) 17 k t := by
  subst hx
  unfold nearHot
  dsimp only
  rw [if_neg (not_not.2 hk), hr, if_pos ht, if_pos rfl]
  rfl

end

theorem farHot_none {n a b : Nat} {d o : Bool} (hn : 128 ≤ n ∨ 2 ≤ k) : farHot h n k a b d o = h := if_pos hn

theorem farHot_within {n a b : Nat} {d : Bool} {x : Channel} {rs : List RankHot} {g : Hw} (hn : n < 128) (hk : k < 2) (hx : x = chanAt h (16 + n))
    (hrs : rs = x.mr4.set k { value := a, mult := b, derate := d, over_ := false })
    (hg : g = setChan h (16 + n) { x with mr4 := rs, temp := (rs.map (·.value)).foldl max 0, refresh := (rs.map (·.mult)).foldl max 0,
                                          throttle := if rs.any (·.over_) then 25 else 100 }) : farHot h n k a b d false = g := by
  subst hg hrs hx
  unfold farHot
  dsimp only
  rw [if_neg (by omega), if_neg (by decide)]

theorem farHot_over {n a b : Nat} {d : Bool} {x : Channel} {rs : List RankHot} {g : Hw} (hn : n < 128) (hk : k < 2) (hx : x = chanAt h (16 + n))
    (hl : k < x.mr4.length) (hrs : rs = x.mr4.set k { value := a, mult := b, derate := d, over_ := true })
    (hg : g = setChan h (16 + n) { x with mr4 := rs, temp := (rs.map (·.value)).foldl max 0, refresh := (rs.map (·.mult)).foldl max 0,
                                          throttle := 25 }) :
    farHot h n k a b d true = recordLimited g { type := 0x0404, part := 0xFF, unitKind := 17, unit := 16 + n, arg0 := a } := by
  have hany : rs.any (·.over_) = true := by
    rw [hrs]
    exact List.any_eq_true.2 ⟨_, List.mem_set hl _, rfl⟩
  subst hg hx
  unfold farHot
  dsimp only
  rw [if_neg (by omega), if_pos rfl, ← hrs, if_pos hany]

theorem rowExists_iff {c b row : Nat} {d : MemDevice} (hd : d = (chanAt h k).dev) : rowExists h k c b row = true ↔
    c < (if k < 16 then 32 else d.ranks) ∧ b < (if k < 16 then 48 else 16) ∧ row < d.rows := by
  subst hd
  unfold rowExists banksOf
  rw [decide_eq_true_eq]
  by_cases hk : k < 16
  · rw [if_pos hk, if_pos hk, if_pos hk, if_pos hk]
    rfl
  · rw [if_neg hk, if_neg hk, if_neg hk, if_neg hk]
    rfl

theorem activations_counts {c b row n x y : Nat} {d : MemDevice} {m : MemHw} (ho : tierOpen h k = true) (hd : d = (chanAt h k).dev)
    (hr : rowExists h k c b row = true) (hx : x = tabGet 0 h.memhw.acts (rowKey k c b row) + n) (hy : y = tabGet 0 h.memhw.raa (bankAt k c b) + n)
    (hm : m = { h.memhw with acts := tabPut 0 h.memhw.acts (rowKey k c b row) (x % 512), targeted := h.memhw.targeted + x / 512 }) :
    activations h k c b row n = { h with memhw := if d.rfmAt = 0 then m
      else { m with raa := tabPut 0 m.raa (bankAt k c b) (y % d.rfmAt), rfms := m.rfms + y / d.rfmAt } } := by
  subst hd hx hy hm
  exact if_neg (by simp [ho, hr])

theorem activations_none {c b row n : Nat} (hn : tierOpen h k = false ∨ rowExists h k c b row = false) : activations h k c b row n = h :=
  if_pos (by rcases hn with e | e <;> simp [e])

theorem refreshRow_none {r : RefreshOf} (hn : h.start.st = PowerSt.off ∨ h.memhw.selfRefresh = true ∨
    r.unit ∉ tierUnits h true ∧ r.unit ∉ tierUnits h false) : refreshRow h r = h :=
  if_pos (by rcases hn with e | e | ⟨a, b⟩ <;> simp [*])

/-- Whether a refresh covers the neighbours of the row that a key of the counts names. -/
def refreshHits (c : Channel) (r : RefreshOf) (q : Nat) : Bool :=
  decide (q / 2 ^ 32 = bankAt r.unit r.chan r.bank) && coversNear c.dev r.first r.count (q % 2 ^ 32)

/-- A refresh counts itself and clears the counts of the rows that it covers. -/
theorem refreshRow_counts {r : RefreshOf} {c : Channel} {g : Hw} (hu : r.unit ∈ tierUnits h true ∨ r.unit ∈ tierUnits h false)
    (hs : h.start.st ≠ PowerSt.off) (hr : h.memhw.selfRefresh = false) (hc : c = chanAt h r.unit)
    (hg : g = setChan h r.unit { c with refreshes := c.refreshes + 1 }) :
    refreshRow h r = { g with memhw := { g.memhw with acts := tabClear h.memhw.acts (refreshHits c r) } } := by
  subst hc hg
  exact if_neg (by rcases hu with e | e <;> simp [e, hs, hr])

end

/-- Settles O47: each marker, clock event and memory event has its own equation; a marker reads each island through its table. -/
theorem clockAndMemoryRows : Obligations.ClockAndMemoryRows := by
  intro s h hh
  refine ⟨?marker, ?wakes, fun hr => onHw_routed hh (refLost_again hr), ?lost, fun a hr => onHw_routed (f := fun h => refRestored h a) hh (refRestored_ignored (.inl hr)),
    ?restored, fun a _ hd => onHw_routed (f := fun h => refRestored h a) hh (refRestored_ignored (.inr hd)), ?recal,
    fun k c l hn => onHw_routed (f := fun h => recalibrate h k c l) hh (recalibrate_none hn), ?hot,
    fun k t hk => onHw_routed (f := fun h => nearHot h k t) hh (nearHot_none hk),
    fun n k a b d x rs g hn hk hx hrs hg => onHw_routed (f := fun h => farHot h n k a b d false) hh (farHot_within hn hk hx hrs hg),
    fun n k a b d x rs g hn hk hx hl hrs hg => onHw_routed (f := fun h => farHot h n k a b d true) hh (farHot_over hn hk hx hl hrs hg),
    fun n k a b o hn => onHw_routed (f := fun h => farHot h n k a b.1 b.2 o) hh (farHot_none hn), ?acts, ?noActs, ?refresh,
    fun r hn => onHw_routed (f := fun h => refreshRow h r) hh (refreshRow_none hn)⟩
  case marker =>
    intro back fwd t left g hb hf ht hl hg
    have e : syncMarker h = g := (syncMarker_eq hb hf ht hl).trans hg.symm
    have hle : left ≤ 0 := hl ▸ left_nonpos hb hf
    subst hg
    refine ⟨fun hn => ?_, fun h1 h2 h3 h4 => ?_⟩
    · refine onHw_routed (f := fun h => settleHoldover (syncMarker h)) hh ((congrArg settleHoldover e).trans (settleHoldover_stays ?_))
      exact hn.imp_right (Or.imp_right (Or.imp_right .inl))
    · exact onHw_routed (f := fun h => settleHoldover (syncMarker h)) hh
        ((congrArg settleHoldover e).trans (settleHoldover_ends h1 h2 h3 h4 (le_trans hle (by decide))))
  case wakes =>
    intro i y t1 t hy hp hs hho hw ht
    refine ⟨_, onHw_routed (f := fun h => settleHoldover (syncMarker h)) hh (settleHoldover_stays (.inl hho)), ?_⟩
    rw [stepEnd_nil (by rw [hh]; rfl) (by rw [hh]; rfl)]
    exact syncMarker_wakes hy hp hs hw ht
  case lost =>
    intro g hr hg
    exact ⟨fun e => onHw_routed hh (refLost_held hr hg e), fun e => onHw_routed hh (refLost_enters hr hg e)⟩
  case restored =>
    intro a t g hr ht ha hg
    have e := refRestored_follows hr ht ha hg
    subst hg
    refine ⟨fun hn => onHw_routed (f := fun h => refRestored h a) hh (e.trans (settleHoldover_stays ?_)),
      fun h1 h2 h3 => onHw_routed (f := fun h => refRestored h a) hh (e.trans (settleHoldover_ends h3 rfl h1 ?_ ?_))⟩
    · rcases hn with e | e | e
      · exact .inr (.inr (.inl e))
      · exact .inr (.inr (.inr (by dsimp only at e ⊢; omega)))
      · exact .inl e
    · dsimp only at h2 ⊢
      omega
    · dsimp only at h2 ⊢
      omega
  case recal =>
    intro k c l g ho hs hg
    exact ⟨onHw_routed (f := fun h => recalibrate h k c []) hh (recalibrate_counts ho hs hg),
      onHw_routed (f := fun h => recalibrate h k c l) hh (recalibrate_counts ho hs hg)⟩
  case hot =>
    intro k t x hk hx
    have hrow : ∀ {e}, nearHot h k t = e → exec (.nearHot k t) s = .next (s.ended e) := fun {e} he =>
      onHw_routed (f := fun h => nearHot h k t) hh he
    exact ⟨fun ht => hrow (nearHot_row hk hx (hotRow_cool ht) (by decide) (by omega)),
      fun ht => hrow (nearHot_row hk hx (hotRow_warm ht) (by decide) (by omega)),
      fun hlt ht => hrow (nearHot_hot hk hx (hotRow_hot ht) hlt), fun ht => hrow (nearHot_trips hk hx (hotRow_hot (.inl (by omega))) ht)⟩
  case acts =>
    intro k c b row n x d y m ho hd hc hb hr hx hy hm
    have e := activations_counts ho hd ((rowExists_iff hd).2 ⟨hc, hb, hr⟩) hx hy hm
    exact ⟨fun h0 => onHw_routed (f := fun h => activations h k c b row n) hh (e.trans (by rw [if_pos h0])),
      fun h0 => onHw_routed (f := fun h => activations h k c b row n) hh (e.trans (by rw [if_neg h0]))⟩
  case noActs =>
    intro k c b row n d hd hn
    refine onHw_routed (f := fun h => activations h k c b row n) hh (activations_none (hn.imp_right fun hn => ?_))
    rw [Bool.eq_false_iff, Ne, rowExists_iff hd]
    omega
  case refresh =>
    intro r c g hu hs hr hc hg hw
    refine ⟨_, onHw_routed (f := fun h => refreshRow h r) hh (refreshRow_counts hu hs hr hc hg), ?_⟩
    rw [stepEnd_nil (by rw [hg, hh]; rfl) (by rw [hg, hh]; rfl)]
    refine ⟨rfl, rfl, fun q hq hcov => tabGet_clear_in 0 h.memhw.acts (p := refreshHits c r) ?_,
      fun q hn => tabGet_clear_out 0 h.memhw.acts (p := refreshHits c r) ?_⟩
    · unfold refreshHits
      rw [decide_eq_true hq, hcov]
      rfl
    · unfold refreshHits
      rcases hn with e | e
      · rw [decide_eq_false e, Bool.false_and]
      · rw [e, Bool.and_false]

end Sys2Proof.Machine
end

/-! PROOFS. The power-down and wake of an island (Table 2.4, R71 to R75). -/
section
namespace Sys2Proof.Machine

section
variable {h : Hw} {mem : Memory} {i : Island} {x : IslandState} (hx : x = islandAt h i)
include hx

/-! ### CLOSE, GATE and WAKE_REQUESTED -/

theorem closeIsland_none (hn : x.power ≠ .open ∨ kindCount h i.kind ≤ i.idx) : closeIsland h i = h := by
  subst hx
  exact if_pos (hn.imp_right fun e => decide_eq_false (Nat.not_lt.2 e))

section
variable (hp : x.power = .open) (he : i.idx < kindCount h i.kind)
include hp he

/-- CLOSE of an open island that the package has goes by what may be gated. -/
theorem closeIsland_open : closeIsland h i =
    if mayGate h i then setIsland h i { x with power := .closing h.tb.now, gateBusy := false, gateLost := false }
    else setIsland h i { x with gateBusy := true, gateLost := false } := by
  have hgo : ¬ (x.power ≠ IslandPower.open ∨ islandExists h i = false) := by
    rintro (e | e)
    · exact e hp
    · exact absurd he (of_decide_eq_false e)
  subst hx
  exact if_neg hgo

end

theorem gateIsland_gates {t : Nat} {g : Hw} (hp : x.power = .drained t) (hg : g = { h with tb := { h.tb with now := max h.tb.now (t + 100) } }) :
    gateIsland h i = gateLoss (setIsland g i
      { x with power := .gated, hasTb := false, gateLost := decide (i.kind = IslandKind.quad) }) i := by
  subst hx hg
  unfold gateIsland
  dsimp only
  rw [hp]
  rfl

theorem gateIsland_none (hn : ∀ t, x.power ≠ .drained t) : gateIsland h i = h := by
  subst hx
  unfold gateIsland
  dsimp only
  split
  · next e => exact absurd e (hn _)
  · rfl

theorem wakeIsland_gated (hp : x.power = .gated) : wakeIsland h i = setIsland h i { x with power := .waking h.tb.now } := by
  subst hx
  unfold wakeIsland
  dsimp only
  rw [hp]

/-- A wake of a drained island waits for its gate. -/
theorem wakeIsland_drained {t : Nat} (hp : x.power = .drained t) :
    wakeIsland h i = setIsland (gateIsland h i) i { islandAt (gateIsland h i) i with power := .waking (gateIsland h i).tb.now } := by
  subst hx
  unfold wakeIsland
  dsimp only
  rw [hp]

theorem wakeIsland_none (h1 : x.power ≠ .gated) (h2 : ∀ t, x.power ≠ .drained t) : wakeIsland h i = h := by
  subst hx
  unfold wakeIsland
  dsimp only
  split
  · next e => exact absurd e h1
  · next e => exact absurd e (h2 _)
  · rfl

/-! ### DRAIN_COMPLETE, GATE_ABANDON and STRAITS_OPEN -/

theorem drainComplete_drains {t : Nat} {g : Hw} (hp : x.power = .closing t) (ht : h.tb.now ≤ t + 5000) (hd : drainedIsland h i = true)
    (hg : g = setIsland h i { x with power := .drained h.tb.now, held := 0 }) :
    drainComplete (h, mem) i = presentHeld (if i.kind = IslandKind.cluster then emptyCluster g i.idx true else g, mem) i := by
  subst hx hg
  unfold drainComplete
  dsimp only
  rw [hp]
  exact if_pos ⟨ht, hd⟩

theorem drainComplete_early {t : Nat} (hp : x.power = .closing t) (hn : t + 5000 < h.tb.now ∨ drainedIsland h i = false) :
    drainComplete (h, mem) i = (h, mem) := by
  subst hx
  unfold drainComplete
  dsimp only
  rw [hp]
  refine if_neg ?_
  rintro ⟨e1, e2⟩
  rcases hn with e | e
  · omega
  · exact absurd (e.symm.trans e2) (by decide)

theorem drainComplete_none (hn : ∀ t, x.power ≠ .closing t) : drainComplete (h, mem) i = (h, mem) := by
  subst hx
  unfold drainComplete
  dsimp only
  split
  · next e => exact absurd e (hn _)
  · rfl

theorem gateAbandon_reopens {t : Nat} {g : Hw} (hp : x.power = .closing t)
    (hg : g = setIsland { h with tb := { h.tb with now := max h.tb.now (t + 5000) } } i { x with power := .open, held := 0, gateBusy := true }) :
    gateAbandon (h, mem) i = presentHeld (if i.kind = IslandKind.cluster then startWaiting g i.idx else g, mem) i := by
  subst hx hg
  unfold gateAbandon
  dsimp only
  rw [hp]
  rfl

theorem gateAbandon_none (hn : ∀ t, x.power ≠ .closing t) : gateAbandon (h, mem) i = (h, mem) := by
  subst hx
  unfold gateAbandon
  dsimp only
  split
  · next e => exact absurd e (hn _)
  · rfl

theorem straitsOpen_opens {t : Nat} {g : Hw} (hp : x.power = .waking t) (ht : x.hasTb = true) (hg : g = setIsland h i { x with power := .open, held := 0 }) :
    straitsOpen (h, mem) i = presentHeld (if i.kind = IslandKind.cluster then startWaiting g i.idx else g, mem) i := by
  have hre : reopen h i = g := by
    rw [hg]
    unfold reopen
    rw [← hx, ← ht]
  subst hx
  unfold straitsOpen
  dsimp only
  rw [hp, ← hre]
  exact if_pos ht

theorem straitsOpen_none (hn : (∀ t, x.power ≠ .waking t) ∨ x.hasTb = false) : straitsOpen (h, mem) i = (h, mem) := by
  subst hx
  unfold straitsOpen
  dsimp only
  split
  · next e =>
    rcases hn with hn | hn
    · exact absurd e (hn _)
    · exact if_neg (by simp [hn])
  · rfl

end

/-- Ports keep nothing that gating loses. -/
theorem gateLoss_port {h : Hw} {i : Island} (hk : i.kind = .rootPort ∨ i.kind = .baseIdurrum ∨ i.kind = .ldiePort) : gateLoss h i = h := by
  unfold gateLoss
  rcases hk with e | e | e <;> rw [e]

/-- Settles O48: each row goes by where the island stands, and at an island in another state it changes nothing. -/
theorem gatingRows : Obligations.GatingRows := by
  intro s h i x hh hx
  refine ⟨?close, ?closeBusy, fun hn => onHw_routed (f := fun h => closeIsland h i) hh (closeIsland_none hx hn), ?drain,
    fun t hp hn => onAll_routedHw (f := fun hm => drainComplete hm i) hh (drainComplete_early hx hp hn),
    fun hn => onAll_routedHw (f := fun hm => drainComplete hm i) hh (drainComplete_none hx hn), ?abandon,
    fun hn => onAll_routedHw (f := fun hm => gateAbandon hm i) hh (gateAbandon_none hx hn),
    fun t g hp hg => onHw_routed (f := fun h => gateIsland h i) hh (gateIsland_gates hx hp hg), ?gatePort,
    fun hn => onHw_routed (f := fun h => gateIsland h i) hh (gateIsland_none hx hn),
    fun hp => onHw_routed (f := fun h => wakeIsland h i) hh (wakeIsland_gated hx hp), ?wakeDrained,
    fun h1 h2 => onHw_routed (f := fun h => wakeIsland h i) hh (wakeIsland_none hx h1 h2), ?opens,
    fun hn => onAll_routedHw (f := fun hm => straitsOpen hm i) hh (straitsOpen_none hx hn)⟩
  case close =>
    exact fun hp he hm => onHw_routed (f := fun h => closeIsland h i) hh ((closeIsland_open hx hp he).trans (if_pos hm))
  case closeBusy =>
    exact fun hp he hm => onHw_routed (f := fun h => closeIsland h i) hh ((closeIsland_open hx hp he).trans (if_neg (by simp [hm])))
  case drain =>
    intro t g hp ht hd hg
    have e := drainComplete_drains (mem := s.mem) hx hp ht hd hg
    exact ⟨fun hk => onAll_routed (f := fun hm => drainComplete hm i) hh (e.trans (by rw [if_neg hk])),
      fun hk => onAll_routed (f := fun hm => drainComplete hm i) hh (e.trans (by rw [if_pos hk]))⟩
  case abandon =>
    intro t g hp hg
    have e := gateAbandon_reopens (mem := s.mem) hx hp hg
    exact ⟨fun hk => onAll_routed (f := fun hm => gateAbandon hm i) hh (e.trans (by rw [if_neg hk])),
      fun hk => onAll_routed (f := fun hm => gateAbandon hm i) hh (e.trans (by rw [if_pos hk]))⟩
  case gatePort =>
    intro t g hp hk hg
    have hq : decide (i.kind = IslandKind.quad) = false := decide_eq_false (by rcases hk with e | e | e <;> rw [e] <;> decide)
    exact onHw_routed (f := fun h => gateIsland h i) hh (((gateIsland_gates hx hp hg).trans (gateLoss_port hk)).trans (by rw [hq]))
  case wakeDrained =>
    intro t g hp hg
    have e : gateIsland h i = g := (gateIsland_gates hx hp rfl).trans hg.symm
    exact onHw_routed (f := fun h => wakeIsland h i) hh ((wakeIsland_drained hx hp).trans (by rw [e]))
  case opens =>
    intro t g hp ht hg
    have e := straitsOpen_opens (mem := s.mem) hx hp ht hg
    exact ⟨fun hk => onAll_routed (f := fun hm => straitsOpen hm i) hh (e.trans (by rw [if_neg hk])),
      fun hk => onAll_routed (f := fun hm => straitsOpen hm i) hh (e.trans (by rw [if_pos hk]))⟩

end Sys2Proof.Machine
end

/-! PROOFS. Messages across straits, handshakes and ghost responders (R55 to R61, R73, R76). -/
section
namespace Sys2Proof.Machine

/-! ### Tables whose entry is written as it was -/

theorem tabGet_put_self [DecidableEq α] {d : α} {t : Tab α} (hw : tabWf d t = true) (n m : Nat) :
    tabGet d (tabPut d t n (tabGet d t n)) m = tabGet d t m := by
  by_cases h : m = n
  · rw [h, tabGet_put_same d n _ hw]
  · exact tabGet_put_other d t _ h

theorem set_getD_self (l : List α) (i : Nat) (d : α) : l.set i (l.getD i d) = l := by
  by_cases h : i < l.length
  · rw [List.getD_eq_getElem l d h]
    exact List.set_getElem_self h
  · exact List.set_eq_of_length_le (Nat.le_of_not_lt h)

/-! ### The states of an island -/

section
variable {h : Hw} {i : Island}

theorem ghosted_open (hp : (islandAt h i).power = .open) : ghosted h i = false := by
  unfold ghosted
  rw [hp]

theorem retrying_open (hp : (islandAt h i).power = .open) : retrying h i = false := by
  unfold retrying
  rw [hp]

/-- An island that retries has no ghost that answers. -/
theorem ghosted_retrying (hr : retrying h i = true) : ghosted h i = false := by
  unfold retrying at hr
  unfold ghosted
  split at hr
  · next e => rw [e]
  · next e =>
    rw [e]
    exact decide_eq_false (Nat.not_lt.2 (of_decide_eq_true hr))
  · exact absurd hr (by decide)

end

/-! ### A message across a strait -/

section
variable {h g : Hw} {a b : Island} {c : MsgClass} {f : StraitFlit} {p n : Nat} {x : IslandState} {y : Strait}

theorem straitMessage_none (hn : islandExists h a = false ∨ islandExists h b = false) : straitMessage h a b c f p n = h :=
  if_neg (by rcases hn with e | e <;> simp [e])

theorem straitMessage_strait (ha : islandExists h a = true) (hb : islandExists h b = true) (hg : g = returnCredits h a b c n) :
    straitMessage h a b c f p n = strait g a b c f p := by
  subst hg
  exact if_pos (by simp [ha, hb])

section
variable (hx : x = islandAt g b) (hy : y = straitAt g a b)
include hx hy

section
variable (hp : x.power = .open) (hi : isolated g a = false) (ht : x.hasTb = true)
include hp hi ht

omit hy in
/-- What decides at an open island with the time base: room, then the parity of the flit. -/
theorem strait_open : strait g a b c f p =
    if !(creditFree a b (straitAt g a b) c p && answerRoom (straitAt g a b) c) && !(decide (c = MsgClass.rsp) || decide (c = MsgClass.cmp)) then g
    else if flitErrs f ≤ 3 then countErrs (delivered g a b c f p) a b (flitErrs f)
    else
      causeOfDoubt (setStrait g a b { straitAt g a b with buffer := f.words, replays := (straitAt g a b).replays + 3 })
        (if gateableKind a.kind || gateableKind b.kind then .unit else .package)
        (if gateableKind a.kind then islandUnit a else islandUnit b).1 (if gateableKind a.kind then islandUnit a else islandUnit b).2 p
        { type := 0x0203, arg0 := 0, arg1 := islandKey b } := by
  subst hx
  unfold strait
  dsimp only
  rw [if_neg (by simp [ghosted_open hp, hi]), if_neg (by simp [retrying_open hp]), if_neg (by simp [ht])]

section
variable (hr : creditFree a b y c p = true ∧ answerRoom y c = true ∨ c = .rsp ∨ c = .cmp)
include hr

omit hx hy hp hi ht in
/-- A message that finds its room is not held. -/
theorem room_of : ¬ (!(creditFree a b y c p && answerRoom y c) && !(decide (c = MsgClass.rsp) || decide (c = MsgClass.cmp))) = true := by
  rcases hr with ⟨e1, e2⟩ | e | e
  · simp [e1, e2]
  · simp [e]
  · simp [e]

theorem strait_crosses (he : flitErrs f ≤ 3) : strait g a b c f p = countErrs (delivered g a b c f p) a b (flitErrs f) := by
  have hroom := room_of hr
  rw [strait_open hx hp hi ht, ← hy, if_neg hroom, if_pos he]

theorem strait_doubt (he : 4 ≤ flitErrs f) : strait g a b c f p = causeOfDoubt (setStrait g a b { y with buffer := f.words, replays := y.replays + 3 })
    (if gateableKind a.kind || gateableKind b.kind then .unit else .package)
    (if gateableKind a.kind then islandUnit a else islandUnit b).1 (if gateableKind a.kind then islandUnit a else islandUnit b).2 p
    { type := 0x0203, arg0 := 0, arg1 := islandKey b } := by
  have hroom := room_of hr
  rw [strait_open hx hp hi ht, ← hy, if_neg hroom, if_neg (by omega)]

end

theorem strait_waits (hr : creditFree a b y c p = false ∨ answerRoom y c = false) (h1 : c ≠ .rsp) (h2 : c ≠ .cmp) : strait g a b c f p = g := by
  rw [strait_open hx hp hi ht, ← hy, if_pos]
  rcases hr with e | e <;> simp [e, h1, h2]

end

omit hy in
theorem strait_held (hr : retrying g b = true) (hi : isolated g a = false) (hc : c = .req ∨ c = .snp) :
    strait g a b c f p = setIsland g b { x with held := x.held + 1 } := by
  subst hx
  unfold strait
  dsimp only
  rw [if_neg (by simp [ghosted_retrying hr, hi]), if_pos (by rcases hc with e | e <;> simp [hr, e])]

omit hx hy in
theorem strait_nothing (hn : isolated g a = true ∨ ghosted g b = true) : strait g a b c f p = g := by
  unfold strait
  dsimp only
  exact if_pos (by rcases hn with e | e <;> simp [e])

omit hy in
theorem strait_noTb (hi : isolated g a = false) (hgh : ghosted g b = false) (ht : x.hasTb = false) (h1 : c ≠ .req) (h2 : c ≠ .snp) :
    strait g a b c f p = g := by
  subst hx
  unfold strait
  dsimp only
  rw [if_neg (by simp [hgh, hi]), if_neg (by simp [h1, h2]), if_pos (by simp [ht])]

end
end

/-! ### One message, read back -/

section
variable {h : Hw} {a b : Island} {c : MsgClass} {f : StraitFlit} {p : Nat} {y : Strait}

/-- A strait as the receiver's return of no credit leaves it. -/
theorem returnCredits_zero (h : Hw) (a b : Island) (c : MsgClass) : returnCredits h a b c 0 = setStrait h a b (straitAt h a b) := by
  unfold returnCredits
  dsimp only
  rw [List.drop_zero, set_getD_self]

theorem straitKey_inj {a b a' b' : Island} (hk : straitKey a' b' = straitKey a b) (h : Hw) : straitAt h a' b' = straitAt h a b :=
  congrArg (tabGet ({} : Strait) h.straits) hk

/-- The direction of a strait that a message has crossed without errors. -/
def crossed (c : MsgClass) (f : StraitFlit) (p : Nat) (y : Strait) : Strait :=
  { y with
    used := y.used.set (classIdx c) (y.used.getD (classIdx c) [] ++ [p]),
    answers := (answersTo c).elim y.answers (bump y.answers),
    buffer := f.words, got := (transmission f 0).map (· % 2 ^ 16),
    delivered := bump y.delivered (classIdx c) }

/-- The other direction, where a message was the last of an answer. -/
def freed (j : Nat) (r : Strait) : Strait := { r with answers := r.answers.set j (r.answers.getD j 0 - 1) }

section
variable (hy : y = straitAt h a b) (hc : creditFree a b y c p = true) (he : flitErrs f = 0)
include hy hc he

/-- A message without errors writes its direction. -/
theorem delivered_plain (hn : answered_ c = none ∨ f.ends = false) : delivered h a b c f p = setStrait h a b (crossed c f p y) := by
  have hlt : (y.used.getD (classIdx c) []).length < classCredits c := by
    unfold creditFree at hc
    exact of_decide_eq_true (Bool.and_eq_true_iff.1 hc).1
  subst hy
  unfold delivered
  dsimp only
  rw [he, if_pos hlt]
  rcases hn with e | e
  · cases c with
    | req => rfl
    | snp => rfl
    | rsp => exact absurd e (by decide)
    | dat => exact absurd e (by decide)
    | cmp => exact absurd e (by decide)
  · rw [e]
    cases c <;> rfl

/-- A message that ends an answer frees room in the other direction too. -/
theorem delivered_frees {j : Nat} (hj : answered_ c = some j) (hends : f.ends = true) : delivered h a b c f p =
    setStrait (setStrait h a b (crossed c f p y)) b a (freed j (straitAt (setStrait h a b (crossed c f p y)) b a)) := by
  have hlt : (y.used.getD (classIdx c) []).length < classCredits c := by
    unfold creditFree at hc
    exact of_decide_eq_true (Bool.and_eq_true_iff.1 hc).1
  subst hy
  unfold delivered
  dsimp only
  rw [he, if_pos hlt, hends]
  cases c with
  | req => exact absurd hj (by simp [answered_])
  | snp => exact absurd hj (by simp [answered_])
  | rsp => cases hj; rfl
  | dat => cases hj; rfl
  | cmp => cases hj; rfl

end

/-- Without errors nothing is counted: every strait reads as before. -/
theorem countErrs_zero (hw : tabWf {} h.straits = true) (a' b' : Island) : straitAt (countErrs h a b 0) a' b' = straitAt h a' b' :=
  tabGet_put_self hw _ _

theorem countErrs_only (h : Hw) (a b : Island) : countErrs h a b 0 = { h with straits := (countErrs h a b 0).straits } := rfl

end

/-! ### Handshakes and ghosts -/

section
variable {h : Hw} {a b : Island} {p : Nat}

theorem handshakeTimeout_none (hn : (islandExists h a = false ∨ islandExists h b = false) ∨ ghosted h b = true ∨ retrying h b = true) :
    handshakeTimeout h a b p = h := by
  unfold handshakeTimeout
  dsimp only
  exact if_pos (by rcases hn with (e | e) | e | e <;> simp [e])

theorem handshakeTimeout_doubt (ha : islandExists h a = true) (hb : islandExists h b = true) (hg : ghosted h b = false) (hr : retrying h b = false) :
    handshakeTimeout h a b p = causeOfDoubt h (if gateableKind a.kind || gateableKind b.kind then .unit else .package)
      (if gateableKind a.kind then islandUnit a else islandUnit b).1 (if gateableKind a.kind then islandUnit a else islandUnit b).2 p
      { type := 0x0203, arg0 := 1, arg1 := islandKey b } := by
  unfold handshakeTimeout
  dsimp only
  exact if_neg (by simp [ha, hb, hg, hr])

theorem ghost_none {c : MsgClass} {k : MsgKind} {ad : Nat} (hg : ghosted h b = false) : ghost h b c k p ad = h := if_pos (by simp [hg])

section
variable (hg : ghosted h b = true)
include hg

theorem ghost_posted {ad : Nat} : ghost h b .req .posted p ad = ghostWrite h b p (toCompact h.ident.position ad) := by
  unfold ghost
  exact if_neg (by simp [hg])

theorem ghost_read {ad : Nat} : ghost h b .req .read p ad = ghostAnswer h true := by
  unfold ghost
  exact if_neg (by simp [hg])

theorem ghost_other {ad : Nat} {k : MsgKind} (h1 : k ≠ .posted) (h2 : k ≠ .read) :
    ghost h b .req k p ad = { h with coh := { h.coh with answer := [], answerBad := 4, answerPoison := false } } := by
  have hd : decide (k = MsgKind.read) = false := decide_eq_false h2
  unfold ghost
  rw [if_neg (by simp [hg])]
  cases k with
  | posted => exact absurd rfl h1
  | read => exact absurd rfl h2
  | _ => rfl

theorem ghost_snoop {ad : Nat} {k : MsgKind} :
    ghost h b .snp k p ad = { h with coh := { h.coh with answer := [], answerBad := 0, answerPoison := false } } := by
  unfold ghost
  rw [if_neg (by simp [hg])]

theorem ghost_doubt {c : MsgClass} {ad : Nat} {k : MsgKind} (h1 : c ≠ .req) (h2 : c ≠ .snp) :
    ghost h b c k p ad = causeOfDoubt h .unit (islandUnit b).1 (islandUnit b).2 p { type := 0x0202, arg0 := classIdx c } := by
  unfold ghost
  rw [if_neg (by simp [hg])]
  cases c with
  | req => exact absurd rfl h1
  | snp => exact absurd rfl h2
  | _ => rfl

end

/-- A ghost's answer to a read: 64 free bytes, marked. -/
theorem ghostAnswer_read (h : Hw) : ∃ d, d.length = 64 ∧
    ghostAnswer h true = { h with coh := { h.coh with answer := d, answerBad := 4, answerPoison := true }, free := h.free + 64 } :=
  ⟨_, by rw [takeFreeBytes, List.length_map, List.length_range], rfl⟩

end

/-! ### A message with a credit and room, from end to end -/

/-- What a message that crosses without errors leaves: its own direction, the room it frees, and every other strait. -/
structure Crossing (t h : Hw) (a b : Island) (c : MsgClass) (f : StraitFlit) (p : Nat) : Prop where
  only : t = { h with straits := t.straits }
  here : straitAt t a b = crossed c f p (straitAt h a b)
  frees : ∀ j, answered_ c = some j → f.ends = true → straitAt t b a = freed j (straitAt h b a)
  back : answered_ c = none ∨ f.ends = false → straitAt t b a = straitAt h b a
  others : ∀ a' b', straitKey a' b' ≠ straitKey a b → straitKey a' b' ≠ straitKey b a → straitAt t a' b' = straitAt h a' b'

theorem setStrait_wf {h : Hw} (hw : tabWf {} h.straits = true) (a b : Island) (x : Strait) : tabWf {} (setStrait h a b x).straits = true :=
  tabPut_wf _ _ hw

/-- A delivery without errors, on hardware whose straits are in the canonical form. -/
theorem delivered_crossing {h : Hw} {a b : Island} {c : MsgClass} {f : StraitFlit} {p : Nat} (hw : tabWf {} h.straits = true)
    (hk : straitKey a b ≠ straitKey b a) (hc : creditFree a b (straitAt h a b) c p = true) (he : flitErrs f = 0) :
    Crossing (delivered h a b c f p) h a b c f p ∧ tabWf {} (delivered h a b c f p).straits = true := by
  have hw1 := setStrait_wf hw a b (crossed c f p (straitAt h a b))
  by_cases hn : answered_ c = none ∨ f.ends = false
  · rw [delivered_plain rfl hc he hn]
    refine ⟨⟨rfl, straitAt_setStrait_same _ _ _ _ hw, fun j hj hends => ?_, fun _ => straitAt_setStrait_other _ _ _ _ hk.symm,
      fun a' b' h1 _ => straitAt_setStrait_other _ _ _ _ h1⟩, hw1⟩
    rcases hn with e | e
    · exact absurd (hj.symm.trans e) (by simp)
    · exact absurd (hends.symm.trans e) (by decide)
  · obtain ⟨hsome, hends⟩ := not_or.1 hn
    obtain ⟨j, hj⟩ := Option.ne_none_iff_exists'.1 hsome
    have hends : f.ends = true := by simpa using hends
    have hr : straitAt (setStrait h a b (crossed c f p (straitAt h a b))) b a = straitAt h b a := straitAt_setStrait_other _ _ _ _ hk.symm
    rw [delivered_frees rfl hc he hj hends, hr]
    refine ⟨⟨rfl, ?_, fun i hi _ => ?_, fun h' => absurd h' hn, fun a' b' h1 h2 => ?_⟩, setStrait_wf hw1 b a _⟩
    · rw [straitAt_setStrait_other _ _ _ _ hk, straitAt_setStrait_same _ _ _ _ hw]
    · obtain rfl : j = i := Option.some.inj (hj.symm.trans hi)
      exact straitAt_setStrait_same _ _ _ _ hw1
    · rw [straitAt_setStrait_other _ _ _ _ h2, straitAt_setStrait_other _ _ _ _ h1]

/-- A message with a credit and room, before which the receiver returned no credit, crosses. -/
theorem straitMessage_crosses {h : Hw} {a b : Island} {c : MsgClass} {f : StraitFlit} {p : Nat} {x : IslandState} (hx : x = islandAt h b)
    (ha : islandExists h a = true) (hb : islandExists h b = true) (hw : tabWf {} h.straits = true) (hk : straitKey a b ≠ straitKey b a)
    (hp : x.power = .open) (hi : isolated h a = false) (ht : x.hasTb = true) (hc : creditFree a b (straitAt h a b) c p = true)
    (hr : answerRoom (straitAt h a b) c = true) (he : flitErrs f = 0) : Crossing (straitMessage h a b c f p 0) h a b c f p := by
  obtain ⟨g, hg⟩ : ∃ g, g = returnCredits h a b c 0 := ⟨_, rfl⟩
  have hgs : g = setStrait h a b (straitAt h a b) := hg.trans (returnCredits_zero h a b c)
  have hread : ∀ a' b', straitAt g a' b' = straitAt h a' b' := fun a' b' => by
    rw [hgs]
    exact tabGet_put_self hw _ _
  have hgw : tabWf {} g.straits = true := by
    rw [hgs]
    exact setStrait_wf hw a b _
  have hgonly : g = { h with straits := g.straits } := by
    rw [hgs]
    rfl
  have hxg : x = islandAt g b := by
    rw [hx, hgs]
    rfl
  have hig : isolated g a = false := by
    rw [hgs]
    exact hi
  obtain ⟨⟨e1, e2, e3, e4, e5⟩, hdw⟩ := delivered_crossing (p := p) hgw hk (by rw [hread]; exact hc) he
  have hcross : straitMessage h a b c f p 0 = countErrs (delivered g a b c f p) a b 0 := by
    rw [straitMessage_strait ha hb hg, strait_crosses hxg rfl hp hig ht (by rw [hread]; exact .inl ⟨hc, hr⟩) (by omega), he]
  generalize delivered g a b c f p = d at e1 e2 e3 e4 e5 hdw hcross
  have hz := countErrs_zero (a := a) (b := b) hdw
  rw [hcross]
  refine ⟨?_, (hz a b).trans (e2.trans (by rw [hread])), fun j hj hends => (hz b a).trans ((e3 j hj hends).trans (by rw [hread])),
    fun hn => (hz b a).trans ((e4 hn).trans (hread b a)), fun a' b' h1 h2 => (hz a' b').trans ((e5 a' b' h1 h2).trans (hread a' b'))⟩
  rw [countErrs_only, e1, hgonly]

/-- Of the credits between shared islands no partition holds more than half. -/
theorem creditFree_half {a b : Island} {y : Strait} {p : Nat} (ha : sharedIsland a = true) (hb : sharedIsland b = true)
    (hl : 8 ≤ ((y.used.getD 0 []).filter (· = p)).length) : creditFree a b y .req p = false := by
  unfold creditFree
  have hle : decide (((y.used.getD (classIdx .req) []).filter (· = p)).length ≥ classCredits .req / 2) = true := decide_eq_true hl
  dsimp only
  rw [ha, hb, hle]
  exact Bool.and_false _

/-- Settles O49: a message goes by the island it meets, its room and its flit's parity; the straits read back through their table. -/
theorem straitRows : Obligations.StraitRows := by
  intro s h a b c p x u hh hx hu
  refine ⟨fun f n hn => onHw_routed (f := fun h => straitMessage h a b c f p n) hh (straitMessage_none hn),
    fun hn => onHw_routed (f := fun h => handshakeTimeout h a b p) hh (handshakeTimeout_none (.inl hn)), ?message, ?crossing,
    fun y ha hb hl => creditFree_half ha hb hl, ?handshake,
    fun hn => onHw_routed (f := fun h => handshakeTimeout h a b p) hh (handshakeTimeout_none (.inr hn)), ?posted, ?read,
    fun ad k hg h1 h2 => onHw_routed (f := fun h => ghost h b .req k p ad) hh (ghost_other hg h1 h2),
    fun ad k hg => onHw_routed (f := fun h => ghost h b .snp k p ad) hh (ghost_snoop hg),
    fun ad k hg h1 h2 => onHw_routed (f := fun h => ghost h b c k p ad) hh (ghost_doubt hg h1 h2),
    fun ad k hg => onHw_routed (f := fun h => ghost h b c k p ad) hh (ghost_none hg)⟩
  case message =>
    intro f n g y e ha hb hg hy he
    subst hu he
    have hxg : x = islandAt g b := by
      rw [hx, hg]
      rfl
    have hrow : ∀ {o}, strait g a b c f p = o → exec (.straitMessage a b c f p n) s = .next (s.ended o) := fun {o} ho =>
      onHw_routed (f := fun h => straitMessage h a b c f p n) hh ((straitMessage_strait ha hb hg).trans ho)
    have hiso : ∀ {v}, isolated h a = v → isolated g a = v := fun e => by rw [hg]; exact e
    have hret : ∀ {v}, retrying h b = v → retrying g b = v := fun e => by rw [hg]; exact e
    have hgho : ∀ {v}, ghosted h b = v → ghosted g b = v := fun e => by rw [hg]; exact e
    refine ⟨fun hp hi ht hr hle v w hv hw => hrow ?_, fun hp hi ht hr h1 h2 => hrow (strait_waits hxg hy hp (hiso hi) ht hr h1 h2),
      fun hp hi ht hr hle => hrow (strait_doubt hxg hy hp (hiso hi) ht hr hle),
      fun hr hi hc => hrow (strait_held hxg (hret hr) (hiso hi) hc),
      fun hn => hrow (strait_nothing (hn.imp hiso hgho)), fun hi hgh ht h1 h2 => hrow (strait_noTb hxg (hiso hi) (hgho hgh) ht h1 h2)⟩
    rw [strait_crosses hxg hy hp (hiso hi) ht hr hle, hw, hv]
    rfl
  case crossing =>
    intro f y ha hb hw hk hp hi ht hy hc hr he
    subst hy
    obtain ⟨e1, e2, e3, e4, e5⟩ := straitMessage_crosses hx ha hb hw hk hp hi ht hc hr he
    refine ⟨_, onHw_routed (f := fun h => straitMessage h a b c f p 0) hh rfl, ?_⟩
    rw [stepEnd_nil (by rw [e1, hh]; rfl) (by rw [e1, hh]; rfl)]
    refine ⟨rfl, e1, e2.trans ?_, fun j r hj hends hr' => (e3 j hj hends).trans (by rw [hr']; rfl), e4, e5⟩
    cases c <;> rfl
  case handshake =>
    intro ha hb hg hr
    subst hu
    exact onHw_routed (f := fun h => handshakeTimeout h a b p) hh (handshakeTimeout_doubt ha hb hg hr)
  case posted =>
    intro ad n hg hn
    subst hn hx
    exact onHw_routed (f := fun h => ghost h b .req .posted p ad) hh (ghost_posted hg)
  case read =>
    intro ad hg
    obtain ⟨d, hd, e⟩ := ghostAnswer_read h
    refine ⟨_, onHw_routed (f := fun h => ghost h b .req .read p ad) hh ((ghost_read hg).trans e), ?_⟩
    rw [stepEnd_nil (by rw [hh]; rfl) (by rw [hh]; rfl)]
    exact ⟨rfl, rfl, hd, rfl, rfl⟩

end Sys2Proof.Machine
end

/-!
PROOFS. The stores of the register windows (chapter 23): what reaches a window's page, which stores act, and the CSRs of a hart.
-/

section
namespace Sys2Proof.Machine

/-! ### A store of a register and its outcome -/

/-- A store that leaves the bytes alone and makes no access wait. -/
theorem store_ended {s : State} {h g : Hw} {t : RegPlace} {w : Half} {v : Nat} (hh : h = clearSent s.hw)
    (he : registerWrite (h, s.mem) t w v = (g, s.mem)) (nw : NoWait g) : exec (.registerWrite t w v) s = .next (s.ended g) :=
  onAll_waiting (f := fun hm => registerWrite hm t w v) hh he nw

/-- A store that is ignored. -/
theorem store_ignored {s : State} {h : Hw} {t : RegPlace} {w : Half} {v : Nat} (hh : h = clearSent s.hw)
    (he : registerWrite (h, s.mem) t w v = (h, s.mem)) : exec (.registerWrite t w v) s = .next (s.withHw h) :=
  row_gives rfl (by rw [hh]; rfl) (by rw [hh]; rfl) (store_ended hh he (by rw [hh]; rfl))

/-- An operation over the hardware that changes nothing ends as it found the hardware. -/
theorem idle_ended {s : State} {h : Hw} (hh : h = clearSent s.hw) : s.ended h = s.withHw h := by
  rw [State.ended, stepEnd_nil (by rw [hh]; rfl) (by rw [hh]; rfl)]

/-! ### Bits of a store -/

theorem and_mask {v k : Nat} (hv : v < 2 ^ k) : v &&& (2 ^ k - 1) = v := by rw [Nat.and_two_pow_sub_one_eq_mod, Nat.mod_eq_of_lt hv]

theorem and_mask_ne {v k : Nat} (hv : 2 ^ k ≤ v) : v &&& (2 ^ k - 1) ≠ v := by
  rw [Nat.and_two_pow_sub_one_eq_mod]
  have := Nat.mod_lt v (Nat.two_pow_pos k)
  omega

theorem reached_lt (v : Nat) (w : Half) : reached v w < 2 ^ 64 := by cases w <;> (simp only [reached]; omega)

theorem reached_full {v : Nat} (hv : v < 2 ^ 64) : reached v .full = v := Nat.mod_eq_of_lt hv

theorem straySet_all (v : Nat) (w : Half) : straySet (some allBits) v w = false := by
  have e : reached v w &&& allBits = reached v w := and_mask (k := 64) (reached_lt v w)
  rw [straySet, e]
  exact decide_eq_false (fun h => h rfl)

theorem straySet_low {v k : Nat} (hv : v < 2 ^ k) (hk : v < 2 ^ 64) : straySet (some (2 ^ k - 1)) v .full = false := by
  rw [straySet, reached_full hk, and_mask hv]
  exact decide_eq_false (fun h => h rfl)

theorem straySet_high {v k : Nat} (hv : 2 ^ k ≤ v) (hk : v < 2 ^ 64) : straySet (some (2 ^ k - 1)) v .full = true := by
  rw [straySet, reached_full hk]
  exact decide_eq_true (and_mask_ne hv)

/-- An action runs on the value of a store of meaningful bits alone. -/
theorem acting_runs {h : Hw} {v ok t : Nat} {w : Half} {f : Hw → Nat → Hw} (hr : reached v w &&& ok = reached v w)
    (ht : actionValue v w = some t) : acting h v w ok f = f h t := by
  unfold acting
  rw [if_pos hr, ht]

/-- A zero in the upper half of an action register acts on nothing. -/
theorem acting_upper {h : Hw} {ok : Nat} {f : Hw → Nat → Hw} : acting h 0 .upper ok f = h := by
  have hr : reached 0 .upper = 0 := rfl
  unfold acting
  rw [hr, Nat.zero_and, if_pos rfl]
  rfl

/-- A store of reserved bits makes an action run on a free value. -/
theorem acting_stray {h : Hw} {v ok : Nat} {w : Half} {f : Hw → Nat → Hw} (hr : reached v w &&& ok ≠ reached v w) :
    acting h v w ok f = f (takeFree h).2 ((takeFree h).1.toNat &&& ok) := by
  unfold acting
  rw [if_neg hr]

/-- An action register stored to whole with meaningful bits alone. -/
theorem acting_full {h : Hw} {v ok : Nat} {f : Hw → Nat → Hw} (hr : v &&& ok = v) (hv : v < 2 ^ 64) : acting h v .full ok f = f h v := by
  refine acting_runs ?_ (congrArg some (Nat.mod_eq_of_lt hv))
  rw [reached_full hv, hr]

/-- A store of 32 bits to an action register that takes 32, by either form. -/
theorem acting_word {h : Hw} {v : Nat} {w : Half} {f : Hw → Nat → Hw} (hw : w = .lower ∨ (w = .full ∧ v < 2 ^ 32)) :
    acting h v w 0xFFFFFFFF f = f h (v % 2 ^ 32) := by
  rcases hw with rfl | ⟨rfl, hv⟩
  · exact acting_runs (and_mask (k := 32) (Nat.mod_lt _ (by decide))) rfl
  · have hm : v &&& 0xFFFFFFFF = v := and_mask (k := 32) hv
    rw [acting_full hm (by omega), Nat.mod_eq_of_lt hv]

theorem sane_plain {h : Hw} {v ok : Nat} (hv : v &&& ok = v) : sane h v ok = (v, h) := by
  unfold sane
  rw [if_pos hv]

/-! ### The pages of a partition's window -/

/-- A store at an aligned offset of a partition's window reaches it. -/
theorem window_reaches {hm : HM} {p off v : Nat} {w : Half} (hp : p ≤ 16) (ho : off < 2 ^ 24) (ha : off % 8 = 0) :
    registerWrite hm (.window p off) w v = windowStore hm p off v w := by
  have e : off / 8 * 8 = off := by omega
  show (if p ≤ 16 ∧ off < 2 ^ 24 then windowStore hm p (off / 8 * 8) v w else hm) = _
  rw [if_pos ⟨hp, ho⟩, e]

/-- A store that sets no bit that no register takes has its meaning. -/
theorem windowStore_plain {hm : HM} {p off v : Nat} {w : Half} (hs : straySet (fixedBits hm.1 p off) v w = false) :
    windowStore hm p off v w = windowPlain hm p off v w := by
  unfold windowStore
  rw [hs]
  rfl

/-- A store to one of the pages that both kinds of window share. -/
theorem windowPlain_common {hm : HM} {p off v : Nat} {w : Half} {g : Hw} (hc : commonStore hm.1 (.part p) p off v w = some g) :
    windowPlain hm p off v w = (g, hm.2) := by
  unfold windowPlain
  dsimp only
  rw [hc]

/-- A store of a shared page without a bit that no register takes. -/
theorem window_common {hm : HM} {p off v : Nat} {w : Half} {g : Hw} (hp : p ≤ 16) (ho : off < 2 ^ 24) (ha : off % 8 = 0)
    (hs : straySet (fixedBits hm.1 p off) v w = false) (hc : commonStore hm.1 (.part p) p off v w = some g) :
    registerWrite hm (.window p off) w v = (g, hm.2) := by
  rw [window_reaches hp ho ha, windowStore_plain hs, windowPlain_common hc]

/-- The pages past the interrupt table are not shared. -/
theorem commonStore_slip {h : Hw} {m : Mbx} {k off v : Nat} {w : Half} (ho : 0x80000 ≤ off) : commonStore h m k off v w = none := by
  unfold commonStore
  rw [if_neg (by omega), if_neg (by omega), if_neg (by omega), if_neg (by omega), if_neg (by omega), if_neg (by omega), if_neg (by omega)]

/-- Nor are the invalidation page and the interrupt table. -/
theorem commonStore_table {h : Hw} {m : Mbx} {k off v : Nat} {w : Half} (ho : 0x6000 ≤ off) (hu : off < 0x40000) :
    commonStore h m k off v w = none := by
  unfold commonStore
  rw [if_neg (by omega), if_neg (by omega), if_neg (by omega), if_neg (by omega), if_neg (by omega), if_neg (by omega), if_neg (by omega)]

/-- A store to SLP_XINV. -/
theorem window_xinv {hm : HM} {p v : Nat} {w : Half} (hp : p ≤ 16) :
    registerWrite hm (.window p 0x6000) w v = (acting hm.1 v w 0xFFFF000F (fun h t => xinv h p t), hm.2) := by
  rw [window_reaches hp (by decide) (by decide), windowStore_plain rfl]
  unfold windowPlain
  dsimp only
  rw [commonStore_table (by decide) (by decide)]
  rfl

/-- An entry of the interrupt table stored without a bit that has no meaning. -/
theorem window_entry {hm : HM} {p e v x : Nat} {w : Half} (hp : p ≤ 16) (he : e < 4096)
    (hx : mergeHalf (tabGet (0 : W64) hm.1.intTable (4096 * p + e)).toNat v w = x) (hb : x &&& entryBits = x) :
    registerWrite hm (.window p (0x10000 + 8 * e)) w v = (entryStore hm.1 (4096 * p + e) (w64 x) w, hm.2) := by
  have hf : fixedBits hm.1 p (0x10000 + 8 * e) = none := by
    unfold fixedBits
    rw [if_neg (by omega), if_pos (by omega)]
  have hi : (0x10000 + 8 * e - 0x10000) / 8 = e := by omega
  rw [window_reaches hp (by omega) (by omega), windowStore_plain (by rw [hf]; rfl)]
  unfold windowPlain
  dsimp only
  rw [commonStore_table (by omega) (by omega)]
  dsimp only
  rw [if_neg (by omega), if_pos (by omega), hi, hx, sane_plain hb]

/-- A page of a slip. -/
theorem window_slip {hm : HM} {p i o v : Nat} {w : Half} (hp : p ≤ 16) (hi : i < 1024) (ho : o = 0 ∨ o = 0x50) :
    registerWrite hm (.window p (0x400000 + 4096 * i + o)) w v =
      if slipOwner hm.1 i = p then (slipStore hm.1 i o v w, hm.2) else hm := by
  have hk : (0x400000 + 4096 * i + o - 0x400000) / 4096 = i := by omega
  have hm' : (0x400000 + 4096 * i + o) % 4096 = o := by omega
  have hs : straySet (fixedBits hm.1 p (0x400000 + 4096 * i + o)) v w = false := by
    unfold fixedBits
    rw [if_neg (by omega), if_neg (by omega), if_pos (by omega)]
    dsimp only
    rw [hk, hm']
    by_cases hs : slipOwner hm.1 i = p
    · rw [if_neg (fun h => h hs), if_pos (by omega)]
      rfl
    · rw [if_pos hs]
      exact straySet_all v w
  rw [window_reaches hp (by omega) (by omega), windowStore_plain hs]
  unfold windowPlain
  dsimp only
  rw [commonStore_slip (by omega)]
  dsimp only
  rw [if_neg (by omega), if_neg (by omega), if_pos (by omega), hk, hm']

/-- A store of reserved bits that no register takes lands at a free place of the page. -/
theorem windowStore_stray {hm : HM} {p off v : Nat} {w : Half} (hs : straySet (fixedBits hm.1 p off) v w = true) :
    windowStore hm p off v w = windowPlain ((takeFree (takeFree hm.1).2).2, hm.2) p (strayOff hm.1 off)
      (takeFree (takeFree hm.1).2).1.toNat .full := by
  unfold windowStore
  rw [hs]
  rfl

/-- A store to FQ_OVF_TAKE by a form that reaches its lower half. -/
theorem fqStore_take {h : Hw} {k v : Nat} {w : Half} (hw : w ≠ .upper) : fqStore h k 0x20 v w = fqOvfTake h k := by
  exact if_neg hw

theorem fqHead_noWait {h : Hw} (k v : Nat) (nw : NoWait h) : NoWait (fqHead h k v) := by
  unfold fqHead
  dsimp only
  split <;> exact nw

/-- MBX_STATUS clears OVERRUN where its bit is one. -/
theorem mbxStore_status {h : Hw} {m : Mbx} {v : Nat} (hb : bitOf v 3 = true) (hv : v < 16) :
    mbxStore h m 0x90 v .full = setBox h m { boxAt h m with overrun := false } := by
  have hr : reached v .full = v := reached_full (by omega)
  have ha : v &&& 0xFFFFFFFF0000000F = v := by
    have : ∀ v < 16, v &&& 0xFFFFFFFF0000000F = v := by decide
    exact this v hv
  have ho : w1c h v .full 0xFFFFFFFF0000000F = (v, h) := by rw [w1c, hr, sane_plain ha]
  have hst : (if bitOf (w1c h v .full 0xFFFFFFFF0000000F).1 3 then
      setBox (w1c h v .full 0xFFFFFFFF0000000F).2 m { boxAt h m with overrun := false }
    else (w1c h v .full 0xFFFFFFFF0000000F).2) = setBox h m { boxAt h m with overrun := false } := by
    rw [ho]
    exact if_pos hb
  exact hst

/-- Request bytes take the value stored, and a free one while a request rings. -/
theorem mbxStore_request {h : Hw} {m : Mbx} {k v : Nat} (hk : k < 8) (hv : v < 2 ^ 64) :
    mbxStore h m (8 * k) v .full = setBox (requestBytes h (boxAt h m) v).2 m { boxAt h m with
      reqHdr := pageWrite (boxAt h m).reqHdr (8 * k) (leBytes 8 (requestBytes h (boxAt h m) v).1) } := by
  have hm' : mergeHalf (mbxReg h m (8 * k)) v .full = v := Nat.mod_eq_of_lt hv
  unfold mbxStore
  dsimp only
  rw [if_pos (by omega), hm']

theorem requestBytes_free {h : Hw} {x : Mbox} {v : Nat} (hr : x.rung = none) : requestBytes h x v = (v, h) := by
  unfold requestBytes
  rw [hr]
  rfl

theorem requestBytes_rung {h : Hw} {x : Mbox} {v : Nat} (hr : x.rung ≠ none) :
    requestBytes h x v = ((takeFree h).1.toNat, (takeFree h).2) := by
  unfold requestBytes
  rw [if_pos (Option.isSome_iff_ne_none.2 hr)]

/-- An address past the last partition or past its window is ignored. -/
theorem window_outside {hm : HM} {p off v : Nat} {w : Half} (ho : 16 < p ∨ 2 ^ 24 ≤ off) : registerWrite hm (.window p off) w v = hm :=
  if_neg (by omega)

/-- The pages SEL_ and PWR_ of the Steward window take no store. -/
theorem steward_ignored {hm : HM} {off v : Nat} {w : Half} (ho : off / 4096 = 0x100 ∨ off / 4096 = 0x200) :
    registerWrite hm (.steward off) w v = hm := by
  have hf : fixedSteward (off / 8 * 8) = some allBits := by
    unfold fixedSteward
    rw [if_neg (by omega), if_pos (by omega)]
  show (if off < 2 ^ 26 then stewardStore hm (off / 8 * 8) v w else hm) = _
  rw [if_pos (by omega)]
  unfold stewardStore
  rw [hf, straySet_all, if_neg (by decide)]
  unfold stewardPlain
  dsimp only
  rw [commonStore_slip (by omega)]
  exact if_neg (by omega)

/-- INT_STEWARD takes its 16 bits. -/
theorem steward_entry {hm : HM} {v : Nat} (hv : v < 2 ^ 16) :
    registerWrite hm (.steward 0x6000) .full v = ({ hm.1 with faults := { hm.1.faults with intSteward := v } }, hm.2) := by
  have hm' : mergeHalf hm.1.faults.intSteward v .full = v := Nat.mod_eq_of_lt (by omega)
  show stewardPlain hm 0x6000 v .full = _
  unfold stewardPlain
  dsimp only
  rw [commonStore_table (by decide) (by decide), hm']
  dsimp only
  have ho : sane hm.1 v 0xFFFF = (v, hm.1) := sane_plain (and_mask (k := 16) hv)
  rw [if_pos rfl, ho]

/-! ### Interrupt-table entries -/

theorem entryBits_low {x : Nat} (hx : x < 2 ^ 21) : x &&& entryBits = x := by
  apply Nat.eq_of_testBit_eq
  intro i
  have he : entryBits = 2 ^ 63 + (2 ^ 21 - 1) := rfl
  rcases lt_or_ge i 21 with hi | hi
  · rw [Nat.testBit_and, he, Nat.testBit_two_pow_add_gt (by omega), Nat.testBit_two_pow_sub_one, decide_eq_true hi, Bool.and_true]
  · rw [Nat.testBit_and, Nat.testBit_lt_two_pow (lt_of_lt_of_le hx (Nat.pow_le_pow_right (by decide) hi)), Bool.false_and]

theorem entryBits_valid {x : Nat} (hx : x < 2 ^ 21) : (2 ^ 63 + x) &&& entryBits = 2 ^ 63 + x := by
  have hlow : x &&& (2 ^ 21 - 1) = x := and_mask hx
  have e1 : 2 ^ 63 + x = 2 ^ 63 ||| x := by
    simpa using Nat.two_pow_add_eq_or_of_lt (i := 63) (b := x) (by omega) 1
  have e2 : entryBits = 2 ^ 63 ||| (2 ^ 21 - 1) := by decide
  rw [e1, e2, ← Nat.or_and_distrib_left, hlow]

theorem bitOf_valid {x : Nat} (hx : x < 2 ^ 21) : bitOf (2 ^ 63 + x) 63 = true :=
  Nat.add_comm x (2 ^ 63) ▸ bitOf_add_clear (d := 63) (Nat.testBit_lt_two_pow (by omega))

theorem entryStore_full {h : Hw} {e : Nat} {x : W64} :
    entryStore h e x .full = { h with intTable := tabPut 0 h.intTable e x, intHalf := tabPut 0 h.intHalf e 0 } := by
  unfold entryStore
  have hn : halfNo .full = 0 := rfl
  dsimp only
  rw [hn, ite_self]

/-- The first half of a VALID entry leaves it half-rewritten. -/
theorem entryStore_half {h : Hw} {e : Nat} {x : W64} {w : Half} (ho : bitOf (tabGet (0 : W64) h.intTable e).toNat 63 = true)
    (hx : bitOf x.toNat 63 = true) (hw : tabGet 0 h.intHalf e = 0) :
    entryStore h e x w = { h with intTable := tabPut 0 h.intTable e x, intHalf := tabPut 0 h.intHalf e (halfNo w) } := by
  unfold entryStore
  dsimp only
  rw [ho, hx, hw]
  rfl

/-- The other half ends it. -/
theorem entryStore_other {h : Hw} {e : Nat} {x : W64} {w : Half} (h0 : tabGet 0 h.intHalf e ≠ 0) (hw : tabGet 0 h.intHalf e ≠ halfNo w) :
    entryStore h e x w = { h with intTable := tabPut 0 h.intTable e x, intHalf := tabPut 0 h.intHalf e 0 } := by
  have hd : decide (tabGet 0 h.intHalf e = 0 ∨ tabGet 0 h.intHalf e = halfNo w) = false := decide_eq_false (not_or.2 ⟨h0, hw⟩)
  unfold entryStore
  dsimp only
  rw [hd, Bool.and_false]
  rfl

/-! ### Interrupt files and knots -/

theorem fileStore_own {h : Hw} {p n f v : Nat} (ho : hartOwner h n = p) : fileStore h p n f 0 v .lower = imsicSet h n f (v % 2 ^ 32) := by
  unfold fileStore
  rw [if_neg (by rw [ho]; omega)]

theorem fileStore_other {h : Hw} {p n f v : Nat} (ho : hartOwner h n ≠ p) : fileStore h p n f 0 v .lower = h := by
  unfold fileStore
  rw [if_pos (.inr ho)]

theorem imsicSet_held {h : Hw} {n f v : Nat} (hn : n < 128) (hf : f < 8) (h0 : 1 ≤ v) (hv : v ≤ (if f = 0 then 255 else 2047)) :
    imsicSet h n f v = noteIrq { h with imsic := tabPut false h.imsic ((n * 8 + f) * 2048 + v) true } := if_pos ⟨hn, hf, h0, hv⟩

theorem imsicSet_beyond {h : Hw} {n f v : Nat} (hv : v = 0 ∨ (if f = 0 then 255 else 2047) < v) : imsicSet h n f v = h :=
  if_neg (by rintro ⟨-, -, h0, hle⟩; omega)

/-- The operation of a store to KNT_SIGNAL, by the knot's type. -/
theorem windowOp_eq (k : Knot) (v : W64) :
    windowOp k v.toNat = (if k.type = 0 then 1 else if k.type = 1 then 3 else if k.type = 2 then (if v = 0#64 then 6 else 5) else 7) := by
  have hz : v.toNat = 0 ↔ v = 0#64 := ⟨fun e => BitVec.eq_of_toNat_eq e, fun e => e ▸ rfl⟩
  unfold windowOp
  split
  · rename_i e
    rw [e]
    rfl
  · rename_i e
    rw [e]
    rfl
  · rename_i e
    rw [e]
    simp only [hz]
    rfl
  · rename_i h0 h1 h2
    rw [if_neg h0, if_neg h1, if_neg h2]

theorem windowSignal_other {h : Hw} {p n v : Nat} (ho : knotOwner h n ≠ p) : windowSignal h p n v = h := if_pos ho

theorem windowSignal_poisoned {h : Hw} {p n v : Nat} (ho : knotOwner h n = p) (hp : (knotAt h n).poison = true) :
    windowSignal h p n v = recordWrite h { type := 0x0609, part := p, arg0 := n } := by
  unfold windowSignal
  dsimp only
  rw [if_neg (fun h => h ho), if_pos hp]

theorem windowSignal_broken {h : Hw} {p n v : Nat} (ho : knotOwner h n = p) (hp : (knotAt h n).poison = false)
    (hb : (knotAt h n).broken = true) : windowSignal h p n v = h := by
  unfold windowSignal
  dsimp only
  rw [if_neg (fun h => h ho), hp, hb]
  rfl

theorem windowSignal_signals {h : Hw} {p n v : Nat} (ho : knotOwner h n = p) (hp : (knotAt h n).poison = false)
    (hb : (knotAt h n).broken = false) : windowSignal h p n v = signalKnot h n (windowOp (knotAt h n) v) v h.ident.position := by
  unfold windowSignal
  dsimp only
  rw [if_neg (fun h => h ho), hp, hb]
  rfl

/-- Without pools and ledgers no queue waits to be served. -/
theorem settle_none {hm : HM} (hp : hm.1.sync.pools = []) (hl : hm.1.sync.ledgers = []) : settle hm = hm := by
  have hf : fitting hm.1 = none := by rw [fitting, hp]; rfl
  have hr : readyLedger hm.1 = none := by rw [readyLedger, hl]; rfl
  unfold settle
  rw [show 2 * queueLoad hm.1 + 4 = (2 * queueLoad hm.1 + 3) + 1 from rfl, serveQueues, hf]
  dsimp only
  rw [hr]

/-! ### APLIC sources -/

theorem aplicAssign_changes {h : Hw} {d q v : Nat} (hd : d < 2) (h1 : 1 ≤ q) (h2 : q ≤ 64) (hv : v ≤ 16)
    (hk : tabGet 31 h.edges.irqOwner (aplicKey d q) ≠ v) :
    aplicAssign h d q v = { h with edges := { h.edges with
      irqOwner := tabPut 31 h.edges.irqOwner (aplicKey d q) v, irqTarget := tabPut 0 h.edges.irqTarget (aplicKey d q) 0 } } := by
  unfold aplicAssign
  dsimp only
  rw [if_neg (by omega), if_pos hv, if_neg hk]

theorem aplicAssign_none {h : Hw} {d q v : Nat} (hq : 2 ≤ d ∨ q = 0 ∨ 64 < q) : aplicAssign h d q v = h := if_pos hq

theorem aplicSet_own {h : Hw} {p d q v : Nat} (hp : p ≤ 16) (hd : d < 2) (ho : tabGet 31 h.edges.irqOwner (aplicKey d q) = p) :
    aplicSet h p d q v = { h with edges := { h.edges with
      irqTarget := tabPut 0 h.edges.irqTarget (aplicKey d q) (v &&& (2 ^ 63 + (2 ^ 21 - 1))) } } := if_pos ⟨hp, hd, ho⟩

theorem aplicSet_other {h : Hw} {p d q v : Nat} (ho : tabGet 31 h.edges.irqOwner (aplicKey d q) ≠ p) : aplicSet h p d q v = h :=
  if_neg (fun e => ho e.2.2)

/-! ### CSRs of a hart -/

theorem csrStore_stopped {hm : HM} {n c v : Nat} {o : CsrOp} (hr : runs hm.1 n = false) : csrStore hm n c o v = hm := by
  have hw : csrWrite hm.1 n c o v = hm.1 := by
    unfold csrWrite
    rw [hr]
    rfl
  unfold csrStore
  dsimp only
  rw [hw, hr]
  rfl

theorem csrStore_traps {hm : HM} {n c v k : Nat} {o : CsrOp} (hr : runs hm.1 n = true) (ht : csrTrap (hartAt hm.1 n) c o = some k) :
    csrStore hm n c o v = (takeTrap hm.1 n k 0, hm.2) := by
  have hw : csrWrite hm.1 n c o v = takeTrap hm.1 n k 0 := by
    unfold csrWrite
    rw [hr, ht]
    rfl
  unfold csrStore
  dsimp only
  rw [hw, ht, Option.isSome_some, Bool.or_true, Bool.true_or, if_pos rfl]

theorem csrStore_reads {hm : HM} {n c v : Nat} (hr : runs hm.1 n = true) (ht : csrTrap (hartAt hm.1 n) c .read = none)
    (hf : csrFree c = false) : csrStore hm n c .read v = (setResult hm.1 n (leBytes 8 (csrValue hm.1 n c)), hm.2) := by
  have hw : csrWrite hm.1 n c .read v = setResult hm.1 n (leBytes 8 (csrValue hm.1 n c)) := by
    unfold csrWrite
    rw [hr, ht, hf]
    rfl
  unfold csrStore
  dsimp only
  rw [hw, decide_eq_true rfl, Bool.or_true, if_pos rfl]

/-- The CSRs whose write touches nothing but their own hart's record. -/
def ownCsrs : List Nat := [0x7C0, 0x7C1, 0x7C5, 0x5C0, 0x340]

/-- The supervisor CSRs that redirect names. -/
def vsNames : List Nat := [0x100, 0x104, 0x105, 0x140, 0x141, 0x142, 0x143, 0x144, 0x14D, 0x150, 0x151, 0x152, 0x153, 0x155, 0x156, 0x157,
  0x15C, 0x180, 0xDB0]

theorem redirect_plain {x : Hart} {c : Nat} (hc : c ∉ vsNames) : redirect x c = c := by
  have e : decide (c ∈ vsNames) = false := decide_eq_false hc
  show (if x.virt && decide (c ∈ vsNames) then c + 0x100 else c) = c
  rw [e, Bool.and_false]
  rfl

theorem ownCsrs_free : ∀ c ∈ ownCsrs, csrFree c = false := by decide
theorem ownCsrs_names : ∀ c ∈ ownCsrs, c ∉ vsNames := by decide

/-- A hart that runs is not at its reset record. -/
theorem running_ne {h : Hw} {n : Nat} {y : Hart} (hr : runs h n = true) (hy : y.run = (hartAt h n).run) : y ≠ {} := by
  rintro rfl
  have h1 := (Bool.and_eq_true_iff.1 hr).2
  rw [← hy] at h1
  exact absurd h1 (by decide)

theorem tabIns_tabIns {α : Type} (t : Tab α) (n : Nat) (a b : α) : tabIns (tabIns t n a) n b = tabIns t n b := by
  induction t with
  | nil => simp [tabIns]
  | cons e t ih =>
    obtain ⟨k, v⟩ := e
    by_cases h1 : n < k
    · simp [tabIns, h1]
    · by_cases h2 : n = k
      · simp [tabIns, h2]
      · simp [tabIns, h1, h2, ih]

/-- The later of two records of a hart stands, where neither is the reset record. -/
theorem setHart_setHart {h : Hw} {n : Nat} {a b : Hart} (ha : a ≠ {}) (hb : b ≠ {}) : setHart (setHart h n a) n b = setHart h n b := by
  have e : ∀ t : Tab Hart, tabPut {} (tabPut {} t n a) n b = tabPut {} t n b := fun t => by
    rw [tabPut, if_neg hb, tabPut, if_neg ha, tabIns_tabIns, tabPut, if_neg hb]
  unfold setHart
  rw [e]

/-- A CSR of the hart's own record answers its old value as it is written. -/
theorem csrStore_writes {hm : HM} {n c v : Nat} {o : CsrOp} {x y : Hart} (hr : runs hm.1 n = true) (hx : x = hartAt hm.1 n)
    (hc : c ∈ ownCsrs) (ho : o ≠ .read) (ht : csrTrap x c o = none)
    (hy : csrPut { x with result := leBytes 8 (csrValue hm.1 n c) } c (csrNew o (csrValue hm.1 n c) v) = y) (hyr : y.run = x.run) :
    csrStore hm n c o v = (setHart hm.1 n y, hm.2) := by
  subst hx hy
  have hne : ({ hartAt hm.1 n with result := leBytes 8 (csrValue hm.1 n c) } : Hart) ≠ {} := running_ne hr rfl
  have hfree : csrFree c = false := ownCsrs_free c hc
  have hfile : ∀ (g : Hw) z, filePut g n c z = g := by
    intro g z
    unfold filePut
    dsimp only
    rw [redirect_plain (ownCsrs_names c hc)]
    clear hyr ht hne hfree
    fin_cases hc <;> rfl
  have hw : csrWrite hm.1 n c o v = setHart hm.1 n (csrPut { hartAt hm.1 n with result := leBytes 8 (csrValue hm.1 n c) } c
      (csrNew o (csrValue hm.1 n c) v)) := by
    unfold csrWrite
    rw [hr, ht, hfree]
    dsimp only
    rw [if_neg (by decide), if_neg ho, hfile]
    unfold setResult
    rw [if_neg (by decide), hartAt_setHart_ne _ _ _ hne, setHart_setHart hne (running_ne hr hyr)]
  unfold csrStore
  dsimp only
  rw [hw, hr, ht, decide_eq_false ho]
  clear hw hfile hyr ht hne hfree
  fin_cases hc <;> rfl

theorem csrTrap_machine {x : Hart} {o : CsrOp} {c : Nat} (hm : x.mode ≠ 3) (hc : c ∈ [0x7C0, 0x7C1, 0x7C4, 0x7C5, 0x7C6]) :
    csrTrap x c o = some 2 := by
  have hcu : csrCustom c = true := by revert c; decide
  have hok : customOk x c = false := by
    fin_cases hc <;> exact decide_eq_false hm
  unfold csrTrap
  dsimp only
  rw [hcu, hok, Bool.and_false, Bool.false_and]
  rfl

theorem csrTrap_user {x : Hart} {o : CsrOp} {c : Nat} (hm : x.mode = 0) (hc : c ∈ [0x5C0, 0x5C1, 0x6C0, 0x6C1, 0xDC0]) :
    csrTrap x c o = some 2 := by
  have hcu : csrCustom c = true := by revert c; decide
  have hok : customOk x c = false := by
    fin_cases hc <;> (simp only [customOk, hm]; rfl)
  unfold csrTrap
  dsimp only
  rw [hcu, hok, Bool.and_false, Bool.false_and]
  rfl

/-- The custom CSRs that a store may write. -/
theorem csrTrap_custom {x : Hart} {o : CsrOp} {c : Nat} (hok : customOk x c = true)
    (hc : c ∈ [0x7C0, 0x7C1, 0x7C4, 0x7C5, 0x7C6, 0x5C0, 0x5C1, 0x6C0, 0x6C1, 0x800]) : csrTrap x c o = none := by
  have hall : ∀ c ∈ [0x7C0, 0x7C1, 0x7C4, 0x7C5, 0x7C6, 0x5C0, 0x5C1, 0x6C0, 0x6C1, 0x800],
      csrCustom c = true ∧ decide (c ∈ customCsrs) = true ∧ decide (field c 11 10 = 3) = false := by decide
  obtain ⟨hcu, hin, hro⟩ := hall c hc
  unfold csrTrap
  dsimp only
  rw [hcu, hok, hin, hro]
  rfl

theorem customOk_machine {x : Hart} {c : Nat} (hm : x.mode = 3)
    (hc : c ∈ [0x7C0, 0x7C1, 0x7C4, 0x7C5, 0x7C6, 0x5C0, 0x5C1, 0x6C0, 0x6C1, 0x800]) : customOk x c = true := by
  fin_cases hc <;> simp [customOk, hm]

theorem csrTrap_scratch {x : Hart} {o : CsrOp} (hm : x.mode = 3) : csrTrap x 0x340 o = none := by
  have hs : csrStandard 0x340 = true := by decide
  have hc : csrCustom 0x340 = false := by decide
  have hoff : csrOff x 0x340 = false := rfl
  have hrank : csrRank x = 3 := by rw [csrRank, if_pos hm]
  unfold csrTrap
  dsimp only
  rw [hc, hs, hoff, hrank, if_pos hm]
  rfl

/-- A write-only custom CSR reads zero. -/
theorem csrValue_writeOnly {h : Hw} {n c : Nat} (hc : c ∈ [0x7C4, 0x7C6, 0x800]) : csrValue h n c = 0 := by
  have hn : ∀ c ∈ [0x7C4, 0x7C6, 0x800], c ∉ vsNames := by decide
  have e : redirect (hartAt h n) c = c := redirect_plain (hn c hc)
  unfold csrValue
  dsimp only
  rw [e]
  fin_cases hc <;> rfl

/-! ### YHWERR -/

/-- A reserved CAUSE keeps the one that stood. -/
theorem writeQual_cause {old v : Nat} (hv : 7 < v % 256) : writeQual old v % 256 = old % 256 := by
  have hc : field v 7 0 = v % 256 := by simp [field]
  have ho : field old 7 0 = old % 256 := by simp [field]
  have hkeep : (if field v 7 0 ≤ 7 then field v 7 0 else field old 7 0) = old % 256 := by
    rw [hc, ho, if_neg (by omega)]
  unfold writeQual
  dsimp only
  rw [hkeep]
  omega

/-- A reserved SOURCE keeps the one that stood. -/
theorem writeQual_source {old v : Nat} (hv : 12 < v / 256 % 16) : writeQual old v / 256 % 16 = old / 256 % 16 := by
  have hs : field v 11 8 = v / 256 % 16 := rfl
  have ho : field old 11 8 = old / 256 % 16 := rfl
  have hc : ∀ z : Nat, field z 7 0 = z % 256 := fun z => by simp [field]
  unfold writeQual
  dsimp only
  have hkeep : (if field v 11 8 ≤ 12 then field v 11 8 else field old 11 8) = old / 256 % 16 := by
    rw [hs, ho, if_neg (by omega)]
  rw [hkeep]
  have hlt : (if field v 7 0 ≤ 7 then field v 7 0 else field old 7 0) < 256 := by
    rw [hc, hc]
    split <;> omega
  generalize (if field v 7 0 ≤ 7 then field v 7 0 else field old 7 0) = a at hlt
  generalize field v 13 12 = b
  generalize flag (bitOf v 14) = c
  generalize flag (bitOf v 63) = d
  omega

/-! ### Stores of the action registers -/

theorem window_fqHead {hm : HM} {p v : Nat} {w : Half} (hp : p ≤ 16) :
    registerWrite hm (.window p 0x4000) w v = (acting hm.1 v w 0xFFFFFFFF (fun h t => fqHead h p t), hm.2) :=
  window_common hp (by decide) (by decide) rfl rfl

theorem window_fqTake {hm : HM} {p v : Nat} {w : Half} (hp : p ≤ 16) :
    registerWrite hm (.window p 0x4020) w v = (fqStore hm.1 p 0x20 v w, hm.2) := window_common hp (by decide) (by decide) rfl rfl

theorem window_bell {hm : HM} {p v : Nat} {w : Half} (hp : p ≤ 16) : registerWrite hm (.window p 0x1080) w v =
    (acting hm.1 v w 7 (fun h t => stir (ringDoorbell h (.part p) (t % 8))), hm.2) := window_common hp (by decide) (by decide) rfl rfl

section
variable {s : State} {h g : Hw} {t : RegPlace} {w : Half} {v ok : Nat} {f : Hw → Nat → Hw}

/-- A store of meaningful bits alone to an action register. -/
theorem acts_full (hh : h = clearSent s.hw) (he : registerWrite (h, s.mem) t .full v = (acting h v .full ok f, s.mem)) (hr : v &&& ok = v)
    (hv : v < 2 ^ 64) (hf : f h v = g) (nw : NoWait g) : exec (.registerWrite t .full v) s = .next (s.ended g) :=
  store_ended hh (by rw [he, acting_full hr hv, hf]) nw

theorem acts_word (hh : h = clearSent s.hw) (he : registerWrite (h, s.mem) t w v = (acting h v w 0xFFFFFFFF f, s.mem))
    (hw : w = .lower ∨ (w = .full ∧ v < 2 ^ 32)) (hf : f h (v % 2 ^ 32) = g) (nw : NoWait g) :
    exec (.registerWrite t w v) s = .next (s.ended g) :=
  store_ended hh (by rw [he, acting_word hw, hf]) nw

/-- A store to an action register of an action that does nothing, or of a zero in its upper half. -/
theorem acts_none (hh : h = clearSent s.hw) (he : registerWrite (h, s.mem) t .full v = (acting h v .full ok f, s.mem)) (hr : v &&& ok = v)
    (hv : v < 2 ^ 64) (hf : f h v = h) : exec (.registerWrite t .full v) s = .next (s.withHw h) :=
  store_ignored hh (by rw [he, acting_full hr hv, hf])

theorem acts_upper (hh : h = clearSent s.hw) (he : registerWrite (h, s.mem) t .upper 0 = (acting h 0 .upper ok f, s.mem)) :
    exec (.registerWrite t .upper 0) s = .next (s.withHw h) := store_ignored hh (by rw [he, acting_upper])

end

/-- The command and the identifier of a store to SLP_XINV. -/
theorem xinv_mask {a : Nat} (ha : a < 2 ^ 16) : (2 + 2 ^ 16 * a) &&& 0xFFFF000F = 2 + 2 ^ 16 * a := by
  have e1 : 2 + 2 ^ 16 * a = 2 ^ 16 * a + 2 := Nat.add_comm _ _
  have e2 : (0xFFFF000F : Nat) = 2 ^ 16 * (2 ^ 16 - 1) + 15 := by decide
  rw [e1, e2]
  apply Nat.eq_of_testBit_eq
  intro i
  rw [Nat.testBit_and, Nat.testBit_two_pow_mul_add _ (by decide), Nat.testBit_two_pow_mul_add _ (by decide)]
  split
  · rw [← Nat.testBit_and]
    rfl
  · rw [← Nat.testBit_and, and_mask ha]

theorem xinv_asid {h : Hw} {p a : Nat} (ha : a < 2 ^ 16) : xinv h p (2 + 2 ^ 16 * a) = advanceEpoch h p (asidEpoch a) := by
  have h1 : field (2 + 2 ^ 16 * a) 3 0 = 2 := by simp only [field]; omega
  have h2 : field (2 + 2 ^ 16 * a) 31 16 = a := by simp only [field]; omega
  unfold xinv
  rw [h1, h2]
  rfl

/-- The value of a custom CSR that a hart in HS-mode and one in VS-mode find at one number. -/
theorem csrValue_guest {h : Hw} {n : Nat} (hv : (hartAt h n).virt = true) : csrValue h n 0x5C0 = (hartAt h n).vsHwErr.toNat := by
  unfold csrValue
  dsimp only
  rw [redirect_plain (by decide), hv]
  rfl

theorem csrValue_host {h : Hw} {n : Nat} (hv : (hartAt h n).virt = false) : csrValue h n 0x5C0 = (hartAt h n).hsHwErr.toNat := by
  unfold csrValue
  dsimp only
  rw [redirect_plain (by decide), hv]
  rfl

theorem csrValue_own {h : Hw} {n c : Nat} (hc : c ∈ [0x7C0, 0x7C1, 0x7C5]) : csrValue h n c =
    (if c = 0x7C0 then (hartAt h n).mHwErr else if c = 0x7C1 then (hartAt h n).mHwAddr else (hartAt h n).startPc).toNat := by
  have hn : ∀ c ∈ [0x7C0, 0x7C1, 0x7C5], c ∉ vsNames := by decide
  unfold csrValue
  dsimp only
  rw [redirect_plain (hn c hc)]
  fin_cases hc <;> rfl

theorem csrValue_scratch {h : Hw} {n : Nat} : csrValue h n 0x340 = csrOf (hartAt h n) 0x340 := by
  unfold csrValue
  dsimp only
  rw [redirect_plain (by decide)]
  rfl

theorem csrPut_guest {x : Hart} {v : Nat} (hv : x.virt = true) :
    csrPut x 0x5C0 v = { x with vsHwErr := w64 (writeQual x.vsHwErr.toNat v) } := by
  unfold csrPut
  dsimp only
  rw [redirect_plain (by decide), hv]
  rfl

theorem csrPut_host {x : Hart} {v : Nat} (hv : x.virt = false) :
    csrPut x 0x5C0 v = { x with hsHwErr := w64 (writeQual x.hsHwErr.toNat v) } := by
  unfold csrPut
  dsimp only
  rw [redirect_plain (by decide), hv]
  rfl

theorem csrPut_error {x : Hart} {v : Nat} : csrPut x 0x7C0 v = { x with mHwErr := w64 (writeQual x.mHwErr.toNat v) } := by
  unfold csrPut
  dsimp only
  rw [redirect_plain (by decide)]
  rfl

theorem csrPut_address {x : Hart} {v : Nat} : csrPut x 0x7C1 v = { x with mHwAddr := w64 (v % 2 ^ 64 / 64 * 64) } := by
  unfold csrPut
  dsimp only
  rw [redirect_plain (by decide)]
  rfl

theorem csrPut_start {x : Hart} {v : Nat} : csrPut x 0x7C5 v = { x with startPc := w64 (v % 2 ^ 64 / 4 * 4) } := by
  unfold csrPut
  dsimp only
  rw [redirect_plain (by decide)]
  rfl

theorem csrPut_scratch {x : Hart} {v : Nat} : csrPut x 0x340 v = { x with csrs := tabPut 0 x.csrs 0x340 (v % 2 ^ 64) } := by
  have e : csrPut x 0x340 v = setCsr x 0x340 (v % 2 ^ 64) := by
    unfold csrPut
    dsimp only
    rw [redirect_plain (by decide)]
    rfl
  rw [e, setCsr, Nat.mod_mod]

/-- A CSR instruction that writes the hart's own record. -/
theorem csr_written {s : State} {h : Hw} {n c v : Nat} {o : CsrOp} {w : Half} {y : Hart} (hh : h = clearSent s.hw) (hr : runs h n = true)
    (hc : c ∈ ownCsrs) (ho : o ≠ .read) (ht : csrTrap (hartAt h n) c o = none)
    (hy : csrPut { hartAt h n with result := leBytes 8 (csrValue h n c) } c (csrNew o (csrValue h n c) v) = y)
    (hyr : y.run = (hartAt h n).run) : exec (.registerWrite (.csr n c o) w v) s = .next (s.ended (setHart h n y)) :=
  store_ended (w := w) hh (csrStore_writes (hm := (h, s.mem)) hr rfl hc ho ht hy hyr) (setHart_noWait _ _ (cleared_noWait hh))

/-- Settles O50: each store reaches its page's register, and the register's own rule gives what it leaves. -/
theorem registerWindowStores : Obligations.RegisterWindowStores := by
  intro s h hh
  have nw : NoWait h := cleared_noWait hh
  refine ⟨?queues, ?noQueue, ?signals, ?poisoned, ?broken, ?otherKnot, ?idleKnot, ?file, ?noFile, fun n f v hn hf h0 hv => imsicSet_held hn hf h0 hv,
    fun n f v hv => imsicSet_beyond hv, ?window, ?stray, ?request, ?slip, ?entry, ?firstHalf, ?outside, ?ignored, ?steward, ?otherHalf,
    ?assign, ?noAssign, ?configure, ?stopped, ?trapped, fun x o c hm hc => csrTrap_machine hm hc, fun x o c hm hc => csrTrap_user hm hc,
    fun x o c hm hc => csrTrap_custom (customOk_machine hm hc) hc,
    ?read, fun n c hc => csrValue_writeOnly hc, ?machine, ?guest, ?host, ?scratch, fun old v hv => writeQual_cause hv,
    fun old v hv => writeQual_source hv⟩
  case queues =>
    intro k v x hk hx
    subst hx
    have hrow : ∀ {g}, fqHead h k v = g → exec (.fqHead k v) s = .next (s.ended g) := fun e =>
      onHw_routed (f := fun h => if k ≤ 17 then fqHead h k v else h) hh ((if_pos hk).trans e)
    refine ⟨fun hv => hrow (if_pos hv), fun hv => ?_, onHw_routed (f := fun h => if k ≤ 17 then fqOvfTake h k else h) hh (if_pos hk)⟩
    rw [← idle_ended hh]
    exact hrow (if_neg (Nat.not_le.2 hv))
  case noQueue =>
    intro k v hk
    exact ⟨onHw_routed (f := fun h => if k ≤ 17 then fqHead h k v else h) hh (if_neg (by omega)),
      onHw_routed (f := fun h => if k ≤ 17 then fqOvfTake h k else h) hh (if_neg (by omega))⟩
  case signals =>
    intro p k v x o hx ho hp hb he
    subst hx he
    refine onAll_routed (f := fun hm => settle (windowSignal hm.1 p k v.toNat, hm.2)) hh ?_
    dsimp only
    rw [windowSignal_signals ho hp hb, windowOp_eq]
  case poisoned =>
    intro p k v x o hx ho hp he
    subst hx he
    refine onAll_routed (f := fun hm => settle (windowSignal hm.1 p k v.toNat, hm.2)) hh ?_
    dsimp only
    rw [windowSignal_poisoned ho hp]
  case broken =>
    intro p k v x hx ho hp hb
    subst hx
    refine onAll_routed (f := fun hm => settle (windowSignal hm.1 p k v.toNat, hm.2)) hh ?_
    dsimp only
    rw [windowSignal_broken ho hp hb]
  case otherKnot =>
    intro p k v ho
    exact onAll_routed (f := fun hm => settle (windowSignal hm.1 p k v.toNat, hm.2)) hh (congrArg (fun g => settle (g, s.mem)) (windowSignal_other ho))
  case idleKnot =>
    intro p k v ho hpl hl
    rw [← idle_ended hh]
    refine onAll_routedHw (f := fun hm => settle (windowSignal hm.1 p k v.toNat, hm.2)) hh ?_
    exact (congrArg (fun g => settle (g, s.mem)) (windowSignal_other ho)).trans (settle_none hpl hl)
  case file =>
    intro p n f v hp hn hf ho
    exact onHw_routed (f := fun h => if p ≤ 16 ∧ n < 128 ∧ f < 8 then fileStore h p n f 0 v .lower else h) hh
      ((if_pos ⟨hp, hn, hf⟩).trans (fileStore_own ho))
  case noFile =>
    intro p n f v hor
    refine onHw_routed (f := fun h => if p ≤ 16 ∧ n < 128 ∧ f < 8 then fileStore h p n f 0 v .lower else h) hh ?_
    rcases hor with ho | hor
    · rw [fileStore_other ho, ite_self]
    · exact if_neg (by omega)
  case window =>
    intro p w v hp
    refine ⟨fun hw => ?_, fun hw => ?_, acts_upper hh (window_fqHead hp), store_ignored hh (window_fqTake hp), acts_upper hh (window_xinv hp),
      fun hv hn => ?_, acts_upper hh (window_bell hp), fun hn => ?_, fun hn => ?_,
      acts_none hh (window_xinv hp) (by decide) (by decide) rfl, fun hb hv => ?_, fun hv => ?_, ?_⟩
    · refine (acts_word hh (window_fqHead hp) hw rfl (fqHead_noWait _ _ nw)).trans ?_
      exact (onHw_routed (f := fun h => if p ≤ 17 then fqHead h p (v % 2 ^ 32) else h) hh (if_pos (by omega))).symm
    · refine (store_ended hh ((window_fqTake hp).trans (Prod.ext (fqStore_take (v := v) hw) rfl)) nw).trans ?_
      exact (onHw_routed (f := fun h => if p ≤ 17 then fqOvfTake h p else h) hh (if_pos (by omega))).symm
    · refine (acts_full hh (window_bell hp) (and_mask (k := 3) hv) (by omega) ?_ hn).trans ?_
      · rw [Nat.mod_eq_of_lt hv]
      · exact (onHw_routed (f := fun h => stir (ringDoorbell h (.part p) v)) hh rfl).symm
    · refine (acts_full (v := 1) (g := advanceEpoch h p 0) hh (window_xinv hp) (by decide) (by decide) rfl hn).trans ?_
      exact (onHw_routed (f := fun h => if p ≤ 16 then advanceEpoch h p 0 else h) hh (if_pos hp)).symm
    · have ha : v % 2 ^ 16 < 2 ^ 16 := Nat.mod_lt _ (by decide)
      refine (acts_full hh (window_xinv hp) (xinv_mask ha) (by omega) (xinv_asid ha) hn).trans ?_
      exact (onHw_routed (f := fun h => if p ≤ 16 then advanceEpoch h p (asidEpoch (v % 2 ^ 16)) else h) hh (if_pos hp)).symm
    · exact store_ended hh (window_common (hm := (h, s.mem)) hp (by decide) (by decide) rfl (congrArg some (mbxStore_status hb hv))) nw
    · exact store_ignored hh (window_common hp (by decide) (by decide) (straySet_low hv (by omega)) rfl)
    · exact store_ignored hh (window_common hp (by decide) (by decide) (straySet_all v .full) rfl)
  case stray =>
    intro p v f o hp
    refine ⟨fun h1 h2 hf => ?_, fun h1 h2 hf ho => ?_⟩
    · subst hf
      have hr : reached v .full &&& 0xFFFFFFFF ≠ reached v .full := by
        rw [reached_full h2]
        exact and_mask_ne (k := 32) h1
      exact store_ended hh ((window_fqHead hp).trans (congrArg (·, s.mem) (acting_stray (h := h) hr))) (fqHead_noWait _ _ nw)
    · subst ho hf
      refine onAll_routed (f := waiting (fun hm => registerWrite hm (.window p 0) .full v)) hh ?_
      have e : registerWrite (h, s.mem) (.window p 0) .full v = _ :=
        (window_reaches hp (by decide) (by decide)).trans (windowStore_stray (straySet_high (k := 48) h1 h2))
      unfold waiting
      dsimp only
      rw [e]
  case request =>
    intro p k v x f hp hk hv hx hf
    subst hx hf
    have hc : commonStore h (.part p) p (0x1000 + 8 * k) v .full = some (mbxStore h (.part p) (8 * k) v .full) := by
      have e : 0x1000 + 8 * k - 0x1000 = 8 * k := by omega
      unfold commonStore
      rw [if_neg (by omega), if_pos (by omega), e]
    have hs : straySet (fixedBits h p (0x1000 + 8 * k)) v .full = false := by
      have hf : fixedBits h p (0x1000 + 8 * k) = none := by
        unfold fixedBits fixedCommon
        rw [if_neg (by omega), if_neg (by omega), if_neg (by omega), if_neg (by omega), if_neg (by omega), if_neg (by omega),
          if_pos (by omega)]
        exact if_pos (by omega)
      rw [hf]
      rfl
    have he := window_common (hm := (h, s.mem)) hp (by omega) (by omega) hs (hc.trans (congrArg some (mbxStore_request hk hv)))
    refine ⟨fun hr => ?_, fun hr => ?_⟩
    · rw [requestBytes_free hr] at he
      exact store_ended hh he nw
    · rw [requestBytes_rung hr] at he
      exact store_ended hh he nw
  case slip =>
    intro p i w v hi hp
    have hbell : ∀ {w' v'}, slipOwner h i ≠ p → registerWrite (h, s.mem) (.window p (0x400000 + 4096 * i)) w' v' = (h, s.mem) :=
      fun ho => (window_slip (o := 0) hp hi (.inl rfl)).trans (if_neg ho)
    have hown : ∀ {o w' v'} (_ : o = 0 ∨ o = 0x50), slipOwner h i = p →
        registerWrite (h, s.mem) (.window p (0x400000 + 4096 * i + o)) w' v' = (slipStore h i o v' w', s.mem) :=
      fun hz ho => (window_slip hp hi hz).trans (if_pos ho)
    have hctrl : ∀ {c}, c < 8 → slipStore h i 0x50 c .full = slipCtrl h i c := fun {c} hc => by
      have e : acting h c .full 7 (fun h t => slipCtrl h i (t % 8)) = slipCtrl h i (c % 8) :=
        acting_full (and_mask (k := 3) hc) (by omega)
      exact e.trans (by rw [Nat.mod_eq_of_lt hc])
    refine ⟨fun ho hw hv hn => ?_, fun ho => store_ignored hh (hbell ho), fun ho hn => ?_, fun ho hn => ?_, fun ho => ?_⟩
    · have he : slipStore h i 0 v w = stir (setSlip h i (doorbell (slipAt h i) (BitVec.ofNat 32 v))) := by
        have e := acting_word (h := h) (f := fun h t => stir (setSlip h i (doorbell (slipAt h i) (w32 t)))) (hw.imp_right (⟨·, hv⟩))
        rw [Nat.mod_eq_of_lt hv] at e
        unfold slipStore
        exact e
      refine (store_ended hh ((hown (o := 0) (.inl rfl) ho).trans (Prod.ext he rfl)) hn).trans ?_
      exact (onHw_routed (f := fun h => asOwner h p i (fun h => stir (setSlip h i (doorbell (slipAt h i) (w32 v))))) hh
        (if_pos ⟨hi, hp, ho⟩)).symm
    · refine (store_ended (g := slipEnable h i) hh ((hown (.inr rfl) ho).trans (congrArg (·, s.mem) (hctrl (c := 1) (by decide)))) hn).trans ?_
      exact (onHw_routed (f := fun h => asOwner h p i (fun h => slipEnable h i)) hh (if_pos ⟨hi, hp, ho⟩)).symm
    · refine (store_ended (g := slipDisable h i) hh ((hown (.inr rfl) ho).trans (congrArg (·, s.mem) (hctrl (c := 2) (by decide)))) hn).trans ?_
      exact (onHw_routed (f := fun h => asOwner h p i (fun h => slipDisable h i)) hh (if_pos ⟨hi, hp, ho⟩)).symm
    · exact store_ignored hh ((hown (.inr rfl) ho).trans (congrArg (·, s.mem) (hctrl (c := 5) (by decide))))
  case entry =>
    rintro p e v hp he ⟨x, hx, hv⟩
    have hb : v &&& entryBits = v := by
      rcases hv with rfl | rfl
      · exact entryBits_low hx
      · exact entryBits_valid hx
    have hm : mergeHalf (tabGet (0 : W64) h.intTable (4096 * p + e)).toNat v .full = v := Nat.mod_eq_of_lt (by omega)
    exact store_ended hh ((window_entry (hm := (h, s.mem)) hp he hm hb).trans (Prod.ext entryStore_full rfl)) nw
  case firstHalf =>
    intro p e v hp he hv ht hw
    have hm : mergeHalf (tabGet (0 : W64) h.intTable (4096 * p + e)).toNat v .lower = 2 ^ 63 + v := by
      rw [ht, BitVec.toNat_ofNat]
      simp only [mergeHalf]
      omega
    have hx : bitOf (w64 (2 ^ 63 + v)).toNat 63 = true := by
      rw [BitVec.toNat_ofNat, Nat.mod_eq_of_lt (by omega)]
      exact bitOf_valid hv
    refine store_ended hh ((window_entry (hm := (h, s.mem)) hp he hm (entryBits_valid hv)).trans (Prod.ext (entryStore_half ?_ hx hw) rfl)) nw
    dsimp only
    rw [ht]
    decide
  case outside =>
    intro p o w v ho
    exact store_ignored hh (window_outside ho)
  case ignored =>
    intro o w v ho
    exact store_ignored hh (steward_ignored ho)
  case steward =>
    intro v hv
    exact store_ended hh (steward_entry hv) nw
  case otherHalf =>
    intro p e v x hp he hx hv ht hw
    have hm : mergeHalf (tabGet (0 : W64) h.intTable (4096 * p + e)).toNat v .upper = 2 ^ 63 + x := by
      rw [ht, BitVec.toNat_ofNat]
      simp only [mergeHalf]
      omega
    refine store_ended hh ((window_entry (hm := (h, s.mem)) hp he hm (entryBits_valid hx)).trans
      (Prod.ext (entryStore_other ?_ ?_) rfl)) nw
    all_goals
      dsimp only
      rw [hw]
      decide
  case assign =>
    intro d q v w k hd h1 h2 hv hk hne
    subst hk
    exact store_ended (w := w) hh (Prod.ext (aplicAssign_changes hd h1 h2 hv hne) rfl) nw
  case noAssign =>
    intro d q v w hq
    exact store_ended (w := w) hh (Prod.ext (aplicAssign_none hq) rfl) nw
  case configure =>
    intro p d q v w k hd hp hk
    subst hk
    exact ⟨fun ho => store_ended (w := w) hh (Prod.ext (aplicSet_own hp hd ho) rfl) nw,
      fun ho => store_ended (w := w) hh (Prod.ext (aplicSet_other ho) rfl) nw⟩
  case stopped =>
    intro n c o v w hr
    exact store_ended (w := w) hh (csrStore_stopped hr) nw
  case trapped =>
    intro n c o v w k hr ht
    exact store_ended (w := w) hh (csrStore_traps (hm := (h, s.mem)) hr ht) (takeTrap_noWait _ _ _ nw)
  case read =>
    intro n c v w hr ht hf
    exact store_ended (w := w) hh (csrStore_reads (hm := (h, s.mem)) hr ht hf) (setResult_noWait _ _ nw)
  case machine =>
    intro n v w x hr hx hm
    subst hx
    have htr : ∀ {c o}, c ∈ [0x7C0, 0x7C1, 0x7C4, 0x7C5, 0x7C6, 0x5C0, 0x5C1, 0x6C0, 0x6C1, 0x800] → csrTrap (hartAt h n) c o = none :=
      fun hc => csrTrap_custom (customOk_machine hm hc) hc
    have herr : csrValue h n 0x7C0 = (hartAt h n).mHwErr.toNat := csrValue_own (by decide)
    have hadr : csrValue h n 0x7C1 = (hartAt h n).mHwAddr.toNat := csrValue_own (by decide)
    have hpc : csrValue h n 0x7C5 = (hartAt h n).startPc.toNat := csrValue_own (by decide)
    refine ⟨csr_written hh hr (by decide) (by decide) (htr (by decide)) ?_ rfl, csr_written hh hr (by decide) (by decide) (htr (by decide)) ?_ rfl,
      csr_written hh hr (by decide) (by decide) (htr (by decide)) ?_ rfl, csr_written hh hr (by decide) (by decide) (htr (by decide)) ?_ rfl⟩
    · rw [herr, csrPut_error]
      rfl
    · rw [herr, csrPut_error]
      rfl
    · rw [hadr, csrPut_address]
      rfl
    · rw [hpc, csrPut_start]
      rfl
  case guest =>
    intro n v w x hr hx hm hv
    subst hx
    have hok : customOk (hartAt h n) 0x5C0 = true := decide_eq_true (by omega)
    refine csr_written hh hr (by decide) (by decide) (csrTrap_custom hok (by decide)) ?_ rfl
    rw [csrValue_guest hv]
    exact csrPut_guest hv
  case host =>
    intro n v w x hr hx hm hv
    subst hx
    have hok : customOk (hartAt h n) 0x5C0 = true := decide_eq_true (by omega)
    refine csr_written hh hr (by decide) (by decide) (csrTrap_custom hok (by decide)) ?_ rfl
    rw [csrValue_host hv]
    exact csrPut_host hv
  case scratch =>
    intro n v w x hr hx hm
    subst hx
    refine csr_written hh hr (by decide) (by decide) (csrTrap_scratch hm) ?_ rfl
    rw [csrValue_scratch, csrPut_scratch]
    rfl

end Sys2Proof.Machine
end

/-!
PROOFS. The commands of a slip (chapter 13): its doorbell, ring and DONE stores, ENABLE to RESTART_SKIP, invalidations and pauses.
-/

section
namespace Sys2Proof.Machine

/-! ### Stores of a slip's registers -/

theorem doorbell_accepted {x : Slip} {v : W32} (h1 : (x.head - x.done).toNat ≤ (v - x.done).toNat) (h2 : (v - x.done).toNat ≤ 2 ^ x.log2) :
    doorbell x v = { x with tail := v } := if_pos ⟨h1, h2⟩

theorem doorbell_overrun {x : Slip} {v : W32} (hv : (v - x.done).toNat < (x.head - x.done).toNat ∨ 2 ^ x.log2 < (v - x.done).toNat) :
    doorbell x v = { x with dbOverrun := true } := by
  refine if_neg ?_
  rintro ⟨h1, h2⟩
  exact hv.elim (Nat.not_lt.2 h1) (Nat.not_lt.2 h2)

theorem writeDone_taken {x : Slip} {v : W32} (hd : x.st = .disabled) (hv : (x.tail - v).toNat ≤ 2 ^ x.log2) :
    writeDone x v = { x with done := v, head := v, skip := [], resume := 0 } := if_pos ⟨hd, hv⟩

theorem writeDone_ignored {x : Slip} {v : W32} (hv : x.st ≠ .disabled ∨ 2 ^ x.log2 < (x.tail - v).toNat) : writeDone x v = x := by
  refine if_neg ?_
  rintro ⟨h1, h2⟩
  exact hv.elim (fun h => h h1) (Nat.not_lt.2 h2)

/-- The bits of SLP_RING. -/
theorem ring_mask {l b : Nat} (hl : l < 32) (hb : b < 2 ^ 44) : (l + b * 2 ^ 12) &&& 0xFFFFFFFFFFF01F = l + b * 2 ^ 12 := by
  have e1 : l + b * 2 ^ 12 = 2 ^ 12 * b + l := by omega
  have e2 : (0xFFFFFFFFFFF01F : Nat) = 2 ^ 12 * (2 ^ 44 - 1) + (2 ^ 5 - 1) := by decide
  rw [e1, e2]
  apply Nat.eq_of_testBit_eq
  intro i
  rw [Nat.testBit_and, Nat.testBit_two_pow_mul_add _ (by omega), Nat.testBit_two_pow_mul_add _ (by decide)]
  split
  · rw [← Nat.testBit_and, and_mask (k := 5) hl]
  · rw [← Nat.testBit_and, and_mask hb]

/-- A store of SLP_RING names a size and a base. -/
theorem slipStore_ring {h : Hw} {i l b : Nat} (hl : l < 32) (hb : b < 2 ^ 44) :
    slipStore h i 0x020 (l + b * 2 ^ 12) .full = setSlip h i (writeRing (slipAt h i) (w64 (l + b * 2 ^ 12))) := by
  have hm : mergeHalf (slipReg (slipAt h i) 0x020).toNat (l + b * 2 ^ 12) .full = l + b * 2 ^ 12 := Nat.mod_eq_of_lt (by omega)
  have ho : sane h (mergeHalf (slipReg (slipAt h i) 0x020).toNat (l + b * 2 ^ 12) .full) 0xFFFFFFFFFFF01F = (l + b * 2 ^ 12, h) := by
    rw [hm, sane_plain (ring_mask hl hb)]
  have e : slipStore h i 0x020 (l + b * 2 ^ 12) .full =
      setSlip (sane h (mergeHalf (slipReg (slipAt h i) 0x020).toNat (l + b * 2 ^ 12) .full) 0xFFFFFFFFFFF01F).2 i
        (writeRing (slipAt h i) (w64 (sane h (mergeHalf (slipReg (slipAt h i) 0x020).toNat (l + b * 2 ^ 12) .full) 0xFFFFFFFFFFF01F).1)) := rfl
  rw [e, ho]

theorem ring_fields {l b : Nat} (hl : l < 32) (hb : b < 2 ^ 44) :
    field (w64 (l + b * 2 ^ 12)).toNat 4 0 = l ∧ field (w64 (l + b * 2 ^ 12)).toNat 55 12 = b := by
  have e : (w64 (l + b * 2 ^ 12)).toNat = l + b * 2 ^ 12 := by rw [BitVec.toNat_ofNat, Nat.mod_eq_of_lt (by omega)]
  rw [e]
  constructor <;> (simp only [field]; omega)

/-- SLP_RING of a disabled slip sets what keeps the ring invariant. -/
theorem writeRing_disabled {x : Slip} {l b m : Nat} (hd : x.st = .disabled) (hl : l < 32) (hb : b < 2 ^ 44)
    (hm : (if 4 ≤ l ∧ l ≤ 16 then l else x.log2) = m) :
    writeRing x (w64 (l + b * 2 ^ 12)) = if (x.tail - x.done).toNat ≤ 2 ^ m then { x with log2 := m, ring := b * 4096 } else x := by
  subst hm
  obtain ⟨h1, h2⟩ := ring_fields hl hb
  unfold writeRing
  rw [h1, h2, if_pos hd]

theorem writeRing_running {x : Slip} {w : W64} (hd : x.st ≠ .disabled) : writeRing x w = x := if_neg hd

/-! ### The slip commands -/

theorem slipEnable_ignored {h : Hw} {i : Nat} (hd : (slipAt h i).st ≠ .disabled) : slipEnable h i = h := if_pos hd

theorem slipEnable_notOwned {h : Hw} {i : Nat} (hd : (slipAt h i).st = .disabled)
    (hg : unitHolder h 4 (slipAt h i).group ≠ slipOwner h i ∨ groupDie (slipAt h i).group ≠ slipDie i) :
    slipEnable h i = refuseEngine (setSlip h i { slipAt h i with reason := 0x20 }) (slipOwner h i) 0 noDesc := by
  unfold slipEnable
  dsimp only
  rw [if_neg (fun h => h hd), if_pos hg]

/-- ENABLE of a disabled slip whose group is its partition's and its die's. -/
theorem slipEnable_owned {h : Hw} {i : Nat} (hd : (slipAt h i).st = .disabled) (hg : unitHolder h 4 (slipAt h i).group = slipOwner h i)
    (hdie : groupDie (slipAt h i).group = slipDie i) :
    slipEnable h i = if unitFenced h 4 (slipAt h i).group then setSlip h i { slipAt h i with reason := 0x2E }
      else if (ferrySlips h (8 * (slipAt h i).group + (slipAt h i).ferry)).length ≥ 32 then setSlip h i { slipAt h i with reason := 0x2D }
      else setSlip h i { slipAt h i with st := .running, stopping := none, reason := 0 } := by
  unfold slipEnable
  dsimp only
  rw [if_neg (fun h => h hd), if_neg (not_or.2 ⟨fun h => h hg, fun h => h hdie⟩)]

theorem slipDisable_stopping {h : Hw} {i : Nat} (hr : (slipAt h i).st = .running) (hs : (slipAt h i).stopping ≠ none) :
    slipDisable h i = setSlip h i { slipAt h i with disableReq := true } := if_pos ⟨Option.isSome_iff_ne_none.2 hs, hr⟩

theorem slipDisable_discards {h : Hw} {i : Nat}
    (hr : (slipAt h i).st = .running ∧ (slipAt h i).stopping = none ∨ (slipAt h i).st = .stopped) :
    slipDisable h i = withdrawWaits (setSlip h i { slipAt h i with
        st := .disabling, head := (slipAt h i).done, descs := (slipAt h i).descs.filter (fun d => inFlight d && !syncWaiting d) }) i
      (fun q => (slipAt h i).descs.any (fun d => decide (d.seq = q) && syncWaiting d)) := by
  have h1 : ¬ ((slipAt h i).stopping.isSome = true ∧ (slipAt h i).st = .running) := by
    rintro ⟨hs, hst⟩
    rcases hr with ⟨-, hn⟩ | hst'
    · rw [hn] at hs
      exact absurd hs (by decide)
    · rw [hst] at hst'
      exact absurd hst' (by decide)
  unfold slipDisable
  dsimp only
  rw [if_neg h1, if_pos (hr.imp_left And.left)]

theorem slipDisable_ignored {h : Hw} {i : Nat} (h1 : (slipAt h i).st ≠ .running) (h2 : (slipAt h i).st ≠ .stopped) : slipDisable h i = h := by
  unfold slipDisable
  dsimp only
  rw [if_neg (fun e => h1 e.2), if_neg (not_or.2 ⟨h1, h2⟩)]

theorem slipRestart_ignored {h : Hw} {i : Nat} (hs : (slipAt h i).st ≠ .stopped) : slipRestart h i = h := if_pos hs

theorem slipRestartSkip_ignored {h : Hw} {i : Nat} (hs : (slipAt h i).st ≠ .stopped) : slipRestartSkip h i = h := if_pos hs

theorem slipRestart_stopped {h : Hw} {i : Nat} (hs : (slipAt h i).st = .stopped) :
    slipRestart h i = if unitHolder h 4 (slipAt h i).group ≠ slipOwner h i then stopUnserved h i
      else setSlip h i { slipAt h i with st := .running, head := (slipAt h i).stopSeq, descs := [], stopping := none } :=
  if_neg (fun h => h hs)

theorem slipRestartSkip_unowned {h : Hw} {i : Nat} (hs : (slipAt h i).st = .stopped)
    (hg : unitHolder h 4 (slipAt h i).group ≠ slipOwner h i) : slipRestartSkip h i = stopUnserved h i := by
  unfold slipRestartSkip
  dsimp only
  rw [if_neg (fun h => h hs), if_pos hg]

theorem slipRestartSkip_owned {h : Hw} {i : Nat} {e : W32} (hs : (slipAt h i).st = .stopped)
    (hg : unitHolder h 4 (slipAt h i).group = slipOwner h i)
    (he : e = skipPast (slipAt h i).skip.length ((slipAt h i).stopSeq + 1) (slipAt h i).skip) :
    slipRestartSkip h i = setSlip h i { slipAt h i with
      st := .running, done := e, head := e, descs := [], stopping := none, resume := 0,
      skip := (slipAt h i).skip.filter (fun k => decide ((k - e).toNat < 2 ^ 31)) } := by
  subst he
  unfold slipRestartSkip
  dsimp only
  rw [if_neg (fun h => h hs), if_neg (fun h => h hg)]

/-- DONE goes past no sequence count that is not final. -/
theorem skipPast_stays {n : Nat} {v : W32} {k : List W32} (hv : v ∉ k) : skipPast n v k = v := by
  cases n with
  | zero => rfl
  | succ n => exact if_neg hv

/-! ### Invalidations -/

/-- An epoch that does not wrap. -/
theorem advanceEpoch_stale {h : Hw} {p i : Nat} (he : epochAt h p i ≠ 0xFFFFFFFF#32) :
    advanceEpoch h p i = staleAll { h with
      eng := { h.eng with epochs := tabPut 0 h.eng.epochs (81 * p + i) (epochAt h p i + 1) } } p := by
  have hz : ¬ epochAt h p i + 1 = 0 := fun e => he (by bv_omega)
  unfold advanceEpoch
  dsimp only
  rw [if_neg hz]

/-- An epoch that wraps makes every staged descriptor stale and drops the partition's cached translations. -/
theorem advanceEpoch_wraps {h v : Hw} {p i : Nat} (he : epochAt h p i = 0xFFFFFFFF#32)
    (hv : v = { h with
      eng := { h.eng with
        epochs := tabPut 0 h.eng.epochs (81 * p + i) 0,
        leaves := tabClear h.eng.leaves (fun k => decide ((unitAt h 4 (k % 64)).owner = p)) } }) :
    advanceEpoch h p i =
      (v.eng.slips.filter (fun y => slipOwner v y.1 = p)).foldl (fun g y => y.2.descs.foldl (fun g d => staleDesc g y.1 d) g) v := by
  have hz : epochAt h p i + 1 = 0 := by rw [he]; decide
  subst hv
  unfold advanceEpoch
  dsimp only
  rw [hz, if_pos rfl]
  rfl

/-! ### Pauses and the invalidation's wait -/

theorem pauseDesc_walks {h : Hw} {i : Nat} {q : W32} {d : Desc} (hf : findDesc (slipAt h i) q = some d) (hp : d.pauseReq = true)
    (hd : d.phase = .dispatched) : pauseDesc h i q = startWalk h i { d with pauseReq := false, begun := true } true := by
  unfold pauseDesc
  rw [hf]
  dsimp only
  rw [hp, decide_eq_true hd]
  rfl

theorem pauseDesc_idle {h : Hw} {i : Nat} {q : W32} {d : Desc} (hf : findDesc (slipAt h i) q = some d)
    (hp : d.pauseReq = false ∨ d.phase ≠ .dispatched) : pauseDesc h i q = h := by
  unfold pauseDesc
  rw [hf]
  dsimp only
  rcases hp with hp | hp
  · rw [hp]
    rfl
  · rw [decide_eq_false hp, Bool.and_false]
    rfl

theorem pauseDesc_none {h : Hw} {i : Nat} {q : W32} (hf : findDesc (slipAt h i) q = none) : pauseDesc h i q = h := by
  unfold pauseDesc
  rw [hf]

/-- A hart without stores left to perform. -/
theorem xinvSync_answers {hm : HM} {n : Nat} (hn : n < 128) (ho : hartOwner hm.1 n ≤ 16) (hi : invalidated hm.1 (hartOwner hm.1 n) = true)
    (hs : (hartAt hm.1 n).sb = []) (hp : actorPending hm.1 (.hart n) = false) :
    xinvSync hm n = (setResult hm.1 n (zeros 8), hm.2) := by
  have hd : drainBuffer hm n = hm := by
    unfold drainBuffer
    rw [hs]
    rfl
  have hio : ioOrder hm.1 n = hm.1 := by
    unfold ioOrder
    rw [hp]
    rfl
  exact xinvSync_zero hn ho hi hd.symm hio.symm

/-- A command of a slip's owner. -/
theorem asOwner_own {h : Hw} {p i : Nat} {f : Hw → Hw} (hi : i < 1024) (hp : p ≤ 16) (ho : slipOwner h i = p) : asOwner h p i f = f h :=
  if_pos ⟨hi, hp, ho⟩

theorem asOwner_other {h : Hw} {p i : Nat} {f : Hw → Hw} (ho : slipOwner h i ≠ p ∨ 1024 ≤ i ∨ 16 < p) : asOwner h p i f = h :=
  if_neg (fun e => ho.elim (fun h => h e.2.2) (by omega))

/-- Settles O51: every command of a slip is its owner's, and its state decides what it does. -/
theorem slipCommandRows : Obligations.SlipCommandRows := by
  intro s h hh
  refine ⟨?own, fun n v k hv => if_pos hv, ?other, ?disabled, ?advances, ?wraps, ?noEpoch, ?pause,
    fun i q hf => onHw_routed (f := fun h => pauseDesc h i q) hh (pauseDesc_none hf), ?waits, ?answers⟩
  case own =>
    intro p i x hi hp ho hx
    subst hx
    have hrow : ∀ {f : Hw → Hw} {g}, f h = g → onHw s (fun h => asOwner h p i f) = .next (s.ended g) := fun {f g} e =>
      onHw_routed (f := fun h => asOwner h p i f) hh ((asOwner_own hi hp ho).trans e)
    have hidle : ∀ {f : Hw → Hw}, f h = h → onHw s (fun h => asOwner h p i f) = .next (s.withHw h) := fun {f} e =>
      onHw_idle (f := fun h => asOwner h p i f) hh ((asOwner_own hi hp ho).trans e)
    have hring : ∀ {l b x}, l < 32 → b < 2 ^ 44 → writeRing (slipAt h i) (w64 (l + b * 2 ^ 12)) = x →
        exec (.slpRing p i (l + b * 2 ^ 12)) s = .next (s.ended (setSlip h i x)) := fun hl hb e =>
      hrow (f := fun h => slipStore h i 0x020 _ .full) ((slipStore_ring hl hb).trans (congrArg _ e))
    refine ⟨fun v hv => hrow (f := fun h => stir (setSlip h i (doorbell (slipAt h i) (w32 v)))) (by rw [doorbell_accepted hv.1 hv.2]),
      fun v hv => hrow (f := fun h => stir (setSlip h i (doorbell (slipAt h i) (w32 v)))) (by rw [doorbell_overrun hv]),
      fun v hd hv => hrow (f := fun h => setSlip h i (writeDone (slipAt h i) (w32 v))) (by rw [writeDone_taken hd hv]),
      fun v hv => hrow (f := fun h => setSlip h i (writeDone (slipAt h i) (w32 v))) (by rw [writeDone_ignored hv]),
      fun l b hd h4 h16 hb hl => hring (by omega) hb ?_, fun l b hd hl hb => hring hl hb (writeRing_running hd),
      fun hd => hidle (f := fun h => slipEnable h i) (slipEnable_ignored hd), fun hd hg => ?_, fun hd hg hdie => ?_,
      fun hr hs => hrow (f := fun h => slipDisable h i) (slipDisable_stopping hr hs),
      fun hr => hrow (f := fun h => slipDisable h i) (slipDisable_discards hr), fun hr => ?_,
      fun hs => ⟨hidle (f := fun h => slipRestart h i) (slipRestart_ignored hs),
        hidle (f := fun h => slipRestartSkip h i) (slipRestartSkip_ignored hs)⟩, fun hs hg => ?_, fun hs hg => ?_, fun e hs hg he => ?_,
      fun e hs he hn => he.trans (skipPast_stays hn), fun l b hd hl hb hout hle => hring hl hb ?_, fun l b hd h4 h16 hb hlt => hring (by omega) hb ?_⟩
    · exact (writeRing_disabled hd (by omega) hb (if_pos ⟨h4, h16⟩)).trans (if_pos hl)
    · subst ho
      exact hrow (f := fun h => slipEnable h i) (slipEnable_notOwned hd hg)
    · have he := slipEnable_owned hd (hg.trans ho.symm) hdie
      refine ⟨fun hf => hrow (f := fun h => slipEnable h i) (he.trans (if_pos hf)),
        fun hf hlen => hrow (f := fun h => slipEnable h i) (he.trans ?_),
        fun hf hlen => hrow (f := fun h => slipEnable h i) (he.trans ?_)⟩
      · rw [hf, if_neg (by decide), if_pos hlen]
      · rw [hf, if_neg (by decide), if_neg (Nat.not_le.2 hlen)]
    · refine hidle (f := fun h => slipDisable h i) (slipDisable_ignored ?_ ?_) <;>
        (intro e; rw [e] at hr; revert hr; decide)
    · have hne : unitHolder h 4 (slipAt h i).group ≠ slipOwner h i := ho.symm ▸ hg
      exact ⟨hrow (f := fun h => slipRestart h i) ((slipRestart_stopped hs).trans (if_pos hne)),
        hrow (f := fun h => slipRestartSkip h i) (slipRestartSkip_unowned hs hne)⟩
    · exact hrow (f := fun h => slipRestart h i) ((slipRestart_stopped hs).trans (if_neg (fun hn => hn (hg.trans ho.symm))))
    · exact hrow (f := fun h => slipRestartSkip h i) (slipRestartSkip_owned hs (hg.trans ho.symm) he)
    · exact (writeRing_disabled hd hl hb (if_neg (by omega))).trans (if_pos hle)
    · exact (writeRing_disabled hd (by omega) hb (if_pos ⟨h4, h16⟩)).trans (if_neg (Nat.not_le.2 hlt))
  case other =>
    intro p i v ho
    have hidle : ∀ (f : Hw → Hw), onHw s (fun h => asOwner h p i f) = .next (s.withHw h) := fun f =>
      onHw_idle (f := fun h => asOwner h p i f) hh (asOwner_other ho)
    exact ⟨hidle _, hidle _, hidle _, hidle _, hidle _, hidle _, hidle _⟩
  case disabled =>
    intro i x hx
    subst hx
    refine ⟨fun hd hf => onHw_routed (f := fun h => slipDisabled h i) hh (if_pos ⟨hd, by rw [hf]; rfl⟩), fun hor => ?_⟩
    refine onHw_idle (f := fun h => slipDisabled h i) hh (if_neg ?_)
    rintro ⟨hd, hf⟩
    rcases hor with hn | ha
    · exact hn hd
    · rw [ha] at hf
      exact absurd hf (by decide)
  case advances =>
    intro p e v hv hp
    subst hv
    exact ⟨fun he => onHw_routed (f := fun h => if p ≤ 16 then advanceEpoch h p 0 else h) hh ((if_pos hp).trans (advanceEpoch_stale he)),
      fun he => onHw_routed (f := fun h => if p ≤ 16 then advanceEpoch h p (asidEpoch e) else h) hh
        ((if_pos hp).trans (advanceEpoch_stale he)),
      fun he => onHw_routed (f := fun h => if p ≤ 16 then advanceEpoch h p (vmidEpoch e) else h) hh
        ((if_pos hp).trans (advanceEpoch_stale he))⟩
  case wraps =>
    intro p e v i l hv hp he hl o ho
    subst hl ho
    have hadv := advanceEpoch_wraps he hv
    refine ⟨fun hi => ?_, fun hi => ?_, fun hi => ?_⟩
    · subst hi
      exact onHw_routed (f := fun h => if p ≤ 16 then advanceEpoch h p 0 else h) hh ((if_pos hp).trans hadv)
    · refine onHw_routed (f := fun h => if p ≤ 16 then advanceEpoch h p (asidEpoch e) else h) hh ((if_pos hp).trans ?_)
      rw [asidEpoch, ← hi, hadv]
    · refine onHw_routed (f := fun h => if p ≤ 16 then advanceEpoch h p (vmidEpoch e) else h) hh ((if_pos hp).trans ?_)
      rw [vmidEpoch, ← hi, hadv]
  case noEpoch =>
    intro p e hp
    exact ⟨onHw_routed (f := fun h => if p ≤ 16 then advanceEpoch h p 0 else h) hh (if_neg (Nat.not_le.2 hp)),
      onHw_routed (f := fun h => if p ≤ 16 then advanceEpoch h p (asidEpoch e) else h) hh (if_neg (Nat.not_le.2 hp)),
      onHw_routed (f := fun h => if p ≤ 16 then advanceEpoch h p (vmidEpoch e) else h) hh (if_neg (Nat.not_le.2 hp))⟩
  case pause =>
    intro i q d hf
    exact ⟨fun hp hd => onHw_routed (f := fun h => pauseDesc h i q) hh (pauseDesc_walks hf hp hd),
      fun hor => onHw_routed (f := fun h => pauseDesc h i q) hh (pauseDesc_idle hf hor)⟩
  case waits =>
    intro n hn ho hi
    exact onAll_waiting (f := fun hm => xinvSync hm n) hh (xinvSync_waits (hm := (h, s.mem)) hi) (cleared_noWait hh)
  case answers =>
    intro n x hx hn ho hi hs hp
    subst hx
    exact onAll_waiting (f := fun hm => xinvSync hm n) hh (xinvSync_answers (hm := (h, s.mem)) hn ho hi hs hp)
      (setResult_noWait _ _ (cleared_noWait hh))

end Sys2Proof.Machine
end

/-!
PROOFS. The front of a ferry (chapters 12 and 13): fetching, staging, lookups and walks, dispatch, completion records, the channel halt.
-/

section
namespace Sys2Proof.Machine

/-! ### Fetching -/

theorem fetchFor_none {h : Hw} {m : Memory} {f : Nat} {u : Upset}
    (hc : choose h (tabGet {} h.eng.fetchArb f) ((ferrySlips h f).filter (fetchable h)) = none) : fetchFor h m f u = h := by
  unfold fetchFor
  rw [hc]

theorem fetchFor_some {h : Hw} {m : Memory} {f i : Nat} {u : Upset} {a : Arbiter}
    (hc : choose h (tabGet {} h.eng.fetchArb f) ((ferrySlips h f).filter (fetchable h)) = some (i, a)) :
    fetchFor h m f u = iter (fetchOne m i u) (fetchCount h i)
      { h with eng := { h.eng with fetchArb := tabPut {} h.eng.fetchArb f a } } := by
  unfold fetchFor
  rw [hc]

/-- The caches of a front end hold no slip. -/
theorem slipAt_fillRing (h : Hw) (g l i : Nat) : slipAt (fillRing h g l) i = slipAt h i := by
  unfold fillRing slipAt
  rw [putCache_eng]

theorem slipAt_freeRing (h : Hw) (g l i : Nat) : slipAt (freeRing h g l) i = slipAt h i := by
  unfold freeRing slipAt
  rw [putCache_eng]

/-- A slip that holds a descriptor is not at its reset values. -/
theorem slip_ne_of_descs {x : Slip} (hd : x.descs ≠ []) : x ≠ {} := by
  rintro rfl
  exact hd rfl

/-- What a fetch from a ring in this package leaves in its slip. -/
theorem slipAt_fetchOne {h : Hw} {m : Memory} {i a : Nat} {u : Upset} {x : Slip} (hx : x = slipAt h i)
    (ha : a = x.ring + 128 * (x.head.toNat % 2 ^ x.log2)) (hl : isLocal h a = true) (hs : x.head ∉ x.skip) :
    slipAt (fetchOne m i u h) i = { x with
      head := x.head + 1,
      descs := x.descs ++ [{
        seq := x.head, bytes := if ringsMeet x then (takeFreeBytes h 128).1 else cohRead h m (compactLocal a) 128,
        ringBad := (ringRead h (slipOwner h i) (compactLocal a) u).getD 3,
        asid := x.asid, vmid := x.vmid, gmode := x.gmode, progress := if x.stopSeq = x.head then x.resume else 0 }] } := by
  have hskip : decide (x.head ∈ x.skip) = false := decide_eq_false hs
  have hsize : slipSize x = 2 ^ x.log2 := rfl
  unfold fetchOne
  dsimp only
  rw [← hx, hsize, ← ha, if_pos hl, hskip, slipAt_fillRing, slipAt_fillRing, slipAt_setSlip_ne _ _ _ (slip_ne_of_descs (by simp))]
  by_cases hr : ringsMeet x = true
  · rw [if_pos hr, if_pos hr]
    rfl
  · rw [if_neg hr, if_neg hr]
    rfl

/-! ### Staging -/

/-- A choice by how ring lines read: sound, poisoned, an error, refused, or gone. -/
def byRing {α : Type} (sound poisoned error refused gone : α) : Nat → α
  | 0 => sound
  | 1 => poisoned
  | 2 => error
  | 3 => refused
  | _ => gone

section
variable {α : Type} (a b c d e : α)

theorem byRing_sound : byRing a b c d e 0 = a := rfl
theorem byRing_poisoned : byRing a b c d e 1 = b := rfl
theorem byRing_error : byRing a b c d e 2 = c := rfl
theorem byRing_refused : byRing a b c d e 3 = d := rfl
theorem byRing_gone (k : Nat) : byRing a b c d e (k + 4) = e := rfl

end

theorem stageNext_none {h : Hw} {i : Nat} (hf : (slipAt h i).descs.find? (fun d => d.phase = .fetched) = none) : stageNext h i = h := by
  unfold stageNext
  dsimp only
  rw [hf]

section
variable {h : Hw} {i ca a : Nat} {x : Slip} {d : Desc} {g : Hw}
  (hx : x = slipAt h i) (hf : x.descs.find? (fun d => d.phase = .fetched) = some d)
  (hca : ca = x.ring + 128 * (d.seq.toNat % 2 ^ x.log2)) (ha : a = lineOf (compactLocal ca))
  (hg : g = freeRing (freeRing h x.group a) x.group (a + 1))

/-- What staging does with the descriptor it takes, once its ring lines are freed, by how they read. -/
def stagedBy (g : Hw) (i ca : Nat) (d : Desc) : Nat → Hw :=
  byRing (if stagingHalt i d = 0 && reservedSet d.bytes then stageDesc (strangeDesc g d).1 i (strangeDesc g d).2 else stageDesc g i d)
    (endDesc g i { d with bytes := tagZero d.bytes } 0x01 0x2F) (haltUe g i d (compactLocal ca) (ueSource (compactLocal ca)))
    (haltRefused g i d (if isLocal g ca then compactLocal ca else 2 ^ 60 + ca)) (endDesc g i d (goneStatus g) 0)

include hx hf hca ha hg

theorem stageNext_takes : stageNext h i = stagedBy g i ca d d.ringBad := by
  have hsize : slipSize x = 2 ^ x.log2 := rfl
  unfold stageNext
  dsimp only
  rw [← hx, hf]
  dsimp only
  rw [hsize, ← hca, ← ha, ← hg]
  unfold stagedBy byRing
  rfl

/-- A descriptor whose ring lines read sound. -/
theorem stageNext_sound (hr : d.ringBad = 0) : stageNext h i = 
    if stagingHalt i d = 0 && reservedSet d.bytes then stageDesc (strangeDesc g d).1 i (strangeDesc g d).2 else stageDesc g i d := by
  rw [stageNext_takes hx hf hca ha hg, hr, stagedBy, byRing_sound]

theorem stageNext_poisoned (hr : d.ringBad = 1) : stageNext h i = endDesc g i { d with bytes := tagZero d.bytes } 0x01 0x2F := by
  have e := stageNext_takes hx hf hca ha hg
  rw [hr] at e
  exact e.trans (byRing_poisoned ..)

theorem stageNext_error (hr : d.ringBad = 2) : stageNext h i = haltUe g i d (compactLocal ca) (ueSource (compactLocal ca)) := by
  rw [stageNext_takes hx hf hca ha hg, hr, stagedBy, byRing_error]

theorem stageNext_refused (hr : d.ringBad = 3) : stageNext h i =
    haltRefused g i d (if isLocal g ca then compactLocal ca else 2 ^ 60 + ca) := by
  rw [stageNext_takes hx hf hca ha hg, hr, stagedBy, byRing_refused]

theorem stageNext_gone {k : Nat} (hr : d.ringBad = k + 4) : stageNext h i = endDesc g i d (goneStatus g) 0 := by
  rw [stageNext_takes hx hf hca ha hg, hr, stagedBy, byRing_gone]

omit hx hf hca ha hg

theorem stageDesc_halts (hh : stagingHalt i d ≠ 0) : stageDesc g i d = haltDesc g i d (stagingHalt i d) := by
  unfold stageDesc
  dsimp only
  rw [if_pos hh]

theorem stageDesc_unbuffered (hh : stagingHalt i d = 0) (hb : buffersOf d = []) :
    stageDesc g i d = setSlip g i (setDesc (slipAt g i) { snapshot g (slipOwner g i) d with phase := .staged }) := by
  unfold stageDesc
  dsimp only
  rw [if_neg (fun h => h hh), hb]
  rfl

theorem stageDesc_reserved {b : Nat × Nat × Bool} {bs : List (Nat × Nat × Bool)} (hh : stagingHalt i d = 0) (hb : buffersOf d = b :: bs)
    (hm : ctxReserved (slipAt g i) = true) : stageDesc g i d = xlatFault g i d { reason := 0x0C, buf := 0, va := b.1 } 0 := by
  have hat : bufferAt d 0 = b := by
    unfold bufferAt
    rw [hb]
    rfl
  unfold stageDesc
  dsimp only
  rw [if_neg (fun h => h hh), hb, hat, hm]
  rfl

theorem stageDesc_walks {b : Nat × Nat × Bool} {bs : List (Nat × Nat × Bool)} (hh : stagingHalt i d = 0) (hb : buffersOf d = b :: bs)
    (hm : ctxReserved (slipAt g i) = false) : stageDesc g i d =
      if translates (slipAt g i) then lookUpAll (startWalk g i d false) i d g.eng.stamp else startWalk g i d false := by
  unfold stageDesc
  dsimp only
  rw [if_neg (fun h => h hh), hb, hm]
  rfl

end

theorem ctxReserved_true {x : Slip} (hm : x.mode ∉ [0, 9, 10] ∨ x.gmode ∉ [0, 9, 10]) : ctxReserved x = true := by
  unfold ctxReserved
  rcases hm with hm | hm
  · rw [decide_eq_false hm]
    rfl
  · rw [decide_eq_false hm, Bool.and_false]
    rfl

theorem ctxReserved_false {x : Slip} (hm : x.mode ∈ [0, 9, 10]) (hg : x.gmode ∈ [0, 9, 10]) : ctxReserved x = false := by
  unfold ctxReserved
  rw [decide_eq_true hm, decide_eq_true hg]
  rfl

theorem translates_true {x : Slip} (hm : x.mode ≠ 0 ∨ x.gmode ≠ 0) : translates x = true := by
  unfold translates
  rcases hm with hm | hm
  · rw [decide_eq_true hm, Bool.true_or]
  · rw [decide_eq_true hm, Bool.or_true]

theorem translates_false {x : Slip} (hm : x.mode = 0) (hg : x.gmode = 0) : translates x = false := by
  unfold translates
  rw [hm, hg]
  rfl

/-! ### The checked fields -/

theorem stagingHalt_unknown {i : Nat} {d : Desc} (hk : knownOp (opcode d) = false) : stagingHalt i d = 0x22 := by
  unfold stagingHalt
  rw [hk]
  rfl

theorem stagingHalt_die {i : Nat} {d : Desc} (hk : knownOp (opcode d) = true) (hi : 4 ≤ slipDie i) (hc : cDieOp (opcode d) = false) :
    stagingHalt i d = 0x2C := by
  have hcond : slipDie i ≥ 4 ∧ (!cDieOp (opcode d)) = true := ⟨hi, by rw [hc]; rfl⟩
  unfold stagingHalt
  rw [hk, if_neg (by decide), if_pos hcond]

/-- The checks after the opcode and the die. -/
theorem stagingHalt_fields {i : Nat} {d : Desc} (hk : knownOp (opcode d) = true) (hi : slipDie i < 4 ∨ cDieOp (opcode d) = true) :
    stagingHalt i d = if bitOf (leAt d.bytes 1 1) 1 && refBad (leAt d.bytes 8 4) then 0x22 else checkFields d := by
  have hcond : ¬ (slipDie i ≥ 4 ∧ (!cDieOp (opcode d)) = true) := by
    rintro ⟨h1, h2⟩
    rcases hi with h | h
    · omega
    · rw [h] at h2
      exact absurd h2 (by decide)
  unfold stagingHalt
  rw [hk, if_neg (by decide), if_neg hcond]

/-! ### Lookups -/

section
variable {v : Hw} {g : Nat} {k : Lookup} {d : Desc} {f : FrontEnd} (hd : lookupDesc v k = some d) (hf : f = frontAt v g)
include hd hf

theorem lookUp_misses (hs : f.stopped = []) (hl : leafHit v k.slip d k.buf = none) :
    lookUp g v k = setFront v g (if f.miss.isNone then { f with miss := some k } else { f with stopped := [k] }) := by
  subst hf
  unfold lookUp
  dsimp only
  rw [hd]
  dsimp only
  rw [hs, hl]
  rfl

theorem lookUp_stopped (hs : f.stopped ≠ []) : lookUp g v k = setFront v g { f with stopped := f.stopped ++ [k] } := by
  subst hf
  have he : (frontAt v g).stopped.isEmpty = false := List.isEmpty_eq_false_iff.2 hs
  unfold lookUp
  dsimp only
  rw [hd]
  dsimp only
  rw [he]
  rfl

end

/-! ### Walks -/

theorem walkFor_fenced {hm : HM} {g : Nat} {u : Upset} (hf : unitFenced hm.1 4 g = true) : walkFor hm g u = hm := by
  unfold walkFor
  rw [hf]
  rfl

theorem walkFor_none {hm : HM} {g : Nat} {u : Upset} (hf : unitFenced hm.1 4 g = false)
    (hr : firstRequest (walkRequests (resumeLookups hm.1 g) g) = none) : walkFor hm g u = (resumeLookups hm.1 g, hm.2) := by
  unfold walkFor
  rw [hf]
  dsimp only
  rw [hr]
  rfl

/-- A walker serves the request it takes: the outstanding miss of its cache, or a descriptor's own page. -/
def served (hm : HM) (g : Nat) (u : Upset) (q : WalkReq) : HM :=
  q.miss.elim (walkOne hm q.slip q.desc u) (fun b => walkMiss hm g q.slip q.desc b u)

theorem walkFor_serves {hm : HM} {g : Nat} {u : Upset} {q : WalkReq} (hf : unitFenced hm.1 4 g = false)
    (hr : firstRequest (walkRequests (resumeLookups hm.1 g) g) = some q) :
    walkFor hm g u = served (resumeLookups hm.1 g, hm.2) g u q := by
  unfold walkFor
  rw [if_neg (by rw [hf]; decide)]
  dsimp only
  rw [hr]
  dsimp only
  unfold served
  cases q.miss <;> rfl

/-- Nothing is released where no descriptor has taken a bolt. -/
theorem releaseTaken_none {o : HM} {g : Nat} {f : Desc → Bool} (hs : ∀ e, e ∈ o.1.eng.slips → ∀ d, d ∈ e.2.descs → d.scratch ≠ 1) :
    releaseTaken o g f = o := by
  unfold releaseTaken
  have hslip : ∀ e ∈ o.1.eng.slips.filter (fun e => decide (e.2.group = g) && decide (e.2.st ≠ SlipSt.fenced)),
      e.2.descs.filter (fun d => f d && decide (d.scratch = 1) && decide (0x14 ≤ opcode d ∧ opcode d ≤ 0x19)) = [] := by
    intro e he
    rw [List.filter_eq_nil_iff]
    intro d hd
    rw [decide_eq_false (hs e (List.mem_of_mem_filter he) d hd), Bool.and_false, Bool.false_and]
    decide
  have hfold : ∀ (l : List (Nat × Slip)) (hm : HM),
      (∀ e ∈ l, e.2.descs.filter (fun d => f d && decide (d.scratch = 1) && decide (0x14 ≤ opcode d ∧ opcode d ≤ 0x19)) = []) →
      l.foldl (fun hm e =>
        (e.2.descs.filter (fun d => f d && decide (d.scratch = 1) && decide (0x14 ≤ opcode d ∧ opcode d ≤ 0x19))).foldl (fun hm d =>
          let hm1 := releaseFailed hm e.1 d
          (putDesc hm1.1 e.1 { d with result := [], scratch := 0 }, hm1.2)) hm) hm = hm := by
    intro l
    induction l with
    | nil => exact fun _ _ => rfl
    | cons e l ih =>
      intro hm hl
      rw [List.foldl_cons, hl e (List.mem_cons_self ..), List.foldl_nil]
      exact ih hm (fun e he => hl e (List.mem_cons_of_mem _ he))
  exact hfold _ o hslip

/-- A Bare context translates a buffer's bytes as they stand. -/
theorem walkPage_bare {h : Hw} {m : Memory} {i va n : Nat} {d : Desc} {u : Upset} {w : Bool} (hm : (slipAt h i).mode = 0)
    (hg : (slipAt h i).gmode = 0) (hb : bufferAt d 0 = (va, n, w)) (hn : 0 < n) (hv : va + n ≤ 2 ^ 56) (hk : d.walk.kept = [])
    (hek : h.eng.kept = []) : walkPage (h, m) i d 0 0 u = ((h, m), .page va (2 ^ 56 - va) 0 0, d.walk) := by
  have ht : translates (slipAt h i) = false := translates_false hm hg
  have hcond : ¬ ((!false && decide (va + n > 2 ^ 56)) = true) := by
    rw [decide_eq_false (by omega)]
    decide
  have hkeep : ({ h with eng := { h.eng with kept := [] } } : Hw) = h := by
    rw [← hek]
  have hw : ({ d.walk with kept := [] } : WalkState) = d.walk := by
    rw [← hk]
  have hwalk : walkBoth (ctxOf h i u) w va (h, m) = ((h, m), .page va (2 ^ 56 - va) 0 0) := by
    have hz : (ctxOf h i u).mode = 0 ∧ (ctxOf h i u).gmode = 0 := ⟨hm, hg⟩
    unfold walkBoth
    rw [if_pos hz, if_neg (by omega)]
  have htr : translate (ctxOf h i u) w va (h, m) = ((h, m), .page va (2 ^ 56 - va) 0 0) := by
    unfold translate
    dsimp only
    rw [hek]
    exact hwalk
  unfold walkPage
  dsimp only
  rw [ht, hb, Nat.add_zero, if_neg hcond, hk, List.filter_nil, List.map_nil, hkeep, htr]
  dsimp only
  rw [hek, List.map_nil, List.filter_nil, List.append_nil, hw, hkeep]
  rfl

/-- A walk whose cursor has passed the last buffer is over. -/
theorem settleWalk_over {h : Hw} {i : Nat} {d : Desc} {w w' : WalkState} (hp : passKnown (2 * (buffersOf d).length + 1) d w = w')
    (hn : (buffersOf d).length ≤ w'.buf) : settleWalk h i d w = endWalk h i { d with walk := w' } := by
  subst hp
  exact if_pos hn

/-- A walk that found no fault and is not stale stages a descriptor that has not begun. -/
theorem endWalk_staged {h : Hw} {i : Nat} {d : Desc} (hf : d.walk.fault = none) (hs : stale h (slipOwner h i) d = false)
    (hb : d.begun = false) : endWalk h i d =
      setSlip h i (setDesc (slipAt h i) { d with phase := .staged, extents := d.walk.exts, pauseReq := false }) := by
  unfold endWalk
  rw [hf]
  dsimp only
  rw [if_neg (by rw [hs]; decide), if_neg (by rw [hb]; decide)]

/-- A Bare buffer of one page run is staged with its extents. -/
theorem walkOne_bare {h : Hw} {m : Memory} {i va n : Nat} {d : Desc} {u : Upset} {w : Bool} (hm : (slipAt h i).mode = 0)
    (hg : (slipAt h i).gmode = 0) (hb : buffersOf d = [(va, n, w)]) (hn : 0 < n) (hv : va + n ≤ 2 ^ 56) (hb0 : d.walk.buf = 0)
    (ho : d.walk.off = 0) (he : d.walk.exts = []) (hf : d.walk.fault = none) (hk : d.walk.kept = []) (hek : h.eng.kept = [])
    (hbg : d.begun = false) (hst : stale h (slipOwner h i) d = false) (h16 : (addRun 40 [] 0 0 n va w)[16]? = none) :
    walkOne (h, m) i d u = (setSlip h i (setDesc (slipAt h i) { d with
      phase := .staged, pauseReq := false, extents := addRun 40 [] 0 0 n va w,
      walk := { d.walk with exts := addRun 40 [] 0 0 n va w, buf := 1, off := walkStart d 1 } }), m) := by
  have hat : bufferAt d 0 = (va, n, w) := by
    unfold bufferAt
    rw [hb]
    rfl
  have hadd : addPage d d.walk va (2 ^ 56 - va) = { d.walk with exts := addRun 40 [] 0 0 n va w, off := n } := by
    have hlen : min (2 ^ 56 - va) (n - 0) = n := by omega
    unfold addPage
    dsimp only
    rw [hb0, hat, ho, he]
    dsimp only
    rw [hlen, h16]
    dsimp only
    rw [Nat.zero_add]
  have hpass : passKnown 3 d { d.walk with exts := addRun 40 [] 0 0 n va w, off := n } =
      { d.walk with exts := addRun 40 [] 0 0 n va w, buf := 1, off := walkStart d 1 } := by
    have hlen : (buffersOf d).length = 1 := by rw [hb]; rfl
    rw [passKnown, if_neg (by dsimp only; rw [hb0, hlen]; decide)]
    dsimp only
    rw [hb0, hat, if_pos (.inl (Nat.le_refl n))]
    unfold nextBuffer
    rw [passKnown, if_pos (by dsimp only; rw [hlen])]
  unfold walkOne
  dsimp only
  rw [hb0, ho, walkPage_bare hm hg hat hn hv hk hek]
  dsimp only
  rw [hadd]
  have hlen : (buffersOf d).length = 1 := by rw [hb]; rfl
  have hset : settleWalk h i d { d.walk with exts := addRun 40 [] 0 0 n va w, off := n } =
      endWalk h i { d with walk := { d.walk with exts := addRun 40 [] 0 0 n va w, buf := 1, off := walkStart d 1 } } :=
    settleWalk_over (by rw [hlen]; exact hpass) (by rw [hlen])
  have hend : endWalk h i { d with walk := { d.walk with exts := addRun 40 [] 0 0 n va w, buf := 1, off := walkStart d 1 } } = _ :=
    endWalk_staged hf hst hbg
  exact Prod.ext (hset.trans hend) rfl

/-! ### Dispatch -/

section
variable {h g : Hw} {f i : Nat} {a : Arbiter} {d : Desc}

theorem dispatchFor_none (hc : choose h (tabGet {} h.eng.dispArb f) ((ferrySlips h f).filter (dispatchable h)) = none) :
    dispatchFor h f = h := by
  unfold dispatchFor
  rw [hc]

/-- What dispatch does with the descriptor of the slip the arbiter chooses. -/
theorem dispatchFor_some (hc : choose h (tabGet {} h.eng.dispArb f) ((ferrySlips h f).filter (dispatchable h)) = some (i, a))
    (hn : nextDispatch (slipAt h i) = some d) (hg : g = { h with eng := { h.eng with dispArb := tabPut {} h.eng.dispArb f a } }) :
    dispatchFor h f = if stale h (slipOwner h i) d && !(buffersOf d).isEmpty then startWalk g i d true
      else if engineCheck h i d ≠ 0 then haltDesc g i d (engineCheck h i d)
      else setSlip g i (setDesc (slipAt g i) { d with phase := .dispatched, since := h.tb.now, objs := bindObjs h i d }) := by
  subst hg
  unfold dispatchFor
  rw [hc]
  dsimp only
  rw [hn]

end

/-! ### Completion records -/

theorem completeNext_none {hm : HM} {i : Nat} {x : Slip} (hx : x = slipAt hm.1 i) (hn : nextRecord x = none) :
    completeNext hm i = (slipDisabled (finishStop (setSlip hm.1 i (passFinal x.descs.length x)) i) i, hm.2) := by
  subst hx
  unfold completeNext
  dsimp only
  rw [hn]

theorem completeNext_pending {hm : HM} {i : Nat} {x : Slip} {d : Desc} (hx : x = slipAt hm.1 i) (hn : nextRecord x = some d)
    (hp : slipPending hm.1 i d.seq = true) : completeNext hm i = hm := by
  subst hx
  unfold completeNext
  dsimp only
  rw [hn]
  dsimp only
  rw [hp]
  rfl

/-- A record in this package is written in two steps at once. -/
theorem writeRecord_local {hm o q : HM} {p ca k : Nat} {b : List Byte} (hl : isLocal hm.1 ca = true)
    (h1 : engineWrite hm p (ca + 8) (b.drop 8) false = (o, .ok)) (h2 : engineWrite o p ca (b.take 8) false = (q, .ok)) :
    writeRecord hm p ca b k = (q, .ok) := by
  unfold writeRecord
  dsimp only
  rw [if_pos hl, if_pos rfl, h1]
  dsimp only
  rw [if_neg (by decide), h2]

/-- A written record: the descriptor is recorded where it stops its slip, and final otherwise. -/
theorem completeNext_written {hm q : HM} {i : Nat} {x : Slip} {d : Desc} {k : Bool} (hx : x = slipAt hm.1 i) (hn : nextRecord x = some d)
    (hp : slipPending hm.1 i d.seq = false) (hk : (stops d.status d.reason && decide (x.st ≠ .fenced)) = k)
    (hw : writeRecord hm (slipOwner hm.1 i) (recordAddr x d.seq) (recordBytes x d k) d.recStep = (q, .ok)) :
    completeNext hm i =
      (if k then (slipDisabled (finishStop (setSlip q.1 i (setDesc (slipAt q.1 i) { d with phase := .recorded })) i) i, q.2)
      else (slipDisabled (finishStop (setSlip (afterFinal (setSlip q.1 i (setDesc (slipAt q.1 i) { d with phase := .final })) i d) i
        (passFinal (slipAt (afterFinal (setSlip q.1 i (setDesc (slipAt q.1 i) { d with phase := .final })) i d) i).descs.length
          (slipAt (afterFinal (setSlip q.1 i (setDesc (slipAt q.1 i) { d with phase := .final })) i d) i))) i) i, q.2)) := by
  subst hx
  unfold completeNext
  dsimp only
  rw [hn]
  dsimp only
  rw [hp, hk, if_neg (by decide), hw]
  dsimp only
  cases k
  · simp only [Bool.false_eq_true, if_false]
  · simp only [if_true]

/-! ### The channel halt -/

/-- A ferry operation that is no bolt operation and reads the address halts. -/
theorem channelHalt_halts {hm : HM} {i a : Nat} {q : W32} {d : Desc} (hf : findDesc (slipAt hm.1 i) q = some d) (hp : d.phase = .dispatched)
    (hop : opcode d = 0x20 ∨ (opcode d = 0x10 ∧ ∃ e ∈ d.extents, e.wr = false ∧ isLocal hm.1 e.paddr = true ∧
      compactLocal e.paddr / 64 ≤ a / 64 ∧ a < compactLocal e.paddr + e.len))
    (hs : selPiece hm.1 (slipOwner hm.1 i) a false = true) (hb : poisoned hm.1 a = false) :
    channelHalt hm i q a = (haltUe hm.1 i { d with result := [] } a (ueSource a), hm.2) := by
  have hsrc : (decide (opcode d = 0x20 ∨ (0x14 ≤ opcode d ∧ opcode d ≤ 0x19)) || (decide (opcode d = 0x10) && d.extents.any (fun e =>
      !e.wr && isLocal hm.1 e.paddr && decide (compactLocal e.paddr / 64 ≤ a / 64) && decide (a < compactLocal e.paddr + e.len)))) = true := by
    rcases hop with ho | ⟨ho, e, he, hw, hl, h1, h2⟩
    · rw [decide_eq_true (.inl ho), Bool.true_or]
    · have hany : d.extents.any (fun e => !e.wr && isLocal hm.1 e.paddr && decide (compactLocal e.paddr / 64 ≤ a / 64) &&
          decide (a < compactLocal e.paddr + e.len)) = true :=
        List.any_eq_true.2 ⟨e, he, by rw [hw, hl, decide_eq_true h1, decide_eq_true h2]; rfl⟩
      rw [decide_eq_true ho, hany, Bool.and_true, Bool.or_true]
  have hno : ¬ (0x14 ≤ opcode d ∧ opcode d ≤ 0x19) := by
    rcases hop with ho | ⟨ho, -⟩ <;> omega
  unfold channelHalt
  rw [hf]
  dsimp only
  rw [hsrc, hs, hb, decide_eq_true hp, if_neg hno]
  rfl

/-- An operation that is not dispatched, or reads no memory, goes on. -/
theorem channelHalt_passes {hm : HM} {i a : Nat} {q : W32} {d : Desc} (hf : findDesc (slipAt hm.1 i) q = some d)
    (hp : (opcode d = 0x20 ∧ d.phase ≠ .dispatched) ∨ opcode d ∈ [0x11, 0x30, 0x31]) : channelHalt hm i q a = hm := by
  unfold channelHalt
  rw [hf]
  dsimp only
  refine if_neg ?_
  rcases hp with ⟨ho, hp⟩ | ho
  · have hbolt : boltWaiting d = false := by
      unfold boltWaiting
      rw [decide_eq_false (p := 0x14 ≤ opcode d ∧ opcode d ≤ 0x19) (by omega), Bool.and_false]
    rw [decide_eq_false hp, hbolt]
    simp
  · have h1 : ¬ (opcode d = 0x20 ∨ (0x14 ≤ opcode d ∧ opcode d ≤ 0x19)) := by
      simp only [List.mem_cons, List.not_mem_nil, or_false] at ho
      omega
    have h2 : ¬ opcode d = 0x10 := by
      simp only [List.mem_cons, List.not_mem_nil, or_false] at ho
      omega
    rw [decide_eq_false h1, decide_eq_false h2]
    simp

theorem channelHalt_none {hm : HM} {i a : Nat} {q : W32} (hf : findDesc (slipAt hm.1 i) q = none) : channelHalt hm i q a = hm := by
  unfold channelHalt
  rw [hf]

/-- Settles O52: each row of the front is its function, whose equation its condition chooses. -/
theorem ferryFrontRows : Obligations.FerryFrontRows := by
  intro s h hh
  have hstage : ∀ {i g}, stageNext h i = g → exec (.staging i) s = .next (s.ended g) := fun {i g} e =>
    onHw_routed (f := fun h => stageNext h i) hh e
  have hwalk : ∀ {g u r}, walkTurn (h, s.mem) g u = r → NoWait r.1 → exec (.walk g u) s = .next (s.routed r) := fun {g u r} e nw =>
    onAll_waiting (f := fun hm => walkTurn hm g u) hh e nw
  have hcomp : ∀ {i t}, completeNext (h, s.mem) i = t → NoWait (settle t).1 → exec (.descriptorComplete i) s = .next (s.settled t) :=
    fun {i t} e nw => onAll_waiting (f := fun hm => settle (completeNext hm i)) hh (congrArg settle e) nw
  have hhalt : ∀ {i q a g}, channelHalt (h, s.mem) i q a = (g, s.mem) → exec (.channelHalt i q a) s = .next (s.ended g) :=
    fun {i q a g} e => onAll_routedHw (f := fun hm => channelHalt hm i q a) hh e
  refine ⟨fun f u hc => onHw_routed (f := fun h => fetchFor h s.mem f u) hh (fetchFor_none hc),
    fun f u i a hc => onHw_routed (f := fun h => fetchFor h s.mem f u) hh (fetchFor_some hc),
    fun i u x a hx ha hl hs => slipAt_fetchOne hx ha hl hs, fun i hf => hstage (stageNext_none hf), ?staging, ?checks, ?lookups, ?walk, ?fenced,
    ?noRequest, fun o g f hs => releaseTaken_none hs,
    fun i u d w va n hm hg hb hn hv hb0 ho he hf hk hek hbg hst h16 => walkOne_bare hm hg hb hn hv hb0 ho he hf hk hek hbg hst h16, ?dispatch,
    fun f hc => onHw_routed (f := fun h => dispatchFor h f) hh (dispatchFor_none hc), ?noRecord, ?pending, ?record, ?atomic, ?move,
    fun i q d a hf ho => hhalt (channelHalt_passes (hm := (h, s.mem)) hf (.inr ho)),
    fun i q a hf => hhalt (channelHalt_none (hm := (h, s.mem)) hf)⟩
  case staging =>
    intro i x d ca a g hx hf hca ha hg
    have hgx : slipAt g i = x := by rw [hg, slipAt_freeRing, slipAt_freeRing, hx]
    have hloc : isLocal g ca = isLocal h ca := by
      rw [hg]
      rfl
    have hplain : ∀ {o}, d.ringBad = 0 → (stagingHalt i d = 0 && reservedSet d.bytes) = false → stageDesc g i d = o →
        exec (.staging i) s = .next (s.ended o) := fun hr hc e =>
      hstage ((stageNext_sound hx hf hca ha hg hr).trans ((if_neg (by rw [hc]; decide)).trans e))
    have hclear : reservedSet d.bytes = false → (stagingHalt i d = 0 && reservedSet d.bytes) = false := fun e => by rw [e, Bool.and_false]
    refine ⟨fun hr => hstage (stageNext_poisoned hx hf hca ha hg hr), fun hr => hstage (stageNext_error hx hf hca ha hg hr),
      fun hr hl => hstage ((stageNext_refused hx hf hca ha hg hr).trans ?_), fun hr hl => hstage ((stageNext_refused hx hf hca ha hg hr).trans ?_),
      fun hr => ?_, fun hr hs => hplain hr (by rw [decide_eq_false hs, Bool.false_and]) (stageDesc_halts hs),
      fun hr hs hres => ⟨fun hb => hplain hr (hclear hres) (stageDesc_unbuffered hs hb),
        fun b bs hb hm => hplain hr (hclear hres) (stageDesc_reserved hs hb (hgx ▸ ctxReserved_true hm)),
        fun b bs hb hm hgm => ⟨fun ht => hplain hr (hclear hres) ((stageDesc_walks hs hb (hgx ▸ ctxReserved_false hm hgm)).trans ?_),
          fun h0 h1 => hplain hr (hclear hres) ((stageDesc_walks hs hb (hgx ▸ ctxReserved_false hm hgm)).trans ?_)⟩⟩, fun r hr hs hres he => ?_⟩
    · rw [hloc, if_pos hl]
    · rw [hloc, hl]
      rfl
    · obtain ⟨k, hk⟩ : ∃ k, d.ringBad = k + 4 := ⟨d.ringBad - 4, by omega⟩
      exact hstage (stageNext_gone hx hf hca ha hg hk)
    · rw [hgx, if_pos (translates_true ht)]
    · rw [hgx, translates_false h0 h1]
      rfl
    · subst he
      refine hstage ((stageNext_sound hx hf hca ha hg hr).trans (if_pos ?_))
      rw [hres, decide_eq_true hs]
      rfl
  case checks =>
    intro i d
    refine ⟨stagingHalt_unknown, fun hk hi hc => stagingHalt_die hk hi hc, fun hk hi => ⟨fun hb hr => ?_, fun hor => ?_⟩⟩
    · rw [stagingHalt_fields hk hi, hb, hr]
      rfl
    · rw [stagingHalt_fields hk hi]
      rcases hor with hb | hr
      · rw [hb]
        rfl
      · rw [hr, Bool.and_false]
        rfl
  case lookups =>
    intro v g k d f hd hf
    refine ⟨fun hs hl => ⟨fun hm => ?_, fun hm => ?_⟩, fun hs => lookUp_stopped hd hf hs⟩
    · rw [lookUp_misses hd hf hs hl, hm]
      rfl
    · obtain ⟨j, hj⟩ := Option.ne_none_iff_exists'.1 hm
      rw [lookUp_misses hd hf hs hl, hj]
      rfl
  case walk =>
    intro g u v q o r hf hv hq ho hr nw
    refine hwalk ?_ nw
    subst hv hr
    have e : o = served (resumeLookups h g, s.mem) g u q := by
      rw [ho]
      unfold served
      cases q.miss <;> rfl
    rw [e]
    unfold walkTurn
    rw [walkFor_serves (hm := (h, s.mem)) hf hq]
  case fenced =>
    intro g u r hf hr nw
    refine hwalk ?_ nw
    subst hr
    unfold walkTurn
    rw [walkFor_fenced (hm := (h, s.mem)) hf]
  case noRequest =>
    intro g u v r hf hv hq hr nw
    refine hwalk ?_ nw
    subst hv hr
    unfold walkTurn
    rw [walkFor_none (hm := (h, s.mem)) hf hq]
  case dispatch =>
    intro f i a d g hc hn hg
    have hrow : ∀ {o}, dispatchFor h f = o → exec (.dispatch f) s = .next (s.ended o) := fun {o} e =>
      onHw_routed (f := fun h => dispatchFor h f) hh e
    have hd := dispatchFor_some hc hn hg
    have hgo : ∀ (_ : stale h (slipOwner h i) d = false ∨ buffersOf d = []), (stale h (slipOwner h i) d && !(buffersOf d).isEmpty) = false := by
      rintro (hs | hb)
      · rw [hs, Bool.false_and]
      · rw [hb, List.isEmpty_nil, Bool.not_true, Bool.and_false]
    refine ⟨fun hs hb => hrow (hd.trans ?_), fun hor he => hrow (hd.trans ?_), fun hor he => hrow (hd.trans ?_)⟩
    · rw [hs, List.isEmpty_eq_false_iff.2 hb]
      rfl
    · rw [hgo hor, if_neg (by decide), if_pos he]
    · rw [hgo hor, if_neg (by decide), if_neg (fun hn => hn he)]
  case noRecord =>
    intro i x t hx hn ht nw
    subst ht
    exact hcomp (completeNext_none (hm := (h, s.mem)) hx hn) nw
  case pending =>
    intro i x d hx hn hp nw
    exact hcomp (completeNext_pending (hm := (h, s.mem)) hx hn hp) nw
  case record =>
    intro i x d b ca o q hx hn hb hca hl hp h1 h2
    subst hb hca
    have hw := writeRecord_local (k := d.recStep) (hm := (h, s.mem)) hl h1 h2
    have hc := completeNext_written (hm := (h, s.mem)) hx hn hp rfl hw
    refine ⟨fun t hs hst ht nw => ?_, fun g y t hor hg hy ht nw => ?_⟩
    · subst ht
      exact hcomp (hc.trans (if_pos (by rw [hs, decide_eq_true hst]; rfl))) nw
    · subst hg hy ht
      refine hcomp (hc.trans (if_neg ?_)) nw
      rcases hor with hs | hf
      · rw [hs, Bool.false_and]
        decide
      · rw [hf]
        simp
  case atomic =>
    intro i q d a hf ho
    exact ⟨fun hp hs hb => hhalt (channelHalt_halts (hm := (h, s.mem)) hf hp (.inl ho) hs hb),
      fun hp => hhalt (channelHalt_passes (hm := (h, s.mem)) hf (.inl ⟨ho, hp⟩))⟩
  case move =>
    intro i q d a e hf ho hp he hw hl h1 h2 hs hb
    exact hhalt (channelHalt_halts (hm := (h, s.mem)) hf hp (.inr ⟨ho, e, he, hw, hl, h1, h2⟩) hs hb)

end Sys2Proof.Machine
end

/-!
PROOFS. The work of a ferry (chapter 13): MOVE and FILL by pieces, atomic operations, barriers and NOPs.
-/

section
namespace Sys2Proof.Machine

/-! ### A descriptor's step over a ferry -/

section
variable {s : State} {h : Hw} {i : Nat} {q : W32} {f : HM → HM} {t : HM} (hh : h = clearSent s.hw)
include hh

/-- A step whose ferry has no place for its accesses waits. -/
theorem ferry_full (hf : ferryFull h i q = true) : onAll s (ferrying i q f) = .next (s.withHw h) := by
  rw [← idle_ended hh]
  exact onAll_routedHw hh (ferrying_full hf)

/-- A step none of whose accesses has to wait. -/
theorem ferry_row (hf : ferryFull h i q = false) (he : f (h, s.mem) = t) (nw : NoWait t.1) :
    onAll s (ferrying i q f) = .next (s.ferried i q t) := by
  subst he
  exact onAll_routed hh (ferrying_done hf nw)

/-- A step that does nothing, of a descriptor with no access outstanding. -/
theorem ferried_idle (ho : ∀ o, o ∈ h.eng.outs → outOf i q o = false) : s.ferried i q (h, s.mem) = s.withHw h := by
  have hfilter : h.eng.outs.filter (fun x => !outOf i q x) = h.eng.outs :=
    List.filter_eq_self.2 (fun o hm => by rw [ho o hm]; rfl)
  have hwrites : ∀ w ∈ h.arch.writes, w.by_ ≠ .course := by
    subst hh
    intro w hw
    obtain ⟨v, -, rfl⟩ := List.mem_map.1 hw
    by_cases hv : v.by_ = .course
    · rw [if_pos hv]
      exact fun e => by cases e
    · rw [if_neg hv]
      exact hv
  have htag : tagWrites (setOuts h (h.eng.outs.filter (fun x => !outOf i q x))) (.slip i q) = h := by
    have hmap : h.arch.writes.map (fun w => if w.by_ = Actor.course then { w with by_ := Actor.slip i q } else w) = h.arch.writes :=
      (List.map_congr_left (fun w hw => if_neg (hwrites w hw))).trans (List.map_id' _)
    rw [hfilter]
    unfold tagWrites setOuts
    dsimp only
    rw [hmap]
  rw [State.ferried, htag]
  exact idle_ended hh

end

/-- A ferry has no place left for a kind of access of a descriptor where 256 of others are outstanding. -/
theorem ferryFull_of_outs {h : Hw} {i : Nat} {q : W32} {d : Desc} {e : Extent} (hd : findDesc (slipAt h i) q = some d) (he : e ∈ d.extents)
    (hl : 256 ≤ (h.eng.outs.filter (fun o => decide (o.write = e.wr ∧ ferryOf h o.slip = ferryOf h i) &&
      (findDesc (slipAt h o.slip) o.seq).isSome && !outOf i q o)).length) : ferryFull h i q = true := by
  have hcount : outCount (setOuts h (h.eng.outs.filter (fun o => !outOf i q o))) (ferryOf h i) e.wr =
      (h.eng.outs.filter (fun o => decide (o.write = e.wr ∧ ferryOf h o.slip = ferryOf h i) &&
        (findDesc (slipAt h o.slip) o.seq).isSome && !outOf i q o)).length := by
    have e1 : outCount (setOuts h (h.eng.outs.filter (fun o => !outOf i q o))) (ferryOf h i) e.wr =
        ((h.eng.outs.filter (fun o => !outOf i q o)).filter (fun o => decide (o.write = e.wr ∧ ferryOf h o.slip = ferryOf h i) &&
          (findDesc (slipAt h o.slip) o.seq).isSome)).length := rfl
    rw [e1, List.filter_filter]
  have hkind : d.extents.any (fun x => decide (x.wr = e.wr)) = true := List.any_eq_true.2 ⟨e, he, decide_eq_true rfl⟩
  unfold ferryFull
  dsimp only
  rw [hd]
  refine List.any_eq_true.2 ⟨e.wr, by cases e.wr <;> decide, ?_⟩
  rw [hkind, Bool.true_or, Bool.true_and, hcount]
  exact decide_eq_true hl

/-! ### MOVE and FILL -/

/-- A MOVE or FILL command on the descriptor it names. -/
theorem moveStep_runs {hm : HM} {i op n : Nat} {q : W32} {d : Desc} (hr : runnable hm.1 i q = some d) (ho : opcode d = op) :
    moveStep hm i q op n = if engineCheck hm.1 i d ≠ 0 then (haltDesc hm.1 i d (engineCheck hm.1 i d), hm.2)
      else if inRegion3 hm.1 d then (haltDesc hm.1 i d 0x25, hm.2) else moveBytes (wholeBlocks d n + 1) hm i d (wholeBlocks d n) := by
  unfold moveStep
  rw [hr]
  dsimp only
  rw [if_neg (fun h => h ho)]

/-- A command that names no such descriptor does nothing. -/
theorem moveStep_other {hm : HM} {i op n : Nat} {q : W32} (ho : ∀ d, runnable hm.1 i q = some d → opcode d ≠ op) :
    moveStep hm i q op n = hm := by
  unfold moveStep
  cases hr : runnable hm.1 i q with
  | none => rfl
  | some d => exact if_pos (ho d hr)

theorem moveBytes_ends {fuel n i : Nat} {hm : HM} {d : Desc} (hp : leAt d.bytes 0x20 4 * leAt d.bytes 0x24 4 ≤ d.progress) :
    moveBytes (fuel + 1) hm i d n = (endDesc hm.1 i d (if d.off then 0x06 else if d.poison then 0x01 else 0) 0, hm.2) := by
  unfold moveBytes
  dsimp only
  rw [if_pos hp]
  rfl

/-- A move ends with its blocks or its row. -/
theorem wholeBlocks_bounds {d : Desc} {n len : Nat} (hl : len = leAt d.bytes 0x20 4) (h0 : 0 < len) :
    wholeBlocks d 0 = 0 ∧ n ≤ wholeBlocks d n ∧ (d.progress + wholeBlocks d n) / len ≤ (d.progress + n + len - 1) / len := by
  have hzero : wholeBlocks d 0 = 0 := if_pos (.inr rfl)
  have hform : wholeBlocks d n = n ∨ ((d.progress + n) % len ≠ 0 ∧ n ≤ wholeBlocks d n ∧
      wholeBlocks d n ≤ n + (len - (d.progress + n) % len)) := by
    unfold wholeBlocks
    dsimp only
    rw [← hl, if_neg (Nat.pos_iff_ne_zero.1 h0)]
    by_cases hz : (d.progress + n) % len = 0 ∨ n = 0
    · exact .inl (if_pos hz)
    · rw [if_neg hz]
      refine .inr ⟨fun e => hz (.inl e), ?_⟩
      split_ifs <;> omega
  refine ⟨hzero, hform.elim (fun e => Nat.le_of_eq e.symm) (fun e => e.2.1), ?_⟩
  have hdiv := Nat.div_add_mod (d.progress + n) len
  have hmod := Nat.mod_lt (d.progress + n) h0
  rcases hform with e | ⟨hne, -, hle⟩
  · rw [e]
    exact Nat.div_le_div_right (by omega)
  · have hup : (d.progress + wholeBlocks d n) / len ≤ (d.progress + n) / len + 1 := by
      rw [← Nat.add_div_right _ h0]
      calc (d.progress + wholeBlocks d n) / len
          ≤ (len * ((d.progress + n) / len) + len) / len := Nat.div_le_div_right (by omega)
        _ = (d.progress + n) / len + 1 := by rw [Nat.add_div_right _ h0, Nat.mul_div_cancel_left _ h0]
        _ = (d.progress + n + len) / len := (Nat.add_div_right _ h0).symm
    have hdown : (d.progress + n) / len + 1 ≤ (d.progress + n + len - 1) / len := by
      rw [Nat.le_div_iff_mul_le h0, Nat.add_mul, Nat.one_mul, Nat.mul_comm]
      omega
    exact hup.trans hdown

/-- The bytes of operands that do not overlap are those read. -/
theorem strangeMove_plain {d : Desc} {x : HM × Got} (ho : overlaps d = false) : strangeMove d x = x := by
  unfold strangeMove
  rw [ho]
  rfl

theorem strangeMove_free {d : Desc} {x : HM × Got} (ho : overlaps d = true) (hb : x.2.bytes ≠ []) :
    (strangeMove d x).2.bytes = (takeFreeBytes x.1.1 x.2.bytes.length).1 := by
  unfold strangeMove
  rw [ho, List.isEmpty_eq_false_iff.2 hb]
  rfl

/-- The operands of only a MOVE overlap. -/
theorem overlaps_fill {d : Desc} (ho : opcode d = 0x11) : overlaps d = false := by
  have e : decide (opcode d = 0x10) = false := decide_eq_false (by omega)
  unfold overlaps
  rw [e, Bool.false_and]

/-! ### Atomic operations -/

theorem atomicDesc_other {hm : HM} {i : Nat} {q : W32} (ho : ∀ d, runnable hm.1 i q = some d → opcode d ≠ 0x20) :
    atomicDesc hm i q = hm := by
  unfold atomicDesc
  cases hr : runnable hm.1 i q with
  | none => rfl
  | some d => exact if_pos (ho d hr)

section
variable {hm : HM} {i : Nat} {q : W32} {d : Desc} {ca left p a size : Nat} (hr : runnable hm.1 i q = some d) (ho : opcode d = 0x20)
  (he : extAddr d.extents 0 0 = some (ca, left)) (hp : p = slipOwner hm.1 i) (ha : a = compactLocal ca) (hs : size = leAt d.bytes 0x19 1)
include hr ho he hp ha hs

omit hp hs in
theorem atomicDesc_region (h3 : regionOf a ∈ [3, 4, 5]) : atomicDesc hm i q = (haltDesc hm.1 i d 0x23, hm.2) := by
  subst ha
  unfold atomicDesc
  rw [hr]
  dsimp only
  rw [if_neg (fun h => h ho), he]
  dsimp only
  rw [if_pos h3]

variable (h3 : regionOf a ∉ [3, 4, 5])
include h3

theorem atomicDesc_refused {x : Nat} (hv : verdict hm.1 p ca size true = .refused x) :
    atomicDesc hm i q = (haltRefused hm.1 i d x, hm.2) := by
  subst hp ha hs
  unfold atomicDesc
  rw [hr]
  dsimp only
  rw [if_neg (fun h => h ho), he]
  dsimp only
  rw [if_neg h3, hv]

theorem atomicDesc_absent (hv : verdict hm.1 p ca size true = .absent) :
    atomicDesc hm i q = (endDesc hm.1 i d (goneStatus hm.1) 0, hm.2) := by
  subst hp ha hs
  unfold atomicDesc
  rw [hr]
  dsimp only
  rw [if_neg (fun h => h ho), he]
  dsimp only
  rw [if_neg h3, hv]

theorem atomicDesc_off (hv : verdict hm.1 p ca size true = .off) : atomicDesc hm i q = (endDesc hm.1 i d 0x06 0, hm.2) := by
  subst hp ha hs
  unfold atomicDesc
  rw [hr]
  dsimp only
  rw [if_neg (fun h => h ho), he]
  dsimp only
  rw [if_neg h3, hv]

theorem atomicDesc_dead (hv : verdict hm.1 p ca size true = .dead) : atomicDesc hm i q = (endDesc hm.1 i d 0x01 0, hm.2) := by
  subst hp ha hs
  unfold atomicDesc
  rw [hr]
  dsimp only
  rw [if_neg (fun h => h ho), he]
  dsimp only
  rw [if_neg h3, hv]

theorem atomicDesc_remote {r : List Byte × Hw} (hv : verdict hm.1 p ca size true = .remote)
    (he : r = atomicAfar hm.1 p (if regionOf a ≤ 1 then 8 else 7) ca size (leAt d.bytes 0x20 size) (leAt d.bytes 0x30 size)
      (leAt d.bytes 0x18 1)) :
    atomicDesc hm i q = (if remoteStatus hm.1 p ca = 2 then endDesc r.2 i { d with poison := true } 0x01 0
      else endDesc r.2 i { d with begun := true, result := r.1 ++ zeros (16 - size) } 0 0, hm.2) := by
  rename_i hext
  subst he hp ha hs
  unfold atomicDesc
  rw [hr]
  dsimp only
  rw [if_neg (fun h => h ho), hext]
  dsimp only
  rw [if_neg h3, hv]
  dsimp only
  exact (apply_ite (·, hm.2) _ _ _).symm

theorem atomicDesc_poisoned (hv : verdict hm.1 p ca size true = .ok) (hb : poisoned hm.1 a = true) :
    atomicDesc hm i q = (endDesc hm.1 i { d with poison := true } 0x01 0, hm.2) := by
  subst hp ha hs
  unfold atomicDesc
  rw [hr]
  dsimp only
  rw [if_neg (fun h => h ho), he]
  dsimp only
  rw [if_neg h3, hv]
  exact if_pos hb

theorem atomicDesc_performs {r : HM × Nat} (hv : verdict hm.1 p ca size true = .ok) (hb : poisoned hm.1 a = false)
    (he : r = atomicAt hm false a (leAt d.bytes 0x18 1) size (leAt d.bytes 0x20 size) (leAt d.bytes 0x30 size)) :
    atomicDesc hm i q = (endDesc r.1.1 i { d with begun := true, result := leBytes 16 r.2 } 0 0, r.1.2) := by
  rename_i hext
  subst he hp ha hs
  unfold atomicDesc
  rw [hr]
  dsimp only
  rw [if_neg (fun h => h ho), hext]
  dsimp only
  rw [if_neg h3, hv]
  exact if_neg (by rw [hb]; decide)

end

/-- The verdict on an access to a member package. -/
theorem verdict_member {h : Hw} {p ca n : Nat} {w : Bool} (hl : isLocal h ca = false) (hm : isMember h (compactPos ca) = true)
    (hf : memberFenced h = false) (hr : regionOf (compactLocal ca) < 8) :
    verdict h p ca n w = (refusedAfar h p ca n).elim .remote (fun x => .refused (2 ^ 60 + x)) := by
  have hcond : ¬ ((!(isMember h (compactPos ca) && !memberFenced h)) = true) := by
    rw [hm, hf]
    decide
  unfold verdict
  rw [hl, if_pos (by decide), if_neg (Nat.not_le.2 hr), if_neg hcond]
  cases refusedAfar h p ca n <;> rfl

/-- The old value of an atomic operation at its home, and the bytes it leaves. -/
theorem atomicAt_old (hm : HM) (a op size x y : Nat) : (atomicAt hm false a op size x y).2 = leNat (cohRead hm.1 hm.2 a size) := by
  unfold atomicAt
  dsimp only
  exact (apply_ite Prod.snd _ _ _).trans (ite_self _)

theorem atomicAt_mem {hm : HM} {a op size x y : Nat} {k : ReqKind} (hk : k = (if regionOf a ≤ 1 then ReqKind.atomicMem else .atomicHome))
    (hr : notReady hm.1 (lineOf a) { kind := k, agent := .other } = false) :
    (atomicAt hm false a op size x y).1.2 =
      (cohWrite hm a (leBytes size (atomicNew op size (leNat (cohRead hm.1 hm.2 a size)) x y))).2 := by
  have hkind : (if regionOf a ≤ 1 ∧ false = false then ReqKind.atomicMem else .atomicHome) = k := by
    rw [hk]
    exact if_congr (and_iff_left rfl) rfl rfl
  unfold atomicAt
  dsimp only
  rw [hkind, if_neg (by rw [hr]; decide)]

/-! ### Barriers and NOPs -/

theorem barrierDesc_ends {h : Hw} {i : Nat} {q : W32} {d : Desc} (hf : findDesc (slipAt h i) q = some d)
    (hc : opcode d = 0x30 ∧ d.phase = Phase.dispatched ∧ earlierDone (slipAt h i) d ∧ slipPending h i q = false) :
    barrierDesc h i q = endDesc h i d 0 0 := by
  unfold barrierDesc
  dsimp only
  rw [hf]
  exact if_pos hc

theorem barrierDesc_waits {h : Hw} {i : Nat} {q : W32} {d : Desc} (hf : findDesc (slipAt h i) q = some d)
    (hc : opcode d ≠ 0x30 ∨ d.phase ≠ .dispatched ∨ earlierDone (slipAt h i) d = false ∨ slipPending h i q = true) :
    barrierDesc h i q = h := by
  unfold barrierDesc
  dsimp only
  rw [hf]
  refine if_neg ?_
  rintro ⟨h1, h2, h3, h4⟩
  rw [h3, h4] at hc
  rcases hc with hc | hc | hc | hc
  · exact hc h1
  · exact hc h2
  · exact absurd hc (by decide)
  · exact absurd hc (by decide)

theorem barrierDesc_none {h : Hw} {i : Nat} {q : W32} (hf : findDesc (slipAt h i) q = none) : barrierDesc h i q = h := by
  unfold barrierDesc
  dsimp only
  rw [hf]

theorem nopDesc_runs {h : Hw} {i : Nat} {q : W32} {d : Desc} (hr : runnable h i q = some d) :
    nopDesc h i q = if opcode d = 0x31 then endDesc h i d 0 0 else h := by
  unfold nopDesc
  rw [hr]

theorem nopDesc_none {h : Hw} {i : Nat} {q : W32} (hr : runnable h i q = none) : nopDesc h i q = h := by
  unfold nopDesc
  rw [hr]

/-! ### Pieces of a move -/

/-- A FILL's piece into a bobbin. -/
theorem movePiece_fill {h : Hw} {m : Memory} {i n : Nat} {d : Desc} {t len loom off k : Nat} {bs : List Byte} {g : Hw} (ho : opcode d = 0x11)
    (hb : leAt d.bytes 0x29 1 = 1) (ht : t = d.progress) (hlen : len = leAt d.bytes 0x20 4)
    (hloom : loom = field (leAt d.bytes 0x18 8) 28 20) (hg : loomGhost h loom = false)
    (hoff : off = field (leAt d.bytes 0x18 8) 19 0 + rowOff len (leAt d.bytes 0x24 4) (leAt d.bytes 0x38 8) t)
    (hk : k = min (min n (len - t % len)) (4096 - off % 4096)) (h0 : 0 < k) (hkn : k ≤ n)
    (hbs : bs = (List.range k).map (fun j => BitVec.ofNat 8 (leAt d.bytes (0x40 + (t % len + j) % 8) 1)))
    (he : g = bobWrite (loomStall h loom off true) loom off bs false) :
    movePiece (h, m) i d n = ((if (off + k) % 4096 = 0 ∧ off - t % len ≤ (off + k - 1) / 4096 * 4096 ∧ d.scratch ≠ (off + k - 1) / 4096 + 1
        then bobMark g loom ((off + k - 1) / 4096) false else g, m), k, { d with begun := true, progress := t + k }) := by
  have hdst : dstOf d = { bobbin := true, base := leAt d.bytes 0x18 8, pitch := leAt d.bytes 0x38 8 } := by
    unfold dstOf
    rw [decide_eq_true hb, if_pos hb]
  have hmin : min (min n (len - t % len)) (min (4096 - off % 4096) n) = k := by omega
  have hstrange := strangeMove_plain (overlaps_fill ho) (x := ((h, m), { v := .ok, poison := false, bytes := bs }))
  subst ht
  unfold movePiece
  dsimp only
  rw [hdst]
  dsimp only
  rw [← hlen, ← hloom, ← hoff]
  simp only [↓reduceIte, ho, true_or, hmin, if_neg (Nat.pos_iff_ne_zero.1 h0), ← hbs, hstrange]
  rw [if_neg (by rw [hg]; decide), ← he]
  simp only [Bool.not_false, true_and, Bool.false_eq_true, ↓reduceIte, Bool.or_false, reduceCtorEq, decide_false]

/-- A MOVE's piece from buffer to buffer. -/
theorem movePiece_move {h : Hw} {m : Memory} {i n : Nat} {d : Desc} {t len so dof ca cb sleft room k : Nat} {r : HM × Got} {w : HM}
    (ho : opcode d = 0x10) (hb0 : leAt d.bytes 0x28 1 = 0) (hb1 : leAt d.bytes 0x29 1 = 0) (ht : t = d.progress)
    (hlen : len = leAt d.bytes 0x20 4) (hso : so = rowOff len (leAt d.bytes 0x24 4) (leAt d.bytes 0x30 8) t)
    (hdof : dof = rowOff len (leAt d.bytes 0x24 4) (leAt d.bytes 0x38 8) t) (he0 : extAddr d.extents 0 so = some (ca, sleft))
    (he1 : extAddr d.extents 1 dof = some (cb, room))
    (hk : k = min (min n (len - t % len)) (min (min room (64 - cb % 64)) (min sleft (2 ^ 21 - ca % 2 ^ 21)))) (h0 : 0 < k)
    (hr : r = strangeMove d (engineRead (h, m) (slipDie i) (slipOwner h i) (bitOf (leAt d.bytes 0x2A 1) 0) ca k (i + 1)))
    (hv : r.2.v = .ok) (hw : engineWrite r.1 (slipOwner h i) cb r.2.bytes r.2.poison = (w, .ok)) :
    movePiece (h, m) i d n = (w, k, { d with poison := d.poison || r.2.poison, begun := true, progress := t + k }) := by
  have hdst : dstOf d = { bobbin := false, base := 1, pitch := leAt d.bytes 0x38 8 } := by
    unfold dstOf
    rw [decide_eq_false (by omega), if_neg (by omega), if_pos ho]
  have hsrc : srcOf d = { bobbin := false, base := 0, pitch := leAt d.bytes 0x30 8 } := by
    unfold srcOf
    rw [decide_eq_false (by omega), if_neg (by omega)]
  subst ht
  unfold movePiece
  dsimp only
  rw [hdst, hsrc]
  dsimp only
  have hno : ¬ opcode d = 0x11 := by omega
  rw [← hlen, ← hso, ← hdof, he0, he1]
  simp only [Bool.false_eq_true, ↓reduceIte, hno, or_self]
  rw [← hk, if_neg (Nat.pos_iff_ne_zero.1 h0), ← hr, hv]
  dsimp only
  rw [hw]
  simp only [Bool.or_false, reduceCtorEq, decide_false]

/-! ### The operations of an ATOMIC -/

/-- The new value of an atomic operation on operands within its size. -/
theorem atomicNew_ops {w a b c : Nat} (ha : a < 2 ^ (8 * w)) (hb : b < 2 ^ (8 * w)) (hc : c < 2 ^ (8 * w)) :
    atomicNew 1 w a b c = (a + b) % 2 ^ (8 * w) ∧ atomicNew 2 w a b c = a &&& b ∧ atomicNew 3 w a b c = a ||| b ∧
    atomicNew 4 w a b c = a ^^^ b ∧ atomicNew 5 w a b c = b ∧
    atomicNew 6 w a b c = (if signed (8 * w) a ≤ signed (8 * w) b then a else b) ∧
    atomicNew 7 w a b c = (if signed (8 * w) b ≤ signed (8 * w) a then a else b) ∧
    atomicNew 8 w a b c = min a b ∧ atomicNew 9 w a b c = max a b ∧ atomicNew 10 w a b c = (if a = c then b else a) ∧
    (∀ f, f = (if w = 4 then binary32 else binary64) → atomicNew 11 w a b c = (encF f false (fadd (decF f a) (decF f b))).1) := by
  have ea := Nat.mod_eq_of_lt ha
  have eb := Nat.mod_eq_of_lt hb
  have ec := Nat.mod_eq_of_lt hc
  unfold atomicNew
  dsimp only
  rw [ea, eb, ec]
  exact ⟨rfl, rfl, rfl, rfl, rfl, rfl, rfl, rfl, rfl, rfl, fun f hf => hf ▸ rfl⟩

/-- Settles O53: a descriptor's step is its function's equation by what the descriptor names and what its accesses meet. -/
theorem ferryBodyRows : Obligations.FerryBodyRows := by
  intro s h hh
  refine ⟨?commands, fun i q ho => ferried_idle hh ho, ?full, ?move, fun d n len hl h0 hn => wholeBlocks_bounds hl h0,
    fun i n d t len loom off k bs g ho hb ht hlen hloom hg hoff hk h0 hkn hbs he =>
      movePiece_fill ho hb ht hlen hloom hg hoff hk h0 hkn hbs he,
    fun i n d t len so dof ca cb sleft room k r w ho hb0 hb1 ht hlen hso hdof he0 he1 hk h0 hr hv hw =>
      movePiece_move ho hb0 hb1 ht hlen hso hdof he0 he1 hk h0 hr hv hw,
    fun d x => ⟨strangeMove_plain, strangeMove_free⟩, ?atomic, ?home, ?barrier,
    fun i q hf => onHw_idle (f := fun h => barrierDesc h i q) hh (barrierDesc_none hf),
    fun i q hr => onHw_idle (f := fun h => nopDesc h i q) hh (nopDesc_none hr), ?nop, fun w a b c => atomicNew_ops⟩
  case commands =>
    intro i q n c op hc
    simp only [List.mem_cons, Prod.mk.injEq, List.not_mem_nil, or_false] at hc
    rcases hc with ⟨rfl, rfl⟩ | ⟨rfl, rfl⟩ | ⟨rfl, rfl⟩
    · exact ⟨ferry_full (f := fun hm => moveStep hm i q 0x10 n) hh,
        fun hf ho => ferry_row (f := fun hm => moveStep hm i q 0x10 n) hh hf (moveStep_other (hm := (h, s.mem)) ho) (cleared_noWait hh)⟩
    · exact ⟨ferry_full (f := fun hm => moveStep hm i q 0x11 n) hh,
        fun hf ho => ferry_row (f := fun hm => moveStep hm i q 0x11 n) hh hf (moveStep_other (hm := (h, s.mem)) ho) (cleared_noWait hh)⟩
    · exact ⟨ferry_full (f := fun hm => atomicDesc hm i q) hh,
        fun hf ho => ferry_row (f := fun hm => atomicDesc hm i q) hh hf (atomicDesc_other (hm := (h, s.mem)) ho) (cleared_noWait hh)⟩
  case full =>
    intro f e i q d hd hf he hl
    subst hf
    exact ferryFull_of_outs hd he hl
  case move =>
    intro i q n d c t k hr hc hf hk nw
    subst hk
    have hrow : ∀ {o}, (∀ op, opcode d = op → moveStep (h, s.mem) i q op n = o) → t = o → exec c s = .next (s.ferried i q t) := by
      intro o he ht
      subst ht
      rcases hc with ⟨rfl, ho⟩ | ⟨rfl, ho⟩
      · exact ferry_row (f := fun hm => moveStep hm i q 0x10 n) hh hf (he _ ho) nw
      · exact ferry_row (f := fun hm => moveStep hm i q 0x11 n) hh hf (he _ ho) nw
    have hrun : ∀ op, opcode d = op → moveStep (h, s.mem) i q op n = _ := fun op ho => moveStep_runs (hm := (h, s.mem)) hr ho
    have hmove : engineCheck h i d = 0 → inRegion3 h d = false → ∀ op, opcode d = op →
        moveStep (h, s.mem) i q op n = moveBytes (wholeBlocks d n + 1) (h, s.mem) i d (wholeBlocks d n) := fun h0 h3 op ho =>
      ((hrun op ho).trans (if_neg (fun hn => hn h0))).trans (if_neg (by rw [h3]; decide))
    exact ⟨fun h0 ht => hrow (fun op ho => (hrun op ho).trans (if_pos h0)) ht,
      fun h0 h3 ht => hrow (fun op ho => ((hrun op ho).trans (if_neg (fun hn => hn h0))).trans (if_pos h3)) ht,
      fun h0 h3 ht => hrow (hmove h0 h3) ht, fun h0 h3 hp ht => hrow (fun op ho => (hmove h0 h3 op ho).trans (moveBytes_ends hp)) ht⟩
  case atomic =>
    intro i q d ca left p a size v t hr ho he hp ha hs hv hf nw
    subst hv
    have hrow : ∀ {o}, atomicDesc (h, s.mem) i q = o → t = o → exec (.atomic i q) s = .next (s.ferried i q t) := fun {o} e ht =>
      ferry_row (f := fun hm => atomicDesc hm i q) hh hf (e.trans ht.symm) nw
    refine ⟨fun h3 ht => hrow (atomicDesc_region (hm := (h, s.mem)) hr ho he ha h3) ht, fun h3 => ⟨fun x hv ht => ?_, fun hv ht => ?_,
      fun hv ht => ?_, fun hv ht => ?_, fun r hl hm hmf hreg hre ht => ?_, fun hv hb ht => ?_, fun r hv hb hre ht => ?_⟩⟩
    · exact hrow (atomicDesc_refused (hm := (h, s.mem)) hr ho he hp ha hs h3 hv) ht
    · exact hrow (atomicDesc_absent (hm := (h, s.mem)) hr ho he hp ha hs h3 hv) ht
    · exact hrow (atomicDesc_off (hm := (h, s.mem)) hr ho he hp ha hs h3 hv) ht
    · exact hrow (atomicDesc_dead (hm := (h, s.mem)) hr ho he hp ha hs h3 hv) ht
    · have hverdict := verdict_member (p := p) (n := size) (w := true) hl hm hmf (ha ▸ hreg)
      cases hra : refusedAfar h p ca size with
      | none =>
        rw [hra] at hverdict ht
        exact hrow (atomicDesc_remote (hm := (h, s.mem)) hr ho he hp ha hs h3 hverdict hre) ht
      | some x =>
        rw [hra] at hverdict ht
        exact hrow (atomicDesc_refused (hm := (h, s.mem)) hr ho he hp ha hs h3 hverdict) ht
    · exact hrow (atomicDesc_poisoned (hm := (h, s.mem)) hr ho he hp ha hs h3 hv hb) ht
    · exact hrow (atomicDesc_performs (hm := (h, s.mem)) hr ho he hp ha hs h3 hv hb hre) ht
  case home =>
    intro a op size x y k r hk hr
    subst hr
    exact ⟨atomicAt_old (h, s.mem) a op size x y, fun hn => atomicAt_mem (hm := (h, s.mem)) hk hn⟩
  case barrier =>
    intro i q x d hx hf
    subst hx
    exact ⟨fun ho hp he hs => onHw_routed (f := fun h => barrierDesc h i q) hh (barrierDesc_ends hf ⟨ho, hp, he, hs⟩),
      fun hor => onHw_idle (f := fun h => barrierDesc h i q) hh (barrierDesc_waits hf hor)⟩
  case nop =>
    intro i q d hr
    exact ⟨fun ho => onHw_routed (f := fun h => nopDesc h i q) hh ((nopDesc_runs hr).trans (if_pos ho)),
      fun ho => onHw_idle (f := fun h => nopDesc h i q) hh ((nopDesc_runs hr).trans (if_neg ho))⟩

end Sys2Proof.Machine
end

/-!
PROOFS. Bolt operations (section 9.8): the tag of a bobbin slot whose object was retired meanwhile.
-/

section
namespace Sys2Proof.Machine

/-- The marks of granules leave the tags. -/
theorem bobMarks_tags (h : Hw) (l : List Nat) (loom slot pm : Nat) :
    (l.foldl (fun h g => bobMark h loom (16 * slot + g) (bitOf pm g)) h).tiers.tags = h.tiers.tags :=
  foldl_keeps (fun h => h.tiers.tags) (f := fun h g => bobMark h loom (16 * slot + g) (bitOf pm g)) (fun _ _ => rfl) l h

/-- Filling a slot of a bobbin writes its tag and no other. -/
theorem fillSlot_tags (h : Hw) (loom slot obj bolt version : Nat) (b : BoltData) :
    (fillSlot h loom slot obj bolt version b).tiers.tags =
      tabPut {} h.tiers.tags (loom * 16 + slot) { valid := true, obj := obj, bolt := bolt, version := version } := by
  unfold fillSlot
  dsimp only
  unfold setTag
  dsimp only
  rw [bobMarks_tags]
  rfl

/-- A fetch for an object retired meanwhile writes the slot's tag and deletes it again. -/
theorem fillFor_tags_retired {h : Hw} {d : Desc} {loom slot obj bolt version : Nat} {b : BoltData} (hr : retiredFor d obj = true) :
    (fillFor h d loom slot obj bolt version b).tiers.tags = tabDel (tabIns h.tiers.tags (loom * 16 + slot)
      { valid := true, obj := obj, bolt := bolt, version := version }) (loom * 16 + slot) := by
  have htag : ({ valid := true, obj := obj, bolt := bolt, version := version } : BobTag) ≠ {} := fun e => by cases e
  unfold fillFor
  dsimp only
  rw [if_pos hr]
  unfold setTag
  dsimp only
  rw [fillSlot_tags, tabPut, if_pos rfl, tabPut, if_neg htag]

/-- A state whose table of tags lists bobbin slot 0 twice. -/
def twiceTagged : Hw := { tiers := { tags := [(0, { valid := true }), (0, { valid := true })] } }

/-- A descriptor dispatched with object 0, which has been retired since. -/
def retiredDesc : Desc := { seq := 0, bytes := [], objs := [{ id := 0, record := {}, retired := true }] }

/-- Deleting the new tag leaves the slot's second entry. -/
theorem twiceTagged_fill (b : BoltData) : tagAt (fillFor (clearSent twiceTagged) retiredDesc 0 0 0 0 0 b) 0 0 = { valid := true } := by
  have htags : (clearSent twiceTagged).tiers.tags = [(0, { valid := true }), (0, { valid := true })] := rfl
  unfold tagAt
  rw [fillFor_tags_retired (by decide), htags]
  rfl

/-- Refutes O54: in a table of tags that lists a slot twice, the slot of a bolt whose object was retired meanwhile keeps a tag. -/
theorem not_boltRows : ¬ Obligations.BoltRows := by
  unfold Obligations.BoltRows
  intro hall
  obtain ⟨-, -, -, -, -, -, -, -, htag, -⟩ := hall { hw := twiceTagged } (clearSent twiceTagged) rfl
  have hnone := (htag retiredDesc 0 0 0 0 0 { bytes := [], pm := 0 } (by decide) (by decide)).2 (by decide)
  rw [twiceTagged_fill] at hnone
  cases hnone

end Sys2Proof.Machine
end

/-!
PROOFS. Weaves (chapter 14): checks, passes, bank swaps, drains and cuts, and the semirings.
-/

section
namespace Sys2Proof.Machine

/-- A row over the hardware and the byte memory that does nothing. -/
theorem onAll_idle {s : State} {h : Hw} {f : HM → HM} (hh : h = clearSent s.hw) (he : f (h, s.mem) = (h, s.mem)) :
    onAll s f = .next (s.withHw h) := by
  rw [← idle_ended hh]
  exact onAll_routedHw hh he

/-! ### The dispatch of a weave -/

section
variable {hm : HM} {i : Nat} {q : W32} {d : Desc}

theorem weaveDesc_none (hr : runnable hm.1 i q = none) : weaveDesc hm i q = hm := by
  unfold weaveDesc
  rw [hr]

theorem weaveDesc_passed (hr : runnable hm.1 i q = some d) (hc : opcode d ≠ 0x40 ∨ (runAt hm.1 i q).isSome) : weaveDesc hm i q = hm := by
  unfold weaveDesc
  rw [hr]
  exact if_pos hc

variable (hr : runnable hm.1 i q = some d) (ho : opcode d = 0x40) (hn : runAt hm.1 i q = none)
include hr ho hn

theorem weaveDesc_halts (hk : weaveCheck hm.1 i d ≠ 0) : weaveDesc hm i q = (haltDesc hm.1 i d (weaveCheck hm.1 i d), hm.2) := by
  unfold weaveDesc
  rw [hr]
  dsimp only
  rw [if_neg (by rw [ho, hn]; decide), if_pos hk]

variable (hk : weaveCheck hm.1 i d = 0)
include hk

theorem weaveDesc_fenced (hf : ∃ m ∈ wMembers d, unitFenced hm.1 3 (m / 4) = true) : weaveDesc hm i q = (endDesc hm.1 i d 0x07 0, hm.2) := by
  unfold weaveDesc
  rw [hr]
  dsimp only
  rw [if_neg (by rw [ho, hn]; decide), if_neg (not_not.2 hk), if_pos (List.any_eq_true.2 hf)]

variable (hf : ∀ m ∈ wMembers d, unitFenced hm.1 3 (m / 4) = false)
include hf

theorem weaveDesc_asleep (hp : ∃ m ∈ wMembers d, (islandAt hm.1 { kind := .quad, idx := m / 4 }).power ≠ .open) : weaveDesc hm i q = hm := by
  have hfence : (wMembers d).any (fun m => unitFenced hm.1 3 (m / 4)) = false := List.any_eq_false.2 (fun m hm => by rw [hf m hm]; decide)
  obtain ⟨m, hm1, hm2⟩ := hp
  unfold weaveDesc
  rw [hr]
  dsimp only
  rw [if_neg (by rw [ho, hn]; decide), if_neg (not_not.2 hk), hfence, if_neg (by decide),
    if_pos (List.any_eq_true.2 ⟨m, hm1, decide_eq_true hm2⟩)]

variable (hp : ∀ m ∈ wMembers d, (islandAt hm.1 { kind := .quad, idx := m / 4 }).power = .open)
include hp

/-- A weave whose checks pass and whose quads run looks up its operand bolts. -/
theorem weaveDesc_error {r : HM} {e : MissStop} (hm1 : missesFor hm i d = (r, .error e)) (nw : NoWait r.1) :
    weaveDesc hm i q = (missStop r.1 i d e, r.2) := by
  have hfence : (wMembers d).any (fun m => unitFenced hm.1 3 (m / 4)) = false := List.any_eq_false.2 (fun m hm => by rw [hf m hm]; decide)
  have hpower : (wMembers d).any (fun m => decide ((islandAt hm.1 { kind := .quad, idx := m / 4 }).power ≠ .open)) = false :=
    List.any_eq_false.2 (fun m hm => by rw [hp m hm]; decide)
  unfold weaveDesc
  rw [hr]
  dsimp only
  rw [if_neg (by rw [ho, hn]; decide), if_neg (not_not.2 hk), hfence, if_neg (by decide), hpower, if_neg (by decide), hm1]
  dsimp only
  rw [nw, if_neg (by decide)]

theorem weaveDesc_joins {r : HM} {ms : List Miss} {g : Hw} (hm1 : missesFor hm i d = (r, .ok ms)) (nw : NoWait r.1)
    (hg : g = addRunFor (putDesc r.1 i { d with begun := true })
      { slip := i, seq := q, units := wMembers d, cls := (slipAt r.1 i).cls, total := wPasses d }) :
    weaveDesc hm i q = (grantTransit { g with tiers := { g.tiers with misses := g.tiers.misses ++ ms } }, r.2) := by
  have hfence : (wMembers d).any (fun m => unitFenced hm.1 3 (m / 4)) = false := List.any_eq_false.2 (fun m hm => by rw [hf m hm]; decide)
  have hpower : (wMembers d).any (fun m => decide ((islandAt hm.1 { kind := .quad, idx := m / 4 }).power ≠ .open)) = false :=
    List.any_eq_false.2 (fun m hm => by rw [hp m hm]; decide)
  subst hg
  unfold weaveDesc
  rw [hr]
  dsimp only
  rw [if_neg (by rw [ho, hn]; decide), if_neg (not_not.2 hk), hfence, if_neg (by decide), hpower, if_neg (by decide), hm1]
  dsimp only
  rw [nw, if_neg (by decide)]

end

/-- A gang that does not begin at a multiple of its size. -/
theorem weaveCheck_misaligned {h : Hw} {i : Nat} {d : Desc} (hg : wGang d % gangSize (wShape d) ≠ 0) : weaveCheck h i d = 0x40 := by
  unfold weaveCheck
  dsimp only
  exact if_pos (.inl hg)

/-! ### A pass and its banks -/

/-- The lowest bank that is free on every member. -/
theorem freeBank_found {l : List Nat} {b : Nat} (hb : (b = 0 ∧ 0 ∉ l) ∨ (b = 1 ∧ 0 ∈ l ∧ 1 ∉ l)) :
    [0, 1].find? (fun b => decide (b ∉ l)) = some b := by
  rcases hb with ⟨rfl, h0⟩ | ⟨rfl, h0, h1⟩
  · simp [List.find?, h0]
  · simp [List.find?, h0, h1]

section
variable {h : Hw} {i : Nat} {q : W32}

theorem passStart_none (hn : runAt h i q = none ∨ findDesc (slipAt h i) q = none) : passStart h i q = h := by
  unfold passStart
  rcases hn with hn | hn
  · rw [hn]
  · rw [hn]
    cases runAt h i q <;> rfl

theorem bankSwap_none (p : Bool) (hn : runAt h i q = none ∨ findDesc (slipAt h i) q = none) : bankSwap h i q p = h := by
  unfold bankSwap
  rcases hn with hn | hn
  · rw [hn]
  · rw [hn]
    cases runAt h i q <;> rfl

theorem drainBank_none (hn : runAt h i q = none ∨ findDesc (slipAt h i) q = none) : drainBank h i q = h := by
  unfold drainBank
  rcases hn with hn | hn
  · rw [hn]
  · rw [hn]
    cases runAt h i q <;> rfl

theorem passCut_none (hn : runAt h i q = none ∨ findDesc (slipAt h i) q = none) : passCut h i q = h := by
  unfold passCut
  rcases hn with hn | hn
  · rw [hn]
  · rw [hn]
    cases runAt h i q <;> rfl

variable {r : Run} {d : Desc} (hr : runAt h i q = some r) (hd : findDesc (slipAt h i) q = some d)
include hr hd

/-- PASS_START gives nothing where both banks are in use, where the descriptor is no weave, or without a grant. -/
theorem passStart_idle (hc : opcode d ≠ 0x40 ∨ grantedRun h r = false ∨ (0 ∈ busyBanks h r ∧ 1 ∈ busyBanks h r)) : passStart h i q = h := by
  unfold passStart
  rw [hr, hd]
  dsimp only
  rcases hc with hc | hc | ⟨h0, h1⟩
  · split
    · rfl
    · exact if_neg (fun hx => hc hx.1)
  · split
    · rfl
    · exact if_neg (fun hx => by rw [hc] at hx; cases hx.2)
  · have hfind : [0, 1].find? (fun b => decide (b ∉ busyBanks h r)) = none := by
      simp [List.find?, h0, h1]
    rw [hfind]

theorem passStart_begins {b : Nat} {g : Hw} (ho : opcode d = 0x40) (hg : grantedRun h r = true)
    (hb : (b = 0 ∧ 0 ∉ busyBanks h r) ∨ (b = 1 ∧ 0 ∈ busyBanks h r ∧ 1 ∉ busyBanks h r)) (he : g = passOver h r) :
    passStart h i q = putRun { g with
      weaves := { g.weaves with
        looms := (wMembers d).foldl (fun t m => tabMod {} t m (fun l => { l with
          cfg := wCfg d, mode := if r.next = 0 ∧ bitOf (leAt d.bytes 0x17 1) 7 then field (leAt d.bytes 0x17 1) 2 0 else l.mode })) h.weaves.looms } }
      { r with
        running := true, start := h.tb.now, bank := b, passed := none, next := r.next + 1,
        fresh := (wMembers d).any (fun m => decide ((tabGet {} h.weaves.looms m).cfg ≠ wCfg d)) || (decide (r.next = 0) && (busyBanks h r).isEmpty) } := by
  subst he
  unfold passStart
  rw [hr, hd]
  dsimp only
  rw [freeBank_found hb]
  dsimp only
  rw [if_pos ⟨ho, hg⟩]

theorem bankSwap_idle (p : Bool) (hc : opcode d ≠ 0x40 ∨ r.running = false) : bankSwap h i q p = h := by
  unfold bankSwap
  rw [hr, hd]
  dsimp only
  refine if_pos ?_
  rcases hc with hc | hc
  · exact .inr (.inl hc)
  · exact .inl (by rw [hc]; rfl)

theorem passCut_idle (hc : opcode d ≠ 0x40 ∨ r.running = false) : passCut h i q = h := by
  unfold passCut
  rw [hr, hd]
  dsimp only
  refine if_pos ?_
  rcases hc with hc | hc
  · exact .inr hc
  · exact .inl (by rw [hc]; rfl)

theorem bankSwap_late {t : Nat} (p : Bool)
    (ht : t = max h.tb.now (r.start + quadNs h (wGang d / 4) (stepCycles d + (if r.fresh then bcastCycles (wShape d) else 0))))
    (hl : r.start + 10 * leAt d.bytes 0x1E 2 < t) : bankSwap h i q p = h := by
  subst ht
  unfold bankSwap
  rw [hr, hd]
  dsimp only
  exact if_pos (.inr (.inr hl))

theorem bankSwap_swaps {t : Nat} {g y : Hw} {f : Tab Loom × Bool} {p : Bool} {x : Hw × Run} (ho : opcode d = 0x40) (hn : r.running = true)
    (ht : t = max h.tb.now (r.start + quadNs h (wGang d / 4) (stepCycles d + (if r.fresh then bcastCycles (wShape d) else 0))))
    (hl : t ≤ r.start + 10 * leAt d.bytes 0x1E 2) (hg : g = advanceTo h t)
    (hf : f = (List.range (gangSize (wShape d))).foldl (fun (acc : Tab Loom × Bool) m => (tabMod {} acc.1 (wGang d + m) (fun l =>
      if r.bank = 0 then { l with bank0 := (memberBank g d (r.next - 1) m).1 } else { l with bank1 := (memberBank g d (r.next - 1) m).1 }),
      acc.2 || (memberBank g d (r.next - 1) m).2)) (g.weaves.looms, false))
    (hy : y = { g with weaves := { g.weaves with looms := f.1 } })
    (hx : x = restamp (if p then corrected y 3 (wGang d / 4) (wGang d) none else y) { r with
      running := false, cyc := passBegin d r + stepCycles d + 1,
      swaps := if r.bank = 0 then [passBegin d r + stepCycles d + 1, r.swaps.getD 1 0] else [r.swaps.getD 0 0, passBegin d r + stepCycles d + 1],
      flags := r.flags ||| flag f.2,
      drains := r.drains ++ [{
        bank := r.bank, pass := r.next - 1, since := t, rows := (passPoison g d (r.next - 1)).1, cols := (passPoison g d (r.next - 1)).2.1,
        cells := (passPoison g d (r.next - 1)).2.2, all := p }] }) : bankSwap h i q p = putRun x.1 x.2 := by
  subst hx hy hf hg ht
  unfold bankSwap
  rw [hr, hd]
  dsimp only
  rw [if_neg]
  rintro (hc | hc | hc)
  · rw [hn] at hc
    cases hc
  · exact hc ho
  · exact absurd hl (Nat.not_le.2 hc)

theorem drainBank_empty (he : r.drains = []) : drainBank h i q = h := by
  unfold drainBank
  rw [hr, hd]
  dsimp only
  rw [he]

section
variable {k : Drain} {ks : List Drain} {g : Hw} {x : Hw × Run × Bool} (he : r.drains = k :: ks)
  (hg : g = advanceTo h (k.since + quadNs h (wGang d / 4) 72)) (hx : x = drainOne g d r)
include he hg hx

theorem drainBank_more (hc : x.2.1.done ≠ x.2.1.total) : drainBank h i q = putRun x.1 x.2.1 := by
  subst hx hg
  unfold drainBank
  rw [hr, hd]
  dsimp only
  rw [he]
  exact if_neg hc

theorem drainBank_last {e : Desc} (hc : x.2.1.done = x.2.1.total)
    (hd' : e = { d with poison := d.poison || x.2.1.poison, result := weaveResult x.2.1 }) :
    drainBank h i q = endDesc x.1 i e (endStatus e) 0 := by
  subst hd' hx hg
  unfold drainBank
  rw [hr, hd]
  dsimp only
  rw [he]
  exact if_pos hc

end

theorem passCut_cuts {x : Hw × Run} {g : Hw} (ho : opcode d = 0x40) (hn : r.running = true)
    (hx : x = drainAll 3 (advanceTo h (r.start + 10 * leAt d.bytes 0x1E 2)) d r)
    (hg : g = { x.1 with weaves := { x.1.weaves with looms := (wMembers d).foldl (fun t m => tabMod {} t m (fun l =>
      if r.bank = 0 then { l with bank0 := [] } else { l with bank1 := [] })) x.1.weaves.looms } }) :
    passCut h i q = haltDesc g i { d with result := weaveResult x.2 } 0x44 := by
  subst hg hx
  unfold passCut
  rw [hr, hd]
  dsimp only
  rw [if_neg]
  rintro (hc | hc)
  · rw [hn] at hc
    cases hc
  · exact hc ho

end

/-! ### The semirings -/

theorem floatAcc_sum {k : Nat} {a b : FV} (hk : k ∈ [0, 3, 4]) (ha : a ≠ .nan) (hb : b ≠ .nan) : floatAcc k a b = rne32 (fadd a b) := by
  unfold floatAcc
  rw [if_neg (fun h => h.elim ha hb)]
  simp only [List.mem_cons, List.not_mem_nil, or_false] at hk
  rcases hk with rfl | rfl | rfl <;> rfl

theorem floatAcc_least {a b : FV} (ha : a ≠ .nan) (hb : b ≠ .nan) : floatAcc 1 a b = (if flt (rne32 b) a then rne32 b else a) := by
  unfold floatAcc
  rw [if_neg (fun h => h.elim ha hb)]
  rfl

theorem floatAcc_greatest {a b : FV} (ha : a ≠ .nan) (hb : b ≠ .nan) : floatAcc 2 a b = (if flt a (rne32 b) then rne32 b else a) := by
  unfold floatAcc
  rw [if_neg (fun h => h.elim ha hb)]
  rfl

theorem intTerm_less (a b : Int) : intTerm 6 false a b = (if b < a then 1 else 0) :=
  if_congr (by simp only [Bool.false_eq_true, false_and, or_false]) rfl rfl

theorem intTerm_lessEq (a b : Int) : intTerm 6 true a b = (if b ≤ a then 1 else 0) :=
  if_congr (by rw [Int.le_iff_lt_or_eq]; simp only [true_and, eq_comm]) rfl rfl

/-- Sums of an INT32 accumulator are those of the semirings that select nothing. -/
theorem intAcc_sum {k : Nat} (hk : k ∈ [0, 3, 4, 5, 6]) (w : Bool) (a t : Int) :
    intAcc k w a t = if w then (signed 32 (unsigned 32 (a + t)), false)
      else if a + t > 2 ^ 31 - 1 then (2 ^ 31 - 1, true) else if a + t < -(2 ^ 31) then (-(2 ^ 31), true) else (a + t, false) := by
  simp only [List.mem_cons, List.not_mem_nil, or_false] at hk
  rcases hk with rfl | rfl | rfl | rfl | rfl <;> rfl

theorem identityBits_zero {k : Nat} (hk : k ∈ [0, 3, 4, 5, 6]) (n : Bool) : identityBits k n = 0 := by
  simp only [List.mem_cons, List.not_mem_nil, or_false] at hk
  rcases hk with rfl | rfl | rfl | rfl | rfl <;> rfl

/-- Settles O55: a weave's rows are its functions' equations, by its checks, its run and its banks. -/
theorem weaveRows : Obligations.WeaveRows := by
  intro s h hh
  refine ⟨?weave, fun i d => ⟨rfl, rfl, fun a => rfl, rfl, rfl⟩, fun i q hc => ?_,
    fun i q d hr ho => onAll_idle (f := fun hm => weaveDesc hm i q) hh (weaveDesc_passed (hm := (h, s.mem)) hr (.inl ho)),
    fun i d => weaveCheck_misaligned, fun i q p hn => ⟨onHw_idle (f := fun h => passStart h i q) hh (passStart_none hn),
      onHw_idle (f := fun h => bankSwap h i q p) hh (bankSwap_none p hn), onHw_idle (f := fun h => drainBank h i q) hh (drainBank_none hn),
      onHw_idle (f := fun h => passCut h i q) hh (passCut_none hn)⟩, ?run,
    fun a b => ⟨rfl, rfl, rfl, rfl, rfl, rfl, fun k hk ha hb => floatAcc_sum hk ha hb,
      fun ha hb => ⟨floatAcc_least ha hb, floatAcc_greatest ha hb, rfl⟩⟩,
    fun ge a b => ⟨rfl, rfl, rfl, rfl, rfl, rfl, intTerm_less a b, intTerm_lessEq a b, rfl⟩,
    fun w a t => ⟨rfl, rfl, rfl, ?sums⟩, fun k n => ⟨fun hk => identityBits_zero hk n, ?ends⟩, rfl, rfl⟩
  case weave =>
    intro i q d hr ho hn
    refine ⟨fun hk => onAll_routedHw (f := fun hm => weaveDesc hm i q) hh (weaveDesc_halts (hm := (h, s.mem)) hr ho hn hk),
      fun m hk hm hf => onAll_routedHw (f := fun hm => weaveDesc hm i q) hh (weaveDesc_fenced (hm := (h, s.mem)) hr ho hn hk ⟨m, hm, hf⟩),
      fun hk hf => ⟨fun m hm hp => ?_, fun hp => ⟨fun e r he nw => ?_, fun r ms g he nw hg => ?_⟩⟩⟩
    · exact onAll_idle (f := fun hm => weaveDesc hm i q) hh (weaveDesc_asleep (hm := (h, s.mem)) hr ho hn hk hf ⟨m, hm, hp⟩)
    · exact onAll_routed (f := fun hm => weaveDesc hm i q) hh (weaveDesc_error (hm := (h, s.mem)) hr ho hn hk hf hp he nw)
    · exact onAll_routed (f := fun hm => weaveDesc hm i q) hh (weaveDesc_joins (hm := (h, s.mem)) hr ho hn hk hf hp he nw hg)
  · refine onAll_idle (f := fun hm => weaveDesc hm i q) hh ?_
    cases hr : runnable h i q with
    | none => exact weaveDesc_none (hm := (h, s.mem)) hr
    | some d =>
      refine weaveDesc_passed (hm := (h, s.mem)) hr (.inr (Option.isSome_iff_ne_none.2 (hc.resolve_left ?_)))
      rw [hr]
      exact Option.some_ne_none d
  case run =>
    intro i q r d hr hd
    refine ⟨fun ho p => ⟨onHw_idle (f := fun h => passStart h i q) hh (passStart_idle hr hd (.inl ho)),
        onHw_idle (f := fun h => bankSwap h i q p) hh (bankSwap_idle hr hd p (.inl ho)),
        onHw_idle (f := fun h => passCut h i q) hh (passCut_idle hr hd (.inl ho))⟩,
      fun g b ho hg hb he => onHw_routed (f := fun h => passStart h i q) hh (passStart_begins hr hd ho hg hb he),
      fun hc => onHw_idle (f := fun h => passStart h i q) hh (passStart_idle hr hd (.inr hc)),
      fun t g f y p x ho hn ht => ⟨fun hl => onHw_idle (f := fun h => bankSwap h i q p) hh (bankSwap_late hr hd p ht hl),
        fun hl hg hf hy hx => onHw_routed (f := fun h => bankSwap h i q p) hh (bankSwap_swaps hr hd ho hn ht hl hg hf hy hx)⟩,
      fun p hn => ⟨onHw_idle (f := fun h => bankSwap h i q p) hh (bankSwap_idle hr hd p (.inr hn)),
        onHw_idle (f := fun h => passCut h i q) hh (passCut_idle hr hd (.inr hn))⟩,
      fun he => onHw_idle (f := fun h => drainBank h i q) hh (drainBank_empty hr hd he),
      fun k ks g x he hg hx => ⟨fun hc => onHw_routed (f := fun h => drainBank h i q) hh (drainBank_more hr hd he hg hx hc),
        fun e hc hd' => onHw_routed (f := fun h => drainBank h i q) hh (drainBank_last hr hd he hg hx hc hd')⟩,
      fun x g ho hn hx hg => onHw_routed (f := fun h => passCut h i q) hh (passCut_cuts hr hd ho hn hx hg)⟩
  case sums =>
    intro k hk
    refine ⟨intAcc_sum hk true a t, fun hl => ?_, fun hl => ?_, fun h0 h1 => ?_⟩
    · rw [intAcc_sum hk, if_neg (by decide), if_pos hl]
    · rw [intAcc_sum hk, if_neg (by decide), if_neg (by omega), if_pos hl]
    · rw [intAcc_sum hk, if_neg (by decide), if_neg (by omega), if_neg (by omega)]
  case ends =>
    intro hk
    simp only [List.mem_cons, List.not_mem_nil, or_false] at hk
    rcases hk with rfl | rfl <;> exact ⟨rfl, rfl⟩

end Sys2Proof.Machine
end

/-!
PROOFS. Finishers (chapter 15): the dispatch of a finishing descriptor and of a VERIFY, and their rows and cuts.
-/

section
namespace Sys2Proof.Machine

/-! ### Dispatch -/

section
variable {h : Hw} {i op : Nat} {q : W32} {d : Desc}

/-- A finishing descriptor that nothing holds back and that has not joined goes through its checks. -/
theorem finDesc_new (hr : runnable h i q = some d) (ho : opcode d = op) (hn : runAt h i q = none) :
    finDesc h i q op = if finCheck h i d ≠ 0 then haltDesc h i d (finCheck h i d)
      else if unitFenced h 3 (fQuad d) then endDesc h i d 0x07 0
      else if (islandAt h { kind := .quad, idx := fQuad d }).power ≠ .open then h
      else addRunFor (putDesc h i { d with begun := true })
        { slip := i, seq := q, units := [512 + fQuad d], cls := (slipAt h i).cls, total := fRows d, cyc := 16 } := by
  unfold finDesc
  rw [hr]
  exact if_neg (fun h => h.elim (fun h => h ho) (fun h => by rw [hn] at h; cases h))

theorem finDesc_other (hr : runnable h i q = some d) (ho : opcode d ≠ op) : finDesc h i q op = h := by
  unfold finDesc
  rw [hr]
  exact if_pos (.inl ho)

theorem finDesc_passed (hn : runnable h i q = none ∨ runAt h i q ≠ none) : finDesc h i q op = h := by
  unfold finDesc
  cases hr : runnable h i q with
  | none => rfl
  | some d => exact if_pos (.inr (Option.isSome_iff_ne_none.2 (hn.resolve_left (by rw [hr]; exact Option.some_ne_none d))))

/-- A VERIFY that nothing holds back and that has not joined goes through its checks. -/
theorem verifyDesc_new {x : Ledger} (hr : runnable h i q = some d) (ho : opcode d = 0x78) (hn : runAt h i q = none)
    (hx : x = ledgerAt h (vLedger d)) :
    verifyDesc h i q = if verifyCheck h i d ≠ 0 then haltDesc h i d (verifyCheck h i d)
      else if x.poison ≠ 0 then endDesc h i { d with poison := true, result := verifyResult x 0 0 0 0 } 0x01 0
      else if unitFenced h 3 (fQuad d) then endDesc h i d 0x07 0
      else if (islandAt h { kind := .quad, idx := fQuad d }).power ≠ .open then h
      else addRunFor (putDesc h i { d with begun := true }) {
        slip := i, seq := q, units := [512 + fQuad d], cls := (slipAt h i).cls, total := vDrafts d + 1, cyc := 16, gen := x.gen.toNat } := by
  subst hx
  unfold verifyDesc
  rw [hr]
  exact if_neg (fun h => h.elim (fun h => h ho) (fun h => by rw [hn] at h; cases h))

theorem verifyDesc_other (hr : runnable h i q = some d) (ho : opcode d ≠ 0x78) : verifyDesc h i q = h := by
  unfold verifyDesc
  rw [hr]
  exact if_pos (.inl ho)

theorem verifyDesc_passed (hn : runnable h i q = none ∨ runAt h i q ≠ none) : verifyDesc h i q = h := by
  unfold verifyDesc
  cases hr : runnable h i q with
  | none => rfl
  | some d => exact if_pos (.inr (Option.isSome_iff_ne_none.2 (hn.resolve_left (by rw [hr]; exact Option.some_ne_none d))))

end

/-! ### Rows and cuts -/

theorem rowEnd_none {hm : HM} {i : Nat} {q : W32} {p : Bool} (hn : runAt hm.1 i q = none ∨ findDesc (slipAt hm.1 i) q = none) :
    rowEnd hm i q p = hm := by
  unfold rowEnd
  rcases hn with hn | hn
  · rw [hn]
  · rw [hn]
    cases runAt hm.1 i q <;> rfl

theorem rowCut_none {h : Hw} {i : Nat} {q : W32} (hn : runAt h i q = none ∨ findDesc (slipAt h i) q = none) : rowCut h i q = h := by
  unfold rowCut
  rcases hn with hn | hn
  · rw [hn]
  · rw [hn]
    cases runAt h i q <;> rfl

theorem rowEnd_at {hm : HM} {i : Nat} {q : W32} {r : Run} {d : Desc} {p : Bool} (hr : runAt hm.1 i q = some r)
    (hd : findDesc (slipAt hm.1 i) q = some d) :
    rowEnd hm i q p = if opcode d < 0x50 ∨ !grantedRun hm.1 r ∨ quadNs hm.1 (fQuad d) (rowCycles d) > fLimit d then hm
      else if opcode d = 0x78 then settle (verifyRowEnd hm i d r p) else (finRowEnd hm.1 i d r p, hm.2) := by
  unfold rowEnd
  rw [hr, hd]

theorem rowCut_at {h : Hw} {i : Nat} {q : W32} {r : Run} {d : Desc} (hr : runAt h i q = some r) (hd : findDesc (slipAt h i) q = some d) :
    rowCut h i q = if opcode d < 0x50 ∨ !grantedRun h r then h
      else if opcode d = 0x78 then
        haltDesc (advanceTo h (h.tb.now + fLimit d)) i { d with result := verifyResult (ledgerAt h (vLedger d)) 0 0 0 r.cyc } 0x44
      else finRowCut h i d r := by
  unfold rowCut
  rw [hr, hd]

section
variable {hm : HM} {i : Nat} {q : W32} {r : Run} {d : Desc} {p : Bool} (hr : runAt hm.1 i q = some r)
  (hd : findDesc (slipAt hm.1 i) q = some d)
include hr hd

theorem rowEnd_idle (hc : opcode d < 0x50 ∨ grantedRun hm.1 r = false ∨ fLimit d < quadNs hm.1 (fQuad d) (rowCycles d)) :
    rowEnd hm i q p = hm := by
  rw [rowEnd_at hr hd]
  exact if_pos (hc.imp id (Or.imp (fun h => by rw [h]; rfl) id))

theorem rowCut_idle (hc : opcode d < 0x50 ∨ grantedRun hm.1 r = false) : rowCut hm.1 i q = hm.1 := by
  rw [rowCut_at hr hd]
  exact if_pos (hc.imp id (fun h => by rw [h]; rfl))

variable (ho : 0x50 ≤ opcode d) (hg : grantedRun hm.1 r = true)
include ho hg

/-- A granted row within its limit is done whole. -/
theorem rowEnd_granted (hl : quadNs hm.1 (fQuad d) (rowCycles d) ≤ fLimit d) :
    rowEnd hm i q p = if opcode d = 0x78 then settle (verifyRowEnd hm i d r p) else (finRowEnd hm.1 i d r p, hm.2) := by
  rw [rowEnd_at hr hd]
  refine if_neg ?_
  rintro (h | h | h)
  · omega
  · rw [hg] at h
    cases h
  · exact absurd hl (Nat.not_le.2 h)

theorem rowCut_granted : rowCut hm.1 i q = if opcode d = 0x78 then
      haltDesc (advanceTo hm.1 (hm.1.tb.now + fLimit d)) i { d with result := verifyResult (ledgerAt hm.1 (vLedger d)) 0 0 0 r.cyc } 0x44
    else finRowCut hm.1 i d r := by
  rw [rowCut_at hr hd]
  refine if_neg ?_
  rintro (h | h)
  · omega
  · rw [hg] at h
    cases h

end

section
variable {h g w : Hw} {i : Nat} {d : Desc} {r r1 : Run} {o : RowOut} {p b : Bool} {f : List Piece × Hw}
  (hg : g = loadMode (passOver (advanceTo h (h.tb.now + quadNs h (fQuad d) (rowCycles d))) r) d r)
  (hb : b = (r.tainted || p || (fReads d r.next).any (fun x => bobPoisoned g x.1 x.2.1 x.2.2)))
  (ho : o = finRow g d (tabGet 0 g.weaves.fmode (fQuad d)) r.next)
  (hf : f = (if fOverlap d then freePieces g (rowPieces d o b r.next) else (rowPieces d o b r.next, g)))
  (hw : w = (if p then (List.range r.next).foldl (fun u k => (fOutRanges d k).foldl (fun u x => (granulesOf x.2.1 x.2.2).foldl
      (fun u n => bobMark u x.1 n true) u) u) (corrected (writeTile f.2 f.1) 3 (fQuad d) (4 * fQuad d) none) else writeTile f.2 f.1))
  (h1 : r1 = { r with
    next := r.next + 1, done := r.done + 1, passed := none, tainted := r.tainted || p, poison := r.poison || b,
    flags := if b then r.flags else r.flags ||| o.flags, cyc := r.cyc + rowCycles d, first := if r.next = 0 then o.first else r.first })
include hg hb ho hf hw h1

/-- A row but the last gives the finisher up at its boundary. -/
theorem finRowEnd_goes (hc : r1.done ≠ r1.total) : finRowEnd h i d r p = putRun (restamp w r1).1 (restamp w r1).2 := by
  subst h1 hw hf ho hb hg
  exact if_neg hc

/-- The last row ends the descriptor. -/
theorem finRowEnd_ends {e : Desc} (hc : r1.done = r1.total) (he : e = { d with poison := d.poison || r1.poison, result := finResult r1 }) :
    finRowEnd h i d r p = endDesc w i e (endStatus e) 0 := by
  subst he h1 hw hf ho hb hg
  exact if_pos hc

end

/-- Each finishing command is the dispatch of its opcode. -/
theorem exec_finDesc {s : State} {i op : Nat} {q : W32} {c : Instr}
    (hc : (c, op) ∈ [(Instr.map i q, 0x50), (.reduce i q, 0x51), (.softmax i q, 0x52), (.norm i q, 0x53), (.select i q, 0x54), (.quant i q, 0x55),
      (.dequant i q, 0x56), (.sample i q, 0x57)]) : exec c s = onHw s (fun h => finDesc h i q op) := by
  simp only [List.mem_cons, Prod.mk.injEq, List.not_mem_nil, or_false] at hc
  rcases hc with ⟨rfl, rfl⟩ | ⟨rfl, rfl⟩ | ⟨rfl, rfl⟩ | ⟨rfl, rfl⟩ | ⟨rfl, rfl⟩ | ⟨rfl, rfl⟩ | ⟨rfl, rfl⟩ | ⟨rfl, rfl⟩ <;> rfl

/-- Settles O56: a finisher's rows are its functions' equations, by the descriptor's checks, its run and its limit. -/
theorem finisherRows : Obligations.FinisherRows := by
  intro s h hh
  refine ⟨?dispatch, ?passed, ?verify, fun i q p hn => ⟨?_, onHw_idle (f := fun h => rowCut h i q) hh (rowCut_none hn)⟩, ?rows,
    fun i d r g o r1 p b f w hg hb ho hf hw h1 => ⟨fun hc => finRowEnd_goes hg hb ho hf hw h1 hc,
      fun e hc he => finRowEnd_ends hg hb ho hf hw h1 hc he⟩⟩
  case dispatch =>
    intro i q d c op hr hn hc
    rw [exec_finDesc hc]
    refine ⟨fun ho => onHw_idle (f := fun h => finDesc h i q op) hh (finDesc_other hr ho), fun ho hk => ?_, fun ho hk hf => ?_,
      fun ho hk hf hp => ?_, fun ho hk hf hp => ?_⟩
    · exact onHw_routed hh ((finDesc_new hr ho hn).trans (if_pos hk))
    · exact onHw_routed hh ((finDesc_new hr ho hn).trans ((if_neg (not_not.2 hk)).trans (if_pos hf)))
    · refine onHw_idle (f := fun h => finDesc h i q op) hh ((finDesc_new hr ho hn).trans ?_)
      rw [if_neg (not_not.2 hk), hf, if_neg Bool.false_ne_true, if_pos hp]
    · refine onHw_routed hh ((finDesc_new hr ho hn).trans ?_)
      rw [if_neg (not_not.2 hk), hf, if_neg Bool.false_ne_true, if_neg (not_not.2 hp)]
  case passed =>
    intro i q c hn hc
    have hverify : exec (.verify i q) s = .next (s.withHw h) := onHw_idle (f := fun h => verifyDesc h i q) hh (verifyDesc_passed hn)
    have hfin : ∀ op, (c, op) ∈ [(Instr.map i q, 0x50), (.reduce i q, 0x51), (.softmax i q, 0x52), (.norm i q, 0x53), (.select i q, 0x54),
        (.quant i q, 0x55), (.dequant i q, 0x56), (.sample i q, 0x57)] → exec c s = .next (s.withHw h) := fun op ho =>
      (exec_finDesc ho).trans (onHw_idle (f := fun h => finDesc h i q op) hh (finDesc_passed hn))
    simp only [List.mem_cons, List.not_mem_nil, or_false] at hc
    rcases hc with rfl | rfl | rfl | rfl | rfl | rfl | rfl | rfl | rfl
    · exact hfin 0x50 (by simp)
    · exact hfin 0x51 (by simp)
    · exact hfin 0x52 (by simp)
    · exact hfin 0x53 (by simp)
    · exact hfin 0x54 (by simp)
    · exact hfin 0x55 (by simp)
    · exact hfin 0x56 (by simp)
    · exact hfin 0x57 (by simp)
    · exact hverify
  case verify =>
    intro i q d x hr hn hx
    refine ⟨fun ho => onHw_idle (f := fun h => verifyDesc h i q) hh (verifyDesc_other hr ho), fun ho hk => ?_, fun ho hk hp => ?_,
      fun ho hk hp hf => ?_, fun ho hk hp hf ha => ?_, fun ho hk hp hf ha => ?_⟩
    · exact onHw_routed (f := fun h => verifyDesc h i q) hh ((verifyDesc_new hr ho hn hx).trans (if_pos hk))
    · exact onHw_routed (f := fun h => verifyDesc h i q) hh ((verifyDesc_new hr ho hn hx).trans ((if_neg (not_not.2 hk)).trans (if_pos hp)))
    · refine onHw_routed (f := fun h => verifyDesc h i q) hh ((verifyDesc_new hr ho hn hx).trans ?_)
      rw [if_neg (not_not.2 hk), if_neg (not_not.2 hp), if_pos hf]
    · refine onHw_idle (f := fun h => verifyDesc h i q) hh ((verifyDesc_new hr ho hn hx).trans ?_)
      rw [if_neg (not_not.2 hk), if_neg (not_not.2 hp), hf, if_neg Bool.false_ne_true, if_pos ha]
    · refine onHw_routed (f := fun h => verifyDesc h i q) hh ((verifyDesc_new hr ho hn hx).trans ?_)
      rw [if_neg (not_not.2 hk), if_neg (not_not.2 hp), hf, if_neg Bool.false_ne_true, if_neg (not_not.2 ha)]
  · exact onAll_routed (f := fun hm => settle (rowEnd hm i q p)) hh (congrArg settle (rowEnd_none (hm := (h, s.mem)) hn))
  case rows =>
    intro i q r d p hr hd
    have hend : ∀ {o}, rowEnd (h, s.mem) i q p = o → exec (.rowEnd i q p) s = .next (s.settled o) := fun he =>
      onAll_routed (f := fun hm => settle (rowEnd hm i q p)) hh (congrArg settle he)
    refine ⟨fun hc => hend (rowEnd_idle (hm := (h, s.mem)) hr hd hc),
      fun hc => onHw_idle (f := fun h => rowCut h i q) hh (rowCut_idle (hm := (h, s.mem)) hr hd hc), fun ho h78 hg => ⟨fun hl => ?_, ?_⟩,
      fun h78 hg => ⟨fun hl => ?_, ?_⟩⟩
    · exact hend ((rowEnd_granted (hm := (h, s.mem)) hr hd ho hg hl).trans (if_neg h78))
    · exact onHw_routed (f := fun h => rowCut h i q) hh ((rowCut_granted (hm := (h, s.mem)) hr hd ho hg).trans (if_neg h78))
    · exact hend ((rowEnd_granted (hm := (h, s.mem)) hr hd (by omega) hg hl).trans (if_pos h78))
    · exact onHw_routed (f := fun h => rowCut h i q) hh ((rowCut_granted (hm := (h, s.mem)) hr hd (by omega) hg).trans (if_pos h78))

end Sys2Proof.Machine
end

/-!
PROOFS. Knots (sections 16.1 to 16.3): initialising, signalling, waiting, timeouts and the answers of other packages.
-/

section
namespace Sys2Proof.Machine

theorem onDesc_runs {h : Hw} {i op : Nat} {q : W32} {f : Desc → Hw} {d : Desc} (hr : runnable h i q = some d) (ho : opcode d = op) :
    onDesc h i q op f = f d := by
  unfold onDesc
  rw [hr]
  exact if_pos ho

theorem onDesc_idle {h : Hw} {i op : Nat} {q : W32} {f : Desc → Hw} (ho : ∀ d, runnable h i q = some d → opcode d ≠ op) :
    onDesc h i q op f = h := by
  unfold onDesc
  cases hr : runnable h i q with
  | none => rfl
  | some d => exact if_neg (ho d hr)

/-! ### KNOT_INIT -/

section
variable {h : Hw} {i n c m : Nat} {d : Desc} (hn : n = refKnot (leAt d.bytes 0x10 4)) (hc : c = leAt d.bytes 0x24 1)
  (hm : m = leAt d.bytes 0x40 32)
include hn

theorem knotInit_foreign (ho : knotOwner h n ≠ slipOwner h i) : knotInit h i d = haltDesc h i d 0x20 := by
  subst hn
  exact if_pos ho

include hc hm

theorem knotInit_outside (ho : knotOwner h n = slipOwner h i) (h1 : c = 1)
    (hx : h.ident.admitted = false ∨ bitOf m h.ident.position = false) : knotInit h i d = haltDesc h i d 0x42 := by
  subst hn hc hm
  refine (if_neg (not_not.2 ho)).trans (if_pos ?_)
  rw [decide_eq_true h1]
  rcases hx with hx | hx
  · rw [hx]
    rfl
  · rw [hx, Bool.not_false, Bool.or_true]
    rfl

theorem knotInit_writes {k : Knot} (ho : knotOwner h n = slipOwner h i)
    (hx : c ≠ 1 ∨ (h.ident.admitted = true ∧ bitOf m h.ident.position = true))
    (hk : k = {
      type := leAt d.bytes 0x14 1,
      value := BitVec.ofNat 64 (if leAt d.bytes 0x14 1 = 2 then leAt d.bytes 0x18 8 % 2 else leAt d.bytes 0x18 8),
      parties := leAt d.bytes 0x20 4, evmode := leAt d.bytes 0x15 1, irq := leAt d.bytes 0x16 2, cross := decide (c = 1),
      members := if c = 1 then m else 0, lastSig := h.ident.position, waitShown := (knotAt h n).waitShown }) :
    knotInit h i d = endDesc (setKnot (breakWaiters h n) n k) i { d with result := knotResult k.value.toNat 0 h.ident.position } 0 0 := by
  have hcross : ¬ (decide (c = 1) && (!h.ident.admitted || !bitOf m h.ident.position)) = true := by
    rcases hx with hx | ⟨ha, hb⟩
    · rw [decide_eq_false hx, Bool.false_and]
      decide
    · rw [ha, hb, Bool.not_true, Bool.or_self, Bool.and_false]
      decide
  subst hk hn hc hm
  unfold knotInit
  dsimp only
  rw [if_neg (not_not.2 ho), if_neg hcross]
  simp only [decide_eq_true_eq]

end

/-! ### KNOT_SIGNAL -/

section
variable {h : Hw} {i r n op x : Nat} {d : Desc} {a : KnotAns} (hr : r = leAt d.bytes 0x10 4)
include hr

/-- A signal on another package's knot. -/
theorem knotSignal_afar (hl : refLocal h r = false) :
    knotSignal h i d a = if !isMember h (field r 25 18) then endDesc h i d 0x05 0
      else if memberFenced h then endDesc h i d 0x08 0 else remoteEnd (postKnot h i d false) i d a := by
  subst hr
  unfold knotSignal
  dsimp only
  rw [hl, if_pos (by decide)]

variable (hn : n = refKnot r) (hop : op = leAt d.bytes 0x14 1) (hx : x = leAt d.bytes 0x18 8)
include hn hop hx

/-- A signal on a knot of this package. -/
theorem knotSignal_here (hl : refLocal h r = true) :
    knotSignal h i d a = if knotOwner h n ≠ slipOwner h i then haltDesc h i d 0x20
      else if (knotAt h n).broken then endDesc h i d 0x08 0
      else if (knotAt h n).poison then endDesc h i { d with poison := true } 0x01 0
      else if !sigAllowed (knotAt h n).type op then haltDesc h i d 0x40
      else endDesc (signalKnot h n op x h.ident.position) i
        { d with result := leBytes 8 (sigValue (knotAt h n) op x).toNat ++ leBytes 4 0 ++ leBytes 4 h.ident.position } 0 0 := by
  have hresult : ∀ v, knotResult v 0 h.ident.position = leBytes 8 v ++ leBytes 4 0 ++ leBytes 4 h.ident.position := fun v => by
    unfold knotResult
    rw [Nat.zero_min]
  subst hx hop hn hr
  unfold knotSignal
  dsimp only
  rw [hl, if_neg (by decide), hresult]

end

/-! ### KNOT_WAIT -/

section
variable {h : Hw} {i r n c x : Nat} {d : Desc} {a : KnotAns} (hr : r = leAt d.bytes 0x10 4)
include hr

section
variable (hl : refLocal h r = false)
include hl

theorem knotWait_absent (hm : isMember h (field r 25 18) = false) : knotWait h i d a = endDesc h i d 0x05 0 := by
  subst hr
  unfold knotWait
  dsimp only
  rw [hl, if_pos (by decide), hm, if_pos (by decide)]

theorem knotWait_fenced (hm : isMember h (field r 25 18) = true) (hf : memberFenced h = true) : knotWait h i d a = endDesc h i d 0x08 0 := by
  subst hr
  unfold knotWait
  dsimp only
  rw [hl, if_pos (by decide), hm, if_neg (by decide), if_pos hf]

theorem knotWait_held {g : Hw} (hm : isMember h (field r 25 18) = true) (hf : memberFenced h = false) (ha : a ∈ [KnotAns.held, .noEntry])
    (hg : g = putDesc (postKnot h i d true) i { d with phase := .waiting, since := h.tb.now }) :
    knotWait h i d a = { g with sync := { g.sync with
      remoteWaits := g.sync.remoteWaits ++ [(i, d.seq, if a = KnotAns.held then 1 else 0)] } } := by
  subst hg hr
  unfold knotWait
  dsimp only
  rw [hl, if_pos (by decide), hm, if_neg (by decide), hf, if_neg (by decide)]
  simp only [List.mem_cons, List.not_mem_nil, or_false] at ha
  rcases ha with rfl | rfl <;> rfl

theorem knotWait_answered (hm : isMember h (field r 25 18) = true) (hf : memberFenced h = false) (ha : a ∉ [KnotAns.held, .noEntry]) :
    knotWait h i d a = remoteEnd (postKnot h i d true) i { d with since := h.tb.now } a := by
  subst hr
  unfold knotWait
  dsimp only
  rw [hl, if_pos (by decide), hm, if_neg (by decide), hf, if_neg (by decide)]
  cases a with
  | held => exact absurd ha (by decide)
  | noEntry => exact absurd ha (by decide)
  | done v l => rfl
  | broken => rfl
  | notMember => rfl
  | badType => rfl
  | poisoned => rfl

end

variable (hl : refLocal h r = true) (hn : n = refKnot r) (hc : c = leAt d.bytes 0x14 1)
include hl hn hc

/-- A wait on a knot of this package. -/
theorem knotWait_here {g : Hw} {k : Knot} (hx : x = (if leAt d.bytes 0x15 1 = 1 then (knotAt h n).value.toNat / 2 ^ 32 else leAt d.bytes 0x18 8))
    (hg : g = (if leAt d.bytes 0x15 1 = 1 then signalKnot (putDesc h i { d with phase := .waiting, since := h.tb.now, begun := true }) n 3 1 h.ident.position
      else putDesc h i { d with phase := .waiting, since := h.tb.now, begun := true })) (hk : k = knotAt g n) :
    knotWait h i d a = if knotOwner h n ≠ slipOwner h i then haltDesc h i d 0x20
      else if (knotAt h n).broken then endDesc h i d 0x08 0
      else if (knotAt h n).poison then endDesc h i { d with poison := true } 0x01 0
      else if !condAllowed (knotAt h n).type c then haltDesc h i d 0x40
      else serveKnot (k.waiters.length + 2) n (setKnot g n { k with
        waiters := k.waiters ++ [{ slip := i, seq := d.seq, part := slipOwner h i, cond := c, x := x, since := h.tb.now }] }) := by
  subst hk hg hx hc hn hr
  unfold knotWait
  dsimp only
  rw [hl, if_neg (by decide)]

end

/-! ### The answers of other packages -/

section
variable {g : Hw} {i v l : Nat} {d : Desc}

theorem remoteEnd_signalled (ho : opcode d = 0x61) : remoteEnd g i d (.done v l) = endDesc g i { d with
    result := knotResult (v % 2 ^ 64) ((g.tb.now - d.since) / 1000) (l % 256) } 0 0 := by
  unfold remoteEnd
  dsimp only
  rw [if_neg (by rw [ho]; decide)]

theorem remoteEnd_waited (ho : opcode d = 0x62) : remoteEnd g i d (.done v l) =
    endDesc (accountSet g i d.seq (g.tb.now - d.since) (l % 256)) i { d with
      result := knotResult (v % 2 ^ 64) ((g.tb.now - d.since) / 1000) (l % 256) } 0 0 := by
  unfold remoteEnd
  dsimp only
  rw [if_pos ho]

end

section
variable {h : Hw} {i : Nat} {q : W32} {retry : Bool} {a : KnotAns}

/-- The waits of a descriptor that an answer is for: all of them, or those to be posted again. -/
def waitDue (i : Nat) (q : W32) (retry : Bool) (w : Nat × W32 × Nat) : Bool := decide (w.1 = i ∧ w.2.1 = q) && (!retry || decide (w.2.2 = 0))

theorem waitDue_iff {w : Nat × W32 × Nat} : waitDue i q retry w = true ↔ (w.1, w.2.1) = (i, q) ∧ (retry = true → w.2.2 = 0) := by
  unfold waitDue
  rw [Bool.and_eq_true, decide_eq_true_iff, Bool.or_eq_true, decide_eq_true_iff, Prod.mk.injEq, Bool.not_eq_true', ← Bool.not_eq_true, imp_iff_not_or]

theorem remoteAnswer_idle (hw : ∀ w, w ∈ h.sync.remoteWaits → (w.1, w.2.1) = (i, q) → retry = true ∧ w.2.2 ≠ 0) :
    remoteAnswer h i q retry a = h := by
  have hany : ¬ h.sync.remoteWaits.any (waitDue i q retry) = true := by
    rw [List.any_eq_true]
    rintro ⟨w, hm, hd⟩
    obtain ⟨hi, hz⟩ := waitDue_iff.1 hd
    obtain ⟨hr, h0⟩ := hw w hm hi
    exact h0 (hz hr)
  exact if_neg hany

variable {d : Desc} {g : Hw} (hd : findDesc (slipAt h i) q = some d)
  (hw : ∃ w, w ∈ h.sync.remoteWaits ∧ (w.1, w.2.1) = (i, q) ∧ (retry = true → w.2.2 = 0))
  (hg : g = (if retry then postKnot (advanceTo h (h.tb.now + 2000)) i d true else h))
include hd hw hg

theorem remoteAnswer_held (ha : a ∈ [KnotAns.held, .noEntry]) :
    remoteAnswer h i q retry a = { g with sync := { g.sync with
      remoteWaits := g.sync.remoteWaits.map (fun w => if waitDue i q retry w then (w.1, w.2.1, if a = KnotAns.held then 1 else w.2.2) else w) } } := by
  have hany : h.sync.remoteWaits.any (waitDue i q retry) = true := by
    obtain ⟨w, hm, hi, hz⟩ := hw
    exact List.any_eq_true.2 ⟨w, hm, waitDue_iff.2 ⟨hi, hz⟩⟩
  subst hg
  unfold remoteAnswer
  dsimp only
  rw [hd]
  refine (if_pos hany).trans ?_
  simp only [List.mem_cons, List.not_mem_nil, or_false] at ha
  rcases ha with rfl | rfl <;> rfl

theorem remoteAnswer_ends (ha : a ∉ [KnotAns.held, .noEntry]) (hf : findDesc (slipAt g i) q = some d) :
    remoteAnswer h i q retry a = remoteEnd { g with sync := { g.sync with
      remoteWaits := g.sync.remoteWaits.filter (fun w => !waitDue i q retry w) } } i d a := by
  have hany : h.sync.remoteWaits.any (waitDue i q retry) = true := by
    obtain ⟨w, hm, hi, hz⟩ := hw
    exact List.any_eq_true.2 ⟨w, hm, waitDue_iff.2 ⟨hi, hz⟩⟩
  unfold remoteAnswer
  dsimp only
  rw [hd]
  dsimp only
  rw [← hg, hf]
  refine (if_pos hany).trans ?_
  cases a with
  | held => exact absurd ha (by decide)
  | noEntry => exact absurd ha (by decide)
  | done v l => rfl
  | broken => rfl
  | notMember => rfl
  | badType => rfl
  | poisoned => rfl

end

/-! ### Releases and timeouts -/

section
variable {h : Hw} {n f : Nat} {k : Knot} (hk : knotAt h n = k)
include hk

theorem serveKnot_none (hf : firstRelease k false k.waiters = none) : serveKnot f n h = h := by
  cases f with
  | zero => rfl
  | succ f =>
    unfold serveKnot
    dsimp only
    rw [hk, hf]

variable {w : Waiter} {y : Knot} {g : Hw} (hf : firstRelease k false k.waiters = some w)
  (hy : y = { k with value := releaseValue k w.cond w.x, waiters := k.waiters.erase w }) (hg : g = setKnot h n y)
include hf hy hg

theorem serveKnot_remote {p : Nat} (hr : w.remote = some p) :
    serveKnot (f + 1) n h = serveKnot f n (postMsg g (partSet g w.part)
      { cls := .cmp, op := 2, dst := p, txn := w.tag, payload := leBytes 8 y.value.toNat ++ leBytes 4 y.lastSig }) := by
  subst hg hy
  rw [serveKnot]
  dsimp only
  rw [hk, hf]
  dsimp only
  rw [hr]

theorem serveKnot_local {d : Desc} (hr : w.remote = none) (hd : findDesc (slipAt g w.slip) w.seq = some d) :
    serveKnot (f + 1) n h = serveKnot f n (endDesc (accountWait g n w.slip w.seq w.since y.lastSig) w.slip { d with
      result := knotResult y.value.toNat ((h.tb.now - w.since) / 1000) y.lastSig } 0 0) := by
  subst hg hy
  rw [serveKnot]
  dsimp only
  rw [hk, hf]
  dsimp only
  rw [hr]
  dsimp only
  rw [hd]

end

theorem knotTimeout_none {h : Hw} {i : Nat} {q : W32} (hd : findDesc (slipAt h i) q = none) : knotTimeout h i q = h := by
  unfold knotTimeout
  rw [hd]

theorem knotTimeout_halts {h : Hw} {i : Nat} {q : W32} {d : Desc} (hd : findDesc (slipAt h i) q = some d) (ho : opcode d = 0x62)
    (hp : d.phase = .waiting) (ht : leAt d.bytes 0x20 4 ≠ 0) :
    knotTimeout h i q =
      haltDesc (withdrawWaits (advanceTo h (d.since + 1000 * leAt d.bytes 0x20 4)) i (fun k => decide (k = q))) i d 0x41 := by
  unfold knotTimeout
  rw [hd]
  exact if_pos ⟨ho, hp, ht⟩

theorem knotTimeout_idle {h : Hw} {i : Nat} {q : W32} {d : Desc} (hd : findDesc (slipAt h i) q = some d)
    (hc : opcode d ≠ 0x62 ∨ d.phase ≠ .waiting ∨ leAt d.bytes 0x20 4 = 0) : knotTimeout h i q = h := by
  unfold knotTimeout
  rw [hd]
  refine if_neg ?_
  rintro ⟨ho, hp, ht⟩
  rcases hc with hc | hc | hc
  · exact hc ho
  · exact hc hp
  · exact ht hc

/-! ### The operations of Tables 16.3 and 16.4 -/

section
variable {k : Knot} {x v n g a : Nat}

theorem sigValue_max (hv : v = k.value.toNat) (hx : x < 2 ^ 64) : sigValue k 7 x = BitVec.ofNat 64 (max v x) := by
  have e : sigValue k 7 x = BitVec.ofNat 64 (max k.value.toNat (x % 2 ^ 64)) := rfl
  rw [e, Nat.mod_eq_of_lt hx, hv]

/-- Arrivals at a barrier. -/
theorem sigValue_arrive (hn : n = x % 65536) (hg : g = k.value.toNat / 2 ^ 32) (ha : a = k.value.toNat % 2 ^ 32) :
    sigValue k 3 x = if n = 0 then k.value else if a + n ≥ k.parties then BitVec.ofNat 64 ((g + 1) % 2 ^ 32 * 2 ^ 32)
      else BitVec.ofNat 64 (g * 2 ^ 32 + a + n) := by
  subst hn hg ha
  rfl

theorem sigValue_adds (hv : v = k.value.toNat) (hn : n = x % 65536) (ha : a = v % 2 ^ 32) (h0 : 0 < n) (hp : a + n < k.parties) :
    sigValue k 3 x = BitVec.ofNat 64 (v + n) := by
  subst hv
  have hsum : k.value.toNat / 2 ^ 32 * 2 ^ 32 + a + n = k.value.toNat + n := by omega
  rw [sigValue_arrive hn rfl ha, if_neg (by omega), if_neg (by omega), hsum]

theorem sigValue_turns (hv : v = k.value.toNat) (hn : n = x % 65536) (hg : g = v / 2 ^ 32) (ha : a = v % 2 ^ 32) (h0 : 0 < n)
    (hp : k.parties ≤ a + n) : sigValue k 3 x = BitVec.ofNat 64 ((g + 1) % 2 ^ 32 * 2 ^ 32) := by
  subst hv
  rw [sigValue_arrive hn hg ha, if_neg (by omega), if_pos hp]

theorem sigValue_none (hn : n = x % 65536) (h0 : n = 0) : sigValue k 3 x = k.value :=
  (sigValue_arrive hn rfl rfl).trans (if_pos h0)

theorem releaseValue_keeps {c : Nat} (hc : c ∈ [1, 2, 4]) : releaseValue k c x = k.value := by
  simp only [List.mem_cons, List.not_mem_nil, or_false] at hc
  rcases hc with rfl | rfl | rfl <;> rfl

end

/-! ### The rows -/

section
variable {s : State} {h e : Hw} {i : Nat} {q : W32} {a : KnotAns} (hh : h = clearSent s.hw)
include hh

theorem knotInit_row {d : Desc} (hr : runnable h i q = some d) (ho : opcode d = 0x60) (he : knotInit h i d = e) :
    exec (.knotInit i q) s = .next (s.settled (e, s.mem)) :=
  onAll_routed (f := fun hm => settle (onDesc hm.1 i q 0x60 (knotInit hm.1 i), hm.2)) hh
    (congrArg (fun g => settle (g, s.mem)) ((onDesc_runs hr ho).trans he))

theorem knotSignal_row {d : Desc} (hr : runnable h i q = some d) (ho : opcode d = 0x61) (he : knotSignal h i d a = e) :
    exec (.knotSignal i q a) s = .next (s.settled (e, s.mem)) :=
  onAll_routed (f := fun hm => settle (onDesc hm.1 i q 0x61 (fun d => knotSignal hm.1 i d a), hm.2)) hh
    (congrArg (fun g => settle (g, s.mem)) ((onDesc_runs hr ho).trans he))

/-- A KNOT_WAIT of a descriptor that waits at no other package's knot. -/
theorem exec_knotWait (hw : ∀ w, w ∈ h.sync.remoteWaits → (w.1, w.2.1) ≠ (i, q)) (he : onDesc h i q 0x62 (fun d => knotWait h i d a) = e) :
    exec (.knotWait i q a) s = .next (s.settled (e, s.mem)) := by
  have hany : ¬ h.sync.remoteWaits.any (fun w => decide (w.1 = i ∧ w.2.1 = q)) = true := by
    rw [List.any_eq_true]
    rintro ⟨w, hm, hd⟩
    exact hw w hm (Prod.mk.injEq _ _ _ _ ▸ of_decide_eq_true hd)
  exact onAll_routed (f := fun hm => if hm.1.sync.remoteWaits.any (fun w => decide (w.1 = i ∧ w.2.1 = q)) then
    settle (remoteAnswer hm.1 i q false a, hm.2) else settle (onDesc hm.1 i q 0x62 (fun d => knotWait hm.1 i d a), hm.2)) hh
    ((if_neg hany).trans (congrArg (fun g => settle (g, s.mem)) he))

theorem knotWait_row {d : Desc} (hr : runnable h i q = some d) (ho : opcode d = 0x62) (hw : ∀ w, w ∈ h.sync.remoteWaits → (w.1, w.2.1) ≠ (i, q))
    (he : knotWait h i d a = e) : exec (.knotWait i q a) s = .next (s.settled (e, s.mem)) :=
  exec_knotWait hh hw ((onDesc_runs hr ho).trans he)

/-- A KNOT_WAIT of a descriptor that waits at another package's knot takes its later answer. -/
theorem knotWait_later (hw : ∃ w, w ∈ h.sync.remoteWaits ∧ (w.1, w.2.1) = (i, q)) :
    exec (.knotWait i q a) s = .next (s.settled (remoteAnswer h i q false a, s.mem)) := by
  have hany : h.sync.remoteWaits.any (fun w => decide (w.1 = i ∧ w.2.1 = q)) = true := by
    obtain ⟨w, hm, hi⟩ := hw
    exact List.any_eq_true.2 ⟨w, hm, decide_eq_true (Prod.mk.inj hi)⟩
  exact onAll_routed (f := fun hm => if hm.1.sync.remoteWaits.any (fun w => decide (w.1 = i ∧ w.2.1 = q)) then
    settle (remoteAnswer hm.1 i q false a, hm.2) else settle (onDesc hm.1 i q 0x62 (fun d => knotWait hm.1 i d a), hm.2)) hh (if_pos hany)

theorem knotTimeout_row (he : knotTimeout h i q = e) : exec (.knotTimeout i q) s = .next (s.settled (e, s.mem)) :=
  onAll_routed (f := fun hm => settle (knotTimeout hm.1 i q, hm.2)) hh (congrArg (fun g => settle (g, s.mem)) he)

end

/-- Settles O57: a knot's rows are its functions' equations, by the knot, its waiters and what other packages answer. -/
theorem knotRows : Obligations.KnotRows := by
  intro s h hh
  refine ⟨?others, ?init, ?signal, fun g i d => ⟨rfl, rfl, rfl, rfl, rfl, rfl, fun v l => remoteEnd_signalled, fun v l => remoteEnd_waited⟩, ?wait,
    fun i q a hw => knotWait_later hh hw,
    fun i q a => onAll_routed (f := fun hm => settle (remoteAnswer hm.1 i q true a, hm.2)) hh rfl,
    fun i q a d retry g => ⟨remoteAnswer_idle, fun hd hw hg => ⟨remoteAnswer_held hd hw hg, remoteAnswer_ends hd hw hg⟩⟩,
    fun k n f hk => ⟨serveKnot_none hk, fun w y g hf hy hg => ⟨fun p hr => serveKnot_remote hk hf hy hg hr,
      fun d hr hd => serveKnot_local hk hf hy hg hr hd⟩⟩,
    fun i q hd => knotTimeout_row hh (knotTimeout_none hd),
    fun i q d hd => ⟨fun ho hp ht => knotTimeout_row hh (knotTimeout_halts hd ho hp ht), fun hc => knotTimeout_row hh (knotTimeout_idle hd hc)⟩,
    fun k x v n g a hv hn hg ha => ⟨hv ▸ rfl, rfl, rfl, rfl, sigValue_max hv, sigValue_none hn, sigValue_adds hv hn ha,
      sigValue_turns hv hn hg ha, hg ▸ hv ▸ rfl, hv ▸ rfl, hv ▸ rfl, hv ▸ rfl, hg ▸ hv ▸ rfl, hv ▸ rfl, hv ▸ rfl, rfl,
      fun c hc => releaseValue_keeps hc⟩⟩
  case others =>
    intro i q a c op hc ho hw
    simp only [List.mem_cons, Prod.mk.injEq, List.not_mem_nil, or_false] at hc
    rcases hc with ⟨rfl, rfl⟩ | ⟨rfl, rfl⟩ | ⟨rfl, rfl⟩
    · exact onAll_routed (f := fun hm => settle (onDesc hm.1 i q 0x60 (knotInit hm.1 i), hm.2)) hh
        (congrArg (fun g => settle (g, s.mem)) (onDesc_idle ho))
    · exact onAll_routed (f := fun hm => settle (onDesc hm.1 i q 0x61 (fun d => knotSignal hm.1 i d a), hm.2)) hh
        (congrArg (fun g => settle (g, s.mem)) (onDesc_idle ho))
    · exact exec_knotWait hh (hw rfl) (onDesc_idle ho)
  case init =>
    intro i q d n k c m hr ho hn hc hm
    exact ⟨fun hx => knotInit_row hh hr ho (knotInit_foreign hn hx), fun hx h1 ha => knotInit_row hh hr ho (knotInit_outside hn hc hm hx h1 ha),
      fun hx h1 hk => knotInit_row hh hr ho (knotInit_writes hn hc hm hx h1 hk)⟩
  case signal =>
    intro i q d r n op x a hr ho hrf hn hop hx
    refine ⟨fun hl hw => ?_, fun hl hw hb => ?_, fun hl hw hb hp => ?_, fun hl hw hb hp => ⟨fun ht => ?_, fun ht => ?_⟩, fun hl hm => ?_,
      fun hl hm hf => ?_, fun hl hm hf => ?_⟩
    · exact knotSignal_row hh hr ho ((knotSignal_here hrf hn hop hx hl).trans (if_pos hw))
    · refine knotSignal_row hh hr ho ((knotSignal_here hrf hn hop hx hl).trans ?_)
      rw [if_neg (not_not.2 hw), if_pos hb]
    · refine knotSignal_row hh hr ho ((knotSignal_here hrf hn hop hx hl).trans ?_)
      rw [if_neg (not_not.2 hw), hb, if_neg Bool.false_ne_true, if_pos hp]
    · refine knotSignal_row hh hr ho ((knotSignal_here hrf hn hop hx hl).trans ?_)
      rw [if_neg (not_not.2 hw), hb, if_neg Bool.false_ne_true, hp, if_neg Bool.false_ne_true, ht, if_pos (by decide)]
    · refine knotSignal_row hh hr ho ((knotSignal_here hrf hn hop hx hl).trans ?_)
      rw [if_neg (not_not.2 hw), hb, if_neg Bool.false_ne_true, hp, if_neg Bool.false_ne_true, ht, if_neg (by decide)]
    · refine knotSignal_row hh hr ho ((knotSignal_afar hrf hl).trans ?_)
      rw [hm, if_pos (by decide)]
    · refine knotSignal_row hh hr ho ((knotSignal_afar hrf hl).trans ?_)
      rw [hm, if_neg (by decide), if_pos hf]
    · refine knotSignal_row hh hr ho ((knotSignal_afar hrf hl).trans ?_)
      rw [hm, if_neg (by decide), hf, if_neg (by decide)]
  case wait =>
    intro i q d r n c x a hr ho hw hrf hn hc hx
    refine ⟨fun hl hw' => ?_, fun hl hw' hb => ?_, fun hl hw' hb hp => ?_, fun hl hw' hb hp ht => ?_, fun g k hl hw' hb hp ht hg hk => ?_,
      fun hl hm => ?_, fun hl hm hf => ?_, fun g hl hm hf => ⟨fun ha hg => ?_, fun ha => ?_⟩⟩
    · exact knotWait_row hh hr ho hw ((knotWait_here hrf hl hn hc hx rfl rfl).trans (if_pos hw'))
    · refine knotWait_row hh hr ho hw ((knotWait_here hrf hl hn hc hx rfl rfl).trans ?_)
      rw [if_neg (not_not.2 hw'), if_pos hb]
    · refine knotWait_row hh hr ho hw ((knotWait_here hrf hl hn hc hx rfl rfl).trans ?_)
      rw [if_neg (not_not.2 hw'), hb, if_neg Bool.false_ne_true, if_pos hp]
    · refine knotWait_row hh hr ho hw ((knotWait_here hrf hl hn hc hx rfl rfl).trans ?_)
      rw [if_neg (not_not.2 hw'), hb, if_neg Bool.false_ne_true, hp, if_neg Bool.false_ne_true, ht, if_pos (by decide)]
    · refine knotWait_row hh hr ho hw ((knotWait_here hrf hl hn hc hx hg hk).trans ?_)
      rw [if_neg (not_not.2 hw'), hb, if_neg Bool.false_ne_true, hp, if_neg Bool.false_ne_true, ht, if_neg (by decide)]
    · exact knotWait_row hh hr ho hw (knotWait_absent hrf hl hm)
    · exact knotWait_row hh hr ho hw (knotWait_fenced hrf hl hm hf)
    · exact knotWait_row hh hr ho hw (knotWait_held hrf hl hm hf ha hg)
    · exact knotWait_row hh hr ho hw (knotWait_answered hrf hl hm hf ha)

end Sys2Proof.Machine
end

/-!
PROOFS. Pools (section 16.4): allocations, returns and the timeout of a queued allocation.
-/

section
namespace Sys2Proof.Machine

/-! ### A descriptor's operation at a sync island -/

section
variable {s : State} {h : Hw} {i op : Nat} {q : W32} {f : HM → Desc → HM} {o : HM} (hh : h = clearSent s.hw)
include hh

/-- An operation none of whose accesses has to wait: its writes are its descriptor's, and the queues are served after it. -/
theorem desc_settled {d : Desc} {e : HM} (hr : runnable h i q = some d) (ho : opcode d = op) (he : f (h, s.mem) d = e) (hk : o = tagged e i q)
    (nw : NoWait (settle o).1) : onAll s (waiting (fun hm => settle (onDescM hm i q op (f hm)))) = .next (s.settled o) := by
  have hrun : onDescM (h, s.mem) i q op (f (h, s.mem)) = o := by
    unfold onDescM
    rw [hr, hk, ← he]
    exact if_pos ho
  exact onAll_waiting (f := fun hm => settle (onDescM hm i q op (f hm))) hh (congrArg settle hrun) nw

/-- A descriptor of another opcode, or one not dispatched, is not touched. -/
theorem desc_untouched (ho : ∀ d, runnable h i q = some d → opcode d ≠ op) (hk : o = (h, s.mem)) (nw : NoWait (settle o).1) :
    onAll s (waiting (fun hm => settle (onDescM hm i q op (f hm)))) = .next (s.settled o) := by
  have hrun : onDescM (h, s.mem) i q op (f (h, s.mem)) = o := by
    rw [hk]
    unfold onDescM
    cases hr : runnable h i q with
    | none => rfl
    | some d => exact if_neg (ho d hr)
  exact onAll_waiting (f := fun hm => settle (onDescM hm i q op (f hm))) hh (congrArg settle hrun) nw

end

/-- A known pool and a list that fits pass the first check. -/
theorem poolKnown {x : Pool} {id n b c : Nat} (h63 : id ≤ 63) (hu : x.used = true) (hf : b ≠ 0 ∨ c ≤ n) :
    ¬ (id > 63 ∨ !x.used ∨ (b = 0 ∧ c > n)) := by
  rintro (h | h | ⟨h0, h2⟩)
  · omega
  · rw [hu] at h
    cases h
  · exact hf.elim (fun h => h h0) (fun h => by omega)

/-! ### POOL_ALLOC -/

section
variable {hm : HM} {i p id c : Nat} {d : Desc} {x : Pool} (hp : p = slipOwner hm.1 i) (hid : id = leAt d.bytes 0x10 1)
  (hc : c = leAt d.bytes 0x12 1) (hx : x = poolAt hm.1 p id)
include hp hid hx

theorem poolAlloc_stands (hq : ∃ w, w ∈ x.queue ∧ (w.slip, w.seq) = (i, d.seq)) :
    poolAlloc hm i d = (putDesc hm.1 i { d with phase := .waiting }, hm.2) := by
  subst hx hid hp
  obtain ⟨w, hw, he⟩ := hq
  exact if_pos (List.any_eq_true.2 ⟨w, hw, decide_eq_true (Prod.mk.inj he)⟩)

include hc

/-- An allocation that does not stand in the queue. -/
theorem poolAlloc_new (hq : ∀ w, w ∈ x.queue → (w.slip, w.seq) ≠ (i, d.seq)) :
    poolAlloc hm i d = if id > 63 ∨ !x.used ∨ (leAt d.bytes 0x18 8 = 0 ∧ c > 2) then (haltDesc hm.1 i d 0x44, hm.2)
      else if x.poison then (endDesc hm.1 i { d with poison := true } 0x01 0, hm.2)
      else if x.queue.isEmpty ∧ poolFreeCount x ≥ c then serveAlloc hm i p id d c
      else if leAt d.bytes 0x13 1 = 1 then (endDesc hm.1 i d 0x03 0, hm.2)
      else (setPool (putDesc hm.1 i { d with phase := .waiting, since := hm.1.tb.now, begun := true }) p id
        { x with queue := x.queue ++ [{ slip := i, seq := d.seq, count := c }] }, hm.2) := by
  have hany : ¬ x.queue.any (fun w => decide (w.slip = i ∧ w.seq = d.seq)) = true := by
    rw [List.any_eq_true]
    rintro ⟨w, hw, he⟩
    obtain ⟨h1, h2⟩ := of_decide_eq_true he
    exact hq w hw (by rw [h1, h2])
  subst hx hc hid hp
  exact if_neg hany

/-- Known pools and lists that fit pass the first check. -/
theorem poolAlloc_known (hq : ∀ w, w ∈ x.queue → (w.slip, w.seq) ≠ (i, d.seq)) (h63 : id ≤ 63) (hu : x.used = true)
    (hf : leAt d.bytes 0x18 8 ≠ 0 ∨ c ≤ 2) :
    poolAlloc hm i d = if x.poison then (endDesc hm.1 i { d with poison := true } 0x01 0, hm.2)
      else if x.queue.isEmpty ∧ poolFreeCount x ≥ c then serveAlloc hm i p id d c
      else if leAt d.bytes 0x13 1 = 1 then (endDesc hm.1 i d 0x03 0, hm.2)
      else (setPool (putDesc hm.1 i { d with phase := .waiting, since := hm.1.tb.now, begun := true }) p id
        { x with queue := x.queue ++ [{ slip := i, seq := d.seq, count := c }] }, hm.2) :=
  (poolAlloc_new hp hid hc hx hq).trans (if_neg (poolKnown h63 hu hf))

/-- An allocation that cannot be served at once. -/
theorem poolAlloc_late (hq : ∀ w, w ∈ x.queue → (w.slip, w.seq) ≠ (i, d.seq)) (h63 : id ≤ 63) (hu : x.used = true)
    (hf : leAt d.bytes 0x18 8 ≠ 0 ∨ c ≤ 2) (hb : x.poison = false) (hl : x.queue ≠ [] ∨ (x.tail - x.head).toNat < c) :
    poolAlloc hm i d = if leAt d.bytes 0x13 1 = 1 then (endDesc hm.1 i d 0x03 0, hm.2)
      else (setPool (putDesc hm.1 i { d with phase := .waiting, since := hm.1.tb.now, begun := true }) p id
        { x with queue := x.queue ++ [{ slip := i, seq := d.seq, count := c }] }, hm.2) := by
  refine (poolAlloc_known hp hid hc hx hq h63 hu hf).trans ?_
  rw [hb, if_neg Bool.false_ne_true]
  refine if_neg ?_
  rintro ⟨he, hn⟩
  rcases hl with hl | hl
  · exact hl (List.isEmpty_iff.1 he)
  · exact absurd hn (Nat.not_le.2 hl)

end

/-! ### POOL_FREE -/

section
variable {hm : HM} {i p id c : Nat} {d : Desc} {x : Pool} (hp : p = slipOwner hm.1 i) (hid : id = leAt d.bytes 0x10 1)
  (hc : c = leAt d.bytes 0x12 1) (hx : x = poolAt hm.1 p id)
include hp hid hc hx

theorem poolFree_unknown (hu : 63 < id ∨ x.used = false ∨ (leAt d.bytes 0x18 8 = 0 ∧ 8 < c)) :
    poolFree hm i d = (haltDesc hm.1 i d 0x44, hm.2) := by
  subst hx hc hid hp
  exact if_pos (hu.imp id (Or.imp (fun h => by rw [h]; rfl) id))

variable (h63 : id ≤ 63) (hu : x.used = true) (hf : leAt d.bytes 0x18 8 ≠ 0 ∨ c ≤ 8)
include h63 hu hf

theorem poolFree_poisoned (hb : x.poison = true) : poolFree hm i d = (endDesc hm.1 i { d with poison := true } 0x01 0, hm.2) := by
  have hk := poolKnown h63 hu hf
  subst hx hc hid hp
  exact (if_neg hk).trans (if_pos hb)

variable (hb : x.poison = false)
include hb

theorem poolFree_fails {r : HM} {b : Bad} (hi : freeIndices hm i d c = (r, .error b)) : poolFree hm i d = (failAccess r.1 i d b, r.2) := by
  have hk := poolKnown h63 hu hf
  subst hx hc hid hp
  unfold poolFree
  dsimp only
  rw [if_neg hk, hb, if_neg Bool.false_ne_true, hi]

theorem poolFree_badList {r : HM} {v : List Nat} (hi : freeIndices hm i d c = (r, .ok (true, v))) :
    poolFree hm i d = (endDesc r.1 i { d with poison := true } 0x01 0, r.2) := by
  have hk := poolKnown h63 hu hf
  subst hx hc hid hp
  unfold poolFree
  dsimp only
  rw [if_neg hk, hb, if_neg Bool.false_ne_true, hi]

variable {r : HM} {v : List Nat} (hi : freeIndices hm i d c = (r, .ok (false, v)))
include hi

theorem poolFree_overflows (hl : x.entries < (x.tail - x.head).toNat + c) : poolFree hm i d = (haltDesc r.1 i d 0x45, r.2) := by
  have hk := poolKnown h63 hu hf
  subst hx hc hid hp
  unfold poolFree
  dsimp only
  rw [if_neg hk, hb, if_neg Bool.false_ne_true, hi]
  exact if_pos hl

variable (hl : (x.tail - x.head).toNat + c ≤ x.entries)
include hl

section
variable {w : HM} {u : Verdict} (hw : poolPut (poolIndices r x v).1 p id (poolIndices r x v).2 d.seq.toNat = (w, u))
include hw

theorem poolFree_refused {a : Nat} (hv : u = .refused a) : poolFree hm i d = (haltRefused w.1 i d a, w.2) := by
  have hroom : ¬ poolFreeCount x + c > x.entries := Nat.not_lt.2 hl
  have hk := poolKnown h63 hu hf
  subst hv
  subst hx hc hid hp
  unfold poolFree
  dsimp only
  rw [if_neg hk, hb, if_neg Bool.false_ne_true, hi]
  dsimp only
  rw [if_neg hroom, hw]

theorem poolFree_absent (hv : u = .absent) : poolFree hm i d = (endDesc w.1 i d (goneStatus w.1) 0, w.2) := by
  have hroom : ¬ poolFreeCount x + c > x.entries := Nat.not_lt.2 hl
  have hk := poolKnown h63 hu hf
  subst hv
  subst hx hc hid hp
  unfold poolFree
  dsimp only
  rw [if_neg hk, hb, if_neg Bool.false_ne_true, hi]
  dsimp only
  rw [if_neg hroom, hw]

theorem poolFree_returns (hr : ∀ a, u ≠ .refused a) (ha : u ≠ .absent) :
    poolFree hm i d = settle (endDesc w.1 i { d with result := leBytes 16 (poolAt w.1 p id).tail.toNat } (if u = .off then 0x06 else 0) 0, w.2) := by
  have hroom : ¬ poolFreeCount x + c > x.entries := Nat.not_lt.2 hl
  have hk := poolKnown h63 hu hf
  subst hx hc hid hp
  unfold poolFree
  dsimp only
  rw [if_neg hk, hb, if_neg Bool.false_ne_true, hi]
  dsimp only
  rw [if_neg hroom, hw]
  cases u with
  | refused a => exact absurd rfl (hr a)
  | absent => exact absurd rfl ha
  | ok => rfl
  | off => rfl
  | dead => rfl
  | remote => rfl

end

end

/-! ### Indices and rings -/

theorem poolIndices_sound {hm : HM} {x : Pool} {v : List Nat} (hv : ∀ j, j ∈ v → j < x.entries) (hd : v.Nodup)
    (hr : ∀ k, k < (x.tail - x.head).toNat → k < x.entries → ringIndex hm x (x.head.toNat + k) ∉ v) : poolIndices hm x v = (hm, v) := by
  refine if_neg ?_
  unfold strangeIndices
  rw [Bool.or_eq_true, Bool.or_eq_true, List.any_eq_true, List.any_eq_true, decide_eq_true hd]
  rintro ((⟨j, hj, he⟩ | hn) | ⟨k, hk, he⟩)
  · exact absurd (of_decide_eq_true he) (Nat.not_le.2 (hv j hj))
  · cases hn
  · rw [List.mem_range, lt_min_iff] at hk
    exact hr k hk.1 hk.2 (of_decide_eq_true he)

theorem poolIndices_free {hm : HM} {x : Pool} {v : List Nat} (hb : (∃ j, j ∈ v ∧ x.entries ≤ j) ∨ ¬ v.Nodup ∨
    ∃ k, k < (x.tail - x.head).toNat ∧ k < x.entries ∧ ringIndex hm x (x.head.toNat + k) ∈ v) :
    poolIndices hm x v = (({ hm.1 with free := hm.1.free + 4 * v.length }, hm.2),
      (List.range v.length).map (fun j => leAt (takeFreeBytes hm.1 (4 * v.length)).1 (4 * j) 4)) := by
  refine if_pos ?_
  unfold strangeIndices
  rw [Bool.or_eq_true, Bool.or_eq_true, List.any_eq_true, List.any_eq_true]
  rcases hb with ⟨j, hj, he⟩ | hn | ⟨k, hk, hke, he⟩
  · exact .inl (.inl ⟨j, hj, decide_eq_true he⟩)
  · exact .inl (.inr (by rw [decide_eq_false hn]; rfl))
  · exact .inr ⟨k, List.mem_range.2 (lt_min_iff.2 ⟨hk, hke⟩), decide_eq_true he⟩

section
variable {hm : HM} {i p id c : Nat} {d : Desc} {r : HM}

theorem serveAlloc_fails {b : Bad} (ht : poolTake hm p id c = (r, .error b)) : serveAlloc hm i p id d c = (failAccess r.1 i d b, r.2) := by
  unfold serveAlloc
  dsimp only
  rw [ht]

theorem serveAlloc_poisoned {v : List Nat} (ht : poolTake hm p id c = (r, .ok (true, v))) :
    serveAlloc hm i p id d c = (endDesc r.1 i { d with poison := true } 0x01 0, r.2) := by
  unfold serveAlloc
  dsimp only
  rw [ht]

variable {v : List Nat} (ht : poolTake hm p id c = (r, .ok (false, v)))
include ht

theorem serveAlloc_inline (hb : buffersOf d = []) :
    serveAlloc hm i p id d c = (endDesc (tagWrites r.1 (.slip i d.seq)) i { d with
      result := leBytes 4 (v.getD 0 0) ++ leBytes 4 (v.getD 1 0xFFFFFFFF) ++ leBytes 4 (poolAt hm.1 p id).head.toNat ++ zeros 4 } 0 0, r.2) := by
  unfold serveAlloc
  dsimp only
  rw [ht]
  dsimp only
  unfold completeAlloc
  rw [hb]
  rfl

theorem serveAlloc_writes {w : HM} (hb : buffersOf d ≠ []) (hw : bufWrite r i d 0 (v.flatMap (leBytes 4)) = (w, .ok)) :
    serveAlloc hm i p id d c = (endDesc (tagWrites w.1 (.slip i d.seq)) i { d with
      result := leBytes 4 (v.getD 0 0) ++ leBytes 4 (v.getD 1 0xFFFFFFFF) ++ leBytes 4 (poolAt hm.1 p id).head.toNat ++ zeros 4 } 0 0, w.2) := by
  have he : (buffersOf d).isEmpty = false := by
    rw [← Bool.not_eq_true, List.isEmpty_iff]
    exact hb
  unfold serveAlloc
  dsimp only
  rw [ht]
  dsimp only
  unfold completeAlloc
  rw [he, if_neg Bool.false_ne_true, hw]
  rfl

end

section
variable {hm : HM} {p id n : Nat} {x : Pool} {r : HM} (hx : x = poolAt hm.1 p id)
include hx

theorem poolTake_takes {v : List Nat} (hr : readSlots hm x.die p (ringSlot x) x.head.toNat n = (r, .ok (false, v))) :
    poolTake hm p id n = ((setPool r.1 p id { x with head := x.head + BitVec.ofNat 32 n }, r.2), .ok (false, v)) := by
  subst hx
  unfold poolTake
  dsimp only
  rw [hr]

theorem poolTake_poisoned {v : List Nat} (hr : readSlots hm x.die p (ringSlot x) x.head.toNat n = (r, .ok (true, v))) :
    poolTake hm p id n = (r, .ok (true, v)) := by
  subst hx
  unfold poolTake
  dsimp only
  rw [hr]

theorem poolTake_fails {b : Bad} (hr : readSlots hm x.die p (ringSlot x) x.head.toNat n = (r, .error b)) :
    poolTake hm p id n = (r, .error b) := by
  subst hx
  unfold poolTake
  dsimp only
  rw [hr]

end

section
variable {hm : HM} {p id q n : Nat} {v : List Nat} {w : HM} {u : Verdict} {x : Pool} {g : Hw} {k : Knot} (hx : x = poolAt hm.1 p id)
  (hw : writeSlots hm p (ringSlot x) x.tail.toNat v = (w, u)) (hr : ∀ a, u ≠ .refused a) (ha : u ≠ .absent)
  (hg : g = setPool w.1 p id { x with tail := x.tail + BitVec.ofNat 32 v.length }) (hn : n = refKnot x.refill)
include hx hw hr ha hg hn

/-- Indices written to the ring raise TAIL, then signal the refill knot. -/
theorem poolPut_signals : poolPut hm p id v q = ((if knotOpen g p n then
      signalKnot g n (if (knotAt g n).type = 0 then (1, v.length) else headerSignal (knotAt g n) q).1
        (if (knotAt g n).type = 0 then (1, v.length) else headerSignal (knotAt g n) q).2 g.ident.position else g, w.2), u) := by
  subst hn hg hx
  unfold poolPut
  dsimp only
  rw [hw]
  cases u with
  | refused a => exact absurd rfl (hr a)
  | absent => exact absurd rfl ha
  | ok => rfl
  | off => rfl
  | dead => rfl
  | remote => rfl

theorem poolPut_closed (ho : knotOpen g p n = false) : poolPut hm p id v q = ((g, w.2), u) := by
  rw [poolPut_signals hx hw hr ha hg hn, ho, if_neg Bool.false_ne_true]

variable (hk : k = knotAt g n) (ho : knotOpen g p n = true)
include hk ho

theorem poolPut_counter (ht : k.type = 0) : poolPut hm p id v q = ((signalKnot g n 1 v.length g.ident.position, w.2), u) := by
  rw [poolPut_signals hx hw hr ha hg hn, ho, if_pos rfl, ← hk, if_pos ht]

theorem poolPut_other (ht : k.type ≠ 0) :
    poolPut hm p id v q = ((signalKnot g n (headerSignal k q).1 (headerSignal k q).2 g.ident.position, w.2), u) := by
  rw [poolPut_signals hx hw hr ha hg hn, ho, if_pos rfl, ← hk, if_neg ht]

end

/-! ### The timeout of a queued allocation -/

section
variable {hm : HM} {i op off : Nat} {q : W32}

theorem poolTimeout_none (hd : findDesc (slipAt hm.1 i) q = none) : poolTimeout hm i q op off = hm := by
  unfold poolTimeout
  rw [hd]

variable {d : Desc} (hd : findDesc (slipAt hm.1 i) q = some d)
include hd

theorem poolTimeout_ends {k : Nat} {p : Pool} {w : PoolWait} (ho : opcode d = op) (ht : leAt d.bytes off 4 ≠ 0) (hp : (k, p) ∈ hm.1.sync.pools)
    (hw : w ∈ p.queue) (he : (w.slip, w.seq) = (i, q)) :
    poolTimeout hm i q op off =
      settle (endDesc (withdrawWaits (advanceTo hm.1 (d.since + 1000 * leAt d.bytes off 4)) i (fun k => decide (k = q))) i d 0x03 0, hm.2) := by
  unfold poolTimeout
  rw [hd]
  exact if_pos ⟨ho, ht, List.any_eq_true.2 ⟨(k, p), hp, List.any_eq_true.2 ⟨w, hw, decide_eq_true (Prod.mk.inj he)⟩⟩⟩

theorem poolTimeout_idle (hc : opcode d ≠ op ∨ leAt d.bytes off 4 = 0 ∨
      ∀ k p, (k, p) ∈ hm.1.sync.pools → ∀ w, w ∈ p.queue → (w.slip, w.seq) ≠ (i, q)) : poolTimeout hm i q op off = hm := by
  unfold poolTimeout
  rw [hd]
  refine if_neg ?_
  rintro ⟨ho, ht, hq⟩
  obtain ⟨⟨k, p⟩, hp, hq⟩ := List.any_eq_true.1 hq
  obtain ⟨w, hw, he⟩ := List.any_eq_true.1 hq
  obtain ⟨h1, h2⟩ := of_decide_eq_true he
  rcases hc with hc | hc | hc
  · exact hc ho
  · exact ht hc
  · exact hc k p hp w hw (by rw [h1, h2])

end

/-! ### The rows -/

section
variable {s : State} {h : Hw} {i : Nat} {q : W32} {d : Desc} {e o : HM} (hh : h = clearSent s.hw)
include hh

theorem poolAlloc_row (hr : runnable h i q = some d) (ho : opcode d = 0x63) (he : poolAlloc (h, s.mem) i d = e) (hk : o = tagged e i q)
    (nw : NoWait (settle o).1) : exec (.poolAlloc i q) s = .next (s.settled o) :=
  desc_settled (f := fun hm => poolAlloc hm i) hh hr ho he hk nw

theorem poolFree_row (hr : runnable h i q = some d) (ho : opcode d = 0x64) (he : poolFree (h, s.mem) i d = e) (hk : o = tagged e i q)
    (nw : NoWait (settle o).1) : exec (.poolFree i q) s = .next (s.settled o) :=
  desc_settled (f := fun hm => poolFree hm i) hh hr ho he hk nw

theorem poolEmpty_idle (he : poolTimeout (h, s.mem) i q 0x63 0x14 = (h, s.mem)) : exec (.poolEmpty i q) s = .next (s.withHw h) := by
  rw [← idle_ended hh]
  exact onAll_waiting (f := fun hm => poolTimeout hm i q 0x63 0x14) hh he (cleared_noWait hh)

end

/-- Settles O58: a pool's rows are its functions' equations, by the pool, its queue and its ring. -/
theorem poolRows : Obligations.PoolRows := by
  intro s h hh
  refine ⟨?others, fun i q d p id c x o hr hp hid hc hx nw => ⟨fun ho hq hk => ?_, fun ho hq => ⟨fun hu hk => ?_, fun h63 hu hf => ?alloc⟩,
      fun ho => ⟨fun hu hk => ?_, fun h63 hu hf => ?free⟩⟩,
    fun g m i d c h0 => if_pos h0, fun x v => poolIndices_sound (hm := (h, s.mem)), fun x v => poolIndices_free (hm := (h, s.mem)), ?serve,
    fun p id n r x hx => ⟨fun v => poolTake_takes (hm := (h, s.mem)) hx, fun v => poolTake_poisoned (hm := (h, s.mem)) hx,
      fun b => poolTake_fails (hm := (h, s.mem)) hx⟩,
    fun p id v q w u x g n k hx hw hr ha hg hn hk => ⟨poolPut_closed (hm := (h, s.mem)) hx hw hr ha hg hn,
      poolPut_counter (hm := (h, s.mem)) hx hw hr ha hg hn hk, poolPut_other (hm := (h, s.mem)) hx hw hr ha hg hn hk⟩,
    fun g i d => ⟨fun a => rfl, rfl, rfl⟩, ?timeout, fun i q hc => ?_, ?idle⟩
  case others =>
    intro i q c op o hc ho hk nw
    simp only [List.mem_cons, Prod.mk.injEq, List.not_mem_nil, or_false] at hc
    rcases hc with ⟨rfl, rfl⟩ | ⟨rfl, rfl⟩
    · exact desc_untouched (f := fun hm => poolAlloc hm i) hh ho hk nw
    · exact desc_untouched (f := fun hm => poolFree hm i) hh ho hk nw
  · exact poolAlloc_row hh hr ho (poolAlloc_stands (hm := (h, s.mem)) hp hid hx hq) hk nw
  · refine poolAlloc_row hh hr ho ((poolAlloc_new (hm := (h, s.mem)) hp hid hc hx hq).trans (if_pos ?_)) hk nw
    exact hu.imp (fun h => h) (Or.imp (fun h => by rw [h]; rfl) (fun h => h))
  case alloc =>
    have hknown := poolAlloc_known (hm := (h, s.mem)) hp hid hc hx hq h63 hu hf
    refine ⟨fun hb hk => ?_, fun hb he hn hk => ?_, fun hb hl hn hk => ?_, fun g hb hl hn hg hk => ?_⟩
    · exact poolAlloc_row hh hr ho (hknown.trans (if_pos hb)) hk nw
    · refine poolAlloc_row hh hr ho (hknown.trans ?_) hk nw
      rw [hb, if_neg Bool.false_ne_true, if_pos ⟨List.isEmpty_iff.2 he, hn⟩]
    · exact poolAlloc_row hh hr ho ((poolAlloc_late (hm := (h, s.mem)) hp hid hc hx hq h63 hu hf hb hl).trans (if_pos hn)) hk nw
    · subst hg
      exact poolAlloc_row hh hr ho ((poolAlloc_late (hm := (h, s.mem)) hp hid hc hx hq h63 hu hf hb hl).trans (if_neg hn)) hk nw
  · exact poolFree_row hh hr ho (poolFree_unknown (hm := (h, s.mem)) hp hid hc hx hu) hk nw
  case free =>
    refine ⟨fun hb hk => ?_, fun r b hb hi hk => ?_, fun r v hb hi hk => ?_, fun r v hb hi hl hk => ?_,
      fun r v w u hb hi hl hw => ⟨fun a hv hk => ?_, fun hv hk => ?_, fun hra ha hk => ?_⟩⟩
    · exact poolFree_row hh hr ho (poolFree_poisoned (hm := (h, s.mem)) hp hid hc hx h63 hu hf hb) hk nw
    · exact poolFree_row hh hr ho (poolFree_fails (hm := (h, s.mem)) hp hid hc hx h63 hu hf hb hi) hk nw
    · exact poolFree_row hh hr ho (poolFree_badList (hm := (h, s.mem)) hp hid hc hx h63 hu hf hb hi) hk nw
    · exact poolFree_row hh hr ho (poolFree_overflows (hm := (h, s.mem)) hp hid hc hx h63 hu hf hb hi hl) hk nw
    · exact poolFree_row hh hr ho (poolFree_refused (hm := (h, s.mem)) hp hid hc hx h63 hu hf hb hi hl hw hv) hk nw
    · exact poolFree_row hh hr ho (poolFree_absent (hm := (h, s.mem)) hp hid hc hx h63 hu hf hb hi hl hw hv) hk nw
    · exact poolFree_row hh hr ho (poolFree_returns (hm := (h, s.mem)) hp hid hc hx h63 hu hf hb hi hl hw hra ha) hk nw
  case serve =>
    intro i p id d c r e he
    exact ⟨fun b hb => serveAlloc_fails (hm := (h, s.mem)) (hb ▸ he), fun v hv => serveAlloc_poisoned (hm := (h, s.mem)) (hv ▸ he),
      fun v hv hb => serveAlloc_inline (hm := (h, s.mem)) (hv ▸ he) hb, fun v w hv hb hw => serveAlloc_writes (hm := (h, s.mem)) (hv ▸ he) hb hw⟩
  case timeout =>
    intro i q d k p w o hd ho ht hp hw he hk nw
    subst hk
    exact onAll_waiting (f := fun hm => poolTimeout hm i q 0x63 0x14) hh (poolTimeout_ends (hm := (h, s.mem)) hd ho ht hp hw he) nw
  · refine poolEmpty_idle hh ?_
    cases hd : findDesc (slipAt h i) q with
    | none => exact poolTimeout_none (hm := (h, s.mem)) hd
    | some d =>
      refine poolTimeout_idle (hm := (h, s.mem)) hd (.inr (.inr (hc.resolve_left ?_)))
      rw [hd]
      exact Option.some_ne_none d
  case idle =>
    intro i q d hd hc
    exact poolEmpty_idle hh (poolTimeout_idle (hm := (h, s.mem)) hd (hc.imp id .inl))

end Sys2Proof.Machine
end

/-!
PROOFS. Ledgers (section 17.2): their operations, the pages they take and return, and the extend's timeout.
-/

section
namespace Sys2Proof.Machine

/-! ### Deleting twice -/

/-- A table lists no key below its first. -/
theorem tabDel_absent {α : Type} {t : Tab α} {n : Nat} (h : ∀ e ∈ t, e.1 ≠ n) : tabDel t n = t := by
  induction t with
  | nil => rfl
  | cons e t ih =>
    obtain ⟨k, v⟩ := e
    rw [tabDel, if_neg (h (k, v) List.mem_cons_self), ih (fun e he => h e (List.mem_cons_of_mem _ he))]

theorem tabDel_tabDel {α : Type} [DecidableEq α] {d : α} {t : Tab α} (n : Nat) (hw : tabWf d t = true) : tabDel (tabDel t n) n = tabDel t n := by
  refine tabDel_absent ?_
  have hs := (tabWf_iff.1 hw).1
  clear hw
  induction t with
  | nil => exact fun e he => absurd he List.not_mem_nil
  | cons e t ih =>
    obtain ⟨k, v⟩ := e
    obtain ⟨hlt, ht⟩ := List.pairwise_cons.1 hs
    intro e he
    rw [tabDel] at he
    by_cases hk : k = n
    · rw [if_pos hk] at he
      have := hlt e he
      omega
    · rw [if_neg hk] at he
      rcases List.mem_cons.1 he with rfl | he
      · exact hk
      · exact ih ht e he

/-- Writing a key twice with one value is writing it once. -/
theorem tabPut_tabPut {α : Type} [DecidableEq α] {d : α} {t : Tab α} (n : Nat) (a : α) (hw : tabWf d t = true) :
    tabPut d (tabPut d t n a) n a = tabPut d t n a := by
  by_cases ha : a = d
  · rw [tabPut, if_pos ha, tabPut, if_pos ha, tabDel_tabDel n hw]
  · rw [tabPut, if_neg ha, tabPut, if_neg ha, tabIns_tabIns]

section
variable {h : Hw} {n : Nat} {y : Ledger} (hw : tabWf {} h.sync.ledgers = true)
include hw

theorem ledgerAt_setLedger : ledgerAt (setLedger h n y) n = y := tabGet_put_same (d := ({} : Ledger)) n y hw

theorem setLedger_setLedger : setLedger (setLedger h n y) n y = setLedger h n y := by
  have e : tabPut {} (tabPut {} h.sync.ledgers n y) n y = tabPut {} h.sync.ledgers n y := tabPut_tabPut n y hw
  unfold setLedger
  dsimp only
  rw [e]

end

/-! ### A ledger descriptor at its unit -/

/-- The result of an operation on a ledger of no length. -/
theorem ledgerResult_zero {y : Ledger} (hl : y.l = 0) (ht : y.t = 0) (hn : y.npages = 0) : ledgerResult y 0 0 = zeros 16 := by
  unfold ledgerResult
  rw [hl, ht, hn]
  decide

/-- A choice by the opcode of a ledger operation: EXTEND, COMMIT, ROLLBACK, and TRIM. -/
def byLedgerOp {α : Type} (op : Nat) (extend commit rollback trim : α) : α :=
  match op with
  | 0x71 => extend
  | 0x72 => commit
  | 0x73 => rollback
  | _ => trim

/-- A ledger committed up to a length. -/
def commitTo (hm : HM) (i : Nat) (d : Desc) (n : Nat) (x : Ledger) (l : Nat) : HM :=
  (endDesc (setLedger hm.1 n { x with l := l, gen := if l = x.l then x.gen else x.gen + 1 }) i
    { d with result := ledgerResult { x with l := l, gen := if l = x.l then x.gen else x.gen + 1 } 0 0 } 0 0, hm.2)

/-- A ledger cut to a length, its surplus pages returned. -/
def cutTo (hm : HM) (i : Nat) (d : Desc) (n p l : Nat) : HM :=
  endReturn (setLengths hm p n l l false d.seq.toNat).1 i d n (setLengths hm p n l l false d.seq.toNat).2
    (fun _ => ledgerAt (setLengths hm p n l l false d.seq.toNat).1.1 n)

/-- The pages a RELEASE of a poisoned ledger returns: none where T or the list is poisoned. -/
def releasePoisoned (hm : HM) (n p : Nat) (x : Ledger) (d : Desc) : HM × Returned :=
  if x.poison &&& 6 = 0 then setLengths hm p n 0 0 true d.seq.toNat else (hm, .ok 0)

section
variable {hm : HM} {i n : Nat} {d : Desc} {x : Ledger} (hn : n = leAt d.bytes 0x10 2) (hx : x = ledgerAt hm.1 n)
include hn hx

theorem ledgerDesc_queued (ho : ledgerOwner hm.1 n = slipOwner hm.1 i) (hq : x.held = true ∨ x.queue ≠ []) :
    ledgerDesc hm i d = (setLedger (putDesc hm.1 i { d with phase := .waiting, since := hm.1.tb.now }) n { x with queue := x.queue ++ [(i, d.seq)] },
      hm.2) := by
  have hheld : (x.held || !x.queue.isEmpty) = true := by
    rcases hq with hq | hq
    · rw [hq, Bool.true_or]
    · rw [Bool.or_eq_true, Bool.not_eq_true', ← Bool.not_eq_true, List.isEmpty_iff]
      exact .inr hq
  subst hx hn
  refine if_pos ?_
  rw [hheld, decide_eq_true ho]
  rfl

theorem ledgerDesc_performed (hc : ledgerOwner hm.1 n ≠ slipOwner hm.1 i ∨ (x.held = false ∧ x.queue = [])) :
    ledgerDesc hm i d = settle (ledgerOp hm i d) := by
  subst hx hn
  refine if_neg ?_
  rcases hc with hc | ⟨hh, hq⟩
  · rw [decide_eq_false hc]
    exact Bool.false_ne_true
  · rw [hh, hq, Bool.and_eq_true]
    exact fun h => Bool.false_ne_true h.2

omit hx in
theorem ledgerOp_foreign (ho : ledgerOwner hm.1 n ≠ slipOwner hm.1 i) : ledgerOp hm i d = (haltDesc hm.1 i d 0x20, hm.2) := by
  subst hn
  exact if_pos ho

variable {p : Nat} (hp : p = slipOwner hm.1 i) (hw : ledgerOwner hm.1 n = p)
include hp hw

/-- INIT of a ledger the partition owns. -/
theorem ledgerOp_init (ho : opcode d = 0x70) :
    ledgerOp hm i d = if x.active then (haltDesc hm.1 i d 0x40, hm.2)
      else if !(poolAt hm.1 p (leAt d.bytes 0x14 1)).used ∨ (poolAt hm.1 p (leAt d.bytes 0x14 1)).die ≠ n / 16384 then (haltDesc hm.1 i d 0x42, hm.2)
      else (endDesc (setLedger hm.1 n {
        list := leAt d.bytes 0x18 8 / 64 % 2 ^ 50, pool := leAt d.bytes 0x14 1, active := true, cap := leAt d.bytes 0x20 4,
        spare := leAt d.bytes 0x15 1, queue := x.queue }) i { d with result := zeros 16 } 0 0, hm.2) := by
  subst hx hn hp
  unfold ledgerOp
  dsimp only
  rw [if_neg (not_not.2 hw), if_pos ho, ledgerResult_zero]
  · rfl
  · rfl
  · rfl

/-- A poisoned word stops every operation but INIT and TRIM with RELEASE. -/
theorem ledgerOp_poisoned (ho : opcode d ∈ [0x71, 0x72, 0x73] ∨ (opcode d = 0x74 ∧ leAt d.bytes 0x14 1 ≠ 1)) (hb : x.poison ≠ 0) :
    ledgerOp hm i d = (endDesc hm.1 i { d with poison := true } 0x01 0, hm.2) := by
  have hinit : opcode d ≠ 0x70 := by
    simp only [List.mem_cons, List.not_mem_nil, or_false] at ho
    omega
  have hnot : ¬ (opcode d = 0x74 ∧ decide (leAt d.bytes 0x14 1 = 1) = true) := by
    rw [decide_eq_true_iff]
    simp only [List.mem_cons, List.not_mem_nil, or_false] at ho
    omega
  subst hx hn hp
  unfold ledgerOp
  dsimp only
  rw [if_neg (not_not.2 hw), if_neg hinit, if_pos]
  refine ⟨hb, ?_⟩
  rw [decide_eq_false hnot]
  rfl

/-- A ledger's operation but INIT and the ones a poisoned word stops. -/
theorem ledgerOp_goes (ho : opcode d ≠ 0x70) (hb : x.poison = 0 ∨ (opcode d = 0x74 ∧ leAt d.bytes 0x14 1 = 1)) :
    ledgerOp hm i d = byLedgerOp (opcode d) (ledgerExtend hm i d n)
      (if (if leAt d.bytes 0x14 1 = 1 then x.t else x.l + leAt d.bytes 0x18 4) > x.t then (haltDesc hm.1 i d 0x40, hm.2)
        else commitTo hm i d n x (if leAt d.bytes 0x14 1 = 1 then x.t else x.l + leAt d.bytes 0x18 4))
      (cutTo hm i d n p x.l)
      (if leAt d.bytes 0x14 1 = 1 then (if x.poison ≠ 0 then
          (endDesc (setLedger (releasePoisoned hm n p x d).1.1 n { gen := (ledgerAt (releasePoisoned hm n p x d).1.1 n).gen, poison := x.poison, queue := x.queue })
            i { d with poison := true } 0x01 0, (releasePoisoned hm n p x d).1.2)
          else endReturn (setLengths hm p n 0 0 true d.seq.toNat).1 i d n (setLengths hm p n 0 0 true d.seq.toNat).2
            (fun _ => { gen := (ledgerAt (setLengths hm p n 0 0 true d.seq.toNat).1.1 n).gen, queue := x.queue }))
        else if leAt d.bytes 0x18 4 > x.l then (haltDesc hm.1 i d 0x40, hm.2) else cutTo hm i d n p (leAt d.bytes 0x18 4)) := by
  have hgo : ¬ (x.poison ≠ 0 ∧ (!decide (opcode d = 0x74 ∧ decide (leAt d.bytes 0x14 1 = 1) = true)) = true) := by
    rintro ⟨h1, h2⟩
    rcases hb with hb | hb
    · exact h1 hb
    · rw [Bool.not_eq_true', decide_eq_false_iff_not] at h2
      exact h2 ⟨hb.1, decide_eq_true hb.2⟩
  subst hx hn hp
  unfold ledgerOp
  dsimp only
  rw [if_neg (not_not.2 hw), if_neg ho, if_neg hgo]
  simp only [decide_eq_true_eq]
  rfl

theorem ledgerOp_extend (ho : opcode d = 0x71) (hb : x.poison = 0) : ledgerOp hm i d = ledgerExtend hm i d n := by
  rw [ledgerOp_goes hn hx hp hw (by omega) (.inl hb), ho]
  rfl

theorem ledgerOp_commit {l : Nat} (ho : opcode d = 0x72) (hb : x.poison = 0)
    (hl : l = (if leAt d.bytes 0x14 1 = 1 then x.t else x.l + leAt d.bytes 0x18 4)) :
    ledgerOp hm i d = if l > x.t then (haltDesc hm.1 i d 0x40, hm.2) else commitTo hm i d n x l := by
  rw [ledgerOp_goes hn hx hp hw (by omega) (.inl hb), ho, hl]
  rfl

theorem ledgerOp_trimLate (ho : opcode d = 0x74) (hb : x.poison = 0) (hf : leAt d.bytes 0x14 1 ≠ 1) (hl : x.l < leAt d.bytes 0x18 4) :
    ledgerOp hm i d = (haltDesc hm.1 i d 0x40, hm.2) := by
  rw [ledgerOp_goes hn hx hp hw (by omega) (.inl hb), ho]
  exact (if_neg hf).trans (if_pos hl)

/-- ROLLBACK and TRIM set both lengths and return surplus pages. -/
theorem ledgerOp_cuts {l : Nat}
    (ho : (opcode d = 0x73 ∧ l = x.l) ∨ (opcode d = 0x74 ∧ leAt d.bytes 0x14 1 ≠ 1 ∧ l = leAt d.bytes 0x18 4 ∧ l ≤ x.l)) (hb : x.poison = 0) :
    ledgerOp hm i d = cutTo hm i d n p l := by
  rcases ho with ⟨ho, rfl⟩ | ⟨ho, hf, rfl, hl⟩
  · rw [ledgerOp_goes hn hx hp hw (by omega) (.inl hb), ho]
    rfl
  · rw [ledgerOp_goes hn hx hp hw (by omega) (.inl hb), ho]
    exact (if_neg hf).trans (if_neg (Nat.not_lt.2 hl))

theorem ledgerOp_releases {r : HM} {e : Returned} (ho : opcode d = 0x74) (hf : leAt d.bytes 0x14 1 = 1) (hb : x.poison = 0)
    (hr : setLengths hm p n 0 0 true d.seq.toNat = (r, e)) :
    ledgerOp hm i d = endReturn r i d n e (fun _ => { gen := (ledgerAt r.1 n).gen, queue := x.queue }) := by
  rw [ledgerOp_goes hn hx hp hw (by omega) (.inl hb), ho, hr]
  exact (if_pos hf).trans (if_neg (not_not.2 hb))

theorem ledgerOp_clears {r : HM} {y : Ledger} (ho : opcode d = 0x74) (hf : leAt d.bytes 0x14 1 = 1) (hb : x.poison ≠ 0)
    (hr : r = (releasePoisoned hm n p x d).1) (hy : y = { gen := (ledgerAt r.1 n).gen, poison := x.poison, queue := x.queue }) :
    ledgerOp hm i d = (endDesc (setLedger r.1 n y) i { d with poison := true } 0x01 0, r.2) := by
  subst hy hr
  rw [ledgerOp_goes hn hx hp hw (by omega) (.inr ⟨ho, hf⟩), ho]
  exact (if_pos hf).trans (if_pos hb)

end

/-! ### EXTEND -/

/-- What an extend does with the pages it takes of its pool. -/
def extendTaken (i : Nat) (d : Desc) (n : Nat) (r : HM × Except Bad (Bool × List Nat)) : HM :=
  match r.2 with
  | .error b => (failAccess r.1.1 i d b, r.1.2)
  | .ok (true, _) => (endDesc r.1.1 i { d with poison := true } 0x01 0, r.1.2)
  | .ok (false, v) => finishExtend r.1 i d n v

section
variable {hm : HM} {i n c : Nat} {d : Desc} {x : Ledger} (hx : x = ledgerAt hm.1 n)
include hx

theorem ledgerExtend_inactive (ha : x.active = false) : ledgerExtend hm i d n = (haltDesc hm.1 i d 0x40, hm.2) := by
  subst hx
  unfold ledgerExtend
  dsimp only
  rw [ha, if_pos (by decide)]

variable (hc : c = leAt d.bytes 0x18 4) (ha : x.active = true)
include hc ha

theorem ledgerExtend_overCap (hl : 16 * x.cap < x.t + c) : ledgerExtend hm i d n = (haltDesc hm.1 i d 0x41, hm.2) := by
  subst hx hc
  unfold ledgerExtend
  dsimp only
  rw [ha, if_neg (by decide), if_pos hl]

variable (hl : x.t + c ≤ 16 * x.cap)
include hl

/-- An extend that stays within the pages needs none. -/
theorem ledgerExtend_within (hn : x.t + c ≤ 16 * x.npages) : ledgerExtend hm i d n = finishExtend hm i d n [] := by
  have hneed : ceilDiv (x.t + c) 16 - x.npages = 0 := by
    unfold ceilDiv
    omega
  subst hx hc
  unfold ledgerExtend
  dsimp only
  rw [ha, if_neg (by decide), if_neg (Nat.not_lt.2 hl), if_pos hneed]

variable {p need : Nat} {pl : Pool} (hp : p = slipOwner hm.1 i) (hpl : pl = poolAt hm.1 p x.pool) (hn : 16 * x.npages < x.t + c)
  (hneed : need = ceilDiv (x.t + c) 16 - x.npages)
include hp hpl hn hneed

/-- An extend past its pages goes to the ledger's pool. -/
theorem ledgerExtend_pool :
    ledgerExtend hm i d n = if !pl.used ∨ pl.die ≠ n / 16384 then (haltDesc hm.1 i d 0x42, hm.2)
      else if pl.poison then (endDesc hm.1 i { d with poison := true } 0x01 0, hm.2)
      else if pl.queue.isEmpty ∧ poolFreeCount pl ≥ need then extendTaken i d n (poolTake hm p x.pool need)
      else if leAt d.bytes 0x14 1 = 1 then (endDesc hm.1 i d 0x03 0, hm.2)
      else (setPool (setLedger (putDesc hm.1 i { d with phase := .waiting, since := hm.1.tb.now, begun := true }) n { x with held := true }) p x.pool
        { pl with queue := pl.queue ++ [{ slip := i, seq := d.seq, count := need, ledger := some n }] }, hm.2) := by
  have hpos : ¬ ceilDiv (x.t + c) 16 - x.npages = 0 := by
    unfold ceilDiv
    omega
  subst hneed hpl hp hx hc
  unfold ledgerExtend
  dsimp only
  rw [ha, if_neg (by decide), if_neg (Nat.not_lt.2 hl), if_neg hpos]
  rfl

theorem ledgerExtend_noPool (hu : pl.used = false ∨ pl.die ≠ n / 16384) : ledgerExtend hm i d n = (haltDesc hm.1 i d 0x42, hm.2) :=
  (ledgerExtend_pool hx hc ha hl hp hpl hn hneed).trans (if_pos (hu.imp (fun h => by rw [h]; rfl) (fun h => h)))

variable (hu : pl.used = true) (hd : pl.die = n / 16384)
include hu hd

/-- An extend whose pool is of its sync island. -/
theorem ledgerExtend_onPool :
    ledgerExtend hm i d n = if pl.poison then (endDesc hm.1 i { d with poison := true } 0x01 0, hm.2)
      else if pl.queue.isEmpty ∧ poolFreeCount pl ≥ need then extendTaken i d n (poolTake hm p x.pool need)
      else if leAt d.bytes 0x14 1 = 1 then (endDesc hm.1 i d 0x03 0, hm.2)
      else (setPool (setLedger (putDesc hm.1 i { d with phase := .waiting, since := hm.1.tb.now, begun := true }) n { x with held := true }) p x.pool
        { pl with queue := pl.queue ++ [{ slip := i, seq := d.seq, count := need, ledger := some n }] }, hm.2) := by
  refine (ledgerExtend_pool hx hc ha hl hp hpl hn hneed).trans (if_neg ?_)
  rintro (h | h)
  · rw [hu] at h
    cases h
  · exact h hd

theorem ledgerExtend_badPool (hb : pl.poison = true) : ledgerExtend hm i d n = (endDesc hm.1 i { d with poison := true } 0x01 0, hm.2) :=
  (ledgerExtend_onPool hx hc ha hl hp hpl hn hneed hu hd).trans (if_pos hb)

variable (hb : pl.poison = false)
include hb

theorem ledgerExtend_takes (hq : pl.queue = []) (hf : need ≤ (pl.tail - pl.head).toNat) :
    ledgerExtend hm i d n = extendTaken i d n (poolTake hm p x.pool need) := by
  refine (ledgerExtend_onPool hx hc ha hl hp hpl hn hneed hu hd).trans ?_
  rw [hb, if_neg Bool.false_ne_true, if_pos ⟨List.isEmpty_iff.2 hq, hf⟩]

theorem ledgerExtend_waits (hf : pl.queue ≠ [] ∨ (pl.tail - pl.head).toNat < need) :
    ledgerExtend hm i d n = if leAt d.bytes 0x14 1 = 1 then (endDesc hm.1 i d 0x03 0, hm.2)
      else (setPool (setLedger (putDesc hm.1 i { d with phase := .waiting, since := hm.1.tb.now, begun := true }) n { x with held := true }) p x.pool
        { pl with queue := pl.queue ++ [{ slip := i, seq := d.seq, count := need, ledger := some n }] }, hm.2) := by
  have hnot : ¬ (pl.queue.isEmpty ∧ poolFreeCount pl ≥ need) := by
    rintro ⟨h1, h2⟩
    exact hf.elim (fun h => h (List.isEmpty_iff.1 h1)) (fun h => absurd h2 (Nat.not_le.2 h))
  refine (ledgerExtend_onPool hx hc ha hl hp hpl hn hneed hu hd).trans ?_
  rw [hb, if_neg Bool.false_ne_true, if_neg hnot]

end

/-- An extend that needs no page. -/
theorem finishExtend_none {hm : HM} {i n : Nat} {d : Desc} {x y : Ledger} (hx : x = ledgerAt hm.1 n)
    (hy : y = { x with t := x.t + leAt d.bytes 0x18 4, gen := x.gen + 1, held := false }) :
    finishExtend hm i d n [] = (endDesc (setLedger hm.1 n y) i { d with result := ledgerResult y 0 0 } 0 0, hm.2) := by
  subst hy hx
  rfl

/-- An extend that enters its pages in the list. -/
theorem finishExtend_pages {hm : HM} {i n : Nat} {d : Desc} {x y : Ledger} {v : List Nat} {w : HM} (hx : x = ledgerAt hm.1 n) (hv : v ≠ [])
    (hb : listBad x = false) (hw : writeSlots hm (slipOwner hm.1 i) (pageSlot x) x.npages v = (w, .ok))
    (hy : y = { x with t := x.t + leAt d.bytes 0x18 4, npages := x.npages + v.length, gen := x.gen + 1, held := false }) :
    finishExtend hm i d n v = (endDesc (setLedger w.1 n y) i { d with result := ledgerResult y v.length 0 } 0 0, w.2) := by
  have he : v.isEmpty = false := by
    rw [← Bool.not_eq_true, List.isEmpty_iff]
    exact hv
  subst hy hx
  unfold finishExtend
  dsimp only
  rw [he, if_neg Bool.false_ne_true, hw, hb, if_neg (fun h => Bool.false_ne_true h.2)]
  rfl

/-! ### Lengths and returned pages -/

section
variable {hm : HM} {p n k q : Nat} {x : Ledger} (hx : x = ledgerAt hm.1 n)
include hx

theorem setLengths_sets {l t c : Nat} {r : HM} {y : Ledger} (hk : k = ceilDiv t 16 + x.spare) (hr : returnPages hm p n k q = (r, .ok c))
    (hy : y = ledgerAt r.1 n) : setLengths hm p n l t false q =
      ((setLedger r.1 n { y with l := l, t := t, gen := if x.l ≠ l ∨ x.t ≠ t ∨ c ≠ 0 then y.gen + 1 else y.gen }, r.2), .ok c) := by
  have hkeep : keepPages x t false = k := hk.symm
  subst hy hx
  unfold setLengths
  dsimp only
  rw [hkeep, hr]
  simp only [decide_eq_true_eq]

theorem returnPages_none (hk : x.npages ≤ k) : returnPages hm p n k q = (hm, .ok 0) := by
  subst hx
  exact if_pos hk

variable (hk : k < x.npages)
include hk

theorem returnPages_badList (hb : listBad x = true) : returnPages hm p n k q = (hm, .bad (.refused (compactLocal (x.list * 64)))) := by
  subst hx
  exact (if_neg (Nat.not_le.2 hk)).trans (if_pos hb)

variable (hb : listBad x = false) {pl : Pool} (hpl : pl = poolAt hm.1 p x.pool)
include hb hpl

theorem returnPages_noPool (hu : pl.used = false ∨ pl.die ≠ n / 16384) : returnPages hm p n k q = (hm, .halt 0x42) := by
  subst hpl hx
  unfold returnPages
  dsimp only
  rw [if_neg (Nat.not_le.2 hk), hb, if_neg Bool.false_ne_true]
  exact if_pos (hu.imp (fun h => by rw [h]; rfl) (fun h => h))

variable (hu : pl.used = true) (hd : pl.die = n / 16384)
include hu hd

theorem returnPages_badPool (hp : pl.poison = true) : returnPages hm p n k q = (hm, .poison) := by
  have hpool : ¬ ((!pl.used) = true ∨ pl.die ≠ n / 16384) := fun h => h.elim (fun h => by rw [hu] at h; cases h) (fun h => h hd)
  subst hpl hx
  unfold returnPages
  dsimp only
  rw [if_neg (Nat.not_le.2 hk), hb, if_neg Bool.false_ne_true, if_neg hpool]
  exact if_pos hp

variable (hp : pl.poison = false) {u : HM} {v : List Nat}
  (hs : readSlots hm (n / 16384) p (pageSlot x) k (x.npages - k) = (u, .ok (false, v)))
include hp hs

theorem returnPages_overflow (ho : pl.entries < (pl.tail - pl.head).toNat + (x.npages - k)) : returnPages hm p n k q = (hm, .halt 0x45) := by
  have hpool : ¬ ((!pl.used) = true ∨ pl.die ≠ n / 16384) := fun h => h.elim (fun h => by rw [hu] at h; cases h) (fun h => h hd)
  subst hpl hx
  unfold returnPages
  dsimp only
  rw [if_neg (Nat.not_le.2 hk), hb, if_neg Bool.false_ne_true, if_neg hpool, hp, if_neg Bool.false_ne_true, hs]
  exact if_pos ho

theorem returnPages_returns {r : HM} (ho : (pl.tail - pl.head).toNat + (x.npages - k) ≤ pl.entries)
    (hr : poolPut (poolIndices u pl v).1 p x.pool (poolIndices u pl v).2 q = (r, .ok)) :
    returnPages hm p n k q = ((setLedger r.1 n { ledgerAt r.1 n with npages := k }, r.2), .ok (x.npages - k)) := by
  have hpool : ¬ ((!pl.used) = true ∨ pl.die ≠ n / 16384) := fun h => h.elim (fun h => by rw [hu] at h; cases h) (fun h => h hd)
  have hroom : ¬ poolFreeCount pl + (x.npages - k) > pl.entries := Nat.not_lt.2 ho
  subst hpl hx
  unfold returnPages
  dsimp only
  rw [if_neg (Nat.not_le.2 hk), hb, if_neg Bool.false_ne_true, if_neg hpool, hp, if_neg Bool.false_ne_true, hs]
  dsimp only
  rw [if_neg hroom, hr]

end

/-- A cut that returns no page. -/
theorem cutTo_kept {hm : HM} {i n p l : Nat} {d : Desc} {x y : Ledger} (hx : x = ledgerAt hm.1 n) (hk : x.npages ≤ ceilDiv l 16 + x.spare)
    (hw : tabWf {} hm.1.sync.ledgers = true) (hy : y = { x with l := l, t := l, gen := if x.l ≠ l ∨ x.t ≠ l then x.gen + 1 else x.gen }) :
    cutTo hm i d n p l = (endDesc (setLedger hm.1 n y) i { d with result := ledgerResult y 0 0 } 0 0, hm.2) := by
  have hset : setLengths hm p n l l false d.seq.toNat = ((setLedger hm.1 n y, hm.2), .ok 0) := by
    rw [setLengths_sets hx rfl (returnPages_none hx hk) hx, hy]
    simp only [ne_eq, not_true_eq_false, or_false]
  unfold cutTo
  rw [hset]
  dsimp only
  rw [endReturn, ledgerAt_setLedger hw, setLedger_setLedger hw]

/-! ### The rows -/

/-- Each ledger command is its opcode's descriptor at the ledger's unit. -/
theorem exec_ledgerDesc {s : State} {i op : Nat} {q : W32} {c : Instr}
    (hc : (c, op) ∈ [(Instr.ledgerInit i q, 0x70), (.ledgerExtend i q, 0x71), (.ledgerCommit i q, 0x72), (.ledgerRollback i q, 0x73),
      (.ledgerTrim i q, 0x74)]) : exec c s = onAll s (waiting (fun hm => settle (onDescM hm i q op (ledgerDesc hm i)))) := by
  simp only [List.mem_cons, Prod.mk.injEq, List.not_mem_nil, or_false] at hc
  rcases hc with ⟨rfl, rfl⟩ | ⟨rfl, rfl⟩ | ⟨rfl, rfl⟩ | ⟨rfl, rfl⟩ | ⟨rfl, rfl⟩ <;> rfl

theorem extendTimeout_idle {s : State} {h : Hw} {i : Nat} {q : W32} (hh : h = clearSent s.hw)
    (he : poolTimeout (h, s.mem) i q 0x71 0x1C = (h, s.mem)) : exec (.ledgerExtendTimeout i q) s = .next (s.withHw h) := by
  rw [← idle_ended hh]
  exact onAll_waiting (f := fun hm => poolTimeout hm i q 0x71 0x1C) hh he (cleared_noWait hh)

/-- Settles O59: a ledger's rows are its functions' equations, by its state, its pages and its pool. -/
theorem ledgerRows : Obligations.LedgerRows := by
  intro s h hh
  refine ⟨?commands, ?unit, ?operation,
    fun i d n v x w y hx hv hb hw hy => finishExtend_pages (hm := (h, s.mem)) hx hv hb hw hy,
    fun o i d n f => ⟨fun c => rfl, rfl, fun e => rfl, fun b => rfl⟩, ?lengths, ?timeout, fun i q hc => ?_, ?idle⟩
  case commands =>
    intro i q c op o hc nw
    rw [exec_ledgerDesc hc]
    exact ⟨fun d hr ho hk => desc_settled (f := fun hm => ledgerDesc hm i) hh hr ho rfl hk nw,
      fun ho hk => desc_untouched (f := fun hm => ledgerDesc hm i) hh ho hk nw⟩
  case unit =>
    intro i d n x hn hx
    refine ⟨ledgerDesc_queued (hm := (h, s.mem)) hn hx, fun ho => ?_, fun ho hl hq => ledgerDesc_performed (hm := (h, s.mem)) hn hx (.inr ⟨hl, hq⟩)⟩
    rw [ledgerDesc_performed (hm := (h, s.mem)) hn hx (.inl ho), ledgerOp_foreign (hm := (h, s.mem)) hn ho]
  case operation =>
    intro i d n x p pl c need hn hx hp hw hpl hc hneed
    refine ⟨fun ho ha => ?_, fun ho ha hu => ?_, fun y ho ha hu hd hy => ?_, ledgerOp_poisoned (hm := (h, s.mem)) hn hx hp hw, fun ho hb => ?extend,
      fun l ho hb hl => ⟨fun ht => ?_, fun y ht hy => ?_⟩, fun ho hb hf hl => ledgerOp_trimLate (hm := (h, s.mem)) hn hx hp hw ho hb hf (hc ▸ hl),
      fun y l ho hb => ⟨fun hk hwf hy => ?_, fun r e hr => ?_⟩,
      fun r e ho hf hb hr => ledgerOp_releases (hm := (h, s.mem)) hn hx hp hw ho hf hb hr,
      fun r y ho hf hb hr hy => ledgerOp_clears (hm := (h, s.mem)) hn hx hp hw ho hf hb hr hy⟩
    · exact (ledgerOp_init (hm := (h, s.mem)) hn hx hp hw ho).trans (if_pos ha)
    · rw [ledgerOp_init (hm := (h, s.mem)) hn hx hp hw ho, ha, if_neg Bool.false_ne_true]
      exact if_pos (hu.imp (fun h => by rw [h]; rfl) (fun h => h))
    · rw [ledgerOp_init (hm := (h, s.mem)) hn hx hp hw ho, ha, if_neg Bool.false_ne_true, hu, hy]
      exact if_neg (fun h => h.elim (fun h => by cases h) (fun h => h hd))
    case extend =>
      rw [ledgerOp_extend (hm := (h, s.mem)) hn hx hp hw ho hb]
      refine ⟨ledgerExtend_inactive (hm := (h, s.mem)) hx, ledgerExtend_overCap (hm := (h, s.mem)) hx hc, fun y ha hl hk hy => ?_,
        fun ha hl hk => ⟨ledgerExtend_noPool (hm := (h, s.mem)) hx hc ha hl hp hpl hk hneed, fun hu hd =>
          ⟨ledgerExtend_badPool (hm := (h, s.mem)) hx hc ha hl hp hpl hk hneed hu hd, fun r e hb hq hf ht => ?_, fun hb hf => ?_⟩⟩⟩
      · rw [ledgerExtend_within (hm := (h, s.mem)) hx hc ha hl hk]
        exact finishExtend_none (hm := (h, s.mem)) hx (hc ▸ hy)
      · rw [ledgerExtend_takes (hm := (h, s.mem)) hx hc ha hl hp hpl hk hneed hu hd hb hq hf, ht]
        exact ⟨fun b hb => hb ▸ rfl, fun v hv => hv ▸ rfl, fun v hv => hv ▸ rfl⟩
      · rw [ledgerExtend_waits (hm := (h, s.mem)) hx hc ha hl hp hpl hk hneed hu hd hb hf]
        exact ⟨fun hf => if_pos hf, fun hf => if_neg hf⟩
    · exact (ledgerOp_commit (hm := (h, s.mem)) hn hx hp hw ho hb (hc ▸ hl)).trans (if_pos ht)
    · rw [ledgerOp_commit (hm := (h, s.mem)) hn hx hp hw ho hb (hc ▸ hl), if_neg (Nat.not_lt.2 ht), hy]
      rfl
    · exact (ledgerOp_cuts (hm := (h, s.mem)) hn hx hp hw (hc ▸ ho) hb).trans (cutTo_kept (hm := (h, s.mem)) hx hk hwf hy)
    · rw [ledgerOp_cuts (hm := (h, s.mem)) hn hx hp hw (hc ▸ ho) hb, cutTo, hr]
  case lengths =>
    intro p n l t q k x pl r hx hpl hk
    exact ⟨fun c y => setLengths_sets (hm := (h, s.mem)) hx hk, returnPages_none (hm := (h, s.mem)) hx,
      returnPages_badList (hm := (h, s.mem)) hx, fun hlt hb => ⟨returnPages_noPool (hm := (h, s.mem)) hx hlt hb hpl,
        returnPages_badPool (hm := (h, s.mem)) hx hlt hb hpl, fun u v hu hd hp hs =>
          ⟨returnPages_overflow (hm := (h, s.mem)) hx hlt hb hpl hu hd hp hs, returnPages_returns (hm := (h, s.mem)) hx hlt hb hpl hu hd hp hs⟩⟩⟩
  case timeout =>
    intro i q d k p w o hd ho ht hp hw he hk nw
    subst hk
    exact onAll_waiting (f := fun hm => poolTimeout hm i q 0x71 0x1C) hh (poolTimeout_ends (hm := (h, s.mem)) hd ho ht hp hw he) nw
  · refine extendTimeout_idle hh ?_
    cases hd : findDesc (slipAt h i) q with
    | none => exact poolTimeout_none (hm := (h, s.mem)) hd
    | some d =>
      refine poolTimeout_idle (hm := (h, s.mem)) hd (.inr (.inr (hc.resolve_left ?_)))
      rw [hd]
      exact Option.some_ne_none d
  case idle =>
    intro i q d hd hc
    exact extendTimeout_idle hh (poolTimeout_idle (hm := (h, s.mem)) hd (hc.imp (fun h => h) .inl))

end Sys2Proof.Machine
end

/-!
PROOFS. The end of a VERIFY (section 17.4).
-/

section
namespace Sys2Proof.Machine

/-- A page return that fails leaves everything as it was. -/
theorem setLengths_halted {hm u : HM} {p n l t q e : Nat} {b : Bool} (hr : setLengths hm p n l t b q = (u, .halt e)) : u = hm := by
  unfold setLengths at hr
  dsimp only at hr
  split at hr
  · cases hr
  · exact ((Prod.mk.inj hr).1).symm

section
variable {hm : HM} {i n : Nat} {d : Desc} {r : Run} {x : Ledger} {v : VRow} (hn : n = vLedger d) (hx : x = ledgerAt hm.1 n)
include hn hx

theorem verifyEnd_poisonedLedger (hb : x.poison ≠ 0) :
    verifyEnd hm i d r v = (endDesc hm.1 i { d with poison := true, result := verifyResult x 0 0 0 r.cyc } 0x01 0, hm.2) := by
  subst hx hn
  unfold verifyEnd
  dsimp only
  rw [if_pos hb, decide_eq_true rfl, Bool.or_true]

theorem verifyEnd_changed (hb : x.poison = 0) (hg : x.gen.toNat ≠ r.gen) (hv : v ≠ .poison) :
    verifyEnd hm i d r v = (endDesc hm.1 i d 0x09 0x40, hm.2) := by
  subst hx hn
  unfold verifyEnd
  dsimp only
  rw [if_neg (not_not.2 hb), if_pos hg]
  cases v with
  | poison => exact absurd rfl hv
  | accept => rfl
  | roll f => rfl
  | next t f => rfl

theorem verifyEnd_changedPoison (hg : x.gen.toNat ≠ r.gen) :
    verifyEnd hm i d r .poison = (endDesc hm.1 i { d with poison := true, result := verifyResult x 0 0 0 r.cyc } 0x01 0, hm.2) := by
  by_cases hb : x.poison = 0
  · subst hx hn
    unfold verifyEnd
    dsimp only
    rw [if_neg (not_not.2 hb), if_pos hg, decide_eq_true rfl, Bool.or_true]
  · exact verifyEnd_poisonedLedger hn hx hb

variable (hb : x.poison = 0) (hg : x.gen.toNat = r.gen) {u : HM}
include hb hg

section
variable (hv : v = .poison ∨ ∃ f, v = .roll f)
include hv

theorem verifyEnd_backFails {e : Nat} (hr : setLengths hm (slipOwner hm.1 i) n x.l x.l false d.seq.toNat = (u, .halt e)) :
    verifyEnd hm i d r v = (haltDesc hm.1 i d e, hm.2) := by
  have hu := setLengths_halted hr
  subst hu
  subst hx hn
  unfold verifyEnd
  dsimp only
  rw [if_neg (not_not.2 hb), if_neg (not_not.2 hg)]
  rcases hv with rfl | ⟨f, rfl⟩
  · dsimp only
    rw [hr]
  · dsimp only
    rw [hr]

end

section
variable {c : Nat} (hr : setLengths hm (slipOwner hm.1 i) n x.l x.l false d.seq.toNat = (u, .ok c))
include hr

theorem verifyEnd_poison : verifyEnd hm i d r .poison =
    (endDesc u.1 i { d with poison := true, result := verifyResult (ledgerAt u.1 n) 0 0 0 r.cyc } 0x01 0, u.2) := by
  subst hx hn
  unfold verifyEnd
  dsimp only
  rw [if_neg (not_not.2 hb), if_neg (not_not.2 hg), hr]
  dsimp only
  rw [decide_eq_true rfl, Bool.or_true]

theorem verifyEnd_roll {f : Nat} : verifyEnd hm i d r (.roll f) =
    (endDesc u.1 i { d with poison := d.poison, result := verifyResult (ledgerAt u.1 n) 0 f 0 r.cyc } 0x0A 0, u.2) := by
  subst hx hn
  unfold verifyEnd
  dsimp only
  rw [if_neg (not_not.2 hb), if_neg (not_not.2 hg), hr]
  dsimp only
  rw [decide_eq_false (by decide), Bool.or_false]

end

theorem verifyEnd_next {t f c : Nat} {g : Hw}
    (hr : setLengths hm (slipOwner hm.1 i) n (x.l + r.done + 1) (x.l + r.done + 1) false d.seq.toNat = (u, .ok c))
    (he : g = bobWrite u.1 (vOutput d).1 (vOutput d).2.1 (bobRead u.1 (vTokens d).1 (vTokens d).2.1 (4 * r.done) ++ leBytes 4 t) false) :
    verifyEnd hm i d r (.next t f) =
      (endDesc g i { d with poison := d.poison, result := verifyResult (ledgerAt g n) r.done f t r.cyc } 0x00 0, u.2) := by
  subst he hx hn
  unfold verifyEnd
  dsimp only
  rw [if_neg (not_not.2 hb), if_neg (not_not.2 hg), hr]
  dsimp only
  rw [decide_eq_false (by decide), Bool.or_false]

theorem verifyEnd_nextFails {t f e : Nat}
    (hr : setLengths hm (slipOwner hm.1 i) n (x.l + r.done + 1) (x.l + r.done + 1) false d.seq.toNat = (u, .halt e)) :
    verifyEnd hm i d r (.next t f) = (haltDesc hm.1 i d e, hm.2) := by
  have hu := setLengths_halted hr
  subst hu
  subst hx hn
  unfold verifyEnd
  dsimp only
  rw [if_neg (not_not.2 hb), if_neg (not_not.2 hg), hr]

end

section
variable {hm : HM} {i : Nat} {d : Desc} {r k : Run} {p : Bool} {g : Hw} {v : VRow × Hw}
  (hg : g = passOver (advanceTo hm.1 (hm.1.tb.now + quadNs hm.1 (fQuad d) (rowCycles d))) r)
  (hv : v = (if p then (.poison, g) else verifyRow g d (bitOf (tabGet 0 g.weaves.fmode (fQuad d)) 2) r.next))
  (hk : k = { r with next := r.next + 1, passed := none, cyc := r.cyc + rowCycles d })
include hg hv hk

/-- An accepted draft gives the finisher up at its boundary. -/
theorem verifyRowEnd_accepts (ha : v.1 = .accept) : verifyRowEnd hm i d r p =
    (putRun (restamp v.2 { k with done := r.done + 1 }).1 (restamp v.2 { k with done := r.done + 1 }).2, hm.2) := by
  subst hk
  unfold verifyRowEnd
  dsimp only
  rw [← hg, ← hv, ha]

/-- Any other row ends the descriptor, unless an extend holds its ledger. -/
theorem verifyRowEnd_ends (ha : v.1 ≠ .accept) : verifyRowEnd hm i d r p = if (ledgerAt hm.1 (vLedger d)).held then hm
    else verifyEnd ((if p then corrected v.2 3 (fQuad d) (4 * fQuad d) none else v.2), hm.2) i d k v.1 := by
  subst hk
  unfold verifyRowEnd
  dsimp only
  rw [← hg, ← hv]
  cases hw : v.1 with
  | accept => exact absurd hw ha
  | poison => rfl
  | roll f => rfl
  | next t f => rfl

end

/-- Settles O60: a VERIFY's end is its function's equation, by the ledger, the row and the page return. -/
theorem verifyOutcomes : Obligations.VerifyOutcomes := by
  intro s h i d r n x hh hn hx
  refine ⟨fun v hb => verifyEnd_poisonedLedger (hm := (h, s.mem)) hn hx hb, fun v hb hg hv => verifyEnd_changed (hm := (h, s.mem)) hn hx hb hg hv,
    fun hg => verifyEnd_changedPoison (hm := (h, s.mem)) hn hx hg, fun u c hb hg hr => verifyEnd_poison (hm := (h, s.mem)) hn hx hb hg hr,
    fun f u c hb hg hr => verifyEnd_roll (hm := (h, s.mem)) hn hx hb hg hr,
    fun v u e hb hg hv hr => verifyEnd_backFails (hm := (h, s.mem)) hn hx hb hg hv hr,
    fun t f u c g hb hg hr he => verifyEnd_next (hm := (h, s.mem)) hn hx hb hg hr he,
    fun t f u e hb hg hr => verifyEnd_nextFails (hm := (h, s.mem)) hn hx hb hg hr, fun g v k p hg hv hk => ?_⟩
  refine ⟨verifyRowEnd_accepts (hm := (h, s.mem)) hg hv hk, fun ha hl => ?_, fun ha hl => ?_⟩
  · rw [verifyRowEnd_ends (hm := (h, s.mem)) hg hv hk ha]
    exact if_pos (by rw [← hn, ← hx]; exact hl)
  · rw [verifyRowEnd_ends (hm := (h, s.mem)) hg hv hk ha]
    exact if_neg (by rw [← hn, ← hx, hl]; exact Bool.false_ne_true)

end Sys2Proof.Machine
end
